-- ==== Sys2Proof/Word.lean ====
section
/-!
DEFINITION. Word: the byte, and little-endian reading and writing of bytes (R5).
-/
namespace Sys2Proof

/-- One octet of a message or image. -/
abbrev Byte := BitVec 8

/-- The `n` low octets of `v`, least significant first (R5). -/
def toLE : Nat → Nat → List Byte
  | 0, _ => []
  | n + 1, v => BitVec.ofNat 8 v :: toLE n (v / 256)

/-- The unsigned value of octets, least significant first (R5). -/
def ofLE : List Byte → Nat
  | [] => 0
  | b :: bs => b.toNat + 256 * ofLE bs

/-- The unsigned value of the `n` octets at offset `o` (R5). -/
def rd (n o : Nat) (bs : List Byte) : Nat := ofLE ((bs.drop o).take n)

/-- The first `n` records of `k` octets each. -/
def chunks (k : Nat) : Nat → List Byte → List (List Byte)
  | 0, _ => []
  | n + 1, bs => bs.take k :: chunks k n (bs.drop k)

/-- The two's-complement value of an `n`-bit field (R7). -/
def signed (n v : Nat) : Int :=
  if v % 2 ^ n < 2 ^ (n - 1) then ((v % 2 ^ n : Nat) : Int) else ((v % 2 ^ n : Nat) : Int) - ((2 ^ n : Nat) : Int)

/-- The `n`-bit two's-complement field of a value (R7). -/
def field (n : Nat) (v : Int) : Nat := (v % ((2 ^ n : Nat) : Int)).toNat

/-- Bit `k` of `v`. -/
def bit (v k : Nat) : Bool := (v / 2 ^ k) % 2 == 1

end Sys2Proof
end

