-- ==== Sys2Proof/Syntax.lean ====
section
/-!
DEFINITION. Syntax: the named values of the spec, the operand types, and the commands of the block (one constructor per row of
the table of operations and events). A command's operands carry what the outside of the block brings with it: the bytes of a message,
the samples of a converter, the time stamp of an edge, the outcome of a cryptographic check.
-/
namespace Sys2Proof

/-- Quality codes of an item (R58): 0 Good to 6 Invalid, in this order. -/
inductive Quality where
  | good | held | stale | missing | inconsistent | substituted | invalid
  deriving DecidableEq, Repr

/-- Modes of Table 19-10 (R523). -/
inductive Mode where
  | start | commission | standby | operate | service | lockout
  deriving DecidableEq, Repr

/-- Life-cycle states of Table 19-1 (R507). -/
inductive LifeCycle where
  | blank | provisioned | field | returned
  deriving DecidableEq, Repr

/-- What the main die does: POR_N low, Start running, Start halted, running after Start, or held in reset for VMAIN (R515, R519, R572, R573). -/
inductive Phase where
  | por | start | halted | run | mainReset
  deriving DecidableEq, Repr

/-- Role of a session (R394). -/
inductive Role where
  | observer | operator | engineer | safety | vendor
  deriving DecidableEq, Repr

/-- Names of the parameter tables; an index of a name is not part of the constructor (R408). -/
inductive PName where
  | timeSampleSource | timeSampleQuietMin | timeSampleSyncOffset | linkStrings | linkPlan
  | linkBricks | linkTxSyncLead | linkRoute | linkRelayRestore | linkJoinModes
  | linkJoinWindow | linkCmdTries | linkBulkDownMin | linkBulkTimeout | linkMicAlarm
  | cellCoarseTol | cellBrickTol | cellOwDev | cellOwSum | cellOwFrames
  | cellOwAuto | cellOwDuration | cellOwConfirm | cellOwRetry | cellBleedR
  | cellBalEnable | cellBalModes | cellBalPeriod | cellBalBand | cellBalStop
  | cellBalTMax | cellBalVMin | cellBalTHot | cellCmpOv | cellCmpUv
  | cellBurstTimeout | estISource | estForagerIq | estDrift | estCountGain
  | estSigmaMax | estSigmaHyst | estRestI | estRestT | estRestTFull
  | estRelaxSkip | estRelaxRetry | estRelaxFitMax | estRelaxSettled | estOcvBranchQ
  | estAnchorSlopeMin | estAnchorVErr | estAnchorLoad | estAnchorLoadErr | estAnchorEndSigma
  | estAnchorTMin | estAnchorTMax | estEodV | estEodHyst | estEocV
  | estEocHyst | estEocITaper | impModes | impPeriod | impRate
  | impCount | impTone | impAmp | impSettle | impRamp
  | impArmLead | impUncomp | impDelay | impIAgree | impIDrift
  | impRTone | impRWeight | impRDefault | impTempTone | impTempBeta
  | impTempCalRest | impTempCalSpread | impHealthWarn | estCapNominal | estCapModes
  | estCapPeriod | estCapChargeRate | estCapRate | estCapChargeTmax | estCapDisTmax
  | estCapTMin | estCapTMax | estCapSpanMin | estCapWarn | estStorePeriod
  | regStrings | regCalGain | regCalZero | regMeasStuck | regMeasRange
  | regMeasLostTicks | regPwmPhase | regPwmDead | regPwmInterleave | regDutyMin
  | regDutyMax | regIRating | regISlew | regRegionDwell | regSatReport
  | regVbusMin | regVbusMax | regManualSlew | regShadow | dispSrcPrimary
  | dispSrcBackup | dispSrcRevert | dispSrcRevertT | dispHostTimeout | dispBusTimeout
  | dispAnaZero | dispAnaSpan | dispPulseF0 | dispPulseK | dispPulseFmin
  | dispPulseFmax | dispPulseGate | dispPMax | dispRamp | dispLossReact
  | dispLossHold | dispLossRamp | dispAllowSource | dispAllowChg | dispAllowDis
  | dispAllowTimeout | dispIMax | dispEndReact | dispHealthK | dispHealthFloor
  | dispAnchorBias | dispRestEnable | dispRestT | dispRestGap | dispRestMargin
  | dispSurveyAuto | dispConnectAuto | dispCtrTFb | dispPreDv | dispPreTmax
  | dispPreOverlap | dispDiscI | dispDiscTmax | thermCellChgHiWarn | thermCellChgHiThrottle
  | thermCellChgHiShut | thermCellChgLoWarn | thermCellChgLoThrottle | thermCellChgLoShut | thermCellDisHiWarn
  | thermCellDisHiThrottle | thermCellDisHiShut | thermCellHyst | thermChgMin | thermChgMax
  | thermMap | thermIntUse | thermIntAge | thermDieMargin | thermStuckT
  | thermDieStuck | thermDieP2Share | thermDisable | thermDieDisable | thermCoolOn
  | thermHeatOn | thermCoolGpio | thermHeatGpio | safeStrings | safeCalGain
  | safeCalZero | safeOcI | safeIplausT | safeXcheckI | safeVbusMax
  | safeVbusMin | safeVbusUvT | safeVbusAgree | safeTripDisc | safeCellOv
  | safeCellUv | safeCellChgHi | safeCellChgLo | safeCellDisHi | safeChgI
  | safeMonitorLossT | safeCmpEnforce | safeCmpT | safeFbT | safeWeldT
  | safeOpenI | safeResetConn | safeFslTrip | safeFslChannels | safeFslUdpPort
  | safeFslCanRx | safeFslCanTx | safeFslWdMin | safeFslWdMax | safeFslSeqWindow
  | safeFslErrMax | safeFslStatusConn | safeFslStatusPeriod | safeFslStatusWd | safeFslStatusAddr
  | safeFslStatusPort | timeSource | timeStartWait | timeStepLimit | timeServoTau
  | timeRateMax | timeRateStep | timeErrAsym | timeHoldDrift | timeSyncLimit
  | timePtpDomain | timePtpMaster | timePtpPriority1 | timePtpPriority2 | timePtpPorts
  | timeEthLatTx | timeEthLatRx | timePpsOut | timePpsWidth | timePpsWindow
  | timeCapEdge | timeCapFilter | timeCapReader | timeOutGpio | timeOutPeriod
  | timeOutPhase | timeOutWidth | timeBlockStagger | hostIpAddr | hostIpMask
  | hostIpGw | hostUdpPort | hostSessionIdle | hostOpenConfirm | hostRateReq
  | hostRateBurst | hostRateErr | hostPushMax | hostKey | canPortEnable
  | canPortMode | canPortNominal | canPortData | canPortSpNom | canPortSpData
  | canAutobaudDwell | canBusoffWait | canBbBase | canBbStatusPeriod | canTimeRole
  | canTimePriority | canTimePeriod | canTimeOffset | canTimeDelay | canTimeTakeover
  | canCoPort | canCoPeriod | canCoSyncOffset | canCoMiss | progStartMode
  | progForceOperate | progStageTimeout | recCellExtremes | recClearModes | memScrubPeriod
  | memMramScrubPeriod | memBankRetire | memLineRepeat | bootStartMode | bootLifecycle
  | bootFlashFirst | bootHaltTries | bootDiscoverFrames | bootPosition | bootBlock
  | bootUid | bootSignKeyX | bootSignKeyY | bootModuleKeyX | bootModuleKeyY
  | bootSectionLen | bootSection | updFwLead | updConfirmT | updIdleDays
  | updForagerTries | updKeyX | updKeyY | bistEnable | bistSlices
  | bistRequalPasses | pwrLimit | pwrP3Max
  deriving DecidableEq, Repr

/-- A parameter: its name and the values of up to two indices (R408). -/
structure ParamKey where
  p : PName
  i : Nat := 0
  j : Nat := 0
  deriving DecidableEq, Repr

/-- Uplink data of Table 4-7 (R78). -/
structure Uplink where
  cellV : List Nat := []
  coarse : List Int := []
  brickV : Nat := 0
  therm : List Int := []
  dieT : Int := 0
  bleed : BitVec 16 := 0
  ov : BitVec 16 := 0
  uv : BitVec 16 := 0
  flags : BitVec 8 := 0
  cmdTag : Nat := 0
  rssi : Int := 0
  bulkAck : Nat := 0
  clkCorr : Int := 0
  deriving DecidableEq, Repr

/-- What the link engine notes of a frame beside its bytes (R73). -/
structure RxMeta where
  string : Nat          -- radio port
  slot : Nat            -- slot in which it was received (Table 4-3)
  ts : Nat              -- hardware timestamp (R73)
  level : Int           -- received level, dBm (Table 4-18)
  deriving DecidableEq, Repr

/-- A PSDU as the link engine reads it from a transceiver (R67, R73, R77). -/
structure Rx extends RxMeta where
  psdu : List (BitVec 8)
  deriving DecidableEq, Repr

/-- Diagnostic record of Table 5-4 (R141). -/
structure Diag where
  uid : Nat
  format : Nat := 1
  hwRev : Nat := 0
  code : Nat := 0
  parity : Bool := false
  resetCause : Nat := 0
  fwActive : Nat := 0
  fwInactive : Nat := 0
  ovThr : Nat := 0
  uvThr : Nat := 0
  cmpHyst : Nat := 0
  cmpFilter : Nat := 500
  restarts : Nat := 0
  loopStops : Nat := 0
  owTests : Nat := 0
  bleedR : List Nat := []
  calDay : Nat := 0
  deriving DecidableEq, Repr

/-- A time on the wire (R361): 48-bit seconds and 32-bit nanoseconds. -/
structure WireTime where
  sec : Nat
  nanos : Nat
  deriving DecidableEq, Repr

/-- A bulk fragment as received (Table 4-15). -/
structure Fragment where
  xfer : Nat
  object : Nat
  index : Nat
  total : Nat
  len : Nat
  data : List (BitVec 8)
  deriving DecidableEq, Repr

/-- A sigma-delta channel up to a modulator clock edge (R230, R232): bit i of `bits` is the level of its bitstream i clocks before that edge, for the 769 clocks that a decimation and its validity look at. -/
structure Density where
  bits : Nat
  deriving DecidableEq, Repr

/-- VCORE as it is read during a slice, in mV (R563). -/
structure VcoreRead where
  t : Nat
  mv : BitVec 16
  deriving DecidableEq, Repr

/-- A Guard channel where its decimator forms a value (R312): its bitstream, and the frequency of its modulator clock in Hz as the Guard oscillator measures it. -/
structure GuardDens where
  d : Density
  clk : BitVec 32
  deriving DecidableEq, Repr

/-- What the checks of a lane and of the spare that shadows it say of a tick (R257): nothing, the lane's self-check, a missed deadline of the lane, a shadow difference whose repeats find the active lane, the spare, both or none faulty, and the spare's own self-check or missed deadline. -/
inductive LaneCheck where
  | ok | selfError | overrun | shadowActive | shadowSpare | shadowBoth | shadowOpen | spareSelf | spareOverrun
  deriving DecidableEq, Repr

/-- An edge on an input with capture (R376, R378): module time of the first transition, and for how many ns the new level has held. -/
structure Edge where
  at_ : Nat
  held : Nat
  deriving DecidableEq, Repr

/-- What a frame received on Ethernet carries below its payload (R385, R386): source MAC address and sequence number of its redundancy trailer; the destination of the IPv4 datagram and of UDP, which are by default those of Table 14-10; whether the datagram has options or is a fragment, and whether its UDP checksum is right or 0. -/
structure NetHead where
  prp : Option (Nat × Nat) := none
  dest : Nat := 0xC0A80A0A
  port : Nat := 47200
  options : Bool := false
  fragment : Bool := false
  sum : Bool := true
  deriving DecidableEq, Repr

/-- Where an echo or ARP request comes from: its IPv4 address, and what its frame carries. -/
structure NetFrom where
  addr : Nat
  net : NetHead := {}
  deriving DecidableEq, Repr

/-- Where a received FSL unit comes from (R352): a UDP datagram, or the oldest FSL frame in receive FIFO 0 of a CAN port. -/
inductive UnitFrom where
  | udp (net : NetHead) (bytes : List (BitVec 8))
  | can (port : Fin 2)
  deriving DecidableEq, Repr

/-- Mirrored contents of Table 18-3 (R498); session by its slot. -/
inductive Mirrored where
  | cfgTables | pathTables | program | recorder | session (slot : Fin 8)
  deriving DecidableEq, Repr

/-- Contents of MRAM (Table 18-4, R499); copyB says that the failed line lies in copy B. -/
inductive MramPart where
  | shadow | learned (n : Fin 4) (copyB : Bool) | program (copyB : Bool) | roster (copyB : Bool) | key (n : Fin 4) (copyB : Bool)
  | latches (copyB : Bool) | confirm (copyB : Bool) | journal (entry : Fin 16) | recorder (region line : Nat)
  deriving DecidableEq, Repr

/-- What a line that fails its check holds (Table 18-2); image lines by their number in the buffer, mirrored lines with whether the mirror fails too. -/
inductive LineHolds where
  | code | configuration | stored | image (buf : Fin 3) (line : Nat) | mirrored (m : Mirrored) (both : Bool) | mirrorDiffers | transient | mram (p : MramPart)
  deriving DecidableEq, Repr

/-- A line as a reader or a scrubber finds it (R492 to R494): its byte address in its memory, the 64 bytes and the check that it holds, what it holds, the content of the source from which it is repaired (Tables 18-2, 18-4), and a write of a part of it that the read was for: offset and bytes. -/
structure LineFault where
  addr : Nat
  data : List (BitVec 8)
  check : BitVec 16
  holds : LineHolds
  source : List (BitVec 8) := []
  part : Option (Nat × List (BitVec 8)) := none
  deriving DecidableEq, Repr

/-- The unit in transfer when a DMA channel halts (R496). -/
inductive DmaUnit where
  | fhp | fsl | spami (n : Fin 4) | bulk (n : Fin 4) | can (p : Fin 2) | learned (n : Fin 4) | other
  deriving DecidableEq, Repr

/-- What comes with an FHP request besides its bytes: what its frame carries below UDP; the times at which the parts of its reply are handed to the MAC (R405), and what the flash shows when a chunk is written (R542): its area blank, and the chunk read back as written. -/
structure FhpEnv where
  net : NetHead := {}
  ends : List Nat := []
  blank : Bool := true
  written : Bool := true
  deriving DecidableEq, Repr

/-- How a Start step ends (R516): its work is done within its limit; the slot passes its checks (step 2); where the failure lay, the port of step 4 or the string and copy of step 8. -/
structure StartEnv where
  ok : Bool := true
  slotOk : Bool := true
  place : Nat := 0
  deriving DecidableEq, Repr

/-- The commands of the block: one constructor per row of the table of operations and events. -/
inductive Instr where
  /-- POR_N_RELEASE (R515). Release of POR_N begins Start; the Guard checks RESET_N and starts driving the fault loops. -/
  | porNRelease (t : Nat) (resetHigh pfwHigh : Bool)
  /-- START_STEP (R516). A Start step of Table 19-7 completes or fails within its limit, and the next step runs or the module restarts. -/
  | startStep (t : Nat) (pfwHigh : Bool) (env : StartEnv)
  /-- START_TIME_ACQUISITION (R366). The first offset sample during the time step sets module time in one step; if none arrives by time.start.wait, module time runs on. -/
  | startTimeAcquisition (sample : Option (Nat × Int × Nat))
  /-- START_DISCOVERY_END (R517). When boot.discover.frames have passed, roster entries still provisional stay in the roster and are reported. -/
  | startDiscoveryEnd (t : Nat)
  /-- TICK_BOUNDARY (R35). Compare unit 0 marks a tick boundary, and the tick-class tables with pending swap requests swap. -/
  | tickBoundary (t : Nat) (ana : Density)
  /-- FRAME_BOUNDARY (R40). Compare unit 1 marks a frame boundary: frame-class tables swap, pending mode changes and grants take effect, and the frame's work begins. -/
  | frameBoundary (t : Nat) (req : List Nat) (lines : List LineFault) (laneFails : List (Nat × Nat)) (late : Bool)
  /-- SAMPLE_INSTANT (R39). Compare unit 2 fires at the cell sample instant, and the Regulator takes the extra decimated value of every channel. -/
  | sampleInstant (t : Nat) (net : List Int) (k : Nat) (ch : List Density) (gpio : BitVec 16)
  /-- LANE_SAMPLE (R235). At phin of each tick the lane of string n takes its measurements and computes the observer, output, duties, integrator and prediction. -/
  | laneSample (t : Nat) (n : Fin 4) (ch : List Density) (chk : LaneCheck)
  /-- MEASUREMENT_LOST_STOP (R234). After reg.meas.lost.ticks consecutive ticks lacking measurement, the Regulator stops the converter. -/
  | measurementLostStop (t : Nat) (n : Fin 4)
  /-- OUTPUT_SATURATED (R247). An output clamped for reg.sat.report consecutive ticks raises event 0x4008. -/
  | outputSaturated (t : Nat) (n : Fin 4)
  /-- PWM_TURNING_POINT (R252). At each carrier turning point the PWM unit loads the compare values written in the previous tick. -/
  | pwmTurningPoint (t : Nat) (n : Fin 4)
  /-- LANE_TAKEOVER (R258). The spare lane takes over the faulty lane's string and the routing switches at the next tick. -/
  | laneTakeover (t : Nat)
  /-- UWB_SYNC (R72). Compare units 3–6 drive UWBn_SYNC so that the transceiver sends the waggle beacon of the frame. -/
  | uwbSync (t : Nat) (n : Fin 4)
  /-- BEACON_NOT_CONFIRMED (R110). A transceiver that has not confirmed the beacon by 400 µs raises event 0x200D. -/
  | beaconNotConfirmed (t : Nat) (n : Fin 4)
  /-- RADIO_PORT_RESET (R110). A transceiver that does not answer, or whose IRQ stays asserted for a frame, is reset through UWBn_RST_N and reconfigured. -/
  | radioPortReset (t : Nat) (n : Fin 4)
  /-- RADIO_PORT_READY (R110). Once a reset transceiver is ready again, beacons resume at the next frame boundary. -/
  | radioPortReady (t : Nat) (n : Fin 4)
  /-- UPLINK (R84). An uplink, retry or relay frame read from a transceiver is checked under R84 and its readings are held for the frame. -/
  | uplink (m : RxMeta) (psdu : List (BitVec 8))
  /-- JOIN_REQUEST (R94). A join request received in the join slot is passed to the control path or counted as from an unknown unit. -/
  | joinRequest (string slot ts : Nat) (level : Int) (psdu : List (BitVec 8))
  /-- BULK_UP (R106). A bulk-up fragment is checked and held; a complete object is delivered and BULK_DONE is queued. -/
  | bulkUp (m : RxMeta) (psdu : List (BitVec 8))
  /-- UPLINK_DEADLINE (R102). Compare unit 15 at 8.8 ms closes uplinks and derives the relay map and bulk map of the next frame. -/
  | uplinkDeadline (t : Nat)
  /-- BULK_TRANSFER_TIMEOUT (R109). A bulk transfer without completion or progress for link.bulk.timeout frames is abandoned and BULK_ABORT is sent. -/
  | bulkTransferTimeout (t : Nat) (n : Fin 4) (b : Fin 36)
  /-- KEY_ACTIVATION (R86). At the activation frame, every frame of the string is secured with the new network key. -/
  | keyActivation (t : Nat) (n : Fin 4)
  /-- ESTIMATOR_UPDATE (R156). At the frame boundary the Estimator updates every cell from the samples of the previous frame and then forms the string reductions. -/
  | estimatorUpdate (t : Nat) (late : List Nat) (recomputed : Bool) (lost : List (Fin 4))
  /-- ESTIMATOR_OVERRUN (R157). Cells not updated by 4.0 ms are published with their previous values, and event 0x300F is raised. -/
  | estimatorOverrun (t : Nat)
  /-- COMB_PUBLICATION (R48). Compare unit 13 at 5.0 ms rotates the three Comb buffers and publishes the frame. -/
  | combPublication (t : Nat) (late : BitVec 16)
  /-- OPEN_WIRE_RESULT_TIMEOUT (R149). No open-wire result 150 frames after the end of the test returns the state to 2 and schedules a retry. -/
  | openWireResultTimeout (t : Nat) (n : Fin 4) (b : Fin 36)
  /-- OPEN_WIRE_RETRY (R148). After cell.ow.retry the open-wire test is sent again. -/
  | openWireRetry (t : Nat) (n : Fin 4) (b : Fin 36)
  /-- BURST_RESULT_TIMEOUT (R138). No burst result within cell.burst.timeout frames raises event 0x100B. -/
  | burstResultTimeout (t : Nat) (n : Fin 4) (b : Fin 36)
  /-- PROGRAM_DEADLINE (R462). Compare unit 14 at 8.0 ms ends an unfinished cycle, and the program moves to Stopped by overrun with safe values. -/
  | programDeadline (t us : Nat) (done : Bool)
  /-- SAFETY_EVALUATION (R315). At 5.0 ms the safety core reads the Guard status port and evaluates the Comb frame and FSL units, then sets its permits by 6.0 ms. -/
  | safetyEvaluation (t : Nat) (selfOk : Bool)
  /-- SAFETY_EVALUATION_MISSED (R45). An evaluation not done by 6.0 ms is a safety channel fault under R30. -/
  | safetyEvaluationMissed (t : Nat)
  /-- FSL_UNIT_RECEIVED (R352). The Hive writes a received FSL unit and its timestamp into the endpoint buffer, discarding a 33rd unit. -/
  | fslUnitReceived (t : Nat) (u : UnitFrom)
  /-- FSL_WATCHDOG_EXPIRY (R355). A consumed connection whose deadline passes becomes Expired, and a trip connection latches the group with SF19. -/
  | fslWatchdogExpiry (t : Nat) (k : Fin 8)
  /-- ALIVE_TOGGLE (R325). Every 20 µs the safety core toggles its alive line and the permit line of each granted string. -/
  | aliveToggle (t : Nat)
  /-- PERMIT_LAPSE (R325). A permit line without a toggle for 60 µs counts as withdrawn, and an alive line silent for 100 µs is a safety-core fault. -/
  | permitLapse (t : Nat)
  /-- PERMIT_WITHDRAWN (R326). A withdrawn permit drives GATE_ENn low within 1 µs. -/
  | permitWithdrawn (t : Nat) (n : Fin 4)
  /-- CONTACTOR_RELEASE (R326). The contactor outputs are released after 200 µs at low current, or at 20 ms after GATE_ENn went low. -/
  | contactorRelease (t : Nat) (n : Fin 4)
  /-- GUARD_VALUE (R312). A Guard decimator value every 3.2 µs is checked against the over-current, bus-voltage and validity hazards. -/
  | guardValue (t : Nat) (ch : List GuardDens)
  /-- GUARD_MEAN (R312). A 1 ms Guard mean is checked for plausibility, under-voltage and bus disagreement. -/
  | guardMean (t : Nat) (ch : List GuardDens)
  /-- FLOOP_EDGE_DRIVE (R313). Every 250 µs the Guard drives a fault-loop edge, and an edge not returned within 200 µs counts as missed. -/
  | floopEdgeDrive (t : Nat)
  /-- FLOOP_IN_EDGE (R313). A returned fault-loop edge resets the count of missed edges. -/
  | floopInEdge (e : Edge) (n : Fin 4) (high : Bool)
  /-- TRIP_INPUT_CHANGE (R314). A filtered change of TRIP_IN_A or TRIP_IN_B trips the group or starts the discrepancy timer. -/
  | tripInputChange (t : Nat) (a b : Bool)
  /-- TRIP_DISCREPANCY (R317). Trip inputs at different levels throughout safe.trip.disc latch the group with SF9. -/
  | tripDiscrepancy (t : Nat)
  /-- CFB_CHANGE (R329). A filtered change of a contactor feedback input starts or ends the SF15 and SF16 timing. -/
  | cfbChange (t : Nat) (n : Fin 4) (k : Fin 3) (closed : Bool)
  /-- CONTACTOR_FEEDBACK_FAULT (R317). An output on with its feedback open throughout safe.fb.t latches the string with SF15. -/
  | contactorFeedbackFault (t : Nat) (n : Fin 4) (k : Fin 3)
  /-- CONTACTOR_WELD (R317). An output off with its feedback closed throughout safe.weld.t latches SF16. -/
  | contactorWeld (t : Nat) (n : Fin 4) (k : Fin 3)
  /-- GUARD_SCV_RECOMPUTE (R316). Every 100 ms the Guard recomputes the SCV over its frozen parameters and compares it. -/
  | guardScvRecompute (t : Nat) (intact : Bool)
  /-- RESET_N_FALL (R331). A debounced fall of RESET_N starts the classing of a press. -/
  | resetNFall (t tf : Nat)
  /-- RESET_N_RISE (R332). A debounced rise of RESET_N classes the press, and the Guard clears its latches on a valid press. -/
  | resetNRise (t tr : Nat)
  /-- STUCK_RESET (R334). RESET_N still low 5.0 s after its fall is a stuck reset. -/
  | stuckReset (t : Nat)
  /-- STUCK_RESET_CLEAR (R334). RESET_N high for 1 s without a break clears the stuck state or the reset input fault. -/
  | stuckResetClear (t : Nat)
  /-- RESET_WINDOW_CLOSE (R333). The window closes 10 s after t_acc without a valid press, and its scopes return to Locked. -/
  | resetWindowClose (t : Nat)
  /-- CONNECTION_TIMEOUT (R284). A contactor not showing its state within disp.ctr.t_fb, or precharge not within disp.pre.tmax, fails the sequence. -/
  | connectionTimeout (t : Nat) (n : Fin 4)
  /-- DISCONNECTION_TMAX (R287). A disconnection not at low current by disp.disc.tmax turns the loop Off at current. -/
  | disconnectionTmax (t : Nat) (n : Fin 4)
  /-- LOSS_HOLD_EXPIRY (R271). At the end of disp.loss.hold, the held set-point ramps to zero. -/
  | lossHoldExpiry (t : Nat)
  /-- SOURCE_REVERT (R271). A primary source valid for disp.src.revert_t becomes the source in use again. -/
  | sourceRevert (t : Nat)
  /-- ALLOWANCE_TIMEOUT (R272). No allowance latched within disp.allow.timeout makes the configured allowance take effect. -/
  | allowanceTimeout (t : Nat)
  /-- REST_WINDOW_EXPIRY (R278). A rest window that has lasted disp.rest.t closes. -/
  | restWindowExpiry (t : Nat) (n : Fin 4)
  /-- BURST_ARM (R196). The impedance survey is armed with BURST_ARM to target 63 in the beacon of frame A. -/
  | burstArm (t : Nat)
  /-- BURST_CURRENT_SAMPLE (R200). At each burst sample instant the Regulator stores current values of channels A and B. -/
  | burstCurrentSample (t : Nat) (a b : Density)
  /-- SURVEY_BINS (R201). After t_end the Hive computes the current bins and may abort the survey. -/
  | surveyBins (t : Nat)
  /-- IMPEDANCE_RESULT (R204). With all burst results in, the Hive computes Z, R_ref and T_int and writes the impedance table. -/
  | impedanceResult (t : Nat)
  /-- IMPEDANCE_SURVEY_ABORT (R206). An abort condition ends the survey, ramps the tones to zero and sends BULK_ABORT. -/
  | impedanceSurveyAbort (t : Nat)
  /-- CAPACITY_SURVEY_ABORT (R215). A failed condition of Table 7-5 aborts the capacity survey to Return. -/
  | capacitySurveyAbort (t : Nat)
  /-- ROUND_DIE_SENSORS (R292). In frame r = 0 the die sensors are gated for 1 ms and counted. -/
  | roundDieSensors (t : Nat) (counts : List Nat)
  /-- ROUND_SUPPLY_SAMPLE (R572). In frame r = 0 the supply monitors are sampled, and supplies outside range raise event 0xA040. -/
  | roundSupplySample (t : Nat) (mv : List Nat) (input : Nat) (dom : List Nat)
  /-- BIST_SLICE (R559). In frame r = 50 one Hive slice runs on its isolated target. -/
  | bistSlice (t : Nat) (mv : BitVec 16) (clockOk : Bool) (result : Option (Bool × BitVec 32))
  /-- BIST_SLICE_ABORT (R563). VCORE leaving ±3 % during a slice, a missed 9.0 ms or a takeover aborts the slice. -/
  | bistSliceAbort (v : VcoreRead)
  /-- RECORDER_COMMIT (R481). In frame r = 99 the recorder commits the round's accumulations and pending clears to MRAM. -/
  | recorderCommit (t : Nat)
  /-- RECORDER_COMMIT_MISSED (R482). A commit not done by 9.5 ms is abandoned and carried into the next round. -/
  | recorderCommitMissed (t : Nat)
  /-- EVENT_RECORD (R479). A raised event merges into or takes a slot of its class ring. -/
  | eventRecord (t : Nat) (code : BitVec 16) (arg : BitVec 32)
  /-- FETCH_TRAP (R495). An instruction fetch from a failed line traps and refetches the line from the active slot. -/
  | fetchTrap (t : Nat) (addr : BitVec 32) (good : Bool)
  /-- DMA_HALT (R496). A DMA read of a failed line halts its channel, and the unit in transfer is discarded. -/
  | dmaHalt (t : Nat) (channel : BitVec 8) (f : LineFault) (u : DmaUnit)
  /-- BANK_COPY_COMPLETE (R500). When the copy completes, the address map switches at the next frame boundary. -/
  | bankCopyComplete (t : Nat)
  /-- CORE_PAIR_FAIL (R12). A core pair failing test or watchdog moves the Hive load to the other pair at the next frame boundary. -/
  | corePairFail (t : Nat) (p : Fin 2)
  /-- PFW_N_FALL (R580). A counted fall of PFW_N starts the power-fail sequence of journal, learned-value and event writes. -/
  | pfwNFall (t : Nat) (step6 : Bool)
  /-- POWER_FAIL_SEQUENCE_END (R580). At the end of the sequence with PFW_N high and VMAIN in range, the module runs on and P3 is restored. -/
  | powerFailSequenceEnd (t : Nat) (high : Bool) (vmain : BitVec 16)
  /-- VMAIN_LOSS (R583). VMAIN below 8.5 V holds the main die in reset, and the outputs go off. -/
  | vmainLoss (t : Nat)
  /-- VGUARD_LOSS (R327). A failure of VGUARD turns every output of the permit stage off at once. -/
  | vguardLoss (t : Nat)
  /-- PTP_SYNC (R367). An accepted Sync offset sample updates the frequency estimate and the target rate. -/
  | ptpSync (ts : Nat) (port : Fin 2) (gm : Nat) (origin : WireTime) (corr : Int)
  /-- PTP_ANNOUNCE (R363). An Announce message takes part in master selection or is rejected. -/
  | ptpAnnounce (ts : Nat) (port : Fin 2) (gm : Nat) (rank : List Nat) (domain : Nat) (ptpScale : Bool) (utc : Int)
  /-- PTP_PDELAY (R364). A completed Pdelay exchange validates the peer delay of its port. -/
  | ptpPdelay (t4 : Nat) (port : Fin 2) (seq : Nat) (t2 t3 : WireTime)
  /-- PTP_SYNC_SEND (R363). A master-capable module sends Sync, Follow_Up and Announce every second. -/
  | ptpSyncSend (t leaveA leaveB : Nat)
  /-- ANNOUNCE_TIMEOUT (R368). With no valid source left, module time enters holdover. -/
  | announceTimeout (t : Nat)
  /-- SYNC_BOUND_EXCEEDED (R369). A growing time error bound passing time.sync.limit ends synchronisation. -/
  | syncBoundExceeded (t : Nat)
  /-- PPS_IN_EDGE (R378). A PPS_IN rising edge gives an offset sample or is discarded outside the window. -/
  | ppsInEdge (e : Edge)
  /-- SYNC_IN_EDGE (R38). A SYNC_IN rising edge is captured for sync placement. -/
  | syncInEdge (e : Edge)
  /-- SYNC_LOST (R38). No SYNC_IN edge for 100 frames switches placement to carrier and sets Sync-lost. -/
  | syncLost (t : Nat)
  /-- PULSE_IN_EDGE (R267). A PULSE_IN rising edge is timestamped for the pulse set-point. -/
  | pulseInEdge (e : Edge)
  /-- CAP_IN_EDGE (R377). A filtered capture edge enters its queue or is dropped when the queue is full. -/
  | capInEdge (e : Edge) (k : Fin 8) (falling : Bool)
  /-- PPS_OUT (R374). Compare unit 7 raises PPS_OUT each whole second while synchronised. -/
  | ppsOut (t : Nat)
  /-- CONFIGURED_OUTPUT (R375). Compare units 16–23 drive their configured GPIO high and then low. -/
  | configuredOutput (t : Nat) (k : Fin 8)
  /-- COMPARE_ARM (R371). Arming a compare unit stores its target, fires it late, or refuses it. -/
  | compareArm (t : Nat) (u : Fin 24) (target : Nat)
  /-- TRANSMIT_TIMESTAMP (R380). A tagged frame leaving places a transmit timestamp entry, or is dropped when the queue is full. -/
  | transmitTimestamp (t id : Nat) (port : Fin 4)
  /-- FHP_DATAGRAM (R390). A received FHP payload is checked in order and dispatched to its opcode, or discarded. -/
  | fhpDatagram (t addr port : Nat) (bytes : List Byte) (env : FhpEnv)
  /-- OPEN (R396). OPEN creates a session with a derived session key, or is answered Busy. -/
  | openSession (t addr port seq : Nat) (pay tag : List Byte)
  /-- CLOSE (R397). CLOSE closes the session, ending its subscriptions and edit lock. -/
  | close (t id seq : Nat)
  /-- KEEPALIVE (R401). KEEPALIVE answers with status only and refreshes the idle timer. -/
  | keepalive (t id seq : Nat)
  /-- SESSION_IDLE_TIMEOUT (R397). A session without an accepted request for host.session.idle, or unconfirmed for host.open.confirm, closes. -/
  | sessionIdleTimeout (t : Nat) (k : Fin 8)
  /-- READ_ITEMS (R403). READ_ITEMS returns the requested Comb items of a frame under the lease. -/
  | readItems (t id seq : Nat) (pay : List Byte) (ends : List Nat)
  /-- READ_SLOTS (R404). READ_SLOTS returns raw slots of a frame. -/
  | readSlots (t id seq : Nat) (pay : List Byte) (ends : List Nat)
  /-- READ_MAP (R54). READ_MAP returns entries of the current or previous item map. -/
  | readMap (t id seq : Nat) (pay : List Byte)
  /-- SUBSCRIBE (R406). SUBSCRIBE opens a key or slot subscription. -/
  | subscribe (t id seq : Nat) (pay : List Byte)
  /-- UNSUBSCRIBE (R406). UNSUBSCRIBE ends a subscription. -/
  | unsubscribe (t id seq : Nat) (pay : List Byte)
  /-- PUSH (R407). For each due Comb frame the subscription is sent as PUSH parts within 10.0 ms, and late parts are dropped. -/
  | push (t : Nat) (k : Fin 8) (id : Nat) (ends : List Nat)
  /-- PARAM_READ (R409). PARAM_READ returns running and committed values with the pending flag. -/
  | paramRead (t id seq : Nat) (pay : List Byte)
  /-- EDIT_LOCK (R410). EDIT_LOCK takes or releases the edit lock. -/
  | editLock (t id seq : Nat) (pay : List Byte)
  /-- PARAM_WRITE (R410). PARAM_WRITE applies up to 16 parameter writes whole or not at all. -/
  | paramWrite (t id seq : Nat) (pay : List Byte)
  /-- COMMIT (R412). COMMIT checks the expected generation and starts building a new generation. -/
  | commit (t id seq : Nat) (pay : List Byte)
  /-- COMMIT_COMPLETE (R529). The flash and shadow writes of a commit complete or fail, and the commit is answered. -/
  | commitComplete (t : Nat) (ok4 ok6 : Bool)
  /-- DISCARD (R411). DISCARD returns every pending parameter to its committed value. -/
  | discard (t id seq : Nat)
  /-- EVENT_LIST (R484). EVENT_LIST returns records of one event class ring. -/
  | eventList (t id seq : Nat) (pay : List Byte)
  /-- REC_READ (R484). REC_READ returns bytes of a recorder region. -/
  | recRead (t id seq : Nat) (pay : List Byte)
  /-- PROG_LOAD (R466). PROG_LOAD delivers part of a program image and stages it when complete and valid. -/
  | progLoad (t id seq : Nat) (pay : List Byte)
  /-- PROG_READ (R467). PROG_READ returns bytes of the active or staged program image. -/
  | progRead (t id seq : Nat) (pay : List Byte)
  /-- PROGRAM_STAGING_TIMEOUT (R466). A staging receiving nothing for prog.stage.timeout is discarded. -/
  | programStagingTimeout (t : Nat)
  /-- UPD_BEGIN (R541). UPD_BEGIN checks a manifest and begins or resumes a staging. -/
  | updBegin (t id seq : Nat) (pay sig : List Byte)
  /-- UPD_CHUNK (R542). UPD_CHUNK writes one package chunk to the inactive slot and sets its bit. -/
  | updChunk (t id seq : Nat) (pay : List Byte) (env : FhpEnv)
  /-- UPD_STATUS (R545). UPD_STATUS returns the update state and the chunk bitmap. -/
  | updStatus (t id seq : Nat) (pay : List Byte)
  /-- UPDATE_STAGING_IDLE (R543). A staging without a chunk for upd.idle.days is discarded. -/
  | updateStagingIdle (t : Nat)
  /-- CAP_READ (R377). CAP_READ removes and returns capture entries for a host-read input. -/
  | capRead (t id seq : Nat) (pay : List Byte)
  /-- JOURNAL_READ (R522). JOURNAL_READ returns boot journal entries. -/
  | journalRead (t id seq : Nat) (pay : List Byte)
  /-- BIST_READ (R570). BIST_READ returns self-test records. -/
  | bistRead (t id seq : Nat) (pay : List Byte)
  /-- HOST_SETPOINT (R267). The command holds a host set-point as the latest valid host message, or refuses it above disp.p.max. -/
  | hostSetpoint (t : Nat) (w : Int)
  /-- HOST_ALLOWANCE (R272). The command holds a host allowance for the next latch. -/
  | hostAllowance (t : Nat) (chg dis : BitVec 16)
  /-- SELECT_SETPOINT_SOURCE (R269). The command names the primary or the backup as the source in use from the next frame. -/
  | selectSetpointSource (t : Nat) (backup : Bool)
  /-- CONNECT_STRING (R282). The command starts the connection sequence of a string, or refuses it. -/
  | connectString (t : Nat) (n : Fin 4)
  /-- DISCONNECT_STRING (R286). The command starts the disconnection of a string. -/
  | disconnectString (t : Nat) (n : Fin 4)
  /-- CLOSE_REST_WINDOW (R278). The command closes a rest window early. -/
  | closeRestWindow (t : Nat) (n : Fin 4)
  /-- CLEAR_FAILED_CONNECTION (R284). The command returns a failed connection state to open, or refuses it. -/
  | clearFailedConnection (t : Nat) (n : Fin 4)
  /-- CHANGE_MODE (R525). The command schedules an admitted mode change for a frame boundary, or refuses it. -/
  | changeMode (t : Nat) (r : Role) (code : BitVec 8)
  /-- RESTART_MODULE (R515). The command restarts the module through Start. -/
  | restartModule (t : Nat)
  /-- MANUAL_DUTY (R249). The command puts the loop in Manual with a commanded duty, or refuses it. -/
  | manualDuty (t : Nat) (n : Fin 4) (duty : BitVec 16)
  /-- AUTOMATIC (R248). The command returns a Manual loop to Automatic with a preset, or refuses it. -/
  | automatic (t : Nat) (n : Fin 4)
  /-- START_IMPEDANCE_SURVEY (R205). The command starts an impedance survey, or refuses it with a reason. -/
  | startImpedanceSurvey (t : Nat) (n : Fin 4)
  /-- ABORT_IMPEDANCE_SURVEY (R206). The command aborts a running impedance survey. -/
  | abortImpedanceSurvey (t : Nat)
  /-- START_CAPACITY_SURVEY (R216). The command starts a capacity survey, or refuses it with a reason. -/
  | startCapacitySurvey (t : Nat) (n : Fin 4)
  /-- ABORT_CAPACITY_SURVEY (R215). The command aborts a capacity survey to Return. -/
  | abortCapacitySurvey (t : Nat)
  /-- WRITE_LEARNED_VALUES (R222). The command writes the learned-value records of the named strings. -/
  | writeLearnedValues (t : Nat) (strings : BitVec 4)
  /-- RENEW_NETWORK_KEY (R86). The command generates a new K_net and sends KEY_NEXT with an activation frame. -/
  | renewNetworkKey (t : Nat) (n : Fin 4)
  /-- RELEASE_ROSTER_ENTRY (R99). The command sends LEAVE, frees the roster entry, and resets the cells' learned values when the cells-replaced flag is set. -/
  | releaseRosterEntry (t : Nat) (n : Fin 4) (b : Fin 36) (replaced : Bool)
  /-- OPEN_WIRE_TEST (R145). The command sends OPEN_WIRE for a wire of a brick. -/
  | openWireTest (t : Nat) (n : Fin 4) (b : Fin 36) (k : Fin 17)
  /-- CONFIRM_SCV (R338). The command stores the confirmed SCV of the committed generation, or refuses it. -/
  | confirmScv (t : Nat) (gen scv : BitVec 32)
  /-- PROGRAM_MODE (R445). The command sets the program to Run, Stop or Hold at the next cycle boundary. -/
  | programMode (t : Nat) (code : Fin 3)
  /-- FORCE_VARIABLE (R457). The command forces a program variable to a value. -/
  | forceVariable (t : Nat) (var : BitVec 16) (v : BitVec 64)
  /-- RELEASE_FORCE (R457). The command releases the force on a variable. -/
  | releaseForce (t : Nat) (var : BitVec 16)
  /-- ACTIVATE_ONLINE_CHANGE (R460). The command replaces the active program with the staged one at the cycle boundary, carrying over state. -/
  | activateOnlineChange (t : Nat) (version : BitVec 32)
  /-- CLEAR_RECORDER_REGION (R485). The command schedules a clear of a recorder region at the next round commit, or refuses it. -/
  | clearRecorderRegion (t session : Nat) (region : BitVec 8) (token : BitVec 32)
  /-- ACTIVATE_UPDATE (R548). The command begins the activation of the staged update, or refuses it. -/
  | activateUpdate (t : Nat) (version : BitVec 32)
  /-- ABORT_UPDATE (R545). The command discards the staging and aborts the forager transfers. -/
  | abortUpdate (t : Nat)
  /-- RUN_DEEP_SELF_TEST (R568). The command runs a destructive deep test of a block, or refuses it. -/
  | runDeepSelfTest (t : Nat) (block : BitVec 8)
  /-- ACTIVATION_SEQUENCE (R549). The activation disconnects the strings, broadcasts IMAGE_ACTIVATE, writes state and restarts at F_a, or cancels. -/
  | activationSequence (t : Nat)
  /-- UPDATE_CONFIRMATION (R552). All parts up within upd.confirm.t confirm the set and raise the security floor. -/
  | updateConfirmation (t : Nat) (seen : BitVec 7)
  /-- UPDATE_ROLLBACK (R554). A part not up by upd.confirm.t, or a failed trial Start, rolls the set back. -/
  | updateRollback (t : Nat)
  /-- FORAGER_STAGING_FAIL (R546). After upd.forager.tries failed transfers, a forager counts as not staged. -/
  | foragerStagingFail (t : Nat) (n : Fin 4) (b : Fin 36)
  /-- ICMP_ECHO (R386). An ICMP echo request is answered within the rate limit. -/
  | icmpEcho (t : Nat) (addr : NetFrom) (data : List Byte)
  /-- ARP_REQUEST (R386). An ARP request for the module's address is answered. -/
  | arpRequest (t : Nat) (from_ : NetFrom) (target : Nat)
  /-- PRP_SUPERVISION (R385). A PRP supervision frame is sent every 2 s on each LAN. -/
  | prpSupervision (t : Nat) (heard : BitVec 2)
  /-- CAN_FRAME_RECEIVED (R422). A received CAN frame is stamped and stored in its FIFO, or dropped when the FIFO is full. -/
  | canFrameReceived (sof ts : Nat) (p : Fin 2) (id : Nat) (ext remote : Bool) (data : List (BitVec 8))
  /-- SETPOINT (R426). A block-bus SETPOINT message is length-checked, deduplicated and held for the latch. -/
  | setpoint (t : Nat) (p : Fin 2)
  /-- TIME_REF (R429). Compare unit 12 makes the acting master queue TIME_REF on both ports. -/
  | timeRef (t : Nat)
  /-- TIME_FOLLOW (R429). Once the master reads the transmit stamp of a port, it queues TIME_FOLLOW on that port. -/
  | timeFollow (t : Nat) (p : Fin 2)
  /-- TIME_REF_RECEIVED (R430). A follower pairs a received TIME_REF with its TIME_FOLLOW into an offset sample. -/
  | timeRefReceived (t : Nat) (p : Fin 2)
  /-- TIME_MASTER_TAKEOVER (R431). A backup master hearing no TIME_REF for its takeover time becomes the acting master. -/
  | timeMasterTakeover (t : Nat)
  /-- CAN_ERROR_STATE (R423). A port entering error-passive or bus-off moves traffic to the other port. -/
  | canErrorState (t : Nat) (p : Fin 2) (err : Fin 3)
  /-- CAN_BUSOFF_RECOVERY (R423). After can.busoff.wait the controller starts bus-off recovery. -/
  | canBusoffRecovery (t : Nat) (p : Fin 2)
  /-- CAN_AUTOBAUD (R419). Rate detection fixes the nominal rate at the first error-free frame, or moves on after each dwell. -/
  | canAutobaud (t : Nat) (p : Fin 2) (good : Bool)
  /-- CAN_TX_REMOVAL (R421). An unsent transmit entry past its deadline is removed by firmware. -/
  | canTxRemoval (t : Nat)
  /-- CANOPEN_SYNC (R437). At can.co.sync_offset the manager queues SYNC. -/
  | canopenSync (t : Nat)
  /-- CANOPEN_HEARTBEAT (R436). A station boot-up or heartbeat advances the station state or is ignored for an unknown node. -/
  | canopenHeartbeat (t : Nat)
  /-- CANOPEN_SDO_RESPONSE (R436). The object 0x1000 upload answer makes the station Operational or Wrong type. -/
  | canopenSdoResponse (t : Nat)
  /-- CANOPEN_TPDO (R438). A TPDO adds to the station's input image, or is discarded for its length. -/
  | canopenTpdo (t : Nat)
  /-- CANOPEN_EMCY (R432). An EMCY message is recorded. -/
  | canopenEmcy (t : Nat)
  /-- CANOPEN_STATION_ABSENT (R436). A missed heartbeat or can.co.miss incomplete cycles make a station Absent. -/
  | canopenStationAbsent (t : Nat) (k : Fin 16)
  /-- POR_N_ASSERT (R321). POR_N going low clears every Guard latch, reopens the Guard load port and puts the main-die output lands into high impedance until the next release. -/
  | porNAssert (t : Nat)
  /-- VMAIN_RETURN (R572). VMAIN rising back above the reset level ends the reset in which the main die and D0 AON were held, and the main die starts again. -/
  | vmainReturn
  /-- FLOOP_EDGE_NOT_RETURNED (R313). 200 µs after the Guard drives a fault-loop edge with no matching transition on FLOOPn_IN, the edge counts as missed, and the eighth consecutive miss is a fault-loop stop. -/
  | floopEdgeNotReturned (t : Nat) (n : Fin 4)
  /-- PEER_DELAY_EXPIRY (R364). A port whose Pdelay exchange has not completed within the last 3 s loses its valid peer delay, which can change the slave port and raises event 0x6007. -/
  | peerDelayExpiry (t : Nat) (port : Fin 2)
  /-- PDELAY_REQ_SEND (R363). Every second each enabled PTP port sends a Pdelay_Req to start a peer delay exchange. -/
  | pdelayReqSend (t : Nat)
  /-- TIME_FOLLOW_UP_MISSING (R430). A TIME_REF that is still unpaired 20 ms after it arrived is discarded, and event 0x6038 is raised. -/
  | timeFollowUpMissing (t : Nat)
  /-- DEEP_TEST_END (R568). A running deep test of Table 21-4 ends after its duration, writes its result record, and then restarts the module, reloads the Estimator or the lanes, or restores the permits. -/
  | deepTestEnd (t : Nat) (fails : BitVec 7) (detail : BitVec 32)
  /-- BULK_DOWN_SLOT (R108). In each bulk slot mapped down, the module sends the lowest fragment that the target forager has not yet acknowledged through bulk_ack. -/
  | bulkDownSlot (t : Nat) (n : Fin 4) (k : Fin 5)
  deriving DecidableEq, Repr

end Sys2Proof
end

