-- ==== Sys2Proof/Config.lean ====
section
/-!
DEFINITION. Config: what the spec leaves open, as constants without a body. Nothing in Lean can evaluate them, so a statement about them
holds for every value (log 3).
-/
namespace Sys2Proof.Config

/-- The k-th value drawn at random by the block: network keys, session IDs, nonces and clear tokens (R86, R396, R485). -/
opaque random : Nat → Nat

/-- Where in the last places a square root, exponential, natural logarithm, or sine or cosine of 2 pi times the argument lies: the spec asks for them and states no precision (R169, R173, R197, R200, R202, R212); Num holds each within 2^-50 of its value. -/
opaque sqrt : Rat → Rat
opaque exp : Rat → Rat
opaque ln : Rat → Rat
opaque sin : Rat → Rat
opaque cos : Rat → Rat

/-- Whether a value that is not a whole number of its unit is published rounded up (the spec states no rounding). -/
opaque roundUp : Rat → Bool

/-- Payload and sign of a NaN that an operation on binary32 or binary64 gives. -/
opaque nanPayload : Nat → Nat
opaque nanSign : Nat → Bool

/-- The value of an encoding or quantity that the spec states no value for; the first argument names the place. -/
opaque openNat : Nat → Nat
opaque openRat : Nat → Rat → Rat

end Sys2Proof.Config
end

