-- ==== Sys2Proof/Machine/Num.lean ====
section
/-!
DEFINITION. Num: arithmetic the spec names: IEEE 754 binary32 and binary64 by their bits, rounding to a unit, and the three CRCs
(R220, R348, R491).
-/
namespace Sys2Proof.Machine

/-- Parameters of a binary interchange format: mantissa bits and exponent bits. -/
structure FFmt where
  man : Nat
  exp : Nat
  deriving DecidableEq, Repr

def binary32 : FFmt := { man := 23, exp := 8 }
def binary64 : FFmt := { man := 52, exp := 11 }

/-- What a bit pattern stands for. -/
inductive FVal where
  | nan
  | inf (neg : Bool)
  | fin (neg : Bool) (q : Rat)   -- q carries the sign; neg is the sign bit, which matters for zero
  deriving DecidableEq, Repr

/-- Power of two with an integer exponent. -/
def pow2 (e : Int) : Rat := if e < 0 then 1 / ((2 ^ e.natAbs : Nat) : Rat) else ((2 ^ e.natAbs : Nat) : Rat)

def FFmt.bias (f : FFmt) : Nat := 2 ^ (f.exp - 1) - 1
def FFmt.infBits (f : FFmt) : Nat := (2 ^ f.exp - 1) * 2 ^ f.man
def FFmt.signBit (f : FFmt) : Nat := 2 ^ (f.man + f.exp)

/-- Value of a bit pattern (IEEE 754). -/
def FFmt.val (f : FFmt) (b : Nat) : FVal :=
  let neg := (b / f.signBit) % 2 == 1
  let e := (b / 2 ^ f.man) % 2 ^ f.exp
  let m := b % 2 ^ f.man
  if e == 2 ^ f.exp - 1 then (if m == 0 then .inf neg else .nan)
  else
    let mag : Rat := if e == 0 then (m : Rat) * pow2 (1 - (f.bias : Int) - f.man)
      else ((m + 2 ^ f.man : Nat) : Rat) * pow2 ((e : Int) - f.bias - f.man)
    .fin neg (if neg then -mag else mag)

/-- Nearest integer of a non-negative rational, ties to even. -/
def roundEven (q : Rat) : Nat :=
  let n := q.num.natAbs
  let k := n / q.den
  let r := n % q.den
  if 2 * r < q.den then k else if 2 * r > q.den then k + 1 else if k % 2 == 0 then k else k + 1

/-- Exponent of the leading bit of a positive rational. -/
def leadExp (q : Rat) : Int :=
  let e : Int := (Nat.log2 q.num.natAbs : Int) - (Nat.log2 q.den : Int)
  if pow2 e ≤ q then (if pow2 (e + 1) ≤ q then e + 1 else e) else e - 1

/-- Bit pattern of a rational, rounded to nearest, ties to even; neg0 is the sign of a zero result. -/
def FFmt.ofRat (f : FFmt) (neg0 : Bool) (q : Rat) : Nat :=
  if q == 0 then (if neg0 then f.signBit else 0)
  else
    let a := if q < 0 then -q else q
    let emin : Int := 1 - (f.bias : Int)
    let e := max (leadExp a) emin
    let m := roundEven (a / pow2 (e - f.man))
    let bits := (e - emin).toNat * 2 ^ f.man + m
    (if q < 0 then f.signBit else 0) + min bits f.infBits

/-- A NaN; its sign and payload are free values (log 3). -/
def FFmt.nan (f : FFmt) : Nat :=
  (if Config.nanSign f.man then f.signBit else 0) + f.infBits + 2 ^ (f.man - 1) + Config.nanPayload f.man % 2 ^ (f.man - 1)

def FFmt.infinity (f : FFmt) (neg : Bool) : Nat := (if neg then f.signBit else 0) + f.infBits

def FFmt.isNeg (f : FFmt) (b : Nat) : Bool := (b / f.signBit) % 2 == 1
def FFmt.neg (f : FFmt) (b : Nat) : Nat := if f.isNeg b then b - f.signBit else b + f.signBit
def FFmt.abs (f : FFmt) (b : Nat) : Nat := b % f.signBit

/-- a * b + c with one rounding (fused multiply-add, R238). -/
def FFmt.fma (f : FFmt) (a b c : Nat) : Nat :=
  match f.val a, f.val b, f.val c with
  | .nan, _, _ => f.nan
  | _, .nan, _ => f.nan
  | _, _, .nan => f.nan
  | .fin na x, .fin nb y, .fin nc z =>
    let s := x * y + z
    f.ofRat (if x * y == 0 && z == 0 then xor na nb && nc else false) s
  | .fin _ _, .fin _ _, .inf nc => f.infinity nc
  | .inf na, .fin nb y, .fin _ _ => if y == 0 then f.nan else f.infinity (xor na nb)
  | .fin na x, .inf nb, .fin _ _ => if x == 0 then f.nan else f.infinity (xor na nb)
  | .inf na, .inf nb, .fin _ _ => f.infinity (xor na nb)
  | .inf na, .fin nb y, .inf nc => if y == 0 then f.nan else if xor na nb == nc then f.infinity nc else f.nan
  | .fin na x, .inf nb, .inf nc => if x == 0 then f.nan else if xor na nb == nc then f.infinity nc else f.nan
  | .inf na, .inf nb, .inf nc => if xor na nb == nc then f.infinity nc else f.nan

def FFmt.add (f : FFmt) (a b : Nat) : Nat :=
  match f.val a, f.val b with
  | .nan, _ => f.nan
  | _, .nan => f.nan
  | .fin na x, .fin nb y => f.ofRat (na && nb) (x + y)
  | .inf na, .fin _ _ => f.infinity na
  | .fin _ _, .inf nb => f.infinity nb
  | .inf na, .inf nb => if na == nb then f.infinity na else f.nan

def FFmt.sub (f : FFmt) (a b : Nat) : Nat :=
  match f.val b with
  | .nan => f.nan
  | _ => f.add a (f.neg b)

def FFmt.mul (f : FFmt) (a b : Nat) : Nat :=
  match f.val a, f.val b with
  | .nan, _ => f.nan
  | _, .nan => f.nan
  | .fin na x, .fin nb y => f.ofRat (xor na nb) (x * y)
  | .inf na, .fin nb y => if y == 0 then f.nan else f.infinity (xor na nb)
  | .fin na x, .inf nb => if x == 0 then f.nan else f.infinity (xor na nb)
  | .inf na, .inf nb => f.infinity (xor na nb)

def FFmt.div (f : FFmt) (a b : Nat) : Nat :=
  match f.val a, f.val b with
  | .nan, _ => f.nan
  | _, .nan => f.nan
  | .fin na x, .fin nb y =>
    if y == 0 then (if x == 0 then f.nan else f.infinity (xor na nb)) else f.ofRat (xor na nb) (x / y)
  | .inf na, .fin nb _ => f.infinity (xor na nb)
  | .fin na _, .inf nb => f.ofRat (xor na nb) 0
  | .inf _, .inf _ => f.nan

/-- Exact square root of a rational when it has one. -/
def ratSqrt? (q : Rat) : Option Rat :=
  if q < 0 then none
  else
    let n := Nat.sqrt q.num.natAbs
    let d := Nat.sqrt q.den
    if n * n == q.num.natAbs && d * d == q.den then some ((n : Rat) / (d : Rat)) else none

/-- Square root rounded to nearest even, from an integer root with enough bits below the last. -/
def FFmt.sqrt (f : FFmt) (a : Nat) : Nat :=
  match f.val a with
  | .nan => f.nan
  | .inf neg => if neg then f.nan else f.infinity false
  | .fin neg q =>
    if q == 0 then f.ofRat neg 0
    else if q < 0 then f.nan
    else
      -- root of q * 4^k as an integer, with a sticky bit when it is not exact
      let k := f.man + f.bias + 8
      let t := q * pow2 (2 * (k : Int))
      let r := Nat.sqrt (t.num.natAbs / t.den)
      let exact := r * r * t.den == t.num.natAbs
      f.ofRat false (((2 * r + (if exact then 0 else 1) : Nat) : Rat) * pow2 (-(k : Int) - 1))

/-- a < b, a = b in the order of IEEE 754; false with a NaN. -/
def FFmt.lt (f : FFmt) (a b : Nat) : Bool :=
  match f.val a, f.val b with
  | .fin _ x, .fin _ y => decide (x < y)
  | .inf na, .inf nb => na && !nb
  | .inf na, .fin _ _ => na
  | .fin _ _, .inf nb => !nb
  | _, _ => false

def FFmt.eq (f : FFmt) (a b : Nat) : Bool :=
  match f.val a, f.val b with
  | .fin _ x, .fin _ y => decide (x = y)
  | .inf na, .inf nb => na == nb
  | _, _ => false

def FFmt.isNan (f : FFmt) (b : Nat) : Bool := f.val b == .nan
def FFmt.isFinite (f : FFmt) (b : Nat) : Bool := match f.val b with | .fin _ _ => true | _ => false

/-- The rational of a finite pattern; none for an infinity or a NaN. -/
def FFmt.rat? (f : FFmt) (b : Nat) : Option Rat := match f.val b with | .fin _ q => some q | _ => none

/-- The rational of a finite pattern, 0 otherwise. -/
def FFmt.rat (f : FFmt) (b : Nat) : Rat := (f.rat? b).getD 0

abbrev f32 := binary32
abbrev f64 := binary64

/-- float32 of an exact value. -/
def toF32 (q : Rat) : Nat := f32.ofRat false q

/-- Whole units of a value whose rounding the spec leaves open: exact when it is whole, else the floor or the next one (log 5). -/
def wholeUnits (q : Rat) : Int :=
  if q.den == 1 then q.num else if Config.roundUp q then q.floor + 1 else q.floor

/-- round(): the nearest whole number; a tie, whose side the spec leaves open, goes either way (log 5). -/
def nearest (q : Rat) : Int :=
  let k := q.floor
  let r := q - (k : Rat)
  if r < 1/2 then k else if r > 1/2 then k + 1 else if Config.roundUp q then k + 1 else k

/-- The nearest whole number, ties away from zero (R452). -/
def nearestAway (q : Rat) : Int := if q < 0 then -((-q + 1/2).floor) else (q + 1/2).floor

/-- Smallest whole number not below q. -/
def ratCeil (q : Rat) : Int := -((-q).floor)

/-- Division of integers rounding to minus infinity. -/
def ratAbs (q : Rat) : Rat := if q < 0 then -q else q

def clampInt (lo hi v : Int) : Int := if v < lo then lo else if hi < v then hi else v
def clampRat (lo hi v : Rat) : Rat := if v < lo then lo else if hi < v then hi else v

/-! Square root, sine, cosine, exponential and logarithm, each within 2^-50 of its value (log 3). -/

/-- One in the fixed point of the series: 2^96; pi and ln 2 in it. -/
def fxOne : Nat := 2 ^ 96
def fxPi : Nat := 248902613312231085230521944622
def fxLn2 : Nat := 54916777467707473351141471128

/-- A free value held within 2^-50 of c. -/
def near (free c : Rat) : Rat := clampRat (c - 1 / ((2 ^ 50 : Nat) : Rat)) (c + 1 / ((2 ^ 50 : Nat) : Rat)) free

/-- 1 - x2/(d(d+1)) (1 - x2/((d+2)(d+3)) ...) over k terms, the Horner form of the series of sine (d = 2) and cosine (d = 1). -/
def fxSeries (x2 : Int) : Nat → Nat → Int
  | 0, _ => fxOne
  | k + 1, d => (fxOne : Int) - x2 * fxSeries x2 k (d + 2) / fxOne / ((d * (d + 1) : Nat) : Int)

/-- Sine and cosine of 2 pi g for g from 0 to 1/4. -/
def sinCosQuarter (g : Rat) : Rat × Rat :=
  if g == 0 then (0, 1)
  else
    let x : Int := (2 * (fxPi : Rat) * g).floor
    let x2 : Int := x * x / fxOne
    (((x * fxSeries x2 16 2 / fxOne : Int) : Rat) / (fxOne : Rat), ((fxSeries x2 16 1 : Int) : Rat) / (fxOne : Rat))

/-- Sine of 2 pi q from the series, exact at quarter turns. -/
def sinSeries (q : Rat) : Rat :=
  let f := q - (q.floor : Rat)
  let k := (4 * f).floor.toNat
  let r := sinCosQuarter (f - (k : Rat) / 4)
  match k with | 0 => r.1 | 1 => r.2 | 2 => -r.1 | _ => -r.2

/-- Sine and cosine of 2 pi q. -/
def sinTurn (q : Rat) : Rat := if (4 * q).den == 1 then sinSeries q else near (Config.sin q) (sinSeries q)
def cosTurn (q : Rat) : Rat := if (4 * q).den == 1 then sinSeries (q + 1/4) else near (Config.cos q) (sinSeries (q + 1/4))

/-- Sum of r^k / k! by Horner, k terms from term d. -/
def expSeries (r : Int) : Nat → Nat → Int
  | 0, _ => fxOne
  | k + 1, d => (fxOne : Int) + r * expSeries r k (d + 1) / fxOne / (d : Int)

/-- e to the power q; below e^-200 only its bounds are used. -/
def expOf (q : Rat) : Rat :=
  if q == 0 then 1
  else if q < -200 then clampRat 0 (pow2 (-288)) (Config.exp q)
  else
    let x : Int := (q * (fxOne : Rat)).floor
    let k : Int := x / fxLn2
    let r : Int := x - k * fxLn2
    let c : Rat := ((expSeries r 28 1 : Int) : Rat) / (fxOne : Rat) * pow2 k
    clampRat (c * (1 - pow2 (-50))) (c * (1 + pow2 (-50))) (Config.exp q)

/-- z + z^3/3 + z^5/5 ... by Horner, k terms from the divisor d. -/
def atanhSeries (z2 : Int) : Nat → Nat → Int
  | 0, _ => 0
  | k + 1, d => (fxOne : Int) / (d : Int) + z2 * atanhSeries z2 k (d + 2) / fxOne

/-- Natural logarithm; of 0 or less a value that the spec does not state (log 3). -/
def lnOf (q : Rat) : Rat :=
  if q ≤ 0 then Config.ln q
  else if q == 1 then 0
  else
    let e := leadExp q
    let m := q / pow2 e
    let z : Int := ((m - 1) / (m + 1) * (fxOne : Rat)).floor
    let a : Int := 2 * (z * atanhSeries (z * z / fxOne) 36 1 / fxOne)
    near (Config.ln q) (((a + e * fxLn2 : Int) : Rat) / (fxOne : Rat))

/-- Square root, exact where it is rational; of a negative number a value that the spec does not state (log 3). -/
def rootOf (q : Rat) : Rat :=
  match ratSqrt? q with
  | some r => r
  | none =>
    if q < 0 then Config.sqrt q
    else
      let k : Int := 64 - leadExp q / 2
      let r := Nat.sqrt (q * pow2 (2 * k)).floor.toNat
      clampRat ((r : Rat) * pow2 (-k)) (((r + 1 : Nat) : Rat) * pow2 (-k)) (Config.sqrt q)

/-! Decimation (R230, R232, R312). -/

/-- Sum of the first k whole numbers. -/
def triangle (k : Nat) : Nat := k * (k + 1) / 2

/-- The sinc3 weight of the clock m before the edge, at oversampling ratio r: three moving sums of r clocks. Over 3r clocks the weights sum to r^3; the outermost two are 0 (log 39). -/
def sincWeight (r m : Nat) : Nat := triangle m + 3 * triangle (m - 2 * r) - 3 * triangle (m - r)

/-- Density of the 3r clocks that end at the edge. -/
def density (r bits : Nat) : Rat :=
  let ones := (List.range (3 * r)).foldl (fun a m => if bits.testBit m then a + sincWeight r m else a) 0
  ((2 * (ones : Int) - ((r ^ 3 : Nat) : Int) : Int) : Rat) / ((r ^ 3 : Nat) : Rat)

/-- Clocks since the bitstream last changed state, 0 for a change at the edge; 768 when it has not changed in 768 clocks. -/
def quietClocks (bits : Nat) : Nat := ((List.range 768).find? fun i => bits.testBit i != bits.testBit (i + 1)).getD 768

/-- One byte of a reflected CRC: eight shifts to the right with the reflected polynomial. -/
def crcReflBits (poly : Nat) : Nat → Nat → Nat
  | 0, c => c
  | n + 1, c => crcReflBits poly n (if c % 2 == 1 then (c / 2) ^^^ poly else c / 2)

/-- Reflected 32-bit CRC with initial value and final XOR 0xFFFFFFFF. -/
def crcRefl32 (poly : Nat) (bs : List Byte) : Nat :=
  (bs.foldl (fun c b => crcReflBits poly 8 (c ^^^ b.toNat)) 0xFFFFFFFF) ^^^ 0xFFFFFFFF

/-- CRC-32 of IEEE 802.3 (R220). -/
def crc32 (bs : List Byte) : Nat := crcRefl32 0xEDB88320 bs

/-- CRC of the safety layer (R348): polynomial 0xF4ACFB13, reflected 0xC8DF352F. -/
def crcFsl (bs : List Byte) : Nat := crcRefl32 0xC8DF352F bs

def crc16Bits : Nat → Nat → Nat
  | 0, c => c
  | n + 1, c => crc16Bits n (if c / 0x8000 % 2 == 1 then (c * 2 % 0x10000) ^^^ 0x1021 else c * 2 % 0x10000)

/-- CRC-16 of a memory line (R491). -/
def crc16 (bs : List Byte) : Nat := bs.foldl (fun c b => crc16Bits 8 (c ^^^ (b.toNat * 256))) 0xFFFF

end Sys2Proof.Machine
end

