-- ==== Sys2Proof/Machine/Crypto.lean ====
section
/-!
DEFINITION. Crypto: AES-128 and CCM* with a 13-byte nonce and a 64-bit MIC, and the two-octet FCS of IEEE 802.15.4, which R67 and R82 name.
What these standards contain is PRESUMED (log 44): the spec names them and does not repeat them.
-/
namespace Sys2Proof.Machine

/-- A number before its use: evaluation reaches the numeral first. -/
def withNat {α : Type} (n : Nat) (k : Nat → α) : α := match n with | 0 => k 0 | m + 1 => k (m + 1)

/-- The 256 bytes of the AES S-box, entry x at bits 8x. -/
def aesTable : Nat := 0x16bb54b00f2d99416842e6bf0d89a18cdf2855cee9871e9b948ed9691198f8e19e1dc186b95735610ef6034866b53e708a8bbd4b1f74dde8c6b4a61c2e2578ba08ae7a65eaf4566ca94ed58d6d37c8e779e4959162acd3c25c2406490a3a32e0db0b5ede14b8ee4688902a22dc4f816073195d643d7ea7c41744975fec130ccdd2f3ff1021dab6bcf5389d928f40a351a89f3c507f02f94585334d43fbaaefd0cf584c4a39becb6a5bb1fc20ed00d153842fe329b3d63b52a05a6e1b1a2c830975b227ebe28012079a059618c323c7041531d871f1e5a534ccf73f362693fdb7c072a49cafa2d4adf04759fa7dc982ca76abd7fe2b670130c56f6bf27b777c63

def sub8 (x : Nat) : Nat := (aesTable >>> (8 * x)) % 256

/-- Byte i of a packed block, the first byte lowest. -/
def byteOf (b i : Nat) : Nat := (b >>> (8 * i)) % 256

/-- The four bytes of a word through the S-box. -/
def sub32 (w : Nat) : Nat := sub8 (byteOf w 0) ||| (sub8 (byteOf w 1) <<< 8) ||| (sub8 (byteOf w 2) <<< 16) ||| (sub8 (byteOf w 3) <<< 24)

/-- SubBytes and ShiftRows: byte i of the result comes from byte 5i mod 16. -/
def subShift (b : Nat) : Nat := (List.range 16).foldl (fun a i => a ||| (sub8 (byteOf b (5 * i % 16)) <<< (8 * i))) 0

/-- A byte repeated sixteen times, and a word repeated four times. -/
def rep16 (x : Nat) : Nat := x * 0x01010101010101010101010101010101
def rep4 (x : Nat) : Nat := x * 0x1000000010000000100000001

/-- Every column turned by k bytes. -/
def turn (k b : Nat) : Nat := ((b >>> (8 * k)) &&& rep4 (2 ^ (32 - 8 * k) - 1)) ||| ((b <<< (32 - 8 * k)) &&& rep4 (2 ^ 32 - 2 ^ (32 - 8 * k)))

/-- Every byte times two in the field of AES. -/
def double (b : Nat) : Nat := ((b &&& rep16 0x7F) <<< 1) ^^^ (((b >>> 7) &&& rep16 1) * 0x1B)

def mixColumns (b : Nat) : Nat := double b ^^^ turn 1 (double b ^^^ b) ^^^ turn 2 b ^^^ turn 3 b

/-- The round key after k, with the round constant. -/
def nextKey (rcon k : Nat) : Nat :=
  let w := k >>> 96
  let t := sub32 ((w >>> 8) ||| ((w % 256) <<< 24)) ^^^ rcon
  (k ^^^ (k <<< 32) ^^^ (k <<< 64) ^^^ (k <<< 96) ^^^ rep4 t) % 2 ^ 128

/-- Rounds of AES with the given round constants; the last one mixes no columns. -/
def aesRounds : List Nat → Nat → Nat → Nat
  | [], _, b => b
  | c :: cs, k, b => withNat (nextKey c k) fun k => withNat ((if cs.isEmpty then subShift b else mixColumns (subShift b)) ^^^ k) fun b => aesRounds cs k b

/-- AES-128 of one block. -/
def aes (key block : Nat) : Nat := withNat (block ^^^ key) fun b => aesRounds [1, 2, 4, 8, 0x10, 0x20, 0x40, 0x80, 0x1B, 0x36] key b

/-- The n high octets of a value first. -/
def toBE (n v : Nat) : List Byte := (toLE n v).reverse

/-- Blocks of 16 octets as numbers, the last one filled with zeros. -/
def blocksOf : Nat → List Byte → List Nat
  | 0, _ => []
  | n + 1, bs => ofLE (bs.take 16) :: blocksOf n (bs.drop 16)

def toBlocks (bs : List Byte) : List Nat := blocksOf ((bs.length + 15) / 16) bs

/-- The unencrypted MIC of CCM*: CBC-MAC over B0, the authenticated data with their length, and the message. -/
def ccmMac (key : Nat) (nonce aad msg : List Byte) : Nat :=
  let b0 := (if aad.isEmpty then 0x19 else 0x59) :: nonce ++ toBE 2 msg.length
  let a := if aad.isEmpty then [] else toBE 2 aad.length ++ aad
  (toBlocks b0 ++ toBlocks a ++ toBlocks msg).foldl (fun x b => withNat (x ^^^ b) fun y => aes key y) 0

/-- Block i of the key stream. -/
def ccmKey (key : Nat) (nonce : List Byte) (i : Nat) : List Byte := toLE 16 (aes key (ofLE (1 :: nonce ++ toBE 2 i)))

/-- A text under the key stream, from block 1 on. -/
def ccmCrypt (key : Nat) (nonce msg : List Byte) : List Byte :=
  List.zipWith (· ^^^ ·) msg ((List.range ((msg.length + 15) / 16)).flatMap fun i => ccmKey key nonce (i + 1))

/-- The 8 octets of the MIC as they are sent. -/
def ccmMic (key : Nat) (nonce aad msg : List Byte) : List Byte :=
  List.zipWith (· ^^^ ·) (toLE 8 (ccmMac key nonce aad msg)) ((ccmKey key nonce 0).take 8)

/-- A message encrypted, with its MIC. -/
def ccmSeal (key : Nat) (nonce aad msg : List Byte) : List Byte := ccmCrypt key nonce msg ++ ccmMic key nonce aad msg

/-- The message of an encrypted text with its MIC; none when the MIC does not check. -/
def ccmOpen (key : Nat) (nonce aad sealed : List Byte) : Option (List Byte) :=
  let n := sealed.length - 8
  let msg := ccmCrypt key nonce (sealed.take n)
  if ccmMic key nonce aad msg == sealed.drop n then some msg else none

/-- FCS of IEEE 802.15.4: the 16-bit CRC of ITU-T, initial value 0, low bit first. -/
def fcs (bs : List Byte) : Nat := bs.foldl (fun c b => crcReflBits 0x8408 8 (c ^^^ b.toNat)) 0

end Sys2Proof.Machine
end

