-- ==== Sys2Proof/Machine/Params.lean ====
section
/-!
DEFINITION. Params: the parameter tables of the spec (name, type, range, default, point of effect), the names on the wire (R408), and
the records and check value of the safety section (R337, R512).
-/
namespace Sys2Proof

open Sys2Proof.Machine

/-- Range column of a parameter table. -/
inductive PRange where
  | span (lo hi : Int)            -- lo to hi
  | spanOr (lo hi x : Int)        -- lo to hi, or x
  | mask (m : Nat)                -- only bits of m
  | oneOf (l : List Int)
  | real (lo hi : Rat)            -- a finite float32 from lo to hi
  | any
  | unicast | unicastOr0 | netmask
  | divides (lo m : Int)          -- from lo to m, dividing m
  | even (lo hi : Int)
  | busBase                       -- 29 bits, bits [15:0] zero
  | words (hi : Int)              -- 0 to hi, a multiple of 4
  deriving DecidableEq, Repr

/-- Takes effect column: at once (next sample, test, request and the like), next frame, next round, Start, Start after confirmation, commit, never. -/
inductive PEffect where
  | now | frame | round | start | confirmed | commit | readOnly
  deriving DecidableEq, Repr

/-- A segment of a dotted name: a word, an index below a bound, a role name, or the letter of a port, A and B (R382) or a and b (R439). -/
inductive PSeg where
  | lit (w : String)
  | idx (bound : Nat)
  | role
  | port (upper : Bool)
  deriving DecidableEq, Repr

/-- One row of a parameter table. -/
structure PDesc where
  typ : Nat
  range : PRange
  effect : PEffect
  segs : List PSeg
  deriving DecidableEq, Repr

/-- Channels of the modulators that measure a current: A and B of each string (Table 8-1). -/
def isCurrentChannel (c : Nat) : Bool := c < 16 && c % 4 < 2

/-- Rows of the parameter tables. -/
def PName.desc : PName → PDesc
  | .timeSampleSource => { typ := 1, range := .span 0 1, effect := .now, segs := [.lit "time", .lit "sample", .lit "source"] }
  | .timeSampleQuietMin => { typ := 2, range := .span 100 10000, effect := .now, segs := [.lit "time", .lit "sample", .lit "quiet_min"] }
  | .timeSampleSyncOffset => { typ := 7, range := .span (-10000000) 10000000, effect := .now, segs := [.lit "time", .lit "sample", .lit "sync_offset"] }
  | .linkStrings => { typ := 1, range := .span 0x00 0x0F, effect := .start, segs := [.lit "link", .lit "strings"] }
  | .linkPlan => { typ := 1, range := .span 0 1, effect := .start, segs := [.lit "link", .lit "plan"] }
  | .linkBricks => { typ := 1, range := .span 1 36, effect := .commit, segs := [.lit "link", .lit "bricks", .idx 4] }
  | .linkTxSyncLead => { typ := 3, range := .span 0 100000, effect := .start, segs := [.lit "link", .lit "tx", .lit "sync_lead", .idx 4] }
  | .linkRoute => { typ := 2, range := .any, effect := .commit, segs := [.lit "link", .lit "route", .idx 4, .idx 36] }
  | .linkRelayRestore => { typ := 2, range := .span 1 6000, effect := .frame, segs := [.lit "link", .lit "relay", .lit "restore"] }
  | .linkJoinModes => { typ := 1, range := .span 0 0x3F, effect := .frame, segs := [.lit "link", .lit "join", .lit "modes"] }
  | .linkJoinWindow => { typ := 1, range := .span 1 64, effect := .frame, segs := [.lit "link", .lit "join", .lit "window"] }
  | .linkCmdTries => { typ := 1, range := .span 1 32, effect := .frame, segs := [.lit "link", .lit "cmd", .lit "tries"] }
  | .linkBulkDownMin => { typ := 1, range := .span 0 5, effect := .frame, segs := [.lit "link", .lit "bulk", .lit "down_min"] }
  | .linkBulkTimeout => { typ := 2, range := .span 100 60000, effect := .frame, segs := [.lit "link", .lit "bulk", .lit "timeout"] }
  | .linkMicAlarm => { typ := 2, range := .span 1 10000, effect := .round, segs := [.lit "link", .lit "mic", .lit "alarm"] }
  | .cellCoarseTol => { typ := 1, range := .span 1 50, effect := .frame, segs := [.lit "cell", .lit "coarse", .lit "tol"] }
  | .cellBrickTol => { typ := 2, range := .span 40 2000, effect := .frame, segs := [.lit "cell", .lit "brick", .lit "tol"] }
  | .cellOwDev => { typ := 2, range := .span 10 1000, effect := .frame, segs := [.lit "cell", .lit "ow", .lit "dev"] }
  | .cellOwSum => { typ := 2, range := .span 1 200, effect := .frame, segs := [.lit "cell", .lit "ow", .lit "sum"] }
  | .cellOwFrames => { typ := 1, range := .span 1 100, effect := .frame, segs := [.lit "cell", .lit "ow", .lit "frames"] }
  | .cellOwAuto => { typ := 10, range := .span 0 1, effect := .frame, segs := [.lit "cell", .lit "ow", .lit "auto"] }
  | .cellOwDuration => { typ := 2, range := .span 20 1000, effect := .now, segs := [.lit "cell", .lit "ow", .lit "duration"] }
  | .cellOwConfirm => { typ := 2, range := .span 100 3000, effect := .now, segs := [.lit "cell", .lit "ow", .lit "confirm"] }
  | .cellOwRetry => { typ := 2, range := .span 10 3600, effect := .frame, segs := [.lit "cell", .lit "ow", .lit "retry"] }
  | .cellBleedR => { typ := 2, range := .span 500 10000, effect := .frame, segs := [.lit "cell", .lit "bleed", .lit "r"] }
  | .cellBalEnable => { typ := 10, range := .span 0 1, effect := .now, segs := [.lit "cell", .lit "bal", .lit "enable"] }
  | .cellBalModes => { typ := 1, range := .mask 0x1C, effect := .now, segs := [.lit "cell", .lit "bal", .lit "modes"] }
  | .cellBalPeriod => { typ := 2, range := .span 10 3600, effect := .now, segs := [.lit "cell", .lit "bal", .lit "period"] }
  | .cellBalBand => { typ := 2, range := .span 5 1000, effect := .now, segs := [.lit "cell", .lit "bal", .lit "band"] }
  | .cellBalStop => { typ := 2, range := .span 0 500, effect := .now, segs := [.lit "cell", .lit "bal", .lit "stop"] }
  | .cellBalTMax => { typ := 2, range := .span 10 4095, effect := .now, segs := [.lit "cell", .lit "bal", .lit "t_max"] }
  | .cellBalVMin => { typ := 2, range := .span 20000 40000, effect := .now, segs := [.lit "cell", .lit "bal", .lit "v_min"] }
  | .cellBalTHot => { typ := 6, range := .span 0 800, effect := .now, segs := [.lit "cell", .lit "bal", .lit "t_hot"] }
  | .cellCmpOv => { typ := 2, range := .span 30000 50000, effect := .commit, segs := [.lit "cell", .lit "cmp", .lit "ov"] }
  | .cellCmpUv => { typ := 2, range := .span 10000 30000, effect := .commit, segs := [.lit "cell", .lit "cmp", .lit "uv"] }
  | .cellBurstTimeout => { typ := 2, range := .span 10 6000, effect := .frame, segs := [.lit "cell", .lit "burst", .lit "timeout"] }
  | .estISource => { typ := 1, range := .span 0 1, effect := .frame, segs := [.lit "est", .lit "i", .lit "source"] }
  | .estForagerIq => { typ := 2, range := .span 0 20000, effect := .frame, segs := [.lit "est", .lit "forager", .lit "iq"] }
  | .estDrift => { typ := 2, range := .span 0 10000, effect := .frame, segs := [.lit "est", .lit "drift"] }
  | .estCountGain => { typ := 2, range := .span 0 10000, effect := .frame, segs := [.lit "est", .lit "count", .lit "gain"] }
  | .estSigmaMax => { typ := 2, range := .span 50 5000, effect := .frame, segs := [.lit "est", .lit "sigma_max"] }
  | .estSigmaHyst => { typ := 2, range := .span 1 500, effect := .frame, segs := [.lit "est", .lit "sigma_hyst"] }
  | .estRestI => { typ := 2, range := .span 1 100, effect := .frame, segs := [.lit "est", .lit "rest", .lit "i"] }
  | .estRestT => { typ := 2, range := .span 60 3600, effect := .now, segs := [.lit "est", .lit "rest", .lit "t"] }
  | .estRestTFull => { typ := 2, range := .span 600 36000, effect := .now, segs := [.lit "est", .lit "rest", .lit "t_full"] }
  | .estRelaxSkip => { typ := 2, range := .span 0 120, effect := .now, segs := [.lit "est", .lit "relax", .lit "skip"] }
  | .estRelaxRetry => { typ := 2, range := .span 10 600, effect := .now, segs := [.lit "est", .lit "relax", .lit "retry"] }
  | .estRelaxFitMax => { typ := 2, range := .span 1 1000, effect := .now, segs := [.lit "est", .lit "relax", .lit "fit_max"] }
  | .estRelaxSettled => { typ := 2, range := .span 10 1440, effect := .start, segs := [.lit "est", .lit "relax", .lit "settled"] }
  | .estOcvBranchQ => { typ := 2, range := .span 10 1000, effect := .frame, segs := [.lit "est", .lit "ocv", .lit "branch_q"] }
  | .estAnchorSlopeMin => { typ := 2, range := .span 50 5000, effect := .frame, segs := [.lit "est", .lit "anchor", .lit "slope_min"] }
  | .estAnchorVErr => { typ := 2, range := .span 10 2000, effect := .frame, segs := [.lit "est", .lit "anchor", .lit "v_err"] }
  | .estAnchorLoad => { typ := 10, range := .span 0 1, effect := .frame, segs := [.lit "est", .lit "anchor", .lit "load"] }
  | .estAnchorLoadErr => { typ := 2, range := .span 0 10000, effect := .frame, segs := [.lit "est", .lit "anchor", .lit "load_err"] }
  | .estAnchorEndSigma => { typ := 2, range := .span 10 500, effect := .frame, segs := [.lit "est", .lit "anchor", .lit "end_sigma"] }
  | .estAnchorTMin => { typ := 6, range := .span (-200) 400, effect := .frame, segs := [.lit "est", .lit "anchor", .lit "t_min"] }
  | .estAnchorTMax => { typ := 6, range := .span 100 600, effect := .frame, segs := [.lit "est", .lit "anchor", .lit "t_max"] }
  | .estEodV => { typ := 2, range := .span 20000 35000, effect := .frame, segs := [.lit "est", .lit "eod", .lit "v"] }
  | .estEodHyst => { typ := 2, range := .span 10 2000, effect := .frame, segs := [.lit "est", .lit "eod", .lit "hyst"] }
  | .estEocV => { typ := 2, range := .span 30000 40000, effect := .frame, segs := [.lit "est", .lit "eoc", .lit "v"] }
  | .estEocHyst => { typ := 2, range := .span 10 2000, effect := .frame, segs := [.lit "est", .lit "eoc", .lit "hyst"] }
  | .estEocITaper => { typ := 2, range := .span 1 500, effect := .frame, segs := [.lit "est", .lit "eoc", .lit "i_taper"] }
  | .impModes => { typ := 1, range := .mask 0x18, effect := .now, segs := [.lit "imp", .lit "modes"] }
  | .impPeriod => { typ := 2, range := .span 0 365, effect := .frame, segs := [.lit "imp", .lit "period"] }
  | .impRate => { typ := 2, range := .oneOf [1000, 1600, 2000, 2500, 4000, 5000, 8000], effect := .commit, segs := [.lit "imp", .lit "rate"] }
  | .impCount => { typ := 2, range := .span 1 32000, effect := .commit, segs := [.lit "imp", .lit "count"] }
  | .impTone => { typ := 2, range := .span 1 39999, effect := .commit, segs := [.lit "imp", .lit "tone", .idx 3] }
  | .impAmp => { typ := 2, range := .span 100 3000, effect := .now, segs := [.lit "imp", .lit "amp"] }
  | .impSettle => { typ := 2, range := .span 200 10000, effect := .commit, segs := [.lit "imp", .lit "settle"] }
  | .impRamp => { typ := 2, range := .span 10 1000, effect := .now, segs := [.lit "imp", .lit "ramp"] }
  | .impArmLead => { typ := 2, range := .span 20 1000, effect := .commit, segs := [.lit "imp", .lit "arm_lead"] }
  | .impUncomp => { typ := 10, range := .span 0 1, effect := .now, segs := [.lit "imp", .lit "uncomp"] }
  | .impDelay => { typ := 7, range := .span (-100000) 100000, effect := .now, segs := [.lit "imp", .lit "delay"] }
  | .impIAgree => { typ := 2, range := .span 1 200, effect := .now, segs := [.lit "imp", .lit "i_agree"] }
  | .impIDrift => { typ := 2, range := .span 10 5000, effect := .now, segs := [.lit "imp", .lit "i_drift"] }
  | .impRTone => { typ := 1, range := .span 0 2, effect := .now, segs := [.lit "imp", .lit "r", .lit "tone"] }
  | .impRWeight => { typ := 2, range := .span 1 1000, effect := .now, segs := [.lit "imp", .lit "r", .lit "weight"] }
  | .impRDefault => { typ := 3, range := .span 10000 100000000, effect := .start, segs := [.lit "imp", .lit "r", .lit "default"] }
  | .impTempTone => { typ := 1, range := .span 0 2, effect := .now, segs := [.lit "imp", .lit "temp", .lit "tone"] }
  | .impTempBeta => { typ := 2, range := .span 500 10000, effect := .now, segs := [.lit "imp", .lit "temp", .lit "beta"] }
  | .impTempCalRest => { typ := 2, range := .span 600 36000, effect := .now, segs := [.lit "imp", .lit "temp", .lit "cal_rest"] }
  | .impTempCalSpread => { typ := 2, range := .span 1 50, effect := .now, segs := [.lit "imp", .lit "temp", .lit "cal_spread"] }
  | .impHealthWarn => { typ := 2, range := .span 1000 5000, effect := .now, segs := [.lit "imp", .lit "health", .lit "warn"] }
  | .estCapNominal => { typ := 3, range := .span 100 1000000, effect := .start, segs := [.lit "est", .lit "cap", .lit "nominal"] }
  | .estCapModes => { typ := 1, range := .mask 0x18, effect := .now, segs := [.lit "est", .lit "cap", .lit "modes"] }
  | .estCapPeriod => { typ := 2, range := .span 0 3650, effect := .frame, segs := [.lit "est", .lit "cap", .lit "period"] }
  | .estCapChargeRate => { typ := 2, range := .span 50 1000, effect := .now, segs := [.lit "est", .lit "cap", .lit "charge_rate"] }
  | .estCapRate => { typ := 2, range := .span 50 1000, effect := .now, segs := [.lit "est", .lit "cap", .lit "rate"] }
  | .estCapChargeTmax => { typ := 2, range := .span 30 1440, effect := .now, segs := [.lit "est", .lit "cap", .lit "charge_tmax"] }
  | .estCapDisTmax => { typ := 2, range := .span 60 2880, effect := .now, segs := [.lit "est", .lit "cap", .lit "dis_tmax"] }
  | .estCapTMin => { typ := 6, range := .span (-200) 400, effect := .now, segs := [.lit "est", .lit "cap", .lit "t_min"] }
  | .estCapTMax => { typ := 6, range := .span 100 600, effect := .now, segs := [.lit "est", .lit "cap", .lit "t_max"] }
  | .estCapSpanMin => { typ := 2, range := .span 5000 10000, effect := .now, segs := [.lit "est", .lit "cap", .lit "span_min"] }
  | .estCapWarn => { typ := 2, range := .span 500 1000, effect := .frame, segs := [.lit "est", .lit "cap", .lit "warn"] }
  | .estStorePeriod => { typ := 2, range := .span 1 240, effect := .frame, segs := [.lit "est", .lit "store", .lit "period"] }
  | .regStrings => { typ := 1, range := .span 0x00 0x0F, effect := .start, segs := [.lit "reg", .lit "strings"] }
  | .regCalGain => { typ := 9, range := .real (1) (10000), effect := .start, segs := [.lit "reg", .lit "cal", .idx 20, .lit "gain"] }
  | .regCalZero => { typ := 9, range := .real (-1/10) (1/10), effect := .start, segs := [.lit "reg", .lit "cal", .idx 20, .lit "zero"] }
  | .regMeasStuck => { typ := 2, range := .span 16 768, effect := .frame, segs := [.lit "reg", .lit "meas", .lit "stuck"] }
  | .regMeasRange => { typ := 2, range := .span 500 1000, effect := .frame, segs := [.lit "reg", .lit "meas", .lit "range"] }
  | .regMeasLostTicks => { typ := 2, range := .span 1 500, effect := .frame, segs := [.lit "reg", .lit "meas", .lit "lost", .lit "ticks"] }
  | .regPwmPhase => { typ := 2, range := .span 0 1999, effect := .frame, segs := [.lit "reg", .lit "pwm", .lit "phase", .idx 4] }
  | .regPwmDead => { typ := 2, range := .span 50 2000, effect := .frame, segs := [.lit "reg", .lit "pwm", .lit "dead"] }
  | .regPwmInterleave => { typ := 10, range := .span 0 1, effect := .frame, segs := [.lit "reg", .lit "pwm", .lit "interleave"] }
  | .regDutyMin => { typ := 2, range := .span 0 5000, effect := .frame, segs := [.lit "reg", .lit "duty", .lit "min"] }
  | .regDutyMax => { typ := 2, range := .span 5000 10000, effect := .frame, segs := [.lit "reg", .lit "duty", .lit "max"] }
  | .regIRating => { typ := 2, range := .span 100 4000, effect := .frame, segs := [.lit "reg", .lit "i", .lit "rating"] }
  | .regISlew => { typ := 2, range := .span 1 10000, effect := .frame, segs := [.lit "reg", .lit "i", .lit "slew"] }
  | .regRegionDwell => { typ := 2, range := .span 0 50000, effect := .frame, segs := [.lit "reg", .lit "region", .lit "dwell"] }
  | .regSatReport => { typ := 2, range := .span 1 50000, effect := .frame, segs := [.lit "reg", .lit "sat", .lit "report"] }
  | .regVbusMin => { typ := 2, range := .span 100 3000, effect := .frame, segs := [.lit "reg", .lit "vbus", .lit "min"] }
  | .regVbusMax => { typ := 2, range := .span 100 3000, effect := .frame, segs := [.lit "reg", .lit "vbus", .lit "max"] }
  | .regManualSlew => { typ := 2, range := .span 1 10000, effect := .frame, segs := [.lit "reg", .lit "manual", .lit "slew"] }
  | .regShadow => { typ := 10, range := .span 0 1, effect := .round, segs := [.lit "reg", .lit "shadow"] }
  | .dispSrcPrimary => { typ := 1, range := .span 0 3, effect := .start, segs := [.lit "disp", .lit "src", .lit "primary"] }
  | .dispSrcBackup => { typ := 1, range := .spanOr 0 3 255, effect := .frame, segs := [.lit "disp", .lit "src", .lit "backup"] }
  | .dispSrcRevert => { typ := 1, range := .span 0 1, effect := .frame, segs := [.lit "disp", .lit "src", .lit "revert"] }
  | .dispSrcRevertT => { typ := 2, range := .span 1 3600, effect := .frame, segs := [.lit "disp", .lit "src", .lit "revert_t"] }
  | .dispHostTimeout => { typ := 2, range := .span 20 60000, effect := .frame, segs := [.lit "disp", .lit "host", .lit "timeout"] }
  | .dispBusTimeout => { typ := 2, range := .span 20 60000, effect := .frame, segs := [.lit "disp", .lit "bus", .lit "timeout"] }
  | .dispAnaZero => { typ := 9, range := .real (-1) (1), effect := .frame, segs := [.lit "disp", .lit "ana", .lit "zero"] }
  | .dispAnaSpan => { typ := 9, range := .real (-100000) (100000), effect := .frame, segs := [.lit "disp", .lit "ana", .lit "span"] }
  | .dispPulseF0 => { typ := 3, range := .span 100 1000000, effect := .frame, segs := [.lit "disp", .lit "pulse", .lit "f0"] }
  | .dispPulseK => { typ := 9, range := .real (-1000) (1000), effect := .frame, segs := [.lit "disp", .lit "pulse", .lit "k"] }
  | .dispPulseFmin => { typ := 3, range := .span 10 1000000, effect := .frame, segs := [.lit "disp", .lit "pulse", .lit "fmin"] }
  | .dispPulseFmax => { typ := 3, range := .span 100 2000000, effect := .frame, segs := [.lit "disp", .lit "pulse", .lit "fmax"] }
  | .dispPulseGate => { typ := 1, range := .span 1 100, effect := .frame, segs := [.lit "disp", .lit "pulse", .lit "gate"] }
  | .dispPMax => { typ := 9, range := .real (0) (10000), effect := .frame, segs := [.lit "disp", .lit "p", .lit "max"] }
  | .dispRamp => { typ := 9, range := .real (1) (100000), effect := .frame, segs := [.lit "disp", .lit "ramp"] }
  | .dispLossReact => { typ := 1, range := .span 0 2, effect := .frame, segs := [.lit "disp", .lit "loss", .lit "react"] }
  | .dispLossHold => { typ := 2, range := .span 0 60000, effect := .frame, segs := [.lit "disp", .lit "loss", .lit "hold"] }
  | .dispLossRamp => { typ := 9, range := .real (1) (100000), effect := .frame, segs := [.lit "disp", .lit "loss", .lit "ramp"] }
  | .dispAllowSource => { typ := 1, range := .span 0 2, effect := .frame, segs := [.lit "disp", .lit "allow", .lit "source"] }
  | .dispAllowChg => { typ := 2, range := .span 0 4000, effect := .frame, segs := [.lit "disp", .lit "allow", .lit "chg"] }
  | .dispAllowDis => { typ := 2, range := .span 0 4000, effect := .frame, segs := [.lit "disp", .lit "allow", .lit "dis"] }
  | .dispAllowTimeout => { typ := 2, range := .span 20 60000, effect := .frame, segs := [.lit "disp", .lit "allow", .lit "timeout"] }
  | .dispIMax => { typ := 2, range := .span 100 4000, effect := .frame, segs := [.lit "disp", .lit "i", .lit "max"] }
  | .dispEndReact => { typ := 10, range := .span 0 1, effect := .frame, segs := [.lit "disp", .lit "end", .lit "react"] }
  | .dispHealthK => { typ := 2, range := .span 0 1000, effect := .frame, segs := [.lit "disp", .lit "health", .lit "k"] }
  | .dispHealthFloor => { typ := 2, range := .span 100 1000, effect := .frame, segs := [.lit "disp", .lit "health", .lit "floor"] }
  | .dispAnchorBias => { typ := 2, range := .span 0 900, effect := .frame, segs := [.lit "disp", .lit "anchor", .lit "bias"] }
  | .dispRestEnable => { typ := 10, range := .span 0 1, effect := .frame, segs := [.lit "disp", .lit "rest", .lit "enable"] }
  | .dispRestT => { typ := 2, range := .span 60 7200, effect := .now, segs := [.lit "disp", .lit "rest", .lit "t"] }
  | .dispRestGap => { typ := 2, range := .span 10 10080, effect := .frame, segs := [.lit "disp", .lit "rest", .lit "gap"] }
  | .dispRestMargin => { typ := 2, range := .span 0 500, effect := .frame, segs := [.lit "disp", .lit "rest", .lit "margin"] }
  | .dispSurveyAuto => { typ := 1, range := .mask 3, effect := .frame, segs := [.lit "disp", .lit "survey", .lit "auto"] }
  | .dispConnectAuto => { typ := 1, range := .span 0 0x0F, effect := .now, segs := [.lit "disp", .lit "connect", .lit "auto"] }
  | .dispCtrTFb => { typ := 2, range := .span 10 500, effect := .now, segs := [.lit "disp", .lit "ctr", .lit "t_fb"] }
  | .dispPreDv => { typ := 2, range := .span 1 200, effect := .now, segs := [.lit "disp", .lit "pre", .lit "dv"] }
  | .dispPreTmax => { typ := 2, range := .span 100 10000, effect := .now, segs := [.lit "disp", .lit "pre", .lit "tmax"] }
  | .dispPreOverlap => { typ := 2, range := .span 0 500, effect := .now, segs := [.lit "disp", .lit "pre", .lit "overlap"] }
  | .dispDiscI => { typ := 2, range := .span 1 500, effect := .now, segs := [.lit "disp", .lit "disc", .lit "i"] }
  | .dispDiscTmax => { typ := 2, range := .span 20 5000, effect := .now, segs := [.lit "disp", .lit "disc", .lit "tmax"] }
  | .thermCellChgHiWarn => { typ := 6, range := .span (-400) 1200, effect := .frame, segs := [.lit "therm", .lit "cell", .lit "chg_hi", .lit "warn"] }
  | .thermCellChgHiThrottle => { typ := 6, range := .span (-400) 1200, effect := .frame, segs := [.lit "therm", .lit "cell", .lit "chg_hi", .lit "throttle"] }
  | .thermCellChgHiShut => { typ := 6, range := .span (-400) 1200, effect := .frame, segs := [.lit "therm", .lit "cell", .lit "chg_hi", .lit "shut"] }
  | .thermCellChgLoWarn => { typ := 6, range := .span (-400) 1200, effect := .frame, segs := [.lit "therm", .lit "cell", .lit "chg_lo", .lit "warn"] }
  | .thermCellChgLoThrottle => { typ := 6, range := .span (-400) 1200, effect := .frame, segs := [.lit "therm", .lit "cell", .lit "chg_lo", .lit "throttle"] }
  | .thermCellChgLoShut => { typ := 6, range := .span (-400) 1200, effect := .frame, segs := [.lit "therm", .lit "cell", .lit "chg_lo", .lit "shut"] }
  | .thermCellDisHiWarn => { typ := 6, range := .span (-400) 1200, effect := .frame, segs := [.lit "therm", .lit "cell", .lit "dis_hi", .lit "warn"] }
  | .thermCellDisHiThrottle => { typ := 6, range := .span (-400) 1200, effect := .frame, segs := [.lit "therm", .lit "cell", .lit "dis_hi", .lit "throttle"] }
  | .thermCellDisHiShut => { typ := 6, range := .span (-400) 1200, effect := .frame, segs := [.lit "therm", .lit "cell", .lit "dis_hi", .lit "shut"] }
  | .thermCellHyst => { typ := 2, range := .span 5 200, effect := .frame, segs := [.lit "therm", .lit "cell", .lit "hyst"] }
  | .thermChgMin => { typ := 6, range := .span (-400) 1200, effect := .frame, segs := [.lit "therm", .lit "chg", .lit "min"] }
  | .thermChgMax => { typ := 6, range := .span (-400) 1200, effect := .frame, segs := [.lit "therm", .lit "chg", .lit "max"] }
  | .thermMap => { typ := 1, range := .span 0 3, effect := .commit, segs := [.lit "therm", .lit "map", .idx 16] }
  | .thermIntUse => { typ := 10, range := .span 0 1, effect := .frame, segs := [.lit "therm", .lit "int", .lit "use"] }
  | .thermIntAge => { typ := 3, range := .span 60 2592000, effect := .frame, segs := [.lit "therm", .lit "int", .lit "age"] }
  | .thermDieMargin => { typ := 2, range := .span 0 300, effect := .frame, segs := [.lit "therm", .lit "die_margin"] }
  | .thermStuckT => { typ := 3, range := .span 0 604800, effect := .frame, segs := [.lit "therm", .lit "stuck", .lit "t"] }
  | .thermDieStuck => { typ := 1, range := .span 2 100, effect := .round, segs := [.lit "therm", .lit "die", .lit "stuck"] }
  | .thermDieP2Share => { typ := 2, range := .span 100 1000, effect := .round, segs := [.lit "therm", .lit "die", .lit "p2_share"] }
  | .thermDisable => { typ := 1, range := .mask 0x1F, effect := .commit, segs := [.lit "therm", .lit "disable", .idx 144] }
  | .thermDieDisable => { typ := 1, range := .mask 0x3F, effect := .commit, segs := [.lit "therm", .lit "die", .lit "disable"] }
  | .thermCoolOn => { typ := 6, range := .span (-400) 1200, effect := .frame, segs := [.lit "therm", .lit "cool", .lit "on"] }
  | .thermHeatOn => { typ := 6, range := .span (-400) 1200, effect := .frame, segs := [.lit "therm", .lit "heat", .lit "on"] }
  | .thermCoolGpio => { typ := 1, range := .spanOr 0 15 255, effect := .frame, segs := [.lit "therm", .lit "cool", .lit "gpio", .idx 4] }
  | .thermHeatGpio => { typ := 1, range := .spanOr 0 15 255, effect := .frame, segs := [.lit "therm", .lit "heat", .lit "gpio", .idx 4] }
  | .safeStrings => { typ := 1, range := .span 0x00 0x0F, effect := .confirmed, segs := [.lit "safe", .lit "strings"] }
  | .safeCalGain => { typ := 9, range := .real (1) (10000), effect := .confirmed, segs := [.lit "safe", .lit "cal", .idx 20, .lit "gain"] }
  | .safeCalZero => { typ := 9, range := .real (-1/10) (1/10), effect := .confirmed, segs := [.lit "safe", .lit "cal", .idx 20, .lit "zero"] }
  | .safeOcI => { typ := 2, range := .span 100 4000, effect := .confirmed, segs := [.lit "safe", .lit "oc", .lit "i"] }
  | .safeIplausT => { typ := 2, range := .span 10 1000, effect := .confirmed, segs := [.lit "safe", .lit "iplaus", .lit "t"] }
  | .safeXcheckI => { typ := 2, range := .span 5 400, effect := .confirmed, segs := [.lit "safe", .lit "xcheck", .lit "i"] }
  | .safeVbusMax => { typ := 2, range := .span 100 3000, effect := .confirmed, segs := [.lit "safe", .lit "vbus", .lit "max"] }
  | .safeVbusMin => { typ := 2, range := .span 100 3000, effect := .confirmed, segs := [.lit "safe", .lit "vbus", .lit "min"] }
  | .safeVbusUvT => { typ := 2, range := .span 1 1000, effect := .confirmed, segs := [.lit "safe", .lit "vbus", .lit "uv_t"] }
  | .safeVbusAgree => { typ := 2, range := .span 5 500, effect := .confirmed, segs := [.lit "safe", .lit "vbus", .lit "agree"] }
  | .safeTripDisc => { typ := 2, range := .span 10 5000, effect := .confirmed, segs := [.lit "safe", .lit "trip", .lit "disc"] }
  | .safeCellOv => { typ := 2, range := .span 30000 50000, effect := .confirmed, segs := [.lit "safe", .lit "cell", .lit "ov"] }
  | .safeCellUv => { typ := 2, range := .span 10000 30000, effect := .confirmed, segs := [.lit "safe", .lit "cell", .lit "uv"] }
  | .safeCellChgHi => { typ := 6, range := .span (-400) 1200, effect := .confirmed, segs := [.lit "safe", .lit "cell", .lit "chg_hi"] }
  | .safeCellChgLo => { typ := 6, range := .span (-400) 1200, effect := .confirmed, segs := [.lit "safe", .lit "cell", .lit "chg_lo"] }
  | .safeCellDisHi => { typ := 6, range := .span (-400) 1200, effect := .confirmed, segs := [.lit "safe", .lit "cell", .lit "dis_hi"] }
  | .safeChgI => { typ := 2, range := .span 5 500, effect := .confirmed, segs := [.lit "safe", .lit "chg", .lit "i"] }
  | .safeMonitorLossT => { typ := 2, range := .span 100 2000, effect := .confirmed, segs := [.lit "safe", .lit "monitor_loss", .lit "t"] }
  | .safeCmpEnforce => { typ := 10, range := .span 0 1, effect := .confirmed, segs := [.lit "safe", .lit "cmp", .lit "enforce"] }
  | .safeCmpT => { typ := 2, range := .span 10 600, effect := .confirmed, segs := [.lit "safe", .lit "cmp", .lit "t"] }
  | .safeFbT => { typ := 2, range := .span 10 1000, effect := .confirmed, segs := [.lit "safe", .lit "fb", .lit "t"] }
  | .safeWeldT => { typ := 2, range := .span 20 1000, effect := .confirmed, segs := [.lit "safe", .lit "weld", .lit "t"] }
  | .safeOpenI => { typ := 2, range := .span 10 200, effect := .confirmed, segs := [.lit "safe", .lit "open", .lit "i"] }
  | .safeResetConn => { typ := 3, range := .any, effect := .confirmed, segs := [.lit "safe", .lit "reset", .lit "conn", .idx 4] }
  | .safeFslTrip => { typ := 3, range := .any, effect := .confirmed, segs := [.lit "safe", .lit "fsl", .lit "trip", .idx 4] }
  | .safeFslChannels => { typ := 1, range := .mask 3, effect := .confirmed, segs := [.lit "safe", .lit "fsl", .lit "channels"] }
  | .safeFslUdpPort => { typ := 2, range := .span 1024 65535, effect := .confirmed, segs := [.lit "safe", .lit "fsl", .lit "udp", .lit "port"] }
  | .safeFslCanRx => { typ := 3, range := .span 0 0x1FFFFFFF, effect := .confirmed, segs := [.lit "safe", .lit "fsl", .lit "can", .lit "rx"] }
  | .safeFslCanTx => { typ := 3, range := .span 0 0x1FFFFFFF, effect := .confirmed, segs := [.lit "safe", .lit "fsl", .lit "can", .lit "tx"] }
  | .safeFslWdMin => { typ := 2, range := .span 10 1000, effect := .confirmed, segs := [.lit "safe", .lit "fsl", .lit "wd_min"] }
  | .safeFslWdMax => { typ := 2, range := .span 20 10000, effect := .confirmed, segs := [.lit "safe", .lit "fsl", .lit "wd_max"] }
  | .safeFslSeqWindow => { typ := 1, range := .span 1 255, effect := .confirmed, segs := [.lit "safe", .lit "fsl", .lit "seq_window"] }
  | .safeFslErrMax => { typ := 2, range := .span 1 1000, effect := .confirmed, segs := [.lit "safe", .lit "fsl", .lit "err_max"] }
  | .safeFslStatusConn => { typ := 3, range := .any, effect := .confirmed, segs := [.lit "safe", .lit "fsl", .lit "status", .lit "conn"] }
  | .safeFslStatusPeriod => { typ := 1, range := .span 1 100, effect := .confirmed, segs := [.lit "safe", .lit "fsl", .lit "status", .lit "period"] }
  | .safeFslStatusWd => { typ := 2, range := .span 10 10000, effect := .confirmed, segs := [.lit "safe", .lit "fsl", .lit "status", .lit "wd"] }
  | .safeFslStatusAddr => { typ := 3, range := .unicastOr0, effect := .confirmed, segs := [.lit "safe", .lit "fsl", .lit "status", .lit "addr"] }
  | .safeFslStatusPort => { typ := 2, range := .span 1024 65535, effect := .confirmed, segs := [.lit "safe", .lit "fsl", .lit "status", .lit "port"] }
  | .timeSource => { typ := 1, range := .spanOr 0 2 255, effect := .frame, segs := [.lit "time", .lit "source", .idx 3] }
  | .timeStartWait => { typ := 2, range := .span 0 600, effect := .start, segs := [.lit "time", .lit "start", .lit "wait"] }
  | .timeStepLimit => { typ := 3, range := .span 100 1000000000, effect := .frame, segs := [.lit "time", .lit "step", .lit "limit"] }
  | .timeServoTau => { typ := 2, range := .span 1 1000, effect := .now, segs := [.lit "time", .lit "servo", .lit "tau"] }
  | .timeRateMax => { typ := 3, range := .span 1000 200000, effect := .frame, segs := [.lit "time", .lit "rate", .lit "max"] }
  | .timeRateStep => { typ := 2, range := .span 10 1000, effect := .frame, segs := [.lit "time", .lit "rate", .lit "step"] }
  | .timeErrAsym => { typ := 2, range := .span 0 10000, effect := .now, segs := [.lit "time", .lit "err", .lit "asym"] }
  | .timeHoldDrift => { typ := 2, range := .span 1 10000, effect := .frame, segs := [.lit "time", .lit "hold", .lit "drift"] }
  | .timeSyncLimit => { typ := 3, range := .span 100 1000000, effect := .frame, segs := [.lit "time", .lit "sync", .lit "limit"] }
  | .timePtpDomain => { typ := 1, range := .span 0 255, effect := .start, segs := [.lit "time", .lit "ptp", .lit "domain"] }
  | .timePtpMaster => { typ := 10, range := .span 0 1, effect := .start, segs := [.lit "time", .lit "ptp", .lit "master"] }
  | .timePtpPriority1 => { typ := 1, range := .span 0 254, effect := .start, segs := [.lit "time", .lit "ptp", .lit "priority1"] }
  | .timePtpPriority2 => { typ := 1, range := .span 0 255, effect := .start, segs := [.lit "time", .lit "ptp", .lit "priority2"] }
  | .timePtpPorts => { typ := 1, range := .mask 3, effect := .start, segs := [.lit "time", .lit "ptp", .lit "ports"] }
  | .timeEthLatTx => { typ := 2, range := .span 0 2000, effect := .start, segs := [.lit "time", .lit "eth", .lit "lat", .lit "tx", .port true] }
  | .timeEthLatRx => { typ := 2, range := .span 0 2000, effect := .start, segs := [.lit "time", .lit "eth", .lit "lat", .lit "rx", .port true] }
  | .timePpsOut => { typ := 10, range := .span 0 1, effect := .frame, segs := [.lit "time", .lit "pps", .lit "out"] }
  | .timePpsWidth => { typ := 3, range := .span 1 500000, effect := .frame, segs := [.lit "time", .lit "pps", .lit "width"] }
  | .timePpsWindow => { typ := 3, range := .span 100 100000, effect := .frame, segs := [.lit "time", .lit "pps", .lit "window"] }
  | .timeCapEdge => { typ := 1, range := .span 0 2, effect := .frame, segs := [.lit "time", .lit "cap", .idx 8, .lit "edge"] }
  | .timeCapFilter => { typ := 2, range := .span 0 10000, effect := .frame, segs := [.lit "time", .lit "cap", .idx 8, .lit "filter"] }
  | .timeCapReader => { typ := 1, range := .span 0 1, effect := .commit, segs := [.lit "time", .lit "cap", .idx 8, .lit "reader"] }
  | .timeOutGpio => { typ := 1, range := .spanOr 0 15 255, effect := .commit, segs := [.lit "time", .lit "out", .idx 8, .lit "gpio"] }
  | .timeOutPeriod => { typ := 3, range := .divides 20000 1000000000, effect := .commit, segs := [.lit "time", .lit "out", .idx 8, .lit "period"] }
  | .timeOutPhase => { typ := 3, range := .even 0 999999998, effect := .commit, segs := [.lit "time", .lit "out", .idx 8, .lit "phase"] }
  | .timeOutWidth => { typ := 3, range := .even 2 999999998, effect := .commit, segs := [.lit "time", .lit "out", .idx 8, .lit "width"] }
  | .timeBlockStagger => { typ := 2, range := .span 0 124, effect := .frame, segs := [.lit "time", .lit "block", .lit "stagger"] }
  | .hostIpAddr => { typ := 3, range := .unicast, effect := .start, segs := [.lit "host", .lit "ip", .lit "addr"] }
  | .hostIpMask => { typ := 3, range := .netmask, effect := .start, segs := [.lit "host", .lit "ip", .lit "mask"] }
  | .hostIpGw => { typ := 3, range := .any, effect := .start, segs := [.lit "host", .lit "ip", .lit "gw"] }
  | .hostUdpPort => { typ := 2, range := .span 1024 65535, effect := .start, segs := [.lit "host", .lit "udp", .lit "port"] }
  | .hostSessionIdle => { typ := 2, range := .span 5 3600, effect := .now, segs := [.lit "host", .lit "session", .lit "idle"] }
  | .hostOpenConfirm => { typ := 2, range := .span 1 60, effect := .now, segs := [.lit "host", .lit "open", .lit "confirm"] }
  | .hostRateReq => { typ := 2, range := .span 10 2000, effect := .now, segs := [.lit "host", .lit "rate", .lit "req"] }
  | .hostRateBurst => { typ := 2, range := .span 1 500, effect := .now, segs := [.lit "host", .lit "rate", .lit "burst"] }
  | .hostRateErr => { typ := 2, range := .span 1 100, effect := .frame, segs := [.lit "host", .lit "rate", .lit "err"] }
  | .hostPushMax => { typ := 2, range := .span 1 128, effect := .now, segs := [.lit "host", .lit "push", .lit "max"] }
  | .hostKey => { typ := 11, range := .any, effect := .commit, segs := [.lit "host", .lit "key", .role] }
  | .canPortEnable => { typ := 10, range := .span 0 1, effect := .start, segs := [.lit "can", .lit "port", .port false, .lit "enable"] }
  | .canPortMode => { typ := 1, range := .span 0 3, effect := .start, segs := [.lit "can", .lit "port", .port false, .lit "mode"] }
  | .canPortNominal => { typ := 3, range := .oneOf [125000, 250000, 500000, 1000000], effect := .start, segs := [.lit "can", .lit "port", .port false, .lit "nominal"] }
  | .canPortData => { typ := 3, range := .oneOf [0, 1000000, 2000000, 4000000, 5000000], effect := .start, segs := [.lit "can", .lit "port", .port false, .lit "data"] }
  | .canPortSpNom => { typ := 2, range := .span 600 900, effect := .start, segs := [.lit "can", .lit "port", .port false, .lit "sp_nom"] }
  | .canPortSpData => { typ := 2, range := .span 600 900, effect := .start, segs := [.lit "can", .lit "port", .port false, .lit "sp_data"] }
  | .canAutobaudDwell => { typ := 2, range := .span 100 10000, effect := .start, segs := [.lit "can", .lit "autobaud", .lit "dwell"] }
  | .canBusoffWait => { typ := 2, range := .span 0 10000, effect := .frame, segs := [.lit "can", .lit "busoff", .lit "wait"] }
  | .canBbBase => { typ := 3, range := .busBase, effect := .start, segs := [.lit "can", .lit "bb", .lit "base"] }
  | .canBbStatusPeriod => { typ := 1, range := .span 1 100, effect := .frame, segs := [.lit "can", .lit "bb", .lit "status", .lit "period"] }
  | .canTimeRole => { typ := 1, range := .span 0 3, effect := .start, segs := [.lit "can", .lit "time", .lit "role"] }
  | .canTimePriority => { typ := 1, range := .span 0 7, effect := .start, segs := [.lit "can", .lit "time", .lit "priority"] }
  | .canTimePeriod => { typ := 1, range := .span 10 100, effect := .frame, segs := [.lit "can", .lit "time", .lit "period"] }
  | .canTimeOffset => { typ := 2, range := .span 0 4000, effect := .frame, segs := [.lit "can", .lit "time", .lit "offset"] }
  | .canTimeDelay => { typ := 2, range := .span 0 5000, effect := .now, segs := [.lit "can", .lit "time", .lit "delay"] }
  | .canTimeTakeover => { typ := 1, range := .span 2 20, effect := .frame, segs := [.lit "can", .lit "time", .lit "takeover"] }
  | .canCoPort => { typ := 1, range := .spanOr 0 1 255, effect := .start, segs := [.lit "can", .lit "co", .lit "port"] }
  | .canCoPeriod => { typ := 1, range := .oneOf [1, 2, 5, 10], effect := .commit, segs := [.lit "can", .lit "co", .lit "period"] }
  | .canCoSyncOffset => { typ := 2, range := .span 100 5000, effect := .commit, segs := [.lit "can", .lit "co", .lit "sync_offset"] }
  | .canCoMiss => { typ := 1, range := .span 1 100, effect := .frame, segs := [.lit "can", .lit "co", .lit "miss"] }
  | .progStartMode => { typ := 1, range := .span 0 1, effect := .start, segs := [.lit "prog", .lit "start", .lit "mode"] }
  | .progForceOperate => { typ := 10, range := .span 0 1, effect := .now, segs := [.lit "prog", .lit "force", .lit "operate"] }
  | .progStageTimeout => { typ := 2, range := .span 10 3600, effect := .now, segs := [.lit "prog", .lit "stage", .lit "timeout"] }
  | .recCellExtremes => { typ := 10, range := .span 0 1, effect := .frame, segs := [.lit "rec", .lit "cell", .lit "extremes"] }
  | .recClearModes => { typ := 1, range := .mask 0x16, effect := .now, segs := [.lit "rec", .lit "clear", .lit "modes"] }
  | .memScrubPeriod => { typ := 2, range := .span 10 3600, effect := .round, segs := [.lit "mem", .lit "scrub", .lit "period"] }
  | .memMramScrubPeriod => { typ := 3, range := .span 600 86400, effect := .round, segs := [.lit "mem", .lit "mram", .lit "scrub", .lit "period"] }
  | .memBankRetire => { typ := 2, range := .span 1 1000, effect := .round, segs := [.lit "mem", .lit "bank", .lit "retire"] }
  | .memLineRepeat => { typ := 3, range := .span 60 604800, effect := .round, segs := [.lit "mem", .lit "line", .lit "repeat"] }
  | .bootStartMode => { typ := 1, range := .span 1 3, effect := .start, segs := [.lit "boot", .lit "start", .lit "mode"] }
  | .bootLifecycle => { typ := 1, range := .span 0 3, effect := .start, segs := [.lit "boot", .lit "lifecycle"] }
  | .bootFlashFirst => { typ := 1, range := .span 0 1, effect := .start, segs := [.lit "boot", .lit "flash", .lit "first"] }
  | .bootHaltTries => { typ := 1, range := .span 1 5, effect := .start, segs := [.lit "boot", .lit "halt", .lit "tries"] }
  | .bootDiscoverFrames => { typ := 2, range := .span 0 1000, effect := .start, segs := [.lit "boot", .lit "discover", .lit "frames"] }
  | .bootPosition => { typ := 1, range := .span 0 15, effect := .start, segs := [.lit "boot", .lit "position"] }
  | .bootBlock => { typ := 2, range := .span 0 4095, effect := .start, segs := [.lit "boot", .lit "block"] }
  | .bootUid => { typ := 4, range := .any, effect := .readOnly, segs := [.lit "boot", .lit "uid"] }
  | .bootSignKeyX => { typ := 11, range := .any, effect := .commit, segs := [.lit "boot", .lit "sign", .lit "key", .lit "x"] }
  | .bootSignKeyY => { typ := 11, range := .any, effect := .commit, segs := [.lit "boot", .lit "sign", .lit "key", .lit "y"] }
  | .bootModuleKeyX => { typ := 11, range := .any, effect := .readOnly, segs := [.lit "boot", .lit "module", .lit "key", .lit "x"] }
  | .bootModuleKeyY => { typ := 11, range := .any, effect := .readOnly, segs := [.lit "boot", .lit "module", .lit "key", .lit "y"] }
  | .bootSectionLen => { typ := 3, range := .words 1048000, effect := .commit, segs := [.lit "boot", .lit "section", .idx 10, .lit "len"] }
  | .bootSection => { typ := 11, range := .any, effect := .commit, segs := [.lit "boot", .lit "section", .idx 10, .idx 1048000] }
  | .updFwLead => { typ := 2, range := .span 10 500, effect := .now, segs := [.lit "upd", .lit "fw", .lit "lead"] }
  | .updConfirmT => { typ := 2, range := .span 200 10000, effect := .now, segs := [.lit "upd", .lit "confirm", .lit "t"] }
  | .updIdleDays => { typ := 2, range := .span 1 365, effect := .frame, segs := [.lit "upd", .lit "idle", .lit "days"] }
  | .updForagerTries => { typ := 1, range := .span 1 10, effect := .now, segs := [.lit "upd", .lit "forager", .lit "tries"] }
  | .updKeyX => { typ := 11, range := .any, effect := .readOnly, segs := [.lit "upd", .lit "key", .lit "x"] }
  | .updKeyY => { typ := 11, range := .any, effect := .readOnly, segs := [.lit "upd", .lit "key", .lit "y"] }
  | .bistEnable => { typ := 10, range := .span 0 1, effect := .round, segs := [.lit "bist", .lit "enable"] }
  | .bistSlices => { typ := 3, range := .span 0 0x003FFFFF, effect := .round, segs := [.lit "bist", .lit "slices"] }
  | .bistRequalPasses => { typ := 1, range := .span 1 10, effect := .round, segs := [.lit "bist", .lit "requal", .lit "passes"] }
  | .pwrLimit => { typ := 2, range := .span 9000 15500, effect := .frame, segs := [.lit "pwr", .lit "limit"] }
  | .pwrP3Max => { typ := 2, range := .span 0 6000, effect := .frame, segs := [.lit "pwr", .lit "p3", .lit "max"] }

/-- Default column, as the value or the bits of a float32; i and j are the indices. -/
def PName.dflt : PName → Nat → Nat → Int
  | .timeSampleSource, _, _ => 0
  | .timeSampleQuietMin, _, _ => 1000
  | .timeSampleSyncOffset, _, _ => 0
  | .linkStrings, _, _ => 0x0F
  | .linkPlan, _, _ => 0
  | .linkBricks, _, _ => 36
  | .linkTxSyncLead, _, _ => 0
  | .linkRoute, _, _ => 0x3F3F
  | .linkRelayRestore, _, _ => 100
  | .linkJoinModes, _, _ => 0x16
  | .linkJoinWindow, _, _ => 16
  | .linkCmdTries, _, _ => 8
  | .linkBulkDownMin, _, _ => 2
  | .linkBulkTimeout, _, _ => 1000
  | .linkMicAlarm, _, _ => 10
  | .cellCoarseTol, _, _ => 4
  | .cellBrickTol, _, _ => 200
  | .cellOwDev, _, _ => 50
  | .cellOwSum, _, _ => 20
  | .cellOwFrames, _, _ => 3
  | .cellOwAuto, _, _ => 1
  | .cellOwDuration, _, _ => 100
  | .cellOwConfirm, _, _ => 500
  | .cellOwRetry, _, _ => 60
  | .cellBleedR, _, _ => 2200
  | .cellBalEnable, _, _ => 1
  | .cellBalModes, _, _ => 0x0C
  | .cellBalPeriod, _, _ => 60
  | .cellBalBand, _, _ => 50
  | .cellBalStop, _, _ => 10
  | .cellBalTMax, _, _ => 120
  | .cellBalVMin, _, _ => 31000
  | .cellBalTHot, _, _ => 500
  | .cellCmpOv, _, _ => 37500
  | .cellCmpUv, _, _ => 23000
  | .cellBurstTimeout, _, _ => 500
  | .estISource, _, _ => 0
  | .estForagerIq, _, _ => 1500
  | .estDrift, _, _ => 50
  | .estCountGain, _, _ => 100
  | .estSigmaMax, _, _ => 500
  | .estSigmaHyst, _, _ => 50
  | .estRestI, _, _ => 10
  | .estRestT, _, _ => 300
  | .estRestTFull, _, _ => 3600
  | .estRelaxSkip, _, _ => 10
  | .estRelaxRetry, _, _ => 60
  | .estRelaxFitMax, _, _ => 50
  | .estRelaxSettled, _, _ => 120
  | .estOcvBranchQ, _, _ => 50
  | .estAnchorSlopeMin, _, _ => 500
  | .estAnchorVErr, _, _ => 300
  | .estAnchorLoad, _, _ => 1
  | .estAnchorLoadErr, _, _ => 1500
  | .estAnchorEndSigma, _, _ => 50
  | .estAnchorTMin, _, _ => 50
  | .estAnchorTMax, _, _ => 450
  | .estEodV, _, _ => 28000
  | .estEodHyst, _, _ => 500
  | .estEocV, _, _ => 36000
  | .estEocHyst, _, _ => 500
  | .estEocITaper, _, _ => 50
  | .impModes, _, _ => 0x18
  | .impPeriod, _, _ => 30
  | .impRate, _, _ => 8000
  | .impCount, _, _ => 32000
  | .impTone, i, _ => [10, 200, 4000].getD i 0
  | .impAmp, _, _ => 1000
  | .impSettle, _, _ => 1000
  | .impRamp, _, _ => 200
  | .impArmLead, _, _ => 150
  | .impUncomp, _, _ => 0
  | .impDelay, _, _ => 0
  | .impIAgree, _, _ => 20
  | .impIDrift, _, _ => 200
  | .impRTone, _, _ => 0
  | .impRWeight, _, _ => 500
  | .impRDefault, _, _ => 300000
  | .impTempTone, _, _ => 2
  | .impTempBeta, _, _ => 2500
  | .impTempCalRest, _, _ => 7200
  | .impTempCalSpread, _, _ => 10
  | .impHealthWarn, _, _ => 1500
  | .estCapNominal, _, _ => 31400
  | .estCapModes, _, _ => 0x18
  | .estCapPeriod, _, _ => 180
  | .estCapChargeRate, _, _ => 250
  | .estCapRate, _, _ => 500
  | .estCapChargeTmax, _, _ => 480
  | .estCapDisTmax, _, _ => 1440
  | .estCapTMin, _, _ => 150
  | .estCapTMax, _, _ => 350
  | .estCapSpanMin, _, _ => 8000
  | .estCapWarn, _, _ => 800
  | .estStorePeriod, _, _ => 15
  | .regStrings, _, _ => 0x0F
  | .regCalGain, i, _ => if isCurrentChannel i then 1137180672 else 1159479296
  | .regCalZero, _, _ => 0
  | .regMeasStuck, _, _ => 128
  | .regMeasRange, _, _ => 950
  | .regMeasLostTicks, _, _ => 5
  | .regPwmPhase, i, _ => 500 * i
  | .regPwmDead, _, _ => 500
  | .regPwmInterleave, _, _ => 1
  | .regDutyMin, _, _ => 200
  | .regDutyMax, _, _ => 9800
  | .regIRating, _, _ => 2000
  | .regISlew, _, _ => 100
  | .regRegionDwell, _, _ => 50
  | .regSatReport, _, _ => 5000
  | .regVbusMin, _, _ => 2000
  | .regVbusMax, _, _ => 2500
  | .regManualSlew, _, _ => 10
  | .regShadow, _, _ => 1
  | .dispSrcPrimary, _, _ => 1
  | .dispSrcBackup, _, _ => 255
  | .dispSrcRevert, _, _ => 0
  | .dispSrcRevertT, _, _ => 60
  | .dispHostTimeout, _, _ => 500
  | .dispBusTimeout, _, _ => 200
  | .dispAnaZero, _, _ => 0
  | .dispAnaSpan, _, _ => 1150681088
  | .dispPulseF0, _, _ => 10000
  | .dispPulseK, _, _ => 1045220557
  | .dispPulseFmin, _, _ => 4000
  | .dispPulseFmax, _, _ => 16000
  | .dispPulseGate, _, _ => 10
  | .dispPMax, _, _ => 1150681088
  | .dispRamp, _, _ => 1148846080
  | .dispLossReact, _, _ => 1
  | .dispLossHold, _, _ => 1000
  | .dispLossRamp, _, _ => 1140457472
  | .dispAllowSource, _, _ => 2
  | .dispAllowChg, _, _ => 800
  | .dispAllowDis, _, _ => 800
  | .dispAllowTimeout, _, _ => 1000
  | .dispIMax, _, _ => 2000
  | .dispEndReact, _, _ => 1
  | .dispHealthK, _, _ => 500
  | .dispHealthFloor, _, _ => 700
  | .dispAnchorBias, _, _ => 0
  | .dispRestEnable, _, _ => 1
  | .dispRestT, _, _ => 600
  | .dispRestGap, _, _ => 240
  | .dispRestMargin, _, _ => 50
  | .dispSurveyAuto, _, _ => 0x01
  | .dispConnectAuto, _, _ => 0x00
  | .dispCtrTFb, _, _ => 100
  | .dispPreDv, _, _ => 20
  | .dispPreTmax, _, _ => 3000
  | .dispPreOverlap, _, _ => 20
  | .dispDiscI, _, _ => 20
  | .dispDiscTmax, _, _ => 100
  | .thermCellChgHiWarn, _, _ => 330
  | .thermCellChgHiThrottle, _, _ => 350
  | .thermCellChgHiShut, _, _ => 450
  | .thermCellChgLoWarn, _, _ => 120
  | .thermCellChgLoThrottle, _, _ => 100
  | .thermCellChgLoShut, _, _ => 0
  | .thermCellDisHiWarn, _, _ => 450
  | .thermCellDisHiThrottle, _, _ => 500
  | .thermCellDisHiShut, _, _ => 600
  | .thermCellHyst, _, _ => 50
  | .thermChgMin, _, _ => 0
  | .thermChgMax, _, _ => 450
  | .thermMap, i, _ => i / 4
  | .thermIntUse, _, _ => 1
  | .thermIntAge, _, _ => 3600
  | .thermDieMargin, _, _ => 100
  | .thermStuckT, _, _ => 21600
  | .thermDieStuck, _, _ => 5
  | .thermDieP2Share, _, _ => 500
  | .thermDisable, _, _ => 0
  | .thermDieDisable, _, _ => 0
  | .thermCoolOn, _, _ => 300
  | .thermHeatOn, _, _ => 50
  | .thermCoolGpio, _, _ => 255
  | .thermHeatGpio, _, _ => 255
  | .safeStrings, _, _ => 0x0F
  | .safeCalGain, i, _ => if isCurrentChannel i then 1137180672 else 1159479296
  | .safeCalZero, _, _ => 0
  | .safeOcI, _, _ => 2500
  | .safeIplausT, _, _ => 100
  | .safeXcheckI, _, _ => 40
  | .safeVbusMax, _, _ => 2600
  | .safeVbusMin, _, _ => 1850
  | .safeVbusUvT, _, _ => 20
  | .safeVbusAgree, _, _ => 50
  | .safeTripDisc, _, _ => 500
  | .safeCellOv, _, _ => 37000
  | .safeCellUv, _, _ => 25000
  | .safeCellChgHi, _, _ => 450
  | .safeCellChgLo, _, _ => 0
  | .safeCellDisHi, _, _ => 600
  | .safeChgI, _, _ => 20
  | .safeMonitorLossT, _, _ => 2000
  | .safeCmpEnforce, _, _ => 1
  | .safeCmpT, _, _ => 60
  | .safeFbT, _, _ => 100
  | .safeWeldT, _, _ => 100
  | .safeOpenI, _, _ => 50
  | .safeResetConn, _, _ => 0
  | .safeFslTrip, _, _ => 0
  | .safeFslChannels, _, _ => 0x03
  | .safeFslUdpPort, _, _ => 47210
  | .safeFslCanRx, _, _ => 0x1FA50000
  | .safeFslCanTx, _, _ => 0x1FA50080
  | .safeFslWdMin, _, _ => 20
  | .safeFslWdMax, _, _ => 500
  | .safeFslSeqWindow, _, _ => 8
  | .safeFslErrMax, _, _ => 10
  | .safeFslStatusConn, _, _ => 0
  | .safeFslStatusPeriod, _, _ => 5
  | .safeFslStatusWd, _, _ => 100
  | .safeFslStatusAddr, _, _ => 0
  | .safeFslStatusPort, _, _ => 47211
  | .timeSource, i, _ => [0, 2, 255].getD i 255
  | .timeStartWait, _, _ => 10
  | .timeStepLimit, _, _ => 1000000
  | .timeServoTau, _, _ => 16
  | .timeRateMax, _, _ => 100000
  | .timeRateStep, _, _ => 100
  | .timeErrAsym, _, _ => 100
  | .timeHoldDrift, _, _ => 100
  | .timeSyncLimit, _, _ => 1000
  | .timePtpDomain, _, _ => 0
  | .timePtpMaster, _, _ => 0
  | .timePtpPriority1, _, _ => 128
  | .timePtpPriority2, _, _ => 128
  | .timePtpPorts, _, _ => 0x03
  | .timeEthLatTx, _, _ => 0
  | .timeEthLatRx, _, _ => 0
  | .timePpsOut, _, _ => 1
  | .timePpsWidth, _, _ => 100000
  | .timePpsWindow, _, _ => 1000
  | .timeCapEdge, _, _ => 0
  | .timeCapFilter, _, _ => 100
  | .timeCapReader, _, _ => 0
  | .timeOutGpio, _, _ => 255
  | .timeOutPeriod, _, _ => 1000000000
  | .timeOutPhase, _, _ => 0
  | .timeOutWidth, _, _ => 10000
  | .timeBlockStagger, _, _ => 31
  | .hostIpAddr, _, _ => 0xC0A80A0A
  | .hostIpMask, _, _ => 0xFFFFFF00
  | .hostIpGw, _, _ => 0
  | .hostUdpPort, _, _ => 47200
  | .hostSessionIdle, _, _ => 30
  | .hostOpenConfirm, _, _ => 5
  | .hostRateReq, _, _ => 200
  | .hostRateBurst, _, _ => 50
  | .hostRateErr, _, _ => 10
  | .hostPushMax, _, _ => 32
  | .hostKey, _, _ => 0
  | .canPortEnable, _, _ => 1
  | .canPortMode, _, _ => 0
  | .canPortNominal, _, _ => 500000
  | .canPortData, _, _ => 2000000
  | .canPortSpNom, _, _ => 800
  | .canPortSpData, _, _ => 750
  | .canAutobaudDwell, _, _ => 1000
  | .canBusoffWait, _, _ => 100
  | .canBbBase, _, _ => 0x1FB00000
  | .canBbStatusPeriod, _, _ => 10
  | .canTimeRole, _, _ => 1
  | .canTimePriority, _, _ => 7
  | .canTimePeriod, _, _ => 100
  | .canTimeOffset, _, _ => 1000
  | .canTimeDelay, _, _ => 0
  | .canTimeTakeover, _, _ => 3
  | .canCoPort, _, _ => 255
  | .canCoPeriod, _, _ => 10
  | .canCoSyncOffset, _, _ => 1000
  | .canCoMiss, _, _ => 3
  | .progStartMode, _, _ => 1
  | .progForceOperate, _, _ => 0
  | .progStageTimeout, _, _ => 300
  | .recCellExtremes, _, _ => 1
  | .recClearModes, _, _ => 0x16
  | .memScrubPeriod, _, _ => 60
  | .memMramScrubPeriod, _, _ => 3600
  | .memBankRetire, _, _ => 8
  | .memLineRepeat, _, _ => 3600
  | .bootStartMode, _, _ => 2
  | .bootLifecycle, _, _ => 0
  | .bootFlashFirst, _, _ => 0
  | .bootHaltTries, _, _ => 2
  | .bootDiscoverFrames, _, _ => 200
  | .bootPosition, _, _ => 0
  | .bootBlock, _, _ => 0
  | .bootUid, _, _ => 0
  | .bootSignKeyX, _, _ => 0
  | .bootSignKeyY, _, _ => 0
  | .bootModuleKeyX, _, _ => 0
  | .bootModuleKeyY, _, _ => 0
  | .bootSectionLen, _, _ => 0
  | .bootSection, _, _ => 0
  | .updFwLead, _, _ => 20
  | .updConfirmT, _, _ => 1000
  | .updIdleDays, _, _ => 30
  | .updForagerTries, _, _ => 3
  | .updKeyX, _, _ => 0
  | .updKeyY, _, _ => 0
  | .bistEnable, _, _ => 1
  | .bistSlices, _, _ => 0x003FFFFF
  | .bistRequalPasses, _, _ => 3
  | .pwrLimit, _, _ => 15500
  | .pwrP3Max, _, _ => 1500

/-- All names, in the order of the chapters. -/
def pNames0 : List PName := [.timeSampleSource, .timeSampleQuietMin, .timeSampleSyncOffset, .linkStrings, .linkPlan, .linkBricks, .linkTxSyncLead, .linkRoute, .linkRelayRestore, .linkJoinModes, .linkJoinWindow, .linkCmdTries, .linkBulkDownMin, .linkBulkTimeout, .linkMicAlarm, .cellCoarseTol, .cellBrickTol, .cellOwDev, .cellOwSum, .cellOwFrames, .cellOwAuto, .cellOwDuration, .cellOwConfirm, .cellOwRetry, .cellBleedR, .cellBalEnable, .cellBalModes, .cellBalPeriod, .cellBalBand, .cellBalStop, .cellBalTMax, .cellBalVMin, .cellBalTHot, .cellCmpOv, .cellCmpUv, .cellBurstTimeout, .estISource, .estForagerIq, .estDrift, .estCountGain, .estSigmaMax, .estSigmaHyst, .estRestI, .estRestT, .estRestTFull, .estRelaxSkip, .estRelaxRetry, .estRelaxFitMax, .estRelaxSettled, .estOcvBranchQ, .estAnchorSlopeMin, .estAnchorVErr, .estAnchorLoad, .estAnchorLoadErr, .estAnchorEndSigma, .estAnchorTMin, .estAnchorTMax, .estEodV, .estEodHyst, .estEocV]
def pNames1 : List PName := [.estEocHyst, .estEocITaper, .impModes, .impPeriod, .impRate, .impCount, .impTone, .impAmp, .impSettle, .impRamp, .impArmLead, .impUncomp, .impDelay, .impIAgree, .impIDrift, .impRTone, .impRWeight, .impRDefault, .impTempTone, .impTempBeta, .impTempCalRest, .impTempCalSpread, .impHealthWarn, .estCapNominal, .estCapModes, .estCapPeriod, .estCapChargeRate, .estCapRate, .estCapChargeTmax, .estCapDisTmax, .estCapTMin, .estCapTMax, .estCapSpanMin, .estCapWarn, .estStorePeriod, .regStrings, .regCalGain, .regCalZero, .regMeasStuck, .regMeasRange, .regMeasLostTicks, .regPwmPhase, .regPwmDead, .regPwmInterleave, .regDutyMin, .regDutyMax, .regIRating, .regISlew, .regRegionDwell, .regSatReport, .regVbusMin, .regVbusMax, .regManualSlew, .regShadow, .dispSrcPrimary, .dispSrcBackup, .dispSrcRevert, .dispSrcRevertT, .dispHostTimeout, .dispBusTimeout]
def pNames2 : List PName := [.dispAnaZero, .dispAnaSpan, .dispPulseF0, .dispPulseK, .dispPulseFmin, .dispPulseFmax, .dispPulseGate, .dispPMax, .dispRamp, .dispLossReact, .dispLossHold, .dispLossRamp, .dispAllowSource, .dispAllowChg, .dispAllowDis, .dispAllowTimeout, .dispIMax, .dispEndReact, .dispHealthK, .dispHealthFloor, .dispAnchorBias, .dispRestEnable, .dispRestT, .dispRestGap, .dispRestMargin, .dispSurveyAuto, .dispConnectAuto, .dispCtrTFb, .dispPreDv, .dispPreTmax, .dispPreOverlap, .dispDiscI, .dispDiscTmax, .thermCellChgHiWarn, .thermCellChgHiThrottle, .thermCellChgHiShut, .thermCellChgLoWarn, .thermCellChgLoThrottle, .thermCellChgLoShut, .thermCellDisHiWarn, .thermCellDisHiThrottle, .thermCellDisHiShut, .thermCellHyst, .thermChgMin, .thermChgMax, .thermMap, .thermIntUse, .thermIntAge, .thermDieMargin, .thermStuckT, .thermDieStuck, .thermDieP2Share, .thermDisable, .thermDieDisable, .thermCoolOn, .thermHeatOn, .thermCoolGpio, .thermHeatGpio, .safeStrings, .safeCalGain]
def pNames3 : List PName := [.safeCalZero, .safeOcI, .safeIplausT, .safeXcheckI, .safeVbusMax, .safeVbusMin, .safeVbusUvT, .safeVbusAgree, .safeTripDisc, .safeCellOv, .safeCellUv, .safeCellChgHi, .safeCellChgLo, .safeCellDisHi, .safeChgI, .safeMonitorLossT, .safeCmpEnforce, .safeCmpT, .safeFbT, .safeWeldT, .safeOpenI, .safeResetConn, .safeFslTrip, .safeFslChannels, .safeFslUdpPort, .safeFslCanRx, .safeFslCanTx, .safeFslWdMin, .safeFslWdMax, .safeFslSeqWindow, .safeFslErrMax, .safeFslStatusConn, .safeFslStatusPeriod, .safeFslStatusWd, .safeFslStatusAddr, .safeFslStatusPort, .timeSource, .timeStartWait, .timeStepLimit, .timeServoTau, .timeRateMax, .timeRateStep, .timeErrAsym, .timeHoldDrift, .timeSyncLimit, .timePtpDomain, .timePtpMaster, .timePtpPriority1, .timePtpPriority2, .timePtpPorts, .timeEthLatTx, .timeEthLatRx, .timePpsOut, .timePpsWidth, .timePpsWindow, .timeCapEdge, .timeCapFilter, .timeCapReader, .timeOutGpio, .timeOutPeriod]
def pNames4 : List PName := [.timeOutPhase, .timeOutWidth, .timeBlockStagger, .hostIpAddr, .hostIpMask, .hostIpGw, .hostUdpPort, .hostSessionIdle, .hostOpenConfirm, .hostRateReq, .hostRateBurst, .hostRateErr, .hostPushMax, .hostKey, .canPortEnable, .canPortMode, .canPortNominal, .canPortData, .canPortSpNom, .canPortSpData, .canAutobaudDwell, .canBusoffWait, .canBbBase, .canBbStatusPeriod, .canTimeRole, .canTimePriority, .canTimePeriod, .canTimeOffset, .canTimeDelay, .canTimeTakeover, .canCoPort, .canCoPeriod, .canCoSyncOffset, .canCoMiss, .progStartMode, .progForceOperate, .progStageTimeout, .recCellExtremes, .recClearModes, .memScrubPeriod, .memMramScrubPeriod, .memBankRetire, .memLineRepeat, .bootStartMode, .bootLifecycle, .bootFlashFirst, .bootHaltTries, .bootDiscoverFrames, .bootPosition, .bootBlock, .bootUid, .bootSignKeyX, .bootSignKeyY, .bootModuleKeyX, .bootModuleKeyY, .bootSectionLen, .bootSection, .updFwLead, .updConfirmT, .updIdleDays]
def pNames5 : List PName := [.updForagerTries, .updKeyX, .updKeyY, .bistEnable, .bistSlices, .bistRequalPasses, .pwrLimit, .pwrP3Max]
def allPNames : List PName := pNames0 ++ pNames1 ++ pNames2 ++ pNames3 ++ pNames4 ++ pNames5

/-- Whether a value lies in the range of its parameter. -/
def PRange.holds : PRange → Int → Bool
  | .span lo hi, v => decide (lo ≤ v) && decide (v ≤ hi)
  | .spanOr lo hi x, v => (decide (lo ≤ v) && decide (v ≤ hi)) || v == x
  | .mask m, v => decide (0 ≤ v) && v.toNat &&& m == v.toNat
  | .oneOf l, v => l.contains v
  | .real lo hi, v => match f32.rat? v.toNat with | some q => decide (lo ≤ q) && decide (q ≤ hi) | none => false
  | .any, _ => true
  | .unicast, v => decide (0 < v) && decide (v < 0xE0000000)
  | .unicastOr0, v => decide (0 ≤ v) && decide (v < 0xE0000000)
  | .netmask, v => (List.range 33).any fun k => v == (0x100000000 - 2 ^ k : Int)
  | .divides lo m, v => decide (lo ≤ v) && decide (v ≤ m) && m % v == 0
  | .even lo hi, v => decide (lo ≤ v) && decide (v ≤ hi) && v % 2 == 0
  | .busBase, v => decide (0 ≤ v) && decide (v < 0x20000000) && v % 0x10000 == 0
  | .words hi, v => decide (0 ≤ v) && decide (v ≤ hi) && v % 4 == 0

/-- Value range of a type code (R53, R408); 11 is bytes[32]. -/
def typeHolds (t : Nat) (v : Int) : Bool :=
  match t with
  | 1 => decide (0 ≤ v) && decide (v < 2 ^ 8)
  | 2 => decide (0 ≤ v) && decide (v < 2 ^ 16)
  | 3 => decide (0 ≤ v) && decide (v < 2 ^ 32)
  | 4 => decide (0 ≤ v) && decide (v < 2 ^ 64)
  | 5 => decide (-(2 ^ 7) ≤ v) && decide (v < 2 ^ 7)
  | 6 => decide (-(2 ^ 15) ≤ v) && decide (v < 2 ^ 15)
  | 7 => decide (-(2 ^ 31) ≤ v) && decide (v < 2 ^ 31)
  | 8 => decide (-(2 ^ 63) ≤ v) && decide (v < 2 ^ 63)
  | 9 => decide (0 ≤ v) && decide (v < 2 ^ 32)
  | 10 => decide (0 ≤ v) && decide (v < 2)
  | 11 => decide (0 ≤ v) && decide (v < 2 ^ 256)
  | _ => false

/-- Octets of a value of a type code (R7, R52): the item slot and the record of R408 hold it zero-extended to eight. -/
def typeBytes (t : Nat) : Nat := [0, 1, 2, 4, 8, 1, 2, 4, 8, 4, 1, 32].getD t 0

/-- A value as the eight octets of R408, zero-extended, or the 32 of bytes[32] in their place. -/
def valueBytes (t : Nat) (v : Int) : List Byte :=
  if t == 11 then toLE 32 (field 256 v) else toLE 8 (field (8 * typeBytes t) v)

/-- Whether the indices of a key lie below the bounds of its name, and it names a parameter of the tables. -/
def ParamKey.ok (k : ParamKey) : Bool :=
  let bs := k.p.desc.segs.filterMap fun | .lit _ => none | .idx b => some b | .role => some 4 | .port _ => some 2
  (match bs with
    | [] => k.i == 0 && k.j == 0
    | [a] => decide (k.i < a) && k.j == 0
    | a :: b :: _ => decide (k.i < a) && decide (k.j < b)) &&
  (match k.p with
    | .safeCalGain => decide (k.i < 18) && (k.i == 16 || k.i == 17 || isCurrentChannel k.i)
    | .safeCalZero => decide (k.i < 18) && (k.i == 16 || k.i == 17 || isCurrentChannel k.i)
    | .bootSectionLen => decide (3 ≤ k.i)
    | .bootSection => decide (3 ≤ k.i) && k.j % 32 == 0
    | _ => true)

/-- Characters of a number in decimal. -/
def decimalFuel : Nat → Nat → List Char
  | 0, _ => []
  | f + 1, n => if n < 10 then [Char.ofNat (48 + n)] else decimalFuel f (n / 10) ++ [Char.ofNat (48 + n % 10)]

def decimal (n : Nat) : List Char := decimalFuel 20 n

def roleWord (n : Nat) : List Char := (["observer", "operator", "engineer", "safety"].getD n "").toList

/-- Letter of a port in a name. -/
def portWord (upper : Bool) (n : Nat) : List Char := [if upper then (if n == 0 then 'A' else 'B') else (if n == 0 then 'a' else 'b')]

/-- The dotted name of a key in ASCII (R408). -/
def nameChars (k : ParamKey) : List Char :=
  let step (acc : List (List Char) × List Nat) (s : PSeg) : List (List Char) × List Nat :=
    match s with
    | .lit w => (acc.1 ++ [w.toList], acc.2)
    | .idx _ => (acc.1 ++ [decimal (acc.2.headD 0)], acc.2.drop 1)
    | .role => (acc.1 ++ [roleWord (acc.2.headD 0)], acc.2.drop 1)
    | .port up => (acc.1 ++ [portWord up (acc.2.headD 0)], acc.2.drop 1)
  List.intercalate ['.'] (k.p.desc.segs.foldl step ([], [k.i, k.j])).1

def nameBytes (k : ParamKey) : List Byte := (nameChars k).map fun c => BitVec.ofNat 8 c.toNat

/-- Segments of a dotted name. -/
def splitDots : List Char → List (List Char)
  | [] => [[]]
  | c :: cs => match splitDots cs with
    | [] => [[c]]
    | w :: ws => if c == '.' then [] :: w :: ws else (c :: w) :: ws

/-- A decimal index without a leading zero. -/
def readIndex (cs : List Char) : Option Nat :=
  if cs.isEmpty || (decide (1 < cs.length) && cs.headD '0' == '0') then none
  else cs.foldl (fun a c => match a with
    | some n => if decide (48 ≤ c.toNat) && decide (c.toNat ≤ 57) then some (n * 10 + (c.toNat - 48)) else none
    | none => none) (some 0)

/-- Matches the segments of a name against the words of one, giving its indices. -/
def matchSegs : List PSeg → List (List Char) → Option (List Nat)
  | [], [] => some []
  | .lit w :: ss, c :: cs => if w.toList == c then matchSegs ss cs else none
  | .idx b :: ss, c :: cs => match readIndex c with
    | some n => if n < b then (matchSegs ss cs).map (n :: ·) else none
    | none => none
  | .role :: ss, c :: cs => match (List.range 4).find? (fun n => roleWord n == c) with
    | some n => (matchSegs ss cs).map (n :: ·)
    | none => none
  | .port up :: ss, c :: cs => match (List.range 2).find? (fun n => portWord up n == c) with
    | some n => (matchSegs ss cs).map (n :: ·)
    | none => none
  | _, _ => none

/-- The parameter that a dotted name names (R408); none for an unknown name (R410). -/
def paramOfName (bs : List Byte) : Option ParamKey :=
  let words := splitDots (bs.map fun b => Char.ofNat b.toNat)
  let hit := allPNames.findSome? fun p => (matchSegs p.desc.segs words).map fun is => ({ p := p, i := is.getD 0 0, j := is.getD 1 0 } : ParamKey)
  hit.bind fun k => if k.ok then some k else none

/-- Whether a value is one the parameter admits (type and range). -/
def ParamKey.admits (k : ParamKey) (v : Int) : Bool := typeHolds k.p.desc.typ v && k.p.desc.range.holds v

/-- Default of a key. -/
def ParamKey.dflt (k : ParamKey) : Int := k.p.dflt k.i k.j

/-- Names of the safety section: Tables 11-11 and 12-9. -/
def isSafetyName (p : PName) : Bool := p.desc.segs.headD .role == .lit "safe"

/-- Keys of the safety section (R337), every index written out. -/
def safetyKeys : List ParamKey :=
  let chans := [0, 1, 4, 5, 8, 9, 12, 13, 16, 17]
  (allPNames.filter isSafetyName).flatMap fun p =>
    match p with
    | .safeCalGain => chans.map fun c => { p := p, i := c }
    | .safeCalZero => chans.map fun c => { p := p, i := c }
    | .safeResetConn => (List.range 4).map fun c => { p := p, i := c }
    | .safeFslTrip => (List.range 4).map fun c => { p := p, i := c }
    | _ => [{ p := p }]

/-- Order of names as unsigned bytes, a prefix first (R337). -/
def bytesLe : List Nat → List Nat → Bool
  | [], _ => true
  | _ :: _, [] => false
  | a :: as, b :: bs => if a < b then true else if b < a then false else bytesLe as bs

/-- Insertion into a sorted list, and the sort it gives. -/
def insertBy {α : Type} (le : α → α → Bool) (x : α) : List α → List α
  | [] => [x]
  | y :: ys => if le x y then x :: y :: ys else y :: insertBy le x ys

def sortBy {α : Type} (le : α → α → Bool) : List α → List α
  | [] => []
  | x :: xs => insertBy le x (sortBy le xs)

/-- Keys of the safety section in the order of their name bytes. -/
def safetyOrder : List ParamKey :=
  sortBy (fun a b => bytesLe ((nameChars a).map Char.toNat) ((nameChars b).map Char.toNat)) safetyKeys

/-- A parameter record (R408, R512): name length, name, type, value, zero bytes to a multiple of 4. -/
def paramRecord (k : ParamKey) (v : Int) : List Byte :=
  let nb := nameBytes k
  let r := toLE 1 nb.length ++ nb ++ toLE 1 k.p.desc.typ ++ valueBytes k.p.desc.typ v
  r ++ List.replicate ((4 - r.length % 4) % 4) 0

/-- A configured value: the one a list of settings holds, else the default. -/
def paramIn (ps : List (ParamKey × Int)) (k : ParamKey) : Int := (ps.lookup k).getD k.dflt

/-- Settings with one value replaced; a value at its default leaves no entry. -/
def setParam (ps : List (ParamKey × Int)) (k : ParamKey) (v : Int) : List (ParamKey × Int) :=
  let rest := ps.filter fun e => e.1 != k
  if v == k.dflt then rest else (k, v) :: rest

/-- Data bytes of the safety section of a set of values (R337). -/
def safetySection (ps : List (ParamKey × Int)) : List Byte :=
  safetyOrder.flatMap fun k => paramRecord k (paramIn ps k)

/-- Safety check value of a set of values (R337). -/
def scvOf (ps : List (ParamKey × Int)) : Nat := crc32 (safetySection ps)

end Sys2Proof
end

