-- ==== Sys2Proof/Machine/State.lean ====
section
/-!
DEFINITION. State: every piece of state the spec gives the block, as plain data, and the machine right after reset. A field's docstring
gives its width, the rule and file of the spec that name it, its reset value (spec: the spec gives it; DC1, DC2: the model's own value,
logs 1 and 2) and what it is. Where a docstring stands over several fields it speaks of each.
-/
namespace Sys2Proof.Machine

/-- Slot of the Comb image and value of an item (R52, R58). -/
structure Item where
  /-- 64 | R52 03_comb.md | spec | value in the item's type; a float32 as its bits. -/
  val : Int := 0
  /-- 3 | R52, R58 03_comb.md | spec | quality code; Invalid before a valid value exists. -/
  q : Quality := .invalid
  /-- 24 | R52 03_comb.md | spec | frames from the sample frame; none while it is unknown (0xFFFFFF). -/
  age : Option Nat := none
  deriving DecidableEq, Repr

/-- One compare unit (R370, R371). -/
structure CompareUnit where
  /-- 1 | R371 13_network_time.md | DC1 | the unit is armed. -/
  armed : Bool := false
  /-- 32 | R370 13_network_time.md | DC1 | compare value. -/
  c : BitVec 32 := 0
  /-- 32 | R371, R372 13_network_time.md | DC1 | period of a periodic unit, 0 for one-shot. -/
  period : Nat := 0
  /-- 1 | R371 13_network_time.md | DC1 | late flag. -/
  late : Bool := false
  deriving DecidableEq, Repr

/-- Capture entry of Table 13-5 (R377). -/
structure CapEntry where
  time : Nat
  falling : Bool
  lost : Bool
  input : Nat
  deriving DecidableEq, Repr

/-- Transmit timestamp entry of Table 13-6 (R379). -/
structure TxStamp where
  id : Nat
  port : Nat
  seq : Nat
  time : Nat
  deriving DecidableEq, Repr

/-- A PTP master candidate known from Announce messages (R363). -/
structure PtpMaster where
  gm : Nat               -- grandmaster identity
  rank : List Nat        -- data set compared by IEEE 1588 order
  atA : Option Nat       -- last Announce heard on ETHA
  atB : Option Nat
  announces : List Nat   -- Announce messages on ETHA, ETHB since it was first heard there or timed out
  last : Nat             -- hardware timestamp of the last one
  utc : Int
  deriving DecidableEq, Repr

/-- Edges of PULSE_IN within one frame (R378). -/
structure PulseFrame where
  count : Nat := 0
  first : Nat := 0
  last : Nat := 0
  deriving DecidableEq, Repr

/-- Time unit (chapter 13) and sample placement (chapter 02). -/
structure TimeState where
  /-- 64 | R360 13_network_time.md | DC1 | module time, TAI ns, kept in D0 AON. -/
  now : Nat := 0
  /-- 32 | R367 13_network_time.md | DC1 | applied rate r, ppb. -/
  rate : Rat := 0
  /-- 34 | R360 13_network_time.md | spec (nominally 2 ns) | addend of one 500 MHz cycle, in units of 2^-32 ns. -/
  addend : Nat := 0x200000000
  /-- 32 | R367 13_network_time.md | DC1 | r_target, ppb. -/
  rTarget : Rat := 0
  /-- real | R367 13_network_time.md | spec (0 when D0 lost power) | frequency estimate f, ppb. -/
  freq : Rat := 0
  /-- 32 | R367, R383 13_network_time.md | spec (none before a sample) | last offset o, ns. -/
  lastO : Option Rat := none
  /-- 64 x 3 | R367 13_network_time.md | spec | time of the previous accepted sample of source 0, 1, 2. -/
  prevSample : List (Option Nat) := [none, none, none]
  /-- 8 | R362 13_network_time.md | spec (none) | source in use, code of Table 13-1. -/
  src : Option Nat := none
  /-- 1 | R366, R368 13_network_time.md | spec | time state holdover. -/
  holdover : Bool := true
  /-- 32 | R369 13_network_time.md | spec (unknown) | bound at the last accepted sample, and its time. -/
  bound : Option (Rat × Nat) := none
  /-- 1 | R369 13_network_time.md | spec | module time synchronised. -/
  synced : Bool := false
  /-- 1 | Table 13-1 13_network_time.md | spec | module time set from source 0 or 2 since Start. -/
  setByEpoch : Bool := false
  /-- list | R363 13_network_time.md | spec (none) | masters heard. -/
  masters : List PtpMaster := []
  /-- 16, 64 | R383 13_network_time.md | spec (none) | UTC offset of the master selected, as last announced, and the frame. -/
  utc : Option (Int × Nat) := none
  /-- 64 | R363, R383 13_network_time.md | spec (none) | grandmaster selected. -/
  gm : Option Nat := none
  /-- 64 | Table 13-1 13_network_time.md | spec (none) | time of the last accepted Sync sample. -/
  lastSync : Option Nat := none
  /-- 64 | R430, Table 13-1 15_can_bus.md | spec (none) | time of the last accepted CAN pair. -/
  lastPair : Option Nat := none
  /-- (32,64) x 2 | R364 13_network_time.md | spec (none) | peer delay and completion time of ETHA, ETHB. -/
  peer : List (Option (Rat × Nat)) := [none, none]
  /-- 16 x 2 | R363, R364 13_network_time.md | spec (none) | outstanding Pdelay_Req sequence of each port. -/
  pdelayOut : List (Option Nat) := [none, none]
  /-- 8 x 2 | R383 13_network_time.md | DC1 | IEEE 1588 portState of each port. -/
  portState : List Nat := [1, 1]
  /-- 16 x 3 | R363 13_network_time.md | DC1 | sequence numbers of Sync, Announce and Pdelay_Req sent. -/
  ptpSeq : List Nat := [0, 0, 0]
  /-- 64 | R378 13_network_time.md | spec (none) | latest rising edge of PPS_IN. -/
  ppsEdge : Option Nat := none
  /-- 64 | Table 13-1 13_network_time.md | spec (none) | latest PPS_IN edge within the window. -/
  ppsGood : Option Nat := none
  /-- 64 | R38, R378 02_tick_frame_round.md | spec (none) | latest rising edge of SYNC_IN, t_sync. -/
  syncEdge : Option Nat := none
  /-- 32 | R38 02_tick_frame_round.md | DC1 | frames since the last SYNC_IN edge. -/
  syncAge : Nat := 0
  /-- 1 | R38 02_tick_frame_round.md | spec | sync placement has been lost since the last edge. -/
  syncLost : Bool := false
  /-- 64 x 3 | R378, R267 13_network_time.md | spec | PULSE_IN edges of the running frame. -/
  pulse : PulseFrame := {}
  /-- list of 100 | R267, R378 13_network_time.md | spec | PULSE_IN edges of the last frames, newest first. -/
  pulseHist : List PulseFrame := []
  /-- 24 units | R370, R372 13_network_time.md | DC1 | compare units. -/
  compare : List CompareUnit := List.replicate 24 {}
  /-- 32 | R383 13_network_time.md | spec | late compares since Start. -/
  lateCompares : Nat := 0
  /-- 8 x 8 entries | R377 13_network_time.md | spec (empty) | capture queues, oldest first. -/
  capture : List (List CapEntry) := List.replicate 8 []
  /-- 8 | R377 13_network_time.md | spec | edges dropped since the last stored entry, per input. -/
  capLost : List Bool := List.replicate 8 false
  /-- 32 | R383 13_network_time.md | spec | captures dropped since Start. -/
  capDropped : Nat := 0
  /-- 16 entries | R379, R380 13_network_time.md | spec (empty) | transmit timestamp queue, oldest first. -/
  txStamps : List TxStamp := []
  /-- 32 | R379 13_network_time.md | spec | timestamps taken since Start. -/
  txSeq : Nat := 0
  /-- 32 | R380 13_network_time.md | spec | timestamps dropped since Start. -/
  txDropped : Nat := 0
  /-- pin | R374 13_network_time.md | spec (low) | PPS_OUT level and when it falls. -/
  ppsOut : Option Nat := none
  /-- 8 pins | R375 13_network_time.md | spec (low) | configured outputs: when the high level ends, none while low. -/
  outs : List (Option Nat) := List.replicate 8 none
  /-- 16 | R36 02_tick_frame_round.md | DC1 | sample offset s of the running frame, ns. -/
  sCur : Nat := 0
  /-- work | R40 02_tick_frame_round.md | spec (none) | work of Table 2-4 that the running frame has had: 0 the sample instant, 1 the uplink deadline, 2 the round commit. -/
  hadWork : List Nat := []
  /-- 16 | R36 02_tick_frame_round.md | DC1 | sample offset s of the next frame, ns. -/
  sNext : Nat := 0
  /-- 16 | R36 02_tick_frame_round.md | DC1 | sample offset fixed in the shadow for the frame after the next boundary. -/
  sShadow : Nat := 0
  /-- 16 | R37 02_tick_frame_round.md | spec | widest quiet interval of the running frame, ns; none while sync placement is used. -/
  quiet : Option Nat := none
  /-- 1 | R37 02_tick_frame_round.md | spec | flag Quiet-short of the running frame. -/
  quietShort : Bool := false
  /-- (16, 1) x 2 | R36, R37 02_tick_frame_round.md | spec | quiet interval and Quiet-short of the next frame, and of the one fixed in the shadow. -/
  quietNext : Option Nat × Bool := (none, false)
  quietShadow : Option Nat × Bool := (none, false)
  /-- 64 | R366 13_network_time.md | spec | first frame boundary has been marked. -/
  framesOn : Bool := false
  /-- 64 | R366 13_network_time.md | DC1 | number of the first frame of this Start. -/
  firstFrame : Nat := 0
  /-- 64 | R31 02_tick_frame_round.md | DC1 | frame number of the last boundary marked. -/
  frame : Nat := 0
  deriving DecidableEq, Repr

/-- A beacon command waiting or unacknowledged (R87, R90, R91). -/
structure LinkCmd where
  id : Nat               -- Table 4-11
  target : Nat           -- brick, 63 for all
  params : List Nat      -- parameter values in the order of Table 4-11
  tag : Nat              -- 1 to 255
  tries : Nat            -- beacons that carried it
  lastFrame : Nat        -- frame of the last beacon that carried it
  waiting : List Nat     -- bricks that have not echoed the tag
  order : Nat            -- order of queueing
  deriving DecidableEq, Repr

/-- A relay or retry entry of the beacon (Table 4-9). kind 0 idle, 1 retry, 2 relay. -/
structure RelayEntry where
  subject : Nat := 0
  kind : Nat := 0
  sender : Nat := 0
  deriving DecidableEq, Repr

/-- A bulk map entry (Table 4-9). dir 0 idle, 1 up, 2 down. -/
structure BulkEntry where
  brick : Nat := 0
  dir : Nat := 0
  arg : Nat := 0
  /-- Object that the slot is given to; the beacon does not carry it. -/
  obj : Nat := 0
  deriving DecidableEq, Repr

/-- A join request passed on by the link engine (R94). -/
structure JoinReq where
  uid : Nat
  brick : Nat
  code : Nat
  parityOk : Bool
  hwRev : Nat
  fwVersion : Nat
  frame : Nat
  open_ : Bool           -- joins_open of the frame of the request
  deriving DecidableEq, Repr

/-- A down transfer (R105, R108, R109, R546). -/
structure DownXfer where
  id : Nat
  target : Nat           -- brick, 63 for all
  object : Nat
  total : Nat            -- fragments
  bytes : Nat            -- object length
  acked : List (Nat × Nat) -- brick, next expected fragment
  progress : List (Nat × Nat) -- brick, frame of its last progress
  deriving DecidableEq, Repr

/-- An up transfer of one object of one forager (R106, R109). -/
structure UpXfer where
  object : Nat
  total : Option Nat     -- bytes, once a fragment is in hand
  frags : List (Nat × List (BitVec 8)) -- index, data
  granted : Nat          -- frame of the first grant
  deriving DecidableEq, Repr

/-- One Spami network (chapter 04). -/
structure LinkStr where
  /-- 8 | R110, R112 04_spami_link.md | DC1 | port state: 0 running, 1 resetting, 2 failed. -/
  port : Nat := 0
  /-- 8 x 2 | R68 04_spami_link.md | spec (not configured) | channel and preamble code set in the transceiver. -/
  radio : Option (Nat × Nat) := none
  /-- 1 | R517 19_start_modes_config.md | spec | the string has had its first frame boundary since its radio port was configured. -/
  begun : Bool := false
  /-- 1 | R110 04_spami_link.md | spec | a reset transceiver is ready; beacons resume at the next frame boundary. -/
  ready : Bool := false
  /-- 1 | R110 04_spami_link.md | spec | the beacon of the running frame is confirmed. -/
  beaconOk : Bool := false
  /-- 128 | R81 04_spami_link.md | DC2 (none) | K_net in force. -/
  key : Option Nat := none
  /-- 128,64 | R86 04_spami_link.md | spec (none) | next K_net and its activation frame. -/
  keyNext : Option (Nat × Nat) := none
  /-- list | R87, R90, R91 04_spami_link.md | spec (empty) | commands waiting or unacknowledged. -/
  cmds : List LinkCmd := []
  /-- 32 | R91 04_spami_link.md | spec | order counter of queued commands. -/
  cmdOrder : Nat := 0
  /-- 6 entries | R79, R102 04_spami_link.md | spec (idle) | relay map of the running frame, then of the next. -/
  relay : List RelayEntry := List.replicate 6 {}
  relayNext : List RelayEntry := List.replicate 6 {}
  /-- 6 | R102 04_spami_link.md | spec (none) | retry and relay slots of the running frame that delivered a frame. -/
  relayGot : List Bool := List.replicate 6 false
  /-- 5 entries | R79, R107 04_spami_link.md | spec (idle) | bulk map of the running frame, then of the next. -/
  bulk : List BulkEntry := List.replicate 5 {}
  bulkNext : List BulkEntry := List.replicate 5 {}
  /-- 6 | R107 04_spami_link.md | DC1 | brick served last by an up slot. -/
  bulkLast : Nat := 35
  /-- list | R94, R95 04_spami_link.md | spec (empty) | join requests passed on. -/
  joins : List JoinReq := []
  /-- answer | R95, R96 04_spami_link.md | spec (none) | join answer of the running frame: uid, result, brick. -/
  answer : Option (Nat × Nat × Nat) := none
  /-- 32 | R112 04_spami_link.md | spec | late uplinks since Start. -/
  late : Nat := 0
  /-- 32 x 6 | R84, R112 04_spami_link.md | spec | frames discarded by kind of check since Start. -/
  discarded : List Nat := List.replicate 6 0
  /-- 32 | R112 04_spami_link.md | spec | MIC failures since Start, and in the running round. -/
  mic : Nat := 0
  micRound : Nat := 0
  /-- 32 | R112 04_spami_link.md | spec | join refusals since Start. -/
  joinRefused : Nat := 0
  /-- list | R105 04_spami_link.md | spec (none) | down transfers active. -/
  down : List DownXfer := []
  /-- 8 | R105 04_spami_link.md | spec (16 to 255) | next transfer identifier. -/
  xferNext : Nat := 16
  /-- 8 x 3 | R112 04_spami_link.md | spec | heard in own slot, by retry or relay, not heard, at the last deadline. -/
  heardCounts : Nat × Nat × Nat := (0, 0, 0)
  /-- 36 x 16 | R100, R111 04_spami_link.md | spec (0x3F3F) | route table in force. -/
  routes : List (BitVec 16) := List.replicate 36 0x3F3F
  /-- 1 | R102 04_spami_link.md | spec | no uplink deadline has passed since Start. -/
  first : Bool := true
  deriving DecidableEq, Repr

/-- Bleed account of one cell (R126). -/
structure Bleed where
  on : Bool := false
  timer : Option Nat := some 0   -- frames left; none while not known
  deriving DecidableEq, Repr

/-- Open-wire state of one sense wire (R144 to R149). -/
structure Wire where
  st : Nat := 0            -- 0 to 5, Table 5-10
  run : Nat := 0           -- consecutive frames with the pattern
  clear : Nat := 0         -- consecutive frames without it
  ordered : Bool := false  -- an Engineer command ordered the running test (R148)
  retryAt : Option Nat := none -- frame of the next repetition
  vOn : Nat := 0           -- frame of v_on
  passed : Bool := false   -- an ordered test of a confirmed wire was not confirmed (R148)
  deriving DecidableEq, Repr

/-- An OPEN_WIRE under way for a forager (R145, R149): the wire, and the frame of the end of the test once echoed. -/
structure WireTest where
  wire : Nat
  endFrame : Option Nat
  deriving DecidableEq, Repr

/-- What the module keeps of one forager and brick (chapters 04 and 05). -/
structure Forager where
  /-- 64 | R92 04_spami_link.md | DC2 (empty) | unique ID of the roster entry. -/
  uid : Option Nat := none
  /-- 1 | R517 19_start_modes_config.md | spec | roster entry provisional. -/
  provisional : Bool := false
  /-- 1 | R99 04_spami_link.md | spec | release ordered; cells-replaced flag. -/
  release : Option Bool := none
  /-- 8 | R112 04_spami_link.md | spec | link state, Table 4-18. -/
  linkSt : Nat := 0
  /-- 16 | R102, R112 04_spami_link.md | spec (0 at Start) | consecutive misses. -/
  misses : Nat := 0
  /-- 1 | R102 04_spami_link.md | spec | relay marked failed. -/
  relayFailed : Bool := false
  /-- 16 | R102 04_spami_link.md | spec | consecutive frames heard since the failure. -/
  relayRun : Nat := 0
  /-- 1 | R102 04_spami_link.md | spec | heard in its own slot of the running frame. -/
  own : Bool := false
  /-- uplink | R20, R84 04_spami_link.md | spec (none) | uplink received in the running frame, with the slot that brought it. -/
  up : Option (Uplink × Nat) := none
  /-- uplink | R20 01_architecture.md | spec (none) | reading closed for the Estimator: the uplink of the last closed frame. -/
  closed : Option Uplink := none
  /-- uplink | R20, R60 03_comb.md | spec (none) | last valid reading and its frame. -/
  last : Option (Uplink × Nat) := none
  /-- 8 | R112 04_spami_link.md | spec | uplink level item. -/
  level : Option (Int × Nat) := none
  /-- 8 | R20, R112 04_spami_link.md | spec (none) | level of the uplink heard in its own slot of the running frame. -/
  levelNow : Option Int := none
  /-- list | R105, R106 04_spami_link.md | spec (empty) | up transfers in hand. -/
  ups : List UpXfer := []
  /-- record | R141 05_foragers_and_cells.md | DC2 (none) | diagnostic record kept. -/
  diag : Option Diag := none
  /-- 32, 64 | R112 04_spami_link.md | spec (none) | running firmware version that the join request or the record gave, and the frame; none for one loaded at Start. -/
  fw : Option (Nat × Option Nat) := none
  /-- 64 | R60 03_comb.md | spec (none) | frame in which the record kept arrived; none for one loaded at Start. -/
  diagAt : Option Nat := none
  /-- 1 | R141 05_foragers_and_cells.md | spec | a record is expected after a join or restart. -/
  diagDue : Bool := false
  /-- 64 | R141, SF14 05_foragers_and_cells.md | spec | module time from which SF14 counts safe.cmp.t. -/
  cmpFrom : Nat := 0
  /-- 8 | R153 05_foragers_and_cells.md | spec | burst state. -/
  burst : Nat := 0
  /-- 384 bytes | R138 05_foragers_and_cells.md | spec (none) | burst result received. -/
  burstRes : Option (List (BitVec 8)) := none
  /-- 64 | R203 07_impedance_capacity.md | spec (none) | frame in which the burst result arrived. -/
  burstAt : Option Nat := none
  /-- 64 | R138 05_foragers_and_cells.md | spec (none) | last burst sample of the burst that the forager took, until its result has arrived or timed out. -/
  burstEnd : Option Nat := none
  /-- 16 cells | R126 05_foragers_and_cells.md | DC1 (off) | bleed account. -/
  bleed : List Bleed := List.replicate 16 {}
  /-- 16 cells | R62, R126 05_foragers_and_cells.md | DC1 (off) | bleed account as it stood at the sample instant of the frame last worked on. -/
  bleedWas : List Bleed := List.replicate 16 {}
  /-- 64, 16 cells | R122, R126 05_foragers_and_cells.md | spec (none) | acknowledged bleed state with the frame at whose pause end it has taken effect. -/
  bleedNext : Option (Nat × List Bleed) := none
  /-- 64 x 2 | R126, R136 05_foragers_and_cells.md | spec (none) | all bleed held off by a burst: from and to, module time. -/
  holdOff : Option (Nat × Nat) := none
  /-- test bleed | R126, R146 05_foragers_and_cells.md | spec (none) | mask, frame of the start and duration in ms of the last OPEN_WIRE acknowledged. -/
  owRun : Option (BitVec 16 × Nat × Nat) := none
  /-- 64 | R126, R146 05_foragers_and_cells.md | spec (none) | start of that test, module time: the pause end of its first frame. -/
  owStart : Nat := 0
  /-- 16 | R126 05_foragers_and_cells.md | spec (off) | bleed at s + 350 us of the last frame by the account, test bleed included. -/
  bleedNow : BitVec 16 := 0
  /-- 1 | R126 05_foragers_and_cells.md | spec | bleed state to be sent again at the next decision. -/
  bleedResend : Bool := false
  /-- 17 wires | R144 05_foragers_and_cells.md | spec (0 none) | open-wire states. -/
  wires : List Wire := List.replicate 17 {}
  /-- test | R145, R149 05_foragers_and_cells.md | spec (none) | OPEN_WIRE test under way. -/
  owTest : Option WireTest := none
  /-- 16 runs | R118 05_foragers_and_cells.md | spec | consecutive frames in which each cell failed the coarse check. -/
  coarseRun : List Nat := List.replicate 16 0
  /-- 16 | R119 05_foragers_and_cells.md | spec | consecutive frames of a brick total mismatch. -/
  sumRun : Nat := 0
  /-- 3 | R119, R140 05_foragers_and_cells.md | spec | quality decided for the brick total and sum difference. -/
  totalQ : Quality := .invalid
  /-- 16 | R153 05_foragers_and_cells.md | spec (Invalid) | brick sum difference D, 100 uV. -/
  sumD : Option Int := none
  /-- 5 sensors | R299, R300 10_thermal.md | spec | broken latches of thermistor inputs 0 to 3 and the die sensor. -/
  broken : List Bool := List.replicate 5 false
  /-- 5 sensors | R299 10_thermal.md | spec (none) | last reading of each sensor and the frame since which it has been the same. -/
  stuck : List (Option (Int × Nat)) := List.replicate 5 none
  /-- 5 x (16, 64) | R296 10_thermal.md | spec (none) | last valid reading of each sensor, 0.1 degC, with its frame. -/
  lastTherm : List (Option (Int × Nat)) := List.replicate 5 none
  /-- 4 groups | R296, R297 10_thermal.md | spec (Invalid) | fused temperature of each group. -/
  groups : List Item := List.replicate 4 {}
  /-- 8 | R557 20_update.md | spec | forager staging: 0 none, 1 sending, 2 staged, 3 failed. -/
  staging : Nat := 0
  /-- 8 | R546 20_update.md | spec | failed transfers to this forager. -/
  stageTries : Nat := 0
  /-- 32 | R554 20_update.md | spec | image version before the activation. -/
  fwFormer : Nat := 0
  /-- 1 | R549 20_update.md | spec | the forager has echoed the tag of the last IMAGE_ACTIVATE. -/
  imgEcho : Bool := false
  deriving DecidableEq, Repr

/-- Learned values and charge state of one cell (chapters 06 and 07). Charges in uC, resistances in nOhm. -/
structure Cell where
  /-- 64 | R162 06_charge_estimation.md | DC1 | charge q. -/
  q : Int := 0
  /-- 64 | R162 06_charge_estimation.md | spec (0) | cumulative bleed offset b. -/
  b : Int := 0
  /-- 64 | R162 06_charge_estimation.md | DC1 | string charge at the last update, q_last. -/
  qLast : Int := 0
  /-- 64 | R220, R224 07_impedance_capacity.md | spec (est.cap.nominal, 314 Ah) | capacity C_c. -/
  cap : Int := 1130400000000
  /-- real | R163 06_charge_estimation.md | spec (est.sigma_max + 0.01 % when lost) | uncertainty, % of SOC. -/
  sigma : Rat := 501/100
  /-- 1 | R167 06_charge_estimation.md | spec | SOC Invalid (Recovery). -/
  socInvalid : Bool := false
  /-- frames | R157, R192 06_charge_estimation.md | spec | consecutive updates missed. -/
  missed : Nat := 0
  /-- ns, ns, % | R157 06_charge_estimation.md | spec | interval time, bleed time and uncertainty terms of the updates missed. -/
  owed : Nat × Nat × Rat := (0, 0, 0)
  /-- 16 | R162 06_charge_estimation.md | spec (none: 0) | last valid primary voltage, 100 uV. -/
  vLast : Nat := 0
  /-- 64 | Table 6-6 06_charge_estimation.md | spec (0) | shortfall recorded at an endpoint anchor. -/
  shortfall : Int := 0
  /-- 64 | R185, R186 06_charge_estimation.md | spec | count overrun recorded at an anchor. -/
  overrun : Int := 0
  /-- 1,1 | Table 6-6 06_charge_estimation.md | spec | below empty, above full. -/
  under : Bool := false
  above : Bool := false
  /-- item | R117, R118, R140, R144, R148 05_foragers_and_cells.md | spec (Invalid) | cell voltage, 100 uV. -/
  v : Item := {}
  /-- item | R179 06_charge_estimation.md | spec (Invalid) | compensated voltage, mV. -/
  vc : Option (Rat × Quality) := none
  /-- item | R169, R170 06_charge_estimation.md | spec (Invalid) | predicted rest OCV in mV, and OCV slope. -/
  ocv : Option (Rat × Rat × Nat) := none
  /-- 8 | R192 06_charge_estimation.md | spec (0 none since Start) | last anchor kind. -/
  anchor : Nat := 0
  /-- 64 | R192 06_charge_estimation.md | spec | frame of the last anchor. -/
  anchorAt : Nat := 0
  /-- fit | R169 06_charge_estimation.md | spec (empty) | samples of the fit of the running rest: rest time in frames, voltage in mV. -/
  fit : List (Nat × Rat) := []
  /-- 16 | R169 06_charge_estimation.md | spec (none) | temperature of the first frame in the fit, 0.1 degC. -/
  fitT : Option Int := none
  /-- 1 | R169, R172 06_charge_estimation.md | spec | a fit of this rest has been accepted. -/
  fitDone : Bool := false
  /-- 16 | R169 06_charge_estimation.md | spec (0) | times the fit of this rest has been solved. -/
  fitTries : Nat := 0
  /-- 1 | R174 06_charge_estimation.md | spec | est.rest.t_full has passed in this rest. -/
  fullTried : Bool := false
  /-- 32 | R210 07_impedance_capacity.md | spec (imp.r.default) | R_ref. -/
  rRef : Rat := 300000
  /-- 32 | R210 07_impedance_capacity.md | spec (0) | r_first. -/
  rFirst : Rat := 0
  /-- 32 | R211 07_impedance_capacity.md | spec (0) | R_hi_ref. -/
  rHi : Rat := 0
  /-- 16 | R211, R220 07_impedance_capacity.md | spec (0) | t_hi_ref, degC; stored in 0.1 degC. -/
  tHi : Rat := 0
  /-- 32 | R213, R220 07_impedance_capacity.md | spec (0) | operating seconds at the last R_ref update. -/
  rTime : Nat := 0
  /-- 16 | R213 07_impedance_capacity.md | spec (0) | resistance trend, 0.01 % per 1,000 h. -/
  trend : Rat := 0
  /-- 8 | R220 07_impedance_capacity.md | spec (0) | capacity updates. -/
  capN : Nat := 0
  /-- 8 | R220 07_impedance_capacity.md | spec (0) | resistance updates. -/
  impN : Nat := 0
  /-- 1 | R220 07_impedance_capacity.md | spec (0) | r_valid, t_valid, cap_valid. -/
  rValid : Bool := false
  tValid : Bool := false
  capValid : Bool := false
  /-- 3 x 2 x 16 | R202, R228 07_impedance_capacity.md | spec (Invalid) | impedance of tones 0, 1, 2 in Ohm (re, im), and its sample frame. -/
  z : Option (List (Rat × Rat) × Nat) := none
  /-- 16 | R212 07_impedance_capacity.md | spec (Invalid) | internal temperature in degC and the frame of the survey that gave it. -/
  tInt : Option (Rat × Nat) := none
  /-- 64 | R217 07_impedance_capacity.md | spec (0) | charge counted out since the full anchor. -/
  qRem : Int := 0
  /-- real | R217 07_impedance_capacity.md | spec (none) | SOC read at the full anchor. -/
  sTop : Option Rat := none
  /-- 16 x 2 | R217 07_impedance_capacity.md | spec (none) | lowest and highest temperature since the full anchor, 0.1 degC; none once one was not Good. -/
  tSpan : Option (Int × Int) := none
  /-- 64 | R63, R228 07_impedance_capacity.md | spec (none) | frame of the survey that last updated R_ref, and the capacity. -/
  rAt : Option Nat := none
  capAt : Option Nat := none
  /-- 64 | R226 07_impedance_capacity.md | spec (none) | cells replaced: q waits for the first Good voltage from this frame on. -/
  fresh : Option Nat := none
  deriving DecidableEq, Repr

/-- Cause or state of a string's regime (R164). -/
inductive Regime where
  | tracking | countStart | countSurvey | countRecovery
  deriving DecidableEq, Repr

/-- Estimator state of one string (chapter 06). -/
structure EstStr where
  /-- 2 | R164 06_charge_estimation.md | DC1 (Recovery: no record) | regime. -/
  regime : Regime := .countRecovery
  /-- 64 x 2 | R158 06_charge_estimation.md | spec (0 at Start) | net counts n_A, n_B since Start. -/
  nA : Int := 0
  nB : Int := 0
  /-- 64 | R158 06_charge_estimation.md | spec (0 at Start) | clock count k since Start. -/
  k : Nat := 0
  /-- 64 x 2 | R159 06_charge_estimation.md | spec | Q_A, Q_B latched at the last instant, uC. -/
  qA : Int := 0
  qB : Int := 0
  /-- latch | R158 06_charge_estimation.md | spec (none) | latched inputs of the frame to be updated: Q_A, Q_B, interval ns. -/
  latch : Option (Int × Int × Nat) := none
  /-- latch | R155 06_charge_estimation.md | spec (none) | the same for the running frame. -/
  latchNext : Option (Int × Int × Nat) := none
  /-- 1 x 2 | R159 06_charge_estimation.md | spec | channel A, B valid in every tick so far of the interval. -/
  okA : Bool := true
  okB : Bool := true
  /-- 1 x 2 | R161 06_charge_estimation.md | spec | GATE_EN low, and a contactor open, throughout the interval so far. -/
  gateLow : Bool := true
  ctrOpen : Bool := true
  /-- latch | R159, R161 06_charge_estimation.md | spec | okA, okB, gateLow, ctrOpen of the interval to be updated. -/
  flags : Bool × Bool × Bool × Bool := (false, false, false, false)
  flagsNext : Bool × Bool × Bool × Bool := (false, false, false, false)
  /-- item | R39 02_tick_frame_round.md | spec (Invalid) | string-side and converter-side voltage at the instant, V, of the frame to be updated and of the running frame. -/
  vInst : Option Rat × Option Rat := (none, none)
  vInstNext : Option Rat × Option Rat := (none, none)
  /-- 1 x 2 | R155 06_charge_estimation.md | spec (none) | a capacity survey of the string runs at the sample instant of the frame to be updated, and of the running frame. -/
  survAt : Bool := false
  survNext : Bool := false
  /-- item | R39 02_tick_frame_round.md | spec (Invalid) | current A and B at the instant, A, of the frame to be updated and of the running frame. -/
  iInst : Option Rat × Option Rat := (none, none)
  iInstNext : Option Rat × Option Rat := (none, none)
  /-- 64 | R161, R162 06_charge_estimation.md | spec | string charge count Q applied so far, uC. -/
  qs : Int := 0
  /-- 64 | R161 06_charge_estimation.md | spec | string charge of the last frame, uC. -/
  dq : Int := 0
  /-- 64 | R155 06_charge_estimation.md | spec | interval of the last frame, ns. -/
  tInt : Nat := 10000000
  /-- 8 | R160, R161, R192 06_charge_estimation.md | spec | counting channel item. -/
  chan : Nat := 0
  /-- 1 | R160 06_charge_estimation.md | spec | channel in use, for the change event. -/
  inUse : Nat := 0
  /-- 32 | R161 06_charge_estimation.md | spec | consecutive gap frames. -/
  gapRun : Nat := 0
  /-- 32 | R192 06_charge_estimation.md | spec | count gaps since Start. -/
  gaps : Nat := 0
  /-- 8 | R160 06_charge_estimation.md | spec | consecutive frames in which the channels disagree. -/
  disRun : Nat := 0
  /-- items | R192 06_charge_estimation.md | spec (Invalid) | current at instant, mean current A, mean current B, 10 mA. -/
  iItem : Item := {}
  aItem : Item := {}
  bItem : Item := {}
  /-- real | R159 06_charge_estimation.md | spec | frame mean current, A, and whether the count is valid. -/
  mean : Rat := 0
  countOk : Bool := false
  /-- 32 | R168 06_charge_estimation.md | spec (0) | rest time, frames. -/
  rest : Nat := 0
  /-- 32 | R175 06_charge_estimation.md | spec (none) | rest time preset at Start from the time off. -/
  restPreset : Option Nat := none
  /-- 16 x 4 | Table 6-8 06_charge_estimation.md | spec | est.rest.t, est.rest.t_full, est.relax.skip and est.relax.retry of the running rest, s. -/
  restPar : Nat × Nat × Nat × Nat := (300, 3600, 10, 60)
  /-- 1 | R175 06_charge_estimation.md | spec | the running rest is one whose time R175 set. -/
  restSettled : Bool := false
  /-- 1 | R170 06_charge_estimation.md | spec | event 0x3004 raised in this rest. -/
  rejected : Bool := false
  /-- 2 | R171 06_charge_estimation.md | spec (0 unknown) | branch. -/
  branch : Nat := 0
  /-- 64 | R171 06_charge_estimation.md | spec | signed charge since the last reversal. -/
  rev : Int := 0
  /-- 1,8 | R180, R182 06_charge_estimation.md | spec | End of discharge, its run and its clearing run. -/
  eod : Bool := false
  eodRun : Nat := 0
  eodClr : Nat := 0
  /-- 1,8 | R181, R182 06_charge_estimation.md | spec | End of charge, its run and its clearing run. -/
  eoc : Bool := false
  eocRun : Nat := 0
  eocClr : Nat := 0
  /-- 1 | R164, R167 06_charge_estimation.md | spec | full and empty anchors since entry to Recovery. -/
  seenFull : Bool := false
  seenEmpty : Bool := false
  /-- 1 | R187 06_charge_estimation.md | spec | Unanchored. -/
  unanch : Bool := false
  /-- 2 | R188 06_charge_estimation.md | spec (0 none) | anchor request, and the frame in which it became non-zero. -/
  req : Nat := 0
  reqAt : Nat := 0
  /-- 64 | R214 07_impedance_capacity.md | spec (none) | time of the last full anchor with no broken count since. -/
  fullAt : Option Nat := none
  /-- extremes | R192 06_charge_estimation.md | spec (Invalid) | lowest and highest Good or Held Vc with positions. -/
  vcMin : Option (Rat × Nat) := none
  vcMax : Option (Rat × Nat) := none
  /-- 64 x 2, real x 2 | R190 06_charge_estimation.md | spec (Invalid) | Q_d, Q_h in uC, E_d, E_h in Wh. -/
  results : Option (Int × Int × Rat × Rat) := none
  /-- 1 | R60, R157 06_charge_estimation.md | spec | the update of the last frame was missed. -/
  missed : Bool := false
  /-- frame | R156 06_charge_estimation.md | spec (none) | frame of the last completed update. -/
  frame : Option Nat := none
  deriving DecidableEq, Repr

/-- Owner of an action on the plant (Table 1-6). -/
inductive Owner where
  | command | reaction | safety | table
  deriving DecidableEq, Repr

/-- Impedance survey of the module (R195 to R206); one runs at a time. -/
structure ImpSurvey where
  string : Nat
  st : Nat                 -- 1 armed, 2 settling, 3 sampling, 4 collecting, 5 computing
  frameA : Option Nat      -- frame of the beacon that carried BURST_ARM
  t0 : Nat
  tEnd : Nat
  tag : Option Nat
  took : List Nat          -- bricks that echoed the tag
  comp : List Nat          -- compensation set
  volts : List Rat         -- string-side voltages, V
  amp : Nat
  ramp : Nat
  settle : Nat
  rate : Nat
  count : Nat
  tones : List Nat
  calRest : Bool           -- rest time at the start at or above imp.temp.cal_rest
  samplesA : List Nat      -- float32 bits, oldest first
  samplesB : List Nat
  curOk : Bool             -- both channels valid in every tick since t0
  uncomp : Bool            -- imp.uncomp and imp.temp.cal_spread at the request (R227)
  spread : Int
  useB : Option Bool       -- channel B was in use under R160 at t_end
  bins : Option (List (Rat × Rat))  -- X_i of the channel in use
  ends : List (Rat × Rat)  -- temperature (0.1 degC) and SOC of every cell in the frame of t_end
  ther : List (Option Rat) -- per brick in the frame of t_end: mean of its Good thermistors in degC where R211 holds
  badCells : List Nat      -- cells of the string not Good or Held, or with an open-wire state, in some frame
  modes : Nat := 0x18      -- imp.modes at the request (R227)
  why : Owner := .command  -- owner of the request (R25)
  deriving DecidableEq, Repr

/-- Parameters of a capacity survey that take effect at its request (Table 7-9). -/
structure CapPar where
  chargeRate : Nat         -- 0.001 C
  rate : Nat
  chargeTmax : Nat         -- min
  disTmax : Nat
  tMin : Int               -- 0.1 degC
  tMax : Int
  spanMin : Nat            -- 0.01 %
  modes : Nat := 0x18      -- est.cap.modes
  deriving DecidableEq, Repr

/-- Capacity survey of one string (R214 to R217). -/
structure CapSurvey where
  string : Nat
  phase : Nat              -- 1 charge, 2 hold, 3 discharge, 4 return
  startT : Nat
  fullAt : Option Nat
  disAt : Option Nat
  ref : Rat                -- charge reference, A
  flowing : Bool           -- the mean current has reached -0.05 C since the discharge began or went on (Tables 7-4, 7-5)
  par : CapPar             -- parameters at the request (R227)
  why : Owner := .command  -- owner of the request (R25)
  deriving DecidableEq, Repr

/-- One cell of the impedance table (R204, R210 to R213): cell instance, Z of the three tones in Ohm, internal temperature in degC, resistances in nOhm, temperature reference in degC, operating seconds, trend in 0.01 % per 1,000 h, update count and flags. -/
structure ImpRow where
  cell : Nat
  z : List (Rat × Rat)
  tInt : Option Rat
  rRef : Rat
  rFirst : Rat
  rHi : Rat
  tHi : Rat
  rTime : Nat
  trend : Rat
  impN : Nat
  rValid : Bool
  tValid : Bool
  rejected : Bool
  deriving DecidableEq, Repr

/-- The impedance table built by the Hive for the Estimator (R204). -/
structure ImpTable where
  string : Nat
  frame : Nat
  rows : List ImpRow
  deriving DecidableEq, Repr

/-- Surveys (chapter 07). -/
structure SurvState where
  /-- survey | R205 07_impedance_capacity.md | spec (none) | impedance survey that runs. -/
  imp : Option ImpSurvey := none
  /-- fade | R206 07_impedance_capacity.md | spec (none) | envelope falling after an abort: string, start tick time, level, set, amp, tones, t0, ramp. -/
  fade : Option (ImpSurvey × Nat × Rat) := none
  /-- survey | R216 07_impedance_capacity.md | spec (none) | capacity survey that runs. -/
  cap : Option CapSurvey := none
  /-- 64 x 4 | R219, R228 07_impedance_capacity.md | spec (none) | frame of t_end of the last impedance survey, and its time. -/
  impLast : List (Option (Nat × Nat)) := [none, none, none, none]
  /-- 16 x 4 | R228 07_impedance_capacity.md | spec | cells measured. -/
  impCells : List Nat := [0, 0, 0, 0]
  /-- 64 x 4 | R219, R228 07_impedance_capacity.md | spec (none) | frame of the empty anchor of the last capacity survey, and its time. -/
  capLast : List (Option (Nat × Nat)) := [none, none, none, none]
  /-- 16 x 4 | R228 07_impedance_capacity.md | spec | cells updated. -/
  capCells : List Nat := [0, 0, 0, 0]
  /-- 8 x 4 | R223 07_impedance_capacity.md | spec (none) | deferred write trigger: cause. -/
  deferred : List (Option Nat) := [none, none, none, none]
  /-- 8 x 4 | R222, R226 07_impedance_capacity.md | spec (none) | learned-value write due with the next completed update: cause. -/
  writeDue : List (Option Nat) := [none, none, none, none]
  /-- 2 | R204, R229 07_impedance_capacity.md | spec (none) | string whose impedance table has swapped in and whose results the next Comb frame publishes. -/
  done : Option Nat := none
  /-- table | R204 07_impedance_capacity.md | spec (none) | impedance table shadow with swap request: string, sample frame, cells. -/
  table : Option ImpTable := none
  deriving DecidableEq, Repr

/-- State record of a lane (R235, R256): all binary32 bit patterns. -/
structure LaneRec where
  /-- 8 x 32 | R235 08_regulator.md | spec (0 at the start of a loop) | predicted state. -/
  xp : List Nat := List.replicate 8 0
  /-- 2 x 32 | R235 08_regulator.md | spec | integrator vector z. -/
  z : List Nat := [0, 0]
  /-- 32 | R235 08_regulator.md | spec | slewed reference r_s. -/
  rs : Nat := 0
  /-- 2 x 32 | R235 08_regulator.md | spec | applied output u_a of the tick before. -/
  ua : List Nat := [0, 0]
  deriving DecidableEq, Repr

/-- Gain-set record of Table 8-3 (R239); matrices of binary32 bit patterns, full size, row-major. -/
structure GainSet where
  format : Nat := 1
  nX : Nat := 0
  nY : Nat := 0
  mode1 : Bool := true
  sel : List Nat := [0, 0, 0, 0]
  track : Nat := 0
  setId : Nat := 0
  a : List (List Nat) := []
  b : List (List Nat) := []
  l : List (List Nat) := []
  c : List (List Nat) := []
  k : List (List Nat) := []
  ki : List Nat := []
  kr : List Nat := []
  crcOk : Bool := true
  deriving DecidableEq, Repr

/-- Loop state of a string (R248). -/
inductive LoopSt where
  | off | auto | manual | stopLane | stopMeas
  deriving DecidableEq, Repr

/-- What a loop shows of the tick that holds a sample instant (R62, R263): loop state, serving lane, region entry, gain set, reference, measurements, duties and integrators in binary32, saturation bits, GATE_EN, residual and counts. -/
structure LoopView where
  st : LoopSt := .off
  lane : Option Nat := none
  region : Nat := 0
  gset : Nat := 0
  ref : Rat := 0
  i : Option Rat := none
  vs : Option Rat := none
  vc : Option Rat := none
  vb : Option Rat := none
  duty : List Nat := [0, 0]
  z : List Nat := [0, 0]
  sat : BitVec 4 := 0
  gateReq : Bool := false
  gateIn : Bool := false
  resid : Option Rat := none
  changes : Nat := 0
  lacking : Nat := 0
  deriving DecidableEq, Repr

/-- One lane (R255 to R261). role 0 active, 1 spare shadowing, 2 spare testing, 3 failed, 4 under test. -/
structure Lane where
  st : Nat := 0
  string : Option Nat := none
  lrec : LaneRec := {}
  checkFails : Nat := 0
  shadowDiffs : Nat := 0
  overruns : Nat := 0
  passes : Nat := 0
  deriving DecidableEq, Repr

/-- One current loop with its PWM unit (chapter 08). -/
structure Loop where
  /-- 3 | R248 08_regulator.md | spec (Off) | loop state. -/
  st : LoopSt := .off
  /-- 3 | R255 08_regulator.md | spec (lane n) | serving lane. -/
  lane : Option Nat := none
  /-- record | R235 08_regulator.md | spec (0) | state carried from tick to tick. -/
  lrec : LaneRec := {}
  /-- 6 | R243 08_regulator.md | DC1 | region entry and gain set in force. -/
  region : Nat := 0
  gset : Nat := 0
  /-- entry | R243 08_regulator.md | spec (none) | entry decided for the next tick. -/
  regionNext : Option Nat := none
  /-- 1 | R235, R244, R245 08_regulator.md | spec | the gain set changed at this tick boundary. -/
  setChanged : Bool := false
  /-- record | R244, R245 08_regulator.md | spec (none) | gain set in force before a committed change of the string's sets. -/
  oldSet : Option GainSet := none
  /-- 1 | R260 08_regulator.md | spec | the lane was found faulty with no spare: the string goes Off in the next tick. -/
  laneStop : Bool := false
  /-- 1 | R261 08_regulator.md | spec | after a lane came back the loop waits until the string has been marked not enabled. -/
  waitConn : Bool := false
  /-- ticks | R243 08_regulator.md | spec | ticks since the last region change. -/
  dwell : Nat := 0
  /-- 17 x 2 | R235, R252 08_regulator.md | DC1 | PWM shadow compare values. -/
  shadow : List Nat := [0, 0]
  /-- 17 x 2 | R34, R252 02_tick_frame_round.md | DC1 | compare values written in the previous tick, which the next turning point loads. -/
  ready : List Nat := [0, 0]
  /-- 17 x 2 | R252 08_regulator.md | DC1 | compare values loaded at the last turning point. -/
  cmp : List Nat := [0, 0]
  /-- pins | R252, R254 08_regulator.md | spec (low) | the four PWM outputs are held low. -/
  pwmLow : Bool := true
  /-- ticks | R234 08_regulator.md | spec | consecutive ticks lacking measurement. -/
  lackRun : Nat := 0
  /-- ticks | R234 08_regulator.md | spec | consecutive ticks with every needed quantity valid. -/
  validRun : Nat := 0
  /-- ticks x 2 | R247 08_regulator.md | spec | consecutive ticks with the output of each input clamped. -/
  satRun : List Nat := [0, 0]
  /-- 4 | R263 08_regulator.md | spec | saturation bits. -/
  sat : BitVec 4 := 0
  /-- 32, 32 x 2 | R249, R263 08_regulator.md | spec (0) | manual target duty, and the duties last formed, binary32. -/
  manual : Nat := 0
  duty : List Nat := [0, 0]
  /-- commands | R248 08_regulator.md | spec (none) | Manual duty or Automatic accepted, not yet taken by the lane. -/
  toManual : Option Nat := none
  toAuto : Bool := false
  /-- 1 | R248 08_regulator.md | spec | request for GATE_EN. -/
  gateReq : Bool := false
  /-- 32 | R263 08_regulator.md | spec | region changes since Start. -/
  changes : Nat := 0
  /-- 32 | R263 08_regulator.md | spec | ticks lacking measurement since Start. -/
  lacking : Nat := 0
  /-- measures | R233 08_regulator.md | spec (none) | loop current, V_s, V_c, V_b of the last tick, A and V. -/
  i : Option Rat := none
  vs : Option Rat := none
  vc : Option Rat := none
  vb : Option Rat := none
  /-- latches | R20, R62, R263 08_regulator.md | spec (none) | what the tick that holds the sample instant shows, for the frame to publish; then for the running frame. -/
  pub : LoopView := {}
  pubNext : LoopView := {}
  /-- tick | R263 08_regulator.md | spec (none) | the tick of the lane's last work, and whether its tick holds a sample instant whose latch waits for that work. -/
  workAt : Option Nat := none
  latchDue : Bool := false
  /-- V | R198 07_impedance_capacity.md | spec (none) | string-side voltage of the last Comb frame published. -/
  vsPub : Option Rat := none
  /-- 16 | R242 08_regulator.md | spec (+125.0 degC) | string temperature of the frame-class tables in force, 0.1 degC. -/
  temp : Int := 1250
  /-- sums | R263 08_regulator.md | spec | squared residual sum and ticks of the interval. -/
  resid : Rat × Nat := (0, 0)
  /-- 1 x 2 | R264 08_regulator.md | spec | bus voltage outside, and inside, its range in every tick of the frame so far. -/
  busOut : Bool := false
  busIn : Bool := false
  /-- 1 | R287 09_dispatch_sharing.md | spec | loop current at or below disp.disc.i in every tick of the frame so far. -/
  lowAll : Bool := false
  deriving DecidableEq, Repr

/-- Tick-class tables of the Regulator (Table 1-5, R266, R274). Amperes. -/
structure RegTables where
  refs : List Rat := [0, 0, 0, 0]
  chg : List Rat := [0, 0, 0, 0]
  dis : List Rat := [0, 0, 0, 0]
  enabled : List Bool := [false, false, false, false]
  whole : List (Rat × Rat) := [(0, 0), (0, 0), (0, 0), (0, 0)] -- charge and discharge limit before an impedance survey's part is taken off (R274)
  deriving DecidableEq, Repr

/-- The Regulator (chapter 08). -/
structure RegState where
  /-- 4 loops | R235 08_regulator.md | spec (Off) | loops. -/
  loops : List Loop := [{ lane := some 0 }, { lane := some 1 }, { lane := some 2 }, { lane := some 3 }]
  /-- 5 lanes | R255 08_regulator.md | spec | lanes. -/
  lanes : List Lane := [{ string := some 0 }, { string := some 1 }, { string := some 2 }, { string := some 3 }, { st := 2 }]
  /-- table | R21 01_architecture.md | DC1 (zero, not enabled) | active limits and references. -/
  act : RegTables := {}
  /-- table | R21, R22 01_architecture.md | spec (none) | shadow built for the next frame boundary. -/
  shadow : Option RegTables := none
  /-- table | R23 01_architecture.md | spec (none) | tables built while that shadow still waits for its swap. -/
  shadowAfter : Option RegTables := none
  /-- 1 | R22, R45 01_architecture.md | spec | the shadow missed its frame boundary and swaps at the next tick boundary. -/
  swapLate : Bool := false
  /-- 1 x 4 | R244 08_regulator.md | spec | committed sets or regions of string n swap in at the next tick boundary. -/
  newSets : List Bool := [false, false, false, false]
  /-- takeover | R258 08_regulator.md | spec (none) | faulty lane to be replaced at the next tick: string. -/
  takeover : Option Nat := none
  /-- 1 | R257 08_regulator.md | spec | the shadow window of this string has ended early. -/
  windowEnded : Bool := false
  /-- 20 values | R39 02_tick_frame_round.md | spec (none) | extra decimated values of SD_D0 to SD_D19 taken at the last sample instant, A, V or the unit of the channel. -/
  extra : List (Option Rat) := List.replicate 20 none
  /-- 20 x | R267 09_dispatch_sharing.md | spec (0) | SD_D18: sum of density over the frame, values, validity; then the mean of the last whole frame. -/
  ana : Rat × Nat × Bool := (0, 0, true)
  anaMean : Option Rat := none
  deriving DecidableEq, Repr

/-- What R25 lets change only for an owner: current and contactors of a string, the set-point source, the mode, the bleed command of a brick. -/
inductive Plant where
  | current (n : Nat)
  | contactor (n : Nat)
  | source
  | mode
  | bleed (j : Nat)
  deriving DecidableEq, Repr

/-- Parameters of a connection or disconnection, latched where its sequence begins (Table 9-7): disp.ctr.t_fb, disp.pre.dv, disp.pre.tmax, disp.pre.overlap, disp.disc.i, disp.disc.tmax. -/
structure SeqPar where
  tFb : Nat := 100
  preDv : Nat := 20
  preTmax : Nat := 3000
  preOverlap : Nat := 20
  discI : Nat := 20
  discTmax : Nat := 100
  deriving DecidableEq, Repr

/-- Dispatch of one string (chapter 09). -/
structure DispStr where
  /-- 3 | R283, R290 09_dispatch_sharing.md | spec (open) | connection state of Table 9-8. -/
  conn : Nat := 0
  /-- 2 | R25 01_architecture.md | spec | owner of the running connection or disconnection. -/
  why : Owner := .command
  /-- parameters | R289 09_dispatch_sharing.md | spec (their defaults) | parameters of the running sequence; and disp.rest.t of the open rest window, s. -/
  seq : SeqPar := {}
  restT : Nat := 600
  /-- 64 | R283 09_dispatch_sharing.md | spec | time of the last request of the sequence. -/
  reqAt : Nat := 0
  /-- 64 | R283 09_dispatch_sharing.md | spec (none) | time at which the step's feedback was first seen. -/
  seenAt : Option Nat := none
  /-- 1 x 3 | R283 09_dispatch_sharing.md | spec (open) | Hive requests for CTR POS, NEG, PRE. -/
  reqPos : Bool := false
  reqNeg : Bool := false
  reqPre : Bool := false
  /-- 4 | R284, R287, R612 09_dispatch_sharing.md | spec (none) | opening sequence: 0 none; 1, 2, 3 PRE, POS, NEG to be requested open after a failed or cancelled connection, 9 waiting for its end; 4 current to zero, 5 loop going Off, 6 POS, 7 NEG of a disconnection; 8 permit loss. -/
  opening : Nat := 0
  /-- 1 | R284 09_dispatch_sharing.md | spec | the opening sequence ends in failed. -/
  failing : Bool := false
  /-- 64 | R287 09_dispatch_sharing.md | spec | start of the disconnection. -/
  discAt : Nat := 0
  /-- 1 | R282, R286 09_dispatch_sharing.md | spec | connection or disconnection accepted, begins at the next frame boundary. -/
  wantConn : Bool := false
  wantDisc : Bool := false
  /-- 3 | R273 09_dispatch_sharing.md | spec (excluded) | role of Table 9-8. -/
  role : Nat := 0
  /-- W | R276 09_dispatch_sharing.md | spec (0) | share. -/
  share : Rat := 0
  /-- A | R276 09_dispatch_sharing.md | spec (0) | current reference. -/
  ref : Rat := 0
  /-- A x 2 | R274 09_dispatch_sharing.md | spec (0) | charge and discharge limit. -/
  chg : Rat := 0
  dis : Rat := 0
  /-- Wh | R275 09_dispatch_sharing.md | spec (Invalid) | weight. -/
  weight : Option Rat := none
  /-- real | R275 09_dispatch_sharing.md | spec | health factor. -/
  health : Rat := 1
  /-- 64 | R277, R278 09_dispatch_sharing.md | spec (none) | start of the rest window; end of the last one. -/
  restAt : Option Nat := none
  restEnd : Option Nat := none
  /-- 8 | R278 09_dispatch_sharing.md | spec | consecutive frames in which the headroom failed. -/
  restFail : Nat := 0
  /-- 1 | R549, R552 20_update.md | spec | noted for reconnection. -/
  noted : Bool := false
  deriving DecidableEq, Repr

/-- What one build of dispatch gives, as the items of Table 9-8 show it. -/
structure DispOut where
  strs : List DispStr := [{}, {}, {}, {}]
  pref : Rat := 0
  shortfall : Rat := 0
  deriving DecidableEq, Repr

/-- Dispatch (chapter 09). -/
structure DispState where
  strs : List DispStr := [{}, {}, {}, {}]
  /-- result | R62, R290 09_dispatch_sharing.md | spec (0) | the build whose tables are in force. -/
  act : DispOut := {}
  /-- 2 | R269 09_dispatch_sharing.md | spec (primary after Start) | the backup is the source in use. -/
  onBackup : Bool := false
  /-- switch | R269 09_dispatch_sharing.md | spec (none) | source selected by command, from the next frame. -/
  select : Option Bool := none
  /-- 32, 64 | R266, R267 09_dispatch_sharing.md | spec (none) | latest valid host message and its hardware timestamp, not yet latched. -/
  hostHeld : List (Int × Nat) := []
  busHeld : List (Int × Nat) := []
  /-- 32, 64 | R267 09_dispatch_sharing.md | spec (none) | latched set-point and latch time of host and block bus. -/
  host : Option (Int × Nat) := none
  bus : Option (Int × Nat) := none
  /-- W | R267 09_dispatch_sharing.md | spec (none) | analogue and pulse set-points of the frame. -/
  ana : Option Rat := none
  pulse : Option Rat := none
  pulseF : Option Rat := none
  /-- W | R270 09_dispatch_sharing.md | spec (0 after Start) | group reference P_ref. -/
  pref : Rat := 0
  /-- W | R271 09_dispatch_sharing.md | spec | set-point of the source in use, last valid. -/
  psrc : Rat := 0
  /-- 64 | R60, R290 09_dispatch_sharing.md | spec | frame in which that set-point was last valid. -/
  psrcAt : Nat := 0
  /-- 2 | R271 09_dispatch_sharing.md | spec (0 none) | loss reaction: 0 none, 1 hold, 2 ramp to zero. -/
  loss : Nat := 0
  lossAt : Nat := 0
  /-- 64 | R271 09_dispatch_sharing.md | spec (none) | since when the primary has been valid while the backup is in use. -/
  primOkAt : Option Nat := none
  /-- 1 | R271 09_dispatch_sharing.md | spec | the source in use was valid in the last frame it was judged. -/
  srcOk : Bool := false
  /-- 4 | R267 09_dispatch_sharing.md | spec (0) | sources valid. -/
  valid : BitVec 4 := 0
  /-- A | R272 09_dispatch_sharing.md | spec (none) | allowances held from host and bus with timestamps; latched allowance and time of host and bus. -/
  allowHost : List ((Nat × Nat) × Nat) := []
  allowBus : List ((Nat × Nat) × Nat) := []
  allow : List (Option ((Nat × Nat) × Nat)) := [none, none]
  /-- 1 x 2 | R272 09_dispatch_sharing.md | spec | the configured allowance stands in for a lost one of host, bus. -/
  allowLost : List Bool := [false, false]
  /-- W, 8 | R276 09_dispatch_sharing.md | spec (0) | shortfall and its run of frames. -/
  shortfall : Rat := 0
  shortRun : Nat := 0
  deriving DecidableEq, Repr

/-- Thermal state of one string (chapter 10). -/
structure ThermStr where
  /-- item | R298 10_thermal.md | spec (Invalid) | highest and lowest group temperature, 0.1 degC. -/
  tMax : Item := {}
  tMin : Item := {}
  /-- 9 x 1 | R302 10_thermal.md | spec | warning, throttle, shutdown of charge-high, charge-low, discharge-high. -/
  states : BitVec 9 := 0
  /-- 1 | R304 10_thermal.md | spec (forbidden until the first readings) | charging forbidden. -/
  noChg : Bool := false
  /-- real x 2 | R303 10_thermal.md | spec | charge and discharge derating factor. -/
  fc : Rat := 0
  fd : Rat := 0
  /-- 8, 1 | R307 10_thermal.md | spec | cooling demand, heating demand, and the cool.on latch. -/
  cool : Nat := 0
  coolOn : Bool := false
  heat : Bool := false
  deriving DecidableEq, Repr

/-- A module die sensor (R292, R299). -/
structure DieSensor where
  count : Nat := 0
  temp : Option Int := none     -- 0.1 degC of the last round
  broken : Bool := false
  same : Nat := 0               -- consecutive rounds with the same count
  deriving DecidableEq, Repr

/-- Thermal state (chapter 10). -/
structure ThermState where
  /-- 6 sensors | R292 10_thermal.md | spec | die sensors. -/
  dies : List DieSensor := List.replicate 6 {}
  /-- 16 x 2 | R293 10_thermal.md | spec (none) | module and lowest die temperature, 0.1 degC. -/
  dieMax : Option Int := none
  dieMin : Option Int := none
  /-- 1 | R300, R309 10_thermal.md | spec | a broken sensor set the module die temperature of the round. -/
  dieSub : Bool := false
  /-- 64 | R292 10_thermal.md | spec (none) | frame of the last die reading. -/
  dieAt : Option Nat := none
  /-- 3 | R293 10_thermal.md | spec | die states in force: warning, throttle, shutdown. -/
  warn : Bool := false
  throttle : Bool := false
  shut : Bool := false
  /-- 2 | R305 10_thermal.md | spec | write inhibits: MRAM learning, flash programming. -/
  mramInh : Bool := false
  flashInh : Bool := false
  /-- 4 | R305 10_thermal.md | spec | ends of each band that were crossed. -/
  mramLow : Bool := false
  mramHigh : Bool := false
  flashLow : Bool := false
  flashHigh : Bool := false
  strs : List ThermStr := [{}, {}, {}, {}]
  /-- 48 x (32, 32) | R292 10_thermal.md | DC1 | one-time trim area: n1 and n2 of each sensor. -/
  trim : List (Nat × Nat) := List.replicate 6 (8000, 9000)
  deriving DecidableEq, Repr

/-- A Guard latch of one scope (R321, R332): when it was set, which hazards set it. -/
structure GLatch where
  on : Bool := false
  setAt : Nat := 0
  deriving DecidableEq, Repr

/-- A Guard channel (R312): latest values and mean. -/
structure GChan where
  /-- real | R312 11_safety_functions.md | spec (none) | latest calibrated value, A or V; none while invalid. -/
  val : Option Rat := none
  /-- 1 | R312 11_safety_functions.md | spec | |x| above 0.95: beyond every threshold, with its sign. -/
  beyond : Bool := false
  neg : Bool := false
  /-- 8 | R317 11_safety_functions.md | spec | consecutive values beyond the limit (SF1, SF4). -/
  run : Nat := 0
  /-- 1 | R312 11_safety_functions.md | spec | channel invalid. -/
  invalid : Bool := false
  /-- 64 | R312 11_safety_functions.md | spec (none) | since when its modulator clock has lain outside 19.0 to 21.0 MHz, module time. -/
  clkOut : Option Nat := none
  /-- 32 | R316 11_safety_functions.md | spec (none) | last 32 one-millisecond means with heartbeat counts, newest first. -/
  means : List (Nat × Option Rat) := []
  /-- real, count | R312 11_safety_functions.md | spec (none) | sum and number of the valid values of the running millisecond of the Guard oscillator. -/
  sum : Rat × Nat := (0, 0)
  deriving DecidableEq, Repr

/-- Fault loop of one string at the Guard (R313). -/
structure FLoop where
  /-- pin | R313, R592 11_safety_functions.md | spec (low) | FLOOPn_OUT and FLOOPn_IN levels. -/
  out : Bool := false
  inn : Bool := false
  /-- 64 | R313 11_safety_functions.md | spec (none) | time of the driven edge not yet returned or missed. -/
  edge : Option Nat := none
  /-- 8 | R313 11_safety_functions.md | spec (0) | consecutive missed edges. -/
  missed : Nat := 0
  /-- 8 | R313, R323 11_safety_functions.md | spec (0) | consecutive returned edges since Start or the stop. -/
  back : Nat := 0
  /-- 1 | R313 11_safety_functions.md | spec | fault-loop stop is a present hazard. -/
  stop : Bool := false
  deriving DecidableEq, Repr

/-- Frozen safety parameters as a channel holds them (R14, R339): values by name and index. -/
abbrev SafeSet := List (ParamKey × Int)

/-- The Guard and the output permit stage (chapter 11). -/
structure Guard where
  /-- 1 x 5 | R321 11_safety_functions.md | spec (no latch while POR_N low) | latches of strings 0 to 3 and the group. -/
  latch : List GLatch := List.replicate 5 {}
  /-- 5 x 32 | R321, R322 11_safety_functions.md | spec (0) | sticky bits: causes set since the last read, per scope. -/
  sticky : List (BitVec 32) := List.replicate 5 0
  /-- 32 x 5 | R332 11_safety_functions.md | spec (0) | hazards now present, bitmap by function, per scope. -/
  hazards : List (BitVec 32) := List.replicate 5 0
  /-- 1 | R323, R328 11_safety_functions.md | spec | Start checks passed. -/
  started : Bool := false
  /-- 1 x 5 | R323 11_safety_functions.md | spec (withheld) | scopes granted since Start. -/
  granted : List Bool := List.replicate 5 false
  /-- 1 | R339 11_safety_functions.md | spec | the SCV check at Start failed (SF21). -/
  scvFail : Bool := false
  /-- 1 | R316 11_safety_functions.md | spec | the recomputed SCV differs from the one of Start (SF20). -/
  scvBad : Bool := false
  /-- 1 | R339 11_safety_functions.md | spec (open while POR_N low) | load port open. -/
  portOpen : Bool := true
  /-- set | R14, R339 11_safety_functions.md | spec (none) | frozen parameters. -/
  params : Option SafeSet := none
  /-- 32 | R316, R339 11_safety_functions.md | spec | SCV computed at Start, shown on the status port. -/
  scv : Nat := 0
  /-- 10 channels | R312 11_safety_functions.md | spec | current A, B of strings 0 to 3, bus A, B. -/
  chans : List GChan := List.replicate 10 {}
  /-- ms x 4 | R317 11_safety_functions.md | spec | SF2 run of 1 ms means, per string. -/
  plausRun : List Nat := [0, 0, 0, 0]
  /-- ms | R317 11_safety_functions.md | spec | SF5 run, SF6 run. -/
  uvRun : Nat := 0
  agreeRun : Nat := 0
  /-- 4 loops | R313 11_safety_functions.md | spec | fault loops. -/
  floops : List FLoop := [{}, {}, {}, {}]
  /-- pins | R314 11_safety_functions.md | DC1 (low = trip level) | TRIP_IN_A, TRIP_IN_B filtered, and time since they differ. -/
  tripA : Bool := false
  tripB : Bool := false
  tripDiff : Option Nat := none
  /-- 1 | R317 11_safety_functions.md | spec | SF9 is present. -/
  tripDisc : Bool := false
  /-- 12 pins | R314 11_safety_functions.md | DC1 (low reads open) | contactor feedback, string-major POS, NEG, PRE, filtered. -/
  cfb : List Bool := List.replicate 12 false
  /-- 64 x 12 | R317, R329 11_safety_functions.md | spec | since when output and feedback have disagreed. -/
  cfbDiff : List (Option Nat) := List.replicate 12 none
  /-- pin | R314 11_safety_functions.md | DC1 | RESET_N debounced level, high when not pressed. -/
  resetHigh : Bool := false
  /-- 64 | R334 11_safety_functions.md | spec (none) | time of its last debounced change. -/
  resetAt : Nat := 0
  /-- 64 | R331 11_safety_functions.md | spec (none) | t_f of the press under way. -/
  tF : Option Nat := none
  /-- 64 x 2 | R331, R333 11_safety_functions.md | spec (none) | t_f, t_r of the last valid press not yet read. -/
  press : Option (Nat × Nat) := none
  /-- 1 | R334 11_safety_functions.md | spec | stuck reset. -/
  stuck : Bool := false
  /-- 1 | R335 11_safety_functions.md | spec | reset input fault. -/
  inFault : Bool := false
  /-- 32 | R316 11_safety_functions.md | DC1 | heartbeat, ms of the Guard oscillator. -/
  heartbeat : Nat := 0
  /-- 64 | R316 11_safety_functions.md | DC1 | module time of its last advance. -/
  hbAt : Nat := 0
  /-- pins | R326, R592 11_safety_functions.md | spec (low) | GATE_EN0-3 outputs. -/
  gate : List Bool := [false, false, false, false]
  /-- 12 pins | R326, R592 11_safety_functions.md | spec (low) | contactor outputs, string-major POS, NEG, PRE. -/
  ctr : List Bool := List.replicate 12 false
  /-- 64 x 4 | R326 11_safety_functions.md | spec (none) | time GATE_ENn went low with a permit withdrawn; contactors not yet released. -/
  gateLowAt : List (Option Nat) := [none, none, none, none]
  /-- 64 x 4 | R326 11_safety_functions.md | spec (none) | since when both currents are valid and low. -/
  lowSince : List (Option Nat) := [none, none, none, none]
  /-- 1 x 4 | R325 11_safety_functions.md | spec (withdrawn) | safety core permit lines as the stage counts them, and time of the last toggle. -/
  line : List Bool := [false, false, false, false]
  toggled : List Nat := [0, 0, 0, 0]
  /-- 64 | R325, R316 11_safety_functions.md | spec | alive line running, time of its last toggle. -/
  alive : Bool := false
  aliveAt : Nat := 0
  /-- 12 pins | R344 11_safety_functions.md | spec | welds found. -/
  weld : List Bool := List.replicate 12 false
  deriving DecidableEq, Repr

/-- State of a scope (R336). -/
inductive Scope where
  | armed | tripping | locked | resetArmed | start
  deriving DecidableEq, Repr

/-- Consumer connection state (R355, Table 12-6). -/
inductive ConnSt where
  | unused | start | unsync | running | expired
  deriving DecidableEq, Repr

/-- A consumed FSL connection (R355, R358). -/
structure FslConn where
  st : ConnSt := .unused
  lastSeq : Option Nat := none
  deadline : Nat := 0
  errs : Nat := 0
  errsRound : Nat := 0
  deriving DecidableEq, Repr

/-- A unit of the FSL endpoint buffer (R352): bytes, channel (0 UDP, 1 CAN), CAN data length, hardware timestamp. -/
structure FslUnit where
  bytes : List (BitVec 8)
  can : Bool
  ts : Nat
  deriving DecidableEq, Repr

/-- The safety core and its FSL endpoint (chapters 11 and 12). -/
structure SafeCore where
  /-- 1 x 5 | R320, R322 11_safety_functions.md | DC2 (none) | latches of strings 0 to 3 and the group. -/
  latch : List Bool := List.replicate 5 false
  /-- 32 x 5 | R322 11_safety_functions.md | DC2 (0) | causes, bit k-1 for SFk. -/
  causes : List (BitVec 32) := List.replicate 5 0
  /-- 32 x 5 | R323, R333 11_safety_functions.md | spec | hazards found present at the last evaluation. -/
  hazards : List (BitVec 32) := List.replicate 5 0
  /-- 3 x 5 | R336 11_safety_functions.md | spec (Start) | scope states. -/
  scope : List Scope := List.replicate 5 .start
  /-- 1 x 4 | R325 11_safety_functions.md | spec (withheld) | permits granted. -/
  permit : List Bool := [false, false, false, false]
  /-- 1 | R316, R328 11_safety_functions.md | spec | alive line toggled: own checks pass. -/
  aliveOn : Bool := false
  /-- 1 | R323 11_safety_functions.md | spec | SCV check of this Start passed. -/
  scvOk : Bool := false
  /-- set | R339 11_safety_functions.md | spec (none) | own copy of the safety parameters. -/
  params : Option SafeSet := none
  /-- 32 | R344 11_safety_functions.md | spec | SCV computed. -/
  scv : Nat := 0
  /-- 32 | R316, R339 11_safety_functions.md | spec (none) | confirmed SCV of the generation loaded. -/
  scvConf : Option Nat := none
  /-- 64 | R330 11_safety_functions.md | spec (none) | t_acc of the open reset window. -/
  tAcc : Option Nat := none
  /-- 16 | Table 12-5 12_safety_layer.md | spec (0) | request of the last RESET_REQUEST accepted. -/
  lastReq : Nat := 0
  /-- 16 x 2,304 | R319 11_safety_functions.md | spec (0) | frames not monitored, per cell. -/
  monitor : List Nat := List.replicate 2304 0
  /-- 64 | R319, R517 19_start_modes_config.md | spec | end of Start reached: counting runs. -/
  counting : Bool := false
  /-- frames x 4 | R317 11_safety_functions.md | spec | SF2 run of frame means, per string. -/
  plausRun : List Nat := [0, 0, 0, 0]
  /-- 8 x 8 | R316 11_safety_functions.md | spec | run of frames in which the current means differ, per current channel. -/
  meanRun : List Nat := List.replicate 8 0
  /-- 8 | R316 11_safety_functions.md | spec | run of frames with a wrong heartbeat; last heartbeat read. -/
  hbRun : Nat := 0
  hbLast : Option Nat := none
  /-- 4 x 2 | R30, R316, R344 11_safety_functions.md | spec | channel faults: safety core, Guard, permit stage, current means; those whose check fails, and those found since the group was last Armed. -/
  faults : BitVec 4 := 0
  faultsHeld : BitVec 4 := 0
  /-- 1 | R45, R315 11_safety_functions.md | spec | evaluation of the running frame done. -/
  evalDone : Bool := false
  /-- 8 connections | R355, R358 12_safety_layer.md | spec (unused) | reset connections 0 to 3, trip connections 4 to 7. -/
  conns : List FslConn := List.replicate 8 {}
  /-- 32 units | R352 12_safety_layer.md | spec (empty) | endpoint buffer, in order of arrival. -/
  buffer : List FslUnit := []
  /-- 32 | R358 12_safety_layer.md | spec | units rejected for the module since Start. -/
  rejected : Nat := 0
  /-- 32 | R358 12_safety_layer.md | spec | duplicates discarded since Start. -/
  duplicates : Nat := 0
  /-- 32 | R349 12_safety_layer.md | spec (0) | STATUS seq to be sent next. -/
  statusSeq : Nat := 0
  /-- 32 | R358 12_safety_layer.md | DC1 (none sent) | sequence number of the last STATUS sent. -/
  statusSent : Nat := 0
  deriving DecidableEq, Repr

/-- A stored FHP reply (R399): its opcode and the payloads of its parts. -/
structure FhpReply where
  seq : Nat
  opcode : Nat
  parts : List (List (BitVec 8))
  running : Bool
  deriving DecidableEq, Repr

/-- A subscription (R406). kind 0 keys, 1 slot range. -/
structure Subscription where
  id : Nat
  kind : Nat
  period : Nat
  keys : List Nat
  first : Nat
  count : Nat
  parts : Nat
  lastFrame : Option Nat := none -- Comb frame pushed last
  deriving DecidableEq, Repr

/-- An FHP session (R396, R399). -/
structure Session where
  id : Nat
  role : Role
  key : List (BitVec 8) := []  -- K_s (R396)
  addr : Nat
  port : Nat
  sLast : Nat
  replies : List FhpReply
  lastReq : Nat            -- hardware timestamp of the last accepted request or of the OPEN
  confirmed : Bool
  confirmT : Nat := 5      -- host.open.confirm at its OPEN, s
  tokens : Rat
  tokensAt : Nat
  pushSeq : Nat
  subs : List Subscription
  deriving DecidableEq, Repr

/-- The host interface (chapter 14). -/
structure HostState where
  /-- 8 slots | R393 14_host_protocol.md | spec (none open) | sessions by slot. -/
  slots : List (Option Session) := List.replicate 8 none
  /-- 32 | R410 14_host_protocol.md | spec (none) | session that holds the edit lock. -/
  lock : Option Nat := none
  /-- 32 x 6 | R415 14_host_protocol.md | spec (0) | messages discarded, length rejects, sequence discards, rate-limited, refused Busy, pushes dropped. -/
  discarded : Nat := 0
  lengthRej : Nat := 0
  seqDisc : Nat := 0
  rateLim : Nat := 0
  busy : Nat := 0
  pushDrop : Nat := 0
  /-- list | R392, R398, R386 14_host_protocol.md | spec (empty) | recent LengthInvalid replies, OPENs (address, time) and echo replies (time). -/
  errReplies : List (Nat × Nat) := []
  opens : List (Nat × Nat) := []
  opensSurplus : Nat := 0
  echoes : List Nat := []
  /-- 16 | R416 14_host_protocol.md | spec | tag failures of the round. -/
  authRound : Nat := 0
  /-- 64 | R385 14_host_protocol.md | spec (none) | time of the last PRP supervision frame. -/
  prpAt : Option Nat := none
  /-- 1 x 2 | R28 01_architecture.md | spec | LAN A, LAN B heard (PRP duplicate supervision). -/
  lanOk : List Bool := [true, true]
  /-- 32 entries | R386 14_host_protocol.md | spec (empty) | ARP cache addresses. -/
  arp : List Nat := []
  /-- list | R385 14_host_protocol.md | spec (empty) | duplicate discard: source MAC, redundancy sequence number and time of the frames received. -/
  prpSeen : List (Nat × Nat × Nat) := []
  /-- list | R481, R484 17_recorder.md | spec (none) | REC_READ parts held by a round commit: session, slot, seq, payload. -/
  heldReads : List (Nat × Nat × Nat × List (BitVec 8)) := []
  deriving DecidableEq, Repr

/-- A CAN frame in a queue or FIFO: identifier, extended, data, the two stamps of R420. -/
structure CanFrame where
  id : Nat
  ext : Bool
  data : List (BitVec 8)
  sof : Nat
  ts : Nat
  deriving DecidableEq, Repr

/-- An unsent transmit entry (R421): frame, kind (Table 15-3) and queueing time. -/
structure CanTx where
  id : Nat
  kind : Nat               -- 0 STATUS, 1 FSL STATUS, 2 TIME_REF, 3 TIME_FOLLOW, 4 SYNC, 5 RPDO, 6 NMT, 7 SDO
  data : List (BitVec 8)
  at_ : Nat
  tag : Nat
  deriving DecidableEq, Repr

/-- One CAN port (R417 to R423). -/
structure CanPort where
  /-- 8 | R440 15_can_bus.md | spec (off until configured) | port state: 0 off, 1 error-active, 2 error-passive, 3 bus-off, 4 listen-only, 5 detecting. -/
  st : Nat := 0
  /-- 32 | R419, R440 15_can_bus.md | spec | nominal rate in use or being tried. -/
  rate : Nat := 0
  /-- pin | R418 15_can_bus.md | spec (high through Start) | CANn_STB high. -/
  stb : Bool := true
  /-- 1 | R418 15_can_bus.md | spec (none) | rate found; normal from the next frame boundary. -/
  toNormal : Bool := false
  /-- 32 entries | R421 15_can_bus.md | spec (empty) | transmit queue. -/
  tx : List CanTx := []
  /-- 64 entries x 2 | R422 15_can_bus.md | spec (empty) | receive FIFOs 0 and 1, oldest first. -/
  fifo0 : List CanFrame := []
  fifo1 : List CanFrame := []
  /-- 32 x 4 | R440 15_can_bus.md | spec (0) | receive overflows, transmit queue full, bus-off count, length rejects. -/
  overflow : Nat := 0
  txFull : Nat := 0
  busoff : Nat := 0
  lenRej : Nat := 0
  /-- 64 | R423 15_can_bus.md | spec (none) | time of bus-off; recovery started. -/
  offAt : Option Nat := none
  recovering : Bool := false
  /-- 64 | R419 15_can_bus.md | spec | since when the rate in use is being tried. -/
  dwellAt : Nat := 0
  deriving DecidableEq, Repr

/-- A configured CANopen station (R436 to R438). -/
structure Station where
  /-- 8 | R436, R440 15_can_bus.md | spec (0 unused) | state. -/
  st : Nat := 0
  /-- 64 | R436 15_can_bus.md | spec | time of the last heartbeat. -/
  hbAt : Nat := 0
  /-- 8 | R436 15_can_bus.md | spec | consecutive cycles without a complete TPDO set. -/
  missed : Nat := 0
  /-- 4 x 4 x 16 | R438 15_can_bus.md | spec (none) | TPDOs received since the SYNC. -/
  got : List (Nat × List Nat) := []
  /-- image | R438 15_can_bus.md | spec (none) | last complete image and its frame. -/
  image : Option (List Nat × Nat) := none
  /-- 32 | R438 15_can_bus.md | spec | TPDOs discarded for their length. -/
  discarded : Nat := 0
  /-- 1 | R464, R465 16_cyclic_program.md | spec | present at the last latch; Operational since then. -/
  present : Bool := false
  opSince : Bool := false
  /-- 1 | R465 16_cyclic_program.md | spec | outputs of the running cycle discarded; RPDOs carry safe values. -/
  dropped : Bool := false
  safeOut : Bool := false
  deriving DecidableEq, Repr

/-- CAN ports, block bus, time reference and remote I/O (chapter 15). -/
structure CanState where
  ports : List CanPort := [{}, {}]
  /-- list | R424 15_can_bus.md | spec (empty) | accepted copies: identifier, counter, time. -/
  recent : List (Nat × Nat × Nat) := []
  /-- 8 | R427 15_can_bus.md | DC1 | counter of STATUS, counter of TIME_REF. -/
  statusCnt : Nat := 0
  refCnt : Nat := 0
  /-- 2 | R440 15_can_bus.md | spec | time role state: 0 off, 1 follower, 2 acting master, 3 backup waiting. -/
  role : Nat := 0
  /-- 8 | R440 15_can_bus.md | spec (none) | master heard (position), and its synced bit with the frame of the pair. -/
  master : Option Nat := none
  masterSync : Option (Bool × Nat) := none
  /-- 64 | R431 15_can_bus.md | spec (end of configuration) | time at which the last TIME_REF was heard. -/
  refHeard : Nat := 0
  /-- pair | R430 15_can_bus.md | spec (none) | CANB pair kept while the CANA reference of the same master and counter waits: master identifier, counter, start of frame, master time, synced. -/
  heldB : Option (Nat × Nat × Nat × Nat × Bool) := none
  /-- list | R430 15_can_bus.md | spec (empty) | TIME_REFs not yet paired: port, master (priority and position), counter, start of frame, arrival. -/
  unpaired : List (Nat × Nat × Nat × Nat × Nat) := []
  /-- pair | R424, R430 15_can_bus.md | spec (none) | master, counter and time of the last pair used. -/
  pairUsed : Option (Nat × Nat × Nat) := none
  /-- 16 stations | R433 15_can_bus.md | spec (unused) | stations. -/
  stations : List Station := List.replicate 16 {}
  /-- list | R435 15_can_bus.md | spec (empty) | unknown nodes recorded in this Start. -/
  unknown : List Nat := []
  /-- 64 | R437, R438 15_can_bus.md | spec (none) | frame of the SYNC whose input images are still open. -/
  syncFrame : Option Nat := none
  deriving DecidableEq, Repr

/-- Variable entry of a program image (Table 16-4). -/
structure VarDef where
  typ : Nat := 0
  kind : Nat := 0
  pin : Nat := 255
  init : BitVec 32 := 0
  safe : BitVec 32 := 0
  deriving DecidableEq, Repr

/-- Instance record of a program image (Table 16-5). -/
structure InstDef where
  id : Nat
  typ : Nat
  nIn : Nat
  nOut : Nat
  ins : List Nat
  outs : List Nat
  param : Nat
  deriving DecidableEq, Repr

/-- A program image (R447); raw holds its bytes. -/
structure ProgImage where
  period : Nat
  version : Nat
  vars : List VarDef
  insts : List InstDef
  raw : List (BitVec 8)
  deriving DecidableEq, Repr

/-- Stored state of an instance (R453, Table 16-6): up to three words, and the sample_time of its last latch. -/
structure InstSt where
  a : Int := 0
  b : Int := 0
  c : Int := 0
  fresh : Bool := true
  last : Option Nat := none
  deriving DecidableEq, Repr

/-- Program state (R445). -/
inductive ProgSt where
  | stop | run | hold | overrun | none
  deriving DecidableEq, Repr

/-- A program command waiting for the cycle boundary (R446). -/
inductive ProgCmd where
  | activate (version : Nat)
  | release (index : Nat)
  | force (index : Nat) (value : BitVec 32)
  | mode (code : Nat)
  deriving DecidableEq, Repr

/-- A program staging in progress (R466): version, total bytes, pieces by offset, time of the last message. -/
structure ProgStaging where
  version : Nat
  total : Nat
  pieces : List (Nat × List (BitVec 8))
  last : Nat
  timeout : Nat := 300     -- prog.stage.timeout at the last PROG_LOAD, s
  deriving DecidableEq, Repr

/-- The cyclic program (chapter 16). -/
structure ProgState where
  /-- 3 | R445 16_cyclic_program.md | spec (No program until step 10) | program state. -/
  st : ProgSt := .none
  /-- image | R468 16_cyclic_program.md | DC2 (none) | active program. -/
  active : Option ProgImage := none
  /-- image | R466 16_cyclic_program.md | spec (none) | staged program. -/
  staged : Option ProgImage := none
  /-- bytes | R466 16_cyclic_program.md | spec (none) | staging in progress: version, total, pieces (offset, data), time of the last message. -/
  staging : Option ProgStaging := none
  /-- 32 | R466 16_cyclic_program.md | spec (0) | PROG_LOAD messages rejected. -/
  loadRej : Nat := 0
  /-- 8,192 x 32 | R448 16_cyclic_program.md | spec (init) | variable values. -/
  vars : List (BitVec 32) := []
  /-- 4,096 | R453 16_cyclic_program.md | spec (Table 16-6) | instance states by instance ID. -/
  insts : List (Nat × InstSt) := []
  /-- 64 | R458 16_cyclic_program.md | spec (none) | forces: index, value. -/
  forces : List (Nat × BitVec 32) := []
  /-- list | R446 16_cyclic_program.md | spec (empty) | commands waiting, with hardware timestamp and order. -/
  cmds : List (ProgCmd × Nat) := []
  /-- 32 x 3 | R470 16_cyclic_program.md | spec (0) | cycles, overruns, arithmetic faults since Start. -/
  cycles : Nat := 0
  overruns : Nat := 0
  faults : Nat := 0
  /-- 16 x 2 | R470 16_cyclic_program.md | spec (0) | last and longest cycle time, us. -/
  lastT : Nat := 0
  maxT : Nat := 0
  /-- 64 | R470 16_cyclic_program.md | spec (none) | latched frame N. -/
  latched : Option Nat := none
  /-- 1 | R442, R462 16_cyclic_program.md | spec | a cycle began in this frame and its deadline has not come. -/
  began : Bool := false
  /-- values | R442, R462 16_cyclic_program.md | spec (none) | variable values before the running cycle, restored by an overrun. -/
  before : List (BitVec 32) := []
  /-- values | R41, R442 16_cyclic_program.md | spec (none) | outputs of kinds 3 and 5 computed, waiting for the boundary: index, value. -/
  outNext : Option (List (Nat × BitVec 32)) := none
  /-- values | R41, R463 16_cyclic_program.md | spec (none) | outputs of kinds 3 and 5 in force. -/
  outNow : List (Nat × BitVec 32) := []
  /-- 1 | R459, R463 16_cyclic_program.md | spec (safe values) | outputs stand at safe values; from the next boundary. -/
  safe : Bool := true
  safeNext : Bool := false
  /-- 16 x 2 | R443, R593 16_cyclic_program.md | DC1 (low) | GPIO input levels at the last sample instant and at the one before it. -/
  gpioIn : BitVec 16 := 0
  gpioPrev : BitVec 16 := 0
  /-- 16 | R464 16_cyclic_program.md | spec (none) | stations present in the cycle whose outputs wait for the boundary. -/
  hadStations : List Nat := []
  /-- 64 | R454 16_cyclic_program.md | spec (0) | user events raised. -/
  userEv : BitVec 64 := 0
  deriving DecidableEq, Repr

/-- Event record of Table 17-5 (R479, R480). -/
structure EvRec where
  seq : Nat
  code : Nat
  active : Bool
  arg : Nat
  repeat_ : Nat
  firstT : Nat
  firstOps : Nat
  firstPc : Nat
  lastT : Nat
  lastOps : Nat
  lastPc : Nat
  deriving DecidableEq, Repr

/-- Clear record of Table 17-6 (R486). -/
structure ClearRec where
  kind : Nat
  done : Bool
  session : Nat
  arg : Nat
  discarded : Nat
  time : Nat
  ops : Nat
  pc : Nat
  deriving DecidableEq, Repr

/-- String block of the recorder (Table 17-3), as a sparse list of counters by byte offset. -/
structure RecStr where
  dwell : List (Nat × Nat) := []    -- byte offset of a uint64 counter in the block, value; absent = 0
  unclassified : Nat := 0
  qChg : Nat := 0
  qDis : Nat := 0
  eChg : Nat := 0
  eDis : Nat := 0
  ops : Nat := 0
  pc : Nat := 0
  deriving DecidableEq, Repr

/-- Extremes of one cell (Table 17-4). -/
structure Extremes where
  vMax : Nat := 0
  vMin : Nat := 0xFFFF
  tMax : Int := -32768
  tMin : Int := 32767
  stamps : List (Nat × Nat) := [(0, 0), (0, 0), (0, 0), (0, 0)]
  deriving DecidableEq, Repr

/-- The recorder (chapter 17): its MRAM and the accumulations in SRAM. -/
structure RecState where
  /-- list | R25 01_architecture.md | spec (none) | the reason recorded with the last change of each part of the plant: its owner and the time. -/
  reasons : List (Plant × Owner × Nat) := []
  /-- 32 | R472 17_recorder.md | DC2 (0) | operating seconds. -/
  ops : Nat := 0
  /-- 32 | R472 17_recorder.md | DC2 (0) | power-cycle count. -/
  pc : Nat := 0
  /-- 32 | R473 17_recorder.md | DC2 (0) | round commits since manufacture. -/
  commits : Nat := 0
  /-- 16 x 10, 32 x 10 | R473, R479 17_recorder.md | DC2 (0) | head and seq of each class ring. -/
  head : List Nat := List.replicate 10 0
  seq : List Nat := List.replicate 10 0
  /-- 3,840 x 10 | R473, R479 17_recorder.md | DC2 (empty) | event records of each class, newest first. -/
  rings : List (List EvRec) := List.replicate 10 []
  /-- 4 blocks | R473, R474 17_recorder.md | DC2 (0) | string blocks in MRAM, and accumulations of the round. -/
  strs : List RecStr := [{}, {}, {}, {}]
  acc : List RecStr := [{}, {}, {}, {}]
  /-- real x 8 | R475 17_recorder.md | spec (0) | energy remainders below 1 Wh: charge, discharge per string. -/
  rem : List (Rat × Rat) := [(0, 0), (0, 0), (0, 0), (0, 0)]
  /-- 2,304 entries | R477 17_recorder.md | DC2 (defaults) | cell extremes in MRAM; and those changed in the round. -/
  cells : List (Nat × Extremes) := []
  cellAcc : List (Nat × Extremes) := []
  /-- 40 x 32 + | R476 17_recorder.md | DC2 (0) | die histogram bins, not-Good counter, ops and pc; and accumulation. -/
  die : List Nat := List.replicate 41 0
  dieStamp : Nat × Nat := (0, 0)
  dieAcc : List Nat := List.replicate 41 0
  /-- 256 records | R486 17_recorder.md | DC2 (none) | clear records in order of writing. -/
  clears : List ClearRec := []
  /-- 32 x 4 x 2 | R485 17_recorder.md | DC1 | clear token in force and the one it replaced, per region. -/
  tokens : List (Nat × Nat) := [(0, 0), (0, 0), (0, 0), (0, 0)]
  /-- list | R486 17_recorder.md | spec (none) | clears accepted for the next commit: region, token, session. -/
  clearReq : List (Nat × Nat × Nat) := []
  /-- list | R478 17_recorder.md | spec (none) | bricks whose cell entries return to defaults. -/
  cellClear : List Nat := []
  /-- 32 | R488 17_recorder.md | spec (0) | event records overwritten since Start; in this round. -/
  overwritten : Nat := 0
  overRound : Bool := false
  /-- 1 | R516 Table 19-7 19_start_modes_config.md | spec | the recorder accumulates. -/
  on : Bool := false
  /-- list | R480 17_recorder.md | spec (none) | events that stand raised: code, argument. -/
  raised : List (Nat × Nat) := []
  /-- list | R483 17_recorder.md | spec (none) | codes raised in the running round (for clearing after a quiet round). -/
  roundCodes : List (Nat × Nat) := []
  deriving DecidableEq, Repr

/-- One physical SRAM bank (R490, R500, R505). st 0 in use, 1 spare, 2 copying, 3 retired; a bank under test by a slice keeps its state here. run is the next bank slice of a full pass. -/
structure Bank where
  st : Nat := 0
  logical : Option Nat := none
  failed : Nat := 0
  round : Nat := 0
  passes : Nat := 0
  run : Nat := 0
  deriving DecidableEq, Repr

/-- Memory integrity (chapter 18). -/
structure MemState where
  /-- 9 banks | R490, R505 18_memory_integrity.md | spec (0-7 in use, 8 spare) | banks. -/
  banks : List Bank := [{ logical := some 0 }, { logical := some 1 }, { logical := some 2 }, { logical := some 3 }, { logical := some 4 }, { logical := some 5 }, { logical := some 6 }, { logical := some 7 }, { st := 1 }]
  /-- 32 x 2 | R493 18_memory_integrity.md | DC1 | scrub pointers of SRAM and MRAM, lines. -/
  ptr : Nat := 0
  mramPtr : Nat := 0
  /-- 32 x 5 | R505 18_memory_integrity.md | spec (0) | scrub passes, MRAM lines failed, fetch traps, DMA halts, Estimator recomputations. -/
  passes : Nat := 0
  mramFailed : Nat := 0
  traps : Nat := 0
  halts : Nat := 0
  recomputed : Nat := 0
  /-- lines | R492 18_memory_integrity.md | spec (empty) | lines as they were last written back after a repair or a write of a part: whether of MRAM, and line number; 64 bytes and the check recomputed over them. -/
  lines : List ((Bool × Nat) × List (BitVec 8) × Nat) := []
  /-- list | R500 18_memory_integrity.md | spec (empty) | repaired line addresses with the time of repair. -/
  repaired : List (Nat × Nat) := []
  /-- bank | R500 18_memory_integrity.md | spec (none) | bank to be retired at the next frame boundary; copy in progress; copy complete, map switches at the next boundary. -/
  toRetire : Option Nat := none
  copying : Option Nat := none
  switch : Option Nat := none
  /-- pair | R12 01_architecture.md | spec (both in service) | pair A, pair B in service; pair to leave at the next frame boundary. -/
  pairOk : List Bool := [true, true]
  pairFail : Option Nat := none
  /-- full passes | R567 21_self_test.md | spec (0) | slices of consecutive full passes of a failed pair, and its next core slice. -/
  pairPasses : Nat := 0
  pairNext : Nat := 0
  /-- 8 | R495 18_memory_integrity.md | spec (0) | refetches of the trapped line that failed in a row. -/
  refetch : Nat := 0
  deriving DecidableEq, Repr

/-- OCV section of Table 6-5 (R176). -/
structure Ocv where
  format : Nat := 1
  nSoc : Nat
  nTemp : Nat
  chem : Nat
  temp : List Int
  tau1 : List Nat
  tau2 : List Nat
  soc : List Nat
  vChg : List (List Nat)
  vDis : List (List Nat)
  deriving DecidableEq, Repr

/-- Resistance factor section of Table 7-3 (R207). -/
structure RFactor where
  format : Nat := 1
  nSoc : Nat
  nTemp : Nat
  chem : Nat
  temp : List Int
  soc : List Nat
  f : List (List Nat)
  deriving DecidableEq, Repr

/-- Region entry of Table 8-4 (R242). -/
structure Region where
  iLo : Nat := 0
  iHi : Nat := 0
  vLo : Nat := 0
  vHi : Nat := 0
  tLo : Int := 0
  tHi : Int := 0
  hT : Nat := 0
  set : Nat := 0
  enabled : Bool := false
  dflt : Bool := false
  hI : Nat := 0
  hV : Nat := 0
  deriving DecidableEq, Repr

/-- Station entry of Table 15-10 (R433). -/
structure StationCfg where
  node : Nat := 0
  enabled : Bool := false
  tpdo : Nat := 0
  rpdo : Nat := 0
  hbMs : Nat := 1000
  inBase : Nat := 0
  outBase : Nat := 0
  devType : Nat := 0
  deriving DecidableEq, Repr

/-- Enrolment entry of Table 19-6 (R92); the device key by its value. -/
structure Enrol where
  uid : Nat
  kDev : Nat
  string : Nat
  deriving DecidableEq, Repr

/-- Content of a configuration: parameters that differ from their defaults, the sections of Table 19-5, and the data bytes of the sections with tags 3 to 9 and of unknown ones as they stand in the image. -/
structure Cfg where
  params : List (ParamKey × Int) := []
  map : List (Nat × Nat × Nat) := []
  ocv : Option Ocv := none
  rf : Option RFactor := none
  gains : List GainSet := []
  regions : List Region := []
  stations : List StationCfg := []
  enrol : List Enrol := []
  hasMap : Bool := true
  raw : List (Nat × List (BitVec 8)) := []
  deriving DecidableEq, Repr

/-- A configuration image (R510): header fields, content, and the first of checks 1 to 4 of R514 that its bytes fail (0 none). -/
structure CfgImage where
  gen : Nat
  keyId : Nat := 0
  base : Nat := 0
  scv : Nat := 0
  confirmGen : Nat := 0
  time : Nat := 0
  size : Nat := 0
  bad : Nat := 0
  cfg : Cfg := {}
  deriving DecidableEq, Repr

/-- A commit in progress (R529): the new image, the slot and ID of the session and the seq of its request. -/
structure CommitRun where
  img : CfgImage
  slot : Nat
  session : Nat
  seq : Nat
  deriving DecidableEq, Repr

/-- Outcome of a Start step in the journal (R521). -/
structure StepRec where
  outcome : Nat := 0       -- 0 not reached, 1 begun, 2 done, 3 done differently, 4 skipped, 5 failed
  detail : Nat := 0
  t : Nat := 0
  deriving DecidableEq, Repr

/-- Journal entry of Table 19-8. -/
structure Journal where
  endMode : Nat := 0xFF
  powerCycles : Nat := 0
  startT : Nat := 0
  pfwT : Nat := 0
  gen : Nat := 0
  setAside : Nat := 0
  source : Nat := 0xFF
  cause : Nat := 0
  restartStep : Nat := 0
  steps : List StepRec := List.replicate 12 {}
  bad : Bool := false
  deriving DecidableEq, Repr

/-- A value in two stored copies with write sequences (R503); none for a copy that is not valid. -/
structure Pair (α : Type) where
  a : Option (Nat × α) := none
  b : Option (Nat × α) := none
  deriving DecidableEq, Repr

/-- Instructions of the debug port (R594). -/
inductive TapInstr where
  | bypass | idcode | sample | extest
  deriving DecidableEq, Repr

/-- The debug port (R594). -/
structure TapState where
  /-- instruction | R594 23_lands_electrical.md | PRESUMED IDCODE (IEEE 1149.1, log 42) | instruction in force. -/
  instr : TapInstr := .idcode
  /-- chain | R594 23_lands_electrical.md | DC1 (none) | levels last shifted into the boundary-scan register. -/
  drive : List Bool := []
  deriving DecidableEq, Repr

/-- Start, modes and configuration (chapter 19). -/
structure BootState where
  /-- debug port | R594 23_lands_electrical.md | PRESUMED (log 42) | state of the IEEE 1149.1 port. -/
  tap : TapState := {}
  /-- 3 | R515, R519, R573 19_start_modes_config.md | spec (POR_N low) | what the main die does. -/
  phase : Phase := .por
  /-- pins | R573, R592 22_power.md | DC1 (POR_N low, PFW_N high) | POR_N; PFW_N. -/
  porN : Bool := false
  pfwN : Bool := true
  /-- 8 | R523 19_start_modes_config.md | spec (Start) | mode. -/
  mode : Mode := .start
  /-- pending | R525 19_start_modes_config.md | spec (none) | mode changes accepted, with the frame at whose boundary each acts. -/
  modeNext : List (Mode × Nat) := []
  /-- 4 | R516 19_start_modes_config.md | spec | Start step that runs, 1 to 12. -/
  step : Nat := 0
  /-- 64 | R521 19_start_modes_config.md | spec | module time at the start of step 1. -/
  startT : Nat := 0
  /-- 64 | R516 19_start_modes_config.md | spec | module time at which the running step began. -/
  stepAt : Nat := 0
  /-- 8 | R516 19_start_modes_config.md | DC2 (none) | port of step 4, or string and copy of step 8, that a failed Start ended in. -/
  failAt : Option Nat := none
  /-- 1 x 2 | R516 19_start_modes_config.md | spec | ETHA, ETHB left without configuration by step 4. -/
  ethOut : List Bool := [false, false]
  /-- 8 | R521 19_start_modes_config.md | spec (0 POR_N) | cause of this Start. -/
  cause : Nat := 0
  /-- 16 entries | R521 19_start_modes_config.md | DC2 (empty) | boot journal ring, and the index of the newest. -/
  journal : List Journal := List.replicate 16 {}
  newest : Nat := 15
  /-- 12 x 1 | R516, R522 19_start_modes_config.md | spec | steps that failed in the previous Start. -/
  prevFailed : List Bool := List.replicate 12 false
  /-- 8 x 12 | R519 19_start_modes_config.md | DC2 (0) | consecutive Starts in which each step failed. -/
  tries : List Nat := List.replicate 12 0
  /-- 4 | R519 19_start_modes_config.md | spec (none) | step at which Start has halted. -/
  haltStep : Option Nat := none
  /-- 2 | R507, R509 19_start_modes_config.md | DC2 (Blank) | life-cycle state in its two copies; state in force. -/
  lifeStore : Pair LifeCycle := { a := some (1, .blank), b := some (0, .blank) }
  life : LifeCycle := .blank
  /-- images | R510, R532 19_start_modes_config.md | DC2 (none) | copy A, copy B, MRAM shadow. -/
  copyA : Option CfgImage := none
  copyB : Option CfgImage := none
  shadow : Option CfgImage := none
  /-- 32 | R527, R534 19_start_modes_config.md | spec (0) | running generation, committed generation, set-aside generation. -/
  runGen : Nat := 0
  comGen : Nat := 0
  aside : Nat := 0
  /-- config | R409, R527 14_host_protocol.md | spec (defaults) | parameters and sections in force; committed; written and pending; written for the next frame. -/
  run : Cfg := {}
  com : Cfg := {}
  pend : List (ParamKey × Int) := []
  frameW : List (ParamKey × Int) := []
  /-- table | R23 01_architecture.md | spec (none) | changes in a frame-class shadow whose swap request missed its boundary: parameters, and committed content; what arrives after them waits for the boundary after their swap. -/
  framePend : List (ParamKey × Int) := []
  applyPend : Option Cfg := none
  roundW : List (ParamKey × Int) := []
  /-- config | R529 19_start_modes_config.md | spec (none) | committed content that takes effect at the next frame boundary. -/
  toApply : Option Cfg := none
  /-- commit | R529 19_start_modes_config.md | spec (none) | commit in progress: new image, session slot and its ID, seq. -/
  commit : Option CommitRun := none
  /-- 8, 3 | R534 19_start_modes_config.md | spec | configuration source; valid copies. -/
  source : Nat := 0
  validCopies : BitVec 3 := 0
  /-- 32, 12 | R534 19_start_modes_config.md | spec (0) | Start duration in ms; steps not done normally. -/
  duration : Nat := 0
  notNormal : BitVec 12 := 0
  /-- 32, 32 | R338, R530 11_safety_functions.md | DC2 (none) | confirmed generation and SCV in two copies. -/
  confirm : Pair (Nat × Nat) := {}
  /-- latches | R322 11_safety_functions.md | DC2 (none) | safety latches and causes in two copies. -/
  latchStore : Pair (List Bool × List (BitVec 32)) := {}
  /-- roster | R141, R503 05_foragers_and_cells.md | DC2 (none) | roster with diagnostic records in two copies: brick instance, uid, record. -/
  roster : Pair (List (Nat × Nat × Option Diag)) := {}
  /-- 128 x 4 | R81, R503 04_spami_link.md | DC2 (none) | K_net of each string in two copies. -/
  keys : List (Pair Nat) := [{}, {}, {}, {}]
  /-- image | R468, R503 16_cyclic_program.md | DC2 (none) | program image in two copies. -/
  progStore : Pair ProgImage := {}
  /-- 64 | R396, R533 19_start_modes_config.md | DC1 | unique ID of the module, fixed at manufacture. -/
  uid : Nat := 1
  /-- 48 | R385 14_host_protocol.md | DC1 | MAC address of ETHA and ETHB. -/
  mac : Nat := 0x020000000001
  /-- 256 | R394 14_host_protocol.md | DC1 | Vendor key, stored at manufacture. -/
  vendorKey : Nat := 1
  /-- 256 x 2 | R513, R533 19_start_modes_config.md | DC1 | public part of the module key, set at manufacture. -/
  moduleKey : Nat × Nat := (0, 0)
  /-- 256 x 2 | R537, R556 20_update.md | DC1 | Caerzen firmware key, stored at manufacture. -/
  updKey : Nat × Nat := (0, 0)
  /-- 8 | R517 19_start_modes_config.md | spec (none) | discovery runs until this frame. -/
  discover : Option Nat := none
  /-- 64 | R141, R317 11_safety_functions.md | spec | module time at the end of Start. -/
  endT : Nat := 0
  deriving DecidableEq, Repr

/-- Learned-value record of a string (Tables 7-6, 7-7), with the CRC-32 stored behind it. -/
structure LearnedRec where
  string : Nat := 0
  crc : Nat := 0
  seq : Nat
  frame : Nat
  time : Nat
  ops : Nat
  pc : Nat
  cause : Nat
  branch : Nat
  regime : Nat
  pfw : Bool
  synced : Bool
  chem : Nat
  cells : List Cell
  deriving DecidableEq, Repr

/-- Update part of a manifest (Table 20-2). -/
structure Part where
  code : Nat
  version : Nat
  offset : Nat
  size : Nat
  sha : Nat := 0          -- SHA-256 of the part, as 256 bits
  deriving DecidableEq, Repr

/-- Manifest of an update package (Table 20-1). -/
structure Manifest where
  version : Nat
  level : Nat
  packageLen : Nat
  parts : List Part
  deriving DecidableEq, Repr

/-- Field update (chapter 20). -/
structure UpdState where
  /-- 4 | R557 20_update.md | spec (idle) | update state. -/
  st : Nat := 0
  /-- 1, 1 | R539 20_update.md | DC2 (slot A) | selector in two copies: active slot, trial flag. -/
  selector : Pair (Nat × Bool) := { a := some (1, (0, false)), b := some (0, (0, false)) }
  /-- 32 | R541, R557 20_update.md | DC1 | running manifest. -/
  running : Manifest := { version := 1, level := 0, packageLen := 0, parts := [] }
  /-- 1 | R539, R540 20_update.md | DC2 (slot A) | slot whose set runs. -/
  loaded : Nat := 0
  /-- manifest | R539, R554 20_update.md | DC2 (none) | manifest of a whole package in the inactive slot that is not staged: the former set, or the one rolled back. -/
  other : Option Manifest := none
  /-- manifest | R541 20_update.md | spec (none) | manifest of the staging. -/
  staged : Option Manifest := none
  /-- 13,312 bits | R542 20_update.md | spec (empty) | bitmap of chunks received: their indices, ascending. -/
  got : List Nat := []
  /-- 14,680,064 bytes | R539, R542 20_update.md | DC2 (empty) | chunks written to the inactive slot: index and bytes. -/
  chunks : List (Nat × List (BitVec 8)) := []
  /-- 16 x lines | R539, R544 20_update.md | DC2 (empty) | line tables of parts 1 to 4 written to the inactive slot: one CRC-16 per 64-byte line, in part order. -/
  tables : List Nat := []
  /-- sectors | R541, R542 20_update.md | spec (none erased) | sectors of the inactive slot erased since UPD_BEGIN. -/
  erased : List Nat := []
  /-- 16 | R555 20_update.md | DC2 (0) | security floor in two copies. -/
  floor : Pair Nat := { a := some (1, 0), b := some (0, 0) }
  /-- 64 | R543 20_update.md | spec | time of the last chunk. -/
  chunkAt : Nat := 0
  /-- 64 | R549 20_update.md | spec (none) | activation frame F_a; begin frame of an accepted activation. -/
  actFrame : Option Nat := none
  beginFrame : Option Nat := none
  /-- 1, 1 | R549 20_update.md | spec | the check of F_a - 2 has passed; the writes of F_a - 1 are made. -/
  passed : Bool := false
  saved : Bool := false
  /-- parts | R552 20_update.md | spec (none) | parts that have come up. -/
  up : List Nat := []
  /-- 64 | R552 20_update.md | spec (none) | confirmation deadline. -/
  deadline : Option Nat := none
  /-- 1 | R554 20_update.md | spec | the former set is to run again, or runs after a roll-back that is not yet settled. -/
  rolling : Bool := false
  /-- 16, 16 | R556 20_update.md | spec (the defaults) | upd.fw.lead in frames and upd.confirm.t in ms, as the last activation took them. -/
  lead : Nat := 20
  confirmMs : Nat := 1000
  /-- 1 | R552 20_update.md | spec | the set is confirmed and noted strings wait for reconnection. -/
  reconnect : Bool := false
  deriving DecidableEq, Repr

/-- Self-test record of Table 21-6. -/
structure BistRec where
  seq : Nat
  slice : Nat
  target : Nat
  outcome : Nat
  detail : Nat
  ops : Nat
  time : Nat
  pc : Nat
  deriving DecidableEq, Repr

/-- Built-in self-test (chapter 21). -/
structure BistState where
  /-- 5 | R559 21_self_test.md | DC1 (0) | slice pointer. -/
  ptr : Nat := 0
  /-- 32 x 4 | R571 21_self_test.md | spec (0) | Hive cycles, slices failed, skipped, deferred or aborted. -/
  cycles : Nat := 0
  failed : Nat := 0
  skipped : Nat := 0
  deferred : Nat := 0
  /-- 256 records | R570 21_self_test.md | spec (empty) | records, newest first. -/
  ring : List BistRec := []
  /-- 32 | R570 21_self_test.md | spec (0) | last record seq. -/
  seq : Nat := 0
  /-- slice | R564 21_self_test.md | spec (none) | Hive slice that runs. -/
  running : Option Nat := none
  /-- frame | R559 21_self_test.md | spec (none) | frame whose window has had its slice. -/
  lastFrame : Option Nat := none
  /-- block | R568 21_self_test.md | spec (none) | deep test that runs: block and end time. -/
  deep : Option (Nat × Nat) := none
  deriving DecidableEq, Repr

/-- Supplies and budget arbiter (chapter 22). -/
structure PwrState where
  /-- mV x 5 | R572, R585 22_power.md | DC1 (nominal) | VMAIN, VGUARD, VIO, VIO18, VCORE at the last sample. -/
  mv : List Nat := [12000, 3300, 3300, 1800, 800]
  /-- 5 | R585 22_power.md | spec (0) | supplies out of range. -/
  out : BitVec 5 := 0
  /-- 64 | R42, R585 22_power.md | spec (none) | frame of the last supply sample. -/
  sampledAt : Option Nat := none
  /-- 1 x 2 | R327, R572 22_power.md | DC1 (present) | VMAIN above the reset level; VGUARD present. -/
  vmain : Bool := true
  vguard : Bool := true
  /-- mW | R576 22_power.md | DC1 | p_idle in force, measured input power. -/
  pIdle : Int := 0
  pIdleNew : Int := 0
  input : Nat := 0
  /-- mW x 4 | R575, R576 22_power.md | DC1 | requests and grants of P0 to P3. -/
  req : List Nat := [0, 0, 0, 0]
  grant : List Nat := [0, 0, 0, 0]
  /-- 64 | R580 22_power.md | spec (none) | counted edge of the power-fail sequence that runs. -/
  seqAt : Option Nat := none
  /-- 32 x 3 | R585 22_power.md | spec (0) | power-fail warnings, grants cut, missed end times. -/
  pfw : Nat := 0
  cut : Nat := 0
  missed : Nat := 0
  /-- 7 | R29, R585 22_power.md | spec | redundancy lost. -/
  lost : BitVec 7 := 0
  /-- 12 x 1 | R574 22_power.md | spec (D0, D1 on) | domain states. -/
  domains : BitVec 12 := 3
  /-- mW x 12 | R585 22_power.md | DC1 | domain power, estimated. -/
  domPower : List Nat := List.replicate 12 0
  deriving DecidableEq, Repr

/-- Format of a CAN frame sent (Table 15-1): 29-bit identifier, CAN FD, data phase at the data rate (BRS), and ESI, set by an error-passive sender. -/
structure CanFormat where
  ext : Bool
  fd : Bool
  brs : Bool
  esi : Bool
  deriving DecidableEq, Repr

/-- What the block sends or does at its pins; State.out lists it, newest first (model's own field, log 4). -/
inductive Output where
  /-- A PSDU sent on a string in a slot of Table 4-3 (R70, R77): beacon, join answer or bulk-down frame. -/
  | spami (string slot : Nat) (psdu : List (BitVec 8))
  /-- A transceiver configured for its channel and preamble code (R68, R110). -/
  | radioConfig (string channel code : Nat)
  /-- UWBn_RST_N held low for 1 ms from a time on (R110). -/
  | radioReset (string time : Nat)
  /-- An FHP message (R387 to R389, R407): where it goes, and its bytes with the tag. -/
  | fhp (addr port : Nat) (bytes : List (BitVec 8))
  /-- A PTP message (R361, R363): 0 Sync, 1 Follow_Up, 3 Pdelay_Req; port, sequence, time as on the wire. -/
  | ptp (kind port seq : Nat) (time : WireTime)
  /-- An Announce (R363, Table 13-2): port, sequence, the data set announced (priority1, clockClass, clockAccuracy, offsetScaledLogVariance, priority2, clock identity, steps removed) and timeSource. -/
  | announce (port seq : Nat) (rank : List Nat) (timeSource : Nat)
  /-- The switching edges that a turning point of a string's carriers sets (R252): output 0 HA, 1 LA, 2 HB, 3 LB, its new level, module time in units of 31.25 ps. -/
  | pwm (string : Nat) (edges : List (Nat × Bool × Nat))
  /-- An FSL STATUS PDU sent by UDP (R351, R352): source port, IPv4 address and port of its destination. -/
  | fslStatus (source addr port : Nat) (bytes : List (BitVec 8))
  /-- A CAN frame sent on a port (R417, R421): its format, identifier and data. -/
  | canFrame (port : Nat) (format : CanFormat) (id : Nat) (data : List (BitVec 8))
  /-- An ARP reply, an ARP request, an ICMP echo reply (R386), a PRP supervision frame (R385) by LAN. -/
  | arpReply (addr : Nat)
  | arpQuery (addr : Nat)
  | echoReply (addr : Nat) (bytes : List (BitVec 8))
  | prp (lan : Nat)
  /-- The module restarts (R515), with its cause. -/
  | restart (cause : Nat)
  deriving DecidableEq, Repr

/-- Stops of a step. No rule of the spec makes the block stop: the type has no constructor, so no meaning can raise a fault. -/
inductive Fault where
  deriving DecidableEq, Repr

/-- Refusals of a step. -/
inductive Refusal where
  /-- Raised by Dispatch only, for a command that has no meaning yet (safe: the machine stops). -/
  | notModelled (mnemonic : String)
  deriving DecidableEq, Repr

/-- What the blocks that read the Comb find in the published frame (R18): the state that each writer closed its area with, in the units of its own work. An area that was late holds what it held before, aged by its missed refreshes (Table 2-6). -/
structure CombView where
  /-- 2,304 cells | R18, R47 01_architecture.md | spec (none published) | cells as closed for the published frame, area 0x04. -/
  cells : List Cell := List.replicate 2304 {}
  /-- 4 strings | R18, R47 01_architecture.md | spec (none published) | strings as closed for the published frame, area 0x02. -/
  est : List EstStr := List.replicate 4 {}
  /-- 144 foragers | R18, R47 01_architecture.md | spec (none published) | bricks as closed for the published frame, areas 0x03 and 0x0B. -/
  forgs : List Forager := List.replicate 144 {}
  /-- thermal | R18, R47 01_architecture.md | spec (none published) | temperatures as closed for the published frame, area 0x07. -/
  therm : ThermState := {}
  /-- 4 loops | R18, R47 01_architecture.md | spec (none published) | loops as closed for the published frame, area 0x05. -/
  loops : List LoopView := List.replicate 4 {}
  deriving DecidableEq, Repr

/-- One image buffer of the Comb (R48, R51): header fields and slots. -/
structure Image where
  /-- 64 | R51 03_comb.md | spec (none published) | frame number N. -/
  frame : Nat
  /-- 64 | R51 03_comb.md | - | module time of the sample instant. -/
  sampleTime : Nat
  /-- 64 | R51 03_comb.md | - | module time of publication. -/
  publishTime : Nat
  /-- 32 | R51, R54 03_comb.md | - | version of the item map used. -/
  mapVersion : Nat
  /-- 8 | R51 03_comb.md | - | header byte 0x03: new_map, holdover, late_area. -/
  flags : BitVec 8
  /-- 16 | R51 03_comb.md | - | closed_areas. -/
  closed : BitVec 16
  /-- 16 | R51, R610 03_comb.md | - | position and block. -/
  place : Nat × Nat
  /-- keys | R53 03_comb.md | - | items in map order: key and type code. -/
  keys : List (Nat × Nat)
  /-- slots | R52 03_comb.md | - | one item per key, in map order. -/
  items : List Item
  deriving DecidableEq, Repr

/-- The Comb (chapter 03). -/
structure CombState where
  /-- image | R48 03_comb.md | spec (none) | published buffer. -/
  published : Option Image := none
  /-- image | R48 03_comb.md | spec (none) | previous buffer. -/
  previous : Option Image := none
  /-- image | R48 03_comb.md | spec (none) | writer buffer; no reader sees it. -/
  writer : Option Image := none
  /-- view | R18 01_architecture.md | spec (none) | the published frame as the module's own blocks read it. -/
  seen : CombView := {}
  /-- items | R62 03_comb.md | spec (none) | values of state items in force at the sample instant of the running frame. -/
  snap : List (Nat × Item) := []
  /-- items | R62 03_comb.md | spec (none) | the same for the frame now to be published. -/
  snapPrev : List (Nat × Item) := []
  /-- 64 | R51 03_comb.md | DC1 | module time of the sample instant of the last frames: frame, ns; newest first. -/
  sampleTimes : List (Nat × Nat) := []
  /-- 16 | R45, R51 03_comb.md | spec | areas not closed for the frame to be published. -/
  late : BitVec 16 := 0
  /-- 1 | R51 03_comb.md | spec | holdover at the sample instant of the running frame and of the one before. -/
  holdoverAt : Bool × Bool := (false, false)
  /-- 32 | R54 03_comb.md | DC1 | item map version in force and map of the version before. -/
  mapVersion : Nat := 0
  /-- 24,568 slots | R53, R54 03_comb.md | spec (empty) | item map in force: key, type code, refresh. -/
  map : List (Nat × Nat × Nat) := []
  /-- map | R54 03_comb.md | spec (none) | previous item map with its version. -/
  prevMap : Option (Nat × List (Nat × Nat × Nat)) := none
  /-- 1 | R51 03_comb.md | spec | the last published frame used another map version than the one now in force. -/
  newMap : Bool := false
  /-- 32 | R66 03_comb.md | spec | expired reads since Start. -/
  expired : Nat := 0
  /-- 32 | R66 03_comb.md | spec | line repairs since Start. -/
  repairs : Nat := 0
  /-- lines | R64 03_comb.md | spec (none) | failed lines: buffer (0 published, 1 previous, 2 writer) and line number. -/
  failedLines : List (Nat × Nat) := []
  deriving DecidableEq, Repr

/-- The whole block, every piece of state the spec gives it, and the queue of waiting commands. -/
structure State where
  /-- time unit and sample placement (chapters 02, 13). -/
  time : TimeState := {}
  /-- the Comb (chapter 03). -/
  comb : CombState := {}
  /-- four Spami networks (chapter 04), strings 0 to 3. -/
  links : List LinkStr := List.replicate 4 {}
  /-- 8 | R90 04_spami_link.md | spec (0, none issued) | tag counter of the beacon commands. -/
  tagCtr : Nat := 0
  /-- 144 foragers (chapters 04, 05), instance = string x 36 + brick. -/
  forgs : List Forager := List.replicate 144 {}
  /-- 2,304 cells (chapters 05 to 07), instance = string x 576 + position. -/
  cells : List Cell := List.replicate 2304 {}
  /-- Estimator, strings 0 to 3 (chapter 06). -/
  est : List EstStr := List.replicate 4 {}
  /-- surveys (chapter 07). -/
  surv : SurvState := {}
  /-- learned-value records in MRAM, two copies per string (R221). -/
  learned : List (Pair LearnedRec) := List.replicate 4 {}
  /-- Regulator (chapter 08). -/
  reg : RegState := {}
  /-- dispatch, sharing and connection (chapter 09). -/
  disp : DispState := {}
  /-- thermal (chapter 10). -/
  therm : ThermState := {}
  /-- the Guard and the output permit stage (chapter 11). -/
  guard : Guard := {}
  /-- the safety core and the FSL endpoint (chapters 11, 12). -/
  core : SafeCore := {}
  /-- host interface (chapter 14). -/
  host : HostState := {}
  /-- CAN (chapter 15). -/
  can : CanState := {}
  /-- cyclic program (chapter 16). -/
  prog : ProgState := {}
  /-- recorder (chapter 17). -/
  recorder : RecState := {}
  /-- memory integrity (chapter 18). -/
  mem : MemState := {}
  /-- start, modes, configuration (chapter 19). -/
  boot : BootState := {}
  /-- field update (chapter 20). -/
  upd : UpdState := {}
  /-- self-test (chapter 21). -/
  bist : BistState := {}
  /-- supplies and budget arbiter (chapter 22). -/
  pwr : PwrState := {}
  /-- Sent messages and pin actions, newest first. The model's own field; reset value empty (log 4). -/
  out : List Output := []
  /-- Index of the next free value (log 3). The model's own field, not the spec's; reset value 0 is a DESIGN CHOICE and no statement rests on it. -/
  freeCtr : Nat := 0
  /-- Waiting commands, first in first out. -/
  pending : List Instr := []
  deriving DecidableEq, Repr

/-- The block right after reset: POR_N low, every field at the value its line of INVENTORY.md gives (logs 1 and 2 name the values that are the model's own). -/
def State.reset : State := {}


end Sys2Proof.Machine
end

