-- ==== Sys2Proof/Machine/Ops.lean ====
section
/-!
DEFINITION. Ops: the named operations over the state that the meanings share: replacing one part of the state, reading a running
parameter, and raising and clearing events (R479, R480, R613).
-/
namespace Sys2Proof.Machine

/-! Replacing one part of the state. -/

def State.modTime (f : TimeState → TimeState) (s : State) : State := { s with time := f s.time }
def State.modComb (f : CombState → CombState) (s : State) : State := { s with comb := f s.comb }
def State.modLinks (f : List LinkStr → List LinkStr) (s : State) : State := { s with links := f s.links }
def State.modTagCtr (f : Nat → Nat) (s : State) : State := { s with tagCtr := f s.tagCtr }
def State.modForgs (f : List Forager → List Forager) (s : State) : State := { s with forgs := f s.forgs }
def State.modCells (f : List Cell → List Cell) (s : State) : State := { s with cells := f s.cells }
def State.modEst (f : List EstStr → List EstStr) (s : State) : State := { s with est := f s.est }
def State.modSurv (f : SurvState → SurvState) (s : State) : State := { s with surv := f s.surv }
def State.modLearned (f : List (Pair LearnedRec) → List (Pair LearnedRec)) (s : State) : State := { s with learned := f s.learned }
def State.modReg (f : RegState → RegState) (s : State) : State := { s with reg := f s.reg }
def State.modDisp (f : DispState → DispState) (s : State) : State := { s with disp := f s.disp }
def State.modTherm (f : ThermState → ThermState) (s : State) : State := { s with therm := f s.therm }
def State.modGuard (f : Guard → Guard) (s : State) : State := { s with guard := f s.guard }
def State.modCore (f : SafeCore → SafeCore) (s : State) : State := { s with core := f s.core }
def State.modHost (f : HostState → HostState) (s : State) : State := { s with host := f s.host }
def State.modCan (f : CanState → CanState) (s : State) : State := { s with can := f s.can }
def State.modProg (f : ProgState → ProgState) (s : State) : State := { s with prog := f s.prog }
def State.modRecorder (f : RecState → RecState) (s : State) : State := { s with recorder := f s.recorder }
def State.modMem (f : MemState → MemState) (s : State) : State := { s with mem := f s.mem }
def State.modBoot (f : BootState → BootState) (s : State) : State := { s with boot := f s.boot }
def State.modUpd (f : UpdState → UpdState) (s : State) : State := { s with upd := f s.upd }
def State.modBist (f : BistState → BistState) (s : State) : State := { s with bist := f s.bist }
def State.modPwr (f : PwrState → PwrState) (s : State) : State := { s with pwr := f s.pwr }
def State.modOut (f : List Output → List Output) (s : State) : State := { s with out := f s.out }
def State.modFreeCtr (f : Nat → Nat) (s : State) : State := { s with freeCtr := f s.freeCtr }
def State.modPending (f : List Instr → List Instr) (s : State) : State := { s with pending := f s.pending }

/-- The `n`-th element replaced by its image. -/
def updAt {α : Type} (l : List α) (n : Nat) (f : α → α) : List α := l.modify n f

def State.link (s : State) (n : Nat) : LinkStr := s.links.getD n {}
def State.forg (s : State) (j : Nat) : Forager := s.forgs.getD j {}
def State.cell (s : State) (c : Nat) : Cell := s.cells.getD c {}
def State.estr (s : State) (n : Nat) : EstStr := s.est.getD n {}
def State.loop (s : State) (n : Nat) : Loop := s.reg.loops.getD n {}
def State.dstr (s : State) (n : Nat) : DispStr := s.disp.strs.getD n {}
def State.tstr (s : State) (n : Nat) : ThermStr := s.therm.strs.getD n {}

def State.updLink (n : Nat) (f : LinkStr → LinkStr) (s : State) : State := s.modLinks (updAt · n f)
def State.updForg (j : Nat) (f : Forager → Forager) (s : State) : State := s.modForgs (updAt · j f)
def State.updCell (c : Nat) (f : Cell → Cell) (s : State) : State := s.modCells (updAt · c f)
def State.updEst (n : Nat) (f : EstStr → EstStr) (s : State) : State := s.modEst (updAt · n f)
def State.updLoop (n : Nat) (f : Loop → Loop) (s : State) : State :=
  s.modReg fun r => { r with loops := updAt r.loops n f }
def State.updLane (l : Nat) (f : Lane → Lane) (s : State) : State :=
  s.modReg fun r => { r with lanes := updAt r.lanes l f }
def State.updDisp (n : Nat) (f : DispStr → DispStr) (s : State) : State :=
  s.modDisp fun d => { d with strs := updAt d.strs n f }
def State.updTherm (n : Nat) (f : ThermStr → ThermStr) (s : State) : State :=
  s.modTherm fun t => { t with strs := updAt t.strs n f }

/-! Outcomes of a host command. -/

/-- What a command of Table 14-6 or 14-7 gives: the state after it, the status of Table 14-3 and the detail (R389). -/
abbrev CmdOut := State × Nat × Nat

/-- Accepted: status OK. -/
def accept (s : State) : CmdOut := (s, 0, 0)
/-- Answered with a status and no effect. -/
def answer (status detail : Nat) (s : State) : CmdOut := (s, status, detail)

/-- What an opcode of Table 14-6 gives: the state after it, the status, the detail, and the rest of the reply payload (R389, R401). -/
abbrev OpOut := State × Nat × Nat × List Byte

def opOk (s : State) (bs : List Byte) : OpOut := (s, 0, 0, bs)
def opFail (status detail : Nat) (s : State) : OpOut := (s, status, detail, [])

/-- A message or pin action leaves the block. -/
def State.send (o : Output) (s : State) : State := s.modOut (o :: ·)

/-- The next value drawn at random, and the state after drawing it (log 3). -/
def State.draw (s : State) : Nat × State := (Config.random s.freeCtr, s.modFreeCtr (· + 1))

/-! Running parameters (R409, R527). -/

def State.par (s : State) (p : PName) (i : Nat := 0) (j : Nat := 0) : Int := paramIn s.boot.run.params { p := p, i := i, j := j }
def State.parN (s : State) (p : PName) (i : Nat := 0) (j : Nat := 0) : Nat := (s.par p i j).toNat
def State.parB (s : State) (p : PName) (i : Nat := 0) (j : Nat := 0) : Bool := s.par p i j != 0
/-- A float32 parameter as the exact value it stands for. -/
def State.parR (s : State) (p : PName) (i : Nat := 0) : Rat := f32.rat (s.parN p i)

/-- Whether string n is in the bit map of a parameter. -/
def State.parBit (s : State) (p : PName) (n : Nat) : Bool := bit (s.parN p) n

/-! Modes and time. -/

/-- Code of a mode (Table 19-10): 0 Start to 5 Lock-out. -/
def modeCode : Mode → Nat
  | .start => 0 | .commission => 1 | .standby => 2 | .operate => 3 | .service => 4 | .lockout => 5

def modeOfCode : Nat → Option Mode
  | 0 => some .start | 1 => some .commission | 2 => some .standby | 3 => some .operate | 4 => some .service | 5 => some .lockout
  | _ => none

/-- A parameter of mode bits admits the mode in force. -/
def State.modeIn (s : State) (p : PName) : Bool := bit (s.parN p) (modeCode s.boot.mode)

/-- Lengths of R10 in nanoseconds. -/
def tickNs : Nat := 20000
def frameNs : Nat := 10000000
def roundNs : Nat := 1000000000

/-- A change of the plant with the owner that it has (R25). -/
def State.because (p : Plant) (o : Owner) (s : State) : State :=
  s.modRecorder fun r => { r with reasons := (p, o, s.time.now) :: r.reasons.filter (·.1 != p) }

/-- The module runs: Start has ended, or is under way, and nothing holds the main die (R515, R573). -/
def State.up (s : State) : Bool := s.boot.phase == .run || s.boot.phase == .start

def State.running (s : State) : Bool := s.boot.phase == .run

/-- Module time moves on to an instant, never back (R360). -/
def State.at_ (t : Nat) (s : State) : State := s.modTime fun x => { x with now := max x.now t }

/-- Round position r of the running frame (R31). -/
def State.roundPos (s : State) : Nat := s.time.frame % 100

/-- Module time of the boundary of the running frame (R31). -/
def State.frameStart (s : State) : Nat := s.time.frame * frameNs

/-- Work w of Table 2-4 may be done in the running frame: it comes once. -/
def State.workDue (s : State) (w : Nat) : Bool := !s.time.hadWork.contains w
/-- Work w of the running frame is done. -/
def State.workDone (w : Nat) (s : State) : State := s.modTime fun x => { x with hadWork := w :: x.hadWork }

/-! Events. -/

/-- Codes whose Cleared when column reads "recorded only" (event tables of all chapters). -/
def recordedOnly0 : List Nat := [0x2005, 0x2006, 0x200B, 0x200C, 0x200E, 0x1005, 0x100B, 0x100C, 0x100D, 0x100E, 0x3003, 0x3004, 0x3005, 0x3006, 0x3009, 0x300B, 0x300C, 0x3011, 0x3012, 0x3020, 0x3021, 0x3022, 0x3023, 0x3026, 0x3027, 0x3028, 0x3029, 0x302D, 0x302E, 0x302F, 0x4001, 0x4003, 0x4004, 0x4005, 0x400E, 0x400F, 0x4021, 0x4022, 0x4025, 0x4026, 0x4027, 0x4028, 0x402A, 0x402B, 0x402C, 0x402D, 0x402F, 0xA014, 0xA022, 0x5003, 0x5004, 0x5005, 0x5006, 0x5007, 0x5008, 0x500F, 0x5010, 0x5011, 0x5025, 0x5026]
def recordedOnly1 : List Nat := [0x6002, 0x6004, 0x6006, 0x6009, 0x600A, 0x600B, 0x600C, 0x6020, 0x6021, 0x6022, 0x6023, 0x6032, 0x6036, 0x6037, 0x603B, 0x603C, 0x603E, 0x7001, 0x7003, 0x7004, 0x7005, 0x7007, 0x7008, 0x7009, 0x700A, 0x700C, 0x700D, 0x8041, 0x8042, 0x8044, 0x8001, 0x8002, 0x8003, 0x8004, 0x8005, 0x8006, 0x8007, 0x8008, 0x800A, 0x800B, 0x8010, 0x8011, 0x8012, 0x9001, 0x9002, 0x9003, 0x9004, 0x9005, 0x9006, 0x9008, 0x9009, 0x900A, 0x900B, 0x900C, 0x900D, 0x900F, 0x9030, 0x9031, 0x9032, 0x9033]
def recordedOnly2 : List Nat := [0x9035, 0x9037, 0x9038, 0x9039, 0x903B, 0x903C, 0x8051, 0x8052, 0x8053, 0x8054, 0xA044]
def recordedOnly : List Nat := recordedOnly0 ++ recordedOnly1 ++ recordedOnly2

/-- Class of an event code: its top nibble (R479). -/
def evClass (code : Nat) : Nat := code / 0x1000 % 16

/-- A raise in the ring of its class (R479, R480): merged into the newest record of the same code and argument, else the next slot. The second result says that the oldest record was overwritten. -/
def recordRaise (only : Bool) (code arg t : Nat) (r : RecState) : RecState × Bool :=
  let k := evClass code - 1
  let ring := r.rings.getD k []
  match ring with
  | e :: es =>
    if e.code == code && e.arg == arg then
      let e' := { e with repeat_ := min (e.repeat_ + 1) 0xFFFFFFFF, active := !only, lastT := t, lastOps := r.ops, lastPc := r.pc }
      ({ r with rings := updAt r.rings k fun _ => e' :: es }, false)
    else
      let q := r.seq.getD k 0 + 1
      let n : EvRec := { seq := q, code := code, active := !only, arg := arg, repeat_ := 0, firstT := t, firstOps := r.ops, firstPc := r.pc, lastT := t, lastOps := r.ops, lastPc := r.pc }
      let above := decide (3840 ≤ ring.length)
      ({ r with rings := updAt r.rings k fun _ => (n :: ring).take 3840
                seq := updAt r.seq k fun _ => q
                head := updAt r.head k fun h => (h + 1) % 3840
                overwritten := if above then r.overwritten + 1 else r.overwritten
                overRound := r.overRound || above }, above)
  | [] =>
    let q := r.seq.getD k 0 + 1
    let n : EvRec := { seq := q, code := code, active := !only, arg := arg, repeat_ := 0, firstT := t, firstOps := r.ops, firstPc := r.pc, lastT := t, lastOps := r.ops, lastPc := r.pc }
    ({ r with rings := updAt r.rings k fun _ => [n]
              seq := updAt r.seq k fun _ => q
              head := updAt r.head k fun h => if r.seq.getD k 0 == 0 then 0 else (h + 1) % 3840 }, false)

/-- Marks an event as standing raised unless its table says it is recorded only (R480). -/
def markRaised (only : Bool) (code arg : Nat) (r : RecState) : RecState :=
  if only || r.raised.contains (code, arg) then r else { r with raised := (code, arg) :: r.raised }

/-- A raise at the recorder; an overwrite raises 0x8043 in its turn (R479). -/
def raiseRec (only : Bool) (code arg t : Nat) (r : RecState) : RecState :=
  let r1 := recordRaise only code arg t r
  let r2 := markRaised only code arg r1.1
  if r1.2 then
    let r3 := recordRaise false 0x8043 0 t r2
    markRaised false 0x8043 0 (if r3.2 then (recordRaise false 0x8043 0 t r3.1).1 else r3.1)
  else r2

/-- Raises an event with its argument (R479, R613). -/
def State.raise (code arg : Nat) (s : State) : State :=
  s.modRecorder (raiseRec (recordedOnly.contains code) code arg s.time.now)

/-- Raises an event that is recorded only in this use of its code (fourth row of Table 6-6). -/
def State.raiseOnly (code arg : Nat) (s : State) : State :=
  s.modRecorder (raiseRec true code arg s.time.now)

/-- Raises an event that clears after a round without it: its place in the round is noted (event tables). -/
def State.raiseRound (code arg : Nat) (s : State) : State :=
  (s.raise code arg).modRecorder fun r =>
    if r.roundCodes.contains (code, arg) then r else { r with roundCodes := (code, arg) :: r.roundCodes }

/-- An event clears: active of the newest record of its code and argument goes to 0 (R480). -/
def clearRec (code arg : Nat) (r : RecState) : RecState :=
  let k := evClass code - 1
  let rec go : List EvRec → List EvRec
    | [] => []
    | e :: es => if e.code == code && e.arg == arg then { e with active := false } :: es else e :: go es
  { r with rings := updAt r.rings k go, raised := r.raised.filter (· != (code, arg)) }

def State.clear (code arg : Nat) (s : State) : State :=
  if s.recorder.raised.contains (code, arg) then s.modRecorder (clearRec code arg) else s

/-- Clears an event for every argument under which it stands raised. -/
def State.clearAll (code : Nat) (s : State) : State :=
  (s.recorder.raised.filter (·.1 == code)).foldl (fun s e => s.clear e.1 e.2) s

def State.isRaised (code arg : Nat) (s : State) : Bool := s.recorder.raised.contains (code, arg)

/-- Refused by a rule of the owning chapter: the event is raised and answered as detail (R402). -/
def refuse (code arg : Nat) (s : State) : CmdOut := (s.raise code arg, 8, code)

/-- An event argument that carries a reason, cause or function in bits 31:24 (R613). -/
def evArg (cond obj : Nat) : Nat := cond * 0x1000000 + obj % 0x1000000

/-- An event that stands raised while a condition holds: raised when the condition begins to hold, cleared when it ends (log 7). -/
def State.stand (code arg : Nat) (on : Bool) (s : State) : State :=
  if on then (if s.isRaised code arg then s else s.raise code arg) else s.clear code arg

/-- Event of scheduled work that missed its end time, for the subsystem of an event class (R45): the event tables give it no code, so the code is a free value of the class (DESIGN CHOICE, log 37). -/
def overrunCode (cls : Nat) : Nat := cls * 0x1000 + Config.openNat (40 + cls) % 0x1000

/-- Work of a subsystem has missed its end time: recorded, and counted among the missed end times (R45, R585). -/
def State.overrun (cls arg : Nat) (s : State) : State :=
  (s.modPwr fun p => { p with missed := p.missed + 1 }).raiseOnly (overrunCode cls) arg

/-- Folds an operation over a list of objects. -/
def forEach {α : Type} (l : List α) (f : α → State → State) (s : State) : State := l.foldl (fun s a => f a s) s

end Sys2Proof.Machine
end

