-- ==== Sys2Proof/Machine/Comb.lean ====
section
/-!
DEFINITION. Comb: the layout of an image, items of lines that fail their check, missed refreshes (R51 to R53, R60, R64), and the published
frame as the blocks of the module read it (R13, R18).
-/
namespace Sys2Proof.Machine

/-! Image layout (R51 to R53). -/

/-- Slots of an item of a type: two for 64 bits (R52). -/
def slotsOf (typ : Nat) : Nat := if typ == 4 || typ == 8 then 2 else 1

/-- Items of an image with key, type and first slot. -/
def layOut : Nat → List (Nat × Nat) → List Item → List (Nat × Nat × Nat × Item)
  | _, [], _ => []
  | k, (key, typ) :: ks, its => (key, typ, k, its.headD {}) :: layOut (k + slotsOf typ) ks (its.drop 1)

def imageItems (i : Image) : List (Nat × Nat × Nat × Item) := layOut 0 i.keys i.items

def slotCount (i : Image) : Nat := (i.keys.map fun k => slotsOf k.2).sum

/-- Lines of 64 bytes that a range of slots touches; the header is line 0. -/
def linesOf (slot n : Nat) : List Nat := [1 + slot / 8, 1 + (slot + n - 1) / 8].eraseDups

/-! Lines that fail (R64). -/

/-- Buffer n: 0 published, 1 previous. -/
def buffer (s : State) (n : Nat) : Option Image := if n == 0 then s.comb.published else s.comb.previous

def lineBad (s : State) (buf slot n : Nat) : Bool := (linesOf slot n).any fun l => s.comb.failedLines.contains (buf, l)

/-- Refresh period of an item in the map in force or the one before it: 0 frame, 1 round, 2 event. -/
def refreshOf (s : State) (key : Nat) : Nat :=
  match s.comb.map.find? (·.1 == key) with
  | some e => e.2.2
  | none => match s.comb.prevMap with | some (_, m) => ((m.find? (·.1 == key)).map (·.2.2)).getD 0 | none => 0

/-- Quality after a missed refresh, for an item of a refresh period whose age has become a: Held while aged under 3 periods and Stale after; an item that is refreshed by event stays as its writer left it (Tables 2-6, 3-6). -/
def missedOnce (per : Nat) (a : Option Nat) (q : Quality) : Quality :=
  let m : Nat := match a with | some n => if per == 1 then n / 100 else n | none => 3
  match q with
  | .good => if per == 2 || (per == 1 && m == 0) then .good else if m < 3 || per == 0 then .held else .stale
  | .held => if per == 2 || m < 3 then .held else .stale
  | .missing => if m < 3 then .missing else .stale
  | q => q

/-- An item one or more frames after the frame that published it, its refresh missed (R45, R64). -/
def missedItem (per d : Nat) (it : Item) : Item := let a := it.age.map (· + d); { it with age := a, q := missedOnce per a it.q }

/-- An item as it is served from buffer buf: from the other buffer when its line has failed, Invalid when no intact copy exists. -/
def serveItem (s : State) (buf : Nat) (img : Image) (e : Nat × Nat × Nat × Item) : Item :=
  if !lineBad s buf e.2.2.1 (slotsOf e.2.1) then e.2.2.2
  else
    let lost : Item := { val := 0, q := .invalid, age := e.2.2.2.age }
    match buffer s (1 - buf) with
    | none => lost
    | some o => match (imageItems o).find? (·.1 == e.1) with
      | none => lost
      | some x =>
        if lineBad s (1 - buf) x.2.2.1 (slotsOf x.2.1) then lost
        else
          missedItem (refreshOf s e.1) (max img.frame o.frame - min img.frame o.frame) x.2.2.2

/-! The published frame as the module's own blocks read it (R13, R18, R48). -/

/-- An item of the published frame, served under R64 where its line has failed. -/
def seenItem (s : State) (key : Nat) (it : Item) : Item :=
  match s.comb.published with
  | none => it
  | some p => match (imageItems p).find? (·.1 == key) with
    | some e => if lineBad s 0 e.2.2.1 (slotsOf e.2.1) then serveItem s 0 p e else it
    | none => it

/-- A measured value in 10 mA or 10 mV whose item is served under R64. -/
def seenMeas (s : State) (key : Nat) (v : Option Rat) : Option Rat :=
  let it := seenItem s key {}
  match s.comb.published with
  | none => v
  | some p => match (imageItems p).find? (·.1 == key) with
    | some e => if lineBad s 0 e.2.2.1 (slotsOf e.2.1) then (if it.q == .invalid then none else some ((it.val : Rat) / 100)) else v
    | none => v

/-- The state as the published frame shows it to a reader that is not its writer: cells, strings, foragers, temperatures and measurements as their areas were closed, items of failed lines as they are served. -/
def State.asSeen (s : State) : State :=
  let v := s.comb.seen
  let bad := s.comb.failedLines.any (·.1 == 0)
  let cell (c : Nat) (x : Cell) : Cell := { x with v := seenItem s (0x04000010 + 0x1000 * c) x.v }
  let str (n : Nat) (e : EstStr) : EstStr :=
    { e with iItem := seenItem s (0x02000011 + 0x1000 * n) e.iItem, aItem := seenItem s (0x02000012 + 0x1000 * n) e.aItem, bItem := seenItem s (0x02000013 + 0x1000 * n) e.bItem }
  let temp (n : Nat) (x : ThermStr) : ThermStr :=
    { x with tMax := seenItem s (0x07010010 + 0x1000 * n) x.tMax, tMin := seenItem s (0x07010011 + 0x1000 * n) x.tMin }
  let loop (n : Nat) (l : LoopView) : LoopView :=
    { l with i := seenMeas s (0x05000015 + 0x1000 * n) l.i, vs := seenMeas s (0x0500001D + 0x1000 * n) l.vs, vc := seenMeas s (0x0500001E + 0x1000 * n) l.vc
             vb := seenMeas s (0x0500001F + 0x1000 * n) l.vb }
  let view (n : Nat) : LoopView := let l := v.loops.getD n {}; if bad then loop n l else l
  { s with
    cells := if bad then v.cells.mapIdx cell else v.cells
    est := if bad then v.est.mapIdx str else v.est
    forgs := v.forgs
    therm := if bad then { v.therm with strs := v.therm.strs.mapIdx temp } else v.therm
    reg := { s.reg with loops := s.reg.loops.mapIdx fun n l => { l with pub := view n } } }

end Sys2Proof.Machine
end

