-- ==== Sys2Proof/Machine/Permit.lean ====
section
/-!
DEFINITION. Permit: the output permit stage (R17, R323, R325 to R328): permits of the two channels and the outputs that they allow.
-/
namespace Sys2Proof.Machine

/-! Frozen safety parameters (R14, R339). -/

/-- A safety parameter as the Guard holds it; before a set is loaded the Guard grants nothing, and the default stands for it (log 13). -/
def gpar (s : State) (p : PName) (i : Nat := 0) : Int := paramIn (s.guard.params.getD []) { p := p, i := i }
/-- A safety parameter as the safety core holds it. -/
def cpar (s : State) (p : PName) (i : Nat := 0) : Int := paramIn (s.core.params.getD []) { p := p, i := i }

/-- String n is set in safe.strings of the Guard's, and of the safety core's, copy. -/
def guarded (s : State) (n : Nat) : Bool := bit (gpar s .safeStrings).toNat n
def cored (s : State) (n : Nat) : Bool := bit (cpar s .safeStrings).toNat n

/-! Contactor feedback (R314): 0 POS, 1 NEG, 2 PRE. -/

def cfbClosed (s : State) (n k : Nat) : Bool := s.guard.cfb.getD (3 * n + k) false
/-- Positive and negative contactor of string n both show closed. -/
def stringClosed (s : State) (n : Nat) : Bool := cfbClosed s n 0 && cfbClosed s n 1
def gateEn (s : State) (n : Nat) : Bool := s.guard.gate.getD n false
def ctrOut (s : State) (n k : Nat) : Bool := s.guard.ctr.getD (3 * n + k) false

/-- Hive request of contactor k of string n (R17, R283). -/
def ctrReq (s : State) (n k : Nat) : Bool := let d := s.dstr n; match k with | 0 => d.reqPos | 1 => d.reqNeg | _ => d.reqPre

/-! Permits. -/

/-- A deep test of the gate paths holds every permit withdrawn (Table 21-4). -/
def deepGates (s : State) : Bool := match s.bist.deep with | some (b, _) => b == 6 || b == 0 | none => false

/-- The Guard grants string n: its scope and the group have been granted since Start, and the Guard holds no latch of either (R320, R321, R323). -/
def guardPermit (s : State) (n : Nat) : Bool :=
  let g := s.guard
  g.started && !deepGates s && s.pwr.vguard && s.boot.porN && g.granted.getD n false && g.granted.getD 4 false && !(g.latch.getD n {}).on && !(g.latch.getD 4 {}).on

/-- Both permits of string n as the stage counts them (R325, R327). -/
def permits (s : State) (n : Nat) : Bool := guardPermit s n && s.guard.line.getD n false

/-- The conditions of the Estimator's zero count note an output that changed (R161). -/
def noteOutputs (n : Nat) (s : State) : State :=
  s.updEst n fun e => { e with gateLow := e.gateLow && !gateEn s n, ctrOpen := e.ctrOpen && !stringClosed s n }

/-- Since when each contactor output and its feedback have disagreed (SF15, SF16). -/
def noteCtr (now : Nat) (g : Guard) : Guard :=
  { g with cfbDiff := g.cfbDiff.mapIdx fun i d => if g.ctr.getD i false != g.cfb.getD i false then (if d.isSome then d else some now) else none }

/-- Outputs of string n by the truth table (R17, R326, R327): with a permit withdrawn GATE_ENn goes low at once and the contactor outputs stay as requested until they are released; no output turns on. While VMAIN is absent the stage goes by the requests it saw last, until the permits lapse (R327). -/
def stage (n : Nat) (s : State) : State :=
  let p := permits s n
  let old := s.guard
  let dead := !s.pwr.vmain
  let wasOn := gateEn s n || ctrOut s n 0 || ctrOut s n 1 || ctrOut s n 2
  let g : Guard := { old with
    gate := updAt old.gate n fun _ => p && (if dead then gateEn s n else (s.loop n).gateReq)
    ctr := old.ctr.mapIdx fun i b => if i / 3 == n && !dead then (if p then ctrReq s n (i % 3) else b && ctrReq s n (i % 3)) else b
    gateLowAt := updAt old.gateLowAt n fun x => if p then none else if x.isSome then x else if wasOn then some s.time.now else none }
  noteOutputs n (s.modGuard fun _ => noteCtr s.time.now g)

def stageAll (s : State) : State := forEach (List.range 4) stage s

/-- Every output of the stage off at once: VGUARD fails or POR_N goes low (R327, R592). -/
def outputsOff (s : State) : State :=
  s.modGuard fun g => noteCtr s.time.now { g with gate := [false, false, false, false], ctr := List.replicate 12 false, gateLowAt := [none, none, none, none] }

/-- SAFE_OUT_A and SAFE_OUT_B (R328). -/
def safeOutA (s : State) : Bool := s.pwr.vguard && s.guard.started && !(s.guard.latch.getD 4 {}).on
def safeOutB (s : State) : Bool := s.pwr.vguard && s.core.scvOk && !s.core.latch.getD 4 false && s.guard.alive

end Sys2Proof.Machine
end

