-- ==== Sys2Proof/Machine/Sha.lean ====
section
/-!
DEFINITION. Sha: SHA-256 and HMAC-SHA-256 (R388, R396), and the verification of an ECDSA P-256 signature (R513, R537).
What FIPS 180-4, FIPS 186-5 and the HMAC construction contain is PRESUMED (log 44): the spec names them and does not repeat them.
-/
namespace Sys2Proof.Machine

/-! SHA-256. -/

/-- A 32-bit word turned right. -/
def ror (n x : Nat) : Nat := (x >>> n ||| x <<< (32 - n)) % 0x100000000

/-- The constants of SHA-256 in one number, that of the last round lowest. -/
def shaTable : Nat := 0x428a2f9871374491b5c0fbcfe9b5dba53956c25b59f111f1923f82a4ab1c5ed5d807aa9812835b01243185be550c7dc372be5d7480deb1fe9bdc06a7c19bf174e49b69c1efbe47860fc19dc6240ca1cc2de92c6f4a7484aa5cb0a9dc76f988da983e5152a831c66db00327c8bf597fc7c6e00bf3d5a7914706ca63511429296727b70a852e1b21384d2c6dfc53380d13650a7354766a0abb81c2c92e92722c85a2bfe8a1a81a664bc24b8b70c76c51a3d192e819d6990624f40e3585106aa07019a4c1161e376c082748774c34b0bcb5391c0cb34ed8aa4a5b9cca4f682e6ff3748f82ee78a5636f84c878148cc7020890befffaa4506cebbef9a3f7c67178f2

/-- The rounds of one block: how many are left, the 16 words of the schedule that come next, and the working variables; the result packs them, the first highest. -/
def shaRounds : Nat → (w0 w1 w2 w3 w4 w5 w6 w7 w8 w9 w10 w11 w12 w13 w14 w15 a b c d e f g h : Nat) → Nat
  | 0, _, _, _, _, _, _, _, _, _, _, _, _, _, _, _, _, a, b, c, d, e, f, g, h =>
    a <<< 224 ||| b <<< 192 ||| c <<< 160 ||| d <<< 128 ||| e <<< 96 ||| f <<< 64 ||| g <<< 32 ||| h
  | n + 1, w0, w1, w2, w3, w4, w5, w6, w7, w8, w9, w10, w11, w12, w13, w14, w15, a, b, c, d, e, f, g, h =>
    withNat ((h + (ror 6 e ^^^ ror 11 e ^^^ ror 25 e) + ((e &&& f) ^^^ ((0xFFFFFFFF - e) &&& g)) + shaTable >>> (32 * n) % 0x100000000 + w0) % 0x100000000) fun t =>
    withNat ((t + (ror 2 a ^^^ ror 13 a ^^^ ror 22 a) + ((a &&& b) ^^^ (a &&& c) ^^^ (b &&& c))) % 0x100000000) fun x =>
    withNat ((d + t) % 0x100000000) fun y =>
    withNat ((w0 + (ror 7 w1 ^^^ ror 18 w1 ^^^ (w1 >>> 3)) + w9 + (ror 17 w14 ^^^ ror 19 w14 ^^^ (w14 >>> 10))) % 0x100000000) fun w =>
    shaRounds n w1 w2 w3 w4 w5 w6 w7 w8 w9 w10 w11 w12 w13 w14 w15 w x a b c y e f g

/-- Word i of n packed words, the first highest. -/
def wordOf (n m i : Nat) : Nat := (m >>> (32 * (n - 1 - i))) % 0x100000000

/-- Eight words added one by one, each mod 2^32. -/
def addWords (x y : Nat) : Nat := (List.range 8).foldl (fun a i => a <<< 32 ||| (wordOf 8 x i + wordOf 8 y i) % 0x100000000) 0

/-- One block of 512 bits. -/
def shaBlock (h m : Nat) : Nat :=
  let w (i : Nat) (k : Nat → Nat) : Nat := withNat (wordOf 16 m i) k
  let v (i : Nat) (k : Nat → Nat) : Nat := withNat (wordOf 8 h i) k
  w 0 fun w0 => w 1 fun w1 => w 2 fun w2 => w 3 fun w3 => w 4 fun w4 => w 5 fun w5 => w 6 fun w6 => w 7 fun w7 =>
  w 8 fun w8 => w 9 fun w9 => w 10 fun w10 => w 11 fun w11 => w 12 fun w12 => w 13 fun w13 => w 14 fun w14 => w 15 fun w15 =>
  v 0 fun a => v 1 fun b => v 2 fun c => v 3 fun d => v 4 fun e => v 5 fun f => v 6 fun g => v 7 fun x =>
  withNat (shaRounds 64 w0 w1 w2 w3 w4 w5 w6 w7 w8 w9 w10 w11 w12 w13 w14 w15 a b c d e f g x) fun r => addWords h r

/-- Octets as a number, the first highest. -/
def ofBE (bs : List Byte) : Nat := ofLE bs.reverse

/-- A message with its padding: 0x80, zeros, and its length in bits. -/
def shaPad (bs : List Byte) : List Byte :=
  bs ++ [0x80] ++ List.replicate ((119 - bs.length % 64) % 64) 0 ++ toBE 8 (8 * bs.length)

/-- Blocks of a padded message, from the one with the given chaining value on. -/
def shaBlocks : Nat → List Byte → Nat → Nat
  | 0, _, h => h
  | n + 1, bs, h => withNat (ofBE (bs.take 64)) fun m => withNat (shaBlock h m) fun x => shaBlocks n (bs.drop 64) x

/-- SHA-256 as a number of 256 bits. -/
def sha256 (bs : List Byte) : Nat :=
  let p := shaPad bs
  shaBlocks (p.length / 64) p 0x6a09e667bb67ae853c6ef372a54ff53a510e527f9b05688c1f83d9ab5be0cd19

/-- HMAC-SHA-256 under a key of at most 64 octets. -/
def hmac (key msg : List Byte) : List Byte :=
  let k := key ++ List.replicate (64 - key.length) 0
  toBE 32 (sha256 (k.map (· ^^^ 0x5C) ++ toBE 32 (sha256 (k.map (· ^^^ 0x36) ++ msg))))

/-! ECDSA P-256: the field, the order and the base point of the curve, which is y^2 = x^3 - 3x + b. -/

def pP : Nat := 0xffffffff00000001000000000000000000000000ffffffffffffffffffffffff
def pN : Nat := 0xffffffff00000000ffffffffffffffffbce6faada7179e84f3b9cac2fc632551
def pB : Nat := 0x5ac635d8aa3a93e7b3ebbd55769886bc651d06b0cc53b0f63bce3c3e27d2604b
def pGx : Nat := 0x6b17d1f2e12c4247f8bce6e563a440f277037d812deb33a0f4a13945d898c296
def pGy : Nat := 0x4fe342e2fe1a7f9b8ee7eb4a7c0f9e162bce33576b315ececbb6406837bf51f5

/-- Sum, difference and product in the field. -/
def fpAdd (x y : Nat) : Nat := (x + y) % pP
def fpSub (x y : Nat) : Nat := (x + (pP - y)) % pP
def fpMul (x y : Nat) : Nat := x * y % pP

/-- The n low bits of a number, the highest first. -/
def bitList (n x : Nat) : List Bool := ((List.range n).map x.testBit).reverse

/-- A power modulo m, by the bits of the exponent, on top of a. -/
def powMod (m x : Nat) : List Bool → Nat → Nat
  | [], a => a
  | b :: bs, a => withNat (if b then a * a % m * x % m else a * a % m) fun a => powMod m x bs a

/-- Inverse modulo a prime. -/
def invMod (m x : Nat) : Nat := powMod m x (bitList 256 (m - 2)) 1

/-- Twice a point in Jacobian coordinates. -/
def pDouble {α : Type} (x y z : Nat) (k : Nat → Nat → Nat → α) : α :=
  withNat (fpMul z z) fun d => withNat (fpMul y y) fun g => withNat (fpMul x g) fun b =>
  withNat (fpMul 3 (fpMul (fpSub x d) (fpAdd x d))) fun a =>
  withNat (fpSub (fpMul a a) (fpMul 8 b)) fun x3 =>
  withNat (fpSub (fpMul a (fpSub (fpMul 4 b) x3)) (fpMul 8 (fpMul g g))) fun y3 =>
  withNat (fpSub (fpSub (fpMul (fpAdd y z) (fpAdd y z)) g) d) fun z3 => k x3 y3 z3

/-- Sum of two points in Jacobian coordinates; z = 0 is the point at infinity. -/
def pAdd {α : Type} (x y z u v w : Nat) (k : Nat → Nat → Nat → α) : α :=
  if z == 0 then k u v w
  else if w == 0 then k x y z
  else
    withNat (fpMul z z) fun zz => withNat (fpMul w w) fun ww =>
    withNat (fpMul x ww) fun a => withNat (fpMul y (fpMul w ww)) fun s =>
    withNat (fpSub (fpMul u zz) a) fun h => withNat (fpSub (fpMul v (fpMul z zz)) s) fun r =>
    if h == 0 then (if r == 0 then pDouble x y z k else k 1 1 0)
    else
      withNat (fpMul h h) fun hh => withNat (fpMul h hh) fun hhh => withNat (fpMul a hh) fun q =>
      withNat (fpSub (fpSub (fpMul r r) hhh) (fpMul 2 q)) fun x3 =>
      withNat (fpSub (fpMul r (fpSub q x3)) (fpMul s hhh)) fun y3 =>
      withNat (fpMul h (fpMul z w)) fun z3 => k x3 y3 z3

/-- A multiple of the point (u, v) on top of the point (x, y, z), by the bits of the factor. -/
def pMul {α : Type} (u v : Nat) : List Bool → (x y z : Nat) → (Nat → Nat → Nat → α) → α
  | [], x, y, z, k => k x y z
  | b :: bs, x, y, z, k => pDouble x y z fun x y z => if b then pAdd x y z u v 1 fun x y z => pMul u v bs x y z k else pMul u v bs x y z k

/-- A signature r, s over a digest verifies under the key (x, y). -/
def ecdsaOk (x y digest r s : Nat) : Bool :=
  decide (x < pP) && decide (y < pP) && fpMul y y == fpAdd (fpSub (fpMul x (fpMul x x)) (fpMul 3 x)) pB &&
  r != 0 && decide (r < pN) && s != 0 && decide (s < pN) &&
  (withNat (invMod pN s) fun w => withNat (digest * w % pN) fun a => withNat (r * w % pN) fun b =>
    pMul pGx pGy (bitList 256 a) 1 1 0 fun x1 y1 z1 => pMul x y (bitList 256 b) 1 1 0 fun x2 y2 z2 => pAdd x1 y1 z1 x2 y2 z2 fun x3 _ z3 =>
      z3 != 0 && (withNat (invMod pP (fpMul z3 z3)) fun i => fpMul x3 i % pP % pN == r))

end Sys2Proof.Machine
end

