-- ==== Sys2Proof/Machine/Session.lean ====
section
/-!
DEFINITION. Session: the session slots of the host protocol (R393, R397), its messages and their tags (R387, R388), and the replies kept for repeats.
-/
namespace Sys2Proof.Machine

def sessionAt (s : State) (k : Nat) : Option Session := s.host.slots.getD k none

def updSlot (k : Nat) (f : Session → Session) (s : State) : State := s.modHost fun h => { h with slots := updAt h.slots k (·.map f) }

/-- Slot of an open session. -/
def slotOf (s : State) (id : Nat) : Option Nat := (List.range 8).find? fun k => match sessionAt s k with | some x => x.id == id | none => false

/-- A session closes: its subscriptions end and its edit lock is released (R397). -/
def closeSession (k : Nat) (s : State) : State :=
  match sessionAt s k with
  | none => s
  | some x =>
    (s.modHost fun h => { h with slots := updAt h.slots k fun _ => none, lock := if h.lock == some x.id then none else h.lock }).raise 0x6021 k

/-! Replies (R389, R399). -/

/-- Status and detail at the head of a reply payload. -/
def stBytes (status detail : Nat) : List Byte := toLE 2 status ++ toLE 2 detail

/-- The header of Table 14-2. -/
def fhpHeader (flags id seq opcode len : Nat) : List Byte :=
  toLE 2 0x4648 ++ toLE 1 1 ++ toLE 1 flags ++ toLE 4 id ++ toLE 4 seq ++ toLE 2 opcode ++ toLE 2 len

/-- The tag of header and payload under a key (R388). -/
def fhpTag (key text : List Byte) : List Byte := (hmac key text).take 16

/-- A message under a key; flags as Table 14-2 gives byte 0x03. -/
def fhpMessage (key : List Byte) (flags id seq opcode : Nat) (pay : List Byte) : List Byte :=
  let m := fhpHeader flags id seq opcode pay.length ++ pay
  m ++ fhpTag key m

/-- Session key K_s (R396). -/
def sessionKey (role nc nm : List Byte) (id : Nat) : List Byte := hmac role ([0x46, 0x48, 0x50, 0x31] ++ nc ++ nm ++ toLE 4 id)

/-- The parts of a reply, each with the mark that further parts follow (Table 14-2). -/
def markMore : List (List Byte) → List (List Byte × Bool)
  | [] => []
  | [x] => [(x, false)]
  | x :: xs => (x, true) :: markMore xs

/-- The parts of a reply leave, tagged under the session key. -/
def sendParts (x : Session) (opcode seq : Nat) (parts : List (List Byte)) (s : State) : State :=
  forEach (markMore parts) (fun p s => s.send (.fhp x.addr x.port (fhpMessage x.key (if p.2 then 5 else 1) x.id seq opcode p.1))) s

/-- A reply takes its place among those to the last 8 accepted requests. -/
def keepReply (k : Nat) (r : FhpReply) (s : State) : State :=
  updSlot k (fun x => { x with replies := if x.replies.any (·.seq == r.seq) then x.replies.map (fun o => if o.seq == r.seq then r else o) else (r :: x.replies).take 8 }) s

/-- A request has been carried out: its reply is kept and sent, unless its session has closed (R397). -/
def finishReply (id k opcode seq : Nat) (parts : List (List Byte)) (s : State) : State :=
  match sessionAt s k with
  | some x => if x.id == id then sendParts x opcode seq parts (keepReply k { seq := seq, opcode := opcode, parts := parts, running := false } s) else s
  | none => s

end Sys2Proof.Machine
end

