-- ==== Sys2Proof/Machine/Restart.lean ====
section
/-!
DEFINITION. Restart: what a reset of the main die leaves (R17, R322, R360, R515, R521), the boot journal entry of the running session
(R521, R522), steps of module time as the Guard sees them, and the log of self-test outcomes (R570).
-/
namespace Sys2Proof.Machine

/-! Work of class P3 (R12, R40, R563, R576, R580). -/

/-- One core pair runs alone: P3 work is suspended (R12). -/
def onePair (s : State) : Bool := !(s.mem.pairOk.all id)

/-- The arbiter grants no P3 work: the die throttles, a power-fail sequence runs, or one core pair runs alone. -/
def p3Off (s : State) : Bool := s.therm.throttle || s.pwr.seqAt.isSome || onePair s

/-- P3 work waits: the arbiter grants the class nothing in this frame (R40). -/
def p3Held (s : State) : Bool := p3Off s || s.pwr.grant.getD 3 0 == 0

/-! Boot journal. -/

/-- The entry of the running session. -/
def updJournal (f : Journal → Journal) (s : State) : State := s.modBoot fun b => { b with journal := updAt b.journal b.newest f }

/-- restart_step: the step or port in bits 15:0 and the event code in bits 31:16 (log 17). -/
def noteRestart (step code : Nat) (s : State) : State := updJournal (fun j => { j with restartStep := step + code * 65536 }) s

/-! Module time as one step (R366): instants recorded before it move along. -/

def shiftTime (old new x : Nat) : Nat := x + new - old

/-- The Guard's instants after module time went from old to new. -/
def shiftGuard (old new : Nat) (g : Guard) : Guard :=
  let f := shiftTime old new
  { g with
    latch := g.latch.map fun l => { l with setAt := f l.setAt }, floops := g.floops.map fun l => { l with edge := l.edge.map f }
    tripDiff := g.tripDiff.map f, cfbDiff := g.cfbDiff.map (·.map f), resetAt := f g.resetAt, tF := g.tF.map f
    press := g.press.map fun p => (f p.1, f p.2), hbAt := f g.hbAt, gateLowAt := g.gateLowAt.map (·.map f), lowSince := g.lowSince.map (·.map f)
    toggled := g.toggled.map f, aliveAt := f g.aliveAt }

/-- The module time stored at the last power-fail warning (R366); 0 when no entry of the journal holds one. -/
def lastPfw (s : State) : Nat :=
  ((List.range 16).findSome? fun k => let t := (s.boot.journal.getD ((s.boot.newest + 16 - k) % 16) {}).pfwT; if t == 0 then none else some t).getD 0

/-- Instants of the time unit: masters, peer delays, samples and edges. -/
def shiftUnit (old new : Nat) (x : TimeState) : TimeState :=
  let f := shiftTime old new
  { x with
    now := new, masters := x.masters.map fun m => { m with atA := m.atA.map f, atB := m.atB.map f, last := f m.last }
    peer := x.peer.map (·.map fun p => (p.1, f p.2)), lastSync := x.lastSync.map f, lastPair := x.lastPair.map f, prevSample := x.prevSample.map (·.map f)
    bound := x.bound.map fun b => (b.1, f b.2), ppsEdge := x.ppsEdge.map f, ppsGood := x.ppsGood.map f, syncEdge := x.syncEdge.map f }

/-- Instants of the CAN ports, the block bus and the stations. -/
def shiftCan (old new : Nat) (c : CanState) : CanState :=
  let f := shiftTime old new
  { c with
    ports := c.ports.map fun p => { p with tx := p.tx.map fun e => { e with at_ := f e.at_ }, offAt := p.offAt.map f, dwellAt := f p.dwellAt }
    recent := c.recent.map fun r => (r.1, r.2.1, f r.2.2), refHeard := f c.refHeard
    heldB := c.heldB.map fun h => (h.1, h.2.1, f h.2.2.1, h.2.2.2), unpaired := c.unpaired.map fun u => (u.1, u.2.1, u.2.2.1, f u.2.2.2.1, f u.2.2.2.2)
    stations := c.stations.map fun st => { st with hbAt := f st.hbAt } }

/-- Instants of the host interface, which step 4 configures. -/
def shiftHost (old new : Nat) (h : HostState) : HostState :=
  let f := shiftTime old new
  { h with
    errReplies := h.errReplies.map fun e => (e.1, f e.2), opens := h.opens.map fun e => (e.1, f e.2), echoes := h.echoes.map f, prpAt := h.prpAt.map f
    prpSeen := h.prpSeen.map fun e => (e.1, e.2.1, f e.2.2)
    slots := h.slots.map (·.map fun x => { x with lastReq := f x.lastReq, tokensAt := f x.tokensAt }) }

/-- Module time set in one step: every instant that a block still measures from moves along, so that no interval changes. -/
def stepTime (new : Nat) (s : State) : State :=
  let old := s.time.now
  ((((s.modGuard (shiftGuard old new)).modBoot fun b => { b with startT := shiftTime old new b.startT, stepAt := shiftTime old new b.stepAt }).modCan
    (shiftCan old new)).modHost (shiftHost old new)).modTime (shiftUnit old new)

/-! What a reset of the main die leaves. -/

/-- D0 AON keeps module time and the servo's frequency through a restart (R360, R367). -/
def keepTime (x : TimeState) : TimeState := { now := x.now, freq := x.freq, rate := x.rate, rTarget := x.freq, addend := x.addend }

/-- Pins, one-time values and MRAM of the boot state; a commit accepted before a restart goes on to its end (R397). -/
def keepBoot (p : Phase) (cause now : Nat) (b : BootState) : BootState :=
  { phase := p, startT := now, stepAt := now, failAt := b.failAt, porN := b.porN, pfwN := b.pfwN, cause := cause, journal := b.journal, newest := b.newest, tries := b.tries
    lifeStore := b.lifeStore, life := b.life, copyA := b.copyA, copyB := b.copyB, shadow := b.shadow, confirm := b.confirm
    latchStore := b.latchStore, roster := b.roster, keys := b.keys, progStore := b.progStore, uid := b.uid, mac := b.mac, vendorKey := b.vendorKey, moduleKey := b.moduleKey, updKey := b.updKey
    step := if p == .start then 1 else 0, commit := if p == .start then b.commit else none }

/-- The recorder's MRAM (Table 17-1). -/
def keepRecorder (r : RecState) : RecState :=
  { ops := r.ops, pc := r.pc, commits := r.commits, head := r.head, seq := r.seq, rings := r.rings, strs := r.strs, cells := r.cells, die := r.die
    dieStamp := r.dieStamp, clears := r.clears, tokens := r.tokens, raised := r.raised }

/-- A failed bank or pair stays out of use through a restart (R29). -/
def keepMem (m : MemState) : MemState :=
  { banks := m.banks.map fun b => { st := if b.st == 2 then 0 else b.st, logical := b.logical }, pairOk := m.pairOk }

/-- Lanes after a restart (R29, R255): a lane that has failed stays out of use; the lowest string whose lane it was is served by lane 4 in its place while that lane works, any other has no lane and stays stopped (R260). -/
def keepLanes (r : RegState) : RegState :=
  let failed (k : Nat) : Bool := (r.lanes.getD k {}).st == 3
  let moved := if failed 4 then none else (List.range 4).find? failed
  let lane (k : Nat) (l : Lane) : Lane := if failed k then { l with st := 3, string := none } else if k == 4 then (match moved with | some n => { st := 0, string := some n } | none => l) else l
  let loop (n : Nat) (l : Loop) : Loop := if moved == some n then { l with lane := some 4 } else if failed n then { l with lane := none, st := .stopLane } else l
  { lanes := ({} : RegState).lanes.mapIdx lane, loops := ({} : RegState).loops.mapIdx loop }

/-- The trim area, and the latches of broken sensors: only a commit returns a sensor to service (R301; log 12). -/
def keepTherm (t : ThermState) : ThermState := { trim := t.trim, dies := t.dies.map fun d => { broken := d.broken } }

/-- What the Guard, a die of its own, makes of a reset of the main die: until R323 holds again no permit is granted (R515). -/
def guardRestart (g : Guard) : Guard :=
  { g with started := false, granted := List.replicate 5 false, floops := g.floops.map fun l => { l with back := 0 } }

/-- The module after a reset of its main die (for the Guard while VMAIN is absent: log 19; for the item map's version: log 20): MRAM, flash, D0 AON, the Guard die, the supplies and the update's slots stay; all else is at its reset value (R17, R515, R542, R574). -/
def mainReset (p : Phase) (cause : Nat) (s : State) : State :=
  { ({} : State) with
    time := keepTime s.time, boot := keepBoot p cause s.time.now s.boot, learned := s.learned, recorder := keepRecorder s.recorder, mem := keepMem s.mem
    reg := keepLanes s.reg, guard := if p == .mainReset then s.guard else guardRestart s.guard, comb := { mapVersion := s.comb.mapVersion, map := s.comb.map, prevMap := s.comb.prevMap }, therm := keepTherm s.therm, pwr := { s.pwr with domains := if p == .por then 3 else if p == .mainReset then 2 else 0xE1B, seqAt := none, pfw := 0, cut := 0, missed := 0 }
    upd := { s.upd with actFrame := none, beginFrame := none, passed := false, saved := false, up := [], deadline := none, reconnect := false }
    disp := { strs := s.disp.strs.map fun d => { noted := d.noted && [5, 6, 7].contains s.upd.st } }
    forgs := s.forgs.map fun f => { fwFormer := f.fwFormer, staging := f.staging, stageTries := f.stageTries, broken := f.broken }
    out := s.out, freeCtr := s.freeCtr, pending := s.pending }

/-- A restart (R495, R515, R516, R549): the sessions close (R397), the outputs go off under R17 and Start begins again. -/
def restartModule (cause : Nat) (s : State) : State := stageAll ((mainReset .start cause (forEach (List.range 8) closeSession s)).send (.restart cause))

/-! Self-test records (R570). -/

/-- An outcome of Table 21-6 enters the ring of 256. -/
def bistRecord (slice target outcome detail : Nat) (s : State) : State :=
  s.modBist fun b => { b with
    seq := b.seq + 1
    ring := ({ seq := b.seq + 1, slice := slice, target := target, outcome := outcome, detail := detail, ops := s.recorder.ops, time := s.time.now, pc := s.recorder.pc } : BistRec) :: b.ring.take 255
    failed := b.failed + (if outcome == 1 then 1 else 0), skipped := b.skipped + (if outcome == 2 then 1 else 0)
    deferred := b.deferred + (if outcome == 3 || outcome == 4 then 1 else 0) }

/-- A slice with its event: 0x8050 stands from a skip, a deferral or an abort until a slice passes; a failure raises 0x8051 (Table 21-9). -/
def sliceOutcome (slice target outcome detail : Nat) (s : State) : State :=
  let s1 := bistRecord slice target outcome detail s
  match outcome with
  | 0 => s1.clear 0x8050 0
  | 1 => s1.raise 0x8051 (evArg slice target)
  | _ => s1.stand 0x8050 0 true

end Sys2Proof.Machine
end

