-- ==== Sys2Proof/Machine/TimeUnit.lean ====
section
/-!
DEFINITION. TimeUnit: chapter 13, module time and its sources, the servo, PTP, compare units, capture and transmit timestamps.
-/
namespace Sys2Proof.Machine

/-- A received network time; none when its nanoseconds field is 1,000,000,000 or above (R361). -/
def wireNs (w : WireTime) : Option Nat := if w.nanos < 1000000000 then some (w.sec * 1000000000 + w.nanos) else none

/-- Module time as on the wire (R361). -/
def toWire (t : Nat) : WireTime := { sec := t / 1000000000, nanos := t % 1000000000 }

/-- Slave port of the selected master (R364): 0 ETHA while its peer delay is valid, when both hear it. -/
def slavePort (x : TimeState) (t : Nat) : Option Nat :=
  let delayOk (p : Nat) : Bool := match x.peer.getD p none with | some (_, d) => decide (t < d + 3000000000) | none => false
  match x.gm with
  | none => none
  | some g => match x.masters.find? (·.gm == g) with
    | none => none
    | some m =>
      let heard (a : Option Nat) : Bool := match a with | some a => decide (t < a + 3000000000) | none => false
      if heard m.atA && heard m.atB then (if delayOk 0 then some 0 else some 1) else if heard m.atA then some 0 else if heard m.atB then some 1 else none

def peerValid (x : TimeState) (p t : Nat) : Bool :=
  match x.peer.getD p none with | some (_, d) => decide (t < d + 3000000000) | none => false

/-- Validity of a source at a time (Table 13-1; source 2 by R430). -/
def sourceValid (s : State) (k t : Nat) : Bool :=
  let x := s.time
  let within (o : Option Nat) (d : Nat) : Bool := match o with | some a => decide (t < a + d) | none => false
  match k with
  | 0 => (match slavePort x t with | some p => peerValid x p t | none => false) && within x.lastSync 3000000000
  | 1 => x.setByEpoch && within x.ppsGood 3000000000
  | 2 => within x.lastPair (3 * s.parN .canTimePeriod * frameNs) && s.can.role != 2
  | _ => false

/-- First valid source in the order of time.source.0 to time.source.2 (R362). -/
def firstSource (s : State) (t : Nat) : Option Nat :=
  [0, 1, 2].findSome? fun i => let k := s.parN .timeSource i; if sourceValid s k t then some k else none

/-- Time error bound at a time, ns; none while unknown (R369). -/
def boundAt (s : State) (t : Nat) : Option Rat :=
  s.time.bound.map fun b => b.1 + ((s.parN .timeHoldDrift * (t - b.2) : Nat) : Rat) / 1000000000

/-- Synchronisation of R369 at a time, with event 0x6003; a pulse of PPS_OUT under way ends with it (R374). -/
def judgeSync (t : Nat) (s : State) : State :=
  let ok := match boundAt s t with | some b => decide (b ≤ (s.parN .timeSyncLimit : Rat)) | none => false
  (s.modTime fun x => { x with synced := ok, ppsOut := if ok then x.ppsOut else none }).stand 0x6003 0 (!ok)

/-- Target rate of the servo (R367). -/
def servoTarget (s : State) (f o : Rat) : Rat :=
  let m : Rat := (s.parN .timeRateMax : Rat)
  clampRat (-m) m (f - o / (s.parN .timeServoTau : Rat))

/-- Frequency estimate after an offset sample taken delta seconds after the previous one of its source (R367). -/
def servoFreq (s : State) (f o delta : Rat) : Rat :=
  let tau : Rat := (s.parN .timeServoTau : Rat)
  f - o * delta / (4 * tau * tau)

/-- An offset sample of source k at time t: it steers module time when k is the first valid source (R362, R367, R369). -/
def offsetSample (k : Nat) (o : Rat) (t : Nat) (s : State) : State :=
  if firstSource s t == some k && s.time.framesOn then
    let delta : Rat := match s.time.prevSample.getD k none with | some p => ((t - p : Nat) : Rat) / 1000000000 | none => 0
    let f := servoFreq s s.time.freq o delta
    let s1 := s.modTime fun x => { x with
      freq := f, rTarget := servoTarget s f o, lastO := some o, src := some k, holdover := false
      prevSample := updAt x.prevSample k fun _ => some t
      bound := some (ratAbs o + (s.parN .timeErrAsym : Rat), t)
      setByEpoch := x.setByEpoch || k != 1 }
    let s2 := if s.time.src == some k then s1 else s1.raise 0x6002 0
    judgeSync t ((s2.clear 0x6001 0).stand 0x6005 0 (decide ((s.parN .timeStepLimit : Rat) < ratAbs o)))
  else s

/-- With no valid source left module time is in holdover: r_target := f (R368). -/
def judgeHoldover (t : Nat) (s : State) : State :=
  match firstSource s t with
  | some _ => s
  | none => (s.modTime fun x => { x with src := none, holdover := true, rTarget := x.freq }).stand 0x6001 0 true

/-- The applied rate moves toward r_target by at most time.rate.step (R367), at a frame boundary. -/
def nextRate (s : State) : Rat :=
  let d : Rat := (s.parN .timeRateStep : Rat)
  s.time.rate + clampRat (-d) d (s.time.rTarget - s.time.rate)

/-- Addend of a cycle at a rate in ppb, in units of 2^-32 ns (R360): of 2 ns and its part of the rate, truncated (DESIGN CHOICE, log 36). -/
def addendAt (rate : Rat) : Nat := ((8589934592 : Rat) * (1 + rate / 1000000000)).floor.toNat

/-- The new rate is applied through the addend (R360, R367). -/
def rateStep (s : State) : State := s.modTime fun x => { x with rate := nextRate s, addend := addendAt (nextRate s) }

/-! PTP. -/

/-- An Ethernet port that carries PTP: enabled by time.ptp.ports, and configured in Start (R363, R516). -/
def ptpOn (s : State) (p : Nat) : Bool := bit (s.parN .timePtpPorts) p && !s.boot.ethOut.getD p false

/-- Order of data sets: the first field that differs decides, the lower value is the better (IEEE 1588). -/
def rankBetter : List Nat → List Nat → Bool
  | a :: as, b :: bs => if a < b then true else if b < a then false else rankBetter as bs
  | _, _ => false

/-- Data set that the module announces while it is master-capable (Table 13-2). -/
def ownRank (s : State) : List Nat :=
  [s.parN .timePtpPriority1, 248, 0xFE, 0xFFFF, s.parN .timePtpPriority2, s.boot.uid, 0]

/-- Selection of a master among those that have been announced twice on one port and still are (R363); a better own data set leaves none selected. The UTC offset counts as announced until its master leaves the selection. -/
def selectMaster (t : Nat) (s : State) : State :=
  let live := s.time.masters.filter fun m => decide (t < m.last + 3000000000)
  let best := (live.filter fun m => m.announces.any fun k => decide (2 ≤ k)).foldl
    (fun (b : Option PtpMaster) m => match b with | none => some m | some c => if rankBetter m.rank c.rank then some m else some c) none
  let gm := match best with
    | some m => if s.parB .timePtpMaster && rankBetter (ownRank s) m.rank then none else some m.gm
    | none => none
  let x1 := { s.time with masters := live, gm := gm }
  let st (p : Nat) : Nat :=
    if !ptpOn s p then 3
    else match gm with
      | none => if s.parB .timePtpMaster then 6 else 4
      | some _ => if slavePort x1 t == some p then 9 else 7
  let said := live.find? fun m => some m.gm == gm && m.last == t
  s.modTime fun _ => { x1 with portState := [st 0, st 1], utc := match said with
    | some m => some (m.utc, s.time.frame)
    | none => if gm.isNone && s.time.gm.isSome then x1.utc.map fun u => (u.1, s.time.frame) else x1.utc }

/-- PTP_ANNOUNCE (R363): a master that announces ARB is not selected; of another, the messages are counted on each port by itself, ETHA and ETHB being two PTP ports. -/
def execPtpAnnounce (ts : Nat) (port : Fin 2) (gm : Nat) (rank : List Nat) (domain : Nat) (ptpScale : Bool) (utc : Int) (s : State) :
    Host.Outcome State Fault Refusal :=
  let s := s.at_ ts
  if !s.up || domain != s.parN .timePtpDomain || !ptpOn s port.val then .next s
  else if !ptpScale then .next (selectMaster ts ((s.modTime fun x => { x with masters := x.masters.filter (·.gm != gm) }).raise 0x6006 0))
  else
    let old := (s.time.masters.find? (·.gm == gm)).getD { gm := gm, rank := rank, atA := none, atB := none, announces := [0, 0], last := ts, utc := utc }
    let before := if port.val == 0 then old.atA else old.atB
    let kept := match before with | some a => decide (ts ≤ a + 3000000000) | none => false
    let m : PtpMaster := { old with
      rank := rank, atA := if port.val == 0 then some ts else old.atA, atB := if port.val == 1 then some ts else old.atB
      announces := updAt old.announces port.val fun k => if kept then k + 1 else 1, last := ts, utc := utc }
    .next (selectMaster ts (s.modTime fun x => { x with masters := m :: x.masters.filter (·.gm != gm) }))

/-- PTP_SYNC (R362, R367): a Sync of the selected master on the slave port gives an offset sample of source 0. corr is the correction field in 2^-16 ns. -/
def execPtpSync (ts : Nat) (port : Fin 2) (gm : Nat) (origin : WireTime) (corr : Int) (s : State) : Host.Outcome State Fault Refusal :=
  let s := s.at_ ts
  let stamp := ts + s.parN .timeEthLatRx port.val
  match wireNs origin, s.time.peer.getD port.val none with
  | some t0, some (d, _) =>
    if s.up && s.time.gm == some gm && slavePort s.time ts == some port.val && peerValid s.time port.val ts then
      let o : Rat := (stamp : Rat) - ((t0 : Rat) + (corr : Rat) / 65536 + d)
      .next (offsetSample 0 o ts (s.modTime fun x => { x with lastSync := some ts }))
    else .next s
  | _, _ => .next s

/-- Event 0x6007 follows the peer delay of an enabled port; losing it can change the slave port (R364). -/
def peerChange (t port : Nat) (valid : Bool) (s : State) : State := selectMaster t (s.stand 0x6007 port (!valid))

/-- PTP_PDELAY (R364): a completed exchange; t1 is the transmit timestamp of its request, without which the exchange is discarded (R380). -/
def execPtpPdelay (t4 : Nat) (port : Fin 2) (seq : Nat) (t2 t3 : WireTime) (s : State) : Host.Outcome State Fault Refusal :=
  let s := s.at_ t4
  let mine (e : TxStamp) : Bool := e.id == seq % 0x4000 && e.port == port.val
  if !s.up || s.time.pdelayOut.getD port.val none != some seq then .next s
  else
    let s1 := s.modTime fun x => { x with pdelayOut := updAt x.pdelayOut port.val fun _ => none, txStamps := x.txStamps.filter fun e => !mine e }
    match s.time.txStamps.find? mine, wireNs t2, wireNs t3 with
    | some e, some a, some b =>
      let stamp4 := t4 + s.parN .timeEthLatRx port.val
      let d : Rat := (((stamp4 : Rat) - (e.time : Rat)) - ((b : Rat) - (a : Rat))) / 2
      .next (peerChange t4 port.val true (s1.modTime fun x => { x with peer := updAt x.peer port.val fun _ => some (d, t4) }))
    | _, _, _ => .next s1

/-- PEER_DELAY_EXPIRY (R364): no exchange completed on the port within the last 3 s. -/
def execPeerDelayExpiry (t : Nat) (port : Fin 2) (s : State) : Host.Outcome State Fault Refusal :=
  let s := s.at_ t
  match s.time.peer.getD port.val none with
  | some _ =>
    if s.up && !peerValid s.time port.val t then
      let s1 := s.modTime fun x => { x with peer := updAt x.peer port.val fun _ => none }
      let s2 := if ptpOn s port.val then peerChange t port.val false s1 else s1
      .next (judgeHoldover t s2)
    else .next s
  | none => .next s

/-- A timestamp taken for a tagged frame (R379, R380): the second result says that it was dropped. -/
def takeStamp (id port t : Nat) (s : State) : State × Bool :=
  if 16 ≤ s.time.txStamps.length then
    ((s.modTime fun x => { x with txSeq := (x.txSeq + 1) % 2 ^ 32, txDropped := (x.txDropped + 1) % 2 ^ 32 }).raise 0x600A 0, true)
  else (s.modTime fun x => { x with txSeq := (x.txSeq + 1) % 2 ^ 32, txStamps := x.txStamps ++ [{ id := id, port := port, seq := (x.txSeq + 1) % 2 ^ 32, time := t }] }, false)

/-- The reader releases an entry (R379). -/
def releaseStamp (id port : Nat) (s : State) : State :=
  s.modTime fun x => { x with txStamps := x.txStamps.filter fun e => !(e.id == id && e.port == port) }

/-- Order of arbitration: the lower 11 leading bits first, a base frame before an extended one (R421). -/
def arbKey (e : CanTx) : Nat := if e.kind ≤ 3 then 2 * e.id + 1 else 2 * (e.id * 2 ^ 18)

/-- Format in which port p sends an entry (R352, R417, R425, R432): the messages of the block bus and FSL are CAN FD with 29-bit identifiers, with BRS where the port has a data rate (for FSL that is a DESIGN CHOICE, log 31), those of CANopen are classical with 11-bit ones. -/
def canFormat (s : State) (p : Nat) (e : CanTx) : CanFormat :=
  let fd := decide (e.kind ≤ 3)
  { ext := fd, fd := fd, brs := fd && s.parN .canPortData p != 0, esi := fd && (s.can.ports.getD p {}).st == 2 }

/-- A tagged CAN frame has left at t: its entry leaves the transmit queue of the port, and so do those queued by then that win the arbitration against it (R421). -/
def sentTagged (t port id : Nat) (s : State) : State :=
  let q := (s.can.ports.getD port {}).tx
  let hit := q.filter (·.tag == id)
  let gone (e : CanTx) : Bool := e.tag == id || hit.any fun h => decide (arbKey e < arbKey h) && decide (e.at_ ≤ t)
  let before := sortBy (fun a b => decide (arbKey a ≤ arbKey b)) (q.filter gone)
  (before.foldl (fun s e => s.send (.canFrame port (canFormat s port e) e.id e.data)) s).modCan fun c =>
    { c with ports := updAt c.ports port fun p => { p with tx := p.tx.filter fun e => !gone e } }

/-- TRANSMIT_TIMESTAMP (R365, R379, R380); t is the MAC or CAN stamp of the frame. -/
def execTransmitTimestamp (t : Nat) (id : Nat) (port : Fin 4) (s : State) : Host.Outcome State Fault Refusal :=
  let s := if 2 ≤ port.val && 0x8000 ≤ id then sentTagged t (port.val - 2) id (s.at_ t) else s.at_ t
  if s.up then .next (takeStamp id port.val (if port.val < 2 then t + s.parN .timeEthLatTx port.val else t) s).1 else .next s

/-- The module acts as PTP master: it is master-capable and no better master is selected (R363). -/
def ptpMaster (s : State) : Bool := s.parB .timePtpMaster && s.time.gm.isNone

/-- One port's Sync, its Follow_Up when its timestamp was kept, and Announce (R363, R380). Tags of Sync lie from 0x4000 to 0x7FFF, those of Pdelay_Req below (DESIGN CHOICE, log 36). -/
def syncOnPort (seq : Nat) (pt : Nat × Nat) (s : State) : State :=
  if ptpOn s pt.1 then
    let stamp := pt.2 + s.parN .timeEthLatTx pt.1
    let s1 := s.send (.ptp 0 pt.1 seq (toWire s.time.now))
    let r := takeStamp (0x4000 + seq % 0x4000) pt.1 stamp s1
    let s2 := if r.2 then r.1 else (releaseStamp (0x4000 + seq % 0x4000) pt.1 r.1).send (.ptp 1 pt.1 seq (toWire stamp))
    s2.send (.announce pt.1 seq (ownRank s) 0xA0)
  else s

/-- PTP_SYNC_SEND (R363): leaveA and leaveB are the times at which the Sync leaves on each port. -/
def execPtpSyncSend (t leaveA leaveB : Nat) (s : State) : Host.Outcome State Fault Refusal :=
  let s := s.at_ t
  if s.up && ptpMaster s then
    let seq := s.time.ptpSeq.getD 0 0
    let s1 := s.modTime fun x => { x with ptpSeq := updAt x.ptpSeq 0 fun v => (v + 1) % 0x10000 }
    .next (syncOnPort seq (1, leaveB) (syncOnPort seq (0, leaveA) s1))
  else .next s

/-- PDELAY_REQ_SEND (R363): every enabled port sends a request and awaits its answer. -/
def execPdelayReqSend (t : Nat) (s : State) : Host.Outcome State Fault Refusal :=
  let s := s.at_ t
  if s.up then
    let seq := s.time.ptpSeq.getD 2 0
    let s1 := s.modTime fun x => { x with ptpSeq := updAt x.ptpSeq 2 fun v => (v + 1) % 0x10000 }
    .next (forEach [0, 1] (fun p s => if ptpOn s p then
      (s.modTime fun x => { x with pdelayOut := updAt x.pdelayOut p fun _ => some seq }).send (.ptp 3 p seq (toWire t)) else s) s1)
  else .next s

/-- ANNOUNCE_TIMEOUT (R362, R368): masters no longer announced leave the selection, and with no valid source left module time is in holdover. -/
def execAnnounceTimeout (t : Nat) (s : State) : Host.Outcome State Fault Refusal :=
  let s := s.at_ t
  if s.up then .next (judgeHoldover t (selectMaster t s)) else .next s

/-- SYNC_BOUND_EXCEEDED (R369). -/
def execSyncBoundExceeded (t : Nat) (s : State) : Host.Outcome State Fault Refusal :=
  let s := s.at_ t
  if s.up then .next (judgeSync t s) else .next s

/-! Edges. -/

/-- Filter of PPS_IN, SYNC_IN and PULSE_IN in ns (R378). -/
def pinFilter : Nat := 100

/-- An edge counts once its level has held for the filter of its input (R376). -/
def edgeCounts (filter : Nat) (e : Edge) : Bool := decide (filter ≤ e.held)

/-- Signed distance of an instant from the nearest whole second, ns. -/
def secondOffset (t : Nat) : Int :=
  let r := t % 1000000000
  if r < 500000000 then (r : Int) else (r : Int) - 1000000000

/-- PPS_IN_EDGE (R378, Table 13-1). -/
def execPpsInEdge (e : Edge) (s : State) : Host.Outcome State Fault Refusal :=
  let ts := e.at_
  let s := s.at_ ts
  if !s.up || !edgeCounts pinFilter e then .next s
  else
    let o := secondOffset ts
    if o.natAbs ≤ s.parN .timePpsWindow then
      let s1 := (s.modTime fun x => { x with ppsEdge := some ts, ppsGood := some ts }).clear 0x6008 0
      .next (if s.time.setByEpoch then offsetSample 1 (o : Rat) ts s1 else s1)
    else if s.time.src == some 1 then .next (s.stand 0x6008 0 true)
    else .next (s.modTime fun x => { x with ppsEdge := some ts })

/-- SYNC_IN_EDGE (R38, R378): the latest rising edge is kept. -/
def execSyncInEdge (e : Edge) (s : State) : Host.Outcome State Fault Refusal :=
  let s := s.at_ e.at_
  if s.up && edgeCounts pinFilter e then .next (s.modTime fun x => { x with syncEdge := some e.at_, syncAge := 0 }) else .next s

/-- SYNC_LOST (R38): no edge for 100 frames while sync placement is configured. -/
def execSyncLost (t : Nat) (s : State) : Host.Outcome State Fault Refusal :=
  let s := s.at_ t
  if s.up && s.parN .timeSampleSource == 1 && decide (100 ≤ s.time.syncAge) then
    .next ((s.modTime fun x => { x with syncLost := true }).stand 0x6011 0 true)
  else .next s

/-- PULSE_IN_EDGE (R267, R378): count, first and last edge of the frame. -/
def execPulseInEdge (e : Edge) (s : State) : Host.Outcome State Fault Refusal :=
  let ts := e.at_
  let s := s.at_ ts
  if s.up && edgeCounts pinFilter e then
    .next (s.modTime fun x => { x with pulse := { count := x.pulse.count + 1, first := if x.pulse.count == 0 then ts else x.pulse.first, last := ts } })
  else .next s

/-- An edge on CAP_INk that has passed the filter of the input and that its parameter names enters its queue of 8, or is dropped (R376, R377). -/
def execCapInEdge (e : Edge) (k : Fin 8) (falling : Bool) (s : State) : Host.Outcome State Fault Refusal :=
  let ts := e.at_
  let s := s.at_ ts
  let named := s.parN .timeCapEdge k.val
  if !s.up || !edgeCounts (s.parN .timeCapFilter k.val) e || !(named == 2 || (named == 0 && !falling) || (named == 1 && falling)) then .next s
  else
    let q := s.time.capture.getD k.val []
    if 8 ≤ q.length then
      .next ((s.modTime fun x => { x with capDropped := x.capDropped + 1, capLost := updAt x.capLost k.val fun _ => true }).raise 0x6009 k.val)
    else
      let c : CapEntry := { time := ts, falling := falling, lost := s.time.capLost.getD k.val false, input := k.val }
      .next (s.modTime fun x => { x with capture := updAt x.capture k.val (· ++ [c]), capLost := updAt x.capLost k.val fun _ => false })

/-! Compare units. -/

/-- Period of a unit (Table 13-4); 0 for a unit armed for one firing. -/
def unitPeriod (s : State) (u : Nat) : Nat :=
  if u == 0 then 20000 else if u == 1 then 10000000 else if u == 2 then 0
  else if u ≤ 6 then 10000000 else if u == 7 then 1000000000 else if u ≤ 11 then 20000
  else if u == 12 then 0 else if u ≤ 15 then 10000000 else s.parN .timeOutPeriod (u - 16)

/-- A compare value is reached: low 32 bits of module time less it, read as signed, are at or above 0 (R370). -/
def reached (now : Nat) (c : BitVec 32) : Bool := decide (0 ≤ (BitVec.ofNat 32 now - c).toInt)

/-- After firing, a periodic unit reloads c := (c + period) mod 2^32, another is done (R371). -/
def reloadUnit (c : CompareUnit) : CompareUnit := if c.period == 0 then { c with armed := false } else { c with c := c.c + BitVec.ofNat 32 c.period }

/-- What a unit drives at a land (R374, R375): unit 7 PPS_OUT, units 16 to 23 the configured outputs. -/
def driveUnit (u t : Nat) (s : State) : State :=
  if u == 7 then
    s.modTime fun x => { x with ppsOut := if s.parB .timePpsOut && s.time.synced then some (t + s.parN .timePpsWidth * 1000) else none }
  else if 16 ≤ u && decide (s.parN .timeOutGpio (u - 16) < 16) then
    s.modTime fun x => { x with outs := updAt x.outs (u - 16) fun _ => some (t + s.parN .timeOutWidth (u - 16)) }
  else s

/-- Unit u is armed and its value is reached. -/
def unitDue (s : State) (u : Nat) : Bool := let c := s.time.compare.getD u {}; c.armed && reached s.time.now c.c

/-- The instant of a value that has been reached, counted back from module time. -/
def dueSince (s : State) (u : Nat) : Nat := s.time.now - (BitVec.ofNat 32 s.time.now - (s.time.compare.getD u {}).c).toNat

/-- A unit fires in the first cycle that reaches its value (R370). -/
def fireUnit (u : Nat) (s : State) : State :=
  if unitDue s u then s.modTime fun x => { x with compare := updAt x.compare u reloadUnit } else s

/-- Units that drive a land, in ascending order. -/
def driving : List Nat := [7, 16, 17, 18, 19, 20, 21, 22, 23]

/-- Every unit that fires in the cycle of another drives its output in that cycle, in ascending order (R373). -/
def fireOutputs (s : State) : State :=
  if s.up then forEach (driving.filter (unitDue s)) (fun u s => fireUnit u (driveUnit u (dueSince s u) s)) s else s

/-- Carrier phase of string n, in ns (R381). -/
def carrierPhase (s : State) (n : Nat) : Nat := 10 * s.parN .regPwmPhase n + 10 * s.parN .bootPosition * s.parN .timeBlockStagger

/-- First instant after now that lies off behind a multiple of a period. -/
def nextAfter (now period off : Nat) : Nat := now + 1 + (off + period - (now + 1) % period) % period

/-- First instant from now on that lies off behind a multiple of a period. -/
def nextFrom (now period off : Nat) : Nat := now + (off + period - now % period) % period

/-- Next target of a unit whose instants Table 13-4 fixes; none for the unit of the CAN reference, which its sender arms. -/
def nextTarget (s : State) (u : Nat) : Option Nat :=
  let next := nextFrom s.time.now
  if u == 0 then some (nextAfter s.time.now tickNs 0) else if u == 1 then some (nextAfter s.time.now frameNs 0)
  else if u == 2 then (if s.time.now ≤ s.frameStart + s.time.sCur && s.workDue 0 then some (s.frameStart + s.time.sCur) else none)
  else if u ≤ 6 then some (next frameNs (100000 - s.parN .linkTxSyncLead (u - 3)))
  else if u == 7 then some (next 1000000000 0)
  else if u ≤ 11 then some (next tickNs (carrierPhase s (u - 8)))
  else if u == 12 then none
  else if u == 13 then some (next frameNs 5000000) else if u == 14 then some (next frameNs 8000000) else if u == 15 then some (next frameNs 8800000)
  else if 16 ≤ s.parN .timeOutGpio (u - 16) then none
  else some (next (s.parN .timeOutPeriod (u - 16)) (s.parN .timeOutPhase (u - 16)))

/-- A periodic unit that runs on the instants of its parameters: its value is the next of them, or the one after it where the unit has fired for that. -/
def inStep (s : State) (u x : Nat) : Bool :=
  let c := s.time.compare.getD u {}
  let p := unitPeriod s u
  c.armed && p != 0 && c.period == p && (c.c == BitVec.ofNat 32 x || (x == s.time.now && c.c == BitVec.ofNat 32 (x + p)))

/-- The control path arms a unit with its next target (R371, R372); a periodic unit in step runs on. -/
def armUnit (u : Nat) (s : State) : State :=
  match nextTarget s u with
  | some x => if inStep s u x then s else s.modTime fun y => { y with compare := updAt y.compare u fun c => { c with armed := true, c := BitVec.ofNat 32 x, period := unitPeriod s u, late := false } }
  | none => if u == 2 || 16 ≤ u then s.modTime fun y => { y with compare := updAt y.compare u fun c => { c with armed := false } } else s

/-- Units whose targets a frame boundary can move: the sample instant, and those that follow frame-class parameters. -/
def movedUnits : List Nat := [2, 3, 4, 5, 6, 8, 9, 10, 11, 16, 17, 18, 19, 20, 21, 22, 23]

/-- COMPARE_ARM (R371): a unit whose target is not ahead fires late, with what it drives. -/
def execCompareArm (t : Nat) (u : Fin 24) (target : Nat) (s : State) : Host.Outcome State Fault Refusal :=
  let s := s.at_ t
  if !s.up then .next s
  else if s.time.now + 2000000000 < target then .next (s.raise 0x600C u.val)
  else
    let p := unitPeriod s u.val
    let arm (c : CompareUnit) : CompareUnit := { c with armed := true, c := BitVec.ofNat 32 target, period := p, late := false }
    if target ≤ s.time.now then
      let s1 := s.modTime fun x => { x with compare := updAt x.compare u.val fun c => { arm c with late := true }, lateCompares := x.lateCompares + 1 }
      .next ((driveUnit u.val s.time.now (s1.modTime fun x => { x with compare := updAt x.compare u.val reloadUnit })).raise 0x600B u.val)
    else .next (s.modTime fun x => { x with compare := updAt x.compare u.val arm })

/-- PPS_OUT (R374): at a whole second, high for time.pps.width while enabled and synchronised. -/
def execPpsOut (t : Nat) (s : State) : Host.Outcome State Fault Refusal :=
  let s := fireUnit 7 (s.at_ t)
  if s.up && t % 1000000000 == 0 then .next (driveUnit 7 t s) else .next s

/-- CONFIGURED_OUTPUT (R375): at an instant of its phase and period output k goes high, and low its width later. -/
def execConfiguredOutput (t : Nat) (k : Fin 8) (s : State) : Host.Outcome State Fault Refusal :=
  let s := fireUnit (16 + k.val) (s.at_ t)
  if s.up && decide (s.parN .timeOutGpio k.val < 16) && (t + s.parN .timeOutPeriod k.val - s.parN .timeOutPhase k.val) % s.parN .timeOutPeriod k.val == 0 then
    .next (driveUnit (16 + k.val) t s)
  else .next s

/-- Level of configured output k at a time (R375). -/
def outLevel (s : State) (k t : Nat) : Bool := match s.time.outs.getD k none with | some e => decide (t < e) | none => false

/-- Level of each of SD_CLK0 to SD_CLK3 at a time (R33): 20 MHz, with a rising edge on every tick boundary (DESIGN CHOICE, log 37: R33 names no direction of the edge), while the main die runs. -/
def sdClkLevel (s : State) (t : Nat) : Bool := s.up && decide (t % 50 < 25)

/-- Level of PPS_OUT at a time (R374): low while module time is not synchronised. -/
def ppsLevel (s : State) (t : Nat) : Bool := s.time.synced && match s.time.ppsOut with | some e => decide (t < e) | none => false

/-- End of the wait of step 5 (R366). -/
def timeWaitEnd (s : State) : Nat := s.boot.stepAt + s.parN .timeStartWait * 1000000000

/-- Step 5 waits for its first sample: it runs as normal, and none has been taken and the wait has not ended. -/
def awaitsTime (s : State) : Bool :=
  s.boot.phase == .start && s.boot.step == 5 && s.boot.cause != 4 && !s.boot.prevFailed.getD 4 false && s.time.src.isNone && decide (s.time.now < timeWaitEnd s)

/-- Module time is set to the time of source k; t is the instant of the sample by it (R366). -/
def setTime (k t : Nat) (size : Int) (s : State) : State :=
  let s1 := (stepTime t s).modTime fun x => { x with
    src := some k, holdover := false, setByEpoch := true, lastO := some 0
    lastSync := if k == 0 then some t else x.lastSync, lastPair := if k == 2 then some t else x.lastPair
    prevSample := updAt x.prevSample k fun _ => some t
    bound := some ((s.parN .timeErrAsym : Rat), t) }
  judgeSync t (((s1.raise 0x6004 (field 32 size)).raise 0x6002 0).clear 0x6001 0)

/-- START_TIME_ACQUISITION (R362, R366): the first offset sample of the step sets module time, or the wait ends without one. sample holds the source, the offset and the time of the sample by the module's clock. -/
def execStartTimeAcquisition (sample : Option (Nat × Int × Nat)) (s : State) : Host.Outcome State Fault Refusal :=
  if !awaitsTime s then .next s
  else
    match sample with
    | none =>
      let s1 := s.at_ (timeWaitEnd s)
      .next (judgeSync s1.time.now ((s1.modTime fun x => { x with holdover := true, bound := none, src := none }).stand 0x6001 0 true))
    | some (k, o, ts) =>
      if !([s.parN .timeSource 0, s.parN .timeSource 1, s.parN .timeSource 2].contains k) || k == 1 || 2 < k || timeWaitEnd s < ts then .next s
      else .next (setTime k ((ts : Int) - o).toNat (-o) s)

end Sys2Proof.Machine
end

