-- ==== Sys2Proof/Machine/Spami.lean ====
section
/-!
DEFINITION. Spami: the frames of a string's network as bytes (R67, R68, R70, R77 to R87, R93, R96, R105): header, nonce, keys, payload
layouts, and the checks of a received PSDU.
-/
namespace Sys2Proof.Machine

/-- Number of forager b of string n among the 144. -/
def brickInst (n b : Nat) : Nat := 36 * n + b

/-- Channel and preamble code of string n (Table 4-2). -/
def radioPair (plan n : Nat) : Nat × Nat :=
  (if n < 2 then 5 else 9, if plan == 0 then 9 + n else [11, 12, 9, 10].getD n 9)

def netId (s : State) : Nat := s.parN .bootBlock * 16 + s.parN .bootPosition

/-- Fields one after another, each a width in bytes and a value, low byte first (R5). -/
def pack (fields : List (Nat × Nat)) : List Byte := fields.flatMap fun f => toLE f.1 f.2

/-! Header, nonce and keys (R77, R81 to R83). -/

/-- First byte of a header: type and version 1 (Table 4-6). -/
def headTv (typ : Nat) : Nat := typ + 16

/-- Second byte of a header: source and string. -/
def headSrc (source n : Nat) : Nat := source + 64 * n

/-- Header of a frame that the module sends, source 63. -/
def spamiHead (s : State) (typ n : Nat) : List Byte := pack [(1, headTv typ), (1, headSrc 63 n), (2, netId s), (4, s.time.frame)]

/-- Nonce of Table 4-10. -/
def nonceOf (frame slot src net tv : Nat) : List Byte := pack [(6, frame), (1, slot), (1, src), (2, net), (1, tv), (2, 0)]

/-- Nonce of a frame that the module sends in a slot of the running frame. -/
def txNonce (s : State) (typ n slot : Nat) : List Byte := nonceOf s.time.frame slot (headSrc 63 n) (netId s) (headTv typ)

/-- K_dev of a unique ID in the enrolment list. For a unique ID that a commit has taken out of the list while it holds a roster entry the spec names no key: a free value (log 3). -/
def kDevOf (s : State) (uid : Nat) : Nat :=
  match s.boot.run.enrol.find? (·.uid == uid) with | some e => e.kDev | none => Config.openNat 31 % 2 ^ 128

/-- K_net that secures the running frame of a string (R86). -/
def netKey (s : State) (n : Nat) : Option Nat :=
  match (s.link n).keyNext with
  | some (k, f) => if f ≤ s.time.frame then some k else (s.link n).key
  | none => (s.link n).key

/-- Key under which the module sends; a string that has no K_net yet sends beacons that no forager can decrypt, under a free value (log 3). -/
def sendKey (s : State) (n : Nat) : Nat := (netKey s n).getD (Config.openNat 32 % 2 ^ 128)

/-- A PSDU: header and clear fields, the encrypted rest with its MIC, and the FCS over them (R77, R82). -/
def psduOf (key : Nat) (nonce head clear body : List Byte) : List Byte :=
  let f := head ++ clear ++ ccmSeal key nonce (head ++ clear) body
  f ++ toLE 2 (fcs f)

/-! Frames that the module sends. -/

/-- K_net wrapped for a forager, with the nonce of the beacon that carries it (R85). -/
def wrapKey (s : State) (n b key : Nat) : List Byte :=
  let uid := ((s.forg (brickInst n b)).uid).getD 0
  ccmSeal (kDevOf s uid) (nonceOf s.time.frame 0xFE (64 * n + b) (netId s) (headTv 1)) (toLE 8 uid) (toLE 16 key)

/-- Parameter bytes of a command (Table 4-11). -/
def cmdParams (s : State) (n : Nat) (c : LinkCmd) : List Byte :=
  let p (k : Nat) : Nat := c.params.getD k 0
  match c.id with
  | 0x01 => pack [(2, p 0), (24, ((c.params.drop 1).mapIdx fun k t => t * 2 ^ (12 * k)).sum)]
  | 0x03 => pack [(4, p 0), (4, p 1), (2, p 2), (2, p 3), (2, p 4), (2, p 5), (2, p 6)]
  | 0x04 => pack [(2, p 0), (2, p 1)]
  | 0x07 => pack [(1, p 0), (1, p 1), (1, p 2), (1, p 3)]
  | 0x08 => wrapKey s n c.target (p 0) ++ toLE 4 (p 1)
  | 0x09 => toLE 8 (p 0)
  | 0x0A => pack [(4, p 0), (4, p 1)]
  | 0x0B => toLE 1 (p 0)
  | 0x0C => toLE 1 (p 0)
  | _ => []

/-- A command with its head (R87). -/
def cmdBytes (s : State) (n : Nat) (c : LinkCmd) : List Byte :=
  let ps := cmdParams s n c
  pack [(1, c.id), (1, c.target), (1, c.tag), (1, ps.length)] ++ ps

def relayBytes (e : RelayEntry) : List Byte := pack [(1, e.subject + 64 * e.kind), (1, e.sender)]
def bulkBytes (e : BulkEntry) : List Byte := pack [(1, e.brick + 64 * e.dir), (1, e.arg)]

/-- joins_open of a beacon (Table 4-8, Table 4-13): the mode admits joins and the join slot carries no answer. -/
def joinsOpen (s : State) (n : Nat) : Bool := s.modeIn .linkJoinModes && (s.link n).answer.isNone

/-- Clear fields of a beacon (Table 4-8, R86). -/
def beaconClear (s : State) (n : Nat) : List Byte :=
  let change := match (s.link n).keyNext with | some (_, f) => decide (s.time.frame < f) | none => false
  pack [(8, s.time.frame), (1, (joinsOpen s n).toNat + 2 * change.toNat), (1, s.parN .linkJoinWindow)]

/-- Encrypted fields of a beacon with the commands placed in it (Table 4-8); s_next in 10 ns. -/
def beaconBody (s : State) (n : Nat) (cmds : List LinkCmd) : List Byte :=
  let area := cmds.flatMap (cmdBytes s n)
  toLE 2 (s.time.sNext / 10) ++ (s.link n).relay.flatMap relayBytes ++ (s.link n).bulk.flatMap bulkBytes ++ toLE 1 area.length ++ area

/-- The waggle beacon of the running frame (R77, R79, R82). -/
def beaconPsdu (s : State) (n : Nat) (cmds : List LinkCmd) : List Byte :=
  psduOf (sendKey s n) (txNonce s 1 n 0) (spamiHead s 1 n) (beaconClear s n) (beaconBody s n cmds)

/-- Join answer data: unique ID, result, brick (Table 4-20). -/
def answerBody (s : State) (n : Nat) (a : Nat × Nat × Nat) : List Byte :=
  pack [(8, a.1), (1, a.2.1), (1, a.2.2), (2, s.time.sNext / 10), (16, if a.2.1 == 0 then ((s.link n).key).getD 0 else 0), (44, 0)]

/-- The join answer of the running frame, in slot 43 under K_dev of its target (R96). -/
def answerPsdu (s : State) (n : Nat) (a : Nat × Nat × Nat) : List Byte :=
  psduOf (kDevOf s a.1) (txNonce s 6 n 43) (spamiHead s 6 n) [] (answerBody s n a)

/-- A bulk-down frame in a slot: the head of Table 4-15 and 64 bytes; the bytes after len are 0. -/
def bulkPsdu (s : State) (n slot xfer object index total : Nat) (data : List Byte) : List Byte :=
  let len := min 64 (total - 64 * index)
  let d := data.take len
  psduOf (sendKey s n) (txNonce s 4 n slot) (spamiHead s 4 n) []
    (pack [(1, xfer), (1, object), (2, index), (2, total), (1, len), (1, 0)] ++ d ++ List.replicate (64 - d.length) 0)

/-! Frames received. -/

def rxType (x : Rx) : Nat := rd 1 0 x.psdu % 16
def rxVersion (x : Rx) : Nat := rd 1 0 x.psdu / 16
def rxSource (x : Rx) : Nat := rd 1 1 x.psdu % 64
def rxString (x : Rx) : Nat := rd 1 1 x.psdu / 64

/-- Source expected in a slot by a frame of a type (check 5 of R84, Table 4-3): uplinks in slots 1 to 42, join requests in 43, bulk up from 44. -/
def sourceFits (s : State) (n typ slot source : Nat) : Bool :=
  let l := s.link n
  if typ == 2 then
    (1 ≤ slot && slot ≤ 36 && source == slot - 1) ||
    (37 ≤ slot && slot ≤ 42 && (let e := l.relay.getD (slot - 37) {}; e.kind != 0 && e.subject == source))
  else if typ == 3 then slot == 43 && decide (source < 36)
  else 44 ≤ slot && slot ≤ 48 && (let e := l.bulk.getD (slot - 44) {}; e.dir == 1 && e.brick == source)

/-- Nonce of a received frame: its fc completed by the receiver's frame number, and the slot in which it was first sent, that of its brick for a retried or relayed uplink (R83). -/
def rxNonce (s : State) (x : Rx) : List Byte :=
  let slot := if rxType x == 2 then rxSource x + 1 else x.slot
  nonceOf (rd 4 4 x.psdu + 2 ^ 32 * (s.time.frame / 2 ^ 32)) slot (rd 1 1 x.psdu) (rd 2 2 x.psdu) (rd 1 0 x.psdu)

/-- What a frame carries when its MIC checks. A join request is opened with the keys of the enrolment list in turn, because its unique ID is encrypted: it must name the entry whose K_dev opens it (R82, R94; DEDUCED, log 41). -/
def rxOpen (s : State) (x : Rx) : Option (List Byte) :=
  let open_ (key : Nat) : Option (List Byte) := ccmOpen key (rxNonce s x) (x.psdu.take 8) ((x.psdu.drop 8).take 80)
  if rxType x == 3 then
    s.boot.run.enrol.findSome? fun e => match open_ e.kDev with | some d => if rd 8 0 d == e.uid then some d else none | none => none
  else (netKey s x.string).bind open_

/-- The checks of R84 in their order: the 72 data bytes of a frame of a type, or the first check that fails: 0 length, 1 FCS, 2 header, 3 fc, 4 source, 5 MIC. -/
def rxRead (s : State) (typ : Nat) (x : Rx) : Except Nat (List Byte) :=
  if x.psdu.length != 90 then .error 0
  else if fcs (x.psdu.take 88) != rd 2 88 x.psdu then .error 1
  else if rxVersion x != 1 || rxType x != typ || rd 2 2 x.psdu != netId s || rxString x != x.string then .error 2
  else if rd 4 4 x.psdu != s.time.frame % 2 ^ 32 then .error 3
  else if !sourceFits s x.string typ x.slot (rxSource x) then .error 4
  else match rxOpen s x with
    | some d => .ok d
    | none => .error 5

/-- Uplink data (Table 4-7). -/
def uplinkOf (bs : List Byte) : Uplink :=
  let words (o n : Nat) : List Nat := (List.range n).map fun k => rd 2 (o + 2 * k) bs
  { cellV := words 0 16, coarse := (List.range 16).map fun k => signed 8 (rd 1 (0x20 + k) bs), brickV := rd 2 0x30 bs % 4096
    therm := (words 0x32 4).map (signed 16), dieT := signed 16 (rd 2 0x3A bs)
    bleed := BitVec.ofNat 16 (rd 2 0x3C bs), ov := BitVec.ofNat 16 (rd 2 0x3E bs), uv := BitVec.ofNat 16 (rd 2 0x40 bs)
    flags := BitVec.ofNat 8 (rd 1 0x42 bs), cmdTag := rd 1 0x43 bs, rssi := signed 8 (rd 1 0x44 bs), bulkAck := rd 1 0x45 bs
    clkCorr := signed 16 (rd 2 0x46 bs) }

/-- Count of ones in a number below 2^n. -/
def onesIn (n v : Nat) : Nat := ((List.range n).filter (bit v)).length

/-- Join request data (Table 4-12): the pins are intact when the ones of bits 6:0 are odd. -/
def joinOf (brick frame : Nat) (joinsOpen : Bool) (bs : List Byte) : JoinReq :=
  { uid := rd 8 0 bs, brick := brick, code := rd 1 8 bs % 64, parityOk := onesIn 7 (rd 1 8 bs) % 2 == 1, hwRev := rd 1 9 bs
    fwVersion := rd 4 0x0A bs, frame := frame, open_ := joinsOpen }

/-- A bulk fragment (Table 4-15). -/
def fragmentOf (bs : List Byte) : Fragment :=
  { xfer := rd 1 0 bs, object := rd 1 1 bs, index := rd 2 2 bs, total := rd 2 4 bs, len := rd 1 6 bs, data := (bs.drop 8).take 64 }

end Sys2Proof.Machine
end

