-- ==== Sys2Proof/Machine/Link.lean ====
section
/-!
DEFINITION. Link: chapter 04, the beacon and its commands, the checks of a received frame, joins, keys, relays and bulk maps.
-/
namespace Sys2Proof.Machine

/-- String n has a Spami link (link.strings). -/
def linkOn (s : State) (n : Nat) : Bool := s.parBit .linkStrings n

def enrolled (s : State) (n b : Nat) : Bool := (s.forg (brickInst n b)).uid.isSome

/-- Bricks of a string that hold a roster entry. -/
def enrolledBricks (s : State) (n : Nat) : List Nat := (List.range 36).filter (enrolled s n)

/-! Beacon commands (R87 to R91). -/

/-- Bytes of the parameters of a command (Table 4-11). -/
def cmdLen : Nat → Nat
  | 0x01 => 26 | 0x02 => 0 | 0x03 => 18 | 0x04 => 4 | 0x07 => 4 | 0x08 => 28 | 0x09 => 8 | 0x0A => 8 | 0x0B => 1 | 0x0C => 1
  | _ => 0

/-- Place of a command in the order of precedence (R91). -/
def cmdClass : Nat → Nat
  | 0x09 => 0 | 0x08 => 0 | 0x02 => 1 | 0x03 => 2 | 0x04 => 2 | 0x0A => 2 | 0x0B => 2 | 0x0C => 2 | 0x01 => 3 | 0x07 => 4
  | _ => 5

/-- Bricks that a command addresses; 63 names every enrolled forager. -/
def cmdTargets (s : State) (n : Nat) (target : Nat) : List Nat := if target == 63 then enrolledBricks s n else [target]

/-- The tag after a tag: 1 to 255 and back to 1 (R90). -/
def nextTag (t : Nat) : Nat := t % 255 + 1

/-- Queues a command with the next tag (R90); a command of the same kind, target and parameters that still waits is not queued twice (log 9). -/
def queueCmd (n id target : Nat) (params : List Nat) (s : State) : State :=
  if (s.link n).cmds.any fun c => c.id == id && c.target == target && c.params == params && c.tries == 0 then s
  else
    let tag := nextTag s.tagCtr
    (s.modTagCtr fun _ => tag).updLink n fun l => { l with
      cmds := l.cmds ++ [{ id := id, target := target, params := params, tag := tag, tries := 0, lastFrame := 0, waiting := cmdTargets s n target, order := l.cmdOrder }]
      cmdOrder := l.cmdOrder + 1 }

/-- The module may send BLEED_SET (R128). -/
def mayBleed (s : State) : Bool := s.parB .cellBalEnable && s.modeIn .cellBalModes && s.boot.mode != .lockout

/-- Order in which commands are placed: precedence, then age (R91). -/
def cmdBefore (a b : LinkCmd) : Bool := if cmdClass a.id == cmdClass b.id then decide (a.order ≤ b.order) else decide (cmdClass a.id < cmdClass b.id)

/-- Commands placed in one beacon: in order, each that fits in the room left of 107 bytes, at most one command that a forager has not echoed (R90, R91). -/
def placeCmds (tries : Nat) (room : Nat) (busy : List Nat) : List LinkCmd → List LinkCmd
  | [] => []
  | c :: cs =>
    let need := 4 + cmdLen c.id
    if need ≤ room && decide (c.tries < tries) && !(c.waiting.any busy.contains) then c :: placeCmds tries (room - need) (c.waiting ++ busy) cs
    else placeCmds tries room busy cs

/-- Bricks that have a command carried and not echoed, other than command c. -/
def busyBricks (cmds : List LinkCmd) : List Nat := (cmds.filter fun c => decide (0 < c.tries)).flatMap (·.waiting)

/-- Commands of the beacon of string n (R90, R91): those carried before go first within their class because they are older; one that has not been carried waits while its forager has another. No BLEED_SET goes out where R128 forbids it. -/
def beaconCmds (s : State) (n : Nat) : List LinkCmd :=
  let l := s.link n
  let order := (sortBy cmdBefore l.cmds).filter fun c => c.id != 0x01 || mayBleed s
  let free := order.filter fun c => decide (0 < c.tries) || !(c.waiting.any (busyBricks l.cmds).contains)
  placeCmds (s.parN .linkCmdTries) 107 [] free

/-- The survey whose BURST_ARM goes out in the beacon of the running frame A takes its times, its compensation set and the voltages from that frame (R196, R198). -/
def armBurst (n : Nat) (s : State) : State :=
  match s.surv.imp with
  | none => s
  | some v =>
    if v.string == n && v.frameA.isNone && (beaconCmds s n).any fun c => c.id == 0x03 && some c.tag == v.tag then
      let sf := s.time.frame + s.parN .impArmLead
      let t0 := sf * frameNs + 500000000 / v.rate
      let ps := [sf % 0x100000000, 50000000 / v.rate, v.rate, v.count] ++ v.tones
      (s.modSurv fun u => { u with imp := some { v with
        frameA := some s.time.frame, t0 := t0, tEnd := t0 + (v.count - 1) * (1000000000 / v.rate)
        comp := (List.range 4).filter fun j => j != n && s.parBit .regStrings j && stringClosed s j
        volts := (List.range 4).map fun j => (s.loop j).vsPub.getD 0 } }).updLink n fun l => { l with
          cmds := l.cmds.map fun c => if c.id == 0x03 && some c.tag == v.tag then { c with params := ps } else c }
    else s

/-- The link engine runs the beacons of string n: its port has been configured and has had a frame boundary since (R517). -/
def linkRuns (s : State) (n : Nat) : Bool := linkOn s n && (s.link n).begun

/-- Time at which UWBn_SYNC is driven in the running frame (R72). -/
def syncAt (s : State) (n : Nat) : Nat := s.frameStart + 100000 - s.parN .linkTxSyncLead n

/-- UWB_SYNC (R72, R79, R90, R91, R96): compare unit 3 + n fires and the beacon of the frame is sent, unless the port is being reset; a join answer of the frame goes out in its slot 43. -/
def execUwbSync (t : Nat) (n : Fin 4) (s : State) : Host.Outcome State Fault Refusal :=
  let s := fireUnit (3 + n.val) (s.at_ t)
  if !s.up || !linkRuns s n.val || (s.link n.val).port != 0 || t != syncAt s n.val then .next s
  else
    let s := armBurst n.val s
    let placed := beaconCmds s n.val
    let tags := placed.map (·.tag)
    let s1 := s.updLink n.val fun l => { l with
      beaconOk := true
      cmds := l.cmds.map fun c => if tags.contains c.tag then { c with tries := c.tries + 1, lastFrame := s.time.frame } else c }
    let s2 := s1.send (.spami n.val 0 (beaconPsdu s n.val placed))
    let s3 := match (s.link n.val).answer with | some a => s2.send (.spami n.val 43 (answerPsdu s n.val a)) | none => s2
    .next (s3.clear 0x200A n.val)

/-- BEACON_NOT_CONFIRMED (R110). -/
def execBeaconNotConfirmed (t : Nat) (n : Fin 4) (s : State) : Host.Outcome State Fault Refusal :=
  let s := s.at_ t
  if s.up && linkOn s n.val then .next ((s.updLink n.val fun l => { l with beaconOk := false }).stand 0x200D n.val true) else .next s

/-- RADIO_PORT_RESET (R110, Table 4-16): UWBn_RST_N is held low and the transceiver loses its configuration. A port that had not come up from the reset before counts as failed (DESIGN CHOICE, log 41: Table 4-18 names the state and no rule says when it is entered). -/
def execRadioPortReset (t : Nat) (n : Fin 4) (s : State) : Host.Outcome State Fault Refusal :=
  let s := s.at_ t
  if s.up && linkOn s n.val then
    .next (((s.updLink n.val fun l => { l with port := if l.port == 0 || l.ready then 1 else 2, radio := none, ready := false, beaconOk := false }).send (.radioReset n.val t)).stand 0x200A n.val true)
  else .next s

/-- The transceiver of string n is set to its channel and preamble code (R68). -/
def configRadio (n : Nat) (s : State) : State :=
  let p := radioPair (s.parN .linkPlan) n
  (s.updLink n fun l => { l with radio := some p }).send (.radioConfig n p.1 p.2)

/-- RADIO_PORT_READY (R110): the transceiver is configured again, and beacons resume at the next frame boundary. -/
def execRadioPortReady (t : Nat) (n : Fin 4) (s : State) : Host.Outcome State Fault Refusal :=
  let s := s.at_ t
  if s.up && (s.link n.val).port != 0 then .next ((configRadio n.val s).updLink n.val fun l => { l with ready := true }) else .next s

/-- At a frame boundary a ready port runs again (R110). -/
def resumePorts (s : State) : State :=
  forEach (List.range 4) (fun n s => s.updLink n fun l => if l.ready then { l with port := 0, ready := false } else l) s

/-! Network keys (R81, R86). -/

/-- Both stored copies of a value, the sequence one above the newest (R503). -/
def writePair {α : Type} (p : Pair α) (v : α) : Pair α :=
  let q := max (match p.a with | some (k, _) => k | none => 0) (match p.b with | some (k, _) => k | none => 0) + 1
  { a := some (q, v), b := some (q, v) }

/-- A new K_net is drawn and stored in two MRAM copies (R81), with event 0x200B. -/
def newNetKey (n : Nat) (s : State) : Nat × State :=
  let r := s.draw
  let k := r.1 % 2 ^ 128
  (k, (r.2.modBoot fun b => { b with keys := updAt b.keys n fun p => writePair p k }).raise 0x200B n)

/-- RENEW_NETWORK_KEY (R86): the effect of the accepted command at time t. -/
def renewKey (n : Nat) (s : State) : State :=
  let r := newNetKey n s
  let act := s.time.frame + 500
  forEach (enrolledBricks s n) (fun b s => queueCmd n 0x08 b [r.1, act % 2 ^ 32] s)
    (r.2.updLink n fun l => { l with keyNext := some (r.1, act) })

/-- KEY_ACTIVATION (R86): from the activation frame on every frame of the string is secured with the new key. -/
def execKeyActivation (t : Nat) (n : Fin 4) (s : State) : Host.Outcome State Fault Refusal :=
  let s := s.at_ t
  match (s.link n.val).keyNext with
  | some (k, f) => if s.up && decide (f ≤ s.time.frame) then .next (s.updLink n.val fun l => { l with key := some k, keyNext := none }) else .next s
  | none => .next s

/-! Checks of a received frame (R84). -/

/-- Sum by kind of a discarded frame. -/
def countDiscard (n kind : Nat) (s : State) : State := s.updLink n fun l => { l with discarded := updAt l.discarded kind (· + 1) }

/-- A MIC failure, with event 0x2007 once the failures of the round reach link.mic.alarm (R110); a round that reaches it is noted, so that the event clears after one that does not (Table 4-19). -/
def countMic (n : Nat) (s : State) : State :=
  let s1 := (countDiscard n 5 s).updLink n fun l => { l with mic := l.mic + 1, micRound := l.micRound + 1 }
  if (s1.link n).micRound == s.parN .linkMicAlarm then s1.raiseRound 0x2007 n else s1

/-- A discarded frame is counted by kind, with its event (R84, R110). -/
def discardFrame (n kind : Nat) (s : State) : State :=
  if kind == 0 then (countDiscard n 0 s).raiseRound 0x2008 n
  else if kind == 5 then countMic n s
  else countDiscard n kind s

/-! Joins (R94 to R97). -/

/-- JOIN_REQUEST (R84, R94): passed on only when the unique ID is in the enrolment list and the MIC checks under its K_dev; any other that gets as far as that check counts as a MIC failure, kind 5, with event 0x200E (DESIGN CHOICE, log 41: no K_dev exists with which an unknown unique ID could be read). -/
def execJoinRequest (string slot ts : Nat) (level : Int) (psdu : List Byte) (s : State) : Host.Outcome State Fault Refusal :=
  let x : Rx := { string := string, slot := slot, ts := ts, level := level, psdu := psdu }
  let s := s.at_ x.ts
  if !s.up || !linkRuns s x.string || (s.link x.string).port != 0 then .next s
  else match rxRead s 3 x with
    | .error k => .next (if k == 5 then (discardFrame x.string 5 s).raise 0x200E x.string else discardFrame x.string k s)
    | .ok d => .next (s.updLink x.string fun l => { l with joins := l.joins ++ [joinOf (rxSource x) s.time.frame (joinsOpen s x.string) d] })

/-- First refusal reason of Table 4-13 that applies; 0 for acceptance. -/
def joinReason (s : State) (n : Nat) (q : JoinReq) : Nat :=
  let entry := s.boot.run.enrol.find? (·.uid == q.uid)
  if (match entry with | some e => e.string != n | none => false) then 1
  else if !q.parityOk then 2
  else if s.parN .linkBricks n ≤ q.code then 3
  else if (match (s.forg (brickInst n q.code)).uid with | some u => u != q.uid | none => false) then 4
  else if !s.modeIn .linkJoinModes || !q.open_ then 5
  else if (List.range 144).any fun j => j != brickInst n q.code && (s.forg j).uid == some q.uid then 6
  else 0

/-- Roster as it is stored: brick instance, unique ID and kept record of every entry (R141). -/
def rosterOf (s : State) : List (Nat × Nat × Option Diag) :=
  (List.range 144).filterMap fun j => match (s.forg j).uid with | some u => some (j, u, (s.forg j).diag) | none => none

/-- The roster is written to its two MRAM copies (R141, R503). -/
def storeRoster (s : State) : State := s.modBoot fun b => { b with roster := writePair b.roster (rosterOf s) }

/-- Brick b of a string is named as a relay by some route in force (R91, R100). -/
def clientsOf (s : State) (n p : Nat) : List Nat :=
  (List.range 36).filter fun b => let r := (s.link n).routes.getD b 0x3F3F; (r.toNat % 64 == p) || (r.toNat / 256 % 64 == p)

/-- RELAY_SET to a relay, with up to four clients and 63 for none (R91, Table 4-11). -/
def relaySet (n p : Nat) (s : State) : State :=
  let cs := (clientsOf s n p).take 4
  if enrolled s n p then queueCmd n 0x07 p (cs ++ List.replicate (4 - cs.length) 63) s else s

/-- RELAY_SET to brick p when the route table in force names it as a relay (R91). -/
def sendRelaySet (n p : Nat) (s : State) : State := if (clientsOf s n p).isEmpty then s else relaySet n p s

/-- An accepted join takes its roster entry (R95, R96, R141). -/
def acceptJoin (n : Nat) (q : JoinReq) (s : State) : State :=
  let j := brickInst n q.code
  let s1 := if (s.link n).key.isSome then s else (let r := newNetKey n s; r.2.updLink n fun l => { l with key := some r.1 })
  let keep := (s.forg j).uid == some q.uid
  let s2 := s1.updForg j fun f =>
    let f := { f with fw := some (q.fwVersion, some s.time.frame), diagDue := true, provisional := false, cmpFrom := s.time.now }
    if keep then f else { f with uid := some q.uid, diag := none, diagAt := none, release := none, misses := 0 }
  storeRoster (s2.updLink n fun l => { l with down := l.down.map fun d =>
    if d.target == 63 && !keep then { d with progress := (q.code, s.time.frame) :: d.progress.filter (·.1 != q.code), acked := d.acked.filter (·.1 != q.code) } else d })

/-- JOIN_DECISION at the boundary of a frame (R95 to R97): the oldest request made at least two frames before is answered. -/
def joinDecision (n : Nat) (s : State) : State :=
  let s := s.updLink n fun l => { l with answer := none }
  match (s.link n).joins with
  | [] => s
  | q :: rest =>
    if q.frame + 2 ≤ s.time.frame then
      let r := joinReason s n q
      let s1 := s.updLink n fun l => { l with joins := rest, answer := some (q.uid, r, if r == 0 then q.code else 63) }
      if r == 0 then sendRelaySet n q.code (acceptJoin n q s1)
      else
        let obj := if q.code < 36 then brickInst n q.code else n
        let s2 := (s1.updLink n fun l => { l with joinRefused := l.joinRefused + 1 }).raise 0x2005 (r * 2 ^ 24 + obj)
        if r == 4 then s2.raise 0x2006 (r * 2 ^ 24 + obj) else s2
    else s

/-! Relay map (R102, R103). -/

def routePrimary (r : BitVec 16) : Nat := r.toNat % 64
def routeSecondary (r : BitVec 16) : Nat := r.toNat / 256 % 64
def routeAlways (r : BitVec 16) : Bool := bit r.toNat 7

/-- Candidates in the order of R102: always relayed first, then consecutive misses descending, then brick ascending. own says which bricks were heard in their own slot. -/
def relayCands (s : State) (n : Nat) (own : Nat → Bool) : List Nat :=
  let l := s.link n
  let al (b : Nat) : Bool := routeAlways (l.routes.getD b 0x3F3F)
  let cand := (enrolledBricks s n).filter fun b => al b || !own b
  sortBy (fun a b =>
    if al a != al b then al a
    else
      let ma := (s.forg (brickInst n a)).misses
      let mb := (s.forg (brickInst n b)).misses
      if ma != mb then decide (mb < ma) else decide (a ≤ b)) cand

/-- Entry of a candidate: its primary relay, else its secondary, else a retry (R102). -/
def relayEntry (s : State) (n : Nat) (own : Nat → Bool) (x : Nat) : RelayEntry :=
  let r := (s.link n).routes.getD x 0x3F3F
  let usable (p : Nat) : Bool := decide (p < 36) && enrolled s n p && !(s.forg (brickInst n p)).relayFailed && own p
  if usable (routePrimary r) then { subject := x, kind := 2, sender := routePrimary r }
  else if usable (routeSecondary r) then { subject := x, kind := 2, sender := routeSecondary r }
  else { subject := x, kind := 1, sender := x }

/-- Six entries of the relay map, idle when no candidate is left (R102). -/
def relayMap (s : State) (n : Nat) (own : Nat → Bool) : List RelayEntry :=
  let es := ((relayCands s n own).take 6).map (relayEntry s n own)
  es ++ List.replicate (6 - es.length) ({} : RelayEntry)

/-- Marks a relay failed, or counts its return (R102), at the uplink deadline. -/
def judgeRelay (n p : Nat) (s : State) : State :=
  let l := s.link n
  let own := (s.forg (brickInst n p)).own
  let blame := (List.range 6).any fun j =>
    let e := l.relay.getD j {}
    e.kind == 2 && e.sender == p && !(l.relayGot.getD j false) && (!own || (s.forg (brickInst n e.subject)).up.isSome)
  let f := s.forg (brickInst n p)
  if blame then (s.updForg (brickInst n p) fun f => { f with relayFailed := true, relayRun := 0 }).stand 0x2003 (brickInst n p) true
  else if f.relayFailed then
    let run := if own then f.relayRun + 1 else 0
    if s.parN .linkRelayRestore ≤ run then (s.updForg (brickInst n p) fun f => { f with relayFailed := false, relayRun := run }).clear 0x2003 (brickInst n p)
    else s.updForg (brickInst n p) fun f => { f with relayRun := run }
  else s

/-! Bulk transfers (R105 to R109). -/

/-- Fragments of an object of a length. -/
def fragments (total : Nat) : Nat := (total + 63) / 64

/-- Objects that the link engine expects from a forager, in the upload order of R138, with the fragments it counts for each (R107). -/
def expected (f : Forager) : List (Nat × Nat) :=
  match f.up with
  | none => []
  | some (u, _) =>
    let burst := bit u.flags.toNat 4
    let ow := bit u.flags.toNat 6
    let pend := bit u.flags.toNat 5
    let size (obj dflt : Nat) : Nat := match f.ups.find? (·.object == obj) with
      | some x => (match x.total with | some n => fragments n | none => dflt)
      | none => dflt
    let begun (obj : Nat) : Bool := f.ups.any fun x => x.object == obj && !x.frags.isEmpty
    if !pend then []
    else (if ow || begun 2 then [(2, size 2 1)] else []) ++ (if f.diagDue || (!burst && !ow) || begun 4 then [(4, size 4 2)] else []) ++ (if burst || begun 1 then [(1, size 1 6)] else [])

/-- The link engine holds every fragment of an object of brick b, whose BULK_DONE the forager has not echoed (R108). -/
def doneOut (s : State) (n b obj : Nat) : Bool := (s.link n).cmds.any fun c => c.id == 0x0C && c.target == b && c.params == [obj]

/-- Fragments of brick b still to be asked for, as object and index, in upload order (R107). -/
def wanted (s : State) (n b : Nat) : List (Nat × Nat) :=
  let f := s.forg (brickInst n b)
  ((expected f).filter fun e => !doneOut s n b e.1).flatMap fun e =>
    let held : List Nat := match f.ups.find? (·.object == e.1) with | some x => x.frags.map (·.1) | none => []
    ((List.range e.2).filter fun i => !held.contains i).map fun i => (e.1, i)

/-- Bricks in the order of R107: after the brick served last. -/
def bulkOrder (last : Nat) : List Nat := ((List.range 36).map fun k => (last + 1 + k) % 36)

/-- Objects that travel while P3 work is suspended: open-wire results and diagnostic records (R294, and in the same way for R12 and R576, log 34). -/
def cool (s : State) (obj : Nat) : Bool := !p3Held s || obj == 2 || obj == 4

/-- Up slots for the foragers that ask for them, one after another, up to the slots left (R107, R294). -/
def upSlots (s : State) (n : Nat) : List Nat → Nat → List (Nat × Nat × Nat)
  | [], _ => []
  | b :: bs, room =>
    let w := if enrolled s n b then ((wanted s n b).filter fun e => cool s e.1).take room else []
    w.map (fun e => (b, e.1, e.2)) ++ upSlots s n bs (room - w.length)

/-- Bulk map of the next frame (R107), with the grants it makes. Of several down transfers of a string the oldest has the down slots until it ends (DESIGN CHOICE, log 41: R107 names one). -/
def bulkMap (n : Nat) (s : State) : State :=
  let l := s.link n
  let down : List BulkEntry := match l.down.filter (fun d => cool s d.object) with | d :: _ => [{ brick := d.target, dir := 2, arg := d.id, obj := d.object }] | [] => []
  let first := if down.isEmpty then 0 else min 5 (s.parN .linkBulkDownMin)
  let grants := upSlots s n (bulkOrder l.bulkLast) (5 - first)
  let ups : List BulkEntry := grants.map fun g => { brick := g.1, dir := 1, arg := g.2.2 % 256, obj := g.2.1 }
  let d : BulkEntry := down.headD {}
  let rest := 5 - first - ups.length
  let m := List.replicate first d ++ ups ++ List.replicate rest d
  let s1 := s.updLink n fun l => { l with bulkNext := m, bulkLast := match grants.getLast? with | some g => g.1 | none => l.bulkLast }
  forEach grants (fun g s => s.updForg (brickInst n g.1) fun f =>
    if f.ups.any (·.object == g.2.1) then f
    else { f with ups := f.ups ++ [{ object := g.2.1, total := none, frags := [], granted := s.time.frame + 1 }] }) s1

/-- While P3 work is suspended, the timeouts of the transfers that wait do not run (R294). -/
def holdBulk (s : State) : State :=
  if p3Held s then
    (s.modForgs fun fs => fs.map fun f => { f with ups := f.ups.map fun u => if cool s u.object then u else { u with granted := u.granted + 1 } }).modLinks fun ls =>
      ls.map fun l => { l with down := l.down.map fun d => if cool s d.object then d else { d with progress := d.progress.map fun p => (p.1, p.2 + 1) } }
  else s

/-- Slots of the running frame whose object waits carry nothing (R294): the map was filled before P3 work was suspended. -/
def coolMaps (s : State) : State :=
  if p3Held s then s.modLinks fun ls => ls.map fun l => { l with bulk := l.bulk.map fun e => if e.dir == 0 || cool s e.obj then e else {} } else s

/-- Bulk slots of the running frame, once its P3 grant is known (R40, R294). -/
def bulkFrame (s : State) : State := holdBulk (coolMaps s)

/-- Next fragment that a brick expects, from the low 8 bits it reports (R108). -/
def ackIndex (old ack : Nat) : Nat := old + (ack + 256 - old % 256) % 256

/-- The uplink's bulk_ack advances the down transfer of its brick (R108, R109). -/
def ackDown (n b ack : Nat) (s : State) : State :=
  s.updLink n fun l => { l with down := l.down.map fun d =>
    if d.target == b || d.target == 63 then
      let old := (d.acked.lookup b).getD 0
      let new := min (ackIndex old ack) d.total
      { d with acked := (b, new) :: d.acked.filter (·.1 != b)
               progress := if new == old then d.progress else (b, s.time.frame) :: d.progress.filter (·.1 != b) }
    else d }

/-- Lowest fragment of a down transfer that its target has not acknowledged (R108). -/
def lowestDown (s : State) (n : Nat) (d : DownXfer) : Nat :=
  let bs := if d.target == 63 then enrolledBricks s n else [d.target]
  bs.foldl (fun m b => min m ((d.acked.lookup b).getD 0)) d.total

/-- The 64 bytes of fragment i of the forager image (Table 20-5): the head, then the CN16 part as it stands in the package. -/
def imageFragment (u : UpdState) (i : Nat) : List Byte :=
  match u.staged.bind fun m => m.parts.find? (·.code == 5) with
  | none => []
  | some p =>
    if i == 0 then toLE 4 p.version ++ toLE 4 p.size ++ toLE 32 p.sha ++ List.replicate 24 0
    else
      let off := p.offset + 64 * (i - 1)
      let bytes := ((u.chunks.lookup (off / 1024)).getD []).drop (off % 1024) |>.take (min 64 (p.size - 64 * (i - 1)))
      bytes ++ List.replicate (64 - bytes.length) 0

/-- A time lies in the 200 us slot that begins at an offset of the running frame (Table 4-3). -/
def inSlot (from_ t : Nat) (s : State) : Bool := decide (s.frameStart + from_ ≤ t) && decide (t < s.frameStart + from_ + 200000)

/-- BULK_DOWN_SLOT (R70, R105, R108): in a slot mapped down the lowest fragment not acknowledged is sent, within slot 44 + k of Table 4-3, while its transfer does not wait (R294). -/
def execBulkDownSlot (t : Nat) (n : Fin 4) (k : Fin 5) (s : State) : Host.Outcome State Fault Refusal :=
  let s := s.at_ t
  let e := (s.link n.val).bulk.getD k.val {}
  match (s.link n.val).down.find? (·.id == e.arg) with
  | some d =>
    if s.up && e.dir == 2 && (s.link n.val).port == 0 && cool s d.object && inSlot (9000000 + 200000 * k.val) t s then
      let i := lowestDown s n.val d
      if i < d.total then
        .next (s.send (.spami n.val (44 + k.val) (bulkPsdu s n.val (44 + k.val) d.id d.object i d.bytes (imageFragment s.upd i))))
      else .next s
    else .next s
  | none => .next s

/-- Opens a down transfer with the next identifier (R105). -/
def openDown (n target bytes : Nat) (s : State) : State :=
  s.updLink n fun l => { l with
    down := l.down ++ [{ id := l.xferNext, target := target, object := 3, total := fragments bytes, bytes := bytes, acked := [], progress := (cmdTargets s n target).map fun b => (b, s.time.frame) }]
    xferNext := if l.xferNext == 255 then 16 else l.xferNext + 1 }

end Sys2Proof.Machine
end

