-- ==== Sys2Proof/Machine/ForagerNode.lean ====
section
/-!
DEFINITION. ForagerNode: what the module does with a forager's frames: uplinks, bulk objects, the uplink deadline, cross-checks, the bleed
account and sense wires (chapters 04 and 05).
-/
namespace Sys2Proof.Machine

/-! Open-wire tests (R143 to R149). -/

/-- Cell that the test of wire k bleeds (R145). -/
def testCell (k : Nat) : Nat := if k == 0 then 0 else k - 1

/-- Cells of wire k (Table 5-6). -/
def wireCells (k : Nat) : List Nat := if k == 0 then [0] else if k == 16 then [15] else [k - 1, k]

/-- Argument of an event of a wire: the cell that its test bleeds, and the wire in bits 31:24, so that the raises of two wires keep separate records (R613; log 8). -/
def wireArg (n b k : Nat) : Nat := evArg k (576 * n + 16 * b + testCell k)

def updWire (k : Nat) (g : Wire → Wire) (f : Forager) : Forager := { f with wires := updAt f.wires k g }

/-- Sends OPEN_WIRE for wire k unless an earlier test of the forager is still out; then a later frame sends it (R145). -/
def tryTest (n b k : Nat) (s : State) : State :=
  let j := brickInst n b
  match (s.forg j).owTest with
  | some _ => s
  | none =>
    queueCmd n 0x04 b [2 ^ testCell k, s.parN .cellOwDuration]
      (s.updForg j fun f => { updWire k (fun w => { w with retryAt := none }) f with owTest := some { wire := k, endFrame := none } })

/-- A test without a result counts as timed out: event 0x100E, state 2 from 3, repetition after cell.ow.retry (R149). -/
def testTimeout (n b : Nat) (s : State) : State :=
  let j := brickInst n b
  match (s.forg j).owTest with
  | none => s
  | some o =>
    (s.updForg j fun f => { updWire o.wire (fun w => { w with st := if w.st == 3 then 2 else w.st, retryAt := some (s.time.frame + 100 * s.parN .cellOwRetry) }) f with owTest := none }).raise 0x100E (wireArg n b o.wire)

/-- OPEN_WIRE_RESULT_TIMEOUT (R149): no result 150 frames after the end of the test, counted in frame numbers from the frame of v_on (DESIGN CHOICE, log 10). -/
def execOpenWireResultTimeout (t : Nat) (n : Fin 4) (b : Fin 36) (s : State) : Host.Outcome State Fault Refusal :=
  let s := s.at_ t
  match (s.forg (brickInst n.val b.val)).owTest with
  | some { wire := _, endFrame := some e } => if s.up && decide (e + 150 ≤ s.time.frame) then .next (testTimeout n.val b.val s) else .next s
  | _ => .next s

/-- OPEN_WIRE_RETRY (R145, R148, R149): tests whose time of repetition has come are sent again, where cell.ow.auto or an order not yet answered asks for them (log 10). -/
def execOpenWireRetry (t : Nat) (n : Fin 4) (b : Fin 36) (s : State) : Host.Outcome State Fault Refusal :=
  let s := s.at_ t
  let j := brickInst n.val b.val
  let due := (List.range 17).filter fun k =>
    let w := (s.forg j).wires.getD k {}
    (match w.retryAt with | some f => decide (f ≤ s.time.frame) | none => false) && (w.ordered || (s.parB .cellOwAuto && (w.st == 2 || (w.st == 5 && w.run != 0))))
  if s.up then .next (forEach due (fun k s => tryTest n.val b.val k s) s) else .next s

/-- Confirmation of Table 5-7, dv in mV. -/
def owConfirmed (lim : Int) (k : Nat) (dv : List Int) : Bool :=
  if k == 0 then decide (dv.getD 0 0 ≤ -lim)
  else if k == 16 then decide (dv.getD 15 0 ≤ -lim)
  else decide (dv.getD (k - 1) 0 ≤ -lim) && decide (lim ≤ dv.getD k 0)

/-- A delivered open-wire result (R147, R148). One that arrives while no test is out is dropped, and one that arrives before the echo of the test under way is taken as its result, with the running frame as that of v_on (DESIGN CHOICE, log 10: no rule says whose result it is). -/
def owResult (n b : Nat) (bytes : List Byte) (s : State) : State :=
  let j := brickInst n b
  match (s.forg j).owTest with
  | none => s
  | some o =>
    let dv := (List.range 16).map fun c => signed 16 (ofLE ((bytes.drop (2 * c)).take 2))
    let ok := owConfirmed (s.par .cellOwConfirm) o.wire dv
    let von := o.endFrame.getD s.time.frame
    let old := (s.forg j).wires.getD o.wire {}
    let k := o.wire
    let s1 := s.updForg j fun f => { updWire k (fun w =>
      if old.st == 4 then { w with ordered := false, passed := old.ordered && !ok, vOn := if ok then von else w.vOn }
      else if ok then { w with st := 4, ordered := false, passed := false, vOn := von, retryAt := none }
      else { w with st := 5, ordered := false, vOn := von, retryAt := some (s.time.frame + 100 * s.parN .cellOwRetry) }) f with owTest := none }
    if ok then s1.stand 0x1004 (wireArg n b k) true
    else if old.st == 4 then s1 else s1.raise 0x1005 (wireArg n b k)

/-- The test ordered by an Engineer (R145, R148). -/
def orderTest (n b k : Nat) (s : State) : State :=
  tryTest n b k (s.updForg (brickInst n b) (updWire k fun w => { w with ordered := true, retryAt := none }))

/-- Wires whose test is asked for, by suspicion under cell.ow.auto or by an order, and not waiting for its time of repetition: the first is sent when no test of the forager is out (R145). -/
def testsDue (n b : Nat) (s : State) : State :=
  let f := s.forg (brickInst n b)
  if f.owTest.isSome || !enrolled s n b then s
  else
    match (List.range 17).find? fun k => let w := f.wires.getD k {}; w.retryAt.isNone && (w.ordered || (w.st == 2 && s.parB .cellOwAuto)) with
    | some k => tryTest n b k s
    | none => s

/-! Bleed commands (R123, R126). -/

/-- Bleed state that a BLEED_SET or BLEED_OFF sets: mask and timers in seconds (R123, R124). -/
def bleedOf (mask : Nat) (timers : List Nat) : List Bleed :=
  (List.range 16).map fun c =>
    let t := timers.getD c 0
    if bit mask c && decide (1 ≤ t) then { on := true, timer := some (100 * t) } else { on := false, timer := some 0 }

/-- Bleed remaining of a cell by the account, in seconds rounded in a direction that no rule names (log 5), 0xFFFF while its timer is not known (R126, Table 5-10). -/
def bleedLeft (x : Bleed) : Int := if x.on then (match x.timer with | some k => wholeUnits ((k : Rat) / 100) | none => 0xFFFF) else 0

/-- Seconds with which a bleeding cell is sent again in a BLEED_SET that takes out another: a part of a second left counts as one (DESIGN CHOICE, log 10: R144 names no timer), 0xFFFF while its timer is not known. -/
def bleedSecs (x : Bleed) : Nat := if x.on then (match x.timer with | some k => (k + 99) / 100 | none => 0xFFFF) else 0

/-- Queues the bleed state of a brick for an owner (R25): BLEED_SET for the cells given a time, where R128 lets it be sent, BLEED_OFF when there are none (R123, R127). -/
def sendBleed (o : Owner) (n b : Nat) (secs : Nat → Nat) (s : State) : State :=
  let ts := (List.range 16).map fun c => min (secs c) 4095
  let mask := (List.range 16).foldl (fun m c => if ts.getD c 0 == 0 then m else m + 2 ^ c) 0
  let s1 := s.because (.bleed (brickInst n b)) o
  if mask == 0 then queueCmd n 0x02 b [] s1 else if mayBleed s then queueCmd n 0x01 b (mask :: ts) s1 else s

/-- A BLEED_SET or BLEED_OFF for the brick waits or is not acknowledged. -/
def bleedOut (s : State) (n b : Nat) : Bool := (s.link n).cmds.any fun c => (c.id == 0x01 || c.id == 0x02) && c.waiting.contains b

/-- Cells of a suspected, tested or confirmed wire are excluded from balancing (R144). -/
def excluded (f : Forager) (c : Nat) : Bool := decide (2 ≤ (f.wires.getD c {}).st) || decide (2 ≤ (f.wires.getD (c + 1) {}).st)

/-- Excluded cells that bleed by the account are taken out of the brick's bleed (R144); a timer that is not known counts as cell.bal.t_max (DESIGN CHOICE, log 10). -/
def dropExcluded (n b : Nat) (s : State) : State :=
  let f := s.forg (brickInst n b)
  if !bleedOut s n b && (List.range 16).any fun c => excluded f c && (f.bleed.getD c {}).on then
    sendBleed .reaction n b (fun c => if excluded f c then 0 else min (s.parN .cellBalTMax) (bleedSecs (f.bleed.getD c {}))) s
  else s

/-! Uplinks. -/

/-- What the echo of a command's tag by brick b means to the module (R108, R126, R145, R196). The command counts as taken in the frame of the first echo received (DESIGN CHOICE, log 10: with several beacons and a lost uplink it may have been taken earlier). -/
def ackEffect (n b : Nat) (c : LinkCmd) (s : State) : State :=
  let j := brickInst n b
  let f := s.time.frame
  match c.id with
  | 0x01 => s.updForg j fun x => { x with bleedNext := some (f, bleedOf (c.params.headD 0) (c.params.drop 1)) }
  | 0x02 => s.updForg j fun x => { x with bleedNext := some (f, bleedOf 0 []) }
  | 0x03 => match s.surv.imp with
    | some v =>
      if v.string == n && v.tag == some c.tag && decide (f < v.t0 / frameNs) then
        (s.updForg j fun x => { x with
          burst := 1, burstRes := none, burstEnd := some v.tEnd, holdOff := some (v.t0 - 100000, v.tEnd + 100000)
          ups := x.ups.filter (·.object != 1) }).modSurv fun u => { u with imp := some { v with took := b :: v.took } }
      else s
    | none => s
  | 0x04 =>
    let dur := c.params.getD 1 0
    s.updForg j fun x => { x with
      owTest := x.owTest.map fun o => { o with endFrame := some (f + dur / 10) }
      owRun := some (BitVec.ofNat 16 (c.params.headD 0), f, dur)
      ups := x.ups.filter (·.object != 2) }
  | 0x0A => s.updForg j fun x => { x with imgEcho := true }
  | _ => s

/-- The tag that an uplink echoes acknowledges its command (R90). -/
def ackTag (n b tag : Nat) (s : State) : State :=
  let hit := (s.link n).cmds.filter fun c => c.tag == tag && decide (0 < c.tries) && c.waiting.contains b
  match hit with
  | [] => s
  | c :: _ =>
    let s1 := s.updLink n fun l => { l with cmds := (l.cmds.map fun d =>
      if d.tag == tag && decide (0 < d.tries) then { d with waiting := d.waiting.filter (· != b) } else d).filter fun d => !(d.tries != 0 && d.waiting.isEmpty) }
    (ackEffect n b c s1).clear 0x2009 (brickInst n b)

def upFlag (u : Uplink) (k : Nat) : Bool := u.flags.getLsbD k

/-- The forager has restarted: its uplink carries no tag after one that did (R90: tag 0 is that of a forager that has executed no command since it restarted; DEDUCED, log 41). -/
def seemsRestarted (f : Forager) (u : Uplink) : Bool := u.cmdTag == 0 && match f.last with | some (o, _) => o.cmdTag != 0 | none => false

/-- Burst state after an uplink: a result waits while burst_ready is set, until it has been received, and a result that waits has gone once it is not (Table 5-10). -/
def burstShown (ready : Bool) (st : Nat) : Nat := if ready then (if st == 4 then 4 else 3) else if st == 3 then 0 else st

/-- UPLINK (R84, R20, R63, R90, R107, R132): an uplink, retry or relay frame that passes the checks is held for the frame. -/
def execUplink (m : RxMeta) (psdu : List Byte) (s : State) : Host.Outcome State Fault Refusal :=
  let x : Rx := { toRxMeta := m, psdu := psdu }
  let s := s.at_ x.ts
  if !s.up || !linkRuns s x.string || (s.link x.string).port != 0 then .next s
  else match rxRead s 2 x with
    | .error k => .next (discardFrame x.string k s)
    | .ok d =>
      let u := uplinkOf d
      let n := x.string
      let b := rxSource x
      let j := brickInst n b
      if s.frameStart + 8800000 < x.ts then .next (s.updLink n fun l => { l with late := l.late + 1 })
      else if !enrolled s n b then .next s
      else
        let own := x.slot == b + 1
        let s1 := s.updForg j fun f => { f with
          up := if f.up.isSome then f.up else some (u, x.slot)
          own := f.own || own, provisional := f.provisional && !own
          diagDue := f.diagDue || seemsRestarted f u
          levelNow := if own then some x.level else f.levelNow
          burst := burstShown (upFlag u 4) f.burst }
        let s2 := if own then s1 else s1.updLink n fun l => { l with relayGot := updAt l.relayGot (x.slot - 37) fun _ => true }
        let s3 := ackDown n b u.bulkAck (ackTag n b u.cmdTag s2)
        .next ((((s3.stand 0x1006 j (u.ov != 0)).stand 0x1007 j (u.uv != 0)).stand 0x1008 j (upFlag u 2)).stand 0x1009 j (upFlag u 3))

/-! Bulk objects. -/

/-- Diagnostic record of Table 5-4 from its bytes. -/
def diagOf (bs : List Byte) : Diag :=
  let at_ (o w : Nat) : Nat := ofLE ((bs.drop o).take w)
  { uid := at_ 0 8, format := at_ 8 1, hwRev := at_ 9 1, code := at_ 0x0A 1 % 64, parity := bit (at_ 0x0A 1) 6, resetCause := at_ 0x0B 1, fwActive := at_ 0x0C 4, fwInactive := at_ 0x10 4
    ovThr := at_ 0x14 2, uvThr := at_ 0x16 2, cmpHyst := at_ 0x18 2, cmpFilter := at_ 0x1A 2, restarts := at_ 0x1C 4, loopStops := at_ 0x20 4, owTests := at_ 0x24 2
    bleedR := (List.range 16).map fun c => at_ (0x28 + 2 * c) 2, calDay := at_ 0x48 4 }

/-- The kept record's thresholds equal the configured ones (R133). -/
def thrMatch (s : State) (d : Diag) : Bool := d.ovThr == s.parN .cellCmpOv && d.uvThr == s.parN .cellCmpUv

/-- Comparator thresholds event of a forager whose record is kept (R133, R141). -/
def judgeThr (j : Nat) (s : State) : State := match (s.forg j).diag with | some d => s.stand 0x100A j (!thrMatch s d) | none => s

/-- Foragers counted in fg_needed: enrolled, of strings set in link.strings (Table 20-4). -/
def neededForagers (s : State) : List Nat := (List.range 144).filter fun j => (s.forg j).uid.isSome && linkOn s (j / 36)

/-- When every needed forager is staged the update is Ready (R547). -/
def judgeStaged (s : State) : State :=
  if s.upd.st == 3 && (neededForagers s).all fun j => (s.forg j).staging == 2 then (s.modUpd fun u => { u with st := 4 }).raise 0x9035 0 else s

/-- A down transfer to the brick still has fragments that it has not acknowledged. -/
def downPending (s : State) (n b : Nat) : Bool :=
  (s.link n).down.any fun d => (d.target == b || (d.target == 63 && (d.progress.lookup b).isSome)) && decide ((d.acked.lookup b).getD 0 < d.total)

/-- A record shows whether its forager holds the staged image (R547); one that does not after the whole object has gone over is a failed transfer. -/
def stagingRecord (j : Nat) (d : Diag) (s : State) : State :=
  match s.upd.staged.bind fun m => m.parts.find? (·.code == 5) with
  | none => s
  | some p =>
    if s.upd.st == 3 || s.upd.st == 4 then
      if d.fwInactive == p.version || d.fwActive == p.version then judgeStaged ((s.updForg j fun f => { f with staging := 2 }).clear 0x9036 j)
      else if (s.forg j).staging == 1 && !downPending s (j / 36) (j % 36) then s.updForg j fun f => { f with staging := 0, stageTries := f.stageTries + 1 }
      else s
    else s

/-- A delivered diagnostic record replaces the kept one (R141), with the threshold check (R133), the restart (R91, R141) and staging (R547). -/
def diagRecord (n b : Nat) (bytes : List Byte) (s : State) : State :=
  let j := brickInst n b
  let d := diagOf bytes
  let restarted := match (s.forg j).diag with | some o => decide (o.restarts < d.restarts) | none => false
  let s1 := storeRoster (s.updForg j fun f => { f with diag := some d, diagAt := some s.time.frame, fw := some (d.fwActive, some s.time.frame), diagDue := false, cmpFrom := if restarted then s.time.now else f.cmpFrom })
  let s2 := judgeThr j s1
  let s3 := if restarted then sendRelaySet n b (s2.raise 0x100D j) else s2
  stagingRecord j d s3

/-- Fixed length of an up object, or the most it may hold (Table 4-15). -/
def objectFits (object total : Nat) : Bool :=
  match object with | 1 => total == 384 | 2 => total == 32 | 4 => decide (total ≤ 1024) | _ => false

/-- A fragment is rejected whole under R106. One whose xfer is not its object code (R105), or whose object no forager uploads, is rejected in the same way also where nothing of the transfer is held (DESIGN CHOICE, log 41: R106 names no handling). -/
def fragBad (f : Forager) (x : Fragment) : Bool :=
  x.len == 0 || decide (64 < x.len) || x.total == 0 || x.total == 0xFFFF || decide (x.total < 64 * x.index + x.len) ||
  (decide (x.len < 64) && x.index + 1 != fragments x.total) || !objectFits x.object x.total || x.xfer != x.object ||
  (match f.ups.find? (·.object == x.object) with
    | some h => (match h.total with | some t => t != x.total | none => false)
    | none => false)

/-- Bytes of an object whose fragments are all held. -/
def assemble (u : UpXfer) (total : Nat) : List Byte :=
  (((List.range (fragments total)).flatMap fun i => ((u.frags.lookup i).getD []).take 64)).take total

/-- BULK_UP (R84, R105, R106, R108): a fragment is held; a complete object is delivered and BULK_DONE is queued. -/
def execBulkUp (m : RxMeta) (psdu : List Byte) (s : State) : Host.Outcome State Fault Refusal :=
  let r : Rx := { toRxMeta := m, psdu := psdu }
  let s := s.at_ r.ts
  if !s.up || !linkRuns s r.string || (s.link r.string).port != 0 then .next s
  else match rxRead s 5 r with
    | .error k => .next (discardFrame r.string k s)
    | .ok d =>
      let x := fragmentOf d
      let n := r.string
      let b := rxSource r
      let j := brickInst n b
      let f := s.forg j
      if !enrolled s n b then .next s
      else if fragBad f x then .next ((countDiscard n 0 s).raiseRound 0x2008 j)
      else if doneOut s n b x.object then .next s
      else
        let cur : UpXfer := (f.ups.find? (·.object == x.object)).getD { object := x.object, total := none, frags := [], granted := s.time.frame }
        let new : UpXfer := { cur with total := some x.total, frags := (x.index, x.data.take x.len) :: cur.frags.filter (·.1 != x.index) }
        if new.frags.length < fragments x.total then
          .next (s.updForg j fun f => { f with ups := new :: f.ups.filter (·.object != x.object) })
        else
          let bytes := assemble new x.total
          let s1 := queueCmd n 0x0C b [x.object] (s.updForg j fun f => { f with ups := f.ups.filter (·.object != x.object) })
          .next (match x.object with
            | 1 =>
              let kept := match s.surv.imp with | some v => v.string == n && v.took.contains b | none => false
              s1.updForg j fun f => { f with burst := 4, burstRes := if kept then some bytes else none, burstAt := some s.time.frame, burstEnd := none }
            | 2 => owResult n b bytes s1
            | _ => diagRecord n b bytes s1)

/-- Drops a brick from a down transfer; a transfer to that brick alone ends (R109). -/
def dropDown (n id b : Nat) (s : State) : State :=
  s.updLink n fun l => { l with down := (l.down.map fun d =>
    if d.id == id then { d with progress := d.progress.filter (·.1 != b), acked := (b, d.total) :: d.acked.filter (·.1 != b) } else d).filter fun d => !(d.id == id && (d.target == b || d.progress.isEmpty)) }

/-- BULK_TRANSFER_TIMEOUT (R109): every transfer of the brick that has not completed or progressed in time is abandoned. -/
def execBulkTransferTimeout (t : Nat) (n : Fin 4) (b : Fin 36) (s : State) : Host.Outcome State Fault Refusal :=
  let s := s.at_ t
  if !s.up then .next s
  else
    let j := brickInst n.val b.val
    let lim := s.parN .linkBulkTimeout
    let late := (s.forg j).ups.filter fun u => decide (u.granted + lim ≤ s.time.frame)
    let s1 := forEach late (fun u s => (queueCmd n.val 0x0B b.val [u.object] (s.updForg j fun f => { f with ups := f.ups.filter (·.object != u.object) })).raise 0x200C j) s
    let stuck := (s.link n.val).down.filter fun d => match d.progress.lookup b.val with
      | some f => decide (f + lim ≤ s.time.frame) && decide ((d.acked.lookup b.val).getD 0 < d.total)
      | none => false
    .next (forEach stuck (fun d s => ((queueCmd n.val 0x0B b.val [d.id] (dropDown n.val d.id b.val s)).updForg j fun f => { f with stageTries := f.stageTries + 1, staging := 0 }).raise 0x200C j) s1)

/-! The uplink deadline. -/

/-- Link state of a brick at the deadline (Table 4-18). -/
def linkStateOf (l : LinkStr) (f : Forager) (b : Nat) : Nat :=
  match f.uid, f.up with
  | none, _ => 0
  | some _, none => 5
  | some _, some (u, slot) =>
    if !upFlag u 0 then 6
    else if slot ≤ 36 then 1
    else
      let e := l.relay.getD (slot - 37) {}
      if e.kind == 1 then 2 else if e.sender == routePrimary (l.routes.getD b 0x3F3F) then 3 else 4

/-- A brick's reading closes at the deadline (R20, R102, R110). -/
def closeBrick (n b : Nat) (s : State) : State :=
  let j := brickInst n b
  let f := s.forg j
  let got : Option Uplink := match f.up with | some (u, _) => if upFlag u 0 then some u else none | none => none
  let miss := if f.uid.isSome then (if got.isSome then 0 else f.misses + 1) else 0
  let s1 := s.updForg j fun x => { x with
    linkSt := linkStateOf (s.link n) f b, misses := miss, closed := got
    last := match got with | some u => some (u, s.time.frame) | none => x.last
    level := match x.levelNow with | some v => some (v, s.time.frame) | none => x.level }
  if f.uid.isSome then (s1.stand 0x2001 j got.isNone).stand 0x2002 j (decide (3 ≤ miss)) else s1

/-- A BLEED_SET that R128 no longer lets be sent, and whose last echo could have come, is dropped (DESIGN CHOICE, log 10). -/
def dropBleed (n : Nat) (s : State) : State :=
  if mayBleed s then s
  else s.updLink n fun l => { l with cmds := l.cmds.filter fun c => !(c.id == 0x01 && (c.tries == 0 || decide (c.lastFrame + 1 ≤ s.time.frame))) }

/-- Commands given up at the deadline (R90, R149). -/
def giveUp (n : Nat) (s : State) : State :=
  let s := dropBleed n s
  let gone := (s.link n).cmds.filter fun c => decide (s.parN .linkCmdTries ≤ c.tries) && decide (c.lastFrame + 1 ≤ s.time.frame)
  let s1 := s.updLink n fun l => { l with cmds := l.cmds.filter fun c => !(decide (s.parN .linkCmdTries ≤ c.tries) && decide (c.lastFrame + 1 ≤ s.time.frame)) }
  forEach gone (fun c s => forEach c.waiting (fun b s =>
    let s2 := s.raise 0x2009 (brickInst n b)
    if c.id == 0x04 then testTimeout n b s2 else s2) s) s1

/-- Work of one string at the deadline (R90, R102, R103, R107). A forager heard with sample_valid = 0 counts under Not heard (DESIGN CHOICE, log 41: Table 4-18 does not say where state 6 counts). -/
def closeString (n : Nat) (s : State) : State :=
  let bricks := List.range 36
  let s1 := forEach bricks (fun b s => closeBrick n b s) s
  let relays := (((s.link n).relay.filter fun e => e.kind == 2).map (·.sender)) ++ bricks.filter fun b => (s.forg (brickInst n b)).relayFailed
  let s2 := forEach (relays.eraseDups) (fun p s => judgeRelay n p s) s1
  let own (b : Nat) : Bool := (s.forg (brickInst n b)).own
  let s3 := s2.updLink n fun l => { l with
    relayNext := relayMap s2 n own
    heardCounts := ((bricks.filter fun b => (s2.forg (brickInst n b)).linkSt == 1).length,
      (bricks.filter fun b => [2, 3, 4].contains (s2.forg (brickInst n b)).linkSt).length,
      (bricks.filter fun b => [5, 6].contains (s2.forg (brickInst n b)).linkSt).length) }
  let s4 := s3.stand 0x2004 n (decide (6 < (relayCands s2 n own).length))
  let s5 := giveUp n (bulkMap n s4)
  if (s.link n).beaconOk then s5.clear 0x200D n else s5

/-- The uplink deadline of every string with a link (R102). -/
def closeLinks (s : State) : State := forEach ((List.range 4).filter (linkRuns s)) closeString s

/-- At a frame boundary the maps of the last deadline come into force and the uplinks of the frame that ended are let go. -/
def newLinkFrame (s : State) : State :=
  let s1 := s.modLinks fun ls => ls.map fun l => { l with relay := l.relayNext, bulk := l.bulkNext, relayGot := List.replicate 6 false }
  s1.modForgs fun fs => fs.map fun f => { f with up := none, own := false, levelNow := none }

/-! Cross-checks of one brick, on the reading closed for the last frame (R117 to R119, R140, R143, R144). -/

/-- R118: the coarse reading of cell c agrees with the primary. -/
def coarseOk (s : State) (u : Uplink) (c : Nat) : Bool :=
  let d := u.coarse.getD c (-128)
  d != -128 && decide (d.natAbs ≤ s.parN .cellCoarseTol)

/-- Sum difference D in 100 uV; none when an input is Invalid (R117, R119). -/
def brickD (u : Uplink) : Option Int :=
  if u.brickV == 0 || u.brickV == 4095 || u.cellV.any (fun v => v == 0 || v == 65535) then none
  else some (200 * (u.brickV : Int) - ((u.cellV.foldl (· + ·) 0 : Nat) : Int))

/-- Twice the median of the 16 readings: the 8th plus the 9th in order, 100 uV. -/
def median2 (u : Uplink) : Int :=
  let o := sortBy (fun a b => decide (a ≤ b)) u.cellV
  ((o.getD 7 0 + o.getD 8 0 : Nat) : Int)

/-- Twice the deviation of cell c from the median. -/
def dev2 (u : Uplink) (c : Nat) : Int := 2 * ((u.cellV.getD c 0 : Nat) : Int) - median2 u

/-- Pattern of wire k (Table 5-6) on an uplink. Deviations are doubled, mV are 10 units of 100 uV. -/
def wirePattern (s : State) (u : Uplink) (k : Nat) : Bool :=
  match brickD u with
  | none => false
  | some d =>
    let dev : Int := 20 * s.par .cellOwDev
    let sum : Int := 20 * s.par .cellOwSum
    let e := dev2 u
    if !((wireCells k).all (coarseOk s u)) then false
    else if k == 0 then
      decide (dev ≤ (e 0).natAbs) && decide ((2 * d + e 0).natAbs ≤ sum.natAbs) && (List.range 16).all fun c => c == 0 || decide ((e c).natAbs < dev.natAbs)
    else if k == 16 then
      decide (dev ≤ (e 15).natAbs) && decide ((2 * d + e 15).natAbs ≤ sum.natAbs) && (List.range 16).all fun c => c == 15 || decide ((e c).natAbs < dev.natAbs)
    else
      let a := e (k - 1)
      let b := e k
      ((decide (0 < a) && decide (b < 0)) || (decide (a < 0) && decide (0 < b))) && decide (dev ≤ a.natAbs) && decide (dev ≤ b.natAbs) &&
        decide ((a + b).natAbs ≤ sum.natAbs) && decide (d.natAbs ≤ (10 * s.par .cellBrickTol).natAbs)

/-- Next state of a wire, pattern as found in this uplink (R144, R148). -/
def wireStep (frames : Nat) (testing : Bool) (p : Bool) (w : Wire) : Wire :=
  let w := if testing && w.st != 4 then { w with st := 3 } else w
  let w := if p then { w with run := w.run + 1, clear := 0 } else { w with run := 0, clear := w.clear + 1 }
  if w.st == 4 then (if w.passed && !p then { w with st := 0, passed := false, run := 0, clear := 0 } else w)
  else if w.st == 3 then w
  else if p then (if w.st == 0 || w.st == 1 then { w with st := if frames ≤ w.run then 2 else 1 } else w)
  else if w.st != 0 && decide (frames ≤ w.clear) then { w with st := 0, retryAt := none, clear := 0 } else w

/-- Open-wire state of cell c from its two wires: 4, then 3, 2, 5, 1, 0 (Table 5-10; log 10). -/
def cellOw (f : Forager) (c : Nat) : Nat :=
  let a := (f.wires.getD c {}).st
  let b := (f.wires.getD (c + 1) {}).st
  let rank (x : Nat) : Nat := [0, 1, 3, 4, 5, 2].getD x 0
  if rank a < rank b then b else a

/-- The test of wire k has been echoed by frame g (R145). -/
def testStarted (f : Forager) (k g : Nat) : Bool :=
  match f.owTest with
  | some { wire := w, endFrame := some _ } => w == k && (match f.owRun with | some (_, g0, _) => decide (g0 ≤ g) | none => true)
  | _ => false

/-- One wire of a brick in frame g, which has an uplink (R144, R145, R148). -/
def judgeWire (n b g k : Nat) (u : Uplink) (s : State) : State :=
  let j := brickInst n b
  let old := (s.forg j).wires.getD k {}
  let p := wirePattern s u k
  let new := wireStep (s.parN .cellOwFrames) (testStarted (s.forg j) k g) p old
  let s1 := s.updForg j (updWire k fun _ => new)
  if new.st == 2 && (old.st == 0 || old.st == 1) then
    s1.stand 0x1003 (wireArg n b k) true
  else if new.st == 0 && old.st != 0 then (s1.clear 0x1003 (wireArg n b k)).clear 0x1004 (wireArg n b k)
  else s1

/-- Missing for the first and second frame in which a forager's reading was not received, then Stale (Table 3-6). -/
def missingQ (age : Nat) : Quality := if age ≤ 2 then .missing else .stale

/-- An item whose forager was not received in this frame (Table 3-6). -/
def agedItem (it : Item) : Item :=
  { it with age := it.age.map (· + 1), q := match it.q with
    | .invalid => .invalid | .inconsistent => .inconsistent | .substituted => .substituted
    | _ => missingQ (it.age.getD 0 + 1) }

/-- Consecutive frames of the coarse, total and wire checks, with and without the pattern, end with a frame that has no reading (R118, R119, R144, R148; DESIGN CHOICE, log 10); a wire whose test has been echoed is under test in it too (R145). -/
def noReading (g : Nat) (f : Forager) : Forager :=
  { f with
    coarseRun := List.replicate 16 0, sumRun := 0
    wires := f.wires.mapIdx fun k w => { w with run := 0, clear := 0, st := if testStarted f k g && w.st != 4 then 3 else w.st } }

/-- A wire of cell c for which p holds. -/
def wireOf (f : Forager) (c : Nat) (p : Wire → Bool) : Bool := (List.range 17).any fun k => (wireCells k).contains c && p (f.wires.getD k {})

/-- The voltage item of cell c in a frame without a reading (R60); a confirmed wire keeps it Inconsistent (R148). -/
def unreadItem (f : Forager) (c : Nat) (it : Item) : Item :=
  let x := agedItem it
  if x.q != .invalid && wireOf f c (·.st == 4) then { x with q := .inconsistent } else x

/-- The voltage item of cell c of a brick (R117, R118, R140, R144, R148). -/
def voltItem (s : State) (f : Forager) (u : Uplink) (c : Nat) : Item :=
  let v := u.cellV.getD c 0
  let bad := wireOf f c fun w => w.st == 4 || w.run != 0
  if v == 0 || v == 65535 then { val := v, q := .invalid, age := some 0 }
  else if !coarseOk s u c || upFlag u 3 || bad then { val := v, q := .inconsistent, age := some 0 }
  else { val := v, q := .good, age := some 0 }

/-- Quality of the brick total on an uplink (R117, R119, R140). -/
def totalQuality (s : State) (f : Forager) (u : Uplink) : Quality :=
  if u.brickV == 0 || u.brickV == 4095 then .invalid
  else if upFlag u 3 then .inconsistent
  else match brickD u with
    | none => .good
    | some d =>
      if d.natAbs ≤ (10 * s.par .cellBrickTol).natAbs then .good
      else if (List.range 16).all (coarseOk s u) && (f.wires.getD 0 {}).run == 0 && (f.wires.getD 16 {}).run == 0 then .inconsistent else .good

/-! The bleed account (R126). -/

/-- Acknowledged bleed state in force from the pause end of frame g (R122). -/
def bleedTaken (f : Forager) (g : Nat) : Option (List Bleed) := match f.bleedNext with | some (k, b) => if k ≤ g then some b else none | none => none

/-- Account after the pause end of frame g: an acknowledged state replaces it, otherwise timers lose one frame and end at 0 (R122, R124). -/
def accountStep (f : Forager) (g : Nat) : List Bleed :=
  match bleedTaken f g with
  | some b => b
  | none => f.bleed.map fun x => if x.on then (match x.timer with
    | some k => if k ≤ 1 then { on := false, timer := some 0 } else { on := true, timer := some (k - 1) }
    | none => x) else x

/-- Bleed that the account holds on at s + 350 us of frame g (R121, R126, R136, R146). -/
def accountAt (f : Forager) (bleed : List Bleed) (g sNs : Nat) : BitVec 16 :=
  let t0 := g * frameNs + sNs
  let burst := match f.holdOff with | some (a, b) => decide (a ≤ t0 + 350000) && decide (t0 + 100000 < b) | none => false
  let test : Option (BitVec 16) := match f.owRun with
    | some (mask, g0, dur) =>
      if g0 ≤ g && g ≤ g0 + dur / 10 then some (if g < g0 + dur / 10 || dur % 10 != 0 then mask else 0) else none
    | none => none
  let bal : BitVec 16 := (List.range 16).foldl (fun (m : BitVec 16) c => if (bleed.getD c {}).on then m ||| BitVec.ofNat 16 (2 ^ c) else m) 0
  if burst then 0 else match test with | some m => m | none => bal

/-- State of a cell taken from the uplink's bleed field where it differs from the account (R126). -/
def adoptBleed (held : Bool) (mine theirs : BitVec 16) (c : Nat) (x : Bleed) : Bleed :=
  if mine.getLsbD c == theirs.getLsbD c then x
  else if theirs.getLsbD c then { on := true, timer := none }
  else if held then x else { on := false, timer := some 0 }

/-- The account of a brick for frame g, compared with its uplink (R126). -/
def bleedAccount (n b g sNs : Nat) (s : State) : State :=
  let j := brickInst n b
  let f := s.forg j
  let acc := accountStep f g
  let later := if (bleedTaken f g).isSome then none else f.bleedNext
  let start := match f.owRun with | some (_, g0, _) => if g0 == g then g * frameNs + sNs + 100000 else f.owStart | none => f.owStart
  let mine := accountAt f acc g sNs
  let held := (match f.owRun with | some (_, g0, dur) => decide (g0 ≤ g) && decide (g ≤ g0 + dur / 10) | none => false) ||
    (match f.holdOff with | some (a, b) => decide (a ≤ g * frameNs + sNs + 350000) && decide (g * frameNs + sNs + 100000 < b) | none => false)
  match f.closed with
  | none => s.updForg j fun x => { x with bleed := acc, bleedWas := f.bleed, bleedNext := later, bleedNow := mine, owStart := start }
  | some u =>
    if u.bleed == mine then s.updForg j fun x => { x with bleed := acc, bleedWas := f.bleed, bleedNext := later, bleedNow := mine, owStart := start }
    else (s.updForg j fun x => { x with
      bleed := (List.range 16).map fun c => adoptBleed held mine u.bleed c (acc.getD c {})
      owRun := f.owRun.map fun o => if decide (o.2.1 ≤ g) && decide (g ≤ o.2.1 + o.2.2 / 10) then (u.bleed, o.2) else o
      bleedWas := f.bleed, bleedNext := later, bleedNow := u.bleed, bleedResend := true, owStart := start }).raise 0x100C j

/-! One brick in the Estimator's work on a frame. -/

/-- Coarse check events of a brick (R118): run of three frames. -/
def judgeCoarse (n b : Nat) (u : Uplink) (s : State) : State :=
  let j := brickInst n b
  let runs := (List.range 16).map fun c => if coarseOk s u c then 0 else (s.forg j).coarseRun.getD c 0 + 1
  forEach (List.range 16) (fun c s =>
    let r := runs.getD c 0
    if r == 0 then s.clear 0x1001 (576 * n + 16 * b + c) else if 3 ≤ r then s.stand 0x1001 (576 * n + 16 * b + c) true else s)
    (s.updForg j fun f => { f with coarseRun := runs })

/-- Brick total check events (R119). -/
def judgeTotal (n b : Nat) (u : Uplink) (s : State) : State :=
  let j := brickInst n b
  let s1 := s.updForg j fun f => { f with totalQ := totalQuality s f u, sumD := brickD u }
  match brickD u with
  | none => s1.updForg j fun f => { f with sumRun := 0 }
  | some d =>
    if d.natAbs ≤ (10 * s.par .cellBrickTol).natAbs then (s1.updForg j fun f => { f with sumRun := 0 }).clear 0x1002 j
    else
      let r := (s.forg j).sumRun + 1
      let s2 := s1.updForg j fun f => { f with sumRun := r }
      if 3 ≤ r then s2.stand 0x1002 j true else s2

/-- What a brick takes from frame g although the Estimator missed its update: the account goes on, and the total and sum difference of its uplink are judged for area 0x03, which the link engine publishes (R119, R157). The runs of consecutive frames of R118, R119 and R144 stay as they are (DESIGN CHOICE, log 10). -/
def brickMissed (n b g sNs : Nat) (s : State) : State :=
  let s1 := bleedAccount n b g sNs s
  s1.updForg (brickInst n b) fun f => match f.closed with
    | some u => { f with totalQ := totalQuality s1 f u, sumD := brickD u }
    | none => f

/-- Cross-checks, wires, account and voltage items of one brick for frame g (R117 to R119, R126, R140, R143 to R148). -/
def brickUpdate (n b g sNs : Nat) (s : State) : State :=
  let j := brickInst n b
  let base := 576 * n + 16 * b
  match (s.forg j).closed with
  | none =>
    let s1 := testsDue n b (dropExcluded n b ((bleedAccount n b g sNs s).updForg j (noReading g)))
    let f := s1.forg j
    forEach (List.range 16) (fun c s => s.updCell (base + c) fun x => { x with v := unreadItem f c x.v }) s1
  | some u =>
    let s1 := judgeTotal n b u (forEach (List.range 17) (fun k s => judgeWire n b g k u s) (judgeCoarse n b u s))
    let s2 := testsDue n b (dropExcluded n b (bleedAccount n b g sNs s1))
    let f := s2.forg j
    forEach (List.range 16) (fun c s => s.updCell (base + c) fun x => { x with v := voltItem s f u c }) s2

end Sys2Proof.Machine
end

