-- ==== Sys2Proof/Machine/Tables.lean ====
section
/-!
DEFINITION. Tables: the OCV section (R176 to R178) and the resistance factor section (R207 to R209): interpolation, reading a voltage as
a state of charge, and the checks of a commit (R177, R208). SOC in %, voltages in mV, temperatures in 0.1 degC.
-/
namespace Sys2Proof.Machine

/-- Index of the segment of a rising list in which x lies, and the fraction of the way through it; x is clamped to the range. -/
def segment (xs : List Rat) (x : Rat) : Nat × Rat :=
  let n := xs.length
  let i := (xs.drop 1).takeWhile (fun y => decide (y ≤ x)) |>.length
  if x ≤ xs.headD 0 then (0, 0)
  else if n ≤ i + 1 then (n - 1, 0)
  else
    let a := xs.getD i 0
    let b := xs.getD (i + 1) 0
    (i, (x - a) / (b - a))

/-- Value at a segment place of a list of values. -/
def lerp (ys : List Rat) (p : Nat × Rat) : Rat :=
  let a := ys.getD p.1 0
  a + p.2 * (ys.getD (p.1 + 1) a - a)

def natRats (l : List Nat) : List Rat := l.map fun (x : Nat) => (x : Rat)
def intRats (l : List Int) : List Rat := l.map fun (x : Int) => (x : Rat)

/-- The SOC points in % and the voltages in mV of a branch at temperature T (R178). -/
def ocvCol (o : Ocv) (chg : Bool) (t : Rat) : List (Rat × Rat) :=
  let p := segment (intRats (o.temp.take o.nTemp)) t
  let rows := if chg then o.vChg else o.vDis
  (List.range o.nSoc).map fun i =>
    let a : Rat := ((rows.getD p.1 []).getD i 0 : Nat)
    let b : Rat := if p.2 == 0 then a else ((rows.getD (p.1 + 1) []).getD i 0 : Nat)
    (((o.soc.getD i 0 : Nat) : Rat) / 100, (a + p.2 * (b - a)) / 10)

/-- OCV at a state of charge (R178). -/
def ocvAt (col : List (Rat × Rat)) (soc : Rat) : Rat := lerp (col.map (·.2)) (segment (col.map (·.1)) soc)

/-- First rising segment that holds V: SOC and slope (R178). -/
def readSeg (v : Rat) : List (Rat × Rat) → Option (Rat × Rat)
  | (s0, v0) :: (s1, v1) :: rest =>
    if v0 ≤ v && v ≤ v1 && v0 < v1 then some (s0 + (v - v0) * (s1 - s0) / (v1 - v0), (v1 - v0) / (s1 - s0))
    else readSeg v ((s1, v1) :: rest)
  | _ => none

/-- A voltage read as a state of charge with its slope; outside the column 0 % or 100 % with slope 0 (R178). The reading of a column without a rising segment is a free value (log 3). -/
def readSoc (col : List (Rat × Rat)) (v : Rat) : Rat × Rat :=
  match readSeg v col with
  | some r => r
  | none =>
    if v < (col.headD (0, 0)).2 then (0, 0)
    else if (col.getLastD (0, 0)).2 < v then (100, 0)
    else (Config.openRat 1 v, 0)

/-- Every segment that meets the SOC range a to b rises at least k mV per % (R188). -/
def slopeOver (k a b : Rat) : List (Rat × Rat) → Bool
  | (s0, v0) :: (s1, v1) :: rest => (decide (s1 < a) || decide (b < s0) || decide (k ≤ (v1 - v0) / (s1 - s0))) && slopeOver k a b ((s1, v1) :: rest)
  | _ => true

/-- Time constants at a temperature, in seconds (R169). -/
def tauAt (o : Ocv) (t : Rat) : Rat × Rat :=
  let p := segment (intRats (o.temp.take o.nTemp)) t
  (lerp (natRats (o.tau1.take o.nTemp)) p / 10, lerp (natRats (o.tau2.take o.nTemp)) p)

/-- The resistance factor at a temperature and state of charge (R209). -/
def rFactorAt (f : RFactor) (t soc : Rat) : Rat :=
  let p := segment (intRats (f.temp.take f.nTemp)) t
  let q := segment ((natRats (f.soc.take f.nSoc)).map (· / 100)) soc
  let row (i : Nat) : Rat := lerp (natRats ((f.f.getD i []).take f.nSoc)) q
  (row p.1 + (if p.2 == 0 then 0 else p.2 * (row (p.1 + 1) - row p.1))) / 1000

/-- A list rises strictly. -/
def rises {α : Type} (lt : α → α → Bool) : List α → Bool
  | a :: b :: rest => lt a b && rises lt (b :: rest)
  | _ => true

def natLt (a b : Nat) : Bool := decide (a < b)
def intLt (a b : Int) : Bool := decide (a < b)
def natLe (a b : Nat) : Bool := decide (a ≤ b)

/-- The OCV section meets every rule of R177. -/
def ocvOk (o : Ocv) : Bool :=
  o.format == 1 && 2 ≤ o.nSoc && o.nSoc ≤ 64 && 1 ≤ o.nTemp && o.nTemp ≤ 8 &&
  rises intLt (o.temp.take o.nTemp) && (o.temp.drop o.nTemp).all (· == 0) && (o.tau1.drop o.nTemp).all (· == 0) && (o.tau2.drop o.nTemp).all (· == 0) &&
  (o.soc.drop o.nSoc).all (· == 0) && o.soc.headD 1 == 0 && o.soc.getD (o.nSoc - 1) 0 == 10000 && rises natLt (o.soc.take o.nSoc) &&
  (o.vChg ++ o.vDis).all (fun r => (r.drop o.nSoc).all (· == 0)) && (o.vChg.drop o.nTemp ++ o.vDis.drop o.nTemp).all (fun r => r.all (· == 0)) &&
  (o.vChg.take o.nTemp ++ o.vDis.take o.nTemp).all (fun r => rises natLe (r.take o.nSoc)) &&
  ((List.range o.nTemp).all fun t => (List.range o.nSoc).all fun i => decide ((o.vDis.getD t []).getD i 0 ≤ (o.vChg.getD t []).getD i 0)) &&
  ((List.range o.nTemp).all fun t => decide (o.tau1.getD t 0 < 10 * o.tau2.getD t 0))

/-- The resistance factor section meets every rule of R208. -/
def rfOk (chem : Nat) (f : RFactor) : Bool :=
  f.chem == chem && f.format == 1 && 2 ≤ f.nSoc && f.nSoc ≤ 16 && 1 ≤ f.nTemp && f.nTemp ≤ 8 &&
  rises intLt (f.temp.take f.nTemp) && (f.temp.drop f.nTemp).all (· == 0) && (f.soc.drop f.nSoc).all (· == 0) &&
  f.f.all (fun r => (r.drop f.nSoc).all (· == 0)) && (f.f.drop f.nTemp).all (fun r => r.all (· == 0)) &&
  f.soc.headD 1 == 0 && f.soc.getD (f.nSoc - 1) 0 == 10000 && rises natLt (f.soc.take f.nSoc) &&
  (f.f.take f.nTemp).all fun r => (r.take f.nSoc).all fun x => decide (100 ≤ x) && decide (x ≤ 20000)

end Sys2Proof.Machine
end

