-- ==== Sys2Proof/Machine/Learned.lean ====
section
/-!
DEFINITION. Learned: the learned-value store (R220 to R226): writing, reading at Start, loss and the reset of cells.
-/
namespace Sys2Proof.Machine

/-- Cell positions in use of a string: 16 cells of each configured brick of a string with a link. -/
def cellCount (s : State) (n : Nat) : Nat := if linkOn s n then 16 * min 36 (s.parN .linkBricks n) else 0

/-- The cells of a string, in order of position. -/
def stringCells (s : State) (n : Nat) : List Cell := (s.cells.drop (576 * n)).take (cellCount s n)

/-- Replaces every cell of a string by its image; the function is given the position. -/
def State.mapCells (n : Nat) (f : Nat → Cell → Cell) (s : State) : State :=
  let k := cellCount s n
  s.modCells fun cs => cs.mapIdx fun i c => if 576 * n ≤ i && i < 576 * n + k then f (i - 576 * n) c else c

/-- Nominal capacity in uC, and 1 C in amperes (R9). -/
def nominalQ (s : State) : Int := s.par .estCapNominal * 36000000
def oneC (s : State) : Rat := (s.par .estCapNominal : Rat) / 100

/-- The uncertainty of a cell whose charge is not known (R161, R166, R224): est.sigma_max + 0.01 %. -/
def sigmaLost (s : State) : Rat := ((s.par .estSigmaMax : Rat) + 1) / 100

def regimeCode : Regime → Nat
  | .tracking => 0 | .countStart => 1 | .countSurvey => 2 | .countRecovery => 3

/-- A cell's state after its learned values are lost (R224). -/
def lostCell (s : State) (c : Cell) : Cell :=
  { c with cap := nominalQ s, rRef := (s.par .impRDefault : Rat), sigma := sigmaLost s, rValid := false, tValid := false, capValid := false
           rFirst := 0, rHi := 0, tHi := 0, rTime := 0, trend := 0, capN := 0, impN := 0, q := 0, b := 0, socInvalid := true, overrun := 0 }

/-- A cell with the learned values of its stored entry (Table 7-7). -/
def learnedCell (c e : Cell) : Cell :=
  { c with q := e.q, b := e.b, cap := e.cap, rRef := e.rRef, rFirst := e.rFirst, rHi := e.rHi, tHi := e.tHi, rTime := e.rTime, sigma := e.sigma
           trend := e.trend, capN := e.capN, impN := e.impN, rValid := e.rValid, tValid := e.tValid, capValid := e.capValid, socInvalid := false }

/-- A value as a field holds it: rounded to a whole unit and saturated. -/
def heldIn (lo hi : Int) (q : Rat) : Rat := (clampInt lo hi (wholeUnits q) : Rat)

/-- The learned part of a cell as its entry holds it (Table 7-7): resistances in whole nOhm, sigma in whole 0.01 % rounded up (R163), the temperature in whole 0.1 degC, counts saturating at 255. -/
def entryOf (c : Cell) : Cell :=
  let r (q : Rat) : Rat := heldIn 0 0xFFFFFFFF q
  learnedCell {} { c with
    rRef := r c.rRef, rFirst := r c.rFirst, rHi := r c.rHi, tHi := heldIn (-32768) 32767 (c.tHi * 10) / 10, rTime := c.rTime % 2 ^ 32
    sigma := (clampInt 0 65535 (ratCeil (c.sigma * 100)) : Rat) / 100, trend := heldIn (-32768) 32767 c.trend, capN := min 255 c.capN, impN := min 255 c.impN }

/-- Bytes of a cell entry (Table 7-7). -/
def learnedEntry (c : Cell) : List Byte :=
  toLE 8 (field 64 c.q) ++ toLE 8 (field 64 c.b) ++ toLE 8 (field 64 c.cap) ++ toLE 4 (wholeUnits c.rRef).toNat ++ toLE 4 (wholeUnits c.rFirst).toNat ++
  toLE 4 (wholeUnits c.rHi).toNat ++ toLE 4 c.rTime ++ toLE 2 (field 16 (wholeUnits (c.tHi * 10))) ++ toLE 2 (ratCeil (c.sigma * 100)).toNat ++
  toLE 2 (field 16 (wholeUnits c.trend)) ++ toLE 1 c.capN ++ toLE 1 c.impN ++
  toLE 2 ((if c.rValid then 1 else 0) + (if c.tValid then 2 else 0) + (if c.capValid then 4 else 0)) ++ List.replicate 14 0

/-- Header and entries of a record (Tables 7-6, 7-7): magic 0x564C and format 1 are part of the form. -/
def learnedBytes (r : LearnedRec) : List Byte :=
  toLE 2 0x564C ++ toLE 1 1 ++ toLE 1 r.string ++ toLE 4 r.seq ++ toLE 8 r.frame ++ toLE 8 r.time ++ toLE 4 r.ops ++ toLE 4 r.pc ++ toLE 1 r.cause ++
  toLE 1 r.branch ++ toLE 1 r.regime ++ toLE 1 ((if r.pfw then 1 else 0) + (if r.synced then 2 else 0)) ++ toLE 2 r.chem ++ toLE 2 r.cells.length ++
  List.replicate 24 0 ++ r.cells.flatMap learnedEntry

def chemOf (s : State) : Nat := match s.boot.run.ocv with | some o => o.chem | none => 0

/-- The copy of a record is valid for the configuration in force (R224): its string, its CRC-32, its chemistry and its cells. -/
def recordFits (s : State) (n : Nat) (r : LearnedRec) : Bool :=
  r.string == n && r.crc == crc32 (learnedBytes r) && r.chem == chemOf s && r.cells.length == cellCount s n

/-- The valid record with the higher sequence; at equal sequence that of the later time, then copy A (R224, R503). -/
def bestRecord (s : State) (n : Nat) : Option LearnedRec :=
  let p := s.learned.getD n {}
  let ok (o : Option (Nat × LearnedRec)) : Option (Nat × LearnedRec) := match o with | some (q, r) => if recordFits s n r then some (q, r) else none | none => none
  match ok p.a, ok p.b with
  | some (qa, ra), some (qb, rb) => if qa < qb || (qa == qb && decide (ra.time < rb.time)) then some rb else some ra
  | some (_, r), none => some r
  | none, some (_, r) => some r
  | none, none => none

/-- A record with its CRC-32. -/
def sealRecord (r : LearnedRec) : LearnedRec := { r with crc := crc32 (learnedBytes r) }

/-- The record of a string as it stands (R220). -/
def recordOf (s : State) (n seq cause : Nat) : LearnedRec :=
  let e := s.estr n
  sealRecord { string := n, seq := seq, frame := e.frame.getD 0, time := s.time.now, ops := s.recorder.ops, pc := s.recorder.pc, cause := cause, branch := e.branch
               regime := regimeCode e.regime, pfw := cause == 3, synced := s.time.synced, chem := chemOf s, cells := (stringCells s n).map entryOf }

/-- A write to the copy with the lower sequence, or to copy A when neither is valid (R221). -/
def writeCopy (s : State) (n cause : Nat) (p : Pair LearnedRec) : Pair LearnedRec :=
  let seqOf (o : Option (Nat × LearnedRec)) : Option Nat := match o with | some (q, r) => if recordFits s n r then some q else none | none => none
  match seqOf p.a, seqOf p.b with
  | none, none => { p with a := some (1, recordOf s n 1 cause) }
  | some q, none => { p with b := some (q + 1, recordOf s n (q + 1) cause) }
  | none, some q => { p with a := some (q + 1, recordOf s n (q + 1) cause) }
  | some qa, some qb =>
    if qb < qa then { p with b := some (qa + 1, recordOf s n (qa + 1) cause) } else { p with a := some (qb + 1, recordOf s n (qb + 1) cause) }

/-- A learned-value write of a string (R221 to R223): deferred while the MRAM write inhibit holds; a power-fail warning then writes nothing. -/
def writeLearned (n cause : Nat) (s : State) : State :=
  if s.therm.mramInh then
    (if cause == 3 then s else s.modSurv fun v => { v with deferred := updAt v.deferred n fun _ => some cause }).stand 0x302B n true
  else ((s.modLearned fun l => updAt l n fun p => writeCopy s n cause p).modSurv fun v => { v with deferred := updAt v.deferred n fun _ => none }).clear 0x302B n

/-- A write that waits for the next completed update of the string, whose state it is to hold (R222). -/
def writeAfter (n cause : Nat) (s : State) : State := s.modSurv fun v => { v with writeDue := updAt v.writeDue n fun _ => some cause }

/-- The write due with an update that has completed (R222). -/
def writeDueNow (n : Nat) (s : State) : State :=
  match s.surv.writeDue.getD n none with
  | some c => writeLearned n c (s.modSurv fun v => { v with writeDue := updAt v.writeDue n fun _ => none })
  | none => s

/-- Writes of several strings. -/
def writeAll (cause : Nat) (s : State) : State := forEach ((List.range 4).filter (linkOn s)) (fun n s => writeLearned n cause s) s

/-- When the inhibit has lifted, one write of each string with a deferred trigger (R223). -/
def writeDeferred (s : State) : State :=
  if s.therm.mramInh then s
  else forEach (List.range 4) (fun n s => match s.surv.deferred.getD n none with | some c => writeLearned n c s | none => s) s

/-- A string enters a regime, with its event; 0x302C ends with Recovery (R164). -/
def enterRegime (n : Nat) (r : Regime) (s : State) : State :=
  ((s.updEst n fun e => { e with regime := r, seenFull := false, seenEmpty := false }).raise 0x3012 n).stand 0x302C n (r == .countRecovery)

/-- A change of regime (R164). -/
def setRegime (n : Nat) (r : Regime) (s : State) : State := if (s.estr n).regime == r then s else enterRegime n r s

/-- Loss of the learned values of a string (R224, R225): Counting, cause Recovery. -/
def enterRecovery (n : Nat) (s : State) : State :=
  let s1 := (s.mapCells n fun _ c => lostCell s c).updEst n fun e => { e with seenFull := false, seenEmpty := false }
  setRegime n .countRecovery s1

/-- Reload of the learned values of a running string (R225, R497). -/
def reloadLearned (n : Nat) (s : State) : State :=
  match bestRecord s n with
  | some r =>
    (s.mapCells n fun p c => { learnedCell c (r.cells.getD p {}) with sigma := sigmaLost s, socInvalid := c.socInvalid }).raise 0x302D n
  | none => enterRecovery n s

/-- Learned values of a string at Start (R224, R166, R175); off is the time the module was off in ns where it is known. -/
def startLearned (n : Nat) (s : State) : State :=
  match bestRecord s n with
  | some r =>
    let s1 := s.mapCells n fun p c => { learnedCell c (r.cells.getD p {}) with sigma := if r.pfw then (r.cells.getD p {}).sigma else sigmaLost s }
    let settled := r.pfw && s.time.synced && decide (r.time + s.parN .estRelaxSettled * 60000000000 ≤ s.time.now)
    let s2 := (enterRegime n .countStart s1).updEst n fun e => { e with branch := r.branch, restPreset := if settled then some ((s.time.now - r.time) / frameNs) else none }
    if r.pfw then s2 else s2.raise 0x3011 n
  | none => enterRegime n .countRecovery (s.mapCells n fun _ c => lostCell s c)

/-- The 16 cells of a brick after its cells are replaced (R226): the record is written with the next completed update, and again with the one that reads the last value, q, from the first Good voltage (log 14). -/
def resetCells (j : Nat) (s : State) : State :=
  let n := j / 36
  let lo := 16 * (j % 36)
  let s1 := s.mapCells n fun p c => if lo ≤ p && p < lo + 16 then
    { c with cap := nominalQ s, rRef := (s.par .impRDefault : Rat), b := 0, rValid := false, tValid := false, capValid := false, sigma := sigmaLost s, fresh := some s.time.frame } else c
  writeAfter n 5 (s1.raise 0x302E j)

end Sys2Proof.Machine
end

