-- ==== Sys2Proof/Machine/Estimator.lean ====
section
/-!
DEFINITION. Estimator: chapter 06 (R155 to R192, R611) with the parts of chapter 07 that happen in the update (R209, R217, R218, R226).
SOC and sigma in %, voltages in mV, charges in uC, currents in A.
-/
namespace Sys2Proof.Machine

/-- Time of the sample instant of a frame, where the instant has been taken. -/
def sampleAt (s : State) (g : Nat) : Nat := (s.comb.sampleTimes.lookup g).getD (g * frameNs)

/-! The string count (R158 to R161). -/

/-- Whether a survey perturbs string n at some moment from a to b, module time (R168, R197, R206). -/
def perturbs (s : State) (n a b : Nat) : Bool :=
  (match s.surv.imp with
    | some v => (v.string == n || v.comp.contains n) && v.frameA.isSome && decide (v.t0 ≤ b + v.settle * 1000000) && decide (a ≤ v.tEnd + v.ramp * 1000000)
    | none => false) ||
  (match s.surv.fade with
    | some (v, t, _) => (v.string == n || v.comp.contains n) && decide (t ≤ b) && decide (a ≤ t + v.ramp * 1000000)
    | none => false)

/-- What the string count of a frame gives the cells (R160, R161). -/
structure StrIn where
  tInt : Nat            -- interval, ns
  dis : Int             -- |difference of the channels| of a frame in disagreement, uC
  gap : Bool
  broken : Bool
  deriving DecidableEq, Repr

/-- An item with a fresh value. -/
def freshItem (v : Int) (q : Quality) : Item := { val := v, q := q, age := some 0 }
/-- An item that has no valid value (R60): the last age stays. -/
def noItem (old : Item) : Item := { old with q := .invalid }

/-- Amperes of a charge in an interval: uC and ns. -/
def meanAmps (dq : Int) (t : Nat) : Rat := if t == 0 then 0 else (dq : Rat) * 1000 / (t : Rat)

/-- Channel of the string count: 0 A, 1 B, none when neither is valid (R160). -/
def countChannel (s : State) (okA okB : Bool) : Option Nat :=
  if s.par .estISource == 1 then (if okB then some 1 else if okA then some 0 else none) else (if okA then some 0 else if okB then some 1 else none)

/-- The count of string n with latched Q_A, Q_B over an interval (R159 to R161, Table 6-10). -/
def countString (n : Nat) (qa qb : Int) (t : Nat) (s : State) : State × StrIn :=
  let e := s.estr n
  let okA := e.flags.1
  let okB := e.flags.2.1
  let da := qa - e.qA
  let db := qb - e.qB
  let differ := okA && okB && decide (((da - db).natAbs : Int) * 1000 > 2 * (t : Int))
  let run := if differ then e.disRun + 1 else 0
  let s1 := s.updEst n fun e => { e with qA := qa, qB := qb, tInt := t, disRun := run, latch := none }
  match countChannel s okA okB with
  | some c =>
    let dq := if c == 1 then db else da
    let q : Quality := if differ then .inconsistent else .good
    let i := if c == 1 then e.iInst.2 else e.iInst.1
    let s2 := if c != e.inUse then s1.raise 0x300B n else s1
    let s3 := if differ then (if 3 ≤ run then s2.stand 0x300A n true else s2) else if okA && okB then s2.clear 0x300A n else s2
    let s4 := s3.updEst n fun e => { e with
      qs := e.qs + dq, dq := dq, chan := c, inUse := c, gapRun := 0, mean := meanAmps dq t, countOk := true
      iItem := match i with | some x => freshItem (wholeUnits (x * 100)) q | none => noItem e.iItem
      aItem := if okA then freshItem (wholeUnits (meanAmps da t * 100)) q else noItem e.aItem
      bItem := if okB then freshItem (wholeUnits (meanAmps db t * 100)) q else noItem e.bItem }
    ((s4.clear 0x300D n).clear 0x300E n, { tInt := t, dis := if differ then ((da - db).natAbs : Int) else 0, gap := false, broken := false })
  | none =>
    if e.flags.2.2.1 && e.flags.2.2.2 then
      let z := freshItem 0 .substituted
      let s2 := s1.updEst n fun e => { e with dq := 0, chan := 4, gapRun := 0, mean := 0, countOk := true, iItem := z, aItem := z, bItem := z }
      ((s2.clear 0x300D n).clear 0x300E n, { tInt := t, dis := 0, gap := false, broken := false })
    else
      let first := e.gapRun == 0
      let dq := if first then e.dq else 0
      let s2 := s1.updEst n fun e => { e with
        qs := e.qs + dq, dq := dq, chan := if first then 2 else 3, gapRun := e.gapRun + 1, gaps := e.gaps + 1, mean := meanAmps dq t, countOk := false
        fullAt := if first then e.fullAt else none
        iItem := noItem e.iItem, aItem := noItem e.aItem, bItem := noItem e.bItem }
      let s3 := s2.stand 0x300D n true
      (if first then s3 else s3.stand 0x300E n true, { tInt := t, dis := 0, gap := true, broken := !first })

/-- The current at the instant that the cells use: value and whether it is Good or Substituted 0 (R179). -/
def instAmps (e : EstStr) : Option Rat :=
  match e.iItem.q with
  | .good => (if e.chan == 1 then e.iInst.2 else e.iInst.1)
  | .substituted => some 0
  | _ => none

/-! Bleed of a cell in an interval (R121, R126, R136, R146, R162). -/

/-- The current at the instant as measured, whether or not the channels agree (R168). -/
def readAmps (e : EstStr) : Option Rat := if e.chan == 4 then some 0 else if e.chan == 1 then e.iInst.2 else if e.chan == 0 then e.iInst.1 else none

/-- Bleed time of cell c between the sample instants tp of frame g and tn of the next frame, ns, by the account of frame g; bleed that a burst holds off comes back at a pause end (R122, R136). -/
def bleedTime (f : Forager) (c g tp tn : Nat) : Nat :=
  let a := tp + 100000
  let b := tn - 100000
  match f.owRun with
  | some (mask, g0, dur) =>
    if g0 ≤ g && g ≤ g0 + dur / 10 then
      if mask.getLsbD c then
        let from_ := if g == g0 then a + 200000 else a
        cut from_ (min b (f.owStart + 200000 + dur * 1000000))
      else 0
    else if f.bleedNow.getLsbD c then cut a b else 0
  | none => if f.bleedNow.getLsbD c then cut a b else 0
where
  /-- Time on from a to b, cut short by the start of a burst (R136). -/
  cut (a b : Nat) : Nat := match f.holdOff with
    | some (h, k) => if h < b && a < k then h - a else b - a
    | none => b - a

/-- Bleed resistance of a cell, 0.01 Ohm (R126). -/
def bleedR (s : State) (f : Forager) (c : Nat) : Nat :=
  match f.diag with | some d => d.bleedR.getD c (s.parN .cellBleedR) | none => s.parN .cellBleedR

/-! One cell update (R162, R163). -/

/-- The count of a cell: string charge, bleed and forager draw, and the growth of sigma. The bleed of a resistance of 0 is a quotient by zero, a free value (log 3). -/
def chargeCell (s : State) (e : EstStr) (x : StrIn) (bleedNs r : Nat) (c : Cell) : Cell :=
  let dq := e.qs - c.qLast
  let t := c.owed.1 + x.tInt
  let tb := c.owed.2.1 + bleedNs
  let db := if tb == 0 then 0 else nearest (if r == 0 then Config.openRat 36 (c.vLast : Rat) else (c.vLast : Rat) * (tb : Rat) / ((r * 100000 : Nat) : Rat))
  let df := nearest ((s.parN .estForagerIq : Rat) * (t : Rat) / 1000000000)
  let per : Rat := if c.cap == 0 then 0 else 100 / (c.cap : Rat)
  let grow : Rat := (s.parN .estDrift : Rat) / 1000 * (t : Rat) / 3600000000000 + (s.parN .estCountGain : Rat) / 100000 * per * (dq.natAbs : Rat)
    + (x.dis : Rat) * per + (if x.gap then (dq.natAbs : Rat) * per else 0) + c.owed.2.2
  { c with
    qLast := e.qs, q := c.q + dq - db - df, b := c.b + db, qRem := c.qRem - (dq - db - df), missed := 0, owed := (0, 0, 0)
    sigma := if x.broken then sigmaLost s else c.sigma + grow }

/-- The temperatures of a cell since its full anchor (R217). -/
def spanStep (t : Item) (c : Cell) : Cell :=
  { c with tSpan := match c.tSpan with | some (a, b) => if t.q == .good then some (min a t.val, max b t.val) else none | none => none }

/-- An update that a cell misses (R157): what it owes is kept, and its voltages are those of before with one more missed refresh (Table 2-6). was is the cell before the work on the frame. -/
def missCell (s : State) (e : EstStr) (x : StrIn) (bleedNs : Nat) (was c : Cell) : Cell :=
  let per : Rat := if c.cap == 0 then 0 else 100 / (c.cap : Rat)
  { c with missed := c.missed + 1
           v := missedItem 0 1 was.v, vc := was.vc.map fun y => (y.1, missedOnce 0 (was.v.age.map (· + 1)) y.2)
           sigma := if x.broken then sigmaLost s else c.sigma
           owed := (c.owed.1 + x.tInt, c.owed.2.1 + bleedNs, c.owed.2.2 + (x.dis : Rat) * per + (if x.gap then (e.dq.natAbs : Rat) * per else 0)) }

/-- State of charge by count, % (R162). -/
def socOf (c : Cell) : Rat := if c.cap == 0 then 0 else 100 * (c.q : Rat) / (c.cap : Rat)

/-- The same held between 0 and 100 % (R190, R192). -/
def socClamped (c : Cell) : Rat := clampRat 0 100 (socOf c)

/-! Temperatures (R611). -/

/-- Fused temperature item of the group of a cell, by string and position (R295, R296). -/
def groupItem (s : State) (n p : Nat) : Item := (s.forg (brickInst n (p / 16))).groups.getD (s.parN .thermMap (p % 16)) {}

/-- Temperature of a cell, 0.1 degC: +125.0 when Invalid (R611). -/
def cellT (s : State) (n p : Nat) : Rat := let g := groupItem s n p; if g.q == .invalid then 1250 else (g.val : Rat)

/-- An anchor read from a voltage is admitted (R611). -/
def admitT (s : State) (n p : Nat) : Bool := let q := (groupItem s n p).q; q == .good || q == .held

/-! Resistance and compensated voltage (R179, R209). -/

/-- R_cell in nOhm; without a resistance factor section the factor is a free value (log 3). -/
def rCell (s : State) (n p : Nat) (c : Cell) : Rat :=
  c.rRef * (match s.boot.run.rf with | some f => rFactorAt f (cellT s n p) (socOf c) | none => Config.openRat 2 (cellT s n p))

/-- Vc of a cell (R179). -/
def compensated (s : State) (n p : Nat) (i : Option Rat) (c : Cell) : Option (Rat × Quality) :=
  match i, c.v.q with
  | _, .invalid => none
  | none, _ => none
  | some a, q => some ((c.v.val : Rat) / 10 - a * rCell s n p c / 1000000, q)

/-! Rest, branch, fits and rest anchors (R168 to R175). -/

/-- Column of a branch of the OCV section in force at a cell's temperature. -/
def colAt (s : State) (chg : Bool) (t : Rat) : Option (List (Rat × Rat)) := s.boot.run.ocv.map fun o => ocvCol o chg t

/-- Rest time and branch of a string after the count of a frame (R168, R171, R175). -/
def restString (n tp tn : Nat) (s : State) : State :=
  let e := s.estr n
  let lim := (s.parN .estRestI : Rat) / 1000 * oneC s
  let calm := match readAmps e with | some i => decide (ratAbs i ≤ lim) | none => false
  let rest := e.countOk && decide (ratAbs e.mean ≤ lim) && calm && !perturbs s n tp tn
  let cells := stringCells s n
  let meanC : Rat := if cells.isEmpty then 0 else ((cells.foldl (fun a c => a + c.cap) 0 : Int) : Rat) / ((cells.length : Nat) : Rat)
  let rev := if (decide (0 < e.dq) && decide (e.rev < 0)) || (decide (e.dq < 0) && decide (0 < e.rev)) then e.dq else e.rev + e.dq
  let bq := (s.parN .estOcvBranchQ : Rat) / 10000 * meanC
  s.updEst n fun e => { e with
    rest := if rest then (e.restPreset.getD e.rest) + 1 else 0
    restSettled := rest && (e.restSettled || e.restPreset.isSome)
    restPreset := none
    restPar := if rest && e.rest == 0 then (s.parN .estRestT, s.parN .estRestTFull, s.parN .estRelaxSkip, s.parN .estRelaxRetry) else e.restPar
    rejected := rest && e.rejected
    rev := rev
    branch := if cells.isEmpty then e.branch else if bq ≤ (rev : Rat) then 1 else if (rev : Rat) ≤ -bq then 2 else e.branch }

/-- Least squares of V(t) = a0 + a1 exp(-t / tau1) + a2 exp(-t / tau2) by the normal equations (R169); when they have no single solution the fit is a free value (log 3). -/
def fitSolve (tau : Rat × Rat) (xs : List (Nat × Rat)) : Rat × Rat × Rat :=
  let e1 (t : Nat) : Rat := expOf (-((t : Rat) / 100) / tau.1)
  let e2 (t : Nat) : Rat := expOf (-((t : Rat) / 100) / tau.2)
  let sum (f : Nat × Rat → Rat) : Rat := xs.foldl (fun a x => a + f x) 0
  let n : Rat := ((xs.length : Nat) : Rat)
  let a := sum fun x => e1 x.1
  let b := sum fun x => e2 x.1
  let aa := sum fun x => e1 x.1 * e1 x.1
  let ab := sum fun x => e1 x.1 * e2 x.1
  let bb := sum fun x => e2 x.1 * e2 x.1
  let v := sum fun x => x.2
  let va := sum fun x => x.2 * e1 x.1
  let vb := sum fun x => x.2 * e2 x.1
  let det (p q r s' t u w x y : Rat) : Rat := p * (t * y - u * x) - q * (s' * y - u * w) + r * (s' * x - t * w)
  let d := det n a b a aa ab b ab bb
  if d == 0 then (Config.openRat 3 n, Config.openRat 4 n, Config.openRat 5 n)
  else (det v a b va aa ab vb ab bb / d, det n v b a va ab b vb bb / d, det n a v a aa va b ab vb / d)

/-- Mean square residual of a fit, mV squared. -/
def fitResidual (tau : Rat × Rat) (f : Rat × Rat × Rat) (xs : List (Nat × Rat)) : Rat :=
  let r (x : Nat × Rat) : Rat := x.2 - f.1 - f.2.1 * expOf (-((x.1 : Rat) / 100) / tau.1) - f.2.2 * expOf (-((x.1 : Rat) / 100) / tau.2)
  if xs.isEmpty then 0 else xs.foldl (fun a x => a + r x * r x) 0 / ((xs.length : Nat) : Rat)

/-- a0 lies within the voltages of its branch, or of both while the branch is unknown (R170). -/
def withinBranch (s : State) (branch : Nat) (t a0 : Rat) : Bool :=
  let inCol (c : Option (List (Rat × Rat))) : Option (Rat × Rat) := c.map fun l => ((l.headD (0, 0)).2, (l.getLastD (0, 0)).2)
  match inCol (colAt s true t), inCol (colAt s false t) with
  | some (c0, c1), some (d0, d1) =>
    if branch == 1 then c0 ≤ a0 && a0 ≤ c1 else if branch == 2 then d0 ≤ a0 && a0 ≤ d1 else decide (min c0 d0 ≤ a0) && decide (a0 ≤ max c1 d1)
  | _, _ => false

/-- A fit is accepted (R170). -/
def fitOk (s : State) (branch rest skip : Nat) (t : Rat) (tau : Rat × Rat) (f : Rat × Rat × Rat) (xs : List (Nat × Rat)) : Bool :=
  let lim : Rat := (s.parN .estRelaxFitMax : Rat) / 100
  decide (rest + 1 - 100 * skip ≤ 2 * xs.length) && decide (fitResidual tau f xs ≤ lim * lim) &&
  (if branch == 1 then decide (0 ≤ f.2.1 + f.2.2) else if branch == 2 then decide (f.2.1 + f.2.2 ≤ 0) else true) && withinBranch s branch t f.1

/-- Anchor by combination of a reading with the count (R173). -/
def combine (g kind : Nat) (socO sigO : Rat) (c : Cell) : Cell :=
  let a := sigO * sigO
  let b := c.sigma * c.sigma
  let soc := if a + b == 0 then socO else (socOf c * a + socO * b) / (a + b)
  { c with q := nearest (soc * (c.cap : Rat) / 100), sigma := if a + b == 0 then 0 else sigO * c.sigma / rootOf (a + b), anchor := kind, anchorAt := g }

/-- The rest anchor of a cell with predicted rest OCV a0 and residual r (R172, R173), where it applies; the survey state is that at the sample instant (R155, R165). -/
def restAnchor (s : State) (e : EstStr) (n p g kind : Nat) (a0 r : Rat) (ends : List Nat) (c : Cell) : Cell :=
  match colAt s (e.branch == 1) (cellT s n p) with
  | none => c
  | some col =>
    let (socO, k) := readSoc col a0
    let t := groupItem s n p
    let regimeOk := e.regime != .countRecovery && !e.survAt
    if e.branch != 0 && regimeOk && decide ((s.parN .estAnchorSlopeMin : Rat) / 100 ≤ k) && t.q == .good && decide (s.par .estAnchorTMin ≤ t.val) &&
      decide (t.val ≤ s.par .estAnchorTMax) && c.v.q == .good && !ends.contains p
    then combine g kind socO (((s.parN .estAnchorVErr : Rat) / 100 + r) / k) c
    else c

/-- Slope published with a predicted rest OCV; while the branch is unknown the spec names no column and the slope is a free value (log 3). -/
def slopeFor (s : State) (e : EstStr) (t a0 : Rat) : Rat :=
  if e.branch == 0 then Config.openRat 6 a0 else match colAt s (e.branch == 1) t with | some col => (readSoc col a0).2 | none => 0

/-- Mean of a list; 0 when it is empty. -/
def meanOf (l : List Rat) : Rat := if l.isEmpty then 0 else l.foldl (· + ·) 0 / ((l.length : Nat) : Rat)

/-- No rest in a frame ends what a cell keeps of the rest before (R169, R174), in a frame whose update the cell misses too. -/
def clearRest (e : EstStr) (c : Cell) : Cell := if e.rest == 0 then { c with fit := [], fitT := none, fitDone := false, fitTries := 0, fullTried := false } else c

/-- Rest of one cell in a frame: samples of the fit, its solution, and the anchors of R172, R174 and R175. The second result says that a fit was rejected. -/
def restCell (s : State) (e : EstStr) (n p g : Nat) (ends : List Nat) (c : Cell) : Cell × Bool :=
  if e.rest == 0 then (clearRest e c, false)
  else if e.restSettled then
    if c.fitDone || c.v.q != .good then (c, false)
    else
      let a0 : Rat := (c.v.val : Rat) / 10
      (restAnchor s e n p g 2 a0 0 ends { c with fitDone := true, ocv := some (a0, slopeFor s e (cellT s n p) a0, g) }, false)
  else
    let (restT, restFull, skip, retry) := e.restPar
    let c1 := if 100 * skip ≤ e.rest && c.v.q == .good then
      { c with fit := c.fit ++ [(e.rest, (c.v.val : Rat) / 10)], fitT := if c.fitT.isSome then c.fitT else some (cellT s n p).floor } else c
    let tries := if e.rest < 100 * restT then 0 else if retry == 0 then 1 else 1 + (e.rest - 100 * restT) / (100 * retry)
    let due := !c1.fitDone && decide (c1.fitTries < tries)
    let c1 := { c1 with fitTries := tries }
    let solved : Cell × Bool :=
      if !due then (c1, false)
      else match s.boot.run.ocv with
        | none => ({ c1 with ocv := none }, true)
        | some o =>
          let t : Rat := match c1.fitT with | some x => (x : Rat) | none => cellT s n p
          let tau := tauAt o t
          let f := fitSolve tau c1.fit
          if fitOk s e.branch e.rest skip t tau f c1.fit then
            let r := rootOf (fitResidual tau f c1.fit)
            (restAnchor s e n p g 1 f.1 r ends { c1 with fitDone := true, ocv := some (f.1, slopeFor s e (cellT s n p) f.1, g) }, false)
          else ({ c1 with ocv := none }, true)
    if 100 * restFull ≤ e.rest && !solved.1.fullTried then
      let last := (solved.1.fit.filter fun x => decide (e.rest < x.1 + 100)).map (·.2)
      if solved.1.fitDone || last.isEmpty then ({ solved.1 with fullTried := true }, solved.2)
      else
        let a0 := meanOf last
        (restAnchor s e n p g 2 a0 0 ends { solved.1 with fullTried := true, ocv := some (a0, slopeFor s e (cellT s n p) a0, g) }, solved.2)
    else solved

/-! Endpoints (R180 to R186). -/

/-- Lowest Good or Held Vc of a string with its position; of equal cells the first (log 11). -/
def lowestVc (cells : List Cell) : Option (Rat × Nat) := go cells 0
where go : List Cell → Nat → Option (Rat × Nat)
  | [], _ => none
  | c :: cs, p =>
    let r := go cs (p + 1)
    match c.vc with
    | some (v, q) => if q == .good || q == .held then (match r with | some (w, k) => if v ≤ w then some (v, p) else some (w, k) | none => some (v, p)) else r
    | none => r

/-- Highest Good or Held Vc of a string with its position; of equal cells the first (log 11). -/
def highestVc (cells : List Cell) : Option (Rat × Nat) := go cells 0
where go : List Cell → Nat → Option (Rat × Nat)
  | [], _ => none
  | c :: cs, p =>
    let r := go cs (p + 1)
    match c.vc with
    | some (v, q) => if q == .good || q == .held then (match r with | some (w, k) => if w ≤ v then some (v, p) else some (w, k) | none => some (v, p)) else r
    | none => r

/-- Runs of the endpoint checks and their flags (R180 to R182): the string, and the positions that take a full and an empty anchor. -/
def endpoints (s : State) (e : EstStr) (cells : List Cell) : EstStr × Option Nat × Option Nat :=
  let lo := lowestVc cells
  let hi := highestVc cells
  let restA := (s.parN .estRestI : Rat) / 1000 * oneC s
  let mv (p : PName) : Rat := (s.parN p : Rat) / 10
  let loBelow := match lo with | some (v, _) => decide (v ≤ mv .estEodV) | none => false
  let hiAbove := match hi with | some (v, _) => decide (mv .estEocV ≤ v) | none => false
  let eodHit := e.countOk && !e.eod && loBelow && decide (e.mean ≤ restA)
  let eocHit := e.countOk && !e.eoc && hiAbove && decide (0 < e.mean) && decide (e.mean ≤ (s.parN .estEocITaper : Rat) / 1000 * oneC s)
  let eodRun := if eodHit then e.eodRun + 1 else 0
  let eocRun := if eocHit then e.eocRun + 1 else 0
  let empty := if 3 ≤ eodRun then lo.map (·.2) else none
  let full := if 3 ≤ eocRun then hi.map (·.2) else none
  let loUp := match lo with | some (v, _) => decide (mv .estEodV + mv .estEodHyst ≤ v) | none => false
  let hiDown := match hi with | some (v, _) => decide (v ≤ mv .estEocV - mv .estEocHyst) | none => false
  let eodClr := if e.eod && loUp then e.eodClr + 1 else 0
  let eocClr := if e.eoc && hiDown then e.eocClr + 1 else 0
  let eod := empty.isSome || (e.eod && !(decide (3 ≤ eodClr) || decide (restA < e.mean)))
  let eoc := full.isSome || (e.eoc && !(decide (3 ≤ eocClr) || decide (e.mean < -restA)))
  ({ e with eod := eod, eoc := eoc, eodRun := if empty.isSome then 0 else eodRun, eocRun := if full.isSome then 0 else eocRun
            eodClr := if eod then eodClr else 0, eocClr := if eoc then eocClr else 0, vcMin := lo, vcMax := hi }, full, empty)

/-- The endpoint checks in a frame whose update is missed: no voltage continues a run, and the mean current still ends a flag (R157, R180 to R182). -/
def missEndpoints (s : State) (e : EstStr) : EstStr :=
  let restA := (s.parN .estRestI : Rat) / 1000 * oneC s
  { e with eod := e.eod && !decide (restA < e.mean), eoc := e.eoc && !decide (e.mean < -restA), eodRun := 0, eocRun := 0, eodClr := 0, eocClr := 0 }

/-- The reading of a load anchor: SOC and slope, where Vc is Good, the temperature admitted and the slope enough (R183). -/
def loadReading (s : State) (n p : Nat) (full : Bool) (c : Cell) : Option (Rat × Rat) :=
  match c.vc, colAt s full (cellT s n p) with
  | some (v, .good), some col =>
    let r := readSoc col v
    if admitT s n p && decide ((s.parN .estAnchorSlopeMin : Rat) / 100 ≤ r.2) then some r else none
  | _, _ => none

/-- The endpoint anchor on its own cell (R180, R181, R186). -/
def endCell (s : State) (g : Nat) (full : Bool) (c : Cell) : Cell :=
  let sig := (s.parN .estAnchorEndSigma : Rat) / 100
  if full then
    { c with q := c.cap, sigma := sig, socInvalid := false, anchor := 3, anchorAt := g
             overrun := if c.cap < c.q then c.q - c.cap else c.overrun, shortfall := if c.q < c.cap then c.cap - c.q else c.shortfall }
  else
    { c with q := 0, sigma := sig, socInvalid := false, anchor := 4, anchorAt := g
             overrun := if c.q < 0 then -c.q else c.overrun, shortfall := if 0 < c.q then c.q else c.shortfall }

/-- R186 on another cell of the string. -/
def clampOverrun (full : Bool) (c : Cell) : Cell :=
  let above : Int := if full then c.q - c.cap else -c.q
  if 0 < above then
    { c with q := if full then c.cap else 0, sigma := max c.sigma (if c.cap == 0 then 0 else 100 * (above : Rat) / (c.cap : Rat)), overrun := above }
  else c

/-- R167 on a cell whose SOC is Invalid: the SOC read from Vc on the branch of the anchor, where the cell qualifies. -/
def recoverCell (s : State) (n p : Nat) (full : Bool) (c : Cell) : Cell :=
  match c.vc, colAt s full (cellT s n p) with
  | some (v, .good), some col =>
    if admitT s n p then { c with q := nearest ((readSoc col v).1 * (c.cap : Rat) / 100), sigma := sigmaLost s, socInvalid := false } else c
  | _, _ => c

/-- Every other cell of the string at an endpoint anchor (R167, R183, R186). -/
def otherCell (s : State) (n p g : Nat) (full : Bool) (c : Cell) : Cell :=
  let c1 := clampOverrun full c
  if c.socInvalid then recoverCell s n p full c1
  else
    if s.parB .estAnchorLoad then (match loadReading s n p full c with
      | some (soc, k) => combine g 5 soc (((s.parN .estAnchorVErr + s.parN .estAnchorLoadErr : Nat) : Rat) / 100 / k) c1
      | none => c1) else c1

/-- SOC that the load anchor of a cell reads at an endpoint anchor, where it takes one (R183, R217). -/
def loadSoc (s : State) (n p : Nat) (full : Bool) (c : Cell) : Option Rat :=
  if s.parB .estAnchorLoad && !c.socInvalid then (loadReading s n p full c).map (·.1) else none

/-- A full or empty anchor of a string (R180, R181, R183 to R186), with the start of a capacity measurement at a full anchor (R217). other is the position that takes the anchor of the other end in this frame. -/
def anchorString (n g : Nat) (full : Bool) (k : Nat) (other : Option Nat) (s : State) : State :=
  let old := (s.cell (576 * n + k))
  let read (p : Nat) (c : Cell) : Option Rat := if p == k then some 100 else if some p == other then none else loadSoc s n p true c
  let span (p : Nat) : Option (Int × Int) := let t := groupItem s n p; if t.q == .good then some (t.val, t.val) else none
  let s1 := s.mapCells n fun p c =>
    let c1 := if p == k then endCell s g full c
      else if some p == other then c
      else otherCell s n p g full c
    if full then { c1 with qRem := 0, sTop := read p c, tSpan := span p } else c1
  let s2 := s1.raise (if full then 0x3005 else 0x3006) n
  let s3 := s2.updEst n fun e => { e with seenFull := e.seenFull || full, seenEmpty := e.seenEmpty || !full, fullAt := if full then some s.time.now else e.fullAt }
  if full then (if old.q < old.cap then s3.raiseOnly 0x300A (576 * n + k) else s3)
  else (if 0 < old.q then s3.raise 0x3009 (576 * n + k) else s3)

/-! Capacity survey in the update (R214, R217, R218). -/

/-- c_meas of a cell at the empty anchor and whether every other condition of R217 holds; with equal readings c_meas is a free value (log 3). -/
def capMeas (s : State) (v : CapSurvey) (n k p : Nat) (full : Option Nat) (c : Cell) : Option (Rat × Bool) :=
  let bot := if p == k then some 0 else if some p == full then none else loadSoc s n p false c
  let warm := match c.tSpan with | some (a, b) => decide (v.par.tMin ≤ a) && decide (b ≤ v.par.tMax) | none => false
  match c.sTop, bot with
  | some a, some b => some (if a == b then Config.openRat 34 (c.qRem : Rat) else 100 * (c.qRem : Rat) / (a - b), decide ((v.par.spanMin : Rat) / 100 ≤ a - b) && warm)
  | _, _ => none

/-- Capacity step of a qualifying cell in the update of frame g (R218). -/
def capStep (g : Nat) (m : Rat) (c : Cell) : Cell :=
  let lim := (c.cap : Rat) * 3 / 100
  { c with cap := nearest ((c.cap : Rat) + clampRat (-lim) lim ((m - (c.cap : Rat)) / 4)), capN := min 255 (c.capN + 1), capValid := true, capAt := some g }

/-- c_meas lies from 50 % to 120 % of nominal (R217). -/
def capPlausible (s : State) (m : Rat) : Bool := decide ((nominalQ s : Rat) / 2 ≤ m) && decide (m ≤ (nominalQ s : Rat) * 6 / 5)

/-- The empty anchor of a capacity survey (R217, R218): k is the anchored position, before are the cells ahead of the anchors of this update. -/
def capLearn (v : CapSurvey) (n k : Nat) (full : Option Nat) (before : List Cell) (s : State) : State :=
  let ms := before.mapIdx fun p c => capMeas s v n k p full c
  let good (p : Nat) : Option Rat := match ms.getD p none with | some (m, true) => if capPlausible s m then some m else none | _ => none
  let bad := (List.range ms.length).filter fun p => match ms.getD p none with | some (m, _) => !capPlausible s m | none => false
  let count := ((List.range ms.length).filter fun p => (good p).isSome).length
  let s1 := s.mapCells n fun p c => match good p with | some m => capStep (s.time.frame - 1) m c | none => c
  let s2 := forEach bad (fun p s => s.raise 0x3029 (576 * n + p)) s1
  let s3 := s2.modSurv fun v => { v with
    capLast := updAt v.capLast n fun _ => some (s.time.frame - 1, s.time.now), capCells := updAt v.capCells n fun _ => count
    cap := v.cap.map fun c => { c with phase := 4 } }
  s3.raise 0x3027 n

/-- The regime after the survey of a string ends (R164). -/
def endSurveyRegime (n : Nat) (s : State) : State := if (s.estr n).regime == .countSurvey then setRegime n .tracking s else s

/-- Ends the capacity survey without a capacity update (R215). -/
def stopCap (cause : Nat) (v : CapSurvey) (s : State) : State :=
  (endSurveyRegime v.string (s.modSurv fun u => { u with cap := some { v with phase := 4 } })).raise 0x3028 (evArg cause v.string)

/-- Phases of the capacity survey of a string after the endpoint checks (Table 7-4), with the conditions of Table 7-5 that hold for every frame of the count. A survey that began after the sample instant waits (R155). The Hold phase ends with the frame in which sharing starts the discharge (R280); the first Discharge frame of cause 4 is the first whose mean current reaches -0.05 C (Table 7-4). -/
def capPhase (n : Nat) (full empty : Option Nat) (before : List Cell) (s : State) : State :=
  match s.surv.cap with
  | none => s
  | some v =>
    let e := s.estr n
    if v.string != n || !e.survAt then s
    else
      let c := oneC s
      let to_ (w : CapSurvey) : State := s.modSurv fun u => { u with cap := some w }
      if v.phase == 1 then
        let taper := match e.vcMax with | some (x, _) => decide ((s.parN .estEocV : Rat) / 10 ≤ x) | none => false
        if full.isSome then to_ { v with phase := 2, fullAt := some s.time.now, ref := 0 }
        else if taper then to_ { v with ref := max 0 (v.ref - (v.par.chargeRate : Rat) / 1000 * c / 100) } else s
      else if (v.phase == 2 || v.phase == 3) && 2 ≤ e.gapRun then stopCap 3 v s
      else if v.phase == 2 then
        if e.countOk && decide (e.mean ≤ -(c / 20)) then
          if e.mean < -c then stopCap 4 v s
          else to_ { v with phase := 3, disAt := some s.time.now, flowing := true, ref := -((v.par.rate : Rat) / 1000 * c) }
        else s
      else if v.phase == 3 then
        if decide (e.mean < -c) || (v.flowing && decide (-(c / 20) < e.mean)) then stopCap 4 v s
        else
          let w := { v with flowing := v.flowing || (e.countOk && decide (e.mean ≤ -(c / 20))) }
          match empty with
          | some k => if w.flowing then endSurveyRegime n (capLearn w n k full before s) else s
          | none => to_ w
      else s

/-! String results (R187, R188, R190). -/

/-- Uncertainty of a string (R187). -/
def sigmaString (cells : List Cell) : Rat :=
  let ok := cells.filter fun c => !c.socInvalid
  ((if ok.isEmpty then cells else ok).map (·.sigma)).foldl max 0

/-- Mean SOC over cells not Invalid. -/
def meanSoc (cells : List Cell) : Option Rat :=
  let ok := cells.filter fun c => !c.socInvalid
  if ok.isEmpty then none else some (meanOf (ok.map socClamped))

/-- Anchor request of an unanchored string: 1 rest, 2 full, 3 empty (R188). -/
def anchorRequest (s : State) (n : Nat) (e : EstStr) (cells : List Cell) : Nat :=
  let sig := sigmaString cells
  match meanSoc cells with
  | none => if e.branch == 2 then 3 else 2
  | some m =>
    let ts := (List.range cells.length).filterMap fun p => let g := groupItem s n p; if g.q == .good then some (g.val : Rat) else none
    let t := if ts.isEmpty then 250 else meanOf ts
    let flat := match colAt s (e.branch == 1) t with
      | some col => slopeOver ((s.parN .estAnchorSlopeMin : Rat) / 100) (max 0 (m - 2 * sig)) (min 100 (m + 2 * sig)) col
      | none => false
    if e.branch != 0 && flat then 1 else if (50 : Rat) ≤ m then 2 else 3

/-- Results of a string (R190): Q_d, Q_h in uC and the energies in Wh; none when some SOC is Invalid. -/
def stringResults (s : State) (n : Nat) (cells : List Cell) : Option (Int × Int × Rat × Rat) :=
  if cells.isEmpty || cells.any (·.socInvalid) then none
  else
    let qc (c : Cell) : Int := clampInt 0 c.cap c.q
    let qd := (cells.map qc).foldl min ((cells.headD {}).cap)
    let qd := min qd (qc (cells.headD {}))
    let qh := (cells.map fun c => c.cap - qc c).foldl min ((cells.headD {}).cap - qc (cells.headD {}))
    match s.boot.run.ocv with
    | none => none
    | some o =>
      let volt (chg : Bool) (p : Nat) (c : Cell) : Rat :=
        let soc := socClamped c
        let shift := if c.cap == 0 then 0 else 50 * ((if chg then qh else qd : Int) : Rat) / (c.cap : Rat)
        ocvAt (ocvCol o chg (cellT s n p)) (if chg then soc + shift else soc - shift) / 1000
      let sum (chg : Bool) : Rat := (cells.mapIdx fun p c => volt chg p c).foldl (· + ·) 0
      some (qd, qh, (qd : Rat) * sum false / 3600000000, (qh : Rat) * sum true / 3600000000)

/-- Unanchored, anchor request and results of a string (R187, R188, R190). -/
def reduceString (n g : Nat) (s : State) : State :=
  let cells := stringCells s n
  let e := s.estr n
  let sig := sigmaString cells
  let unanch := if (s.parN .estSigmaMax : Rat) / 100 < sig then true
    else if sig ≤ ((s.par .estSigmaMax - s.par .estSigmaHyst : Int) : Rat) / 100 then false else e.unanch
  let unanch := unanch && !cells.isEmpty
  let req := if unanch then anchorRequest s n e cells else 0
  let s1 := s.updEst n fun e => { e with
    unanch := unanch, req := req, reqAt := if req != 0 && e.req == 0 then s.time.frame else e.reqAt, results := stringResults s n cells, frame := some g }
  (s1.stand 0x3001 n unanch).stand 0x3002 n (req != 0)

/-- Count below empty and above full (Table 6-6): one cell. -/
def judgeCount (n p : Nat) (eod eoc : Bool) (s : State) : State :=
  let i := 576 * n + p
  let c := s.cell i
  let low := decide (c.q < 0)
  let high := decide (c.cap < c.q)
  let s1 := s.updCell i fun c => { c with under := low && !eod, above := high && !eoc, overrun := if low && !eod then -c.q else if high && !eoc then c.q - c.cap else c.overrun }
  let s2 := if low then (if eod then s1 else s1.stand 0x3007 i true) else s1.clear 0x3007 i
  if high then (if eoc then s2 else s2.stand 0x3008 i true) else s2.clear 0x3008 i

/-- The cells whose count check changes something: a count outside its range, or one that was. -/
def countSuspects (s : State) (n : Nat) : List Nat :=
  (List.range (cellCount s n)).filter fun p =>
    let c := s.cell (576 * n + p)
    decide (c.q < 0) || decide (c.cap < c.q) || c.under || c.above || s.isRaised 0x3007 (576 * n + p) || s.isRaised 0x3008 (576 * n + p)

/-! The update of one string. -/

/-- Cells replaced take their charge from the first Good voltage that is admitted, of frames from their release on (R226, R611); the regime of the string goes on, a SOC Invalid under R167 too. -/
def freshCell (s : State) (e : EstStr) (n p g : Nat) (c : Cell) : Cell :=
  let since := match c.fresh with | some f => decide (f ≤ g) | none => false
  if since && c.v.q == .good && admitT s n p && e.branch != 0 then
    match colAt s (e.branch == 1) (cellT s n p) with
    | some col => { c with q := nearest ((readSoc col ((c.v.val : Rat) / 10)).1 * (c.cap : Rat) / 100), sigma := sigmaLost s, fresh := none }
    | none => c
  else c

/-- Count of every cell of a string; late lists the cell instances whose update misses 4.0 ms (R157, R162, R163). old and was are the foragers and the cells of the string before the work on the frame. -/
def chargeString (n g tp tn : Nat) (late : List Nat) (x : StrIn) (old : List Forager) (was : List Cell) (s : State) : State :=
  let e := s.estr n
  s.mapCells n fun p c =>
    let f := old.getD (brickInst n (p / 16)) {}
    let b := bleedTime f (p % 16) (g - 1) tp tn
    spanStep (groupItem s n p) (if late.contains (576 * n + p) then missCell s e x b (was.getD p c) c
      else
        let c := if c.v.q != .invalid && c.v.age == some 0 then { c with vLast := c.v.val.toNat } else c
        chargeCell s e x b (bleedR s f (p % 16)) c)

/-- The regime after the anchors of a frame (Table 6-3). -/
def regimeStep (n g : Nat) (s : State) : State :=
  let e := s.estr n
  match e.regime with
  | .countStart => if (stringCells s n).any fun c => c.anchor != 0 && c.anchorAt == g then setRegime n .tracking s else s
  | .countRecovery => if e.seenFull && e.seenEmpty then setRegime n .tracking s else s
  | _ => s

/-- The capacity ratio of every cell of a string against est.cap.warn (R213). -/
def capRatioEvents (n : Nat) (s : State) : State :=
  forEach (List.range (cellCount s n)) (fun p s =>
    let i := 576 * n + p
    s.stand 0x302A i (decide (1000 * (s.cell i).cap < s.par .estCapWarn * nominalQ s))) s

/-- A capacity survey of string n is in its last phase. -/
def capEnded (s : State) (n : Nat) : Bool := match s.surv.cap with | some v => v.string == n && v.phase == 4 | none => false

/-- The work on one string for the samples of frame g (R156). When a full and an empty anchor fall in one frame, the full anchor and its load anchors are applied first (DESIGN CHOICE, log 11). -/
def updateString (n g : Nat) (late : List Nat) (s : State) : State :=
  match (s.estr n).latch with
  | none => s
  | some (qa, qb, t) =>
    let tn := sampleAt s g
    let tp := tn - t
    let s0 := forEach (List.range 36) (fun b s => if 16 * b < cellCount s n then brickUpdate n b g (tn - g * frameNs) s else s) s
    let r := countString n qa qb t s0
    let s1 := restString n tp tn (chargeString n g tp tn late r.2 s.forgs (stringCells s n) r.1)
    let i := instAmps (s1.estr n)
    let s2 := s1.mapCells n fun p c => if late.contains (576 * n + p) then c else freshCell s1 (s1.estr n) n p g { c with vc := compensated s1 n p i c }
    let (e, full, empty) := endpoints s2 (s2.estr n) (stringCells s2 n)
    let s3 := s2.updEst n fun _ => { e with missed := false }
    let ends := full.toList ++ empty.toList
    let rested := (stringCells s3 n).mapIdx fun p c => if late.contains (576 * n + p) then (clearRest e c, false) else restCell s3 e n p g ends c
    let s4 := s3.mapCells n fun p c => (rested.getD p (c, false)).1
    let s5 := if rested.any (·.2) && !e.rejected then (s4.updEst n fun e => { e with rejected := true }).raise 0x3004 n else s4
    let s6 := if (stringCells s5 n).any fun c => (c.anchor == 1 || c.anchor == 2) && c.anchorAt == g then s5.raise 0x3003 n else s5
    let before := stringCells s6 n
    let s7 := match full with | some k => anchorString n g true k empty s6 | none => s6
    let s8 := match empty with | some k => anchorString n g false k full s7 | none => s7
    let s9 := capPhase n full empty before s8
    let s10 := regimeStep n g s9
    let s11 := forEach (countSuspects s10 n) (fun p s => judgeCount n p e.eod e.eoc s) s10
    let s12 := capRatioEvents n (reduceString n g s11)
    let s13 := if (stringCells s1 n).mapIdx (fun p c => (p, c)) |>.any (fun x => x.2.fresh.isSome && (s12.cell (576 * n + x.1)).fresh.isNone) then writeAfter n 5 s12 else s12
    writeDueNow n (if capEnded s13 n && !capEnded s n then writeAfter n 1 s13 else s13)

/-- Whether the string has a latched interval that waits for its update. -/
def updateDue (s : State) (n : Nat) : Bool := (s.estr n).latch.isSome

/-- ESTIMATOR_UPDATE (R156, R157, R497): the update for the samples of the last frame. late: the cells not updated by 4.0 ms; recomputed: whether a line of the state was recomputed; lost: strings whose state is lost. -/
def execEstimatorUpdate (t : Nat) (late : List Nat) (recomputed : Bool) (lost : List (Fin 4)) (s : State) : Host.Outcome State Fault Refusal :=
  let s := s.at_ t
  if !s.up || s.time.frame == 0 || s.frameStart + 4000000 < t then .next s
  else
    let g := s.time.frame - 1
    let s1 := forEach lost (fun n s => reloadLearned n.val (s.raise 0x8003 n.val)) s
    let s2 := if recomputed then (s1.modMem fun m => { m with recomputed := m.recomputed + 1 }).raise 0x8002 0 else s1
    let s3 := forEach (List.range 4) (fun n s => updateString n g late s) s2
    .next (s3.stand 0x300F 0 (late.any fun c => decide (c % 576 < cellCount s3 (c / 576)) && decide (c < 2304)))

/-- A string whose update of the frame was not made: the count, rest time and branch go on, the bleed account too, and every cell owes the frame (R157, R171). -/
def missString (n g : Nat) (s : State) : State :=
  match (s.estr n).latch with
  | none => s
  | some (qa, qb, t) =>
    let tn := sampleAt s g
    let tp := tn - t
    let s0 := forEach (List.range 36) (fun b s => if 16 * b < cellCount s n then brickMissed n b g (tn - g * frameNs) s else s) s
    let r := countString n qa qb t s0
    let s1 := restString n tp tn (r.1.mapCells n fun p c =>
      spanStep (groupItem s n p) (missCell s (r.1.estr n) r.2 (bleedTime (s.forg (brickInst n (p / 16))) (p % 16) (g - 1) tp tn) c c))
    (s1.mapCells n fun _ c => clearRest (s1.estr n) c).updEst n fun e => { missEndpoints s e with missed := true }

/-- ESTIMATOR_OVERRUN (R157, R45): an update still due at 4.0 ms is missed. -/
def execEstimatorOverrun (t : Nat) (s : State) : Host.Outcome State Fault Refusal :=
  let s := s.at_ t
  if !s.up || s.time.frame == 0 || t < s.frameStart + 4000000 || !(List.range 4).any (updateDue s) then .next s
  else .next ((forEach (List.range 4) (fun n s => missString n (s.time.frame - 1) s) s).stand 0x300F 0 true)

end Sys2Proof.Machine
end

