-- ==== Sys2Proof/Machine/Balance.lean ====
section
/-!
DEFINITION. Balance: passive balancing by SOC (R127, R128).
-/
namespace Sys2Proof.Machine

/-- SOC as published, 0.01 % (Table 6-9). -/
def pubSoc (c : Cell) : Int := if c.under then 0 else if c.above then 10000 else max 0 (wholeUnits (socOf c * 100))

/-- SOC and voltage of a cell are published Good (R127). -/
def balGood (c : Cell) : Bool := !c.socInvalid && !c.under && !c.above && c.missed == 0 && c.v.q == .good

/-- Bleed seconds that R127 gives a cell; 0 for off. v is the published frame; a bleed resistance of 0 makes the timer a quotient by zero, a free value (log 3). -/
def balSecs (s v : State) (n p : Nat) (tgt : Int) (c : Cell) : Nat :=
  let f := s.forg (brickInst n (p / 16))
  let x := pubSoc c - tgt
  let bleeding := (f.bleed.getD (p % 16) {}).on
  let on := balGood c && decide (s.par .cellBalVMin ≤ c.v.val) && decide (cellT v n p ≤ (s.par .cellBalTHot : Rat)) && cellOw (v.forg (brickInst n (p / 16))) (p % 16) == 0 &&
    (decide (s.par .cellBalBand < x) || (bleeding && decide (s.par .cellBalStop < x)))
  if !on then 0
  else
    let dq : Rat := ((x - s.par .cellBalStop : Int) : Rat) / 10000 * (c.cap : Rat) / 1000000
    let r := bleedR s f (p % 16)
    let i : Rat := (c.v.val : Rat) / 10000 / ((r : Rat) / 100)
    min (ratCeil (if r == 0 then Config.openRat 35 dq else dq / (98 / 100 * i))).toNat (s.parN .cellBalTMax)

/-- The decision for one string (R127). -/
def balanceString (n : Nat) (s : State) : State :=
  let v := s.asSeen
  let cells := stringCells v n
  let socs := (cells.filter balGood).map pubSoc
  let tgt := socs.foldl min (socs.headD 0)
  forEach ((List.range 36).filter fun b => 16 * b < cells.length && enrolled s n b) (fun b s =>
    let f := s.forg (brickInst n b)
    let secs (c : Nat) : Nat := balSecs s v n (16 * b + c) tgt (cells.getD (16 * b + c) {})
    let change := (List.range 16).any fun c => (secs c != 0) != (f.bleed.getD c {}).on
    if change || f.bleed.any (·.on) || f.bleedResend then sendBleed .table n b secs (s.updForg (brickInst n b) fun f => { f with bleedResend := false }) else s) s

/-- The balancing decision on Comb frame g, where one is due and admitted (R127, R128). -/
def balanceDecision (g : Nat) (s : State) : State :=
  let period := 100 * s.parN .cellBalPeriod
  if period != 0 && g % period == 0 && mayBleed s
  then forEach ((List.range 4).filter (linkOn s)) balanceString s else s

end Sys2Proof.Machine
end

