-- ==== Sys2Proof/Machine/Thermal.lean ====
section
/-!
DEFINITION. Thermal: chapter 10, die and cell temperatures, broken sensors, derating, inhibits and demands. Temperatures in 0.1 degC.
-/
namespace Sys2Proof.Machine

/-! Die sensors (R292, R293, R299, R300, R305). -/

/-- Temperature of a count by the trim of its sensor (R292). -/
def dieTemp (n1 n2 count : Nat) : Rat := 250 + 800 * ((count : Rat) - (n1 : Rat)) / ((n2 : Rat) - (n1 : Rat))

def dieDisabled (s : State) (d : Nat) : Bool := s.parBit .thermDieDisable d

/-- One die sensor after a count (R299, R300): out of band, or the same count in therm.die.stuck rounds. -/
def dieStep (s : State) (d count : Nat) (x : DieSensor) : DieSensor :=
  let tr := s.therm.trim.getD d (8000, 9000)
  let t := dieTemp tr.1 tr.2 count
  let same := if x.temp.isSome && x.count == count then x.same + 1 else 1
  let broken := !dieDisabled s d && (x.broken || decide (t < -550) || decide (1400 < t) || decide (s.parN .thermDieStuck ≤ same))
  { count := count, temp := some (if broken then 1500 else wholeUnits t), broken := broken, same := same }

/-- ROUND_DIE_SENSORS (R292, R293, R299, R300): the six counts of the 1 ms gate in frame r = 0. -/
def execRoundDieSensors (t : Nat) (counts : List Nat) (s : State) : Host.Outcome State Fault Refusal :=
  let s := s.at_ t
  if !s.up || s.roundPos != 0 || t < s.frameStart + 6000000 || s.frameStart + 7000000 < t then .next s
  else
    let dies := s.therm.dies.mapIdx fun d x => dieStep s d (counts.getD d 0) x
    let live := (List.range 6).filterMap fun d => if dieDisabled s d then none else (dies.getD d {}).temp
    let fresh := (List.range 6).filter fun d => (dies.getD d {}).broken && !(s.therm.dies.getD d {}).broken
    let top := match live with | [] => s.therm.dieMax | a :: l => some (l.foldl max a)
    let s1 := s.modTherm fun x => { x with
      dies := dies, dieAt := some s.time.frame
      dieSub := if live.isEmpty then x.dieSub else (List.range 6).any fun d => !dieDisabled s d && (dies.getD d {}).broken && (dies.getD d {}).temp == top
      dieMax := top
      dieMin := match live with | [] => x.dieMin | a :: l => some (l.foldl min a) }
    .next (forEach fresh (fun d s => s.raise 0xA004 d) s1)

/-- A state that sets at a level and clears at a lower one (Table 10-1). -/
def upDown (set clear t : Int) (on : Bool) : Bool := if set ≤ t then true else if t ≤ clear then false else on

/-- The ends of the band of an inhibit that hold it (R305, Table 10-4), low and high: an end is crossed outside lo to hi, and none is held any more once every end that was crossed is inside by 5.0 degC. -/
def inhibitStep (lo hi tmin tmax : Int) (ends : Bool × Bool) : Bool × Bool :=
  let low := ends.1 || decide (tmin < lo)
  let high := ends.2 || decide (hi < tmax)
  if (!low || decide (lo + 50 ≤ tmin)) && (!high || decide (tmax ≤ hi - 50)) then (false, false) else (low, high)

/-- At the boundary of the frame with r = 1 the die states and inhibits take effect (R293, R305); deferred learned-value writes follow a lifted inhibit (R223). -/
def thermalRound (s : State) : State :=
  match s.therm.dieMax, s.therm.dieMin with
  | some hi, some lo =>
    let x := s.therm
    let m := inhibitStep (-300) 1050 lo hi (x.mramLow, x.mramHigh)
    let f := inhibitStep (-200) 950 lo hi (x.flashLow, x.flashHigh)
    let w := upDown 1000 950 hi x.warn
    let th := upDown 1100 1050 hi x.throttle
    let sh := upDown 1250 1200 hi x.shut
    let s1 := s.modTherm fun x => { x with warn := w, throttle := th, shut := sh, mramInh := m.1 || m.2, mramLow := m.1, mramHigh := m.2, flashInh := f.1 || f.2, flashLow := f.1, flashHigh := f.2 }
    writeDeferred (((((s1.stand 0xA001 0 w).stand 0xA002 0 th).stand 0xA003 0 sh).stand 0xA020 0 (m.1 || m.2)).stand 0xA021 0 (f.1 || f.2))
  | _, _ => s

/-! Cell sensors (R296, R297, R299, R300). -/

/-- A reading of a thermistor input (0 to 3) or of the forager die (4). -/
def sensorReading (u : Uplink) (k : Nat) : Int := if k == 4 then u.dieT else u.therm.getD k 0

def sensorDisabled (s : State) (j k : Nat) : Bool := bit (s.parN .thermDisable j) k

/-- A reading that breaks its sensor (Table 10-2): open, short or out of range. -/
def badReading (r : Int) : Bool := decide (r < -400) || decide (1250 < r)

/-- The broken latches and the unchanged readings of a forager's five sensors after an uplink (R299). -/
def sensorStep (s : State) (j g : Nat) (u : Uplink) (f : Forager) : Forager :=
  let lim := s.parN .thermStuckT
  let stuck := (List.range 5).map fun k =>
    let r := sensorReading u k
    match f.stuck.getD k none with
    | some (v, g0) => if v == r then some (v, g0) else some (r, g)
    | none => some (r, g)
  let broken := (List.range 5).map fun k =>
    let r := sensorReading u k
    let still := match stuck.getD k none with | some (_, g0) => lim != 0 && decide (100 * lim ≤ g - g0) | none => false
    !sensorDisabled s j k && (f.broken.getD k false || badReading r || still)
  { f with stuck := stuck, broken := broken }

/-- The last valid reading of each of a forager's sensors with its frame, after the uplink of Comb frame g (R296, Table 10-2). -/
def keepReadings (g : Nat) (u : Uplink) (f : Forager) : Forager :=
  { f with lastTherm := (List.range 5).map fun k => if badReading (sensorReading u k) then f.lastTherm.getD k none else some (sensorReading u k, g) }

/-- Item of one enabled sensor before internal temperatures in the update of Comb frame g: too hot while broken, else its last valid reading with the age that reading has (R296, R300, Table 3-6). -/
def inputItem (f : Forager) (k g : Nat) (old : Item) : Item :=
  if f.broken.getD k false then { val := 1250, q := .substituted, age := some 0 }
  else match f.lastTherm.getD k none with
    | some (v, fr) => { val := v, q := if fr == g then .good else missingQ (g - fr), age := some (g - fr) }
    | none => { old with q := .invalid }

/-- Highest internal temperature of the cells of group k of brick j that counts (R296), 0.1 degC. -/
def internalMax (s : State) (j k g : Nat) : Option Int :=
  if !s.parB .thermIntUse then none
  else
    let ts := (List.range 16).filterMap fun c =>
      let x := s.cell (16 * j + c)
      match x.tInt with
      | some (t, at_) => if s.parN .thermMap c == k && x.tValid && decide (g - at_ ≤ 100 * s.parN .thermIntAge) then some (wholeUnits (t * 10)) else none
      | none => none
    match ts with | [] => none | a :: l => some (l.foldl max a)

/-- The four group items of a brick (R296, R297, R300). -/
def brickGroups (s : State) (j g : Nat) (f : Forager) : List Item :=
  let en := (List.range 4).filter fun k => !sensorDisabled s j k
  let own (k : Nat) : Item :=
    let it := inputItem f k g (f.groups.getD k {})
    if it.q == .invalid then it else match internalMax s j k g with | some t => { it with val := max it.val t } | none => it
  let vals := (en.map own).filter fun it => it.q != .invalid
  (List.range 4).map fun k =>
    if !sensorDisabled s j k then own k
    else if !en.isEmpty then
      (match vals with
        | [] => { f.groups.getD k {} with q := .invalid }
        | a :: l => { val := (l.map (·.val)).foldl max a.val, q := .substituted, age := some 0 })
    else
      let die := inputItem f 4 g {}
      if sensorDisabled s j 4 || die.q == .invalid then { f.groups.getD k {} with q := .invalid }
      else { val := die.val + s.par .thermDieMargin, q := .substituted, age := some 0 }

/-- Object of a sensor's event (R613): 4j + k for a group; the spec numbers no item for a forager die sensor, which takes 576 + j, past the 576 groups (DESIGN CHOICE, log 8). -/
def sensorArg (j k : Nat) : Nat := if k == 4 then 576 + j else 4 * j + k

/-- Sensors and groups of a brick in the update of Comb frame g. A reading that a released entry leaves behind breaks no sensor (R301). -/
def thermalBrick (j g : Nat) (s : State) : State :=
  let f := s.forg j
  let f1 := match f.closed with | some u => if f.uid.isSome then keepReadings g u (sensorStep s j g u f) else f | none => f
  let fresh := (List.range 5).filter fun k => f1.broken.getD k false && !f.broken.getD k false
  forEach fresh (fun k s => s.raise 0xA013 (sensorArg j k)) (s.updForg j fun _ => { f1 with groups := brickGroups s j g f1 })

/-! String temperatures and functions (R298, R302 to R304, R307). -/

/-- Groups of a string: the four of every configured brick. -/
def stringGroups (s : State) (n : Nat) : List Item := (List.range (cellCount s n / 16)).flatMap fun b => (s.forg (brickInst n b)).groups

/-- T_max,n: an Invalid group counts as +125.0 degC, published as Substituted (R298). -/
def tMaxItem (gs : List Item) : Item :=
  let v (it : Item) : Item := if it.q == .invalid then { it with val := 1250, q := .substituted } else it
  match gs.map v with
  | [] => {}
  | a :: l => l.foldl (fun m it => if m.val < it.val then it else m) a

/-- T_min,n: the lowest group that is not Invalid (R298). -/
def tMinItem (gs : List Item) : Item :=
  match gs.filter fun it => it.q != .invalid with
  | [] => {}
  | a :: l => l.foldl (fun m it => if it.val < m.val then it else m) a

/-- A state of Table 10-3: set when the temperature reaches its level, cleared when it has moved back past it by the hysteresis (R302). -/
def levelState (high : Bool) (level hyst t : Int) (on : Bool) : Bool :=
  if high then (if level ≤ t then true else if t ≤ level - hyst then false else on)
  else if t ≤ level then true else if level + hyst ≤ t then false else on

/-- f_hi and f_lo of R303. -/
def derate (thr sh t : Int) : Rat :=
  if sh == thr then (if t < thr then 1 else 0) else clampRat 0 1 (1 - ((t - thr : Int) : Rat) / ((sh - thr : Int) : Rat))

/-- The nine function states of a string, bits as in the Cell thermal states item (R302). -/
def thermStates (s : State) (tmax : Int) (tmin : Option Int) (old : BitVec 9) : BitVec 9 :=
  let h := s.par .thermCellHyst
  let b (k : Nat) (high : Bool) (p : PName) (t : Option Int) : Bool := match t with | some x => levelState high (s.par p) h x (old.getLsbD k) | none => old.getLsbD k
  let m := some tmax
  let bits := [b 0 true .thermCellChgHiWarn m, b 1 true .thermCellChgHiThrottle m, b 2 true .thermCellChgHiShut m,
    b 3 false .thermCellChgLoWarn tmin, b 4 false .thermCellChgLoThrottle tmin, b 5 false .thermCellChgLoShut tmin,
    b 6 true .thermCellDisHiWarn m, b 7 true .thermCellDisHiThrottle m, b 8 true .thermCellDisHiShut m]
  BitVec.ofNat 9 (bits.foldr (fun x a => 2 * a + (if x then 1 else 0)) 0)

/-- The thermal results of a string without a group: no state, no factor, no demand (R298; log 12). -/
def noThermStr (x : ThermStr) : ThermStr := { x with tMax := {}, tMin := {}, states := 0, noChg := true, fc := 0, fd := 0, cool := 0, coolOn := false, heat := false }

/-- One string in the update of a Comb frame (R298, R302 to R304, R307). -/
def thermalString (n : Nat) (s : State) : State :=
  let gs := stringGroups s n
  let x := s.tstr n
  if gs.isEmpty then s.updTherm n fun _ => noThermStr x
  else
    let tx := tMaxItem gs
    let tn := tMinItem gs
    let t := tx.val
    let lo : Option Int := if tn.q == .invalid then none else some tn.val
    let st := thermStates s t lo x.states
    let hy := s.par .thermCellHyst
    let fHi : Rat := if st.getLsbD 2 then 0 else derate (s.par .thermCellChgHiThrottle) (s.par .thermCellChgHiShut) t
    let fLo : Rat := if st.getLsbD 5 then 0 else match lo with | some v => derate (s.par .thermCellChgLoThrottle) (s.par .thermCellChgLoShut) v | none => 1
    let fd : Rat := if st.getLsbD 8 then 0 else derate (s.par .thermCellDisHiThrottle) (s.par .thermCellDisHiShut) t
    let no := decide (s.par .thermChgMax < t) || (match lo with | some v => decide (v < s.par .thermChgMin) | none => false)
    let con := if s.par .thermCoolOn ≤ t then true else if t ≤ s.par .thermCoolOn - hy then false else x.coolOn
    let heat := match lo with
      | some v => if v < s.par .thermHeatOn then true else if s.par .thermHeatOn + hy ≤ v then false else x.heat
      | none => x.heat
    let cool := if st.getLsbD 1 || st.getLsbD 7 then 3 else if st.getLsbD 0 || st.getLsbD 6 then 2 else if con then 1 else 0
    let s1 := s.updTherm n fun _ => { tMax := tx, tMin := tn, states := st, noChg := no, fc := min fHi fLo, fd := fd, cool := cool, coolOn := con, heat := heat }
    let s2 := forEach (List.range 3) (fun f s =>
      let a := evArg (f + 1) n
      ((s.stand 0xA010 a (st.getLsbD (3 * f))).stand 0xA011 a (st.getLsbD (3 * f + 1))).stand 0xA012 a (st.getLsbD (3 * f + 2))) s1
    s2.stand 0xA015 n no

/-- CELL_THERMAL_UPDATE of Comb frame g (R296 to R304, R307). -/
def thermalUpdate (g : Nat) (s : State) : State :=
  let bricks := (List.range 4).flatMap fun n => (List.range (cellCount s n / 16)).map (brickInst n)
  forEach (List.range 4) thermalString (forEach bricks (fun j s => thermalBrick j g s) s)

/-- A commit changes therm.disable or therm.die.disable: latches of disabled sensors clear and the change is recorded (R301). -/
def sensorCommit (old : List (ParamKey × Int)) (s : State) : State :=
  let was (p : PName) (i : Nat) : Nat := (paramIn old { p := p, i := i }).toNat
  let dieOld := was .thermDieDisable 0
  let dieNew := s.parN .thermDieDisable
  let s1 := forEach ((List.range 6).filter fun d => bit dieOld d != bit dieNew d) (fun d s =>
    ((s.modTherm fun x => { x with dies := updAt x.dies d fun y => { y with broken := false, same := 0 } }).clear 0xA004 d).raise 0xA014 d) s
  forEach ((List.range 144).filter fun j => was .thermDisable j != s.parN .thermDisable j) (fun j s =>
    let ks := (List.range 5).filter fun k => bit (was .thermDisable j) k != sensorDisabled s j k
    let s2 := s.updForg j fun f => { f with broken := f.broken.mapIdx fun k b => b && !ks.contains k, stuck := f.stuck.mapIdx fun k x => if ks.contains k then none else x }
    (forEach ks (fun k s => s.clear 0xA013 (sensorArg j k)) s2).raise 0xA014 ((s.forg j).uid.getD 0)) s1

/-- The conditions of R308 hold: levels in order, the charging window inside them, at most three die sensors disabled, no GPIO named twice. -/
def thermalOk (ps : List (ParamKey × Int)) : Bool :=
  let v (p : PName) : Int := paramIn ps { p := p }
  let up (a b c : Int) : Bool := decide (a < b) && decide (b < c)
  let pins := ((List.range 4).flatMap fun n => [paramIn ps { p := .thermCoolGpio, i := n }, paramIn ps { p := .thermHeatGpio, i := n }]).filter (· != 255)
  up (v .thermCellChgHiWarn) (v .thermCellChgHiThrottle) (v .thermCellChgHiShut) && up (v .thermCellChgLoShut) (v .thermCellChgLoThrottle) (v .thermCellChgLoWarn) &&
  up (v .thermCellDisHiWarn) (v .thermCellDisHiThrottle) (v .thermCellDisHiShut) &&
  decide (v .thermCellChgLoShut ≤ v .thermChgMin) && decide (v .thermChgMin < v .thermChgMax) && decide (v .thermChgMax ≤ v .thermCellChgHiShut) &&
  decide (((List.range 6).filter fun d => bit (v .thermDieDisable).toNat d).length ≤ 3) && pins.eraseDups.length == pins.length

/-- Level of GPIO pin k by a demand, where a demand names it (R307). -/
def demandPin (s : State) (k : Nat) : Option Bool :=
  (List.range 4).foldl (fun r n =>
    if s.parN .thermCoolGpio n == k then some (decide (1 ≤ (s.tstr n).cool)) else if s.parN .thermHeatGpio n == k then some (s.tstr n).heat else r) none

end Sys2Proof.Machine
end

