-- ==== Sys2Proof/Machine/Regulator.lean ====
section
/-!
DEFINITION. Regulator: chapter 08 and the survey terms of R197 and R198: measurements, the law of R235 in binary32, regions, loop states,
lanes and the PWM unit.
-/
namespace Sys2Proof.Machine

/-! Measurements (R230 to R233). -/

/-- A float32 parameter as its bits. -/
def parF (s : State) (p : PName) (i : Nat := 0) : Nat := s.parN p i

/-- Calibrated value of channel c in binary32; none while the channel is not valid (R230, R232). -/
def channelVal (s : State) (c : Nat) (d : Density) : Option Nat :=
  let x := density 256 d.bits
  if quietClocks d.bits < s.parN .regMeasStuck && decide (ratAbs x ≤ (s.parN .regMeasRange : Rat) / 1000)
  then some (f32.mul (parF s .regCalGain c) (f32.sub (toF32 x) (parF s .regCalZero c))) else none

/-- The quantities of Table 8-1 by code; the list holds the channels SD_D(4n) to SD_D(4n+3), SD_D16 and SD_D17. -/
def quantities (s : State) (n : Nat) (ch : List Density) : List (Option Nat) :=
  let v (k : Nat) : Option Nat := match ch[k]? with | some d => channelVal s (if k < 4 then 4 * n + k else 12 + k) d | none => none
  let a := v 0
  let b := v 1
  let i := if s.par .estISource == 1 then (if b.isSome then b else a) else (if a.isSome then a else b)
  let vc := if (v 3).isSome then v 3 else if stringClosed s n then v 2 else none
  let vb := if (v 4).isSome then v 4 else v 5
  [i, a, b, v 2, vc, vb, v 4, v 5]

/-! Binary32 vectors (R238): within a row the products accumulate in ascending columns with one rounding each. -/

def fDot (row v : List Nat) : Nat := (row.zip v).foldl (fun acc p => f32.fma p.1 p.2 acc) 0
def fMat (m : List (List Nat)) (rows cols : Nat) (v : List Nat) : List Nat := (m.take rows).map fun r => fDot (r.take cols) (v.take cols)
def fAdd (a b : List Nat) : List Nat := List.zipWith f32.add a b
def fSub (a b : List Nat) : List Nat := List.zipWith f32.sub a b
def fClamp (lo hi v : Nat) : Nat := if f32.lt v lo then lo else if f32.lt hi v then hi else v
def fMin (a b : Nat) : Nat := if f32.lt b a then b else a
def fMax (a b : Nat) : Nat := if f32.lt a b then b else a

/-- Full length of 8 entries. -/
def pad8 (v : List Nat) : List Nat := v ++ List.replicate (8 - v.length) 0

/-- Output limits of both inputs (Table 8-2). -/
def outLimits (g : GainSet) (dLo dHi vb vc : Nat) : Nat × Nat :=
  if g.mode1 then (f32.sub (f32.mul dLo vb) vc, f32.sub (f32.mul dHi vb) vc) else (dLo, dHi)

/-- Duty of an output, and output of a duty (Table 8-2). -/
def dutyOf (g : GainSet) (vb vc u : Nat) : Nat := if g.mode1 then f32.div (f32.add u vc) vb else u
def outOf (g : GainSet) (vb vc d : Nat) : Nat := if g.mode1 then f32.sub (f32.mul d vb) vc else d

/-- Inputs of a tick of the law: measurement rows, V_b, V_c, table reference, survey terms, current limits, slew, duty limits. -/
structure LawIn where
  y : List Nat
  vb : Nat
  vc : Nat
  rTab : Nat
  tone : Nat
  comp : Nat
  iLo : Nat
  iHi : Nat
  slew : Nat
  dLo : Nat
  dHi : Nat
  preset : Bool
  deriving DecidableEq, Repr

/-- What a tick of the law gives: the state record, duties, saturation bits and the residual of the tracked row. -/
structure LawOut where
  lrec : LaneRec
  duty : List Nat
  sat : BitVec 4
  resid : Nat
  deriving DecidableEq, Repr

/-- Observer correction: the residual y - C xp and the corrected state (R235). -/
def observe (g : GainSet) (y : List Nat) (xp : List Nat) : List Nat × List Nat :=
  let res := fSub (y.take g.nY) (fMat g.c g.nY g.nX xp)
  (res, fAdd (xp.take g.nX) (fMat g.l g.nX g.nY res))

/-- Prediction for the next tick (R235). -/
def predict (g : GainSet) (x ua : List Nat) : List Nat := pad8 (fAdd (fMat g.a g.nX g.nX x) (fMat g.b g.nX 2 ua))

/-- One tick of the law in the order of R235. -/
def lawTick (g : GainSet) (i : LawIn) (r0 : LaneRec) : LawOut :=
  let (res, x) := observe g i.y r0.xp
  let rs := f32.add r0.rs (fClamp (f32.neg i.slew) i.slew (f32.sub i.rTab r0.rs))
  let r := fClamp i.iLo i.iHi (f32.add (f32.add rs i.tone) i.comp)
  let (lo, hi) := outLimits g i.dLo i.dHi i.vb i.vc
  let kx := fMat g.k 2 g.nX x
  let krr := (g.kr.take 2).map fun k => f32.mul k r
  let z := if i.preset then fSub (fAdd (r0.ua.map (fClamp lo hi)) kx) krr else r0.z
  let uu := fAdd (fAdd (kx.map f32.neg) z) krr
  let ua := uu.map (fClamp lo hi)
  let e := f32.sub r (i.y.getD g.track 0)
  let z1 := (List.range 2).map fun j =>
    let kie := f32.mul (g.ki.getD j 0) e
    let u := uu.getD j 0
    let zj := z.getD j 0
    if (!f32.lt u hi && f32.lt 0 kie) || (!f32.lt lo u && f32.lt kie 0) then zj else f32.add zj kie
  let sat (j : Nat) : Nat := (if f32.lt (uu.getD j 0) lo then 1 else 0) + (if f32.lt hi (uu.getD j 0) then 2 else 0)
  { lrec := { xp := predict g x ua, z := z1, rs := rs, ua := ua }, duty := ua.map (dutyOf g i.vb i.vc)
    sat := BitVec.ofNat 4 (sat 0 + 4 * sat 1), resid := res.getD g.track 0 }

/-- Compare value of a duty (R252): round(d * 128,000). A duty that is no number gives a free value (log 3). -/
def compareOf (d : Nat) : Nat := match f32.rat? d with | some q => (clampInt 0 131071 (nearest (q * 128000))).toNat | none => Config.openNat 7 % 131072

/-! Survey terms (R197, R198, R206). -/

/-- The tones without their envelope, A. -/
def toneSum (v : ImpSurvey) (t : Nat) : Rat :=
  (v.amp : Rat) / 100 * (v.tones.map fun (f : Nat) => sinTurn ((f : Rat) / 10 * (((t : Int) - (v.t0 : Int) : Int) : Rat) / 1000000000)).foldl (· + ·) 0

/-- Envelope of a running survey. -/
def envelope (v : ImpSurvey) (t : Nat) : Rat :=
  let ramp : Rat := (v.ramp : Rat) * 1000000
  let start : Rat := (v.t0 : Rat) - (v.settle : Rat) * 1000000
  if (t : Rat) < start then 0
  else if t ≤ v.tEnd then min 1 (((t : Rat) - start) / ramp)
  else max 0 (1 - ((t : Rat) - (v.tEnd : Rat)) / ramp)

/-- The tone term, and the compensation term, that a survey gives string n under an envelope. -/
def surveyTerm (v : ImpSurvey) (e : Rat) (n t : Nat) : Rat × Rat :=
  let i := e * toneSum v t
  if e == 0 then (0, 0)
  else if v.string == n then (i, 0)
  else if v.comp.contains n then
    let vj := v.volts.getD n 0
    let m : Rat := ((v.comp.length : Nat) : Rat)
    (0, if vj == 0 then 0 else -i * v.volts.getD v.string 0 / (m * vj))
  else (0, 0)

/-- i_tone and i_comp of string n at module time t. -/
def surveyTerms (s : State) (n t : Nat) : Rat × Rat :=
  let a := match s.surv.imp with | some v => if v.frameA.isSome then surveyTerm v (envelope v t) n t else (0, 0) | none => (0, 0)
  let b := match s.surv.fade with
    | some (v, t1, level) => surveyTerm v (level * max 0 (1 - ((t : Rat) - (t1 : Rat)) / ((v.ramp : Rat) * 1000000))) n t
    | none => (0, 0)
  (a.1 + b.1, a.2 + b.2)

/-! Regions (R242 to R244). -/

def gainSet (s : State) (n k : Nat) : GainSet := s.boot.run.gains.getD (16 * n + k) {}
def regionOf (s : State) (n k : Nat) : Region := s.boot.run.regions.getD (16 * n + k) {}

/-- a - b of two float32 values, exact where both are finite; a difference of equal infinities is no number. -/
def extSub : FVal → FVal → FVal
  | .nan, _ => .nan
  | _, .nan => .nan
  | .fin _ x, .fin _ y => .fin false (x - y)
  | .inf a, .fin _ _ => .inf a
  | .fin _ _, .inf b => .inf (!b)
  | .inf a, .inf b => if a == b then .nan else .inf a

def extNeg : FVal → FVal
  | .nan => .nan
  | .inf a => .inf (!a)
  | .fin a x => .fin (!a) (-x)

/-- A value is at or below q, and above q; no number is neither. -/
def extLe (a : FVal) (q : Rat) : Bool := match a with | .fin _ x => decide (x ≤ q) | .inf neg => neg | .nan => false
def extGt (a : FVal) (q : Rat) : Bool := match a with | .fin _ x => decide (q < x) | .inf neg => !neg | .nan => false

/-- A quantity lies in [lo - h, hi + h), or in [lo, hi) without a hysteresis (R242). -/
def inBand (lo hi : FVal) (h : Option FVal) (q : Rat) : Bool :=
  match h with
  | none => extLe lo q && extGt hi q
  | some h => extLe (extSub lo h) q && extGt (extSub hi (extNeg h)) q

/-- An entry matches, in its widened bands (wide) or without hysteresis. -/
def regionMatch (r : Region) (wide : Bool) (i v : Rat) (t : Int) : Bool :=
  let f (b : Nat) : FVal := binary32.val b
  let h (x : FVal) : Option FVal := if wide then some x else none
  let k (x : Int) : FVal := .fin false (x : Rat)
  r.enabled && (r.dflt || (inBand (f r.iLo) (f r.iHi) (h (f r.hI)) i && inBand (f r.vLo) (f r.vHi) (h (f r.hV)) v && inBand (k r.tLo) (k r.tHi) (h (k r.hT)) (t : Rat)))

/-- Lowest-index enabled entry that matches without hysteresis (R243). -/
def regionCandidate (s : State) (n : Nat) (i v : Rat) (t : Int) : Option Nat := (List.range 16).find? fun k => regionMatch (regionOf s n k) false i v t

/-- The default entry: the last enabled one (R240, R243). -/
def defaultRegion (s : State) (n : Nat) : Nat := ((List.range 16).filter fun k => (regionOf s n k).enabled).getLastD 0

/-- First entry of a loop that leaves Off (R243). -/
def firstRegion (s : State) (n : Nat) (i v : Option Rat) (t : Int) : Nat :=
  match i, v with
  | some a, some b => (regionCandidate s n a b t).getD (defaultRegion s n)
  | _, _ => defaultRegion s n

/-- Entry decided for the next tick, where the loop changes region (R243). -/
def regionDecision (s : State) (n : Nat) (l : Loop) (i v : Option Rat) : Option Nat :=
  match i, v with
  | some a, some b =>
    match regionCandidate s n a b l.temp with
    | some c =>
      let cur := regionOf s n l.region
      let leave := !regionMatch cur true a b l.temp || (cur.dflt && !(regionOf s n c).dflt)
      if c != l.region && leave && decide (s.parN .regRegionDwell ≤ l.dwell) then some c else none
    | none => none
  | _, _ => none

/-! One tick of a loop (R234, R235, R248, R249). -/

/-- Quantities that a gain set needs: those it selects, and V_b and V_c in mode 1 (R234, R237). -/
def needed (g : GainSet) : List Nat := g.sel.take g.nY ++ (if g.mode1 then [4, 5] else [])

/-- A tick lacks measurement (R234). -/
def lacksMeas (g : GainSet) (q : List (Option Nat)) : Bool := (needed g).any fun c => (q.getD c none).isNone

/-- Record written for the lane that serves a string, and for a spare that shadows it (R256). -/
def storeRec (n : Nat) (r : LaneRec) (s : State) : State :=
  s.modReg fun x => { x with lanes := x.lanes.map fun l => if (l.st == 0 || l.st == 1) && l.string == some n then { l with lrec := r } else l }

/-- The loop goes Off, or to a stopped state, for an owner (R25): the request for GATE_ENn is withdrawn and the PWM outputs go low (R248). -/
def loopOff (n : Nat) (goal : LoopSt) (o : Owner) (s : State) : State :=
  let was := (s.loop n).st
  let s1 := s.updLoop n fun l => { l with st := goal, gateReq := false, pwmLow := true, toManual := none, toAuto := false, satRun := [0, 0], sat := 0, laneStop := false }
  stage n (((if was == .manual then s1.clear 0x400B n else s1).clear 0x4008 n).because (.current n) o)

/-- The loop leaves Off for Automatic (R243, R248): sets committed while it was Off are in force without a preset, and the dwell counts from this tick. -/
def loopStart (n : Nat) (i v : Option Rat) (s : State) : State :=
  let k := firstRegion s n i v (s.loop n).temp
  let s1 := (s.modReg fun r => { r with newSets := updAt r.newSets n fun _ => false }).updLoop n fun l => { l with
    st := .auto, lrec := {}, gateReq := true, region := k, gset := (regionOf s n k).set, regionNext := none, setChanged := false, oldSet := none, dwell := 1, lackRun := 0
    satRun := [0, 0], sat := 0, toManual := none, toAuto := false }
  stage n (((storeRec n {} s1).clear 0x400A n).because (.current n) (s.dstr n).why)

/-- Inputs of the law for a tick. -/
def lawIn (s : State) (n t : Nat) (g : GainSet) (q : List (Option Nat)) (preset : Bool) : LawIn :=
  let v (c : Nat) : Nat := (q.getD c none).getD 0
  let rating := toF32 ((s.parN .regIRating : Rat) / 10)
  let terms := surveyTerms s n t
  let tb := s.reg.act
  { y := (g.sel.take g.nY).map v, vb := v 5, vc := v 4, rTab := toF32 (tb.refs.getD n 0), tone := toF32 terms.1, comp := toF32 terms.2
    iLo := fMax (toF32 (tb.dis.getD n 0)) (f32.neg rating), iHi := fMin (toF32 (tb.chg.getD n 0)) rating, slew := toF32 ((s.parN .regISlew : Rat) / 100)
    dLo := toF32 ((s.parN .regDutyMin : Rat) / 10000), dHi := toF32 ((s.parN .regDutyMax : Rat) / 10000), preset := preset }

/-- A tick in Automatic; hold says that the compare values of this tick do not reach the shadow (Table 8-9). -/
def autoTick (n t : Nat) (g : GainSet) (q : List (Option Nat)) (hold preset : Bool) (s : State) : State :=
  let l := s.loop n
  let o := lawTick g (lawIn s n t g q preset) l.lrec
  let run (j : Nat) : Nat := if o.sat.getLsbD (2 * j) || o.sat.getLsbD (2 * j + 1) then l.satRun.getD j 0 + 1 else 0
  let s1 := s.updLoop n fun l => { l with
    lrec := o.lrec, duty := o.duty, sat := o.sat, satRun := [run 0, run 1], setChanged := false
    shadow := if hold then l.shadow else o.duty.map compareOf
    resid := (l.resid.1 + f32.rat o.resid * f32.rat o.resid, l.resid.2 + 1) }
  let s2 := storeRec n o.lrec s1
  if o.sat == 0 then s2.clear 0x4008 n else s2

/-- A tick in Manual (R249). -/
def manualTick (n : Nat) (g : GainSet) (q : List (Option Nat)) (hold : Bool) (s : State) : State :=
  let l := s.loop n
  let i := lawIn s n 0 g q false
  let target := fClamp i.dLo i.dHi l.manual
  let slew := toF32 ((s.parN .regManualSlew : Rat) / 10000)
  let duty := l.duty.map fun d => f32.add d (fClamp (f32.neg slew) slew (f32.sub target d))
  let ua := duty.map (outOf g i.vb i.vc)
  let (res, x) := observe g i.y l.lrec.xp
  let r : LaneRec := { l.lrec with xp := predict g x ua, ua := ua }
  let s1 := s.updLoop n fun l => { l with
    lrec := r, duty := duty, shadow := if hold then l.shadow else duty.map compareOf, sat := 0, satRun := [0, 0], setChanged := false
    resid := (l.resid.1 + f32.rat (res.getD g.track 0) * f32.rat (res.getD g.track 0), l.resid.2 + 1) }
  (storeRec n r s1).clear 0x4008 n

/-- A tick that lacks measurement (R234): duties and z held, the observer advanced by prediction alone. -/
def lackTick (n : Nat) (g : GainSet) (s : State) : State :=
  let l := s.loop n
  let r : LaneRec := { l.lrec with xp := predict g (l.lrec.xp.take g.nX) l.lrec.ua }
  (storeRec n r (s.updLoop n fun l => { l with lrec := r, lackRun := l.lackRun + 1, lacking := l.lacking + 1, validRun := 0 })).stand 0x4009 n true

/-- The Engineer commands waiting for the lane are taken (R248, R249). A return to Automatic asks for the preset of R245 in the first tick that computes. -/
def takeCommands (n : Nat) (i : Option Nat) (s : State) : State :=
  let l := s.loop n
  if l.st == .auto then
    match l.toManual with
    | some d => ((s.updLoop n fun l => { l with st := .manual, manual := d, toManual := none, toAuto := false }).stand 0x400B n true).because (.current n) .command
    | none => s.updLoop n fun l => { l with toAuto := false }
  else if l.toAuto then
    match i with
    | some c => ((s.updLoop n fun l => { l with st := .auto, toAuto := false, toManual := none, setChanged := true, lrec := { l.lrec with rs := c } }).clear 0x400B n).because (.current n) .command
    | none => s
  else s.updLoop n fun l => match l.toManual with | some d => { l with manual := d, toManual := none } | none => l

/-- The region decision of a tick in which committed sets or regions of the string swap in, made afresh from the new table (R244). The entry stays where a quantity has no value, but for the default entry where it is no longer enabled (DEDUCED, log 39). A change of the set in force or of its content asks for a preset. -/
def swapSets (n : Nat) (i v : Option Rat) (s : State) : State :=
  let l := s.loop n
  let k := match i, v with
    | some a, some b => (regionCandidate s n a b l.temp).getD (defaultRegion s n)
    | _, _ => if (regionOf s n l.region).enabled then l.region else defaultRegion s n
  let g := (regionOf s n k).set
  let changed := g != l.gset || (match l.oldSet with | some o => o != gainSet s n g | none => false)
  (s.updLoop n fun l => { l with
    region := k, gset := g, setChanged := l.setChanged || changed, oldSet := none, regionNext := none
    dwell := if k == l.region then l.dwell else 0, changes := if k == l.region then l.changes else l.changes + 1 }).modReg (fun r => { r with newSets := updAt r.newSets n fun _ => false })
    |>.because (.current n) .command

/-- The loop's work in a tick in which its lane serves it (R235, R243, R248). -/
def loopTick (n t : Nat) (q : List (Option Nat)) (hold : Bool) (s : State) : State :=
  let l := s.loop n
  let rat (c : Nat) : Option Rat := (q.getD c none).bind f32.rat?
  let enabled := s.reg.act.enabled.getD n false
  let g0 := gainSet s n (regionOf s n (firstRegion s n (rat 0) (rat 3) l.temp)).set
  -- ticks in which every needed quantity is valid, while no law runs: those of the set that a start would take
  let countValid (s : State) : State := s.updLoop n fun l => { l with validRun := if lacksMeas g0 q then 0 else l.validRun + 1 }
  match l.st with
  | .stopLane => countValid s
  | .off =>
    let s1 := countValid s
    if !enabled then s1.updLoop n fun l => { l with waitConn := false }
    else if !l.waitConn && l.lane.isSome && !lacksMeas g0 q then loopStart n (rat 0) (rat 3) s1 else s1
  | .stopMeas =>
    let s1 := countValid s
    if !lacksMeas g0 q && 500 ≤ l.validRun + 1 && enabled && l.lane.isSome then loopStart n (rat 0) (rat 3) s1 else s1
  | _ =>
    if !enabled then loopOff n .off (s.dstr n).why s
    else if !gateEn s n then loopOff n .off .safety s
    else
      let s1 := takeCommands n (q.getD 0 none) (if s.reg.newSets.getD n false then swapSets n (rat 0) (rat 3) s else s)
      let l1 := s1.loop n
      let g := gainSet s1 n l1.gset
      let s2 :=
        if lacksMeas g q then lackTick n g s1
        else
          let s3 := s1.updLoop n fun l => { l with lackRun := 0, validRun := l.validRun + 1 }
          if l1.st == .manual then manualTick n g q hold s3 else autoTick n t g q hold l1.setChanged s3
      s2.updLoop n fun l => { l with dwell := l.dwell + 1, regionNext := regionDecision s2 n l1 (rat 0) (rat 3) }

/-! Lanes (R255 to R261). -/

/-- The spare: a lane that shadows or tests itself, when no takeover waits for it. -/
def spareLane (s : State) : Option Nat :=
  if s.reg.takeover.isSome then none else (List.range 5).find? fun k => let l := s.reg.lanes.getD k {}; l.st == 1 || l.st == 2

/-- A lane leaves service as failed. -/
def failLane (k : Nat) (s : State) : State := s.updLane k fun l => { l with st := 3, string := none, passes := 0 }

/-- A stop of the converter disconnects the string (R286). -/
def stopDisconnects (n : Nat) (s : State) : State := s.updDisp n fun d => if d.conn == 5 then { d with wantDisc := true, why := .reaction } else d

/-- Without a spare the string of a faulty lane stops (R260). -/
def stopByLane (n k : Nat) (s : State) : State :=
  stopDisconnects n (((loopOff n .stopLane .reaction (failLane k s)).updLoop n fun l => { l with lane := none }).stand 0x4006 n true)

/-- The lane that shadows string n in this frame. -/
def shadowLane (s : State) (n : Nat) : Option Nat := (List.range 5).find? fun k => let l := s.reg.lanes.getD k {}; l.st == 1 && l.string == some n

/-- The lane that serves string n is shadowed in this frame. -/
def shadowed (s : State) (n : Nat) : Bool := (shadowLane s n).isSome

/-- The lane k of string n is faulty in this tick: the spare takes over, or without one the string stops in the next tick (R258, R260). -/
def laneFaulty (n : Nat) (s : State) : State :=
  if (spareLane s).isSome then s.modReg fun r => { r with takeover := some n } else s.updLoop n fun l => { l with laneStop := true }

/-- The spare j that shadows a lane is faulty. -/
def spareFaulty (j : Nat) (s : State) : State := (failLane j s).stand 0x4002 0 true

/-- The checks of the lane of string n, and of the spare, in a tick, after its work (R257, R258, R260). A comparison says something only of a lane that is shadowed. -/
def laneFault (n : Nat) (chk : LaneCheck) (s : State) : State :=
  match (s.loop n).lane with
  | none => s
  | some k =>
    let differ (s : State) : State := s.updLane k fun l => { l with shadowDiffs := l.shadowDiffs + 1 }
    match chk, shadowLane s n with
    | .ok, _ => s
    | .selfError, _ => laneFaulty n (s.updLane k fun l => { l with checkFails := l.checkFails + 1 })
    | .overrun, _ => laneFaulty n ((s.updLane k fun l => { l with overruns := l.overruns + 1 }).raise 0x4005 k)
    | .shadowActive, some _ => laneFaulty n (differ s)
    | .shadowSpare, some j => spareFaulty j (differ s)
    | .shadowBoth, some j => laneFaulty n (spareFaulty j (differ s))
    | .shadowOpen, some j => (((differ s).updLane j fun l => { l with st := 2, string := none }).modReg fun r => { r with windowEnded := true }).raise 0x4004 k
    | .spareSelf, _ => (match spareLane s with | some j => spareFaulty j (s.updLane j fun l => { l with checkFails := l.checkFails + 1 }) | none => s)
    | .spareOverrun, _ => (match spareLane s with | some j => spareFaulty j ((s.updLane j fun l => { l with overruns := l.overruns + 1 }).raise 0x4005 j) | none => s)
    | _, none => s

/-- Whether the tick's compare values stay out of the shadow: a fault found in a lane that is not shadowed (Table 8-9), or in both lanes, which leaves no result to use. -/
def heldTick (s : State) (n : Nat) (chk : LaneCheck) : Bool := (chk == .selfError || chk == .overrun) && !shadowed s n || chk == .shadowBoth && shadowed s n

/-- What a tick's measurements mean to the Estimator, dispatch and a survey (R159, R201, R264, R287). -/
def noteMeasures (n t : Nat) (q : List (Option Nat)) (s : State) : State :=
  let rat (c : Nat) : Option Rat := (q.getD c none).bind f32.rat?
  let vb := rat 5
  let lo : Rat := (s.parN .regVbusMin : Rat)
  let hi : Rat := (s.parN .regVbusMax : Rat)
  let low := match rat 0 with | some i => decide (ratAbs i ≤ ((s.dstr n).seq.discI : Rat) / 10) | none => false
  let s1 := s.updLoop n fun l => { l with
    i := rat 0, vs := rat 3, vc := rat 4, vb := vb, ready := l.shadow
    busOut := l.busOut && (match vb with | some v => decide (v < lo) || decide (hi < v) | none => false)
    busIn := l.busIn && (match vb with | some v => decide (lo ≤ v) && decide (v ≤ hi) | none => false)
    lowAll := l.lowAll && low }
  let s2 := noteOutputs n (s1.updEst n fun e => { e with okA := e.okA && (q.getD 1 none).isSome, okB := e.okB && (q.getD 2 none).isSome })
  match s2.surv.imp with
  | some v => if v.string == n && v.frameA.isSome && decide (v.t0 ≤ t) && decide (t ≤ v.tEnd) && !((q.getD 1 none).isSome && (q.getD 2 none).isSome)
      then s2.modSurv fun u => { u with imp := some { v with curOk := false } } else s2
  | none => s2

/-- What the loop of string n shows in a tick is latched for the frame (R62, R263); the residual's interval ends. -/
def latchLoop (n : Nat) (s : State) : State :=
  s.updLoop n fun l => { l with
    latchDue := false, resid := (0, 0)
    pubNext := { st := l.st, lane := l.lane, region := l.region, gset := l.gset, ref := s.reg.act.refs.getD n 0, i := l.i, vs := l.vs, vc := l.vc, vb := l.vb
                 duty := l.duty, z := l.lrec.z, sat := l.sat, gateReq := l.gateReq, gateIn := gateEn s n
                 resid := if l.resid.2 == 0 then none else some (l.resid.1 / (l.resid.2 : Rat)), changes := l.changes, lacking := l.lacking } }

/-- The work of string n in tick k has ended: a latch for a sample instant that this tick holds is due (R263). -/
def endWork (n k : Nat) (s : State) : State :=
  let s1 := s.updLoop n fun l => { l with workAt := some k }
  if (s.loop n).latchDue then latchLoop n s1 else s1

/-- LANE_SAMPLE (R34, R233 to R249, R257): the work of string n in a tick, at its carrier phase; a string not set in reg.strings is only measured, and its lane checks itself. -/
def execLaneSample (t : Nat) (n : Fin 4) (ch : List Density) (chk : LaneCheck) (s : State) : Host.Outcome State Fault Refusal :=
  let s := s.at_ t
  if !s.running || t % tickNs != carrierPhase s n.val || (s.loop n.val).workAt == some (t / tickNs) then .next s
  else
    let q := quantities s n.val ch
    let s1 := noteMeasures n.val t q (fireUnit (8 + n.val) s)
    let s2 := laneFault n.val chk (if s.parBit .regStrings n.val then loopTick n.val t q (heldTick s n.val chk) s1 else s1)
    .next (endWork n.val (t / tickNs) s2)

/-- MEASUREMENT_LOST_STOP (R234, R286): after reg.meas.lost.ticks ticks the converter is stopped. -/
def execMeasurementLostStop (t : Nat) (n : Fin 4) (s : State) : Host.Outcome State Fault Refusal :=
  let s := s.at_ t
  let l := s.loop n.val
  if s.running && (l.st == .auto || l.st == .manual) && decide (s.parN .regMeasLostTicks ≤ l.lackRun)
  then .next (stopDisconnects n.val (((loopOff n.val .stopMeas .reaction s).updLoop n.val fun l => { l with validRun := 0 }).stand 0x400A n.val true)) else .next s

/-- OUTPUT_SATURATED (R247). -/
def execOutputSaturated (t : Nat) (n : Fin 4) (s : State) : Host.Outcome State Fault Refusal :=
  let s := s.at_ t
  if s.running && (s.loop n.val).satRun.any fun k => decide (s.parN .regSatReport ≤ k) then .next (s.stand 0x4008 n.val true) else .next s

/-! The PWM unit (R251, R252, R254). -/

/-- Counter of leg A of string n at a time, in steps of 156.25 ps: from 0 at the valley of an even tick's turning point to 128,000 at the peak 20 us later, and back. -/
def counterA (s : State) (n t : Nat) : Nat :=
  let x := (t + 40000 - (carrierPhase s n + 1200) % 40000) % 40000
  (if x ≤ 20000 then x else 40000 - x) * 32 / 5

/-- Counter of a leg: with reg.pwm.interleave that of leg B is 128,000 minus that of leg A. -/
def counterOf (s : State) (n leg t : Nat) : Nat := if leg == 1 && s.parB .regPwmInterleave then 128000 - counterA s n t else counterA s n t

/-- The edges that a leg makes until the next turning point, whose counter stands at `here` where its compare value is loaded at t (Table 8-7): from a valley the high side falls and the low side follows after the dead time; from a peak the low side falls and the high side follows. -/
def legEdges (leg here cmp dead t : Nat) : List (Nat × Bool × Nat) :=
  let h := 2 * leg
  if here == 0 then (let e := 32 * t + 5 * cmp; [(h, false, e), (h + 1, true, e + 32 * dead)])
  else (let e := 32 * (t + 20000) - 5 * cmp; [(h + 1, false, e), (h, true, e + 32 * dead)])

/-- A turning point of the carriers of string n: its counters stand at a valley or a peak. -/
def turningPoint (s : State) (n t : Nat) : Bool := counterA s n t == 0 || counterA s n t == 128000

/-- PWM_TURNING_POINT (R251, R252, R254): the compare values written in the previous tick are loaded and set the edges of the four outputs; while the string is Off or GATE_ENn reads low the outputs are held low. -/
def execPwmTurningPoint (t : Nat) (n : Fin 4) (s : State) : Host.Outcome State Fault Refusal :=
  let s := s.at_ t
  if !s.running || !turningPoint s n.val t then .next s
  else
    let l := s.loop n.val
    let run := (l.st == .auto || l.st == .manual) && gateEn s n.val
    let s1 := s.updLoop n.val fun l => { l with cmp := l.ready, pwmLow := !run }
    let edges (leg : Nat) : List (Nat × Bool × Nat) := legEdges leg (counterOf s n.val leg t) (l.ready.getD leg 0) (s.parN .regPwmDead) t
    .next (if run then s1.send (.pwm n.val (edges 0 ++ edges 1)) else s1)

/-- LANE_TAKEOVER (R258 to R260): the spare serves the string of the faulty lane; a self-test that it was running is aborted (R565). With no spare left the string stops. -/
def execLaneTakeover (t : Nat) (s : State) : Host.Outcome State Fault Refusal :=
  let s := s.at_ t
  match s.reg.takeover with
  | none => .next s
  | some n =>
    let s0 := s.modReg fun r => { r with takeover := none }
    match spareLane s0, (s0.loop n).lane with
    | some j, some k =>
      let r := (s0.loop n).lrec
      let s0 := if (s0.reg.lanes.getD j {}).st == 2 then sliceOutcome (0x40 + j) j 4 0 s0 else s0
      let s1 := (failLane k s0).updLane j fun l => { l with st := 0, string := some n, lrec := r }
      .next (((s1.updLoop n fun l => { l with lane := some j }).raise 0x4001 k).stand 0x4002 0 true)
    | none, some k => .next (stopByLane n k s0)
    | _, none => .next s0

/-- A failed lane that has passed built-in test serves a stopped string, or becomes the spare (R255, R261). -/
def requalify (k : Nat) (s : State) : State :=
  match (List.range 4).find? fun n => (s.loop n).st == .stopLane with
  | some n =>
    let s1 := s.updLane k fun l => { l with st := 0, string := some n, passes := 0 }
    ((s1.updLoop n fun l => { l with st := .off, lane := some k, waitConn := true }).raise 0x4003 k).clear 0x4006 n
  | none => ((s.updLane k fun l => { l with st := 2, string := none, passes := 0 }).raise 0x4003 k).clear 0x4002 0

/-- The spare's work in the frame with position r (R256). -/
def spareFrame (r : Nat) (s : State) : State :=
  let s := if r % 20 == 0 then s.modReg fun x => { x with windowEnded := false } else s
  match spareLane s with
  | none => s
  | some k =>
    let n := r / 20
    let runs := (s.loop n).st == .auto || (s.loop n).st == .manual
    if r < 80 && s.parB .regShadow && s.parBit .regStrings n && runs && !s.reg.windowEnded
    then s.updLane k fun l => { l with st := 1, string := some n, lrec := (s.loop n).lrec }
    else s.updLane k fun l => { l with st := 2, string := none }

/-- The Regulator's part of a frame boundary: frame sums judged (R264), string temperatures in force (R242), the spare's work (R256). With tables that missed the boundary those in force stay those of an older Comb frame, and so does the temperature. -/
def regulatorFrame (late : Bool) (s : State) : State :=
  let on := (List.range 4).filter (s.parBit .regStrings)
  let s0 := if on.isEmpty then s else if on.all fun n => (s.loop n).busOut then s.stand 0x400D 0 true else if on.all fun n => (s.loop n).busIn then s.clear 0x400D 0 else s
  let s1 := forEach (List.range 4) (fun n s =>
    let l := s.loop n
    let s1 := if 500 ≤ l.validRun then s.clear 0x4009 n else s
    s1.updLoop n fun l => { l with
      busOut := true, busIn := true, pub := l.pubNext
      temp := if late then l.temp else (let it := (s.asSeen.tstr n).tMax; if it.q == .invalid then 1250 else it.val) }) s0
  spareFrame s.roundPos s1

/-- The value of SD_D18 in the tick that ends joins the mean of its frame (R267), which needs a valid value in every tick. -/
def anaTick (t : Nat) (d : Density) (s : State) : State :=
  let x := density 256 d.bits
  let ok := (channelVal s 18 d).isSome
  s.modReg fun r =>
    let sum := (r.ana.1 + x, r.ana.2.1 + 1, r.ana.2.2 && ok)
    if t % frameNs == 0 then { r with ana := (0, 0, true), anaMean := if sum.2.2 && sum.2.1 == 500 then some (sum.1 / 500) else none }
    else { r with ana := sum }

/-- Owner of references and limits that dispatch built (R25): the reaction to a lost source, a rest window or a derating that changes the limits, else the owner of the survey of the string, else the set-point command. -/
def refOwner (x : RegTables) (s : State) (n : Nat) : Owner :=
  if (s.dstr n).restAt.isSome || s.disp.loss != 0 || x.whole.getD n (0, 0) != s.reg.act.whole.getD n (0, 0) then .reaction
  else match s.surv.cap, s.surv.imp with
    | some c, i => if c.string == n then c.why else (match i with | some v => if v.string == n || v.comp.contains n then v.why else .command | none => .command)
    | none, some v => if v.string == n || v.comp.contains n then v.why else .command
    | none, none => .command

/-- References and limits that differ from those in force are recorded with their owner (R25). -/
def noteRefs (x : RegTables) (s : State) : State :=
  let a := s.reg.act
  forEach (List.range 4) (fun n s =>
    if x.refs.getD n 0 == a.refs.getD n 0 && x.chg.getD n 0 == a.chg.getD n 0 && x.dis.getD n 0 == a.dis.getD n 0 then s
    else s.because (.current n) (refOwner x s n)) s

/-- The tables that dispatch built become active (R22, R266). -/
def swapTables (s : State) : State :=
  match s.reg.shadow with
  | some x => ((noteRefs x s).modReg fun r => { r with act := x, shadow := r.shadowAfter, shadowAfter := none, swapLate := false }).modDisp fun d => { d with act := { strs := d.strs, pref := d.pref, shortfall := d.shortfall } }
  | none => s

/-- At the boundary of tick k: a string whose lane was found faulty with no spare goes Off (R260), and a latch that no work of the tick before took is taken. -/
def stopDue (k n : Nat) (s : State) : State :=
  let l := s.loop n
  let s1 := if l.latchDue && decide (l.workAt ≠ some k) then latchLoop n s else s
  match l.lane with
  | some j => if l.laneStop then stopByLane n j s1 else s1
  | none => s1

/-- TICK_BOUNDARY (R22, R35, R45, R243): tables that missed the boundary of their frame swap at the next tick boundary, and decided regions take force. ana is the decimated value of SD_D18 in the tick that ends. -/
def execTickBoundary (t : Nat) (ana : Density) (s : State) : Host.Outcome State Fault Refusal :=
  let s := fireOutputs (fireUnit 0 (s.at_ t))
  if !s.running || t % tickNs != 0 then .next s
  else
    let s := anaTick t ana s
    let s1 := forEach (List.range 4) (stopDue (t / tickNs)) (if s.reg.swapLate && t % frameNs != 0 then swapTables s else s)
    .next (forEach (List.range 4) (fun n s =>
      let l := s.loop n
      match l.regionNext with
      | some k =>
        let g := (regionOf s n k).set
        if l.st == .auto || l.st == .manual then
          (s.updLoop n fun l => { l with region := k, gset := g, setChanged := l.setChanged || g != l.gset, regionNext := none, dwell := 0, changes := l.changes + 1 }).because (.current n) .table
        else s.updLoop n fun l => { l with regionNext := none }
      | none => s) s1)

/-! Engineer commands (R248, R249). -/

/-- Manual duty for string n, in 0.0001. -/
def cmdManualDuty (n duty : Nat) (s : State) : CmdOut :=
  let l := s.loop n
  if (s.boot.mode == .commission || s.boot.mode == .service) && (l.st == .auto || l.st == .manual)
  then accept (s.updLoop n fun l => { l with toManual := some (toF32 ((duty : Rat) / 10000)) }) else refuse 0x400E n s

/-- Automatic for string n. -/
def cmdAutomatic (n : Nat) (s : State) : CmdOut :=
  match (s.loop n).st with
  | .manual => accept (s.updLoop n fun l => { l with toAuto := true })
  | .auto => accept s
  | _ => refuse 0x400F n s

/-- MANUAL_DUTY (R249). -/
def execManualDuty (t : Nat) (n : Fin 4) (duty : BitVec 16) (s : State) : Host.Outcome State Fault Refusal :=
  let s := s.at_ t
  if s.running then .next (cmdManualDuty n.val duty.toNat s).1 else .next s

/-- AUTOMATIC (R248, R249). -/
def execAutomatic (t : Nat) (n : Fin 4) (s : State) : Host.Outcome State Fault Refusal :=
  let s := s.at_ t
  if s.running then .next (cmdAutomatic n.val s).1 else .next s

/-- A mode change out of Commission or Service returns Manual loops to Automatic, and a Manual duty not yet taken lapses (R248). -/
def leaveManual (s : State) : State :=
  s.modReg fun r => { r with loops := r.loops.map fun l => { l with toManual := none, toAuto := l.toAuto || l.st == .manual } }

/-! The cell sample instant (R39, R158, R159, R263). -/

/-- Charge count of a channel: round(g * (n - z * k)) in binary64 (R159, R231). -/
def chargeCount (s : State) (c : Nat) (n : Int) (k : Nat) : Int :=
  let b (q : Rat) : Nat := f64.ofRat false q
  let g := f64.mul (b (1 / 20)) (b (f32.rat (parF s .regCalGain c)))
  let z := b (f32.rat (parF s .regCalZero c))
  nearest (f64.rat (f64.mul g (f64.sub (b (n : Rat)) (f64.mul z (b (k : Rat))))))

/-- Latches of string n at the sample instant: counts, currents at the instant, validity of the interval, published measurements. -/
def sampleString (n : Nat) (net : List Int) (k : Nat) (ch : List Density) (interval : Nat) (s : State) : State :=
  let e := s.estr n
  let nA := e.nA + net.getD (2 * n) 0
  let nB := e.nB + net.getD (2 * n + 1) 0
  let kk := e.k + k
  let val (c : Nat) : Option Rat := match ch[c]? with | some d => (channelVal s c d).bind f32.rat? | none => none
  let s1 := s.updEst n fun e => { e with
    nA := nA, nB := nB, k := kk, latchNext := some (chargeCount s (4 * n) nA kk, chargeCount s (4 * n + 1) nB kk, interval)
    iInstNext := (val (4 * n), val (4 * n + 1)), vInstNext := (val (4 * n + 2), val (4 * n + 3)), flagsNext := (e.okA, e.okB, e.gateLow, e.ctrOpen), okA := true, okB := true
    gateLow := !gateEn s n, ctrOpen := !stringClosed s n, survNext := match s.surv.cap with | some v => v.string == n && v.phase != 4 | none => false }
  -- the loop's latch belongs to the tick that holds the instant, before or after its lane's work (R263)
  if (s.loop n).workAt == some (s.time.now / tickNs) then latchLoop n s1 else s1.updLoop n fun l => { l with latchDue := true }

/-- At a frame boundary the latches of the last sample instant become those of the frame to be updated. -/
def shiftLatches (s : State) : State :=
  s.modEst fun es => es.map fun e => { e with latch := e.latchNext, latchNext := none, flags := e.flagsNext, iInst := e.iInstNext, vInst := e.vInstNext, survAt := e.survNext }

/-! Sample placement (R36 to R38). -/

/-- Intervals of possible edges of leg A in tick 0 for one carrier, ns from the tick boundary, each with its dead time: falling edges after the valley at phase + 1.2 us, and rising edges before the next valley. -/
def edgeSpans (dLo dHi : Rat) (dead phase : Rat) (invert : Bool) : List (Rat × Rat) :=
  let lo := (if invert then 1 - dHi else dLo) * 20000
  let hi := (if invert then 1 - dLo else dHi) * 20000
  let v0 : Rat := phase + 1200
  -- the carrier has a valley at v0 + 40,000 k; an edge lies lo to hi after a valley and lo to hi before the next
  (List.range 4).flatMap fun (k : Nat) =>
    let v := v0 + 40000 * ((k : Rat) - 2)
    [(v + lo, v + hi + dead), (v - hi, v - lo + dead)]

/-- Free gaps of [0, 20000] left by spans in order of their start. -/
def freeGaps : Rat → List (Rat × Rat) → List (Rat × Rat)
  | p, [] => if p < 20000 then [(p, 20000)] else []
  | p, (a, b) :: rest => if p < a && p < 20000 then (p, min a 20000) :: freeGaps (max p b) rest else freeGaps (max p b) rest

/-- Widest gap, the first of equals. -/
def widest : List (Rat × Rat) → Option (Rat × Rat)
  | [] => none
  | g :: rest => match widest rest with | some h => if g.2 - g.1 < h.2 - h.1 then some h else some g | none => some g

/-- Carrier placement of the next frame's offset: s, the quiet interval in ns, and Quiet-short (R37). -/
def carrierPlace (s : State) : Nat × Nat × Bool :=
  let dLo : Rat := (s.parN .regDutyMin : Rat) / 10000
  let dHi : Rat := (s.parN .regDutyMax : Rat) / 10000
  let dead : Rat := (s.parN .regPwmDead : Rat)
  let spans := ((List.range 4).filter (s.parBit .regStrings)).flatMap fun n =>
    let ph : Rat := (carrierPhase s n : Rat)
    edgeSpans dLo dHi dead ph false ++ edgeSpans dLo dHi dead ph (s.parB .regPwmInterleave)
  let order := sortBy (fun a b => decide (a.1 ≤ b.1)) (spans.filter fun x => decide (0 < x.2) && decide (x.1 < 20000))
  match widest (freeGaps 0 order) with
  | none => (10000, 0, true)
  | some (a, b) =>
    let w := wholeUnits (b - a)
    ((clampInt 0 1999 (nearest ((a + b) / 2 / 10))).toNat * 10, w.toNat, decide (b - a < (s.parN .timeSampleQuietMin : Rat)))

/-- The state with the parameters that will be active in the frame whose offset is fixed: those of a committed content and of accepted writes that wait for a frame boundary (R37). -/
def asDue (s : State) : State :=
  let put (ps : List (ParamKey × Int)) (c : Cfg) : List (ParamKey × Int) :=
    ((ps.map (·.1) ++ c.params.map (·.1)).filter fun k => k.p.desc.effect == .commit && k.p != .bootLifecycle).foldl (fun qs k => setParam qs k (paramIn c.params k)) ps
  let com := ([s.boot.applyPend, s.boot.toApply].filterMap id).foldl put s.boot.run.params
  s.modBoot fun b => { b with run := { b.run with params := (b.framePend ++ b.frameW).foldl (fun ps e => setParam ps e.1 e.2) com } }

/-- The offset of the next frame is fixed (R36 to R38), with events 0x6010 and 0x6011. Until a first edge of SYNC_IN has been captured there is no t_sync, and the model takes the state in which none has been captured for 100 frames (DESIGN CHOICE, log 37). -/
def placeSample (s : State) : State :=
  let sync := s.par .timeSampleSource == 1
  let lost := sync && decide (100 ≤ s.time.syncAge)
  match (if sync && !lost then s.time.syncEdge else none) with
  | some e =>
    let o := (((e : Int) + s.par .timeSampleSyncOffset) % 20000).toNat / 10 * 10
    ((s.modTime fun x => { x with sShadow := o, quietShadow := (none, false), syncLost := false }).clear 0x6010 0).clear 0x6011 0
  | none =>
    let p := carrierPlace (asDue s)
    ((s.modTime fun x => { x with sShadow := p.1, quietShadow := (some p.2.1, p.2.2), syncLost := sync }).stand 0x6010 0 p.2.2).stand 0x6011 0 sync

/-! Commit checks (R240, R253). -/

def zeroBeyond (m : List (List Nat)) (rows cols : Nat) : Bool :=
  (m.mapIdx fun i r => (r.mapIdx fun j x => decide (i < rows ∧ j < cols) || x % 2 ^ 31 == 0).all id).all id

/-- A gain-set record is well formed (R240): an empty one, n_x 0, too in its matrix entries, of which none lies within n_x; Ki and Kr have no row or column beyond n_x. -/
def gainOk (g : GainSet) : Bool :=
  g.crcOk && g.format == 1 && ((g.a ++ g.b ++ g.l ++ g.c ++ g.k ++ [g.ki, g.kr]).all fun r => r.all f32.isFinite) &&
  zeroBeyond g.a g.nX g.nX && zeroBeyond g.b g.nX 2 && zeroBeyond g.l g.nX g.nY && zeroBeyond g.c g.nY g.nX && zeroBeyond g.k 2 g.nX &&
  (g.nX == 0 || (g.nX ≤ 8 && 1 ≤ g.nY && g.nY ≤ 4 && (g.sel.take g.nY).all (fun c => decide (c < 8)) && decide (g.track < g.nY)))

/-- A region entry is well formed over the records of its string. -/
def regionOk (gs : List GainSet) (n : Nat) (r : Region) : Bool :=
  !r.enabled || ((gs.getD (16 * n + r.set) {}).nX != 0 && decide (r.set < 16) && f32.lt r.iLo r.iHi && f32.lt r.vLo r.vHi && decide (r.tLo < r.tHi))

/-- The gain-set and region sections pass R240 for the strings set in reg.strings; a section that is present holds 64 records. -/
def gainsOk (strings : Nat) (gs : List GainSet) (rs : List Region) : Bool :=
  (gs.isEmpty || gs.length == 64) && (rs.isEmpty || rs.length == 64) &&
  ((List.range 4).filter (bit strings)).all fun n =>
    let mine := (List.range 16).map fun k => gs.getD (16 * n + k) {}
    let regs := (List.range 16).map fun k => rs.getD (16 * n + k) {}
    let full := mine.filter fun g => g.nX != 0
    let en := regs.filter (·.enabled)
    mine.all gainOk && regs.all (regionOk gs n) && !en.isEmpty && (en.getLastD {}).dflt &&
      (match full with
        | [] => true
        | f :: fs => fs.all fun g => g.nX == f.nX && g.nY == f.nY && g.sel == f.sel && g.track == f.track && g.mode1 == f.mode1)

/-- R253 holds: the duty limits leave room for the dead time. -/
def pwmOk (ps : List (ParamKey × Int)) : Bool :=
  let v (p : PName) : Int := paramIn ps { p := p }
  decide (v .regPwmDead < v .regDutyMin * 4) && decide (v .regPwmDead < (10000 - v .regDutyMax) * 4)

end Sys2Proof.Machine
end

