-- ==== Sys2Proof/Machine/Survey.lean ====
section
/-!
DEFINITION. Survey: impedance surveys (R195 to R206), what the impedance gives (R210 to R213), capacity surveys (R214 to R217), due
surveys (R219) and the learned-value write by command (R222).
-/
namespace Sys2Proof.Machine

/-! Due surveys (R219). -/

/-- A survey is due a number of days after its last completed one; 0 days for never, and a string without a completed survey is due (log 14). -/
def surveyDue (s : State) (days : Nat) (last : Option (Nat × Nat)) : Bool :=
  days != 0 && match last with | some (_, t) => decide (t + days * 86400000000000 ≤ s.time.now) | none => true
def impDue (s : State) (n : Nat) : Bool := surveyDue s (s.parN .impPeriod) (s.surv.impLast.getD n none)
def capDue (s : State) (n : Nat) : Bool := surveyDue s (s.parN .estCapPeriod) (s.surv.capLast.getD n none)

/-! Parameters of a survey (R195). -/

/-- Distance in 0.1 Hz of a tone from the nearest folded carrier harmonic |m x 25,000 - j x rate| that is not 0 Hz is below 1.0 Hz (R195). -/
def nearFold (rate f : Nat) : Bool :=
  (List.range 8).any fun m =>
    let h := (m + 1) * 250000 % (rate * 10)
    -- frequencies |h - k x rate| for every integer k; the tone is below rate, so k from -1 to 2 covers it
    (List.range 4).any fun (k : Nat) =>
      let d := ((h : Int) - ((k : Int) - 1) * (rate : Int) * 10).natAbs
      d != 0 && decide (((d : Int) - (f : Int)).natAbs < 10)

/-- Survey parameters of a commit (R195): rate, count, the three tones in 0.1 Hz, settle in ms and arm_lead. -/
def surveyParOk (ps : List (ParamKey × Int)) : Bool :=
  let g (p : PName) (i : Nat) : Nat := (paramIn ps { p := p, i := i }).toNat
  let rate := g .impRate 0
  let count := g .impCount 0
  let tones := (List.range 3).map (g .impTone)
  decide (count ≤ 32000) && decide (count ≤ 4 * rate) &&
  (tones.all fun f => f != 0 && decide (2 * f < 10 * rate) && f * count % (10 * rate) == 0 && !nearFold rate f) &&
  tones.eraseDups.length == 3 && decide (g .impSettle 0 + 100 ≤ g .impArmLead 0 * 10)

/-! Start of an impedance survey (R205). -/

/-- The compensation set: siblings with positive and negative contactors closed (R198). -/
def compSet (s : State) (n : Nat) : List Nat := (List.range 4).filter fun j => j != n && s.parBit .regStrings j && stringClosed s j

/-- What an impedance survey takes off the limits of string n that are to be in force from the next frame boundary, A: 3 x imp.amp from its BURST_ARM until its envelope reaches 0 (R274). -/
def surveyRoom (s : State) (n : Nat) : Rat :=
  let at_ := s.frameStart + frameNs
  let of (v : ImpSurvey) (down : Nat) : Rat := if (v.string == n || v.comp.contains n) && decide (at_ < down + v.ramp * 1000000) then 3 * (v.amp : Rat) / 100 else 0
  let a := match s.surv.imp with | some v => if v.frameA.isSome then of v v.tEnd else 0 | none => 0
  let b := match s.surv.fade with | some (v, t, _) => of v t | none => 0
  if a < b then b else a

/-- Current limit in force in the direction of the reference, the rating included (R236), before what a survey takes off it (R274); the lower of the two at a reference of 0 (log 14). -/
def limitAlong (s : State) (n : Nat) : Rat :=
  let r := s.reg.act.refs.getD n 0
  let (c, d) := s.reg.act.whole.getD n (0, 0)
  min (((s.parN .regIRating : Rat)) / 10) (if 0 < r then c else if r < 0 then d else min c d)

/-- Reason of Table 7-1 for which an impedance survey of string n is refused, 0 for none. -/
def impReason (s : State) (n : Nat) : Nat :=
  if s.surv.imp.isSome then 1
  else if (match s.surv.cap with | some c => c.string == n | none => false) then 2
  else if !stringClosed s n then 3
  else if !s.modeIn .impModes then 4
  else if (compSet s n).isEmpty && !s.parB .impUncomp then 5
  else if limitAlong s n < ratAbs (s.reg.act.refs.getD n 0) + 3 * (s.parN .impAmp : Rat) / 100 then 6
  else 0

/-- Start impedance survey (R205), for an owner (R25); a rest window ends with an Engineer's survey command (R278). -/
def cmdStartImp (o : Owner) (n : Nat) (s : State) : CmdOut :=
  let k := impReason s n
  if k != 0 then refuse 0x3020 (evArg k n) s
  else
    let v : ImpSurvey :=
      { string := n, st := 1, frameA := none, t0 := 0, tEnd := 0, tag := none, took := [], comp := compSet s n, volts := [], amp := s.parN .impAmp
        ramp := s.parN .impRamp, settle := s.parN .impSettle, rate := s.parN .impRate, count := s.parN .impCount
        tones := (List.range 3).map fun i => s.parN .impTone i
        calRest := decide (100 * s.parN .impTempCalRest ≤ (s.asSeen.estr n).rest), samplesA := [], samplesB := [], curOk := true, uncomp := s.parB .impUncomp, spread := s.par .impTempCalSpread, useB := none, bins := none, ends := []
        ther := [], badCells := [], modes := s.parN .impModes, why := o }
    accept (s.modSurv fun u => { u with imp := some v })

/-- BURST_ARM (R12, R196): the command to target 63 is queued; its start frame is set by the beacon that carries it first. -/
def execBurstArm (t : Nat) (s : State) : Host.Outcome State Fault Refusal :=
  let s := s.at_ t
  match s.surv.imp with
  | none => .next s
  | some v =>
    if !s.running || p3Held s || v.tag.isSome then .next s
    else
      let s1 := queueCmd v.string 0x03 63 [0, 50000000 / v.rate, v.rate, v.count] s
      .next (s1.modSurv fun u => { u with imp := some { v with tag := some s1.tagCtr } })

/-- BURST_CURRENT_SAMPLE (R200): the values of channels A and B at a burst sample instant. -/
def execBurstCurrentSample (t : Nat) (a b : Density) (s : State) : Host.Outcome State Fault Refusal :=
  let s := s.at_ t
  match s.surv.imp with
  | none => .next s
  | some v =>
    if s.running && v.frameA.isSome && decide (v.t0 ≤ t) && decide (t ≤ v.tEnd) && decide (v.samplesA.length < v.count) then
      let x (c : Nat) (d : Density) : Nat := (channelVal s c d).getD f32.nan
      .next (s.modSurv fun u => { u with imp := some { v with
        st := 3, samplesA := v.samplesA ++ [x (4 * v.string) a], samplesB := v.samplesB ++ [x (4 * v.string + 1) b]
        useB := if v.samplesA.length + 1 == v.count then some ((s.estr v.string).inUse == 1) else none } })
    else .next s

/-! Abort (R206). -/

/-- A change of the survey terms of the strings that carry them is recorded with its owner (R25). -/
def noteSurvey (v : ImpSurvey) (s : State) : State := forEach (v.string :: v.comp) (fun n s => s.because (.current n) v.why) s

/-- Ends the impedance survey with a cause: bullets of R206 in order, 1 to 6 (log 14). A BURST_ARM that no beacon has carried is dropped. -/
def abortImp (cause : Nat) (s : State) : State :=
  match s.surv.imp with
  | none => s
  | some v =>
    let n := v.string
    let js := (List.range 36).map (brickInst n)
    let s1 := forEach (js.filter fun j => (s.forg j).ups.any (·.object == 1)) (fun j s =>
      queueCmd n 0x0B (j % 36) [1] (s.updForg j fun f => { f with ups := f.ups.filter (·.object != 1) })) s
    let s2 := (forEach js (fun j s => s.updForg j fun f => { f with burstRes := none }) s1).updLink n fun l => { l with
      cmds := l.cmds.filter fun c => !(c.id == 0x03 && c.tries == 0) }
    let s3 := s2.modSurv fun u => { u with imp := none, table := none, fade := if v.frameA.isSome then some (v, s.time.now, envelope v s.time.now) else u.fade }
    let s4 := noteSurvey { v with why := if cause == 3 then .command else .reaction } s3
    writeLearned n 1 (s4.raise 0x3022 (evArg cause n))

/-- A burst result of the survey is still missing after cell.burst.timeout frames (R138, R203). -/
def burstLate (s : State) (v : ImpSurvey) : Bool := v.frameA.isSome && decide (v.tEnd / frameNs + s.parN .cellBurstTimeout < s.time.frame)

/-- The burst result of a brick that took part, where it came within cell.burst.timeout frames of t_end (R203). -/
def resultOf (s : State) (v : ImpSurvey) (b : Nat) : Option (List Byte) :=
  let f := s.forg (brickInst v.string b)
  match f.burstAt with
  | some g => if v.took.contains b && g ≤ v.tEnd / frameNs + s.parN .cellBurstTimeout then f.burstRes else none
  | none => none

/-- The cause for which the survey that runs is to be aborted now, 0 for none (R206). -/
def impAbortCause (s : State) (v : ImpSurvey) : Nat :=
  if !stringClosed s v.string || !gateEn s v.string then 1
  else if !bit v.modes (modeCode s.boot.mode) then 2
  else if burstLate s v && ((List.range 36).all fun b => (resultOf s v b).isNone) then 6
  else 0

/-- IMPEDANCE_SURVEY_ABORT (R206): the survey ends where a condition of it holds. -/
def execImpedanceSurveyAbort (t : Nat) (s : State) : Host.Outcome State Fault Refusal :=
  let s := s.at_ t
  match s.surv.imp with
  | none => .next s
  | some v => if s.running && impAbortCause s v != 0 then .next (abortImp (impAbortCause s v) s) else .next s

/-- Abort impedance survey by command (R206). -/
def cmdAbortImp (s : State) : CmdOut := accept (abortImp 3 s)

/-- BURST_RESULT_TIMEOUT (R138): no result has arrived within cell.burst.timeout frames of the last sample of the burst that the forager took, whether or not its survey still runs. A result that its uplinks show waiting stays shown. -/
def execBurstResultTimeout (t : Nat) (n : Fin 4) (b : Fin 36) (s : State) : Host.Outcome State Fault Refusal :=
  let s := s.at_ t
  match (s.forg (brickInst n.val b.val)).burstEnd with
  | none => .next s
  | some e =>
    if s.running && decide (e / frameNs + s.parN .cellBurstTimeout < s.time.frame)
    then .next ((s.updForg (brickInst n.val b.val) fun f => { f with burst := if f.burst == 3 then 3 else 0, burstEnd := none }).raise 0x100B (brickInst n.val b.val)) else .next s

/-! Bins (R137, R200, R201). -/

/-- A value held in binary64. -/
def inF64 (q : Rat) : Rat := f64.rat (f64.ofRat false q)

/-- The bin of a tone over the samples (R137); sums are kept exact and the result is held in binary64 (log 14). -/
def binOf (xs : List Nat) (rate tone : Nat) : Rat × Rat :=
  let n : Rat := ((xs.length : Nat) : Rat)
  let turn (k : Nat) : Rat := (tone : Rat) / 10 * (k : Rat) / (rate : Rat)
  let re := ((xs.mapIdx fun k x => f32.rat x * cosTurn (turn k)).foldl (· + ·) 0)
  let im := ((xs.mapIdx fun k x => f32.rat x * sinTurn (turn k)).foldl (· + ·) 0)
  if xs.isEmpty then (0, 0) else (inF64 (2 / n * re), inF64 (-(2 / n * im)))

/-- Mean of samples. -/
def sampleMean (xs : List Nat) : Rat := meanOf (xs.map fun (x : Nat) => f32.rat x)

/-- |x| > k |y| for complex x and y, k not negative. -/
def absAbove (x : Rat × Rat) (k : Rat) (y : Rat × Rat) : Bool := decide (k * k * (y.1 * y.1 + y.2 * y.2) < x.1 * x.1 + x.2 * x.2)

/-- SURVEY_BINS (R200, R201): the current bins after t_end, and the checks of the current. -/
def execSurveyBins (t : Nat) (s : State) : Host.Outcome State Fault Refusal :=
  let s := s.at_ t
  match s.surv.imp with
  | none => .next s
  | some v =>
    if !s.running || p3Held s || v.frameA.isNone || decide (s.time.now < v.tEnd) || v.bins.isSome then .next s
    else
      let xa := v.tones.map (binOf v.samplesA v.rate)
      let xb := v.tones.map (binOf v.samplesB v.rate)
      let useB := v.useB.getD ((s.estr v.string).inUse == 1)
      let xi := if useB then xb else xa
      let use := if useB then v.samplesB else v.samplesA
      let agree : Rat := (s.parN .impIAgree : Rat) / 1000
      let apart := (List.range 3).any fun k =>
        let a := xa.getD k (0, 0)
        let b := xb.getD k (0, 0)
        absAbove (a.1 - b.1, a.2 - b.2) agree (xi.getD k (0, 0))
      let half := v.rate / 2
      let drift := ratAbs (sampleMean (use.take half) - sampleMean (use.drop (use.length - half)))
      if !v.curOk || apart || decide ((s.parN .impIDrift : Rat) / 100 < drift) then .next (abortImp 5 s)
      else .next (s.modSurv fun u => { u with imp := some { v with bins := some xi, st := 4 } })

/-! Results (R202 to R204, R210 to R213). -/

/-- A binary32 value of a burst result, little-endian (Table 5-3). -/
def burstF32 (bs : List Byte) (off : Nat) : Rat := f32.rat ((bs.drop off).take 4 |>.foldr (fun (b : Byte) (a : Nat) => b.toNat + 256 * a) 0)

def cMul (x y : Rat × Rat) : Rat × Rat := (x.1 * y.1 - x.2 * y.2, x.1 * y.2 + x.2 * y.1)

/-- Quotient of complex numbers; the spec states none for a divisor of 0 (log 3). -/
def cDiv (x y : Rat × Rat) : Rat × Rat :=
  let d := y.1 * y.1 + y.2 * y.2
  if d == 0 then (Config.openRat 8 x.1, Config.openRat 8 x.2) else ((x.1 * y.1 + x.2 * y.2) / d, (x.2 * y.1 - x.1 * y.2) / d)

/-- Z of a cell and tone (R202): X_c / X_i x exp(j 2 pi f delay). -/
def impedanceOf (delay : Int) (tone : Nat) (xc xi : Rat × Rat) : Rat × Rat :=
  let turn : Rat := (tone : Rat) / 10 * (delay : Rat) / 1000000000
  cMul (cDiv xc xi) (cosTurn turn, sinTurn turn)

/-- The resistance ratio h in 0.1 % (R213); none stated for a first resistance of 0 (log 3). -/
def ratioH (rRef rFirst : Rat) : Rat := if rFirst == 0 then Config.openRat 9 rRef else 1000 * rRef / rFirst

/-- Trend after an update of R_ref (R213). -/
def trendStep (trend hOld hNew : Rat) (secs : Nat) : Rat :=
  if secs < 3600 then trend else trend + ((10 * (hNew - hOld) * 1000 / ((secs : Rat) / 3600)) - trend) / 4

/-- Internal temperature in degC (R212). -/
def internalT (tHi r rHi beta : Rat) : Rat :=
  let x := 1 / (tHi + 27315 / 100) + lnOf (if rHi == 0 then Config.openRat 9 r else r / rHi) / beta
  (if x == 0 then Config.openRat 10 tHi else 1 / x) - 27315 / 100

/-- The row of one measured cell at position p (R202, R210 to R213). -/
def impRow (s : State) (v : ImpSurvey) (xi : List (Rat × Rat)) (bs : List Byte) (p : Nat) : ImpRow :=
  let c := s.cell (576 * v.string + p)
  let z := (List.range 3).map fun k =>
    let o := 24 * (p % 16) + 8 * k
    impedanceOf (s.par .impDelay) (v.tones.getD k 0) (burstF32 bs o, burstF32 bs (o + 4)) (xi.getD k (0, 0))
  let e := v.ends.getD p (1250, 0)
  let f := match s.boot.run.rf with | some f => rFactorAt f e.1 e.2 | none => Config.openRat 2 e.1
  let rm := (z.getD (s.parN .impRTone) (0, 0)).1 * 1000000000 / f
  let rej := c.rValid && (decide (rm < c.rRef / 4) || decide (4 * c.rRef < rm))
  let ref := if !c.rValid then rm else if rej then c.rRef else c.rRef + (s.parN .impRWeight : Rat) / 1000 * (rm - c.rRef)
  let first := if c.rValid then c.rFirst else rm
  let rt := (z.getD (s.parN .impTempTone) (0, 0)).1 * 1000000000
  let cal := if v.calRest then v.ther.getD (p / 16) none else none
  let rHi := if cal.isSome then rt else c.rHi
  let tHi := cal.getD c.tHi
  let tv := cal.isSome || c.tValid
  { cell := 576 * v.string + p, z := z, rRef := ref, rFirst := first, rejected := rej, rValid := true, rHi := rHi, tHi := tHi, tValid := tv
    tInt := if tv then some (internalT tHi rt rHi (s.parN .impTempBeta : Rat)) else none
    rTime := if rej then c.rTime else s.recorder.ops, impN := if rej then c.impN else min 255 (c.impN + 1)
    trend := if rej || !c.rValid then c.trend else trendStep c.trend (ratioH c.rRef c.rFirst) (ratioH ref c.rFirst) (s.recorder.ops - c.rTime) }

/-- IMPEDANCE_RESULT (R202 to R204, R210 to R213): with every result in, or with those that came in time, the Hive writes the shadow of the impedance table; it swaps at the next frame boundary. -/
def execImpedanceResult (t : Nat) (s : State) : Host.Outcome State Fault Refusal :=
  let s := s.at_ t
  match s.surv.imp with
  | none => .next s
  | some v =>
    match v.bins with
    | none => .next s
    | some xi =>
      let got := (List.range 36).filter fun b => (resultOf s v b).isSome
      let all := v.took.all got.contains
      if !s.running || p3Held s || got.isEmpty || !(all || burstLate s v) || s.surv.table.isSome then .next s
      else
        let rows := got.flatMap fun b => match resultOf s v b with
          | some bs => ((List.range 16).map (16 * b + ·)).filterMap fun p => if v.badCells.contains p || cellCount s v.string ≤ p then none else some (impRow s v xi bs p)
          | none => []
        .next (s.modSurv fun u => { u with imp := some { v with st := 5 }, table := some { string := v.string, frame := v.tEnd / frameNs, rows := rows } })

/-- Events of a cell's health (R213): resistance ratio and capacity ratio. -/
def healthEvents (cells : List Nat) (s : State) : State :=
  forEach cells (fun i s =>
    let c := s.cell i
    let high := c.rValid && decide ((s.parN .impHealthWarn : Rat) ≤ ratioH c.rRef c.rFirst)
    s.stand 0x3025 i high) s

/-- The impedance table swaps in at a frame boundary, and the survey is complete (R204). -/
def impTableSwap (s : State) : State :=
  match s.surv.table, s.surv.imp with
  | some tb, some v =>
    let s1 := forEach tb.rows (fun r s => s.updCell r.cell fun c => { c with
      z := some (r.z, tb.frame), tInt := match r.tInt with | some x => some (x, tb.frame) | none => c.tInt
      rRef := r.rRef, rFirst := r.rFirst, rAt := if r.rejected then c.rAt else some tb.frame, rHi := r.rHi, tHi := r.tHi, rTime := r.rTime, trend := r.trend, impN := r.impN, rValid := r.rValid, tValid := r.tValid }) s
    let s2 := forEach (tb.rows.filter (·.rejected)) (fun r s => s.raise 0x3023 r.cell) s1
    let cal := v.calRest && tb.rows.any fun r => (v.ther.getD (r.cell % 576 / 16) none).isSome
    let s3 := if cal then s2.raise 0x302F tb.string else s2
    let s4 := healthEvents (tb.rows.map (·.cell)) s3
    let s5 := s4.modSurv fun u => { u with
      table := none, imp := none, fade := some (v, v.tEnd, 1)
      impLast := updAt u.impLast tb.string fun _ => some (tb.frame, s.time.now), impCells := updAt u.impCells tb.string fun _ => tb.rows.length }
    writeAfter tb.string 1 (s5.modSurv fun u => { u with done := some tb.string })
  | _, _ => s

/-- A survey whose results the Comb frame g publishes for the first time is complete (R204, R229). -/
def surveyDone (g : Nat) (s : State) : State :=
  match s.surv.done with
  | some n => if (s.estr n).frame == some g then (s.modSurv fun u => { u with done := none }).raise 0x3021 n else s
  | none => s

/-- A burst that its forager has taken is under way from its first sample on (Table 5-10). -/
def burstBegun (now : Nat) (f : Forager) : Forager :=
  if f.burst == 1 && (match f.holdOff with | some (a, _) => decide (a + 100000 ≤ now) | none => false) then { f with burst := 2 } else f

/-! Frame work. -/

/-- The survey at a frame boundary: swap of the table, a sibling that left the compensation set (R199), the state by time, and a capacity survey handed back (Table 7-4). -/
def surveyFrame (s : State) : State :=
  let s0 := (impTableSwap s).modForgs fun fs => fs.map (burstBegun s.frameStart)
  let s1 := s0.modSurv fun u => { u with cap := match u.cap with | some c => if c.phase == 4 then none else some c | none => none }
  let above := match s1.surv.fade with | some (v, t, _) => decide (t + v.ramp * 1000000 ≤ s1.frameStart) | none => false
  let s2 := if above then s1.modSurv fun u => { u with fade := none }
    else s1.modSurv fun u => { u with fade := u.fade.map fun x => ({ x.1 with comp := x.1.comp.filter (stringClosed s1) }, x.2) }
  match s2.surv.imp with
  | none => s2
  | some v =>
    let comp := v.comp.filter (stringClosed s2)
    if comp.isEmpty && !v.uncomp then abortImp 4 s2
    else
      let now := s2.frameStart
      let st := if v.frameA.isNone || v.st == 5 then v.st else if v.tEnd < now then 4 else if v.t0 ≤ now then 3 else if v.t0 ≤ now + v.settle * 1000000 then 2 else 1
      let s3 := s2.modSurv fun u => { u with imp := some { v with comp := comp, st := st } }
      if st == 2 && v.st != 2 then noteSurvey v s3 else if comp != v.comp && decide (2 ≤ st) then noteSurvey { v with why := .reaction } s3 else s3

/-- Mean in degC of the Good thermistors of a brick in Comb frame g, where at least two are Good and they differ by no more than imp.temp.cal_spread (R211). -/
def calMean (s : State) (spread : Int) (g j : Nat) : Option Rat :=
  let f := s.forg j
  let ts := (List.range 4).filterMap fun k =>
    if sensorDisabled s j k then none
    else
      let it := inputItem f k g {}
      if it.q == .good then some it.val else none
  match ts with
  | a :: b :: l =>
    let lo := (b :: l).foldl min a
    let hi := (b :: l).foldl max a
    if hi - lo ≤ spread then some (meanOf (ts.map fun (x : Int) => (x : Rat)) / 10) else none
  | _ => none

/-- What a survey keeps of the Comb frame g at its publication: cells that do not qualify (R203), and the values of the frame of t_end (R210, R211). -/
def surveyWatch (g : Nat) (s : State) : State :=
  match s.surv.imp with
  | none => s
  | some v =>
    let n := v.string
    let s' := s.asSeen
    if v.frameA.isNone || decide (g < v.t0 / frameNs) || decide (v.tEnd / frameNs < g) then s
    else
      let cells := stringCells s' n
      let ps := List.range cells.length
      let bad := ps.filter fun p =>
        let c := cells.getD p {}
        !(c.v.q == .good || c.v.q == .held) || cellOw (s'.forg (brickInst n (p / 16))) (p % 16) != 0
      let last := g == v.tEnd / frameNs
      s.modSurv fun u => { u with imp := some { v with
        badCells := (v.badCells ++ bad).eraseDups
        ends := if last then ps.map fun p => (cellT s' n p, socOf (cells.getD p {})) else v.ends
        ther := if last then (List.range 36).map fun b => calMean s' v.spread g (brickInst n b) else v.ther } }

/-! Capacity survey (R214 to R216). -/

/-- Reason of R216 for which a capacity survey of string n is refused, 0 for none; one that runs on the string itself counts as reason 1 (log 14). -/
def capReason (s : State) (n : Nat) : Nat :=
  if s.surv.cap.isSome then 1
  else if (match s.surv.imp with | some v => v.string == n | none => false) then 2
  else if !stringClosed s n then 3
  else if !s.modeIn .estCapModes then 4
  else if !s.parB .estAnchorLoad then 5
  else 0

/-- Start capacity survey (R214, R216), for an owner (R25); Charge is skipped after a full anchor within the last 2 h. -/
def cmdStartCap (o : Owner) (n : Nat) (s : State) : CmdOut :=
  let k := capReason s n
  if k != 0 then refuse 0x3026 (evArg k n) s
  else
    let full := match (s.estr n).fullAt with | some t => if s.time.now ≤ t + 7200000000000 then some t else none | none => none
    let v : CapSurvey :=
      { string := n, phase := if full.isSome then 2 else 1, startT := s.time.now, fullAt := full, disAt := none
        ref := if full.isSome then 0 else (s.parN .estCapChargeRate : Rat) / 1000 * oneC s, flowing := false, why := o
        par := { chargeRate := s.parN .estCapChargeRate, rate := s.parN .estCapRate, chargeTmax := s.parN .estCapChargeTmax, disTmax := s.parN .estCapDisTmax
                 tMin := s.par .estCapTMin, tMax := s.par .estCapTMax, spanMin := s.parN .estCapSpanMin, modes := s.parN .estCapModes } }
    let s1 := s.modSurv fun u => { u with cap := some v }
    accept (match (s.estr n).regime with
      | .countRecovery => s1
      | _ => setRegime n .countSurvey s1)

/-- The condition of Table 7-5 that fails now, 0 for none. -/
def capAbortCause (s : State) (v : CapSurvey) : Nat :=
  let e := s.estr v.string
  let c := oneC s
  if v.phase == 1 && decide (v.startT + v.par.chargeTmax * 60000000000 < s.time.now) then 1
  else if v.phase == 2 && decide ((v.fullAt.getD s.time.now) + 7200000000000 < s.time.now) then 2
  else if (v.phase == 2 || v.phase == 3) && decide (2 ≤ e.gapRun) then 3
  else if v.phase == 3 && (decide (e.mean < -c) || (v.flowing && decide (-(c / 20) < e.mean))) then 4
  else if v.phase == 3 && decide ((v.disAt.getD s.time.now) + v.par.disTmax * 60000000000 < s.time.now) then 5
  else if !stringClosed s v.string || !bit v.par.modes (modeCode s.boot.mode) || s.boot.mode == .lockout then 6
  else 0

/-- Ends the capacity survey without a capacity update (R215). -/
def abortCap (cause : Nat) (s : State) : State :=
  match s.surv.cap with
  | none => s
  | some v =>
    if v.phase == 4 then s
    else writeLearned v.string 1 (stopCap cause v s)

/-- CAPACITY_SURVEY_ABORT (R215): the survey ends where a condition of Table 7-5 fails. -/
def execCapacitySurveyAbort (t : Nat) (s : State) : Host.Outcome State Fault Refusal :=
  let s := s.at_ t
  match s.surv.cap with
  | none => .next s
  | some v => if s.running && capAbortCause s v != 0 then .next (abortCap (capAbortCause s v) s) else .next s

/-- Abort capacity survey by command (R215, cause 7). -/
def cmdAbortCap (s : State) : CmdOut := accept (abortCap 7 s)

/-- Write learned values by command (R222): the strings of a bit map. -/
def cmdWriteLearned (strings : Nat) (s : State) : CmdOut := accept (forEach ((List.range 4).filter fun n => bit strings n && linkOn s n) (fun n s => writeLearned n 4 s) s)

end Sys2Proof.Machine
end

