-- ==== Sys2Proof/Machine/Connect.lean ====
section
/-!
DEFINITION. Connect: the contactor sequences that connect and disconnect a string (R282 to R288, R612).
-/
namespace Sys2Proof.Machine

/-- Requests for POS, NEG and PRE set, and the outputs of the stage formed again; the change is recorded with its owner (R25). -/
def reqCtr (n : Nat) (f : DispStr → DispStr) (s : State) : State := (stage n (s.updDisp n f)).because (.contactor n) (s.dstr n).why

/-- All three feedbacks of string n show open. -/
def allOpen (s : State) (n : Nat) : Bool := !cfbClosed s n 0 && !cfbClosed s n 1 && !cfbClosed s n 2

/-- The state returns to open, which clears event 0x4029 (Table 9-9). -/
def setOpen (n : Nat) (s : State) : State := (s.updDisp n fun d => { d with conn := 0, opening := 0, failing := false, seenAt := none }).clear 0x4029 n

/-- A feedback failure (R284, R287, R612). -/
def fbFail (n : Nat) (s : State) : State := s.raise 0x4029 n

/-- Parameters that a sequence beginning now runs with (Table 9-7). -/
def seqNow (s : State) : SeqPar :=
  { tFb := s.parN .dispCtrTFb, preDv := s.parN .dispPreDv, preTmax := s.parN .dispPreTmax, preOverlap := s.parN .dispPreOverlap, discI := s.parN .dispDiscI, discTmax := s.parN .dispDiscTmax }

/-- disp.ctr.t_fb has passed since the last request of string n. -/
def fbOver (s : State) (n : Nat) : Bool := decide ((s.dstr n).reqAt + (s.dstr n).seq.tFb * 1000000 ≤ s.time.now)

/-! Commands. -/

/-- Reason of R282 for which a connection is refused, 0 for none. -/
def connectReason (s : State) (n : Nat) : Nat :=
  let d := s.dstr n
  let m := s.boot.mode
  let vb := (s.asSeen.loop n).pub.vb
  if !(m == .commission || m == .operate || m == .service) then 1
  else if !s.parBit .regStrings n then 2
  else if d.conn != 0 || d.wantConn then 3
  else if !allOpen s n then 4
  else if !permits s n then 5
  else if !(match vb with | some v => decide ((s.parN .regVbusMin : Rat) ≤ v) && decide (v ≤ (s.parN .regVbusMax : Rat)) | none => false) then 6
  else 0

/-- A connection (R282), ordered by an owner: the sequence begins at the next frame boundary. -/
def orderConnect (o : Owner) (n : Nat) (s : State) : CmdOut :=
  let k := connectReason s n
  if k != 0 then refuse 0x402C (evArg k n) s else accept (s.updDisp n fun d => { d with wantConn := true, why := o })

/-- Connect string (R282). -/
def cmdConnect (n : Nat) (s : State) : CmdOut := orderConnect .command n s

/-- Disconnect string (R284, R286, R287): it ends a connection under way, or begins a disconnection, at the next frame boundary. -/
def cmdDisconnect (n : Nat) (s : State) : CmdOut :=
  let d := s.dstr n
  if d.wantConn then accept (s.updDisp n fun d => { d with wantConn := false })
  else if 1 ≤ d.conn && d.conn ≤ 5 then accept (s.updDisp n fun d => { d with wantDisc := true, why := .command }) else accept s

/-- Clear failed connection (R284). -/
def cmdClearFailed (n : Nat) (s : State) : CmdOut :=
  if (s.dstr n).conn != 7 then refuse 0x402F (evArg 1 n) s
  else if !allOpen s n then refuse 0x402F (evArg 2 n) s
  else accept (setOpen n (reqCtr n (fun d => { d with reqPos := false, reqNeg := false, reqPre := false }) s))

/-- Connection of every string of disp.connect.auto that is not connected, at entry to Operate (R282). -/
def autoConnect (s : State) : State :=
  forEach ((List.range 4).filter fun n => s.parBit .dispConnectAuto n && (s.dstr n).conn != 5) (fun n s => (orderConnect .reaction n s).1) s

/-- CONNECT_STRING (R282). -/
def execConnectString (t : Nat) (n : Fin 4) (s : State) : Host.Outcome State Fault Refusal :=
  let s := s.at_ t
  if s.running then .next (cmdConnect n.val s).1 else .next s

/-- DISCONNECT_STRING (R286). -/
def execDisconnectString (t : Nat) (n : Fin 4) (s : State) : Host.Outcome State Fault Refusal :=
  let s := s.at_ t
  if s.running then .next (cmdDisconnect n.val s).1 else .next s

/-- CLEAR_FAILED_CONNECTION (R284). -/
def execClearFailedConnection (t : Nat) (n : Fin 4) (s : State) : Host.Outcome State Fault Refusal :=
  let s := s.at_ t
  if s.running then .next (cmdClearFailed n.val s).1 else .next s

/-! Feedback seen. -/

/-- The time at which the feedback that a connection step waits for is first seen (Table 9-5). -/
def noteFeedback (n : Nat) (s : State) : State :=
  s.updDisp n fun d =>
    if d.seenAt.isNone && ((d.conn == 2 && cfbClosed s n 2) || (d.conn == 3 && cfbClosed s n 0)) then { d with seenAt := some s.time.now } else d

/-- |V_s - V_c| is at or below disp.pre.dv at the boundary (Table 9-5): by the measurements of the last tick, since Table 9-6 requests CTRn_POS closed 1 ms after the difference has fallen. -/
def prechargeOk (s : State) (n : Nat) : Bool :=
  match (s.loop n).vs, (s.loop n).vc with
  | some a, some b => decide (ratAbs (a - b) ≤ ((s.dstr n).seq.preDv : Rat))
  | _, _ => false

/-! Failure and timeouts. -/

/-- A connection fails (R284): state failed, contactors requested open from the next frame boundary. -/
def failConnection (code n : Nat) (s : State) : State :=
  (s.raise code n).updDisp n fun d => { d with conn := 7, opening := 1, failing := true, seenAt := none, why := .reaction }

/-- The contactor that the sequence of string n has requested open and that still shows closed. -/
def openPending (s : State) (n : Nat) : Bool :=
  match (s.dstr n).opening with
  | 2 => cfbClosed s n 2
  | 3 => cfbClosed s n 0
  | 9 => cfbClosed s n 1
  | 6 => cfbClosed s n 0
  | 7 => cfbClosed s n 1
  | 8 => !allOpen s n
  | _ => false

/-- CONNECTION_TIMEOUT (R283, R284, R287, R612): a contactor that has not shown its state within disp.ctr.t_fb, or a precharge that has not ended within disp.pre.tmax. -/
def execConnectionTimeout (t : Nat) (n : Fin 4) (s : State) : Host.Outcome State Fault Refusal :=
  let s := s.at_ t
  let k := n.val
  let d := s.dstr k
  if !s.running then .next s
  else if d.conn == 1 then .next (if !cfbClosed s k 1 && fbOver s k then failConnection 0x4029 k s else s)
  else if d.conn == 2 then
    match d.seenAt with
    | none => .next (if fbOver s k then failConnection 0x4029 k s else s)
    | some a => .next (if a + d.seq.preTmax * 1000000 ≤ s.time.now && !prechargeOk s k then failConnection 0x4028 k s else s)
  else if d.conn == 3 then .next (if d.seenAt.isNone && fbOver s k then failConnection 0x4029 k s else s)
  else if d.conn == 4 then .next (if cfbClosed s k 2 && fbOver s k then failConnection 0x4029 k s else s)
  else if d.conn == 6 && openPending s k && fbOver s k then
    -- a cancelled connection goes on with its order; a disconnection requests no further contactor open
    if d.opening == 2 || d.opening == 3 || d.opening == 9 then .next (fbFail k (s.updDisp k fun d => { d with conn := 7, failing := true }))
    else .next (fbFail k (s.updDisp k fun d => { d with conn := 7, opening := 0, failing := true }))
  else .next s

/-- DISCONNECTION_TMAX (R287): the loop goes Off at current. -/
def execDisconnectionTmax (t : Nat) (n : Fin 4) (s : State) : Host.Outcome State Fault Refusal :=
  let s := s.at_ t
  let d := s.dstr n.val
  if s.running && d.conn == 6 && d.opening == 4 && decide (d.discAt + d.seq.discTmax * 1000000 ≤ s.time.now)
  then .next ((s.updDisp n.val fun d => { d with opening := 5 }).raise 0x402B n.val) else .next s

/-! Steps at a frame boundary. -/

/-- A disconnection begins (R287). -/
def beginDisconnect (n : Nat) (s : State) : State :=
  let p := seqNow s
  s.updDisp n fun d => if d.conn == 5 then { d with conn := 6, opening := 4, failing := false, discAt := s.time.now, wantDisc := false, seq := p } else { d with wantDisc := false }

/-- Every connected string is disconnected, at entry to Standby (R285) or for an activation (R549). -/
def disconnectAll (s : State) : State := forEach (List.range 4) (fun n s => beginDisconnect n (s.updDisp n fun d => { d with why := .command })) s

/-- A permit is withdrawn (R287, R612): a sequence ends in failed, and its requests are withdrawn once the stage has released the outputs (log 15); a connected string withdraws its requests at once, and its feedbacks are waited for from the first frame boundary at which GATE_ENn reads back low. -/
def permitLoss (n : Nat) (s : State) : State :=
  if permits s n then s
  else
    let s := s.updDisp n fun d => { d with why := .safety }
    let d := s.dstr n
    let s1 := if (1 ≤ d.conn && d.conn ≤ 4) || (d.conn == 6 && d.opening != 8) then
      s.updDisp n fun d => { d with conn := 7, opening := 0, failing := true, wantConn := false, wantDisc := false, seenAt := none } else s
    let off := !(ctrOut s1 n 0 || ctrOut s1 n 1 || ctrOut s1 n 2)
    let held := (s1.dstr n).reqPos || (s1.dstr n).reqNeg || (s1.dstr n).reqPre
    if held && (off || d.conn == 5) then
      let low := match s1.guard.gateLowAt.getD n none with | some g => g | none => s1.time.now
      let p := seqNow s1
      reqCtr n (fun d =>
        let d1 := { d with reqPos := false, reqNeg := false, reqPre := false }
        if d.conn == 5 then { d1 with conn := 6, opening := 8, seq := p, wantDisc := false, reqAt := (low + frameNs - 1) / frameNs * frameNs } else d1) s1
    else s1

/-- A contactor that the opening sequence waits for has been open, or its time has passed. -/
def openOrOver (s : State) (n k : Nat) : Bool := !cfbClosed s n k || fbOver s n

/-- The step of string n at a frame boundary (R283, R284, R287, R612). -/
def connectStep (n : Nat) (s0 : State) : State :=
  let now := s0.frameStart
  let s := noteFeedback n (permitLoss n s0)
  let d := s.dstr n
  let ask (f : DispStr → DispStr) (s : State) : State := reqCtr n (fun d => { f d with reqAt := now, seenAt := none }) s
  if d.wantDisc && 1 ≤ d.conn && d.conn ≤ 4 then
    ask (fun d => { d with conn := 6, opening := 2, failing := false, wantDisc := false, reqPre := false }) s
  else if d.wantDisc then beginDisconnect n s
  else if d.conn == 0 then
    if d.wantConn then (let p := seqNow s; ask (fun d => { d with conn := 1, wantConn := false, reqNeg := true, seq := p }) s) else s
  else if d.conn == 1 then if cfbClosed s n 1 then ask (fun d => { d with conn := 2, reqPre := true }) s else s
  else if d.conn == 2 then if d.seenAt.isSome && prechargeOk s n then ask (fun d => { d with conn := 3, reqPos := true }) s else s
  else if d.conn == 3 then
    match d.seenAt with
    | some a => if a + d.seq.preOverlap * 1000000 ≤ now then ask (fun d => { d with conn := 4, reqPre := false }) s else s
    | none => s
  else if d.conn == 4 then
    if !cfbClosed s n 2 then s.updDisp n fun d => { d with conn := 5, seenAt := some now } else s
  else if d.conn == 5 then
    -- step 5 of Table 9-5 completes with the swap that marks the string enabled
    if d.seenAt.isSome && s.reg.act.enabled.getD n false
    then (s.updDisp n fun d => { d with seenAt := none }).raise 0x4027 n else s
  else
    -- a cancelled connection whose contactor has not shown open in time fails, and goes on with its order (R284)
    let slow := d.conn == 6 && (d.opening == 2 || d.opening == 3 || d.opening == 9) && openPending s n && fbOver s n
    let s := if slow then fbFail n (s.updDisp n fun d => { d with conn := 7, failing := true }) else s
    let d := s.dstr n
    match d.opening with
    | 1 => ask (fun d => { d with opening := 2, reqPre := false }) s
    | 2 => if openOrOver s n 2 then ask (fun d => { d with opening := 3, reqPos := false }) s else s
    | 3 => if openOrOver s n 0 then ask (fun d => { d with opening := 9, reqNeg := false }) s else s
    | 9 => if allOpen s n && !d.failing then setOpen n s else if openOrOver s n 1 && d.failing then s.updDisp n fun d => { d with opening := 0 } else s
    | 4 => if (s.loop n).lowAll && d.discAt + frameNs ≤ now then s.updDisp n fun d => { d with opening := 5 } else s
    | 5 => if !gateEn s n then ask (fun d => { d with opening := 6, reqPos := false }) s else s
    | 6 => if !cfbClosed s n 0 then ask (fun d => { d with opening := 7, reqNeg := false }) s else s
    | 7 => if !cfbClosed s n 0 && !cfbClosed s n 1 then (setOpen n s).raise 0x402A n else s
    | 8 => if allOpen s n then (setOpen n s).raise 0x402A n else s
    | _ => s

/-- The sequences of every string at a frame boundary; the frame of low current is judged anew. -/
def connectFrame (s : State) : State :=
  (forEach (List.range 4) connectStep s).modReg fun r => { r with loops := r.loops.map fun l => { l with lowAll := true } }

/-- Feedback that shows open while a connected string's contactor is requested closed (R288). -/
def cfbMismatch (s : State) (n : Nat) : Bool :=
  (s.dstr n).conn == 5 && permits s n && (((s.dstr n).reqPos && !cfbClosed s n 0) || ((s.dstr n).reqNeg && !cfbClosed s n 1) || ((s.dstr n).reqPre && !cfbClosed s n 2))

end Sys2Proof.Machine
end

