-- ==== Sys2Proof/Machine/Net.lean ====
section
/-!
DEFINITION. Net: below UDP (R385, R386): the duplicate discard of PRP, the IPv4 datagrams that are taken, the next hop of a peer and the
ARP cache, and the copies of a frame on the two LANs.
-/
namespace Sys2Proof.Machine

/-- EntryForgetTime of IEC 62439-3, ns: how long a frame's source and sequence number are remembered (PRESUMED, log 28). -/
def prpForget : Nat := 400000000

/-- A frame with a redundancy trailer is a later copy: one of its source and sequence number has come before it. -/
def laterCopy (t : Nat) (h : NetHead) (s : State) : Bool :=
  match h.prp with
  | some (mac, seq) => s.host.prpSeen.any fun e => e.1 == mac && e.2.1 == seq && decide (t < e.2.2 + prpForget)
  | none => false

/-- A frame received for the first time enters the duplicate discard; one with no trailer does not. -/
def noteFrame (t : Nat) (h : NetHead) (s : State) : State :=
  match h.prp with
  | some (mac, seq) => s.modHost fun x => { x with prpSeen := (mac, seq, t) :: x.prpSeen.filter fun e => decide (t < e.2.2 + prpForget) }
  | none => s

/-- An IPv4 datagram is taken: no options, no fragment, its destination the module's address. -/
def ipTaken (s : State) (h : NetHead) : Bool := !h.options && !h.fragment && h.dest == s.parN .hostIpAddr

/-- A UDP datagram is taken for a port: its checksum is right or 0. -/
def udpTaken (s : State) (port : Nat) (h : NetHead) : Bool := ipTaken s h && h.sum && h.port == port

/-- Next hop of an address: itself in the subnet, the gateway beyond it; with no gateway set, itself. -/
def nextHop (s : State) (addr : Nat) : Nat :=
  let m := s.parN .hostIpMask
  if addr &&& m == s.parN .hostIpAddr &&& m || s.parN .hostIpGw == 0 then addr else s.parN .hostIpGw

/-- Addresses that the cache holds on to: the gateway, and the next hops of open sessions. -/
def arpNeeded (s : State) : List Nat := s.parN .hostIpGw :: s.host.slots.filterMap fun o => o.map fun x => nextHop s x.addr

/-- An address enters the cache of 32; when it is full the oldest one that nothing needs leaves. -/
def arpEnter (a : Nat) (s : State) : State :=
  let keep := arpNeeded s
  s.modHost fun h =>
    let l := a :: h.arp.filter (· != a)
    { h with arp := (l.filter keep.contains ++ l.filter (!keep.contains ·)).take 32 }

/-- An address is resolved: one that the cache does not hold is asked for, and is known from then on (DESIGN CHOICE, log 28: no command brings the answer). -/
def resolveHop (a : Nat) (s : State) : State := if s.host.arp.contains a then s else (arpEnter a s).send (.arpQuery a)

/-- A frame on one LAN: who sends it and its redundancy sequence number. -/
structure LanFrame where
  lan : Nat
  mac : Nat
  seq : Nat
  frame : Output
  deriving DecidableEq, Repr

/-- Frames that go out on both LANs: every one but those of PTP, which has two ports, and supervision, whose frames are sent by LAN. -/
def onBothLans : Output → Bool
  | .fhp .. | .fslStatus .. | .arpReply _ | .arpQuery _ | .echoReply .. => true
  | _ => false

/-- What has left on the LANs whose ports are configured, oldest first (R385): each frame on both, under one sequence number. -/
def lanFrames (s : State) : List LanFrame :=
  let lans := [0, 1].filter fun p => !s.boot.ethOut.getD p false
  (s.out.reverse.filter onBothLans).mapIdx (fun k o => lans.map fun p => { lan := p, mac := s.boot.mac, seq := k % 65536, frame := o }) |>.flatten

end Sys2Proof.Machine
end

