-- ==== Sys2Proof/Machine/GuardDie.lean ====
section
/-!
DEFINITION. GuardDie: the Guard (R311 to R317, R321, R329, R331 to R335) and the output permit stage's own timing (R325 to R327).
-/
namespace Sys2Proof.Machine

/-- The Guard runs: VGUARD is present and POR_N is high (R321). -/
def guardUp (s : State) : Bool := s.pwr.vguard && s.boot.porN

/-- Events of the Guard are recorded while the main die runs. -/
def gRaise (code arg : Nat) (s : State) : State := if s.up then s.raise code arg else s

/-- Bit of a safety function in a cause bitmap (R322). -/
def sf (k : Nat) : BitVec 32 := BitVec.ofNat 32 (2 ^ (k - 1))
def sfIf (k : Nat) (on : Bool) : BitVec 32 := if on then sf k else 0

def gchan (s : State) (i : Nat) : GChan := s.guard.chans.getD i {}
def floop (s : State) (n : Nat) : FLoop := s.guard.floops.getD n {}
def anyB (l : List Bool) : Bool := l.any id

/-- An SF15 hazard at contactor i: output on with its feedback open throughout safe.fb.t. -/
def fbFault (s : State) (i : Nat) : Bool :=
  s.guard.ctr.getD i false && match s.guard.cfbDiff.getD i none with | some d => decide (d + (gpar s .safeFbT).toNat * 1000000 ≤ s.time.now) | none => false

/-- The time of SF16 has passed at contactor i: output off with its feedback closed throughout safe.weld.t. -/
def weldFault (s : State) (i : Nat) : Bool :=
  !s.guard.ctr.getD i false && s.guard.cfb.getD i false && match s.guard.cfbDiff.getD i none with | some d => decide (d + (gpar s .safeWeldT).toNat * 1000000 ≤ s.time.now) | none => false

/-- Hazards of string n present at the Guard (Table 11-3, R329). -/
def stringHazards (s : State) (n : Nat) : BitVec 32 :=
  if !guarded s n then 0
  else
    let a := gchan s (2 * n)
    let b := gchan s (2 * n + 1)
    sfIf 1 (decide (2 ≤ a.run) || decide (2 ≤ b.run)) ||| sfIf 2 (decide ((gpar s .safeIplausT).toNat ≤ s.guard.plausRun.getD n 0)) |||
    sfIf 3 (a.invalid || b.invalid) ||| sfIf 7 (floop s n).stop ||| sfIf 15 ((List.range 3).any fun k => fbFault s (3 * n + k)) |||
    sfIf 16 ((List.range 3).any fun k => !ctrOut s n k && cfbClosed s n k)

/-- Hazards of the group present at the Guard (Table 11-3). -/
def groupHazards (s : State) : BitVec 32 :=
  let g := s.guard
  let a := gchan s 8
  let b := gchan s 9
  sfIf 4 (decide (2 ≤ a.run) || decide (2 ≤ b.run)) ||| sfIf 5 (decide ((gpar s .safeVbusUvT).toNat ≤ g.uvRun)) |||
  sfIf 6 (a.invalid || b.invalid || decide (100 ≤ g.agreeRun)) ||| sfIf 8 (!(g.tripA && g.tripB)) ||| sfIf 9 g.tripDisc |||
  sfIf 16 ((List.range 4).any fun n => g.weld.getD (3 * n) false && g.weld.getD (3 * n + 1) false) |||
  sfIf 20 (!g.alive || g.scvBad) ||| sfIf 21 g.scvFail ||| sfIf 22 g.inFault

def guardHazards (s : State) : List (BitVec 32) := (List.range 4).map (stringHazards s) ++ [groupHazards s]

/-- The Guard latches a scope: the first latch time stands (log 16), and the sticky bits of the causes are set (R321). -/
def setGLatch (scope : Nat) (causes : BitVec 32) (s : State) : State :=
  s.modGuard fun g => { g with
    latch := updAt g.latch scope fun l => if l.on then l else { on := true, setAt := s.time.now }
    sticky := updAt g.sticky scope fun c => c ||| causes }

/-- Hazards whose time of detection has a command of its own (SF15, SF16). -/
def timedSf : BitVec 32 := sf 15 ||| sf 16

/-- The Guard judges its hazards: one that begins latches its scope once the scope has been granted since Start (R317, R321, R323), and a scope is granted when no hazard of it is present. -/
def guardEval (s : State) : State :=
  if !guardUp s then s
  else
    let h := guardHazards s
    let old := s.guard
    let rise (k : Nat) : BitVec 32 := h.getD k 0 &&& ~~~(old.hazards.getD k 0) &&& ~~~timedSf
    let s1 := forEach (List.range 5) (fun k s => if old.granted.getD k false && rise k != 0 then setGLatch k (rise k) s else s) s
    let grant (k : Nat) (b : Bool) : Bool :=
      b || (old.started && h.getD k 0 == 0 && (k == 4 || (guarded s k && decide (16 ≤ (floop s k).back))))
    stageAll (s1.modGuard fun g => { g with hazards := h, granted := g.granted.mapIdx grant })

/-- A Guard command with its state change, when the Guard runs. -/
def guardDo (t : Nat) (f : State → State) (s : State) : State := let s := s.at_ t; if guardUp s then guardEval (f s) else s

/-! Values (R312). -/

/-- Converter channel of Guard channel i. -/
def guardChannel (i : Nat) : Nat := [0, 1, 4, 5, 8, 9, 12, 13, 16, 17].getD i 0

/-- Calibrated value of a density at Guard channel i. -/
def guardCal (s : State) (i : Nat) (x : Rat) : Rat :=
  let c := guardChannel i
  f32.rat (gpar s .safeCalGain c).toNat * (x - f32.rat (gpar s .safeCalZero c).toNat)

/-- Since when a modulator clock has lain outside 19.0 to 21.0 MHz, after a measurement (R312); with VMAIN it stops (R327). -/
def clkOutside (s : State) (v : GuardDens) (c : GChan) : Option Nat :=
  if s.pwr.vmain && decide (19000000 ≤ v.clk.toNat) && decide (v.clk.toNat ≤ 21000000) then none else if c.clkOut.isSome then c.clkOut else some s.time.now

/-- A modulator clock has lain outside for 10 us (R312). -/
def clkBad (s : State) (v : GuardDens) (c : GChan) : Bool := match clkOutside s v c with | some a => decide (a + 10000 ≤ s.time.now) | none => false

/-- A Guard channel after a value. -/
def chanStep (s : State) (i : Nat) (v : GuardDens) (c : GChan) : GChan :=
  let x := density 64 v.d.bits
  let bad := clkBad s v c || decide (128 ≤ quietClocks v.d.bits)
  let beyond := decide ((95 : Rat) / 100 < ratAbs x)
  let neg := decide (x < 0)
  let y := guardCal s i x
  let above := !bad && (if i < 8 then beyond || decide ((gpar s .safeOcI : Rat) / 10 < ratAbs y) else (beyond && !neg) || decide ((gpar s .safeVbusMax : Rat) < y))
  { c with val := if bad then none else some y, beyond := beyond, neg := neg, invalid := bad, clkOut := clkOutside s v c, run := if above then min 255 (c.run + 1) else 0
           sum := if bad then c.sum else (c.sum.1 + y, c.sum.2 + 1) }

/-- Both currents of string n are valid and no greater than safe.open.i (R326). -/
def lowCurrent (s : State) (n : Nat) : Bool :=
  let lim : Rat := (gpar s .safeOpenI : Rat) / 10
  [2 * n, 2 * n + 1].all fun i => match (gchan s i).val with | some v => !(gchan s i).beyond && decide (ratAbs v ≤ lim) | none => false

/-- The decimators form a value of each of the channels given (R312). -/
def formValues (ch : List GuardDens) (s : State) : State :=
  let s1 := s.modGuard fun g => { g with chans := g.chans.mapIdx fun i c => match ch[i]? with | some v => chanStep s i v c | none => c }
  s1.modGuard fun g => { g with lowSince := g.lowSince.mapIdx fun n x => if lowCurrent s1 n then (if x.isSome then x else some s1.time.now) else none }

/-- GUARD_VALUE (R312, R317): one value of each of the ten channels. -/
def execGuardValue (t : Nat) (ch : List GuardDens) (s : State) : Host.Outcome State Fault Refusal := .next (guardDo t (formValues ch) s)

/-- Mean of a Guard channel over the millisecond that ends: of its valid values; none while the channel is invalid or had none (R312). -/
def guardMean (s : State) (i : Nat) : Option Rat :=
  let c := gchan s i
  if c.invalid || c.sum.2 == 0 then none else some (c.sum.1 / (c.sum.2 : Rat))

/-- GUARD_MEAN (R312, R316, R317): a millisecond of the Guard oscillator ends; the mean of each channel's values over it is judged and kept. The values ch that the decimators form at the instant it ends belong to it; the list is empty where none is formed then. -/
def execGuardMean (t : Nat) (ch : List GuardDens) (s : State) : Host.Outcome State Fault Refusal :=
  .next (guardDo t (fun s =>
    let s := if ch.isEmpty then s else formValues ch s
    let hb := (s.guard.heartbeat + 1) % 0x100000000
    let v (i : Nat) : Option Rat := guardMean s i
    let apart (i j : Nat) (lim : Rat) : Bool := match v i, v j with | some a, some b => decide (lim < ratAbs (a - b)) | _, _ => false
    let plaus (n : Nat) : Bool := apart (2 * n) (2 * n + 1) (f32.rat (gpar s .safeCalGain (4 * n)).toNat / 200)
    let low (i : Nat) : Bool := match v i with | some a => decide (a < (gpar s .safeVbusMin : Rat)) | none => false
    let closed := (List.range 4).any fun n => stringClosed s n
    s.modGuard fun g => { g with
      heartbeat := hb, hbAt := t
      chans := g.chans.mapIdx fun i c => { c with means := ((hb, v i) :: c.means).take 32, sum := (0, 0) }
      plausRun := g.plausRun.mapIdx fun n k => if plaus n then k + 1 else 0
      uvRun := if low 8 && low 9 && closed then g.uvRun + 1 else 0
      agreeRun := if apart 8 9 (gpar s .safeVbusAgree : Rat) then g.agreeRun + 1 else 0 }) s)

/-! Fault loops (R313). -/

/-- FLOOP_EDGE_DRIVE (R130, R313). -/
def execFloopEdgeDrive (t : Nat) (s : State) : Host.Outcome State Fault Refusal :=
  .next (guardDo t (fun s => s.modGuard fun g => { g with floops := g.floops.mapIdx fun n l => if guarded s n then { l with out := !l.out, edge := some s.time.now } else l }) s)

/-- FLOOP_IN_EDGE (R313): the same transition within 200 us of the driven edge. A level of less than 2 us counts as no edge (Table 23-11). -/
def execFloopInEdge (x : Edge) (n : Fin 4) (high : Bool) (s : State) : Host.Outcome State Fault Refusal :=
  .next (guardDo x.at_ (fun s => if x.held < 2000 then s else s.modGuard fun g => { g with floops := updAt g.floops n.val fun l =>
    match l.edge with
    | some e =>
      if high == l.out && decide (x.at_ ≤ e + 200000) then { l with inn := high, edge := none, missed := 0, back := min 255 (l.back + 1), stop := l.stop && decide (l.back + 1 < 16) }
      else { l with inn := high }
    | none => { l with inn := high } }) s)

/-- FLOOP_EDGE_NOT_RETURNED (R313): a missed edge; the eighth in a row is a fault-loop stop. -/
def execFloopEdgeNotReturned (t : Nat) (n : Fin 4) (s : State) : Host.Outcome State Fault Refusal :=
  .next (guardDo t (fun s => s.modGuard fun g => { g with floops := updAt g.floops n.val fun l =>
    match l.edge with
    | some e => if e + 200000 ≤ s.time.now then { l with edge := none, missed := min 255 (l.missed + 1), back := 0, stop := l.stop || decide (8 ≤ l.missed + 1) } else l
    | none => l }) s)

/-! Trip inputs (R314, SF8, SF9). -/

/-- Time of the first transition of an input that has held a level for the 10 us of its filter (R314). -/
def filtered (s : State) : Nat := s.time.now - 10000

/-- TRIP_INPUT_CHANGE (R314): the filtered levels. -/
def execTripInputChange (t : Nat) (a b : Bool) (s : State) : Host.Outcome State Fault Refusal :=
  .next (guardDo t (fun s => s.modGuard fun g => { g with
    tripA := a, tripB := b, tripDiff := if a == b then none else if g.tripDiff.isSome then g.tripDiff else some (filtered s), tripDisc := g.tripDisc && a != b }) s)

/-- TRIP_DISCREPANCY (R317, SF9). -/
def execTripDiscrepancy (t : Nat) (s : State) : Host.Outcome State Fault Refusal :=
  .next (guardDo t (fun s => s.modGuard fun g => match g.tripDiff with
    | some d => if d + (gpar s .safeTripDisc).toNat * 1000000 ≤ s.time.now then { g with tripDisc := true } else g
    | none => g) s)

/-! Contactor feedback (R314, R329). -/

/-- CFB_CHANGE (R314): the filtered level of a feedback input of string n: 0 POS, 1 NEG, 2 PRE. -/
def execCfbChange (t : Nat) (n : Fin 4) (k : Fin 3) (closed : Bool) (s : State) : Host.Outcome State Fault Refusal :=
  .next (guardDo t (fun s =>
    let i := 3 * n.val + k.val
    let s1 := s.modGuard fun g => noteCtr (filtered s) { g with cfb := updAt g.cfb i fun _ => closed, weld := updAt g.weld i fun w => w && closed }
    let s2 := if (List.range 3).any fun j => s1.guard.weld.getD (3 * n.val + j) false then s1 else s1.clear 0x500B n.val
    noteFeedback n.val (noteOutputs n.val s2)) s)

/-- CONTACTOR_FEEDBACK_FAULT (R317, SF15). -/
def execContactorFeedbackFault (t : Nat) (n : Fin 4) (k : Fin 3) (s : State) : Host.Outcome State Fault Refusal :=
  .next (guardDo t (fun s =>
    if fbFault s (3 * n.val + k.val) && guarded s n.val then
      let s1 := gRaise 0x500C n.val s
      if s1.guard.granted.getD n.val false then setGLatch n.val (sf 15) s1 else s1
    else s) s)

/-- CONTACTOR_WELD (R317, SF16): string scope, and the group when both main contactors of a string are welded. -/
def execContactorWeld (t : Nat) (n : Fin 4) (k : Fin 3) (s : State) : Host.Outcome State Fault Refusal :=
  .next (guardDo t (fun s =>
    let i := 3 * n.val + k.val
    if weldFault s i && guarded s n.val then
      let s1 := gRaise 0x500B n.val (s.modGuard fun g => { g with weld := updAt g.weld i fun _ => true })
      let s2 := if s1.guard.granted.getD n.val false then setGLatch n.val (sf 16) s1 else s1
      let both := s2.guard.weld.getD (3 * n.val) false && s2.guard.weld.getD (3 * n.val + 1) false
      if both && s2.guard.granted.getD 4 false then setGLatch 4 (sf 16) s2 else s2
    else s) s)

/-! Cross-monitoring by the Guard and the stage (R316, R325). -/

/-- A fault of a part found by cross-monitoring (R316): channel fault bit and event 0x500D. -/
def partFault (b : Nat) (s : State) : State := (s.modCore fun c => { c with faults := c.faults ||| BitVec.ofNat 4 (2 ^ b), faultsHeld := c.faultsHeld ||| BitVec.ofNat 4 (2 ^ b) }).stand 0x500D 0 true

/-- GUARD_SCV_RECOMPUTE (R316): intact says whether the SCV over the frozen copy is the one of Start. -/
def execGuardScvRecompute (t : Nat) (intact : Bool) (s : State) : Host.Outcome State Fault Refusal :=
  .next (guardDo t (fun s =>
    let s1 := s.modGuard fun g => { g with scvBad := g.params.isSome && !intact }
    if s1.guard.scvBad then partFault 1 s1 else s1) s)

/-- ALIVE_TOGGLE (R325): the safety core toggles its alive line and the permit line of each string it grants. -/
def execAliveToggle (t : Nat) (s : State) : Host.Outcome State Fault Refusal :=
  let s := s.at_ t
  if !s.up || !s.core.aliveOn then .next s
  else .next (guardDo t (fun s => s.modGuard fun g => { g with
    alive := true, aliveAt := s.time.now
    line := g.line.mapIdx fun n b => b || s.core.permit.getD n false
    toggled := g.toggled.mapIdx fun n u => if s.core.permit.getD n false then s.time.now else u }) s)

/-- PERMIT_LAPSE (R325, R316): a permit line 60 us after its last toggle, the alive line 100 us after it. -/
def execPermitLapse (t : Nat) (s : State) : Host.Outcome State Fault Refusal :=
  .next (guardDo t (fun s =>
    let dead := s.guard.alive && decide (s.guard.aliveAt + 100000 ≤ s.time.now)
    let s1 := s.modGuard fun g => { g with
      line := g.line.mapIdx fun n b => b && decide (s.time.now < g.toggled.getD n 0 + 60000), alive := g.alive && !dead }
    if dead && s1.guard.started && s1.up then partFault 0 s1 else s1) s)

/-- PERMIT_WITHDRAWN (R326): the outputs of string n follow the permits. -/
def execPermitWithdrawn (t : Nat) (n : Fin 4) (s : State) : Host.Outcome State Fault Refusal := .next (stage n.val (s.at_ t))

/-- CONTACTOR_RELEASE (R326): after 200 us at low current since GATE_ENn went low, or 20 ms after it. -/
def execContactorRelease (t : Nat) (n : Fin 4) (s : State) : Host.Outcome State Fault Refusal :=
  let s := s.at_ t
  let k := n.val
  match s.guard.gateLowAt.getD k none with
  | none => .next s
  | some g =>
    let low := match s.guard.lowSince.getD k none with | some a => decide (max a g + 200000 ≤ s.time.now) | none => false
    let late := decide (g + 20000000 ≤ s.time.now)
    if !low && !late then .next s
    else
      let any := ctrOut s k 0 || ctrOut s k 1 || ctrOut s k 2
      let s1 := s.modGuard fun x => noteCtr s.time.now { x with
        ctr := x.ctr.mapIdx fun i b => if i / 3 == k then false else b, gateLowAt := updAt x.gateLowAt k fun _ => none }
      let s2 := noteOutputs k s1
      .next (guardEval (if !low && any then gRaise 0x5011 k s2 else s2))

/-- VGUARD_LOSS (R321, R327): every output off at once; the Guard keeps no latch. -/
def execVguardLoss (t : Nat) (s : State) : Host.Outcome State Fault Refusal :=
  let s := s.at_ t
  .next (outputsOff ((s.modPwr fun p => { p with vguard := false }).modGuard fun _ => { ({} : Guard) with cfb := s.guard.cfb }))

/-! RESET_N (R331 to R335). -/

/-- RESET_N_FALL (R314, R331): tf is the time of the first transition; a level that has not held for 20 ms does not count. -/
def execResetNFall (t tf : Nat) (s : State) : Host.Outcome State Fault Refusal :=
  .next (guardDo t (fun s => if t < tf + 20000000 then s else s.modGuard fun g => { g with resetHigh := false, resetAt := tf, tF := if g.stuck then none else some tf }) s)

/-- The Guard clears each latch that was set before t_f and whose hazard is absent (R332). -/
def pressClears (tf : Nat) (s : State) : State :=
  let h := guardHazards s
  s.modGuard fun g => { g with latch := g.latch.mapIdx fun k l => if l.on && decide (l.setAt < tf) && h.getD k 0 == 0 then {} else l }

/-- RESET_N_RISE (R314, R331, R332): tr is the time of the first transition; the press is classed once the level has held for 20 ms. -/
def execResetNRise (t tr : Nat) (s : State) : Host.Outcome State Fault Refusal :=
  .next (guardDo t (fun s =>
    let s1 := s.modGuard fun g => { g with resetHigh := true, resetAt := tr, tF := none }
    match s.guard.tF with
    | none => if t < tr + 20000000 then s else s1
    | some f =>
      if t < tr + 20000000 then s
      else if s.guard.stuck then s1
      else if tr < f + 200000000 then gRaise 0x5005 0 s1
      else if tr ≤ f + 5000000000 then pressClears f (s1.modGuard fun g => { g with press := some (f, tr) })
      else s1) s)

/-- The end t_r of a press in module time through the heartbeat, to 1 ms (Table 11-5): whole milliseconds from the last heartbeat, rounded either way (log 5). -/
def pressEnd (s : State) (tr : Nat) : Nat := ((s.guard.hbAt : Int) + 1000000 * wholeUnits ((((tr : Int) - (s.guard.hbAt : Int) : Int) : Rat) / 1000000)).toNat

/-- Scope object of an event: the string number, 15 for the group (log 8). -/
def scopeArg (k : Nat) : Nat := if k == 4 then 15 else k

/-- The reset window closes: every scope in Reset armed returns to Locked (R333, R334). -/
def closeWindow (s : State) : State :=
  let open_ := (List.range 5).filter fun k => s.core.scope.getD k .start == .resetArmed
  let s1 := s.modCore fun c => { c with tAcc := none, scope := c.scope.map fun x => if x == .resetArmed then .locked else x }
  forEach open_ (fun k s => s.raise 0x5008 (scopeArg k)) s1

/-- STUCK_RESET (R334). -/
def execStuckReset (t : Nat) (s : State) : Host.Outcome State Fault Refusal :=
  .next (guardDo t (fun s =>
    match s.guard.tF with
    | some f =>
      if !s.guard.resetHigh && decide (f + 5000000000 ≤ s.time.now) then
        closeWindow (gRaise 0x5009 0 (s.modGuard fun g => { g with stuck := true, tF := none, press := none }))
      else s
    | none => s) s)

/-- STUCK_RESET_CLEAR (R334, R335): RESET_N high for 1 s. -/
def execStuckResetClear (t : Nat) (s : State) : Host.Outcome State Fault Refusal :=
  .next (guardDo t (fun s =>
    if s.guard.resetHigh && decide (s.guard.resetAt + 1000000000 ≤ s.time.now) then (s.modGuard fun g => { g with stuck := false, inFault := false }).clear 0x5009 0
    else s) s)

/-- RESET_WINDOW_CLOSE (R333, R44): 10 s after t_acc, unless a press that may still count is under way or waits for its read. -/
def execResetWindowClose (t : Nat) (s : State) : Host.Outcome State Fault Refusal :=
  let s := s.at_ t
  match s.core.tAcc with
  | some a =>
    let pending := (s.guard.tF.isSome && decide (s.time.now ≤ a + 10020000000)) || (match s.guard.press with | some (_, r) => decide (pressEnd s r ≤ a + 10000000000) | none => false)
    if s.running && decide (a + 10000000000 ≤ s.time.now) && !pending then .next (closeWindow s) else .next s
  | none => .next s

end Sys2Proof.Machine
end

