-- ==== Sys2Proof/Machine/Sharing.lean ====
section
/-!
DEFINITION. Sharing: set-points, allowance, roles and allocation of the group set-point over the strings (R265 to R281).
-/
namespace Sys2Proof.Machine

/-- The instant of frame K at which messages are latched (R44, R266). -/
def latchAt (s : State) : Nat := s.frameStart + 5000000

/-- Good string-side and bus voltages of Comb frame K-1 as published, V (R263). -/
def pubVolt (s : State) (n : Nat) (f : LoopView → Option Rat) : Option Rat :=
  if s.comb.late.getLsbD 5 then none else (f (s.asSeen.loop n).pub).map fun v => (wholeUnits (v * 100) : Rat) / 100
def pubVs (s : State) (n : Nat) : Option Rat := pubVolt s n (·.vs)
def pubVb (s : State) (n : Nat) : Option Rat := pubVolt s n (·.vb)

/-! Sources (R267 to R271). -/

/-- disp.p.max in W. -/
def pMax (s : State) : Rat := s.parR .dispPMax * 1000

/-- A set-point beyond disp.p.max is refused (R268); a valid one is held until it is latched. -/
def holdHost (w : Int) (t : Nat) (s : State) : CmdOut :=
  if pMax s < ratAbs (w : Rat) then refuse 0x4022 0 s else accept (s.modDisp fun d => { d with hostHeld := (w, t) :: d.hostHeld })

def holdBus (w : Int) (t : Nat) (s : State) : State :=
  if pMax s < ratAbs (w : Rat) then s.raise 0x4022 0 else s.modDisp fun d => { d with busHeld := (w, t) :: d.busHeld }

/-- The latest of the messages held whose hardware timestamp is at or before the latch instant (R44). -/
def latest {α : Type} (l : Nat) : List (α × Nat) → Option (α × Nat)
  | [] => none
  | (v, t) :: rest => if t ≤ l then (match latest l rest with | some (w, u) => if t < u then some (w, u) else some (v, t) | none => some (v, t)) else latest l rest

/-- Messages held that arrived after the latch instant. -/
def later {α : Type} (l : Nat) (xs : List (α × Nat)) : List (α × Nat) := xs.filter fun x => decide (l < x.2)

/-- Pulse frequency over the last disp.pulse.gate frames, Hz (R267). -/
def pulseFreq (s : State) : Option Rat :=
  let fs := (s.time.pulseHist.take (s.parN .dispPulseGate)).filter fun f => f.count != 0
  let m : Nat := (fs.map (·.count)).foldl (fun (a b : Nat) => a + b) 0
  match fs.head?, fs.getLast? with
  | some new, some old =>
    if m < 2 then none
    else
      let dt : Rat := ((new.last : Int) - (old.first : Int) : Int)
      some (if dt == 0 then Config.openRat 11 (m : Rat) else ((m : Rat) - 1) * 1000000000 / dt)
  | _, _ => none

/-- Analogue set-point, W, clamped (R267, R268). -/
def anaSet (s : State) : Option Rat :=
  s.reg.anaMean.map fun x => clampRat (-(pMax s)) (pMax s) ((x - s.parR .dispAnaZero) * s.parR .dispAnaSpan * 1000)

/-- Pulse set-point, W, clamped (R267, R268). -/
def pulseSet (s : State) (f : Option Rat) : Option Rat :=
  match f with
  | some f => if (s.parN .dispPulseFmin : Rat) ≤ f && f ≤ (s.parN .dispPulseFmax : Rat)
      then some (clampRat (-(pMax s)) (pMax s) ((f - (s.parN .dispPulseF0 : Rat)) * s.parR .dispPulseK * 1000)) else none
  | none => none

/-- A latched message counts as long as its timeout has not passed (R267). -/
def fresh (l ms : Nat) (x : Option (Int × Nat)) : Option Rat :=
  match x with | some (v, t) => if l ≤ t + ms * 1000000 then some (v : Rat) else none | none => none

/-- Latches of frame K: set-points and allowance (R266, R267, R272). -/
def latchInputs (s : State) : State :=
  let l := latchAt s
  let src := s.parN .dispAllowSource
  let d := s.disp
  let new := [latest l d.allowHost, latest l d.allowBus]
  let lost := d.allowLost.mapIdx fun k x => x && (new.getD k none).isNone
  let f := pulseFreq s
  let s1 := s.modDisp fun d => { d with
    host := match latest l d.hostHeld with | some (v, _) => some (v, l) | none => d.host
    bus := match latest l d.busHeld with | some (v, _) => some (v, l) | none => d.bus
    hostHeld := later l d.hostHeld, busHeld := later l d.busHeld
    ana := anaSet s, pulseF := f, pulse := pulseSet s f
    allowHost := later l d.allowHost, allowBus := later l d.allowBus
    allow := d.allow.mapIdx fun k x => match new.getD k none with | some (v, _) => some (v, l) | none => x
    allowLost := lost }
  if (new.getD (src - 1) none).isSome || src == 0 then s1.clear 0x4024 0 else s1

/-- The value of a source, none while it is not valid (Table 9-2). -/
def sourceVal (s : State) (code : Nat) : Option Rat :=
  match code with
  | 0 => fresh (latchAt s) (s.parN .dispHostTimeout) s.disp.host
  | 1 => fresh (latchAt s) (s.parN .dispBusTimeout) s.disp.bus
  | 2 => s.disp.ana
  | 3 => s.disp.pulse
  | _ => none

def srcCode (s : State) (backup : Bool) : Nat := if backup then s.parN .dispSrcBackup else s.parN .dispSrcPrimary

/-- The source in use and the reaction to its loss (R269, R271). -/
def judgeSource (s : State) : State :=
  let mask : BitVec 4 := (List.range 4).foldl (fun (m : BitVec 4) c => if (sourceVal s c).isSome then m ||| BitVec.ofNat 4 (2 ^ c) else m) 0
  let prim := (sourceVal s (srcCode s false)).isSome
  let s0 := s.modDisp fun d => { d with
    valid := mask, primOkAt := if d.onBackup && prim then (if d.primOkAt.isSome then d.primOkAt else some (latchAt s)) else none }
  match sourceVal s0 (srcCode s0 s0.disp.onBackup) with
  | some p => (s0.modDisp fun d => { d with psrc := p, psrcAt := s0.time.frame, loss := 0, srcOk := true }).clear 0x4020 0
  | none =>
    if !s0.disp.srcOk then s0
    else
      let s1 := (s0.modDisp fun d => { d with srcOk := false }).stand 0x4020 0 true
      let react := s0.parN .dispLossReact
      let hold (s : State) : State := s.modDisp fun d => { d with loss := if s.parN .dispLossHold == 0 then 2 else 1, lossAt := latchAt s }
      if react == 2 then s1.modDisp fun d => { d with loss := 2, lossAt := latchAt s }
      else if react == 1 && !s0.disp.onBackup then
        match sourceVal s0 (srcCode s0 true) with
        | some p => ((s1.modDisp fun d => { d with onBackup := true, psrc := p, psrcAt := s0.time.frame, loss := 0, srcOk := true, primOkAt := none }).raise 0x4021 0).because .source .reaction
        | none => hold s1
      else hold s1

/-- LOSS_HOLD_EXPIRY (R271). -/
def execLossHoldExpiry (t : Nat) (s : State) : Host.Outcome State Fault Refusal :=
  let s := s.at_ t
  if s.running && s.disp.loss == 1 && decide (s.disp.lossAt + s.parN .dispLossHold * 1000000 ≤ s.time.now) then .next (s.modDisp fun d => { d with loss := 2 })
  else .next s

/-- SOURCE_REVERT (R271): the primary has been valid for disp.src.revert_t. -/
def execSourceRevert (t : Nat) (s : State) : Host.Outcome State Fault Refusal :=
  let s := s.at_ t
  match s.disp.primOkAt with
  | some a =>
    if s.running && s.parB .dispSrcRevert && s.disp.onBackup && decide (a + s.parN .dispSrcRevertT * 1000000000 ≤ s.time.now)
    then .next (((s.modDisp fun d => { d with onBackup := false, primOkAt := none }).raise 0x4021 0).because .source .reaction) else .next s
  | none => .next s

/-- Select set-point source (R269): from the next frame. Naming a backup where none is configured is refused (log 15). -/
def cmdSelect (backup : Bool) (s : State) : CmdOut :=
  if backup && s.parN .dispSrcBackup == 255 then answer 8 0 s else accept (s.modDisp fun d => { d with select := some backup })

/-- A source selected by command takes effect at the frame boundary (R269). -/
def applySelect (s : State) : State :=
  match s.disp.select with
  | some b =>
    let s1 := s.modDisp fun d => { d with select := none, onBackup := b, primOkAt := none }
    if b != s.disp.onBackup then (s1.raise 0x4021 0).because .source .command else s1
  | none => s

/-! The allowance (R272). -/

def holdAllowHost (c d t : Nat) (s : State) : State := s.modDisp fun x => { x with allowHost := ((c, d), t) :: x.allowHost }
def holdAllowBus (c d t : Nat) (s : State) : State := s.modDisp fun x => { x with allowBus := ((c, d), t) :: x.allowBus }

/-- The allowance latched from the source that disp.allow.source names, with its time; none where the configuration stands for it (R272). -/
def latchedAllow (s : State) : Option ((Nat × Nat) × Nat) :=
  let src := s.parN .dispAllowSource
  if src == 0 || s.disp.allowLost.getD (src - 1) false then none else s.disp.allow.getD (src - 1) none

/-- Charge and discharge allowance in force, A. -/
def allowance (s : State) : Nat × Nat := match latchedAllow s with | some (x, _) => x | none => (s.parN .dispAllowChg, s.parN .dispAllowDis)

/-- ALLOWANCE_TIMEOUT (R272). -/
def execAllowanceTimeout (t : Nat) (s : State) : Host.Outcome State Fault Refusal :=
  let s := s.at_ t
  let src := s.parN .dispAllowSource
  let last := match s.disp.allow.getD (src - 1) none with | some (_, u) => u | none => s.boot.endT
  if s.running && src != 0 && decide (last + s.parN .dispAllowTimeout * 1000000 ≤ s.time.now)
  then .next ((s.modDisp fun d => { d with allowLost := updAt d.allowLost (src - 1) fun _ => true }).stand 0x4024 0 true) else .next s

/-- Mean of the Good bus voltages in use (R272). -/
def meanVb (s : State) : Rat :=
  let vs := (List.range 4).filterMap (pubVb s)
  if vs.isEmpty then (s.parN .regVbusMin : Rat) else meanOf vs

/-- Group reference of the frame (R270, R272); 0 while no string shares. -/
def groupRef (s : State) (shares : Bool) : Rat :=
  if !shares then 0
  else
    let d := s.disp
    let rho := (if d.loss == 2 then s.parR .dispLossRamp else s.parR .dispRamp) * 1000 / 100
    let p := d.pref + clampRat (-rho) rho ((if d.loss == 2 then 0 else d.psrc) - d.pref)
    let a := allowance s
    clampRat (-((a.2 : Rat) * meanVb s)) ((a.1 : Rat) * meanVb s) p

/-! Roles (R273). -/

def capSurveyOf (s : State) (n : Nat) : Option CapSurvey :=
  match s.surv.cap with | some v => if v.string == n && v.phase != 4 then some v else none | none => none

/-- Connected, or with a disconnection in progress that R287 began (log 15). -/
def engaged (d : DispStr) : Bool := d.conn == 5 || (d.conn == 6 && 4 ≤ d.opening && d.opening ≤ 7)

def roleOf (s : State) (n : Nat) : Nat :=
  let d := s.dstr n
  let l := (s.asSeen.loop n).pub.st
  if !engaged d || l == .manual || l == .stopLane || l == .stopMeas || !permits s n || (pubVs s n).isNone || !s.parBit .regStrings n || cfbMismatch s n then 0
  else if d.conn == 6 then 4
  else if (capSurveyOf s n).isSome then 3
  else if d.restAt.isSome then 2
  else 1

/-- The string is marked enabled in the limits table (R273, R287). -/
def enabledOf (s : State) (n : Nat) : Bool :=
  let d := s.dstr n
  (d.conn == 5 || (d.conn == 6 && d.opening == 4)) && permits s n && (pubVs s n).isSome && s.parBit .regStrings n

/-! Limits and weights (R274, R275). -/

/-- Limits of string n before an impedance survey's part is taken off (R274). -/
def limitsWhole (s : State) (n : Nat) : Rat × Rat :=
  let imax := (s.parN .dispIMax : Rat) / 10
  let th := s.asSeen.tstr n
  let e := s.asSeen.estr n
  let react := s.parB .dispEndReact
  let c := if th.noChg || (react && e.eoc) then 0 else imax * th.fc
  let d := if react && e.eod then 0 else imax * th.fd
  (c, d)

/-- Limits of string n (R274). -/
def limitsOf (s : State) (n : Nat) : Rat × Rat :=
  let w := limitsWhole s n
  let r := surveyRoom s n
  (max 0 (w.1 - r), max 0 (w.2 - r))

/-- Direction of P_ref: true for charge. The spec names none at 0 (log 3). -/
def chargeDir (p : Rat) : Bool := if 0 < p then true else if p < 0 then false else Config.openNat 13 % 2 == 1

def healthOf (s : State) (n : Nat) : Rat :=
  let hs := ((stringCells s.asSeen n).filter (·.rValid)).map fun c => (wholeUnits (ratioH c.rRef c.rFirst) : Rat)
  let h := if hs.isEmpty then 1000 else meanOf hs
  clampRat ((s.parN .dispHealthFloor : Rat) / 1000) 1 (1 - (s.parN .dispHealthK : Rat) / 1000 * (h - 1000) / 1000)

/-- Energy of string n in the direction of P_ref, Wh; none while it is not Good (R190). -/
def energyOf (s : State) (n : Nat) (chg : Bool) : Option Rat :=
  if s.comb.late.getLsbD 2 then none
  else match (s.asSeen.estr n).results with | some (_, _, ed, eh) => some (wholeUnits (if chg then eh else ed) : Rat) | none => none

def anchorFactor (s : State) (n : Nat) (p : Rat) : Rat :=
  let b := (s.parN .dispAnchorBias : Rat) / 1000
  let q := (s.asSeen.estr n).req
  if (q == 2 && decide (0 < p)) || (q == 3 && decide (p < 0)) then 1 + b
  else if (q == 2 && decide (p < 0)) || (q == 3 && decide (0 < p)) then 1 - b else 1

/-- Weight of a shared string (R275); shared lists the strings that share. -/
def weightOf (s : State) (shared : List Nat) (p : Rat) (n : Nat) : Rat :=
  let chg := chargeDir p
  let goods := shared.filterMap fun j => energyOf s j chg
  let en := (energyOf s n chg).getD (if goods.isEmpty then 1 else meanOf goods)
  en * (if chg then (s.asSeen.tstr n).fc else (s.asSeen.tstr n).fd) * healthOf s n * anchorFactor s n p

/-! Allocation (R276). -/

/-- The passes of R276: strings (number, weight, P_max) that remain, and what remains to be shared. -/
def sharePasses : Nat → Rat → List (Nat × Rat × Rat) → List (Nat × Rat)
  | 0, _, _ => []
  | k + 1, rem, xs =>
    if xs.isEmpty || rem == 0 then []
    else
      let sum := (xs.map (·.2.1)).foldl (· + ·) 0
      let ps := xs.map fun x => (x, rem * x.2.1 / sum)
      let above := ps.filter fun q => decide (q.1.2.2 < ratAbs q.2)
      if above.isEmpty then ps.map fun q => (q.1.1, q.2)
      else
        let fixed := above.map fun q => (q.1.1, if rem < 0 then -q.1.2.2 else q.1.2.2)
        let left := (fixed.map (·.2)).foldl (· - ·) rem
        fixed ++ sharePasses k left ((ps.filter fun q => !decide (q.1.2.2 < ratAbs q.2)).map (·.1))

/-- P_max of string n in the direction of P_ref (R276). -/
def pMaxOf (s : State) (p : Rat) (n : Nat) : Rat := let l := limitsOf s n; (if chargeDir p then l.1 else l.2) * (pubVs s n).getD 0

/-- Shares of the shared strings for P_ref, less the survey shares. -/
def allocate (s : State) (p surv : Rat) (shared : List Nat) : List (Nat × Rat) :=
  sharePasses 5 (p - surv) ((shared.map fun n => (n, weightOf s shared p n, pMaxOf s p n)).filter fun x => decide (0 < x.2.1) && decide (0 < x.2.2))

def sumShares (xs : List (Nat × Rat)) : Rat := (xs.map (·.2)).foldl (· + ·) 0

/-! Rest windows and scheduled surveys (R277 to R279). -/

/-- Headroom of the other shared strings (R277): |P_ref - survey shares| within a part of the sum of their P_max. -/
def headroom (s : State) (p surv part : Rat) (others : List Nat) : Bool := decide (ratAbs (p - surv) ≤ part * (others.map (pMaxOf s p)).foldl (· + ·) 0)

/-- A rest window closes; an early close raises event 0x4026 (R278). -/
def closeRest (early : Bool) (n : Nat) (s : State) : State :=
  if (s.dstr n).restAt.isNone then s
  else
    let s1 := s.updDisp n fun d => { d with restAt := none, restEnd := some s.time.now, restFail := 0, role := if d.role == 2 then 1 else d.role }
    if early then s1.raise 0x4026 n else s1

def closeRests (s : State) : State := forEach (List.range 4) (closeRest true) s

/-- Survey commands of the Engineer close every rest window (R278). -/
def cmdStartImpEng (n : Nat) (s : State) : CmdOut := let r := cmdStartImp .command n s; if r.2.1 == 0 then accept (closeRests r.1) else r
def cmdStartCapEng (n : Nat) (s : State) : CmdOut := let r := cmdStartCap .command n s; if r.2.1 == 0 then accept (closeRests r.1) else r

/-- Close rest window (R278); with no open window of the string it is refused (log 15). -/
def cmdCloseRest (n : Nat) (s : State) : CmdOut := if (s.dstr n).restAt.isSome then accept (closeRest true n s) else answer 8 0 s

/-- Windows that close in the build (R278). -/
def restCheck (p surv : Rat) (n : Nat) (s : State) : State :=
  if (s.dstr n).restAt.isNone then s
  else
    let others := (List.range 4).filter fun j => j != n && roleOf s j == 1
    let ok := headroom s p surv 1 others
    let run := if ok then 0 else (s.dstr n).restFail + 1
    let s1 := s.updDisp n fun d => { d with restFail := run }
    if (s.asSeen.estr n).req == 0 then closeRest false n s1
    else if 3 ≤ run || s.boot.mode != .operate then closeRest true n s1
    else s1

/-- A rest window that opens in this frame (R277). -/
def restOpen (p surv : Rat) (s : State) : State :=
  let busy := (List.range 4).any fun j => let r := roleOf s j; r == 2 || r == 3
  if !s.parB .dispRestEnable || s.boot.mode != .operate || busy || s.surv.imp.isSome then s
  else
    let part := 1 - (s.parN .dispRestMargin : Rat) / 1000
    let ok (n : Nat) : Bool :=
      (s.asSeen.estr n).req == 1 && roleOf s n == 1 &&
      (match (s.dstr n).restEnd with | some e => decide (e + s.parN .dispRestGap * 60000000000 ≤ s.time.now) | none => true) &&
      headroom s p surv part ((List.range 4).filter fun j => j != n && roleOf s j == 1)
    match (List.range 4).filter ok with
    | [] => s
    | n :: ns =>
      let k := ns.foldl (fun a b => if (s.asSeen.estr b).reqAt < (s.asSeen.estr a).reqAt then b else a) n
      (let t := s.parN .dispRestT; s.updDisp k fun d => { d with restAt := some s.time.now, restFail := 0, restT := t }).raise 0x4025 k

/-- Surveys requested by schedule (R279). -/
def scheduled (p surv : Rat) (s : State) : State :=
  let busy (s : State) : Bool := (List.range 4).any fun j => let r := roleOf s j; r == 2 || r == 3
  if s.boot.mode != .operate || p3Held s then s
  else
    let s1 := if bit (s.parN .dispSurveyAuto) 0 && !busy s then
      (match (List.range 4).find? fun n => s.parBit .regStrings n && impDue s n && impReason s n == 0 with
        | some n => (cmdStartImp .reaction n s).1.raise 0x402D n
        | none => s) else s
    if bit (s1.parN .dispSurveyAuto) 1 && !busy s1 then
      let part := 1 - (s1.parN .dispRestMargin : Rat) / 1000
      (match (List.range 4).find? fun n => s1.parBit .regStrings n && capDue s1 n && capReason s1 n == 0 &&
          headroom s1 p (surv + (s1.parN .estCapChargeRate : Rat) / 1000 * oneC s1 * (pubVs s1 n).getD 0) part ((List.range 4).filter fun j => j != n && roleOf s1 j == 1) with
        | some n => (cmdStartCap .reaction n s1).1.raise 0x402D n
        | none => s1) else s1

/-- REST_WINDOW_EXPIRY (R278). -/
def execRestWindowExpiry (t : Nat) (n : Fin 4) (s : State) : Host.Outcome State Fault Refusal :=
  let s := s.at_ t
  match (s.dstr n.val).restAt with
  | some a => if s.running && decide (a + (s.dstr n.val).restT * 1000000000 ≤ s.time.now) then .next (closeRest false n.val s) else .next s
  | none => .next s

/-! The build (R266). -/

/-- Share of the string in a capacity survey and its reference; the hold ends in the first frame in which the discharge leaves no shortfall (R280). While P3 work waits the survey waits at reference 0 (R12, R577; log 14). -/
def capShare (p : Rat) (s : State) : State × List (Nat × Rat × Rat) :=
  match (List.range 4).find? fun n => roleOf s n == 3 with
  | none => (s, [])
  | some n =>
    match capSurveyOf s n with
    | none => (s, [])
    | some v =>
      let vs := (pubVs s n).getD 0
      let dis := -((v.par.rate : Rat) / 1000 * oneC s)
      let to_ (w : CapSurvey) : State := s.modSurv fun u => { u with cap := some w }
      let shared := (List.range 4).filter fun j => roleOf s j == 1
      if p3Held s then (to_ { v with flowing := false }, [(n, 0, 0)])
      else if v.phase == 2 then
        let xs := allocate s p (dis * vs) shared
        if p - dis * vs - sumShares xs == 0 then (to_ { v with phase := 3, disAt := some s.time.now, flowing := false, ref := dis }, [(n, dis * vs, dis)]) else (s, [(n, 0, 0)])
      else (s, [(n, v.ref * vs, v.ref)])

/-- The dispatch build of a frame (R266 to R281, R288, R612). -/
def dispatchBuild (s : State) : State :=
  let s1 := judgeSource (latchInputs s)
  let s2 := forEach (List.range 4) (fun n s => permitLoss n (if cfbMismatch s n then s.stand 0x4029 n true else s)) s1
  let shares := (List.range 4).any fun n => roleOf s2 n == 1
  let p := groupRef s2 shares
  let (s3, surv0) := capShare p s2
  let sv := (surv0.map (·.2.1)).foldl (· + ·) 0
  let s4 := scheduled p sv (restOpen p sv (forEach (List.range 4) (restCheck p sv) s3))
  let (s5, surv) := capShare p s4
  let psv := (surv.map (·.2.1)).foldl (· + ·) 0
  let shared := (List.range 4).filter fun n => roleOf s5 n == 1
  let xs := allocate s5 p psv shared
  let short := p - psv - sumShares xs
  let run := if short == 0 then 0 else s5.disp.shortRun + 1
  let pOf (n : Nat) : Rat := match surv.lookup n with | some (w, _) => w | none => (xs.lookup n).getD 0
  let rOf (n : Nat) : Rat := match surv.lookup n with
    | some (_, r) => f32.rat (toF32 r)
    | none => let vs := (pubVs s5 n).getD 0; if vs == 0 then 0 else f32.rat (toF32 ((xs.lookup n).getD 0 / vs))
  let s6 := s5.modDisp fun d => { d with
    pref := p, shortfall := short, shortRun := run
    strs := d.strs.mapIdx fun n x => { x with
      role := roleOf s5 n, share := pOf n, ref := rOf n, chg := (limitsOf s5 n).1, dis := (limitsOf s5 n).2
      weight := if roleOf s5 n == 1 then some (weightOf s5 shared p n) else none, health := healthOf s5 n } }
  let tb : RegTables :=
    { refs := (List.range 4).map rOf, chg := (List.range 4).map fun n => (limitsOf s5 n).1, dis := (List.range 4).map fun n => -(limitsOf s5 n).2
      enabled := (List.range 4).map (enabledOf s5), whole := (List.range 4).map (limitsWhole s5) }
  let s7 := s6.modReg fun r => if r.swapLate && r.shadow.isSome then { r with shadowAfter := some tb } else { r with shadow := some tb }
  if short == 0 then s7.clear 0x4023 0 else s7.stand 0x4023 0 (decide (3 ≤ run) || s7.isRaised 0x4023 0)

/-- Dispatch parameters of a commit (R289). -/
def dispOk (ps : List (ParamKey × Int)) : Bool :=
  let g (p : PName) : Int := paramIn ps { p := p }
  g .dispSrcBackup != g .dispSrcPrimary && decide (g .dispPulseFmin < g .dispPulseF0) && decide (g .dispPulseF0 < g .dispPulseFmax)

/-! Commands. -/

/-- HOST_SETPOINT (R267, R268): t is the hardware timestamp of the message. -/
def execHostSetpoint (t : Nat) (w : Int) (s : State) : Host.Outcome State Fault Refusal :=
  let s := s.at_ t
  if s.running then .next (holdHost w t s).1 else .next s

/-- HOST_ALLOWANCE (R272). -/
def execHostAllowance (t : Nat) (chg dis : BitVec 16) (s : State) : Host.Outcome State Fault Refusal :=
  let s := s.at_ t
  if s.running then .next (holdAllowHost chg.toNat dis.toNat t s) else .next s

/-- SELECT_SETPOINT_SOURCE (R269). -/
def execSelectSetpointSource (t : Nat) (backup : Bool) (s : State) : Host.Outcome State Fault Refusal :=
  let s := s.at_ t
  if s.running then .next (cmdSelect backup s).1 else .next s

/-- CLOSE_REST_WINDOW (R278). -/
def execCloseRestWindow (t : Nat) (n : Fin 4) (s : State) : Host.Outcome State Fault Refusal :=
  let s := s.at_ t
  if s.running then .next (cmdCloseRest n.val s).1 else .next s

/-- START_IMPEDANCE_SURVEY (R205). -/
def execStartImpedanceSurvey (t : Nat) (n : Fin 4) (s : State) : Host.Outcome State Fault Refusal :=
  let s := s.at_ t
  if s.running then .next (cmdStartImpEng n.val s).1 else .next s

/-- ABORT_IMPEDANCE_SURVEY (R206). -/
def execAbortImpedanceSurvey (t : Nat) (s : State) : Host.Outcome State Fault Refusal :=
  let s := s.at_ t
  if s.running then .next (cmdAbortImp s).1 else .next s

/-- START_CAPACITY_SURVEY (R216). -/
def execStartCapacitySurvey (t : Nat) (n : Fin 4) (s : State) : Host.Outcome State Fault Refusal :=
  let s := s.at_ t
  if s.running then .next (cmdStartCapEng n.val s).1 else .next s

/-- ABORT_CAPACITY_SURVEY (R215). -/
def execAbortCapacitySurvey (t : Nat) (s : State) : Host.Outcome State Fault Refusal :=
  let s := s.at_ t
  if s.running then .next (cmdAbortCap s).1 else .next s

/-- WRITE_LEARNED_VALUES (R222). -/
def execWriteLearnedValues (t : Nat) (strings : BitVec 4) (s : State) : Host.Outcome State Fault Refusal :=
  let s := s.at_ t
  if s.running then .next (cmdWriteLearned strings.toNat s).1 else .next s

end Sys2Proof.Machine
end

