-- ==== Sys2Proof/Machine/Can.lean ====
section
/-!
DEFINITION. Can: chapter 15, the CAN ports, the block bus, the time reference and the CANopen manager.
-/
namespace Sys2Proof.Machine

def canPort (s : State) (p : Nat) : CanPort := s.can.ports.getD p {}
def updPort (p : Nat) (f : CanPort → CanPort) (s : State) : State := s.modCan fun c => { c with ports := updAt c.ports p f }
def station (s : State) (k : Nat) : Station := s.can.stations.getD k {}
def updStation (k : Nat) (f : Station → Station) (s : State) : State := s.modCan fun c => { c with stations := updAt c.stations k f }
def stationCfg (s : State) (k : Nat) : StationCfg := s.boot.run.stations.getD k {}

/-- Entries in use of the station section (R433). -/
def usedStations (s : State) : List Nat := (List.range 16).filter fun k => (stationCfg s k).enabled && (stationCfg s k).node != 0

/-- Station entry of a node ID (R435). -/
def stationOf (s : State) (node : Nat) : Option Nat := (usedStations s).find? fun k => (stationCfg s k).node == node

/-- Block-bus identifier (Table 15-4). -/
def busId (s : State) (typ pos : Nat) : Nat := s.parN .canBbBase + typ * 256 + pos
def ownPos (s : State) : Nat := s.parN .bootPosition

/-- Type and position of a block-bus identifier under the base in use (Table 15-4); its Reserved bits are ignored (R6). -/
def busParts (s : State) (id : Nat) : Option (Nat × Nat) :=
  if id / 65536 * 65536 == s.parN .canBbBase then some (id / 256 % 256, id % 16) else none

def isTimeRef (typ : Nat) : Bool := 0x20 ≤ typ && typ < 0x28
def isTimeFollow (typ : Nat) : Bool := 0x28 ≤ typ && typ < 0x30

/-- Class of a received identifier: SETPOINT to this module 1, time message 2, FSL 3, CANopen 4, none 0 (R422). -/
def idClass (s : State) (ext : Bool) (id : Nat) : Nat :=
  if ext then
    if (id : Int) == cpar s .safeFslCanRx then 3
    else match busParts s id with
      | some (t, pos) => if t == 1 && pos == ownPos s then 1 else if isTimeRef t || isTimeFollow t then 2 else 0
      | none => 0
  else
    let n := id % 0x80
    let f := id / 0x80
    if f == 14 && n != 0 then 4
    else if [1, 3, 5, 7, 9, 11].contains f && n != 0 && (stationOf s n).isSome then 4 else 0

/-- Oldest entry of a FIFO that a test admits, and the FIFO without it: the firmware acknowledges it (R422). -/
def takeFrame (ok : CanFrame → Bool) (q : List CanFrame) : Option (CanFrame × List CanFrame) :=
  match q with
  | [] => none
  | f :: fs => if ok f then some (f, fs) else (takeFrame ok fs).map fun r => (r.1, f :: r.2)

/-- Stores a received frame in its FIFO, or counts it when the FIFO is full (R422). -/
def storeFrame (p : Nat) (f : CanFrame) (s : State) : State :=
  let c := idClass s f.ext f.id
  let one := c == 4
  let q := if one then (canPort s p).fifo1 else (canPort s p).fifo0
  if c == 0 || (one && s.parN .canCoPort != p) then s
  else if 64 ≤ q.length then (updPort p (fun x => { x with overflow := x.overflow + 1 }) s).raiseRound 0x6033 p
  else updPort p (fun x => if one then { x with fifo1 := x.fifo1 ++ [f] } else { x with fifo0 := x.fifo0 ++ [f] }) s

/-- The port takes part in reception: it is enabled and not bus-off (R418, R423). -/
def portHears (s : State) (p : Nat) : Bool := [1, 2, 4, 5].contains (canPort s p).st

/-- CAN_FRAME_RECEIVED (R417, R420, R422): sof is the stamp of the start-of-frame bit, ts the hardware timestamp; a remote frame is discarded. -/
def execCanFrameReceived (sof ts : Nat) (p : Fin 2) (id : Nat) (ext remote : Bool) (data : List (BitVec 8)) (s : State) : Host.Outcome State Fault Refusal :=
  let s := s.at_ ts
  if s.up && portHears s p.val && !remote then .next (storeFrame p.val { id := id, ext := ext, data := data, sof := sof, ts := ts } s) else .next s

/-! Transmission. -/

/-- Queues an entry at a port: STATUS and FSL STATUS replace their predecessor, and a full queue takes nothing (R421, Table 15-3). -/
def queueCan (e : CanTx) (p : Nat) (s : State) : State :=
  let q := (canPort s p).tx
  if e.kind ≤ 1 && q.any (·.kind == e.kind) then
    (updPort p (fun x => { x with tx := x.tx.map fun o => if o.kind == e.kind then e else o }) s).raise 0x603E p
  else if 32 ≤ q.length then (updPort p (fun x => { x with txFull := x.txFull + 1 }) s).raiseRound 0x6034 p
  else updPort p (fun x => { x with tx := x.tx ++ [e] }) s

/-- Ports on which block-bus, time and FSL messages are sent (R423): a port that is error-passive or bus-off sends none while the other is error-active; a port in listen-only sends none. -/
def canSendPorts (s : State) : List Nat :=
  let active := [0, 1].filter fun p => (canPort s p).st == 1
  if active.isEmpty then [0, 1].filter fun p => [2, 3].contains (canPort s p).st else active

def lowestTx : List CanTx → Option CanTx
  | [] => none
  | e :: es => match lowestTx es with
    | none => some e
    | some f => if arbKey e ≤ arbKey f then some e else some f

/-- A port that can send sends its pending entry with the lowest identifier (R421, log 6); where that is a tagged one, it leaves with its transmit timestamp. -/
def canSendOne (p : Nat) (s : State) : State :=
  if [1, 2].contains (canPort s p).st then
    match lowestTx (canPort s p).tx with
    | some e => if e.tag == 0 then (updPort p (fun x => { x with tx := x.tx.erase e }) s).send (.canFrame p (canFormat s p e) e.id e.data) else s
    | none => s
  else s

def canIdle (s : State) : State := forEach [0, 1] canSendOne s

/-- Whether an unsent entry is past its time (Table 15-3). -/
def txExpired (t : Nat) (e : CanTx) : Bool :=
  let boundary := e.at_ / frameNs * frameNs
  match e.kind with
  | 2 => boundary + 5000000 ≤ t
  | 3 => e.at_ + 10000000 ≤ t
  | 4 | 5 => boundary + frameNs ≤ t
  | _ => false

/-- CAN_TX_REMOVAL (R421). -/
def execCanTxRemoval (t : Nat) (s : State) : Host.Outcome State Fault Refusal :=
  let s := s.at_ t
  if s.up then
    .next (forEach [0, 1] (fun p s =>
      let gone := (canPort s p).tx.filter (txExpired t)
      forEach gone (fun _ s => s.raise 0x603E p) (updPort p (fun x => { x with tx := x.tx.filter fun e => !txExpired t e }) s)) s)
  else .next s

/-! Port state. -/

/-- Rate tried after another one (R419). -/
def nextBusRate (r : Nat) : Nat := if r == 125000 then 250000 else if r == 250000 then 500000 else if r == 500000 then 1000000 else 125000

/-- Configuration of the ports, the time role and the stations at Start (R418, R419, R428, R436). -/
def configCan (s : State) : State :=
  let s1 := forEach [0, 1] (fun p s => updPort p (fun _ =>
    if s.parB .canPortEnable p then
      let m := s.parN .canPortMode p
      if m == 0 then { st := 1, rate := s.parN .canPortNominal p, stb := false }
      else if m == 1 then { st := 4, rate := s.parN .canPortNominal p, stb := false }
      else { st := 5, rate := 125000, stb := false, dwellAt := s.time.now }
    else {}) s) s
  s1.modCan fun c => { c with role := s.parN .canTimeRole, refHeard := s.time.now, stations := (List.range 16).map fun k =>
    if (usedStations s).contains k then { st := 1 } else {} }

/-- CAN_ERROR_STATE (R423): the controller is error-active 0, error-passive 1 or bus-off 2. -/
def execCanErrorState (t : Nat) (p : Fin 2) (err : Fin 3) (s : State) : Host.Outcome State Fault Refusal :=
  let s := s.at_ t
  let x := canPort s p.val
  if !s.up || !([1, 2, 3].contains x.st) || x.st == err.val + 1 || (x.st == 3 && (!x.recovering || err.val == 1)) then .next s
  else
    let s1 := updPort p.val (fun x => { x with st := err.val + 1, recovering := false, offAt := if err.val == 2 then some t else none
                                               busoff := if err.val == 2 then x.busoff + 1 else x.busoff }) s
    match err.val with
    | 0 => .next ((s1.clear 0x6030 p.val).clear 0x6031 p.val)
    | 1 => .next (s1.stand 0x6030 p.val true)
    | _ => .next (s1.stand 0x6031 p.val true)

/-- CAN_BUSOFF_RECOVERY (R423). -/
def execCanBusoffRecovery (t : Nat) (p : Fin 2) (s : State) : Host.Outcome State Fault Refusal :=
  let s := s.at_ t
  match (canPort s p.val).offAt with
  | some a => if s.up && (canPort s p.val).st == 3 && decide (a + s.parN .canBusoffWait * 1000000 ≤ t) then .next (updPort p.val (fun x => { x with recovering := true }) s) else .next s
  | none => .next s

/-- CAN_AUTOBAUD (R418, R419): good says that a frame was received without error at the rate being tried; otherwise the dwell has passed. -/
def execCanAutobaud (t : Nat) (p : Fin 2) (good : Bool) (s : State) : Host.Outcome State Fault Refusal :=
  let s := s.at_ t
  let x := canPort s p.val
  if !s.up || x.st != 5 then .next s
  else if good then .next ((updPort p.val (fun x => { x with st := 4, toNormal := s.parN .canPortMode p.val == 3 }) s).raise 0x6032 p.val)
  else if x.dwellAt + s.parN .canAutobaudDwell * 1000000 ≤ t then .next (updPort p.val (fun x => { x with rate := nextBusRate x.rate, dwellAt := t }) s)
  else .next s

/-! The block bus. -/

/-- A block-bus identifier with its Reserved bits at 0 (R6, Table 15-4). -/
def plainId (id : Nat) : Nat := id / 256 * 256 + id % 16

/-- Whether a copy with this identifier and counter was accepted within the last 20 ms (R424). -/
def isCopy (s : State) (id cnt ts : Nat) : Bool := s.can.recent.any fun r => r.1 == plainId id && r.2.1 == cnt && decide (ts ≤ r.2.2 + 20000000)

def noteCopy (id cnt ts : Nat) (s : State) : State :=
  s.modCan fun c => { c with recent := (plainId id, cnt, ts) :: c.recent.filter fun r => decide (ts ≤ r.2.2 + 20000000) }

/-- A block-bus frame whose data length is not that of its type is rejected whole (R426). -/
def rejectLength (p : Nat) (s : State) : State := (updPort p (fun x => { x with lenRej := x.lenRej + 1 }) s).raiseRound 0x6035 p

/-- A SETPOINT that passed its checks (Table 15-5). -/
def useSetpoint (d : List Byte) (ts : Nat) (s : State) : State :=
  let flags := ofLE ((d.drop 9).take 1)
  let s1 := if bit flags 0 then holdBus (signed 32 (ofLE (d.take 4))) ts s else s
  if bit flags 1 then holdAllowBus (ofLE ((d.drop 4).take 2)) (ofLE ((d.drop 6).take 2)) ts s1 else s1

/-- SETPOINT (R424, R426): the oldest one in FIFO 0 of the port. -/
def execSetpoint (t : Nat) (p : Fin 2) (s : State) : Host.Outcome State Fault Refusal :=
  let s := s.at_ t
  match takeFrame (fun f => idClass s f.ext f.id == 1) (canPort s p.val).fifo0 with
  | none => .next s
  | some (f, rest) =>
    let s1 := updPort p.val (fun x => { x with fifo0 := rest }) s
    let cnt := ofLE ((f.data.drop 8).take 1)
    if !s.up then .next s
    else if f.data.length != 12 then .next (rejectLength p.val s1)
    else if isCopy s1 f.id cnt f.ts then .next s1
    else .next (useSetpoint f.data f.ts (noteCopy f.id cnt f.ts s1))

/-- STATUS of Table 15-6 queued on the sending ports (R427), from the frame published; incomplete is the map of strings whose energy is not Good. -/
def sendStatus (mode : Nat) (reference : Int) (eDis eChg safety connected incomplete : Nat) (s : State) : State :=
  let d := toLE 4 (field 32 reference) ++ toLE 4 eDis ++ toLE 4 eChg ++ toLE 1 mode ++ toLE 1 safety
    ++ toLE 1 (connected % 16 + 16 * (incomplete % 16)) ++ toLE 1 s.can.statusCnt
  let e : CanTx := { id := busId s 0x10 (ownPos s), kind := 0, data := d, at_ := s.time.now, tag := 0 }
  forEach (canSendPorts s) (queueCan e) (s.modCan fun c => { c with statusCnt := (c.statusCnt + 1) % 256 })

/-! The time reference. -/

def prio (s : State) : Nat := s.parN .canTimePriority

/-- First 8 bytes of TIME_REF and TIME_FOLLOW (Table 15-7). -/
def refBytes (cnt : Nat) (synced : Bool) (p frame : Nat) : List Byte :=
  toLE 1 cnt ++ toLE 1 (if synced then 1 else 0) ++ toLE 1 p ++ toLE 1 0 ++ toLE 4 frame

/-- Compare unit 12 is set in the frames whose number is a multiple of can.time.period (R429). -/
def armReference (s : State) : State :=
  if s.can.role == 2 && s.time.frame % s.parN .canTimePeriod == 0 then
    s.modTime fun x => { x with compare := updAt x.compare 12 fun _ => { armed := true, c := BitVec.ofNat 32 (s.frameStart + s.parN .canTimeOffset * 1000) } }
  else s

/-- TIME_REF (R429): compare unit 12 fires. -/
def execTimeRef (t : Nat) (s : State) : Host.Outcome State Fault Refusal :=
  let s := s.at_ t
  if s.up && (s.time.compare.getD 12 {}).armed && s.can.role == 2 then
    let cnt := s.can.refCnt
    let s1 := (fireUnit 12 s).modCan fun c => { c with refCnt := (c.refCnt + 1) % 256 }
    .next (forEach (canSendPorts s) (fun p s => queueCan { id := busId s (0x20 + prio s) (ownPos s), kind := 2, data := refBytes cnt s.time.synced p (t / frameNs), at_ := t, tag := 0x8000 + cnt } p s) s1)
  else .next s

/-- TIME_FOLLOW (R429): the oldest stamp of a reference on the port is read and released, and the acting master queues TIME_FOLLOW with it. -/
def execTimeFollow (t : Nat) (p : Fin 2) (s : State) : Host.Outcome State Fault Refusal :=
  let s := s.at_ t
  match s.time.txStamps.find? fun e => e.port == p.val + 2 && decide (0x8000 ≤ e.id) with
  | some e =>
    let s1 := releaseStamp e.id e.port s
    if !s.up then .next s
    else if s.can.role != 2 then .next s1
    else .next (queueCan { id := busId s (0x28 + prio s) (ownPos s), kind := 3, at_ := t, tag := 0
                           data := refBytes (e.id - 0x8000) s.time.synced p.val (e.time / frameNs) ++ toLE 8 e.time } p.val s1)
  | none => .next s

/-- A pair that is used gives the offset sample of source 2 (R430); the copy of it on the other port within 20 ms is not used (R424). -/
def usePair (mid cnt sof time : Nat) (synced : Bool) (t : Nat) (s : State) : State :=
  if (match s.can.pairUsed with | some u => u.1 == mid && u.2.1 == cnt && decide (t ≤ u.2.2 + 20000000) | none => false) || s.can.role == 2 then s
  else
    let s1 := s.modCan fun c => { c with
      pairUsed := some (mid, cnt, t), heldB := c.heldB.filter fun h => !(h.1 == mid && h.2.1 == cnt), masterSync := some (synced, s.time.frame) }
    let s2 := (s1.modTime fun x => { x with lastPair := some t }).clearAll 0x6038
    offsetSample 2 ((sof : Rat) - ((time + s.parN .canTimeDelay : Nat) : Rat)) t s2

/-- A heard TIME_REF: the master is noted, and an acting backup master yields to a lower identifier (R431). -/
def hearMaster (f : CanFrame) (s : State) : State :=
  let s1 := s.modCan fun c => { c with master := some (f.id % 16), refHeard := f.ts }
  if s1.can.role == 2 && s1.parN .canTimeRole == 3 && decide (plainId f.id < busId s1 (0x20 + prio s1) (ownPos s1)) then
    (s1.modCan fun c => { c with role := 3 }).raise 0x6037 0
  else s1

/-- Pairing of a time message (R430). -/
def pairTime (p : Nat) (f : CanFrame) (s : State) : State :=
  let mid := f.id / 256 % 8 * 16 + f.id % 16
  let cnt := ofLE (f.data.take 1)
  let mine (u : Nat × Nat × Nat × Nat × Nat) : Bool := u.1 == p && u.2.1 == mid && u.2.2.1 == cnt
  if isTimeRef (f.id / 256 % 256) then
    (hearMaster f s).modCan fun c => { c with unpaired := (p, mid, cnt, f.sof, f.ts) :: c.unpaired.filter fun u => !mine u }
  else match s.can.unpaired.find? mine with
    | some u =>
      if f.ts ≤ u.2.2.2.2 + 20000000 then
        let s1 := s.modCan fun c => { c with unpaired := c.unpaired.filter fun u => !mine u }
        let time := ofLE ((f.data.drop 8).take 8)
        let synced := bit (ofLE ((f.data.drop 1).take 1)) 0
        if p == 1 && s1.can.unpaired.any (fun v => v.1 == 0 && v.2.1 == mid && v.2.2.1 == cnt) then
          s1.modCan fun c => { c with heldB := some (mid, cnt, u.2.2.2.1, time, synced) }
        else usePair mid cnt u.2.2.2.1 time synced f.ts s1
      else s
    | none => s

/-- TIME_REF_RECEIVED (R426, R430, R431): the oldest time message in FIFO 0 of the port. -/
def execTimeRefReceived (t : Nat) (p : Fin 2) (s : State) : Host.Outcome State Fault Refusal :=
  let s := s.at_ t
  match takeFrame (fun f => idClass s f.ext f.id == 2) (canPort s p.val).fifo0 with
  | none => .next s
  | some (f, rest) =>
    let s1 := updPort p.val (fun x => { x with fifo0 := rest }) s
    let len := if isTimeRef (f.id / 256 % 256) then 8 else 16
    if !s.up then .next s
    else if f.data.length != len then .next (rejectLength p.val s1)
    else if s1.can.role == 0 then .next s1
    else .next (pairTime p.val f s1)

/-- TIME_FOLLOW_UP_MISSING (R430): references unpaired 20 ms after their arrival are discarded; a pair of CANB that waited for CANA is then used. -/
def execTimeFollowUpMissing (t : Nat) (s : State) : Host.Outcome State Fault Refusal :=
  let s := s.at_ t
  if !s.up then .next s
  else
    let old (u : Nat × Nat × Nat × Nat × Nat) : Bool := decide (u.2.2.2.2 + 20000000 < t)
    let gone := s.can.unpaired.filter old
    let s1 := s.modCan fun c => { c with unpaired := c.unpaired.filter fun u => !old u }
    let s2 := forEach gone (fun u s => s.stand 0x6038 u.1 true) s1
    match s2.can.heldB with
    | some (mid, cnt, sof, time, synced) =>
      if gone.any fun u => u.1 == 0 && u.2.1 == mid && u.2.2.1 == cnt then .next (usePair mid cnt sof time synced t (s2.modCan fun c => { c with heldB := none })) else .next s2
    | none => .next s2

/-- TIME_MASTER_TAKEOVER (R431). -/
def execTimeMasterTakeover (t : Nat) (s : State) : Host.Outcome State Fault Refusal :=
  let s := s.at_ t
  let wait := (s.parN .canTimeTakeover * s.parN .canTimePeriod + prio s) * frameNs
  if s.up && s.can.role == 3 && decide (s.can.refHeard + wait ≤ t) then .next (judgeHoldover t ((s.modCan fun c => { c with role := 2 }).raise 0x6036 0)) else .next s

/-! CANopen. -/

/-- Queues a CANopen frame on the port of the manager. -/
def coSend (kind id : Nat) (d : List Byte) (s : State) : State :=
  if s.parN .canCoPort < 2 then queueCan { id := id, kind := kind, data := d, at_ := s.time.now, tag := 0 } (s.parN .canCoPort) s else s

/-- Takes the oldest CANopen frame whose function code is among those given. -/
def takeCo (codes : List Nat) (s : State) : Option (CanFrame × State) :=
  let p := s.parN .canCoPort
  (takeFrame (fun f => codes.contains (f.id / 0x80)) (canPort s p).fifo1).map fun r => (r.1, updPort p (fun x => { x with fifo1 := r.2 }) s)

/-- A heartbeat or boot-up of a station in use (R436). -/
def heartbeatOf (k : Nat) (ts : Nat) (s : State) : State :=
  let s1 := updStation k (fun x => { x with hbAt := ts }) s
  match (station s k).st with
  | 1 => coSend 7 (0x600 + (stationCfg s k).node) [0x40, 0x00, 0x10, 0x00, 0, 0, 0, 0] (updStation k (fun x => { x with st := 2 }) s1)
  | 4 => updStation k (fun x => { x with st := 1, missed := 0 }) s1
  | _ => s1

/-- CANOPEN_HEARTBEAT (R435, R436). -/
def execCanopenHeartbeat (t : Nat) (s : State) : Host.Outcome State Fault Refusal :=
  let s := s.at_ t
  match takeCo [14] s with
  | none => .next s
  | some (f, s1) =>
    if !s.up then .next s
    else match stationOf s (f.id % 0x80) with
      | some k => .next (heartbeatOf k f.ts s1)
      | none =>
        if s.can.unknown.contains (f.id % 0x80) then .next s1
        else .next ((s1.modCan fun c => { c with unknown := f.id % 0x80 :: c.unknown }).raise 0x603B (f.id % 0x80))

/-- Answer of the upload of object 0x1000 (R436): the value of an expedited response, or none for an abort. -/
def sdoAnswer (d : List Byte) : Option (Option Nat) :=
  let idx := ofLE ((d.drop 1).take 3)
  let c := ofLE (d.take 1)
  if d.length != 8 || idx != 0x1000 then none
  else if c == 0x80 then some none
  else if c / 0x20 == 2 then some (some (ofLE ((d.drop 4).take 4)))
  else none

/-- CANOPEN_SDO_RESPONSE (R436). -/
def execCanopenSdoResponse (t : Nat) (s : State) : Host.Outcome State Fault Refusal :=
  let s := s.at_ t
  match takeCo [11] s with
  | none => .next s
  | some (f, s1) =>
    match s.up, stationOf s (f.id % 0x80), sdoAnswer f.data with
    | false, _, _ => .next s
    | true, some k, some v =>
      let want := (stationCfg s k).devType
      if (station s k).st != 2 then .next s1
      else if want == 0 || v == some want then
        let s2 := updStation k (fun x => { x with st := 3, missed := 0 }) s1
        .next (coSend 6 0 [1, BitVec.ofNat 8 (stationCfg s k).node] ((s2.clear 0x6039 k).clear 0x603A k))
      else .next ((updStation k (fun x => { x with st := 5 }) s1).stand 0x603A k true)
    | true, _, _ => .next s1

/-- A station's input image closes (R438): complete when every TPDO is in hand, otherwise a missed cycle. -/
def closeStation (g k : Nat) (s : State) : State :=
  let n := (stationCfg s k).tpdo
  updStation k (fun x =>
    if (List.range n).all fun j => (x.got.lookup j).isSome then
      { x with image := some ((List.range n).flatMap (fun j => (x.got.lookup j).getD []), g), missed := 0, got := [] }
    else { x with missed := x.missed + 1, got := [] }) s

/-- The input images of a SYNC close for its frame, up to frame upTo (R438). -/
def closeStations (upTo : Nat) (s : State) : State :=
  match s.can.syncFrame with
  | some g => if g ≤ upTo then (forEach (usedStations s) (closeStation g) s).modCan fun c => { c with syncFrame := none } else s
  | none => s

/-- Instant at which the SYNC of frame n is queued (R437). -/
def coSyncAt (s : State) (n : Nat) : Nat := n * frameNs + s.parN .canCoSyncOffset * 1000

/-- CANOPEN_SYNC (R437): once in a frame of the cycle, at can.co.sync_offset. Images of an earlier SYNC that are still open close with what has come (DESIGN CHOICE, log 31). -/
def execCanopenSync (t : Nat) (s : State) : Host.Outcome State Fault Refusal :=
  let s := s.at_ t
  let n := s.time.frame
  if s.up && s.time.framesOn && decide (s.parN .canCoPort < 2) && n % s.parN .canCoPeriod == 0 && t == coSyncAt s n && s.can.syncFrame != some n then
    .next (coSend 4 0x80 [] ((closeStations n s).modCan fun c => { c with syncFrame := some n }))
  else .next s

/-- CANOPEN_TPDO (R438): on time after its SYNC and up to 4.0 ms after the boundary of the frame behind it. -/
def execCanopenTpdo (t : Nat) (s : State) : Host.Outcome State Fault Refusal :=
  let s := s.at_ t
  match takeCo [3, 5, 7, 9] s with
  | none => .next s
  | some (f, s1) =>
    match s.up, stationOf s (f.id % 0x80), s.can.syncFrame with
    | false, _, _ => .next s
    | true, some k, g =>
      let j := (f.id / 0x80 - 3) / 2
      if f.data.length != 8 then .next (updStation k (fun x => { x with discarded := x.discarded + 1 }) s1)
      else match g with
        | some n => if coSyncAt s n < f.ts && f.ts ≤ (n + 1) * frameNs + 4000000 then
            .next (updStation k (fun x => { x with got := (j, (List.range 4).map fun i => ofLE ((f.data.drop (2 * i)).take 2)) :: x.got }) s1) else .next s1
        | none => .next s1
    | true, none, _ => .next s1

/-- CANOPEN_EMCY (R432). -/
def execCanopenEmcy (t : Nat) (s : State) : Host.Outcome State Fault Refusal :=
  let s := s.at_ t
  match takeCo [1] s with
  | none => .next s
  | some (f, s1) =>
    match s.up, stationOf s (f.id % 0x80) with
    | false, _ => .next s
    | true, some k => .next (s1.raise 0x603C k)
    | true, none => .next s1

/-- A station leaves Operational (R464, R465). While outputs of a cycle latched before wait for a CANopen cycle boundary they are discarded, it counts as absent at the next latch, and it gets safe values on its return. -/
def leaveOperational (s : State) (x : Station) : Station :=
  let waits := match s.prog.latched with | some g => decide (s.time.frame / s.parN .canCoPeriod * s.parN .canCoPeriod < g + 2) | none => false
  { x with st := 4, present := x.present && !waits, opSince := false, dropped := waits, safeOut := x.safeOut || waits }

/-- CANOPEN_STATION_ABSENT (R436). -/
def execCanopenStationAbsent (t : Nat) (k : Fin 16) (s : State) : Host.Outcome State Fault Refusal :=
  let s := s.at_ t
  let x := station s k.val
  if s.up && x.st == 3 && (decide (x.hbAt + (stationCfg s k.val).hbMs * 1000000 < t) || decide (s.parN .canCoMiss ≤ x.missed)) then
    .next ((updStation k.val (leaveOperational s) s).stand 0x6039 k.val true)
  else .next s

/-- Work of a frame boundary: a port whose rate was found turns normal (Table 15-2), and unit 12 is set. -/
def canFrame (s : State) : State :=
  armReference (forEach [0, 1] (fun p s => updPort p (fun x => if x.toNormal then { x with st := 1, toNormal := false } else x) s) s)

/-! Commit check of R434. -/

/-- Identifiers of Table 15-4 under a base: SETPOINT and STATUS of every position, and the time messages. -/
def busIdInUse (base id : Nat) : Bool :=
  id / 65536 * 65536 == base && id % 256 < 16 && (let t := id / 256 % 256; t == 1 || t == 0x10 || isTimeRef t || isTimeFollow t)

def canOk (ps : List (ParamKey × Int)) (st : List StationCfg) : Bool :=
  let v (p : PName) (i : Nat := 0) : Nat := (paramIn ps { p := p, i := i }).toNat
  let on := (st.take 16).filter fun e => e.enabled && e.node != 0
  let frames := 1 + (on.map fun e => e.tpdo + e.rpdo).foldl (· + ·) 0
  let port := v .canCoPort
  (on.map (·.node)).Nodup
    && !busIdInUse (v .canBbBase) (v .safeFslCanRx) && !busIdInUse (v .canBbBase) (v .safeFslCanTx)
    && (decide (2 ≤ port) || decide (135 * frames * 200 ≤ v .canPortNominal port * v .canCoPeriod))

end Sys2Proof.Machine
end

