-- ==== Sys2Proof/Machine/SafetyCore.lean ====
section
/-!
DEFINITION. SafetyCore: chapter 11, the safety core: the hazards it finds in the published Comb, cross-monitoring, latches and scopes,
the reset request and the decision of the two-part reset.
-/
namespace Sys2Proof.Machine

/-- The value of a stored pair with the later write sequence (R503). -/
def pairLater {α : Type} (p : Pair α) : Option α :=
  match p.a, p.b with
  | some (i, x), some (j, y) => if j ≤ i then some x else some y
  | some (_, x), none => some x
  | none, some (_, y) => some y
  | none, none => none

/-- Confirmed generation and SCV: none when the two copies differ (R338, R503). -/
def confirmed (s : State) : Option (Nat × Nat) :=
  match s.boot.confirm.a, s.boot.confirm.b with
  | some (_, x), some (_, y) => if x == y then some x else none
  | some (_, x), none => some x
  | none, some (_, y) => some y
  | none, none => none

/-! Hazards found by the safety core (R315, Table 11-3). -/

/-- A frame mean current of the Comb, A; none while Invalid. -/
def meanAmp (it : Item) : Option Rat := if it.q == .invalid then none else some ((it.val : Rat) / 100)

/-- T_max and T_min as the safety core counts them, 0.1 degC: Invalid counts as 125.0 degC (R315). -/
def hotTemp (it : Item) : Int := if it.q == .invalid then 1250 else it.val

def evaluates (q : Quality) : Bool := q == .good || q == .held

/-- Comparator configuration of an enrolled brick fails SF14 (Table 11-3, R141). -/
def cmpFault (s : State) (j : Nat) : Bool :=
  let f := s.forg j
  f.uid.isSome && match f.diag with
    | some d => !thrMatch s d
    | none => decide (f.cmpFrom + (cpar s .safeCmpT).toNat * 1000000000 ≤ s.time.now)

/-- Frame means of currents A and B of string n differ beyond the limit of SF2. -/
def plausBad (s : State) (n : Nat) : Bool :=
  let v := s.asSeen
  match meanAmp (v.estr n).aItem, meanAmp (v.estr n).bItem with
  | some a, some b => decide (f32.rat (cpar s .safeCalGain (4 * n)).toNat / 200 < ratAbs (a - b))
  | _, _ => false

/-- Hazards of string n that the published Comb shows; none before the first frame is published (R315). -/
def coreString (s : State) (n : Nat) : BitVec 32 :=
  if !cored s n || s.comb.published.isNone then 0
  else
    let v := s.asSeen
    let a := meanAmp (v.estr n).aItem
    let b := meanAmp (v.estr n).bItem
    let above (x : Option Rat) : Bool := match x with | some v => decide ((cpar s .safeOcI : Rat) / 10 < ratAbs v) | none => false
    let cells := stringCells v n
    let t := v.tstr n
    let charging := match (v.loop n).pub.i with | some i => decide ((cpar s .safeChgI : Rat) / 10 < i) | none => false
    sfIf 1 (above a || above b) |||
    sfIf 2 (decide ((cpar s .safeIplausT).toNat ≤ 10 * s.core.plausRun.getD n 0)) |||
    sfIf 3 (a.isNone || b.isNone) |||
    sfIf 10 (cells.any fun c => evaluates c.v.q && decide (cpar s .safeCellOv ≤ c.v.val)) |||
    sfIf 11 (cells.any fun c => evaluates c.v.q && decide (c.v.val ≤ cpar s .safeCellUv)) |||
    sfIf 12 ((charging && (decide (cpar s .safeCellChgHi ≤ hotTemp t.tMax) || decide (hotTemp t.tMin ≤ cpar s .safeCellChgLo))) || decide (cpar s .safeCellDisHi ≤ hotTemp t.tMax)) |||
    sfIf 13 ((((s.core.monitor.drop (576 * n)).take 576)).any fun k => decide ((cpar s .safeMonitorLossT).toNat ≤ 10 * k)) |||
    sfIf 14 (cpar s .safeCmpEnforce == 1 && (List.range (cellCount s n / 16)).any fun b => cmpFault v (brickInst n b)) |||
    sfIf 17 ((v.loop n).pub.st == .stopLane)

/-- Connection ID of consumed connection k (Table 12-10). -/
def connId (s : State) (k : Nat) : Nat := if k < 4 then (cpar s .safeResetConn k).toNat else (cpar s .safeFslTrip (k - 4)).toNat

/-- SF19 counts as present: a trip connection has expired or is not yet synchronised (Table 12-6). -/
def tripPresent (s : State) : Bool := [4, 5, 6, 7].any fun k =>
  connId s k != 0 && (let st := (s.core.conns.getD k {}).st; st == .expired || st == .unsync)

/-- Hazards of the group present at the safety core. -/
def coreGroup (s : State) : BitVec 32 :=
  let v := s.asSeen
  let busHigh := (List.range 4).any fun n => cored s n && s.comb.published.isSome && match (v.loop n).pub.vb with | some v => decide ((cpar s .safeVbusMax : Rat) < v) | none => false
  let hot := match v.therm.dieMax with | some t => decide (1250 ≤ t) | none => false
  sfIf 4 busHigh ||| sfIf 18 hot ||| sfIf 19 (tripPresent s) ||| sfIf 20 (s.core.faults != 0) ||| sfIf 21 (!s.core.scvOk)

def coreHazards (s : State) : List (BitVec 32) := (List.range 4).map (coreString s) ++ [coreGroup s]

/-- Every hazard of a scope, as found by either channel. -/
def scopeHazards (s : State) (k : Nat) : BitVec 32 := (coreHazards s).getD k 0 ||| s.guard.hazards.getD k 0

/-! Latches (R320, R322). -/

def scopeSt (s : State) (k : Nat) : Scope := s.core.scope.getD k .start

/-- The safety core latches a scope with causes (R322, Table 11-6). -/
def coreLatch (k : Nat) (c : BitVec 32) (s : State) : State :=
  if c == 0 then s
  else
    let was := s.core.latch.getD k false
    let s1 := s.modCore fun x => { x with
      latch := updAt x.latch k fun _ => true, causes := updAt x.causes k (· ||| c)
      scope := updAt x.scope k fun st => match st with | .armed => .tripping | .resetArmed => .locked | .start => .locked | st => st }
    if was then s1 else if k == 4 then s1.raise 0x5002 0 else s1.raise 0x5001 k

/-- Causes that latch a scope whatever its state: trip, channel, SCV and reset input faults (R323, R354). -/
def startCauses : BitVec 32 := sf 20 ||| sf 21 ||| sf 22

/-- The scope of each hazard detected is latched; in state Start a hazard only withholds the permits (R317, R323). -/
def latchHazards (s : State) : State :=
  let h := coreHazards s
  forEach (List.range 5) (fun k s =>
    let c := h.getD k 0
    coreLatch k (if scopeSt s k == .start then c &&& startCauses else if k == 4 then c &&& ~~~(sf 19) else c) s)
    (s.modCore fun x => { x with hazards := h })

/-- Sticky bits of the status port are read, latched and cleared (R321, R322). -/
def readSticky (s : State) : State :=
  let st := s.guard.sticky
  forEach (List.range 5) (fun k s => coreLatch k (st.getD k 0) s) (s.modGuard fun g => { g with sticky := List.replicate 5 0 })

/-- Latches and causes are written to their two MRAM copies when they have changed (R322). -/
def storeLatches (s : State) : State :=
  let v := (s.core.latch, s.core.causes)
  if (pairLater s.boot.latchStore) == some v then s else s.modBoot fun b => { b with latchStore := writePair b.latchStore v }

/-! Cross-monitoring by the safety core (R316). -/

/-- Guard mean over the interval of Comb frame g: the ten latest one-millisecond means that end by its sample instant. -/
def guardInterval (s : State) (i g : Nat) : Option Rat :=
  let at_ := sampleAt s g
  let ends (hb : Nat) : Nat := s.guard.hbAt - (s.guard.heartbeat + 0x100000000 - hb) % 0x100000000 * 1000000
  let xs := (((gchan s i).means.filter fun m => decide (ends m.1 ≤ at_)).take 10).filterMap (·.2)
  if xs.length == 10 then some (xs.foldl (· + ·) 0 / 10) else none

/-- Current mean of channel i (A, B of string i / 2) differs from the Comb by more than safe.xcheck.i. -/
def meansDiffer (s : State) (i g : Nat) : Bool :=
  let e := s.asSeen.estr (i / 2)
  match guardInterval s i g, meanAmp (if i % 2 == 0 then e.aItem else e.bItem) with
  | some a, some b => cored s (i / 2) && decide ((cpar s .safeXcheckI : Rat) / 10 < ratAbs (a - b))
  | _, _ => false

/-- An output is on while a permit of its string is withdrawn: GATE_ENn, or a contactor output past its 20 ms (Table 11-2, R326). -/
def readBackBad (s : State) : Bool :=
  (List.range 4).any fun n => !permits s n && (gateEn s n ||
    ((ctrOut s n 0 || ctrOut s n 1 || ctrOut s n 2) && match s.guard.gateLowAt.getD n none with | some g => decide (g + 20000000 < s.time.now) | none => true))

/-- Channel faults found by the checks of Table 11-2 as they stand: 0 safety core, 1 Guard, 2 permit stage, 3 current means. -/
def channelFaults (s : State) (selfOk : Bool) : BitVec 4 :=
  (if selfOk then 0 else 1) ||| (if 2 ≤ s.core.hbRun || s.guard.scvBad || (match s.core.scvConf with | some v => s.guard.scv != v | none => false) then 2 else 0) |||
  (if readBackBad s then 4 else 0) ||| (if s.core.meanRun.any fun k => decide (10 ≤ k) then 8 else 0)

/-- Checks of Table 11-2 made by the safety core; selfOk is the outcome of its own clock and line checks. -/
def crossMonitor (g : Nat) (selfOk : Bool) (s : State) : State :=
  let hb := s.guard.heartbeat
  let adv := match s.core.hbLast with | some l => (hb + 0x100000000 - l) % 0x100000000 | none => 10
  let hbRun := if adv < 9 || 11 < adv then s.core.hbRun + 1 else 0
  let runs := (List.range 8).map fun i => if meansDiffer s i g then s.core.meanRun.getD i 0 + 1 else 0
  let s1 := s.modCore fun c => { c with hbLast := some hb, hbRun := hbRun, meanRun := runs, aliveOn := selfOk
                                        plausRun := c.plausRun.mapIdx fun n k => if plausBad s n then k + 1 else 0 }
  let s2 := forEach (List.range 4) (fun n s => s.stand 0x5012 n (decide (0 < runs.getD (2 * n) 0) || decide (0 < runs.getD (2 * n + 1) 0))) s1
  let f := channelFaults s2 selfOk
  let s3 := s2.modCore fun c => { c with faults := f, faultsHeld := c.faultsHeld ||| f }
  if f == 0 then s3 else s3.stand 0x500D 0 true

/-- Loss-of-monitoring counts of R319 for the published frame. -/
def monitorStep (s : State) : State :=
  if !s.core.counting || s.comb.published.isNone then s
  else
    let v := s.asSeen
    let per (n : Nat) : List Nat := (List.range 576).map fun p =>
      if cored s n && p < cellCount s n && enrolled v n (p / 16) then
        (if evaluates (v.cell (576 * n + p)).v.q then 0 else s.core.monitor.getD (576 * n + p) 0 + 1)
      else 0
    s.modCore fun c => { c with monitor := per 0 ++ per 1 ++ per 2 ++ per 3 }

/-! The two-part reset (R330, R333). -/

/-- RESET_N reads high and is in neither fault (R330). -/
def resetPinOk (s : State) : Bool := s.guard.resetHigh && !s.guard.stuck && !s.guard.inFault

/-- First condition of R330 that does not hold, by its place in the list; 0 when all hold. -/
def resetReason (s : State) (named : List Nat) : Nat :=
  if !(named.all fun k => scopeSt s k == .locked) then 2
  else if !resetPinOk s then 3
  else if !s.core.scvOk then 4
  else if named.any fun k => scopeHazards s k != 0 then 5
  else 0

/-- A RESET_REQUEST that its connection accepted (R330): ts is its hardware timestamp. -/
def resetRequest (mask request ts : Nat) (s : State) : State :=
  let named := (List.range 5).filter fun k => bit mask k
  let r := resetReason s named
  if r != 0 then s.raise 0x5004 (evArg r 0)
  else
    (s.modCore fun c => { c with tAcc := some ts, lastReq := request, scope := c.scope.mapIdx fun k st => if named.contains k then .resetArmed else st }).raise 0x5003 0

/-- A scope becomes Armed: its latch and causes go, and the events that last until then clear (Table 11-13). -/
def armScope (k : Nat) (s : State) : State :=
  let s1 := s.modCore fun c => { c with
    latch := updAt c.latch k fun _ => false, causes := updAt c.causes k fun _ => 0, scope := updAt c.scope k fun _ => .armed }
  if k == 4 then (((s1.modCore fun c => { c with faultsHeld := c.faults }).clear 0x5002 0).clear 0x500A 0).clear 0x500D 0
  else (s1.clear 0x5001 k).clear 0x500C k

/-- The safety core reads a valid press (R333): channel faults whose checks pass no longer stand. -/
def decideReset (s : State) : State :=
  match s.guard.press with
  | none => s
  | some (f, r) =>
    let s1 := s.modGuard fun g => { g with press := none }
    match s.core.tAcc with
    | none => s1
    | some a =>
      if a < f && pressEnd s r ≤ a + 10000000000 then
        let s2 := s1.modCore fun c => { c with tAcc := none }
        forEach ((List.range 5).filter fun k => scopeSt s k == .resetArmed) (fun k s =>
          if scopeHazards s k == 0 && !(s.guard.latch.getD k {}).on then (armScope k s).raise 0x5006 (scopeArg k)
          else (s.modCore fun c => { c with scope := updAt c.scope k fun _ => .locked }).raise 0x5007 (scopeArg k)) s2
      else s1

/-- GATE_EN is low and the contactor outputs are released for every string of the scope (Table 11-6). -/
def scopeReleased (s : State) (k : Nat) : Bool :=
  (List.range 4).all fun n => (k != 4 && k != n) || (!gateEn s n && !ctrOut s n 0 && !ctrOut s n 1 && !ctrOut s n 2)

/-- Transitions of Table 11-6 that need no request: Start to Armed (R323) and Tripping to Locked. -/
def scopeStep (k : Nat) (s : State) : State :=
  match scopeSt s k with
  | .start =>
    if s.core.latch.getD k false then s.modCore fun c => { c with scope := updAt c.scope k fun _ => .locked }
    else if s.core.scvOk && s.guard.granted.getD k false && scopeHazards s k == 0 then armScope k s
    else s
  | .tripping => if scopeReleased s k then s.modCore fun c => { c with scope := updAt c.scope k fun _ => .locked } else s
  | _ => s

/-- Permits of the safety core: its scope and the group Armed (R320, R323). -/
def setPermits (s : State) : State :=
  s.modCore fun c => { c with permit := (List.range 4).map fun n => cored s n && c.scope.getD n .start == .armed && c.scope.getD 4 .start == .armed }

end Sys2Proof.Machine
end

