-- ==== Sys2Proof/Machine/Fsl.lean ====
section
/-!
DEFINITION. Fsl: chapter 12, the safety layer: the endpoint buffer, the consumer checks, the watchdogs and STATUS, and the evaluation of
the safety core that takes them (R315).
-/
namespace Sys2Proof.Machine

def fslConn (s : State) (k : Nat) : FslConn := s.core.conns.getD k {}
def updConn (k : Nat) (f : FslConn → FslConn) (s : State) : State := s.modCore fun c => { c with conns := updAt c.conns k f }

/-- A unit discarded and counted for the module (Table 12-7). -/
def rejectUnit (s : State) : State := (s.modCore fun c => { c with rejected := c.rejected + 1 }).raiseRound 0x5020 0

/-- A channel is set in safe.fsl.channels (R352): 0 UDP, 1 CAN FD. -/
def fslChannel (s : State) (k : Nat) : Bool := bit (cpar s .safeFslChannels).toNat k

/-- A unit enters the endpoint buffer of 32 (R352). -/
def bufferUnit (u : FslUnit) (s : State) : State :=
  if !fslChannel s (if u.can then 1 else 0) then s
  else if 32 ≤ s.core.buffer.length then rejectUnit s
  else s.modCore fun c => { c with buffer := c.buffer ++ [u] }

/-- FSL_UNIT_RECEIVED (R352): a UDP datagram to safe.fsl.udp.port, over either LAN, with its hardware timestamp, or the oldest FSL frame in FIFO 0 of a CAN port. -/
def execFslUnitReceived (t : Nat) (u : UnitFrom) (s : State) : Host.Outcome State Fault Refusal :=
  let s := s.at_ t
  if !s.up then .next s
  else match u with
    | .udp h bytes =>
      if laterCopy t h s then .next s
      else
        let s1 := noteFrame t h s
        .next (if udpTaken s (cpar s .safeFslUdpPort).toNat h then bufferUnit { bytes := bytes, can := false, ts := t } s1 else s1)
    | .can p =>
      match takeFrame (fun f => idClass s f.ext f.id == 3) (canPort s p.val).fifo0 with
      | some (f, rest) => .next (bufferUnit { bytes := f.data, can := true, ts := f.ts } (updPort p.val (fun x => { x with fifo0 := rest }) s))
      | none => .next s

/-! Consumer checks (R353). -/

/-- The PDU fields of Table 12-2 that the checks read. -/
def pduLen (bs : List Byte) : Nat := ofLE ((bs.drop 11).take 1)
def pduConn (bs : List Byte) : Nat := ofLE (bs.take 4)
def pduSeq (bs : List Byte) : Nat := ofLE ((bs.drop 4).take 4)
def pduWd (bs : List Byte) : Nat := ofLE ((bs.drop 8).take 2)
def pduType (bs : List Byte) : Nat := ofLE ((bs.drop 10).take 1)
def pduBody (bs : List Byte) : List Byte := (bs.drop 12).take (pduLen bs)

/-- Smallest CAN FD data length that holds a PDU (R352). -/
def canLen (n : Nat) : Nat := if n ≤ 16 then 16 else if n ≤ 20 then 20 else if n ≤ 24 then 24 else if n ≤ 32 then 32 else 48

/-- Check 1: length. -/
def lengthOk (u : FslUnit) : Bool :=
  let n := 16 + pduLen u.bytes
  decide (16 ≤ u.bytes.length) && decide (pduLen u.bytes ≤ 32) && (if u.can then u.bytes.length == canLen n else u.bytes.length == n)

/-- Check 2: the consumed connection that a unit names (R346: an ID of 0 names none). -/
def connOf (s : State) (id : Nat) : Option Nat := if id == 0 then none else (List.range 8).find? fun k => connId s k == id

/-- Check 3: CRC over the configured ID and the PDU (R348). -/
def fslCrcOk (id : Nat) (bs : List Byte) : Bool :=
  let n := 12 + pduLen bs
  crcFsl (toLE 4 id ++ bs.take n) == ofLE ((bs.drop n).take 4)

/-- Check 4: the type is permitted on the connection and its len matches (Table 12-1). -/
def typeOk (k : Nat) (bs : List Byte) : Bool :=
  match pduType bs with
  | 1 => pduLen bs == 0
  | 2 => decide (4 ≤ k) && pduLen bs == 4
  | 3 => decide (k < 4) && pduLen bs == 4
  | _ => false

/-- Check 5. -/
def wdOk (s : State) (bs : List Byte) : Bool := decide (cpar s .safeFslWdMin ≤ (pduWd bs : Int)) && decide ((pduWd bs : Int) ≤ cpar s .safeFslWdMax)

/-- Check 6: distance of the sequence number from the last accepted one; none when any passes. -/
def seqDist (c : FslConn) (bs : List Byte) : Option Nat :=
  if c.st == .unsync || c.st == .start then none else c.lastSeq.map fun l => (pduSeq bs + 0x100000000 - l) % 0x100000000

/-! Connection states (Table 12-6). -/

/-- SF19 is detected: the group is latched (R354, R355). -/
def tripGroup (s : State) : State := coreLatch 4 (sf 19) s

/-- A Running connection expires; a trip connection latches the group (Table 12-6). -/
def expireConn (k : Nat) (s : State) : State :=
  let s1 := updConn k (fun c => { c with st := .expired }) s
  if 4 ≤ k then tripGroup s1 else s1

/-- The deadline of a connection has passed with no unit accepted (R355, event 0x5023). -/
def watchdogExpire (k : Nat) (s : State) : State := (expireConn k s).stand 0x5023 k true

/-- An error of a connection; at safe.fsl.err_max in a round a Running connection expires (R355, R356). -/
def connError (code k : Nat) (s : State) : State :=
  let s1 := updConn k (fun c => { c with errs := c.errs + 1, errsRound := c.errsRound + 1 }) (if code == 0x5022 then s.raise code k else s.raiseRound code k)
  if (cpar s .safeFslErrMax).toNat == (fslConn s1 k).errsRound then
    (if (fslConn s1 k).st == .running then expireConn k s1 else s1).raiseRound 0x5024 k
  else s1

/-- A unit that passed every check (R353, R355): a unit later than the deadline finds its connection expired. Before the end of Start no connection leaves its state (Table 12-6). -/
def acceptUnit (k : Nat) (u : FslUnit) (s : State) : State :=
  if (fslConn s k).st == .start then s else
  let s1 := if (fslConn s k).st == .running && (fslConn s k).deadline < u.ts then watchdogExpire k s else s
  let was := (fslConn s1 k).st
  let s2 := updConn k (fun c => { c with st := .running, lastSeq := some (pduSeq u.bytes), deadline := u.ts + pduWd u.bytes * 1000000 }) s1
  let s3 := (s2.clear 0x5022 k).clear 0x5023 k
  if was != .running then s3.raise 0x5026 k
  else if pduType u.bytes == 3 then
    let d := pduBody u.bytes
    resetRequest (ofLE (d.take 1) % 32) (ofLE ((d.drop 2).take 2)) u.ts s3
  else s3

/-- Argument of 0x5025: low byte of the reason in bits 31:24, its high byte in bits 23:16, the connection in bits 15:0 (log 8). -/
def tripArg (reason k : Nat) : Nat := evArg (reason % 256) (reason / 256 % 256 * 65536 + k)

/-- Checks 3 to 6 on a unit that names connection k. -/
def checkUnit (k : Nat) (u : FslUnit) (s : State) : State :=
  if !fslCrcOk (connId s k) u.bytes then connError 0x5021 k s
  else if !typeOk k u.bytes then connError 0x5027 k s
  else
    let s1 := if pduType u.bytes == 2 then (tripGroup s).raise 0x5025 (tripArg (ofLE ((pduBody u.bytes).take 2)) k) else s
    if !wdOk s u.bytes then connError 0x5027 k s1
    else match seqDist (fslConn s k) u.bytes with
      | none => acceptUnit k u s1
      | some d =>
        if d == 0 then s1.modCore fun c => { c with duplicates := c.duplicates + 1 }
        else if d ≤ (cpar s .safeFslSeqWindow).toNat then acceptUnit k u s1
        else connError 0x5022 k s1

/-- All checks of R353 on one unit. -/
def takeUnit (u : FslUnit) (s : State) : State :=
  if !lengthOk u then rejectUnit s
  else match connOf s (pduConn u.bytes) with
    | some k => checkUnit k u s
    | none => rejectUnit s

/-- The units stamped at or before an instant, taken in timestamp order (R353). -/
def takeUnits (upTo : Nat) (s : State) : State :=
  let due := sortBy (fun (a b : FslUnit) => decide (a.ts ≤ b.ts)) (s.core.buffer.filter fun u => decide (u.ts ≤ upTo))
  forEach due takeUnit (s.modCore fun c => { c with buffer := c.buffer.filter fun u => !decide (u.ts ≤ upTo) })

/-- Watchdog deadlines are checked after the units (R355, R44). -/
def checkWatchdogs (upTo : Nat) (s : State) : State :=
  forEach (List.range 8) (fun k s => if (fslConn s k).st == .running && decide ((fslConn s k).deadline ≤ upTo) then watchdogExpire k s else s) s

/-- FSL_WATCHDOG_EXPIRY (R355): at the evaluation of a frame, once the units stamped by 5.0 ms are taken, the deadline of connection k has passed. -/
def execFslWatchdogExpiry (t : Nat) (k : Fin 8) (s : State) : Host.Outcome State Fault Refusal :=
  let s := s.at_ t
  let upTo := s.frameStart + 5000000
  if s.running && decide (upTo ≤ t ∧ t ≤ upTo + 1000000) then
    let s1 := takeUnits upTo s
    .next (storeLatches (setPermits (if (fslConn s1 k.val).st == .running && decide ((fslConn s1 k.val).deadline ≤ upTo) then watchdogExpire k.val s1 else s1)))
  else .next s

/-! STATUS (R351, Table 12-5). -/

/-- Code of a scope state (Table 11-12). -/
def scopeCode : Scope → Nat
  | .armed => 0 | .tripping => 1 | .locked => 2 | .resetArmed => 3 | .start => 4

/-- RESET_N state item: 0 high, 1 low, 2 stuck, 3 input fault. -/
def resetState (s : State) : Nat := if s.guard.inFault then 3 else if s.guard.stuck then 2 else if s.guard.resetHigh then 0 else 1

def statusBody (g : Nat) (s : State) : List Byte :=
  let permitBits : Nat := ((List.range 4).map fun n => if s.core.permit.getD n false && guardPermit s n then 2 ^ n else 0).foldl (· + ·) 0
  toLE 1 (scopeCode (scopeSt s 4)) ++ ((List.range 4).flatMap fun n => toLE 1 (scopeCode (scopeSt s n)))
    ++ toLE 1 (permitBits + (if safeOutA s then 16 else 0) + (if safeOutB s then 32 else 0)) ++ toLE 1 (resetState s) ++ toLE 1 0
    ++ toLE 4 (s.core.causes.getD 4 0).toNat ++ toLE 4 g ++ toLE 4 (match confirmed s with | some c => c.2 | none => 0) ++ toLE 2 s.core.lastReq

/-- A PDU with its CRC (Table 12-2, R348). -/
def fslPdu (id seq wd typ : Nat) (body : List Byte) : List Byte :=
  let p := toLE 4 id ++ toLE 4 seq ++ toLE 2 wd ++ toLE 1 typ ++ toLE 1 body.length ++ body
  p ++ toLE 4 (crcFsl (toLE 4 id ++ p))

/-- STATUS of the evaluation of Comb frame g, sent over the channels in use (R349, R351, R352). -/
def fslStatus (g : Nat) (s : State) : State :=
  let id := (cpar s .safeFslStatusConn).toNat
  if id == 0 || s.time.frame % (cpar s .safeFslStatusPeriod).toNat != 0 then s
  else
    let pdu := fslPdu id s.core.statusSeq (cpar s .safeFslStatusWd).toNat 0x10 (statusBody g s)
    let s1 := s.modCore fun c => { c with statusSeq := (c.statusSeq + 1) % 0x100000000, statusSent := c.statusSeq }
    let s2 := if fslChannel s 0 && cpar s .safeFslStatusAddr != 0 then s1.send (.fslStatus (cpar s .safeFslUdpPort).toNat (cpar s .safeFslStatusAddr).toNat (cpar s .safeFslStatusPort).toNat pdu) else s1
    if fslChannel s 1 then
      forEach (canSendPorts s) (queueCan { id := (cpar s .safeFslCanTx).toNat, kind := 1, at_ := s.time.now, tag := 0
                                           data := pdu ++ List.replicate (canLen pdu.length - pdu.length) 0xCC }) s2
    else s2

/-! The evaluation (R315). -/

/-- SAFETY_EVALUATION: selfOk is the outcome of the safety core's own checks of its clock and its SRAM lines (Table 11-2). In the frames of Start no scope is granted and none is reset (R323). -/
def safetyEvaluation (selfOk : Bool) (s : State) : State :=
  let g := s.time.frame - 1
  let upTo := s.frameStart + 5000000
  let s1 := crossMonitor g selfOk (monitorStep (readSticky s))
  let s2 := latchHazards s1
  let s3 := checkWatchdogs upTo (takeUnits upTo s2)
  let s5 := if s.running then forEach (List.range 5) (fun k s => scopeStep k (scopeStep k s)) (decideReset s3) else s3
  let s6 := storeLatches (setPermits s5)
  fslStatus g (s6.modCore fun c => { c with evalDone := true })

/-- The safety core evaluates its frames: from the first boundary after step 7 of Start on (R315, R351). -/
def evaluating (s : State) : Bool := s.up && s.time.framesOn && s.core.params.isSome && !s.core.evalDone

/-- SAFETY_EVALUATION (R315): once in every frame, from 5.0 ms to 6.0 ms. -/
def execSafetyEvaluation (t : Nat) (selfOk : Bool) (s : State) : Host.Outcome State Fault Refusal :=
  let s := s.at_ t
  if evaluating s && decide (s.frameStart + 5000000 ≤ t) && decide (t ≤ s.frameStart + 6000000) then .next (safetyEvaluation selfOk s) else .next s

/-- SAFETY_EVALUATION_MISSED (R45, R316): not done by 6.0 ms: the alive line stops and the group is latched with SF20. -/
def execSafetyEvaluationMissed (t : Nat) (s : State) : Host.Outcome State Fault Refusal :=
  let s := s.at_ t
  if evaluating s && decide (s.frameStart + 6000000 ≤ t) then
    .next (storeLatches (setPermits (coreLatch 4 (sf 20) (partFault 0 (s.modCore fun c => { c with aliveOn := false })))))
  else .next s

end Sys2Proof.Machine
end

