-- ==== Sys2Proof/Machine/Blocks.lean ====
section
/-!
DEFINITION. Blocks: the block library of the cyclic program (R451 to R456, Table 16-6): variables, conversions and one function per
block. A numeric value is an Int: the binary32 pattern when the block computes in float32, the integer otherwise.
-/
namespace Sys2Proof.Machine

/-! Variables (R448, R452). -/

/-- Limits of an integer type. -/
def intLimits : Nat → Int × Int
  | 1 => (0, 255) | 2 => (0, 65535) | 3 => (0, 4294967295) | 5 => (-128, 127) | 6 => (-32768, 32767) | 7 => (-2147483648, 2147483647)
  | _ => (0, 1)

/-- Value that a variable's bits stand for; the pattern itself for float32. R7 calls a bool of another value than 0 and 1 invalid and names no reaction: an image with such an initial or safe value is accepted and bit 0 counts (DESIGN CHOICE, log 43). -/
def loadVal (typ : Nat) (b : BitVec 32) : Int :=
  match typ with
  | 5 => signed 8 b.toNat | 6 => signed 16 b.toNat | 7 => signed 32 b.toNat
  | 1 => ((b.toNat % 256 : Nat) : Int) | 2 => ((b.toNat % 65536 : Nat) : Int) | 10 => ((b.toNat % 2 : Nat) : Int)
  | _ => (b.toNat : Int)

/-- Value of a float32 pattern as an integer: nearest, ties away from zero, saturated; NaN gives 0 (R452). -/
def floatToInt (lo hi : Int) (p : Nat) : Int :=
  match f32.val p with
  | .nan => 0
  | .inf neg => if neg then lo else hi
  | .fin _ q => clampInt lo hi (nearestAway q)

def floatNonZero (p : Nat) : Bool := match f32.val p with | .fin _ q => q != 0 | _ => true

/-- A value entering a variable of a type (R452); fl says that the value is a float32 pattern. -/
def storeVal (typ : Nat) (fl : Bool) (v : Int) : BitVec 32 :=
  if typ == 9 then BitVec.ofNat 32 (if fl then v.toNat else toF32 (v : Rat))
  else if typ == 10 then (if (if fl then floatNonZero v.toNat else v != 0) then 1 else 0)
  else
    let l := intLimits typ
    BitVec.ofInt 32 (if fl then floatToInt l.1 l.2 v.toNat else clampInt l.1 l.2 v)

def progImage (s : State) : ProgImage := s.prog.active.getD { period := 1, version := 0, vars := [], insts := [], raw := [] }
def varDef (s : State) (i : Nat) : VarDef := (progImage s).vars.getD i {}

/-- Bits of a variable as a read gives them: those of its force while it is forced (R451). -/
def varBits (s : State) (i : Nat) : BitVec 32 := (s.prog.forces.lookup i).getD (s.prog.vars.getD i 0)

/-- A write by a block: discarded for a forced variable (R451). -/
def writeBits (i : Nat) (b : BitVec 32) (s : State) : State :=
  if (s.prog.forces.lookup i).isSome then s else s.modProg fun p => { p with vars := updAt p.vars i fun _ => b }

/-- A variable as a number of the block's arithmetic: a float32 pattern, or an integer. -/
def numIn (s : State) (fl : Bool) (i : Nat) : Int :=
  let d := varDef s i
  let v := loadVal d.typ (varBits s i)
  if fl then (if d.typ == 9 then v else (toF32 (v : Rat) : Int)) else if d.typ == 9 then floatToInt (-2147483648) 2147483647 v.toNat else v

def boolIn (s : State) (i : Nat) : Bool := storeVal 10 ((varDef s i).typ == 9) (loadVal (varDef s i).typ (varBits s i)) == 1
def intIn (s : State) (i : Nat) : Int := numIn s false i

/-- A numeric result enters an output: an integer result is an int32 (R452). -/
def numOut (fl : Bool) (v : Int) (i : Nat) (s : State) : State :=
  writeBits i (storeVal (varDef s i).typ fl (if fl then v else clampInt (-2147483648) 2147483647 v)) s

def boolOut (b : Bool) (i : Nat) (s : State) : State := writeBits i (storeVal (varDef s i).typ false (if b then 1 else 0)) s

/-- A value that moves from variable to variable is converted once (R452). -/
def moveVar (src dst : Nat) (s : State) : State :=
  let d := varDef s src
  writeBits dst (if d.typ == (varDef s dst).typ then varBits s src else storeVal (varDef s dst).typ (d.typ == 9) (loadVal d.typ (varBits s src))) s

/-! Arithmetic of numeric blocks (R452, R456). -/

/-- An int64 intermediate; the value past its range is left open (log 3). -/
def i64 (v : Int) : Int := if -9223372036854775808 ≤ v ∧ v ≤ 9223372036854775807 then v else (Config.openRat 20 (v : Rat)).floor

def f2 (op : Nat → Nat → Nat) (a b : Int) : Int := (op a.toNat b.toNat : Int)
def numAdd (fl : Bool) (a b : Int) : Int := if fl then f2 f32.add a b else i64 (a + b)
def numSub (fl : Bool) (a b : Int) : Int := if fl then f2 f32.sub a b else i64 (a - b)
def numMul (fl : Bool) (a b : Int) : Int := if fl then f2 f32.mul a b else i64 (a * b)
/-- Quotient; the integer division truncates (Table 16-6), and one by 0 gives 0 (R456). -/
def numDiv (fl : Bool) (a b : Int) : Int := if fl then f2 f32.div a b else Int.tdiv a b
def numLt (fl : Bool) (a b : Int) : Bool := if fl then f32.lt a.toNat b.toNat else decide (a < b)
def numEq (fl : Bool) (a b : Int) : Bool := if fl then f32.eq a.toNat b.toNat else a == b
def numLe (fl : Bool) (a b : Int) : Bool := numLt fl a b || numEq fl a b

/-- The smaller and the larger of two numbers; with a NaN the result is left open (log 3). -/
def numOpen (fl : Bool) (a b : Int) : Bool := fl && (f32.isNan a.toNat || f32.isNan b.toNat)
def numMin (fl : Bool) (a b : Int) : Int := if numOpen fl a b then ((Config.openNat 21 % 2 ^ 32 : Nat) : Int) else if numLt fl b a then b else a
def numMax (fl : Bool) (a b : Int) : Int := if numOpen fl a b then ((Config.openNat 21 % 2 ^ 32 : Nat) : Int) else if numLt fl a b then b else a
def numClamp (fl : Bool) (lo v hi : Int) : Int := if numLt fl v lo then lo else if numLt fl hi v then hi else v
def numOfRat (fl : Bool) (q : Rat) : Int := if fl then (toF32 q : Int) else if q < 0 then -((-q).floor) else q.floor
def ratOfNum (fl : Bool) (v : Int) : Rat := if fl then f32.rat v.toNat else (v : Rat)

/-- A number times a factor of time: in float32 the factor is rounded first; an integer result truncates. -/
def numScale (fl : Bool) (v : Int) (q : Rat) : Int := if fl then f2 f32.mul v (toF32 q : Int) else numOfRat false ((v : Rat) * q)

def numAbs (fl : Bool) (v : Int) : Int := if fl then (f32.abs v.toNat : Int) else (v.natAbs : Int)

/-- Quality codes (Table 3-5). -/
def qualityCode : Quality → Nat
  | .good => 0 | .held => 1 | .stale => 2 | .missing => 3 | .inconsistent => 4 | .substituted => 5 | .invalid => 6

/-! Instances. -/

/-- Values that the latch holds for the cycle (R443). -/
structure LatchIn where
  frame : Nat                                   -- N
  sampleTime : Nat
  look : List (Nat × (Nat × Item))              -- COMB_IN items of Comb frame N: key, type code, item
  synced : Bool
  imageAge : List Nat                           -- Station image age items
  present : List Nat                            -- stations present
  deriving DecidableEq, Repr

def instSt (s : State) (id : Nat) : InstSt := (s.prog.insts.lookup id).getD {}

def setInst (id : Nat) (x : InstSt) (s : State) : State :=
  s.modProg fun p => { p with insts := (id, x) :: p.insts.filter (·.1 != id) }

def arithFault (s : State) : State := s.modProg fun p => { p with faults := p.faults + 1 }

/-- State words and outputs of a timer (R455): q and ET. -/
def timerStep (kind : Nat) (inp : Bool) (pt dtMs : Int) (x : InstSt) : InstSt × Bool × Int :=
  let rise := inp && x.a == 0
  let fall := !inp && x.a == 1
  let x1 := { x with a := if inp then 1 else 0 }
  let later := min (x.b + dtMs) pt
  match kind with
  | 0x0A =>
    let et := if !inp || rise then 0 else later
    ({ x1 with b := et }, inp && decide (pt ≤ et), et)
  | 0x0B =>
    let et := if inp || fall then 0 else if x.c == 1 then later else x.b
    let c : Int := if inp then 0 else if fall then 1 else x.c
    ({ x1 with b := et, c := c }, inp || (c == 1 && decide (et < pt)), et)
  | _ =>
    let et := if x.c == 1 then later else if x.c == 0 then 0 else x.b
    let c : Int := if x.c == 0 && rise then 1 else x.c
    let above := c == 1 && decide (pt ≤ et)
    let c2 : Int := if above then 2 else c
    let idle := c2 == 2 && !inp
    ({ x1 with b := if idle then 0 else et, c := if idle then 0 else c2 }, c2 == 1, if idle then 0 else et)

/-- State words and outputs of a counter: rising edges are found against the stored inputs; b is CV. -/
def satInc (v : Int) : Int := min 2147483647 (v + 1)
def satDec (v : Int) : Int := max (-2147483648) (v - 1)

def counterStep (kind : Nat) (cu cd r ld : Bool) (pv : Int) (x : InstSt) : InstSt :=
  let up := cu && x.a == 0
  let dn := cd && x.c == 0
  let b := match kind with
    | 0x0D => if r then 0 else if up then satInc x.b else x.b
    | 0x0E => if ld then pv else if dn then satDec x.b else x.b
    | _ => if r then 0 else if ld then pv else if up && dn then x.b else if up then satInc x.b else if dn then satDec x.b else x.b
  { x with a := if cu then 1 else 0, c := if cd then 1 else 0, b := b }

/-- Boolean and edge blocks 0x02 to 0x09. -/
def boolBlock (typ : Nat) (xs : List Bool) (x : InstSt) : InstSt × Bool :=
  let a := xs.getD 0 false
  let b := xs.getD 1 false
  let keep (q : Bool) : InstSt × Bool := ({ x with a := if q then 1 else 0 }, q)
  match typ with
  | 0x02 => (x, xs.all id)
  | 0x03 => (x, xs.any id)
  | 0x04 => (x, a != b)
  | 0x05 => (x, !a)
  | 0x06 => keep (a || (x.a == 1 && !b))
  | 0x07 => keep (!b && (a || x.a == 1))
  | 0x08 => ({ x with a := if a then 1 else 0 }, a && x.a == 0)
  | _ => ({ x with a := if a then 1 else 0 }, !a && x.a == 1)

/-- Comparison blocks 0x10 to 0x15. -/
def compareBlock (typ : Nat) (fl : Bool) (a b : Int) : Bool :=
  match typ with
  | 0x10 => numEq fl a b | 0x11 => !numEq fl a b | 0x12 => numLt fl b a | 0x13 => numLe fl b a | 0x14 => numLt fl a b | _ => numLe fl a b

/-- Arithmetic blocks with one result, 0x16 to 0x1D and 0x22: the result, and whether it is an arithmetic fault (R456). -/
def arithBlock (typ : Nat) (fl : Bool) (xs : List Int) : Int × Bool :=
  let z (k : Nat) : Int := xs.getD k 0
  let fold (f : Int → Int → Int) : Int := xs.tail.foldl f (z 0)
  match typ with
  | 0x16 => (fold (numAdd fl), false)
  | 0x17 => (numSub fl (z 0) (z 1), false)
  | 0x18 => (fold (numMul fl), false)
  | 0x19 => if !fl && z 1 == 0 then (0, true) else (numDiv fl (z 0) (z 1), false)
  | 0x1A => (numAbs fl (z 0), false)
  | 0x1B => (fold (numMin fl), false)
  | 0x1C => (fold (numMax fl), false)
  | 0x1D => (numClamp fl (z 0) (z 1) (z 2), false)
  | _ =>
    if numEq fl (z 1) (z 2) then (z 3, true)
    else (numAdd fl (z 3) (numDiv fl (numMul fl (numSub fl (z 0) (z 1)) (numSub fl (z 4) (z 3))) (numSub fl (z 2) (z 1))), false)

/-- Blocks that follow a value in time, 0x23 to 0x26: a holds OUT, Q or I; dt is in ns. A FILTER with T = 0 follows IN, KI of PI is per second, and e drives the output by the sign of KI x e (log 32). -/
def flowBlock (typ : Nat) (fl : Bool) (xs : List Int) (dt : Nat) (x : InstSt) : InstSt × Int :=
  let z (k : Nat) : Int := xs.getD k 0
  match typ with
  | 0x23 =>
    let q : Int := if numLe fl (z 1) (z 0) then 1 else if numLe fl (z 0) (z 2) then 0 else x.a
    ({ x with a := q }, q)
  | 0x24 =>
    let t := ratOfNum fl (z 1) * 1000000
    let k : Rat := if t == 0 then 1 else min 1 ((dt : Rat) / t)
    let o := if x.fresh then z 0 else numAdd fl x.a (numScale fl (numSub fl (z 0) x.a) k)
    ({ x with a := o }, o)
  | 0x25 =>
    let step := numScale fl (z 1) ((dt : Rat) / 1000000000)
    let d := numSub fl (z 0) x.a
    let o := if x.fresh then z 0
      else if numLt fl step d then numAdd fl x.a step
      else if numLt fl d (numSub fl (numOfRat fl 0) step) then numSub fl x.a step
      else z 0
    ({ x with a := o }, o)
  | _ =>
    let e := numSub fl (z 0) (z 1)
    let zero := numOfRat fl 0
    let u := numAdd fl (numMul fl (z 2) e) x.a
    let ke := numMul fl (z 3) e
    let push := (numLe fl (z 5) u && numLt fl zero ke) || (numLe fl u (z 4) && numLt fl ke zero)
    ({ x with a := if push then x.a else numAdd fl x.a (numScale fl ke ((dt : Rat) / 1000000000)) }, numClamp fl (z 4) u (z 5))

/-- The oldest latched entry of a capture input is removed (CAP_IN), while its reader is the program (R377). -/
def popCapture (k : Nat) (s : State) : Option CapEntry × State :=
  match if s.parN .timeCapReader k == 1 then s.time.capture.getD k [] else [] with
  | [] => (none, s)
  | e :: es => (some e, s.modTime fun x => { x with capture := updAt x.capture k fun _ => es })

/-- A block of Table 16-6 that computes in float32: some variable of it is float32 (R452). -/
def blockFloat (s : State) (d : InstDef) : Bool := ((d.ins.take d.nIn) ++ (d.outs.take d.nOut)).any fun i => (varDef s i).typ == 9

/-- Writes output k of an instance, when it is used. -/
def outK (d : InstDef) (k : Nat) (f : Nat → State → State) (s : State) : State :=
  if k < d.nOut then f (d.outs.getD k 0xFFFF) s else s

/-- Reading blocks 0x29 to 0x30. -/
def readBlock (l : LatchIn) (d : InstDef) (x : InstSt) (s : State) : State :=
  let inp (k : Nat) : Nat := d.ins.getD k 0xFFFF
  match d.typ with
  | 0x29 =>
    match l.look.lookup d.param with
    | some (typ, it) =>
      let s1 := outK d 0 (fun o s => writeBits o (storeVal (varDef s o).typ (typ == 9) it.val) s) s
      let s2 := outK d 1 (numOut false ((qualityCode it.q : Nat) : Int)) s1
      (outK d 2 (fun o s => writeBits o (storeVal (varDef s o).typ false ((it.age.getD 0xFFFFFF : Nat) : Int)) s) s2).clear 0x700B (d.param % 0x1000000)
    | none => (outK d 2 (fun o s => writeBits o (storeVal (varDef s o).typ false 0xFFFFFF) s) (outK d 1 (numOut false 6) s)).stand 0x700B (d.param % 0x1000000) true
  | 0x2A => outK d 0 (boolOut (let q := intIn s (inp 0); decide (0 ≤ q) && bit d.param q.toNat)) s
  | 0x2B =>
    let b := varBits s (inp 0)
    let t := (varDef s (inp 0)).typ
    setInst d.id { x with a := (b.toNat : Int), fresh := false } (outK d 0 (fun o s => writeBits o (storeVal (varDef s o).typ (t == 9) (loadVal t (BitVec.ofInt 32 x.a))) s) s)
  | 0x2C => if boolIn s (inp 1) then outK d 0 (moveVar (inp 0)) s else s
  | 0x2D => outK d 1 (numOut false ((l.imageAge.getD d.param 255 : Nat) : Int)) (outK d 0 (boolOut (l.present.contains d.param)) s)
  | 0x2E =>
    match popCapture d.param s with
    | (some e, s1) =>
      let dt := clampInt (-2147483648) 2147483647 ((e.time : Int) - (l.sampleTime : Int))
      outK d 2 (boolOut e.falling) (outK d 1 (numOut false dt) (outK d 0 (boolOut true) s1))
    | (none, s1) => outK d 0 (boolOut false) s1
  | 0x2F =>
    let on := boolIn s (inp 0)
    let s1 := setInst d.id { x with a := if on then 1 else 0 } s
    if on && x.a == 0 then (s1.modProg fun p => { p with userEv := p.userEv ||| BitVec.ofNat 64 (2 ^ (d.param % 64)) }).stand (0x7080 + d.param) 0 true
    else if !on && x.a == 1 then (s1.modProg fun p => { p with userEv := p.userEv &&& ~~~(BitVec.ofNat 64 (2 ^ (d.param % 64))) }).clear (0x7080 + d.param) 0
    else s1
  | _ =>
    let s1 := outK d 0 (fun o s => writeBits o (storeVal (varDef s o).typ false ((l.frame % 2 ^ 32 : Nat) : Int)) s) s
    outK d 2 (boolOut l.synced) (outK d 1 (numOut false ((l.frame % 100 : Nat) : Int)) s1)

/-- One instance is executed (R451, Table 16-6); dt is the time since its previous latch. -/
def execInst (l : LatchIn) (d : InstDef) (s : State) : State :=
  let x := instSt s d.id
  let dt : Nat := match x.last with | some p => l.sampleTime - p | none => 0
  let ins := d.ins.take d.nIn
  let inp (k : Nat) : Nat := d.ins.getD k 0xFFFF
  let fl := blockFloat s d
  let nums := ins.map (numIn s fl)
  let put (x' : InstSt) (s : State) : State := setInst d.id { x' with fresh := false, last := some l.sampleTime } s
  if d.typ == 0x01 || d.typ == 0x20 || d.typ == 0x21 then put x (outK d 0 (moveVar (inp 0)) s)
  else if d.typ ≤ 0x09 then
    let r := boolBlock d.typ (ins.map (boolIn s)) x
    put r.1 (outK d 0 (boolOut r.2) s)
  else if d.typ ≤ 0x0C then
    let r := timerStep d.typ (boolIn s (inp 0)) (intIn s (inp 1)) (nearest ((dt : Rat) / 1000000)) x
    put r.1 (outK d 1 (numOut false r.2.2) (outK d 0 (boolOut r.2.1) s))
  else if d.typ ≤ 0x0E then
    let c := boolIn s (inp 0)
    let y := counterStep d.typ (d.typ == 0x0D && c) (d.typ == 0x0E && c) (boolIn s (inp 1)) (boolIn s (inp 1)) (intIn s (inp 2)) x
    let q := if d.typ == 0x0D then decide (intIn s (inp 2) ≤ y.b) else decide (y.b ≤ 0)
    put y (outK d 1 (numOut false y.b) (outK d 0 (boolOut q) s))
  else if d.typ == 0x0F then
    let y := counterStep 0x0F (boolIn s (inp 0)) (boolIn s (inp 1)) (boolIn s (inp 2)) (boolIn s (inp 3)) (intIn s (inp 4)) x
    put y (outK d 2 (numOut false y.b) (outK d 1 (boolOut (decide (y.b ≤ 0))) (outK d 0 (boolOut (decide (intIn s (inp 4) ≤ y.b))) s)))
  else if d.typ ≤ 0x15 then put x (outK d 0 (boolOut (compareBlock d.typ fl (nums.getD 0 0) (nums.getD 1 0))) s)
  else if d.typ ≤ 0x1D || d.typ == 0x22 then
    let r := arithBlock d.typ fl nums
    let s1 := outK d 0 (numOut fl r.1) s
    put x (if r.2 then arithFault s1 else s1)
  else if d.typ == 0x1E then put x (outK d 0 (moveVar (if boolIn s (inp 0) then inp 2 else inp 1)) s)
  else if d.typ == 0x1F then
    let k := intIn s (inp 0)
    let ok := decide (0 ≤ k) && decide (k ≤ (d.nIn : Int) - 2)
    let s1 := outK d 0 (moveVar (inp (if ok then k.toNat + 1 else 1))) s
    put x (if ok then s1 else arithFault s1)
  else if d.typ ≤ 0x26 then
    let r := flowBlock d.typ fl nums dt x
    put r.1 (outK d 0 (if d.typ == 0x23 then boolOut (r.2 == 1) else numOut fl r.2) s)
  else if d.typ == 0x27 then put x (outK d 0 (boolOut ((BitVec.ofInt 32 (loadVal (varDef s (inp 0)).typ (varBits s (inp 0)))).getLsbD d.param)) s)
  else if d.typ == 0x28 then
    let sum : Nat := ((List.range d.nIn).map fun j => if boolIn s (inp j) then 2 ^ (d.param + j) else 0).foldl (· + ·) 0
    put x (outK d 0 (fun o s => writeBits o (storeVal (varDef s o).typ false (sum : Int)) s) s)
  else
    let s1 := readBlock l d x s
    setInst d.id { instSt s1 d.id with fresh := false, last := some l.sampleTime } s1

end Sys2Proof.Machine
end

