-- ==== Sys2Proof/Machine/Program.lean ====
section
/-!
DEFINITION. Program: chapter 16, the cyclic program: its image and checks, the cycle, program commands, forces, online change, safe
values, remote stations, loading and reading.
-/
namespace Sys2Proof.Machine

/-! The image (R447 to R450). -/

def varOf (bs : List Byte) : VarDef := { typ := rd 1 0 bs, kind := rd 1 1 bs, pin := rd 1 2 bs, init := BitVec.ofNat 32 (rd 4 4 bs), safe := BitVec.ofNat 32 (rd 4 8 bs) }

def instOf (bs : List Byte) : InstDef :=
  { id := rd 4 0 bs, typ := rd 1 4 bs, nIn := rd 1 5 bs, nOut := rd 1 6 bs
    ins := (List.range 6).map fun k => rd 2 (8 + 2 * k) bs, outs := (List.range 4).map fun k => rd 2 (0x14 + 2 * k) bs, param := rd 4 0x1C bs }

def imageOf (bs : List Byte) : ProgImage :=
  let nv := rd 2 8 bs
  { period := rd 1 3 bs, version := rd 4 4 bs, vars := (chunks 16 nv (bs.drop 32)).map varOf
    insts := (chunks 32 (rd 2 10 bs) (bs.drop (32 + 16 * nv))).map instOf, raw := bs }

/-- Header and length of an image (Table 16-3, R447). -/
def headOk (bs : List Byte) : Bool :=
  let nv := rd 2 8 bs
  let ni := rd 2 10 bs
  decide (32 ≤ bs.length) && rd 2 0 bs == 0x5047 && rd 1 2 bs == 1 && [1, 2, 5, 10].contains (rd 1 3 bs) && rd 4 4 bs != 0
    && decide (1 ≤ nv ∧ nv ≤ 8192) && decide (1 ≤ ni ∧ ni ≤ 4096) && bs.length == 32 + 16 * nv + 32 * ni && decide (bs.length ≤ 262176)
    && crc32 (bs.take 12 ++ [0, 0, 0, 0] ++ bs.drop 16) == rd 4 12 bs

/-- Pins named by a thermal or time output (R450). -/
def outputPins (ps : List (ParamKey × Int)) : List Int :=
  ((List.range 4).flatMap fun n => [paramIn ps { p := .thermCoolGpio, i := n }, paramIn ps { p := .thermHeatGpio, i := n }])
    ++ (List.range 8).map fun k => paramIn ps { p := .timeOutGpio, i := k }

/-- Station entry and word of a station variable: kind 2 in the input range, kind 3 in the output range (R433, R448). -/
def stationVar (s : State) (kind i : Nat) : Option (Nat × Nat) :=
  (usedStations s).findSome? fun k =>
    let c := stationCfg s k
    let base := if kind == 2 then c.inBase else c.outBase
    let n := 4 * (if kind == 2 then c.tpdo else c.rpdo)
    if base ≤ i && i < base + n then some (k, i - base) else none

/-- A variable entry breaks Table 16-4, R448 or the pin rule. -/
def varBad (s : State) (i : Nat) (v : VarDef) : Bool :=
  v.typ != 0 && !([1, 2, 3, 5, 6, 7, 9, 10].contains v.typ && v.kind ≤ 5
    && (if v.kind == 4 || v.kind == 5 then decide (v.pin < 16) && v.typ == 10 && !(outputPins s.boot.run.params).contains (v.pin : Int) else v.pin == 255)
    && ((v.kind != 2 && v.kind != 3) || (v.typ == 2 && (stationVar s v.kind i).isSome)))

/-- Least and greatest input count and output count of a block (Table 16-6). -/
def blockShape (t : Nat) : Option (Nat × Nat × Nat) :=
  if t == 0x02 || t == 0x03 || t == 0x16 || t == 0x18 || t == 0x1B || t == 0x1C then some (2, 6, 1)
  else if [0x01, 0x05, 0x08, 0x09, 0x1A, 0x20, 0x21, 0x27, 0x2A, 0x2B].contains t then some (1, 1, 1)
  else if t == 0x04 || t == 0x06 || t == 0x07 || (0x10 ≤ t && t ≤ 0x15) || t == 0x17 || t == 0x19 || t == 0x24 || t == 0x25 || t == 0x2C then some (2, 2, 1)
  else if 0x0A ≤ t && t ≤ 0x0C then some (2, 2, 2)
  else if t == 0x0D || t == 0x0E then some (3, 3, 2)
  else if t == 0x0F then some (5, 5, 3)
  else if t == 0x1D || t == 0x1E || t == 0x23 then some (3, 3, 1)
  else if t == 0x1F then some (3, 6, 1)
  else if t == 0x22 then some (5, 5, 1)
  else if t == 0x26 then some (6, 6, 1)
  else if t == 0x28 then some (1, 6, 1)
  else if t == 0x29 || t == 0x2E || t == 0x30 then some (0, 0, 3)
  else if t == 0x2D then some (0, 0, 2)
  else if t == 0x2F then some (1, 1, 0)
  else none

/-- Parameter of a block within Table 16-6; a block without a parameter carries 0. -/
def blockParam (t p : Nat) : Bool :=
  if t == 0x27 then p < 32 else if t == 0x28 then p < 27 else if t == 0x29 || t == 0x2A then true
  else if t == 0x2D then p < 16 else if t == 0x2E then p < 8 else if t == 0x2F then p < 64 else p == 0

/-- An instance record breaks R450, apart from repeated IDs and outputs. -/
def instBad (s : State) (vars : List VarDef) (d : InstDef) : Bool :=
  let used (i : Nat) : Bool := (vars.getD i {}).typ != 0
  match blockShape d.typ with
  | none => true
  | some (lo, hi, no) =>
    !(d.id != 0 && lo ≤ d.nIn && d.nIn ≤ hi && d.nOut ≤ no && (no == 0 || 1 ≤ d.nOut) && blockParam d.typ d.param
      && (d.ins.take d.nIn).all used && (d.outs.take d.nOut).all used
      && (d.ins.drop d.nIn).all (· == 0xFFFF) && (d.outs.drop d.nOut).all (· == 0xFFFF)
      && (d.outs.take d.nOut).all (fun i => !([1, 2, 4].contains (vars.getD i {}).kind))
      && (d.typ != 0x29 || s.comb.map.any fun e => e.1 == d.param && e.2.1 != 4 && e.2.1 != 8)
      && (d.typ != 0x2D || (usedStations s).contains d.param)
      && (d.typ != 0x2E || s.parN .timeCapReader d.param == 1))

/-- Position of the first element that a test of it and its predecessors refuses. -/
def firstBad {α : Type} (bad : Nat → α → List α → Bool) : Nat → List α → List α → Option Nat
  | _, _, [] => none
  | k, seen, x :: xs => if bad k x seen then some k else firstBad bad (k + 1) (x :: seen) xs

/-- Index of the first failing entry or instance of an image; none when it passes (R450). -/
def progFault (s : State) (bs : List Byte) : Option Nat :=
  if !headOk bs then some 0
  else
    let p := imageOf bs
    match firstBad (fun i v seen => varBad s i v || (v.typ != 0 && v.kind == 5 && seen.any fun u => u.typ != 0 && u.kind == 5 && u.pin == v.pin)) 0 [] p.vars with
    | some k => some k
    | none => firstBad (fun _ d seen => instBad s p.vars d || seen.any (fun e => e.id == d.id)
        || !(d.outs.take d.nOut).Nodup || (d.outs.take d.nOut).any fun i => seen.any fun e => (e.outs.take e.nOut).contains i) 0 [] p.insts

/-- No thermal or time output of a commit names a pin that the active or staged program uses (R450). -/
def progPinsOk (s : State) (ps : List (ParamKey × Int)) : Bool :=
  let pins (o : Option ProgImage) : List Int := match o with
    | some p => (p.vars.filter fun v => v.typ != 0 && (v.kind == 4 || v.kind == 5)).map fun v => (v.pin : Int)
    | none => []
  !((pins s.prog.active ++ pins s.prog.staged).any fun k => (outputPins ps).contains k)

/-! States and outputs (R445, R459, R463). -/

/-- A transition of Table 16-2, with event 0x7004. -/
def toProg (st : ProgSt) (s : State) : State := if s.prog.st == st then s else (s.modProg fun p => { p with st := st }).raise 0x7004 0

/-- Indices of the variables of some kinds. -/
def varsOfKind (s : State) (ks : List Nat) : List Nat :=
  (List.range (progImage s).vars.length).filter fun i => (varDef s i).typ != 0 && ks.contains (varDef s i).kind

def initVars (s : State) : List (BitVec 32) := (progImage s).vars.map (·.init)

/-- Outputs of kinds 3 and 5 as their variables stand, forces included. -/
def outputValues (s : State) : List (Nat × BitVec 32) := (varsOfKind s [3, 5]).map fun i => (i, varBits s i)

/-- Variables of kinds 3 and 5 take their safe values, and the outputs with them. -/
def safeValues (s : State) : State :=
  s.modProg fun p => { p with safe := true, safeNext := false, outNext := none
                              vars := p.vars.mapIdx fun i b => let d := varDef s i; if d.typ != 0 && (d.kind == 3 || d.kind == 5) then d.safe else b }

/-- Initialisation (R453): instance state of Table 16-6, and the init values of the kinds 0, 3 and 5. -/
def initProg (s : State) : State :=
  s.modProg fun p => { p with insts := [], vars := p.vars.mapIdx fun i b => let d := varDef s i; if [0, 1, 3, 5].contains d.kind then d.init else b }

/-- Stop: safe values from the next boundary. -/
def stopProg (st : ProgSt) (s : State) : State := (toProg st s).modProg fun p => { p with safeNext := true, outNext := none, began := false }

/-- The program is stopped by an overrun: outputs of the cycle are discarded (R462). -/
def overrunProg (s : State) : State :=
  (stopProg .overrun (s.modProg fun p => { p with vars := if p.began then p.before else p.vars })).stand 0x7002 0 true

/-- A Program mode command at a cycle boundary (Table 16-2). -/
def modeCmd (code : Nat) (s : State) : State :=
  match code, s.prog.st with
  | 0, .stop => ((toProg .run (initProg s)).modProg fun p => { p with safeNext := false }).clear 0x7002 0
  | 0, .overrun => (toProg .run (initProg s)).clear 0x7002 0
  | 0, .hold => toProg .run s
  | 1, .run => stopProg .stop s
  | 1, .hold => stopProg .stop s
  | 2, .run => if s.boot.mode == .operate then s.raise 0x700A 0 else toProg .hold s
  | _, _ => s

/-- Entry of the module into Operate stops a held program (R445). -/
def progOperate (s : State) : State := if s.prog.st == .hold then (stopProg .stop s).raise 0x700D 0 else s

/-! Forces (R457 to R459) and online change (R460, R461). -/

def forceVar (i : Nat) (b : BitVec 32) (s : State) : State :=
  if (s.prog.forces.lookup i).isNone && 64 ≤ s.prog.forces.length then s.raise 0x7008 0
  else (s.modProg fun p => { p with forces := (i, b) :: p.forces.filter (·.1 != i) }).raise 0x7007 i

def releaseForce (i : Nat) (s : State) : State :=
  match s.prog.forces.lookup i with
  | some b => (s.modProg fun p => { p with forces := p.forces.filter (·.1 != i), vars := updAt p.vars i fun _ => b }).raise 0x7007 i
  | none => s

/-- Whether variable i stays the same variable in a new program (Table 16-7). -/
def sameVar (o n : ProgImage) (i : Nat) : Bool :=
  let a := o.vars.getD i {}
  let b := n.vars.getD i {}
  a.typ != 0 && a.typ == b.typ && a.kind == b.kind

/-- The staged program becomes the active one (R460, Table 16-7), and is written to its MRAM copies (R468). -/
def activateProg (version : Nat) (s : State) : State :=
  match s.prog.staged with
  | none => s.raise 0x7003 0
  | some n =>
    if n.version != version then s.raise 0x7003 0
    else
      let o := progImage s
      let kept (f : Nat × BitVec 32) : Bool := sameVar o n f.1
      let lost := s.prog.forces.filter fun f => !kept f
      let vars := n.vars.mapIdx fun i d => if sameVar o n i && d.kind != 1 then s.prog.vars.getD i d.init else d.init
      let inst := s.prog.insts.filter fun x => n.insts.any fun d => d.id == x.1 && o.insts.any fun e => e.id == d.id && e.typ == d.typ
      let outs := (List.range n.vars.length).filterMap fun i =>
        let d := n.vars.getD i {}
        if d.typ != 0 && (d.kind == 3 || d.kind == 5) then some (i, if sameVar o n i then (s.prog.outNow.lookup i).getD d.init else d.init) else none
      let s1 := s.modProg fun p => { p with active := some n, staged := none, vars := vars, insts := inst, forces := p.forces.filter kept, outNow := outs }
      let s2 := forEach lost (fun f s => s.raise 0x7009 f.1) (s1.modBoot fun b => { b with progStore := writePair b.progStore n })
      let s3 := (s2.raise 0x7005 0).clear 0x700E 0
      if s3.prog.st == .none then safeValues (toProg .stop s3) else s3

/-- One program command takes effect (R446). -/
def applyCmd (c : ProgCmd) (s : State) : State :=
  match c with
  | .activate v => activateProg v s
  | .release i => releaseForce i s
  | .force i b => forceVar i b s
  | .mode k => modeCmd k s

/-- Order of the kinds at a cycle boundary (R446). -/
def cmdKind : ProgCmd → Nat
  | .activate _ => 0 | .release _ => 1 | .force _ _ => 2 | .mode _ => 3

/-- Commands with a timestamp at or before 5.0 ms take effect, kind by kind, in the order of R400 within a kind (R446). -/
def applyCmds (s : State) : State :=
  let upTo := s.frameStart + 5000000
  let due := sortBy (fun (a b : ProgCmd × Nat) => decide (cmdKind a.1 < cmdKind b.1) || (cmdKind a.1 == cmdKind b.1 && decide (a.2 ≤ b.2))) (s.prog.cmds.filter fun c => decide (c.2 ≤ upTo))
  forEach due (fun c s => applyCmd c.1 s) (s.modProg fun p => { p with cmds := p.cmds.filter fun c => !decide (c.2 ≤ upTo) })

/-! The cycle (R442, R443, R451). -/

/-- Value of a state item in the Comb frame just published; one that no map lists by its value at that frame's sample instant. -/
def latchedItem (s : State) (key : Nat) : Option Int :=
  match ((s.comb.published.map imageItems).getD []).find? (·.1 == key) with
  | some x => some x.2.2.2.val
  | none => (s.comb.snapPrev.lookup key).map (·.val)

/-- Presence of the stations at the latch (R464), by the Station state item of Comb frame N; one that is absent gets safe values on its return (R465). -/
def latchStations (s : State) : State :=
  s.modCan fun c => { c with stations := c.stations.mapIdx fun k x =>
    let here := (latchedItem s (0x01000060 + k) == some 3 && x.present) || x.opSince
    { x with present := here, opSince := x.st == 3, safeOut := x.safeOut || !here } }

/-- Frames since the last complete image of station k, at Comb frame g, saturated (Table 15-12). -/
def imageAge (s : State) (g k : Nat) : Nat := match (station s k).image with | some (_, f) => min 255 (g - f) | none => 255

/-- Station and GPIO inputs enter their variables (R443): the levels of the sample instant of frame N, which the one of the running frame has followed. -/
def latchProgInputs (s : State) : State :=
  let fresh (i : Nat) (b : BitVec 32) : BitVec 32 :=
    let d := varDef s i
    if d.typ == 0 then b
    else if d.kind == 4 then (if s.prog.gpioPrev.getLsbD d.pin then 1 else 0)
    else if d.kind == 2 then match stationVar s 2 i with
      | some (k, w) => (match (station s k).image with | some (ws, _) => BitVec.ofNat 32 (ws.getD w 0) | none => b)
      | none => b
    else b
  s.modProg fun p => { p with vars := p.vars.mapIdx fresh }

/-- Inputs of the latch from the published image. -/
def latchOf (s : State) : LatchIn :=
  let g := s.time.frame - 1
  let img := s.comb.published
  { frame := g, sampleTime := match img with | some m => m.sampleTime | none => g * frameNs
    look := match img with | some m => (m.keys.zip m.items).map fun x => (x.1.1, (x.1.2, x.2)) | none => []
    synced := latchedItem s 0x09000012 == some 1, imageAge := (List.range 16).map (imageAge s g)
    present := (List.range 16).filter fun k => (station s k).present }

/-- One cycle: latch, instances in record order, outputs for the next boundary. -/
def runCycle (s : State) : State :=
  let s1 := latchProgInputs (latchStations s)
  let l := latchOf s1
  let s2 := s1.modProg fun p => { p with before := p.vars, began := true, cycles := p.cycles + 1, latched := some l.frame, hadStations := l.present }
  let s3 := forEach (progImage s2).insts (execInst l) s2
  let s4 := if s2.prog.faults < s3.prog.faults then s3.raise 0x7006 0 else s3.clear 0x7006 0
  let outs := outputValues s4
  s4.modProg fun p => { p with outNext := some outs }

/-- A cycle boundary falls on Comb frame g: by the period of the active program, or of the staged one while there is none. -/
def cycleDue (s : State) (g : Nat) : Bool :=
  match s.prog.active, s.prog.staged with
  | some p, _ => g % p.period == 0
  | none, some p => g % p.period == 0
  | none, none => false

/-- Program work at the publication of Comb frame K-1 (R442, R446). -/
def progPublication (s : State) : State :=
  if !cycleDue s (s.time.frame - 1) then s
  else
    let s1 := applyCmds s
    if s1.prog.st == .run then runCycle s1 else s1

/-- PROGRAM_DEADLINE (R462): done says whether the cycle completed by 8.0 ms, us its length. -/
def execProgramDeadline (t us : Nat) (done : Bool) (s : State) : Host.Outcome State Fault Refusal :=
  let s := fireUnit 14 (s.at_ t)
  if !s.running || !s.prog.began then .next s
  else if done then .next (s.modProg fun p => { p with began := false, lastT := min 65535 us, maxT := max p.maxT (min 65535 us) })
  else if t < s.frameStart + 8000000 then .next s
  else .next (overrunProg (s.modProg fun p => { p with overruns := p.overruns + 1 }))

/-- Program work at a frame boundary: outputs take effect as one set (R41, R463). -/
def progFrame (s : State) : State :=
  if s.prog.safeNext then safeValues s
  else match s.prog.outNext with
    | some o =>
      let had := s.prog.hadStations
      (s.modProg fun p => { p with outNow := o, outNext := none, safe := false, began := false }).modCan fun c =>
        { c with stations := c.stations.mapIdx fun k x => if had.contains k then { x with safeOut := false } else x }
    | none => s

/-- Value of an output variable in force. -/
def outInForce (s : State) (i : Nat) (safe : Bool) : BitVec 32 :=
  if safe || s.prog.safe then (varDef s i).safe else (s.prog.outNow.lookup i).getD (varDef s i).init

/-- Level of a GPIO output of the program (R463): low with no program; of an invalid bool value bit 0 counts (DESIGN CHOICE, log 43). -/
def progPin (s : State) (k : Nat) : Option Bool :=
  ((varsOfKind s [5]).find? fun i => (varDef s i).pin == k).map fun i => s.prog.st != .none && (outInForce s i false).getLsbD 0

/-- RPDOs of a CANopen cycle (R437, R465): a station whose outputs were discarded gets none, one that returned gets safe values. -/
def rpdoStation (k : Nat) (s : State) : State :=
  let x := station s k
  let c := stationCfg s k
  if x.dropped then (updStation k (fun x => { x with dropped := false }) s).raise 0x700C k
  else if x.st == 3 then
    forEach (List.range c.rpdo) (fun j s => coSend 5 (0x200 + 0x100 * j + c.node)
      ((List.range 4).flatMap fun w => toLE 2 (outInForce s (c.outBase + 4 * j + w) x.safeOut).toNat) s) s
  else s

def rpdoFrame (s : State) : State :=
  if s.parN .canCoPort < 2 && s.time.frame % s.parN .canCoPeriod == 0 && s.prog.st != .none then forEach (usedStations s) rpdoStation s else s

/-! Loading and reading (R466 to R468). -/

/-- Every byte of a staging is present. -/
def stagingBytes (g : ProgStaging) : Option (List Byte) :=
  let sorted := sortBy (fun (a b : Nat × List Byte) => decide (a.1 ≤ b.1)) g.pieces
  let all := sorted.foldl (fun (acc : List Byte) p => if p.1 ≤ acc.length then acc ++ p.2.drop (acc.length - p.1) else acc) []
  if all.length == g.total then some all else none

/-- Pieces with a later one over them: a later message replaces the bytes that it names. -/
def addPiece (off : Nat) (d : List Byte) (ps : List (Nat × List Byte)) : List (Nat × List Byte) :=
  (off, d) :: ps.flatMap fun p =>
    let left := p.2.take (off - p.1)
    let right := p.2.drop (off + d.length - p.1)
    (if p.1 < off && !left.isEmpty then [(p.1, left)] else []) ++ (if off + d.length < p.1 + p.2.length && !right.isEmpty then [(max p.1 (off + d.length), right)] else [])

def opProgLoad (t : Nat) (pay : List Byte) (s : State) : OpOut :=
  let version := rd 4 0 pay
  let off := rd 4 4 pay
  let total := rd 4 8 pay
  let d := pay.drop 16
  let same := match s.prog.staging with | some g => if g.version == version then some g else none | none => none
  let bad := pay.length < 17 || 1384 < d.length || total == 0 || 262176 < total || total < off + d.length || (match same with | some g => g.total != total | none => false)
  if bad then opFail 9 0 (s.modProg fun p => { p with loadRej := p.loadRej + 1 })
  else
    let g : ProgStaging := { version := version, total := total, pieces := addPiece off d (match same with | some g => g.pieces | none => []), last := t, timeout := s.parN .progStageTimeout }
    match stagingBytes g with
    | none => opOk (s.modProg fun p => { p with staging := some g }) []
    | some bs =>
      let s1 := s.modProg fun p => { p with staging := none }
      match progFault s bs with
      | some k => opFail 8 0x7003 (s1.raise 0x7003 k)
      | none => opOk ((s1.modProg fun p => { p with staged := some (imageOf bs) }).raise 0x7001 0) []

/-- PROG_READ (R467). -/
def opProgRead (pay : List Byte) (s : State) : OpOut :=
  let version := rd 4 0 pay
  let off := rd 4 4 pay
  let count := rd 2 8 pay
  let img := if version == 0 then s.prog.active else [s.prog.active, s.prog.staged].findSome? fun o => match o with | some p => if p.version == version then some p else none | none => none
  match img with
  | some p => if pay.length != 10 || count == 0 || 1384 < count || p.raw.length < off + count then opFail 9 0 s else opOk s ((p.raw.drop off).take count)
  | none => opFail 9 0 s

/-- PROGRAM_STAGING_TIMEOUT (R466). -/
def execProgramStagingTimeout (t : Nat) (s : State) : Host.Outcome State Fault Refusal :=
  let s := s.at_ t
  match s.prog.staging with
  | some g => if s.up && decide (g.last + g.timeout * 1000000000 ≤ t) then .next (s.modProg fun p => { p with staging := none }) else .next s
  | none => .next s

/-! Program commands of Table 14-7. -/

def queueProg (c : ProgCmd) (t : Nat) (s : State) : State := s.modProg fun p => { p with cmds := p.cmds ++ [(c, t)] }

/-- Program mode (R445): Hold is refused in Operate. -/
def cmdProgMode (code t : Nat) (s : State) : CmdOut :=
  if 2 < code then answer 9 0 s
  else if code == 2 && s.boot.mode == .operate then ((s.raise 0x700A 0), 7, 0x700A)
  else accept (queueProg (.mode code) t s)

/-- The 8-byte value of a Force command as the bits of a variable; none outside its type (R457). -/
def forceBits (typ v : Nat) : Option (BitVec 32) :=
  let l := intLimits typ
  if typ == 9 then some (BitVec.ofNat 32 v)
  else
    let x : Int := if 5 ≤ typ && typ ≤ 7 then signed 64 v else (v : Int)
    if l.1 ≤ x && x ≤ l.2 then some (BitVec.ofInt 32 x) else none

/-- Variables that are forced, or will be at the next cycle boundary. -/
def forcedSoon (s : State) : List Nat := (s.prog.forces.map (·.1) ++ s.prog.cmds.filterMap fun c => match c.1 with | .force i _ => some i | _ => none).eraseDups

/-- The program that the commands waiting leave in force: the staged one when its activation is among them (R446). -/
def soonProg (s : State) : ProgImage :=
  match s.prog.cmds.findSome? (fun c => match c.1 with | .activate n => s.prog.staged.filter (·.version == n) | _ => none) with | some n => n | none => progImage s

def cmdForce (i v t : Nat) (s : State) : CmdOut :=
  let d := (soonProg s).vars.getD i {}
  if d.typ == 0 || d.kind == 1 then answer 9 0 s
  else match forceBits d.typ v with
    | none => answer 9 0 s
    | some b =>
      if s.boot.mode == .operate && !s.parB .progForceOperate then answer 7 0 s
      else if !(forcedSoon s).contains i && 64 ≤ (forcedSoon s).length then refuse 0x7008 i s
      else accept (queueProg (.force i b) t s)

def cmdRelease (i t : Nat) (s : State) : CmdOut :=
  if (varDef s i).typ == 0 then answer 9 0 s else accept (queueProg (.release i) t s)

def cmdActivateProg (version t : Nat) (s : State) : CmdOut :=
  match s.prog.staged with
  | some p => if p.version == version then accept (queueProg (.activate version) t s) else refuse 0x7003 0 s
  | none => refuse 0x7003 0 s

/-- PROGRAM_MODE: 0 Run, 1 Stop, 2 Hold. -/
def execProgramMode (t : Nat) (code : Fin 3) (s : State) : Host.Outcome State Fault Refusal :=
  let s := s.at_ t
  if s.running then .next (cmdProgMode code.val t s).1 else .next s

/-- FORCE_VARIABLE (R457). -/
def execForceVariable (t : Nat) (i : BitVec 16) (v : BitVec 64) (s : State) : Host.Outcome State Fault Refusal :=
  let s := s.at_ t
  if s.running then .next (cmdForce i.toNat v.toNat t s).1 else .next s

/-- RELEASE_FORCE (R457). -/
def execReleaseForce (t : Nat) (i : BitVec 16) (s : State) : Host.Outcome State Fault Refusal :=
  let s := s.at_ t
  if s.running then .next (cmdRelease i.toNat t s).1 else .next s

/-- ACTIVATE_ONLINE_CHANGE (R460). -/
def execActivateOnlineChange (t : Nat) (version : BitVec 32) (s : State) : Host.Outcome State Fault Refusal :=
  let s := s.at_ t
  if s.running then .next (cmdActivateProg version.toNat t s).1 else .next s

/-- Start step 10 (R468): the valid copy with the higher sequence; none at equal sequences that differ (R503). -/
def loadProgram (s : State) : Option ProgImage :=
  match s.boot.progStore.a, s.boot.progStore.b with
  | some (i, x), some (j, y) => if i == j then (if x == y then some x else none) else if j < i then some x else some y
  | some (_, x), none => some x
  | none, some (_, y) => some y
  | none, none => none

def startProgram (found : Option ProgImage) (s : State) : State :=
  match found with
  | none => ((s.modProg fun p => { p with st := .none, active := none, safe := true, outNow := [] }).raise 0x7004 0).stand 0x700E 0 true
  | some p =>
    let s1 := s.modProg fun x => { x with active := some p, vars := p.vars.map (·.init), insts := [], forces := [] }
    let s2 := s1.modProg fun x => { x with outNow := outputValues s1 }
    if s.parN .progStartMode == 1 then (s2.modProg fun x => { x with st := .run, safe := false }).raise 0x7004 0
    else safeValues ((s2.modProg fun x => { x with st := .stop }).raise 0x7004 0)

end Sys2Proof.Machine
end

