-- ==== Sys2Proof/Machine/Recorder.lean ====
section
/-!
DEFINITION. Recorder: chapter 17, dwell and throughput, the die histogram, cell extremes, event records, the round commit, reading and
clearing.
-/
namespace Sys2Proof.Machine

/-! Accumulation (R474 to R477). -/

/-- Adds 1 to a counter of a block, by its byte offset. -/
def addDwell (off k : Nat) (l : List (Nat × Nat)) : List (Nat × Nat) := (off, (l.lookup off).getD 0 + k) :: l.filter (·.1 != off)

/-- Bin of a value: below the lowest counts in bin 0, at or above the top of the highest in the highest (R474). -/
def dwellBin (q : Rat) (top : Int) : Nat := (clampInt 0 top q.floor).toNat

/-- Mean SOC of Comb frame g as the Estimator published it for a frame that it updated. -/
def goodSoc (s : State) (n g : Nat) : Option Rat := let s := s.asSeen; if (s.estr n).frame == some g then (meanSoc (stringCells s n)).map fun m => (wholeUnits (m * 100) : Rat) / 100 else none

/-- String n in Comb frame g enters its accumulation of the round (R474, R475). -/
def recordString (g n : Nat) (s : State) : State :=
  let v := s.asSeen
  let e := v.estr n
  let hot := (v.tstr n).tMax
  let t : Option Nat := if hot.q == .good then some (dwellBin (((hot.val : Rat) / 10 + 40) / 10) 15) else none
  let i : Option Nat := if e.iItem.q == .good then some (dwellBin (((e.iItem.val : Rat) / 100 + 400) / (25 / 2)) 63) else none
  let soc : Option Nat := (goodSoc s n g).map fun x => dwellBin (x / 5) 19
  let put (base : Nat) (k : Option Nat) (l : List (Nat × Nat)) : List (Nat × Nat) := match k, t with | some k, some t => addDwell (base + 128 * k + 8 * t) 1 l | _, _ => l
  let none_ := t.isNone || (i.isNone && soc.isNone)
  let vs := pubVs s n
  let wh : Rat := match vs with | some v => (e.dq : Rat) * v / 3600000000 | none => 0
  let rem := s.recorder.rem.getD n (0, 0)
  let inn := rem.1 + (if 0 < wh then wh else 0)
  let out := rem.2 + (if wh < 0 then -wh else 0)
  s.modRecorder fun r => { r with
    acc := updAt r.acc n fun b => { b with
      dwell := put 0x2000 soc (put 0 i b.dwell)
      unclassified := if none_ then b.unclassified + 1 else b.unclassified
      qChg := if 0 < e.dq then b.qChg + e.dq.toNat else b.qChg, qDis := if e.dq < 0 then b.qDis + e.dq.natAbs else b.qDis
      eChg := b.eChg + inn.floor.toNat, eDis := b.eDis + out.floor.toNat }
    rem := updAt r.rem n fun _ => (inn - (inn.floor : Rat), out - (out.floor : Rat)) }

/-- Extremes of a cell as they stand: those changed in the round before those of MRAM (R477). -/
def extremesOf (r : RecState) (c : Nat) : Extremes := ((r.cellAcc.lookup c).orElse fun _ => r.cells.lookup c).getD {}

/-- New extremes of a cell: a value strictly beyond one replaces it and its stamp (R477). -/
def extremeStep (stamp : Nat × Nat) (v : Option Nat) (t : Option Int) (x : Extremes) : Extremes :=
  let put (k : Nat) (on : Bool) (l : List (Nat × Nat)) : List (Nat × Nat) := if on then updAt l k fun _ => stamp else l
  let hiV := match v with | some a => decide (x.vMax < a) | none => false
  let loV := match v with | some a => decide (a < x.vMin) | none => false
  let hiT := match t with | some a => decide (x.tMax < a) | none => false
  let loT := match t with | some a => decide (a < x.tMin) | none => false
  { vMax := if hiV then v.getD 0 else x.vMax, vMin := if loV then v.getD 0 else x.vMin, tMax := if hiT then t.getD 0 else x.tMax, tMin := if loT then t.getD 0 else x.tMin
    stamps := put 3 loT (put 2 hiT (put 1 loV (put 0 hiV x.stamps))) }

def recordCell (n p : Nat) (s : State) : State :=
  let i := 576 * n + p
  let c := s.asSeen.cell i
  let gr := groupItem s.asSeen n p
  let x := extremesOf s.recorder i
  let y := extremeStep (s.recorder.ops, s.recorder.pc) (if c.v.q == .good then some c.v.val.toNat else none) (if gr.q == .good then some gr.val else none) x
  if y == x then s else s.modRecorder fun r => { r with cellAcc := (i, y) :: r.cellAcc.filter (·.1 != i) }

/-- Bin of the die histogram for Comb frame g, 40 when the item is not Good: Substituted, or of a round before the last (R300, R476, Table 3-6). -/
def dieBin (g : Nat) (s : State) : Nat :=
  let t := s.asSeen.therm
  match t.dieMax, t.dieAt with
  | some x, some f => if t.dieSub || s.comb.late.getLsbD 7 || f + 100 ≤ g then 40 else dwellBin (((x : Rat) / 10 + 50) / 5) 39
  | _, _ => 40

/-- Accumulation of the published Comb frame g; the die histogram once a round (R476, R481). -/
def recordFrame (g : Nat) (s : State) : State :=
  if !s.recorder.on then s
  else
    let on := (List.range 4).filter (linkOn s)
    let s1 := forEach on (recordString g) s
    let s2 := if s.parB .recCellExtremes then forEach on (fun n s => forEach (List.range (cellCount s n)) (recordCell n) s) s1 else s1
    if s.roundPos == 99 then let k := dieBin g s2; s2.modRecorder fun r => { r with dieAcc := updAt r.dieAcc k (· + 1) } else s2

/-! Clearing (R478, R485, R486). -/

/-- A new random non-zero token for a region; the one in force becomes the one replaced (R485). -/
def drawToken (g : Nat) (s : State) : State :=
  let r := s.draw
  r.2.modRecorder fun x => { x with tokens := updAt x.tokens g fun t => (r.1 % 0xFFFFFFFF + 1, t.1) }

/-- A ring after a clear in the frame that began at t0: records of the frame survive, written after it (R486). A record from before that merged a raise of the frame is one of the frame from then on, with no repeat (DESIGN CHOICE, log 18: how many of its repeats fell into the frame is not kept). -/
def survivors (t0 : Nat) (ring : List EvRec) : List EvRec :=
  let l := ring.filter fun e => decide (t0 ≤ e.lastT)
  if l.any fun e => decide (e.firstT < t0) then
    l.map fun e => if t0 ≤ e.firstT then { e with seq := e.seq + 1 } else { e with seq := e.seq + 1, repeat_ := 0, firstT := e.lastT, firstOps := e.lastOps, firstPc := e.lastPc }
  else l

/-- Region content and its accumulation return to their defaults (R486); t0 is the boundary of the frame. -/
def wipeRegion (t0 g : Nat) (r : RecState) : RecState :=
  match g with
  | 0 => { r with strs := [{}, {}, {}, {}], acc := [{}, {}, {}, {}], rem := [(0, 0), (0, 0), (0, 0), (0, 0)] }
  | 1 => { r with cells := [], cellAcc := [] }
  | 2 => { r with die := List.replicate 41 0, dieStamp := (0, 0), dieAcc := List.replicate 41 0 }
  | _ =>
    let rings := r.rings.map (survivors t0)
    let step (k n : Nat) : Nat := match rings.getD k [] with | e :: _ => max n e.seq | [] => n
    { r with rings := rings, seq := r.seq.mapIdx step, head := r.head.mapIdx fun k h => (h + (step k (r.seq.getD k 0) - r.seq.getD k 0)) % 3840 }

def clearRecOf (s : State) (kind session arg discarded : Nat) (done : Bool) : ClearRec :=
  { kind := kind, done := done, session := session, arg := arg, discarded := min discarded 0xFFFFFFFF, time := s.time.now, ops := s.recorder.ops, pc := s.recorder.pc }

/-- One accepted clear as the first step of a commit (R486). -/
def clearRegion (q : Nat × Nat × Nat) (s : State) : State :=
  let lost := if q.1 == 3 then (s.recorder.rings.map fun l => (l.filter fun e => decide (e.firstT < s.frameStart)).length).foldl (· + ·) 0 else 0
  let s1 := s.modRecorder fun r => { wipeRegion s.frameStart q.1 r with clears := if r.clears.length < 256 then r.clears ++ [clearRecOf s q.1 q.2.2 q.2.1 lost true] else r.clears }
  drawToken q.1 (s1.raise 0x8041 q.1)

/-- The cell entries of a released brick return to their defaults (R478). -/
def clearBrick (j : Nat) (s : State) : State :=
  let cellsOf (c : Nat × Extremes) : Bool := c.1 / 16 != j
  (s.modRecorder fun r => { r with cells := r.cells.filter cellsOf, cellAcc := r.cellAcc.filter cellsOf
                                   clears := if r.clears.length < 256 then r.clears ++ [clearRecOf s 0xFE 0 j 0 true] else r.clears }).raise 0x8044 j

/-- Clear recorder region (R485). -/
def cmdClearRegion (session region token : Nat) (s : State) : CmdOut :=
  let t := s.recorder.tokens.getD region (0, 0)
  if 4 ≤ region || (token != t.1 && token != t.2) || !s.modeIn .recClearModes || 256 ≤ s.recorder.clears.length then refuse 0x8042 0 s
  else if s.recorder.clearReq.any (·.1 == region) then accept s
  else accept (s.modRecorder fun r => { r with clearReq := r.clearReq ++ [(region, token, session)] })

/-- CLEAR_RECORDER_REGION (R485): the session that sent the command, the region and the token given. -/
def execClearRecorderRegion (t session : Nat) (region : BitVec 8) (token : BitVec 32) (s : State) : Host.Outcome State Fault Refusal :=
  let s := s.at_ t
  if s.running then .next (cmdClearRegion session region.toNat token.toNat s).1 else .next s

/-! The round commit (R481, R482). -/

/-- String block n takes the accumulation of the round. -/
def addBlock (ops pc : Nat) (b a : RecStr) : RecStr :=
  { dwell := a.dwell.foldl (fun l d => addDwell d.1 d.2 l) b.dwell, unclassified := b.unclassified + a.unclassified, qChg := b.qChg + a.qChg, qDis := b.qDis + a.qDis
    eChg := b.eChg + a.eChg, eDis := b.eDis + a.eDis, ops := ops, pc := pc }

def commitRound (s : State) : State :=
  let s1 := forEach s.recorder.cellClear clearBrick (forEach s.recorder.clearReq clearRegion s)
  let s2 := s1.modRecorder fun r => { r with
    clearReq := [], cellClear := []
    strs := List.zipWith (addBlock r.ops r.pc) r.strs r.acc, acc := [{}, {}, {}, {}]
    cells := r.cellAcc ++ r.cells.filter fun c => (r.cellAcc.lookup c.1).isNone, cellAcc := []
    die := List.zipWith (· + ·) r.die r.dieAcc, dieAcc := List.replicate 41 0, dieStamp := (r.ops, r.pc)
    commits := (r.commits + 1) % 2 ^ 32 }
  (forEach (List.range 4) drawToken s2).clear 0x8040 0

/-- RECORDER_COMMIT: in the frame with r = 99, from 5.0 ms to 9.5 ms. -/
def execRecorderCommit (t : Nat) (s : State) : Host.Outcome State Fault Refusal :=
  let s := s.at_ t
  if s.running && s.roundPos == 99 && s.recorder.on && s.workDue 2 && decide (s.frameStart + 5000000 ≤ t ∧ t ≤ s.frameStart + 9500000) then .next (commitRound (s.workDone 2)) else .next s

/-- RECORDER_COMMIT_MISSED (R482): the accumulations stay for the next round. -/
def execRecorderCommitMissed (t : Nat) (s : State) : Host.Outcome State Fault Refusal :=
  let s := s.at_ t
  if s.running && s.roundPos == 99 && s.workDue 2 && decide (s.frameStart + 9500000 ≤ t) then .next (s.stand 0x8040 0 true) else .next s

/-- EVENT_RECORD (R479): an event of classes 0x1 to 0xA is raised with its argument. -/
def execEventRecord (t : Nat) (code : BitVec 16) (arg : BitVec 32) (s : State) : Host.Outcome State Fault Refusal :=
  let s := s.at_ t
  let k := evClass code.toNat
  if s.up && decide (1 ≤ k ∧ k ≤ 10) then .next (s.raise code.toNat arg.toNat) else .next s

/-- Codes that clear when a round passes without one (event tables). -/
def roundCleared : List Nat := [0x2007, 0x2008, 0x5020, 0x5021, 0x5024, 0x5027, 0x6024, 0x6025, 0x6026, 0x6027, 0x6033, 0x6034, 0x6035, 0x8043, 0xA043]

/-- End of a round: events of those codes that were not raised in it clear. -/
def endRound (s : State) : State :=
  let kept (e : Nat × Nat) : Bool := s.recorder.roundCodes.contains e || (e.1 == 0x8043 && s.recorder.overRound)
  let gone := s.recorder.raised.filter fun e => roundCleared.contains e.1 && !kept e
  (forEach gone (fun e s => s.clear e.1 e.2) s).modRecorder fun r => { r with roundCodes := [], overRound := false }

/-! Reading (R484). -/

/-- Event record of Table 17-5. -/
def eventBytes (e : EvRec) : List Byte :=
  toLE 4 e.seq ++ toLE 2 e.code ++ toLE 1 (if e.active then 1 else 0) ++ toLE 1 0 ++ toLE 4 e.arg ++ toLE 4 e.repeat_ ++ toLE 8 e.firstT
    ++ toLE 4 e.firstOps ++ toLE 4 e.firstPc ++ toLE 8 e.lastT ++ toLE 4 e.lastOps ++ toLE 4 e.lastPc

/-- Clear record of Table 17-6. -/
def clearBytes (k : Nat) (c : ClearRec) : List Byte :=
  toLE 2 k ++ toLE 1 c.kind ++ toLE 1 (if c.done then 1 else 0) ++ toLE 4 c.session ++ toLE 4 c.arg ++ toLE 4 c.discarded ++ toLE 8 c.time
    ++ toLE 4 c.ops ++ toLE 4 c.pc ++ List.replicate 16 0

/-- Cell entry of Table 17-4. -/
def extremeBytes (x : Extremes) : List Byte :=
  toLE 2 x.vMax ++ toLE 2 x.vMin ++ toLE 2 (field 16 x.tMax) ++ toLE 2 (field 16 x.tMin) ++ x.stamps.flatMap fun p => toLE 4 p.1 ++ toLE 4 p.2

/-- Byte of a string block (Table 17-3). -/
def blockByte (b : RecStr) (o : Nat) : Byte :=
  if o < 0x2A00 then (toLE 8 ((b.dwell.lookup (o / 8 * 8)).getD 0)).getD (o % 8) 0
  else (toLE 8 b.unclassified ++ toLE 8 b.qChg ++ toLE 8 b.qDis ++ toLE 8 b.eChg ++ toLE 8 b.eDis ++ toLE 4 b.ops ++ toLE 4 b.pc).getD (o - 0x2A00) 0

/-- Directory (Table 17-2). -/
def directoryBytes (r : RecState) : List Byte :=
  toLE 2 0x4352 ++ toLE 1 1 ++ toLE 1 0 ++ toLE 4 r.ops ++ toLE 4 r.pc ++ toLE 4 r.commits ++ r.head.flatMap (toLE 2) ++ r.seq.flatMap (toLE 4) ++ toLE 2 r.clears.length

/-- Record in a slot of a ring: the newest stands at head, older ones before it. -/
def ringSlot (r : RecState) (c slot : Nat) : Option EvRec := (r.rings.getD c [])[(r.head.getD c 0 + 3840 - slot) % 3840]?

/-- Byte of a recorder region at an offset (Table 17-1). -/
def regionByte (r : RecState) (region o : Nat) : Byte :=
  match region with
  | 0 => blockByte (r.strs.getD (o / 11008) {}) (o % 11008)
  | 1 => (extremeBytes ((r.cells.lookup (o / 40)).getD {})).getD (o % 40) 0
  | 2 => ((r.die.take 40).flatMap (toLE 4) ++ toLE 4 r.dieStamp.1 ++ toLE 4 r.dieStamp.2 ++ toLE 4 (r.die.getD 40 0)).getD o 0
  | 3 => (match ringSlot r (o / 184320) (o % 184320 / 48) with | some e => (eventBytes e).getD (o % 48) 0 | none => 0)
  | 4 => (match r.clears[o / 48]? with | some c => (clearBytes (o / 48) c).getD (o % 48) 0 | none => 0)
  | _ => (directoryBytes r).getD o 0

/-- Size of a region; none for a region that does not exist (Table 17-1). -/
def regionSize : Nat → Option Nat
  | 0 => some 44032 | 1 => some 92160 | 2 => some 256 | 3 => some 1843200 | 4 => some 12288 | 0xFF => some 4096
  | _ => none

/-- REC_READ. -/
def opRecRead (pay : List Byte) (s : State) : OpOut :=
  let region := rd 1 0 pay
  let off := rd 4 4 pay
  let count := rd 2 8 pay
  match regionSize region with
  | none => opFail 9 0 s
  | some n =>
    if pay.length != 10 || count == 0 || 1376 < count || n < off + count then opFail 9 0 s
    else opOk s (toLE 1 region ++ toLE 3 0 ++ toLE 4 off ++ toLE 2 count ++ toLE 4 s.recorder.commits ++ toLE 2 0 ++ (List.range count).map fun k => regionByte s.recorder region (off + k))

/-- EVENT_LIST: detail holds the number of seq values skipped. -/
def opEventList (pay : List Byte) (s : State) : OpOut :=
  let c := rd 1 0 pay
  let first := rd 4 4 pay
  let count := rd 1 8 pay
  if pay.length != 9 || c == 0 || 10 < c || count == 0 || 28 < count then opFail 9 0 s
  else
    let ring := (s.recorder.rings.getD (c - 1) []).reverse
    let newest := s.recorder.seq.getD (c - 1) 0
    let oldest := match ring with | e :: _ => e.seq | [] => newest
    let recs := (ring.filter fun e => decide (first ≤ e.seq)).take count
    (s, 0, min (oldest - first) 65535, toLE 1 c ++ toLE 3 0 ++ toLE 4 oldest ++ toLE 4 newest ++ toLE 1 recs.length ++ toLE 3 0 ++ recs.flatMap eventBytes)

end Sys2Proof.Machine
end

