-- ==== Sys2Proof/Machine/Memory.lean ====
section
/-!
DEFINITION. Memory: chapter 18, failed lines and their repair by content, the spare bank, and copies that differ.
-/
namespace Sys2Proof.Machine

/-! Banks (R500, R501). -/

def bank (s : State) (b : Nat) : Bank := s.mem.banks.getD b {}
def updBank (b : Nat) (f : Bank → Bank) (s : State) : State := s.modMem fun m => { m with banks := updAt m.banks b f }
def spareBank (s : State) : Option Nat := (List.range 9).find? fun b => (bank s b).st == 1
def retiredBank (s : State) : Option Nat := (List.range 9).find? fun b => (bank s b).st == 3

/-- Target of the slice at a position (Tables 21-1, 21-6): the bank under test, the core (pair x 2 + core), or 0. -/
def sliceTarget (s : State) (pos : Nat) : Nat :=
  if pos < 12 then ((spareBank s).getD ((retiredBank s).getD 0)) else if pos < 16 then pos - 12 else 0

/-- The running slice is aborted; its place in the cycle stays (R559, R563, R565). -/
def abortSlice (s : State) : State :=
  match s.bist.running with
  | some p => sliceOutcome p (sliceTarget s p) 4 0 (s.modBist fun b => { b with running := none })
  | none => s

/-- Physical bank of a byte address of main SRAM: 3 MB per bank (Table 18-1). -/
def bankOf (addr : Nat) : Nat := addr / 3145728

/-- A bank in use is to be retired from the next frame boundary, which claims the spare from a running slice (R565); with no spare it stays in use (R501). -/
def retireBank (b : Nat) (s : State) : State :=
  if (bank s b).st == 0 && (spareBank s).isSome && s.mem.toRetire.isNone && s.mem.copying.isNone then
    (match s.bist.running with | some p => if p < 12 then abortSlice s else s | none => s).modMem fun m => { m with toRetire := some b }
  else s

/-- A failed line of main SRAM is counted for its bank, and the bank judged (R500). -/
def countLine (addr : Nat) (s : State) : State :=
  let b := bankOf addr
  let line := addr / 64
  let again := match s.mem.repaired.lookup line with | some t => decide (s.time.now ≤ t + s.parN .memLineRepeat * 1000000000) | none => false
  let s1 := updBank b (fun x => { x with failed := x.failed + 1, round := x.round + 1 }) s
  let s2 := s1.modMem fun m => { m with repaired := (line, s.time.now) :: m.repaired.filter (·.1 != line) }
  if again || decide (s.parN .memBankRetire ≤ (bank s2 b).round) then retireBank b s2 else s2

/-! Mirrored state (R498). -/

/-- Both copies of a mirrored line fail (Table 18-3). -/
def mirrorLost (m : Mirrored) (s : State) : State :=
  match m with
  | .cfgTables => s
  | .pathTables => s.overrun 4 0
  | .program => if s.prog.st == .none then s else overrunProg s
  | .recorder => s.modRecorder fun r => { r with acc := [{}, {}, {}, {}], rem := [(0, 0), (0, 0), (0, 0), (0, 0)], cellAcc := [], dieAcc := List.replicate 41 0 }
  | .session k => closeSession k.val s

/-! MRAM lines (R499). -/

def dropCopy {α : Type} (copyB : Bool) (p : Pair α) : Pair α := if copyB then { p with b := none } else { p with a := none }

/-- Bytes of a record in which those of the failed line stand at their defaults; off is the record's offset in its region. -/
def overlay (line off : Nat) (bytes dflt : List Byte) : List Byte :=
  bytes.mapIdx fun k b => if (off + k) / 64 == line then dflt.getD k 0 else b

/-- Cell entry of Table 17-4 read from bytes. -/
def extremeRead (bs : List Byte) : Extremes :=
  { vMax := rd 2 0 bs, vMin := rd 2 2 bs, tMax := signed 16 (rd 2 4 bs), tMin := signed 16 (rd 2 6 bs)
    stamps := (List.range 4).map fun k => (rd 4 (8 + 8 * k) bs, rd 4 (12 + 8 * k) bs) }

/-- Event record of Table 17-5 read from bytes. -/
def eventOf (bs : List Byte) : EvRec :=
  { seq := rd 4 0 bs, code := rd 2 4 bs, active := bit (rd 1 6 bs) 0, arg := rd 4 8 bs, repeat_ := rd 4 0x0C bs, firstT := rd 8 0x10 bs
    firstOps := rd 4 0x18 bs, firstPc := rd 4 0x1C bs, lastT := rd 8 0x20 bs, lastOps := rd 4 0x28 bs, lastPc := rd 4 0x2C bs }

/-- Clear record of Table 17-6 read from bytes. -/
def clearOf (bs : List Byte) : ClearRec :=
  { kind := rd 1 2 bs, done := rd 1 3 bs != 0, session := rd 4 4 bs, arg := rd 4 8 bs, discarded := rd 4 0x0C bs, time := rd 8 0x10 bs, ops := rd 4 0x18 bs, pc := rd 4 0x1C bs }

/-- A string block whose failed line, counted from the start of the block, returns to its defaults. -/
def blockDefaults (line : Nat) (b : RecStr) : RecStr :=
  let b1 := { b with dwell := b.dwell.filter fun d => d.1 / 64 != line }
  if line == 0x2A00 / 64 then { b1 with unclassified := 0, qChg := 0, qDis := 0, eChg := 0, eDis := 0, ops := 0, pc := 0 } else b1

/-- Offset of a die histogram counter: 40 bins, the stamps, then the count of values not Good (Table 17-1). -/
def dieOffset (k : Nat) : Nat := if k == 40 then 168 else 4 * k

/-- A line of a recorder region returns to its defaults (Table 18-4). -/
def recorderDefaults (region line : Nat) (r : RecState) : RecState :=
  match region with
  | 0 => { r with strs := r.strs.mapIdx fun n b => if line / 172 == n then blockDefaults (line % 172) b else b }
  | 1 => { r with cells := r.cells.map fun c => (c.1, extremeRead (overlay line (40 * c.1) (extremeBytes c.2) (extremeBytes {}))) }
  | 2 => { r with die := r.die.mapIdx (fun k v => if dieOffset k / 64 == line then 0 else v), dieStamp := if line == 2 then (0, 0) else r.dieStamp }
  | 3 => { r with rings := r.rings.mapIdx fun c ring => ring.mapIdx fun k e =>
      let slot := (r.head.getD c 0 + 3840 - k) % 3840
      (eventOf (overlay line (184320 * c + 48 * slot) (eventBytes e) [])) }
  | 4 => { r with clears := r.clears.mapIdx fun k c => clearOf (overlay line (48 * k) (clearBytes k c) []) }
  | _ =>
    if line == 0 then { r with ops := 0, pc := 0, commits := 0, head := List.replicate 10 0, seq := r.seq.mapIdx fun k q => if k < 7 then 0 else q }
    else if line == 1 then { r with seq := r.seq.mapIdx fun k q => if k < 7 then q else 0 } else r

/-- A failed MRAM line is repaired by its region (Table 18-4). -/
def repairMram (p : MramPart) (s : State) : State :=
  match p with
  | .shadow => s
  | .learned n c => s.modLearned fun l => updAt l n.val (dropCopy c)
  | .program c => s.modBoot fun b => { b with progStore := dropCopy c b.progStore }
  | .roster c => s.modBoot fun b => { b with roster := dropCopy c b.roster }
  | .key n c =>
    let s1 := s.modBoot fun b => { b with keys := updAt b.keys n.val (dropCopy c) }
    let p := s1.boot.keys.getD n.val {}
    if p.a.isNone && p.b.isNone && (s.link n.val).key.isSome then (let r := newNetKey n.val s1; r.2.updLink n.val fun l => { l with key := some r.1, keyNext := none }) else s1
  | .latches c => s.modBoot fun b => { b with latchStore := dropCopy c b.latchStore }
  | .confirm c => s.modBoot fun b => { b with confirm := dropCopy c b.confirm }
  | .journal e => s.modBoot fun b => { b with journal := updAt b.journal e.val fun j => { j with bad := true } }
  | .recorder region line => s.modRecorder (recorderDefaults region line)

/-! Line checks (R490 to R492). -/

/-- Check of a line: CRC-16 over its 64 bytes and its line number (R491). -/
def lineCheck (line : Nat) (data : List Byte) : Nat := crc16 (data ++ toLE 4 line)

/-- Number of a line: its byte address within its memory divided by 64. -/
def lineNo (f : LineFault) : Nat := f.addr / 64

/-- A line fails when its stored check differs from the check computed over its content (R492). -/
def lineFails (f : LineFault) : Bool := lineCheck (lineNo f) f.data != f.check.toNat

/-- A line is of MRAM, or of main SRAM. -/
def inMram (h : LineHolds) : Bool := match h with | .mram _ => true | _ => false

/-- A write of a line recomputes its check (R492). -/
def writeLine (mram : Bool) (line : Nat) (data : List Byte) (s : State) : State :=
  s.modMem fun m => { m with lines := ((mram, line), data, lineCheck line data) :: m.lines.filter (·.1 != (mram, line)) }

/-- Bytes of a line with those of a part replaced. -/
def mergePart (data : List Byte) (off : Nat) (part : List Byte) : List Byte :=
  data.mapIdx fun k b => if off ≤ k && k < off + part.length then part.getD (k - off) b else b

/-- What is written back once a line has been read: the part that the read was for, merged into content that passes its check; a repaired line without one is written back as its source gives it. -/
def writeBack (f : LineFault) (s : State) : State :=
  let data := if lineFails f then f.source else f.data
  match f.part with
  | some (off, p) => writeLine (inMram f.holds) (lineNo f) (mergePart data off p) s
  | none => if lineFails f then writeLine (inMram f.holds) (lineNo f) data s else s

/-! A failed line (R494). -/

/-- A failed line is repaired by its class with the event of the class. -/
def repairContent (f : LineFault) (s : State) : State :=
  let here (s : State) : State := countLine f.addr s
  match f.holds with
  | .code => (here s).raise 0x8004 f.addr
  | .configuration => (here s).raise 0x8001 f.addr
  | .stored => (here s).raise 0x8001 f.addr
  | .image buf line =>
    ((here s).modComb fun c => { c with repairs := c.repairs + 1, failedLines := (buf.val, line) :: c.failedLines.filter (· != (buf.val, line)) }).raise 0x8020 f.addr
  | .mirrored m both => if both then mirrorLost m ((here s).raise 0x800B f.addr) else (here s).raise 0x8001 f.addr
  | .mirrorDiffers => (here s).raise 0x8001 f.addr
  | .transient => (here s).raise 0x8006 f.addr
  | .mram p => repairMram p ((s.modMem fun m => { m with mramFailed := m.mramFailed + 1 }).raise 0x8007 f.addr)

/-- A line that a reader or a scrubber reads (R492 to R494): one that fails its check is repaired, and written back with a fresh check. A mirror that is intact and differs from its primary line is rewritten from it (Table 18-6). -/
def repairLine (f : LineFault) (s : State) : State :=
  if lineFails f then (match f.holds with | .image _ _ => repairContent f s | _ => writeBack f (repairContent f s))
  else if f.holds == .mirrorDiffers && f.data != f.source then writeLine false (lineNo f) f.source (s.raise 0x8012 f.addr)
  else writeBack f s

/-- Lines read by a scrubber in a frame: ceil(lines / (100 x seconds per pass)) (R493). -/
def scrubQuota (lines secs : Nat) : Nat := (lines + 100 * secs - 1) / (100 * secs)

/-- The scrubbers' work of a frame, with the lines that they report (R493). -/
def scrubFrame (found : List LineFault) (s : State) : State :=
  let a := s.mem.ptr + scrubQuota 393216 (s.parN .memScrubPeriod)
  let b := s.mem.mramPtr + scrubQuota 131072 (s.parN .memMramScrubPeriod)
  forEach found repairLine (s.modMem fun m => { m with ptr := a % 393216, mramPtr := b % 131072, passes := m.passes + a / 393216 })

/-- The bank work of a frame boundary: the map switches after a complete copy, and a copy begins (R500, R501). -/
def bankFrame (s : State) : State :=
  let s1 := match s.mem.switch, spareBank s with
    | some b, some x =>
      let held := (bank s b).logical
      let s1 := (updBank b (fun k => { k with st := 3, logical := none, passes := 0, run := 0 }) (updBank x (fun k => { k with st := 0, logical := held }) s)).modMem fun m => { m with switch := none, copying := none }
      (s1.raise 0x8008 b).stand 0x8009 0 true
    | _, _ => s.modMem fun m => { m with switch := none }
  match s1.mem.toRetire with
  | some b => updBank b (fun k => { k with st := 2 }) (s1.modMem fun m => { m with toRetire := none, copying := some b })
  | none => s1

/-- BANK_COPY_COMPLETE (R500): the address map switches at the next frame boundary. -/
def execBankCopyComplete (t : Nat) (s : State) : Host.Outcome State Fault Refusal :=
  let s := s.at_ t
  match s.mem.copying with
  | some b => if s.up then .next (s.modMem fun m => { m with switch := some b }) else .next s
  | none => .next s

/-! Traps (R495), DMA halts (R496) and core pairs (R12, R502). -/

/-- FETCH_TRAP (R495): one refetch of the trapped line; good says that it passes the line table. Three in a row that fail restart the module. -/
def execFetchTrap (t : Nat) (addr : BitVec 32) (good : Bool) (s : State) : Host.Outcome State Fault Refusal :=
  let s := s.at_ t
  if !s.up then .next s
  else
    let s1 := if s.mem.refetch == 0 then (countLine addr.toNat (s.modMem fun m => { m with traps := m.traps + 1 })).raise 0x8004 addr.toNat else s
    if good then .next (s1.modMem fun m => { m with refetch := 0 })
    else if s1.mem.refetch + 1 < 3 then .next (s1.modMem fun m => { m with refetch := m.refetch + 1 })
    else
      let port := match pairLater s1.upd.selector with | some (slot, _) => slot | none => 0
      .next (restartModule 3 (noteRestart port 0x8005 (s1.raise 0x8005 addr.toNat)))

/-- The unit in transfer is discarded and counted as its own chapter counts a unit that fails its checks (R496). -/
def discardUnit (u : DmaUnit) (s : State) : State :=
  match u with
  | .fhp => s.modHost fun h => { h with discarded := h.discarded + 1 }
  | .fsl => rejectUnit s
  | .spami n => discardFrame n.val 0 s
  | .bulk n => discardFrame n.val 0 s
  | .can p => rejectLength p.val s
  | .learned n => s.modLearned fun l => updAt l n.val fun p =>
      let qa := match p.a with | some (q, _) => q | none => 0
      let qb := match p.b with | some (q, _) => q | none => 0
      dropCopy (decide (qa < qb)) p
  | .other => s

/-- DMA_HALT (R496): the channel halts on a failed line, which is repaired by its class. -/
def execDmaHalt (t : Nat) (channel : BitVec 8) (f : LineFault) (u : DmaUnit) (s : State) : Host.Outcome State Fault Refusal :=
  let s := s.at_ t
  if !s.up then .next s
  else
    let s1 := (s.modMem fun m => { m with halts := m.halts + 1 }).raise 0x8006 channel.toNat
    .next (if lineFails f then discardUnit u (if f.holds == .transient then writeBack f (countLine f.addr s1) else repairLine f s1) else s)

/-- CORE_PAIR_FAIL (R12): pair A or B leaves service at the next frame boundary. -/
def failPair (p : Nat) (s : State) : State :=
  if s.mem.pairOk.getD p false then s.modMem fun m => { m with pairFail := some p } else s

def execCorePairFail (t : Nat) (p : Fin 2) (s : State) : Host.Outcome State Fault Refusal :=
  let s := s.at_ t
  if s.up then .next (failPair p.val s) else .next s

/-- The whole Hive load moves to the other pair (R12, R502); while no other pair serves, the pair stays. -/
def pairFrame (s : State) : State :=
  match s.mem.pairFail with
  | none => s
  | some p =>
    let s1 := s.modMem fun m => { m with pairFail := none }
    if s.mem.pairOk.getD (1 - p) false then
      (s1.modMem fun m => { m with pairOk := updAt m.pairOk p fun _ => false, pairPasses := 0, pairNext := 0 }).stand 0x800D p true
    else s1

/-- End of a round: the counts of failed lines per round begin again (R500). -/
def memRound (s : State) : State := s.modMem fun m => { m with banks := m.banks.map fun b => { b with round := 0 } }

/-! Intact copies that differ (R503). -/

/-- Both copies stand with one sequence and differ. -/
def pairTied {α : Type} [DecidableEq α] (p : Pair α) : Bool :=
  match p.a, p.b with | some (i, x), some (j, y) => i == j && x != y | _, _ => false

end Sys2Proof.Machine
end

