-- ==== Sys2Proof/Machine/Bist.lean ====
section
/-!
DEFINITION. Bist: chapter 21, the slice cycle, requalification, deep tests and the reading of results.
-/
namespace Sys2Proof.Machine

/-! Preconditions (R562, R563). -/

/-- VCORE within 3 % of 800 mV. -/
def vcoreOk (mv : Nat) : Bool := decide (776 ≤ mv) && decide (mv ≤ 824)

/-- Position whose slice is due: the cycle's, or while one pair runs alone the next core slice of the other (R559, R560). -/
def slicePos (s : State) : Nat :=
  if s.mem.pairOk.getD 0 true then (if s.mem.pairOk.getD 1 true then s.bist.ptr else 14 + s.mem.pairNext % 2) else 12 + s.mem.pairNext % 2

/-- A compare unit of 16 to 23 and a capture path are free for the slice at position 20 (Table 21-2). -/
def timeFree (s : State) : Bool :=
  ((List.range 8).any fun k => s.parN .timeOutGpio k == 255) && ((List.range 8).any fun k => s.parN .timeCapReader k == 0)

/-- First precondition that does not hold (R562, Table 21-2); 0 when all hold: 1 VCORE, 2 clock, 3 disabled, 4 no unit free. -/
def unmet (s : State) (pos mv : Nat) (clockOk : Bool) : Nat :=
  if !vcoreOk (s.pwr.mv.getD 4 0) || !vcoreOk mv then 1
  else if !clockOk then 2
  else if !s.parB .bistEnable || !bit (s.parN .bistSlices) pos then 3
  else if pos == 20 && !timeFree s then 4
  else 0

/-! Requalification (R566, R567). -/

/-- A retired bank becomes the spare (R501, R567). -/
def bankSpare (b : Nat) (s : State) : State :=
  (((updBank b (fun k => { k with st := 1, passes := 0, run := 0 }) s).raise 0x800A b).raise 0x8052 b).clear 0x8009 0

/-- Outcome of the bank slice at a position. -/
def bankSlice (pos : Nat) (pass : Bool) (s : State) : State :=
  let b := sliceTarget s pos
  if (bank s b).st == 1 then (if pass then s else (updBank b (fun k => { k with st := 3, passes := 0, run := 0 }) s).stand 0x8009 0 true)
  else if !pass then updBank b (fun k => { k with passes := 0, run := 0 }) s
  else
    let run := if pos == 0 then 1 else if (bank s b).run == pos then pos + 1 else 0
    let s1 := updBank b (fun k => { k with run := if run == 12 then 0 else run, passes := if run == 12 then k.passes + 1 else k.passes }) s
    if s.parN .bistRequalPasses ≤ (bank s1 b).passes then bankSpare b s1 else s1

/-- Outcome of a core slice; a full pass of a pair is its two slices in order. -/
def coreSlice (pos : Nat) (pass : Bool) (s : State) : State :=
  let p := (pos - 12) / 2
  if s.mem.pairOk.getD p true then (if pass then s else failPair p s)
  else
    let s1 := s.modMem fun m => { m with
      pairNext := m.pairNext + 1, pairPasses := if !pass then 0 else if pos % 2 == 0 then 2 * (m.pairPasses / 2) + 1 else m.pairPasses + m.pairPasses % 2 }
    if s.parN .bistRequalPasses ≤ s1.mem.pairPasses / 2 then
      ((s1.modMem fun m => { m with pairOk := updAt m.pairOk p fun _ => true, pairPasses := 0, pairNext := 0 }).clear 0x800D p).raise 0x8052 p
    else s1

/-- The pointer advances when a slice passes, fails or is skipped; it keeps its place for the slices of a pair that runs them alone (R559, R560). -/
def advance (pos : Nat) (s : State) : State :=
  if onePair s then s.modMem fun m => { m with pairNext := m.pairNext + 1 }
  else s.modBist fun b => { b with ptr := (pos + 1) % 22, cycles := if pos == 21 then b.cycles + 1 else b.cycles }

/-- Re-initialisation after the slice of the time unit (Table 21-2): the compare unit is disarmed and the capture queue emptied, of those that are free the lowest (DESIGN CHOICE, log 37). -/
def reinitTime (s : State) : State :=
  let out := ((List.range 8).find? fun k => s.parN .timeOutGpio k == 255).getD 0
  let cap := ((List.range 8).find? fun k => s.parN .timeCapReader k == 0).getD 0
  s.modTime fun x => { x with compare := updAt x.compare (16 + out) fun _ => {}, capture := updAt x.capture cap fun _ => [] }

/-- A slice has ended (R564, R566). -/
def endSlice (pos : Nat) (pass : Bool) (detail : Nat) (s : State) : State :=
  let s1 := sliceOutcome pos (sliceTarget s pos) (if pass then 0 else 1) detail ((if pos == 20 then reinitTime s else s).modBist fun b => { b with running := none })
  let s2 := if onePair s1 then s1 else advance pos s1
  if pos < 12 then bankSlice pos pass s2 else if pos < 16 then coreSlice pos pass s2 else s2

/-- BIST_SLICE (R559 to R566): in frame r = 50, once, the slice due is deferred while class P3 has no grant (R40), skipped or run; the slices of a failed pair, which is isolated, need none. mv is VCORE at its start, clockOk the clock of the block under test; result is its outcome with the detail of Table 21-6, none while it still runs. -/
def execBistSlice (t : Nat) (mv : BitVec 16) (clockOk : Bool) (result : Option (Bool × BitVec 32)) (s : State) : Host.Outcome State Fault Refusal :=
  let s := s.at_ t
  if !s.running || s.roundPos != 50 || t < s.frameStart + 5000000 || s.frameStart + 9000000 < t then .next s
  else match s.bist.running with
    | some pos => (match result with | some (pass, d) => .next (endSlice pos pass d.toNat s) | none => .next s)
    | none =>
      if s.bist.lastFrame == some s.time.frame then .next s
      else
      let s := s.modBist fun b => { b with lastFrame := some s.time.frame }
      let pos := slicePos s
      let u := unmet s pos mv.toNat clockOk
      if (p3Off s && !(onePair s && !s.therm.throttle && s.pwr.seqAt.isNone)) || (!onePair s && s.pwr.grant.getD 3 0 == 0) then .next (sliceOutcome pos (sliceTarget s pos) 3 0 s)
      else if (u != 0 || pos < 12 && (spareBank s).isNone && (retiredBank s).isNone) then .next (advance pos (sliceOutcome pos (sliceTarget s pos) 2 u s))
      else match result with
        | some (pass, d) => .next (endSlice pos pass d.toNat s)
        | none => .next (s.modBist fun b => { b with running := some pos })

/-- BIST_SLICE_ABORT (R45, R563): v is VCORE during the slice, which is aborted when it leaves 3 % or misses 9.0 ms; a takeover that claims the target aborts it by its own command (R565). -/
def execBistSliceAbort (v : VcoreRead) (s : State) : Host.Outcome State Fault Refusal :=
  let s := s.at_ v.t
  if s.running && (!vcoreOk v.mv.toNat || s.roundPos != 50 || decide (s.frameStart + 9000000 ≤ v.t)) then .next (abortSlice s) else .next s

/-- Lane slices of the round that ended (R561, R566, R567): the spare's and those of every failed lane; fails lists the lanes whose slices failed, with the vector. -/
def laneSlices (fails : List (Nat × Nat)) (s : State) : State :=
  forEach (List.range 5) (fun k s =>
    let l := s.reg.lanes.getD k {}
    if l.st != 2 && l.st != 3 then s
    else if !vcoreOk (s.pwr.mv.getD 4 0) || !s.parB .bistEnable then sliceOutcome (0x40 + k) k 2 (if s.parB .bistEnable then 1 else 3) s
    else match fails.lookup k with
      | some d =>
        let s1 := sliceOutcome (0x40 + k) k 1 d s
        if l.st == 2 then (failLane k s1).stand 0x4002 0 true else s1.updLane k fun l => { l with passes := 0 }
      | none =>
        let s1 := sliceOutcome (0x40 + k) k 0 0 s
        if l.st == 2 then s1
        else
          let s2 := s1.updLane k fun l => { l with passes := l.passes + 1 }
          if s.parN .bistRequalPasses ≤ l.passes + 1 then requalify k (s2.raise 0x8052 k) else s2) s

/-! Deep tests (R568). -/

/-- Duration of a block in ms (Table 21-4). -/
def deepMs (life : LifeCycle) : Nat → Nat
  | 0 => if life == .blank then 53200 else 13200
  | 1 => 9000 | 2 => 40000 | 3 => 2000 | 4 => 1000 | 5 => 1000 | _ => 200

def deepRefused (s : State) (block : Nat) : Bool :=
  let life := s.boot.life
  !(life == .blank || life == .provisioned || life == .returned) || !(s.boot.mode == .commission || s.boot.mode == .service) ||
  !((List.range 4).all fun n => (s.dstr n).conn == 0) || [5, 6, 7].contains s.upd.st || s.upd.beginFrame.isSome || s.bist.deep.isSome ||
  (block == 2 && life != .blank)

/-- Run deep self-test. -/
def cmdDeepTest (block : Nat) (s : State) : CmdOut :=
  if 6 < block then answer 9 0 s
  else if deepRefused s block then answer 7 0x8054 (s.raise 0x8054 0)
  else
    let s1 := s.modBist fun b => { b with deep := some (block, s.time.now + deepMs s.boot.life block * 1000000) }
    let s2 := if block == 5 || block == 0 then
        ((forEach (List.range 4) (fun n => loopOff n .off .command) s1).modReg fun r => { r with lanes := r.lanes.map fun l => { l with st := 4 }, takeover := none }).stand 0x4002 0 true
      else s1
    accept (stageAll s2)

/-- The block is out of its test; lanes serve as after Start, lane 4 is the spare (Table 21-4, R255), and the events of missing lanes clear (R259, R264). -/
def reloadLanes (s : State) : State :=
  let s1 := s.modReg fun r => { r with lanes := ({} : RegState).lanes, loops := r.loops.mapIdx fun n l => { l with lane := some n } }
  forEach (List.range 4) (fun n s => s.clear 0x4006 n) (s1.clear 0x4002 0)

/-- MRAM after every line of it was tested: as at manufacture, but for the update's selector and security floor (log 18). -/
def mramTested (s : State) : State :=
  let b : BootState := {}
  ((s.modBoot fun x => { x with
    journal := b.journal, newest := b.newest, tries := b.tries, lifeStore := b.lifeStore, shadow := none, confirm := {}, latchStore := {}, roster := {}
    keys := b.keys, progStore := {} }).modLearned fun _ => List.replicate 4 {}).modRecorder fun _ => {}

/-- Record and event of a deep test. -/
def deepRecord (block : Nat) (fails : BitVec 7) (detail : Nat) (s : State) : State :=
  let bad := if block == 0 then fails != 0 else fails.getLsbD block
  let s1 := bistRecord (0x80 + block) 0 (if bad then 1 else 0) (if bad then detail else 0) s
  if bad then s1.raise 0x8053 (evArg block 0) else s1

/-- DEEP_TEST_END (R568): fails has bit b set for a block b whose test failed, detail as Table 21-6. -/
def execDeepTestEnd (t : Nat) (fails : BitVec 7) (detail : BitVec 32) (s : State) : Host.Outcome State Fault Refusal :=
  let s := s.at_ t
  match s.bist.deep with
  | none => .next s
  | some (block, e) =>
    if t < e || !s.running then .next s
    else
      let s1 := s.modBist fun b => { b with deep := none }
      let s2 := if block == 0 then
          forEach [1, 2, 3, 4, 5, 6] (fun k s => if k == 2 && s.boot.life != .blank then bistRecord 0x82 0 2 0 s else deepRecord k fails detail.toNat s) s1
        else s1
      let s3 := deepRecord block fails detail.toNat s2
      match block with
      | 4 => .next (forEach ((List.range 4).filter (linkOn s3)) reloadLearned s3)
      | 5 => .next (reloadLanes s3)
      | 6 => .next (stageAll s3)
      | _ =>
        let s4 := if block == 2 || (block == 0 && s.boot.life == .blank) then mramTested s3 else s3
        .next (restartModule 1 s4)

/-! Reading (R570). -/

/-- Record of Table 21-6. -/
def bistBytes (r : BistRec) : List Byte :=
  toLE 4 r.seq ++ toLE 1 r.slice ++ toLE 1 r.target ++ toLE 1 r.outcome ++ toLE 1 0 ++ toLE 4 r.detail ++ toLE 4 r.ops ++ toLE 8 r.time ++ toLE 4 r.pc ++ toLE 4 0

/-- BIST_READ; detail holds the number of seq values skipped, as R484 does. -/
def opBistRead (pay : List Byte) (s : State) : OpOut :=
  let first := rd 4 0 pay
  let count := rd 1 4 pay
  if pay.length != 5 || count == 0 || 40 < count then opFail 9 0 s
  else
    let ring := s.bist.ring.reverse
    let oldest := match ring with | r :: _ => r.seq | [] => 0
    let recs := (ring.filter fun r => decide (first ≤ r.seq)).take count
    (s, 0, min (oldest - first) 65535, toLE 4 oldest ++ toLE 4 s.bist.seq ++ toLE 1 recs.length ++ toLE 3 0 ++ recs.flatMap bistBytes)

end Sys2Proof.Machine
end

