-- ==== Sys2Proof/Machine/Serve.lean ====
section
/-!
DEFINITION. Serve: reading the Comb (R49 to R57): frames and leases, keys, slots, and the image as bytes.
-/
namespace Sys2Proof.Machine

def serveAll (s : State) (buf : Nat) (img : Image) : List (Nat × Nat × Nat × Item) := (imageItems img).map fun e => (e.1, e.2.1, e.2.2.1, serveItem s buf img e)

/-! Slots and entries as bytes (Tables 3-3, 14-8). -/

/-- Status word of a slot: quality and age. An age beyond 24 bits reads as the highest that is not 0xFFFFFF (DESIGN CHOICE, log 26: R52 gives no rule for it). -/
def statusWord (it : Item) : Nat := qualityCode it.q + 256 * (match it.age with | some a => min a 0xFFFFFE | none => 0xFFFFFF)

/-- The 32-bit words of a value: sign- or zero-extended, low word first. -/
def valueWords (typ : Nat) (v : Int) : List Nat := if slotsOf typ == 2 then [field 64 v % 2 ^ 32, field 64 v / 2 ^ 32] else [field 32 v]

def slotBytes (e : Nat × Nat × Nat × Item) : List (List Byte) := (valueWords e.2.1 e.2.2.2.val).map fun w => toLE 4 w ++ toLE 4 (statusWord e.2.2.2)

/-- Entries of Table 14-8 for an item; a 64-bit item takes two. -/
def entryBytes (e : Nat × Nat × Nat × Item) : List (List Byte) :=
  (valueWords e.2.1 e.2.2.2.val).mapIdx fun k w => toLE 4 (e.1 + k) ++ toLE 4 w ++ toLE 4 (statusWord e.2.2.2)

def unknownEntry (key : Nat) : List Byte := toLE 4 key ++ toLE 4 0 ++ toLE 4 8

/-! Frames and leases (R49, R50). -/

/-- A request's frame: the buffer that holds it, or the status that answers it. Before the first publication every request is answered NotYet (DEDUCED, log 26: no frame has been published, whatever its number). -/
def frameFor (s : State) (f : Nat) : Nat ⊕ Nat :=
  match s.comb.published with
  | none => .inr 3
  | some p =>
    if f == 0xFFFFFFFFFFFFFFFF || f == p.frame then .inl 0
    else if p.frame < f then .inr 3
    else match s.comb.previous with
      | some q => if f == q.frame then .inl 1 else .inr 2
      | none => .inr 2

/-- End of the lease of frame N: the publication of frame N+2 (R47, R49). -/
def leaseEnd (n : Nat) : Nat := (n + 3) * frameNs + 5000000

/-- A read ended as Expired (R66). -/
def countExpired (s : State) : State := s.modComb fun c => { c with expired := c.expired + 1 }

/-- Item map of a version that is served: the one in force or the one before (R54). A version that has not been in force is answered like an older one, Expired (DESIGN CHOICE, log 26: R54 names older versions only). -/
def mapFor (s : State) (v : Nat) : Option (List (Nat × Nat × Nat)) :=
  if v == 0 || v == s.comb.mapVersion then some s.comb.map
  else match s.comb.prevMap with
    | some (p, m) => if v == p then some m else none
    | none => none

/-- Event 0x8020 stands while items are served under R64. -/
def noteRepair (s : State) (bad : Bool) : State := if bad && !(s.recorder.raised.any (·.1 == 0x8020)) then s.raise 0x8020 0 else s

/-! The image as bytes (Table 3-2, R51, R52). -/

/-- The 64-byte header: magic, format, flags, map version, frame, times, slot count, closed areas, place, 24 reserved bytes. -/
def headerBytes (i : Image) : List Byte :=
  toLE 2 0x4243 ++ toLE 1 1 ++ toLE 1 i.flags.toNat ++ toLE 4 i.mapVersion ++ toLE 8 i.frame ++ toLE 8 i.sampleTime ++ toLE 8 i.publishTime ++
    toLE 4 (slotCount i) ++ toLE 2 i.closed.toNat ++ toLE 2 (i.place.1 % 16 + 16 * (i.place.2 % 4096)) ++ toLE 24 0

/-- The image: its header, then the slots in the order of the item map. -/
def imageBytes (i : Image) : List Byte := headerBytes i ++ ((imageItems i).flatMap slotBytes).flatten

end Sys2Proof.Machine
end

