-- ==== Sys2Proof/Machine/Config.lean ====
section
/-!
DEFINITION. Config: parameters as written, committed and in force (R409 to R412, R527), the sections of the configuration image
(R511, R528), the refusal rules of a commit, and the commit itself (R529 to R531).
-/
namespace Sys2Proof.Machine

/-! Sections as bytes (Table 19-5). -/

/-- `n` fields of `w` octets from an offset. -/
def rdList (w n off : Nat) (bs : List Byte) : List Nat := (List.range n).map fun k => rd w (off + w * k) bs
def rdInts (n off : Nat) (bs : List Byte) : List Int := (rdList 2 n off bs).map (signed 16)
/-- A row-major matrix of float32 fields. -/
def rdMat (rows cols off : Nat) (bs : List Byte) : List (List Nat) := (List.range rows).map fun i => rdList 4 cols (off + 4 * cols * i) bs

/-- Item map: entries of R53. -/
def mapOf (bs : List Byte) : List (Nat × Nat × Nat) := (chunks 8 (bs.length / 8) bs).map fun e => (rd 4 0 e, rd 1 4 e, rd 1 5 e)

/-- OCV section of Table 6-5. -/
def ocvOf (bs : List Byte) : Ocv :=
  { format := rd 1 0 bs, nSoc := rd 1 1 bs, nTemp := rd 1 2 bs, chem := rd 2 4 bs, temp := rdInts 8 8 bs, tau1 := rdList 2 8 0x18 bs, tau2 := rdList 2 8 0x28 bs
    soc := rdList 2 64 0x38 bs, vChg := (List.range 8).map fun t => rdList 2 64 (0xB8 + 128 * t) bs, vDis := (List.range 8).map fun t => rdList 2 64 (0x4B8 + 128 * t) bs }

/-- Resistance factor section of Table 7-3. -/
def rfOf (bs : List Byte) : RFactor :=
  { format := rd 1 0 bs, nSoc := rd 1 1 bs, nTemp := rd 1 2 bs, chem := rd 2 4 bs, temp := rdInts 8 8 bs, soc := rdList 2 16 0x18 bs
    f := (List.range 8).map fun t => rdList 2 16 (0x38 + 32 * t) bs }

/-- Gain-set record of Table 8-3. -/
def gainSetOf (bs : List Byte) : GainSet :=
  { format := rd 1 0 bs, nX := rd 1 1 bs, nY := rd 1 2 bs, mode1 := bit (rd 1 3 bs) 0, sel := rdList 1 4 4 bs, track := rd 1 8 bs, setId := rd 4 0x0C bs
    a := rdMat 8 8 0x10 bs, b := rdMat 8 2 0x110 bs, l := rdMat 8 4 0x150 bs, c := rdMat 4 8 0x1D0 bs, k := rdMat 2 8 0x250 bs
    ki := rdList 4 2 0x290 bs, kr := rdList 4 2 0x298 bs, crcOk := crc32 (bs.take 0x2A0) == rd 4 0x2A0 bs }

/-- Region entry of Table 8-4. -/
def regionEntryOf (bs : List Byte) : Region :=
  { iLo := rd 4 0 bs, iHi := rd 4 4 bs, vLo := rd 4 8 bs, vHi := rd 4 12 bs, tLo := signed 16 (rd 2 0x10 bs), tHi := signed 16 (rd 2 0x12 bs), hT := rd 2 0x14 bs
    set := rd 1 0x16 bs, enabled := bit (rd 1 0x17 bs) 0, dflt := bit (rd 1 0x17 bs) 1, hI := rd 4 0x18 bs, hV := rd 4 0x1C bs }

/-- Station entry of Table 15-10. -/
def stationEntryOf (bs : List Byte) : StationCfg :=
  { node := rd 1 0 bs, enabled := bit (rd 1 1 bs) 0, tpdo := rd 1 2 bs, rpdo := rd 1 3 bs, hbMs := rd 2 4 bs, inBase := rd 2 8 bs, outBase := rd 2 0x0A bs, devType := rd 4 0x0C bs }

/-- Enrolment entry of Table 19-6. -/
def enrolOf (bs : List Byte) : Enrol := { uid := rd 8 0 bs, kDev := rd 16 8 bs, string := rd 1 0x18 bs % 4 }

/-- A configuration with one section given by its data bytes (R511). -/
def setSection (t : Nat) (bs : List Byte) (c : Cfg) : Cfg :=
  let c := { c with raw := (if bs.isEmpty then [] else [(t, bs)]) ++ c.raw.filter (·.1 != t) }
  match t with
  | 3 => { c with map := mapOf bs, hasMap := !bs.isEmpty }
  | 4 => { c with ocv := if bs.isEmpty then none else some (ocvOf bs) }
  | 5 => { c with rf := if bs.isEmpty then none else some (rfOf bs) }
  | 6 => { c with gains := (chunks 688 (bs.length / 688) bs).map gainSetOf }
  | 7 => { c with regions := (chunks 32 (bs.length / 32) bs).map regionEntryOf }
  | 8 => { c with stations := (chunks 32 (bs.length / 32) bs).map stationEntryOf }
  | 9 => { c with enrol := (chunks 32 (bs.length / 32) bs).map enrolOf }
  | _ => c

def sectionBytes (c : Cfg) (t : Nat) : List Byte := (c.raw.lookup t).getD []

/-! Values of parameters. -/

/-- Code of a life-cycle state (Table 19-1). -/
def lifeCode : LifeCycle → Nat
  | .blank => 0 | .provisioned => 1 | .field => 2 | .returned => 3

def lifeOf : Nat → LifeCycle
  | 1 => .provisioned | 2 => .field | 3 => .returned | _ => .blank

/-- A parameter's value in a configuration: sections by their bytes, boot.lifecycle and boot.uid by the state, a role key as zero when read (R394). -/
def valueIn (s : State) (c : Cfg) (k : ParamKey) : Int :=
  match k.p with
  | .bootSectionLen => (sectionBytes c k.i).length
  | .bootSection => (rd 32 k.j (sectionBytes c k.i) : Nat)
  | .bootUid => s.boot.uid
  | .bootModuleKeyX => s.boot.moduleKey.1
  | .bootModuleKeyY => s.boot.moduleKey.2
  | .updKeyX => s.boot.updKey.1
  | .updKeyY => s.boot.updKey.2
  | .bootLifecycle => match c.params.lookup k with | some v => v | none => lifeCode s.boot.life
  | _ => paramIn c.params k

/-- A section piece or length: it has no running value of its own before a commit. -/
def isSection (k : ParamKey) : Bool := k.p == .bootSection || k.p == .bootSectionLen

/-- The running value that PARAM_READ shows: a pending write that acts at its own point is running once it has acted (R409, R410). -/
def runValue (s : State) (k : ParamKey) : Int := valueIn s s.boot.run k
def comValue (s : State) (k : ParamKey) : Int := valueIn s s.boot.com k

/-- A value is handed to its block at the point of its Takes effect column (R410). -/
def actAt (k : ParamKey) (v : Int) (s : State) : State :=
  match k.p.desc.effect with
  | .now => s.modBoot fun b => { b with run := { b.run with params := setParam b.run.params k v } }
  | .frame => s.modBoot fun b => { b with frameW := (k, v) :: b.frameW.filter (·.1 != k) }
  | .round => s.modBoot fun b => { b with roundW := (k, v) :: b.roundW.filter (·.1 != k) }
  | _ => s

/-- An accepted write (R410, R411): volatile and pending until a commit. -/
def writeParam (k : ParamKey) (v : Int) (s : State) : State :=
  let rest := s.boot.pend.filter (·.1 != k)
  let keep := isSection k || v != comValue s k
  actAt k v (s.modBoot fun b => { b with pend := if keep then (k, v) :: rest else rest })

/-- Writes that wait for a frame or round boundary take force there; those of a shadow that missed an earlier boundary first, and what arrived after them at the boundary that follows (R23). A change of the counting channel is recorded (R193). -/
def frameWrites (s : State) : State :=
  let r := s.roundPos == 0
  let due := (if s.boot.framePend.isEmpty then s.boot.frameW else s.boot.framePend) ++ (if r then s.boot.roundW else [])
  let s1 := s.modBoot fun b => { b with
    run := { b.run with params := due.foldl (fun ps e => setParam ps e.1 e.2) b.run.params }
    framePend := [], frameW := if b.framePend.isEmpty then [] else b.frameW, roundW := if r then [] else b.roundW }
  if s1.par .estISource == s.par .estISource then s1 else s1.raise 0x300C 0

/-- DISCARD (R411): every pending parameter goes back to its committed value, and the lock ends. -/
def discardWrites (s : State) : State :=
  let old := s.boot.pend
  (forEach old (fun e s => if isSection e.1 then s else actAt e.1 (comValue s e.1) s) s).modBoot fun b => { b with pend := [] }

/-- Role may write a parameter and commit its change (R301, R394, R395, R410). -/
def mayWrite (s : State) (r : Role) (k : ParamKey) : Bool :=
  let eng := r == .engineer || r == .vendor
  if isSafetyName k.p then r == .safety
  else match k.p with
    | .hostKey => if k.i == 3 then r == .safety || (r == .vendor && comValue s k == 0) else eng
    | .bootSignKeyX | .bootSignKeyY => r == .vendor && (s.boot.life == .blank || s.boot.life == .provisioned)
    | _ => eng

/-! Refusal rules of the owning chapters (R412, R514). -/

/-- Slots that an item map needs: two for a 64-bit item (R51, R52). -/
def mapSlots (m : List (Nat × Nat × Nat)) : Nat := (m.map fun e => if e.2.1 == 4 || e.2.1 == 8 then 2 else 1).foldl (· + ·) 0

/-- Routes pass R100. -/
def routesOk (ps : List (ParamKey × Int)) : Bool :=
  (List.range 4).all fun n =>
    let bricks := (paramIn ps { p := .linkBricks, i := n }).toNat
    let rs := (List.range 36).map fun b => (b, (paramIn ps { p := .linkRoute, i := n, j := b }).toNat)
    let ends := rs.flatMap fun r => [r.2 % 64, r.2 / 256 % 64].filter (· != 63)
    rs.all (fun r => r.2 % 64 != r.1 && r.2 / 256 % 64 != r.1 && (r.2 % 64 == 63 || r.2 % 64 != r.2 / 256 % 64)) &&
      ends.all (fun x => decide (x < bricks)) && (List.range 36).all fun x => decide ((ends.filter (· == x)).length ≤ 4)

/-- Time outputs and carrier phases pass R375 and R381, phase and width up to the period - 2 of their ranges (Table 13-7). -/
def timeOk (ps : List (ParamKey × Int)) : Bool :=
  let v (p : PName) (i : Nat := 0) : Int := paramIn ps { p := p, i := i }
  let outs := (List.range 8).filter fun k => v .timeOutGpio k != 255
  let pins := outs.map (v .timeOutGpio ·)
  let therm := ((List.range 4).flatMap fun n => [v .thermCoolGpio n, v .thermHeatGpio n]).filter (· != 255)
  (List.range 8).all (fun k => 1000000000 % v .timeOutPeriod k == 0 && decide (v .timeOutPhase k + 2 ≤ v .timeOutPeriod k) && decide (v .timeOutWidth k + 2 ≤ v .timeOutPeriod k)) &&
    pins.eraseDups.length == pins.length && pins.all (fun p => !therm.contains p) &&
    ((List.range 4).filter fun n => bit (v .regStrings).toNat n).all fun n => decide (10 * v .regPwmPhase n + 10 * v .bootPosition * v .timeBlockStagger ≤ 19990)

/-- Safety parameters pass R340 and R346. -/
def safetyOk (ps : List (ParamKey × Int)) : Bool :=
  let v (p : PName) (i : Nat := 0) : Int := paramIn ps { p := p, i := i }
  let r (p : PName) (i : Nat := 0) : Rat := f32.rat (v p i).toNat
  let conns := (((List.range 4).map fun k => v .safeResetConn k) ++ (List.range 4).map fun k => v .safeFslTrip k).filter (· != 0)
  decide (v .safeCellUv < v .safeCellOv) && decide (v .safeCellChgLo < v .safeCellChgHi) && decide (v .safeVbusMin < v .safeVbusMax) &&
    (List.range 4).all (fun n => decide ((v .safeOcI : Rat) / 10 ≤ 95 / 100 * r .safeCalGain (4 * n))) &&
    conns.eraseDups.length == conns.length && !conns.contains (v .safeFslStatusConn) && v .safeFslCanRx != v .safeFslCanTx &&
    decide (v .safeFslWdMin < v .safeFslWdMax) && decide (10 * v .safeFslStatusPeriod ≤ v .safeFslStatusWd)

/-- Every section that Table 19-5 requires is present. -/
def sectionsPresent (c : Cfg) : Bool :=
  let v (p : PName) : Int := paramIn c.params { p := p }
  c.hasMap && (v .linkStrings == 0 || (c.ocv.isSome && c.rf.isSome && !c.enrol.isEmpty)) && (v .regStrings == 0 || (!c.gains.isEmpty && !c.regions.isEmpty)) &&
    (v .canCoPort == 255 || !c.stations.isEmpty)

/-- Events of the commit refusals, which clear when the next commit is accepted. -/
def refusalEvents : List Nat := [0x9020, 0x2010, 0x1010, 0x3010, 0x3024, 0x3030, 0x4007, 0x400C, 0x402E, 0xA030, 0x5013, 0x6012, 0x603D, 0x900E]

/-- First refusal rule, in the order of the chapters, that a content breaks: its event (R412, R514 check 5). -/
def contentFault (s : State) (c : Cfg) : Option Nat :=
  let ps := c.params
  let v (p : PName) (i : Nat := 0) : Int := paramIn ps { p := p, i := i }
  let chem := match c.ocv with | some o => o.chem | none => 0
  [ (sectionsPresent c && decide (c.enrol.length ≤ 256), 0x900E), (decide (mapSlots c.map ≤ 24568), 0x9020), (routesOk ps, 0x2010), (decide (v .cellBalStop < v .cellBalBand), 0x1010),
    (match c.ocv with | some o => ocvOk o | none => true, 0x3010), (match c.rf with | some f => rfOk chem f | none => true, 0x3024), (surveyParOk ps, 0x3030),
    (gainsOk (v .regStrings).toNat c.gains c.regions, 0x4007), (pwmOk ps, 0x400C), (dispOk ps, 0x402E), (thermalOk ps, 0xA030), (safetyOk ps, 0x5013),
    (progPinsOk s ps, 0x7003), (timeOk ps, 0x6012), (canOk ps c.stations, 0x603D) ].findSome? fun x => if x.1 then none else some x.2

/-! The commit (R412, R529). -/

/-- Pieces written for section t cover its length (R528). -/
def pieceBytes (s : State) (t : Nat) : Option (List Byte) :=
  let len := match s.boot.pend.lookup { p := .bootSectionLen, i := t } with | some v => v.toNat | none => (sectionBytes s.boot.com t).length
  let ps := (List.range ((len + 31) / 32)).map fun k => s.boot.pend.lookup { p := .bootSection, i := t, j := 32 * k }
  if ps.all (·.isSome) then some ((ps.flatMap fun p => toLE 32 (field 256 (p.getD 0))).take len) else none

/-- Sections written through pieces. -/
def writtenSections (s : State) : List Nat := [3, 4, 5, 6, 7, 8, 9].filter fun t => s.boot.pend.any fun e => isSection e.1 && e.1.i == t

/-- Content of the generation to be committed; none when pieces do not cover a section (R528). -/
def newContent (s : State) : Option Cfg :=
  let c0 : Cfg := { s.boot.com with params := (s.boot.pend.filter fun e => !isSection e.1).foldl (fun ps e => setLife ps e.1 e.2) s.boot.com.params }
  (writtenSections s).foldl (fun c t => match c, pieceBytes s t with | some c, some bs => some (setSection t bs c) | _, _ => none) (some c0)
where
  setLife (ps : List (ParamKey × Int)) (k : ParamKey) (v : Int) : List (ParamKey × Int) := if k.p == .bootLifecycle then (k, v) :: ps.filter (·.1 != k) else setParam ps k v

/-- A life-cycle change of Table 19-2 with its role and its condition. -/
def lifeChangeOk (s : State) (r : Role) (goal : Nat) : Bool :=
  let cover := [s.boot.copyA, s.boot.copyB, s.boot.shadow].findSome? fun o => match o with | some i => if i.bad == 0 && i.gen == s.boot.runGen then some i else none | none => none
  let confirmedNow := match confirmed s with | some (g, v) => g == s.boot.runGen || (match cover with | some i => g == i.confirmGen && v == i.scv | none => false) | none => false
  match s.boot.life, goal with
  | .blank, 1 => r == .vendor
  | .provisioned, 2 => (r == .engineer || r == .vendor) && confirmedNow
  | .field, 3 => r == .engineer
  | .returned, 1 => r == .vendor
  | .returned, 0 => r == .vendor
  | _, _ => false

/-- Highest generation that a copy holds. -/
def highestGen (s : State) : Nat := [s.boot.copyA, s.boot.copyB, s.boot.shadow].foldl (fun m o => match o with | some i => if i.bad == 0 then max m i.gen else m | none => m) 0

/-- Number of the new generation (R519, R520, R529). -/
def nextGen (s : State) : Nat :=
  if s.boot.phase == .halted then highestGen s + 1 else if s.boot.aside != 0 then s.boot.aside + 1 else s.boot.comGen + 1

/-- Pending changes that differ from the committed value. -/
def changed (s : State) : List (ParamKey × Int) := s.boot.pend.filter fun e => isSection e.1 || e.2 != comValue s e.1

/-- Whether the stored confirmation covers the committed generation (R529 step 2, R530). -/
def comConfirm (s : State) : Nat :=
  let prev := [s.boot.copyA, s.boot.copyB, s.boot.shadow].findSome? fun o => match o with | some i => if i.gen == s.boot.comGen then some i.confirmGen else none | none => none
  match confirmed s with
  | some (g, _) => if g == s.boot.comGen then s.boot.comGen else prev.getD 0
  | none => prev.getD 0

/-! The image container (R510 to R513). -/

/-- Data of the parameters section: records of the parameters that differ from their defaults, and none of `safe.*`. -/
def parameterSection (c : Cfg) : List Byte := (c.params.filter fun e => !isSafetyName e.1.p).flatMap fun e => paramRecord e.1 e.2

/-- Sections of an image by their tags. -/
def imageSections (c : Cfg) : List (Nat × List Byte) :=
  ((1, parameterSection c) :: (2, safetySection c.params) :: c.raw).filter fun x => !x.2.isEmpty

/-- A section (Table 19-4). -/
def sectionForm (x : Nat × List Byte) : List Byte :=
  let b := toLE 2 x.1 ++ toLE 2 0 ++ toLE 4 x.2.length ++ x.2
  b ++ toLE 4 (crc32 b)

/-- Length of an image: header, sections, signature. -/
def imageLen (c : Cfg) : Nat := 0x40 + ((imageSections c).map fun x => 12 + x.2.length).sum + 64

/-- The image would break check 1 of R514, which R529 step 3 applies. No event is named for it: 0x900E, the refusal of a section too large (DESIGN CHOICE, log 34). -/
def imageTooLong (c : Cfg) : Bool := decide (1048576 < imageLen c)

/-- Header (Table 19-3). -/
def headerForm (uid : Nat) (i : CfgImage) : List Byte :=
  let b := toLE 2 0x4643 ++ toLE 1 1 ++ toLE 1 i.keyId ++ toLE 4 i.gen ++ toLE 4 i.size ++ toLE 2 (imageSections i.cfg).length ++ toLE 2 0 ++ toLE 8 uid ++
    toLE 8 i.time ++ toLE 4 i.base ++ toLE 4 i.scv ++ toLE 4 i.confirmGen
  b ++ toLE 4 (crc32 b) ++ List.replicate 16 0

/-- Bytes of an image on flash with a signature r, s (R510, R513). -/
def imageForm (uid r s : Nat) (i : CfgImage) : List Byte := headerForm uid i ++ (imageSections i.cfg).flatMap sectionForm ++ toLE 32 r ++ toLE 32 s

/-- The image of a new generation (R510, R529), signed with key 0. -/
def buildImage (s : State) (c : Cfg) : CfgImage :=
  let same := safetySection c.params == safetySection s.boot.com.params
  { gen := nextGen s, keyId := 0, base := s.boot.comGen, scv := scvOf c.params, confirmGen := if same then comConfirm s else 0, time := s.time.now, size := imageLen c, cfg := c }

/-- COMMIT (R412): the commit begins, or is refused with its event. The reply to an accepted one comes when its writes are done. -/
def beginCommit (slot session seq : Nat) (r : Role) (expected : Nat) (s : State) : CmdOut × Bool :=
  let refuseC (code : Nat) : CmdOut × Bool := ((s.raise code 0, 8, code), false)
  let ch := changed s
  let safetyCh := ch.any fun e => isSafetyName e.1.p
  if (match s.boot.commit with | some _ => true | none => false) then (answer 13 0 s, false)
  else if (match s.host.lock with | some id => id != session | none => false) then (answer 12 0 s, false)
  else if expected != s.boot.comGen then refuseC 0x6023
  else if s.therm.flashInh then (((s.raise 0xA022 0), 14, 0xA022), false)
  else if !(ch.all fun e => mayWrite s r e.1) then (answer 6 0 s, false)
  else if safetyCh && (s.boot.mode != .commission || s.boot.life == .blank || s.boot.life == .returned) then ((s.raise 0x5013 0, 7, 0x5013), false)
  else if (match ch.find? (·.1.p == .bootLifecycle) with | some e => !lifeChangeOk s r e.2.toNat | none => false) then refuseC 0x900E
  else if 0xFFFFFFFF ≤ nextGen s then refuseC 0x900F
  else match newContent s with
    | none => refuseC 0x900E
    | some c => match (if imageTooLong c then some 0x900E else contentFault s c) with
      | some code => refuseC code
      | none =>
        let s1 := forEach refusalEvents State.clearAll (s.modHost fun h => { h with lock := none })
        (accept (s1.modBoot fun b => { b with commit := some { img := buildImage s c, slot := slot, session := session, seq := seq } }), true)

/-- Copy that step 4 writes first: the one with the lower generation, or at equal generations the one not on boot.flash.first (R529). -/
def firstIsB (s : State) : Bool :=
  let g (o : Option CfgImage) : Nat := match o with | some i => if i.bad == 0 then i.gen else 0 | none => 0
  if g s.boot.copyA == g s.boot.copyB then s.parN .bootFlashFirst == 0 else decide (g s.boot.copyB < g s.boot.copyA)

/-- A copy counts as valid or not from now on (R29, R534): 0 copy A, 1 copy B, 2 the shadow. -/
def markCopy (k : Nat) (ok : Bool) (s : State) : State :=
  s.modBoot fun b => { b with validCopies := if ok then b.validCopies ||| (1#3 <<< k) else b.validCopies &&& ~~~(1#3 <<< k) }

def setCopy (b : Bool) (i : CfgImage) (s : State) : State :=
  markCopy (if b then 1 else 0) (i.bad == 0) (s.modBoot fun x => if b then { x with copyB := some i } else { x with copyA := some i })

/-- The writes of a commit end (R529, R531): step 4 fails, or the commit stands and step 6 may have failed. -/
def finishCommit (ok4 ok6 : Bool) (c : CommitRun) (s : State) : CmdOut :=
  let fb := firstIsB s
  let s0 := s.modBoot fun b => { b with commit := none }
  if !ok4 then
    let s1 := (setCopy fb { c.img with bad := 1 } s0).raise 0x900B 0
    (s1, 8, 0x900B)
  else
    let s1 := setCopy (!fb) { c.img with bad := if ok6 then 0 else 1 } (setCopy fb c.img s0)
    let s2 := s1.modBoot fun b => { b with
      shadow := some c.img, comGen := c.img.gen, com := c.img.cfg, aside := 0, toApply := some c.img.cfg
      pend := b.pend.filter fun e => !isSection e.1 && e.2 != valueIn s1 c.img.cfg e.1 }
    let s3 := markCopy 2 true (updJournal (fun j => { j with setAside := 0 }) s2)
    accept ((if ok6 then s3 else s3.raise 0x900B 0).raise 0x900A 0)

/-- A committed content takes force at the first frame boundary after completion (R24, R529): parameters whose column says commit, and the sections. -/
def applyCommit (s : State) : State :=
  match s.boot.applyPend.orElse fun _ => s.boot.toApply with
  | none => s
  | some c =>
    let old := s.boot.run
    let keys := (old.params.map (·.1) ++ c.params.map (·.1)).filter fun k => k.p.desc.effect == .commit && k.p != .bootLifecycle
    let ps := keys.foldl (fun ps k => setParam ps k (paramIn c.params k)) old.params
    let run : Cfg := { c with params := ps }
    let s1 := s.modBoot fun b => { b with run := run, runGen := b.comGen, applyPend := none, toApply := if b.applyPend.isSome then b.toApply else none }
    let s2 := if c.map == old.map then s1 else s1.modComb fun m => { m with mapVersion := m.mapVersion + 1, prevMap := some (m.mapVersion, m.map), map := c.map, newMap := true }
    let s3 := forEach (List.range 4) (newSets old c) s2
    forEach (List.range 144) judgeThr (loadRoutes true (sensorCommit old.params s3))
where
  /-- Gain sets or region entries of string n that differ swap in at the tick boundary (R244); the content in force is kept for the preset. -/
  newSets (old c : Cfg) (n : Nat) (s : State) : State :=
    let mine {α : Type} (l : List α) : List α := (l.drop (16 * n)).take 16
    if mine c.gains == mine old.gains && mine c.regions == mine old.regions then s
    else (s.modReg fun r => { r with newSets := updAt r.newSets n fun _ => true }).updLoop n fun l => { l with oldSet := l.oldSet.orElse fun _ => some (old.gains.getD (16 * n + l.gset) {}) }
  /-- Route tables of the strings as configured; a change sends RELAY_SET to every relay that the table names or named (R91). -/
  loadRoutes (tell : Bool) (s : State) : State :=
    forEach (List.range 4) (fun n s =>
      let t := (List.range 36).map fun b => BitVec.ofNat 16 (s.parN .linkRoute n b)
      if t == (s.link n).routes then s
      else
        let relays := (List.range 36).filter fun p => !(clientsOf s n p).isEmpty
        let s1 := s.updLink n fun l => { l with routes := t }
        if tell then forEach (List.range 36) (fun p s => if relays.contains p then relaySet n p s else sendRelaySet n p s) s1 else s1) s

end Sys2Proof.Machine
end

