-- ==== Sys2Proof/Machine/Power.lean ====
section
/-!
DEFINITION. Power: chapter 22, supplies, the budget arbiter, the power-fail sequence, and the edges of POR_N and VMAIN (R321, R335, R515).
-/
namespace Sys2Proof.Machine

/-! Supplies (R572). -/

/-- Operating range of VMAIN, VGUARD, VIO, VIO18 and VCORE in mV (Table 22-1). -/
def supplyRange : List (Nat × Nat) := [(9000, 16000), (3135, 3465), (3135, 3465), (1710, 1890), (760, 840)]

/-- Bit of each supply that lies outside its range. -/
def suppliesOut (mv : List Nat) : BitVec 5 :=
  BitVec.ofNat 5 (((List.range 5).filter fun k => let r := supplyRange.getD k (0, 0); let v := mv.getD k 0; !(decide (r.1 ≤ v) && decide (v ≤ r.2))).map (2 ^ ·)).sum

/-- ROUND_SUPPLY_SAMPLE (R42, R572, R576): supplies in mV, input power and estimated power of each domain in mW. -/
def execRoundSupplySample (t : Nat) (mv : List Nat) (input : Nat) (dom : List Nat) (s : State) : Host.Outcome State Fault Refusal :=
  let s := s.at_ t
  if !s.up || s.roundPos != 0 || t < s.frameStart + 7000000 || s.frameStart + 7500000 < t then .next s
  else
    let out := suppliesOut mv
    .next ((s.modPwr fun p => { p with mv := mv, out := out, sampledAt := some s.time.frame, input := input, pIdleNew := (input : Int) - (p.grant.sum : Nat), domPower := dom }).stand 0xA040 0 (out != 0))

/-! The budget arbiter (R575 to R577). -/

/-- What class c may have of its request (R576), in whole mW (rounding of the share: log 5). -/
def allowed (s : State) (req : List Nat) (c : Nat) : Nat :=
  let r := req.getD c 0
  if c == 2 && s.therm.throttle then (wholeUnits (((r * s.parN .thermDieP2Share : Nat) : Rat) / 1000)).toNat
  else if c == 3 then (if p3Off s then 0 else min r (s.parN .pwrP3Max))
  else r

/-- Grants of the classes in order, from the power available. -/
def grantFrom (s : State) (req : List Nat) : List Nat → Int → List Nat
  | [], _ => []
  | c :: cs, avail =>
    let g := if c == 0 then allowed s req c else min (allowed s req c) (max avail 0).toNat
    g :: grantFrom s req cs (avail - (g : Nat))

/-- The arbiter at a frame boundary: p_idle of the last sample from r = 1, grants, and their events. -/
def arbiterFrame (req : List Nat) (s : State) : State :=
  let s1 := if s.roundPos == 1 then s.modPwr fun p => { p with pIdle := p.pIdleNew } else s
  let g := grantFrom s1 req [0, 1, 2, 3] (s1.par .pwrLimit - s1.pwr.pIdle)
  let short (c : Nat) : Bool := decide (g.getD c 0 < req.getD c 0)
  let s2 := s1.modPwr fun p => { p with req := req, grant := g, cut := if short 0 || short 1 || short 2 || short 3 then p.cut + 1 else p.cut }
  let s3 := s2.stand 0xA042 0 (short 0 || short 1)
  if short 2 || short 3 then s3.raiseRound 0xA043 0 else s3

/-! Redundancy (R29). -/

/-- Redundancies that are absent, as the owning blocks report them at a frame boundary. Of the states of a CAN port those that Table 1-7 names for its loss set bit 4, error-passive and bus-off (DEDUCED, log 33): a port that is off by configuration, listens only or still detects its rate has not failed. -/
def redundancyLost (s : State) : BitVec 7 :=
  let b (k : Nat) (on : Bool) : BitVec 7 := if on then BitVec.ofNat 7 (2 ^ k) else 0
  b 0 (!s.reg.lanes.any fun l => l.st == 1 || l.st == 2) ||| b 1 (spareBank s).isNone ||| b 2 (onePair s) ||| b 3 (!s.host.lanOk.all id) |||
  b 4 (s.can.ports.any fun p => p.st == 2 || p.st == 3) ||| b 5 (!(s.boot.validCopies.getLsbD 0 && s.boot.validCopies.getLsbD 1)) ||| b 6 (s.core.faultsHeld != 0)

/-- The report at a frame boundary (R29). No parameter of the spec configures a reaction for running without redundancy, and none is applied (DESIGN CHOICE, log 33). -/
def redundancyFrame (s : State) : State := s.modPwr fun p => { p with lost := redundancyLost s }

/-! Power-fail warning (R580, R581). -/

/-- The writes of a commit end, and its request is answered (R412, R529, R531). -/
def endCommit (ok4 ok6 : Bool) (s : State) : State :=
  match s.boot.commit with
  | none => s
  | some c =>
    let r := finishCommit ok4 ok6 c s
    let body := if r.2.1 == 0 then toLE 4 c.img.gen ++ toLE 4 c.img.scv else []
    finishReply c.session c.slot 0x0304 c.seq [stBytes r.2.1 r.2.2 ++ body] r.1

/-- A flash write in progress at the counted edge is abandoned: a commit in step 4 fails, one in step 6 stands (R581). -/
def abandonFlash (step6 : Bool) (s : State) : State :=
  match s.boot.commit with
  | some _ => endCommit step6 false (s.raise 0xA044 0)
  | none => s

/-- The journal entry of this session has been opened. -/
def journalOpen (s : State) : Bool := s.boot.phase == .run || s.boot.phase == .halted || (s.boot.phase == .start && decide (1 < s.boot.step))

/-- The learned values of the strings have been loaded, so that they can be written again (R224, R580). -/
def learnedLoaded (s : State) : Bool := s.running || (s.boot.phase == .start && decide (8 < s.boot.step))

/-- PFW_N_FALL (R580): t is the time at which the edge counts, 10 us after it; step6 says that a commit in progress stands in step 6 of R529. -/
def execPfwNFall (t : Nat) (step6 : Bool) (s : State) : Host.Outcome State Fault Refusal :=
  let s := s.at_ t
  if !(s.up || s.boot.phase == .halted) then .next (s.modBoot fun b => { b with pfwN := false })
  else if s.pwr.seqAt.isSome then .next (s.modBoot fun b => { b with pfwN := false })
  else
    let s1 := (s.modBoot fun b => { b with pfwN := false }).modPwr fun p => { p with seqAt := some s.time.now, pfw := p.pfw + 1, grant := updAt p.grant 3 fun _ => 0 }
    let s2 := abandonFlash step6 (s1.raise 0xA041 0)
    let s3 := if journalOpen s2 then updJournal (fun j => { j with pfwT := s2.time.now - 10000 }) s2 else s2
    .next (if learnedLoaded s3 then writeAll 3 s3 else s3)

/-- POWER_FAIL_SEQUENCE_END (R580): the level of PFW_N and VMAIN in mV at its end, which is no earlier than the event records' 14 ms. P3 is granted again from the next frame boundary. -/
def execPowerFailSequenceEnd (t : Nat) (high : Bool) (vmain : BitVec 16) (s : State) : Host.Outcome State Fault Refusal :=
  let s := s.at_ t
  match s.pwr.seqAt with
  | none => .next s
  | some a =>
    if s.time.now < a + 13990000 then .next s
    else
      let s1 := s.modBoot fun b => { b with pfwN := high }
      let s2 := if high then s1.clear 0xA041 0 else s1
      .next (if high && decide (9000 ≤ vmain.toNat) && decide (vmain.toNat ≤ 16000) then s2.modPwr fun p => { p with seqAt := none } else s2)

/-! VMAIN and POR_N. -/

/-- VMAIN_LOSS (R327, R572, R583): the main die is held in reset, D0 AON loses its content, and the modulator clocks stop, so that no low current counts from here on. -/
def execVmainLoss (t : Nat) (s : State) : Host.Outcome State Fault Refusal :=
  let s := s.at_ t
  if !s.pwr.vmain then .next s
  else
    let s1 := mainReset (if s.boot.porN then .mainReset else .por) 0 s
    .next (((s1.modPwr fun p => { p with vmain := false, domains := p.domains &&& 2 }).modTime fun _ => { now := s.time.now }).modGuard fun g => { g with lowSince := g.lowSince.map fun _ => none })

/-- VMAIN_RETURN (R366, R572): the main die starts; module time runs on from the one stored at the last power-fail warning. -/
def execVmainReturn (s : State) : Host.Outcome State Fault Refusal :=
  if s.pwr.vmain then .next s
  else
    let s1 := stepTime (lastPfw s) (s.modPwr fun p => { p with vmain := true })
    if s.boot.porN then .next (stageAll (mainReset .start 0 s1)) else .next (s1.modPwr fun p => { p with domains := 3 })

/-- POR_N_ASSERT (R321, R339, R573): no latch stays, the load port opens, every output goes low; the filtered input levels stay. -/
def execPorNAssert (t : Nat) (s : State) : Host.Outcome State Fault Refusal :=
  let s := s.at_ t
  let g := s.guard
  let s1 := mainReset .por 0 s
  .next (outputsOff ((s1.modGuard fun _ => { ({} : Guard) with cfb := g.cfb, tripA := g.tripA, tripB := g.tripB, resetHigh := g.resetHigh }).modBoot fun b => { b with porN := false }))

/-- POR_N_RELEASE (R335, R515, R573): Start begins; the levels of RESET_N and PFW_N at that moment. A low RESET_N is a reset input fault. -/
def execPorNRelease (t : Nat) (resetHigh pfwHigh : Bool) (s : State) : Host.Outcome State Fault Refusal :=
  let s := s.at_ t
  if s.boot.porN then .next s
  else
    let s1 := (s.modBoot fun b => { b with porN := true, pfwN := pfwHigh }).modPwr fun p => { p with vguard := true }
    let s2 := mainReset (if s.pwr.vmain then .start else .mainReset) 0 s1
    let s3 := s2.modGuard fun g => { g with resetHigh := resetHigh, resetAt := s2.time.now, inFault := !resetHigh }
    .next (if resetHigh then s3 else gRaise 0x500A 0 (setGLatch 4 (sf 22) s3))

end Sys2Proof.Machine
end

