-- ==== Sys2Proof/Machine/Modes.lean ====
section
/-!
DEFINITION. Modes: the modes of Table 19-10 and their changes (R523 to R526), and the commands of Table 14-7 that the module as a whole
carries out: restart, network key, roster entry, open-wire test, SCV confirmation.
-/
namespace Sys2Proof.Machine

/-! Mode changes. -/

/-- Either channel holds a group latch (R320). -/
def groupLatched (s : State) : Bool := (s.guard.latch.getD 4 {}).on || s.core.latch.getD 4 false

/-- Table 19-1 admits a mode in the life-cycle state. -/
def lifeAdmits (l : LifeCycle) (m : Mode) : Bool :=
  match l with
  | .blank => m == .commission
  | .field => true
  | _ => m == .commission || m == .standby || m == .service || m == .lockout

/-- Table 19-11: mode changes that a command may ask for. -/
def changeAdmitted (s : State) (goal : Mode) : Bool :=
  lifeAdmits s.boot.life goal && match s.boot.mode, goal with
    | .commission, .standby => true
    | .standby, .commission => true
    | .standby, .operate => true
    | .standby, .service => true
    | .operate, .service => true
    | .operate, .standby => true
    | .service, .standby => true
    | .service, .operate => true
    | _, _ => false

/-- Role holds the rights of an Engineer (Table 14-5). -/
def engineer (r : Role) : Bool := r == .engineer || r == .vendor
/-- Role holds the rights of an Operator. -/
def operator (r : Role) : Bool := r == .operator || engineer r

/-- Change mode (R524, R525): accepted by 9.0 ms of frame K it acts at the boundary of frame K+1, later at that of frame K+2. -/
def cmdChangeMode (code : Nat) (r : Role) (t : Nat) (s : State) : CmdOut :=
  match (if 1 ≤ code && code ≤ 4 then modeOfCode code else none) with
  | none => answer 9 0 s
  | some m =>
    if !(if code == 2 || code == 3 then operator r else engineer r) then answer 6 0 s
    else if !changeAdmitted s m then answer 7 0x9009 (s.raise 0x9009 0)
    else
      let f := s.time.frame + (if t ≤ s.frameStart + 9000000 then 1 else 2)
      accept (s.modBoot fun b => { b with modeNext := b.modeNext ++ [(m, f)] })

/-- A mode takes force for an owner (R25) with what each chapter does at its entry; the mode that ends Start is no change of R525 (R222, R249, R277, R282, R285, R445). -/
def enterMode (m : Mode) (o : Owner) (s : State) : State :=
  let old := s.boot.mode
  if old == m then s
  else
    let s0 := (s.modBoot fun b => { b with mode := m }).because .mode o
    let s1 := if old == .start then s0 else s0.raise 0x9008 0
    let s2 := if old == .operate then closeRests s1 else s1
    let s3 := if m == .commission || m == .service then s2 else leaveManual s2
    match m with
    | .standby => writeAll 2 (disconnectAll s3)
    | .operate => autoConnect (progOperate s3)
    | _ => s3

/-- Mode changes due at a frame boundary (R525, R526): a group latch before any command, and of the commands for one boundary the last. A change that Table 19-11 no longer gives, after one that acted a frame earlier, is refused at its boundary (DEDUCED, log 34). -/
def modeFrame (s : State) : State :=
  let pend := s.boot.modeNext
  let drop (s : State) : State := forEach pend (fun _ s => s.raise 0x9009 0) (s.modBoot fun b => { b with modeNext := [] })
  match s.boot.mode with
  | .start =>
    match pend.getLast? with
    | some p => if s.running then enterMode (if groupLatched s then .lockout else p.1) (if groupLatched s then .safety else .reaction) (s.modBoot fun b => { b with modeNext := [] }) else s
    | none => s
  | .lockout => if !groupLatched s && s.core.scope.getD 4 .start == .armed then enterMode .standby .command (drop s) else drop s
  | _ =>
    if groupLatched s then enterMode .lockout .safety (drop s)
    else
      let due := pend.filter fun p => decide (p.2 ≤ s.time.frame)
      let s1 := s.modBoot fun b => { b with modeNext := pend.filter fun p => !decide (p.2 ≤ s.time.frame) }
      match due.getLast? with
      | some p => if p.1 == s.boot.mode || changeAdmitted s1 p.1 then enterMode p.1 .command s1 else s1.raise 0x9009 0
      | none => s1

/-- CHANGE_MODE, from a session in the role. -/
def execChangeMode (t : Nat) (r : Role) (code : BitVec 8) (s : State) : Host.Outcome State Fault Refusal :=
  let s := s.at_ t
  if s.running then .next (cmdChangeMode code.toNat r t s).1 else .next s

/-! Restart (R515). -/

/-- RESTART_MODULE: from any mode, and while Start is halted (R519). -/
def execRestartModule (t : Nat) (s : State) : Host.Outcome State Fault Refusal :=
  let s := s.at_ t
  if s.up || s.boot.phase == .halted then .next (restartModule 1 s) else .next s

/-! Link and foragers. -/

/-- Renew network key of the strings named (R86). -/
def cmdRenewKey (strings : Nat) (s : State) : CmdOut :=
  let ns := (List.range 4).filter fun n => bit strings n
  if ns.isEmpty || ns.any (fun n => !linkOn s n) then answer 9 0 s else accept (forEach ns renewKey s)

/-- RENEW_NETWORK_KEY. -/
def execRenewNetworkKey (t : Nat) (n : Fin 4) (s : State) : Host.Outcome State Fault Refusal :=
  let s := s.at_ t
  if s.running then .next (cmdRenewKey (2 ^ n.val) s).1 else .next s

/-- Release roster entry (R99): LEAVE is sent, and the entry is freed at the next frame boundary. -/
def cmdReleaseEntry (n b : Nat) (replaced : Bool) (s : State) : CmdOut :=
  match (s.forg (brickInst n b)).uid with
  | some u => if b < 36 && n < 4 then accept (queueCmd n 0x09 b [u] (s.updForg (brickInst n b) fun f => { f with release := some replaced })) else answer 9 0 s
  | none => answer 9 0 s

/-- RELEASE_ROSTER_ENTRY. -/
def execReleaseRosterEntry (t : Nat) (n : Fin 4) (b : Fin 36) (replaced : Bool) (s : State) : Host.Outcome State Fault Refusal :=
  let s := s.at_ t
  if s.running then .next (cmdReleaseEntry n.val b.val replaced s).1 else .next s

/-- Entries released in the last frame are freed (R99, R226, R301, R478). Up transfers in hand and the brick's place in a broadcast stay until their timeouts (DESIGN CHOICE, log 41: R109 says nothing on a release). -/
def freeEntries (s : State) : State :=
  let js := (List.range 144).filter fun j => (s.forg j).release.isSome
  let s1 := forEach js (fun j s =>
    let cells := (s.forg j).release == some true
    let s1 := s.updForg j fun f => { f with uid := none, diag := none, diagAt := none, fw := none, diagDue := false, release := none, provisional := false, broken := List.replicate 5 false, staging := 0, stageTries := 0 }
    if cells then (resetCells j s1).modRecorder fun r => { r with cellClear := j :: r.cellClear } else s1) s
  if js.isEmpty then s1 else storeRoster s1

/-- Open-wire test of a wire (R145). -/
def cmdOpenWire (n b k : Nat) (s : State) : CmdOut :=
  if n < 4 && b < 36 && k ≤ 16 && enrolled s n b then accept (orderTest n b k s) else answer 9 0 s

/-- OPEN_WIRE_TEST. -/
def execOpenWireTest (t : Nat) (n : Fin 4) (b : Fin 36) (k : Fin 17) (s : State) : Host.Outcome State Fault Refusal :=
  let s := s.at_ t
  if s.running then .next (cmdOpenWire n.val b.val k.val s).1 else .next s

/-! SCV confirmation (R338, R520). -/

/-- Content of the generation that a Confirm SCV may name: the committed one, or the one set aside (log 21). -/
def confirmable (s : State) (gen : Nat) : Option Cfg :=
  if gen == s.boot.comGen then some s.boot.com
  else if gen == s.boot.aside && gen != 0 then
    [s.boot.copyA, s.boot.copyB, s.boot.shadow].findSome? fun o => match o with | some i => if i.gen == gen && i.bad == 0 then some i.cfg else none | none => none
  else none

/-- Confirm SCV: the generation with the SCV that the safety core computes over its section is stored in two copies. -/
def cmdConfirm (gen scv : Nat) (s : State) : CmdOut :=
  match confirmable s gen with
  | some c =>
    if s.boot.mode == .commission && scv == scvOf c.params then
      let s1 := s.modBoot fun b => { b with confirm := writePair b.confirm (gen, scv), aside := if b.aside == gen then 0 else b.aside }
      let s2 := if s.boot.aside == gen && gen != 0 then updJournal (fun j => { j with setAside := 0 }) s1 else s1
      accept (s2.raise 0x500F 0)
    else refuse 0x5010 0 s
  | none => refuse 0x5010 0 s

/-- CONFIRM_SCV, from a session in the Safety role. -/
def execConfirmScv (t : Nat) (gen scv : BitVec 32) (s : State) : Host.Outcome State Fault Refusal :=
  let s := s.at_ t
  if s.running then .next (cmdConfirm gen.toNat scv.toNat s).1 else .next s

/-- RUN_DEEP_SELF_TEST (R568). -/
def execRunDeepSelfTest (t : Nat) (block : BitVec 8) (s : State) : Host.Outcome State Fault Refusal :=
  let s := s.at_ t
  if s.running then .next (cmdDeepTest block.toNat s).1 else .next s

end Sys2Proof.Machine
end

