-- ==== Sys2Proof/Machine/Update.lean ====
section
/-!
DEFINITION. Update: chapter 20, delivery of a package, staging in the foragers, activation, confirmation and roll-back.
-/
namespace Sys2Proof.Machine

/-! The manifest (R536 to R538, R541). -/

/-- Part entry of Table 20-2. -/
def partOf (bs : List Byte) : Part := { code := rd 1 0 bs, version := rd 4 4 bs, offset := rd 4 8 bs, size := rd 4 0x0C bs, sha := rd 32 0x10 bs }

/-- Manifest of Table 20-1. -/
def manifestOf (bs : List Byte) : Manifest :=
  { version := rd 4 4 bs, level := rd 2 8 bs, packageLen := rd 4 0x0C bs, parts := (List.range 6).map fun k => partOf (bs.drop (0x20 + 48 * k)) }

/-- Largest size of a part (Table 20-3). -/
def partLimit (code : Nat) : Nat := [0, 8388608, 524288, 131072, 524288, 65470, 262144].getD code 0

/-- Every part once, in its limits, inside the package and clear of the others. -/
def partsOk (m : Manifest) : Bool :=
  decide (m.packageLen ≤ 13631488) && m.version != 0 && (List.range 6).all (fun k => (m.parts.filter (·.code == k + 1)).length == 1) &&
  m.parts.all (fun p => p.version != 0 && p.offset % 1024 == 0 && decide (1024 ≤ p.offset) && decide (1 ≤ p.size) && decide (p.size ≤ partLimit p.code) && decide (p.offset + p.size ≤ m.packageLen)) &&
  m.parts.all fun p => m.parts.all fun q => p.code == q.code || decide (p.offset + p.size ≤ q.offset) || decide (q.offset + q.size ≤ p.offset)

/-- Security floor in force (R503, R555). -/
def floorOf (s : State) : Nat := (pairLater s.upd.floor).getD 0

/-- Slot named by the selector and the trial flag (R539). -/
def selected (s : State) : Nat × Bool := (pairLater s.upd.selector).getD (0, false)

/-- An activation is accepted, runs, or its set is not yet confirmed or rolled back (R541, R545). -/
def activating (s : State) : Bool := s.upd.beginFrame.isSome || [5, 6, 7].contains s.upd.st

/-- The signature of a manifest verifies under the Caerzen firmware key (R537). -/
def manifestSigned (s : State) (pay : List Byte) : Bool :=
  ecdsaOk s.boot.updKey.1 s.boot.updKey.2 (sha256 (pay.take 0x140)) (rd 32 0x140 pay) (rd 32 0x160 pay)

/-- Reason for which UPD_BEGIN is refused; 0 for none. -/
def manifestReason (s : State) (pay : List Byte) : Nat :=
  let m := manifestOf pay
  if pay.length != 384 then 1
  else if rd 2 0 pay != 0x4D46 || rd 1 2 pay != 1 || rd 1 3 pay != 6 || rd 2 0x0A pay != 0x2304 then 2
  else if !manifestSigned s pay then 3
  else if m.level < floorOf s then 4
  else if !partsOk m then 5
  else if m.version == s.upd.running.version then 6
  else if activating s then 7
  else 0

/-! Delivery. -/

def chunkTotal (m : Manifest) : Nat := (m.packageLen + 1023) / 1024
def totalOf (s : State) : Nat := match s.upd.staged with | some m => chunkTotal m | none => 0

/-- The staging ends: its bitmap and every transfer to a forager with it (R541, R543, R545). -/
def discardStaging (s : State) : State :=
  let s1 := forEach (List.range 4) (fun n s => forEach (s.link n).down (fun d s => queueCmd n 0x0B d.target [d.id] s) s) s
  let s2 := (s1.modLinks fun ls => ls.map fun l => { l with down := [] }).modForgs fun fs => fs.map fun f => { f with staging := 0, stageTries := 0 }
  (s2.modUpd fun u => { u with st := 0, staged := none, got := [], chunks := [], tables := [], erased := [] }).clearAll 0x9036

/-- UPD_BEGIN (R541). -/
def opUpdBegin (pay : List Byte) (s : State) : OpOut :=
  let r := manifestReason s pay
  let m := manifestOf pay
  if r != 0 then opFail 8 0x9031 (s.raise 0x9031 (evArg r 0))
  else
    let reply (s : State) : OpOut := opOk s (toLE 4 (totalOf s) ++ toLE 4 s.upd.got.length)
    if (match s.upd.staged with | some x => x.version == m.version | none => false) then reply s
    else reply (((discardStaging s).modUpd fun u => { u with st := 1, staged := some m, other := none, chunkAt := s.time.now }).raise 0x9030 0)

/-- A forager shows in its record the version of the staged CN16 part (R547). -/
def holdsImage (s : State) (v j : Nat) : Bool := match (s.forg j).diag with | some d => d.fwInactive == v || d.fwActive == v | none => false

/-- Version and size of the staged CN16 part. -/
def forgPart (s : State) : Nat × Nat :=
  match s.upd.staged.bind fun m => m.parts.find? (·.code == 5) with | some p => (p.version, p.size) | none => (0, 0)

/-- Bytes of the forager image (R105, Table 20-5). -/
def imageBytesLen (s : State) : Nat := 64 + (forgPart s).2

/-- Staging in the foragers begins with one down transfer to target 63 of each string (R546). -/
def beginStaging (s : State) : State :=
  let v := (forgPart s).1
  let s1 := forEach (neededForagers s) (fun j s => s.updForg j fun f => { f with staging := if holdsImage s v j then 2 else 1, stageTries := 0 }) (s.modUpd fun u => { u with st := 3 })
  judgeStaged (forEach ((List.range 4).filter fun n => linkOn s n && !(enrolledBricks s n).isEmpty) (fun n s => openDown n 63 (imageBytesLen s) s) s1)

/-- Chunks that a part touches. -/
def partChunks (p : Part) : List Nat := (List.range ((p.size + 1023) / 1024)).map (p.offset / 1024 + ·)

/-- Bytes of a part as its chunks hold them in the slot. -/
def partBytes (s : State) (p : Part) : List Byte := ((partChunks p).flatMap fun k => (s.upd.chunks.lookup k).getD []).take p.size

/-- SHA-256 of a part is that of its entry. -/
def partIntact (s : State) (p : Part) : Bool := ofLE (toBE 32 (sha256 (partBytes s p))) == p.sha

/-- Line table of a part (R539): the CRC-16 of R491 of each 64-byte line, by its index in the part. -/
def lineTable (bs : List Byte) : List Nat := (chunks 64 ((bs.length + 63) / 64) bs).mapIdx fun k l => crc16 (l ++ List.replicate (64 - l.length) 0 ++ toLE 4 k)

/-- Line tables of parts 1 to 4, in part order. -/
def lineTables (s : State) (m : Manifest) : List Nat :=
  [1, 2, 3, 4].flatMap fun c => match m.parts.find? (·.code == c) with | some p => lineTable (partBytes s p) | none => []

/-- Once every bit is set, each part is checked against its SHA-256; when all pass the line tables are written (R544). -/
def verifyPackage (s : State) : State :=
  match s.upd.staged with
  | none => s
  | some m =>
    if s.upd.got.length < chunkTotal m then s
    else
      let failed := m.parts.filter fun p => !partIntact s p
      if failed.isEmpty then beginStaging ((s.modUpd fun u => { u with tables := lineTables s m }).raise 0x9033 0)
      else
        let gone := failed.flatMap partChunks
        forEach failed (fun p s => s.raise 0x9032 (evArg p.code 0)) (s.modUpd fun u => { u with st := 1, got := u.got.filter fun k => !gone.contains k })

/-- Bytes of a chunk (R536). -/
def chunkLen (m : Manifest) (k : Nat) : Nat := min 1024 (m.packageLen - 1024 * k)

/-- UPD_CHUNK (R542, R543): env tells whether the chunk's area is blank and whether the write reads back. -/
def opUpdChunk (pay : List Byte) (env : FhpEnv) (s : State) : OpOut :=
  let k := rd 4 4 pay
  let d := pay.drop 8
  match s.upd.staged with
  | none => opFail 9 0 s
  | some m =>
    if pay.length < 8 || rd 4 0 pay != m.version || chunkTotal m ≤ k || d.length != chunkLen m k then opFail 9 0 s
    else if s.upd.got.contains k then opOk s []
    else if s.therm.flashInh then opFail 14 0 s
    else if p3Held s then opFail 8 0x9034 (s.stand 0x9034 0 true)
    else
      let sec := k / 4
      let inSec (j : Nat) : Bool := j / 4 == sec
      let fresh := !s.upd.erased.contains sec
      let s1 := s.modUpd fun u => if fresh then { u with erased := sec :: u.erased, chunks := u.chunks.filter fun c => !inSec c.1 } else u
      let s2 := if fresh || env.blank then s1 else s1.modUpd fun u => { u with chunks := u.chunks.filter (fun c => !inSec c.1), got := u.got.filter fun j => !inSec j }
      if !env.written then opFail 8 0 (s2.modUpd fun u => { u with chunkAt := s.time.now })
      else
        let s3 := (s2.modUpd fun u => { u with
          chunkAt := s.time.now, chunks := (k, d) :: u.chunks, got := sortBy (fun a b => decide (a ≤ b)) (k :: u.got), st := 1 }).clear 0x9034 0
        opOk (verifyPackage s3) []

/-- UPD_STATUS (R545, Table 20-4). -/
def opUpdStatus (pay : List Byte) (s : State) : OpOut :=
  let first := rd 4 0 pay
  if pay.length != 4 || first % 8 != 0 then opFail 9 0 s
  else
    let total := totalOf s
    let n := min 1024 ((total - first + 7) / 8)
    let byteAt (i : Nat) : Byte := BitVec.ofNat 8 (((List.range 8).filter fun j => s.upd.got.contains (first + 8 * i + j)).map (2 ^ ·)).sum
    let need := neededForagers s
    opOk s (toLE 1 s.upd.st ++ toLE 1 (selected s).1 ++ toLE 2 0 ++ toLE 4 s.upd.running.version ++ toLE 4 (match s.upd.staged with | some m => m.version | none => 0) ++
      toLE 4 total ++ toLE 4 s.upd.got.length ++ toLE 2 (need.filter fun j => (s.forg j).staging == 2).length ++ toLE 2 need.length ++ toLE 4 first ++ (List.range n).map byteAt)

/-- UPDATE_STAGING_IDLE (R543): a staging, in whatever state before its activation, that has had no chunk for upd.idle.days. -/
def execUpdateStagingIdle (t : Nat) (s : State) : Host.Outcome State Fault Refusal :=
  let s := s.at_ t
  if s.running && s.upd.staged.isSome && !activating s && s.upd.chunkAt + s.parN .updIdleDays * 86400000000000 ≤ s.time.now then .next ((discardStaging s).raise 0x903C 0) else .next s

/-- Abort update (R545). -/
def cmdAbortUpdate (s : State) : CmdOut :=
  if activating s then refuse 0x9037 0 s
  else if s.upd.staged.isNone then accept s
  else accept ((discardStaging s).raise 0x903C 0)

/-- ABORT_UPDATE. -/
def execAbortUpdate (t : Nat) (s : State) : Host.Outcome State Fault Refusal :=
  let s := s.at_ t
  if s.running then .next (cmdAbortUpdate s).1 else .next s

/-! Staging in the foragers (R546, R547). -/

/-- Down transfers that every target has acknowledged end; a forager without a transfer gets one of its own while it has tries left. -/
def stagingFrame (s : State) : State :=
  let s1 := s.modLinks fun ls => ls.map fun l => { l with down := l.down.filter fun d => d.progress.any fun p => decide ((d.acked.lookup p.1).getD 0 < d.total) }
  if s1.upd.st != 3 && s1.upd.st != 4 then s1
  else forEach (neededForagers s1) (fun j s =>
    if (s.forg j).staging != 0 || s.parN .updForagerTries ≤ (s.forg j).stageTries then s
    else if holdsImage s (forgPart s).1 j then judgeStaged (s.updForg j fun f => { f with staging := 2 })
    else openDown (j / 36) (j % 36) (imageBytesLen s) (s.updForg j fun f => { f with staging := 1 })) s1

/-- FORAGER_STAGING_FAIL (R546). -/
def execForagerStagingFail (t : Nat) (n : Fin 4) (b : Fin 36) (s : State) : Host.Outcome State Fault Refusal :=
  let s := s.at_ t
  let j := brickInst n.val b.val
  if s.running && (s.upd.st == 3 || s.upd.st == 4) && (s.forg j).staging == 0 && decide (s.parN .updForagerTries ≤ (s.forg j).stageTries) then
    .next ((s.updForg j fun f => { f with staging := 3 }).stand 0x9036 j true)
  else .next s

/-! Activation (R548, R549). -/

/-- Activate update (R525, R548). -/
def cmdActivateUpdate (version t : Nat) (s : State) : CmdOut :=
  let names := match s.upd.staged with | some m => m.version == version | none => false
  if s.boot.mode == .lockout then answer 7 0x9037 (s.raise 0x9037 0)
  else if names && s.upd.st == 4 && s.upd.beginFrame.isNone && s.surv.imp.isNone && s.surv.cap.isNone && !s.therm.flashInh && (s.boot.mode != .operate || s.par .bootStartMode == 3) then
    accept (s.modUpd fun u => { u with beginFrame := some (s.time.frame + (if t ≤ s.frameStart + 9000000 then 1 else 2)) })
  else refuse 0x9037 0 s

/-- ACTIVATE_UPDATE. -/
def execActivateUpdate (t : Nat) (version : BitVec 32) (s : State) : Host.Outcome State Fault Refusal :=
  let s := s.at_ t
  if s.running then .next (cmdActivateUpdate version.toNat t s).1 else .next s

/-- IMAGE_ACTIVATE to a target of every string (R549). -/
def broadcastImage (version frame : Nat) (s : State) : State :=
  forEach ((List.range 4).filter (linkOn s)) (fun n s => queueCmd n 0x0A 63 [version, frame % 2 ^ 32] s) (s.modForgs fun fs => fs.map fun f => { f with imgEcho := false })

/-- Steps 1 and 2 of R549. -/
def beginActivation (f : Nat) (s : State) : State :=
  let lead := s.parN .updFwLead
  let fa := f + lead
  let s1 := (s.raise 0x9038 0).modForgs fun fs => fs.map fun x => { x with fwFormer := match x.diag with | some d => d.fwActive | none => 0 }
  let s2 := s1.modDisp fun d => { d with strs := d.strs.map fun x => { x with noted := x.conn == 5 } }
  broadcastImage (forgPart s).1 fa ((disconnectAll s2).modUpd fun u => { u with st := 5, beginFrame := none, actFrame := some fa, passed := false, saved := false, lead := lead, confirmMs := s.parN .updConfirmT })

/-- Noted strings are to be connected again (R283, R549, R552). -/
def reconnectNoted (ok : Nat → Bool) (s : State) : State :=
  s.modDisp fun d => { d with strs := d.strs.mapIdx fun n x => if x.noted && ok n then { x with noted := false, wantConn := true, why := .command } else x }

/-- Step 3 of R549: every forager has echoed the tag and every string is open, or the activation is cancelled. An inhibit that holds off the slot change cancels it in the same way, up to the boundary that makes the change (R305; DESIGN CHOICE, log 34). -/
def activationReady (s : State) : Bool :=
  !s.therm.flashInh && (neededForagers s).all (fun j => (s.forg j).imgEcho) && (List.range 4).all fun n => (s.dstr n).conn == 0 || (s.dstr n).conn == 7

def cancelActivation (s : State) : State :=
  let s1 := reconnectNoted (fun _ => true) ((broadcastImage 0 (s.upd.actFrame.getD 0) s).modUpd fun u => { u with st := 4, actFrame := none })
  s1.raise 0x9037 0

/-- Step 4 of R549: the journal's time, the learned values and the event records. -/
def saveForRestart (s : State) : State :=
  writeAll 3 (updJournal (fun j => { j with pfwT := s.time.now }) (s.modUpd fun u => { u with saved := true }))

/-- The activation, or the return of a roll-back, as far as the running frame has brought it (R549, R554); a flash inhibit holds off the slot change of the return (R305). -/
def activationFrame (s : State) : State :=
  let f := s.time.frame
  let s0 := match s.upd.beginFrame with | some b => if b ≤ f && s.upd.st == 4 then beginActivation b s else s | none => s
  match s0.upd.actFrame with
  | none => s0
  | some fa =>
    if s0.upd.st == 5 && !s0.upd.saved && fa ≤ f + 2 && (if s0.upd.passed then s0.therm.flashInh else !activationReady s0) then cancelActivation s0
    else
      let s1 := if s0.upd.st == 5 && fa ≤ f + 2 then s0.modUpd fun u => { u with passed := true } else s0
      let slot := 1 - (selected s1).1
      let s2 := if fa ≤ f + 1 && !s1.upd.saved then
          (saveForRestart s1).modUpd fun u => if u.st == 5 then { u with selector := writePair u.selector (slot, true) } else u
        else s1
      if fa ≤ f then
        if s2.upd.st == 5 then restartModule 4 (s2.modUpd fun u => { u with st := 6 })
        else if s2.therm.flashInh then s2
        else restartModule 4 ((s2.modUpd fun u => { u with selector := writePair u.selector (slot, false) }).raise 0x903B 0)
      else s2

/-- ACTIVATION_SEQUENCE (R549). -/
def execActivationSequence (t : Nat) (s : State) : Host.Outcome State Fault Refusal :=
  let s := s.at_ t
  if s.running then .next (activationFrame s) else .next s

/-- Strings noted for reconnection, once the set is confirmed, in Operate and with both permits (R552). -/
def reconnectFrame (s : State) : State :=
  if s.upd.reconnect && s.boot.mode == .operate then reconnectNoted (permits s) s else s

/-! Confirmation and roll-back (R552 to R554). -/

/-- Version that a forager is to run with the set that is loaded. -/
def wantedFw (s : State) (j : Nat) : Nat := match s.upd.running.parts.find? (·.code == 5) with | some p => p.version | none => (s.forg j).fwFormer

/-- Part k has come up (Table 20-3); seen reports what the lanes (3), the first Estimator update (4) and the transceivers (6) have shown, and the first checks of Table 11-2 (2). -/
def partUp (s : State) (seen : BitVec 7) (k : Nat) : Bool :=
  match k with
  | 1 => s.running
  | 2 => s.core.scvOk && s.core.faultsHeld == 0 && seen.getLsbD 2
  | 5 => (List.range 144).all fun j => (s.forg j).uid.isNone || match (s.forg j).diag with | some d => d.fwActive == wantedFw s j | none => false
  | _ => seen.getLsbD k

/-- The set that runs is settled: state idle, and noted strings wait for Operate and their permits. -/
def settleUpdate (s : State) : State := s.modUpd fun u => { u with st := 0, rolling := false, reconnect := true, deadline := none, up := [] }

/-- UPDATE_CONFIRMATION (R552): parts that have come up within upd.confirm.t of the end of Start. -/
def execUpdateConfirmation (t : Nat) (seen : BitVec 7) (s : State) : Host.Outcome State Fault Refusal :=
  let s := s.at_ t
  match s.upd.deadline with
  | none => .next s
  | some d =>
    if !s.running || d < t || (s.upd.st != 6 && s.upd.st != 7) then .next s
    else
      let up := [1, 2, 3, 4, 5, 6].filter fun k => s.upd.up.contains k || partUp s seen k
      let s1 := s.modUpd fun u => { u with up := up }
      if up.length < 6 then .next s1
      else if s.upd.st == 6 then
        let s2 := settleUpdate (s1.modUpd fun u => { u with
          selector := writePair u.selector ((selected s1).1, false)
          floor := if floorOf s1 < u.running.level then writePair u.floor u.running.level else u.floor })
        .next ((s2.raise 0x9039 0).clear 0x903A 0)
      else .next (settleUpdate s1)

/-- Foragers that run the new image are sent back to their former one. -/
def returnForagers (frame : Nat) (s : State) : State :=
  let v := match s.upd.running.parts.find? (·.code == 5), s.upd.other.bind (fun m => m.parts.find? (·.code == 5)), s.upd.rolling with
    | _, some p, true => p.version | some p, _, false => p.version | _, _, _ => 0
  forEach ((List.range 144).filter fun j => (s.forg j).uid.isSome && match (s.forg j).diag with | some d => d.fwActive == v && d.fwActive != (s.forg j).fwFormer | none => false)
    (fun j s => queueCmd (j / 36) 0x0A (j % 36) [(s.forg j).fwFormer, frame % 2 ^ 32] s) s

/-- UPDATE_ROLLBACK (R554): the deadline has passed without a confirmed set. -/
def execUpdateRollback (t : Nat) (s : State) : Host.Outcome State Fault Refusal :=
  let s := s.at_ t
  match s.upd.deadline with
  | none => .next s
  | some d =>
    if !s.running || t ≤ d then .next s
    else if s.upd.st == 6 then
      let fa := s.time.frame + s.upd.lead
      .next ((returnForagers fa s).modUpd fun u => { u with st := 7, rolling := true, deadline := none, actFrame := some fa, saved := false })
    else if s.upd.st == 7 then
      .next (((s.modUpd fun u => { u with st := 8, rolling := false, deadline := none }).modDisp fun x => { x with strs := x.strs.map fun y => { y with noted := false } }).stand 0x903A 0 true)
    else .next s

/-- What Start step 2 has loaded (R540): the slot of the running set, or the other one. -/
def loadSlot (other : Bool) (s : State) : State :=
  if !other then s
  else match s.upd.other with
    | some m => s.modUpd fun u => { u with running := m, other := some u.running }
    | none => match s.upd.staged with
      | some m => s.modUpd fun u => { u with running := m, other := some u.running, staged := none, got := [], chunks := [], tables := [], erased := [] }
      | none => s

end Sys2Proof.Machine
end

