-- ==== Sys2Proof/Machine/Host.lean ====
section
/-!
DEFINITION. Host: chapter 14, the Fenlin Host Protocol: the checks on a message, sessions, opcodes, commands and subscriptions; and the
network functions of R385 and R386.
-/
namespace Sys2Proof.Machine

/-! Network (R385, R386, R519). -/

/-- An Ethernet port is configured: from Start step 4 on, and while Start is halted. -/
def netUp (s : State) : Bool := !s.boot.ethOut.all id && (s.running || s.boot.phase == .halted || (s.boot.phase == .start && decide (4 < s.boot.step)))

/-- Times within the last second. -/
def lastSecond (t u : Nat) : Bool := decide (t < u + 1000000000)

/-- ICMP_ECHO (R386): answered for up to 64 data bytes, at no more than 10 per second. -/
def execIcmpEcho (t : Nat) (addr : NetFrom) (data : List Byte) (s : State) : Host.Outcome State Fault Refusal :=
  let s := s.at_ t
  let recent := s.host.echoes.filter (lastSecond t)
  if !netUp s || laterCopy t addr.net s then .next s
  else
    let s1 := noteFrame t addr.net s
    if ipTaken s addr.net && data.length ≤ 64 && recent.length < 10 then
      .next ((s1.modHost fun h => { h with echoes := t :: recent }).send (.echoReply addr.addr data))
    else .next s1

/-- ARP_REQUEST (R386): for the module's address; who asks enters the cache of 32. -/
def execArpRequest (t : Nat) (from_ : NetFrom) (target : Nat) (s : State) : Host.Outcome State Fault Refusal :=
  let s := s.at_ t
  if !netUp s || laterCopy t from_.net s then .next s
  else
    let s1 := noteFrame t from_.net s
    .next (if target == s.parN .hostIpAddr then (arpEnter from_.addr s1).send (.arpReply from_.addr) else s1)

/-- The event of a LAN that the duplicate supervision does not hear: Table 1-7 gives its class, 0x6, and no table gives its code, which is a free value of that class (log 28). -/
def prpEvent : Nat := 0x6000 + Config.openNat 30 % 0x1000

/-- PRP_SUPERVISION (R28, R385): a frame on each LAN every 2 s; heard says on which LANs the duplicate supervision hears the peers. -/
def execPrpSupervision (t : Nat) (heard : BitVec 2) (s : State) : Host.Outcome State Fault Refusal :=
  let s := s.at_ t
  let due := match s.host.prpAt with | some a => decide (a + 2000000000 ≤ t) | none => true
  let on (p : Nat) : Bool := !s.boot.ethOut.getD p false
  let s1 := s.modHost fun h => { h with lanOk := [heard.getLsbD 0 && on 0, heard.getLsbD 1 && on 1] }
  if !netUp s then .next s
  else
    let s2 := forEach [0, 1] (fun p s => s.stand prpEvent p (!(heard.getLsbD p && on p))) s1
    if due then .next (forEach ([0, 1].filter on) (fun p s => s.send (.prp p)) (s2.modHost fun h => { h with prpAt := some t })) else .next s2

/-! Roles (R394). -/

def roleOfCode : Nat → Option Role
  | 0 => some .observer | 1 => some .operator | 2 => some .engineer | 3 => some .safety | 4 => some .vendor | _ => none

def roleIndex : Role → Nat
  | .observer => 0 | .operator => 1 | .engineer => 2 | .safety => 3 | .vendor => 4

/-- The key of a role is set (R394, R395): the Safety key as committed, the others as in force; the Vendor key always is. -/
def keySet (s : State) (r : Role) : Bool :=
  match r with
  | .vendor => true
  | .safety => paramIn s.boot.com.params { p := .hostKey, i := 3 } != 0
  | r => paramIn s.boot.run.params { p := .hostKey, i := roleIndex r } != 0

/-- The 32 bytes of a role's key. -/
def roleKey (s : State) (r : Role) : List Byte :=
  toLE 32 (match r with
    | .vendor => s.boot.vendorKey
    | .safety => (paramIn s.boot.com.params { p := .hostKey, i := 3 }).toNat
    | r => (paramIn s.boot.run.params { p := .hostKey, i := roleIndex r }).toNat)

/-- Life-cycle states in which a role opens a session (Table 14-5). -/
def opensIn (s : State) (r : Role) : Bool := r != .vendor || s.boot.life != .field

/-! Failures of the checks (Table 14-4, R392). -/

def countHostDiscard (s : State) : State := s.modHost fun h => { h with discarded := h.discarded + 1 }

/-- Check 4 fails. -/
def authFail (s : State) : State :=
  let s1 := (countHostDiscard s).modHost fun h => { h with authRound := h.authRound + 1 }
  if s1.host.authRound == 10 then s1.raiseRound 0x6026 0 else s1

/-- An open session bound to a source. -/
def boundSlot (s : State) (id addr port : Nat) : Option Nat :=
  match slotOf s id with
  | some k => (match sessionAt s k with | some x => if x.addr == addr && x.port == port then some k else none | none => none)
  | none => none

/-- Check 2 fails: LengthInvalid, within host.rate.err per second and source address. -/
def lengthInvalid (t addr port id seq opcode : Nat) (s : State) : State :=
  let s1 := (s.modHost fun h => { h with lengthRej := h.lengthRej + 1 }).raiseRound 0x6025 0
  let recent := s1.host.errReplies.filter fun e => lastSecond t e.2
  if s.parN .hostRateErr ≤ (recent.filter (·.1 == addr)).length then s1.modHost fun h => { h with errReplies := recent }
  else
    let s2 := s1.modHost fun h => { h with errReplies := (addr, t) :: recent }
    match (if id == 0 then none else (boundSlot s id addr port).bind (sessionAt s)) with
    | some x => s2.send (.fhp addr port (fhpMessage x.key 1 id seq opcode (stBytes 5 0x6025)))
    | none => s2.send (.fhp addr port (fhpHeader 1 0 seq opcode 4 ++ stBytes 5 0x6025 ++ toLE 16 0))

/-! OPEN (R393, R396, R398). -/

/-- A session ID that is random, not zero and not in use. -/
def newSessionId (s : State) : Nat × State :=
  let r := s.draw
  (((List.range 9).map fun k => (r.1 + k) % 0xFFFFFFFF + 1).find? (fun i => (slotOf s i).isNone) |>.getD 1, r.2)

/-- Payload of the reply of Table 14-13. -/
def openReply (status detail id nonce : Nat) (s : State) : List Byte :=
  stBytes status detail ++ toLE 4 id ++ toLE 16 nonce ++ toLE 8 s.boot.uid ++ toLE 4 s.boot.comGen ++ toLE 4 s.comb.mapVersion ++ toLE 8 0

/-- An OPEN with session 0 whose form is right: its header, payload and tag. -/
def handleOpen (t addr port seq : Nat) (hdr pay tag : List Byte) (s : State) : State :=
  match (if pay.isEmpty then none else roleOfCode (rd 1 0 pay)) with
  | none => authFail s
  | some r =>
    if !keySet s r || fhpTag (roleKey s r) (hdr ++ pay) != tag then authFail s
    else
      let recent := s.host.opens.filter fun e => lastSecond t e.2
      if 4 ≤ (recent.filter (·.1 == addr)).length then s.modHost fun h => { h with opens := recent, opensSurplus := h.opensSurplus + 1 }
      else
        let s1 := s.modHost fun h => { h with opens := (addr, t) :: recent }
        let say (p : List Byte) (s : State) : State := s.send (.fhp addr port (fhpMessage (roleKey s r) 1 0 seq 0x0101 p))
        let no (st d : Nat) (s : State) : State := say (openReply st d 0 0 s) s
        if pay.length != 20 then no 9 0 s1
        else if !opensIn s1 r then no 7 0 s1
        else match (List.range 8).find? fun k => (sessionAt s1 k).isNone with
          | none => no 1 0x6022 ((s1.modHost fun h => { h with busy := h.busy + 1 }).raise 0x6022 0)
          | some k =>
            let i := newSessionId s1
            let n := i.2.draw
            let nm := n.1 % 2 ^ 128
            let x : Session := { id := i.1, role := r, key := sessionKey (roleKey s r) (pay.drop 4) (toLE 16 nm) i.1, addr := addr, port := port, sLast := 0, replies := [], lastReq := t, confirmed := false, confirmT := s1.parN .hostOpenConfirm
                                 tokens := (s1.parN .hostRateBurst : Rat), tokensAt := t, pushSeq := 0, subs := [] }
            let s2 := (n.2.modHost fun h => { h with slots := updAt h.slots k fun _ => some x }).raise 0x6020 k
            say (openReply 0 0 i.1 nm s2) (resolveHop (nextHop s2 addr) s2)

/-! Reading the Comb (R403 to R405). -/

/-- Time at which part k of a reply is handed to the MAC; the request's own time where nothing is said. -/
def doneAt (t : Nat) (ends : List Nat) (k : Nat) : Nat := ends.getD k t

/-- Lists cut into runs of n. -/
def cut {α : Type} (n : Nat) : Nat → List α → List (List α)
  | 0, _ => []
  | f + 1, l => if l.isEmpty then [] else l.take n :: cut n f (l.drop n)

/-- Entries of the keys asked for, of a frame (R57). -/
def keyEntries (all : List (Nat × Nat × Nat × Item)) (keys : List Nat) : List (List Byte) :=
  keys.flatMap fun k => match all.find? (·.1 == k) with | some e => entryBytes e | none => [unknownEntry k]

/-- A part of the reply of R403; byte 6 carries the subscription of a push. The fields named fill 20 bytes; 4 zero bytes follow, so that the entries begin after 24 (DESIGN CHOICE, log 22). -/
def itemPart (st k n sub : Nat) (img : Image) (es : List (List Byte)) : List Byte :=
  stBytes st 0 ++ toLE 1 k ++ toLE 1 n ++ toLE 1 sub ++ toLE 1 0 ++ toLE 8 img.frame ++ toLE 1 img.flags.toNat ++ toLE 7 0 ++ es.flatten

/-- The reply of R404; byte 4 carries the subscription of a push. -/
def slotPart (sub first : Nat) (img : Image) (ss : List (List Byte)) : List Byte :=
  stBytes 0 0 ++ toLE 1 sub ++ toLE 3 0 ++ toLE 8 img.frame ++ toLE 4 first ++ toLE 2 ss.length ++ toLE 2 0 ++ ss.flatten

/-- Keys of a list in bytes. -/
def keyList (n : Nat) (bs : List Byte) : List Nat := (chunks 4 n bs).map ofLE

/-- Some item of the list lies in a failed line. -/
def servesBad (s : State) (buf : Nat) (es : List (Nat × Nat × Nat × Item)) : Bool := es.any fun e => lineBad s buf e.2.2.1 (slotsOf e.2.1)

/-- READ_ITEMS. -/
def opReadItems (t : Nat) (pay : List Byte) (ends : List Nat) (s : State) : State × List (List Byte) :=
  let n := rd 2 12 pay
  let v := rd 4 8 pay
  if pay.length < 16 || n == 0 || 340 < n || pay.length != 16 + 4 * n then (s, [stBytes 9 0])
  else match frameFor s (rd 8 0 pay) with
    | .inr st => (if st == 2 then countExpired s else s, [stBytes st 0])
    | .inl b => match buffer s b with
      | none => (s, [stBytes 3 0])
      | some img =>
        if v != img.mapVersion && (mapFor s v).isNone then (countExpired s, [stBytes 2 0])
        else
          let keys := keyList n (pay.drop 16)
          let es := keyEntries (serveAll s b img) keys
          let parts := cut 114 es.length es
          let out := parts.mapIdx fun k p => if doneAt t ends k ≤ leaseEnd img.frame then itemPart 0 k parts.length 0 img p else itemPart 2 k parts.length 0 img []
          let late := ((List.range parts.length).filter fun k => decide (leaseEnd img.frame < doneAt t ends k)).length
          let s1 := s.modComb fun c => { c with expired := c.expired + late }
          (noteRepair s1 (servesBad s b ((imageItems img).filter fun e => keys.contains e.1)), out)

/-- READ_SLOTS. -/
def opReadSlots (t : Nat) (pay : List Byte) (ends : List Nat) (s : State) : State × List (List Byte) :=
  let first := rd 4 8 pay
  let n := rd 2 12 pay
  if pay.length != 16 || n == 0 || 172 < n then (s, [stBytes 9 0])
  else match frameFor s (rd 8 0 pay) with
    | .inr st => (if st == 2 then countExpired s else s, [stBytes st 0])
    | .inl b => match buffer s b with
      | none => (s, [stBytes 3 0])
      | some img =>
        if slotCount img < first + n then (s, [stBytes 9 0])
        else if leaseEnd img.frame < doneAt t ends 0 then (countExpired s, [stBytes 2 0])
        else
          let ss := (((serveAll s b img).flatMap slotBytes).drop first).take n
          let touched (e : Nat × Nat × Nat × Item) : Bool := decide (first < e.2.2.1 + slotsOf e.2.1) && decide (e.2.2.1 < first + n)
          (noteRepair s (servesBad s b ((imageItems img).filter touched)), [slotPart 0 first img ss])

/-- READ_MAP: version (0 for the one in force), first entry and count, and the entries of R53 (log 22). -/
def opReadMap (pay : List Byte) (s : State) : State × List (List Byte) :=
  let v := rd 4 0 pay
  let first := rd 4 4 pay
  let n := rd 2 8 pay
  if pay.length != 12 || n == 0 || 172 < n then (s, [stBytes 9 0])
  else match mapFor s v with
    | none => (countExpired s, [stBytes 2 0])
    | some m =>
      if m.length < first + n then (s, [stBytes 9 0])
      else
        let e := (((m.drop first).take n).map fun x => toLE 4 x.1 ++ toLE 1 x.2.1 ++ toLE 1 x.2.2 ++ toLE 2 0).flatten
        (s, [stBytes 0 0 ++ toLE 4 (if v == 0 then s.comb.mapVersion else v) ++ toLE 4 first ++ toLE 2 n ++ toLE 2 0 ++ e])

/-! Subscriptions (R406, R407). -/

/-- Parts that a subscription sends per frame. -/
def subParts (s : State) (x : Subscription) : Nat :=
  if x.kind == 1 then 1
  else
    let entries := (x.keys.map fun k => match s.comb.map.find? (·.1 == k) with | some e => slotsOf e.2.1 | none => 1).sum
    (entries + 113) / 114

def openSubs (s : State) : List Subscription := s.host.slots.flatMap fun o => match o with | some x => x.subs | none => []

/-- SUBSCRIBE. -/
def opSubscribe (k : Nat) (x : Session) (pay : List Byte) (s : State) : State × List (List Byte) :=
  let kind := rd 1 0 pay
  let period := rd 1 1 pay
  let n := rd 2 4 pay
  let form := if kind == 0 then decide (1 ≤ n) && decide (n ≤ 340) && pay.length == 8 + 4 * n
    else kind == 1 && pay.length == 12 && decide (1 ≤ rd 2 8 pay) && decide (rd 2 8 pay ≤ 172)
  if !form || period == 0 || 100 < period then (s, [stBytes 9 0])
  else if 4 ≤ x.subs.length || 16 ≤ (openSubs s).length then (s, [stBytes 1 0])
  else
    let id := ([1, 2, 3, 4].find? fun i => !x.subs.any (·.id == i)).getD 1
    let u : Subscription := if kind == 0 then { id := id, kind := 0, period := period, keys := keyList n (pay.drop 8), first := 0, count := 0, parts := 0 }
      else { id := id, kind := 1, period := period, keys := [], first := rd 4 4 pay, count := rd 2 8 pay, parts := 0 }
    let u1 := { u with parts := subParts s u }
    if s.parN .hostPushMax < ((openSubs s).map (·.parts)).sum + u1.parts then (s, [stBytes 9 0])
    else (updSlot k (fun y => { y with subs := y.subs ++ [u1] }) s, [stBytes 0 0 ++ toLE 1 id])

/-- UNSUBSCRIBE: the subscription by its ID. -/
def opUnsubscribe (k : Nat) (x : Session) (pay : List Byte) (s : State) : State × List (List Byte) :=
  let id := rd 1 0 pay
  if pay.length != 1 || !x.subs.any (·.id == id) then (s, [stBytes 9 0])
  else (updSlot k (fun y => { y with subs := y.subs.filter (·.id != id) }) s, [stBytes 0 0])

/-- Parts of a push of the published frame. -/
def pushParts (s : State) (u : Subscription) (img : Image) : List (List Byte) :=
  if u.kind == 1 then
    if slotCount img < u.first + u.count then [stBytes 9 0 ++ toLE 1 u.id ++ toLE 3 0 ++ toLE 8 img.frame ++ toLE 4 u.first ++ toLE 2 0 ++ toLE 2 0]
    else [slotPart u.id u.first img ((((serveAll s 0 img).flatMap slotBytes).drop u.first).take u.count)]
  else
    let ps := cut 114 (2 * u.keys.length) (keyEntries (serveAll s 0 img) u.keys)
    ps.mapIdx fun k p => itemPart 0 k ps.length u.id img p

/-- PUSH: the parts of a due frame go out within 10.0 ms of its publication; ends gives the time of each, and a later one is dropped. -/
def execPush (t : Nat) (k : Fin 8) (id : Nat) (ends : List Nat) (s : State) : Host.Outcome State Fault Refusal :=
  let s := s.at_ t
  match sessionAt s k.val, s.comb.published with
  | some x, some img => match x.subs.find? (·.id == id) with
    | none => .next s
    | some u =>
      if !netUp s || img.frame % u.period != 0 || u.lastFrame == some img.frame then .next s
      else
        let parts := pushParts s u img
        let limit := (img.frame + 1) * frameNs + 15000000
        let lost := ((List.range parts.length).filter fun j => decide (limit < doneAt t ends j)).length
        let s1 := forEach ((List.range parts.length).filter fun j => decide (doneAt t ends j ≤ limit))
          (fun j s => s.send (.fhp x.addr x.port (fhpMessage x.key 3 x.id (x.pushSeq + 1 + j) 0x0206 (parts.getD j [])))) s
        let s2 := updSlot k.val (fun y => { y with pushSeq := y.pushSeq + parts.length, subs := y.subs.map fun v => if v.id == id then { v with lastFrame := some img.frame } else v }) s1
        let s3 := noteRepair s2 (servesBad s 0 ((imageItems img).filter fun e => u.kind == 1 || u.keys.contains e.1))
        .next (if lost == 0 then s3 else (s3.modHost fun h => { h with pushDrop := h.pushDrop + lost }).raiseRound 0x6027 k.val)
  | _, _ => .next s

/-! Parameters (R408 to R412). -/

/-- A name at the head of bytes, and what follows it. -/
def takeName (bs : List Byte) : Option (List Byte × List Byte) :=
  let n := rd 1 0 bs
  if 1 ≤ n && n ≤ 63 && n + 1 ≤ bs.length then some ((bs.drop 1).take n, bs.drop (1 + n)) else none

/-- Bytes of a value on the wire after its type code. -/
def wireLen (typ : Nat) : Nat := if typ == 11 then 32 else 8

/-- A value as a read shows it: no read returns a role key (R394). -/
def shownValue (k : ParamKey) (v : Int) : Int := if k.p == .hostKey then 0 else v

/-- A pending write differs from the committed value (R409). -/
def isPending (s : State) (k : ParamKey) : Bool := match s.boot.pend.lookup k with | some v => v != comValue s k | none => false

/-- Running value and committed value, each behind its type code (R408), and pending flag of each name; a failing entry answers its status and index. -/
def readNames (s : State) : Nat → Nat → List Byte → List Byte ⊕ (Nat × Nat)
  | 0, _, bs => if bs.isEmpty then .inl [] else .inr (9, 0)
  | n + 1, i, bs => match takeName bs with
    | none => .inr (9, i)
    | some (nm, rest) => match paramOfName nm with
      | none => .inr (4, i)
      | some k =>
        let t := k.p.desc.typ
        let e := toLE 1 t ++ valueBytes t (shownValue k (runValue s k)) ++ toLE 1 t ++ valueBytes t (shownValue k (comValue s k)) ++ toLE 1 (if isPending s k then 1 else 0)
        match readNames s n (i + 1) rest with
        | .inl es => .inl (e ++ es)
        | .inr x => .inr x

/-- PARAM_READ (log 22). -/
def opParamRead (pay : List Byte) (s : State) : OpOut :=
  let n := rd 1 0 pay
  if n == 0 || 16 < n then opFail 9 0 s
  else match readNames s n 0 (pay.drop 1) with
    | .inl es => opOk s es
    | .inr (st, i) => opFail st i s

/-- The value of a type in its wire bytes. -/
def wireValue (typ : Nat) (bs : List Byte) : Int :=
  if typ == 11 then (ofLE (bs.take 32) : Nat)
  else if 5 ≤ typ && typ ≤ 8 then signed (8 * typeBytes typ) (ofLE (bs.take (typeBytes typ)))
  else (ofLE (bs.take 8) : Nat)

/-- The bytes after a value of fewer than eight are zero (R408). -/
def wireZero (typ : Nat) (bs : List Byte) : Bool := typ == 11 || ((bs.take 8).drop (typeBytes typ)).all (· == 0)

/-- A section piece lies below the section's length (R533). -/
def pieceFits (s : State) (ws : List (ParamKey × Int)) (k : ParamKey) : Bool :=
  if k.p == .bootSection then
    let l : ParamKey := { p := .bootSectionLen, i := k.i }
    match (ws.lookup l).orElse (fun _ => s.boot.pend.lookup l) with | some v => decide ((k.j : Int) < v) | none => decide ((k.j : Int) < comValue s l)
  else true

/-- The gateway is 0 or lies in the subnet (R414) of the address and mask that this message, an earlier one or the committed content gives. -/
def gatewayFits (s : State) (ws : List (ParamKey × Int)) (k : ParamKey) (v : Int) : Bool :=
  let p (x : PName) : Nat := field 32 (((ws.reverse ++ s.boot.pend).lookup { p := x }).getD (comValue s { p := x }))
  k.p != .hostIpGw || v == 0 || field 32 v &&& p .hostIpMask == p .hostIpAddr &&& p .hostIpMask

/-- Writes named by a PARAM_WRITE, or the status and index of the first that fails (R410). -/
def readWrites (s : State) (r : Role) (ws : List (ParamKey × Int)) : Nat → Nat → List Byte → List (ParamKey × Int) ⊕ (Nat × Nat)
  | 0, _, bs => if bs.isEmpty then .inl ws else .inr (9, 0)
  | n + 1, i, bs => match takeName bs with
    | none => .inr (9, i)
    | some (nm, rest) => match paramOfName nm with
      | none => .inr (4, i)
      | some k =>
        let t := k.p.desc.typ
        let vb := rest.drop 1
        let v := wireValue t vb
        if rd 1 0 rest != t || vb.length < wireLen t || !wireZero t vb || k.p.desc.effect == .readOnly then .inr (9, i)
        else if !mayWrite s r k then .inr (6, i)
        else if !k.admits v || !pieceFits s ws k || !gatewayFits s ws k v then .inr (9, i)
        else readWrites s r (ws ++ [(k, v)]) n (i + 1) (vb.drop (wireLen t))

def holdsLock (s : State) (id : Nat) : Bool := s.host.lock == some id

/-- PARAM_WRITE: applied whole or not at all. -/
def opParamWrite (x : Session) (pay : List Byte) (s : State) : OpOut :=
  let n := rd 1 0 pay
  if !holdsLock s x.id then opFail 12 0 s
  else if n == 0 || 16 < n then opFail 9 0 s
  else match readWrites s x.role [] n 0 (pay.drop 1) with
    | .inl ws => opOk (forEach ws (fun w s => writeParam w.1 w.2 s) s) []
    | .inr (st, i) => opFail st i s

/-- EDIT_LOCK: one byte, 0 takes the lock and 1 releases it. -/
def opEditLock (x : Session) (pay : List Byte) (s : State) : OpOut :=
  let rel := rd 1 0 pay
  if pay.length != 1 || 1 < rel then opFail 9 0 s
  else if (match s.host.lock with | some h => h != x.id | none => false) then opFail 12 0 s
  else opOk (s.modHost fun h => { h with lock := if rel == 1 then none else some x.id }) []

/-- DISCARD (R411). -/
def opDiscard (x : Session) (pay : List Byte) (s : State) : OpOut :=
  if !holdsLock s x.id then opFail 12 0 s
  else if !pay.isEmpty then opFail 9 0 s
  else opOk ((discardWrites s).modHost fun h => { h with lock := none }) []

/-! Capture and journal (R377, R522). -/

/-- CAP_READ: an input; its entries leave the queue. -/
def opCapRead (pay : List Byte) (s : State) : OpOut :=
  let k := rd 1 0 pay
  if pay.length != 1 || 8 ≤ k then opFail 9 0 s
  else if s.parN .timeCapReader k != 0 then opFail 8 0 s
  else
    let q := s.time.capture.getD k []
    let e (c : CapEntry) : List Byte := toLE 8 c.time ++ toLE 1 ((if c.falling then 1 else 0) + (if c.lost then 2 else 0)) ++ toLE 1 c.input ++ toLE 6 0
    opOk (s.modTime fun x => { x with capture := updAt x.capture k fun _ => [] }) (toLE 1 q.length ++ toLE 3 0 ++ q.flatMap e)

/-- Journal entry of Table 19-8; what an unreadable one shows is open. -/
def journalBytes (e : Journal) : List Byte :=
  if e.bad then (List.range 256).map fun k => BitVec.ofNat 8 (Config.openNat (1000 + k))
  else
    let head := toLE 2 0x4A42 ++ toLE 1 1 ++ toLE 1 e.endMode ++ toLE 4 e.powerCycles ++ toLE 8 e.startT ++ toLE 8 e.pfwT ++ toLE 4 e.gen ++ toLE 4 e.setAside ++
      toLE 1 e.source ++ toLE 1 e.cause ++ toLE 2 0 ++ toLE 4 e.restartStep ++ toLE 8 0
    let steps := ((List.range 12).map fun k => let r := e.steps.getD k {}; toLE 1 (k + 1) ++ toLE 1 r.outcome ++ toLE 2 r.detail ++ toLE 4 r.t).flatten
    let body := head ++ steps ++ toLE 108 0
    body ++ toLE 4 (crc32 body)

/-- JOURNAL_READ: newest index, count and entries, the indices taken round the ring of 16. -/
def opJournalRead (pay : List Byte) (s : State) : OpOut :=
  let first := rd 1 0 pay
  let n := rd 1 1 pay
  if pay.length != 2 || 15 < first || n == 0 || 5 < n then opFail 9 0 s
  else opOk s (toLE 1 s.boot.newest ++ toLE 1 n ++ toLE 2 0 ++ (List.range n).flatMap fun k => journalBytes (s.boot.journal.getD ((first + k) % 16) {}))

/-! Commands (R402, Table 14-7). -/

/-- COMMAND: role, then target and arguments, then the owning chapter's rules. Of several strings the first refusal is reported. -/
def runCommand (x : Session) (t code target : Nat) (a : List Byte) (s : State) : CmdOut :=
  let eng := engineer x.role
  let op := operator x.role
  let form (role ok : Bool) (len : Nat) (f : State → CmdOut) : CmdOut :=
    if !role then answer 6 0 s else if !ok || a.length != len then answer 9 0 s
    else if !s.running && code != 0x0202 then answer 7 0 s else f s
  let mdl (role : Bool) (len : Nat) (f : State → CmdOut) : CmdOut := form role (target == 0xFF) len f
  let strs := (List.range 4).filter (bit target)
  let isStr := decide (target < 16) && target != 0
  let each (role : Bool) (len : Nat) (f : Nat → State → CmdOut) : CmdOut :=
    form role isStr len fun s => strs.foldl (fun acc n => let r := f n acc.1; if acc.2.1 == 0 then r else (r.1, acc.2)) (accept s)
  let any (f : State → Bool) (g : State → CmdOut) : CmdOut := form eng (isStr || target == 0xFF) 0 fun s => if target == 0xFF || f s then g s else accept s
  match code with
  | 0x0101 => mdl op 4 (holdHost (signed 32 (rd 4 0 a)) t)
  | 0x0102 => mdl op 4 fun s => accept (holdAllowHost (rd 2 0 a) (rd 2 2 a) t s)
  | 0x0103 => mdl op 1 fun s => if 1 < rd 1 0 a then answer 9 0 s else cmdSelect (rd 1 0 a == 1) s
  | 0x0104 => each op 0 cmdConnect
  | 0x0105 => each op 0 cmdDisconnect
  | 0x0106 => each op 0 cmdCloseRest
  | 0x0107 => each op 0 cmdClearFailed
  | 0x0201 => mdl op 1 (cmdChangeMode (rd 1 0 a) x.role t)
  | 0x0202 => mdl eng 0 fun s => accept s
  | 0x0301 => each eng 2 fun n => cmdManualDuty n (rd 2 0 a)
  | 0x0302 => each eng 0 cmdAutomatic
  | 0x0401 => each eng 0 cmdStartImpEng
  | 0x0402 => any (fun s => match s.surv.imp with | some v => strs.contains v.string | none => true) cmdAbortImp
  | 0x0403 => each eng 0 cmdStartCapEng
  | 0x0404 => any (fun s => match s.surv.cap with | some v => strs.contains v.string | none => true) cmdAbortCap
  | 0x0405 => form eng isStr 0 (cmdWriteLearned target)
  | 0x0501 => form eng isStr 0 (cmdRenewKey target)
  | 0x0502 => each eng 2 fun n s => if 1 < rd 1 1 a then answer 9 0 s else cmdReleaseEntry n (rd 1 0 a) (rd 1 1 a == 1) s
  | 0x0503 => each eng 2 fun n => cmdOpenWire n (rd 1 0 a) (rd 1 1 a)
  | 0x0601 => if x.role == .safety then mdl true 8 (cmdConfirm (rd 4 0 a) (rd 4 4 a)) else answer 6 0x5010 (s.raise 0x5010 0)
  | 0x0701 => mdl eng 1 fun s => if 2 < rd 1 0 a then answer 9 0 s else cmdProgMode (rd 1 0 a) t s
  | 0x0702 => mdl eng 10 (cmdForce (rd 2 0 a) (rd 8 2 a) t)
  | 0x0703 => mdl eng 2 (cmdRelease (rd 2 0 a) t)
  | 0x0704 => mdl eng 4 (cmdActivateProg (rd 4 0 a) t)
  | 0x0801 => mdl eng 5 (cmdClearRegion x.id (rd 1 0 a) (rd 4 1 a))
  | 0x0901 => mdl eng 4 (cmdActivateUpdate (rd 4 0 a) t)
  | 0x0902 => mdl eng 0 cmdAbortUpdate
  | 0x0A01 => mdl (x.role == .vendor) 1 (cmdDeepTest (rd 1 0 a))
  | _ => answer 11 0 s

/-! Opcodes (R401). -/

/-- Role holds the right to an opcode (Table 14-6). -/
def opRole (r : Role) (opcode : Nat) : Bool :=
  if 0x0302 ≤ opcode && opcode ≤ 0x0305 then engineer r || r == .safety
  else if opcode == 0x0601 || opcode == 0x0701 || opcode == 0x0702 then engineer r
  else true

/-- What an opcode comes to: the state, the parts of the reply, whether the reply waits (COMMIT), and whether the module restarts when it has gone. -/
abbrev OpDone := State × List (List Byte) × Bool × Bool

def onePart (r : OpOut) : OpDone := (r.1, [stBytes r.2.1 r.2.2.1 ++ r.2.2.2], false, false)

/-- REC_READ parts of regions 0 to 2 are held in the frame with r = 99 from 5.0 ms to 9.5 ms (Table 17-7). -/
def readsHeld (s : State) (t : Nat) : Bool := s.running && s.roundPos == 99 && decide (s.frameStart + 5000000 ≤ t) && decide (t < s.frameStart + 9500000)

/-- An opcode of a request that has passed checks 1 to 6. -/
def runOp (k : Nat) (x : Session) (t seq opcode : Nat) (pay : List Byte) (env : FhpEnv) (s : State) : OpDone :=
  let st (a b : Nat) : OpDone := (s, [stBytes a b], false, false)
  let parts (r : State × List (List Byte)) : OpDone := (r.1, r.2, false, false)
  if !opRole x.role opcode then st 6 0
  else match opcode with
    | 0x0101 => st 9 0
    | 0x0102 => if pay.isEmpty then st 0 0 else st 9 0
    | 0x0103 => if pay.isEmpty then st 0 0 else st 9 0
    | 0x0201 => parts (opReadItems t pay env.ends s)
    | 0x0202 => parts (opReadSlots t pay env.ends s)
    | 0x0203 => parts (opReadMap pay s)
    | 0x0204 => parts (opSubscribe k x pay s)
    | 0x0205 => parts (opUnsubscribe k x pay s)
    | 0x0301 => onePart (opParamRead pay s)
    | 0x0302 => onePart (opEditLock x pay s)
    | 0x0303 => onePart (opParamWrite x pay s)
    | 0x0304 =>
      if pay.length != 4 then st 9 0
      else
        let r := beginCommit k x.id seq x.role (rd 4 0 pay) s
        if r.2 then (r.1.1, [], true, false) else (r.1.1, [stBytes r.1.2.1 r.1.2.2], false, false)
    | 0x0305 => onePart (opDiscard x pay s)
    | 0x0401 =>
      if pay.length < 4 then st 9 0
      else
        let r := runCommand x t (rd 2 0 pay) (rd 1 2 pay) (pay.drop 4) s
        (r.1, [stBytes r.2.1 r.2.2], false, rd 2 0 pay == 0x0202 && r.2.1 == 0)
    | 0x0501 => onePart (opEventList pay s)
    | 0x0502 => if readsHeld s t && rd 1 0 pay < 3 then (s.modHost fun h => { h with heldReads := h.heldReads ++ [(x.id, k, seq, pay)] }, [], true, false) else onePart (opRecRead pay s)
    | 0x0601 => onePart (opProgLoad t pay s)
    | 0x0602 => onePart (opProgRead pay s)
    | 0x0701 => onePart (opUpdBegin pay s)
    | 0x0702 => onePart (opUpdChunk pay env s)
    | 0x0703 => onePart (opUpdStatus pay s)
    | 0x0801 => onePart (opCapRead pay s)
    | 0x0901 => onePart (opJournalRead pay s)
    | 0x0902 => onePart (opBistRead pay s)
    | _ => st 11 0

/-- What a halted Start still answers (R519). -/
def haltedServes (opcode : Nat) (pay : List Byte) : Bool :=
  [0x0102, 0x0103, 0x0901, 0x0301, 0x0302, 0x0303, 0x0304, 0x0305, 0x0701, 0x0702, 0x0703].contains opcode || (opcode == 0x0401 && rd 2 0 pay == 0x0202)

/-! Sequence and rate (R399, R413). -/

/-- Bucket of a session at a time. -/
def bucket (s : State) (x : Session) (t : Nat) : Rat :=
  let full : Rat := (s.parN .hostRateBurst : Rat)
  let b := x.tokens + ((t - x.tokensAt : Nat) : Rat) * (s.parN .hostRateReq : Rat) / 1000000000
  if full < b then full else b

/-- An accepted request is carried out; its reply is kept and sent. -/
def carryOut (k : Nat) (x : Session) (t seq opcode : Nat) (pay : List Byte) (env : FhpEnv) (s : State) : State :=
  let r := runOp k x t seq opcode pay env s
  let s1 := if r.2.2.1 then keepReply k { seq := seq, opcode := opcode, parts := [], running := true } r.1 else finishReply x.id k opcode seq r.2.1 r.1
  let s2 := if opcode == 0x0102 && pay.isEmpty then closeSession k s1 else s1
  if r.2.2.2 then restartModule 1 s2 else s2

/-- REC_READ parts held by a round commit are served. No command marks 9.5 ms: they go out as the frame ends (DESIGN CHOICE, log 45). -/
def serveHeld (s : State) : State :=
  forEach s.host.heldReads (fun q s => let r := opRecRead q.2.2.2 s; finishReply q.1 q.2.1 0x0502 q.2.2.1 [stBytes r.2.1 r.2.2.1 ++ r.2.2.2] r.1)
    (s.modHost fun h => { h with heldReads := [] })

/-- Checks 5 to 7 of R390 on a request of an open session. -/
def handleRequest (k t seq opcode : Nat) (pay : List Byte) (env : FhpEnv) (s : State) : State :=
  match sessionAt s k with
  | none => countHostDiscard s
  | some x =>
    let d := (seq + 2 ^ 32 - x.sLast) % 2 ^ 32
    if d == 0 || 1024 < d then
      match x.replies.find? (·.seq == seq) with
      | some r => if r.running then sendParts x r.opcode seq [stBytes 13 0] s else sendParts x r.opcode seq r.parts s
      | none => s.modHost fun h => { h with seqDisc := h.seqDisc + 1 }
    else if s.boot.phase == .halted && !haltedServes opcode pay then s
    else
      let free := opcode == 0x0103
      let b := bucket s x t
      if !free && b < 1 then
        let s1 := updSlot k (fun y => { y with tokens := b, tokensAt := t }) s
        sendParts x opcode seq [stBytes 10 0x6024] ((s1.modHost fun h => { h with rateLim := h.rateLim + 1 }).raiseRound 0x6024 k)
      else
        let y := { x with sLast := seq, lastReq := t, confirmed := true, tokens := if free then b else b - 1, tokensAt := t }
        carryOut k y t seq opcode pay env (updSlot k (fun _ => y) s)

/-- Check 4: the tag of a message of the session in slot k. -/
def tagFits (s : State) (k : Nat) (bytes : List Byte) (len : Nat) : Bool :=
  match sessionAt s k with
  | some x => fhpTag x.key (bytes.take (16 + len)) == bytes.drop (16 + len)
  | none => false

/-- FHP_DATAGRAM (R387 to R392): a UDP payload from a source. -/
def receive (t addr port : Nat) (bytes : List Byte) (env : FhpEnv) (s : State) : State :=
  let id := rd 4 4 bytes
  let seq := rd 4 8 bytes
  let opcode := rd 2 0x0C bytes
  let len := rd 2 0x0E bytes
  let pay := (bytes.drop 16).take len
  if bytes.length < 32 || rd 2 0 bytes != 0x4648 || rd 1 2 bytes != 1 || bit (rd 1 3 bytes) 0 then countHostDiscard s
  else if len + 32 != bytes.length || 1400 < len then lengthInvalid t addr port id seq opcode s
  else if id == 0 && opcode == 0x0101 then handleOpen t addr port seq (bytes.take 16) pay (bytes.drop (16 + len)) s
  else match boundSlot s id addr port with
    | none => countHostDiscard s
    | some k => if !tagFits s k bytes len then authFail s else handleRequest k t seq opcode pay env s

def execFhpDatagram (t addr port : Nat) (bytes : List Byte) (env : FhpEnv) (s : State) : Host.Outcome State Fault Refusal :=
  let s := s.at_ t
  if !netUp s || laterCopy t env.net s then .next s
  else
    let s1 := noteFrame t env.net s
    .next (if udpTaken s (s.parN .hostUdpPort) env.net then receive t addr port bytes env s1 else s1)

/-- A request of the session named that has passed checks 1 to 4. -/
def request (t id seq opcode : Nat) (pay : List Byte) (env : FhpEnv) (s : State) : State :=
  let s := s.at_ t
  if !netUp s then s
  else match slotOf s id with
    | some k => handleRequest k t seq opcode pay env s
    | none => countHostDiscard s

/-- OPEN (R396): its payload and its tag. -/
def execOpenSession (t addr port seq : Nat) (pay tag : List Byte) (s : State) : Host.Outcome State Fault Refusal :=
  let s := s.at_ t
  if netUp s then .next (handleOpen t addr port seq (fhpHeader 0 0 seq 0x0101 pay.length) pay tag s) else .next s

def execClose (t id seq : Nat) (s : State) : Host.Outcome State Fault Refusal := .next (request t id seq 0x0102 [] {} s)
def execKeepalive (t id seq : Nat) (s : State) : Host.Outcome State Fault Refusal := .next (request t id seq 0x0103 [] {} s)
def execReadItems (t id seq : Nat) (pay : List Byte) (ends : List Nat) (s : State) : Host.Outcome State Fault Refusal := .next (request t id seq 0x0201 pay { ends := ends } s)
def execReadSlots (t id seq : Nat) (pay : List Byte) (ends : List Nat) (s : State) : Host.Outcome State Fault Refusal := .next (request t id seq 0x0202 pay { ends := ends } s)
def execReadMap (t id seq : Nat) (pay : List Byte) (s : State) : Host.Outcome State Fault Refusal := .next (request t id seq 0x0203 pay {} s)
def execSubscribe (t id seq : Nat) (pay : List Byte) (s : State) : Host.Outcome State Fault Refusal := .next (request t id seq 0x0204 pay {} s)
def execUnsubscribe (t id seq : Nat) (pay : List Byte) (s : State) : Host.Outcome State Fault Refusal := .next (request t id seq 0x0205 pay {} s)
def execParamRead (t id seq : Nat) (pay : List Byte) (s : State) : Host.Outcome State Fault Refusal := .next (request t id seq 0x0301 pay {} s)
def execEditLock (t id seq : Nat) (pay : List Byte) (s : State) : Host.Outcome State Fault Refusal := .next (request t id seq 0x0302 pay {} s)
def execParamWrite (t id seq : Nat) (pay : List Byte) (s : State) : Host.Outcome State Fault Refusal := .next (request t id seq 0x0303 pay {} s)
def execCommit (t id seq : Nat) (pay : List Byte) (s : State) : Host.Outcome State Fault Refusal := .next (request t id seq 0x0304 pay {} s)
def execDiscard (t id seq : Nat) (s : State) : Host.Outcome State Fault Refusal := .next (request t id seq 0x0305 [] {} s)
def execEventList (t id seq : Nat) (pay : List Byte) (s : State) : Host.Outcome State Fault Refusal := .next (request t id seq 0x0501 pay {} s)
def execRecRead (t id seq : Nat) (pay : List Byte) (s : State) : Host.Outcome State Fault Refusal := .next (request t id seq 0x0502 pay {} s)
def execProgLoad (t id seq : Nat) (pay : List Byte) (s : State) : Host.Outcome State Fault Refusal := .next (request t id seq 0x0601 pay {} s)
def execProgRead (t id seq : Nat) (pay : List Byte) (s : State) : Host.Outcome State Fault Refusal := .next (request t id seq 0x0602 pay {} s)
/-- UPD_BEGIN (R541): the manifest up to its signature, and the signature; the two are its payload. -/
def execUpdBegin (t id seq : Nat) (pay sig : List Byte) (s : State) : Host.Outcome State Fault Refusal := .next (request t id seq 0x0701 (pay ++ sig) {} s)
def execUpdChunk (t id seq : Nat) (pay : List Byte) (env : FhpEnv) (s : State) : Host.Outcome State Fault Refusal := .next (request t id seq 0x0702 pay env s)
def execUpdStatus (t id seq : Nat) (pay : List Byte) (s : State) : Host.Outcome State Fault Refusal := .next (request t id seq 0x0703 pay {} s)
def execCapRead (t id seq : Nat) (pay : List Byte) (s : State) : Host.Outcome State Fault Refusal := .next (request t id seq 0x0801 pay {} s)
def execJournalRead (t id seq : Nat) (pay : List Byte) (s : State) : Host.Outcome State Fault Refusal := .next (request t id seq 0x0901 pay {} s)
def execBistRead (t id seq : Nat) (pay : List Byte) (s : State) : Host.Outcome State Fault Refusal := .next (request t id seq 0x0902 pay {} s)

/-- SESSION_IDLE_TIMEOUT (R397): no accepted request for host.session.idle, or none since OPEN for host.open.confirm. -/
def execSessionIdleTimeout (t : Nat) (k : Fin 8) (s : State) : Host.Outcome State Fault Refusal :=
  let s := s.at_ t
  match sessionAt s k.val with
  | none => .next s
  | some x =>
    let idle := decide (x.lastReq + s.parN .hostSessionIdle * 1000000000 ≤ t)
    let unconfirmed := !x.confirmed && decide (x.lastReq + x.confirmT * 1000000000 ≤ t)
    if netUp s && (idle || unconfirmed) then .next (closeSession k.val s) else .next s

/-- COMMIT_COMPLETE (R529, R531): the outcomes of steps 4 and 6. -/
def execCommitComplete (t : Nat) (ok4 ok6 : Bool) (s : State) : Host.Outcome State Fault Refusal := .next (endCommit ok4 ok6 (s.at_ t))

end Sys2Proof.Machine
end

