-- ==== Sys2Proof/Machine/Start.lean ====
section
/-!
DEFINITION. Start: the steps of Table 19-7 (R515 to R522), the life-cycle change and its erasures (R508, R509), the choice of a
configuration copy (R503, R514, R520, R532), the SCV check (R339, R530) and the end of Start (R518, R519).
-/
namespace Sys2Proof.Machine

/-! Stored pairs whose copies differ at equal sequence (R503). -/

/-- Both copies valid at one sequence with different values. -/
def pairClash {α : Type} [DecidableEq α] (p : Pair α) : Bool :=
  match p.a, p.b with
  | some (i, x), some (j, y) => i == j && decide (x ≠ y)
  | _, _ => false

def raiseClash (clash : Bool) (s : State) : State := if clash then s.raise 0x8011 0 else s

/-- Life-cycle state of the stored pair (R509). -/
def lifeStored (p : Pair LifeCycle) : LifeCycle :=
  match p.a, p.b with
  | some (i, x), some (j, y) =>
    if i != j then (if j < i then x else y)
    else ([LifeCycle.field, .provisioned, .returned, .blank].find? fun l => l == x || l == y).getD .blank
  | some (_, x), none => x
  | none, some (_, y) => y
  | none, none => .blank

/-! Boot journal (R521, R522). -/

def startMs (s : State) : Nat := (s.time.now - s.boot.startT) / 1000000

/-- Outcome of step k in the entry of this Start. -/
def markStep (k outcome detail : Nat) (s : State) : State :=
  updJournal (fun j => { j with steps := updAt j.steps (k - 1) fun _ => { outcome := outcome, detail := detail, t := startMs s } }) s

/-- Steps of the previous entry that failed or were left begun; every step when the entry is unreadable. -/
def failedSteps (j : Journal) : List Bool := j.steps.map fun r => j.bad || r.outcome == 1 || r.outcome == 5

/-- Steps that the failure of ends a Start (Table 19-7). -/
def essential (k : Nat) : Bool := [1, 2, 3, 6, 7, 8, 12].contains k

/-- A Start parameter that is needed before the configuration is loaded: from the shadow when it is intact, else its default (log 23). -/
def earlyPar (s : State) (p : PName) : Nat :=
  (match s.boot.shadow with | some i => if i.bad == 0 then paramIn i.cfg.params { p := p } else paramIn [] { p := p } | none => paramIn [] { p := p }).toNat

/-- Parameters of the loaded generation from step 4 on, the early ones before. -/
def haltTries (s : State) : Nat := if s.boot.runGen == 0 then earlyPar s .bootHaltTries else s.parN .bootHaltTries

/-- A Start that fails at an essential step ends a trial in a roll-back; one of the former set leaves the roll-back failed (R554). -/
def trialFailed (s : State) : State :=
  if s.upd.st == 6 then s.modUpd fun u => { u with st := 7, rolling := true }
  else if s.upd.st == 7 && s.upd.rolling then (s.modUpd fun u => { u with st := 8, rolling := false }).stand 0x903A 0 true
  else s

/-- Step 1: the entry of the previous Start is read, and the next one is opened. A step left begun counts as failed. -/
def openJournal (s : State) : State :=
  let prev := s.boot.journal.getD s.boot.newest {}
  let failed := failedSteps prev
  let begun := (List.range 12).filter fun k => !prev.bad && (prev.steps.getD k {}).outcome == 1
  let counted := (List.range 12).filter fun k => prev.bad || begun.contains k
  let aside := if (prev.steps.getD 6 {}).outcome == 5 && (prev.steps.getD 6 {}).detail == 0x500E then prev.gen else prev.setAside
  let s1 := forEach begun (fun k s => (updJournal (fun j => { j with steps := updAt j.steps k fun r => { r with outcome := 5, detail := 0x9001 } }) s).raise 0x9001 (evArg 0 (k + 1))) s
  let s2 := s1.modBoot fun b => { b with prevFailed := failed, aside := aside, tries := b.tries.mapIdx fun k n => if counted.contains k then n + 1 else n }
  let halts (k : Nat) : Bool := counted.contains k && essential (k + 1) && decide (haltTries s2 ≤ s2.boot.tries.getD k 0)
  let s3 := s2.modBoot fun b => { b with haltStep := ((List.range 12).find? halts).map (· + 1) }
  let r3 := s3.draw
  let s4 := if begun.contains 3 || begun.contains 7 || prev.bad then r3.2.modBoot fun b => { b with failAt := some (r3.1 % 8) }
    else s3
  let s5 := if begun.any fun k => essential (k + 1) then trialFailed s4 else s4
  let entry : Journal := { powerCycles := s.recorder.pc + 1, startT := s.boot.startT, cause := s.boot.cause, setAside := aside }
  s5.modBoot fun b => { b with newest := (b.newest + 1) % 16, journal := updAt b.journal ((b.newest + 1) % 16) fun _ => entry }

/-! How a step ends. -/

inductive StepEnd where
  | done | differently | skipped | failed (detail : Nat)
  deriving DecidableEq, Repr

/-- Step k is carried out as in the fifth column of Table 19-7. -/
def differs (s : State) (k : Nat) : Bool := s.boot.prevFailed.getD (k - 1) false || (s.boot.cause == 4 && (k == 5 || k == 9))

def asDone (s : State) (k : Nat) : StepEnd := if differs s k then .differently else .done

/-- A domain goes on or off (R574). -/
def setDomain (k : Nat) (on : Bool) (s : State) : State :=
  s.modPwr fun p => { p with domains := if on then p.domains ||| BitVec.ofNat 12 (2 ^ k) else p.domains &&& ~~~BitVec.ofNat 12 (2 ^ k) }

/-! Step 2 (R540, R554). -/

/-- Slot to be loaded: the one the selector names; the other after a failure of step 2, and when the trial has failed. A roll-back switches no further than to the former set (R554). -/
def wantedSlot (s : State) : Nat :=
  let (slot, trial) := selected s
  let back := s.upd.rolling || s.upd.st == 8
  if (if back then trial else s.boot.prevFailed.getD 1 false) then 1 - slot else slot

/-- The other slot holds a set. -/
def otherHeld (s : State) : Bool := s.upd.other.isSome || s.upd.staged.isSome

def stepFirmware (slotOk : Bool) (s : State) : State × StepEnd :=
  let want := wantedSlot s
  let sel := (selected s).1
  let move := want != s.upd.loaded
  if !slotOk || (move && !otherHeld s) then (s, .failed 0x9001)
  else
    let s1 := (loadSlot move s).modUpd fun u => { u with loaded := want }
    let s2 := if want != sel then s1.modUpd fun u => { u with selector := writePair u.selector (want, false) } else s1
    let s3 := if want != sel && s.upd.rolling then s2.raise 0x903B 0 else s2
    (setDomain 2 true (setDomain 5 true (setDomain 6 true s3)), if s.boot.prevFailed.getD 1 false then .differently else .done)

/-! Life-cycle change (R508, Table 19-2). -/

/-- Role keys other than Vendor leave a stored image. -/
def dropKeys (i : CfgImage) : CfgImage := { i with cfg := { i.cfg with params := i.cfg.params.filter fun e => e.1.p != .hostKey } }

/-- Erasures of a change, carried out before step 3. -/
def lifeErase (old new : LifeCycle) (s : State) : State :=
  match old, new with
  | .field, .returned =>
    s.modBoot fun b => { b with copyA := b.copyA.map dropKeys, copyB := b.copyB.map dropKeys, shadow := b.shadow.map dropKeys, keys := [{}, {}, {}, {}] }
  | .returned, .blank =>
    (s.modBoot fun b => { b with copyA := none, copyB := none, shadow := none, roster := {}, keys := [{}, {}, {}, {}], progStore := {}, latchStore := {}, confirm := {} }).modLearned fun _ => List.replicate 4 {}
  | _, _ => s

/-- A change that Table 19-2 lists. -/
def lifeListed (old new : LifeCycle) : Bool :=
  match old, new with
  | .blank, .provisioned | .provisioned, .field | .field, .returned | .returned, .provisioned | .returned, .blank => true
  | _, _ => false

/-! Step 3 (R503, R514, R520, R532). -/

/-- First check of R514 that a copy fails, 0 for none, and the refusal event behind check 5. -/
def copyCheck (s : State) (o : Option CfgImage) : Nat × Option Nat :=
  match o with
  | none => (1, none)
  | some i => if i.bad != 0 then (i.bad, none) else if 1048576 < i.size then (1, none) else match contentFault s i.cfg with | some e => (5, some e) | none => (0, none)

/-- Copy A 0, copy B 1, shadow 2. -/
def copyOf (s : State) (k : Nat) : Option CfgImage := if k == 0 then s.boot.copyA else if k == 1 then s.boot.copyB else s.boot.shadow

def copyValid (s : State) (k : Nat) : Bool := (copyCheck s (copyOf s k)).1 == 0

/-- A copy holds the generation set aside. -/
def isAside (s : State) (k : Nat) : Bool := s.boot.aside != 0 && match copyOf s k with | some i => i.gen == s.boot.aside | none => false

/-- Order in which the copies are read. -/
def readOrder (s : State) : List Nat :=
  let f := if (earlyPar s .bootFlashFirst == 0) != s.boot.prevFailed.getD 2 false then 0 else 1
  [f, 1 - f, 2]

/-- The copies that hold the highest valid generation not set aside, in the order read. -/
def topCopies (s : State) : List (Nat × CfgImage) :=
  let ok := (readOrder s).filterMap fun k => if copyValid s k && !isAside s k then (copyOf s k).map (k, ·) else none
  let g := ok.foldl (fun m x => max m x.2.gen) 0
  ok.filter fun x => x.2.gen == g

/-- The copy selected; none when there is none or when two differ. -/
def selectCopy (s : State) : Option (Nat × CfgImage) :=
  match topCopies s with
  | [] => none
  | x :: rest => if rest.all fun y => y.2 == x.2 then some x else none

/-- The change of life-cycle state that the configuration to be loaded asks for. -/
def lifeStep (s : State) : State :=
  let clash := pairClash s.boot.lifeStore
  let old := lifeStored s.boot.lifeStore
  let s1 := raiseClash clash (s.modBoot fun b => { b with life := old })
  match (selectCopy s1).bind fun x => x.2.cfg.params.lookup { p := .bootLifecycle } with
  | none => s1
  | some v =>
    let new := lifeOf v.toNat
    if lifeListed old new then
      (lifeErase old new (s1.modBoot fun b => { b with life := new, lifeStore := writePair b.lifeStore new })).raise 0x900C 0
    else s1

/-- Every copy that is not valid is reported, a refusal event of a chapter once (R514). -/
def reportCopies (s : State) : State :=
  let r := [0, 1, 2].map fun k => (k, copyCheck s (copyOf s k))
  let codes := (r.filterMap fun x => x.2.2).eraseDups
  forEach codes (fun c s => s.raise c 0)
    (forEach (r.filter fun x => x.2.1 != 0) (fun x s => s.raise 0x9006 (evArg x.1 (x.2.2.getD x.2.1))) s)

/-- The other copies are rewritten from the one selected: flash only outside the programming inhibit, a set-aside copy never (R520, R532). -/
def rewriteCopies (i : CfgImage) (s : State) : State :=
  let due := [0, 1, 2].filter fun k => copyOf s k != some i && !isAside s k && (k == 2 || !s.therm.flashInh)
  forEach due (fun k s => (markCopy k true (s.modBoot fun b => if k == 0 then { b with copyA := some i } else if k == 1 then { b with copyB := some i } else { b with shadow := some i })).raise 0x900D (evArg k 0)) s

/-- A configuration takes force as the one that runs: its item map under its version (log 20), routes and brick counts. The first frame after a Start carries new_map 1: no frame N-1 of this run had a map (DESIGN CHOICE, log 26). -/
def loadConfig (i : CfgImage) (s : State) : State :=
  let c := i.cfg
  let s1 := s.modBoot fun b => { b with run := c, com := c, runGen := i.gen, comGen := i.gen }
  let s2 := s1.modComb fun m => if m.map == c.map then { m with newMap := true } else
    { m with mapVersion := m.mapVersion + 1, prevMap := if m.mapVersion == 0 then none else some (m.mapVersion, m.map), map := c.map, newMap := true }
  setDomain 5 (s2.parN .linkStrings != 0) (applyCommit.loadRoutes false s2)

def stepConfig (s0 : State) : State × StepEnd :=
  let s := reportCopies (lifeStep s0)
  let valid := BitVec.ofNat 3 (([0, 1, 2].filter (copyValid s)).map (2 ^ ·)).sum
  let s1 := s.modBoot fun b => { b with validCopies := valid }
  match selectCopy s1 with
  | none => if (topCopies s1).isEmpty then (s1, .failed 0x9006) else (s1.raise 0x8010 0, .failed 0x8010)
  | some (k, i) =>
    let s2 := loadConfig i (rewriteCopies i (s1.modBoot fun b => { b with source := k }))
    let s3 := updJournal (fun j => { j with gen := i.gen, source := k }) s2
    (if k != 2 then s3.clear 0x9007 0 else s3.stand 0x9007 0 (s3.isRaised 0x9007 0 || valid &&& 3 == 0), asDone s 3)

/-! Step 4. -/

/-- Ports 0 ETHA, 1 ETHB, 2 CANA, 3 CANB, configured in this order; a port left out stays unconfigured. The gateway is resolved (R386). -/
def stepNetwork (ok : Bool) (place : Nat) (s : State) : State × StepEnd :=
  let leave (p : Nat) (s : State) : State :=
    if 2 ≤ p then updPort (p - 2) (fun _ => {}) s else s.modBoot fun b => { b with ethOut := updAt b.ethOut p fun _ => true }
  let gw := s.parN .hostIpGw
  let s0 := setDomain 8 true (configCan s)
  let s1 := if gw == 0 || (!ok && place == 0) then s0 else resolveHop gw s0
  if !ok then (forEach ((List.range 4).filter fun p => decide (place ≤ p)) leave (s1.modBoot fun b => { b with failAt := some (place % 4) }), .failed 0x9001)
  else if differs s 4 then
    match s.boot.failAt with
    | some p => (leave (p % 4) s1, .differently)
    | none => (s1, .differently)
  else (s1, .done)

/-! Step 5 (R366). -/

/-- Without a sample module time runs on as it stands, in holdover with the bound unknown. -/
def stepTimeWait (s : State) : State × StepEnd :=
  let s1 := if s.time.src.isSome then s
    else judgeSync s.time.now ((s.modTime fun x => { x with holdover := true, bound := none, src := none }).stand 0x6001 0 true)
  (s1, asDone s 5)

/-! Step 7 (R322, R339, R520, R530). -/

/-- Confirmed SCV for the loaded generation. -/
def confirmedScv (s : State) : Option Nat :=
  let img := match copyOf s s.boot.source with | some i => i | none => { gen := 0 }
  match confirmed s with
  | some (g, v) => if g == s.boot.runGen then some v else if img.confirmGen != 0 && g == img.confirmGen && v == img.scv then some v else none
  | none => none

/-- The load port takes the safety section and the confirmed SCV once; closed, the Guard keeps what it holds (R339, log 19). -/
def loadGuard (scv : Nat) (conf : Option Nat) (s : State) : State :=
  s.modGuard fun g => if g.portOpen then { g with portOpen := false, params := some s.boot.run.params, scv := scv, scvFail := conf != some scv } else g

/-- Latches of the copy with the later sequence; the union of both at equal sequence (R322, R503). -/
def restoreLatches (s : State) : State :=
  let p := s.boot.latchStore
  let clash := pairClash p
  let v := match p.a, p.b with
    | some (_, x), some (_, y) => if clash then some (List.zipWith (· || ·) x.1 y.1, List.zipWith (· ||| ·) x.2 y.2) else pairLater p
    | _, _ => pairLater p
  let s1 := raiseClash clash s
  match v with
  | some (l, c) => s1.modCore fun x => { x with latch := l, causes := c, scope := x.scope.mapIdx fun k st => if l.getD k false then .locked else st }
  | none => s1

/-- Both channels check their copies. Without a confirmed value the step fails; a comparison that fails latches the group (log 24). From the next frame boundary on the safety core evaluates every frame (R315, R351). -/
def stepSafety (s : State) : State × StepEnd :=
  let ps := s.boot.run.params
  let scv := scvOf ps
  let conf := confirmedScv s
  let clash := pairClash s.boot.confirm || (match s.boot.confirm.a, s.boot.confirm.b with | some (_, x), some (_, y) => x != y | _, _ => false)
  let s1 := restoreLatches (loadGuard scv conf (raiseClash clash s))
  let ok := conf == some scv && !s1.guard.scvFail && s1.guard.scv == scv
  let s2 := s1.modCore fun x => { x with params := some ps, scv := scv, scvConf := conf, scvOk := ok, evalDone := true }
  let s2 := s2.modCore fun x => { x with conns := x.conns.mapIdx fun k _ => if connId s2 k == 0 then {} else { st := .start } }
  if ok then (s2.clear 0x500E 0, asDone s 7)
  else
    let s3 := coreLatch 4 (sf 21) (if s2.guard.scvFail then stageAll (setGLatch 4 (sf 21) s2) else s2)
    let s4 := storeLatches (s3.raise 0x500E 0)
    if conf.isNone then (s4, .failed 0x500E) else (s4, asDone s 7)

/-! Step 8 (R224). -/

def stepLearned (s : State) : State × StepEnd :=
  let s0 := match differs s 8, s.boot.failAt with
    | true, some c => s.modLearned fun l => updAt l (c / 2 % 4) fun p => if c % 2 == 0 then { p with a := none } else { p with b := none }
    | _, _ => s
  let clash (n : Nat) : Bool := pairClash (s0.learned.getD n {})
  (forEach ((List.range 4).filter (linkOn s0)) (fun n s => startLearned n (raiseClash (clash n) s)) s0, asDone s 8)

/-! Step 9 (R517). -/

/-- The roster of the later sequence; empty when two copies of one sequence differ (R503). -/
def storedRoster (s : State) : List (Nat × Nat × Option Diag) := if pairClash s.boot.roster then [] else (pairLater s.boot.roster).getD []

/-- K_net of a string: both copies lost, or different at one sequence, is a new key for a string with roster entries (R81, R503). -/
def loadKey (entries : List (Nat × Nat × Option Diag)) (n : Nat) (s : State) : State :=
  let p := s.boot.keys.getD n {}
  let s1 := raiseClash (pairClash p) s
  match (if pairClash p then none else pairLater p) with
  | some k => s1.updLink n fun l => { l with key := some k }
  | none =>
    if entries.any fun e => e.1 / 36 == n then (let r := newNetKey n s1; r.2.updLink n fun l => { l with key := some r.1 })
    else s1.updLink n fun l => { l with key := none }

/-- Step 9 begins: roster, keys and radio ports (their beacons run from the next frame boundary), and discovery unless the stored roster counts as confirmed. -/
def beginRadio (s : State) : State :=
  if s.parN .linkStrings == 0 then s
  else
    let es := storedRoster s
    let find := !differs s 9
    let s1 := raiseClash (pairClash s.boot.roster) s
    let s2 := s1.modForgs fun fs => fs.mapIdx fun j f => match es.find? (·.1 == j) with
      | some e => { f with uid := some e.2.1, diag := e.2.2, diagAt := none, fw := e.2.2.map fun d => (d.fwActive, none), provisional := find, misses := 0 }
      | none => { f with uid := none, diag := none, diagAt := none, fw := none }
    let s3 := forEach ((List.range 4).filter (linkOn s2)) (fun n s => configRadio n (loadKey es n s)) (forEach (List.range 144) judgeThr s2)
    (setDomain 7 true s3).modBoot fun b => { b with discover := if find then some (s.time.frame + s.parN .bootDiscoverFrames) else none }

/-- Discovery ends: entries still provisional stay in the roster and are reported. -/
def endDiscovery (s : State) : State :=
  match s.boot.discover with
  | none => s
  | some _ =>
    forEach ((List.range 144).filter fun j => (s.forg j).uid.isSome && (s.forg j).provisional) (fun j s => s.stand 0x2001 j true) (s.modBoot fun b => { b with discover := none })

/-- START_DISCOVERY_END. -/
def execStartDiscoveryEnd (t : Nat) (s : State) : Host.Outcome State Fault Refusal :=
  let s := s.at_ t
  match s.boot.discover with
  | some f => if s.up && decide (f ≤ s.time.frame) then .next (endDiscovery s) else .next s
  | none => .next s

/-! Steps 10 and 11. -/

def stepProgram (s : State) : State × StepEnd :=
  if differs s 10 then (s.modProg fun p => { p with st := .none, active := none, safe := true, outNow := [] }, .differently)
  else (startProgram (loadProgram s) (raiseClash (pairClash s.boot.progStore) s), .done)

def stepRecorder (s : State) : State × StepEnd :=
  (s.modRecorder fun r => { r with pc := r.pc + 1, on := !differs s 11 }, asDone s 11)

/-! Step 12 (R518). -/

/-- Mode that ends Start. -/
def startMode (s : State) : Mode :=
  if groupLatched s then .lockout
  else match s.boot.life with
    | .blank | .returned => .commission
    | l => match modeOfCode (s.parN .bootStartMode) with | some m => if lifeAdmits l m then m else .standby | none => .standby

/-- Lanes as Start finds them: no spare, and strings without a working lane, are reported (R255, R259, R260). -/
def startLanes (s : State) : State :=
  forEach (List.range 4) (fun n s => s.stand 0x4006 n ((s.loop n).st == .stopLane)) (s.stand 0x4002 0 (!s.reg.lanes.any fun l => l.st == 1 || l.st == 2))

/-- The mode of R518 is in force from the next frame boundary (Table 19-9); from the end of Start the Guard may grant, and the safety core counts and toggles its alive line, and its connections are Unsynchronised (Table 12-6). -/
def stepMode (s : State) : State × StepEnd :=
  let m := startMode s
  let bits := BitVec.ofNat 12 (((List.range 11).filter fun k => (((s.boot.journal.getD s.boot.newest {}).steps.getD k {}).outcome != 2)).map (2 ^ ·)).sum
  let s1 := (updJournal (fun j => { j with endMode := modeCode m }) s).modBoot fun b => { b with
    phase := .run, modeNext := [(m, s.time.frame + 1)], duration := startMs s, endT := s.time.now, notNormal := bits }
  let s1 := startLanes (s1.modForgs fun fs => fs.map fun f => { f with cmpFrom := s.time.now })
  let s2 := (stageAll (s1.modGuard fun g => { g with started := !g.scvFail })).modCore fun x => { x with counting := true, aliveOn := true, conns := x.conns.map fun c => if c.st == .start then { c with st := .unsync } else c }
  let s3 := if s.upd.st == 6 || (s.upd.st == 7 && s.upd.rolling) then s2.modUpd fun u => { u with deadline := some (s.time.now + s.upd.confirmMs * 1000000) } else s2
  let s4 := if s.upd.st == 7 && s.boot.cause != 4 then returnForagers (s.time.frame + s.upd.lead) s3 else s3
  let s5 := if m == .operate then s4 else s4.modDisp fun d => { d with strs := d.strs.map fun x => { x with noted := false } }
  (s5.raise 0x9005 (startMs s), .done)

/-! The steps in order (R516, R519). -/

/-- Limit of a step in ms (Table 19-7). -/
def stepLimit (s : State) (k : Nat) : Nat :=
  [0, 50, 2000, 3000, 500, 1000 * s.parN .timeStartWait + 100, 20, 200, 500, 100 + 10 * s.parN .bootDiscoverFrames, 200, 200, 10].getD k 0

/-- The work of step k and how it ends. -/
def doStep (k : Nat) (env : StartEnv) (s : State) : State × StepEnd :=
  if k == 1 then (openJournal s, if env.ok then .done else .failed 0x9001)
  else if k == 2 then (if env.ok then stepFirmware env.slotOk s else (s, .failed 0x9001))
  else if k == 4 then stepNetwork env.ok env.place s
  else if !env.ok then ((if k == 8 then s.modBoot fun b => { b with failAt := some (env.place % 8) } else s), .failed 0x9001)
  else if k == 3 then stepConfig s
  else if k == 5 then stepTimeWait s
  else if k == 6 then (forEach (List.range 24) armUnit (s.modTime fun x => { x with framesOn := true, frame := x.now / frameNs, firstFrame := x.now / frameNs }), .done)
  else if k == 7 then stepSafety s
  else if k == 8 then stepLearned s
  else if k == 9 then (if s.parN .linkStrings == 0 then (s, .skipped) else (endDiscovery s, asDone s 9))
  else if k == 10 then stepProgram s
  else if k == 11 then stepRecorder s
  else stepMode s

/-- Start halts at a step (R519): network and keys as copy A gives them when it passes checks 1 to 4, else the defaults. -/
def haltStart (k : Nat) (s : State) : State :=
  let img := match s.boot.copyA with | some i => if i.bad == 0 || i.bad == 5 then some i else none | none => none
  let c : Cfg := match img with | some i => i.cfg | none => {}
  let s1 := s.modBoot fun b => { b with phase := .halted, haltStep := some k, ethOut := [false, false], run := c, com := c, comGen := (match img with | some i => i.gen | none => 0), runGen := 0 }
  (setDomain 8 true (updJournal (fun j => { j with endMode := 0xFE }) s1)).raise 0x9004 (evArg 0 k)

/-- An essential step has failed: a restart, or the halt (R516, R519, R554). -/
def failStart (k detail : Nat) (s : State) : State :=
  let s1 := s.modBoot fun b => { b with tries := updAt b.tries (k - 1) (· + 1) }
  let s2 := trialFailed s1
  if haltTries s2 ≤ s2.boot.tries.getD (k - 1) 0 then haltStart k s2 else restartModule 2 (noteRestart k detail s2)

/-- The next step begins, or Start halts at it. -/
def beginStep (k : Nat) (s : State) : State :=
  if s.boot.haltStep == some k then haltStart k (markStep k 5 0x9001 s)
  else
    let s1 := (markStep k 1 0 s).modBoot fun b => { b with step := k, stepAt := s.time.now }
    if k == 9 then beginRadio s1 else s1

/-- Outcome, detail and event of a step. -/
def endStep (k : Nat) (e : StepEnd) (s : State) : State :=
  let ok (s : State) : State := s.modBoot fun b => { b with tries := updAt b.tries (k - 1) fun _ => 0 }
  match e with
  | .done => ok (markStep k 2 0 s)
  | .differently => (ok (markStep k 3 0x9002 s)).raise 0x9002 (evArg 0 k)
  | .skipped => (markStep k 4 0x9003 s).raise 0x9003 (evArg 0 k)
  | .failed d => (markStep k 5 d s).raise 0x9001 (evArg 0 k)

/-- START_STEP (R516): the running step ends at t. Step 1 waits while PFW_N is low (R573). -/
def execStartStep (t : Nat) (pfwHigh : Bool) (env : StartEnv) (s : State) : Host.Outcome State Fault Refusal :=
  let s := s.at_ t
  let k := s.boot.step
  if s.boot.phase != .start || k == 0 then .next s
  else if k == 1 && !pfwHigh then .next (s.modBoot fun b => { b with pfwN := false })
  else
    let late := k != 1 && decide (s.boot.stepAt + stepLimit s k * 1000000 < s.time.now)
    let s0 := if k == 1 then s.modBoot fun b => { b with pfwN := true } else s
    let r := doStep k { env with ok := env.ok && !late } s0
    let s1 := endStep k r.2 r.1
    match r.2 with
    | .failed d => if essential k then .next (failStart k d s1) else .next (beginStep (k + 1) s1)
    | _ => if k == 12 then .next s1 else if s1.boot.haltStep == some k then .next (haltStart k (markStep k 5 0x9001 s1)) else .next (beginStep (k + 1) s1)

end Sys2Proof.Machine
end

