-- ==== Sys2Proof/Machine/CombItems.lean ====
section
/-!
DEFINITION. CombItems: the value, quality and age of every Comb item (R56 to R63, and the Comb item table of each chapter), by area,
instance and field of its key. g is the frame whose image the item enters, per the refresh period of its map entry.
-/
namespace Sys2Proof.Machine

/-! Items by their quality rules (R60). -/

/-- Good with age 0: a state in force, or a fresh result of the frame. -/
def okI (v : Int) : Item := { val := v, q := .good, age := some 0 }
def okN (v : Nat) : Item := okI (v : Int)
def okB (b : Bool) : Item := okI (if b then 1 else 0)
/-- Invalid with no valid value so far. -/
def lostI : Item := {}
def optI (v : Option Int) : Item := match v with | some v => okI v | none => lostI

/-- A value of a unit of 1/k. -/
def unitsOf (k x : Rat) : Int := wholeUnits (x * k)
def optR (k : Rat) (x : Option Rat) : Item := optI (x.map (unitsOf k))

/-- Quality after an age, by the refresh period: frame 0, round 1, event 2 (R60). -/
def agedQ (per a : Nat) : Quality :=
  if per == 2 then .good else let m := if per == 1 then a / 100 else a; if m == 0 then .good else if m ≤ 2 then .held else .stale

/-- A value measured in frame `at_`, seen from frame g; Invalid when it never was. -/
def measured (per g : Nat) (v : Option (Int × Nat)) : Item :=
  match v with | some (x, f) => { val := x, q := agedQ per (g - f), age := some (g - f) } | none => lostI

/-- An event item: Good until its writer changes it, with its age. -/
def eventI (g : Nat) (v : Option (Int × Nat)) : Item := measured 2 g v

/-- Frames up to g in which no pair has been accepted any more, within 3 periods (R430). -/
def pairMissed (s : State) (g : Nat) : Nat :=
  match s.time.lastPair with | some a => ((g + 1) * frameNs - (a + 3 * s.parN .canTimePeriod * frameNs)) / frameNs | none => 0

/-- Bits as a number, bit 0 first. -/
def bitsOf (l : List Bool) : Nat := l.foldr (fun b a => 2 * a + (if b then 1 else 0)) 0

def noneIs (k : Nat) (o : Option Nat) : Item := okN (o.getD k)

/-! Area 0x01, module. -/

/-- Role counts, 4 bits each (Table 14-11). -/
def rolesOpen (s : State) : Nat := ((s.host.slots.filterMap id).map fun x => 16 ^ roleIndex x.role).sum

def canItem (s : State) (k : Nat) : Item :=
  let p := canPort s (k / 8)
  match k % 8 with
  | 0 => okN p.st
  | 1 => if p.st == 5 then lostI else okN p.rate
  | 2 => okN p.overflow
  | 3 => okN p.txFull
  | 4 => okN p.busoff
  | 5 => okN p.lenRej
  | _ => lostI

def moduleItem (s : State) (g per f : Nat) : Item :=
  let h := s.host
  let u := s.upd
  let b := s.bist
  match f with
  | 0x10 => okN s.comb.mapVersion
  | 0x11 => okN s.comb.late.toNat
  | 0x12 => okN s.comb.expired
  | 0x13 => okN s.comb.repairs
  | 0x14 => okN (mapSlots s.comb.map)
  | 0x20 => okN (modeCode s.boot.mode)
  | 0x21 => okN (lifeCode s.boot.life)
  | 0x22 => okN s.boot.runGen
  | 0x23 => okN s.boot.comGen
  | 0x24 => okN s.boot.aside
  | 0x25 => okN s.boot.source
  | 0x26 => okN s.boot.validCopies.toNat
  | 0x27 => okN s.boot.duration
  | 0x28 => okN s.boot.notNormal.toNat
  | 0x29 => okN s.boot.uid
  | 0x30 => okN (h.slots.filterMap id).length
  | 0x31 => okN (rolesOpen s)
  | 0x32 => okN (h.lock.getD 0)
  | 0x33 => okN h.discarded
  | 0x34 => okN h.lengthRej
  | 0x35 => okN h.seqDisc
  | 0x36 => okN h.rateLim
  | 0x37 => okN h.busy
  | 0x38 => okN h.pushDrop
  | 0x39 => okN s.boot.pend.length
  | 0x50 => okN s.can.role
  | 0x51 => noneIs 255 s.can.master
  | 0x52 => match s.can.masterSync with
    | some (y, fr) => { val := if y then 1 else 0, age := some (g - fr), q := agedQ per (pairMissed s g) }
    | none => lostI
  | 0x80 => okN s.recorder.ops
  | 0x81 => okN s.recorder.pc
  | 0x82 => okN s.recorder.commits
  | 0x83 => okN s.recorder.overwritten
  | 0x84 => okN s.recorder.clears.length
  | 0x90 => okN u.st
  | 0x91 => okN u.running.version
  | 0x92 => okN (match u.staged with | some m => m.version | none => 0)
  | 0x93 => okN u.got.length
  | 0x94 => okN (totalOf s)
  | 0x95 => okN ((neededForagers s).filter fun j => (s.forg j).staging == 2).length
  | 0x96 => okN (selected s).1
  | 0x97 => okN (floorOf s)
  | 0xA0 => okN b.ptr
  | 0xA1 => okN b.cycles
  | 0xA2 => okN b.failed
  | 0xA3 => okN b.skipped
  | 0xA4 => okN b.deferred
  | 0xA5 => okN b.seq
  | f =>
    if 0x40 ≤ f && f < 0x50 then canItem s (f - 0x40)
    else if 0x60 ≤ f && f < 0x70 then okN (station s (f - 0x60)).st
    else if 0x70 ≤ f && f < 0x80 then okN (imageAge s g (f - 0x70))
    else if 0x88 ≤ f && f < 0x8C then okN (s.recorder.tokens.getD (f - 0x88) (0, 0)).1
    else lostI

/-! Area 0x02, strings (Tables 6-10, 7-10). -/

/-- The newest valid learned-value record of a string with its write sequence. -/
def newestLearned (s : State) (n : Nat) : Option (Nat × LearnedRec) := (bestRecord s n).map fun r => (r.seq, r)

def validLearned (s : State) (n : Nat) : Nat :=
  let p := s.learned.getD n {}
  ([p.a, p.b].filter fun o => match o with | some (_, r) => recordFits s n r | none => false).length

def stringItem (s : State) (g n f : Nat) : Item :=
  let e := s.estr n
  let cells := stringCells s n
  let socs := (cells.filter fun c => !c.socInvalid).map pubSoc
  let ext (x : Option (Rat × Nat)) (pos : Bool) : Item := match x with | some (v, p) => if pos then okN p else okI (unitsOf 10 v) | none => lostI
  let lr := newestLearned s n
  let ev (x : LearnedRec → Int) : Item := eventI g (lr.map fun r => (x r.2, r.2.frame))
  match f with
  | 0x10 => okN (regimeCode e.regime)
  | 0x11 => e.iItem
  | 0x12 => e.aItem
  | 0x13 => e.bItem
  | 0x14 => okN e.chan
  | 0x15 => okN e.rest
  | 0x16 => okN e.branch
  | 0x17 => (match socs with | [] => lostI | a :: l => okI (l.foldl min a))
  | 0x18 => (match socs with | [] => lostI | a :: l => okI (l.foldl max a))
  | 0x19 => optR 100 (meanSoc cells)
  | 0x1A => okI (ratCeil (sigmaString cells * 100))
  | 0x1B => okB e.unanch
  | 0x1C => okN e.req
  | 0x1D => okB e.eod
  | 0x1E => okB e.eoc
  | 0x1F => ext e.vcMin false
  | 0x20 => ext e.vcMin true
  | 0x21 => ext e.vcMax false
  | 0x22 => ext e.vcMax true
  | 0x23 => optI (e.results.map (·.1))
  | 0x25 => optI (e.results.map (·.2.1))
  | 0x27 => optR 1 (e.results.map (·.2.2.1))
  | 0x29 => optR 1 (e.results.map (·.2.2.2))
  | 0x2B => okN e.gaps
  | 0x30 => ev fun r => (r.seq : Int)
  | 0x31 => ev fun r => (r.frame : Int)
  | 0x33 => ev fun r => (r.cause : Int)
  | 0x34 => okN (validLearned s n)
  | _ => lostI

/-! Area 0x03, bricks (Tables 4-18, 5-10). -/

/-- An item read from a forager's uplink: fresh, or the last valid reading aged by the misses (Table 3-6). -/
def uplinkItem (s : State) (g j : Nat) (v : Uplink → Int) : Item :=
  let f := s.forg j
  if !linkOn s (j / 36) then lostI
  else match f.closed, f.last with
    | some u, _ => okI (v u)
    | none, some (u, fr) => { val := v u, q := missingQ (g - fr), age := some (g - fr) }
    | none, none => lostI

/-- An item of the diagnostic record kept, with its age since the record arrived; the sample frame of one loaded at Start is not known. -/
def diagItem (s : State) (g j : Nat) (v : Diag → Int) : Item :=
  let f := s.forg j
  match f.diag with | some d => { val := v d, q := .good, age := f.diagAt.map (g - ·) } | none => lostI

def brickItem (s : State) (g j f : Nat) : Item :=
  let up := uplinkItem s g j
  let x := s.forg j
  match f with
  | 0x10 =>
    let it := up fun u => (u.brickV : Int)
    if it.q == .invalid then it
    else if x.totalQ == .inconsistent || x.totalQ == .invalid then { it with q := x.totalQ } else it
  | 0x15 => up (·.dieT)
  | 0x16 => up fun u => (u.bleed.toNat : Int)
  | 0x17 => up fun u => (u.ov.toNat : Int)
  | 0x18 => up fun u => (u.uv.toNat : Int)
  | 0x19 => up fun u => (u.flags.toNat : Int)
  | 0x20 => (match x.sumD with
    | some d => let it := up fun _ => unitsOf (1 / 10) (d : Rat); it
    | none => lostI)
  | 0x21 => up fun u => if upFlag u 3 then 1 else 0
  | 0x22 => diagItem s g j fun d => if thrMatch s d then 1 else 0
  | 0x23 => diagItem s g j fun d => (d.restarts : Int)
  | 0x24 => okN x.burst
  | f => if 0x11 ≤ f && f ≤ 0x14 then up fun u => u.therm.getD (f - 0x11) 0 else lostI

/-! Area 0x04, cells (Tables 5-10, 6-9, 7-10). -/

/-- Balancing item of a cell: off, bleeding, or excluded by the conditions of R127. -/
def balancing (s : State) (n p : Nat) : Nat :=
  let c := s.cell (576 * n + p)
  let f := s.forg (brickInst n (p / 16))
  if (f.bleedWas.getD (p % 16) {}).on then 1
  else if balGood c && decide (s.par .cellBalVMin ≤ c.v.val) && decide (cellT s n p ≤ (s.par .cellBalTHot : Rat)) && cellOw f (p % 16) == 0 then 0 else 2

/-- Frame of the test on which a wire's state 4 or 5 rests. -/
def owFrame (f : Forager) (c : Nat) : Nat :=
  let a := f.wires.getD c {}
  if a.st == cellOw f c then a.vOn else (f.wires.getD (c + 1) {}).vOn

def cellItem (s : State) (g i f : Nat) : Item :=
  let c := s.cell i
  let n := i / 576
  let p := i % 576
  let fo := s.forg (i / 16)
  if cellCount s n ≤ p then lostI
  else
    let socQ (strict : Bool) : Quality := if c.socInvalid then .invalid else if strict && (c.under || c.above) then .inconsistent else agedQ 0 c.missed
    let soc (strict : Bool) (v : Int) : Item := { val := v, q := socQ strict, age := some c.missed }
    let learnt (ok : Bool) (fr : Option Nat) (v : Int) : Item := if ok then { val := v, q := .good, age := fr.map (g - ·) } else lostI
    let orRule (ok : Bool) (fr : Option Nat) (v : Int) : Item := if ok then learnt true fr v else { val := v, q := .substituted, age := some 0 }
    let tone (k : Nat) (im : Bool) : Item := match c.z with
      | some (z, fr) => let x := z.getD k (0, 0); eventI g (some (clampInt (-32768) 32767 (unitsOf 1000000 (if im then x.2 else x.1)), fr))
      | none => lostI
    match f with
    | 0x10 => c.v
    | 0x11 =>
      let it := uplinkItem s g (i / 16) fun u => u.coarse.getD (i % 16) (-128)
      if it.val == -128 then { it with q := .invalid } else it
    | 0x12 => let w := cellOw fo (i % 16); if w == 4 || w == 5 then { val := w, q := .good, age := some (g - owFrame fo (i % 16)) } else okN w
    | 0x13 => okI (bleedLeft (fo.bleedWas.getD (i % 16) {}))
    | 0x14 => okN (balancing s n p)
    | 0x20 => soc true (pubSoc c)
    | 0x21 => soc false (ratCeil (c.sigma * 100))
    | 0x22 => soc true c.q
    | 0x24 => soc false c.b
    | 0x26 => okI c.overrun
    | 0x28 => (match c.vc with | some (v, q) => { val := unitsOf 10 v, q := q, age := c.v.age } | none => { q := .invalid, age := c.v.age })
    | 0x29 => eventI g (c.ocv.map fun o => (unitsOf 10 o.1, o.2.2))
    | 0x2A => eventI g (c.ocv.map fun o => (unitsOf 100 o.2.1, o.2.2))
    | 0x2B => if c.anchor == 0 then okN 0 else eventI g (some ((c.anchor : Int), c.anchorAt))
    | 0x2C => if c.anchor == 0 then lostI else okN ((g - c.anchorAt) / 100)
    | 0x36 => orRule c.rValid c.rAt (wholeUnits c.rRef)
    | 0x37 => if c.tValid then eventI g (c.tInt.map fun t => (unitsOf 10 t.1, t.2)) else lostI
    | 0x38 => learnt c.rValid c.rAt (wholeUnits (ratioH c.rRef c.rFirst))
    | 0x39 => learnt (decide (2 ≤ c.impN)) c.rAt (wholeUnits c.trend)
    | 0x3A => orRule c.capValid c.capAt c.cap
    | 0x3C => orRule c.capValid c.capAt (wholeUnits (1000 * (c.cap : Rat) / (nominalQ s : Rat)))
    | 0x3D => learnt (c.capN != 0) c.capAt c.capN
    | f => if 0x30 ≤ f && f ≤ 0x35 then tone ((f - 0x30) / 2) ((f - 0x30) % 2 == 1) else lostI

/-! Area 0x05, Regulator (Table 8-14). -/

def loopCode : LoopSt → Nat
  | .off => 0 | .auto => 1 | .manual => 2 | .stopLane => 3 | .stopMeas => 4

/-- Items of a loop (Table 8-14), from what it latched in the tick that holds the sample instant. The duty is the nearest unit (DEDUCED, log 5): the worked design publishes 54,860.48 as 54,860. -/
def loopItem (s : State) (n f : Nat) : Item :=
  let l := (s.loop n).pub
  let onI (x : Item) : Item := if l.st == .auto || l.st == .manual then x else { x with q := .invalid }
  let duty (k : Nat) : Item := onI (okI (clampInt 0 65535 (nearest (65536 * f32.rat (l.duty.getD k 0)))))
  match f with
  | 0x10 => okN (loopCode l.st)
  | 0x11 => noneIs 255 l.lane
  | 0x12 => okN l.region
  | 0x13 => okN l.gset
  | 0x14 => onI (okI (unitsOf 100 l.ref))
  | 0x15 => optR 100 l.i
  | 0x16 => duty 0
  | 0x17 => duty 1
  | 0x18 => onI (okN (l.z.getD 0 0))
  | 0x19 => onI (okN (l.z.getD 1 0))
  | 0x1A => okN l.sat.toNat
  | 0x1B => okB l.gateReq
  | 0x1C => okB l.gateIn
  | 0x1D => optR 100 l.vs
  | 0x1E => optR 100 l.vc
  | 0x1F => optR 100 l.vb
  | 0x20 => onI (optI (l.resid.map fun r => (f32.sqrt (toF32 r) : Int)))
  | 0x21 => okN l.changes
  | 0x22 => okN l.lacking
  | _ => lostI

/-- Items of a lane; a failed lane is under test in every frame in which its slices run (R561, R562). -/
def laneItem (s : State) (k f : Nat) : Item :=
  let l := s.reg.lanes.getD k {}
  match f with
  | 0x10 => okN (if l.st == 3 && s.parB .bistEnable && vcoreOk (s.pwr.mv.getD 4 0) then 4 else l.st)
  | 0x11 => noneIs 255 l.string
  | 0x12 => okN l.checkFails
  | 0x13 => okN l.shadowDiffs
  | 0x14 => okN l.overruns
  | _ => lostI

/-! Area 0x06, dispatch and surveys (Tables 7-10, 9-8): shares, limits and roles of the build whose tables are in force. -/

def groupDispItem (s : State) (f : Nat) : Item :=
  let d := s.disp
  let al := allowance s
  let alQ (v : Nat) : Item := if (latchedAllow s).isSome then okN v else { val := v, q := .substituted, age := some 0 }
  match f with
  | 0x10 => okN (srcCode s d.onBackup)
  | 0x11 => okN d.valid.toNat
  | 0x12 => { val := wholeUnits d.psrc, q := if d.srcOk then .good else if d.loss == 1 then .held else .invalid, age := some (if d.srcOk then 0 else s.time.frame - d.psrcAt) }
  | 0x13 => okI (wholeUnits d.act.pref)
  | 0x14 => okI (wholeUnits d.act.shortfall)
  | 0x15 => alQ al.1
  | 0x16 => alQ al.2
  | 0x17 => optR 100 d.pulseF
  | 0x18 => noneIs 255 ((List.range 4).find? fun n => (s.dstr n).restAt.isSome)
  | _ => lostI

def dispItem (s : State) (g n f : Nat) : Item :=
  let d := s.dstr n
  let b := s.disp.act.strs.getD n {}
  let lastOf (l : List (Option (Nat × Nat))) : Item := eventI g ((l.getD n none).map fun x => ((x.1 : Int), x.1))
  let countOf (l : List (Option (Nat × Nat))) (c : List Nat) : Item := eventI g ((l.getD n none).map fun x => ((c.getD n 0 : Int), x.1))
  match f with
  | 0x10 => okN d.conn
  | 0x11 => okN b.role
  | 0x12 => okI (wholeUnits b.share)
  | 0x13 => okI (unitsOf 100 b.ref)
  | 0x14 => okI (unitsOf 100 b.chg)
  | 0x15 => okI (unitsOf 100 (-b.dis))
  | 0x16 => if b.role == 1 then optI (b.weight.map fun w => (toF32 w : Int)) else lostI
  | 0x17 => okI (unitsOf 1000 b.health)
  | 0x18 => okN (match d.restAt with | some a => (a + d.restT * 1000000000 - s.time.now) / 1000000000 | none => 0)
  | 0x30 => okN (match s.surv.imp with | some v => if v.string == n then v.st else 0 | none => 0)
  | 0x31 => lastOf s.surv.impLast
  | 0x33 => countOf s.surv.impLast s.surv.impCells
  | 0x34 => okN (match s.surv.cap with | some v => if v.string == n then v.phase else 0 | none => 0)
  | 0x35 => lastOf s.surv.capLast
  | 0x37 => countOf s.surv.capLast s.surv.capCells
  | 0x38 => okN (bitsOf [impDue s n, capDue s n])
  | _ => lostI

/-! Area 0x07, thermal (Table 10-6). -/

/-- A value of the last die sensor round. -/
def dieRound (s : State) (per g : Nat) (v : Option Int) : Item :=
  measured per g (match v, s.therm.dieAt with | some x, some f => some (x, f) | _, _ => none)

def sensorState (disabled broken : Bool) : Nat := if disabled then 2 else if broken then 1 else 0

def dieItem (s : State) (g per d f : Nat) : Item :=
  let x := s.therm.dies.getD d {}
  let off := dieDisabled s d
  match f with
  | 0x10 =>
    let it := dieRound s per g x.temp
    if off then { it with q := .invalid } else if x.broken then { it with q := .substituted, age := some 0 } else it
  | 0x11 => dieRound s per g (x.temp.map fun _ => (x.count : Int))
  | 0x12 => dieRound s per g (some (sensorState off x.broken : Nat))
  | _ => lostI

def dieAllItem (s : State) (g per f : Nat) : Item :=
  let t := s.therm
  match f with
  | 0x20 =>
    let it := dieRound s per g t.dieMax
    if t.dieSub then { it with q := .substituted, age := some 0 } else it
  | 0x21 => dieRound s per g t.dieMin
  | 0x22 => okN (bitsOf [t.warn, t.throttle, t.shut, t.mramInh, t.flashInh])
  | _ => lostI

def thermStrItem (s : State) (n f : Nat) : Item :=
  let t := s.tstr n
  match f with
  | 0x10 => t.tMax
  | 0x11 => t.tMin
  | 0x12 => okI (unitsOf 1000 t.fc)
  | 0x13 => okI (unitsOf 1000 t.fd)
  | 0x14 => okN (t.states.toNat + (if t.noChg then 512 else 0))
  | 0x15 => okN t.cool
  | 0x16 => okB t.heat
  | _ => lostI

def thermInputItem (s : State) (k f : Nat) : Item :=
  let x := s.forg (k / 4)
  match f with
  | 0x10 => x.groups.getD (k % 4) {}
  | 0x11 => okN (sensorState (sensorDisabled s (k / 4) (k % 4)) (x.broken.getD (k % 4) false))
  | _ => lostI

/-! Area 0x08, safety (Tables 11-12, 12-10). -/

/-- Connection states (Table 12-10); one that Start has not ended for yet reads as unused (DESIGN CHOICE, log 24: the table has no code for it). -/
def connCode : ConnSt → Nat
  | .unused | .start => 0 | .unsync => 1 | .running => 2 | .expired => 3

/-- Milliseconds left until an instant. -/
def msLeft (s : State) (e : Nat) : Nat := (e - s.time.now) / 1000000

def fslItem (s : State) (k f : Nat) : Item :=
  let c := fslConn s k
  match f with
  | 0 => okN (connCode c.st)
  | 1 => optI (c.lastSeq.map Int.ofNat)
  | 2 => okN c.errs
  | 3 => okN (if c.st == .running then msLeft s c.deadline else 0)
  | _ => lostI

def coreItem (s : State) (f : Nat) : Item :=
  let conf := confirmed s
  match f with
  | 0x10 => okN (scopeCode (scopeSt s 4))
  | 0x11 => okN (s.core.causes.getD 4 0).toNat
  | 0x12 => okN s.core.scv
  | 0x13 => optI (conf.map fun c => (c.2 : Int))
  | 0x14 => optI (conf.map fun c => (c.1 : Int))
  | 0x15 => okN (if s.guard.inFault then 3 else if s.guard.stuck then 2 else if s.guard.resetHigh then 0 else 1)
  | 0x16 => okN (match s.core.tAcc with | some t => msLeft s (t + 10000000000) | none => 0)
  | 0x17 => okN s.core.faultsHeld.toNat
  | 0xC0 => okN s.core.rejected
  | 0xC1 => okN s.core.duplicates
  | 0xC2 => okN s.core.statusSent
  | f => if 0x40 ≤ f && f < 0xC0 then fslItem s ((f - 0x40) / 16) (f % 16) else lostI

def guardItem (s : State) (f : Nat) : Item :=
  let g := s.guard
  let mean (i : Nat) : Item := if (gchan s i).invalid then lostI else optR 100 (((gchan s i).means.head?).bind (·.2))
  match f with
  | 0x10 => { val := g.heartbeat, q := if 2 ≤ s.core.hbRun then .stale else .good, age := some 0 }
  | 0x11 => okN g.scv
  | 0x12 => okN (bitsOf (g.latch.map (·.on)))
  | 0x13 => okN (bitsOf [g.tripA, g.tripB])
  | 0x14 => okN (bitsOf ((List.range 4).map fun n => decide (16 ≤ (floop s n).back)))
  | 0x15 => mean 8
  | 0x16 => mean 9
  | _ => lostI

def safeStrItem (s : State) (g n f : Nat) : Item :=
  let three (p : Nat → Bool) : Nat := bitsOf [p 0, p 1, p 2]
  match f with
  | 0x10 => okN (scopeCode (scopeSt s n))
  | 0x11 => okN (s.core.causes.getD n 0).toNat
  | 0x12 => okN (bitsOf [s.core.permit.getD n false, guardPermit s n])
  | 0x13 => if (gchan s (2 * n)).invalid then lostI else optR 100 (guardInterval s (2 * n) g)
  | 0x14 => if (gchan s (2 * n + 1)).invalid then lostI else optR 100 (guardInterval s (2 * n + 1) g)
  | 0x15 => okN (three (cfbClosed s n))
  | 0x16 => okN (three fun k => s.guard.weld.getD (3 * n + k) false)
  | 0x17 => okN (((s.core.monitor.drop (576 * n)).take 576).foldl max 0)
  | 0x18 => okN (floop s n).missed
  | _ => lostI

/-! Area 0x09, time (Table 13-8). -/

def timeItem (s : State) (per f : Nat) : Item :=
  let t := s.time
  let peer (p : Nat) : Item := if peerValid t p t.now then optI ((t.peer.getD p none).map fun x => wholeUnits x.1) else lostI
  match f with
  | 0x10 => noneIs 255 t.src
  | 0x11 => okB t.holdover
  | 0x12 => okB t.synced
  | 0x13 => okI (match boundAt s t.now with | some b => min 0xFFFFFFFF (wholeUnits b) | none => 0xFFFFFFFF)
  | 0x14 => optI (t.lastO.map fun o => clampInt (-2147483648) 2147483647 (wholeUnits o))
  | 0x15 => okI (wholeUnits t.rate)
  | 0x16 => okN (t.frame / 100)
  | 0x18 => okN (t.frame % 100)
  | 0x19 => okN (t.sCur / tickNs)
  | 0x1A => okN (bitsOf [t.quietShort, t.syncLost])
  | 0x1B => optI (t.quiet.map Int.ofNat)
  | 0x1C => if t.src == some 0 then optI (t.gm.map Int.ofNat) else lostI
  | 0x1E => okN (t.portState.getD 0 1)
  | 0x1F => okN (t.portState.getD 1 1)
  | 0x20 => peer 0
  | 0x21 => peer 1
  | 0x22 => (match t.utc with
    | some (u, fr) => if t.gm.isSome then okI u else { val := u, q := agedQ per (t.frame - fr), age := some (t.frame - fr) }
    | none => lostI)
  | 0x23 => okN t.capDropped
  | 0x24 => okN t.txDropped
  | 0x25 => okN t.lateCompares
  | _ => lostI

/-! Area 0x0A, cyclic program (Table 16-10). -/

def progStCode : ProgSt → Nat
  | .stop => 0 | .run => 1 | .hold => 2 | .overrun => 3 | .none => 4

def progItem (s : State) (f : Nat) : Item :=
  let p := s.prog
  match f with
  | 0x10 => okN (progStCode p.st)
  | 0x11 => optI (p.active.map fun x => (x.version : Int))
  | 0x12 => okN (match p.staged with | some x => x.version | none => 0)
  | 0x13 => okN p.cycles
  | 0x14 => okN p.lastT
  | 0x15 => okN p.maxT
  | 0x16 => okN p.overruns
  | 0x17 => okN p.forces.length
  | 0x18 => okN ((p.latched.getD 0) % 2 ^ 32)
  | 0x19 => okN (bitsOf ((List.range 16).map fun k => (station s k).present))
  | 0x1A => okN p.faults
  | _ => lostI

/-- Value of a variable in the type of its map entry, which is its own (Table 16-4, R470). -/
def varValue (typ : Nat) (b : BitVec 32) : Int := loadVal typ b

/-- Variable i: forced, at its safe value, a station input of the frame, or as the cycles have left it (R438, R470). -/
def varItem (s : State) (g per typ i : Nat) : Item :=
  let d := varDef s i
  let v := varValue typ (varBits s i)
  if s.prog.active.isNone || d.typ == 0 then lostI
  else if (d.kind == 3 || d.kind == 5) && s.prog.safe then { val := varValue typ d.safe, q := .substituted, age := some 0 }
  else if (s.prog.forces.lookup i).isSome then { val := v, q := .substituted, age := some 0 }
  else if d.kind == 2 then
    match stationVar s 2 i with
    | some (k, w) => (match (station s k).image with
      | some (ws, fr) => measured per g (some (varValue typ (BitVec.ofNat 32 (ws.getD w 0)), fr))
      | none => lostI)
    | none => lostI
  else if s.prog.st == .run then okI v
  else match s.prog.latched with
    | some fr => measured 0 g (some (v, min g (fr + 1)))
    | none => { val := v, q := .stale, age := none }

/-! Area 0x0B, link (Tables 4-18, 20-8). -/

def linkItem (s : State) (n f : Nat) : Item :=
  let l := s.link n
  if !linkOn s n then lostI
  else match f with
    | 0x10 => okN (enrolledBricks s n).length
    | 0x11 => okN l.heardCounts.1
    | 0x12 => okN l.heardCounts.2.1
    | 0x13 => okN l.heardCounts.2.2
    | 0x14 => okN l.late
    | 0x15 => okN l.discarded.sum
    | 0x16 => okN l.mic
    | 0x17 => okN l.joinRefused
    | 0x18 => okN l.port
    | _ => lostI

def foragerItem (s : State) (g j f : Nat) : Item :=
  let x := s.forg j
  let up := uplinkItem s g j
  if !linkOn s (j / 36) then lostI
  else match f with
    | 0x10 => okN x.linkSt
    | 0x11 => okN x.misses
    | 0x12 => okB x.relayFailed
    | 0x13 => up (·.rssi)
    | 0x14 => measured 0 g x.level
    | 0x15 => up (·.clkCorr)
    | 0x16 => optI (x.uid.map Int.ofNat)
    | 0x18 => (match x.fw with | some (v, fr) => { val := v, q := .good, age := fr.map (g - ·) } | none => lostI)
    | 0x19 => diagItem s g j fun d => (d.fwInactive : Int)
    | 0x1A => okN x.staging
    | _ => lostI

/-! Area 0x0C, power and memory (Tables 18-8, 22-7). -/

def powerItem (s : State) (g per f : Nat) : Item :=
  let p := s.pwr
  let m := s.mem
  let sup (v : Nat) : Item := measured per g (p.sampledAt.map fun a => ((v : Int), a))
  match f with
  | 0x10 => sup p.input
  | 0x16 => sup p.out.toNat
  | 0x17 => okN (s.parN .pwrLimit)
  | 0x20 => okN p.pfw
  | 0x21 => okN p.cut
  | 0x22 => okN p.missed
  | 0x23 => okN p.lost.toNat
  | 0x30 => okB (spareBank s).isSome
  | 0x31 => okN m.passes
  | 0x32 => okN m.mramFailed
  | 0x33 => okN m.traps
  | 0x34 => okN m.halts
  | 0x35 => okN m.recomputed
  | f =>
    if 0x11 ≤ f && f ≤ 0x15 then sup (p.mv.getD (f - 0x11) 0)
    else if 0x18 ≤ f && f < 0x1C then okN (p.grant.getD (f - 0x18) 0)
    else if 0x1C ≤ f && f < 0x20 then okN (p.req.getD (f - 0x1C) 0)
    else lostI

def domainItem (s : State) (g per d f : Nat) : Item :=
  match f with
  | 0x10 => okB (s.pwr.domains.getLsbD d)
  | 0x11 => measured per g (s.pwr.sampledAt.map fun a => ((s.pwr.domPower.getD d 0 : Int), a))
  | _ => lostI

/-- A bank under a slice of the built-in test reads as under test. -/
def bankUnderTest (s : State) (b : Nat) : Bool :=
  match s.bist.running with | some pos => decide (pos < 12) && sliceTarget s pos == b | none => false

def bankItem (s : State) (b f : Nat) : Item :=
  let x := bank s b
  match f with
  | 0x10 => okN (if bankUnderTest s b then 4 else x.st)
  | 0x11 => noneIs 255 x.logical
  | 0x12 => okN x.failed
  | 0x13 => okN x.round
  | _ => lostI

/-! Every item by its key (R56, Table 3-4). -/

def keyArea (k : Nat) : Nat := k / 0x1000000
def keyInst (k : Nat) : Nat := k / 0x1000 % 0x1000
def keyField (k : Nat) : Nat := k % 0x1000

/-- The item of a map entry (key, type, refresh period) as the state stands, for the image of frame g. -/
def itemAt (s : State) (g : Nat) (e : Nat × Nat × Nat) : Item :=
  let i := keyInst e.1
  let f := keyField e.1
  let per := e.2.2
  match keyArea e.1 with
  | 1 => if i == 0 then moduleItem s g per f else lostI
  | 2 => if i < 4 then stringItem s g i f else lostI
  | 3 => if i < 144 then brickItem s g i f else lostI
  | 4 => if i < 2304 then cellItem s g i f else lostI
  | 5 => if i < 4 then loopItem s i f else if 8 ≤ i && i < 13 then laneItem s (i - 8) f else lostI
  | 6 => if i < 4 then dispItem s g i f else if i == 15 then groupDispItem s f else lostI
  | 7 =>
    if i == 0 && 0x20 ≤ f then dieAllItem s g per f
    else if i < 6 then dieItem s g per i f
    else if 16 ≤ i && i < 20 then thermStrItem s (i - 16) f
    else if 256 ≤ i && i < 832 then thermInputItem s (i - 256) f else lostI
  | 8 => if i == 0 then coreItem s f else if i == 1 then guardItem s f else if 16 ≤ i && i < 20 then safeStrItem s g (i - 16) f else lostI
  | 9 => if i == 0 then timeItem s per f else lostI
  | 10 => if i == 2 then progItem s f else if i < 2 then varItem s g per e.2.1 (4096 * i + f) else lostI
  | 11 => if i < 4 then linkItem s i f else if 16 ≤ i && i < 160 then foragerItem s g (i - 16) f else lostI
  | 12 =>
    if i == 0 then powerItem s g per f
    else if 16 ≤ i && i < 28 then domainItem s g per (i - 16) f
    else if 32 ≤ i && i < 41 then bankItem s (i - 32) f else lostI
  | _ => lostI

/-- An item of a state, whose value at the sample instant is published (R62); the others are results of the frame itself. -/
def stateItem (s : State) (k : Nat) : Bool :=
  let i := keyInst k
  let f := keyField k
  match keyArea k with
  | 1 => f == 0x12 || f == 0x13 || decide (0x20 ≤ f)
  | 2 => decide (0x30 ≤ f)
  | 3 => decide (0x22 ≤ f)
  | 4 => false
  | 5 => decide (8 ≤ i)
  | 6 => true
  | 7 => i == 0 && f == 0x22
  | 8 => !(decide (16 ≤ i) && (f == 0x13 || f == 0x14))
  | 9 => true
  | 10 => i == 2 || (varDef s (4096 * i + f)).kind != 2
  | 11 => if i < 4 then f < 0x11 || 0x13 < f else decide (0x16 ≤ f)
  | 12 => !(i == 0 && decide (0x10 ≤ f ∧ f ≤ 0x16)) && !(decide (16 ≤ i ∧ i < 28) && f == 0x11)
  | _ => false

/-- Keys of count instances from a first key on, with the fields lo to hi of each. -/
def keysOf (first count lo hi : Nat) : List Nat :=
  (List.range count).flatMap fun i => (List.range (hi + 1 - lo)).map fun f => first + 0x1000 * i + lo + f

/-- Keys of every state item, whether or not a map lists it (R56, Table 3-4). -/
def stateKeys (s : State) : List Nat :=
  (keysOf 0x01000000 1 0x10 0xAF ++ keysOf 0x02000000 4 0x30 0x34 ++ keysOf 0x03000000 144 0x22 0x24 ++ keysOf 0x05008000 5 0x10 0x14 ++
    keysOf 0x06000000 4 0x10 0x38 ++ keysOf 0x0600F000 1 0x10 0x18 ++ keysOf 0x07000000 1 0x22 0x22 ++ keysOf 0x08000000 2 0x10 0xC2 ++
    keysOf 0x08010000 4 0x10 0x18 ++ keysOf 0x09000000 1 0x10 0x25 ++ keysOf 0x0A002000 1 0x10 0x1A ++ keysOf 0x0B000000 4 0x10 0x18 ++
    keysOf 0x0B010000 144 0x16 0x1A ++ keysOf 0x0C000000 1 0x10 0x35 ++ keysOf 0x0C010000 12 0x10 0x11 ++ keysOf 0x0C020000 9 0x10 0x13 ++
    ((List.range 8192).filter fun i => (varDef s i).typ != 0).map (0x0A000000 + ·)).filter (stateItem s)

/-- Map entry of a key: the one in force, else one of the refresh period of a frame, with the type of a variable. -/
def entryOfKey (s : State) (k : Nat) : Nat × Nat × Nat :=
  (s.comb.map.find? (·.1 == k)).getD (k, if keyArea k == 10 then (varDef s (k % 0x2000)).typ else 0, 0)

/-- Every state item as it stands at a sample instant: a map that swaps after it may list any of them. -/
def snapshot (s : State) : List (Nat × Item) := (stateKeys s).map fun k => (k, itemAt s s.time.frame (entryOfKey s k))

/-! The image of a frame (R48, R51, R52, R62). -/

/-- Age of an item in the image before: none when it never was valid (Table 3-6). -/
def ageBefore (s : State) (k : Nat) : Option Nat :=
  match ((s.comb.published.map imageItems).getD []).find? (·.1 == k) with | some x => x.2.2.2.age | none => none

/-- Range of a type code (R53); other codes bound nothing. -/
def fitsType (typ : Nat) (v : Int) : Bool :=
  let span (lo hi : Int) : Bool := decide (lo ≤ v) && decide (v ≤ hi)
  match typ with
  | 1 => span 0 0xFF | 2 => span 0 0xFFFF | 3 => span 0 0xFFFFFFFF | 4 => span 0 0xFFFFFFFFFFFFFFFF | 5 => span (-0x80) 0x7F | 6 => span (-0x8000) 0x7FFF
  | 7 => span (-0x80000000) 0x7FFFFFFF | 8 => span (-0x8000000000000000) 0x7FFFFFFFFFFFFFFF | 9 => span 0 0xFFFFFFFF | 10 => span 0 1
  | _ => true

/-- Bits of a type code (R53). -/
def typeBits (typ : Nat) : Nat := match typ with | 1 => 8 | 2 => 16 | 3 => 32 | 4 => 64 | 5 => 8 | 6 => 16 | 7 => 32 | 8 => 64 | 9 => 32 | 10 => 1 | _ => 64

/-- An item whose value its type cannot hold carries a value that the spec does not state (log 3). -/
def fitItem (typ : Nat) (it : Item) : Item :=
  if fitsType typ it.val then it
  else
    let w := (Config.openRat 33 (it.val : Rat)).floor % (2 ^ typeBits typ : Nat)
    { it with val := if fitsType typ w then w else w - (2 ^ typeBits typ : Nat) }

/-- Items that the Estimator forms from the cells of a string in its update: SOC reductions, Unanchored, request, endpoints, extremes and results (Table 6-10). -/
def reducedField (f : Nat) : Bool := (decide (0x17 ≤ f) && decide (f ≤ 0x1C)) || (decide (0x1F ≤ f) && decide (f ≤ 0x2A))

/-- An item of a cell, or of a string's cells, whose update of the frame was missed: it is published as Table 2-6 gives (R157). -/
def updateMissed (s : State) (key : Nat) : Bool :=
  (keyArea key == 4 && (s.cell (keyInst key)).missed != 0) || (keyArea key == 2 && (s.estr (keyInst key)).missed && reducedField (keyField key))

/-- An item that goes into the image of frame g: from the image before when its area is late or its cell or string was not updated (Table 2-6), a state item as it stood at the sample instant, else as computed; one that is Invalid keeps the last age. -/
def imageItem (s : State) (g : Nat) (e : Nat × Nat × Nat) : Item :=
  let it :=
    if s.comb.late.getLsbD (keyArea e.1) || updateMissed s e.1 then
      match (s.comb.published.map imageItems).getD [] |>.find? (·.1 == e.1) with
      | some x => missedItem e.2.2 1 x.2.2.2
      | none => lostI
    else if stateItem s e.1 then (match s.comb.snapPrev.lookup e.1 with | some it => it | none => itemAt s g e)
    else itemAt s g e
  let it := fitItem e.2.1 it
  if it.q == .invalid then { it with age := ageBefore s e.1 } else it

/-- The image of frame g (Table 3-2). -/
def buildFrame (s : State) (g t : Nat) : Image :=
  let late := s.comb.late &&& 0x1FFE
  { frame := g, sampleTime := sampleAt s g, publishTime := t, mapVersion := s.comb.mapVersion
    flags := BitVec.ofNat 8 (bitsOf [s.comb.newMap, s.comb.holdoverAt.2, late != 0])
    closed := ~~~late &&& 0x1FFE, place := (s.parN .bootPosition, s.parN .bootBlock)
    keys := s.comb.map.map fun e => (e.1, e.2.1), items := s.comb.map.map (imageItem s g) }

/-- The writers fill the writer buffer, in which a failed line is rewritten (R48, R64). -/
def fillWriter (img : Image) (s : State) : State :=
  s.modComb fun c => { c with writer := some img, failedLines := c.failedLines.filter (·.1 != 2) }

/-- The three buffers rotate in one step (R48): the writer buffer becomes published, the published one previous, the previous one the writer; failed lines move with their buffer. Event 0x8020 clears when the frame now published has no failed line (Table 3-8). -/
def rotateBuffers (s : State) : State :=
  let s1 := s.modComb fun c => { c with
    published := c.writer, previous := c.published, writer := c.previous, newMap := false
    failedLines := c.failedLines.map fun x => ((x.1 + 1) % 3, x.2) }
  if s1.comb.failedLines.all (·.1 != 0) then s1.clearAll 0x8020 else s1

/-- Comb frame g is filled and published. -/
def rotate (img : Image) (s : State) : State := rotateBuffers (fillWriter img s)

/-! The published frame as the module's own blocks read it (R13, R18, R48). -/

/-- A cell of an area that was not closed: its items as before, with one more missed refresh. -/
def missedCell (c : Cell) : Cell :=
  { c with v := missedItem 0 1 c.v, missed := c.missed + 1, vc := c.vc.map fun x => (x.1, missedOnce 0 ((c.v.age).map (· + 1)) x.2) }

/-- A string's area that was not closed. -/
def missedStr (e : EstStr) : EstStr :=
  { e with iItem := missedItem 0 1 e.iItem, aItem := missedItem 0 1 e.aItem, bItem := missedItem 0 1 e.bItem, countOk := false, dq := 0 }

/-- The thermal area that was not closed. -/
def missedTherm (t : ThermState) : ThermState :=
  { t with strs := t.strs.map fun x => { x with tMax := missedItem 0 1 x.tMax, tMin := missedItem 0 1 x.tMin } }

/-- A forager's fused temperatures in a thermal area that was not closed. -/
def missedGroups (f : Forager) : List Item := f.groups.map (missedItem 0 1)

/-- What the areas hold as their writers close them for the frame now published; late has bit a for each area a that was not closed. -/
def closeAreas (late : BitVec 16) (s : State) : State :=
  let o := s.comb.seen
  let miss (a : Nat) : Bool := late.getLsbD a
  let grp (j : Nat) (f : Forager) : Forager := if miss 7 then { f with groups := missedGroups (o.forgs.getD j {}) } else f
  s.modComb fun c => { c with seen :=
    { cells := if miss 4 then o.cells.map missedCell else s.cells
      est := if miss 2 then o.est.map missedStr else s.est
      forgs := (if miss 3 then o.forgs else s.forgs).mapIdx grp
      therm := if miss 7 then missedTherm o.therm else s.therm
      loops := if miss 5 then o.loops else s.reg.loops.map (·.pub) } }

end Sys2Proof.Machine
end

