-- ==== Sys2Proof/Machine/Boundary.lean ====
section
/-!
DEFINITION. Boundary: the frame boundary, the cell sample instant, the publication of a Comb frame and the uplink deadline (R31 to R45, R48, R102).
-/
namespace Sys2Proof.Machine

/-! The frame boundary (R31, R40, R42). -/

/-- Frame number, sample offsets (R36) and the edges of PULSE_IN (R378) of the new frame; the applied rate moves (R367). With shadows that missed the boundary the link table stays and announces its offset once more. -/
def openFrame (late : Bool) (s : State) : State :=
  rateStep ((fireOutputs (fireUnit 1 s)).modTime fun x => { x with
    frame := x.frame + 1, hadWork := [], sCur := x.sNext, sNext := if late then x.sNext else x.sShadow
    quiet := x.quietNext.1, quietShort := x.quietNext.2, quietNext := if late then x.quietNext else x.quietShadow, syncAge := x.syncAge + 1
    pulseHist := (x.pulse :: x.pulseHist).take 100, pulse := {} })

/-- A shadow with a swap request that missed its boundary is not written (R23): what it holds waits for its swap, and later changes for the boundary after it. -/
def holdChanges (b : BootState) : BootState :=
  { b with framePend := if b.framePend.isEmpty then b.frameW else b.framePend, frameW := if b.framePend.isEmpty then [] else b.frameW
           applyPend := if b.applyPend.isSome then b.applyPend else b.toApply, toApply := if b.applyPend.isSome then b.toApply else none }

/-- What the control path handed over in shadows takes force (R21, R22, R24, R41, R529), or waits for the next boundary when it came late (R45, Table 2-6). -/
def swapFrame (late : Bool) (s : State) : State :=
  if late then
    ((s.modReg (fun r => { r with swapLate := r.shadow.isSome })).modBoot holdChanges).overrun 4 0 |>.modLinks fun ls => ls.map fun l => { l with answer := none }
  else
    let s1 := forEach ((List.range 4).filter (linkRuns s)) joinDecision (freeEntries (applyCommit (frameWrites s)))
    if s1.running then swapTables s1 else s1

/-- The relay map of the first frame of a string: every enrolled brick counts as heard and no relay as failed (R102, R103). -/
def firstMap (n : Nat) (s : State) : State :=
  if (s.link n).first then
    (s.updLink n fun l => { l with relay := relayMap s n fun _ => true }).stand 0x2004 n (decide (6 < (relayCands s n fun _ => true).length))
  else s

/-- RELAY_SET to every relay in the first beacons after Start, and to each relay once per round (R91). -/
def relayRepeat (n : Nat) (s : State) : State :=
  if (s.link n).first then forEach (List.range 36) (sendRelaySet n) s
  else if s.roundPos < 36 then sendRelaySet n s.roundPos s else s

/-- Strings whose radio port is configured run their beacons from this boundary on (R517). -/
def beginLinks (s : State) : State := s.modLinks fun ls => ls.map fun l => if l.radio.isSome then { l with begun := true } else l

/-- Link engine at a frame boundary (R110, R294, R517). -/
def linkFrame (s : State) : State :=
  let s := beginLinks (resumePorts s)
  forEach ((List.range 4).filter (linkRuns s)) (fun n s => relayRepeat n (firstMap n s)) (newLinkFrame s)

/-- What begins with a round: operating seconds (R472), events and counts of the round that ended, slices of the lanes (R561). -/
def roundFrame (laneFails : List (Nat × Nat)) (s : State) : State :=
  if s.roundPos == 0 then
    let s1 := (memRound (endRound s)).modRecorder fun r => { r with ops := r.ops + 1 }
    let s2 := s1.modCore fun c => { c with conns := c.conns.map fun k => { k with errsRound := 0 } }
    let s3 := (s2.modHost fun h => { h with authRound := 0 }).modLinks fun ls => ls.map fun l => { l with micRound := 0 }
    if s3.running then laneSlices laneFails s3 else s3
  else s

/-- Learned values of every string in the frames of est.store.period (R222), and writes that an inhibit held back (R223). -/
def learnedFrame (s : State) : State :=
  let s1 := writeDeferred s
  if s1.time.frame % (6000 * s1.parN .estStorePeriod) == 0 then writeAll 0 s1 else s1

/-- Round work of the frame before, r = 0, that was not done by its end time (R42, R45): the die sensors, the supply monitors. -/
def missedRound (s : State) : State :=
  let f := s.time.frame - 1
  if f < s.time.firstFrame then s
  else
    let s1 := if s.therm.dieAt == some f then s else s.overrun 0xA 0
    if s1.pwr.sampledAt == some f then s1 else s1.overrun 0xA 1

/-- Frame work of a module that has completed Start. -/
def runFrame (late : Bool) (s : State) : State :=
  let s1 := regulatorFrame late (surveyFrame (applySelect s))
  let s2 := rpdoFrame (progFrame (connectFrame (reconnectFrame s1)))
  activationFrame (modeFrame (stagingFrame (learnedFrame s2)))

/-- FRAME_BOUNDARY (R31, R32, R40): the boundary of the frame after the running one. req holds the requests of classes P0 to P3, lines the failed lines the scrubbers find in the frame, laneFails the lane slices of a round that ended which failed; late says that the control path missed 10.0 ms. -/
def execFrameBoundary (t : Nat) (req : List Nat) (lines : List LineFault) (laneFails : List (Nat × Nat)) (late : Bool) (s : State) :
    Host.Outcome State Fault Refusal :=
  if !s.up || !s.time.framesOn || t / frameNs != s.time.frame + 1 then .next s
  else
    let s0 := swapFrame late (judgeSync t (openFrame late (judgeHoldover t ((serveHeld s).at_ t))))
    let s1 := roundFrame laneFails (linkFrame (forEach movedUnits armUnit s0))
    let s2 := shiftLatches (s1.modCore fun c => { c with evalDone := false })
    let s3 := pairFrame (bankFrame (scrubFrame lines s2))
    let s4 := canFrame <| redundancyFrame (bulkFrame (arbiterFrame req (if s3.roundPos == 1 then thermalRound (missedRound s3) else s3)))
    .next (if s4.running then runFrame late s4 else modeFrame (rpdoFrame s4))

/-! The cell sample instant (R36, R39, R62). -/

/-- Values that stand at the instant: state items and holdover (R51, R62), GPIO levels latched by the program (R442), and the time of the instant. -/
def holdInstant (gpio : BitVec 16) (s : State) : State :=
  let h := s.time.holdover
  (s.modProg fun p => { p with gpioIn := gpio, gpioPrev := p.gpioIn }).modComb fun c => { c with
    snapPrev := c.snap, snap := snapshot s, holdoverAt := (h, c.holdoverAt.1), sampleTimes := ((s.time.frame, s.time.now) :: c.sampleTimes).take 4 }

/-- Interval from the last sample instant to this one, ns (R158). -/
def sampleInterval (s : State) : Nat :=
  match s.comb.sampleTimes.head? with
  | some (f, a) => if f + 1 == s.time.frame then s.time.now - a else frameNs
  | none => frameNs

/-- The extra decimated values of every sigma-delta channel are taken (R39). -/
def extraValues (ch : List Density) (s : State) : State :=
  s.modReg fun r => { r with extra := (List.range 20).map fun c => match ch[c]? with | some d => (channelVal s c d).bind f32.rat? | none => none }

/-- SAMPLE_INSTANT (R36, R39): compare unit 2, at the offset s of the frame. net and k are the bits counted of the two current channels of each string and the modulator clocks since the last tick, ch the extra decimated values of every channel, gpio the GPIO levels. -/
def execSampleInstant (t : Nat) (net : List Int) (k : Nat) (ch : List Density) (gpio : BitVec 16) (s : State) : Host.Outcome State Fault Refusal :=
  if s.up && s.time.framesOn && s.workDue 0 && t == s.frameStart + s.time.sCur then
    let s1 := (fireUnit 2 (s.at_ t)).workDone 0
    let i := sampleInterval s1
    .next (holdInstant gpio (forEach (List.range 4) (fun n s => sampleString n net k ch i s) (extraValues ch s1)))
  else .next s

/-! Publication (R40, R45, R48). -/

/-- An item as the frame just published carries it, or as it would when the item map does not list it. -/
def pubItem (s : State) (img : Image) (key : Nat) : Item :=
  match (imageItems img).find? (·.1 == key) with
  | some x => x.2.2.2
  | none => imageItem s img.frame (key, 0, 1)

/-- STATUS of the block bus from the frame just published (R427). -/
def statusFrame (img : Image) (s : State) : State :=
  if s.time.frame % s.parN .canBbStatusPeriod == 0 then
    let it (k : Nat) : Item := pubItem s img k
    let sum (f : Nat) : Nat := (((List.range 4).map fun n => it (0x02000000 + n * 0x1000 + f)).filter (·.q == .good)).foldl (fun a x => a + x.val.toNat) 0
    let good (n : Nat) : Bool := (it (0x02000027 + n * 0x1000)).q == .good && (it (0x02000029 + n * 0x1000)).q == .good
    sendStatus (it 0x01000020).val.toNat (it 0x0600F013).val (sum 0x27) (sum 0x29) (it 0x08000010).val.toNat
      (bitsOf ((List.range 4).map fun n => (it (0x06000010 + n * 0x1000)).val == 5)) (bitsOf ((List.range 4).map fun n => !good n)) s
  else s

/-- Voltages of the frame just published that surveys use (R198). -/
def keepVolts (s : State) : State :=
  s.modReg fun r => { r with loops := r.loops.map fun l => { l with vsPub := l.pub.vs } }

/-- Event class of the subsystem that writes an area (Table 3-4 and the event tables): Hive and configuration, Estimator, link, Regulator, safety, network and time, program, power. -/
def areaClass (a : Nat) : Nat := [9, 9, 3, 2, 3, 4, 4, 0xA, 5, 6, 7, 2, 0xA].getD a 9

/-- COMB_PUBLICATION (R48): compare unit 13, 5.0 ms into frame K, publishes Comb frame K-1. late holds bit a for each area a that its writer has not closed (Table 2-6). Frames of Start are published from the first frame on; dispatch, the program and the other work of the control path begin with the end of Start. -/
def execCombPublication (t : Nat) (late : BitVec 16) (s : State) : Host.Outcome State Fault Refusal :=
  let s := fireUnit 13 (s.at_ t)
  let g := s.time.frame - 1
  if !s.up || !s.time.framesOn || g < s.time.firstFrame || t != s.frameStart + 5000000 || (s.comb.published.map (·.frame)) == some g then .next s
  else
    let s1 := forEach ((List.range 16).filter (late &&& 0x1FFE).getLsbD) (fun a s => s.overrun (areaClass a) a) (s.modComb fun c => { c with late := late })
    let s2 := thermalUpdate g (closeStations g s1)
    let img := buildFrame s2 g t
    let s2 := closeAreas late s2
    let s3 := placeSample (keepVolts (statusFrame img (rotate img s2)))
    if s.running then .next (recordFrame g (progPublication (dispatchBuild (balanceDecision g (surveyWatch g (surveyDone g s3)))))) else .next s3

/-! The uplink deadline (R44, R102). -/

/-- UPLINK_DEADLINE: compare unit 15, 8.8 ms into the frame. -/
def execUplinkDeadline (t : Nat) (s : State) : Host.Outcome State Fault Refusal :=
  let s := fireUnit 15 (s.at_ t)
  if s.up && s.workDue 1 && t == s.frameStart + 8800000 then .next ((closeLinks (s.workDone 1)).modLinks fun ls => ls.map fun l => { l with first := l.first && !l.begun }) else .next s

end Sys2Proof.Machine
end

