-- ==== Sys2Proof/Machine/Dispatch.lean ====
section
/-!
DEFINITION. Dispatch: one arm per command, each one direct call of its meaning.
-/
namespace Sys2Proof.Machine

def exec (i : Instr) (s : State) : Host.Outcome State Fault Refusal :=
  match i with
  | .porNRelease t resetHigh pfwHigh => Sys2Proof.Machine.execPorNRelease t resetHigh pfwHigh s
  | .startStep t pfwHigh env => Sys2Proof.Machine.execStartStep t pfwHigh env s
  | .startTimeAcquisition sample => Sys2Proof.Machine.execStartTimeAcquisition sample s
  | .startDiscoveryEnd t => Sys2Proof.Machine.execStartDiscoveryEnd t s
  | .tickBoundary t ana => Sys2Proof.Machine.execTickBoundary t ana s
  | .frameBoundary t req lines laneFails late => Sys2Proof.Machine.execFrameBoundary t req lines laneFails late s
  | .sampleInstant t net k ch gpio => Sys2Proof.Machine.execSampleInstant t net k ch gpio s
  | .laneSample t n ch chk => Sys2Proof.Machine.execLaneSample t n ch chk s
  | .measurementLostStop t n => Sys2Proof.Machine.execMeasurementLostStop t n s
  | .outputSaturated t n => Sys2Proof.Machine.execOutputSaturated t n s
  | .pwmTurningPoint t n => Sys2Proof.Machine.execPwmTurningPoint t n s
  | .laneTakeover t => Sys2Proof.Machine.execLaneTakeover t s
  | .uwbSync t n => Sys2Proof.Machine.execUwbSync t n s
  | .beaconNotConfirmed t n => Sys2Proof.Machine.execBeaconNotConfirmed t n s
  | .radioPortReset t n => Sys2Proof.Machine.execRadioPortReset t n s
  | .radioPortReady t n => Sys2Proof.Machine.execRadioPortReady t n s
  | .uplink m psdu => Sys2Proof.Machine.execUplink m psdu s
  | .joinRequest string slot ts level psdu => Sys2Proof.Machine.execJoinRequest string slot ts level psdu s
  | .bulkUp m psdu => Sys2Proof.Machine.execBulkUp m psdu s
  | .uplinkDeadline t => Sys2Proof.Machine.execUplinkDeadline t s
  | .bulkTransferTimeout t n b => Sys2Proof.Machine.execBulkTransferTimeout t n b s
  | .keyActivation t n => Sys2Proof.Machine.execKeyActivation t n s
  | .estimatorUpdate t late recomputed lost => Sys2Proof.Machine.execEstimatorUpdate t late recomputed lost s
  | .estimatorOverrun t => Sys2Proof.Machine.execEstimatorOverrun t s
  | .combPublication t late => Sys2Proof.Machine.execCombPublication t late s
  | .openWireResultTimeout t n b => Sys2Proof.Machine.execOpenWireResultTimeout t n b s
  | .openWireRetry t n b => Sys2Proof.Machine.execOpenWireRetry t n b s
  | .burstResultTimeout t n b => Sys2Proof.Machine.execBurstResultTimeout t n b s
  | .programDeadline t us done => Sys2Proof.Machine.execProgramDeadline t us done s
  | .safetyEvaluation t selfOk => Sys2Proof.Machine.execSafetyEvaluation t selfOk s
  | .safetyEvaluationMissed t => Sys2Proof.Machine.execSafetyEvaluationMissed t s
  | .fslUnitReceived t u => Sys2Proof.Machine.execFslUnitReceived t u s
  | .fslWatchdogExpiry t k => Sys2Proof.Machine.execFslWatchdogExpiry t k s
  | .aliveToggle t => Sys2Proof.Machine.execAliveToggle t s
  | .permitLapse t => Sys2Proof.Machine.execPermitLapse t s
  | .permitWithdrawn t n => Sys2Proof.Machine.execPermitWithdrawn t n s
  | .contactorRelease t n => Sys2Proof.Machine.execContactorRelease t n s
  | .guardValue t ch => Sys2Proof.Machine.execGuardValue t ch s
  | .guardMean t ch => Sys2Proof.Machine.execGuardMean t ch s
  | .floopEdgeDrive t => Sys2Proof.Machine.execFloopEdgeDrive t s
  | .floopInEdge t n high => Sys2Proof.Machine.execFloopInEdge t n high s
  | .tripInputChange t a b => Sys2Proof.Machine.execTripInputChange t a b s
  | .tripDiscrepancy t => Sys2Proof.Machine.execTripDiscrepancy t s
  | .cfbChange t n k closed => Sys2Proof.Machine.execCfbChange t n k closed s
  | .contactorFeedbackFault t n k => Sys2Proof.Machine.execContactorFeedbackFault t n k s
  | .contactorWeld t n k => Sys2Proof.Machine.execContactorWeld t n k s
  | .guardScvRecompute t intact => Sys2Proof.Machine.execGuardScvRecompute t intact s
  | .resetNFall t tf => Sys2Proof.Machine.execResetNFall t tf s
  | .resetNRise t tr => Sys2Proof.Machine.execResetNRise t tr s
  | .stuckReset t => Sys2Proof.Machine.execStuckReset t s
  | .stuckResetClear t => Sys2Proof.Machine.execStuckResetClear t s
  | .resetWindowClose t => Sys2Proof.Machine.execResetWindowClose t s
  | .connectionTimeout t n => Sys2Proof.Machine.execConnectionTimeout t n s
  | .disconnectionTmax t n => Sys2Proof.Machine.execDisconnectionTmax t n s
  | .lossHoldExpiry t => Sys2Proof.Machine.execLossHoldExpiry t s
  | .sourceRevert t => Sys2Proof.Machine.execSourceRevert t s
  | .allowanceTimeout t => Sys2Proof.Machine.execAllowanceTimeout t s
  | .restWindowExpiry t n => Sys2Proof.Machine.execRestWindowExpiry t n s
  | .burstArm t => Sys2Proof.Machine.execBurstArm t s
  | .burstCurrentSample t a b => Sys2Proof.Machine.execBurstCurrentSample t a b s
  | .surveyBins t => Sys2Proof.Machine.execSurveyBins t s
  | .impedanceResult t => Sys2Proof.Machine.execImpedanceResult t s
  | .impedanceSurveyAbort t => Sys2Proof.Machine.execImpedanceSurveyAbort t s
  | .capacitySurveyAbort t => Sys2Proof.Machine.execCapacitySurveyAbort t s
  | .roundDieSensors t counts => Sys2Proof.Machine.execRoundDieSensors t counts s
  | .roundSupplySample t mv input dom => Sys2Proof.Machine.execRoundSupplySample t mv input dom s
  | .bistSlice t mv clockOk result => Sys2Proof.Machine.execBistSlice t mv clockOk result s
  | .bistSliceAbort v => Sys2Proof.Machine.execBistSliceAbort v s
  | .recorderCommit t => Sys2Proof.Machine.execRecorderCommit t s
  | .recorderCommitMissed t => Sys2Proof.Machine.execRecorderCommitMissed t s
  | .eventRecord t code arg => Sys2Proof.Machine.execEventRecord t code arg s
  | .fetchTrap t addr good => Sys2Proof.Machine.execFetchTrap t addr good s
  | .dmaHalt t channel f u => Sys2Proof.Machine.execDmaHalt t channel f u s
  | .bankCopyComplete t => Sys2Proof.Machine.execBankCopyComplete t s
  | .corePairFail t p => Sys2Proof.Machine.execCorePairFail t p s
  | .pfwNFall t step6 => Sys2Proof.Machine.execPfwNFall t step6 s
  | .powerFailSequenceEnd t high vmain => Sys2Proof.Machine.execPowerFailSequenceEnd t high vmain s
  | .vmainLoss t => Sys2Proof.Machine.execVmainLoss t s
  | .vguardLoss t => Sys2Proof.Machine.execVguardLoss t s
  | .ptpSync ts port gm origin corr => Sys2Proof.Machine.execPtpSync ts port gm origin corr s
  | .ptpAnnounce ts port gm rank domain ptpScale utc => Sys2Proof.Machine.execPtpAnnounce ts port gm rank domain ptpScale utc s
  | .ptpPdelay t4 port seq t2 t3 => Sys2Proof.Machine.execPtpPdelay t4 port seq t2 t3 s
  | .ptpSyncSend t leaveA leaveB => Sys2Proof.Machine.execPtpSyncSend t leaveA leaveB s
  | .announceTimeout t => Sys2Proof.Machine.execAnnounceTimeout t s
  | .syncBoundExceeded t => Sys2Proof.Machine.execSyncBoundExceeded t s
  | .ppsInEdge e => Sys2Proof.Machine.execPpsInEdge e s
  | .syncInEdge e => Sys2Proof.Machine.execSyncInEdge e s
  | .syncLost t => Sys2Proof.Machine.execSyncLost t s
  | .pulseInEdge e => Sys2Proof.Machine.execPulseInEdge e s
  | .capInEdge e k falling => Sys2Proof.Machine.execCapInEdge e k falling s
  | .ppsOut t => Sys2Proof.Machine.execPpsOut t s
  | .configuredOutput t k => Sys2Proof.Machine.execConfiguredOutput t k s
  | .compareArm t u target => Sys2Proof.Machine.execCompareArm t u target s
  | .transmitTimestamp t id port => Sys2Proof.Machine.execTransmitTimestamp t id port s
  | .fhpDatagram t addr port bytes env => Sys2Proof.Machine.execFhpDatagram t addr port bytes env s
  | .openSession t addr port seq pay tag => Sys2Proof.Machine.execOpenSession t addr port seq pay tag s
  | .close t id seq => Sys2Proof.Machine.execClose t id seq s
  | .keepalive t id seq => Sys2Proof.Machine.execKeepalive t id seq s
  | .sessionIdleTimeout t k => Sys2Proof.Machine.execSessionIdleTimeout t k s
  | .readItems t id seq pay ends => Sys2Proof.Machine.execReadItems t id seq pay ends s
  | .readSlots t id seq pay ends => Sys2Proof.Machine.execReadSlots t id seq pay ends s
  | .readMap t id seq pay => Sys2Proof.Machine.execReadMap t id seq pay s
  | .subscribe t id seq pay => Sys2Proof.Machine.execSubscribe t id seq pay s
  | .unsubscribe t id seq pay => Sys2Proof.Machine.execUnsubscribe t id seq pay s
  | .push t k id ends => Sys2Proof.Machine.execPush t k id ends s
  | .paramRead t id seq pay => Sys2Proof.Machine.execParamRead t id seq pay s
  | .editLock t id seq pay => Sys2Proof.Machine.execEditLock t id seq pay s
  | .paramWrite t id seq pay => Sys2Proof.Machine.execParamWrite t id seq pay s
  | .commit t id seq pay => Sys2Proof.Machine.execCommit t id seq pay s
  | .commitComplete t ok4 ok6 => Sys2Proof.Machine.execCommitComplete t ok4 ok6 s
  | .discard t id seq => Sys2Proof.Machine.execDiscard t id seq s
  | .eventList t id seq pay => Sys2Proof.Machine.execEventList t id seq pay s
  | .recRead t id seq pay => Sys2Proof.Machine.execRecRead t id seq pay s
  | .progLoad t id seq pay => Sys2Proof.Machine.execProgLoad t id seq pay s
  | .progRead t id seq pay => Sys2Proof.Machine.execProgRead t id seq pay s
  | .programStagingTimeout t => Sys2Proof.Machine.execProgramStagingTimeout t s
  | .updBegin t id seq pay sig => Sys2Proof.Machine.execUpdBegin t id seq pay sig s
  | .updChunk t id seq pay env => Sys2Proof.Machine.execUpdChunk t id seq pay env s
  | .updStatus t id seq pay => Sys2Proof.Machine.execUpdStatus t id seq pay s
  | .updateStagingIdle t => Sys2Proof.Machine.execUpdateStagingIdle t s
  | .capRead t id seq pay => Sys2Proof.Machine.execCapRead t id seq pay s
  | .journalRead t id seq pay => Sys2Proof.Machine.execJournalRead t id seq pay s
  | .bistRead t id seq pay => Sys2Proof.Machine.execBistRead t id seq pay s
  | .hostSetpoint t w => Sys2Proof.Machine.execHostSetpoint t w s
  | .hostAllowance t chg dis => Sys2Proof.Machine.execHostAllowance t chg dis s
  | .selectSetpointSource t backup => Sys2Proof.Machine.execSelectSetpointSource t backup s
  | .connectString t n => Sys2Proof.Machine.execConnectString t n s
  | .disconnectString t n => Sys2Proof.Machine.execDisconnectString t n s
  | .closeRestWindow t n => Sys2Proof.Machine.execCloseRestWindow t n s
  | .clearFailedConnection t n => Sys2Proof.Machine.execClearFailedConnection t n s
  | .changeMode t r code => Sys2Proof.Machine.execChangeMode t r code s
  | .restartModule t => Sys2Proof.Machine.execRestartModule t s
  | .manualDuty t n duty => Sys2Proof.Machine.execManualDuty t n duty s
  | .automatic t n => Sys2Proof.Machine.execAutomatic t n s
  | .startImpedanceSurvey t n => Sys2Proof.Machine.execStartImpedanceSurvey t n s
  | .abortImpedanceSurvey t => Sys2Proof.Machine.execAbortImpedanceSurvey t s
  | .startCapacitySurvey t n => Sys2Proof.Machine.execStartCapacitySurvey t n s
  | .abortCapacitySurvey t => Sys2Proof.Machine.execAbortCapacitySurvey t s
  | .writeLearnedValues t strings => Sys2Proof.Machine.execWriteLearnedValues t strings s
  | .renewNetworkKey t n => Sys2Proof.Machine.execRenewNetworkKey t n s
  | .releaseRosterEntry t n b replaced => Sys2Proof.Machine.execReleaseRosterEntry t n b replaced s
  | .openWireTest t n b k => Sys2Proof.Machine.execOpenWireTest t n b k s
  | .confirmScv t gen scv => Sys2Proof.Machine.execConfirmScv t gen scv s
  | .programMode t code => Sys2Proof.Machine.execProgramMode t code s
  | .forceVariable t var v => Sys2Proof.Machine.execForceVariable t var v s
  | .releaseForce t var => Sys2Proof.Machine.execReleaseForce t var s
  | .activateOnlineChange t version => Sys2Proof.Machine.execActivateOnlineChange t version s
  | .clearRecorderRegion t session region token => Sys2Proof.Machine.execClearRecorderRegion t session region token s
  | .activateUpdate t version => Sys2Proof.Machine.execActivateUpdate t version s
  | .abortUpdate t => Sys2Proof.Machine.execAbortUpdate t s
  | .runDeepSelfTest t block => Sys2Proof.Machine.execRunDeepSelfTest t block s
  | .activationSequence t => Sys2Proof.Machine.execActivationSequence t s
  | .updateConfirmation t seen => Sys2Proof.Machine.execUpdateConfirmation t seen s
  | .updateRollback t => Sys2Proof.Machine.execUpdateRollback t s
  | .foragerStagingFail t n b => Sys2Proof.Machine.execForagerStagingFail t n b s
  | .icmpEcho t addr data => Sys2Proof.Machine.execIcmpEcho t addr data s
  | .arpRequest t from_ target => Sys2Proof.Machine.execArpRequest t from_ target s
  | .prpSupervision t heard => Sys2Proof.Machine.execPrpSupervision t heard s
  | .canFrameReceived sof ts p id ext remote data => Sys2Proof.Machine.execCanFrameReceived sof ts p id ext remote data s
  | .setpoint t p => Sys2Proof.Machine.execSetpoint t p s
  | .timeRef t => Sys2Proof.Machine.execTimeRef t s
  | .timeFollow t p => Sys2Proof.Machine.execTimeFollow t p s
  | .timeRefReceived t p => Sys2Proof.Machine.execTimeRefReceived t p s
  | .timeMasterTakeover t => Sys2Proof.Machine.execTimeMasterTakeover t s
  | .canErrorState t p err => Sys2Proof.Machine.execCanErrorState t p err s
  | .canBusoffRecovery t p => Sys2Proof.Machine.execCanBusoffRecovery t p s
  | .canAutobaud t p good => Sys2Proof.Machine.execCanAutobaud t p good s
  | .canTxRemoval t => Sys2Proof.Machine.execCanTxRemoval t s
  | .canopenSync t => Sys2Proof.Machine.execCanopenSync t s
  | .canopenHeartbeat t => Sys2Proof.Machine.execCanopenHeartbeat t s
  | .canopenSdoResponse t => Sys2Proof.Machine.execCanopenSdoResponse t s
  | .canopenTpdo t => Sys2Proof.Machine.execCanopenTpdo t s
  | .canopenEmcy t => Sys2Proof.Machine.execCanopenEmcy t s
  | .canopenStationAbsent t k => Sys2Proof.Machine.execCanopenStationAbsent t k s
  | .porNAssert t => Sys2Proof.Machine.execPorNAssert t s
  | .vmainReturn => Sys2Proof.Machine.execVmainReturn s
  | .floopEdgeNotReturned t n => Sys2Proof.Machine.execFloopEdgeNotReturned t n s
  | .peerDelayExpiry t port => Sys2Proof.Machine.execPeerDelayExpiry t port s
  | .pdelayReqSend t => Sys2Proof.Machine.execPdelayReqSend t s
  | .timeFollowUpMissing t => Sys2Proof.Machine.execTimeFollowUpMissing t s
  | .deepTestEnd t fails detail => Sys2Proof.Machine.execDeepTestEnd t fails detail s
  | .bulkDownSlot t n k => Sys2Proof.Machine.execBulkDownSlot t n k s

end Sys2Proof.Machine
end

