-- ==== Sys2Proof/Machine/Step.lean ====
section
/-!
DEFINITION. Step: the command at the front of the queue is carried out; with an empty queue the block idles (log 6).
-/
namespace Sys2Proof.Machine

/-- One step: the command that has waited longest, on the state with the rest of the queue. On an empty queue each CAN port sends the frame that wins its arbitration, and nothing else happens (log 6). -/
def step (s : State) : Host.Outcome State Fault Refusal :=
  match s.pending with
  | [] => .next (canIdle s)
  | c :: rest => exec c { s with pending := rest }

/-- The state with the command that a word spells at the front of its queue; as it is where the word spells none. -/
def State.withFetchWord (s : State) (nbits w : Nat) : State :=
  match decodeTableWord nbits w with
  | some c => { s with pending := c :: s.pending }
  | none => s

end Sys2Proof.Machine
end

