-- ==== Sys2Proof/WellFormed.lean ====
section
/-!
DEFINITION. WellFormed: the operands that the outside of the block can bring with a command: times of 64 bits (R31), densities of a modulator
(R230), a link frame, a message of one datagram or CAN frame. Meanings are total and do not ask for it.
-/
namespace Sys2Proof

def natOk (n v : Nat) : Bool := decide (v < 2 ^ n)
/-- Module time is a uint64 in ns (R31). -/
def timeOk (t : Nat) : Bool := natOk 64 t
def intOk (v : Int) : Bool := decide (-9223372036854775808 ≤ v) && decide (v < 9223372036854775808)
/-- A density lies from -1 to 1 (R230). -/
def densOk (d : Density) : Bool := decide (d.bits < 2 ^ 769)
/-- A received PSDU: a port, a slot of Table 4-3, a time, a level of the item's type and at most the 160 bytes of the longest frame (R67). -/
def rxOk (x : Rx) : Bool := decide (x.string < 4) && decide (x.slot < 49) && timeOk x.ts && decide (x.level.natAbs ≤ 127) && decide (x.psdu.length ≤ 160)
/-- A time on the wire (R361). -/
def wireOk (w : WireTime) : Bool := natOk 48 w.sec && natOk 32 w.nanos
/-- Fields of an Ethernet frame (R385, R386). -/
def netOk (h : NetHead) : Bool := h.prp.all (fun p => natOk 48 p.1 && natOk 16 p.2) && natOk 32 h.dest && natOk 16 h.port
def unitOk : UnitFrom → Bool
  | .udp h bs => netOk h && decide (bs.length ≤ 1472)
  | .can _ => true

/-- Module time at which a command comes; none where it brings no time. -/
def Instr.time : Instr → Option Nat
  | .porNRelease t _ _ => some t
  | .startStep t _ _ => some t
  | .startTimeAcquisition _ => none
  | .startDiscoveryEnd t => some t
  | .tickBoundary t _ => some t
  | .frameBoundary t _ _ _ _ => some t
  | .sampleInstant t _ _ _ _ => some t
  | .laneSample t _ _ _ => some t
  | .measurementLostStop t _ => some t
  | .outputSaturated t _ => some t
  | .pwmTurningPoint t _ => some t
  | .laneTakeover t => some t
  | .uwbSync t _ => some t
  | .beaconNotConfirmed t _ => some t
  | .radioPortReset t _ => some t
  | .radioPortReady t _ => some t
  | .uplink m _ => some m.ts
  | .joinRequest _ _ ts _ _ => some ts
  | .bulkUp m _ => some m.ts
  | .uplinkDeadline t => some t
  | .bulkTransferTimeout t _ _ => some t
  | .keyActivation t _ => some t
  | .estimatorUpdate t _ _ _ => some t
  | .estimatorOverrun t => some t
  | .combPublication t _ => some t
  | .openWireResultTimeout t _ _ => some t
  | .openWireRetry t _ _ => some t
  | .burstResultTimeout t _ _ => some t
  | .programDeadline t _ _ => some t
  | .safetyEvaluation t _ => some t
  | .safetyEvaluationMissed t => some t
  | .fslUnitReceived t _ => some t
  | .fslWatchdogExpiry t _ => some t
  | .aliveToggle t => some t
  | .permitLapse t => some t
  | .permitWithdrawn t _ => some t
  | .contactorRelease t _ => some t
  | .guardValue t _ => some t
  | .guardMean t _ => some t
  | .floopEdgeDrive t => some t
  | .floopInEdge e _ _ => some e.at_
  | .tripInputChange t _ _ => some t
  | .tripDiscrepancy t => some t
  | .cfbChange t _ _ _ => some t
  | .contactorFeedbackFault t _ _ => some t
  | .contactorWeld t _ _ => some t
  | .guardScvRecompute t _ => some t
  | .resetNFall t _ => some t
  | .resetNRise t _ => some t
  | .stuckReset t => some t
  | .stuckResetClear t => some t
  | .resetWindowClose t => some t
  | .connectionTimeout t _ => some t
  | .disconnectionTmax t _ => some t
  | .lossHoldExpiry t => some t
  | .sourceRevert t => some t
  | .allowanceTimeout t => some t
  | .restWindowExpiry t _ => some t
  | .burstArm t => some t
  | .burstCurrentSample t _ _ => some t
  | .surveyBins t => some t
  | .impedanceResult t => some t
  | .impedanceSurveyAbort t => some t
  | .capacitySurveyAbort t => some t
  | .roundDieSensors t _ => some t
  | .roundSupplySample t _ _ _ => some t
  | .bistSlice t _ _ _ => some t
  | .bistSliceAbort v => some v.t
  | .recorderCommit t => some t
  | .recorderCommitMissed t => some t
  | .eventRecord t _ _ => some t
  | .fetchTrap t _ _ => some t
  | .dmaHalt t _ _ _ => some t
  | .bankCopyComplete t => some t
  | .corePairFail t _ => some t
  | .pfwNFall t _ => some t
  | .powerFailSequenceEnd t _ _ => some t
  | .vmainLoss t => some t
  | .vguardLoss t => some t
  | .ptpSync ts _ _ _ _ => some ts
  | .ptpAnnounce ts _ _ _ _ _ _ => some ts
  | .ptpPdelay t4 _ _ _ _ => some t4
  | .ptpSyncSend t _ _ => some t
  | .announceTimeout t => some t
  | .syncBoundExceeded t => some t
  | .ppsInEdge e => some e.at_
  | .syncInEdge e => some e.at_
  | .syncLost t => some t
  | .pulseInEdge e => some e.at_
  | .capInEdge e _ _ => some e.at_
  | .ppsOut t => some t
  | .configuredOutput t _ => some t
  | .compareArm t _ _ => some t
  | .transmitTimestamp t _ _ => some t
  | .fhpDatagram t _ _ _ _ => some t
  | .openSession t _ _ _ _ _ => some t
  | .close t _ _ => some t
  | .keepalive t _ _ => some t
  | .sessionIdleTimeout t _ => some t
  | .readItems t _ _ _ _ => some t
  | .readSlots t _ _ _ _ => some t
  | .readMap t _ _ _ => some t
  | .subscribe t _ _ _ => some t
  | .unsubscribe t _ _ _ => some t
  | .push t _ _ _ => some t
  | .paramRead t _ _ _ => some t
  | .editLock t _ _ _ => some t
  | .paramWrite t _ _ _ => some t
  | .commit t _ _ _ => some t
  | .commitComplete t _ _ => some t
  | .discard t _ _ => some t
  | .eventList t _ _ _ => some t
  | .recRead t _ _ _ => some t
  | .progLoad t _ _ _ => some t
  | .progRead t _ _ _ => some t
  | .programStagingTimeout t => some t
  | .updBegin t _ _ _ _ => some t
  | .updChunk t _ _ _ _ => some t
  | .updStatus t _ _ _ => some t
  | .updateStagingIdle t => some t
  | .capRead t _ _ _ => some t
  | .journalRead t _ _ _ => some t
  | .bistRead t _ _ _ => some t
  | .hostSetpoint t _ => some t
  | .hostAllowance t _ _ => some t
  | .selectSetpointSource t _ => some t
  | .connectString t _ => some t
  | .disconnectString t _ => some t
  | .closeRestWindow t _ => some t
  | .clearFailedConnection t _ => some t
  | .changeMode t _ _ => some t
  | .restartModule t => some t
  | .manualDuty t _ _ => some t
  | .automatic t _ => some t
  | .startImpedanceSurvey t _ => some t
  | .abortImpedanceSurvey t => some t
  | .startCapacitySurvey t _ => some t
  | .abortCapacitySurvey t => some t
  | .writeLearnedValues t _ => some t
  | .renewNetworkKey t _ => some t
  | .releaseRosterEntry t _ _ _ => some t
  | .openWireTest t _ _ _ => some t
  | .confirmScv t _ _ => some t
  | .programMode t _ => some t
  | .forceVariable t _ _ => some t
  | .releaseForce t _ => some t
  | .activateOnlineChange t _ => some t
  | .clearRecorderRegion t _ _ _ => some t
  | .activateUpdate t _ => some t
  | .abortUpdate t => some t
  | .runDeepSelfTest t _ => some t
  | .activationSequence t => some t
  | .updateConfirmation t _ => some t
  | .updateRollback t => some t
  | .foragerStagingFail t _ _ => some t
  | .icmpEcho t _ _ => some t
  | .arpRequest t _ _ => some t
  | .prpSupervision t _ => some t
  | .canFrameReceived _ ts _ _ _ _ _ => some ts
  | .setpoint t _ => some t
  | .timeRef t => some t
  | .timeFollow t _ => some t
  | .timeRefReceived t _ => some t
  | .timeMasterTakeover t => some t
  | .canErrorState t _ _ => some t
  | .canBusoffRecovery t _ => some t
  | .canAutobaud t _ _ => some t
  | .canTxRemoval t => some t
  | .canopenSync t => some t
  | .canopenHeartbeat t => some t
  | .canopenSdoResponse t => some t
  | .canopenTpdo t => some t
  | .canopenEmcy t => some t
  | .canopenStationAbsent t _ => some t
  | .porNAssert t => some t
  | .vmainReturn => none
  | .floopEdgeNotReturned t _ => some t
  | .peerDelayExpiry t _ => some t
  | .pdelayReqSend t => some t
  | .timeFollowUpMissing t => some t
  | .deepTestEnd t _ _ => some t
  | .bulkDownSlot t _ _ => some t

/-- Operands besides the time within their ranges. -/
def Instr.operandsOk : Instr → Bool
  | .porNRelease _ _ _ => true
  | .startStep _ _ _ => true
  | .startTimeAcquisition x => x.all fun y => intOk y.2.1 && timeOk y.2.2
  | .startDiscoveryEnd _ => true
  | .tickBoundary _ ana => densOk ana
  | .frameBoundary _ req lines laneFails _ => req.all (natOk 64) && (lines.all fun x => natOk 32 x.addr) && (laneFails.all fun x => decide (x.1 < 5))
  | .sampleInstant _ net k ch _ => net.all intOk && decide (net.length ≤ 8) && natOk 64 k && ch.all densOk && decide (ch.length ≤ 20)
  | .laneSample _ _ ch _ => ch.all densOk && decide (ch.length ≤ 20)
  | .measurementLostStop _ _ => true
  | .outputSaturated _ _ => true
  | .pwmTurningPoint _ _ => true
  | .laneTakeover _ => true
  | .uwbSync _ _ => true
  | .beaconNotConfirmed _ _ => true
  | .radioPortReset _ _ => true
  | .radioPortReady _ _ => true
  | .uplink m psdu => rxOk { toRxMeta := m, psdu := psdu }
  | .joinRequest string slot ts level psdu => rxOk { string := string, slot := slot, ts := ts, level := level, psdu := psdu }
  | .bulkUp m psdu => rxOk { toRxMeta := m, psdu := psdu }
  | .uplinkDeadline _ => true
  | .bulkTransferTimeout _ _ _ => true
  | .keyActivation _ _ => true
  | .estimatorUpdate _ late _ lost => late.all (natOk 64) && decide (lost.length ≤ 4)
  | .estimatorOverrun _ => true
  | .combPublication _ _ => true
  | .openWireResultTimeout _ _ _ => true
  | .openWireRetry _ _ _ => true
  | .burstResultTimeout _ _ _ => true
  | .programDeadline _ us _ => natOk 32 us
  | .safetyEvaluation _ _ => true
  | .safetyEvaluationMissed _ => true
  | .fslUnitReceived _ u => unitOk u
  | .fslWatchdogExpiry _ _ => true
  | .aliveToggle _ => true
  | .permitLapse _ => true
  | .permitWithdrawn _ _ => true
  | .contactorRelease _ _ => true
  | .guardValue _ ch => ((ch.all fun x => densOk x.d) && decide (ch.length ≤ 10))
  | .guardMean _ ch => ((ch.all fun x => densOk x.d) && decide (ch.length ≤ 10))
  | .floopEdgeDrive _ => true
  | .floopInEdge e _ _ => natOk 64 e.held
  | .tripInputChange _ _ _ => true
  | .tripDiscrepancy _ => true
  | .cfbChange _ _ _ _ => true
  | .contactorFeedbackFault _ _ _ => true
  | .contactorWeld _ _ _ => true
  | .guardScvRecompute _ _ => true
  | .resetNFall _ tf => natOk 64 tf
  | .resetNRise _ tr => natOk 64 tr
  | .stuckReset _ => true
  | .stuckResetClear _ => true
  | .resetWindowClose _ => true
  | .connectionTimeout _ _ => true
  | .disconnectionTmax _ _ => true
  | .lossHoldExpiry _ => true
  | .sourceRevert _ => true
  | .allowanceTimeout _ => true
  | .restWindowExpiry _ _ => true
  | .burstArm _ => true
  | .burstCurrentSample _ a b => densOk a && densOk b
  | .surveyBins _ => true
  | .impedanceResult _ => true
  | .impedanceSurveyAbort _ => true
  | .capacitySurveyAbort _ => true
  | .roundDieSensors _ counts => counts.all (natOk 64)
  | .roundSupplySample _ mv input dom => mv.all (natOk 64) && natOk 64 input && dom.all (natOk 64)
  | .bistSlice _ _ _ _ => true
  | .bistSliceAbort _ => true
  | .recorderCommit _ => true
  | .recorderCommitMissed _ => true
  | .eventRecord _ _ _ => true
  | .fetchTrap _ _ _ => true
  | .dmaHalt _ _ f _ => natOk 32 f.addr
  | .bankCopyComplete _ => true
  | .corePairFail _ _ => true
  | .pfwNFall _ _ => true
  | .powerFailSequenceEnd _ _ _ => true
  | .vmainLoss _ => true
  | .vguardLoss _ => true
  | .ptpSync _ _ gm origin corr => natOk 64 gm && wireOk origin && intOk corr
  | .ptpAnnounce _ _ gm rank domain _ utc => natOk 64 gm && rank.all (natOk 64) && natOk 32 domain && intOk utc
  | .ptpPdelay _ _ seq t2 t3 => natOk 32 seq && wireOk t2 && wireOk t3
  | .ptpSyncSend _ leaveA leaveB => timeOk leaveA && timeOk leaveB
  | .announceTimeout _ => true
  | .syncBoundExceeded _ => true
  | .ppsInEdge e => natOk 64 e.held
  | .syncInEdge e => natOk 64 e.held
  | .syncLost _ => true
  | .pulseInEdge e => natOk 64 e.held
  | .capInEdge e _ _ => natOk 64 e.held
  | .ppsOut _ => true
  | .configuredOutput _ _ => true
  | .compareArm _ _ target => timeOk target
  | .transmitTimestamp _ id _ => natOk 32 id
  | .fhpDatagram _ addr port bytes env => natOk 64 addr && natOk 64 port && decide (bytes.length ≤ 1472) && env.ends.all timeOk && netOk env.net
  | .openSession _ addr port seq pay tag => natOk 64 addr && natOk 64 port && natOk 32 seq && decide (pay.length ≤ 1472) && decide (tag.length ≤ 1472)
  | .close _ id seq => natOk 32 id && natOk 32 seq
  | .keepalive _ id seq => natOk 32 id && natOk 32 seq
  | .sessionIdleTimeout _ _ => true
  | .readItems _ id seq pay ends => natOk 32 id && natOk 32 seq && decide (pay.length ≤ 1472) && ends.all (natOk 64)
  | .readSlots _ id seq pay ends => natOk 32 id && natOk 32 seq && decide (pay.length ≤ 1472) && ends.all (natOk 64)
  | .readMap _ id seq pay => natOk 32 id && natOk 32 seq && decide (pay.length ≤ 1472)
  | .subscribe _ id seq pay => natOk 32 id && natOk 32 seq && decide (pay.length ≤ 1472)
  | .unsubscribe _ id seq pay => natOk 32 id && natOk 32 seq && decide (pay.length ≤ 1472)
  | .push _ _ id ends => natOk 32 id && ends.all (natOk 64)
  | .paramRead _ id seq pay => natOk 32 id && natOk 32 seq && decide (pay.length ≤ 1472)
  | .editLock _ id seq pay => natOk 32 id && natOk 32 seq && decide (pay.length ≤ 1472)
  | .paramWrite _ id seq pay => natOk 32 id && natOk 32 seq && decide (pay.length ≤ 1472)
  | .commit _ id seq pay => natOk 32 id && natOk 32 seq && decide (pay.length ≤ 1472)
  | .commitComplete _ _ _ => true
  | .discard _ id seq => natOk 32 id && natOk 32 seq
  | .eventList _ id seq pay => natOk 32 id && natOk 32 seq && decide (pay.length ≤ 1472)
  | .recRead _ id seq pay => natOk 32 id && natOk 32 seq && decide (pay.length ≤ 1472)
  | .progLoad _ id seq pay => natOk 32 id && natOk 32 seq && decide (pay.length ≤ 1472)
  | .progRead _ id seq pay => natOk 32 id && natOk 32 seq && decide (pay.length ≤ 1472)
  | .programStagingTimeout _ => true
  | .updBegin _ id seq pay sig => natOk 32 id && natOk 32 seq && decide (pay.length + sig.length ≤ 1472)
  | .updChunk _ id seq pay env => natOk 32 id && natOk 32 seq && decide (pay.length ≤ 1472) && env.ends.all timeOk
  | .updStatus _ id seq pay => natOk 32 id && natOk 32 seq && decide (pay.length ≤ 1472)
  | .updateStagingIdle _ => true
  | .capRead _ id seq pay => natOk 32 id && natOk 32 seq && decide (pay.length ≤ 1472)
  | .journalRead _ id seq pay => natOk 32 id && natOk 32 seq && decide (pay.length ≤ 1472)
  | .bistRead _ id seq pay => natOk 32 id && natOk 32 seq && decide (pay.length ≤ 1472)
  | .hostSetpoint _ w => intOk w
  | .hostAllowance _ _ _ => true
  | .selectSetpointSource _ _ => true
  | .connectString _ _ => true
  | .disconnectString _ _ => true
  | .closeRestWindow _ _ => true
  | .clearFailedConnection _ _ => true
  | .changeMode _ _ _ => true
  | .restartModule _ => true
  | .manualDuty _ _ _ => true
  | .automatic _ _ => true
  | .startImpedanceSurvey _ _ => true
  | .abortImpedanceSurvey _ => true
  | .startCapacitySurvey _ _ => true
  | .abortCapacitySurvey _ => true
  | .writeLearnedValues _ _ => true
  | .renewNetworkKey _ _ => true
  | .releaseRosterEntry _ _ _ _ => true
  | .openWireTest _ _ _ _ => true
  | .confirmScv _ _ _ => true
  | .programMode _ _ => true
  | .forceVariable _ _ _ => true
  | .releaseForce _ _ => true
  | .activateOnlineChange _ _ => true
  | .clearRecorderRegion _ session _ _ => natOk 64 session
  | .activateUpdate _ _ => true
  | .abortUpdate _ => true
  | .runDeepSelfTest _ _ => true
  | .activationSequence _ => true
  | .updateConfirmation _ _ => true
  | .updateRollback _ => true
  | .foragerStagingFail _ _ _ => true
  | .icmpEcho _ from_ data => natOk 32 from_.addr && netOk from_.net && decide (data.length ≤ 1472)
  | .arpRequest _ from_ target => natOk 32 from_.addr && netOk from_.net && natOk 64 target
  | .prpSupervision _ _ => true
  | .canFrameReceived sof _ _ id _ _ data => natOk 64 sof && natOk 32 id && decide (data.length ≤ 64)
  | .setpoint _ _ => true
  | .timeRef _ => true
  | .timeFollow _ _ => true
  | .timeRefReceived _ _ => true
  | .timeMasterTakeover _ => true
  | .canErrorState _ _ _ => true
  | .canBusoffRecovery _ _ => true
  | .canAutobaud _ _ _ => true
  | .canTxRemoval _ => true
  | .canopenSync _ => true
  | .canopenHeartbeat _ => true
  | .canopenSdoResponse _ => true
  | .canopenTpdo _ => true
  | .canopenEmcy _ => true
  | .canopenStationAbsent _ _ => true
  | .porNAssert _ => true
  | .vmainReturn => true
  | .floopEdgeNotReturned _ _ => true
  | .peerDelayExpiry _ _ => true
  | .pdelayReqSend _ => true
  | .timeFollowUpMissing _ => true
  | .deepTestEnd _ _ _ => true
  | .bulkDownSlot _ _ _ => true

/-- A well-formed command. -/
def Instr.wf (i : Instr) : Bool := (i.time.all timeOk) && i.operandsOk

end Sys2Proof
end

