-- ==== Sys2Proof/Safety.lean ====
section
/-!
DEFINITION. Safety: the words in which statements speak: the parts of the state, what a command leaves unchanged, a run of commands, and the
outputs that both safety channels permit (R17).
-/
namespace Sys2Proof.Machine

/-- The parts of the state, one for each field of State. -/
inductive Piece where
  | time | comb | links | tagCtr | forgs | cells | est | surv | learned | reg | disp | therm | guard | core | host | can | prog
  | recorder | mem | boot | upd | bist | pwr | out | freeCtr | pending
  deriving DecidableEq, Repr

/-- A part has the same content in two states. -/
def Piece.same : Piece → State → State → Prop
  | .time, s, t => t.time = s.time
  | .comb, s, t => t.comb = s.comb
  | .links, s, t => t.links = s.links
  | .tagCtr, s, t => t.tagCtr = s.tagCtr
  | .forgs, s, t => t.forgs = s.forgs
  | .cells, s, t => t.cells = s.cells
  | .est, s, t => t.est = s.est
  | .surv, s, t => t.surv = s.surv
  | .learned, s, t => t.learned = s.learned
  | .reg, s, t => t.reg = s.reg
  | .disp, s, t => t.disp = s.disp
  | .therm, s, t => t.therm = s.therm
  | .guard, s, t => t.guard = s.guard
  | .core, s, t => t.core = s.core
  | .host, s, t => t.host = s.host
  | .can, s, t => t.can = s.can
  | .prog, s, t => t.prog = s.prog
  | .recorder, s, t => t.recorder = s.recorder
  | .mem, s, t => t.mem = s.mem
  | .boot, s, t => t.boot = s.boot
  | .upd, s, t => t.upd = s.upd
  | .bist, s, t => t.bist = s.bist
  | .pwr, s, t => t.pwr = s.pwr
  | .out, s, t => t.out = s.out
  | .freeCtr, s, t => t.freeCtr = s.freeCtr
  | .pending, s, t => t.pending = s.pending

/-- Every part but those listed is unchanged. -/
def keepsBut (ps : List Piece) (s t : State) : Prop := ∀ p : Piece, p ∉ ps → p.same s t

/-- The command completes, in a state with the property P. -/
def Completes (c : Instr) (s : State) (P : State → Prop) : Prop := ∃ t, exec c s = .next t ∧ P t

/-- Every part but the queue. -/
def everyPart : List Piece :=
  [.time, .comb, .links, .tagCtr, .forgs, .cells, .est, .surv, .learned, .reg, .disp, .therm, .guard, .core, .host, .can, .prog, .recorder, .mem, .boot, .upd, .bist, .pwr, .out, .freeCtr]

/-- Every part but the queue and those listed. -/
def allBut (ps : List Piece) : List Piece := everyPart.filter fun p => !ps.contains p

/-- The parts of the state that a command may change, whatever its operands and the state; every other part stays as it is. -/
def mayChange : Instr → List Piece
  | .porNRelease .. | .vmainLoss .. | .porNAssert .. | .vmainReturn .. => allBut [.learned, .out, .freeCtr]
  | .startStep .. | .frameBoundary .. | .fhpDatagram .. | .close .. | .keepalive .. | .readItems .. | .readSlots .. | .readMap .. | .subscribe ..
  | .unsubscribe .. | .paramRead .. | .editLock .. | .paramWrite .. | .commit .. | .discard .. | .eventList .. | .recRead .. | .progLoad ..
  | .progRead .. | .updBegin .. | .updChunk .. | .updStatus .. | .capRead .. | .journalRead .. | .bistRead .. => everyPart
  | .startTimeAcquisition .. => [.time, .guard, .host, .can, .recorder, .boot]
  | .startDiscoveryEnd .. | .changeMode .. | .confirmScv .. => [.time, .recorder, .boot]
  | .tickBoundary .. | .measurementLostStop .. => [.time, .est, .reg, .disp, .guard, .recorder]
  | .sampleInstant .. => [.time, .comb, .est, .reg, .prog]
  | .laneSample .. => [.time, .est, .surv, .reg, .guard, .recorder, .pwr]
  | .outputSaturated .. | .recorderCommitMissed .. | .eventRecord .. | .ptpSync .. | .ptpAnnounce .. | .ptpPdelay .. | .announceTimeout ..
  | .syncBoundExceeded .. | .ppsInEdge .. | .syncLost .. | .capInEdge .. | .compareArm .. | .clearRecorderRegion .. | .peerDelayExpiry .. => [.time, .recorder]
  | .pwmTurningPoint .. => [.time, .reg, .out]
  | .laneTakeover .. => [.time, .est, .reg, .disp, .guard, .recorder, .bist]
  | .uwbSync .. => [.time, .links, .surv, .recorder, .out]
  | .beaconNotConfirmed .. | .joinRequest .. => [.time, .links, .recorder]
  | .radioPortReset .. => [.time, .links, .recorder, .out]
  | .radioPortReady .. => [.time, .links, .out]
  | .uplink .. => [.time, .links, .forgs, .surv, .recorder]
  | .bulkUp .. => [.time, .links, .tagCtr, .forgs, .recorder, .boot, .upd]
  | .uplinkDeadline .. => [.time, .links, .forgs, .recorder]
  | .bulkTransferTimeout .. => [.time, .links, .tagCtr, .forgs, .recorder]
  | .keyActivation .. => [.time, .links]
  | .estimatorUpdate .. => [.time, .links, .tagCtr, .forgs, .cells, .est, .surv, .learned, .recorder, .mem, .pwr]
  | .estimatorOverrun .. => [.time, .forgs, .cells, .est, .recorder]
  | .combPublication .. => allBut [.cells, .learned, .core, .host, .mem, .upd, .bist, .out, .freeCtr]
  | .openWireResultTimeout .. | .burstResultTimeout .. | .foragerStagingFail .. => [.time, .forgs, .recorder]
  | .openWireRetry .. | .releaseRosterEntry .. | .openWireTest .. => [.time, .links, .tagCtr, .forgs]
  | .programDeadline .. => [.time, .prog, .recorder, .pwr]
  | .safetyEvaluation .. => [.time, .guard, .core, .can, .recorder, .boot, .out]
  | .safetyEvaluationMissed .. | .fslWatchdogExpiry .. => [.time, .core, .recorder, .boot]
  | .fslUnitReceived .. => [.time, .core, .host, .can, .recorder]
  | .aliveToggle .. | .permitWithdrawn .. | .guardValue .. | .guardMean .. | .floopEdgeDrive .. | .floopInEdge .. | .tripInputChange ..
  | .tripDiscrepancy .. | .resetNFall .. | .floopEdgeNotReturned .. => [.time, .est, .guard]
  | .permitLapse .. | .guardScvRecompute .. | .stuckReset .. => [.time, .est, .guard, .core, .recorder]
  | .contactorRelease .. | .contactorFeedbackFault .. | .contactorWeld .. | .resetNRise .. | .stuckResetClear .. => [.time, .est, .guard, .recorder]
  | .cfbChange .. | .clearFailedConnection .. => [.time, .est, .disp, .guard, .recorder]
  | .resetWindowClose .. => [.time, .core, .recorder]
  | .connectionTimeout .. | .disconnectionTmax .. | .sourceRevert .. | .allowanceTimeout .. | .restWindowExpiry .. | .hostSetpoint ..
  | .connectString .. | .closeRestWindow .. => [.time, .disp, .recorder]
  | .lossHoldExpiry .. | .hostAllowance .. | .selectSetpointSource .. | .disconnectString .. => [.time, .disp]
  | .burstArm .. => [.time, .links, .tagCtr, .surv]
  | .burstCurrentSample .. | .impedanceResult .. => [.time, .surv]
  | .surveyBins .. | .impedanceSurveyAbort .. | .abortImpedanceSurvey .. => [.time, .links, .tagCtr, .forgs, .surv, .learned, .recorder]
  | .capacitySurveyAbort .. | .abortCapacitySurvey .. => [.time, .est, .surv, .learned, .recorder]
  | .roundDieSensors .. => [.time, .therm, .recorder]
  | .roundSupplySample .. => [.time, .recorder, .pwr]
  | .bistSlice .. => [.time, .recorder, .mem, .bist]
  | .bistSliceAbort .. => [.time, .recorder, .bist]
  | .recorderCommit .. => [.time, .recorder, .freeCtr]
  | .fetchTrap .. | .restartModule .. => allBut [.learned, .freeCtr]
  | .dmaHalt .. => allBut [.tagCtr, .forgs, .cells, .est, .surv, .reg, .disp, .therm, .guard, .upd, .out]
  | .bankCopyComplete .. | .corePairFail .. => [.time, .mem]
  | .pfwNFall .. => [.time, .surv, .learned, .host, .recorder, .boot, .pwr, .out]
  | .powerFailSequenceEnd .. => [.time, .recorder, .boot, .pwr]
  | .vguardLoss .. => [.time, .guard, .pwr]
  | .ptpSyncSend .. => [.time, .recorder, .out]
  | .syncInEdge .. | .pulseInEdge .. | .ppsOut .. | .configuredOutput .. => [.time]
  | .transmitTimestamp .. => [.time, .can, .recorder, .out]
  | .openSession .. => [.time, .host, .recorder, .out, .freeCtr]
  | .sessionIdleTimeout .. => [.time, .host, .recorder]
  | .push .. | .prpSupervision .. => [.time, .host, .recorder, .out]
  | .commitComplete .. => [.time, .host, .recorder, .boot, .out]
  | .programStagingTimeout .. | .releaseForce .. => [.time, .prog]
  | .updateStagingIdle .. | .abortUpdate .. => [.time, .links, .tagCtr, .forgs, .recorder, .upd]
  | .manualDuty .. | .automatic .. => [.time, .reg, .recorder]
  | .startImpedanceSurvey .. => [.time, .surv, .disp, .recorder]
  | .startCapacitySurvey .. => [.time, .est, .surv, .disp, .recorder]
  | .writeLearnedValues .. => [.time, .surv, .learned, .recorder]
  | .renewNetworkKey .. => [.time, .links, .tagCtr, .recorder, .boot, .freeCtr]
  | .programMode .. | .forceVariable .. | .activateOnlineChange .. => [.time, .prog, .recorder]
  | .activateUpdate .. | .updateConfirmation .. => [.time, .recorder, .upd]
  | .runDeepSelfTest .. => [.time, .est, .reg, .guard, .recorder, .bist]
  | .activationSequence .. | .deepTestEnd .. => allBut [.freeCtr]
  | .updateRollback .. => [.time, .links, .tagCtr, .disp, .recorder, .upd]
  | .icmpEcho .. | .arpRequest .. => [.time, .host, .out]
  | .canFrameReceived .. | .timeRef .. | .timeFollow .. | .timeRefReceived .. | .timeMasterTakeover .. | .canErrorState .. | .canAutobaud ..
  | .canTxRemoval .. | .canopenSync .. | .canopenHeartbeat .. | .canopenSdoResponse .. | .canopenEmcy .. | .canopenStationAbsent ..
  | .timeFollowUpMissing .. => [.time, .can, .recorder]
  | .setpoint .. => [.time, .disp, .can, .recorder]
  | .canBusoffRecovery .. | .canopenTpdo .. => [.time, .can]
  | .pdelayReqSend .. | .bulkDownSlot .. => [.time, .out]

/-- The commands that the Guard or the output permit stage carries out, and after which the stage forms its outputs (R326). -/
def guardCommand : Instr → Bool
  | .guardValue .. | .guardMean .. | .floopEdgeDrive .. | .floopInEdge .. | .floopEdgeNotReturned .. | .tripInputChange .. | .tripDiscrepancy ..
  | .cfbChange .. | .contactorFeedbackFault .. | .contactorWeld .. | .guardScvRecompute .. | .permitLapse .. | .resetNFall .. | .resetNRise ..
  | .stuckReset .. | .stuckResetClear .. => true
  | _ => false

/-- Output of the stage for string n: GATE_ENn is high only under both permits (R17). -/
def gateSafe (s : State) (n : Nat) : Prop := gateEn s n = true → permits s n = true

/-- A request of session id passes checks 1 to 7 of R390: the session is open in slot k, its sequence number is new, and its bucket holds a request; a halted Start serves the opcode (R519). -/
def admitted (t id seq opcode : Nat) (pay : List Byte) (k : Nat) (x : Session) (s : State) : Prop :=
  netUp s = true ∧ (s.boot.phase = .halted → haltedServes opcode pay = true) ∧ slotOf s id = some k ∧ sessionAt s k = some x ∧
  1 ≤ (seq + 2 ^ 32 - x.sLast) % 2 ^ 32 ∧ (seq + 2 ^ 32 - x.sLast) % 2 ^ 32 ≤ 1024 ∧ 1 ≤ bucket s x t

/-- The parts of a reply have left for the session, the last one marked as the last. -/
def replied (x : Session) (opcode seq : Nat) (parts : List (List Byte)) (s r : State) : Prop :=
  r.out = ((markMore parts).map fun p => Output.fhp x.addr x.port (fhpMessage x.key (if p.2 then 5 else 1) x.id seq opcode p.1)).reverse ++ s.out

/-- Slot k after a request has been carried out (R397, R399, R413): its number is the last one, its time the time of the last request, one token is spent, and its reply is kept; no other slot changes. -/
def notedIn (k : Nat) (x : Session) (t seq opcode : Nat) (parts : List (List Byte)) (subs : List Subscription) (s r : State) : Prop :=
  (∃ w, sessionAt r k = some w ∧ w.id = x.id ∧ w.role = x.role ∧ w.addr = x.addr ∧ w.port = x.port ∧ w.sLast = seq ∧ w.lastReq = t ∧ w.confirmed = true ∧
    w.tokens = bucket s x t - 1 ∧ w.tokensAt = t ∧ w.subs = subs ∧ ({ seq := seq, opcode := opcode, parts := parts, running := false } : FhpReply) ∈ w.replies) ∧
  ∀ j, j ≠ k → sessionAt r j = sessionAt s j

/-- A request has been carried out: it is noted in its slot, and its reply has left. -/
def carriedOut (k : Nat) (x : Session) (t seq opcode : Nat) (parts : List (List Byte)) (s r : State) : Prop :=
  notedIn k x t seq opcode parts x.subs s r ∧ replied x opcode seq parts s r

end Sys2Proof.Machine
end

