-- ==== Sys2Proof/Certificates/Slice0/Obligations.lean ====
section
/-!
DEFINITION. Obligations: the statements for the provers, chapter by chapter. `Completes c s P` says that the command answers a next state with
the property P; `keepsBut ps s t` that every part of the state but those named is unchanged. The rules named in a docstring are those that the
clauses were taken from; a statement claims what its sentences say, and no more of a rule than that.
-/
open Sys2Proof Sys2Proof.Machine

/-- Edges of SYNC_IN and PULSE_IN that pass the filter of 100 ns are kept as R378 says (R38, R267); a capture input keeps an edge that passes its filter and that its parameter names while its queue of 8 has room, and else drops and counts it (R376, R377). An edge whose level does not hold for the filter of its input, or that the parameter does not name, is not kept. Nothing else changes. PPS_IN_EDGE, once the level has held for 100 ns: an edge within time.pps.window of a whole second is kept, and gives an offset sample of source 1 once module time has been set from source 0 or 2; with PPS_IN in use, an edge outside the window is discarded and raises 0x6008 (R378, Table 13-1). Completion: for syncInEdge, pulseInEdge, ppsInEdge, capInEdge exec answers a next state wherever the conditions of the clause on the command and the state hold. -/
def Obligations.InputEdges : Prop :=
  (∀ ts held s, s.up = true → 100 ≤ held →
    Completes (.syncInEdge { at_ := ts, held := held }) s fun t =>
      t.time = { s.time with now := max s.time.now ts, syncEdge := some ts, syncAge := 0 } ∧ keepsBut [.time] s t) ∧
  (∀ ts held (k : Fin 8) falling s, (held < 100 → exec (.syncInEdge { at_ := ts, held := held }) s = .next (s.at_ ts) ∧ exec (.pulseInEdge { at_ := ts, held := held }) s = .next (s.at_ ts) ∧
      exec (.ppsInEdge { at_ := ts, held := held }) s = .next (s.at_ ts)) ∧
    (held < s.parN .timeCapFilter k.val ∨ s.parN .timeCapEdge k.val = (if falling then 0 else 1) → exec (.capInEdge { at_ := ts, held := held } k falling) s = .next (s.at_ ts))) ∧
  (∀ ts held s, s.up = true → 100 ≤ held →
    Completes (.pulseInEdge { at_ := ts, held := held }) s fun t =>
      t.time.pulse = { count := s.time.pulse.count + 1, first := if s.time.pulse.count = 0 then ts else s.time.pulse.first, last := ts } ∧
      { t.time with pulse := s.time.pulse } = { s.time with now := max s.time.now ts } ∧ keepsBut [.time] s t) ∧
  (∀ ts held (k : Fin 8) falling s, s.up = true → s.parN .timeCapFilter k.val ≤ held → s.time.capture.length = 8 → s.time.capLost.length = 8 →
    (s.parN .timeCapEdge k.val = 2 ∨ s.parN .timeCapEdge k.val = (if falling then 1 else 0)) → (s.time.capture.getD k.val []).length < 8 →
    Completes (.capInEdge { at_ := ts, held := held } k falling) s fun t =>
      t.time.capture.getD k.val [] = s.time.capture.getD k.val [] ++ [{ time := ts, falling := falling, lost := s.time.capLost.getD k.val false, input := k.val }] ∧
      (∀ j, j ≠ k.val → t.time.capture.getD j [] = s.time.capture.getD j [] ∧ t.time.capLost.getD j false = s.time.capLost.getD j false) ∧
      t.time.capLost.getD k.val false = false ∧
      { t.time with capture := s.time.capture, capLost := s.time.capLost } = { s.time with now := max s.time.now ts } ∧ keepsBut [.time] s t) ∧
  (∀ ts held (k : Fin 8) falling s, s.up = true → s.parN .timeCapFilter k.val ≤ held → s.time.capLost.length = 8 →
    (s.parN .timeCapEdge k.val = 2 ∨ s.parN .timeCapEdge k.val = (if falling then 1 else 0)) → 8 ≤ (s.time.capture.getD k.val []).length →
    Completes (.capInEdge { at_ := ts, held := held } k falling) s fun t =>
      t.time.capDropped = s.time.capDropped + 1 ∧ t.time.capLost.getD k.val false = true ∧ t.time.capture = s.time.capture ∧
      t.recorder = (State.raise 0x6009 k.val (s.at_ ts)).recorder ∧ keepsBut [.time, .recorder] s t) ∧
  (∀ ts held s, s.up = true → 100 ≤ held → (secondOffset ts).natAbs ≤ s.parN .timePpsWindow → s.time.setByEpoch = false →
    Completes (.ppsInEdge { at_ := ts, held := held }) s fun t =>
      t.time = { s.time with now := max s.time.now ts, ppsEdge := some ts, ppsGood := some ts } ∧ keepsBut [.time, .recorder] s t) ∧
  (∀ ts held s, s.up = true → 100 ≤ held → (secondOffset ts).natAbs ≤ s.parN .timePpsWindow → s.time.setByEpoch = true →
    s.time.framesOn = true → s.parN .timeSource 0 = 1 →
    Completes (.ppsInEdge { at_ := ts, held := held }) s fun t =>
      t.time.ppsGood = some ts ∧ t.time.src = some 1 ∧ t.time.lastO = some ((secondOffset ts : Int) : Rat) ∧ t.time.holdover = false ∧
      t.time.bound = some (ratAbs ((secondOffset ts : Int) : Rat) + (s.parN .timeErrAsym : Rat), ts) ∧ keepsBut [.time, .recorder] s t) ∧
  (∀ ts held s, s.up = true → 100 ≤ held → s.parN .timePpsWindow < (secondOffset ts).natAbs → s.time.src = some 1 →
    Completes (.ppsInEdge { at_ := ts, held := held }) s fun t => t.time = { s.time with now := max s.time.now ts } ∧ t.isRaised 0x6008 0 = true ∧ keepsBut [.time, .recorder] s t)

/-- Arming a compare unit (R371): a target more than 2 s ahead is refused with 0x600C; a target that is not ahead fires at once, with the late flag, counts a late compare and raises 0x600B, and drives what its unit drives; any other target is stored modulo 2^32. A configured output (R375): output k is high for time.out.k.width from an instant of its phase and period. A tagged frame that leaves takes a place in the transmit timestamp queue of 16; a 17th timestamp is dropped, counted and raises 0x600A (R379, R380). Completion: for compareArm, configuredOutput, transmitTimestamp exec answers a next state wherever the conditions of the clause on the command and the state hold. -/
def Obligations.CompareUnits : Prop :=
  (∀ t (u : Fin 24) target s, s.up = true → s.time.compare.length = 24 → max s.time.now t < target → target ≤ max s.time.now t + 2000000000 →
    Completes (.compareArm t u target) s fun r =>
      (r.time.compare.getD u.val {}).armed = true ∧ (r.time.compare.getD u.val {}).c = BitVec.ofNat 32 target ∧ (r.time.compare.getD u.val {}).late = false ∧
      (∀ j, j ≠ u.val → r.time.compare.getD j {} = s.time.compare.getD j {}) ∧
      { r.time with compare := s.time.compare } = { s.time with now := max s.time.now t } ∧ keepsBut [.time] s r) ∧
  (∀ t (u : Fin 24) target s, s.up = true → s.time.compare.length = 24 → target ≤ max s.time.now t →
    Completes (.compareArm t u target) s fun r =>
      (r.time.compare.getD u.val {}).late = true ∧ r.time.lateCompares = s.time.lateCompares + 1 ∧
      ((r.time.compare.getD u.val {}).armed = true ↔ unitPeriod s u.val ≠ 0) ∧
      (u.val = 7 → s.parB .timePpsOut = true → s.time.synced = true → r.time.ppsOut = some (max s.time.now t + s.parN .timePpsWidth * 1000)) ∧
      (∀ j, j ≠ u.val → r.time.compare.getD j {} = s.time.compare.getD j {}) ∧ r.recorder = (State.raise 0x600B u.val (s.at_ t)).recorder ∧
      keepsBut [.time, .recorder] s r) ∧
  (∀ t (u : Fin 24) target s, s.up = true → max s.time.now t + 2000000000 < target →
    exec (.compareArm t u target) s = .next (State.raise 0x600C u.val (s.at_ t))) ∧
  (∀ t (k : Fin 8) s, s.up = true → s.time.outs.length = 8 → s.parN .timeOutGpio k.val < 16 → s.parN .timeOutPhase k.val ≤ t →
    (t - s.parN .timeOutPhase k.val) % s.parN .timeOutPeriod k.val = 0 →
    Completes (.configuredOutput t k) s fun r =>
      (∀ u, t ≤ u → outLevel r k.val u = decide (u < t + s.parN .timeOutWidth k.val)) ∧ (∀ j u, j ≠ k.val → outLevel r j u = outLevel s j u) ∧
      keepsBut [.time] s r) ∧
  (∀ t id (port : Fin 4) s, s.up = true → port.val < 2 → s.time.txStamps.length < 16 →
    Completes (.transmitTimestamp t id port) s fun r =>
      r.time.txStamps = s.time.txStamps ++ [{ id := id, port := port.val, seq := (s.time.txSeq + 1) % 2 ^ 32, time := t + s.parN .timeEthLatTx port.val }] ∧
      r.time.txSeq = (s.time.txSeq + 1) % 2 ^ 32 ∧ keepsBut [.time] s r) ∧
  (∀ t id (port : Fin 4) s, s.up = true → port.val < 2 → 16 ≤ s.time.txStamps.length →
    Completes (.transmitTimestamp t id port) s fun r =>
      r.time.txStamps = s.time.txStamps ∧ r.time.txSeq = (s.time.txSeq + 1) % 2 ^ 32 ∧ r.time.txDropped = (s.time.txDropped + 1) % 2 ^ 32 ∧
      r.recorder = (State.raise 0x600A 0 (s.at_ t)).recorder ∧ keepsBut [.time, .recorder] s r) ∧
  (∀ t id (port : Fin 4) s, s.up = true → 2 ≤ port.val → 0x8000 ≤ id → s.can.ports.length = 2 →
    Completes (.transmitTimestamp t id port) s fun r =>
      (∀ e ∈ (r.can.ports.getD (port.val - 2) {}).tx, e.tag ≠ id) ∧
      (∀ e ∈ (s.can.ports.getD (port.val - 2) {}).tx, e.tag = id → Output.canFrame (port.val - 2) (canFormat s (port.val - 2) e) e.id e.data ∈ r.out) ∧
      (∀ e ∈ (r.can.ports.getD (port.val - 2) {}).tx, e ∈ (s.can.ports.getD (port.val - 2) {}).tx) ∧
      (∀ j, j ≠ port.val - 2 → r.can.ports.getD j {} = s.can.ports.getD j {}) ∧ keepsBut [.time, .recorder, .can, .out] s r)

/-- PPS_OUT (R374): when unit 7 fires, at a whole second, with time.pps.out 1 and module time synchronised it is high until time.pps.width later; it stays low while time.pps.out is 0, and while module time is not synchronised. Completion: for ppsOut exec answers a next state wherever the conditions of the clause on the command and the state hold. -/
def Obligations.PpsOut : Prop :=
  (∀ t s, s.up = true → t % 1000000000 = 0 → s.parB .timePpsOut = true → s.time.synced = true →
    Completes (.ppsOut t) s fun r =>
      (∀ u, t ≤ u → ppsLevel r u = decide (u < t + s.parN .timePpsWidth * 1000)) ∧ keepsBut [.time] s r) ∧
  (∀ t s, s.up = true → t % 1000000000 = 0 → (s.parB .timePpsOut = false ∨ s.time.synced = false) → Completes (.ppsOut t) s fun r => (∀ u, ppsLevel r u = false) ∧ keepsBut [.time] s r) ∧
  (∀ s u, s.time.synced = false → ppsLevel s u = false)

/-- The servo (R367, R369): an accepted offset sample sets the frequency estimate, the target rate, the bound and the source in use; at a frame boundary the applied rate moves toward its target by at most time.rate.step, and with it the addend of a cycle (R360). -/
def Obligations.ServoStep : Prop :=
  (∀ (k : Nat) (o : Rat) t s, firstSource s t = some k → s.time.framesOn = true →
    let delta : Rat := match s.time.prevSample.getD k none with | some p => ((t - p : Nat) : Rat) / 1000000000 | none => 0
    let tau : Rat := (s.parN .timeServoTau : Rat)
    let f := s.time.freq - o * delta / (4 * tau * tau)
    (offsetSample k o t s).time.freq = f ∧
    (offsetSample k o t s).time.rTarget = clampRat (-(s.parN .timeRateMax : Rat)) (s.parN .timeRateMax : Rat) (f - o / tau) ∧
    (offsetSample k o t s).time.bound = some (ratAbs o + (s.parN .timeErrAsym : Rat), t) ∧ (offsetSample k o t s).time.src = some k ∧
    (offsetSample k o t s).time.now = s.time.now ∧ (offsetSample k o t s).time.rate = s.time.rate ∧ keepsBut [.time, .recorder] s (offsetSample k o t s)) ∧
  (∀ (k : Nat) (o : Rat) t s, firstSource s t ≠ some k → offsetSample k o t s = s) ∧
  (∀ s, ratAbs ((rateStep s).time.rate - s.time.rate) ≤ (s.parN .timeRateStep : Rat) ∧
    (ratAbs (s.time.rTarget - s.time.rate) ≤ (s.parN .timeRateStep : Rat) → (rateStep s).time.rate = s.time.rTarget) ∧
    (rateStep s).time.addend = addendAt (rateStep s).time.rate ∧
    { (rateStep s).time with rate := s.time.rate, addend := s.time.addend } = s.time ∧ keepsBut [.time] s (rateStep s))

/-- What a PTP message of a peer does (R363, R364, R367). An Announce of the module's domain on a port that carries PTP enters the sender among the masters heard, counted on its port; one that announces the time scale ARB takes its sender out, with 0x6006; a Sync of the master in use is an offset sample; a completed Pdelay exchange gives the peer delay ((t4 - t1) - (t3 - t2)) / 2. What the module sends as PTP (R363): as master its Sync and Announce on every port that carries PTP, and on each such port a Pdelay request whose answer it then awaits. Completion: for ptpAnnounce, ptpSync, ptpPdelay, ptpSyncSend, pdelayReqSend exec answers a next state wherever the conditions of the clause on the command and the state hold. -/
def Obligations.PtpMessages : Prop :=
  (∀ ts (port : Fin 2) gm rank utc s, s.up = true → ptpOn s port.val = true →
    Completes (.ptpAnnounce ts port gm rank (s.parN .timePtpDomain) true utc) s fun t =>
      (∃ m ∈ t.time.masters, m.gm = gm ∧ m.last = ts ∧ m.rank = rank ∧ m.utc = utc ∧ ((∀ x ∈ s.time.masters, x.announces.length = 2) → 1 ≤ m.announces.getD port.val 0)) ∧ keepsBut [.time] s t) ∧
  (∀ ts (port : Fin 2) gm rank utc s, s.up = true → ptpOn s port.val = true →
    Completes (.ptpAnnounce ts port gm rank (s.parN .timePtpDomain) false utc) s fun t =>
      (∀ m ∈ t.time.masters, m.gm ≠ gm) ∧ t.time.gm ≠ some gm ∧ (5 < s.recorder.rings.length → ∃ e ∈ t.recorder.rings.getD 5 [], e.code = 0x6006 ∧ e.arg = 0) ∧ keepsBut [.time, .recorder] s t) ∧
  (∀ ts (port : Fin 2) gm sec nanos corr d dt s, s.up = true → nanos < 1000000000 → s.time.gm = some gm →
    slavePort (s.at_ ts).time ts = some port.val → s.time.peer.getD port.val none = some (d, dt) → ts < dt + 3000000000 →
    exec (.ptpSync ts port gm ⟨sec, nanos⟩ corr) s = .next (offsetSample 0
      (((ts + s.parN .timeEthLatRx port.val : Nat) : Rat) - (((sec * 1000000000 + nanos : Nat) : Rat) + (corr : Rat) / 65536 + d)) ts
      ((s.at_ ts).modTime fun x => { x with lastSync := some ts }))) ∧
  (∀ t4 (port : Fin 2) seq t1 s2 n2 s3 n3 s, s.up = true → s.time.pdelayOut.getD port.val none = some seq → s.time.peer.length = 2 →
    n2 < 1000000000 → n3 < 1000000000 →
    (s.time.txStamps.find? fun e => e.id == seq % 0x4000 && e.port == port.val) = some t1 →
    Completes (.ptpPdelay t4 port seq ⟨s2, n2⟩ ⟨s3, n3⟩) s fun t =>
      t.time.peer.getD port.val none = some (((((t4 + s.parN .timeEthLatRx port.val : Nat) : Rat) - (t1.time : Rat)) -
        (((s3 * 1000000000 + n3 : Nat) : Rat) - ((s2 * 1000000000 + n2 : Nat) : Rat))) / 2, t4) ∧
      (∀ e ∈ t.time.txStamps, ¬(e.id = seq % 0x4000 ∧ e.port = port.val)) ∧ keepsBut [.time, .recorder] s t) ∧
  (∀ t leaveA leaveB s, s.up = true → ptpMaster s = true → s.time.ptpSeq.length = 3 →
    Completes (.ptpSyncSend t leaveA leaveB) s fun r =>
      (∀ p, p < 2 → ptpOn s p = true → Output.ptp 0 p (s.time.ptpSeq.getD 0 0) (toWire (max s.time.now t)) ∈ r.out ∧ Output.announce p (s.time.ptpSeq.getD 0 0) (ownRank s) 0xA0 ∈ r.out) ∧
      r.time.ptpSeq.getD 0 0 = (s.time.ptpSeq.getD 0 0 + 1) % 0x10000 ∧ keepsBut [.time, .recorder, .out] s r) ∧
  (∀ t s, s.up = true → s.time.ptpSeq.length = 3 → s.time.pdelayOut.length = 2 →
    Completes (.pdelayReqSend t) s fun r =>
      (∀ p, p < 2 → ptpOn s p = true → r.time.pdelayOut.getD p none = some (s.time.ptpSeq.getD 2 0) ∧ Output.ptp 3 p (s.time.ptpSeq.getD 2 0) (toWire t) ∈ r.out) ∧
      (∀ p, p < 2 → ptpOn s p = false → r.time.pdelayOut.getD p none = s.time.pdelayOut.getD p none) ∧
      r.time.ptpSeq.getD 2 0 = (s.time.ptpSeq.getD 2 0 + 1) % 0x10000 ∧ keepsBut [.time, .out] s r)

/-- Deadlines of the time sources: a peer delay older than 3 s is not valid (R364); masters not announced for 3 s leave the selection (R363); with no valid source left module time is in holdover with r_target = f (R368); module time is synchronised while its bound is known and at most time.sync.limit (R369); no SYNC_IN edge for 100 frames loses sync placement (R38). Completion: for peerDelayExpiry, announceTimeout, syncBoundExceeded, syncLost exec answers a next state wherever the conditions of the clause on the command and the state hold. -/
def Obligations.TimeDeadlines : Prop :=
  (∀ t (p : Fin 2) d dt s, s.up = true → s.time.peer.length = 2 → s.time.peer.getD p.val none = some (d, dt) → dt + 3000000000 ≤ t →
    Completes (.peerDelayExpiry t p) s fun r => r.time.peer.getD p.val none = none ∧ (∀ j, j ≠ p.val → r.time.peer.getD j none = s.time.peer.getD j none) ∧
      keepsBut [.time, .recorder] s r) ∧
  (∀ t s, s.up = true →
    Completes (.announceTimeout t) s fun r => (∀ m ∈ r.time.masters, t < m.last + 3000000000) ∧ (∀ m ∈ s.time.masters, t < m.last + 3000000000 → m ∈ r.time.masters) ∧
      ((∀ k, k < 3 → s.parN .timeSource k = 255) → r.time.holdover = true ∧ r.time.src = none ∧ r.time.rTarget = s.time.freq ∧ r.isRaised 0x6001 0 = true) ∧
      keepsBut [.time, .recorder] s r) ∧
  (∀ t s, s.up = true →
    Completes (.syncBoundExceeded t) s fun r =>
      (r.time.synced = true ↔ ∃ b, boundAt (s.at_ t) t = some b ∧ b ≤ (s.parN .timeSyncLimit : Rat)) ∧ (r.time.synced = false → r.isRaised 0x6003 0 = true) ∧
      (r.time.synced = false → r.time.ppsOut = none) ∧ { r.time with synced := s.time.synced, ppsOut := s.time.ppsOut } = { s.time with now := max s.time.now t } ∧ keepsBut [.time, .recorder] s r) ∧
  (∀ t s, s.up = true → s.parN .timeSampleSource = 1 → 100 ≤ s.time.syncAge →
    Completes (.syncLost t) s fun r => r.time = { s.time with now := max s.time.now t, syncLost := true } ∧ r.isRaised 0x6011 0 = true ∧ keepsBut [.time, .recorder] s r)

/-- Radio ports (R68, R72, R79, R96, R110): at its SYNC instant the beacon of the frame leaves in slot 0 with the commands placed in it, and a join answer of the frame in slot 43; a beacon that is not confirmed raises 0x200D; a port that is reset sends no beacon, with 0x200A raised, and a ready port has its channel and preamble code again and waits for the next frame boundary. That a second reset before the port is ready makes it failed is the model's choice (log 41). A new network key (R81, R86): the command draws it, stores it in both MRAM copies and names the activation frame; at that frame every frame of the string is secured with it. Completion: for uwbSync, beaconNotConfirmed, radioPortReset, radioPortReady, renewNetworkKey, keyActivation exec answers a next state wherever the conditions of the clause on the command and the state hold. -/
def Obligations.RadioLink : Prop :=
  (∀ t (n : Fin 4) s, s.up = true → linkRuns s n.val = true → s.links.length = 4 → (s.link n.val).port = 0 → t = syncAt s n.val →
    Completes (.uwbSync t n) s fun r =>
      r.out = (match (s.link n.val).answer with
        | some x => [Output.spami n.val 43 (answerPsdu (armBurst n.val (fireUnit (3 + n.val) (s.at_ t))) n.val x)]
        | none => []) ++
        Output.spami n.val 0 (beaconPsdu (armBurst n.val (fireUnit (3 + n.val) (s.at_ t))) n.val (beaconCmds (armBurst n.val (fireUnit (3 + n.val) (s.at_ t))) n.val)) :: s.out ∧
      (r.link n.val).beaconOk = true ∧ (∀ j, j ≠ n.val → r.link j = s.link j) ∧ keepsBut [.time, .links, .surv, .recorder, .out] s r) ∧
  (∀ t (n : Fin 4) s, s.up = true → linkOn s n.val = true → s.links.length = 4 →
    Completes (.beaconNotConfirmed t n) s fun r =>
      (r.link n.val) = { s.link n.val with beaconOk := false } ∧ r.isRaised 0x200D n.val = true ∧ (∀ j, j ≠ n.val → r.link j = s.link j) ∧
      keepsBut [.time, .links, .recorder] s r) ∧
  (∀ t (n : Fin 4) s, s.up = true → linkOn s n.val = true → s.links.length = 4 →
    Completes (.radioPortReset t n) s fun r =>
      (r.link n.val) = { s.link n.val with port := if (s.link n.val).port = 0 ∨ (s.link n.val).ready = true then 1 else 2, radio := none, ready := false, beaconOk := false } ∧
      r.out = Output.radioReset n.val t :: s.out ∧ r.isRaised 0x200A n.val = true ∧
      (∀ j, j ≠ n.val → r.link j = s.link j) ∧ keepsBut [.time, .links, .recorder, .out] s r) ∧
  (∀ t (n : Fin 4) s, s.up = true → s.links.length = 4 → (s.link n.val).port ≠ 0 →
    Completes (.radioPortReady t n) s fun r =>
      (r.link n.val) = { s.link n.val with radio := some (radioPair (s.parN .linkPlan) n.val), ready := true } ∧
      r.out = Output.radioConfig n.val (radioPair (s.parN .linkPlan) n.val).1 (radioPair (s.parN .linkPlan) n.val).2 :: s.out ∧
      ((resumePorts r).link n.val).port = 0 ∧ (∀ j, j ≠ n.val → r.link j = s.link j) ∧ keepsBut [.time, .links, .out] s r) ∧
  (∀ t (n : Fin 4) s, s.running = true → s.links.length = 4 → s.boot.keys.length = 4 → linkOn s n.val = true →
    Completes (.renewNetworkKey t n) s fun r =>
      (r.link n.val).keyNext = some ((Config.random s.freeCtr % 2 ^ 128), s.time.frame + 500) ∧ (r.link n.val).key = (s.link n.val).key ∧ r.freeCtr = s.freeCtr + 1 ∧
      (∃ q, r.boot.keys.getD n.val {} = { a := some (q, (Config.random s.freeCtr % 2 ^ 128)), b := some (q, (Config.random s.freeCtr % 2 ^ 128)) }) ∧
      (∀ j, j ≠ n.val → r.boot.keys.getD j {} = s.boot.keys.getD j {}) ∧ keepsBut [.time, .links, .tagCtr, .recorder, .boot, .freeCtr] s r) ∧
  (∀ t (n : Fin 4) k f s, s.up = true → s.links.length = 4 → (s.link n.val).keyNext = some (k, f) → f ≤ s.time.frame →
    Completes (.keyActivation t n) s fun r =>
      (r.link n.val) = { s.link n.val with key := some k, keyNext := none } ∧ (∀ j, j ≠ n.val → r.link j = s.link j) ∧ keepsBut [.time, .links] s r)

/-- UPLINK (R20, R84): an enrolled forager's frame that passes the checks by 8.8 ms is held for the frame, the first of two; a frame that fails a check is discarded and counted by kind; a late one is counted and enters no frame. The uplink deadline (R20, R102), once in a frame at 8.8 ms: in every string whose link runs each enrolled brick's reading of the frame closes; a brick not heard with a valid sample counts one more miss, one heard counts none; the relay map in force stays. JOIN_REQUEST (R94): a request that passes the checks, its MIC under the K_dev of the unique ID that it names, waits for its decision; another that gets as far as that check is discarded as a MIC failure and raises 0x200E, and one that fails an earlier check is discarded and counted. The kind of a request from an unknown unit is the model's choice (log 41). BULK_UP (R106): a fragment of an object still incomplete is held, an object of one fragment is complete at once and its BULK_DONE queued, a fragment of an object whose BULK_DONE is out changes nothing, and a fragment rejected under R106 is discarded, counted and raises 0x2008. BULK_DOWN_SLOT (R108, Table 4-3): within its slot of 200 us the lowest fragment that the target has not acknowledged is sent, unless the transfer waits because class P3 has no grant (R294). Completion: for uplink, uplinkDeadline, joinRequest, bulkUp, bulkDownSlot exec answers a next state wherever the conditions of the clause on the command and the state hold. -/
def Obligations.ForagerUplinks : Prop :=
  (∀ x d s, s.up = true → linkRuns s x.string = true → (s.link x.string).port = 0 → rxRead s 2 x = .ok d → x.string < 4 → rxSource x < 36 → s.forgs.length = 144 →
    x.ts ≤ s.frameStart + 8800000 → enrolled s x.string (rxSource x) = true →
    Completes (.uplink x.toRxMeta x.psdu) s fun t =>
      (t.forg (brickInst x.string (rxSource x))).up =
        (if (s.forg (brickInst x.string (rxSource x))).up.isSome then (s.forg (brickInst x.string (rxSource x))).up else some (uplinkOf d, x.slot)) ∧
      (∀ j, j ≠ brickInst x.string (rxSource x) → t.forg j = s.forg j) ∧ keepsBut [.time, .links, .forgs, .surv, .recorder] s t) ∧
  (∀ x k s, s.up = true → linkRuns s x.string = true → (s.link x.string).port = 0 → rxRead s 2 x = .error k →
    Completes (.uplink x.toRxMeta x.psdu) s fun t => t.forgs = s.forgs ∧ t.links = (discardFrame x.string k (s.at_ x.ts)).links ∧ keepsBut [.time, .links, .recorder] s t) ∧
  (∀ x d s, s.up = true → linkRuns s x.string = true → (s.link x.string).port = 0 → rxRead s 2 x = .ok d → s.links.length = 4 → x.string < 4 →
    s.frameStart + 8800000 < x.ts →
    Completes (.uplink x.toRxMeta x.psdu) s fun t => (t.link x.string).late = (s.link x.string).late + 1 ∧ keepsBut [.time, .links] s t) ∧
  (∀ t s, s.up = true → s.workDue 1 = true → t = s.frameStart + 8800000 → s.links.length = 4 → s.forgs.length = 144 →
    Completes (.uplinkDeadline t) s fun r =>
      (∀ n b, n < 4 → b < 36 → linkRuns s n = true → (s.forg (brickInst n b)).uid.isSome = true →
        ((∃ u k, (s.forg (brickInst n b)).up = some (u, k) ∧ upFlag u 0 = true ∧ (r.forg (brickInst n b)).closed = some u ∧ (r.forg (brickInst n b)).misses = 0) ∨
         ((∀ u k, (s.forg (brickInst n b)).up = some (u, k) → upFlag u 0 = false) ∧ (r.forg (brickInst n b)).closed = none ∧
           (r.forg (brickInst n b)).misses = (s.forg (brickInst n b)).misses + 1))) ∧
      (∀ n b, n < 4 → b < 36 → linkRuns s n = false →
        (r.forg (brickInst n b)).closed = (s.forg (brickInst n b)).closed ∧ (r.forg (brickInst n b)).misses = (s.forg (brickInst n b)).misses) ∧
      (∀ n, n < 4 → (r.link n).first = ((s.link n).first && !(s.link n).begun) ∧ (r.link n).relay = (s.link n).relay) ∧ r.workDue 1 = false ∧
      keepsBut [.time, .links, .forgs, .recorder] s r) ∧
  (∀ x d s, s.up = true → linkRuns s x.string = true → (s.link x.string).port = 0 → s.links.length = 4 → x.string < 4 → rxRead s 3 x = .ok d →
    Completes (.joinRequest x.string x.slot x.ts x.level x.psdu) s fun t =>
      (t.link x.string).joins = (s.link x.string).joins ++ [joinOf (rxSource x) s.time.frame (joinsOpen s x.string) d] ∧
      (∀ j, j ≠ x.string → t.link j = s.link j) ∧ keepsBut [.time, .links] s t) ∧
  (∀ x s, s.up = true → linkRuns s x.string = true → (s.link x.string).port = 0 → rxRead s 3 x = .error 5 →
    Completes (.joinRequest x.string x.slot x.ts x.level x.psdu) s fun t =>
      (∀ j, (t.link j).joins = (s.link j).joins) ∧ t.links = (discardFrame x.string 5 (s.at_ x.ts)).links ∧
      t.recorder = (State.raise 0x200E x.string (discardFrame x.string 5 (s.at_ x.ts))).recorder ∧ keepsBut [.time, .links, .recorder] s t) ∧
  (∀ x k s, s.up = true → linkRuns s x.string = true → (s.link x.string).port = 0 → rxRead s 3 x = .error k → k ≠ 5 →
    Completes (.joinRequest x.string x.slot x.ts x.level x.psdu) s fun t =>
      (∀ j, (t.link j).joins = (s.link j).joins) ∧ t.links = (discardFrame x.string k (s.at_ x.ts)).links ∧ keepsBut [.time, .links, .recorder] s t) ∧
  (∀ x d s, s.up = true → linkRuns s x.string = true → (s.link x.string).port = 0 → rxRead s 5 x = .ok d → x.string < 4 → rxSource x < 36 → s.forgs.length = 144 →
    enrolled s x.string (rxSource x) = true → fragBad (s.forg (brickInst x.string (rxSource x))) (fragmentOf d) = false →
    doneOut s x.string (rxSource x) (fragmentOf d).object = false →
    ((s.forg (brickInst x.string (rxSource x))).ups.find? fun u => u.object == (fragmentOf d).object) = none → 1 < fragments (fragmentOf d).total →
    Completes (.bulkUp x.toRxMeta x.psdu) s fun t =>
      (∃ u ∈ (t.forg (brickInst x.string (rxSource x))).ups, u.object = (fragmentOf d).object ∧ u.total = some (fragmentOf d).total ∧
        u.frags = [((fragmentOf d).index, (fragmentOf d).data.take (fragmentOf d).len)]) ∧
      (∀ j, j ≠ brickInst x.string (rxSource x) → t.forg j = s.forg j) ∧ keepsBut [.time, .forgs] s t) ∧
  (∀ x d s, s.up = true → linkRuns s x.string = true → (s.link x.string).port = 0 → rxRead s 5 x = .ok d →
    enrolled s x.string (rxSource x) = true → fragBad (s.forg (brickInst x.string (rxSource x))) (fragmentOf d) = true →
    Completes (.bulkUp x.toRxMeta x.psdu) s fun t =>
      t.links = (countDiscard x.string 0 s).links ∧ t.recorder = (State.raiseRound 0x2008 (brickInst x.string (rxSource x)) (s.at_ x.ts)).recorder ∧
      keepsBut [.time, .links, .recorder] s t) ∧
  (∀ x d s, s.up = true → linkRuns s x.string = true → (s.link x.string).port = 0 → rxRead s 5 x = .ok d → x.string < 4 → rxSource x < 36 → s.forgs.length = 144 → s.links.length = 4 →
    enrolled s x.string (rxSource x) = true → fragBad (s.forg (brickInst x.string (rxSource x))) (fragmentOf d) = false →
    (doneOut s x.string (rxSource x) (fragmentOf d).object = true → exec (.bulkUp x.toRxMeta x.psdu) s = .next (s.at_ x.ts)) ∧
    (doneOut s x.string (rxSource x) (fragmentOf d).object = false → (∀ u ∈ (s.forg (brickInst x.string (rxSource x))).ups, u.object ≠ (fragmentOf d).object) → fragments (fragmentOf d).total = 1 →
      Completes (.bulkUp x.toRxMeta x.psdu) s fun t =>
        (∀ u ∈ (t.forg (brickInst x.string (rxSource x))).ups, u.object ≠ (fragmentOf d).object) ∧
        (∃ c ∈ (t.link x.string).cmds, c.id = 0x0C ∧ c.target = rxSource x ∧ c.params = [(fragmentOf d).object]) ∧
        (∀ j, j ≠ brickInst x.string (rxSource x) → t.forg j = s.forg j))) ∧
  (∀ t (n : Fin 4) (k : Fin 5) d s, s.up = true → (s.link n.val).port = 0 → ((s.link n.val).bulk.getD k.val {}).dir = 2 →
    s.frameStart + 9000000 + 200000 * k.val ≤ t → t < s.frameStart + 9000000 + 200000 * k.val + 200000 → cool s d.object = true →
    ((s.link n.val).down.find? fun d => d.id == ((s.link n.val).bulk.getD k.val {}).arg) = some d → lowestDown s n.val d < d.total →
    Completes (.bulkDownSlot t n k) s fun r =>
      r.out = Output.spami n.val (44 + k.val) (bulkPsdu s n.val (44 + k.val) d.id d.object (lowestDown s n.val d) d.bytes (imageFragment s.upd (lowestDown s n.val d))) :: s.out ∧
      keepsBut [.time, .out] s r)

/-- Commands to the link and deadlines of its foragers. An up transfer that has not completed within link.bulk.timeout frames of its first grant is abandoned with BULK_ABORT and 0x200C, and so is a down transfer to the forager without progress for as long (R109). An entry is released by its LEAVE (R99). An open-wire test without a result 150 frames after its end raises 0x100E, goes back to state 2 and is repeated after cell.ow.retry (R149); a repetition whose time has come is sent again (R145, R148); one that an Engineer orders is sent, or waits while an earlier test of the forager is out (R145). A burst result that has not come within cell.burst.timeout frames of the last sample of the burst raises 0x100B (R138). Completion: for bulkTransferTimeout, releaseRosterEntry, openWireResultTimeout, openWireRetry, openWireTest, burstResultTimeout exec answers a next state wherever the conditions of the clause on the command and the state hold. -/
def Obligations.ForagerDeadlines : Prop :=
  (∀ t (n : Fin 4) (b : Fin 36) s, s.up = true → s.forgs.length = 144 → s.links.length = 4 →
    Completes (.bulkTransferTimeout t n b) s fun r =>
      (∀ u ∈ (r.forg (brickInst n.val b.val)).ups, u ∈ (s.forg (brickInst n.val b.val)).ups ∧ s.time.frame < u.granted + s.parN .linkBulkTimeout) ∧
      (∀ u ∈ (s.forg (brickInst n.val b.val)).ups, u.granted + s.parN .linkBulkTimeout ≤ s.time.frame →
        ∃ c ∈ (r.link n.val).cmds, c.id = 0x0B ∧ c.target = b.val ∧ c.params = [u.object]) ∧
      (∀ d ∈ (s.link n.val).down, ∀ f, d.progress.lookup b.val = some f → f + s.parN .linkBulkTimeout ≤ s.time.frame → (d.acked.lookup b.val).getD 0 < d.total →
        (∃ c ∈ (r.link n.val).cmds, c.id = 0x0B ∧ c.target = b.val ∧ c.params = [d.id]) ∧ (∀ e ∈ (r.link n.val).down, e.id = d.id → e.target ≠ b.val ∧ e.progress.lookup b.val = none)) ∧
      (∀ j, j ≠ brickInst n.val b.val → r.forg j = s.forg j) ∧ (∀ j, j ≠ n.val → r.link j = s.link j) ∧ keepsBut [.time, .links, .forgs, .tagCtr, .recorder] s r) ∧
  (∀ t (n : Fin 4) (b : Fin 36) u s, s.up = true → (s.forg (brickInst n.val b.val)).ups = [u] → u.granted + s.parN .linkBulkTimeout ≤ s.time.frame → (s.link n.val).down = [] →
    Completes (.bulkTransferTimeout t n b) s fun r => r.recorder = (State.raise 0x200C (brickInst n.val b.val) (s.at_ t)).recorder) ∧
  (∀ t (n : Fin 4) (b : Fin 36) s, (∀ u ∈ (s.forg (brickInst n.val b.val)).ups, s.time.frame < u.granted + s.parN .linkBulkTimeout) →
    (∀ d ∈ (s.link n.val).down, ∀ f, d.progress.lookup b.val = some f → s.time.frame < f + s.parN .linkBulkTimeout) →
    exec (.bulkTransferTimeout t n b) s = .next (s.at_ t)) ∧
  (∀ t (n : Fin 4) (b : Fin 36) replaced u s, s.running = true → s.forgs.length = 144 → s.links.length = 4 → (s.forg (brickInst n.val b.val)).uid = some u →
    Completes (.releaseRosterEntry t n b replaced) s fun r =>
      r.forg (brickInst n.val b.val) = { s.forg (brickInst n.val b.val) with release := some replaced } ∧
      (∃ c ∈ (r.link n.val).cmds, c.id = 9 ∧ c.target = b.val ∧ c.params = [u]) ∧ (∀ j, j ≠ brickInst n.val b.val → r.forg j = s.forg j) ∧
      keepsBut [.time, .links, .forgs, .tagCtr] s r) ∧
  (∀ t (n : Fin 4) (b : Fin 36) replaced s, (s.forg (brickInst n.val b.val)).uid = none → exec (.releaseRosterEntry t n b replaced) s = .next (s.at_ t)) ∧
  (∀ t (n : Fin 4) (b : Fin 36) k e s, s.up = true → s.forgs.length = 144 → (s.forg (brickInst n.val b.val)).wires.length = 17 → k < 17 →
    (s.forg (brickInst n.val b.val)).owTest = some { wire := k, endFrame := some e } → e + 150 ≤ s.time.frame →
    Completes (.openWireResultTimeout t n b) s fun r =>
      (r.forg (brickInst n.val b.val)).owTest = none ∧ ((r.forg (brickInst n.val b.val)).wires.getD k {}).retryAt = some (s.time.frame + 100 * s.parN .cellOwRetry) ∧
      (((s.forg (brickInst n.val b.val)).wires.getD k {}).st = 3 → ((r.forg (brickInst n.val b.val)).wires.getD k {}).st = 2) ∧
      (∀ i, i ≠ k → (r.forg (brickInst n.val b.val)).wires.getD i {} = (s.forg (brickInst n.val b.val)).wires.getD i {}) ∧
      r.recorder = (State.raise 0x100E (wireArg n.val b.val k) (s.at_ t)).recorder ∧ (∀ j, j ≠ brickInst n.val b.val → r.forg j = s.forg j) ∧
      keepsBut [.time, .forgs, .recorder] s r) ∧
  (∀ t (n : Fin 4) (b : Fin 36) k e s, (s.forg (brickInst n.val b.val)).owTest = some { wire := k, endFrame := some e } → s.time.frame < e + 150 →
    exec (.openWireResultTimeout t n b) s = .next (s.at_ t)) ∧
  (∀ t (n : Fin 4) (b : Fin 36) k f s, s.up = true → s.forgs.length = 144 → s.links.length = 4 → (s.forg (brickInst n.val b.val)).wires.length = 17 → k < 17 →
    (s.forg (brickInst n.val b.val)).owTest = none → ((s.forg (brickInst n.val b.val)).wires.getD k {}).retryAt = some f → f ≤ s.time.frame →
    (((s.forg (brickInst n.val b.val)).wires.getD k {}).st = 2 ∧ s.parB .cellOwAuto = true ∨ ((s.forg (brickInst n.val b.val)).wires.getD k {}).ordered = true) →
    Completes (.openWireRetry t n b) s fun r =>
      (∃ w, w ≤ k ∧ (r.forg (brickInst n.val b.val)).owTest = some { wire := w, endFrame := none } ∧ ((r.forg (brickInst n.val b.val)).wires.getD w {}).retryAt = none ∧
        ∃ c ∈ (r.link n.val).cmds, c.id = 4 ∧ c.target = b.val ∧ c.params = [2 ^ testCell w, s.parN .cellOwDuration]) ∧
      (∀ j, j ≠ brickInst n.val b.val → r.forg j = s.forg j) ∧ keepsBut [.time, .links, .forgs, .tagCtr] s r) ∧
  (∀ t (n : Fin 4) (b : Fin 36) s, (∀ w ∈ (s.forg (brickInst n.val b.val)).wires, ∀ f, w.retryAt = some f → s.time.frame < f) → exec (.openWireRetry t n b) s = .next (s.at_ t)) ∧
  (∀ t (n : Fin 4) (b : Fin 36) (k : Fin 17) s, s.running = true → s.forgs.length = 144 → s.links.length = 4 → enrolled s n.val b.val = true →
    (s.forg (brickInst n.val b.val)).wires.length = 17 →
    Completes (.openWireTest t n b k) s fun r =>
      ((r.forg (brickInst n.val b.val)).wires.getD k.val {}).ordered = true ∧
      ((s.forg (brickInst n.val b.val)).owTest = none → (r.forg (brickInst n.val b.val)).owTest = some { wire := k.val, endFrame := none } ∧
        ∃ c ∈ (r.link n.val).cmds, c.id = 4 ∧ c.target = b.val ∧ c.params = [2 ^ testCell k.val, s.parN .cellOwDuration]) ∧
      (∀ o, (s.forg (brickInst n.val b.val)).owTest = some o → (r.forg (brickInst n.val b.val)).owTest = some o ∧ r.links = s.links) ∧
      (∀ j, j ≠ brickInst n.val b.val → r.forg j = s.forg j) ∧ keepsBut [.time, .links, .forgs, .tagCtr] s r) ∧
  (∀ t (n : Fin 4) (b : Fin 36) k s, enrolled s n.val b.val = false → exec (.openWireTest t n b k) s = .next (s.at_ t)) ∧
  (∀ t (n : Fin 4) (b : Fin 36) e s, s.running = true → s.forgs.length = 144 → (s.forg (brickInst n.val b.val)).burstEnd = some e → e / 10000000 + s.parN .cellBurstTimeout < s.time.frame →
    Completes (.burstResultTimeout t n b) s fun r =>
      r.forg (brickInst n.val b.val) = { s.forg (brickInst n.val b.val) with burst := if (s.forg (brickInst n.val b.val)).burst = 3 then 3 else 0, burstEnd := none } ∧
      r.recorder = (State.raise 0x100B (brickInst n.val b.val) (s.at_ t)).recorder ∧ (∀ j, j ≠ brickInst n.val b.val → r.forg j = s.forg j) ∧
      keepsBut [.time, .forgs, .recorder] s r) ∧
  (∀ t (n : Fin 4) (b : Fin 36) s, (∀ e, (s.forg (brickInst n.val b.val)).burstEnd = some e → s.time.frame ≤ e / 10000000 + s.parN .cellBurstTimeout) →
    exec (.burstResultTimeout t n b) s = .next (s.at_ t))

/-- The update of the Estimator, complete by 4.0 ms (R156, R159 to R161): a string whose interval is latched counts the change of its channel in use; with neither channel valid it counts 0 while GATE_EN was low and a contactor open, the charge of the frame before in a first gap frame, and 0 in a later one. A cell whose update misses 4.0 ms counts one miss (R157); a string without a latched interval keeps its count. An overrun of the Estimator, of an update still due at 4.0 ms (R157): the string counts go on, every cell of a latched string misses its update and keeps its charge, and 0x300F is raised. Completion: for estimatorUpdate, estimatorOverrun exec answers a next state wherever the conditions of the clause on the command and the state hold. -/
def Obligations.EstimatorUpdates : Prop :=
  (∀ t late s, s.up = true → s.time.frame ≠ 0 → t ≤ s.frameStart + 4000000 → s.est.length = 4 → s.cells.length = 2304 →
    Completes (.estimatorUpdate t late false []) s fun r =>
      (∀ n, n < 4 → (s.estr n).latch = none → r.estr n = s.estr n) ∧
      (∀ n qa qb d, n < 4 → (s.estr n).latch = some (qa, qb, d) →
        (r.estr n).latch = none ∧ (r.estr n).qA = qa ∧ (r.estr n).qB = qb ∧ (r.estr n).qs = (s.estr n).qs + (r.estr n).dq ∧
        ((s.estr n).flags.1 = true → s.par .estISource = 0 → (r.estr n).dq = qa - (s.estr n).qA) ∧
        ((s.estr n).flags.1 = false → (s.estr n).flags.2.1 = true → (r.estr n).dq = qb - (s.estr n).qB) ∧
        ((s.estr n).flags = (false, false, true, true) → (r.estr n).dq = 0) ∧
        ((s.estr n).flags = (false, false, false, false) → (s.estr n).gapRun = 0 → (r.estr n).dq = (s.estr n).dq ∧ r.isRaised 0x300D n = true) ∧
        ((s.estr n).flags = (false, false, false, false) → (s.estr n).gapRun ≠ 0 → (r.estr n).dq = 0 ∧ r.isRaised 0x300E n = true) ∧
        (∀ p, p < cellCount s n → (r.cell (576 * n + p)).missed = if late.contains (576 * n + p) then (s.cell (576 * n + p)).missed + 1 else 0)) ∧
      keepsBut [.time, .est, .cells, .forgs, .links, .tagCtr, .surv, .learned, .recorder] s r) ∧
  (∀ t s, s.up = true → s.time.frame ≠ 0 → s.frameStart + 4000000 ≤ t → (∃ n, n < 4 ∧ (s.estr n).latch.isSome = true) → s.est.length = 4 → s.cells.length = 2304 →
    Completes (.estimatorOverrun t) s fun r =>
      (∀ n p, n < 4 → p < cellCount s n → (s.estr n).latch.isSome = true →
        (r.cell (576 * n + p)).missed = (s.cell (576 * n + p)).missed + 1 ∧ (r.cell (576 * n + p)).q = (s.cell (576 * n + p)).q ∧
        (r.cell (576 * n + p)).qLast = (s.cell (576 * n + p)).qLast) ∧
      (∀ n, n < 4 → (s.estr n).latch.isSome = true → (r.estr n).latch = none ∧ (r.estr n).qs = (s.estr n).qs + (r.estr n).dq) ∧
      r.isRaised 0x300F 0 = true ∧ keepsBut [.time, .est, .cells, .forgs, .recorder] s r)

/-- No charge is lost to an overrun (R157, R162): over an update that was missed and the next one that is made, the charge of a cell, its bleed offset and the forager draw of both intervals together change by exactly the string charge counted since the last update. -/
def Obligations.NoChargeLost : Prop :=
  ∀ (s s' : State) (e1 e2 : EstStr) (x1 x2 : StrIn) (b1 b2 r : Nat) (was c : Cell),
    let u := chargeCell s e2 x2 b2 r (missCell s' e1 x1 b1 was c)
    u.q + u.b + nearest ((s.parN .estForagerIq : Rat) * ((c.owed.1 + x1.tInt + x2.tInt : Nat) : Rat) / 1000000000) = c.q + c.b + (e2.qs - c.qLast) ∧ u.qLast = e2.qs

/-- Start of a survey (R205, R216): with no reason against it the survey of the string stands, and every open rest window closes (R278); with one, the event carries the reason and nothing else changes. The end of a survey without a result: an impedance survey aborts when a condition of R206 holds or an Engineer says so, and keeps no result; a capacity survey ends in its Return phase when a condition of Table 7-5 fails or an Engineer says so (R215), and its string leaves Counting, cause Survey (R164). Completion: for startImpedanceSurvey, startCapacitySurvey, abortImpedanceSurvey, impedanceSurveyAbort, abortCapacitySurvey, capacitySurveyAbort exec answers a next state wherever the conditions of the clause on the command and the state hold. -/
def Obligations.SurveyStartEnd : Prop :=
  (∀ t (n : Fin 4) s, s.running = true → impReason (s.at_ t) n.val = 0 →
    Completes (.startImpedanceSurvey t n) s fun r =>
      (∃ v, r.surv.imp = some v ∧ v.string = n.val ∧ v.frameA = none ∧ v.amp = s.parN .impAmp ∧ v.rate = s.parN .impRate ∧ v.count = s.parN .impCount ∧
        v.took = [] ∧ v.bins = none) ∧
      { r.surv with imp := s.surv.imp } = s.surv ∧ (∀ m, m < 4 → (r.dstr m).restAt = none) ∧ keepsBut [.time, .surv, .disp, .recorder] s r) ∧
  (∀ t (n : Fin 4) s, s.running = true → impReason (s.at_ t) n.val ≠ 0 →
    exec (.startImpedanceSurvey t n) s = .next (State.raise 0x3020 (evArg (impReason (s.at_ t) n.val) n.val) (s.at_ t))) ∧
  (∀ s n, impReason s n = 0 ↔
    s.surv.imp = none ∧ (∀ c, s.surv.cap = some c → c.string ≠ n) ∧ stringClosed s n = true ∧ s.modeIn .impModes = true ∧
    (compSet s n ≠ [] ∨ s.parB .impUncomp = true) ∧ ratAbs (s.reg.act.refs.getD n 0) + 3 * (s.parN .impAmp : Rat) / 100 ≤ limitAlong s n) ∧
  (∀ t (n : Fin 4) s, s.running = true → s.est.length = 4 → capReason (s.at_ t) n.val = 0 →
    Completes (.startCapacitySurvey t n) s fun r =>
      (∃ v, r.surv.cap = some v ∧ v.string = n.val ∧
        ((s.estr n.val).fullAt = none → v.phase = 1 ∧ v.ref = (s.parN .estCapChargeRate : Rat) / 1000 * oneC s) ∧
        (∀ f, (s.estr n.val).fullAt = some f → max s.time.now t ≤ f + 7200000000000 → v.phase = 2 ∧ v.ref = 0)) ∧
      { r.surv with cap := s.surv.cap } = s.surv ∧
      (r.estr n.val).regime = (if (s.estr n.val).regime = .countRecovery then .countRecovery else .countSurvey) ∧
      (∀ m, m ≠ n.val → r.estr m = s.estr m) ∧ (∀ m, m < 4 → (r.dstr m).restAt = none) ∧ keepsBut [.time, .surv, .est, .disp, .recorder] s r) ∧
  (∀ t (n : Fin 4) s, s.running = true → capReason (s.at_ t) n.val ≠ 0 →
    exec (.startCapacitySurvey t n) s = .next (State.raise 0x3026 (evArg (capReason (s.at_ t) n.val) n.val) (s.at_ t))) ∧
  (∀ t v s, s.running = true → s.surv.imp = some v →
    let ended (r : State) : Prop := r.surv.imp = none ∧ r.surv.table = none ∧
      (∀ b, b < 36 → (r.forg (brickInst v.string b)).burst = (s.forg (brickInst v.string b)).burst ∧ (r.forg (brickInst v.string b)).burstRes = none ∧ ∀ u ∈ (r.forg (brickInst v.string b)).ups, u.object ≠ 1) ∧
      (v.frameA.isSome = true → ∃ x, r.surv.fade = some (v, max s.time.now t, x)) ∧
      keepsBut [.time, .links, .tagCtr, .forgs, .surv, .learned, .recorder] s r
    Completes (.abortImpedanceSurvey t) s ended ∧ (impAbortCause (s.at_ t) v ≠ 0 → Completes (.impedanceSurveyAbort t) s ended)) ∧
  (∀ t v s, s.running = true → s.surv.cap = some v → v.phase ≠ 4 → s.est.length = 4 → v.string < 4 →
    let ended (r : State) : Prop := r.surv.cap = some { v with phase := 4 } ∧
      (r.estr v.string).regime = (if (s.estr v.string).regime = .countSurvey then .tracking else (s.estr v.string).regime) ∧
      (∀ m, m ≠ v.string → r.estr m = s.estr m) ∧ keepsBut [.time, .est, .surv, .learned, .recorder] s r
    Completes (.abortCapacitySurvey t) s ended ∧ (capAbortCause (s.at_ t) v ≠ 0 → Completes (.capacitySurveyAbort t) s ended))

/-- The burst of an impedance survey (R196, R200, R201): BURST_ARM is queued to target 63, and the beacon that carries it fixes frame A, t0 and t_end; the current channels are sampled at each burst sample instant; after t_end the bins of the channel in use are kept when the checks of the current hold, and the survey aborts when they do not. The result of an impedance survey (R202 to R204): once every forager that took part has delivered, the shadow of the impedance table holds a row for every measured cell and no other, each by R202 from the results and the bins. Completion: for burstArm, uwbSync, burstCurrentSample, surveyBins, impedanceResult exec answers a next state wherever the conditions of the clause on the command and the state hold. -/
def Obligations.SurveyMeasurement : Prop :=
  (∀ t v s, s.running = true → p3Held s = false → s.surv.imp = some v → v.tag = none → v.string < s.links.length →
    (∀ c ∈ (s.link v.string).cmds, c.id = 3 → c.tries ≠ 0) →
    Completes (.burstArm t) s fun r =>
      (∃ w, r.surv.imp = some w ∧ w.frameA = v.frameA ∧
        (∃ c ∈ (r.link v.string).cmds, c.id = 3 ∧ c.target = 63 ∧ w.tag = some c.tag ∧ c.params = [0, 50000000 / v.rate, v.rate, v.count])) ∧
      (∀ m, m ≠ v.string → r.link m = s.link m) ∧ keepsBut [.time, .links, .tagCtr, .surv] s r) ∧
  (∀ t (n : Fin 4) v s, s.up = true → linkRuns s n.val = true → s.links.length = 4 → (s.link n.val).port = 0 → t = syncAt s n.val →
    s.surv.imp = some v → v.string = n.val → v.frameA = none → (∃ c ∈ beaconCmds s n.val, c.id = 3 ∧ v.tag = some c.tag) →
    Completes (.uwbSync t n) s fun r =>
      (∃ w, r.surv.imp = some w ∧ w.frameA = some s.time.frame ∧
        w.t0 = (s.time.frame + s.parN .impArmLead) * 10000000 + 500000000 / v.rate ∧ w.tEnd = w.t0 + (v.count - 1) * (1000000000 / v.rate) ∧
        (∃ c ∈ (r.link n.val).cmds, c.id = 3 ∧ v.tag = some c.tag ∧ 0 < c.tries ∧
          c.params = [(s.time.frame + s.parN .impArmLead) % 2 ^ 32, 50000000 / v.rate, v.rate, v.count] ++ v.tones)) ∧
      keepsBut [.time, .links, .surv, .recorder, .out] s r) ∧
  (∀ t a b v s, s.running = true → s.surv.imp = some v → v.frameA.isSome = true → v.t0 ≤ t → t ≤ v.tEnd → v.samplesA.length < v.count →
    Completes (.burstCurrentSample t a b) s fun r =>
      (∃ w, r.surv.imp = some w ∧ w.samplesA.length = v.samplesA.length + 1 ∧ w.samplesB.length = v.samplesB.length + 1 ∧ w.st = 3 ∧
        (∀ x, channelVal s (4 * v.string) a = some x → w.samplesA = v.samplesA ++ [x]) ∧
        (∀ x, channelVal s (4 * v.string + 1) b = some x → w.samplesB = v.samplesB ++ [x])) ∧ keepsBut [.time, .surv] s r) ∧
  (∀ t v useB s, s.running = true → p3Held s = false → s.surv.imp = some v → v.frameA.isSome = true → v.tEnd ≤ t → v.bins = none →
    v.useB.getD ((s.estr v.string).inUse == 1) = useB → v.curOk = true →
    (∀ k, k < 3 →
      let x := (v.tones.map (binOf v.samplesA v.rate)).getD k (0, 0)
      let y := (v.tones.map (binOf v.samplesB v.rate)).getD k (0, 0)
      absAbove (x.1 - y.1, x.2 - y.2) ((s.parN .impIAgree : Rat) / 1000) (if useB = true then y else x) = false) →
    ratAbs (sampleMean ((if useB = true then v.samplesB else v.samplesA).take (v.rate / 2)) -
      sampleMean ((if useB = true then v.samplesB else v.samplesA).drop ((if useB = true then v.samplesB else v.samplesA).length - v.rate / 2))) ≤ (s.parN .impIDrift : Rat) / 100 →
    Completes (.surveyBins t) s fun r =>
      r.surv.imp = some { v with bins := some (v.tones.map (binOf (if useB = true then v.samplesB else v.samplesA) v.rate)), st := 4 } ∧ keepsBut [.time, .surv] s r) ∧
  (∀ t v s, s.running = true → p3Held s = false → s.surv.imp = some v → v.frameA.isSome = true → v.tEnd ≤ t → v.bins = none → v.curOk = false →
    exec (.surveyBins t) s = .next (abortImp 5 (s.at_ t))) ∧
  (∀ t v xi s, s.running = true → p3Held s = false → s.surv.imp = some v → v.bins = some xi → s.surv.table = none → (∃ b, b < 36 ∧ (resultOf s v b).isSome = true) →
    (∀ b ∈ v.took, b < 36 ∧ (resultOf s v b).isSome = true) →
    Completes (.impedanceResult t) s fun r =>
      r.surv.imp = some { v with st := 5 } ∧
      (∃ tb, r.surv.table = some tb ∧ tb.string = v.string ∧ tb.frame = v.tEnd / 10000000 ∧
        (∀ row ∈ tb.rows, ∃ p bs, p < cellCount s v.string ∧ p ∉ v.badCells ∧ resultOf s v (p / 16) = some bs ∧ row = impRow s v xi bs p) ∧
        (∀ p bs, p < cellCount s v.string → p ∉ v.badCells → p < 576 → resultOf s v (p / 16) = some bs → impRow s v xi bs p ∈ tb.rows)) ∧
      keepsBut [.time, .surv] s r)

/-- A learned-value write (R220 to R223): the record a Start would choose afterwards is the string's state as it stands, with the cause; while the MRAM write inhibit holds, the write is deferred and 0x302B stands. Completion: for writeLearnedValues exec answers a next state wherever the conditions of the clause on the command and the state hold. -/
def Obligations.LearnedWrite : Prop :=
  (∀ (n cause : Nat) s, n < 4 → s.learned.length = 4 → s.cells.length = 2304 → s.therm.mramInh = false →
    (∃ q, bestRecord (writeLearned n cause s) n = some (recordOf s n q cause)) ∧
    (∀ m, m ≠ n → (writeLearned n cause s).learned.getD m {} = s.learned.getD m {}) ∧ keepsBut [.learned, .surv, .recorder] s (writeLearned n cause s)) ∧
  (∀ t (strings : BitVec 4) s, s.running = true → s.learned.length = 4 → s.cells.length = 2304 → s.therm.mramInh = false →
    Completes (.writeLearnedValues t strings) s fun r =>
      (∀ n, n < 4 → bit strings.toNat n = true → linkOn s n = true → ∃ q, (bestRecord r n).map (fun x => (x.seq, x.cause, x.cells)) = some (q, 4, (stringCells s n).map entryOf)) ∧
      (∀ n, bit strings.toNat n = false ∨ linkOn s n = false → r.learned.getD n {} = s.learned.getD n {}) ∧ keepsBut [.time, .learned, .surv, .recorder] s r) ∧
  (∀ t (strings : BitVec 4) s, s.running = true → s.surv.deferred.length = 4 → s.therm.mramInh = true →
    Completes (.writeLearnedValues t strings) s fun r =>
      r.learned = s.learned ∧
      (∀ n, n < 4 → bit strings.toNat n = true → linkOn s n = true → r.surv.deferred.getD n none = some 4 ∧ r.isRaised 0x302B n = true) ∧
      keepsBut [.time, .surv, .recorder] s r)

/-- LANE_SAMPLE (R230, R235, R248, R249, R252), which acts once in a tick, at the carrier phase of the string: the quantities of Table 8-1 and the compare values of the tick before are kept for the string; an Off loop that is enabled, has a lane and lacks no measurement goes to Automatic from a zero state and requests GATE_EN; an Automatic loop that is no longer enabled, or whose GATE_EN reads low, goes Off with its PWM outputs low; one that runs computes the law and puts its compare values into the shadow; a Manual loop moves each duty towards its target by the slew of reg.manual.slew. Other strings keep their loops. A tick that lacks measurement (R234): in Automatic the compare values and the integrator stay, the tick is counted and 0x4009 stands; after reg.meas.lost.ticks such ticks MEASUREMENT_LOST_STOP stops the converter, withdraws the request for GATE_EN and raises 0x400A. A faulty lane (R257 to R260): a failed check of a lane, counted in it, asks for the spare's takeover, or with no spare for the stop of the string, which TICK_BOUNDARY carries out: GATE_EN off, the lane out of service, and 0x4006. A comparison that fails in the spare, in both, or in neither takes the spare out, with 0x4002, or ends its window. LANE_TAKEOVER lets the spare serve the string from the lane record of the loop while the faulty lane is isolated; one that finds no spare stops the string. Completion: for laneSample, measurementLostStop, tickBoundary, laneTakeover exec answers a next state wherever the conditions of the clause on the command and the state hold. -/
def Obligations.LaneSamples : Prop :=
  (∀ t (n : Fin 4) ch s, s.running = true → t % tickNs = carrierPhase s n.val → (s.loop n.val).workAt ≠ some (t / tickNs) → s.parBit .regStrings n.val = true →
    s.reg.loops.length = 4 → s.guard.gate.length = 4 → s.pwr.vmain = true →
    let q := quantities s n.val ch
    let k := firstRegion s n.val ((q.getD 0 none).bind f32.rat?) ((q.getD 3 none).bind f32.rat?) (s.loop n.val).temp
    let g := gainSet s n.val (s.loop n.val).gset
    let i := lawIn s n.val t g q (s.loop n.val).setChanged
    Completes (.laneSample t n ch .ok) s fun r =>
      (r.loop n.val).i = (q.getD 0 none).bind f32.rat? ∧ (r.loop n.val).vs = (q.getD 3 none).bind f32.rat? ∧
      (r.loop n.val).vc = (q.getD 4 none).bind f32.rat? ∧ (r.loop n.val).vb = (q.getD 5 none).bind f32.rat? ∧ (r.loop n.val).ready = (s.loop n.val).shadow ∧
      (r.loop n.val).workAt = some (t / tickNs) ∧
      ((s.loop n.val).st = .off → s.reg.act.enabled.getD n.val false = true → (s.loop n.val).waitConn = false → (s.loop n.val).lane.isSome = true →
        lacksMeas (gainSet s n.val (regionOf s n.val k).set) q = false →
        (r.loop n.val).st = .auto ∧ (r.loop n.val).gateReq = true ∧ (r.loop n.val).lrec = {} ∧ (r.loop n.val).region = k ∧ gateEn r n.val = permits s n.val) ∧
      ((s.loop n.val).st = .off → s.reg.act.enabled.getD n.val false = false → (r.loop n.val).st = .off) ∧
      ((s.loop n.val).st = .auto → (s.reg.act.enabled.getD n.val false = false ∨ gateEn s n.val = false) →
        (r.loop n.val).st = .off ∧ (r.loop n.val).gateReq = false ∧ (r.loop n.val).pwmLow = true ∧ gateEn r n.val = false) ∧
      ((s.loop n.val).st = .auto → s.reg.act.enabled.getD n.val false = true → gateEn s n.val = true → s.reg.newSets.getD n.val false = false →
        (s.loop n.val).toManual = none → lacksMeas g q = false →
        (r.loop n.val).st = .auto ∧ (r.loop n.val).lrec = (lawTick g i (s.loop n.val).lrec).lrec ∧ (r.loop n.val).duty = (lawTick g i (s.loop n.val).lrec).duty ∧
        (r.loop n.val).shadow = ((lawTick g i (s.loop n.val).lrec).duty.map compareOf) ∧ (r.loop n.val).sat = (lawTick g i (s.loop n.val).lrec).sat ∧ (r.loop n.val).lackRun = 0) ∧
      ((s.loop n.val).st = .manual → s.reg.act.enabled.getD n.val false = true → gateEn s n.val = true → s.reg.newSets.getD n.val false = false →
        (s.loop n.val).toManual = none → (s.loop n.val).toAuto = false → lacksMeas g q = false →
        let v := toF32 ((s.parN .regManualSlew : Rat) / 10000)
        let d := (s.loop n.val).duty.map fun d => f32.add d (fClamp (f32.neg v) v (f32.sub (fClamp i.dLo i.dHi (s.loop n.val).manual) d))
        (r.loop n.val).st = .manual ∧ (r.loop n.val).duty = d ∧ (r.loop n.val).shadow = d.map compareOf) ∧
      (∀ m, m ≠ n.val → r.loop m = s.loop m) ∧ keepsBut [.time, .reg, .est, .guard, .surv, .recorder] s r) ∧
  (∀ t (n : Fin 4) ch s, s.running = true → t % tickNs = carrierPhase s n.val → (s.loop n.val).workAt ≠ some (t / tickNs) → s.parBit .regStrings n.val = true →
    s.reg.loops.length = 4 → (s.loop n.val).st = .auto → (s.loop n.val).toManual = none →
    s.reg.newSets.getD n.val false = false → s.reg.act.enabled.getD n.val false = true → gateEn s n.val = true →
    lacksMeas (gainSet s n.val (s.loop n.val).gset) (quantities s n.val ch) = true →
    Completes (.laneSample t n ch .ok) s fun r =>
      (r.loop n.val).shadow = (s.loop n.val).shadow ∧ (r.loop n.val).duty = (s.loop n.val).duty ∧ (r.loop n.val).lrec.z = (s.loop n.val).lrec.z ∧
      (r.loop n.val).lrec.ua = (s.loop n.val).lrec.ua ∧ (r.loop n.val).lackRun = (s.loop n.val).lackRun + 1 ∧ (r.loop n.val).st = .auto ∧
      r.isRaised 0x4009 n.val = true ∧ (∀ m, m ≠ n.val → r.loop m = s.loop m) ∧ keepsBut [.time, .reg, .est, .surv, .recorder] s r) ∧
  (∀ t (n : Fin 4) s, s.running = true → s.reg.loops.length = 4 → s.disp.strs.length = 4 → s.pwr.vmain = true → ((s.loop n.val).st = .auto ∨ (s.loop n.val).st = .manual) →
    s.parN .regMeasLostTicks ≤ (s.loop n.val).lackRun →
    Completes (.measurementLostStop t n) s fun r =>
      (r.loop n.val).st = .stopMeas ∧ (r.loop n.val).gateReq = false ∧ (r.loop n.val).pwmLow = true ∧ gateEn r n.val = false ∧ r.isRaised 0x400A n.val = true ∧
      ((s.dstr n.val).conn = 5 → (r.dstr n.val).wantDisc = true) ∧ (∀ m, m ≠ n.val → r.loop m = s.loop m ∧ r.dstr m = s.dstr m) ∧
      keepsBut [.time, .reg, .est, .guard, .disp, .recorder] s r) ∧
  (∀ t (n : Fin 4) ch chk k s, s.running = true → t % tickNs = carrierPhase s n.val → (s.loop n.val).workAt ≠ some (t / tickNs) → s.parBit .regStrings n.val = true →
    s.reg.loops.length = 4 → s.reg.lanes.length = 5 → (s.loop n.val).lane = some k → k < 5 →
    Completes (.laneSample t n ch chk) s fun r =>
      ((chk = .selfError ∨ chk = .overrun) → (spareLane s = none → (r.loop n.val).laneStop = true ∧ r.reg.takeover = s.reg.takeover) ∧
        ((spareLane s).isSome = true → r.reg.takeover = some n.val)) ∧
      (chk = .selfError → (r.reg.lanes.getD k {}).checkFails = (s.reg.lanes.getD k {}).checkFails + 1) ∧
      (chk = .overrun → (r.reg.lanes.getD k {}).overruns = (s.reg.lanes.getD k {}).overruns + 1) ∧
      (∀ j, shadowLane s n.val = some j → j ≠ k →
        ((chk = .shadowActive ∨ chk = .shadowSpare ∨ chk = .shadowBoth ∨ chk = .shadowOpen) →
          (r.reg.lanes.getD k {}).shadowDiffs = (s.reg.lanes.getD k {}).shadowDiffs + 1) ∧
        (chk = .shadowActive → s.reg.takeover = none → r.reg.takeover = some n.val) ∧
        ((chk = .shadowSpare ∨ chk = .shadowBoth ∨ chk = .spareSelf ∨ chk = .spareOverrun) → (r.reg.lanes.getD j {}).st = 3 ∧ r.isRaised 0x4002 0 = true) ∧
        (chk = .shadowOpen → (r.reg.lanes.getD j {}).st = 2 ∧ r.reg.windowEnded = true)) ∧
      (shadowLane s n.val = none → chk ≠ .selfError → chk ≠ .overrun → r.reg.takeover = s.reg.takeover ∧ ∀ m, (r.reg.lanes.getD m {}).st = (s.reg.lanes.getD m {}).st) ∧
      (∀ m, m ≠ n.val → r.loop m = s.loop m) ∧ keepsBut [.time, .reg, .est, .guard, .surv, .recorder] s r) ∧
  (∀ t d (n : Fin 4) k s, s.running = true → t % tickNs = 0 → s.reg.loops.length = 4 → s.reg.lanes.length = 5 → s.guard.gate.length = 4 → s.pwr.vmain = true →
    (s.loop n.val).laneStop = true → (s.loop n.val).lane = some k → k < 5 → (∀ m, m < 4 → m ≠ n.val → (s.loop m).lane ≠ some k) →
    Completes (.tickBoundary t d) s fun r =>
      (r.loop n.val).st = .stopLane ∧ (r.loop n.val).lane = none ∧ (r.loop n.val).gateReq = false ∧ gateEn r n.val = false ∧ (r.reg.lanes.getD k {}).st = 3 ∧
      r.isRaised 0x4006 n.val = true) ∧
  (∀ t n j k s, s.running = true → s.reg.loops.length = 4 → s.reg.lanes.length = 5 → n < 4 → j < 5 → k < 5 → j ≠ k → s.reg.takeover = some n →
    spareLane (s.modReg fun r => { r with takeover := none }) = some j → (s.loop n).lane = some k →
    Completes (.laneTakeover t) s fun r =>
      (r.loop n) = { s.loop n with lane := some j } ∧ (r.reg.lanes.getD j {}).st = 0 ∧ (r.reg.lanes.getD j {}).string = some n ∧
      (r.reg.lanes.getD j {}).lrec = (s.loop n).lrec ∧ (r.reg.lanes.getD k {}).st = 3 ∧ (r.reg.lanes.getD k {}).string = none ∧ r.reg.takeover = none ∧
      r.isRaised 0x4002 0 = true ∧ (∀ m, m ≠ n → r.loop m = s.loop m) ∧ keepsBut [.time, .reg, .bist, .recorder] s r) ∧
  (∀ t (n : Fin 4) k s, s.running = true → s.reg.loops.length = 4 → s.reg.lanes.length = 5 → s.guard.gate.length = 4 → s.pwr.vmain = true → k < 5 → s.reg.takeover = some n.val →
    spareLane (s.modReg fun r => { r with takeover := none }) = none → (s.loop n.val).lane = some k →
    Completes (.laneTakeover t) s fun r =>
      (r.loop n.val).st = .stopLane ∧ (r.loop n.val).lane = none ∧ gateEn r n.val = false ∧ (r.reg.lanes.getD k {}).st = 3 ∧ r.reg.takeover = none ∧
      r.isRaised 0x4006 n.val = true ∧ (∀ m, m ≠ n.val → r.loop m = s.loop m) ∧ keepsBut [.time, .reg, .est, .guard, .disp, .recorder] s r)

/-- The law keeps its duties within their limits (R235, R236): in mode 0 no duty of a tick in Automatic lies below D_lo or above D_hi. -/
def Obligations.DutyLimits : Prop :=
  ∀ (g : GainSet) (i : LawIn) (r : LaneRec), g.mode1 = false → f32.lt i.dHi i.dLo = false →
    ∀ d ∈ (lawTick g i r).duty, f32.lt d i.dLo = false ∧ f32.lt i.dHi d = false

/-- Commands of the PWM unit and the loops: at a turning point of its carriers the compare values of the tick before are loaded and set the edges of the outputs, which are low unless the loop runs with GATE_EN high (R251, R252, R254); long saturation raises 0x4008 (R247); at a tick boundary the value of SD_D18 joins its mean (R267), a decided region takes force, and, off the frame boundary, so do tables that came late (R22, R243). Engineer commands to a loop (R248, R249): Manual duty in Commission or Service sets the target of a loop that runs, and is refused with 0x400E otherwise; Automatic asks a Manual loop to return, changes nothing in Automatic and is refused with 0x400F elsewhere. Completion: for pwmTurningPoint, outputSaturated, tickBoundary, manualDuty, automatic exec answers a next state wherever the conditions of the clause on the command and the state hold. -/
def Obligations.LoopCommands : Prop :=
  (∀ t (n : Fin 4) s, s.running = true → s.reg.loops.length = 4 → turningPoint s n.val t = true →
    let run := ((s.loop n.val).st = .auto ∨ (s.loop n.val).st = .manual) ∧ gateEn s n.val = true
    let leg (x : Nat) : List (Nat × Bool × Nat) := legEdges x (counterOf s n.val x t) ((s.loop n.val).ready.getD x 0) (s.parN .regPwmDead) t
    Completes (.pwmTurningPoint t n) s fun r =>
      (r.loop n.val).cmp = (s.loop n.val).ready ∧ ((r.loop n.val).pwmLow = false ↔ run) ∧
      (run → r.out = Output.pwm n.val (leg 0 ++ leg 1) :: s.out) ∧ (¬ run → r.out = s.out) ∧
      { r.loop n.val with cmp := (s.loop n.val).cmp, pwmLow := (s.loop n.val).pwmLow } = s.loop n.val ∧ (∀ m, m ≠ n.val → r.loop m = s.loop m) ∧
      keepsBut [.time, .reg, .out] s r) ∧
  (∀ t (n : Fin 4) s j, s.running = true → j ∈ (s.loop n.val).satRun → s.parN .regSatReport ≤ j →
    Completes (.outputSaturated t n) s fun r => r.isRaised 0x4008 n.val = true ∧ keepsBut [.time, .recorder] s r) ∧
  (∀ t d s, s.running = true → t % tickNs = 0 → s.reg.loops.length = 4 →
    Completes (.tickBoundary t d) s fun r =>
      (∀ n k, n < 4 → (s.loop n).regionNext = some k → ((s.loop n).st = .auto ∨ (s.loop n).st = .manual) → (s.loop n).laneStop = false →
        (r.loop n).region = k ∧ (r.loop n).gset = (regionOf s n k).set ∧ (r.loop n).regionNext = none ∧ (r.loop n).dwell = 0 ∧
        (r.loop n).changes = (s.loop n).changes + 1) ∧
      (∀ n, n < 4 → (s.loop n).regionNext = none → (s.loop n).laneStop = false → (s.loop n).latchDue = false → r.loop n = s.loop n) ∧
      (∀ x, s.reg.shadow = some x → s.reg.swapLate = true → t % frameNs ≠ 0 → r.reg.act = x ∧ r.reg.shadow = s.reg.shadowAfter ∧ r.disp.act.strs = s.disp.strs) ∧
      (s.reg.swapLate = false → r.reg.act = s.reg.act ∧ r.reg.shadow = s.reg.shadow ∧ r.disp.act = s.disp.act) ∧
      r.reg.ana = (if t % frameNs = 0 then (0, 0, true) else (s.reg.ana.1 + density 256 d.bits, s.reg.ana.2.1 + 1, s.reg.ana.2.2 && (channelVal s 18 d).isSome)) ∧
      ((∀ n, n < 4 → (s.loop n).laneStop = false) → r.reg.lanes = s.reg.lanes) ∧ keepsBut [.time, .reg, .est, .disp, .guard, .recorder] s r) ∧
  (∀ t (n : Fin 4) (d : BitVec 16) s, s.running = true → s.reg.loops.length = 4 → (s.boot.mode = .commission ∨ s.boot.mode = .service) →
    ((s.loop n.val).st = .auto ∨ (s.loop n.val).st = .manual) →
    Completes (.manualDuty t n d) s fun r =>
      r.loop n.val = { s.loop n.val with toManual := some (toF32 ((d.toNat : Rat) / 10000)) } ∧ (∀ m, m ≠ n.val → r.loop m = s.loop m) ∧ keepsBut [.time, .reg] s r) ∧
  (∀ t (n : Fin 4) (d : BitVec 16) s, s.running = true → ((s.boot.mode ≠ .commission ∧ s.boot.mode ≠ .service) ∨ (s.loop n.val).st = .off) →
    exec (.manualDuty t n d) s = .next (State.raise 0x400E n.val (s.at_ t))) ∧
  (∀ t (n : Fin 4) s, s.running = true → s.reg.loops.length = 4 → (s.loop n.val).st = .manual →
    Completes (.automatic t n) s fun r => r.loop n.val = { s.loop n.val with toAuto := true } ∧ (∀ m, m ≠ n.val → r.loop m = s.loop m) ∧ keepsBut [.time, .reg] s r) ∧
  (∀ t (n : Fin 4) s, s.running = true → (s.loop n.val).st = .auto → exec (.automatic t n) s = .next (s.at_ t)) ∧
  (∀ t (n : Fin 4) s, s.running = true → (s.loop n.val).st ≠ .manual → (s.loop n.val).st ≠ .auto → exec (.automatic t n) s = .next (State.raise 0x400F n.val (s.at_ t)))

/-- Die sensors (R292, R299, R300), read in the 1 ms gate of the frame with r = 0: the temperature of a count by its trim; a reading out of band, or a count that stays therm.die.stuck rounds, breaks the sensor, which then reads +150.0 degC with 0xA004 and stays broken. Derating (R303): with its throttle level below its shut-off level, a factor is 1 up to the first, 0 from the second on, always from 0 to 1, and never rises with the temperature. Completion: for roundDieSensors exec answers a next state wherever the conditions of the clause on the command and the state hold. -/
def Obligations.DieTemperature : Prop :=
  (∀ t counts s, s.up = true → s.roundPos = 0 → s.frameStart + 6000000 ≤ t → t ≤ s.frameStart + 7000000 → s.therm.dies.length = 6 →
    Completes (.roundDieSensors t counts) s fun r =>
      r.therm.dieAt = some s.time.frame ∧
      (∀ d, d < 6 → dieDisabled s d = false →
        let x := s.therm.dies.getD d {}
        let y := r.therm.dies.getD d {}
        let v := dieTemp (s.therm.trim.getD d (8000, 9000)).1 (s.therm.trim.getD d (8000, 9000)).2 (counts.getD d 0)
        ((x.broken = true ∨ v < -550 ∨ 1400 < v ∨ s.parN .thermDieStuck ≤ y.same) → y.broken = true ∧ y.temp = some 1500) ∧
        (x.broken = false → -550 ≤ v → v ≤ 1400 → y.same < s.parN .thermDieStuck → y.broken = false ∧ y.temp = some (wholeUnits v)) ∧
        (x.temp.isSome = true → x.count = counts.getD d 0 → y.same = x.same + 1) ∧
        (x.broken = false → y.broken = true → r.isRaised 0xA004 d = true)) ∧
      keepsBut [.time, .therm, .recorder] s r) ∧
  (∀ thr sh t u : Int, thr < sh →
    (t ≤ thr → derate thr sh t = 1) ∧ (sh ≤ t → derate thr sh t = 0) ∧ 0 ≤ derate thr sh t ∧ derate thr sh t ≤ 1 ∧ (t ≤ u → derate thr sh u ≤ derate thr sh t))

/-- Messages held for their latch (R44, R267, R268, R272): a host set-point within disp.p.max is held with its timestamp, one beyond it is refused with 0x4022, an allowance of the host is held; of the messages held, the one latched is the latest that is at or before the latch instant. The source in use and the allowance (R269, R271, R272): a source that a command names takes force at the next frame boundary; after disp.loss.hold the hold of a lost source ends; with disp.src.revert the primary returns after disp.src.revert_t; an allowance of the source of disp.allow.source that is not latched in time is lost, with 0x4024, and the configured one is in force. Completion: for hostSetpoint, hostAllowance, selectSetpointSource, lossHoldExpiry, sourceRevert, allowanceTimeout exec answers a next state wherever the conditions of the clause on the command and the state hold. -/
def Obligations.SetPoints : Prop :=
  (∀ t (w : Int) s, s.running = true → ratAbs (w : Rat) ≤ pMax s →
    Completes (.hostSetpoint t w) s fun r =>
      r.disp.hostHeld = (w, t) :: s.disp.hostHeld ∧ { r.disp with hostHeld := s.disp.hostHeld } = s.disp ∧ keepsBut [.time, .disp] s r) ∧
  (∀ t (w : Int) s, s.running = true → pMax s < ratAbs (w : Rat) → exec (.hostSetpoint t w) s = .next (State.raise 0x4022 0 (s.at_ t))) ∧
  (∀ t (c d : BitVec 16) s, s.running = true →
    Completes (.hostAllowance t c d) s fun r =>
      r.disp.allowHost = ((c.toNat, d.toNat), t) :: s.disp.allowHost ∧ { r.disp with allowHost := s.disp.allowHost } = s.disp ∧ keepsBut [.time, .disp] s r) ∧
  (∀ (l : Nat) (xs : List (Int × Nat)),
    (∀ v u, latest l xs = some (v, u) → (v, u) ∈ xs ∧ u ≤ l ∧ ∀ x ∈ xs, x.2 ≤ l → x.2 ≤ u) ∧ (latest l xs = none → ∀ x ∈ xs, l < x.2)) ∧
  (∀ t b s, s.running = true → (b = false ∨ s.parN .dispSrcBackup ≠ 255) →
    Completes (.selectSetpointSource t b) s fun r =>
      r.disp = { s.disp with select := some b } ∧ (applySelect r).disp.onBackup = b ∧ (applySelect r).disp.select = none ∧ keepsBut [.time, .disp] s r) ∧
  (∀ t s, s.running = true → s.disp.loss = 1 → s.disp.lossAt + s.parN .dispLossHold * 1000000 ≤ t →
    Completes (.lossHoldExpiry t) s fun r => r.disp = { s.disp with loss := 2 } ∧ keepsBut [.time, .disp] s r) ∧
  (∀ t a s, s.running = true → s.disp.primOkAt = some a → s.parB .dispSrcRevert = true → s.disp.onBackup = true → a + s.parN .dispSrcRevertT * 1000000000 ≤ t →
    Completes (.sourceRevert t) s fun r => r.disp = { s.disp with onBackup := false, primOkAt := none } ∧ keepsBut [.time, .disp, .recorder] s r) ∧
  (∀ t k s, s.running = true → k < 2 → s.parN .dispAllowSource = k + 1 → s.disp.allowLost.length = 2 →
    (match s.disp.allow.getD k none with | some (_, u) => u | none => s.boot.endT) + s.parN .dispAllowTimeout * 1000000 ≤ max s.time.now t →
    Completes (.allowanceTimeout t) s fun r =>
      { r.disp with allowLost := s.disp.allowLost } = s.disp ∧ r.disp.allowLost.getD k false = true ∧ r.disp.allowLost.getD (1 - k) false = s.disp.allowLost.getD (1 - k) false ∧ r.isRaised 0x4024 0 = true ∧ allowance r = (s.parN .dispAllowChg, s.parN .dispAllowDis) ∧
      keepsBut [.time, .disp, .recorder] s r)

/-- No string is given more than it may take (R274, R276): every share that the allocation gives lies within the greatest power of its string in the direction of the reference. -/
def Obligations.SharesWithinLimits : Prop :=  ∀ s (p surv : Rat) (shared : List Nat) (n : Nat) (x : Rat), (n, x) ∈ allocate s p surv shared → ratAbs x ≤ pMaxOf s p n

/-- Connection by command (R282): with none of the six reasons against it the string is to be connected; otherwise 0x402C carries the reason and nothing else changes. The bus voltage is that of the published frame. Disconnection, clearing and rest windows by command or time (R278, R284, R286, R287): a disconnection is asked for in a connected string and withdraws a connection that has not begun; a failed string whose three feedbacks show open becomes open with its requests withdrawn; a rest window closes by command, or after the disp.rest.t that it opened with; a disconnection that has lasted the disp.disc.tmax that it began with goes Off at current, with 0x402B. Completion: for connectString, disconnectString, clearFailedConnection, closeRestWindow, restWindowExpiry, disconnectionTmax exec answers a next state wherever the conditions of the clause on the command and the state hold. -/
def Obligations.StringCommands : Prop :=
  (∀ t (n : Fin 4) s, s.running = true → s.disp.strs.length = 4 → connectReason (s.at_ t) n.val = 0 →
    Completes (.connectString t n) s fun r =>
      r.dstr n.val = { s.dstr n.val with wantConn := true, why := .command } ∧ (∀ m, m ≠ n.val → r.dstr m = s.dstr m) ∧ keepsBut [.time, .disp] s r) ∧
  (∀ t (n : Fin 4) s, s.running = true → connectReason (s.at_ t) n.val ≠ 0 →
    exec (.connectString t n) s = .next (State.raise 0x402C (evArg (connectReason (s.at_ t) n.val) n.val) (s.at_ t))) ∧
  (∀ s n, connectReason s n = 0 ↔
    (s.boot.mode = .commission ∨ s.boot.mode = .operate ∨ s.boot.mode = .service) ∧ s.parBit .regStrings n = true ∧ (s.dstr n).conn = 0 ∧ (s.dstr n).wantConn = false ∧
    (∀ k, k < 3 → cfbClosed s n k = false) ∧ permits s n = true ∧ ∃ v, (s.asSeen.loop n).pub.vb = some v ∧ (s.parN .regVbusMin : Rat) ≤ v ∧ v ≤ (s.parN .regVbusMax : Rat)) ∧
  (∀ t (n : Fin 4) s, s.running = true → s.disp.strs.length = 4 → (s.dstr n.val).wantConn = false → 1 ≤ (s.dstr n.val).conn → (s.dstr n.val).conn ≤ 5 →
    Completes (.disconnectString t n) s fun r =>
      r.dstr n.val = { s.dstr n.val with wantDisc := true, why := .command } ∧ (∀ m, m ≠ n.val → r.dstr m = s.dstr m) ∧ keepsBut [.time, .disp] s r) ∧
  (∀ t (n : Fin 4) s, s.running = true → s.disp.strs.length = 4 → (s.dstr n.val).wantConn = true →
    Completes (.disconnectString t n) s fun r =>
      r.dstr n.val = { s.dstr n.val with wantConn := false } ∧ (∀ m, m ≠ n.val → r.dstr m = s.dstr m) ∧ keepsBut [.time, .disp] s r) ∧
  (∀ t (n : Fin 4) s, s.running = true → s.disp.strs.length = 4 → s.pwr.vmain = true → (s.dstr n.val).conn = 7 → (∀ k, k < 3 → cfbClosed s n.val k = false) →
    Completes (.clearFailedConnection t n) s fun r =>
      (r.dstr n.val).conn = 0 ∧ (r.dstr n.val).opening = 0 ∧ (∀ k, k < 3 → ctrReq r n.val k = false ∧ ctrOut r n.val k = false) ∧
      (∀ m, m ≠ n.val → r.dstr m = s.dstr m) ∧ keepsBut [.time, .disp, .guard, .est, .recorder] s r) ∧
  (∀ t (n : Fin 4) s, s.running = true → (s.dstr n.val).conn ≠ 7 → exec (.clearFailedConnection t n) s = .next (State.raise 0x402F (evArg 1 n.val) (s.at_ t))) ∧
  (∀ t (n : Fin 4) s, s.running = true → s.disp.strs.length = 4 → (s.dstr n.val).restAt.isSome = true →
    Completes (.closeRestWindow t n) s fun r =>
      (r.dstr n.val).restAt = none ∧ (r.dstr n.val).restEnd = some (max s.time.now t) ∧ r.recorder = (State.raise 0x4026 n.val (s.at_ t)).recorder ∧
      (∀ m, m ≠ n.val → r.dstr m = s.dstr m) ∧ keepsBut [.time, .disp, .recorder] s r) ∧
  (∀ t (n : Fin 4) a s, s.running = true → s.disp.strs.length = 4 → (s.dstr n.val).restAt = some a → a + (s.dstr n.val).restT * 1000000000 ≤ t →
    Completes (.restWindowExpiry t n) s fun r =>
      (r.dstr n.val).restAt = none ∧ (r.dstr n.val).restEnd = some (max s.time.now t) ∧ (∀ m, m ≠ n.val → r.dstr m = s.dstr m) ∧ keepsBut [.time, .disp] s r) ∧
  (∀ t (n : Fin 4) s, s.running = true → s.disp.strs.length = 4 → (s.dstr n.val).conn = 6 → (s.dstr n.val).opening = 4 →
    (s.dstr n.val).discAt + (s.dstr n.val).seq.discTmax * 1000000 ≤ t →
    Completes (.disconnectionTmax t n) s fun r =>
      r.dstr n.val = { s.dstr n.val with opening := 5 } ∧ enabledOf r n.val = false ∧ r.recorder = (State.raise 0x402B n.val (s.at_ t)).recorder ∧
      (∀ m, m ≠ n.val → r.dstr m = s.dstr m) ∧ keepsBut [.time, .disp, .recorder] s r)

/-- A connection that fails (R283, R284, R287, R612), by the times in force as its sequence began: a contactor that has not shown its state disp.ctr.t_fb after its request, or a precharge still short disp.pre.tmax after the precharge contactor showed closed, ends the sequence in failed, and its opening begins at the next frame boundary; the event is 0x4029, for the precharge 0x4028. While a string opens, a contactor that stays closed makes it failed too; only a connection's own opening goes on. The order of Table 9-5 (R283), at a frame boundary: a contactor newly requested closed is the negative one as the sequence begins, the precharge one once the negative shows closed, or the positive one once the precharge has ended. Completion: for connectionTimeout exec answers a next state wherever the conditions of the clause on the command and the state hold. -/
def Obligations.ConnectionOrder : Prop :=
  (∀ t (n : Fin 4) s, s.running = true → s.disp.strs.length = 4 →
    let d := s.dstr n.val
    let above := d.reqAt + d.seq.tFb * 1000000 ≤ t
    let failed (code : Nat) : Prop := Completes (.connectionTimeout t n) s fun r =>
      r.dstr n.val = { d with conn := 7, opening := 1, failing := true, seenAt := none, why := .reaction } ∧ r.recorder = (State.raise code n.val (s.at_ t)).recorder ∧
      (∀ m, m ≠ n.val → r.dstr m = s.dstr m) ∧ keepsBut [.time, .disp, .recorder] s r
    (above → d.conn = 1 → cfbClosed s n.val 1 = false → failed 0x4029) ∧
    (above → d.conn = 2 → d.seenAt = none → failed 0x4029) ∧
    (∀ a, d.conn = 2 → d.seenAt = some a → a + d.seq.preTmax * 1000000 ≤ t → prechargeOk s n.val = false → failed 0x4028) ∧
    (above → d.conn = 3 → d.seenAt = none → failed 0x4029) ∧
    (above → d.conn = 4 → cfbClosed s n.val 2 = true → failed 0x4029) ∧
    (above → d.conn = 6 → openPending s n.val = true → Completes (.connectionTimeout t n) s fun r =>
      r.dstr n.val = { d with conn := 7, failing := true, opening := if d.opening = 2 ∨ d.opening = 3 ∨ d.opening = 9 then d.opening else 0 } ∧
      r.recorder = (State.raise 0x4029 n.val (s.at_ t)).recorder ∧ (∀ m, m ≠ n.val → r.dstr m = s.dstr m) ∧ keepsBut [.time, .disp, .recorder] s r)) ∧
  (∀ s n, n < 4 → s.disp.strs.length = 4 →
    ((s.dstr n).reqNeg = false → ((connectStep n s).dstr n).reqNeg = true → (s.dstr n).conn = 0 ∧ (s.dstr n).wantConn = true ∧ ((connectStep n s).dstr n).conn = 1) ∧
    ((s.dstr n).reqPre = false → ((connectStep n s).dstr n).reqPre = true → (s.dstr n).conn = 1 ∧ cfbClosed s n 1 = true ∧ ((connectStep n s).dstr n).conn = 2) ∧
    ((s.dstr n).reqPos = false → ((connectStep n s).dstr n).reqPos = true → (s.dstr n).conn = 2 ∧ prechargeOk s n = true ∧ ((connectStep n s).dstr n).conn = 3))

/-- FRAME_BOUNDARY (R31, R36, R45, R378): the boundary of the frame after the running one opens it: its number is one higher, the sample offset announced becomes the running one, the edges of PULSE_IN begin anew, uplinks of the frame before are let go, the interval latched becomes the one to be updated, the arbiter has the requests of the classes, and the tables that dispatch built take force, or stay in their shadows when the control path came late. Any other instant is not this boundary and changes nothing (log 6). SAMPLE_INSTANT (R36, R39, R62, R158), once in a frame at its offset: the net counts and clocks of each string grow by those of the interval, the interval to be updated is latched with the validity of its ticks, state items keep the values in force, and the GPIO levels are latched. Completion: for frameBoundary, sampleInstant exec answers a next state wherever the conditions of the clause on the command and the state hold. -/
def Obligations.FrameWork : Prop :=
  (∀ t req lines fails late s, s.up = true → s.time.framesOn = true → t / 10000000 = s.time.frame + 1 → s.upd.actFrame = none → s.upd.beginFrame = none →
    Completes (.frameBoundary t req lines fails late) s fun r =>
      r.time.frame = s.time.frame + 1 ∧ r.time.sCur = s.time.sNext ∧ r.time.sNext = (if late then s.time.sNext else s.time.sShadow) ∧
      r.time.syncAge = s.time.syncAge + 1 ∧ r.time.pulse = {} ∧ r.time.now = max s.time.now t ∧ r.core.evalDone = false ∧
      (∀ j, (r.forg j).up = none ∧ (r.forg j).own = false) ∧ (∀ n, n < 4 → s.est.length = 4 → (r.estr n).latch = (s.estr n).latchNext ∧ (r.estr n).latchNext = none) ∧ r.pwr.req = req ∧
      (late = true → r.reg.act = s.reg.act) ∧ (late = false → s.running = true → ∀ x, s.reg.shadow = some x → r.reg.act = x)) ∧
  (∀ t req lines fails late s, t / 10000000 ≠ s.time.frame + 1 → exec (.frameBoundary t req lines fails late) s = .next s) ∧
  (∀ t net k ch gpio s, s.up = true → s.time.framesOn = true → s.workDue 0 = true → t = s.frameStart + s.time.sCur → s.est.length = 4 →
    Completes (.sampleInstant t net k ch gpio) s fun r =>
      (∀ n, n < 4 →
        (r.estr n).nA = (s.estr n).nA + net.getD (2 * n) 0 ∧ (r.estr n).nB = (s.estr n).nB + net.getD (2 * n + 1) 0 ∧ (r.estr n).k = (s.estr n).k + k ∧
        (∃ i, (r.estr n).latchNext = some (chargeCount s (4 * n) (r.estr n).nA (r.estr n).k, chargeCount s (4 * n + 1) (r.estr n).nB (r.estr n).k, i)) ∧
        (r.estr n).flagsNext = ((s.estr n).okA, (s.estr n).okB, (s.estr n).gateLow, (s.estr n).ctrOpen) ∧ (r.estr n).okA = true ∧ (r.estr n).okB = true ∧
        (r.estr n).qs = (s.estr n).qs) ∧
      r.comb.snapPrev = s.comb.snap ∧ r.comb.published = s.comb.published ∧ r.comb.sampleTimes.head? = some (s.time.frame, max s.time.now t) ∧ r.prog.gpioIn = gpio ∧
      r.workDue 0 = false ∧ r.time.frame = s.time.frame ∧ keepsBut [.time, .est, .reg, .comb, .prog] s r)

/-- COMB_PUBLICATION (R47, R48, R266), 5.0 ms into a frame and once in it, also in the frames of Start: Comb frame K-1 is published in frame K, the frame published before becomes the previous one, every area that its writer has not closed is counted, and after Start dispatch hands its tables over. At another instant, and a second time in a frame, nothing is published. Completion: for combPublication exec answers a next state wherever the conditions of the clause on the command and the state hold. -/
def Obligations.CombPublication : Prop :=
  (∀ t late s, s.up = true → s.time.framesOn = true → s.time.firstFrame + 1 ≤ s.time.frame → t = s.frameStart + 5000000 → s.comb.published.map (·.frame) ≠ some (s.time.frame - 1) →
    Completes (.combPublication t late) s fun r =>
      (r.comb.published.map (·.frame)) = some (s.time.frame - 1) ∧ r.comb.previous = s.comb.published ∧ r.comb.writer = s.comb.previous ∧ r.comb.late = late ∧
      r.pwr.missed = s.pwr.missed + ((List.range 13).filter fun a => a != 0 && late.getLsbD a).length ∧ (s.running = true → r.reg.shadow.isSome = true) ∧ r.reg.act = s.reg.act ∧
      r.time.frame = s.time.frame ∧ keepsBut [.time, .comb, .pwr, .forgs, .reg, .can, .recorder, .est, .guard, .therm, .prog, .tagCtr, .surv, .disp, .links, .boot] s r) ∧
  (∀ t late s, (t ≠ s.frameStart + 5000000 ∨ s.comb.published.map (·.frame) = some (s.time.frame - 1)) →
    Completes (.combPublication t late) s fun r => r.comb = s.comb ∧ keepsBut [.time] s r)

/-- GATE_EN of a string is high only under both permits (R17): every step keeps it so, whatever the command; and no command of the Guard turns a contactor output on without both permits. -/
def Obligations.GuardOutputsSafe : Prop :=
  (∀ s r, (∀ n, n < 4 → gateSafe s n) → step s = .next r → ∀ n, n < 4 → gateSafe r n) ∧
  (∀ c s, guardCommand c = true → guardUp s = true → Completes c s fun r => ∀ n k, n < 4 → k < 3 → ctrOut r n k = true → ctrOut s n k = true ∨ permits r n = true)

/-- The output permit stage (R17, R326, R327): on PERMIT_WITHDRAWN GATE_EN and the contactor outputs of the string follow the requests under both permits; with a permit withdrawn GATE_EN is low and no contactor output turns on. A contactor output is released 20 ms after GATE_EN went low, or after 200 us of low current. A loss of VGUARD takes every output off and leaves the Guard without a latch. The lines between the safety core and the stage (R316, R325): a toggle renews the permit line of each string that the safety core grants, and the alive line; a permit line lapses 60 us, the alive line 100 us after its last toggle, and GATE_EN of a lapsed string is low; an SCV of the Guard that is no longer the one of Start is a channel fault with 0x500D. Completion: for permitWithdrawn, contactorRelease, vguardLoss, aliveToggle, permitLapse, guardScvRecompute exec answers a next state wherever the conditions of the clause on the command and the state hold. -/
def Obligations.PermitStage : Prop :=
  (∀ t (n : Fin 4) s, s.pwr.vmain = true → s.guard.gate.length = 4 → s.guard.ctr.length = 12 →
    Completes (.permitWithdrawn t n) s fun r =>
      gateEn r n.val = (permits s n.val && (s.loop n.val).gateReq) ∧
      (∀ k, k < 3 → ctrOut r n.val k = (if permits s n.val then ctrReq s n.val k else ctrOut s n.val k && ctrReq s n.val k)) ∧
      (∀ m k, m ≠ n.val → k < 3 → gateEn r m = gateEn s m ∧ ctrOut r m k = ctrOut s m k) ∧ keepsBut [.time, .est, .guard] s r) ∧
  (∀ t (n : Fin 4) g s, s.guard.gateLowAt.getD n.val none = some g → guardUp s = true →
    (g + 20000000 ≤ t ∨ ∃ a, s.guard.lowSince.getD n.val none = some a ∧ max a g + 200000 ≤ t) →
    Completes (.contactorRelease t n) s fun r => (permits r n.val = false → ∀ k, k < 3 → ctrOut r n.val k = false) ∧ keepsBut [.time, .est, .guard, .recorder] s r) ∧
  (∀ t s, Completes (.vguardLoss t) s fun r =>
    (∀ n k, gateEn r n = false ∧ ctrOut r n k = false) ∧ (∀ k, (r.guard.latch.getD k {}).on = false) ∧ r.guard.cfb = s.guard.cfb ∧ r.pwr.vguard = false ∧
    { r.pwr with vguard := s.pwr.vguard } = s.pwr ∧ keepsBut [.time, .guard, .pwr] s r) ∧
  (∀ t s, s.up = true → s.core.aliveOn = true → guardUp s = true → s.guard.line.length = 4 → s.guard.toggled.length = 4 →
    Completes (.aliveToggle t) s fun r =>
      r.guard.alive = true ∧ r.guard.aliveAt = max s.time.now t ∧
      (∀ n, n < 4 → s.core.permit.getD n false = true → r.guard.line.getD n false = true ∧ r.guard.toggled.getD n 0 = max s.time.now t) ∧
      (∀ n, n < 4 → s.core.permit.getD n false = false → r.guard.line.getD n false = s.guard.line.getD n false ∧ r.guard.toggled.getD n 0 = s.guard.toggled.getD n 0) ∧
      keepsBut [.time, .est, .guard] s r) ∧
  (∀ t s, guardUp s = true →
    Completes (.permitLapse t) s fun r =>
      (∀ n, n < 4 → s.guard.toggled.getD n 0 + 60000 ≤ t → r.guard.line.getD n false = false ∧ gateEn r n = false) ∧
      (∀ n, max s.time.now t < s.guard.toggled.getD n 0 + 60000 → r.guard.line.getD n false = s.guard.line.getD n false) ∧
      (s.guard.aliveAt + 100000 ≤ t → r.guard.alive = false) ∧ keepsBut [.time, .est, .guard, .core, .recorder] s r) ∧
  (∀ t s, guardUp s = true → s.guard.params.isSome = true →
    (Completes (.guardScvRecompute t false) s fun r =>
      r.guard.scvBad = true ∧ r.core.faults.getLsbD 1 = true ∧ r.isRaised 0x500D 0 = true ∧ keepsBut [.time, .est, .guard, .core, .recorder] s r) ∧
    Completes (.guardScvRecompute t true) s fun r => r.guard.scvBad = false ∧ keepsBut [.time, .est, .guard] s r)

/-- Values and means of the Guard's channels (R312): a value, which is invalid once the modulator clock has lain outside 19.0 to 21.0 MHz for 10 us (four values of 3.2 us, the model's choice, log 37) or after 128 clocks of one level, keeps its calibrated reading, counts how often in a row it lay beyond the limit of its channel, and joins the sum of its millisecond; a mean, with the values that are formed at its end, moves the heartbeat on, is kept under it and begins a new sum. The Guard trips (R317, R321): the second value in a row beyond safe.oc.i in a granted string latches that string with SF1, and a trip input that goes low latches the granted group with SF8; GATE_EN of the strings concerned is low in the same state. Completion: for guardValue, guardMean, tripInputChange exec answers a next state wherever the conditions of the clause on the command and the state hold. -/
def Obligations.GuardValues : Prop :=
  (∀ t ch s, guardUp s = true → s.guard.chans.length = 10 →
    Completes (.guardValue t ch) s fun r =>
      (∀ i v, i < 10 → ch[i]? = some v →
        let x := density 64 v.d.bits
        let y := guardCal s i x
        let bad := clkBad (s.at_ t) v (gchan s i) || decide (128 ≤ quietClocks v.d.bits)
        let full := decide ((95 : Rat) / 100 < ratAbs x)
        let above := if i < 8 then full || decide ((gpar s .safeOcI : Rat) / 10 < ratAbs y) else (full && decide (0 ≤ x)) || decide ((gpar s .safeVbusMax : Rat) < y)
        (gchan r i).invalid = bad ∧ (gchan r i).clkOut = clkOutside (s.at_ t) v (gchan s i) ∧ (gchan r i).val = (if bad then none else some y) ∧ (gchan r i).run = (if !bad && above then min 255 ((gchan s i).run + 1) else 0) ∧
        (gchan r i).sum = (if bad then (gchan s i).sum else ((gchan s i).sum.1 + y, (gchan s i).sum.2 + 1))) ∧
      (∀ i, ch[i]? = none → gchan r i = gchan s i) ∧ r.guard.heartbeat = s.guard.heartbeat ∧ keepsBut [.time, .est, .guard] s r) ∧
  (∀ t ch s, guardUp s = true → s.guard.chans.length = 10 →
    Completes (.guardMean t ch) s fun r =>
      let u := if ch = [] then s else formValues ch (s.at_ t)
      r.guard.heartbeat = (s.guard.heartbeat + 1) % 2 ^ 32 ∧ r.guard.hbAt = t ∧
      (∀ i, i < 10 → (gchan r i).sum = (0, 0) ∧ (gchan r i).means.head? = some (r.guard.heartbeat,
        if (gchan u i).invalid = true ∨ (gchan u i).sum.2 = 0 then none else some ((gchan u i).sum.1 / ((gchan u i).sum.2 : Rat)))) ∧
      keepsBut [.time, .est, .guard] s r) ∧
  (∀ t ch (n : Fin 4) (v : GuardDens) s, guardUp s = true → guarded s n.val = true → s.guard.granted.getD n.val false = true → s.guard.chans.length = 10 →
    s.guard.latch.length = 5 → s.guard.sticky.length = 5 → s.guard.hazards.getD n.val 0 &&& sf 1 = 0 → 1 ≤ (gchan s (2 * n.val)).run → ch[2 * n.val]? = some v →
    clkBad (s.at_ t) v (gchan s (2 * n.val)) = false → quietClocks v.d.bits < 128 → (gpar s .safeOcI : Rat) / 10 < ratAbs (guardCal s (2 * n.val) (density 64 v.d.bits)) →
    Completes (.guardValue t ch) s fun r =>
      (r.guard.latch.getD n.val {}).on = true ∧ r.guard.sticky.getD n.val 0 &&& sf 1 = sf 1 ∧ permits r n.val = false ∧ gateEn r n.val = false) ∧
  (∀ t a b s, guardUp s = true → s.guard.granted.getD 4 false = true → s.guard.latch.length = 5 → s.guard.sticky.length = 5 →
    s.guard.hazards.getD 4 0 &&& sf 8 = 0 → (a && b) = false →
    Completes (.tripInputChange t a b) s fun r =>
      r.guard.tripA = a ∧ r.guard.tripB = b ∧ (r.guard.latch.getD 4 {}).on = true ∧ r.guard.sticky.getD 4 0 &&& sf 8 = sf 8 ∧ (∀ n, n < 4 → gateEn r n = false) ∧
      keepsBut [.time, .est, .guard] s r)

/-- Fault loops and trip inputs (R313, R314, SF9): a driven edge toggles the output of every guarded string and waits; the same transition within 200 us, whose level holds for 2 us (Table 23-11), returns it, a later one does not, and the eighth edge missed in a row stops the loop; trip inputs that differ for safe.trip.disc are a discrepancy. Contactor feedback (R314, R317): the level of a feedback input is kept; an output that is on with its feedback open for safe.fb.t latches its granted string with SF15, and one that is off with its feedback closed for safe.weld.t marks the contactor welded and latches the string with SF16. Completion: for floopEdgeDrive, floopInEdge, floopEdgeNotReturned, tripDiscrepancy, cfbChange, contactorFeedbackFault, contactorWeld exec answers a next state wherever the conditions of the clause on the command and the state hold. -/
def Obligations.GuardInputs : Prop :=
  (∀ t s, guardUp s = true → s.guard.floops.length = 4 →
    Completes (.floopEdgeDrive t) s fun r =>
      (∀ n, n < 4 → guarded s n = true → floop r n = { floop s n with out := !(floop s n).out, edge := some (max s.time.now t) }) ∧
      (∀ n, guarded s n = false → floop r n = floop s n) ∧ keepsBut [.time, .est, .guard] s r) ∧
  (∀ t held (n : Fin 4) high s, held < 2000 → guardUp s = true → Completes (.floopInEdge { at_ := t, held := held } n high) s fun r => r.guard.floops = s.guard.floops) ∧
  (∀ t held (n : Fin 4) e s, guardUp s = true → 2000 ≤ held → s.guard.floops.length = 4 → (floop s n.val).edge = some e →
    Completes (.floopInEdge { at_ := t, held := held } n (floop s n.val).out) s fun r =>
      (floop r n.val).inn = (floop s n.val).out ∧
      (t ≤ e + 200000 → (floop r n.val).edge = none ∧ (floop r n.val).missed = 0 ∧ (floop r n.val).back = min 255 ((floop s n.val).back + 1)) ∧
      (e + 200000 < t → (floop r n.val).edge = some e ∧ (floop r n.val).back = (floop s n.val).back) ∧
      (∀ m, m ≠ n.val → floop r m = floop s m) ∧ keepsBut [.time, .est, .guard] s r) ∧
  (∀ t (n : Fin 4) e s, guardUp s = true → s.guard.floops.length = 4 → (floop s n.val).edge = some e → e + 200000 ≤ t →
    Completes (.floopEdgeNotReturned t n) s fun r =>
      (floop r n.val).edge = none ∧ (floop r n.val).back = 0 ∧ (floop r n.val).missed = min 255 ((floop s n.val).missed + 1) ∧
      ((floop r n.val).stop = true ↔ (floop s n.val).stop = true ∨ 8 ≤ (floop s n.val).missed + 1) ∧
      (∀ m, m ≠ n.val → floop r m = floop s m) ∧ keepsBut [.time, .est, .guard] s r) ∧
  (∀ t d s, guardUp s = true → s.guard.tripDiff = some d → d + (gpar s .safeTripDisc).toNat * 1000000 ≤ t →
    Completes (.tripDiscrepancy t) s fun r => r.guard.tripDisc = true ∧ keepsBut [.time, .est, .guard] s r) ∧
  (∀ t (n : Fin 4) (k : Fin 3) closed s, guardUp s = true → s.guard.cfb.length = 12 →
    Completes (.cfbChange t n k closed) s fun r =>
      cfbClosed r n.val k.val = closed ∧ (∀ m j, (m ≠ n.val ∨ j ≠ k.val) → m < 4 → j < 3 → cfbClosed r m j = cfbClosed s m j) ∧
      keepsBut [.time, .est, .guard, .disp, .recorder] s r) ∧
  (∀ t (n : Fin 4) (k : Fin 3) s, guardUp s = true → s.guard.latch.length = 5 → s.guard.sticky.length = 5 → fbFault (s.at_ t) (3 * n.val + k.val) = true →
    guarded s n.val = true → s.guard.granted.getD n.val false = true →
    Completes (.contactorFeedbackFault t n k) s fun r =>
      (r.guard.latch.getD n.val {}).on = true ∧ r.guard.sticky.getD n.val 0 &&& sf 15 = sf 15 ∧ gateEn r n.val = false ∧ (s.up = true → r.isRaised 0x500C n.val = true) ∧
      keepsBut [.time, .est, .guard, .recorder] s r) ∧
  (∀ t (n : Fin 4) (k : Fin 3) s, guardUp s = true → s.guard.latch.length = 5 → s.guard.sticky.length = 5 → s.guard.weld.length = 12 →
    weldFault (s.at_ t) (3 * n.val + k.val) = true → guarded s n.val = true → s.guard.granted.getD n.val false = true →
    Completes (.contactorWeld t n k) s fun r =>
      r.guard.weld.getD (3 * n.val + k.val) false = true ∧ (r.guard.latch.getD n.val {}).on = true ∧ r.guard.sticky.getD n.val 0 &&& sf 16 = sf 16 ∧
      gateEn r n.val = false ∧ (s.up = true → r.isRaised 0x500B n.val = true) ∧ keepsBut [.time, .est, .guard, .recorder] s r)

/-- A valid press, a rise 0.2 s to 5 s after the fall (R332): of the Guard's latches it clears exactly those set before the fall whose hazard is absent, whatever reset request the safety core holds. Completion: for resetNRise exec answers a next state wherever the conditions of the clause on the command and the state hold. -/
def Obligations.GuardReset : Prop :=
  ∀ t tr f s, guardUp s = true → s.guard.stuck = false → s.guard.tF = some f → f + 200000000 ≤ tr → tr ≤ f + 5000000000 → tr + 20000000 ≤ t → s.guard.latch.length = 5 →
    Completes (.resetNRise t tr) s fun r =>
      r.guard.press = some (f, tr) ∧ r.guard.tF = none ∧ r.guard.resetHigh = true ∧
      (∀ k, k < 5 → (s.guard.latch.getD k {}).on = true →
        ((r.guard.latch.getD k {}).on = false ↔ (s.guard.latch.getD k {}).setAt < f ∧ (guardHazards (s.at_ t)).getD k 0 = 0)) ∧ keepsBut [.time, .est, .guard] s r

/-- RESET_N (R314, R331, R333, R334): a level that has not held for 20 ms does not count; a fall notes its time; a rise sooner than 0.2 s after it is no press and raises 0x5005; a level held low for 5 s is stuck, with 0x5009 and no scope left in Reset armed; 1 s high ends that; the reset window closes 10 s after the request, when no press that may still count is under way or waits. A reset request (R330): it arms the scopes it names when each of them is Locked, RESET_N is high and healthy, the SCV holds and no hazard of them is present; otherwise it changes nothing but the record of 0x5004 with the first condition that fails. Completion: for resetNFall, resetNRise, stuckReset, stuckResetClear, resetWindowClose exec answers a next state wherever the conditions of the clause on the command and the state hold. -/
def Obligations.ResetInput : Prop :=
  (∀ t tf tr s, guardUp s = true → (t < tf + 20000000 → Completes (.resetNFall t tf) s fun r => r.guard.tF = s.guard.tF ∧ r.guard.resetHigh = s.guard.resetHigh) ∧
    (t < tr + 20000000 → Completes (.resetNRise t tr) s fun r => r.guard.tF = s.guard.tF ∧ r.guard.press = s.guard.press ∧ r.guard.resetHigh = s.guard.resetHigh)) ∧
  (∀ t tf s, guardUp s = true → tf + 20000000 ≤ t →
    Completes (.resetNFall t tf) s fun r => r.guard.tF = (if s.guard.stuck then none else some tf) ∧ r.guard.resetHigh = false ∧ r.guard.resetAt = tf ∧ keepsBut [.time, .est, .guard] s r) ∧
  (∀ t tr f s, s.up = true → guardUp s = true → s.guard.stuck = false → s.guard.tF = some f → tr < f + 200000000 → tr + 20000000 ≤ t →
    Completes (.resetNRise t tr) s fun r =>
      r.guard.press = s.guard.press ∧ r.guard.tF = none ∧ r.recorder = (State.raise 0x5005 0 (s.at_ t)).recorder ∧ keepsBut [.time, .est, .guard, .recorder] s r) ∧
  (∀ t f s, s.up = true → guardUp s = true → s.guard.resetHigh = false → s.guard.tF = some f → f + 5000000000 ≤ t →
    Completes (.stuckReset t) s fun r =>
      r.guard.stuck = true ∧ r.guard.press = none ∧ r.guard.tF = none ∧ r.core.tAcc = none ∧ r.isRaised 0x5009 0 = true ∧ (∀ k, scopeSt r k ≠ .resetArmed) ∧
      (∀ k, scopeSt s k ≠ .resetArmed → scopeSt r k = scopeSt s k) ∧ keepsBut [.time, .est, .guard, .core, .recorder] s r) ∧
  (∀ t s, guardUp s = true → s.guard.resetHigh = true → s.guard.resetAt + 1000000000 ≤ t →
    Completes (.stuckResetClear t) s fun r => r.guard.stuck = false ∧ r.guard.inFault = false ∧ r.isRaised 0x5009 0 = false ∧ keepsBut [.time, .est, .guard, .recorder] s r) ∧
  (∀ t a s, s.running = true → s.core.tAcc = some a → a + 10020000000 < t → (∀ f p, s.guard.press = some (f, p) → a + 10000000000 < pressEnd s p) →
    Completes (.resetWindowClose t) s fun r =>
      r.core.tAcc = none ∧ (∀ k, scopeSt r k = if scopeSt s k = .resetArmed then .locked else scopeSt s k) ∧ keepsBut [.time, .core, .recorder] s r) ∧
  (∀ mask request ts s,
    let named := (List.range 5).filter fun k => bit mask k
    (resetReason s named = 0 ↔
      (∀ k ∈ named, scopeSt s k = .locked ∧ scopeHazards s k = 0) ∧ s.guard.resetHigh = true ∧ s.guard.stuck = false ∧ s.guard.inFault = false ∧ s.core.scvOk = true) ∧
    (resetReason s named = 0 → s.core.scope.length = 5 →
      let r := resetRequest mask request ts s
      r.core.tAcc = some ts ∧ r.core.lastReq = request ∧ (∀ k, k < 5 → scopeSt r k = if bit mask k then .resetArmed else scopeSt s k) ∧ keepsBut [.core, .recorder] s r) ∧
    (resetReason s named ≠ 0 → resetRequest mask request ts s = State.raise 0x5004 (evArg (resetReason s named) 0) s))

/-- The evaluation of the safety core (R315, R320, R322), once in a frame from 5.0 ms to 6.0 ms: it grants the permit of a string exactly when the string is set in safe.strings and its scope and the group are Armed, keeps its latches in MRAM, clears the Guard's sticky bits and takes every unit stamped by 5.0 ms of the frame; one not done by 6.0 ms stops the alive line and latches the group with SF20. The safety core trips on overcurrent (R315, R320, R322, SF1): when the frame mean of channel A of an Armed string, as the published frame has it, lies beyond safe.oc.i, the evaluation latches the string with SF1 and withdraws its permit. Completion: for safetyEvaluation, safetyEvaluationMissed exec answers a next state wherever the conditions of the clause on the command and the state hold. -/
def Obligations.SafetyEvaluation : Prop :=
  (∀ t ok s, evaluating s = true → s.frameStart + 5000000 ≤ t → t ≤ s.frameStart + 6000000 →
    Completes (.safetyEvaluation t ok) s fun r =>
      r.core.evalDone = true ∧ r.core.aliveOn = ok ∧
      r.core.permit = (List.range 4).map (fun n => cored s n && r.core.scope.getD n .start == .armed && r.core.scope.getD 4 .start == .armed) ∧
      pairLater r.boot.latchStore = some (r.core.latch, r.core.causes) ∧ r.guard.sticky = List.replicate 5 0 ∧ r.guard.press = none ∧
      (∀ u ∈ r.core.buffer, s.frameStart + 5000000 < u.ts) ∧ keepsBut [.time, .core, .guard, .boot, .can, .recorder, .out] s r) ∧
  (∀ t s, evaluating s = true → s.frameStart + 6000000 ≤ t → s.core.latch.length = 5 → s.core.causes.length = 5 → s.core.scope.length = 5 →
    Completes (.safetyEvaluationMissed t) s fun r =>
      r.core.aliveOn = false ∧ r.core.latch.getD 4 false = true ∧ r.core.causes.getD 4 0 &&& sf 20 = sf 20 ∧ r.core.permit = [false, false, false, false] ∧
      r.isRaised 0x500D 0 = true ∧ keepsBut [.time, .core, .boot, .recorder] s r) ∧
  (∀ t ok (n : Fin 4) v s, evaluating s = true → s.frameStart + 5000000 ≤ t → t ≤ s.frameStart + 6000000 →
    s.comb.published.isSome = true → cored s n.val = true → s.core.latch.length = 5 → s.core.causes.length = 5 → s.core.scope.length = 5 →
    scopeSt s n.val = .armed → meanAmp (s.asSeen.estr n.val).aItem = some v → (cpar s .safeOcI : Rat) / 10 < ratAbs v →
    Completes (.safetyEvaluation t ok) s fun r =>
      r.core.latch.getD n.val false = true ∧ r.core.causes.getD n.val 0 &&& sf 1 = sf 1 ∧ (scopeSt r n.val = .tripping ∨ scopeSt r n.val = .locked) ∧
      r.core.permit.getD n.val false = false)

/-- Nothing but a press on RESET_N rearms (R330, R333): a scope that is Locked when an evaluation begins, while the Guard holds no press, is Locked or Reset armed after it, and its strings have no permit of the safety core. -/
def Obligations.NoRearmWithoutPress : Prop :=
  ∀ t ok k s, evaluating s = true → s.frameStart + 5000000 ≤ t → t ≤ s.frameStart + 6000000 → k < 5 → s.core.scope.length = 5 → scopeSt s k = .locked → s.guard.press = none →
    Completes (.safetyEvaluation t ok) s fun r =>
      (scopeSt r k = .locked ∨ scopeSt r k = .resetArmed) ∧ ∀ n, n < 4 → (k = n ∨ k = 4) → r.core.permit.getD n false = false

/-- Units of the safety layer reach the endpoint buffer (R352): a UDP unit of a channel in use, to the module's address and safe.fsl.udp.port, whose frame is no later copy, while fewer than 32 wait; a datagram for another port is none; with 32 it is rejected and 0x5020 is raised; a CAN unit is the oldest FSL frame of FIFO 0. At the evaluation of a frame a connection whose deadline has passed expires with 0x5023, and a trip connection latches the group with SF19 (R354, R355). A unit whose CRC does not hold is counted and moves no sequence number or deadline (R353, R356); one that passes every check sets both (R355). Completion: for fslUnitReceived, fslWatchdogExpiry exec answers a next state wherever the conditions of the clause on the command and the state hold. -/
def Obligations.SafetyLayerUnits : Prop :=
  (∀ t h bytes s, s.up = true → laterCopy t h s = false → udpTaken s (cpar s .safeFslUdpPort).toNat h = false →
    Completes (.fslUnitReceived t (.udp h bytes)) s fun r => keepsBut [.time, .host] s r) ∧
  (∀ t h bytes s, laterCopy t h s = true → exec (.fslUnitReceived t (.udp h bytes)) s = .next (s.at_ t)) ∧
  (∀ t h bytes s, s.up = true → laterCopy t h s = false → udpTaken s (cpar s .safeFslUdpPort).toNat h = true → fslChannel s 0 = true → s.core.buffer.length < 32 →
    Completes (.fslUnitReceived t (.udp h bytes)) s fun r =>
      r.core.buffer = s.core.buffer ++ [{ bytes := bytes, can := false, ts := t }] ∧ { r.core with buffer := s.core.buffer } = s.core ∧ keepsBut [.time, .core, .host] s r) ∧
  (∀ t h bytes s, s.up = true → laterCopy t h s = false → udpTaken s (cpar s .safeFslUdpPort).toNat h = true → fslChannel s 0 = true → 32 ≤ s.core.buffer.length →
    Completes (.fslUnitReceived t (.udp h bytes)) s fun r =>
      r.core = { s.core with rejected := s.core.rejected + 1 } ∧ r.isRaised 0x5020 0 = true ∧ keepsBut [.time, .core, .host, .recorder] s r) ∧
  (∀ t (p : Fin 2) f rest s, s.up = true → fslChannel s 1 = true → s.core.buffer.length < 32 → s.can.ports.length = 2 →
    takeFrame (fun f => idClass s f.ext f.id == 3) (canPort s p.val).fifo0 = some (f, rest) →
    Completes (.fslUnitReceived t (.can p)) s fun r =>
      r.core.buffer = s.core.buffer ++ [{ bytes := f.data, can := true, ts := f.ts }] ∧ (canPort r p.val).fifo0 = rest ∧ (∀ j, j ≠ p.val → canPort r j = canPort s j) ∧
      keepsBut [.time, .core, .can] s r) ∧
  (∀ t (k : Fin 8) s, s.running = true → s.core.conns.length = 8 → s.core.latch.length = 5 → s.core.causes.length = 5 → s.core.scope.length = 5 →
    (fslConn s k.val).st = .running → (fslConn s k.val).deadline ≤ s.frameStart + 5000000 → s.frameStart + 5000000 ≤ t → t ≤ s.frameStart + 6000000 → (∀ u ∈ s.core.buffer, pduConn u.bytes ≠ connId s k.val) →
    Completes (.fslWatchdogExpiry t k) s fun r =>
      (fslConn r k.val).st = .expired ∧ r.isRaised 0x5023 k.val = true ∧ (∀ j, j ≠ k.val → fslConn r j = fslConn s j) ∧
      (4 ≤ k.val → r.core.latch.getD 4 false = true ∧ r.core.causes.getD 4 0 &&& sf 19 = sf 19 ∧ r.core.permit = [false, false, false, false]) ∧
      keepsBut [.time, .core, .boot, .recorder] s r) ∧
  (∀ k (u : FslUnit) s, k < 8 → s.core.conns.length = 8 → fslCrcOk (connId s k) u.bytes = false →
    (fslConn (checkUnit k u s) k).lastSeq = (fslConn s k).lastSeq ∧ (fslConn (checkUnit k u s) k).deadline = (fslConn s k).deadline ∧
    (fslConn (checkUnit k u s) k).errs = (fslConn s k).errs + 1 ∧ (∀ j, j ≠ k → fslConn (checkUnit k u s) j = fslConn s j)) ∧
  (∀ k (u : FslUnit) s, k < 8 → s.core.conns.length = 8 → fslCrcOk (connId s k) u.bytes = true → typeOk k u.bytes = true → wdOk s u.bytes = true →
    seqDist (fslConn s k) u.bytes = none →
    (fslConn (checkUnit k u s) k).st = .running ∧ (fslConn (checkUnit k u s) k).lastSeq = some (pduSeq u.bytes) ∧
    (fslConn (checkUnit k u s) k).deadline = u.ts + pduWd u.bytes * 1000000 ∧ (∀ j, j ≠ k → fslConn (checkUnit k u s) j = fslConn s j))

/-- A PDU of the module passes the checks of its consumer (R347, R348, R352): its CRC over the configured ID holds, its length fits, and every field reads back as it was written. -/
def Obligations.FslPduRoundTrip : Prop :=
  ∀ (id seq wd typ : Nat) (body : List Byte), body.length ≤ 32 →
    let p := fslPdu id seq wd typ body
    fslCrcOk id p = true ∧ lengthOk { bytes := p, can := false, ts := 0 } = true ∧ pduConn p = id % 2 ^ 32 ∧ pduSeq p = seq % 2 ^ 32 ∧ pduWd p = wd % 2 ^ 16 ∧
    pduType p = typ % 2 ^ 8 ∧ pduBody p = body

/-- Reception and transmission (R420 to R422): a frame of an identifier that the module takes enters FIFO 0, a CANopen frame on the port of the manager FIFO 1, with both stamps; a full FIFO counts the frame and raises 0x6033; a remote frame is discarded. An entry not sent by its time leaves the transmit queue. The state of a port (R419, R423): bus-off and error-passive stand as 0x6031 and 0x6030; recovery begins can.busoff.wait after bus-off, and error-active ends both events; a rate found leads to listen-only and, in mode 3, to normal at the next frame boundary; a rate not found in its dwell gives way to the next one. SETPOINT (R424, R426): the set-point and the allowances that its flags mark valid are held with the timestamp of the frame, a set-point beyond disp.p.max only raising 0x4022; a copy within 20 ms is dropped; a frame of another length is rejected whole, counted and raises 0x6035. Completion: for canFrameReceived, canTxRemoval, canErrorState, canBusoffRecovery, canAutobaud, setpoint exec answers a next state wherever the conditions of the clause on the command and the state hold. -/
def Obligations.CanPorts : Prop :=
  (∀ sof ts (p : Fin 2) id ext data s, s.up = true → portHears s p.val = true → s.can.ports.length = 2 →
    (idClass s ext id = 1 ∨ idClass s ext id = 2 ∨ idClass s ext id = 3) → (canPort s p.val).fifo0.length < 64 →
    Completes (.canFrameReceived sof ts p id ext false data) s fun r =>
      canPort r p.val = { canPort s p.val with fifo0 := (canPort s p.val).fifo0 ++ [{ id := id, ext := ext, data := data, sof := sof, ts := ts }] } ∧
      (∀ j, j ≠ p.val → canPort r j = canPort s j) ∧ { r.can with ports := s.can.ports } = s.can ∧ keepsBut [.time, .can] s r) ∧
  (∀ sof ts (p : Fin 2) id ext data s, s.up = true → portHears s p.val = true → s.can.ports.length = 2 →
    idClass s ext id = 4 → s.parN .canCoPort = p.val → (canPort s p.val).fifo1.length < 64 →
    Completes (.canFrameReceived sof ts p id ext false data) s fun r =>
      canPort r p.val = { canPort s p.val with fifo1 := (canPort s p.val).fifo1 ++ [{ id := id, ext := ext, data := data, sof := sof, ts := ts }] } ∧
      (∀ j, j ≠ p.val → canPort r j = canPort s j) ∧ { r.can with ports := s.can.ports } = s.can ∧ keepsBut [.time, .can] s r) ∧
  (∀ sof ts (p : Fin 2) id ext data s, s.up = true → portHears s p.val = true → s.can.ports.length = 2 →
    (idClass s ext id = 1 ∨ idClass s ext id = 2 ∨ idClass s ext id = 3) → 64 ≤ (canPort s p.val).fifo0.length →
    Completes (.canFrameReceived sof ts p id ext false data) s fun r =>
      canPort r p.val = { canPort s p.val with overflow := (canPort s p.val).overflow + 1 } ∧ r.recorder = (State.raiseRound 0x6033 p.val (s.at_ ts)).recorder ∧
      (∀ j, j ≠ p.val → canPort r j = canPort s j) ∧ keepsBut [.time, .can, .recorder] s r) ∧
  (∀ sof ts (p : Fin 2) id ext data s, exec (.canFrameReceived sof ts p id ext true data) s = .next (s.at_ ts)) ∧
  (∀ t s, s.up = true → s.can.ports.length = 2 →
    Completes (.canTxRemoval t) s fun r =>
      (∀ p, p < 2 → canPort r p = { canPort s p with tx := (canPort s p).tx.filter fun e => !txExpired t e }) ∧ { r.can with ports := s.can.ports } = s.can ∧
      keepsBut [.time, .can, .recorder] s r) ∧
  (∀ t (p : Fin 2) s, s.up = true → s.can.ports.length = 2 → ((canPort s p.val).st = 1 ∨ (canPort s p.val).st = 2) →
    Completes (.canErrorState t p 2) s fun r =>
      (canPort r p.val) = { canPort s p.val with st := 3, recovering := false, offAt := some t, busoff := (canPort s p.val).busoff + 1 } ∧
      (∀ j, j ≠ p.val → canPort r j = canPort s j) ∧ r.isRaised 0x6031 p.val = true ∧ keepsBut [.time, .can, .recorder] s r) ∧
  (∀ t (p : Fin 2) s, s.up = true → s.can.ports.length = 2 → (canPort s p.val).st = 1 →
    Completes (.canErrorState t p 1) s fun r =>
      (canPort r p.val).st = 2 ∧ (∀ j, j ≠ p.val → canPort r j = canPort s j) ∧ r.isRaised 0x6030 p.val = true ∧ keepsBut [.time, .can, .recorder] s r) ∧
  (∀ t (p : Fin 2) s, s.up = true → s.can.ports.length = 2 → ((canPort s p.val).st = 2 ∨ (canPort s p.val).st = 3 ∧ (canPort s p.val).recovering = true) →
    Completes (.canErrorState t p 0) s fun r =>
      (canPort r p.val).st = 1 ∧ (∀ j, j ≠ p.val → canPort r j = canPort s j) ∧ r.isRaised 0x6030 p.val = false ∧ r.isRaised 0x6031 p.val = false ∧
      keepsBut [.time, .can, .recorder] s r) ∧
  (∀ t (p : Fin 2) a s, s.up = true → s.can.ports.length = 2 → (canPort s p.val).st = 3 → (canPort s p.val).offAt = some a → a + s.parN .canBusoffWait * 1000000 ≤ t →
    Completes (.canBusoffRecovery t p) s fun r =>
      (canPort r p.val) = { canPort s p.val with recovering := true } ∧ (∀ j, j ≠ p.val → canPort r j = canPort s j) ∧ keepsBut [.time, .can] s r) ∧
  (∀ t (p : Fin 2) s, s.up = true → s.can.ports.length = 2 → (canPort s p.val).st = 5 →
    Completes (.canAutobaud t p true) s fun r =>
      (canPort r p.val) = { canPort s p.val with st := 4, toNormal := s.parN .canPortMode p.val == 3 } ∧ (∀ j, j ≠ p.val → canPort r j = canPort s j) ∧
      r.recorder = (State.raise 0x6032 p.val (s.at_ t)).recorder ∧ keepsBut [.time, .can, .recorder] s r) ∧
  (∀ t (p : Fin 2) s, s.up = true → s.can.ports.length = 2 → (canPort s p.val).st = 5 → (canPort s p.val).dwellAt + s.parN .canAutobaudDwell * 1000000 ≤ t →
    Completes (.canAutobaud t p false) s fun r =>
      (canPort r p.val) = { canPort s p.val with rate := nextBusRate (canPort s p.val).rate, dwellAt := t } ∧ (∀ j, j ≠ p.val → canPort r j = canPort s j) ∧
      keepsBut [.time, .can] s r) ∧
  (∀ t (p : Fin 2) f rest s, s.up = true → takeFrame (fun f => idClass s f.ext f.id == 1) (canPort s p.val).fifo0 = some (f, rest) → f.data.length = 12 →
    isCopy s f.id (ofLE ((f.data.drop 8).take 1)) f.ts = false →
    let flags := ofLE ((f.data.drop 9).take 1)
    let beyond := pMax s < ratAbs ((signed 32 (ofLE (f.data.take 4)) : Int) : Rat)
    Completes (.setpoint t p) s fun r =>
      (canPort r p.val).fifo0 = rest ∧ isCopy r f.id (ofLE ((f.data.drop 8).take 1)) f.ts = true ∧
      (bit flags 0 = true → ¬beyond → r.disp.busHeld = (signed 32 (ofLE (f.data.take 4)), f.ts) :: s.disp.busHeld) ∧
      (bit flags 0 = false ∨ beyond → r.disp.busHeld = s.disp.busHeld) ∧
      (bit flags 0 = true → beyond → r.recorder = (State.raise 0x4022 0 (s.at_ t)).recorder) ∧ (bit flags 0 = false ∨ ¬beyond → r.recorder = s.recorder) ∧
      r.disp.allowBus = (if bit flags 1 then [((ofLE ((f.data.drop 4).take 2), ofLE ((f.data.drop 6).take 2)), f.ts)] else []) ++ s.disp.allowBus ∧
      { r.disp with busHeld := s.disp.busHeld, allowBus := s.disp.allowBus } = s.disp ∧ keepsBut [.time, .can, .disp, .recorder] s r) ∧
  (∀ t (p : Fin 2) f rest s, s.up = true → takeFrame (fun f => idClass s f.ext f.id == 1) (canPort s p.val).fifo0 = some (f, rest) → f.data.length = 12 →
    isCopy s f.id (ofLE ((f.data.drop 8).take 1)) f.ts = true →
    Completes (.setpoint t p) s fun r => (canPort r p.val).fifo0 = rest ∧ keepsBut [.time, .can] s r) ∧
  (∀ t (p : Fin 2) f rest s, s.up = true → takeFrame (fun f => idClass s f.ext f.id == 1) (canPort s p.val).fifo0 = some (f, rest) → f.data.length ≠ 12 →
    Completes (.setpoint t p) s fun r =>
      canPort r p.val = { canPort s p.val with fifo0 := rest, lenRej := (canPort s p.val).lenRej + 1 } ∧ r.recorder = (State.raiseRound 0x6035 p.val (s.at_ t)).recorder ∧
      keepsBut [.time, .can, .recorder] s r)

/-- The time reference on the bus (R429 to R431): as acting master TIME_REF is queued with a new counter when compare unit 12 fires, and TIME_FOLLOW with the stamp of the reference; a pair received is one offset sample of source 2; references unpaired after 20 ms are discarded with 0x6038, and a pair of CANB that waited for CANA is then used; an acting backup master yields to a lower identifier; a backup master takes over when none was heard for its time. Completion: for timeRef, timeFollow, timeRefReceived, timeFollowUpMissing, timeMasterTakeover exec answers a next state wherever the conditions of the clause on the command and the state hold. -/
def Obligations.BusTime : Prop :=
  (∀ t s, s.up = true → (s.time.compare.getD 12 {}).armed = true → s.can.role = 2 → s.can.ports.length = 2 → (∀ p, p < 2 → (canPort s p).tx.length < 32) →
    Completes (.timeRef t) s fun r =>
      r.can.refCnt = (s.can.refCnt + 1) % 256 ∧
      (∀ p ∈ canSendPorts s, { id := busId s (0x20 + prio s) (ownPos s), kind := 2, data := refBytes s.can.refCnt s.time.synced p (t / frameNs), at_ := t, tag := 0x8000 + s.can.refCnt } ∈ (canPort r p).tx) ∧
      (∀ p, p < 2 → p ∉ canSendPorts s → canPort r p = canPort s p) ∧ keepsBut [.time, .can] s r) ∧
  (∀ t (p : Fin 2) e s, s.up = true → s.can.role = 2 → s.can.ports.length = 2 → (canPort s p.val).tx.length < 32 →
    (s.time.txStamps.find? fun e => e.port == p.val + 2 && decide (0x8000 ≤ e.id)) = some e →
    Completes (.timeFollow t p) s fun r =>
      (∀ x ∈ r.time.txStamps, ¬(x.id = e.id ∧ x.port = e.port)) ∧
      (canPort r p.val).tx = (canPort s p.val).tx ++ [{ id := busId s (0x28 + prio s) (ownPos s), kind := 3, at_ := t, tag := 0, data := refBytes (e.id - 0x8000) s.time.synced p.val (e.time / frameNs) ++ toLE 8 e.time }] ∧
      (∀ j, j ≠ p.val → canPort r j = canPort s j) ∧ keepsBut [.time, .can] s r) ∧
  (∀ t (p : Fin 2) f rest s, s.up = true → s.can.role ≠ 0 → takeFrame (fun f => idClass s f.ext f.id == 2) (canPort s p.val).fifo0 = some (f, rest) →
    isTimeRef (f.id / 256 % 256) = true → f.data.length = 8 →
    Completes (.timeRefReceived t p) s fun r =>
      (canPort r p.val).fifo0 = rest ∧ r.can.master = some (f.id % 16) ∧ r.can.refHeard = f.ts ∧
      (p.val, f.id / 256 % 8 * 16 + f.id % 16, ofLE (f.data.take 1), f.sof, f.ts) ∈ r.can.unpaired ∧
      r.can.role = (if s.can.role = 2 ∧ s.parN .canTimeRole = 3 ∧ f.id < busId s (0x20 + prio s) (ownPos s) then 3 else s.can.role) ∧ keepsBut [.time, .can, .recorder] s r) ∧
  (∀ t (p : Fin 2) f rest s, s.up = true → s.can.role = 0 → takeFrame (fun f => idClass s f.ext f.id == 2) (canPort s p.val).fifo0 = some (f, rest) →
    f.data.length = (if isTimeRef (f.id / 256 % 256) then 8 else 16) →
    Completes (.timeRefReceived t p) s fun r =>
      (canPort r p.val).fifo0 = rest ∧ { r.can with ports := s.can.ports } = s.can ∧ keepsBut [.time, .can] s r) ∧
  (∀ t (p : Fin 2) f rest sof at_ s, s.up = true → s.can.role = 1 ∨ s.can.role = 3 → takeFrame (fun f => idClass s f.ext f.id == 2) (canPort s p.val).fifo0 = some (f, rest) →
    isTimeRef (f.id / 256 % 256) = false → f.data.length = 16 →
    s.can.unpaired = [(p.val, f.id / 256 % 8 * 16 + f.id % 16, ofLE (f.data.take 1), sof, at_)] → f.ts ≤ at_ + 20000000 →
    (∀ u, s.can.pairUsed = some u → u.1 = f.id / 256 % 8 * 16 + f.id % 16 → u.2.1 = ofLE (f.data.take 1) → u.2.2 + 20000000 < f.ts) →
    Completes (.timeRefReceived t p) s fun r =>
      (canPort r p.val).fifo0 = rest ∧ r.can.unpaired = [] ∧ r.can.pairUsed = some (f.id / 256 % 8 * 16 + f.id % 16, ofLE (f.data.take 1), f.ts) ∧ r.time.lastPair = some f.ts ∧
      (∃ s1, s1.boot = s.boot ∧ s1.can = r.can ∧ s1.time = { s.time with now := max s.time.now t, lastPair := some f.ts } ∧
        r.time = (offsetSample 2 ((sof : Rat) - ((ofLE ((f.data.drop 8).take 8) + s.parN .canTimeDelay : Nat) : Rat)) f.ts s1).time) ∧
      keepsBut [.time, .can, .recorder] s r) ∧
  (∀ t s, s.up = true → s.can.heldB = none →
    Completes (.timeFollowUpMissing t) s fun r =>
      r.can.unpaired = s.can.unpaired.filter (fun u => !decide (u.2.2.2.2 + 20000000 < t)) ∧
      (∀ u ∈ s.can.unpaired, u.2.2.2.2 + 20000000 < t → r.isRaised 0x6038 u.1 = true) ∧ { r.can with unpaired := s.can.unpaired } = s.can ∧
      keepsBut [.time, .can, .recorder] s r) ∧
  (∀ t mid cnt sof time synced u s, s.up = true → s.can.heldB = some (mid, cnt, sof, time, synced) → u ∈ s.can.unpaired → u.1 = 0 → u.2.1 = mid → u.2.2.1 = cnt →
    u.2.2.2.2 + 20000000 < t → s.can.role ≠ 2 →
    (∀ w, s.can.pairUsed = some w → w.1 = mid → w.2.1 = cnt → w.2.2 + 20000000 < t) →
    Completes (.timeFollowUpMissing t) s fun r =>
      r.can.heldB = none ∧ r.can.pairUsed = some (mid, cnt, t) ∧ r.time.lastPair = some t ∧ keepsBut [.time, .can, .recorder] s r) ∧
  (∀ t s, s.up = true → s.can.role = 3 → s.can.refHeard + (s.parN .canTimeTakeover * s.parN .canTimePeriod + prio s) * frameNs ≤ t →
    Completes (.timeMasterTakeover t) s fun r => r.can = { s.can with role := 2 } ∧ keepsBut [.time, .can, .recorder] s r)

/-- The CANopen manager (R435 to R438): SYNC closes the input images of the last cycle and is queued; a heartbeat of a known station is noted, and one that was booting is asked for its device type; one of an unknown node is reported once; an answer that agrees makes the station operational and another leaves it refused; a TPDO that comes after its SYNC and on time enters the image and one outside that time does not; EMCY is reported; a station silent beyond its time, or that missed can.co.miss cycles, becomes absent with 0x6039. Completion: for canopenSync, canopenHeartbeat, canopenSdoResponse, canopenTpdo, canopenEmcy, canopenStationAbsent exec answers a next state wherever the conditions of the clause on the command and the state hold. -/
def Obligations.CanopenStations : Prop :=
  (∀ t s, s.up = true → s.time.framesOn = true → s.parN .canCoPort < 2 → s.time.frame % s.parN .canCoPeriod = 0 → t = s.time.frame * frameNs + s.parN .canCoSyncOffset * 1000 →
    s.can.syncFrame ≠ some s.time.frame → s.can.ports.length = 2 → (canPort s (s.parN .canCoPort)).tx.length < 32 →
    Completes (.canopenSync t) s fun r =>
      r.can.syncFrame = some s.time.frame ∧ r.can.stations = (closeStations s.time.frame s).can.stations ∧
      (canPort r (s.parN .canCoPort)).tx = (canPort s (s.parN .canCoPort)).tx ++ [{ id := 0x80, kind := 4, data := [], at_ := max s.time.now t, tag := 0 }] ∧
      keepsBut [.time, .can] s r) ∧
  (∀ s g k, k < s.can.stations.length →
    let x := station s k
    let y := station (closeStation g k s) k
    ((∀ j, j < (stationCfg s k).tpdo → (x.got.lookup j).isSome = true) → y.missed = 0 ∧ (∃ ws, y.image = some (ws, g))) ∧
    ((∃ j, j < (stationCfg s k).tpdo ∧ x.got.lookup j = none) → y.missed = x.missed + 1 ∧ y.image = x.image) ∧ y.got = [] ∧
    (∀ j, j ≠ k → station (closeStation g k s) j = station s j) ∧ keepsBut [.can] s (closeStation g k s)) ∧
  (∀ t f rest k s, s.up = true → s.parN .canCoPort < 2 → s.can.ports.length = 2 → s.can.stations.length = 16 →
    takeFrame (fun f => [14].contains (f.id / 0x80)) (canPort s (s.parN .canCoPort)).fifo1 = some (f, rest) → stationOf s (f.id % 0x80) = some k →
    Completes (.canopenHeartbeat t) s fun r =>
      (canPort r (s.parN .canCoPort)).fifo1 = rest ∧ (station r k).hbAt = f.ts ∧
      ((station s k).st = 1 → (station r k).st = 2) ∧ ((station s k).st = 4 → (station r k).st = 1) ∧
      (∀ j, j ≠ k → station r j = station s j) ∧ keepsBut [.time, .can, .recorder] s r) ∧
  (∀ t f rest s, s.up = true → takeFrame (fun f => [14].contains (f.id / 0x80)) (canPort s (s.parN .canCoPort)).fifo1 = some (f, rest) →
    stationOf s (f.id % 0x80) = none → f.id % 0x80 ∉ s.can.unknown →
    Completes (.canopenHeartbeat t) s fun r =>
      r.can.unknown = f.id % 0x80 :: s.can.unknown ∧ r.can.stations = s.can.stations ∧ r.recorder = (State.raise 0x603B (f.id % 0x80) (s.at_ t)).recorder ∧
      keepsBut [.time, .can, .recorder] s r) ∧
  (∀ t f rest k v s, s.up = true → s.parN .canCoPort < 2 → s.can.ports.length = 2 → s.can.stations.length = 16 →
    takeFrame (fun f => [11].contains (f.id / 0x80)) (canPort s (s.parN .canCoPort)).fifo1 = some (f, rest) → stationOf s (f.id % 0x80) = some k →
    sdoAnswer f.data = some v → (station s k).st = 2 →
    Completes (.canopenSdoResponse t) s fun r =>
      ((stationCfg s k).devType = 0 ∨ v = some (stationCfg s k).devType → (station r k).st = 3 ∧ (station r k).missed = 0 ∧ r.isRaised 0x6039 k = false ∧ r.isRaised 0x603A k = false) ∧
      ((stationCfg s k).devType ≠ 0 → v ≠ some (stationCfg s k).devType → (station r k).st = 5 ∧ r.isRaised 0x603A k = true) ∧
      (∀ j, j ≠ k → station r j = station s j) ∧ keepsBut [.time, .can, .recorder] s r) ∧
  (∀ t f rest k g s, s.up = true → s.parN .canCoPort < 2 → s.can.ports.length = 2 → s.can.stations.length = 16 →
    takeFrame (fun f => [3, 5, 7, 9].contains (f.id / 0x80)) (canPort s (s.parN .canCoPort)).fifo1 = some (f, rest) → stationOf s (f.id % 0x80) = some k →
    f.data.length = 8 → s.can.syncFrame = some g →
    Completes (.canopenTpdo t) s fun r =>
      (station r k).got = (if g * frameNs + s.parN .canCoSyncOffset * 1000 < f.ts ∧ f.ts ≤ (g + 1) * frameNs + 4000000 then [((f.id / 0x80 - 3) / 2, (List.range 4).map fun i => ofLE ((f.data.drop (2 * i)).take 2))] else []) ++ (station s k).got ∧
      { station r k with got := (station s k).got } = station s k ∧ (∀ j, j ≠ k → station r j = station s j) ∧ keepsBut [.time, .can] s r) ∧
  (∀ t f rest k s, s.up = true → takeFrame (fun f => [1].contains (f.id / 0x80)) (canPort s (s.parN .canCoPort)).fifo1 = some (f, rest) → stationOf s (f.id % 0x80) = some k →
    Completes (.canopenEmcy t) s fun r => r.recorder = (State.raise 0x603C k (s.at_ t)).recorder ∧ r.can.stations = s.can.stations ∧ keepsBut [.time, .can, .recorder] s r) ∧
  (∀ t (k : Fin 16) s, s.up = true → s.can.stations.length = 16 → (station s k.val).st = 3 →
    ((station s k.val).hbAt + (stationCfg s k.val).hbMs * 1000000 < t ∨ s.parN .canCoMiss ≤ (station s k.val).missed) →
    Completes (.canopenStationAbsent t k) s fun r =>
      (station r k.val).st = 4 ∧
      (let waits : Bool := match s.prog.latched with
         | some g => decide (s.time.frame / s.parN .canCoPeriod * s.parN .canCoPeriod < g + 2)
         | none => false
       (station r k.val).dropped = waits ∧ (waits = true → (station r k.val).present = false ∧ (station r k.val).safeOut = true) ∧
         (waits = false → (station r k.val).present = (station s k.val).present ∧ (station r k.val).safeOut = (station s k.val).safeOut)) ∧ (∀ j, j ≠ k.val → station r j = station s j) ∧
      r.isRaised 0x6039 k.val = true ∧ keepsBut [.time, .can, .recorder] s r)

/-- Sessions (R387 to R393, R396 to R399). OPEN of a role whose key is set, with its tag under that key, takes the lowest free slot, with a new session ID and a session key from both nonces, and answers it; with no slot free it is refused as Busy with 0x6022, and one whose tag fails is discarded. CLOSE and an idle session free the slot and end its edit lock. KEEPALIVE spends no token. A message that passes checks 1 to 4 is a request of its session, and one whose tag does not fit is discarded and counted; a request repeated is answered by the reply kept for it; one beyond the bucket is answered RateLimited. The network (R385, R386). The later copy of a frame with a redundancy trailer is discarded. An echo request of at most 64 data bytes is answered up to 10 times in a second; an ARP request for the module's address is answered and its sender enters the cache of 32, in which the gateway and the next hops of open sessions stay; a datagram with options, of a fragment or for another address is discarded. A frame leaves on both LANs under one sequence number; a supervision frame leaves on each configured LAN every 2 s, and the event of a LAN stands while no peer is heard on it (its code is free, log 28). Completion: for openSession, close, keepalive, sessionIdleTimeout, fhpDatagram, icmpEcho, arpRequest, prpSupervision exec answers a next state wherever the conditions of the clause on the command and the state hold. -/
def Obligations.HostSessions : Prop :=
  (∀ t addr port seq pay ro k s, netUp s = true → s.host.slots.length = 8 → pay.length = 20 → roleOfCode (rd 1 0 pay) = some ro → keySet s ro = true → opensIn s ro = true →
    ((s.host.opens.filter fun e => lastSecond t e.2).filter (·.1 == addr)).length < 4 → ((List.range 8).find? fun k => (sessionAt s k).isNone) = some k →
    Completes (.openSession t addr port seq pay (fhpTag (roleKey s ro) (fhpHeader 0 0 seq 0x0101 pay.length ++ pay))) s fun r =>
      (∃ x nonce, sessionAt r k = some x ∧ x.id ≠ 0 ∧ slotOf s x.id = none ∧ x.role = ro ∧ x.addr = addr ∧ x.port = port ∧ x.sLast = 0 ∧ x.confirmed = false ∧ x.subs = [] ∧
        x.replies = [] ∧ nonce < 2 ^ 128 ∧ x.key = sessionKey (roleKey s ro) (pay.drop 4) (toLE 16 nonce) x.id ∧
        r.out = Output.fhp addr port (fhpMessage (roleKey s ro) 1 0 seq 0x0101 (openReply 0 0 x.id nonce s)) ::
          (if nextHop s addr ∈ s.host.arp then s.out else Output.arpQuery (nextHop s addr) :: s.out)) ∧
      (∀ j, j ≠ k → sessionAt r j = sessionAt s j) ∧ r.recorder = (State.raise 0x6020 k (s.at_ t)).recorder ∧ keepsBut [.time, .host, .recorder, .out, .freeCtr] s r) ∧
  (∀ t addr port seq pay ro s, netUp s = true → pay.length = 20 → roleOfCode (rd 1 0 pay) = some ro → keySet s ro = true → opensIn s ro = true →
    ((s.host.opens.filter fun e => lastSecond t e.2).filter (·.1 == addr)).length < 4 → (∀ k, k < 8 → (sessionAt s k).isSome = true) →
    Completes (.openSession t addr port seq pay (fhpTag (roleKey s ro) (fhpHeader 0 0 seq 0x0101 pay.length ++ pay))) s fun r =>
      r.host.slots = s.host.slots ∧ r.host.busy = s.host.busy + 1 ∧ r.out = Output.fhp addr port (fhpMessage (roleKey s ro) 1 0 seq 0x0101 (openReply 1 0x6022 0 0 s)) :: s.out ∧
      r.recorder = (State.raise 0x6022 0 (s.at_ t)).recorder ∧ keepsBut [.time, .host, .recorder, .out] s r) ∧
  (∀ t addr port seq pay tag s, netUp s = true → (∀ ro, roleOfCode (rd 1 0 pay) = some ro → keySet s ro = true → tag ≠ fhpTag (roleKey s ro) (fhpHeader 0 0 seq 0x0101 pay.length ++ pay)) →
    Completes (.openSession t addr port seq pay tag) s fun r =>
      r.host.slots = s.host.slots ∧ r.host.discarded = s.host.discarded + 1 ∧ r.host.authRound = s.host.authRound + 1 ∧ keepsBut [.time, .host, .recorder] s r) ∧
  (∀ t id seq k x s, admitted t id seq 0x0102 [] k x s →
    Completes (.close t id seq) s fun r =>
      sessionAt r k = none ∧ (∀ j, j ≠ k → sessionAt r j = sessionAt s j) ∧ r.host.lock = (if s.host.lock = some x.id then none else s.host.lock) ∧
      replied x 0x0102 seq [stBytes 0 0] s r ∧ keepsBut [.time, .host, .recorder, .out] s r) ∧
  (∀ t id seq k x s, netUp s = true → slotOf s id = some k → sessionAt s k = some x → 1 ≤ (seq + 2 ^ 32 - x.sLast) % 2 ^ 32 → (seq + 2 ^ 32 - x.sLast) % 2 ^ 32 ≤ 1024 →
    Completes (.keepalive t id seq) s fun r =>
      (∃ w, sessionAt r k = some w ∧ w.sLast = seq ∧ w.lastReq = t ∧ w.confirmed = true ∧ w.tokens = bucket s x t ∧ w.subs = x.subs) ∧
      (∀ j, j ≠ k → sessionAt r j = sessionAt s j) ∧ replied x 0x0103 seq [stBytes 0 0] s r ∧ keepsBut [.time, .host, .out] s r) ∧
  (∀ t (k : Fin 8) x s, netUp s = true → sessionAt s k.val = some x →
    (x.lastReq + s.parN .hostSessionIdle * 1000000000 ≤ t ∨ x.confirmed = false ∧ x.lastReq + x.confirmT * 1000000000 ≤ t) →
    Completes (.sessionIdleTimeout t k) s fun r =>
      sessionAt r k.val = none ∧ (∀ j, j ≠ k.val → sessionAt r j = sessionAt s j) ∧ r.host.lock = (if s.host.lock = some x.id then none else s.host.lock) ∧
      r.recorder = (State.raise 0x6021 k.val (s.at_ t)).recorder ∧ keepsBut [.time, .host, .recorder] s r) ∧
  (∀ t addr port bytes env k s, netUp s = true → laterCopy t env.net s = false → udpTaken s (s.parN .hostUdpPort) env.net = true → rd 2 0 bytes = 0x4648 → rd 1 2 bytes = 1 → bit (rd 1 3 bytes) 0 = false →
    bytes.length = rd 2 0x0E bytes + 32 → rd 2 0x0E bytes ≤ 1400 → (rd 4 4 bytes ≠ 0 ∨ rd 2 0x0C bytes ≠ 0x0101) → boundSlot s (rd 4 4 bytes) addr port = some k → tagFits s k bytes (rd 2 0x0E bytes) = true →
    exec (.fhpDatagram t addr port bytes env) s =
      .next (handleRequest k t (rd 4 8 bytes) (rd 2 0x0C bytes) ((bytes.drop 16).take (rd 2 0x0E bytes)) env (noteFrame t env.net (s.at_ t)))) ∧
  (∀ t addr port bytes env s, netUp s = true → laterCopy t env.net s = false → udpTaken s (s.parN .hostUdpPort) env.net = true →
    (bytes.length < 32 ∨ rd 2 0 bytes ≠ 0x4648 ∨ rd 1 2 bytes ≠ 1 ∨ bit (rd 1 3 bytes) 0 = true ∨
      bytes.length = rd 2 0x0E bytes + 32 ∧ rd 2 0x0E bytes ≤ 1400 ∧ (rd 4 4 bytes ≠ 0 ∨ rd 2 0x0C bytes ≠ 0x0101) ∧ boundSlot s (rd 4 4 bytes) addr port = none) →
    Completes (.fhpDatagram t addr port bytes env) s fun r =>
      { r.host with prpSeen := s.host.prpSeen } = { s.host with discarded := s.host.discarded + 1 } ∧ keepsBut [.time, .host] s r) ∧
  (∀ t addr port bytes env s, netUp s = true → laterCopy t env.net s = false → udpTaken s (s.parN .hostUdpPort) env.net = true → 32 ≤ bytes.length → rd 2 0 bytes = 0x4648 → rd 1 2 bytes = 1 →
    bit (rd 1 3 bytes) 0 = false → (bytes.length ≠ rd 2 0x0E bytes + 32 ∨ 1400 < rd 2 0x0E bytes) → ((s.host.errReplies.filter fun e => lastSecond t e.2).filter (·.1 == addr)).length < s.parN .hostRateErr →
    Completes (.fhpDatagram t addr port bytes env) s fun r =>
      r.host.lengthRej = s.host.lengthRej + 1 ∧ r.host.slots = s.host.slots ∧ r.recorder = (State.raiseRound 0x6025 0 (s.at_ t)).recorder ∧
      (∃ m, r.out = Output.fhp addr port m :: s.out ∧ (rd 4 4 bytes = 0 ∨ boundSlot s (rd 4 4 bytes) addr port = none →
        m = fhpHeader 1 0 (rd 4 8 bytes) (rd 2 0x0C bytes) 4 ++ stBytes 5 0x6025 ++ toLE 16 0)) ∧ keepsBut [.time, .host, .recorder, .out] s r) ∧
  (∀ t addr port bytes env s, netUp s = true → laterCopy t env.net s = false → udpTaken s (s.parN .hostUdpPort) env.net = false →
    Completes (.fhpDatagram t addr port bytes env) s fun r => { r.host with prpSeen := s.host.prpSeen } = s.host ∧ keepsBut [.time, .host] s r) ∧
  (∀ t addr port bytes env s, laterCopy t env.net s = true → exec (.fhpDatagram t addr port bytes env) s = .next (s.at_ t)) ∧
  (∀ t addr port bytes env k s, netUp s = true → laterCopy t env.net s = false → udpTaken s (s.parN .hostUdpPort) env.net = true → rd 2 0 bytes = 0x4648 → rd 1 2 bytes = 1 → bit (rd 1 3 bytes) 0 = false →
    bytes.length = rd 2 0x0E bytes + 32 → rd 2 0x0E bytes ≤ 1400 → (rd 4 4 bytes ≠ 0 ∨ rd 2 0x0C bytes ≠ 0x0101) → boundSlot s (rd 4 4 bytes) addr port = some k → tagFits s k bytes (rd 2 0x0E bytes) = false →
    Completes (.fhpDatagram t addr port bytes env) s fun r =>
      { r.host with prpSeen := s.host.prpSeen } = { s.host with discarded := s.host.discarded + 1, authRound := s.host.authRound + 1 } ∧
      keepsBut [.time, .host, .recorder] s r) ∧
  (∀ k t seq opcode pay env x q s, sessionAt s k = some x → ((seq + 2 ^ 32 - x.sLast) % 2 ^ 32 = 0 ∨ 1024 < (seq + 2 ^ 32 - x.sLast) % 2 ^ 32) →
    (x.replies.find? fun r => r.seq == seq) = some q → q.running = false →
    replied x q.opcode seq q.parts s (handleRequest k t seq opcode pay env s) ∧ keepsBut [.out] s (handleRequest k t seq opcode pay env s)) ∧
  (∀ k t seq opcode pay env x s, sessionAt s k = some x → 1 ≤ (seq + 2 ^ 32 - x.sLast) % 2 ^ 32 → (seq + 2 ^ 32 - x.sLast) % 2 ^ 32 ≤ 1024 → s.boot.phase ≠ .halted →
    opcode ≠ 0x0103 → bucket s x t < 1 →
    let r := handleRequest k t seq opcode pay env s
    replied x opcode seq [stBytes 10 0x6024] s r ∧ r.host.rateLim = s.host.rateLim + 1 ∧
      (∃ w, sessionAt r k = some w ∧ w.sLast = x.sLast ∧ w.lastReq = x.lastReq ∧ w.tokens = bucket s x t) ∧ keepsBut [.host, .recorder, .out] s r) ∧
  (∀ t from_ data s, netUp s = true → laterCopy t from_.net s = false → from_.net.options = false → from_.net.fragment = false → from_.net.dest = s.parN .hostIpAddr → data.length ≤ 64 →
    (s.host.echoes.filter (lastSecond t)).length < 10 →
    Completes (.icmpEcho t from_ data) s fun r =>
      r.out = Output.echoReply from_.addr data :: s.out ∧ r.host.echoes = t :: s.host.echoes.filter (lastSecond t) ∧
      { r.host with echoes := s.host.echoes, prpSeen := s.host.prpSeen } = s.host ∧ keepsBut [.time, .host, .out] s r) ∧
  (∀ t from_ data s, netUp s = true → laterCopy t from_.net s = false → (from_.net.options = true ∨ from_.net.fragment = true ∨ from_.net.dest ≠ s.parN .hostIpAddr ∨ 64 < data.length ∨
      10 ≤ (s.host.echoes.filter (lastSecond t)).length) →
    Completes (.icmpEcho t from_ data) s fun r => { r.host with prpSeen := s.host.prpSeen } = s.host ∧ keepsBut [.time, .host] s r) ∧
  (∀ t from_ data target s, laterCopy t from_.net s = true → exec (.icmpEcho t from_ data) s = .next (s.at_ t) ∧ exec (.arpRequest t from_ target) s = .next (s.at_ t)) ∧
  (∀ t (h : NetHead) mac seq s, h.prp = some (mac, seq) → laterCopy t h (noteFrame t h s) = true ∧ keepsBut [.host] s (noteFrame t h s)) ∧
  (∀ t from_ s, netUp s = true → laterCopy t from_.net s = false → s.host.slots.length = 8 → s.host.arp.Nodup →
    Completes (.arpRequest t from_ (s.parN .hostIpAddr)) s fun r =>
      r.out = Output.arpReply from_.addr :: s.out ∧ from_.addr ∈ r.host.arp ∧ r.host.arp.length ≤ 32 ∧ r.host.arp.Nodup ∧ (∀ a ∈ s.host.arp, a ∈ arpNeeded s → a ∈ r.host.arp) ∧
      { r.host with arp := s.host.arp, prpSeen := s.host.prpSeen } = s.host ∧ keepsBut [.time, .host, .out] s r) ∧
  (∀ t from_ target s, netUp s = true → laterCopy t from_.net s = false → target ≠ s.parN .hostIpAddr →
    Completes (.arpRequest t from_ target) s fun r => { r.host with prpSeen := s.host.prpSeen } = s.host ∧ keepsBut [.time, .host] s r) ∧
  (∀ a s, (a &&& s.parN .hostIpMask = s.parN .hostIpAddr &&& s.parN .hostIpMask → nextHop s a = a) ∧
    (a &&& s.parN .hostIpMask ≠ s.parN .hostIpAddr &&& s.parN .hostIpMask → s.parN .hostIpGw ≠ 0 → nextHop s a = s.parN .hostIpGw)) ∧
  (∀ a s, a ∉ s.host.arp → (resolveHop a s).out = Output.arpQuery a :: s.out ∧ (s.host.slots.length = 8 → s.host.arp.Nodup → a ∈ (resolveHop a s).host.arp) ∧ keepsBut [.host, .out] s (resolveHop a s)) ∧
  (∀ o s, o ∈ s.out → onBothLans o = true →
    ∃ k, ∀ p, p < 2 → s.boot.ethOut.getD p false = false → ({ lan := p, mac := s.boot.mac, seq := k % 65536, frame := o } : LanFrame) ∈ lanFrames s) ∧
  (∀ t (heard : BitVec 2) s, netUp s = true →
    Completes (.prpSupervision t heard) s fun r =>
      ((∀ a, s.host.prpAt = some a → a + 2000000000 ≤ t) → (∀ p, p < 2 → s.boot.ethOut.getD p false = false → Output.prp p ∈ r.out) ∧ r.host.prpAt = some t) ∧
      ((∃ a, s.host.prpAt = some a ∧ t < a + 2000000000) → r.out = s.out ∧ r.host.prpAt = s.host.prpAt) ∧
      r.host.lanOk = [heard.getLsbD 0 && !s.boot.ethOut.getD 0 false, heard.getLsbD 1 && !s.boot.ethOut.getD 1 false] ∧
      (∀ p, p < 2 → r.isRaised prpEvent p = !(heard.getLsbD p && !s.boot.ethOut.getD p false)) ∧ keepsBut [.time, .host, .recorder, .out] s r)

/-- Reading (R401, R403 to R405, R408, R467, R484, R522, R545, R570): the request is carried out with the reply that its opcode's rule gives, and changes nothing but the session and its counters; a REC_READ in the time of a round commit waits (Table 17-7); CAP_READ empties the queue that it reads (R377). READ_ITEMS of the newest frame answers the entries of its keys in order, and an unknown key with quality 8; READ_SLOTS and READ_MAP answer the slots and the map entries asked for; PARAM_READ answers running and committed value and the pending flag; EVENT_LIST and BIST_READ answer the records from the number asked for on, the oldest and the newest number, and how many are no longer held; REC_READ and PROG_READ answer the bytes asked for, UPD_STATUS the bitmap of the chunks, JOURNAL_READ the newest index and the entries. Subscriptions (R406, R407): SUBSCRIBE of keys within the limits adds a subscription under a new ID; UNSUBSCRIBE ends it; PUSH sends the parts of a due frame that end in time, counts the others as dropped with 0x6027, and numbers them all. Completion: for readItems, readSlots, readMap, paramRead, eventList, recRead, progRead, updStatus, journalRead, bistRead, capRead, subscribe, unsubscribe, push exec answers a next state wherever the conditions of the clause on the command and the state hold. -/
def Obligations.HostReads : Prop :=
  (∀ t id seq pay ends k x s, admitted t id seq 0x0201 pay k x s →
    Completes (.readItems t id seq pay ends) s fun r => carriedOut k x t seq 0x0201 (opReadItems t pay ends s).2 s r ∧ keepsBut [.time, .host, .comb, .recorder, .out] s r) ∧
  (∀ t id seq pay ends k x s, admitted t id seq 0x0202 pay k x s →
    Completes (.readSlots t id seq pay ends) s fun r => carriedOut k x t seq 0x0202 (opReadSlots t pay ends s).2 s r ∧ keepsBut [.time, .host, .comb, .recorder, .out] s r) ∧
  (∀ t id seq pay k x s, admitted t id seq 0x0203 pay k x s →
    Completes (.readMap t id seq pay) s fun r => carriedOut k x t seq 0x0203 (opReadMap pay s).2 s r ∧ keepsBut [.time, .host, .comb, .out] s r) ∧
  (∀ t id seq pay k x s, admitted t id seq 0x0301 pay k x s →
    Completes (.paramRead t id seq pay) s fun r =>
      carriedOut k x t seq 0x0301 [stBytes (opParamRead pay s).2.1 (opParamRead pay s).2.2.1 ++ (opParamRead pay s).2.2.2] s r ∧ keepsBut [.time, .host, .out] s r) ∧
  (∀ t id seq pay k x s, admitted t id seq 0x0501 pay k x s →
    Completes (.eventList t id seq pay) s fun r =>
      carriedOut k x t seq 0x0501 [stBytes (opEventList pay s).2.1 (opEventList pay s).2.2.1 ++ (opEventList pay s).2.2.2] s r ∧ keepsBut [.time, .host, .out] s r) ∧
  (∀ t id seq pay k x s, admitted t id seq 0x0502 pay k x s → readsHeld s t = true → rd 1 0 pay < 3 →
    Completes (.recRead t id seq pay) s fun r =>
      r.host.heldReads = s.host.heldReads ++ [(x.id, k, seq, pay)] ∧ r.out = s.out ∧
      (∃ w, sessionAt r k = some w ∧ ({ seq := seq, opcode := 0x0502, parts := [], running := true } : FhpReply) ∈ w.replies) ∧ keepsBut [.time, .host] s r) ∧
  (∀ t id seq pay k x s, admitted t id seq 0x0502 pay k x s → (readsHeld s t = false ∨ 3 ≤ rd 1 0 pay) →
    Completes (.recRead t id seq pay) s fun r =>
      carriedOut k x t seq 0x0502 [stBytes (opRecRead pay s).2.1 (opRecRead pay s).2.2.1 ++ (opRecRead pay s).2.2.2] s r ∧ keepsBut [.time, .host, .out] s r) ∧
  (∀ t id seq pay k x s, admitted t id seq 0x0602 pay k x s → engineer x.role = true →
    Completes (.progRead t id seq pay) s fun r =>
      carriedOut k x t seq 0x0602 [stBytes (opProgRead pay s).2.1 (opProgRead pay s).2.2.1 ++ (opProgRead pay s).2.2.2] s r ∧ keepsBut [.time, .host, .out] s r) ∧
  (∀ t id seq pay k x s, admitted t id seq 0x0703 pay k x s →
    Completes (.updStatus t id seq pay) s fun r =>
      carriedOut k x t seq 0x0703 [stBytes (opUpdStatus pay s).2.1 (opUpdStatus pay s).2.2.1 ++ (opUpdStatus pay s).2.2.2] s r ∧ keepsBut [.time, .host, .out] s r) ∧
  (∀ t id seq pay k x s, admitted t id seq 0x0901 pay k x s →
    Completes (.journalRead t id seq pay) s fun r =>
      carriedOut k x t seq 0x0901 [stBytes (opJournalRead pay s).2.1 (opJournalRead pay s).2.2.1 ++ (opJournalRead pay s).2.2.2] s r ∧ keepsBut [.time, .host, .out] s r) ∧
  (∀ t id seq pay k x s, admitted t id seq 0x0902 pay k x s →
    Completes (.bistRead t id seq pay) s fun r =>
      carriedOut k x t seq 0x0902 [stBytes (opBistRead pay s).2.1 (opBistRead pay s).2.2.1 ++ (opBistRead pay s).2.2.2] s r ∧ keepsBut [.time, .host, .out] s r) ∧
  (∀ t id seq pay k x s, admitted t id seq 0x0801 pay k x s → pay.length = 1 → rd 1 0 pay < 8 → s.parN .timeCapReader (rd 1 0 pay) = 0 →
    Completes (.capRead t id seq pay) s fun r =>
      (∃ es, carriedOut k x t seq 0x0801 [stBytes 0 0 ++ toLE 1 (s.time.capture.getD (rd 1 0 pay) []).length ++ toLE 3 0 ++ es] s r ∧ es.length = 16 * (s.time.capture.getD (rd 1 0 pay) []).length) ∧
      r.time.capture.getD (rd 1 0 pay) [] = [] ∧ (∀ j, j ≠ rd 1 0 pay → r.time.capture.getD j [] = s.time.capture.getD j []) ∧ keepsBut [.time, .host, .out] s r) ∧
  (∀ t pay ends n s, rd 2 12 pay = n → 1 ≤ n → n ≤ 340 → pay.length = 16 + 4 * n → frameFor s (rd 8 0 pay) = .inr 2 →
    (opReadItems t pay ends s).2 = [stBytes 2 0] ∧ (opReadItems t pay ends s).1.comb.expired = s.comb.expired + 1) ∧
  (∀ t pay ends img s, pay.length = 16 + 4 * rd 2 12 pay → 1 ≤ rd 2 12 pay → rd 2 12 pay ≤ 340 → rd 8 0 pay = 0xFFFFFFFFFFFFFFFF → s.comb.published = some img → rd 4 8 pay = img.mapVersion →
    let es := keyEntries (serveAll s 0 img) (keyList (rd 2 12 pay) (pay.drop 16))
    es.length ≤ 114 → doneAt t ends 0 ≤ (img.frame + 3) * frameNs + 5000000 →
    (opReadItems t pay ends s).2 = [stBytes 0 0 ++ toLE 1 0 ++ toLE 1 1 ++ toLE 1 0 ++ toLE 1 0 ++ toLE 8 img.frame ++ toLE 1 img.flags.toNat ++ toLE 7 0 ++ es.flatten]) ∧
  (∀ all key, (∀ e ∈ all, e.1 ≠ key) → keyEntries all [key] = [toLE 4 key ++ toLE 4 0 ++ toLE 4 8]) ∧
  (∀ t pay ends img s, pay.length = 16 → 1 ≤ rd 2 12 pay → rd 2 12 pay ≤ 172 → rd 8 0 pay = 0xFFFFFFFFFFFFFFFF → s.comb.published = some img → rd 4 8 pay + rd 2 12 pay ≤ slotCount img →
    doneAt t ends 0 ≤ (img.frame + 3) * frameNs + 5000000 →
    let ss := (((serveAll s 0 img).flatMap slotBytes).drop (rd 4 8 pay)).take (rd 2 12 pay)
    (opReadSlots t pay ends s).2 = [stBytes 0 0 ++ toLE 1 0 ++ toLE 3 0 ++ toLE 8 img.frame ++ toLE 4 (rd 4 8 pay) ++ toLE 2 ss.length ++ toLE 2 0 ++ ss.flatten]) ∧
  (∀ pay s, pay.length = 12 → 1 ≤ rd 2 8 pay → rd 2 8 pay ≤ 172 → rd 4 0 pay = s.comb.mapVersion → rd 4 4 pay + rd 2 8 pay ≤ s.comb.map.length →
    ∃ es, (opReadMap pay s).2 = [stBytes 0 0 ++ toLE 4 s.comb.mapVersion ++ toLE 4 (rd 4 4 pay) ++ toLE 2 (rd 2 8 pay) ++ toLE 2 0 ++ es] ∧ es.length = 8 * rd 2 8 pay ∧
      ∀ i, i < rd 2 8 pay → (es.drop (8 * i)).take 4 = toLE 4 (s.comb.map.getD (rd 4 4 pay + i) (0, 0, 0)).1) ∧
  (∀ nm k s, 1 ≤ nm.length → nm.length ≤ 63 → paramOfName nm = some k → k.p ≠ .hostKey →
    (opParamRead (toLE 1 1 ++ toLE 1 nm.length ++ nm) s).2.2.2 =
      toLE 1 k.p.desc.typ ++ valueBytes k.p.desc.typ (runValue s k) ++ toLE 1 k.p.desc.typ ++ valueBytes k.p.desc.typ (comValue s k) ++ toLE 1 (if isPending s k then 1 else 0)) ∧
  (∀ c first count newer old s, 1 ≤ c → c ≤ 10 → 1 ≤ count → count ≤ 28 → first < 2 ^ 32 → s.recorder.rings.getD (c - 1) [] = newer ++ [old] →
    let recs := ((old :: newer.reverse).filter fun e => decide (first ≤ e.seq)).take count
    opEventList (toLE 1 c ++ toLE 3 0 ++ toLE 4 first ++ toLE 1 count) s =
      (s, 0, min (old.seq - first) 65535,
        toLE 1 c ++ toLE 3 0 ++ toLE 4 old.seq ++ toLE 4 (s.recorder.seq.getD (c - 1) 0) ++ toLE 1 recs.length ++ toLE 3 0 ++ recs.flatMap eventBytes)) ∧
  (∀ g off count n s, regionSize g = some n → 1 ≤ count → count ≤ 1376 → off + count ≤ n →
    ∃ bs, opRecRead (toLE 1 g ++ toLE 3 0 ++ toLE 4 off ++ toLE 2 count) s = (s, 0, 0, toLE 1 g ++ toLE 3 0 ++ toLE 4 off ++ toLE 2 count ++ toLE 4 s.recorder.commits ++ toLE 2 0 ++ bs) ∧
      bs.length = count ∧ ∀ i, i < count → bs.getD i 0 = regionByte s.recorder g (off + i)) ∧
  (∀ off count p s, s.prog.active = some p → 1 ≤ count → count ≤ 1384 → off + count ≤ p.raw.length → p.raw.length ≤ 262176 →
    opProgRead (toLE 4 0 ++ toLE 4 off ++ toLE 2 count) s = (s, 0, 0, (p.raw.drop off).take count)) ∧
  (∀ first c s, first % 8 = 0 → first ≤ c → c < first + 8192 → c < totalOf s → totalOf s < 2 ^ 32 →
    bit ((opUpdStatus (toLE 4 first) s).2.2.2.getD (28 + (c - first) / 8) 0).toNat ((c - first) % 8) = s.upd.got.contains c) ∧
  (∀ first n s, first < 16 → 1 ≤ n → n ≤ 5 →
    opJournalRead (toLE 1 first ++ toLE 1 n) s =
      (s, 0, 0, toLE 1 s.boot.newest ++ toLE 1 n ++ toLE 2 0 ++ (List.range n).flatMap fun k => journalBytes (s.boot.journal.getD ((first + k) % 16) {}))) ∧
  (∀ first count newer old s, 1 ≤ count → count ≤ 40 → first < 2 ^ 32 → s.bist.ring = newer ++ [old] →
    let recs := ((old :: newer.reverse).filter fun e => decide (first ≤ e.seq)).take count
    opBistRead (toLE 4 first ++ toLE 1 count) s =
      (s, 0, min (old.seq - first) 65535, toLE 4 old.seq ++ toLE 4 s.bist.seq ++ toLE 1 recs.length ++ toLE 3 0 ++ recs.flatMap bistBytes)) ∧
  (∀ s p f, s.comb.published = some p → p.frame < f → f ≠ 0xFFFFFFFFFFFFFFFF → frameFor s f = .inr 3) ∧
  (∀ s p q f, s.comb.published = some p → s.comb.previous = some q → f < p.frame → f ≠ q.frame → p.frame < 0xFFFFFFFFFFFFFFFF → frameFor s f = .inr 2) ∧
  (∀ t id seq pay k x n s, admitted t id seq 0x0204 pay k x s → rd 1 0 pay = 0 → rd 2 4 pay = n → 1 ≤ n → n ≤ 340 → pay.length = 8 + 4 * n → 1 ≤ rd 1 1 pay → rd 1 1 pay ≤ 100 →
    x.subs.length < 4 → (openSubs s).length < 16 →
    let u : Subscription := { id := 0, kind := 0, period := rd 1 1 pay, keys := keyList n (pay.drop 8), first := 0, count := 0, parts := 0 }
    ((openSubs s).map (·.parts)).sum + subParts s u ≤ s.parN .hostPushMax →
    Completes (.subscribe t id seq pay) s fun r =>
      ∃ i, 1 ≤ i ∧ i ≤ 4 ∧ (∀ v ∈ x.subs, v.id ≠ i) ∧ notedIn k x t seq 0x0204 [stBytes 0 0 ++ toLE 1 i] (x.subs ++ [{ u with id := i, parts := subParts s u }]) s r ∧
        replied x 0x0204 seq [stBytes 0 0 ++ toLE 1 i] s r ∧ keepsBut [.time, .host, .out] s r) ∧
  (∀ t id seq pay k x s, admitted t id seq 0x0205 pay k x s → pay.length = 1 → (∃ u ∈ x.subs, u.id = rd 1 0 pay) →
    Completes (.unsubscribe t id seq pay) s fun r =>
      notedIn k x t seq 0x0205 [stBytes 0 0] (x.subs.filter fun u => u.id != rd 1 0 pay) s r ∧ replied x 0x0205 seq [stBytes 0 0] s r ∧ keepsBut [.time, .host, .out] s r) ∧
  (∀ t (k : Fin 8) id ends x img u s, netUp s = true → sessionAt s k.val = some x → s.comb.published = some img → (x.subs.find? fun v => v.id == id) = some u →
    img.frame % u.period = 0 → u.lastFrame ≠ some img.frame →
    let parts := pushParts s u img
    let late := fun j => (img.frame + 1) * frameNs + 15000000 < doneAt t ends j
    Completes (.push t k id ends) s fun r =>
      (∀ j, j < parts.length → ¬late j → Output.fhp x.addr x.port (fhpMessage x.key 3 x.id (x.pushSeq + 1 + j) 0x0206 (parts.getD j [])) ∈ r.out) ∧
      (∃ w, sessionAt r k.val = some w ∧ w.pushSeq = x.pushSeq + parts.length ∧ (∀ v ∈ w.subs, v.id = id → v.lastFrame = some img.frame)) ∧
      (∀ j, j ≠ k.val → sessionAt r j = sessionAt s j) ∧ ((∀ j, j < parts.length → ¬late j) → r.host.pushDrop = s.host.pushDrop) ∧
      ((∃ j, j < parts.length ∧ late j) → s.host.pushDrop < r.host.pushDrop ∧ r.isRaised 0x6027 k.val = true) ∧ keepsBut [.time, .host, .recorder, .out] s r)

/-- Parameters (R409 to R411): the edit lock is taken by one session and refused to another; PARAM_WRITE with the lock applies all its writes or none; a write is pending while it differs from the committed value; DISCARD ends every pending write and the lock. The committed generation never changes by any of them. Completion: for editLock, paramWrite, discard exec answers a next state wherever the conditions of the clause on the command and the state hold. -/
def Obligations.ParameterWrites : Prop :=
  (∀ t id seq pay k x s, admitted t id seq 0x0302 pay k x s → (engineer x.role = true ∨ x.role = .safety) → pay.length = 1 → rd 1 0 pay ≤ 1 →
    (s.host.lock = none ∨ s.host.lock = some x.id) →
    Completes (.editLock t id seq pay) s fun r =>
      r.host.lock = (if rd 1 0 pay = 1 then none else some x.id) ∧ carriedOut k x t seq 0x0302 [stBytes 0 0] s r ∧ keepsBut [.time, .host, .out] s r) ∧
  (∀ t id seq pay k x h s, admitted t id seq 0x0302 pay k x s → (engineer x.role = true ∨ x.role = .safety) → pay.length = 1 → rd 1 0 pay ≤ 1 →
    s.host.lock = some h → h ≠ x.id →
    Completes (.editLock t id seq pay) s fun r => r.host.lock = some h ∧ carriedOut k x t seq 0x0302 [stBytes 12 0] s r ∧ keepsBut [.time, .host, .out] s r) ∧
  (∀ t id seq pay k x ws s, admitted t id seq 0x0303 pay k x s → (engineer x.role = true ∨ x.role = .safety) → s.host.lock = some x.id → 1 ≤ rd 1 0 pay → rd 1 0 pay ≤ 16 →
    readWrites s x.role [] (rd 1 0 pay) 0 (pay.drop 1) = .inl ws →
    Completes (.paramWrite t id seq pay) s fun r =>
      r.boot = (forEach ws (fun w s => writeParam w.1 w.2 s) s).boot ∧ carriedOut k x t seq 0x0303 [stBytes 0 0] s r ∧ keepsBut [.time, .host, .boot, .out] s r) ∧
  (∀ t id seq pay k x st i s, admitted t id seq 0x0303 pay k x s → (engineer x.role = true ∨ x.role = .safety) → s.host.lock = some x.id → 1 ≤ rd 1 0 pay → rd 1 0 pay ≤ 16 →
    readWrites s x.role [] (rd 1 0 pay) 0 (pay.drop 1) = .inr (st, i) →
    Completes (.paramWrite t id seq pay) s fun r => carriedOut k x t seq 0x0303 [stBytes st i] s r ∧ keepsBut [.time, .host, .out] s r) ∧
  (∀ k v s,
    (isSection k = true ∨ v ≠ comValue s k → (writeParam k v s).boot.pend.lookup k = some v) ∧ (isSection k = false → v = comValue s k → (writeParam k v s).boot.pend.lookup k = none) ∧
    (∀ j, j ≠ k → (writeParam k v s).boot.pend.lookup j = s.boot.pend.lookup j) ∧ (writeParam k v s).boot.com = s.boot.com ∧
    (k.p.desc.effect = .now → paramIn (writeParam k v s).boot.run.params k = v) ∧ keepsBut [.boot] s (writeParam k v s)) ∧
  (∀ t id seq k x s, admitted t id seq 0x0305 [] k x s → (engineer x.role = true ∨ x.role = .safety) → s.host.lock = some x.id →
    Completes (.discard t id seq) s fun r =>
      r.boot.pend = [] ∧ r.boot.com = s.boot.com ∧ r.boot.comGen = s.boot.comGen ∧ r.host.lock = none ∧ carriedOut k x t seq 0x0305 [stBytes 0 0] s r ∧
      keepsBut [.time, .host, .boot, .out] s r)

/-- The commit (R412, R529, R531). COMMIT that meets every rule begins and ends the lock, without an answer yet; one that names another generation is refused with 0x6023. At its end the new generation is committed in copy A, copy B and the shadow, and answered with its number and SCV; a commit that fails in step 4 leaves the committed generation as it was. Completion: for commit, commitComplete exec answers a next state wherever the conditions of the clause on the command and the state hold. -/
def Obligations.Commit : Prop :=
  (∀ t id seq pay k x c s, admitted t id seq 0x0304 pay k x s → (engineer x.role = true ∨ x.role = .safety) → pay.length = 4 → s.boot.commit = none →
    (s.host.lock = none ∨ s.host.lock = some x.id) → rd 4 0 pay = s.boot.comGen → s.therm.flashInh = false → (∀ e ∈ changed s, mayWrite s x.role e.1 = true) →
    ((changed s).all (fun e => !isSafetyName e.1.p) = true ∨ s.boot.mode = .commission ∧ s.boot.life ≠ .blank ∧ s.boot.life ≠ .returned) →
    (∀ e ∈ changed s, e.1.p ≠ .bootLifecycle) → nextGen s < 0xFFFFFFFF → newContent s = some c → contentFault s c = none →
    Completes (.commit t id seq pay) s fun r =>
      r.boot.commit = some { img := buildImage (s.at_ t) c, slot := k, session := x.id, seq := seq } ∧ { r.boot with commit := none } = s.boot ∧ r.host.lock = none ∧ r.out = s.out ∧
      keepsBut [.time, .host, .boot, .recorder] s r) ∧
  (∀ t id seq pay k x s, admitted t id seq 0x0304 pay k x s → (engineer x.role = true ∨ x.role = .safety) → pay.length = 4 → s.boot.commit = none →
    (s.host.lock = none ∨ s.host.lock = some x.id) → rd 4 0 pay ≠ s.boot.comGen →
    Completes (.commit t id seq pay) s fun r =>
      carriedOut k x t seq 0x0304 [stBytes 8 0x6023] s r ∧ r.recorder = (State.raise 0x6023 0 (s.at_ t)).recorder ∧ keepsBut [.time, .host, .recorder, .out] s r) ∧
  (∀ t c x s, s.boot.commit = some c → c.img.bad = 0 → sessionAt s c.slot = some x → x.id = c.session →
    Completes (.commitComplete t true true) s fun r =>
      r.boot.comGen = c.img.gen ∧ r.boot.com = c.img.cfg ∧ r.boot.copyA = some c.img ∧ r.boot.copyB = some c.img ∧ r.boot.shadow = some c.img ∧ r.boot.aside = 0 ∧
      r.boot.commit = none ∧ r.boot.toApply = some c.img.cfg ∧ r.boot.run = s.boot.run ∧
      replied x 0x0304 c.seq [stBytes 0 0 ++ toLE 4 c.img.gen ++ toLE 4 c.img.scv] s r ∧ keepsBut [.time, .host, .boot, .recorder, .out] s r) ∧
  (∀ t c ok6 x s, s.boot.commit = some c → sessionAt s c.slot = some x → x.id = c.session →
    Completes (.commitComplete t false ok6) s fun r =>
      r.boot.comGen = s.boot.comGen ∧ r.boot.com = s.boot.com ∧ r.boot.pend = s.boot.pend ∧ r.boot.shadow = s.boot.shadow ∧ r.boot.commit = none ∧
      (if firstIsB s then r.boot.copyA = s.boot.copyA ∧ r.boot.copyB = some { c.img with bad := 1 } else r.boot.copyB = s.boot.copyB ∧ r.boot.copyA = some { c.img with bad := 1 }) ∧
      r.recorder = (State.raise 0x900B 0 (s.at_ t)).recorder ∧ replied x 0x0304 c.seq [stBytes 8 0x900B] s r ∧ keepsBut [.time, .host, .boot, .recorder, .out] s r)

/-- Program commands (R445, R457, R460, R462, R466). A command accepted waits with its timestamp for the cycle boundary: Hold is refused in Operate, a force of a value outside its variable's type, in the program that the commands waiting leave in force, is refused, an activation must name the staged version. A cycle that ends by its deadline notes its length; one that does not counts an overrun, discards its variables and outputs, and stops the program with 0x7002 until it is run again. A staging left alone for the prog.stage.timeout of its last piece ends. PROG_LOAD (R450, R466): a first piece that does not complete the image is staged; an image that is complete and passes its checks becomes the staged program with 0x7001, and one that fails is refused with 0x7003 and the index of its first fault, and leaves the staged program. Completion: for programMode, forceVariable, releaseForce, activateOnlineChange, programDeadline, programStagingTimeout, progLoad exec answers a next state wherever the conditions of the clause on the command and the state hold. -/
def Obligations.CyclicProgram : Prop :=
  (∀ t (code : Fin 3) s, s.running = true → (code ≠ 2 ∨ s.boot.mode ≠ .operate) →
    Completes (.programMode t code) s fun r => r.prog = { s.prog with cmds := s.prog.cmds ++ [(.mode code.val, t)] } ∧ keepsBut [.time, .prog] s r) ∧
  (∀ t s, s.running = true → s.boot.mode = .operate → exec (.programMode t 2) s = .next (State.raise 0x700A 0 (s.at_ t))) ∧
  (∀ t (i : BitVec 16) (v : BitVec 64) b s, s.running = true → ((soonProg s).vars.getD i.toNat {}).typ ≠ 0 → ((soonProg s).vars.getD i.toNat {}).kind ≠ 1 →
    forceBits ((soonProg s).vars.getD i.toNat {}).typ v.toNat = some b → (s.boot.mode = .operate → s.parB .progForceOperate = true) →
    ((forcedSoon s).length < 64 ∨ i.toNat ∈ forcedSoon s) →
    Completes (.forceVariable t i v) s fun r => r.prog = { s.prog with cmds := s.prog.cmds ++ [(.force i.toNat b, t)] } ∧ keepsBut [.time, .prog] s r) ∧
  (∀ t (i : BitVec 16) (v : BitVec 64) s, s.running = true → forceBits ((soonProg s).vars.getD i.toNat {}).typ v.toNat = none →
    exec (.forceVariable t i v) s = .next (s.at_ t)) ∧
  (∀ t (i : BitVec 16) s, s.running = true → (varDef s i.toNat).typ ≠ 0 →
    Completes (.releaseForce t i) s fun r => r.prog = { s.prog with cmds := s.prog.cmds ++ [(.release i.toNat, t)] } ∧ keepsBut [.time, .prog] s r) ∧
  (∀ t (version : BitVec 32) p s, s.running = true → s.prog.staged = some p → p.version = version.toNat →
    Completes (.activateOnlineChange t version) s fun r => r.prog = { s.prog with cmds := s.prog.cmds ++ [(.activate version.toNat, t)] } ∧ keepsBut [.time, .prog] s r) ∧
  (∀ t (version : BitVec 32) s, s.running = true → (∀ p, s.prog.staged = some p → p.version ≠ version.toNat) →
    exec (.activateOnlineChange t version) s = .next (State.raise 0x7003 0 (s.at_ t))) ∧
  (∀ t us s, s.running = true → s.prog.began = true →
    Completes (.programDeadline t us true) s fun r =>
      r.prog = { s.prog with began := false, lastT := min 65535 us, maxT := max s.prog.maxT (min 65535 us) } ∧ keepsBut [.time, .prog] s r) ∧
  (∀ t us s, s.running = true → s.prog.began = true → s.frameStart + 8000000 ≤ t →
    Completes (.programDeadline t us false) s fun r =>
      r.prog.st = .overrun ∧ r.prog.overruns = s.prog.overruns + 1 ∧ r.prog.vars = s.prog.before ∧ r.prog.outNext = none ∧ r.prog.safeNext = true ∧ r.prog.began = false ∧
      r.prog.outNow = s.prog.outNow ∧ r.isRaised 0x7002 0 = true ∧ keepsBut [.time, .prog, .recorder] s r) ∧
  (∀ t g s, s.up = true → s.prog.staging = some g → g.last + g.timeout * 1000000000 ≤ t →
    Completes (.programStagingTimeout t) s fun r => r.prog = { s.prog with staging := none } ∧ keepsBut [.time, .prog] s r) ∧
  (∀ t id seq pay k x s, admitted t id seq 0x0601 pay k x s → engineer x.role = true → s.prog.staging = none → 17 ≤ pay.length → pay.length ≤ 1400 →
    rd 4 8 pay ≤ 262176 → rd 4 4 pay + (pay.length - 16) ≤ rd 4 8 pay → pay.length - 16 < rd 4 8 pay →
    Completes (.progLoad t id seq pay) s fun r =>
      r.prog = { s.prog with staging := some { version := rd 4 0 pay, total := rd 4 8 pay, pieces := [(rd 4 4 pay, pay.drop 16)], last := t, timeout := s.parN .progStageTimeout } } ∧
      carriedOut k x t seq 0x0601 [stBytes 0 0] s r ∧ keepsBut [.time, .host, .prog, .out] s r) ∧
  (∀ t id seq pay k x s, admitted t id seq 0x0601 pay k x s → engineer x.role = true → s.prog.staging = none → 17 ≤ pay.length → pay.length ≤ 1400 →
    rd 4 4 pay = 0 → rd 4 8 pay = pay.length - 16 → progFault s (pay.drop 16) = none →
    Completes (.progLoad t id seq pay) s fun r =>
      r.prog = { s.prog with staged := some (imageOf (pay.drop 16)) } ∧ r.recorder = (State.raise 0x7001 0 (s.at_ t)).recorder ∧
      carriedOut k x t seq 0x0601 [stBytes 0 0] s r ∧ keepsBut [.time, .host, .prog, .recorder, .out] s r) ∧
  (∀ t id seq pay k x i s, admitted t id seq 0x0601 pay k x s → engineer x.role = true → s.prog.staging = none → 17 ≤ pay.length → pay.length ≤ 1400 →
    rd 4 4 pay = 0 → rd 4 8 pay = pay.length - 16 → progFault s (pay.drop 16) = some i →
    Completes (.progLoad t id seq pay) s fun r =>
      r.prog = s.prog ∧ r.recorder = (State.raise 0x7003 i (s.at_ t)).recorder ∧ carriedOut k x t seq 0x0601 [stBytes 8 0x7003] s r ∧
      keepsBut [.time, .host, .recorder, .out] s r)

/-- Forces (R458): there are never more than 64; a 65th is refused with 0x7008 and leaves them unchanged; a force on a forced variable replaces its value and takes no new place. -/
def Obligations.Forces : Prop :=
  (∀ i b s, s.prog.forces.length ≤ 64 → (forceVar i b s).prog.forces.length ≤ 64) ∧
  (∀ i b s, (s.prog.forces.lookup i) = none → 64 ≤ s.prog.forces.length → (forceVar i b s).prog = s.prog ∧ forceVar i b s = State.raise 0x7008 0 s) ∧
  (∀ i b s, (s.prog.forces.lookup i).isSome = true → (forceVar i b s).prog.forces.lookup i = some b ∧ (forceVar i b s).prog.forces.length ≤ s.prog.forces.length ∧
    ∀ j, j ≠ i → (forceVar i b s).prog.forces.lookup j = s.prog.forces.lookup j) ∧
  (∀ t (i : BitVec 16) (v : BitVec 64) b s, s.running = true → ((soonProg s).vars.getD i.toNat {}).typ ≠ 0 → ((soonProg s).vars.getD i.toNat {}).kind ≠ 1 →
    forceBits ((soonProg s).vars.getD i.toNat {}).typ v.toNat = some b → (s.boot.mode = .operate → s.parB .progForceOperate = true) → 64 ≤ (forcedSoon s).length → i.toNat ∉ forcedSoon s →
    (cmdForce i.toNat v.toNat t s).2 = (8, 0x7008) ∧ Completes (.forceVariable t i v) s fun r => r.prog = s.prog ∧ r.recorder = (State.raise 0x7008 i.toNat (s.at_ t)).recorder ∧ keepsBut [.time, .recorder] s r)

/-- Events (R479, R480). A raise of the code and argument of the newest record of its class counts one more repeat in it and makes it active again; any other raise enters a new newest record with the next sequence number; an event that is not recorded only then stands raised. A clear makes its newest record inactive, and the event stands no longer. EVENT_RECORD is such a raise for the classes 0x1 to 0xA. Completion: for eventRecord exec answers a next state wherever the conditions of the clause on the command and the state hold. -/
def Obligations.Events : Prop :=
  (∀ code arg e es s, 1 ≤ evClass code → evClass code ≤ 10 → s.recorder.rings.length = 10 → s.recorder.rings.getD (evClass code - 1) [] = e :: es → e.code = code → e.arg = arg →
    (State.raise code arg s).recorder.rings.getD (evClass code - 1) [] =
      { e with repeat_ := min (e.repeat_ + 1) 0xFFFFFFFF, active := !recordedOnly.contains code, lastT := s.time.now, lastOps := s.recorder.ops, lastPc := s.recorder.pc } :: es) ∧
  (∀ code arg s, 1 ≤ evClass code → evClass code ≤ 10 → s.recorder.rings.length = 10 → s.recorder.seq.length = 10 → (s.recorder.rings.getD (evClass code - 1) []).length < 3840 →
    (∀ e es, s.recorder.rings.getD (evClass code - 1) [] = e :: es → ¬(e.code = code ∧ e.arg = arg)) →
    let r := State.raise code arg s
    (∃ n, r.recorder.rings.getD (evClass code - 1) [] = n :: s.recorder.rings.getD (evClass code - 1) [] ∧ n.seq = s.recorder.seq.getD (evClass code - 1) 0 + 1 ∧ n.code = code ∧ n.arg = arg ∧
      n.repeat_ = 0 ∧ n.firstT = s.time.now ∧ n.lastT = s.time.now ∧ n.active = !recordedOnly.contains code) ∧
    r.recorder.seq.getD (evClass code - 1) 0 = s.recorder.seq.getD (evClass code - 1) 0 + 1 ∧
    (∀ j, j ≠ evClass code - 1 → r.recorder.rings.getD j [] = s.recorder.rings.getD j [] ∧ r.recorder.seq.getD j 0 = s.recorder.seq.getD j 0)) ∧
  (∀ code arg s, (recordedOnly.contains code = false → (State.raise code arg s).isRaised code arg = true) ∧ (State.clear code arg s).isRaised code arg = false ∧
    keepsBut [.recorder] s (State.raise code arg s) ∧ keepsBut [.recorder] s (State.clear code arg s)) ∧
  (∀ code arg e es s, evClass code ≤ 10 → s.recorder.rings.length = 10 → s.isRaised code arg = true → s.recorder.rings.getD (evClass code - 1) [] = e :: es → e.code = code → e.arg = arg →
    (State.clear code arg s).recorder.rings.getD (evClass code - 1) [] = { e with active := false } :: es) ∧
  (∀ t (code : BitVec 16) (arg : BitVec 32) s, s.up = true → 1 ≤ evClass code.toNat → evClass code.toNat ≤ 10 →
    exec (.eventRecord t code arg) s = .next (State.raise code.toNat arg.toNat (s.at_ t)))

/-- No ring ever holds more than 3840 records (R479): every raise, every clear, the end of a round and the round commit keep the bound. -/
def Obligations.RingBound : Prop :=
  ∀ s : State, (∀ l ∈ s.recorder.rings, l.length ≤ 3840) →
    (∀ code arg, ∀ l ∈ (State.raise code arg s).recorder.rings, l.length ≤ 3840) ∧ (∀ code arg, ∀ l ∈ (State.raiseRound code arg s).recorder.rings, l.length ≤ 3840) ∧
    (∀ code arg, ∀ l ∈ (State.clear code arg s).recorder.rings, l.length ≤ 3840) ∧ (∀ code arg on, ∀ l ∈ (State.stand code arg on s).recorder.rings, l.length ≤ 3840) ∧
    (∀ l ∈ (endRound s).recorder.rings, l.length ≤ 3840) ∧ (∀ l ∈ (commitRound s).recorder.rings, l.length ≤ 3840)

/-- The round commit and the clearing of a region (R481, R482, R485, R486). In the frame with r = 99, from 5.0 ms to 9.5 ms and once, the accumulation of the round enters the string blocks, the cells and the histogram, the commit is counted, the accumulations begin again, and each region has a new token; a missed commit keeps the accumulations and raises 0x8040. A clear command with a token in force waits for the commit, and is refused with 0x8042 otherwise. Completion: for recorderCommit, recorderCommitMissed, clearRecorderRegion exec answers a next state wherever the conditions of the clause on the command and the state hold. -/
def Obligations.RecorderCommits : Prop :=
  (∀ t s, s.running = true → s.roundPos = 99 → s.recorder.on = true → s.workDue 2 = true → s.frameStart + 5000000 ≤ t → t ≤ s.frameStart + 9500000 → s.recorder.clearReq = [] → s.recorder.cellClear = [] →
    Completes (.recorderCommit t) s fun r =>
      r.recorder.strs = List.zipWith (addBlock s.recorder.ops s.recorder.pc) s.recorder.strs s.recorder.acc ∧
      r.recorder.die = List.zipWith (· + ·) s.recorder.die s.recorder.dieAcc ∧
      (∀ c x, s.recorder.cellAcc.lookup c = some x → r.recorder.cells.lookup c = some x) ∧ (∀ c, s.recorder.cellAcc.lookup c = none → r.recorder.cells.lookup c = s.recorder.cells.lookup c) ∧
      r.recorder.acc = [{}, {}, {}, {}] ∧ r.recorder.cellAcc = [] ∧ r.recorder.dieAcc = List.replicate 41 0 ∧ r.recorder.commits = (s.recorder.commits + 1) % 2 ^ 32 ∧
      (∀ g, g < 4 → s.recorder.tokens.length = 4 → (r.recorder.tokens.getD g (0, 0)).2 = (s.recorder.tokens.getD g (0, 0)).1 ∧ (r.recorder.tokens.getD g (0, 0)).1 ≠ 0) ∧
      r.freeCtr = s.freeCtr + 4 ∧ r.isRaised 0x8040 0 = false ∧ keepsBut [.time, .recorder, .freeCtr] s r) ∧
  (∀ t s, s.running = true → s.roundPos = 99 → s.workDue 2 = true → s.frameStart + 9500000 ≤ t →
    Completes (.recorderCommitMissed t) s fun r =>
      r.isRaised 0x8040 0 = true ∧ r.recorder.acc = s.recorder.acc ∧ r.recorder.strs = s.recorder.strs ∧ r.recorder.cellAcc = s.recorder.cellAcc ∧ r.recorder.dieAcc = s.recorder.dieAcc ∧
      r.recorder.commits = s.recorder.commits ∧ keepsBut [.time, .recorder] s r) ∧
  (∀ t session (region : BitVec 8) (token : BitVec 32) s, s.running = true → region.toNat < 4 →
    (token.toNat = (s.recorder.tokens.getD region.toNat (0, 0)).1 ∨ token.toNat = (s.recorder.tokens.getD region.toNat (0, 0)).2) → s.modeIn .recClearModes = true →
    s.recorder.clears.length < 256 → (∀ q ∈ s.recorder.clearReq, q.1 ≠ region.toNat) →
    Completes (.clearRecorderRegion t session region token) s fun r =>
      r.recorder = { s.recorder with clearReq := s.recorder.clearReq ++ [(region.toNat, token.toNat, session)] } ∧ keepsBut [.time, .recorder] s r) ∧
  (∀ t session (region : BitVec 8) (token : BitVec 32) s, s.running = true →
    (4 ≤ region.toNat ∨ token.toNat ≠ (s.recorder.tokens.getD region.toNat (0, 0)).1 ∧ token.toNat ≠ (s.recorder.tokens.getD region.toNat (0, 0)).2 ∨ s.modeIn .recClearModes = false ∨
      256 ≤ s.recorder.clears.length) →
    exec (.clearRecorderRegion t session region token) s = .next (State.raise 0x8042 0 (s.at_ t))) ∧
  (∀ g token session s,
    let r := clearRegion (g, token, session) s
    (g = 0 → r.recorder.strs = [{}, {}, {}, {}] ∧ r.recorder.acc = [{}, {}, {}, {}] ∧ r.recorder.cells = s.recorder.cells ∧ r.recorder.die = s.recorder.die) ∧
    (g = 1 → r.recorder.cells = [] ∧ r.recorder.cellAcc = [] ∧ r.recorder.strs = s.recorder.strs ∧ r.recorder.die = s.recorder.die) ∧
    (g = 2 → r.recorder.die = List.replicate 41 0 ∧ r.recorder.dieAcc = List.replicate 41 0 ∧ r.recorder.strs = s.recorder.strs ∧ r.recorder.cells = s.recorder.cells) ∧
    (g = 3 → (∀ k, k ≠ 7 → r.recorder.rings.getD k [] = survivors s.frameStart (s.recorder.rings.getD k [])) ∧ r.recorder.strs = s.recorder.strs ∧ r.recorder.cells = s.recorder.cells ∧ r.recorder.die = s.recorder.die) ∧
    (s.recorder.clears.length < 256 → ∃ c, r.recorder.clears = s.recorder.clears ++ [c] ∧ c.kind = g ∧ c.done = true ∧ c.session = session ∧ c.arg = token) ∧ keepsBut [.recorder, .freeCtr] s r) ∧
  (∀ (l : List EvRec) t0, ((∀ e ∈ l, e.lastT < t0) → survivors t0 l = []) ∧ ((∀ e ∈ l, t0 ≤ e.firstT ∧ e.firstT ≤ e.lastT) → survivors t0 l = l))

/-- Memory (R12, R491 to R503). A complete bank copy waits for the frame boundary, where the spare takes the bank's content and 0x8009 stands; a refetch that passes ends a trap, and the third in a row that fails restarts the module; a DMA halt is counted, and its unit discarded and counted by its chapter; a line fails when its stored check differs from the check of its content, and is written back from its source, merged with the part that the read was for, with a fresh check, while one that passes is unchanged but for that part; a failed image line is served from the other buffer; an intact mirror that differs from its source is rewritten from it, with 0x8012, and a mirrored line whose two copies fail closes its session, or stops the program; a failed core pair leaves service at the frame boundary while another serves. Completion: for bankCopyComplete, fetchTrap, dmaHalt, corePairFail exec answers a next state wherever the conditions of the clause on the command and the state hold. -/
def Obligations.MemoryFaults : Prop :=
  (∀ t b s, s.up = true → s.mem.copying = some b → Completes (.bankCopyComplete t) s fun r => r.mem = { s.mem with switch := some b } ∧ keepsBut [.time, .mem] s r) ∧
  (∀ b x s, s.mem.switch = some b → spareBank s = some x → (bank s b).st = 2 → s.mem.banks.length = 9 → s.mem.toRetire = none →
    (bank (bankFrame s) x).st = 0 ∧ (bank (bankFrame s) x).logical = (bank s b).logical ∧ (bank (bankFrame s) b).st = 3 ∧ (∀ j, j ≠ b → j ≠ x → bank (bankFrame s) j = bank s j) ∧
    (bankFrame s).isRaised 0x8009 0 = true ∧ keepsBut [.mem, .recorder] s (bankFrame s)) ∧
  (∀ t (addr : BitVec 32) s, s.up = true →
    Completes (.fetchTrap t addr true) s fun r =>
      r.mem.refetch = 0 ∧ r.mem.traps = (if s.mem.refetch = 0 then s.mem.traps + 1 else s.mem.traps) ∧ keepsBut [.time, .mem, .bist, .recorder] s r) ∧
  (∀ t (addr : BitVec 32) s, s.up = true → s.mem.refetch < 2 →
    Completes (.fetchTrap t addr false) s fun r => r.mem.refetch = s.mem.refetch + 1 ∧ keepsBut [.time, .mem, .bist, .recorder] s r) ∧
  (∀ t (addr : BitVec 32) s, s.up = true → s.mem.refetch = 2 →
    Completes (.fetchTrap t addr false) s fun r =>
      r.boot.phase = .start ∧ r.boot.step = 1 ∧ r.boot.cause = 3 ∧ r.boot.mode = .start ∧ (∀ n, n < 4 → gateEn r n = false) ∧ r.out = Output.restart 3 :: s.out ∧
      r.learned = s.learned ∧ r.pending = s.pending) ∧
  (∀ t (channel : BitVec 8) f u s, s.up = true → lineFails f = false → exec (.dmaHalt t channel f u) s = .next (s.at_ t)) ∧
  (∀ t (channel : BitVec 8) f u s, s.up = true → lineFails f = true → s.can.ports.length = 2 →
    Completes (.dmaHalt t channel f u) s fun r =>
      r.mem.halts = s.mem.halts + 1 ∧ (u = .fhp → r.host.discarded = s.host.discarded + 1) ∧ (∀ p : Fin 2, u = .can p → (canPort r p.val).lenRej = (canPort s p.val).lenRej + 1) ∧
      (f.holds = .transient → u = .other → keepsBut [.time, .mem, .bist, .recorder] s r) ∧
      keepsBut [.time, .pwr, .bist, .can, .core, .recorder, .prog, .comb, .links, .mem, .boot, .learned, .host, .freeCtr] s r) ∧
  (∀ f s, (∀ b l, f.holds ≠ .image b l) →
    let d := if lineFails f then f.source else f.data
    (lineFails f = true ∨ f.part.isSome = true → f.holds ≠ .mirrorDiffers ∨ lineFails f = true ∨ f.data = f.source →
      (repairLine f s).mem.lines.lookup (inMram f.holds, lineNo f) =
        (let w := (match f.part with | some (o, p) => mergePart d o p | none => d); some (w, lineCheck (lineNo f) w))) ∧
    (lineFails f = false → f.holds = .mirrorDiffers → f.data ≠ f.source →
      (repairLine f s).mem.lines.lookup (false, lineNo f) = some (f.source, lineCheck (lineNo f) f.source) ∧ (repairLine f s).recorder = (State.raise 0x8012 f.addr s).recorder) ∧
    (lineFails f = false → f.part = none → f.holds ≠ .mirrorDiffers ∨ f.data = f.source → repairLine f s = s)) ∧
  (∀ f (b : Fin 3) line s, f.holds = .image b line → lineFails f = true →
    let r := repairLine f s
    r.comb.repairs = s.comb.repairs + 1 ∧ (b.val, line) ∈ r.comb.failedLines ∧ r.isRaised 0x8020 f.addr = true ∧ keepsBut [.comb, .mem, .bist, .recorder] s r) ∧
  (∀ f (k : Fin 8) s, f.holds = .mirrored (.session k) true → lineFails f = true → s.host.slots.length = 8 → sessionAt (repairLine f s) k.val = none) ∧
  (∀ f s, f.holds = .mirrored .program true → lineFails f = true → (repairLine f s).prog.st = .overrun ∧ (repairLine f s).prog.safeNext = true) ∧
  (∀ t (p : Fin 2) s, s.up = true → s.mem.pairOk.getD p.val false = true →
    Completes (.corePairFail t p) s fun r => r.mem = { s.mem with pairFail := some p.val } ∧ keepsBut [.time, .mem] s r) ∧
  (∀ p s, s.mem.pairFail = some p → p < 2 → s.mem.pairOk.length = 2 →
    (s.mem.pairOk.getD (1 - p) false = true →
      (pairFrame s).mem.pairOk.getD p true = false ∧ (pairFrame s).mem.pairOk.getD (1 - p) false = true ∧ (pairFrame s).isRaised 0x800D p = true) ∧
    (s.mem.pairOk.getD (1 - p) false = false → (pairFrame s).mem.pairOk = s.mem.pairOk) ∧ (pairFrame s).mem.pairFail = none ∧ keepsBut [.mem, .recorder] s (pairFrame s))

/-- The slice cycle and the deep tests (R559 to R568, R570). In frame r = 50, from 5.0 ms to 9.0 ms, the slice due leaves a record of its outcome and the pointer moves on; a slice whose precondition fails is skipped with its reason; while no P3 work is granted it is deferred and the pointer stays; while one core pair runs alone the slices of the other are run with no grant and move no pointer; a slice is aborted when VCORE leaves 3 % or its time passes, which leaves the pointer too, and 0x8050 stands until a slice passes. A deep test that is admitted runs for its time, and one that is not is refused with 0x8054; its end records the outcome, and the module restarts after the blocks 0 to 3. Completion: for bistSlice, bistSliceAbort, runDeepSelfTest, deepTestEnd exec answers a next state wherever the conditions of the clause on the command and the state hold. -/
def Obligations.SelfTests : Prop :=
  (∀ t (mv : BitVec 16) clockOk pass (d : BitVec 32) s, s.running = true → s.roundPos = 50 → s.frameStart + 5000000 ≤ t → t ≤ s.frameStart + 9000000 → s.bist.running = none → s.bist.lastFrame ≠ some s.time.frame → p3Off s = false → s.pwr.grant.getD 3 0 ≠ 0 →
    unmet s (slicePos s) mv.toNat clockOk = 0 → (slicePos s < 12 → (spareBank s).isSome = true ∨ (retiredBank s).isSome = true) →
    Completes (.bistSlice t mv clockOk (some (pass, d))) s fun r =>
      (∃ e, r.bist.ring = e :: s.bist.ring.take 255 ∧ e.seq = s.bist.seq + 1 ∧ e.slice = slicePos s ∧ e.outcome = (if pass then 0 else 1) ∧ e.detail = d.toNat ∧ e.time = max s.time.now t) ∧
      r.bist.ptr = (slicePos s + 1) % 22 ∧ (pass = true → r.isRaised 0x8050 0 = false) ∧ keepsBut [.time, .bist, .mem, .recorder] s r) ∧
  (∀ t (mv : BitVec 16) clockOk pass (d : BitVec 32) s, s.running = true → s.roundPos = 50 → s.frameStart + 5000000 ≤ t → t ≤ s.frameStart + 9000000 → s.bist.running = none → s.bist.lastFrame ≠ some s.time.frame → onePair s = true → s.therm.throttle = false → s.pwr.seqAt = none →
    unmet s (slicePos s) mv.toNat clockOk = 0 →
    Completes (.bistSlice t mv clockOk (some (pass, d))) s fun r =>
      (∃ e, r.bist.ring = e :: s.bist.ring.take 255 ∧ e.slice = slicePos s ∧ e.outcome = (if pass then 0 else 1) ∧ e.detail = d.toNat) ∧
      r.bist.ptr = s.bist.ptr ∧ keepsBut [.time, .bist, .mem, .recorder] s r) ∧
  (∀ t (mv : BitVec 16) clockOk result s, s.running = true → s.roundPos = 50 → s.frameStart + 5000000 ≤ t → t ≤ s.frameStart + 9000000 → s.bist.running = none → s.bist.lastFrame ≠ some s.time.frame → p3Off s = false → s.pwr.grant.getD 3 0 ≠ 0 → unmet s (slicePos s) mv.toNat clockOk ≠ 0 →
    Completes (.bistSlice t mv clockOk result) s fun r =>
      (∃ e, r.bist.ring = e :: s.bist.ring.take 255 ∧ e.slice = slicePos s ∧ e.outcome = 2 ∧ e.detail = unmet s (slicePos s) mv.toNat clockOk) ∧
      r.bist.ptr = (slicePos s + 1) % 22 ∧ r.isRaised 0x8050 0 = true ∧ keepsBut [.time, .bist, .recorder] s r) ∧
  (∀ t (mv : BitVec 16) clockOk result s, s.running = true → s.roundPos = 50 → s.frameStart + 5000000 ≤ t → t ≤ s.frameStart + 9000000 → s.bist.running = none → s.bist.lastFrame ≠ some s.time.frame → (s.therm.throttle = true ∨ s.pwr.seqAt.isSome = true ∨ onePair s = false ∧ s.pwr.grant.getD 3 0 = 0) →
    Completes (.bistSlice t mv clockOk result) s fun r =>
      (∃ e, r.bist.ring = e :: s.bist.ring.take 255 ∧ e.slice = slicePos s ∧ e.outcome = 3) ∧ r.bist.ptr = s.bist.ptr ∧ r.isRaised 0x8050 0 = true ∧ keepsBut [.time, .bist, .recorder] s r) ∧
  (∀ t (mv : BitVec 16) clockOk s, s.running = true → s.roundPos = 50 → s.frameStart + 5000000 ≤ t → t ≤ s.frameStart + 9000000 → s.bist.running = none → s.bist.lastFrame ≠ some s.time.frame → p3Off s = false → s.pwr.grant.getD 3 0 ≠ 0 → unmet s (slicePos s) mv.toNat clockOk = 0 →
    (slicePos s < 12 → (spareBank s).isSome = true ∨ (retiredBank s).isSome = true) →
    Completes (.bistSlice t mv clockOk none) s fun r => r.bist = { s.bist with running := some (slicePos s), lastFrame := some s.time.frame } ∧ keepsBut [.time, .bist] s r) ∧
  (∀ t (mv : BitVec 16) clockOk pass (d : BitVec 32) p s, s.running = true → s.roundPos = 50 → s.frameStart + 5000000 ≤ t → t ≤ s.frameStart + 9000000 → s.bist.running = some p →
    Completes (.bistSlice t mv clockOk (some (pass, d))) s fun r =>
      (∃ e, r.bist.ring = e :: s.bist.ring.take 255 ∧ e.slice = p ∧ e.outcome = (if pass then 0 else 1) ∧ e.detail = d.toNat) ∧ r.bist.running = none ∧
      (onePair s = false → r.bist.ptr = (p + 1) % 22) ∧ keepsBut [.time, .bist, .mem, .recorder] s r) ∧
  (∀ t (mv : BitVec 16) clockOk result s, s.bist.running = none → s.bist.lastFrame = some s.time.frame → exec (.bistSlice t mv clockOk result) s = .next (s.at_ t)) ∧
  (∀ (v : VcoreRead) p s, s.running = true → s.bist.running = some p → (vcoreOk v.mv.toNat = false ∨ s.roundPos ≠ 50 ∨ s.frameStart + 9000000 ≤ v.t) →
    Completes (.bistSliceAbort v) s fun r =>
      (∃ e, r.bist.ring = e :: s.bist.ring.take 255 ∧ e.slice = p ∧ e.outcome = 4) ∧ r.bist.running = none ∧ r.bist.ptr = s.bist.ptr ∧ r.isRaised 0x8050 0 = true ∧
      keepsBut [.time, .bist, .recorder] s r) ∧
  (∀ t (block : BitVec 8) s, s.running = true → block.toNat ≤ 6 → deepRefused s block.toNat = false →
    Completes (.runDeepSelfTest t block) s fun r =>
      r.bist.deep = some (block.toNat, max s.time.now t + deepMs s.boot.life block.toNat * 1000000) ∧
      (block.toNat = 0 ∨ block.toNat = 6 → ∀ n, n < 4 → gateEn r n = false) ∧ keepsBut [.time, .bist, .reg, .guard, .est, .recorder] s r) ∧
  (∀ t (block : BitVec 8) s, s.running = true → block.toNat ≤ 6 → deepRefused s block.toNat = true → exec (.runDeepSelfTest t block) s = .next (State.raise 0x8054 0 (s.at_ t))) ∧
  (∀ t (fails : BitVec 7) (detail : BitVec 32) b e s, s.running = true → s.bist.deep = some (b, e) → e ≤ t → (b = 5 ∨ b = 6) →
    Completes (.deepTestEnd t fails detail) s fun r =>
      r.bist.deep = none ∧ (∃ x, r.bist.ring = x :: s.bist.ring.take 255 ∧ x.slice = 0x80 + b ∧ x.outcome = (if fails.getLsbD b then 1 else 0)) ∧
      (b = 5 → r.reg.lanes = State.reset.reg.lanes) ∧ keepsBut [.time, .bist, .reg, .guard, .est, .recorder] s r) ∧
  (∀ t (fails : BitVec 7) (detail : BitVec 32) b e s, s.running = true → s.bist.deep = some (b, e) → e ≤ t → b ≤ 6 →
    Completes (.deepTestEnd t fails detail) s fun r => r.bist.deep = none ∧ (4 ≤ b → r.boot.phase = s.boot.phase) ∧ (b ≤ 3 → r.boot.phase = .start ∧ r.boot.cause = 1)) ∧
  (∀ t (fails : BitVec 7) (detail : BitVec 32) b e s, s.running = true → s.bist.deep = some (b, e) → e ≤ t → (b = 1 ∨ b = 3) →
    Completes (.deepTestEnd t fails detail) s fun r =>
      r.boot.phase = .start ∧ r.boot.step = 1 ∧ r.boot.cause = 1 ∧ r.bist.deep = none ∧ r.out = Output.restart 1 :: s.out ∧ r.learned = s.learned ∧ r.pending = s.pending)

/-- Modes (R320, R524 to R526). A change that Table 19-11 and the role admit waits for its frame boundary, one that is not admitted raises 0x9009; at a boundary a group latch leads to Lock-out before any command, and of the commands due the last takes force, while Table 19-11 still admits it. RESTART_MODULE begins Start again with every gate off. CONFIRM_SCV in Commissioning stores the generation with the SCV of its section, and is refused with 0x5010 otherwise. Completion: for changeMode, restartModule, confirmScv exec answers a next state wherever the conditions of the clause on the command and the state hold. -/
def Obligations.Modes : Prop :=
  (∀ t ro (code : BitVec 8) m s, s.running = true → 1 ≤ code.toNat → code.toNat ≤ 4 → modeOfCode code.toNat = some m →
    (engineer ro = true ∨ operator ro = true ∧ (code.toNat = 2 ∨ code.toNat = 3)) → changeAdmitted s m = true →
    Completes (.changeMode t ro code) s fun r =>
      r.boot = { s.boot with modeNext := s.boot.modeNext ++ [(m, s.time.frame + (if t ≤ s.frameStart + 9000000 then 1 else 2))] } ∧ keepsBut [.time, .boot] s r) ∧
  (∀ t ro (code : BitVec 8) m s, s.running = true → 1 ≤ code.toNat → code.toNat ≤ 4 → modeOfCode code.toNat = some m → engineer ro = true → changeAdmitted s m = false →
    exec (.changeMode t ro code) s = .next (State.raise 0x9009 0 (s.at_ t))) ∧
  (∀ s, groupLatched s = true → s.boot.mode ≠ .start → s.boot.mode ≠ .lockout → (modeFrame s).boot.mode = .lockout ∧ (modeFrame s).boot.modeNext = []) ∧
  (∀ m f s, groupLatched s = false → s.boot.mode ≠ .start → s.boot.mode ≠ .lockout →
    (s.boot.modeNext.filter fun p => decide (p.2 ≤ s.time.frame)).getLast? = some (m, f) →
    (m = s.boot.mode ∨ changeAdmitted s m = true → (modeFrame s).boot.mode = m) ∧ (m ≠ s.boot.mode → changeAdmitted s m = false → (modeFrame s).boot.mode = s.boot.mode)) ∧
  (∀ t s, (s.up = true ∨ s.boot.phase = .halted) →
    Completes (.restartModule t) s fun r =>
      r.boot.phase = .start ∧ r.boot.step = 1 ∧ r.boot.cause = 1 ∧ r.boot.mode = .start ∧ (∀ n, n < 4 → gateEn r n = false) ∧ r.out = Output.restart 1 :: s.out ∧
      r.learned = s.learned ∧ r.pending = s.pending ∧ r.boot.journal = s.boot.journal ∧ r.boot.copyA = s.boot.copyA ∧ r.boot.copyB = s.boot.copyB ∧ r.boot.shadow = s.boot.shadow ∧
      r.boot.commit = s.boot.commit ∧ (∀ k, k < 8 → sessionAt r k = none) ∧ r.time.now = max s.time.now t) ∧
  (∀ t (gen scv : BitVec 32) c s, s.running = true → s.boot.mode = .commission → confirmable s gen.toNat = some c → scv.toNat = scvOf c.params →
    Completes (.confirmScv t gen scv) s fun r =>
      confirmed r = some (gen.toNat, scv.toNat) ∧ r.recorder = (State.raise 0x500F 0 (s.at_ t)).recorder ∧ keepsBut [.time, .boot, .recorder] s r) ∧
  (∀ t (gen scv : BitVec 32) s, s.running = true → (s.boot.mode ≠ .commission ∨ ∀ c, confirmable s gen.toNat = some c → scv.toNat ≠ scvOf c.params) →
    exec (.confirmScv t gen scv) s = .next (State.raise 0x5010 0 (s.at_ t)))

/-- POR_N and Start (R321, R335, R366, R515 to R519). POR_N low ends everything but what MRAM, flash and one-time values hold: no latch stays and every output is off. Its release begins Start at step 1, and a low RESET_N is then a reset input fault that latches the group. A step that is done is noted and the next one begins; one that fails is noted with 0x9001, and if it is essential the module restarts, or halts when it has failed boot.halt.tries times. Completion: for porNAssert, porNRelease, startStep, startTimeAcquisition, startDiscoveryEnd exec answers a next state wherever the conditions of the clause on the command and the state hold. -/
def Obligations.StartSteps : Prop :=
  (∀ t s,
    Completes (.porNAssert t) s fun r =>
      r.boot.phase = .por ∧ r.boot.porN = false ∧ (∀ k, (r.guard.latch.getD k {}).on = false) ∧ r.guard.portOpen = true ∧ (∀ n, gateEn r n = false ∧ ∀ k, ctrOut r n k = false) ∧
      r.learned = s.learned ∧ r.boot.journal = s.boot.journal ∧ r.boot.copyA = s.boot.copyA ∧ r.boot.copyB = s.boot.copyB ∧ r.boot.shadow = s.boot.shadow ∧ r.boot.keys = s.boot.keys ∧
      r.upd.floor = s.upd.floor ∧ r.pending = s.pending ∧ r.out = s.out) ∧
  (∀ t resetHigh pfwHigh s, s.boot.porN = false → s.pwr.vmain = true → s.guard.latch.length = 5 →
    Completes (.porNRelease t resetHigh pfwHigh) s fun r =>
      r.boot.phase = .start ∧ r.boot.step = 1 ∧ r.boot.porN = true ∧ r.boot.pfwN = pfwHigh ∧ r.guard.resetHigh = resetHigh ∧ r.guard.inFault = !resetHigh ∧
      (resetHigh = false → (r.guard.latch.getD 4 {}).on = true) ∧ r.learned = s.learned ∧ r.boot.journal = s.boot.journal ∧ r.pending = s.pending) ∧
  (∀ t env s, s.boot.phase = .start → s.boot.step = 1 → Completes (.startStep t false env) s fun r => r.boot = { s.boot with pfwN := false } ∧ keepsBut [.time, .boot] s r) ∧
  (∀ t pfw env s, s.boot.phase = .start → s.boot.step = 6 → s.boot.haltStep = none → env.ok = true → max s.time.now t ≤ s.boot.stepAt + 20000000 →
    Completes (.startStep t pfw env) s fun r =>
      r.time.framesOn = true ∧ r.time.frame = max s.time.now t / 10000000 ∧ r.boot.step = 7 ∧ r.boot.stepAt = max s.time.now t ∧
      (s.boot.journal.length = 16 → s.boot.newest < 16 → (s.boot.journal.getD s.boot.newest {}).steps.length = 12 →
        ((r.boot.journal.getD r.boot.newest {}).steps.getD 5 {}).outcome = 2 ∧ ((r.boot.journal.getD r.boot.newest {}).steps.getD 6 {}).outcome = 1) ∧
      keepsBut [.time, .boot] s r) ∧
  (∀ t pfw env s, s.boot.phase = .start → s.boot.step = 10 → s.boot.haltStep = none → env.ok = false →
    Completes (.startStep t pfw env) s fun r =>
      r.boot.step = 11 ∧ r.recorder = (State.raise 0x9001 10 (s.at_ t)).recorder ∧
      (s.boot.journal.length = 16 → s.boot.newest < 16 → (s.boot.journal.getD s.boot.newest {}).steps.length = 12 → ((r.boot.journal.getD r.boot.newest {}).steps.getD 9 {}).outcome = 5) ∧
      keepsBut [.time, .boot, .recorder] s r) ∧
  (∀ t pfw env s, s.boot.phase = .start → s.boot.step = 3 → env.ok = false → s.boot.tries.length = 12 → s.boot.tries.getD 2 0 + 1 < haltTries s →
    Completes (.startStep t pfw env) s fun r =>
      r.boot.phase = .start ∧ r.boot.step = 1 ∧ r.boot.cause = 2 ∧ r.boot.tries.getD 2 0 = s.boot.tries.getD 2 0 + 1 ∧ r.out = Output.restart 2 :: s.out ∧ r.pending = s.pending) ∧
  (∀ t pfw env s, s.boot.phase = .start → s.boot.step = 3 → env.ok = false → s.boot.tries.length = 12 → haltTries s ≤ s.boot.tries.getD 2 0 + 1 →
    Completes (.startStep t pfw env) s fun r => r.boot.phase = .halted ∧ r.boot.haltStep = some 3 ∧ r.out = s.out ∧ keepsBut [.time, .boot, .recorder, .pwr, .upd] s r) ∧
  (∀ t pfw env s, s.boot.phase = .start → s.boot.step = 12 → env.ok = true → max s.time.now t ≤ s.boot.stepAt + 10000000 →
    Completes (.startStep t pfw env) s fun r =>
      r.boot.phase = .run ∧ r.boot.modeNext = [(startMode s, s.time.frame + 1)] ∧ r.boot.endT = max s.time.now t ∧ r.guard.started = !s.guard.scvFail ∧ r.core.counting = true ∧
      (∀ j, j < s.forgs.length → r.forg j = { s.forg j with cmpFrom := max s.time.now t }) ∧
      keepsBut [.time, .boot, .est, .forgs, .guard, .core, .upd, .disp, .links, .tagCtr, .recorder] s r) ∧
  (∀ k (o : Int) ts s, s.boot.phase = .start → s.boot.step = 5 → s.boot.cause ≠ 4 → s.boot.prevFailed.getD 4 false = false → s.time.src = none →
    s.time.now < s.boot.stepAt + s.parN .timeStartWait * 1000000000 → ts ≤ s.boot.stepAt + s.parN .timeStartWait * 1000000000 → (k = 0 ∨ k = 2) →
    (s.parN .timeSource 0 = k ∨ s.parN .timeSource 1 = k ∨ s.parN .timeSource 2 = k) → s.time.prevSample.length = 3 →
    Completes (.startTimeAcquisition (some (k, o, ts))) s fun r =>
      r.time.now = ((ts : Int) - o).toNat ∧ r.time.src = some k ∧ r.time.holdover = false ∧ r.time.setByEpoch = true ∧
      r.time.bound = some ((s.parN .timeErrAsym : Rat), ((ts : Int) - o).toNat) ∧ r.time.prevSample.getD k none = some ((ts : Int) - o).toNat ∧ r.isRaised 0x6001 0 = false ∧
      (5 < s.recorder.rings.length → ∃ e ∈ r.recorder.rings.getD 5 [], e.code = 0x6002) ∧ keepsBut [.time, .guard, .boot, .can, .host, .recorder] s r) ∧
  (∀ s, s.boot.phase = .start → s.boot.step = 5 → s.boot.cause ≠ 4 → s.boot.prevFailed.getD 4 false = false → s.time.src = none →
    s.time.now < s.boot.stepAt + s.parN .timeStartWait * 1000000000 →
    Completes (.startTimeAcquisition none) s fun r =>
      r.time.now = s.boot.stepAt + s.parN .timeStartWait * 1000000000 ∧ r.time.src = none ∧ r.time.holdover = true ∧ r.time.bound = none ∧ r.time.synced = false ∧ r.isRaised 0x6001 0 = true ∧
      keepsBut [.time, .recorder] s r) ∧
  (∀ sample s, (s.boot.phase ≠ .start ∨ s.boot.step ≠ 5 ∨ s.boot.cause = 4 ∨ s.boot.prevFailed.getD 4 false = true ∨ s.time.src.isSome = true ∨
      s.boot.stepAt + s.parN .timeStartWait * 1000000000 ≤ s.time.now) → exec (.startTimeAcquisition sample) s = .next s) ∧
  (∀ t f s, s.up = true → s.boot.discover = some f → f ≤ s.time.frame →
    Completes (.startDiscoveryEnd t) s fun r =>
      r.boot = { s.boot with discover := none } ∧ (∀ j, j < 144 → (s.forg j).uid.isSome = true → (s.forg j).provisional = true → r.isRaised 0x2001 j = true) ∧
      keepsBut [.time, .boot, .recorder] s r)

/-- Delivery (R541 to R545). UPD_BEGIN, whose operands are the manifest up to its signature and the signature, of a manifest that passes every check begins a staging with an empty bitmap; one that does not is refused with 0x9031 and changes nothing else. UPD_CHUNK writes a chunk that is missing and sets its bit. A staging idle for upd.idle.days, and one that is aborted, is discarded with 0x903C. Completion: for updBegin, updChunk, updateStagingIdle, abortUpdate exec answers a next state wherever the conditions of the clause on the command and the state hold. -/
def Obligations.UpdateDelivery : Prop :=
  (∀ t id seq man sig k x s, admitted t id seq 0x0701 (man ++ sig) k x s → engineer x.role = true → manifestReason s (man ++ sig) = 0 →
    (∀ m, s.upd.staged = some m → m.version ≠ (manifestOf (man ++ sig)).version) →
    Completes (.updBegin t id seq man sig) s fun r =>
      r.upd.st = 1 ∧ r.upd.staged = some (manifestOf (man ++ sig)) ∧ r.upd.got = [] ∧ r.upd.other = none ∧ r.upd.running = s.upd.running ∧ r.upd.selector = s.upd.selector ∧ r.upd.floor = s.upd.floor ∧
      carriedOut k x t seq 0x0701 [stBytes 0 0 ++ toLE 4 (chunkTotal (manifestOf (man ++ sig))) ++ toLE 4 0] s r ∧
      keepsBut [.time, .host, .links, .forgs, .tagCtr, .upd, .recorder, .out] s r) ∧
  (∀ t id seq man sig k x s, admitted t id seq 0x0701 (man ++ sig) k x s → engineer x.role = true → manifestReason s (man ++ sig) ≠ 0 →
    Completes (.updBegin t id seq man sig) s fun r =>
      carriedOut k x t seq 0x0701 [stBytes 8 0x9031] s r ∧ r.recorder = (State.raise 0x9031 (evArg (manifestReason s (man ++ sig)) 0) (s.at_ t)).recorder ∧
      keepsBut [.time, .host, .recorder, .out] s r) ∧
  (∀ t id seq pay env k x m c s, admitted t id seq 0x0702 pay k x s → engineer x.role = true → s.upd.staged = some m → 8 ≤ pay.length → rd 4 0 pay = m.version →
    rd 4 4 pay = c → c < chunkTotal m → (pay.drop 8).length = chunkLen m c → c ∉ s.upd.got → s.therm.flashInh = false → p3Held s = false → env.written = true →
    (c / 4 ∉ s.upd.erased ∨ env.blank = true) →
    Completes (.updChunk t id seq pay env) s fun r =>
      (s.upd.got.length + 1 < chunkTotal m → c ∈ r.upd.got ∧ (∀ j, j ≠ c → (j ∈ r.upd.got ↔ j ∈ s.upd.got)) ∧ r.upd.st = 1 ∧ keepsBut [.time, .host, .upd, .recorder, .out] s r) ∧
      r.upd.chunks.lookup c = some (pay.drop 8) ∧ r.upd.staged = some m ∧ r.upd.chunkAt = max s.time.now t ∧ carriedOut k x t seq 0x0702 [stBytes 0 0] s r ∧
      keepsBut [.time, .host, .links, .forgs, .tagCtr, .upd, .recorder, .out] s r) ∧
  (∀ t s, s.running = true → s.upd.staged.isSome = true → activating s = false → s.upd.chunkAt + s.parN .updIdleDays * 86400000000000 ≤ max s.time.now t →
    Completes (.updateStagingIdle t) s fun r =>
      r.upd.st = 0 ∧ r.upd.staged = none ∧ r.upd.got = [] ∧ (∀ l ∈ r.links, l.down = []) ∧ (∀ f ∈ r.forgs, f.staging = 0) ∧ keepsBut [.time, .links, .forgs, .tagCtr, .upd, .recorder] s r) ∧
  (∀ t m s, s.running = true → s.upd.staged = some m → activating s = false →
    Completes (.abortUpdate t) s fun r =>
      r.upd.st = 0 ∧ r.upd.staged = none ∧ r.upd.got = [] ∧ (∀ l ∈ r.links, l.down = []) ∧ (∀ f ∈ r.forgs, f.staging = 0) ∧ keepsBut [.time, .links, .forgs, .tagCtr, .upd, .recorder] s r) ∧
  (∀ t s, s.running = true → activating s = true → exec (.abortUpdate t) s = .next (State.raise 0x9037 0 (s.at_ t)))

/-- Activation, confirmation and roll-back (R546 to R554). ACTIVATE_UPDATE of a Ready set begins at a frame boundary, and is refused with 0x9037 otherwise; three frames before F_a and later the sequence goes on as R549 says; at F_a the module restarts with cause 4. A set whose six parts have come up by the deadline is confirmed and raises the floor to its level; one that has not is rolled back, and a former set that fails too is reported by 0x903A. A forager that cannot be staged stands as 0x9036. Completion: for activateUpdate, activationSequence, updateConfirmation, updateRollback, foragerStagingFail exec answers a next state wherever the conditions of the clause on the command and the state hold. -/
def Obligations.UpdateActivation : Prop :=
  (∀ t (version : BitVec 32) m s, s.running = true → s.boot.mode ≠ .lockout → (s.boot.mode ≠ .operate ∨ s.par .bootStartMode = 3) → s.upd.staged = some m → m.version = version.toNat →
    s.upd.st = 4 → s.upd.beginFrame = none → s.surv.imp = none → s.surv.cap = none → s.therm.flashInh = false →
    Completes (.activateUpdate t version) s fun r =>
      r.upd = { s.upd with beginFrame := some (s.time.frame + (if t ≤ s.frameStart + 9000000 then 1 else 2)) } ∧ keepsBut [.time, .upd] s r) ∧
  (∀ t (version : BitVec 32) s, s.running = true → (s.boot.mode = .lockout ∨ s.upd.st ≠ 4 ∨ s.surv.imp.isSome = true ∨ s.surv.cap.isSome = true ∨ s.therm.flashInh = true) →
    exec (.activateUpdate t version) s = .next (State.raise 0x9037 0 (s.at_ t))) ∧
  (∀ t b s, s.running = true → s.upd.st = 4 → s.upd.beginFrame = some b → b ≤ s.time.frame → s.time.frame + 2 < b + s.parN .updFwLead →
    Completes (.activationSequence t) s fun r =>
      r.upd.st = 5 ∧ r.upd.actFrame = some (b + s.parN .updFwLead) ∧ r.upd.beginFrame = none ∧ r.upd.lead = s.parN .updFwLead ∧ r.upd.confirmMs = s.parN .updConfirmT ∧
      (∀ n, n < 4 → linkOn s n = true → n < s.links.length → ∃ c ∈ (r.link n).cmds, c.id = 0x0A ∧ c.target = 63 ∧ c.params = [(forgPart s).1, (b + s.parN .updFwLead) % 2 ^ 32])) ∧
  (∀ t fa s, s.running = true → s.upd.st = 5 → s.upd.beginFrame = none → s.upd.actFrame = some fa → s.upd.passed = false → fa ≤ s.time.frame + 2 → activationReady s = false →
    Completes (.activationSequence t) s fun r => r.upd.st = 4 ∧ r.upd.actFrame = none ∧ r.upd.selector = s.upd.selector ∧ r.boot.phase = s.boot.phase) ∧
  (∀ t fa s, s.running = true → s.upd.st = 5 → s.upd.beginFrame = none → s.upd.actFrame = some fa → s.upd.passed = true → s.upd.saved = false → s.therm.flashInh = false → fa = s.time.frame + 1 →
    Completes (.activationSequence t) s fun r => selected r = (1 - (selected s).1, true) ∧ r.upd.saved = true ∧ r.upd.st = 5 ∧ r.boot.phase = s.boot.phase) ∧
  (∀ t fa s, s.running = true → s.upd.st = 5 → s.upd.beginFrame = none → s.upd.actFrame = some fa → s.upd.passed = true → s.upd.saved = true → fa ≤ s.time.frame →
    Completes (.activationSequence t) s fun r => r.boot.phase = .start ∧ r.boot.cause = 4 ∧ r.upd.st = 6 ∧ r.upd.selector = s.upd.selector ∧ r.out = Output.restart 4 :: s.out) ∧
  (∀ t (seen : BitVec 7) d s, s.running = true → s.upd.st = 6 → s.upd.deadline = some d → t ≤ d → (∀ k, 1 ≤ k → k ≤ 6 → k ∈ s.upd.up ∨ partUp (s.at_ t) seen k = true) →
    Completes (.updateConfirmation t seen) s fun r =>
      r.upd.st = 0 ∧ selected r = ((selected s).1, false) ∧ floorOf r = max (floorOf s) s.upd.running.level ∧ r.upd.deadline = none ∧ r.isRaised 0x903A 0 = false ∧
      keepsBut [.time, .upd, .recorder] s r) ∧
  (∀ t (seen : BitVec 7) d k s, s.running = true → s.upd.st = 6 → s.upd.deadline = some d → t ≤ d → 1 ≤ k → k ≤ 6 → k ∉ s.upd.up → partUp (s.at_ t) seen k = false →
    Completes (.updateConfirmation t seen) s fun r => { r.upd with up := s.upd.up } = s.upd ∧ k ∉ r.upd.up ∧ keepsBut [.time, .upd] s r) ∧
  (∀ t d s, s.running = true → s.upd.st = 6 → s.upd.deadline = some d → d < t →
    Completes (.updateRollback t) s fun r =>
      r.upd = { s.upd with st := 7, rolling := true, deadline := none, actFrame := some (s.time.frame + s.upd.lead), saved := false } ∧ keepsBut [.time, .links, .tagCtr, .upd] s r) ∧
  (∀ t d s, s.running = true → s.upd.st = 7 → s.upd.deadline = some d → d < t →
    Completes (.updateRollback t) s fun r =>
      r.upd = { s.upd with st := 8, rolling := false, deadline := none } ∧ r.isRaised 0x903A 0 = true ∧ keepsBut [.time, .disp, .upd, .recorder] s r) ∧
  (∀ t (n : Fin 4) (b : Fin 36) s, s.running = true → s.forgs.length = 144 → (s.upd.st = 3 ∨ s.upd.st = 4) → (s.forg (brickInst n.val b.val)).staging = 0 →
    s.parN .updForagerTries ≤ (s.forg (brickInst n.val b.val)).stageTries →
    Completes (.foragerStagingFail t n b) s fun r =>
      (r.forg (brickInst n.val b.val)).staging = 3 ∧ r.isRaised 0x9036 (brickInst n.val b.val) = true ∧ (∀ j, j ≠ brickInst n.val b.val → r.forg j = s.forg j) ∧
      keepsBut [.time, .forgs, .recorder] s r)

/-- The security floor (R555). No command lowers it; a confirmation writes both its copies; the change from Returned to Blank leaves it as it is; and UPD_BEGIN of a package whose level lies below it is refused. -/
def Obligations.SecurityFloor : Prop :=
  (∀ c s t, exec c s = .next t → floorOf s ≤ floorOf t) ∧
  (∀ (p : Pair Nat) v, ∃ q, writePair p v = { a := some (q, v), b := some (q, v) }) ∧
  (∀ s, (lifeErase .returned .blank s).upd.floor = s.upd.floor) ∧
  (∀ s pay, (manifestOf pay).level < floorOf s → manifestReason s pay ≠ 0 ∧ (opUpdBegin pay s).2.1 = 8 ∧ (opUpdBegin pay s).1.upd = s.upd)

/-- Supplies and power fail (R366, R572, R576, R580, R581). A sample of the supplies sets their flags, and 0xA040 stands while one is out of its range; the arbiter gives classes 1 to 3 together no more than class 0 leaves of the power available; a power-fail warning stops P3, notes its time in the journal and, outside the MRAM write inhibit, writes the learned values of every string with cause 3, and a commit in progress stands only if it was in step 6; the sequence ends when PFW_N is high and VMAIN in its range. A loss of VMAIN holds the main die and leaves the Guard; its return begins Start with the module time of the last warning. Completion: for roundSupplySample, pfwNFall, powerFailSequenceEnd, vmainLoss, vmainReturn exec answers a next state wherever the conditions of the clause on the command and the state hold. -/
def Obligations.PowerSupplies : Prop :=
  (∀ t mv input dom s, s.up = true → s.roundPos = 0 → s.frameStart + 7000000 ≤ t → t ≤ s.frameStart + 7500000 →
    Completes (.roundSupplySample t mv input dom) s fun r =>
      r.pwr = { s.pwr with mv := mv, out := suppliesOut mv, sampledAt := some s.time.frame, input := input, pIdleNew := (input : Int) - (s.pwr.grant.sum : Nat), domPower := dom } ∧
      (r.isRaised 0xA040 0 = true ↔ suppliesOut mv ≠ 0) ∧ keepsBut [.time, .pwr, .recorder] s r) ∧
  (∀ s req (avail : Int),
    let g := grantFrom s req [0, 1, 2, 3] avail
    g.getD 0 0 = req.getD 0 0 ∧ ((g.getD 1 0 + g.getD 2 0 + g.getD 3 0 : Nat) : Int) ≤ max 0 (avail - (req.getD 0 0 : Nat)) ∧ g.getD 1 0 ≤ req.getD 1 0 ∧ g.getD 3 0 ≤ req.getD 3 0) ∧
  (∀ t step6 s, s.running = true → s.pwr.seqAt = none → s.boot.commit = none →
    Completes (.pfwNFall t step6) s fun r =>
      r.pwr.seqAt = some (max s.time.now t) ∧ r.pwr.pfw = s.pwr.pfw + 1 ∧ r.pwr.grant.getD 3 0 = 0 ∧ p3Off r = true ∧ r.boot.pfwN = false ∧ r.isRaised 0xA041 0 = true ∧
      (s.boot.journal.length = 16 → s.boot.newest < 16 → (r.boot.journal.getD r.boot.newest {}).pfwT = max s.time.now t - 10000) ∧
      (s.therm.mramInh = false → s.learned.length = 4 → ∀ n, n < 4 → linkOn s n = true → ∃ q x,
        ((r.learned.getD n {}).a = some (q, x) ∨ (r.learned.getD n {}).b = some (q, x)) ∧ x.string = n ∧ x.cause = 3 ∧ x.pfw = true ∧ x.time = max s.time.now t) ∧
      keepsBut [.time, .pwr, .boot, .learned, .surv, .recorder] s r) ∧
  (∀ t c s, s.running = true → s.pwr.seqAt = none → s.boot.commit = some c →
    Completes (.pfwNFall t false) s fun r => r.boot.commit = none ∧ r.boot.comGen = s.boot.comGen ∧ r.boot.com = s.boot.com) ∧
  (∀ t c s, s.running = true → s.pwr.seqAt = none → s.boot.commit = some c →
    Completes (.pfwNFall t true) s fun r => r.boot.commit = none ∧ r.boot.comGen = c.img.gen ∧ r.boot.com = c.img.cfg) ∧
  (∀ t high (vmain : BitVec 16) a s, s.pwr.seqAt = some a → a + 13990000 ≤ max s.time.now t →
    Completes (.powerFailSequenceEnd t high vmain) s fun r =>
      r.boot.pfwN = high ∧
      (high = true → r.isRaised 0xA041 0 = false) ∧ (high = false → r.recorder = s.recorder) ∧
      (high = true ∧ 9000 ≤ vmain.toNat ∧ vmain.toNat ≤ 16000 → r.pwr = { s.pwr with seqAt := none }) ∧
      (high = false ∨ vmain.toNat < 9000 ∨ 16000 < vmain.toNat → r.pwr = s.pwr) ∧ keepsBut [.time, .pwr, .boot, .recorder] s r) ∧
  (∀ t s, s.pwr.vmain = true → s.boot.porN = true →
    Completes (.vmainLoss t) s fun r =>
      r.pwr.vmain = false ∧ r.boot.phase = .mainReset ∧ r.guard = { s.guard with lowSince := s.guard.lowSince.map fun _ => none } ∧ r.learned = s.learned ∧ r.boot.journal = s.boot.journal ∧ r.time = { now := max s.time.now t } ∧ r.pending = s.pending) ∧
  (∀ s, s.pwr.vmain = false → s.boot.porN = true →
    Completes (.vmainReturn) s fun r =>
      r.pwr.vmain = true ∧ r.boot.phase = .start ∧ r.boot.step = 1 ∧ r.time.now = lastPfw s ∧ r.learned = s.learned ∧ r.boot.journal = s.boot.journal ∧ r.pending = s.pending)

/-- A step with a command waiting is that command, carried out on the state with the rest of the queue. -/
def Obligations.StepRunsFrontCommand : Prop := ∀ c rest s, s.pending = c :: rest → step s = exec c { s with pending := rest }

/-- On an empty queue the block idles but for its CAN ports (log 6): each port that can send loses at most one entry of its transmit queue, which leaves as a frame, and nothing else changes. -/
def Obligations.EmptyQueueIdles : Prop :=
  ∀ s, s.pending = [] → s.can.ports.length = 2 → ∃ t, step s = .next t ∧ keepsBut [.can, .out] s t ∧ { t.can with ports := s.can.ports } = s.can ∧
    ∀ p, p < 2 →
      (canPort t p = canPort s p ∨ ∃ e ∈ (canPort s p).tx, e.tag = 0 ∧ canPort t p = { canPort s p with tx := (canPort s p).tx.erase e } ∧ Output.canFrame p (canFormat s p e) e.id e.data ∈ t.out ∧
        ∀ f ∈ (canPort s p).tx, arbKey e ≤ arbKey f)

/-- After reset (R17, R321, R515): POR_N is low, no output is on, no permit is granted, no latch is set, nothing is published, no session is open, no event stands, and no command waits. -/
def Obligations.ResetState : Prop :=
  State.reset.boot.porN = false ∧ State.reset.boot.phase = .por ∧ State.reset.boot.mode = .start ∧ (∀ n, n < 4 → gateEn State.reset n = false ∧ permits State.reset n = false ∧ ∀ k, k < 3 → ctrOut State.reset n k = false) ∧
  (∀ k, k < 5 → (State.reset.guard.latch.getD k {}).on = false ∧ State.reset.core.latch.getD k false = false) ∧ State.reset.comb.published = none ∧ (∀ k, k < 8 → sessionAt State.reset k = none) ∧
  State.reset.recorder.raised = [] ∧ State.reset.pending = []

/-- Every command completes, in any state and on any operands: its meaning answers a next state and never a fault or a refusal, also where the command is turned away. It changes no part of the state but those that `mayChange` gives for it, and never the queue of the commands that wait or the unique ID of the module (boot.uid). -/
def Obligations.EveryCommandCompletes : Prop := ∀ c s, ∃ t, exec c s = .next t ∧ keepsBut (mayChange c) s t ∧ t.pending = s.pending ∧ t.boot.uid = s.boot.uid

/-- Module time never runs back by a command but where R366 sets it: in START_TIME_ACQUISITION and at the return of VMAIN. -/
def Obligations.TimeNeverBack : Prop :=  ∀ c s t, exec c s = .next t → (∀ x, c ≠ .startTimeAcquisition x) → c ≠ .vmainReturn → s.time.now ≤ t.time.now

/-- Names of parameters (R408): every key whose indices its name admits is read back from the bytes of its dotted name. -/
def Obligations.ParameterNames : Prop := ∀ k : ParamKey, k.ok = true → paramOfName (nameBytes k) = some k
end

