-- ==== Sys2Proof/Laws/State.lean ====
section
/-!
SUPPORT. Laws/State: one lemma per field per update of the state; each is true by unfolding.
-/
namespace Sys2Proof.Machine

@[simp] theorem State.modTime_time (f : TimeState → TimeState) (s : State) : (s.modTime f).time = f s.time := rfl
@[simp] theorem State.modTime_comb (f : TimeState → TimeState) (s : State) : (s.modTime f).comb = s.comb := rfl
@[simp] theorem State.modTime_links (f : TimeState → TimeState) (s : State) : (s.modTime f).links = s.links := rfl
@[simp] theorem State.modTime_tagCtr (f : TimeState → TimeState) (s : State) : (s.modTime f).tagCtr = s.tagCtr := rfl
@[simp] theorem State.modTime_forgs (f : TimeState → TimeState) (s : State) : (s.modTime f).forgs = s.forgs := rfl
@[simp] theorem State.modTime_cells (f : TimeState → TimeState) (s : State) : (s.modTime f).cells = s.cells := rfl
@[simp] theorem State.modTime_est (f : TimeState → TimeState) (s : State) : (s.modTime f).est = s.est := rfl
@[simp] theorem State.modTime_surv (f : TimeState → TimeState) (s : State) : (s.modTime f).surv = s.surv := rfl
@[simp] theorem State.modTime_learned (f : TimeState → TimeState) (s : State) : (s.modTime f).learned = s.learned := rfl
@[simp] theorem State.modTime_reg (f : TimeState → TimeState) (s : State) : (s.modTime f).reg = s.reg := rfl
@[simp] theorem State.modTime_disp (f : TimeState → TimeState) (s : State) : (s.modTime f).disp = s.disp := rfl
@[simp] theorem State.modTime_therm (f : TimeState → TimeState) (s : State) : (s.modTime f).therm = s.therm := rfl
@[simp] theorem State.modTime_guard (f : TimeState → TimeState) (s : State) : (s.modTime f).guard = s.guard := rfl
@[simp] theorem State.modTime_core (f : TimeState → TimeState) (s : State) : (s.modTime f).core = s.core := rfl
@[simp] theorem State.modTime_host (f : TimeState → TimeState) (s : State) : (s.modTime f).host = s.host := rfl
@[simp] theorem State.modTime_can (f : TimeState → TimeState) (s : State) : (s.modTime f).can = s.can := rfl
@[simp] theorem State.modTime_prog (f : TimeState → TimeState) (s : State) : (s.modTime f).prog = s.prog := rfl
@[simp] theorem State.modTime_recorder (f : TimeState → TimeState) (s : State) : (s.modTime f).recorder = s.recorder := rfl
@[simp] theorem State.modTime_mem (f : TimeState → TimeState) (s : State) : (s.modTime f).mem = s.mem := rfl
@[simp] theorem State.modTime_boot (f : TimeState → TimeState) (s : State) : (s.modTime f).boot = s.boot := rfl
@[simp] theorem State.modTime_upd (f : TimeState → TimeState) (s : State) : (s.modTime f).upd = s.upd := rfl
@[simp] theorem State.modTime_bist (f : TimeState → TimeState) (s : State) : (s.modTime f).bist = s.bist := rfl
@[simp] theorem State.modTime_pwr (f : TimeState → TimeState) (s : State) : (s.modTime f).pwr = s.pwr := rfl
@[simp] theorem State.modTime_out (f : TimeState → TimeState) (s : State) : (s.modTime f).out = s.out := rfl
@[simp] theorem State.modTime_freeCtr (f : TimeState → TimeState) (s : State) : (s.modTime f).freeCtr = s.freeCtr := rfl
@[simp] theorem State.modTime_pending (f : TimeState → TimeState) (s : State) : (s.modTime f).pending = s.pending := rfl
@[simp] theorem State.modComb_time (f : CombState → CombState) (s : State) : (s.modComb f).time = s.time := rfl
@[simp] theorem State.modComb_comb (f : CombState → CombState) (s : State) : (s.modComb f).comb = f s.comb := rfl
@[simp] theorem State.modComb_links (f : CombState → CombState) (s : State) : (s.modComb f).links = s.links := rfl
@[simp] theorem State.modComb_tagCtr (f : CombState → CombState) (s : State) : (s.modComb f).tagCtr = s.tagCtr := rfl
@[simp] theorem State.modComb_forgs (f : CombState → CombState) (s : State) : (s.modComb f).forgs = s.forgs := rfl
@[simp] theorem State.modComb_cells (f : CombState → CombState) (s : State) : (s.modComb f).cells = s.cells := rfl
@[simp] theorem State.modComb_est (f : CombState → CombState) (s : State) : (s.modComb f).est = s.est := rfl
@[simp] theorem State.modComb_surv (f : CombState → CombState) (s : State) : (s.modComb f).surv = s.surv := rfl
@[simp] theorem State.modComb_learned (f : CombState → CombState) (s : State) : (s.modComb f).learned = s.learned := rfl
@[simp] theorem State.modComb_reg (f : CombState → CombState) (s : State) : (s.modComb f).reg = s.reg := rfl
@[simp] theorem State.modComb_disp (f : CombState → CombState) (s : State) : (s.modComb f).disp = s.disp := rfl
@[simp] theorem State.modComb_therm (f : CombState → CombState) (s : State) : (s.modComb f).therm = s.therm := rfl
@[simp] theorem State.modComb_guard (f : CombState → CombState) (s : State) : (s.modComb f).guard = s.guard := rfl
@[simp] theorem State.modComb_core (f : CombState → CombState) (s : State) : (s.modComb f).core = s.core := rfl
@[simp] theorem State.modComb_host (f : CombState → CombState) (s : State) : (s.modComb f).host = s.host := rfl
@[simp] theorem State.modComb_can (f : CombState → CombState) (s : State) : (s.modComb f).can = s.can := rfl
@[simp] theorem State.modComb_prog (f : CombState → CombState) (s : State) : (s.modComb f).prog = s.prog := rfl
@[simp] theorem State.modComb_recorder (f : CombState → CombState) (s : State) : (s.modComb f).recorder = s.recorder := rfl
@[simp] theorem State.modComb_mem (f : CombState → CombState) (s : State) : (s.modComb f).mem = s.mem := rfl
@[simp] theorem State.modComb_boot (f : CombState → CombState) (s : State) : (s.modComb f).boot = s.boot := rfl
@[simp] theorem State.modComb_upd (f : CombState → CombState) (s : State) : (s.modComb f).upd = s.upd := rfl
@[simp] theorem State.modComb_bist (f : CombState → CombState) (s : State) : (s.modComb f).bist = s.bist := rfl
@[simp] theorem State.modComb_pwr (f : CombState → CombState) (s : State) : (s.modComb f).pwr = s.pwr := rfl
@[simp] theorem State.modComb_out (f : CombState → CombState) (s : State) : (s.modComb f).out = s.out := rfl
@[simp] theorem State.modComb_freeCtr (f : CombState → CombState) (s : State) : (s.modComb f).freeCtr = s.freeCtr := rfl
@[simp] theorem State.modComb_pending (f : CombState → CombState) (s : State) : (s.modComb f).pending = s.pending := rfl
@[simp] theorem State.modLinks_time (f : List LinkStr → List LinkStr) (s : State) : (s.modLinks f).time = s.time := rfl
@[simp] theorem State.modLinks_comb (f : List LinkStr → List LinkStr) (s : State) : (s.modLinks f).comb = s.comb := rfl
@[simp] theorem State.modLinks_links (f : List LinkStr → List LinkStr) (s : State) : (s.modLinks f).links = f s.links := rfl
@[simp] theorem State.modLinks_tagCtr (f : List LinkStr → List LinkStr) (s : State) : (s.modLinks f).tagCtr = s.tagCtr := rfl
@[simp] theorem State.modLinks_forgs (f : List LinkStr → List LinkStr) (s : State) : (s.modLinks f).forgs = s.forgs := rfl
@[simp] theorem State.modLinks_cells (f : List LinkStr → List LinkStr) (s : State) : (s.modLinks f).cells = s.cells := rfl
@[simp] theorem State.modLinks_est (f : List LinkStr → List LinkStr) (s : State) : (s.modLinks f).est = s.est := rfl
@[simp] theorem State.modLinks_surv (f : List LinkStr → List LinkStr) (s : State) : (s.modLinks f).surv = s.surv := rfl
@[simp] theorem State.modLinks_learned (f : List LinkStr → List LinkStr) (s : State) : (s.modLinks f).learned = s.learned := rfl
@[simp] theorem State.modLinks_reg (f : List LinkStr → List LinkStr) (s : State) : (s.modLinks f).reg = s.reg := rfl
@[simp] theorem State.modLinks_disp (f : List LinkStr → List LinkStr) (s : State) : (s.modLinks f).disp = s.disp := rfl
@[simp] theorem State.modLinks_therm (f : List LinkStr → List LinkStr) (s : State) : (s.modLinks f).therm = s.therm := rfl
@[simp] theorem State.modLinks_guard (f : List LinkStr → List LinkStr) (s : State) : (s.modLinks f).guard = s.guard := rfl
@[simp] theorem State.modLinks_core (f : List LinkStr → List LinkStr) (s : State) : (s.modLinks f).core = s.core := rfl
@[simp] theorem State.modLinks_host (f : List LinkStr → List LinkStr) (s : State) : (s.modLinks f).host = s.host := rfl
@[simp] theorem State.modLinks_can (f : List LinkStr → List LinkStr) (s : State) : (s.modLinks f).can = s.can := rfl
@[simp] theorem State.modLinks_prog (f : List LinkStr → List LinkStr) (s : State) : (s.modLinks f).prog = s.prog := rfl
@[simp] theorem State.modLinks_recorder (f : List LinkStr → List LinkStr) (s : State) : (s.modLinks f).recorder = s.recorder := rfl
@[simp] theorem State.modLinks_mem (f : List LinkStr → List LinkStr) (s : State) : (s.modLinks f).mem = s.mem := rfl
@[simp] theorem State.modLinks_boot (f : List LinkStr → List LinkStr) (s : State) : (s.modLinks f).boot = s.boot := rfl
@[simp] theorem State.modLinks_upd (f : List LinkStr → List LinkStr) (s : State) : (s.modLinks f).upd = s.upd := rfl
@[simp] theorem State.modLinks_bist (f : List LinkStr → List LinkStr) (s : State) : (s.modLinks f).bist = s.bist := rfl
@[simp] theorem State.modLinks_pwr (f : List LinkStr → List LinkStr) (s : State) : (s.modLinks f).pwr = s.pwr := rfl
@[simp] theorem State.modLinks_out (f : List LinkStr → List LinkStr) (s : State) : (s.modLinks f).out = s.out := rfl
@[simp] theorem State.modLinks_freeCtr (f : List LinkStr → List LinkStr) (s : State) : (s.modLinks f).freeCtr = s.freeCtr := rfl
@[simp] theorem State.modLinks_pending (f : List LinkStr → List LinkStr) (s : State) : (s.modLinks f).pending = s.pending := rfl
@[simp] theorem State.modTagCtr_time (f : Nat → Nat) (s : State) : (s.modTagCtr f).time = s.time := rfl
@[simp] theorem State.modTagCtr_comb (f : Nat → Nat) (s : State) : (s.modTagCtr f).comb = s.comb := rfl
@[simp] theorem State.modTagCtr_links (f : Nat → Nat) (s : State) : (s.modTagCtr f).links = s.links := rfl
@[simp] theorem State.modTagCtr_tagCtr (f : Nat → Nat) (s : State) : (s.modTagCtr f).tagCtr = f s.tagCtr := rfl
@[simp] theorem State.modTagCtr_forgs (f : Nat → Nat) (s : State) : (s.modTagCtr f).forgs = s.forgs := rfl
@[simp] theorem State.modTagCtr_cells (f : Nat → Nat) (s : State) : (s.modTagCtr f).cells = s.cells := rfl
@[simp] theorem State.modTagCtr_est (f : Nat → Nat) (s : State) : (s.modTagCtr f).est = s.est := rfl
@[simp] theorem State.modTagCtr_surv (f : Nat → Nat) (s : State) : (s.modTagCtr f).surv = s.surv := rfl
@[simp] theorem State.modTagCtr_learned (f : Nat → Nat) (s : State) : (s.modTagCtr f).learned = s.learned := rfl
@[simp] theorem State.modTagCtr_reg (f : Nat → Nat) (s : State) : (s.modTagCtr f).reg = s.reg := rfl
@[simp] theorem State.modTagCtr_disp (f : Nat → Nat) (s : State) : (s.modTagCtr f).disp = s.disp := rfl
@[simp] theorem State.modTagCtr_therm (f : Nat → Nat) (s : State) : (s.modTagCtr f).therm = s.therm := rfl
@[simp] theorem State.modTagCtr_guard (f : Nat → Nat) (s : State) : (s.modTagCtr f).guard = s.guard := rfl
@[simp] theorem State.modTagCtr_core (f : Nat → Nat) (s : State) : (s.modTagCtr f).core = s.core := rfl
@[simp] theorem State.modTagCtr_host (f : Nat → Nat) (s : State) : (s.modTagCtr f).host = s.host := rfl
@[simp] theorem State.modTagCtr_can (f : Nat → Nat) (s : State) : (s.modTagCtr f).can = s.can := rfl
@[simp] theorem State.modTagCtr_prog (f : Nat → Nat) (s : State) : (s.modTagCtr f).prog = s.prog := rfl
@[simp] theorem State.modTagCtr_recorder (f : Nat → Nat) (s : State) : (s.modTagCtr f).recorder = s.recorder := rfl
@[simp] theorem State.modTagCtr_mem (f : Nat → Nat) (s : State) : (s.modTagCtr f).mem = s.mem := rfl
@[simp] theorem State.modTagCtr_boot (f : Nat → Nat) (s : State) : (s.modTagCtr f).boot = s.boot := rfl
@[simp] theorem State.modTagCtr_upd (f : Nat → Nat) (s : State) : (s.modTagCtr f).upd = s.upd := rfl
@[simp] theorem State.modTagCtr_bist (f : Nat → Nat) (s : State) : (s.modTagCtr f).bist = s.bist := rfl
@[simp] theorem State.modTagCtr_pwr (f : Nat → Nat) (s : State) : (s.modTagCtr f).pwr = s.pwr := rfl
@[simp] theorem State.modTagCtr_out (f : Nat → Nat) (s : State) : (s.modTagCtr f).out = s.out := rfl
@[simp] theorem State.modTagCtr_freeCtr (f : Nat → Nat) (s : State) : (s.modTagCtr f).freeCtr = s.freeCtr := rfl
@[simp] theorem State.modTagCtr_pending (f : Nat → Nat) (s : State) : (s.modTagCtr f).pending = s.pending := rfl
@[simp] theorem State.modForgs_time (f : List Forager → List Forager) (s : State) : (s.modForgs f).time = s.time := rfl
@[simp] theorem State.modForgs_comb (f : List Forager → List Forager) (s : State) : (s.modForgs f).comb = s.comb := rfl
@[simp] theorem State.modForgs_links (f : List Forager → List Forager) (s : State) : (s.modForgs f).links = s.links := rfl
@[simp] theorem State.modForgs_tagCtr (f : List Forager → List Forager) (s : State) : (s.modForgs f).tagCtr = s.tagCtr := rfl
@[simp] theorem State.modForgs_forgs (f : List Forager → List Forager) (s : State) : (s.modForgs f).forgs = f s.forgs := rfl
@[simp] theorem State.modForgs_cells (f : List Forager → List Forager) (s : State) : (s.modForgs f).cells = s.cells := rfl
@[simp] theorem State.modForgs_est (f : List Forager → List Forager) (s : State) : (s.modForgs f).est = s.est := rfl
@[simp] theorem State.modForgs_surv (f : List Forager → List Forager) (s : State) : (s.modForgs f).surv = s.surv := rfl
@[simp] theorem State.modForgs_learned (f : List Forager → List Forager) (s : State) : (s.modForgs f).learned = s.learned := rfl
@[simp] theorem State.modForgs_reg (f : List Forager → List Forager) (s : State) : (s.modForgs f).reg = s.reg := rfl
@[simp] theorem State.modForgs_disp (f : List Forager → List Forager) (s : State) : (s.modForgs f).disp = s.disp := rfl
@[simp] theorem State.modForgs_therm (f : List Forager → List Forager) (s : State) : (s.modForgs f).therm = s.therm := rfl
@[simp] theorem State.modForgs_guard (f : List Forager → List Forager) (s : State) : (s.modForgs f).guard = s.guard := rfl
@[simp] theorem State.modForgs_core (f : List Forager → List Forager) (s : State) : (s.modForgs f).core = s.core := rfl
@[simp] theorem State.modForgs_host (f : List Forager → List Forager) (s : State) : (s.modForgs f).host = s.host := rfl
@[simp] theorem State.modForgs_can (f : List Forager → List Forager) (s : State) : (s.modForgs f).can = s.can := rfl
@[simp] theorem State.modForgs_prog (f : List Forager → List Forager) (s : State) : (s.modForgs f).prog = s.prog := rfl
@[simp] theorem State.modForgs_recorder (f : List Forager → List Forager) (s : State) : (s.modForgs f).recorder = s.recorder := rfl
@[simp] theorem State.modForgs_mem (f : List Forager → List Forager) (s : State) : (s.modForgs f).mem = s.mem := rfl
@[simp] theorem State.modForgs_boot (f : List Forager → List Forager) (s : State) : (s.modForgs f).boot = s.boot := rfl
@[simp] theorem State.modForgs_upd (f : List Forager → List Forager) (s : State) : (s.modForgs f).upd = s.upd := rfl
@[simp] theorem State.modForgs_bist (f : List Forager → List Forager) (s : State) : (s.modForgs f).bist = s.bist := rfl
@[simp] theorem State.modForgs_pwr (f : List Forager → List Forager) (s : State) : (s.modForgs f).pwr = s.pwr := rfl
@[simp] theorem State.modForgs_out (f : List Forager → List Forager) (s : State) : (s.modForgs f).out = s.out := rfl
@[simp] theorem State.modForgs_freeCtr (f : List Forager → List Forager) (s : State) : (s.modForgs f).freeCtr = s.freeCtr := rfl
@[simp] theorem State.modForgs_pending (f : List Forager → List Forager) (s : State) : (s.modForgs f).pending = s.pending := rfl
@[simp] theorem State.modCells_time (f : List Cell → List Cell) (s : State) : (s.modCells f).time = s.time := rfl
@[simp] theorem State.modCells_comb (f : List Cell → List Cell) (s : State) : (s.modCells f).comb = s.comb := rfl
@[simp] theorem State.modCells_links (f : List Cell → List Cell) (s : State) : (s.modCells f).links = s.links := rfl
@[simp] theorem State.modCells_tagCtr (f : List Cell → List Cell) (s : State) : (s.modCells f).tagCtr = s.tagCtr := rfl
@[simp] theorem State.modCells_forgs (f : List Cell → List Cell) (s : State) : (s.modCells f).forgs = s.forgs := rfl
@[simp] theorem State.modCells_cells (f : List Cell → List Cell) (s : State) : (s.modCells f).cells = f s.cells := rfl
@[simp] theorem State.modCells_est (f : List Cell → List Cell) (s : State) : (s.modCells f).est = s.est := rfl
@[simp] theorem State.modCells_surv (f : List Cell → List Cell) (s : State) : (s.modCells f).surv = s.surv := rfl
@[simp] theorem State.modCells_learned (f : List Cell → List Cell) (s : State) : (s.modCells f).learned = s.learned := rfl
@[simp] theorem State.modCells_reg (f : List Cell → List Cell) (s : State) : (s.modCells f).reg = s.reg := rfl
@[simp] theorem State.modCells_disp (f : List Cell → List Cell) (s : State) : (s.modCells f).disp = s.disp := rfl
@[simp] theorem State.modCells_therm (f : List Cell → List Cell) (s : State) : (s.modCells f).therm = s.therm := rfl
@[simp] theorem State.modCells_guard (f : List Cell → List Cell) (s : State) : (s.modCells f).guard = s.guard := rfl
@[simp] theorem State.modCells_core (f : List Cell → List Cell) (s : State) : (s.modCells f).core = s.core := rfl
@[simp] theorem State.modCells_host (f : List Cell → List Cell) (s : State) : (s.modCells f).host = s.host := rfl
@[simp] theorem State.modCells_can (f : List Cell → List Cell) (s : State) : (s.modCells f).can = s.can := rfl
@[simp] theorem State.modCells_prog (f : List Cell → List Cell) (s : State) : (s.modCells f).prog = s.prog := rfl
@[simp] theorem State.modCells_recorder (f : List Cell → List Cell) (s : State) : (s.modCells f).recorder = s.recorder := rfl
@[simp] theorem State.modCells_mem (f : List Cell → List Cell) (s : State) : (s.modCells f).mem = s.mem := rfl
@[simp] theorem State.modCells_boot (f : List Cell → List Cell) (s : State) : (s.modCells f).boot = s.boot := rfl
@[simp] theorem State.modCells_upd (f : List Cell → List Cell) (s : State) : (s.modCells f).upd = s.upd := rfl
@[simp] theorem State.modCells_bist (f : List Cell → List Cell) (s : State) : (s.modCells f).bist = s.bist := rfl
@[simp] theorem State.modCells_pwr (f : List Cell → List Cell) (s : State) : (s.modCells f).pwr = s.pwr := rfl
@[simp] theorem State.modCells_out (f : List Cell → List Cell) (s : State) : (s.modCells f).out = s.out := rfl
@[simp] theorem State.modCells_freeCtr (f : List Cell → List Cell) (s : State) : (s.modCells f).freeCtr = s.freeCtr := rfl
@[simp] theorem State.modCells_pending (f : List Cell → List Cell) (s : State) : (s.modCells f).pending = s.pending := rfl
@[simp] theorem State.modEst_time (f : List EstStr → List EstStr) (s : State) : (s.modEst f).time = s.time := rfl
@[simp] theorem State.modEst_comb (f : List EstStr → List EstStr) (s : State) : (s.modEst f).comb = s.comb := rfl
@[simp] theorem State.modEst_links (f : List EstStr → List EstStr) (s : State) : (s.modEst f).links = s.links := rfl
@[simp] theorem State.modEst_tagCtr (f : List EstStr → List EstStr) (s : State) : (s.modEst f).tagCtr = s.tagCtr := rfl
@[simp] theorem State.modEst_forgs (f : List EstStr → List EstStr) (s : State) : (s.modEst f).forgs = s.forgs := rfl
@[simp] theorem State.modEst_cells (f : List EstStr → List EstStr) (s : State) : (s.modEst f).cells = s.cells := rfl
@[simp] theorem State.modEst_est (f : List EstStr → List EstStr) (s : State) : (s.modEst f).est = f s.est := rfl
@[simp] theorem State.modEst_surv (f : List EstStr → List EstStr) (s : State) : (s.modEst f).surv = s.surv := rfl
@[simp] theorem State.modEst_learned (f : List EstStr → List EstStr) (s : State) : (s.modEst f).learned = s.learned := rfl
@[simp] theorem State.modEst_reg (f : List EstStr → List EstStr) (s : State) : (s.modEst f).reg = s.reg := rfl
@[simp] theorem State.modEst_disp (f : List EstStr → List EstStr) (s : State) : (s.modEst f).disp = s.disp := rfl
@[simp] theorem State.modEst_therm (f : List EstStr → List EstStr) (s : State) : (s.modEst f).therm = s.therm := rfl
@[simp] theorem State.modEst_guard (f : List EstStr → List EstStr) (s : State) : (s.modEst f).guard = s.guard := rfl
@[simp] theorem State.modEst_core (f : List EstStr → List EstStr) (s : State) : (s.modEst f).core = s.core := rfl
@[simp] theorem State.modEst_host (f : List EstStr → List EstStr) (s : State) : (s.modEst f).host = s.host := rfl
@[simp] theorem State.modEst_can (f : List EstStr → List EstStr) (s : State) : (s.modEst f).can = s.can := rfl
@[simp] theorem State.modEst_prog (f : List EstStr → List EstStr) (s : State) : (s.modEst f).prog = s.prog := rfl
@[simp] theorem State.modEst_recorder (f : List EstStr → List EstStr) (s : State) : (s.modEst f).recorder = s.recorder := rfl
@[simp] theorem State.modEst_mem (f : List EstStr → List EstStr) (s : State) : (s.modEst f).mem = s.mem := rfl
@[simp] theorem State.modEst_boot (f : List EstStr → List EstStr) (s : State) : (s.modEst f).boot = s.boot := rfl
@[simp] theorem State.modEst_upd (f : List EstStr → List EstStr) (s : State) : (s.modEst f).upd = s.upd := rfl
@[simp] theorem State.modEst_bist (f : List EstStr → List EstStr) (s : State) : (s.modEst f).bist = s.bist := rfl
@[simp] theorem State.modEst_pwr (f : List EstStr → List EstStr) (s : State) : (s.modEst f).pwr = s.pwr := rfl
@[simp] theorem State.modEst_out (f : List EstStr → List EstStr) (s : State) : (s.modEst f).out = s.out := rfl
@[simp] theorem State.modEst_freeCtr (f : List EstStr → List EstStr) (s : State) : (s.modEst f).freeCtr = s.freeCtr := rfl
@[simp] theorem State.modEst_pending (f : List EstStr → List EstStr) (s : State) : (s.modEst f).pending = s.pending := rfl
@[simp] theorem State.modSurv_time (f : SurvState → SurvState) (s : State) : (s.modSurv f).time = s.time := rfl
@[simp] theorem State.modSurv_comb (f : SurvState → SurvState) (s : State) : (s.modSurv f).comb = s.comb := rfl
@[simp] theorem State.modSurv_links (f : SurvState → SurvState) (s : State) : (s.modSurv f).links = s.links := rfl
@[simp] theorem State.modSurv_tagCtr (f : SurvState → SurvState) (s : State) : (s.modSurv f).tagCtr = s.tagCtr := rfl
@[simp] theorem State.modSurv_forgs (f : SurvState → SurvState) (s : State) : (s.modSurv f).forgs = s.forgs := rfl
@[simp] theorem State.modSurv_cells (f : SurvState → SurvState) (s : State) : (s.modSurv f).cells = s.cells := rfl
@[simp] theorem State.modSurv_est (f : SurvState → SurvState) (s : State) : (s.modSurv f).est = s.est := rfl
@[simp] theorem State.modSurv_surv (f : SurvState → SurvState) (s : State) : (s.modSurv f).surv = f s.surv := rfl
@[simp] theorem State.modSurv_learned (f : SurvState → SurvState) (s : State) : (s.modSurv f).learned = s.learned := rfl
@[simp] theorem State.modSurv_reg (f : SurvState → SurvState) (s : State) : (s.modSurv f).reg = s.reg := rfl
@[simp] theorem State.modSurv_disp (f : SurvState → SurvState) (s : State) : (s.modSurv f).disp = s.disp := rfl
@[simp] theorem State.modSurv_therm (f : SurvState → SurvState) (s : State) : (s.modSurv f).therm = s.therm := rfl
@[simp] theorem State.modSurv_guard (f : SurvState → SurvState) (s : State) : (s.modSurv f).guard = s.guard := rfl
@[simp] theorem State.modSurv_core (f : SurvState → SurvState) (s : State) : (s.modSurv f).core = s.core := rfl
@[simp] theorem State.modSurv_host (f : SurvState → SurvState) (s : State) : (s.modSurv f).host = s.host := rfl
@[simp] theorem State.modSurv_can (f : SurvState → SurvState) (s : State) : (s.modSurv f).can = s.can := rfl
@[simp] theorem State.modSurv_prog (f : SurvState → SurvState) (s : State) : (s.modSurv f).prog = s.prog := rfl
@[simp] theorem State.modSurv_recorder (f : SurvState → SurvState) (s : State) : (s.modSurv f).recorder = s.recorder := rfl
@[simp] theorem State.modSurv_mem (f : SurvState → SurvState) (s : State) : (s.modSurv f).mem = s.mem := rfl
@[simp] theorem State.modSurv_boot (f : SurvState → SurvState) (s : State) : (s.modSurv f).boot = s.boot := rfl
@[simp] theorem State.modSurv_upd (f : SurvState → SurvState) (s : State) : (s.modSurv f).upd = s.upd := rfl
@[simp] theorem State.modSurv_bist (f : SurvState → SurvState) (s : State) : (s.modSurv f).bist = s.bist := rfl
@[simp] theorem State.modSurv_pwr (f : SurvState → SurvState) (s : State) : (s.modSurv f).pwr = s.pwr := rfl
@[simp] theorem State.modSurv_out (f : SurvState → SurvState) (s : State) : (s.modSurv f).out = s.out := rfl
@[simp] theorem State.modSurv_freeCtr (f : SurvState → SurvState) (s : State) : (s.modSurv f).freeCtr = s.freeCtr := rfl
@[simp] theorem State.modSurv_pending (f : SurvState → SurvState) (s : State) : (s.modSurv f).pending = s.pending := rfl
@[simp] theorem State.modLearned_time (f : List (Pair LearnedRec) → List (Pair LearnedRec)) (s : State) : (s.modLearned f).time = s.time := rfl
@[simp] theorem State.modLearned_comb (f : List (Pair LearnedRec) → List (Pair LearnedRec)) (s : State) : (s.modLearned f).comb = s.comb := rfl
@[simp] theorem State.modLearned_links (f : List (Pair LearnedRec) → List (Pair LearnedRec)) (s : State) : (s.modLearned f).links = s.links := rfl
@[simp] theorem State.modLearned_tagCtr (f : List (Pair LearnedRec) → List (Pair LearnedRec)) (s : State) : (s.modLearned f).tagCtr = s.tagCtr := rfl
@[simp] theorem State.modLearned_forgs (f : List (Pair LearnedRec) → List (Pair LearnedRec)) (s : State) : (s.modLearned f).forgs = s.forgs := rfl
@[simp] theorem State.modLearned_cells (f : List (Pair LearnedRec) → List (Pair LearnedRec)) (s : State) : (s.modLearned f).cells = s.cells := rfl
@[simp] theorem State.modLearned_est (f : List (Pair LearnedRec) → List (Pair LearnedRec)) (s : State) : (s.modLearned f).est = s.est := rfl
@[simp] theorem State.modLearned_surv (f : List (Pair LearnedRec) → List (Pair LearnedRec)) (s : State) : (s.modLearned f).surv = s.surv := rfl
@[simp] theorem State.modLearned_learned (f : List (Pair LearnedRec) → List (Pair LearnedRec)) (s : State) : (s.modLearned f).learned = f s.learned := rfl
@[simp] theorem State.modLearned_reg (f : List (Pair LearnedRec) → List (Pair LearnedRec)) (s : State) : (s.modLearned f).reg = s.reg := rfl
@[simp] theorem State.modLearned_disp (f : List (Pair LearnedRec) → List (Pair LearnedRec)) (s : State) : (s.modLearned f).disp = s.disp := rfl
@[simp] theorem State.modLearned_therm (f : List (Pair LearnedRec) → List (Pair LearnedRec)) (s : State) : (s.modLearned f).therm = s.therm := rfl
@[simp] theorem State.modLearned_guard (f : List (Pair LearnedRec) → List (Pair LearnedRec)) (s : State) : (s.modLearned f).guard = s.guard := rfl
@[simp] theorem State.modLearned_core (f : List (Pair LearnedRec) → List (Pair LearnedRec)) (s : State) : (s.modLearned f).core = s.core := rfl
@[simp] theorem State.modLearned_host (f : List (Pair LearnedRec) → List (Pair LearnedRec)) (s : State) : (s.modLearned f).host = s.host := rfl
@[simp] theorem State.modLearned_can (f : List (Pair LearnedRec) → List (Pair LearnedRec)) (s : State) : (s.modLearned f).can = s.can := rfl
@[simp] theorem State.modLearned_prog (f : List (Pair LearnedRec) → List (Pair LearnedRec)) (s : State) : (s.modLearned f).prog = s.prog := rfl
@[simp] theorem State.modLearned_recorder (f : List (Pair LearnedRec) → List (Pair LearnedRec)) (s : State) : (s.modLearned f).recorder = s.recorder := rfl
@[simp] theorem State.modLearned_mem (f : List (Pair LearnedRec) → List (Pair LearnedRec)) (s : State) : (s.modLearned f).mem = s.mem := rfl
@[simp] theorem State.modLearned_boot (f : List (Pair LearnedRec) → List (Pair LearnedRec)) (s : State) : (s.modLearned f).boot = s.boot := rfl
@[simp] theorem State.modLearned_upd (f : List (Pair LearnedRec) → List (Pair LearnedRec)) (s : State) : (s.modLearned f).upd = s.upd := rfl
@[simp] theorem State.modLearned_bist (f : List (Pair LearnedRec) → List (Pair LearnedRec)) (s : State) : (s.modLearned f).bist = s.bist := rfl
@[simp] theorem State.modLearned_pwr (f : List (Pair LearnedRec) → List (Pair LearnedRec)) (s : State) : (s.modLearned f).pwr = s.pwr := rfl
@[simp] theorem State.modLearned_out (f : List (Pair LearnedRec) → List (Pair LearnedRec)) (s : State) : (s.modLearned f).out = s.out := rfl
@[simp] theorem State.modLearned_freeCtr (f : List (Pair LearnedRec) → List (Pair LearnedRec)) (s : State) : (s.modLearned f).freeCtr = s.freeCtr := rfl
@[simp] theorem State.modLearned_pending (f : List (Pair LearnedRec) → List (Pair LearnedRec)) (s : State) : (s.modLearned f).pending = s.pending := rfl
@[simp] theorem State.modReg_time (f : RegState → RegState) (s : State) : (s.modReg f).time = s.time := rfl
@[simp] theorem State.modReg_comb (f : RegState → RegState) (s : State) : (s.modReg f).comb = s.comb := rfl
@[simp] theorem State.modReg_links (f : RegState → RegState) (s : State) : (s.modReg f).links = s.links := rfl
@[simp] theorem State.modReg_tagCtr (f : RegState → RegState) (s : State) : (s.modReg f).tagCtr = s.tagCtr := rfl
@[simp] theorem State.modReg_forgs (f : RegState → RegState) (s : State) : (s.modReg f).forgs = s.forgs := rfl
@[simp] theorem State.modReg_cells (f : RegState → RegState) (s : State) : (s.modReg f).cells = s.cells := rfl
@[simp] theorem State.modReg_est (f : RegState → RegState) (s : State) : (s.modReg f).est = s.est := rfl
@[simp] theorem State.modReg_surv (f : RegState → RegState) (s : State) : (s.modReg f).surv = s.surv := rfl
@[simp] theorem State.modReg_learned (f : RegState → RegState) (s : State) : (s.modReg f).learned = s.learned := rfl
@[simp] theorem State.modReg_reg (f : RegState → RegState) (s : State) : (s.modReg f).reg = f s.reg := rfl
@[simp] theorem State.modReg_disp (f : RegState → RegState) (s : State) : (s.modReg f).disp = s.disp := rfl
@[simp] theorem State.modReg_therm (f : RegState → RegState) (s : State) : (s.modReg f).therm = s.therm := rfl
@[simp] theorem State.modReg_guard (f : RegState → RegState) (s : State) : (s.modReg f).guard = s.guard := rfl
@[simp] theorem State.modReg_core (f : RegState → RegState) (s : State) : (s.modReg f).core = s.core := rfl
@[simp] theorem State.modReg_host (f : RegState → RegState) (s : State) : (s.modReg f).host = s.host := rfl
@[simp] theorem State.modReg_can (f : RegState → RegState) (s : State) : (s.modReg f).can = s.can := rfl
@[simp] theorem State.modReg_prog (f : RegState → RegState) (s : State) : (s.modReg f).prog = s.prog := rfl
@[simp] theorem State.modReg_recorder (f : RegState → RegState) (s : State) : (s.modReg f).recorder = s.recorder := rfl
@[simp] theorem State.modReg_mem (f : RegState → RegState) (s : State) : (s.modReg f).mem = s.mem := rfl
@[simp] theorem State.modReg_boot (f : RegState → RegState) (s : State) : (s.modReg f).boot = s.boot := rfl
@[simp] theorem State.modReg_upd (f : RegState → RegState) (s : State) : (s.modReg f).upd = s.upd := rfl
@[simp] theorem State.modReg_bist (f : RegState → RegState) (s : State) : (s.modReg f).bist = s.bist := rfl
@[simp] theorem State.modReg_pwr (f : RegState → RegState) (s : State) : (s.modReg f).pwr = s.pwr := rfl
@[simp] theorem State.modReg_out (f : RegState → RegState) (s : State) : (s.modReg f).out = s.out := rfl
@[simp] theorem State.modReg_freeCtr (f : RegState → RegState) (s : State) : (s.modReg f).freeCtr = s.freeCtr := rfl
@[simp] theorem State.modReg_pending (f : RegState → RegState) (s : State) : (s.modReg f).pending = s.pending := rfl
@[simp] theorem State.modDisp_time (f : DispState → DispState) (s : State) : (s.modDisp f).time = s.time := rfl
@[simp] theorem State.modDisp_comb (f : DispState → DispState) (s : State) : (s.modDisp f).comb = s.comb := rfl
@[simp] theorem State.modDisp_links (f : DispState → DispState) (s : State) : (s.modDisp f).links = s.links := rfl
@[simp] theorem State.modDisp_tagCtr (f : DispState → DispState) (s : State) : (s.modDisp f).tagCtr = s.tagCtr := rfl
@[simp] theorem State.modDisp_forgs (f : DispState → DispState) (s : State) : (s.modDisp f).forgs = s.forgs := rfl
@[simp] theorem State.modDisp_cells (f : DispState → DispState) (s : State) : (s.modDisp f).cells = s.cells := rfl
@[simp] theorem State.modDisp_est (f : DispState → DispState) (s : State) : (s.modDisp f).est = s.est := rfl
@[simp] theorem State.modDisp_surv (f : DispState → DispState) (s : State) : (s.modDisp f).surv = s.surv := rfl
@[simp] theorem State.modDisp_learned (f : DispState → DispState) (s : State) : (s.modDisp f).learned = s.learned := rfl
@[simp] theorem State.modDisp_reg (f : DispState → DispState) (s : State) : (s.modDisp f).reg = s.reg := rfl
@[simp] theorem State.modDisp_disp (f : DispState → DispState) (s : State) : (s.modDisp f).disp = f s.disp := rfl
@[simp] theorem State.modDisp_therm (f : DispState → DispState) (s : State) : (s.modDisp f).therm = s.therm := rfl
@[simp] theorem State.modDisp_guard (f : DispState → DispState) (s : State) : (s.modDisp f).guard = s.guard := rfl
@[simp] theorem State.modDisp_core (f : DispState → DispState) (s : State) : (s.modDisp f).core = s.core := rfl
@[simp] theorem State.modDisp_host (f : DispState → DispState) (s : State) : (s.modDisp f).host = s.host := rfl
@[simp] theorem State.modDisp_can (f : DispState → DispState) (s : State) : (s.modDisp f).can = s.can := rfl
@[simp] theorem State.modDisp_prog (f : DispState → DispState) (s : State) : (s.modDisp f).prog = s.prog := rfl
@[simp] theorem State.modDisp_recorder (f : DispState → DispState) (s : State) : (s.modDisp f).recorder = s.recorder := rfl
@[simp] theorem State.modDisp_mem (f : DispState → DispState) (s : State) : (s.modDisp f).mem = s.mem := rfl
@[simp] theorem State.modDisp_boot (f : DispState → DispState) (s : State) : (s.modDisp f).boot = s.boot := rfl
@[simp] theorem State.modDisp_upd (f : DispState → DispState) (s : State) : (s.modDisp f).upd = s.upd := rfl
@[simp] theorem State.modDisp_bist (f : DispState → DispState) (s : State) : (s.modDisp f).bist = s.bist := rfl
@[simp] theorem State.modDisp_pwr (f : DispState → DispState) (s : State) : (s.modDisp f).pwr = s.pwr := rfl
@[simp] theorem State.modDisp_out (f : DispState → DispState) (s : State) : (s.modDisp f).out = s.out := rfl
@[simp] theorem State.modDisp_freeCtr (f : DispState → DispState) (s : State) : (s.modDisp f).freeCtr = s.freeCtr := rfl
@[simp] theorem State.modDisp_pending (f : DispState → DispState) (s : State) : (s.modDisp f).pending = s.pending := rfl
@[simp] theorem State.modTherm_time (f : ThermState → ThermState) (s : State) : (s.modTherm f).time = s.time := rfl
@[simp] theorem State.modTherm_comb (f : ThermState → ThermState) (s : State) : (s.modTherm f).comb = s.comb := rfl
@[simp] theorem State.modTherm_links (f : ThermState → ThermState) (s : State) : (s.modTherm f).links = s.links := rfl
@[simp] theorem State.modTherm_tagCtr (f : ThermState → ThermState) (s : State) : (s.modTherm f).tagCtr = s.tagCtr := rfl
@[simp] theorem State.modTherm_forgs (f : ThermState → ThermState) (s : State) : (s.modTherm f).forgs = s.forgs := rfl
@[simp] theorem State.modTherm_cells (f : ThermState → ThermState) (s : State) : (s.modTherm f).cells = s.cells := rfl
@[simp] theorem State.modTherm_est (f : ThermState → ThermState) (s : State) : (s.modTherm f).est = s.est := rfl
@[simp] theorem State.modTherm_surv (f : ThermState → ThermState) (s : State) : (s.modTherm f).surv = s.surv := rfl
@[simp] theorem State.modTherm_learned (f : ThermState → ThermState) (s : State) : (s.modTherm f).learned = s.learned := rfl
@[simp] theorem State.modTherm_reg (f : ThermState → ThermState) (s : State) : (s.modTherm f).reg = s.reg := rfl
@[simp] theorem State.modTherm_disp (f : ThermState → ThermState) (s : State) : (s.modTherm f).disp = s.disp := rfl
@[simp] theorem State.modTherm_therm (f : ThermState → ThermState) (s : State) : (s.modTherm f).therm = f s.therm := rfl
@[simp] theorem State.modTherm_guard (f : ThermState → ThermState) (s : State) : (s.modTherm f).guard = s.guard := rfl
@[simp] theorem State.modTherm_core (f : ThermState → ThermState) (s : State) : (s.modTherm f).core = s.core := rfl
@[simp] theorem State.modTherm_host (f : ThermState → ThermState) (s : State) : (s.modTherm f).host = s.host := rfl
@[simp] theorem State.modTherm_can (f : ThermState → ThermState) (s : State) : (s.modTherm f).can = s.can := rfl
@[simp] theorem State.modTherm_prog (f : ThermState → ThermState) (s : State) : (s.modTherm f).prog = s.prog := rfl
@[simp] theorem State.modTherm_recorder (f : ThermState → ThermState) (s : State) : (s.modTherm f).recorder = s.recorder := rfl
@[simp] theorem State.modTherm_mem (f : ThermState → ThermState) (s : State) : (s.modTherm f).mem = s.mem := rfl
@[simp] theorem State.modTherm_boot (f : ThermState → ThermState) (s : State) : (s.modTherm f).boot = s.boot := rfl
@[simp] theorem State.modTherm_upd (f : ThermState → ThermState) (s : State) : (s.modTherm f).upd = s.upd := rfl
@[simp] theorem State.modTherm_bist (f : ThermState → ThermState) (s : State) : (s.modTherm f).bist = s.bist := rfl
@[simp] theorem State.modTherm_pwr (f : ThermState → ThermState) (s : State) : (s.modTherm f).pwr = s.pwr := rfl
@[simp] theorem State.modTherm_out (f : ThermState → ThermState) (s : State) : (s.modTherm f).out = s.out := rfl
@[simp] theorem State.modTherm_freeCtr (f : ThermState → ThermState) (s : State) : (s.modTherm f).freeCtr = s.freeCtr := rfl
@[simp] theorem State.modTherm_pending (f : ThermState → ThermState) (s : State) : (s.modTherm f).pending = s.pending := rfl
@[simp] theorem State.modGuard_time (f : Guard → Guard) (s : State) : (s.modGuard f).time = s.time := rfl
@[simp] theorem State.modGuard_comb (f : Guard → Guard) (s : State) : (s.modGuard f).comb = s.comb := rfl
@[simp] theorem State.modGuard_links (f : Guard → Guard) (s : State) : (s.modGuard f).links = s.links := rfl
@[simp] theorem State.modGuard_tagCtr (f : Guard → Guard) (s : State) : (s.modGuard f).tagCtr = s.tagCtr := rfl
@[simp] theorem State.modGuard_forgs (f : Guard → Guard) (s : State) : (s.modGuard f).forgs = s.forgs := rfl
@[simp] theorem State.modGuard_cells (f : Guard → Guard) (s : State) : (s.modGuard f).cells = s.cells := rfl
@[simp] theorem State.modGuard_est (f : Guard → Guard) (s : State) : (s.modGuard f).est = s.est := rfl
@[simp] theorem State.modGuard_surv (f : Guard → Guard) (s : State) : (s.modGuard f).surv = s.surv := rfl
@[simp] theorem State.modGuard_learned (f : Guard → Guard) (s : State) : (s.modGuard f).learned = s.learned := rfl
@[simp] theorem State.modGuard_reg (f : Guard → Guard) (s : State) : (s.modGuard f).reg = s.reg := rfl
@[simp] theorem State.modGuard_disp (f : Guard → Guard) (s : State) : (s.modGuard f).disp = s.disp := rfl
@[simp] theorem State.modGuard_therm (f : Guard → Guard) (s : State) : (s.modGuard f).therm = s.therm := rfl
@[simp] theorem State.modGuard_guard (f : Guard → Guard) (s : State) : (s.modGuard f).guard = f s.guard := rfl
@[simp] theorem State.modGuard_core (f : Guard → Guard) (s : State) : (s.modGuard f).core = s.core := rfl
@[simp] theorem State.modGuard_host (f : Guard → Guard) (s : State) : (s.modGuard f).host = s.host := rfl
@[simp] theorem State.modGuard_can (f : Guard → Guard) (s : State) : (s.modGuard f).can = s.can := rfl
@[simp] theorem State.modGuard_prog (f : Guard → Guard) (s : State) : (s.modGuard f).prog = s.prog := rfl
@[simp] theorem State.modGuard_recorder (f : Guard → Guard) (s : State) : (s.modGuard f).recorder = s.recorder := rfl
@[simp] theorem State.modGuard_mem (f : Guard → Guard) (s : State) : (s.modGuard f).mem = s.mem := rfl
@[simp] theorem State.modGuard_boot (f : Guard → Guard) (s : State) : (s.modGuard f).boot = s.boot := rfl
@[simp] theorem State.modGuard_upd (f : Guard → Guard) (s : State) : (s.modGuard f).upd = s.upd := rfl
@[simp] theorem State.modGuard_bist (f : Guard → Guard) (s : State) : (s.modGuard f).bist = s.bist := rfl
@[simp] theorem State.modGuard_pwr (f : Guard → Guard) (s : State) : (s.modGuard f).pwr = s.pwr := rfl
@[simp] theorem State.modGuard_out (f : Guard → Guard) (s : State) : (s.modGuard f).out = s.out := rfl
@[simp] theorem State.modGuard_freeCtr (f : Guard → Guard) (s : State) : (s.modGuard f).freeCtr = s.freeCtr := rfl
@[simp] theorem State.modGuard_pending (f : Guard → Guard) (s : State) : (s.modGuard f).pending = s.pending := rfl
@[simp] theorem State.modCore_time (f : SafeCore → SafeCore) (s : State) : (s.modCore f).time = s.time := rfl
@[simp] theorem State.modCore_comb (f : SafeCore → SafeCore) (s : State) : (s.modCore f).comb = s.comb := rfl
@[simp] theorem State.modCore_links (f : SafeCore → SafeCore) (s : State) : (s.modCore f).links = s.links := rfl
@[simp] theorem State.modCore_tagCtr (f : SafeCore → SafeCore) (s : State) : (s.modCore f).tagCtr = s.tagCtr := rfl
@[simp] theorem State.modCore_forgs (f : SafeCore → SafeCore) (s : State) : (s.modCore f).forgs = s.forgs := rfl
@[simp] theorem State.modCore_cells (f : SafeCore → SafeCore) (s : State) : (s.modCore f).cells = s.cells := rfl
@[simp] theorem State.modCore_est (f : SafeCore → SafeCore) (s : State) : (s.modCore f).est = s.est := rfl
@[simp] theorem State.modCore_surv (f : SafeCore → SafeCore) (s : State) : (s.modCore f).surv = s.surv := rfl
@[simp] theorem State.modCore_learned (f : SafeCore → SafeCore) (s : State) : (s.modCore f).learned = s.learned := rfl
@[simp] theorem State.modCore_reg (f : SafeCore → SafeCore) (s : State) : (s.modCore f).reg = s.reg := rfl
@[simp] theorem State.modCore_disp (f : SafeCore → SafeCore) (s : State) : (s.modCore f).disp = s.disp := rfl
@[simp] theorem State.modCore_therm (f : SafeCore → SafeCore) (s : State) : (s.modCore f).therm = s.therm := rfl
@[simp] theorem State.modCore_guard (f : SafeCore → SafeCore) (s : State) : (s.modCore f).guard = s.guard := rfl
@[simp] theorem State.modCore_core (f : SafeCore → SafeCore) (s : State) : (s.modCore f).core = f s.core := rfl
@[simp] theorem State.modCore_host (f : SafeCore → SafeCore) (s : State) : (s.modCore f).host = s.host := rfl
@[simp] theorem State.modCore_can (f : SafeCore → SafeCore) (s : State) : (s.modCore f).can = s.can := rfl
@[simp] theorem State.modCore_prog (f : SafeCore → SafeCore) (s : State) : (s.modCore f).prog = s.prog := rfl
@[simp] theorem State.modCore_recorder (f : SafeCore → SafeCore) (s : State) : (s.modCore f).recorder = s.recorder := rfl
@[simp] theorem State.modCore_mem (f : SafeCore → SafeCore) (s : State) : (s.modCore f).mem = s.mem := rfl
@[simp] theorem State.modCore_boot (f : SafeCore → SafeCore) (s : State) : (s.modCore f).boot = s.boot := rfl
@[simp] theorem State.modCore_upd (f : SafeCore → SafeCore) (s : State) : (s.modCore f).upd = s.upd := rfl
@[simp] theorem State.modCore_bist (f : SafeCore → SafeCore) (s : State) : (s.modCore f).bist = s.bist := rfl
@[simp] theorem State.modCore_pwr (f : SafeCore → SafeCore) (s : State) : (s.modCore f).pwr = s.pwr := rfl
@[simp] theorem State.modCore_out (f : SafeCore → SafeCore) (s : State) : (s.modCore f).out = s.out := rfl
@[simp] theorem State.modCore_freeCtr (f : SafeCore → SafeCore) (s : State) : (s.modCore f).freeCtr = s.freeCtr := rfl
@[simp] theorem State.modCore_pending (f : SafeCore → SafeCore) (s : State) : (s.modCore f).pending = s.pending := rfl
@[simp] theorem State.modHost_time (f : HostState → HostState) (s : State) : (s.modHost f).time = s.time := rfl
@[simp] theorem State.modHost_comb (f : HostState → HostState) (s : State) : (s.modHost f).comb = s.comb := rfl
@[simp] theorem State.modHost_links (f : HostState → HostState) (s : State) : (s.modHost f).links = s.links := rfl
@[simp] theorem State.modHost_tagCtr (f : HostState → HostState) (s : State) : (s.modHost f).tagCtr = s.tagCtr := rfl
@[simp] theorem State.modHost_forgs (f : HostState → HostState) (s : State) : (s.modHost f).forgs = s.forgs := rfl
@[simp] theorem State.modHost_cells (f : HostState → HostState) (s : State) : (s.modHost f).cells = s.cells := rfl
@[simp] theorem State.modHost_est (f : HostState → HostState) (s : State) : (s.modHost f).est = s.est := rfl
@[simp] theorem State.modHost_surv (f : HostState → HostState) (s : State) : (s.modHost f).surv = s.surv := rfl
@[simp] theorem State.modHost_learned (f : HostState → HostState) (s : State) : (s.modHost f).learned = s.learned := rfl
@[simp] theorem State.modHost_reg (f : HostState → HostState) (s : State) : (s.modHost f).reg = s.reg := rfl
@[simp] theorem State.modHost_disp (f : HostState → HostState) (s : State) : (s.modHost f).disp = s.disp := rfl
@[simp] theorem State.modHost_therm (f : HostState → HostState) (s : State) : (s.modHost f).therm = s.therm := rfl
@[simp] theorem State.modHost_guard (f : HostState → HostState) (s : State) : (s.modHost f).guard = s.guard := rfl
@[simp] theorem State.modHost_core (f : HostState → HostState) (s : State) : (s.modHost f).core = s.core := rfl
@[simp] theorem State.modHost_host (f : HostState → HostState) (s : State) : (s.modHost f).host = f s.host := rfl
@[simp] theorem State.modHost_can (f : HostState → HostState) (s : State) : (s.modHost f).can = s.can := rfl
@[simp] theorem State.modHost_prog (f : HostState → HostState) (s : State) : (s.modHost f).prog = s.prog := rfl
@[simp] theorem State.modHost_recorder (f : HostState → HostState) (s : State) : (s.modHost f).recorder = s.recorder := rfl
@[simp] theorem State.modHost_mem (f : HostState → HostState) (s : State) : (s.modHost f).mem = s.mem := rfl
@[simp] theorem State.modHost_boot (f : HostState → HostState) (s : State) : (s.modHost f).boot = s.boot := rfl
@[simp] theorem State.modHost_upd (f : HostState → HostState) (s : State) : (s.modHost f).upd = s.upd := rfl
@[simp] theorem State.modHost_bist (f : HostState → HostState) (s : State) : (s.modHost f).bist = s.bist := rfl
@[simp] theorem State.modHost_pwr (f : HostState → HostState) (s : State) : (s.modHost f).pwr = s.pwr := rfl
@[simp] theorem State.modHost_out (f : HostState → HostState) (s : State) : (s.modHost f).out = s.out := rfl
@[simp] theorem State.modHost_freeCtr (f : HostState → HostState) (s : State) : (s.modHost f).freeCtr = s.freeCtr := rfl
@[simp] theorem State.modHost_pending (f : HostState → HostState) (s : State) : (s.modHost f).pending = s.pending := rfl
@[simp] theorem State.modCan_time (f : CanState → CanState) (s : State) : (s.modCan f).time = s.time := rfl
@[simp] theorem State.modCan_comb (f : CanState → CanState) (s : State) : (s.modCan f).comb = s.comb := rfl
@[simp] theorem State.modCan_links (f : CanState → CanState) (s : State) : (s.modCan f).links = s.links := rfl
@[simp] theorem State.modCan_tagCtr (f : CanState → CanState) (s : State) : (s.modCan f).tagCtr = s.tagCtr := rfl
@[simp] theorem State.modCan_forgs (f : CanState → CanState) (s : State) : (s.modCan f).forgs = s.forgs := rfl
@[simp] theorem State.modCan_cells (f : CanState → CanState) (s : State) : (s.modCan f).cells = s.cells := rfl
@[simp] theorem State.modCan_est (f : CanState → CanState) (s : State) : (s.modCan f).est = s.est := rfl
@[simp] theorem State.modCan_surv (f : CanState → CanState) (s : State) : (s.modCan f).surv = s.surv := rfl
@[simp] theorem State.modCan_learned (f : CanState → CanState) (s : State) : (s.modCan f).learned = s.learned := rfl
@[simp] theorem State.modCan_reg (f : CanState → CanState) (s : State) : (s.modCan f).reg = s.reg := rfl
@[simp] theorem State.modCan_disp (f : CanState → CanState) (s : State) : (s.modCan f).disp = s.disp := rfl
@[simp] theorem State.modCan_therm (f : CanState → CanState) (s : State) : (s.modCan f).therm = s.therm := rfl
@[simp] theorem State.modCan_guard (f : CanState → CanState) (s : State) : (s.modCan f).guard = s.guard := rfl
@[simp] theorem State.modCan_core (f : CanState → CanState) (s : State) : (s.modCan f).core = s.core := rfl
@[simp] theorem State.modCan_host (f : CanState → CanState) (s : State) : (s.modCan f).host = s.host := rfl
@[simp] theorem State.modCan_can (f : CanState → CanState) (s : State) : (s.modCan f).can = f s.can := rfl
@[simp] theorem State.modCan_prog (f : CanState → CanState) (s : State) : (s.modCan f).prog = s.prog := rfl
@[simp] theorem State.modCan_recorder (f : CanState → CanState) (s : State) : (s.modCan f).recorder = s.recorder := rfl
@[simp] theorem State.modCan_mem (f : CanState → CanState) (s : State) : (s.modCan f).mem = s.mem := rfl
@[simp] theorem State.modCan_boot (f : CanState → CanState) (s : State) : (s.modCan f).boot = s.boot := rfl
@[simp] theorem State.modCan_upd (f : CanState → CanState) (s : State) : (s.modCan f).upd = s.upd := rfl
@[simp] theorem State.modCan_bist (f : CanState → CanState) (s : State) : (s.modCan f).bist = s.bist := rfl
@[simp] theorem State.modCan_pwr (f : CanState → CanState) (s : State) : (s.modCan f).pwr = s.pwr := rfl
@[simp] theorem State.modCan_out (f : CanState → CanState) (s : State) : (s.modCan f).out = s.out := rfl
@[simp] theorem State.modCan_freeCtr (f : CanState → CanState) (s : State) : (s.modCan f).freeCtr = s.freeCtr := rfl
@[simp] theorem State.modCan_pending (f : CanState → CanState) (s : State) : (s.modCan f).pending = s.pending := rfl
@[simp] theorem State.modProg_time (f : ProgState → ProgState) (s : State) : (s.modProg f).time = s.time := rfl
@[simp] theorem State.modProg_comb (f : ProgState → ProgState) (s : State) : (s.modProg f).comb = s.comb := rfl
@[simp] theorem State.modProg_links (f : ProgState → ProgState) (s : State) : (s.modProg f).links = s.links := rfl
@[simp] theorem State.modProg_tagCtr (f : ProgState → ProgState) (s : State) : (s.modProg f).tagCtr = s.tagCtr := rfl
@[simp] theorem State.modProg_forgs (f : ProgState → ProgState) (s : State) : (s.modProg f).forgs = s.forgs := rfl
@[simp] theorem State.modProg_cells (f : ProgState → ProgState) (s : State) : (s.modProg f).cells = s.cells := rfl
@[simp] theorem State.modProg_est (f : ProgState → ProgState) (s : State) : (s.modProg f).est = s.est := rfl
@[simp] theorem State.modProg_surv (f : ProgState → ProgState) (s : State) : (s.modProg f).surv = s.surv := rfl
@[simp] theorem State.modProg_learned (f : ProgState → ProgState) (s : State) : (s.modProg f).learned = s.learned := rfl
@[simp] theorem State.modProg_reg (f : ProgState → ProgState) (s : State) : (s.modProg f).reg = s.reg := rfl
@[simp] theorem State.modProg_disp (f : ProgState → ProgState) (s : State) : (s.modProg f).disp = s.disp := rfl
@[simp] theorem State.modProg_therm (f : ProgState → ProgState) (s : State) : (s.modProg f).therm = s.therm := rfl
@[simp] theorem State.modProg_guard (f : ProgState → ProgState) (s : State) : (s.modProg f).guard = s.guard := rfl
@[simp] theorem State.modProg_core (f : ProgState → ProgState) (s : State) : (s.modProg f).core = s.core := rfl
@[simp] theorem State.modProg_host (f : ProgState → ProgState) (s : State) : (s.modProg f).host = s.host := rfl
@[simp] theorem State.modProg_can (f : ProgState → ProgState) (s : State) : (s.modProg f).can = s.can := rfl
@[simp] theorem State.modProg_prog (f : ProgState → ProgState) (s : State) : (s.modProg f).prog = f s.prog := rfl
@[simp] theorem State.modProg_recorder (f : ProgState → ProgState) (s : State) : (s.modProg f).recorder = s.recorder := rfl
@[simp] theorem State.modProg_mem (f : ProgState → ProgState) (s : State) : (s.modProg f).mem = s.mem := rfl
@[simp] theorem State.modProg_boot (f : ProgState → ProgState) (s : State) : (s.modProg f).boot = s.boot := rfl
@[simp] theorem State.modProg_upd (f : ProgState → ProgState) (s : State) : (s.modProg f).upd = s.upd := rfl
@[simp] theorem State.modProg_bist (f : ProgState → ProgState) (s : State) : (s.modProg f).bist = s.bist := rfl
@[simp] theorem State.modProg_pwr (f : ProgState → ProgState) (s : State) : (s.modProg f).pwr = s.pwr := rfl
@[simp] theorem State.modProg_out (f : ProgState → ProgState) (s : State) : (s.modProg f).out = s.out := rfl
@[simp] theorem State.modProg_freeCtr (f : ProgState → ProgState) (s : State) : (s.modProg f).freeCtr = s.freeCtr := rfl
@[simp] theorem State.modProg_pending (f : ProgState → ProgState) (s : State) : (s.modProg f).pending = s.pending := rfl
@[simp] theorem State.modRecorder_time (f : RecState → RecState) (s : State) : (s.modRecorder f).time = s.time := rfl
@[simp] theorem State.modRecorder_comb (f : RecState → RecState) (s : State) : (s.modRecorder f).comb = s.comb := rfl
@[simp] theorem State.modRecorder_links (f : RecState → RecState) (s : State) : (s.modRecorder f).links = s.links := rfl
@[simp] theorem State.modRecorder_tagCtr (f : RecState → RecState) (s : State) : (s.modRecorder f).tagCtr = s.tagCtr := rfl
@[simp] theorem State.modRecorder_forgs (f : RecState → RecState) (s : State) : (s.modRecorder f).forgs = s.forgs := rfl
@[simp] theorem State.modRecorder_cells (f : RecState → RecState) (s : State) : (s.modRecorder f).cells = s.cells := rfl
@[simp] theorem State.modRecorder_est (f : RecState → RecState) (s : State) : (s.modRecorder f).est = s.est := rfl
@[simp] theorem State.modRecorder_surv (f : RecState → RecState) (s : State) : (s.modRecorder f).surv = s.surv := rfl
@[simp] theorem State.modRecorder_learned (f : RecState → RecState) (s : State) : (s.modRecorder f).learned = s.learned := rfl
@[simp] theorem State.modRecorder_reg (f : RecState → RecState) (s : State) : (s.modRecorder f).reg = s.reg := rfl
@[simp] theorem State.modRecorder_disp (f : RecState → RecState) (s : State) : (s.modRecorder f).disp = s.disp := rfl
@[simp] theorem State.modRecorder_therm (f : RecState → RecState) (s : State) : (s.modRecorder f).therm = s.therm := rfl
@[simp] theorem State.modRecorder_guard (f : RecState → RecState) (s : State) : (s.modRecorder f).guard = s.guard := rfl
@[simp] theorem State.modRecorder_core (f : RecState → RecState) (s : State) : (s.modRecorder f).core = s.core := rfl
@[simp] theorem State.modRecorder_host (f : RecState → RecState) (s : State) : (s.modRecorder f).host = s.host := rfl
@[simp] theorem State.modRecorder_can (f : RecState → RecState) (s : State) : (s.modRecorder f).can = s.can := rfl
@[simp] theorem State.modRecorder_prog (f : RecState → RecState) (s : State) : (s.modRecorder f).prog = s.prog := rfl
@[simp] theorem State.modRecorder_recorder (f : RecState → RecState) (s : State) : (s.modRecorder f).recorder = f s.recorder := rfl
@[simp] theorem State.modRecorder_mem (f : RecState → RecState) (s : State) : (s.modRecorder f).mem = s.mem := rfl
@[simp] theorem State.modRecorder_boot (f : RecState → RecState) (s : State) : (s.modRecorder f).boot = s.boot := rfl
@[simp] theorem State.modRecorder_upd (f : RecState → RecState) (s : State) : (s.modRecorder f).upd = s.upd := rfl
@[simp] theorem State.modRecorder_bist (f : RecState → RecState) (s : State) : (s.modRecorder f).bist = s.bist := rfl
@[simp] theorem State.modRecorder_pwr (f : RecState → RecState) (s : State) : (s.modRecorder f).pwr = s.pwr := rfl
@[simp] theorem State.modRecorder_out (f : RecState → RecState) (s : State) : (s.modRecorder f).out = s.out := rfl
@[simp] theorem State.modRecorder_freeCtr (f : RecState → RecState) (s : State) : (s.modRecorder f).freeCtr = s.freeCtr := rfl
@[simp] theorem State.modRecorder_pending (f : RecState → RecState) (s : State) : (s.modRecorder f).pending = s.pending := rfl
@[simp] theorem State.modMem_time (f : MemState → MemState) (s : State) : (s.modMem f).time = s.time := rfl
@[simp] theorem State.modMem_comb (f : MemState → MemState) (s : State) : (s.modMem f).comb = s.comb := rfl
@[simp] theorem State.modMem_links (f : MemState → MemState) (s : State) : (s.modMem f).links = s.links := rfl
@[simp] theorem State.modMem_tagCtr (f : MemState → MemState) (s : State) : (s.modMem f).tagCtr = s.tagCtr := rfl
@[simp] theorem State.modMem_forgs (f : MemState → MemState) (s : State) : (s.modMem f).forgs = s.forgs := rfl
@[simp] theorem State.modMem_cells (f : MemState → MemState) (s : State) : (s.modMem f).cells = s.cells := rfl
@[simp] theorem State.modMem_est (f : MemState → MemState) (s : State) : (s.modMem f).est = s.est := rfl
@[simp] theorem State.modMem_surv (f : MemState → MemState) (s : State) : (s.modMem f).surv = s.surv := rfl
@[simp] theorem State.modMem_learned (f : MemState → MemState) (s : State) : (s.modMem f).learned = s.learned := rfl
@[simp] theorem State.modMem_reg (f : MemState → MemState) (s : State) : (s.modMem f).reg = s.reg := rfl
@[simp] theorem State.modMem_disp (f : MemState → MemState) (s : State) : (s.modMem f).disp = s.disp := rfl
@[simp] theorem State.modMem_therm (f : MemState → MemState) (s : State) : (s.modMem f).therm = s.therm := rfl
@[simp] theorem State.modMem_guard (f : MemState → MemState) (s : State) : (s.modMem f).guard = s.guard := rfl
@[simp] theorem State.modMem_core (f : MemState → MemState) (s : State) : (s.modMem f).core = s.core := rfl
@[simp] theorem State.modMem_host (f : MemState → MemState) (s : State) : (s.modMem f).host = s.host := rfl
@[simp] theorem State.modMem_can (f : MemState → MemState) (s : State) : (s.modMem f).can = s.can := rfl
@[simp] theorem State.modMem_prog (f : MemState → MemState) (s : State) : (s.modMem f).prog = s.prog := rfl
@[simp] theorem State.modMem_recorder (f : MemState → MemState) (s : State) : (s.modMem f).recorder = s.recorder := rfl
@[simp] theorem State.modMem_mem (f : MemState → MemState) (s : State) : (s.modMem f).mem = f s.mem := rfl
@[simp] theorem State.modMem_boot (f : MemState → MemState) (s : State) : (s.modMem f).boot = s.boot := rfl
@[simp] theorem State.modMem_upd (f : MemState → MemState) (s : State) : (s.modMem f).upd = s.upd := rfl
@[simp] theorem State.modMem_bist (f : MemState → MemState) (s : State) : (s.modMem f).bist = s.bist := rfl
@[simp] theorem State.modMem_pwr (f : MemState → MemState) (s : State) : (s.modMem f).pwr = s.pwr := rfl
@[simp] theorem State.modMem_out (f : MemState → MemState) (s : State) : (s.modMem f).out = s.out := rfl
@[simp] theorem State.modMem_freeCtr (f : MemState → MemState) (s : State) : (s.modMem f).freeCtr = s.freeCtr := rfl
@[simp] theorem State.modMem_pending (f : MemState → MemState) (s : State) : (s.modMem f).pending = s.pending := rfl
@[simp] theorem State.modBoot_time (f : BootState → BootState) (s : State) : (s.modBoot f).time = s.time := rfl
@[simp] theorem State.modBoot_comb (f : BootState → BootState) (s : State) : (s.modBoot f).comb = s.comb := rfl
@[simp] theorem State.modBoot_links (f : BootState → BootState) (s : State) : (s.modBoot f).links = s.links := rfl
@[simp] theorem State.modBoot_tagCtr (f : BootState → BootState) (s : State) : (s.modBoot f).tagCtr = s.tagCtr := rfl
@[simp] theorem State.modBoot_forgs (f : BootState → BootState) (s : State) : (s.modBoot f).forgs = s.forgs := rfl
@[simp] theorem State.modBoot_cells (f : BootState → BootState) (s : State) : (s.modBoot f).cells = s.cells := rfl
@[simp] theorem State.modBoot_est (f : BootState → BootState) (s : State) : (s.modBoot f).est = s.est := rfl
@[simp] theorem State.modBoot_surv (f : BootState → BootState) (s : State) : (s.modBoot f).surv = s.surv := rfl
@[simp] theorem State.modBoot_learned (f : BootState → BootState) (s : State) : (s.modBoot f).learned = s.learned := rfl
@[simp] theorem State.modBoot_reg (f : BootState → BootState) (s : State) : (s.modBoot f).reg = s.reg := rfl
@[simp] theorem State.modBoot_disp (f : BootState → BootState) (s : State) : (s.modBoot f).disp = s.disp := rfl
@[simp] theorem State.modBoot_therm (f : BootState → BootState) (s : State) : (s.modBoot f).therm = s.therm := rfl
@[simp] theorem State.modBoot_guard (f : BootState → BootState) (s : State) : (s.modBoot f).guard = s.guard := rfl
@[simp] theorem State.modBoot_core (f : BootState → BootState) (s : State) : (s.modBoot f).core = s.core := rfl
@[simp] theorem State.modBoot_host (f : BootState → BootState) (s : State) : (s.modBoot f).host = s.host := rfl
@[simp] theorem State.modBoot_can (f : BootState → BootState) (s : State) : (s.modBoot f).can = s.can := rfl
@[simp] theorem State.modBoot_prog (f : BootState → BootState) (s : State) : (s.modBoot f).prog = s.prog := rfl
@[simp] theorem State.modBoot_recorder (f : BootState → BootState) (s : State) : (s.modBoot f).recorder = s.recorder := rfl
@[simp] theorem State.modBoot_mem (f : BootState → BootState) (s : State) : (s.modBoot f).mem = s.mem := rfl
@[simp] theorem State.modBoot_boot (f : BootState → BootState) (s : State) : (s.modBoot f).boot = f s.boot := rfl
@[simp] theorem State.modBoot_upd (f : BootState → BootState) (s : State) : (s.modBoot f).upd = s.upd := rfl
@[simp] theorem State.modBoot_bist (f : BootState → BootState) (s : State) : (s.modBoot f).bist = s.bist := rfl
@[simp] theorem State.modBoot_pwr (f : BootState → BootState) (s : State) : (s.modBoot f).pwr = s.pwr := rfl
@[simp] theorem State.modBoot_out (f : BootState → BootState) (s : State) : (s.modBoot f).out = s.out := rfl
@[simp] theorem State.modBoot_freeCtr (f : BootState → BootState) (s : State) : (s.modBoot f).freeCtr = s.freeCtr := rfl
@[simp] theorem State.modBoot_pending (f : BootState → BootState) (s : State) : (s.modBoot f).pending = s.pending := rfl
@[simp] theorem State.modUpd_time (f : UpdState → UpdState) (s : State) : (s.modUpd f).time = s.time := rfl
@[simp] theorem State.modUpd_comb (f : UpdState → UpdState) (s : State) : (s.modUpd f).comb = s.comb := rfl
@[simp] theorem State.modUpd_links (f : UpdState → UpdState) (s : State) : (s.modUpd f).links = s.links := rfl
@[simp] theorem State.modUpd_tagCtr (f : UpdState → UpdState) (s : State) : (s.modUpd f).tagCtr = s.tagCtr := rfl
@[simp] theorem State.modUpd_forgs (f : UpdState → UpdState) (s : State) : (s.modUpd f).forgs = s.forgs := rfl
@[simp] theorem State.modUpd_cells (f : UpdState → UpdState) (s : State) : (s.modUpd f).cells = s.cells := rfl
@[simp] theorem State.modUpd_est (f : UpdState → UpdState) (s : State) : (s.modUpd f).est = s.est := rfl
@[simp] theorem State.modUpd_surv (f : UpdState → UpdState) (s : State) : (s.modUpd f).surv = s.surv := rfl
@[simp] theorem State.modUpd_learned (f : UpdState → UpdState) (s : State) : (s.modUpd f).learned = s.learned := rfl
@[simp] theorem State.modUpd_reg (f : UpdState → UpdState) (s : State) : (s.modUpd f).reg = s.reg := rfl
@[simp] theorem State.modUpd_disp (f : UpdState → UpdState) (s : State) : (s.modUpd f).disp = s.disp := rfl
@[simp] theorem State.modUpd_therm (f : UpdState → UpdState) (s : State) : (s.modUpd f).therm = s.therm := rfl
@[simp] theorem State.modUpd_guard (f : UpdState → UpdState) (s : State) : (s.modUpd f).guard = s.guard := rfl
@[simp] theorem State.modUpd_core (f : UpdState → UpdState) (s : State) : (s.modUpd f).core = s.core := rfl
@[simp] theorem State.modUpd_host (f : UpdState → UpdState) (s : State) : (s.modUpd f).host = s.host := rfl
@[simp] theorem State.modUpd_can (f : UpdState → UpdState) (s : State) : (s.modUpd f).can = s.can := rfl
@[simp] theorem State.modUpd_prog (f : UpdState → UpdState) (s : State) : (s.modUpd f).prog = s.prog := rfl
@[simp] theorem State.modUpd_recorder (f : UpdState → UpdState) (s : State) : (s.modUpd f).recorder = s.recorder := rfl
@[simp] theorem State.modUpd_mem (f : UpdState → UpdState) (s : State) : (s.modUpd f).mem = s.mem := rfl
@[simp] theorem State.modUpd_boot (f : UpdState → UpdState) (s : State) : (s.modUpd f).boot = s.boot := rfl
@[simp] theorem State.modUpd_upd (f : UpdState → UpdState) (s : State) : (s.modUpd f).upd = f s.upd := rfl
@[simp] theorem State.modUpd_bist (f : UpdState → UpdState) (s : State) : (s.modUpd f).bist = s.bist := rfl
@[simp] theorem State.modUpd_pwr (f : UpdState → UpdState) (s : State) : (s.modUpd f).pwr = s.pwr := rfl
@[simp] theorem State.modUpd_out (f : UpdState → UpdState) (s : State) : (s.modUpd f).out = s.out := rfl
@[simp] theorem State.modUpd_freeCtr (f : UpdState → UpdState) (s : State) : (s.modUpd f).freeCtr = s.freeCtr := rfl
@[simp] theorem State.modUpd_pending (f : UpdState → UpdState) (s : State) : (s.modUpd f).pending = s.pending := rfl
@[simp] theorem State.modBist_time (f : BistState → BistState) (s : State) : (s.modBist f).time = s.time := rfl
@[simp] theorem State.modBist_comb (f : BistState → BistState) (s : State) : (s.modBist f).comb = s.comb := rfl
@[simp] theorem State.modBist_links (f : BistState → BistState) (s : State) : (s.modBist f).links = s.links := rfl
@[simp] theorem State.modBist_tagCtr (f : BistState → BistState) (s : State) : (s.modBist f).tagCtr = s.tagCtr := rfl
@[simp] theorem State.modBist_forgs (f : BistState → BistState) (s : State) : (s.modBist f).forgs = s.forgs := rfl
@[simp] theorem State.modBist_cells (f : BistState → BistState) (s : State) : (s.modBist f).cells = s.cells := rfl
@[simp] theorem State.modBist_est (f : BistState → BistState) (s : State) : (s.modBist f).est = s.est := rfl
@[simp] theorem State.modBist_surv (f : BistState → BistState) (s : State) : (s.modBist f).surv = s.surv := rfl
@[simp] theorem State.modBist_learned (f : BistState → BistState) (s : State) : (s.modBist f).learned = s.learned := rfl
@[simp] theorem State.modBist_reg (f : BistState → BistState) (s : State) : (s.modBist f).reg = s.reg := rfl
@[simp] theorem State.modBist_disp (f : BistState → BistState) (s : State) : (s.modBist f).disp = s.disp := rfl
@[simp] theorem State.modBist_therm (f : BistState → BistState) (s : State) : (s.modBist f).therm = s.therm := rfl
@[simp] theorem State.modBist_guard (f : BistState → BistState) (s : State) : (s.modBist f).guard = s.guard := rfl
@[simp] theorem State.modBist_core (f : BistState → BistState) (s : State) : (s.modBist f).core = s.core := rfl
@[simp] theorem State.modBist_host (f : BistState → BistState) (s : State) : (s.modBist f).host = s.host := rfl
@[simp] theorem State.modBist_can (f : BistState → BistState) (s : State) : (s.modBist f).can = s.can := rfl
@[simp] theorem State.modBist_prog (f : BistState → BistState) (s : State) : (s.modBist f).prog = s.prog := rfl
@[simp] theorem State.modBist_recorder (f : BistState → BistState) (s : State) : (s.modBist f).recorder = s.recorder := rfl
@[simp] theorem State.modBist_mem (f : BistState → BistState) (s : State) : (s.modBist f).mem = s.mem := rfl
@[simp] theorem State.modBist_boot (f : BistState → BistState) (s : State) : (s.modBist f).boot = s.boot := rfl
@[simp] theorem State.modBist_upd (f : BistState → BistState) (s : State) : (s.modBist f).upd = s.upd := rfl
@[simp] theorem State.modBist_bist (f : BistState → BistState) (s : State) : (s.modBist f).bist = f s.bist := rfl
@[simp] theorem State.modBist_pwr (f : BistState → BistState) (s : State) : (s.modBist f).pwr = s.pwr := rfl
@[simp] theorem State.modBist_out (f : BistState → BistState) (s : State) : (s.modBist f).out = s.out := rfl
@[simp] theorem State.modBist_freeCtr (f : BistState → BistState) (s : State) : (s.modBist f).freeCtr = s.freeCtr := rfl
@[simp] theorem State.modBist_pending (f : BistState → BistState) (s : State) : (s.modBist f).pending = s.pending := rfl
@[simp] theorem State.modPwr_time (f : PwrState → PwrState) (s : State) : (s.modPwr f).time = s.time := rfl
@[simp] theorem State.modPwr_comb (f : PwrState → PwrState) (s : State) : (s.modPwr f).comb = s.comb := rfl
@[simp] theorem State.modPwr_links (f : PwrState → PwrState) (s : State) : (s.modPwr f).links = s.links := rfl
@[simp] theorem State.modPwr_tagCtr (f : PwrState → PwrState) (s : State) : (s.modPwr f).tagCtr = s.tagCtr := rfl
@[simp] theorem State.modPwr_forgs (f : PwrState → PwrState) (s : State) : (s.modPwr f).forgs = s.forgs := rfl
@[simp] theorem State.modPwr_cells (f : PwrState → PwrState) (s : State) : (s.modPwr f).cells = s.cells := rfl
@[simp] theorem State.modPwr_est (f : PwrState → PwrState) (s : State) : (s.modPwr f).est = s.est := rfl
@[simp] theorem State.modPwr_surv (f : PwrState → PwrState) (s : State) : (s.modPwr f).surv = s.surv := rfl
@[simp] theorem State.modPwr_learned (f : PwrState → PwrState) (s : State) : (s.modPwr f).learned = s.learned := rfl
@[simp] theorem State.modPwr_reg (f : PwrState → PwrState) (s : State) : (s.modPwr f).reg = s.reg := rfl
@[simp] theorem State.modPwr_disp (f : PwrState → PwrState) (s : State) : (s.modPwr f).disp = s.disp := rfl
@[simp] theorem State.modPwr_therm (f : PwrState → PwrState) (s : State) : (s.modPwr f).therm = s.therm := rfl
@[simp] theorem State.modPwr_guard (f : PwrState → PwrState) (s : State) : (s.modPwr f).guard = s.guard := rfl
@[simp] theorem State.modPwr_core (f : PwrState → PwrState) (s : State) : (s.modPwr f).core = s.core := rfl
@[simp] theorem State.modPwr_host (f : PwrState → PwrState) (s : State) : (s.modPwr f).host = s.host := rfl
@[simp] theorem State.modPwr_can (f : PwrState → PwrState) (s : State) : (s.modPwr f).can = s.can := rfl
@[simp] theorem State.modPwr_prog (f : PwrState → PwrState) (s : State) : (s.modPwr f).prog = s.prog := rfl
@[simp] theorem State.modPwr_recorder (f : PwrState → PwrState) (s : State) : (s.modPwr f).recorder = s.recorder := rfl
@[simp] theorem State.modPwr_mem (f : PwrState → PwrState) (s : State) : (s.modPwr f).mem = s.mem := rfl
@[simp] theorem State.modPwr_boot (f : PwrState → PwrState) (s : State) : (s.modPwr f).boot = s.boot := rfl
@[simp] theorem State.modPwr_upd (f : PwrState → PwrState) (s : State) : (s.modPwr f).upd = s.upd := rfl
@[simp] theorem State.modPwr_bist (f : PwrState → PwrState) (s : State) : (s.modPwr f).bist = s.bist := rfl
@[simp] theorem State.modPwr_pwr (f : PwrState → PwrState) (s : State) : (s.modPwr f).pwr = f s.pwr := rfl
@[simp] theorem State.modPwr_out (f : PwrState → PwrState) (s : State) : (s.modPwr f).out = s.out := rfl
@[simp] theorem State.modPwr_freeCtr (f : PwrState → PwrState) (s : State) : (s.modPwr f).freeCtr = s.freeCtr := rfl
@[simp] theorem State.modPwr_pending (f : PwrState → PwrState) (s : State) : (s.modPwr f).pending = s.pending := rfl
@[simp] theorem State.modOut_time (f : List Output → List Output) (s : State) : (s.modOut f).time = s.time := rfl
@[simp] theorem State.modOut_comb (f : List Output → List Output) (s : State) : (s.modOut f).comb = s.comb := rfl
@[simp] theorem State.modOut_links (f : List Output → List Output) (s : State) : (s.modOut f).links = s.links := rfl
@[simp] theorem State.modOut_tagCtr (f : List Output → List Output) (s : State) : (s.modOut f).tagCtr = s.tagCtr := rfl
@[simp] theorem State.modOut_forgs (f : List Output → List Output) (s : State) : (s.modOut f).forgs = s.forgs := rfl
@[simp] theorem State.modOut_cells (f : List Output → List Output) (s : State) : (s.modOut f).cells = s.cells := rfl
@[simp] theorem State.modOut_est (f : List Output → List Output) (s : State) : (s.modOut f).est = s.est := rfl
@[simp] theorem State.modOut_surv (f : List Output → List Output) (s : State) : (s.modOut f).surv = s.surv := rfl
@[simp] theorem State.modOut_learned (f : List Output → List Output) (s : State) : (s.modOut f).learned = s.learned := rfl
@[simp] theorem State.modOut_reg (f : List Output → List Output) (s : State) : (s.modOut f).reg = s.reg := rfl
@[simp] theorem State.modOut_disp (f : List Output → List Output) (s : State) : (s.modOut f).disp = s.disp := rfl
@[simp] theorem State.modOut_therm (f : List Output → List Output) (s : State) : (s.modOut f).therm = s.therm := rfl
@[simp] theorem State.modOut_guard (f : List Output → List Output) (s : State) : (s.modOut f).guard = s.guard := rfl
@[simp] theorem State.modOut_core (f : List Output → List Output) (s : State) : (s.modOut f).core = s.core := rfl
@[simp] theorem State.modOut_host (f : List Output → List Output) (s : State) : (s.modOut f).host = s.host := rfl
@[simp] theorem State.modOut_can (f : List Output → List Output) (s : State) : (s.modOut f).can = s.can := rfl
@[simp] theorem State.modOut_prog (f : List Output → List Output) (s : State) : (s.modOut f).prog = s.prog := rfl
@[simp] theorem State.modOut_recorder (f : List Output → List Output) (s : State) : (s.modOut f).recorder = s.recorder := rfl
@[simp] theorem State.modOut_mem (f : List Output → List Output) (s : State) : (s.modOut f).mem = s.mem := rfl
@[simp] theorem State.modOut_boot (f : List Output → List Output) (s : State) : (s.modOut f).boot = s.boot := rfl
@[simp] theorem State.modOut_upd (f : List Output → List Output) (s : State) : (s.modOut f).upd = s.upd := rfl
@[simp] theorem State.modOut_bist (f : List Output → List Output) (s : State) : (s.modOut f).bist = s.bist := rfl
@[simp] theorem State.modOut_pwr (f : List Output → List Output) (s : State) : (s.modOut f).pwr = s.pwr := rfl
@[simp] theorem State.modOut_out (f : List Output → List Output) (s : State) : (s.modOut f).out = f s.out := rfl
@[simp] theorem State.modOut_freeCtr (f : List Output → List Output) (s : State) : (s.modOut f).freeCtr = s.freeCtr := rfl
@[simp] theorem State.modOut_pending (f : List Output → List Output) (s : State) : (s.modOut f).pending = s.pending := rfl
@[simp] theorem State.modFreeCtr_time (f : Nat → Nat) (s : State) : (s.modFreeCtr f).time = s.time := rfl
@[simp] theorem State.modFreeCtr_comb (f : Nat → Nat) (s : State) : (s.modFreeCtr f).comb = s.comb := rfl
@[simp] theorem State.modFreeCtr_links (f : Nat → Nat) (s : State) : (s.modFreeCtr f).links = s.links := rfl
@[simp] theorem State.modFreeCtr_tagCtr (f : Nat → Nat) (s : State) : (s.modFreeCtr f).tagCtr = s.tagCtr := rfl
@[simp] theorem State.modFreeCtr_forgs (f : Nat → Nat) (s : State) : (s.modFreeCtr f).forgs = s.forgs := rfl
@[simp] theorem State.modFreeCtr_cells (f : Nat → Nat) (s : State) : (s.modFreeCtr f).cells = s.cells := rfl
@[simp] theorem State.modFreeCtr_est (f : Nat → Nat) (s : State) : (s.modFreeCtr f).est = s.est := rfl
@[simp] theorem State.modFreeCtr_surv (f : Nat → Nat) (s : State) : (s.modFreeCtr f).surv = s.surv := rfl
@[simp] theorem State.modFreeCtr_learned (f : Nat → Nat) (s : State) : (s.modFreeCtr f).learned = s.learned := rfl
@[simp] theorem State.modFreeCtr_reg (f : Nat → Nat) (s : State) : (s.modFreeCtr f).reg = s.reg := rfl
@[simp] theorem State.modFreeCtr_disp (f : Nat → Nat) (s : State) : (s.modFreeCtr f).disp = s.disp := rfl
@[simp] theorem State.modFreeCtr_therm (f : Nat → Nat) (s : State) : (s.modFreeCtr f).therm = s.therm := rfl
@[simp] theorem State.modFreeCtr_guard (f : Nat → Nat) (s : State) : (s.modFreeCtr f).guard = s.guard := rfl
@[simp] theorem State.modFreeCtr_core (f : Nat → Nat) (s : State) : (s.modFreeCtr f).core = s.core := rfl
@[simp] theorem State.modFreeCtr_host (f : Nat → Nat) (s : State) : (s.modFreeCtr f).host = s.host := rfl
@[simp] theorem State.modFreeCtr_can (f : Nat → Nat) (s : State) : (s.modFreeCtr f).can = s.can := rfl
@[simp] theorem State.modFreeCtr_prog (f : Nat → Nat) (s : State) : (s.modFreeCtr f).prog = s.prog := rfl
@[simp] theorem State.modFreeCtr_recorder (f : Nat → Nat) (s : State) : (s.modFreeCtr f).recorder = s.recorder := rfl
@[simp] theorem State.modFreeCtr_mem (f : Nat → Nat) (s : State) : (s.modFreeCtr f).mem = s.mem := rfl
@[simp] theorem State.modFreeCtr_boot (f : Nat → Nat) (s : State) : (s.modFreeCtr f).boot = s.boot := rfl
@[simp] theorem State.modFreeCtr_upd (f : Nat → Nat) (s : State) : (s.modFreeCtr f).upd = s.upd := rfl
@[simp] theorem State.modFreeCtr_bist (f : Nat → Nat) (s : State) : (s.modFreeCtr f).bist = s.bist := rfl
@[simp] theorem State.modFreeCtr_pwr (f : Nat → Nat) (s : State) : (s.modFreeCtr f).pwr = s.pwr := rfl
@[simp] theorem State.modFreeCtr_out (f : Nat → Nat) (s : State) : (s.modFreeCtr f).out = s.out := rfl
@[simp] theorem State.modFreeCtr_freeCtr (f : Nat → Nat) (s : State) : (s.modFreeCtr f).freeCtr = f s.freeCtr := rfl
@[simp] theorem State.modFreeCtr_pending (f : Nat → Nat) (s : State) : (s.modFreeCtr f).pending = s.pending := rfl
@[simp] theorem State.modPending_time (f : List Instr → List Instr) (s : State) : (s.modPending f).time = s.time := rfl
@[simp] theorem State.modPending_comb (f : List Instr → List Instr) (s : State) : (s.modPending f).comb = s.comb := rfl
@[simp] theorem State.modPending_links (f : List Instr → List Instr) (s : State) : (s.modPending f).links = s.links := rfl
@[simp] theorem State.modPending_tagCtr (f : List Instr → List Instr) (s : State) : (s.modPending f).tagCtr = s.tagCtr := rfl
@[simp] theorem State.modPending_forgs (f : List Instr → List Instr) (s : State) : (s.modPending f).forgs = s.forgs := rfl
@[simp] theorem State.modPending_cells (f : List Instr → List Instr) (s : State) : (s.modPending f).cells = s.cells := rfl
@[simp] theorem State.modPending_est (f : List Instr → List Instr) (s : State) : (s.modPending f).est = s.est := rfl
@[simp] theorem State.modPending_surv (f : List Instr → List Instr) (s : State) : (s.modPending f).surv = s.surv := rfl
@[simp] theorem State.modPending_learned (f : List Instr → List Instr) (s : State) : (s.modPending f).learned = s.learned := rfl
@[simp] theorem State.modPending_reg (f : List Instr → List Instr) (s : State) : (s.modPending f).reg = s.reg := rfl
@[simp] theorem State.modPending_disp (f : List Instr → List Instr) (s : State) : (s.modPending f).disp = s.disp := rfl
@[simp] theorem State.modPending_therm (f : List Instr → List Instr) (s : State) : (s.modPending f).therm = s.therm := rfl
@[simp] theorem State.modPending_guard (f : List Instr → List Instr) (s : State) : (s.modPending f).guard = s.guard := rfl
@[simp] theorem State.modPending_core (f : List Instr → List Instr) (s : State) : (s.modPending f).core = s.core := rfl
@[simp] theorem State.modPending_host (f : List Instr → List Instr) (s : State) : (s.modPending f).host = s.host := rfl
@[simp] theorem State.modPending_can (f : List Instr → List Instr) (s : State) : (s.modPending f).can = s.can := rfl
@[simp] theorem State.modPending_prog (f : List Instr → List Instr) (s : State) : (s.modPending f).prog = s.prog := rfl
@[simp] theorem State.modPending_recorder (f : List Instr → List Instr) (s : State) : (s.modPending f).recorder = s.recorder := rfl
@[simp] theorem State.modPending_mem (f : List Instr → List Instr) (s : State) : (s.modPending f).mem = s.mem := rfl
@[simp] theorem State.modPending_boot (f : List Instr → List Instr) (s : State) : (s.modPending f).boot = s.boot := rfl
@[simp] theorem State.modPending_upd (f : List Instr → List Instr) (s : State) : (s.modPending f).upd = s.upd := rfl
@[simp] theorem State.modPending_bist (f : List Instr → List Instr) (s : State) : (s.modPending f).bist = s.bist := rfl
@[simp] theorem State.modPending_pwr (f : List Instr → List Instr) (s : State) : (s.modPending f).pwr = s.pwr := rfl
@[simp] theorem State.modPending_out (f : List Instr → List Instr) (s : State) : (s.modPending f).out = s.out := rfl
@[simp] theorem State.modPending_freeCtr (f : List Instr → List Instr) (s : State) : (s.modPending f).freeCtr = s.freeCtr := rfl
@[simp] theorem State.modPending_pending (f : List Instr → List Instr) (s : State) : (s.modPending f).pending = f s.pending := rfl

end Sys2Proof.Machine
end

