-- ==== Sys2Proof/Machine/DebugPort.lean ====
section
/-!
DEFINITION. DebugPort: the IEEE 1149.1 debug port (R594). The command table has no row of it: these are the operations a scan carries
out on the state, and what the port offers in each life-cycle state (log 42).
-/
namespace Sys2Proof.Machine

/-- Instructions the port provides in a life-cycle state (Table 19-1). -/
def tapOffers (l : LifeCycle) : List TapInstr := if l == .field then [.idcode, .bypass] else [.idcode, .bypass, .sample, .extest]

/-- IDCODE: version 0, part 0x2304, manufacturer field 0x559, and the one that ends it. -/
def idCode : Nat := 0 * 2 ^ 28 + 0x2304 * 2 ^ 12 + 0x559 * 2 + 1

/-- Signals of a numbered group of lands. -/
def landsOf (pre : String) (names : List String) (n : Nat) : List String := (List.range n).flatMap fun k => names.map fun x => pre ++ toString k ++ x

/-- Lands of the boundary-scan chain: every main-die land of Table 23-4 but the SGMII pairs, in the order of that table; none that the Guard die or the permit stage drives or reads alone. -/
def scanLands : List String :=
  landsOf "UWB" ["_SCK", "_MOSI", "_MISO", "_CS_N", "_IRQ", "_SYNC", "_RST_N"] 4 ++
  ["A", "B"].flatMap (fun p => ["_CLK", "_CS_N", "_RST_N", "_DQ0", "_DQ1", "_DQ2", "_DQ3", "_DQ4", "_DQ5", "_DQ6", "_DQ7", "_DQS"].map fun x => "OSPI" ++ p ++ x) ++
  ["MDC", "MDIO", "ETH_INT_N", "CANA_TX", "CANA_RX", "CANA_STB", "CANB_TX", "CANB_RX", "CANB_STB"] ++
  landsOf "SD_CLK" [""] 4 ++ landsOf "SD_D" [""] 20 ++ landsOf "PWM" ["_HA", "_LA", "_HB", "_LB"] 4 ++
  ["PFW_N", "PULSE_IN", "PPS_IN", "SYNC_IN"] ++ landsOf "CAP_IN" [""] 8 ++ ["PPS_OUT"] ++ landsOf "GPIO" [""] 16

/-- A scan has loaded an instruction; one that the life-cycle state does not offer selects BYPASS (log 42). -/
def tapLoad (i : TapInstr) (s : State) : State :=
  s.modBoot fun b => { b with tap := { b.tap with instr := if (tapOffers b.life).contains i then i else .bypass } }

/-- What the selected data register captures, first bit out first: 0 for BYPASS, the IDCODE from its lowest bit, the levels at the lands. -/
def tapCapture (levels : List Bool) (s : State) : List Bool :=
  match s.boot.tap.instr with
  | .bypass => [false]
  | .idcode => (List.range 32).map idCode.testBit
  | _ => (List.range scanLands.length).map fun k => levels.getD k false

/-- One clock of a shift: the bit that leaves by DBG_TDO, and the register with the bit of DBG_TDI behind its last. -/
def tapShift (tdi : Bool) (reg : List Bool) : Bool × List Bool := (reg.headD false, reg.drop 1 ++ [tdi])

/-- The end of a scan of the boundary register: what was shifted in waits for EXTEST, or is driven. -/
def tapUpdate (reg : List Bool) (s : State) : State :=
  match s.boot.tap.instr with
  | .sample | .extest => s.modBoot fun b => { b with tap := { b.tap with drive := reg.take scanLands.length } }
  | _ => s

/-- Level that EXTEST drives at a land; none while the functions of the module drive it. -/
def tapDrives (s : State) (land : String) : Option Bool :=
  if s.boot.tap.instr == .extest then (scanLands.idxOf? land).bind fun k => s.boot.tap.drive[k]? else none

end Sys2Proof.Machine
end

