-- ==== Sys2Proof/Laws/Frame.lean ====
section
/-!
SUPPORT. Frame: what the shared operations leave unchanged. A lemma keepsBut_op says that an operation changes nothing outside the parts it
names, in the form that peels the operation off a chain of operations.
-/

set_option linter.all false

namespace Sys2Proof.Machine

/-! ### Ops -/

theorem keepsBut_refl (ps : List Piece) (s : State) : keepsBut ps s s := by
  intro p _; cases p <;> rfl

theorem keepsBut_trans {ps : List Piece} {s t u : State} (h1 : keepsBut ps s t) (h2 : keepsBut ps t u) : keepsBut ps s u := by
  intro p hp
  have a := h1 p hp
  have b := h2 p hp
  cases p <;> exact b.trans a

theorem keepsBut_symm {ps : List Piece} {s t : State} (h : keepsBut ps s t) : keepsBut ps t s := by
  intro p hp
  have a := h p hp
  cases p <;> exact a.symm

theorem keepsBut_mono {ps qs : List Piece} {s t : State} (h : keepsBut ps s t) (hs : ps ⊆ qs) : keepsBut qs s t :=
  fun p hp => h p fun hq => hp (hs hq)

/-- An operation that keeps all but some parts is peeled off a chain. -/
theorem keepsBut_peel {fp ps : List Piece} {r s t : State} (h : keepsBut fp s t) (hs : fp ⊆ ps) : keepsBut ps r t ↔ keepsBut ps r s :=
  ⟨fun k => keepsBut_trans k (keepsBut_symm (keepsBut_mono h hs)), fun k => keepsBut_trans k (keepsBut_mono h hs)⟩

@[simp ↓] theorem keepsBut_self (ps : List Piece) (s : State) : keepsBut ps s s ↔ True := iff_true_intro (keepsBut_refl ps s)

@[simp ↓] theorem keepsBut_ite (ps : List Piece) (r s t : State) (c : Prop) [Decidable c] :
    keepsBut ps r (if c then s else t) ↔ (c → keepsBut ps r s) ∧ (¬c → keepsBut ps r t) := by
  split <;> simp [*]

theorem keepsBut_foldl {α : Type} {ps : List Piece} (f : State → α → State) (hf : ∀ s a, keepsBut ps s (f s a)) (l : List α) (s : State) :
    keepsBut ps s (l.foldl f s) := by
  induction l generalizing s with
  | nil => exact keepsBut_refl ps s
  | cons a l ih => exact keepsBut_trans (hf s a) (ih (f s a))

theorem keepsBut_forEach {α : Type} {ps : List Piece} (l : List α) (f : α → State → State) (hf : ∀ a s, keepsBut ps s (f a s)) (s : State) :
    keepsBut ps s (forEach l f s) := keepsBut_foldl _ (fun s a => hf a s) l s

theorem keepsBut_forEach_of {α : Type} {ps : List Piece} {r : State} {l : List α} {f : α → State → State} {s : State}
    (hf : ∀ a s, keepsBut ps s (f a s)) (h : keepsBut ps r s) : keepsBut ps r (forEach l f s) :=
  keepsBut_trans h (keepsBut_forEach l f hf s)

theorem keepsBut_foldl_of {α : Type} {ps : List Piece} {r : State} {l : List α} {f : State → α → State} {s : State}
    (hf : ∀ s a, keepsBut ps s (f s a)) (h : keepsBut ps r s) : keepsBut ps r (l.foldl f s) :=
  keepsBut_trans h (keepsBut_foldl f hf l s)

theorem keepsBut_ite_of {ps : List Piece} {r s t : State} {c : Prop} [Decidable c] (h1 : keepsBut ps r s) (h2 : keepsBut ps r t) :
    keepsBut ps r (if c then s else t) := by
  split <;> assumption

theorem keepsBut_ite_fst_of {β : Type} {ps : List Piece} {r : State} {x y : State × β} {c : Prop} [Decidable c] (h1 : keepsBut ps r x.1)
    (h2 : keepsBut ps r y.1) : keepsBut ps r (if c then x else y).1 := by
  split <;> assumption

theorem keepsBut_ite_fst_fst_of {β γ : Type} {ps : List Piece} {r : State} {x y : (State × β) × γ} {c : Prop} [Decidable c] (h1 : keepsBut ps r x.1.1)
    (h2 : keepsBut ps r y.1.1) : keepsBut ps r (if c then x else y).1.1 := by
  split <;> assumption

theorem keepsBut_foldl_fst_of {α β : Type} {ps : List Piece} {r : State} {l : List α} {f : State × β → α → State × β} {x : State × β}
    (hf : ∀ y a, keepsBut ps y.1 (f y a).1) (h : keepsBut ps r x.1) : keepsBut ps r (l.foldl f x).1 := by
  induction l generalizing x with
  | nil => exact h
  | cons a l ih => exact ih (keepsBut_trans h (hf x a))

@[simp ↓] theorem keepsBut_accept {ps : List Piece} (h : [] ⊆ ps) (r s : State) : keepsBut ps r (accept s).1 ↔ keepsBut ps r s := Iff.rfl
@[simp ↓] theorem keepsBut_answer {ps : List Piece} (h : [] ⊆ ps) (r : State) (a b : Nat) (s : State) : keepsBut ps r (answer a b s).1 ↔ keepsBut ps r s := Iff.rfl
@[simp ↓] theorem keepsBut_opOk {ps : List Piece} (h : [] ⊆ ps) (r s : State) (bs : List Byte) : keepsBut ps r (opOk s bs).1 ↔ keepsBut ps r s := Iff.rfl
@[simp ↓] theorem keepsBut_opFail {ps : List Piece} (h : [] ⊆ ps) (r : State) (a b : Nat) (s : State) : keepsBut ps r (opFail a b s).1 ↔ keepsBut ps r s := Iff.rfl

/-- A meaning answers a next state with a property. -/
def answers (o : Host.Outcome State Fault Refusal) (P : State → Prop) : Prop := ∃ t, o = .next t ∧ P t

theorem answers_next {P : State → Prop} {t : State} (h : P t) : answers (.next t) P := ⟨t, rfl, h⟩

theorem answers_ite {P : State → Prop} {c : Prop} [Decidable c] {x y : Host.Outcome State Fault Refusal} (h1 : answers x P) (h2 : answers y P) :
    answers (if c then x else y) P := by
  split <;> assumption

theorem answers_mono {P Q : State → Prop} {o : Host.Outcome State Fault Refusal} (h : answers o P) (hpq : ∀ t, P t → Q t) : answers o Q :=
  h.elim fun t ht => ⟨t, ht.1, hpq t ht.2⟩


@[simp ↓] theorem keepsBut_modTime {ps : List Piece} (h : Piece.time ∈ ps) (r s : State) (f : TimeState → TimeState) :
    keepsBut ps r (s.modTime f) ↔ keepsBut ps r s :=
  keepsBut_peel (fp := [.time]) (by intro p hp; cases p <;> first | rfl | exact absurd (List.mem_singleton.2 rfl) hp) (List.cons_subset.2 ⟨h, List.nil_subset _⟩)
@[simp ↓] theorem keepsBut_modComb {ps : List Piece} (h : Piece.comb ∈ ps) (r s : State) (f : CombState → CombState) :
    keepsBut ps r (s.modComb f) ↔ keepsBut ps r s :=
  keepsBut_peel (fp := [.comb]) (by intro p hp; cases p <;> first | rfl | exact absurd (List.mem_singleton.2 rfl) hp) (List.cons_subset.2 ⟨h, List.nil_subset _⟩)
@[simp ↓] theorem keepsBut_modLinks {ps : List Piece} (h : Piece.links ∈ ps) (r s : State) (f : List LinkStr → List LinkStr) :
    keepsBut ps r (s.modLinks f) ↔ keepsBut ps r s :=
  keepsBut_peel (fp := [.links]) (by intro p hp; cases p <;> first | rfl | exact absurd (List.mem_singleton.2 rfl) hp) (List.cons_subset.2 ⟨h, List.nil_subset _⟩)
@[simp ↓] theorem keepsBut_modTagCtr {ps : List Piece} (h : Piece.tagCtr ∈ ps) (r s : State) (f : Nat → Nat) :
    keepsBut ps r (s.modTagCtr f) ↔ keepsBut ps r s :=
  keepsBut_peel (fp := [.tagCtr]) (by intro p hp; cases p <;> first | rfl | exact absurd (List.mem_singleton.2 rfl) hp) (List.cons_subset.2 ⟨h, List.nil_subset _⟩)
@[simp ↓] theorem keepsBut_modForgs {ps : List Piece} (h : Piece.forgs ∈ ps) (r s : State) (f : List Forager → List Forager) :
    keepsBut ps r (s.modForgs f) ↔ keepsBut ps r s :=
  keepsBut_peel (fp := [.forgs]) (by intro p hp; cases p <;> first | rfl | exact absurd (List.mem_singleton.2 rfl) hp) (List.cons_subset.2 ⟨h, List.nil_subset _⟩)
@[simp ↓] theorem keepsBut_modCells {ps : List Piece} (h : Piece.cells ∈ ps) (r s : State) (f : List Cell → List Cell) :
    keepsBut ps r (s.modCells f) ↔ keepsBut ps r s :=
  keepsBut_peel (fp := [.cells]) (by intro p hp; cases p <;> first | rfl | exact absurd (List.mem_singleton.2 rfl) hp) (List.cons_subset.2 ⟨h, List.nil_subset _⟩)
@[simp ↓] theorem keepsBut_modEst {ps : List Piece} (h : Piece.est ∈ ps) (r s : State) (f : List EstStr → List EstStr) :
    keepsBut ps r (s.modEst f) ↔ keepsBut ps r s :=
  keepsBut_peel (fp := [.est]) (by intro p hp; cases p <;> first | rfl | exact absurd (List.mem_singleton.2 rfl) hp) (List.cons_subset.2 ⟨h, List.nil_subset _⟩)
@[simp ↓] theorem keepsBut_modSurv {ps : List Piece} (h : Piece.surv ∈ ps) (r s : State) (f : SurvState → SurvState) :
    keepsBut ps r (s.modSurv f) ↔ keepsBut ps r s :=
  keepsBut_peel (fp := [.surv]) (by intro p hp; cases p <;> first | rfl | exact absurd (List.mem_singleton.2 rfl) hp) (List.cons_subset.2 ⟨h, List.nil_subset _⟩)
@[simp ↓] theorem keepsBut_modLearned {ps : List Piece} (h : Piece.learned ∈ ps) (r s : State) (f : List (Pair LearnedRec) → List (Pair LearnedRec)) :
    keepsBut ps r (s.modLearned f) ↔ keepsBut ps r s :=
  keepsBut_peel (fp := [.learned]) (by intro p hp; cases p <;> first | rfl | exact absurd (List.mem_singleton.2 rfl) hp) (List.cons_subset.2 ⟨h, List.nil_subset _⟩)
@[simp ↓] theorem keepsBut_modReg {ps : List Piece} (h : Piece.reg ∈ ps) (r s : State) (f : RegState → RegState) :
    keepsBut ps r (s.modReg f) ↔ keepsBut ps r s :=
  keepsBut_peel (fp := [.reg]) (by intro p hp; cases p <;> first | rfl | exact absurd (List.mem_singleton.2 rfl) hp) (List.cons_subset.2 ⟨h, List.nil_subset _⟩)
@[simp ↓] theorem keepsBut_modDisp {ps : List Piece} (h : Piece.disp ∈ ps) (r s : State) (f : DispState → DispState) :
    keepsBut ps r (s.modDisp f) ↔ keepsBut ps r s :=
  keepsBut_peel (fp := [.disp]) (by intro p hp; cases p <;> first | rfl | exact absurd (List.mem_singleton.2 rfl) hp) (List.cons_subset.2 ⟨h, List.nil_subset _⟩)
@[simp ↓] theorem keepsBut_modTherm {ps : List Piece} (h : Piece.therm ∈ ps) (r s : State) (f : ThermState → ThermState) :
    keepsBut ps r (s.modTherm f) ↔ keepsBut ps r s :=
  keepsBut_peel (fp := [.therm]) (by intro p hp; cases p <;> first | rfl | exact absurd (List.mem_singleton.2 rfl) hp) (List.cons_subset.2 ⟨h, List.nil_subset _⟩)
@[simp ↓] theorem keepsBut_modGuard {ps : List Piece} (h : Piece.guard ∈ ps) (r s : State) (f : Guard → Guard) :
    keepsBut ps r (s.modGuard f) ↔ keepsBut ps r s :=
  keepsBut_peel (fp := [.guard]) (by intro p hp; cases p <;> first | rfl | exact absurd (List.mem_singleton.2 rfl) hp) (List.cons_subset.2 ⟨h, List.nil_subset _⟩)
@[simp ↓] theorem keepsBut_modCore {ps : List Piece} (h : Piece.core ∈ ps) (r s : State) (f : SafeCore → SafeCore) :
    keepsBut ps r (s.modCore f) ↔ keepsBut ps r s :=
  keepsBut_peel (fp := [.core]) (by intro p hp; cases p <;> first | rfl | exact absurd (List.mem_singleton.2 rfl) hp) (List.cons_subset.2 ⟨h, List.nil_subset _⟩)
@[simp ↓] theorem keepsBut_modHost {ps : List Piece} (h : Piece.host ∈ ps) (r s : State) (f : HostState → HostState) :
    keepsBut ps r (s.modHost f) ↔ keepsBut ps r s :=
  keepsBut_peel (fp := [.host]) (by intro p hp; cases p <;> first | rfl | exact absurd (List.mem_singleton.2 rfl) hp) (List.cons_subset.2 ⟨h, List.nil_subset _⟩)
@[simp ↓] theorem keepsBut_modCan {ps : List Piece} (h : Piece.can ∈ ps) (r s : State) (f : CanState → CanState) :
    keepsBut ps r (s.modCan f) ↔ keepsBut ps r s :=
  keepsBut_peel (fp := [.can]) (by intro p hp; cases p <;> first | rfl | exact absurd (List.mem_singleton.2 rfl) hp) (List.cons_subset.2 ⟨h, List.nil_subset _⟩)
@[simp ↓] theorem keepsBut_modProg {ps : List Piece} (h : Piece.prog ∈ ps) (r s : State) (f : ProgState → ProgState) :
    keepsBut ps r (s.modProg f) ↔ keepsBut ps r s :=
  keepsBut_peel (fp := [.prog]) (by intro p hp; cases p <;> first | rfl | exact absurd (List.mem_singleton.2 rfl) hp) (List.cons_subset.2 ⟨h, List.nil_subset _⟩)
@[simp ↓] theorem keepsBut_modRecorder {ps : List Piece} (h : Piece.recorder ∈ ps) (r s : State) (f : RecState → RecState) :
    keepsBut ps r (s.modRecorder f) ↔ keepsBut ps r s :=
  keepsBut_peel (fp := [.recorder]) (by intro p hp; cases p <;> first | rfl | exact absurd (List.mem_singleton.2 rfl) hp) (List.cons_subset.2 ⟨h, List.nil_subset _⟩)
@[simp ↓] theorem keepsBut_modMem {ps : List Piece} (h : Piece.mem ∈ ps) (r s : State) (f : MemState → MemState) :
    keepsBut ps r (s.modMem f) ↔ keepsBut ps r s :=
  keepsBut_peel (fp := [.mem]) (by intro p hp; cases p <;> first | rfl | exact absurd (List.mem_singleton.2 rfl) hp) (List.cons_subset.2 ⟨h, List.nil_subset _⟩)
@[simp ↓] theorem keepsBut_modBoot {ps : List Piece} (h : Piece.boot ∈ ps) (r s : State) (f : BootState → BootState) :
    keepsBut ps r (s.modBoot f) ↔ keepsBut ps r s :=
  keepsBut_peel (fp := [.boot]) (by intro p hp; cases p <;> first | rfl | exact absurd (List.mem_singleton.2 rfl) hp) (List.cons_subset.2 ⟨h, List.nil_subset _⟩)
@[simp ↓] theorem keepsBut_modUpd {ps : List Piece} (h : Piece.upd ∈ ps) (r s : State) (f : UpdState → UpdState) :
    keepsBut ps r (s.modUpd f) ↔ keepsBut ps r s :=
  keepsBut_peel (fp := [.upd]) (by intro p hp; cases p <;> first | rfl | exact absurd (List.mem_singleton.2 rfl) hp) (List.cons_subset.2 ⟨h, List.nil_subset _⟩)
@[simp ↓] theorem keepsBut_modBist {ps : List Piece} (h : Piece.bist ∈ ps) (r s : State) (f : BistState → BistState) :
    keepsBut ps r (s.modBist f) ↔ keepsBut ps r s :=
  keepsBut_peel (fp := [.bist]) (by intro p hp; cases p <;> first | rfl | exact absurd (List.mem_singleton.2 rfl) hp) (List.cons_subset.2 ⟨h, List.nil_subset _⟩)
@[simp ↓] theorem keepsBut_modPwr {ps : List Piece} (h : Piece.pwr ∈ ps) (r s : State) (f : PwrState → PwrState) :
    keepsBut ps r (s.modPwr f) ↔ keepsBut ps r s :=
  keepsBut_peel (fp := [.pwr]) (by intro p hp; cases p <;> first | rfl | exact absurd (List.mem_singleton.2 rfl) hp) (List.cons_subset.2 ⟨h, List.nil_subset _⟩)
@[simp ↓] theorem keepsBut_modOut {ps : List Piece} (h : Piece.out ∈ ps) (r s : State) (f : List Output → List Output) :
    keepsBut ps r (s.modOut f) ↔ keepsBut ps r s :=
  keepsBut_peel (fp := [.out]) (by intro p hp; cases p <;> first | rfl | exact absurd (List.mem_singleton.2 rfl) hp) (List.cons_subset.2 ⟨h, List.nil_subset _⟩)
@[simp ↓] theorem keepsBut_modFreeCtr {ps : List Piece} (h : Piece.freeCtr ∈ ps) (r s : State) (f : Nat → Nat) :
    keepsBut ps r (s.modFreeCtr f) ↔ keepsBut ps r s :=
  keepsBut_peel (fp := [.freeCtr]) (by intro p hp; cases p <;> first | rfl | exact absurd (List.mem_singleton.2 rfl) hp) (List.cons_subset.2 ⟨h, List.nil_subset _⟩)
@[simp ↓] theorem keepsBut_modPending {ps : List Piece} (h : Piece.pending ∈ ps) (r s : State) (f : List Instr → List Instr) :
    keepsBut ps r (s.modPending f) ↔ keepsBut ps r s :=
  keepsBut_peel (fp := [.pending]) (by intro p hp; cases p <;> first | rfl | exact absurd (List.mem_singleton.2 rfl) hp) (List.cons_subset.2 ⟨h, List.nil_subset _⟩)


@[simp ↓] theorem keepsBut_updLink {ps : List Piece} (h : [Piece.links] ⊆ ps) (r : State) (n : Nat) (f : LinkStr → LinkStr) (s : State) :
    keepsBut ps r (State.updLink n f s) ↔ keepsBut ps r s :=
  keepsBut_peel (fp := [.links]) (by
    unfold State.updLink
    repeat' first
      | with_reducible exact keepsBut_refl _ _
      | with_reducible refine keepsBut_forEach_of (fun _ _ => ?_) ?_
      | with_reducible refine keepsBut_foldl_of (fun _ _ => ?_) ?_
      | with_reducible refine ⟨fun _ => ?_, fun _ => ?_⟩
      | simp +zetaHave (disch := decide) only [↓keepsBut_modLinks, ↓keepsBut_self, ↓keepsBut_ite, implies_true, and_self, and_true, true_and]
      | with_reducible intro _
      | split) h

@[simp ↓] theorem keepsBut_updForg {ps : List Piece} (h : [Piece.forgs] ⊆ ps) (r : State) (j : Nat) (f : Forager → Forager) (s : State) :
    keepsBut ps r (State.updForg j f s) ↔ keepsBut ps r s :=
  keepsBut_peel (fp := [.forgs]) (by
    unfold State.updForg
    repeat' first
      | with_reducible exact keepsBut_refl _ _
      | with_reducible refine keepsBut_forEach_of (fun _ _ => ?_) ?_
      | with_reducible refine keepsBut_foldl_of (fun _ _ => ?_) ?_
      | with_reducible refine ⟨fun _ => ?_, fun _ => ?_⟩
      | simp +zetaHave (disch := decide) only [↓keepsBut_modForgs, ↓keepsBut_self, ↓keepsBut_ite, implies_true, and_self, and_true, true_and]
      | with_reducible intro _
      | split) h

@[simp ↓] theorem keepsBut_updCell {ps : List Piece} (h : [Piece.cells] ⊆ ps) (r : State) (c : Nat) (f : Cell → Cell) (s : State) :
    keepsBut ps r (State.updCell c f s) ↔ keepsBut ps r s :=
  keepsBut_peel (fp := [.cells]) (by
    unfold State.updCell
    repeat' first
      | with_reducible exact keepsBut_refl _ _
      | with_reducible refine keepsBut_forEach_of (fun _ _ => ?_) ?_
      | with_reducible refine keepsBut_foldl_of (fun _ _ => ?_) ?_
      | with_reducible refine ⟨fun _ => ?_, fun _ => ?_⟩
      | simp +zetaHave (disch := decide) only [↓keepsBut_modCells, ↓keepsBut_self, ↓keepsBut_ite, implies_true, and_self, and_true, true_and]
      | with_reducible intro _
      | split) h

@[simp ↓] theorem keepsBut_updEst {ps : List Piece} (h : [Piece.est] ⊆ ps) (r : State) (n : Nat) (f : EstStr → EstStr) (s : State) :
    keepsBut ps r (State.updEst n f s) ↔ keepsBut ps r s :=
  keepsBut_peel (fp := [.est]) (by
    unfold State.updEst
    repeat' first
      | with_reducible exact keepsBut_refl _ _
      | with_reducible refine keepsBut_forEach_of (fun _ _ => ?_) ?_
      | with_reducible refine keepsBut_foldl_of (fun _ _ => ?_) ?_
      | with_reducible refine ⟨fun _ => ?_, fun _ => ?_⟩
      | simp +zetaHave (disch := decide) only [↓keepsBut_modEst, ↓keepsBut_self, ↓keepsBut_ite, implies_true, and_self, and_true, true_and]
      | with_reducible intro _
      | split) h

@[simp ↓] theorem keepsBut_updLoop {ps : List Piece} (h : [Piece.reg] ⊆ ps) (r : State) (n : Nat) (f : Loop → Loop) (s : State) :
    keepsBut ps r (State.updLoop n f s) ↔ keepsBut ps r s :=
  keepsBut_peel (fp := [.reg]) (by
    unfold State.updLoop
    repeat' first
      | with_reducible exact keepsBut_refl _ _
      | with_reducible refine keepsBut_forEach_of (fun _ _ => ?_) ?_
      | with_reducible refine keepsBut_foldl_of (fun _ _ => ?_) ?_
      | with_reducible refine ⟨fun _ => ?_, fun _ => ?_⟩
      | simp +zetaHave (disch := decide) only [↓keepsBut_modReg, ↓keepsBut_self, ↓keepsBut_ite, implies_true, and_self, and_true, true_and]
      | with_reducible intro _
      | split) h

@[simp ↓] theorem keepsBut_updLane {ps : List Piece} (h : [Piece.reg] ⊆ ps) (r : State) (l : Nat) (f : Lane → Lane) (s : State) :
    keepsBut ps r (State.updLane l f s) ↔ keepsBut ps r s :=
  keepsBut_peel (fp := [.reg]) (by
    unfold State.updLane
    repeat' first
      | with_reducible exact keepsBut_refl _ _
      | with_reducible refine keepsBut_forEach_of (fun _ _ => ?_) ?_
      | with_reducible refine keepsBut_foldl_of (fun _ _ => ?_) ?_
      | with_reducible refine ⟨fun _ => ?_, fun _ => ?_⟩
      | simp +zetaHave (disch := decide) only [↓keepsBut_modReg, ↓keepsBut_self, ↓keepsBut_ite, implies_true, and_self, and_true, true_and]
      | with_reducible intro _
      | split) h

@[simp ↓] theorem keepsBut_updDisp {ps : List Piece} (h : [Piece.disp] ⊆ ps) (r : State) (n : Nat) (f : DispStr → DispStr) (s : State) :
    keepsBut ps r (State.updDisp n f s) ↔ keepsBut ps r s :=
  keepsBut_peel (fp := [.disp]) (by
    unfold State.updDisp
    repeat' first
      | with_reducible exact keepsBut_refl _ _
      | with_reducible refine keepsBut_forEach_of (fun _ _ => ?_) ?_
      | with_reducible refine keepsBut_foldl_of (fun _ _ => ?_) ?_
      | with_reducible refine ⟨fun _ => ?_, fun _ => ?_⟩
      | simp +zetaHave (disch := decide) only [↓keepsBut_modDisp, ↓keepsBut_self, ↓keepsBut_ite, implies_true, and_self, and_true, true_and]
      | with_reducible intro _
      | split) h

@[simp ↓] theorem keepsBut_updTherm {ps : List Piece} (h : [Piece.therm] ⊆ ps) (r : State) (n : Nat) (f : ThermStr → ThermStr) (s : State) :
    keepsBut ps r (State.updTherm n f s) ↔ keepsBut ps r s :=
  keepsBut_peel (fp := [.therm]) (by
    unfold State.updTherm
    repeat' first
      | with_reducible exact keepsBut_refl _ _
      | with_reducible refine keepsBut_forEach_of (fun _ _ => ?_) ?_
      | with_reducible refine keepsBut_foldl_of (fun _ _ => ?_) ?_
      | with_reducible refine ⟨fun _ => ?_, fun _ => ?_⟩
      | simp +zetaHave (disch := decide) only [↓keepsBut_modTherm, ↓keepsBut_self, ↓keepsBut_ite, implies_true, and_self, and_true, true_and]
      | with_reducible intro _
      | split) h

@[simp ↓] theorem keepsBut_send {ps : List Piece} (h : [Piece.out] ⊆ ps) (r : State) (o : Output) (s : State) :
    keepsBut ps r (State.send o s) ↔ keepsBut ps r s :=
  keepsBut_peel (fp := [.out]) (by
    unfold State.send
    repeat' first
      | with_reducible exact keepsBut_refl _ _
      | with_reducible refine keepsBut_forEach_of (fun _ _ => ?_) ?_
      | with_reducible refine keepsBut_foldl_of (fun _ _ => ?_) ?_
      | with_reducible refine ⟨fun _ => ?_, fun _ => ?_⟩
      | simp +zetaHave (disch := decide) only [↓keepsBut_modOut, ↓keepsBut_self, ↓keepsBut_ite, implies_true, and_self, and_true, true_and]
      | with_reducible intro _
      | split) h

@[simp ↓] theorem keepsBut_draw {ps : List Piece} (h : [Piece.freeCtr] ⊆ ps) (r : State) (s : State) :
    keepsBut ps r (State.draw s).2 ↔ keepsBut ps r s :=
  keepsBut_peel (fp := [.freeCtr]) (by
    unfold State.draw
    repeat' first
      | with_reducible exact keepsBut_refl _ _
      | with_reducible refine keepsBut_forEach_of (fun _ _ => ?_) ?_
      | with_reducible refine keepsBut_foldl_of (fun _ _ => ?_) ?_
      | with_reducible refine ⟨fun _ => ?_, fun _ => ?_⟩
      | simp +zetaHave (disch := decide) only [↓keepsBut_modFreeCtr, ↓keepsBut_self, ↓keepsBut_ite, implies_true, and_self, and_true, true_and]
      | with_reducible intro _
      | split) h

@[simp ↓] theorem keepsBut_because {ps : List Piece} (h : [Piece.recorder] ⊆ ps) (r : State) (p : Plant) (o : Owner) (s : State) :
    keepsBut ps r (State.because p o s) ↔ keepsBut ps r s :=
  keepsBut_peel (fp := [.recorder]) (by
    unfold State.because
    repeat' first
      | with_reducible exact keepsBut_refl _ _
      | with_reducible refine keepsBut_forEach_of (fun _ _ => ?_) ?_
      | with_reducible refine keepsBut_foldl_of (fun _ _ => ?_) ?_
      | with_reducible refine ⟨fun _ => ?_, fun _ => ?_⟩
      | simp +zetaHave (disch := decide) only [↓keepsBut_modRecorder, ↓keepsBut_self, ↓keepsBut_ite, implies_true, and_self, and_true, true_and]
      | with_reducible intro _
      | split) h

@[simp ↓] theorem keepsBut_at_ {ps : List Piece} (h : [Piece.time] ⊆ ps) (r : State) (t : Nat) (s : State) :
    keepsBut ps r (State.at_ t s) ↔ keepsBut ps r s :=
  keepsBut_peel (fp := [.time]) (by
    unfold State.at_
    repeat' first
      | with_reducible exact keepsBut_refl _ _
      | with_reducible refine keepsBut_forEach_of (fun _ _ => ?_) ?_
      | with_reducible refine keepsBut_foldl_of (fun _ _ => ?_) ?_
      | with_reducible refine ⟨fun _ => ?_, fun _ => ?_⟩
      | simp +zetaHave (disch := decide) only [↓keepsBut_modTime, ↓keepsBut_self, ↓keepsBut_ite, implies_true, and_self, and_true, true_and]
      | with_reducible intro _
      | split) h

@[simp ↓] theorem keepsBut_workDone {ps : List Piece} (h : [Piece.time] ⊆ ps) (r : State) (w : Nat) (s : State) :
    keepsBut ps r (State.workDone w s) ↔ keepsBut ps r s :=
  keepsBut_peel (fp := [.time]) (by
    unfold State.workDone
    repeat' first
      | with_reducible exact keepsBut_refl _ _
      | with_reducible refine keepsBut_forEach_of (fun _ _ => ?_) ?_
      | with_reducible refine keepsBut_foldl_of (fun _ _ => ?_) ?_
      | with_reducible refine ⟨fun _ => ?_, fun _ => ?_⟩
      | simp +zetaHave (disch := decide) only [↓keepsBut_modTime, ↓keepsBut_self, ↓keepsBut_ite, implies_true, and_self, and_true, true_and]
      | with_reducible intro _
      | split) h

@[simp ↓] theorem keepsBut_raise {ps : List Piece} (h : [Piece.recorder] ⊆ ps) (r : State) (code arg : Nat) (s : State) :
    keepsBut ps r (State.raise code arg s) ↔ keepsBut ps r s :=
  keepsBut_peel (fp := [.recorder]) (by
    unfold State.raise
    repeat' first
      | with_reducible exact keepsBut_refl _ _
      | with_reducible refine keepsBut_forEach_of (fun _ _ => ?_) ?_
      | with_reducible refine keepsBut_foldl_of (fun _ _ => ?_) ?_
      | with_reducible refine ⟨fun _ => ?_, fun _ => ?_⟩
      | simp +zetaHave (disch := decide) only [↓keepsBut_modRecorder, ↓keepsBut_self, ↓keepsBut_ite, implies_true, and_self, and_true, true_and]
      | with_reducible intro _
      | split) h

@[simp ↓] theorem keepsBut_raiseOnly {ps : List Piece} (h : [Piece.recorder] ⊆ ps) (r : State) (code arg : Nat) (s : State) :
    keepsBut ps r (State.raiseOnly code arg s) ↔ keepsBut ps r s :=
  keepsBut_peel (fp := [.recorder]) (by
    unfold State.raiseOnly
    repeat' first
      | with_reducible exact keepsBut_refl _ _
      | with_reducible refine keepsBut_forEach_of (fun _ _ => ?_) ?_
      | with_reducible refine keepsBut_foldl_of (fun _ _ => ?_) ?_
      | with_reducible refine ⟨fun _ => ?_, fun _ => ?_⟩
      | simp +zetaHave (disch := decide) only [↓keepsBut_modRecorder, ↓keepsBut_self, ↓keepsBut_ite, implies_true, and_self, and_true, true_and]
      | with_reducible intro _
      | split) h

@[simp ↓] theorem keepsBut_raiseRound {ps : List Piece} (h : [Piece.recorder] ⊆ ps) (r : State) (code arg : Nat) (s : State) :
    keepsBut ps r (State.raiseRound code arg s) ↔ keepsBut ps r s :=
  keepsBut_peel (fp := [.recorder]) (by
    unfold State.raiseRound
    repeat' first
      | with_reducible exact keepsBut_refl _ _
      | with_reducible refine keepsBut_forEach_of (fun _ _ => ?_) ?_
      | with_reducible refine keepsBut_foldl_of (fun _ _ => ?_) ?_
      | with_reducible refine ⟨fun _ => ?_, fun _ => ?_⟩
      | simp +zetaHave (disch := decide) only [↓keepsBut_raise, ↓keepsBut_modRecorder, ↓keepsBut_self, ↓keepsBut_ite, implies_true, and_self, and_true, true_and]
      | with_reducible intro _
      | split) h

@[simp ↓] theorem keepsBut_clear {ps : List Piece} (h : [Piece.recorder] ⊆ ps) (r : State) (code arg : Nat) (s : State) :
    keepsBut ps r (State.clear code arg s) ↔ keepsBut ps r s :=
  keepsBut_peel (fp := [.recorder]) (by
    unfold State.clear
    repeat' first
      | with_reducible exact keepsBut_refl _ _
      | with_reducible refine keepsBut_forEach_of (fun _ _ => ?_) ?_
      | with_reducible refine keepsBut_foldl_of (fun _ _ => ?_) ?_
      | with_reducible refine ⟨fun _ => ?_, fun _ => ?_⟩
      | simp +zetaHave (disch := decide) only [↓keepsBut_modRecorder, ↓keepsBut_self, ↓keepsBut_ite, implies_true, and_self, and_true, true_and]
      | with_reducible intro _
      | split) h

@[simp ↓] theorem keepsBut_clearAll {ps : List Piece} (h : [Piece.recorder] ⊆ ps) (r : State) (code : Nat) (s : State) :
    keepsBut ps r (State.clearAll code s) ↔ keepsBut ps r s :=
  keepsBut_peel (fp := [.recorder]) (by
    unfold State.clearAll
    repeat' first
      | with_reducible exact keepsBut_refl _ _
      | with_reducible refine keepsBut_forEach_of (fun _ _ => ?_) ?_
      | with_reducible refine keepsBut_foldl_of (fun _ _ => ?_) ?_
      | with_reducible refine ⟨fun _ => ?_, fun _ => ?_⟩
      | simp +zetaHave (disch := decide) only [↓keepsBut_clear, ↓keepsBut_self, ↓keepsBut_ite, implies_true, and_self, and_true, true_and]
      | with_reducible intro _
      | split) h

@[simp ↓] theorem keepsBut_refuse {ps : List Piece} (h : [Piece.recorder] ⊆ ps) (r : State) (code arg : Nat) (s : State) :
    keepsBut ps r (refuse code arg s).1 ↔ keepsBut ps r s :=
  keepsBut_peel (fp := [.recorder]) (by
    unfold refuse
    repeat' first
      | with_reducible exact keepsBut_refl _ _
      | with_reducible refine keepsBut_forEach_of (fun _ _ => ?_) ?_
      | with_reducible refine keepsBut_foldl_of (fun _ _ => ?_) ?_
      | with_reducible refine ⟨fun _ => ?_, fun _ => ?_⟩
      | simp +zetaHave (disch := decide) only [↓keepsBut_raise, ↓keepsBut_self, ↓keepsBut_ite, implies_true, and_self, and_true, true_and]
      | with_reducible intro _
      | split) h

@[simp ↓] theorem keepsBut_stand {ps : List Piece} (h : [Piece.recorder] ⊆ ps) (r : State) (code arg : Nat) (on : Bool) (s : State) :
    keepsBut ps r (State.stand code arg on s) ↔ keepsBut ps r s :=
  keepsBut_peel (fp := [.recorder]) (by
    unfold State.stand
    repeat' first
      | with_reducible exact keepsBut_refl _ _
      | with_reducible refine keepsBut_forEach_of (fun _ _ => ?_) ?_
      | with_reducible refine keepsBut_foldl_of (fun _ _ => ?_) ?_
      | with_reducible refine ⟨fun _ => ?_, fun _ => ?_⟩
      | simp +zetaHave (disch := decide) only [↓keepsBut_raise, ↓keepsBut_clear, ↓keepsBut_self, ↓keepsBut_ite, implies_true, and_self, and_true, true_and]
      | with_reducible intro _
      | split) h

/-! ### Permit -/

@[simp ↓] theorem keepsBut_noteOutputs {ps : List Piece} (h : [Piece.est] ⊆ ps) (r : State) (n : Nat) (s : State) :
    keepsBut ps r (noteOutputs n s) ↔ keepsBut ps r s :=
  keepsBut_peel (fp := [.est]) (by
    unfold noteOutputs
    repeat' first
      | with_reducible exact keepsBut_refl _ _
      | with_reducible refine keepsBut_forEach_of (fun _ _ => ?_) ?_
      | with_reducible refine keepsBut_foldl_of (fun _ _ => ?_) ?_
      | with_reducible refine ⟨fun _ => ?_, fun _ => ?_⟩
      | simp +zetaHave (disch := decide) only [↓keepsBut_updEst, ↓keepsBut_self, ↓keepsBut_ite, implies_true, and_self, and_true, true_and]
      | with_reducible intro _
      | split) h

@[simp ↓] theorem keepsBut_stage {ps : List Piece} (h : [Piece.est, .guard] ⊆ ps) (r : State) (n : Nat) (s : State) :
    keepsBut ps r (stage n s) ↔ keepsBut ps r s :=
  keepsBut_peel (fp := [.est, .guard]) (by
    unfold stage
    repeat' first
      | with_reducible exact keepsBut_refl _ _
      | with_reducible refine keepsBut_forEach_of (fun _ _ => ?_) ?_
      | with_reducible refine keepsBut_foldl_of (fun _ _ => ?_) ?_
      | with_reducible refine ⟨fun _ => ?_, fun _ => ?_⟩
      | simp +zetaHave (disch := decide) only [↓keepsBut_noteOutputs, ↓keepsBut_modGuard, ↓keepsBut_self, ↓keepsBut_ite, implies_true, and_self, and_true, true_and]
      | with_reducible intro _
      | split) h

@[simp ↓] theorem keepsBut_stageAll {ps : List Piece} (h : [Piece.est, .guard] ⊆ ps) (r : State) (s : State) :
    keepsBut ps r (stageAll s) ↔ keepsBut ps r s :=
  keepsBut_peel (fp := [.est, .guard]) (by
    unfold stageAll
    repeat' first
      | with_reducible exact keepsBut_refl _ _
      | with_reducible refine keepsBut_forEach_of (fun _ _ => ?_) ?_
      | with_reducible refine keepsBut_foldl_of (fun _ _ => ?_) ?_
      | with_reducible refine ⟨fun _ => ?_, fun _ => ?_⟩
      | simp +zetaHave (disch := decide) only [↓keepsBut_stage, ↓keepsBut_self, ↓keepsBut_ite, implies_true, and_self, and_true, true_and]
      | with_reducible intro _
      | split) h

@[simp ↓] theorem keepsBut_outputsOff {ps : List Piece} (h : [Piece.guard] ⊆ ps) (r : State) (s : State) :
    keepsBut ps r (outputsOff s) ↔ keepsBut ps r s :=
  keepsBut_peel (fp := [.guard]) (by
    unfold outputsOff
    repeat' first
      | with_reducible exact keepsBut_refl _ _
      | with_reducible refine keepsBut_forEach_of (fun _ _ => ?_) ?_
      | with_reducible refine keepsBut_foldl_of (fun _ _ => ?_) ?_
      | with_reducible refine ⟨fun _ => ?_, fun _ => ?_⟩
      | simp +zetaHave (disch := decide) only [↓keepsBut_modGuard, ↓keepsBut_self, ↓keepsBut_ite, implies_true, and_self, and_true, true_and]
      | with_reducible intro _
      | split) h

/-! ### DebugPort -/

@[simp ↓] theorem keepsBut_tapLoad {ps : List Piece} (h : [Piece.boot] ⊆ ps) (r : State) (i : TapInstr) (s : State) :
    keepsBut ps r (tapLoad i s) ↔ keepsBut ps r s :=
  keepsBut_peel (fp := [.boot]) (by
    unfold tapLoad
    repeat' first
      | with_reducible exact keepsBut_refl _ _
      | with_reducible refine keepsBut_forEach_of (fun _ _ => ?_) ?_
      | with_reducible refine keepsBut_foldl_of (fun _ _ => ?_) ?_
      | with_reducible refine ⟨fun _ => ?_, fun _ => ?_⟩
      | simp +zetaHave (disch := decide) only [↓keepsBut_modBoot, ↓keepsBut_self, ↓keepsBut_ite, implies_true, and_self, and_true, true_and]
      | with_reducible intro _
      | split) h

@[simp ↓] theorem keepsBut_tapUpdate {ps : List Piece} (h : [Piece.boot] ⊆ ps) (r : State) (reg : List Bool) (s : State) :
    keepsBut ps r (tapUpdate reg s) ↔ keepsBut ps r s :=
  keepsBut_peel (fp := [.boot]) (by
    unfold tapUpdate
    repeat' first
      | with_reducible exact keepsBut_refl _ _
      | with_reducible refine keepsBut_forEach_of (fun _ _ => ?_) ?_
      | with_reducible refine keepsBut_foldl_of (fun _ _ => ?_) ?_
      | with_reducible refine ⟨fun _ => ?_, fun _ => ?_⟩
      | simp +zetaHave (disch := decide) only [↓keepsBut_modBoot, ↓keepsBut_self, ↓keepsBut_ite, implies_true, and_self, and_true, true_and]
      | with_reducible intro _
      | split) h

/-! ### Restart -/

theorem keepsBut_mainReset {ps : List Piece}
    (h : [Piece.time, .comb, .links, .tagCtr, .forgs, .cells, .est, .surv, .reg, .disp, .therm, .guard, .core, .host, .can, .prog, .recorder, .mem, .boot, .upd, .bist, .pwr] ⊆ ps)
    (r : State) (p : Phase) (cause : Nat) (s : State) : keepsBut ps r (mainReset p cause s) ↔ keepsBut ps r s :=
  keepsBut_peel (fp := [.time, .comb, .links, .tagCtr, .forgs, .cells, .est, .surv, .reg, .disp, .therm, .guard, .core, .host, .can, .prog, .recorder, .mem, .boot, .upd, .bist, .pwr])
    (by intro q hq; cases q <;> first | rfl | exact absurd (by decide) hq) h


@[simp ↓] theorem keepsBut_updJournal {ps : List Piece} (h : [Piece.boot] ⊆ ps) (r : State) (f : Journal → Journal) (s : State) :
    keepsBut ps r (updJournal f s) ↔ keepsBut ps r s :=
  keepsBut_peel (fp := [.boot]) (by
    unfold updJournal
    repeat' first
      | with_reducible exact keepsBut_refl _ _
      | with_reducible refine keepsBut_forEach_of (fun _ _ => ?_) ?_
      | with_reducible refine keepsBut_foldl_of (fun _ _ => ?_) ?_
      | with_reducible refine ⟨fun _ => ?_, fun _ => ?_⟩
      | simp +zetaHave (disch := decide) only [↓keepsBut_modBoot, ↓keepsBut_self, ↓keepsBut_ite, implies_true, and_self, and_true, true_and]
      | with_reducible intro _
      | split) h

@[simp ↓] theorem keepsBut_noteRestart {ps : List Piece} (h : [Piece.boot] ⊆ ps) (r : State) (step code : Nat) (s : State) :
    keepsBut ps r (noteRestart step code s) ↔ keepsBut ps r s :=
  keepsBut_peel (fp := [.boot]) (by
    unfold noteRestart
    repeat' first
      | with_reducible exact keepsBut_refl _ _
      | with_reducible refine keepsBut_forEach_of (fun _ _ => ?_) ?_
      | with_reducible refine keepsBut_foldl_of (fun _ _ => ?_) ?_
      | with_reducible refine ⟨fun _ => ?_, fun _ => ?_⟩
      | simp +zetaHave (disch := decide) only [↓keepsBut_updJournal, ↓keepsBut_self, ↓keepsBut_ite, implies_true, and_self, and_true, true_and]
      | with_reducible intro _
      | split) h

@[simp ↓] theorem keepsBut_stepTime {ps : List Piece} (h : [Piece.time, .guard, .host, .can, .boot] ⊆ ps) (r : State) (new : Nat) (s : State) :
    keepsBut ps r (stepTime new s) ↔ keepsBut ps r s :=
  keepsBut_peel (fp := [.time, .guard, .host, .can, .boot]) (by
    unfold stepTime
    repeat' first
      | with_reducible exact keepsBut_refl _ _
      | with_reducible refine keepsBut_forEach_of (fun _ _ => ?_) ?_
      | with_reducible refine keepsBut_foldl_of (fun _ _ => ?_) ?_
      | with_reducible refine ⟨fun _ => ?_, fun _ => ?_⟩
      | simp +zetaHave (disch := decide) only [↓keepsBut_modCan, ↓keepsBut_modHost, ↓keepsBut_modTime, ↓keepsBut_modBoot, ↓keepsBut_modGuard, ↓keepsBut_self, ↓keepsBut_ite, implies_true, and_self, and_true, true_and]
      | with_reducible intro _
      | split) h

@[simp ↓] theorem keepsBut_closeSession {ps : List Piece} (h : [Piece.host, .recorder] ⊆ ps) (r : State) (k : Nat) (s : State) :
    keepsBut ps r (closeSession k s) ↔ keepsBut ps r s :=
  keepsBut_peel (fp := [.host, .recorder]) (by
    unfold closeSession
    repeat' first
      | with_reducible exact keepsBut_refl _ _
      | with_reducible refine keepsBut_forEach_of (fun _ _ => ?_) ?_
      | with_reducible refine keepsBut_foldl_of (fun _ _ => ?_) ?_
      | with_reducible refine ⟨fun _ => ?_, fun _ => ?_⟩
      | simp +zetaHave (disch := decide) only [↓keepsBut_modHost, ↓keepsBut_raise, ↓keepsBut_self, ↓keepsBut_ite, implies_true, and_self, and_true, true_and]
      | with_reducible intro _
      | split) h

@[simp ↓] theorem keepsBut_restartModule {ps : List Piece} (h : [Piece.time, .comb, .links, .tagCtr, .forgs, .cells, .est, .surv, .reg, .disp, .therm, .guard, .core, .host, .can, .prog, .recorder, .mem, .boot, .upd, .bist, .pwr, .out] ⊆ ps) (r : State) (cause : Nat) (s : State) :
    keepsBut ps r (restartModule cause s) ↔ keepsBut ps r s :=
  keepsBut_peel (fp := [.time, .comb, .links, .tagCtr, .forgs, .cells, .est, .surv, .reg, .disp, .therm, .guard, .core, .host, .can, .prog, .recorder, .mem, .boot, .upd, .bist, .pwr, .out]) (by
    unfold restartModule
    repeat' first
      | with_reducible exact keepsBut_refl _ _
      | with_reducible refine keepsBut_forEach_of (fun _ _ => ?_) ?_
      | with_reducible refine keepsBut_foldl_of (fun _ _ => ?_) ?_
      | with_reducible refine ⟨fun _ => ?_, fun _ => ?_⟩
      | simp +zetaHave (disch := decide) only [↓keepsBut_closeSession, ↓keepsBut_send, ↓keepsBut_stageAll, ↓keepsBut_mainReset, ↓keepsBut_self, ↓keepsBut_ite, implies_true, and_self, and_true, true_and]
      | with_reducible intro _
      | split) h

@[simp ↓] theorem keepsBut_bistRecord {ps : List Piece} (h : [Piece.bist] ⊆ ps) (r : State) (slice target outcome detail : Nat) (s : State) :
    keepsBut ps r (bistRecord slice target outcome detail s) ↔ keepsBut ps r s :=
  keepsBut_peel (fp := [.bist]) (by
    unfold bistRecord
    repeat' first
      | with_reducible exact keepsBut_refl _ _
      | with_reducible refine keepsBut_forEach_of (fun _ _ => ?_) ?_
      | with_reducible refine keepsBut_foldl_of (fun _ _ => ?_) ?_
      | with_reducible refine ⟨fun _ => ?_, fun _ => ?_⟩
      | simp +zetaHave (disch := decide) only [↓keepsBut_modBist, ↓keepsBut_self, ↓keepsBut_ite, implies_true, and_self, and_true, true_and]
      | with_reducible intro _
      | split) h

@[simp ↓] theorem keepsBut_sliceOutcome {ps : List Piece} (h : [Piece.recorder, .bist] ⊆ ps) (r : State) (slice target outcome detail : Nat) (s : State) :
    keepsBut ps r (sliceOutcome slice target outcome detail s) ↔ keepsBut ps r s :=
  keepsBut_peel (fp := [.recorder, .bist]) (by
    unfold sliceOutcome
    repeat' first
      | with_reducible exact keepsBut_refl _ _
      | with_reducible refine keepsBut_forEach_of (fun _ _ => ?_) ?_
      | with_reducible refine keepsBut_foldl_of (fun _ _ => ?_) ?_
      | with_reducible refine ⟨fun _ => ?_, fun _ => ?_⟩
      | simp +zetaHave (disch := decide) only [↓keepsBut_raise, ↓keepsBut_stand, ↓keepsBut_bistRecord, ↓keepsBut_clear, ↓keepsBut_self, ↓keepsBut_ite, implies_true, and_self, and_true, true_and]
      | with_reducible intro _
      | split) h

end Sys2Proof.Machine
end

