-- ==== Sys2Proof/Laws/FrameStrings.lean ====
section
/-!
SUPPORT. FrameStrings: what the operations of the time unit, the links, the Foragers, the estimator and the thermal net leave unchanged.
-/

set_option linter.all false

namespace Sys2Proof.Machine

/-! ### TimeUnit -/

@[simp ↓] theorem keepsBut_judgeSync {ps : List Piece} (h : [Piece.time, .recorder] ⊆ ps) (r : State) (t : Nat) (s : State) :
    keepsBut ps r (judgeSync t s) ↔ keepsBut ps r s :=
  keepsBut_peel (fp := [.time, .recorder]) (by
    unfold judgeSync
    repeat' first
      | with_reducible exact keepsBut_refl _ _
      | with_reducible refine keepsBut_forEach_of (fun _ _ => ?_) ?_
      | with_reducible refine keepsBut_foldl_of (fun _ _ => ?_) ?_
      | with_reducible refine ⟨fun _ => ?_, fun _ => ?_⟩
      | simp +zetaHave (disch := decide) only [↓keepsBut_modTime, ↓keepsBut_stand, ↓keepsBut_self, ↓keepsBut_ite, implies_true, and_self, and_true, true_and]
      | with_reducible intro _
      | split) h

@[simp ↓] theorem keepsBut_offsetSample {ps : List Piece} (h : [Piece.time, .recorder] ⊆ ps) (r : State) (k : Nat) (o : Rat) (t : Nat) (s : State) :
    keepsBut ps r (offsetSample k o t s) ↔ keepsBut ps r s :=
  keepsBut_peel (fp := [.time, .recorder]) (by
    unfold offsetSample
    repeat' first
      | with_reducible exact keepsBut_refl _ _
      | with_reducible refine keepsBut_forEach_of (fun _ _ => ?_) ?_
      | with_reducible refine keepsBut_foldl_of (fun _ _ => ?_) ?_
      | with_reducible refine ⟨fun _ => ?_, fun _ => ?_⟩
      | simp +zetaHave (disch := decide) only [↓keepsBut_modTime, ↓keepsBut_raise, ↓keepsBut_stand, ↓keepsBut_judgeSync, ↓keepsBut_clear, ↓keepsBut_self, ↓keepsBut_ite, implies_true, and_self, and_true, true_and]
      | with_reducible intro _
      | split) h

@[simp ↓] theorem keepsBut_judgeHoldover {ps : List Piece} (h : [Piece.time, .recorder] ⊆ ps) (r : State) (t : Nat) (s : State) :
    keepsBut ps r (judgeHoldover t s) ↔ keepsBut ps r s :=
  keepsBut_peel (fp := [.time, .recorder]) (by
    unfold judgeHoldover
    repeat' first
      | with_reducible exact keepsBut_refl _ _
      | with_reducible refine keepsBut_forEach_of (fun _ _ => ?_) ?_
      | with_reducible refine keepsBut_foldl_of (fun _ _ => ?_) ?_
      | with_reducible refine ⟨fun _ => ?_, fun _ => ?_⟩
      | simp +zetaHave (disch := decide) only [↓keepsBut_modTime, ↓keepsBut_stand, ↓keepsBut_self, ↓keepsBut_ite, implies_true, and_self, and_true, true_and]
      | with_reducible intro _
      | split) h

@[simp ↓] theorem keepsBut_rateStep {ps : List Piece} (h : [Piece.time] ⊆ ps) (r : State) (s : State) :
    keepsBut ps r (rateStep s) ↔ keepsBut ps r s :=
  keepsBut_peel (fp := [.time]) (by
    unfold rateStep
    repeat' first
      | with_reducible exact keepsBut_refl _ _
      | with_reducible refine keepsBut_forEach_of (fun _ _ => ?_) ?_
      | with_reducible refine keepsBut_foldl_of (fun _ _ => ?_) ?_
      | with_reducible refine ⟨fun _ => ?_, fun _ => ?_⟩
      | simp +zetaHave (disch := decide) only [↓keepsBut_modTime, ↓keepsBut_self, ↓keepsBut_ite, implies_true, and_self, and_true, true_and]
      | with_reducible intro _
      | split) h

@[simp ↓] theorem keepsBut_selectMaster {ps : List Piece} (h : [Piece.time] ⊆ ps) (r : State) (t : Nat) (s : State) :
    keepsBut ps r (selectMaster t s) ↔ keepsBut ps r s :=
  keepsBut_peel (fp := [.time]) (by
    unfold selectMaster
    repeat' first
      | with_reducible exact keepsBut_refl _ _
      | with_reducible refine keepsBut_forEach_of (fun _ _ => ?_) ?_
      | with_reducible refine keepsBut_foldl_of (fun _ _ => ?_) ?_
      | with_reducible refine ⟨fun _ => ?_, fun _ => ?_⟩
      | simp +zetaHave (disch := decide) only [↓keepsBut_modTime, ↓keepsBut_self, ↓keepsBut_ite, implies_true, and_self, and_true, true_and]
      | with_reducible intro _
      | split) h

@[simp ↓] theorem keepsBut_peerChange {ps : List Piece} (h : [Piece.time, .recorder] ⊆ ps) (r : State) (t port : Nat) (valid : Bool) (s : State) :
    keepsBut ps r (peerChange t port valid s) ↔ keepsBut ps r s :=
  keepsBut_peel (fp := [.time, .recorder]) (by
    unfold peerChange
    repeat' first
      | with_reducible exact keepsBut_refl _ _
      | with_reducible refine keepsBut_forEach_of (fun _ _ => ?_) ?_
      | with_reducible refine keepsBut_foldl_of (fun _ _ => ?_) ?_
      | with_reducible refine ⟨fun _ => ?_, fun _ => ?_⟩
      | simp +zetaHave (disch := decide) only [↓keepsBut_stand, ↓keepsBut_selectMaster, ↓keepsBut_self, ↓keepsBut_ite, implies_true, and_self, and_true, true_and]
      | with_reducible intro _
      | split) h

@[simp ↓] theorem keepsBut_takeStamp {ps : List Piece} (h : [Piece.time, .recorder] ⊆ ps) (r : State) (id port t : Nat) (s : State) :
    keepsBut ps r (takeStamp id port t s).1 ↔ keepsBut ps r s :=
  keepsBut_peel (fp := [.time, .recorder]) (by
    unfold takeStamp
    repeat' first
      | with_reducible exact keepsBut_refl _ _
      | with_reducible refine keepsBut_forEach_of (fun _ _ => ?_) ?_
      | with_reducible refine keepsBut_foldl_of (fun _ _ => ?_) ?_
      | with_reducible refine ⟨fun _ => ?_, fun _ => ?_⟩
      | simp +zetaHave (disch := decide) only [↓keepsBut_modTime, ↓keepsBut_raise, ↓keepsBut_self, ↓keepsBut_ite, implies_true, and_self, and_true, true_and]
      | with_reducible intro _
      | split) h

@[simp ↓] theorem keepsBut_releaseStamp {ps : List Piece} (h : [Piece.time] ⊆ ps) (r : State) (id port : Nat) (s : State) :
    keepsBut ps r (releaseStamp id port s) ↔ keepsBut ps r s :=
  keepsBut_peel (fp := [.time]) (by
    unfold releaseStamp
    repeat' first
      | with_reducible exact keepsBut_refl _ _
      | with_reducible refine keepsBut_forEach_of (fun _ _ => ?_) ?_
      | with_reducible refine keepsBut_foldl_of (fun _ _ => ?_) ?_
      | with_reducible refine ⟨fun _ => ?_, fun _ => ?_⟩
      | simp +zetaHave (disch := decide) only [↓keepsBut_modTime, ↓keepsBut_self, ↓keepsBut_ite, implies_true, and_self, and_true, true_and]
      | with_reducible intro _
      | split) h

@[simp ↓] theorem keepsBut_sentTagged {ps : List Piece} (h : [Piece.time, .can, .out] ⊆ ps) (r : State) (t port id : Nat) (s : State) :
    keepsBut ps r (sentTagged t port id s) ↔ keepsBut ps r s :=
  keepsBut_peel (fp := [.time, .can, .out]) (by
    unfold sentTagged
    repeat' first
      | with_reducible exact keepsBut_refl _ _
      | with_reducible refine keepsBut_forEach_of (fun _ _ => ?_) ?_
      | with_reducible refine keepsBut_foldl_of (fun _ _ => ?_) ?_
      | with_reducible refine ⟨fun _ => ?_, fun _ => ?_⟩
      | simp +zetaHave (disch := decide) only [↓keepsBut_at_, ↓keepsBut_send, ↓keepsBut_modCan, ↓keepsBut_self, ↓keepsBut_ite, implies_true, and_self, and_true, true_and]
      | with_reducible intro _
      | split) h

@[simp ↓] theorem keepsBut_syncOnPort {ps : List Piece} (h : [Piece.time, .recorder, .out] ⊆ ps) (r : State) (seq : Nat) (pt : Nat × Nat) (s : State) :
    keepsBut ps r (syncOnPort seq pt s) ↔ keepsBut ps r s :=
  keepsBut_peel (fp := [.time, .recorder, .out]) (by
    unfold syncOnPort
    repeat' first
      | with_reducible exact keepsBut_refl _ _
      | with_reducible refine keepsBut_forEach_of (fun _ _ => ?_) ?_
      | with_reducible refine keepsBut_foldl_of (fun _ _ => ?_) ?_
      | with_reducible refine ⟨fun _ => ?_, fun _ => ?_⟩
      | simp +zetaHave (disch := decide) only [↓keepsBut_send, ↓keepsBut_releaseStamp, ↓keepsBut_takeStamp, ↓keepsBut_self, ↓keepsBut_ite, implies_true, and_self, and_true, true_and]
      | with_reducible intro _
      | split) h

@[simp ↓] theorem keepsBut_fireUnit {ps : List Piece} (h : [Piece.time] ⊆ ps) (r : State) (u : Nat) (s : State) :
    keepsBut ps r (fireUnit u s) ↔ keepsBut ps r s :=
  keepsBut_peel (fp := [.time]) (by
    unfold fireUnit
    repeat' first
      | with_reducible exact keepsBut_refl _ _
      | with_reducible refine keepsBut_forEach_of (fun _ _ => ?_) ?_
      | with_reducible refine keepsBut_foldl_of (fun _ _ => ?_) ?_
      | with_reducible refine ⟨fun _ => ?_, fun _ => ?_⟩
      | simp +zetaHave (disch := decide) only [↓keepsBut_modTime, ↓keepsBut_self, ↓keepsBut_ite, implies_true, and_self, and_true, true_and]
      | with_reducible intro _
      | split) h

@[simp ↓] theorem keepsBut_armUnit {ps : List Piece} (h : [Piece.time] ⊆ ps) (r : State) (u : Nat) (s : State) :
    keepsBut ps r (armUnit u s) ↔ keepsBut ps r s :=
  keepsBut_peel (fp := [.time]) (by
    unfold armUnit
    repeat' first
      | with_reducible exact keepsBut_refl _ _
      | with_reducible refine keepsBut_forEach_of (fun _ _ => ?_) ?_
      | with_reducible refine keepsBut_foldl_of (fun _ _ => ?_) ?_
      | with_reducible refine ⟨fun _ => ?_, fun _ => ?_⟩
      | simp +zetaHave (disch := decide) only [↓keepsBut_modTime, ↓keepsBut_self, ↓keepsBut_ite, implies_true, and_self, and_true, true_and]
      | with_reducible intro _
      | split) h

/-! ### Link -/

@[simp ↓] theorem keepsBut_queueCmd {ps : List Piece} (h : [Piece.links, .tagCtr] ⊆ ps) (r : State) (n id target : Nat) (params : List Nat) (s : State) :
    keepsBut ps r (queueCmd n id target params s) ↔ keepsBut ps r s :=
  keepsBut_peel (fp := [.links, .tagCtr]) (by
    unfold queueCmd
    repeat' first
      | with_reducible exact keepsBut_refl _ _
      | with_reducible refine keepsBut_forEach_of (fun _ _ => ?_) ?_
      | with_reducible refine keepsBut_foldl_of (fun _ _ => ?_) ?_
      | with_reducible refine ⟨fun _ => ?_, fun _ => ?_⟩
      | simp +zetaHave (disch := decide) only [↓keepsBut_modTagCtr, ↓keepsBut_updLink, ↓keepsBut_self, ↓keepsBut_ite, implies_true, and_self, and_true, true_and]
      | with_reducible intro _
      | split) h

@[simp ↓] theorem keepsBut_armBurst {ps : List Piece} (h : [Piece.links, .surv] ⊆ ps) (r : State) (n : Nat) (s : State) :
    keepsBut ps r (armBurst n s) ↔ keepsBut ps r s :=
  keepsBut_peel (fp := [.links, .surv]) (by
    unfold armBurst
    repeat' first
      | with_reducible exact keepsBut_refl _ _
      | with_reducible refine keepsBut_forEach_of (fun _ _ => ?_) ?_
      | with_reducible refine keepsBut_foldl_of (fun _ _ => ?_) ?_
      | with_reducible refine ⟨fun _ => ?_, fun _ => ?_⟩
      | simp +zetaHave (disch := decide) only [↓keepsBut_modSurv, ↓keepsBut_updLink, ↓keepsBut_self, ↓keepsBut_ite, implies_true, and_self, and_true, true_and]
      | with_reducible intro _
      | split) h

@[simp ↓] theorem keepsBut_configRadio {ps : List Piece} (h : [Piece.links, .out] ⊆ ps) (r : State) (n : Nat) (s : State) :
    keepsBut ps r (configRadio n s) ↔ keepsBut ps r s :=
  keepsBut_peel (fp := [.links, .out]) (by
    unfold configRadio
    repeat' first
      | with_reducible exact keepsBut_refl _ _
      | with_reducible refine keepsBut_forEach_of (fun _ _ => ?_) ?_
      | with_reducible refine keepsBut_foldl_of (fun _ _ => ?_) ?_
      | with_reducible refine ⟨fun _ => ?_, fun _ => ?_⟩
      | simp +zetaHave (disch := decide) only [↓keepsBut_send, ↓keepsBut_updLink, ↓keepsBut_self, ↓keepsBut_ite, implies_true, and_self, and_true, true_and]
      | with_reducible intro _
      | split) h

@[simp ↓] theorem keepsBut_resumePorts {ps : List Piece} (h : [Piece.links] ⊆ ps) (r : State) (s : State) :
    keepsBut ps r (resumePorts s) ↔ keepsBut ps r s :=
  keepsBut_peel (fp := [.links]) (by
    unfold resumePorts
    repeat' first
      | with_reducible exact keepsBut_refl _ _
      | with_reducible refine keepsBut_forEach_of (fun _ _ => ?_) ?_
      | with_reducible refine keepsBut_foldl_of (fun _ _ => ?_) ?_
      | with_reducible refine ⟨fun _ => ?_, fun _ => ?_⟩
      | simp +zetaHave (disch := decide) only [↓keepsBut_updLink, ↓keepsBut_self, ↓keepsBut_ite, implies_true, and_self, and_true, true_and]
      | with_reducible intro _
      | split) h

@[simp ↓] theorem keepsBut_newNetKey {ps : List Piece} (h : [Piece.recorder, .boot, .freeCtr] ⊆ ps) (r : State) (n : Nat) (s : State) :
    keepsBut ps r (newNetKey n s).2 ↔ keepsBut ps r s :=
  keepsBut_peel (fp := [.recorder, .boot, .freeCtr]) (by
    unfold newNetKey
    repeat' first
      | with_reducible exact keepsBut_refl _ _
      | with_reducible refine keepsBut_forEach_of (fun _ _ => ?_) ?_
      | with_reducible refine keepsBut_foldl_of (fun _ _ => ?_) ?_
      | with_reducible refine ⟨fun _ => ?_, fun _ => ?_⟩
      | simp +zetaHave (disch := decide) only [↓keepsBut_raise, ↓keepsBut_modBoot, ↓keepsBut_draw, ↓keepsBut_self, ↓keepsBut_ite, implies_true, and_self, and_true, true_and]
      | with_reducible intro _
      | split) h

@[simp ↓] theorem keepsBut_renewKey {ps : List Piece} (h : [Piece.links, .tagCtr, .recorder, .boot, .freeCtr] ⊆ ps) (r : State) (n : Nat) (s : State) :
    keepsBut ps r (renewKey n s) ↔ keepsBut ps r s :=
  keepsBut_peel (fp := [.links, .tagCtr, .recorder, .boot, .freeCtr]) (by
    unfold renewKey
    repeat' first
      | with_reducible exact keepsBut_refl _ _
      | with_reducible refine keepsBut_forEach_of (fun _ _ => ?_) ?_
      | with_reducible refine keepsBut_foldl_of (fun _ _ => ?_) ?_
      | with_reducible refine ⟨fun _ => ?_, fun _ => ?_⟩
      | simp +zetaHave (disch := decide) only [↓keepsBut_newNetKey, ↓keepsBut_updLink, ↓keepsBut_queueCmd, ↓keepsBut_self, ↓keepsBut_ite, implies_true, and_self, and_true, true_and]
      | with_reducible intro _
      | split) h

@[simp ↓] theorem keepsBut_countDiscard {ps : List Piece} (h : [Piece.links] ⊆ ps) (r : State) (n kind : Nat) (s : State) :
    keepsBut ps r (countDiscard n kind s) ↔ keepsBut ps r s :=
  keepsBut_peel (fp := [.links]) (by
    unfold countDiscard
    repeat' first
      | with_reducible exact keepsBut_refl _ _
      | with_reducible refine keepsBut_forEach_of (fun _ _ => ?_) ?_
      | with_reducible refine keepsBut_foldl_of (fun _ _ => ?_) ?_
      | with_reducible refine ⟨fun _ => ?_, fun _ => ?_⟩
      | simp +zetaHave (disch := decide) only [↓keepsBut_updLink, ↓keepsBut_self, ↓keepsBut_ite, implies_true, and_self, and_true, true_and]
      | with_reducible intro _
      | split) h

@[simp ↓] theorem keepsBut_countMic {ps : List Piece} (h : [Piece.links, .recorder] ⊆ ps) (r : State) (n : Nat) (s : State) :
    keepsBut ps r (countMic n s) ↔ keepsBut ps r s :=
  keepsBut_peel (fp := [.links, .recorder]) (by
    unfold countMic
    repeat' first
      | with_reducible exact keepsBut_refl _ _
      | with_reducible refine keepsBut_forEach_of (fun _ _ => ?_) ?_
      | with_reducible refine keepsBut_foldl_of (fun _ _ => ?_) ?_
      | with_reducible refine ⟨fun _ => ?_, fun _ => ?_⟩
      | simp +zetaHave (disch := decide) only [↓keepsBut_updLink, ↓keepsBut_raiseRound, ↓keepsBut_countDiscard, ↓keepsBut_self, ↓keepsBut_ite, implies_true, and_self, and_true, true_and]
      | with_reducible intro _
      | split) h

@[simp ↓] theorem keepsBut_discardFrame {ps : List Piece} (h : [Piece.links, .recorder] ⊆ ps) (r : State) (n kind : Nat) (s : State) :
    keepsBut ps r (discardFrame n kind s) ↔ keepsBut ps r s :=
  keepsBut_peel (fp := [.links, .recorder]) (by
    unfold discardFrame
    repeat' first
      | with_reducible exact keepsBut_refl _ _
      | with_reducible refine keepsBut_forEach_of (fun _ _ => ?_) ?_
      | with_reducible refine keepsBut_foldl_of (fun _ _ => ?_) ?_
      | with_reducible refine ⟨fun _ => ?_, fun _ => ?_⟩
      | simp +zetaHave (disch := decide) only [↓keepsBut_countMic, ↓keepsBut_raiseRound, ↓keepsBut_countDiscard, ↓keepsBut_self, ↓keepsBut_ite, implies_true, and_self, and_true, true_and]
      | with_reducible intro _
      | split) h

@[simp ↓] theorem keepsBut_storeRoster {ps : List Piece} (h : [Piece.boot] ⊆ ps) (r : State) (s : State) :
    keepsBut ps r (storeRoster s) ↔ keepsBut ps r s :=
  keepsBut_peel (fp := [.boot]) (by
    unfold storeRoster
    repeat' first
      | with_reducible exact keepsBut_refl _ _
      | with_reducible refine keepsBut_forEach_of (fun _ _ => ?_) ?_
      | with_reducible refine keepsBut_foldl_of (fun _ _ => ?_) ?_
      | with_reducible refine ⟨fun _ => ?_, fun _ => ?_⟩
      | simp +zetaHave (disch := decide) only [↓keepsBut_modBoot, ↓keepsBut_self, ↓keepsBut_ite, implies_true, and_self, and_true, true_and]
      | with_reducible intro _
      | split) h

@[simp ↓] theorem keepsBut_relaySet {ps : List Piece} (h : [Piece.links, .tagCtr] ⊆ ps) (r : State) (n p : Nat) (s : State) :
    keepsBut ps r (relaySet n p s) ↔ keepsBut ps r s :=
  keepsBut_peel (fp := [.links, .tagCtr]) (by
    unfold relaySet
    repeat' first
      | with_reducible exact keepsBut_refl _ _
      | with_reducible refine keepsBut_forEach_of (fun _ _ => ?_) ?_
      | with_reducible refine keepsBut_foldl_of (fun _ _ => ?_) ?_
      | with_reducible refine ⟨fun _ => ?_, fun _ => ?_⟩
      | simp +zetaHave (disch := decide) only [↓keepsBut_queueCmd, ↓keepsBut_self, ↓keepsBut_ite, implies_true, and_self, and_true, true_and]
      | with_reducible intro _
      | split) h

@[simp ↓] theorem keepsBut_sendRelaySet {ps : List Piece} (h : [Piece.links, .tagCtr] ⊆ ps) (r : State) (n p : Nat) (s : State) :
    keepsBut ps r (sendRelaySet n p s) ↔ keepsBut ps r s :=
  keepsBut_peel (fp := [.links, .tagCtr]) (by
    unfold sendRelaySet
    repeat' first
      | with_reducible exact keepsBut_refl _ _
      | with_reducible refine keepsBut_forEach_of (fun _ _ => ?_) ?_
      | with_reducible refine keepsBut_foldl_of (fun _ _ => ?_) ?_
      | with_reducible refine ⟨fun _ => ?_, fun _ => ?_⟩
      | simp +zetaHave (disch := decide) only [↓keepsBut_relaySet, ↓keepsBut_self, ↓keepsBut_ite, implies_true, and_self, and_true, true_and]
      | with_reducible intro _
      | split) h

@[simp ↓] theorem keepsBut_acceptJoin {ps : List Piece} (h : [Piece.links, .forgs, .recorder, .boot, .freeCtr] ⊆ ps) (r : State) (n : Nat) (q : JoinReq) (s : State) :
    keepsBut ps r (acceptJoin n q s) ↔ keepsBut ps r s :=
  keepsBut_peel (fp := [.links, .forgs, .recorder, .boot, .freeCtr]) (by
    unfold acceptJoin
    repeat' first
      | with_reducible exact keepsBut_refl _ _
      | with_reducible refine keepsBut_forEach_of (fun _ _ => ?_) ?_
      | with_reducible refine keepsBut_foldl_of (fun _ _ => ?_) ?_
      | with_reducible refine ⟨fun _ => ?_, fun _ => ?_⟩
      | simp +zetaHave (disch := decide) only [↓keepsBut_storeRoster, ↓keepsBut_newNetKey, ↓keepsBut_updLink, ↓keepsBut_updForg, ↓keepsBut_self, ↓keepsBut_ite, implies_true, and_self, and_true, true_and]
      | with_reducible intro _
      | split) h

@[simp ↓] theorem keepsBut_joinDecision {ps : List Piece} (h : [Piece.links, .tagCtr, .forgs, .recorder, .boot, .freeCtr] ⊆ ps) (r : State) (n : Nat) (s : State) :
    keepsBut ps r (joinDecision n s) ↔ keepsBut ps r s :=
  keepsBut_peel (fp := [.links, .tagCtr, .forgs, .recorder, .boot, .freeCtr]) (by
    unfold joinDecision
    repeat' first
      | with_reducible exact keepsBut_refl _ _
      | with_reducible refine keepsBut_forEach_of (fun _ _ => ?_) ?_
      | with_reducible refine keepsBut_foldl_of (fun _ _ => ?_) ?_
      | with_reducible refine ⟨fun _ => ?_, fun _ => ?_⟩
      | simp +zetaHave (disch := decide) only [↓keepsBut_raise, ↓keepsBut_answer, ↓keepsBut_sendRelaySet, ↓keepsBut_updLink, ↓keepsBut_acceptJoin, ↓keepsBut_self, ↓keepsBut_ite, implies_true, and_self, and_true, true_and]
      | with_reducible intro _
      | split) h

@[simp ↓] theorem keepsBut_judgeRelay {ps : List Piece} (h : [Piece.forgs, .recorder] ⊆ ps) (r : State) (n p : Nat) (s : State) :
    keepsBut ps r (judgeRelay n p s) ↔ keepsBut ps r s :=
  keepsBut_peel (fp := [.forgs, .recorder]) (by
    unfold judgeRelay
    repeat' first
      | with_reducible exact keepsBut_refl _ _
      | with_reducible refine keepsBut_forEach_of (fun _ _ => ?_) ?_
      | with_reducible refine keepsBut_foldl_of (fun _ _ => ?_) ?_
      | with_reducible refine ⟨fun _ => ?_, fun _ => ?_⟩
      | simp +zetaHave (disch := decide) only [↓keepsBut_stand, ↓keepsBut_updForg, ↓keepsBut_clear, ↓keepsBut_self, ↓keepsBut_ite, implies_true, and_self, and_true, true_and]
      | with_reducible intro _
      | split) h

@[simp ↓] theorem keepsBut_bulkMap {ps : List Piece} (h : [Piece.links, .forgs] ⊆ ps) (r : State) (n : Nat) (s : State) :
    keepsBut ps r (bulkMap n s) ↔ keepsBut ps r s :=
  keepsBut_peel (fp := [.links, .forgs]) (by
    unfold bulkMap
    repeat' first
      | with_reducible exact keepsBut_refl _ _
      | with_reducible refine keepsBut_forEach_of (fun _ _ => ?_) ?_
      | with_reducible refine keepsBut_foldl_of (fun _ _ => ?_) ?_
      | with_reducible refine ⟨fun _ => ?_, fun _ => ?_⟩
      | simp +zetaHave (disch := decide) only [↓keepsBut_updLink, ↓keepsBut_updForg, ↓keepsBut_self, ↓keepsBut_ite, implies_true, and_self, and_true, true_and]
      | with_reducible intro _
      | split) h

@[simp ↓] theorem keepsBut_holdBulk {ps : List Piece} (h : [Piece.links, .forgs] ⊆ ps) (r : State) (s : State) :
    keepsBut ps r (holdBulk s) ↔ keepsBut ps r s :=
  keepsBut_peel (fp := [.links, .forgs]) (by
    unfold holdBulk
    repeat' first
      | with_reducible exact keepsBut_refl _ _
      | with_reducible refine keepsBut_forEach_of (fun _ _ => ?_) ?_
      | with_reducible refine keepsBut_foldl_of (fun _ _ => ?_) ?_
      | with_reducible refine ⟨fun _ => ?_, fun _ => ?_⟩
      | simp +zetaHave (disch := decide) only [↓keepsBut_modForgs, ↓keepsBut_modLinks, ↓keepsBut_self, ↓keepsBut_ite, implies_true, and_self, and_true, true_and]
      | with_reducible intro _
      | split) h

@[simp ↓] theorem keepsBut_ackDown {ps : List Piece} (h : [Piece.links] ⊆ ps) (r : State) (n b ack : Nat) (s : State) :
    keepsBut ps r (ackDown n b ack s) ↔ keepsBut ps r s :=
  keepsBut_peel (fp := [.links]) (by
    unfold ackDown
    repeat' first
      | with_reducible exact keepsBut_refl _ _
      | with_reducible refine keepsBut_forEach_of (fun _ _ => ?_) ?_
      | with_reducible refine keepsBut_foldl_of (fun _ _ => ?_) ?_
      | with_reducible refine ⟨fun _ => ?_, fun _ => ?_⟩
      | simp +zetaHave (disch := decide) only [↓keepsBut_updLink, ↓keepsBut_self, ↓keepsBut_ite, implies_true, and_self, and_true, true_and]
      | with_reducible intro _
      | split) h

@[simp ↓] theorem keepsBut_openDown {ps : List Piece} (h : [Piece.links] ⊆ ps) (r : State) (n target bytes : Nat) (s : State) :
    keepsBut ps r (openDown n target bytes s) ↔ keepsBut ps r s :=
  keepsBut_peel (fp := [.links]) (by
    unfold openDown
    repeat' first
      | with_reducible exact keepsBut_refl _ _
      | with_reducible refine keepsBut_forEach_of (fun _ _ => ?_) ?_
      | with_reducible refine keepsBut_foldl_of (fun _ _ => ?_) ?_
      | with_reducible refine ⟨fun _ => ?_, fun _ => ?_⟩
      | simp +zetaHave (disch := decide) only [↓keepsBut_updLink, ↓keepsBut_self, ↓keepsBut_ite, implies_true, and_self, and_true, true_and]
      | with_reducible intro _
      | split) h

/-! ### ForagerNode -/

@[simp ↓] theorem keepsBut_tryTest {ps : List Piece} (h : [Piece.links, .tagCtr, .forgs] ⊆ ps) (r : State) (n b k : Nat) (s : State) :
    keepsBut ps r (tryTest n b k s) ↔ keepsBut ps r s :=
  keepsBut_peel (fp := [.links, .tagCtr, .forgs]) (by
    unfold tryTest
    repeat' first
      | with_reducible exact keepsBut_refl _ _
      | with_reducible refine keepsBut_forEach_of (fun _ _ => ?_) ?_
      | with_reducible refine keepsBut_foldl_of (fun _ _ => ?_) ?_
      | with_reducible refine ⟨fun _ => ?_, fun _ => ?_⟩
      | simp +zetaHave (disch := decide) only [↓keepsBut_updForg, ↓keepsBut_queueCmd, ↓keepsBut_self, ↓keepsBut_ite, implies_true, and_self, and_true, true_and]
      | with_reducible intro _
      | split) h

@[simp ↓] theorem keepsBut_testTimeout {ps : List Piece} (h : [Piece.forgs, .recorder] ⊆ ps) (r : State) (n b : Nat) (s : State) :
    keepsBut ps r (testTimeout n b s) ↔ keepsBut ps r s :=
  keepsBut_peel (fp := [.forgs, .recorder]) (by
    unfold testTimeout
    repeat' first
      | with_reducible exact keepsBut_refl _ _
      | with_reducible refine keepsBut_forEach_of (fun _ _ => ?_) ?_
      | with_reducible refine keepsBut_foldl_of (fun _ _ => ?_) ?_
      | with_reducible refine ⟨fun _ => ?_, fun _ => ?_⟩
      | simp +zetaHave (disch := decide) only [↓keepsBut_raise, ↓keepsBut_updForg, ↓keepsBut_self, ↓keepsBut_ite, implies_true, and_self, and_true, true_and]
      | with_reducible intro _
      | split) h

@[simp ↓] theorem keepsBut_owResult {ps : List Piece} (h : [Piece.forgs, .recorder] ⊆ ps) (r : State) (n b : Nat) (bytes : List Byte) (s : State) :
    keepsBut ps r (owResult n b bytes s) ↔ keepsBut ps r s :=
  keepsBut_peel (fp := [.forgs, .recorder]) (by
    unfold owResult
    repeat' first
      | with_reducible exact keepsBut_refl _ _
      | with_reducible refine keepsBut_forEach_of (fun _ _ => ?_) ?_
      | with_reducible refine keepsBut_foldl_of (fun _ _ => ?_) ?_
      | with_reducible refine ⟨fun _ => ?_, fun _ => ?_⟩
      | simp +zetaHave (disch := decide) only [↓keepsBut_raise, ↓keepsBut_stand, ↓keepsBut_updForg, ↓keepsBut_self, ↓keepsBut_ite, implies_true, and_self, and_true, true_and]
      | with_reducible intro _
      | split) h

@[simp ↓] theorem keepsBut_orderTest {ps : List Piece} (h : [Piece.links, .tagCtr, .forgs] ⊆ ps) (r : State) (n b k : Nat) (s : State) :
    keepsBut ps r (orderTest n b k s) ↔ keepsBut ps r s :=
  keepsBut_peel (fp := [.links, .tagCtr, .forgs]) (by
    unfold orderTest
    repeat' first
      | with_reducible exact keepsBut_refl _ _
      | with_reducible refine keepsBut_forEach_of (fun _ _ => ?_) ?_
      | with_reducible refine keepsBut_foldl_of (fun _ _ => ?_) ?_
      | with_reducible refine ⟨fun _ => ?_, fun _ => ?_⟩
      | simp +zetaHave (disch := decide) only [↓keepsBut_updForg, ↓keepsBut_tryTest, ↓keepsBut_self, ↓keepsBut_ite, implies_true, and_self, and_true, true_and]
      | with_reducible intro _
      | split) h

@[simp ↓] theorem keepsBut_testsDue {ps : List Piece} (h : [Piece.links, .tagCtr, .forgs] ⊆ ps) (r : State) (n b : Nat) (s : State) :
    keepsBut ps r (testsDue n b s) ↔ keepsBut ps r s :=
  keepsBut_peel (fp := [.links, .tagCtr, .forgs]) (by
    unfold testsDue
    repeat' first
      | with_reducible exact keepsBut_refl _ _
      | with_reducible refine keepsBut_forEach_of (fun _ _ => ?_) ?_
      | with_reducible refine keepsBut_foldl_of (fun _ _ => ?_) ?_
      | with_reducible refine ⟨fun _ => ?_, fun _ => ?_⟩
      | simp +zetaHave (disch := decide) only [↓keepsBut_tryTest, ↓keepsBut_self, ↓keepsBut_ite, implies_true, and_self, and_true, true_and]
      | with_reducible intro _
      | split) h

@[simp ↓] theorem keepsBut_sendBleed {ps : List Piece} (h : [Piece.links, .tagCtr, .recorder] ⊆ ps) (r : State) (o : Owner) (n b : Nat) (secs : Nat → Nat) (s : State) :
    keepsBut ps r (sendBleed o n b secs s) ↔ keepsBut ps r s :=
  keepsBut_peel (fp := [.links, .tagCtr, .recorder]) (by
    unfold sendBleed
    repeat' first
      | with_reducible exact keepsBut_refl _ _
      | with_reducible refine keepsBut_forEach_of (fun _ _ => ?_) ?_
      | with_reducible refine keepsBut_foldl_of (fun _ _ => ?_) ?_
      | with_reducible refine ⟨fun _ => ?_, fun _ => ?_⟩
      | simp +zetaHave (disch := decide) only [↓keepsBut_because, ↓keepsBut_queueCmd, ↓keepsBut_self, ↓keepsBut_ite, implies_true, and_self, and_true, true_and]
      | with_reducible intro _
      | split) h

@[simp ↓] theorem keepsBut_dropExcluded {ps : List Piece} (h : [Piece.links, .tagCtr, .recorder] ⊆ ps) (r : State) (n b : Nat) (s : State) :
    keepsBut ps r (dropExcluded n b s) ↔ keepsBut ps r s :=
  keepsBut_peel (fp := [.links, .tagCtr, .recorder]) (by
    unfold dropExcluded
    repeat' first
      | with_reducible exact keepsBut_refl _ _
      | with_reducible refine keepsBut_forEach_of (fun _ _ => ?_) ?_
      | with_reducible refine keepsBut_foldl_of (fun _ _ => ?_) ?_
      | with_reducible refine ⟨fun _ => ?_, fun _ => ?_⟩
      | simp +zetaHave (disch := decide) only [↓keepsBut_sendBleed, ↓keepsBut_self, ↓keepsBut_ite, implies_true, and_self, and_true, true_and]
      | with_reducible intro _
      | split) h

@[simp ↓] theorem keepsBut_ackEffect {ps : List Piece} (h : [Piece.forgs, .surv] ⊆ ps) (r : State) (n b : Nat) (c : LinkCmd) (s : State) :
    keepsBut ps r (ackEffect n b c s) ↔ keepsBut ps r s :=
  keepsBut_peel (fp := [.forgs, .surv]) (by
    unfold ackEffect
    repeat' first
      | with_reducible exact keepsBut_refl _ _
      | with_reducible refine keepsBut_forEach_of (fun _ _ => ?_) ?_
      | with_reducible refine keepsBut_foldl_of (fun _ _ => ?_) ?_
      | with_reducible refine ⟨fun _ => ?_, fun _ => ?_⟩
      | simp +zetaHave (disch := decide) only [↓keepsBut_modSurv, ↓keepsBut_updForg, ↓keepsBut_self, ↓keepsBut_ite, implies_true, and_self, and_true, true_and]
      | with_reducible intro _
      | split) h

@[simp ↓] theorem keepsBut_ackTag {ps : List Piece} (h : [Piece.links, .forgs, .surv, .recorder] ⊆ ps) (r : State) (n b tag : Nat) (s : State) :
    keepsBut ps r (ackTag n b tag s) ↔ keepsBut ps r s :=
  keepsBut_peel (fp := [.links, .forgs, .surv, .recorder]) (by
    unfold ackTag
    repeat' first
      | with_reducible exact keepsBut_refl _ _
      | with_reducible refine keepsBut_forEach_of (fun _ _ => ?_) ?_
      | with_reducible refine keepsBut_foldl_of (fun _ _ => ?_) ?_
      | with_reducible refine ⟨fun _ => ?_, fun _ => ?_⟩
      | simp +zetaHave (disch := decide) only [↓keepsBut_clear, ↓keepsBut_ackEffect, ↓keepsBut_updLink, ↓keepsBut_self, ↓keepsBut_ite, implies_true, and_self, and_true, true_and]
      | with_reducible intro _
      | split) h

@[simp ↓] theorem keepsBut_judgeThr {ps : List Piece} (h : [Piece.recorder] ⊆ ps) (r : State) (j : Nat) (s : State) :
    keepsBut ps r (judgeThr j s) ↔ keepsBut ps r s :=
  keepsBut_peel (fp := [.recorder]) (by
    unfold judgeThr
    repeat' first
      | with_reducible exact keepsBut_refl _ _
      | with_reducible refine keepsBut_forEach_of (fun _ _ => ?_) ?_
      | with_reducible refine keepsBut_foldl_of (fun _ _ => ?_) ?_
      | with_reducible refine ⟨fun _ => ?_, fun _ => ?_⟩
      | simp +zetaHave (disch := decide) only [↓keepsBut_stand, ↓keepsBut_self, ↓keepsBut_ite, implies_true, and_self, and_true, true_and]
      | with_reducible intro _
      | split) h

@[simp ↓] theorem keepsBut_judgeStaged {ps : List Piece} (h : [Piece.recorder, .upd] ⊆ ps) (r : State) (s : State) :
    keepsBut ps r (judgeStaged s) ↔ keepsBut ps r s :=
  keepsBut_peel (fp := [.recorder, .upd]) (by
    unfold judgeStaged
    repeat' first
      | with_reducible exact keepsBut_refl _ _
      | with_reducible refine keepsBut_forEach_of (fun _ _ => ?_) ?_
      | with_reducible refine keepsBut_foldl_of (fun _ _ => ?_) ?_
      | with_reducible refine ⟨fun _ => ?_, fun _ => ?_⟩
      | simp +zetaHave (disch := decide) only [↓keepsBut_modUpd, ↓keepsBut_raise, ↓keepsBut_self, ↓keepsBut_ite, implies_true, and_self, and_true, true_and]
      | with_reducible intro _
      | split) h

@[simp ↓] theorem keepsBut_stagingRecord {ps : List Piece} (h : [Piece.forgs, .recorder, .upd] ⊆ ps) (r : State) (j : Nat) (d : Diag) (s : State) :
    keepsBut ps r (stagingRecord j d s) ↔ keepsBut ps r s :=
  keepsBut_peel (fp := [.forgs, .recorder, .upd]) (by
    unfold stagingRecord
    repeat' first
      | with_reducible exact keepsBut_refl _ _
      | with_reducible refine keepsBut_forEach_of (fun _ _ => ?_) ?_
      | with_reducible refine keepsBut_foldl_of (fun _ _ => ?_) ?_
      | with_reducible refine ⟨fun _ => ?_, fun _ => ?_⟩
      | simp +zetaHave (disch := decide) only [↓keepsBut_updForg, ↓keepsBut_judgeStaged, ↓keepsBut_clear, ↓keepsBut_self, ↓keepsBut_ite, implies_true, and_self, and_true, true_and]
      | with_reducible intro _
      | split) h

@[simp ↓] theorem keepsBut_diagRecord {ps : List Piece} (h : [Piece.links, .tagCtr, .forgs, .recorder, .boot, .upd] ⊆ ps) (r : State) (n b : Nat) (bytes : List Byte) (s : State) :
    keepsBut ps r (diagRecord n b bytes s) ↔ keepsBut ps r s :=
  keepsBut_peel (fp := [.links, .tagCtr, .forgs, .recorder, .boot, .upd]) (by
    unfold diagRecord
    repeat' first
      | with_reducible exact keepsBut_refl _ _
      | with_reducible refine keepsBut_forEach_of (fun _ _ => ?_) ?_
      | with_reducible refine keepsBut_foldl_of (fun _ _ => ?_) ?_
      | with_reducible refine ⟨fun _ => ?_, fun _ => ?_⟩
      | simp +zetaHave (disch := decide) only [↓keepsBut_raise, ↓keepsBut_storeRoster, ↓keepsBut_judgeThr, ↓keepsBut_sendRelaySet, ↓keepsBut_updForg, ↓keepsBut_stagingRecord, ↓keepsBut_self, ↓keepsBut_ite, implies_true, and_self, and_true, true_and]
      | with_reducible intro _
      | split) h

@[simp ↓] theorem keepsBut_dropDown {ps : List Piece} (h : [Piece.links] ⊆ ps) (r : State) (n id b : Nat) (s : State) :
    keepsBut ps r (dropDown n id b s) ↔ keepsBut ps r s :=
  keepsBut_peel (fp := [.links]) (by
    unfold dropDown
    repeat' first
      | with_reducible exact keepsBut_refl _ _
      | with_reducible refine keepsBut_forEach_of (fun _ _ => ?_) ?_
      | with_reducible refine keepsBut_foldl_of (fun _ _ => ?_) ?_
      | with_reducible refine ⟨fun _ => ?_, fun _ => ?_⟩
      | simp +zetaHave (disch := decide) only [↓keepsBut_updLink, ↓keepsBut_self, ↓keepsBut_ite, implies_true, and_self, and_true, true_and]
      | with_reducible intro _
      | split) h

@[simp ↓] theorem keepsBut_closeBrick {ps : List Piece} (h : [Piece.forgs, .recorder] ⊆ ps) (r : State) (n b : Nat) (s : State) :
    keepsBut ps r (closeBrick n b s) ↔ keepsBut ps r s :=
  keepsBut_peel (fp := [.forgs, .recorder]) (by
    unfold closeBrick
    repeat' first
      | with_reducible exact keepsBut_refl _ _
      | with_reducible refine keepsBut_forEach_of (fun _ _ => ?_) ?_
      | with_reducible refine keepsBut_foldl_of (fun _ _ => ?_) ?_
      | with_reducible refine ⟨fun _ => ?_, fun _ => ?_⟩
      | simp +zetaHave (disch := decide) only [↓keepsBut_stand, ↓keepsBut_updForg, ↓keepsBut_self, ↓keepsBut_ite, implies_true, and_self, and_true, true_and]
      | with_reducible intro _
      | split) h

@[simp ↓] theorem keepsBut_dropBleed {ps : List Piece} (h : [Piece.links] ⊆ ps) (r : State) (n : Nat) (s : State) :
    keepsBut ps r (dropBleed n s) ↔ keepsBut ps r s :=
  keepsBut_peel (fp := [.links]) (by
    unfold dropBleed
    repeat' first
      | with_reducible exact keepsBut_refl _ _
      | with_reducible refine keepsBut_forEach_of (fun _ _ => ?_) ?_
      | with_reducible refine keepsBut_foldl_of (fun _ _ => ?_) ?_
      | with_reducible refine ⟨fun _ => ?_, fun _ => ?_⟩
      | simp +zetaHave (disch := decide) only [↓keepsBut_updLink, ↓keepsBut_self, ↓keepsBut_ite, implies_true, and_self, and_true, true_and]
      | with_reducible intro _
      | split) h

@[simp ↓] theorem keepsBut_giveUp {ps : List Piece} (h : [Piece.links, .forgs, .recorder] ⊆ ps) (r : State) (n : Nat) (s : State) :
    keepsBut ps r (giveUp n s) ↔ keepsBut ps r s :=
  keepsBut_peel (fp := [.links, .forgs, .recorder]) (by
    unfold giveUp
    repeat' first
      | with_reducible exact keepsBut_refl _ _
      | with_reducible refine keepsBut_forEach_of (fun _ _ => ?_) ?_
      | with_reducible refine keepsBut_foldl_of (fun _ _ => ?_) ?_
      | with_reducible refine ⟨fun _ => ?_, fun _ => ?_⟩
      | simp +zetaHave (disch := decide) only [↓keepsBut_raise, ↓keepsBut_testTimeout, ↓keepsBut_dropBleed, ↓keepsBut_updLink, ↓keepsBut_self, ↓keepsBut_ite, implies_true, and_self, and_true, true_and]
      | with_reducible intro _
      | split) h

@[simp ↓] theorem keepsBut_closeString {ps : List Piece} (h : [Piece.links, .forgs, .recorder] ⊆ ps) (r : State) (n : Nat) (s : State) :
    keepsBut ps r (closeString n s) ↔ keepsBut ps r s :=
  keepsBut_peel (fp := [.links, .forgs, .recorder]) (by
    unfold closeString
    repeat' first
      | with_reducible exact keepsBut_refl _ _
      | with_reducible refine keepsBut_forEach_of (fun _ _ => ?_) ?_
      | with_reducible refine keepsBut_foldl_of (fun _ _ => ?_) ?_
      | with_reducible refine ⟨fun _ => ?_, fun _ => ?_⟩
      | simp +zetaHave (disch := decide) only [↓keepsBut_bulkMap, ↓keepsBut_closeBrick, ↓keepsBut_stand, ↓keepsBut_updLink, ↓keepsBut_clear, ↓keepsBut_giveUp, ↓keepsBut_judgeRelay, ↓keepsBut_self, ↓keepsBut_ite, implies_true, and_self, and_true, true_and]
      | with_reducible intro _
      | split) h

@[simp ↓] theorem keepsBut_closeLinks {ps : List Piece} (h : [Piece.links, .forgs, .recorder] ⊆ ps) (r : State) (s : State) :
    keepsBut ps r (closeLinks s) ↔ keepsBut ps r s :=
  keepsBut_peel (fp := [.links, .forgs, .recorder]) (by
    unfold closeLinks
    repeat' first
      | with_reducible exact keepsBut_refl _ _
      | with_reducible refine keepsBut_forEach_of (fun _ _ => ?_) ?_
      | with_reducible refine keepsBut_foldl_of (fun _ _ => ?_) ?_
      | with_reducible refine ⟨fun _ => ?_, fun _ => ?_⟩
      | simp +zetaHave (disch := decide) only [↓keepsBut_closeString, ↓keepsBut_self, ↓keepsBut_ite, implies_true, and_self, and_true, true_and]
      | with_reducible intro _
      | split) h

@[simp ↓] theorem keepsBut_newLinkFrame {ps : List Piece} (h : [Piece.links, .forgs] ⊆ ps) (r : State) (s : State) :
    keepsBut ps r (newLinkFrame s) ↔ keepsBut ps r s :=
  keepsBut_peel (fp := [.links, .forgs]) (by
    unfold newLinkFrame
    repeat' first
      | with_reducible exact keepsBut_refl _ _
      | with_reducible refine keepsBut_forEach_of (fun _ _ => ?_) ?_
      | with_reducible refine keepsBut_foldl_of (fun _ _ => ?_) ?_
      | with_reducible refine ⟨fun _ => ?_, fun _ => ?_⟩
      | simp +zetaHave (disch := decide) only [↓keepsBut_modForgs, ↓keepsBut_modLinks, ↓keepsBut_self, ↓keepsBut_ite, implies_true, and_self, and_true, true_and]
      | with_reducible intro _
      | split) h

@[simp ↓] theorem keepsBut_judgeWire {ps : List Piece} (h : [Piece.forgs, .recorder] ⊆ ps) (r : State) (n b g k : Nat) (u : Uplink) (s : State) :
    keepsBut ps r (judgeWire n b g k u s) ↔ keepsBut ps r s :=
  keepsBut_peel (fp := [.forgs, .recorder]) (by
    unfold judgeWire
    repeat' first
      | with_reducible exact keepsBut_refl _ _
      | with_reducible refine keepsBut_forEach_of (fun _ _ => ?_) ?_
      | with_reducible refine keepsBut_foldl_of (fun _ _ => ?_) ?_
      | with_reducible refine ⟨fun _ => ?_, fun _ => ?_⟩
      | simp +zetaHave (disch := decide) only [↓keepsBut_stand, ↓keepsBut_updForg, ↓keepsBut_clear, ↓keepsBut_self, ↓keepsBut_ite, implies_true, and_self, and_true, true_and]
      | with_reducible intro _
      | split) h

@[simp ↓] theorem keepsBut_bleedAccount {ps : List Piece} (h : [Piece.forgs, .recorder] ⊆ ps) (r : State) (n b g sNs : Nat) (s : State) :
    keepsBut ps r (bleedAccount n b g sNs s) ↔ keepsBut ps r s :=
  keepsBut_peel (fp := [.forgs, .recorder]) (by
    unfold bleedAccount
    repeat' first
      | with_reducible exact keepsBut_refl _ _
      | with_reducible refine keepsBut_forEach_of (fun _ _ => ?_) ?_
      | with_reducible refine keepsBut_foldl_of (fun _ _ => ?_) ?_
      | with_reducible refine ⟨fun _ => ?_, fun _ => ?_⟩
      | simp +zetaHave (disch := decide) only [↓keepsBut_raise, ↓keepsBut_updForg, ↓keepsBut_self, ↓keepsBut_ite, implies_true, and_self, and_true, true_and]
      | with_reducible intro _
      | split) h

@[simp ↓] theorem keepsBut_judgeCoarse {ps : List Piece} (h : [Piece.forgs, .recorder] ⊆ ps) (r : State) (n b : Nat) (u : Uplink) (s : State) :
    keepsBut ps r (judgeCoarse n b u s) ↔ keepsBut ps r s :=
  keepsBut_peel (fp := [.forgs, .recorder]) (by
    unfold judgeCoarse
    repeat' first
      | with_reducible exact keepsBut_refl _ _
      | with_reducible refine keepsBut_forEach_of (fun _ _ => ?_) ?_
      | with_reducible refine keepsBut_foldl_of (fun _ _ => ?_) ?_
      | with_reducible refine ⟨fun _ => ?_, fun _ => ?_⟩
      | simp +zetaHave (disch := decide) only [↓keepsBut_stand, ↓keepsBut_updForg, ↓keepsBut_clear, ↓keepsBut_self, ↓keepsBut_ite, implies_true, and_self, and_true, true_and]
      | with_reducible intro _
      | split) h

@[simp ↓] theorem keepsBut_judgeTotal {ps : List Piece} (h : [Piece.forgs, .recorder] ⊆ ps) (r : State) (n b : Nat) (u : Uplink) (s : State) :
    keepsBut ps r (judgeTotal n b u s) ↔ keepsBut ps r s :=
  keepsBut_peel (fp := [.forgs, .recorder]) (by
    unfold judgeTotal
    repeat' first
      | with_reducible exact keepsBut_refl _ _
      | with_reducible refine keepsBut_forEach_of (fun _ _ => ?_) ?_
      | with_reducible refine keepsBut_foldl_of (fun _ _ => ?_) ?_
      | with_reducible refine ⟨fun _ => ?_, fun _ => ?_⟩
      | simp +zetaHave (disch := decide) only [↓keepsBut_stand, ↓keepsBut_clear, ↓keepsBut_updForg, ↓keepsBut_self, ↓keepsBut_ite, implies_true, and_self, and_true, true_and]
      | with_reducible intro _
      | split) h

@[simp ↓] theorem keepsBut_brickUpdate {ps : List Piece} (h : [Piece.links, .tagCtr, .forgs, .cells, .recorder] ⊆ ps) (r : State) (n b g sNs : Nat) (s : State) :
    keepsBut ps r (brickUpdate n b g sNs s) ↔ keepsBut ps r s :=
  keepsBut_peel (fp := [.links, .tagCtr, .forgs, .cells, .recorder]) (by
    unfold brickUpdate
    repeat' first
      | with_reducible exact keepsBut_refl _ _
      | with_reducible refine keepsBut_forEach_of (fun _ _ => ?_) ?_
      | with_reducible refine keepsBut_foldl_of (fun _ _ => ?_) ?_
      | with_reducible refine ⟨fun _ => ?_, fun _ => ?_⟩
      | simp +zetaHave (disch := decide) only [↓keepsBut_testsDue, ↓keepsBut_bleedAccount, ↓keepsBut_judgeCoarse, ↓keepsBut_dropExcluded, ↓keepsBut_judgeTotal, ↓keepsBut_updForg, ↓keepsBut_judgeWire, ↓keepsBut_updCell, ↓keepsBut_self, ↓keepsBut_ite, implies_true, and_self, and_true, true_and]
      | with_reducible intro _
      | split) h

/-! ### Learned -/

@[simp ↓] theorem keepsBut_mapCells {ps : List Piece} (h : [Piece.cells] ⊆ ps) (r : State) (n : Nat) (f : Nat → Cell → Cell) (s : State) :
    keepsBut ps r (State.mapCells n f s) ↔ keepsBut ps r s :=
  keepsBut_peel (fp := [.cells]) (by
    unfold State.mapCells
    repeat' first
      | with_reducible exact keepsBut_refl _ _
      | with_reducible refine keepsBut_forEach_of (fun _ _ => ?_) ?_
      | with_reducible refine keepsBut_foldl_of (fun _ _ => ?_) ?_
      | with_reducible refine ⟨fun _ => ?_, fun _ => ?_⟩
      | simp +zetaHave (disch := decide) only [↓keepsBut_modCells, ↓keepsBut_self, ↓keepsBut_ite, implies_true, and_self, and_true, true_and]
      | with_reducible intro _
      | split) h

@[simp ↓] theorem keepsBut_writeLearned {ps : List Piece} (h : [Piece.surv, .learned, .recorder] ⊆ ps) (r : State) (n cause : Nat) (s : State) :
    keepsBut ps r (writeLearned n cause s) ↔ keepsBut ps r s :=
  keepsBut_peel (fp := [.surv, .learned, .recorder]) (by
    unfold writeLearned
    repeat' first
      | with_reducible exact keepsBut_refl _ _
      | with_reducible refine keepsBut_forEach_of (fun _ _ => ?_) ?_
      | with_reducible refine keepsBut_foldl_of (fun _ _ => ?_) ?_
      | with_reducible refine ⟨fun _ => ?_, fun _ => ?_⟩
      | simp +zetaHave (disch := decide) only [↓keepsBut_modSurv, ↓keepsBut_stand, ↓keepsBut_modLearned, ↓keepsBut_clear, ↓keepsBut_self, ↓keepsBut_ite, implies_true, and_self, and_true, true_and]
      | with_reducible intro _
      | split) h

@[simp ↓] theorem keepsBut_writeAll {ps : List Piece} (h : [Piece.surv, .learned, .recorder] ⊆ ps) (r : State) (cause : Nat) (s : State) :
    keepsBut ps r (writeAll cause s) ↔ keepsBut ps r s :=
  keepsBut_peel (fp := [.surv, .learned, .recorder]) (by
    unfold writeAll
    repeat' first
      | with_reducible exact keepsBut_refl _ _
      | with_reducible refine keepsBut_forEach_of (fun _ _ => ?_) ?_
      | with_reducible refine keepsBut_foldl_of (fun _ _ => ?_) ?_
      | with_reducible refine ⟨fun _ => ?_, fun _ => ?_⟩
      | simp +zetaHave (disch := decide) only [↓keepsBut_writeLearned, ↓keepsBut_self, ↓keepsBut_ite, implies_true, and_self, and_true, true_and]
      | with_reducible intro _
      | split) h

@[simp ↓] theorem keepsBut_writeDeferred {ps : List Piece} (h : [Piece.surv, .learned, .recorder] ⊆ ps) (r : State) (s : State) :
    keepsBut ps r (writeDeferred s) ↔ keepsBut ps r s :=
  keepsBut_peel (fp := [.surv, .learned, .recorder]) (by
    unfold writeDeferred
    repeat' first
      | with_reducible exact keepsBut_refl _ _
      | with_reducible refine keepsBut_forEach_of (fun _ _ => ?_) ?_
      | with_reducible refine keepsBut_foldl_of (fun _ _ => ?_) ?_
      | with_reducible refine ⟨fun _ => ?_, fun _ => ?_⟩
      | simp +zetaHave (disch := decide) only [↓keepsBut_writeLearned, ↓keepsBut_self, ↓keepsBut_ite, implies_true, and_self, and_true, true_and]
      | with_reducible intro _
      | split) h

@[simp ↓] theorem keepsBut_enterRegime {ps : List Piece} (h : [Piece.est, .recorder] ⊆ ps) (r0 : State) (n : Nat) (r : Regime) (s : State) :
    keepsBut ps r0 (enterRegime n r s) ↔ keepsBut ps r0 s :=
  keepsBut_peel (fp := [.est, .recorder]) (by
    unfold enterRegime
    repeat' first
      | with_reducible exact keepsBut_refl _ _
      | with_reducible refine keepsBut_forEach_of (fun _ _ => ?_) ?_
      | with_reducible refine keepsBut_foldl_of (fun _ _ => ?_) ?_
      | with_reducible refine ⟨fun _ => ?_, fun _ => ?_⟩
      | simp +zetaHave (disch := decide) only [↓keepsBut_updEst, ↓keepsBut_raise, ↓keepsBut_stand, ↓keepsBut_self, ↓keepsBut_ite, implies_true, and_self, and_true, true_and]
      | with_reducible intro _
      | split) h

@[simp ↓] theorem keepsBut_setRegime {ps : List Piece} (h : [Piece.est, .recorder] ⊆ ps) (r0 : State) (n : Nat) (r : Regime) (s : State) :
    keepsBut ps r0 (setRegime n r s) ↔ keepsBut ps r0 s :=
  keepsBut_peel (fp := [.est, .recorder]) (by
    unfold setRegime
    repeat' first
      | with_reducible exact keepsBut_refl _ _
      | with_reducible refine keepsBut_forEach_of (fun _ _ => ?_) ?_
      | with_reducible refine keepsBut_foldl_of (fun _ _ => ?_) ?_
      | with_reducible refine ⟨fun _ => ?_, fun _ => ?_⟩
      | simp +zetaHave (disch := decide) only [↓keepsBut_enterRegime, ↓keepsBut_self, ↓keepsBut_ite, implies_true, and_self, and_true, true_and]
      | with_reducible intro _
      | split) h

@[simp ↓] theorem keepsBut_enterRecovery {ps : List Piece} (h : [Piece.cells, .est, .recorder] ⊆ ps) (r : State) (n : Nat) (s : State) :
    keepsBut ps r (enterRecovery n s) ↔ keepsBut ps r s :=
  keepsBut_peel (fp := [.cells, .est, .recorder]) (by
    unfold enterRecovery
    repeat' first
      | with_reducible exact keepsBut_refl _ _
      | with_reducible refine keepsBut_forEach_of (fun _ _ => ?_) ?_
      | with_reducible refine keepsBut_foldl_of (fun _ _ => ?_) ?_
      | with_reducible refine ⟨fun _ => ?_, fun _ => ?_⟩
      | simp +zetaHave (disch := decide) only [↓keepsBut_updEst, ↓keepsBut_mapCells, ↓keepsBut_setRegime, ↓keepsBut_self, ↓keepsBut_ite, implies_true, and_self, and_true, true_and]
      | with_reducible intro _
      | split) h

@[simp ↓] theorem keepsBut_reloadLearned {ps : List Piece} (h : [Piece.cells, .est, .recorder] ⊆ ps) (r : State) (n : Nat) (s : State) :
    keepsBut ps r (reloadLearned n s) ↔ keepsBut ps r s :=
  keepsBut_peel (fp := [.cells, .est, .recorder]) (by
    unfold reloadLearned
    repeat' first
      | with_reducible exact keepsBut_refl _ _
      | with_reducible refine keepsBut_forEach_of (fun _ _ => ?_) ?_
      | with_reducible refine keepsBut_foldl_of (fun _ _ => ?_) ?_
      | with_reducible refine ⟨fun _ => ?_, fun _ => ?_⟩
      | simp +zetaHave (disch := decide) only [↓keepsBut_raise, ↓keepsBut_enterRecovery, ↓keepsBut_mapCells, ↓keepsBut_self, ↓keepsBut_ite, implies_true, and_self, and_true, true_and]
      | with_reducible intro _
      | split) h

@[simp ↓] theorem keepsBut_startLearned {ps : List Piece} (h : [Piece.cells, .est, .recorder] ⊆ ps) (r : State) (n : Nat) (s : State) :
    keepsBut ps r (startLearned n s) ↔ keepsBut ps r s :=
  keepsBut_peel (fp := [.cells, .est, .recorder]) (by
    unfold startLearned
    repeat' first
      | with_reducible exact keepsBut_refl _ _
      | with_reducible refine keepsBut_forEach_of (fun _ _ => ?_) ?_
      | with_reducible refine keepsBut_foldl_of (fun _ _ => ?_) ?_
      | with_reducible refine ⟨fun _ => ?_, fun _ => ?_⟩
      | simp +zetaHave (disch := decide) only [↓keepsBut_raise, ↓keepsBut_updEst, ↓keepsBut_enterRegime, ↓keepsBut_mapCells, ↓keepsBut_self, ↓keepsBut_ite, implies_true, and_self, and_true, true_and]
      | with_reducible intro _
      | split) h

@[simp ↓] theorem keepsBut_writeAfter {ps : List Piece} (h : [Piece.surv] ⊆ ps) (r : State) (n cause : Nat) (s : State) :
    keepsBut ps r (writeAfter n cause s) ↔ keepsBut ps r s :=
  keepsBut_peel (fp := [.surv]) (by
    unfold writeAfter
    repeat' first
      | with_reducible exact keepsBut_refl _ _
      | with_reducible refine (keepsBut_modSurv (by decide) ..).2 ?_
      | with_reducible refine keepsBut_forEach_of (fun _ _ => ?_) ?_
      | with_reducible refine keepsBut_ite_of ?_ ?_
      | extract_lets
      | split
      | with_reducible intro _
      | dsimp only) h

@[simp ↓] theorem keepsBut_resetCells {ps : List Piece} (h : [Piece.cells, .surv, .learned, .recorder] ⊆ ps) (r : State) (j : Nat) (s : State) :
    keepsBut ps r (resetCells j s) ↔ keepsBut ps r s :=
  keepsBut_peel (fp := [.cells, .surv, .learned, .recorder]) (by
    unfold resetCells
    repeat' first
      | with_reducible exact keepsBut_refl _ _
      | with_reducible refine keepsBut_forEach_of (fun _ _ => ?_) ?_
      | with_reducible refine keepsBut_foldl_of (fun _ _ => ?_) ?_
      | with_reducible refine ⟨fun _ => ?_, fun _ => ?_⟩
      | simp +zetaHave (disch := decide) only [↓keepsBut_writeAfter, ↓keepsBut_raise, ↓keepsBut_writeLearned, ↓keepsBut_mapCells, ↓keepsBut_self, ↓keepsBut_ite, implies_true, and_self, and_true, true_and]
      | with_reducible intro _
      | split) h

/-! ### Estimator -/

@[simp ↓] theorem keepsBut_countString {ps : List Piece} (h : [Piece.est, .recorder] ⊆ ps) (r : State) (n : Nat) (qa qb : Int) (t : Nat) (s : State) :
    keepsBut ps r (countString n qa qb t s).1 ↔ keepsBut ps r s :=
  keepsBut_peel (fp := [.est, .recorder]) (by
    unfold countString
    repeat' first
      | with_reducible exact keepsBut_refl _ _
      | with_reducible refine keepsBut_forEach_of (fun _ _ => ?_) ?_
      | with_reducible refine keepsBut_foldl_of (fun _ _ => ?_) ?_
      | with_reducible refine ⟨fun _ => ?_, fun _ => ?_⟩
      | simp +zetaHave (disch := decide) only [↓keepsBut_raise, ↓keepsBut_updEst, ↓keepsBut_stand, ↓keepsBut_clear, ↓keepsBut_self, ↓keepsBut_ite, implies_true, and_self, and_true, true_and]
      | with_reducible intro _
      | split) h

@[simp ↓] theorem keepsBut_restString {ps : List Piece} (h : [Piece.est] ⊆ ps) (r : State) (n tp tn : Nat) (s : State) :
    keepsBut ps r (restString n tp tn s) ↔ keepsBut ps r s :=
  keepsBut_peel (fp := [.est]) (by
    unfold restString
    repeat' first
      | with_reducible exact keepsBut_refl _ _
      | with_reducible refine keepsBut_forEach_of (fun _ _ => ?_) ?_
      | with_reducible refine keepsBut_foldl_of (fun _ _ => ?_) ?_
      | with_reducible refine ⟨fun _ => ?_, fun _ => ?_⟩
      | simp +zetaHave (disch := decide) only [↓keepsBut_updEst, ↓keepsBut_self, ↓keepsBut_ite, implies_true, and_self, and_true, true_and]
      | with_reducible intro _
      | split) h

@[simp ↓] theorem keepsBut_anchorString {ps : List Piece} (h : [Piece.cells, .est, .recorder] ⊆ ps) (r : State) (n g : Nat) (full : Bool) (k : Nat) (other : Option Nat) (s : State) :
    keepsBut ps r (anchorString n g full k other s) ↔ keepsBut ps r s :=
  keepsBut_peel (fp := [.cells, .est, .recorder]) (by
    unfold anchorString
    repeat' first
      | with_reducible exact keepsBut_refl _ _
      | with_reducible refine keepsBut_forEach_of (fun _ _ => ?_) ?_
      | with_reducible refine keepsBut_foldl_of (fun _ _ => ?_) ?_
      | with_reducible refine ⟨fun _ => ?_, fun _ => ?_⟩
      | simp +zetaHave (disch := decide) only [↓keepsBut_raise, ↓keepsBut_updEst, ↓keepsBut_raiseOnly, ↓keepsBut_mapCells, ↓keepsBut_self, ↓keepsBut_ite, implies_true, and_self, and_true, true_and]
      | with_reducible intro _
      | split) h

@[simp ↓] theorem keepsBut_capLearn {ps : List Piece} (h : [Piece.cells, .surv, .recorder] ⊆ ps) (r : State) (v : CapSurvey) (n k : Nat) (full : Option Nat) (before : List Cell) (s : State) :
    keepsBut ps r (capLearn v n k full before s) ↔ keepsBut ps r s :=
  keepsBut_peel (fp := [.cells, .surv, .recorder]) (by
    unfold capLearn
    repeat' first
      | with_reducible exact keepsBut_refl _ _
      | with_reducible refine keepsBut_forEach_of (fun _ _ => ?_) ?_
      | with_reducible refine keepsBut_foldl_of (fun _ _ => ?_) ?_
      | with_reducible refine ⟨fun _ => ?_, fun _ => ?_⟩
      | simp +zetaHave (disch := decide) only [↓keepsBut_modSurv, ↓keepsBut_raise, ↓keepsBut_mapCells, ↓keepsBut_self, ↓keepsBut_ite, implies_true, and_self, and_true, true_and]
      | with_reducible intro _
      | split) h

@[simp ↓] theorem keepsBut_endSurveyRegime {ps : List Piece} (h : [Piece.est, .recorder] ⊆ ps) (r : State) (n : Nat) (s : State) :
    keepsBut ps r (endSurveyRegime n s) ↔ keepsBut ps r s :=
  keepsBut_peel (fp := [.est, .recorder]) (by
    unfold endSurveyRegime
    repeat' first
      | with_reducible exact keepsBut_refl _ _
      | with_reducible refine keepsBut_forEach_of (fun _ _ => ?_) ?_
      | with_reducible refine keepsBut_foldl_of (fun _ _ => ?_) ?_
      | with_reducible refine ⟨fun _ => ?_, fun _ => ?_⟩
      | simp +zetaHave (disch := decide) only [↓keepsBut_setRegime, ↓keepsBut_self, ↓keepsBut_ite, implies_true, and_self, and_true, true_and]
      | with_reducible intro _
      | split) h

@[simp ↓] theorem keepsBut_stopCap {ps : List Piece} (h : [Piece.est, .surv, .recorder] ⊆ ps) (r : State) (cause : Nat) (v : CapSurvey) (s : State) :
    keepsBut ps r (stopCap cause v s) ↔ keepsBut ps r s :=
  keepsBut_peel (fp := [.est, .surv, .recorder]) (by
    unfold stopCap
    repeat' first
      | with_reducible exact keepsBut_refl _ _
      | with_reducible refine keepsBut_forEach_of (fun _ _ => ?_) ?_
      | with_reducible refine keepsBut_foldl_of (fun _ _ => ?_) ?_
      | with_reducible refine ⟨fun _ => ?_, fun _ => ?_⟩
      | simp +zetaHave (disch := decide) only [↓keepsBut_modSurv, ↓keepsBut_endSurveyRegime, ↓keepsBut_raise, ↓keepsBut_self, ↓keepsBut_ite, implies_true, and_self, and_true, true_and]
      | with_reducible intro _
      | split) h

@[simp ↓] theorem keepsBut_capPhase {ps : List Piece} (h : [Piece.cells, .est, .surv, .recorder] ⊆ ps) (r : State) (n : Nat) (full empty : Option Nat) (before : List Cell) (s : State) :
    keepsBut ps r (capPhase n full empty before s) ↔ keepsBut ps r s :=
  keepsBut_peel (fp := [.cells, .est, .surv, .recorder]) (by
    unfold capPhase
    repeat' first
      | with_reducible exact keepsBut_refl _ _
      | with_reducible refine keepsBut_forEach_of (fun _ _ => ?_) ?_
      | with_reducible refine keepsBut_foldl_of (fun _ _ => ?_) ?_
      | with_reducible refine ⟨fun _ => ?_, fun _ => ?_⟩
      | simp +zetaHave (disch := decide) only [↓keepsBut_capLearn, ↓keepsBut_endSurveyRegime, ↓keepsBut_stopCap, ↓keepsBut_modSurv, ↓keepsBut_self, ↓keepsBut_ite, implies_true, and_self, and_true, true_and]
      | with_reducible intro _
      | split) h

@[simp ↓] theorem keepsBut_reduceString {ps : List Piece} (h : [Piece.est, .recorder] ⊆ ps) (r : State) (n g : Nat) (s : State) :
    keepsBut ps r (reduceString n g s) ↔ keepsBut ps r s :=
  keepsBut_peel (fp := [.est, .recorder]) (by
    unfold reduceString
    repeat' first
      | with_reducible exact keepsBut_refl _ _
      | with_reducible refine keepsBut_forEach_of (fun _ _ => ?_) ?_
      | with_reducible refine keepsBut_foldl_of (fun _ _ => ?_) ?_
      | with_reducible refine ⟨fun _ => ?_, fun _ => ?_⟩
      | simp +zetaHave (disch := decide) only [↓keepsBut_updEst, ↓keepsBut_stand, ↓keepsBut_self, ↓keepsBut_ite, implies_true, and_self, and_true, true_and]
      | with_reducible intro _
      | split) h

@[simp ↓] theorem keepsBut_overrun {ps : List Piece} (h : [Piece.recorder, .pwr] ⊆ ps) (r : State) (cls arg : Nat) (s : State) :
    keepsBut ps r (State.overrun cls arg s) ↔ keepsBut ps r s :=
  keepsBut_peel (fp := [.recorder, .pwr]) (by
    unfold State.overrun
    repeat' first
      | with_reducible exact keepsBut_refl _ _
      | with_reducible refine (keepsBut_modPwr (by decide) ..).2 ?_
      | with_reducible refine (keepsBut_raiseOnly (by decide) ..).2 ?_
      | with_reducible refine keepsBut_forEach_of (fun _ _ => ?_) ?_
      | with_reducible refine keepsBut_ite_of ?_ ?_
      | extract_lets
      | split
      | with_reducible intro _
      | dsimp only) h

@[simp ↓] theorem keepsBut_judgeCount {ps : List Piece} (h : [Piece.cells, .recorder, .pwr] ⊆ ps) (r : State) (n p : Nat) (eod eoc : Bool) (s : State) :
    keepsBut ps r (judgeCount n p eod eoc s) ↔ keepsBut ps r s :=
  keepsBut_peel (fp := [.cells, .recorder, .pwr]) (by
    unfold judgeCount
    repeat' first
      | with_reducible exact keepsBut_refl _ _
      | with_reducible refine keepsBut_forEach_of (fun _ _ => ?_) ?_
      | with_reducible refine keepsBut_foldl_of (fun _ _ => ?_) ?_
      | with_reducible refine ⟨fun _ => ?_, fun _ => ?_⟩
      | simp +zetaHave (disch := decide) only [↓keepsBut_overrun, ↓keepsBut_updCell, ↓keepsBut_stand, ↓keepsBut_clear, ↓keepsBut_self, ↓keepsBut_ite, implies_true, and_self, and_true, true_and]
      | with_reducible intro _
      | split) h

@[simp ↓] theorem keepsBut_chargeString {ps : List Piece} (h : [Piece.cells] ⊆ ps) (r : State) (n g tp tn : Nat) (late : List Nat) (x : StrIn) (old : List Forager) (was : List Cell) (s : State) :
    keepsBut ps r (chargeString n g tp tn late x old was s) ↔ keepsBut ps r s :=
  keepsBut_peel (fp := [.cells]) (by
    unfold chargeString
    repeat' first
      | with_reducible exact keepsBut_refl _ _
      | with_reducible refine keepsBut_forEach_of (fun _ _ => ?_) ?_
      | with_reducible refine keepsBut_foldl_of (fun _ _ => ?_) ?_
      | with_reducible refine ⟨fun _ => ?_, fun _ => ?_⟩
      | simp +zetaHave (disch := decide) only [↓keepsBut_mapCells, ↓keepsBut_self, ↓keepsBut_ite, implies_true, and_self, and_true, true_and]
      | with_reducible intro _
      | split) h

@[simp ↓] theorem keepsBut_regimeStep {ps : List Piece} (h : [Piece.est, .recorder] ⊆ ps) (r : State) (n g : Nat) (s : State) :
    keepsBut ps r (regimeStep n g s) ↔ keepsBut ps r s :=
  keepsBut_peel (fp := [.est, .recorder]) (by
    unfold regimeStep
    repeat' first
      | with_reducible exact keepsBut_refl _ _
      | with_reducible refine keepsBut_forEach_of (fun _ _ => ?_) ?_
      | with_reducible refine keepsBut_foldl_of (fun _ _ => ?_) ?_
      | with_reducible refine ⟨fun _ => ?_, fun _ => ?_⟩
      | simp +zetaHave (disch := decide) only [↓keepsBut_setRegime, ↓keepsBut_self, ↓keepsBut_ite, implies_true, and_self, and_true, true_and]
      | with_reducible intro _
      | split) h

@[simp ↓] theorem keepsBut_capRatioEvents {ps : List Piece} (h : [Piece.recorder] ⊆ ps) (r : State) (n : Nat) (s : State) :
    keepsBut ps r (capRatioEvents n s) ↔ keepsBut ps r s :=
  keepsBut_peel (fp := [.recorder]) (by
    unfold capRatioEvents
    repeat' first
      | with_reducible exact keepsBut_refl _ _
      | with_reducible refine keepsBut_forEach_of (fun _ _ => ?_) ?_
      | with_reducible refine keepsBut_foldl_of (fun _ _ => ?_) ?_
      | with_reducible refine ⟨fun _ => ?_, fun _ => ?_⟩
      | simp +zetaHave (disch := decide) only [↓keepsBut_stand, ↓keepsBut_self, ↓keepsBut_ite, implies_true, and_self, and_true, true_and]
      | with_reducible intro _
      | split) h

@[simp ↓] theorem keepsBut_writeDueNow {ps : List Piece} (h : [Piece.surv, .learned, .recorder] ⊆ ps) (r : State) (n : Nat) (s : State) :
    keepsBut ps r (writeDueNow n s) ↔ keepsBut ps r s :=
  keepsBut_peel (fp := [.surv, .learned, .recorder]) (by
    unfold writeDueNow
    repeat' first
      | with_reducible exact keepsBut_refl _ _
      | with_reducible refine (keepsBut_modSurv (by decide) ..).2 ?_
      | with_reducible refine (keepsBut_writeLearned (by decide) ..).2 ?_
      | with_reducible refine keepsBut_forEach_of (fun _ _ => ?_) ?_
      | with_reducible refine keepsBut_ite_of ?_ ?_
      | extract_lets
      | split
      | with_reducible intro _
      | dsimp only) h

@[simp ↓] theorem keepsBut_updateString {ps : List Piece} (h : [Piece.links, .tagCtr, .forgs, .cells, .est, .surv, .learned, .recorder, .pwr] ⊆ ps) (r : State) (n g : Nat) (late : List Nat) (s : State) :
    keepsBut ps r (updateString n g late s) ↔ keepsBut ps r s :=
  keepsBut_peel (fp := [.links, .tagCtr, .forgs, .cells, .est, .surv, .learned, .recorder, .pwr]) (by
    unfold updateString
    repeat' first
      | with_reducible exact keepsBut_refl _ _
      | with_reducible refine (keepsBut_writeAfter (by decide) ..).2 ?_
      | with_reducible refine (keepsBut_writeDueNow (by decide) ..).2 ?_
      | with_reducible refine (keepsBut_capRatioEvents (by decide) ..).2 ?_
      | with_reducible refine (keepsBut_regimeStep (by decide) ..).2 ?_
      | with_reducible refine (keepsBut_chargeString (by decide) ..).2 ?_
      | with_reducible refine (keepsBut_judgeCount (by decide) ..).2 ?_
      | with_reducible refine (keepsBut_reduceString (by decide) ..).2 ?_
      | with_reducible refine (keepsBut_capPhase (by decide) ..).2 ?_
      | with_reducible refine (keepsBut_anchorString (by decide) ..).2 ?_
      | with_reducible refine (keepsBut_restString (by decide) ..).2 ?_
      | with_reducible refine (keepsBut_countString (by decide) ..).2 ?_
      | with_reducible refine (keepsBut_writeLearned (by decide) ..).2 ?_
      | with_reducible refine (keepsBut_mapCells (by decide) ..).2 ?_
      | with_reducible refine (keepsBut_brickUpdate (by decide) ..).2 ?_
      | with_reducible refine (keepsBut_raise (by decide) ..).2 ?_
      | with_reducible refine (keepsBut_updEst (by decide) ..).2 ?_
      | with_reducible refine keepsBut_forEach_of (fun _ _ => ?_) ?_
      | with_reducible refine keepsBut_foldl_of (fun _ _ => ?_) ?_
      | with_reducible refine keepsBut_foldl_fst_of (fun _ _ => ?_) ?_
      | with_reducible refine keepsBut_ite_of ?_ ?_
      | with_reducible refine keepsBut_ite_fst_of ?_ ?_
      | extract_lets
      | split
      | with_reducible intro _
      | dsimp only
      | (dsimp +zetaDelta only; split)) h

@[simp ↓] theorem keepsBut_brickMissed {ps : List Piece} (h : [Piece.forgs, .recorder] ⊆ ps) (r : State) (n b g sNs : Nat) (s : State) :
    keepsBut ps r (brickMissed n b g sNs s) ↔ keepsBut ps r s :=
  keepsBut_peel (fp := [.forgs, .recorder]) (by
    unfold brickMissed
    repeat' first
      | with_reducible exact keepsBut_refl _ _
      | with_reducible refine (keepsBut_bleedAccount (by decide) ..).2 ?_
      | with_reducible refine (keepsBut_updForg (by decide) ..).2 ?_
      | with_reducible refine keepsBut_forEach_of (fun _ _ => ?_) ?_
      | with_reducible refine keepsBut_ite_of ?_ ?_
      | extract_lets
      | split
      | with_reducible intro _
      | dsimp only) h

@[simp ↓] theorem keepsBut_missString {ps : List Piece} (h : [Piece.forgs, .cells, .est, .recorder] ⊆ ps) (r : State) (n g : Nat) (s : State) :
    keepsBut ps r (missString n g s) ↔ keepsBut ps r s :=
  keepsBut_peel (fp := [.forgs, .cells, .est, .recorder]) (by
    unfold missString
    repeat' first
      | with_reducible exact keepsBut_refl _ _
      | with_reducible refine keepsBut_forEach_of (fun _ _ => ?_) ?_
      | with_reducible refine keepsBut_foldl_of (fun _ _ => ?_) ?_
      | with_reducible refine ⟨fun _ => ?_, fun _ => ?_⟩
      | simp +zetaHave (disch := decide) only [↓keepsBut_brickMissed, ↓keepsBut_bleedAccount, ↓keepsBut_updEst, ↓keepsBut_countString, ↓keepsBut_restString, ↓keepsBut_mapCells, ↓keepsBut_self, ↓keepsBut_ite, implies_true, and_self, and_true, true_and]
      | with_reducible intro _
      | split) h

/-! ### Balance -/

@[simp ↓] theorem keepsBut_balanceString {ps : List Piece} (h : [Piece.links, .tagCtr, .forgs, .recorder] ⊆ ps) (r : State) (n : Nat) (s : State) :
    keepsBut ps r (balanceString n s) ↔ keepsBut ps r s :=
  keepsBut_peel (fp := [.links, .tagCtr, .forgs, .recorder]) (by
    unfold balanceString
    repeat' first
      | with_reducible exact keepsBut_refl _ _
      | with_reducible refine keepsBut_forEach_of (fun _ _ => ?_) ?_
      | with_reducible refine keepsBut_foldl_of (fun _ _ => ?_) ?_
      | with_reducible refine ⟨fun _ => ?_, fun _ => ?_⟩
      | simp +zetaHave (disch := decide) only [↓keepsBut_sendBleed, ↓keepsBut_updForg, ↓keepsBut_self, ↓keepsBut_ite, implies_true, and_self, and_true, true_and]
      | with_reducible intro _
      | split) h

@[simp ↓] theorem keepsBut_balanceDecision {ps : List Piece} (h : [Piece.links, .tagCtr, .forgs, .recorder] ⊆ ps) (r : State) (g : Nat) (s : State) :
    keepsBut ps r (balanceDecision g s) ↔ keepsBut ps r s :=
  keepsBut_peel (fp := [.links, .tagCtr, .forgs, .recorder]) (by
    unfold balanceDecision
    repeat' first
      | with_reducible exact keepsBut_refl _ _
      | with_reducible refine keepsBut_forEach_of (fun _ _ => ?_) ?_
      | with_reducible refine keepsBut_foldl_of (fun _ _ => ?_) ?_
      | with_reducible refine ⟨fun _ => ?_, fun _ => ?_⟩
      | simp +zetaHave (disch := decide) only [↓keepsBut_balanceString, ↓keepsBut_self, ↓keepsBut_ite, implies_true, and_self, and_true, true_and]
      | with_reducible intro _
      | split) h

/-! ### Thermal -/

@[simp ↓] theorem keepsBut_thermalRound {ps : List Piece} (h : [Piece.surv, .learned, .therm, .recorder] ⊆ ps) (r : State) (s : State) :
    keepsBut ps r (thermalRound s) ↔ keepsBut ps r s :=
  keepsBut_peel (fp := [.surv, .learned, .therm, .recorder]) (by
    unfold thermalRound
    repeat' first
      | with_reducible exact keepsBut_refl _ _
      | with_reducible refine keepsBut_forEach_of (fun _ _ => ?_) ?_
      | with_reducible refine keepsBut_foldl_of (fun _ _ => ?_) ?_
      | with_reducible refine ⟨fun _ => ?_, fun _ => ?_⟩
      | simp +zetaHave (disch := decide) only [↓keepsBut_writeDeferred, ↓keepsBut_stand, ↓keepsBut_modTherm, ↓keepsBut_self, ↓keepsBut_ite, implies_true, and_self, and_true, true_and]
      | with_reducible intro _
      | split) h

@[simp ↓] theorem keepsBut_thermalBrick {ps : List Piece} (h : [Piece.forgs, .recorder] ⊆ ps) (r : State) (j g : Nat) (s : State) :
    keepsBut ps r (thermalBrick j g s) ↔ keepsBut ps r s :=
  keepsBut_peel (fp := [.forgs, .recorder]) (by
    unfold thermalBrick
    repeat' first
      | with_reducible exact keepsBut_refl _ _
      | with_reducible refine keepsBut_forEach_of (fun _ _ => ?_) ?_
      | with_reducible refine keepsBut_foldl_of (fun _ _ => ?_) ?_
      | with_reducible refine ⟨fun _ => ?_, fun _ => ?_⟩
      | simp +zetaHave (disch := decide) only [↓keepsBut_raise, ↓keepsBut_stand, ↓keepsBut_updForg, ↓keepsBut_self, ↓keepsBut_ite, implies_true, and_self, and_true, true_and]
      | with_reducible intro _
      | split) h

@[simp ↓] theorem keepsBut_thermalString {ps : List Piece} (h : [Piece.therm, .recorder] ⊆ ps) (r : State) (n : Nat) (s : State) :
    keepsBut ps r (thermalString n s) ↔ keepsBut ps r s :=
  keepsBut_peel (fp := [.therm, .recorder]) (by
    unfold thermalString
    repeat' first
      | with_reducible exact keepsBut_refl _ _
      | with_reducible refine keepsBut_forEach_of (fun _ _ => ?_) ?_
      | with_reducible refine keepsBut_foldl_of (fun _ _ => ?_) ?_
      | with_reducible refine ⟨fun _ => ?_, fun _ => ?_⟩
      | simp +zetaHave (disch := decide) only [↓keepsBut_stand, ↓keepsBut_updTherm, ↓keepsBut_self, ↓keepsBut_ite, implies_true, and_self, and_true, true_and]
      | with_reducible intro _
      | split) h

@[simp ↓] theorem keepsBut_thermalUpdate {ps : List Piece} (h : [Piece.forgs, .therm, .recorder] ⊆ ps) (r : State) (g : Nat) (s : State) :
    keepsBut ps r (thermalUpdate g s) ↔ keepsBut ps r s :=
  keepsBut_peel (fp := [.forgs, .therm, .recorder]) (by
    unfold thermalUpdate
    repeat' first
      | with_reducible exact keepsBut_refl _ _
      | with_reducible refine keepsBut_forEach_of (fun _ _ => ?_) ?_
      | with_reducible refine keepsBut_foldl_of (fun _ _ => ?_) ?_
      | with_reducible refine ⟨fun _ => ?_, fun _ => ?_⟩
      | simp +zetaHave (disch := decide) only [↓keepsBut_thermalString, ↓keepsBut_thermalBrick, ↓keepsBut_self, ↓keepsBut_ite, implies_true, and_self, and_true, true_and]
      | with_reducible intro _
      | split) h

@[simp ↓] theorem keepsBut_sensorCommit {ps : List Piece} (h : [Piece.forgs, .therm, .recorder] ⊆ ps) (r : State) (old : List (ParamKey × Int)) (s : State) :
    keepsBut ps r (sensorCommit old s) ↔ keepsBut ps r s :=
  keepsBut_peel (fp := [.forgs, .therm, .recorder]) (by
    unfold sensorCommit
    repeat' first
      | with_reducible exact keepsBut_refl _ _
      | with_reducible refine keepsBut_forEach_of (fun _ _ => ?_) ?_
      | with_reducible refine keepsBut_foldl_of (fun _ _ => ?_) ?_
      | with_reducible refine ⟨fun _ => ?_, fun _ => ?_⟩
      | simp +zetaHave (disch := decide) only [↓keepsBut_raise, ↓keepsBut_modTherm, ↓keepsBut_updForg, ↓keepsBut_clear, ↓keepsBut_self, ↓keepsBut_ite, implies_true, and_self, and_true, true_and]
      | with_reducible intro _
      | split) h

end Sys2Proof.Machine
end

