-- ==== Sys2Proof/Laws/FrameControl.lean ====
section
/-!
SUPPORT. FrameControl: what the operations of the regulator, the survey, the connection, the sharing and the guard die leave unchanged.
-/

set_option linter.all false

namespace Sys2Proof.Machine

/-! ### Regulator -/

@[simp ↓] theorem keepsBut_storeRec {ps : List Piece} (h : [Piece.reg] ⊆ ps) (r0 : State) (n : Nat) (r : LaneRec) (s : State) :
    keepsBut ps r0 (storeRec n r s) ↔ keepsBut ps r0 s :=
  keepsBut_peel (fp := [.reg]) (by
    unfold storeRec
    repeat' first
      | with_reducible exact keepsBut_refl _ _
      | with_reducible refine keepsBut_forEach_of (fun _ _ => ?_) ?_
      | with_reducible refine keepsBut_foldl_of (fun _ _ => ?_) ?_
      | with_reducible refine ⟨fun _ => ?_, fun _ => ?_⟩
      | simp +zetaHave (disch := decide) only [↓keepsBut_modReg, ↓keepsBut_self, ↓keepsBut_ite, implies_true, and_self, and_true, true_and]
      | with_reducible intro _
      | split) h

@[simp ↓] theorem keepsBut_loopOff {ps : List Piece} (h : [Piece.est, .reg, .guard, .recorder] ⊆ ps) (r : State) (n : Nat) (goal : LoopSt) (o : Owner) (s : State) :
    keepsBut ps r (loopOff n goal o s) ↔ keepsBut ps r s :=
  keepsBut_peel (fp := [.est, .reg, .guard, .recorder]) (by
    unfold loopOff
    repeat' first
      | with_reducible exact keepsBut_refl _ _
      | with_reducible refine keepsBut_forEach_of (fun _ _ => ?_) ?_
      | with_reducible refine keepsBut_foldl_of (fun _ _ => ?_) ?_
      | with_reducible refine ⟨fun _ => ?_, fun _ => ?_⟩
      | simp +zetaHave (disch := decide) only [↓keepsBut_updLoop, ↓keepsBut_stage, ↓keepsBut_because, ↓keepsBut_clear, ↓keepsBut_self, ↓keepsBut_ite, implies_true, and_self, and_true, true_and]
      | with_reducible intro _
      | split) h

@[simp ↓] theorem keepsBut_loopStart {ps : List Piece} (h : [Piece.est, .reg, .guard, .recorder] ⊆ ps) (r : State) (n : Nat) (i v : Option Rat) (s : State) :
    keepsBut ps r (loopStart n i v s) ↔ keepsBut ps r s :=
  keepsBut_peel (fp := [.est, .reg, .guard, .recorder]) (by
    unfold loopStart
    repeat' first
      | with_reducible exact keepsBut_refl _ _
      | with_reducible refine keepsBut_forEach_of (fun _ _ => ?_) ?_
      | with_reducible refine keepsBut_foldl_of (fun _ _ => ?_) ?_
      | with_reducible refine ⟨fun _ => ?_, fun _ => ?_⟩
      | simp +zetaHave (disch := decide) only [↓keepsBut_updLoop, ↓keepsBut_storeRec, ↓keepsBut_modReg, ↓keepsBut_stage, ↓keepsBut_because, ↓keepsBut_clear, ↓keepsBut_self, ↓keepsBut_ite, implies_true, and_self, and_true, true_and]
      | with_reducible intro _
      | split) h

@[simp ↓] theorem keepsBut_autoTick {ps : List Piece} (h : [Piece.reg, .recorder] ⊆ ps) (r : State) (n t : Nat) (g : GainSet) (q : List (Option Nat)) (hold preset : Bool) (s : State) :
    keepsBut ps r (autoTick n t g q hold preset s) ↔ keepsBut ps r s :=
  keepsBut_peel (fp := [.reg, .recorder]) (by
    unfold autoTick
    repeat' first
      | with_reducible exact keepsBut_refl _ _
      | with_reducible refine keepsBut_forEach_of (fun _ _ => ?_) ?_
      | with_reducible refine keepsBut_foldl_of (fun _ _ => ?_) ?_
      | with_reducible refine ⟨fun _ => ?_, fun _ => ?_⟩
      | simp +zetaHave (disch := decide) only [↓keepsBut_updLoop, ↓keepsBut_storeRec, ↓keepsBut_clear, ↓keepsBut_self, ↓keepsBut_ite, implies_true, and_self, and_true, true_and]
      | with_reducible intro _
      | split) h

@[simp ↓] theorem keepsBut_manualTick {ps : List Piece} (h : [Piece.reg, .recorder] ⊆ ps) (r : State) (n : Nat) (g : GainSet) (q : List (Option Nat)) (hold : Bool) (s : State) :
    keepsBut ps r (manualTick n g q hold s) ↔ keepsBut ps r s :=
  keepsBut_peel (fp := [.reg, .recorder]) (by
    unfold manualTick
    repeat' first
      | with_reducible exact keepsBut_refl _ _
      | with_reducible refine keepsBut_forEach_of (fun _ _ => ?_) ?_
      | with_reducible refine keepsBut_foldl_of (fun _ _ => ?_) ?_
      | with_reducible refine ⟨fun _ => ?_, fun _ => ?_⟩
      | simp +zetaHave (disch := decide) only [↓keepsBut_updLoop, ↓keepsBut_storeRec, ↓keepsBut_clear, ↓keepsBut_self, ↓keepsBut_ite, implies_true, and_self, and_true, true_and]
      | with_reducible intro _
      | split) h

@[simp ↓] theorem keepsBut_lackTick {ps : List Piece} (h : [Piece.reg, .recorder] ⊆ ps) (r : State) (n : Nat) (g : GainSet) (s : State) :
    keepsBut ps r (lackTick n g s) ↔ keepsBut ps r s :=
  keepsBut_peel (fp := [.reg, .recorder]) (by
    unfold lackTick
    repeat' first
      | with_reducible exact keepsBut_refl _ _
      | with_reducible refine keepsBut_forEach_of (fun _ _ => ?_) ?_
      | with_reducible refine keepsBut_foldl_of (fun _ _ => ?_) ?_
      | with_reducible refine ⟨fun _ => ?_, fun _ => ?_⟩
      | simp +zetaHave (disch := decide) only [↓keepsBut_updLoop, ↓keepsBut_stand, ↓keepsBut_storeRec, ↓keepsBut_self, ↓keepsBut_ite, implies_true, and_self, and_true, true_and]
      | with_reducible intro _
      | split) h

@[simp ↓] theorem keepsBut_takeCommands {ps : List Piece} (h : [Piece.reg, .recorder] ⊆ ps) (r : State) (n : Nat) (i : Option Nat) (s : State) :
    keepsBut ps r (takeCommands n i s) ↔ keepsBut ps r s :=
  keepsBut_peel (fp := [.reg, .recorder]) (by
    unfold takeCommands
    repeat' first
      | with_reducible exact keepsBut_refl _ _
      | with_reducible refine keepsBut_forEach_of (fun _ _ => ?_) ?_
      | with_reducible refine keepsBut_foldl_of (fun _ _ => ?_) ?_
      | with_reducible refine ⟨fun _ => ?_, fun _ => ?_⟩
      | simp +zetaHave (disch := decide) only [↓keepsBut_updLoop, ↓keepsBut_stand, ↓keepsBut_because, ↓keepsBut_clear, ↓keepsBut_self, ↓keepsBut_ite, implies_true, and_self, and_true, true_and]
      | with_reducible intro _
      | split) h

@[simp ↓] theorem keepsBut_swapSets {ps : List Piece} (h : [Piece.reg, .recorder] ⊆ ps) (r : State) (n : Nat) (i v : Option Rat) (s : State) :
    keepsBut ps r (swapSets n i v s) ↔ keepsBut ps r s :=
  keepsBut_peel (fp := [.reg, .recorder]) (by
    unfold swapSets
    repeat' first
      | with_reducible exact keepsBut_refl _ _
      | with_reducible refine keepsBut_forEach_of (fun _ _ => ?_) ?_
      | with_reducible refine keepsBut_foldl_of (fun _ _ => ?_) ?_
      | with_reducible refine ⟨fun _ => ?_, fun _ => ?_⟩
      | simp +zetaHave (disch := decide) only [↓keepsBut_because, ↓keepsBut_updLoop, ↓keepsBut_modReg, ↓keepsBut_self, ↓keepsBut_ite, implies_true, and_self, and_true, true_and]
      | with_reducible intro _
      | split) h

@[simp ↓] theorem keepsBut_loopTick {ps : List Piece} (h : [Piece.est, .reg, .guard, .recorder] ⊆ ps) (r : State) (n t : Nat) (q : List (Option Nat)) (hold : Bool) (s : State) :
    keepsBut ps r (loopTick n t q hold s) ↔ keepsBut ps r s :=
  keepsBut_peel (fp := [.est, .reg, .guard, .recorder]) (by
    unfold loopTick
    repeat' first
      | with_reducible exact keepsBut_refl _ _
      | with_reducible refine keepsBut_forEach_of (fun _ _ => ?_) ?_
      | with_reducible refine keepsBut_foldl_of (fun _ _ => ?_) ?_
      | with_reducible refine ⟨fun _ => ?_, fun _ => ?_⟩
      | simp +zetaHave (disch := decide) only [↓keepsBut_swapSets, ↓keepsBut_updLoop, ↓keepsBut_loopStart, ↓keepsBut_autoTick, ↓keepsBut_takeCommands, ↓keepsBut_lackTick, ↓keepsBut_manualTick, ↓keepsBut_loopOff, ↓keepsBut_self, ↓keepsBut_ite, implies_true, and_self, and_true, true_and]
      | with_reducible intro _
      | split) h

@[simp ↓] theorem keepsBut_failLane {ps : List Piece} (h : [Piece.reg] ⊆ ps) (r : State) (k : Nat) (s : State) :
    keepsBut ps r (failLane k s) ↔ keepsBut ps r s :=
  keepsBut_peel (fp := [.reg]) (by
    unfold failLane
    repeat' first
      | with_reducible exact keepsBut_refl _ _
      | with_reducible refine keepsBut_forEach_of (fun _ _ => ?_) ?_
      | with_reducible refine keepsBut_foldl_of (fun _ _ => ?_) ?_
      | with_reducible refine ⟨fun _ => ?_, fun _ => ?_⟩
      | simp +zetaHave (disch := decide) only [↓keepsBut_updLane, ↓keepsBut_self, ↓keepsBut_ite, implies_true, and_self, and_true, true_and]
      | with_reducible intro _
      | split) h

@[simp ↓] theorem keepsBut_stopDisconnects {ps : List Piece} (h : [Piece.disp] ⊆ ps) (r : State) (n : Nat) (s : State) :
    keepsBut ps r (stopDisconnects n s) ↔ keepsBut ps r s :=
  keepsBut_peel (fp := [.disp]) (by
    unfold stopDisconnects
    repeat' first
      | with_reducible exact keepsBut_refl _ _
      | with_reducible refine keepsBut_forEach_of (fun _ _ => ?_) ?_
      | with_reducible refine keepsBut_foldl_of (fun _ _ => ?_) ?_
      | with_reducible refine ⟨fun _ => ?_, fun _ => ?_⟩
      | simp +zetaHave (disch := decide) only [↓keepsBut_updDisp, ↓keepsBut_self, ↓keepsBut_ite, implies_true, and_self, and_true, true_and]
      | with_reducible intro _
      | split) h

@[simp ↓] theorem keepsBut_stopByLane {ps : List Piece} (h : [Piece.est, .reg, .disp, .guard, .recorder] ⊆ ps) (r : State) (n k : Nat) (s : State) :
    keepsBut ps r (stopByLane n k s) ↔ keepsBut ps r s :=
  keepsBut_peel (fp := [.est, .reg, .disp, .guard, .recorder]) (by
    unfold stopByLane
    repeat' first
      | with_reducible exact keepsBut_refl _ _
      | with_reducible refine keepsBut_forEach_of (fun _ _ => ?_) ?_
      | with_reducible refine keepsBut_foldl_of (fun _ _ => ?_) ?_
      | with_reducible refine ⟨fun _ => ?_, fun _ => ?_⟩
      | simp +zetaHave (disch := decide) only [↓keepsBut_updLoop, ↓keepsBut_stand, ↓keepsBut_stopDisconnects, ↓keepsBut_loopOff, ↓keepsBut_failLane, ↓keepsBut_self, ↓keepsBut_ite, implies_true, and_self, and_true, true_and]
      | with_reducible intro _
      | split) h

@[simp ↓] theorem keepsBut_laneFaulty {ps : List Piece} (h : [Piece.reg] ⊆ ps) (r : State) (n : Nat) (s : State) :
    keepsBut ps r (laneFaulty n s) ↔ keepsBut ps r s :=
  keepsBut_peel (fp := [.reg]) (by
    unfold laneFaulty
    repeat' first
      | with_reducible exact keepsBut_refl _ _
      | with_reducible refine keepsBut_forEach_of (fun _ _ => ?_) ?_
      | with_reducible refine keepsBut_foldl_of (fun _ _ => ?_) ?_
      | with_reducible refine ⟨fun _ => ?_, fun _ => ?_⟩
      | simp +zetaHave (disch := decide) only [↓keepsBut_modReg, ↓keepsBut_updLoop, ↓keepsBut_self, ↓keepsBut_ite, implies_true, and_self, and_true, true_and]
      | with_reducible intro _
      | split) h

@[simp ↓] theorem keepsBut_spareFaulty {ps : List Piece} (h : [Piece.reg, .recorder] ⊆ ps) (r : State) (j : Nat) (s : State) :
    keepsBut ps r (spareFaulty j s) ↔ keepsBut ps r s :=
  keepsBut_peel (fp := [.reg, .recorder]) (by
    unfold spareFaulty
    repeat' first
      | with_reducible exact keepsBut_refl _ _
      | with_reducible refine keepsBut_forEach_of (fun _ _ => ?_) ?_
      | with_reducible refine keepsBut_foldl_of (fun _ _ => ?_) ?_
      | with_reducible refine ⟨fun _ => ?_, fun _ => ?_⟩
      | simp +zetaHave (disch := decide) only [↓keepsBut_failLane, ↓keepsBut_stand, ↓keepsBut_self, ↓keepsBut_ite, implies_true, and_self, and_true, true_and]
      | with_reducible intro _
      | split) h

@[simp ↓] theorem keepsBut_laneFault {ps : List Piece} (h : [Piece.reg, .recorder, .pwr] ⊆ ps) (r : State) (n : Nat) (chk : LaneCheck) (s : State) :
    keepsBut ps r (laneFault n chk s) ↔ keepsBut ps r s :=
  keepsBut_peel (fp := [.reg, .recorder, .pwr]) (by
    unfold laneFault
    repeat' first
      | with_reducible exact keepsBut_refl _ _
      | with_reducible refine keepsBut_forEach_of (fun _ _ => ?_) ?_
      | with_reducible refine keepsBut_foldl_of (fun _ _ => ?_) ?_
      | with_reducible refine ⟨fun _ => ?_, fun _ => ?_⟩
      | simp +zetaHave (disch := decide) only [↓keepsBut_overrun, ↓keepsBut_raise, ↓keepsBut_spareFaulty, ↓keepsBut_updLane, ↓keepsBut_modReg, ↓keepsBut_laneFaulty, ↓keepsBut_self, ↓keepsBut_ite, implies_true, and_self, and_true, true_and]
      | with_reducible intro _
      | split) h

@[simp ↓] theorem keepsBut_noteMeasures {ps : List Piece} (h : [Piece.est, .surv, .reg] ⊆ ps) (r : State) (n t : Nat) (q : List (Option Nat)) (s : State) :
    keepsBut ps r (noteMeasures n t q s) ↔ keepsBut ps r s :=
  keepsBut_peel (fp := [.est, .surv, .reg]) (by
    unfold noteMeasures
    repeat' first
      | with_reducible exact keepsBut_refl _ _
      | with_reducible refine keepsBut_forEach_of (fun _ _ => ?_) ?_
      | with_reducible refine keepsBut_foldl_of (fun _ _ => ?_) ?_
      | with_reducible refine ⟨fun _ => ?_, fun _ => ?_⟩
      | simp +zetaHave (disch := decide) only [↓keepsBut_modSurv, ↓keepsBut_updLoop, ↓keepsBut_updEst, ↓keepsBut_noteOutputs, ↓keepsBut_self, ↓keepsBut_ite, implies_true, and_self, and_true, true_and]
      | with_reducible intro _
      | split) h

@[simp ↓] theorem keepsBut_latchLoop {ps : List Piece} (h : [Piece.reg] ⊆ ps) (r : State) (n : Nat) (s : State) :
    keepsBut ps r (latchLoop n s) ↔ keepsBut ps r s :=
  keepsBut_peel (fp := [.reg]) (by
    unfold latchLoop
    repeat' first
      | with_reducible exact keepsBut_refl _ _
      | with_reducible refine keepsBut_forEach_of (fun _ _ => ?_) ?_
      | with_reducible refine keepsBut_foldl_of (fun _ _ => ?_) ?_
      | with_reducible refine ⟨fun _ => ?_, fun _ => ?_⟩
      | simp +zetaHave (disch := decide) only [↓keepsBut_updLoop, ↓keepsBut_self, ↓keepsBut_ite, implies_true, and_self, and_true, true_and]
      | with_reducible intro _
      | split) h

@[simp ↓] theorem keepsBut_endWork {ps : List Piece} (h : [Piece.reg] ⊆ ps) (r : State) (n k : Nat) (s : State) :
    keepsBut ps r (endWork n k s) ↔ keepsBut ps r s :=
  keepsBut_peel (fp := [.reg]) (by
    unfold endWork
    repeat' first
      | with_reducible exact keepsBut_refl _ _
      | with_reducible refine keepsBut_forEach_of (fun _ _ => ?_) ?_
      | with_reducible refine keepsBut_foldl_of (fun _ _ => ?_) ?_
      | with_reducible refine ⟨fun _ => ?_, fun _ => ?_⟩
      | simp +zetaHave (disch := decide) only [↓keepsBut_updLoop, ↓keepsBut_latchLoop, ↓keepsBut_self, ↓keepsBut_ite, implies_true, and_self, and_true, true_and]
      | with_reducible intro _
      | split) h

@[simp ↓] theorem keepsBut_requalify {ps : List Piece} (h : [Piece.reg, .recorder] ⊆ ps) (r : State) (k : Nat) (s : State) :
    keepsBut ps r (requalify k s) ↔ keepsBut ps r s :=
  keepsBut_peel (fp := [.reg, .recorder]) (by
    unfold requalify
    repeat' first
      | with_reducible exact keepsBut_refl _ _
      | with_reducible refine keepsBut_forEach_of (fun _ _ => ?_) ?_
      | with_reducible refine keepsBut_foldl_of (fun _ _ => ?_) ?_
      | with_reducible refine ⟨fun _ => ?_, fun _ => ?_⟩
      | simp +zetaHave (disch := decide) only [↓keepsBut_raise, ↓keepsBut_updLoop, ↓keepsBut_updLane, ↓keepsBut_clear, ↓keepsBut_self, ↓keepsBut_ite, implies_true, and_self, and_true, true_and]
      | with_reducible intro _
      | split) h

@[simp ↓] theorem keepsBut_spareFrame {ps : List Piece} (h : [Piece.reg] ⊆ ps) (r0 : State) (r : Nat) (s : State) :
    keepsBut ps r0 (spareFrame r s) ↔ keepsBut ps r0 s :=
  keepsBut_peel (fp := [.reg]) (by
    unfold spareFrame
    repeat' first
      | with_reducible exact keepsBut_refl _ _
      | with_reducible refine keepsBut_forEach_of (fun _ _ => ?_) ?_
      | with_reducible refine keepsBut_foldl_of (fun _ _ => ?_) ?_
      | with_reducible refine ⟨fun _ => ?_, fun _ => ?_⟩
      | simp +zetaHave (disch := decide) only [↓keepsBut_updLane, ↓keepsBut_modReg, ↓keepsBut_self, ↓keepsBut_ite, implies_true, and_self, and_true, true_and]
      | with_reducible intro _
      | split) h

@[simp ↓] theorem keepsBut_regulatorFrame {ps : List Piece} (h : [Piece.reg, .recorder] ⊆ ps) (r : State) (late : Bool) (s : State) :
    keepsBut ps r (regulatorFrame late s) ↔ keepsBut ps r s :=
  keepsBut_peel (fp := [.reg, .recorder]) (by
    unfold regulatorFrame
    repeat' first
      | with_reducible exact keepsBut_refl _ _
      | with_reducible refine keepsBut_forEach_of (fun _ _ => ?_) ?_
      | with_reducible refine keepsBut_foldl_of (fun _ _ => ?_) ?_
      | with_reducible refine ⟨fun _ => ?_, fun _ => ?_⟩
      | simp +zetaHave (disch := decide) only [↓keepsBut_updLoop, ↓keepsBut_stand, ↓keepsBut_spareFrame, ↓keepsBut_clear, ↓keepsBut_self, ↓keepsBut_ite, implies_true, and_self, and_true, true_and]
      | with_reducible intro _
      | split) h

@[simp ↓] theorem keepsBut_anaTick {ps : List Piece} (h : [Piece.reg] ⊆ ps) (r : State) (t : Nat) (d : Density) (s : State) :
    keepsBut ps r (anaTick t d s) ↔ keepsBut ps r s :=
  keepsBut_peel (fp := [.reg]) (by
    unfold anaTick
    repeat' first
      | with_reducible exact keepsBut_refl _ _
      | with_reducible refine keepsBut_forEach_of (fun _ _ => ?_) ?_
      | with_reducible refine keepsBut_foldl_of (fun _ _ => ?_) ?_
      | with_reducible refine ⟨fun _ => ?_, fun _ => ?_⟩
      | simp +zetaHave (disch := decide) only [↓keepsBut_modReg, ↓keepsBut_self, ↓keepsBut_ite, implies_true, and_self, and_true, true_and]
      | with_reducible intro _
      | split) h

@[simp ↓] theorem keepsBut_noteRefs {ps : List Piece} (h : [Piece.recorder] ⊆ ps) (r : State) (x : RegTables) (s : State) :
    keepsBut ps r (noteRefs x s) ↔ keepsBut ps r s :=
  keepsBut_peel (fp := [.recorder]) (by
    unfold noteRefs
    repeat' first
      | with_reducible exact keepsBut_refl _ _
      | with_reducible refine keepsBut_forEach_of (fun _ _ => ?_) ?_
      | with_reducible refine keepsBut_foldl_of (fun _ _ => ?_) ?_
      | with_reducible refine ⟨fun _ => ?_, fun _ => ?_⟩
      | simp +zetaHave (disch := decide) only [↓keepsBut_because, ↓keepsBut_self, ↓keepsBut_ite, implies_true, and_self, and_true, true_and]
      | with_reducible intro _
      | split) h

@[simp ↓] theorem keepsBut_swapTables {ps : List Piece} (h : [Piece.reg, .disp, .recorder] ⊆ ps) (r : State) (s : State) :
    keepsBut ps r (swapTables s) ↔ keepsBut ps r s :=
  keepsBut_peel (fp := [.reg, .disp, .recorder]) (by
    unfold swapTables
    repeat' first
      | with_reducible exact keepsBut_refl _ _
      | with_reducible refine keepsBut_forEach_of (fun _ _ => ?_) ?_
      | with_reducible refine keepsBut_foldl_of (fun _ _ => ?_) ?_
      | with_reducible refine ⟨fun _ => ?_, fun _ => ?_⟩
      | simp +zetaHave (disch := decide) only [↓keepsBut_modReg, ↓keepsBut_modDisp, ↓keepsBut_noteRefs, ↓keepsBut_self, ↓keepsBut_ite, implies_true, and_self, and_true, true_and]
      | with_reducible intro _
      | split) h

@[simp ↓] theorem keepsBut_stopDue {ps : List Piece} (h : [Piece.est, .reg, .disp, .guard, .recorder] ⊆ ps) (r : State) (k n : Nat) (s : State) :
    keepsBut ps r (stopDue k n s) ↔ keepsBut ps r s :=
  keepsBut_peel (fp := [.est, .reg, .disp, .guard, .recorder]) (by
    unfold stopDue
    repeat' first
      | with_reducible exact keepsBut_refl _ _
      | with_reducible refine keepsBut_forEach_of (fun _ _ => ?_) ?_
      | with_reducible refine keepsBut_foldl_of (fun _ _ => ?_) ?_
      | with_reducible refine ⟨fun _ => ?_, fun _ => ?_⟩
      | simp +zetaHave (disch := decide) only [↓keepsBut_stopByLane, ↓keepsBut_latchLoop, ↓keepsBut_self, ↓keepsBut_ite, implies_true, and_self, and_true, true_and]
      | with_reducible intro _
      | split) h

@[simp ↓] theorem keepsBut_cmdManualDuty {ps : List Piece} (h : [Piece.reg, .recorder] ⊆ ps) (r : State) (n duty : Nat) (s : State) :
    keepsBut ps r (cmdManualDuty n duty s).1 ↔ keepsBut ps r s :=
  keepsBut_peel (fp := [.reg, .recorder]) (by
    unfold cmdManualDuty
    repeat' first
      | with_reducible exact keepsBut_refl _ _
      | with_reducible refine keepsBut_forEach_of (fun _ _ => ?_) ?_
      | with_reducible refine keepsBut_foldl_of (fun _ _ => ?_) ?_
      | with_reducible refine ⟨fun _ => ?_, fun _ => ?_⟩
      | simp +zetaHave (disch := decide) only [↓keepsBut_accept, ↓keepsBut_updLoop, ↓keepsBut_refuse, ↓keepsBut_self, ↓keepsBut_ite, implies_true, and_self, and_true, true_and]
      | with_reducible intro _
      | split) h

@[simp ↓] theorem keepsBut_cmdAutomatic {ps : List Piece} (h : [Piece.reg, .recorder] ⊆ ps) (r : State) (n : Nat) (s : State) :
    keepsBut ps r (cmdAutomatic n s).1 ↔ keepsBut ps r s :=
  keepsBut_peel (fp := [.reg, .recorder]) (by
    unfold cmdAutomatic
    repeat' first
      | with_reducible exact keepsBut_refl _ _
      | with_reducible refine keepsBut_forEach_of (fun _ _ => ?_) ?_
      | with_reducible refine keepsBut_foldl_of (fun _ _ => ?_) ?_
      | with_reducible refine ⟨fun _ => ?_, fun _ => ?_⟩
      | simp +zetaHave (disch := decide) only [↓keepsBut_accept, ↓keepsBut_updLoop, ↓keepsBut_refuse, ↓keepsBut_self, ↓keepsBut_ite, implies_true, and_self, and_true, true_and]
      | with_reducible intro _
      | split) h

@[simp ↓] theorem keepsBut_leaveManual {ps : List Piece} (h : [Piece.reg] ⊆ ps) (r : State) (s : State) :
    keepsBut ps r (leaveManual s) ↔ keepsBut ps r s :=
  keepsBut_peel (fp := [.reg]) (by
    unfold leaveManual
    repeat' first
      | with_reducible exact keepsBut_refl _ _
      | with_reducible refine keepsBut_forEach_of (fun _ _ => ?_) ?_
      | with_reducible refine keepsBut_foldl_of (fun _ _ => ?_) ?_
      | with_reducible refine ⟨fun _ => ?_, fun _ => ?_⟩
      | simp +zetaHave (disch := decide) only [↓keepsBut_modReg, ↓keepsBut_self, ↓keepsBut_ite, implies_true, and_self, and_true, true_and]
      | with_reducible intro _
      | split) h

@[simp ↓] theorem keepsBut_sampleString {ps : List Piece} (h : [Piece.est, .reg] ⊆ ps) (r : State) (n : Nat) (net : List Int) (k : Nat) (ch : List Density) (interval : Nat) (s : State) :
    keepsBut ps r (sampleString n net k ch interval s) ↔ keepsBut ps r s :=
  keepsBut_peel (fp := [.est, .reg]) (by
    unfold sampleString
    repeat' first
      | with_reducible exact keepsBut_refl _ _
      | with_reducible refine keepsBut_forEach_of (fun _ _ => ?_) ?_
      | with_reducible refine keepsBut_foldl_of (fun _ _ => ?_) ?_
      | with_reducible refine ⟨fun _ => ?_, fun _ => ?_⟩
      | simp +zetaHave (disch := decide) only [↓keepsBut_updLoop, ↓keepsBut_updEst, ↓keepsBut_latchLoop, ↓keepsBut_self, ↓keepsBut_ite, implies_true, and_self, and_true, true_and]
      | with_reducible intro _
      | split) h

@[simp ↓] theorem keepsBut_shiftLatches {ps : List Piece} (h : [Piece.est] ⊆ ps) (r : State) (s : State) :
    keepsBut ps r (shiftLatches s) ↔ keepsBut ps r s :=
  keepsBut_peel (fp := [.est]) (by
    unfold shiftLatches
    repeat' first
      | with_reducible exact keepsBut_refl _ _
      | with_reducible refine keepsBut_forEach_of (fun _ _ => ?_) ?_
      | with_reducible refine keepsBut_foldl_of (fun _ _ => ?_) ?_
      | with_reducible refine ⟨fun _ => ?_, fun _ => ?_⟩
      | simp +zetaHave (disch := decide) only [↓keepsBut_modEst, ↓keepsBut_self, ↓keepsBut_ite, implies_true, and_self, and_true, true_and]
      | with_reducible intro _
      | split) h

@[simp ↓] theorem keepsBut_asDue {ps : List Piece} (h : [Piece.boot] ⊆ ps) (r : State) (s : State) :
    keepsBut ps r (asDue s) ↔ keepsBut ps r s :=
  keepsBut_peel (fp := [.boot]) (by
    unfold asDue
    repeat' first
      | with_reducible exact keepsBut_refl _ _
      | with_reducible refine keepsBut_forEach_of (fun _ _ => ?_) ?_
      | with_reducible refine keepsBut_foldl_of (fun _ _ => ?_) ?_
      | with_reducible refine ⟨fun _ => ?_, fun _ => ?_⟩
      | simp +zetaHave (disch := decide) only [↓keepsBut_modBoot, ↓keepsBut_self, ↓keepsBut_ite, implies_true, and_self, and_true, true_and]
      | with_reducible intro _
      | split) h

@[simp ↓] theorem keepsBut_placeSample {ps : List Piece} (h : [Piece.time, .recorder, .boot] ⊆ ps) (r : State) (s : State) :
    keepsBut ps r (placeSample s) ↔ keepsBut ps r s :=
  keepsBut_peel (fp := [.time, .recorder, .boot]) (by
    unfold placeSample
    repeat' first
      | with_reducible exact keepsBut_refl _ _
      | with_reducible refine keepsBut_forEach_of (fun _ _ => ?_) ?_
      | with_reducible refine keepsBut_foldl_of (fun _ _ => ?_) ?_
      | with_reducible refine ⟨fun _ => ?_, fun _ => ?_⟩
      | simp +zetaHave (disch := decide) only [↓keepsBut_modTime, ↓keepsBut_stand, ↓keepsBut_asDue, ↓keepsBut_clear, ↓keepsBut_self, ↓keepsBut_ite, implies_true, and_self, and_true, true_and]
      | with_reducible intro _
      | split) h

/-! ### Survey -/

@[simp ↓] theorem keepsBut_cmdStartImp {ps : List Piece} (h : [Piece.surv, .recorder] ⊆ ps) (r : State) (o : Owner) (n : Nat) (s : State) :
    keepsBut ps r (cmdStartImp o n s).1 ↔ keepsBut ps r s :=
  keepsBut_peel (fp := [.surv, .recorder]) (by
    unfold cmdStartImp
    repeat' first
      | with_reducible exact keepsBut_refl _ _
      | with_reducible refine keepsBut_forEach_of (fun _ _ => ?_) ?_
      | with_reducible refine keepsBut_foldl_of (fun _ _ => ?_) ?_
      | with_reducible refine ⟨fun _ => ?_, fun _ => ?_⟩
      | simp +zetaHave (disch := decide) only [↓keepsBut_accept, ↓keepsBut_modSurv, ↓keepsBut_refuse, ↓keepsBut_self, ↓keepsBut_ite, implies_true, and_self, and_true, true_and]
      | with_reducible intro _
      | split) h

@[simp ↓] theorem keepsBut_noteSurvey {ps : List Piece} (h : [Piece.recorder] ⊆ ps) (r : State) (v : ImpSurvey) (s : State) :
    keepsBut ps r (noteSurvey v s) ↔ keepsBut ps r s :=
  keepsBut_peel (fp := [.recorder]) (by
    unfold noteSurvey
    repeat' first
      | with_reducible exact keepsBut_refl _ _
      | with_reducible refine (keepsBut_because (by decide) ..).2 ?_
      | with_reducible refine keepsBut_forEach_of (fun _ _ => ?_) ?_
      | with_reducible refine keepsBut_ite_of ?_ ?_
      | extract_lets
      | split
      | with_reducible intro _
      | dsimp only) h

@[simp ↓] theorem keepsBut_abortImp {ps : List Piece} (h : [Piece.links, .tagCtr, .forgs, .surv, .learned, .recorder] ⊆ ps) (r : State) (cause : Nat) (s : State) :
    keepsBut ps r (abortImp cause s) ↔ keepsBut ps r s :=
  keepsBut_peel (fp := [.links, .tagCtr, .forgs, .surv, .learned, .recorder]) (by
    unfold abortImp
    repeat' first
      | with_reducible exact keepsBut_refl _ _
      | with_reducible refine keepsBut_forEach_of (fun _ _ => ?_) ?_
      | with_reducible refine keepsBut_foldl_of (fun _ _ => ?_) ?_
      | with_reducible refine ⟨fun _ => ?_, fun _ => ?_⟩
      | simp +zetaHave (disch := decide) only [↓keepsBut_noteSurvey, ↓keepsBut_modSurv, ↓keepsBut_raise, ↓keepsBut_writeLearned, ↓keepsBut_updLink, ↓keepsBut_updForg, ↓keepsBut_queueCmd, ↓keepsBut_self, ↓keepsBut_ite, implies_true, and_self, and_true, true_and]
      | with_reducible intro _
      | split) h

@[simp ↓] theorem keepsBut_cmdAbortImp {ps : List Piece} (h : [Piece.links, .tagCtr, .forgs, .surv, .learned, .recorder] ⊆ ps) (r : State) (s : State) :
    keepsBut ps r (cmdAbortImp s).1 ↔ keepsBut ps r s :=
  keepsBut_peel (fp := [.links, .tagCtr, .forgs, .surv, .learned, .recorder]) (by
    unfold cmdAbortImp
    repeat' first
      | with_reducible exact keepsBut_refl _ _
      | with_reducible refine keepsBut_forEach_of (fun _ _ => ?_) ?_
      | with_reducible refine keepsBut_foldl_of (fun _ _ => ?_) ?_
      | with_reducible refine ⟨fun _ => ?_, fun _ => ?_⟩
      | simp +zetaHave (disch := decide) only [↓keepsBut_abortImp, ↓keepsBut_accept, ↓keepsBut_self, ↓keepsBut_ite, implies_true, and_self, and_true, true_and]
      | with_reducible intro _
      | split) h

@[simp ↓] theorem keepsBut_healthEvents {ps : List Piece} (h : [Piece.recorder] ⊆ ps) (r : State) (cells : List Nat) (s : State) :
    keepsBut ps r (healthEvents cells s) ↔ keepsBut ps r s :=
  keepsBut_peel (fp := [.recorder]) (by
    unfold healthEvents
    repeat' first
      | with_reducible exact keepsBut_refl _ _
      | with_reducible refine keepsBut_forEach_of (fun _ _ => ?_) ?_
      | with_reducible refine keepsBut_foldl_of (fun _ _ => ?_) ?_
      | with_reducible refine ⟨fun _ => ?_, fun _ => ?_⟩
      | simp +zetaHave (disch := decide) only [↓keepsBut_stand, ↓keepsBut_self, ↓keepsBut_ite, implies_true, and_self, and_true, true_and]
      | with_reducible intro _
      | split) h

@[simp ↓] theorem keepsBut_impTableSwap {ps : List Piece} (h : [Piece.cells, .surv, .learned, .recorder] ⊆ ps) (r : State) (s : State) :
    keepsBut ps r (impTableSwap s) ↔ keepsBut ps r s :=
  keepsBut_peel (fp := [.cells, .surv, .learned, .recorder]) (by
    unfold impTableSwap
    repeat' first
      | with_reducible exact keepsBut_refl _ _
      | with_reducible refine keepsBut_forEach_of (fun _ _ => ?_) ?_
      | with_reducible refine keepsBut_foldl_of (fun _ _ => ?_) ?_
      | with_reducible refine ⟨fun _ => ?_, fun _ => ?_⟩
      | simp +zetaHave (disch := decide) only [↓keepsBut_writeAfter, ↓keepsBut_modSurv, ↓keepsBut_raise, ↓keepsBut_writeLearned, ↓keepsBut_healthEvents, ↓keepsBut_updCell, ↓keepsBut_self, ↓keepsBut_ite, implies_true, and_self, and_true, true_and]
      | with_reducible intro _
      | split) h

@[simp ↓] theorem keepsBut_surveyFrame {ps : List Piece} (h : [Piece.links, .tagCtr, .forgs, .cells, .surv, .learned, .recorder] ⊆ ps) (r : State) (s : State) :
    keepsBut ps r (surveyFrame s) ↔ keepsBut ps r s :=
  keepsBut_peel (fp := [.links, .tagCtr, .forgs, .cells, .surv, .learned, .recorder]) (by
    unfold surveyFrame
    repeat' first
      | with_reducible exact keepsBut_refl _ _
      | with_reducible refine (keepsBut_modForgs (by decide) ..).2 ?_
      | with_reducible refine (keepsBut_noteSurvey (by decide) ..).2 ?_
      | with_reducible refine (keepsBut_impTableSwap (by decide) ..).2 ?_
      | with_reducible refine (keepsBut_abortImp (by decide) ..).2 ?_
      | with_reducible refine (keepsBut_updForg (by decide) ..).2 ?_
      | with_reducible refine (keepsBut_modSurv (by decide) ..).2 ?_
      | with_reducible refine keepsBut_forEach_of (fun _ _ => ?_) ?_
      | with_reducible refine keepsBut_foldl_of (fun _ _ => ?_) ?_
      | with_reducible refine keepsBut_foldl_fst_of (fun _ _ => ?_) ?_
      | with_reducible refine keepsBut_ite_of ?_ ?_
      | with_reducible refine keepsBut_ite_fst_of ?_ ?_
      | extract_lets
      | split
      | with_reducible intro _
      | dsimp only
      | (dsimp +zetaDelta only; split)) h

@[simp ↓] theorem keepsBut_surveyWatch {ps : List Piece} (h : [Piece.surv] ⊆ ps) (r : State) (g : Nat) (s : State) :
    keepsBut ps r (surveyWatch g s) ↔ keepsBut ps r s :=
  keepsBut_peel (fp := [.surv]) (by
    unfold surveyWatch
    repeat' first
      | with_reducible exact keepsBut_refl _ _
      | with_reducible refine keepsBut_forEach_of (fun _ _ => ?_) ?_
      | with_reducible refine keepsBut_foldl_of (fun _ _ => ?_) ?_
      | with_reducible refine ⟨fun _ => ?_, fun _ => ?_⟩
      | simp +zetaHave (disch := decide) only [↓keepsBut_modSurv, ↓keepsBut_self, ↓keepsBut_ite, implies_true, and_self, and_true, true_and]
      | with_reducible intro _
      | split) h

@[simp ↓] theorem keepsBut_cmdStartCap {ps : List Piece} (h : [Piece.est, .surv, .recorder] ⊆ ps) (r : State) (o : Owner) (n : Nat) (s : State) :
    keepsBut ps r (cmdStartCap o n s).1 ↔ keepsBut ps r s :=
  keepsBut_peel (fp := [.est, .surv, .recorder]) (by
    unfold cmdStartCap
    repeat' first
      | with_reducible exact keepsBut_refl _ _
      | with_reducible refine keepsBut_forEach_of (fun _ _ => ?_) ?_
      | with_reducible refine keepsBut_foldl_of (fun _ _ => ?_) ?_
      | with_reducible refine ⟨fun _ => ?_, fun _ => ?_⟩
      | simp +zetaHave (disch := decide) only [↓keepsBut_accept, ↓keepsBut_modSurv, ↓keepsBut_refuse, ↓keepsBut_setRegime, ↓keepsBut_self, ↓keepsBut_ite, implies_true, and_self, and_true, true_and]
      | with_reducible intro _
      | split) h

@[simp ↓] theorem keepsBut_abortCap {ps : List Piece} (h : [Piece.est, .surv, .learned, .recorder] ⊆ ps) (r : State) (cause : Nat) (s : State) :
    keepsBut ps r (abortCap cause s) ↔ keepsBut ps r s :=
  keepsBut_peel (fp := [.est, .surv, .learned, .recorder]) (by
    unfold abortCap
    repeat' first
      | with_reducible exact keepsBut_refl _ _
      | with_reducible refine keepsBut_forEach_of (fun _ _ => ?_) ?_
      | with_reducible refine keepsBut_foldl_of (fun _ _ => ?_) ?_
      | with_reducible refine ⟨fun _ => ?_, fun _ => ?_⟩
      | simp +zetaHave (disch := decide) only [↓keepsBut_writeLearned, ↓keepsBut_stopCap, ↓keepsBut_self, ↓keepsBut_ite, implies_true, and_self, and_true, true_and]
      | with_reducible intro _
      | split) h

@[simp ↓] theorem keepsBut_cmdAbortCap {ps : List Piece} (h : [Piece.est, .surv, .learned, .recorder] ⊆ ps) (r : State) (s : State) :
    keepsBut ps r (cmdAbortCap s).1 ↔ keepsBut ps r s :=
  keepsBut_peel (fp := [.est, .surv, .learned, .recorder]) (by
    unfold cmdAbortCap
    repeat' first
      | with_reducible exact keepsBut_refl _ _
      | with_reducible refine keepsBut_forEach_of (fun _ _ => ?_) ?_
      | with_reducible refine keepsBut_foldl_of (fun _ _ => ?_) ?_
      | with_reducible refine ⟨fun _ => ?_, fun _ => ?_⟩
      | simp +zetaHave (disch := decide) only [↓keepsBut_accept, ↓keepsBut_abortCap, ↓keepsBut_self, ↓keepsBut_ite, implies_true, and_self, and_true, true_and]
      | with_reducible intro _
      | split) h

@[simp ↓] theorem keepsBut_cmdWriteLearned {ps : List Piece} (h : [Piece.surv, .learned, .recorder] ⊆ ps) (r : State) (strings : Nat) (s : State) :
    keepsBut ps r (cmdWriteLearned strings s).1 ↔ keepsBut ps r s :=
  keepsBut_peel (fp := [.surv, .learned, .recorder]) (by
    unfold cmdWriteLearned
    repeat' first
      | with_reducible exact keepsBut_refl _ _
      | with_reducible refine keepsBut_forEach_of (fun _ _ => ?_) ?_
      | with_reducible refine keepsBut_foldl_of (fun _ _ => ?_) ?_
      | with_reducible refine ⟨fun _ => ?_, fun _ => ?_⟩
      | simp +zetaHave (disch := decide) only [↓keepsBut_accept, ↓keepsBut_writeLearned, ↓keepsBut_self, ↓keepsBut_ite, implies_true, and_self, and_true, true_and]
      | with_reducible intro _
      | split) h

/-! ### Connect -/

@[simp ↓] theorem keepsBut_reqCtr {ps : List Piece} (h : [Piece.est, .disp, .guard, .recorder] ⊆ ps) (r : State) (n : Nat) (f : DispStr → DispStr) (s : State) :
    keepsBut ps r (reqCtr n f s) ↔ keepsBut ps r s :=
  keepsBut_peel (fp := [.est, .disp, .guard, .recorder]) (by
    unfold reqCtr
    repeat' first
      | with_reducible exact keepsBut_refl _ _
      | with_reducible refine keepsBut_forEach_of (fun _ _ => ?_) ?_
      | with_reducible refine keepsBut_foldl_of (fun _ _ => ?_) ?_
      | with_reducible refine ⟨fun _ => ?_, fun _ => ?_⟩
      | simp +zetaHave (disch := decide) only [↓keepsBut_because, ↓keepsBut_updDisp, ↓keepsBut_stage, ↓keepsBut_self, ↓keepsBut_ite, implies_true, and_self, and_true, true_and]
      | with_reducible intro _
      | split) h

@[simp ↓] theorem keepsBut_setOpen {ps : List Piece} (h : [Piece.disp, .recorder] ⊆ ps) (r : State) (n : Nat) (s : State) :
    keepsBut ps r (setOpen n s) ↔ keepsBut ps r s :=
  keepsBut_peel (fp := [.disp, .recorder]) (by
    unfold setOpen
    repeat' first
      | with_reducible exact keepsBut_refl _ _
      | with_reducible refine keepsBut_forEach_of (fun _ _ => ?_) ?_
      | with_reducible refine keepsBut_foldl_of (fun _ _ => ?_) ?_
      | with_reducible refine ⟨fun _ => ?_, fun _ => ?_⟩
      | simp +zetaHave (disch := decide) only [↓keepsBut_updDisp, ↓keepsBut_clear, ↓keepsBut_self, ↓keepsBut_ite, implies_true, and_self, and_true, true_and]
      | with_reducible intro _
      | split) h

@[simp ↓] theorem keepsBut_fbFail {ps : List Piece} (h : [Piece.recorder] ⊆ ps) (r : State) (n : Nat) (s : State) :
    keepsBut ps r (fbFail n s) ↔ keepsBut ps r s :=
  keepsBut_peel (fp := [.recorder]) (by
    unfold fbFail
    repeat' first
      | with_reducible exact keepsBut_refl _ _
      | with_reducible refine keepsBut_forEach_of (fun _ _ => ?_) ?_
      | with_reducible refine keepsBut_foldl_of (fun _ _ => ?_) ?_
      | with_reducible refine ⟨fun _ => ?_, fun _ => ?_⟩
      | simp +zetaHave (disch := decide) only [↓keepsBut_raise, ↓keepsBut_self, ↓keepsBut_ite, implies_true, and_self, and_true, true_and]
      | with_reducible intro _
      | split) h

@[simp ↓] theorem keepsBut_orderConnect {ps : List Piece} (h : [Piece.disp, .recorder] ⊆ ps) (r : State) (o : Owner) (n : Nat) (s : State) :
    keepsBut ps r (orderConnect o n s).1 ↔ keepsBut ps r s :=
  keepsBut_peel (fp := [.disp, .recorder]) (by
    unfold orderConnect
    repeat' first
      | with_reducible exact keepsBut_refl _ _
      | with_reducible refine keepsBut_forEach_of (fun _ _ => ?_) ?_
      | with_reducible refine keepsBut_foldl_of (fun _ _ => ?_) ?_
      | with_reducible refine ⟨fun _ => ?_, fun _ => ?_⟩
      | simp +zetaHave (disch := decide) only [↓keepsBut_accept, ↓keepsBut_updDisp, ↓keepsBut_refuse, ↓keepsBut_self, ↓keepsBut_ite, implies_true, and_self, and_true, true_and]
      | with_reducible intro _
      | split) h

@[simp ↓] theorem keepsBut_cmdConnect {ps : List Piece} (h : [Piece.disp, .recorder] ⊆ ps) (r : State) (n : Nat) (s : State) :
    keepsBut ps r (cmdConnect n s).1 ↔ keepsBut ps r s :=
  keepsBut_peel (fp := [.disp, .recorder]) (by
    unfold cmdConnect
    repeat' first
      | with_reducible exact keepsBut_refl _ _
      | with_reducible refine keepsBut_forEach_of (fun _ _ => ?_) ?_
      | with_reducible refine keepsBut_foldl_of (fun _ _ => ?_) ?_
      | with_reducible refine ⟨fun _ => ?_, fun _ => ?_⟩
      | simp +zetaHave (disch := decide) only [↓keepsBut_orderConnect, ↓keepsBut_self, ↓keepsBut_ite, implies_true, and_self, and_true, true_and]
      | with_reducible intro _
      | split) h

@[simp ↓] theorem keepsBut_cmdDisconnect {ps : List Piece} (h : [Piece.disp] ⊆ ps) (r : State) (n : Nat) (s : State) :
    keepsBut ps r (cmdDisconnect n s).1 ↔ keepsBut ps r s :=
  keepsBut_peel (fp := [.disp]) (by
    unfold cmdDisconnect
    repeat' first
      | with_reducible exact keepsBut_refl _ _
      | with_reducible refine keepsBut_forEach_of (fun _ _ => ?_) ?_
      | with_reducible refine keepsBut_foldl_of (fun _ _ => ?_) ?_
      | with_reducible refine ⟨fun _ => ?_, fun _ => ?_⟩
      | simp +zetaHave (disch := decide) only [↓keepsBut_accept, ↓keepsBut_updDisp, ↓keepsBut_self, ↓keepsBut_ite, implies_true, and_self, and_true, true_and]
      | with_reducible intro _
      | split) h

@[simp ↓] theorem keepsBut_cmdClearFailed {ps : List Piece} (h : [Piece.est, .disp, .guard, .recorder] ⊆ ps) (r : State) (n : Nat) (s : State) :
    keepsBut ps r (cmdClearFailed n s).1 ↔ keepsBut ps r s :=
  keepsBut_peel (fp := [.est, .disp, .guard, .recorder]) (by
    unfold cmdClearFailed
    repeat' first
      | with_reducible exact keepsBut_refl _ _
      | with_reducible refine keepsBut_forEach_of (fun _ _ => ?_) ?_
      | with_reducible refine keepsBut_foldl_of (fun _ _ => ?_) ?_
      | with_reducible refine ⟨fun _ => ?_, fun _ => ?_⟩
      | simp +zetaHave (disch := decide) only [↓keepsBut_accept, ↓keepsBut_setOpen, ↓keepsBut_refuse, ↓keepsBut_reqCtr, ↓keepsBut_self, ↓keepsBut_ite, implies_true, and_self, and_true, true_and]
      | with_reducible intro _
      | split) h

@[simp ↓] theorem keepsBut_autoConnect {ps : List Piece} (h : [Piece.disp, .recorder] ⊆ ps) (r : State) (s : State) :
    keepsBut ps r (autoConnect s) ↔ keepsBut ps r s :=
  keepsBut_peel (fp := [.disp, .recorder]) (by
    unfold autoConnect
    repeat' first
      | with_reducible exact keepsBut_refl _ _
      | with_reducible refine keepsBut_forEach_of (fun _ _ => ?_) ?_
      | with_reducible refine keepsBut_foldl_of (fun _ _ => ?_) ?_
      | with_reducible refine ⟨fun _ => ?_, fun _ => ?_⟩
      | simp +zetaHave (disch := decide) only [↓keepsBut_orderConnect, ↓keepsBut_self, ↓keepsBut_ite, implies_true, and_self, and_true, true_and]
      | with_reducible intro _
      | split) h

@[simp ↓] theorem keepsBut_noteFeedback {ps : List Piece} (h : [Piece.disp] ⊆ ps) (r : State) (n : Nat) (s : State) :
    keepsBut ps r (noteFeedback n s) ↔ keepsBut ps r s :=
  keepsBut_peel (fp := [.disp]) (by
    unfold noteFeedback
    repeat' first
      | with_reducible exact keepsBut_refl _ _
      | with_reducible refine keepsBut_forEach_of (fun _ _ => ?_) ?_
      | with_reducible refine keepsBut_foldl_of (fun _ _ => ?_) ?_
      | with_reducible refine ⟨fun _ => ?_, fun _ => ?_⟩
      | simp +zetaHave (disch := decide) only [↓keepsBut_updDisp, ↓keepsBut_self, ↓keepsBut_ite, implies_true, and_self, and_true, true_and]
      | with_reducible intro _
      | split) h

@[simp ↓] theorem keepsBut_failConnection {ps : List Piece} (h : [Piece.disp, .recorder] ⊆ ps) (r : State) (code n : Nat) (s : State) :
    keepsBut ps r (failConnection code n s) ↔ keepsBut ps r s :=
  keepsBut_peel (fp := [.disp, .recorder]) (by
    unfold failConnection
    repeat' first
      | with_reducible exact keepsBut_refl _ _
      | with_reducible refine keepsBut_forEach_of (fun _ _ => ?_) ?_
      | with_reducible refine keepsBut_foldl_of (fun _ _ => ?_) ?_
      | with_reducible refine ⟨fun _ => ?_, fun _ => ?_⟩
      | simp +zetaHave (disch := decide) only [↓keepsBut_updDisp, ↓keepsBut_raise, ↓keepsBut_self, ↓keepsBut_ite, implies_true, and_self, and_true, true_and]
      | with_reducible intro _
      | split) h

@[simp ↓] theorem keepsBut_beginDisconnect {ps : List Piece} (h : [Piece.disp] ⊆ ps) (r : State) (n : Nat) (s : State) :
    keepsBut ps r (beginDisconnect n s) ↔ keepsBut ps r s :=
  keepsBut_peel (fp := [.disp]) (by
    unfold beginDisconnect
    repeat' first
      | with_reducible exact keepsBut_refl _ _
      | with_reducible refine keepsBut_forEach_of (fun _ _ => ?_) ?_
      | with_reducible refine keepsBut_foldl_of (fun _ _ => ?_) ?_
      | with_reducible refine ⟨fun _ => ?_, fun _ => ?_⟩
      | simp +zetaHave (disch := decide) only [↓keepsBut_updDisp, ↓keepsBut_self, ↓keepsBut_ite, implies_true, and_self, and_true, true_and]
      | with_reducible intro _
      | split) h

@[simp ↓] theorem keepsBut_disconnectAll {ps : List Piece} (h : [Piece.disp] ⊆ ps) (r : State) (s : State) :
    keepsBut ps r (disconnectAll s) ↔ keepsBut ps r s :=
  keepsBut_peel (fp := [.disp]) (by
    unfold disconnectAll
    repeat' first
      | with_reducible exact keepsBut_refl _ _
      | with_reducible refine keepsBut_forEach_of (fun _ _ => ?_) ?_
      | with_reducible refine keepsBut_foldl_of (fun _ _ => ?_) ?_
      | with_reducible refine ⟨fun _ => ?_, fun _ => ?_⟩
      | simp +zetaHave (disch := decide) only [↓keepsBut_beginDisconnect, ↓keepsBut_updDisp, ↓keepsBut_self, ↓keepsBut_ite, implies_true, and_self, and_true, true_and]
      | with_reducible intro _
      | split) h

@[simp ↓] theorem keepsBut_permitLoss {ps : List Piece} (h : [Piece.est, .disp, .guard, .recorder] ⊆ ps) (r : State) (n : Nat) (s : State) :
    keepsBut ps r (permitLoss n s) ↔ keepsBut ps r s :=
  keepsBut_peel (fp := [.est, .disp, .guard, .recorder]) (by
    unfold permitLoss
    repeat' first
      | with_reducible exact keepsBut_refl _ _
      | with_reducible refine keepsBut_forEach_of (fun _ _ => ?_) ?_
      | with_reducible refine keepsBut_foldl_of (fun _ _ => ?_) ?_
      | with_reducible refine ⟨fun _ => ?_, fun _ => ?_⟩
      | simp +zetaHave (disch := decide) only [↓keepsBut_updDisp, ↓keepsBut_reqCtr, ↓keepsBut_self, ↓keepsBut_ite, implies_true, and_self, and_true, true_and]
      | with_reducible intro _
      | split) h

@[simp ↓] theorem keepsBut_connectStep {ps : List Piece} (h : [Piece.est, .disp, .guard, .recorder] ⊆ ps) (r : State) (n : Nat) (s0 : State) :
    keepsBut ps r (connectStep n s0) ↔ keepsBut ps r s0 :=
  keepsBut_peel (fp := [.est, .disp, .guard, .recorder]) (by
    unfold connectStep
    repeat' first
      | with_reducible exact keepsBut_refl _ _
      | with_reducible refine keepsBut_forEach_of (fun _ _ => ?_) ?_
      | with_reducible refine keepsBut_foldl_of (fun _ _ => ?_) ?_
      | with_reducible refine ⟨fun _ => ?_, fun _ => ?_⟩
      | simp +zetaHave (disch := decide) only [↓keepsBut_fbFail, ↓keepsBut_raise, ↓keepsBut_setOpen, ↓keepsBut_updDisp, ↓keepsBut_beginDisconnect, ↓keepsBut_permitLoss, ↓keepsBut_reqCtr, ↓keepsBut_noteFeedback, ↓keepsBut_self, ↓keepsBut_ite, implies_true, and_self, and_true, true_and]
      | with_reducible intro _
      | split) h

@[simp ↓] theorem keepsBut_connectFrame {ps : List Piece} (h : [Piece.est, .reg, .disp, .guard, .recorder] ⊆ ps) (r : State) (s : State) :
    keepsBut ps r (connectFrame s) ↔ keepsBut ps r s :=
  keepsBut_peel (fp := [.est, .reg, .disp, .guard, .recorder]) (by
    unfold connectFrame
    repeat' first
      | with_reducible exact keepsBut_refl _ _
      | with_reducible refine keepsBut_forEach_of (fun _ _ => ?_) ?_
      | with_reducible refine keepsBut_foldl_of (fun _ _ => ?_) ?_
      | with_reducible refine ⟨fun _ => ?_, fun _ => ?_⟩
      | simp +zetaHave (disch := decide) only [↓keepsBut_connectStep, ↓keepsBut_modReg, ↓keepsBut_self, ↓keepsBut_ite, implies_true, and_self, and_true, true_and]
      | with_reducible intro _
      | split) h

/-! ### Sharing -/

@[simp ↓] theorem keepsBut_holdHost {ps : List Piece} (h : [Piece.disp, .recorder] ⊆ ps) (r : State) (w : Int) (t : Nat) (s : State) :
    keepsBut ps r (holdHost w t s).1 ↔ keepsBut ps r s :=
  keepsBut_peel (fp := [.disp, .recorder]) (by
    unfold holdHost
    repeat' first
      | with_reducible exact keepsBut_refl _ _
      | with_reducible refine keepsBut_forEach_of (fun _ _ => ?_) ?_
      | with_reducible refine keepsBut_foldl_of (fun _ _ => ?_) ?_
      | with_reducible refine ⟨fun _ => ?_, fun _ => ?_⟩
      | simp +zetaHave (disch := decide) only [↓keepsBut_modDisp, ↓keepsBut_accept, ↓keepsBut_refuse, ↓keepsBut_self, ↓keepsBut_ite, implies_true, and_self, and_true, true_and]
      | with_reducible intro _
      | split) h

@[simp ↓] theorem keepsBut_holdBus {ps : List Piece} (h : [Piece.disp, .recorder] ⊆ ps) (r : State) (w : Int) (t : Nat) (s : State) :
    keepsBut ps r (holdBus w t s) ↔ keepsBut ps r s :=
  keepsBut_peel (fp := [.disp, .recorder]) (by
    unfold holdBus
    repeat' first
      | with_reducible exact keepsBut_refl _ _
      | with_reducible refine keepsBut_forEach_of (fun _ _ => ?_) ?_
      | with_reducible refine keepsBut_foldl_of (fun _ _ => ?_) ?_
      | with_reducible refine ⟨fun _ => ?_, fun _ => ?_⟩
      | simp +zetaHave (disch := decide) only [↓keepsBut_modDisp, ↓keepsBut_raise, ↓keepsBut_self, ↓keepsBut_ite, implies_true, and_self, and_true, true_and]
      | with_reducible intro _
      | split) h

@[simp ↓] theorem keepsBut_latchInputs {ps : List Piece} (h : [Piece.disp, .recorder] ⊆ ps) (r : State) (s : State) :
    keepsBut ps r (latchInputs s) ↔ keepsBut ps r s :=
  keepsBut_peel (fp := [.disp, .recorder]) (by
    unfold latchInputs
    repeat' first
      | with_reducible exact keepsBut_refl _ _
      | with_reducible refine keepsBut_forEach_of (fun _ _ => ?_) ?_
      | with_reducible refine keepsBut_foldl_of (fun _ _ => ?_) ?_
      | with_reducible refine ⟨fun _ => ?_, fun _ => ?_⟩
      | simp +zetaHave (disch := decide) only [↓keepsBut_modDisp, ↓keepsBut_clear, ↓keepsBut_self, ↓keepsBut_ite, implies_true, and_self, and_true, true_and]
      | with_reducible intro _
      | split) h

@[simp ↓] theorem keepsBut_judgeSource {ps : List Piece} (h : [Piece.disp, .recorder] ⊆ ps) (r : State) (s : State) :
    keepsBut ps r (judgeSource s) ↔ keepsBut ps r s :=
  keepsBut_peel (fp := [.disp, .recorder]) (by
    unfold judgeSource
    repeat' first
      | with_reducible exact keepsBut_refl _ _
      | with_reducible refine keepsBut_forEach_of (fun _ _ => ?_) ?_
      | with_reducible refine keepsBut_foldl_of (fun _ _ => ?_) ?_
      | with_reducible refine ⟨fun _ => ?_, fun _ => ?_⟩
      | simp +zetaHave (disch := decide) only [↓keepsBut_raise, ↓keepsBut_modDisp, ↓keepsBut_stand, ↓keepsBut_because, ↓keepsBut_clear, ↓keepsBut_self, ↓keepsBut_ite, implies_true, and_self, and_true, true_and]
      | with_reducible intro _
      | split) h

@[simp ↓] theorem keepsBut_cmdSelect {ps : List Piece} (h : [Piece.disp] ⊆ ps) (r : State) (backup : Bool) (s : State) :
    keepsBut ps r (cmdSelect backup s).1 ↔ keepsBut ps r s :=
  keepsBut_peel (fp := [.disp]) (by
    unfold cmdSelect
    repeat' first
      | with_reducible exact keepsBut_refl _ _
      | with_reducible refine keepsBut_forEach_of (fun _ _ => ?_) ?_
      | with_reducible refine keepsBut_foldl_of (fun _ _ => ?_) ?_
      | with_reducible refine ⟨fun _ => ?_, fun _ => ?_⟩
      | simp +zetaHave (disch := decide) only [↓keepsBut_modDisp, ↓keepsBut_accept, ↓keepsBut_answer, ↓keepsBut_self, ↓keepsBut_ite, implies_true, and_self, and_true, true_and]
      | with_reducible intro _
      | split) h

@[simp ↓] theorem keepsBut_applySelect {ps : List Piece} (h : [Piece.disp, .recorder] ⊆ ps) (r : State) (s : State) :
    keepsBut ps r (applySelect s) ↔ keepsBut ps r s :=
  keepsBut_peel (fp := [.disp, .recorder]) (by
    unfold applySelect
    repeat' first
      | with_reducible exact keepsBut_refl _ _
      | with_reducible refine keepsBut_forEach_of (fun _ _ => ?_) ?_
      | with_reducible refine keepsBut_foldl_of (fun _ _ => ?_) ?_
      | with_reducible refine ⟨fun _ => ?_, fun _ => ?_⟩
      | simp +zetaHave (disch := decide) only [↓keepsBut_because, ↓keepsBut_modDisp, ↓keepsBut_raise, ↓keepsBut_self, ↓keepsBut_ite, implies_true, and_self, and_true, true_and]
      | with_reducible intro _
      | split) h

@[simp ↓] theorem keepsBut_holdAllowHost {ps : List Piece} (h : [Piece.disp] ⊆ ps) (r : State) (c d t : Nat) (s : State) :
    keepsBut ps r (holdAllowHost c d t s) ↔ keepsBut ps r s :=
  keepsBut_peel (fp := [.disp]) (by
    unfold holdAllowHost
    repeat' first
      | with_reducible exact keepsBut_refl _ _
      | with_reducible refine keepsBut_forEach_of (fun _ _ => ?_) ?_
      | with_reducible refine keepsBut_foldl_of (fun _ _ => ?_) ?_
      | with_reducible refine ⟨fun _ => ?_, fun _ => ?_⟩
      | simp +zetaHave (disch := decide) only [↓keepsBut_modDisp, ↓keepsBut_self, ↓keepsBut_ite, implies_true, and_self, and_true, true_and]
      | with_reducible intro _
      | split) h

@[simp ↓] theorem keepsBut_holdAllowBus {ps : List Piece} (h : [Piece.disp] ⊆ ps) (r : State) (c d t : Nat) (s : State) :
    keepsBut ps r (holdAllowBus c d t s) ↔ keepsBut ps r s :=
  keepsBut_peel (fp := [.disp]) (by
    unfold holdAllowBus
    repeat' first
      | with_reducible exact keepsBut_refl _ _
      | with_reducible refine keepsBut_forEach_of (fun _ _ => ?_) ?_
      | with_reducible refine keepsBut_foldl_of (fun _ _ => ?_) ?_
      | with_reducible refine ⟨fun _ => ?_, fun _ => ?_⟩
      | simp +zetaHave (disch := decide) only [↓keepsBut_modDisp, ↓keepsBut_self, ↓keepsBut_ite, implies_true, and_self, and_true, true_and]
      | with_reducible intro _
      | split) h

@[simp ↓] theorem keepsBut_closeRest {ps : List Piece} (h : [Piece.disp, .recorder] ⊆ ps) (r : State) (early : Bool) (n : Nat) (s : State) :
    keepsBut ps r (closeRest early n s) ↔ keepsBut ps r s :=
  keepsBut_peel (fp := [.disp, .recorder]) (by
    unfold closeRest
    repeat' first
      | with_reducible exact keepsBut_refl _ _
      | with_reducible refine keepsBut_forEach_of (fun _ _ => ?_) ?_
      | with_reducible refine keepsBut_foldl_of (fun _ _ => ?_) ?_
      | with_reducible refine ⟨fun _ => ?_, fun _ => ?_⟩
      | simp +zetaHave (disch := decide) only [↓keepsBut_updDisp, ↓keepsBut_raise, ↓keepsBut_self, ↓keepsBut_ite, implies_true, and_self, and_true, true_and]
      | with_reducible intro _
      | split) h

@[simp ↓] theorem keepsBut_closeRests {ps : List Piece} (h : [Piece.disp, .recorder] ⊆ ps) (r : State) (s : State) :
    keepsBut ps r (closeRests s) ↔ keepsBut ps r s :=
  keepsBut_peel (fp := [.disp, .recorder]) (by
    unfold closeRests
    repeat' first
      | with_reducible exact keepsBut_refl _ _
      | with_reducible refine keepsBut_forEach_of (fun _ _ => ?_) ?_
      | with_reducible refine keepsBut_foldl_of (fun _ _ => ?_) ?_
      | with_reducible refine ⟨fun _ => ?_, fun _ => ?_⟩
      | simp +zetaHave (disch := decide) only [↓keepsBut_closeRest, ↓keepsBut_self, ↓keepsBut_ite, implies_true, and_self, and_true, true_and]
      | with_reducible intro _
      | split) h

@[simp ↓] theorem keepsBut_cmdStartImpEng {ps : List Piece} (h : [Piece.surv, .disp, .recorder] ⊆ ps) (r : State) (n : Nat) (s : State) :
    keepsBut ps r (cmdStartImpEng n s).1 ↔ keepsBut ps r s :=
  keepsBut_peel (fp := [.surv, .disp, .recorder]) (by
    unfold cmdStartImpEng
    repeat' first
      | with_reducible exact keepsBut_refl _ _
      | with_reducible refine keepsBut_forEach_of (fun _ _ => ?_) ?_
      | with_reducible refine keepsBut_foldl_of (fun _ _ => ?_) ?_
      | with_reducible refine ⟨fun _ => ?_, fun _ => ?_⟩
      | simp +zetaHave (disch := decide) only [↓keepsBut_closeRests, ↓keepsBut_accept, ↓keepsBut_cmdStartImp, ↓keepsBut_self, ↓keepsBut_ite, implies_true, and_self, and_true, true_and]
      | with_reducible intro _
      | split) h

@[simp ↓] theorem keepsBut_cmdStartCapEng {ps : List Piece} (h : [Piece.est, .surv, .disp, .recorder] ⊆ ps) (r : State) (n : Nat) (s : State) :
    keepsBut ps r (cmdStartCapEng n s).1 ↔ keepsBut ps r s :=
  keepsBut_peel (fp := [.est, .surv, .disp, .recorder]) (by
    unfold cmdStartCapEng
    repeat' first
      | with_reducible exact keepsBut_refl _ _
      | with_reducible refine keepsBut_forEach_of (fun _ _ => ?_) ?_
      | with_reducible refine keepsBut_foldl_of (fun _ _ => ?_) ?_
      | with_reducible refine ⟨fun _ => ?_, fun _ => ?_⟩
      | simp +zetaHave (disch := decide) only [↓keepsBut_cmdStartCap, ↓keepsBut_closeRests, ↓keepsBut_accept, ↓keepsBut_self, ↓keepsBut_ite, implies_true, and_self, and_true, true_and]
      | with_reducible intro _
      | split) h

@[simp ↓] theorem keepsBut_cmdCloseRest {ps : List Piece} (h : [Piece.disp, .recorder] ⊆ ps) (r : State) (n : Nat) (s : State) :
    keepsBut ps r (cmdCloseRest n s).1 ↔ keepsBut ps r s :=
  keepsBut_peel (fp := [.disp, .recorder]) (by
    unfold cmdCloseRest
    repeat' first
      | with_reducible exact keepsBut_refl _ _
      | with_reducible refine keepsBut_forEach_of (fun _ _ => ?_) ?_
      | with_reducible refine keepsBut_foldl_of (fun _ _ => ?_) ?_
      | with_reducible refine ⟨fun _ => ?_, fun _ => ?_⟩
      | simp +zetaHave (disch := decide) only [↓keepsBut_accept, ↓keepsBut_answer, ↓keepsBut_closeRest, ↓keepsBut_self, ↓keepsBut_ite, implies_true, and_self, and_true, true_and]
      | with_reducible intro _
      | split) h

@[simp ↓] theorem keepsBut_restCheck {ps : List Piece} (h : [Piece.disp, .recorder] ⊆ ps) (r : State) (p surv : Rat) (n : Nat) (s : State) :
    keepsBut ps r (restCheck p surv n s) ↔ keepsBut ps r s :=
  keepsBut_peel (fp := [.disp, .recorder]) (by
    unfold restCheck
    repeat' first
      | with_reducible exact keepsBut_refl _ _
      | with_reducible refine keepsBut_forEach_of (fun _ _ => ?_) ?_
      | with_reducible refine keepsBut_foldl_of (fun _ _ => ?_) ?_
      | with_reducible refine ⟨fun _ => ?_, fun _ => ?_⟩
      | simp +zetaHave (disch := decide) only [↓keepsBut_closeRest, ↓keepsBut_updDisp, ↓keepsBut_self, ↓keepsBut_ite, implies_true, and_self, and_true, true_and]
      | with_reducible intro _
      | split) h

@[simp ↓] theorem keepsBut_restOpen {ps : List Piece} (h : [Piece.disp, .recorder] ⊆ ps) (r : State) (p surv : Rat) (s : State) :
    keepsBut ps r (restOpen p surv s) ↔ keepsBut ps r s :=
  keepsBut_peel (fp := [.disp, .recorder]) (by
    unfold restOpen
    repeat' first
      | with_reducible exact keepsBut_refl _ _
      | with_reducible refine keepsBut_forEach_of (fun _ _ => ?_) ?_
      | with_reducible refine keepsBut_foldl_of (fun _ _ => ?_) ?_
      | with_reducible refine ⟨fun _ => ?_, fun _ => ?_⟩
      | simp +zetaHave (disch := decide) only [↓keepsBut_raise, ↓keepsBut_updDisp, ↓keepsBut_self, ↓keepsBut_ite, implies_true, and_self, and_true, true_and]
      | with_reducible intro _
      | split) h

@[simp ↓] theorem keepsBut_scheduled {ps : List Piece} (h : [Piece.est, .surv, .recorder] ⊆ ps) (r : State) (p surv : Rat) (s : State) :
    keepsBut ps r (scheduled p surv s) ↔ keepsBut ps r s :=
  keepsBut_peel (fp := [.est, .surv, .recorder]) (by
    unfold scheduled
    repeat' first
      | with_reducible exact keepsBut_refl _ _
      | with_reducible refine keepsBut_forEach_of (fun _ _ => ?_) ?_
      | with_reducible refine keepsBut_foldl_of (fun _ _ => ?_) ?_
      | with_reducible refine ⟨fun _ => ?_, fun _ => ?_⟩
      | simp +zetaHave (disch := decide) only [↓keepsBut_raise, ↓keepsBut_cmdStartImp, ↓keepsBut_cmdStartCap, ↓keepsBut_self, ↓keepsBut_ite, implies_true, and_self, and_true, true_and]
      | with_reducible intro _
      | split) h

@[simp ↓] theorem keepsBut_capShare {ps : List Piece} (h : [Piece.surv] ⊆ ps) (r : State) (p : Rat) (s : State) :
    keepsBut ps r (capShare p s).1 ↔ keepsBut ps r s :=
  keepsBut_peel (fp := [.surv]) (by
    unfold capShare
    repeat' first
      | with_reducible exact keepsBut_refl _ _
      | with_reducible refine keepsBut_forEach_of (fun _ _ => ?_) ?_
      | with_reducible refine keepsBut_foldl_of (fun _ _ => ?_) ?_
      | with_reducible refine ⟨fun _ => ?_, fun _ => ?_⟩
      | simp +zetaHave (disch := decide) only [↓keepsBut_modSurv, ↓keepsBut_self, ↓keepsBut_ite, implies_true, and_self, and_true, true_and]
      | with_reducible intro _
      | split) h

@[simp ↓] theorem keepsBut_dispatchBuild {ps : List Piece} (h : [Piece.est, .surv, .reg, .disp, .guard, .recorder] ⊆ ps) (r : State) (s : State) :
    keepsBut ps r (dispatchBuild s) ↔ keepsBut ps r s :=
  keepsBut_peel (fp := [.est, .surv, .reg, .disp, .guard, .recorder]) (by
    unfold dispatchBuild
    repeat' first
      | with_reducible exact keepsBut_refl _ _
      | with_reducible refine keepsBut_forEach_of (fun _ _ => ?_) ?_
      | with_reducible refine keepsBut_foldl_of (fun _ _ => ?_) ?_
      | with_reducible refine ⟨fun _ => ?_, fun _ => ?_⟩
      | simp +zetaHave (disch := decide) only [↓keepsBut_capShare, ↓keepsBut_restOpen, ↓keepsBut_latchInputs, ↓keepsBut_clear, ↓keepsBut_judgeSource, ↓keepsBut_restCheck, ↓keepsBut_modReg, ↓keepsBut_stand, ↓keepsBut_permitLoss, ↓keepsBut_modDisp, ↓keepsBut_scheduled, ↓keepsBut_self, ↓keepsBut_ite, implies_true, and_self, and_true, true_and]
      | with_reducible intro _
      | split) h

/-! ### GuardDie -/

@[simp ↓] theorem keepsBut_gRaise {ps : List Piece} (h : [Piece.recorder] ⊆ ps) (r : State) (code arg : Nat) (s : State) :
    keepsBut ps r (gRaise code arg s) ↔ keepsBut ps r s :=
  keepsBut_peel (fp := [.recorder]) (by
    unfold gRaise
    repeat' first
      | with_reducible exact keepsBut_refl _ _
      | with_reducible refine keepsBut_forEach_of (fun _ _ => ?_) ?_
      | with_reducible refine keepsBut_foldl_of (fun _ _ => ?_) ?_
      | with_reducible refine ⟨fun _ => ?_, fun _ => ?_⟩
      | simp +zetaHave (disch := decide) only [↓keepsBut_raise, ↓keepsBut_self, ↓keepsBut_ite, implies_true, and_self, and_true, true_and]
      | with_reducible intro _
      | split) h

@[simp ↓] theorem keepsBut_setGLatch {ps : List Piece} (h : [Piece.guard] ⊆ ps) (r : State) (scope : Nat) (causes : BitVec 32) (s : State) :
    keepsBut ps r (setGLatch scope causes s) ↔ keepsBut ps r s :=
  keepsBut_peel (fp := [.guard]) (by
    unfold setGLatch
    repeat' first
      | with_reducible exact keepsBut_refl _ _
      | with_reducible refine keepsBut_forEach_of (fun _ _ => ?_) ?_
      | with_reducible refine keepsBut_foldl_of (fun _ _ => ?_) ?_
      | with_reducible refine ⟨fun _ => ?_, fun _ => ?_⟩
      | simp +zetaHave (disch := decide) only [↓keepsBut_modGuard, ↓keepsBut_self, ↓keepsBut_ite, implies_true, and_self, and_true, true_and]
      | with_reducible intro _
      | split) h

@[simp ↓] theorem keepsBut_guardEval {ps : List Piece} (h : [Piece.est, .guard] ⊆ ps) (r : State) (s : State) :
    keepsBut ps r (guardEval s) ↔ keepsBut ps r s :=
  keepsBut_peel (fp := [.est, .guard]) (by
    unfold guardEval
    repeat' first
      | with_reducible exact keepsBut_refl _ _
      | with_reducible refine keepsBut_forEach_of (fun _ _ => ?_) ?_
      | with_reducible refine keepsBut_foldl_of (fun _ _ => ?_) ?_
      | with_reducible refine ⟨fun _ => ?_, fun _ => ?_⟩
      | simp +zetaHave (disch := decide) only [↓keepsBut_setGLatch, ↓keepsBut_stageAll, ↓keepsBut_modGuard, ↓keepsBut_self, ↓keepsBut_ite, implies_true, and_self, and_true, true_and]
      | with_reducible intro _
      | split) h

theorem keepsBut_guardDo {ps : List Piece} {f : State → State} (hf : ∀ x, keepsBut ps x (f x)) (h : [Piece.time, .est, .guard] ⊆ ps)
    (r : State) (t : Nat) (s : State) : keepsBut ps r (guardDo t f s) ↔ keepsBut ps r s := by
  refine keepsBut_peel (fp := ps) ?_ (List.Subset.refl ps)
  have ht : Piece.time ∈ ps := h (by decide)
  have hg : [Piece.est, Piece.guard] ⊆ ps := fun x hx => h (List.mem_cons_of_mem _ hx)
  have h1 : keepsBut ps s (s.at_ t) := (keepsBut_at_ (List.cons_subset.2 ⟨ht, List.nil_subset _⟩) s t s).2 (keepsBut_refl ps s)
  unfold guardDo
  exact keepsBut_ite_of ((keepsBut_guardEval hg _ _).2 (keepsBut_trans h1 (hf _))) h1

@[simp ↓] theorem keepsBut_partFault {ps : List Piece} (h : [Piece.core, .recorder] ⊆ ps) (r : State) (b : Nat) (s : State) :
    keepsBut ps r (partFault b s) ↔ keepsBut ps r s :=
  keepsBut_peel (fp := [.core, .recorder]) (by
    unfold partFault
    repeat' first
      | with_reducible exact keepsBut_refl _ _
      | with_reducible refine keepsBut_forEach_of (fun _ _ => ?_) ?_
      | with_reducible refine keepsBut_foldl_of (fun _ _ => ?_) ?_
      | with_reducible refine ⟨fun _ => ?_, fun _ => ?_⟩
      | simp +zetaHave (disch := decide) only [↓keepsBut_stand, ↓keepsBut_modCore, ↓keepsBut_self, ↓keepsBut_ite, implies_true, and_self, and_true, true_and]
      | with_reducible intro _
      | split) h

@[simp ↓] theorem keepsBut_pressClears {ps : List Piece} (h : [Piece.guard] ⊆ ps) (r : State) (tf : Nat) (s : State) :
    keepsBut ps r (pressClears tf s) ↔ keepsBut ps r s :=
  keepsBut_peel (fp := [.guard]) (by
    unfold pressClears
    repeat' first
      | with_reducible exact keepsBut_refl _ _
      | with_reducible refine keepsBut_forEach_of (fun _ _ => ?_) ?_
      | with_reducible refine keepsBut_foldl_of (fun _ _ => ?_) ?_
      | with_reducible refine ⟨fun _ => ?_, fun _ => ?_⟩
      | simp +zetaHave (disch := decide) only [↓keepsBut_modGuard, ↓keepsBut_self, ↓keepsBut_ite, implies_true, and_self, and_true, true_and]
      | with_reducible intro _
      | split) h

@[simp ↓] theorem keepsBut_closeWindow {ps : List Piece} (h : [Piece.core, .recorder] ⊆ ps) (r : State) (s : State) :
    keepsBut ps r (closeWindow s) ↔ keepsBut ps r s :=
  keepsBut_peel (fp := [.core, .recorder]) (by
    unfold closeWindow
    repeat' first
      | with_reducible exact keepsBut_refl _ _
      | with_reducible refine keepsBut_forEach_of (fun _ _ => ?_) ?_
      | with_reducible refine keepsBut_foldl_of (fun _ _ => ?_) ?_
      | with_reducible refine ⟨fun _ => ?_, fun _ => ?_⟩
      | simp +zetaHave (disch := decide) only [↓keepsBut_raise, ↓keepsBut_modCore, ↓keepsBut_self, ↓keepsBut_ite, implies_true, and_self, and_true, true_and]
      | with_reducible intro _
      | split) h

end Sys2Proof.Machine
end

