-- ==== Sys2Proof/Laws/FrameBus.lean ====
section
/-!
SUPPORT. FrameBus: what the operations of the ports, the safety core, the safety layer, the cyclic program and the recorder leave unchanged.
-/

set_option linter.all false

namespace Sys2Proof.Machine

/-! ### Can -/

@[simp ↓] theorem keepsBut_updPort {ps : List Piece} (h : [Piece.can] ⊆ ps) (r : State) (p : Nat) (f : CanPort → CanPort) (s : State) :
    keepsBut ps r (updPort p f s) ↔ keepsBut ps r s :=
  keepsBut_peel (fp := [.can]) (by
    unfold updPort
    repeat' first
      | with_reducible exact keepsBut_refl _ _
      | with_reducible refine keepsBut_forEach_of (fun _ _ => ?_) ?_
      | with_reducible refine keepsBut_foldl_of (fun _ _ => ?_) ?_
      | with_reducible refine ⟨fun _ => ?_, fun _ => ?_⟩
      | simp +zetaHave (disch := decide) only [↓keepsBut_modCan, ↓keepsBut_self, ↓keepsBut_ite, implies_true, and_self, and_true, true_and]
      | with_reducible intro _
      | split) h

@[simp ↓] theorem keepsBut_updStation {ps : List Piece} (h : [Piece.can] ⊆ ps) (r : State) (k : Nat) (f : Station → Station) (s : State) :
    keepsBut ps r (updStation k f s) ↔ keepsBut ps r s :=
  keepsBut_peel (fp := [.can]) (by
    unfold updStation
    repeat' first
      | with_reducible exact keepsBut_refl _ _
      | with_reducible refine keepsBut_forEach_of (fun _ _ => ?_) ?_
      | with_reducible refine keepsBut_foldl_of (fun _ _ => ?_) ?_
      | with_reducible refine ⟨fun _ => ?_, fun _ => ?_⟩
      | simp +zetaHave (disch := decide) only [↓keepsBut_modCan, ↓keepsBut_self, ↓keepsBut_ite, implies_true, and_self, and_true, true_and]
      | with_reducible intro _
      | split) h

@[simp ↓] theorem keepsBut_storeFrame {ps : List Piece} (h : [Piece.can, .recorder] ⊆ ps) (r : State) (p : Nat) (f : CanFrame) (s : State) :
    keepsBut ps r (storeFrame p f s) ↔ keepsBut ps r s :=
  keepsBut_peel (fp := [.can, .recorder]) (by
    unfold storeFrame
    repeat' first
      | with_reducible exact keepsBut_refl _ _
      | with_reducible refine keepsBut_forEach_of (fun _ _ => ?_) ?_
      | with_reducible refine keepsBut_foldl_of (fun _ _ => ?_) ?_
      | with_reducible refine ⟨fun _ => ?_, fun _ => ?_⟩
      | simp +zetaHave (disch := decide) only [↓keepsBut_updPort, ↓keepsBut_raiseRound, ↓keepsBut_self, ↓keepsBut_ite, implies_true, and_self, and_true, true_and]
      | with_reducible intro _
      | split) h

@[simp ↓] theorem keepsBut_queueCan {ps : List Piece} (h : [Piece.can, .recorder] ⊆ ps) (r : State) (e : CanTx) (p : Nat) (s : State) :
    keepsBut ps r (queueCan e p s) ↔ keepsBut ps r s :=
  keepsBut_peel (fp := [.can, .recorder]) (by
    unfold queueCan
    repeat' first
      | with_reducible exact keepsBut_refl _ _
      | with_reducible refine keepsBut_forEach_of (fun _ _ => ?_) ?_
      | with_reducible refine keepsBut_foldl_of (fun _ _ => ?_) ?_
      | with_reducible refine ⟨fun _ => ?_, fun _ => ?_⟩
      | simp +zetaHave (disch := decide) only [↓keepsBut_updPort, ↓keepsBut_raise, ↓keepsBut_raiseRound, ↓keepsBut_self, ↓keepsBut_ite, implies_true, and_self, and_true, true_and]
      | with_reducible intro _
      | split) h

@[simp ↓] theorem keepsBut_canSendOne {ps : List Piece} (h : [Piece.can, .out] ⊆ ps) (r : State) (p : Nat) (s : State) :
    keepsBut ps r (canSendOne p s) ↔ keepsBut ps r s :=
  keepsBut_peel (fp := [.can, .out]) (by
    unfold canSendOne
    repeat' first
      | with_reducible exact keepsBut_refl _ _
      | with_reducible refine keepsBut_forEach_of (fun _ _ => ?_) ?_
      | with_reducible refine keepsBut_foldl_of (fun _ _ => ?_) ?_
      | with_reducible refine ⟨fun _ => ?_, fun _ => ?_⟩
      | simp +zetaHave (disch := decide) only [↓keepsBut_send, ↓keepsBut_updPort, ↓keepsBut_self, ↓keepsBut_ite, implies_true, and_self, and_true, true_and]
      | with_reducible intro _
      | split) h

@[simp ↓] theorem keepsBut_canIdle {ps : List Piece} (h : [Piece.can, .out] ⊆ ps) (r : State) (s : State) :
    keepsBut ps r (canIdle s) ↔ keepsBut ps r s :=
  keepsBut_peel (fp := [.can, .out]) (by
    unfold canIdle
    repeat' first
      | with_reducible exact keepsBut_refl _ _
      | with_reducible refine keepsBut_forEach_of (fun _ _ => ?_) ?_
      | with_reducible refine keepsBut_foldl_of (fun _ _ => ?_) ?_
      | with_reducible refine ⟨fun _ => ?_, fun _ => ?_⟩
      | simp +zetaHave (disch := decide) only [↓keepsBut_canSendOne, ↓keepsBut_self, ↓keepsBut_ite, implies_true, and_self, and_true, true_and]
      | with_reducible intro _
      | split) h

@[simp ↓] theorem keepsBut_configCan {ps : List Piece} (h : [Piece.can] ⊆ ps) (r : State) (s : State) :
    keepsBut ps r (configCan s) ↔ keepsBut ps r s :=
  keepsBut_peel (fp := [.can]) (by
    unfold configCan
    repeat' first
      | with_reducible exact keepsBut_refl _ _
      | with_reducible refine keepsBut_forEach_of (fun _ _ => ?_) ?_
      | with_reducible refine keepsBut_foldl_of (fun _ _ => ?_) ?_
      | with_reducible refine ⟨fun _ => ?_, fun _ => ?_⟩
      | simp +zetaHave (disch := decide) only [↓keepsBut_modCan, ↓keepsBut_updPort, ↓keepsBut_self, ↓keepsBut_ite, implies_true, and_self, and_true, true_and]
      | with_reducible intro _
      | split) h

@[simp ↓] theorem keepsBut_noteCopy {ps : List Piece} (h : [Piece.can] ⊆ ps) (r : State) (id cnt ts : Nat) (s : State) :
    keepsBut ps r (noteCopy id cnt ts s) ↔ keepsBut ps r s :=
  keepsBut_peel (fp := [.can]) (by
    unfold noteCopy
    repeat' first
      | with_reducible exact keepsBut_refl _ _
      | with_reducible refine keepsBut_forEach_of (fun _ _ => ?_) ?_
      | with_reducible refine keepsBut_foldl_of (fun _ _ => ?_) ?_
      | with_reducible refine ⟨fun _ => ?_, fun _ => ?_⟩
      | simp +zetaHave (disch := decide) only [↓keepsBut_modCan, ↓keepsBut_self, ↓keepsBut_ite, implies_true, and_self, and_true, true_and]
      | with_reducible intro _
      | split) h

@[simp ↓] theorem keepsBut_rejectLength {ps : List Piece} (h : [Piece.can, .recorder] ⊆ ps) (r : State) (p : Nat) (s : State) :
    keepsBut ps r (rejectLength p s) ↔ keepsBut ps r s :=
  keepsBut_peel (fp := [.can, .recorder]) (by
    unfold rejectLength
    repeat' first
      | with_reducible exact keepsBut_refl _ _
      | with_reducible refine keepsBut_forEach_of (fun _ _ => ?_) ?_
      | with_reducible refine keepsBut_foldl_of (fun _ _ => ?_) ?_
      | with_reducible refine ⟨fun _ => ?_, fun _ => ?_⟩
      | simp +zetaHave (disch := decide) only [↓keepsBut_updPort, ↓keepsBut_raiseRound, ↓keepsBut_self, ↓keepsBut_ite, implies_true, and_self, and_true, true_and]
      | with_reducible intro _
      | split) h

@[simp ↓] theorem keepsBut_useSetpoint {ps : List Piece} (h : [Piece.disp, .recorder] ⊆ ps) (r : State) (d : List Byte) (ts : Nat) (s : State) :
    keepsBut ps r (useSetpoint d ts s) ↔ keepsBut ps r s :=
  keepsBut_peel (fp := [.disp, .recorder]) (by
    unfold useSetpoint
    repeat' first
      | with_reducible exact keepsBut_refl _ _
      | with_reducible refine keepsBut_forEach_of (fun _ _ => ?_) ?_
      | with_reducible refine keepsBut_foldl_of (fun _ _ => ?_) ?_
      | with_reducible refine ⟨fun _ => ?_, fun _ => ?_⟩
      | simp +zetaHave (disch := decide) only [↓keepsBut_holdAllowBus, ↓keepsBut_holdBus, ↓keepsBut_self, ↓keepsBut_ite, implies_true, and_self, and_true, true_and]
      | with_reducible intro _
      | split) h

@[simp ↓] theorem keepsBut_sendStatus {ps : List Piece} (h : [Piece.time, .can, .recorder] ⊆ ps) (r : State) (mode : Nat) (reference : Int) (eDis eChg safety connected incomplete : Nat) (s : State) :
    keepsBut ps r (sendStatus mode reference eDis eChg safety connected incomplete s) ↔ keepsBut ps r s :=
  keepsBut_peel (fp := [.time, .can, .recorder]) (by
    unfold sendStatus
    repeat' first
      | with_reducible exact keepsBut_refl _ _
      | with_reducible refine keepsBut_forEach_of (fun _ _ => ?_) ?_
      | with_reducible refine keepsBut_foldl_of (fun _ _ => ?_) ?_
      | with_reducible refine ⟨fun _ => ?_, fun _ => ?_⟩
      | simp +zetaHave (disch := decide) only [↓keepsBut_modCan, ↓keepsBut_queueCan, ↓keepsBut_at_, ↓keepsBut_self, ↓keepsBut_ite, implies_true, and_self, and_true, true_and]
      | with_reducible intro _
      | split) h

@[simp ↓] theorem keepsBut_armReference {ps : List Piece} (h : [Piece.time] ⊆ ps) (r : State) (s : State) :
    keepsBut ps r (armReference s) ↔ keepsBut ps r s :=
  keepsBut_peel (fp := [.time]) (by
    unfold armReference
    repeat' first
      | with_reducible exact keepsBut_refl _ _
      | with_reducible refine keepsBut_forEach_of (fun _ _ => ?_) ?_
      | with_reducible refine keepsBut_foldl_of (fun _ _ => ?_) ?_
      | with_reducible refine ⟨fun _ => ?_, fun _ => ?_⟩
      | simp +zetaHave (disch := decide) only [↓keepsBut_modTime, ↓keepsBut_self, ↓keepsBut_ite, implies_true, and_self, and_true, true_and]
      | with_reducible intro _
      | split) h

@[simp ↓] theorem keepsBut_usePair {ps : List Piece} (h : [Piece.time, .can, .recorder] ⊆ ps) (r : State) (mid cnt sof time : Nat) (synced : Bool) (t : Nat) (s : State) :
    keepsBut ps r (usePair mid cnt sof time synced t s) ↔ keepsBut ps r s :=
  keepsBut_peel (fp := [.time, .can, .recorder]) (by
    unfold usePair
    repeat' first
      | with_reducible exact keepsBut_refl _ _
      | with_reducible refine keepsBut_forEach_of (fun _ _ => ?_) ?_
      | with_reducible refine keepsBut_foldl_of (fun _ _ => ?_) ?_
      | with_reducible refine ⟨fun _ => ?_, fun _ => ?_⟩
      | simp +zetaHave (disch := decide) only [↓keepsBut_modTime, ↓keepsBut_clearAll, ↓keepsBut_modCan, ↓keepsBut_offsetSample, ↓keepsBut_self, ↓keepsBut_ite, implies_true, and_self, and_true, true_and]
      | with_reducible intro _
      | split) h

@[simp ↓] theorem keepsBut_hearMaster {ps : List Piece} (h : [Piece.can, .recorder] ⊆ ps) (r : State) (f : CanFrame) (s : State) :
    keepsBut ps r (hearMaster f s) ↔ keepsBut ps r s :=
  keepsBut_peel (fp := [.can, .recorder]) (by
    unfold hearMaster
    repeat' first
      | with_reducible exact keepsBut_refl _ _
      | with_reducible refine keepsBut_forEach_of (fun _ _ => ?_) ?_
      | with_reducible refine keepsBut_foldl_of (fun _ _ => ?_) ?_
      | with_reducible refine ⟨fun _ => ?_, fun _ => ?_⟩
      | simp +zetaHave (disch := decide) only [↓keepsBut_raise, ↓keepsBut_modCan, ↓keepsBut_self, ↓keepsBut_ite, implies_true, and_self, and_true, true_and]
      | with_reducible intro _
      | split) h

@[simp ↓] theorem keepsBut_pairTime {ps : List Piece} (h : [Piece.time, .can, .recorder] ⊆ ps) (r : State) (p : Nat) (f : CanFrame) (s : State) :
    keepsBut ps r (pairTime p f s) ↔ keepsBut ps r s :=
  keepsBut_peel (fp := [.time, .can, .recorder]) (by
    unfold pairTime
    repeat' first
      | with_reducible exact keepsBut_refl _ _
      | with_reducible refine keepsBut_forEach_of (fun _ _ => ?_) ?_
      | with_reducible refine keepsBut_foldl_of (fun _ _ => ?_) ?_
      | with_reducible refine ⟨fun _ => ?_, fun _ => ?_⟩
      | simp +zetaHave (disch := decide) only [↓keepsBut_hearMaster, ↓keepsBut_usePair, ↓keepsBut_modCan, ↓keepsBut_self, ↓keepsBut_ite, implies_true, and_self, and_true, true_and]
      | with_reducible intro _
      | split) h

@[simp ↓] theorem keepsBut_coSend {ps : List Piece} (h : [Piece.time, .can, .recorder] ⊆ ps) (r : State) (kind id : Nat) (d : List Byte) (s : State) :
    keepsBut ps r (coSend kind id d s) ↔ keepsBut ps r s :=
  keepsBut_peel (fp := [.time, .can, .recorder]) (by
    unfold coSend
    repeat' first
      | with_reducible exact keepsBut_refl _ _
      | with_reducible refine keepsBut_forEach_of (fun _ _ => ?_) ?_
      | with_reducible refine keepsBut_foldl_of (fun _ _ => ?_) ?_
      | with_reducible refine ⟨fun _ => ?_, fun _ => ?_⟩
      | simp +zetaHave (disch := decide) only [↓keepsBut_at_, ↓keepsBut_queueCan, ↓keepsBut_self, ↓keepsBut_ite, implies_true, and_self, and_true, true_and]
      | with_reducible intro _
      | split) h

theorem keepsBut_takeCo {ps : List Piece} (h : [Piece.can] ⊆ ps) {r s t : State} {codes : List Nat} {f : CanFrame} (ht : takeCo codes s = some (f, t)) :
    keepsBut ps r t ↔ keepsBut ps r s := by
  refine keepsBut_peel (fp := [.can]) ?_ h
  obtain ⟨x, _, hx⟩ := Option.map_eq_some_iff.1 ht
  obtain ⟨_, rfl⟩ := Prod.mk.inj hx
  exact (keepsBut_updPort (by decide) _ _ _ _).2 (keepsBut_refl _ _)


@[simp ↓] theorem keepsBut_heartbeatOf {ps : List Piece} (h : [Piece.time, .can, .recorder] ⊆ ps) (r : State) (k : Nat) (ts : Nat) (s : State) :
    keepsBut ps r (heartbeatOf k ts s) ↔ keepsBut ps r s :=
  keepsBut_peel (fp := [.time, .can, .recorder]) (by
    unfold heartbeatOf
    repeat' first
      | with_reducible exact keepsBut_refl _ _
      | with_reducible refine keepsBut_forEach_of (fun _ _ => ?_) ?_
      | with_reducible refine keepsBut_foldl_of (fun _ _ => ?_) ?_
      | with_reducible refine ⟨fun _ => ?_, fun _ => ?_⟩
      | simp +zetaHave (disch := decide) only [↓keepsBut_coSend, ↓keepsBut_updStation, ↓keepsBut_self, ↓keepsBut_ite, implies_true, and_self, and_true, true_and]
      | with_reducible intro _
      | split) h

@[simp ↓] theorem keepsBut_closeStation {ps : List Piece} (h : [Piece.can] ⊆ ps) (r : State) (g k : Nat) (s : State) :
    keepsBut ps r (closeStation g k s) ↔ keepsBut ps r s :=
  keepsBut_peel (fp := [.can]) (by
    unfold closeStation
    repeat' first
      | with_reducible exact keepsBut_refl _ _
      | with_reducible refine keepsBut_forEach_of (fun _ _ => ?_) ?_
      | with_reducible refine keepsBut_foldl_of (fun _ _ => ?_) ?_
      | with_reducible refine ⟨fun _ => ?_, fun _ => ?_⟩
      | simp +zetaHave (disch := decide) only [↓keepsBut_updStation, ↓keepsBut_self, ↓keepsBut_ite, implies_true, and_self, and_true, true_and]
      | with_reducible intro _
      | split) h

@[simp ↓] theorem keepsBut_closeStations {ps : List Piece} (h : [Piece.can] ⊆ ps) (r : State) (upTo : Nat) (s : State) :
    keepsBut ps r (closeStations upTo s) ↔ keepsBut ps r s :=
  keepsBut_peel (fp := [.can]) (by
    unfold closeStations
    repeat' first
      | with_reducible exact keepsBut_refl _ _
      | with_reducible refine keepsBut_forEach_of (fun _ _ => ?_) ?_
      | with_reducible refine keepsBut_foldl_of (fun _ _ => ?_) ?_
      | with_reducible refine ⟨fun _ => ?_, fun _ => ?_⟩
      | simp +zetaHave (disch := decide) only [↓keepsBut_modCan, ↓keepsBut_closeStation, ↓keepsBut_self, ↓keepsBut_ite, implies_true, and_self, and_true, true_and]
      | with_reducible intro _
      | split) h

@[simp ↓] theorem keepsBut_canFrame {ps : List Piece} (h : [Piece.time, .can] ⊆ ps) (r : State) (s : State) :
    keepsBut ps r (canFrame s) ↔ keepsBut ps r s :=
  keepsBut_peel (fp := [.time, .can]) (by
    unfold canFrame
    repeat' first
      | with_reducible exact keepsBut_refl _ _
      | with_reducible refine keepsBut_forEach_of (fun _ _ => ?_) ?_
      | with_reducible refine keepsBut_foldl_of (fun _ _ => ?_) ?_
      | with_reducible refine ⟨fun _ => ?_, fun _ => ?_⟩
      | simp +zetaHave (disch := decide) only [↓keepsBut_armReference, ↓keepsBut_updPort, ↓keepsBut_self, ↓keepsBut_ite, implies_true, and_self, and_true, true_and]
      | with_reducible intro _
      | split) h

/-! ### SafetyCore -/

@[simp ↓] theorem keepsBut_coreLatch {ps : List Piece} (h : [Piece.core, .recorder] ⊆ ps) (r : State) (k : Nat) (c : BitVec 32) (s : State) :
    keepsBut ps r (coreLatch k c s) ↔ keepsBut ps r s :=
  keepsBut_peel (fp := [.core, .recorder]) (by
    unfold coreLatch
    repeat' first
      | with_reducible exact keepsBut_refl _ _
      | with_reducible refine keepsBut_forEach_of (fun _ _ => ?_) ?_
      | with_reducible refine keepsBut_foldl_of (fun _ _ => ?_) ?_
      | with_reducible refine ⟨fun _ => ?_, fun _ => ?_⟩
      | simp +zetaHave (disch := decide) only [↓keepsBut_raise, ↓keepsBut_modCore, ↓keepsBut_self, ↓keepsBut_ite, implies_true, and_self, and_true, true_and]
      | with_reducible intro _
      | split) h

@[simp ↓] theorem keepsBut_latchHazards {ps : List Piece} (h : [Piece.core, .recorder] ⊆ ps) (r : State) (s : State) :
    keepsBut ps r (latchHazards s) ↔ keepsBut ps r s :=
  keepsBut_peel (fp := [.core, .recorder]) (by
    unfold latchHazards
    repeat' first
      | with_reducible exact keepsBut_refl _ _
      | with_reducible refine keepsBut_forEach_of (fun _ _ => ?_) ?_
      | with_reducible refine keepsBut_foldl_of (fun _ _ => ?_) ?_
      | with_reducible refine ⟨fun _ => ?_, fun _ => ?_⟩
      | simp +zetaHave (disch := decide) only [↓keepsBut_modCore, ↓keepsBut_coreLatch, ↓keepsBut_self, ↓keepsBut_ite, implies_true, and_self, and_true, true_and]
      | with_reducible intro _
      | split) h

@[simp ↓] theorem keepsBut_readSticky {ps : List Piece} (h : [Piece.guard, .core, .recorder] ⊆ ps) (r : State) (s : State) :
    keepsBut ps r (readSticky s) ↔ keepsBut ps r s :=
  keepsBut_peel (fp := [.guard, .core, .recorder]) (by
    unfold readSticky
    repeat' first
      | with_reducible exact keepsBut_refl _ _
      | with_reducible refine keepsBut_forEach_of (fun _ _ => ?_) ?_
      | with_reducible refine keepsBut_foldl_of (fun _ _ => ?_) ?_
      | with_reducible refine ⟨fun _ => ?_, fun _ => ?_⟩
      | simp +zetaHave (disch := decide) only [↓keepsBut_coreLatch, ↓keepsBut_modGuard, ↓keepsBut_self, ↓keepsBut_ite, implies_true, and_self, and_true, true_and]
      | with_reducible intro _
      | split) h

@[simp ↓] theorem keepsBut_storeLatches {ps : List Piece} (h : [Piece.boot] ⊆ ps) (r : State) (s : State) :
    keepsBut ps r (storeLatches s) ↔ keepsBut ps r s :=
  keepsBut_peel (fp := [.boot]) (by
    unfold storeLatches
    repeat' first
      | with_reducible exact keepsBut_refl _ _
      | with_reducible refine keepsBut_forEach_of (fun _ _ => ?_) ?_
      | with_reducible refine keepsBut_foldl_of (fun _ _ => ?_) ?_
      | with_reducible refine ⟨fun _ => ?_, fun _ => ?_⟩
      | simp +zetaHave (disch := decide) only [↓keepsBut_modBoot, ↓keepsBut_self, ↓keepsBut_ite, implies_true, and_self, and_true, true_and]
      | with_reducible intro _
      | split) h

@[simp ↓] theorem keepsBut_crossMonitor {ps : List Piece} (h : [Piece.core, .recorder] ⊆ ps) (r : State) (g : Nat) (selfOk : Bool) (s : State) :
    keepsBut ps r (crossMonitor g selfOk s) ↔ keepsBut ps r s :=
  keepsBut_peel (fp := [.core, .recorder]) (by
    unfold crossMonitor
    repeat' first
      | with_reducible exact keepsBut_refl _ _
      | with_reducible refine keepsBut_forEach_of (fun _ _ => ?_) ?_
      | with_reducible refine keepsBut_foldl_of (fun _ _ => ?_) ?_
      | with_reducible refine ⟨fun _ => ?_, fun _ => ?_⟩
      | simp +zetaHave (disch := decide) only [↓keepsBut_modCore, ↓keepsBut_stand, ↓keepsBut_self, ↓keepsBut_ite, implies_true, and_self, and_true, true_and]
      | with_reducible intro _
      | split) h

@[simp ↓] theorem keepsBut_monitorStep {ps : List Piece} (h : [Piece.core] ⊆ ps) (r : State) (s : State) :
    keepsBut ps r (monitorStep s) ↔ keepsBut ps r s :=
  keepsBut_peel (fp := [.core]) (by
    unfold monitorStep
    repeat' first
      | with_reducible exact keepsBut_refl _ _
      | with_reducible refine keepsBut_forEach_of (fun _ _ => ?_) ?_
      | with_reducible refine keepsBut_foldl_of (fun _ _ => ?_) ?_
      | with_reducible refine ⟨fun _ => ?_, fun _ => ?_⟩
      | simp +zetaHave (disch := decide) only [↓keepsBut_modCore, ↓keepsBut_self, ↓keepsBut_ite, implies_true, and_self, and_true, true_and]
      | with_reducible intro _
      | split) h

@[simp ↓] theorem keepsBut_resetRequest {ps : List Piece} (h : [Piece.core, .recorder] ⊆ ps) (r : State) (mask request ts : Nat) (s : State) :
    keepsBut ps r (resetRequest mask request ts s) ↔ keepsBut ps r s :=
  keepsBut_peel (fp := [.core, .recorder]) (by
    unfold resetRequest
    repeat' first
      | with_reducible exact keepsBut_refl _ _
      | with_reducible refine keepsBut_forEach_of (fun _ _ => ?_) ?_
      | with_reducible refine keepsBut_foldl_of (fun _ _ => ?_) ?_
      | with_reducible refine ⟨fun _ => ?_, fun _ => ?_⟩
      | simp +zetaHave (disch := decide) only [↓keepsBut_raise, ↓keepsBut_modCore, ↓keepsBut_self, ↓keepsBut_ite, implies_true, and_self, and_true, true_and]
      | with_reducible intro _
      | split) h

@[simp ↓] theorem keepsBut_armScope {ps : List Piece} (h : [Piece.core, .recorder] ⊆ ps) (r : State) (k : Nat) (s : State) :
    keepsBut ps r (armScope k s) ↔ keepsBut ps r s :=
  keepsBut_peel (fp := [.core, .recorder]) (by
    unfold armScope
    repeat' first
      | with_reducible exact keepsBut_refl _ _
      | with_reducible refine keepsBut_forEach_of (fun _ _ => ?_) ?_
      | with_reducible refine keepsBut_foldl_of (fun _ _ => ?_) ?_
      | with_reducible refine ⟨fun _ => ?_, fun _ => ?_⟩
      | simp +zetaHave (disch := decide) only [↓keepsBut_clear, ↓keepsBut_modCore, ↓keepsBut_self, ↓keepsBut_ite, implies_true, and_self, and_true, true_and]
      | with_reducible intro _
      | split) h

@[simp ↓] theorem keepsBut_decideReset {ps : List Piece} (h : [Piece.guard, .core, .recorder] ⊆ ps) (r : State) (s : State) :
    keepsBut ps r (decideReset s) ↔ keepsBut ps r s :=
  keepsBut_peel (fp := [.guard, .core, .recorder]) (by
    unfold decideReset
    repeat' first
      | with_reducible exact keepsBut_refl _ _
      | with_reducible refine keepsBut_forEach_of (fun _ _ => ?_) ?_
      | with_reducible refine keepsBut_foldl_of (fun _ _ => ?_) ?_
      | with_reducible refine ⟨fun _ => ?_, fun _ => ?_⟩
      | simp +zetaHave (disch := decide) only [↓keepsBut_armScope, ↓keepsBut_raise, ↓keepsBut_modCore, ↓keepsBut_modGuard, ↓keepsBut_self, ↓keepsBut_ite, implies_true, and_self, and_true, true_and]
      | with_reducible intro _
      | split) h

@[simp ↓] theorem keepsBut_scopeStep {ps : List Piece} (h : [Piece.core, .recorder] ⊆ ps) (r : State) (k : Nat) (s : State) :
    keepsBut ps r (scopeStep k s) ↔ keepsBut ps r s :=
  keepsBut_peel (fp := [.core, .recorder]) (by
    unfold scopeStep
    repeat' first
      | with_reducible exact keepsBut_refl _ _
      | with_reducible refine keepsBut_forEach_of (fun _ _ => ?_) ?_
      | with_reducible refine keepsBut_foldl_of (fun _ _ => ?_) ?_
      | with_reducible refine ⟨fun _ => ?_, fun _ => ?_⟩
      | simp +zetaHave (disch := decide) only [↓keepsBut_armScope, ↓keepsBut_modCore, ↓keepsBut_self, ↓keepsBut_ite, implies_true, and_self, and_true, true_and]
      | with_reducible intro _
      | split) h

@[simp ↓] theorem keepsBut_setPermits {ps : List Piece} (h : [Piece.core] ⊆ ps) (r : State) (s : State) :
    keepsBut ps r (setPermits s) ↔ keepsBut ps r s :=
  keepsBut_peel (fp := [.core]) (by
    unfold setPermits
    repeat' first
      | with_reducible exact keepsBut_refl _ _
      | with_reducible refine keepsBut_forEach_of (fun _ _ => ?_) ?_
      | with_reducible refine keepsBut_foldl_of (fun _ _ => ?_) ?_
      | with_reducible refine ⟨fun _ => ?_, fun _ => ?_⟩
      | simp +zetaHave (disch := decide) only [↓keepsBut_modCore, ↓keepsBut_self, ↓keepsBut_ite, implies_true, and_self, and_true, true_and]
      | with_reducible intro _
      | split) h

/-! ### Fsl -/

@[simp ↓] theorem keepsBut_updConn {ps : List Piece} (h : [Piece.core] ⊆ ps) (r : State) (k : Nat) (f : FslConn → FslConn) (s : State) :
    keepsBut ps r (updConn k f s) ↔ keepsBut ps r s :=
  keepsBut_peel (fp := [.core]) (by
    unfold updConn
    repeat' first
      | with_reducible exact keepsBut_refl _ _
      | with_reducible refine keepsBut_forEach_of (fun _ _ => ?_) ?_
      | with_reducible refine keepsBut_foldl_of (fun _ _ => ?_) ?_
      | with_reducible refine ⟨fun _ => ?_, fun _ => ?_⟩
      | simp +zetaHave (disch := decide) only [↓keepsBut_modCore, ↓keepsBut_self, ↓keepsBut_ite, implies_true, and_self, and_true, true_and]
      | with_reducible intro _
      | split) h

@[simp ↓] theorem keepsBut_rejectUnit {ps : List Piece} (h : [Piece.core, .recorder] ⊆ ps) (r : State) (s : State) :
    keepsBut ps r (rejectUnit s) ↔ keepsBut ps r s :=
  keepsBut_peel (fp := [.core, .recorder]) (by
    unfold rejectUnit
    repeat' first
      | with_reducible exact keepsBut_refl _ _
      | with_reducible refine keepsBut_forEach_of (fun _ _ => ?_) ?_
      | with_reducible refine keepsBut_foldl_of (fun _ _ => ?_) ?_
      | with_reducible refine ⟨fun _ => ?_, fun _ => ?_⟩
      | simp +zetaHave (disch := decide) only [↓keepsBut_raiseRound, ↓keepsBut_modCore, ↓keepsBut_self, ↓keepsBut_ite, implies_true, and_self, and_true, true_and]
      | with_reducible intro _
      | split) h

@[simp ↓] theorem keepsBut_bufferUnit {ps : List Piece} (h : [Piece.core, .recorder] ⊆ ps) (r : State) (u : FslUnit) (s : State) :
    keepsBut ps r (bufferUnit u s) ↔ keepsBut ps r s :=
  keepsBut_peel (fp := [.core, .recorder]) (by
    unfold bufferUnit
    repeat' first
      | with_reducible exact keepsBut_refl _ _
      | with_reducible refine keepsBut_forEach_of (fun _ _ => ?_) ?_
      | with_reducible refine keepsBut_foldl_of (fun _ _ => ?_) ?_
      | with_reducible refine ⟨fun _ => ?_, fun _ => ?_⟩
      | simp +zetaHave (disch := decide) only [↓keepsBut_rejectUnit, ↓keepsBut_modCore, ↓keepsBut_self, ↓keepsBut_ite, implies_true, and_self, and_true, true_and]
      | with_reducible intro _
      | split) h

@[simp ↓] theorem keepsBut_tripGroup {ps : List Piece} (h : [Piece.core, .recorder] ⊆ ps) (r : State) (s : State) :
    keepsBut ps r (tripGroup s) ↔ keepsBut ps r s :=
  keepsBut_peel (fp := [.core, .recorder]) (by
    unfold tripGroup
    repeat' first
      | with_reducible exact keepsBut_refl _ _
      | with_reducible refine keepsBut_forEach_of (fun _ _ => ?_) ?_
      | with_reducible refine keepsBut_foldl_of (fun _ _ => ?_) ?_
      | with_reducible refine ⟨fun _ => ?_, fun _ => ?_⟩
      | simp +zetaHave (disch := decide) only [↓keepsBut_coreLatch, ↓keepsBut_self, ↓keepsBut_ite, implies_true, and_self, and_true, true_and]
      | with_reducible intro _
      | split) h

@[simp ↓] theorem keepsBut_expireConn {ps : List Piece} (h : [Piece.core, .recorder] ⊆ ps) (r : State) (k : Nat) (s : State) :
    keepsBut ps r (expireConn k s) ↔ keepsBut ps r s :=
  keepsBut_peel (fp := [.core, .recorder]) (by
    unfold expireConn
    repeat' first
      | with_reducible exact keepsBut_refl _ _
      | with_reducible refine keepsBut_forEach_of (fun _ _ => ?_) ?_
      | with_reducible refine keepsBut_foldl_of (fun _ _ => ?_) ?_
      | with_reducible refine ⟨fun _ => ?_, fun _ => ?_⟩
      | simp +zetaHave (disch := decide) only [↓keepsBut_tripGroup, ↓keepsBut_updConn, ↓keepsBut_self, ↓keepsBut_ite, implies_true, and_self, and_true, true_and]
      | with_reducible intro _
      | split) h

@[simp ↓] theorem keepsBut_watchdogExpire {ps : List Piece} (h : [Piece.core, .recorder] ⊆ ps) (r : State) (k : Nat) (s : State) :
    keepsBut ps r (watchdogExpire k s) ↔ keepsBut ps r s :=
  keepsBut_peel (fp := [.core, .recorder]) (by
    unfold watchdogExpire
    repeat' first
      | with_reducible exact keepsBut_refl _ _
      | with_reducible refine keepsBut_forEach_of (fun _ _ => ?_) ?_
      | with_reducible refine keepsBut_foldl_of (fun _ _ => ?_) ?_
      | with_reducible refine ⟨fun _ => ?_, fun _ => ?_⟩
      | simp +zetaHave (disch := decide) only [↓keepsBut_expireConn, ↓keepsBut_stand, ↓keepsBut_self, ↓keepsBut_ite, implies_true, and_self, and_true, true_and]
      | with_reducible intro _
      | split) h

@[simp ↓] theorem keepsBut_connError {ps : List Piece} (h : [Piece.core, .recorder] ⊆ ps) (r : State) (code k : Nat) (s : State) :
    keepsBut ps r (connError code k s) ↔ keepsBut ps r s :=
  keepsBut_peel (fp := [.core, .recorder]) (by
    unfold connError
    repeat' first
      | with_reducible exact keepsBut_refl _ _
      | with_reducible refine keepsBut_forEach_of (fun _ _ => ?_) ?_
      | with_reducible refine keepsBut_foldl_of (fun _ _ => ?_) ?_
      | with_reducible refine ⟨fun _ => ?_, fun _ => ?_⟩
      | simp +zetaHave (disch := decide) only [↓keepsBut_raise, ↓keepsBut_updConn, ↓keepsBut_stand, ↓keepsBut_expireConn, ↓keepsBut_raiseRound, ↓keepsBut_self, ↓keepsBut_ite, implies_true, and_self, and_true, true_and]
      | with_reducible intro _
      | split) h

@[simp ↓] theorem keepsBut_acceptUnit {ps : List Piece} (h : [Piece.core, .recorder] ⊆ ps) (r : State) (k : Nat) (u : FslUnit) (s : State) :
    keepsBut ps r (acceptUnit k u s) ↔ keepsBut ps r s :=
  keepsBut_peel (fp := [.core, .recorder]) (by
    unfold acceptUnit
    repeat' first
      | with_reducible exact keepsBut_refl _ _
      | with_reducible refine keepsBut_forEach_of (fun _ _ => ?_) ?_
      | with_reducible refine keepsBut_foldl_of (fun _ _ => ?_) ?_
      | with_reducible refine ⟨fun _ => ?_, fun _ => ?_⟩
      | simp +zetaHave (disch := decide) only [↓keepsBut_raise, ↓keepsBut_updConn, ↓keepsBut_watchdogExpire, ↓keepsBut_resetRequest, ↓keepsBut_clear, ↓keepsBut_self, ↓keepsBut_ite, implies_true, and_self, and_true, true_and]
      | with_reducible intro _
      | split) h

@[simp ↓] theorem keepsBut_checkUnit {ps : List Piece} (h : [Piece.core, .recorder] ⊆ ps) (r : State) (k : Nat) (u : FslUnit) (s : State) :
    keepsBut ps r (checkUnit k u s) ↔ keepsBut ps r s :=
  keepsBut_peel (fp := [.core, .recorder]) (by
    unfold checkUnit
    repeat' first
      | with_reducible exact keepsBut_refl _ _
      | with_reducible refine keepsBut_forEach_of (fun _ _ => ?_) ?_
      | with_reducible refine keepsBut_foldl_of (fun _ _ => ?_) ?_
      | with_reducible refine ⟨fun _ => ?_, fun _ => ?_⟩
      | simp +zetaHave (disch := decide) only [↓keepsBut_acceptUnit, ↓keepsBut_tripGroup, ↓keepsBut_raise, ↓keepsBut_modCore, ↓keepsBut_connError, ↓keepsBut_self, ↓keepsBut_ite, implies_true, and_self, and_true, true_and]
      | with_reducible intro _
      | split) h

@[simp ↓] theorem keepsBut_takeUnit {ps : List Piece} (h : [Piece.core, .recorder] ⊆ ps) (r : State) (u : FslUnit) (s : State) :
    keepsBut ps r (takeUnit u s) ↔ keepsBut ps r s :=
  keepsBut_peel (fp := [.core, .recorder]) (by
    unfold takeUnit
    repeat' first
      | with_reducible exact keepsBut_refl _ _
      | with_reducible refine keepsBut_forEach_of (fun _ _ => ?_) ?_
      | with_reducible refine keepsBut_foldl_of (fun _ _ => ?_) ?_
      | with_reducible refine ⟨fun _ => ?_, fun _ => ?_⟩
      | simp +zetaHave (disch := decide) only [↓keepsBut_checkUnit, ↓keepsBut_rejectUnit, ↓keepsBut_self, ↓keepsBut_ite, implies_true, and_self, and_true, true_and]
      | with_reducible intro _
      | split) h

@[simp ↓] theorem keepsBut_takeUnits {ps : List Piece} (h : [Piece.core, .recorder] ⊆ ps) (r : State) (upTo : Nat) (s : State) :
    keepsBut ps r (takeUnits upTo s) ↔ keepsBut ps r s :=
  keepsBut_peel (fp := [.core, .recorder]) (by
    unfold takeUnits
    repeat' first
      | with_reducible exact keepsBut_refl _ _
      | with_reducible refine keepsBut_forEach_of (fun _ _ => ?_) ?_
      | with_reducible refine keepsBut_foldl_of (fun _ _ => ?_) ?_
      | with_reducible refine ⟨fun _ => ?_, fun _ => ?_⟩
      | simp +zetaHave (disch := decide) only [↓keepsBut_takeUnit, ↓keepsBut_modCore, ↓keepsBut_self, ↓keepsBut_ite, implies_true, and_self, and_true, true_and]
      | with_reducible intro _
      | split) h

@[simp ↓] theorem keepsBut_checkWatchdogs {ps : List Piece} (h : [Piece.core, .recorder] ⊆ ps) (r : State) (upTo : Nat) (s : State) :
    keepsBut ps r (checkWatchdogs upTo s) ↔ keepsBut ps r s :=
  keepsBut_peel (fp := [.core, .recorder]) (by
    unfold checkWatchdogs
    repeat' first
      | with_reducible exact keepsBut_refl _ _
      | with_reducible refine keepsBut_forEach_of (fun _ _ => ?_) ?_
      | with_reducible refine keepsBut_foldl_of (fun _ _ => ?_) ?_
      | with_reducible refine ⟨fun _ => ?_, fun _ => ?_⟩
      | simp +zetaHave (disch := decide) only [↓keepsBut_watchdogExpire, ↓keepsBut_self, ↓keepsBut_ite, implies_true, and_self, and_true, true_and]
      | with_reducible intro _
      | split) h

@[simp ↓] theorem keepsBut_fslStatus {ps : List Piece} (h : [Piece.time, .core, .can, .recorder, .out] ⊆ ps) (r : State) (g : Nat) (s : State) :
    keepsBut ps r (fslStatus g s) ↔ keepsBut ps r s :=
  keepsBut_peel (fp := [.time, .core, .can, .recorder, .out]) (by
    unfold fslStatus
    repeat' first
      | with_reducible exact keepsBut_refl _ _
      | with_reducible refine keepsBut_forEach_of (fun _ _ => ?_) ?_
      | with_reducible refine keepsBut_foldl_of (fun _ _ => ?_) ?_
      | with_reducible refine ⟨fun _ => ?_, fun _ => ?_⟩
      | simp +zetaHave (disch := decide) only [↓keepsBut_modCore, ↓keepsBut_send, ↓keepsBut_queueCan, ↓keepsBut_at_, ↓keepsBut_self, ↓keepsBut_ite, implies_true, and_self, and_true, true_and]
      | with_reducible intro _
      | split) h

@[simp ↓] theorem keepsBut_safetyEvaluation {ps : List Piece} (h : [Piece.time, .guard, .core, .can, .recorder, .boot, .out] ⊆ ps) (r : State) (selfOk : Bool) (s : State) :
    keepsBut ps r (safetyEvaluation selfOk s) ↔ keepsBut ps r s :=
  keepsBut_peel (fp := [.time, .guard, .core, .can, .recorder, .boot, .out]) (by
    unfold safetyEvaluation
    repeat' first
      | with_reducible exact keepsBut_refl _ _
      | with_reducible refine keepsBut_forEach_of (fun _ _ => ?_) ?_
      | with_reducible refine keepsBut_foldl_of (fun _ _ => ?_) ?_
      | with_reducible refine ⟨fun _ => ?_, fun _ => ?_⟩
      | simp +zetaHave (disch := decide) only [↓keepsBut_crossMonitor, ↓keepsBut_storeLatches, ↓keepsBut_readSticky, ↓keepsBut_checkWatchdogs, ↓keepsBut_modCore, ↓keepsBut_fslStatus, ↓keepsBut_setPermits, ↓keepsBut_scopeStep, ↓keepsBut_decideReset, ↓keepsBut_latchHazards, ↓keepsBut_monitorStep, ↓keepsBut_takeUnits, ↓keepsBut_self, ↓keepsBut_ite, implies_true, and_self, and_true, true_and]
      | with_reducible intro _
      | split) h

/-! ### Blocks -/

@[simp ↓] theorem keepsBut_writeBits {ps : List Piece} (h : [Piece.prog] ⊆ ps) (r : State) (i : Nat) (b : BitVec 32) (s : State) :
    keepsBut ps r (writeBits i b s) ↔ keepsBut ps r s :=
  keepsBut_peel (fp := [.prog]) (by
    unfold writeBits
    repeat' first
      | with_reducible exact keepsBut_refl _ _
      | with_reducible refine keepsBut_forEach_of (fun _ _ => ?_) ?_
      | with_reducible refine keepsBut_foldl_of (fun _ _ => ?_) ?_
      | with_reducible refine ⟨fun _ => ?_, fun _ => ?_⟩
      | simp +zetaHave (disch := decide) only [↓keepsBut_modProg, ↓keepsBut_self, ↓keepsBut_ite, implies_true, and_self, and_true, true_and]
      | with_reducible intro _
      | split) h

@[simp ↓] theorem keepsBut_numOut {ps : List Piece} (h : [Piece.prog] ⊆ ps) (r : State) (fl : Bool) (v : Int) (i : Nat) (s : State) :
    keepsBut ps r (numOut fl v i s) ↔ keepsBut ps r s :=
  keepsBut_peel (fp := [.prog]) (by
    unfold numOut
    repeat' first
      | with_reducible exact keepsBut_refl _ _
      | with_reducible refine keepsBut_forEach_of (fun _ _ => ?_) ?_
      | with_reducible refine keepsBut_foldl_of (fun _ _ => ?_) ?_
      | with_reducible refine ⟨fun _ => ?_, fun _ => ?_⟩
      | simp +zetaHave (disch := decide) only [↓keepsBut_writeBits, ↓keepsBut_self, ↓keepsBut_ite, implies_true, and_self, and_true, true_and]
      | with_reducible intro _
      | split) h

@[simp ↓] theorem keepsBut_boolOut {ps : List Piece} (h : [Piece.prog] ⊆ ps) (r : State) (b : Bool) (i : Nat) (s : State) :
    keepsBut ps r (boolOut b i s) ↔ keepsBut ps r s :=
  keepsBut_peel (fp := [.prog]) (by
    unfold boolOut
    repeat' first
      | with_reducible exact keepsBut_refl _ _
      | with_reducible refine keepsBut_forEach_of (fun _ _ => ?_) ?_
      | with_reducible refine keepsBut_foldl_of (fun _ _ => ?_) ?_
      | with_reducible refine ⟨fun _ => ?_, fun _ => ?_⟩
      | simp +zetaHave (disch := decide) only [↓keepsBut_writeBits, ↓keepsBut_self, ↓keepsBut_ite, implies_true, and_self, and_true, true_and]
      | with_reducible intro _
      | split) h

@[simp ↓] theorem keepsBut_moveVar {ps : List Piece} (h : [Piece.prog] ⊆ ps) (r : State) (src dst : Nat) (s : State) :
    keepsBut ps r (moveVar src dst s) ↔ keepsBut ps r s :=
  keepsBut_peel (fp := [.prog]) (by
    unfold moveVar
    repeat' first
      | with_reducible exact keepsBut_refl _ _
      | with_reducible refine keepsBut_forEach_of (fun _ _ => ?_) ?_
      | with_reducible refine keepsBut_foldl_of (fun _ _ => ?_) ?_
      | with_reducible refine ⟨fun _ => ?_, fun _ => ?_⟩
      | simp +zetaHave (disch := decide) only [↓keepsBut_writeBits, ↓keepsBut_self, ↓keepsBut_ite, implies_true, and_self, and_true, true_and]
      | with_reducible intro _
      | split) h

@[simp ↓] theorem keepsBut_setInst {ps : List Piece} (h : [Piece.prog] ⊆ ps) (r : State) (id : Nat) (x : InstSt) (s : State) :
    keepsBut ps r (setInst id x s) ↔ keepsBut ps r s :=
  keepsBut_peel (fp := [.prog]) (by
    unfold setInst
    repeat' first
      | with_reducible exact keepsBut_refl _ _
      | with_reducible refine keepsBut_forEach_of (fun _ _ => ?_) ?_
      | with_reducible refine keepsBut_foldl_of (fun _ _ => ?_) ?_
      | with_reducible refine ⟨fun _ => ?_, fun _ => ?_⟩
      | simp +zetaHave (disch := decide) only [↓keepsBut_modProg, ↓keepsBut_self, ↓keepsBut_ite, implies_true, and_self, and_true, true_and]
      | with_reducible intro _
      | split) h

@[simp ↓] theorem keepsBut_arithFault {ps : List Piece} (h : [Piece.prog] ⊆ ps) (r : State) (s : State) :
    keepsBut ps r (arithFault s) ↔ keepsBut ps r s :=
  keepsBut_peel (fp := [.prog]) (by
    unfold arithFault
    repeat' first
      | with_reducible exact keepsBut_refl _ _
      | with_reducible refine keepsBut_forEach_of (fun _ _ => ?_) ?_
      | with_reducible refine keepsBut_foldl_of (fun _ _ => ?_) ?_
      | with_reducible refine ⟨fun _ => ?_, fun _ => ?_⟩
      | simp +zetaHave (disch := decide) only [↓keepsBut_modProg, ↓keepsBut_self, ↓keepsBut_ite, implies_true, and_self, and_true, true_and]
      | with_reducible intro _
      | split) h

theorem keepsBut_outK {ps : List Piece} {f : Nat → State → State} (hf : ∀ o x, keepsBut ps x (f o x)) (r : State) (d : InstDef) (k : Nat) (s : State) :
    keepsBut ps r (outK d k f s) ↔ keepsBut ps r s := by
  refine keepsBut_peel (fp := ps) ?_ (List.Subset.refl ps)
  unfold outK
  exact keepsBut_ite_of (hf _ _) (keepsBut_refl ps s)

/-- Taking the oldest capture changes the queue alone. -/
theorem keepsBut_popCapture {ps : List Piece} (h : [Piece.time] ⊆ ps) {r s t : State} {k : Nat} {e : Option CapEntry} (hp : popCapture k s = (e, t)) :
    keepsBut ps r t ↔ keepsBut ps r s := by
  refine keepsBut_peel (fp := [.time]) ?_ h
  unfold popCapture at hp
  split at hp <;> (simp only [Prod.mk.injEq] at hp; obtain ⟨_, rfl⟩ := hp)
  · exact keepsBut_refl _ _
  · exact (keepsBut_modTime (by decide) _ _ _).2 (keepsBut_refl _ _)


@[simp ↓] theorem keepsBut_readBlock {ps : List Piece} (h : [Piece.time, .prog, .recorder] ⊆ ps) (r : State) (l : LatchIn) (d : InstDef) (x : InstSt) (s : State) :
    keepsBut ps r (readBlock l d x s) ↔ keepsBut ps r s :=
  keepsBut_peel (fp := [.time, .prog, .recorder]) (by
    unfold readBlock
    repeat' first
      | with_reducible exact keepsBut_refl _ _
      | with_reducible refine (keepsBut_outK (fun _ _ => ?_) ..).2 ?_
      | with_reducible refine (keepsBut_popCapture (by decide) (by assumption)).2 ?_
      | with_reducible refine (keepsBut_setInst (by decide) ..).2 ?_
      | with_reducible refine (keepsBut_moveVar (by decide) ..).2 ?_
      | with_reducible refine (keepsBut_boolOut (by decide) ..).2 ?_
      | with_reducible refine (keepsBut_numOut (by decide) ..).2 ?_
      | with_reducible refine (keepsBut_writeBits (by decide) ..).2 ?_
      | with_reducible refine (keepsBut_stand (by decide) ..).2 ?_
      | with_reducible refine (keepsBut_clear (by decide) ..).2 ?_
      | with_reducible refine (keepsBut_modProg (by decide) ..).2 ?_
      | with_reducible refine keepsBut_forEach_of (fun _ _ => ?_) ?_
      | with_reducible refine keepsBut_foldl_of (fun _ _ => ?_) ?_
      | with_reducible refine keepsBut_foldl_fst_of (fun _ _ => ?_) ?_
      | with_reducible refine keepsBut_ite_of ?_ ?_
      | with_reducible refine keepsBut_ite_fst_of ?_ ?_
      | extract_lets
      | split
      | with_reducible intro _
      | dsimp only
      | (dsimp +zetaDelta only; split)) h

@[simp ↓] theorem keepsBut_execInst {ps : List Piece} (h : [Piece.time, .prog, .recorder] ⊆ ps) (r : State) (l : LatchIn) (d : InstDef) (s : State) :
    keepsBut ps r (execInst l d s) ↔ keepsBut ps r s :=
  keepsBut_peel (fp := [.time, .prog, .recorder]) (by
    unfold execInst
    repeat' first
      | with_reducible exact keepsBut_refl _ _
      | with_reducible refine (keepsBut_readBlock (by decide) ..).2 ?_
      | with_reducible refine (keepsBut_outK (fun _ _ => ?_) ..).2 ?_
      | with_reducible refine (keepsBut_arithFault (by decide) ..).2 ?_
      | with_reducible refine (keepsBut_setInst (by decide) ..).2 ?_
      | with_reducible refine (keepsBut_moveVar (by decide) ..).2 ?_
      | with_reducible refine (keepsBut_boolOut (by decide) ..).2 ?_
      | with_reducible refine (keepsBut_numOut (by decide) ..).2 ?_
      | with_reducible refine (keepsBut_writeBits (by decide) ..).2 ?_
      | with_reducible refine keepsBut_forEach_of (fun _ _ => ?_) ?_
      | with_reducible refine keepsBut_foldl_of (fun _ _ => ?_) ?_
      | with_reducible refine keepsBut_foldl_fst_of (fun _ _ => ?_) ?_
      | with_reducible refine keepsBut_ite_of ?_ ?_
      | with_reducible refine keepsBut_ite_fst_of ?_ ?_
      | extract_lets
      | split
      | with_reducible intro _
      | dsimp only
      | (dsimp +zetaDelta only; split)) h

/-! ### Program -/

@[simp ↓] theorem keepsBut_toProg {ps : List Piece} (h : [Piece.prog, .recorder] ⊆ ps) (r : State) (st : ProgSt) (s : State) :
    keepsBut ps r (toProg st s) ↔ keepsBut ps r s :=
  keepsBut_peel (fp := [.prog, .recorder]) (by
    unfold toProg
    repeat' first
      | with_reducible exact keepsBut_refl _ _
      | with_reducible refine keepsBut_forEach_of (fun _ _ => ?_) ?_
      | with_reducible refine keepsBut_foldl_of (fun _ _ => ?_) ?_
      | with_reducible refine ⟨fun _ => ?_, fun _ => ?_⟩
      | simp +zetaHave (disch := decide) only [↓keepsBut_raise, ↓keepsBut_modProg, ↓keepsBut_self, ↓keepsBut_ite, implies_true, and_self, and_true, true_and]
      | with_reducible intro _
      | split) h

@[simp ↓] theorem keepsBut_safeValues {ps : List Piece} (h : [Piece.prog] ⊆ ps) (r : State) (s : State) :
    keepsBut ps r (safeValues s) ↔ keepsBut ps r s :=
  keepsBut_peel (fp := [.prog]) (by
    unfold safeValues
    repeat' first
      | with_reducible exact keepsBut_refl _ _
      | with_reducible refine keepsBut_forEach_of (fun _ _ => ?_) ?_
      | with_reducible refine keepsBut_foldl_of (fun _ _ => ?_) ?_
      | with_reducible refine ⟨fun _ => ?_, fun _ => ?_⟩
      | simp +zetaHave (disch := decide) only [↓keepsBut_modProg, ↓keepsBut_self, ↓keepsBut_ite, implies_true, and_self, and_true, true_and]
      | with_reducible intro _
      | split) h

@[simp ↓] theorem keepsBut_initProg {ps : List Piece} (h : [Piece.prog] ⊆ ps) (r : State) (s : State) :
    keepsBut ps r (initProg s) ↔ keepsBut ps r s :=
  keepsBut_peel (fp := [.prog]) (by
    unfold initProg
    repeat' first
      | with_reducible exact keepsBut_refl _ _
      | with_reducible refine keepsBut_forEach_of (fun _ _ => ?_) ?_
      | with_reducible refine keepsBut_foldl_of (fun _ _ => ?_) ?_
      | with_reducible refine ⟨fun _ => ?_, fun _ => ?_⟩
      | simp +zetaHave (disch := decide) only [↓keepsBut_modProg, ↓keepsBut_self, ↓keepsBut_ite, implies_true, and_self, and_true, true_and]
      | with_reducible intro _
      | split) h

@[simp ↓] theorem keepsBut_stopProg {ps : List Piece} (h : [Piece.prog, .recorder] ⊆ ps) (r : State) (st : ProgSt) (s : State) :
    keepsBut ps r (stopProg st s) ↔ keepsBut ps r s :=
  keepsBut_peel (fp := [.prog, .recorder]) (by
    unfold stopProg
    repeat' first
      | with_reducible exact keepsBut_refl _ _
      | with_reducible refine keepsBut_forEach_of (fun _ _ => ?_) ?_
      | with_reducible refine keepsBut_foldl_of (fun _ _ => ?_) ?_
      | with_reducible refine ⟨fun _ => ?_, fun _ => ?_⟩
      | simp +zetaHave (disch := decide) only [↓keepsBut_toProg, ↓keepsBut_modProg, ↓keepsBut_self, ↓keepsBut_ite, implies_true, and_self, and_true, true_and]
      | with_reducible intro _
      | split) h

@[simp ↓] theorem keepsBut_overrunProg {ps : List Piece} (h : [Piece.prog, .recorder, .pwr] ⊆ ps) (r : State) (s : State) :
    keepsBut ps r (overrunProg s) ↔ keepsBut ps r s :=
  keepsBut_peel (fp := [.prog, .recorder, .pwr]) (by
    unfold overrunProg
    repeat' first
      | with_reducible exact keepsBut_refl _ _
      | with_reducible refine keepsBut_forEach_of (fun _ _ => ?_) ?_
      | with_reducible refine keepsBut_foldl_of (fun _ _ => ?_) ?_
      | with_reducible refine ⟨fun _ => ?_, fun _ => ?_⟩
      | simp +zetaHave (disch := decide) only [↓keepsBut_overrun, ↓keepsBut_modProg, ↓keepsBut_stopProg, ↓keepsBut_stand, ↓keepsBut_self, ↓keepsBut_ite, implies_true, and_self, and_true, true_and]
      | with_reducible intro _
      | split) h

@[simp ↓] theorem keepsBut_modeCmd {ps : List Piece} (h : [Piece.prog, .recorder, .pwr] ⊆ ps) (r : State) (code : Nat) (s : State) :
    keepsBut ps r (modeCmd code s) ↔ keepsBut ps r s :=
  keepsBut_peel (fp := [.prog, .recorder, .pwr]) (by
    unfold modeCmd
    repeat' first
      | with_reducible exact keepsBut_refl _ _
      | with_reducible refine keepsBut_forEach_of (fun _ _ => ?_) ?_
      | with_reducible refine keepsBut_foldl_of (fun _ _ => ?_) ?_
      | with_reducible refine ⟨fun _ => ?_, fun _ => ?_⟩
      | simp +zetaHave (disch := decide) only [↓keepsBut_modProg, ↓keepsBut_overrun, ↓keepsBut_raise, ↓keepsBut_initProg, ↓keepsBut_stopProg, ↓keepsBut_toProg, ↓keepsBut_clear, ↓keepsBut_self, ↓keepsBut_ite, implies_true, and_self, and_true, true_and]
      | with_reducible intro _
      | split) h

@[simp ↓] theorem keepsBut_progOperate {ps : List Piece} (h : [Piece.prog, .recorder] ⊆ ps) (r : State) (s : State) :
    keepsBut ps r (progOperate s) ↔ keepsBut ps r s :=
  keepsBut_peel (fp := [.prog, .recorder]) (by
    unfold progOperate
    repeat' first
      | with_reducible exact keepsBut_refl _ _
      | with_reducible refine keepsBut_forEach_of (fun _ _ => ?_) ?_
      | with_reducible refine keepsBut_foldl_of (fun _ _ => ?_) ?_
      | with_reducible refine ⟨fun _ => ?_, fun _ => ?_⟩
      | simp +zetaHave (disch := decide) only [↓keepsBut_raise, ↓keepsBut_stopProg, ↓keepsBut_self, ↓keepsBut_ite, implies_true, and_self, and_true, true_and]
      | with_reducible intro _
      | split) h

@[simp ↓] theorem keepsBut_forceVar {ps : List Piece} (h : [Piece.prog, .recorder] ⊆ ps) (r : State) (i : Nat) (b : BitVec 32) (s : State) :
    keepsBut ps r (forceVar i b s) ↔ keepsBut ps r s :=
  keepsBut_peel (fp := [.prog, .recorder]) (by
    unfold forceVar
    repeat' first
      | with_reducible exact keepsBut_refl _ _
      | with_reducible refine keepsBut_forEach_of (fun _ _ => ?_) ?_
      | with_reducible refine keepsBut_foldl_of (fun _ _ => ?_) ?_
      | with_reducible refine ⟨fun _ => ?_, fun _ => ?_⟩
      | simp +zetaHave (disch := decide) only [↓keepsBut_raise, ↓keepsBut_modProg, ↓keepsBut_self, ↓keepsBut_ite, implies_true, and_self, and_true, true_and]
      | with_reducible intro _
      | split) h

@[simp ↓] theorem keepsBut_releaseForce {ps : List Piece} (h : [Piece.prog, .recorder] ⊆ ps) (r : State) (i : Nat) (s : State) :
    keepsBut ps r (releaseForce i s) ↔ keepsBut ps r s :=
  keepsBut_peel (fp := [.prog, .recorder]) (by
    unfold releaseForce
    repeat' first
      | with_reducible exact keepsBut_refl _ _
      | with_reducible refine keepsBut_forEach_of (fun _ _ => ?_) ?_
      | with_reducible refine keepsBut_foldl_of (fun _ _ => ?_) ?_
      | with_reducible refine ⟨fun _ => ?_, fun _ => ?_⟩
      | simp +zetaHave (disch := decide) only [↓keepsBut_raise, ↓keepsBut_modProg, ↓keepsBut_self, ↓keepsBut_ite, implies_true, and_self, and_true, true_and]
      | with_reducible intro _
      | split) h

@[simp ↓] theorem keepsBut_activateProg {ps : List Piece} (h : [Piece.prog, .recorder, .boot] ⊆ ps) (r : State) (version : Nat) (s : State) :
    keepsBut ps r (activateProg version s) ↔ keepsBut ps r s :=
  keepsBut_peel (fp := [.prog, .recorder, .boot]) (by
    unfold activateProg
    repeat' first
      | with_reducible exact keepsBut_refl _ _
      | with_reducible refine keepsBut_forEach_of (fun _ _ => ?_) ?_
      | with_reducible refine keepsBut_foldl_of (fun _ _ => ?_) ?_
      | with_reducible refine ⟨fun _ => ?_, fun _ => ?_⟩
      | simp +zetaHave (disch := decide) only [↓keepsBut_raise, ↓keepsBut_modBoot, ↓keepsBut_modProg, ↓keepsBut_toProg, ↓keepsBut_safeValues, ↓keepsBut_clear, ↓keepsBut_self, ↓keepsBut_ite, implies_true, and_self, and_true, true_and]
      | with_reducible intro _
      | split) h

@[simp ↓] theorem keepsBut_applyCmd {ps : List Piece} (h : [Piece.prog, .recorder, .boot, .pwr] ⊆ ps) (r : State) (c : ProgCmd) (s : State) :
    keepsBut ps r (applyCmd c s) ↔ keepsBut ps r s :=
  keepsBut_peel (fp := [.prog, .recorder, .boot, .pwr]) (by
    unfold applyCmd
    repeat' first
      | with_reducible exact keepsBut_refl _ _
      | with_reducible refine keepsBut_forEach_of (fun _ _ => ?_) ?_
      | with_reducible refine keepsBut_foldl_of (fun _ _ => ?_) ?_
      | with_reducible refine ⟨fun _ => ?_, fun _ => ?_⟩
      | simp +zetaHave (disch := decide) only [↓keepsBut_modeCmd, ↓keepsBut_releaseForce, ↓keepsBut_forceVar, ↓keepsBut_activateProg, ↓keepsBut_self, ↓keepsBut_ite, implies_true, and_self, and_true, true_and]
      | with_reducible intro _
      | split) h

@[simp ↓] theorem keepsBut_applyCmds {ps : List Piece} (h : [Piece.prog, .recorder, .boot, .pwr] ⊆ ps) (r : State) (s : State) :
    keepsBut ps r (applyCmds s) ↔ keepsBut ps r s :=
  keepsBut_peel (fp := [.prog, .recorder, .boot, .pwr]) (by
    unfold applyCmds
    repeat' first
      | with_reducible exact keepsBut_refl _ _
      | with_reducible refine keepsBut_forEach_of (fun _ _ => ?_) ?_
      | with_reducible refine keepsBut_foldl_of (fun _ _ => ?_) ?_
      | with_reducible refine ⟨fun _ => ?_, fun _ => ?_⟩
      | simp +zetaHave (disch := decide) only [↓keepsBut_applyCmd, ↓keepsBut_modProg, ↓keepsBut_self, ↓keepsBut_ite, implies_true, and_self, and_true, true_and]
      | with_reducible intro _
      | split) h

@[simp ↓] theorem keepsBut_latchStations {ps : List Piece} (h : [Piece.can] ⊆ ps) (r : State) (s : State) :
    keepsBut ps r (latchStations s) ↔ keepsBut ps r s :=
  keepsBut_peel (fp := [.can]) (by
    unfold latchStations
    repeat' first
      | with_reducible exact keepsBut_refl _ _
      | with_reducible refine keepsBut_forEach_of (fun _ _ => ?_) ?_
      | with_reducible refine keepsBut_foldl_of (fun _ _ => ?_) ?_
      | with_reducible refine ⟨fun _ => ?_, fun _ => ?_⟩
      | simp +zetaHave (disch := decide) only [↓keepsBut_modCan, ↓keepsBut_self, ↓keepsBut_ite, implies_true, and_self, and_true, true_and]
      | with_reducible intro _
      | split) h

@[simp ↓] theorem keepsBut_latchProgInputs {ps : List Piece} (h : [Piece.prog] ⊆ ps) (r : State) (s : State) :
    keepsBut ps r (latchProgInputs s) ↔ keepsBut ps r s :=
  keepsBut_peel (fp := [.prog]) (by
    unfold latchProgInputs
    repeat' first
      | with_reducible exact keepsBut_refl _ _
      | with_reducible refine keepsBut_forEach_of (fun _ _ => ?_) ?_
      | with_reducible refine keepsBut_foldl_of (fun _ _ => ?_) ?_
      | with_reducible refine ⟨fun _ => ?_, fun _ => ?_⟩
      | simp +zetaHave (disch := decide) only [↓keepsBut_modProg, ↓keepsBut_self, ↓keepsBut_ite, implies_true, and_self, and_true, true_and]
      | with_reducible intro _
      | split) h

@[simp ↓] theorem keepsBut_runCycle {ps : List Piece} (h : [Piece.time, .can, .prog, .recorder] ⊆ ps) (r : State) (s : State) :
    keepsBut ps r (runCycle s) ↔ keepsBut ps r s :=
  keepsBut_peel (fp := [.time, .can, .prog, .recorder]) (by
    unfold runCycle
    repeat' first
      | with_reducible exact keepsBut_refl _ _
      | with_reducible refine keepsBut_forEach_of (fun _ _ => ?_) ?_
      | with_reducible refine keepsBut_foldl_of (fun _ _ => ?_) ?_
      | with_reducible refine ⟨fun _ => ?_, fun _ => ?_⟩
      | simp +zetaHave (disch := decide) only [↓keepsBut_latchStations, ↓keepsBut_latchProgInputs, ↓keepsBut_modProg, ↓keepsBut_raise, ↓keepsBut_clear, ↓keepsBut_stand, ↓keepsBut_execInst, ↓keepsBut_self, ↓keepsBut_ite, implies_true, and_self, and_true, true_and]
      | with_reducible intro _
      | split) h

@[simp ↓] theorem keepsBut_progPublication {ps : List Piece} (h : [Piece.time, .can, .prog, .recorder, .boot, .pwr] ⊆ ps) (r : State) (s : State) :
    keepsBut ps r (progPublication s) ↔ keepsBut ps r s :=
  keepsBut_peel (fp := [.time, .can, .prog, .recorder, .boot, .pwr]) (by
    unfold progPublication
    repeat' first
      | with_reducible exact keepsBut_refl _ _
      | with_reducible refine keepsBut_forEach_of (fun _ _ => ?_) ?_
      | with_reducible refine keepsBut_foldl_of (fun _ _ => ?_) ?_
      | with_reducible refine ⟨fun _ => ?_, fun _ => ?_⟩
      | simp +zetaHave (disch := decide) only [↓keepsBut_applyCmds, ↓keepsBut_runCycle, ↓keepsBut_self, ↓keepsBut_ite, implies_true, and_self, and_true, true_and]
      | with_reducible intro _
      | split) h

@[simp ↓] theorem keepsBut_progFrame {ps : List Piece} (h : [Piece.can, .prog] ⊆ ps) (r : State) (s : State) :
    keepsBut ps r (progFrame s) ↔ keepsBut ps r s :=
  keepsBut_peel (fp := [.can, .prog]) (by
    unfold progFrame
    repeat' first
      | with_reducible exact keepsBut_refl _ _
      | with_reducible refine keepsBut_forEach_of (fun _ _ => ?_) ?_
      | with_reducible refine keepsBut_foldl_of (fun _ _ => ?_) ?_
      | with_reducible refine ⟨fun _ => ?_, fun _ => ?_⟩
      | simp +zetaHave (disch := decide) only [↓keepsBut_safeValues, ↓keepsBut_modProg, ↓keepsBut_modCan, ↓keepsBut_self, ↓keepsBut_ite, implies_true, and_self, and_true, true_and]
      | with_reducible intro _
      | split) h

@[simp ↓] theorem keepsBut_rpdoStation {ps : List Piece} (h : [Piece.time, .can, .recorder] ⊆ ps) (r : State) (k : Nat) (s : State) :
    keepsBut ps r (rpdoStation k s) ↔ keepsBut ps r s :=
  keepsBut_peel (fp := [.time, .can, .recorder]) (by
    unfold rpdoStation
    repeat' first
      | with_reducible exact keepsBut_refl _ _
      | with_reducible refine keepsBut_forEach_of (fun _ _ => ?_) ?_
      | with_reducible refine keepsBut_foldl_of (fun _ _ => ?_) ?_
      | with_reducible refine ⟨fun _ => ?_, fun _ => ?_⟩
      | simp +zetaHave (disch := decide) only [↓keepsBut_raise, ↓keepsBut_coSend, ↓keepsBut_updStation, ↓keepsBut_self, ↓keepsBut_ite, implies_true, and_self, and_true, true_and]
      | with_reducible intro _
      | split) h

@[simp ↓] theorem keepsBut_rpdoFrame {ps : List Piece} (h : [Piece.time, .can, .recorder] ⊆ ps) (r : State) (s : State) :
    keepsBut ps r (rpdoFrame s) ↔ keepsBut ps r s :=
  keepsBut_peel (fp := [.time, .can, .recorder]) (by
    unfold rpdoFrame
    repeat' first
      | with_reducible exact keepsBut_refl _ _
      | with_reducible refine keepsBut_forEach_of (fun _ _ => ?_) ?_
      | with_reducible refine keepsBut_foldl_of (fun _ _ => ?_) ?_
      | with_reducible refine ⟨fun _ => ?_, fun _ => ?_⟩
      | simp +zetaHave (disch := decide) only [↓keepsBut_rpdoStation, ↓keepsBut_self, ↓keepsBut_ite, implies_true, and_self, and_true, true_and]
      | with_reducible intro _
      | split) h

@[simp ↓] theorem keepsBut_opProgLoad {ps : List Piece} (h : [Piece.prog, .recorder] ⊆ ps) (r : State) (t : Nat) (pay : List Byte) (s : State) :
    keepsBut ps r (opProgLoad t pay s).1 ↔ keepsBut ps r s :=
  keepsBut_peel (fp := [.prog, .recorder]) (by
    unfold opProgLoad
    repeat' first
      | with_reducible exact keepsBut_refl _ _
      | with_reducible refine keepsBut_forEach_of (fun _ _ => ?_) ?_
      | with_reducible refine keepsBut_foldl_of (fun _ _ => ?_) ?_
      | with_reducible refine ⟨fun _ => ?_, fun _ => ?_⟩
      | simp +zetaHave (disch := decide) only [↓keepsBut_opFail, ↓keepsBut_raise, ↓keepsBut_opOk, ↓keepsBut_modProg, ↓keepsBut_self, ↓keepsBut_ite, implies_true, and_self, and_true, true_and]
      | with_reducible intro _
      | split) h

@[simp ↓] theorem keepsBut_opProgRead {ps : List Piece} (h : [] ⊆ ps) (r : State) (pay : List Byte) (s : State) :
    keepsBut ps r (opProgRead pay s).1 ↔ keepsBut ps r s :=
  keepsBut_peel (fp := []) (by
    unfold opProgRead
    repeat' first
      | with_reducible exact keepsBut_refl _ _
      | with_reducible refine keepsBut_forEach_of (fun _ _ => ?_) ?_
      | with_reducible refine keepsBut_foldl_of (fun _ _ => ?_) ?_
      | with_reducible refine ⟨fun _ => ?_, fun _ => ?_⟩
      | simp +zetaHave (disch := decide) only [↓keepsBut_opFail, ↓keepsBut_opOk, ↓keepsBut_self, ↓keepsBut_ite, implies_true, and_self, and_true, true_and]
      | with_reducible intro _
      | split) h

@[simp ↓] theorem keepsBut_queueProg {ps : List Piece} (h : [Piece.prog] ⊆ ps) (r : State) (c : ProgCmd) (t : Nat) (s : State) :
    keepsBut ps r (queueProg c t s) ↔ keepsBut ps r s :=
  keepsBut_peel (fp := [.prog]) (by
    unfold queueProg
    repeat' first
      | with_reducible exact keepsBut_refl _ _
      | with_reducible refine keepsBut_forEach_of (fun _ _ => ?_) ?_
      | with_reducible refine keepsBut_foldl_of (fun _ _ => ?_) ?_
      | with_reducible refine ⟨fun _ => ?_, fun _ => ?_⟩
      | simp +zetaHave (disch := decide) only [↓keepsBut_modProg, ↓keepsBut_self, ↓keepsBut_ite, implies_true, and_self, and_true, true_and]
      | with_reducible intro _
      | split) h

@[simp ↓] theorem keepsBut_cmdProgMode {ps : List Piece} (h : [Piece.prog, .recorder] ⊆ ps) (r : State) (code t : Nat) (s : State) :
    keepsBut ps r (cmdProgMode code t s).1 ↔ keepsBut ps r s :=
  keepsBut_peel (fp := [.prog, .recorder]) (by
    unfold cmdProgMode
    repeat' first
      | with_reducible exact keepsBut_refl _ _
      | with_reducible refine keepsBut_forEach_of (fun _ _ => ?_) ?_
      | with_reducible refine keepsBut_foldl_of (fun _ _ => ?_) ?_
      | with_reducible refine ⟨fun _ => ?_, fun _ => ?_⟩
      | simp +zetaHave (disch := decide) only [↓keepsBut_accept, ↓keepsBut_queueProg, ↓keepsBut_answer, ↓keepsBut_raise, ↓keepsBut_self, ↓keepsBut_ite, implies_true, and_self, and_true, true_and]
      | with_reducible intro _
      | split) h

@[simp ↓] theorem keepsBut_cmdForce {ps : List Piece} (h : [Piece.prog, .recorder] ⊆ ps) (r : State) (i v t : Nat) (s : State) :
    keepsBut ps r (cmdForce i v t s).1 ↔ keepsBut ps r s :=
  keepsBut_peel (fp := [.prog, .recorder]) (by
    unfold cmdForce
    repeat' first
      | with_reducible exact keepsBut_refl _ _
      | with_reducible refine keepsBut_forEach_of (fun _ _ => ?_) ?_
      | with_reducible refine keepsBut_foldl_of (fun _ _ => ?_) ?_
      | with_reducible refine ⟨fun _ => ?_, fun _ => ?_⟩
      | simp +zetaHave (disch := decide) only [↓keepsBut_accept, ↓keepsBut_queueProg, ↓keepsBut_answer, ↓keepsBut_refuse, ↓keepsBut_self, ↓keepsBut_ite, implies_true, and_self, and_true, true_and]
      | with_reducible intro _
      | split) h

@[simp ↓] theorem keepsBut_cmdRelease {ps : List Piece} (h : [Piece.prog] ⊆ ps) (r : State) (i t : Nat) (s : State) :
    keepsBut ps r (cmdRelease i t s).1 ↔ keepsBut ps r s :=
  keepsBut_peel (fp := [.prog]) (by
    unfold cmdRelease
    repeat' first
      | with_reducible exact keepsBut_refl _ _
      | with_reducible refine keepsBut_forEach_of (fun _ _ => ?_) ?_
      | with_reducible refine keepsBut_foldl_of (fun _ _ => ?_) ?_
      | with_reducible refine ⟨fun _ => ?_, fun _ => ?_⟩
      | simp +zetaHave (disch := decide) only [↓keepsBut_answer, ↓keepsBut_accept, ↓keepsBut_queueProg, ↓keepsBut_self, ↓keepsBut_ite, implies_true, and_self, and_true, true_and]
      | with_reducible intro _
      | split) h

@[simp ↓] theorem keepsBut_cmdActivateProg {ps : List Piece} (h : [Piece.prog, .recorder] ⊆ ps) (r : State) (version t : Nat) (s : State) :
    keepsBut ps r (cmdActivateProg version t s).1 ↔ keepsBut ps r s :=
  keepsBut_peel (fp := [.prog, .recorder]) (by
    unfold cmdActivateProg
    repeat' first
      | with_reducible exact keepsBut_refl _ _
      | with_reducible refine keepsBut_forEach_of (fun _ _ => ?_) ?_
      | with_reducible refine keepsBut_foldl_of (fun _ _ => ?_) ?_
      | with_reducible refine ⟨fun _ => ?_, fun _ => ?_⟩
      | simp +zetaHave (disch := decide) only [↓keepsBut_accept, ↓keepsBut_queueProg, ↓keepsBut_refuse, ↓keepsBut_self, ↓keepsBut_ite, implies_true, and_self, and_true, true_and]
      | with_reducible intro _
      | split) h

@[simp ↓] theorem keepsBut_startProgram {ps : List Piece} (h : [Piece.prog, .recorder] ⊆ ps) (r : State) (found : Option ProgImage) (s : State) :
    keepsBut ps r (startProgram found s) ↔ keepsBut ps r s :=
  keepsBut_peel (fp := [.prog, .recorder]) (by
    unfold startProgram
    repeat' first
      | with_reducible exact keepsBut_refl _ _
      | with_reducible refine keepsBut_forEach_of (fun _ _ => ?_) ?_
      | with_reducible refine keepsBut_foldl_of (fun _ _ => ?_) ?_
      | with_reducible refine ⟨fun _ => ?_, fun _ => ?_⟩
      | simp +zetaHave (disch := decide) only [↓keepsBut_raise, ↓keepsBut_modProg, ↓keepsBut_stand, ↓keepsBut_safeValues, ↓keepsBut_self, ↓keepsBut_ite, implies_true, and_self, and_true, true_and]
      | with_reducible intro _
      | split) h

/-! ### Recorder -/

@[simp ↓] theorem keepsBut_recordString {ps : List Piece} (h : [Piece.recorder] ⊆ ps) (r : State) (g n : Nat) (s : State) :
    keepsBut ps r (recordString g n s) ↔ keepsBut ps r s :=
  keepsBut_peel (fp := [.recorder]) (by
    unfold recordString
    repeat' first
      | with_reducible exact keepsBut_refl _ _
      | with_reducible refine keepsBut_forEach_of (fun _ _ => ?_) ?_
      | with_reducible refine keepsBut_foldl_of (fun _ _ => ?_) ?_
      | with_reducible refine ⟨fun _ => ?_, fun _ => ?_⟩
      | simp +zetaHave (disch := decide) only [↓keepsBut_modRecorder, ↓keepsBut_self, ↓keepsBut_ite, implies_true, and_self, and_true, true_and]
      | with_reducible intro _
      | split) h

@[simp ↓] theorem keepsBut_recordCell {ps : List Piece} (h : [Piece.recorder] ⊆ ps) (r : State) (n p : Nat) (s : State) :
    keepsBut ps r (recordCell n p s) ↔ keepsBut ps r s :=
  keepsBut_peel (fp := [.recorder]) (by
    unfold recordCell
    repeat' first
      | with_reducible exact keepsBut_refl _ _
      | with_reducible refine keepsBut_forEach_of (fun _ _ => ?_) ?_
      | with_reducible refine keepsBut_foldl_of (fun _ _ => ?_) ?_
      | with_reducible refine ⟨fun _ => ?_, fun _ => ?_⟩
      | simp +zetaHave (disch := decide) only [↓keepsBut_modRecorder, ↓keepsBut_self, ↓keepsBut_ite, implies_true, and_self, and_true, true_and]
      | with_reducible intro _
      | split) h

@[simp ↓] theorem keepsBut_recordFrame {ps : List Piece} (h : [Piece.recorder] ⊆ ps) (r : State) (g : Nat) (s : State) :
    keepsBut ps r (recordFrame g s) ↔ keepsBut ps r s :=
  keepsBut_peel (fp := [.recorder]) (by
    unfold recordFrame
    repeat' first
      | with_reducible exact keepsBut_refl _ _
      | with_reducible refine keepsBut_forEach_of (fun _ _ => ?_) ?_
      | with_reducible refine keepsBut_foldl_of (fun _ _ => ?_) ?_
      | with_reducible refine ⟨fun _ => ?_, fun _ => ?_⟩
      | simp +zetaHave (disch := decide) only [↓keepsBut_recordCell, ↓keepsBut_recordString, ↓keepsBut_modRecorder, ↓keepsBut_self, ↓keepsBut_ite, implies_true, and_self, and_true, true_and]
      | with_reducible intro _
      | split) h

@[simp ↓] theorem keepsBut_drawToken {ps : List Piece} (h : [Piece.recorder, .freeCtr] ⊆ ps) (r : State) (g : Nat) (s : State) :
    keepsBut ps r (drawToken g s) ↔ keepsBut ps r s :=
  keepsBut_peel (fp := [.recorder, .freeCtr]) (by
    unfold drawToken
    repeat' first
      | with_reducible exact keepsBut_refl _ _
      | with_reducible refine keepsBut_forEach_of (fun _ _ => ?_) ?_
      | with_reducible refine keepsBut_foldl_of (fun _ _ => ?_) ?_
      | with_reducible refine ⟨fun _ => ?_, fun _ => ?_⟩
      | simp +zetaHave (disch := decide) only [↓keepsBut_modRecorder, ↓keepsBut_draw, ↓keepsBut_self, ↓keepsBut_ite, implies_true, and_self, and_true, true_and]
      | with_reducible intro _
      | split) h

@[simp ↓] theorem keepsBut_clearRegion {ps : List Piece} (h : [Piece.recorder, .freeCtr] ⊆ ps) (r : State) (q : Nat × Nat × Nat) (s : State) :
    keepsBut ps r (clearRegion q s) ↔ keepsBut ps r s :=
  keepsBut_peel (fp := [.recorder, .freeCtr]) (by
    unfold clearRegion
    repeat' first
      | with_reducible exact keepsBut_refl _ _
      | with_reducible refine keepsBut_forEach_of (fun _ _ => ?_) ?_
      | with_reducible refine keepsBut_foldl_of (fun _ _ => ?_) ?_
      | with_reducible refine ⟨fun _ => ?_, fun _ => ?_⟩
      | simp +zetaHave (disch := decide) only [↓keepsBut_raise, ↓keepsBut_modRecorder, ↓keepsBut_drawToken, ↓keepsBut_self, ↓keepsBut_ite, implies_true, and_self, and_true, true_and]
      | with_reducible intro _
      | split) h

@[simp ↓] theorem keepsBut_clearBrick {ps : List Piece} (h : [Piece.recorder] ⊆ ps) (r : State) (j : Nat) (s : State) :
    keepsBut ps r (clearBrick j s) ↔ keepsBut ps r s :=
  keepsBut_peel (fp := [.recorder]) (by
    unfold clearBrick
    repeat' first
      | with_reducible exact keepsBut_refl _ _
      | with_reducible refine keepsBut_forEach_of (fun _ _ => ?_) ?_
      | with_reducible refine keepsBut_foldl_of (fun _ _ => ?_) ?_
      | with_reducible refine ⟨fun _ => ?_, fun _ => ?_⟩
      | simp +zetaHave (disch := decide) only [↓keepsBut_raise, ↓keepsBut_modRecorder, ↓keepsBut_self, ↓keepsBut_ite, implies_true, and_self, and_true, true_and]
      | with_reducible intro _
      | split) h

@[simp ↓] theorem keepsBut_cmdClearRegion {ps : List Piece} (h : [Piece.recorder] ⊆ ps) (r : State) (session region token : Nat) (s : State) :
    keepsBut ps r (cmdClearRegion session region token s).1 ↔ keepsBut ps r s :=
  keepsBut_peel (fp := [.recorder]) (by
    unfold cmdClearRegion
    repeat' first
      | with_reducible exact keepsBut_refl _ _
      | with_reducible refine keepsBut_forEach_of (fun _ _ => ?_) ?_
      | with_reducible refine keepsBut_foldl_of (fun _ _ => ?_) ?_
      | with_reducible refine ⟨fun _ => ?_, fun _ => ?_⟩
      | simp +zetaHave (disch := decide) only [↓keepsBut_accept, ↓keepsBut_refuse, ↓keepsBut_modRecorder, ↓keepsBut_self, ↓keepsBut_ite, implies_true, and_self, and_true, true_and]
      | with_reducible intro _
      | split) h

@[simp ↓] theorem keepsBut_commitRound {ps : List Piece} (h : [Piece.recorder, .freeCtr] ⊆ ps) (r : State) (s : State) :
    keepsBut ps r (commitRound s) ↔ keepsBut ps r s :=
  keepsBut_peel (fp := [.recorder, .freeCtr]) (by
    unfold commitRound
    repeat' first
      | with_reducible exact keepsBut_refl _ _
      | with_reducible refine keepsBut_forEach_of (fun _ _ => ?_) ?_
      | with_reducible refine keepsBut_foldl_of (fun _ _ => ?_) ?_
      | with_reducible refine ⟨fun _ => ?_, fun _ => ?_⟩
      | simp +zetaHave (disch := decide) only [↓keepsBut_clearRegion, ↓keepsBut_modRecorder, ↓keepsBut_clearBrick, ↓keepsBut_clear, ↓keepsBut_drawToken, ↓keepsBut_self, ↓keepsBut_ite, implies_true, and_self, and_true, true_and]
      | with_reducible intro _
      | split) h

@[simp ↓] theorem keepsBut_endRound {ps : List Piece} (h : [Piece.recorder] ⊆ ps) (r : State) (s : State) :
    keepsBut ps r (endRound s) ↔ keepsBut ps r s :=
  keepsBut_peel (fp := [.recorder]) (by
    unfold endRound
    repeat' first
      | with_reducible exact keepsBut_refl _ _
      | with_reducible refine keepsBut_forEach_of (fun _ _ => ?_) ?_
      | with_reducible refine keepsBut_foldl_of (fun _ _ => ?_) ?_
      | with_reducible refine ⟨fun _ => ?_, fun _ => ?_⟩
      | simp +zetaHave (disch := decide) only [↓keepsBut_modRecorder, ↓keepsBut_clear, ↓keepsBut_self, ↓keepsBut_ite, implies_true, and_self, and_true, true_and]
      | with_reducible intro _
      | split) h

@[simp ↓] theorem keepsBut_opRecRead {ps : List Piece} (h : [] ⊆ ps) (r : State) (pay : List Byte) (s : State) :
    keepsBut ps r (opRecRead pay s).1 ↔ keepsBut ps r s :=
  keepsBut_peel (fp := []) (by
    unfold opRecRead
    repeat' first
      | with_reducible exact keepsBut_refl _ _
      | with_reducible refine keepsBut_forEach_of (fun _ _ => ?_) ?_
      | with_reducible refine keepsBut_foldl_of (fun _ _ => ?_) ?_
      | with_reducible refine ⟨fun _ => ?_, fun _ => ?_⟩
      | simp +zetaHave (disch := decide) only [↓keepsBut_opFail, ↓keepsBut_opOk, ↓keepsBut_self, ↓keepsBut_ite, implies_true, and_self, and_true, true_and]
      | with_reducible intro _
      | split) h

@[simp ↓] theorem keepsBut_opEventList {ps : List Piece} (h : [] ⊆ ps) (r : State) (pay : List Byte) (s : State) :
    keepsBut ps r (opEventList pay s).1 ↔ keepsBut ps r s :=
  keepsBut_peel (fp := []) (by
    unfold opEventList
    repeat' first
      | with_reducible exact keepsBut_refl _ _
      | with_reducible refine keepsBut_forEach_of (fun _ _ => ?_) ?_
      | with_reducible refine keepsBut_foldl_of (fun _ _ => ?_) ?_
      | with_reducible refine ⟨fun _ => ?_, fun _ => ?_⟩
      | simp +zetaHave (disch := decide) only [↓keepsBut_opFail, ↓keepsBut_self, ↓keepsBut_ite, implies_true, and_self, and_true, true_and]
      | with_reducible intro _
      | split) h

end Sys2Proof.Machine
end

