-- ==== Sys2Proof/Laws/FrameSystem.lean ====
section
/-!
SUPPORT. FrameSystem: what the operations of the host requests, the memory, the self tests, the modes, the update and the start leave unchanged.
-/

set_option linter.all false

namespace Sys2Proof.Machine

/-! ### Session -/

@[simp ↓] theorem keepsBut_updSlot {ps : List Piece} (h : [Piece.host] ⊆ ps) (r : State) (k : Nat) (f : Session → Session) (s : State) :
    keepsBut ps r (updSlot k f s) ↔ keepsBut ps r s :=
  keepsBut_peel (fp := [.host]) (by
    unfold updSlot
    repeat' first
      | with_reducible exact keepsBut_refl _ _
      | with_reducible refine keepsBut_forEach_of (fun _ _ => ?_) ?_
      | with_reducible refine keepsBut_foldl_of (fun _ _ => ?_) ?_
      | with_reducible refine ⟨fun _ => ?_, fun _ => ?_⟩
      | simp +zetaHave (disch := decide) only [↓keepsBut_modHost, ↓keepsBut_self, ↓keepsBut_ite, implies_true, and_self, and_true, true_and]
      | with_reducible intro _
      | split) h

@[simp ↓] theorem keepsBut_sendParts {ps : List Piece} (h : [Piece.out] ⊆ ps) (r : State) (x : Session) (opcode seq : Nat) (parts : List (List Byte)) (s : State) :
    keepsBut ps r (sendParts x opcode seq parts s) ↔ keepsBut ps r s :=
  keepsBut_peel (fp := [.out]) (by
    unfold sendParts
    repeat' first
      | with_reducible exact keepsBut_refl _ _
      | with_reducible refine keepsBut_forEach_of (fun _ _ => ?_) ?_
      | with_reducible refine keepsBut_foldl_of (fun _ _ => ?_) ?_
      | with_reducible refine ⟨fun _ => ?_, fun _ => ?_⟩
      | simp +zetaHave (disch := decide) only [↓keepsBut_send, ↓keepsBut_self, ↓keepsBut_ite, implies_true, and_self, and_true, true_and]
      | with_reducible intro _
      | split) h

@[simp ↓] theorem keepsBut_keepReply {ps : List Piece} (h : [Piece.host] ⊆ ps) (r0 : State) (k : Nat) (r : FhpReply) (s : State) :
    keepsBut ps r0 (keepReply k r s) ↔ keepsBut ps r0 s :=
  keepsBut_peel (fp := [.host]) (by
    unfold keepReply
    repeat' first
      | with_reducible exact keepsBut_refl _ _
      | with_reducible refine keepsBut_forEach_of (fun _ _ => ?_) ?_
      | with_reducible refine keepsBut_foldl_of (fun _ _ => ?_) ?_
      | with_reducible refine ⟨fun _ => ?_, fun _ => ?_⟩
      | simp +zetaHave (disch := decide) only [↓keepsBut_updSlot, ↓keepsBut_self, ↓keepsBut_ite, implies_true, and_self, and_true, true_and]
      | with_reducible intro _
      | split) h

@[simp ↓] theorem keepsBut_finishReply {ps : List Piece} (h : [Piece.host, .out] ⊆ ps) (r : State) (id k opcode seq : Nat) (parts : List (List Byte)) (s : State) :
    keepsBut ps r (finishReply id k opcode seq parts s) ↔ keepsBut ps r s :=
  keepsBut_peel (fp := [.host, .out]) (by
    unfold finishReply
    repeat' first
      | with_reducible exact keepsBut_refl _ _
      | with_reducible refine keepsBut_forEach_of (fun _ _ => ?_) ?_
      | with_reducible refine keepsBut_foldl_of (fun _ _ => ?_) ?_
      | with_reducible refine ⟨fun _ => ?_, fun _ => ?_⟩
      | simp +zetaHave (disch := decide) only [↓keepsBut_sendParts, ↓keepsBut_keepReply, ↓keepsBut_self, ↓keepsBut_ite, implies_true, and_self, and_true, true_and]
      | with_reducible intro _
      | split) h

/-! ### Memory -/

@[simp ↓] theorem keepsBut_updBank {ps : List Piece} (h : [Piece.mem] ⊆ ps) (r : State) (b : Nat) (f : Bank → Bank) (s : State) :
    keepsBut ps r (updBank b f s) ↔ keepsBut ps r s :=
  keepsBut_peel (fp := [.mem]) (by
    unfold updBank
    repeat' first
      | with_reducible exact keepsBut_refl _ _
      | with_reducible refine keepsBut_forEach_of (fun _ _ => ?_) ?_
      | with_reducible refine keepsBut_foldl_of (fun _ _ => ?_) ?_
      | with_reducible refine ⟨fun _ => ?_, fun _ => ?_⟩
      | simp +zetaHave (disch := decide) only [↓keepsBut_modMem, ↓keepsBut_self, ↓keepsBut_ite, implies_true, and_self, and_true, true_and]
      | with_reducible intro _
      | split) h

@[simp ↓] theorem keepsBut_abortSlice {ps : List Piece} (h : [Piece.recorder, .bist] ⊆ ps) (r : State) (s : State) :
    keepsBut ps r (abortSlice s) ↔ keepsBut ps r s :=
  keepsBut_peel (fp := [.recorder, .bist]) (by
    unfold abortSlice
    repeat' first
      | with_reducible exact keepsBut_refl _ _
      | with_reducible refine keepsBut_forEach_of (fun _ _ => ?_) ?_
      | with_reducible refine keepsBut_foldl_of (fun _ _ => ?_) ?_
      | with_reducible refine ⟨fun _ => ?_, fun _ => ?_⟩
      | simp +zetaHave (disch := decide) only [↓keepsBut_modBist, ↓keepsBut_sliceOutcome, ↓keepsBut_self, ↓keepsBut_ite, implies_true, and_self, and_true, true_and]
      | with_reducible intro _
      | split) h

@[simp ↓] theorem keepsBut_retireBank {ps : List Piece} (h : [Piece.recorder, .mem, .bist] ⊆ ps) (r : State) (b : Nat) (s : State) :
    keepsBut ps r (retireBank b s) ↔ keepsBut ps r s :=
  keepsBut_peel (fp := [.recorder, .mem, .bist]) (by
    unfold retireBank
    repeat' first
      | with_reducible exact keepsBut_refl _ _
      | with_reducible refine keepsBut_forEach_of (fun _ _ => ?_) ?_
      | with_reducible refine keepsBut_foldl_of (fun _ _ => ?_) ?_
      | with_reducible refine ⟨fun _ => ?_, fun _ => ?_⟩
      | simp +zetaHave (disch := decide) only [↓keepsBut_abortSlice, ↓keepsBut_modMem, ↓keepsBut_self, ↓keepsBut_ite, implies_true, and_self, and_true, true_and]
      | with_reducible intro _
      | split) h

@[simp ↓] theorem keepsBut_countLine {ps : List Piece} (h : [Piece.recorder, .mem, .bist] ⊆ ps) (r : State) (addr : Nat) (s : State) :
    keepsBut ps r (countLine addr s) ↔ keepsBut ps r s :=
  keepsBut_peel (fp := [.recorder, .mem, .bist]) (by
    unfold countLine
    repeat' first
      | with_reducible exact keepsBut_refl _ _
      | with_reducible refine keepsBut_forEach_of (fun _ _ => ?_) ?_
      | with_reducible refine keepsBut_foldl_of (fun _ _ => ?_) ?_
      | with_reducible refine ⟨fun _ => ?_, fun _ => ?_⟩
      | simp +zetaHave (disch := decide) only [↓keepsBut_modMem, ↓keepsBut_retireBank, ↓keepsBut_updBank, ↓keepsBut_self, ↓keepsBut_ite, implies_true, and_self, and_true, true_and]
      | with_reducible intro _
      | split) h

@[simp ↓] theorem keepsBut_mirrorLost {ps : List Piece} (h : [Piece.host, .prog, .recorder, .pwr] ⊆ ps) (r : State) (m : Mirrored) (s : State) :
    keepsBut ps r (mirrorLost m s) ↔ keepsBut ps r s :=
  keepsBut_peel (fp := [.host, .prog, .recorder, .pwr]) (by
    unfold mirrorLost
    repeat' first
      | with_reducible exact keepsBut_refl _ _
      | with_reducible refine keepsBut_forEach_of (fun _ _ => ?_) ?_
      | with_reducible refine keepsBut_foldl_of (fun _ _ => ?_) ?_
      | with_reducible refine ⟨fun _ => ?_, fun _ => ?_⟩
      | simp +zetaHave (disch := decide) only [↓keepsBut_overrun, ↓keepsBut_overrunProg, ↓keepsBut_closeSession, ↓keepsBut_modPwr, ↓keepsBut_modRecorder, ↓keepsBut_self, ↓keepsBut_ite, implies_true, and_self, and_true, true_and]
      | with_reducible intro _
      | split) h

@[simp ↓] theorem keepsBut_repairMram {ps : List Piece} (h : [Piece.links, .learned, .recorder, .boot, .freeCtr] ⊆ ps) (r : State) (p : MramPart) (s : State) :
    keepsBut ps r (repairMram p s) ↔ keepsBut ps r s :=
  keepsBut_peel (fp := [.links, .learned, .recorder, .boot, .freeCtr]) (by
    unfold repairMram
    repeat' first
      | with_reducible exact keepsBut_refl _ _
      | with_reducible refine keepsBut_forEach_of (fun _ _ => ?_) ?_
      | with_reducible refine keepsBut_foldl_of (fun _ _ => ?_) ?_
      | with_reducible refine ⟨fun _ => ?_, fun _ => ?_⟩
      | simp +zetaHave (disch := decide) only [↓keepsBut_modBoot, ↓keepsBut_newNetKey, ↓keepsBut_modLearned, ↓keepsBut_updLink, ↓keepsBut_modRecorder, ↓keepsBut_self, ↓keepsBut_ite, implies_true, and_self, and_true, true_and]
      | with_reducible intro _
      | split) h

@[simp ↓] theorem keepsBut_writeLine {ps : List Piece} (h : [Piece.mem] ⊆ ps) (r : State) (mram : Bool) (line : Nat) (data : List Byte) (s : State) :
    keepsBut ps r (writeLine mram line data s) ↔ keepsBut ps r s :=
  keepsBut_peel (fp := [.mem]) (by
    unfold writeLine
    repeat' first
      | with_reducible exact keepsBut_refl _ _
      | with_reducible refine keepsBut_forEach_of (fun _ _ => ?_) ?_
      | with_reducible refine keepsBut_foldl_of (fun _ _ => ?_) ?_
      | with_reducible refine ⟨fun _ => ?_, fun _ => ?_⟩
      | simp +zetaHave (disch := decide) only [↓keepsBut_modMem, ↓keepsBut_self, ↓keepsBut_ite, implies_true, and_self, and_true, true_and]
      | with_reducible intro _
      | split) h

@[simp ↓] theorem keepsBut_writeBack {ps : List Piece} (h : [Piece.mem] ⊆ ps) (r : State) (f : LineFault) (s : State) :
    keepsBut ps r (writeBack f s) ↔ keepsBut ps r s :=
  keepsBut_peel (fp := [.mem]) (by
    unfold writeBack
    repeat' first
      | with_reducible exact keepsBut_refl _ _
      | with_reducible refine keepsBut_forEach_of (fun _ _ => ?_) ?_
      | with_reducible refine keepsBut_foldl_of (fun _ _ => ?_) ?_
      | with_reducible refine ⟨fun _ => ?_, fun _ => ?_⟩
      | simp +zetaHave (disch := decide) only [↓keepsBut_writeLine, ↓keepsBut_self, ↓keepsBut_ite, implies_true, and_self, and_true, true_and]
      | with_reducible intro _
      | split) h

@[simp ↓] theorem keepsBut_repairContent {ps : List Piece} (h : [Piece.comb, .links, .learned, .host, .prog, .recorder, .mem, .boot, .bist, .pwr, .freeCtr] ⊆ ps) (r : State) (f : LineFault) (s : State) :
    keepsBut ps r (repairContent f s) ↔ keepsBut ps r s :=
  keepsBut_peel (fp := [.comb, .links, .learned, .host, .prog, .recorder, .mem, .boot, .bist, .pwr, .freeCtr]) (by
    unfold repairContent
    repeat' first
      | with_reducible exact keepsBut_refl _ _
      | with_reducible refine keepsBut_forEach_of (fun _ _ => ?_) ?_
      | with_reducible refine keepsBut_foldl_of (fun _ _ => ?_) ?_
      | with_reducible refine ⟨fun _ => ?_, fun _ => ?_⟩
      | simp +zetaHave (disch := decide) only [↓keepsBut_modComb, ↓keepsBut_raise, ↓keepsBut_repairMram, ↓keepsBut_modMem, ↓keepsBut_mirrorLost, ↓keepsBut_countLine, ↓keepsBut_self, ↓keepsBut_ite, implies_true, and_self, and_true, true_and]
      | with_reducible intro _
      | split) h

@[simp ↓] theorem keepsBut_repairLine {ps : List Piece} (h : [Piece.comb, .links, .learned, .host, .prog, .recorder, .mem, .boot, .bist, .pwr, .freeCtr] ⊆ ps) (r : State) (f : LineFault) (s : State) :
    keepsBut ps r (repairLine f s) ↔ keepsBut ps r s :=
  keepsBut_peel (fp := [.comb, .links, .learned, .host, .prog, .recorder, .mem, .boot, .bist, .pwr, .freeCtr]) (by
    unfold repairLine
    repeat' first
      | with_reducible exact keepsBut_refl _ _
      | with_reducible refine keepsBut_forEach_of (fun _ _ => ?_) ?_
      | with_reducible refine keepsBut_foldl_of (fun _ _ => ?_) ?_
      | with_reducible refine ⟨fun _ => ?_, fun _ => ?_⟩
      | simp +zetaHave (disch := decide) only [↓keepsBut_repairContent, ↓keepsBut_raise, ↓keepsBut_writeBack, ↓keepsBut_writeLine, ↓keepsBut_self, ↓keepsBut_ite, implies_true, and_self, and_true, true_and]
      | with_reducible intro _
      | split) h

@[simp ↓] theorem keepsBut_scrubFrame {ps : List Piece} (h : [Piece.comb, .links, .learned, .host, .prog, .recorder, .mem, .boot, .bist, .pwr, .freeCtr] ⊆ ps) (r : State) (found : List LineFault) (s : State) :
    keepsBut ps r (scrubFrame found s) ↔ keepsBut ps r s :=
  keepsBut_peel (fp := [.comb, .links, .learned, .host, .prog, .recorder, .mem, .boot, .bist, .pwr, .freeCtr]) (by
    unfold scrubFrame
    repeat' first
      | with_reducible exact keepsBut_refl _ _
      | with_reducible refine keepsBut_forEach_of (fun _ _ => ?_) ?_
      | with_reducible refine keepsBut_foldl_of (fun _ _ => ?_) ?_
      | with_reducible refine ⟨fun _ => ?_, fun _ => ?_⟩
      | simp +zetaHave (disch := decide) only [↓keepsBut_modMem, ↓keepsBut_repairLine, ↓keepsBut_self, ↓keepsBut_ite, implies_true, and_self, and_true, true_and]
      | with_reducible intro _
      | split) h

@[simp ↓] theorem keepsBut_bankFrame {ps : List Piece} (h : [Piece.recorder, .mem] ⊆ ps) (r : State) (s : State) :
    keepsBut ps r (bankFrame s) ↔ keepsBut ps r s :=
  keepsBut_peel (fp := [.recorder, .mem]) (by
    unfold bankFrame
    repeat' first
      | with_reducible exact keepsBut_refl _ _
      | with_reducible refine keepsBut_forEach_of (fun _ _ => ?_) ?_
      | with_reducible refine keepsBut_foldl_of (fun _ _ => ?_) ?_
      | with_reducible refine ⟨fun _ => ?_, fun _ => ?_⟩
      | simp +zetaHave (disch := decide) only [↓keepsBut_raise, ↓keepsBut_modMem, ↓keepsBut_stand, ↓keepsBut_updBank, ↓keepsBut_self, ↓keepsBut_ite, implies_true, and_self, and_true, true_and]
      | with_reducible intro _
      | split) h

@[simp ↓] theorem keepsBut_discardUnit {ps : List Piece} (h : [Piece.links, .learned, .core, .host, .can, .recorder] ⊆ ps) (r : State) (u : DmaUnit) (s : State) :
    keepsBut ps r (discardUnit u s) ↔ keepsBut ps r s :=
  keepsBut_peel (fp := [.links, .learned, .core, .host, .can, .recorder]) (by
    unfold discardUnit
    repeat' first
      | with_reducible exact keepsBut_refl _ _
      | with_reducible refine keepsBut_forEach_of (fun _ _ => ?_) ?_
      | with_reducible refine keepsBut_foldl_of (fun _ _ => ?_) ?_
      | with_reducible refine ⟨fun _ => ?_, fun _ => ?_⟩
      | simp +zetaHave (disch := decide) only [↓keepsBut_discardFrame, ↓keepsBut_rejectLength, ↓keepsBut_modLearned, ↓keepsBut_modHost, ↓keepsBut_rejectUnit, ↓keepsBut_self, ↓keepsBut_ite, implies_true, and_self, and_true, true_and]
      | with_reducible intro _
      | split) h

@[simp ↓] theorem keepsBut_failPair {ps : List Piece} (h : [Piece.mem] ⊆ ps) (r : State) (p : Nat) (s : State) :
    keepsBut ps r (failPair p s) ↔ keepsBut ps r s :=
  keepsBut_peel (fp := [.mem]) (by
    unfold failPair
    repeat' first
      | with_reducible exact keepsBut_refl _ _
      | with_reducible refine keepsBut_forEach_of (fun _ _ => ?_) ?_
      | with_reducible refine keepsBut_foldl_of (fun _ _ => ?_) ?_
      | with_reducible refine ⟨fun _ => ?_, fun _ => ?_⟩
      | simp +zetaHave (disch := decide) only [↓keepsBut_modMem, ↓keepsBut_self, ↓keepsBut_ite, implies_true, and_self, and_true, true_and]
      | with_reducible intro _
      | split) h

@[simp ↓] theorem keepsBut_pairFrame {ps : List Piece} (h : [Piece.recorder, .mem] ⊆ ps) (r : State) (s : State) :
    keepsBut ps r (pairFrame s) ↔ keepsBut ps r s :=
  keepsBut_peel (fp := [.recorder, .mem]) (by
    unfold pairFrame
    repeat' first
      | with_reducible exact keepsBut_refl _ _
      | with_reducible refine keepsBut_forEach_of (fun _ _ => ?_) ?_
      | with_reducible refine keepsBut_foldl_of (fun _ _ => ?_) ?_
      | with_reducible refine ⟨fun _ => ?_, fun _ => ?_⟩
      | simp +zetaHave (disch := decide) only [↓keepsBut_modMem, ↓keepsBut_stand, ↓keepsBut_self, ↓keepsBut_ite, implies_true, and_self, and_true, true_and]
      | with_reducible intro _
      | split) h

@[simp ↓] theorem keepsBut_memRound {ps : List Piece} (h : [Piece.mem] ⊆ ps) (r : State) (s : State) :
    keepsBut ps r (memRound s) ↔ keepsBut ps r s :=
  keepsBut_peel (fp := [.mem]) (by
    unfold memRound
    repeat' first
      | with_reducible exact keepsBut_refl _ _
      | with_reducible refine keepsBut_forEach_of (fun _ _ => ?_) ?_
      | with_reducible refine keepsBut_foldl_of (fun _ _ => ?_) ?_
      | with_reducible refine ⟨fun _ => ?_, fun _ => ?_⟩
      | simp +zetaHave (disch := decide) only [↓keepsBut_modMem, ↓keepsBut_self, ↓keepsBut_ite, implies_true, and_self, and_true, true_and]
      | with_reducible intro _
      | split) h

/-! ### Bist -/

@[simp ↓] theorem keepsBut_bankSpare {ps : List Piece} (h : [Piece.recorder, .mem] ⊆ ps) (r : State) (b : Nat) (s : State) :
    keepsBut ps r (bankSpare b s) ↔ keepsBut ps r s :=
  keepsBut_peel (fp := [.recorder, .mem]) (by
    unfold bankSpare
    repeat' first
      | with_reducible exact keepsBut_refl _ _
      | with_reducible refine keepsBut_forEach_of (fun _ _ => ?_) ?_
      | with_reducible refine keepsBut_foldl_of (fun _ _ => ?_) ?_
      | with_reducible refine ⟨fun _ => ?_, fun _ => ?_⟩
      | simp +zetaHave (disch := decide) only [↓keepsBut_updBank, ↓keepsBut_raise, ↓keepsBut_clear, ↓keepsBut_self, ↓keepsBut_ite, implies_true, and_self, and_true, true_and]
      | with_reducible intro _
      | split) h

@[simp ↓] theorem keepsBut_bankSlice {ps : List Piece} (h : [Piece.recorder, .mem] ⊆ ps) (r : State) (pos : Nat) (pass : Bool) (s : State) :
    keepsBut ps r (bankSlice pos pass s) ↔ keepsBut ps r s :=
  keepsBut_peel (fp := [.recorder, .mem]) (by
    unfold bankSlice
    repeat' first
      | with_reducible exact keepsBut_refl _ _
      | with_reducible refine keepsBut_forEach_of (fun _ _ => ?_) ?_
      | with_reducible refine keepsBut_foldl_of (fun _ _ => ?_) ?_
      | with_reducible refine ⟨fun _ => ?_, fun _ => ?_⟩
      | simp +zetaHave (disch := decide) only [↓keepsBut_stand, ↓keepsBut_bankSpare, ↓keepsBut_updBank, ↓keepsBut_self, ↓keepsBut_ite, implies_true, and_self, and_true, true_and]
      | with_reducible intro _
      | split) h

@[simp ↓] theorem keepsBut_coreSlice {ps : List Piece} (h : [Piece.recorder, .mem] ⊆ ps) (r : State) (pos : Nat) (pass : Bool) (s : State) :
    keepsBut ps r (coreSlice pos pass s) ↔ keepsBut ps r s :=
  keepsBut_peel (fp := [.recorder, .mem]) (by
    unfold coreSlice
    repeat' first
      | with_reducible exact keepsBut_refl _ _
      | with_reducible refine keepsBut_forEach_of (fun _ _ => ?_) ?_
      | with_reducible refine keepsBut_foldl_of (fun _ _ => ?_) ?_
      | with_reducible refine ⟨fun _ => ?_, fun _ => ?_⟩
      | simp +zetaHave (disch := decide) only [↓keepsBut_raise, ↓keepsBut_modMem, ↓keepsBut_failPair, ↓keepsBut_clear, ↓keepsBut_self, ↓keepsBut_ite, implies_true, and_self, and_true, true_and]
      | with_reducible intro _
      | split) h

@[simp ↓] theorem keepsBut_advance {ps : List Piece} (h : [Piece.mem, .bist] ⊆ ps) (r : State) (pos : Nat) (s : State) :
    keepsBut ps r (advance pos s) ↔ keepsBut ps r s :=
  keepsBut_peel (fp := [.mem, .bist]) (by
    unfold advance
    repeat' first
      | with_reducible exact keepsBut_refl _ _
      | with_reducible refine keepsBut_forEach_of (fun _ _ => ?_) ?_
      | with_reducible refine keepsBut_foldl_of (fun _ _ => ?_) ?_
      | with_reducible refine ⟨fun _ => ?_, fun _ => ?_⟩
      | simp +zetaHave (disch := decide) only [↓keepsBut_modMem, ↓keepsBut_modBist, ↓keepsBut_self, ↓keepsBut_ite, implies_true, and_self, and_true, true_and]
      | with_reducible intro _
      | split) h

@[simp ↓] theorem keepsBut_reinitTime {ps : List Piece} (h : [Piece.time] ⊆ ps) (r : State) (s : State) :
    keepsBut ps r (reinitTime s) ↔ keepsBut ps r s :=
  keepsBut_peel (fp := [.time]) (by
    unfold reinitTime
    simp +zetaHave (disch := decide) only [↓keepsBut_modTime, ↓keepsBut_self]) h

@[simp ↓] theorem keepsBut_endSlice {ps : List Piece} (h : [Piece.time, .recorder, .mem, .bist] ⊆ ps) (r : State) (pos : Nat) (pass : Bool) (detail : Nat) (s : State) :
    keepsBut ps r (endSlice pos pass detail s) ↔ keepsBut ps r s :=
  keepsBut_peel (fp := [.time, .recorder, .mem, .bist]) (by
    unfold endSlice
    repeat' first
      | with_reducible exact keepsBut_refl _ _
      | with_reducible refine keepsBut_forEach_of (fun _ _ => ?_) ?_
      | with_reducible refine keepsBut_foldl_of (fun _ _ => ?_) ?_
      | with_reducible refine ⟨fun _ => ?_, fun _ => ?_⟩
      | simp +zetaHave (disch := decide) only [↓keepsBut_advance, ↓keepsBut_reinitTime, ↓keepsBut_sliceOutcome, ↓keepsBut_bankSlice, ↓keepsBut_coreSlice, ↓keepsBut_modBist, ↓keepsBut_self, ↓keepsBut_ite, implies_true, and_self, and_true, true_and]
      | with_reducible intro _
      | split) h

@[simp ↓] theorem keepsBut_laneSlices {ps : List Piece} (h : [Piece.reg, .recorder, .bist] ⊆ ps) (r : State) (fails : List (Nat × Nat)) (s : State) :
    keepsBut ps r (laneSlices fails s) ↔ keepsBut ps r s :=
  keepsBut_peel (fp := [.reg, .recorder, .bist]) (by
    unfold laneSlices
    repeat' first
      | with_reducible exact keepsBut_refl _ _
      | with_reducible refine keepsBut_forEach_of (fun _ _ => ?_) ?_
      | with_reducible refine keepsBut_foldl_of (fun _ _ => ?_) ?_
      | with_reducible refine ⟨fun _ => ?_, fun _ => ?_⟩
      | simp +zetaHave (disch := decide) only [↓keepsBut_raise, ↓keepsBut_sliceOutcome, ↓keepsBut_updLane, ↓keepsBut_stand, ↓keepsBut_failLane, ↓keepsBut_requalify, ↓keepsBut_self, ↓keepsBut_ite, implies_true, and_self, and_true, true_and]
      | with_reducible intro _
      | split) h

@[simp ↓] theorem keepsBut_cmdDeepTest {ps : List Piece} (h : [Piece.est, .reg, .guard, .recorder, .bist] ⊆ ps) (r : State) (block : Nat) (s : State) :
    keepsBut ps r (cmdDeepTest block s).1 ↔ keepsBut ps r s :=
  keepsBut_peel (fp := [.est, .reg, .guard, .recorder, .bist]) (by
    unfold cmdDeepTest
    repeat' first
      | with_reducible exact keepsBut_refl _ _
      | with_reducible refine keepsBut_forEach_of (fun _ _ => ?_) ?_
      | with_reducible refine keepsBut_foldl_of (fun _ _ => ?_) ?_
      | with_reducible refine ⟨fun _ => ?_, fun _ => ?_⟩
      | simp +zetaHave (disch := decide) only [↓keepsBut_accept, ↓keepsBut_raise, ↓keepsBut_answer, ↓keepsBut_stand, ↓keepsBut_modReg, ↓keepsBut_stageAll, ↓keepsBut_loopOff, ↓keepsBut_modBist, ↓keepsBut_self, ↓keepsBut_ite, implies_true, and_self, and_true, true_and]
      | with_reducible intro _
      | split) h

@[simp ↓] theorem keepsBut_reloadLanes {ps : List Piece} (h : [Piece.reg, .recorder] ⊆ ps) (r : State) (s : State) :
    keepsBut ps r (reloadLanes s) ↔ keepsBut ps r s :=
  keepsBut_peel (fp := [.reg, .recorder]) (by
    unfold reloadLanes
    repeat' first
      | with_reducible exact keepsBut_refl _ _
      | with_reducible refine keepsBut_forEach_of (fun _ _ => ?_) ?_
      | with_reducible refine keepsBut_foldl_of (fun _ _ => ?_) ?_
      | with_reducible refine ⟨fun _ => ?_, fun _ => ?_⟩
      | simp +zetaHave (disch := decide) only [↓keepsBut_modReg, ↓keepsBut_clear, ↓keepsBut_self, ↓keepsBut_ite, implies_true, and_self, and_true, true_and]
      | with_reducible intro _
      | split) h

@[simp ↓] theorem keepsBut_mramTested {ps : List Piece} (h : [Piece.learned, .recorder, .boot] ⊆ ps) (r : State) (s : State) :
    keepsBut ps r (mramTested s) ↔ keepsBut ps r s :=
  keepsBut_peel (fp := [.learned, .recorder, .boot]) (by
    unfold mramTested
    repeat' first
      | with_reducible exact keepsBut_refl _ _
      | with_reducible refine keepsBut_forEach_of (fun _ _ => ?_) ?_
      | with_reducible refine keepsBut_foldl_of (fun _ _ => ?_) ?_
      | with_reducible refine ⟨fun _ => ?_, fun _ => ?_⟩
      | simp +zetaHave (disch := decide) only [↓keepsBut_modRecorder, ↓keepsBut_modBoot, ↓keepsBut_modLearned, ↓keepsBut_self, ↓keepsBut_ite, implies_true, and_self, and_true, true_and]
      | with_reducible intro _
      | split) h

@[simp ↓] theorem keepsBut_deepRecord {ps : List Piece} (h : [Piece.recorder, .bist] ⊆ ps) (r : State) (block : Nat) (fails : BitVec 7) (detail : Nat) (s : State) :
    keepsBut ps r (deepRecord block fails detail s) ↔ keepsBut ps r s :=
  keepsBut_peel (fp := [.recorder, .bist]) (by
    unfold deepRecord
    repeat' first
      | with_reducible exact keepsBut_refl _ _
      | with_reducible refine keepsBut_forEach_of (fun _ _ => ?_) ?_
      | with_reducible refine keepsBut_foldl_of (fun _ _ => ?_) ?_
      | with_reducible refine ⟨fun _ => ?_, fun _ => ?_⟩
      | simp +zetaHave (disch := decide) only [↓keepsBut_raise, ↓keepsBut_bistRecord, ↓keepsBut_self, ↓keepsBut_ite, implies_true, and_self, and_true, true_and]
      | with_reducible intro _
      | split) h

@[simp ↓] theorem keepsBut_opBistRead {ps : List Piece} (h : [] ⊆ ps) (r : State) (pay : List Byte) (s : State) :
    keepsBut ps r (opBistRead pay s).1 ↔ keepsBut ps r s :=
  keepsBut_peel (fp := []) (by
    unfold opBistRead
    repeat' first
      | with_reducible exact keepsBut_refl _ _
      | with_reducible refine keepsBut_forEach_of (fun _ _ => ?_) ?_
      | with_reducible refine keepsBut_foldl_of (fun _ _ => ?_) ?_
      | with_reducible refine ⟨fun _ => ?_, fun _ => ?_⟩
      | simp +zetaHave (disch := decide) only [↓keepsBut_opFail, ↓keepsBut_self, ↓keepsBut_ite, implies_true, and_self, and_true, true_and]
      | with_reducible intro _
      | split) h

/-! ### Config -/

@[simp ↓] theorem keepsBut_actAt {ps : List Piece} (h : [Piece.boot] ⊆ ps) (r : State) (k : ParamKey) (v : Int) (s : State) :
    keepsBut ps r (actAt k v s) ↔ keepsBut ps r s :=
  keepsBut_peel (fp := [.boot]) (by
    unfold actAt
    repeat' first
      | with_reducible exact keepsBut_refl _ _
      | with_reducible refine keepsBut_forEach_of (fun _ _ => ?_) ?_
      | with_reducible refine keepsBut_foldl_of (fun _ _ => ?_) ?_
      | with_reducible refine ⟨fun _ => ?_, fun _ => ?_⟩
      | simp +zetaHave (disch := decide) only [↓keepsBut_modBoot, ↓keepsBut_self, ↓keepsBut_ite, implies_true, and_self, and_true, true_and]
      | with_reducible intro _
      | split) h

@[simp ↓] theorem keepsBut_writeParam {ps : List Piece} (h : [Piece.boot] ⊆ ps) (r : State) (k : ParamKey) (v : Int) (s : State) :
    keepsBut ps r (writeParam k v s) ↔ keepsBut ps r s :=
  keepsBut_peel (fp := [.boot]) (by
    unfold writeParam
    repeat' first
      | with_reducible exact keepsBut_refl _ _
      | with_reducible refine keepsBut_forEach_of (fun _ _ => ?_) ?_
      | with_reducible refine keepsBut_foldl_of (fun _ _ => ?_) ?_
      | with_reducible refine ⟨fun _ => ?_, fun _ => ?_⟩
      | simp +zetaHave (disch := decide) only [↓keepsBut_modBoot, ↓keepsBut_actAt, ↓keepsBut_self, ↓keepsBut_ite, implies_true, and_self, and_true, true_and]
      | with_reducible intro _
      | split) h

@[simp ↓] theorem keepsBut_frameWrites {ps : List Piece} (h : [Piece.recorder, .boot] ⊆ ps) (r : State) (s : State) :
    keepsBut ps r (frameWrites s) ↔ keepsBut ps r s :=
  keepsBut_peel (fp := [.recorder, .boot]) (by
    unfold frameWrites
    repeat' first
      | with_reducible exact keepsBut_refl _ _
      | with_reducible refine keepsBut_forEach_of (fun _ _ => ?_) ?_
      | with_reducible refine keepsBut_foldl_of (fun _ _ => ?_) ?_
      | with_reducible refine ⟨fun _ => ?_, fun _ => ?_⟩
      | simp +zetaHave (disch := decide) only [↓keepsBut_raise, ↓keepsBut_modBoot, ↓keepsBut_self, ↓keepsBut_ite, implies_true, and_self, and_true, true_and]
      | with_reducible intro _
      | split) h

@[simp ↓] theorem keepsBut_discardWrites {ps : List Piece} (h : [Piece.boot] ⊆ ps) (r : State) (s : State) :
    keepsBut ps r (discardWrites s) ↔ keepsBut ps r s :=
  keepsBut_peel (fp := [.boot]) (by
    unfold discardWrites
    repeat' first
      | with_reducible exact keepsBut_refl _ _
      | with_reducible refine keepsBut_forEach_of (fun _ _ => ?_) ?_
      | with_reducible refine keepsBut_foldl_of (fun _ _ => ?_) ?_
      | with_reducible refine ⟨fun _ => ?_, fun _ => ?_⟩
      | simp +zetaHave (disch := decide) only [↓keepsBut_modBoot, ↓keepsBut_actAt, ↓keepsBut_self, ↓keepsBut_ite, implies_true, and_self, and_true, true_and]
      | with_reducible intro _
      | split) h

@[simp ↓] theorem keepsBut_beginCommit {ps : List Piece} (h : [Piece.host, .recorder, .boot] ⊆ ps) (r0 : State) (slot session seq : Nat) (r : Role) (expected : Nat) (s : State) :
    keepsBut ps r0 (beginCommit slot session seq r expected s).1.1 ↔ keepsBut ps r0 s :=
  keepsBut_peel (fp := [.host, .recorder, .boot]) (by
    unfold beginCommit
    repeat' first
      | with_reducible exact keepsBut_refl _ _
      | with_reducible refine (keepsBut_clearAll (by decide) ..).2 ?_
      | with_reducible refine (keepsBut_raise (by decide) ..).2 ?_
      | with_reducible refine (keepsBut_answer (by decide) ..).2 ?_
      | with_reducible refine (keepsBut_accept (by decide) ..).2 ?_
      | with_reducible refine (keepsBut_modBoot (by decide) ..).2 ?_
      | with_reducible refine (keepsBut_modHost (by decide) ..).2 ?_
      | with_reducible refine keepsBut_forEach_of (fun _ _ => ?_) ?_
      | with_reducible refine keepsBut_foldl_of (fun _ _ => ?_) ?_
      | with_reducible refine keepsBut_foldl_fst_of (fun _ _ => ?_) ?_
      | with_reducible refine keepsBut_ite_fst_fst_of ?_ ?_
      | with_reducible refine keepsBut_ite_of ?_ ?_
      | with_reducible refine keepsBut_ite_fst_of ?_ ?_
      | extract_lets
      | split
      | with_reducible intro _
      | dsimp only
      | (dsimp +zetaDelta only; split)) h

@[simp ↓] theorem keepsBut_markCopy {ps : List Piece} (h : [Piece.boot] ⊆ ps) (r : State) (k : Nat) (ok : Bool) (s : State) :
    keepsBut ps r (markCopy k ok s) ↔ keepsBut ps r s :=
  keepsBut_peel (fp := [.boot]) (by
    unfold markCopy
    repeat' first
      | with_reducible exact keepsBut_refl _ _
      | with_reducible refine (keepsBut_modBoot (by decide) ..).2 ?_
      | with_reducible refine keepsBut_forEach_of (fun _ _ => ?_) ?_
      | with_reducible refine keepsBut_ite_of ?_ ?_
      | extract_lets
      | split
      | with_reducible intro _
      | dsimp only) h

@[simp ↓] theorem keepsBut_setCopy {ps : List Piece} (h : [Piece.boot] ⊆ ps) (r : State) (b : Bool) (i : CfgImage) (s : State) :
    keepsBut ps r (setCopy b i s) ↔ keepsBut ps r s :=
  keepsBut_peel (fp := [.boot]) (by
    unfold setCopy
    repeat' first
      | with_reducible exact keepsBut_refl _ _
      | with_reducible refine keepsBut_forEach_of (fun _ _ => ?_) ?_
      | with_reducible refine keepsBut_foldl_of (fun _ _ => ?_) ?_
      | with_reducible refine ⟨fun _ => ?_, fun _ => ?_⟩
      | simp +zetaHave (disch := decide) only [↓keepsBut_markCopy, ↓keepsBut_modBoot, ↓keepsBut_self, ↓keepsBut_ite, implies_true, and_self, and_true, true_and]
      | with_reducible intro _
      | split) h

@[simp ↓] theorem keepsBut_finishCommit {ps : List Piece} (h : [Piece.recorder, .boot] ⊆ ps) (r : State) (ok4 ok6 : Bool) (c : CommitRun) (s : State) :
    keepsBut ps r (finishCommit ok4 ok6 c s).1 ↔ keepsBut ps r s :=
  keepsBut_peel (fp := [.recorder, .boot]) (by
    unfold finishCommit
    repeat' first
      | with_reducible exact keepsBut_refl _ _
      | with_reducible refine keepsBut_forEach_of (fun _ _ => ?_) ?_
      | with_reducible refine keepsBut_foldl_of (fun _ _ => ?_) ?_
      | with_reducible refine ⟨fun _ => ?_, fun _ => ?_⟩
      | simp +zetaHave (disch := decide) only [↓keepsBut_markCopy, ↓keepsBut_modBoot, ↓keepsBut_accept, ↓keepsBut_raise, ↓keepsBut_setCopy, ↓keepsBut_updJournal, ↓keepsBut_self, ↓keepsBut_ite, implies_true, and_self, and_true, true_and]
      | with_reducible intro _
      | split) h

@[simp ↓] theorem keepsBut_applyCommit_loadRoutes {ps : List Piece} (h : [Piece.links, .tagCtr] ⊆ ps) (r : State) (tell : Bool) (s : State) :
    keepsBut ps r (applyCommit.loadRoutes tell s) ↔ keepsBut ps r s :=
  keepsBut_peel (fp := [.links, .tagCtr]) (by
    unfold applyCommit.loadRoutes
    refine keepsBut_forEach_of (fun _ _ => ?_) (keepsBut_refl _ _)
    extract_lets
    have hu : ∀ n f x, keepsBut [.links, .tagCtr] x (State.updLink n f x) := fun n f x => (keepsBut_updLink (by decide) ..).2 (keepsBut_refl _ _)
    refine keepsBut_ite_of (keepsBut_refl _ _) (keepsBut_ite_of (keepsBut_forEach_of (fun _ _ => keepsBut_ite_of ?_ ?_) (hu _ _ _)) (hu _ _ _))
    · exact (keepsBut_relaySet (by decide) ..).2 (keepsBut_refl _ _)
    · exact (keepsBut_sendRelaySet (by decide) ..).2 (keepsBut_refl _ _)) h

@[simp ↓] theorem keepsBut_applyCommit_newSets {ps : List Piece} (h : [Piece.reg] ⊆ ps) (r : State) (old c : Cfg) (n : Nat) (s : State) :
    keepsBut ps r (applyCommit.newSets old c n s) ↔ keepsBut ps r s :=
  keepsBut_peel (fp := [.reg]) (by
    unfold applyCommit.newSets
    extract_lets
    exact keepsBut_ite_of (keepsBut_refl _ _) ((keepsBut_updLoop (by decide) ..).2 ((keepsBut_modReg (by decide) ..).2 (keepsBut_refl _ _)))) h


@[simp ↓] theorem keepsBut_applyCommit {ps : List Piece} (h : [Piece.comb, .links, .tagCtr, .forgs, .reg, .therm, .recorder, .boot] ⊆ ps) (r : State) (s : State) :
    keepsBut ps r (applyCommit s) ↔ keepsBut ps r s :=
  keepsBut_peel (fp := [.comb, .links, .tagCtr, .forgs, .reg, .therm, .recorder, .boot]) (by
    unfold applyCommit
    repeat' first
      | with_reducible exact keepsBut_refl _ _
      | with_reducible refine keepsBut_forEach_of (fun _ _ => ?_) ?_
      | with_reducible refine keepsBut_foldl_of (fun _ _ => ?_) ?_
      | with_reducible refine ⟨fun _ => ?_, fun _ => ?_⟩
      | simp +zetaHave (disch := decide) only [↓keepsBut_modComb, ↓keepsBut_sensorCommit, ↓keepsBut_modBoot, ↓keepsBut_updLink, ↓keepsBut_sendRelaySet, ↓keepsBut_modReg, ↓keepsBut_judgeThr, ↓keepsBut_updLoop, ↓keepsBut_applyCommit_loadRoutes, ↓keepsBut_applyCommit_newSets, ↓keepsBut_relaySet, ↓keepsBut_self, ↓keepsBut_ite, implies_true, and_self, and_true, true_and]
      | with_reducible intro _
      | split) h

/-! ### Power -/

@[simp ↓] theorem keepsBut_arbiterFrame {ps : List Piece} (h : [Piece.recorder, .pwr] ⊆ ps) (r : State) (req : List Nat) (s : State) :
    keepsBut ps r (arbiterFrame req s) ↔ keepsBut ps r s :=
  keepsBut_peel (fp := [.recorder, .pwr]) (by
    unfold arbiterFrame
    repeat' first
      | with_reducible exact keepsBut_refl _ _
      | with_reducible refine keepsBut_forEach_of (fun _ _ => ?_) ?_
      | with_reducible refine keepsBut_foldl_of (fun _ _ => ?_) ?_
      | with_reducible refine ⟨fun _ => ?_, fun _ => ?_⟩
      | simp +zetaHave (disch := decide) only [↓keepsBut_modPwr, ↓keepsBut_raiseRound, ↓keepsBut_stand, ↓keepsBut_self, ↓keepsBut_ite, implies_true, and_self, and_true, true_and]
      | with_reducible intro _
      | split) h

@[simp ↓] theorem keepsBut_redundancyFrame {ps : List Piece} (h : [Piece.pwr] ⊆ ps) (r : State) (s : State) :
    keepsBut ps r (redundancyFrame s) ↔ keepsBut ps r s :=
  keepsBut_peel (fp := [.pwr]) (by
    unfold redundancyFrame
    repeat' first
      | with_reducible exact keepsBut_refl _ _
      | with_reducible refine keepsBut_forEach_of (fun _ _ => ?_) ?_
      | with_reducible refine keepsBut_foldl_of (fun _ _ => ?_) ?_
      | with_reducible refine ⟨fun _ => ?_, fun _ => ?_⟩
      | simp +zetaHave (disch := decide) only [↓keepsBut_modPwr, ↓keepsBut_self, ↓keepsBut_ite, implies_true, and_self, and_true, true_and]
      | with_reducible intro _
      | split) h

@[simp ↓] theorem keepsBut_endCommit {ps : List Piece} (h : [Piece.host, .recorder, .boot, .out] ⊆ ps) (r : State) (ok4 ok6 : Bool) (s : State) :
    keepsBut ps r (endCommit ok4 ok6 s) ↔ keepsBut ps r s :=
  keepsBut_peel (fp := [.host, .recorder, .boot, .out]) (by
    unfold endCommit
    repeat' first
      | with_reducible exact keepsBut_refl _ _
      | with_reducible refine keepsBut_forEach_of (fun _ _ => ?_) ?_
      | with_reducible refine keepsBut_foldl_of (fun _ _ => ?_) ?_
      | with_reducible refine ⟨fun _ => ?_, fun _ => ?_⟩
      | simp +zetaHave (disch := decide) only [↓keepsBut_finishCommit, ↓keepsBut_finishReply, ↓keepsBut_self, ↓keepsBut_ite, implies_true, and_self, and_true, true_and]
      | with_reducible intro _
      | split) h

@[simp ↓] theorem keepsBut_abandonFlash {ps : List Piece} (h : [Piece.host, .recorder, .boot, .out] ⊆ ps) (r : State) (step6 : Bool) (s : State) :
    keepsBut ps r (abandonFlash step6 s) ↔ keepsBut ps r s :=
  keepsBut_peel (fp := [.host, .recorder, .boot, .out]) (by
    unfold abandonFlash
    repeat' first
      | with_reducible exact keepsBut_refl _ _
      | with_reducible refine keepsBut_forEach_of (fun _ _ => ?_) ?_
      | with_reducible refine keepsBut_foldl_of (fun _ _ => ?_) ?_
      | with_reducible refine ⟨fun _ => ?_, fun _ => ?_⟩
      | simp +zetaHave (disch := decide) only [↓keepsBut_raise, ↓keepsBut_endCommit, ↓keepsBut_self, ↓keepsBut_ite, implies_true, and_self, and_true, true_and]
      | with_reducible intro _
      | split) h

/-! ### Modes -/

@[simp ↓] theorem keepsBut_cmdChangeMode {ps : List Piece} (h : [Piece.recorder, .boot] ⊆ ps) (r0 : State) (code : Nat) (r : Role) (t : Nat) (s : State) :
    keepsBut ps r0 (cmdChangeMode code r t s).1 ↔ keepsBut ps r0 s :=
  keepsBut_peel (fp := [.recorder, .boot]) (by
    unfold cmdChangeMode
    repeat' first
      | with_reducible exact keepsBut_refl _ _
      | with_reducible refine keepsBut_forEach_of (fun _ _ => ?_) ?_
      | with_reducible refine keepsBut_foldl_of (fun _ _ => ?_) ?_
      | with_reducible refine ⟨fun _ => ?_, fun _ => ?_⟩
      | simp +zetaHave (disch := decide) only [↓keepsBut_modBoot, ↓keepsBut_accept, ↓keepsBut_answer, ↓keepsBut_raise, ↓keepsBut_self, ↓keepsBut_ite, implies_true, and_self, and_true, true_and]
      | with_reducible intro _
      | split) h

@[simp ↓] theorem keepsBut_enterMode {ps : List Piece} (h : [Piece.surv, .learned, .reg, .disp, .prog, .recorder, .boot] ⊆ ps) (r : State) (m : Mode) (o : Owner) (s : State) :
    keepsBut ps r (enterMode m o s) ↔ keepsBut ps r s :=
  keepsBut_peel (fp := [.surv, .learned, .reg, .disp, .prog, .recorder, .boot]) (by
    unfold enterMode
    repeat' first
      | with_reducible exact keepsBut_refl _ _
      | with_reducible refine keepsBut_forEach_of (fun _ _ => ?_) ?_
      | with_reducible refine keepsBut_foldl_of (fun _ _ => ?_) ?_
      | with_reducible refine ⟨fun _ => ?_, fun _ => ?_⟩
      | simp +zetaHave (disch := decide) only [↓keepsBut_autoConnect, ↓keepsBut_leaveManual, ↓keepsBut_modBoot, ↓keepsBut_disconnectAll, ↓keepsBut_closeRests, ↓keepsBut_progOperate, ↓keepsBut_writeAll, ↓keepsBut_raise, ↓keepsBut_because, ↓keepsBut_self, ↓keepsBut_ite, implies_true, and_self, and_true, true_and]
      | with_reducible intro _
      | split) h

@[simp ↓] theorem keepsBut_modeFrame {ps : List Piece} (h : [Piece.surv, .learned, .reg, .disp, .prog, .recorder, .boot] ⊆ ps) (r : State) (s : State) :
    keepsBut ps r (modeFrame s) ↔ keepsBut ps r s :=
  keepsBut_peel (fp := [.surv, .learned, .reg, .disp, .prog, .recorder, .boot]) (by
    unfold modeFrame
    repeat' first
      | with_reducible exact keepsBut_refl _ _
      | with_reducible refine keepsBut_forEach_of (fun _ _ => ?_) ?_
      | with_reducible refine keepsBut_foldl_of (fun _ _ => ?_) ?_
      | with_reducible refine ⟨fun _ => ?_, fun _ => ?_⟩
      | simp +zetaHave (disch := decide) only [↓keepsBut_modBoot, ↓keepsBut_raise, ↓keepsBut_enterMode, ↓keepsBut_self, ↓keepsBut_ite, implies_true, and_self, and_true, true_and]
      | with_reducible intro _
      | split) h

@[simp ↓] theorem keepsBut_cmdRenewKey {ps : List Piece} (h : [Piece.links, .tagCtr, .recorder, .boot, .freeCtr] ⊆ ps) (r : State) (strings : Nat) (s : State) :
    keepsBut ps r (cmdRenewKey strings s).1 ↔ keepsBut ps r s :=
  keepsBut_peel (fp := [.links, .tagCtr, .recorder, .boot, .freeCtr]) (by
    unfold cmdRenewKey
    repeat' first
      | with_reducible exact keepsBut_refl _ _
      | with_reducible refine keepsBut_forEach_of (fun _ _ => ?_) ?_
      | with_reducible refine keepsBut_foldl_of (fun _ _ => ?_) ?_
      | with_reducible refine ⟨fun _ => ?_, fun _ => ?_⟩
      | simp +zetaHave (disch := decide) only [↓keepsBut_accept, ↓keepsBut_answer, ↓keepsBut_renewKey, ↓keepsBut_self, ↓keepsBut_ite, implies_true, and_self, and_true, true_and]
      | with_reducible intro _
      | split) h

@[simp ↓] theorem keepsBut_cmdReleaseEntry {ps : List Piece} (h : [Piece.links, .tagCtr, .forgs] ⊆ ps) (r : State) (n b : Nat) (replaced : Bool) (s : State) :
    keepsBut ps r (cmdReleaseEntry n b replaced s).1 ↔ keepsBut ps r s :=
  keepsBut_peel (fp := [.links, .tagCtr, .forgs]) (by
    unfold cmdReleaseEntry
    repeat' first
      | with_reducible exact keepsBut_refl _ _
      | with_reducible refine keepsBut_forEach_of (fun _ _ => ?_) ?_
      | with_reducible refine keepsBut_foldl_of (fun _ _ => ?_) ?_
      | with_reducible refine ⟨fun _ => ?_, fun _ => ?_⟩
      | simp +zetaHave (disch := decide) only [↓keepsBut_queueCmd, ↓keepsBut_accept, ↓keepsBut_updForg, ↓keepsBut_answer, ↓keepsBut_self, ↓keepsBut_ite, implies_true, and_self, and_true, true_and]
      | with_reducible intro _
      | split) h

@[simp ↓] theorem keepsBut_freeEntries {ps : List Piece} (h : [Piece.forgs, .cells, .surv, .learned, .recorder, .boot] ⊆ ps) (r : State) (s : State) :
    keepsBut ps r (freeEntries s) ↔ keepsBut ps r s :=
  keepsBut_peel (fp := [.forgs, .cells, .surv, .learned, .recorder, .boot]) (by
    unfold freeEntries
    repeat' first
      | with_reducible exact keepsBut_refl _ _
      | with_reducible refine keepsBut_forEach_of (fun _ _ => ?_) ?_
      | with_reducible refine keepsBut_foldl_of (fun _ _ => ?_) ?_
      | with_reducible refine ⟨fun _ => ?_, fun _ => ?_⟩
      | simp +zetaHave (disch := decide) only [↓keepsBut_resetCells, ↓keepsBut_updForg, ↓keepsBut_modRecorder, ↓keepsBut_storeRoster, ↓keepsBut_self, ↓keepsBut_ite, implies_true, and_self, and_true, true_and]
      | with_reducible intro _
      | split) h

@[simp ↓] theorem keepsBut_cmdOpenWire {ps : List Piece} (h : [Piece.links, .tagCtr, .forgs] ⊆ ps) (r : State) (n b k : Nat) (s : State) :
    keepsBut ps r (cmdOpenWire n b k s).1 ↔ keepsBut ps r s :=
  keepsBut_peel (fp := [.links, .tagCtr, .forgs]) (by
    unfold cmdOpenWire
    repeat' first
      | with_reducible exact keepsBut_refl _ _
      | with_reducible refine keepsBut_forEach_of (fun _ _ => ?_) ?_
      | with_reducible refine keepsBut_foldl_of (fun _ _ => ?_) ?_
      | with_reducible refine ⟨fun _ => ?_, fun _ => ?_⟩
      | simp +zetaHave (disch := decide) only [↓keepsBut_orderTest, ↓keepsBut_accept, ↓keepsBut_answer, ↓keepsBut_self, ↓keepsBut_ite, implies_true, and_self, and_true, true_and]
      | with_reducible intro _
      | split) h

@[simp ↓] theorem keepsBut_cmdConfirm {ps : List Piece} (h : [Piece.recorder, .boot] ⊆ ps) (r : State) (gen scv : Nat) (s : State) :
    keepsBut ps r (cmdConfirm gen scv s).1 ↔ keepsBut ps r s :=
  keepsBut_peel (fp := [.recorder, .boot]) (by
    unfold cmdConfirm
    repeat' first
      | with_reducible exact keepsBut_refl _ _
      | with_reducible refine keepsBut_forEach_of (fun _ _ => ?_) ?_
      | with_reducible refine keepsBut_foldl_of (fun _ _ => ?_) ?_
      | with_reducible refine ⟨fun _ => ?_, fun _ => ?_⟩
      | simp +zetaHave (disch := decide) only [↓keepsBut_modBoot, ↓keepsBut_refuse, ↓keepsBut_accept, ↓keepsBut_raise, ↓keepsBut_updJournal, ↓keepsBut_self, ↓keepsBut_ite, implies_true, and_self, and_true, true_and]
      | with_reducible intro _
      | split) h

/-! ### Update -/

@[simp ↓] theorem keepsBut_discardStaging {ps : List Piece} (h : [Piece.links, .tagCtr, .forgs, .recorder, .upd] ⊆ ps) (r : State) (s : State) :
    keepsBut ps r (discardStaging s) ↔ keepsBut ps r s :=
  keepsBut_peel (fp := [.links, .tagCtr, .forgs, .recorder, .upd]) (by
    unfold discardStaging
    repeat' first
      | with_reducible exact keepsBut_refl _ _
      | with_reducible refine keepsBut_forEach_of (fun _ _ => ?_) ?_
      | with_reducible refine keepsBut_foldl_of (fun _ _ => ?_) ?_
      | with_reducible refine ⟨fun _ => ?_, fun _ => ?_⟩
      | simp +zetaHave (disch := decide) only [↓keepsBut_queueCmd, ↓keepsBut_modLinks, ↓keepsBut_modUpd, ↓keepsBut_modForgs, ↓keepsBut_clearAll, ↓keepsBut_self, ↓keepsBut_ite, implies_true, and_self, and_true, true_and]
      | with_reducible intro _
      | split) h

@[simp ↓] theorem keepsBut_opUpdBegin {ps : List Piece} (h : [Piece.links, .tagCtr, .forgs, .recorder, .upd] ⊆ ps) (r : State) (pay : List Byte) (s : State) :
    keepsBut ps r (opUpdBegin pay s).1 ↔ keepsBut ps r s :=
  keepsBut_peel (fp := [.links, .tagCtr, .forgs, .recorder, .upd]) (by
    unfold opUpdBegin
    repeat' first
      | with_reducible exact keepsBut_refl _ _
      | with_reducible refine keepsBut_forEach_of (fun _ _ => ?_) ?_
      | with_reducible refine keepsBut_foldl_of (fun _ _ => ?_) ?_
      | with_reducible refine ⟨fun _ => ?_, fun _ => ?_⟩
      | simp +zetaHave (disch := decide) only [↓keepsBut_opOk, ↓keepsBut_opFail, ↓keepsBut_discardStaging, ↓keepsBut_modUpd, ↓keepsBut_raise, ↓keepsBut_self, ↓keepsBut_ite, implies_true, and_self, and_true, true_and]
      | with_reducible intro _
      | split) h

@[simp ↓] theorem keepsBut_beginStaging {ps : List Piece} (h : [Piece.links, .forgs, .recorder, .upd] ⊆ ps) (r : State) (s : State) :
    keepsBut ps r (beginStaging s) ↔ keepsBut ps r s :=
  keepsBut_peel (fp := [.links, .forgs, .recorder, .upd]) (by
    unfold beginStaging
    repeat' first
      | with_reducible exact keepsBut_refl _ _
      | with_reducible refine keepsBut_forEach_of (fun _ _ => ?_) ?_
      | with_reducible refine keepsBut_foldl_of (fun _ _ => ?_) ?_
      | with_reducible refine ⟨fun _ => ?_, fun _ => ?_⟩
      | simp +zetaHave (disch := decide) only [↓keepsBut_openDown, ↓keepsBut_modUpd, ↓keepsBut_updForg, ↓keepsBut_judgeStaged, ↓keepsBut_self, ↓keepsBut_ite, implies_true, and_self, and_true, true_and]
      | with_reducible intro _
      | split) h

@[simp ↓] theorem keepsBut_verifyPackage {ps : List Piece} (h : [Piece.links, .forgs, .recorder, .upd] ⊆ ps) (r : State) (s : State) :
    keepsBut ps r (verifyPackage s) ↔ keepsBut ps r s :=
  keepsBut_peel (fp := [.links, .forgs, .recorder, .upd]) (by
    unfold verifyPackage
    repeat' first
      | with_reducible exact keepsBut_refl _ _
      | with_reducible refine keepsBut_forEach_of (fun _ _ => ?_) ?_
      | with_reducible refine keepsBut_foldl_of (fun _ _ => ?_) ?_
      | with_reducible refine ⟨fun _ => ?_, fun _ => ?_⟩
      | simp +zetaHave (disch := decide) only [↓keepsBut_beginStaging, ↓keepsBut_modUpd, ↓keepsBut_raise, ↓keepsBut_self, ↓keepsBut_ite, implies_true, and_self, and_true, true_and]
      | with_reducible intro _
      | split) h

@[simp ↓] theorem keepsBut_opUpdChunk {ps : List Piece} (h : [Piece.links, .forgs, .recorder, .upd] ⊆ ps) (r : State) (pay : List Byte) (env : FhpEnv) (s : State) :
    keepsBut ps r (opUpdChunk pay env s).1 ↔ keepsBut ps r s :=
  keepsBut_peel (fp := [.links, .forgs, .recorder, .upd]) (by
    unfold opUpdChunk
    repeat' first
      | with_reducible exact keepsBut_refl _ _
      | with_reducible refine (keepsBut_opOk (by decide) ..).2 ?_
      | with_reducible refine (keepsBut_opFail (by decide) ..).2 ?_
      | with_reducible refine (keepsBut_verifyPackage (by decide) ..).2 ?_
      | with_reducible refine (keepsBut_modUpd (by decide) ..).2 ?_
      | with_reducible refine (keepsBut_stand (by decide) ..).2 ?_
      | with_reducible refine (keepsBut_clear (by decide) ..).2 ?_
      | with_reducible refine keepsBut_ite_of ?_ ?_
      | with_reducible refine keepsBut_ite_fst_of ?_ ?_
      | extract_lets
      | split
      | with_reducible intro _
      | dsimp only
      | (dsimp +zetaDelta only; split)) h

@[simp ↓] theorem keepsBut_opUpdStatus {ps : List Piece} (h : [] ⊆ ps) (r : State) (pay : List Byte) (s : State) :
    keepsBut ps r (opUpdStatus pay s).1 ↔ keepsBut ps r s :=
  keepsBut_peel (fp := []) (by
    unfold opUpdStatus
    repeat' first
      | with_reducible exact keepsBut_refl _ _
      | with_reducible refine keepsBut_forEach_of (fun _ _ => ?_) ?_
      | with_reducible refine keepsBut_foldl_of (fun _ _ => ?_) ?_
      | with_reducible refine ⟨fun _ => ?_, fun _ => ?_⟩
      | simp +zetaHave (disch := decide) only [↓keepsBut_opOk, ↓keepsBut_opFail, ↓keepsBut_self, ↓keepsBut_ite, implies_true, and_self, and_true, true_and]
      | with_reducible intro _
      | split) h

@[simp ↓] theorem keepsBut_cmdAbortUpdate {ps : List Piece} (h : [Piece.links, .tagCtr, .forgs, .recorder, .upd] ⊆ ps) (r : State) (s : State) :
    keepsBut ps r (cmdAbortUpdate s).1 ↔ keepsBut ps r s :=
  keepsBut_peel (fp := [.links, .tagCtr, .forgs, .recorder, .upd]) (by
    unfold cmdAbortUpdate
    repeat' first
      | with_reducible exact keepsBut_refl _ _
      | with_reducible refine keepsBut_forEach_of (fun _ _ => ?_) ?_
      | with_reducible refine keepsBut_foldl_of (fun _ _ => ?_) ?_
      | with_reducible refine ⟨fun _ => ?_, fun _ => ?_⟩
      | simp +zetaHave (disch := decide) only [↓keepsBut_refuse, ↓keepsBut_discardStaging, ↓keepsBut_accept, ↓keepsBut_raise, ↓keepsBut_self, ↓keepsBut_ite, implies_true, and_self, and_true, true_and]
      | with_reducible intro _
      | split) h

@[simp ↓] theorem keepsBut_stagingFrame {ps : List Piece} (h : [Piece.links, .forgs, .recorder, .upd] ⊆ ps) (r : State) (s : State) :
    keepsBut ps r (stagingFrame s) ↔ keepsBut ps r s :=
  keepsBut_peel (fp := [.links, .forgs, .recorder, .upd]) (by
    unfold stagingFrame
    repeat' first
      | with_reducible exact keepsBut_refl _ _
      | with_reducible refine keepsBut_forEach_of (fun _ _ => ?_) ?_
      | with_reducible refine keepsBut_foldl_of (fun _ _ => ?_) ?_
      | with_reducible refine ⟨fun _ => ?_, fun _ => ?_⟩
      | simp +zetaHave (disch := decide) only [↓keepsBut_openDown, ↓keepsBut_modLinks, ↓keepsBut_updForg, ↓keepsBut_judgeStaged, ↓keepsBut_self, ↓keepsBut_ite, implies_true, and_self, and_true, true_and]
      | with_reducible intro _
      | split) h

@[simp ↓] theorem keepsBut_cmdActivateUpdate {ps : List Piece} (h : [Piece.recorder, .upd] ⊆ ps) (r : State) (version t : Nat) (s : State) :
    keepsBut ps r (cmdActivateUpdate version t s).1 ↔ keepsBut ps r s :=
  keepsBut_peel (fp := [.recorder, .upd]) (by
    unfold cmdActivateUpdate
    repeat' first
      | with_reducible exact keepsBut_refl _ _
      | with_reducible refine keepsBut_forEach_of (fun _ _ => ?_) ?_
      | with_reducible refine keepsBut_foldl_of (fun _ _ => ?_) ?_
      | with_reducible refine ⟨fun _ => ?_, fun _ => ?_⟩
      | simp +zetaHave (disch := decide) only [↓keepsBut_refuse, ↓keepsBut_modUpd, ↓keepsBut_accept, ↓keepsBut_answer, ↓keepsBut_raise, ↓keepsBut_self, ↓keepsBut_ite, implies_true, and_self, and_true, true_and]
      | with_reducible intro _
      | split) h

@[simp ↓] theorem keepsBut_broadcastImage {ps : List Piece} (h : [Piece.links, .tagCtr, .forgs] ⊆ ps) (r : State) (version frame : Nat) (s : State) :
    keepsBut ps r (broadcastImage version frame s) ↔ keepsBut ps r s :=
  keepsBut_peel (fp := [.links, .tagCtr, .forgs]) (by
    unfold broadcastImage
    repeat' first
      | with_reducible exact keepsBut_refl _ _
      | with_reducible refine keepsBut_forEach_of (fun _ _ => ?_) ?_
      | with_reducible refine keepsBut_foldl_of (fun _ _ => ?_) ?_
      | with_reducible refine ⟨fun _ => ?_, fun _ => ?_⟩
      | simp +zetaHave (disch := decide) only [↓keepsBut_modForgs, ↓keepsBut_queueCmd, ↓keepsBut_self, ↓keepsBut_ite, implies_true, and_self, and_true, true_and]
      | with_reducible intro _
      | split) h

@[simp ↓] theorem keepsBut_beginActivation {ps : List Piece} (h : [Piece.links, .tagCtr, .forgs, .disp, .recorder, .upd] ⊆ ps) (r : State) (f : Nat) (s : State) :
    keepsBut ps r (beginActivation f s) ↔ keepsBut ps r s :=
  keepsBut_peel (fp := [.links, .tagCtr, .forgs, .disp, .recorder, .upd]) (by
    unfold beginActivation
    repeat' first
      | with_reducible exact keepsBut_refl _ _
      | with_reducible refine keepsBut_forEach_of (fun _ _ => ?_) ?_
      | with_reducible refine keepsBut_foldl_of (fun _ _ => ?_) ?_
      | with_reducible refine ⟨fun _ => ?_, fun _ => ?_⟩
      | simp +zetaHave (disch := decide) only [↓keepsBut_disconnectAll, ↓keepsBut_modUpd, ↓keepsBut_modForgs, ↓keepsBut_broadcastImage, ↓keepsBut_modDisp, ↓keepsBut_raise, ↓keepsBut_self, ↓keepsBut_ite, implies_true, and_self, and_true, true_and]
      | with_reducible intro _
      | split) h

@[simp ↓] theorem keepsBut_reconnectNoted {ps : List Piece} (h : [Piece.disp] ⊆ ps) (r : State) (ok : Nat → Bool) (s : State) :
    keepsBut ps r (reconnectNoted ok s) ↔ keepsBut ps r s :=
  keepsBut_peel (fp := [.disp]) (by
    unfold reconnectNoted
    repeat' first
      | with_reducible exact keepsBut_refl _ _
      | with_reducible refine keepsBut_forEach_of (fun _ _ => ?_) ?_
      | with_reducible refine keepsBut_foldl_of (fun _ _ => ?_) ?_
      | with_reducible refine ⟨fun _ => ?_, fun _ => ?_⟩
      | simp +zetaHave (disch := decide) only [↓keepsBut_modDisp, ↓keepsBut_self, ↓keepsBut_ite, implies_true, and_self, and_true, true_and]
      | with_reducible intro _
      | split) h

@[simp ↓] theorem keepsBut_cancelActivation {ps : List Piece} (h : [Piece.links, .tagCtr, .forgs, .disp, .recorder, .upd] ⊆ ps) (r : State) (s : State) :
    keepsBut ps r (cancelActivation s) ↔ keepsBut ps r s :=
  keepsBut_peel (fp := [.links, .tagCtr, .forgs, .disp, .recorder, .upd]) (by
    unfold cancelActivation
    repeat' first
      | with_reducible exact keepsBut_refl _ _
      | with_reducible refine keepsBut_forEach_of (fun _ _ => ?_) ?_
      | with_reducible refine keepsBut_foldl_of (fun _ _ => ?_) ?_
      | with_reducible refine ⟨fun _ => ?_, fun _ => ?_⟩
      | simp +zetaHave (disch := decide) only [↓keepsBut_raise, ↓keepsBut_reconnectNoted, ↓keepsBut_modUpd, ↓keepsBut_broadcastImage, ↓keepsBut_self, ↓keepsBut_ite, implies_true, and_self, and_true, true_and]
      | with_reducible intro _
      | split) h

@[simp ↓] theorem keepsBut_saveForRestart {ps : List Piece} (h : [Piece.surv, .learned, .recorder, .boot, .upd] ⊆ ps) (r : State) (s : State) :
    keepsBut ps r (saveForRestart s) ↔ keepsBut ps r s :=
  keepsBut_peel (fp := [.surv, .learned, .recorder, .boot, .upd]) (by
    unfold saveForRestart
    repeat' first
      | with_reducible exact keepsBut_refl _ _
      | with_reducible refine keepsBut_forEach_of (fun _ _ => ?_) ?_
      | with_reducible refine keepsBut_foldl_of (fun _ _ => ?_) ?_
      | with_reducible refine ⟨fun _ => ?_, fun _ => ?_⟩
      | simp +zetaHave (disch := decide) only [↓keepsBut_writeAll, ↓keepsBut_modUpd, ↓keepsBut_updJournal, ↓keepsBut_self, ↓keepsBut_ite, implies_true, and_self, and_true, true_and]
      | with_reducible intro _
      | split) h

@[simp ↓] theorem keepsBut_activationFrame {ps : List Piece} (h : [Piece.time, .comb, .links, .tagCtr, .forgs, .cells, .est, .surv, .learned, .reg, .disp, .therm, .guard, .core, .host, .can, .prog, .recorder, .mem, .boot, .upd, .bist, .pwr, .out] ⊆ ps) (r : State) (s : State) :
    keepsBut ps r (activationFrame s) ↔ keepsBut ps r s :=
  keepsBut_peel (fp := [.time, .comb, .links, .tagCtr, .forgs, .cells, .est, .surv, .learned, .reg, .disp, .therm, .guard, .core, .host, .can, .prog, .recorder, .mem, .boot, .upd, .bist, .pwr, .out]) (by
    unfold activationFrame
    repeat' first
      | with_reducible exact keepsBut_refl _ _
      | with_reducible refine (keepsBut_saveForRestart (by decide) ..).2 ?_
      | with_reducible refine (keepsBut_cancelActivation (by decide) ..).2 ?_
      | with_reducible refine (keepsBut_beginActivation (by decide) ..).2 ?_
      | with_reducible refine (keepsBut_restartModule (by decide) ..).2 ?_
      | with_reducible refine (keepsBut_raise (by decide) ..).2 ?_
      | with_reducible refine (keepsBut_modUpd (by decide) ..).2 ?_
      | with_reducible refine keepsBut_forEach_of (fun _ _ => ?_) ?_
      | with_reducible refine keepsBut_foldl_of (fun _ _ => ?_) ?_
      | with_reducible refine keepsBut_foldl_fst_of (fun _ _ => ?_) ?_
      | with_reducible refine keepsBut_ite_of ?_ ?_
      | with_reducible refine keepsBut_ite_fst_of ?_ ?_
      | extract_lets
      | split
      | with_reducible intro _
      | dsimp only
      | (dsimp +zetaDelta only; split)) h

@[simp ↓] theorem keepsBut_reconnectFrame {ps : List Piece} (h : [Piece.disp] ⊆ ps) (r : State) (s : State) :
    keepsBut ps r (reconnectFrame s) ↔ keepsBut ps r s :=
  keepsBut_peel (fp := [.disp]) (by
    unfold reconnectFrame
    repeat' first
      | with_reducible exact keepsBut_refl _ _
      | with_reducible refine keepsBut_forEach_of (fun _ _ => ?_) ?_
      | with_reducible refine keepsBut_foldl_of (fun _ _ => ?_) ?_
      | with_reducible refine ⟨fun _ => ?_, fun _ => ?_⟩
      | simp +zetaHave (disch := decide) only [↓keepsBut_reconnectNoted, ↓keepsBut_self, ↓keepsBut_ite, implies_true, and_self, and_true, true_and]
      | with_reducible intro _
      | split) h

@[simp ↓] theorem keepsBut_settleUpdate {ps : List Piece} (h : [Piece.upd] ⊆ ps) (r : State) (s : State) :
    keepsBut ps r (settleUpdate s) ↔ keepsBut ps r s :=
  keepsBut_peel (fp := [.upd]) (by
    unfold settleUpdate
    repeat' first
      | with_reducible exact keepsBut_refl _ _
      | with_reducible refine keepsBut_forEach_of (fun _ _ => ?_) ?_
      | with_reducible refine keepsBut_foldl_of (fun _ _ => ?_) ?_
      | with_reducible refine ⟨fun _ => ?_, fun _ => ?_⟩
      | simp +zetaHave (disch := decide) only [↓keepsBut_modUpd, ↓keepsBut_self, ↓keepsBut_ite, implies_true, and_self, and_true, true_and]
      | with_reducible intro _
      | split) h

@[simp ↓] theorem keepsBut_returnForagers {ps : List Piece} (h : [Piece.links, .tagCtr] ⊆ ps) (r : State) (frame : Nat) (s : State) :
    keepsBut ps r (returnForagers frame s) ↔ keepsBut ps r s :=
  keepsBut_peel (fp := [.links, .tagCtr]) (by
    unfold returnForagers
    repeat' first
      | with_reducible exact keepsBut_refl _ _
      | with_reducible refine keepsBut_forEach_of (fun _ _ => ?_) ?_
      | with_reducible refine keepsBut_foldl_of (fun _ _ => ?_) ?_
      | with_reducible refine ⟨fun _ => ?_, fun _ => ?_⟩
      | simp +zetaHave (disch := decide) only [↓keepsBut_queueCmd, ↓keepsBut_self, ↓keepsBut_ite, implies_true, and_self, and_true, true_and]
      | with_reducible intro _
      | split) h

@[simp ↓] theorem keepsBut_loadSlot {ps : List Piece} (h : [Piece.upd] ⊆ ps) (r : State) (other : Bool) (s : State) :
    keepsBut ps r (loadSlot other s) ↔ keepsBut ps r s :=
  keepsBut_peel (fp := [.upd]) (by
    unfold loadSlot
    repeat' first
      | with_reducible exact keepsBut_refl _ _
      | with_reducible refine keepsBut_forEach_of (fun _ _ => ?_) ?_
      | with_reducible refine keepsBut_foldl_of (fun _ _ => ?_) ?_
      | with_reducible refine ⟨fun _ => ?_, fun _ => ?_⟩
      | simp +zetaHave (disch := decide) only [↓keepsBut_modUpd, ↓keepsBut_self, ↓keepsBut_ite, implies_true, and_self, and_true, true_and]
      | with_reducible intro _
      | split) h

/-! ### Serve -/

@[simp ↓] theorem keepsBut_countExpired {ps : List Piece} (h : [Piece.comb] ⊆ ps) (r : State) (s : State) :
    keepsBut ps r (countExpired s) ↔ keepsBut ps r s :=
  keepsBut_peel (fp := [.comb]) (by
    unfold countExpired
    repeat' first
      | with_reducible exact keepsBut_refl _ _
      | with_reducible refine keepsBut_forEach_of (fun _ _ => ?_) ?_
      | with_reducible refine keepsBut_foldl_of (fun _ _ => ?_) ?_
      | with_reducible refine ⟨fun _ => ?_, fun _ => ?_⟩
      | simp +zetaHave (disch := decide) only [↓keepsBut_modComb, ↓keepsBut_self, ↓keepsBut_ite, implies_true, and_self, and_true, true_and]
      | with_reducible intro _
      | split) h

@[simp ↓] theorem keepsBut_noteRepair {ps : List Piece} (h : [Piece.recorder] ⊆ ps) (r : State) (s : State) (bad : Bool) :
    keepsBut ps r (noteRepair s bad) ↔ keepsBut ps r s :=
  keepsBut_peel (fp := [.recorder]) (by
    unfold noteRepair
    exact keepsBut_ite_of ((keepsBut_raise (by decide) _ _ _ _).2 (keepsBut_refl _ _)) (keepsBut_refl _ _)) h

/-! ### Host -/

@[simp ↓] theorem keepsBut_countHostDiscard {ps : List Piece} (h : [Piece.host] ⊆ ps) (r : State) (s : State) :
    keepsBut ps r (countHostDiscard s) ↔ keepsBut ps r s :=
  keepsBut_peel (fp := [.host]) (by
    unfold countHostDiscard
    repeat' first
      | with_reducible exact keepsBut_refl _ _
      | with_reducible refine keepsBut_forEach_of (fun _ _ => ?_) ?_
      | with_reducible refine keepsBut_foldl_of (fun _ _ => ?_) ?_
      | with_reducible refine ⟨fun _ => ?_, fun _ => ?_⟩
      | simp +zetaHave (disch := decide) only [↓keepsBut_modHost, ↓keepsBut_self, ↓keepsBut_ite, implies_true, and_self, and_true, true_and]
      | with_reducible intro _
      | split) h

@[simp ↓] theorem keepsBut_authFail {ps : List Piece} (h : [Piece.host, .recorder] ⊆ ps) (r : State) (s : State) :
    keepsBut ps r (authFail s) ↔ keepsBut ps r s :=
  keepsBut_peel (fp := [.host, .recorder]) (by
    unfold authFail
    repeat' first
      | with_reducible exact keepsBut_refl _ _
      | with_reducible refine keepsBut_forEach_of (fun _ _ => ?_) ?_
      | with_reducible refine keepsBut_foldl_of (fun _ _ => ?_) ?_
      | with_reducible refine ⟨fun _ => ?_, fun _ => ?_⟩
      | simp +zetaHave (disch := decide) only [↓keepsBut_raiseRound, ↓keepsBut_modHost, ↓keepsBut_countHostDiscard, ↓keepsBut_self, ↓keepsBut_ite, implies_true, and_self, and_true, true_and]
      | with_reducible intro _
      | split) h

@[simp ↓] theorem keepsBut_lengthInvalid {ps : List Piece} (h : [Piece.host, .recorder, .out] ⊆ ps) (r : State) (t addr port id seq opcode : Nat) (s : State) :
    keepsBut ps r (lengthInvalid t addr port id seq opcode s) ↔ keepsBut ps r s :=
  keepsBut_peel (fp := [.host, .recorder, .out]) (by
    unfold lengthInvalid
    repeat' first
      | with_reducible exact keepsBut_refl _ _
      | with_reducible refine keepsBut_forEach_of (fun _ _ => ?_) ?_
      | with_reducible refine keepsBut_foldl_of (fun _ _ => ?_) ?_
      | with_reducible refine ⟨fun _ => ?_, fun _ => ?_⟩
      | simp +zetaHave (disch := decide) only [↓keepsBut_modHost, ↓keepsBut_raiseRound, ↓keepsBut_send, ↓keepsBut_self, ↓keepsBut_ite, implies_true, and_self, and_true, true_and]
      | with_reducible intro _
      | split) h

@[simp ↓] theorem keepsBut_newSessionId {ps : List Piece} (h : [Piece.freeCtr] ⊆ ps) (r : State) (s : State) :
    keepsBut ps r (newSessionId s).2 ↔ keepsBut ps r s :=
  keepsBut_peel (fp := [.freeCtr]) (by
    unfold newSessionId
    repeat' first
      | with_reducible exact keepsBut_refl _ _
      | with_reducible refine keepsBut_forEach_of (fun _ _ => ?_) ?_
      | with_reducible refine keepsBut_foldl_of (fun _ _ => ?_) ?_
      | with_reducible refine ⟨fun _ => ?_, fun _ => ?_⟩
      | simp +zetaHave (disch := decide) only [↓keepsBut_draw, ↓keepsBut_self, ↓keepsBut_ite, implies_true, and_self, and_true, true_and]
      | with_reducible intro _
      | split) h

@[simp ↓] theorem keepsBut_arpEnter {ps : List Piece} (h : [Piece.host] ⊆ ps) (r : State) (a : Nat) (s : State) :
    keepsBut ps r (arpEnter a s) ↔ keepsBut ps r s :=
  keepsBut_peel (fp := [.host]) (by
    unfold arpEnter
    repeat' first
      | with_reducible exact keepsBut_refl _ _
      | with_reducible refine (keepsBut_modHost (by decide) ..).2 ?_
      | with_reducible refine keepsBut_forEach_of (fun _ _ => ?_) ?_
      | with_reducible refine keepsBut_ite_of ?_ ?_
      | extract_lets
      | split
      | with_reducible intro _
      | dsimp only) h

@[simp ↓] theorem keepsBut_resolveHop {ps : List Piece} (h : [Piece.host, .out] ⊆ ps) (r : State) (a : Nat) (s : State) :
    keepsBut ps r (resolveHop a s) ↔ keepsBut ps r s :=
  keepsBut_peel (fp := [.host, .out]) (by
    unfold resolveHop
    repeat' first
      | with_reducible exact keepsBut_refl _ _
      | with_reducible refine (keepsBut_arpEnter (by decide) ..).2 ?_
      | with_reducible refine (keepsBut_send (by decide) ..).2 ?_
      | with_reducible refine keepsBut_forEach_of (fun _ _ => ?_) ?_
      | with_reducible refine keepsBut_ite_of ?_ ?_
      | extract_lets
      | split
      | with_reducible intro _
      | dsimp only) h

@[simp ↓] theorem keepsBut_handleOpen {ps : List Piece} (h : [Piece.host, .recorder, .out, .freeCtr] ⊆ ps) (r : State) (t addr port seq : Nat) (hdr pay tag : List Byte) (s : State) :
    keepsBut ps r (handleOpen t addr port seq hdr pay tag s) ↔ keepsBut ps r s :=
  keepsBut_peel (fp := [.host, .recorder, .out, .freeCtr]) (by
    unfold handleOpen
    repeat' first
      | with_reducible exact keepsBut_refl _ _
      | with_reducible refine keepsBut_forEach_of (fun _ _ => ?_) ?_
      | with_reducible refine keepsBut_foldl_of (fun _ _ => ?_) ?_
      | with_reducible refine ⟨fun _ => ?_, fun _ => ?_⟩
      | simp +zetaHave (disch := decide) only [↓keepsBut_resolveHop, ↓keepsBut_authFail, ↓keepsBut_draw, ↓keepsBut_send, ↓keepsBut_modHost, ↓keepsBut_newSessionId, ↓keepsBut_raise, ↓keepsBut_self, ↓keepsBut_ite, implies_true, and_self, and_true, true_and]
      | with_reducible intro _
      | split) h

@[simp ↓] theorem keepsBut_opReadItems {ps : List Piece} (h : [Piece.comb, .recorder] ⊆ ps) (r : State) (t : Nat) (pay : List Byte) (ends : List Nat) (s : State) :
    keepsBut ps r (opReadItems t pay ends s).1 ↔ keepsBut ps r s :=
  keepsBut_peel (fp := [.comb, .recorder]) (by
    unfold opReadItems
    repeat' first
      | with_reducible exact keepsBut_refl _ _
      | with_reducible refine keepsBut_forEach_of (fun _ _ => ?_) ?_
      | with_reducible refine keepsBut_foldl_of (fun _ _ => ?_) ?_
      | with_reducible refine ⟨fun _ => ?_, fun _ => ?_⟩
      | simp +zetaHave (disch := decide) only [↓keepsBut_modComb, ↓keepsBut_noteRepair, ↓keepsBut_countExpired, ↓keepsBut_self, ↓keepsBut_ite, implies_true, and_self, and_true, true_and]
      | with_reducible intro _
      | split) h

@[simp ↓] theorem keepsBut_opReadSlots {ps : List Piece} (h : [Piece.comb, .recorder] ⊆ ps) (r : State) (t : Nat) (pay : List Byte) (ends : List Nat) (s : State) :
    keepsBut ps r (opReadSlots t pay ends s).1 ↔ keepsBut ps r s :=
  keepsBut_peel (fp := [.comb, .recorder]) (by
    unfold opReadSlots
    repeat' first
      | with_reducible exact keepsBut_refl _ _
      | with_reducible refine keepsBut_forEach_of (fun _ _ => ?_) ?_
      | with_reducible refine keepsBut_foldl_of (fun _ _ => ?_) ?_
      | with_reducible refine ⟨fun _ => ?_, fun _ => ?_⟩
      | simp +zetaHave (disch := decide) only [↓keepsBut_noteRepair, ↓keepsBut_countExpired, ↓keepsBut_self, ↓keepsBut_ite, implies_true, and_self, and_true, true_and]
      | with_reducible intro _
      | split) h

@[simp ↓] theorem keepsBut_opReadMap {ps : List Piece} (h : [Piece.comb] ⊆ ps) (r : State) (pay : List Byte) (s : State) :
    keepsBut ps r (opReadMap pay s).1 ↔ keepsBut ps r s :=
  keepsBut_peel (fp := [.comb]) (by
    unfold opReadMap
    repeat' first
      | with_reducible exact keepsBut_refl _ _
      | with_reducible refine keepsBut_forEach_of (fun _ _ => ?_) ?_
      | with_reducible refine keepsBut_foldl_of (fun _ _ => ?_) ?_
      | with_reducible refine ⟨fun _ => ?_, fun _ => ?_⟩
      | simp +zetaHave (disch := decide) only [↓keepsBut_countExpired, ↓keepsBut_self, ↓keepsBut_ite, implies_true, and_self, and_true, true_and]
      | with_reducible intro _
      | split) h

@[simp ↓] theorem keepsBut_opSubscribe {ps : List Piece} (h : [Piece.host] ⊆ ps) (r : State) (k : Nat) (x : Session) (pay : List Byte) (s : State) :
    keepsBut ps r (opSubscribe k x pay s).1 ↔ keepsBut ps r s :=
  keepsBut_peel (fp := [.host]) (by
    unfold opSubscribe
    repeat' first
      | with_reducible exact keepsBut_refl _ _
      | with_reducible refine keepsBut_forEach_of (fun _ _ => ?_) ?_
      | with_reducible refine keepsBut_foldl_of (fun _ _ => ?_) ?_
      | with_reducible refine ⟨fun _ => ?_, fun _ => ?_⟩
      | simp +zetaHave (disch := decide) only [↓keepsBut_updSlot, ↓keepsBut_self, ↓keepsBut_ite, implies_true, and_self, and_true, true_and]
      | with_reducible intro _
      | split) h

@[simp ↓] theorem keepsBut_opUnsubscribe {ps : List Piece} (h : [Piece.host] ⊆ ps) (r : State) (k : Nat) (x : Session) (pay : List Byte) (s : State) :
    keepsBut ps r (opUnsubscribe k x pay s).1 ↔ keepsBut ps r s :=
  keepsBut_peel (fp := [.host]) (by
    unfold opUnsubscribe
    repeat' first
      | with_reducible exact keepsBut_refl _ _
      | with_reducible refine keepsBut_forEach_of (fun _ _ => ?_) ?_
      | with_reducible refine keepsBut_foldl_of (fun _ _ => ?_) ?_
      | with_reducible refine ⟨fun _ => ?_, fun _ => ?_⟩
      | simp +zetaHave (disch := decide) only [↓keepsBut_updSlot, ↓keepsBut_self, ↓keepsBut_ite, implies_true, and_self, and_true, true_and]
      | with_reducible intro _
      | split) h

@[simp ↓] theorem keepsBut_opParamRead {ps : List Piece} (h : [] ⊆ ps) (r : State) (pay : List Byte) (s : State) :
    keepsBut ps r (opParamRead pay s).1 ↔ keepsBut ps r s :=
  keepsBut_peel (fp := []) (by
    unfold opParamRead
    repeat' first
      | with_reducible exact keepsBut_refl _ _
      | with_reducible refine keepsBut_forEach_of (fun _ _ => ?_) ?_
      | with_reducible refine keepsBut_foldl_of (fun _ _ => ?_) ?_
      | with_reducible refine ⟨fun _ => ?_, fun _ => ?_⟩
      | simp +zetaHave (disch := decide) only [↓keepsBut_opOk, ↓keepsBut_opFail, ↓keepsBut_self, ↓keepsBut_ite, implies_true, and_self, and_true, true_and]
      | with_reducible intro _
      | split) h

@[simp ↓] theorem keepsBut_opParamWrite {ps : List Piece} (h : [Piece.boot] ⊆ ps) (r : State) (x : Session) (pay : List Byte) (s : State) :
    keepsBut ps r (opParamWrite x pay s).1 ↔ keepsBut ps r s :=
  keepsBut_peel (fp := [.boot]) (by
    unfold opParamWrite
    repeat' first
      | with_reducible exact keepsBut_refl _ _
      | with_reducible refine keepsBut_forEach_of (fun _ _ => ?_) ?_
      | with_reducible refine keepsBut_foldl_of (fun _ _ => ?_) ?_
      | with_reducible refine ⟨fun _ => ?_, fun _ => ?_⟩
      | simp +zetaHave (disch := decide) only [↓keepsBut_opOk, ↓keepsBut_opFail, ↓keepsBut_writeParam, ↓keepsBut_self, ↓keepsBut_ite, implies_true, and_self, and_true, true_and]
      | with_reducible intro _
      | split) h

@[simp ↓] theorem keepsBut_opEditLock {ps : List Piece} (h : [Piece.host] ⊆ ps) (r : State) (x : Session) (pay : List Byte) (s : State) :
    keepsBut ps r (opEditLock x pay s).1 ↔ keepsBut ps r s :=
  keepsBut_peel (fp := [.host]) (by
    unfold opEditLock
    repeat' first
      | with_reducible exact keepsBut_refl _ _
      | with_reducible refine keepsBut_forEach_of (fun _ _ => ?_) ?_
      | with_reducible refine keepsBut_foldl_of (fun _ _ => ?_) ?_
      | with_reducible refine ⟨fun _ => ?_, fun _ => ?_⟩
      | simp +zetaHave (disch := decide) only [↓keepsBut_opOk, ↓keepsBut_modHost, ↓keepsBut_opFail, ↓keepsBut_self, ↓keepsBut_ite, implies_true, and_self, and_true, true_and]
      | with_reducible intro _
      | split) h

@[simp ↓] theorem keepsBut_opDiscard {ps : List Piece} (h : [Piece.host, .boot] ⊆ ps) (r : State) (x : Session) (pay : List Byte) (s : State) :
    keepsBut ps r (opDiscard x pay s).1 ↔ keepsBut ps r s :=
  keepsBut_peel (fp := [.host, .boot]) (by
    unfold opDiscard
    repeat' first
      | with_reducible exact keepsBut_refl _ _
      | with_reducible refine keepsBut_forEach_of (fun _ _ => ?_) ?_
      | with_reducible refine keepsBut_foldl_of (fun _ _ => ?_) ?_
      | with_reducible refine ⟨fun _ => ?_, fun _ => ?_⟩
      | simp +zetaHave (disch := decide) only [↓keepsBut_opOk, ↓keepsBut_discardWrites, ↓keepsBut_opFail, ↓keepsBut_modHost, ↓keepsBut_self, ↓keepsBut_ite, implies_true, and_self, and_true, true_and]
      | with_reducible intro _
      | split) h

@[simp ↓] theorem keepsBut_opCapRead {ps : List Piece} (h : [Piece.time] ⊆ ps) (r : State) (pay : List Byte) (s : State) :
    keepsBut ps r (opCapRead pay s).1 ↔ keepsBut ps r s :=
  keepsBut_peel (fp := [.time]) (by
    unfold opCapRead
    repeat' first
      | with_reducible exact keepsBut_refl _ _
      | with_reducible refine keepsBut_forEach_of (fun _ _ => ?_) ?_
      | with_reducible refine keepsBut_foldl_of (fun _ _ => ?_) ?_
      | with_reducible refine ⟨fun _ => ?_, fun _ => ?_⟩
      | simp +zetaHave (disch := decide) only [↓keepsBut_opOk, ↓keepsBut_opFail, ↓keepsBut_modTime, ↓keepsBut_self, ↓keepsBut_ite, implies_true, and_self, and_true, true_and]
      | with_reducible intro _
      | split) h

@[simp ↓] theorem keepsBut_opJournalRead {ps : List Piece} (h : [] ⊆ ps) (r : State) (pay : List Byte) (s : State) :
    keepsBut ps r (opJournalRead pay s).1 ↔ keepsBut ps r s :=
  keepsBut_peel (fp := []) (by
    unfold opJournalRead
    repeat' first
      | with_reducible exact keepsBut_refl _ _
      | with_reducible refine keepsBut_forEach_of (fun _ _ => ?_) ?_
      | with_reducible refine keepsBut_foldl_of (fun _ _ => ?_) ?_
      | with_reducible refine ⟨fun _ => ?_, fun _ => ?_⟩
      | simp +zetaHave (disch := decide) only [↓keepsBut_opOk, ↓keepsBut_opFail, ↓keepsBut_self, ↓keepsBut_ite, implies_true, and_self, and_true, true_and]
      | with_reducible intro _
      | split) h

@[simp ↓] theorem keepsBut_runCommand {ps : List Piece} (h : [Piece.links, .tagCtr, .forgs, .est, .surv, .learned, .reg, .disp, .guard, .prog, .recorder, .boot, .upd, .bist, .freeCtr] ⊆ ps) (r : State) (x : Session) (t code target : Nat) (a : List Byte) (s : State) :
    keepsBut ps r (runCommand x t code target a s).1 ↔ keepsBut ps r s :=
  keepsBut_peel (fp := [.links, .tagCtr, .forgs, .est, .surv, .learned, .reg, .disp, .guard, .prog, .recorder, .boot, .upd, .bist, .freeCtr]) (by
    unfold runCommand
    repeat' first
      | with_reducible exact keepsBut_refl _ _
      | with_reducible refine (keepsBut_raise (by decide) ..).2 ?_
      | with_reducible refine (keepsBut_cmdActivateUpdate (by decide) ..).2 ?_
      | with_reducible refine (keepsBut_cmdAbortUpdate (by decide) ..).2 ?_
      | with_reducible refine (keepsBut_cmdConfirm (by decide) ..).2 ?_
      | with_reducible refine (keepsBut_cmdOpenWire (by decide) ..).2 ?_
      | with_reducible refine (keepsBut_cmdReleaseEntry (by decide) ..).2 ?_
      | with_reducible refine (keepsBut_cmdRenewKey (by decide) ..).2 ?_
      | with_reducible refine (keepsBut_cmdChangeMode (by decide) ..).2 ?_
      | with_reducible refine (keepsBut_cmdDeepTest (by decide) ..).2 ?_
      | with_reducible refine (keepsBut_cmdClearRegion (by decide) ..).2 ?_
      | with_reducible refine (keepsBut_cmdActivateProg (by decide) ..).2 ?_
      | with_reducible refine (keepsBut_cmdRelease (by decide) ..).2 ?_
      | with_reducible refine (keepsBut_cmdForce (by decide) ..).2 ?_
      | with_reducible refine (keepsBut_cmdProgMode (by decide) ..).2 ?_
      | with_reducible refine (keepsBut_cmdCloseRest (by decide) ..).2 ?_
      | with_reducible refine (keepsBut_cmdStartCapEng (by decide) ..).2 ?_
      | with_reducible refine (keepsBut_cmdStartImpEng (by decide) ..).2 ?_
      | with_reducible refine (keepsBut_holdAllowHost (by decide) ..).2 ?_
      | with_reducible refine (keepsBut_cmdSelect (by decide) ..).2 ?_
      | with_reducible refine (keepsBut_holdHost (by decide) ..).2 ?_
      | with_reducible refine (keepsBut_cmdClearFailed (by decide) ..).2 ?_
      | with_reducible refine (keepsBut_cmdDisconnect (by decide) ..).2 ?_
      | with_reducible refine (keepsBut_cmdConnect (by decide) ..).2 ?_
      | with_reducible refine (keepsBut_cmdWriteLearned (by decide) ..).2 ?_
      | with_reducible refine (keepsBut_cmdAbortCap (by decide) ..).2 ?_
      | with_reducible refine (keepsBut_cmdAbortImp (by decide) ..).2 ?_
      | with_reducible refine (keepsBut_cmdAutomatic (by decide) ..).2 ?_
      | with_reducible refine (keepsBut_cmdManualDuty (by decide) ..).2 ?_
      | with_reducible refine (keepsBut_answer (by decide) ..).2 ?_
      | with_reducible refine (keepsBut_accept (by decide) ..).2 ?_
      | with_reducible refine keepsBut_forEach_of (fun _ _ => ?_) ?_
      | with_reducible refine keepsBut_foldl_of (fun _ _ => ?_) ?_
      | with_reducible refine keepsBut_foldl_fst_of (fun _ _ => ?_) ?_
      | with_reducible refine keepsBut_ite_of ?_ ?_
      | with_reducible refine keepsBut_ite_fst_of ?_ ?_
      | extract_lets
      | split
      | with_reducible intro _
      | dsimp only
      | (dsimp +zetaDelta only; split)) h

theorem keepsBut_onePart {ps : List Piece} (r : State) (x : OpOut) : keepsBut ps r (onePart x).1 ↔ keepsBut ps r x.1 := Iff.rfl


@[simp ↓] theorem keepsBut_runOp {ps : List Piece} (h : [Piece.time, .comb, .links, .tagCtr, .forgs, .est, .surv, .learned, .reg, .disp, .guard, .host, .prog, .recorder, .boot, .upd, .bist, .freeCtr] ⊆ ps) (r : State) (k : Nat) (x : Session) (t seq opcode : Nat) (pay : List Byte) (env : FhpEnv) (s : State) :
    keepsBut ps r (runOp k x t seq opcode pay env s).1 ↔ keepsBut ps r s :=
  keepsBut_peel (fp := [.time, .comb, .links, .tagCtr, .forgs, .est, .surv, .learned, .reg, .disp, .guard, .host, .prog, .recorder, .boot, .upd, .bist, .freeCtr]) (by
    unfold runOp
    repeat' first
      | with_reducible exact keepsBut_refl _ _
      | with_reducible refine keepsBut_forEach_of (fun _ _ => ?_) ?_
      | with_reducible refine keepsBut_foldl_of (fun _ _ => ?_) ?_
      | with_reducible refine ⟨fun _ => ?_, fun _ => ?_⟩
      | simp +zetaHave (disch := decide) only [↓keepsBut_opEventList, ↓keepsBut_opParamRead, ↓keepsBut_opEditLock, ↓keepsBut_opCapRead, ↓keepsBut_runCommand, ↓keepsBut_opReadSlots, ↓keepsBut_opProgLoad, ↓keepsBut_opReadItems, ↓keepsBut_opBistRead, ↓keepsBut_opSubscribe, ↓keepsBut_opProgRead, ↓keepsBut_opParamWrite, ↓keepsBut_opUpdBegin, ↓keepsBut_onePart, ↓keepsBut_modHost, ↓keepsBut_opUpdStatus, ↓keepsBut_opUnsubscribe, ↓keepsBut_opJournalRead, ↓keepsBut_opDiscard, ↓keepsBut_opRecRead, ↓keepsBut_opUpdChunk, ↓keepsBut_beginCommit, ↓keepsBut_opReadMap, ↓keepsBut_self, ↓keepsBut_ite, implies_true, and_self, and_true, true_and]
      | with_reducible intro _
      | split) h

@[simp ↓] theorem keepsBut_carryOut {ps : List Piece} (h : [Piece.time, .comb, .links, .tagCtr, .forgs, .cells, .est, .surv, .learned, .reg, .disp, .therm, .guard, .core, .host, .can, .prog, .recorder, .mem, .boot, .upd, .bist, .pwr, .out, .freeCtr] ⊆ ps) (r : State) (k : Nat) (x : Session) (t seq opcode : Nat) (pay : List Byte) (env : FhpEnv) (s : State) :
    keepsBut ps r (carryOut k x t seq opcode pay env s) ↔ keepsBut ps r s :=
  keepsBut_peel (fp := [.time, .comb, .links, .tagCtr, .forgs, .cells, .est, .surv, .learned, .reg, .disp, .therm, .guard, .core, .host, .can, .prog, .recorder, .mem, .boot, .upd, .bist, .pwr, .out, .freeCtr]) (by
    unfold carryOut
    repeat' first
      | with_reducible exact keepsBut_refl _ _
      | with_reducible refine keepsBut_forEach_of (fun _ _ => ?_) ?_
      | with_reducible refine keepsBut_foldl_of (fun _ _ => ?_) ?_
      | with_reducible refine ⟨fun _ => ?_, fun _ => ?_⟩
      | simp +zetaHave (disch := decide) only [↓keepsBut_runOp, ↓keepsBut_keepReply, ↓keepsBut_restartModule, ↓keepsBut_finishReply, ↓keepsBut_closeSession, ↓keepsBut_self, ↓keepsBut_ite, implies_true, and_self, and_true, true_and]
      | with_reducible intro _
      | split) h

@[simp ↓] theorem keepsBut_serveHeld {ps : List Piece} (h : [Piece.host, .out] ⊆ ps) (r : State) (s : State) :
    keepsBut ps r (serveHeld s) ↔ keepsBut ps r s :=
  keepsBut_peel (fp := [.host, .out]) (by
    unfold serveHeld
    repeat' first
      | with_reducible exact keepsBut_refl _ _
      | with_reducible refine keepsBut_forEach_of (fun _ _ => ?_) ?_
      | with_reducible refine keepsBut_foldl_of (fun _ _ => ?_) ?_
      | with_reducible refine ⟨fun _ => ?_, fun _ => ?_⟩
      | simp +zetaHave (disch := decide) only [↓keepsBut_opRecRead, ↓keepsBut_modHost, ↓keepsBut_finishReply, ↓keepsBut_self, ↓keepsBut_ite, implies_true, and_self, and_true, true_and]
      | with_reducible intro _
      | split) h

@[simp ↓] theorem keepsBut_handleRequest {ps : List Piece} (h : [Piece.time, .comb, .links, .tagCtr, .forgs, .cells, .est, .surv, .learned, .reg, .disp, .therm, .guard, .core, .host, .can, .prog, .recorder, .mem, .boot, .upd, .bist, .pwr, .out, .freeCtr] ⊆ ps) (r : State) (k t seq opcode : Nat) (pay : List Byte) (env : FhpEnv) (s : State) :
    keepsBut ps r (handleRequest k t seq opcode pay env s) ↔ keepsBut ps r s :=
  keepsBut_peel (fp := [.time, .comb, .links, .tagCtr, .forgs, .cells, .est, .surv, .learned, .reg, .disp, .therm, .guard, .core, .host, .can, .prog, .recorder, .mem, .boot, .upd, .bist, .pwr, .out, .freeCtr]) (by
    unfold handleRequest
    repeat' first
      | with_reducible exact keepsBut_refl _ _
      | with_reducible refine keepsBut_forEach_of (fun _ _ => ?_) ?_
      | with_reducible refine keepsBut_foldl_of (fun _ _ => ?_) ?_
      | with_reducible refine ⟨fun _ => ?_, fun _ => ?_⟩
      | simp +zetaHave (disch := decide) only [↓keepsBut_sendParts, ↓keepsBut_carryOut, ↓keepsBut_updSlot, ↓keepsBut_raiseRound, ↓keepsBut_modHost, ↓keepsBut_countHostDiscard, ↓keepsBut_self, ↓keepsBut_ite, implies_true, and_self, and_true, true_and]
      | with_reducible intro _
      | split) h

@[simp ↓] theorem keepsBut_receive {ps : List Piece} (h : [Piece.time, .comb, .links, .tagCtr, .forgs, .cells, .est, .surv, .learned, .reg, .disp, .therm, .guard, .core, .host, .can, .prog, .recorder, .mem, .boot, .upd, .bist, .pwr, .out, .freeCtr] ⊆ ps) (r : State) (t addr port : Nat) (bytes : List Byte) (env : FhpEnv) (s : State) :
    keepsBut ps r (receive t addr port bytes env s) ↔ keepsBut ps r s :=
  keepsBut_peel (fp := [.time, .comb, .links, .tagCtr, .forgs, .cells, .est, .surv, .learned, .reg, .disp, .therm, .guard, .core, .host, .can, .prog, .recorder, .mem, .boot, .upd, .bist, .pwr, .out, .freeCtr]) (by
    unfold receive
    repeat' first
      | with_reducible exact keepsBut_refl _ _
      | with_reducible refine keepsBut_forEach_of (fun _ _ => ?_) ?_
      | with_reducible refine keepsBut_foldl_of (fun _ _ => ?_) ?_
      | with_reducible refine ⟨fun _ => ?_, fun _ => ?_⟩
      | simp +zetaHave (disch := decide) only [↓keepsBut_lengthInvalid, ↓keepsBut_handleOpen, ↓keepsBut_countHostDiscard, ↓keepsBut_authFail, ↓keepsBut_handleRequest, ↓keepsBut_self, ↓keepsBut_ite, implies_true, and_self, and_true, true_and]
      | with_reducible intro _
      | split) h

@[simp ↓] theorem keepsBut_request {ps : List Piece} (h : [Piece.time, .comb, .links, .tagCtr, .forgs, .cells, .est, .surv, .learned, .reg, .disp, .therm, .guard, .core, .host, .can, .prog, .recorder, .mem, .boot, .upd, .bist, .pwr, .out, .freeCtr] ⊆ ps) (r : State) (t id seq opcode : Nat) (pay : List Byte) (env : FhpEnv) (s : State) :
    keepsBut ps r (request t id seq opcode pay env s) ↔ keepsBut ps r s :=
  keepsBut_peel (fp := [.time, .comb, .links, .tagCtr, .forgs, .cells, .est, .surv, .learned, .reg, .disp, .therm, .guard, .core, .host, .can, .prog, .recorder, .mem, .boot, .upd, .bist, .pwr, .out, .freeCtr]) (by
    unfold request
    repeat' first
      | with_reducible exact keepsBut_refl _ _
      | with_reducible refine keepsBut_forEach_of (fun _ _ => ?_) ?_
      | with_reducible refine keepsBut_foldl_of (fun _ _ => ?_) ?_
      | with_reducible refine ⟨fun _ => ?_, fun _ => ?_⟩
      | simp +zetaHave (disch := decide) only [↓keepsBut_at_, ↓keepsBut_countHostDiscard, ↓keepsBut_handleRequest, ↓keepsBut_self, ↓keepsBut_ite, implies_true, and_self, and_true, true_and]
      | with_reducible intro _
      | split) h

/-! ### Start -/

@[simp ↓] theorem keepsBut_raiseClash {ps : List Piece} (h : [Piece.recorder] ⊆ ps) (r : State) (clash : Bool) (s : State) :
    keepsBut ps r (raiseClash clash s) ↔ keepsBut ps r s :=
  keepsBut_peel (fp := [.recorder]) (by
    unfold raiseClash
    repeat' first
      | with_reducible exact keepsBut_refl _ _
      | with_reducible refine keepsBut_forEach_of (fun _ _ => ?_) ?_
      | with_reducible refine keepsBut_foldl_of (fun _ _ => ?_) ?_
      | with_reducible refine ⟨fun _ => ?_, fun _ => ?_⟩
      | simp +zetaHave (disch := decide) only [↓keepsBut_raise, ↓keepsBut_self, ↓keepsBut_ite, implies_true, and_self, and_true, true_and]
      | with_reducible intro _
      | split) h

@[simp ↓] theorem keepsBut_markStep {ps : List Piece} (h : [Piece.boot] ⊆ ps) (r : State) (k outcome detail : Nat) (s : State) :
    keepsBut ps r (markStep k outcome detail s) ↔ keepsBut ps r s :=
  keepsBut_peel (fp := [.boot]) (by
    unfold markStep
    repeat' first
      | with_reducible exact keepsBut_refl _ _
      | with_reducible refine keepsBut_forEach_of (fun _ _ => ?_) ?_
      | with_reducible refine keepsBut_foldl_of (fun _ _ => ?_) ?_
      | with_reducible refine ⟨fun _ => ?_, fun _ => ?_⟩
      | simp +zetaHave (disch := decide) only [↓keepsBut_updJournal, ↓keepsBut_self, ↓keepsBut_ite, implies_true, and_self, and_true, true_and]
      | with_reducible intro _
      | split) h

@[simp ↓] theorem keepsBut_trialFailed {ps : List Piece} (h : [Piece.recorder, .upd] ⊆ ps) (r : State) (s : State) :
    keepsBut ps r (trialFailed s) ↔ keepsBut ps r s :=
  keepsBut_peel (fp := [.recorder, .upd]) (by
    unfold trialFailed
    simp +zetaHave (disch := decide) only [↓keepsBut_modUpd, ↓keepsBut_stand, ↓keepsBut_self, ↓keepsBut_ite, implies_true, and_self]) h

@[simp ↓] theorem keepsBut_openJournal {ps : List Piece} (h : [Piece.recorder, .boot, .upd, .freeCtr] ⊆ ps) (r : State) (s : State) :
    keepsBut ps r (openJournal s) ↔ keepsBut ps r s :=
  keepsBut_peel (fp := [.recorder, .boot, .upd, .freeCtr]) (by
    unfold openJournal
    repeat' first
      | with_reducible exact keepsBut_refl _ _
      | with_reducible refine keepsBut_forEach_of (fun _ _ => ?_) ?_
      | with_reducible refine keepsBut_foldl_of (fun _ _ => ?_) ?_
      | with_reducible refine ⟨fun _ => ?_, fun _ => ?_⟩
      | simp +zetaHave (disch := decide) only [↓keepsBut_modBoot, ↓keepsBut_trialFailed, ↓keepsBut_draw, ↓keepsBut_raise, ↓keepsBut_updJournal, ↓keepsBut_self, ↓keepsBut_ite, implies_true, and_self, and_true, true_and]
      | with_reducible intro _
      | split) h

@[simp ↓] theorem keepsBut_setDomain {ps : List Piece} (h : [Piece.pwr] ⊆ ps) (r : State) (k : Nat) (on : Bool) (s : State) :
    keepsBut ps r (setDomain k on s) ↔ keepsBut ps r s :=
  keepsBut_peel (fp := [.pwr]) (by
    unfold setDomain
    repeat' first
      | with_reducible exact keepsBut_refl _ _
      | with_reducible refine keepsBut_forEach_of (fun _ _ => ?_) ?_
      | with_reducible refine keepsBut_foldl_of (fun _ _ => ?_) ?_
      | with_reducible refine ⟨fun _ => ?_, fun _ => ?_⟩
      | simp +zetaHave (disch := decide) only [↓keepsBut_modPwr, ↓keepsBut_self, ↓keepsBut_ite, implies_true, and_self, and_true, true_and]
      | with_reducible intro _
      | split) h

@[simp ↓] theorem keepsBut_stepFirmware {ps : List Piece} (h : [Piece.recorder, .upd, .pwr] ⊆ ps) (r : State) (slotOk : Bool) (s : State) :
    keepsBut ps r (stepFirmware slotOk s).1 ↔ keepsBut ps r s :=
  keepsBut_peel (fp := [.recorder, .upd, .pwr]) (by
    unfold stepFirmware
    repeat' first
      | with_reducible exact keepsBut_refl _ _
      | with_reducible refine keepsBut_forEach_of (fun _ _ => ?_) ?_
      | with_reducible refine keepsBut_foldl_of (fun _ _ => ?_) ?_
      | with_reducible refine ⟨fun _ => ?_, fun _ => ?_⟩
      | simp +zetaHave (disch := decide) only [↓keepsBut_modUpd, ↓keepsBut_loadSlot, ↓keepsBut_setDomain, ↓keepsBut_raise, ↓keepsBut_self, ↓keepsBut_ite, implies_true, and_self, and_true, true_and]
      | with_reducible intro _
      | split) h

@[simp ↓] theorem keepsBut_lifeErase {ps : List Piece} (h : [Piece.learned, .boot] ⊆ ps) (r : State) (old new : LifeCycle) (s : State) :
    keepsBut ps r (lifeErase old new s) ↔ keepsBut ps r s :=
  keepsBut_peel (fp := [.learned, .boot]) (by
    unfold lifeErase
    repeat' first
      | with_reducible exact keepsBut_refl _ _
      | with_reducible refine keepsBut_forEach_of (fun _ _ => ?_) ?_
      | with_reducible refine keepsBut_foldl_of (fun _ _ => ?_) ?_
      | with_reducible refine ⟨fun _ => ?_, fun _ => ?_⟩
      | simp +zetaHave (disch := decide) only [↓keepsBut_modBoot, ↓keepsBut_modLearned, ↓keepsBut_self, ↓keepsBut_ite, implies_true, and_self, and_true, true_and]
      | with_reducible intro _
      | split) h

@[simp ↓] theorem keepsBut_lifeStep {ps : List Piece} (h : [Piece.learned, .recorder, .boot] ⊆ ps) (r : State) (s : State) :
    keepsBut ps r (lifeStep s) ↔ keepsBut ps r s :=
  keepsBut_peel (fp := [.learned, .recorder, .boot]) (by
    unfold lifeStep
    repeat' first
      | with_reducible exact keepsBut_refl _ _
      | with_reducible refine keepsBut_forEach_of (fun _ _ => ?_) ?_
      | with_reducible refine keepsBut_foldl_of (fun _ _ => ?_) ?_
      | with_reducible refine ⟨fun _ => ?_, fun _ => ?_⟩
      | simp +zetaHave (disch := decide) only [↓keepsBut_modBoot, ↓keepsBut_lifeErase, ↓keepsBut_raiseClash, ↓keepsBut_raise, ↓keepsBut_self, ↓keepsBut_ite, implies_true, and_self, and_true, true_and]
      | with_reducible intro _
      | split) h

@[simp ↓] theorem keepsBut_reportCopies {ps : List Piece} (h : [Piece.recorder] ⊆ ps) (r : State) (s : State) :
    keepsBut ps r (reportCopies s) ↔ keepsBut ps r s :=
  keepsBut_peel (fp := [.recorder]) (by
    unfold reportCopies
    repeat' first
      | with_reducible exact keepsBut_refl _ _
      | with_reducible refine keepsBut_forEach_of (fun _ _ => ?_) ?_
      | with_reducible refine keepsBut_foldl_of (fun _ _ => ?_) ?_
      | with_reducible refine ⟨fun _ => ?_, fun _ => ?_⟩
      | simp +zetaHave (disch := decide) only [↓keepsBut_stand, ↓keepsBut_raise, ↓keepsBut_self, ↓keepsBut_ite, implies_true, and_self, and_true, true_and]
      | with_reducible intro _
      | split) h

@[simp ↓] theorem keepsBut_rewriteCopies {ps : List Piece} (h : [Piece.recorder, .boot] ⊆ ps) (r : State) (i : CfgImage) (s : State) :
    keepsBut ps r (rewriteCopies i s) ↔ keepsBut ps r s :=
  keepsBut_peel (fp := [.recorder, .boot]) (by
    unfold rewriteCopies
    repeat' first
      | with_reducible exact keepsBut_refl _ _
      | with_reducible refine keepsBut_forEach_of (fun _ _ => ?_) ?_
      | with_reducible refine keepsBut_foldl_of (fun _ _ => ?_) ?_
      | with_reducible refine ⟨fun _ => ?_, fun _ => ?_⟩
      | simp +zetaHave (disch := decide) only [↓keepsBut_markCopy, ↓keepsBut_modBoot, ↓keepsBut_raise, ↓keepsBut_self, ↓keepsBut_ite, implies_true, and_self, and_true, true_and]
      | with_reducible intro _
      | split) h

@[simp ↓] theorem keepsBut_loadConfig {ps : List Piece} (h : [Piece.comb, .links, .tagCtr, .forgs, .reg, .therm, .recorder, .boot, .pwr] ⊆ ps) (r : State) (i : CfgImage) (s : State) :
    keepsBut ps r (loadConfig i s) ↔ keepsBut ps r s :=
  keepsBut_peel (fp := [.comb, .links, .tagCtr, .forgs, .reg, .therm, .recorder, .boot, .pwr]) (by
    unfold loadConfig
    repeat' first
      | with_reducible exact keepsBut_refl _ _
      | with_reducible refine keepsBut_forEach_of (fun _ _ => ?_) ?_
      | with_reducible refine keepsBut_foldl_of (fun _ _ => ?_) ?_
      | with_reducible refine ⟨fun _ => ?_, fun _ => ?_⟩
      | simp +zetaHave (disch := decide) only [↓keepsBut_modComb, ↓keepsBut_modBoot, ↓keepsBut_applyCommit, ↓keepsBut_setDomain, ↓keepsBut_applyCommit_loadRoutes, ↓keepsBut_self, ↓keepsBut_ite, implies_true, and_self, and_true, true_and]
      | with_reducible intro _
      | split) h

@[simp ↓] theorem keepsBut_stepConfig {ps : List Piece} (h : [Piece.comb, .links, .tagCtr, .forgs, .learned, .reg, .therm, .recorder, .boot, .pwr] ⊆ ps) (r : State) (s0 : State) :
    keepsBut ps r (stepConfig s0).1 ↔ keepsBut ps r s0 :=
  keepsBut_peel (fp := [.comb, .links, .tagCtr, .forgs, .learned, .reg, .therm, .recorder, .boot, .pwr]) (by
    unfold stepConfig
    repeat' first
      | with_reducible exact keepsBut_refl _ _
      | with_reducible refine keepsBut_forEach_of (fun _ _ => ?_) ?_
      | with_reducible refine keepsBut_foldl_of (fun _ _ => ?_) ?_
      | with_reducible refine ⟨fun _ => ?_, fun _ => ?_⟩
      | simp +zetaHave (disch := decide) only [↓keepsBut_modBoot, ↓keepsBut_reportCopies, ↓keepsBut_loadConfig, ↓keepsBut_rewriteCopies, ↓keepsBut_lifeStep, ↓keepsBut_clear, ↓keepsBut_stand, ↓keepsBut_raise, ↓keepsBut_updJournal, ↓keepsBut_self, ↓keepsBut_ite, implies_true, and_self, and_true, true_and]
      | with_reducible intro _
      | split) h

@[simp ↓] theorem keepsBut_stepNetwork {ps : List Piece} (h : [Piece.host, .can, .boot, .pwr, .out] ⊆ ps) (r : State) (ok : Bool) (place : Nat) (s : State) :
    keepsBut ps r (stepNetwork ok place s).1 ↔ keepsBut ps r s :=
  keepsBut_peel (fp := [.host, .can, .boot, .pwr, .out]) (by
    unfold stepNetwork
    repeat' first
      | with_reducible exact keepsBut_refl _ _
      | with_reducible refine keepsBut_forEach_of (fun _ _ => ?_) ?_
      | with_reducible refine keepsBut_foldl_of (fun _ _ => ?_) ?_
      | with_reducible refine ⟨fun _ => ?_, fun _ => ?_⟩
      | simp +zetaHave (disch := decide) only [↓keepsBut_resolveHop, ↓keepsBut_modBoot, ↓keepsBut_updPort, ↓keepsBut_configCan, ↓keepsBut_setDomain, ↓keepsBut_self, ↓keepsBut_ite, implies_true, and_self, and_true, true_and]
      | with_reducible intro _
      | split) h

@[simp ↓] theorem keepsBut_stepTimeWait {ps : List Piece} (h : [Piece.time, .recorder] ⊆ ps) (r : State) (s : State) :
    keepsBut ps r (stepTimeWait s).1 ↔ keepsBut ps r s :=
  keepsBut_peel (fp := [.time, .recorder]) (by
    unfold stepTimeWait
    repeat' first
      | with_reducible exact keepsBut_refl _ _
      | with_reducible refine keepsBut_forEach_of (fun _ _ => ?_) ?_
      | with_reducible refine keepsBut_foldl_of (fun _ _ => ?_) ?_
      | with_reducible refine ⟨fun _ => ?_, fun _ => ?_⟩
      | simp +zetaHave (disch := decide) only [↓keepsBut_stand, ↓keepsBut_modTime, ↓keepsBut_judgeSync, ↓keepsBut_self, ↓keepsBut_ite, implies_true, and_self, and_true, true_and]
      | with_reducible intro _
      | split) h

@[simp ↓] theorem keepsBut_loadGuard {ps : List Piece} (h : [Piece.guard] ⊆ ps) (r : State) (scv : Nat) (conf : Option Nat) (s : State) :
    keepsBut ps r (loadGuard scv conf s) ↔ keepsBut ps r s :=
  keepsBut_peel (fp := [.guard]) (by
    unfold loadGuard
    repeat' first
      | with_reducible exact keepsBut_refl _ _
      | with_reducible refine keepsBut_forEach_of (fun _ _ => ?_) ?_
      | with_reducible refine keepsBut_foldl_of (fun _ _ => ?_) ?_
      | with_reducible refine ⟨fun _ => ?_, fun _ => ?_⟩
      | simp +zetaHave (disch := decide) only [↓keepsBut_modGuard, ↓keepsBut_self, ↓keepsBut_ite, implies_true, and_self, and_true, true_and]
      | with_reducible intro _
      | split) h

@[simp ↓] theorem keepsBut_restoreLatches {ps : List Piece} (h : [Piece.core, .recorder] ⊆ ps) (r : State) (s : State) :
    keepsBut ps r (restoreLatches s) ↔ keepsBut ps r s :=
  keepsBut_peel (fp := [.core, .recorder]) (by
    unfold restoreLatches
    repeat' first
      | with_reducible exact keepsBut_refl _ _
      | with_reducible refine keepsBut_forEach_of (fun _ _ => ?_) ?_
      | with_reducible refine keepsBut_foldl_of (fun _ _ => ?_) ?_
      | with_reducible refine ⟨fun _ => ?_, fun _ => ?_⟩
      | simp +zetaHave (disch := decide) only [↓keepsBut_modCore, ↓keepsBut_raiseClash, ↓keepsBut_self, ↓keepsBut_ite, implies_true, and_self, and_true, true_and]
      | with_reducible intro _
      | split) h

@[simp ↓] theorem keepsBut_stepSafety {ps : List Piece} (h : [Piece.est, .guard, .core, .recorder, .boot] ⊆ ps) (r : State) (s : State) :
    keepsBut ps r (stepSafety s).1 ↔ keepsBut ps r s :=
  keepsBut_peel (fp := [.est, .guard, .core, .recorder, .boot]) (by
    unfold stepSafety
    repeat' first
      | with_reducible exact keepsBut_refl _ _
      | with_reducible refine keepsBut_forEach_of (fun _ _ => ?_) ?_
      | with_reducible refine keepsBut_foldl_of (fun _ _ => ?_) ?_
      | with_reducible refine ⟨fun _ => ?_, fun _ => ?_⟩
      | simp +zetaHave (disch := decide) only [↓keepsBut_clear, ↓keepsBut_modCore, ↓keepsBut_restoreLatches, ↓keepsBut_setGLatch, ↓keepsBut_storeLatches, ↓keepsBut_coreLatch, ↓keepsBut_raiseClash, ↓keepsBut_loadGuard, ↓keepsBut_stageAll, ↓keepsBut_raise, ↓keepsBut_self, ↓keepsBut_ite, implies_true, and_self, and_true, true_and]
      | with_reducible intro _
      | split) h

@[simp ↓] theorem keepsBut_stepLearned {ps : List Piece} (h : [Piece.cells, .est, .learned, .recorder] ⊆ ps) (r : State) (s : State) :
    keepsBut ps r (stepLearned s).1 ↔ keepsBut ps r s :=
  keepsBut_peel (fp := [.cells, .est, .learned, .recorder]) (by
    unfold stepLearned
    repeat' first
      | with_reducible exact keepsBut_refl _ _
      | with_reducible refine keepsBut_forEach_of (fun _ _ => ?_) ?_
      | with_reducible refine keepsBut_foldl_of (fun _ _ => ?_) ?_
      | with_reducible refine ⟨fun _ => ?_, fun _ => ?_⟩
      | simp +zetaHave (disch := decide) only [↓keepsBut_raiseClash, ↓keepsBut_startLearned, ↓keepsBut_modLearned, ↓keepsBut_self, ↓keepsBut_ite, implies_true, and_self, and_true, true_and]
      | with_reducible intro _
      | split) h

@[simp ↓] theorem keepsBut_loadKey {ps : List Piece} (h : [Piece.links, .recorder, .boot, .freeCtr] ⊆ ps) (r : State) (entries : List (Nat × Nat × Option Diag)) (n : Nat) (s : State) :
    keepsBut ps r (loadKey entries n s) ↔ keepsBut ps r s :=
  keepsBut_peel (fp := [.links, .recorder, .boot, .freeCtr]) (by
    unfold loadKey
    repeat' first
      | with_reducible exact keepsBut_refl _ _
      | with_reducible refine keepsBut_forEach_of (fun _ _ => ?_) ?_
      | with_reducible refine keepsBut_foldl_of (fun _ _ => ?_) ?_
      | with_reducible refine ⟨fun _ => ?_, fun _ => ?_⟩
      | simp +zetaHave (disch := decide) only [↓keepsBut_updLink, ↓keepsBut_raiseClash, ↓keepsBut_newNetKey, ↓keepsBut_self, ↓keepsBut_ite, implies_true, and_self, and_true, true_and]
      | with_reducible intro _
      | split) h

@[simp ↓] theorem keepsBut_beginRadio {ps : List Piece} (h : [Piece.links, .forgs, .recorder, .boot, .pwr, .out, .freeCtr] ⊆ ps) (r : State) (s : State) :
    keepsBut ps r (beginRadio s) ↔ keepsBut ps r s :=
  keepsBut_peel (fp := [.links, .forgs, .recorder, .boot, .pwr, .out, .freeCtr]) (by
    unfold beginRadio
    repeat' first
      | with_reducible exact keepsBut_refl _ _
      | with_reducible refine keepsBut_forEach_of (fun _ _ => ?_) ?_
      | with_reducible refine keepsBut_foldl_of (fun _ _ => ?_) ?_
      | with_reducible refine ⟨fun _ => ?_, fun _ => ?_⟩
      | simp +zetaHave (disch := decide) only [↓keepsBut_loadKey, ↓keepsBut_modBoot, ↓keepsBut_raiseClash, ↓keepsBut_modForgs, ↓keepsBut_configRadio, ↓keepsBut_judgeThr, ↓keepsBut_setDomain, ↓keepsBut_self, ↓keepsBut_ite, implies_true, and_self, and_true, true_and]
      | with_reducible intro _
      | split) h

@[simp ↓] theorem keepsBut_endDiscovery {ps : List Piece} (h : [Piece.recorder, .boot] ⊆ ps) (r : State) (s : State) :
    keepsBut ps r (endDiscovery s) ↔ keepsBut ps r s :=
  keepsBut_peel (fp := [.recorder, .boot]) (by
    unfold endDiscovery
    repeat' first
      | with_reducible exact keepsBut_refl _ _
      | with_reducible refine keepsBut_forEach_of (fun _ _ => ?_) ?_
      | with_reducible refine keepsBut_foldl_of (fun _ _ => ?_) ?_
      | with_reducible refine ⟨fun _ => ?_, fun _ => ?_⟩
      | simp +zetaHave (disch := decide) only [↓keepsBut_stand, ↓keepsBut_modBoot, ↓keepsBut_self, ↓keepsBut_ite, implies_true, and_self, and_true, true_and]
      | with_reducible intro _
      | split) h

@[simp ↓] theorem keepsBut_stepProgram {ps : List Piece} (h : [Piece.prog, .recorder] ⊆ ps) (r : State) (s : State) :
    keepsBut ps r (stepProgram s).1 ↔ keepsBut ps r s :=
  keepsBut_peel (fp := [.prog, .recorder]) (by
    unfold stepProgram
    repeat' first
      | with_reducible exact keepsBut_refl _ _
      | with_reducible refine keepsBut_forEach_of (fun _ _ => ?_) ?_
      | with_reducible refine keepsBut_foldl_of (fun _ _ => ?_) ?_
      | with_reducible refine ⟨fun _ => ?_, fun _ => ?_⟩
      | simp +zetaHave (disch := decide) only [↓keepsBut_raiseClash, ↓keepsBut_modProg, ↓keepsBut_startProgram, ↓keepsBut_self, ↓keepsBut_ite, implies_true, and_self, and_true, true_and]
      | with_reducible intro _
      | split) h

@[simp ↓] theorem keepsBut_stepRecorder {ps : List Piece} (h : [Piece.recorder] ⊆ ps) (r : State) (s : State) :
    keepsBut ps r (stepRecorder s).1 ↔ keepsBut ps r s :=
  keepsBut_peel (fp := [.recorder]) (by
    unfold stepRecorder
    repeat' first
      | with_reducible exact keepsBut_refl _ _
      | with_reducible refine keepsBut_forEach_of (fun _ _ => ?_) ?_
      | with_reducible refine keepsBut_foldl_of (fun _ _ => ?_) ?_
      | with_reducible refine ⟨fun _ => ?_, fun _ => ?_⟩
      | simp +zetaHave (disch := decide) only [↓keepsBut_modRecorder, ↓keepsBut_self, ↓keepsBut_ite, implies_true, and_self, and_true, true_and]
      | with_reducible intro _
      | split) h

@[simp ↓] theorem keepsBut_startLanes {ps : List Piece} (h : [Piece.recorder] ⊆ ps) (r : State) (s : State) :
    keepsBut ps r (startLanes s) ↔ keepsBut ps r s :=
  keepsBut_peel (fp := [.recorder]) (by
    unfold startLanes
    repeat' first
      | with_reducible exact keepsBut_refl _ _
      | with_reducible refine keepsBut_forEach_of (fun _ _ => ?_) ?_
      | with_reducible refine keepsBut_foldl_of (fun _ _ => ?_) ?_
      | with_reducible refine ⟨fun _ => ?_, fun _ => ?_⟩
      | simp +zetaHave (disch := decide) only [↓keepsBut_stand, ↓keepsBut_self, ↓keepsBut_ite, implies_true, and_self, and_true, true_and]
      | with_reducible intro _
      | split) h

@[simp ↓] theorem keepsBut_stepMode {ps : List Piece} (h : [Piece.links, .tagCtr, .forgs, .est, .disp, .guard, .core, .recorder, .boot, .upd] ⊆ ps) (r : State) (s : State) :
    keepsBut ps r (stepMode s).1 ↔ keepsBut ps r s :=
  keepsBut_peel (fp := [.links, .tagCtr, .forgs, .est, .disp, .guard, .core, .recorder, .boot, .upd]) (by
    unfold stepMode
    repeat' first
      | with_reducible exact keepsBut_refl _ _
      | with_reducible refine keepsBut_forEach_of (fun _ _ => ?_) ?_
      | with_reducible refine keepsBut_foldl_of (fun _ _ => ?_) ?_
      | with_reducible refine ⟨fun _ => ?_, fun _ => ?_⟩
      | simp +zetaHave (disch := decide) only [↓keepsBut_modCore, ↓keepsBut_modBoot, ↓keepsBut_modUpd, ↓keepsBut_startLanes, ↓keepsBut_modForgs, ↓keepsBut_stageAll, ↓keepsBut_modDisp, ↓keepsBut_raise, ↓keepsBut_modGuard, ↓keepsBut_updJournal, ↓keepsBut_returnForagers, ↓keepsBut_self, ↓keepsBut_ite, implies_true, and_self, and_true, true_and]
      | with_reducible intro _
      | split) h

@[simp ↓] theorem keepsBut_doStep {ps : List Piece} (h : [Piece.time, .comb, .links, .tagCtr, .forgs, .cells, .est, .learned, .reg, .disp, .therm, .guard, .core, .host, .can, .prog, .recorder, .boot, .upd, .pwr, .out, .freeCtr] ⊆ ps) (r : State) (k : Nat) (env : StartEnv) (s : State) :
    keepsBut ps r (doStep k env s).1 ↔ keepsBut ps r s :=
  keepsBut_peel (fp := [.time, .comb, .links, .tagCtr, .forgs, .cells, .est, .learned, .reg, .disp, .therm, .guard, .core, .host, .can, .prog, .recorder, .boot, .upd, .pwr, .out, .freeCtr]) (by
    unfold doStep
    repeat' first
      | with_reducible exact keepsBut_refl _ _
      | with_reducible refine (keepsBut_stepMode (by decide) ..).2 ?_
      | with_reducible refine (keepsBut_stepRecorder (by decide) ..).2 ?_
      | with_reducible refine (keepsBut_stepProgram (by decide) ..).2 ?_
      | with_reducible refine (keepsBut_endDiscovery (by decide) ..).2 ?_
      | with_reducible refine (keepsBut_stepLearned (by decide) ..).2 ?_
      | with_reducible refine (keepsBut_stepSafety (by decide) ..).2 ?_
      | with_reducible refine (keepsBut_stepTimeWait (by decide) ..).2 ?_
      | with_reducible refine (keepsBut_stepNetwork (by decide) ..).2 ?_
      | with_reducible refine (keepsBut_stepConfig (by decide) ..).2 ?_
      | with_reducible refine (keepsBut_stepFirmware (by decide) ..).2 ?_
      | with_reducible refine (keepsBut_openJournal (by decide) ..).2 ?_
      | with_reducible refine (keepsBut_armUnit (by decide) ..).2 ?_
      | with_reducible refine (keepsBut_modBoot (by decide) ..).2 ?_
      | with_reducible refine (keepsBut_modTime (by decide) ..).2 ?_
      | with_reducible refine keepsBut_forEach_of (fun _ _ => ?_) ?_
      | with_reducible refine keepsBut_foldl_of (fun _ _ => ?_) ?_
      | with_reducible refine keepsBut_foldl_fst_of (fun _ _ => ?_) ?_
      | with_reducible refine keepsBut_ite_of ?_ ?_
      | with_reducible refine keepsBut_ite_fst_of ?_ ?_
      | extract_lets
      | split
      | with_reducible intro _
      | dsimp only
      | (dsimp +zetaDelta only; split)) h

@[simp ↓] theorem keepsBut_haltStart {ps : List Piece} (h : [Piece.recorder, .boot, .pwr] ⊆ ps) (r : State) (k : Nat) (s : State) :
    keepsBut ps r (haltStart k s) ↔ keepsBut ps r s :=
  keepsBut_peel (fp := [.recorder, .boot, .pwr]) (by
    unfold haltStart
    repeat' first
      | with_reducible exact keepsBut_refl _ _
      | with_reducible refine keepsBut_forEach_of (fun _ _ => ?_) ?_
      | with_reducible refine keepsBut_foldl_of (fun _ _ => ?_) ?_
      | with_reducible refine ⟨fun _ => ?_, fun _ => ?_⟩
      | simp +zetaHave (disch := decide) only [↓keepsBut_modBoot, ↓keepsBut_setDomain, ↓keepsBut_raise, ↓keepsBut_updJournal, ↓keepsBut_self, ↓keepsBut_ite, implies_true, and_self, and_true, true_and]
      | with_reducible intro _
      | split) h

@[simp ↓] theorem keepsBut_failStart {ps : List Piece} (h : [Piece.time, .comb, .links, .tagCtr, .forgs, .cells, .est, .surv, .reg, .disp, .therm, .guard, .core, .host, .can, .prog, .recorder, .mem, .boot, .upd, .bist, .pwr, .out] ⊆ ps) (r : State) (k detail : Nat) (s : State) :
    keepsBut ps r (failStart k detail s) ↔ keepsBut ps r s :=
  keepsBut_peel (fp := [.time, .comb, .links, .tagCtr, .forgs, .cells, .est, .surv, .reg, .disp, .therm, .guard, .core, .host, .can, .prog, .recorder, .mem, .boot, .upd, .bist, .pwr, .out]) (by
    unfold failStart
    repeat' first
      | with_reducible exact keepsBut_refl _ _
      | with_reducible refine keepsBut_forEach_of (fun _ _ => ?_) ?_
      | with_reducible refine keepsBut_foldl_of (fun _ _ => ?_) ?_
      | with_reducible refine ⟨fun _ => ?_, fun _ => ?_⟩
      | simp +zetaHave (disch := decide) only [↓keepsBut_modBoot, ↓keepsBut_trialFailed, ↓keepsBut_noteRestart, ↓keepsBut_restartModule, ↓keepsBut_haltStart, ↓keepsBut_self, ↓keepsBut_ite, implies_true, and_self, and_true, true_and]
      | with_reducible intro _
      | split) h

@[simp ↓] theorem keepsBut_beginStep {ps : List Piece} (h : [Piece.links, .forgs, .recorder, .boot, .pwr, .out, .freeCtr] ⊆ ps) (r : State) (k : Nat) (s : State) :
    keepsBut ps r (beginStep k s) ↔ keepsBut ps r s :=
  keepsBut_peel (fp := [.links, .forgs, .recorder, .boot, .pwr, .out, .freeCtr]) (by
    unfold beginStep
    repeat' first
      | with_reducible exact keepsBut_refl _ _
      | with_reducible refine keepsBut_forEach_of (fun _ _ => ?_) ?_
      | with_reducible refine keepsBut_foldl_of (fun _ _ => ?_) ?_
      | with_reducible refine ⟨fun _ => ?_, fun _ => ?_⟩
      | simp +zetaHave (disch := decide) only [↓keepsBut_modBoot, ↓keepsBut_markStep, ↓keepsBut_beginRadio, ↓keepsBut_haltStart, ↓keepsBut_self, ↓keepsBut_ite, implies_true, and_self, and_true, true_and]
      | with_reducible intro _
      | split) h

@[simp ↓] theorem keepsBut_endStep {ps : List Piece} (h : [Piece.recorder, .boot] ⊆ ps) (r : State) (k : Nat) (e : StepEnd) (s : State) :
    keepsBut ps r (endStep k e s) ↔ keepsBut ps r s :=
  keepsBut_peel (fp := [.recorder, .boot]) (by
    unfold endStep
    repeat' first
      | with_reducible exact keepsBut_refl _ _
      | with_reducible refine keepsBut_forEach_of (fun _ _ => ?_) ?_
      | with_reducible refine keepsBut_foldl_of (fun _ _ => ?_) ?_
      | with_reducible refine ⟨fun _ => ?_, fun _ => ?_⟩
      | simp +zetaHave (disch := decide) only [↓keepsBut_modBoot, ↓keepsBut_raise, ↓keepsBut_markStep, ↓keepsBut_self, ↓keepsBut_ite, implies_true, and_self, and_true, true_and]
      | with_reducible intro _
      | split) h

/-! ### CombItems -/

@[simp ↓] theorem keepsBut_fillWriter {ps : List Piece} (h : [Piece.comb] ⊆ ps) (r : State) (img : Image) (s : State) :
    keepsBut ps r (fillWriter img s) ↔ keepsBut ps r s :=
  keepsBut_peel (fp := [.comb]) (by
    unfold fillWriter
    repeat' first
      | with_reducible exact keepsBut_refl _ _
      | with_reducible refine keepsBut_forEach_of (fun _ _ => ?_) ?_
      | with_reducible refine keepsBut_foldl_of (fun _ _ => ?_) ?_
      | with_reducible refine ⟨fun _ => ?_, fun _ => ?_⟩
      | simp +zetaHave (disch := decide) only [↓keepsBut_modComb, ↓keepsBut_self, ↓keepsBut_ite, implies_true, and_self, and_true, true_and]
      | with_reducible intro _
      | split) h

@[simp ↓] theorem keepsBut_rotateBuffers {ps : List Piece} (h : [Piece.comb, .recorder] ⊆ ps) (r : State) (s : State) :
    keepsBut ps r (rotateBuffers s) ↔ keepsBut ps r s :=
  keepsBut_peel (fp := [.comb, .recorder]) (by
    unfold rotateBuffers
    repeat' first
      | with_reducible exact keepsBut_refl _ _
      | with_reducible refine keepsBut_forEach_of (fun _ _ => ?_) ?_
      | with_reducible refine keepsBut_foldl_of (fun _ _ => ?_) ?_
      | with_reducible refine ⟨fun _ => ?_, fun _ => ?_⟩
      | simp +zetaHave (disch := decide) only [↓keepsBut_clearAll, ↓keepsBut_modComb, ↓keepsBut_self, ↓keepsBut_ite, implies_true, and_self, and_true, true_and]
      | with_reducible intro _
      | split) h

@[simp ↓] theorem keepsBut_rotate {ps : List Piece} (h : [Piece.comb, .recorder] ⊆ ps) (r : State) (img : Image) (s : State) :
    keepsBut ps r (rotate img s) ↔ keepsBut ps r s :=
  keepsBut_peel (fp := [.comb, .recorder]) (by
    unfold rotate
    repeat' first
      | with_reducible exact keepsBut_refl _ _
      | with_reducible refine keepsBut_forEach_of (fun _ _ => ?_) ?_
      | with_reducible refine keepsBut_foldl_of (fun _ _ => ?_) ?_
      | with_reducible refine ⟨fun _ => ?_, fun _ => ?_⟩
      | simp +zetaHave (disch := decide) only [↓keepsBut_rotateBuffers, ↓keepsBut_fillWriter, ↓keepsBut_self, ↓keepsBut_ite, implies_true, and_self, and_true, true_and]
      | with_reducible intro _
      | split) h

@[simp ↓] theorem keepsBut_closeAreas {ps : List Piece} (h : [Piece.comb] ⊆ ps) (r : State) (late : BitVec 16) (s : State) :
    keepsBut ps r (closeAreas late s) ↔ keepsBut ps r s :=
  keepsBut_peel (fp := [.comb]) (by
    unfold closeAreas
    repeat' first
      | with_reducible exact keepsBut_refl _ _
      | with_reducible refine keepsBut_forEach_of (fun _ _ => ?_) ?_
      | with_reducible refine keepsBut_foldl_of (fun _ _ => ?_) ?_
      | with_reducible refine ⟨fun _ => ?_, fun _ => ?_⟩
      | simp +zetaHave (disch := decide) only [↓keepsBut_modComb, ↓keepsBut_self, ↓keepsBut_ite, implies_true, and_self, and_true, true_and]
      | with_reducible intro _
      | split) h

/-! ### Boundary -/

@[simp ↓] theorem keepsBut_driveUnit {ps : List Piece} (h : [Piece.time] ⊆ ps) (r : State) (u t : Nat) (s : State) :
    keepsBut ps r (driveUnit u t s) ↔ keepsBut ps r s :=
  keepsBut_peel (fp := [.time]) (by
    unfold driveUnit
    repeat' first
      | with_reducible exact keepsBut_refl _ _
      | with_reducible refine (keepsBut_modTime (by decide) ..).2 ?_
      | with_reducible refine keepsBut_forEach_of (fun _ _ => ?_) ?_
      | with_reducible refine keepsBut_ite_of ?_ ?_
      | extract_lets
      | split
      | with_reducible intro _
      | dsimp only) h

@[simp ↓] theorem keepsBut_fireOutputs {ps : List Piece} (h : [Piece.time] ⊆ ps) (r : State) (s : State) :
    keepsBut ps r (fireOutputs s) ↔ keepsBut ps r s :=
  keepsBut_peel (fp := [.time]) (by
    unfold fireOutputs
    repeat' first
      | with_reducible exact keepsBut_refl _ _
      | with_reducible refine (keepsBut_driveUnit (by decide) ..).2 ?_
      | with_reducible refine (keepsBut_fireUnit (by decide) ..).2 ?_
      | with_reducible refine keepsBut_forEach_of (fun _ _ => ?_) ?_
      | with_reducible refine keepsBut_ite_of ?_ ?_
      | extract_lets
      | split
      | with_reducible intro _
      | dsimp only) h

@[simp ↓] theorem keepsBut_openFrame {ps : List Piece} (h : [Piece.time] ⊆ ps) (r : State) (late : Bool) (s : State) :
    keepsBut ps r (openFrame late s) ↔ keepsBut ps r s :=
  keepsBut_peel (fp := [.time]) (by
    unfold openFrame
    repeat' first
      | with_reducible exact keepsBut_refl _ _
      | with_reducible refine keepsBut_forEach_of (fun _ _ => ?_) ?_
      | with_reducible refine keepsBut_foldl_of (fun _ _ => ?_) ?_
      | with_reducible refine ⟨fun _ => ?_, fun _ => ?_⟩
      | simp +zetaHave (disch := decide) only [↓keepsBut_fireOutputs, ↓keepsBut_fireUnit, ↓keepsBut_at_, ↓keepsBut_modTime, ↓keepsBut_rateStep, ↓keepsBut_self, ↓keepsBut_ite, implies_true, and_self, and_true, true_and]
      | with_reducible intro _
      | split) h

@[simp ↓] theorem keepsBut_swapFrame {ps : List Piece} (h : [Piece.comb, .links, .tagCtr, .forgs, .cells, .surv, .learned, .reg, .disp, .therm, .recorder, .boot, .pwr, .freeCtr] ⊆ ps) (r : State) (late : Bool) (s : State) :
    keepsBut ps r (swapFrame late s) ↔ keepsBut ps r s :=
  keepsBut_peel (fp := [.comb, .links, .tagCtr, .forgs, .cells, .surv, .learned, .reg, .disp, .therm, .recorder, .boot, .pwr, .freeCtr]) (by
    unfold swapFrame
    repeat' first
      | with_reducible exact keepsBut_refl _ _
      | with_reducible refine keepsBut_forEach_of (fun _ _ => ?_) ?_
      | with_reducible refine keepsBut_foldl_of (fun _ _ => ?_) ?_
      | with_reducible refine ⟨fun _ => ?_, fun _ => ?_⟩
      | simp +zetaHave (disch := decide) only [↓keepsBut_overrun, ↓keepsBut_joinDecision, ↓keepsBut_modBoot, ↓keepsBut_freeEntries, ↓keepsBut_swapTables, ↓keepsBut_modPwr, ↓keepsBut_modLinks, ↓keepsBut_applyCommit, ↓keepsBut_frameWrites, ↓keepsBut_modReg, ↓keepsBut_answer, ↓keepsBut_self, ↓keepsBut_ite, implies_true, and_self, and_true, true_and]
      | with_reducible intro _
      | split) h

@[simp ↓] theorem keepsBut_firstMap {ps : List Piece} (h : [Piece.links, .recorder] ⊆ ps) (r : State) (n : Nat) (s : State) :
    keepsBut ps r (firstMap n s) ↔ keepsBut ps r s :=
  keepsBut_peel (fp := [.links, .recorder]) (by
    unfold firstMap
    repeat' first
      | with_reducible exact keepsBut_refl _ _
      | with_reducible refine keepsBut_forEach_of (fun _ _ => ?_) ?_
      | with_reducible refine keepsBut_foldl_of (fun _ _ => ?_) ?_
      | with_reducible refine ⟨fun _ => ?_, fun _ => ?_⟩
      | simp +zetaHave (disch := decide) only [↓keepsBut_updLink, ↓keepsBut_stand, ↓keepsBut_self, ↓keepsBut_ite, implies_true, and_self, and_true, true_and]
      | with_reducible intro _
      | split) h

@[simp ↓] theorem keepsBut_relayRepeat {ps : List Piece} (h : [Piece.links, .tagCtr] ⊆ ps) (r : State) (n : Nat) (s : State) :
    keepsBut ps r (relayRepeat n s) ↔ keepsBut ps r s :=
  keepsBut_peel (fp := [.links, .tagCtr]) (by
    unfold relayRepeat
    repeat' first
      | with_reducible exact keepsBut_refl _ _
      | with_reducible refine keepsBut_forEach_of (fun _ _ => ?_) ?_
      | with_reducible refine keepsBut_foldl_of (fun _ _ => ?_) ?_
      | with_reducible refine ⟨fun _ => ?_, fun _ => ?_⟩
      | simp +zetaHave (disch := decide) only [↓keepsBut_sendRelaySet, ↓keepsBut_self, ↓keepsBut_ite, implies_true, and_self, and_true, true_and]
      | with_reducible intro _
      | split) h

@[simp ↓] theorem keepsBut_beginLinks {ps : List Piece} (h : [Piece.links] ⊆ ps) (r : State) (s : State) :
    keepsBut ps r (beginLinks s) ↔ keepsBut ps r s :=
  keepsBut_peel (fp := [.links]) (by
    unfold beginLinks
    repeat' first
      | with_reducible exact keepsBut_refl _ _
      | with_reducible refine keepsBut_forEach_of (fun _ _ => ?_) ?_
      | with_reducible refine keepsBut_foldl_of (fun _ _ => ?_) ?_
      | with_reducible refine ⟨fun _ => ?_, fun _ => ?_⟩
      | simp +zetaHave (disch := decide) only [↓keepsBut_modLinks, ↓keepsBut_self, ↓keepsBut_ite, implies_true, and_self, and_true, true_and]
      | with_reducible intro _
      | split) h

@[simp ↓] theorem keepsBut_linkFrame {ps : List Piece} (h : [Piece.links, .tagCtr, .forgs, .recorder] ⊆ ps) (r : State) (s : State) :
    keepsBut ps r (linkFrame s) ↔ keepsBut ps r s :=
  keepsBut_peel (fp := [.links, .tagCtr, .forgs, .recorder]) (by
    unfold linkFrame
    repeat' first
      | with_reducible exact keepsBut_refl _ _
      | with_reducible refine keepsBut_forEach_of (fun _ _ => ?_) ?_
      | with_reducible refine keepsBut_foldl_of (fun _ _ => ?_) ?_
      | with_reducible refine ⟨fun _ => ?_, fun _ => ?_⟩
      | simp +zetaHave (disch := decide) only [↓keepsBut_firstMap, ↓keepsBut_beginLinks, ↓keepsBut_holdBulk, ↓keepsBut_relayRepeat, ↓keepsBut_newLinkFrame, ↓keepsBut_resumePorts, ↓keepsBut_self, ↓keepsBut_ite, implies_true, and_self, and_true, true_and]
      | with_reducible intro _
      | split) h

@[simp ↓] theorem keepsBut_roundFrame {ps : List Piece} (h : [Piece.links, .reg, .core, .host, .recorder, .mem, .bist] ⊆ ps) (r : State) (laneFails : List (Nat × Nat)) (s : State) :
    keepsBut ps r (roundFrame laneFails s) ↔ keepsBut ps r s :=
  keepsBut_peel (fp := [.links, .reg, .core, .host, .recorder, .mem, .bist]) (by
    unfold roundFrame
    repeat' first
      | with_reducible exact keepsBut_refl _ _
      | with_reducible refine keepsBut_forEach_of (fun _ _ => ?_) ?_
      | with_reducible refine keepsBut_foldl_of (fun _ _ => ?_) ?_
      | with_reducible refine ⟨fun _ => ?_, fun _ => ?_⟩
      | simp +zetaHave (disch := decide) only [↓keepsBut_modCore, ↓keepsBut_endRound, ↓keepsBut_memRound, ↓keepsBut_modLinks, ↓keepsBut_laneSlices, ↓keepsBut_modRecorder, ↓keepsBut_modHost, ↓keepsBut_self, ↓keepsBut_ite, implies_true, and_self, and_true, true_and]
      | with_reducible intro _
      | split) h

@[simp ↓] theorem keepsBut_learnedFrame {ps : List Piece} (h : [Piece.surv, .learned, .recorder] ⊆ ps) (r : State) (s : State) :
    keepsBut ps r (learnedFrame s) ↔ keepsBut ps r s :=
  keepsBut_peel (fp := [.surv, .learned, .recorder]) (by
    unfold learnedFrame
    repeat' first
      | with_reducible exact keepsBut_refl _ _
      | with_reducible refine keepsBut_forEach_of (fun _ _ => ?_) ?_
      | with_reducible refine keepsBut_foldl_of (fun _ _ => ?_) ?_
      | with_reducible refine ⟨fun _ => ?_, fun _ => ?_⟩
      | simp +zetaHave (disch := decide) only [↓keepsBut_writeAll, ↓keepsBut_writeDeferred, ↓keepsBut_self, ↓keepsBut_ite, implies_true, and_self, and_true, true_and]
      | with_reducible intro _
      | split) h

@[simp ↓] theorem keepsBut_runFrame {ps : List Piece} (h : [Piece.time, .comb, .links, .tagCtr, .forgs, .cells, .est, .surv, .learned, .reg, .disp, .therm, .guard, .core, .host, .can, .prog, .recorder, .mem, .boot, .upd, .bist, .pwr, .out] ⊆ ps) (r : State) (late : Bool) (s : State) :
    keepsBut ps r (runFrame late s) ↔ keepsBut ps r s :=
  keepsBut_peel (fp := [.time, .comb, .links, .tagCtr, .forgs, .cells, .est, .surv, .learned, .reg, .disp, .therm, .guard, .core, .host, .can, .prog, .recorder, .mem, .boot, .upd, .bist, .pwr, .out]) (by
    unfold runFrame
    repeat' first
      | with_reducible exact keepsBut_refl _ _
      | with_reducible refine keepsBut_forEach_of (fun _ _ => ?_) ?_
      | with_reducible refine keepsBut_foldl_of (fun _ _ => ?_) ?_
      | with_reducible refine ⟨fun _ => ?_, fun _ => ?_⟩
      | simp +zetaHave (disch := decide) only [↓keepsBut_progFrame, ↓keepsBut_modeFrame, ↓keepsBut_rpdoFrame, ↓keepsBut_learnedFrame, ↓keepsBut_regulatorFrame, ↓keepsBut_connectFrame, ↓keepsBut_activationFrame, ↓keepsBut_canFrame, ↓keepsBut_reconnectFrame, ↓keepsBut_applySelect, ↓keepsBut_surveyFrame, ↓keepsBut_stagingFrame, ↓keepsBut_self, ↓keepsBut_ite, implies_true, and_self, and_true, true_and]
      | with_reducible intro _
      | split) h

@[simp ↓] theorem keepsBut_holdInstant {ps : List Piece} (h : [Piece.comb, .prog] ⊆ ps) (r : State) (gpio : BitVec 16) (s : State) :
    keepsBut ps r (holdInstant gpio s) ↔ keepsBut ps r s :=
  keepsBut_peel (fp := [.comb, .prog]) (by
    unfold holdInstant
    repeat' first
      | with_reducible exact keepsBut_refl _ _
      | with_reducible refine keepsBut_forEach_of (fun _ _ => ?_) ?_
      | with_reducible refine keepsBut_foldl_of (fun _ _ => ?_) ?_
      | with_reducible refine ⟨fun _ => ?_, fun _ => ?_⟩
      | simp +zetaHave (disch := decide) only [↓keepsBut_modComb, ↓keepsBut_modProg, ↓keepsBut_self, ↓keepsBut_ite, implies_true, and_self, and_true, true_and]
      | with_reducible intro _
      | split) h

@[simp ↓] theorem keepsBut_statusFrame {ps : List Piece} (h : [Piece.time, .can, .recorder] ⊆ ps) (r : State) (img : Image) (s : State) :
    keepsBut ps r (statusFrame img s) ↔ keepsBut ps r s :=
  keepsBut_peel (fp := [.time, .can, .recorder]) (by
    unfold statusFrame
    repeat' first
      | with_reducible exact keepsBut_refl _ _
      | with_reducible refine keepsBut_forEach_of (fun _ _ => ?_) ?_
      | with_reducible refine keepsBut_foldl_of (fun _ _ => ?_) ?_
      | with_reducible refine ⟨fun _ => ?_, fun _ => ?_⟩
      | simp +zetaHave (disch := decide) only [↓keepsBut_sendStatus, ↓keepsBut_self, ↓keepsBut_ite, implies_true, and_self, and_true, true_and]
      | with_reducible intro _
      | split) h

@[simp ↓] theorem keepsBut_keepVolts {ps : List Piece} (h : [Piece.reg] ⊆ ps) (r : State) (s : State) :
    keepsBut ps r (keepVolts s) ↔ keepsBut ps r s :=
  keepsBut_peel (fp := [.reg]) (by
    unfold keepVolts
    repeat' first
      | with_reducible exact keepsBut_refl _ _
      | with_reducible refine keepsBut_forEach_of (fun _ _ => ?_) ?_
      | with_reducible refine keepsBut_foldl_of (fun _ _ => ?_) ?_
      | with_reducible refine ⟨fun _ => ?_, fun _ => ?_⟩
      | simp +zetaHave (disch := decide) only [↓keepsBut_modReg, ↓keepsBut_self, ↓keepsBut_ite, implies_true, and_self, and_true, true_and]
      | with_reducible intro _
      | split) h

end Sys2Proof.Machine
end

