-- ==== Sys2Proof/Laws/FrameCommands.lean ====
section
/-!
SUPPORT. FrameCommands: what each command leaves unchanged. For every command, its meaning answers a next state that keeps every part of the
state outside those the lemma names.
-/

set_option linter.all false

namespace Sys2Proof.Machine

theorem execPtpAnnounce_frame (ts : Nat) (port : Fin 2) (gm : Nat) (rank : List Nat) (domain : Nat) (ptpScale : Bool) (utc : Int) (s : State) : answers (execPtpAnnounce ts port gm rank domain ptpScale utc s) (keepsBut [.time, .recorder] s) := by
  unfold execPtpAnnounce
  repeat' first
    | with_reducible refine answers_next ?_
    | with_reducible refine answers_ite ?_ ?_
    | with_reducible exact keepsBut_refl _ _
    | with_reducible refine (keepsBut_selectMaster (by decide) ..).2 ?_
    | with_reducible refine (keepsBut_raise (by decide) ..).2 ?_
    | with_reducible refine (keepsBut_at_ (by decide) ..).2 ?_
    | with_reducible refine (keepsBut_modTime (by decide) ..).2 ?_
    | with_reducible refine keepsBut_forEach_of (fun _ _ => ?_) ?_
    | with_reducible refine keepsBut_foldl_of (fun _ _ => ?_) ?_
    | with_reducible refine keepsBut_ite_of ?_ ?_
    | with_reducible refine keepsBut_ite_fst_of ?_ ?_
    | extract_lets
    | split
    | with_reducible intro _
    | dsimp only
    | (dsimp +zetaDelta only; split)

theorem execPtpSync_frame (ts : Nat) (port : Fin 2) (gm : Nat) (origin : WireTime) (corr : Int) (s : State) : answers (execPtpSync ts port gm origin corr s) (keepsBut [.time, .recorder] s) := by
  unfold execPtpSync
  repeat' first
    | with_reducible refine answers_next ?_
    | with_reducible refine answers_ite ?_ ?_
    | with_reducible exact keepsBut_refl _ _
    | with_reducible refine (keepsBut_offsetSample (by decide) ..).2 ?_
    | with_reducible refine (keepsBut_at_ (by decide) ..).2 ?_
    | with_reducible refine (keepsBut_modTime (by decide) ..).2 ?_
    | with_reducible refine keepsBut_forEach_of (fun _ _ => ?_) ?_
    | with_reducible refine keepsBut_foldl_of (fun _ _ => ?_) ?_
    | with_reducible refine keepsBut_ite_of ?_ ?_
    | with_reducible refine keepsBut_ite_fst_of ?_ ?_
    | extract_lets
    | split
    | with_reducible intro _
    | dsimp only
    | (dsimp +zetaDelta only; split)

theorem execPtpPdelay_frame (t4 : Nat) (port : Fin 2) (seq : Nat) (t2 t3 : WireTime) (s : State) : answers (execPtpPdelay t4 port seq t2 t3 s) (keepsBut [.time, .recorder] s) := by
  unfold execPtpPdelay
  repeat' first
    | with_reducible refine answers_next ?_
    | with_reducible refine answers_ite ?_ ?_
    | with_reducible exact keepsBut_refl _ _
    | with_reducible refine (keepsBut_peerChange (by decide) ..).2 ?_
    | with_reducible refine (keepsBut_at_ (by decide) ..).2 ?_
    | with_reducible refine (keepsBut_modTime (by decide) ..).2 ?_
    | with_reducible refine keepsBut_forEach_of (fun _ _ => ?_) ?_
    | with_reducible refine keepsBut_foldl_of (fun _ _ => ?_) ?_
    | with_reducible refine keepsBut_ite_of ?_ ?_
    | with_reducible refine keepsBut_ite_fst_of ?_ ?_
    | extract_lets
    | split
    | with_reducible intro _
    | dsimp only
    | (dsimp +zetaDelta only; split)

theorem execPeerDelayExpiry_frame (t : Nat) (port : Fin 2) (s : State) : answers (execPeerDelayExpiry t port s) (keepsBut [.time, .recorder] s) := by
  unfold execPeerDelayExpiry
  repeat' first
    | with_reducible refine answers_next ?_
    | with_reducible refine answers_ite ?_ ?_
    | with_reducible exact keepsBut_refl _ _
    | with_reducible refine (keepsBut_peerChange (by decide) ..).2 ?_
    | with_reducible refine (keepsBut_judgeHoldover (by decide) ..).2 ?_
    | with_reducible refine (keepsBut_at_ (by decide) ..).2 ?_
    | with_reducible refine (keepsBut_modTime (by decide) ..).2 ?_
    | with_reducible refine keepsBut_forEach_of (fun _ _ => ?_) ?_
    | with_reducible refine keepsBut_foldl_of (fun _ _ => ?_) ?_
    | with_reducible refine keepsBut_ite_of ?_ ?_
    | with_reducible refine keepsBut_ite_fst_of ?_ ?_
    | extract_lets
    | split
    | with_reducible intro _
    | dsimp only
    | (dsimp +zetaDelta only; split)

theorem execTransmitTimestamp_frame (t : Nat) (id : Nat) (port : Fin 4) (s : State) : answers (execTransmitTimestamp t id port s) (keepsBut [.time, .can, .recorder, .out] s) := by
  unfold execTransmitTimestamp
  repeat' first
    | with_reducible refine answers_next ?_
    | with_reducible refine answers_ite ?_ ?_
    | with_reducible exact keepsBut_refl _ _
    | with_reducible refine (keepsBut_sentTagged (by decide) ..).2 ?_
    | with_reducible refine (keepsBut_takeStamp (by decide) ..).2 ?_
    | with_reducible refine (keepsBut_at_ (by decide) ..).2 ?_
    | with_reducible refine keepsBut_forEach_of (fun _ _ => ?_) ?_
    | with_reducible refine keepsBut_foldl_of (fun _ _ => ?_) ?_
    | with_reducible refine keepsBut_ite_of ?_ ?_
    | with_reducible refine keepsBut_ite_fst_of ?_ ?_
    | extract_lets
    | split
    | with_reducible intro _
    | dsimp only
    | (dsimp +zetaDelta only; split)

theorem execPtpSyncSend_frame (t leaveA leaveB : Nat) (s : State) : answers (execPtpSyncSend t leaveA leaveB s) (keepsBut [.time, .recorder, .out] s) := by
  unfold execPtpSyncSend
  repeat' first
    | with_reducible refine answers_next ?_
    | with_reducible refine answers_ite ?_ ?_
    | with_reducible exact keepsBut_refl _ _
    | with_reducible refine (keepsBut_syncOnPort (by decide) ..).2 ?_
    | with_reducible refine (keepsBut_at_ (by decide) ..).2 ?_
    | with_reducible refine (keepsBut_modTime (by decide) ..).2 ?_
    | with_reducible refine keepsBut_forEach_of (fun _ _ => ?_) ?_
    | with_reducible refine keepsBut_foldl_of (fun _ _ => ?_) ?_
    | with_reducible refine keepsBut_ite_of ?_ ?_
    | with_reducible refine keepsBut_ite_fst_of ?_ ?_
    | extract_lets
    | split
    | with_reducible intro _
    | dsimp only
    | (dsimp +zetaDelta only; split)

theorem execPdelayReqSend_frame (t : Nat) (s : State) : answers (execPdelayReqSend t s) (keepsBut [.time, .out] s) := by
  unfold execPdelayReqSend
  repeat' first
    | with_reducible refine answers_next ?_
    | with_reducible refine answers_ite ?_ ?_
    | with_reducible exact keepsBut_refl _ _
    | with_reducible refine (keepsBut_at_ (by decide) ..).2 ?_
    | with_reducible refine (keepsBut_send (by decide) ..).2 ?_
    | with_reducible refine (keepsBut_modTime (by decide) ..).2 ?_
    | with_reducible refine keepsBut_forEach_of (fun _ _ => ?_) ?_
    | with_reducible refine keepsBut_foldl_of (fun _ _ => ?_) ?_
    | with_reducible refine keepsBut_ite_of ?_ ?_
    | with_reducible refine keepsBut_ite_fst_of ?_ ?_
    | extract_lets
    | split
    | with_reducible intro _
    | dsimp only
    | (dsimp +zetaDelta only; split)

theorem execAnnounceTimeout_frame (t : Nat) (s : State) : answers (execAnnounceTimeout t s) (keepsBut [.time, .recorder] s) := by
  unfold execAnnounceTimeout
  repeat' first
    | with_reducible refine answers_next ?_
    | with_reducible refine answers_ite ?_ ?_
    | with_reducible exact keepsBut_refl _ _
    | with_reducible refine (keepsBut_selectMaster (by decide) ..).2 ?_
    | with_reducible refine (keepsBut_judgeHoldover (by decide) ..).2 ?_
    | with_reducible refine (keepsBut_at_ (by decide) ..).2 ?_
    | with_reducible refine keepsBut_forEach_of (fun _ _ => ?_) ?_
    | with_reducible refine keepsBut_foldl_of (fun _ _ => ?_) ?_
    | with_reducible refine keepsBut_ite_of ?_ ?_
    | with_reducible refine keepsBut_ite_fst_of ?_ ?_
    | extract_lets
    | split
    | with_reducible intro _
    | dsimp only
    | (dsimp +zetaDelta only; split)

theorem execSyncBoundExceeded_frame (t : Nat) (s : State) : answers (execSyncBoundExceeded t s) (keepsBut [.time, .recorder] s) := by
  unfold execSyncBoundExceeded
  repeat' first
    | with_reducible refine answers_next ?_
    | with_reducible refine answers_ite ?_ ?_
    | with_reducible exact keepsBut_refl _ _
    | with_reducible refine (keepsBut_judgeSync (by decide) ..).2 ?_
    | with_reducible refine (keepsBut_at_ (by decide) ..).2 ?_
    | with_reducible refine keepsBut_forEach_of (fun _ _ => ?_) ?_
    | with_reducible refine keepsBut_foldl_of (fun _ _ => ?_) ?_
    | with_reducible refine keepsBut_ite_of ?_ ?_
    | with_reducible refine keepsBut_ite_fst_of ?_ ?_
    | extract_lets
    | split
    | with_reducible intro _
    | dsimp only
    | (dsimp +zetaDelta only; split)

theorem execPpsInEdge_frame (e : Edge) (s : State) : answers (execPpsInEdge e s) (keepsBut [.time, .recorder] s) := by
  unfold execPpsInEdge
  repeat' first
    | with_reducible refine answers_next ?_
    | with_reducible refine answers_ite ?_ ?_
    | with_reducible exact keepsBut_refl _ _
    | with_reducible refine (keepsBut_offsetSample (by decide) ..).2 ?_
    | with_reducible refine (keepsBut_stand (by decide) ..).2 ?_
    | with_reducible refine (keepsBut_clear (by decide) ..).2 ?_
    | with_reducible refine (keepsBut_at_ (by decide) ..).2 ?_
    | with_reducible refine (keepsBut_modTime (by decide) ..).2 ?_
    | with_reducible refine keepsBut_forEach_of (fun _ _ => ?_) ?_
    | with_reducible refine keepsBut_foldl_of (fun _ _ => ?_) ?_
    | with_reducible refine keepsBut_ite_of ?_ ?_
    | with_reducible refine keepsBut_ite_fst_of ?_ ?_
    | extract_lets
    | split
    | with_reducible intro _
    | dsimp only
    | (dsimp +zetaDelta only; split)

theorem execSyncInEdge_frame (e : Edge) (s : State) : answers (execSyncInEdge e s) (keepsBut [.time] s) := by
  unfold execSyncInEdge
  repeat' first
    | with_reducible refine answers_next ?_
    | with_reducible refine answers_ite ?_ ?_
    | with_reducible exact keepsBut_refl _ _
    | with_reducible refine (keepsBut_at_ (by decide) ..).2 ?_
    | with_reducible refine (keepsBut_modTime (by decide) ..).2 ?_
    | with_reducible refine keepsBut_forEach_of (fun _ _ => ?_) ?_
    | with_reducible refine keepsBut_foldl_of (fun _ _ => ?_) ?_
    | with_reducible refine keepsBut_ite_of ?_ ?_
    | with_reducible refine keepsBut_ite_fst_of ?_ ?_
    | extract_lets
    | split
    | with_reducible intro _
    | dsimp only
    | (dsimp +zetaDelta only; split)

theorem execSyncLost_frame (t : Nat) (s : State) : answers (execSyncLost t s) (keepsBut [.time, .recorder] s) := by
  unfold execSyncLost
  repeat' first
    | with_reducible refine answers_next ?_
    | with_reducible refine answers_ite ?_ ?_
    | with_reducible exact keepsBut_refl _ _
    | with_reducible refine (keepsBut_stand (by decide) ..).2 ?_
    | with_reducible refine (keepsBut_at_ (by decide) ..).2 ?_
    | with_reducible refine (keepsBut_modTime (by decide) ..).2 ?_
    | with_reducible refine keepsBut_forEach_of (fun _ _ => ?_) ?_
    | with_reducible refine keepsBut_foldl_of (fun _ _ => ?_) ?_
    | with_reducible refine keepsBut_ite_of ?_ ?_
    | with_reducible refine keepsBut_ite_fst_of ?_ ?_
    | extract_lets
    | split
    | with_reducible intro _
    | dsimp only
    | (dsimp +zetaDelta only; split)

theorem execPulseInEdge_frame (e : Edge) (s : State) : answers (execPulseInEdge e s) (keepsBut [.time] s) := by
  unfold execPulseInEdge
  repeat' first
    | with_reducible refine answers_next ?_
    | with_reducible refine answers_ite ?_ ?_
    | with_reducible exact keepsBut_refl _ _
    | with_reducible refine (keepsBut_at_ (by decide) ..).2 ?_
    | with_reducible refine (keepsBut_modTime (by decide) ..).2 ?_
    | with_reducible refine keepsBut_forEach_of (fun _ _ => ?_) ?_
    | with_reducible refine keepsBut_foldl_of (fun _ _ => ?_) ?_
    | with_reducible refine keepsBut_ite_of ?_ ?_
    | with_reducible refine keepsBut_ite_fst_of ?_ ?_
    | extract_lets
    | split
    | with_reducible intro _
    | dsimp only
    | (dsimp +zetaDelta only; split)

theorem execCapInEdge_frame (e : Edge) (k : Fin 8) (falling : Bool) (s : State) : answers (execCapInEdge e k falling s) (keepsBut [.time, .recorder] s) := by
  unfold execCapInEdge
  repeat' first
    | with_reducible refine answers_next ?_
    | with_reducible refine answers_ite ?_ ?_
    | with_reducible exact keepsBut_refl _ _
    | with_reducible refine (keepsBut_raise (by decide) ..).2 ?_
    | with_reducible refine (keepsBut_at_ (by decide) ..).2 ?_
    | with_reducible refine (keepsBut_modTime (by decide) ..).2 ?_
    | with_reducible refine keepsBut_forEach_of (fun _ _ => ?_) ?_
    | with_reducible refine keepsBut_foldl_of (fun _ _ => ?_) ?_
    | with_reducible refine keepsBut_ite_of ?_ ?_
    | with_reducible refine keepsBut_ite_fst_of ?_ ?_
    | extract_lets
    | split
    | with_reducible intro _
    | dsimp only
    | (dsimp +zetaDelta only; split)

theorem execCompareArm_frame (t : Nat) (u : Fin 24) (target : Nat) (s : State) : answers (execCompareArm t u target s) (keepsBut [.time, .recorder] s) := by
  unfold execCompareArm
  repeat' first
    | with_reducible refine answers_next ?_
    | with_reducible refine answers_ite ?_ ?_
    | with_reducible exact keepsBut_refl _ _
    | with_reducible refine (keepsBut_driveUnit (by decide) ..).2 ?_
    | with_reducible refine (keepsBut_fireUnit (by decide) ..).2 ?_
    | with_reducible refine (keepsBut_raise (by decide) ..).2 ?_
    | with_reducible refine (keepsBut_at_ (by decide) ..).2 ?_
    | with_reducible refine (keepsBut_modTime (by decide) ..).2 ?_
    | with_reducible refine keepsBut_forEach_of (fun _ _ => ?_) ?_
    | with_reducible refine keepsBut_foldl_of (fun _ _ => ?_) ?_
    | with_reducible refine keepsBut_ite_of ?_ ?_
    | with_reducible refine keepsBut_ite_fst_of ?_ ?_
    | extract_lets
    | split
    | with_reducible intro _
    | dsimp only
    | (dsimp +zetaDelta only; split)

theorem execPpsOut_frame (t : Nat) (s : State) : answers (execPpsOut t s) (keepsBut [.time] s) := by
  unfold execPpsOut
  repeat' first
    | with_reducible refine answers_next ?_
    | with_reducible refine answers_ite ?_ ?_
    | with_reducible exact keepsBut_refl _ _
    | with_reducible refine (keepsBut_driveUnit (by decide) ..).2 ?_
    | with_reducible refine (keepsBut_fireUnit (by decide) ..).2 ?_
    | with_reducible refine (keepsBut_at_ (by decide) ..).2 ?_
    | with_reducible refine (keepsBut_modTime (by decide) ..).2 ?_
    | with_reducible refine keepsBut_forEach_of (fun _ _ => ?_) ?_
    | with_reducible refine keepsBut_foldl_of (fun _ _ => ?_) ?_
    | with_reducible refine keepsBut_ite_of ?_ ?_
    | with_reducible refine keepsBut_ite_fst_of ?_ ?_
    | extract_lets
    | split
    | with_reducible intro _
    | dsimp only
    | (dsimp +zetaDelta only; split)

theorem execConfiguredOutput_frame (t : Nat) (k : Fin 8) (s : State) : answers (execConfiguredOutput t k s) (keepsBut [.time] s) := by
  unfold execConfiguredOutput
  repeat' first
    | with_reducible refine answers_next ?_
    | with_reducible refine answers_ite ?_ ?_
    | with_reducible exact keepsBut_refl _ _
    | with_reducible refine (keepsBut_driveUnit (by decide) ..).2 ?_
    | with_reducible refine (keepsBut_fireUnit (by decide) ..).2 ?_
    | with_reducible refine (keepsBut_at_ (by decide) ..).2 ?_
    | with_reducible refine (keepsBut_modTime (by decide) ..).2 ?_
    | with_reducible refine keepsBut_forEach_of (fun _ _ => ?_) ?_
    | with_reducible refine keepsBut_foldl_of (fun _ _ => ?_) ?_
    | with_reducible refine keepsBut_ite_of ?_ ?_
    | with_reducible refine keepsBut_ite_fst_of ?_ ?_
    | extract_lets
    | split
    | with_reducible intro _
    | dsimp only
    | (dsimp +zetaDelta only; split)

@[simp ↓] theorem keepsBut_setTime {ps : List Piece} (h : [Piece.time, .guard, .host, .can, .recorder, .boot] ⊆ ps) (r : State) (k t : Nat) (size : Int) (s : State) :
    keepsBut ps r (setTime k t size s) ↔ keepsBut ps r s :=
  keepsBut_peel (fp := [.time, .guard, .host, .can, .recorder, .boot]) (by
    unfold setTime
    repeat' first
      | with_reducible exact keepsBut_refl _ _
      | with_reducible refine (keepsBut_clear (by decide) ..).2 ?_
      | with_reducible refine (keepsBut_judgeSync (by decide) ..).2 ?_
      | with_reducible refine (keepsBut_modTime (by decide) ..).2 ?_
      | with_reducible refine (keepsBut_raise (by decide) ..).2 ?_
      | with_reducible refine (keepsBut_stepTime (by decide) ..).2 ?_
      | with_reducible refine keepsBut_forEach_of (fun _ _ => ?_) ?_
      | with_reducible refine keepsBut_ite_of ?_ ?_
      | extract_lets
      | split
      | with_reducible intro _
      | dsimp only) h

theorem execStartTimeAcquisition_frame (sample : Option (Nat × Int × Nat)) (s : State) : answers (execStartTimeAcquisition sample s) (keepsBut [.time, .guard, .host, .can, .recorder, .boot] s) := by
  unfold execStartTimeAcquisition
  repeat' first
    | with_reducible refine answers_next ?_
    | with_reducible refine answers_ite ?_ ?_
    | with_reducible exact keepsBut_refl _ _
    | with_reducible refine (keepsBut_at_ (by decide) ..).2 ?_
    | with_reducible refine (keepsBut_setTime (by decide) ..).2 ?_
    | with_reducible refine (keepsBut_judgeSync (by decide) ..).2 ?_
    | with_reducible refine (keepsBut_stepTime (by decide) ..).2 ?_
    | with_reducible refine (keepsBut_stand (by decide) ..).2 ?_
    | with_reducible refine (keepsBut_clear (by decide) ..).2 ?_
    | with_reducible refine (keepsBut_raise (by decide) ..).2 ?_
    | with_reducible refine (keepsBut_modTime (by decide) ..).2 ?_
    | with_reducible refine keepsBut_forEach_of (fun _ _ => ?_) ?_
    | with_reducible refine keepsBut_foldl_of (fun _ _ => ?_) ?_
    | with_reducible refine keepsBut_ite_of ?_ ?_
    | with_reducible refine keepsBut_ite_fst_of ?_ ?_
    | extract_lets
    | split
    | with_reducible intro _
    | dsimp only
    | (dsimp +zetaDelta only; split)

theorem execUwbSync_frame (t : Nat) (n : Fin 4) (s : State) : answers (execUwbSync t n s) (keepsBut [.time, .links, .surv, .recorder, .out] s) := by
  unfold execUwbSync
  repeat' first
    | with_reducible refine answers_next ?_
    | with_reducible refine answers_ite ?_ ?_
    | with_reducible exact keepsBut_refl _ _
    | with_reducible refine (keepsBut_armBurst (by decide) ..).2 ?_
    | with_reducible refine (keepsBut_fireUnit (by decide) ..).2 ?_
    | with_reducible refine (keepsBut_clear (by decide) ..).2 ?_
    | with_reducible refine (keepsBut_at_ (by decide) ..).2 ?_
    | with_reducible refine (keepsBut_send (by decide) ..).2 ?_
    | with_reducible refine (keepsBut_answer (by decide) ..).2 ?_
    | with_reducible refine (keepsBut_updLink (by decide) ..).2 ?_
    | with_reducible refine keepsBut_forEach_of (fun _ _ => ?_) ?_
    | with_reducible refine keepsBut_foldl_of (fun _ _ => ?_) ?_
    | with_reducible refine keepsBut_ite_of ?_ ?_
    | with_reducible refine keepsBut_ite_fst_of ?_ ?_
    | extract_lets
    | split
    | with_reducible intro _
    | dsimp only
    | (dsimp +zetaDelta only; split)

theorem execBeaconNotConfirmed_frame (t : Nat) (n : Fin 4) (s : State) : answers (execBeaconNotConfirmed t n s) (keepsBut [.time, .links, .recorder] s) := by
  unfold execBeaconNotConfirmed
  repeat' first
    | with_reducible refine answers_next ?_
    | with_reducible refine answers_ite ?_ ?_
    | with_reducible exact keepsBut_refl _ _
    | with_reducible refine (keepsBut_stand (by decide) ..).2 ?_
    | with_reducible refine (keepsBut_at_ (by decide) ..).2 ?_
    | with_reducible refine (keepsBut_updLink (by decide) ..).2 ?_
    | with_reducible refine keepsBut_forEach_of (fun _ _ => ?_) ?_
    | with_reducible refine keepsBut_foldl_of (fun _ _ => ?_) ?_
    | with_reducible refine keepsBut_ite_of ?_ ?_
    | with_reducible refine keepsBut_ite_fst_of ?_ ?_
    | extract_lets
    | split
    | with_reducible intro _
    | dsimp only
    | (dsimp +zetaDelta only; split)

theorem execRadioPortReset_frame (t : Nat) (n : Fin 4) (s : State) : answers (execRadioPortReset t n s) (keepsBut [.time, .links, .recorder, .out] s) := by
  unfold execRadioPortReset
  repeat' first
    | with_reducible refine answers_next ?_
    | with_reducible refine answers_ite ?_ ?_
    | with_reducible exact keepsBut_refl _ _
    | with_reducible refine (keepsBut_stand (by decide) ..).2 ?_
    | with_reducible refine (keepsBut_at_ (by decide) ..).2 ?_
    | with_reducible refine (keepsBut_send (by decide) ..).2 ?_
    | with_reducible refine (keepsBut_updLink (by decide) ..).2 ?_
    | with_reducible refine keepsBut_forEach_of (fun _ _ => ?_) ?_
    | with_reducible refine keepsBut_foldl_of (fun _ _ => ?_) ?_
    | with_reducible refine keepsBut_ite_of ?_ ?_
    | with_reducible refine keepsBut_ite_fst_of ?_ ?_
    | extract_lets
    | split
    | with_reducible intro _
    | dsimp only
    | (dsimp +zetaDelta only; split)

theorem execRadioPortReady_frame (t : Nat) (n : Fin 4) (s : State) : answers (execRadioPortReady t n s) (keepsBut [.time, .links, .out] s) := by
  unfold execRadioPortReady
  repeat' first
    | with_reducible refine answers_next ?_
    | with_reducible refine answers_ite ?_ ?_
    | with_reducible exact keepsBut_refl _ _
    | with_reducible refine (keepsBut_configRadio (by decide) ..).2 ?_
    | with_reducible refine (keepsBut_at_ (by decide) ..).2 ?_
    | with_reducible refine (keepsBut_updLink (by decide) ..).2 ?_
    | with_reducible refine keepsBut_forEach_of (fun _ _ => ?_) ?_
    | with_reducible refine keepsBut_foldl_of (fun _ _ => ?_) ?_
    | with_reducible refine keepsBut_ite_of ?_ ?_
    | with_reducible refine keepsBut_ite_fst_of ?_ ?_
    | extract_lets
    | split
    | with_reducible intro _
    | dsimp only
    | (dsimp +zetaDelta only; split)

theorem execKeyActivation_frame (t : Nat) (n : Fin 4) (s : State) : answers (execKeyActivation t n s) (keepsBut [.time, .links] s) := by
  unfold execKeyActivation
  repeat' first
    | with_reducible refine answers_next ?_
    | with_reducible refine answers_ite ?_ ?_
    | with_reducible exact keepsBut_refl _ _
    | with_reducible refine (keepsBut_at_ (by decide) ..).2 ?_
    | with_reducible refine (keepsBut_updLink (by decide) ..).2 ?_
    | with_reducible refine keepsBut_forEach_of (fun _ _ => ?_) ?_
    | with_reducible refine keepsBut_foldl_of (fun _ _ => ?_) ?_
    | with_reducible refine keepsBut_ite_of ?_ ?_
    | with_reducible refine keepsBut_ite_fst_of ?_ ?_
    | extract_lets
    | split
    | with_reducible intro _
    | dsimp only
    | (dsimp +zetaDelta only; split)

theorem execJoinRequest_frame (string slot ts : Nat) (level : Int) (psdu : List Byte) (s : State) : answers (execJoinRequest string slot ts level psdu s) (keepsBut [.time, .links, .recorder] s) := by
  unfold execJoinRequest
  repeat' first
    | with_reducible refine answers_next ?_
    | with_reducible refine answers_ite ?_ ?_
    | with_reducible exact keepsBut_refl _ _
    | with_reducible refine (keepsBut_discardFrame (by decide) ..).2 ?_
    | with_reducible refine (keepsBut_raise (by decide) ..).2 ?_
    | with_reducible refine (keepsBut_at_ (by decide) ..).2 ?_
    | with_reducible refine (keepsBut_updLink (by decide) ..).2 ?_
    | with_reducible refine keepsBut_forEach_of (fun _ _ => ?_) ?_
    | with_reducible refine keepsBut_foldl_of (fun _ _ => ?_) ?_
    | with_reducible refine keepsBut_ite_of ?_ ?_
    | with_reducible refine keepsBut_ite_fst_of ?_ ?_
    | extract_lets
    | split
    | with_reducible intro _
    | dsimp only
    | (dsimp +zetaDelta only; split)

theorem execBulkDownSlot_frame (t : Nat) (n : Fin 4) (k : Fin 5) (s : State) : answers (execBulkDownSlot t n k s) (keepsBut [.time, .out] s) := by
  unfold execBulkDownSlot
  repeat' first
    | with_reducible refine answers_next ?_
    | with_reducible refine answers_ite ?_ ?_
    | with_reducible exact keepsBut_refl _ _
    | with_reducible refine (keepsBut_at_ (by decide) ..).2 ?_
    | with_reducible refine (keepsBut_send (by decide) ..).2 ?_
    | with_reducible refine keepsBut_forEach_of (fun _ _ => ?_) ?_
    | with_reducible refine keepsBut_foldl_of (fun _ _ => ?_) ?_
    | with_reducible refine keepsBut_ite_of ?_ ?_
    | with_reducible refine keepsBut_ite_fst_of ?_ ?_
    | extract_lets
    | split
    | with_reducible intro _
    | dsimp only
    | (dsimp +zetaDelta only; split)

theorem execOpenWireResultTimeout_frame (t : Nat) (n : Fin 4) (b : Fin 36) (s : State) : answers (execOpenWireResultTimeout t n b s) (keepsBut [.time, .forgs, .recorder] s) := by
  unfold execOpenWireResultTimeout
  repeat' first
    | with_reducible refine answers_next ?_
    | with_reducible refine answers_ite ?_ ?_
    | with_reducible exact keepsBut_refl _ _
    | with_reducible refine (keepsBut_testTimeout (by decide) ..).2 ?_
    | with_reducible refine (keepsBut_at_ (by decide) ..).2 ?_
    | with_reducible refine keepsBut_forEach_of (fun _ _ => ?_) ?_
    | with_reducible refine keepsBut_foldl_of (fun _ _ => ?_) ?_
    | with_reducible refine keepsBut_ite_of ?_ ?_
    | with_reducible refine keepsBut_ite_fst_of ?_ ?_
    | extract_lets
    | split
    | with_reducible intro _
    | dsimp only
    | (dsimp +zetaDelta only; split)

theorem execOpenWireRetry_frame (t : Nat) (n : Fin 4) (b : Fin 36) (s : State) : answers (execOpenWireRetry t n b s) (keepsBut [.time, .links, .tagCtr, .forgs] s) := by
  unfold execOpenWireRetry
  repeat' first
    | with_reducible refine answers_next ?_
    | with_reducible refine answers_ite ?_ ?_
    | with_reducible exact keepsBut_refl _ _
    | with_reducible refine (keepsBut_tryTest (by decide) ..).2 ?_
    | with_reducible refine (keepsBut_at_ (by decide) ..).2 ?_
    | with_reducible refine keepsBut_forEach_of (fun _ _ => ?_) ?_
    | with_reducible refine keepsBut_foldl_of (fun _ _ => ?_) ?_
    | with_reducible refine keepsBut_ite_of ?_ ?_
    | with_reducible refine keepsBut_ite_fst_of ?_ ?_
    | extract_lets
    | split
    | with_reducible intro _
    | dsimp only
    | (dsimp +zetaDelta only; split)

theorem execUplink_frame (m : RxMeta) (psdu : List Byte) (s : State) : answers (execUplink m psdu s) (keepsBut [.time, .links, .forgs, .surv, .recorder] s) := by
  unfold execUplink
  repeat' first
    | with_reducible refine answers_next ?_
    | with_reducible refine answers_ite ?_ ?_
    | with_reducible exact keepsBut_refl _ _
    | with_reducible refine (keepsBut_ackTag (by decide) ..).2 ?_
    | with_reducible refine (keepsBut_ackDown (by decide) ..).2 ?_
    | with_reducible refine (keepsBut_discardFrame (by decide) ..).2 ?_
    | with_reducible refine (keepsBut_stand (by decide) ..).2 ?_
    | with_reducible refine (keepsBut_at_ (by decide) ..).2 ?_
    | with_reducible refine (keepsBut_updForg (by decide) ..).2 ?_
    | with_reducible refine (keepsBut_updLink (by decide) ..).2 ?_
    | with_reducible refine keepsBut_forEach_of (fun _ _ => ?_) ?_
    | with_reducible refine keepsBut_foldl_of (fun _ _ => ?_) ?_
    | with_reducible refine keepsBut_ite_of ?_ ?_
    | with_reducible refine keepsBut_ite_fst_of ?_ ?_
    | extract_lets
    | split
    | with_reducible intro _
    | dsimp only
    | (dsimp +zetaDelta only; split)

theorem execBulkUp_frame (m : RxMeta) (psdu : List Byte) (s : State) : answers (execBulkUp m psdu s) (keepsBut [.time, .links, .tagCtr, .forgs, .recorder, .boot, .upd] s) := by
  unfold execBulkUp
  repeat' first
    | with_reducible refine answers_next ?_
    | with_reducible refine answers_ite ?_ ?_
    | with_reducible exact keepsBut_refl _ _
    | with_reducible refine (keepsBut_diagRecord (by decide) ..).2 ?_
    | with_reducible refine (keepsBut_owResult (by decide) ..).2 ?_
    | with_reducible refine (keepsBut_discardFrame (by decide) ..).2 ?_
    | with_reducible refine (keepsBut_countDiscard (by decide) ..).2 ?_
    | with_reducible refine (keepsBut_queueCmd (by decide) ..).2 ?_
    | with_reducible refine (keepsBut_raiseRound (by decide) ..).2 ?_
    | with_reducible refine (keepsBut_at_ (by decide) ..).2 ?_
    | with_reducible refine (keepsBut_updForg (by decide) ..).2 ?_
    | with_reducible refine keepsBut_forEach_of (fun _ _ => ?_) ?_
    | with_reducible refine keepsBut_foldl_of (fun _ _ => ?_) ?_
    | with_reducible refine keepsBut_ite_of ?_ ?_
    | with_reducible refine keepsBut_ite_fst_of ?_ ?_
    | extract_lets
    | split
    | with_reducible intro _
    | dsimp only
    | (dsimp +zetaDelta only; split)

theorem execBulkTransferTimeout_frame (t : Nat) (n : Fin 4) (b : Fin 36) (s : State) : answers (execBulkTransferTimeout t n b s) (keepsBut [.time, .links, .tagCtr, .forgs, .recorder] s) := by
  unfold execBulkTransferTimeout
  repeat' first
    | with_reducible refine answers_next ?_
    | with_reducible refine answers_ite ?_ ?_
    | with_reducible exact keepsBut_refl _ _
    | with_reducible refine (keepsBut_dropDown (by decide) ..).2 ?_
    | with_reducible refine (keepsBut_queueCmd (by decide) ..).2 ?_
    | with_reducible refine (keepsBut_raise (by decide) ..).2 ?_
    | with_reducible refine (keepsBut_at_ (by decide) ..).2 ?_
    | with_reducible refine (keepsBut_updForg (by decide) ..).2 ?_
    | with_reducible refine keepsBut_forEach_of (fun _ _ => ?_) ?_
    | with_reducible refine keepsBut_foldl_of (fun _ _ => ?_) ?_
    | with_reducible refine keepsBut_ite_of ?_ ?_
    | with_reducible refine keepsBut_ite_fst_of ?_ ?_
    | extract_lets
    | split
    | with_reducible intro _
    | dsimp only
    | (dsimp +zetaDelta only; split)

theorem execEstimatorUpdate_frame (t : Nat) (late : List Nat) (recomputed : Bool) (lost : List (Fin 4)) (s : State) : answers (execEstimatorUpdate t late recomputed lost s) (keepsBut [.time, .links, .tagCtr, .forgs, .cells, .est, .surv, .learned, .recorder, .mem, .pwr] s) := by
  unfold execEstimatorUpdate
  repeat' first
    | with_reducible refine answers_next ?_
    | with_reducible refine answers_ite ?_ ?_
    | with_reducible exact keepsBut_refl _ _
    | with_reducible refine (keepsBut_updateString (by decide) ..).2 ?_
    | with_reducible refine (keepsBut_reloadLearned (by decide) ..).2 ?_
    | with_reducible refine (keepsBut_stand (by decide) ..).2 ?_
    | with_reducible refine (keepsBut_raise (by decide) ..).2 ?_
    | with_reducible refine (keepsBut_at_ (by decide) ..).2 ?_
    | with_reducible refine (keepsBut_modMem (by decide) ..).2 ?_
    | with_reducible refine keepsBut_forEach_of (fun _ _ => ?_) ?_
    | with_reducible refine keepsBut_foldl_of (fun _ _ => ?_) ?_
    | with_reducible refine keepsBut_ite_of ?_ ?_
    | with_reducible refine keepsBut_ite_fst_of ?_ ?_
    | extract_lets
    | split
    | with_reducible intro _
    | dsimp only
    | (dsimp +zetaDelta only; split)

theorem execEstimatorOverrun_frame (t : Nat) (s : State) : answers (execEstimatorOverrun t s) (keepsBut [.time, .forgs, .cells, .est, .recorder] s) := by
  unfold execEstimatorOverrun
  repeat' first
    | with_reducible refine answers_next ?_
    | with_reducible refine answers_ite ?_ ?_
    | with_reducible exact keepsBut_refl _ _
    | with_reducible refine (keepsBut_missString (by decide) ..).2 ?_
    | with_reducible refine (keepsBut_stand (by decide) ..).2 ?_
    | with_reducible refine (keepsBut_at_ (by decide) ..).2 ?_
    | with_reducible refine keepsBut_forEach_of (fun _ _ => ?_) ?_
    | with_reducible refine keepsBut_foldl_of (fun _ _ => ?_) ?_
    | with_reducible refine keepsBut_ite_of ?_ ?_
    | with_reducible refine keepsBut_ite_fst_of ?_ ?_
    | extract_lets
    | split
    | with_reducible intro _
    | dsimp only
    | (dsimp +zetaDelta only; split)

theorem execRoundDieSensors_frame (t : Nat) (counts : List Nat) (s : State) : answers (execRoundDieSensors t counts s) (keepsBut [.time, .therm, .recorder] s) := by
  unfold execRoundDieSensors
  repeat' first
    | with_reducible refine answers_next ?_
    | with_reducible refine answers_ite ?_ ?_
    | with_reducible exact keepsBut_refl _ _
    | with_reducible refine (keepsBut_raise (by decide) ..).2 ?_
    | with_reducible refine (keepsBut_stand (by decide) ..).2 ?_
    | with_reducible refine (keepsBut_at_ (by decide) ..).2 ?_
    | with_reducible refine (keepsBut_modTherm (by decide) ..).2 ?_
    | with_reducible refine keepsBut_forEach_of (fun _ _ => ?_) ?_
    | with_reducible refine keepsBut_foldl_of (fun _ _ => ?_) ?_
    | with_reducible refine keepsBut_ite_of ?_ ?_
    | with_reducible refine keepsBut_ite_fst_of ?_ ?_
    | extract_lets
    | split
    | with_reducible intro _
    | dsimp only
    | (dsimp +zetaDelta only; split)

theorem execLaneSample_frame (t : Nat) (n : Fin 4) (ch : List Density) (chk : LaneCheck) (s : State) : answers (execLaneSample t n ch chk s) (keepsBut [.time, .est, .surv, .reg, .guard, .recorder, .pwr] s) := by
  unfold execLaneSample
  repeat' first
    | with_reducible refine answers_next ?_
    | with_reducible refine answers_ite ?_ ?_
    | with_reducible exact keepsBut_refl _ _
    | with_reducible refine (keepsBut_endWork (by decide) ..).2 ?_
    | with_reducible refine (keepsBut_noteMeasures (by decide) ..).2 ?_
    | with_reducible refine (keepsBut_laneFault (by decide) ..).2 ?_
    | with_reducible refine (keepsBut_loopTick (by decide) ..).2 ?_
    | with_reducible refine (keepsBut_fireUnit (by decide) ..).2 ?_
    | with_reducible refine (keepsBut_at_ (by decide) ..).2 ?_
    | with_reducible refine keepsBut_forEach_of (fun _ _ => ?_) ?_
    | with_reducible refine keepsBut_foldl_of (fun _ _ => ?_) ?_
    | with_reducible refine keepsBut_ite_of ?_ ?_
    | with_reducible refine keepsBut_ite_fst_of ?_ ?_
    | extract_lets
    | split
    | with_reducible intro _
    | dsimp only
    | (dsimp +zetaDelta only; split)

theorem execMeasurementLostStop_frame (t : Nat) (n : Fin 4) (s : State) : answers (execMeasurementLostStop t n s) (keepsBut [.time, .est, .reg, .disp, .guard, .recorder] s) := by
  unfold execMeasurementLostStop
  repeat' first
    | with_reducible refine answers_next ?_
    | with_reducible refine answers_ite ?_ ?_
    | with_reducible exact keepsBut_refl _ _
    | with_reducible refine (keepsBut_stopDisconnects (by decide) ..).2 ?_
    | with_reducible refine (keepsBut_loopOff (by decide) ..).2 ?_
    | with_reducible refine (keepsBut_stand (by decide) ..).2 ?_
    | with_reducible refine (keepsBut_at_ (by decide) ..).2 ?_
    | with_reducible refine (keepsBut_updLoop (by decide) ..).2 ?_
    | with_reducible refine keepsBut_forEach_of (fun _ _ => ?_) ?_
    | with_reducible refine keepsBut_foldl_of (fun _ _ => ?_) ?_
    | with_reducible refine keepsBut_ite_of ?_ ?_
    | with_reducible refine keepsBut_ite_fst_of ?_ ?_
    | extract_lets
    | split
    | with_reducible intro _
    | dsimp only
    | (dsimp +zetaDelta only; split)

theorem execOutputSaturated_frame (t : Nat) (n : Fin 4) (s : State) : answers (execOutputSaturated t n s) (keepsBut [.time, .recorder] s) := by
  unfold execOutputSaturated
  repeat' first
    | with_reducible refine answers_next ?_
    | with_reducible refine answers_ite ?_ ?_
    | with_reducible exact keepsBut_refl _ _
    | with_reducible refine (keepsBut_stand (by decide) ..).2 ?_
    | with_reducible refine (keepsBut_at_ (by decide) ..).2 ?_
    | with_reducible refine keepsBut_forEach_of (fun _ _ => ?_) ?_
    | with_reducible refine keepsBut_foldl_of (fun _ _ => ?_) ?_
    | with_reducible refine keepsBut_ite_of ?_ ?_
    | with_reducible refine keepsBut_ite_fst_of ?_ ?_
    | extract_lets
    | split
    | with_reducible intro _
    | dsimp only
    | (dsimp +zetaDelta only; split)

theorem execPwmTurningPoint_frame (t : Nat) (n : Fin 4) (s : State) : answers (execPwmTurningPoint t n s) (keepsBut [.time, .reg, .out] s) := by
  unfold execPwmTurningPoint
  repeat' first
    | with_reducible refine answers_next ?_
    | with_reducible refine answers_ite ?_ ?_
    | with_reducible exact keepsBut_refl _ _
    | with_reducible refine (keepsBut_at_ (by decide) ..).2 ?_
    | with_reducible refine (keepsBut_send (by decide) ..).2 ?_
    | with_reducible refine (keepsBut_updLoop (by decide) ..).2 ?_
    | with_reducible refine keepsBut_forEach_of (fun _ _ => ?_) ?_
    | with_reducible refine keepsBut_foldl_of (fun _ _ => ?_) ?_
    | with_reducible refine keepsBut_ite_of ?_ ?_
    | with_reducible refine keepsBut_ite_fst_of ?_ ?_
    | extract_lets
    | split
    | with_reducible intro _
    | dsimp only
    | (dsimp +zetaDelta only; split)

theorem execLaneTakeover_frame (t : Nat) (s : State) : answers (execLaneTakeover t s) (keepsBut [.time, .est, .reg, .disp, .guard, .recorder, .bist] s) := by
  unfold execLaneTakeover
  repeat' first
    | with_reducible refine answers_next ?_
    | with_reducible refine answers_ite ?_ ?_
    | with_reducible exact keepsBut_refl _ _
    | with_reducible refine (keepsBut_stopByLane (by decide) ..).2 ?_
    | with_reducible refine (keepsBut_failLane (by decide) ..).2 ?_
    | with_reducible refine (keepsBut_sliceOutcome (by decide) ..).2 ?_
    | with_reducible refine (keepsBut_stand (by decide) ..).2 ?_
    | with_reducible refine (keepsBut_raise (by decide) ..).2 ?_
    | with_reducible refine (keepsBut_at_ (by decide) ..).2 ?_
    | with_reducible refine (keepsBut_updLane (by decide) ..).2 ?_
    | with_reducible refine (keepsBut_updLoop (by decide) ..).2 ?_
    | with_reducible refine (keepsBut_modReg (by decide) ..).2 ?_
    | with_reducible refine keepsBut_forEach_of (fun _ _ => ?_) ?_
    | with_reducible refine keepsBut_foldl_of (fun _ _ => ?_) ?_
    | with_reducible refine keepsBut_ite_of ?_ ?_
    | with_reducible refine keepsBut_ite_fst_of ?_ ?_
    | extract_lets
    | split
    | with_reducible intro _
    | dsimp only
    | (dsimp +zetaDelta only; split)

theorem execTickBoundary_frame (t : Nat) (ana : Density) (s : State) : answers (execTickBoundary t ana s) (keepsBut [.time, .est, .reg, .disp, .guard, .recorder] s) := by
  unfold execTickBoundary
  repeat' first
    | with_reducible refine answers_next ?_
    | with_reducible refine answers_ite ?_ ?_
    | with_reducible exact keepsBut_refl _ _
    | with_reducible refine (keepsBut_because (by decide) ..).2 ?_
    | with_reducible refine (keepsBut_fireOutputs (by decide) ..).2 ?_
    | with_reducible refine (keepsBut_stopDue (by decide) ..).2 ?_
    | with_reducible refine (keepsBut_swapTables (by decide) ..).2 ?_
    | with_reducible refine (keepsBut_anaTick (by decide) ..).2 ?_
    | with_reducible refine (keepsBut_fireUnit (by decide) ..).2 ?_
    | with_reducible refine (keepsBut_at_ (by decide) ..).2 ?_
    | with_reducible refine (keepsBut_updLoop (by decide) ..).2 ?_
    | with_reducible refine keepsBut_forEach_of (fun _ _ => ?_) ?_
    | with_reducible refine keepsBut_foldl_of (fun _ _ => ?_) ?_
    | with_reducible refine keepsBut_ite_of ?_ ?_
    | with_reducible refine keepsBut_ite_fst_of ?_ ?_
    | extract_lets
    | split
    | with_reducible intro _
    | dsimp only
    | (dsimp +zetaDelta only; split)

theorem execManualDuty_frame (t : Nat) (n : Fin 4) (duty : BitVec 16) (s : State) : answers (execManualDuty t n duty s) (keepsBut [.time, .reg, .recorder] s) := by
  unfold execManualDuty
  repeat' first
    | with_reducible refine answers_next ?_
    | with_reducible refine answers_ite ?_ ?_
    | with_reducible exact keepsBut_refl _ _
    | with_reducible refine (keepsBut_cmdManualDuty (by decide) ..).2 ?_
    | with_reducible refine (keepsBut_at_ (by decide) ..).2 ?_
    | with_reducible refine keepsBut_forEach_of (fun _ _ => ?_) ?_
    | with_reducible refine keepsBut_foldl_of (fun _ _ => ?_) ?_
    | with_reducible refine keepsBut_ite_of ?_ ?_
    | with_reducible refine keepsBut_ite_fst_of ?_ ?_
    | extract_lets
    | split
    | with_reducible intro _
    | dsimp only
    | (dsimp +zetaDelta only; split)

theorem execAutomatic_frame (t : Nat) (n : Fin 4) (s : State) : answers (execAutomatic t n s) (keepsBut [.time, .reg, .recorder] s) := by
  unfold execAutomatic
  repeat' first
    | with_reducible refine answers_next ?_
    | with_reducible refine answers_ite ?_ ?_
    | with_reducible exact keepsBut_refl _ _
    | with_reducible refine (keepsBut_cmdAutomatic (by decide) ..).2 ?_
    | with_reducible refine (keepsBut_at_ (by decide) ..).2 ?_
    | with_reducible refine keepsBut_forEach_of (fun _ _ => ?_) ?_
    | with_reducible refine keepsBut_foldl_of (fun _ _ => ?_) ?_
    | with_reducible refine keepsBut_ite_of ?_ ?_
    | with_reducible refine keepsBut_ite_fst_of ?_ ?_
    | extract_lets
    | split
    | with_reducible intro _
    | dsimp only
    | (dsimp +zetaDelta only; split)

theorem execBurstArm_frame (t : Nat) (s : State) : answers (execBurstArm t s) (keepsBut [.time, .links, .tagCtr, .surv] s) := by
  unfold execBurstArm
  repeat' first
    | with_reducible refine answers_next ?_
    | with_reducible refine answers_ite ?_ ?_
    | with_reducible exact keepsBut_refl _ _
    | with_reducible refine (keepsBut_queueCmd (by decide) ..).2 ?_
    | with_reducible refine (keepsBut_at_ (by decide) ..).2 ?_
    | with_reducible refine (keepsBut_modSurv (by decide) ..).2 ?_
    | with_reducible refine keepsBut_forEach_of (fun _ _ => ?_) ?_
    | with_reducible refine keepsBut_foldl_of (fun _ _ => ?_) ?_
    | with_reducible refine keepsBut_ite_of ?_ ?_
    | with_reducible refine keepsBut_ite_fst_of ?_ ?_
    | extract_lets
    | split
    | with_reducible intro _
    | dsimp only
    | (dsimp +zetaDelta only; split)

theorem execBurstCurrentSample_frame (t : Nat) (a b : Density) (s : State) : answers (execBurstCurrentSample t a b s) (keepsBut [.time, .surv] s) := by
  unfold execBurstCurrentSample
  repeat' first
    | with_reducible refine answers_next ?_
    | with_reducible refine answers_ite ?_ ?_
    | with_reducible exact keepsBut_refl _ _
    | with_reducible refine (keepsBut_at_ (by decide) ..).2 ?_
    | with_reducible refine (keepsBut_modSurv (by decide) ..).2 ?_
    | with_reducible refine keepsBut_forEach_of (fun _ _ => ?_) ?_
    | with_reducible refine keepsBut_foldl_of (fun _ _ => ?_) ?_
    | with_reducible refine keepsBut_ite_of ?_ ?_
    | with_reducible refine keepsBut_ite_fst_of ?_ ?_
    | extract_lets
    | split
    | with_reducible intro _
    | dsimp only
    | (dsimp +zetaDelta only; split)

theorem execImpedanceSurveyAbort_frame (t : Nat) (s : State) : answers (execImpedanceSurveyAbort t s) (keepsBut [.time, .links, .tagCtr, .forgs, .surv, .learned, .recorder] s) := by
  unfold execImpedanceSurveyAbort
  repeat' first
    | with_reducible refine answers_next ?_
    | with_reducible refine answers_ite ?_ ?_
    | with_reducible exact keepsBut_refl _ _
    | with_reducible refine (keepsBut_abortImp (by decide) ..).2 ?_
    | with_reducible refine (keepsBut_at_ (by decide) ..).2 ?_
    | with_reducible refine keepsBut_forEach_of (fun _ _ => ?_) ?_
    | with_reducible refine keepsBut_foldl_of (fun _ _ => ?_) ?_
    | with_reducible refine keepsBut_ite_of ?_ ?_
    | with_reducible refine keepsBut_ite_fst_of ?_ ?_
    | extract_lets
    | split
    | with_reducible intro _
    | dsimp only
    | (dsimp +zetaDelta only; split)

theorem execBurstResultTimeout_frame (t : Nat) (n : Fin 4) (b : Fin 36) (s : State) : answers (execBurstResultTimeout t n b s) (keepsBut [.time, .forgs, .recorder] s) := by
  unfold execBurstResultTimeout
  repeat' first
    | with_reducible refine answers_next ?_
    | with_reducible refine answers_ite ?_ ?_
    | with_reducible exact keepsBut_refl _ _
    | with_reducible refine (keepsBut_raise (by decide) ..).2 ?_
    | with_reducible refine (keepsBut_at_ (by decide) ..).2 ?_
    | with_reducible refine (keepsBut_updForg (by decide) ..).2 ?_
    | with_reducible refine keepsBut_forEach_of (fun _ _ => ?_) ?_
    | with_reducible refine keepsBut_foldl_of (fun _ _ => ?_) ?_
    | with_reducible refine keepsBut_ite_of ?_ ?_
    | with_reducible refine keepsBut_ite_fst_of ?_ ?_
    | extract_lets
    | split
    | with_reducible intro _
    | dsimp only
    | (dsimp +zetaDelta only; split)

theorem execSurveyBins_frame (t : Nat) (s : State) : answers (execSurveyBins t s) (keepsBut [.time, .links, .tagCtr, .forgs, .surv, .learned, .recorder] s) := by
  unfold execSurveyBins
  repeat' first
    | with_reducible refine answers_next ?_
    | with_reducible refine answers_ite ?_ ?_
    | with_reducible exact keepsBut_refl _ _
    | with_reducible refine (keepsBut_abortImp (by decide) ..).2 ?_
    | with_reducible refine (keepsBut_at_ (by decide) ..).2 ?_
    | with_reducible refine (keepsBut_modSurv (by decide) ..).2 ?_
    | with_reducible refine keepsBut_forEach_of (fun _ _ => ?_) ?_
    | with_reducible refine keepsBut_foldl_of (fun _ _ => ?_) ?_
    | with_reducible refine keepsBut_ite_of ?_ ?_
    | with_reducible refine keepsBut_ite_fst_of ?_ ?_
    | extract_lets
    | split
    | with_reducible intro _
    | dsimp only
    | (dsimp +zetaDelta only; split)

theorem execImpedanceResult_frame (t : Nat) (s : State) : answers (execImpedanceResult t s) (keepsBut [.time, .surv] s) := by
  unfold execImpedanceResult
  repeat' first
    | with_reducible refine answers_next ?_
    | with_reducible refine answers_ite ?_ ?_
    | with_reducible exact keepsBut_refl _ _
    | with_reducible refine (keepsBut_at_ (by decide) ..).2 ?_
    | with_reducible refine (keepsBut_modSurv (by decide) ..).2 ?_
    | with_reducible refine keepsBut_forEach_of (fun _ _ => ?_) ?_
    | with_reducible refine keepsBut_foldl_of (fun _ _ => ?_) ?_
    | with_reducible refine keepsBut_ite_of ?_ ?_
    | with_reducible refine keepsBut_ite_fst_of ?_ ?_
    | extract_lets
    | split
    | with_reducible intro _
    | dsimp only
    | (dsimp +zetaDelta only; split)

theorem execCapacitySurveyAbort_frame (t : Nat) (s : State) : answers (execCapacitySurveyAbort t s) (keepsBut [.time, .est, .surv, .learned, .recorder] s) := by
  unfold execCapacitySurveyAbort
  repeat' first
    | with_reducible refine answers_next ?_
    | with_reducible refine answers_ite ?_ ?_
    | with_reducible exact keepsBut_refl _ _
    | with_reducible refine (keepsBut_abortCap (by decide) ..).2 ?_
    | with_reducible refine (keepsBut_at_ (by decide) ..).2 ?_
    | with_reducible refine keepsBut_forEach_of (fun _ _ => ?_) ?_
    | with_reducible refine keepsBut_foldl_of (fun _ _ => ?_) ?_
    | with_reducible refine keepsBut_ite_of ?_ ?_
    | with_reducible refine keepsBut_ite_fst_of ?_ ?_
    | extract_lets
    | split
    | with_reducible intro _
    | dsimp only
    | (dsimp +zetaDelta only; split)

theorem execConnectString_frame (t : Nat) (n : Fin 4) (s : State) : answers (execConnectString t n s) (keepsBut [.time, .disp, .recorder] s) := by
  unfold execConnectString
  repeat' first
    | with_reducible refine answers_next ?_
    | with_reducible refine answers_ite ?_ ?_
    | with_reducible exact keepsBut_refl _ _
    | with_reducible refine (keepsBut_cmdConnect (by decide) ..).2 ?_
    | with_reducible refine (keepsBut_at_ (by decide) ..).2 ?_
    | with_reducible refine keepsBut_forEach_of (fun _ _ => ?_) ?_
    | with_reducible refine keepsBut_foldl_of (fun _ _ => ?_) ?_
    | with_reducible refine keepsBut_ite_of ?_ ?_
    | with_reducible refine keepsBut_ite_fst_of ?_ ?_
    | extract_lets
    | split
    | with_reducible intro _
    | dsimp only
    | (dsimp +zetaDelta only; split)

theorem execDisconnectString_frame (t : Nat) (n : Fin 4) (s : State) : answers (execDisconnectString t n s) (keepsBut [.time, .disp] s) := by
  unfold execDisconnectString
  repeat' first
    | with_reducible refine answers_next ?_
    | with_reducible refine answers_ite ?_ ?_
    | with_reducible exact keepsBut_refl _ _
    | with_reducible refine (keepsBut_cmdDisconnect (by decide) ..).2 ?_
    | with_reducible refine (keepsBut_at_ (by decide) ..).2 ?_
    | with_reducible refine keepsBut_forEach_of (fun _ _ => ?_) ?_
    | with_reducible refine keepsBut_foldl_of (fun _ _ => ?_) ?_
    | with_reducible refine keepsBut_ite_of ?_ ?_
    | with_reducible refine keepsBut_ite_fst_of ?_ ?_
    | extract_lets
    | split
    | with_reducible intro _
    | dsimp only
    | (dsimp +zetaDelta only; split)

theorem execClearFailedConnection_frame (t : Nat) (n : Fin 4) (s : State) : answers (execClearFailedConnection t n s) (keepsBut [.time, .est, .disp, .guard, .recorder] s) := by
  unfold execClearFailedConnection
  repeat' first
    | with_reducible refine answers_next ?_
    | with_reducible refine answers_ite ?_ ?_
    | with_reducible exact keepsBut_refl _ _
    | with_reducible refine (keepsBut_cmdClearFailed (by decide) ..).2 ?_
    | with_reducible refine (keepsBut_at_ (by decide) ..).2 ?_
    | with_reducible refine keepsBut_forEach_of (fun _ _ => ?_) ?_
    | with_reducible refine keepsBut_foldl_of (fun _ _ => ?_) ?_
    | with_reducible refine keepsBut_ite_of ?_ ?_
    | with_reducible refine keepsBut_ite_fst_of ?_ ?_
    | extract_lets
    | split
    | with_reducible intro _
    | dsimp only
    | (dsimp +zetaDelta only; split)

theorem execConnectionTimeout_frame (t : Nat) (n : Fin 4) (s : State) : answers (execConnectionTimeout t n s) (keepsBut [.time, .disp, .recorder] s) := by
  unfold execConnectionTimeout
  repeat' first
    | with_reducible refine answers_next ?_
    | with_reducible refine answers_ite ?_ ?_
    | with_reducible exact keepsBut_refl _ _
    | with_reducible refine (keepsBut_failConnection (by decide) ..).2 ?_
    | with_reducible refine (keepsBut_fbFail (by decide) ..).2 ?_
    | with_reducible refine (keepsBut_at_ (by decide) ..).2 ?_
    | with_reducible refine (keepsBut_updDisp (by decide) ..).2 ?_
    | with_reducible refine keepsBut_forEach_of (fun _ _ => ?_) ?_
    | with_reducible refine keepsBut_foldl_of (fun _ _ => ?_) ?_
    | with_reducible refine keepsBut_ite_of ?_ ?_
    | with_reducible refine keepsBut_ite_fst_of ?_ ?_
    | extract_lets
    | split
    | with_reducible intro _
    | dsimp only
    | (dsimp +zetaDelta only; split)

theorem execDisconnectionTmax_frame (t : Nat) (n : Fin 4) (s : State) : answers (execDisconnectionTmax t n s) (keepsBut [.time, .disp, .recorder] s) := by
  unfold execDisconnectionTmax
  repeat' first
    | with_reducible refine answers_next ?_
    | with_reducible refine answers_ite ?_ ?_
    | with_reducible exact keepsBut_refl _ _
    | with_reducible refine (keepsBut_raise (by decide) ..).2 ?_
    | with_reducible refine (keepsBut_at_ (by decide) ..).2 ?_
    | with_reducible refine (keepsBut_updDisp (by decide) ..).2 ?_
    | with_reducible refine keepsBut_forEach_of (fun _ _ => ?_) ?_
    | with_reducible refine keepsBut_foldl_of (fun _ _ => ?_) ?_
    | with_reducible refine keepsBut_ite_of ?_ ?_
    | with_reducible refine keepsBut_ite_fst_of ?_ ?_
    | extract_lets
    | split
    | with_reducible intro _
    | dsimp only
    | (dsimp +zetaDelta only; split)

theorem execLossHoldExpiry_frame (t : Nat) (s : State) : answers (execLossHoldExpiry t s) (keepsBut [.time, .disp] s) := by
  unfold execLossHoldExpiry
  repeat' first
    | with_reducible refine answers_next ?_
    | with_reducible refine answers_ite ?_ ?_
    | with_reducible exact keepsBut_refl _ _
    | with_reducible refine (keepsBut_at_ (by decide) ..).2 ?_
    | with_reducible refine (keepsBut_modDisp (by decide) ..).2 ?_
    | with_reducible refine keepsBut_forEach_of (fun _ _ => ?_) ?_
    | with_reducible refine keepsBut_foldl_of (fun _ _ => ?_) ?_
    | with_reducible refine keepsBut_ite_of ?_ ?_
    | with_reducible refine keepsBut_ite_fst_of ?_ ?_
    | extract_lets
    | split
    | with_reducible intro _
    | dsimp only
    | (dsimp +zetaDelta only; split)

theorem execSourceRevert_frame (t : Nat) (s : State) : answers (execSourceRevert t s) (keepsBut [.time, .disp, .recorder] s) := by
  unfold execSourceRevert
  repeat' first
    | with_reducible refine answers_next ?_
    | with_reducible refine answers_ite ?_ ?_
    | with_reducible exact keepsBut_refl _ _
    | with_reducible refine (keepsBut_raise (by decide) ..).2 ?_
    | with_reducible refine (keepsBut_at_ (by decide) ..).2 ?_
    | with_reducible refine (keepsBut_because (by decide) ..).2 ?_
    | with_reducible refine (keepsBut_modDisp (by decide) ..).2 ?_
    | with_reducible refine keepsBut_forEach_of (fun _ _ => ?_) ?_
    | with_reducible refine keepsBut_foldl_of (fun _ _ => ?_) ?_
    | with_reducible refine keepsBut_ite_of ?_ ?_
    | with_reducible refine keepsBut_ite_fst_of ?_ ?_
    | extract_lets
    | split
    | with_reducible intro _
    | dsimp only
    | (dsimp +zetaDelta only; split)

theorem execAllowanceTimeout_frame (t : Nat) (s : State) : answers (execAllowanceTimeout t s) (keepsBut [.time, .disp, .recorder] s) := by
  unfold execAllowanceTimeout
  repeat' first
    | with_reducible refine answers_next ?_
    | with_reducible refine answers_ite ?_ ?_
    | with_reducible exact keepsBut_refl _ _
    | with_reducible refine (keepsBut_stand (by decide) ..).2 ?_
    | with_reducible refine (keepsBut_at_ (by decide) ..).2 ?_
    | with_reducible refine (keepsBut_modDisp (by decide) ..).2 ?_
    | with_reducible refine keepsBut_forEach_of (fun _ _ => ?_) ?_
    | with_reducible refine keepsBut_foldl_of (fun _ _ => ?_) ?_
    | with_reducible refine keepsBut_ite_of ?_ ?_
    | with_reducible refine keepsBut_ite_fst_of ?_ ?_
    | extract_lets
    | split
    | with_reducible intro _
    | dsimp only
    | (dsimp +zetaDelta only; split)

theorem execRestWindowExpiry_frame (t : Nat) (n : Fin 4) (s : State) : answers (execRestWindowExpiry t n s) (keepsBut [.time, .disp, .recorder] s) := by
  unfold execRestWindowExpiry
  repeat' first
    | with_reducible refine answers_next ?_
    | with_reducible refine answers_ite ?_ ?_
    | with_reducible exact keepsBut_refl _ _
    | with_reducible refine (keepsBut_closeRest (by decide) ..).2 ?_
    | with_reducible refine (keepsBut_at_ (by decide) ..).2 ?_
    | with_reducible refine keepsBut_forEach_of (fun _ _ => ?_) ?_
    | with_reducible refine keepsBut_foldl_of (fun _ _ => ?_) ?_
    | with_reducible refine keepsBut_ite_of ?_ ?_
    | with_reducible refine keepsBut_ite_fst_of ?_ ?_
    | extract_lets
    | split
    | with_reducible intro _
    | dsimp only
    | (dsimp +zetaDelta only; split)

theorem execHostSetpoint_frame (t : Nat) (w : Int) (s : State) : answers (execHostSetpoint t w s) (keepsBut [.time, .disp, .recorder] s) := by
  unfold execHostSetpoint
  repeat' first
    | with_reducible refine answers_next ?_
    | with_reducible refine answers_ite ?_ ?_
    | with_reducible exact keepsBut_refl _ _
    | with_reducible refine (keepsBut_holdHost (by decide) ..).2 ?_
    | with_reducible refine (keepsBut_at_ (by decide) ..).2 ?_
    | with_reducible refine keepsBut_forEach_of (fun _ _ => ?_) ?_
    | with_reducible refine keepsBut_foldl_of (fun _ _ => ?_) ?_
    | with_reducible refine keepsBut_ite_of ?_ ?_
    | with_reducible refine keepsBut_ite_fst_of ?_ ?_
    | extract_lets
    | split
    | with_reducible intro _
    | dsimp only
    | (dsimp +zetaDelta only; split)

theorem execHostAllowance_frame (t : Nat) (chg dis : BitVec 16) (s : State) : answers (execHostAllowance t chg dis s) (keepsBut [.time, .disp] s) := by
  unfold execHostAllowance
  repeat' first
    | with_reducible refine answers_next ?_
    | with_reducible refine answers_ite ?_ ?_
    | with_reducible exact keepsBut_refl _ _
    | with_reducible refine (keepsBut_holdAllowHost (by decide) ..).2 ?_
    | with_reducible refine (keepsBut_at_ (by decide) ..).2 ?_
    | with_reducible refine keepsBut_forEach_of (fun _ _ => ?_) ?_
    | with_reducible refine keepsBut_foldl_of (fun _ _ => ?_) ?_
    | with_reducible refine keepsBut_ite_of ?_ ?_
    | with_reducible refine keepsBut_ite_fst_of ?_ ?_
    | extract_lets
    | split
    | with_reducible intro _
    | dsimp only
    | (dsimp +zetaDelta only; split)

theorem execSelectSetpointSource_frame (t : Nat) (backup : Bool) (s : State) : answers (execSelectSetpointSource t backup s) (keepsBut [.time, .disp] s) := by
  unfold execSelectSetpointSource
  repeat' first
    | with_reducible refine answers_next ?_
    | with_reducible refine answers_ite ?_ ?_
    | with_reducible exact keepsBut_refl _ _
    | with_reducible refine (keepsBut_cmdSelect (by decide) ..).2 ?_
    | with_reducible refine (keepsBut_at_ (by decide) ..).2 ?_
    | with_reducible refine keepsBut_forEach_of (fun _ _ => ?_) ?_
    | with_reducible refine keepsBut_foldl_of (fun _ _ => ?_) ?_
    | with_reducible refine keepsBut_ite_of ?_ ?_
    | with_reducible refine keepsBut_ite_fst_of ?_ ?_
    | extract_lets
    | split
    | with_reducible intro _
    | dsimp only
    | (dsimp +zetaDelta only; split)

theorem execCloseRestWindow_frame (t : Nat) (n : Fin 4) (s : State) : answers (execCloseRestWindow t n s) (keepsBut [.time, .disp, .recorder] s) := by
  unfold execCloseRestWindow
  repeat' first
    | with_reducible refine answers_next ?_
    | with_reducible refine answers_ite ?_ ?_
    | with_reducible exact keepsBut_refl _ _
    | with_reducible refine (keepsBut_cmdCloseRest (by decide) ..).2 ?_
    | with_reducible refine (keepsBut_at_ (by decide) ..).2 ?_
    | with_reducible refine keepsBut_forEach_of (fun _ _ => ?_) ?_
    | with_reducible refine keepsBut_foldl_of (fun _ _ => ?_) ?_
    | with_reducible refine keepsBut_ite_of ?_ ?_
    | with_reducible refine keepsBut_ite_fst_of ?_ ?_
    | extract_lets
    | split
    | with_reducible intro _
    | dsimp only
    | (dsimp +zetaDelta only; split)

theorem execStartImpedanceSurvey_frame (t : Nat) (n : Fin 4) (s : State) : answers (execStartImpedanceSurvey t n s) (keepsBut [.time, .surv, .disp, .recorder] s) := by
  unfold execStartImpedanceSurvey
  repeat' first
    | with_reducible refine answers_next ?_
    | with_reducible refine answers_ite ?_ ?_
    | with_reducible exact keepsBut_refl _ _
    | with_reducible refine (keepsBut_cmdStartImpEng (by decide) ..).2 ?_
    | with_reducible refine (keepsBut_at_ (by decide) ..).2 ?_
    | with_reducible refine keepsBut_forEach_of (fun _ _ => ?_) ?_
    | with_reducible refine keepsBut_foldl_of (fun _ _ => ?_) ?_
    | with_reducible refine keepsBut_ite_of ?_ ?_
    | with_reducible refine keepsBut_ite_fst_of ?_ ?_
    | extract_lets
    | split
    | with_reducible intro _
    | dsimp only
    | (dsimp +zetaDelta only; split)

theorem execAbortImpedanceSurvey_frame (t : Nat) (s : State) : answers (execAbortImpedanceSurvey t s) (keepsBut [.time, .links, .tagCtr, .forgs, .surv, .learned, .recorder] s) := by
  unfold execAbortImpedanceSurvey
  repeat' first
    | with_reducible refine answers_next ?_
    | with_reducible refine answers_ite ?_ ?_
    | with_reducible exact keepsBut_refl _ _
    | with_reducible refine (keepsBut_cmdAbortImp (by decide) ..).2 ?_
    | with_reducible refine (keepsBut_at_ (by decide) ..).2 ?_
    | with_reducible refine keepsBut_forEach_of (fun _ _ => ?_) ?_
    | with_reducible refine keepsBut_foldl_of (fun _ _ => ?_) ?_
    | with_reducible refine keepsBut_ite_of ?_ ?_
    | with_reducible refine keepsBut_ite_fst_of ?_ ?_
    | extract_lets
    | split
    | with_reducible intro _
    | dsimp only
    | (dsimp +zetaDelta only; split)

theorem execStartCapacitySurvey_frame (t : Nat) (n : Fin 4) (s : State) : answers (execStartCapacitySurvey t n s) (keepsBut [.time, .est, .surv, .disp, .recorder] s) := by
  unfold execStartCapacitySurvey
  repeat' first
    | with_reducible refine answers_next ?_
    | with_reducible refine answers_ite ?_ ?_
    | with_reducible exact keepsBut_refl _ _
    | with_reducible refine (keepsBut_cmdStartCapEng (by decide) ..).2 ?_
    | with_reducible refine (keepsBut_at_ (by decide) ..).2 ?_
    | with_reducible refine keepsBut_forEach_of (fun _ _ => ?_) ?_
    | with_reducible refine keepsBut_foldl_of (fun _ _ => ?_) ?_
    | with_reducible refine keepsBut_ite_of ?_ ?_
    | with_reducible refine keepsBut_ite_fst_of ?_ ?_
    | extract_lets
    | split
    | with_reducible intro _
    | dsimp only
    | (dsimp +zetaDelta only; split)

theorem execAbortCapacitySurvey_frame (t : Nat) (s : State) : answers (execAbortCapacitySurvey t s) (keepsBut [.time, .est, .surv, .learned, .recorder] s) := by
  unfold execAbortCapacitySurvey
  repeat' first
    | with_reducible refine answers_next ?_
    | with_reducible refine answers_ite ?_ ?_
    | with_reducible exact keepsBut_refl _ _
    | with_reducible refine (keepsBut_cmdAbortCap (by decide) ..).2 ?_
    | with_reducible refine (keepsBut_at_ (by decide) ..).2 ?_
    | with_reducible refine keepsBut_forEach_of (fun _ _ => ?_) ?_
    | with_reducible refine keepsBut_foldl_of (fun _ _ => ?_) ?_
    | with_reducible refine keepsBut_ite_of ?_ ?_
    | with_reducible refine keepsBut_ite_fst_of ?_ ?_
    | extract_lets
    | split
    | with_reducible intro _
    | dsimp only
    | (dsimp +zetaDelta only; split)

theorem execWriteLearnedValues_frame (t : Nat) (strings : BitVec 4) (s : State) : answers (execWriteLearnedValues t strings s) (keepsBut [.time, .surv, .learned, .recorder] s) := by
  unfold execWriteLearnedValues
  repeat' first
    | with_reducible refine answers_next ?_
    | with_reducible refine answers_ite ?_ ?_
    | with_reducible exact keepsBut_refl _ _
    | with_reducible refine (keepsBut_cmdWriteLearned (by decide) ..).2 ?_
    | with_reducible refine (keepsBut_at_ (by decide) ..).2 ?_
    | with_reducible refine keepsBut_forEach_of (fun _ _ => ?_) ?_
    | with_reducible refine keepsBut_foldl_of (fun _ _ => ?_) ?_
    | with_reducible refine keepsBut_ite_of ?_ ?_
    | with_reducible refine keepsBut_ite_fst_of ?_ ?_
    | extract_lets
    | split
    | with_reducible intro _
    | dsimp only
    | (dsimp +zetaDelta only; split)

theorem keepsBut_formValues {ps : List Piece} (h : [Piece.guard] ⊆ ps) (r : State) (ch : List GuardDens) (s : State) :
    keepsBut ps r (formValues ch s) ↔ keepsBut ps r s :=
  keepsBut_peel (fp := [.guard]) (by
    unfold formValues
    extract_lets
    exact (keepsBut_modGuard (by decide) ..).2 ((keepsBut_modGuard (by decide) ..).2 (keepsBut_refl _ _))) h

theorem execGuardValue_frame (t : Nat) (ch : List GuardDens) (s : State) : answers (execGuardValue t ch s) (keepsBut [.time, .est, .guard] s) := by
  unfold execGuardValue
  repeat' first
    | with_reducible refine answers_next ?_
    | with_reducible refine answers_ite ?_ ?_
    | with_reducible exact keepsBut_refl _ _
    | with_reducible refine (keepsBut_guardDo (fun _ => ?_) (by decide) ..).2 ?_
    | with_reducible refine (keepsBut_formValues (by decide) ..).2 ?_
    | with_reducible refine (keepsBut_modGuard (by decide) ..).2 ?_
    | with_reducible refine keepsBut_forEach_of (fun _ _ => ?_) ?_
    | with_reducible refine keepsBut_foldl_of (fun _ _ => ?_) ?_
    | with_reducible refine keepsBut_ite_of ?_ ?_
    | with_reducible refine keepsBut_ite_fst_of ?_ ?_
    | extract_lets
    | split
    | with_reducible intro _
    | dsimp only
    | (dsimp +zetaDelta only; split)

theorem execGuardMean_frame (t : Nat) (ch : List GuardDens) (s : State) : answers (execGuardMean t ch s) (keepsBut [.time, .est, .guard] s) := by
  unfold execGuardMean
  repeat' first
    | with_reducible refine answers_next ?_
    | with_reducible refine answers_ite ?_ ?_
    | with_reducible exact keepsBut_refl _ _
    | with_reducible refine (keepsBut_guardDo (fun _ => ?_) (by decide) ..).2 ?_
    | with_reducible refine (keepsBut_formValues (by decide) ..).2 ?_
    | with_reducible refine (keepsBut_modGuard (by decide) ..).2 ?_
    | with_reducible refine keepsBut_forEach_of (fun _ _ => ?_) ?_
    | with_reducible refine keepsBut_foldl_of (fun _ _ => ?_) ?_
    | with_reducible refine keepsBut_ite_of ?_ ?_
    | with_reducible refine keepsBut_ite_fst_of ?_ ?_
    | extract_lets
    | split
    | with_reducible intro _
    | dsimp only
    | (dsimp +zetaDelta only; split)

theorem execFloopEdgeDrive_frame (t : Nat) (s : State) : answers (execFloopEdgeDrive t s) (keepsBut [.time, .est, .guard] s) := by
  unfold execFloopEdgeDrive
  repeat' first
    | with_reducible refine answers_next ?_
    | with_reducible refine answers_ite ?_ ?_
    | with_reducible exact keepsBut_refl _ _
    | with_reducible refine (keepsBut_guardDo (fun _ => ?_) (by decide) ..).2 ?_
    | with_reducible refine (keepsBut_modGuard (by decide) ..).2 ?_
    | with_reducible refine keepsBut_forEach_of (fun _ _ => ?_) ?_
    | with_reducible refine keepsBut_foldl_of (fun _ _ => ?_) ?_
    | with_reducible refine keepsBut_ite_of ?_ ?_
    | with_reducible refine keepsBut_ite_fst_of ?_ ?_
    | extract_lets
    | split
    | with_reducible intro _
    | dsimp only
    | (dsimp +zetaDelta only; split)

theorem execFloopInEdge_frame (x : Edge) (n : Fin 4) (high : Bool) (s : State) : answers (execFloopInEdge x n high s) (keepsBut [.time, .est, .guard] s) := by
  unfold execFloopInEdge
  repeat' first
    | with_reducible refine answers_next ?_
    | with_reducible refine answers_ite ?_ ?_
    | with_reducible exact keepsBut_refl _ _
    | with_reducible refine (keepsBut_guardDo (fun _ => ?_) (by decide) ..).2 ?_
    | with_reducible refine (keepsBut_modGuard (by decide) ..).2 ?_
    | with_reducible refine keepsBut_forEach_of (fun _ _ => ?_) ?_
    | with_reducible refine keepsBut_foldl_of (fun _ _ => ?_) ?_
    | with_reducible refine keepsBut_ite_of ?_ ?_
    | with_reducible refine keepsBut_ite_fst_of ?_ ?_
    | extract_lets
    | split
    | with_reducible intro _
    | dsimp only
    | (dsimp +zetaDelta only; split)

theorem execFloopEdgeNotReturned_frame (t : Nat) (n : Fin 4) (s : State) : answers (execFloopEdgeNotReturned t n s) (keepsBut [.time, .est, .guard] s) := by
  unfold execFloopEdgeNotReturned
  repeat' first
    | with_reducible refine answers_next ?_
    | with_reducible refine answers_ite ?_ ?_
    | with_reducible exact keepsBut_refl _ _
    | with_reducible refine (keepsBut_guardDo (fun _ => ?_) (by decide) ..).2 ?_
    | with_reducible refine (keepsBut_modGuard (by decide) ..).2 ?_
    | with_reducible refine keepsBut_forEach_of (fun _ _ => ?_) ?_
    | with_reducible refine keepsBut_foldl_of (fun _ _ => ?_) ?_
    | with_reducible refine keepsBut_ite_of ?_ ?_
    | with_reducible refine keepsBut_ite_fst_of ?_ ?_
    | extract_lets
    | split
    | with_reducible intro _
    | dsimp only
    | (dsimp +zetaDelta only; split)

theorem execTripInputChange_frame (t : Nat) (a b : Bool) (s : State) : answers (execTripInputChange t a b s) (keepsBut [.time, .est, .guard] s) := by
  unfold execTripInputChange
  repeat' first
    | with_reducible refine answers_next ?_
    | with_reducible refine answers_ite ?_ ?_
    | with_reducible exact keepsBut_refl _ _
    | with_reducible refine (keepsBut_guardDo (fun _ => ?_) (by decide) ..).2 ?_
    | with_reducible refine (keepsBut_modGuard (by decide) ..).2 ?_
    | with_reducible refine keepsBut_forEach_of (fun _ _ => ?_) ?_
    | with_reducible refine keepsBut_foldl_of (fun _ _ => ?_) ?_
    | with_reducible refine keepsBut_ite_of ?_ ?_
    | with_reducible refine keepsBut_ite_fst_of ?_ ?_
    | extract_lets
    | split
    | with_reducible intro _
    | dsimp only
    | (dsimp +zetaDelta only; split)

theorem execTripDiscrepancy_frame (t : Nat) (s : State) : answers (execTripDiscrepancy t s) (keepsBut [.time, .est, .guard] s) := by
  unfold execTripDiscrepancy
  repeat' first
    | with_reducible refine answers_next ?_
    | with_reducible refine answers_ite ?_ ?_
    | with_reducible exact keepsBut_refl _ _
    | with_reducible refine (keepsBut_guardDo (fun _ => ?_) (by decide) ..).2 ?_
    | with_reducible refine (keepsBut_modGuard (by decide) ..).2 ?_
    | with_reducible refine keepsBut_forEach_of (fun _ _ => ?_) ?_
    | with_reducible refine keepsBut_foldl_of (fun _ _ => ?_) ?_
    | with_reducible refine keepsBut_ite_of ?_ ?_
    | with_reducible refine keepsBut_ite_fst_of ?_ ?_
    | extract_lets
    | split
    | with_reducible intro _
    | dsimp only
    | (dsimp +zetaDelta only; split)

theorem execCfbChange_frame (t : Nat) (n : Fin 4) (k : Fin 3) (closed : Bool) (s : State) : answers (execCfbChange t n k closed s) (keepsBut [.time, .est, .disp, .guard, .recorder] s) := by
  unfold execCfbChange
  repeat' first
    | with_reducible refine answers_next ?_
    | with_reducible refine answers_ite ?_ ?_
    | with_reducible exact keepsBut_refl _ _
    | with_reducible refine (keepsBut_guardDo (fun _ => ?_) (by decide) ..).2 ?_
    | with_reducible refine (keepsBut_noteFeedback (by decide) ..).2 ?_
    | with_reducible refine (keepsBut_noteOutputs (by decide) ..).2 ?_
    | with_reducible refine (keepsBut_clear (by decide) ..).2 ?_
    | with_reducible refine (keepsBut_modGuard (by decide) ..).2 ?_
    | with_reducible refine keepsBut_forEach_of (fun _ _ => ?_) ?_
    | with_reducible refine keepsBut_foldl_of (fun _ _ => ?_) ?_
    | with_reducible refine keepsBut_ite_of ?_ ?_
    | with_reducible refine keepsBut_ite_fst_of ?_ ?_
    | extract_lets
    | split
    | with_reducible intro _
    | dsimp only
    | (dsimp +zetaDelta only; split)

theorem execContactorFeedbackFault_frame (t : Nat) (n : Fin 4) (k : Fin 3) (s : State) : answers (execContactorFeedbackFault t n k s) (keepsBut [.time, .est, .guard, .recorder] s) := by
  unfold execContactorFeedbackFault
  repeat' first
    | with_reducible refine answers_next ?_
    | with_reducible refine answers_ite ?_ ?_
    | with_reducible exact keepsBut_refl _ _
    | with_reducible refine (keepsBut_guardDo (fun _ => ?_) (by decide) ..).2 ?_
    | with_reducible refine (keepsBut_setGLatch (by decide) ..).2 ?_
    | with_reducible refine (keepsBut_gRaise (by decide) ..).2 ?_
    | with_reducible refine keepsBut_forEach_of (fun _ _ => ?_) ?_
    | with_reducible refine keepsBut_foldl_of (fun _ _ => ?_) ?_
    | with_reducible refine keepsBut_ite_of ?_ ?_
    | with_reducible refine keepsBut_ite_fst_of ?_ ?_
    | extract_lets
    | split
    | with_reducible intro _
    | dsimp only
    | (dsimp +zetaDelta only; split)

theorem execContactorWeld_frame (t : Nat) (n : Fin 4) (k : Fin 3) (s : State) : answers (execContactorWeld t n k s) (keepsBut [.time, .est, .guard, .recorder] s) := by
  unfold execContactorWeld
  repeat' first
    | with_reducible refine answers_next ?_
    | with_reducible refine answers_ite ?_ ?_
    | with_reducible exact keepsBut_refl _ _
    | with_reducible refine (keepsBut_guardDo (fun _ => ?_) (by decide) ..).2 ?_
    | with_reducible refine (keepsBut_setGLatch (by decide) ..).2 ?_
    | with_reducible refine (keepsBut_gRaise (by decide) ..).2 ?_
    | with_reducible refine (keepsBut_modGuard (by decide) ..).2 ?_
    | with_reducible refine keepsBut_forEach_of (fun _ _ => ?_) ?_
    | with_reducible refine keepsBut_foldl_of (fun _ _ => ?_) ?_
    | with_reducible refine keepsBut_ite_of ?_ ?_
    | with_reducible refine keepsBut_ite_fst_of ?_ ?_
    | extract_lets
    | split
    | with_reducible intro _
    | dsimp only
    | (dsimp +zetaDelta only; split)

theorem execGuardScvRecompute_frame (t : Nat) (intact : Bool) (s : State) : answers (execGuardScvRecompute t intact s) (keepsBut [.time, .est, .guard, .core, .recorder] s) := by
  unfold execGuardScvRecompute
  repeat' first
    | with_reducible refine answers_next ?_
    | with_reducible refine answers_ite ?_ ?_
    | with_reducible exact keepsBut_refl _ _
    | with_reducible refine (keepsBut_partFault (by decide) ..).2 ?_
    | with_reducible refine (keepsBut_guardDo (fun _ => ?_) (by decide) ..).2 ?_
    | with_reducible refine (keepsBut_modGuard (by decide) ..).2 ?_
    | with_reducible refine keepsBut_forEach_of (fun _ _ => ?_) ?_
    | with_reducible refine keepsBut_foldl_of (fun _ _ => ?_) ?_
    | with_reducible refine keepsBut_ite_of ?_ ?_
    | with_reducible refine keepsBut_ite_fst_of ?_ ?_
    | extract_lets
    | split
    | with_reducible intro _
    | dsimp only
    | (dsimp +zetaDelta only; split)

theorem execAliveToggle_frame (t : Nat) (s : State) : answers (execAliveToggle t s) (keepsBut [.time, .est, .guard] s) := by
  unfold execAliveToggle
  repeat' first
    | with_reducible refine answers_next ?_
    | with_reducible refine answers_ite ?_ ?_
    | with_reducible exact keepsBut_refl _ _
    | with_reducible refine (keepsBut_guardDo (fun _ => ?_) (by decide) ..).2 ?_
    | with_reducible refine (keepsBut_at_ (by decide) ..).2 ?_
    | with_reducible refine (keepsBut_modGuard (by decide) ..).2 ?_
    | with_reducible refine keepsBut_forEach_of (fun _ _ => ?_) ?_
    | with_reducible refine keepsBut_foldl_of (fun _ _ => ?_) ?_
    | with_reducible refine keepsBut_ite_of ?_ ?_
    | with_reducible refine keepsBut_ite_fst_of ?_ ?_
    | extract_lets
    | split
    | with_reducible intro _
    | dsimp only
    | (dsimp +zetaDelta only; split)

theorem execPermitLapse_frame (t : Nat) (s : State) : answers (execPermitLapse t s) (keepsBut [.time, .est, .guard, .core, .recorder] s) := by
  unfold execPermitLapse
  repeat' first
    | with_reducible refine answers_next ?_
    | with_reducible refine answers_ite ?_ ?_
    | with_reducible exact keepsBut_refl _ _
    | with_reducible refine (keepsBut_partFault (by decide) ..).2 ?_
    | with_reducible refine (keepsBut_guardDo (fun _ => ?_) (by decide) ..).2 ?_
    | with_reducible refine (keepsBut_modGuard (by decide) ..).2 ?_
    | with_reducible refine keepsBut_forEach_of (fun _ _ => ?_) ?_
    | with_reducible refine keepsBut_foldl_of (fun _ _ => ?_) ?_
    | with_reducible refine keepsBut_ite_of ?_ ?_
    | with_reducible refine keepsBut_ite_fst_of ?_ ?_
    | extract_lets
    | split
    | with_reducible intro _
    | dsimp only
    | (dsimp +zetaDelta only; split)

theorem execPermitWithdrawn_frame (t : Nat) (n : Fin 4) (s : State) : answers (execPermitWithdrawn t n s) (keepsBut [.time, .est, .guard] s) := by
  unfold execPermitWithdrawn
  repeat' first
    | with_reducible refine answers_next ?_
    | with_reducible refine answers_ite ?_ ?_
    | with_reducible exact keepsBut_refl _ _
    | with_reducible refine (keepsBut_stage (by decide) ..).2 ?_
    | with_reducible refine (keepsBut_at_ (by decide) ..).2 ?_
    | with_reducible refine keepsBut_forEach_of (fun _ _ => ?_) ?_
    | with_reducible refine keepsBut_foldl_of (fun _ _ => ?_) ?_
    | with_reducible refine keepsBut_ite_of ?_ ?_
    | with_reducible refine keepsBut_ite_fst_of ?_ ?_
    | extract_lets
    | split
    | with_reducible intro _
    | dsimp only
    | (dsimp +zetaDelta only; split)

theorem execContactorRelease_frame (t : Nat) (n : Fin 4) (s : State) : answers (execContactorRelease t n s) (keepsBut [.time, .est, .guard, .recorder] s) := by
  unfold execContactorRelease
  repeat' first
    | with_reducible refine answers_next ?_
    | with_reducible refine answers_ite ?_ ?_
    | with_reducible exact keepsBut_refl _ _
    | with_reducible refine (keepsBut_guardEval (by decide) ..).2 ?_
    | with_reducible refine (keepsBut_gRaise (by decide) ..).2 ?_
    | with_reducible refine (keepsBut_noteOutputs (by decide) ..).2 ?_
    | with_reducible refine (keepsBut_at_ (by decide) ..).2 ?_
    | with_reducible refine (keepsBut_modGuard (by decide) ..).2 ?_
    | with_reducible refine keepsBut_forEach_of (fun _ _ => ?_) ?_
    | with_reducible refine keepsBut_foldl_of (fun _ _ => ?_) ?_
    | with_reducible refine keepsBut_ite_of ?_ ?_
    | with_reducible refine keepsBut_ite_fst_of ?_ ?_
    | extract_lets
    | split
    | with_reducible intro _
    | dsimp only
    | (dsimp +zetaDelta only; split)

theorem execVguardLoss_frame (t : Nat) (s : State) : answers (execVguardLoss t s) (keepsBut [.time, .guard, .pwr] s) := by
  unfold execVguardLoss
  repeat' first
    | with_reducible refine answers_next ?_
    | with_reducible refine answers_ite ?_ ?_
    | with_reducible exact keepsBut_refl _ _
    | with_reducible refine (keepsBut_outputsOff (by decide) ..).2 ?_
    | with_reducible refine (keepsBut_at_ (by decide) ..).2 ?_
    | with_reducible refine (keepsBut_modPwr (by decide) ..).2 ?_
    | with_reducible refine (keepsBut_modGuard (by decide) ..).2 ?_
    | with_reducible refine keepsBut_forEach_of (fun _ _ => ?_) ?_
    | with_reducible refine keepsBut_foldl_of (fun _ _ => ?_) ?_
    | with_reducible refine keepsBut_ite_of ?_ ?_
    | with_reducible refine keepsBut_ite_fst_of ?_ ?_
    | extract_lets
    | split
    | with_reducible intro _
    | dsimp only
    | (dsimp +zetaDelta only; split)

theorem execResetNFall_frame (t tf : Nat) (s : State) : answers (execResetNFall t tf s) (keepsBut [.time, .est, .guard] s) := by
  unfold execResetNFall
  repeat' first
    | with_reducible refine answers_next ?_
    | with_reducible refine answers_ite ?_ ?_
    | with_reducible exact keepsBut_refl _ _
    | with_reducible refine (keepsBut_guardDo (fun _ => ?_) (by decide) ..).2 ?_
    | with_reducible refine (keepsBut_modGuard (by decide) ..).2 ?_
    | with_reducible refine keepsBut_forEach_of (fun _ _ => ?_) ?_
    | with_reducible refine keepsBut_foldl_of (fun _ _ => ?_) ?_
    | with_reducible refine keepsBut_ite_of ?_ ?_
    | with_reducible refine keepsBut_ite_fst_of ?_ ?_
    | extract_lets
    | split
    | with_reducible intro _
    | dsimp only
    | (dsimp +zetaDelta only; split)

theorem execResetNRise_frame (t tr : Nat) (s : State) : answers (execResetNRise t tr s) (keepsBut [.time, .est, .guard, .recorder] s) := by
  unfold execResetNRise
  repeat' first
    | with_reducible refine answers_next ?_
    | with_reducible refine answers_ite ?_ ?_
    | with_reducible exact keepsBut_refl _ _
    | with_reducible refine (keepsBut_pressClears (by decide) ..).2 ?_
    | with_reducible refine (keepsBut_guardDo (fun _ => ?_) (by decide) ..).2 ?_
    | with_reducible refine (keepsBut_gRaise (by decide) ..).2 ?_
    | with_reducible refine (keepsBut_modGuard (by decide) ..).2 ?_
    | with_reducible refine keepsBut_forEach_of (fun _ _ => ?_) ?_
    | with_reducible refine keepsBut_foldl_of (fun _ _ => ?_) ?_
    | with_reducible refine keepsBut_ite_of ?_ ?_
    | with_reducible refine keepsBut_ite_fst_of ?_ ?_
    | extract_lets
    | split
    | with_reducible intro _
    | dsimp only
    | (dsimp +zetaDelta only; split)

theorem execStuckReset_frame (t : Nat) (s : State) : answers (execStuckReset t s) (keepsBut [.time, .est, .guard, .core, .recorder] s) := by
  unfold execStuckReset
  repeat' first
    | with_reducible refine answers_next ?_
    | with_reducible refine answers_ite ?_ ?_
    | with_reducible exact keepsBut_refl _ _
    | with_reducible refine (keepsBut_closeWindow (by decide) ..).2 ?_
    | with_reducible refine (keepsBut_guardDo (fun _ => ?_) (by decide) ..).2 ?_
    | with_reducible refine (keepsBut_gRaise (by decide) ..).2 ?_
    | with_reducible refine (keepsBut_modGuard (by decide) ..).2 ?_
    | with_reducible refine keepsBut_forEach_of (fun _ _ => ?_) ?_
    | with_reducible refine keepsBut_foldl_of (fun _ _ => ?_) ?_
    | with_reducible refine keepsBut_ite_of ?_ ?_
    | with_reducible refine keepsBut_ite_fst_of ?_ ?_
    | extract_lets
    | split
    | with_reducible intro _
    | dsimp only
    | (dsimp +zetaDelta only; split)

theorem execStuckResetClear_frame (t : Nat) (s : State) : answers (execStuckResetClear t s) (keepsBut [.time, .est, .guard, .recorder] s) := by
  unfold execStuckResetClear
  repeat' first
    | with_reducible refine answers_next ?_
    | with_reducible refine answers_ite ?_ ?_
    | with_reducible exact keepsBut_refl _ _
    | with_reducible refine (keepsBut_guardDo (fun _ => ?_) (by decide) ..).2 ?_
    | with_reducible refine (keepsBut_clear (by decide) ..).2 ?_
    | with_reducible refine (keepsBut_modGuard (by decide) ..).2 ?_
    | with_reducible refine keepsBut_forEach_of (fun _ _ => ?_) ?_
    | with_reducible refine keepsBut_foldl_of (fun _ _ => ?_) ?_
    | with_reducible refine keepsBut_ite_of ?_ ?_
    | with_reducible refine keepsBut_ite_fst_of ?_ ?_
    | extract_lets
    | split
    | with_reducible intro _
    | dsimp only
    | (dsimp +zetaDelta only; split)

theorem execResetWindowClose_frame (t : Nat) (s : State) : answers (execResetWindowClose t s) (keepsBut [.time, .core, .recorder] s) := by
  unfold execResetWindowClose
  repeat' first
    | with_reducible refine answers_next ?_
    | with_reducible refine answers_ite ?_ ?_
    | with_reducible exact keepsBut_refl _ _
    | with_reducible refine (keepsBut_closeWindow (by decide) ..).2 ?_
    | with_reducible refine (keepsBut_at_ (by decide) ..).2 ?_
    | with_reducible refine keepsBut_forEach_of (fun _ _ => ?_) ?_
    | with_reducible refine keepsBut_foldl_of (fun _ _ => ?_) ?_
    | with_reducible refine keepsBut_ite_of ?_ ?_
    | with_reducible refine keepsBut_ite_fst_of ?_ ?_
    | extract_lets
    | split
    | with_reducible intro _
    | dsimp only
    | (dsimp +zetaDelta only; split)

theorem execCanFrameReceived_frame (sof ts : Nat) (p : Fin 2) (id : Nat) (ext remote : Bool) (data : List (BitVec 8)) (s : State) : answers (execCanFrameReceived sof ts p id ext remote data s) (keepsBut [.time, .can, .recorder] s) := by
  unfold execCanFrameReceived
  repeat' first
    | with_reducible refine answers_next ?_
    | with_reducible refine answers_ite ?_ ?_
    | with_reducible exact keepsBut_refl _ _
    | with_reducible refine (keepsBut_storeFrame (by decide) ..).2 ?_
    | with_reducible refine (keepsBut_at_ (by decide) ..).2 ?_
    | with_reducible refine keepsBut_forEach_of (fun _ _ => ?_) ?_
    | with_reducible refine keepsBut_foldl_of (fun _ _ => ?_) ?_
    | with_reducible refine keepsBut_ite_of ?_ ?_
    | with_reducible refine keepsBut_ite_fst_of ?_ ?_
    | extract_lets
    | split
    | with_reducible intro _
    | dsimp only
    | (dsimp +zetaDelta only; split)

theorem execCanTxRemoval_frame (t : Nat) (s : State) : answers (execCanTxRemoval t s) (keepsBut [.time, .can, .recorder] s) := by
  unfold execCanTxRemoval
  repeat' first
    | with_reducible refine answers_next ?_
    | with_reducible refine answers_ite ?_ ?_
    | with_reducible exact keepsBut_refl _ _
    | with_reducible refine (keepsBut_updPort (by decide) ..).2 ?_
    | with_reducible refine (keepsBut_raise (by decide) ..).2 ?_
    | with_reducible refine (keepsBut_at_ (by decide) ..).2 ?_
    | with_reducible refine keepsBut_forEach_of (fun _ _ => ?_) ?_
    | with_reducible refine keepsBut_foldl_of (fun _ _ => ?_) ?_
    | with_reducible refine keepsBut_ite_of ?_ ?_
    | with_reducible refine keepsBut_ite_fst_of ?_ ?_
    | extract_lets
    | split
    | with_reducible intro _
    | dsimp only
    | (dsimp +zetaDelta only; split)

theorem execCanErrorState_frame (t : Nat) (p : Fin 2) (err : Fin 3) (s : State) : answers (execCanErrorState t p err s) (keepsBut [.time, .can, .recorder] s) := by
  unfold execCanErrorState
  repeat' first
    | with_reducible refine answers_next ?_
    | with_reducible refine answers_ite ?_ ?_
    | with_reducible exact keepsBut_refl _ _
    | with_reducible refine (keepsBut_updPort (by decide) ..).2 ?_
    | with_reducible refine (keepsBut_stand (by decide) ..).2 ?_
    | with_reducible refine (keepsBut_clear (by decide) ..).2 ?_
    | with_reducible refine (keepsBut_at_ (by decide) ..).2 ?_
    | with_reducible refine keepsBut_forEach_of (fun _ _ => ?_) ?_
    | with_reducible refine keepsBut_foldl_of (fun _ _ => ?_) ?_
    | with_reducible refine keepsBut_ite_of ?_ ?_
    | with_reducible refine keepsBut_ite_fst_of ?_ ?_
    | extract_lets
    | split
    | with_reducible intro _
    | dsimp only
    | (dsimp +zetaDelta only; split)

theorem execCanBusoffRecovery_frame (t : Nat) (p : Fin 2) (s : State) : answers (execCanBusoffRecovery t p s) (keepsBut [.time, .can] s) := by
  unfold execCanBusoffRecovery
  repeat' first
    | with_reducible refine answers_next ?_
    | with_reducible refine answers_ite ?_ ?_
    | with_reducible exact keepsBut_refl _ _
    | with_reducible refine (keepsBut_updPort (by decide) ..).2 ?_
    | with_reducible refine (keepsBut_at_ (by decide) ..).2 ?_
    | with_reducible refine keepsBut_forEach_of (fun _ _ => ?_) ?_
    | with_reducible refine keepsBut_foldl_of (fun _ _ => ?_) ?_
    | with_reducible refine keepsBut_ite_of ?_ ?_
    | with_reducible refine keepsBut_ite_fst_of ?_ ?_
    | extract_lets
    | split
    | with_reducible intro _
    | dsimp only
    | (dsimp +zetaDelta only; split)

theorem execCanAutobaud_frame (t : Nat) (p : Fin 2) (good : Bool) (s : State) : answers (execCanAutobaud t p good s) (keepsBut [.time, .can, .recorder] s) := by
  unfold execCanAutobaud
  repeat' first
    | with_reducible refine answers_next ?_
    | with_reducible refine answers_ite ?_ ?_
    | with_reducible exact keepsBut_refl _ _
    | with_reducible refine (keepsBut_updPort (by decide) ..).2 ?_
    | with_reducible refine (keepsBut_raise (by decide) ..).2 ?_
    | with_reducible refine (keepsBut_at_ (by decide) ..).2 ?_
    | with_reducible refine keepsBut_forEach_of (fun _ _ => ?_) ?_
    | with_reducible refine keepsBut_foldl_of (fun _ _ => ?_) ?_
    | with_reducible refine keepsBut_ite_of ?_ ?_
    | with_reducible refine keepsBut_ite_fst_of ?_ ?_
    | extract_lets
    | split
    | with_reducible intro _
    | dsimp only
    | (dsimp +zetaDelta only; split)

theorem execSetpoint_frame (t : Nat) (p : Fin 2) (s : State) : answers (execSetpoint t p s) (keepsBut [.time, .disp, .can, .recorder] s) := by
  unfold execSetpoint
  repeat' first
    | with_reducible refine answers_next ?_
    | with_reducible refine answers_ite ?_ ?_
    | with_reducible exact keepsBut_refl _ _
    | with_reducible refine (keepsBut_useSetpoint (by decide) ..).2 ?_
    | with_reducible refine (keepsBut_rejectLength (by decide) ..).2 ?_
    | with_reducible refine (keepsBut_noteCopy (by decide) ..).2 ?_
    | with_reducible refine (keepsBut_updPort (by decide) ..).2 ?_
    | with_reducible refine (keepsBut_at_ (by decide) ..).2 ?_
    | with_reducible refine keepsBut_forEach_of (fun _ _ => ?_) ?_
    | with_reducible refine keepsBut_foldl_of (fun _ _ => ?_) ?_
    | with_reducible refine keepsBut_ite_of ?_ ?_
    | with_reducible refine keepsBut_ite_fst_of ?_ ?_
    | extract_lets
    | split
    | with_reducible intro _
    | dsimp only
    | (dsimp +zetaDelta only; split)

theorem execTimeRef_frame (t : Nat) (s : State) : answers (execTimeRef t s) (keepsBut [.time, .can, .recorder] s) := by
  unfold execTimeRef
  repeat' first
    | with_reducible refine answers_next ?_
    | with_reducible refine answers_ite ?_ ?_
    | with_reducible exact keepsBut_refl _ _
    | with_reducible refine (keepsBut_queueCan (by decide) ..).2 ?_
    | with_reducible refine (keepsBut_fireUnit (by decide) ..).2 ?_
    | with_reducible refine (keepsBut_at_ (by decide) ..).2 ?_
    | with_reducible refine (keepsBut_modCan (by decide) ..).2 ?_
    | with_reducible refine keepsBut_forEach_of (fun _ _ => ?_) ?_
    | with_reducible refine keepsBut_foldl_of (fun _ _ => ?_) ?_
    | with_reducible refine keepsBut_ite_of ?_ ?_
    | with_reducible refine keepsBut_ite_fst_of ?_ ?_
    | extract_lets
    | split
    | with_reducible intro _
    | dsimp only
    | (dsimp +zetaDelta only; split)

theorem execTimeFollow_frame (t : Nat) (p : Fin 2) (s : State) : answers (execTimeFollow t p s) (keepsBut [.time, .can, .recorder] s) := by
  unfold execTimeFollow
  repeat' first
    | with_reducible refine answers_next ?_
    | with_reducible refine answers_ite ?_ ?_
    | with_reducible exact keepsBut_refl _ _
    | with_reducible refine (keepsBut_queueCan (by decide) ..).2 ?_
    | with_reducible refine (keepsBut_releaseStamp (by decide) ..).2 ?_
    | with_reducible refine (keepsBut_at_ (by decide) ..).2 ?_
    | with_reducible refine keepsBut_forEach_of (fun _ _ => ?_) ?_
    | with_reducible refine keepsBut_foldl_of (fun _ _ => ?_) ?_
    | with_reducible refine keepsBut_ite_of ?_ ?_
    | with_reducible refine keepsBut_ite_fst_of ?_ ?_
    | extract_lets
    | split
    | with_reducible intro _
    | dsimp only
    | (dsimp +zetaDelta only; split)

theorem execTimeRefReceived_frame (t : Nat) (p : Fin 2) (s : State) : answers (execTimeRefReceived t p s) (keepsBut [.time, .can, .recorder] s) := by
  unfold execTimeRefReceived
  repeat' first
    | with_reducible refine answers_next ?_
    | with_reducible refine answers_ite ?_ ?_
    | with_reducible exact keepsBut_refl _ _
    | with_reducible refine (keepsBut_pairTime (by decide) ..).2 ?_
    | with_reducible refine (keepsBut_rejectLength (by decide) ..).2 ?_
    | with_reducible refine (keepsBut_updPort (by decide) ..).2 ?_
    | with_reducible refine (keepsBut_at_ (by decide) ..).2 ?_
    | with_reducible refine keepsBut_forEach_of (fun _ _ => ?_) ?_
    | with_reducible refine keepsBut_foldl_of (fun _ _ => ?_) ?_
    | with_reducible refine keepsBut_ite_of ?_ ?_
    | with_reducible refine keepsBut_ite_fst_of ?_ ?_
    | extract_lets
    | split
    | with_reducible intro _
    | dsimp only
    | (dsimp +zetaDelta only; split)

theorem execTimeFollowUpMissing_frame (t : Nat) (s : State) : answers (execTimeFollowUpMissing t s) (keepsBut [.time, .can, .recorder] s) := by
  unfold execTimeFollowUpMissing
  repeat' first
    | with_reducible refine answers_next ?_
    | with_reducible refine answers_ite ?_ ?_
    | with_reducible exact keepsBut_refl _ _
    | with_reducible refine (keepsBut_usePair (by decide) ..).2 ?_
    | with_reducible refine (keepsBut_stand (by decide) ..).2 ?_
    | with_reducible refine (keepsBut_at_ (by decide) ..).2 ?_
    | with_reducible refine (keepsBut_modCan (by decide) ..).2 ?_
    | with_reducible refine keepsBut_forEach_of (fun _ _ => ?_) ?_
    | with_reducible refine keepsBut_foldl_of (fun _ _ => ?_) ?_
    | with_reducible refine keepsBut_ite_of ?_ ?_
    | with_reducible refine keepsBut_ite_fst_of ?_ ?_
    | extract_lets
    | split
    | with_reducible intro _
    | dsimp only
    | (dsimp +zetaDelta only; split)

theorem execTimeMasterTakeover_frame (t : Nat) (s : State) : answers (execTimeMasterTakeover t s) (keepsBut [.time, .can, .recorder] s) := by
  unfold execTimeMasterTakeover
  repeat' first
    | with_reducible refine answers_next ?_
    | with_reducible refine answers_ite ?_ ?_
    | with_reducible exact keepsBut_refl _ _
    | with_reducible refine (keepsBut_judgeHoldover (by decide) ..).2 ?_
    | with_reducible refine (keepsBut_raise (by decide) ..).2 ?_
    | with_reducible refine (keepsBut_at_ (by decide) ..).2 ?_
    | with_reducible refine (keepsBut_modCan (by decide) ..).2 ?_
    | with_reducible refine keepsBut_forEach_of (fun _ _ => ?_) ?_
    | with_reducible refine keepsBut_foldl_of (fun _ _ => ?_) ?_
    | with_reducible refine keepsBut_ite_of ?_ ?_
    | with_reducible refine keepsBut_ite_fst_of ?_ ?_
    | extract_lets
    | split
    | with_reducible intro _
    | dsimp only
    | (dsimp +zetaDelta only; split)

theorem execCanopenHeartbeat_frame (t : Nat) (s : State) : answers (execCanopenHeartbeat t s) (keepsBut [.time, .can, .recorder] s) := by
  unfold execCanopenHeartbeat
  repeat' first
    | with_reducible refine answers_next ?_
    | with_reducible refine answers_ite ?_ ?_
    | with_reducible exact keepsBut_refl _ _
    | with_reducible refine (keepsBut_heartbeatOf (by decide) ..).2 ?_
    | with_reducible refine (keepsBut_takeCo (by decide) (by assumption)).2 ?_
    | with_reducible refine (keepsBut_raise (by decide) ..).2 ?_
    | with_reducible refine (keepsBut_at_ (by decide) ..).2 ?_
    | with_reducible refine (keepsBut_modCan (by decide) ..).2 ?_
    | with_reducible refine keepsBut_forEach_of (fun _ _ => ?_) ?_
    | with_reducible refine keepsBut_foldl_of (fun _ _ => ?_) ?_
    | with_reducible refine keepsBut_ite_of ?_ ?_
    | with_reducible refine keepsBut_ite_fst_of ?_ ?_
    | extract_lets
    | split
    | with_reducible intro _
    | dsimp only
    | (dsimp +zetaDelta only; split)

theorem execCanopenSdoResponse_frame (t : Nat) (s : State) : answers (execCanopenSdoResponse t s) (keepsBut [.time, .can, .recorder] s) := by
  unfold execCanopenSdoResponse
  repeat' first
    | with_reducible refine answers_next ?_
    | with_reducible refine answers_ite ?_ ?_
    | with_reducible exact keepsBut_refl _ _
    | with_reducible refine (keepsBut_takeCo (by decide) (by assumption)).2 ?_
    | with_reducible refine (keepsBut_coSend (by decide) ..).2 ?_
    | with_reducible refine (keepsBut_updStation (by decide) ..).2 ?_
    | with_reducible refine (keepsBut_stand (by decide) ..).2 ?_
    | with_reducible refine (keepsBut_clear (by decide) ..).2 ?_
    | with_reducible refine (keepsBut_at_ (by decide) ..).2 ?_
    | with_reducible refine keepsBut_forEach_of (fun _ _ => ?_) ?_
    | with_reducible refine keepsBut_foldl_of (fun _ _ => ?_) ?_
    | with_reducible refine keepsBut_ite_of ?_ ?_
    | with_reducible refine keepsBut_ite_fst_of ?_ ?_
    | extract_lets
    | split
    | with_reducible intro _
    | dsimp only
    | (dsimp +zetaDelta only; split)

theorem execCanopenSync_frame (t : Nat) (s : State) : answers (execCanopenSync t s) (keepsBut [.time, .can, .recorder] s) := by
  unfold execCanopenSync
  repeat' first
    | with_reducible refine answers_next ?_
    | with_reducible refine answers_ite ?_ ?_
    | with_reducible exact keepsBut_refl _ _
    | with_reducible refine (keepsBut_closeStations (by decide) ..).2 ?_
    | with_reducible refine (keepsBut_coSend (by decide) ..).2 ?_
    | with_reducible refine (keepsBut_at_ (by decide) ..).2 ?_
    | with_reducible refine (keepsBut_modCan (by decide) ..).2 ?_
    | with_reducible refine keepsBut_forEach_of (fun _ _ => ?_) ?_
    | with_reducible refine keepsBut_foldl_of (fun _ _ => ?_) ?_
    | with_reducible refine keepsBut_ite_of ?_ ?_
    | with_reducible refine keepsBut_ite_fst_of ?_ ?_
    | extract_lets
    | split
    | with_reducible intro _
    | dsimp only
    | (dsimp +zetaDelta only; split)

theorem execCanopenTpdo_frame (t : Nat) (s : State) : answers (execCanopenTpdo t s) (keepsBut [.time, .can] s) := by
  unfold execCanopenTpdo
  repeat' first
    | with_reducible refine answers_next ?_
    | with_reducible refine answers_ite ?_ ?_
    | with_reducible exact keepsBut_refl _ _
    | with_reducible refine (keepsBut_takeCo (by decide) (by assumption)).2 ?_
    | with_reducible refine (keepsBut_updStation (by decide) ..).2 ?_
    | with_reducible refine (keepsBut_at_ (by decide) ..).2 ?_
    | with_reducible refine keepsBut_forEach_of (fun _ _ => ?_) ?_
    | with_reducible refine keepsBut_foldl_of (fun _ _ => ?_) ?_
    | with_reducible refine keepsBut_ite_of ?_ ?_
    | with_reducible refine keepsBut_ite_fst_of ?_ ?_
    | extract_lets
    | split
    | with_reducible intro _
    | dsimp only
    | (dsimp +zetaDelta only; split)

theorem execCanopenEmcy_frame (t : Nat) (s : State) : answers (execCanopenEmcy t s) (keepsBut [.time, .can, .recorder] s) := by
  unfold execCanopenEmcy
  repeat' first
    | with_reducible refine answers_next ?_
    | with_reducible refine answers_ite ?_ ?_
    | with_reducible exact keepsBut_refl _ _
    | with_reducible refine (keepsBut_takeCo (by decide) (by assumption)).2 ?_
    | with_reducible refine (keepsBut_raise (by decide) ..).2 ?_
    | with_reducible refine (keepsBut_at_ (by decide) ..).2 ?_
    | with_reducible refine keepsBut_forEach_of (fun _ _ => ?_) ?_
    | with_reducible refine keepsBut_foldl_of (fun _ _ => ?_) ?_
    | with_reducible refine keepsBut_ite_of ?_ ?_
    | with_reducible refine keepsBut_ite_fst_of ?_ ?_
    | extract_lets
    | split
    | with_reducible intro _
    | dsimp only
    | (dsimp +zetaDelta only; split)

theorem execCanopenStationAbsent_frame (t : Nat) (k : Fin 16) (s : State) : answers (execCanopenStationAbsent t k s) (keepsBut [.time, .can, .recorder] s) := by
  unfold execCanopenStationAbsent
  repeat' first
    | with_reducible refine answers_next ?_
    | with_reducible refine answers_ite ?_ ?_
    | with_reducible exact keepsBut_refl _ _
    | with_reducible refine (keepsBut_updStation (by decide) ..).2 ?_
    | with_reducible refine (keepsBut_stand (by decide) ..).2 ?_
    | with_reducible refine (keepsBut_at_ (by decide) ..).2 ?_
    | with_reducible refine keepsBut_forEach_of (fun _ _ => ?_) ?_
    | with_reducible refine keepsBut_foldl_of (fun _ _ => ?_) ?_
    | with_reducible refine keepsBut_ite_of ?_ ?_
    | with_reducible refine keepsBut_ite_fst_of ?_ ?_
    | extract_lets
    | split
    | with_reducible intro _
    | dsimp only
    | (dsimp +zetaDelta only; split)

@[simp ↓] theorem keepsBut_noteFrame {ps : List Piece} (h : [Piece.host] ⊆ ps) (r : State) (t : Nat) (hd : NetHead) (s : State) :
    keepsBut ps r (noteFrame t hd s) ↔ keepsBut ps r s :=
  keepsBut_peel (fp := [.host]) (by
    unfold noteFrame
    repeat' first
      | with_reducible exact keepsBut_refl _ _
      | with_reducible refine (keepsBut_modHost (by decide) ..).2 ?_
      | with_reducible refine keepsBut_forEach_of (fun _ _ => ?_) ?_
      | with_reducible refine keepsBut_ite_of ?_ ?_
      | extract_lets
      | split
      | with_reducible intro _
      | dsimp only) h

theorem execFslUnitReceived_frame (t : Nat) (u : UnitFrom) (s : State) : answers (execFslUnitReceived t u s) (keepsBut [.time, .core, .host, .can, .recorder] s) := by
  unfold execFslUnitReceived
  repeat' first
    | with_reducible refine answers_next ?_
    | with_reducible refine answers_ite ?_ ?_
    | with_reducible exact keepsBut_refl _ _
    | with_reducible refine (keepsBut_noteFrame (by decide) ..).2 ?_
    | with_reducible refine (keepsBut_bufferUnit (by decide) ..).2 ?_
    | with_reducible refine (keepsBut_updPort (by decide) ..).2 ?_
    | with_reducible refine (keepsBut_at_ (by decide) ..).2 ?_
    | with_reducible refine keepsBut_forEach_of (fun _ _ => ?_) ?_
    | with_reducible refine keepsBut_foldl_of (fun _ _ => ?_) ?_
    | with_reducible refine keepsBut_ite_of ?_ ?_
    | with_reducible refine keepsBut_ite_fst_of ?_ ?_
    | extract_lets
    | split
    | with_reducible intro _
    | dsimp only
    | (dsimp +zetaDelta only; split)

theorem execFslWatchdogExpiry_frame (t : Nat) (k : Fin 8) (s : State) : answers (execFslWatchdogExpiry t k s) (keepsBut [.time, .core, .recorder, .boot] s) := by
  unfold execFslWatchdogExpiry
  repeat' first
    | with_reducible refine answers_next ?_
    | with_reducible refine answers_ite ?_ ?_
    | with_reducible exact keepsBut_refl _ _
    | with_reducible refine (keepsBut_takeUnits (by decide) ..).2 ?_
    | with_reducible refine (keepsBut_watchdogExpire (by decide) ..).2 ?_
    | with_reducible refine (keepsBut_setPermits (by decide) ..).2 ?_
    | with_reducible refine (keepsBut_storeLatches (by decide) ..).2 ?_
    | with_reducible refine (keepsBut_at_ (by decide) ..).2 ?_
    | with_reducible refine keepsBut_forEach_of (fun _ _ => ?_) ?_
    | with_reducible refine keepsBut_foldl_of (fun _ _ => ?_) ?_
    | with_reducible refine keepsBut_ite_of ?_ ?_
    | with_reducible refine keepsBut_ite_fst_of ?_ ?_
    | extract_lets
    | split
    | with_reducible intro _
    | dsimp only
    | (dsimp +zetaDelta only; split)

theorem execSafetyEvaluation_frame (t : Nat) (selfOk : Bool) (s : State) : answers (execSafetyEvaluation t selfOk s) (keepsBut [.time, .guard, .core, .can, .recorder, .boot, .out] s) := by
  unfold execSafetyEvaluation
  repeat' first
    | with_reducible refine answers_next ?_
    | with_reducible refine answers_ite ?_ ?_
    | with_reducible exact keepsBut_refl _ _
    | with_reducible refine (keepsBut_safetyEvaluation (by decide) ..).2 ?_
    | with_reducible refine (keepsBut_at_ (by decide) ..).2 ?_
    | with_reducible refine keepsBut_forEach_of (fun _ _ => ?_) ?_
    | with_reducible refine keepsBut_foldl_of (fun _ _ => ?_) ?_
    | with_reducible refine keepsBut_ite_of ?_ ?_
    | with_reducible refine keepsBut_ite_fst_of ?_ ?_
    | extract_lets
    | split
    | with_reducible intro _
    | dsimp only
    | (dsimp +zetaDelta only; split)

theorem execSafetyEvaluationMissed_frame (t : Nat) (s : State) : answers (execSafetyEvaluationMissed t s) (keepsBut [.time, .core, .recorder, .boot] s) := by
  unfold execSafetyEvaluationMissed
  repeat' first
    | with_reducible refine answers_next ?_
    | with_reducible refine answers_ite ?_ ?_
    | with_reducible exact keepsBut_refl _ _
    | with_reducible refine (keepsBut_setPermits (by decide) ..).2 ?_
    | with_reducible refine (keepsBut_storeLatches (by decide) ..).2 ?_
    | with_reducible refine (keepsBut_coreLatch (by decide) ..).2 ?_
    | with_reducible refine (keepsBut_partFault (by decide) ..).2 ?_
    | with_reducible refine (keepsBut_at_ (by decide) ..).2 ?_
    | with_reducible refine (keepsBut_modCore (by decide) ..).2 ?_
    | with_reducible refine keepsBut_forEach_of (fun _ _ => ?_) ?_
    | with_reducible refine keepsBut_foldl_of (fun _ _ => ?_) ?_
    | with_reducible refine keepsBut_ite_of ?_ ?_
    | with_reducible refine keepsBut_ite_fst_of ?_ ?_
    | extract_lets
    | split
    | with_reducible intro _
    | dsimp only
    | (dsimp +zetaDelta only; split)

theorem execProgramDeadline_frame (t us : Nat) (done : Bool) (s : State) : answers (execProgramDeadline t us done s) (keepsBut [.time, .prog, .recorder, .pwr] s) := by
  unfold execProgramDeadline
  repeat' first
    | with_reducible refine answers_next ?_
    | with_reducible refine answers_ite ?_ ?_
    | with_reducible exact keepsBut_refl _ _
    | with_reducible refine (keepsBut_overrunProg (by decide) ..).2 ?_
    | with_reducible refine (keepsBut_fireUnit (by decide) ..).2 ?_
    | with_reducible refine (keepsBut_at_ (by decide) ..).2 ?_
    | with_reducible refine (keepsBut_modProg (by decide) ..).2 ?_
    | with_reducible refine keepsBut_forEach_of (fun _ _ => ?_) ?_
    | with_reducible refine keepsBut_foldl_of (fun _ _ => ?_) ?_
    | with_reducible refine keepsBut_ite_of ?_ ?_
    | with_reducible refine keepsBut_ite_fst_of ?_ ?_
    | extract_lets
    | split
    | with_reducible intro _
    | dsimp only
    | (dsimp +zetaDelta only; split)

theorem execProgramStagingTimeout_frame (t : Nat) (s : State) : answers (execProgramStagingTimeout t s) (keepsBut [.time, .prog] s) := by
  unfold execProgramStagingTimeout
  repeat' first
    | with_reducible refine answers_next ?_
    | with_reducible refine answers_ite ?_ ?_
    | with_reducible exact keepsBut_refl _ _
    | with_reducible refine (keepsBut_at_ (by decide) ..).2 ?_
    | with_reducible refine (keepsBut_modProg (by decide) ..).2 ?_
    | with_reducible refine keepsBut_forEach_of (fun _ _ => ?_) ?_
    | with_reducible refine keepsBut_foldl_of (fun _ _ => ?_) ?_
    | with_reducible refine keepsBut_ite_of ?_ ?_
    | with_reducible refine keepsBut_ite_fst_of ?_ ?_
    | extract_lets
    | split
    | with_reducible intro _
    | dsimp only
    | (dsimp +zetaDelta only; split)

theorem execProgramMode_frame (t : Nat) (code : Fin 3) (s : State) : answers (execProgramMode t code s) (keepsBut [.time, .prog, .recorder] s) := by
  unfold execProgramMode
  repeat' first
    | with_reducible refine answers_next ?_
    | with_reducible refine answers_ite ?_ ?_
    | with_reducible exact keepsBut_refl _ _
    | with_reducible refine (keepsBut_cmdProgMode (by decide) ..).2 ?_
    | with_reducible refine (keepsBut_at_ (by decide) ..).2 ?_
    | with_reducible refine keepsBut_forEach_of (fun _ _ => ?_) ?_
    | with_reducible refine keepsBut_foldl_of (fun _ _ => ?_) ?_
    | with_reducible refine keepsBut_ite_of ?_ ?_
    | with_reducible refine keepsBut_ite_fst_of ?_ ?_
    | extract_lets
    | split
    | with_reducible intro _
    | dsimp only
    | (dsimp +zetaDelta only; split)

theorem execForceVariable_frame (t : Nat) (i : BitVec 16) (v : BitVec 64) (s : State) : answers (execForceVariable t i v s) (keepsBut [.time, .prog, .recorder] s) := by
  unfold execForceVariable
  repeat' first
    | with_reducible refine answers_next ?_
    | with_reducible refine answers_ite ?_ ?_
    | with_reducible exact keepsBut_refl _ _
    | with_reducible refine (keepsBut_cmdForce (by decide) ..).2 ?_
    | with_reducible refine (keepsBut_at_ (by decide) ..).2 ?_
    | with_reducible refine keepsBut_forEach_of (fun _ _ => ?_) ?_
    | with_reducible refine keepsBut_foldl_of (fun _ _ => ?_) ?_
    | with_reducible refine keepsBut_ite_of ?_ ?_
    | with_reducible refine keepsBut_ite_fst_of ?_ ?_
    | extract_lets
    | split
    | with_reducible intro _
    | dsimp only
    | (dsimp +zetaDelta only; split)

theorem execReleaseForce_frame (t : Nat) (i : BitVec 16) (s : State) : answers (execReleaseForce t i s) (keepsBut [.time, .prog] s) := by
  unfold execReleaseForce
  repeat' first
    | with_reducible refine answers_next ?_
    | with_reducible refine answers_ite ?_ ?_
    | with_reducible exact keepsBut_refl _ _
    | with_reducible refine (keepsBut_cmdRelease (by decide) ..).2 ?_
    | with_reducible refine (keepsBut_at_ (by decide) ..).2 ?_
    | with_reducible refine keepsBut_forEach_of (fun _ _ => ?_) ?_
    | with_reducible refine keepsBut_foldl_of (fun _ _ => ?_) ?_
    | with_reducible refine keepsBut_ite_of ?_ ?_
    | with_reducible refine keepsBut_ite_fst_of ?_ ?_
    | extract_lets
    | split
    | with_reducible intro _
    | dsimp only
    | (dsimp +zetaDelta only; split)

theorem execActivateOnlineChange_frame (t : Nat) (version : BitVec 32) (s : State) : answers (execActivateOnlineChange t version s) (keepsBut [.time, .prog, .recorder] s) := by
  unfold execActivateOnlineChange
  repeat' first
    | with_reducible refine answers_next ?_
    | with_reducible refine answers_ite ?_ ?_
    | with_reducible exact keepsBut_refl _ _
    | with_reducible refine (keepsBut_cmdActivateProg (by decide) ..).2 ?_
    | with_reducible refine (keepsBut_at_ (by decide) ..).2 ?_
    | with_reducible refine keepsBut_forEach_of (fun _ _ => ?_) ?_
    | with_reducible refine keepsBut_foldl_of (fun _ _ => ?_) ?_
    | with_reducible refine keepsBut_ite_of ?_ ?_
    | with_reducible refine keepsBut_ite_fst_of ?_ ?_
    | extract_lets
    | split
    | with_reducible intro _
    | dsimp only
    | (dsimp +zetaDelta only; split)

theorem execClearRecorderRegion_frame (t session : Nat) (region : BitVec 8) (token : BitVec 32) (s : State) : answers (execClearRecorderRegion t session region token s) (keepsBut [.time, .recorder] s) := by
  unfold execClearRecorderRegion
  repeat' first
    | with_reducible refine answers_next ?_
    | with_reducible refine answers_ite ?_ ?_
    | with_reducible exact keepsBut_refl _ _
    | with_reducible refine (keepsBut_cmdClearRegion (by decide) ..).2 ?_
    | with_reducible refine (keepsBut_at_ (by decide) ..).2 ?_
    | with_reducible refine keepsBut_forEach_of (fun _ _ => ?_) ?_
    | with_reducible refine keepsBut_foldl_of (fun _ _ => ?_) ?_
    | with_reducible refine keepsBut_ite_of ?_ ?_
    | with_reducible refine keepsBut_ite_fst_of ?_ ?_
    | extract_lets
    | split
    | with_reducible intro _
    | dsimp only
    | (dsimp +zetaDelta only; split)

theorem execRecorderCommit_frame (t : Nat) (s : State) : answers (execRecorderCommit t s) (keepsBut [.time, .recorder, .freeCtr] s) := by
  unfold execRecorderCommit
  repeat' first
    | with_reducible refine answers_next ?_
    | with_reducible refine answers_ite ?_ ?_
    | with_reducible exact keepsBut_refl _ _
    | with_reducible refine (keepsBut_commitRound (by decide) ..).2 ?_
    | with_reducible refine (keepsBut_workDone (by decide) ..).2 ?_
    | with_reducible refine (keepsBut_at_ (by decide) ..).2 ?_
    | with_reducible refine keepsBut_forEach_of (fun _ _ => ?_) ?_
    | with_reducible refine keepsBut_foldl_of (fun _ _ => ?_) ?_
    | with_reducible refine keepsBut_ite_of ?_ ?_
    | with_reducible refine keepsBut_ite_fst_of ?_ ?_
    | extract_lets
    | split
    | with_reducible intro _
    | dsimp only
    | (dsimp +zetaDelta only; split)

theorem execRecorderCommitMissed_frame (t : Nat) (s : State) : answers (execRecorderCommitMissed t s) (keepsBut [.time, .recorder] s) := by
  unfold execRecorderCommitMissed
  repeat' first
    | with_reducible refine answers_next ?_
    | with_reducible refine answers_ite ?_ ?_
    | with_reducible exact keepsBut_refl _ _
    | with_reducible refine (keepsBut_stand (by decide) ..).2 ?_
    | with_reducible refine (keepsBut_at_ (by decide) ..).2 ?_
    | with_reducible refine keepsBut_forEach_of (fun _ _ => ?_) ?_
    | with_reducible refine keepsBut_foldl_of (fun _ _ => ?_) ?_
    | with_reducible refine keepsBut_ite_of ?_ ?_
    | with_reducible refine keepsBut_ite_fst_of ?_ ?_
    | extract_lets
    | split
    | with_reducible intro _
    | dsimp only
    | (dsimp +zetaDelta only; split)

theorem execEventRecord_frame (t : Nat) (code : BitVec 16) (arg : BitVec 32) (s : State) : answers (execEventRecord t code arg s) (keepsBut [.time, .recorder] s) := by
  unfold execEventRecord
  repeat' first
    | with_reducible refine answers_next ?_
    | with_reducible refine answers_ite ?_ ?_
    | with_reducible exact keepsBut_refl _ _
    | with_reducible refine (keepsBut_raise (by decide) ..).2 ?_
    | with_reducible refine (keepsBut_at_ (by decide) ..).2 ?_
    | with_reducible refine keepsBut_forEach_of (fun _ _ => ?_) ?_
    | with_reducible refine keepsBut_foldl_of (fun _ _ => ?_) ?_
    | with_reducible refine keepsBut_ite_of ?_ ?_
    | with_reducible refine keepsBut_ite_fst_of ?_ ?_
    | extract_lets
    | split
    | with_reducible intro _
    | dsimp only
    | (dsimp +zetaDelta only; split)

theorem execBankCopyComplete_frame (t : Nat) (s : State) : answers (execBankCopyComplete t s) (keepsBut [.time, .mem] s) := by
  unfold execBankCopyComplete
  repeat' first
    | with_reducible refine answers_next ?_
    | with_reducible refine answers_ite ?_ ?_
    | with_reducible exact keepsBut_refl _ _
    | with_reducible refine (keepsBut_at_ (by decide) ..).2 ?_
    | with_reducible refine (keepsBut_modMem (by decide) ..).2 ?_
    | with_reducible refine keepsBut_forEach_of (fun _ _ => ?_) ?_
    | with_reducible refine keepsBut_foldl_of (fun _ _ => ?_) ?_
    | with_reducible refine keepsBut_ite_of ?_ ?_
    | with_reducible refine keepsBut_ite_fst_of ?_ ?_
    | extract_lets
    | split
    | with_reducible intro _
    | dsimp only
    | (dsimp +zetaDelta only; split)

theorem execFetchTrap_frame (t : Nat) (addr : BitVec 32) (good : Bool) (s : State) : answers (execFetchTrap t addr good s) (keepsBut [.time, .comb, .links, .tagCtr, .forgs, .cells, .est, .surv, .reg, .disp, .therm, .guard, .core, .host, .can, .prog, .recorder, .mem, .boot, .upd, .bist, .pwr, .out] s) := by
  unfold execFetchTrap
  repeat' first
    | with_reducible refine answers_next ?_
    | with_reducible refine answers_ite ?_ ?_
    | with_reducible exact keepsBut_refl _ _
    | with_reducible refine (keepsBut_countLine (by decide) ..).2 ?_
    | with_reducible refine (keepsBut_restartModule (by decide) ..).2 ?_
    | with_reducible refine (keepsBut_noteRestart (by decide) ..).2 ?_
    | with_reducible refine (keepsBut_raise (by decide) ..).2 ?_
    | with_reducible refine (keepsBut_at_ (by decide) ..).2 ?_
    | with_reducible refine (keepsBut_modMem (by decide) ..).2 ?_
    | with_reducible refine keepsBut_forEach_of (fun _ _ => ?_) ?_
    | with_reducible refine keepsBut_foldl_of (fun _ _ => ?_) ?_
    | with_reducible refine keepsBut_ite_of ?_ ?_
    | with_reducible refine keepsBut_ite_fst_of ?_ ?_
    | extract_lets
    | split
    | with_reducible intro _
    | dsimp only
    | (dsimp +zetaDelta only; split)

theorem execDmaHalt_frame (t : Nat) (channel : BitVec 8) (f : LineFault) (u : DmaUnit) (s : State) : answers (execDmaHalt t channel f u s) (keepsBut [.time, .comb, .links, .learned, .core, .host, .can, .prog, .recorder, .mem, .boot, .bist, .pwr, .freeCtr] s) := by
  unfold execDmaHalt
  repeat' first
    | with_reducible refine answers_next ?_
    | with_reducible refine answers_ite ?_ ?_
    | with_reducible exact keepsBut_refl _ _
    | with_reducible refine (keepsBut_discardUnit (by decide) ..).2 ?_
    | with_reducible refine (keepsBut_repairLine (by decide) ..).2 ?_
    | with_reducible refine (keepsBut_writeBack (by decide) ..).2 ?_
    | with_reducible refine (keepsBut_countLine (by decide) ..).2 ?_
    | with_reducible refine (keepsBut_raise (by decide) ..).2 ?_
    | with_reducible refine (keepsBut_at_ (by decide) ..).2 ?_
    | with_reducible refine (keepsBut_modMem (by decide) ..).2 ?_
    | with_reducible refine keepsBut_forEach_of (fun _ _ => ?_) ?_
    | with_reducible refine keepsBut_foldl_of (fun _ _ => ?_) ?_
    | with_reducible refine keepsBut_ite_of ?_ ?_
    | with_reducible refine keepsBut_ite_fst_of ?_ ?_
    | extract_lets
    | split
    | with_reducible intro _
    | dsimp only
    | (dsimp +zetaDelta only; split)

theorem execCorePairFail_frame (t : Nat) (p : Fin 2) (s : State) : answers (execCorePairFail t p s) (keepsBut [.time, .mem] s) := by
  unfold execCorePairFail
  repeat' first
    | with_reducible refine answers_next ?_
    | with_reducible refine answers_ite ?_ ?_
    | with_reducible exact keepsBut_refl _ _
    | with_reducible refine (keepsBut_failPair (by decide) ..).2 ?_
    | with_reducible refine (keepsBut_at_ (by decide) ..).2 ?_
    | with_reducible refine keepsBut_forEach_of (fun _ _ => ?_) ?_
    | with_reducible refine keepsBut_foldl_of (fun _ _ => ?_) ?_
    | with_reducible refine keepsBut_ite_of ?_ ?_
    | with_reducible refine keepsBut_ite_fst_of ?_ ?_
    | extract_lets
    | split
    | with_reducible intro _
    | dsimp only
    | (dsimp +zetaDelta only; split)

theorem execBistSlice_frame (t : Nat) (mv : BitVec 16) (clockOk : Bool) (result : Option (Bool × BitVec 32)) (s : State) : answers (execBistSlice t mv clockOk result s) (keepsBut [.time, .recorder, .mem, .bist] s) := by
  unfold execBistSlice
  repeat' first
    | with_reducible refine answers_next ?_
    | with_reducible refine answers_ite ?_ ?_
    | with_reducible exact keepsBut_refl _ _
    | with_reducible refine (keepsBut_endSlice (by decide) ..).2 ?_
    | with_reducible refine (keepsBut_advance (by decide) ..).2 ?_
    | with_reducible refine (keepsBut_sliceOutcome (by decide) ..).2 ?_
    | with_reducible refine (keepsBut_at_ (by decide) ..).2 ?_
    | with_reducible refine (keepsBut_modBist (by decide) ..).2 ?_
    | with_reducible refine keepsBut_forEach_of (fun _ _ => ?_) ?_
    | with_reducible refine keepsBut_foldl_of (fun _ _ => ?_) ?_
    | with_reducible refine keepsBut_ite_of ?_ ?_
    | with_reducible refine keepsBut_ite_fst_of ?_ ?_
    | extract_lets
    | split
    | with_reducible intro _
    | dsimp only
    | (dsimp +zetaDelta only; split)

theorem execBistSliceAbort_frame (v : VcoreRead) (s : State) : answers (execBistSliceAbort v s) (keepsBut [.time, .recorder, .bist] s) := by
  unfold execBistSliceAbort
  repeat' first
    | with_reducible refine answers_next ?_
    | with_reducible refine answers_ite ?_ ?_
    | with_reducible exact keepsBut_refl _ _
    | with_reducible refine (keepsBut_abortSlice (by decide) ..).2 ?_
    | with_reducible refine (keepsBut_at_ (by decide) ..).2 ?_
    | with_reducible refine keepsBut_forEach_of (fun _ _ => ?_) ?_
    | with_reducible refine keepsBut_foldl_of (fun _ _ => ?_) ?_
    | with_reducible refine keepsBut_ite_of ?_ ?_
    | with_reducible refine keepsBut_ite_fst_of ?_ ?_
    | extract_lets
    | split
    | with_reducible intro _
    | dsimp only
    | (dsimp +zetaDelta only; split)

theorem execDeepTestEnd_frame (t : Nat) (fails : BitVec 7) (detail : BitVec 32) (s : State) : answers (execDeepTestEnd t fails detail s) (keepsBut [.time, .comb, .links, .tagCtr, .forgs, .cells, .est, .surv, .learned, .reg, .disp, .therm, .guard, .core, .host, .can, .prog, .recorder, .mem, .boot, .upd, .bist, .pwr, .out] s) := by
  unfold execDeepTestEnd
  repeat' first
    | with_reducible refine answers_next ?_
    | with_reducible refine answers_ite ?_ ?_
    | with_reducible exact keepsBut_refl _ _
    | with_reducible refine (keepsBut_deepRecord (by decide) ..).2 ?_
    | with_reducible refine (keepsBut_mramTested (by decide) ..).2 ?_
    | with_reducible refine (keepsBut_reloadLanes (by decide) ..).2 ?_
    | with_reducible refine (keepsBut_reloadLearned (by decide) ..).2 ?_
    | with_reducible refine (keepsBut_bistRecord (by decide) ..).2 ?_
    | with_reducible refine (keepsBut_restartModule (by decide) ..).2 ?_
    | with_reducible refine (keepsBut_stageAll (by decide) ..).2 ?_
    | with_reducible refine (keepsBut_at_ (by decide) ..).2 ?_
    | with_reducible refine (keepsBut_modBist (by decide) ..).2 ?_
    | with_reducible refine keepsBut_forEach_of (fun _ _ => ?_) ?_
    | with_reducible refine keepsBut_foldl_of (fun _ _ => ?_) ?_
    | with_reducible refine keepsBut_ite_of ?_ ?_
    | with_reducible refine keepsBut_ite_fst_of ?_ ?_
    | extract_lets
    | split
    | with_reducible intro _
    | dsimp only
    | (dsimp +zetaDelta only; split)

theorem execRoundSupplySample_frame (t : Nat) (mv : List Nat) (input : Nat) (dom : List Nat) (s : State) : answers (execRoundSupplySample t mv input dom s) (keepsBut [.time, .recorder, .pwr] s) := by
  unfold execRoundSupplySample
  repeat' first
    | with_reducible refine answers_next ?_
    | with_reducible refine answers_ite ?_ ?_
    | with_reducible exact keepsBut_refl _ _
    | with_reducible refine (keepsBut_stand (by decide) ..).2 ?_
    | with_reducible refine (keepsBut_at_ (by decide) ..).2 ?_
    | with_reducible refine (keepsBut_modPwr (by decide) ..).2 ?_
    | with_reducible refine keepsBut_forEach_of (fun _ _ => ?_) ?_
    | with_reducible refine keepsBut_foldl_of (fun _ _ => ?_) ?_
    | with_reducible refine keepsBut_ite_of ?_ ?_
    | with_reducible refine keepsBut_ite_fst_of ?_ ?_
    | extract_lets
    | split
    | with_reducible intro _
    | dsimp only
    | (dsimp +zetaDelta only; split)

theorem execPfwNFall_frame (t : Nat) (step6 : Bool) (s : State) : answers (execPfwNFall t step6 s) (keepsBut [.time, .surv, .learned, .host, .recorder, .boot, .pwr, .out] s) := by
  unfold execPfwNFall
  repeat' first
    | with_reducible refine answers_next ?_
    | with_reducible refine answers_ite ?_ ?_
    | with_reducible exact keepsBut_refl _ _
    | with_reducible refine (keepsBut_abandonFlash (by decide) ..).2 ?_
    | with_reducible refine (keepsBut_writeAll (by decide) ..).2 ?_
    | with_reducible refine (keepsBut_updJournal (by decide) ..).2 ?_
    | with_reducible refine (keepsBut_raise (by decide) ..).2 ?_
    | with_reducible refine (keepsBut_at_ (by decide) ..).2 ?_
    | with_reducible refine (keepsBut_modPwr (by decide) ..).2 ?_
    | with_reducible refine (keepsBut_modBoot (by decide) ..).2 ?_
    | with_reducible refine keepsBut_forEach_of (fun _ _ => ?_) ?_
    | with_reducible refine keepsBut_foldl_of (fun _ _ => ?_) ?_
    | with_reducible refine keepsBut_ite_of ?_ ?_
    | with_reducible refine keepsBut_ite_fst_of ?_ ?_
    | extract_lets
    | split
    | with_reducible intro _
    | dsimp only
    | (dsimp +zetaDelta only; split)

theorem execPowerFailSequenceEnd_frame (t : Nat) (high : Bool) (vmain : BitVec 16) (s : State) : answers (execPowerFailSequenceEnd t high vmain s) (keepsBut [.time, .recorder, .boot, .pwr] s) := by
  unfold execPowerFailSequenceEnd
  repeat' first
    | with_reducible refine answers_next ?_
    | with_reducible refine answers_ite ?_ ?_
    | with_reducible exact keepsBut_refl _ _
    | with_reducible refine (keepsBut_clear (by decide) ..).2 ?_
    | with_reducible refine (keepsBut_at_ (by decide) ..).2 ?_
    | with_reducible refine (keepsBut_modPwr (by decide) ..).2 ?_
    | with_reducible refine (keepsBut_modBoot (by decide) ..).2 ?_
    | with_reducible refine keepsBut_forEach_of (fun _ _ => ?_) ?_
    | with_reducible refine keepsBut_foldl_of (fun _ _ => ?_) ?_
    | with_reducible refine keepsBut_ite_of ?_ ?_
    | with_reducible refine keepsBut_ite_fst_of ?_ ?_
    | extract_lets
    | split
    | with_reducible intro _
    | dsimp only
    | (dsimp +zetaDelta only; split)

theorem execVmainLoss_frame (t : Nat) (s : State) : answers (execVmainLoss t s) (keepsBut [.time, .comb, .links, .tagCtr, .forgs, .cells, .est, .surv, .reg, .disp, .therm, .guard, .core, .host, .can, .prog, .recorder, .mem, .boot, .upd, .bist, .pwr] s) := by
  unfold execVmainLoss
  repeat' first
    | with_reducible refine answers_next ?_
    | with_reducible refine answers_ite ?_ ?_
    | with_reducible exact keepsBut_refl _ _
    | with_reducible refine (keepsBut_modGuard (by decide) ..).2 ?_
    | with_reducible refine (keepsBut_mainReset (by decide) ..).2 ?_
    | with_reducible refine (keepsBut_at_ (by decide) ..).2 ?_
    | with_reducible refine (keepsBut_modPwr (by decide) ..).2 ?_
    | with_reducible refine (keepsBut_modTime (by decide) ..).2 ?_
    | with_reducible refine keepsBut_forEach_of (fun _ _ => ?_) ?_
    | with_reducible refine keepsBut_foldl_of (fun _ _ => ?_) ?_
    | with_reducible refine keepsBut_ite_of ?_ ?_
    | with_reducible refine keepsBut_ite_fst_of ?_ ?_
    | extract_lets
    | split
    | with_reducible intro _
    | dsimp only
    | (dsimp +zetaDelta only; split)

theorem execVmainReturn_frame (s : State) : answers (execVmainReturn s) (keepsBut [.time, .comb, .links, .tagCtr, .forgs, .cells, .est, .surv, .reg, .disp, .therm, .guard, .core, .host, .can, .prog, .recorder, .mem, .boot, .upd, .bist, .pwr] s) := by
  unfold execVmainReturn
  repeat' first
    | with_reducible refine answers_next ?_
    | with_reducible refine answers_ite ?_ ?_
    | with_reducible exact keepsBut_refl _ _
    | with_reducible refine (keepsBut_mainReset (by decide) ..).2 ?_
    | with_reducible refine (keepsBut_stepTime (by decide) ..).2 ?_
    | with_reducible refine (keepsBut_stageAll (by decide) ..).2 ?_
    | with_reducible refine (keepsBut_modPwr (by decide) ..).2 ?_
    | with_reducible refine keepsBut_forEach_of (fun _ _ => ?_) ?_
    | with_reducible refine keepsBut_foldl_of (fun _ _ => ?_) ?_
    | with_reducible refine keepsBut_ite_of ?_ ?_
    | with_reducible refine keepsBut_ite_fst_of ?_ ?_
    | extract_lets
    | split
    | with_reducible intro _
    | dsimp only
    | (dsimp +zetaDelta only; split)

theorem execPorNAssert_frame (t : Nat) (s : State) : answers (execPorNAssert t s) (keepsBut [.time, .comb, .links, .tagCtr, .forgs, .cells, .est, .surv, .reg, .disp, .therm, .guard, .core, .host, .can, .prog, .recorder, .mem, .boot, .upd, .bist, .pwr] s) := by
  unfold execPorNAssert
  repeat' first
    | with_reducible refine answers_next ?_
    | with_reducible refine answers_ite ?_ ?_
    | with_reducible exact keepsBut_refl _ _
    | with_reducible refine (keepsBut_mainReset (by decide) ..).2 ?_
    | with_reducible refine (keepsBut_outputsOff (by decide) ..).2 ?_
    | with_reducible refine (keepsBut_at_ (by decide) ..).2 ?_
    | with_reducible refine (keepsBut_modBoot (by decide) ..).2 ?_
    | with_reducible refine (keepsBut_modGuard (by decide) ..).2 ?_
    | with_reducible refine keepsBut_forEach_of (fun _ _ => ?_) ?_
    | with_reducible refine keepsBut_foldl_of (fun _ _ => ?_) ?_
    | with_reducible refine keepsBut_ite_of ?_ ?_
    | with_reducible refine keepsBut_ite_fst_of ?_ ?_
    | extract_lets
    | split
    | with_reducible intro _
    | dsimp only
    | (dsimp +zetaDelta only; split)

theorem execPorNRelease_frame (t : Nat) (resetHigh pfwHigh : Bool) (s : State) : answers (execPorNRelease t resetHigh pfwHigh s) (keepsBut [.time, .comb, .links, .tagCtr, .forgs, .cells, .est, .surv, .reg, .disp, .therm, .guard, .core, .host, .can, .prog, .recorder, .mem, .boot, .upd, .bist, .pwr] s) := by
  unfold execPorNRelease
  repeat' first
    | with_reducible refine answers_next ?_
    | with_reducible refine answers_ite ?_ ?_
    | with_reducible exact keepsBut_refl _ _
    | with_reducible refine (keepsBut_setGLatch (by decide) ..).2 ?_
    | with_reducible refine (keepsBut_gRaise (by decide) ..).2 ?_
    | with_reducible refine (keepsBut_mainReset (by decide) ..).2 ?_
    | with_reducible refine (keepsBut_at_ (by decide) ..).2 ?_
    | with_reducible refine (keepsBut_modPwr (by decide) ..).2 ?_
    | with_reducible refine (keepsBut_modBoot (by decide) ..).2 ?_
    | with_reducible refine (keepsBut_modGuard (by decide) ..).2 ?_
    | with_reducible refine keepsBut_forEach_of (fun _ _ => ?_) ?_
    | with_reducible refine keepsBut_foldl_of (fun _ _ => ?_) ?_
    | with_reducible refine keepsBut_ite_of ?_ ?_
    | with_reducible refine keepsBut_ite_fst_of ?_ ?_
    | extract_lets
    | split
    | with_reducible intro _
    | dsimp only
    | (dsimp +zetaDelta only; split)

theorem execChangeMode_frame (t : Nat) (r : Role) (code : BitVec 8) (s : State) : answers (execChangeMode t r code s) (keepsBut [.time, .recorder, .boot] s) := by
  unfold execChangeMode
  repeat' first
    | with_reducible refine answers_next ?_
    | with_reducible refine answers_ite ?_ ?_
    | with_reducible exact keepsBut_refl _ _
    | with_reducible refine (keepsBut_cmdChangeMode (by decide) ..).2 ?_
    | with_reducible refine (keepsBut_at_ (by decide) ..).2 ?_
    | with_reducible refine keepsBut_forEach_of (fun _ _ => ?_) ?_
    | with_reducible refine keepsBut_foldl_of (fun _ _ => ?_) ?_
    | with_reducible refine keepsBut_ite_of ?_ ?_
    | with_reducible refine keepsBut_ite_fst_of ?_ ?_
    | extract_lets
    | split
    | with_reducible intro _
    | dsimp only
    | (dsimp +zetaDelta only; split)

theorem execRestartModule_frame (t : Nat) (s : State) : answers (execRestartModule t s) (keepsBut [.time, .comb, .links, .tagCtr, .forgs, .cells, .est, .surv, .reg, .disp, .therm, .guard, .core, .host, .can, .prog, .recorder, .mem, .boot, .upd, .bist, .pwr, .out] s) := by
  unfold execRestartModule
  repeat' first
    | with_reducible refine answers_next ?_
    | with_reducible refine answers_ite ?_ ?_
    | with_reducible exact keepsBut_refl _ _
    | with_reducible refine (keepsBut_restartModule (by decide) ..).2 ?_
    | with_reducible refine (keepsBut_at_ (by decide) ..).2 ?_
    | with_reducible refine keepsBut_forEach_of (fun _ _ => ?_) ?_
    | with_reducible refine keepsBut_foldl_of (fun _ _ => ?_) ?_
    | with_reducible refine keepsBut_ite_of ?_ ?_
    | with_reducible refine keepsBut_ite_fst_of ?_ ?_
    | extract_lets
    | split
    | with_reducible intro _
    | dsimp only
    | (dsimp +zetaDelta only; split)

theorem execRenewNetworkKey_frame (t : Nat) (n : Fin 4) (s : State) : answers (execRenewNetworkKey t n s) (keepsBut [.time, .links, .tagCtr, .recorder, .boot, .freeCtr] s) := by
  unfold execRenewNetworkKey
  repeat' first
    | with_reducible refine answers_next ?_
    | with_reducible refine answers_ite ?_ ?_
    | with_reducible exact keepsBut_refl _ _
    | with_reducible refine (keepsBut_cmdRenewKey (by decide) ..).2 ?_
    | with_reducible refine (keepsBut_at_ (by decide) ..).2 ?_
    | with_reducible refine keepsBut_forEach_of (fun _ _ => ?_) ?_
    | with_reducible refine keepsBut_foldl_of (fun _ _ => ?_) ?_
    | with_reducible refine keepsBut_ite_of ?_ ?_
    | with_reducible refine keepsBut_ite_fst_of ?_ ?_
    | extract_lets
    | split
    | with_reducible intro _
    | dsimp only
    | (dsimp +zetaDelta only; split)

theorem execReleaseRosterEntry_frame (t : Nat) (n : Fin 4) (b : Fin 36) (replaced : Bool) (s : State) : answers (execReleaseRosterEntry t n b replaced s) (keepsBut [.time, .links, .tagCtr, .forgs] s) := by
  unfold execReleaseRosterEntry
  repeat' first
    | with_reducible refine answers_next ?_
    | with_reducible refine answers_ite ?_ ?_
    | with_reducible exact keepsBut_refl _ _
    | with_reducible refine (keepsBut_cmdReleaseEntry (by decide) ..).2 ?_
    | with_reducible refine (keepsBut_at_ (by decide) ..).2 ?_
    | with_reducible refine keepsBut_forEach_of (fun _ _ => ?_) ?_
    | with_reducible refine keepsBut_foldl_of (fun _ _ => ?_) ?_
    | with_reducible refine keepsBut_ite_of ?_ ?_
    | with_reducible refine keepsBut_ite_fst_of ?_ ?_
    | extract_lets
    | split
    | with_reducible intro _
    | dsimp only
    | (dsimp +zetaDelta only; split)

theorem execOpenWireTest_frame (t : Nat) (n : Fin 4) (b : Fin 36) (k : Fin 17) (s : State) : answers (execOpenWireTest t n b k s) (keepsBut [.time, .links, .tagCtr, .forgs] s) := by
  unfold execOpenWireTest
  repeat' first
    | with_reducible refine answers_next ?_
    | with_reducible refine answers_ite ?_ ?_
    | with_reducible exact keepsBut_refl _ _
    | with_reducible refine (keepsBut_cmdOpenWire (by decide) ..).2 ?_
    | with_reducible refine (keepsBut_at_ (by decide) ..).2 ?_
    | with_reducible refine keepsBut_forEach_of (fun _ _ => ?_) ?_
    | with_reducible refine keepsBut_foldl_of (fun _ _ => ?_) ?_
    | with_reducible refine keepsBut_ite_of ?_ ?_
    | with_reducible refine keepsBut_ite_fst_of ?_ ?_
    | extract_lets
    | split
    | with_reducible intro _
    | dsimp only
    | (dsimp +zetaDelta only; split)

theorem execConfirmScv_frame (t : Nat) (gen scv : BitVec 32) (s : State) : answers (execConfirmScv t gen scv s) (keepsBut [.time, .recorder, .boot] s) := by
  unfold execConfirmScv
  repeat' first
    | with_reducible refine answers_next ?_
    | with_reducible refine answers_ite ?_ ?_
    | with_reducible exact keepsBut_refl _ _
    | with_reducible refine (keepsBut_cmdConfirm (by decide) ..).2 ?_
    | with_reducible refine (keepsBut_at_ (by decide) ..).2 ?_
    | with_reducible refine keepsBut_forEach_of (fun _ _ => ?_) ?_
    | with_reducible refine keepsBut_foldl_of (fun _ _ => ?_) ?_
    | with_reducible refine keepsBut_ite_of ?_ ?_
    | with_reducible refine keepsBut_ite_fst_of ?_ ?_
    | extract_lets
    | split
    | with_reducible intro _
    | dsimp only
    | (dsimp +zetaDelta only; split)

theorem execRunDeepSelfTest_frame (t : Nat) (block : BitVec 8) (s : State) : answers (execRunDeepSelfTest t block s) (keepsBut [.time, .est, .reg, .guard, .recorder, .bist] s) := by
  unfold execRunDeepSelfTest
  repeat' first
    | with_reducible refine answers_next ?_
    | with_reducible refine answers_ite ?_ ?_
    | with_reducible exact keepsBut_refl _ _
    | with_reducible refine (keepsBut_cmdDeepTest (by decide) ..).2 ?_
    | with_reducible refine (keepsBut_at_ (by decide) ..).2 ?_
    | with_reducible refine keepsBut_forEach_of (fun _ _ => ?_) ?_
    | with_reducible refine keepsBut_foldl_of (fun _ _ => ?_) ?_
    | with_reducible refine keepsBut_ite_of ?_ ?_
    | with_reducible refine keepsBut_ite_fst_of ?_ ?_
    | extract_lets
    | split
    | with_reducible intro _
    | dsimp only
    | (dsimp +zetaDelta only; split)

theorem execUpdateStagingIdle_frame (t : Nat) (s : State) : answers (execUpdateStagingIdle t s) (keepsBut [.time, .links, .tagCtr, .forgs, .recorder, .upd] s) := by
  unfold execUpdateStagingIdle
  repeat' first
    | with_reducible refine answers_next ?_
    | with_reducible refine answers_ite ?_ ?_
    | with_reducible exact keepsBut_refl _ _
    | with_reducible refine (keepsBut_discardStaging (by decide) ..).2 ?_
    | with_reducible refine (keepsBut_raise (by decide) ..).2 ?_
    | with_reducible refine (keepsBut_at_ (by decide) ..).2 ?_
    | with_reducible refine keepsBut_forEach_of (fun _ _ => ?_) ?_
    | with_reducible refine keepsBut_foldl_of (fun _ _ => ?_) ?_
    | with_reducible refine keepsBut_ite_of ?_ ?_
    | with_reducible refine keepsBut_ite_fst_of ?_ ?_
    | extract_lets
    | split
    | with_reducible intro _
    | dsimp only
    | (dsimp +zetaDelta only; split)

theorem execAbortUpdate_frame (t : Nat) (s : State) : answers (execAbortUpdate t s) (keepsBut [.time, .links, .tagCtr, .forgs, .recorder, .upd] s) := by
  unfold execAbortUpdate
  repeat' first
    | with_reducible refine answers_next ?_
    | with_reducible refine answers_ite ?_ ?_
    | with_reducible exact keepsBut_refl _ _
    | with_reducible refine (keepsBut_cmdAbortUpdate (by decide) ..).2 ?_
    | with_reducible refine (keepsBut_at_ (by decide) ..).2 ?_
    | with_reducible refine keepsBut_forEach_of (fun _ _ => ?_) ?_
    | with_reducible refine keepsBut_foldl_of (fun _ _ => ?_) ?_
    | with_reducible refine keepsBut_ite_of ?_ ?_
    | with_reducible refine keepsBut_ite_fst_of ?_ ?_
    | extract_lets
    | split
    | with_reducible intro _
    | dsimp only
    | (dsimp +zetaDelta only; split)

theorem execForagerStagingFail_frame (t : Nat) (n : Fin 4) (b : Fin 36) (s : State) : answers (execForagerStagingFail t n b s) (keepsBut [.time, .forgs, .recorder] s) := by
  unfold execForagerStagingFail
  repeat' first
    | with_reducible refine answers_next ?_
    | with_reducible refine answers_ite ?_ ?_
    | with_reducible exact keepsBut_refl _ _
    | with_reducible refine (keepsBut_stand (by decide) ..).2 ?_
    | with_reducible refine (keepsBut_at_ (by decide) ..).2 ?_
    | with_reducible refine (keepsBut_updForg (by decide) ..).2 ?_
    | with_reducible refine keepsBut_forEach_of (fun _ _ => ?_) ?_
    | with_reducible refine keepsBut_foldl_of (fun _ _ => ?_) ?_
    | with_reducible refine keepsBut_ite_of ?_ ?_
    | with_reducible refine keepsBut_ite_fst_of ?_ ?_
    | extract_lets
    | split
    | with_reducible intro _
    | dsimp only
    | (dsimp +zetaDelta only; split)

theorem execActivateUpdate_frame (t : Nat) (version : BitVec 32) (s : State) : answers (execActivateUpdate t version s) (keepsBut [.time, .recorder, .upd] s) := by
  unfold execActivateUpdate
  repeat' first
    | with_reducible refine answers_next ?_
    | with_reducible refine answers_ite ?_ ?_
    | with_reducible exact keepsBut_refl _ _
    | with_reducible refine (keepsBut_cmdActivateUpdate (by decide) ..).2 ?_
    | with_reducible refine (keepsBut_at_ (by decide) ..).2 ?_
    | with_reducible refine keepsBut_forEach_of (fun _ _ => ?_) ?_
    | with_reducible refine keepsBut_foldl_of (fun _ _ => ?_) ?_
    | with_reducible refine keepsBut_ite_of ?_ ?_
    | with_reducible refine keepsBut_ite_fst_of ?_ ?_
    | extract_lets
    | split
    | with_reducible intro _
    | dsimp only
    | (dsimp +zetaDelta only; split)

theorem execActivationSequence_frame (t : Nat) (s : State) : answers (execActivationSequence t s) (keepsBut [.time, .comb, .links, .tagCtr, .forgs, .cells, .est, .surv, .learned, .reg, .disp, .therm, .guard, .core, .host, .can, .prog, .recorder, .mem, .boot, .upd, .bist, .pwr, .out] s) := by
  unfold execActivationSequence
  repeat' first
    | with_reducible refine answers_next ?_
    | with_reducible refine answers_ite ?_ ?_
    | with_reducible exact keepsBut_refl _ _
    | with_reducible refine (keepsBut_activationFrame (by decide) ..).2 ?_
    | with_reducible refine (keepsBut_at_ (by decide) ..).2 ?_
    | with_reducible refine keepsBut_forEach_of (fun _ _ => ?_) ?_
    | with_reducible refine keepsBut_foldl_of (fun _ _ => ?_) ?_
    | with_reducible refine keepsBut_ite_of ?_ ?_
    | with_reducible refine keepsBut_ite_fst_of ?_ ?_
    | extract_lets
    | split
    | with_reducible intro _
    | dsimp only
    | (dsimp +zetaDelta only; split)

theorem execUpdateConfirmation_frame (t : Nat) (seen : BitVec 7) (s : State) : answers (execUpdateConfirmation t seen s) (keepsBut [.time, .recorder, .upd] s) := by
  unfold execUpdateConfirmation
  repeat' first
    | with_reducible refine answers_next ?_
    | with_reducible refine answers_ite ?_ ?_
    | with_reducible exact keepsBut_refl _ _
    | with_reducible refine (keepsBut_settleUpdate (by decide) ..).2 ?_
    | with_reducible refine (keepsBut_clear (by decide) ..).2 ?_
    | with_reducible refine (keepsBut_raise (by decide) ..).2 ?_
    | with_reducible refine (keepsBut_at_ (by decide) ..).2 ?_
    | with_reducible refine (keepsBut_modUpd (by decide) ..).2 ?_
    | with_reducible refine keepsBut_forEach_of (fun _ _ => ?_) ?_
    | with_reducible refine keepsBut_foldl_of (fun _ _ => ?_) ?_
    | with_reducible refine keepsBut_ite_of ?_ ?_
    | with_reducible refine keepsBut_ite_fst_of ?_ ?_
    | extract_lets
    | split
    | with_reducible intro _
    | dsimp only
    | (dsimp +zetaDelta only; split)

theorem execUpdateRollback_frame (t : Nat) (s : State) : answers (execUpdateRollback t s) (keepsBut [.time, .links, .tagCtr, .disp, .recorder, .upd] s) := by
  unfold execUpdateRollback
  repeat' first
    | with_reducible refine answers_next ?_
    | with_reducible refine answers_ite ?_ ?_
    | with_reducible exact keepsBut_refl _ _
    | with_reducible refine (keepsBut_returnForagers (by decide) ..).2 ?_
    | with_reducible refine (keepsBut_stand (by decide) ..).2 ?_
    | with_reducible refine (keepsBut_at_ (by decide) ..).2 ?_
    | with_reducible refine (keepsBut_modUpd (by decide) ..).2 ?_
    | with_reducible refine (keepsBut_modDisp (by decide) ..).2 ?_
    | with_reducible refine keepsBut_forEach_of (fun _ _ => ?_) ?_
    | with_reducible refine keepsBut_foldl_of (fun _ _ => ?_) ?_
    | with_reducible refine keepsBut_ite_of ?_ ?_
    | with_reducible refine keepsBut_ite_fst_of ?_ ?_
    | extract_lets
    | split
    | with_reducible intro _
    | dsimp only
    | (dsimp +zetaDelta only; split)

theorem execIcmpEcho_frame (t : Nat) (addr : NetFrom) (data : List Byte) (s : State) : answers (execIcmpEcho t addr data s) (keepsBut [.time, .host, .out] s) := by
  unfold execIcmpEcho
  repeat' first
    | with_reducible refine answers_next ?_
    | with_reducible refine answers_ite ?_ ?_
    | with_reducible exact keepsBut_refl _ _
    | with_reducible refine (keepsBut_noteFrame (by decide) ..).2 ?_
    | with_reducible refine (keepsBut_at_ (by decide) ..).2 ?_
    | with_reducible refine (keepsBut_send (by decide) ..).2 ?_
    | with_reducible refine (keepsBut_modHost (by decide) ..).2 ?_
    | with_reducible refine keepsBut_forEach_of (fun _ _ => ?_) ?_
    | with_reducible refine keepsBut_foldl_of (fun _ _ => ?_) ?_
    | with_reducible refine keepsBut_ite_of ?_ ?_
    | with_reducible refine keepsBut_ite_fst_of ?_ ?_
    | extract_lets
    | split
    | with_reducible intro _
    | dsimp only
    | (dsimp +zetaDelta only; split)

theorem execArpRequest_frame (t : Nat) (from_ : NetFrom) (target : Nat) (s : State) : answers (execArpRequest t from_ target s) (keepsBut [.time, .host, .out] s) := by
  unfold execArpRequest
  repeat' first
    | with_reducible refine answers_next ?_
    | with_reducible refine answers_ite ?_ ?_
    | with_reducible exact keepsBut_refl _ _
    | with_reducible refine (keepsBut_arpEnter (by decide) ..).2 ?_
    | with_reducible refine (keepsBut_noteFrame (by decide) ..).2 ?_
    | with_reducible refine (keepsBut_at_ (by decide) ..).2 ?_
    | with_reducible refine (keepsBut_send (by decide) ..).2 ?_
    | with_reducible refine (keepsBut_modHost (by decide) ..).2 ?_
    | with_reducible refine keepsBut_forEach_of (fun _ _ => ?_) ?_
    | with_reducible refine keepsBut_foldl_of (fun _ _ => ?_) ?_
    | with_reducible refine keepsBut_ite_of ?_ ?_
    | with_reducible refine keepsBut_ite_fst_of ?_ ?_
    | extract_lets
    | split
    | with_reducible intro _
    | dsimp only
    | (dsimp +zetaDelta only; split)

theorem execPrpSupervision_frame (t : Nat) (heard : BitVec 2) (s : State) : answers (execPrpSupervision t heard s) (keepsBut [.time, .host, .recorder, .out] s) := by
  unfold execPrpSupervision
  repeat' first
    | with_reducible refine answers_next ?_
    | with_reducible refine answers_ite ?_ ?_
    | with_reducible exact keepsBut_refl _ _
    | with_reducible refine (keepsBut_stand (by decide) ..).2 ?_
    | with_reducible refine (keepsBut_at_ (by decide) ..).2 ?_
    | with_reducible refine (keepsBut_send (by decide) ..).2 ?_
    | with_reducible refine (keepsBut_modHost (by decide) ..).2 ?_
    | with_reducible refine keepsBut_forEach_of (fun _ _ => ?_) ?_
    | with_reducible refine keepsBut_foldl_of (fun _ _ => ?_) ?_
    | with_reducible refine keepsBut_ite_of ?_ ?_
    | with_reducible refine keepsBut_ite_fst_of ?_ ?_
    | extract_lets
    | split
    | with_reducible intro _
    | dsimp only
    | (dsimp +zetaDelta only; split)

theorem execPush_frame (t : Nat) (k : Fin 8) (id : Nat) (ends : List Nat) (s : State) : answers (execPush t k id ends s) (keepsBut [.time, .host, .recorder, .out] s) := by
  unfold execPush
  repeat' first
    | with_reducible refine answers_next ?_
    | with_reducible refine answers_ite ?_ ?_
    | with_reducible exact keepsBut_refl _ _
    | with_reducible refine (keepsBut_noteRepair (by decide) ..).2 ?_
    | with_reducible refine (keepsBut_updSlot (by decide) ..).2 ?_
    | with_reducible refine (keepsBut_raiseRound (by decide) ..).2 ?_
    | with_reducible refine (keepsBut_at_ (by decide) ..).2 ?_
    | with_reducible refine (keepsBut_send (by decide) ..).2 ?_
    | with_reducible refine (keepsBut_modHost (by decide) ..).2 ?_
    | with_reducible refine keepsBut_forEach_of (fun _ _ => ?_) ?_
    | with_reducible refine keepsBut_foldl_of (fun _ _ => ?_) ?_
    | with_reducible refine keepsBut_ite_of ?_ ?_
    | with_reducible refine keepsBut_ite_fst_of ?_ ?_
    | extract_lets
    | split
    | with_reducible intro _
    | dsimp only
    | (dsimp +zetaDelta only; split)

theorem execFhpDatagram_frame (t addr port : Nat) (bytes : List Byte) (env : FhpEnv) (s : State) : answers (execFhpDatagram t addr port bytes env s) (keepsBut [.time, .comb, .links, .tagCtr, .forgs, .cells, .est, .surv, .learned, .reg, .disp, .therm, .guard, .core, .host, .can, .prog, .recorder, .mem, .boot, .upd, .bist, .pwr, .out, .freeCtr] s) := by
  unfold execFhpDatagram
  repeat' first
    | with_reducible refine answers_next ?_
    | with_reducible refine answers_ite ?_ ?_
    | with_reducible exact keepsBut_refl _ _
    | with_reducible refine (keepsBut_noteFrame (by decide) ..).2 ?_
    | with_reducible refine (keepsBut_receive (by decide) ..).2 ?_
    | with_reducible refine (keepsBut_at_ (by decide) ..).2 ?_
    | with_reducible refine keepsBut_forEach_of (fun _ _ => ?_) ?_
    | with_reducible refine keepsBut_foldl_of (fun _ _ => ?_) ?_
    | with_reducible refine keepsBut_ite_of ?_ ?_
    | with_reducible refine keepsBut_ite_fst_of ?_ ?_
    | extract_lets
    | split
    | with_reducible intro _
    | dsimp only
    | (dsimp +zetaDelta only; split)

theorem execOpenSession_frame (t addr port seq : Nat) (pay tag : List Byte) (s : State) : answers (execOpenSession t addr port seq pay tag s) (keepsBut [.time, .host, .recorder, .out, .freeCtr] s) := by
  unfold execOpenSession
  repeat' first
    | with_reducible refine answers_next ?_
    | with_reducible refine answers_ite ?_ ?_
    | with_reducible exact keepsBut_refl _ _
    | with_reducible refine (keepsBut_handleOpen (by decide) ..).2 ?_
    | with_reducible refine (keepsBut_at_ (by decide) ..).2 ?_
    | with_reducible refine keepsBut_forEach_of (fun _ _ => ?_) ?_
    | with_reducible refine keepsBut_foldl_of (fun _ _ => ?_) ?_
    | with_reducible refine keepsBut_ite_of ?_ ?_
    | with_reducible refine keepsBut_ite_fst_of ?_ ?_
    | extract_lets
    | split
    | with_reducible intro _
    | dsimp only
    | (dsimp +zetaDelta only; split)

theorem execClose_frame (t id seq : Nat) (s : State) : answers (execClose t id seq s) (keepsBut [.time, .comb, .links, .tagCtr, .forgs, .cells, .est, .surv, .learned, .reg, .disp, .therm, .guard, .core, .host, .can, .prog, .recorder, .mem, .boot, .upd, .bist, .pwr, .out, .freeCtr] s) := by
  unfold execClose
  repeat' first
    | with_reducible refine answers_next ?_
    | with_reducible refine answers_ite ?_ ?_
    | with_reducible exact keepsBut_refl _ _
    | with_reducible refine (keepsBut_request (by decide) ..).2 ?_
    | with_reducible refine keepsBut_forEach_of (fun _ _ => ?_) ?_
    | with_reducible refine keepsBut_foldl_of (fun _ _ => ?_) ?_
    | with_reducible refine keepsBut_ite_of ?_ ?_
    | with_reducible refine keepsBut_ite_fst_of ?_ ?_
    | extract_lets
    | split
    | with_reducible intro _
    | dsimp only
    | (dsimp +zetaDelta only; split)

theorem execKeepalive_frame (t id seq : Nat) (s : State) : answers (execKeepalive t id seq s) (keepsBut [.time, .comb, .links, .tagCtr, .forgs, .cells, .est, .surv, .learned, .reg, .disp, .therm, .guard, .core, .host, .can, .prog, .recorder, .mem, .boot, .upd, .bist, .pwr, .out, .freeCtr] s) := by
  unfold execKeepalive
  repeat' first
    | with_reducible refine answers_next ?_
    | with_reducible refine answers_ite ?_ ?_
    | with_reducible exact keepsBut_refl _ _
    | with_reducible refine (keepsBut_request (by decide) ..).2 ?_
    | with_reducible refine keepsBut_forEach_of (fun _ _ => ?_) ?_
    | with_reducible refine keepsBut_foldl_of (fun _ _ => ?_) ?_
    | with_reducible refine keepsBut_ite_of ?_ ?_
    | with_reducible refine keepsBut_ite_fst_of ?_ ?_
    | extract_lets
    | split
    | with_reducible intro _
    | dsimp only
    | (dsimp +zetaDelta only; split)

theorem execReadItems_frame (t id seq : Nat) (pay : List Byte) (ends : List Nat) (s : State) : answers (execReadItems t id seq pay ends s) (keepsBut [.time, .comb, .links, .tagCtr, .forgs, .cells, .est, .surv, .learned, .reg, .disp, .therm, .guard, .core, .host, .can, .prog, .recorder, .mem, .boot, .upd, .bist, .pwr, .out, .freeCtr] s) := by
  unfold execReadItems
  repeat' first
    | with_reducible refine answers_next ?_
    | with_reducible refine answers_ite ?_ ?_
    | with_reducible exact keepsBut_refl _ _
    | with_reducible refine (keepsBut_request (by decide) ..).2 ?_
    | with_reducible refine keepsBut_forEach_of (fun _ _ => ?_) ?_
    | with_reducible refine keepsBut_foldl_of (fun _ _ => ?_) ?_
    | with_reducible refine keepsBut_ite_of ?_ ?_
    | with_reducible refine keepsBut_ite_fst_of ?_ ?_
    | extract_lets
    | split
    | with_reducible intro _
    | dsimp only
    | (dsimp +zetaDelta only; split)

theorem execReadSlots_frame (t id seq : Nat) (pay : List Byte) (ends : List Nat) (s : State) : answers (execReadSlots t id seq pay ends s) (keepsBut [.time, .comb, .links, .tagCtr, .forgs, .cells, .est, .surv, .learned, .reg, .disp, .therm, .guard, .core, .host, .can, .prog, .recorder, .mem, .boot, .upd, .bist, .pwr, .out, .freeCtr] s) := by
  unfold execReadSlots
  repeat' first
    | with_reducible refine answers_next ?_
    | with_reducible refine answers_ite ?_ ?_
    | with_reducible exact keepsBut_refl _ _
    | with_reducible refine (keepsBut_request (by decide) ..).2 ?_
    | with_reducible refine keepsBut_forEach_of (fun _ _ => ?_) ?_
    | with_reducible refine keepsBut_foldl_of (fun _ _ => ?_) ?_
    | with_reducible refine keepsBut_ite_of ?_ ?_
    | with_reducible refine keepsBut_ite_fst_of ?_ ?_
    | extract_lets
    | split
    | with_reducible intro _
    | dsimp only
    | (dsimp +zetaDelta only; split)

theorem execReadMap_frame (t id seq : Nat) (pay : List Byte) (s : State) : answers (execReadMap t id seq pay s) (keepsBut [.time, .comb, .links, .tagCtr, .forgs, .cells, .est, .surv, .learned, .reg, .disp, .therm, .guard, .core, .host, .can, .prog, .recorder, .mem, .boot, .upd, .bist, .pwr, .out, .freeCtr] s) := by
  unfold execReadMap
  repeat' first
    | with_reducible refine answers_next ?_
    | with_reducible refine answers_ite ?_ ?_
    | with_reducible exact keepsBut_refl _ _
    | with_reducible refine (keepsBut_request (by decide) ..).2 ?_
    | with_reducible refine keepsBut_forEach_of (fun _ _ => ?_) ?_
    | with_reducible refine keepsBut_foldl_of (fun _ _ => ?_) ?_
    | with_reducible refine keepsBut_ite_of ?_ ?_
    | with_reducible refine keepsBut_ite_fst_of ?_ ?_
    | extract_lets
    | split
    | with_reducible intro _
    | dsimp only
    | (dsimp +zetaDelta only; split)

theorem execSubscribe_frame (t id seq : Nat) (pay : List Byte) (s : State) : answers (execSubscribe t id seq pay s) (keepsBut [.time, .comb, .links, .tagCtr, .forgs, .cells, .est, .surv, .learned, .reg, .disp, .therm, .guard, .core, .host, .can, .prog, .recorder, .mem, .boot, .upd, .bist, .pwr, .out, .freeCtr] s) := by
  unfold execSubscribe
  repeat' first
    | with_reducible refine answers_next ?_
    | with_reducible refine answers_ite ?_ ?_
    | with_reducible exact keepsBut_refl _ _
    | with_reducible refine (keepsBut_request (by decide) ..).2 ?_
    | with_reducible refine keepsBut_forEach_of (fun _ _ => ?_) ?_
    | with_reducible refine keepsBut_foldl_of (fun _ _ => ?_) ?_
    | with_reducible refine keepsBut_ite_of ?_ ?_
    | with_reducible refine keepsBut_ite_fst_of ?_ ?_
    | extract_lets
    | split
    | with_reducible intro _
    | dsimp only
    | (dsimp +zetaDelta only; split)

theorem execUnsubscribe_frame (t id seq : Nat) (pay : List Byte) (s : State) : answers (execUnsubscribe t id seq pay s) (keepsBut [.time, .comb, .links, .tagCtr, .forgs, .cells, .est, .surv, .learned, .reg, .disp, .therm, .guard, .core, .host, .can, .prog, .recorder, .mem, .boot, .upd, .bist, .pwr, .out, .freeCtr] s) := by
  unfold execUnsubscribe
  repeat' first
    | with_reducible refine answers_next ?_
    | with_reducible refine answers_ite ?_ ?_
    | with_reducible exact keepsBut_refl _ _
    | with_reducible refine (keepsBut_request (by decide) ..).2 ?_
    | with_reducible refine keepsBut_forEach_of (fun _ _ => ?_) ?_
    | with_reducible refine keepsBut_foldl_of (fun _ _ => ?_) ?_
    | with_reducible refine keepsBut_ite_of ?_ ?_
    | with_reducible refine keepsBut_ite_fst_of ?_ ?_
    | extract_lets
    | split
    | with_reducible intro _
    | dsimp only
    | (dsimp +zetaDelta only; split)

theorem execParamRead_frame (t id seq : Nat) (pay : List Byte) (s : State) : answers (execParamRead t id seq pay s) (keepsBut [.time, .comb, .links, .tagCtr, .forgs, .cells, .est, .surv, .learned, .reg, .disp, .therm, .guard, .core, .host, .can, .prog, .recorder, .mem, .boot, .upd, .bist, .pwr, .out, .freeCtr] s) := by
  unfold execParamRead
  repeat' first
    | with_reducible refine answers_next ?_
    | with_reducible refine answers_ite ?_ ?_
    | with_reducible exact keepsBut_refl _ _
    | with_reducible refine (keepsBut_request (by decide) ..).2 ?_
    | with_reducible refine keepsBut_forEach_of (fun _ _ => ?_) ?_
    | with_reducible refine keepsBut_foldl_of (fun _ _ => ?_) ?_
    | with_reducible refine keepsBut_ite_of ?_ ?_
    | with_reducible refine keepsBut_ite_fst_of ?_ ?_
    | extract_lets
    | split
    | with_reducible intro _
    | dsimp only
    | (dsimp +zetaDelta only; split)

theorem execEditLock_frame (t id seq : Nat) (pay : List Byte) (s : State) : answers (execEditLock t id seq pay s) (keepsBut [.time, .comb, .links, .tagCtr, .forgs, .cells, .est, .surv, .learned, .reg, .disp, .therm, .guard, .core, .host, .can, .prog, .recorder, .mem, .boot, .upd, .bist, .pwr, .out, .freeCtr] s) := by
  unfold execEditLock
  repeat' first
    | with_reducible refine answers_next ?_
    | with_reducible refine answers_ite ?_ ?_
    | with_reducible exact keepsBut_refl _ _
    | with_reducible refine (keepsBut_request (by decide) ..).2 ?_
    | with_reducible refine keepsBut_forEach_of (fun _ _ => ?_) ?_
    | with_reducible refine keepsBut_foldl_of (fun _ _ => ?_) ?_
    | with_reducible refine keepsBut_ite_of ?_ ?_
    | with_reducible refine keepsBut_ite_fst_of ?_ ?_
    | extract_lets
    | split
    | with_reducible intro _
    | dsimp only
    | (dsimp +zetaDelta only; split)

theorem execParamWrite_frame (t id seq : Nat) (pay : List Byte) (s : State) : answers (execParamWrite t id seq pay s) (keepsBut [.time, .comb, .links, .tagCtr, .forgs, .cells, .est, .surv, .learned, .reg, .disp, .therm, .guard, .core, .host, .can, .prog, .recorder, .mem, .boot, .upd, .bist, .pwr, .out, .freeCtr] s) := by
  unfold execParamWrite
  repeat' first
    | with_reducible refine answers_next ?_
    | with_reducible refine answers_ite ?_ ?_
    | with_reducible exact keepsBut_refl _ _
    | with_reducible refine (keepsBut_request (by decide) ..).2 ?_
    | with_reducible refine keepsBut_forEach_of (fun _ _ => ?_) ?_
    | with_reducible refine keepsBut_foldl_of (fun _ _ => ?_) ?_
    | with_reducible refine keepsBut_ite_of ?_ ?_
    | with_reducible refine keepsBut_ite_fst_of ?_ ?_
    | extract_lets
    | split
    | with_reducible intro _
    | dsimp only
    | (dsimp +zetaDelta only; split)

theorem execCommit_frame (t id seq : Nat) (pay : List Byte) (s : State) : answers (execCommit t id seq pay s) (keepsBut [.time, .comb, .links, .tagCtr, .forgs, .cells, .est, .surv, .learned, .reg, .disp, .therm, .guard, .core, .host, .can, .prog, .recorder, .mem, .boot, .upd, .bist, .pwr, .out, .freeCtr] s) := by
  unfold execCommit
  repeat' first
    | with_reducible refine answers_next ?_
    | with_reducible refine answers_ite ?_ ?_
    | with_reducible exact keepsBut_refl _ _
    | with_reducible refine (keepsBut_request (by decide) ..).2 ?_
    | with_reducible refine keepsBut_forEach_of (fun _ _ => ?_) ?_
    | with_reducible refine keepsBut_foldl_of (fun _ _ => ?_) ?_
    | with_reducible refine keepsBut_ite_of ?_ ?_
    | with_reducible refine keepsBut_ite_fst_of ?_ ?_
    | extract_lets
    | split
    | with_reducible intro _
    | dsimp only
    | (dsimp +zetaDelta only; split)

theorem execDiscard_frame (t id seq : Nat) (s : State) : answers (execDiscard t id seq s) (keepsBut [.time, .comb, .links, .tagCtr, .forgs, .cells, .est, .surv, .learned, .reg, .disp, .therm, .guard, .core, .host, .can, .prog, .recorder, .mem, .boot, .upd, .bist, .pwr, .out, .freeCtr] s) := by
  unfold execDiscard
  repeat' first
    | with_reducible refine answers_next ?_
    | with_reducible refine answers_ite ?_ ?_
    | with_reducible exact keepsBut_refl _ _
    | with_reducible refine (keepsBut_request (by decide) ..).2 ?_
    | with_reducible refine keepsBut_forEach_of (fun _ _ => ?_) ?_
    | with_reducible refine keepsBut_foldl_of (fun _ _ => ?_) ?_
    | with_reducible refine keepsBut_ite_of ?_ ?_
    | with_reducible refine keepsBut_ite_fst_of ?_ ?_
    | extract_lets
    | split
    | with_reducible intro _
    | dsimp only
    | (dsimp +zetaDelta only; split)

theorem execEventList_frame (t id seq : Nat) (pay : List Byte) (s : State) : answers (execEventList t id seq pay s) (keepsBut [.time, .comb, .links, .tagCtr, .forgs, .cells, .est, .surv, .learned, .reg, .disp, .therm, .guard, .core, .host, .can, .prog, .recorder, .mem, .boot, .upd, .bist, .pwr, .out, .freeCtr] s) := by
  unfold execEventList
  repeat' first
    | with_reducible refine answers_next ?_
    | with_reducible refine answers_ite ?_ ?_
    | with_reducible exact keepsBut_refl _ _
    | with_reducible refine (keepsBut_request (by decide) ..).2 ?_
    | with_reducible refine keepsBut_forEach_of (fun _ _ => ?_) ?_
    | with_reducible refine keepsBut_foldl_of (fun _ _ => ?_) ?_
    | with_reducible refine keepsBut_ite_of ?_ ?_
    | with_reducible refine keepsBut_ite_fst_of ?_ ?_
    | extract_lets
    | split
    | with_reducible intro _
    | dsimp only
    | (dsimp +zetaDelta only; split)

theorem execRecRead_frame (t id seq : Nat) (pay : List Byte) (s : State) : answers (execRecRead t id seq pay s) (keepsBut [.time, .comb, .links, .tagCtr, .forgs, .cells, .est, .surv, .learned, .reg, .disp, .therm, .guard, .core, .host, .can, .prog, .recorder, .mem, .boot, .upd, .bist, .pwr, .out, .freeCtr] s) := by
  unfold execRecRead
  repeat' first
    | with_reducible refine answers_next ?_
    | with_reducible refine answers_ite ?_ ?_
    | with_reducible exact keepsBut_refl _ _
    | with_reducible refine (keepsBut_request (by decide) ..).2 ?_
    | with_reducible refine keepsBut_forEach_of (fun _ _ => ?_) ?_
    | with_reducible refine keepsBut_foldl_of (fun _ _ => ?_) ?_
    | with_reducible refine keepsBut_ite_of ?_ ?_
    | with_reducible refine keepsBut_ite_fst_of ?_ ?_
    | extract_lets
    | split
    | with_reducible intro _
    | dsimp only
    | (dsimp +zetaDelta only; split)

theorem execProgLoad_frame (t id seq : Nat) (pay : List Byte) (s : State) : answers (execProgLoad t id seq pay s) (keepsBut [.time, .comb, .links, .tagCtr, .forgs, .cells, .est, .surv, .learned, .reg, .disp, .therm, .guard, .core, .host, .can, .prog, .recorder, .mem, .boot, .upd, .bist, .pwr, .out, .freeCtr] s) := by
  unfold execProgLoad
  repeat' first
    | with_reducible refine answers_next ?_
    | with_reducible refine answers_ite ?_ ?_
    | with_reducible exact keepsBut_refl _ _
    | with_reducible refine (keepsBut_request (by decide) ..).2 ?_
    | with_reducible refine keepsBut_forEach_of (fun _ _ => ?_) ?_
    | with_reducible refine keepsBut_foldl_of (fun _ _ => ?_) ?_
    | with_reducible refine keepsBut_ite_of ?_ ?_
    | with_reducible refine keepsBut_ite_fst_of ?_ ?_
    | extract_lets
    | split
    | with_reducible intro _
    | dsimp only
    | (dsimp +zetaDelta only; split)

theorem execProgRead_frame (t id seq : Nat) (pay : List Byte) (s : State) : answers (execProgRead t id seq pay s) (keepsBut [.time, .comb, .links, .tagCtr, .forgs, .cells, .est, .surv, .learned, .reg, .disp, .therm, .guard, .core, .host, .can, .prog, .recorder, .mem, .boot, .upd, .bist, .pwr, .out, .freeCtr] s) := by
  unfold execProgRead
  repeat' first
    | with_reducible refine answers_next ?_
    | with_reducible refine answers_ite ?_ ?_
    | with_reducible exact keepsBut_refl _ _
    | with_reducible refine (keepsBut_request (by decide) ..).2 ?_
    | with_reducible refine keepsBut_forEach_of (fun _ _ => ?_) ?_
    | with_reducible refine keepsBut_foldl_of (fun _ _ => ?_) ?_
    | with_reducible refine keepsBut_ite_of ?_ ?_
    | with_reducible refine keepsBut_ite_fst_of ?_ ?_
    | extract_lets
    | split
    | with_reducible intro _
    | dsimp only
    | (dsimp +zetaDelta only; split)

theorem execUpdBegin_frame (t id seq : Nat) (pay sig : List Byte) (s : State) : answers (execUpdBegin t id seq pay sig s) (keepsBut [.time, .comb, .links, .tagCtr, .forgs, .cells, .est, .surv, .learned, .reg, .disp, .therm, .guard, .core, .host, .can, .prog, .recorder, .mem, .boot, .upd, .bist, .pwr, .out, .freeCtr] s) := by
  unfold execUpdBegin
  repeat' first
    | with_reducible refine answers_next ?_
    | with_reducible refine answers_ite ?_ ?_
    | with_reducible exact keepsBut_refl _ _
    | with_reducible refine (keepsBut_request (by decide) ..).2 ?_
    | with_reducible refine keepsBut_forEach_of (fun _ _ => ?_) ?_
    | with_reducible refine keepsBut_foldl_of (fun _ _ => ?_) ?_
    | with_reducible refine keepsBut_ite_of ?_ ?_
    | with_reducible refine keepsBut_ite_fst_of ?_ ?_
    | extract_lets
    | split
    | with_reducible intro _
    | dsimp only
    | (dsimp +zetaDelta only; split)

theorem execUpdChunk_frame (t id seq : Nat) (pay : List Byte) (env : FhpEnv) (s : State) : answers (execUpdChunk t id seq pay env s) (keepsBut [.time, .comb, .links, .tagCtr, .forgs, .cells, .est, .surv, .learned, .reg, .disp, .therm, .guard, .core, .host, .can, .prog, .recorder, .mem, .boot, .upd, .bist, .pwr, .out, .freeCtr] s) := by
  unfold execUpdChunk
  repeat' first
    | with_reducible refine answers_next ?_
    | with_reducible refine answers_ite ?_ ?_
    | with_reducible exact keepsBut_refl _ _
    | with_reducible refine (keepsBut_request (by decide) ..).2 ?_
    | with_reducible refine keepsBut_forEach_of (fun _ _ => ?_) ?_
    | with_reducible refine keepsBut_foldl_of (fun _ _ => ?_) ?_
    | with_reducible refine keepsBut_ite_of ?_ ?_
    | with_reducible refine keepsBut_ite_fst_of ?_ ?_
    | extract_lets
    | split
    | with_reducible intro _
    | dsimp only
    | (dsimp +zetaDelta only; split)

theorem execUpdStatus_frame (t id seq : Nat) (pay : List Byte) (s : State) : answers (execUpdStatus t id seq pay s) (keepsBut [.time, .comb, .links, .tagCtr, .forgs, .cells, .est, .surv, .learned, .reg, .disp, .therm, .guard, .core, .host, .can, .prog, .recorder, .mem, .boot, .upd, .bist, .pwr, .out, .freeCtr] s) := by
  unfold execUpdStatus
  repeat' first
    | with_reducible refine answers_next ?_
    | with_reducible refine answers_ite ?_ ?_
    | with_reducible exact keepsBut_refl _ _
    | with_reducible refine (keepsBut_request (by decide) ..).2 ?_
    | with_reducible refine keepsBut_forEach_of (fun _ _ => ?_) ?_
    | with_reducible refine keepsBut_foldl_of (fun _ _ => ?_) ?_
    | with_reducible refine keepsBut_ite_of ?_ ?_
    | with_reducible refine keepsBut_ite_fst_of ?_ ?_
    | extract_lets
    | split
    | with_reducible intro _
    | dsimp only
    | (dsimp +zetaDelta only; split)

theorem execCapRead_frame (t id seq : Nat) (pay : List Byte) (s : State) : answers (execCapRead t id seq pay s) (keepsBut [.time, .comb, .links, .tagCtr, .forgs, .cells, .est, .surv, .learned, .reg, .disp, .therm, .guard, .core, .host, .can, .prog, .recorder, .mem, .boot, .upd, .bist, .pwr, .out, .freeCtr] s) := by
  unfold execCapRead
  repeat' first
    | with_reducible refine answers_next ?_
    | with_reducible refine answers_ite ?_ ?_
    | with_reducible exact keepsBut_refl _ _
    | with_reducible refine (keepsBut_request (by decide) ..).2 ?_
    | with_reducible refine keepsBut_forEach_of (fun _ _ => ?_) ?_
    | with_reducible refine keepsBut_foldl_of (fun _ _ => ?_) ?_
    | with_reducible refine keepsBut_ite_of ?_ ?_
    | with_reducible refine keepsBut_ite_fst_of ?_ ?_
    | extract_lets
    | split
    | with_reducible intro _
    | dsimp only
    | (dsimp +zetaDelta only; split)

theorem execJournalRead_frame (t id seq : Nat) (pay : List Byte) (s : State) : answers (execJournalRead t id seq pay s) (keepsBut [.time, .comb, .links, .tagCtr, .forgs, .cells, .est, .surv, .learned, .reg, .disp, .therm, .guard, .core, .host, .can, .prog, .recorder, .mem, .boot, .upd, .bist, .pwr, .out, .freeCtr] s) := by
  unfold execJournalRead
  repeat' first
    | with_reducible refine answers_next ?_
    | with_reducible refine answers_ite ?_ ?_
    | with_reducible exact keepsBut_refl _ _
    | with_reducible refine (keepsBut_request (by decide) ..).2 ?_
    | with_reducible refine keepsBut_forEach_of (fun _ _ => ?_) ?_
    | with_reducible refine keepsBut_foldl_of (fun _ _ => ?_) ?_
    | with_reducible refine keepsBut_ite_of ?_ ?_
    | with_reducible refine keepsBut_ite_fst_of ?_ ?_
    | extract_lets
    | split
    | with_reducible intro _
    | dsimp only
    | (dsimp +zetaDelta only; split)

theorem execBistRead_frame (t id seq : Nat) (pay : List Byte) (s : State) : answers (execBistRead t id seq pay s) (keepsBut [.time, .comb, .links, .tagCtr, .forgs, .cells, .est, .surv, .learned, .reg, .disp, .therm, .guard, .core, .host, .can, .prog, .recorder, .mem, .boot, .upd, .bist, .pwr, .out, .freeCtr] s) := by
  unfold execBistRead
  repeat' first
    | with_reducible refine answers_next ?_
    | with_reducible refine answers_ite ?_ ?_
    | with_reducible exact keepsBut_refl _ _
    | with_reducible refine (keepsBut_request (by decide) ..).2 ?_
    | with_reducible refine keepsBut_forEach_of (fun _ _ => ?_) ?_
    | with_reducible refine keepsBut_foldl_of (fun _ _ => ?_) ?_
    | with_reducible refine keepsBut_ite_of ?_ ?_
    | with_reducible refine keepsBut_ite_fst_of ?_ ?_
    | extract_lets
    | split
    | with_reducible intro _
    | dsimp only
    | (dsimp +zetaDelta only; split)

theorem execSessionIdleTimeout_frame (t : Nat) (k : Fin 8) (s : State) : answers (execSessionIdleTimeout t k s) (keepsBut [.time, .host, .recorder] s) := by
  unfold execSessionIdleTimeout
  repeat' first
    | with_reducible refine answers_next ?_
    | with_reducible refine answers_ite ?_ ?_
    | with_reducible exact keepsBut_refl _ _
    | with_reducible refine (keepsBut_closeSession (by decide) ..).2 ?_
    | with_reducible refine (keepsBut_at_ (by decide) ..).2 ?_
    | with_reducible refine keepsBut_forEach_of (fun _ _ => ?_) ?_
    | with_reducible refine keepsBut_foldl_of (fun _ _ => ?_) ?_
    | with_reducible refine keepsBut_ite_of ?_ ?_
    | with_reducible refine keepsBut_ite_fst_of ?_ ?_
    | extract_lets
    | split
    | with_reducible intro _
    | dsimp only
    | (dsimp +zetaDelta only; split)

theorem execCommitComplete_frame (t : Nat) (ok4 ok6 : Bool) (s : State) : answers (execCommitComplete t ok4 ok6 s) (keepsBut [.time, .host, .recorder, .boot, .out] s) := by
  unfold execCommitComplete
  repeat' first
    | with_reducible refine answers_next ?_
    | with_reducible refine answers_ite ?_ ?_
    | with_reducible exact keepsBut_refl _ _
    | with_reducible refine (keepsBut_endCommit (by decide) ..).2 ?_
    | with_reducible refine (keepsBut_at_ (by decide) ..).2 ?_
    | with_reducible refine keepsBut_forEach_of (fun _ _ => ?_) ?_
    | with_reducible refine keepsBut_foldl_of (fun _ _ => ?_) ?_
    | with_reducible refine keepsBut_ite_of ?_ ?_
    | with_reducible refine keepsBut_ite_fst_of ?_ ?_
    | extract_lets
    | split
    | with_reducible intro _
    | dsimp only
    | (dsimp +zetaDelta only; split)

theorem execStartDiscoveryEnd_frame (t : Nat) (s : State) : answers (execStartDiscoveryEnd t s) (keepsBut [.time, .recorder, .boot] s) := by
  unfold execStartDiscoveryEnd
  repeat' first
    | with_reducible refine answers_next ?_
    | with_reducible refine answers_ite ?_ ?_
    | with_reducible exact keepsBut_refl _ _
    | with_reducible refine (keepsBut_endDiscovery (by decide) ..).2 ?_
    | with_reducible refine (keepsBut_at_ (by decide) ..).2 ?_
    | with_reducible refine keepsBut_forEach_of (fun _ _ => ?_) ?_
    | with_reducible refine keepsBut_foldl_of (fun _ _ => ?_) ?_
    | with_reducible refine keepsBut_ite_of ?_ ?_
    | with_reducible refine keepsBut_ite_fst_of ?_ ?_
    | extract_lets
    | split
    | with_reducible intro _
    | dsimp only
    | (dsimp +zetaDelta only; split)

theorem execStartStep_frame (t : Nat) (pfwHigh : Bool) (env : StartEnv) (s : State) : answers (execStartStep t pfwHigh env s) (keepsBut [.time, .comb, .links, .tagCtr, .forgs, .cells, .est, .surv, .learned, .reg, .disp, .therm, .guard, .core, .host, .can, .prog, .recorder, .mem, .boot, .upd, .bist, .pwr, .out, .freeCtr] s) := by
  unfold execStartStep
  repeat' first
    | with_reducible refine answers_next ?_
    | with_reducible refine answers_ite ?_ ?_
    | with_reducible exact keepsBut_refl _ _
    | with_reducible refine (keepsBut_endStep (by decide) ..).2 ?_
    | with_reducible refine (keepsBut_beginStep (by decide) ..).2 ?_
    | with_reducible refine (keepsBut_failStart (by decide) ..).2 ?_
    | with_reducible refine (keepsBut_haltStart (by decide) ..).2 ?_
    | with_reducible refine (keepsBut_doStep (by decide) ..).2 ?_
    | with_reducible refine (keepsBut_markStep (by decide) ..).2 ?_
    | with_reducible refine (keepsBut_at_ (by decide) ..).2 ?_
    | with_reducible refine (keepsBut_modBoot (by decide) ..).2 ?_
    | with_reducible refine keepsBut_forEach_of (fun _ _ => ?_) ?_
    | with_reducible refine keepsBut_foldl_of (fun _ _ => ?_) ?_
    | with_reducible refine keepsBut_ite_of ?_ ?_
    | with_reducible refine keepsBut_ite_fst_of ?_ ?_
    | extract_lets
    | split
    | with_reducible intro _
    | dsimp only
    | (dsimp +zetaDelta only; split)

@[simp ↓] theorem keepsBut_coolMaps {ps : List Piece} (h : [Piece.links] ⊆ ps) (r : State) (s : State) :
    keepsBut ps r (coolMaps s) ↔ keepsBut ps r s :=
  keepsBut_peel (fp := [.links]) (by
    unfold coolMaps
    repeat' first
      | with_reducible exact keepsBut_refl _ _
      | with_reducible refine (keepsBut_modLinks (by decide) ..).2 ?_
      | with_reducible refine keepsBut_forEach_of (fun _ _ => ?_) ?_
      | with_reducible refine keepsBut_ite_of ?_ ?_
      | extract_lets
      | split
      | with_reducible intro _
      | dsimp only) h

@[simp ↓] theorem keepsBut_bulkFrame {ps : List Piece} (h : [Piece.links, .forgs] ⊆ ps) (r : State) (s : State) :
    keepsBut ps r (bulkFrame s) ↔ keepsBut ps r s :=
  keepsBut_peel (fp := [.links, .forgs]) (by
    unfold bulkFrame
    repeat' first
      | with_reducible exact keepsBut_refl _ _
      | with_reducible refine (keepsBut_coolMaps (by decide) ..).2 ?_
      | with_reducible refine (keepsBut_holdBulk (by decide) ..).2 ?_
      | with_reducible refine keepsBut_forEach_of (fun _ _ => ?_) ?_
      | with_reducible refine keepsBut_ite_of ?_ ?_
      | extract_lets
      | split
      | with_reducible intro _
      | dsimp only) h

@[simp ↓] theorem keepsBut_missedRound {ps : List Piece} (h : [Piece.recorder, .pwr] ⊆ ps) (r : State) (s : State) :
    keepsBut ps r (missedRound s) ↔ keepsBut ps r s :=
  keepsBut_peel (fp := [.recorder, .pwr]) (by
    unfold missedRound
    repeat' first
      | with_reducible exact keepsBut_refl _ _
      | with_reducible refine (keepsBut_overrun (by decide) ..).2 ?_
      | with_reducible refine keepsBut_forEach_of (fun _ _ => ?_) ?_
      | with_reducible refine keepsBut_ite_of ?_ ?_
      | extract_lets
      | split
      | with_reducible intro _
      | dsimp only) h

theorem execFrameBoundary_frame (t : Nat) (req : List Nat) (lines : List LineFault) (laneFails : List (Nat × Nat)) (late : Bool) (s : State) : answers (execFrameBoundary t req lines laneFails late s) (keepsBut [.time, .comb, .links, .tagCtr, .forgs, .cells, .est, .surv, .learned, .reg, .disp, .therm, .guard, .core, .host, .can, .prog, .recorder, .mem, .boot, .upd, .bist, .pwr, .out, .freeCtr] s) := by
  unfold execFrameBoundary
  repeat' first
    | with_reducible refine answers_next ?_
    | with_reducible refine answers_ite ?_ ?_
    | with_reducible exact keepsBut_refl _ _
    | with_reducible refine (keepsBut_at_ (by decide) ..).2 ?_
    | with_reducible refine (keepsBut_bulkFrame (by decide) ..).2 ?_
    | with_reducible refine (keepsBut_canFrame (by decide) ..).2 ?_
    | with_reducible refine (keepsBut_missedRound (by decide) ..).2 ?_
    | with_reducible refine (keepsBut_rpdoFrame (by decide) ..).2 ?_
    | with_reducible refine (keepsBut_runFrame (by decide) ..).2 ?_
    | with_reducible refine (keepsBut_roundFrame (by decide) ..).2 ?_
    | with_reducible refine (keepsBut_linkFrame (by decide) ..).2 ?_
    | with_reducible refine (keepsBut_swapFrame (by decide) ..).2 ?_
    | with_reducible refine (keepsBut_openFrame (by decide) ..).2 ?_
    | with_reducible refine (keepsBut_serveHeld (by decide) ..).2 ?_
    | with_reducible refine (keepsBut_modeFrame (by decide) ..).2 ?_
    | with_reducible refine (keepsBut_redundancyFrame (by decide) ..).2 ?_
    | with_reducible refine (keepsBut_arbiterFrame (by decide) ..).2 ?_
    | with_reducible refine (keepsBut_pairFrame (by decide) ..).2 ?_
    | with_reducible refine (keepsBut_bankFrame (by decide) ..).2 ?_
    | with_reducible refine (keepsBut_scrubFrame (by decide) ..).2 ?_
    | with_reducible refine (keepsBut_shiftLatches (by decide) ..).2 ?_
    | with_reducible refine (keepsBut_thermalRound (by decide) ..).2 ?_
    | with_reducible refine (keepsBut_armUnit (by decide) ..).2 ?_
    | with_reducible refine (keepsBut_judgeHoldover (by decide) ..).2 ?_
    | with_reducible refine (keepsBut_judgeSync (by decide) ..).2 ?_
    | with_reducible refine (keepsBut_modCore (by decide) ..).2 ?_
    | with_reducible refine keepsBut_forEach_of (fun _ _ => ?_) ?_
    | with_reducible refine keepsBut_foldl_of (fun _ _ => ?_) ?_
    | with_reducible refine keepsBut_ite_of ?_ ?_
    | with_reducible refine keepsBut_ite_fst_of ?_ ?_
    | extract_lets
    | split
    | with_reducible intro _
    | dsimp only
    | (dsimp +zetaDelta only; split)

@[simp ↓] theorem keepsBut_extraValues {ps : List Piece} (h : [Piece.reg] ⊆ ps) (r : State) (ch : List Density) (s : State) :
    keepsBut ps r (extraValues ch s) ↔ keepsBut ps r s :=
  keepsBut_peel (fp := [.reg]) (by
    unfold extraValues
    repeat' first
      | with_reducible exact keepsBut_refl _ _
      | with_reducible refine (keepsBut_modReg (by decide) ..).2 ?_
      | with_reducible refine keepsBut_forEach_of (fun _ _ => ?_) ?_
      | with_reducible refine keepsBut_ite_of ?_ ?_
      | extract_lets
      | split
      | with_reducible intro _
      | dsimp only) h

theorem execSampleInstant_frame (t : Nat) (net : List Int) (k : Nat) (ch : List Density) (gpio : BitVec 16) (s : State) : answers (execSampleInstant t net k ch gpio s) (keepsBut [.time, .comb, .est, .reg, .prog] s) := by
  unfold execSampleInstant
  repeat' first
    | with_reducible refine answers_next ?_
    | with_reducible refine answers_ite ?_ ?_
    | with_reducible exact keepsBut_refl _ _
    | with_reducible refine (keepsBut_extraValues (by decide) ..).2 ?_
    | with_reducible refine (keepsBut_holdInstant (by decide) ..).2 ?_
    | with_reducible refine (keepsBut_sampleString (by decide) ..).2 ?_
    | with_reducible refine (keepsBut_fireUnit (by decide) ..).2 ?_
    | with_reducible refine (keepsBut_workDone (by decide) ..).2 ?_
    | with_reducible refine (keepsBut_at_ (by decide) ..).2 ?_
    | with_reducible refine keepsBut_forEach_of (fun _ _ => ?_) ?_
    | with_reducible refine keepsBut_foldl_of (fun _ _ => ?_) ?_
    | with_reducible refine keepsBut_ite_of ?_ ?_
    | with_reducible refine keepsBut_ite_fst_of ?_ ?_
    | extract_lets
    | split
    | with_reducible intro _
    | dsimp only
    | (dsimp +zetaDelta only; split)

@[simp ↓] theorem keepsBut_surveyDone {ps : List Piece} (h : [Piece.surv, .recorder] ⊆ ps) (r : State) (g : Nat) (s : State) :
    keepsBut ps r (surveyDone g s) ↔ keepsBut ps r s :=
  keepsBut_peel (fp := [.surv, .recorder]) (by
    unfold surveyDone
    repeat' first
      | with_reducible exact keepsBut_refl _ _
      | with_reducible refine (keepsBut_modSurv (by decide) ..).2 ?_
      | with_reducible refine (keepsBut_raise (by decide) ..).2 ?_
      | with_reducible refine keepsBut_forEach_of (fun _ _ => ?_) ?_
      | with_reducible refine keepsBut_ite_of ?_ ?_
      | extract_lets
      | split
      | with_reducible intro _
      | dsimp only) h

theorem execCombPublication_frame (t : Nat) (late : BitVec 16) (s : State) : answers (execCombPublication t late s) (keepsBut [.time, .comb, .links, .tagCtr, .forgs, .est, .surv, .reg, .disp, .therm, .guard, .can, .prog, .recorder, .boot, .pwr] s) := by
  unfold execCombPublication
  repeat' first
    | with_reducible refine answers_next ?_
    | with_reducible refine answers_ite ?_ ?_
    | with_reducible exact keepsBut_refl _ _
    | with_reducible refine (keepsBut_overrun (by decide) ..).2 ?_
    | with_reducible refine (keepsBut_surveyDone (by decide) ..).2 ?_
    | with_reducible refine (keepsBut_keepVolts (by decide) ..).2 ?_
    | with_reducible refine (keepsBut_statusFrame (by decide) ..).2 ?_
    | with_reducible refine (keepsBut_closeAreas (by decide) ..).2 ?_
    | with_reducible refine (keepsBut_rotate (by decide) ..).2 ?_
    | with_reducible refine (keepsBut_recordFrame (by decide) ..).2 ?_
    | with_reducible refine (keepsBut_progPublication (by decide) ..).2 ?_
    | with_reducible refine (keepsBut_closeStations (by decide) ..).2 ?_
    | with_reducible refine (keepsBut_dispatchBuild (by decide) ..).2 ?_
    | with_reducible refine (keepsBut_surveyWatch (by decide) ..).2 ?_
    | with_reducible refine (keepsBut_placeSample (by decide) ..).2 ?_
    | with_reducible refine (keepsBut_thermalUpdate (by decide) ..).2 ?_
    | with_reducible refine (keepsBut_balanceDecision (by decide) ..).2 ?_
    | with_reducible refine (keepsBut_fireUnit (by decide) ..).2 ?_
    | with_reducible refine (keepsBut_at_ (by decide) ..).2 ?_
    | with_reducible refine (keepsBut_modPwr (by decide) ..).2 ?_
    | with_reducible refine (keepsBut_modComb (by decide) ..).2 ?_
    | with_reducible refine keepsBut_forEach_of (fun _ _ => ?_) ?_
    | with_reducible refine keepsBut_foldl_of (fun _ _ => ?_) ?_
    | with_reducible refine keepsBut_ite_of ?_ ?_
    | with_reducible refine keepsBut_ite_fst_of ?_ ?_
    | extract_lets
    | split
    | with_reducible intro _
    | dsimp only
    | (dsimp +zetaDelta only; split)

theorem execUplinkDeadline_frame (t : Nat) (s : State) : answers (execUplinkDeadline t s) (keepsBut [.time, .links, .forgs, .recorder] s) := by
  unfold execUplinkDeadline
  repeat' first
    | with_reducible refine answers_next ?_
    | with_reducible refine answers_ite ?_ ?_
    | with_reducible exact keepsBut_refl _ _
    | with_reducible refine (keepsBut_closeLinks (by decide) ..).2 ?_
    | with_reducible refine (keepsBut_fireUnit (by decide) ..).2 ?_
    | with_reducible refine (keepsBut_workDone (by decide) ..).2 ?_
    | with_reducible refine (keepsBut_at_ (by decide) ..).2 ?_
    | with_reducible refine (keepsBut_modLinks (by decide) ..).2 ?_
    | with_reducible refine keepsBut_forEach_of (fun _ _ => ?_) ?_
    | with_reducible refine keepsBut_foldl_of (fun _ _ => ?_) ?_
    | with_reducible refine keepsBut_ite_of ?_ ?_
    | with_reducible refine keepsBut_ite_fst_of ?_ ?_
    | extract_lets
    | split
    | with_reducible intro _
    | dsimp only
    | (dsimp +zetaDelta only; split)

end Sys2Proof.Machine
end

