-- ==== Sys2Proof/Laws/Ops.lean ====
section
/-!
SUPPORT. Ops: what the shared operations of Machine/Ops.lean do: reading after an update of one entry, raising, clearing and standing a
code, and the fields that these leave alone.
-/

set_option linter.all false

namespace Sys2Proof.Machine

theorem getD_modify {α} (l : List α) (n j : Nat) (f : α → α) (d : α) : (l.modify n f).getD j d = if n = j ∧ j < l.length then f (l.getD j d) else l.getD j d := by
  simp only [List.getD_eq_getElem?_getD, List.getElem?_modify]
  by_cases h : n = j
  · subst h
    by_cases h2 : n < l.length
    · simp [h2]
    · simp [h2]
  · simp [h]
@[simp] theorem getD_updAt {α} (l : List α) (n j : Nat) (f : α → α) (d : α) : (updAt l n f).getD j d = if n = j ∧ j < l.length then f (l.getD j d) else l.getD j d := getD_modify ..
@[simp] theorem length_updAt {α} (l : List α) (n : Nat) (f : α → α) : (updAt l n f).length = l.length := by simp [updAt]
@[simp] theorem at_up (t : Nat) (s : State) : (s.at_ t).up = s.up := rfl
@[simp] theorem at_running (t : Nat) (s : State) : (s.at_ t).running = s.running := rfl
@[simp] theorem at_par (t : Nat) (s : State) (p : PName) (i j : Nat) : (s.at_ t).par p i j = s.par p i j := rfl
@[simp] theorem at_parN (t : Nat) (s : State) (p : PName) (i j : Nat) : (s.at_ t).parN p i j = s.parN p i j := rfl
@[simp] theorem at_parB (t : Nat) (s : State) (p : PName) (i j : Nat) : (s.at_ t).parB p i j = s.parB p i j := rfl
@[simp] theorem at_time (t : Nat) (s : State) : (s.at_ t).time = { s.time with now := max s.time.now t } := rfl
theorem running_up {s : State} (h : s.running = true) : s.up = true := by simp_all [State.running, State.up]

@[simp] theorem isRaised_raise (c a : Nat) (s : State) (h : recordedOnly.contains c = false) : (State.raise c a s).isRaised c a = true := by
  have key : ∀ (only : Bool) (r : RecState), only = false → (raiseRec only c a s.time.now r).raised.contains (c,a) = true := by
    intro only r ho
    subst ho
    have h0 : ∀ (o:Bool) (x y t) (r : RecState), (recordRaise o x y t r).1.raised = r.raised := by
      intro o x y t r
      unfold recordRaise; simp only; split
      · split <;> rfl
      · rfl
    have h1 : ∀ (o : Bool) (x y) (r : RecState), (c,a) ∈ r.raised → (c,a) ∈ (markRaised o x y r).raised := by
      intro o x y r h; unfold markRaised; split
      · exact h
      · exact List.mem_cons_of_mem _ h
    have h2 : ∀ (r : RecState), (c,a) ∈ (markRaised false c a r).raised := by
      intro r; unfold markRaised; split
      · rename_i h; simpa using h
      · exact List.mem_cons_self
    unfold raiseRec; simp only
    rw [List.contains_iff_mem]
    split
    · apply h1
      split
      · rw [h0, h0]; exact h2 _
      · rw [h0]; exact h2 _
    · exact h2 _
  simp only [State.isRaised, State.raise, State.modRecorder]
  exact key _ _ h
@[simp] theorem isRaised_clear (c a : Nat) (s : State) : (State.clear c a s).isRaised c a = false := by
  unfold State.clear State.isRaised
  split
  · simp [State.modRecorder, clearRec]
  · rename_i h; simpa using h
@[simp] theorem isRaised_stand_true (c a : Nat) (s : State) (h : recordedOnly.contains c = false) : (State.stand c a true s).isRaised c a = true := by
  unfold State.stand; simp only [if_true]; split
  · assumption
  · exact isRaised_raise c a s h
@[simp] theorem isRaised_stand_false (c a : Nat) (s : State) : (State.stand c a false s).isRaised c a = false := by
  simp [State.stand]



@[simp] theorem raise_time (c a : Nat) (s : State) : (State.raise c a s).time = s.time := rfl
@[simp] theorem clear_time (c a : Nat) (s : State) : (State.clear c a s).time = s.time := by unfold State.clear; split <;> rfl
@[simp] theorem stand_time (c a : Nat) (b : Bool) (s : State) : (State.stand c a b s).time = s.time := by unfold State.stand; split; (split <;> rfl); exact clear_time ..
@[simp] theorem raise_comb (c a : Nat) (s : State) : (State.raise c a s).comb = s.comb := rfl
@[simp] theorem clear_comb (c a : Nat) (s : State) : (State.clear c a s).comb = s.comb := by unfold State.clear; split <;> rfl
@[simp] theorem stand_comb (c a : Nat) (b : Bool) (s : State) : (State.stand c a b s).comb = s.comb := by unfold State.stand; split; (split <;> rfl); exact clear_comb ..
@[simp] theorem at_comb (t : Nat) (s : State) : (s.at_ t).comb = s.comb := rfl
@[simp] theorem raise_links (c a : Nat) (s : State) : (State.raise c a s).links = s.links := rfl
@[simp] theorem clear_links (c a : Nat) (s : State) : (State.clear c a s).links = s.links := by unfold State.clear; split <;> rfl
@[simp] theorem stand_links (c a : Nat) (b : Bool) (s : State) : (State.stand c a b s).links = s.links := by unfold State.stand; split; (split <;> rfl); exact clear_links ..
@[simp] theorem at_links (t : Nat) (s : State) : (s.at_ t).links = s.links := rfl
@[simp] theorem raise_tagCtr (c a : Nat) (s : State) : (State.raise c a s).tagCtr = s.tagCtr := rfl
@[simp] theorem clear_tagCtr (c a : Nat) (s : State) : (State.clear c a s).tagCtr = s.tagCtr := by unfold State.clear; split <;> rfl
@[simp] theorem stand_tagCtr (c a : Nat) (b : Bool) (s : State) : (State.stand c a b s).tagCtr = s.tagCtr := by unfold State.stand; split; (split <;> rfl); exact clear_tagCtr ..
@[simp] theorem at_tagCtr (t : Nat) (s : State) : (s.at_ t).tagCtr = s.tagCtr := rfl
@[simp] theorem raise_forgs (c a : Nat) (s : State) : (State.raise c a s).forgs = s.forgs := rfl
@[simp] theorem clear_forgs (c a : Nat) (s : State) : (State.clear c a s).forgs = s.forgs := by unfold State.clear; split <;> rfl
@[simp] theorem stand_forgs (c a : Nat) (b : Bool) (s : State) : (State.stand c a b s).forgs = s.forgs := by unfold State.stand; split; (split <;> rfl); exact clear_forgs ..
@[simp] theorem at_forgs (t : Nat) (s : State) : (s.at_ t).forgs = s.forgs := rfl
@[simp] theorem raise_cells (c a : Nat) (s : State) : (State.raise c a s).cells = s.cells := rfl
@[simp] theorem clear_cells (c a : Nat) (s : State) : (State.clear c a s).cells = s.cells := by unfold State.clear; split <;> rfl
@[simp] theorem stand_cells (c a : Nat) (b : Bool) (s : State) : (State.stand c a b s).cells = s.cells := by unfold State.stand; split; (split <;> rfl); exact clear_cells ..
@[simp] theorem at_cells (t : Nat) (s : State) : (s.at_ t).cells = s.cells := rfl
@[simp] theorem raise_est (c a : Nat) (s : State) : (State.raise c a s).est = s.est := rfl
@[simp] theorem clear_est (c a : Nat) (s : State) : (State.clear c a s).est = s.est := by unfold State.clear; split <;> rfl
@[simp] theorem stand_est (c a : Nat) (b : Bool) (s : State) : (State.stand c a b s).est = s.est := by unfold State.stand; split; (split <;> rfl); exact clear_est ..
@[simp] theorem at_est (t : Nat) (s : State) : (s.at_ t).est = s.est := rfl
@[simp] theorem raise_surv (c a : Nat) (s : State) : (State.raise c a s).surv = s.surv := rfl
@[simp] theorem clear_surv (c a : Nat) (s : State) : (State.clear c a s).surv = s.surv := by unfold State.clear; split <;> rfl
@[simp] theorem stand_surv (c a : Nat) (b : Bool) (s : State) : (State.stand c a b s).surv = s.surv := by unfold State.stand; split; (split <;> rfl); exact clear_surv ..
@[simp] theorem at_surv (t : Nat) (s : State) : (s.at_ t).surv = s.surv := rfl
@[simp] theorem raise_learned (c a : Nat) (s : State) : (State.raise c a s).learned = s.learned := rfl
@[simp] theorem clear_learned (c a : Nat) (s : State) : (State.clear c a s).learned = s.learned := by unfold State.clear; split <;> rfl
@[simp] theorem stand_learned (c a : Nat) (b : Bool) (s : State) : (State.stand c a b s).learned = s.learned := by unfold State.stand; split; (split <;> rfl); exact clear_learned ..
@[simp] theorem at_learned (t : Nat) (s : State) : (s.at_ t).learned = s.learned := rfl
@[simp] theorem raise_reg (c a : Nat) (s : State) : (State.raise c a s).reg = s.reg := rfl
@[simp] theorem clear_reg (c a : Nat) (s : State) : (State.clear c a s).reg = s.reg := by unfold State.clear; split <;> rfl
@[simp] theorem stand_reg (c a : Nat) (b : Bool) (s : State) : (State.stand c a b s).reg = s.reg := by unfold State.stand; split; (split <;> rfl); exact clear_reg ..
@[simp] theorem at_reg (t : Nat) (s : State) : (s.at_ t).reg = s.reg := rfl
@[simp] theorem raise_disp (c a : Nat) (s : State) : (State.raise c a s).disp = s.disp := rfl
@[simp] theorem clear_disp (c a : Nat) (s : State) : (State.clear c a s).disp = s.disp := by unfold State.clear; split <;> rfl
@[simp] theorem stand_disp (c a : Nat) (b : Bool) (s : State) : (State.stand c a b s).disp = s.disp := by unfold State.stand; split; (split <;> rfl); exact clear_disp ..
@[simp] theorem at_disp (t : Nat) (s : State) : (s.at_ t).disp = s.disp := rfl
@[simp] theorem raise_therm (c a : Nat) (s : State) : (State.raise c a s).therm = s.therm := rfl
@[simp] theorem clear_therm (c a : Nat) (s : State) : (State.clear c a s).therm = s.therm := by unfold State.clear; split <;> rfl
@[simp] theorem stand_therm (c a : Nat) (b : Bool) (s : State) : (State.stand c a b s).therm = s.therm := by unfold State.stand; split; (split <;> rfl); exact clear_therm ..
@[simp] theorem at_therm (t : Nat) (s : State) : (s.at_ t).therm = s.therm := rfl
@[simp] theorem raise_guard (c a : Nat) (s : State) : (State.raise c a s).guard = s.guard := rfl
@[simp] theorem clear_guard (c a : Nat) (s : State) : (State.clear c a s).guard = s.guard := by unfold State.clear; split <;> rfl
@[simp] theorem stand_guard (c a : Nat) (b : Bool) (s : State) : (State.stand c a b s).guard = s.guard := by unfold State.stand; split; (split <;> rfl); exact clear_guard ..
@[simp] theorem at_guard (t : Nat) (s : State) : (s.at_ t).guard = s.guard := rfl
@[simp] theorem raise_core (c a : Nat) (s : State) : (State.raise c a s).core = s.core := rfl
@[simp] theorem clear_core (c a : Nat) (s : State) : (State.clear c a s).core = s.core := by unfold State.clear; split <;> rfl
@[simp] theorem stand_core (c a : Nat) (b : Bool) (s : State) : (State.stand c a b s).core = s.core := by unfold State.stand; split; (split <;> rfl); exact clear_core ..
@[simp] theorem at_core (t : Nat) (s : State) : (s.at_ t).core = s.core := rfl
@[simp] theorem raise_host (c a : Nat) (s : State) : (State.raise c a s).host = s.host := rfl
@[simp] theorem clear_host (c a : Nat) (s : State) : (State.clear c a s).host = s.host := by unfold State.clear; split <;> rfl
@[simp] theorem stand_host (c a : Nat) (b : Bool) (s : State) : (State.stand c a b s).host = s.host := by unfold State.stand; split; (split <;> rfl); exact clear_host ..
@[simp] theorem at_host (t : Nat) (s : State) : (s.at_ t).host = s.host := rfl
@[simp] theorem raise_can (c a : Nat) (s : State) : (State.raise c a s).can = s.can := rfl
@[simp] theorem clear_can (c a : Nat) (s : State) : (State.clear c a s).can = s.can := by unfold State.clear; split <;> rfl
@[simp] theorem stand_can (c a : Nat) (b : Bool) (s : State) : (State.stand c a b s).can = s.can := by unfold State.stand; split; (split <;> rfl); exact clear_can ..
@[simp] theorem at_can (t : Nat) (s : State) : (s.at_ t).can = s.can := rfl
@[simp] theorem raise_prog (c a : Nat) (s : State) : (State.raise c a s).prog = s.prog := rfl
@[simp] theorem clear_prog (c a : Nat) (s : State) : (State.clear c a s).prog = s.prog := by unfold State.clear; split <;> rfl
@[simp] theorem stand_prog (c a : Nat) (b : Bool) (s : State) : (State.stand c a b s).prog = s.prog := by unfold State.stand; split; (split <;> rfl); exact clear_prog ..
@[simp] theorem at_prog (t : Nat) (s : State) : (s.at_ t).prog = s.prog := rfl
@[simp] theorem raise_mem (c a : Nat) (s : State) : (State.raise c a s).mem = s.mem := rfl
@[simp] theorem clear_mem (c a : Nat) (s : State) : (State.clear c a s).mem = s.mem := by unfold State.clear; split <;> rfl
@[simp] theorem stand_mem (c a : Nat) (b : Bool) (s : State) : (State.stand c a b s).mem = s.mem := by unfold State.stand; split; (split <;> rfl); exact clear_mem ..
@[simp] theorem at_mem (t : Nat) (s : State) : (s.at_ t).mem = s.mem := rfl
@[simp] theorem raise_boot (c a : Nat) (s : State) : (State.raise c a s).boot = s.boot := rfl
@[simp] theorem clear_boot (c a : Nat) (s : State) : (State.clear c a s).boot = s.boot := by unfold State.clear; split <;> rfl
@[simp] theorem stand_boot (c a : Nat) (b : Bool) (s : State) : (State.stand c a b s).boot = s.boot := by unfold State.stand; split; (split <;> rfl); exact clear_boot ..
@[simp] theorem at_boot (t : Nat) (s : State) : (s.at_ t).boot = s.boot := rfl
@[simp] theorem raise_upd (c a : Nat) (s : State) : (State.raise c a s).upd = s.upd := rfl
@[simp] theorem clear_upd (c a : Nat) (s : State) : (State.clear c a s).upd = s.upd := by unfold State.clear; split <;> rfl
@[simp] theorem stand_upd (c a : Nat) (b : Bool) (s : State) : (State.stand c a b s).upd = s.upd := by unfold State.stand; split; (split <;> rfl); exact clear_upd ..
@[simp] theorem at_upd (t : Nat) (s : State) : (s.at_ t).upd = s.upd := rfl
@[simp] theorem raise_bist (c a : Nat) (s : State) : (State.raise c a s).bist = s.bist := rfl
@[simp] theorem clear_bist (c a : Nat) (s : State) : (State.clear c a s).bist = s.bist := by unfold State.clear; split <;> rfl
@[simp] theorem stand_bist (c a : Nat) (b : Bool) (s : State) : (State.stand c a b s).bist = s.bist := by unfold State.stand; split; (split <;> rfl); exact clear_bist ..
@[simp] theorem at_bist (t : Nat) (s : State) : (s.at_ t).bist = s.bist := rfl
@[simp] theorem raise_pwr (c a : Nat) (s : State) : (State.raise c a s).pwr = s.pwr := rfl
@[simp] theorem clear_pwr (c a : Nat) (s : State) : (State.clear c a s).pwr = s.pwr := by unfold State.clear; split <;> rfl
@[simp] theorem stand_pwr (c a : Nat) (b : Bool) (s : State) : (State.stand c a b s).pwr = s.pwr := by unfold State.stand; split; (split <;> rfl); exact clear_pwr ..
@[simp] theorem at_pwr (t : Nat) (s : State) : (s.at_ t).pwr = s.pwr := rfl
@[simp] theorem raise_out (c a : Nat) (s : State) : (State.raise c a s).out = s.out := rfl
@[simp] theorem clear_out (c a : Nat) (s : State) : (State.clear c a s).out = s.out := by unfold State.clear; split <;> rfl
@[simp] theorem stand_out (c a : Nat) (b : Bool) (s : State) : (State.stand c a b s).out = s.out := by unfold State.stand; split; (split <;> rfl); exact clear_out ..
@[simp] theorem at_out (t : Nat) (s : State) : (s.at_ t).out = s.out := rfl
@[simp] theorem raise_freeCtr (c a : Nat) (s : State) : (State.raise c a s).freeCtr = s.freeCtr := rfl
@[simp] theorem clear_freeCtr (c a : Nat) (s : State) : (State.clear c a s).freeCtr = s.freeCtr := by unfold State.clear; split <;> rfl
@[simp] theorem stand_freeCtr (c a : Nat) (b : Bool) (s : State) : (State.stand c a b s).freeCtr = s.freeCtr := by unfold State.stand; split; (split <;> rfl); exact clear_freeCtr ..
@[simp] theorem at_freeCtr (t : Nat) (s : State) : (s.at_ t).freeCtr = s.freeCtr := rfl
@[simp] theorem raise_pending (c a : Nat) (s : State) : (State.raise c a s).pending = s.pending := rfl
@[simp] theorem clear_pending (c a : Nat) (s : State) : (State.clear c a s).pending = s.pending := by unfold State.clear; split <;> rfl
@[simp] theorem stand_pending (c a : Nat) (b : Bool) (s : State) : (State.stand c a b s).pending = s.pending := by unfold State.stand; split; (split <;> rfl); exact clear_pending ..
@[simp] theorem at_pending (t : Nat) (s : State) : (s.at_ t).pending = s.pending := rfl
@[simp] theorem at_recorder (t : Nat) (s : State) : (s.at_ t).recorder = s.recorder := rfl

/-- A CRC has 32 bits (R220). -/
theorem crcReflBits_lt (p : Nat) (hp : p < 2 ^ 32) : ∀ n c, c < 2 ^ 32 → crcReflBits p n c < 2 ^ 32
  | 0, c, h => h
  | n + 1, c, h => by
    unfold crcReflBits
    apply crcReflBits_lt p hp n
    split
    · exact Nat.xor_lt_two_pow (by omega) hp
    · omega
theorem crc32_lt (bs : List Byte) : crc32 bs < 2 ^ 32 := by
  have h : ∀ (l : List Byte) c, c < 2 ^ 32 → l.foldl (fun c b => crcReflBits 0xEDB88320 8 (c ^^^ b.toNat)) c < 2 ^ 32 := by
    intro l
    induction l with
    | nil => intro c h; exact h
    | cons b l ih => intro c h; exact ih _ (crcReflBits_lt _ (by decide) _ _ (Nat.xor_lt_two_pow h (by have := b.isLt; omega)))
  exact Nat.xor_lt_two_pow (h bs _ (by decide)) (by decide)
/-- A safety check value fits the operand that names it (R337). -/
theorem scv_toNat (ps : List (ParamKey × Int)) : (BitVec.ofNat 32 (scvOf ps)).toNat = scvOf ps := by
  rw [BitVec.toNat_ofNat]; exact Nat.mod_eq_of_lt (crc32_lt _)

end Sys2Proof.Machine
end

