-- ==== Sys2Proof/Laws/PerInstr.lean ====
section
/-!
SUPPORT. PerInstr: per command, a well-formed command brings a module time of 64 bits (R31).
-/
namespace Sys2Proof.Laws.Form

/-- The time of a well-formed command is a uint64. -/
def Statement (i : Instr) : Prop := i.wf = true → ∀ t, i.time = some t → t < 2 ^ 64

theorem wf_time (i : Instr) : Statement i := by
  intro h t ht
  simp only [Instr.wf, ht, Bool.and_eq_true, Option.all_some, timeOk, natOk, decide_eq_true_eq] at h
  exact h.1

theorem porNRelease (t : Nat) (resetHigh pfwHigh : Bool) : Statement (.porNRelease t resetHigh pfwHigh) := wf_time _
theorem startStep (t : Nat) (pfwHigh : Bool) (env : StartEnv) : Statement (.startStep t pfwHigh env) := wf_time _
theorem startTimeAcquisition (sample : Option (Nat × Int × Nat)) : Statement (.startTimeAcquisition sample) := wf_time _
theorem startDiscoveryEnd (t : Nat) : Statement (.startDiscoveryEnd t) := wf_time _
theorem tickBoundary (t : Nat) (ana : Density) : Statement (.tickBoundary t ana) := wf_time _
theorem frameBoundary (t : Nat) (req : List Nat) (lines : List LineFault) (laneFails : List (Nat × Nat)) (late : Bool) : Statement (.frameBoundary t req lines laneFails late) := wf_time _
theorem sampleInstant (t : Nat) (net : List Int) (k : Nat) (ch : List Density) (gpio : BitVec 16) : Statement (.sampleInstant t net k ch gpio) := wf_time _
theorem laneSample (t : Nat) (n : Fin 4) (ch : List Density) (chk : LaneCheck) : Statement (.laneSample t n ch chk) := wf_time _
theorem measurementLostStop (t : Nat) (n : Fin 4) : Statement (.measurementLostStop t n) := wf_time _
theorem outputSaturated (t : Nat) (n : Fin 4) : Statement (.outputSaturated t n) := wf_time _
theorem pwmTurningPoint (t : Nat) (n : Fin 4) : Statement (.pwmTurningPoint t n) := wf_time _
theorem laneTakeover (t : Nat) : Statement (.laneTakeover t) := wf_time _
theorem uwbSync (t : Nat) (n : Fin 4) : Statement (.uwbSync t n) := wf_time _
theorem beaconNotConfirmed (t : Nat) (n : Fin 4) : Statement (.beaconNotConfirmed t n) := wf_time _
theorem radioPortReset (t : Nat) (n : Fin 4) : Statement (.radioPortReset t n) := wf_time _
theorem radioPortReady (t : Nat) (n : Fin 4) : Statement (.radioPortReady t n) := wf_time _
theorem uplink (m : RxMeta) (psdu : List Byte) : Statement (.uplink m psdu) := wf_time _
theorem joinRequest (string slot ts : Nat) (level : Int) (psdu : List Byte) : Statement (.joinRequest string slot ts level psdu) := wf_time _
theorem bulkUp (m : RxMeta) (psdu : List Byte) : Statement (.bulkUp m psdu) := wf_time _
theorem uplinkDeadline (t : Nat) : Statement (.uplinkDeadline t) := wf_time _
theorem bulkTransferTimeout (t : Nat) (n : Fin 4) (b : Fin 36) : Statement (.bulkTransferTimeout t n b) := wf_time _
theorem keyActivation (t : Nat) (n : Fin 4) : Statement (.keyActivation t n) := wf_time _
theorem estimatorUpdate (t : Nat) (late : List Nat) (recomputed : Bool) (lost : List (Fin 4)) : Statement (.estimatorUpdate t late recomputed lost) := wf_time _
theorem estimatorOverrun (t : Nat) : Statement (.estimatorOverrun t) := wf_time _
theorem combPublication (t : Nat) (late : BitVec 16) : Statement (.combPublication t late) := wf_time _
theorem openWireResultTimeout (t : Nat) (n : Fin 4) (b : Fin 36) : Statement (.openWireResultTimeout t n b) := wf_time _
theorem openWireRetry (t : Nat) (n : Fin 4) (b : Fin 36) : Statement (.openWireRetry t n b) := wf_time _
theorem burstResultTimeout (t : Nat) (n : Fin 4) (b : Fin 36) : Statement (.burstResultTimeout t n b) := wf_time _
theorem programDeadline (t us : Nat) (done : Bool) : Statement (.programDeadline t us done) := wf_time _
theorem safetyEvaluation (t : Nat) (selfOk : Bool) : Statement (.safetyEvaluation t selfOk) := wf_time _
theorem safetyEvaluationMissed (t : Nat) : Statement (.safetyEvaluationMissed t) := wf_time _
theorem fslUnitReceived (t : Nat) (u : UnitFrom) : Statement (.fslUnitReceived t u) := wf_time _
theorem fslWatchdogExpiry (t : Nat) (k : Fin 8) : Statement (.fslWatchdogExpiry t k) := wf_time _
theorem aliveToggle (t : Nat) : Statement (.aliveToggle t) := wf_time _
theorem permitLapse (t : Nat) : Statement (.permitLapse t) := wf_time _
theorem permitWithdrawn (t : Nat) (n : Fin 4) : Statement (.permitWithdrawn t n) := wf_time _
theorem contactorRelease (t : Nat) (n : Fin 4) : Statement (.contactorRelease t n) := wf_time _
theorem guardValue (t : Nat) (ch : List GuardDens) : Statement (.guardValue t ch) := wf_time _
theorem guardMean (t : Nat) (ch : List GuardDens) : Statement (.guardMean t ch) := wf_time _
theorem floopEdgeDrive (t : Nat) : Statement (.floopEdgeDrive t) := wf_time _
theorem floopInEdge (e : Edge) (n : Fin 4) (high : Bool) : Statement (.floopInEdge e n high) := wf_time _
theorem tripInputChange (t : Nat) (a b : Bool) : Statement (.tripInputChange t a b) := wf_time _
theorem tripDiscrepancy (t : Nat) : Statement (.tripDiscrepancy t) := wf_time _
theorem cfbChange (t : Nat) (n : Fin 4) (k : Fin 3) (closed : Bool) : Statement (.cfbChange t n k closed) := wf_time _
theorem contactorFeedbackFault (t : Nat) (n : Fin 4) (k : Fin 3) : Statement (.contactorFeedbackFault t n k) := wf_time _
theorem contactorWeld (t : Nat) (n : Fin 4) (k : Fin 3) : Statement (.contactorWeld t n k) := wf_time _
theorem guardScvRecompute (t : Nat) (intact : Bool) : Statement (.guardScvRecompute t intact) := wf_time _
theorem resetNFall (t tf : Nat) : Statement (.resetNFall t tf) := wf_time _
theorem resetNRise (t tr : Nat) : Statement (.resetNRise t tr) := wf_time _
theorem stuckReset (t : Nat) : Statement (.stuckReset t) := wf_time _
theorem stuckResetClear (t : Nat) : Statement (.stuckResetClear t) := wf_time _
theorem resetWindowClose (t : Nat) : Statement (.resetWindowClose t) := wf_time _
theorem connectionTimeout (t : Nat) (n : Fin 4) : Statement (.connectionTimeout t n) := wf_time _
theorem disconnectionTmax (t : Nat) (n : Fin 4) : Statement (.disconnectionTmax t n) := wf_time _
theorem lossHoldExpiry (t : Nat) : Statement (.lossHoldExpiry t) := wf_time _
theorem sourceRevert (t : Nat) : Statement (.sourceRevert t) := wf_time _
theorem allowanceTimeout (t : Nat) : Statement (.allowanceTimeout t) := wf_time _
theorem restWindowExpiry (t : Nat) (n : Fin 4) : Statement (.restWindowExpiry t n) := wf_time _
theorem burstArm (t : Nat) : Statement (.burstArm t) := wf_time _
theorem burstCurrentSample (t : Nat) (a b : Density) : Statement (.burstCurrentSample t a b) := wf_time _
theorem surveyBins (t : Nat) : Statement (.surveyBins t) := wf_time _
theorem impedanceResult (t : Nat) : Statement (.impedanceResult t) := wf_time _
theorem impedanceSurveyAbort (t : Nat) : Statement (.impedanceSurveyAbort t) := wf_time _
theorem capacitySurveyAbort (t : Nat) : Statement (.capacitySurveyAbort t) := wf_time _
theorem roundDieSensors (t : Nat) (counts : List Nat) : Statement (.roundDieSensors t counts) := wf_time _
theorem roundSupplySample (t : Nat) (mv : List Nat) (input : Nat) (dom : List Nat) : Statement (.roundSupplySample t mv input dom) := wf_time _
theorem bistSlice (t : Nat) (mv : BitVec 16) (clockOk : Bool) (result : Option (Bool × BitVec 32)) : Statement (.bistSlice t mv clockOk result) := wf_time _
theorem bistSliceAbort (v : VcoreRead) : Statement (.bistSliceAbort v) := wf_time _
theorem recorderCommit (t : Nat) : Statement (.recorderCommit t) := wf_time _
theorem recorderCommitMissed (t : Nat) : Statement (.recorderCommitMissed t) := wf_time _
theorem eventRecord (t : Nat) (code : BitVec 16) (arg : BitVec 32) : Statement (.eventRecord t code arg) := wf_time _
theorem fetchTrap (t : Nat) (addr : BitVec 32) (good : Bool) : Statement (.fetchTrap t addr good) := wf_time _
theorem dmaHalt (t : Nat) (channel : BitVec 8) (f : LineFault) (u : DmaUnit) : Statement (.dmaHalt t channel f u) := wf_time _
theorem bankCopyComplete (t : Nat) : Statement (.bankCopyComplete t) := wf_time _
theorem corePairFail (t : Nat) (p : Fin 2) : Statement (.corePairFail t p) := wf_time _
theorem pfwNFall (t : Nat) (step6 : Bool) : Statement (.pfwNFall t step6) := wf_time _
theorem powerFailSequenceEnd (t : Nat) (high : Bool) (vmain : BitVec 16) : Statement (.powerFailSequenceEnd t high vmain) := wf_time _
theorem vmainLoss (t : Nat) : Statement (.vmainLoss t) := wf_time _
theorem vguardLoss (t : Nat) : Statement (.vguardLoss t) := wf_time _
theorem ptpSync (ts : Nat) (port : Fin 2) (gm : Nat) (origin : WireTime) (corr : Int) : Statement (.ptpSync ts port gm origin corr) := wf_time _
theorem ptpAnnounce (ts : Nat) (port : Fin 2) (gm : Nat) (rank : List Nat) (domain : Nat) (ptpScale : Bool) (utc : Int) : Statement (.ptpAnnounce ts port gm rank domain ptpScale utc) := wf_time _
theorem ptpPdelay (t4 : Nat) (port : Fin 2) (seq : Nat) (t2 t3 : WireTime) : Statement (.ptpPdelay t4 port seq t2 t3) := wf_time _
theorem ptpSyncSend (t leaveA leaveB : Nat) : Statement (.ptpSyncSend t leaveA leaveB) := wf_time _
theorem announceTimeout (t : Nat) : Statement (.announceTimeout t) := wf_time _
theorem syncBoundExceeded (t : Nat) : Statement (.syncBoundExceeded t) := wf_time _
theorem ppsInEdge (ts : Edge) : Statement (.ppsInEdge ts) := wf_time _
theorem syncInEdge (ts : Edge) : Statement (.syncInEdge ts) := wf_time _
theorem syncLost (t : Nat) : Statement (.syncLost t) := wf_time _
theorem pulseInEdge (ts : Edge) : Statement (.pulseInEdge ts) := wf_time _
theorem capInEdge (ts : Edge) (k : Fin 8) (falling : Bool) : Statement (.capInEdge ts k falling) := wf_time _
theorem ppsOut (t : Nat) : Statement (.ppsOut t) := wf_time _
theorem configuredOutput (t : Nat) (k : Fin 8) : Statement (.configuredOutput t k) := wf_time _
theorem compareArm (t : Nat) (u : Fin 24) (target : Nat) : Statement (.compareArm t u target) := wf_time _
theorem transmitTimestamp (t id : Nat) (port : Fin 4) : Statement (.transmitTimestamp t id port) := wf_time _
theorem fhpDatagram (t addr port : Nat) (bytes : List Byte) (env : FhpEnv) : Statement (.fhpDatagram t addr port bytes env) := wf_time _
theorem openSession (t addr port seq : Nat) (pay tag : List Byte) : Statement (.openSession t addr port seq pay tag) := wf_time _
theorem close (t id seq : Nat) : Statement (.close t id seq) := wf_time _
theorem keepalive (t id seq : Nat) : Statement (.keepalive t id seq) := wf_time _
theorem sessionIdleTimeout (t : Nat) (k : Fin 8) : Statement (.sessionIdleTimeout t k) := wf_time _
theorem readItems (t id seq : Nat) (pay : List Byte) (ends : List Nat) : Statement (.readItems t id seq pay ends) := wf_time _
theorem readSlots (t id seq : Nat) (pay : List Byte) (ends : List Nat) : Statement (.readSlots t id seq pay ends) := wf_time _
theorem readMap (t id seq : Nat) (pay : List Byte) : Statement (.readMap t id seq pay) := wf_time _
theorem subscribe (t id seq : Nat) (pay : List Byte) : Statement (.subscribe t id seq pay) := wf_time _
theorem unsubscribe (t id seq : Nat) (pay : List Byte) : Statement (.unsubscribe t id seq pay) := wf_time _
theorem push (t : Nat) (k : Fin 8) (id : Nat) (ends : List Nat) : Statement (.push t k id ends) := wf_time _
theorem paramRead (t id seq : Nat) (pay : List Byte) : Statement (.paramRead t id seq pay) := wf_time _
theorem editLock (t id seq : Nat) (pay : List Byte) : Statement (.editLock t id seq pay) := wf_time _
theorem paramWrite (t id seq : Nat) (pay : List Byte) : Statement (.paramWrite t id seq pay) := wf_time _
theorem commit (t id seq : Nat) (pay : List Byte) : Statement (.commit t id seq pay) := wf_time _
theorem commitComplete (t : Nat) (ok4 ok6 : Bool) : Statement (.commitComplete t ok4 ok6) := wf_time _
theorem discard (t id seq : Nat) : Statement (.discard t id seq) := wf_time _
theorem eventList (t id seq : Nat) (pay : List Byte) : Statement (.eventList t id seq pay) := wf_time _
theorem recRead (t id seq : Nat) (pay : List Byte) : Statement (.recRead t id seq pay) := wf_time _
theorem progLoad (t id seq : Nat) (pay : List Byte) : Statement (.progLoad t id seq pay) := wf_time _
theorem progRead (t id seq : Nat) (pay : List Byte) : Statement (.progRead t id seq pay) := wf_time _
theorem programStagingTimeout (t : Nat) : Statement (.programStagingTimeout t) := wf_time _
theorem updBegin (t id seq : Nat) (pay sig : List Byte) : Statement (.updBegin t id seq pay sig) := wf_time _
theorem updChunk (t id seq : Nat) (pay : List Byte) (env : FhpEnv) : Statement (.updChunk t id seq pay env) := wf_time _
theorem updStatus (t id seq : Nat) (pay : List Byte) : Statement (.updStatus t id seq pay) := wf_time _
theorem updateStagingIdle (t : Nat) : Statement (.updateStagingIdle t) := wf_time _
theorem capRead (t id seq : Nat) (pay : List Byte) : Statement (.capRead t id seq pay) := wf_time _
theorem journalRead (t id seq : Nat) (pay : List Byte) : Statement (.journalRead t id seq pay) := wf_time _
theorem bistRead (t id seq : Nat) (pay : List Byte) : Statement (.bistRead t id seq pay) := wf_time _
theorem hostSetpoint (t : Nat) (w : Int) : Statement (.hostSetpoint t w) := wf_time _
theorem hostAllowance (t : Nat) (chg dis : BitVec 16) : Statement (.hostAllowance t chg dis) := wf_time _
theorem selectSetpointSource (t : Nat) (backup : Bool) : Statement (.selectSetpointSource t backup) := wf_time _
theorem connectString (t : Nat) (n : Fin 4) : Statement (.connectString t n) := wf_time _
theorem disconnectString (t : Nat) (n : Fin 4) : Statement (.disconnectString t n) := wf_time _
theorem closeRestWindow (t : Nat) (n : Fin 4) : Statement (.closeRestWindow t n) := wf_time _
theorem clearFailedConnection (t : Nat) (n : Fin 4) : Statement (.clearFailedConnection t n) := wf_time _
theorem changeMode (t : Nat) (r : Role) (code : BitVec 8) : Statement (.changeMode t r code) := wf_time _
theorem restartModule (t : Nat) : Statement (.restartModule t) := wf_time _
theorem manualDuty (t : Nat) (n : Fin 4) (duty : BitVec 16) : Statement (.manualDuty t n duty) := wf_time _
theorem automatic (t : Nat) (n : Fin 4) : Statement (.automatic t n) := wf_time _
theorem startImpedanceSurvey (t : Nat) (n : Fin 4) : Statement (.startImpedanceSurvey t n) := wf_time _
theorem abortImpedanceSurvey (t : Nat) : Statement (.abortImpedanceSurvey t) := wf_time _
theorem startCapacitySurvey (t : Nat) (n : Fin 4) : Statement (.startCapacitySurvey t n) := wf_time _
theorem abortCapacitySurvey (t : Nat) : Statement (.abortCapacitySurvey t) := wf_time _
theorem writeLearnedValues (t : Nat) (strings : BitVec 4) : Statement (.writeLearnedValues t strings) := wf_time _
theorem renewNetworkKey (t : Nat) (n : Fin 4) : Statement (.renewNetworkKey t n) := wf_time _
theorem releaseRosterEntry (t : Nat) (n : Fin 4) (b : Fin 36) (replaced : Bool) : Statement (.releaseRosterEntry t n b replaced) := wf_time _
theorem openWireTest (t : Nat) (n : Fin 4) (b : Fin 36) (k : Fin 17) : Statement (.openWireTest t n b k) := wf_time _
theorem confirmScv (t : Nat) (gen scv : BitVec 32) : Statement (.confirmScv t gen scv) := wf_time _
theorem programMode (t : Nat) (code : Fin 3) : Statement (.programMode t code) := wf_time _
theorem forceVariable (t : Nat) (var : BitVec 16) (v : BitVec 64) : Statement (.forceVariable t var v) := wf_time _
theorem releaseForce (t : Nat) (var : BitVec 16) : Statement (.releaseForce t var) := wf_time _
theorem activateOnlineChange (t : Nat) (version : BitVec 32) : Statement (.activateOnlineChange t version) := wf_time _
theorem clearRecorderRegion (t session : Nat) (region : BitVec 8) (token : BitVec 32) : Statement (.clearRecorderRegion t session region token) := wf_time _
theorem activateUpdate (t : Nat) (version : BitVec 32) : Statement (.activateUpdate t version) := wf_time _
theorem abortUpdate (t : Nat) : Statement (.abortUpdate t) := wf_time _
theorem runDeepSelfTest (t : Nat) (block : BitVec 8) : Statement (.runDeepSelfTest t block) := wf_time _
theorem activationSequence (t : Nat) : Statement (.activationSequence t) := wf_time _
theorem updateConfirmation (t : Nat) (seen : BitVec 7) : Statement (.updateConfirmation t seen) := wf_time _
theorem updateRollback (t : Nat) : Statement (.updateRollback t) := wf_time _
theorem foragerStagingFail (t : Nat) (n : Fin 4) (b : Fin 36) : Statement (.foragerStagingFail t n b) := wf_time _
theorem icmpEcho (t : Nat) (addr : NetFrom) (data : List Byte) : Statement (.icmpEcho t addr data) := wf_time _
theorem arpRequest (t : Nat) (from_ : NetFrom) (target : Nat) : Statement (.arpRequest t from_ target) := wf_time _
theorem prpSupervision (t : Nat) (heard : BitVec 2) : Statement (.prpSupervision t heard) := wf_time _
theorem canFrameReceived (sof ts : Nat) (p : Fin 2) (id : Nat) (ext remote : Bool) (data : List (BitVec 8)) : Statement (.canFrameReceived sof ts p id ext remote data) := wf_time _
theorem setpoint (t : Nat) (p : Fin 2) : Statement (.setpoint t p) := wf_time _
theorem timeRef (t : Nat) : Statement (.timeRef t) := wf_time _
theorem timeFollow (t : Nat) (p : Fin 2) : Statement (.timeFollow t p) := wf_time _
theorem timeRefReceived (t : Nat) (p : Fin 2) : Statement (.timeRefReceived t p) := wf_time _
theorem timeMasterTakeover (t : Nat) : Statement (.timeMasterTakeover t) := wf_time _
theorem canErrorState (t : Nat) (p : Fin 2) (err : Fin 3) : Statement (.canErrorState t p err) := wf_time _
theorem canBusoffRecovery (t : Nat) (p : Fin 2) : Statement (.canBusoffRecovery t p) := wf_time _
theorem canAutobaud (t : Nat) (p : Fin 2) (good : Bool) : Statement (.canAutobaud t p good) := wf_time _
theorem canTxRemoval (t : Nat) : Statement (.canTxRemoval t) := wf_time _
theorem canopenSync (t : Nat) : Statement (.canopenSync t) := wf_time _
theorem canopenHeartbeat (t : Nat) : Statement (.canopenHeartbeat t) := wf_time _
theorem canopenSdoResponse (t : Nat) : Statement (.canopenSdoResponse t) := wf_time _
theorem canopenTpdo (t : Nat) : Statement (.canopenTpdo t) := wf_time _
theorem canopenEmcy (t : Nat) : Statement (.canopenEmcy t) := wf_time _
theorem canopenStationAbsent (t : Nat) (k : Fin 16) : Statement (.canopenStationAbsent t k) := wf_time _
theorem porNAssert (t : Nat) : Statement (.porNAssert t) := wf_time _
theorem vmainReturn : Statement (.vmainReturn) := wf_time _
theorem floopEdgeNotReturned (t : Nat) (n : Fin 4) : Statement (.floopEdgeNotReturned t n) := wf_time _
theorem peerDelayExpiry (t : Nat) (port : Fin 2) : Statement (.peerDelayExpiry t port) := wf_time _
theorem pdelayReqSend (t : Nat) : Statement (.pdelayReqSend t) := wf_time _
theorem timeFollowUpMissing (t : Nat) : Statement (.timeFollowUpMissing t) := wf_time _
theorem deepTestEnd (t : Nat) (fails : BitVec 7) (detail : BitVec 32) : Statement (.deepTestEnd t fails detail) := wf_time _
theorem bulkDownSlot (t : Nat) (n : Fin 4) (k : Fin 5) : Statement (.bulkDownSlot t n k) := wf_time _

end Sys2Proof.Laws.Form
end

