-- ==== Sys2Proof/Tests/Slice0.lean ====
section
/-!
SUPPORT. Slice0: tests of the model. Operands that the checks refuse (R31, R230, Tables 4-3 to 4-7); single values and steps against the
worked examples and check values of the spec; and for each clause of a statement that has conditions, a state and operands that meet
all of them together (theorems meets_<Name>).
-/
set_option linter.all false
set_option Elab.async false

namespace Sys2Proof.Tests
open Sys2Proof Sys2Proof.Machine

/-! Operands (WellFormed). -/

def d0 : Density := { bits := 2 ^ 769 - 1 }
def m0 : Rx := { string := 3, slot := 48, ts := 2 ^ 64 - 1, level := -127, psdu := List.replicate 160 255 }
def fromRx (f : RxMeta → List Byte → Instr) (x : Rx) : Instr := f x.toRxMeta x.psdu
def joinFrom (x : Rx) : Instr := .joinRequest x.string x.slot x.ts x.level x.psdu
def l0 : LineFault := { addr := 2 ^ 32 - 1, data := [], check := 0, holds := .code }
def w0 : WireTime := { sec := 2 ^ 48 - 1, nanos := 2 ^ 32 - 1 }

/-- A time that 64 bits do not hold is refused in every command that brings a time (R31). -/
theorem test_wf_time (i : Instr) (t : Nat) (h : i.time = some t) (ht : 2 ^ 64 ≤ t) : i.wf = false := by
  have : timeOk t = false := by simpa [timeOk, natOk] using ht
  simp [Instr.wf, h, this]

/-- Operands at the ends of their ranges are taken. -/
theorem test_wf_taken : (
  [.startTimeAcquisition (some (0, 0, 1)), .tickBoundary 1 d0, .frameBoundary 1 [] [] [] true, .sampleInstant 1 [] 1 [] 0,
   .laneSample 1 0 [] .ok, fromRx .uplink m0, joinFrom m0, fromRx .bulkUp m0, .estimatorUpdate 1 [] true [], .programDeadline 1 1 true,
   .fslUnitReceived 1 (.can 0), .guardValue 1 [], .guardMean 1 [], .floopInEdge ⟨1, 0⟩ 0 true, .resetNFall 1 1, .resetNRise 1 1,
   .burstCurrentSample 1 d0 d0, .roundDieSensors 1 [], .roundSupplySample 1 [] 1 [], .dmaHalt 1 0 l0 .other, .ptpSync 1 0 1 w0 0,
   .ptpAnnounce 1 0 1 [] 1 true 0, .ptpPdelay 1 0 1 w0 w0, .ptpSyncSend 1 1 1, .ppsInEdge ⟨1, 0⟩, .syncInEdge ⟨1, 0⟩, .pulseInEdge ⟨1, 0⟩,
   .capInEdge ⟨1, 0⟩ 0 true, .compareArm 1 0 1, .transmitTimestamp 1 1 0, .fhpDatagram 1 1 1 [] {}, .openSession 1 1 1 1 [] [],
   .close 1 1 1, .keepalive 1 1 1, .readItems 1 1 1 [] [], .readSlots 1 1 1 [] [], .readMap 1 1 1 [], .subscribe 1 1 1 [],
   .unsubscribe 1 1 1 [], .push 1 0 1 [], .paramRead 1 1 1 [], .editLock 1 1 1 [], .paramWrite 1 1 1 [], .commit 1 1 1 [], .discard 1 1 1,
   .eventList 1 1 1 [], .recRead 1 1 1 [], .progLoad 1 1 1 [], .progRead 1 1 1 [], .updBegin 1 1 1 [] [], .updChunk 1 1 1 [] {},
   .updStatus 1 1 1 [], .capRead 1 1 1 [], .journalRead 1 1 1 [], .bistRead 1 1 1 [], .hostSetpoint 1 0, .clearRecorderRegion 1 1 0 0,
   .icmpEcho 1 { addr := 1 } [], .arpRequest 1 { addr := 1 } 1, .canFrameReceived 1 1 0 1 true true []] : List Instr).all Instr.wf = true := by decide +kernel

/-- Each of these has one operand outside its range, and is refused. -/
theorem test_wf_refused1 : (
  [.startTimeAcquisition (some (0, 2 ^ 63, 1)), .startTimeAcquisition (some (0, 0, 2 ^ 64)), .tickBoundary 1 { bits := 2 ^ 769 },
   .frameBoundary 1 [0, 2 ^ 64] [] [] true, .frameBoundary 1 [] [{ l0 with addr := 2 ^ 32 }] [] true, .frameBoundary 1 [] [] [(5, 0)] true,
   .sampleInstant 1 [2 ^ 63] 1 [] 0, .sampleInstant 1 (List.replicate 9 0) 1 [] 0, .sampleInstant 1 [] (2 ^ 64) [] 0,
   .sampleInstant 1 [] 1 [d0, { bits := 2 ^ 769 }] 0, .sampleInstant 1 [] 1 (List.replicate 21 d0) 0,
   .laneSample 1 0 [d0, { bits := 2 ^ 769 }] .ok, .laneSample 1 0 (List.replicate 21 d0) .ok, fromRx .uplink { m0 with string := 4 },
   fromRx .uplink { m0 with slot := 49 }, fromRx .uplink { m0 with ts := 2 ^ 64 }, fromRx .uplink { m0 with level := 128 },
   fromRx .uplink { m0 with psdu := List.replicate 161 0 }, joinFrom { m0 with string := 4 }, joinFrom { m0 with slot := 49 },
   joinFrom { m0 with ts := 2 ^ 64 }, joinFrom { m0 with level := 128 }, joinFrom { m0 with psdu := List.replicate 161 0 },
   fromRx .bulkUp { m0 with string := 4 }, fromRx .bulkUp { m0 with slot := 49 }, fromRx .bulkUp { m0 with ts := 2 ^ 64 },
   fromRx .bulkUp { m0 with level := 128 }, fromRx .bulkUp { m0 with psdu := List.replicate 161 0 },
   .estimatorUpdate 1 [0, 2 ^ 64] true [], .estimatorUpdate 1 [] true (List.replicate 5 0), .programDeadline 1 (2 ^ 32) true,
   .fslUnitReceived 1 (.udp {} (List.replicate 1473 0)), .fslUnitReceived 1 (.udp { dest := 2 ^ 32 } []),
   .guardValue 1 [⟨{ bits := 2 ^ 769 }, 0⟩], .guardValue 1 (List.replicate 11 ⟨d0, 0⟩), .guardMean 1 [⟨{ bits := 2 ^ 769 }, 0⟩],
   .guardMean 1 (List.replicate 11 ⟨d0, 0⟩), .floopInEdge ⟨1, 2 ^ 64⟩ 0 true, .resetNFall 1 (2 ^ 64), .resetNRise 1 (2 ^ 64),
   .burstCurrentSample 1 { bits := 2 ^ 769 } d0, .burstCurrentSample 1 d0 { bits := 2 ^ 769 }, .roundDieSensors 1 [0, 2 ^ 64],
   .roundSupplySample 1 [0, 2 ^ 64] 1 [], .roundSupplySample 1 [] (2 ^ 64) []] : List Instr).all (fun i => !i.wf) = true := by decide +kernel

/-- Each of these has one operand outside its range, and is refused. -/
theorem test_wf_refused2 : (
  [.roundSupplySample 1 [] 1 [0, 2 ^ 64], .dmaHalt 1 0 { l0 with addr := 2 ^ 32 } .other, .ptpSync 1 0 (2 ^ 64) w0 0,
   .ptpSync 1 0 1 ⟨2 ^ 48, 0⟩ 0, .ptpSync 1 0 1 ⟨0, 2 ^ 32⟩ 0, .ptpSync 1 0 1 w0 (2 ^ 63), .ptpSync 1 0 1 w0 (-2 ^ 63 - 1),
   .ptpAnnounce 1 0 (2 ^ 64) [] 1 true 0, .ptpAnnounce 1 0 1 [0, 2 ^ 64] 1 true 0, .ptpAnnounce 1 0 1 [] (2 ^ 32) true 0,
   .ptpAnnounce 1 0 1 [] 1 true (2 ^ 63), .ptpAnnounce 1 0 1 [] 1 true (-2 ^ 63 - 1), .ptpPdelay 1 0 (2 ^ 32) w0 w0,
   .ptpPdelay 1 0 1 ⟨2 ^ 48, 0⟩ w0, .ptpPdelay 1 0 1 ⟨0, 2 ^ 32⟩ w0, .ptpPdelay 1 0 1 w0 ⟨2 ^ 48, 0⟩, .ptpPdelay 1 0 1 w0 ⟨0, 2 ^ 32⟩,
   .ptpSyncSend 1 (2 ^ 64) 1, .ptpSyncSend 1 1 (2 ^ 64), .ppsInEdge ⟨1, 2 ^ 64⟩, .syncInEdge ⟨1, 2 ^ 64⟩, .pulseInEdge ⟨1, 2 ^ 64⟩,
   .capInEdge ⟨1, 2 ^ 64⟩ 0 true, .compareArm 1 0 (2 ^ 64), .transmitTimestamp 1 (2 ^ 32) 0, .fhpDatagram 1 (2 ^ 64) 1 [] {},
   .fhpDatagram 1 1 (2 ^ 64) [] {}, .fhpDatagram 1 1 1 (List.replicate 1473 0) {}, .fhpDatagram 1 1 1 [] { ends := [2 ^ 64] },
   .fhpDatagram 1 1 1 [] { net := { prp := some (2 ^ 48, 0) } }, .fhpDatagram 1 1 1 [] { net := { prp := some (0, 2 ^ 16) } },
   .fhpDatagram 1 1 1 [] { net := { dest := 2 ^ 32 } }, .fhpDatagram 1 1 1 [] { net := { port := 2 ^ 16 } },
   .openSession 1 (2 ^ 64) 1 1 [] [], .openSession 1 1 (2 ^ 64) 1 [] [], .openSession 1 1 1 (2 ^ 32) [] [],
   .openSession 1 1 1 1 (List.replicate 1473 0) [], .openSession 1 1 1 1 [] (List.replicate 1473 0), .close 1 (2 ^ 32) 1,
   .close 1 1 (2 ^ 32), .keepalive 1 (2 ^ 32) 1, .keepalive 1 1 (2 ^ 32), .readItems 1 (2 ^ 32) 1 [] [], .readItems 1 1 (2 ^ 32) [] [],
   .readItems 1 1 1 (List.replicate 1473 0) []] : List Instr).all (fun i => !i.wf) = true := by decide +kernel

/-- Each of these has one operand outside its range, and is refused. -/
theorem test_wf_refused3 : (
  [.readItems 1 1 1 [] [0, 2 ^ 64], .readSlots 1 (2 ^ 32) 1 [] [], .readSlots 1 1 (2 ^ 32) [] [],
   .readSlots 1 1 1 (List.replicate 1473 0) [], .readSlots 1 1 1 [] [0, 2 ^ 64], .readMap 1 (2 ^ 32) 1 [], .readMap 1 1 (2 ^ 32) [],
   .readMap 1 1 1 (List.replicate 1473 0), .subscribe 1 (2 ^ 32) 1 [], .subscribe 1 1 (2 ^ 32) [],
   .subscribe 1 1 1 (List.replicate 1473 0), .unsubscribe 1 (2 ^ 32) 1 [], .unsubscribe 1 1 (2 ^ 32) [],
   .unsubscribe 1 1 1 (List.replicate 1473 0), .push 1 0 (2 ^ 32) [], .push 1 0 1 [0, 2 ^ 64], .paramRead 1 (2 ^ 32) 1 [],
   .paramRead 1 1 (2 ^ 32) [], .paramRead 1 1 1 (List.replicate 1473 0), .editLock 1 (2 ^ 32) 1 [], .editLock 1 1 (2 ^ 32) [],
   .editLock 1 1 1 (List.replicate 1473 0), .paramWrite 1 (2 ^ 32) 1 [], .paramWrite 1 1 (2 ^ 32) [],
   .paramWrite 1 1 1 (List.replicate 1473 0), .commit 1 (2 ^ 32) 1 [], .commit 1 1 (2 ^ 32) [], .commit 1 1 1 (List.replicate 1473 0),
   .discard 1 (2 ^ 32) 1, .discard 1 1 (2 ^ 32), .eventList 1 (2 ^ 32) 1 [], .eventList 1 1 (2 ^ 32) [],
   .eventList 1 1 1 (List.replicate 1473 0), .recRead 1 (2 ^ 32) 1 [], .recRead 1 1 (2 ^ 32) [], .recRead 1 1 1 (List.replicate 1473 0),
   .progLoad 1 (2 ^ 32) 1 [], .progLoad 1 1 (2 ^ 32) [], .progLoad 1 1 1 (List.replicate 1473 0), .progRead 1 (2 ^ 32) 1 [],
   .progRead 1 1 (2 ^ 32) [], .progRead 1 1 1 (List.replicate 1473 0), .updBegin 1 (2 ^ 32) 1 [] [], .updBegin 1 1 (2 ^ 32) [] [],
   .updBegin 1 1 1 (List.replicate 1473 0) []] : List Instr).all (fun i => !i.wf) = true := by decide +kernel

/-- Each of these has one operand outside its range, and is refused. -/
theorem test_wf_refused4 : (
  [.updBegin 1 1 1 [] (List.replicate 1473 0), .updChunk 1 (2 ^ 32) 1 [] {}, .updChunk 1 1 (2 ^ 32) [] {},
   .updChunk 1 1 1 (List.replicate 1473 0) {}, .updChunk 1 1 1 [] { ends := [2 ^ 64] }, .updStatus 1 (2 ^ 32) 1 [],
   .updStatus 1 1 (2 ^ 32) [], .updStatus 1 1 1 (List.replicate 1473 0), .capRead 1 (2 ^ 32) 1 [], .capRead 1 1 (2 ^ 32) [],
   .capRead 1 1 1 (List.replicate 1473 0), .journalRead 1 (2 ^ 32) 1 [], .journalRead 1 1 (2 ^ 32) [],
   .journalRead 1 1 1 (List.replicate 1473 0), .bistRead 1 (2 ^ 32) 1 [], .bistRead 1 1 (2 ^ 32) [],
   .bistRead 1 1 1 (List.replicate 1473 0), .hostSetpoint 1 (2 ^ 63), .hostSetpoint 1 (-2 ^ 63 - 1), .clearRecorderRegion 1 (2 ^ 64) 0 0,
   .icmpEcho 1 { addr := 2 ^ 32 } [], .icmpEcho 1 { addr := 1, net := { prp := some (2 ^ 48, 0) } } [],
   .icmpEcho 1 { addr := 1, net := { prp := some (0, 2 ^ 16) } } [], .icmpEcho 1 { addr := 1, net := { dest := 2 ^ 32 } } [],
   .icmpEcho 1 { addr := 1, net := { port := 2 ^ 16 } } [], .icmpEcho 1 { addr := 1 } (List.replicate 1473 0),
   .arpRequest 1 { addr := 2 ^ 32 } 1, .arpRequest 1 { addr := 1, net := { prp := some (2 ^ 48, 0) } } 1,
   .arpRequest 1 { addr := 1, net := { prp := some (0, 2 ^ 16) } } 1, .arpRequest 1 { addr := 1, net := { dest := 2 ^ 32 } } 1,
   .arpRequest 1 { addr := 1, net := { port := 2 ^ 16 } } 1, .arpRequest 1 { addr := 1 } (2 ^ 64),
   .canFrameReceived (2 ^ 64) 1 0 1 true true [], .canFrameReceived 1 1 0 (2 ^ 32) true true [],
   .canFrameReceived 1 1 0 1 true true (List.replicate 65 0)] : List Instr).all (fun i => !i.wf) = true := by decide +kernel

/-! States that the tests use. -/

/-- Running in Standby after Start, with nothing enrolled. -/
def run0 : State := { boot := { phase := .run, mode := .standby } }
def setPar (p : PName) (i j : Nat) (v : Int) (s : State) : State :=
  { s with boot := { s.boot with run := { s.boot.run with params := ({ p := p, i := i, j := j }, v) :: s.boot.run.params } } }
def linked (s : State) : State := setPar .linkStrings 0 0 15 s
def enrol (n b : Nat) (s : State) : State := s.updForg (36 * n + b) fun f => { f with uid := some (100 * n + b) }
/-- the frame of a forager in the running frame, with the fcs and the MIC that belong to it -/
def sealed (s : State) (typ slot src n key : Nat) (d : List Byte) : Rx :=
  { string := n, slot := slot, ts := s.frameStart + 5, level := -60,
    psdu := psduOf key (nonceOf s.time.frame (if typ == 2 then src + 1 else slot) (headSrc src n) (netId s) (headTv typ))
      (Machine.pack [(1, headTv typ), (1, headSrc src n), (2, netId s), (4, s.time.frame)]) [] d }
/-- the string's frames run under the key 7 -/
def begun (n : Nat) (s : State) : State := (linked s).updLink n fun l => { l with port := 0, begun := true, key := some 7, keyNext := none }
/-- surveys, bulk work and self tests are granted -/
def p3On (s : State) : State :=
  { s with therm := { s.therm with throttle := false }, pwr := { s.pwr with seqAt := none, req := [], grant := [0, 0, 0, 9] }, mem := { s.mem with pairOk := [true, true] } }
def closedAll (s : State) : State := { s with guard := { s.guard with cfb := List.replicate 12 true } }
def inMode (m : Mode) (s : State) : State := { s with boot := { s.boot with mode := m } }
/-- the Guard runs and every scope is granted and free of latches -/
def guardOn (s : State) : State :=
  { s with pwr := { s.pwr with vguard := true, vmain := true }, bist := { s.bist with deep := none }, boot := { s.boot with porN := true },
           guard := { s.guard with started := true, granted := List.replicate 5 true, latch := List.replicate 5 {}, line := List.replicate 4 true,
                                   params := some [({ p := .safeStrings }, 15)] } }
/-- an open session -/
def sess : Session := { id := 77, role := .engineer, key := [1, 2, 3], addr := 4, port := 9, sLast := 41, replies := [], lastReq := 3, confirmed := true, tokens := 5, tokensAt := 3, pushSeq := 6, subs := [] }
/-- the network runs, and the session is open in slot 3 -/
def online (x : Session) (s : State) : State :=
  { s with boot := { s.boot with ethOut := [false, false] },
           host := { s.host with slots := [some { x with id := 5, sLast := 3 }, none, none, some x, none, none, some { x with id := 78 }, none] } }
def portIs (p : Nat) (c : CanPort) (s : State) : State := { s with can := { s.can with ports := s.can.ports.set p c } }
/-- a cyclic program of one variable of a kind and one NOT block -/
def progBytes (kind crc : Nat) : List Byte :=
  toLE 2 0x5047 ++ toLE 1 1 ++ toLE 1 1 ++ toLE 4 7 ++ toLE 2 1 ++ toLE 2 1 ++ toLE 4 crc ++ List.replicate 16 0 ++
  toLE 1 10 ++ toLE 1 kind ++ toLE 1 255 ++ List.replicate 13 0 ++
  toLE 4 1 ++ [1, 1, 1, 0] ++ toLE 2 0 ++ List.replicate 10 255 ++ toLE 2 0 ++ List.replicate 6 255 ++ toLE 4 0
/-- parameters with which the content of a configuration passes every check, without strings -/
def quietPar : List (ParamKey × Int) :=
  [({ p := .linkStrings }, 0), ({ p := .regStrings }, 0)] ++ (List.range 4).map (fun n => ({ p := .safeCalGain, i := 4 * n }, 0x453B8000))
/-- the session holds the edit lock, and the committed configuration passes every check -/
def editing (x : Session) (s : State) : State :=
  let u := online x s
  { u with host := { u.host with lock := some 77 },
           boot := { u.boot with commit := none, comGen := 5, aside := 0, life := .provisioned, pend := [({ p := .hostRateReq }, 60)], com := { params := quietPar }, phase := .run },
           therm := { u.therm with flashInh := false }, prog := { u.prog with active := none, staged := none } }
def event (code arg : Nat) : EvRec :=
  { seq := 3, code := code, active := true, arg := arg, repeat_ := 2, firstT := 4, firstOps := 5, firstPc := 6, lastT := 7, lastOps := 8, lastPc := 9 }
def ringIs (k : Nat) (es : List EvRec) (s : State) : State := { s with recorder := { s.recorder with rings := s.recorder.rings.set k es } }
def commitRun : CommitRun := { img := { gen := 6, cfg := { params := quietPar } }, slot := 3, session := 77, seq := 40 }
def progImg : ProgImage := { period := 1, version := 7, vars := [{ typ := 10, kind := 0 }, { typ := 2, kind := 1 }, { typ := 9, kind := 3 }], insts := [], raw := [] }
def startAt (k : Nat) (s : State) : State := { s with boot := { s.boot with phase := .start, step := k } }
def pack : Manifest := { version := 9, level := 3, packageLen := 5000, parts := [{ code := 1, version := 9, offset := 1024, size := 3000 }] }
/-- a manifest of six parts, part k at k * 2048 with 1000 bytes -/
def manifestBytes (version level : Nat) : List Byte :=
  toLE 2 0x4D46 ++ [1, 6] ++ toLE 4 version ++ toLE 2 level ++ toLE 2 0x2304 ++ toLE 4 20000 ++ List.replicate 16 0 ++
  (List.range 6).flatMap (fun k => toLE 1 (k + 1) ++ [0, 0, 0] ++ toLE 4 version ++ toLE 4 (2048 * (k + 1)) ++ toLE 4 1000 ++ List.replicate 32 0) ++ List.replicate 64 0
/-- that manifest of version 9 and level 3 with a signature (openssl, prime256v1) and the public key of its signer -/
def signedManifest : List Byte :=
  (manifestBytes 9 3).take 320 ++ toLE 32 0x6352e3b21ff7f5465b4969aea898dfa95f57c079d9f5a0446bbbc1aee186d1c8 ++ toLE 32 0xb27c9ed3a866cc81e2ce62c7fff4a12a87be62082fbd93beb7595dcdf7ae1483
def signer : Nat × Nat := (0x61789fb49243681d586f97c533d5162afed2ad653dc761ae50505395c655be36, 0x247f9fdc1b86d0f7b3c244256c7fc480c13c6484aad21198d93895f32f10b471)
def confirming : State := { run0 with core := { run0.core with scvOk := true, faultsHeld := 0 }, forgs := List.replicate 144 {}, upd := { run0.upd with st := 6, deadline := some 9999, running := { run0.upd.running with level := 3 } } }
theorem upOk : ∀ k, 1 ≤ k → k ≤ 6 → k ∈ confirming.upd.up ∨ partUp (confirming.at_ 9) 0x7F k = true := by
  have h : ∀ k, k ≤ 6 → 1 ≤ k → k ∈ confirming.upd.up ∨ partUp (confirming.at_ 9) 0x7F k = true := by decide +kernel
  exact fun k a b => h k b a
theorem absAbove_self (x : Rat × Rat) (k : Rat) (h : 0 ≤ k) : absAbove (x.1 - x.1, x.2 - x.2) k x = false := by
  have h2 : 0 ≤ k * k * (x.1 * x.1 + x.2 * x.2) := 
    mul_nonneg (mul_self_nonneg k) (add_nonneg (mul_self_nonneg _) (mul_self_nonneg _))
  simp only [absAbove, decide_eq_false_iff_not, sub_self]
  linarith

/-! Values and steps of the spec's examples. -/

def ascii9 : List Byte := [0x31, 0x32, 0x33, 0x34, 0x35, 0x36, 0x37, 0x38, 0x39]

/-- The check value that R348 gives. -/
theorem test_crc_fsl : crcFsl ascii9 = 0x1697D06A := by decide +kernel
/-- The check value that R491 gives. -/
theorem test_crc16 : crc16 ascii9 = 0x29B1 := by decide +kernel

/-- The PDU of the example before Table 12-8: RESET_REQUEST for string 2 with request 42. -/
theorem test_fsl_pdu : let p := fslPdu 0x00531001 7 120 3 [0x04, 0, 42, 0]
    p.length = 20 ∧ p.take 16 = [0x01, 0x10, 0x53, 0, 7, 0, 0, 0, 0x78, 0, 3, 4, 4, 0, 0x2A, 0] ∧ fslCrcOk 0x00531001 p = true := by decide +kernel
/-- The same PDU fails its CRC under another connection ID (R348). -/
theorem test_fsl_other : fslCrcOk 0x00531002 (fslPdu 0x00531001 7 120 3 [0x04, 0, 42, 0]) = false := by decide +kernel

/-- net_id and routes of the example before Table 4-14. -/
theorem test_net_id : netId (setPar .bootBlock 0 0 5 (setPar .bootPosition 0 0 3 run0)) = 0x53 := by decide +kernel
theorem test_routes : routePrimary 0x1B89 = 9 ∧ routeSecondary 0x1B89 = 27 ∧ routeAlways 0x1B89 = true ∧
    routePrimary 0x3F04 = 4 ∧ routeSecondary 0x3F04 = 63 ∧ routeAlways 0x3F04 = false := by decide
/-- Key of the voltage of cell 6 of brick 12 on string 1 (example before Table 5-8). -/
theorem test_key : keyArea 0x04306010 = 4 ∧ keyInst 0x04306010 = 576 + 12 * 16 + 6 ∧ keyField 0x04306010 = 0x010 := by decide

/-- The charge of the example of R162: -157 A for 10 ms, 9.8 ms of bleed at 3.3000 V through 22.00 Ohm. -/
theorem test_charge : let c := chargeCell run0 { qs := -1570000 } { tInt := 10000000, dis := 0, gap := false, broken := false } 9800000 2200 { q := 0, vLast := 33000 }
    c.q = -1571485 ∧ c.b = 1470 := by decide +kernel
/-- A cell beside it that does not bleed. -/
theorem test_charge_rest : (chargeCell run0 { qs := -1570000 } { tInt := 10000000, dis := 0, gap := false, broken := false } 0 2200 { q := 0, vLast := 33000 }).q = -1570015 := by
  decide +kernel
/-- Brick 10 of string 0 at 25.0 degC, and a cell of 314 Ah at a charge and 3.3000 V. -/
def warm (s : State) : State := s.updForg 10 fun f => { f with groups := List.replicate 4 { val := 250, q := .good, age := some 0 } }
def balCell (q : Int) : Cell := { q := q, v := { val := 33000, q := .good, age := some 0 } }
/-- The bleed of the example before R129: 38,449 s at 62.40 % against 61.80 %, capped at 120 s; a difference of 0.50 % bleeds nothing (R127). -/
theorem test_bleed : balSecs (setPar .cellBalTMax 0 0 40000 (warm run0)) (warm run0) 0 165 6180 (balCell 705369600000) = 38449 ∧
    balSecs (warm run0) (warm run0) 0 165 6180 (balCell 705369600000) = 120 ∧ balSecs (warm run0) (warm run0) 0 165 6190 (balCell 705369600000) = 0 := by decide +kernel
/-- The reading and slope of the example of R173. -/
theorem test_reading : readSoc [(95, 3365), (195/2, 3395)] (33812/10) = (9635/100, 12) := by decide +kernel
/-- SOC of that example after the combination with the count: 96.34 %. -/
theorem test_combine : (combine 9 1 (9635/100) (2675/10000) { cap := 10000, q := 9580, sigma := 24/10 }).q = 9634 := by decide +kernel
/-- Capacity steps of the example of R218: 314 Ah and 270.00 Ah give 304.58 Ah; 306.20 Ah gives 312.05 Ah. -/
theorem test_cap_step : (capStep 5 (270 * 3600000000) {}).cap = 30458 * 36000000 ∧ (capStep 5 (3062 * 360000000) {}).cap = 31205 * 36000000 := by decide +kernel
/-- Table 9-4: string 3 is fixed at its limit, and strings 0 and 2 share the rest as 300 to 280. -/
theorem test_shares : sharePasses 5 (-900000) [(0, 300000, 370000), (2, 280000, 369000), (3, 192000, 223200)] =
    [(3, -223200), (0, -676800 * 300 / 580), (2, -676800 * 280 / 580)] := by decide +kernel
/-- The derating of the example before R304: 54.0 degC between 50.0 and 60.0. -/
theorem test_derate : derate 500 600 540 = 6/10 := by decide +kernel
/-- The servo of Table 13-3 at 44.200 s: f = 1250 + 2900 * 44.2 / 1024 and r_target = f + 181.25. -/
theorem test_servo : let f := servoFreq run0 1250 (-2900) (442/10)
    f = 1250 + 2900 * (442/10) / 1024 ∧ servoTarget run0 f (-2900) = f + 18125/100 := by decide +kernel
/-- Bins of the example of chapter 17: -157 A, 55.00 % and 31.4 degC. -/
theorem test_bins : dwellBin ((-157 + 400) / (25/2)) 63 = 19 ∧ dwellBin (55 / 5) 19 = 11 ∧ dwellBin ((314/10 + 40) / 10) 15 = 7 := by decide +kernel

/-- The set-point of the example before Table 14-9, with the tag of its session, is held as the latest host message. -/
theorem test_host_setpoint : (let m : List Byte := [0x48, 0x46, 0x01, 0x00, 0x17, 0x00, 0x3C, 0x5A, 0xB1, 0x04, 0x00, 0x00, 0x01, 0x04, 0x08, 0x00] ++ [0x01, 0x01, 0xFF, 0x00, 0x60, 0x44, 0xF2, 0xFF]
    match exec (.fhpDatagram (run0.time.now + 5) 4 9 (m ++ fhpTag sess.key m) {})
      (online { sess with id := 0x5A3C0017, sLast := 1200, role := .operator, tokens := 50 } run0) with
    | .next s => s.disp.hostHeld.map (·.1)
    | _ => []) = [-900000] := by decide +kernel

/-- SHA-256 of "abc" (FIPS 180-4). -/
theorem test_sha256 : sha256 [0x61, 0x62, 0x63] = 0xba7816bf8f01cfea414140de5dae2223b00361a396177a9cb410ff61f20015ad := by decide +kernel

/-- AES-128 (FIPS 197, example C.1), octets low first. -/
theorem test_aes : toLE 16 (aes 0x0f0e0d0c0b0a09080706050403020100 0xffeeddccbbaa99887766554433221100) =
    [0x69, 0xc4, 0xe0, 0xd8, 0x6a, 0x7b, 0x04, 0x30, 0xd8, 0xcd, 0xb7, 0x80, 0x70, 0xb4, 0xc5, 0x5a] := by decide +kernel

/-! Conditions of the statements can be met. -/

theorem meets_InputEdges :
    (∃ (ts : Nat) (held : Nat) (s : State),
    s.up = true ∧ 100 ≤ held) ∧
    (∃ (ts : Nat) (held : Nat) (s : State),
    s.up = true ∧ 100 ≤ held) ∧
    (∃ (ts : Nat) (held : Nat) (k : Fin 8) (falling : Bool) (s : State),
    s.up = true ∧ s.parN .timeCapFilter k.val ≤ held ∧ s.time.capture.length = 8 ∧ s.time.capLost.length = 8 ∧ (s.parN .timeCapEdge k.val = 2 ∨ s.parN .timeCapEdge k.val = (if falling then 1 else 0)) ∧ (s.time.capture.getD k.val []).length < 8) ∧
    (∃ (ts : Nat) (held : Nat) (k : Fin 8) (falling : Bool) (s : State),
    s.up = true ∧ s.parN .timeCapFilter k.val ≤ held ∧ s.time.capLost.length = 8 ∧ (s.parN .timeCapEdge k.val = 2 ∨ s.parN .timeCapEdge k.val = (if falling then 1 else 0)) ∧ 8 ≤ (s.time.capture.getD k.val []).length) ∧
    (∃ (ts : Nat) (held : Nat) (s : State),
    s.up = true ∧ 100 ≤ held ∧ (secondOffset ts).natAbs ≤ s.parN .timePpsWindow ∧ s.time.setByEpoch = false) ∧
    (∃ (ts : Nat) (held : Nat) (s : State),
    s.up = true ∧ 100 ≤ held ∧ (secondOffset ts).natAbs ≤ s.parN .timePpsWindow ∧ s.time.setByEpoch = true ∧ s.time.framesOn = true ∧ s.parN .timeSource 0 = 1) ∧
    (∃ (ts : Nat) (held : Nat) (s : State),
    s.up = true ∧ 100 ≤ held ∧ s.parN .timePpsWindow < (secondOffset ts).natAbs ∧ s.time.src = some 1) :=
  ⟨⟨5, 100, run0, by decide +kernel⟩,
   ⟨5, 100, run0, by decide +kernel⟩,
   ⟨5, 100000, 3, true, setPar .timeCapEdge 3 0 2 (setPar .timeCapFilter 3 0 90000 { run0 with time := { run0.time with capture := run0.time.capture.set 3 [⟨1, true, false, 3⟩] } }), by decide +kernel⟩,
   ⟨5, 100000, 3, false, setPar .timeCapEdge 3 0 0 (setPar .timeCapFilter 3 0 90000 { run0 with time := { run0.time with capture := [[], [], [], List.replicate 8 ⟨1, true, false, 3⟩, [], [], [], []] } }), by decide +kernel⟩,
   ⟨7000000010, 100, { run0 with time := { run0.time with setByEpoch := false } }, by decide +kernel⟩,
   ⟨7000000010, 100, setPar .timeSource 0 0 1 { run0 with time := { run0.time with setByEpoch := true, framesOn := true } }, by decide +kernel⟩,
   ⟨7400000010, 100, { run0 with time := { run0.time with src := some 1 } }, by decide +kernel⟩⟩

theorem meets_CompareUnits :
    (∃ (t : Nat) (u : Fin 24) (target : Nat) (s : State),
    s.up = true ∧ s.time.compare.length = 24 ∧ max s.time.now t < target ∧ target ≤ max s.time.now t + 2000000000) ∧
    (∃ (t : Nat) (u : Fin 24) (target : Nat) (s : State),
    s.up = true ∧ s.time.compare.length = 24 ∧ target ≤ max s.time.now t) ∧
    (∃ (t : Nat) (u : Fin 24) (target : Nat) (s : State),
    s.up = true ∧ max s.time.now t + 2000000000 < target) ∧
    (∃ (t : Nat) (k : Fin 8) (s : State),
    s.up = true ∧ s.time.outs.length = 8 ∧ s.parN .timeOutGpio k.val < 16 ∧ s.parN .timeOutPhase k.val ≤ t ∧ (t - s.parN .timeOutPhase k.val) % s.parN .timeOutPeriod k.val = 0) ∧
    (∃ (t : Nat) (id : Nat) (port : Fin 4) (s : State),
    s.up = true ∧ port.val < 2 ∧ s.time.txStamps.length < 16) ∧
    (∃ (t : Nat) (id : Nat) (port : Fin 4) (s : State),
    s.up = true ∧ port.val < 2 ∧ 16 ≤ s.time.txStamps.length) ∧
    (∃ (t : Nat) (id : Nat) (port : Fin 4) (s : State),
    s.up = true ∧ 2 ≤ port.val ∧ 0x8000 ≤ id ∧ s.can.ports.length = 2) :=
  ⟨⟨run0.time.now + 3, 5, run0.time.now + 2000, run0, by decide +kernel⟩,
   ⟨run0.time.now + 3, 23, run0.time.now + 3, run0, by decide +kernel⟩,
   ⟨run0.time.now + 3, 0, run0.time.now + 2000001004, run0, by decide +kernel⟩,
   ⟨5000 * 3, 7, setPar .timeOutGpio 7 0 15 (setPar .timeOutWidth 7 0 1000 (setPar .timeOutPeriod 7 0 5000 (setPar .timeOutPhase 7 0 0 run0))), by decide +kernel⟩,
   ⟨3, 77, 1, { run0 with time := { run0.time with txStamps := run0.time.txStamps.take 15 } }, by decide +kernel⟩,
   ⟨3, 77, 0, { run0 with time := { run0.time with txStamps := List.replicate 16 ⟨1, 0, 4, 9⟩ } }, by decide +kernel⟩,
   ⟨3, 0x8001, 3, { run0 with can := { run0.can with ports := [{}, { tx := [{ id := 0x701, kind := 2, data := [1, 2], at_ := 4, tag := 0x8001 }, { id := 0x702, kind := 2, data := [1, 2], at_ := 4, tag := 0x8002 }] }] } }, by decide +kernel⟩⟩

theorem meets_PpsOut :
    (∃ (t : Nat) (s : State),
    s.up = true ∧ t % 1000000000 = 0 ∧ s.parB .timePpsOut = true ∧ s.time.synced = true) ∧
    (∃ (t : Nat) (s : State),
    s.up = true ∧ t % 1000000000 = 0 ∧ (s.parB .timePpsOut = false ∨ s.time.synced = false)) ∧
    (∃ (s : State) (u : Nat),
    s.time.synced = false) :=
  ⟨⟨1000000000 * 3, setPar .timePpsOut 0 0 1 { run0 with time := { run0.time with synced := true } }, by decide +kernel⟩,
   ⟨1000000000 * 3, setPar .timePpsOut 0 0 1 { run0 with time := { run0.time with synced := false } }, by decide +kernel⟩,
   ⟨{ State.reset with time := { State.reset.time with synced := false } }, 3, by decide +kernel⟩⟩

theorem meets_ServoStep :
    (∃ (k : Nat) (o : Rat) (t : Nat) (s : State),
    firstSource s t = some k ∧ s.time.framesOn = true) ∧
    (∃ (k : Nat) (o : Rat) (t : Nat) (s : State),
    firstSource s t ≠ some k) :=
  ⟨⟨1, -3, 10, setPar .timeSource 0 0 1 { run0 with time := { run0.time with framesOn := true, setByEpoch := true, ppsGood := some 9 } }, by decide +kernel⟩,
   ⟨2, -3, 10, setPar .timeSource 0 0 1 { run0 with time := { run0.time with framesOn := true, setByEpoch := true, ppsGood := some 9 } }, by decide +kernel⟩⟩

theorem meets_PtpMessages :
    (∃ (ts : Nat) (port : Fin 2) (gm : Nat) (rank : List Nat) (utc : Int) (s : State),
    s.up = true ∧ ptpOn s port.val = true) ∧
    (∃ (ts : Nat) (port : Fin 2) (gm : Nat) (rank : List Nat) (utc : Int) (s : State),
    s.up = true ∧ ptpOn s port.val = true) ∧
    (∃ (ts : Nat) (port : Fin 2) (gm : Nat) (sec : Nat) (nanos : Nat) (corr : Int) (d : Rat) (dt : Nat) (s : State),
    s.up = true ∧ nanos < 1000000000 ∧ s.time.gm = some gm ∧ slavePort (s.at_ ts).time ts = some port.val ∧ s.time.peer.getD port.val none = some (d, dt) ∧ ts < dt + 3000000000) ∧
    (∃ (t4 : Nat) (port : Fin 2) (seq : Nat) (t1 : TxStamp) (s2 : Nat) (n2 : Nat) (s3 : Nat) (n3 : Nat) (s : State),
    s.up = true ∧ s.time.pdelayOut.getD port.val none = some seq ∧ s.time.peer.length = 2 ∧ n2 < 1000000000 ∧ n3 < 1000000000 ∧ (s.time.txStamps.find? fun e => e.id == seq % 0x4000 && e.port == port.val) = some t1) ∧
    (∃ (t : Nat) (leaveA : Nat) (leaveB : Nat) (s : State),
    s.up = true ∧ ptpMaster s = true ∧ s.time.ptpSeq.length = 3) ∧
    (∃ (t : Nat) (s : State),
    s.up = true ∧ s.time.ptpSeq.length = 3 ∧ s.time.pdelayOut.length = 2) :=
  ⟨⟨3, 1, 99, [3, 4], 37, setPar .timePtpPorts 0 0 3 { run0 with boot := { run0.boot with ethOut := [false, false] } }, by decide +kernel⟩,
   ⟨6, 1, 99, [3, 4], 37, { (setPar .timePtpPorts 0 0 3 { run0 with boot := { run0.boot with ethOut := [false, false] } }) with time := { run0.time with gm := some 99, masters := [{ gm := 99, rank := [1], atA := none, atB := some 3, announces := [3, 2], last := 5, utc := 37 }] } }, by decide +kernel⟩,
   ⟨6, 1, 99, 4, 999999999, 65536, 7, 3000, { run0 with time := { run0.time with gm := some 99, masters := [{ gm := 99, rank := [1], atA := none, atB := some 3, announces := [3, 2], last := 5, utc := 37 }], peer := [none, some (7, 3000)] } }, by decide +kernel⟩,
   ⟨6, 0, 0x4003, ⟨3, 0, 5, 1⟩, 4, 0, 4, 999999999, { run0 with time := { run0.time with pdelayOut := [some 0x4003, none], txStamps := [⟨3, 1, 4, 0⟩, ⟨3, 0, 5, 1⟩] } }, by decide +kernel⟩,
   ⟨6, 7, 8, setPar .timePtpMaster 0 0 1 { (setPar .timePtpPorts 0 0 3 { run0 with boot := { run0.boot with ethOut := [false, false] } }) with time := { run0.time with gm := none } }, by decide +kernel⟩,
   ⟨6, setPar .timePtpPorts 0 0 3 { run0 with boot := { run0.boot with ethOut := [false, false] } }, by decide +kernel⟩⟩

theorem meets_TimeDeadlines :
    (∃ (t : Nat) (p : Fin 2) (d : Rat) (dt : Nat) (s : State),
    s.up = true ∧ s.time.peer.length = 2 ∧ s.time.peer.getD p.val none = some (d, dt) ∧ dt + 3000000000 ≤ t) ∧
    (∃ (t : Nat) (s : State),
    s.up = true) ∧
    (∃ (t : Nat) (s : State),
    s.up = true) ∧
    (∃ (t : Nat) (s : State),
    s.up = true ∧ s.parN .timeSampleSource = 1 ∧ 100 ≤ s.time.syncAge) :=
  ⟨⟨3000000009, 1, 4, 9, { run0 with time := { run0.time with peer := [some (5, 4), some (4, 9)] } }, by decide +kernel⟩,
   ⟨3000000005, { run0 with time := { run0.time with masters := [{ gm := 99, rank := [1], atA := none, atB := some 3, announces := [3, 2], last := 5, utc := 37 }] } }, by decide +kernel⟩,
   ⟨run0.time.now + 3, run0, by decide +kernel⟩,
   ⟨run0.time.now + 3, setPar .timeSampleSource 0 0 1 { run0 with time := { run0.time with syncAge := 100 } }, by decide +kernel⟩⟩

theorem meets_RadioLink :
    (∃ (t : Nat) (n : Fin 4) (s : State),
    s.up = true ∧ linkRuns s n.val = true ∧ s.links.length = 4 ∧ (s.link n.val).port = 0 ∧ t = syncAt s n.val) ∧
    (∃ (t : Nat) (n : Fin 4) (s : State),
    s.up = true ∧ linkOn s n.val = true ∧ s.links.length = 4) ∧
    (∃ (t : Nat) (n : Fin 4) (s : State),
    s.up = true ∧ linkOn s n.val = true ∧ s.links.length = 4) ∧
    (∃ (t : Nat) (n : Fin 4) (s : State),
    s.up = true ∧ s.links.length = 4 ∧ (s.link n.val).port ≠ 0) ∧
    (∃ (t : Nat) (n : Fin 4) (s : State),
    s.running = true ∧ s.links.length = 4 ∧ s.boot.keys.length = 4 ∧ linkOn s n.val = true) ∧
    (∃ (t : Nat) (n : Fin 4) (k : Nat) (f : Nat) (s : State),
    s.up = true ∧ s.links.length = 4 ∧ (s.link n.val).keyNext = some (k, f) ∧ f ≤ s.time.frame) :=
  ⟨⟨syncAt (begun 3 run0) 3, 3, begun 3 run0, by decide +kernel⟩,
   ⟨9, 0, linked run0, by decide +kernel⟩,
   ⟨9, 3, linked run0, by decide +kernel⟩,
   ⟨9, 2, (linked run0).updLink 2 fun l => { l with port := 1 }, by decide +kernel⟩,
   ⟨9, 1, linked run0, by decide +kernel⟩,
   ⟨9, 1, 77, run0.time.frame, run0.updLink 1 fun l => { l with keyNext := some (77, run0.time.frame) }, by decide +kernel⟩⟩

theorem meets_ForagerUplinks :
    (∃ (x : Rx) (d : List Byte) (s : State),
    s.up = true ∧ linkRuns s x.string = true ∧ (s.link x.string).port = 0 ∧ rxRead s 2 x = .ok d ∧ x.string < 4 ∧ rxSource x < 36 ∧ s.forgs.length = 144 ∧ x.ts ≤ s.frameStart + 8800000 ∧ enrolled s x.string (rxSource x) = true) ∧
    (∃ (x : Rx) (k : Nat) (s : State),
    s.up = true ∧ linkRuns s x.string = true ∧ (s.link x.string).port = 0 ∧ rxRead s 2 x = .error k) ∧
    (∃ (x : Rx) (d : List Byte) (s : State),
    s.up = true ∧ linkRuns s x.string = true ∧ (s.link x.string).port = 0 ∧ rxRead s 2 x = .ok d ∧ s.links.length = 4 ∧ x.string < 4 ∧ s.frameStart + 8800000 < x.ts) ∧
    (∃ (t : Nat) (s : State),
    s.up = true ∧ s.workDue 1 = true ∧ t = s.frameStart + 8800000 ∧ s.links.length = 4 ∧ s.forgs.length = 144) ∧
    (∃ (x : Rx) (d : List Byte) (s : State),
    s.up = true ∧ linkRuns s x.string = true ∧ (s.link x.string).port = 0 ∧ s.links.length = 4 ∧ x.string < 4 ∧ rxRead s 3 x = .ok d) ∧
    (∃ (x : Rx) (s : State),
    s.up = true ∧ linkRuns s x.string = true ∧ (s.link x.string).port = 0 ∧ rxRead s 3 x = .error 5) ∧
    (∃ (x : Rx) (k : Nat) (s : State),
    s.up = true ∧ linkRuns s x.string = true ∧ (s.link x.string).port = 0 ∧ rxRead s 3 x = .error k ∧ k ≠ 5) ∧
    (∃ (x : Rx) (d : List Byte) (s : State),
    s.up = true ∧ linkRuns s x.string = true ∧ (s.link x.string).port = 0 ∧ rxRead s 5 x = .ok d ∧ x.string < 4 ∧ rxSource x < 36 ∧ s.forgs.length = 144 ∧ enrolled s x.string (rxSource x) = true ∧ fragBad (s.forg (brickInst x.string (rxSource x))) (fragmentOf d) = false ∧ doneOut s x.string (rxSource x) (fragmentOf d).object = false ∧ ((s.forg (brickInst x.string (rxSource x))).ups.find? fun u => u.object == (fragmentOf d).object) = none ∧ 1 < fragments (fragmentOf d).total) ∧
    (∃ (x : Rx) (d : List Byte) (s : State),
    s.up = true ∧ linkRuns s x.string = true ∧ (s.link x.string).port = 0 ∧ rxRead s 5 x = .ok d ∧ enrolled s x.string (rxSource x) = true ∧ fragBad (s.forg (brickInst x.string (rxSource x))) (fragmentOf d) = true) ∧
    (∃ (x : Rx) (d : List Byte) (s : State),
    s.up = true ∧ linkRuns s x.string = true ∧ (s.link x.string).port = 0 ∧ rxRead s 5 x = .ok d ∧ x.string < 4 ∧ rxSource x < 36 ∧ s.forgs.length = 144 ∧ s.links.length = 4 ∧ enrolled s x.string (rxSource x) = true ∧ fragBad (s.forg (brickInst x.string (rxSource x))) (fragmentOf d) = false) ∧
    (∃ (t : Nat) (n : Fin 4) (k : Fin 5) (d : DownXfer) (s : State),
    s.up = true ∧ (s.link n.val).port = 0 ∧ ((s.link n.val).bulk.getD k.val {}).dir = 2 ∧ s.frameStart + 9000000 + 200000 * k.val ≤ t ∧ t < s.frameStart + 9000000 + 200000 * k.val + 200000 ∧ cool s d.object = true ∧ ((s.link n.val).down.find? fun d => d.id == ((s.link n.val).bulk.getD k.val {}).arg) = some d ∧ lowestDown s n.val d < d.total) :=
  ⟨⟨sealed (enrol 3 35 (begun 3 run0)) 2 36 35 3 7 (List.replicate 66 0 ++ [1] ++ List.replicate 5 0), List.replicate 66 0 ++ [1] ++ List.replicate 5 0, (enrol 3 35 (begun 3 run0)), by decide +kernel⟩,
   ⟨{ sealed (enrol 3 35 (begun 3 run0)) 2 36 35 3 7 (List.replicate 66 0 ++ [1] ++ List.replicate 5 0) with slot := 35 }, 4, (enrol 3 35 (begun 3 run0)), by decide +kernel⟩,
   ⟨{ sealed (enrol 3 35 (begun 3 run0)) 2 36 35 3 7 (List.replicate 66 0 ++ [1] ++ List.replicate 5 0) with ts := (enrol 3 35 (begun 3 run0)).frameStart + 8800001 }, List.replicate 66 0 ++ [1] ++ List.replicate 5 0, (enrol 3 35 (begun 3 run0)), by decide +kernel⟩,
   ⟨run0.frameStart + 8800000, (enrol 3 35 (begun 3 run0)), by decide +kernel⟩,
   ⟨sealed ((fun s : State => { s with boot := { s.boot with run := { s.boot.run with enrol := [⟨55, 9, 3⟩] } } }) (begun 3 run0)) 3 43 1 3 9 (Sys2Proof.toLE 8 55 ++ List.replicate 64 0), Sys2Proof.toLE 8 55 ++ List.replicate 64 0, (fun s : State => { s with boot := { s.boot with run := { s.boot.run with enrol := [⟨55, 9, 3⟩] } } }) (begun 3 run0), by decide +kernel⟩,
   ⟨sealed ((fun s : State => { s with boot := { s.boot with run := { s.boot.run with enrol := [⟨55, 9, 3⟩] } } }) (begun 3 run0)) 3 43 1 3 8 (Sys2Proof.toLE 8 55 ++ List.replicate 64 0), (fun s : State => { s with boot := { s.boot with run := { s.boot.run with enrol := [⟨55, 9, 3⟩] } } }) (begun 3 run0), by decide +kernel⟩,
   ⟨{ sealed ((fun s : State => { s with boot := { s.boot with run := { s.boot.run with enrol := [⟨55, 9, 3⟩] } } }) (begun 3 run0)) 3 43 1 3 9 (Sys2Proof.toLE 8 55 ++ List.replicate 64 0) with psdu := [1] }, 0, (fun s : State => { s with boot := { s.boot with run := { s.boot.run with enrol := [⟨55, 9, 3⟩] } } }) (begun 3 run0), by decide +kernel⟩,
   ⟨sealed (((enrol 3 35 (begun 3 run0)).updLink 3 fun l => { l with bulk := [{}, {}, {}, {}, { brick := 35, dir := 1, arg := 1 }] }).updForg 143 fun f => { f with ups := [{ object := 2, total := none, frags := [], granted := 4 }] }) 5 48 35 3 7 ([1, 1, 0, 0, 128, 1, 64, 0] ++ List.replicate 64 7), [1, 1, 0, 0, 128, 1, 64, 0] ++ List.replicate 64 7, ((enrol 3 35 (begun 3 run0)).updLink 3 fun l => { l with bulk := [{}, {}, {}, {}, { brick := 35, dir := 1, arg := 1 }] }).updForg 143 fun f => { f with ups := [{ object := 2, total := none, frags := [], granted := 4 }] }, by decide +kernel⟩,
   ⟨sealed ((enrol 3 35 (begun 3 run0)).updLink 3 fun l => { l with bulk := [{}, {}, {}, {}, { brick := 35, dir := 1, arg := 1 }] }) 5 48 35 3 7 ([1, 1, 0, 0, 128, 1, 0, 0] ++ List.replicate 64 7), [1, 1, 0, 0, 128, 1, 0, 0] ++ List.replicate 64 7, (enrol 3 35 (begun 3 run0)).updLink 3 fun l => { l with bulk := [{}, {}, {}, {}, { brick := 35, dir := 1, arg := 1 }] }, by decide +kernel⟩,
   ⟨sealed ((enrol 3 35 (begun 3 run0)).updLink 3 fun l => { l with bulk := [{}, {}, {}, {}, { brick := 35, dir := 1, arg := 2 }] }) 5 48 35 3 7 ([2, 2, 0, 0, 32, 0, 32, 0] ++ List.replicate 64 7), [2, 2, 0, 0, 32, 0, 32, 0] ++ List.replicate 64 7, ((enrol 3 35 (begun 3 run0)).updLink 3 fun l => { l with bulk := [{}, {}, {}, {}, { brick := 35, dir := 1, arg := 2 }] }).updForg 143 fun f => { f with ups := [] }, by decide +kernel⟩,
   ⟨run0.frameStart + 9800000 + 7, 3, 4, { id := 20, target := 63, object := 3, total := 9, bytes := 520, acked := [(35, 3)], progress := [(35, 4)] }, (enrol 3 35 (p3On run0)).updLink 3 fun l => { l with port := 0, down := [{ id := 20, target := 63, object := 3, total := 9, bytes := 520, acked := [(35, 3)], progress := [(35, 4)] }], bulk := [{}, {}, {}, {}, { brick := 35, dir := 2, arg := 20 }] }, by decide +kernel⟩⟩

theorem meets_ForagerDeadlines :
    (∃ (t : Nat) (n : Fin 4) (b : Fin 36) (s : State),
    s.up = true ∧ s.forgs.length = 144 ∧ s.links.length = 4) ∧
    (∃ (t : Nat) (n : Fin 4) (b : Fin 36) (u : UpXfer) (s : State),
    s.up = true ∧ (s.forg (brickInst n.val b.val)).ups = [u] ∧ u.granted + s.parN .linkBulkTimeout ≤ s.time.frame ∧ (s.link n.val).down = []) ∧
    (∃ (t : Nat) (n : Fin 4) (b : Fin 36) (s : State),
    (∀ u ∈ (s.forg (brickInst n.val b.val)).ups, s.time.frame < u.granted + s.parN .linkBulkTimeout) ∧ (∀ d ∈ (s.link n.val).down, ∀ f, d.progress.lookup b.val = some f → s.time.frame < f + s.parN .linkBulkTimeout)) ∧
    (∃ (t : Nat) (n : Fin 4) (b : Fin 36) (replaced : Bool) (u : Nat) (s : State),
    s.running = true ∧ s.forgs.length = 144 ∧ s.links.length = 4 ∧ (s.forg (brickInst n.val b.val)).uid = some u) ∧
    (∃ (t : Nat) (n : Fin 4) (b : Fin 36) (replaced : Bool) (s : State),
    (s.forg (brickInst n.val b.val)).uid = none) ∧
    (∃ (t : Nat) (n : Fin 4) (b : Fin 36) (k : Nat) (e : Nat) (s : State),
    s.up = true ∧ s.forgs.length = 144 ∧ (s.forg (brickInst n.val b.val)).wires.length = 17 ∧ k < 17 ∧ (s.forg (brickInst n.val b.val)).owTest = some { wire := k, endFrame := some e } ∧ e + 150 ≤ s.time.frame) ∧
    (∃ (t : Nat) (n : Fin 4) (b : Fin 36) (k : Nat) (e : Nat) (s : State),
    (s.forg (brickInst n.val b.val)).owTest = some { wire := k, endFrame := some e } ∧ s.time.frame < e + 150) ∧
    (∃ (t : Nat) (n : Fin 4) (b : Fin 36) (k : Nat) (f : Nat) (s : State),
    s.up = true ∧ s.forgs.length = 144 ∧ s.links.length = 4 ∧ (s.forg (brickInst n.val b.val)).wires.length = 17 ∧ k < 17 ∧ (s.forg (brickInst n.val b.val)).owTest = none ∧ ((s.forg (brickInst n.val b.val)).wires.getD k {}).retryAt = some f ∧ f ≤ s.time.frame ∧ (((s.forg (brickInst n.val b.val)).wires.getD k {}).st = 2 ∧ s.parB .cellOwAuto = true ∨ ((s.forg (brickInst n.val b.val)).wires.getD k {}).ordered = true)) ∧
    (∃ (t : Nat) (n : Fin 4) (b : Fin 36) (s : State),
    (∀ w ∈ (s.forg (brickInst n.val b.val)).wires, ∀ f, w.retryAt = some f → s.time.frame < f)) ∧
    (∃ (t : Nat) (n : Fin 4) (b : Fin 36) (k : Fin 17) (s : State),
    s.running = true ∧ s.forgs.length = 144 ∧ s.links.length = 4 ∧ enrolled s n.val b.val = true ∧ (s.forg (brickInst n.val b.val)).wires.length = 17) ∧
    (∃ (t : Nat) (n : Fin 4) (b : Fin 36) (k : Fin 17) (s : State),
    enrolled s n.val b.val = false) ∧
    (∃ (t : Nat) (n : Fin 4) (b : Fin 36) (e : Nat) (s : State),
    s.running = true ∧ s.forgs.length = 144 ∧ (s.forg (brickInst n.val b.val)).burstEnd = some e ∧ e / 10000000 + s.parN .cellBurstTimeout < s.time.frame) ∧
    (∃ (t : Nat) (n : Fin 4) (b : Fin 36) (s : State),
    (∀ e, (s.forg (brickInst n.val b.val)).burstEnd = some e → s.time.frame ≤ e / 10000000 + s.parN .cellBurstTimeout)) :=
  ⟨⟨9, 3, 35, { run0.updForg 143 (fun f => { f with ups := [{ object := 2, total := none, frags := [], granted := 4 }, { object := 1, total := none, frags := [], granted := run0.time.frame }] }) with links := List.replicate 4 { down := [{ id := 20, target := 63, object := 3, total := 9, bytes := 520, acked := [(35, 3)], progress := [(35, 4)] }] } }, by decide +kernel⟩,
   ⟨9, 3, 35, { object := 2, total := none, frags := [], granted := 4 }, { run0.updForg 143 (fun f => { f with ups := [{ object := 2, total := none, frags := [], granted := 4 }] }) with links := List.replicate 4 {}, time := { run0.time with frame := 100000 } }, by decide +kernel⟩,
   ⟨9, 3, 35, { run0.updForg 143 (fun f => { f with ups := [{ object := 2, total := none, frags := [], granted := 4 }] }) with links := List.replicate 4 { down := [{ id := 20, target := 63, object := 3, total := 9, bytes := 520, acked := [(35, 3)], progress := [(35, 4)] }] }, time := { run0.time with frame := 4 } }, by decide +kernel⟩,
   ⟨9, 3, 35, false, 335, enrol 3 35 run0, by decide +kernel⟩,
   ⟨9, 3, 35, true, run0.updForg 143 fun f => { f with uid := none }, by decide +kernel⟩,
   ⟨9, 3, 35, 16, 1, { (run0.updForg 143 fun f => { f with wires := List.replicate 17 { st := 3 }, owTest := some { wire := 16, endFrame := some 1 } }) with time := { run0.time with frame := 151 } }, by decide +kernel⟩,
   ⟨9, 3, 35, 16, 1, { (run0.updForg 143 fun f => { f with wires := List.replicate 17 { st := 3 }, owTest := some { wire := 16, endFrame := some 1 } }) with time := { run0.time with frame := 150 } }, by decide +kernel⟩,
   ⟨9, 3, 35, 16, run0.time.frame, enrol 3 35 (setPar .cellOwAuto 0 0 1 (run0.updForg 143 fun f => { f with wires := List.replicate 17 { st := 2, retryAt := some run0.time.frame }, owTest := none })), by decide +kernel⟩,
   ⟨9, 3, 35, (run0.updForg 143 fun f => { f with wires := List.replicate 17 { st := 2, retryAt := some (run0.time.frame + 1) }, owTest := none }), by decide +kernel⟩,
   ⟨9, 3, 35, 16, enrol 3 35 (run0.updForg 143 fun f => { f with wires := List.replicate 17 { st := 2, retryAt := some run0.time.frame }, owTest := none }), by decide +kernel⟩,
   ⟨9, 3, 35, 16, run0.updForg 143 fun f => { f with uid := none }, by decide +kernel⟩,
   ⟨9, 3, 35, 10000000, { run0.updForg 143 (fun f => { f with burstEnd := some 10000000 }) with time := { run0.time with frame := 90000 } }, by decide +kernel⟩,
   ⟨9, 3, 35, { run0.updForg 143 (fun f => { f with burstEnd := some 10000000 }) with time := { run0.time with frame := 1 } }, by decide +kernel⟩⟩

theorem meets_EstimatorUpdates :
    (∃ (t : Nat) (late : List Nat) (s : State),
    s.up = true ∧ s.time.frame ≠ 0 ∧ t ≤ s.frameStart + 4000000 ∧ s.est.length = 4 ∧ s.cells.length = 2304) ∧
    (∃ (t : Nat) (s : State),
    s.up = true ∧ s.time.frame ≠ 0 ∧ s.frameStart + 4000000 ≤ t ∧ (∃ n, n < 4 ∧ (s.estr n).latch.isSome = true) ∧ s.est.length = 4 ∧ s.cells.length = 2304) :=
  ⟨⟨9, [5, 600, 2303], linked (setPar .estISource 0 0 0 { run0 with est := [{ run0.estr 0 with latch := some (7, 8, 9), flags := (true, false, false, true) }, { run0.estr 1 with latch := some (7, 8, 9), flags := (false, false, true, true) }, { run0.estr 2 with latch := some (-7, 18, 9), flags := (false, true, false, true) }, run0.estr 3], time := { run0.time with frame := run0.time.frame + 1 } }), by decide +kernel⟩,
   ⟨(run0.time.frame + 1) * 10000000 + 4000000 + 9, linked { run0 with est := [{ run0.estr 0 with latch := some (7, 8, 9), flags := (true, false, false, true) }, { run0.estr 1 with latch := some (7, 8, 9), flags := (false, false, true, true) }, { run0.estr 2 with latch := some (-7, 18, 9), flags := (false, true, false, true) }, run0.estr 3], time := { run0.time with frame := run0.time.frame + 1 } }, by decide +kernel⟩⟩

theorem meets_SurveyStartEnd :
    (∃ (t : Nat) (n : Fin 4) (s : State),
    s.running = true ∧ impReason (s.at_ t) n.val = 0) ∧
    (∃ (t : Nat) (n : Fin 4) (s : State),
    s.running = true ∧ impReason (s.at_ t) n.val ≠ 0) ∧
    (∃ (t : Nat) (n : Fin 4) (s : State),
    s.running = true ∧ s.est.length = 4 ∧ capReason (s.at_ t) n.val = 0) ∧
    (∃ (t : Nat) (n : Fin 4) (s : State),
    s.running = true ∧ capReason (s.at_ t) n.val ≠ 0) ∧
    (∃ (t : Nat) (v : ImpSurvey) (s : State),
    s.running = true ∧ s.surv.imp = some v) ∧
    (∃ (t : Nat) (v : CapSurvey) (s : State),
    s.running = true ∧ s.surv.cap = some v ∧ v.phase ≠ 4 ∧ s.est.length = 4 ∧ v.string < 4) :=
  ⟨⟨9, 3, setPar .impModes 0 0 24 (setPar .impUncomp 0 0 1 (setPar .impAmp 0 0 100 { (inMode .operate (closedAll run0)) with surv := { run0.surv with imp := none, cap := none }, reg := { run0.reg with act := { refs := [0, 0, 0, 0], chg := [90, 90, 90, 90], dis := [-90, -90, -90, -90], enabled := [], whole := List.replicate 4 (90, 90) } } })), by decide +kernel⟩,
   ⟨9, 3, { run0 with surv := { run0.surv with imp := none, cap := none }, guard := { run0.guard with cfb := [] } }, by decide +kernel⟩,
   ⟨9, 2, setPar .estCapModes 0 0 24 (setPar .estAnchorLoad 0 0 1 { (inMode .operate (closedAll run0)) with surv := { run0.surv with imp := none, cap := none }, reg := { run0.reg with act := { refs := [0, 0, 0, 0], chg := [90, 90, 90, 90], dis := [-90, -90, -90, -90], enabled := [], whole := List.replicate 4 (90, 90) } } }), by decide +kernel⟩,
   ⟨9, 2, { run0 with surv := { run0.surv with imp := none, cap := none }, guard := { run0.guard with cfb := [] } }, by decide +kernel⟩,
   ⟨9, { string := 3, st := 3, frameA := some 1, t0 := 5, tEnd := 20000000, tag := some 4, took := [35, 0], comp := [], volts := [], amp := 5, ramp := 4, settle := 3, rate := 1000, count := 4, tones := [8, 16, 40], calRest := true, samplesA := [], samplesB := [], curOk := true, uncomp := true, spread := 5, useB := none, bins := none, ends := [], ther := [], badCells := [3, 575] }, { run0 with surv := { run0.surv with imp := some { string := 3, st := 3, frameA := some 1, t0 := 5, tEnd := 20000000, tag := some 4, took := [35, 0], comp := [], volts := [], amp := 5, ramp := 4, settle := 3, rate := 1000, count := 4, tones := [8, 16, 40], calRest := true, samplesA := [], samplesB := [], curOk := true, uncomp := true, spread := 5, useB := none, bins := none, ends := [], ther := [], badCells := [3, 575] } } }, by decide +kernel⟩,
   ⟨9, { string := 2, phase := 3, startT := 4, fullAt := some 5, disAt := some 6, ref := 3, flowing := true, par := { chargeRate := 100, rate := 200, chargeTmax := 300, disTmax := 400, tMin := 5, tMax := 500, spanMin := 6 } }, { run0 with surv := { run0.surv with cap := some { string := 2, phase := 3, startT := 4, fullAt := some 5, disAt := some 6, ref := 3, flowing := true, par := { chargeRate := 100, rate := 200, chargeTmax := 300, disTmax := 400, tMin := 5, tMax := 500, spanMin := 6 } } } }, by decide +kernel⟩⟩

theorem meets_SurveyMeasurement :
    (∃ (t : Nat) (v : ImpSurvey) (s : State),
    s.running = true ∧ p3Held s = false ∧ s.surv.imp = some v ∧ v.tag = none ∧ v.string < s.links.length ∧ (∀ c ∈ (s.link v.string).cmds, c.id = 3 → c.tries ≠ 0)) ∧
    (∃ (t : Nat) (n : Fin 4) (v : ImpSurvey) (s : State),
    s.up = true ∧ linkRuns s n.val = true ∧ s.links.length = 4 ∧ (s.link n.val).port = 0 ∧ t = syncAt s n.val ∧ s.surv.imp = some v ∧ v.string = n.val ∧ v.frameA = none ∧ (∃ c ∈ beaconCmds s n.val, c.id = 3 ∧ v.tag = some c.tag)) ∧
    (∃ (t : Nat) (a : Density) (b : Density) (v : ImpSurvey) (s : State),
    s.running = true ∧ s.surv.imp = some v ∧ v.frameA.isSome = true ∧ v.t0 ≤ t ∧ t ≤ v.tEnd ∧ v.samplesA.length < v.count) ∧
    (∃ (t : Nat) (v : ImpSurvey) (useB : Bool) (s : State),
    s.running = true ∧ p3Held s = false ∧ s.surv.imp = some v ∧ v.frameA.isSome = true ∧ v.tEnd ≤ t ∧ v.bins = none ∧ v.useB.getD ((s.estr v.string).inUse == 1) = useB ∧ v.curOk = true ∧ (∀ k, k < 3 → let x := (v.tones.map (binOf v.samplesA v.rate)).getD k (0, 0); let y := (v.tones.map (binOf v.samplesB v.rate)).getD k (0, 0); absAbove (x.1 - y.1, x.2 - y.2) ((s.parN .impIAgree : Rat) / 1000) (if useB = true then y else x) = false) ∧ ratAbs (sampleMean ((if useB = true then v.samplesB else v.samplesA).take (v.rate / 2)) - sampleMean ((if useB = true then v.samplesB else v.samplesA).drop ((if useB = true then v.samplesB else v.samplesA).length - v.rate / 2))) ≤ (s.parN .impIDrift : Rat) / 100) ∧
    (∃ (t : Nat) (v : ImpSurvey) (s : State),
    s.running = true ∧ p3Held s = false ∧ s.surv.imp = some v ∧ v.frameA.isSome = true ∧ v.tEnd ≤ t ∧ v.bins = none ∧ v.curOk = false) ∧
    (∃ (t : Nat) (v : ImpSurvey) (xi : List (Rat × Rat)) (s : State),
    s.running = true ∧ p3Held s = false ∧ s.surv.imp = some v ∧ v.bins = some xi ∧ s.surv.table = none ∧ (∃ b, b < 36 ∧ (resultOf s v b).isSome = true) ∧ (∀ b ∈ v.took, b < 36 ∧ (resultOf s v b).isSome = true)) :=
  ⟨⟨9, { string := 3, st := 3, frameA := none, t0 := 5, tEnd := 20000000, tag := none, took := [35, 0], comp := [], volts := [], amp := 5, ramp := 4, settle := 3, rate := 1000, count := 4, tones := [8, 16, 40], calRest := true, samplesA := [], samplesB := [], curOk := true, uncomp := true, spread := 5, useB := none, bins := none, ends := [], ther := [], badCells := [3, 575] }, p3On ({ (enrol 3 35 run0) with surv := { run0.surv with imp := some { string := 3, st := 3, frameA := none, t0 := 5, tEnd := 20000000, tag := none, took := [35, 0], comp := [], volts := [], amp := 5, ramp := 4, settle := 3, rate := 1000, count := 4, tones := [8, 16, 40], calRest := true, samplesA := [], samplesB := [], curOk := true, uncomp := true, spread := 5, useB := none, bins := none, ends := [], ther := [], badCells := [3, 575] } } }.updLink 3 fun l => { l with cmds := [] }), by decide +kernel⟩,
   ⟨syncAt ((begun 3 { run0 with time := { run0.time with frame := 7 }, surv := { run0.surv with imp := some { string := 3, st := 3, frameA := none, t0 := 5, tEnd := 20000000, tag := some 4, took := [35, 0], comp := [], volts := [], amp := 5, ramp := 4, settle := 3, rate := 1000, count := 4, tones := [8, 16, 40], calRest := true, samplesA := [], samplesB := [], curOk := true, uncomp := true, spread := 5, useB := none, bins := none, ends := [], ther := [], badCells := [3, 575] } } }).updLink 3 fun l => { l with cmds := [{ id := 3, target := 63, params := [0, 50000, 1000, 4, 8, 16, 40], tag := 4, tries := 0, lastFrame := 0, waiting := [35], order := 0 }] }) 3, 3, { string := 3, st := 3, frameA := none, t0 := 5, tEnd := 20000000, tag := some 4, took := [35, 0], comp := [], volts := [], amp := 5, ramp := 4, settle := 3, rate := 1000, count := 4, tones := [8, 16, 40], calRest := true, samplesA := [], samplesB := [], curOk := true, uncomp := true, spread := 5, useB := none, bins := none, ends := [], ther := [], badCells := [3, 575] }, (begun 3 { run0 with time := { run0.time with frame := 7 }, surv := { run0.surv with imp := some { string := 3, st := 3, frameA := none, t0 := 5, tEnd := 20000000, tag := some 4, took := [35, 0], comp := [], volts := [], amp := 5, ramp := 4, settle := 3, rate := 1000, count := 4, tones := [8, 16, 40], calRest := true, samplesA := [], samplesB := [], curOk := true, uncomp := true, spread := 5, useB := none, bins := none, ends := [], ther := [], badCells := [3, 575] } } }).updLink 3 fun l => { l with cmds := [{ id := 3, target := 63, params := [0, 50000, 1000, 4, 8, 16, 40], tag := 4, tries := 0, lastFrame := 0, waiting := [35], order := 0 }] }, by decide +kernel⟩,
   ⟨9, { bits := 4 }, { bits := 4 }, { string := 3, st := 3, frameA := some 1, t0 := 5, tEnd := 20000000, tag := some 4, took := [35, 0], comp := [], volts := [], amp := 5, ramp := 4, settle := 3, rate := 1000, count := 4, tones := [8, 16, 40], calRest := true, samplesA := [], samplesB := [], curOk := true, uncomp := true, spread := 5, useB := none, bins := none, ends := [], ther := [], badCells := [3, 575] }, setPar .regMeasRange 0 0 1200 (setPar .regMeasStuck 0 0 50 { run0 with surv := { run0.surv with imp := some { string := 3, st := 3, frameA := some 1, t0 := 5, tEnd := 20000000, tag := some 4, took := [35, 0], comp := [], volts := [], amp := 5, ramp := 4, settle := 3, rate := 1000, count := 4, tones := [8, 16, 40], calRest := true, samplesA := [], samplesB := [], curOk := true, uncomp := true, spread := 5, useB := none, bins := none, ends := [], ther := [], badCells := [3, 575] } } }), by decide +kernel⟩,
   ⟨30000000, { string := 3, st := 3, frameA := some 1, t0 := 5, tEnd := 20000000, tag := some 4, took := [35, 0], comp := [], volts := [], amp := 5, ramp := 4, settle := 3, rate := 1000, count := 4, tones := [8, 16, 40], calRest := true, samplesA := [1065353216, 1065353216, 1065353216, 1065353216], samplesB := [1065353216, 1065353216, 1065353216, 1065353216], curOk := true, uncomp := true, spread := 5, useB := none, bins := none, ends := [], ther := [], badCells := [3, 575] }, false, p3On <| setPar .impIAgree 0 0 10 (setPar .impIDrift 0 0 5 { run0 with est := List.replicate 4 { run0.estr 0 with chan := 0 }, surv := { run0.surv with imp := some { string := 3, st := 3, frameA := some 1, t0 := 5, tEnd := 20000000, tag := some 4, took := [35, 0], comp := [], volts := [], amp := 5, ramp := 4, settle := 3, rate := 1000, count := 4, tones := [8, 16, 40], calRest := true, samplesA := [1065353216, 1065353216, 1065353216, 1065353216], samplesB := [1065353216, 1065353216, 1065353216, 1065353216], curOk := true, uncomp := true, spread := 5, useB := none, bins := none, ends := [], ther := [], badCells := [3, 575] } } }), by decide +kernel, by decide +kernel, by decide +kernel, by decide +kernel, by decide +kernel, by decide +kernel, by decide +kernel, by decide +kernel, fun k _ => absAbove_self _ _ (by decide +kernel), by decide +kernel⟩,
   ⟨30000000, { string := 3, st := 3, frameA := some 1, t0 := 5, tEnd := 20000000, tag := some 4, took := [35, 0], comp := [], volts := [], amp := 5, ramp := 4, settle := 3, rate := 1000, count := 4, tones := [8, 16, 40], calRest := true, samplesA := [], samplesB := [], curOk := false, uncomp := true, spread := 5, useB := none, bins := none, ends := [], ther := [], badCells := [3, 575] }, p3On { run0 with surv := { run0.surv with imp := some { string := 3, st := 3, frameA := some 1, t0 := 5, tEnd := 20000000, tag := some 4, took := [35, 0], comp := [], volts := [], amp := 5, ramp := 4, settle := 3, rate := 1000, count := 4, tones := [8, 16, 40], calRest := true, samplesA := [], samplesB := [], curOk := false, uncomp := true, spread := 5, useB := none, bins := none, ends := [], ther := [], badCells := [3, 575] } } }, by decide +kernel⟩,
   ⟨30000000, { string := 3, st := 3, frameA := some 1, t0 := 5, tEnd := 20000000, tag := some 4, took := [35, 0], comp := [], volts := [], amp := 5, ramp := 4, settle := 3, rate := 1000, count := 4, tones := [8, 16, 40], calRest := true, samplesA := [], samplesB := [], curOk := true, uncomp := true, spread := 5, useB := none, bins := some [(1, 2), (3, 4), (5, 6)], ends := [], ther := [], badCells := [3, 575] }, [(1, 2), (3, 4), (5, 6)], p3On <| linked ({ (run0.updForg 143 fun f => { f with burstAt := some 2, burstRes := some (List.replicate 384 65) }).updForg 108 (fun f => { f with burstAt := some 2, burstRes := some (List.replicate 384 66) }) with surv := { run0.surv with table := none, imp := some { string := 3, st := 3, frameA := some 1, t0 := 5, tEnd := 20000000, tag := some 4, took := [35, 0], comp := [], volts := [], amp := 5, ramp := 4, settle := 3, rate := 1000, count := 4, tones := [8, 16, 40], calRest := true, samplesA := [], samplesB := [], curOk := true, uncomp := true, spread := 5, useB := none, bins := some [(1, 2), (3, 4), (5, 6)], ends := [], ther := [], badCells := [3, 575] } } }), by decide +kernel⟩⟩

theorem meets_LearnedWrite :
    (∃ (n : Nat) (cause : Nat) (s : State),
    n < 4 ∧ s.learned.length = 4 ∧ s.cells.length = 2304 ∧ s.therm.mramInh = false) ∧
    (∃ (t : Nat) (strings : BitVec 4) (s : State),
    s.running = true ∧ s.learned.length = 4 ∧ s.cells.length = 2304 ∧ s.therm.mramInh = false) ∧
    (∃ (t : Nat) (strings : BitVec 4) (s : State),
    s.running = true ∧ s.surv.deferred.length = 4 ∧ s.therm.mramInh = true) :=
  ⟨⟨3, 4, { (linked run0) with therm := { run0.therm with mramInh := false } }, by decide +kernel⟩,
   ⟨9, 0x9, { (linked run0) with therm := { run0.therm with mramInh := false } }, by decide +kernel⟩,
   ⟨9, 0x9, { (linked run0) with therm := { run0.therm with mramInh := true } }, by decide +kernel⟩⟩

theorem meets_LaneSamples :
    (∃ (t : Nat) (n : Fin 4) (ch : List Density) (s : State),
    s.running = true ∧ t % tickNs = carrierPhase s n.val ∧ (s.loop n.val).workAt ≠ some (t / tickNs) ∧ s.parBit .regStrings n.val = true ∧ s.reg.loops.length = 4 ∧ s.guard.gate.length = 4 ∧ s.pwr.vmain = true) ∧
    (∃ (t : Nat) (n : Fin 4) (ch : List Density) (s : State),
    s.running = true ∧ t % tickNs = carrierPhase s n.val ∧ (s.loop n.val).workAt ≠ some (t / tickNs) ∧ s.parBit .regStrings n.val = true ∧ s.reg.loops.length = 4 ∧ (s.loop n.val).st = .auto ∧ (s.loop n.val).toManual = none ∧ s.reg.newSets.getD n.val false = false ∧ s.reg.act.enabled.getD n.val false = true ∧ gateEn s n.val = true ∧ lacksMeas (gainSet s n.val (s.loop n.val).gset) (quantities s n.val ch) = true) ∧
    (∃ (t : Nat) (n : Fin 4) (s : State),
    s.running = true ∧ s.reg.loops.length = 4 ∧ s.disp.strs.length = 4 ∧ s.pwr.vmain = true ∧ ((s.loop n.val).st = .auto ∨ (s.loop n.val).st = .manual) ∧ s.parN .regMeasLostTicks ≤ (s.loop n.val).lackRun) ∧
    (∃ (t : Nat) (n : Fin 4) (ch : List Density) (chk : LaneCheck) (k : Nat) (s : State),
    s.running = true ∧ t % tickNs = carrierPhase s n.val ∧ (s.loop n.val).workAt ≠ some (t / tickNs) ∧ s.parBit .regStrings n.val = true ∧ s.reg.loops.length = 4 ∧ s.reg.lanes.length = 5 ∧ (s.loop n.val).lane = some k ∧ k < 5) ∧
    (∃ (t : Nat) (d : Density) (n : Fin 4) (k : Nat) (s : State),
    s.running = true ∧ t % tickNs = 0 ∧ s.reg.loops.length = 4 ∧ s.reg.lanes.length = 5 ∧ s.guard.gate.length = 4 ∧ s.pwr.vmain = true ∧ (s.loop n.val).laneStop = true ∧ (s.loop n.val).lane = some k ∧ k < 5 ∧ (∀ m, m < 4 → m ≠ n.val → (s.loop m).lane ≠ some k)) ∧
    (∃ (t : Nat) (n : Nat) (j : Nat) (k : Nat) (s : State),
    s.running = true ∧ s.reg.loops.length = 4 ∧ s.reg.lanes.length = 5 ∧ n < 4 ∧ j < 5 ∧ k < 5 ∧ j ≠ k ∧ s.reg.takeover = some n ∧ spareLane (s.modReg fun r => { r with takeover := none }) = some j ∧ (s.loop n).lane = some k) ∧
    (∃ (t : Nat) (n : Fin 4) (k : Nat) (s : State),
    s.running = true ∧ s.reg.loops.length = 4 ∧ s.reg.lanes.length = 5 ∧ s.guard.gate.length = 4 ∧ s.pwr.vmain = true ∧ k < 5 ∧ s.reg.takeover = some n.val ∧ spareLane (s.modReg fun r => { r with takeover := none }) = none ∧ (s.loop n.val).lane = some k) :=
  ⟨⟨20000 * 9, 3, [{ bits := 2 ^ 768 / 3 + 4 }, { bits := 2 ^ 768 / 3 + 7 }, { bits := 2 ^ 768 / 3 + 4 }, { bits := 2 ^ 768 / 3 + 77 }, { bits := 2 ^ 768 / 3 + 5 }, { bits := 2 ^ 768 / 3 + 9 }, { bits := 2 ^ 600 }], { (setPar .regStrings 0 0 15 (setPar .regPwmPhase 3 0 0 (setPar .bootPosition 0 0 0 run0))) with reg := { run0.reg with newSets := List.replicate 4 false, act := { run0.reg.act with enabled := List.replicate 4 true }, loops := [run0.loop 0, run0.loop 1, run0.loop 2, { run0.loop 3 with st := .off, lane := some 1, workAt := none }] }, pwr := { run0.pwr with vmain := true }, guard := { run0.guard with gate := List.replicate 4 true } }, by decide +kernel⟩,
   ⟨20000 * 9 + 15000, 3, [], { { (setPar .regStrings 0 0 15 (setPar .regPwmPhase 3 0 0 (setPar .bootPosition 0 0 0 run0))) with reg := { run0.reg with newSets := List.replicate 4 false, act := { run0.reg.act with enabled := List.replicate 4 true }, loops := [run0.loop 0, run0.loop 1, run0.loop 2, { run0.loop 3 with st := .auto, lane := some 1, workAt := none, toManual := none, gset := 1 }] }, pwr := { run0.pwr with vmain := true }, guard := { run0.guard with gate := List.replicate 4 true } } with boot := { run0.boot with run := { params := [({ p := .regStrings }, 15)], gains := List.replicate 64 { format := 1, nX := 4, nY := 2, sel := [0, 1, 2, 3] } } } }, by decide +kernel⟩,
   ⟨9, 3, { (setPar .regStrings 0 0 15 (setPar .regPwmPhase 3 0 0 (setPar .bootPosition 0 0 0 run0))) with reg := { run0.reg with newSets := List.replicate 4 false, act := { run0.reg.act with enabled := List.replicate 4 true }, loops := [run0.loop 0, run0.loop 1, run0.loop 2, { run0.loop 3 with st := .manual, lane := some 1, workAt := none, lackRun := 9999999 }] }, pwr := { run0.pwr with vmain := true }, guard := { run0.guard with gate := List.replicate 4 true } }, by decide +kernel⟩,
   ⟨20000 * 9, 3, [{ bits := 2 ^ 768 / 3 + 4 }, { bits := 2 ^ 768 / 3 + 7 }, { bits := 2 ^ 768 / 3 + 4 }, { bits := 2 ^ 768 / 3 + 77 }, { bits := 2 ^ 768 / 3 + 5 }, { bits := 2 ^ 768 / 3 + 9 }, { bits := 2 ^ 600 }], .selfError, 1, { (setPar .regStrings 0 0 15 (setPar .regPwmPhase 3 0 0 (setPar .bootPosition 0 0 0 run0))) with reg := { run0.reg with newSets := List.replicate 4 false, act := { run0.reg.act with enabled := List.replicate 4 true }, loops := [run0.loop 0, run0.loop 1, run0.loop 2, { run0.loop 3 with st := .auto, lane := some 1, workAt := none }], takeover := none, lanes := List.replicate 5 { st := 2, string := some 0 } }, pwr := { run0.pwr with vmain := true }, guard := { run0.guard with gate := List.replicate 4 true } }, by decide +kernel⟩,
   ⟨20000 * 9, { bits := 2 ^ 768 / 3 + 5 }, 3, 1, { { (setPar .regStrings 0 0 15 (setPar .regPwmPhase 3 0 0 (setPar .bootPosition 0 0 0 run0))) with reg := { run0.reg with newSets := List.replicate 4 false, act := { run0.reg.act with enabled := List.replicate 4 true }, loops := [run0.loop 0, run0.loop 1, run0.loop 2, { run0.loop 3 with st := .auto, lane := some 1, workAt := none }] }, pwr := { run0.pwr with vmain := true }, guard := { run0.guard with gate := List.replicate 4 true } } with reg := { run0.reg with lanes := List.replicate 5 { st := 0, string := some 0 }, loops := [{ run0.loop 0 with lane := none }, { run0.loop 1 with lane := none }, { run0.loop 2 with lane := some 0 }, { run0.loop 3 with st := .auto, lane := some 1, laneStop := true }] } }, by decide +kernel⟩,
   ⟨9, 3, 4, 1, { (setPar .regStrings 0 0 15 (setPar .regPwmPhase 3 0 0 (setPar .bootPosition 0 0 0 run0))) with reg := { run0.reg with newSets := List.replicate 4 false, act := { run0.reg.act with enabled := List.replicate 4 true }, loops := [run0.loop 0, run0.loop 1, run0.loop 2, { run0.loop 3 with st := .auto, lane := some 1, workAt := none }], takeover := some 3, lanes := [{}, {}, {}, {}, { st := 1 }] }, pwr := { run0.pwr with vmain := true }, guard := { run0.guard with gate := List.replicate 4 true } }, by decide +kernel⟩,
   ⟨9, 3, 1, { (setPar .regStrings 0 0 15 (setPar .regPwmPhase 3 0 0 (setPar .bootPosition 0 0 0 run0))) with reg := { run0.reg with newSets := List.replicate 4 false, act := { run0.reg.act with enabled := List.replicate 4 true }, loops := [run0.loop 0, run0.loop 1, run0.loop 2, { run0.loop 3 with st := .auto, lane := some 1, workAt := none }], takeover := some 3, lanes := List.replicate 5 { st := 3 } }, pwr := { run0.pwr with vmain := true }, guard := { run0.guard with gate := List.replicate 4 true } }, by decide +kernel⟩⟩

theorem meets_DutyLimits :
    (∃ (g : GainSet) (i : LawIn) (r : LaneRec),
    g.mode1 = false ∧ f32.lt i.dHi i.dLo = false) :=
  ⟨{ mode1 := false, nX := 4, nY := 2 }, { y := [1, 2, 3, 4], vb := 1065353216, vc := 0, rTab := 3, tone := 0, comp := 0, iLo := 4, iHi := 5, slew := 6, dLo := 0x3D4CCCCD, dHi := 0x3F733333, preset := false }, {}, by decide +kernel⟩

theorem meets_LoopCommands :
    (∃ (t : Nat) (n : Fin 4) (s : State),
    s.running = true ∧ s.reg.loops.length = 4 ∧ turningPoint s n.val t = true) ∧
    (∃ (t : Nat) (n : Fin 4) (s : State) (j : Nat),
    s.running = true ∧ j ∈ (s.loop n.val).satRun ∧ s.parN .regSatReport ≤ j) ∧
    (∃ (t : Nat) (d : Density) (s : State),
    s.running = true ∧ t % tickNs = 0 ∧ s.reg.loops.length = 4) ∧
    (∃ (t : Nat) (n : Fin 4) (d : BitVec 16) (s : State),
    s.running = true ∧ s.reg.loops.length = 4 ∧ (s.boot.mode = .commission ∨ s.boot.mode = .service) ∧ ((s.loop n.val).st = .auto ∨ (s.loop n.val).st = .manual)) ∧
    (∃ (t : Nat) (n : Fin 4) (d : BitVec 16) (s : State),
    s.running = true ∧ ((s.boot.mode ≠ .commission ∧ s.boot.mode ≠ .service) ∨ (s.loop n.val).st = .off)) ∧
    (∃ (t : Nat) (n : Fin 4) (s : State),
    s.running = true ∧ s.reg.loops.length = 4 ∧ (s.loop n.val).st = .manual) ∧
    (∃ (t : Nat) (n : Fin 4) (s : State),
    s.running = true ∧ (s.loop n.val).st = .auto) ∧
    (∃ (t : Nat) (n : Fin 4) (s : State),
    s.running = true ∧ (s.loop n.val).st ≠ .manual ∧ (s.loop n.val).st ≠ .auto) :=
  ⟨⟨40000 * 9 + 1200, 3, setPar .regPwmPhase 3 0 0 (setPar .bootPosition 0 0 0 run0), by decide +kernel⟩,
   ⟨9, 3, { (setPar .regStrings 0 0 15 (setPar .regPwmPhase 3 0 0 (setPar .bootPosition 0 0 0 run0))) with reg := { run0.reg with newSets := List.replicate 4 false, act := { run0.reg.act with enabled := List.replicate 4 true }, loops := [run0.loop 0, run0.loop 1, run0.loop 2, { run0.loop 3 with st := .auto, lane := some 1, workAt := none, satRun := [4, 999999] }] }, pwr := { run0.pwr with vmain := true }, guard := { run0.guard with gate := List.replicate 4 true } }, 999999, by decide +kernel⟩,
   ⟨20000 * 3, { bits := 2 ^ 768 / 3 + 4 }, { (setPar .regStrings 0 0 15 (setPar .regPwmPhase 3 0 0 (setPar .bootPosition 0 0 0 run0))) with reg := { run0.reg with newSets := List.replicate 4 false, act := { run0.reg.act with enabled := List.replicate 4 true }, loops := [run0.loop 0, run0.loop 1, run0.loop 2, { run0.loop 3 with st := .manual, lane := some 1, workAt := none, regionNext := some 3 }], swapLate := true }, pwr := { run0.pwr with vmain := true }, guard := { run0.guard with gate := List.replicate 4 true } }, by decide +kernel⟩,
   ⟨9, 3, 4321, inMode .service ({ (setPar .regStrings 0 0 15 (setPar .regPwmPhase 3 0 0 (setPar .bootPosition 0 0 0 run0))) with reg := { run0.reg with newSets := List.replicate 4 false, act := { run0.reg.act with enabled := List.replicate 4 true }, loops := [run0.loop 0, run0.loop 1, run0.loop 2, { run0.loop 3 with st := .manual, lane := some 1, workAt := none }] }, pwr := { run0.pwr with vmain := true }, guard := { run0.guard with gate := List.replicate 4 true } }), by decide +kernel⟩,
   ⟨9, 3, 4321, inMode .operate ({ (setPar .regStrings 0 0 15 (setPar .regPwmPhase 3 0 0 (setPar .bootPosition 0 0 0 run0))) with reg := { run0.reg with newSets := List.replicate 4 false, act := { run0.reg.act with enabled := List.replicate 4 true }, loops := [run0.loop 0, run0.loop 1, run0.loop 2, { run0.loop 3 with st := .manual, lane := some 1, workAt := none }] }, pwr := { run0.pwr with vmain := true }, guard := { run0.guard with gate := List.replicate 4 true } }), by decide +kernel⟩,
   ⟨9, 3, { (setPar .regStrings 0 0 15 (setPar .regPwmPhase 3 0 0 (setPar .bootPosition 0 0 0 run0))) with reg := { run0.reg with newSets := List.replicate 4 false, act := { run0.reg.act with enabled := List.replicate 4 true }, loops := [run0.loop 0, run0.loop 1, run0.loop 2, { run0.loop 3 with st := .manual, lane := some 1, workAt := none }] }, pwr := { run0.pwr with vmain := true }, guard := { run0.guard with gate := List.replicate 4 true } }, by decide +kernel⟩,
   ⟨9, 3, { (setPar .regStrings 0 0 15 (setPar .regPwmPhase 3 0 0 (setPar .bootPosition 0 0 0 run0))) with reg := { run0.reg with newSets := List.replicate 4 false, act := { run0.reg.act with enabled := List.replicate 4 true }, loops := [run0.loop 0, run0.loop 1, run0.loop 2, { run0.loop 3 with st := .auto, lane := some 1, workAt := none }] }, pwr := { run0.pwr with vmain := true }, guard := { run0.guard with gate := List.replicate 4 true } }, by decide +kernel⟩,
   ⟨9, 3, { (setPar .regStrings 0 0 15 (setPar .regPwmPhase 3 0 0 (setPar .bootPosition 0 0 0 run0))) with reg := { run0.reg with newSets := List.replicate 4 false, act := { run0.reg.act with enabled := List.replicate 4 true }, loops := [run0.loop 0, run0.loop 1, run0.loop 2, { run0.loop 3 with st := .stopLane, lane := some 1, workAt := none }] }, pwr := { run0.pwr with vmain := true }, guard := { run0.guard with gate := List.replicate 4 true } }, by decide +kernel⟩⟩

theorem meets_DieTemperature :
    (∃ (t : Nat) (counts : List Nat) (s : State),
    s.up = true ∧ s.roundPos = 0 ∧ s.frameStart + 6000000 ≤ t ∧ t ≤ s.frameStart + 7000000 ∧ s.therm.dies.length = 6) ∧
    (∃ (thr : Int) (sh : Int) (t : Int) (u : Int),
    thr < sh) :=
  ⟨⟨6000009, [1, 4, 5, 6, 7], { run0 with time := { run0.time with frame := 0 } }, by decide +kernel⟩,
   ⟨850, 1250, 900, 1000, by decide +kernel⟩⟩

theorem meets_SetPoints :
    (∃ (t : Nat) (w : Int) (s : State),
    s.running = true ∧ ratAbs (w : Rat) ≤ pMax s) ∧
    (∃ (t : Nat) (w : Int) (s : State),
    s.running = true ∧ pMax s < ratAbs (w : Rat)) ∧
    (∃ (t : Nat) (c : BitVec 16) (d : BitVec 16) (s : State),
    s.running = true) ∧
    (∃ (t : Nat) (b : Bool) (s : State),
    s.running = true ∧ (b = false ∨ s.parN .dispSrcBackup ≠ 255)) ∧
    (∃ (t : Nat) (s : State),
    s.running = true ∧ s.disp.loss = 1 ∧ s.disp.lossAt + s.parN .dispLossHold * 1000000 ≤ t) ∧
    (∃ (t : Nat) (a : Nat) (s : State),
    s.running = true ∧ s.disp.primOkAt = some a ∧ s.parB .dispSrcRevert = true ∧ s.disp.onBackup = true ∧ a + s.parN .dispSrcRevertT * 1000000000 ≤ t) ∧
    (∃ (t : Nat) (k : Nat) (s : State),
    s.running = true ∧ k < 2 ∧ s.parN .dispAllowSource = k + 1 ∧ s.disp.allowLost.length = 2 ∧ (match s.disp.allow.getD k none with | some (_, u) => u | none => s.boot.endT) + s.parN .dispAllowTimeout * 1000000 ≤ max s.time.now t) :=
  ⟨⟨9, -5, setPar .dispPMax 0 0 0x42C80000 run0, by decide +kernel⟩,
   ⟨9, -5, setPar .dispPMax 0 0 0 run0, by decide +kernel⟩,
   ⟨9, 0xFFFF, 7, run0, by decide +kernel⟩,
   ⟨9, true, setPar .dispSrcBackup 0 0 2 run0, by decide +kernel⟩,
   ⟨run0.disp.lossAt + 9999000000, setPar .dispLossHold 0 0 9 { run0 with disp := { run0.disp with loss := 1 } }, by decide +kernel⟩,
   ⟨20000000009, 9, setPar .dispSrcRevertT 0 0 20 (setPar .dispSrcRevert 0 0 1 { run0 with disp := { run0.disp with onBackup := true, primOkAt := some 9 } }), by decide +kernel⟩,
   ⟨1000000009, 0, setPar .dispAllowSource 0 0 1 (setPar .dispAllowTimeout 0 0 1000 { run0 with disp := { run0.disp with allow := [some ((4, 5), 9), none] } }), by decide +kernel⟩⟩

theorem meets_SharesWithinLimits :
    (∃ (s : State) (p : Rat) (surv : Rat) (shared : List Nat) (n : Nat) (x : Rat),
    (n, x) ∈ allocate s p surv shared) :=
  ⟨{ run0 with comb := { run0.comb with seen := { run0.comb.seen with loops := List.replicate 4 { vs := some 900, vb := some 900 }, therm := { run0.therm with strs := List.replicate 4 { fc := 1, fd := 1 } } } }, therm := { run0.therm with strs := List.replicate 4 { fc := 1, fd := 1 } } }, 1000, 50, [0, 3], 3, 475, by decide +kernel⟩

theorem meets_StringCommands :
    (∃ (t : Nat) (n : Fin 4) (s : State),
    s.running = true ∧ s.disp.strs.length = 4 ∧ connectReason (s.at_ t) n.val = 0) ∧
    (∃ (t : Nat) (n : Fin 4) (s : State),
    s.running = true ∧ connectReason (s.at_ t) n.val ≠ 0) ∧
    (∃ (t : Nat) (n : Fin 4) (s : State),
    s.running = true ∧ s.disp.strs.length = 4 ∧ (s.dstr n.val).wantConn = false ∧ 1 ≤ (s.dstr n.val).conn ∧ (s.dstr n.val).conn ≤ 5) ∧
    (∃ (t : Nat) (n : Fin 4) (s : State),
    s.running = true ∧ s.disp.strs.length = 4 ∧ (s.dstr n.val).wantConn = true) ∧
    (∃ (t : Nat) (n : Fin 4) (s : State),
    s.running = true ∧ s.disp.strs.length = 4 ∧ s.pwr.vmain = true ∧ (s.dstr n.val).conn = 7 ∧ (∀ k, k < 3 → cfbClosed s n.val k = false)) ∧
    (∃ (t : Nat) (n : Fin 4) (s : State),
    s.running = true ∧ (s.dstr n.val).conn ≠ 7) ∧
    (∃ (t : Nat) (n : Fin 4) (s : State),
    s.running = true ∧ s.disp.strs.length = 4 ∧ (s.dstr n.val).restAt.isSome = true) ∧
    (∃ (t : Nat) (n : Fin 4) (a : Nat) (s : State),
    s.running = true ∧ s.disp.strs.length = 4 ∧ (s.dstr n.val).restAt = some a ∧ a + (s.dstr n.val).restT * 1000000000 ≤ t) ∧
    (∃ (t : Nat) (n : Fin 4) (s : State),
    s.running = true ∧ s.disp.strs.length = 4 ∧ (s.dstr n.val).conn = 6 ∧ (s.dstr n.val).opening = 4 ∧ (s.dstr n.val).discAt + (s.dstr n.val).seq.discTmax * 1000000 ≤ t) :=
  ⟨⟨9, 3, { { (setPar .regVbusMin 0 0 0 (setPar .regVbusMax 0 0 9999 (inMode .operate ({ (setPar .regStrings 0 0 15 (setPar .regPwmPhase 3 0 0 (setPar .bootPosition 0 0 0 run0))) with comb := { run0.comb with failedLines := [], seen := { run0.comb.seen with loops := List.replicate 4 { vb := some 900 } } }, reg := { run0.reg with newSets := List.replicate 4 false, act := { run0.reg.act with enabled := List.replicate 4 true }, loops := [run0.loop 0, run0.loop 1, run0.loop 2, { run0.loop 3 with st := .off, lane := some 1, workAt := none }] }, pwr := { run0.pwr with vmain := true }, guard := { run0.guard with gate := List.replicate 4 true } })))) with disp := { run0.disp with strs := [run0.dstr 0, run0.dstr 1, run0.dstr 2, { run0.dstr 3 with conn := 0, wantConn := false }] }, pwr := { run0.pwr with vguard := true }, bist := { run0.bist with deep := none }, guard := { run0.guard with cfb := [], started := true, line := List.replicate 4 true, granted := List.replicate 5 true, latch := [] } } with boot := { phase := .run, porN := true, mode := .operate, run := { params := [({ p := .regStrings }, 15), ({ p := .regVbusMin }, 0), ({ p := .regVbusMax }, 9999)] } } }, by decide +kernel⟩,
   ⟨9, 2, inMode .standby run0, by decide +kernel⟩,
   ⟨9, 3, { run0 with pwr := { run0.pwr with vmain := true }, disp := { run0.disp with strs := [run0.dstr 0, run0.dstr 1, run0.dstr 2, { run0.dstr 3 with conn := 5, wantConn := false }] } }, by decide +kernel⟩,
   ⟨9, 3, { run0 with pwr := { run0.pwr with vmain := true }, disp := { run0.disp with strs := [run0.dstr 0, run0.dstr 1, run0.dstr 2, { run0.dstr 3 with wantConn := true }] } }, by decide +kernel⟩,
   ⟨9, 3, { { run0 with pwr := { run0.pwr with vmain := true }, disp := { run0.disp with strs := [run0.dstr 0, run0.dstr 1, run0.dstr 2, { run0.dstr 3 with conn := 7 }] } } with guard := { run0.guard with cfb := [] } }, by decide +kernel⟩,
   ⟨9, 3, { run0 with pwr := { run0.pwr with vmain := true }, disp := { run0.disp with strs := [run0.dstr 0, run0.dstr 1, run0.dstr 2, { run0.dstr 3 with conn := 3 }] } }, by decide +kernel⟩,
   ⟨9, 3, { run0 with pwr := { run0.pwr with vmain := true }, disp := { run0.disp with strs := [run0.dstr 0, run0.dstr 1, run0.dstr 2, { run0.dstr 3 with restAt := some 8 }] } }, by decide +kernel⟩,
   ⟨7200000000009, 3, 8, { run0 with pwr := { run0.pwr with vmain := true }, disp := { run0.disp with strs := [run0.dstr 0, run0.dstr 1, run0.dstr 2, { run0.dstr 3 with restAt := some 8, restT := 7200 }] } }, by decide +kernel⟩,
   ⟨60000000009, 3, setPar .dispDiscTmax 0 0 1000 ({ run0 with pwr := { run0.pwr with vmain := true }, disp := { run0.disp with strs := [run0.dstr 0, run0.dstr 1, run0.dstr 2, { run0.dstr 3 with conn := 6, opening := 4, discAt := 8 }] } }), by decide +kernel⟩⟩

theorem meets_ConnectionOrder :
    (∃ (t : Nat) (n : Fin 4) (s : State),
    s.running = true ∧ s.disp.strs.length = 4) ∧
    (∃ (s : State) (n : Nat),
    n < 4 ∧ s.disp.strs.length = 4) :=
  ⟨⟨60000000009, 3, { run0 with pwr := { run0.pwr with vmain := true }, disp := { run0.disp with strs := [run0.dstr 0, run0.dstr 1, run0.dstr 2, { run0.dstr 3 with conn := 2, reqAt := 8, seenAt := some 8 }] } }, by decide +kernel⟩,
   ⟨run0, 3, by decide +kernel⟩⟩

theorem meets_FrameWork :
    (∃ (t : Nat) (req : List Nat) (lines : List LineFault) (fails : List (Nat × Nat)) (late : Bool) (s : State),
    s.up = true ∧ s.time.framesOn = true ∧ t / 10000000 = s.time.frame + 1 ∧ s.upd.actFrame = none ∧ s.upd.beginFrame = none) ∧
    (∃ (t : Nat) (req : List Nat) (lines : List LineFault) (fails : List (Nat × Nat)) (late : Bool) (s : State),
    t / 10000000 ≠ s.time.frame + 1) ∧
    (∃ (t : Nat) (net : List Int) (k : Nat) (ch : List Density) (gpio : BitVec 16) (s : State),
    s.up = true ∧ s.time.framesOn = true ∧ s.workDue 0 = true ∧ t = s.frameStart + s.time.sCur ∧ s.est.length = 4) :=
  ⟨⟨770000000, [5, 6], [], [], false, { run0 with time := { run0.time with framesOn := true, frame := 76 }, upd := { run0.upd with actFrame := none, beginFrame := none } }, by decide +kernel⟩,
   ⟨9, [], [], [], false, { run0 with time := { run0.time with framesOn := true, frame := 76 }, upd := { run0.upd with actFrame := none, beginFrame := none } }, by decide +kernel⟩,
   ⟨run0.time.frame * 10000000 + run0.time.sCur, [4, -3, 2, 1, 0, 9], 500, [{ bits := 2 ^ 768 / 3 + 4 }, { bits := 2 ^ 768 / 3 + 4 }], 0xFF, { run0 with time := { run0.time with framesOn := true, hadWork := [] } }, by decide +kernel⟩⟩

theorem meets_CombPublication :
    (∃ (t : Nat) (late : BitVec 16) (s : State),
    s.up = true ∧ s.time.framesOn = true ∧ s.time.firstFrame + 1 ≤ s.time.frame ∧ t = s.frameStart + 5000000 ∧ s.comb.published.map (·.frame) ≠ some (s.time.frame - 1)) ∧
    (∃ (t : Nat) (late : BitVec 16) (s : State),
    (t ≠ s.frameStart + 5000000 ∨ s.comb.published.map (·.frame) = some (s.time.frame - 1))) :=
  ⟨⟨(run0.time.frame + 1) * 10000000 + 5000000, 0x1005, (startAt 8 ({ run0 with time := { run0.time with framesOn := true, frame := run0.time.frame + 1, firstFrame := 0 }, comb := { run0.comb with published := some { frame := run0.time.frame + 4, sampleTime := 5, publishTime := 6, mapVersion := 1, flags := 0, closed := 0, place := (0, 0), keys := [], items := [] } } })), by decide +kernel⟩,
   ⟨run0.time.frame * 10000000 + 5000000 + 0, 0x1005, { run0 with comb := { run0.comb with published := some { frame := run0.time.frame - 1, sampleTime := 5, publishTime := 6, mapVersion := 1, flags := 0, closed := 0, place := (0, 0), keys := [], items := [] } } }, by decide +kernel⟩⟩

theorem meets_GuardOutputsSafe :
    (∃ (s : State) (r : State),
    (∀ n, n < 4 → gateSafe s n) ∧ step s = .next r) ∧
    (∃ (c : Instr) (s : State),
    guardCommand c = true ∧ guardUp s = true) :=
  ⟨⟨{ guardOn run0 with pending := [.permitWithdrawn 5 0] }, match step { guardOn run0 with pending := [.permitWithdrawn 5 0] } with | .next r => r | _ => run0, by unfold gateSafe; decide +kernel, rfl⟩,
   ⟨.permitLapse 7, { run0 with pwr := { run0.pwr with vguard := true }, boot := { run0.boot with porN := true } }, by decide +kernel⟩⟩

theorem meets_PermitStage :
    (∃ (t : Nat) (n : Fin 4) (s : State),
    s.pwr.vmain = true ∧ s.guard.gate.length = 4 ∧ s.guard.ctr.length = 12) ∧
    (∃ (t : Nat) (n : Fin 4) (g : Nat) (s : State),
    s.guard.gateLowAt.getD n.val none = some g ∧ guardUp s = true ∧ (g + 20000000 ≤ t ∨ ∃ a, s.guard.lowSince.getD n.val none = some a ∧ max a g + 200000 ≤ t)) ∧
    (∃ (t : Nat) (s : State),
    s.up = true ∧ s.core.aliveOn = true ∧ guardUp s = true ∧ s.guard.line.length = 4 ∧ s.guard.toggled.length = 4) ∧
    (∃ (t : Nat) (s : State),
    guardUp s = true) ∧
    (∃ (t : Nat) (s : State),
    guardUp s = true ∧ s.guard.params.isSome = true) :=
  ⟨⟨9, 3, guardOn run0, by decide +kernel⟩,
   ⟨20000009, 3, 9, { guardOn run0 with guard := { (guardOn run0).guard with gateLowAt := [none, none, none, some 9] } }, by decide +kernel⟩,
   ⟨run0.time.now + 9, { guardOn run0 with core := { run0.core with aliveOn := true, permit := [true, false, true, false] } }, by decide +kernel⟩,
   ⟨run0.time.now + 60000, { guardOn run0 with guard := { (guardOn run0).guard with toggled := [run0.time.now, run0.time.now + 999999, 0, run0.time.now] } }, by decide +kernel⟩,
   ⟨9, guardOn run0, by decide +kernel⟩⟩

theorem meets_GuardValues :
    (∃ (t : Nat) (ch : List GuardDens) (s : State),
    guardUp s = true ∧ s.guard.chans.length = 10) ∧
    (∃ (t : Nat) (ch : List GuardDens) (s : State),
    guardUp s = true ∧ s.guard.chans.length = 10) ∧
    (∃ (t : Nat) (ch : List GuardDens) (n : Fin 4) (v : GuardDens) (s : State),
    guardUp s = true ∧ guarded s n.val = true ∧ s.guard.granted.getD n.val false = true ∧ s.guard.chans.length = 10 ∧ s.guard.latch.length = 5 ∧ s.guard.sticky.length = 5 ∧ s.guard.hazards.getD n.val 0 &&& sf 1 = 0 ∧ 1 ≤ (gchan s (2 * n.val)).run ∧ ch[2 * n.val]? = some v ∧ clkBad (s.at_ t) v (gchan s (2 * n.val)) = false ∧ quietClocks v.d.bits < 128 ∧ (gpar s .safeOcI : Rat) / 10 < ratAbs (guardCal s (2 * n.val) (density 64 v.d.bits))) ∧
    (∃ (t : Nat) (a : Bool) (b : Bool) (s : State),
    guardUp s = true ∧ s.guard.granted.getD 4 false = true ∧ s.guard.latch.length = 5 ∧ s.guard.sticky.length = 5 ∧ s.guard.hazards.getD 4 0 &&& sf 8 = 0 ∧ (a && b) = false) :=
  ⟨⟨run0.time.now + 9, [⟨{ bits := 2 ^ 192 - 1 - 2 ^ 96 }, 20000000⟩, ⟨{ bits := 2 ^ 100 + 4 }, 20000000⟩, ⟨{ bits := 2 ^ 192 / 3 }, 21000001⟩, ⟨{ bits := 2 ^ 192 - 1 }, 20000000⟩, ⟨{ bits := 2 ^ 192 / 7 }, 20000000⟩], guardOn run0, by decide +kernel⟩,
   ⟨run0.time.now + 9, [⟨{ bits := 2 ^ 192 - 1 - 2 ^ 96 }, 20000000⟩, ⟨{ bits := 2 ^ 100 + 4 }, 20000000⟩, ⟨{ bits := 2 ^ 192 / 3 }, 21000001⟩, ⟨{ bits := 2 ^ 192 - 1 }, 20000000⟩, ⟨{ bits := 2 ^ 192 / 7 }, 20000000⟩], guardOn run0, by decide +kernel⟩,
   ⟨run0.time.now + 9, [⟨{ bits := 2 ^ 192 / 3 }, 20000000⟩, ⟨{ bits := 2 ^ 192 / 3 }, 20000000⟩, ⟨{ bits := 2 ^ 192 / 3 }, 20000000⟩, ⟨{ bits := 2 ^ 192 / 3 }, 20000000⟩, ⟨{ bits := 2 ^ 192 / 3 }, 20000000⟩, ⟨{ bits := 2 ^ 192 / 3 }, 20000000⟩, ⟨{ bits := 2 ^ 192 - 1 - 2 ^ 96 }, 20000000⟩], 3, ⟨{ bits := 2 ^ 192 - 1 - 2 ^ 96 }, 20000000⟩, { guardOn run0 with guard := { (guardOn run0).guard with params := some [({ p := .safeStrings }, 15), ({ p := .safeCalGain, i := guardChannel 6 }, 0x45000000)], chans := List.replicate 10 { run := 1 }, hazards := List.replicate 5 0 } }, by decide +kernel⟩,
   ⟨run0.time.now + 9, true, false, { guardOn run0 with guard := { (guardOn run0).guard with hazards := List.replicate 5 0 } }, by decide +kernel⟩⟩

theorem meets_GuardInputs :
    (∃ (t : Nat) (s : State),
    guardUp s = true ∧ s.guard.floops.length = 4) ∧
    (∃ (t : Nat) (held : Nat) (n : Fin 4) (high : Bool) (s : State),
    held < 2000 ∧ guardUp s = true) ∧
    (∃ (t : Nat) (held : Nat) (n : Fin 4) (e : Nat) (s : State),
    guardUp s = true ∧ 2000 ≤ held ∧ s.guard.floops.length = 4 ∧ (floop s n.val).edge = some e) ∧
    (∃ (t : Nat) (n : Fin 4) (e : Nat) (s : State),
    guardUp s = true ∧ s.guard.floops.length = 4 ∧ (floop s n.val).edge = some e ∧ e + 200000 ≤ t) ∧
    (∃ (t : Nat) (d : Nat) (s : State),
    guardUp s = true ∧ s.guard.tripDiff = some d ∧ d + (gpar s .safeTripDisc).toNat * 1000000 ≤ t) ∧
    (∃ (t : Nat) (n : Fin 4) (k : Fin 3) (closed : Bool) (s : State),
    guardUp s = true ∧ s.guard.cfb.length = 12) ∧
    (∃ (t : Nat) (n : Fin 4) (k : Fin 3) (s : State),
    guardUp s = true ∧ s.guard.latch.length = 5 ∧ s.guard.sticky.length = 5 ∧ fbFault (s.at_ t) (3 * n.val + k.val) = true ∧ guarded s n.val = true ∧ s.guard.granted.getD n.val false = true) ∧
    (∃ (t : Nat) (n : Fin 4) (k : Fin 3) (s : State),
    guardUp s = true ∧ s.guard.latch.length = 5 ∧ s.guard.sticky.length = 5 ∧ s.guard.weld.length = 12 ∧ weldFault (s.at_ t) (3 * n.val + k.val) = true ∧ guarded s n.val = true ∧ s.guard.granted.getD n.val false = true) :=
  ⟨⟨run0.time.now + 9, guardOn run0, by decide +kernel⟩,
   ⟨20009, 1000, 2, true, { guardOn run0 with guard := { (guardOn run0).guard with floops := [{}, { inn := true, edge := some 7 }, { out := true, edge := some 9 }, {}] } }, by decide +kernel⟩,
   ⟨20009, 2000, 2, 9, { guardOn run0 with guard := { (guardOn run0).guard with floops := [{}, { inn := true, edge := some 7 }, { out := true, edge := some 9 }, {}] } }, by decide +kernel⟩,
   ⟨200009, 2, 9, { guardOn run0 with guard := { (guardOn run0).guard with floops := [{}, { inn := true, edge := some 7 }, { out := true, edge := some 9, missed := 7 }, {}] } }, by decide +kernel⟩,
   ⟨500000009, 9, { guardOn run0 with guard := { (guardOn run0).guard with tripDiff := some 9 } }, by decide +kernel⟩,
   ⟨run0.time.now + 9, 3, 2, true, guardOn run0, by decide +kernel⟩,
   ⟨100000009, 3, 2, { guardOn run0 with guard := { (guardOn run0).guard with ctr := List.replicate 12 true, cfb := List.replicate 12 false, cfbDiff := List.replicate 12 (some 9) } }, by decide +kernel⟩,
   ⟨100000009, 3, 2, { guardOn run0 with guard := { (guardOn run0).guard with ctr := List.replicate 12 false, cfb := List.replicate 12 true, cfbDiff := List.replicate 12 (some 9) } }, by decide +kernel⟩⟩

theorem meets_GuardReset :
    (∃ (t : Nat) (tr : Nat) (f : Nat) (s : State),
    guardUp s = true ∧ s.guard.stuck = false ∧ s.guard.tF = some f ∧ f + 200000000 ≤ tr ∧ tr ≤ f + 5000000000 ∧ tr + 20000000 ≤ t ∧ s.guard.latch.length = 5) :=
  ⟨300000009, 200000009, 9, { guardOn run0 with guard := { (guardOn run0).guard with stuck := false, tF := some 9, latch := [{}, { on := true, setAt := 5 }, { on := true, setAt := 9 }, {}, { on := true }] } }, by decide +kernel⟩

theorem meets_ResetInput :
    (∃ (t : Nat) (tf : Nat) (tr : Nat) (s : State),
    guardUp s = true) ∧
    (∃ (t : Nat) (tf : Nat) (s : State),
    guardUp s = true ∧ tf + 20000000 ≤ t) ∧
    (∃ (t : Nat) (tr : Nat) (f : Nat) (s : State),
    s.up = true ∧ guardUp s = true ∧ s.guard.stuck = false ∧ s.guard.tF = some f ∧ tr < f + 200000000 ∧ tr + 20000000 ≤ t) ∧
    (∃ (t : Nat) (f : Nat) (s : State),
    s.up = true ∧ guardUp s = true ∧ s.guard.resetHigh = false ∧ s.guard.tF = some f ∧ f + 5000000000 ≤ t) ∧
    (∃ (t : Nat) (s : State),
    guardUp s = true ∧ s.guard.resetHigh = true ∧ s.guard.resetAt + 1000000000 ≤ t) ∧
    (∃ (t : Nat) (a : Nat) (s : State),
    s.running = true ∧ s.core.tAcc = some a ∧ a + 10020000000 < t ∧ (∀ f p, s.guard.press = some (f, p) → a + 10000000000 < pressEnd s p)) :=
  ⟨⟨9, 19999 * 1000, 19999 * 1000, { guardOn run0 with guard := { (guardOn run0).guard with stuck := false } }, by decide +kernel⟩,
   ⟨20000009, 8, { guardOn run0 with guard := { (guardOn run0).guard with stuck := false } }, by decide +kernel⟩,
   ⟨220000008, 200000008, 9, { guardOn run0 with guard := { (guardOn run0).guard with stuck := false, tF := some 9 } }, by decide +kernel⟩,
   ⟨5000000009, 9, { guardOn run0 with guard := { (guardOn run0).guard with stuck := false, tF := some 9, resetHigh := false } }, by decide +kernel⟩,
   ⟨1000000009, { guardOn run0 with guard := { (guardOn run0).guard with stuck := true, resetHigh := true, resetAt := 9 } }, by decide +kernel⟩,
   ⟨10020000010, 9, { run0 with core := { run0.core with tAcc := some 9, scope := [.locked, .resetArmed, .armed, .tripping, .resetArmed] }, guard := { run0.guard with press := none } }, by decide +kernel, by decide +kernel, by decide +kernel, fun _ _ h => nomatch h⟩⟩

theorem meets_SafetyEvaluation :
    (∃ (t : Nat) (ok : Bool) (s : State),
    evaluating s = true ∧ s.frameStart + 5000000 ≤ t ∧ t ≤ s.frameStart + 6000000) ∧
    (∃ (t : Nat) (s : State),
    evaluating s = true ∧ s.frameStart + 6000000 ≤ t ∧ s.core.latch.length = 5 ∧ s.core.causes.length = 5 ∧ s.core.scope.length = 5) ∧
    (∃ (t : Nat) (ok : Bool) (n : Fin 4) (v : Rat) (s : State),
    evaluating s = true ∧ s.frameStart + 5000000 ≤ t ∧ t ≤ s.frameStart + 6000000 ∧ s.comb.published.isSome = true ∧ cored s n.val = true ∧ s.core.latch.length = 5 ∧ s.core.causes.length = 5 ∧ s.core.scope.length = 5 ∧ scopeSt s n.val = .armed ∧ meanAmp (s.asSeen.estr n.val).aItem = some v ∧ (cpar s .safeOcI : Rat) / 10 < ratAbs v) :=
  ⟨⟨run0.frameStart + 5000009, true, { guardOn run0 with time := { run0.time with framesOn := true }, core := { run0.core with evalDone := false, params := some [({ p := .safeStrings }, 15)] } }, by decide +kernel⟩,
   ⟨run0.frameStart + 6000009, { run0 with time := { run0.time with framesOn := true }, core := { run0.core with evalDone := false, params := some [({ p := .safeStrings }, 15)] } }, by decide +kernel⟩,
   ⟨run0.frameStart + 5000009, true, 3, 300, { (guardOn run0) with time := { run0.time with framesOn := true }, comb := { run0.comb with published := some { frame := 9, sampleTime := 5, publishTime := 6, mapVersion := 1, flags := 0, closed := 0, place := (0, 0), keys := [], items := [] }, failedLines := [], seen := { run0.comb.seen with est := List.replicate 4 { aItem := { val := 30000, q := .good, age := some 0 } } } }, core := { run0.core with evalDone := false, params := some [({ p := .safeStrings }, 15)], scope := List.replicate 5 .armed } }, by decide +kernel⟩⟩

theorem meets_NoRearmWithoutPress :
    (∃ (t : Nat) (ok : Bool) (k : Nat) (s : State),
    evaluating s = true ∧ s.frameStart + 5000000 ≤ t ∧ t ≤ s.frameStart + 6000000 ∧ k < 5 ∧ s.core.scope.length = 5 ∧ scopeSt s k = .locked ∧ s.guard.press = none) :=
  ⟨run0.frameStart + 5000009, true, 4, { run0 with time := { run0.time with framesOn := true }, core := { run0.core with evalDone := false, params := some [({ p := .safeStrings }, 15)], scope := List.replicate 5 .locked }, guard := { run0.guard with press := none } }, by decide +kernel⟩

theorem meets_SafetyLayerUnits :
    (∃ (t : Nat) (h : NetHead) (bytes : List (BitVec 8)) (s : State),
    s.up = true ∧ laterCopy t h s = false ∧ udpTaken s (cpar s .safeFslUdpPort).toNat h = false) ∧
    (∃ (t : Nat) (h : NetHead) (bytes : List (BitVec 8)) (s : State),
    laterCopy t h s = true) ∧
    (∃ (t : Nat) (h : NetHead) (bytes : List (BitVec 8)) (s : State),
    s.up = true ∧ laterCopy t h s = false ∧ udpTaken s (cpar s .safeFslUdpPort).toNat h = true ∧ fslChannel s 0 = true ∧ s.core.buffer.length < 32) ∧
    (∃ (t : Nat) (h : NetHead) (bytes : List (BitVec 8)) (s : State),
    s.up = true ∧ laterCopy t h s = false ∧ udpTaken s (cpar s .safeFslUdpPort).toNat h = true ∧ fslChannel s 0 = true ∧ 32 ≤ s.core.buffer.length) ∧
    (∃ (t : Nat) (p : Fin 2) (f : CanFrame) (rest : List CanFrame) (s : State),
    s.up = true ∧ fslChannel s 1 = true ∧ s.core.buffer.length < 32 ∧ s.can.ports.length = 2 ∧ takeFrame (fun f => idClass s f.ext f.id == 3) (canPort s p.val).fifo0 = some (f, rest)) ∧
    (∃ (t : Nat) (k : Fin 8) (s : State),
    s.running = true ∧ s.core.conns.length = 8 ∧ s.core.latch.length = 5 ∧ s.core.causes.length = 5 ∧ s.core.scope.length = 5 ∧ (fslConn s k.val).st = .running ∧ (fslConn s k.val).deadline ≤ s.frameStart + 5000000 ∧ s.frameStart + 5000000 ≤ t ∧ t ≤ s.frameStart + 6000000 ∧ (∀ u ∈ s.core.buffer, pduConn u.bytes ≠ connId s k.val)) ∧
    (∃ (k : Nat) (u : FslUnit) (s : State),
    k < 8 ∧ s.core.conns.length = 8 ∧ fslCrcOk (connId s k) u.bytes = false) ∧
    (∃ (k : Nat) (u : FslUnit) (s : State),
    k < 8 ∧ s.core.conns.length = 8 ∧ fslCrcOk (connId s k) u.bytes = true ∧ typeOk k u.bytes = true ∧ wdOk s u.bytes = true ∧ seqDist (fslConn s k) u.bytes = none) :=
  ⟨⟨9, { options := true }, [1, 2, 3], { ({ run0 with core := { run0.core with params := some [({ p := .safeFslChannels }, 3), ({ p := .safeFslCanRx }, 0x1234), ({ p := .safeFslTrip, i := 1 }, 0x99)], buffer := run0.core.buffer.take 31 } }) with host := { ({ run0 with core := { run0.core with params := some [({ p := .safeFslChannels }, 3), ({ p := .safeFslCanRx }, 0x1234), ({ p := .safeFslTrip, i := 1 }, 0x99)], buffer := run0.core.buffer.take 31 } }).host with prpSeen := [(5, 7, 8), (6, 6, 8)] } }, by decide +kernel⟩,
   ⟨9, { prp := some (5, 7) }, [1, 2, 3], { ({ run0 with core := { run0.core with params := some [({ p := .safeFslChannels }, 3), ({ p := .safeFslCanRx }, 0x1234), ({ p := .safeFslTrip, i := 1 }, 0x99)], buffer := run0.core.buffer.take 31 } }) with host := { ({ run0 with core := { run0.core with params := some [({ p := .safeFslChannels }, 3), ({ p := .safeFslCanRx }, 0x1234), ({ p := .safeFslTrip, i := 1 }, 0x99)], buffer := run0.core.buffer.take 31 } }).host with prpSeen := [(5, 7, 8), (6, 6, 8)] } }, by decide +kernel⟩,
   ⟨9, { prp := some (5, 6), dest := ({ ({ run0 with core := { run0.core with params := some [({ p := .safeFslChannels }, 3), ({ p := .safeFslCanRx }, 0x1234), ({ p := .safeFslTrip, i := 1 }, 0x99)], buffer := run0.core.buffer.take 31 } }) with host := { ({ run0 with core := { run0.core with params := some [({ p := .safeFslChannels }, 3), ({ p := .safeFslCanRx }, 0x1234), ({ p := .safeFslTrip, i := 1 }, 0x99)], buffer := run0.core.buffer.take 31 } }).host with prpSeen := [(5, 7, 8), (6, 6, 8)] } }).parN .hostIpAddr, port := (cpar ({ ({ run0 with core := { run0.core with params := some [({ p := .safeFslChannels }, 3), ({ p := .safeFslCanRx }, 0x1234), ({ p := .safeFslTrip, i := 1 }, 0x99)], buffer := run0.core.buffer.take 31 } }) with host := { ({ run0 with core := { run0.core with params := some [({ p := .safeFslChannels }, 3), ({ p := .safeFslCanRx }, 0x1234), ({ p := .safeFslTrip, i := 1 }, 0x99)], buffer := run0.core.buffer.take 31 } }).host with prpSeen := [(5, 7, 8), (6, 6, 8)] } }) .safeFslUdpPort).toNat }, [1, 2, 3], { ({ run0 with core := { run0.core with params := some [({ p := .safeFslChannels }, 3), ({ p := .safeFslCanRx }, 0x1234), ({ p := .safeFslTrip, i := 1 }, 0x99)], buffer := run0.core.buffer.take 31 } }) with host := { ({ run0 with core := { run0.core with params := some [({ p := .safeFslChannels }, 3), ({ p := .safeFslCanRx }, 0x1234), ({ p := .safeFslTrip, i := 1 }, 0x99)], buffer := run0.core.buffer.take 31 } }).host with prpSeen := [(5, 7, 8), (6, 6, 8)] } }, by decide +kernel⟩,
   ⟨9, { prp := some (5, 6), dest := ({ ({ run0 with core := { run0.core with params := some [({ p := .safeFslChannels }, 3), ({ p := .safeFslCanRx }, 0x1234), ({ p := .safeFslTrip, i := 1 }, 0x99)], buffer := List.replicate 32 ⟨[], false, 5⟩ } }) with host := { ({ run0 with core := { run0.core with params := some [({ p := .safeFslChannels }, 3), ({ p := .safeFslCanRx }, 0x1234), ({ p := .safeFslTrip, i := 1 }, 0x99)], buffer := List.replicate 32 ⟨[], false, 5⟩ } }).host with prpSeen := [(5, 7, 8), (6, 6, 8)] } }).parN .hostIpAddr, port := (cpar ({ ({ run0 with core := { run0.core with params := some [({ p := .safeFslChannels }, 3), ({ p := .safeFslCanRx }, 0x1234), ({ p := .safeFslTrip, i := 1 }, 0x99)], buffer := List.replicate 32 ⟨[], false, 5⟩ } }) with host := { ({ run0 with core := { run0.core with params := some [({ p := .safeFslChannels }, 3), ({ p := .safeFslCanRx }, 0x1234), ({ p := .safeFslTrip, i := 1 }, 0x99)], buffer := List.replicate 32 ⟨[], false, 5⟩ } }).host with prpSeen := [(5, 7, 8), (6, 6, 8)] } }) .safeFslUdpPort).toNat }, [1, 2, 3], { ({ run0 with core := { run0.core with params := some [({ p := .safeFslChannels }, 3), ({ p := .safeFslCanRx }, 0x1234), ({ p := .safeFslTrip, i := 1 }, 0x99)], buffer := List.replicate 32 ⟨[], false, 5⟩ } }) with host := { ({ run0 with core := { run0.core with params := some [({ p := .safeFslChannels }, 3), ({ p := .safeFslCanRx }, 0x1234), ({ p := .safeFslTrip, i := 1 }, 0x99)], buffer := List.replicate 32 ⟨[], false, 5⟩ } }).host with prpSeen := [(5, 7, 8), (6, 6, 8)] } }, by decide +kernel⟩,
   ⟨9, 1, { id := 0x1234, ext := true, data := [1, 2, 3], sof := 4, ts := 8 }, [{ id := 0x701, ext := false, data := [5], sof := 4, ts := 6 }, { id := 0x701, ext := false, data := [5], sof := 4, ts := 6 }], portIs 1 { canPort run0 1 with fifo0 := [{ id := 0x701, ext := false, data := [5], sof := 4, ts := 6 }, { id := 0x1234, ext := true, data := [1, 2, 3], sof := 4, ts := 8 }, { id := 0x701, ext := false, data := [5], sof := 4, ts := 6 }] } ({ run0 with core := { run0.core with params := some [({ p := .safeFslChannels }, 3), ({ p := .safeFslCanRx }, 0x1234), ({ p := .safeFslTrip, i := 1 }, 0x99)], buffer := [] } }), by decide +kernel⟩,
   ⟨run0.frameStart + 5000009, 5, { run0 with core := { run0.core with params := some [({ p := .safeFslChannels }, 3), ({ p := .safeFslCanRx }, 0x1234), ({ p := .safeFslTrip, i := 1 }, 0x99)], buffer := [⟨[1, 2, 3, 4], false, 5⟩], conns := List.replicate 8 { st := .running, deadline := 8 } } }, by decide +kernel⟩,
   ⟨5, ⟨[1, 2, 3, 4, 9, 9, 9, 9, 9, 9, 9, 9, 9, 9, 9, 9], false, 5⟩, { run0 with core := { run0.core with params := some [({ p := .safeFslChannels }, 3), ({ p := .safeFslCanRx }, 0x1234), ({ p := .safeFslTrip, i := 1 }, 0x99)] } }, by decide +kernel⟩,
   ⟨5, ⟨fslPdu 0x99 44 500 1 [], false, 5⟩, { run0 with core := { run0.core with params := some [({ p := .safeFslChannels }, 3), ({ p := .safeFslCanRx }, 0x1234), ({ p := .safeFslTrip, i := 1 }, 0x99)], conns := List.replicate 8 { st := .unsync } } }, by decide +kernel⟩⟩

theorem meets_FslPduRoundTrip :
    (∃ (id : Nat) (seq : Nat) (wd : Nat) (typ : Nat) (body : List Byte),
    body.length ≤ 32) :=
  ⟨78187493520, 4294967301, 70000, 300, List.replicate 32 7, by decide +kernel⟩

theorem meets_CanPorts :
    (∃ (sof : Nat) (ts : Nat) (p : Fin 2) (id : Nat) (ext : Bool) (data : List (BitVec 8)) (s : State),
    s.up = true ∧ portHears s p.val = true ∧ s.can.ports.length = 2 ∧ (idClass s ext id = 1 ∨ idClass s ext id = 2 ∨ idClass s ext id = 3) ∧ (canPort s p.val).fifo0.length < 64) ∧
    (∃ (sof : Nat) (ts : Nat) (p : Fin 2) (id : Nat) (ext : Bool) (data : List (BitVec 8)) (s : State),
    s.up = true ∧ portHears s p.val = true ∧ s.can.ports.length = 2 ∧ idClass s ext id = 4 ∧ s.parN .canCoPort = p.val ∧ (canPort s p.val).fifo1.length < 64) ∧
    (∃ (sof : Nat) (ts : Nat) (p : Fin 2) (id : Nat) (ext : Bool) (data : List (BitVec 8)) (s : State),
    s.up = true ∧ portHears s p.val = true ∧ s.can.ports.length = 2 ∧ (idClass s ext id = 1 ∨ idClass s ext id = 2 ∨ idClass s ext id = 3) ∧ 64 ≤ (canPort s p.val).fifo0.length) ∧
    (∃ (t : Nat) (s : State),
    s.up = true ∧ s.can.ports.length = 2) ∧
    (∃ (t : Nat) (p : Fin 2) (s : State),
    s.up = true ∧ s.can.ports.length = 2 ∧ ((canPort s p.val).st = 1 ∨ (canPort s p.val).st = 2)) ∧
    (∃ (t : Nat) (p : Fin 2) (s : State),
    s.up = true ∧ s.can.ports.length = 2 ∧ (canPort s p.val).st = 1) ∧
    (∃ (t : Nat) (p : Fin 2) (s : State),
    s.up = true ∧ s.can.ports.length = 2 ∧ ((canPort s p.val).st = 2 ∨ (canPort s p.val).st = 3 ∧ (canPort s p.val).recovering = true)) ∧
    (∃ (t : Nat) (p : Fin 2) (a : Nat) (s : State),
    s.up = true ∧ s.can.ports.length = 2 ∧ (canPort s p.val).st = 3 ∧ (canPort s p.val).offAt = some a ∧ a + s.parN .canBusoffWait * 1000000 ≤ t) ∧
    (∃ (t : Nat) (p : Fin 2) (s : State),
    s.up = true ∧ s.can.ports.length = 2 ∧ (canPort s p.val).st = 5) ∧
    (∃ (t : Nat) (p : Fin 2) (s : State),
    s.up = true ∧ s.can.ports.length = 2 ∧ (canPort s p.val).st = 5 ∧ (canPort s p.val).dwellAt + s.parN .canAutobaudDwell * 1000000 ≤ t) ∧
    (∃ (t : Nat) (p : Fin 2) (f : CanFrame) (rest : List CanFrame) (s : State),
    s.up = true ∧ takeFrame (fun f => idClass s f.ext f.id == 1) (canPort s p.val).fifo0 = some (f, rest) ∧ f.data.length = 12 ∧ isCopy s f.id (ofLE ((f.data.drop 8).take 1)) f.ts = false) ∧
    (∃ (t : Nat) (p : Fin 2) (f : CanFrame) (rest : List CanFrame) (s : State),
    s.up = true ∧ takeFrame (fun f => idClass s f.ext f.id == 1) (canPort s p.val).fifo0 = some (f, rest) ∧ f.data.length = 12 ∧ isCopy s f.id (ofLE ((f.data.drop 8).take 1)) f.ts = true) ∧
    (∃ (t : Nat) (p : Fin 2) (f : CanFrame) (rest : List CanFrame) (s : State),
    s.up = true ∧ takeFrame (fun f => idClass s f.ext f.id == 1) (canPort s p.val).fifo0 = some (f, rest) ∧ f.data.length ≠ 12) :=
  ⟨⟨5, 9, 1, 0x10103, true, [1, 2], { setPar .canBbBase 0 0 0x10000 (setPar .bootPosition 0 0 3 (portIs 1 { canPort run0 1 with st := 1, fifo0 := (canPort run0 1).fifo0.take 63 } run0)) with core := { run0.core with params := some [({ p := .safeFslChannels }, 3), ({ p := .safeFslCanRx }, 0x1234), ({ p := .safeFslTrip, i := 1 }, 0x99)] } }, by decide +kernel⟩,
   ⟨5, 9, 1, 0x705, false, [1, 2], setPar .canCoPort 0 0 1 { portIs 1 { canPort run0 1 with st := 1, fifo1 := [] } run0 with boot := { run0.boot with run := { run0.boot.run with stations := [{ node := 5, enabled := true }] } } }, by decide +kernel⟩,
   ⟨5, 9, 1, 0x10103, true, [1, 2], setPar .canBbBase 0 0 0x10000 (setPar .bootPosition 0 0 3 (portIs 1 { canPort run0 1 with st := 1, fifo0 := List.replicate 64 ⟨5, false, [], 4, 5⟩ } run0)), by decide +kernel⟩,
   ⟨20000000, portIs 1 { canPort run0 1 with tx := [⟨5, 2, [], 4, 0⟩, ⟨5, 0, [], 4, 0⟩, ⟨5, 3, [], 10000001, 0⟩, ⟨6, 5, [], 10000001, 0⟩] } run0, by decide +kernel⟩,
   ⟨9, 1, portIs 1 { canPort run0 1 with st := 2 } run0, by decide +kernel⟩,
   ⟨9, 1, portIs 1 { canPort run0 1 with st := 1 } run0, by decide +kernel⟩,
   ⟨9, 1, portIs 1 { canPort run0 1 with st := 2 } run0, by decide +kernel⟩,
   ⟨1000000009, 1, 9, setPar .canBusoffWait 0 0 1000 (portIs 1 { canPort run0 1 with st := 3, offAt := some 9 } run0), by decide +kernel⟩,
   ⟨9, 1, portIs 1 { canPort run0 1 with st := 5 } run0, by decide +kernel⟩,
   ⟨1000000009, 1, setPar .canAutobaudDwell 0 0 1000 (portIs 1 { canPort run0 1 with st := 5, dwellAt := 9 } run0), by decide +kernel⟩,
   ⟨9, 1, { id := 0x10103, ext := true, data := [0xF0, 0xFF, 0xFF, 0xFF, 1, 2, 3, 4, 5, 3, 0, 0], sof := 4, ts := 8 }, [{ id := 0x701, ext := false, data := [5], sof := 4, ts := 6 }, { id := 0x701, ext := false, data := [5], sof := 4, ts := 6 }], setPar .dispPMax 0 0 0x42C80000 (setPar .canBbBase 0 0 0x10000 (setPar .bootPosition 0 0 3 (portIs 1 { canPort run0 1 with fifo0 := [{ id := 0x701, ext := false, data := [5], sof := 4, ts := 6 }, { id := 0x10103, ext := true, data := [0xF0, 0xFF, 0xFF, 0xFF, 1, 2, 3, 4, 5, 3, 0, 0], sof := 4, ts := 8 }, { id := 0x701, ext := false, data := [5], sof := 4, ts := 6 }] } ({ run0 with can := { run0.can with recent := [] } })))), by decide +kernel⟩,
   ⟨9, 1, { id := 0x10103, ext := true, data := [0xF0, 0xFF, 0xFF, 0xFF, 1, 2, 3, 4, 5, 3, 0, 0], sof := 4, ts := 8 }, [{ id := 0x701, ext := false, data := [5], sof := 4, ts := 6 }, { id := 0x701, ext := false, data := [5], sof := 4, ts := 6 }], setPar .canBbBase 0 0 0x10000 (setPar .bootPosition 0 0 3 (portIs 1 { canPort run0 1 with fifo0 := [{ id := 0x701, ext := false, data := [5], sof := 4, ts := 6 }, { id := 0x10103, ext := true, data := [0xF0, 0xFF, 0xFF, 0xFF, 1, 2, 3, 4, 5, 3, 0, 0], sof := 4, ts := 8 }, { id := 0x701, ext := false, data := [5], sof := 4, ts := 6 }] } ({ run0 with can := { run0.can with recent := [(0x10103, 5, 0)] } }))), by decide +kernel⟩,
   ⟨9, 1, { id := 0x10103, ext := true, data := [1, 2], sof := 4, ts := 8 }, [{ id := 0x701, ext := false, data := [5], sof := 4, ts := 6 }, { id := 0x701, ext := false, data := [5], sof := 4, ts := 6 }], setPar .canBbBase 0 0 0x10000 (setPar .bootPosition 0 0 3 (portIs 1 { canPort run0 1 with fifo0 := [{ id := 0x701, ext := false, data := [5], sof := 4, ts := 6 }, { id := 0x10103, ext := true, data := [1, 2], sof := 4, ts := 8 }, { id := 0x701, ext := false, data := [5], sof := 4, ts := 6 }] } (run0))), by decide +kernel⟩⟩

theorem meets_BusTime :
    (∃ (t : Nat) (s : State),
    s.up = true ∧ (s.time.compare.getD 12 {}).armed = true ∧ s.can.role = 2 ∧ s.can.ports.length = 2 ∧ (∀ p, p < 2 → (canPort s p).tx.length < 32)) ∧
    (∃ (t : Nat) (p : Fin 2) (e : TxStamp) (s : State),
    s.up = true ∧ s.can.role = 2 ∧ s.can.ports.length = 2 ∧ (canPort s p.val).tx.length < 32 ∧ (s.time.txStamps.find? fun e => e.port == p.val + 2 && decide (0x8000 ≤ e.id)) = some e) ∧
    (∃ (t : Nat) (p : Fin 2) (f : CanFrame) (rest : List CanFrame) (s : State),
    s.up = true ∧ s.can.role ≠ 0 ∧ takeFrame (fun f => idClass s f.ext f.id == 2) (canPort s p.val).fifo0 = some (f, rest) ∧ isTimeRef (f.id / 256 % 256) = true ∧ f.data.length = 8) ∧
    (∃ (t : Nat) (p : Fin 2) (f : CanFrame) (rest : List CanFrame) (s : State),
    s.up = true ∧ s.can.role = 0 ∧ takeFrame (fun f => idClass s f.ext f.id == 2) (canPort s p.val).fifo0 = some (f, rest) ∧ f.data.length = (if isTimeRef (f.id / 256 % 256) then 8 else 16)) ∧
    (∃ (t : Nat) (p : Fin 2) (f : CanFrame) (rest : List CanFrame) (sof : Nat) (at_ : Nat) (s : State),
    s.up = true ∧ (s.can.role = 1 ∨ s.can.role = 3) ∧ takeFrame (fun f => idClass s f.ext f.id == 2) (canPort s p.val).fifo0 = some (f, rest) ∧ isTimeRef (f.id / 256 % 256) = false ∧ f.data.length = 16 ∧ s.can.unpaired = [(p.val, f.id / 256 % 8 * 16 + f.id % 16, ofLE (f.data.take 1), sof, at_)] ∧ f.ts ≤ at_ + 20000000 ∧ (∀ u, s.can.pairUsed = some u → u.1 = f.id / 256 % 8 * 16 + f.id % 16 → u.2.1 = ofLE (f.data.take 1) → u.2.2 + 20000000 < f.ts)) ∧
    (∃ (t : Nat) (s : State),
    s.up = true ∧ s.can.heldB = none) ∧
    (∃ (t : Nat) (mid : Nat) (cnt : Nat) (sof : Nat) (time : Nat) (synced : Bool) (u : Nat × Nat × Nat × Nat × Nat) (s : State),
    s.up = true ∧ s.can.heldB = some (mid, cnt, sof, time, synced) ∧ u ∈ s.can.unpaired ∧ u.1 = 0 ∧ u.2.1 = mid ∧ u.2.2.1 = cnt ∧ u.2.2.2.2 + 20000000 < t ∧ s.can.role ≠ 2 ∧ (∀ w, s.can.pairUsed = some w → w.1 = mid → w.2.1 = cnt → w.2.2 + 20000000 < t)) ∧
    (∃ (t : Nat) (s : State),
    s.up = true ∧ s.can.role = 3 ∧ s.can.refHeard + (s.parN .canTimeTakeover * s.parN .canTimePeriod + prio s) * frameNs ≤ t) :=
  ⟨⟨9, { run0 with time := { run0.time with compare := List.replicate 24 { armed := true } }, can := { run0.can with role := 2, ports := [{ canPort run0 0 with tx := [] }, { canPort run0 1 with tx := [], st := 1 }] } }, by decide +kernel⟩,
   ⟨9, 1, ⟨0x8005, 3, 4, 70000000⟩, { run0 with time := { run0.time with txStamps := [⟨5, 3, 4, 9⟩, ⟨0x8005, 3, 4, 70000000⟩] }, can := { run0.can with role := 2, ports := [{ canPort run0 0 with tx := [] }, { canPort run0 1 with tx := [], st := 1 }] } }, by decide +kernel⟩,
   ⟨9, 1, { id := 0x12004, ext := true, data := [1, 0, 1, 0, 5, 0, 0, 0], sof := 4, ts := 8 }, [{ id := 0x701, ext := false, data := [5], sof := 4, ts := 6 }, { id := 0x701, ext := false, data := [5], sof := 4, ts := 6 }], setPar .canTimeRole 0 0 3 (setPar .canTimePriority 0 0 3 (setPar .canBbBase 0 0 0x10000 (setPar .bootPosition 0 0 3 (portIs 1 { canPort run0 1 with fifo0 := [{ id := 0x701, ext := false, data := [5], sof := 4, ts := 6 }, { id := 0x12004, ext := true, data := [1, 0, 1, 0, 5, 0, 0, 0], sof := 4, ts := 8 }, { id := 0x701, ext := false, data := [5], sof := 4, ts := 6 }] } ({ run0 with can := { run0.can with role := 2 } }))))), by decide +kernel⟩,
   ⟨9, 1, { id := 0x12004, ext := true, data := [1, 0, 1, 0, 5, 0, 0, 0], sof := 4, ts := 8 }, [{ id := 0x701, ext := false, data := [5], sof := 4, ts := 6 }, { id := 0x701, ext := false, data := [5], sof := 4, ts := 6 }], setPar .canBbBase 0 0 0x10000 (setPar .bootPosition 0 0 3 (portIs 1 { canPort run0 1 with fifo0 := [{ id := 0x701, ext := false, data := [5], sof := 4, ts := 6 }, { id := 0x12004, ext := true, data := [1, 0, 1, 0, 5, 0, 0, 0], sof := 4, ts := 8 }, { id := 0x701, ext := false, data := [5], sof := 4, ts := 6 }] } ({ run0 with can := { run0.can with role := 0 } }))), by decide +kernel⟩,
   ⟨9, 1, { id := 0x12804, ext := true, data := [1, 1, 1, 0, 5, 0, 0, 0, 7, 0, 0, 0, 0, 0, 0, 0], sof := 4, ts := 8 }, [{ id := 0x701, ext := false, data := [5], sof := 4, ts := 6 }, { id := 0x701, ext := false, data := [5], sof := 4, ts := 6 }], 70, 5, setPar .timeSource 0 0 2 (setPar .canBbBase 0 0 0x10000 (setPar .bootPosition 0 0 3 (portIs 1 { canPort run0 1 with fifo0 := [{ id := 0x701, ext := false, data := [5], sof := 4, ts := 6 }, { id := 0x12804, ext := true, data := [1, 1, 1, 0, 5, 0, 0, 0, 7, 0, 0, 0, 0, 0, 0, 0], sof := 4, ts := 8 }, { id := 0x701, ext := false, data := [5], sof := 4, ts := 6 }] } ({ run0 with time := { run0.time with framesOn := true }, can := { run0.can with role := 1, pairUsed := none, unpaired := [(1, 4, 1, 70, 5)] } })))), by decide +kernel⟩,
   ⟨20000000, { run0 with can := { run0.can with heldB := none, unpaired := [(1, 4, 1, 70, 5), (0, 4, 1, 70, 999)] } }, by decide +kernel⟩,
   ⟨20000006, 4, 1, 90, 80, true, (0, 4, 1, 70, 5), { run0 with can := { run0.can with role := 3, pairUsed := none, heldB := some (4, 1, 90, 80, true), unpaired := [(1, 4, 1, 70, 5), (0, 4, 1, 70, 5)] } }, by decide +kernel⟩,
   ⟨99999999999, setPar .canTimeTakeover 0 0 3 (setPar .canTimePeriod 0 0 100 (setPar .canTimePriority 0 0 2 { run0 with can := { run0.can with role := 3, refHeard := 9 } })), by decide +kernel⟩⟩

theorem meets_CanopenStations :
    (∃ (t : Nat) (s : State),
    s.up = true ∧ s.time.framesOn = true ∧ s.parN .canCoPort < 2 ∧ s.time.frame % s.parN .canCoPeriod = 0 ∧ t = s.time.frame * frameNs + s.parN .canCoSyncOffset * 1000 ∧ s.can.syncFrame ≠ some s.time.frame ∧ s.can.ports.length = 2 ∧ (canPort s (s.parN .canCoPort)).tx.length < 32) ∧
    (∃ (s : State) (g : Nat) (k : Nat),
    k < s.can.stations.length) ∧
    (∃ (t : Nat) (f : CanFrame) (rest : List CanFrame) (k : Nat) (s : State),
    s.up = true ∧ s.parN .canCoPort < 2 ∧ s.can.ports.length = 2 ∧ s.can.stations.length = 16 ∧ takeFrame (fun f => [14].contains (f.id / 0x80)) (canPort s (s.parN .canCoPort)).fifo1 = some (f, rest) ∧ stationOf s (f.id % 0x80) = some k) ∧
    (∃ (t : Nat) (f : CanFrame) (rest : List CanFrame) (s : State),
    s.up = true ∧ takeFrame (fun f => [14].contains (f.id / 0x80)) (canPort s (s.parN .canCoPort)).fifo1 = some (f, rest) ∧ stationOf s (f.id % 0x80) = none ∧ f.id % 0x80 ∉ s.can.unknown) ∧
    (∃ (t : Nat) (f : CanFrame) (rest : List CanFrame) (k : Nat) (v : Option Nat) (s : State),
    s.up = true ∧ s.parN .canCoPort < 2 ∧ s.can.ports.length = 2 ∧ s.can.stations.length = 16 ∧ takeFrame (fun f => [11].contains (f.id / 0x80)) (canPort s (s.parN .canCoPort)).fifo1 = some (f, rest) ∧ stationOf s (f.id % 0x80) = some k ∧ sdoAnswer f.data = some v ∧ (station s k).st = 2) ∧
    (∃ (t : Nat) (f : CanFrame) (rest : List CanFrame) (k : Nat) (g : Nat) (s : State),
    s.up = true ∧ s.parN .canCoPort < 2 ∧ s.can.ports.length = 2 ∧ s.can.stations.length = 16 ∧ takeFrame (fun f => [3, 5, 7, 9].contains (f.id / 0x80)) (canPort s (s.parN .canCoPort)).fifo1 = some (f, rest) ∧ stationOf s (f.id % 0x80) = some k ∧ f.data.length = 8 ∧ s.can.syncFrame = some g) ∧
    (∃ (t : Nat) (f : CanFrame) (rest : List CanFrame) (k : Nat) (s : State),
    s.up = true ∧ takeFrame (fun f => [1].contains (f.id / 0x80)) (canPort s (s.parN .canCoPort)).fifo1 = some (f, rest) ∧ stationOf s (f.id % 0x80) = some k) ∧
    (∃ (t : Nat) (k : Fin 16) (s : State),
    s.up = true ∧ s.can.stations.length = 16 ∧ (station s k.val).st = 3 ∧ ((station s k.val).hbAt + (stationCfg s k.val).hbMs * 1000000 < t ∨ s.parN .canCoMiss ≤ (station s k.val).missed)) :=
  ⟨⟨9 * frameNs + (setPar .canCoPeriod 0 0 1 (setPar .canCoPort 0 0 1 { portIs 1 { canPort run0 1 with tx := [] } run0 with can := { (portIs 1 { canPort run0 1 with tx := [] } run0).can with syncFrame := some 3 }, time := { run0.time with framesOn := true, frame := 9 }, boot := { run0.boot with run := { run0.boot.run with params := [], stations := [{}, { node := 5, enabled := true, tpdo := 2, rpdo := 1, hbMs := 100 }] } } })).parN .canCoSyncOffset * 1000, setPar .canCoPeriod 0 0 1 (setPar .canCoPort 0 0 1 { portIs 1 { canPort run0 1 with tx := [] } run0 with can := { (portIs 1 { canPort run0 1 with tx := [] } run0).can with syncFrame := some 3 }, time := { run0.time with framesOn := true, frame := 9 }, boot := { run0.boot with run := { run0.boot.run with params := [], stations := [{}, { node := 5, enabled := true, tpdo := 2, rpdo := 1, hbMs := 100 }] } } }), by decide +kernel⟩,
   ⟨{ run0 with boot := { run0.boot with run := { params := [({ p := .canCoPort }, 1)], stations := [{}, { node := 5, enabled := true, tpdo := 2, rpdo := 1, devType := 0, hbMs := 100 }] } }, can := { run0.can with stations := [{}, { got := [(0, [1]), (1, [2])] }] } }, 7, 1, by decide +kernel⟩,
   ⟨9, { id := 0x705, ext := false, data := [5], sof := 4, ts := 8 }, [{ id := 0x555, ext := false, data := [5], sof := 4, ts := 6 }, { id := 0x555, ext := false, data := [5], sof := 4, ts := 6 }], 1, portIs 1 { canPort run0 1 with fifo1 := [{ id := 0x555, ext := false, data := [5], sof := 4, ts := 6 }, { id := 0x705, ext := false, data := [5], sof := 4, ts := 8 }, { id := 0x555, ext := false, data := [5], sof := 4, ts := 6 }] } { run0 with boot := { run0.boot with run := { params := [({ p := .canCoPort }, 1)], stations := [{}, { node := 5, enabled := true, tpdo := 2, rpdo := 1, devType := 0, hbMs := 100 }] } }, can := { run0.can with syncFrame := some 7, stations := [station run0 0, { station run0 1 with st := 1, got := [], missed := 4 }] ++ (List.range 14).map (fun k => station run0 (k + 2)) } }, by decide +kernel⟩,
   ⟨9, { id := 0x706, ext := false, data := [5], sof := 4, ts := 8 }, [{ id := 0x555, ext := false, data := [5], sof := 4, ts := 6 }, { id := 0x555, ext := false, data := [5], sof := 4, ts := 6 }], { portIs 1 { canPort run0 1 with fifo1 := [{ id := 0x555, ext := false, data := [5], sof := 4, ts := 6 }, { id := 0x706, ext := false, data := [5], sof := 4, ts := 8 }, { id := 0x555, ext := false, data := [5], sof := 4, ts := 6 }] } { run0 with boot := { run0.boot with run := { params := [({ p := .canCoPort }, 1)], stations := [{}, { node := 5, enabled := true, tpdo := 2, rpdo := 1, devType := 0, hbMs := 100 }] } }, can := { run0.can with syncFrame := some 7, stations := [station run0 0, { station run0 1 with st := 1, got := [], missed := 4 }] ++ (List.range 14).map (fun k => station run0 (k + 2)) } } with can := { (portIs 1 { canPort run0 1 with fifo1 := [{ id := 0x555, ext := false, data := [5], sof := 4, ts := 6 }, { id := 0x706, ext := false, data := [5], sof := 4, ts := 8 }, { id := 0x555, ext := false, data := [5], sof := 4, ts := 6 }] } { run0 with boot := { run0.boot with run := { params := [({ p := .canCoPort }, 1)], stations := [{}, { node := 5, enabled := true, tpdo := 2, rpdo := 1, devType := 0, hbMs := 100 }] } }, can := { run0.can with syncFrame := some 7, stations := [station run0 0, { station run0 1 with st := 1, got := [], missed := 4 }] ++ (List.range 14).map (fun k => station run0 (k + 2)) } }).can with unknown := [] } }, by decide +kernel⟩,
   ⟨9, { id := 0x585, ext := false, data := [0x43, 0x00, 0x10, 0x00, 0x91, 0x01, 0x0F, 0x00], sof := 4, ts := 8 }, [{ id := 0x555, ext := false, data := [5], sof := 4, ts := 6 }, { id := 0x555, ext := false, data := [5], sof := 4, ts := 6 }], 1, some 0xF0191, portIs 1 { canPort run0 1 with fifo1 := [{ id := 0x555, ext := false, data := [5], sof := 4, ts := 6 }, { id := 0x585, ext := false, data := [0x43, 0x00, 0x10, 0x00, 0x91, 0x01, 0x0F, 0x00], sof := 4, ts := 8 }, { id := 0x555, ext := false, data := [5], sof := 4, ts := 6 }] } { run0 with boot := { run0.boot with run := { params := [({ p := .canCoPort }, 1)], stations := [{}, { node := 5, enabled := true, tpdo := 2, rpdo := 1, devType := 0, hbMs := 100 }] } }, can := { run0.can with syncFrame := some 7, stations := [station run0 0, { station run0 1 with st := 2, got := [], missed := 4 }] ++ (List.range 14).map (fun k => station run0 (k + 2)) } }, by decide +kernel⟩,
   ⟨9, { id := 0x285, ext := false, data := [1, 2, 3, 4, 5, 6, 7, 8], sof := 4, ts := 79000000 }, [{ id := 0x555, ext := false, data := [5], sof := 4, ts := 6 }, { id := 0x555, ext := false, data := [5], sof := 4, ts := 6 }], 1, 7, portIs 1 { canPort run0 1 with fifo1 := [{ id := 0x555, ext := false, data := [5], sof := 4, ts := 6 }, { id := 0x285, ext := false, data := [1, 2, 3, 4, 5, 6, 7, 8], sof := 4, ts := 79000000 }, { id := 0x555, ext := false, data := [5], sof := 4, ts := 6 }] } { run0 with boot := { run0.boot with run := { params := [({ p := .canCoPort }, 1)], stations := [{}, { node := 5, enabled := true, tpdo := 2, rpdo := 1, devType := 0, hbMs := 100 }] } }, can := { run0.can with syncFrame := some 7, stations := [station run0 0, { station run0 1 with st := 3, got := [], missed := 4 }] ++ (List.range 14).map (fun k => station run0 (k + 2)) } }, by decide +kernel⟩,
   ⟨9, { id := 0x085, ext := false, data := [1, 2, 3, 4, 5, 6, 7, 8], sof := 4, ts := 8 }, [{ id := 0x555, ext := false, data := [5], sof := 4, ts := 6 }, { id := 0x555, ext := false, data := [5], sof := 4, ts := 6 }], 1, portIs 1 { canPort run0 1 with fifo1 := [{ id := 0x555, ext := false, data := [5], sof := 4, ts := 6 }, { id := 0x085, ext := false, data := [1, 2, 3, 4, 5, 6, 7, 8], sof := 4, ts := 8 }, { id := 0x555, ext := false, data := [5], sof := 4, ts := 6 }] } { run0 with boot := { run0.boot with run := { params := [({ p := .canCoPort }, 1)], stations := [{}, { node := 5, enabled := true, tpdo := 2, rpdo := 1, devType := 0, hbMs := 100 }] } }, can := { run0.can with syncFrame := some 7, stations := [station run0 0, { station run0 1 with st := 3, got := [], missed := 4 }] ++ (List.range 14).map (fun k => station run0 (k + 2)) } }, by decide +kernel⟩,
   ⟨900000000, 1, { portIs 1 { canPort run0 1 with fifo1 := [{ id := 0x555, ext := false, data := [5], sof := 4, ts := 6 }, { id := 0x085, ext := false, data := [1, 2, 3, 4, 5, 6, 7, 8], sof := 4, ts := 8 }, { id := 0x555, ext := false, data := [5], sof := 4, ts := 6 }] } { run0 with boot := { run0.boot with run := { params := [({ p := .canCoPort }, 1)], stations := [{}, { node := 5, enabled := true, tpdo := 2, rpdo := 1, devType := 0, hbMs := 100 }] } }, can := { run0.can with syncFrame := some 7, stations := [station run0 0, { station run0 1 with st := 3, got := [], missed := 4, hbAt := 4 }] ++ (List.range 14).map (fun k => station run0 (k + 2)) } } with prog := { run0.prog with latched := none } }, by decide +kernel⟩⟩

theorem meets_HostSessions :
    (∃ (t : Nat) (addr : Nat) (port : Nat) (seq : Nat) (pay : List Byte) (ro : Role) (k : Nat) (s : State),
    netUp s = true ∧ s.host.slots.length = 8 ∧ pay.length = 20 ∧ roleOfCode (rd 1 0 pay) = some ro ∧ keySet s ro = true ∧ opensIn s ro = true ∧ ((s.host.opens.filter fun e => lastSecond t e.2).filter (·.1 == addr)).length < 4 ∧ ((List.range 8).find? fun k => (sessionAt s k).isNone) = some k) ∧
    (∃ (t : Nat) (addr : Nat) (port : Nat) (seq : Nat) (pay : List Byte) (ro : Role) (s : State),
    netUp s = true ∧ pay.length = 20 ∧ roleOfCode (rd 1 0 pay) = some ro ∧ keySet s ro = true ∧ opensIn s ro = true ∧ ((s.host.opens.filter fun e => lastSecond t e.2).filter (·.1 == addr)).length < 4 ∧ (∀ k, k < 8 → (sessionAt s k).isSome = true)) ∧
    (∃ (t : Nat) (addr : Nat) (port : Nat) (seq : Nat) (pay : List Byte) (tag : List Byte) (s : State),
    netUp s = true ∧ (∀ ro, roleOfCode (rd 1 0 pay) = some ro → keySet s ro = true → tag ≠ fhpTag (roleKey s ro) (fhpHeader 0 0 seq 0x0101 pay.length ++ pay))) ∧
    (∃ (t : Nat) (id : Nat) (seq : Nat) (k : Nat) (x : Session) (s : State),
    admitted t id seq 0x0102 [] k x s) ∧
    (∃ (t : Nat) (id : Nat) (seq : Nat) (k : Nat) (x : Session) (s : State),
    netUp s = true ∧ slotOf s id = some k ∧ sessionAt s k = some x ∧ 1 ≤ (seq + 2 ^ 32 - x.sLast) % 2 ^ 32 ∧ (seq + 2 ^ 32 - x.sLast) % 2 ^ 32 ≤ 1024) ∧
    (∃ (t : Nat) (k : Fin 8) (x : Session) (s : State),
    netUp s = true ∧ sessionAt s k.val = some x ∧ (x.lastReq + s.parN .hostSessionIdle * 1000000000 ≤ t ∨ x.confirmed = false ∧ x.lastReq + x.confirmT * 1000000000 ≤ t)) ∧
    (∃ (t : Nat) (addr : Nat) (port : Nat) (bytes : List Byte) (env : FhpEnv) (k : Nat) (s : State),
    netUp s = true ∧ laterCopy t env.net s = false ∧ udpTaken s (s.parN .hostUdpPort) env.net = true ∧ rd 2 0 bytes = 0x4648 ∧ rd 1 2 bytes = 1 ∧ bit (rd 1 3 bytes) 0 = false ∧ bytes.length = rd 2 0x0E bytes + 32 ∧ rd 2 0x0E bytes ≤ 1400 ∧ (rd 4 4 bytes ≠ 0 ∨ rd 2 0x0C bytes ≠ 0x0101) ∧ boundSlot s (rd 4 4 bytes) addr port = some k ∧ tagFits s k bytes (rd 2 0x0E bytes) = true) ∧
    (∃ (t : Nat) (addr : Nat) (port : Nat) (bytes : List Byte) (env : FhpEnv) (s : State),
    netUp s = true ∧ laterCopy t env.net s = false ∧ udpTaken s (s.parN .hostUdpPort) env.net = true ∧ (bytes.length < 32 ∨ rd 2 0 bytes ≠ 0x4648 ∨ rd 1 2 bytes ≠ 1 ∨ bit (rd 1 3 bytes) 0 = true ∨ bytes.length = rd 2 0x0E bytes + 32 ∧ rd 2 0x0E bytes ≤ 1400 ∧ (rd 4 4 bytes ≠ 0 ∨ rd 2 0x0C bytes ≠ 0x0101) ∧ boundSlot s (rd 4 4 bytes) addr port = none)) ∧
    (∃ (t : Nat) (addr : Nat) (port : Nat) (bytes : List Byte) (env : FhpEnv) (s : State),
    netUp s = true ∧ laterCopy t env.net s = false ∧ udpTaken s (s.parN .hostUdpPort) env.net = true ∧ 32 ≤ bytes.length ∧ rd 2 0 bytes = 0x4648 ∧ rd 1 2 bytes = 1 ∧ bit (rd 1 3 bytes) 0 = false ∧ (bytes.length ≠ rd 2 0x0E bytes + 32 ∨ 1400 < rd 2 0x0E bytes) ∧ ((s.host.errReplies.filter fun e => lastSecond t e.2).filter (·.1 == addr)).length < s.parN .hostRateErr) ∧
    (∃ (t : Nat) (addr : Nat) (port : Nat) (bytes : List Byte) (env : FhpEnv) (s : State),
    netUp s = true ∧ laterCopy t env.net s = false ∧ udpTaken s (s.parN .hostUdpPort) env.net = false) ∧
    (∃ (t : Nat) (addr : Nat) (port : Nat) (bytes : List Byte) (env : FhpEnv) (s : State),
    laterCopy t env.net s = true) ∧
    (∃ (t : Nat) (addr : Nat) (port : Nat) (bytes : List Byte) (env : FhpEnv) (k : Nat) (s : State),
    netUp s = true ∧ laterCopy t env.net s = false ∧ udpTaken s (s.parN .hostUdpPort) env.net = true ∧ rd 2 0 bytes = 0x4648 ∧ rd 1 2 bytes = 1 ∧ bit (rd 1 3 bytes) 0 = false ∧ bytes.length = rd 2 0x0E bytes + 32 ∧ rd 2 0x0E bytes ≤ 1400 ∧ (rd 4 4 bytes ≠ 0 ∨ rd 2 0x0C bytes ≠ 0x0101) ∧ boundSlot s (rd 4 4 bytes) addr port = some k ∧ tagFits s k bytes (rd 2 0x0E bytes) = false) ∧
    (∃ (k : Nat) (t : Nat) (seq : Nat) (opcode : Nat) (pay : List Byte) (env : FhpEnv) (x : Session) (q : FhpReply) (s : State),
    sessionAt s k = some x ∧ ((seq + 2 ^ 32 - x.sLast) % 2 ^ 32 = 0 ∨ 1024 < (seq + 2 ^ 32 - x.sLast) % 2 ^ 32) ∧ (x.replies.find? fun r => r.seq == seq) = some q ∧ q.running = false) ∧
    (∃ (k : Nat) (t : Nat) (seq : Nat) (opcode : Nat) (pay : List Byte) (env : FhpEnv) (x : Session) (s : State),
    sessionAt s k = some x ∧ 1 ≤ (seq + 2 ^ 32 - x.sLast) % 2 ^ 32 ∧ (seq + 2 ^ 32 - x.sLast) % 2 ^ 32 ≤ 1024 ∧ s.boot.phase ≠ .halted ∧ opcode ≠ 0x0103 ∧ bucket s x t < 1) ∧
    (∃ (t : Nat) (from_ : NetFrom) (data : List Byte) (s : State),
    netUp s = true ∧ laterCopy t from_.net s = false ∧ from_.net.options = false ∧ from_.net.fragment = false ∧ from_.net.dest = s.parN .hostIpAddr ∧ data.length ≤ 64 ∧ (s.host.echoes.filter (lastSecond t)).length < 10) ∧
    (∃ (t : Nat) (from_ : NetFrom) (data : List Byte) (s : State),
    netUp s = true ∧ laterCopy t from_.net s = false ∧ (from_.net.options = true ∨ from_.net.fragment = true ∨ from_.net.dest ≠ s.parN .hostIpAddr ∨ 64 < data.length ∨ 10 ≤ (s.host.echoes.filter (lastSecond t)).length)) ∧
    (∃ (t : Nat) (from_ : NetFrom) (data : List Byte) (target : Nat) (s : State),
    laterCopy t from_.net s = true) ∧
    (∃ (t : Nat) (h : NetHead) (mac : Nat) (seq : Nat) (s : State),
    h.prp = some (mac, seq)) ∧
    (∃ (t : Nat) (from_ : NetFrom) (s : State),
    netUp s = true ∧ laterCopy t from_.net s = false ∧ s.host.slots.length = 8 ∧ s.host.arp.Nodup) ∧
    (∃ (t : Nat) (from_ : NetFrom) (target : Nat) (s : State),
    netUp s = true ∧ laterCopy t from_.net s = false ∧ target ≠ s.parN .hostIpAddr) ∧
    (∃ (a : Nat) (s : State),
    a ∉ s.host.arp) ∧
    (∃ (o : Output) (s : State),
    o ∈ s.out ∧ onBothLans o = true) ∧
    (∃ (t : Nat) (heard : BitVec 2) (s : State),
    netUp s = true) :=
  ⟨⟨9, 44, 55, 66, [0, 0, 0, 0] ++ List.replicate 16 7, .observer, 1, { { (online sess run0) with host := { (online sess run0).host with opens := [(44, 5), (44, 5), (44, 5), (3, 4)] } } with boot := { (online sess run0).boot with life := .blank, com := { params := [({ p := .hostKey, i := 3 }, 5)] }, run := { (run0.boot.run) with params := [({ p := .hostKey, i := 0 }, 5), ({ p := .hostKey, i := 2 }, 5), ({ p := .hostKey, i := 1 }, 5)] } } }, by decide +kernel⟩,
   ⟨9, 44, 55, 66, [0, 0, 0, 0] ++ List.replicate 16 7, .observer, { { (online sess run0) with host := { (online sess run0).host with slots := List.replicate 8 (some { sess with id := 9 }), opens := [] } } with boot := { (online sess run0).boot with life := .blank, com := { params := [({ p := .hostKey, i := 3 }, 5)] }, run := { (run0.boot.run) with params := [({ p := .hostKey, i := 0 }, 5), ({ p := .hostKey, i := 2 }, 5), ({ p := .hostKey, i := 1 }, 5)] } } }, by decide +kernel⟩,
   ⟨9, 44, 55, 66, [0, 0, 0, 0] ++ List.replicate 16 7, [1, 2], online sess run0, by decide +kernel, by intro ro; cases ro <;> decide +kernel⟩,
   ⟨9, 77, 42, 3, sess, { (online sess run0) with host := { (online sess run0).host with lock := some 77 } }, by unfold admitted; decide +kernel⟩,
   ⟨9, 77, 42, 3, sess, online sess run0, by decide +kernel⟩,
   ⟨600000000003, 3, sess, setPar .hostSessionIdle 0 0 600 (setPar .hostOpenConfirm 0 0 10 (online sess run0)), by decide +kernel⟩,
   ⟨9, 4, 9, fhpMessage sess.key 0 77 (43) 0x0203 [1, 2, 3, 4], { net := { prp := some (5, 6), dest := ({ (online sess run0) with host := { (online sess run0).host with prpSeen := [(5, 7, 8), (6, 6, 8)] } }).parN .hostIpAddr, port := ({ (online sess run0) with host := { (online sess run0).host with prpSeen := [(5, 7, 8), (6, 6, 8)] } }).parN .hostUdpPort } }, 3, { (online sess run0) with host := { (online sess run0).host with prpSeen := [(5, 7, 8), (6, 6, 8)] } }, by decide +kernel⟩,
   ⟨9, 4, 9, toLE 2 0x4648 ++ toLE 1 1, { net := { prp := some (5, 6), dest := ({ (online sess run0) with host := { (online sess run0).host with prpSeen := [(5, 7, 8), (6, 6, 8)] } }).parN .hostIpAddr, port := ({ (online sess run0) with host := { (online sess run0).host with prpSeen := [(5, 7, 8), (6, 6, 8)] } }).parN .hostUdpPort } }, { (online sess run0) with host := { (online sess run0).host with prpSeen := [(5, 7, 8), (6, 6, 8)] } }, by decide +kernel⟩,
   ⟨9, 4, 9, toLE 2 0x4648 ++ toLE 1 1 ++ toLE 1 0 ++ toLE 4 77 ++ toLE 4 3 ++ toLE 2 0x0203 ++ toLE 2 9 ++ List.replicate 40 0, { net := { prp := some (5, 6), dest := ({ (online sess run0) with host := { (online sess run0).host with prpSeen := [(5, 7, 8), (6, 6, 8)] } }).parN .hostIpAddr, port := ({ (online sess run0) with host := { (online sess run0).host with prpSeen := [(5, 7, 8), (6, 6, 8)] } }).parN .hostUdpPort } }, { ({ (online sess run0) with host := { (online sess run0).host with prpSeen := [(5, 7, 8), (6, 6, 8)] } }) with host := { ({ (online sess run0) with host := { (online sess run0).host with prpSeen := [(5, 7, 8), (6, 6, 8)] } }).host with errReplies := [] } }, by decide +kernel⟩,
   ⟨9, 4, 9, fhpMessage sess.key 0 77 (43) 0x0203 [1, 2, 3, 4], { net := { prp := some (5, 6), dest := ({ (online sess run0) with host := { (online sess run0).host with prpSeen := [(5, 7, 8), (6, 6, 8)] } }).parN .hostIpAddr, port := ({ (online sess run0) with host := { (online sess run0).host with prpSeen := [(5, 7, 8), (6, 6, 8)] } }).parN .hostUdpPort, options := true } }, { (online sess run0) with host := { (online sess run0).host with prpSeen := [(5, 7, 8), (6, 6, 8)] } }, by decide +kernel⟩,
   ⟨9, 4, 9, [1, 2], { net := { prp := some (5, 7) } }, { (online sess run0) with host := { (online sess run0).host with prpSeen := [(5, 7, 8), (6, 6, 8)] } }, by decide +kernel⟩,
   ⟨9, 4, 9, fhpMessage [9] 0 77 (43) 0x0203 [1, 2, 3, 4], { net := { prp := some (5, 6), dest := ({ (online sess run0) with host := { (online sess run0).host with prpSeen := [(5, 7, 8), (6, 6, 8)] } }).parN .hostIpAddr, port := ({ (online sess run0) with host := { (online sess run0).host with prpSeen := [(5, 7, 8), (6, 6, 8)] } }).parN .hostUdpPort } }, 3, { (online sess run0) with host := { (online sess run0).host with prpSeen := [(5, 7, 8), (6, 6, 8)] } }, by decide +kernel⟩,
   ⟨3, 9, 40, 0x0203, [], {}, { sess with replies := [{ seq := 40, opcode := 0x0203, parts := [[1, 2], [3]], running := false }] }, { seq := 40, opcode := 0x0203, parts := [[1, 2], [3]], running := false }, online { sess with replies := [{ seq := 40, opcode := 0x0203, parts := [[1, 2], [3]], running := false }] } run0, by decide +kernel⟩,
   ⟨3, 3, 43, 0x0203, [], {}, { sess with tokens := 1/2 }, online { sess with tokens := 1/2 } run0, by decide +kernel⟩,
   ⟨2000000005, { addr := 44, net := { prp := some (5, 6), dest := ({ ({ (online sess run0) with host := { (online sess run0).host with echoes := List.replicate 9 2000000000 ++ [5] } }) with host := { ({ (online sess run0) with host := { (online sess run0).host with echoes := List.replicate 9 2000000000 ++ [5] } }).host with prpSeen := [(5, 7, 8), (6, 6, 8)] } }).parN .hostIpAddr, port := ({ ({ (online sess run0) with host := { (online sess run0).host with echoes := List.replicate 9 2000000000 ++ [5] } }) with host := { ({ (online sess run0) with host := { (online sess run0).host with echoes := List.replicate 9 2000000000 ++ [5] } }).host with prpSeen := [(5, 7, 8), (6, 6, 8)] } }).parN .hostUdpPort } }, List.replicate 64 5, { ({ (online sess run0) with host := { (online sess run0).host with echoes := List.replicate 9 2000000000 ++ [5] } }) with host := { ({ (online sess run0) with host := { (online sess run0).host with echoes := List.replicate 9 2000000000 ++ [5] } }).host with prpSeen := [(5, 7, 8), (6, 6, 8)] } }, by decide +kernel⟩,
   ⟨2000000005, { addr := 44, net := { prp := some (5, 6), dest := ({ ({ (online sess run0) with host := { (online sess run0).host with echoes := List.replicate 10 2000000000 } }) with host := { ({ (online sess run0) with host := { (online sess run0).host with echoes := List.replicate 10 2000000000 } }).host with prpSeen := [(5, 7, 8), (6, 6, 8)] } }).parN .hostIpAddr, port := ({ ({ (online sess run0) with host := { (online sess run0).host with echoes := List.replicate 10 2000000000 } }) with host := { ({ (online sess run0) with host := { (online sess run0).host with echoes := List.replicate 10 2000000000 } }).host with prpSeen := [(5, 7, 8), (6, 6, 8)] } }).parN .hostUdpPort } }, List.replicate 4 5, { ({ (online sess run0) with host := { (online sess run0).host with echoes := List.replicate 10 2000000000 } }) with host := { ({ (online sess run0) with host := { (online sess run0).host with echoes := List.replicate 10 2000000000 } }).host with prpSeen := [(5, 7, 8), (6, 6, 8)] } }, by decide +kernel⟩,
   ⟨9, { addr := 44, net := { prp := some (5, 7) } }, [1], 5, { (online sess run0) with host := { (online sess run0).host with prpSeen := [(5, 7, 8), (6, 6, 8)] } }, by decide +kernel⟩,
   ⟨9, { prp := some (5, 6) }, 5, 6, { (online sess run0) with host := { (online sess run0).host with prpSeen := [(5, 7, 8), (6, 6, 8)] } }, by decide +kernel⟩,
   ⟨9, { addr := 44, net := { prp := some (5, 6), dest := ({ ({ (online sess run0) with host := { (online sess run0).host with prpSeen := [(5, 7, 8), (6, 6, 8)] } }) with host := { ({ (online sess run0) with host := { (online sess run0).host with prpSeen := [(5, 7, 8), (6, 6, 8)] } }).host with arp := [3, 4] } }).parN .hostIpAddr, port := ({ ({ (online sess run0) with host := { (online sess run0).host with prpSeen := [(5, 7, 8), (6, 6, 8)] } }) with host := { ({ (online sess run0) with host := { (online sess run0).host with prpSeen := [(5, 7, 8), (6, 6, 8)] } }).host with arp := [3, 4] } }).parN .hostUdpPort } }, { ({ (online sess run0) with host := { (online sess run0).host with prpSeen := [(5, 7, 8), (6, 6, 8)] } }) with host := { ({ (online sess run0) with host := { (online sess run0).host with prpSeen := [(5, 7, 8), (6, 6, 8)] } }).host with arp := [3, 4] } }, by decide +kernel⟩,
   ⟨9, { addr := 44, net := { prp := some (5, 6), dest := ({ ({ (online sess run0) with host := { (online sess run0).host with prpSeen := [(5, 7, 8), (6, 6, 8)] } }) with host := { ({ (online sess run0) with host := { (online sess run0).host with prpSeen := [(5, 7, 8), (6, 6, 8)] } }).host with arp := [3, 4] } }).parN .hostIpAddr, port := ({ ({ (online sess run0) with host := { (online sess run0).host with prpSeen := [(5, 7, 8), (6, 6, 8)] } }) with host := { ({ (online sess run0) with host := { (online sess run0).host with prpSeen := [(5, 7, 8), (6, 6, 8)] } }).host with arp := [3, 4] } }).parN .hostUdpPort } }, 1 + ({ ({ (online sess run0) with host := { (online sess run0).host with prpSeen := [(5, 7, 8), (6, 6, 8)] } }) with host := { ({ (online sess run0) with host := { (online sess run0).host with prpSeen := [(5, 7, 8), (6, 6, 8)] } }).host with arp := [3, 4] } }).parN .hostIpAddr, { ({ (online sess run0) with host := { (online sess run0).host with prpSeen := [(5, 7, 8), (6, 6, 8)] } }) with host := { ({ (online sess run0) with host := { (online sess run0).host with prpSeen := [(5, 7, 8), (6, 6, 8)] } }).host with arp := [3, 4] } }, by decide +kernel⟩,
   ⟨9, { ({ (online sess run0) with host := { (online sess run0).host with prpSeen := [(5, 7, 8), (6, 6, 8)] } }) with host := { ({ (online sess run0) with host := { (online sess run0).host with prpSeen := [(5, 7, 8), (6, 6, 8)] } }).host with arp := [3, 4] } }, by decide +kernel⟩,
   ⟨.arpReply 9, { ({ (online sess run0) with host := { (online sess run0).host with prpSeen := [(5, 7, 8), (6, 6, 8)] } }) with out := [.prp 1, .arpReply 9, .arpReply 3] }, by decide +kernel⟩,
   ⟨2000000005, 2, { ({ (online sess run0) with host := { (online sess run0).host with prpAt := some 5 } }) with host := { ({ (online sess run0) with host := { (online sess run0).host with prpAt := some 5 } }).host with prpSeen := [(5, 7, 8), (6, 6, 8)] } }, by decide +kernel⟩⟩

theorem meets_HostReads :
    (∃ (t : Nat) (id : Nat) (seq : Nat) (pay : List Byte) (ends : List Nat) (k : Nat) (x : Session) (s : State),
    admitted t id seq 0x0201 pay k x s) ∧
    (∃ (t : Nat) (id : Nat) (seq : Nat) (pay : List Byte) (ends : List Nat) (k : Nat) (x : Session) (s : State),
    admitted t id seq 0x0202 pay k x s) ∧
    (∃ (t : Nat) (id : Nat) (seq : Nat) (pay : List Byte) (k : Nat) (x : Session) (s : State),
    admitted t id seq 0x0203 pay k x s) ∧
    (∃ (t : Nat) (id : Nat) (seq : Nat) (pay : List Byte) (k : Nat) (x : Session) (s : State),
    admitted t id seq 0x0301 pay k x s) ∧
    (∃ (t : Nat) (id : Nat) (seq : Nat) (pay : List Byte) (k : Nat) (x : Session) (s : State),
    admitted t id seq 0x0501 pay k x s) ∧
    (∃ (t : Nat) (id : Nat) (seq : Nat) (pay : List Byte) (k : Nat) (x : Session) (s : State),
    admitted t id seq 0x0502 pay k x s ∧ readsHeld s t = true ∧ rd 1 0 pay < 3) ∧
    (∃ (t : Nat) (id : Nat) (seq : Nat) (pay : List Byte) (k : Nat) (x : Session) (s : State),
    admitted t id seq 0x0502 pay k x s ∧ (readsHeld s t = false ∨ 3 ≤ rd 1 0 pay)) ∧
    (∃ (t : Nat) (id : Nat) (seq : Nat) (pay : List Byte) (k : Nat) (x : Session) (s : State),
    admitted t id seq 0x0602 pay k x s ∧ engineer x.role = true) ∧
    (∃ (t : Nat) (id : Nat) (seq : Nat) (pay : List Byte) (k : Nat) (x : Session) (s : State),
    admitted t id seq 0x0703 pay k x s) ∧
    (∃ (t : Nat) (id : Nat) (seq : Nat) (pay : List Byte) (k : Nat) (x : Session) (s : State),
    admitted t id seq 0x0901 pay k x s) ∧
    (∃ (t : Nat) (id : Nat) (seq : Nat) (pay : List Byte) (k : Nat) (x : Session) (s : State),
    admitted t id seq 0x0902 pay k x s) ∧
    (∃ (t : Nat) (id : Nat) (seq : Nat) (pay : List Byte) (k : Nat) (x : Session) (s : State),
    admitted t id seq 0x0801 pay k x s ∧ pay.length = 1 ∧ rd 1 0 pay < 8 ∧ s.parN .timeCapReader (rd 1 0 pay) = 0) ∧
    (∃ (t : Nat) (pay : List Byte) (ends : List Nat) (n : Nat) (s : State),
    rd 2 12 pay = n ∧ 1 ≤ n ∧ n ≤ 340 ∧ pay.length = 16 + 4 * n ∧ frameFor s (rd 8 0 pay) = .inr 2) ∧
    (∃ (t : Nat) (pay : List Byte) (ends : List Nat) (img : Image) (s : State),
    pay.length = 16 + 4 * rd 2 12 pay ∧ 1 ≤ rd 2 12 pay ∧ rd 2 12 pay ≤ 340 ∧ rd 8 0 pay = 0xFFFFFFFFFFFFFFFF ∧ s.comb.published = some img ∧ rd 4 8 pay = img.mapVersion) ∧
    (∃ (all : List (Nat × Nat × Nat × Item)) (key : Nat),
    (∀ e ∈ all, e.1 ≠ key)) ∧
    (∃ (t : Nat) (pay : List Byte) (ends : List Nat) (img : Image) (s : State),
    pay.length = 16 ∧ 1 ≤ rd 2 12 pay ∧ rd 2 12 pay ≤ 172 ∧ rd 8 0 pay = 0xFFFFFFFFFFFFFFFF ∧ s.comb.published = some img ∧ rd 4 8 pay + rd 2 12 pay ≤ slotCount img ∧ doneAt t ends 0 ≤ (img.frame + 3) * frameNs + 5000000) ∧
    (∃ (pay : List Byte) (s : State),
    pay.length = 12 ∧ 1 ≤ rd 2 8 pay ∧ rd 2 8 pay ≤ 172 ∧ rd 4 0 pay = s.comb.mapVersion ∧ rd 4 4 pay + rd 2 8 pay ≤ s.comb.map.length) ∧
    (∃ (nm : List Byte) (k : ParamKey) (s : State),
    1 ≤ nm.length ∧ nm.length ≤ 63 ∧ paramOfName nm = some k ∧ k.p ≠ .hostKey) ∧
    (∃ (c : Nat) (first : Nat) (count : Nat) (newer : List EvRec) (old : EvRec) (s : State),
    1 ≤ c ∧ c ≤ 10 ∧ 1 ≤ count ∧ count ≤ 28 ∧ first < 2 ^ 32 ∧ s.recorder.rings.getD (c - 1) [] = newer ++ [old]) ∧
    (∃ (g : Nat) (off : Nat) (count : Nat) (n : Nat) (s : State),
    regionSize g = some n ∧ 1 ≤ count ∧ count ≤ 1376 ∧ off + count ≤ n) ∧
    (∃ (off : Nat) (count : Nat) (p : ProgImage) (s : State),
    s.prog.active = some p ∧ 1 ≤ count ∧ count ≤ 1384 ∧ off + count ≤ p.raw.length ∧ p.raw.length ≤ 262176) ∧
    (∃ (first : Nat) (c : Nat) (s : State),
    first % 8 = 0 ∧ first ≤ c ∧ c < first + 8192 ∧ c < totalOf s ∧ totalOf s < 2 ^ 32) ∧
    (∃ (first : Nat) (n : Nat) (s : State),
    first < 16 ∧ 1 ≤ n ∧ n ≤ 5) ∧
    (∃ (first : Nat) (count : Nat) (newer : List BistRec) (old : BistRec) (s : State),
    1 ≤ count ∧ count ≤ 40 ∧ first < 2 ^ 32 ∧ s.bist.ring = newer ++ [old]) ∧
    (∃ (s : State) (p : Image) (f : Nat),
    s.comb.published = some p ∧ p.frame < f ∧ f ≠ 0xFFFFFFFFFFFFFFFF) ∧
    (∃ (s : State) (p : Image) (q : Image) (f : Nat),
    s.comb.published = some p ∧ s.comb.previous = some q ∧ f < p.frame ∧ f ≠ q.frame ∧ p.frame < 0xFFFFFFFFFFFFFFFF) ∧
    (∃ (t : Nat) (id : Nat) (seq : Nat) (pay : List Byte) (k : Nat) (x : Session) (n : Nat) (s : State),
    admitted t id seq 0x0204 pay k x s ∧ rd 1 0 pay = 0 ∧ rd 2 4 pay = n ∧ 1 ≤ n ∧ n ≤ 340 ∧ pay.length = 8 + 4 * n ∧ 1 ≤ rd 1 1 pay ∧ rd 1 1 pay ≤ 100 ∧ x.subs.length < 4 ∧ (openSubs s).length < 16) ∧
    (∃ (t : Nat) (id : Nat) (seq : Nat) (pay : List Byte) (k : Nat) (x : Session) (s : State),
    admitted t id seq 0x0205 pay k x s ∧ pay.length = 1 ∧ (∃ u ∈ x.subs, u.id = rd 1 0 pay)) ∧
    (∃ (t : Nat) (k : Fin 8) (id : Nat) (ends : List Nat) (x : Session) (img : Image) (u : Subscription) (s : State),
    netUp s = true ∧ sessionAt s k.val = some x ∧ s.comb.published = some img ∧ (x.subs.find? fun v => v.id == id) = some u ∧ img.frame % u.period = 0 ∧ u.lastFrame ≠ some img.frame) :=
  ⟨⟨9, 77, 42, toLE 8 0xFFFFFFFFFFFFFFFF ++ toLE 4 0 ++ toLE 2 2 ++ toLE 2 0 ++ toLE 4 0x10000 ++ toLE 4 0x20001, [], 3, sess, online sess run0, by unfold admitted; decide +kernel⟩,
   ⟨9, 77, 42, toLE 8 0xFFFFFFFFFFFFFFFF ++ toLE 2 0 ++ toLE 2 9, [], 3, sess, online sess run0, by unfold admitted; decide +kernel⟩,
   ⟨9, 77, 42, toLE 4 0 ++ toLE 2 0 ++ toLE 2 9, 3, sess, online sess run0, by unfold admitted; decide +kernel⟩,
   ⟨9, 77, 42, toLE 1 0 ++ toLE 1 1 ++ toLE 2 0 ++ [1, 2, 3, 4], 3, sess, online sess run0, by unfold admitted; decide +kernel⟩,
   ⟨9, 77, 42, [], 3, sess, online sess run0, by unfold admitted; decide +kernel⟩,
   ⟨995000009, 77, 42, toLE 1 1 ++ toLE 3 0 ++ toLE 4 0 ++ toLE 2 64, 3, sess, { (online sess run0) with time := { run0.time with frame := 99 } }, by unfold admitted; decide +kernel⟩,
   ⟨9, 77, 42, toLE 1 0 ++ toLE 3 0 ++ toLE 4 0 ++ toLE 2 64, 3, sess, online sess run0, by unfold admitted; decide +kernel⟩,
   ⟨9, 77, 42, [0, 0, 0, 0], 3, sess, online sess run0, by unfold admitted; decide +kernel⟩,
   ⟨9, 77, 42, [], 3, sess, online sess run0, by unfold admitted; decide +kernel⟩,
   ⟨9, 77, 42, [0, 4], 3, sess, online sess run0, by unfold admitted; decide +kernel⟩,
   ⟨9, 77, 42, [0, 0, 0, 0], 3, sess, online sess run0, by unfold admitted; decide +kernel⟩,
   ⟨9, 77, 42, [3], 3, sess, setPar .timeCapReader 3 0 0 { (online sess run0) with time := { run0.time with capture := [[], [], [], [⟨5, true, false, 3⟩, ⟨6, false, true, 3⟩]] ++ List.replicate 4 [] } }, by unfold admitted; decide +kernel⟩,
   ⟨9, toLE 8 7 ++ toLE 4 0 ++ toLE 2 1 ++ toLE 2 0 ++ toLE 4 0x10000, [], 1, { run0 with comb := { run0.comb with published := some { frame := 9, sampleTime := 5, publishTime := 6, mapVersion := 1, flags := 0, closed := 0, place := (0, 0), keys := [], items := [] }, previous := some { frame := 8, sampleTime := 5, publishTime := 6, mapVersion := 1, flags := 0, closed := 0, place := (0, 0), keys := [], items := [] } } }, by decide +kernel⟩,
   ⟨9, toLE 8 0xFFFFFFFFFFFFFFFF ++ toLE 4 1 ++ toLE 2 2 ++ toLE 2 0 ++ toLE 4 0x10000 ++ toLE 4 0x20001, [], { frame := 9, sampleTime := 5, publishTime := 6, mapVersion := 1, flags := 0, closed := 0, place := (0, 0), keys := [], items := [] }, { run0 with comb := { run0.comb with published := some { frame := 9, sampleTime := 5, publishTime := 6, mapVersion := 1, flags := 0, closed := 0, place := (0, 0), keys := [], items := [] }, previous := some { frame := 8, sampleTime := 5, publishTime := 6, mapVersion := 1, flags := 0, closed := 0, place := (0, 0), keys := [], items := [] } } }, by decide +kernel⟩,
   ⟨[(4, 5, 6, {})], 9, by decide +kernel⟩,
   ⟨9, toLE 8 0xFFFFFFFFFFFFFFFF ++ toLE 4 0 ++ toLE 2 1 ++ toLE 2 0, [], { frame := 9, sampleTime := 5, publishTime := 6, mapVersion := 1, flags := 0, closed := 0, place := (0, 0), keys := [(0x10000, 0)], items := [] }, { run0 with comb := { run0.comb with published := some { frame := 9, sampleTime := 5, publishTime := 6, mapVersion := 1, flags := 0, closed := 0, place := (0, 0), keys := [(0x10000, 0)], items := [] } } }, by decide +kernel⟩,
   ⟨toLE 4 run0.comb.mapVersion ++ toLE 4 1 ++ toLE 2 1 ++ toLE 2 0, { run0 with comb := { run0.comb with map := [(4, 0, 1), (9, 1, 1), (12, 2, 2)] } }, by decide +kernel⟩,
   ⟨"host.rate.req".toUTF8.toList.map (fun b => BitVec.ofNat 8 b.toNat), { p := .hostRateReq }, run0, by decide +kernel⟩,
   ⟨3, 4, 2, [{ seq := 7, code := 5, active := true, arg := 6, repeat_ := 2, firstT := 4, firstOps := 5, firstPc := 6, lastT := 7, lastOps := 8, lastPc := 9 }, { seq := 5, code := 5, active := true, arg := 6, repeat_ := 2, firstT := 4, firstOps := 5, firstPc := 6, lastT := 7, lastOps := 8, lastPc := 9 }], { seq := 3, code := 5, active := true, arg := 6, repeat_ := 2, firstT := 4, firstOps := 5, firstPc := 6, lastT := 7, lastOps := 8, lastPc := 9 }, { run0 with recorder := { run0.recorder with rings := run0.recorder.rings.set 2 [{ seq := 7, code := 5, active := true, arg := 6, repeat_ := 2, firstT := 4, firstOps := 5, firstPc := 6, lastT := 7, lastOps := 8, lastPc := 9 }, { seq := 5, code := 5, active := true, arg := 6, repeat_ := 2, firstT := 4, firstOps := 5, firstPc := 6, lastT := 7, lastOps := 8, lastPc := 9 }, { seq := 3, code := 5, active := true, arg := 6, repeat_ := 2, firstT := 4, firstOps := 5, firstPc := 6, lastT := 7, lastOps := 8, lastPc := 9 }] } }, by decide +kernel⟩,
   ⟨0, 3, 9, regionSize 0 |>.getD 0, run0, by decide +kernel⟩,
   ⟨1, 2, { period := 1, version := 7, vars := [], insts := [], raw := [1, 2, 3, 4] }, { run0 with prog := { run0.prog with active := some { period := 1, version := 7, vars := [], insts := [], raw := [1, 2, 3, 4] } } }, by decide +kernel⟩,
   ⟨8, 11, { run0 with upd := { run0.upd with staged := some { version := 9, level := 3, packageLen := 50000, parts := [{ code := 1, version := 9, offset := 1024, size := 3000 }] }, got := [11, 3] } }, by decide +kernel⟩,
   ⟨14, 3, run0, by decide +kernel⟩,
   ⟨4, 2, [{ seq := 7, slice := 2, target := 3, outcome := 4, detail := 5, ops := 6, time := 7, pc := 8 }, { seq := 5, slice := 2, target := 3, outcome := 4, detail := 5, ops := 6, time := 7, pc := 8 }], { seq := 3, slice := 2, target := 3, outcome := 4, detail := 5, ops := 6, time := 7, pc := 8 }, { run0 with bist := { run0.bist with ring := [{ seq := 7, slice := 2, target := 3, outcome := 4, detail := 5, ops := 6, time := 7, pc := 8 }, { seq := 5, slice := 2, target := 3, outcome := 4, detail := 5, ops := 6, time := 7, pc := 8 }, { seq := 3, slice := 2, target := 3, outcome := 4, detail := 5, ops := 6, time := 7, pc := 8 }] } }, by decide +kernel⟩,
   ⟨{ run0 with comb := { run0.comb with published := some { frame := 9, sampleTime := 5, publishTime := 6, mapVersion := 1, flags := 0, closed := 0, place := (0, 0), keys := [], items := [] }, previous := some { frame := 8, sampleTime := 5, publishTime := 6, mapVersion := 1, flags := 0, closed := 0, place := (0, 0), keys := [], items := [] } } }, { frame := 9, sampleTime := 5, publishTime := 6, mapVersion := 1, flags := 0, closed := 0, place := (0, 0), keys := [], items := [] }, 10, by decide +kernel⟩,
   ⟨{ run0 with comb := { run0.comb with published := some { frame := 9, sampleTime := 5, publishTime := 6, mapVersion := 1, flags := 0, closed := 0, place := (0, 0), keys := [], items := [] }, previous := some { frame := 8, sampleTime := 5, publishTime := 6, mapVersion := 1, flags := 0, closed := 0, place := (0, 0), keys := [], items := [] } } }, { frame := 9, sampleTime := 5, publishTime := 6, mapVersion := 1, flags := 0, closed := 0, place := (0, 0), keys := [], items := [] }, { frame := 8, sampleTime := 5, publishTime := 6, mapVersion := 1, flags := 0, closed := 0, place := (0, 0), keys := [], items := [] }, 7, by decide +kernel⟩,
   ⟨9, 77, 42, [0, 7, 0, 0, 1, 0, 0, 0] ++ toLE 4 0x10000, 3, sess, 1, setPar .hostPushMax 0 0 64 ({ (online sess run0) with host := { (online sess run0).host with slots := [some { sess with id := 5, sLast := 3 }, none, none, some sess, none, none, none, none] } }), by unfold admitted; decide +kernel⟩,
   ⟨9, 77, 42, [2], 3, { sess with subs := [{ id := 2, kind := 0, period := 7, keys := [0x10000], first := 0, count := 0, parts := 1 }] }, online { sess with subs := [{ id := 2, kind := 0, period := 7, keys := [0x10000], first := 0, count := 0, parts := 1 }] } run0, by unfold admitted; decide +kernel⟩,
   ⟨150000000, 3, 2, [0], { sess with subs := [{ id := 2, kind := 0, period := 7, keys := [0x10000], first := 0, count := 0, parts := 1 }] }, { frame := 14, sampleTime := 5, publishTime := 6, mapVersion := 1, flags := 0, closed := 0, place := (0, 0), keys := [], items := [] }, { id := 2, kind := 0, period := 7, keys := [0x10000], first := 0, count := 0, parts := 1 }, { (online { sess with subs := [{ id := 2, kind := 0, period := 7, keys := [0x10000], first := 0, count := 0, parts := 1 }] } run0) with comb := { run0.comb with published := some { frame := 14, sampleTime := 5, publishTime := 6, mapVersion := 1, flags := 0, closed := 0, place := (0, 0), keys := [], items := [] } } }, by decide +kernel⟩⟩

theorem meets_ParameterWrites :
    (∃ (t : Nat) (id : Nat) (seq : Nat) (pay : List Byte) (k : Nat) (x : Session) (s : State),
    admitted t id seq 0x0302 pay k x s ∧ (engineer x.role = true ∨ x.role = .safety) ∧ pay.length = 1 ∧ rd 1 0 pay ≤ 1 ∧ (s.host.lock = none ∨ s.host.lock = some x.id)) ∧
    (∃ (t : Nat) (id : Nat) (seq : Nat) (pay : List Byte) (k : Nat) (x : Session) (h : Nat) (s : State),
    admitted t id seq 0x0302 pay k x s ∧ (engineer x.role = true ∨ x.role = .safety) ∧ pay.length = 1 ∧ rd 1 0 pay ≤ 1 ∧ s.host.lock = some h ∧ h ≠ x.id) ∧
    (∃ (t : Nat) (id : Nat) (seq : Nat) (pay : List Byte) (k : Nat) (x : Session) (ws : List (ParamKey × Int)) (s : State),
    admitted t id seq 0x0303 pay k x s ∧ (engineer x.role = true ∨ x.role = .safety) ∧ s.host.lock = some x.id ∧ 1 ≤ rd 1 0 pay ∧ rd 1 0 pay ≤ 16 ∧ readWrites s x.role [] (rd 1 0 pay) 0 (pay.drop 1) = .inl ws) ∧
    (∃ (t : Nat) (id : Nat) (seq : Nat) (pay : List Byte) (k : Nat) (x : Session) (st : Nat) (i : Nat) (s : State),
    admitted t id seq 0x0303 pay k x s ∧ (engineer x.role = true ∨ x.role = .safety) ∧ s.host.lock = some x.id ∧ 1 ≤ rd 1 0 pay ∧ rd 1 0 pay ≤ 16 ∧ readWrites s x.role [] (rd 1 0 pay) 0 (pay.drop 1) = .inr (st, i)) ∧
    (∃ (t : Nat) (id : Nat) (seq : Nat) (k : Nat) (x : Session) (s : State),
    admitted t id seq 0x0305 [] k x s ∧ (engineer x.role = true ∨ x.role = .safety) ∧ s.host.lock = some x.id) :=
  ⟨⟨9, 77, 42, [0], 3, sess, editing sess run0, by unfold admitted; decide +kernel⟩,
   ⟨9, 77, 42, [0], 3, sess, 9, { editing sess run0 with host := { (editing sess run0).host with lock := some 9 } }, by unfold admitted; decide +kernel⟩,
   ⟨9, 77, 42, [1, 13, 104, 111, 115, 116, 46, 114, 97, 116, 101, 46, 114, 101, 113, 2, 60, 0, 0, 0, 0, 0, 0, 0], 3, sess, [({ p := .hostRateReq }, 60)], editing sess run0, by unfold admitted; decide +kernel⟩,
   ⟨9, 77, 42, [1, 13, 104, 111, 115, 116, 46, 114, 97, 116, 101, 46, 114, 101, 113, 2, 60, 0, 0, 0, 0, 0, 0, 1], 3, sess, 9, 0, editing sess run0, by unfold admitted; decide +kernel⟩,
   ⟨9, 77, 42, 3, sess, editing sess run0, by unfold admitted; decide +kernel⟩⟩

theorem meets_Commit :
    (∃ (t : Nat) (id : Nat) (seq : Nat) (pay : List Byte) (k : Nat) (x : Session) (c : Cfg) (s : State),
    admitted t id seq 0x0304 pay k x s ∧ (engineer x.role = true ∨ x.role = .safety) ∧ pay.length = 4 ∧ s.boot.commit = none ∧ (s.host.lock = none ∨ s.host.lock = some x.id) ∧ rd 4 0 pay = s.boot.comGen ∧ s.therm.flashInh = false ∧ (∀ e ∈ changed s, mayWrite s x.role e.1 = true) ∧ ((changed s).all (fun e => !isSafetyName e.1.p) = true ∨ s.boot.mode = .commission ∧ s.boot.life ≠ .blank ∧ s.boot.life ≠ .returned) ∧ (∀ e ∈ changed s, e.1.p ≠ .bootLifecycle) ∧ nextGen s < 0xFFFFFFFF ∧ newContent s = some c ∧ contentFault s c = none) ∧
    (∃ (t : Nat) (id : Nat) (seq : Nat) (pay : List Byte) (k : Nat) (x : Session) (s : State),
    admitted t id seq 0x0304 pay k x s ∧ (engineer x.role = true ∨ x.role = .safety) ∧ pay.length = 4 ∧ s.boot.commit = none ∧ (s.host.lock = none ∨ s.host.lock = some x.id) ∧ rd 4 0 pay ≠ s.boot.comGen) ∧
    (∃ (t : Nat) (c : CommitRun) (x : Session) (s : State),
    s.boot.commit = some c ∧ c.img.bad = 0 ∧ sessionAt s c.slot = some x ∧ x.id = c.session) ∧
    (∃ (t : Nat) (c : CommitRun) (ok6 : Bool) (x : Session) (s : State),
    s.boot.commit = some c ∧ sessionAt s c.slot = some x ∧ x.id = c.session) :=
  ⟨⟨9, 77, 42, toLE 4 5, 3, sess, { params := ({ p := .hostRateReq }, 60) :: quietPar }, editing sess run0, by unfold admitted; decide +kernel⟩,
   ⟨9, 77, 42, toLE 4 6, 3, sess, editing sess run0, by unfold admitted; decide +kernel⟩,
   ⟨9, commitRun, sess, { editing sess run0 with boot := { (editing sess run0).boot with commit := some commitRun } }, by decide +kernel⟩,
   ⟨9, commitRun, true, sess, { editing sess run0 with boot := { (editing sess run0).boot with commit := some commitRun } }, by decide +kernel⟩⟩

theorem meets_CyclicProgram :
    (∃ (t : Nat) (code : Fin 3) (s : State),
    s.running = true ∧ (code ≠ 2 ∨ s.boot.mode ≠ .operate)) ∧
    (∃ (t : Nat) (s : State),
    s.running = true ∧ s.boot.mode = .operate) ∧
    (∃ (t : Nat) (i : BitVec 16) (v : BitVec 64) (b : BitVec 32) (s : State),
    s.running = true ∧ ((soonProg s).vars.getD i.toNat {}).typ ≠ 0 ∧ ((soonProg s).vars.getD i.toNat {}).kind ≠ 1 ∧ forceBits ((soonProg s).vars.getD i.toNat {}).typ v.toNat = some b ∧ (s.boot.mode = .operate → s.parB .progForceOperate = true) ∧ ((forcedSoon s).length < 64 ∨ i.toNat ∈ forcedSoon s)) ∧
    (∃ (t : Nat) (i : BitVec 16) (v : BitVec 64) (s : State),
    s.running = true ∧ forceBits ((soonProg s).vars.getD i.toNat {}).typ v.toNat = none) ∧
    (∃ (t : Nat) (i : BitVec 16) (s : State),
    s.running = true ∧ (varDef s i.toNat).typ ≠ 0) ∧
    (∃ (t : Nat) (version : BitVec 32) (p : ProgImage) (s : State),
    s.running = true ∧ s.prog.staged = some p ∧ p.version = version.toNat) ∧
    (∃ (t : Nat) (version : BitVec 32) (s : State),
    s.running = true ∧ (∀ p, s.prog.staged = some p → p.version ≠ version.toNat)) ∧
    (∃ (t : Nat) (us : Nat) (s : State),
    s.running = true ∧ s.prog.began = true) ∧
    (∃ (t : Nat) (us : Nat) (s : State),
    s.running = true ∧ s.prog.began = true ∧ s.frameStart + 8000000 ≤ t) ∧
    (∃ (t : Nat) (g : ProgStaging) (s : State),
    s.up = true ∧ s.prog.staging = some g ∧ g.last + g.timeout * 1000000000 ≤ t) ∧
    (∃ (t : Nat) (id : Nat) (seq : Nat) (pay : List Byte) (k : Nat) (x : Session) (s : State),
    admitted t id seq 0x0601 pay k x s ∧ engineer x.role = true ∧ s.prog.staging = none ∧ 17 ≤ pay.length ∧ pay.length ≤ 1400 ∧ rd 4 8 pay ≤ 262176 ∧ rd 4 4 pay + (pay.length - 16) ≤ rd 4 8 pay ∧ pay.length - 16 < rd 4 8 pay) ∧
    (∃ (t : Nat) (id : Nat) (seq : Nat) (pay : List Byte) (k : Nat) (x : Session) (s : State),
    admitted t id seq 0x0601 pay k x s ∧ engineer x.role = true ∧ s.prog.staging = none ∧ 17 ≤ pay.length ∧ pay.length ≤ 1400 ∧ rd 4 4 pay = 0 ∧ rd 4 8 pay = pay.length - 16 ∧ progFault s (pay.drop 16) = none) ∧
    (∃ (t : Nat) (id : Nat) (seq : Nat) (pay : List Byte) (k : Nat) (x : Session) (i : Nat) (s : State),
    admitted t id seq 0x0601 pay k x s ∧ engineer x.role = true ∧ s.prog.staging = none ∧ 17 ≤ pay.length ∧ pay.length ≤ 1400 ∧ rd 4 4 pay = 0 ∧ rd 4 8 pay = pay.length - 16 ∧ progFault s (pay.drop 16) = some i) :=
  ⟨⟨9, 2, inMode .service run0, by decide +kernel⟩,
   ⟨9, inMode .operate run0, by decide +kernel⟩,
   ⟨9, 2, 44, 44, setPar .progForceOperate 0 0 1 ({ run0 with prog := { run0.prog with active := some progImg, staged := some progImg, began := true, cmds := [(.mode 1, 4), (.force 3 5, 6)], forces := (List.range 62).map fun k => (k + 5, 7) } }), by decide +kernel⟩,
   ⟨9, 0, 99, { run0 with prog := { run0.prog with active := some progImg, staged := some progImg, began := true, cmds := [(.mode 1, 4), (.force 3 5, 6)], forces := (List.range 3).map fun k => (k + 5, 7) } }, by decide +kernel⟩,
   ⟨9, 2, { run0 with prog := { run0.prog with active := some progImg, staged := some progImg, began := true, cmds := [(.mode 1, 4), (.force 3 5, 6)], forces := (List.range 3).map fun k => (k + 5, 7) } }, by decide +kernel⟩,
   ⟨9, 7, progImg, { run0 with prog := { run0.prog with active := some progImg, staged := some progImg, began := true, cmds := [(.mode 1, 4), (.force 3 5, 6)], forces := (List.range 3).map fun k => (k + 5, 7) } }, by decide +kernel⟩,
   ⟨9, 8, { run0 with prog := { run0.prog with active := some progImg, staged := some progImg, began := true, cmds := [(.mode 1, 4), (.force 3 5, 6)], forces := (List.range 3).map fun k => (k + 5, 7) } }, by decide +kernel⟩,
   ⟨9, 777, { run0 with prog := { run0.prog with active := some progImg, staged := some progImg, began := true, cmds := [(.mode 1, 4), (.force 3 5, 6)], forces := (List.range 3).map fun k => (k + 5, 7) } }, by decide +kernel⟩,
   ⟨run0.frameStart + 8000009, 777, { run0 with prog := { run0.prog with active := some progImg, staged := some progImg, began := true, cmds := [(.mode 1, 4), (.force 3 5, 6)], forces := (List.range 3).map fun k => (k + 5, 7) } }, by decide +kernel⟩,
   ⟨60000000009, { version := 3, total := 100, pieces := [], last := 9, timeout := 60 }, setPar .progStageTimeout 0 0 60 { run0 with prog := { run0.prog with staging := some { version := 3, total := 100, pieces := [], last := 9, timeout := 60 } } }, by decide +kernel⟩,
   ⟨9, 77, 42, toLE 4 7 ++ toLE 4 0 ++ toLE 4 100 ++ toLE 4 0 ++ [1, 2, 3], 3, sess, { online sess run0 with prog := { run0.prog with staging := none, staged := none, active := none } }, by unfold admitted; decide +kernel⟩,
   ⟨9, 77, 42, toLE 4 7 ++ toLE 4 0 ++ toLE 4 80 ++ toLE 4 0 ++ progBytes 0 1929666783, 3, sess, { online sess run0 with prog := { run0.prog with staging := none, staged := none, active := none } }, by unfold admitted; decide +kernel⟩,
   ⟨9, 77, 42, toLE 4 7 ++ toLE 4 0 ++ toLE 4 80 ++ toLE 4 0 ++ progBytes 9 3881253904, 3, sess, 0, { online sess run0 with prog := { run0.prog with staging := none, staged := none, active := none } }, by unfold admitted; decide +kernel⟩⟩

theorem meets_Forces :
    (∃ (i : Nat) (b : BitVec 32) (s : State),
    s.prog.forces.length ≤ 64) ∧
    (∃ (i : Nat) (b : BitVec 32) (s : State),
    (s.prog.forces.lookup i) = none ∧ 64 ≤ s.prog.forces.length) ∧
    (∃ (i : Nat) (b : BitVec 32) (s : State),
    (s.prog.forces.lookup i).isSome = true) ∧
    (∃ (t : Nat) (i : BitVec 16) (v : BitVec 64) (b : BitVec 32) (s : State),
    s.running = true ∧ ((soonProg s).vars.getD i.toNat {}).typ ≠ 0 ∧ ((soonProg s).vars.getD i.toNat {}).kind ≠ 1 ∧ forceBits ((soonProg s).vars.getD i.toNat {}).typ v.toNat = some b ∧ (s.boot.mode = .operate → s.parB .progForceOperate = true) ∧ 64 ≤ (forcedSoon s).length ∧ i.toNat ∉ forcedSoon s) :=
  ⟨⟨200, 7, { run0 with prog := { run0.prog with forces := (List.range 64).map fun k => (k + 5, 7) } }, by decide +kernel⟩,
   ⟨200, 7, { run0 with prog := { run0.prog with forces := (List.range 64).map fun k => (k + 5, 7) } }, by decide +kernel⟩,
   ⟨20, 9, { run0 with prog := { run0.prog with forces := (List.range 64).map fun k => (k + 5, 7) } }, by decide +kernel⟩,
   ⟨9, 2, 44, 44, setPar .progForceOperate 0 0 1 ({ run0 with prog := { run0.prog with active := some progImg, staged := some progImg, began := true, cmds := [(.mode 1, 4), (.force 3 5, 6)], forces := (List.range 63).map fun k => (k + 5, 7) } }), by decide +kernel⟩⟩

theorem meets_Events :
    (∃ (code : Nat) (arg : Nat) (e : EvRec) (es : List EvRec) (s : State),
    1 ≤ evClass code ∧ evClass code ≤ 10 ∧ s.recorder.rings.length = 10 ∧ s.recorder.rings.getD (evClass code - 1) [] = e :: es ∧ e.code = code ∧ e.arg = arg) ∧
    (∃ (code : Nat) (arg : Nat) (s : State),
    1 ≤ evClass code ∧ evClass code ≤ 10 ∧ s.recorder.rings.length = 10 ∧ s.recorder.seq.length = 10 ∧ (s.recorder.rings.getD (evClass code - 1) []).length < 3840 ∧ (∀ e es, s.recorder.rings.getD (evClass code - 1) [] = e :: es → ¬(e.code = code ∧ e.arg = arg))) ∧
    (∃ (code : Nat) (arg : Nat) (e : EvRec) (es : List EvRec) (s : State),
    evClass code ≤ 10 ∧ s.recorder.rings.length = 10 ∧ s.isRaised code arg = true ∧ s.recorder.rings.getD (evClass code - 1) [] = e :: es ∧ e.code = code ∧ e.arg = arg) ∧
    (∃ (t : Nat) (code : BitVec 16) (arg : BitVec 32) (s : State),
    s.up = true ∧ 1 ≤ evClass code.toNat ∧ evClass code.toNat ≤ 10) :=
  ⟨⟨0x1004, 9, event 0x1004 9, [event 5 6], ringIs 0 [event 0x1004 9, event 5 6] run0, by decide +kernel⟩,
   ⟨0x1004, 9, ringIs 0 [event 0x1004 8, event 5 6] run0, by decide +kernel, by decide +kernel, by decide +kernel, by decide +kernel, by decide +kernel, by intro e es h; cases h; decide +kernel⟩,
   ⟨0x1004, 9, event 0x1004 9, [event 5 6], ringIs 0 [event 0x1004 9, event 5 6] { run0 with recorder := { run0.recorder with raised := [(5, 6), (0x1004, 9)] } }, by decide +kernel⟩,
   ⟨9, 0x5004, 77, run0, by decide +kernel⟩⟩

theorem meets_RingBound :
    (∃ (s : State),
    (∀ l ∈ s.recorder.rings, l.length ≤ 3840)) :=
  ⟨ringIs 3 (List.replicate 3840 (event 0x4001 6)) { run0 with recorder := { run0.recorder with rings := run0.recorder.rings.map (·.take 3840) } }, by decide +kernel⟩

theorem meets_RecorderCommits :
    (∃ (t : Nat) (s : State),
    s.running = true ∧ s.roundPos = 99 ∧ s.recorder.on = true ∧ s.workDue 2 = true ∧ s.frameStart + 5000000 ≤ t ∧ t ≤ s.frameStart + 9500000 ∧ s.recorder.clearReq = [] ∧ s.recorder.cellClear = []) ∧
    (∃ (t : Nat) (s : State),
    s.running = true ∧ s.roundPos = 99 ∧ s.workDue 2 = true ∧ s.frameStart + 9500000 ≤ t) ∧
    (∃ (t : Nat) (session : Nat) (region : BitVec 8) (token : BitVec 32) (s : State),
    s.running = true ∧ region.toNat < 4 ∧ (token.toNat = (s.recorder.tokens.getD region.toNat (0, 0)).1 ∨ token.toNat = (s.recorder.tokens.getD region.toNat (0, 0)).2) ∧ s.modeIn .recClearModes = true ∧ s.recorder.clears.length < 256 ∧ (∀ q ∈ s.recorder.clearReq, q.1 ≠ region.toNat)) ∧
    (∃ (t : Nat) (session : Nat) (region : BitVec 8) (token : BitVec 32) (s : State),
    s.running = true ∧ (4 ≤ region.toNat ∨ token.toNat ≠ (s.recorder.tokens.getD region.toNat (0, 0)).1 ∧ token.toNat ≠ (s.recorder.tokens.getD region.toNat (0, 0)).2 ∨ s.modeIn .recClearModes = false ∨ 256 ≤ s.recorder.clears.length)) :=
  ⟨⟨1995000009, { run0 with time := { run0.time with frame := 199, hadWork := [] }, recorder := { run0.recorder with on := true, clearReq := [], cellClear := [] } }, by decide +kernel⟩,
   ⟨1999500009, { run0 with time := { run0.time with frame := 199, hadWork := [] }, recorder := { run0.recorder with on := true, clearReq := [], cellClear := [] } }, by decide +kernel⟩,
   ⟨9, 5, 3, 77, inMode .service { run0 with recorder := { run0.recorder with clears := [], clearReq := [(1, 2, 3)], tokens := [(0, 0), (0, 0), (0, 0), (77, 5)] } }, by decide +kernel⟩,
   ⟨9, 5, 3, 78, inMode .service { run0 with recorder := { run0.recorder with clears := [], clearReq := [(1, 2, 3)], tokens := [(0, 0), (0, 0), (0, 0), (77, 5)] } }, by decide +kernel⟩⟩

theorem meets_MemoryFaults :
    (∃ (t : Nat) (b : Nat) (s : State),
    s.up = true ∧ s.mem.copying = some b) ∧
    (∃ (b : Nat) (x : Nat) (s : State),
    s.mem.switch = some b ∧ spareBank s = some x ∧ (bank s b).st = 2 ∧ s.mem.banks.length = 9 ∧ s.mem.toRetire = none) ∧
    (∃ (t : Nat) (addr : BitVec 32) (s : State),
    s.up = true) ∧
    (∃ (t : Nat) (addr : BitVec 32) (s : State),
    s.up = true ∧ s.mem.refetch < 2) ∧
    (∃ (t : Nat) (addr : BitVec 32) (s : State),
    s.up = true ∧ s.mem.refetch = 2) ∧
    (∃ (t : Nat) (channel : BitVec 8) (f : LineFault) (u : DmaUnit) (s : State),
    s.up = true ∧ lineFails f = false) ∧
    (∃ (t : Nat) (channel : BitVec 8) (f : LineFault) (u : DmaUnit) (s : State),
    s.up = true ∧ lineFails f = true ∧ s.can.ports.length = 2) ∧
    (∃ (f : LineFault) (s : State),
    (∀ b l, f.holds ≠ .image b l)) ∧
    (∃ (f : LineFault) (b : Fin 3) (line : Nat) (s : State),
    f.holds = .image b line ∧ lineFails f = true) ∧
    (∃ (f : LineFault) (k : Fin 8) (s : State),
    f.holds = .mirrored (.session k) true ∧ lineFails f = true ∧ s.host.slots.length = 8) ∧
    (∃ (f : LineFault) (s : State),
    f.holds = .mirrored .program true ∧ lineFails f = true) ∧
    (∃ (t : Nat) (p : Fin 2) (s : State),
    s.up = true ∧ s.mem.pairOk.getD p.val false = true) ∧
    (∃ (p : Nat) (s : State),
    s.mem.pairFail = some p ∧ p < 2 ∧ s.mem.pairOk.length = 2) :=
  ⟨⟨9, 5, { run0 with mem := { run0.mem with copying := some 5 } }, by decide +kernel⟩,
   ⟨2, 8, { run0 with mem := { run0.mem with switch := some 2, toRetire := none, banks := [{}, {}, { st := 2, logical := some 7 }, {}, {}, {}, {}, {}, { st := 1 }] } }, by decide +kernel⟩,
   ⟨9, 7, run0, by decide +kernel⟩,
   ⟨9, 7, { run0 with mem := { run0.mem with refetch := 0 } }, by decide +kernel⟩,
   ⟨9, 7, { run0 with mem := { run0.mem with refetch := 2 } }, by decide +kernel⟩,
   ⟨9, 3, { addr := 77, data := List.replicate 64 3, check := lineCheck (77 / 64) (List.replicate 64 3), holds := .code, source := List.replicate 64 7, part := none }, .fhp, run0, by decide +kernel⟩,
   ⟨9, 3, { addr := 77, data := List.replicate 64 3, check := 9, holds := .transient, source := List.replicate 64 7, part := none }, .fhp, run0, by decide +kernel⟩,
   ⟨{ addr := 1280, data := List.replicate 64 3, check := 9, holds := .mirrorDiffers, source := List.replicate 64 7, part := none }, State.reset, fun _ _ h => nomatch h⟩,
   ⟨{ addr := 64 * 9, data := List.replicate 64 3, check := 9, holds := .image 2 5, source := List.replicate 64 7, part := none }, 2, 5, State.reset, by decide +kernel⟩,
   ⟨{ addr := 77, data := List.replicate 64 3, check := 9, holds := .mirrored (.session 6) true, source := List.replicate 64 7, part := none }, 6, run0, by decide +kernel⟩,
   ⟨{ addr := 77, data := List.replicate 64 3, check := 9, holds := .mirrored .program true, source := List.replicate 64 7, part := none }, State.reset, by decide +kernel⟩,
   ⟨9, 1, { run0 with mem := { run0.mem with pairOk := [true, true] } }, by decide +kernel⟩,
   ⟨1, { run0 with mem := { run0.mem with pairFail := some 1, pairOk := [true, true] } }, by decide +kernel⟩⟩

theorem meets_SelfTests :
    (∃ (t : Nat) (mv : BitVec 16) (clockOk : Bool) (pass : Bool) (d : BitVec 32) (s : State),
    s.running = true ∧ s.roundPos = 50 ∧ s.frameStart + 5000000 ≤ t ∧ t ≤ s.frameStart + 9000000 ∧ s.bist.running = none ∧ s.bist.lastFrame ≠ some s.time.frame ∧ p3Off s = false ∧ s.pwr.grant.getD 3 0 ≠ 0 ∧ unmet s (slicePos s) mv.toNat clockOk = 0 ∧ (slicePos s < 12 → (spareBank s).isSome = true ∨ (retiredBank s).isSome = true)) ∧
    (∃ (t : Nat) (mv : BitVec 16) (clockOk : Bool) (pass : Bool) (d : BitVec 32) (s : State),
    s.running = true ∧ s.roundPos = 50 ∧ s.frameStart + 5000000 ≤ t ∧ t ≤ s.frameStart + 9000000 ∧ s.bist.running = none ∧ s.bist.lastFrame ≠ some s.time.frame ∧ onePair s = true ∧ s.therm.throttle = false ∧ s.pwr.seqAt = none ∧ unmet s (slicePos s) mv.toNat clockOk = 0) ∧
    (∃ (t : Nat) (mv : BitVec 16) (clockOk : Bool) (result : Option (Bool × BitVec 32)) (s : State),
    s.running = true ∧ s.roundPos = 50 ∧ s.frameStart + 5000000 ≤ t ∧ t ≤ s.frameStart + 9000000 ∧ s.bist.running = none ∧ s.bist.lastFrame ≠ some s.time.frame ∧ p3Off s = false ∧ s.pwr.grant.getD 3 0 ≠ 0 ∧ unmet s (slicePos s) mv.toNat clockOk ≠ 0) ∧
    (∃ (t : Nat) (mv : BitVec 16) (clockOk : Bool) (result : Option (Bool × BitVec 32)) (s : State),
    s.running = true ∧ s.roundPos = 50 ∧ s.frameStart + 5000000 ≤ t ∧ t ≤ s.frameStart + 9000000 ∧ s.bist.running = none ∧ s.bist.lastFrame ≠ some s.time.frame ∧ (s.therm.throttle = true ∨ s.pwr.seqAt.isSome = true ∨ onePair s = false ∧ s.pwr.grant.getD 3 0 = 0)) ∧
    (∃ (t : Nat) (mv : BitVec 16) (clockOk : Bool) (s : State),
    s.running = true ∧ s.roundPos = 50 ∧ s.frameStart + 5000000 ≤ t ∧ t ≤ s.frameStart + 9000000 ∧ s.bist.running = none ∧ s.bist.lastFrame ≠ some s.time.frame ∧ p3Off s = false ∧ s.pwr.grant.getD 3 0 ≠ 0 ∧ unmet s (slicePos s) mv.toNat clockOk = 0 ∧ (slicePos s < 12 → (spareBank s).isSome = true ∨ (retiredBank s).isSome = true)) ∧
    (∃ (t : Nat) (mv : BitVec 16) (clockOk : Bool) (pass : Bool) (d : BitVec 32) (p : Nat) (s : State),
    s.running = true ∧ s.roundPos = 50 ∧ s.frameStart + 5000000 ≤ t ∧ t ≤ s.frameStart + 9000000 ∧ s.bist.running = some p) ∧
    (∃ (t : Nat) (mv : BitVec 16) (clockOk : Bool) (result : Option (Bool × BitVec 32)) (s : State),
    s.bist.running = none ∧ s.bist.lastFrame = some s.time.frame) ∧
    (∃ (v : VcoreRead) (p : Nat) (s : State),
    s.running = true ∧ s.bist.running = some p ∧ (vcoreOk v.mv.toNat = false ∨ s.roundPos ≠ 50 ∨ s.frameStart + 9000000 ≤ v.t)) ∧
    (∃ (t : Nat) (block : BitVec 8) (s : State),
    s.running = true ∧ block.toNat ≤ 6 ∧ deepRefused s block.toNat = false) ∧
    (∃ (t : Nat) (block : BitVec 8) (s : State),
    s.running = true ∧ block.toNat ≤ 6 ∧ deepRefused s block.toNat = true) ∧
    (∃ (t : Nat) (fails : BitVec 7) (detail : BitVec 32) (b : Nat) (e : Nat) (s : State),
    s.running = true ∧ s.bist.deep = some (b, e) ∧ e ≤ t ∧ (b = 5 ∨ b = 6)) ∧
    (∃ (t : Nat) (fails : BitVec 7) (detail : BitVec 32) (b : Nat) (e : Nat) (s : State),
    s.running = true ∧ s.bist.deep = some (b, e) ∧ e ≤ t ∧ b ≤ 6) ∧
    (∃ (t : Nat) (fails : BitVec 7) (detail : BitVec 32) (b : Nat) (e : Nat) (s : State),
    s.running = true ∧ s.bist.deep = some (b, e) ∧ e ≤ t ∧ (b = 1 ∨ b = 3)) :=
  ⟨⟨1505000009, 800, true, true, 77, { run0 with time := { run0.time with frame := 150 }, therm := { run0.therm with throttle := false }, pwr := { run0.pwr with seqAt := none, grant := [1, 1, 1, 1], req := [1, 1, 1, 1], mv := [12000, 3300, 3300, 1800, 800] }, mem := { run0.mem with pairOk := [true, true], banks := List.replicate 9 { st := 1, logical := some 1 } }, bist := { run0.bist with running := none, lastFrame := some 149, ptr := 3 }, boot := { run0.boot with run := { run0.boot.run with params := [] } } }, by decide +kernel⟩,
   ⟨1505000009, 800, true, true, 77, { run0 with time := { run0.time with frame := 150 }, therm := { run0.therm with throttle := false }, pwr := { run0.pwr with seqAt := none, grant := [1, 1, 1, 1], req := [1, 1, 1, 1], mv := [12000, 3300, 3300, 1800, 800] }, mem := { run0.mem with pairOk := [true, false], banks := List.replicate 9 { st := 1, logical := some 1 } }, bist := { run0.bist with running := none, lastFrame := some 149, ptr := 3 }, boot := { run0.boot with run := { run0.boot.run with params := [] } } }, by decide +kernel⟩,
   ⟨1505000009, 600, true, none, { run0 with time := { run0.time with frame := 150 }, therm := { run0.therm with throttle := false }, pwr := { run0.pwr with seqAt := none, grant := [1, 1, 1, 1], req := [1, 1, 1, 1], mv := [12000, 3300, 3300, 1800, 800] }, mem := { run0.mem with pairOk := [true, true], banks := List.replicate 9 { st := 1, logical := some 1 } }, bist := { run0.bist with running := none, lastFrame := some 149, ptr := 3 }, boot := { run0.boot with run := { run0.boot.run with params := [] } } }, by decide +kernel⟩,
   ⟨1505000009, 800, true, some (true, 5), { run0 with time := { run0.time with frame := 150 }, therm := { run0.therm with throttle := true }, pwr := { run0.pwr with seqAt := none, grant := [1, 1, 1, 1], req := [1, 1, 1, 1], mv := [12000, 3300, 3300, 1800, 800] }, mem := { run0.mem with pairOk := [true, true], banks := List.replicate 9 { st := 1, logical := some 1 } }, bist := { run0.bist with running := none, lastFrame := some 149, ptr := 3 }, boot := { run0.boot with run := { run0.boot.run with params := [] } } }, by decide +kernel⟩,
   ⟨1505000009, 800, true, { run0 with time := { run0.time with frame := 150 }, therm := { run0.therm with throttle := false }, pwr := { run0.pwr with seqAt := none, grant := [1, 1, 1, 1], req := [1, 1, 1, 1], mv := [12000, 3300, 3300, 1800, 800] }, mem := { run0.mem with pairOk := [true, true], banks := List.replicate 9 { st := 1, logical := some 1 } }, bist := { run0.bist with running := none, lastFrame := some 149, ptr := 3 }, boot := { run0.boot with run := { run0.boot.run with params := [] } } }, by decide +kernel⟩,
   ⟨1505000009, 800, true, true, 77, 15, { run0 with time := { run0.time with frame := 150 }, therm := { run0.therm with throttle := false }, pwr := { run0.pwr with seqAt := none, grant := [1, 1, 1, 1], req := [1, 1, 1, 1], mv := [12000, 3300, 3300, 1800, 800] }, mem := { run0.mem with pairOk := [true, true], banks := List.replicate 9 { st := 1, logical := some 1 } }, bist := { run0.bist with running := some 15, lastFrame := some 149, ptr := 3 }, boot := { run0.boot with run := { run0.boot.run with params := [] } } }, by decide +kernel⟩,
   ⟨9, 800, true, none, { run0 with bist := { run0.bist with running := none, lastFrame := some run0.time.frame } }, by decide +kernel⟩,
   ⟨⟨run0.frameStart + 9000000, 0⟩, 7, { run0 with bist := { run0.bist with running := some 7 } }, by decide +kernel⟩,
   ⟨run0.time.now + 9, 6, inMode .service { run0 with disp := { run0.disp with strs := List.replicate 4 {} }, upd := { run0.upd with st := 0, beginFrame := none }, bist := { run0.bist with deep := none }, boot := { run0.boot with life := .returned } }, by decide +kernel⟩,
   ⟨9, 6, { run0 with boot := { run0.boot with life := .field } }, by decide +kernel⟩,
   ⟨900, 0x40, 77, 6, 800, { run0 with bist := { run0.bist with deep := some (6, 800) } }, by decide +kernel⟩,
   ⟨900, 0x40, 77, 1, 800, { run0 with bist := { run0.bist with deep := some (1, 800) } }, by decide +kernel⟩,
   ⟨900, 0x40, 77, 1, 800, { run0 with bist := { run0.bist with deep := some (1, 800) } }, by decide +kernel⟩⟩

theorem meets_Modes :
    (∃ (t : Nat) (ro : Role) (code : BitVec 8) (m : Mode) (s : State),
    s.running = true ∧ 1 ≤ code.toNat ∧ code.toNat ≤ 4 ∧ modeOfCode code.toNat = some m ∧ (engineer ro = true ∨ operator ro = true ∧ (code.toNat = 2 ∨ code.toNat = 3)) ∧ changeAdmitted s m = true) ∧
    (∃ (t : Nat) (ro : Role) (code : BitVec 8) (m : Mode) (s : State),
    s.running = true ∧ 1 ≤ code.toNat ∧ code.toNat ≤ 4 ∧ modeOfCode code.toNat = some m ∧ engineer ro = true ∧ changeAdmitted s m = false) ∧
    (∃ (s : State),
    groupLatched s = true ∧ s.boot.mode ≠ .start ∧ s.boot.mode ≠ .lockout) ∧
    (∃ (m : Mode) (f : Nat) (s : State),
    groupLatched s = false ∧ s.boot.mode ≠ .start ∧ s.boot.mode ≠ .lockout ∧ (s.boot.modeNext.filter fun p => decide (p.2 ≤ s.time.frame)).getLast? = some (m, f)) ∧
    (∃ (t : Nat) (s : State),
    (s.up = true ∨ s.boot.phase = .halted)) ∧
    (∃ (t : Nat) (gen : BitVec 32) (scv : BitVec 32) (c : Cfg) (s : State),
    s.running = true ∧ s.boot.mode = .commission ∧ confirmable s gen.toNat = some c ∧ scv.toNat = scvOf c.params) ∧
    (∃ (t : Nat) (gen : BitVec 32) (scv : BitVec 32) (s : State),
    s.running = true ∧ (s.boot.mode ≠ .commission ∨ ∀ c, confirmable s gen.toNat = some c → scv.toNat ≠ scvOf c.params)) :=
  ⟨⟨9, .engineer, 3, .operate, inMode .standby { run0 with boot := { run0.boot with life := .field } }, by decide +kernel⟩,
   ⟨9, .engineer, 4, .service, inMode .lockout { run0 with boot := { run0.boot with life := .field } }, by decide +kernel⟩,
   ⟨{ inMode .operate run0 with guard := { run0.guard with latch := [{}, {}, {}, {}, { on := true }] } }, by decide +kernel⟩,
   ⟨.service, run0.time.frame, { inMode .operate run0 with guard := { run0.guard with latch := [] }, core := { run0.core with latch := [] }, boot := { run0.boot with mode := .operate, modeNext := [(.standby, 0), (.service, run0.time.frame), (.commission, run0.time.frame + 1)] } }, by decide +kernel⟩,
   ⟨run0.time.now + 9, run0, by decide +kernel⟩,
   ⟨9, 5, BitVec.ofNat 32 (scvOf quietPar), { params := quietPar }, inMode .commission { run0 with boot := { run0.boot with comGen := 5, com := { params := quietPar } } }, by decide +kernel, by decide +kernel, by decide +kernel, scv_toNat quietPar⟩,
   ⟨9, 5, BitVec.ofNat 32 (scvOf quietPar), inMode .commission { run0 with boot := { run0.boot with comGen := 6, com := { params := quietPar } } }, by decide +kernel, by right; intro c h; cases h⟩⟩

theorem meets_StartSteps :
    (∃ (t : Nat) (resetHigh : Bool) (pfwHigh : Bool) (s : State),
    s.boot.porN = false ∧ s.pwr.vmain = true ∧ s.guard.latch.length = 5) ∧
    (∃ (t : Nat) (env : StartEnv) (s : State),
    s.boot.phase = .start ∧ s.boot.step = 1) ∧
    (∃ (t : Nat) (pfw : Bool) (env : StartEnv) (s : State),
    s.boot.phase = .start ∧ s.boot.step = 6 ∧ s.boot.haltStep = none ∧ env.ok = true ∧ max s.time.now t ≤ s.boot.stepAt + 20000000) ∧
    (∃ (t : Nat) (pfw : Bool) (env : StartEnv) (s : State),
    s.boot.phase = .start ∧ s.boot.step = 10 ∧ s.boot.haltStep = none ∧ env.ok = false) ∧
    (∃ (t : Nat) (pfw : Bool) (env : StartEnv) (s : State),
    s.boot.phase = .start ∧ s.boot.step = 3 ∧ env.ok = false ∧ s.boot.tries.length = 12 ∧ s.boot.tries.getD 2 0 + 1 < haltTries s) ∧
    (∃ (t : Nat) (pfw : Bool) (env : StartEnv) (s : State),
    s.boot.phase = .start ∧ s.boot.step = 3 ∧ env.ok = false ∧ s.boot.tries.length = 12 ∧ haltTries s ≤ s.boot.tries.getD 2 0 + 1) ∧
    (∃ (t : Nat) (pfw : Bool) (env : StartEnv) (s : State),
    s.boot.phase = .start ∧ s.boot.step = 12 ∧ env.ok = true ∧ max s.time.now t ≤ s.boot.stepAt + 10000000) ∧
    (∃ (k : Nat) (o : Int) (ts : Nat) (s : State),
    s.boot.phase = .start ∧ s.boot.step = 5 ∧ s.boot.cause ≠ 4 ∧ s.boot.prevFailed.getD 4 false = false ∧ s.time.src = none ∧ s.time.now < s.boot.stepAt + s.parN .timeStartWait * 1000000000 ∧ ts ≤ s.boot.stepAt + s.parN .timeStartWait * 1000000000 ∧ (k = 0 ∨ k = 2) ∧ (s.parN .timeSource 0 = k ∨ s.parN .timeSource 1 = k ∨ s.parN .timeSource 2 = k) ∧ s.time.prevSample.length = 3) ∧
    (∃ (s : State),
    s.boot.phase = .start ∧ s.boot.step = 5 ∧ s.boot.cause ≠ 4 ∧ s.boot.prevFailed.getD 4 false = false ∧ s.time.src = none ∧ s.time.now < s.boot.stepAt + s.parN .timeStartWait * 1000000000) ∧
    (∃ (sample : Option (Nat × Int × Nat)) (s : State),
    (s.boot.phase ≠ .start ∨ s.boot.step ≠ 5 ∨ s.boot.cause = 4 ∨ s.boot.prevFailed.getD 4 false = true ∨ s.time.src.isSome = true ∨ s.boot.stepAt + s.parN .timeStartWait * 1000000000 ≤ s.time.now)) ∧
    (∃ (t : Nat) (f : Nat) (s : State),
    s.up = true ∧ s.boot.discover = some f ∧ f ≤ s.time.frame) :=
  ⟨⟨9, false, true, { State.reset with boot := { State.reset.boot with porN := false }, pwr := { State.reset.pwr with vmain := true } }, by decide +kernel⟩,
   ⟨9, {}, startAt 1 State.reset, by decide +kernel⟩,
   ⟨State.reset.time.now + 9, true, {}, startAt 6 { State.reset with boot := { State.reset.boot with haltStep := none, stepAt := State.reset.time.now } }, by decide +kernel⟩,
   ⟨9, true, { ok := false }, startAt 10 { State.reset with boot := { State.reset.boot with haltStep := none, stepAt := State.reset.time.now } }, by decide +kernel⟩,
   ⟨9, true, { ok := false }, startAt 3 { State.reset with boot := { State.reset.boot with tries := List.replicate 12 0, runGen := 1, run := { params := [({ p := .bootHaltTries }, 3)] } } }, by decide +kernel⟩,
   ⟨9, true, { ok := false }, startAt 3 { State.reset with boot := { State.reset.boot with tries := List.replicate 12 2, runGen := 1, run := { params := [({ p := .bootHaltTries }, 3)] } } }, by decide +kernel⟩,
   ⟨State.reset.time.now + 9, true, {}, startAt 12 { State.reset with boot := { State.reset.boot with stepAt := State.reset.time.now } }, by decide +kernel⟩,
   ⟨2, -5, State.reset.boot.stepAt + 9, setPar .timeSource 2 0 2 (setPar .timeStartWait 0 0 9 ({ startAt 5 { State.reset with boot := { State.reset.boot with cause := 1, prevFailed := List.replicate 12 false } } with time := { State.reset.time with src := none, now := State.reset.boot.stepAt + 6 } })), by decide +kernel⟩,
   ⟨setPar .timeSource 2 0 2 (setPar .timeStartWait 0 0 9 ({ startAt 5 { State.reset with boot := { State.reset.boot with cause := 1, prevFailed := List.replicate 12 false } } with time := { State.reset.time with src := none, now := State.reset.boot.stepAt + 6 } })), by decide +kernel⟩,
   ⟨some (2, -5, 9), { startAt 5 { State.reset with boot := { State.reset.boot with cause := 1, prevFailed := List.replicate 12 false } } with time := { State.reset.time with src := some 1 } }, by decide +kernel⟩,
   ⟨9, run0.time.frame, (enrol 3 35 { run0 with boot := { run0.boot with discover := some run0.time.frame } }).updForg 143 fun f => { f with provisional := true }, by decide +kernel⟩⟩

theorem meets_UpdateDelivery :
    (∃ (t : Nat) (id : Nat) (seq : Nat) (man : List Byte) (sig : List Byte) (k : Nat) (x : Session) (s : State),
    admitted t id seq 0x0701 (man ++ sig) k x s ∧ engineer x.role = true ∧ manifestReason s (man ++ sig) = 0 ∧ (∀ m, s.upd.staged = some m → m.version ≠ (manifestOf (man ++ sig)).version)) ∧
    (∃ (t : Nat) (id : Nat) (seq : Nat) (man : List Byte) (sig : List Byte) (k : Nat) (x : Session) (s : State),
    admitted t id seq 0x0701 (man ++ sig) k x s ∧ engineer x.role = true ∧ manifestReason s (man ++ sig) ≠ 0) ∧
    (∃ (t : Nat) (id : Nat) (seq : Nat) (pay : List Byte) (env : FhpEnv) (k : Nat) (x : Session) (m : Manifest) (c : Nat) (s : State),
    admitted t id seq 0x0702 pay k x s ∧ engineer x.role = true ∧ s.upd.staged = some m ∧ 8 ≤ pay.length ∧ rd 4 0 pay = m.version ∧ rd 4 4 pay = c ∧ c < chunkTotal m ∧ (pay.drop 8).length = chunkLen m c ∧ c ∉ s.upd.got ∧ s.therm.flashInh = false ∧ p3Held s = false ∧ env.written = true ∧ (c / 4 ∉ s.upd.erased ∨ env.blank = true)) ∧
    (∃ (t : Nat) (s : State),
    s.running = true ∧ s.upd.staged.isSome = true ∧ activating s = false ∧ s.upd.chunkAt + s.parN .updIdleDays * 86400000000000 ≤ max s.time.now t) ∧
    (∃ (t : Nat) (m : Manifest) (s : State),
    s.running = true ∧ s.upd.staged = some m ∧ activating s = false) ∧
    (∃ (t : Nat) (s : State),
    s.running = true ∧ activating s = true) :=
  ⟨⟨9, 77, 42, signedManifest.take 320, signedManifest.drop 320, 3, sess, { online sess run0 with boot := { (online sess run0).boot with updKey := signer }, upd := { run0.upd with st := 0, staged := none, beginFrame := none, running := { run0.upd.running with version := 1 }, floor := { a := some (1, 2) } } }, by unfold admitted; decide +kernel⟩,
   ⟨9, 77, 42, manifestBytes 9 1, [], 3, sess, { online sess run0 with boot := { (online sess run0).boot with updKey := signer }, upd := { run0.upd with st := 0, staged := none, beginFrame := none, running := { run0.upd.running with version := 1 }, floor := { a := some (1, 2) } } }, by unfold admitted; decide +kernel⟩,
   ⟨9, 77, 42, toLE 4 9 ++ toLE 4 2 ++ List.replicate 1024 5, {}, 3, sess, pack, 2, p3On <| { online sess run0 with therm := { run0.therm with flashInh := false, throttle := false }, upd := { run0.upd with st := 1, staged := some pack, got := [0, 4], erased := [1] } }, by unfold admitted; decide +kernel⟩,
   ⟨99999999999999999, setPar .updIdleDays 0 0 30 { run0 with time := { run0.time with now := 9 }, upd := { run0.upd with st := 1, staged := some pack, chunkAt := 5 } }, by decide +kernel⟩,
   ⟨9, pack, { run0 with upd := { run0.upd with st := 3, staged := some pack, beginFrame := none }, links := List.replicate 4 { down := [{ id := 20, target := 63, object := 3, total := 9, bytes := 520, acked := [], progress := [] }] } }, by decide +kernel⟩,
   ⟨9, { run0 with upd := { run0.upd with st := 6 } }, by decide +kernel⟩⟩

theorem meets_UpdateActivation :
    (∃ (t : Nat) (version : BitVec 32) (m : Manifest) (s : State),
    s.running = true ∧ s.boot.mode ≠ .lockout ∧ (s.boot.mode ≠ .operate ∨ s.par .bootStartMode = 3) ∧ s.upd.staged = some m ∧ m.version = version.toNat ∧ s.upd.st = 4 ∧ s.upd.beginFrame = none ∧ s.surv.imp = none ∧ s.surv.cap = none ∧ s.therm.flashInh = false) ∧
    (∃ (t : Nat) (version : BitVec 32) (s : State),
    s.running = true ∧ (s.boot.mode = .lockout ∨ s.upd.st ≠ 4 ∨ s.surv.imp.isSome = true ∨ s.surv.cap.isSome = true ∨ s.therm.flashInh = true)) ∧
    (∃ (t : Nat) (b : Nat) (s : State),
    s.running = true ∧ s.upd.st = 4 ∧ s.upd.beginFrame = some b ∧ b ≤ s.time.frame ∧ s.time.frame + 2 < b + s.parN .updFwLead) ∧
    (∃ (t : Nat) (fa : Nat) (s : State),
    s.running = true ∧ s.upd.st = 5 ∧ s.upd.beginFrame = none ∧ s.upd.actFrame = some fa ∧ s.upd.passed = false ∧ fa ≤ s.time.frame + 2 ∧ activationReady s = false) ∧
    (∃ (t : Nat) (fa : Nat) (s : State),
    s.running = true ∧ s.upd.st = 5 ∧ s.upd.beginFrame = none ∧ s.upd.actFrame = some fa ∧ s.upd.passed = true ∧ s.upd.saved = false ∧ s.therm.flashInh = false ∧ fa = s.time.frame + 1) ∧
    (∃ (t : Nat) (fa : Nat) (s : State),
    s.running = true ∧ s.upd.st = 5 ∧ s.upd.beginFrame = none ∧ s.upd.actFrame = some fa ∧ s.upd.passed = true ∧ s.upd.saved = true ∧ fa ≤ s.time.frame) ∧
    (∃ (t : Nat) (seen : BitVec 7) (d : Nat) (s : State),
    s.running = true ∧ s.upd.st = 6 ∧ s.upd.deadline = some d ∧ t ≤ d ∧ (∀ k, 1 ≤ k → k ≤ 6 → k ∈ s.upd.up ∨ partUp (s.at_ t) seen k = true)) ∧
    (∃ (t : Nat) (seen : BitVec 7) (d : Nat) (k : Nat) (s : State),
    s.running = true ∧ s.upd.st = 6 ∧ s.upd.deadline = some d ∧ t ≤ d ∧ 1 ≤ k ∧ k ≤ 6 ∧ k ∉ s.upd.up ∧ partUp (s.at_ t) seen k = false) ∧
    (∃ (t : Nat) (d : Nat) (s : State),
    s.running = true ∧ s.upd.st = 6 ∧ s.upd.deadline = some d ∧ d < t) ∧
    (∃ (t : Nat) (d : Nat) (s : State),
    s.running = true ∧ s.upd.st = 7 ∧ s.upd.deadline = some d ∧ d < t) ∧
    (∃ (t : Nat) (n : Fin 4) (b : Fin 36) (s : State),
    s.running = true ∧ s.forgs.length = 144 ∧ (s.upd.st = 3 ∨ s.upd.st = 4) ∧ (s.forg (brickInst n.val b.val)).staging = 0 ∧ s.parN .updForagerTries ≤ (s.forg (brickInst n.val b.val)).stageTries) :=
  ⟨⟨9, 9, pack, inMode .standby { run0 with upd := { run0.upd with st := 4, staged := some pack, beginFrame := none }, surv := { run0.surv with imp := none, cap := none }, therm := { run0.therm with flashInh := false } }, by decide +kernel⟩,
   ⟨9, 9, inMode .lockout run0, by decide +kernel⟩,
   ⟨9, 50, setPar .updFwLead 0 0 500 (linked (enrol 3 35 { run0 with time := { run0.time with frame := 51 }, upd := { run0.upd with st := 4, beginFrame := some 50, staged := some pack } })), by decide +kernel⟩,
   ⟨9, 500, { enrol 3 35 run0 with time := { run0.time with frame := 499 }, upd := { run0.upd with st := 5, beginFrame := none, actFrame := some 500, passed := false }, disp := { run0.disp with strs := List.replicate 4 { conn := 5 } } }, by decide +kernel⟩,
   ⟨9, 500, { enrol 3 35 run0 with time := { run0.time with frame := 499 }, upd := { run0.upd with st := 5, beginFrame := none, actFrame := some 500, passed := true, saved := false } }, by decide +kernel⟩,
   ⟨9, 500, { enrol 3 35 run0 with time := { run0.time with frame := 500 }, upd := { run0.upd with st := 5, beginFrame := none, actFrame := some 500, passed := true, saved := true } }, by decide +kernel⟩,
   ⟨9, 0x7F, 9999, confirming, by decide +kernel, by decide +kernel, by decide +kernel, by decide +kernel, upOk⟩,
   ⟨9, 0x77, 9999, 3, { run0 with upd := { run0.upd with st := 6, deadline := some 9999, up := [1, 2] } }, by decide +kernel⟩,
   ⟨10000, 9999, { run0 with upd := { run0.upd with st := 6, deadline := some 9999, up := [1, 2] } }, by decide +kernel⟩,
   ⟨10000, 9999, { run0 with upd := { run0.upd with st := 7, deadline := some 9999, up := [1, 2] } }, by decide +kernel⟩,
   ⟨9, 3, 35, setPar .updForagerTries 0 0 3 ({ run0 with upd := { run0.upd with st := 3 } }.updForg 143 fun f => { f with staging := 0, stageTries := 3 }), by decide +kernel⟩⟩

theorem meets_SecurityFloor :
    (∃ (c : Instr) (s : State) (t : State),
    exec c s = .next t) ∧
    (∃ (s : State) (pay : List Byte),
    (manifestOf pay).level < floorOf s) :=
  ⟨⟨.updateConfirmation 9 0x7F, confirming, match exec (.updateConfirmation 9 0x7F) confirming with | .next r => r | _ => run0, rfl⟩,
   ⟨{ run0 with upd := { run0.upd with floor := { a := some (1, 4), b := some (1, 4) } } }, manifestBytes 9 3, by decide +kernel⟩⟩

theorem meets_PowerSupplies :
    (∃ (t : Nat) (mv : List Nat) (input : Nat) (dom : List Nat) (s : State),
    s.up = true ∧ s.roundPos = 0 ∧ s.frameStart + 7000000 ≤ t ∧ t ≤ s.frameStart + 7500000) ∧
    (∃ (t : Nat) (step6 : Bool) (s : State),
    s.running = true ∧ s.pwr.seqAt = none ∧ s.boot.commit = none) ∧
    (∃ (t : Nat) (c : CommitRun) (s : State),
    s.running = true ∧ s.pwr.seqAt = none ∧ s.boot.commit = some c) ∧
    (∃ (t : Nat) (c : CommitRun) (s : State),
    s.running = true ∧ s.pwr.seqAt = none ∧ s.boot.commit = some c) ∧
    (∃ (t : Nat) (high : Bool) (vmain : BitVec 16) (a : Nat) (s : State),
    s.pwr.seqAt = some a ∧ a + 13990000 ≤ max s.time.now t) ∧
    (∃ (t : Nat) (s : State),
    s.pwr.vmain = true ∧ s.boot.porN = true) ∧
    (∃ (s : State),
    s.pwr.vmain = false ∧ s.boot.porN = true) :=
  ⟨⟨1007000009, [1, 2, 3], 5000, [1, 2], { run0 with time := { run0.time with frame := 100 } }, by decide +kernel⟩,
   ⟨run0.time.now + 9, true, { run0 with pwr := { run0.pwr with seqAt := none }, boot := { run0.boot with commit := none } }, by decide +kernel⟩,
   ⟨9, commitRun, { run0 with pwr := { run0.pwr with seqAt := none }, boot := { run0.boot with commit := some commitRun } }, by decide +kernel⟩,
   ⟨9, commitRun, { run0 with pwr := { run0.pwr with seqAt := none }, boot := { run0.boot with commit := some commitRun } }, by decide +kernel⟩,
   ⟨13990009, true, 12000, 9, { State.reset with pwr := { run0.pwr with seqAt := some 9 } }, by decide +kernel⟩,
   ⟨9, { State.reset with pwr := { State.reset.pwr with vmain := true }, boot := { State.reset.boot with porN := true } }, by decide +kernel⟩,
   ⟨{ State.reset with pwr := { State.reset.pwr with vmain := false }, boot := { State.reset.boot with porN := true } }, by decide +kernel⟩⟩

theorem meets_StepRunsFrontCommand :
    (∃ (c : Instr) (rest : List Instr) (s : State),
    s.pending = c :: rest) :=
  ⟨.syncInEdge ⟨7, 200⟩, [.ppsInEdge ⟨8, 200⟩], { run0 with pending := [.syncInEdge ⟨7, 200⟩, .ppsInEdge ⟨8, 200⟩] }, by decide +kernel⟩

theorem meets_EmptyQueueIdles :
    (∃ (s : State),
    s.pending = [] ∧ s.can.ports.length = 2) :=
  ⟨{ portIs 1 { tx := [{ id := 5, kind := 2, data := [1], at_ := 4, tag := 1 }, { id := 5, kind := 2, data := [1], at_ := 4, tag := 0 }] } run0 with pending := [] }, by decide +kernel⟩

theorem meets_TimeNeverBack :
    (∃ (c : Instr) (s : State) (t : State),
    exec c s = .next t ∧ (∀ x, c ≠ .startTimeAcquisition x) ∧ c ≠ .vmainReturn) :=
  ⟨.syncInEdge ⟨9, 200⟩, run0, match exec (.syncInEdge ⟨9, 200⟩) run0 with | .next r => r | _ => run0, rfl, (fun _ h => nomatch h), (fun h => nomatch h)⟩

theorem meets_ParameterNames :
    (∃ (k : ParamKey),
    k.ok = true) :=
  ⟨{ p := .timeSource, i := 2 }, by decide +kernel⟩

end Sys2Proof.Tests
end

section
/-!
PROOF. GuardReset: a valid press on RESET_N (R332). It clears the latches set before the fall whose hazard is absent; the evaluation of the
Guard that follows keeps a latch that is set, and sets none whose hazard is absent, so that what the press cleared stays clear.
-/
namespace Sys2Proof.Machine

/-! ### The stage and the latch leave the reset input alone -/

/-- The stage of one string changes of the Guard only its outputs and the times that follow them. -/
theorem stage_guard (n : Nat) (s : State) : ∃ gate ctr low diff,
    (stage n s).guard = { s.guard with gate := gate, ctr := ctr, gateLowAt := low, cfbDiff := diff } :=
  ⟨_, _, _, _, rfl⟩

/-- A component of the Guard that every step of a loop keeps is kept by the loop. -/
theorem forEach_guard_eq {α β : Type} (p : Guard → β) {f : α → State → State} (hf : ∀ a s, p (f a s).guard = p s.guard) (l : List α) (s : State) :
    p (forEach l f s).guard = p s.guard := by
  induction l generalizing s with
  | nil => rfl
  | cons a l ih => exact (ih (f a s)).trans (hf a s)

/-- A component of the Guard that does not see the outputs is kept by the stage of all strings. -/
theorem stageAll_guard_eq {β : Type} (p : Guard → β) (hp : ∀ g gate ctr low diff, p { g with gate := gate, ctr := ctr, gateLowAt := low, cfbDiff := diff } = p g)
    (s : State) : p (stageAll s).guard = p s.guard :=
  forEach_guard_eq p (fun n s => by obtain ⟨_, _, _, _, h⟩ := stage_guard n s; rw [h, hp]) _ s

@[simp] theorem stageAll_latch (s : State) : (stageAll s).guard.latch = s.guard.latch := stageAll_guard_eq Guard.latch (fun _ _ _ _ _ => rfl) s

@[simp] theorem setGLatch_latch (k : Nat) (c : BitVec 32) (s : State) :
    (setGLatch k c s).guard.latch = updAt s.guard.latch k fun l => if l.on then l else { on := true, setAt := s.time.now } := rfl

/-- A latch that is set keeps its first time, and the latch of another scope is not touched (R321). -/
theorem setGLatch_keeps_latch {k m : Nat} (c : BitVec 32) (s : State) (h : k ≠ m ∨ (s.guard.latch.getD m {}).on = true) :
    (setGLatch k c s).guard.latch.getD m {} = s.guard.latch.getD m {} := by
  simp only [setGLatch_latch, updAt, List.getD_eq_getElem?_getD, List.getElem?_modify] at h ⊢
  cases hl : s.guard.latch[m]? with
  | none => rfl
  | some l =>
    rw [hl] at h
    obtain hkm | hon := h
    · simp [hkm]
    · have hset : l.on = true := hon
      simp [hset]

/-- A loop that latches the scopes for which it is due keeps a latch that is set and one that is not due. -/
theorem forEach_setGLatch_keeps_latch {due : Nat → Bool} (causes : Nat → BitVec 32) {m : Nat} (l : List Nat) (s : State)
    (h : (s.guard.latch.getD m {}).on = true ∨ due m = false) :
    (forEach l (fun k s => if due k then setGLatch k (causes k) s else s) s).guard.latch.getD m {} = s.guard.latch.getD m {} := by
  induction l generalizing s with
  | nil => rfl
  | cons k l ih =>
    have hk : (if due k then setGLatch k (causes k) s else s).guard.latch.getD m {} = s.guard.latch.getD m {} := by
      split
      · next hdue => exact setGLatch_keeps_latch _ _ (h.symm.imp_left fun hm hkm => by simp [← hkm, hdue] at hm)
      · rfl
    exact (ih _ (hk.symm ▸ h)).trans hk

/-! ### What the Guard's judgement of its hazards keeps -/

/-- The Guard's judgement keeps a latch that is set, and the latch of a scope with no hazard (R317, R321). -/
theorem guardEval_keeps_latch {m : Nat} (s : State) (h : (s.guard.latch.getD m {}).on = true ∨ (guardHazards s).getD m 0 = 0) :
    (guardEval s).guard.latch.getD m {} = s.guard.latch.getD m {} := by
  unfold guardEval
  split
  · rfl
  · rw [stageAll_latch]
    exact forEach_setGLatch_keeps_latch _ _ s (h.imp_right fun h0 => by simp only [h0]; simp)

/-- A component of the Guard that sees neither latches nor grants nor outputs is kept by the Guard's judgement. -/
theorem guardEval_guard_eq {β : Type} (p : Guard → β)
    (hp : ∀ g latch sticky, p { g with latch := latch, sticky := sticky } = p g)
    (hg : ∀ g hazards granted, p { g with hazards := hazards, granted := granted } = p g)
    (ho : ∀ g gate ctr low diff, p { g with gate := gate, ctr := ctr, gateLowAt := low, cfbDiff := diff } = p g)
    (s : State) : p (guardEval s).guard = p s.guard := by
  unfold guardEval
  split
  · rfl
  · rw [stageAll_guard_eq p ho, State.modGuard_guard, hg]
    refine forEach_guard_eq p (fun k s => ?_) _ s
    split
    · exact hp ..
    · rfl

@[simp] theorem guardEval_press (s : State) : (guardEval s).guard.press = s.guard.press :=
  guardEval_guard_eq Guard.press (fun _ _ _ => rfl) (fun _ _ _ => rfl) (fun _ _ _ _ _ => rfl) s
@[simp] theorem guardEval_tF (s : State) : (guardEval s).guard.tF = s.guard.tF :=
  guardEval_guard_eq Guard.tF (fun _ _ _ => rfl) (fun _ _ _ => rfl) (fun _ _ _ _ _ => rfl) s
@[simp] theorem guardEval_resetHigh (s : State) : (guardEval s).guard.resetHigh = s.guard.resetHigh :=
  guardEval_guard_eq Guard.resetHigh (fun _ _ _ => rfl) (fun _ _ _ => rfl) (fun _ _ _ _ _ => rfl) s

/-! ### The press -/

/-- No hazard of the Guard depends on its latches. -/
@[simp] theorem guardHazards_pressClears (f : Nat) (s : State) : guardHazards (pressClears f s) = guardHazards s := rfl
@[simp] theorem pressClears_press (f : Nat) (s : State) : (pressClears f s).guard.press = s.guard.press := rfl
@[simp] theorem pressClears_tF (f : Nat) (s : State) : (pressClears f s).guard.tF = s.guard.tF := rfl
@[simp] theorem pressClears_resetHigh (f : Nat) (s : State) : (pressClears f s).guard.resetHigh = s.guard.resetHigh := rfl

theorem pressClears_latch_getD (f k : Nat) (s : State) :
    (pressClears f s).guard.latch.getD k {} =
      if (s.guard.latch.getD k {}).on = true ∧ (s.guard.latch.getD k {}).setAt < f ∧ (guardHazards s).getD k 0 = 0 then {} else s.guard.latch.getD k {} := by
  simp only [pressClears, State.modGuard_guard, List.getD_eq_getElem?_getD, List.getElem?_mapIdx]
  cases s.guard.latch[k]? <;> simp [and_assoc]

/-- A press clears a latch that is set exactly when it was set before the fall and its hazard is absent, and the judgement that follows leaves it so (R332). -/
theorem guardEval_pressClears_latch_off {f k : Nat} {s : State} (hon : (s.guard.latch.getD k {}).on = true) :
    ((guardEval (pressClears f s)).guard.latch.getD k {}).on = false ↔ (s.guard.latch.getD k {}).setAt < f ∧ (guardHazards s).getD k 0 = 0 := by
  have hp := pressClears_latch_getD f k s
  by_cases hc : (s.guard.latch.getD k {}).setAt < f ∧ (guardHazards s).getD k 0 = 0
  · have hclear : (pressClears f s).guard.latch.getD k {} = {} := hp.trans (if_pos ⟨hon, hc⟩)
    have hjudge := guardEval_keeps_latch (m := k) (pressClears f s) (.inr (by rw [guardHazards_pressClears, hc.2]))
    simp only [hjudge, hclear, hc, and_self]
  · have hkeep : (pressClears f s).guard.latch.getD k {} = s.guard.latch.getD k {} := hp.trans (if_neg fun h => hc h.2)
    have hjudge := guardEval_keeps_latch (m := k) (pressClears f s) (.inl (by rw [hkeep, hon]))
    simp only [hjudge, hkeep, hon, hc, Bool.true_eq_false]

/-- The Guard notes a press from fall to rise, RESET_N being high again (R331, R332). -/
def notePress (f tr : Nat) (s : State) : State :=
  s.modGuard fun g => { g with resetHigh := true, resetAt := tr, tF := none, press := some (f, tr) }

@[simp] theorem notePress_latch (f tr : Nat) (s : State) : (notePress f tr s).guard.latch = s.guard.latch := rfl
@[simp] theorem guardHazards_notePress (f tr : Nat) (s : State) : guardHazards (notePress f tr s) = guardHazards s := rfl

/-- A rise 0.2 s to 5 s after the fall, held for 20 ms, is a valid press: noted, then applied to the latches, then judged (R331, R332). -/
theorem exec_resetNRise_valid {t tr f : Nat} {s : State} (hup : guardUp s = true) (hstuck : s.guard.stuck = false) (hf : s.guard.tF = some f)
    (hmin : f + 200000000 ≤ tr) (hmax : tr ≤ f + 5000000000) (hheld : tr + 20000000 ≤ t) :
    exec (.resetNRise t tr) s = .next (guardEval (pressClears f (notePress f tr (s.at_ t)))) := by
  have hup' : guardUp (s.at_ t) = true := hup
  show execResetNRise t tr s = _
  simp [execResetNRise, guardDo, hup', hf, hstuck, Nat.not_lt.2 hmin, hmax, Nat.not_lt.2 hheld, notePress, State.modGuard]

theorem keepsBut_notePress (f tr : Nat) (r s : State) {ps : List Piece} (h : Piece.guard ∈ ps) : keepsBut ps r (notePress f tr s) ↔ keepsBut ps r s :=
  keepsBut_modGuard h r s _

/-- Settles O29: the press clears in `pressClears`, and the judgement that follows it neither clears a latch nor sets one without a hazard. -/
theorem guardReset : Obligations.GuardReset := by
  intro t tr f s hup hstuck hf hmin hmax hheld _
  refine ⟨_, exec_resetNRise_valid hup hstuck hf hmin hmax hheld, ?_, ?_, ?_, fun k _ hon => ?_, ?_⟩
  · simp [notePress]
  · simp [notePress]
  · simp [notePress]
  · have hoff := guardEval_pressClears_latch_off (f := f) (k := k) (s := notePress f tr (s.at_ t)) hon
    rwa [guardHazards_notePress, notePress_latch, at_guard] at hoff
  · rw [keepsBut_guardEval (by decide), keepsBut_pressClears (by decide), keepsBut_notePress _ _ _ _ (by decide), keepsBut_at_ (by decide)]
    exact keepsBut_refl _ _

end Sys2Proof.Machine
end

section
/-!
PROOF. PpsOut: the level of PPS_OUT after unit 7 fires (R374). The firing itself changes the compare units only, so what unit 7 then drives
is judged by the parameters and the synchronisation the command found.
-/
namespace Sys2Proof.Machine

/-! ### What the firing of a unit leaves as it was -/

/-- A unit that fires changes of the state only the compare units (R370, R371). -/
theorem fireUnit_eq_modTime_compare (u : Nat) (s : State) : ∃ units, fireUnit u s = s.modTime fun x => { x with compare := units } := by
  unfold fireUnit
  split
  · exact ⟨_, rfl⟩
  · exact ⟨s.time.compare, rfl⟩

@[simp] theorem fireUnit_synced (u : Nat) (s : State) : (fireUnit u s).time.synced = s.time.synced := by
  obtain ⟨_, h⟩ := fireUnit_eq_modTime_compare u s
  rw [h, State.modTime_time]

@[simp] theorem fireUnit_boot (u : Nat) (s : State) : (fireUnit u s).boot = s.boot := by
  obtain ⟨_, h⟩ := fireUnit_eq_modTime_compare u s
  rw [h, State.modTime_boot]

@[simp] theorem fireUnit_up (u : Nat) (s : State) : (fireUnit u s).up = s.up := by simp only [State.up, fireUnit_boot]
@[simp] theorem fireUnit_parN (u : Nat) (s : State) (p : PName) (i j : Nat) : (fireUnit u s).parN p i j = s.parN p i j := by
  simp only [State.parN, State.par, fireUnit_boot]
@[simp] theorem fireUnit_parB (u : Nat) (s : State) (p : PName) (i j : Nat) : (fireUnit u s).parB p i j = s.parB p i j := by
  simp only [State.parB, State.par, fireUnit_boot]

/-! ### The level of PPS_OUT -/

/-- While module time is not synchronised PPS_OUT is low, whatever pulse was under way (R374). -/
theorem ppsLevel_of_not_synced {s : State} (h : s.time.synced = false) (u : Nat) : ppsLevel s u = false := by
  simp only [ppsLevel, h, Bool.false_and]

theorem driveUnit_seven (t : Nat) (s : State) : driveUnit 7 t s =
    s.modTime fun x => { x with ppsOut := if s.parB .timePpsOut && s.time.synced then some (t + s.parN .timePpsWidth * 1000) else none } := rfl

/-- Unit 7 raises PPS_OUT for time.pps.width, if it is enabled and module time is synchronised, and else holds it low (R374). -/
theorem ppsLevel_driveUnit_seven (t u : Nat) (s : State) :
    ppsLevel (driveUnit 7 t s) u = (s.time.synced && s.parB .timePpsOut && decide (u < t + s.parN .timePpsWidth * 1000)) := by
  simp only [ppsLevel, driveUnit_seven, State.modTime_time]
  cases s.time.synced
  · rfl
  · cases s.parB .timePpsOut <;> rfl

/-- At a whole second PPS_OUT fires unit 7, which then drives the land (R374). -/
theorem exec_ppsOut_wholeSecond {t : Nat} {s : State} (hup : s.up = true) (ht : t % 1000000000 = 0) :
    exec (.ppsOut t) s = .next (driveUnit 7 t (fireUnit 7 (s.at_ t))) := by
  show execPpsOut t s = _
  simp [execPpsOut, hup, ht]

/-- At a whole second the command leaves PPS_OUT at the level unit 7 gives it, by the state the command found, and changes nothing but time (R374). -/
theorem ppsOut_completes {t : Nat} {s : State} (hup : s.up = true) (ht : t % 1000000000 = 0) :
    Completes (.ppsOut t) s fun r =>
      (∀ u, ppsLevel r u = (s.time.synced && s.parB .timePpsOut && decide (u < t + s.parN .timePpsWidth * 1000))) ∧ keepsBut [.time] s r := by
  refine ⟨_, exec_ppsOut_wholeSecond hup ht, fun u => ?_, ?_⟩
  · simp [ppsLevel_driveUnit_seven]
  · rw [keepsBut_driveUnit (by decide), keepsBut_fireUnit (by decide), keepsBut_at_ (by decide)]
    exact keepsBut_refl _ _

/-- Settles O3: unit 7 alone sets the pulse, and it sets one only while PPS_OUT is enabled and module time is synchronised. -/
theorem ppsOut : Obligations.PpsOut := by
  refine ⟨fun t s hup ht hout hsync => ?_, fun t s hup ht hlow => ?_, fun s u hsync => ppsLevel_of_not_synced hsync u⟩
  · obtain ⟨r, hr, hlevel, hkeep⟩ := ppsOut_completes hup ht
    exact ⟨r, hr, fun u _ => by rw [hlevel, hout, hsync, Bool.true_and, Bool.true_and], hkeep⟩
  · obtain ⟨r, hr, hlevel, hkeep⟩ := ppsOut_completes hup ht
    have hoff : (s.time.synced && s.parB .timePpsOut) = false := by
      obtain hout | hsync := hlow
      · rw [hout, Bool.and_false]
      · rw [hsync, Bool.false_and]
    exact ⟨r, hr, fun u => by rw [hlevel, hoff, Bool.false_and], hkeep⟩

end Sys2Proof.Machine
end

section
/-!
PROOF. SecurityFloor: the security floor never falls (R555). The commands that may change the update at all are few; each of them but the
confirmation leaves both copies of the floor as they are, because every operation it is made of does, and the confirmation writes them only to
raise the floor.
-/
namespace Sys2Proof.Machine

/-! ### The update among the parts of the state -/

/-- Every part of the state but the update's. -/
def notUpd : List Piece := .pending :: allBut [.upd]

/-- An operation under which only other parts change keeps the update. -/
theorem upd_eq_of_keepsBut {s t : State} (h : keepsBut notUpd s t) : t.upd = s.upd := h .upd (by decide)

@[simp] theorem keepsBut_forEach_iff {α : Type} {ps : List Piece} {f : α → State → State} (hf : ∀ a s, keepsBut ps s (f a s)) (l : List α) (r s : State) :
    keepsBut ps r (forEach l f s) ↔ keepsBut ps r s :=
  keepsBut_peel (keepsBut_forEach l f hf s) (List.Subset.refl ps)

theorem ite_floor {c : Prop} [Decidable c] {s t : State} {p : Pair Nat} (hs : s.upd.floor = p) (ht : t.upd.floor = p) : (if c then s else t).upd.floor = p := by
  split <;> assumption

@[simp] theorem ite_upd_floor (c : Prop) [Decidable c] (s t : State) : (if c then s else t).upd.floor = if c then s.upd.floor else t.upd.floor :=
  apply_ite (fun s : State => s.upd.floor) c s t

@[simp] theorem ite_fst_upd_floor {β : Type} (c : Prop) [Decidable c] (x y : State × β) :
    (if c then x else y).1.upd.floor = if c then x.1.upd.floor else y.1.upd.floor := apply_ite (fun x : State × β => x.1.upd.floor) c x y

theorem forEach_floor {α : Type} {f : α → State → State} (hf : ∀ a s, (f a s).upd.floor = s.upd.floor) (l : List α) (s : State) :
    (forEach l f s).upd.floor = s.upd.floor := by
  induction l generalizing s with
  | nil => rfl
  | cons a l ih => exact (ih (f a s)).trans (hf a s)

/-! ### Operations that keep the update -/

@[simp] theorem clearAll_upd (c : Nat) (s : State) : (s.clearAll c).upd = s.upd := upd_eq_of_keepsBut (by simp +decide)
@[simp] theorem updForg_upd (j : Nat) (f : Forager → Forager) (s : State) : (s.updForg j f).upd = s.upd := upd_eq_of_keepsBut (by simp +decide)
@[simp] theorem queueCmd_upd (n id target : Nat) (ps : List Nat) (s : State) : (queueCmd n id target ps s).upd = s.upd := upd_eq_of_keepsBut (by simp +decide)
@[simp] theorem openDown_upd (n target bytes : Nat) (s : State) : (openDown n target bytes s).upd = s.upd := upd_eq_of_keepsBut (by simp +decide)
@[simp] theorem broadcastImage_upd (v f : Nat) (s : State) : (broadcastImage v f s).upd = s.upd := upd_eq_of_keepsBut (by simp +decide)
@[simp] theorem disconnectAll_upd (s : State) : (disconnectAll s).upd = s.upd := upd_eq_of_keepsBut (by simp +decide)
@[simp] theorem reconnectNoted_upd (ok : Nat → Bool) (s : State) : (reconnectNoted ok s).upd = s.upd := upd_eq_of_keepsBut (by simp +decide)
@[simp] theorem writeAll_upd (cause : Nat) (s : State) : (writeAll cause s).upd = s.upd := upd_eq_of_keepsBut (by simp +decide)
@[simp] theorem updJournal_upd (f : Journal → Journal) (s : State) : (updJournal f s).upd = s.upd := upd_eq_of_keepsBut (by simp +decide)
@[simp] theorem stageAll_upd (s : State) : (stageAll s).upd = s.upd := upd_eq_of_keepsBut (by simp +decide)
@[simp] theorem returnForagers_upd (frame : Nat) (s : State) : (returnForagers frame s).upd = s.upd := upd_eq_of_keepsBut (by simp +decide)

/-! ### Resets -/

/-- A reset of the main die keeps the floor, which stands in MRAM (R515, R555). -/
@[simp] theorem mainReset_floor (p : Phase) (cause : Nat) (s : State) : (mainReset p cause s).upd.floor = s.upd.floor := rfl

@[simp] theorem restartModule_floor (cause : Nat) (s : State) : (restartModule cause s).upd.floor = s.upd.floor := by
  have hclose : (forEach (List.range 8) closeSession s).upd = s.upd := upd_eq_of_keepsBut (by simp +decide)
  simp [restartModule, State.send, hclose]

/-! ### Delivery and staging -/

@[simp] theorem judgeStaged_floor (s : State) : (judgeStaged s).upd.floor = s.upd.floor := by
  unfold judgeStaged
  split <;> simp

@[simp] theorem stagingRecord_floor (j : Nat) (d : Diag) (s : State) : (stagingRecord j d s).upd.floor = s.upd.floor := by
  unfold stagingRecord
  repeat' split
  all_goals simp

@[simp] theorem diagRecord_floor (n b : Nat) (bytes : List Byte) (s : State) : (diagRecord n b bytes s).upd.floor = s.upd.floor := by
  unfold diagRecord
  extract_lets j d restarted s1 s2 s3
  rw [stagingRecord_floor, upd_eq_of_keepsBut (s := s) (t := s3) (by simp +decide [s3, s2, s1])]

@[simp] theorem discardStaging_floor (s : State) : (discardStaging s).upd.floor = s.upd.floor := by
  unfold discardStaging
  extract_lets s1 s2
  have h1 : s1.upd = s.upd := upd_eq_of_keepsBut (keepsBut_forEach _ _ (fun n s => by simp +decide) s)
  simp [s2, h1]

@[simp] theorem opUpdBegin_floor (pay : List Byte) (s : State) : (opUpdBegin pay s).1.upd.floor = s.upd.floor := by
  unfold opUpdBegin
  extract_lets r m reply
  repeat' split
  all_goals simp [reply, opOk, opFail]

@[simp] theorem beginStaging_floor (s : State) : (beginStaging s).upd.floor = s.upd.floor := by
  simp only [beginStaging, judgeStaged_floor]
  rw [forEach_floor (by simp), forEach_floor (by simp), State.modUpd_upd]

@[simp] theorem verifyPackage_floor (s : State) : (verifyPackage s).upd.floor = s.upd.floor := by
  unfold verifyPackage
  split
  · rfl
  · simp only [ite_upd_floor]
    rw [forEach_floor (by simp)]
    simp

@[simp] theorem opUpdChunk_floor (pay : List Byte) (env : FhpEnv) (s : State) : (opUpdChunk pay env s).1.upd.floor = s.upd.floor := by
  unfold opUpdChunk
  split
  · rfl
  · simp [opOk, opFail, apply_ite UpdState.floor]

@[simp] theorem cmdAbortUpdate_floor (s : State) : (cmdAbortUpdate s).1.upd.floor = s.upd.floor := by
  unfold cmdAbortUpdate
  repeat' split
  all_goals simp [refuse, accept]

@[simp] theorem stagingFrame_floor (s : State) : (stagingFrame s).upd.floor = s.upd.floor := by
  unfold stagingFrame
  extract_lets s1
  have h1 : s1.upd = s.upd := rfl
  split
  · rw [h1]
  · rw [forEach_floor (fun j s => ?_), h1]
    repeat' split
    all_goals simp

/-! ### Activation -/

@[simp] theorem cmdActivateUpdate_floor (version t : Nat) (s : State) : (cmdActivateUpdate version t s).1.upd.floor = s.upd.floor := by
  unfold cmdActivateUpdate
  extract_lets names
  repeat' split
  all_goals simp [refuse, accept, answer]

@[simp] theorem beginActivation_floor (f : Nat) (s : State) : (beginActivation f s).upd.floor = s.upd.floor := by
  simp [beginActivation]

@[simp] theorem cancelActivation_floor (s : State) : (cancelActivation s).upd.floor = s.upd.floor := by
  simp [cancelActivation]

@[simp] theorem saveForRestart_floor (s : State) : (saveForRestart s).upd.floor = s.upd.floor := by
  simp [saveForRestart]

/-- An activation and the return of a roll-back name a slot and begin a restart; the floor is for the confirmation to raise (R549, R555). -/
@[simp] theorem activationFrame_floor (s : State) : (activationFrame s).upd.floor = s.upd.floor := by
  unfold activationFrame
  extract_lets f s0
  have h0 : s0.upd.floor = s.upd.floor := by
    unfold s0
    repeat' split
    all_goals simp
  clear_value s0
  split
  · exact h0
  · simp [h0, apply_ite UpdState.floor]

/-! ### Start -/

@[simp] theorem trialFailed_floor (s : State) : (trialFailed s).upd.floor = s.upd.floor := by
  unfold trialFailed
  repeat' split
  all_goals simp

@[simp] theorem loadSlot_floor (other : Bool) (s : State) : (loadSlot other s).upd.floor = s.upd.floor := by
  unfold loadSlot
  repeat' split
  all_goals simp

@[simp] theorem openJournal_floor (s : State) : (openJournal s).upd.floor = s.upd.floor := by
  unfold openJournal
  extract_lets prev failed begun counted aside s1 s2 halts s3 r3 s4 s5 entry
  have h4 : s4.upd = s.upd := upd_eq_of_keepsBut (by simp +decide [s4, r3, s3, s2, s1])
  simp [s5, h4]

@[simp] theorem stepFirmware_floor (slotOk : Bool) (s : State) : (stepFirmware slotOk s).1.upd.floor = s.upd.floor := by
  simp [stepFirmware, setDomain]

@[simp] theorem stepMode_floor (s : State) : (stepMode s).1.upd.floor = s.upd.floor := by
  unfold stepMode
  extract_lets m bits s0 s1 s2 s3 s4 s5
  have h2 : s2.upd = s.upd := upd_eq_of_keepsBut (by simp +decide [s2, s1, s0])
  simp [s5, s4, s3, h2]

@[simp] theorem stepConfig_upd (s : State) : (stepConfig s).1.upd = s.upd := upd_eq_of_keepsBut (by simp +decide)
@[simp] theorem stepNetwork_upd (ok : Bool) (place : Nat) (s : State) : (stepNetwork ok place s).1.upd = s.upd := upd_eq_of_keepsBut (by simp +decide)
@[simp] theorem stepTimeWait_upd (s : State) : (stepTimeWait s).1.upd = s.upd := upd_eq_of_keepsBut (by simp +decide)
@[simp] theorem stepSafety_upd (s : State) : (stepSafety s).1.upd = s.upd := upd_eq_of_keepsBut (by simp +decide)
@[simp] theorem stepLearned_upd (s : State) : (stepLearned s).1.upd = s.upd := upd_eq_of_keepsBut (by simp +decide)
@[simp] theorem endDiscovery_upd (s : State) : (endDiscovery s).upd = s.upd := upd_eq_of_keepsBut (by simp +decide)
@[simp] theorem stepProgram_upd (s : State) : (stepProgram s).1.upd = s.upd := upd_eq_of_keepsBut (by simp +decide)
@[simp] theorem stepRecorder_upd (s : State) : (stepRecorder s).1.upd = s.upd := upd_eq_of_keepsBut (by simp +decide)

/-- Of the steps of Start only the first, the second and the last write the update, and none its floor (Table 19-7). -/
@[simp] theorem doStep_floor (k : Nat) (env : StartEnv) (s : State) : (doStep k env s).1.upd.floor = s.upd.floor := by
  have harm (s : State) : (forEach (List.range 24) armUnit s).upd = s.upd := upd_eq_of_keepsBut (by simp +decide)
  simp [doStep, harm]

@[simp] theorem failStart_floor (k detail : Nat) (s : State) : (failStart k detail s).upd.floor = s.upd.floor := by
  have hhalt (k : Nat) (s : State) : (haltStart k s).upd = s.upd := upd_eq_of_keepsBut (by simp +decide)
  have hnote (k detail : Nat) (s : State) : (noteRestart k detail s).upd = s.upd := upd_eq_of_keepsBut (by simp +decide)
  simp [failStart, hhalt, hnote]

/-! ### Requests of a host -/

/-- Activate update and Abort update are the commands of a host that write the update (Table 14-7). -/
theorem runCommand_upd {code : Nat} (h : code ∉ [0x0901, 0x0902]) (x : Session) (t target : Nat) (a : List Byte) (s : State) :
    (runCommand x t code target a s).1.upd = s.upd := by
  apply upd_eq_of_keepsBut
  unfold runCommand
  extract_lets eng op form mdl strs isStr each any
  have hform (role ok : Bool) (len : Nat) (f : State → CmdOut) (hf : ∀ s, keepsBut notUpd s (f s).1) : keepsBut notUpd s (form role ok len f).1 := by
    simp only [form]
    repeat' split
    · exact keepsBut_refl _ _
    · exact keepsBut_refl _ _
    · exact keepsBut_refl _ _
    · exact hf s
  have hmdl (role : Bool) (len : Nat) (f : State → CmdOut) (hf : ∀ s, keepsBut notUpd s (f s).1) : keepsBut notUpd s (mdl role len f).1 := hform role _ len f hf
  have heach (role : Bool) (len : Nat) (f : Nat → State → CmdOut) (hf : ∀ n s, keepsBut notUpd s (f n s).1) : keepsBut notUpd s (each role len f).1 := by
    refine hform role _ len _ fun s => keepsBut_foldl_fst_of (fun acc n => ?_) (keepsBut_refl _ _)
    split
    · exact hf n acc.1
    · exact hf n acc.1
  have hany (f : State → Bool) (g : State → CmdOut) (hg : ∀ s, keepsBut notUpd s (g s).1) : keepsBut notUpd s (any f g).1 :=
    hform eng _ 0 _ fun s => keepsBut_ite_fst_of (hg s) (keepsBut_refl _ _)
  clear_value form mdl each any
  split
  all_goals simp +decide [hmdl, heach, hany, hform, apply_ite Prod.fst] at h ⊢

@[simp] theorem runCommand_floor (x : Session) (t code target : Nat) (a : List Byte) (s : State) : (runCommand x t code target a s).1.upd.floor = s.upd.floor := by
  by_cases h : code ∈ [0x0901, 0x0902]
  · obtain rfl | rfl : code = 0x0901 ∨ code = 0x0902 := by simpa using h
    · simp [runCommand, answer]
    · simp [runCommand, answer]
  · rw [runCommand_upd h]

/-- COMMAND, UPD_BEGIN and UPD_CHUNK are the opcodes that write the update (R401). -/
theorem runOp_upd {opcode : Nat} (h : opcode ∉ [0x0401, 0x0701, 0x0702]) (k : Nat) (x : Session) (t seq : Nat) (pay : List Byte) (env : FhpEnv) (s : State) :
    (runOp k x t seq opcode pay env s).1.upd = s.upd := by
  apply upd_eq_of_keepsBut
  simp only [runOp]
  split
  · exact keepsBut_refl _ _
  · split
    all_goals simp +decide [keepsBut_onePart, apply_ite Prod.fst] at h ⊢

@[simp] theorem runOp_floor (k : Nat) (x : Session) (t seq opcode : Nat) (pay : List Byte) (env : FhpEnv) (s : State) :
    (runOp k x t seq opcode pay env s).1.upd.floor = s.upd.floor := by
  by_cases h : opcode ∈ [0x0401, 0x0701, 0x0702]
  · obtain rfl | rfl | rfl : opcode = 0x0401 ∨ opcode = 0x0701 ∨ opcode = 0x0702 := by simpa using h
    all_goals simp [runOp, onePart]
  · rw [runOp_upd h]

@[simp] theorem keepReply_upd (k : Nat) (p : FhpReply) (s : State) : (keepReply k p s).upd = s.upd := upd_eq_of_keepsBut (by simp +decide)
@[simp] theorem finishReply_upd (id k opcode seq : Nat) (parts : List (List Byte)) (s : State) : (finishReply id k opcode seq parts s).upd = s.upd :=
  upd_eq_of_keepsBut (by simp +decide)
@[simp] theorem closeSession_upd (k : Nat) (s : State) : (closeSession k s).upd = s.upd := upd_eq_of_keepsBut (by simp +decide)
@[simp] theorem sendParts_upd (x : Session) (opcode seq : Nat) (parts : List (List Byte)) (s : State) : (sendParts x opcode seq parts s).upd = s.upd :=
  upd_eq_of_keepsBut (by simp +decide)
@[simp] theorem updSlot_upd (k : Nat) (f : Session → Session) (s : State) : (updSlot k f s).upd = s.upd := upd_eq_of_keepsBut (by simp +decide)
@[simp] theorem countHostDiscard_upd (s : State) : (countHostDiscard s).upd = s.upd := upd_eq_of_keepsBut (by simp +decide)

@[simp] theorem carryOut_floor (k : Nat) (x : Session) (t seq opcode : Nat) (pay : List Byte) (env : FhpEnv) (s : State) :
    (carryOut k x t seq opcode pay env s).upd.floor = s.upd.floor := by
  simp [carryOut]

@[simp] theorem handleRequest_floor (k t seq opcode : Nat) (pay : List Byte) (env : FhpEnv) (s : State) : (handleRequest k t seq opcode pay env s).upd.floor = s.upd.floor := by
  have hround (c a : Nat) (s : State) : (s.raiseRound c a).upd = s.upd := upd_eq_of_keepsBut (by simp +decide)
  unfold handleRequest
  split
  · simp
  · refine ite_floor ?_ (ite_floor rfl (ite_floor (by simp [hround]) (by simp)))
    split
    · exact ite_floor (by simp) (by simp)
    · rfl

@[simp] theorem receive_floor (t addr port : Nat) (bytes : List Byte) (env : FhpEnv) (s : State) : (receive t addr port bytes env s).upd.floor = s.upd.floor := by
  have hlen (t addr port id seq opcode : Nat) (s : State) : (lengthInvalid t addr port id seq opcode s).upd = s.upd := upd_eq_of_keepsBut (by simp +decide)
  have hopen (t addr port seq : Nat) (hdr pay tag : List Byte) (s : State) : (handleOpen t addr port seq hdr pay tag s).upd = s.upd :=
    upd_eq_of_keepsBut (by simp +decide)
  have hauth (s : State) : (authFail s).upd = s.upd := upd_eq_of_keepsBut (by simp +decide)
  unfold receive
  refine ite_floor (by simp) (ite_floor (by simp [hlen]) (ite_floor (by simp [hopen]) ?_))
  split
  · simp
  · exact ite_floor (by simp [hauth]) (by simp)

@[simp] theorem request_floor (t id seq opcode : Nat) (pay : List Byte) (env : FhpEnv) (s : State) : (request t id seq opcode pay env s).upd.floor = s.upd.floor := by
  unfold request
  refine ite_floor rfl ?_
  split <;> simp

/-! ### Frames -/

@[simp] theorem runFrame_floor (late : Bool) (s : State) : (runFrame late s).upd.floor = s.upd.floor := by
  unfold runFrame
  extract_lets s1 s2
  have h2 : (learnedFrame s2).upd = s.upd := upd_eq_of_keepsBut (by simp +decide [s2, s1])
  have hmode (s : State) : (modeFrame s).upd = s.upd := upd_eq_of_keepsBut (by simp +decide)
  simp [hmode, h2]

/-! ### Commands -/

/-- The security floor is the same in two states, in both its copies (R555). -/
def sameFloor (s t : State) : Prop := t.upd.floor = s.upd.floor

theorem execBulkUp_sameFloor (m : RxMeta) (psdu : List Byte) (s : State) : answers (execBulkUp m psdu s) (sameFloor s) := by
  have hdiscard (n : Nat) (k : Nat) (s : State) : (discardFrame n k s).upd = s.upd := upd_eq_of_keepsBut (by simp +decide)
  have how (n b : Nat) (bytes : List Byte) (s : State) : (owResult n b bytes s).upd = s.upd := upd_eq_of_keepsBut (by simp +decide)
  have hcount (n k c a : Nat) (s : State) : ((countDiscard n k s).raiseRound c a).upd = s.upd := upd_eq_of_keepsBut (by simp +decide)
  unfold execBulkUp
  extract_lets r s0
  refine answers_ite (answers_next rfl) ?_
  split
  · exact answers_next (by simp [sameFloor, hdiscard, s0])
  · refine answers_ite (answers_next rfl) (answers_ite (answers_next (by simp [sameFloor, hcount, s0])) (answers_ite (answers_next rfl) ?_))
    refine answers_ite (answers_next rfl) (answers_next ?_)
    split <;> simp [sameFloor, how, s0]

theorem execFetchTrap_sameFloor (t : Nat) (addr : BitVec 32) (good : Bool) (s : State) : answers (execFetchTrap t addr good s) (sameFloor s) := by
  unfold execFetchTrap
  extract_lets s0 s1 port
  have h1 : s1.upd = s.upd := upd_eq_of_keepsBut (by simp +decide [s1, s0])
  have hnote (k detail : Nat) (s : State) : (noteRestart k detail s).upd = s.upd := upd_eq_of_keepsBut (by simp +decide)
  refine answers_ite (answers_next rfl) (answers_ite (answers_next ?_) (answers_ite (answers_next ?_) (answers_next ?_)))
  all_goals simp [sameFloor, hnote, h1]

theorem execDeepTestEnd_sameFloor (t : Nat) (fails : BitVec 7) (detail : BitVec 32) (s : State) : answers (execDeepTestEnd t fails detail s) (sameFloor s) := by
  have hlearned (l : List Nat) (s : State) : (forEach l reloadLearned s).upd = s.upd := upd_eq_of_keepsBut (by simp +decide)
  have hlanes (s : State) : (reloadLanes s).upd = s.upd := upd_eq_of_keepsBut (by simp +decide)
  unfold execDeepTestEnd
  extract_lets s0
  split
  · exact answers_next rfl
  next s1 _ block e _ =>
    refine answers_ite (answers_next rfl) ?_
    extract_lets s2 s3 s4
    have h3 : s3.upd = s.upd := upd_eq_of_keepsBut (by simp +decide [s3, s2, s1, s0])
    have h4 : s4.upd = s.upd := (upd_eq_of_keepsBut (by simp +decide [s4])).trans h3
    split
    all_goals exact answers_next (by simp [sameFloor, hlearned, hlanes, h3, h4])

theorem execVmainLoss_sameFloor (t : Nat) (s : State) : answers (execVmainLoss t s) (sameFloor s) :=
  answers_ite (answers_next rfl) (answers_next rfl)

theorem execVmainReturn_sameFloor (s : State) : answers (execVmainReturn s) (sameFloor s) := by
  refine answers_ite (answers_next rfl) (answers_ite (answers_next ?_) (answers_next rfl))
  simp [sameFloor, stepTime]

theorem execPorNAssert_sameFloor (t : Nat) (s : State) : answers (execPorNAssert t s) (sameFloor s) := answers_next rfl

theorem execPorNRelease_sameFloor (t : Nat) (resetHigh pfwHigh : Bool) (s : State) : answers (execPorNRelease t resetHigh pfwHigh s) (sameFloor s) := by
  refine answers_ite (answers_next rfl) (answers_next (ite_floor rfl ?_))
  have hraise (c a : Nat) (s : State) : (gRaise c a s).upd = s.upd := upd_eq_of_keepsBut (by simp +decide)
  rw [hraise]
  rfl

theorem execRestartModule_sameFloor (t : Nat) (s : State) : answers (execRestartModule t s) (sameFloor s) :=
  answers_ite (answers_next (by simp [sameFloor])) (answers_next rfl)

theorem execUpdateStagingIdle_sameFloor (t : Nat) (s : State) : answers (execUpdateStagingIdle t s) (sameFloor s) :=
  answers_ite (answers_next (by simp [sameFloor])) (answers_next rfl)

theorem execAbortUpdate_sameFloor (t : Nat) (s : State) : answers (execAbortUpdate t s) (sameFloor s) :=
  answers_ite (answers_next (by simp [sameFloor])) (answers_next rfl)

theorem execActivateUpdate_sameFloor (t : Nat) (version : BitVec 32) (s : State) : answers (execActivateUpdate t version s) (sameFloor s) :=
  answers_ite (answers_next (by simp [sameFloor])) (answers_next rfl)

theorem execActivationSequence_sameFloor (t : Nat) (s : State) : answers (execActivationSequence t s) (sameFloor s) :=
  answers_ite (answers_next (by simp [sameFloor])) (answers_next rfl)

theorem execUpdateRollback_sameFloor (t : Nat) (s : State) : answers (execUpdateRollback t s) (sameFloor s) := by
  unfold execUpdateRollback
  extract_lets s0
  split
  · exact answers_next rfl
  · refine answers_ite (answers_next rfl) (answers_ite (answers_next ?_) (answers_ite (answers_next ?_) (answers_next rfl)))
    all_goals simp [sameFloor, s0]

theorem execStartStep_sameFloor (t : Nat) (pfwHigh : Bool) (env : StartEnv) (s : State) : answers (execStartStep t pfwHigh env s) (sameFloor s) := by
  have hend (k : Nat) (e : StepEnd) (s : State) : (endStep k e s).upd = s.upd := upd_eq_of_keepsBut (by simp +decide)
  have hbegin (k : Nat) (s : State) : (beginStep k s).upd = s.upd := upd_eq_of_keepsBut (by simp +decide)
  have hhalt (k j o d : Nat) (s : State) : (haltStart k (markStep j o d s)).upd = s.upd := upd_eq_of_keepsBut (by simp +decide)
  unfold execStartStep
  extract_lets s0 k late s1 r s2
  refine answers_ite (answers_next rfl) (answers_ite (answers_next rfl) ?_)
  have h1 : s1.upd = s.upd := upd_eq_of_keepsBut (by simp +decide [s1, s0])
  have h2 : s2.upd.floor = s.upd.floor := by simp [s2, r, hend, h1]
  split
  · refine answers_ite (answers_next ?_) (answers_next ?_)
    all_goals simp [sameFloor, hbegin, h2]
  · refine answers_ite (answers_next h2) (answers_ite (answers_next ?_) (answers_next ?_))
    all_goals simp [sameFloor, hbegin, hhalt, h2]

theorem execFrameBoundary_sameFloor (t : Nat) (req : List Nat) (lines : List LineFault) (laneFails : List (Nat × Nat)) (late : Bool) (s : State) :
    answers (execFrameBoundary t req lines laneFails late s) (sameFloor s) := by
  unfold execFrameBoundary
  refine answers_ite (answers_next rfl) ?_
  extract_lets s0 s1 s2 s3 s4
  have h4 : s4.upd = s.upd := upd_eq_of_keepsBut (by simp +decide [s4, s3, s2, s1, s0])
  have hidle : (modeFrame (rpdoFrame s4)).upd = s4.upd := upd_eq_of_keepsBut (by simp +decide)
  exact answers_next (ite_floor (by rw [runFrame_floor, h4]) (by rw [hidle, h4]))

theorem execFhpDatagram_sameFloor (t addr port : Nat) (bytes : List Byte) (env : FhpEnv) (s : State) : answers (execFhpDatagram t addr port bytes env s) (sameFloor s) := by
  unfold execFhpDatagram
  extract_lets s0 s1
  refine answers_ite (answers_next rfl) ?_
  have h1 : s1.upd = s.upd := upd_eq_of_keepsBut (by simp +decide [s1, s0])
  exact answers_next (ite_floor (by rw [receive_floor, h1]) (by rw [h1]))


/-! ### Every command -/

/-- A command answers a next state, and changes no more than the parts that it may change. -/
theorem exec_frame (c : Instr) (s : State) : answers (exec c s) (keepsBut (mayChange c) s) := by
  cases c with
  | porNRelease t resetHigh pfwHigh => exact execPorNRelease_frame t resetHigh pfwHigh s
  | startStep t pfwHigh env => exact execStartStep_frame t pfwHigh env s
  | startTimeAcquisition sample => exact execStartTimeAcquisition_frame sample s
  | startDiscoveryEnd t => exact execStartDiscoveryEnd_frame t s
  | tickBoundary t ana => exact execTickBoundary_frame t ana s
  | frameBoundary t req lines laneFails late => exact execFrameBoundary_frame t req lines laneFails late s
  | sampleInstant t net k ch gpio => exact execSampleInstant_frame t net k ch gpio s
  | laneSample t n ch chk => exact execLaneSample_frame t n ch chk s
  | measurementLostStop t n => exact execMeasurementLostStop_frame t n s
  | outputSaturated t n => exact execOutputSaturated_frame t n s
  | pwmTurningPoint t n => exact execPwmTurningPoint_frame t n s
  | laneTakeover t => exact execLaneTakeover_frame t s
  | uwbSync t n => exact execUwbSync_frame t n s
  | beaconNotConfirmed t n => exact execBeaconNotConfirmed_frame t n s
  | radioPortReset t n => exact execRadioPortReset_frame t n s
  | radioPortReady t n => exact execRadioPortReady_frame t n s
  | uplink m psdu => exact execUplink_frame m psdu s
  | joinRequest string slot ts level psdu => exact execJoinRequest_frame string slot ts level psdu s
  | bulkUp m psdu => exact execBulkUp_frame m psdu s
  | uplinkDeadline t => exact execUplinkDeadline_frame t s
  | bulkTransferTimeout t n b => exact execBulkTransferTimeout_frame t n b s
  | keyActivation t n => exact execKeyActivation_frame t n s
  | estimatorUpdate t late recomputed lost => exact execEstimatorUpdate_frame t late recomputed lost s
  | estimatorOverrun t => exact execEstimatorOverrun_frame t s
  | combPublication t late => exact execCombPublication_frame t late s
  | openWireResultTimeout t n b => exact execOpenWireResultTimeout_frame t n b s
  | openWireRetry t n b => exact execOpenWireRetry_frame t n b s
  | burstResultTimeout t n b => exact execBurstResultTimeout_frame t n b s
  | programDeadline t us done => exact execProgramDeadline_frame t us done s
  | safetyEvaluation t selfOk => exact execSafetyEvaluation_frame t selfOk s
  | safetyEvaluationMissed t => exact execSafetyEvaluationMissed_frame t s
  | fslUnitReceived t u => exact execFslUnitReceived_frame t u s
  | fslWatchdogExpiry t k => exact execFslWatchdogExpiry_frame t k s
  | aliveToggle t => exact execAliveToggle_frame t s
  | permitLapse t => exact execPermitLapse_frame t s
  | permitWithdrawn t n => exact execPermitWithdrawn_frame t n s
  | contactorRelease t n => exact execContactorRelease_frame t n s
  | guardValue t ch => exact execGuardValue_frame t ch s
  | guardMean t ch => exact execGuardMean_frame t ch s
  | floopEdgeDrive t => exact execFloopEdgeDrive_frame t s
  | floopInEdge t n high => exact execFloopInEdge_frame t n high s
  | tripInputChange t a b => exact execTripInputChange_frame t a b s
  | tripDiscrepancy t => exact execTripDiscrepancy_frame t s
  | cfbChange t n k closed => exact execCfbChange_frame t n k closed s
  | contactorFeedbackFault t n k => exact execContactorFeedbackFault_frame t n k s
  | contactorWeld t n k => exact execContactorWeld_frame t n k s
  | guardScvRecompute t intact => exact execGuardScvRecompute_frame t intact s
  | resetNFall t tf => exact execResetNFall_frame t tf s
  | resetNRise t tr => exact execResetNRise_frame t tr s
  | stuckReset t => exact execStuckReset_frame t s
  | stuckResetClear t => exact execStuckResetClear_frame t s
  | resetWindowClose t => exact execResetWindowClose_frame t s
  | connectionTimeout t n => exact execConnectionTimeout_frame t n s
  | disconnectionTmax t n => exact execDisconnectionTmax_frame t n s
  | lossHoldExpiry t => exact execLossHoldExpiry_frame t s
  | sourceRevert t => exact execSourceRevert_frame t s
  | allowanceTimeout t => exact execAllowanceTimeout_frame t s
  | restWindowExpiry t n => exact execRestWindowExpiry_frame t n s
  | burstArm t => exact execBurstArm_frame t s
  | burstCurrentSample t a b => exact execBurstCurrentSample_frame t a b s
  | surveyBins t => exact execSurveyBins_frame t s
  | impedanceResult t => exact execImpedanceResult_frame t s
  | impedanceSurveyAbort t => exact execImpedanceSurveyAbort_frame t s
  | capacitySurveyAbort t => exact execCapacitySurveyAbort_frame t s
  | roundDieSensors t counts => exact execRoundDieSensors_frame t counts s
  | roundSupplySample t mv input dom => exact execRoundSupplySample_frame t mv input dom s
  | bistSlice t mv clockOk result => exact execBistSlice_frame t mv clockOk result s
  | bistSliceAbort v => exact execBistSliceAbort_frame v s
  | recorderCommit t => exact execRecorderCommit_frame t s
  | recorderCommitMissed t => exact execRecorderCommitMissed_frame t s
  | eventRecord t code arg => exact execEventRecord_frame t code arg s
  | fetchTrap t addr good => exact execFetchTrap_frame t addr good s
  | dmaHalt t channel f u => exact execDmaHalt_frame t channel f u s
  | bankCopyComplete t => exact execBankCopyComplete_frame t s
  | corePairFail t p => exact execCorePairFail_frame t p s
  | pfwNFall t step6 => exact execPfwNFall_frame t step6 s
  | powerFailSequenceEnd t high vmain => exact execPowerFailSequenceEnd_frame t high vmain s
  | vmainLoss t => exact execVmainLoss_frame t s
  | vguardLoss t => exact execVguardLoss_frame t s
  | ptpSync ts port gm origin corr => exact execPtpSync_frame ts port gm origin corr s
  | ptpAnnounce ts port gm rank domain ptpScale utc => exact execPtpAnnounce_frame ts port gm rank domain ptpScale utc s
  | ptpPdelay t4 port seq t2 t3 => exact execPtpPdelay_frame t4 port seq t2 t3 s
  | ptpSyncSend t leaveA leaveB => exact execPtpSyncSend_frame t leaveA leaveB s
  | announceTimeout t => exact execAnnounceTimeout_frame t s
  | syncBoundExceeded t => exact execSyncBoundExceeded_frame t s
  | ppsInEdge e => exact execPpsInEdge_frame e s
  | syncInEdge e => exact execSyncInEdge_frame e s
  | syncLost t => exact execSyncLost_frame t s
  | pulseInEdge e => exact execPulseInEdge_frame e s
  | capInEdge e k falling => exact execCapInEdge_frame e k falling s
  | ppsOut t => exact execPpsOut_frame t s
  | configuredOutput t k => exact execConfiguredOutput_frame t k s
  | compareArm t u target => exact execCompareArm_frame t u target s
  | transmitTimestamp t id port => exact execTransmitTimestamp_frame t id port s
  | fhpDatagram t addr port bytes env => exact execFhpDatagram_frame t addr port bytes env s
  | openSession t addr port seq pay tag => exact execOpenSession_frame t addr port seq pay tag s
  | close t id seq => exact execClose_frame t id seq s
  | keepalive t id seq => exact execKeepalive_frame t id seq s
  | sessionIdleTimeout t k => exact execSessionIdleTimeout_frame t k s
  | readItems t id seq pay ends => exact execReadItems_frame t id seq pay ends s
  | readSlots t id seq pay ends => exact execReadSlots_frame t id seq pay ends s
  | readMap t id seq pay => exact execReadMap_frame t id seq pay s
  | subscribe t id seq pay => exact execSubscribe_frame t id seq pay s
  | unsubscribe t id seq pay => exact execUnsubscribe_frame t id seq pay s
  | push t k id ends => exact execPush_frame t k id ends s
  | paramRead t id seq pay => exact execParamRead_frame t id seq pay s
  | editLock t id seq pay => exact execEditLock_frame t id seq pay s
  | paramWrite t id seq pay => exact execParamWrite_frame t id seq pay s
  | commit t id seq pay => exact execCommit_frame t id seq pay s
  | commitComplete t ok4 ok6 => exact execCommitComplete_frame t ok4 ok6 s
  | discard t id seq => exact execDiscard_frame t id seq s
  | eventList t id seq pay => exact execEventList_frame t id seq pay s
  | recRead t id seq pay => exact execRecRead_frame t id seq pay s
  | progLoad t id seq pay => exact execProgLoad_frame t id seq pay s
  | progRead t id seq pay => exact execProgRead_frame t id seq pay s
  | programStagingTimeout t => exact execProgramStagingTimeout_frame t s
  | updBegin t id seq pay sig => exact execUpdBegin_frame t id seq pay sig s
  | updChunk t id seq pay env => exact execUpdChunk_frame t id seq pay env s
  | updStatus t id seq pay => exact execUpdStatus_frame t id seq pay s
  | updateStagingIdle t => exact execUpdateStagingIdle_frame t s
  | capRead t id seq pay => exact execCapRead_frame t id seq pay s
  | journalRead t id seq pay => exact execJournalRead_frame t id seq pay s
  | bistRead t id seq pay => exact execBistRead_frame t id seq pay s
  | hostSetpoint t w => exact execHostSetpoint_frame t w s
  | hostAllowance t chg dis => exact execHostAllowance_frame t chg dis s
  | selectSetpointSource t backup => exact execSelectSetpointSource_frame t backup s
  | connectString t n => exact execConnectString_frame t n s
  | disconnectString t n => exact execDisconnectString_frame t n s
  | closeRestWindow t n => exact execCloseRestWindow_frame t n s
  | clearFailedConnection t n => exact execClearFailedConnection_frame t n s
  | changeMode t r code => exact execChangeMode_frame t r code s
  | restartModule t => exact execRestartModule_frame t s
  | manualDuty t n duty => exact execManualDuty_frame t n duty s
  | automatic t n => exact execAutomatic_frame t n s
  | startImpedanceSurvey t n => exact execStartImpedanceSurvey_frame t n s
  | abortImpedanceSurvey t => exact execAbortImpedanceSurvey_frame t s
  | startCapacitySurvey t n => exact execStartCapacitySurvey_frame t n s
  | abortCapacitySurvey t => exact execAbortCapacitySurvey_frame t s
  | writeLearnedValues t strings => exact execWriteLearnedValues_frame t strings s
  | renewNetworkKey t n => exact execRenewNetworkKey_frame t n s
  | releaseRosterEntry t n b replaced => exact execReleaseRosterEntry_frame t n b replaced s
  | openWireTest t n b k => exact execOpenWireTest_frame t n b k s
  | confirmScv t gen scv => exact execConfirmScv_frame t gen scv s
  | programMode t code => exact execProgramMode_frame t code s
  | forceVariable t var v => exact execForceVariable_frame t var v s
  | releaseForce t var => exact execReleaseForce_frame t var s
  | activateOnlineChange t version => exact execActivateOnlineChange_frame t version s
  | clearRecorderRegion t session region token => exact execClearRecorderRegion_frame t session region token s
  | activateUpdate t version => exact execActivateUpdate_frame t version s
  | abortUpdate t => exact execAbortUpdate_frame t s
  | runDeepSelfTest t block => exact execRunDeepSelfTest_frame t block s
  | activationSequence t => exact execActivationSequence_frame t s
  | updateConfirmation t seen => exact execUpdateConfirmation_frame t seen s
  | updateRollback t => exact execUpdateRollback_frame t s
  | foragerStagingFail t n b => exact execForagerStagingFail_frame t n b s
  | icmpEcho t addr data => exact execIcmpEcho_frame t addr data s
  | arpRequest t from_ target => exact execArpRequest_frame t from_ target s
  | prpSupervision t heard => exact execPrpSupervision_frame t heard s
  | canFrameReceived sof ts p id ext remote data => exact execCanFrameReceived_frame sof ts p id ext remote data s
  | setpoint t p => exact execSetpoint_frame t p s
  | timeRef t => exact execTimeRef_frame t s
  | timeFollow t p => exact execTimeFollow_frame t p s
  | timeRefReceived t p => exact execTimeRefReceived_frame t p s
  | timeMasterTakeover t => exact execTimeMasterTakeover_frame t s
  | canErrorState t p err => exact execCanErrorState_frame t p err s
  | canBusoffRecovery t p => exact execCanBusoffRecovery_frame t p s
  | canAutobaud t p good => exact execCanAutobaud_frame t p good s
  | canTxRemoval t => exact execCanTxRemoval_frame t s
  | canopenSync t => exact execCanopenSync_frame t s
  | canopenHeartbeat t => exact execCanopenHeartbeat_frame t s
  | canopenSdoResponse t => exact execCanopenSdoResponse_frame t s
  | canopenTpdo t => exact execCanopenTpdo_frame t s
  | canopenEmcy t => exact execCanopenEmcy_frame t s
  | canopenStationAbsent t k => exact execCanopenStationAbsent_frame t k s
  | porNAssert t => exact execPorNAssert_frame t s
  | vmainReturn => exact execVmainReturn_frame s
  | floopEdgeNotReturned t n => exact execFloopEdgeNotReturned_frame t n s
  | peerDelayExpiry t port => exact execPeerDelayExpiry_frame t port s
  | pdelayReqSend t => exact execPdelayReqSend_frame t s
  | timeFollowUpMissing t => exact execTimeFollowUpMissing_frame t s
  | deepTestEnd t fails detail => exact execDeepTestEnd_frame t fails detail s
  | bulkDownSlot t n k => exact execBulkDownSlot_frame t n k s

/-- Every command but the confirmation of an update leaves the security floor as it is (R555). -/
theorem exec_sameFloor {c : Instr} (hc : ∀ t seen, c ≠ .updateConfirmation t seen) (s : State) : answers (exec c s) (sameFloor s) := by
  by_cases hupd : Piece.upd ∈ mayChange c
  case neg => exact answers_mono (exec_frame c s) fun t ht => congrArg UpdState.floor (ht .upd hupd)
  cases c with
  | porNRelease => exact execPorNRelease_sameFloor ..
  | startStep => exact execStartStep_sameFloor ..
  | frameBoundary => exact execFrameBoundary_sameFloor ..
  | bulkUp => exact execBulkUp_sameFloor ..
  | fetchTrap => exact execFetchTrap_sameFloor ..
  | vmainLoss => exact execVmainLoss_sameFloor ..
  | fhpDatagram => exact execFhpDatagram_sameFloor ..
  | close | keepalive | readItems | readSlots | readMap | subscribe | unsubscribe | paramRead | editLock | paramWrite | commit
  | discard | eventList | recRead | progLoad | progRead | updBegin | updChunk | updStatus | capRead | journalRead | bistRead => exact answers_next (request_floor ..)
  | updateStagingIdle => exact execUpdateStagingIdle_sameFloor ..
  | restartModule => exact execRestartModule_sameFloor ..
  | activateUpdate => exact execActivateUpdate_sameFloor ..
  | abortUpdate => exact execAbortUpdate_sameFloor ..
  | activationSequence => exact execActivationSequence_sameFloor ..
  | updateConfirmation t seen => exact absurd rfl (hc t seen)
  | updateRollback => exact execUpdateRollback_sameFloor ..
  | porNAssert => exact execPorNAssert_sameFloor ..
  | vmainReturn => exact execVmainReturn_sameFloor ..
  | deepTestEnd => exact execDeepTestEnd_sameFloor ..
  | _ => simp +decide [mayChange] at hupd

/-! ### The confirmation -/

/-- The floor in force is the value that was written last (R503, R555). -/
@[simp] theorem pairLater_writePair {α : Type} (p : Pair α) (v : α) : pairLater (writePair p v) = some v := by
  simp [pairLater, writePair]

theorem floorOf_eq_of_sameFloor {s t : State} (h : sameFloor s t) : floorOf t = floorOf s := congrArg (fun p => (pairLater p).getD 0) h

/-- A confirmation writes the floor only where the level of the set that runs lies above it (R552, R555). -/
theorem execUpdateConfirmation_floorOf_le (t : Nat) (seen : BitVec 7) (s : State) : answers (execUpdateConfirmation t seen s) fun r => floorOf s ≤ floorOf r := by
  unfold execUpdateConfirmation
  extract_lets s0
  split
  · exact answers_next le_rfl
  next up s1 s2 _ d _ =>
    refine answers_ite (answers_next le_rfl) (answers_ite (answers_next le_rfl) (answers_ite (answers_next ?_) (answers_next le_rfl)))
    have hfloor : ((s2.raise 0x9039 0).clear 0x903A 0).upd.floor = if floorOf s < s.upd.running.level then writePair s.upd.floor s.upd.running.level else s.upd.floor := by
      rw [clear_upd, raise_upd]
      rfl
    unfold floorOf at hfloor ⊢
    rw [hfloor]
    split
    · simp; omega
    · rfl

/-- No command lowers the security floor (R555). -/
theorem exec_floorOf_le (c : Instr) (s : State) : answers (exec c s) fun t => floorOf s ≤ floorOf t := by
  by_cases hc : ∃ t seen, c = .updateConfirmation t seen
  · obtain ⟨t, seen, rfl⟩ := hc
    exact execUpdateConfirmation_floorOf_le t seen s
  · have hother : ∀ t seen, c ≠ .updateConfirmation t seen := fun t seen h => hc ⟨t, seen, h⟩
    exact answers_mono (exec_sameFloor hother s) fun t h => (floorOf_eq_of_sameFloor h).ge

/-! ### The start of a delivery -/

/-- A package whose level lies below the floor is refused, if not for an earlier reason of R541 then for this one. -/
theorem manifestReason_ne_zero_of_level_lt {s : State} {pay : List Byte} (h : (manifestOf pay).level < floorOf s) : manifestReason s pay ≠ 0 := by
  simp only [manifestReason, h, if_true]
  repeat' split
  all_goals decide

theorem opUpdBegin_of_refused {s : State} {pay : List Byte} (h : manifestReason s pay ≠ 0) :
    opUpdBegin pay s = opFail 8 0x9031 (s.raise 0x9031 (evArg (manifestReason s pay) 0)) := by
  simp [opUpdBegin, h]

/-- Settles O53: every command but UPDATE_CONFIRMATION leaves both copies of the floor as they are, and that one writes it only to raise it. -/
theorem securityFloor : Obligations.SecurityFloor := by
  refine ⟨fun c s t hexec => ?_, fun p v => ⟨_, rfl⟩, fun s => rfl, fun s pay hlevel => ?_⟩
  · obtain ⟨r, hr, hle⟩ := exec_floorOf_le c s
    obtain rfl : r = t := by simpa [hr] using hexec
    exact hle
  · have hreason := manifestReason_ne_zero_of_level_lt hlevel
    rw [opUpdBegin_of_refused hreason]
    exact ⟨hreason, rfl, raise_upd ..⟩

end Sys2Proof.Machine
end

section
/-!
PROOF. Values of the estimator, the dispatch, the safety layer and the Regulator: NoChargeLost, SharesWithinLimits, FslPduRoundTrip, DutyLimits.
-/
namespace Sys2Proof.Machine

/-! ### The charge of a cell over an overrun -/

/-- What an update counts: the string charge since the last one, shared out to charge, bleed offset and forager draw (R162). -/
theorem chargeCell_charge (s : State) (e : EstStr) (x : StrIn) (bleedNs r : Nat) (c : Cell) :
    (chargeCell s e x bleedNs r c).q + (chargeCell s e x bleedNs r c).b + nearest ((s.parN .estForagerIq : Rat) * ((c.owed.1 + x.tInt : Nat) : Rat) / 1000000000) =
      c.q + c.b + (e.qs - c.qLast) := by
  simp only [chargeCell]
  omega

theorem missCell_charge (s : State) (e : EstStr) (x : StrIn) (bleedNs : Nat) (was c : Cell) :
    (missCell s e x bleedNs was c).q = c.q ∧ (missCell s e x bleedNs was c).b = c.b ∧ (missCell s e x bleedNs was c).qLast = c.qLast ∧
      (missCell s e x bleedNs was c).owed.1 = c.owed.1 + x.tInt := ⟨rfl, rfl, rfl, rfl⟩

/-- Settles O11: a missed update keeps the charge and owes its interval, and the next one counts the string charge of both. -/
theorem noChargeLost : Obligations.NoChargeLost := by
  intro s s' e1 e2 x1 x2 b1 b2 r was c
  obtain ⟨hq, hb, hlast, howed⟩ := missCell_charge s' e1 x1 b1 was c
  have hcount := chargeCell_charge s e2 x2 b2 r (missCell s' e1 x1 b1 was c)
  rw [hq, hb, hlast, howed] at hcount
  exact ⟨hcount, rfl⟩

/-! ### The allocation -/

/-- A share cut down to the greatest power of its string has that power as its amount (R276). -/
theorem ratAbs_signed {m : Rat} (hm : 0 < m) (neg : Prop) [Decidable neg] : ratAbs (if neg then -m else m) = m := by
  unfold ratAbs
  split <;> split <;> linarith

/-- A pass shares nothing out of nothing; else every share is within the greatest power of a string of the pass (R276). -/
theorem sharePasses_le (k : Nat) : ∀ (rem : Rat) (xs : List (Nat × Rat × Rat)), (∀ x ∈ xs, 0 < x.2.2) →
    ∀ n v, (n, v) ∈ sharePasses k rem xs → ∃ x ∈ xs, x.1 = n ∧ ratAbs v ≤ x.2.2 := by
  induction k with
  | zero => intro rem xs _ n v hv; simp [sharePasses] at hv
  | succ k ih =>
    intro rem xs hpos n v hv
    unfold sharePasses at hv
    split at hv
    · simp at hv
    extract_lets sum ps above fixed left at hv
    have hps : ∀ q ∈ ps, q.1 ∈ xs := by
      intro q hq
      obtain ⟨x, hx, rfl⟩ := List.mem_map.1 hq
      exact hx
    split at hv
    next hnone =>
      obtain ⟨q, hq, heq⟩ := List.mem_map.1 hv
      have hwithin : ¬ q.1.2.2 < ratAbs q.2 := by
        have hnil : above = [] := List.isEmpty_iff.1 hnone
        simpa using List.filter_eq_nil_iff.1 hnil q hq
      cases heq
      exact ⟨q.1, hps q hq, rfl, not_lt.1 hwithin⟩
    next =>
      obtain hfix | hrest := List.mem_append.1 hv
      · obtain ⟨q, hq, heq⟩ := List.mem_map.1 hfix
        have hmem : q.1 ∈ xs := hps q (List.mem_of_mem_filter hq)
        cases heq
        exact ⟨q.1, hmem, rfl, (ratAbs_signed (hpos _ hmem) _).le⟩
      · have hsub : ∀ x ∈ (ps.filter fun q => !decide (q.1.2.2 < ratAbs q.2)).map (·.1), x ∈ xs := by
          intro x hx
          obtain ⟨q, hq, rfl⟩ := List.mem_map.1 hx
          exact hps q (List.mem_of_mem_filter hq)
        obtain ⟨x, hx, hn, hle⟩ := ih left _ (fun x hx => hpos x (hsub x hx)) n v hrest
        exact ⟨x, hsub x hx, hn, hle⟩

/-- Settles O20: every string that shares has a greatest power above 0, and no pass gives more. -/
theorem sharesWithinLimits : Obligations.SharesWithinLimits := by
  intro s p surv shared n v hv
  unfold allocate at hv
  obtain ⟨x, hx, hn, hle⟩ := sharePasses_le _ _ _ (fun x hx => by
    have hkept := (List.mem_filter.1 hx).2
    simp only [Bool.and_eq_true, decide_eq_true_eq] at hkept
    exact hkept.2) n v hv
  obtain ⟨m, _, rfl⟩ := List.mem_map.1 (List.mem_of_mem_filter hx)
  cases hn
  exact hle

/-! ### A PDU of the safety layer -/

@[simp] theorem length_toLE (n v : Nat) : (toLE n v).length = n := by
  induction n generalizing v with
  | zero => rfl
  | succ n ih => simp [toLE, ih]

/-- Octets written low first read back as the value modulo the room that they have (R5). -/
theorem ofLE_toLE (n v : Nat) : ofLE (toLE n v) = v % 2 ^ (8 * n) := by
  induction n generalizing v with
  | zero => simp [toLE, ofLE, Nat.mod_one]
  | succ n ih =>
    rw [toLE, ofLE, ih, BitVec.toNat_ofNat, mul_add_one, add_comm (8 * n), pow_add, Nat.mod_mul]
    rfl

/-- A CRC of 32 bits fits four octets (R348). -/
theorem crcFsl_lt (bs : List Byte) : crcFsl bs < 2 ^ 32 := by
  have hfold : ∀ (l : List Byte) c, c < 2 ^ 32 → l.foldl (fun c b => crcReflBits 0xC8DF352F 8 (c ^^^ b.toNat)) c < 2 ^ 32 := by
    intro l
    induction l with
    | nil => intro c h; exact h
    | cons b l ih => intro c h; exact ih _ (crcReflBits_lt _ (by decide) _ _ (Nat.xor_lt_two_pow h (by have := b.isLt; omega)))
  exact Nat.xor_lt_two_pow (hfold bs _ (by decide)) (by decide)

/-- The fields of a PDU before its CRC (Table 12-2). -/
def fslHead (id seq wd typ : Nat) (body : List Byte) : List Byte :=
  toLE 4 id ++ toLE 4 seq ++ toLE 2 wd ++ toLE 1 typ ++ toLE 1 body.length ++ body

theorem fslPdu_eq (id seq wd typ : Nat) (body : List Byte) :
    fslPdu id seq wd typ body = fslHead id seq wd typ body ++ toLE 4 (crcFsl (toLE 4 id ++ fslHead id seq wd typ body)) := rfl

theorem length_fslHead (id seq wd typ : Nat) (body : List Byte) : (fslHead id seq wd typ body).length = 12 + body.length := by
  simp [fslHead]
  omega

/-- The fields of a PDU one behind the other: what a reader at an offset finds. -/
theorem fslPdu_fields (id seq wd typ : Nat) (body : List Byte) : ∃ crc : List Byte,
    fslPdu id seq wd typ body = toLE 4 id ++ (toLE 4 seq ++ (toLE 2 wd ++ (toLE 1 typ ++ (toLE 1 body.length ++ (body ++ crc))))) := by
  exact ⟨toLE 4 (crcFsl (toLE 4 id ++ fslHead id seq wd typ body)), by simp only [fslPdu_eq, fslHead, List.append_assoc]⟩

/-- What lies behind the first n entries of a list that begins with n entries. -/
theorem drop_add_append {α : Type} {a b : List α} {n : Nat} (k : Nat) (h : a.length = n) : (a ++ b).drop (n + k) = b.drop k := by
  rw [← List.drop_drop, List.drop_left' h]

theorem pduLen_fslPdu (id seq wd typ : Nat) {body : List Byte} (h : body.length ≤ 32) : pduLen (fslPdu id seq wd typ body) = body.length := by
  obtain ⟨crc, hp⟩ := fslPdu_fields id seq wd typ body
  have hdrop : (fslPdu id seq wd typ body).drop 11 = toLE 1 body.length ++ (body ++ crc) := by
    rw [hp, show 11 = 4 + (4 + (2 + (1 + 0))) from rfl]
    simp only [drop_add_append _ (length_toLE _ _), List.drop_zero]
  rw [pduLen, hdrop, List.take_left' (length_toLE ..), ofLE_toLE]
  omega

/-- Settles O34: each field is read where it was written, and the CRC is the one of the bytes before it. -/
theorem fslPduRoundTrip : Obligations.FslPduRoundTrip := by
  intro id seq wd typ body hbody p
  have hlen : pduLen p = body.length := pduLen_fslPdu id seq wd typ hbody
  have hplen : p.length = 16 + body.length := by
    simp only [p, fslPdu_eq, List.length_append, length_toLE, length_fslHead]
    omega
  obtain ⟨crc, hp⟩ := fslPdu_fields id seq wd typ body
  have hdrop4 : p.drop 4 = toLE 4 seq ++ (toLE 2 wd ++ (toLE 1 typ ++ (toLE 1 body.length ++ (body ++ crc)))) := by
    show (fslPdu id seq wd typ body).drop (4 + 0) = _
    rw [hp, drop_add_append _ (length_toLE ..), List.drop_zero]
  have hdrop8 : p.drop 8 = toLE 2 wd ++ (toLE 1 typ ++ (toLE 1 body.length ++ (body ++ crc))) := by
    show (fslPdu id seq wd typ body).drop (4 + (4 + 0)) = _
    simp only [hp, drop_add_append _ (length_toLE _ _), List.drop_zero]
  have hdrop10 : p.drop 10 = toLE 1 typ ++ (toLE 1 body.length ++ (body ++ crc)) := by
    show (fslPdu id seq wd typ body).drop (4 + (4 + (2 + 0))) = _
    simp only [hp, drop_add_append _ (length_toLE _ _), List.drop_zero]
  have hdrop12 : p.drop 12 = body ++ crc := by
    show (fslPdu id seq wd typ body).drop (4 + (4 + (2 + (1 + (1 + 0))))) = _
    simp only [hp, drop_add_append _ (length_toLE _ _), List.drop_zero]
  refine ⟨?_, ?_, ?_, ?_, ?_, ?_, ?_⟩
  · have hhead : p.take (12 + body.length) = fslHead id seq wd typ body := List.take_left' (length_fslHead ..)
    have htail : p.drop (12 + body.length) = toLE 4 (crcFsl (toLE 4 id ++ fslHead id seq wd typ body)) := List.drop_left' (length_fslHead ..)
    have hcrc := crcFsl_lt (toLE 4 id ++ fslHead id seq wd typ body)
    simp only [fslCrcOk, hlen, hhead, htail, List.take_of_length_le (length_toLE ..).le, ofLE_toLE, beq_iff_eq]
    omega
  · simp [lengthOk, hlen, hplen, hbody]
  · rw [pduConn, show p = _ from hp, List.take_left' (length_toLE ..), ofLE_toLE]
  · rw [pduSeq, hdrop4, List.take_left' (length_toLE ..), ofLE_toLE]
  · rw [pduWd, hdrop8, List.take_left' (length_toLE ..), ofLE_toLE]
  · rw [pduType, hdrop10, List.take_left' (length_toLE ..), ofLE_toLE]
  · rw [pduBody, hlen, hdrop12, List.take_left' rfl]

/-! ### The duties of the law -/

/-- No value lies below itself in the order of IEEE 754. -/
theorem lt_self_f32 (v : Nat) : f32.lt v v = false := by
  unfold FFmt.lt
  cases f32.val v <;> simp

/-- A clamped value lies within its limits, if these are in order. -/
theorem fClamp_within {lo hi : Nat} (h : f32.lt hi lo = false) (v : Nat) : f32.lt (fClamp lo hi v) lo = false ∧ f32.lt hi (fClamp lo hi v) = false := by
  unfold fClamp
  split
  · exact ⟨lt_self_f32 lo, h⟩
  · split
    · exact ⟨h, lt_self_f32 hi⟩
    · simp_all

theorem outLimits_mode0 {g : GainSet} (h : g.mode1 = false) (dLo dHi vb vc : Nat) : outLimits g dLo dHi vb vc = (dLo, dHi) := by simp [outLimits, h]
theorem dutyOf_mode0 {g : GainSet} (h : g.mode1 = false) (vb vc u : Nat) : dutyOf g vb vc u = u := by simp [dutyOf, h]

/-- The duties of a tick are those of the outputs clamped to their limits (R235). -/
theorem lawTick_duty (g : GainSet) (i : LawIn) (r : LaneRec) : ∃ us : List Nat,
    (lawTick g i r).duty = us.map fun u => dutyOf g i.vb i.vc (fClamp (outLimits g i.dLo i.dHi i.vb i.vc).1 (outLimits g i.dLo i.dHi i.vb i.vc).2 u) :=
  ⟨_, by simp only [lawTick, List.map_map]; rfl⟩

/-- Settles O16: in mode 0 an output is its own duty, and it is clamped to D_lo and D_hi. -/
theorem dutyLimits : Obligations.DutyLimits := by
  intro g i r hmode hord d hd
  obtain ⟨us, hus⟩ := lawTick_duty g i r
  simp only [hus, outLimits_mode0 hmode, dutyOf_mode0 hmode] at hd
  obtain ⟨u, _, rfl⟩ := List.mem_map.1 hd
  exact fClamp_within hord u

end Sys2Proof.Machine
end

section
/-!
PROOF. The queue and the recorder's rings: StepRunsFrontCommand, ResetState, EmptyQueueIdles, RingBound.
-/
namespace Sys2Proof.Machine

/-- Settles O55: a step takes the front command off the queue. -/
theorem stepRunsFrontCommand : Obligations.StepRunsFrontCommand := by
  intro c rest s h
  simp only [step, h]

/-- Settles O57: each field at its reset value. -/
theorem resetState_spec : Obligations.ResetState := by
  refine ⟨rfl, rfl, rfl, ?_, ?_, rfl, ?_, rfl, rfl⟩ <;> decide

/-! ### A CAN port on an empty queue -/

/-- The entry chosen for arbitration is one of the queue, and none of the queue comes before it (R421). -/
theorem lowestTx_some {l : List CanTx} {e : CanTx} (h : lowestTx l = some e) : e ∈ l ∧ ∀ f ∈ l, arbKey e ≤ arbKey f := by
  induction l generalizing e with
  | nil => simp [lowestTx] at h
  | cons a l ih =>
    unfold lowestTx at h
    split at h
    next hnone =>
      have hl : l = [] := by
        cases l with
        | nil => rfl
        | cons b l => unfold lowestTx at hnone; split at hnone <;> (try split at hnone) <;> simp at hnone
      cases h
      simp [hl]
    next f hf =>
      obtain ⟨hmem, hle⟩ := ih hf
      split at h
      next haf =>
        cases h
        exact ⟨List.mem_cons_self, by simpa using fun g hg => haf.trans (hle g hg)⟩
      next haf =>
        cases h
        exact ⟨List.mem_cons_of_mem _ hmem, by simpa using ⟨(not_le.1 haf).le, hle⟩⟩

/-- A port loses nothing, or the entry that wins its arbitration, which leaves as a frame (R421). -/
def sentOne (p : Nat) (s t : State) : Prop :=
  canPort t p = canPort s p ∨ ∃ e ∈ (canPort s p).tx, e.tag = 0 ∧ canPort t p = { canPort s p with tx := (canPort s p).tx.erase e } ∧
    Output.canFrame p (canFormat s p e) e.id e.data ∈ t.out ∧ ∀ f ∈ (canPort s p).tx, arbKey e ≤ arbKey f

theorem canPort_updPort (p q : Nat) (f : CanPort → CanPort) (s : State) :
    canPort (updPort p f s) q = if p = q ∧ q < s.can.ports.length then f (canPort s q) else canPort s q := getD_updAt ..

theorem canSendOne_sentOne {p : Nat} (s : State) (hp : p < s.can.ports.length) : sentOne p s (canSendOne p s) := by
  unfold canSendOne
  split
  · split
    next e he =>
      obtain ⟨hmem, hle⟩ := lowestTx_some he
      split
      next htag =>
        refine .inr ⟨e, hmem, by simpa using htag, ?_, List.mem_cons_self, hle⟩
        exact (canPort_updPort ..).trans (if_pos ⟨rfl, hp⟩)
      next => exact .inl rfl
    next => exact .inl rfl
  · exact .inl rfl

/-- A port that sends leaves the other one, and what both have sent before, as they are. -/
theorem canSendOne_other {p q : Nat} (s : State) (h : p ≠ q) :
    canPort (canSendOne p s) q = canPort s q ∧ (∀ o ∈ s.out, o ∈ (canSendOne p s).out) ∧ (canSendOne p s).boot = s.boot ∧
      { (canSendOne p s).can with ports := s.can.ports } = s.can ∧ (canSendOne p s).can.ports.length = s.can.ports.length := by
  unfold canSendOne
  split
  · split
    next e _ =>
      split
      · exact ⟨(canPort_updPort ..).trans (if_neg fun hc => h hc.1), fun o ho => List.mem_cons_of_mem _ ho, rfl, rfl, length_updAt ..⟩
      · exact ⟨rfl, fun o ho => ho, rfl, rfl, rfl⟩
    next => exact ⟨rfl, fun o ho => ho, rfl, rfl, rfl⟩
  · exact ⟨rfl, fun o ho => ho, rfl, rfl, rfl⟩

/-- Settles O56: the two ports send one after the other, each from its own queue. -/
theorem emptyQueueIdles : Obligations.EmptyQueueIdles := by
  intro s hq hlen
  let s0 := canSendOne 0 s
  obtain ⟨h01, _, hboot, hcan, hlen0⟩ := canSendOne_other s (p := 0) (q := 1) (by decide)
  obtain ⟨h10, hout, _, hcan1, _⟩ := canSendOne_other s0 (p := 1) (q := 0) (by decide)
  refine ⟨canSendOne 1 s0, by simp [step, hq, canIdle, forEach, s0], ?_, ?_, fun p hp => ?_⟩
  · rw [keepsBut_canSendOne (by decide), keepsBut_canSendOne (by decide)]
    exact keepsBut_refl _ _
  · rw [← hcan]
    exact congrArg (fun c : CanState => { c with ports := s.can.ports }) hcan1
  · obtain rfl | rfl : p = 0 ∨ p = 1 := by omega
    · have h0 := canSendOne_sentOne s (p := 0) (by omega)
      obtain heq | ⟨e, hmem, htag, heq, hsent, hle⟩ := h0
      · exact .inl (h10.trans heq)
      · exact .inr ⟨e, hmem, htag, h10.trans heq, hout _ hsent, hle⟩
    · have hlen1 : s0.can.ports.length = 2 := hlen0.trans hlen
      have h1 := canSendOne_sentOne s0 (p := 1) (by omega)
      have hfmt (e : CanTx) : canFormat s0 1 e = canFormat s 1 e := by
        have hport : s0.can.ports.getD 1 {} = s.can.ports.getD 1 {} := h01
        simp only [canFormat, State.parN, State.par, hport]
        rw [show s0.boot = s.boot from hboot]
      unfold sentOne at h1
      simpa only [show canPort s0 1 = canPort s 1 from h01, hfmt] using h1

/-! ### The rings of event records -/

/-- No ring holds more than 3840 records (R479). -/
def ringsBounded (r : RecState) : Prop := ∀ l ∈ r.rings, l.length ≤ 3840

/-- The rings stay within their bound when one of them is replaced by one that does. -/
theorem ringsBounded_updAt {r : RecState} {k : Nat} {f : List EvRec → List EvRec} (h : ringsBounded r) (hf : (f (r.rings.getD k [])).length ≤ 3840) :
    ∀ l ∈ updAt r.rings k f, l.length ≤ 3840 := by
  intro l hl
  obtain ⟨j, hj, rfl⟩ := List.mem_iff_getElem.1 hl
  have hjl : j < r.rings.length := by simpa using hj
  simp only [updAt, List.getElem_modify]
  split
  next hkj =>
    subst hkj
    simpa [List.getD_eq_getElem?_getD, hjl] using hf
  next => exact h _ (List.getElem_mem hjl)

theorem getD_length_le {r : RecState} (h : ringsBounded r) (k : Nat) : (r.rings.getD k []).length ≤ 3840 := by
  by_cases hk : k < r.rings.length
  · simpa [List.getD_eq_getElem?_getD, hk] using h _ (List.getElem_mem hk)
  · simp [List.getD_eq_getElem?_getD, List.getElem?_eq_none (not_lt.1 hk)]

theorem recordRaise_ringsBounded (only : Bool) (code arg t : Nat) {r : RecState} (h : ringsBounded r) : ringsBounded (recordRaise only code arg t r).1 := by
  have hring := getD_length_le h (evClass code - 1)
  unfold recordRaise
  dsimp only
  split
  next e es heq =>
    have hes : (e :: es).length ≤ 3840 := heq ▸ hring
    split
    · exact ringsBounded_updAt h (by simpa using hes)
    · exact ringsBounded_updAt h (by simp [List.length_take])
  next => exact ringsBounded_updAt h (by simp)

theorem markRaised_ringsBounded (only : Bool) (code arg : Nat) {r : RecState} (h : ringsBounded r) : ringsBounded (markRaised only code arg r) := by
  unfold markRaised
  split <;> exact h

theorem raiseRec_ringsBounded (only : Bool) (code arg t : Nat) {r : RecState} (h : ringsBounded r) : ringsBounded (raiseRec only code arg t r) := by
  have h2 := markRaised_ringsBounded only code arg (recordRaise_ringsBounded only code arg t h)
  unfold raiseRec
  extract_lets r1 r2
  split
  · refine markRaised_ringsBounded _ _ _ ?_
    have h3 := recordRaise_ringsBounded false 0x8043 0 t h2
    split
    · exact recordRaise_ringsBounded _ _ _ _ h3
    · exact h3
  · exact h2

theorem clearRec_go_length (code arg : Nat) (l : List EvRec) : (clearRec.go code arg l).length = l.length := by
  induction l with
  | nil => rfl
  | cons e l ih =>
    unfold clearRec.go
    split
    · rfl
    · simp [ih]

theorem raise_ringsBounded (code arg : Nat) {s : State} (h : ringsBounded s.recorder) : ringsBounded (s.raise code arg).recorder :=
  raiseRec_ringsBounded _ _ _ _ h

theorem raiseRound_ringsBounded (code arg : Nat) {s : State} (h : ringsBounded s.recorder) : ringsBounded (s.raiseRound code arg).recorder := by
  have hraise := raise_ringsBounded code arg h
  unfold State.raiseRound
  rw [State.modRecorder_recorder]
  split <;> exact hraise

theorem clear_ringsBounded (code arg : Nat) {s : State} (h : ringsBounded s.recorder) : ringsBounded (s.clear code arg).recorder := by
  unfold State.clear
  split
  · exact ringsBounded_updAt h (by rw [clearRec_go_length]; exact getD_length_le h _)
  · exact h

theorem stand_ringsBounded (code arg : Nat) (on : Bool) {s : State} (h : ringsBounded s.recorder) : ringsBounded (s.stand code arg on).recorder := by
  unfold State.stand
  split
  · split
    · exact h
    · exact raise_ringsBounded _ _ h
  · exact clear_ringsBounded _ _ h

theorem forEach_ringsBounded {α : Type} {f : α → State → State} (hf : ∀ a s, ringsBounded s.recorder → ringsBounded (f a s).recorder) (l : List α) {s : State}
    (h : ringsBounded s.recorder) : ringsBounded (forEach l f s).recorder := by
  induction l generalizing s with
  | nil => exact h
  | cons a l ih => exact ih (hf a s h)

theorem endRound_ringsBounded {s : State} (h : ringsBounded s.recorder) : ringsBounded (endRound s).recorder :=
  forEach_ringsBounded (fun _ _ => clear_ringsBounded _ _) _ h

theorem length_survivors_le (t0 : Nat) (l : List EvRec) : (survivors t0 l).length ≤ l.length := by
  unfold survivors
  extract_lets kept
  have hkept : kept.length ≤ l.length := List.length_filter_le ..
  split
  · simpa using hkept
  · exact hkept

theorem wipeRegion_ringsBounded (t0 g : Nat) {r : RecState} (h : ringsBounded r) : ringsBounded (wipeRegion t0 g r) := by
  unfold wipeRegion
  split
  · exact h
  · exact h
  · exact h
  · intro l hl
    obtain ⟨m, hm, rfl⟩ := List.mem_map.1 hl
    exact (length_survivors_le t0 m).trans (h m hm)

theorem drawToken_ringsBounded (g : Nat) {s : State} (h : ringsBounded s.recorder) : ringsBounded (drawToken g s).recorder := h

theorem clearRegion_ringsBounded (q : Nat × Nat × Nat) {s : State} (h : ringsBounded s.recorder) : ringsBounded (clearRegion q s).recorder := by
  have hwiped : ringsBounded (wipeRegion s.frameStart q.1 s.recorder) := wipeRegion_ringsBounded _ _ h
  exact drawToken_ringsBounded _ (raise_ringsBounded _ _ hwiped)

theorem clearBrick_ringsBounded (j : Nat) {s : State} (h : ringsBounded s.recorder) : ringsBounded (clearBrick j s).recorder :=
  raise_ringsBounded _ _ (show ringsBounded (s.modRecorder _).recorder from h)

theorem commitRound_ringsBounded {s : State} (h : ringsBounded s.recorder) : ringsBounded (commitRound s).recorder := by
  unfold commitRound
  extract_lets s1 s2
  have h1 : ringsBounded s1.recorder :=
    forEach_ringsBounded (fun _ _ => clearBrick_ringsBounded _) _ (forEach_ringsBounded (fun _ _ => clearRegion_ringsBounded _) _ h)
  have h2 : ringsBounded s2.recorder := h1
  exact clear_ringsBounded _ _ (forEach_ringsBounded (fun _ _ => drawToken_ringsBounded _) _ h2)

/-- Settles O45: only a raise makes a ring longer, and it cuts the ring at its bound. -/
theorem ringBound : Obligations.RingBound := fun _ h =>
  ⟨fun _ _ => raise_ringsBounded _ _ h, fun _ _ => raiseRound_ringsBounded _ _ h, fun _ _ => clear_ringsBounded _ _ h,
    fun _ _ _ => stand_ringsBounded _ _ _ h, endRound_ringsBounded h, commitRound_ringsBounded h⟩

end Sys2Proof.Machine
end

section
/-!
PROOF. Following a component through the operations. A component of one part of the state is followed from the end of a chain of operations
to its beginning: an operation that does not touch the part is peeled off by its frame lemma, under the state that `∃ u` names; one that does
has a lemma that says what it does to the component. Here stand the steps of this walk, and what the commands of a host are made of.
-/
namespace Sys2Proof.Machine

theorem keepsBut_ite_iff (ps : List Piece) (r s t : State) (c : Prop) [Decidable c] :
    keepsBut ps r (if c then s else t) ↔ if c then keepsBut ps r s else keepsBut ps r t := by
  split <;> rfl

theorem exists_and_ite {α : Type} (c : Prop) [Decidable c] (P A B : α → Prop) :
    (∃ u, P u ∧ (if c then A u else B u)) ↔ if c then ∃ u, P u ∧ A u else ∃ u, P u ∧ B u := by
  split <;> rfl

/-- A property of the state that a commit ends in holds if it holds on either side of a check. -/
theorem ite_fst_fst_of {β γ : Type} {P : State → Prop} {c : Prop} [Decidable c] {x y : (State × β) × γ} (hx : P x.1.1) (hy : P y.1.1) :
    P (if c then x else y).1.1 := by
  split <;> assumption

theorem keepsBut_foldl_iff {α : Type} {ps : List Piece} {f : State → α → State} (hf : ∀ s a, keepsBut ps s (f s a)) (l : List α) (r s : State) :
    keepsBut ps r (l.foldl f s) ↔ keepsBut ps r s :=
  keepsBut_peel (keepsBut_foldl f hf l s) (List.Subset.refl ps)

/-- What the commands of a host do to the state, once role, target and length have been checked (Table 14-7). -/
inductive HostStep (x : Session) (t : Nat) (a : List Byte) : (State → CmdOut) → Prop
  | accept : HostStep x t a accept
  | answer (st d : Nat) : HostStep x t a (answer st d)
  | unconfirmed : HostStep x t a fun s => answer 6 0x5010 (s.raise 0x5010 0)
  | setpoint (w : Int) : HostStep x t a (holdHost w t)
  | allowance (c d : Nat) : HostStep x t a fun s => accept (holdAllowHost c d t s)
  | select (b : Bool) : HostStep x t a (cmdSelect b)
  | connect (n : Nat) : HostStep x t a (cmdConnect n)
  | disconnect (n : Nat) : HostStep x t a (cmdDisconnect n)
  | closeRest (n : Nat) : HostStep x t a (cmdCloseRest n)
  | clearFailed (n : Nat) : HostStep x t a (cmdClearFailed n)
  | changeMode (m : Nat) : HostStep x t a (cmdChangeMode m x.role t)
  | manualDuty (n d : Nat) : HostStep x t a (cmdManualDuty n d)
  | automatic (n : Nat) : HostStep x t a (cmdAutomatic n)
  | startImp (n : Nat) : HostStep x t a (cmdStartImpEng n)
  | abortImp : HostStep x t a cmdAbortImp
  | startCap (n : Nat) : HostStep x t a (cmdStartCapEng n)
  | abortCap : HostStep x t a cmdAbortCap
  | writeLearned (strs : Nat) : HostStep x t a (cmdWriteLearned strs)
  | renewKey (strs : Nat) : HostStep x t a (cmdRenewKey strs)
  | releaseEntry (n b : Nat) (f : Bool) : HostStep x t a (cmdReleaseEntry n b f)
  | openWire (n b k : Nat) : HostStep x t a (cmdOpenWire n b k)
  | confirm (g v : Nat) : HostStep x t a (cmdConfirm g v)
  | progMode (k : Nat) : HostStep x t a (cmdProgMode k t)
  | force (i v : Nat) : HostStep x t a (cmdForce i v t)
  | release (i : Nat) : HostStep x t a (cmdRelease i t)
  | activateProg (v : Nat) : HostStep x t a (cmdActivateProg v t)
  | clearRegion (g token : Nat) : HostStep x t a (cmdClearRegion x.id g token)
  | activateUpdate (v : Nat) : HostStep x t a (cmdActivateUpdate v t)
  | abortUpdate : HostStep x t a cmdAbortUpdate
  | deepTest (k : Nat) : HostStep x t a (cmdDeepTest k)

/-- A property that every such step keeps is kept by a COMMAND of the host. -/
theorem runCommand_induct {P : State → Prop} (x : Session) (t code target : Nat) (a : List Byte) (h : ∀ f, HostStep x t a f → ∀ s, P s → P (f s).1) {s : State}
    (hs : P s) : P (runCommand x t code target a s).1 := by
  unfold runCommand
  extract_lets eng op form mdl strs isStr each any
  have hform (role ok : Bool) (len : Nat) (f : State → CmdOut) (hf : ∀ s, P s → P (f s).1) : P (form role ok len f).1 := by
    simp only [form]
    repeat' split
    · exact hs
    · exact hs
    · exact hs
    · exact hf s hs
  clear_value form
  have hmdl (role : Bool) (len : Nat) (f : State → CmdOut) (hf : ∀ s, P s → P (f s).1) : P (mdl role len f).1 := hform role _ len f hf
  have heach (role : Bool) (len : Nat) (f : Nat → State → CmdOut) (hf : ∀ n s, P s → P (f n s).1) : P (each role len f).1 := by
    refine hform role isStr len _ ?_
    intro s hs
    have hfold : ∀ (l : List Nat) (acc : CmdOut), P acc.1 → P (l.foldl (fun acc n => let r := f n acc.1; if acc.2.1 == 0 then r else (r.1, acc.2)) acc).1 := by
      intro l
      induction l with
      | nil => exact fun acc ha => ha
      | cons n l ih =>
        intro acc ha
        refine ih _ ?_
        dsimp only
        split <;> exact hf n acc.1 ha
    exact hfold _ _ hs
  have hany (f : State → Bool) (g : State → CmdOut) (hg : ∀ s, P s → P (g s).1) : P (any f g).1 := by
    refine hform eng _ 0 _ ?_
    intro s hs
    split
    · exact hg s hs
    · exact hs
  have hstep {f : State → CmdOut} (hf : HostStep x t a f) : ∀ s, P s → P (f s).1 := h f hf
  have hchk (c : Prop) [Decidable c] {f : State → CmdOut} (hf : HostStep x t a f) (s : State) (hs : P s) : P (if c then answer 9 0 s else f s).1 := by
    split
    · exact hs
    · exact h f hf s hs
  clear_value mdl each any
  split
  · exact hmdl _ _ _ (hstep (.setpoint _))
  · exact hmdl _ _ _ (hstep (.allowance _ _))
  · exact hmdl _ _ _ (hchk _ (.select _))
  · exact heach _ _ _ fun n => hstep (.connect n)
  · exact heach _ _ _ fun n => hstep (.disconnect n)
  · exact heach _ _ _ fun n => hstep (.closeRest n)
  · exact heach _ _ _ fun n => hstep (.clearFailed n)
  · exact hmdl _ _ _ (hstep (.changeMode _))
  · exact hmdl _ _ _ (hstep .accept)
  · exact heach _ _ _ fun n => hstep (.manualDuty n _)
  · exact heach _ _ _ fun n => hstep (.automatic n)
  · exact heach _ _ _ fun n => hstep (.startImp n)
  · exact hany _ _ (hstep .abortImp)
  · exact heach _ _ _ fun n => hstep (.startCap n)
  · exact hany _ _ (hstep .abortCap)
  · exact hform _ _ _ _ (hstep (.writeLearned _))
  · exact hform _ _ _ _ (hstep (.renewKey _))
  · exact heach _ _ _ fun n => hchk _ (.releaseEntry n _ _)
  · exact heach _ _ _ fun n => hstep (.openWire n _ _)
  · split
    · exact hmdl _ _ _ (hstep (.confirm _ _))
    · exact h _ .unconfirmed s hs
  · exact hmdl _ _ _ (hchk _ (.progMode _))
  · exact hmdl _ _ _ (hstep (.force _ _))
  · exact hmdl _ _ _ (hstep (.release _))
  · exact hmdl _ _ _ (hstep (.activateProg _))
  · exact hmdl _ _ _ (hstep (.clearRegion _ _))
  · exact hmdl _ _ _ (hstep (.activateUpdate _))
  · exact hmdl _ _ _ (hstep .abortUpdate)
  · exact hmdl _ _ _ (hstep (.deepTest _))
  · exact hs

end Sys2Proof.Machine
end

section
/-!
PROOF. Properties of the time unit that a cycle of the program keeps: of module time and its counters it only empties capture queues.
-/
namespace Sys2Proof.Machine

/-- Every part of the state but the time unit. -/
def notTime : List Piece := .pending :: allBut [.time]

/-- The time unit has the property Q. -/
def timeHas (Q : TimeState → Prop) (s : State) : Prop := Q s.time

theorem timeHas_follow (Q : TimeState → Prop) (t : State) : (∃ u, timeHas Q u ∧ keepsBut notTime u t) ↔ timeHas Q t :=
  ⟨fun ⟨_, hu, hk⟩ => (congrArg Q (hk .time (by decide))).mpr hu, fun h => ⟨t, h, keepsBut_refl _ _⟩⟩

theorem timeHas_iff_of_follow {Q : TimeState → Prop} {s t : State} (h : (∃ u, timeHas Q u ∧ keepsBut notTime u t) ↔ timeHas Q s) :
    timeHas Q t ↔ timeHas Q s := (timeHas_follow Q t).symm.trans h

theorem timeHas_popCapture {Q : TimeState → Prop} (hQ : ∀ x c, Q { x with capture := c } ↔ Q x) (k : Nat) (s : State) :
    timeHas Q (popCapture k s).2 ↔ timeHas Q s := by
  unfold popCapture
  split
  · rfl
  · exact hQ _ _

theorem timeHas_readBlock {Q : TimeState → Prop} (hQ : ∀ x c, Q { x with capture := c } ↔ Q x) (l : LatchIn) (d : InstDef) (x : InstSt) (s : State) :
    timeHas Q (readBlock l d x s) ↔ timeHas Q s := by
  unfold readBlock
  extract_lets inp
  split
  case h_6 =>
    have hpop := timeHas_popCapture hQ d.param s
    split
    next e s1 he =>
      rw [he] at hpop
      refine timeHas_iff_of_follow ?_
      simp +decide [keepsBut_outK, hpop, timeHas_follow]
    next s1 he =>
      rw [he] at hpop
      refine timeHas_iff_of_follow ?_
      simp +decide [keepsBut_outK, hpop, timeHas_follow]
  case h_1 =>
    split
    all_goals
      refine timeHas_iff_of_follow ?_
      simp +decide [keepsBut_outK, timeHas_follow]
  all_goals
    refine timeHas_iff_of_follow ?_
    simp +decide +zetaDelta [keepsBut_outK, -keepsBut_ite, keepsBut_ite_iff, timeHas_follow]

theorem timeHas_execInst {Q : TimeState → Prop} (hQ : ∀ x c, Q { x with capture := c } ↔ Q x) (l : LatchIn) (d : InstDef) (s : State) :
    timeHas Q (execInst l d s) ↔ timeHas Q s := by
  unfold execInst
  extract_lets x dt ins inp fl nums put
  have hput (y : InstSt) (s : State) : timeHas Q (put y s) ↔ ∃ u, timeHas Q u ∧ keepsBut notTime u s := by
    rw [timeHas_follow]
    refine timeHas_iff_of_follow ?_
    simp +decide [put, timeHas_follow]
  have hout (k : Nat) (f : Nat → State → State) (hf : ∀ o s, keepsBut notTime s (f o s)) (s : State) :
      timeHas Q (outK d k f s) ↔ ∃ u, timeHas Q u ∧ keepsBut notTime u s := by
    rw [timeHas_follow]
    refine timeHas_iff_of_follow ?_
    simp +decide [keepsBut_outK hf, timeHas_follow]
  have hflow (c : Prop) [Decidable c] (f g : Nat → State → State) (s : State) :
      outK d 0 (if c then f else g) s = if c then outK d 0 f s else outK d 0 g s := by split <;> rfl
  have hread := timeHas_readBlock hQ l d x s
  clear_value put
  refine timeHas_iff_of_follow ?_
  simp +decide +zetaDelta [hput, hflow, hread, keepsBut_outK, -keepsBut_ite, keepsBut_ite_iff, exists_and_ite, timeHas_follow]

theorem timeHas_runCycle {Q : TimeState → Prop} (hQ : ∀ x c, Q { x with capture := c } ↔ Q x) (s : State) : timeHas Q (runCycle s) ↔ timeHas Q s := by
  have hinsts : ∀ l is s, timeHas Q (forEach is (execInst l) s) ↔ timeHas Q s := by
    intro l is s
    induction is generalizing s with
    | nil => rfl
    | cons d is ih => exact (ih _).trans (timeHas_execInst hQ l d s)
  unfold runCycle
  extract_lets s1 l s2 s3 s4 outs
  have h2 : timeHas Q s2 ↔ timeHas Q s := timeHas_iff_of_follow (by simp +decide [s2, s1, timeHas_follow])
  have h4 : timeHas Q s4 ↔ timeHas Q s3 := by
    simp only [s4]
    split
    · exact timeHas_iff_of_follow (by simp +decide [timeHas_follow])
    · exact timeHas_iff_of_follow (by simp +decide [timeHas_follow])
  exact h4.trans ((hinsts _ _ _).trans h2)

theorem timeHas_progPublication {Q : TimeState → Prop} (hQ : ∀ x c, Q { x with capture := c } ↔ Q x) (s : State) :
    timeHas Q (progPublication s) ↔ timeHas Q s := by
  unfold progPublication
  extract_lets s1
  have h1 : timeHas Q s1 ↔ timeHas Q s := timeHas_iff_of_follow (by simp +decide [s1, timeHas_follow])
  split
  · rfl
  · split
    · exact (timeHas_runCycle hQ s1).trans h1
    · exact h1

end Sys2Proof.Machine
end

section
/-!
PROOF. TimeNeverBack: module time is followed through the operations that change the time unit. Each of them keeps it, or moves it on to the
instant of its command (R31); only the two commands under which R366 sets it do else.
-/
set_option linter.unusedSimpArgs false

namespace Sys2Proof.Machine

/-- Module time has reached w. -/
def laterThan (w : Nat) (s : State) : Prop := w ≤ s.time.now

@[simp] theorem laterThan_follow (w : Nat) (t : State) : (∃ u, laterThan w u ∧ keepsBut notTime u t) ↔ laterThan w t :=
  ⟨fun ⟨u, hu, hk⟩ => hu.trans_eq (congrArg TimeState.now (hk .time (by decide))).symm, fun h => ⟨t, h, keepsBut_refl _ _⟩⟩

theorem laterThan_iff_of_follow {s t : State} {w : Nat} (h : (∃ u, laterThan w u ∧ keepsBut notTime u t) ↔ laterThan w s) : laterThan w t ↔ laterThan w s :=
  (laterThan_follow w t).symm.trans h

@[simp] theorem laterThan_modTime (w : Nat) (f : TimeState → TimeState) (s : State) (hf : ∀ x, (f x).now = x.now) :
    laterThan w (s.modTime f) ↔ ∃ u, laterThan w u ∧ keepsBut notTime u s := by
  rw [laterThan_follow]; simp [laterThan, hf]

@[simp] theorem laterThan_at {w : Nat} {s : State} (h : laterThan w s) (t : Nat) : laterThan w (s.at_ t) := h.trans (le_max_left ..)

@[simp] theorem laterThan_forEach {α : Type} (w : Nat) (l : List α) (f : α → State → State) (s : State)
    (hf : ∀ w a s, (∃ u, laterThan w u ∧ keepsBut notTime u (f a s)) ↔ laterThan w s) :
    laterThan w (forEach l f s) ↔ ∃ u, laterThan w u ∧ keepsBut notTime u s := by
  rw [laterThan_follow]
  induction l generalizing s with
  | nil => rfl
  | cons a l ih => exact (ih (f a s)).trans ((laterThan_follow w _).symm.trans (hf w a s))

@[simp] theorem laterThan_workDone (w k : Nat) (s : State) : laterThan w (State.workDone k s) ↔ ∃ u, laterThan w u ∧ keepsBut notTime u s := by
  rw [← laterThan_follow, State.workDone]
  simp +decide [-keepsBut_ite, keepsBut_ite_iff, exists_and_ite]

@[simp] theorem laterThan_mainReset (w : Nat) (p : Phase) (cause : Nat) (s : State) : laterThan w (mainReset p cause s) ↔ ∃ u, laterThan w u ∧ keepsBut notTime u s := by
  rw [laterThan_follow]
  rfl

@[simp] theorem laterThan_restartModule (w : Nat) (cause : Nat) (s : State) : laterThan w (restartModule cause s) ↔ ∃ u, laterThan w u ∧ keepsBut notTime u s := by
  rw [← laterThan_follow, restartModule]
  simp +decide [-keepsBut_ite, keepsBut_ite_iff, exists_and_ite]

@[simp] theorem laterThan_judgeSync (w : Nat) (t : Nat) (s : State) : laterThan w (judgeSync t s) ↔ ∃ u, laterThan w u ∧ keepsBut notTime u s := by
  rw [← laterThan_follow, judgeSync]
  repeat' split
  all_goals simp +decide [-keepsBut_ite, keepsBut_ite_iff, exists_and_ite]

@[simp] theorem laterThan_offsetSample (w : Nat) (k : Nat) (o : Rat) (t : Nat) (s : State) : laterThan w (offsetSample k o t s) ↔ ∃ u, laterThan w u ∧ keepsBut notTime u s := by
  rw [← laterThan_follow, offsetSample]
  repeat' split
  all_goals simp +decide [-keepsBut_ite, keepsBut_ite_iff, exists_and_ite]

@[simp] theorem laterThan_judgeHoldover (w : Nat) (t : Nat) (s : State) : laterThan w (judgeHoldover t s) ↔ ∃ u, laterThan w u ∧ keepsBut notTime u s := by
  rw [← laterThan_follow, judgeHoldover]
  repeat' split
  all_goals simp +decide [-keepsBut_ite, keepsBut_ite_iff, exists_and_ite]

@[simp] theorem laterThan_rateStep (w : Nat) (s : State) : laterThan w (rateStep s) ↔ ∃ u, laterThan w u ∧ keepsBut notTime u s := by
  rw [← laterThan_follow, rateStep]
  simp +decide [-keepsBut_ite, keepsBut_ite_iff, exists_and_ite]

@[simp] theorem laterThan_selectMaster (w : Nat) (t : Nat) (s : State) : laterThan w (selectMaster t s) ↔ ∃ u, laterThan w u ∧ keepsBut notTime u s := by
  rw [laterThan_follow]
  rfl

@[simp] theorem laterThan_peerChange (w : Nat) (t port : Nat) (valid : Bool) (s : State) : laterThan w (peerChange t port valid s) ↔ ∃ u, laterThan w u ∧ keepsBut notTime u s := by
  rw [← laterThan_follow, peerChange]
  simp +decide [-keepsBut_ite, keepsBut_ite_iff, exists_and_ite]

@[simp] theorem laterThan_takeStamp (w : Nat) (id port t : Nat) (s : State) : laterThan w (takeStamp id port t s).1 ↔ ∃ u, laterThan w u ∧ keepsBut notTime u s := by
  rw [← laterThan_follow, takeStamp]
  repeat' split
  all_goals simp +decide [-keepsBut_ite, keepsBut_ite_iff, exists_and_ite]

@[simp] theorem laterThan_releaseStamp (w : Nat) (id port : Nat) (s : State) : laterThan w (releaseStamp id port s) ↔ ∃ u, laterThan w u ∧ keepsBut notTime u s := by
  rw [← laterThan_follow, releaseStamp]
  simp +decide [-keepsBut_ite, keepsBut_ite_iff, exists_and_ite]

@[simp] theorem laterThan_sentTagged (w : Nat) (t port id : Nat) (s : State) : laterThan w (sentTagged t port id s) ↔ ∃ u, laterThan w u ∧ keepsBut notTime u s := by
  rw [← laterThan_follow, sentTagged]
  simp +decide [keepsBut_foldl_iff]

@[simp] theorem laterThan_syncOnPort (w : Nat) (seq : Nat) (pt : Nat × Nat) (s : State) : laterThan w (syncOnPort seq pt s) ↔ ∃ u, laterThan w u ∧ keepsBut notTime u s := by
  rw [← laterThan_follow, syncOnPort]
  repeat' split
  all_goals simp +decide [-keepsBut_ite, keepsBut_ite_iff, exists_and_ite]

@[simp] theorem laterThan_fireUnit (w : Nat) (u : Nat) (s : State) : laterThan w (fireUnit u s) ↔ ∃ u, laterThan w u ∧ keepsBut notTime u s := by
  rw [← laterThan_follow, fireUnit]
  repeat' split
  all_goals simp +decide [-keepsBut_ite, keepsBut_ite_iff, exists_and_ite]

@[simp] theorem laterThan_armUnit (w : Nat) (u : Nat) (s : State) : laterThan w (armUnit u s) ↔ ∃ u, laterThan w u ∧ keepsBut notTime u s := by
  rw [← laterThan_follow, armUnit]
  repeat' split
  all_goals simp +decide [-keepsBut_ite, keepsBut_ite_iff, exists_and_ite]

@[simp] theorem laterThan_placeSample (w : Nat) (s : State) : laterThan w (placeSample s) ↔ ∃ u, laterThan w u ∧ keepsBut notTime u s := by
  rw [← laterThan_follow, placeSample]
  repeat' split
  all_goals simp +decide [-keepsBut_ite, keepsBut_ite_iff, exists_and_ite]

@[simp] theorem laterThan_sendStatus (w : Nat) (mode : Nat) (reference : Int) (eDis eChg safety connected incomplete : Nat) (s : State) : laterThan w (sendStatus mode reference eDis eChg safety connected incomplete s) ↔ ∃ u, laterThan w u ∧ keepsBut notTime u s := by
  rw [← laterThan_follow, sendStatus]
  simp +decide [-keepsBut_ite, keepsBut_ite_iff, exists_and_ite]

@[simp] theorem laterThan_armReference (w : Nat) (s : State) : laterThan w (armReference s) ↔ ∃ u, laterThan w u ∧ keepsBut notTime u s := by
  rw [← laterThan_follow, armReference]
  repeat' split
  all_goals simp +decide [-keepsBut_ite, keepsBut_ite_iff, exists_and_ite]

@[simp] theorem laterThan_usePair (w : Nat) (mid cnt sof time : Nat) (synced : Bool) (t : Nat) (s : State) : laterThan w (usePair mid cnt sof time synced t s) ↔ ∃ u, laterThan w u ∧ keepsBut notTime u s := by
  rw [← laterThan_follow, usePair]
  repeat' split
  all_goals simp +decide [-keepsBut_ite, keepsBut_ite_iff, exists_and_ite]

@[simp] theorem laterThan_pairTime (w : Nat) (p : Nat) (f : CanFrame) (s : State) : laterThan w (pairTime p f s) ↔ ∃ u, laterThan w u ∧ keepsBut notTime u s := by
  rw [laterThan_follow]
  unfold pairTime
  extract_lets mid cnt mine
  repeat' split
  all_goals
    refine laterThan_iff_of_follow ?_
    simp +decide +zetaDelta [-keepsBut_ite, keepsBut_ite_iff, exists_and_ite]

@[simp] theorem laterThan_coSend (w : Nat) (kind id : Nat) (d : List Byte) (s : State) : laterThan w (coSend kind id d s) ↔ ∃ u, laterThan w u ∧ keepsBut notTime u s := by
  rw [← laterThan_follow, coSend]
  repeat' split
  all_goals simp +decide [-keepsBut_ite, keepsBut_ite_iff, exists_and_ite]

@[simp] theorem laterThan_heartbeatOf (w : Nat) (k : Nat) (ts : Nat) (s : State) : laterThan w (heartbeatOf k ts s) ↔ ∃ u, laterThan w u ∧ keepsBut notTime u s := by
  rw [← laterThan_follow, heartbeatOf]
  repeat' split
  all_goals simp +decide [-keepsBut_ite, keepsBut_ite_iff, exists_and_ite]

@[simp] theorem laterThan_canFrame (w : Nat) (s : State) : laterThan w (canFrame s) ↔ ∃ u, laterThan w u ∧ keepsBut notTime u s := by
  rw [← laterThan_follow, canFrame]
  simp +decide [-keepsBut_ite, keepsBut_ite_iff, exists_and_ite]

@[simp] theorem laterThan_fslStatus (w : Nat) (g : Nat) (s : State) : laterThan w (fslStatus g s) ↔ ∃ u, laterThan w u ∧ keepsBut notTime u s := by
  rw [← laterThan_follow, fslStatus]
  repeat' split
  all_goals simp +decide [-keepsBut_ite, keepsBut_ite_iff, exists_and_ite]

@[simp] theorem laterThan_safetyEvaluation (w : Nat) (selfOk : Bool) (s : State) : laterThan w (safetyEvaluation selfOk s) ↔ ∃ u, laterThan w u ∧ keepsBut notTime u s := by
  rw [← laterThan_follow, safetyEvaluation]
  repeat' split
  all_goals simp +decide [-keepsBut_ite, keepsBut_ite_iff, exists_and_ite]

@[simp] theorem laterThan_runCycle (w : Nat) (s : State) : laterThan w (runCycle s) ↔ ∃ u, laterThan w u ∧ keepsBut notTime u s := by
  rw [laterThan_follow]
  exact timeHas_runCycle (Q := fun x => w ≤ x.now) (fun _ _ => Iff.rfl) s

@[simp] theorem laterThan_progPublication (w : Nat) (s : State) : laterThan w (progPublication s) ↔ ∃ u, laterThan w u ∧ keepsBut notTime u s := by
  rw [← laterThan_follow, progPublication]
  repeat' split
  all_goals simp +decide [-keepsBut_ite, keepsBut_ite_iff, exists_and_ite]

@[simp] theorem laterThan_rpdoStation (w : Nat) (k : Nat) (s : State) : laterThan w (rpdoStation k s) ↔ ∃ u, laterThan w u ∧ keepsBut notTime u s := by
  rw [← laterThan_follow, rpdoStation]
  repeat' split
  all_goals simp +decide [-keepsBut_ite, keepsBut_ite_iff, exists_and_ite]

@[simp] theorem laterThan_rpdoFrame (w : Nat) (s : State) : laterThan w (rpdoFrame s) ↔ ∃ u, laterThan w u ∧ keepsBut notTime u s := by
  rw [← laterThan_follow, rpdoFrame]
  repeat' split
  all_goals simp +decide [-keepsBut_ite, keepsBut_ite_iff, exists_and_ite]

@[simp] theorem laterThan_reinitTime (w : Nat) (s : State) : laterThan w (reinitTime s) ↔ ∃ u, laterThan w u ∧ keepsBut notTime u s := by
  rw [← laterThan_follow, reinitTime]
  simp +decide [-keepsBut_ite, keepsBut_ite_iff, exists_and_ite]

@[simp] theorem laterThan_endSlice (w : Nat) (pos : Nat) (pass : Bool) (detail : Nat) (s : State) : laterThan w (endSlice pos pass detail s) ↔ ∃ u, laterThan w u ∧ keepsBut notTime u s := by
  rw [← laterThan_follow, endSlice]
  repeat' split
  all_goals simp +decide [-keepsBut_ite, keepsBut_ite_iff, exists_and_ite]

@[simp] theorem laterThan_activationFrame (w : Nat) (s : State) : laterThan w (activationFrame s) ↔ ∃ u, laterThan w u ∧ keepsBut notTime u s := by
  rw [← laterThan_follow, activationFrame]
  repeat' split
  all_goals simp +decide [-keepsBut_ite, keepsBut_ite_iff, exists_and_ite]

@[simp] theorem laterThan_opCapRead (w : Nat) (pay : List Byte) (s : State) : laterThan w (opCapRead pay s).1 ↔ ∃ u, laterThan w u ∧ keepsBut notTime u s := by
  rw [← laterThan_follow, opCapRead]
  repeat' split
  all_goals simp +decide [-keepsBut_ite, keepsBut_ite_iff, exists_and_ite]

@[simp] theorem laterThan_runOp (w : Nat) (k : Nat) (x : Session) (t seq opcode : Nat) (pay : List Byte) (env : FhpEnv) (s : State) : laterThan w (runOp k x t seq opcode pay env s).1 ↔ ∃ u, laterThan w u ∧ keepsBut notTime u s := by
  rw [laterThan_follow]
  unfold runOp
  extract_lets st parts
  split
  · rfl
  · split
    all_goals
      refine laterThan_iff_of_follow ?_
      simp +decide +zetaDelta [-keepsBut_ite, keepsBut_ite_iff, exists_and_ite, onePart, apply_ite Prod.fst, apply_ite Prod.snd]

@[simp] theorem laterThan_carryOut (w : Nat) (k : Nat) (x : Session) (t seq opcode : Nat) (pay : List Byte) (env : FhpEnv) (s : State) : laterThan w (carryOut k x t seq opcode pay env s) ↔ ∃ u, laterThan w u ∧ keepsBut notTime u s := by
  rw [← laterThan_follow, carryOut]
  repeat' split
  all_goals simp +decide [-keepsBut_ite, keepsBut_ite_iff, exists_and_ite]

@[simp] theorem laterThan_handleRequest (w : Nat) (k t seq opcode : Nat) (pay : List Byte) (env : FhpEnv) (s : State) : laterThan w (handleRequest k t seq opcode pay env s) ↔ ∃ u, laterThan w u ∧ keepsBut notTime u s := by
  rw [← laterThan_follow, handleRequest]
  repeat' split
  all_goals simp +decide [-keepsBut_ite, keepsBut_ite_iff, exists_and_ite]

@[simp] theorem laterThan_receive (w : Nat) (t addr port : Nat) (bytes : List Byte) (env : FhpEnv) (s : State) : laterThan w (receive t addr port bytes env s) ↔ ∃ u, laterThan w u ∧ keepsBut notTime u s := by
  rw [← laterThan_follow, receive]
  repeat' split
  all_goals simp +decide [-keepsBut_ite, keepsBut_ite_iff, exists_and_ite]

@[simp] theorem laterThan_request {w : Nat} (t id seq opcode : Nat) (pay : List Byte) (env : FhpEnv) {s : State} (h : laterThan w s) : laterThan w (request t id seq opcode pay env s) := by
  have h1 : laterThan w (s.at_ t) := laterThan_at h t
  unfold request
  extract_lets s1
  split
  · exact h1
  split
  all_goals exact (laterThan_iff_of_follow (s := s1) (by simp +decide)).2 h1

@[simp] theorem laterThan_stepTimeWait (w : Nat) (s : State) : laterThan w (stepTimeWait s).1 ↔ ∃ u, laterThan w u ∧ keepsBut notTime u s := by
  rw [← laterThan_follow, stepTimeWait]
  repeat' split
  all_goals simp +decide [-keepsBut_ite, keepsBut_ite_iff, exists_and_ite]

@[simp] theorem laterThan_doStep (w : Nat) (k : Nat) (env : StartEnv) (s : State) : laterThan w (doStep k env s).1 ↔ ∃ u, laterThan w u ∧ keepsBut notTime u s := by
  rw [laterThan_follow]
  unfold doStep
  simp only [apply_ite Prod.fst]
  all_goals
    refine laterThan_iff_of_follow ?_
    simp +decide [-keepsBut_ite, keepsBut_ite_iff, exists_and_ite]

@[simp] theorem laterThan_failStart (w : Nat) (k detail : Nat) (s : State) : laterThan w (failStart k detail s) ↔ ∃ u, laterThan w u ∧ keepsBut notTime u s := by
  rw [← laterThan_follow, failStart]
  repeat' split
  all_goals simp +decide [-keepsBut_ite, keepsBut_ite_iff, exists_and_ite]

@[simp] theorem laterThan_driveUnit (w : Nat) (u t : Nat) (s : State) : laterThan w (driveUnit u t s) ↔ ∃ u, laterThan w u ∧ keepsBut notTime u s := by
  rw [← laterThan_follow, driveUnit]
  repeat' split
  all_goals simp +decide [-keepsBut_ite, keepsBut_ite_iff, exists_and_ite]

@[simp] theorem laterThan_fireOutputs (w : Nat) (s : State) : laterThan w (fireOutputs s) ↔ ∃ u, laterThan w u ∧ keepsBut notTime u s := by
  rw [← laterThan_follow, fireOutputs]
  repeat' split
  all_goals simp +decide [-keepsBut_ite, keepsBut_ite_iff, exists_and_ite]

@[simp] theorem laterThan_openFrame (w : Nat) (late : Bool) (s : State) : laterThan w (openFrame late s) ↔ ∃ u, laterThan w u ∧ keepsBut notTime u s := by
  rw [← laterThan_follow, openFrame]
  repeat' split
  all_goals simp +decide [-keepsBut_ite, keepsBut_ite_iff, exists_and_ite]

@[simp] theorem laterThan_runFrame (w : Nat) (late : Bool) (s : State) : laterThan w (runFrame late s) ↔ ∃ u, laterThan w u ∧ keepsBut notTime u s := by
  rw [← laterThan_follow, runFrame]
  simp +decide [-keepsBut_ite, keepsBut_ite_iff, exists_and_ite]

@[simp] theorem laterThan_statusFrame (w : Nat) (img : Image) (s : State) : laterThan w (statusFrame img s) ↔ ∃ u, laterThan w u ∧ keepsBut notTime u s := by
  rw [← laterThan_follow, statusFrame]
  repeat' split
  all_goals simp +decide [-keepsBut_ite, keepsBut_ite_iff, exists_and_ite]

@[simp] theorem laterThan_guardDo {w : Nat} (t : Nat) {f : State → State} {s : State} (h : laterThan w s) (hf : ∀ s, keepsBut notTime s (f s)) :
    laterThan w (guardDo t f s) := by
  have h1 : laterThan w (s.at_ t) := laterThan_at h t
  unfold guardDo
  extract_lets s1
  split
  · refine (laterThan_iff_of_follow (s := s1) ?_).2 h1
    have hfol : laterThan w (f s1) ↔ laterThan w s1 := (laterThan_follow w _).symm.trans ⟨fun ⟨u, hu, hk⟩ => (laterThan_follow w s1).1 ⟨u, hu, keepsBut_trans hk (keepsBut_symm (hf s1))⟩, fun hs => ⟨s1, hs, hf s1⟩⟩
    simp +decide [hfol]
  · exact h1

theorem laterThan_takeCo {w : Nat} {codes : List Nat} {s s1 : State} {f : CanFrame} (h : takeCo codes s = some (f, s1)) : laterThan w s1 ↔ laterThan w s := by
  obtain ⟨r, _, hr⟩ := Option.map_eq_some_iff.1 h
  cases hr
  refine laterThan_iff_of_follow ?_
  simp +decide

/-! ### Commands with a branch of their own -/

theorem laterThan_of_keepsBut {w : Nat} {s t : State} (hk : keepsBut notTime s t) (h : laterThan w s) : laterThan w t := (laterThan_follow w t).1 ⟨s, h, hk⟩

theorem execTickBoundary_laterThan {w : Nat} {s : State} (h : laterThan w s) (t : Nat) (ana : Density) : answers (execTickBoundary t ana s) (laterThan w) := by
  unfold execTickBoundary
  extract_lets s0 s1 s2
  have h0 : laterThan w s0 := (laterThan_iff_of_follow (s := s.at_ t) (by simp +decide [s0])).2 (laterThan_at h t)
  refine answers_ite (answers_next h0) (answers_next ?_)
  have h2 : laterThan w s2 := (laterThan_iff_of_follow (by simp +decide [s2, s1, -keepsBut_ite, keepsBut_ite_iff, exists_and_ite])).2 h0
  refine laterThan_of_keepsBut (keepsBut_forEach _ _ (fun n s => ?_) _) h2
  dsimp only
  split
  · simp +decide
  · simp

theorem execVmainLoss_laterThan {w : Nat} {s : State} (h : laterThan w s) (t : Nat) : answers (execVmainLoss t s) (laterThan w) :=
  answers_ite (answers_next (laterThan_at h t)) (answers_next (laterThan_at h t))

theorem execCanTxRemoval_laterThan {w : Nat} {s : State} (h : laterThan w s) (t : Nat) : answers (execCanTxRemoval t s) (laterThan w) := by
  refine answers_ite (answers_next (laterThan_of_keepsBut (keepsBut_forEach _ _ (fun p s => ?_) _) (laterThan_at h t))) (answers_next (laterThan_at h t))
  exact keepsBut_forEach_of (fun _ _ => by simp +decide) (by simp +decide)

theorem execGuardValue_laterThan {w : Nat} {s : State} (h : laterThan w s) (t : Nat) (ch : List GuardDens) : answers (execGuardValue t ch s) (laterThan w) :=
  answers_next (laterThan_guardDo t h fun s => (keepsBut_formValues (by decide) ..).2 (keepsBut_refl _ _))

theorem execGuardMean_laterThan {w : Nat} {s : State} (h : laterThan w s) (t : Nat) (ch : List GuardDens) : answers (execGuardMean t ch s) (laterThan w) := by
  refine answers_next (laterThan_guardDo t h fun s => (keepsBut_modGuard (by decide) ..).2 (keepsBut_ite_of (keepsBut_refl _ _) ?_))
  exact (keepsBut_formValues (by decide) ..).2 (keepsBut_refl _ _)

theorem execResetNRise_laterThan {w : Nat} {s : State} (h : laterThan w s) (t tr : Nat) : answers (execResetNRise t tr s) (laterThan w) := by
  refine answers_next (laterThan_guardDo t h fun s => ?_)
  dsimp only
  split
  all_goals simp +decide

theorem execStuckReset_laterThan {w : Nat} {s : State} (h : laterThan w s) (t : Nat) : answers (execStuckReset t s) (laterThan w) := by
  refine answers_next (laterThan_guardDo t h fun s => ?_)
  split
  all_goals simp +decide

theorem execRecorderCommit_laterThan {w : Nat} {s : State} (h : laterThan w s) (t : Nat) : answers (execRecorderCommit t s) (laterThan w) :=
  answers_ite (answers_next ((laterThan_iff_of_follow (s := s.at_ t) (by simp +decide)).2 (laterThan_at h t))) (answers_next (laterThan_at h t))

theorem execSampleInstant_laterThan {w : Nat} {s : State} (h : laterThan w s) (t : Nat) (net : List Int) (k : Nat) (ch : List Density) (gpio : BitVec 16) :
    answers (execSampleInstant t net k ch gpio s) (laterThan w) := by
  have hfired : laterThan w ((fireUnit 2 (s.at_ t)).workDone 0) := (laterThan_iff_of_follow (s := s.at_ t) (by simp +decide)).2 (laterThan_at h t)
  exact answers_ite (answers_next ((laterThan_iff_of_follow (by simp +decide)).2 hfired)) (answers_next h)

theorem execUplinkDeadline_laterThan {w : Nat} {s : State} (h : laterThan w s) (t : Nat) : answers (execUplinkDeadline t s) (laterThan w) := by
  have hfired : laterThan w (fireUnit 15 (s.at_ t)) := (laterThan_iff_of_follow (s := s.at_ t) (by simp +decide)).2 (laterThan_at h t)
  exact answers_ite (answers_next ((laterThan_iff_of_follow (by simp +decide)).2 hfired)) (answers_next hfired)

theorem execFrameBoundary_laterThan {w : Nat} {s : State} (h : laterThan w s) (t : Nat) (req : List Nat) (lines : List LineFault) (laneFails : List (Nat × Nat)) (late : Bool) :
    answers (execFrameBoundary t req lines laneFails late s) (laterThan w) := by
  unfold execFrameBoundary
  refine answers_ite (answers_next h) ?_
  extract_lets s0 s1 s2 s3 s4
  have hheld : laterThan w ((serveHeld s).at_ t) := laterThan_at (laterThan_of_keepsBut ((keepsBut_serveHeld (by decide) ..).2 (keepsBut_refl _ _)) h) t
  have h3 : laterThan w s3 := (laterThan_iff_of_follow (by simp +decide [s3, s2, s1, s0])).2 hheld
  have h4 : laterThan w s4 := (laterThan_iff_of_follow (by simp +decide [s4, -keepsBut_ite, keepsBut_ite_iff, exists_and_ite])).2 h3
  exact answers_next ((laterThan_iff_of_follow (by simp +decide [-keepsBut_ite, keepsBut_ite_iff, exists_and_ite])).2 h4)

theorem execCanopenHeartbeat_laterThan {w : Nat} {s : State} (h : laterThan w s) (t : Nat) : answers (execCanopenHeartbeat t s) (laterThan w) := by
  have h0 : laterThan w (s.at_ t) := laterThan_at h t
  unfold execCanopenHeartbeat
  extract_lets s0
  split
  · exact answers_next h0
  next f s1 htake =>
    have h1 : laterThan w s1 := (laterThan_takeCo htake).2 h0
    refine answers_ite (answers_next h0) ?_
    split
    · exact answers_next ((laterThan_iff_of_follow (by simp +decide)).2 h1)
    · exact answers_ite (answers_next h1) (answers_next ((laterThan_iff_of_follow (by simp +decide)).2 h1))

theorem execCanopenSdoResponse_laterThan {w : Nat} {s : State} (h : laterThan w s) (t : Nat) : answers (execCanopenSdoResponse t s) (laterThan w) := by
  have h0 : laterThan w (s.at_ t) := laterThan_at h t
  unfold execCanopenSdoResponse
  extract_lets s0
  split
  · exact answers_next h0
  next f s1 htake =>
    have h1 : laterThan w s1 := (laterThan_takeCo htake).2 h0
    split
    · exact answers_next h0
    · refine answers_ite (answers_next h1) (answers_ite ?_ ?_)
      all_goals exact answers_next ((laterThan_iff_of_follow (by simp +decide)).2 h1)
    · exact answers_next h1

theorem execCanopenTpdo_laterThan {w : Nat} {s : State} (h : laterThan w s) (t : Nat) : answers (execCanopenTpdo t s) (laterThan w) := by
  have h0 : laterThan w (s.at_ t) := laterThan_at h t
  unfold execCanopenTpdo
  extract_lets s0
  split
  · exact answers_next h0
  next f s1 htake =>
    have h1 : laterThan w s1 := (laterThan_takeCo htake).2 h0
    have hstation (k : Nat) (g : Station → Station) : answers (.next (updStation k g s1)) (laterThan w) :=
      answers_next ((laterThan_iff_of_follow (by simp +decide)).2 h1)
    split
    · exact answers_next h0
    · refine answers_ite (hstation ..) ?_
      split
      · exact answers_ite (hstation ..) (answers_next h1)
      · exact answers_next h1
    · exact answers_next h1

theorem execCanopenEmcy_laterThan {w : Nat} {s : State} (h : laterThan w s) (t : Nat) : answers (execCanopenEmcy t s) (laterThan w) := by
  have h0 : laterThan w (s.at_ t) := laterThan_at h t
  unfold execCanopenEmcy
  extract_lets s0
  split
  · exact answers_next h0
  next f s1 htake =>
    have h1 : laterThan w s1 := (laterThan_takeCo htake).2 h0
    split
    · exact answers_next h0
    · exact answers_next ((laterThan_iff_of_follow (by simp +decide)).2 h1)
    · exact answers_next h1

/-! ### Every command -/

theorem exec_laterThan_boot (w : Nat) (c : Instr) (s : State) (h : laterThan w s) (hset : (∀ x, c ≠ .startTimeAcquisition x) ∧ c ≠ .vmainReturn)  (hc : Piece.boot ∈ mayChange c) : answers (exec c s) (laterThan w) := by
  have hnext (t : State) (ht : ∃ u, laterThan w u ∧ keepsBut notTime u t) : answers (.next t) (laterThan w) := answers_next ((laterThan_follow w t).1 ht)
  cases c with
  | close | keepalive | readItems | readSlots | readMap | subscribe | unsubscribe | paramRead | editLock | paramWrite | commit | discard | eventList | recRead | progLoad | progRead | updBegin | updChunk | updStatus | capRead | journalRead | bistRead => exact answers_next (laterThan_request _ _ _ _ _ _ h)
  | vmainLoss => exact execVmainLoss_laterThan h _
  | frameBoundary => exact execFrameBoundary_laterThan h _ _ _ _ _
  | porNRelease | porNAssert | startStep | fhpDatagram | startDiscoveryEnd | changeMode | confirmScv | bulkUp | combPublication | safetyEvaluation | safetyEvaluationMissed | fslWatchdogExpiry | fetchTrap | restartModule | dmaHalt | pfwNFall | powerFailSequenceEnd | commitComplete | renewNetworkKey | activationSequence | deepTestEnd =>
    simp -zeta only [exec, execPorNRelease, execPorNAssert, execStartStep, execFhpDatagram, execStartDiscoveryEnd, execChangeMode, execConfirmScv, execBulkUp, execCombPublication, execSafetyEvaluation, execSafetyEvaluationMissed, execFslWatchdogExpiry, execFetchTrap, execRestartModule, execDmaHalt, execPfwNFall, execPowerFailSequenceEnd, execCommitComplete, execRenewNetworkKey, execActivationSequence, execDeepTestEnd]
    repeat' first
      | refine answers_ite ?_ ?_
      | refine hnext _ ?_
      | extract_lets
      | split
    all_goals simp +decide +zetaDelta [-keepsBut_ite, keepsBut_ite_iff, exists_and_ite, h]
  | startTimeAcquisition x => exact absurd rfl (hset.1 x)
  | vmainReturn => exact absurd rfl hset.2
  | _ => exact absurd hc (by simp +decide [mayChange])

theorem exec_laterThan_guard (w : Nat) (c : Instr) (s : State) (h : laterThan w s)  (hboot : Piece.boot ∉ mayChange c) (hc : Piece.guard ∈ mayChange c) : answers (exec c s) (laterThan w) := by
  have hnext (t : State) (ht : ∃ u, laterThan w u ∧ keepsBut notTime u t) : answers (.next t) (laterThan w) := answers_next ((laterThan_follow w t).1 ht)
  cases c with
  | tickBoundary => exact execTickBoundary_laterThan h _ _
  | guardValue => exact execGuardValue_laterThan h _ _
  | guardMean => exact execGuardMean_laterThan h _ _
  | stuckReset => exact execStuckReset_laterThan h _
  | resetNRise => exact execResetNRise_laterThan h _ _
  | measurementLostStop | laneSample | laneTakeover | aliveToggle | permitWithdrawn | floopEdgeDrive | floopInEdge | tripInputChange | tripDiscrepancy | resetNFall | floopEdgeNotReturned | permitLapse | guardScvRecompute | contactorRelease | contactorFeedbackFault | contactorWeld | stuckResetClear | cfbChange | clearFailedConnection | vguardLoss | runDeepSelfTest =>
    simp -zeta only [exec, execMeasurementLostStop, execLaneSample, execLaneTakeover, execAliveToggle, execPermitWithdrawn, execFloopEdgeDrive, execFloopInEdge, execTripInputChange, execTripDiscrepancy, execResetNFall, execFloopEdgeNotReturned, execPermitLapse, execGuardScvRecompute, execContactorRelease, execContactorFeedbackFault, execContactorWeld, execStuckResetClear, execCfbChange, execClearFailedConnection, execVguardLoss, execRunDeepSelfTest]
    repeat' first
      | refine answers_ite ?_ ?_
      | refine hnext _ ?_
      | extract_lets
      | split
    all_goals simp +decide +zetaDelta [-keepsBut_ite, keepsBut_ite_iff, exists_and_ite, h]
  | _ => simp +decide [mayChange] at hboot hc

theorem exec_laterThan_linksOrCan (w : Nat) (c : Instr) (s : State) (h : laterThan w s)  (hboot : Piece.boot ∉ mayChange c) (hguard : Piece.guard ∉ mayChange c) (hc : Piece.links ∈ mayChange c ∨ Piece.can ∈ mayChange c) : answers (exec c s) (laterThan w) := by
  have hnext (t : State) (ht : ∃ u, laterThan w u ∧ keepsBut notTime u t) : answers (.next t) (laterThan w) := answers_next ((laterThan_follow w t).1 ht)
  cases c with
  | uplinkDeadline => exact execUplinkDeadline_laterThan h _
  | canTxRemoval => exact execCanTxRemoval_laterThan h _
  | canopenHeartbeat => exact execCanopenHeartbeat_laterThan h _
  | canopenSdoResponse => exact execCanopenSdoResponse_laterThan h _
  | canopenEmcy => exact execCanopenEmcy_laterThan h _
  | canopenTpdo => exact execCanopenTpdo_laterThan h _
  | uwbSync | beaconNotConfirmed | joinRequest | radioPortReset | radioPortReady | uplink | bulkTransferTimeout | keyActivation | estimatorUpdate | openWireRetry | releaseRosterEntry | openWireTest | fslUnitReceived | burstArm | surveyBins | impedanceSurveyAbort | abortImpedanceSurvey | transmitTimestamp | updateStagingIdle | abortUpdate | updateRollback | canFrameReceived | timeRef | timeFollow | timeRefReceived | timeMasterTakeover | canErrorState | canAutobaud | canopenSync | canopenStationAbsent | timeFollowUpMissing | setpoint | canBusoffRecovery =>
    simp -zeta only [exec, execUwbSync, execBeaconNotConfirmed, execJoinRequest, execRadioPortReset, execRadioPortReady, execUplink, execBulkTransferTimeout, execKeyActivation, execEstimatorUpdate, execOpenWireRetry, execReleaseRosterEntry, execOpenWireTest, execFslUnitReceived, execBurstArm, execSurveyBins, execImpedanceSurveyAbort, execAbortImpedanceSurvey, execTransmitTimestamp, execUpdateStagingIdle, execAbortUpdate, execUpdateRollback, execCanFrameReceived, execTimeRef, execTimeFollow, execTimeRefReceived, execTimeMasterTakeover, execCanErrorState, execCanAutobaud, execCanopenSync, execCanopenStationAbsent, execTimeFollowUpMissing, execSetpoint, execCanBusoffRecovery]
    repeat' first
      | refine answers_ite ?_ ?_
      | refine hnext _ ?_
      | extract_lets
      | split
    all_goals simp +decide +zetaDelta [-keepsBut_ite, keepsBut_ite_iff, exists_and_ite, h]
  | _ => simp +decide [mayChange] at hboot hguard hc

theorem exec_laterThan_recorder (w : Nat) (c : Instr) (s : State) (h : laterThan w s)  (hboot : Piece.boot ∉ mayChange c) (hguard : Piece.guard ∉ mayChange c) (hlinks : ¬(Piece.links ∈ mayChange c ∨ Piece.can ∈ mayChange c)) (hc : Piece.recorder ∈ mayChange c) : answers (exec c s) (laterThan w) := by
  have hnext (t : State) (ht : ∃ u, laterThan w u ∧ keepsBut notTime u t) : answers (.next t) (laterThan w) := answers_next ((laterThan_follow w t).1 ht)
  cases c with
  | recorderCommit => exact execRecorderCommit_laterThan h _
  | outputSaturated | recorderCommitMissed | eventRecord | ptpSync | ptpAnnounce | ptpPdelay | announceTimeout | syncBoundExceeded | ppsInEdge | syncLost | capInEdge | compareArm | clearRecorderRegion | peerDelayExpiry | estimatorOverrun | openWireResultTimeout | burstResultTimeout | foragerStagingFail | programDeadline | resetWindowClose | connectionTimeout | disconnectionTmax | sourceRevert | allowanceTimeout | restWindowExpiry | hostSetpoint | connectString | closeRestWindow | capacitySurveyAbort | abortCapacitySurvey | roundDieSensors | roundSupplySample | bistSlice | bistSliceAbort | ptpSyncSend | openSession | sessionIdleTimeout | push | prpSupervision | manualDuty | automatic | startImpedanceSurvey | startCapacitySurvey | writeLearnedValues | programMode | forceVariable | activateOnlineChange | activateUpdate | updateConfirmation =>
    simp -zeta only [exec, execOutputSaturated, execRecorderCommitMissed, execEventRecord, execPtpSync, execPtpAnnounce, execPtpPdelay, execAnnounceTimeout, execSyncBoundExceeded, execPpsInEdge, execSyncLost, execCapInEdge, execCompareArm, execClearRecorderRegion, execPeerDelayExpiry, execEstimatorOverrun, execOpenWireResultTimeout, execBurstResultTimeout, execForagerStagingFail, execProgramDeadline, execResetWindowClose, execConnectionTimeout, execDisconnectionTmax, execSourceRevert, execAllowanceTimeout, execRestWindowExpiry, execHostSetpoint, execConnectString, execCloseRestWindow, execCapacitySurveyAbort, execAbortCapacitySurvey, execRoundDieSensors, execRoundSupplySample, execBistSlice, execBistSliceAbort, execPtpSyncSend, execOpenSession, execSessionIdleTimeout, execPush, execPrpSupervision, execManualDuty, execAutomatic, execStartImpedanceSurvey, execStartCapacitySurvey, execWriteLearnedValues, execProgramMode, execForceVariable, execActivateOnlineChange, execActivateUpdate, execUpdateConfirmation]
    repeat' first
      | refine answers_ite ?_ ?_
      | refine hnext _ ?_
      | extract_lets
      | split
    all_goals simp +decide +zetaDelta [-keepsBut_ite, keepsBut_ite_iff, exists_and_ite, h]
  | _ => simp +decide [mayChange] at hboot hguard hlinks hc

theorem exec_laterThan_other (w : Nat) (c : Instr) (s : State) (h : laterThan w s)  (hboot : Piece.boot ∉ mayChange c) (hguard : Piece.guard ∉ mayChange c) (hlinks : ¬(Piece.links ∈ mayChange c ∨ Piece.can ∈ mayChange c)) (hc : Piece.recorder ∉ mayChange c) : answers (exec c s) (laterThan w) := by
  have hnext (t : State) (ht : ∃ u, laterThan w u ∧ keepsBut notTime u t) : answers (.next t) (laterThan w) := answers_next ((laterThan_follow w t).1 ht)
  cases c with
  | sampleInstant => exact execSampleInstant_laterThan h _ _ _ _ _
  | pwmTurningPoint | lossHoldExpiry | hostAllowance | selectSetpointSource | disconnectString | burstCurrentSample | impedanceResult | bankCopyComplete | corePairFail | syncInEdge | pulseInEdge | ppsOut | configuredOutput | programStagingTimeout | releaseForce | icmpEcho | arpRequest | pdelayReqSend | bulkDownSlot =>
    simp -zeta only [exec, execPwmTurningPoint, execLossHoldExpiry, execHostAllowance, execSelectSetpointSource, execDisconnectString, execBurstCurrentSample, execImpedanceResult, execBankCopyComplete, execCorePairFail, execSyncInEdge, execPulseInEdge, execPpsOut, execConfiguredOutput, execProgramStagingTimeout, execReleaseForce, execIcmpEcho, execArpRequest, execPdelayReqSend, execBulkDownSlot]
    repeat' first
      | refine answers_ite ?_ ?_
      | refine hnext _ ?_
      | extract_lets
      | split
    all_goals simp +decide +zetaDelta [-keepsBut_ite, keepsBut_ite_iff, exists_and_ite, h]
  | _ => simp +decide [mayChange] at hboot hguard hlinks hc

/-- No command lowers module time but those under which R366 sets it. -/
theorem exec_laterThan {w : Nat} {c : Instr} {s : State} (h : laterThan w s) (hset : (∀ x, c ≠ .startTimeAcquisition x) ∧ c ≠ .vmainReturn) :
    answers (exec c s) (laterThan w) := by
  by_cases hboot : Piece.boot ∈ mayChange c
  · exact exec_laterThan_boot w c s h hset hboot
  by_cases hguard : Piece.guard ∈ mayChange c
  · exact exec_laterThan_guard w c s h hboot hguard
  by_cases hlinks : Piece.links ∈ mayChange c ∨ Piece.can ∈ mayChange c
  · exact exec_laterThan_linksOrCan w c s h hboot hguard hlinks
  by_cases hrec : Piece.recorder ∈ mayChange c
  · exact exec_laterThan_recorder w c s h hboot hguard hlinks hrec
  · exact exec_laterThan_other w c s h hboot hguard hlinks hrec

/-- Settles O59: every other command keeps module time or moves it on to its own instant. -/
theorem timeNeverBack : Obligations.TimeNeverBack := by
  intro c s t hexec hacq hret
  obtain ⟨r, hr, hle⟩ := exec_laterThan (w := s.time.now) (le_refl s.time.now) ⟨hacq, hret⟩
  obtain rfl : r = t := by simpa [hr] using hexec
  exact hle

end Sys2Proof.Machine
end

section
/-!
PROOF. NoRearmWithoutPress: every operation of an evaluation keeps a scope that rests in Locked or Reset armed there, while the Guard holds no press.
-/
namespace Sys2Proof.Machine

/-- A scope in Locked or Reset armed while no press waits at the Guard (R330, R333). -/
def staysLocked (k : Nat) (s : State) : Prop :=
  s.core.scope.length = 5 ∧ (scopeSt s k = .locked ∨ scopeSt s k = .resetArmed) ∧ s.guard.press = none

theorem staysLocked_of_eq {k : Nat} {s t : State} (hs : t.core.scope = s.core.scope) (hp : t.guard.press = s.guard.press) (h : staysLocked k s) :
    staysLocked k t := by
  simpa only [staysLocked, scopeSt, hs, hp] using h

theorem staysLocked_of_keepsBut {k : Nat} {ps : List Piece} {s t : State} (hk : keepsBut ps s t) (hc : Piece.core ∉ ps) (hg : Piece.guard ∉ ps)
    (h : staysLocked k s) : staysLocked k t :=
  staysLocked_of_eq (congrArg SafeCore.scope (hk .core hc)) (congrArg Guard.press (hk .guard hg)) h

theorem staysLocked_forEach {k : Nat} {α : Type} {f : α → State → State} (hf : ∀ a s, staysLocked k s → staysLocked k (f a s)) (l : List α) {s : State}
    (h : staysLocked k s) : staysLocked k (forEach l f s) := by
  induction l generalizing s with
  | nil => exact h
  | cons a l ih => exact ih (hf a s h)

theorem staysLocked_ite {k : Nat} {c : Prop} [Decidable c] {s t : State} (hs : staysLocked k s) (ht : staysLocked k t) : staysLocked k (if c then s else t) := by
  split
  · exact hs
  · exact ht

/-! ### Operations of the safety core -/

theorem staysLocked_raise {k : Nat} (c a : Nat) {s : State} (h : staysLocked k s) : staysLocked k (s.raise c a) :=
  staysLocked_of_eq rfl rfl h

theorem staysLocked_raiseRound {k : Nat} (c a : Nat) {s : State} (h : staysLocked k s) : staysLocked k (s.raiseRound c a) :=
  staysLocked_of_keepsBut (ps := [.recorder]) (by simp +decide) (by decide) (by decide) h

theorem staysLocked_stand {k : Nat} (c a : Nat) (b : Bool) {s : State} (h : staysLocked k s) : staysLocked k (s.stand c a b) :=
  staysLocked_of_keepsBut (ps := [.recorder]) (by simp +decide) (by decide) (by decide) h

theorem staysLocked_clear {k : Nat} (c a : Nat) {s : State} (h : staysLocked k s) : staysLocked k (s.clear c a) :=
  staysLocked_of_keepsBut (ps := [.recorder]) (by simp +decide) (by decide) (by decide) h

/-- A new latch moves a scope out of Armed, Reset armed or Start, and leaves Locked as it is (R322). -/
theorem staysLocked_coreLatch {k : Nat} (j : Nat) (c : BitVec 32) {s : State} (h : staysLocked k s) : staysLocked k (coreLatch j c s) := by
  obtain ⟨hlen, hst, hp⟩ := h
  have hmod : staysLocked k (s.modCore fun x => { x with
      latch := updAt x.latch j fun _ => true, causes := updAt x.causes j (· ||| c)
      scope := updAt x.scope j fun st => match st with | .armed => .tripping | .resetArmed => .locked | .start => .locked | st => st }) := by
    refine ⟨by simpa using hlen, ?_, hp⟩
    simp only [scopeSt, State.modCore_core, getD_updAt] at hst ⊢
    split
    · rcases hst with hst | hst <;> rw [hst] <;> decide
    · exact hst
  unfold coreLatch
  refine staysLocked_ite ⟨hlen, hst, hp⟩ (staysLocked_ite hmod (staysLocked_ite ?_ ?_))
  · exact staysLocked_raise _ _ hmod
  · exact staysLocked_raise _ _ hmod

theorem staysLocked_tripGroup {k : Nat} {s : State} (h : staysLocked k s) : staysLocked k (tripGroup s) := staysLocked_coreLatch 4 _ h

/-- A request moves the scopes that it names to Reset armed, and no other (R330). -/
theorem staysLocked_resetRequest {k : Nat} (mask request ts : Nat) {s : State} (hk : k < 5) (h : staysLocked k s) :
    staysLocked k (resetRequest mask request ts s) := by
  obtain ⟨hlen, hst, hp⟩ := h
  unfold resetRequest
  refine staysLocked_ite (staysLocked_raise _ _ ⟨hlen, hst, hp⟩) (staysLocked_raise _ _ ⟨by simpa using hlen, ?_, hp⟩)
  simp only [scopeSt, List.getD_eq_getElem?_getD, State.modCore_core, List.getElem?_mapIdx] at hst ⊢
  rw [List.getElem?_eq_getElem (by omega)] at hst ⊢
  by_cases hn : k ∈ (List.range 5).filter fun k => bit mask k
  · simp [hn]
  · simpa [hn] using hst

/-! ### Connections of the safety layer -/

theorem staysLocked_updConn {k : Nat} (j : Nat) (f : FslConn → FslConn) {s : State} (h : staysLocked k s) : staysLocked k (updConn j f s) :=
  staysLocked_of_eq rfl rfl h

theorem staysLocked_expireConn {k : Nat} (j : Nat) {s : State} (h : staysLocked k s) : staysLocked k (expireConn j s) :=
  staysLocked_ite (staysLocked_tripGroup (staysLocked_updConn _ _ h)) (staysLocked_updConn _ _ h)

theorem staysLocked_watchdogExpire {k : Nat} (j : Nat) {s : State} (h : staysLocked k s) : staysLocked k (watchdogExpire j s) :=
  staysLocked_stand _ _ _ (staysLocked_expireConn j h)

theorem staysLocked_connError {k : Nat} (code j : Nat) {s : State} (h : staysLocked k s) : staysLocked k (connError code j s) := by
  have hcount := staysLocked_updConn j (fun c => { c with errs := c.errs + 1, errsRound := c.errsRound + 1 })
    (staysLocked_ite (c := (code == 0x5022) = true) (staysLocked_raise code j h) (staysLocked_raiseRound code j h))
  exact staysLocked_ite (staysLocked_raiseRound _ _ (staysLocked_ite (staysLocked_expireConn j hcount) hcount)) hcount

theorem staysLocked_acceptUnit {k : Nat} (j : Nat) (u : FslUnit) {s : State} (hk : k < 5) (h : staysLocked k s) : staysLocked k (acceptUnit j u s) := by
  unfold acceptUnit
  have htaken := staysLocked_clear 0x5023 j (staysLocked_clear 0x5022 j (staysLocked_updConn j
    (fun c => { c with st := .running, lastSeq := some (pduSeq u.bytes), deadline := u.ts + pduWd u.bytes * 1000000 })
    (staysLocked_ite (c := ((fslConn s j).st == .running && (fslConn s j).deadline < u.ts) = true) (staysLocked_watchdogExpire j h) h)))
  exact staysLocked_ite h (staysLocked_ite (staysLocked_raise _ _ htaken) (staysLocked_ite (staysLocked_resetRequest _ _ _ hk htaken) htaken))

theorem staysLocked_rejectUnit {k : Nat} {s : State} (h : staysLocked k s) : staysLocked k (rejectUnit s) :=
  staysLocked_raiseRound _ _ (staysLocked_of_eq rfl rfl h)

theorem staysLocked_checkUnit {k : Nat} (j : Nat) (u : FslUnit) {s : State} (hk : k < 5) (h : staysLocked k s) : staysLocked k (checkUnit j u s) := by
  have htrip : staysLocked k (if pduType u.bytes == 2 then (tripGroup s).raise 0x5025 (tripArg (ofLE ((pduBody u.bytes).take 2)) j) else s) :=
    staysLocked_ite (staysLocked_raise _ _ (staysLocked_tripGroup h)) h
  refine staysLocked_ite (staysLocked_connError _ _ h) (staysLocked_ite (staysLocked_connError _ _ h) (staysLocked_ite (staysLocked_connError _ _ htrip) ?_))
  split
  · exact staysLocked_acceptUnit j u hk htrip
  · exact staysLocked_ite (staysLocked_of_eq rfl rfl htrip) (staysLocked_ite (staysLocked_acceptUnit j u hk htrip) (staysLocked_connError _ _ htrip))

theorem staysLocked_takeUnit {k : Nat} (u : FslUnit) {s : State} (hk : k < 5) (h : staysLocked k s) : staysLocked k (takeUnit u s) := by
  refine staysLocked_ite (staysLocked_rejectUnit h) ?_
  split
  · exact staysLocked_checkUnit _ u hk h
  · exact staysLocked_rejectUnit h

/-! ### The stages of an evaluation -/

theorem staysLocked_readSticky {k : Nat} {s : State} (h : staysLocked k s) : staysLocked k (readSticky s) :=
  staysLocked_forEach (fun _ _ => staysLocked_coreLatch _ _) _ (staysLocked_of_eq rfl rfl h)

theorem staysLocked_monitorStep {k : Nat} {s : State} (h : staysLocked k s) : staysLocked k (monitorStep s) := by
  unfold monitorStep
  split
  · exact h
  · extract_lets v per
    refine staysLocked_of_eq (s := s) ?_ ?_ h
    · simp only [State.modCore_core]
    · simp only [State.modCore_guard]

theorem staysLocked_crossMonitor {k : Nat} (g : Nat) (selfOk : Bool) {s : State} (h : staysLocked k s) : staysLocked k (crossMonitor g selfOk s) := by
  unfold crossMonitor
  extract_lets hb adv hbRun runs s1 s2 f s3
  have h1 : staysLocked k s1 := staysLocked_of_eq rfl rfl h
  have h2 : staysLocked k s2 := staysLocked_forEach (fun _ _ => staysLocked_stand _ _ _) _ h1
  have h3 : staysLocked k s3 := staysLocked_of_eq (s := s2) rfl rfl h2
  split
  · exact h3
  · exact staysLocked_stand _ _ _ h3

theorem staysLocked_latchHazards {k : Nat} {s : State} (h : staysLocked k s) : staysLocked k (latchHazards s) :=
  staysLocked_forEach (fun _ _ => staysLocked_coreLatch _ _) _ (staysLocked_of_eq rfl rfl h)

theorem staysLocked_takeUnits {k : Nat} (upTo : Nat) {s : State} (hk : k < 5) (h : staysLocked k s) : staysLocked k (takeUnits upTo s) :=
  staysLocked_forEach (fun u _ => staysLocked_takeUnit u hk) _ (staysLocked_of_eq rfl rfl h)

theorem staysLocked_checkWatchdogs {k : Nat} (upTo : Nat) {s : State} (h : staysLocked k s) : staysLocked k (checkWatchdogs upTo s) :=
  staysLocked_forEach (fun j _ h => staysLocked_ite (staysLocked_watchdogExpire j h) h) _ h

theorem decideReset_of_no_press {s : State} (h : s.guard.press = none) : decideReset s = s := by simp [decideReset, h]

/-- A transition without a request concerns its own scope, and only from Start or Tripping (R323). -/
theorem scopeSt_modScope {j k : Nat} (h : k ≠ j) (st : Scope) (s : State) (f : SafeCore → SafeCore) (hf : (f s.core).scope = updAt s.core.scope j fun _ => st) :
    scopeSt (s.modCore f) k = scopeSt s k := by
  simp [scopeSt, hf, -List.getD_eq_getElem?_getD, Ne.symm h]

theorem staysLocked_setScope {j k : Nat} (h : staysLocked k s) (hj : k ≠ j) (st : Scope) (f : SafeCore → SafeCore)
    (hf : (f s.core).scope = updAt s.core.scope j fun _ => st) : staysLocked k (s.modCore f) := by
  obtain ⟨hlen, hst, hp⟩ := h
  exact ⟨by simpa [hf] using hlen, by simpa only [scopeSt_modScope hj st s f hf] using hst, hp⟩

theorem staysLocked_armScope {j k : Nat} {s : State} (h : staysLocked k s) (hj : k ≠ j) : staysLocked k (armScope j s) := by
  have harm := staysLocked_setScope h hj .armed (fun c => { c with
    latch := updAt c.latch j fun _ => false, causes := updAt c.causes j fun _ => 0, scope := updAt c.scope j fun _ => .armed }) rfl
  exact staysLocked_ite (staysLocked_clear _ _ (staysLocked_clear _ _ (staysLocked_clear _ _ (staysLocked_of_eq rfl rfl harm))))
    (staysLocked_clear _ _ (staysLocked_clear _ _ harm))

theorem staysLocked_scopeStep {k : Nat} (j : Nat) {s : State} (h : staysLocked k s) : staysLocked k (scopeStep j s) := by
  have hne : ∀ {st : Scope}, scopeSt s j = st → st ≠ .locked → st ≠ .resetArmed → k ≠ j := by
    rintro st hst h1 h2 rfl
    rcases h.2.1 with hl | hl <;> simp_all
  unfold scopeStep
  split
  next hst =>
    have hj := hne hst (by decide) (by decide)
    exact staysLocked_ite (staysLocked_setScope h hj .locked _ rfl) (staysLocked_ite (staysLocked_armScope h hj) h)
  next hst => exact staysLocked_ite (staysLocked_setScope h (hne hst (by decide) (by decide)) .locked _ rfl) h
  next => exact h

/-! ### After the stages -/

theorem fslStatus_core_eq {β : Type} (p : SafeCore → β) (hp : ∀ c a b, p { c with statusSeq := a, statusSent := b } = p c) (g : Nat) (s : State) :
    p (fslStatus g s).core = p s.core := by
  have hcan : ∀ e l (r : State), (forEach l (queueCan e) r).core = r.core := fun e l r =>
    (keepsBut_forEach_iff (ps := [.can, .recorder]) (fun a s => by simp +decide) l r r).2 (keepsBut_refl _ _) .core (by decide)
  have hsend : ∀ (q : Bool) (o : Output) (r : State), (if q then r.send o else r).core = r.core := fun q o r => by cases q <;> rfl
  unfold fslStatus
  extract_lets id pdu s1 s2
  have h2 : p s2.core = p s.core := (congrArg p (hsend _ _ _)).trans (hp _ _ _)
  split
  · rfl
  · split
    · rw [hcan]
      exact h2
    · exact h2

@[simp] theorem storeLatches_core (s : State) : (storeLatches s).core = s.core := by
  unfold storeLatches
  extract_lets v
  split <;> rfl

theorem setPermits_permit {n : Nat} (hn : n < 4) (s : State) :
    (setPermits s).core.permit.getD n false = (cored s n && scopeSt s n == .armed && scopeSt s 4 == .armed) := by
  simp [setPermits, scopeSt, List.getD_eq_getElem?_getD, List.getElem?_map, List.getElem?_range hn]

/-- What the scopes come to in an evaluation, before the permits follow them. -/
theorem safetyEvaluation_of_staysLocked {k : Nat} (ok : Bool) {s : State} (hk : k < 5) (h : staysLocked k s) :
    ∃ u, staysLocked k u ∧ (safetyEvaluation ok s).core.scope = u.core.scope ∧ (safetyEvaluation ok s).core.permit = (setPermits u).core.permit := by
  unfold safetyEvaluation
  extract_lets g upTo s1 s2 s3 s5 s6
  have h3 : staysLocked k s3 := staysLocked_checkWatchdogs _ (staysLocked_takeUnits _ hk (staysLocked_latchHazards
    (staysLocked_crossMonitor _ _ (staysLocked_monitorStep (staysLocked_readSticky h)))))
  refine ⟨s5, staysLocked_ite ?_ h3, ?_, ?_⟩
  · rw [decideReset_of_no_press h3.2.2]
    exact staysLocked_forEach (fun _ _ h => staysLocked_scopeStep _ (staysLocked_scopeStep _ h)) _ h3
  · rw [fslStatus_core_eq SafeCore.scope fun _ _ _ => rfl]
    have hs6 : s6.core.scope = (setPermits s5).core.scope := congrArg SafeCore.scope (storeLatches_core _)
    exact hs6
  · rw [fslStatus_core_eq SafeCore.permit fun _ _ _ => rfl]
    have hs6 : s6.core.permit = (setPermits s5).core.permit := congrArg SafeCore.permit (storeLatches_core _)
    exact hs6

/-- Settles O32: Locked and Reset armed are kept by every stage of the evaluation, since no press is read, and neither grants a permit. -/
theorem noRearmWithoutPress : Obligations.NoRearmWithoutPress := by
  intro t ok k s hev h1 h2 hk hlen hst hp
  refine ⟨safetyEvaluation ok (s.at_ t), ?_, ?_⟩
  · show execSafetyEvaluation t ok s = _
    have hev' : evaluating (s.at_ t) = true := hev
    have hfs : (s.at_ t).frameStart = s.frameStart := rfl
    simp [execSafetyEvaluation, hev', hfs, h1, h2]
  obtain ⟨u, hu, hscope, hpermit⟩ := safetyEvaluation_of_staysLocked ok hk (s := s.at_ t) ⟨hlen, .inl hst, hp⟩
  refine ⟨by simpa only [scopeSt, hscope] using hu.2.1, fun n hn hkn => ?_⟩
  rw [hpermit, setPermits_permit hn]
  rcases hkn with rfl | rfl <;> rcases hu.2.1 with hl | hl <;> simp [hl]

end Sys2Proof.Machine
end

section
/-!
PROOF. What an indexed part of the state reads after an update of it, and after the events and the clock; the frame of a command as its proofs give it.
-/
namespace Sys2Proof.Machine

/-! ### Reads of an indexed part after its update -/

@[simp] theorem State.link_updLink (n m : Nat) (f : LinkStr → LinkStr) (s : State) : (s.updLink n f).link m = if n = m ∧ m < s.links.length then f (s.link m) else s.link m := by
  simp only [State.link, State.updLink, State.modLinks_links, getD_updAt]
@[simp] theorem State.forg_updForg (n m : Nat) (f : Forager → Forager) (s : State) : (s.updForg n f).forg m = if n = m ∧ m < s.forgs.length then f (s.forg m) else s.forg m := by
  simp only [State.forg, State.updForg, State.modForgs_forgs, getD_updAt]
@[simp] theorem State.cell_updCell (n m : Nat) (f : Cell → Cell) (s : State) : (s.updCell n f).cell m = if n = m ∧ m < s.cells.length then f (s.cell m) else s.cell m := by
  simp only [State.cell, State.updCell, State.modCells_cells, getD_updAt]
@[simp] theorem State.estr_updEst (n m : Nat) (f : EstStr → EstStr) (s : State) : (s.updEst n f).estr m = if n = m ∧ m < s.est.length then f (s.estr m) else s.estr m := by
  simp only [State.estr, State.updEst, State.modEst_est, getD_updAt]
@[simp] theorem State.loop_updLoop (n m : Nat) (f : Loop → Loop) (s : State) : (s.updLoop n f).loop m = if n = m ∧ m < s.reg.loops.length then f (s.loop m) else s.loop m := by
  simp only [State.loop, State.updLoop, State.modReg_reg, getD_updAt]
@[simp] theorem State.dstr_updDisp (n m : Nat) (f : DispStr → DispStr) (s : State) : (s.updDisp n f).dstr m = if n = m ∧ m < s.disp.strs.length then f (s.dstr m) else s.dstr m := by
  simp only [State.dstr, State.updDisp, State.modDisp_disp, getD_updAt]
@[simp] theorem State.tstr_updTherm (n m : Nat) (f : ThermStr → ThermStr) (s : State) : (s.updTherm n f).tstr m = if n = m ∧ m < s.therm.strs.length then f (s.tstr m) else s.tstr m := by
  simp only [State.tstr, State.updTherm, State.modTherm_therm, getD_updAt]

@[simp] theorem State.updLoop_reg (n : Nat) (f : Loop → Loop) (s : State) : (s.updLoop n f).reg = { s.reg with loops := updAt s.reg.loops n f } := rfl
@[simp] theorem State.updDisp_disp (n : Nat) (f : DispStr → DispStr) (s : State) : (s.updDisp n f).disp = { s.disp with strs := updAt s.disp.strs n f } := rfl
@[simp] theorem State.updTherm_therm (n : Nat) (f : ThermStr → ThermStr) (s : State) : (s.updTherm n f).therm = { s.therm with strs := updAt s.therm.strs n f } := rfl
@[simp] theorem State.updLink_links (n : Nat) (f : LinkStr → LinkStr) (s : State) : (s.updLink n f).links = updAt s.links n f := rfl
@[simp] theorem State.updForg_forgs (n : Nat) (f : Forager → Forager) (s : State) : (s.updForg n f).forgs = updAt s.forgs n f := rfl
@[simp] theorem State.updCell_cells (n : Nat) (f : Cell → Cell) (s : State) : (s.updCell n f).cells = updAt s.cells n f := rfl
@[simp] theorem State.updEst_est (n : Nat) (f : EstStr → EstStr) (s : State) : (s.updEst n f).est = updAt s.est n f := rfl

/-! ### Reads of an indexed part after events and the clock -/

@[simp] theorem raise_link (c a n : Nat) (s : State) : (State.raise c a s).link n = s.link n := rfl
@[simp] theorem clear_link (c a n : Nat) (s : State) : (State.clear c a s).link n = s.link n := by simp only [State.link, clear_links]
@[simp] theorem stand_link (c a n : Nat) (b : Bool) (s : State) : (State.stand c a b s).link n = s.link n := by simp only [State.link, stand_links]
@[simp] theorem at_link (t n : Nat) (s : State) : (s.at_ t).link n = s.link n := rfl
@[simp] theorem raise_forg (c a n : Nat) (s : State) : (State.raise c a s).forg n = s.forg n := rfl
@[simp] theorem clear_forg (c a n : Nat) (s : State) : (State.clear c a s).forg n = s.forg n := by simp only [State.forg, clear_forgs]
@[simp] theorem stand_forg (c a n : Nat) (b : Bool) (s : State) : (State.stand c a b s).forg n = s.forg n := by simp only [State.forg, stand_forgs]
@[simp] theorem at_forg (t n : Nat) (s : State) : (s.at_ t).forg n = s.forg n := rfl
@[simp] theorem raise_cell (c a n : Nat) (s : State) : (State.raise c a s).cell n = s.cell n := rfl
@[simp] theorem clear_cell (c a n : Nat) (s : State) : (State.clear c a s).cell n = s.cell n := by simp only [State.cell, clear_cells]
@[simp] theorem stand_cell (c a n : Nat) (b : Bool) (s : State) : (State.stand c a b s).cell n = s.cell n := by simp only [State.cell, stand_cells]
@[simp] theorem at_cell (t n : Nat) (s : State) : (s.at_ t).cell n = s.cell n := rfl
@[simp] theorem raise_estr (c a n : Nat) (s : State) : (State.raise c a s).estr n = s.estr n := rfl
@[simp] theorem clear_estr (c a n : Nat) (s : State) : (State.clear c a s).estr n = s.estr n := by simp only [State.estr, clear_est]
@[simp] theorem stand_estr (c a n : Nat) (b : Bool) (s : State) : (State.stand c a b s).estr n = s.estr n := by simp only [State.estr, stand_est]
@[simp] theorem at_estr (t n : Nat) (s : State) : (s.at_ t).estr n = s.estr n := rfl
@[simp] theorem raise_loop (c a n : Nat) (s : State) : (State.raise c a s).loop n = s.loop n := rfl
@[simp] theorem clear_loop (c a n : Nat) (s : State) : (State.clear c a s).loop n = s.loop n := by simp only [State.loop, clear_reg]
@[simp] theorem stand_loop (c a n : Nat) (b : Bool) (s : State) : (State.stand c a b s).loop n = s.loop n := by simp only [State.loop, stand_reg]
@[simp] theorem at_loop (t n : Nat) (s : State) : (s.at_ t).loop n = s.loop n := rfl
@[simp] theorem raise_dstr (c a n : Nat) (s : State) : (State.raise c a s).dstr n = s.dstr n := rfl
@[simp] theorem clear_dstr (c a n : Nat) (s : State) : (State.clear c a s).dstr n = s.dstr n := by simp only [State.dstr, clear_disp]
@[simp] theorem stand_dstr (c a n : Nat) (b : Bool) (s : State) : (State.stand c a b s).dstr n = s.dstr n := by simp only [State.dstr, stand_disp]
@[simp] theorem at_dstr (t n : Nat) (s : State) : (s.at_ t).dstr n = s.dstr n := rfl
@[simp] theorem raise_tstr (c a n : Nat) (s : State) : (State.raise c a s).tstr n = s.tstr n := rfl
@[simp] theorem clear_tstr (c a n : Nat) (s : State) : (State.clear c a s).tstr n = s.tstr n := by simp only [State.tstr, clear_therm]
@[simp] theorem stand_tstr (c a n : Nat) (b : Bool) (s : State) : (State.stand c a b s).tstr n = s.tstr n := by simp only [State.tstr, stand_therm]
@[simp] theorem at_tstr (t n : Nat) (s : State) : (s.at_ t).tstr n = s.tstr n := rfl

/-! ### Parameters and the phase in a frame that keeps them -/

theorem par_of_keepsBut {ps : List Piece} {s t : State} (h : keepsBut ps s t) (hb : Piece.boot ∉ ps) (p : PName) (i j : Nat) : t.par p i j = s.par p i j := by
  have hboot : t.boot = s.boot := h .boot hb
  simp only [State.par, hboot]
theorem parN_of_keepsBut {ps : List Piece} {s t : State} (h : keepsBut ps s t) (hb : Piece.boot ∉ ps) (p : PName) (i j : Nat) : t.parN p i j = s.parN p i j := by
  simp only [State.parN, par_of_keepsBut h hb]
theorem parB_of_keepsBut {ps : List Piece} {s t : State} (h : keepsBut ps s t) (hb : Piece.boot ∉ ps) (p : PName) (i j : Nat) : t.parB p i j = s.parB p i j := by
  simp only [State.parB, par_of_keepsBut h hb]

/-! ### Events that stay raised -/

theorem markRaised_mem {x : Nat × Nat} {r : RecState} (only : Bool) (c a : Nat) (h : x ∈ r.raised) : x ∈ (markRaised only c a r).raised := by
  unfold markRaised
  split
  · exact h
  · exact List.mem_cons_of_mem _ h

@[simp] theorem recordRaise_raised (only : Bool) (c a t : Nat) (r : RecState) : (recordRaise only c a t r).1.raised = r.raised := by
  unfold recordRaise
  dsimp only
  split
  · split <;> rfl
  · rfl

/-- A raise ends no event that stands. -/
theorem isRaised_raise_of_isRaised {c a : Nat} {s : State} (h : s.isRaised c a = true) (c' a' : Nat) : (State.raise c' a' s).isRaised c a = true := by
  have h1 : (c, a) ∈ (recordRaise (recordedOnly.contains c') c' a' s.time.now s.recorder).1.raised := by
    rw [recordRaise_raised]
    exact List.contains_iff_mem.1 h
  refine List.contains_iff_mem.2 ?_
  simp only [State.raise, State.modRecorder_recorder, raiseRec]
  split
  · refine markRaised_mem _ _ _ ?_
    split
    · rw [recordRaise_raised, recordRaise_raised]
      exact markRaised_mem _ _ _ h1
    · rw [recordRaise_raised]
      exact markRaised_mem _ _ _ h1
  · exact markRaised_mem _ _ _ h1

theorem isRaised_stand_of_isRaised {c a : Nat} {s : State} (h : s.isRaised c a = true) (c' a' : Nat) : (State.stand c' a' true s).isRaised c a = true := by
  unfold State.stand
  rw [if_pos rfl]
  split
  · exact h
  · exact isRaised_raise_of_isRaised h c' a'

/-- Another event's end leaves an event as it stands. -/
theorem isRaised_clear_of_ne {c a c' a' : Nat} (h : (c, a) ≠ (c', a')) (s : State) : (State.clear c' a' s).isRaised c a = s.isRaised c a := by
  unfold State.clear
  split
  · simp only [State.isRaised, State.modRecorder_recorder, clearRec]
    refine Bool.eq_iff_iff.2 ?_
    rw [List.contains_iff_mem, List.contains_iff_mem, List.mem_filter]
    exact and_iff_left (by simpa using h)
  · rfl

end Sys2Proof.Machine
end

section
/-!
PROOF. StringCommands: the orders of an engineer and of time to a string, one rule per command.
-/
namespace Sys2Proof.Machine

/-! ### Contactors of a string that returns to open -/

@[simp] theorem noteOutputs_guard (n : Nat) (s : State) : (noteOutputs n s).guard = s.guard := rfl
@[simp] theorem noteOutputs_disp (n : Nat) (s : State) : (noteOutputs n s).disp = s.disp := rfl
@[simp] theorem stage_disp (n : Nat) (s : State) : (stage n s).disp = s.disp := rfl
@[simp] theorem stage_pwr (n : Nat) (s : State) : (stage n s).pwr = s.pwr := rfl

/-- A contactor output of the string itself, with VMAIN present (R17, R326). -/
theorem ctrOut_stage_same {n k : Nat} {s : State} (hk : k < 3) (hv : s.pwr.vmain = true) (h : ctrReq s n k = false) : ctrOut (stage n s) n k = false := by
  have hdiv : (3 * n + k) / 3 = n := by omega
  have hmod : (3 * n + k) % 3 = k := by omega
  simp only [ctrOut, stage, noteOutputs_guard, State.modGuard_guard, noteCtr, hv, List.getD_eq_getElem?_getD, List.getElem?_mapIdx]
  rcases s.guard.ctr[3 * n + k]? with _ | b
  · rfl
  · simp [hdiv, hmod, h]

@[simp] theorem reqCtr_disp (n : Nat) (f : DispStr → DispStr) (s : State) : (reqCtr n f s).disp = (s.updDisp n f).disp := rfl
@[simp] theorem dstr_reqCtr (n m : Nat) (f : DispStr → DispStr) (s : State) : (reqCtr n f s).dstr m = (s.updDisp n f).dstr m := rfl
theorem ctrReq_reqCtr (n m k : Nat) (f : DispStr → DispStr) (s : State) : ctrReq (reqCtr n f s) m k = ctrReq (s.updDisp n f) m k := rfl
theorem ctrOut_reqCtr (n m k : Nat) (f : DispStr → DispStr) (s : State) : ctrOut (reqCtr n f s) m k = ctrOut (stage n (s.updDisp n f)) m k := rfl

@[simp] theorem setOpen_guard (n : Nat) (s : State) : (setOpen n s).guard = s.guard := by simp [setOpen, State.updDisp]
theorem ctrOut_setOpen (n m k : Nat) (s : State) : ctrOut (setOpen n s) m k = ctrOut s m k := by simp only [ctrOut, setOpen_guard]
theorem dstr_setOpen (n m : Nat) (s : State) : (setOpen n s).dstr m =
    (s.updDisp n fun d => { d with conn := 0, opening := 0, failing := false, seenAt := none }).dstr m := by simp [setOpen]

@[simp] theorem ctrReq_setOpen (n m k : Nat) (s : State) : ctrReq (setOpen n s) m k = ctrReq s m k := by
  simp only [ctrReq, dstr_setOpen, State.dstr_updDisp]
  by_cases h : n = m ∧ m < s.disp.strs.length
  · simp only [if_pos h]
  · simp only [if_neg h]

/-- The requests of a string all withdrawn. -/
def noRequests (d : DispStr) : DispStr := { d with reqPos := false, reqNeg := false, reqPre := false }

theorem ctrReq_of_noRequests {s : State} {n : Nat} {d : DispStr} (h : s.dstr n = noRequests d) (k : Nat) : ctrReq s n k = false := by
  simp only [ctrReq, h]
  split <;> rfl

/-! ### Reasons against a connection -/

theorem connectReason_eq_zero_iff (s : State) (n : Nat) : connectReason s n = 0 ↔
    (s.boot.mode = .commission ∨ s.boot.mode = .operate ∨ s.boot.mode = .service) ∧ s.parBit .regStrings n = true ∧ (s.dstr n).conn = 0 ∧ (s.dstr n).wantConn = false ∧
    (∀ k, k < 3 → cfbClosed s n k = false) ∧ permits s n = true ∧ ∃ v, (s.asSeen.loop n).pub.vb = some v ∧ (s.parN .regVbusMin : Rat) ≤ v ∧ v ≤ (s.parN .regVbusMax : Rat) := by
  have hopen : (∀ k, k < 3 → cfbClosed s n k = false) ↔ allOpen s n = true := by
    simp only [allOpen, Bool.and_eq_true, Bool.not_eq_true']
    constructor
    · exact fun h => ⟨⟨h 0 (by decide), h 1 (by decide)⟩, h 2 (by decide)⟩
    · rintro ⟨⟨h0, h1⟩, h2⟩ k hk
      interval_cases k <;> assumption
  rw [hopen]
  have hreason : ∀ (c : Bool) (i x : Nat), i ≠ 0 → ((if c then i else x) = 0 ↔ c = false ∧ x = 0) := by
    rintro (_ | _) i x hi <;> simp [hi]
  have hmode : (!(s.boot.mode == .commission || s.boot.mode == .operate || s.boot.mode == .service)) = false ↔
      s.boot.mode = .commission ∨ s.boot.mode = .operate ∨ s.boot.mode = .service := by
    cases s.boot.mode <;> decide
  unfold connectReason
  extract_lets d m vb
  rw [hreason _ _ _ (by decide), hreason _ _ _ (by decide), hreason _ _ _ (by decide), hreason _ _ _ (by decide), hreason _ _ _ (by decide),
    hreason _ _ _ (by decide), hmode]
  show _ ↔ _ ∧ _ ∧ _ ∧ _ ∧ _ ∧ _ ∧ ∃ v, vb = some v ∧ _
  cases vb with
  | none => simp
  | some v => simp [d, and_assoc]

theorem connectString_of_no_reason : ∀ t (n : Fin 4) s, s.running = true → s.disp.strs.length = 4 → connectReason (s.at_ t) n.val = 0 →
    Completes (.connectString t n) s fun r =>
      r.dstr n.val = { s.dstr n.val with wantConn := true, why := .command } ∧ (∀ m, m ≠ n.val → r.dstr m = s.dstr m) ∧ keepsBut [.time, .disp] s r := by
  intro t n s hrun hlen hr
  refine ⟨(s.at_ t).updDisp n.val fun d => { d with wantConn := true, why := .command }, ?_, ?_⟩
  · show execConnectString t n s = _
    simp [execConnectString, hrun, cmdConnect, orderConnect, hr, accept]
  · have hn : n.val < s.disp.strs.length := by omega
    refine ⟨by simp [hn], fun m hm => by simp [Ne.symm hm], by simp +decide⟩

theorem connectString_refused : ∀ t (n : Fin 4) s, s.running = true → connectReason (s.at_ t) n.val ≠ 0 →
    exec (.connectString t n) s = .next (State.raise 0x402C (evArg (connectReason (s.at_ t) n.val) n.val) (s.at_ t)) := by
  intro t n s hrun hr
  show execConnectString t n s = _
  simp [execConnectString, hrun, cmdConnect, orderConnect, hr, refuse]

theorem disconnectString_connected : ∀ t (n : Fin 4) s, s.running = true → s.disp.strs.length = 4 → (s.dstr n.val).wantConn = false → 1 ≤ (s.dstr n.val).conn → (s.dstr n.val).conn ≤ 5 →
    Completes (.disconnectString t n) s fun r =>
      r.dstr n.val = { s.dstr n.val with wantDisc := true, why := .command } ∧ (∀ m, m ≠ n.val → r.dstr m = s.dstr m) ∧ keepsBut [.time, .disp] s r := by
  intro t n s hrun hlen hw h1 h5
  refine ⟨(s.at_ t).updDisp n.val fun d => { d with wantDisc := true, why := .command }, ?_, ?_⟩
  · show execDisconnectString t n s = _
    simp [execDisconnectString, hrun, cmdDisconnect, hw, h1, h5, accept]
  · have hn : n.val < s.disp.strs.length := by omega
    refine ⟨by simp [hn], fun m hm => by simp [Ne.symm hm], by simp +decide⟩

theorem disconnectString_waiting : ∀ t (n : Fin 4) s, s.running = true → s.disp.strs.length = 4 → (s.dstr n.val).wantConn = true →
    Completes (.disconnectString t n) s fun r =>
      r.dstr n.val = { s.dstr n.val with wantConn := false } ∧ (∀ m, m ≠ n.val → r.dstr m = s.dstr m) ∧ keepsBut [.time, .disp] s r := by
  intro t n s hrun hlen hw
  refine ⟨(s.at_ t).updDisp n.val fun d => { d with wantConn := false }, ?_, ?_⟩
  · show execDisconnectString t n s = _
    simp [execDisconnectString, hrun, cmdDisconnect, hw, accept]
  · have hn : n.val < s.disp.strs.length := by omega
    refine ⟨by simp [hn], fun m hm => by simp [Ne.symm hm], by simp +decide⟩

theorem clearFailedConnection_open : ∀ t (n : Fin 4) s, s.running = true → s.disp.strs.length = 4 → s.pwr.vmain = true → (s.dstr n.val).conn = 7 → (∀ k, k < 3 → cfbClosed s n.val k = false) →
    Completes (.clearFailedConnection t n) s fun r =>
      (r.dstr n.val).conn = 0 ∧ (r.dstr n.val).opening = 0 ∧ (∀ k, k < 3 → ctrReq r n.val k = false ∧ ctrOut r n.val k = false) ∧
      (∀ m, m ≠ n.val → r.dstr m = s.dstr m) ∧ keepsBut [.time, .disp, .guard, .est, .recorder] s r := by
  intro t n s hrun hlen hv hconn hopen
  have hopen' : allOpen (s.at_ t) n.val = true := by
    have h := fun k hk => (show cfbClosed (s.at_ t) n.val k = false from hopen k hk)
    simp [allOpen, h 0, h 1, h 2]
  refine ⟨setOpen n.val (reqCtr n.val noRequests (s.at_ t)), ?_, ?_⟩
  · show execClearFailedConnection t n s = _
    simp [execClearFailedConnection, hrun, cmdClearFailed, hconn, hopen', accept]
    rfl
  · have hn : n.val < s.disp.strs.length := by omega
    refine ⟨?_, ?_, ?_, ?_, ?_⟩
    · simp [dstr_setOpen, hn]
    · simp [dstr_setOpen, hn]
    · intro k hk
      have hreq : ctrReq ((s.at_ t).updDisp n.val noRequests) n.val k = false := ctrReq_of_noRequests (d := s.dstr n.val) (by simp [hn]) k
      refine ⟨?_, ?_⟩
      · rw [ctrReq_setOpen, ctrReq_reqCtr, hreq]
      · rw [ctrOut_setOpen, ctrOut_reqCtr]
        exact ctrOut_stage_same hk (by simpa [State.updDisp] using hv) hreq
    · intro m hm
      simp [dstr_setOpen, Ne.symm hm]
    · simp +decide

theorem clearFailedConnection_not_failed : ∀ t (n : Fin 4) s, s.running = true → (s.dstr n.val).conn ≠ 7 → exec (.clearFailedConnection t n) s = .next (State.raise 0x402F (evArg 1 n.val) (s.at_ t)) := by
  intro t n s hrun hconn
  show execClearFailedConnection t n s = _
  simp [execClearFailedConnection, hrun, cmdClearFailed, hconn, refuse]

theorem closeRestWindow_open : ∀ t (n : Fin 4) s, s.running = true → s.disp.strs.length = 4 → (s.dstr n.val).restAt.isSome = true →
    Completes (.closeRestWindow t n) s fun r =>
      (r.dstr n.val).restAt = none ∧ (r.dstr n.val).restEnd = some (max s.time.now t) ∧ r.recorder = (State.raise 0x4026 n.val (s.at_ t)).recorder ∧
      (∀ m, m ≠ n.val → r.dstr m = s.dstr m) ∧ keepsBut [.time, .disp, .recorder] s r := by
  intro t n s hrun hlen hrest
  refine ⟨closeRest true n.val (s.at_ t), ?_, ?_⟩
  · show execCloseRestWindow t n s = _
    simp [execCloseRestWindow, hrun, cmdCloseRest, hrest, accept]
  · have hn : n.val < s.disp.strs.length := by omega
    have hnone : (s.dstr n.val).restAt.isNone = false := by simpa using hrest
    refine ⟨?_, ?_, ?_, ?_, ?_⟩
    · simp [closeRest, hnone, hn]
    · simp [closeRest, hnone, hn]
    · simp [closeRest, hnone]
      rfl
    · intro m hm
      simp [closeRest, hnone, Ne.symm hm]
    · simp +decide

theorem restWindowExpiry_due : ∀ t (n : Fin 4) a s, s.running = true → s.disp.strs.length = 4 → (s.dstr n.val).restAt = some a → a + (s.dstr n.val).restT * 1000000000 ≤ t →
    Completes (.restWindowExpiry t n) s fun r =>
      (r.dstr n.val).restAt = none ∧ (r.dstr n.val).restEnd = some (max s.time.now t) ∧ (∀ m, m ≠ n.val → r.dstr m = s.dstr m) ∧ keepsBut [.time, .disp] s r := by
  intro t n a s hrun hlen hrest hdue
  refine ⟨closeRest false n.val (s.at_ t), ?_, ?_⟩
  · show execRestWindowExpiry t n s = _
    have hdue' : a + (s.dstr n.val).restT * 1000000000 ≤ max s.time.now t := le_max_of_le_right hdue
    simp [execRestWindowExpiry, hrun, hrest, hdue']
  · have hn : n.val < s.disp.strs.length := by omega
    have hnone : (s.dstr n.val).restAt.isNone = false := by simp [hrest]
    refine ⟨?_, ?_, ?_, ?_⟩
    · simp [closeRest, hnone, hn]
    · simp [closeRest, hnone, hn]
    · intro m hm
      simp [closeRest, hnone, Ne.symm hm]
    · simp +decide [closeRest, hnone]

theorem disconnectionTmax_due : ∀ t (n : Fin 4) s, s.running = true → s.disp.strs.length = 4 → (s.dstr n.val).conn = 6 → (s.dstr n.val).opening = 4 →
    (s.dstr n.val).discAt + (s.dstr n.val).seq.discTmax * 1000000 ≤ t →
    Completes (.disconnectionTmax t n) s fun r =>
      r.dstr n.val = { s.dstr n.val with opening := 5 } ∧ enabledOf r n.val = false ∧ r.recorder = (State.raise 0x402B n.val (s.at_ t)).recorder ∧
      (∀ m, m ≠ n.val → r.dstr m = s.dstr m) ∧ keepsBut [.time, .disp, .recorder] s r := by
  intro t n s hrun hlen hconn hop hdue
  refine ⟨((s.at_ t).updDisp n.val fun d => { d with opening := 5 }).raise 0x402B n.val, ?_, ?_⟩
  · show execDisconnectionTmax t n s = _
    have hdue' : (s.dstr n.val).discAt + (s.dstr n.val).seq.discTmax * 1000000 ≤ max s.time.now t := le_max_of_le_right hdue
    simp [execDisconnectionTmax, hrun, hconn, hop, hdue']
  · have hn : n.val < s.disp.strs.length := by omega
    refine ⟨by simp [hn], ?_, rfl, fun m hm => by simp [Ne.symm hm], by simp +decide⟩
    simp [enabledOf, hn, hconn]

/-- Settles O21: each command on a running module, by the branch of its rule. -/
theorem stringCommands : Obligations.StringCommands :=
  ⟨connectString_of_no_reason, connectString_refused, connectReason_eq_zero_iff, disconnectString_connected, disconnectString_waiting, clearFailedConnection_open, clearFailedConnection_not_failed, closeRestWindow_open, restWindowExpiry_due, disconnectionTmax_due⟩

end Sys2Proof.Machine
end

section
/-!
PROOF. Events: a raise merges into the newest record of its class or enters a new one, and a clear ends it.
-/
namespace Sys2Proof.Machine

/-- The record that a raise enters as the newest of its class (R479). -/
def newRecord (only : Bool) (code arg t : Nat) (r : RecState) : EvRec :=
  { seq := r.seq.getD (evClass code - 1) 0 + 1, code := code, active := !only, arg := arg, repeat_ := 0, firstT := t, firstOps := r.ops, firstPc := r.pc
    lastT := t, lastOps := r.ops, lastPc := r.pc }

/-- The newest record of a class with one more repeat in it (R480). -/
def repeated (only : Bool) (t : Nat) (r : RecState) (e : EvRec) : EvRec :=
  { e with repeat_ := min (e.repeat_ + 1) 0xFFFFFFFF, active := !only, lastT := t, lastOps := r.ops, lastPc := r.pc }

/-- What a class ring and its sequence number are after a raise that overwrites nothing. -/
theorem recordRaise_merges {only : Bool} {code arg t : Nat} {r : RecState} {e : EvRec} {es : List EvRec}
    (hring : r.rings.getD (evClass code - 1) [] = e :: es) (hc : e.code = code) (ha : e.arg = arg) :
    recordRaise only code arg t r = ({ r with rings := updAt r.rings (evClass code - 1) fun _ => repeated only t r e :: es }, false) := by
  simp only [recordRaise, hring, hc, ha, beq_self_eq_true, Bool.and_self, if_true, repeated]

theorem recordRaise_enters {only : Bool} {code arg t : Nat} {r : RecState} (hlen : (r.rings.getD (evClass code - 1) []).length < 3840)
    (hnew : ∀ e es, r.rings.getD (evClass code - 1) [] = e :: es → ¬(e.code = code ∧ e.arg = arg)) :
    ∃ head wrap, recordRaise only code arg t r =
      ({ r with rings := updAt r.rings (evClass code - 1) fun _ => newRecord only code arg t r :: r.rings.getD (evClass code - 1) []
                seq := updAt r.seq (evClass code - 1) fun _ => r.seq.getD (evClass code - 1) 0 + 1, head := head, overRound := wrap }, false) := by
  cases hring : r.rings.getD (evClass code - 1) [] with
  | nil =>
    simp only [recordRaise, hring]
    exact ⟨_, _, rfl⟩
  | cons e es =>
    rw [hring] at hlen
    have hne : (e.code == code && e.arg == arg) = false := by simpa using hnew e es hring
    have hroom : decide (3840 ≤ (e :: es).length) = false := by simpa [Nat.not_le] using Nat.lt_of_succ_lt_succ hlen
    simp only [recordRaise, hring, hne, hroom, Bool.false_eq_true, if_false]
    rw [List.take_of_length_le (by simpa using hlen)]
    exact ⟨_, _, rfl⟩

@[simp] theorem markRaised_rings (only : Bool) (code arg : Nat) (r : RecState) : (markRaised only code arg r).rings = r.rings := by
  unfold markRaised
  split <;> rfl

@[simp] theorem markRaised_seq (only : Bool) (code arg : Nat) (r : RecState) : (markRaised only code arg r).seq = r.seq := by
  unfold markRaised
  split <;> rfl

/-- A raise that overwrites no record is the raise at its ring and the mark that it stands (R479, R480). -/
theorem raise_recorder_of_kept {code arg : Nat} {s : State} {r : RecState}
    (h : recordRaise (recordedOnly.contains code) code arg s.time.now s.recorder = (r, false)) :
    (State.raise code arg s).recorder = markRaised (recordedOnly.contains code) code arg r := by
  simp only [State.raise, State.modRecorder_recorder, raiseRec, h]
  rfl

theorem clearRec_go_newest {code arg : Nat} {e : EvRec} (es : List EvRec) (hc : e.code = code) (ha : e.arg = arg) :
    clearRec.go code arg (e :: es) = { e with active := false } :: es := by simp [clearRec.go, hc, ha]

theorem raise_repeats : ∀ code arg e es s, 1 ≤ evClass code → evClass code ≤ 10 → s.recorder.rings.length = 10 → s.recorder.rings.getD (evClass code - 1) [] = e :: es → e.code = code → e.arg = arg →
    (State.raise code arg s).recorder.rings.getD (evClass code - 1) [] =
      { e with repeat_ := min (e.repeat_ + 1) 0xFFFFFFFF, active := !recordedOnly.contains code, lastT := s.time.now, lastOps := s.recorder.ops, lastPc := s.recorder.pc } :: es := by
  intro code arg e es s h1 h10 hlen hring hc ha
  have hk : evClass code - 1 < s.recorder.rings.length := by omega
  rw [raise_recorder_of_kept (recordRaise_merges hring hc ha), markRaised_rings, getD_updAt, if_pos ⟨rfl, hk⟩]
  rfl

theorem raise_enters : ∀ code arg s, 1 ≤ evClass code → evClass code ≤ 10 → s.recorder.rings.length = 10 → s.recorder.seq.length = 10 → (s.recorder.rings.getD (evClass code - 1) []).length < 3840 →
    (∀ e es, s.recorder.rings.getD (evClass code - 1) [] = e :: es → ¬(e.code = code ∧ e.arg = arg)) →
    let r := State.raise code arg s
    (∃ n, r.recorder.rings.getD (evClass code - 1) [] = n :: s.recorder.rings.getD (evClass code - 1) [] ∧ n.seq = s.recorder.seq.getD (evClass code - 1) 0 + 1 ∧ n.code = code ∧ n.arg = arg ∧
      n.repeat_ = 0 ∧ n.firstT = s.time.now ∧ n.lastT = s.time.now ∧ n.active = !recordedOnly.contains code) ∧
    r.recorder.seq.getD (evClass code - 1) 0 = s.recorder.seq.getD (evClass code - 1) 0 + 1 ∧
    (∀ j, j ≠ evClass code - 1 → r.recorder.rings.getD j [] = s.recorder.rings.getD j [] ∧ r.recorder.seq.getD j 0 = s.recorder.seq.getD j 0) := by
  intro code arg s h1 h10 hlen hseq hroom hnew
  obtain ⟨head, wrap, hrec⟩ := recordRaise_enters (only := recordedOnly.contains code) (t := s.time.now) hroom hnew
  have hk : evClass code - 1 < s.recorder.rings.length := by omega
  have hq : evClass code - 1 < s.recorder.seq.length := by omega
  dsimp only
  rw [raise_recorder_of_kept hrec]
  simp only [markRaised_rings, markRaised_seq, getD_updAt]
  refine ⟨⟨newRecord _ code arg s.time.now s.recorder, if_pos ⟨trivial, hk⟩, rfl, rfl, rfl, rfl, rfl, rfl, rfl⟩, if_pos ⟨trivial, hq⟩, fun j hj => ⟨if_neg ?_, if_neg ?_⟩⟩
  · exact fun h => hj h.1.symm
  · exact fun h => hj h.1.symm

theorem raise_clear_frame : ∀ code arg s, (recordedOnly.contains code = false → (State.raise code arg s).isRaised code arg = true) ∧ (State.clear code arg s).isRaised code arg = false ∧
    keepsBut [.recorder] s (State.raise code arg s) ∧ keepsBut [.recorder] s (State.clear code arg s) :=
  fun code arg s => ⟨isRaised_raise code arg s, isRaised_clear code arg s, by simp +decide, by simp +decide⟩

theorem clear_newest : ∀ code arg e es s, evClass code ≤ 10 → s.recorder.rings.length = 10 → s.isRaised code arg = true → s.recorder.rings.getD (evClass code - 1) [] = e :: es → e.code = code → e.arg = arg →
    (State.clear code arg s).recorder.rings.getD (evClass code - 1) [] = { e with active := false } :: es := by
  intro code arg e es s h10 hlen hr hring hc ha
  have hk : evClass code - 1 < s.recorder.rings.length := by omega
  unfold State.clear
  rw [if_pos (show s.recorder.raised.contains (code, arg) = true from hr)]
  simp only [State.modRecorder_recorder, clearRec]
  rw [getD_updAt, if_pos ⟨rfl, hk⟩, hring, clearRec_go_newest es hc ha]

theorem exec_eventRecord : ∀ t (code : BitVec 16) (arg : BitVec 32) s, s.up = true → 1 ≤ evClass code.toNat → evClass code.toNat ≤ 10 →
    exec (.eventRecord t code arg) s = .next (State.raise code.toNat arg.toNat (s.at_ t)) := by
  intro t code arg s hup h1 h10
  show execEventRecord t code arg s = _
  simp [execEventRecord, hup, h1, h10]

/-- Settles O44: by the newest record of the ring, which a raise merges into or follows. -/
theorem events : Obligations.Events := ⟨raise_repeats, raise_enters, raise_clear_frame, clear_newest, exec_eventRecord⟩

end Sys2Proof.Machine
end

section
/-!
PROOF. LearnedWrite: the copy that a write makes fits the configuration in force and is the newest of the two.
-/
namespace Sys2Proof.Machine

theorem recordFits_of_boot_eq {s t : State} (h : t.boot = s.boot) (n : Nat) (r : LearnedRec) : recordFits t n r = recordFits s n r := by
  simp only [recordFits, chemOf, cellCount, linkOn, State.parBit, State.parN, State.par, h] <;> rfl

theorem length_stringCells {s : State} {n : Nat} (hn : n < 4) (hlen : s.cells.length = 2304) : (stringCells s n).length = cellCount s n := by
  have hle : cellCount s n ≤ 576 := by
    unfold cellCount
    split <;> omega
  simp only [stringCells, List.length_take, List.length_drop, hlen]
  omega

/-- A record written for a string passes the checks of R224 in the state that it was made from. -/
theorem recordFits_recordOf {s : State} {n : Nat} (hn : n < 4) (hlen : s.cells.length = 2304) (q cause : Nat) : recordFits s n (recordOf s n q cause) = true := by
  have hcells : (recordOf s n q cause).cells.length = cellCount s n := by simp [recordOf, sealRecord, length_stringCells hn hlen]
  have hcrc : (recordOf s n q cause).crc = crc32 (learnedBytes (recordOf s n q cause)) := rfl
  have hstring : (recordOf s n q cause).string = n := rfl
  have hchem : (recordOf s n q cause).chem = chemOf s := rfl
  simp [recordFits, hcells, ← hcrc, hstring, hchem]

/-- The sequence of a stored copy with its record, when it is valid (R224). -/
def validCopy (s : State) (n : Nat) (o : Option (Nat × LearnedRec)) : Option (Nat × LearnedRec) :=
  match o with | some (q, r) => if recordFits s n r then some (q, r) else none | none => none

/-- The record chosen of two copies (R224). -/
def chosenRecord (a b : Option (Nat × LearnedRec)) : Option LearnedRec :=
  match a, b with
  | some (qa, ra), some (qb, rb) => if qa < qb || (qa == qb && decide (ra.time < rb.time)) then some rb else some ra
  | some (_, r), none => some r
  | none, some (_, r) => some r
  | none, none => none

theorem bestRecord_eq_chosen (s : State) (n : Nat) :
    bestRecord s n = chosenRecord (validCopy s n (s.learned.getD n {}).a) (validCopy s n (s.learned.getD n {}).b) := rfl

theorem validCopy_fits {s : State} {n q : Nat} {r : LearnedRec} (h : recordFits s n r = true) : validCopy s n (some (q, r)) = some (q, r) := by simp [validCopy, h]

theorem writeCopy_eq (s : State) (n cause : Nat) (p : Pair LearnedRec) : writeCopy s n cause p =
    match (validCopy s n p.a).map (·.1), (validCopy s n p.b).map (·.1) with
    | none, none => { p with a := some (1, recordOf s n 1 cause) }
    | some q, none => { p with b := some (q + 1, recordOf s n (q + 1) cause) }
    | none, some q => { p with a := some (q + 1, recordOf s n (q + 1) cause) }
    | some qa, some qb =>
      if qb < qa then { p with b := some (qa + 1, recordOf s n (qa + 1) cause) } else { p with a := some (qb + 1, recordOf s n (qb + 1) cause) } := by
  have hseq : ∀ o : Option (Nat × LearnedRec), (validCopy s n o).map (·.1) =
      match o with | some (q, r) => if recordFits s n r then some q else none | none => none := by
    rintro (_ | ⟨q, r⟩)
    · rfl
    · unfold validCopy
      split <;> simp_all
  simp only [hseq]
  rfl

/-- Whatever copies there were, the one just written is chosen of the two (R221, R224). -/
theorem chosenRecord_writeCopy {s : State} {n : Nat} (hn : n < 4) (hlen : s.cells.length = 2304) (cause : Nat) (p : Pair LearnedRec) :
    ∃ q, chosenRecord (validCopy s n (writeCopy s n cause p).a) (validCopy s n (writeCopy s n cause p).b) = some (recordOf s n q cause) := by
  have hfit := fun q => validCopy_fits (q := q) (recordFits_recordOf hn hlen q cause)
  rw [writeCopy_eq]
  cases ha : validCopy s n p.a with
  | none =>
    cases hb : validCopy s n p.b with
    | none => exact ⟨1, by simp [hfit, hb, chosenRecord]⟩
    | some b => exact ⟨b.1 + 1, by simp [hfit, hb, chosenRecord]⟩
  | some a =>
    cases hb : validCopy s n p.b with
    | none => exact ⟨a.1 + 1, by simp [hfit, ha, chosenRecord]⟩
    | some b =>
      by_cases hlt : b.1 < a.1
      · exact ⟨a.1 + 1, by simp [hfit, ha, hlt, chosenRecord]⟩
      · exact ⟨b.1 + 1, by simp [hfit, hb, hlt, chosenRecord]⟩

/-! ### A write of one string -/

theorem writeLearned_learned {s : State} (h : s.therm.mramInh = false) (n cause : Nat) :
    (writeLearned n cause s).learned = updAt s.learned n fun p => writeCopy s n cause p := by simp [writeLearned, h]

theorem writeLearned_frame (n cause : Nat) (s : State) : keepsBut [.learned, .surv, .recorder] s (writeLearned n cause s) := by simp +decide

theorem writeLearned_boot (n cause : Nat) (s : State) : (writeLearned n cause s).boot = s.boot := writeLearned_frame n cause s .boot (by decide)

theorem bestRecord_writeLearned {s : State} {n : Nat} (hn : n < 4) (hl : s.learned.length = 4) (hlen : s.cells.length = 2304) (h : s.therm.mramInh = false)
    (cause : Nat) : ∃ q, bestRecord (writeLearned n cause s) n = some (recordOf s n q cause) := by
  have hvalid : ∀ o, validCopy (writeLearned n cause s) n o = validCopy s n o := fun o => by
    simp only [validCopy, recordFits_of_boot_eq (writeLearned_boot n cause s)]
  have hnew : (writeLearned n cause s).learned.getD n {} = writeCopy s n cause (s.learned.getD n {}) := by
    rw [writeLearned_learned h, getD_updAt, if_pos ⟨rfl, by omega⟩]
  rw [bestRecord_eq_chosen, hvalid, hvalid, hnew]
  exact chosenRecord_writeCopy hn hlen cause _

theorem writeLearned_best : ∀ (n cause : Nat) s, n < 4 → s.learned.length = 4 → s.cells.length = 2304 → s.therm.mramInh = false →
    (∃ q, bestRecord (writeLearned n cause s) n = some (recordOf s n q cause)) ∧
    (∀ m, m ≠ n → (writeLearned n cause s).learned.getD m {} = s.learned.getD m {}) ∧ keepsBut [.learned, .surv, .recorder] s (writeLearned n cause s) :=
  fun n cause s hn hl hlen h => ⟨bestRecord_writeLearned hn hl hlen h cause,
    fun m hm => by rw [writeLearned_learned h, getD_updAt, if_neg fun hnm => hm hnm.1.symm], writeLearned_frame n cause s⟩

/-! ### A write of several strings by command -/

theorem forEach_writeLearned_frame (l : List Nat) (cause : Nat) (s : State) :
    keepsBut [.learned, .surv, .recorder] s (forEach l (fun n s => writeLearned n cause s) s) := by
  rw [keepsBut_forEach_iff fun n s => writeLearned_frame n cause s]
  exact keepsBut_refl _ _

theorem forEach_writeLearned_notMem {n : Nat} {l : List Nat} (hn : n ∉ l) (cause : Nat) {s : State} (h : s.therm.mramInh = false) :
    (forEach l (fun n s => writeLearned n cause s) s).learned.getD n {} = s.learned.getD n {} := by
  induction l generalizing s with
  | nil => rfl
  | cons a l ih =>
    have hinh : (writeLearned a cause s).therm.mramInh = false := by rw [writeLearned_frame a cause s .therm (by decide), h]
    obtain ⟨hna, hnl⟩ := not_or.1 (mt List.mem_cons.2 hn)
    exact (ih hnl hinh).trans (by rw [writeLearned_learned h, getD_updAt, if_neg fun hc => hna hc.1.symm])

theorem bestRecord_congr {s t : State} {n : Nat} (hb : t.boot = s.boot) (hl : t.learned.getD n {} = s.learned.getD n {}) : bestRecord t n = bestRecord s n := by
  have hvalid : ∀ o, validCopy t n o = validCopy s n o := fun o => by simp only [validCopy, recordFits_of_boot_eq hb]
  rw [bestRecord_eq_chosen, bestRecord_eq_chosen, hvalid, hvalid, hl]

theorem stringCells_congr {s t : State} (hb : t.boot = s.boot) (hc : t.cells = s.cells) (n : Nat) : stringCells t n = stringCells s n := by
  simp only [stringCells, cellCount, linkOn, State.parBit, State.parN, State.par, hb, hc] <;> rfl

/-- The record chosen of a string that was written holds the cells as they stand, whatever other strings were written. -/
theorem forEach_writeLearned_mem {n : Nat} {l : List Nat} (hmem : n ∈ l) (hn : n < 4) (cause : Nat) {s : State} (hl : s.learned.length = 4)
    (hlen : s.cells.length = 2304) (h : s.therm.mramInh = false) : ∃ q,
    (bestRecord (forEach l (fun n s => writeLearned n cause s) s) n).map (fun x => (x.seq, x.cause, x.cells)) = some (q, cause, (stringCells s n).map entryOf) := by
  induction l generalizing s with
  | nil => simp at hmem
  | cons a l ih =>
    have hk := writeLearned_frame a cause s
    have hinh : (writeLearned a cause s).therm.mramInh = false := by rw [hk .therm (by decide), h]
    by_cases hml : n ∈ l
    · have hla : (writeLearned a cause s).learned.length = 4 := by rw [writeLearned_learned h, length_updAt, hl]
      have hca : (writeLearned a cause s).cells = s.cells := hk .cells (by decide)
      obtain ⟨q, hq⟩ := ih hml hla (by rw [hca, hlen]) hinh
      exact ⟨q, by rw [← stringCells_congr (hk .boot (by decide)) hca]; exact hq⟩
    · obtain rfl : n = a := (List.mem_cons.1 hmem).resolve_right hml
      obtain ⟨q, hq⟩ := bestRecord_writeLearned hn hl hlen h cause
      have hrest : bestRecord (forEach l (fun n s => writeLearned n cause s) (writeLearned n cause s)) n = bestRecord (writeLearned n cause s) n :=
        bestRecord_congr (forEach_writeLearned_frame l cause _ .boot (by decide)) (forEach_writeLearned_notMem hml cause hinh)
      refine ⟨q, ?_⟩
      show Option.map _ (bestRecord (forEach l (fun n s => writeLearned n cause s) (writeLearned n cause s)) n) = _
      rw [hrest, hq]
      rfl

/-- The strings that a command writes. -/
def writtenStrings (strings : Nat) (s : State) : List Nat := (List.range 4).filter fun n => bit strings n && linkOn s n

theorem exec_writeLearnedValues {s : State} (hrun : s.running = true) (t : Nat) (strings : BitVec 4) : exec (.writeLearnedValues t strings) s =
    .next (forEach (writtenStrings strings.toNat s) (fun n s => writeLearned n 4 s) (s.at_ t)) := by
  show execWriteLearnedValues t strings s = _
  have hl : ∀ n, linkOn (s.at_ t) n = linkOn s n := fun _ => rfl
  simp [execWriteLearnedValues, hrun, cmdWriteLearned, accept, writtenStrings, hl]

theorem writeLearnedValues_writes : ∀ t (strings : BitVec 4) s, s.running = true → s.learned.length = 4 → s.cells.length = 2304 → s.therm.mramInh = false →
    Completes (.writeLearnedValues t strings) s fun r =>
      (∀ n, n < 4 → bit strings.toNat n = true → linkOn s n = true → ∃ q, (bestRecord r n).map (fun x => (x.seq, x.cause, x.cells)) = some (q, 4, (stringCells s n).map entryOf)) ∧
      (∀ n, bit strings.toNat n = false ∨ linkOn s n = false → r.learned.getD n {} = s.learned.getD n {}) ∧ keepsBut [.time, .learned, .surv, .recorder] s r := by
  intro t strings s hrun hl hlen h
  refine ⟨_, exec_writeLearnedValues hrun t strings, fun n hn hb hlink => ?_, fun n hn => ?_, ?_⟩
  · exact forEach_writeLearned_mem (s := s.at_ t) (by simp [writtenStrings, hn, hb, hlink]) hn 4 hl hlen h
  · exact forEach_writeLearned_notMem (s := s.at_ t) (by rcases hn with hn | hn <;> simp [writtenStrings, hn]) 4 h
  · rw [keepsBut_forEach_iff fun n s => keepsBut_mono (writeLearned_frame n 4 s) (by decide)]
    simp +decide

/-! ### A write while MRAM is inhibited -/

theorem writeLearned_inhibited {s : State} (h : s.therm.mramInh = true) (n : Nat) :
    writeLearned n 4 s = (s.modSurv fun v => { v with deferred := updAt v.deferred n fun _ => some 4 }).stand 0x302B n true := by
  simp [writeLearned, h]

theorem writeLearned_inhibited_frame {s : State} (h : s.therm.mramInh = true) (n : Nat) : keepsBut [.surv, .recorder] s (writeLearned n 4 s) := by
  rw [writeLearned_inhibited h]
  simp +decide

theorem forEach_writeLearned_inhibited (l : List Nat) {s : State} (h : s.therm.mramInh = true) (hd : s.surv.deferred.length = 4) :
    keepsBut [.surv, .recorder] s (forEach l (fun n s => writeLearned n 4 s) s) ∧
    ∀ n, n < 4 → (n ∈ l ∨ s.surv.deferred.getD n none = some 4 ∧ s.isRaised 0x302B n = true) →
      (forEach l (fun n s => writeLearned n 4 s) s).surv.deferred.getD n none = some 4 ∧ (forEach l (fun n s => writeLearned n 4 s) s).isRaised 0x302B n = true := by
  induction l generalizing s with
  | nil => exact ⟨keepsBut_refl _ _, fun n _ hn => hn.resolve_left (by simp)⟩
  | cons a l ih =>
    have hk := writeLearned_inhibited_frame h a
    have hinh : (writeLearned a 4 s).therm.mramInh = true := by rw [hk .therm (by decide), h]
    have hda : (writeLearned a 4 s).surv.deferred = updAt s.surv.deferred a fun _ => some 4 := by
      rw [writeLearned_inhibited h, stand_surv]
      rfl
    obtain ⟨hkeep, hall⟩ := ih hinh (by rw [hda, length_updAt, hd])
    refine ⟨keepsBut_trans hk hkeep, fun n hn hmem => hall n hn ?_⟩
    rw [hda, getD_updAt, writeLearned_inhibited h]
    by_cases hna : a = n
    · subst hna
      exact .inr ⟨if_pos ⟨rfl, by omega⟩, isRaised_stand_true _ _ _ (by decide)⟩
    · rcases hmem with hmem | ⟨hdn, hr⟩
      · exact .inl ((List.mem_cons.1 hmem).resolve_left (Ne.symm hna))
      · exact .inr ⟨by rw [if_neg fun hc => hna hc.1, hdn], isRaised_stand_of_isRaised (by exact hr) _ _⟩

theorem writeLearnedValues_deferred : ∀ t (strings : BitVec 4) s, s.running = true → s.surv.deferred.length = 4 → s.therm.mramInh = true →
    Completes (.writeLearnedValues t strings) s fun r =>
      r.learned = s.learned ∧
      (∀ n, n < 4 → bit strings.toNat n = true → linkOn s n = true → r.surv.deferred.getD n none = some 4 ∧ r.isRaised 0x302B n = true) ∧
      keepsBut [.time, .surv, .recorder] s r := by
  intro t strings s hrun hd h
  obtain ⟨hkeep, hall⟩ := forEach_writeLearned_inhibited (writtenStrings strings.toNat s) (s := s.at_ t) h hd
  refine ⟨_, exec_writeLearnedValues hrun t strings, hkeep .learned (by decide), fun n hn hb hlink => hall n hn (.inl ?_), ?_⟩
  · simp [writtenStrings, hn, hb, hlink]
  · exact keepsBut_trans (t := s.at_ t) (by simp +decide) (keepsBut_mono hkeep (by decide))

/-- Settles O14: a write makes the newest fitting copy; while MRAM is inhibited it is deferred. -/
theorem learnedWrite : Obligations.LearnedWrite := ⟨writeLearned_best, writeLearnedValues_writes, writeLearnedValues_deferred⟩

end Sys2Proof.Machine
end

section
/-!
PROOF. DieTemperature: the step of one die sensor, the events of the sensors that broke, and the shape of a derating factor.
-/
namespace Sys2Proof.Machine

/-! ### The derating factor -/

theorem clampRat_mem {x : Rat} : 0 ≤ clampRat 0 1 x ∧ clampRat 0 1 x ≤ 1 := by
  unfold clampRat
  constructor <;> split_ifs <;> linarith

theorem clampRat_mono {x y : Rat} (h : x ≤ y) : clampRat 0 1 x ≤ clampRat 0 1 y := by
  unfold clampRat
  split_ifs <;> linarith

theorem clampRat_of_one_le {x : Rat} (h : 1 ≤ x) : clampRat 0 1 x = 1 := by
  unfold clampRat
  split_ifs
  · linarith
  · rfl
  · linarith

theorem clampRat_of_nonpos {x : Rat} (h : x ≤ 0) : clampRat 0 1 x = 0 := by
  unfold clampRat
  split_ifs
  · rfl
  · linarith
  · linarith

/-- The part of the way from the shut-off level back to the throttle level (R303). -/
def wayToShutOff (thr sh t : Int) : Rat := 1 - ((t - thr : Int) : Rat) / ((sh - thr : Int) : Rat)

theorem derate_eq_clampRat {thr sh : Int} (h : thr < sh) (t : Int) : derate thr sh t = clampRat 0 1 (wayToShutOff thr sh t) := by
  rw [derate, if_neg (by simpa using h.ne')]
  rfl

theorem derate_shape : ∀ thr sh t u : Int, thr < sh →
    (t ≤ thr → derate thr sh t = 1) ∧ (sh ≤ t → derate thr sh t = 0) ∧ 0 ≤ derate thr sh t ∧ derate thr sh t ≤ 1 ∧ (t ≤ u → derate thr sh u ≤ derate thr sh t) := by
  intro thr sh t u h
  have hpos : (0 : Rat) < ((sh - thr : Int) : Rat) := by exact_mod_cast sub_pos.2 h
  rw [derate_eq_clampRat h, derate_eq_clampRat h]
  refine ⟨fun ht => ?_, fun ht => ?_, clampRat_mem.1, clampRat_mem.2, fun htu => clampRat_mono ?_⟩
  · have hle : ((t - thr : Int) : Rat) / ((sh - thr : Int) : Rat) ≤ 0 :=
      div_nonpos_of_nonpos_of_nonneg (by exact_mod_cast sub_nonpos.2 ht) hpos.le
    exact clampRat_of_one_le (by unfold wayToShutOff; linarith)
  · have hge : 1 ≤ ((t - thr : Int) : Rat) / ((sh - thr : Int) : Rat) := by
      rw [le_div_iff₀ hpos, one_mul]
      exact_mod_cast sub_le_sub_right ht thr
    exact clampRat_of_nonpos (by unfold wayToShutOff; linarith)
  · have hdiv : ((t - thr : Int) : Rat) / ((sh - thr : Int) : Rat) ≤ ((u - thr : Int) : Rat) / ((sh - thr : Int) : Rat) :=
      div_le_div_of_nonneg_right (by exact_mod_cast sub_le_sub_right htu thr) hpos.le
    simp only [wayToShutOff]
    linarith

/-! ### The six sensors of a round -/

theorem dieStep_broken {s : State} {d : Nat} (h : dieDisabled s d = false) (count : Nat) (x : DieSensor) :
    (dieStep s d count x).broken = true ↔ x.broken = true ∨ dieTemp (s.therm.trim.getD d (8000, 9000)).1 (s.therm.trim.getD d (8000, 9000)).2 count < -550 ∨
      1400 < dieTemp (s.therm.trim.getD d (8000, 9000)).1 (s.therm.trim.getD d (8000, 9000)).2 count ∨ s.parN .thermDieStuck ≤ (dieStep s d count x).same := by
  simp [dieStep, h, or_assoc]

theorem dieStep_temp (s : State) (d count : Nat) (x : DieSensor) : (dieStep s d count x).temp =
    some (if (dieStep s d count x).broken then 1500 else wholeUnits (dieTemp (s.therm.trim.getD d (8000, 9000)).1 (s.therm.trim.getD d (8000, 9000)).2 count)) := rfl

theorem dieStep_same {s : State} {d count : Nat} {x : DieSensor} (ht : x.temp.isSome = true) (hc : x.count = count) :
    (dieStep s d count x).same = x.same + 1 := by simp [dieStep, ht, hc]

/-- The sensors that a round breaks. -/
def newlyBroken (s t : State) : List Nat := (List.range 6).filter fun d => (t.therm.dies.getD d {}).broken && !(s.therm.dies.getD d {}).broken

theorem forEach_raise_isRaised (c : Nat) (hc : recordedOnly.contains c = false) {a : Nat} {l : List Nat} {s : State} (h : a ∈ l ∨ s.isRaised c a = true) :
    (forEach l (fun a s => s.raise c a) s).isRaised c a = true := by
  induction l generalizing s with
  | nil => exact h.resolve_left (by simp)
  | cons b l ih =>
    refine ih ?_
    rcases h with h | h
    · rcases List.mem_cons.1 h with rfl | h
      · exact .inr (isRaised_raise _ _ _ hc)
      · exact .inl h
    · exact .inr (isRaised_raise_of_isRaised h _ _)

theorem forEach_raise_therm (c : Nat) (l : List Nat) (s : State) : (forEach l (fun a s => s.raise c a) s).therm = s.therm := by
  induction l generalizing s with
  | nil => rfl
  | cons b l ih => exact (ih _).trans rfl

/-- The sensors after a round are the step of each, and each one that broke has its event. -/
theorem exec_roundDieSensors {t : Nat} {counts : List Nat} {s : State} (hup : s.up = true) (hr : s.roundPos = 0) (h1 : s.frameStart + 6000000 ≤ t)
    (h2 : t ≤ s.frameStart + 7000000) : ∃ u, u.therm.dies = s.therm.dies.mapIdx (fun d x => dieStep s d (counts.getD d 0) x) ∧ u.therm.dieAt = some s.time.frame ∧
      keepsBut [.time, .therm] s u ∧ exec (.roundDieSensors t counts) s = .next (forEach (newlyBroken s u) (fun d s => s.raise 0xA004 d) u) := by
  have hr' : (s.at_ t).roundPos = 0 := hr
  have hfs : (s.at_ t).frameStart = s.frameStart := rfl
  have hwindow : (!(s.at_ t).up || (s.at_ t).roundPos != 0 || t < (s.at_ t).frameStart + 6000000 || (s.at_ t).frameStart + 7000000 < t) = false := by
    simp [hup, hr', hfs, h1, h2]
  have hexec : exec (.roundDieSensors t counts) s = execRoundDieSensors t counts s := rfl
  rw [hexec]
  unfold execRoundDieSensors
  extract_lets s' dies live fresh top s1
  rw [if_neg (by rw [hwindow]; decide)]
  exact ⟨s1, rfl, rfl, by simp +decide [s1, s'], rfl⟩

theorem roundDieSensors_steps : ∀ t counts s, s.up = true → s.roundPos = 0 → s.frameStart + 6000000 ≤ t → t ≤ s.frameStart + 7000000 → s.therm.dies.length = 6 →
    Completes (.roundDieSensors t counts) s fun r =>
      r.therm.dieAt = some s.time.frame ∧
      (∀ d, d < 6 → dieDisabled s d = false →
        let x := s.therm.dies.getD d {}
        let y := r.therm.dies.getD d {}
        let v := dieTemp (s.therm.trim.getD d (8000, 9000)).1 (s.therm.trim.getD d (8000, 9000)).2 (counts.getD d 0)
        ((x.broken = true ∨ v < -550 ∨ 1400 < v ∨ s.parN .thermDieStuck ≤ y.same) → y.broken = true ∧ y.temp = some 1500) ∧
        (x.broken = false → -550 ≤ v → v ≤ 1400 → y.same < s.parN .thermDieStuck → y.broken = false ∧ y.temp = some (wholeUnits v)) ∧
        (x.temp.isSome = true → x.count = counts.getD d 0 → y.same = x.same + 1) ∧
        (x.broken = false → y.broken = true → r.isRaised 0xA004 d = true)) ∧
      keepsBut [.time, .therm, .recorder] s r := by
  intro t counts s hup hr h1 h2 hlen
  obtain ⟨u, hdies, hat, hkeep, hexec⟩ := exec_roundDieSensors (counts := counts) hup hr h1 h2
  refine ⟨_, hexec, ?_, fun d hd hdis => ?_, ?_⟩
  · rw [forEach_raise_therm, hat]
  · rw [forEach_raise_therm]
    have hy : u.therm.dies.getD d {} = dieStep s d (counts.getD d 0) (s.therm.dies.getD d {}) := by
      have hdl : d < s.therm.dies.length := by omega
      simp only [hdies, List.getD_eq_getElem?_getD, List.getElem?_mapIdx, List.getElem?_eq_getElem hdl]
      rfl
    intro x y v
    have hbroken := dieStep_broken hdis (counts.getD d 0) x
    refine ⟨fun h => ?_, fun hx hlo hhi hs => ?_, fun ht hc => ?_, fun hx hb => ?_⟩
    · have hb : y.broken = true := by
        rw [show y = _ from hy] at h ⊢
        exact hbroken.2 h
      refine ⟨hb, ?_⟩
      rw [show y = _ from hy] at hb ⊢
      rw [dieStep_temp, if_pos hb]
    · have hb : y.broken = false := by
        refine Bool.eq_false_iff.2 fun hb => ?_
        rw [show y = _ from hy] at hb hs
        rcases hbroken.1 hb with h | h | h | h
        · simp [hx] at h
        · exact absurd hlo (not_le.2 h)
        · exact absurd hhi (not_le.2 h)
        · exact absurd hs (not_lt.2 h)
      refine ⟨hb, ?_⟩
      rw [show y = _ from hy] at hb ⊢
      rw [dieStep_temp, if_neg (by rw [hb]; decide)]
    · rw [show y = _ from hy]
      exact dieStep_same ht hc
    · refine forEach_raise_isRaised _ (by decide) (.inl ?_)
      have hx' : (s.therm.dies.getD d {}).broken = false := hx
      have hb' : (u.therm.dies.getD d {}).broken = true := hb
      simp only [newlyBroken, List.mem_filter, List.mem_range, hx', hb']
      exact ⟨hd, rfl⟩
  · rw [keepsBut_forEach_iff fun a s => by simp +decide]
    exact keepsBut_mono hkeep (by decide)

/-- Settles O18: by the step of one sensor, and the clamp of the derating line. -/
theorem dieTemperature : Obligations.DieTemperature := ⟨roundDieSensors_steps, derate_shape⟩

end Sys2Proof.Machine
end

section
/-!
PROOF. CombPublication: what each stage of the publication leaves alone, and the rotation of the three buffers.
-/
namespace Sys2Proof.Machine

/-! ### Narrow frames of the stages -/

theorem keepsBut_modeCmd_narrow (r : State) (k : Nat) (s : State) : keepsBut [.prog, .recorder] r (modeCmd k s) ↔ keepsBut [.prog, .recorder] r s := by
  unfold modeCmd
  split <;> simp +decide

theorem keepsBut_progPublication_narrow (r s : State) :
    keepsBut [.time, .can, .prog, .recorder, .boot] r (progPublication s) ↔ keepsBut [.time, .can, .prog, .recorder, .boot] r s := by
  have hcmd : ∀ c s, keepsBut [.time, .can, .prog, .recorder, .boot] s (applyCmd c s) := by
    intro c s
    cases c with
    | mode k => exact keepsBut_mono ((keepsBut_modeCmd_narrow s k s).2 (keepsBut_refl _ _)) (by decide)
    | _ => simp +decide [applyCmd]
  have happly : ∀ s, keepsBut [.time, .can, .prog, .recorder, .boot] r (applyCmds s) ↔ keepsBut [.time, .can, .prog, .recorder, .boot] r s := by
    intro s
    unfold applyCmds
    extract_lets upTo due
    rw [keepsBut_forEach_iff fun (c : ProgCmd × Nat) s => hcmd c.1 s]
    simp +decide
  unfold progPublication
  extract_lets s1
  split
  · rfl
  · split
    · simp +decide [s1, happly]
    · exact happly s

theorem keepsBut_queueCan_forEach (r : State) (e : CanTx) (l : List Nat) (s : State) :
    keepsBut [.can, .recorder] r (forEach l (queueCan e) s) ↔ keepsBut [.can, .recorder] r s :=
  keepsBut_forEach_iff (fun a s => by simp +decide) l r s

theorem keepsBut_statusFrame_narrow (r : State) (img : Image) (s : State) : keepsBut [.can, .recorder] r (statusFrame img s) ↔ keepsBut [.can, .recorder] r s := by
  unfold statusFrame
  split
  · extract_lets it sum good
    unfold sendStatus
    extract_lets d e
    rw [keepsBut_queueCan_forEach]
    simp +decide
  · rfl

/-! ### The control path after a publication -/

/-- The tables that the dispatch build leaves for the next boundary, and those in force. -/
theorem dispatchBuild_reg (s : State) : (dispatchBuild s).reg.shadow.isSome = true ∧ (dispatchBuild s).reg.act = s.reg.act := by
  unfold dispatchBuild
  extract_lets s1 s2 shares p
  have h2 : keepsBut [.est, .surv, .disp, .guard, .recorder] s s2 := by simp +decide [s2, s1]
  clear_value s2
  split
  next s3 surv0 hcap =>
    have h3 : keepsBut [.est, .surv, .disp, .guard, .recorder] s s3 := by
      rw [show s3 = (capShare p s2).1 from (congrArg Prod.fst hcap).symm]
      simpa +decide using h2
    clear hcap
    extract_lets sv s4
    have h4 : keepsBut [.est, .surv, .disp, .guard, .recorder] s s4 := by simpa +decide [s4] using h3
    clear_value s4
    split
    next s5 surv hcap =>
      have h5 : keepsBut [.est, .surv, .disp, .guard, .recorder] s s5 := by
        rw [show s5 = (capShare p s4).1 from (congrArg Prod.fst hcap).symm]
        simpa +decide using h4
      extract_lets psv shared xs short run pOf rOf s6 tb s7
      have h7 : s7.reg.shadow.isSome = true ∧ s7.reg.act = s5.reg.act := by
        simp only [s7, State.modReg_reg]
        split
        next hlate => exact ⟨(Bool.and_eq_true_iff.1 hlate).2, rfl⟩
        next => exact ⟨rfl, rfl⟩
      rw [h5 .reg (by decide)] at h7
      split
      · rwa [clear_reg]
      · rwa [stand_reg]

/-! ### The publication itself -/

/-- The state in which a publication fills its frame: the areas not closed counted, and the stages before the image. -/
def beforeImage (g : Nat) (late : BitVec 16) (s : State) : State :=
  thermalUpdate g (closeStations g
    (forEach ((List.range 16).filter (late &&& 0x1FFE).getLsbD) (fun a s => s.overrun (areaClass a) a) (s.modComb fun c => { c with late := late })))

/-- The state with the image rotated in and the offset of the next frame placed. -/
def afterImage (g t : Nat) (late : BitVec 16) (s : State) : State :=
  let img := buildFrame (beforeImage g late s) g t
  placeSample (keepVolts (statusFrame img (rotate img (closeAreas late (beforeImage g late s)))))

/-- The work of the control path that follows. -/
def controlPath (g : Nat) (s : State) : State := recordFrame g (progPublication (dispatchBuild (balanceDecision g (surveyWatch g (surveyDone g s)))))

/-- What the firing of compare unit 13 leaves as it was. -/
theorem fireUnit_fields (u : Nat) (s : State) : (fireUnit u s).time.frame = s.time.frame ∧ (fireUnit u s).time.framesOn = s.time.framesOn ∧
    (fireUnit u s).time.firstFrame = s.time.firstFrame ∧ (fireUnit u s).comb = s.comb ∧ (fireUnit u s).running = s.running ∧
    (fireUnit u s).frameStart = s.frameStart := by
  obtain ⟨units, h⟩ := fireUnit_eq_modTime_compare u s
  rw [h]
  exact ⟨rfl, rfl, rfl, rfl, rfl, rfl⟩

theorem exec_combPublication {t : Nat} {late : BitVec 16} {s : State} (hup : s.up = true) (hon : s.time.framesOn = true)
    (hf : s.time.firstFrame + 1 ≤ s.time.frame) (ht : t = s.frameStart + 5000000) (hnew : s.comb.published.map (·.frame) ≠ some (s.time.frame - 1)) :
    exec (.combPublication t late) s = .next (if s.running then controlPath (s.time.frame - 1) (afterImage (s.time.frame - 1) t late (fireUnit 13 (s.at_ t)))
      else afterImage (s.time.frame - 1) t late (fireUnit 13 (s.at_ t))) := by
  obtain ⟨hframe, hframes, hfirst, hcomb, hrun, hstart⟩ := fireUnit_fields 13 (s.at_ t)
  have hup' : (fireUnit 13 (s.at_ t)).up = true := by rw [fireUnit_up, at_up, hup]
  show execCombPublication t late s = _
  unfold execCombPublication
  generalize fireUnit 13 (s.at_ t) = s' at *
  have hg : s'.time.frame - 1 = s.time.frame - 1 := congrArg (· - 1) hframe
  have hlast : ((s'.comb.published.map (·.frame)) == some (s.time.frame - 1)) = false := by
    rw [hcomb]
    exact beq_eq_false_iff_ne.2 hnew
  have hgo : (!s'.up || !s'.time.framesOn || decide (s.time.frame - 1 < s'.time.firstFrame) || t != s'.frameStart + 5000000 ||
      (s'.comb.published.map (·.frame)) == some (s.time.frame - 1)) = false := by
    have h1 : decide (s.time.frame - 1 < s'.time.firstFrame) = false := decide_eq_false (by rw [hfirst]; show ¬ _ < s.time.firstFrame; omega)
    have h2 : (t != s'.frameStart + 5000000) = false := bne_eq_false_iff_eq.2 (by rw [hstart]; exact ht)
    rw [hup', hframes, show (s.at_ t).time.framesOn = true from hon, h1, h2, hlast]
    rfl
  dsimp only
  rw [hg, if_neg (by rw [hgo]; decide), hrun, at_running]
  split <;> rfl

/-! ### What the stages give -/

theorem forEach_overrun_missed (l : List Nat) (s : State) : (forEach l (fun a s => s.overrun (areaClass a) a) s).pwr.missed = s.pwr.missed + l.length := by
  induction l generalizing s with
  | nil => rfl
  | cons a l ih =>
    refine (ih _).trans ?_
    have hone : (s.overrun (areaClass a) a).pwr.missed = s.pwr.missed + 1 := rfl
    rw [hone, List.length_cons]
    omega

/-- The areas that a late map names, of the twelve that have a writer (Table 2-6). -/
theorem lateAreas_length (late : BitVec 16) :
    ((List.range 16).filter (late &&& 0x1FFE).getLsbD).length = ((List.range 13).filter fun a => a != 0 && late.getLsbD a).length := by
  have hbit : ∀ a ∈ List.range 16, (late &&& 0x1FFE).getLsbD a = (decide (a < 13) && (a != 0 && late.getLsbD a)) := by
    intro a ha
    rw [BitVec.getLsbD_and]
    have hmask : ∀ a ∈ List.range 16, (0x1FFE : BitVec 16).getLsbD a = (decide (a < 13) && a != 0) := by decide
    rw [hmask a ha]
    cases late.getLsbD a <;> simp
  have hrange : (List.range 16).filter (fun a => decide (a < 13)) = List.range 13 := by decide
  rw [List.filter_congr hbit, ← hrange, List.filter_filter]
  refine congrArg List.length (List.filter_congr fun a _ => ?_)
  exact Bool.and_comm _ _

theorem beforeImage_facts (g : Nat) (late : BitVec 16) (s : State) :
    (beforeImage g late s).comb = { s.comb with late := late } ∧ (beforeImage g late s).pwr.missed = s.pwr.missed + ((List.range 13).filter fun a => a != 0 && late.getLsbD a).length ∧
    keepsBut [.comb, .pwr, .recorder, .can, .forgs, .therm] s (beforeImage g late s) := by
  have hover : ∀ l s, keepsBut [.pwr, .recorder] s (forEach l (fun a s => s.overrun (areaClass a) a) s) := fun l s =>
    (keepsBut_forEach_iff (fun a s => by simp +decide) l s s).2 (keepsBut_refl _ _)
  have hafter : ∀ s, keepsBut [.can, .forgs, .therm, .recorder] s (thermalUpdate g (closeStations g s)) := fun s => by simp +decide
  refine ⟨?_, ?_, ?_⟩
  · rw [beforeImage, hafter _ .comb (by decide), hover _ _ .comb (by decide)]
    rfl
  · rw [beforeImage, hafter _ .pwr (by decide), forEach_overrun_missed, lateAreas_length]
    rfl
  · exact keepsBut_trans (keepsBut_trans (t := s.modComb fun c => { c with late := late }) (by simp +decide) (keepsBut_mono (hover _ _) (by decide)))
      (keepsBut_mono (hafter _) (by decide))

@[simp] theorem clearAll_comb (c : Nat) (s : State) : (s.clearAll c).comb = s.comb :=
  (show keepsBut [.recorder] s (s.clearAll c) by simp +decide) .comb (by decide)

theorem rotate_comb (img : Image) (s : State) : (rotate img s).comb.published = some img ∧ (rotate img s).comb.previous = s.comb.published ∧
    (rotate img s).comb.writer = s.comb.previous ∧ (rotate img s).comb.late = s.comb.late := by
  unfold rotate rotateBuffers
  extract_lets s1
  split
  · rw [clearAll_comb]
    exact ⟨rfl, rfl, rfl, rfl⟩
  · exact ⟨rfl, rfl, rfl, rfl⟩

theorem placeSample_frame (s : State) : (placeSample s).time.frame = s.time.frame ∧ keepsBut [.time, .recorder] s (placeSample s) := by
  unfold placeSample
  extract_lets sync lost
  split
  · exact ⟨by simp, by simp +decide⟩
  · exact ⟨by simp, by simp +decide⟩

theorem afterImage_facts (g t : Nat) (late : BitVec 16) (s : State) :
    ((afterImage g t late s).comb.published.map (·.frame)) = some g ∧ (afterImage g t late s).comb.previous = s.comb.published ∧
    (afterImage g t late s).comb.writer = s.comb.previous ∧ (afterImage g t late s).comb.late = late ∧
    (afterImage g t late s).pwr.missed = s.pwr.missed + ((List.range 13).filter fun a => a != 0 && late.getLsbD a).length ∧
    (afterImage g t late s).reg.act = s.reg.act ∧ (afterImage g t late s).time.frame = s.time.frame := by
  obtain ⟨hcomb, hmissed, hkeep⟩ := beforeImage_facts g late s
  unfold afterImage
  extract_lets img
  generalize hu : closeAreas late (beforeImage g late s) = u
  have hu' : u.comb.published = s.comb.published ∧ u.comb.previous = s.comb.previous ∧ u.comb.late = late := by
    subst hu
    have hclose : ∀ s, (closeAreas late s).comb = { s.comb with seen := (closeAreas late s).comb.seen } := fun _ => rfl
    rw [hclose, hcomb]
    exact ⟨rfl, rfl, rfl⟩
  have hku : keepsBut [.comb] (beforeImage g late s) u := by
    subst hu
    simp +decide
  obtain ⟨hpub, hprev, hwriter, hlate⟩ := rotate_comb img u
  have hkr : keepsBut [.comb, .recorder] u (rotate img u) := by simp +decide
  generalize rotate img u = v at *
  have hks := (keepsBut_statusFrame_narrow v img v).2 (keepsBut_refl _ _)
  generalize statusFrame img v = w at *
  obtain ⟨hframe, hkp⟩ := placeSample_frame (keepVolts w)
  have hkv : keepsBut [.reg] w (keepVolts w) := by simp +decide
  have hact : (keepVolts w).reg.act = w.reg.act := rfl
  rw [hkp .comb (by decide), hkp .pwr (by decide), hkp .reg (by decide), hframe, hact, hkv .comb (by decide), hkv .pwr (by decide), hkv .time (by decide),
    hks .comb (by decide), hks .pwr (by decide), hks .reg (by decide), hks .time (by decide), hkr .pwr (by decide), hkr .reg (by decide), hkr .time (by decide),
    hku .pwr (by decide), hku .reg (by decide), hku .time (by decide), hkeep .reg (by decide), hkeep .time (by decide), hpub, hprev, hwriter, hlate]
  exact ⟨rfl, hu'.1, hu'.2.1, hu'.2.2, hmissed, rfl, rfl⟩

theorem controlPath_facts (g : Nat) (s : State) : (controlPath g s).comb = s.comb ∧ (controlPath g s).pwr = s.pwr ∧ (controlPath g s).time.frame = s.time.frame ∧
    (controlPath g s).reg.shadow.isSome = true ∧ (controlPath g s).reg.act = s.reg.act := by
  unfold controlPath
  have hbal : keepsBut [.links, .tagCtr, .forgs, .recorder, .surv] s (balanceDecision g (surveyWatch g (surveyDone g s))) := by simp +decide
  generalize balanceDecision g (surveyWatch g (surveyDone g s)) = u at *
  obtain ⟨hshadow, hact⟩ := dispatchBuild_reg u
  have hkd : keepsBut [.est, .surv, .reg, .disp, .guard, .recorder] u (dispatchBuild u) := by simp +decide
  generalize dispatchBuild u = v at *
  have hkp := (keepsBut_progPublication_narrow v v).2 (keepsBut_refl _ _)
  have hframe : (progPublication v).time.frame = v.time.frame := (timeHas_progPublication (Q := fun x => x.frame = v.time.frame) (fun _ _ => Iff.rfl) v).2 rfl
  generalize progPublication v = w at *
  have hkr : keepsBut [.recorder] w (recordFrame g w) := by simp +decide
  rw [hkr .comb (by decide), hkr .pwr (by decide), hkr .time (by decide), hkr .reg (by decide), hkp .comb (by decide), hkp .pwr (by decide), hkp .reg (by decide),
    hframe, hkd .comb (by decide), hkd .pwr (by decide), hkd .time (by decide), hbal .comb (by decide), hbal .pwr (by decide), hbal .time (by decide), hact,
    hbal .reg (by decide)]
  exact ⟨rfl, rfl, rfl, hshadow, rfl⟩

theorem combPublication_publishes : ∀ t late s, s.up = true → s.time.framesOn = true → s.time.firstFrame + 1 ≤ s.time.frame → t = s.frameStart + 5000000 → s.comb.published.map (·.frame) ≠ some (s.time.frame - 1) →
    Completes (.combPublication t late) s fun r =>
      (r.comb.published.map (·.frame)) = some (s.time.frame - 1) ∧ r.comb.previous = s.comb.published ∧ r.comb.writer = s.comb.previous ∧ r.comb.late = late ∧
      r.pwr.missed = s.pwr.missed + ((List.range 13).filter fun a => a != 0 && late.getLsbD a).length ∧ (s.running = true → r.reg.shadow.isSome = true) ∧ r.reg.act = s.reg.act ∧
      r.time.frame = s.time.frame ∧ keepsBut [.time, .comb, .pwr, .forgs, .reg, .can, .recorder, .est, .guard, .therm, .prog, .tagCtr, .surv, .disp, .links, .boot] s r := by
  intro t late s hup hon hf ht hnew
  have hexec := exec_combPublication (late := late) hup hon hf ht hnew
  obtain ⟨r, hr, hframe⟩ := exec_frame (.combPublication t late) s
  obtain ⟨hpub, hprev, hwriter, hlate, hmissed, hact, htime⟩ := afterImage_facts (s.time.frame - 1) t late (fireUnit 13 (s.at_ t))
  have hfire : keepsBut [.time] s (fireUnit 13 (s.at_ t)) := by simp +decide
  obtain ⟨hsf, -, -, -, -, -⟩ := fireUnit_fields 13 (s.at_ t)
  rw [hfire .comb (by decide)] at hprev hwriter
  rw [hfire .pwr (by decide)] at hmissed
  rw [hfire .reg (by decide)] at hact
  rw [hsf] at htime
  refine ⟨r, hr, ?_⟩
  have hkeep := keepsBut_mono hframe (qs := [.time, .comb, .pwr, .forgs, .reg, .can, .recorder, .est, .guard, .therm, .prog, .tagCtr, .surv, .disp, .links, .boot]) (by simp +decide [mayChange])
  rw [hexec] at hr
  obtain rfl := Host.Outcome.next.inj hr
  cases hrun : s.running with
  | false =>
    simp only [hrun, Bool.false_eq_true, if_false] at hkeep ⊢
    exact ⟨hpub, hprev, hwriter, hlate, hmissed, fun h => absurd h (by decide), hact, htime, hkeep⟩
  | true =>
    simp only [hrun, if_true] at hkeep ⊢
    obtain ⟨hcomb, hpwr, hfr, hshadow, hact'⟩ := controlPath_facts (s.time.frame - 1) (afterImage (s.time.frame - 1) t late (fireUnit 13 (s.at_ t)))
    rw [hcomb, hpwr, hfr, hact']
    exact ⟨hpub, hprev, hwriter, hlate, hmissed, fun _ => hshadow, hact, htime, hkeep⟩

theorem combPublication_elsewhere : ∀ t late s, (t ≠ s.frameStart + 5000000 ∨ s.comb.published.map (·.frame) = some (s.time.frame - 1)) →
    Completes (.combPublication t late) s fun r => r.comb = s.comb ∧ keepsBut [.time] s r := by
  intro t late s h
  obtain ⟨hframe, -, -, hcomb, -, hstart⟩ := fireUnit_fields 13 (s.at_ t)
  have hfire : keepsBut [.time] s (fireUnit 13 (s.at_ t)) := by simp +decide
  refine ⟨fireUnit 13 (s.at_ t), ?_, hfire .comb (by decide), hfire⟩
  show execCombPublication t late s = _
  unfold execCombPublication
  generalize fireUnit 13 (s.at_ t) = s' at *
  refine if_pos ?_
  rcases h with h | h
  · have h2 : (t != s'.frameStart + 5000000) = true := bne_iff_ne.2 (by rw [hstart]; exact h)
    rw [h2, Bool.or_true, Bool.true_or]
  · have hlast : ((s'.comb.published.map (·.frame)) == some (s'.time.frame - 1)) = true := beq_iff_eq.2 (by rw [hcomb, hframe]; exact h)
    rw [hlast, Bool.or_true]

/-- Settles O24: by the stages of the publication, each with what it leaves alone. -/
theorem combPublication : Obligations.CombPublication := ⟨combPublication_publishes, combPublication_elsewhere⟩

end Sys2Proof.Machine
end

section
/-!
PROOF. InputEdges: one rule per input and branch.
-/
namespace Sys2Proof.Machine

theorem edgeCounts_of_le {f ts held : Nat} (h : f ≤ held) : edgeCounts f { at_ := ts, held := held } = true := by simp [edgeCounts, h]
theorem edgeCounts_of_lt {f ts held : Nat} (h : held < f) : edgeCounts f { at_ := ts, held := held } = false := by simp [edgeCounts, h]

/-- The edge that a capture input waits for (R376). -/
theorem capNamed_iff {named : Nat} {falling : Bool} : (named == 2 || (named == 0 && !falling) || (named == 1 && falling)) = true ↔
    named = 2 ∨ named = (if falling then 1 else 0) := by
  cases falling <;> simp

@[simp] theorem judgeSync_time (t : Nat) (s : State) : (judgeSync t s).time = { s.time with synced := (judgeSync t s).time.synced, ppsOut := (judgeSync t s).time.ppsOut } := by
  simp [judgeSync]

/-- A sample of the source in use sets the offset, the source and the bound of module time (R362, R367, R369). -/
theorem offsetSample_used {k t : Nat} {o : Rat} {s : State} (hf : firstSource s t = some k) (hon : s.time.framesOn = true) :
    (offsetSample k o t s).time.src = some k ∧ (offsetSample k o t s).time.lastO = some o ∧ (offsetSample k o t s).time.holdover = false ∧
    (offsetSample k o t s).time.bound = some (ratAbs o + (s.parN .timeErrAsym : Rat), t) ∧ (offsetSample k o t s).time.ppsGood = s.time.ppsGood ∧
    keepsBut [.time, .recorder] s (offsetSample k o t s) := by
  refine ⟨?_, ?_, ?_, ?_, ?_, by simp +decide⟩ <;>
  · unfold offsetSample
    rw [if_pos (by rw [hf, hon, beq_self_eq_true]; rfl)]
    extract_lets delta f s1 s2
    have hs2 : s2.time = s1.time := by
      simp only [s2]
      split <;> rfl
    rw [judgeSync_time]
    simp only [stand_time, clear_time, hs2]
    rfl

/-- A counted edge of a capture input that its parameter names (R376, R377). -/
theorem exec_capInEdge {ts held : Nat} {k : Fin 8} {falling : Bool} {s : State} (hup : s.up = true) (hheld : s.parN .timeCapFilter k.val ≤ held)
    (hnamed : s.parN .timeCapEdge k.val = 2 ∨ s.parN .timeCapEdge k.val = (if falling then 1 else 0)) :
    exec (.capInEdge { at_ := ts, held := held } k falling) s =
      if 8 ≤ (s.time.capture.getD k.val []).length then
        .next (((s.at_ ts).modTime fun x => { x with capDropped := x.capDropped + 1, capLost := updAt x.capLost k.val fun _ => true }).raise 0x6009 k.val)
      else .next ((s.at_ ts).modTime fun x => { x with
        capture := updAt x.capture k.val (· ++ [{ time := ts, falling := falling, lost := s.time.capLost.getD k.val false, input := k.val }])
        capLost := updAt x.capLost k.val fun _ => false }) := by
  show execCapInEdge _ k falling s = _
  refine if_neg ?_
  rw [at_up, hup, at_parN, at_parN, edgeCounts_of_le hheld, capNamed_iff.2 hnamed]
  decide

/-- A counted edge of PPS_IN (R378). -/
theorem exec_ppsInEdge {ts held : Nat} {s : State} (hup : s.up = true) (hheld : 100 ≤ held) :
    exec (.ppsInEdge { at_ := ts, held := held }) s =
      if (secondOffset ts).natAbs ≤ s.parN .timePpsWindow then
        .next (if s.time.setByEpoch then offsetSample 1 (secondOffset ts : Rat) ts (((s.at_ ts).modTime fun x => { x with ppsEdge := some ts, ppsGood := some ts }).clear 0x6008 0)
          else ((s.at_ ts).modTime fun x => { x with ppsEdge := some ts, ppsGood := some ts }).clear 0x6008 0)
      else if s.time.src == some 1 then .next ((s.at_ ts).stand 0x6008 0 true)
      else .next ((s.at_ ts).modTime fun x => { x with ppsEdge := some ts }) := by
  show execPpsInEdge _ s = _
  refine if_neg ?_
  rw [at_up, hup, edgeCounts_of_le (f := pinFilter) hheld]
  decide

theorem syncInEdge_kept : ∀ ts held s, s.up = true → 100 ≤ held →
    Completes (.syncInEdge { at_ := ts, held := held }) s fun t =>
      t.time = { s.time with now := max s.time.now ts, syncEdge := some ts, syncAge := 0 } ∧ keepsBut [.time] s t := by
  intro ts held s hup hheld
  refine ⟨(s.at_ ts).modTime fun x => { x with syncEdge := some ts, syncAge := 0 }, ?_, rfl, by simp +decide⟩
  show execSyncInEdge _ s = _
  simp [execSyncInEdge, hup, edgeCounts_of_le (f := pinFilter) hheld]

theorem edges_not_counted : ∀ ts held (k : Fin 8) falling s, (held < 100 → exec (.syncInEdge { at_ := ts, held := held }) s = .next (s.at_ ts) ∧ exec (.pulseInEdge { at_ := ts, held := held }) s = .next (s.at_ ts) ∧
      exec (.ppsInEdge { at_ := ts, held := held }) s = .next (s.at_ ts)) ∧
    (held < s.parN .timeCapFilter k.val ∨ s.parN .timeCapEdge k.val = (if falling then 0 else 1) → exec (.capInEdge { at_ := ts, held := held } k falling) s = .next (s.at_ ts)) := by
  intro ts held k falling s
  refine ⟨fun hheld => ?_, fun h => ?_⟩
  · have hlt := edgeCounts_of_lt (f := pinFilter) (ts := ts) hheld
    refine ⟨?_, ?_, ?_⟩
    · show execSyncInEdge _ s = _
      simp [execSyncInEdge, hlt]
    · show execPulseInEdge _ s = _
      simp [execPulseInEdge, hlt]
    · show execPpsInEdge _ s = _
      simp [execPpsInEdge, hlt]
  · show execCapInEdge _ k falling s = _
    refine if_pos ?_
    rcases h with h | h
    · rw [at_parN, edgeCounts_of_lt h]
      simp
    · have hnot : (s.parN .timeCapEdge k.val == 2 || (s.parN .timeCapEdge k.val == 0 && !falling) || (s.parN .timeCapEdge k.val == 1 && falling)) = false := by
        rw [h]
        cases falling <;> decide
      rw [at_parN, at_parN, hnot]
      simp

theorem pulseInEdge_kept : ∀ ts held s, s.up = true → 100 ≤ held →
    Completes (.pulseInEdge { at_ := ts, held := held }) s fun t =>
      t.time.pulse = { count := s.time.pulse.count + 1, first := if s.time.pulse.count = 0 then ts else s.time.pulse.first, last := ts } ∧
      { t.time with pulse := s.time.pulse } = { s.time with now := max s.time.now ts } ∧ keepsBut [.time] s t := by
  intro ts held s hup hheld
  refine ⟨(s.at_ ts).modTime fun x =>
    { x with pulse := { count := x.pulse.count + 1, first := if x.pulse.count == 0 then ts else x.pulse.first, last := ts } }, ?_, ?_, rfl, by simp +decide⟩
  · show execPulseInEdge _ s = _
    simp [execPulseInEdge, hup, edgeCounts_of_le (f := pinFilter) hheld]
  · show ({ count := _, first := _, last := _ } : PulseFrame) = _
    simp [beq_iff_eq]

theorem capInEdge_kept : ∀ ts held (k : Fin 8) falling s, s.up = true → s.parN .timeCapFilter k.val ≤ held → s.time.capture.length = 8 → s.time.capLost.length = 8 →
    (s.parN .timeCapEdge k.val = 2 ∨ s.parN .timeCapEdge k.val = (if falling then 1 else 0)) → (s.time.capture.getD k.val []).length < 8 →
    Completes (.capInEdge { at_ := ts, held := held } k falling) s fun t =>
      t.time.capture.getD k.val [] = s.time.capture.getD k.val [] ++ [{ time := ts, falling := falling, lost := s.time.capLost.getD k.val false, input := k.val }] ∧
      (∀ j, j ≠ k.val → t.time.capture.getD j [] = s.time.capture.getD j [] ∧ t.time.capLost.getD j false = s.time.capLost.getD j false) ∧
      t.time.capLost.getD k.val false = false ∧
      { t.time with capture := s.time.capture, capLost := s.time.capLost } = { s.time with now := max s.time.now ts } ∧ keepsBut [.time] s t := by
  intro ts held k falling s hup hheld hq hl hnamed hroom
  refine ⟨(s.at_ ts).modTime fun x => { x with
    capture := updAt x.capture k.val (· ++ [{ time := ts, falling := falling, lost := s.time.capLost.getD k.val false, input := k.val }])
    capLost := updAt x.capLost k.val fun _ => false }, ?_, ?_, fun j hj => ?_, ?_, rfl, by simp +decide⟩
  · rw [exec_capInEdge hup hheld hnamed, if_neg (not_le.2 hroom)]
  · simp only [State.modTime_time, at_time, getD_updAt, if_pos (show True ∧ k.val < s.time.capture.length from ⟨trivial, by omega⟩)]
  · simp only [State.modTime_time, at_time, getD_updAt, Ne.symm hj, false_and, if_false, and_self]
  · simp only [State.modTime_time, at_time, getD_updAt, if_pos (show True ∧ k.val < s.time.capLost.length from ⟨trivial, by omega⟩)]

theorem capInEdge_dropped : ∀ ts held (k : Fin 8) falling s, s.up = true → s.parN .timeCapFilter k.val ≤ held → s.time.capLost.length = 8 →
    (s.parN .timeCapEdge k.val = 2 ∨ s.parN .timeCapEdge k.val = (if falling then 1 else 0)) → 8 ≤ (s.time.capture.getD k.val []).length →
    Completes (.capInEdge { at_ := ts, held := held } k falling) s fun t =>
      t.time.capDropped = s.time.capDropped + 1 ∧ t.time.capLost.getD k.val false = true ∧ t.time.capture = s.time.capture ∧
      t.recorder = (State.raise 0x6009 k.val (s.at_ ts)).recorder ∧ keepsBut [.time, .recorder] s t := by
  intro ts held k falling s hup hheld hl hnamed hfull
  refine ⟨((s.at_ ts).modTime fun x => { x with capDropped := x.capDropped + 1, capLost := updAt x.capLost k.val fun _ => true }).raise 0x6009 k.val,
    ?_, rfl, ?_, rfl, rfl, by simp +decide⟩
  · rw [exec_capInEdge hup hheld hnamed, if_pos hfull]
  · simp only [raise_time, State.modTime_time, at_time, getD_updAt, if_pos (show True ∧ k.val < s.time.capLost.length from ⟨trivial, by omega⟩)]

theorem ppsInEdge_before_epoch : ∀ ts held s, s.up = true → 100 ≤ held → (secondOffset ts).natAbs ≤ s.parN .timePpsWindow → s.time.setByEpoch = false →
    Completes (.ppsInEdge { at_ := ts, held := held }) s fun t =>
      t.time = { s.time with now := max s.time.now ts, ppsEdge := some ts, ppsGood := some ts } ∧ keepsBut [.time, .recorder] s t := by
  intro ts held s hup hheld hwin hset
  refine ⟨((s.at_ ts).modTime fun x => { x with ppsEdge := some ts, ppsGood := some ts }).clear 0x6008 0, ?_, by simp, by simp +decide⟩
  rw [exec_ppsInEdge hup hheld, if_pos hwin, hset, if_neg Bool.false_ne_true]

theorem ppsInEdge_sample : ∀ ts held s, s.up = true → 100 ≤ held → (secondOffset ts).natAbs ≤ s.parN .timePpsWindow → s.time.setByEpoch = true →
    s.time.framesOn = true → s.parN .timeSource 0 = 1 →
    Completes (.ppsInEdge { at_ := ts, held := held }) s fun t =>
      t.time.ppsGood = some ts ∧ t.time.src = some 1 ∧ t.time.lastO = some ((secondOffset ts : Int) : Rat) ∧ t.time.holdover = false ∧
      t.time.bound = some (ratAbs ((secondOffset ts : Int) : Rat) + (s.parN .timeErrAsym : Rat), ts) ∧ keepsBut [.time, .recorder] s t := by
  intro ts held s hup hheld hwin hset hon hsrc
  refine ⟨offsetSample 1 (secondOffset ts : Rat) ts (((s.at_ ts).modTime fun x => { x with ppsEdge := some ts, ppsGood := some ts }).clear 0x6008 0), ?_, ?_⟩
  · rw [exec_ppsInEdge hup hheld, if_pos hwin, hset, if_pos rfl]
  generalize hu : ((s.at_ ts).modTime fun x => { x with ppsEdge := some ts, ppsGood := some ts }).clear 0x6008 0 = u
  have hut : u.time = { s.time with now := max s.time.now ts, ppsEdge := some ts, ppsGood := some ts } := by subst hu; simp
  have hkeep : keepsBut [.time, .recorder] s u := by subst hu; simp +decide
  have hpar := parN_of_keepsBut hkeep (by decide)
  have hvalid : sourceValid u 1 ts = true := by simp [sourceValid, hut, hset]
  have hfirst : firstSource u ts = some 1 := by simp [firstSource, hpar, hsrc, hvalid]
  obtain ⟨hsrc', ho, hh, hb, hgood, hk⟩ := offsetSample_used (o := (secondOffset ts : Rat)) hfirst (show u.time.framesOn = true by rw [hut]; exact hon)
  refine ⟨?_, hsrc', ho, hh, ?_, keepsBut_trans hkeep hk⟩
  · rw [hgood, hut]
  · rw [hb, hpar]

theorem ppsInEdge_outside : ∀ ts held s, s.up = true → 100 ≤ held → s.parN .timePpsWindow < (secondOffset ts).natAbs → s.time.src = some 1 →
    Completes (.ppsInEdge { at_ := ts, held := held }) s fun t => t.time = { s.time with now := max s.time.now ts } ∧ t.isRaised 0x6008 0 = true ∧ keepsBut [.time, .recorder] s t := by
  intro ts held s hup hheld hwin hsrc
  refine ⟨(s.at_ ts).stand 0x6008 0 true, ?_, by simp, isRaised_stand_true _ _ _ (by decide), by simp +decide⟩
  rw [exec_ppsInEdge hup hheld, if_neg (not_le.2 hwin), hsrc, if_pos (beq_self_eq_true _)]

/-- Settles O1: by the rule of each input. -/
theorem inputEdges : Obligations.InputEdges :=
  ⟨syncInEdge_kept, edges_not_counted, pulseInEdge_kept, capInEdge_kept, capInEdge_dropped, ppsInEdge_before_epoch, ppsInEdge_sample, ppsInEdge_outside⟩

end Sys2Proof.Machine
end

section
/-!
PROOF. CompareUnits: arming, configured outputs, and the timestamps of frames that leave.
-/
namespace Sys2Proof.Machine

/-! ### Insertion sort keeps its elements -/

theorem mem_insertBy {α : Type} (le : α → α → Bool) {a x : α} (l : List α) : a ∈ insertBy le x l ↔ a = x ∨ a ∈ l := by
  induction l with
  | nil => simp [insertBy]
  | cons y ys ih =>
    unfold insertBy
    split
    · simp
    · simp only [List.mem_cons, ih]
      exact or_left_comm

theorem mem_sortBy {α : Type} (le : α → α → Bool) {a : α} (l : List α) : a ∈ sortBy le l ↔ a ∈ l := by
  induction l with
  | nil => rfl
  | cons x xs ih => simp [sortBy, mem_insertBy, ih]

/-! ### Arming -/

theorem exec_compareArm {t target : Nat} {u : Fin 24} {s : State} (hup : s.up = true) : exec (.compareArm t u target) s =
    if max s.time.now t + 2000000000 < target then .next ((s.at_ t).raise 0x600C u.val)
    else if target ≤ max s.time.now t then
      .next ((driveUnit u.val (max s.time.now t) (((s.at_ t).modTime fun x => { x with
        compare := updAt x.compare u.val fun c => { c with armed := true, c := BitVec.ofNat 32 target, period := unitPeriod s u.val, late := true }
        lateCompares := x.lateCompares + 1 }).modTime fun x => { x with compare := updAt x.compare u.val reloadUnit })).raise 0x600B u.val)
    else .next ((s.at_ t).modTime fun x => { x with
      compare := updAt x.compare u.val fun c => { c with armed := true, c := BitVec.ofNat 32 target, period := unitPeriod s u.val, late := false } }) := by
  show execCompareArm t u target s = _
  refine if_neg ?_
  rw [at_up, hup]
  decide

/-- What a unit drives changes neither the units nor the count of late ones. -/
theorem driveUnit_compare (u t : Nat) (s : State) : (driveUnit u t s).time.compare = s.time.compare ∧ (driveUnit u t s).time.lateCompares = s.time.lateCompares ∧
    (driveUnit u t s).time.now = s.time.now ∧ keepsBut [.time] s (driveUnit u t s) := by
  refine ⟨?_, ?_, ?_, by simp +decide⟩ <;>
  · unfold driveUnit
    split
    · rfl
    · split <;> rfl

/-- The raise of an event by its recorder alone: the state may differ elsewhere. -/
theorem raise_recorder_congr {s t : State} (hr : t.recorder = s.recorder) (hn : t.time.now = s.time.now) (c a : Nat) :
    (State.raise c a t).recorder = (State.raise c a s).recorder := by
  simp only [State.raise, State.modRecorder_recorder, hr, hn]

theorem reloadUnit_late (c : CompareUnit) : (reloadUnit c).late = c.late := by
  unfold reloadUnit
  split <;> rfl

theorem reloadUnit_armed {c : CompareUnit} (h : c.armed = true) : (reloadUnit c).armed = true ↔ c.period ≠ 0 := by
  unfold reloadUnit
  split <;> simp_all

/-! ### A tagged frame of a CAN port -/

theorem foldl_send (f : State → CanTx → Output) (hf : ∀ s e o, f (s.send o) e = f s e) (l : List CanTx) (s : State) :
    (∀ e ∈ l, f s e ∈ (l.foldl (fun s e => s.send (f s e)) s).out) ∧ (∀ o ∈ s.out, o ∈ (l.foldl (fun s e => s.send (f s e)) s).out) ∧
    keepsBut [.out] s (l.foldl (fun s e => s.send (f s e)) s) := by
  induction l generalizing s with
  | nil => exact ⟨by simp, by simp, keepsBut_refl _ _⟩
  | cons e l ih =>
    obtain ⟨hmem, hold, hkeep⟩ := ih (s.send (f s e))
    have hsend : f s e ∈ (s.send (f s e)).out := List.mem_cons_self
    refine ⟨?_, fun o ho => hold o (List.mem_cons_of_mem _ ho), keepsBut_trans (by simp +decide) hkeep⟩
    intro x hx
    rcases List.mem_cons.1 hx with rfl | hx
    · exact hold _ hsend
    · have := hmem x hx
      rwa [hf] at this

/-- The entry that was tagged leaves the queue of its port as a frame, with those that won against it. -/
theorem sentTagged_facts {t port id : Nat} {s : State} (hp : port < s.can.ports.length) :
    (∀ e ∈ (canPort (sentTagged t port id s) port).tx, e.tag ≠ id) ∧
    (∀ e ∈ (canPort s port).tx, e.tag = id → Output.canFrame port (canFormat s port e) e.id e.data ∈ (sentTagged t port id s).out) ∧
    (∀ e ∈ (canPort (sentTagged t port id s) port).tx, e ∈ (canPort s port).tx) ∧
    (∀ j, j ≠ port → canPort (sentTagged t port id s) j = canPort s j) ∧ keepsBut [.can, .out] s (sentTagged t port id s) := by
  unfold sentTagged
  extract_lets q hit gone before
  obtain ⟨hmem, -, hkeep⟩ := foldl_send (fun s e => .canFrame port (canFormat s port e) e.id e.data) (fun _ _ _ => rfl) before s
  generalize before.foldl (fun s e => s.send (.canFrame port (canFormat s port e) e.id e.data)) s = u at *
  have hcan : u.can = s.can := hkeep .can (by decide)
  have hself : (canPort (u.modCan fun c => { c with ports := updAt c.ports port fun p => { p with tx := p.tx.filter fun e => !gone e } }) port).tx = q.filter fun e => !gone e := by
    simp only [canPort, State.modCan_can, hcan, getD_updAt, hp, and_self, if_true]
    rfl
  refine ⟨?_, fun e he htag => ?_, ?_, fun j hj => ?_, ?_⟩
  · intro e he htag
    rw [hself] at he
    simp [gone, htag] at he
  · refine hmem e ((mem_sortBy _ _).2 (List.mem_filter.2 ⟨he, ?_⟩))
    simp [gone, htag]
  · intro e he
    rw [hself] at he
    exact List.mem_of_mem_filter he
  · simp only [canPort, State.modCan_can, hcan, getD_updAt, Ne.symm hj, false_and, if_false]
  · exact keepsBut_trans (keepsBut_mono hkeep (by decide)) (by simp +decide)

theorem takeStamp_frame (id port t : Nat) (s : State) : keepsBut [.time, .recorder] s (takeStamp id port t s).1 := by
  unfold takeStamp
  split <;> simp +decide

theorem compareArm_ahead : ∀ t (u : Fin 24) target s, s.up = true → s.time.compare.length = 24 → max s.time.now t < target → target ≤ max s.time.now t + 2000000000 →
    Completes (.compareArm t u target) s fun r =>
      (r.time.compare.getD u.val {}).armed = true ∧ (r.time.compare.getD u.val {}).c = BitVec.ofNat 32 target ∧ (r.time.compare.getD u.val {}).late = false ∧
      (∀ j, j ≠ u.val → r.time.compare.getD j {} = s.time.compare.getD j {}) ∧
      { r.time with compare := s.time.compare } = { s.time with now := max s.time.now t } ∧ keepsBut [.time] s r := by
  intro t u target s hup hlen hlo hhi
  refine ⟨_, by rw [exec_compareArm hup, if_neg (not_lt.2 hhi), if_neg (not_le.2 hlo)], ?_⟩
  have hu : True ∧ u.val < s.time.compare.length := ⟨trivial, by omega⟩
  simp only [State.modTime_time, at_time, getD_updAt, if_pos hu]
  refine ⟨trivial, trivial, trivial, fun j hj => ?_, trivial, by simp +decide⟩
  rw [if_neg fun h => hj h.1.symm]

theorem compareArm_late : ∀ t (u : Fin 24) target s, s.up = true → s.time.compare.length = 24 → target ≤ max s.time.now t →
    Completes (.compareArm t u target) s fun r =>
      (r.time.compare.getD u.val {}).late = true ∧ r.time.lateCompares = s.time.lateCompares + 1 ∧
      ((r.time.compare.getD u.val {}).armed = true ↔ unitPeriod s u.val ≠ 0) ∧
      (u.val = 7 → s.parB .timePpsOut = true → s.time.synced = true → r.time.ppsOut = some (max s.time.now t + s.parN .timePpsWidth * 1000)) ∧
      (∀ j, j ≠ u.val → r.time.compare.getD j {} = s.time.compare.getD j {}) ∧ r.recorder = (State.raise 0x600B u.val (s.at_ t)).recorder ∧
      keepsBut [.time, .recorder] s r := by
  intro t u target s hup hlen hle
  refine ⟨_, by rw [exec_compareArm hup, if_neg (by omega), if_pos hle], ?_⟩
  generalize hv : ((s.at_ t).modTime fun x => { x with
    compare := updAt x.compare u.val fun c => { c with armed := true, c := BitVec.ofNat 32 target, period := unitPeriod s u.val, late := true }
    lateCompares := x.lateCompares + 1 }).modTime (fun x => { x with compare := updAt x.compare u.val reloadUnit }) = v
  have hu : u.val < s.time.compare.length := by omega
  have hself : v.time.compare.getD u.val {} = reloadUnit { s.time.compare.getD u.val {} with
      armed := true, c := BitVec.ofNat 32 target, period := unitPeriod s u.val, late := true } := by
    subst hv
    simp only [State.modTime_time, at_time, getD_updAt, length_updAt, hu, and_self, if_true]
  have hother : ∀ j, j ≠ u.val → v.time.compare.getD j {} = s.time.compare.getD j {} := by
    intro j hj
    subst hv
    simp only [State.modTime_time, at_time, getD_updAt, Ne.symm hj, false_and, if_false]
  have hcount : v.time.lateCompares = s.time.lateCompares + 1 := by subst hv; rfl
  have hnow : v.time.now = (s.at_ t).time.now := by subst hv; rfl
  have hsync : v.time.synced = s.time.synced := by subst hv; rfl
  have hkeep : keepsBut [.time] (s.at_ t) v := by subst hv; simp +decide
  obtain ⟨hcmp, hlate, hn, hkd⟩ := driveUnit_compare u.val (max s.time.now t) v
  simp only [raise_time, hcmp, hlate, hself, hcount]
  refine ⟨reloadUnit_late _, trivial, reloadUnit_armed rfl, fun h7 hp hs => ?_, hother, ?_, ?_⟩
  · have hpar := parB_of_keepsBut (p := .timePpsOut) (i := 0) (j := 0) hkeep (by decide)
    have hwidth := parN_of_keepsBut (p := .timePpsWidth) (i := 0) (j := 0) hkeep (by decide)
    rw [at_parB, hp] at hpar
    simp only [h7, driveUnit, beq_self_eq_true, if_true, State.modTime_time, hpar, hsync, hs, hwidth, Bool.and_self, at_parN]
  · exact raise_recorder_congr ((hkd .recorder (by decide)).trans (hkeep .recorder (by decide))) (hn.trans hnow) _ _
  · exact keepsBut_trans (keepsBut_trans (t := s.at_ t) (by simp +decide) (keepsBut_mono hkeep (by decide))) (keepsBut_trans (keepsBut_mono hkd (by decide)) (by simp +decide))

theorem compareArm_far : ∀ t (u : Fin 24) target s, s.up = true → max s.time.now t + 2000000000 < target →
    exec (.compareArm t u target) s = .next (State.raise 0x600C u.val (s.at_ t)) := by
  intro t u target s hup hfar
  rw [exec_compareArm hup, if_pos hfar]

theorem configuredOutput_high : ∀ t (k : Fin 8) s, s.up = true → s.time.outs.length = 8 → s.parN .timeOutGpio k.val < 16 → s.parN .timeOutPhase k.val ≤ t →
    (t - s.parN .timeOutPhase k.val) % s.parN .timeOutPeriod k.val = 0 →
    Completes (.configuredOutput t k) s fun r =>
      (∀ u, t ≤ u → outLevel r k.val u = decide (u < t + s.parN .timeOutWidth k.val)) ∧ (∀ j u, j ≠ k.val → outLevel r j u = outLevel s j u) ∧
      keepsBut [.time] s r := by
  intro t k s hup hlen hgpio hphase hdue
  have hfire : keepsBut [.time] s (fireUnit (16 + k.val) (s.at_ t)) := by simp +decide
  have hpar := parN_of_keepsBut hfire (by decide)
  have houts : (fireUnit (16 + k.val) (s.at_ t)).time.outs = s.time.outs := by
    obtain ⟨units, h⟩ := fireUnit_eq_modTime_compare (16 + k.val) (s.at_ t)
    rw [h]
    rfl
  have hup' : (fireUnit (16 + k.val) (s.at_ t)).up = true := by rw [fireUnit_up, at_up, hup]
  have hexec : exec (.configuredOutput t k) s = execConfiguredOutput t k s := rfl
  rw [Completes, hexec, execConfiguredOutput]
  generalize fireUnit (16 + k.val) (s.at_ t) = v at *
  have hmod : (t + v.parN .timeOutPeriod k.val - v.parN .timeOutPhase k.val) % v.parN .timeOutPeriod k.val = 0 := by
    rw [hpar, hpar, Nat.sub_add_comm hphase, Nat.add_mod_right]
    exact hdue
  have hunit : 16 + k.val - 16 = k.val := by omega
  have hne : (16 + k.val == 7) = false := by simp; omega
  have hdrive : driveUnit (16 + k.val) t v = v.modTime fun x => { x with outs := updAt x.outs k.val fun _ => some (t + v.parN .timeOutWidth k.val) } := by
    rw [driveUnit, if_neg (by rw [hne]; decide), if_pos (by rw [hunit, hpar]; simp [hgpio]), hunit]
  refine ⟨_, by rw [if_pos (by rw [hup', hpar]; simp [hgpio, hmod])], fun u hu => ?_, fun j u hj => ?_, ?_⟩
  · rw [hdrive]
    simp only [outLevel, State.modTime_time, houts, getD_updAt, if_pos (show True ∧ k.val < s.time.outs.length from ⟨trivial, by omega⟩), hpar]
  · rw [hdrive]
    simp only [outLevel, State.modTime_time, houts, getD_updAt, Ne.symm hj, false_and, if_false]
  · rw [hdrive]
    exact keepsBut_trans hfire (by simp +decide)

theorem exec_transmitTimestamp_eth {t id : Nat} {port : Fin 4} {s : State} (hup : s.up = true) (hp : port.val < 2) :
    exec (.transmitTimestamp t id port) s = .next (takeStamp id port.val (t + s.parN .timeEthLatTx port.val) (s.at_ t)).1 := by
  have h2 : decide (2 ≤ port.val) = false := by simpa using hp
  show execTransmitTimestamp t id port s = _
  simp only [execTransmitTimestamp, h2, Bool.false_and, Bool.false_eq_true, if_false, at_up, hup, if_true, if_pos hp, at_parN]

theorem transmitTimestamp_taken : ∀ t id (port : Fin 4) s, s.up = true → port.val < 2 → s.time.txStamps.length < 16 →
    Completes (.transmitTimestamp t id port) s fun r =>
      r.time.txStamps = s.time.txStamps ++ [{ id := id, port := port.val, seq := (s.time.txSeq + 1) % 2 ^ 32, time := t + s.parN .timeEthLatTx port.val }] ∧
      r.time.txSeq = (s.time.txSeq + 1) % 2 ^ 32 ∧ keepsBut [.time] s r := by
  intro t id port s hup hp hroom
  refine ⟨_, exec_transmitTimestamp_eth hup hp, ?_⟩
  rw [takeStamp, if_neg (by simpa using hroom)]
  exact ⟨rfl, rfl, by simp +decide⟩

theorem transmitTimestamp_dropped : ∀ t id (port : Fin 4) s, s.up = true → port.val < 2 → 16 ≤ s.time.txStamps.length →
    Completes (.transmitTimestamp t id port) s fun r =>
      r.time.txStamps = s.time.txStamps ∧ r.time.txSeq = (s.time.txSeq + 1) % 2 ^ 32 ∧ r.time.txDropped = (s.time.txDropped + 1) % 2 ^ 32 ∧
      r.recorder = (State.raise 0x600A 0 (s.at_ t)).recorder ∧ keepsBut [.time, .recorder] s r := by
  intro t id port s hup hp hfull
  refine ⟨_, exec_transmitTimestamp_eth hup hp, ?_⟩
  rw [takeStamp, if_pos (by simpa using hfull)]
  exact ⟨rfl, rfl, rfl, rfl, by simp +decide⟩

theorem transmitTimestamp_can : ∀ t id (port : Fin 4) s, s.up = true → 2 ≤ port.val → 0x8000 ≤ id → s.can.ports.length = 2 →
    Completes (.transmitTimestamp t id port) s fun r =>
      (∀ e ∈ (r.can.ports.getD (port.val - 2) {}).tx, e.tag ≠ id) ∧
      (∀ e ∈ (s.can.ports.getD (port.val - 2) {}).tx, e.tag = id → Output.canFrame (port.val - 2) (canFormat s (port.val - 2) e) e.id e.data ∈ r.out) ∧
      (∀ e ∈ (r.can.ports.getD (port.val - 2) {}).tx, e ∈ (s.can.ports.getD (port.val - 2) {}).tx) ∧
      (∀ j, j ≠ port.val - 2 → r.can.ports.getD j {} = s.can.ports.getD j {}) ∧ keepsBut [.time, .recorder, .can, .out] s r := by
  intro t id port s hup hp hid hlen
  obtain ⟨htag, hout, hsub, hother, hkeep⟩ := sentTagged_facts (t := t) (port := port.val - 2) (id := id) (s := s.at_ t) (show _ < s.can.ports.length by omega)
  have hk := takeStamp_frame id port.val (if port.val < 2 then t + (sentTagged t (port.val - 2) id (s.at_ t)).parN .timeEthLatTx port.val else t)
    (sentTagged t (port.val - 2) id (s.at_ t))
  refine ⟨(takeStamp id port.val (if port.val < 2 then t + (sentTagged t (port.val - 2) id (s.at_ t)).parN .timeEthLatTx port.val else t)
    (sentTagged t (port.val - 2) id (s.at_ t))).1, ?_, ?_⟩
  · show execTransmitTimestamp t id port s = _
    have hup' : (sentTagged t (port.val - 2) id (s.at_ t)).up = true := by
      have hboot : (sentTagged t (port.val - 2) id (s.at_ t)).boot = s.boot := hkeep .boot (by decide)
      simpa only [State.up, hboot] using hup
    have htagged : (decide (2 ≤ port.val) && decide (0x8000 ≤ id)) = true := by simp [hp, hid]
    simp only [execTransmitTimestamp, htagged, if_true, hup']
  · have hcan := hk .can (by decide)
    have hout' := hk .out (by decide)
    simp only [canPort] at htag hout hsub hother
    refine ⟨?_, ?_, ?_, ?_, ?_⟩
    · rw [hcan]
      exact htag
    · rw [hout']
      exact hout
    · rw [hcan]
      exact hsub
    · rw [hcan]
      exact hother
    · exact keepsBut_trans (t := s.at_ t) (by simp +decide) (keepsBut_trans (keepsBut_mono hkeep (by decide)) (keepsBut_mono hk (by decide)))

/-- Settles O2: by the rule of each command. -/
theorem compareUnits : Obligations.CompareUnits :=
  ⟨compareArm_ahead, compareArm_late, compareArm_far, configuredOutput_high, transmitTimestamp_taken, transmitTimestamp_dropped, transmitTimestamp_can⟩

end Sys2Proof.Machine
end

section
/-!
PROOF. PtpMessages: the selection of a master, and what each message heard or sent does.
-/
namespace Sys2Proof.Machine

/-! ### The selection of a master -/

@[simp] theorem selectMaster_masters (t : Nat) (s : State) : (selectMaster t s).time.masters = s.time.masters.filter fun m => decide (t < m.last + 3000000000) := rfl
@[simp] theorem selectMaster_peer (t : Nat) (s : State) : (selectMaster t s).time.peer = s.time.peer := rfl
@[simp] theorem selectMaster_txStamps (t : Nat) (s : State) : (selectMaster t s).time.txStamps = s.time.txStamps := rfl
@[simp] theorem selectMaster_freq (t : Nat) (s : State) : (selectMaster t s).time.freq = s.time.freq := rfl
@[simp] theorem selectMaster_recorder (t : Nat) (s : State) : (selectMaster t s).recorder = s.recorder := rfl

theorem foldl_best_mem (better : PtpMaster → PtpMaster → Bool) (l : List PtpMaster) (b : Option PtpMaster) {m : PtpMaster}
    (h : l.foldl (fun (b : Option PtpMaster) m => match b with | none => some m | some c => if better m c then some m else some c) b = some m) :
    m ∈ l ∨ b = some m := by
  induction l generalizing b with
  | nil => exact .inr h
  | cons a l ih =>
    rcases ih _ h with hm | hm
    · exact .inl (List.mem_cons_of_mem _ hm)
    · cases b with
      | none => exact .inl (by cases hm; exact List.mem_cons_self)
      | some c =>
        dsimp only at hm
        split at hm
        · exact .inl (by cases hm; exact List.mem_cons_self)
        · exact .inr hm

/-- A selected master is one of those still heard. -/
theorem selectMaster_gm {t g : Nat} {s : State} (h : (selectMaster t s).time.gm = some g) : ∃ m ∈ s.time.masters, m.gm = g := by
  unfold selectMaster at h
  extract_lets live best gm at h
  have hgm : gm = some g := h
  cases hbest : best with
  | none => simp [gm, hbest] at hgm
  | some m =>
    simp only [gm, hbest] at hgm
    split at hgm
    · cases hgm
    · cases hgm
      rcases foldl_best_mem (fun a b => rankBetter a.rank b.rank) _ _ hbest with hm | hm
      · exact ⟨m, List.mem_of_mem_filter (List.mem_of_mem_filter hm), rfl⟩
      · cases hm

/-! ### The record of an event that is raised -/

theorem recordRaise_newest {only : Bool} {code arg t : Nat} {r : RecState} (h : evClass code - 1 < r.rings.length) :
    ∃ e ∈ (recordRaise only code arg t r).1.rings.getD (evClass code - 1) [], e.code = code ∧ e.arg = arg := by
  unfold recordRaise
  dsimp only
  split
  next e es hring =>
    split
    next heq =>
      simp only [Bool.and_eq_true, beq_iff_eq] at heq
      simp only [getD_updAt, h, and_self, if_true]
      exact ⟨_, List.mem_cons_self, heq⟩
    next =>
      simp only [getD_updAt, h, and_self, if_true, hring, List.take_succ_cons]
      exact ⟨_, List.mem_cons_self, rfl, rfl⟩
  next =>
    simp only [getD_updAt, h, and_self, if_true]
    exact ⟨_, List.mem_cons_self, rfl, rfl⟩

theorem recordRaise_other_ring {only : Bool} {code arg t j : Nat} {r : RecState} (h : evClass code - 1 ≠ j) :
    (recordRaise only code arg t r).1.rings.getD j [] = r.rings.getD j [] := by
  unfold recordRaise
  dsimp only
  split
  · split <;> simp only [getD_updAt, h, false_and, if_false]
  · simp only [getD_updAt, h, false_and, if_false]

/-- A raise leaves a record of its event in the ring of its class, which an overwrite's own event does not enter unless it is of class 8. -/
theorem raise_record_mem {code arg : Nat} {s : State} (h : evClass code - 1 < s.recorder.rings.length) (h8 : evClass code - 1 ≠ 7) :
    ∃ e ∈ (State.raise code arg s).recorder.rings.getD (evClass code - 1) [], e.code = code ∧ e.arg = arg := by
  have hover : ∀ r, (recordRaise false 0x8043 0 s.time.now r).1.rings.getD (evClass code - 1) [] = r.rings.getD (evClass code - 1) [] :=
    fun r => recordRaise_other_ring fun hj => h8 (hj.symm.trans (by decide))
  have hring : (State.raise code arg s).recorder.rings.getD (evClass code - 1) [] =
      (recordRaise (recordedOnly.contains code) code arg s.time.now s.recorder).1.rings.getD (evClass code - 1) [] := by
    simp only [State.raise, State.modRecorder_recorder, raiseRec]
    split
    · rw [markRaised_rings]
      split
      · rw [hover, hover, markRaised_rings]
      · rw [hover, markRaised_rings]
    · rw [markRaised_rings]
  rw [hring]
  exact recordRaise_newest h

/-! ### What leaves as PTP -/

theorem syncOnPort_facts (seq p leave : Nat) (s : State) : (∀ o ∈ s.out, o ∈ (syncOnPort seq (p, leave) s).out) ∧
    (ptpOn s p = true → Output.ptp 0 p seq (toWire s.time.now) ∈ (syncOnPort seq (p, leave) s).out ∧ Output.announce p seq (ownRank s) 0xA0 ∈ (syncOnPort seq (p, leave) s).out) ∧
    (syncOnPort seq (p, leave) s).time.ptpSeq = s.time.ptpSeq ∧ (syncOnPort seq (p, leave) s).time.now = s.time.now ∧
    keepsBut [.time, .recorder, .out] s (syncOnPort seq (p, leave) s) := by
  unfold syncOnPort
  split
  next hon =>
    extract_lets stamp s1 r s2
    have hr : r.1.out = s1.out ∧ r.1.time.ptpSeq = s1.time.ptpSeq ∧ r.1.time.now = s1.time.now := by
      simp only [r, takeStamp]
      split <;> exact ⟨rfl, rfl, rfl⟩
    have hs2 : (∀ o ∈ s1.out, o ∈ s2.out) ∧ s2.time.ptpSeq = s1.time.ptpSeq ∧ s2.time.now = s1.time.now := by
      obtain ⟨hout, hseq, hnow⟩ := hr
      simp only [s2]
      split
      · exact ⟨fun o ho => by rwa [hout], hseq, hnow⟩
      · exact ⟨fun o ho => List.mem_cons_of_mem _ (show o ∈ r.1.out by rwa [hout]), hseq, hnow⟩
    obtain ⟨hmem, hseq, hnow⟩ := hs2
    have hfirst : Output.ptp 0 p seq (toWire s.time.now) ∈ s1.out := List.mem_cons_self
    refine ⟨fun o ho => List.mem_cons_of_mem _ (hmem o (List.mem_cons_of_mem _ ho)), fun _ => ⟨List.mem_cons_of_mem _ (hmem _ hfirst), List.mem_cons_self⟩, hseq, hnow, ?_⟩
    have hrk := takeStamp_frame (0x4000 + seq % 0x4000) p stamp s1
    have h1 : keepsBut [.time, .recorder, .out] s s1 := by simp +decide [s1]
    have h2 : keepsBut [.time, .recorder, .out] s r.1 := keepsBut_trans h1 (keepsBut_mono hrk (by decide))
    simp only [s2]
    split
    · exact keepsBut_trans h2 (by simp +decide)
    · exact keepsBut_trans h2 (by simp +decide)
  next hoff => exact ⟨fun o ho => ho, fun h => absurd h hoff, rfl, rfl, keepsBut_refl _ _⟩

theorem ptpOn_of_keepsBut {ps : List Piece} {s t : State} (h : keepsBut ps s t) (hb : Piece.boot ∉ ps) (p : Nat) : ptpOn t p = ptpOn s p := by
  have hboot : t.boot = s.boot := h .boot hb
  simp only [ptpOn, parN_of_keepsBut h hb, hboot]

theorem ownRank_of_keepsBut {ps : List Piece} {s t : State} (h : keepsBut ps s t) (hb : Piece.boot ∉ ps) : ownRank t = ownRank s := by
  have hboot : t.boot = s.boot := h .boot hb
  simp only [ownRank, parN_of_keepsBut h hb, hboot]

/-- The request of one port, when PTP is on there. -/
def requestOn (t seq p : Nat) (s : State) : State :=
  if ptpOn s p then (s.modTime fun x => { x with pdelayOut := updAt x.pdelayOut p fun _ => some seq }).send (.ptp 3 p seq (toWire t)) else s

theorem requestOn_frame (t seq p : Nat) (s : State) : keepsBut [.time, .out] s (requestOn t seq p s) := by
  unfold requestOn
  split <;> simp +decide

theorem requestOn_facts (t seq p : Nat) (s : State) : (requestOn t seq p s).time.ptpSeq = s.time.ptpSeq ∧
    (requestOn t seq p s).time.pdelayOut.length = s.time.pdelayOut.length ∧ (∀ o ∈ s.out, o ∈ (requestOn t seq p s).out) ∧
    (∀ j, j ≠ p → (requestOn t seq p s).time.pdelayOut.getD j none = s.time.pdelayOut.getD j none) ∧
    (ptpOn s p = false → (requestOn t seq p s).time.pdelayOut = s.time.pdelayOut) ∧
    (ptpOn s p = true → p < s.time.pdelayOut.length →
      (requestOn t seq p s).time.pdelayOut.getD p none = some seq ∧ Output.ptp 3 p seq (toWire t) ∈ (requestOn t seq p s).out) := by
  unfold requestOn
  split
  next hon =>
    refine ⟨rfl, length_updAt _ _ _, fun o ho => List.mem_cons_of_mem _ ho, fun j hj => ?_, fun h => absurd hon (by rw [h]; decide), fun _ hp => ⟨?_, List.mem_cons_self⟩⟩
    · exact (getD_updAt _ _ _ _ _).trans (if_neg fun h => hj h.1.symm)
    · exact (getD_updAt _ _ _ _ _).trans (if_pos ⟨rfl, hp⟩)
  next hoff => exact ⟨rfl, rfl, fun _ ho => ho, fun _ _ => rfl, fun _ => rfl, fun h => absurd h hoff⟩

theorem ptpAnnounce_enters : ∀ ts (port : Fin 2) gm rank utc s, s.up = true → ptpOn s port.val = true →
    Completes (.ptpAnnounce ts port gm rank (s.parN .timePtpDomain) true utc) s fun t =>
      (∃ m ∈ t.time.masters, m.gm = gm ∧ m.last = ts ∧ m.rank = rank ∧ m.utc = utc ∧ ((∀ x ∈ s.time.masters, x.announces.length = 2) → 1 ≤ m.announces.getD port.val 0)) ∧ keepsBut [.time] s t := by
  intro ts port gm rank utc s hup hon
  have hgo : (!(s.at_ ts).up || s.parN .timePtpDomain != (s.at_ ts).parN .timePtpDomain || !ptpOn (s.at_ ts) port.val) = false := by
    rw [at_up, hup, at_parN, show ptpOn (s.at_ ts) port.val = true from hon, bne_self_eq_false]
    rfl
  have hexec : exec (.ptpAnnounce ts port gm rank (s.parN .timePtpDomain) true utc) s = execPtpAnnounce ts port gm rank (s.parN .timePtpDomain) true utc s := rfl
  rw [Completes, hexec]
  unfold execPtpAnnounce
  extract_lets s' old before kept m
  rw [if_neg (by rw [hgo]; decide), if_neg (by decide)]
  have hgm : m.gm = gm := by
    show old.gm = gm
    cases hfind : s'.time.masters.find? (·.gm == gm) with
    | none => simp only [old, hfind, Option.getD_none]
    | some x =>
      simp only [old, hfind, Option.getD_some]
      simpa using List.find?_some hfind
  refine ⟨_, rfl, ⟨m, ?_, hgm, rfl, rfl, rfl, fun hall => ?_⟩, by simp +decide [s']⟩
  · rw [selectMaster_masters]
    refine List.mem_filter.2 ⟨List.mem_cons_self, decide_eq_true ?_⟩
    show ts < ts + 3000000000
    omega
  · have hlen : old.announces.length = 2 := by
      cases hfind : s'.time.masters.find? (·.gm == gm) with
      | none => simp only [old, hfind, Option.getD_none]; rfl
      | some x =>
        simp only [old, hfind, Option.getD_some]
        exact hall x (List.mem_of_find?_eq_some hfind)
    show 1 ≤ (updAt old.announces port.val _).getD port.val 0
    have hport : port.val < old.announces.length := by omega
    rw [getD_updAt, if_pos ⟨rfl, hport⟩]
    split
    · exact Nat.le_add_left 1 _
    · exact le_refl 1

theorem ptpAnnounce_arb : ∀ ts (port : Fin 2) gm rank utc s, s.up = true → ptpOn s port.val = true →
    Completes (.ptpAnnounce ts port gm rank (s.parN .timePtpDomain) false utc) s fun t =>
      (∀ m ∈ t.time.masters, m.gm ≠ gm) ∧ t.time.gm ≠ some gm ∧ (5 < s.recorder.rings.length → ∃ e ∈ t.recorder.rings.getD 5 [], e.code = 0x6006 ∧ e.arg = 0) ∧ keepsBut [.time, .recorder] s t := by
  intro ts port gm rank utc s hup hon
  have hgo : (!(s.at_ ts).up || s.parN .timePtpDomain != (s.at_ ts).parN .timePtpDomain || !ptpOn (s.at_ ts) port.val) = false := by
    rw [at_up, hup, at_parN, show ptpOn (s.at_ ts) port.val = true from hon, bne_self_eq_false]
    rfl
  have hfilter : ∀ m ∈ s.time.masters.filter (·.gm != gm), m.gm ≠ gm := fun m hm => bne_iff_ne.1 (List.mem_filter.1 hm).2
  refine ⟨selectMaster ts (((s.at_ ts).modTime fun x => { x with masters := x.masters.filter (·.gm != gm) }).raise 0x6006 0), ?_, fun m hm => ?_, fun hg => ?_, fun h5 => ?_, by simp +decide⟩
  · show execPtpAnnounce ts port gm rank (s.parN .timePtpDomain) false utc s = _
    rw [execPtpAnnounce, if_neg (by rw [hgo]; decide), if_pos (by decide)]
  · exact hfilter m (List.mem_of_mem_filter hm)
  · obtain ⟨m, hm, hmg⟩ := selectMaster_gm hg
    exact hfilter m hm hmg
  · exact raise_record_mem (code := 0x6006) (s := (s.at_ ts).modTime fun x => { x with masters := x.masters.filter (·.gm != gm) }) h5 (by decide)

theorem ptpSync_sample : ∀ ts (port : Fin 2) gm sec nanos corr d dt s, s.up = true → nanos < 1000000000 → s.time.gm = some gm →
    slavePort (s.at_ ts).time ts = some port.val → s.time.peer.getD port.val none = some (d, dt) → ts < dt + 3000000000 →
    exec (.ptpSync ts port gm ⟨sec, nanos⟩ corr) s = .next (offsetSample 0
      (((ts + s.parN .timeEthLatRx port.val : Nat) : Rat) - (((sec * 1000000000 + nanos : Nat) : Rat) + (corr : Rat) / 65536 + d)) ts
      ((s.at_ ts).modTime fun x => { x with lastSync := some ts })) := by
  intro ts port gm sec nanos corr d dt s hup hn hgm hport hpeer hvalid
  have hpv : peerValid (s.at_ ts).time port.val ts = true := by
    rw [peerValid, show (s.at_ ts).time.peer = s.time.peer from rfl, hpeer]
    exact decide_eq_true hvalid
  have hwire : wireNs ⟨sec, nanos⟩ = some (sec * 1000000000 + nanos) := if_pos hn
  have hpeer' : (s.at_ ts).time.peer.getD port.val none = some (d, dt) := hpeer
  have hgm' : (s.at_ ts).time.gm = some gm := hgm
  show execPtpSync ts port gm ⟨sec, nanos⟩ corr s = _
  simp only [execPtpSync, hwire, hpeer', at_up, hup, hgm', hport, hpv, beq_self_eq_true, Bool.and_self, if_true, at_parN]

theorem ptpPdelay_delay : ∀ t4 (port : Fin 2) seq t1 s2 n2 s3 n3 s, s.up = true → s.time.pdelayOut.getD port.val none = some seq → s.time.peer.length = 2 →
    n2 < 1000000000 → n3 < 1000000000 →
    (s.time.txStamps.find? fun e => e.id == seq % 0x4000 && e.port == port.val) = some t1 →
    Completes (.ptpPdelay t4 port seq ⟨s2, n2⟩ ⟨s3, n3⟩) s fun t =>
      t.time.peer.getD port.val none = some (((((t4 + s.parN .timeEthLatRx port.val : Nat) : Rat) - (t1.time : Rat)) -
        (((s3 * 1000000000 + n3 : Nat) : Rat) - ((s2 * 1000000000 + n2 : Nat) : Rat))) / 2, t4) ∧
      (∀ e ∈ t.time.txStamps, ¬(e.id = seq % 0x4000 ∧ e.port = port.val)) ∧ keepsBut [.time, .recorder] s t := by
  intro t4 port seq t1 s2 n2 s3 n3 s hup hout hlen h2 h3 hfind
  have hgo : (!(s.at_ t4).up || (s.at_ t4).time.pdelayOut.getD port.val none != some seq) = false := by
    rw [at_up, hup, show (s.at_ t4).time.pdelayOut = s.time.pdelayOut from rfl, hout, bne_self_eq_false]
    rfl
  have hw2 : wireNs ⟨s2, n2⟩ = some (s2 * 1000000000 + n2) := if_pos h2
  have hw3 : wireNs ⟨s3, n3⟩ = some (s3 * 1000000000 + n3) := if_pos h3
  have hfind' : ((s.at_ t4).time.txStamps.find? fun e => e.id == seq % 0x4000 && e.port == port.val) = some t1 := hfind
  have hexec : exec (.ptpPdelay t4 port seq ⟨s2, n2⟩ ⟨s3, n3⟩) s = execPtpPdelay t4 port seq ⟨s2, n2⟩ ⟨s3, n3⟩ s := rfl
  rw [Completes, hexec, execPtpPdelay, if_neg (by rw [hgo]; decide)]
  simp only [hfind', hw2, hw3]
  refine ⟨_, rfl, ?_, fun e he => ?_, by simp +decide⟩
  · simp only [peerChange, selectMaster_peer, stand_time, State.modTime_time, at_time, getD_updAt, if_pos (show True ∧ port.val < s.time.peer.length from ⟨trivial, by omega⟩), at_parN]
  · simp only [peerChange, selectMaster_txStamps, stand_time, State.modTime_time, at_time, List.mem_filter] at he
    have hne : ¬(e.id = seq % 0x4000 ∧ e.port = port.val) := not_and_or.2 (by simpa using he.2)
    exact hne

theorem ptpSyncSend_sends : ∀ t leaveA leaveB s, s.up = true → ptpMaster s = true → s.time.ptpSeq.length = 3 →
    Completes (.ptpSyncSend t leaveA leaveB) s fun r =>
      (∀ p, p < 2 → ptpOn s p = true → Output.ptp 0 p (s.time.ptpSeq.getD 0 0) (toWire (max s.time.now t)) ∈ r.out ∧ Output.announce p (s.time.ptpSeq.getD 0 0) (ownRank s) 0xA0 ∈ r.out) ∧
      r.time.ptpSeq.getD 0 0 = (s.time.ptpSeq.getD 0 0 + 1) % 0x10000 ∧ keepsBut [.time, .recorder, .out] s r := by
  intro t leaveA leaveB s hup hmaster hlen
  generalize hs1 : ((s.at_ t).modTime fun x => { x with ptpSeq := updAt x.ptpSeq 0 fun v => (v + 1) % 0x10000 }) = s1
  have hk1 : keepsBut [.time] s s1 := by subst hs1; simp +decide
  have hnow : s1.time.now = max s.time.now t := by subst hs1; rfl
  have hseq : s1.time.ptpSeq.getD 0 0 = (s.time.ptpSeq.getD 0 0 + 1) % 0x10000 := by
    subst hs1
    exact (getD_updAt _ _ _ _ _).trans (if_pos ⟨rfl, by show 0 < s.time.ptpSeq.length; omega⟩)
  obtain ⟨-, hA, hseqA, hnowA, hkA⟩ := syncOnPort_facts (s.time.ptpSeq.getD 0 0) 0 leaveA s1
  obtain ⟨hold, hB, hseqB, -, hkB⟩ := syncOnPort_facts (s.time.ptpSeq.getD 0 0) 1 leaveB (syncOnPort (s.time.ptpSeq.getD 0 0) (0, leaveA) s1)
  refine ⟨syncOnPort (s.time.ptpSeq.getD 0 0) (1, leaveB) (syncOnPort (s.time.ptpSeq.getD 0 0) (0, leaveA) s1), ?_, fun p hp hon => ?_, ?_, ?_⟩
  · show execPtpSyncSend t leaveA leaveB s = _
    have hm : ptpMaster (s.at_ t) = true := hmaster
    rw [execPtpSyncSend, if_pos (by rw [at_up, hup, hm]; rfl), ← hs1]
    rfl
  · obtain rfl | rfl : p = 0 ∨ p = 1 := by omega
    · obtain ⟨h1, h2⟩ := hA (by rw [ptpOn_of_keepsBut hk1 (by decide)]; exact hon)
      rw [hnow] at h1
      rw [ownRank_of_keepsBut hk1 (by decide)] at h2
      exact ⟨hold _ h1, hold _ h2⟩
    · obtain ⟨h1, h2⟩ := hB (by rw [ptpOn_of_keepsBut hkA (by decide), ptpOn_of_keepsBut hk1 (by decide)]; exact hon)
      rw [hnowA, hnow] at h1
      rw [ownRank_of_keepsBut hkA (by decide), ownRank_of_keepsBut hk1 (by decide)] at h2
      exact ⟨h1, h2⟩
  · rw [hseqB, hseqA, hseq]
  · exact keepsBut_trans (keepsBut_mono hk1 (by decide)) (keepsBut_trans hkA hkB)

theorem pdelayReqSend_sends : ∀ t s, s.up = true → s.time.ptpSeq.length = 3 → s.time.pdelayOut.length = 2 →
    Completes (.pdelayReqSend t) s fun r =>
      (∀ p, p < 2 → ptpOn s p = true → r.time.pdelayOut.getD p none = some (s.time.ptpSeq.getD 2 0) ∧ Output.ptp 3 p (s.time.ptpSeq.getD 2 0) (toWire t) ∈ r.out) ∧
      (∀ p, p < 2 → ptpOn s p = false → r.time.pdelayOut.getD p none = s.time.pdelayOut.getD p none) ∧
      r.time.ptpSeq.getD 2 0 = (s.time.ptpSeq.getD 2 0 + 1) % 0x10000 ∧ keepsBut [.time, .out] s r := by
  intro t s hup hlen hout
  generalize hs1 : ((s.at_ t).modTime fun x => { x with ptpSeq := updAt x.ptpSeq 2 fun v => (v + 1) % 0x10000 }) = s1
  have hk1 : keepsBut [.time] s s1 := by subst hs1; simp +decide
  have hseq : s1.time.ptpSeq.getD 2 0 = (s.time.ptpSeq.getD 2 0 + 1) % 0x10000 := by
    subst hs1
    exact (getD_updAt _ _ _ _ _).trans (if_pos ⟨rfl, by show 2 < s.time.ptpSeq.length; omega⟩)
  have hpd : s1.time.pdelayOut = s.time.pdelayOut := by subst hs1; rfl
  obtain ⟨hseqA, hlenA, -, hotherA, hoffA, honA⟩ := requestOn_facts t (s.time.ptpSeq.getD 2 0) 0 s1
  have hkA := requestOn_frame t (s.time.ptpSeq.getD 2 0) 0 s1
  obtain ⟨hseqB, -, holdB, hotherB, hoffB, honB⟩ := requestOn_facts t (s.time.ptpSeq.getD 2 0) 1 (requestOn t (s.time.ptpSeq.getD 2 0) 0 s1)
  have hkB := requestOn_frame t (s.time.ptpSeq.getD 2 0) 1 (requestOn t (s.time.ptpSeq.getD 2 0) 0 s1)
  have hon1 := ptpOn_of_keepsBut hk1 (by decide)
  have honA' := ptpOn_of_keepsBut hkA (by decide)
  refine ⟨requestOn t (s.time.ptpSeq.getD 2 0) 1 (requestOn t (s.time.ptpSeq.getD 2 0) 0 s1), ?_, fun p hp hon => ?_, fun p hp hoff => ?_, ?_, ?_⟩
  · show execPdelayReqSend t s = _
    rw [execPdelayReqSend, if_pos (by rw [at_up, hup]), ← hs1]
    rfl
  · obtain rfl | rfl : p = 0 ∨ p = 1 := by omega
    · obtain ⟨h1, h2⟩ := honA (by rw [hon1]; exact hon) (by rw [hpd]; omega)
      exact ⟨(hotherB 0 (by decide)).trans h1, holdB _ h2⟩
    · exact honB (by rw [honA', hon1]; exact hon) (by rw [hlenA, hpd]; omega)
  · obtain rfl | rfl : p = 0 ∨ p = 1 := by omega
    · rw [hotherB 0 (by decide), hoffA (by rw [hon1]; exact hoff), hpd]
    · rw [hoffB (by rw [honA', hon1]; exact hoff), hotherA 1 (by decide), hpd]
  · rw [hseqB, hseqA, hseq]
  · exact keepsBut_trans (keepsBut_mono hk1 (by decide)) (keepsBut_trans hkA hkB)

/-- Settles O5: by the rule of each message. -/
theorem ptpMessages : Obligations.PtpMessages :=
  ⟨ptpAnnounce_enters, ptpAnnounce_arb, ptpSync_sample, ptpPdelay_delay, ptpSyncSend_sends, pdelayReqSend_sends⟩

end Sys2Proof.Machine
end

section
/-!
PROOF. TimeDeadlines: peer delays, masters, the bound and SYNC_IN at their deadlines.
-/
namespace Sys2Proof.Machine

/-- No source is valid when the three of them are none. -/
theorem firstSource_none {s : State} (h : ∀ k, k < 3 → s.parN .timeSource k = 255) (t : Nat) : firstSource s t = none := by
  simp [firstSource, h 0 (by decide), h 1 (by decide), h 2 (by decide), sourceValid]

@[simp] theorem judgeHoldover_masters (t : Nat) (s : State) : (judgeHoldover t s).time.masters = s.time.masters := by
  unfold judgeHoldover
  split
  · rfl
  · rw [stand_time]
    rfl

@[simp] theorem judgeHoldover_peer (t : Nat) (s : State) : (judgeHoldover t s).time.peer = s.time.peer := by
  unfold judgeHoldover
  split
  · rfl
  · rw [stand_time]
    rfl

/-- The state of a module whose clock has lost its last source (R368). -/
theorem judgeHoldover_of_none {t : Nat} {s : State} (h : firstSource s t = none) :
    (judgeHoldover t s).time.holdover = true ∧ (judgeHoldover t s).time.src = none ∧ (judgeHoldover t s).time.rTarget = s.time.freq ∧
    (judgeHoldover t s).isRaised 0x6001 0 = true := by
  unfold judgeHoldover
  rw [h]
  refine ⟨?_, ?_, ?_, isRaised_stand_true _ _ _ (by decide)⟩
  all_goals
    rw [stand_time]
    rfl

/-- What R369 asks of the time error bound. -/
def boundHolds (s : State) (t : Nat) : Bool := match boundAt s t with | some b => decide (b ≤ (s.parN .timeSyncLimit : Rat)) | none => false

theorem boundHolds_iff (s : State) (t : Nat) : boundHolds s t = true ↔ ∃ b, boundAt s t = some b ∧ b ≤ (s.parN .timeSyncLimit : Rat) := by
  unfold boundHolds
  cases boundAt s t <;> simp

theorem judgeSync_eq (t : Nat) (s : State) : judgeSync t s =
    (s.modTime fun x => { x with synced := boundHolds s t, ppsOut := if boundHolds s t then x.ppsOut else none }).stand 0x6003 0 (!boundHolds s t) := rfl

theorem peerDelayExpiry_due : ∀ t (p : Fin 2) d dt s, s.up = true → s.time.peer.length = 2 → s.time.peer.getD p.val none = some (d, dt) → dt + 3000000000 ≤ t →
    Completes (.peerDelayExpiry t p) s fun r => r.time.peer.getD p.val none = none ∧ (∀ j, j ≠ p.val → r.time.peer.getD j none = s.time.peer.getD j none) ∧
      keepsBut [.time, .recorder] s r := by
  intro t p d dt s hup hlen hpeer hdue
  have hpeer' : (s.at_ t).time.peer.getD p.val none = some (d, dt) := hpeer
  have hinv : peerValid (s.at_ t).time p.val t = false := by
    rw [peerValid, hpeer']
    exact decide_eq_false (by omega)
  have hexec : exec (.peerDelayExpiry t p) s = execPeerDelayExpiry t p s := rfl
  rw [Completes, hexec, execPeerDelayExpiry, hpeer']
  dsimp only
  rw [if_pos (by rw [at_up, hup, hinv]; rfl)]
  have hdrop : ((s.at_ t).modTime fun x => { x with peer := updAt x.peer p.val fun _ => none }).time.peer = updAt s.time.peer p.val fun _ => none := rfl
  refine ⟨_, rfl, ?_, fun j hj => ?_, ?_⟩
  · rw [judgeHoldover_peer]
    have hself : (updAt s.time.peer p.val fun _ => none).getD p.val none = none := by rw [getD_updAt, if_pos ⟨rfl, by omega⟩]
    split
    · rw [peerChange, selectMaster_peer, stand_time, hdrop, hself]
    · rw [hdrop, hself]
  · rw [judgeHoldover_peer]
    have hother : (updAt s.time.peer p.val fun _ => none).getD j none = s.time.peer.getD j none := by rw [getD_updAt, if_neg fun h => hj h.1.symm]
    split
    · rw [peerChange, selectMaster_peer, stand_time, hdrop, hother]
    · rw [hdrop, hother]
  · split
    · simp +decide
    · simp +decide

theorem announceTimeout_drops : ∀ t s, s.up = true →
    Completes (.announceTimeout t) s fun r => (∀ m ∈ r.time.masters, t < m.last + 3000000000) ∧ (∀ m ∈ s.time.masters, t < m.last + 3000000000 → m ∈ r.time.masters) ∧
      ((∀ k, k < 3 → s.parN .timeSource k = 255) → r.time.holdover = true ∧ r.time.src = none ∧ r.time.rTarget = s.time.freq ∧ r.isRaised 0x6001 0 = true) ∧
      keepsBut [.time, .recorder] s r := by
  intro t s hup
  have hk : keepsBut [.time] s (selectMaster t (s.at_ t)) := by simp +decide
  refine ⟨judgeHoldover t (selectMaster t (s.at_ t)), ?_, fun m hm => ?_, fun m hm hlive => ?_, fun hnone => ?_, by simp +decide⟩
  · show execAnnounceTimeout t s = _
    simp only [execAnnounceTimeout, at_up, hup, if_true]
  · rw [judgeHoldover_masters, selectMaster_masters] at hm
    exact of_decide_eq_true (List.mem_filter.1 hm).2
  · rw [judgeHoldover_masters, selectMaster_masters]
    exact List.mem_filter.2 ⟨hm, decide_eq_true hlive⟩
  · exact judgeHoldover_of_none (firstSource_none (fun k hk3 => by rw [parN_of_keepsBut hk (by decide), hnone k hk3]) t)

theorem syncBoundExceeded_judges : ∀ t s, s.up = true →
    Completes (.syncBoundExceeded t) s fun r =>
      (r.time.synced = true ↔ ∃ b, boundAt (s.at_ t) t = some b ∧ b ≤ (s.parN .timeSyncLimit : Rat)) ∧ (r.time.synced = false → r.isRaised 0x6003 0 = true) ∧
      (r.time.synced = false → r.time.ppsOut = none) ∧ { r.time with synced := s.time.synced, ppsOut := s.time.ppsOut } = { s.time with now := max s.time.now t } ∧ keepsBut [.time, .recorder] s r := by
  intro t s hup
  have htime : (judgeSync t (s.at_ t)).time = { s.time with
      now := max s.time.now t, synced := boundHolds (s.at_ t) t, ppsOut := if boundHolds (s.at_ t) t then s.time.ppsOut else none } := by
    rw [judgeSync_eq, stand_time]
    rfl
  refine ⟨judgeSync t (s.at_ t), ?_, ?_, fun hs => ?_, fun hs => ?_, ?_, by simp +decide⟩
  · show execSyncBoundExceeded t s = _
    simp only [execSyncBoundExceeded, at_up, hup, if_true]
  · rw [htime]
    exact boundHolds_iff (s.at_ t) t
  · rw [htime] at hs
    rw [judgeSync_eq, show boundHolds (s.at_ t) t = false from hs]
    exact isRaised_stand_true _ _ _ (by decide)
  · rw [htime] at hs ⊢
    exact if_neg (by rw [show boundHolds (s.at_ t) t = false from hs]; decide)
  · rw [htime]

theorem syncLost_due : ∀ t s, s.up = true → s.parN .timeSampleSource = 1 → 100 ≤ s.time.syncAge →
    Completes (.syncLost t) s fun r => r.time = { s.time with now := max s.time.now t, syncLost := true } ∧ r.isRaised 0x6011 0 = true ∧ keepsBut [.time, .recorder] s r := by
  intro t s hup hsrc hage
  refine ⟨((s.at_ t).modTime fun x => { x with syncLost := true }).stand 0x6011 0 true, ?_, ?_, isRaised_stand_true _ _ _ (by decide), by simp +decide⟩
  · show execSyncLost t s = _
    have hage' : 100 ≤ (s.at_ t).time.syncAge := hage
    simp only [execSyncLost, at_up, hup, at_parN, hsrc, hage', beq_self_eq_true, decide_true, Bool.and_self, if_true]
  · rw [stand_time]
    rfl

/-- Settles O6: by the rule of each deadline. -/
theorem timeDeadlines : Obligations.TimeDeadlines :=
  ⟨peerDelayExpiry_due, announceTimeout_drops, syncBoundExceeded_judges, syncLost_due⟩

end Sys2Proof.Machine
end

section
/-!
PROOF. RadioLink: beacons, the radio ports and the renewal of a key.
-/
namespace Sys2Proof.Machine

theorem link_of_keepsBut {ps : List Piece} {s t : State} (h : keepsBut ps s t) (hl : Piece.links ∉ ps) (n : Nat) : t.link n = s.link n := by
  have hlinks : t.links = s.links := h .links hl
  simp only [State.link, hlinks]

/-! ### Commands queued and armed -/

/-- A command queued changes the queue of its link only (R90). -/
theorem link_queueCmd (n id target : Nat) (ps : List Nat) (m : Nat) (s : State) :
    (queueCmd n id target ps s).link m = { s.link m with cmds := ((queueCmd n id target ps s).link m).cmds, cmdOrder := ((queueCmd n id target ps s).link m).cmdOrder } := by
  unfold queueCmd
  split
  · rfl
  · rw [State.link_updLink]
    split <;> rfl

theorem link_queueCmd_of_ne {n m : Nat} (h : n ≠ m) (id target : Nat) (ps : List Nat) (s : State) : (queueCmd n id target ps s).link m = s.link m := by
  unfold queueCmd
  split
  · rfl
  · rw [State.link_updLink, if_neg fun hc => h hc.1]
    rfl

/-- The link m of a state after commands were queued for string n. -/
theorem link_forEach_queueCmd (n id : Nat) (ps : List Nat) (l : List Nat) (m : Nat) (s : State) :
    ((forEach l (fun b s => queueCmd n id b ps s) s).link m).keyNext = (s.link m).keyNext ∧ ((forEach l (fun b s => queueCmd n id b ps s) s).link m).key = (s.link m).key := by
  induction l generalizing s with
  | nil => exact ⟨rfl, rfl⟩
  | cons b l ih =>
    obtain ⟨h1, h2⟩ := ih (queueCmd n id b ps s)
    have hone := link_queueCmd n id b ps m s
    exact ⟨h1.trans (by rw [hone]), h2.trans (by rw [hone])⟩

theorem armBurst_link (n m : Nat) (s : State) : (armBurst n s).link m = { s.link m with cmds := ((armBurst n s).link m).cmds } ∧ (n ≠ m → (armBurst n s).link m = s.link m) ∧
    (armBurst n s).links.length = s.links.length := by
  unfold armBurst
  split
  · exact ⟨rfl, fun _ => rfl, rfl⟩
  · split
    · refine ⟨?_, fun h => ?_, length_updAt _ _ _⟩
      · rw [State.link_updLink]
        split <;> rfl
      · rw [State.link_updLink, if_neg fun hc => h hc.1]
        rfl
    · exact ⟨rfl, fun _ => rfl, rfl⟩

/-! ### A port that is ready -/

theorem link_resumePort (k n : Nat) (s : State) : (s.updLink k fun l => if l.ready then { l with port := 0, ready := false } else l).link n =
    if k = n ∧ n < s.links.length then (if (s.link n).ready then { s.link n with port := 0, ready := false } else s.link n) else s.link n := State.link_updLink ..

theorem resumePorts_port {n : Nat} {s : State} (hn : n < 4) (hlen : s.links.length = 4) (hr : (s.link n).ready = true) : ((resumePorts s).link n).port = 0 := by
  have hone : ∀ (l : List Nat) (s : State), s.links.length = 4 → ((s.link n).ready = true ∧ n ∈ l ∨ (s.link n).ready = false ∧ (s.link n).port = 0) →
      ((forEach l (fun n s => s.updLink n fun l => if l.ready then { l with port := 0, ready := false } else l) s).link n).port = 0 := by
    intro l
    induction l with
    | nil =>
      rintro s - (⟨-, h⟩ | ⟨-, h⟩)
      · simp at h
      · exact h
    | cons k l ih =>
      intro s hlen h
      refine ih _ ((length_updAt _ _ _).trans hlen) ?_
      have hnl : n < s.links.length := by omega
      rw [link_resumePort]
      rcases h with ⟨hready, hmem⟩ | ⟨hready, hport⟩
      · by_cases hk : k = n
        · simp [hk, hnl, hready]
        · have hmem' : n ∈ l := (List.mem_cons.1 hmem).resolve_left (Ne.symm hk)
          simp [hk, hready, hmem']
      · simp [hready, hport]
  exact hone _ s hlen (.inl ⟨hr, List.mem_range.2 hn⟩)

theorem uwbSync_beacon : ∀ t (n : Fin 4) s, s.up = true → linkRuns s n.val = true → s.links.length = 4 → (s.link n.val).port = 0 → t = syncAt s n.val →
    Completes (.uwbSync t n) s fun r =>
      r.out = (match (s.link n.val).answer with
        | some x => [Output.spami n.val 43 (answerPsdu (armBurst n.val (fireUnit (3 + n.val) (s.at_ t))) n.val x)]
        | none => []) ++
        Output.spami n.val 0 (beaconPsdu (armBurst n.val (fireUnit (3 + n.val) (s.at_ t))) n.val (beaconCmds (armBurst n.val (fireUnit (3 + n.val) (s.at_ t))) n.val)) :: s.out ∧
      (r.link n.val).beaconOk = true ∧ (∀ j, j ≠ n.val → r.link j = s.link j) ∧ keepsBut [.time, .links, .surv, .recorder, .out] s r := by
  intro t n s hup hruns hlen hport ht
  have hfire : keepsBut [.time] s (fireUnit (3 + n.val) (s.at_ t)) := by simp +decide
  obtain ⟨-, -, -, -, -, hstart⟩ := fireUnit_fields (3 + n.val) (s.at_ t)
  have hup' : (fireUnit (3 + n.val) (s.at_ t)).up = true := by rw [fireUnit_up, at_up, hup]
  have hexec : exec (.uwbSync t n) s = execUwbSync t n s := rfl
  rw [Completes, hexec, execUwbSync]
  generalize fireUnit (3 + n.val) (s.at_ t) = u at *
  have hlink := link_of_keepsBut hfire (by decide)
  have hpar := parN_of_keepsBut hfire (by decide)
  have hon : linkRuns u n.val = true := by
    rw [linkRuns, hlink, show linkOn u n.val = linkOn s n.val by simp only [linkOn, State.parBit, hpar]]
    exact hruns
  have hsync : syncAt u n.val = syncAt s n.val := by simp only [syncAt, hpar, hstart]; rfl
  have hgo : (!u.up || !linkRuns u n.val || (u.link n.val).port != 0 || t != syncAt u n.val) = false := by
    rw [hup', hon, hlink, hport, hsync, ← ht, bne_self_eq_false, bne_self_eq_false]
    rfl
  rw [if_neg (by rw [hgo]; decide)]
  have hk : keepsBut [.links, .surv] u (armBurst n.val u) := by simp +decide
  obtain ⟨hself, -, hlength⟩ := armBurst_link n.val n.val u
  have hother := fun j h => (armBurst_link n.val j u).2.1 h
  generalize armBurst n.val u = w at *
  have hans : (w.link n.val).answer = (s.link n.val).answer := by rw [hself, hlink]
  have hwlen : n.val < w.links.length := by rw [hlength, hfire .links (by decide)]; omega
  have hout : w.out = s.out := (hk .out (by decide)).trans (hfire .out (by decide))
  have hkw : keepsBut [.time, .links, .surv] s w := keepsBut_trans (keepsBut_mono hfire (by decide)) (keepsBut_mono hk (by decide))
  refine ⟨_, rfl, ?_, ?_, fun j hj => ?_, ?_⟩
  · rw [clear_out, hans]
    cases (s.link n.val).answer with
    | none => exact congrArg _ hout
    | some a => exact congrArg (fun o => _ :: _ :: o) hout
  · rw [clear_link, hans]
    have hbeacon : ∀ f : LinkStr → LinkStr, (∀ l, (f l).beaconOk = true) → ((w.updLink n.val f).link n.val).beaconOk = true := fun f hf => by
      rw [State.link_updLink, if_pos ⟨rfl, hwlen⟩, hf]
    cases (s.link n.val).answer with
    | none => exact hbeacon _ fun _ => rfl
    | some a => exact hbeacon _ fun _ => rfl
  · rw [clear_link, hans]
    have hsame : ∀ f : LinkStr → LinkStr, (w.updLink n.val f).link j = s.link j := fun f => by
      rw [State.link_updLink, if_neg fun h => hj h.1.symm, hother j (Ne.symm hj), hlink]
    cases (s.link n.val).answer with
    | none => exact hsame _
    | some a => exact hsame _
  · rw [hans]
    cases (s.link n.val).answer with
    | none => exact keepsBut_trans (keepsBut_mono hkw (by decide)) (by simp +decide)
    | some a => exact keepsBut_trans (keepsBut_mono hkw (by decide)) (by simp +decide)

theorem beaconNotConfirmed_raised : ∀ t (n : Fin 4) s, s.up = true → linkOn s n.val = true → s.links.length = 4 →
    Completes (.beaconNotConfirmed t n) s fun r =>
      (r.link n.val) = { s.link n.val with beaconOk := false } ∧ r.isRaised 0x200D n.val = true ∧ (∀ j, j ≠ n.val → r.link j = s.link j) ∧
      keepsBut [.time, .links, .recorder] s r := by
  intro t n s hup hon hlen
  have hn : n.val < s.links.length := by omega
  refine ⟨((s.at_ t).updLink n.val fun l => { l with beaconOk := false }).stand 0x200D n.val true, ?_, ?_, isRaised_stand_true _ _ _ (by decide), fun j hj => ?_, by simp +decide⟩
  · show execBeaconNotConfirmed t n s = _
    have hon' : linkOn (s.at_ t) n.val = true := hon
    simp only [execBeaconNotConfirmed, at_up, hup, hon', Bool.and_self, if_true]
  · simp [hn]
  · simp [Ne.symm hj]

theorem radioPortReset_reset : ∀ t (n : Fin 4) s, s.up = true → linkOn s n.val = true → s.links.length = 4 →
    Completes (.radioPortReset t n) s fun r =>
      (r.link n.val) = { s.link n.val with port := if (s.link n.val).port = 0 ∨ (s.link n.val).ready = true then 1 else 2, radio := none, ready := false, beaconOk := false } ∧
      r.out = Output.radioReset n.val t :: s.out ∧ r.isRaised 0x200A n.val = true ∧
      (∀ j, j ≠ n.val → r.link j = s.link j) ∧ keepsBut [.time, .links, .recorder, .out] s r := by
  intro t n s hup hon hlen
  have hn : n.val < s.links.length := by omega
  refine ⟨(((s.at_ t).updLink n.val fun l => { l with port := if l.port == 0 || l.ready then 1 else 2, radio := none, ready := false, beaconOk := false }).send
    (.radioReset n.val t)).stand 0x200A n.val true, ?_, ?_, ?_, isRaised_stand_true _ _ _ (by decide), fun j hj => ?_, by simp +decide⟩
  · show execRadioPortReset t n s = _
    have hon' : linkOn (s.at_ t) n.val = true := hon
    simp only [execRadioPortReset, at_up, hup, hon', Bool.and_self, if_true]
  · rw [stand_link]
    refine (State.link_updLink ..).trans ?_
    rw [if_pos ⟨rfl, hn⟩]
    simp
  · rw [stand_out]
    rfl
  · rw [stand_link]
    exact (State.link_updLink ..).trans (if_neg fun h => hj h.1.symm)

theorem radioPortReady_ready : ∀ t (n : Fin 4) s, s.up = true → s.links.length = 4 → (s.link n.val).port ≠ 0 →
    Completes (.radioPortReady t n) s fun r =>
      (r.link n.val) = { s.link n.val with radio := some (radioPair (s.parN .linkPlan) n.val), ready := true } ∧
      r.out = Output.radioConfig n.val (radioPair (s.parN .linkPlan) n.val).1 (radioPair (s.parN .linkPlan) n.val).2 :: s.out ∧
      ((resumePorts r).link n.val).port = 0 ∧ (∀ j, j ≠ n.val → r.link j = s.link j) ∧ keepsBut [.time, .links, .out] s r := by
  intro t n s hup hlen hport
  have hn : n.val < s.links.length := by omega
  generalize hr : (configRadio n.val (s.at_ t)).updLink n.val (fun l => { l with ready := true }) = r
  have hlink : r.link n.val = { s.link n.val with radio := some (radioPair (s.parN .linkPlan) n.val), ready := true } := by
    subst hr
    rw [State.link_updLink, if_pos ⟨rfl, (length_updAt _ _ _).symm ▸ hn⟩]
    have hconf : (configRadio n.val (s.at_ t)).link n.val = { s.link n.val with radio := some (radioPair (s.parN .linkPlan) n.val) } :=
      (State.link_updLink ..).trans (if_pos ⟨rfl, hn⟩)
    rw [hconf]
  have hrlen : r.links.length = 4 := by
    subst hr
    exact (length_updAt _ _ _).trans ((length_updAt _ _ _).trans hlen)
  refine ⟨r, ?_, hlink, by subst hr; rfl, ?_, fun j hj => ?_, by subst hr; simp +decide⟩
  · show execRadioPortReady t n s = _
    rw [execRadioPortReady, if_pos, hr]
    rw [at_up, hup, at_link]
    simpa using hport
  · exact resumePorts_port n.isLt hrlen (by rw [hlink])
  · subst hr
    refine (State.link_updLink ..).trans ((if_neg fun h => hj h.1.symm).trans ?_)
    exact (State.link_updLink ..).trans (if_neg fun h => hj h.1.symm)

/-- The state with the new key drawn, stored and announced, before its forager commands are queued (R81, R86). -/
def keyDrawn (n : Nat) (s : State) : State :=
  (((s.modFreeCtr (· + 1)).modBoot fun b => { b with keys := updAt b.keys n fun p => writePair p (Config.random s.freeCtr % 2 ^ 128) }).raise 0x200B n).updLink n
    fun l => { l with keyNext := some (Config.random s.freeCtr % 2 ^ 128, s.time.frame + 500) }

theorem filter_bit_two_pow : ∀ n : Fin 4, ((List.range 4).filter fun k => bit (2 ^ n.val) k) = [n.val] := by decide

theorem exec_renewNetworkKey {t : Nat} {n : Fin 4} {s : State} (hrun : s.running = true) (hon : linkOn s n.val = true) : exec (.renewNetworkKey t n) s =
    .next (forEach (enrolledBricks s n.val) (fun b s' => queueCmd n.val 0x08 b [Config.random s.freeCtr % 2 ^ 128, (s.time.frame + 500) % 2 ^ 32] s') (keyDrawn n.val (s.at_ t))) := by
  have hone := filter_bit_two_pow n
  have hon' : linkOn (s.at_ t) n.val = true := hon
  show execRenewNetworkKey t n s = _
  simp only [execRenewNetworkKey, at_running, hrun, if_true, cmdRenewKey, hone, List.isEmpty_cons, List.any_cons, List.any_nil, hon', Bool.not_true, Bool.or_false,
    Bool.false_eq_true, if_false, accept]
  rfl

theorem renewNetworkKey_drawn : ∀ t (n : Fin 4) s, s.running = true → s.links.length = 4 → s.boot.keys.length = 4 → linkOn s n.val = true →
    Completes (.renewNetworkKey t n) s fun r =>
      (r.link n.val).keyNext = some ((Config.random s.freeCtr % 2 ^ 128), s.time.frame + 500) ∧ (r.link n.val).key = (s.link n.val).key ∧ r.freeCtr = s.freeCtr + 1 ∧
      (∃ q, r.boot.keys.getD n.val {} = { a := some (q, (Config.random s.freeCtr % 2 ^ 128)), b := some (q, (Config.random s.freeCtr % 2 ^ 128)) }) ∧
      (∀ j, j ≠ n.val → r.boot.keys.getD j {} = s.boot.keys.getD j {}) ∧ keepsBut [.time, .links, .tagCtr, .recorder, .boot, .freeCtr] s r := by
  intro t n s hrun hlen hkeys hon
  have hn : n.val < s.links.length := by omega
  have hk : n.val < s.boot.keys.length := by omega
  obtain ⟨hnext, hkey⟩ := link_forEach_queueCmd n.val 0x08 [Config.random s.freeCtr % 2 ^ 128, (s.time.frame + 500) % 2 ^ 32] (enrolledBricks s n.val) n.val (keyDrawn n.val (s.at_ t))
  have hkeep : keepsBut [.links, .tagCtr] (keyDrawn n.val (s.at_ t)) (forEach (enrolledBricks s n.val)
      (fun b s' => queueCmd n.val 0x08 b [Config.random s.freeCtr % 2 ^ 128, (s.time.frame + 500) % 2 ^ 32] s') (keyDrawn n.val (s.at_ t))) :=
    (keepsBut_forEach_iff (fun b s => by simp +decide) _ _ _).2 (keepsBut_refl _ _)
  have hdrawn : (keyDrawn n.val (s.at_ t)).link n.val = { s.link n.val with keyNext := some (Config.random s.freeCtr % 2 ^ 128, s.time.frame + 500) } :=
    (State.link_updLink ..).trans (if_pos ⟨rfl, hn⟩)
  have hboot : (keyDrawn n.val (s.at_ t)).boot.keys = updAt s.boot.keys n.val fun p => writePair p (Config.random s.freeCtr % 2 ^ 128) := rfl
  refine ⟨_, exec_renewNetworkKey hrun hon, ?_, ?_, ?_, ?_, fun j hj => ?_, ?_⟩
  · rw [hnext, hdrawn]
  · rw [hkey, hdrawn]
  · exact hkeep .freeCtr (by decide)
  · rw [hkeep .boot (by decide), hboot, getD_updAt, if_pos ⟨rfl, hk⟩]
    exact ⟨_, rfl⟩
  · rw [hkeep .boot (by decide), hboot, getD_updAt, if_neg fun h => hj h.1.symm]
  · refine keepsBut_trans ?_ (keepsBut_mono hkeep (by decide))
    simp +decide [keyDrawn]

theorem keyActivation_due : ∀ t (n : Fin 4) k f s, s.up = true → s.links.length = 4 → (s.link n.val).keyNext = some (k, f) → f ≤ s.time.frame →
    Completes (.keyActivation t n) s fun r =>
      (r.link n.val) = { s.link n.val with key := some k, keyNext := none } ∧ (∀ j, j ≠ n.val → r.link j = s.link j) ∧ keepsBut [.time, .links] s r := by
  intro t n k f s hup hlen hnext hf
  have hn : n.val < s.links.length := by omega
  refine ⟨(s.at_ t).updLink n.val fun l => { l with key := some k, keyNext := none }, ?_, ?_, fun j hj => ?_, by simp +decide⟩
  · show execKeyActivation t n s = _
    have hf' : f ≤ (s.at_ t).time.frame := hf
    simp only [execKeyActivation, at_link, hnext, at_up, hup, hf', decide_true, Bool.and_self, if_true]
  · simp [hn]
  · simp [Ne.symm hj]

/-- Settles O7: by the rule of each command. -/
theorem radioLink : Obligations.RadioLink :=
  ⟨uwbSync_beacon, beaconNotConfirmed_raised, radioPortReset_reset, radioPortReady_ready, renewNetworkKey_drawn, keyActivation_due⟩

end Sys2Proof.Machine
end

section
/-!
PROOF. ForagerUplinks: the frames of the foragers and the uplink deadline.
-/
namespace Sys2Proof.Machine

theorem forg_of_keepsBut {ps : List Piece} {s t : State} (h : keepsBut ps s t) (hf : Piece.forgs ∉ ps) (j : Nat) : t.forg j = s.forg j := by
  have hforgs : t.forgs = s.forgs := h .forgs hf
  simp only [State.forg, hforgs]

theorem brickInst_lt {n b : Nat} (hn : n < 4) (hb : b < 36) : brickInst n b < 144 := by
  unfold brickInst
  omega

/-! ### Receipt: which frames of a string are read at all -/

/-- The link of string n hears its foragers. -/
def hears (s : State) (n : Nat) : Prop := s.up = true ∧ linkRuns s n = true ∧ (s.link n).port = 0

theorem hears_guard {s : State} {n ts : Nat} (h : hears s n) : (!(s.at_ ts).up || !linkRuns (s.at_ ts) n || ((s.at_ ts).link n).port != 0) = false := by
  obtain ⟨hup, hruns, hport⟩ := h
  have hruns' : linkRuns (s.at_ ts) n = true := hruns
  rw [at_up, hup, hruns', at_link, hport]
  rfl

theorem rxRead_at (ts typ : Nat) (x : Rx) (s : State) : rxRead (s.at_ ts) typ x = rxRead s typ x := rfl

/-- A frame discarded leaves every forager and every waiting join request alone. -/
theorem discardFrame_facts (n k : Nat) (s : State) : (∀ j, ((discardFrame n k s).link j).joins = (s.link j).joins) ∧ keepsBut [.links, .recorder] s (discardFrame n k s) := by
  have hcount : ∀ i j, ((countDiscard n i s).link j).joins = (s.link j).joins := fun i j => by
    unfold countDiscard
    rw [State.link_updLink]
    split <;> rfl
  refine ⟨fun j => ?_, by simp +decide⟩
  unfold discardFrame countMic
  split
  · exact hcount 0 j
  · split
    · have hmic : (((countDiscard n 5 s).updLink n fun l => { l with mic := l.mic + 1, micRound := l.micRound + 1 }).link j).joins = (s.link j).joins := by
        rw [State.link_updLink]
        split
        · exact hcount 5 j
        · exact hcount 5 j
      dsimp only
      split
      · exact hmic
      · exact hmic
    · exact hcount k j

/-! ### An uplink held -/

theorem ackEffect_forg (n b : Nat) (c : LinkCmd) (s : State) :
    (∀ j, ((ackEffect n b c s).forg j).up = (s.forg j).up) ∧ (∀ j, j ≠ brickInst n b → (ackEffect n b c s).forg j = s.forg j) := by
  have hupd : ∀ f : Forager → Forager, (∀ x, (f x).up = x.up) →
      (∀ j, ((s.updForg (brickInst n b) f).forg j).up = (s.forg j).up) ∧ (∀ j, j ≠ brickInst n b → (s.updForg (brickInst n b) f).forg j = s.forg j) := by
    intro f hf
    refine ⟨fun j => ?_, fun j hj => ?_⟩
    · rw [State.forg_updForg]
      split
      · exact hf _
      · rfl
    · rw [State.forg_updForg, if_neg fun h => hj h.1.symm]
  unfold ackEffect
  extract_lets k frame
  split
  · exact hupd _ fun _ => rfl
  · exact hupd _ fun _ => rfl
  · split
    · split
      · exact hupd _ fun _ => rfl
      · exact ⟨fun _ => rfl, fun _ _ => rfl⟩
    · exact ⟨fun _ => rfl, fun _ _ => rfl⟩
  · exact hupd _ fun _ => rfl
  · exact hupd _ fun _ => rfl
  · exact ⟨fun _ => rfl, fun _ _ => rfl⟩

theorem ackTag_forg (n b tag : Nat) (s : State) :
    (∀ j, ((ackTag n b tag s).forg j).up = (s.forg j).up) ∧ (∀ j, j ≠ brickInst n b → (ackTag n b tag s).forg j = s.forg j) := by
  unfold ackTag
  dsimp only
  split
  · exact ⟨fun _ => rfl, fun _ _ => rfl⟩
  next c _ _ =>
    obtain ⟨hup, hother⟩ := ackEffect_forg n b c (s.updLink n fun l => { l with cmds := (l.cmds.map fun d =>
      if d.tag == tag && decide (0 < d.tries) then { d with waiting := d.waiting.filter (· != b) } else d).filter fun d => !(d.tries != 0 && d.waiting.isEmpty) })
    exact ⟨fun j => by rw [clear_forg]; exact hup j, fun j hj => by rw [clear_forg]; exact hother j hj⟩

theorem ackDown_forg (n b bits : Nat) (s : State) (j : Nat) : (ackDown n b bits s).forg j = s.forg j :=
  forg_of_keepsBut (ps := [.links]) (by simp +decide) (by decide) j

/-! ### The uplink deadline -/

/-- What the uplink deadline reads of a forager and settles of it: its uplink, its unique ID, the closed reading and the misses. -/
def reading (f : Forager) : Option (Uplink × Nat) × Option Nat × Option Uplink × Nat := (f.up, f.uid, f.closed, f.misses)

/-- The valid sample of a held uplink. -/
def validUplink (u : Option (Uplink × Nat)) : Option Uplink := match u with | some (u, _) => if upFlag u 0 then some u else none | none => none

/-- The reading of a forager as the deadline closes it (R20, R102). -/
def closedReading (x : Option (Uplink × Nat) × Option Nat × Option Uplink × Nat) : Option (Uplink × Nat) × Option Nat × Option Uplink × Nat :=
  (x.1, x.2.1, validUplink x.1, if x.2.1.isSome then (if (validUplink x.1).isSome then 0 else x.2.2.2 + 1) else 0)

/-- What a step at the deadline leaves alone: the relay map in force and the marks of a link, and how many foragers and links there are. -/
def keepsRelays (s t : State) : Prop := t.forgs.length = s.forgs.length ∧ t.links.length = s.links.length ∧
  ∀ n, (t.link n).first = (s.link n).first ∧ (t.link n).relay = (s.link n).relay ∧ (t.link n).begun = (s.link n).begun

/-- A step that also closes no reading. -/
def keepsReadings (s t : State) : Prop := keepsRelays s t ∧ ∀ j, reading (t.forg j) = reading (s.forg j)

theorem keepsRelays_refl (s : State) : keepsRelays s s := ⟨rfl, rfl, fun _ => ⟨rfl, rfl, rfl⟩⟩

theorem keepsRelays_trans {s t u : State} (h1 : keepsRelays s t) (h2 : keepsRelays t u) : keepsRelays s u :=
  ⟨h2.1.trans h1.1, h2.2.1.trans h1.2.1, fun n =>
    ⟨(h2.2.2 n).1.trans (h1.2.2 n).1, (h2.2.2 n).2.1.trans (h1.2.2 n).2.1, (h2.2.2 n).2.2.trans (h1.2.2 n).2.2⟩⟩

theorem keepsReadings_refl (s : State) : keepsReadings s s := ⟨keepsRelays_refl s, fun _ => rfl⟩

theorem keepsReadings_trans {s t u : State} (h1 : keepsReadings s t) (h2 : keepsReadings t u) : keepsReadings s u :=
  ⟨keepsRelays_trans h1.1 h2.1, fun j => (h2.2 j).trans (h1.2 j)⟩

theorem keepsReadings_of_keepsBut {ps : List Piece} {s t : State} (h : keepsBut ps s t) (hl : Piece.links ∉ ps) (hf : Piece.forgs ∉ ps) : keepsReadings s t := by
  have hlinks : t.links = s.links := h .links hl
  have hforgs : t.forgs = s.forgs := h .forgs hf
  refine ⟨⟨by rw [hforgs], by rw [hlinks], fun n => ?_⟩, fun j => ?_⟩
  · rw [link_of_keepsBut h hl]
    exact ⟨rfl, rfl, rfl⟩
  · rw [forg_of_keepsBut h hf]

theorem keepsReadings_updForg (j : Nat) (f : Forager → Forager) (hf : ∀ x, reading (f x) = reading x) (s : State) : keepsReadings s (s.updForg j f) := by
  refine ⟨⟨length_updAt _ _ _, rfl, fun _ => ⟨rfl, rfl, rfl⟩⟩, fun k => ?_⟩
  rw [State.forg_updForg]
  split
  · exact hf _
  · rfl

theorem keepsReadings_updLink (n : Nat) (f : LinkStr → LinkStr) (hf : ∀ l, (f l).first = l.first ∧ (f l).relay = l.relay ∧ (f l).begun = l.begun) (s : State) :
    keepsReadings s (s.updLink n f) := by
  refine ⟨⟨rfl, length_updAt _ _ _, fun k => ?_⟩, fun _ => rfl⟩
  rw [State.link_updLink]
  split
  · exact hf _
  · exact ⟨rfl, rfl, rfl⟩

theorem keepsReadings_forEach {α : Type} {f : α → State → State} (hf : ∀ a s, keepsReadings s (f a s)) (l : List α) (s : State) : keepsReadings s (forEach l f s) := by
  induction l generalizing s with
  | nil => exact keepsReadings_refl s
  | cons a l ih => exact keepsReadings_trans (hf a s) (ih _)

theorem keepsReadings_raise (c a : Nat) (s : State) : keepsReadings s (s.raise c a) := ⟨keepsRelays_refl s, fun _ => rfl⟩

theorem keepsReadings_stand (c a : Nat) (b : Bool) (s : State) : keepsReadings s (s.stand c a b) :=
  keepsReadings_of_keepsBut (ps := [.recorder]) (by simp +decide) (by decide) (by decide)

theorem keepsReadings_clear (c a : Nat) (s : State) : keepsReadings s (s.clear c a) :=
  keepsReadings_of_keepsBut (ps := [.recorder]) (by simp +decide) (by decide) (by decide)

theorem keepsReadings_judgeRelay (n p : Nat) (s : State) : keepsReadings s (judgeRelay n p s) := by
  unfold judgeRelay
  extract_lets l own blame f run
  split
  · exact keepsReadings_trans (keepsReadings_updForg _ _ (by intro; rfl) s) (keepsReadings_stand _ _ _ _)
  · split
    · split
      · exact keepsReadings_trans (keepsReadings_updForg _ _ (by intro; rfl) s) (keepsReadings_clear _ _ _)
      · exact keepsReadings_updForg _ _ (by intro; rfl) s
    · exact keepsReadings_refl s

theorem keepsReadings_bulkMap (n : Nat) (s : State) : keepsReadings s (bulkMap n s) := by
  unfold bulkMap
  extract_lets l down first grants ups d rest m s1
  have h1 : keepsReadings s s1 := keepsReadings_updLink n _ (by intro; exact ⟨rfl, rfl, rfl⟩) s
  refine keepsReadings_trans h1 (keepsReadings_forEach (fun g s => keepsReadings_updForg _ _ (by intro f; split <;> rfl) s) _ s1)

theorem keepsReadings_testTimeout (n b : Nat) (s : State) : keepsReadings s (testTimeout n b s) := by
  unfold testTimeout
  extract_lets j
  split
  · exact keepsReadings_refl s
  · exact keepsReadings_trans (keepsReadings_updForg _ _ (by intro; rfl) s) (keepsReadings_raise _ _ _)

theorem keepsReadings_giveUp (n : Nat) (s : State) : keepsReadings s (giveUp n s) := by
  have hdrop : keepsReadings s (dropBleed n s) := by
    unfold dropBleed
    split
    · exact keepsReadings_refl s
    · exact keepsReadings_updLink n _ (by intro; exact ⟨rfl, rfl, rfl⟩) s
  unfold giveUp
  extract_lets s0 gone s1
  have h1 : keepsReadings s0 s1 := keepsReadings_updLink n _ (by intro; exact ⟨rfl, rfl, rfl⟩) s0
  refine keepsReadings_trans hdrop (keepsReadings_trans h1 (keepsReadings_forEach (fun c s => ?_) _ s1))
  refine keepsReadings_forEach (fun b s => ?_) _ s
  dsimp only
  split
  · exact keepsReadings_trans (keepsReadings_raise _ _ _) (keepsReadings_testTimeout _ _ _)
  · exact keepsReadings_raise _ _ _

theorem closeBrick_readings (n b : Nat) (s : State) : keepsRelays s (closeBrick n b s) ∧
    ∀ j, j < s.forgs.length → reading ((closeBrick n b s).forg j) = if brickInst n b = j then closedReading (reading (s.forg j)) else reading (s.forg j) := by
  unfold closeBrick
  extract_lets j f got miss s1
  have h1 : keepsRelays s s1 ∧ ∀ k, k < s.forgs.length → reading (s1.forg k) = if brickInst n b = k then closedReading (reading (s.forg k)) else reading (s.forg k) := by
    refine ⟨⟨length_updAt _ _ _, rfl, fun _ => ⟨rfl, rfl, rfl⟩⟩, fun k hk => ?_⟩
    show reading ((s.updForg j _).forg k) = _
    rw [State.forg_updForg]
    by_cases hjk : j = k
    · subst hjk
      rw [if_pos ⟨rfl, hk⟩, if_pos rfl]
      rfl
    · rw [if_neg fun h => hjk h.1, if_neg hjk]
  split
  · have h2 := keepsReadings_trans (keepsReadings_stand 0x2001 j got.isNone s1) (keepsReadings_stand 0x2002 j (decide (3 ≤ miss)) (s1.stand 0x2001 j got.isNone))
    exact ⟨keepsRelays_trans h1.1 h2.1, fun k hk => (h2.2 k).trans (h1.2 k hk)⟩
  · exact h1

theorem closeBricks_readings (n : Nat) {l : List Nat} (hl : l.Nodup) (s : State) : keepsRelays s (forEach l (fun b s => closeBrick n b s) s) ∧
    ∀ j, j < s.forgs.length → reading ((forEach l (fun b s => closeBrick n b s) s).forg j) =
      if ∃ b ∈ l, brickInst n b = j then closedReading (reading (s.forg j)) else reading (s.forg j) := by
  induction l generalizing s with
  | nil => exact ⟨keepsRelays_refl s, fun _ _ => by simp [forEach]⟩
  | cons b l ih =>
    obtain ⟨hb, hl⟩ := List.nodup_cons.1 hl
    obtain ⟨hk1, hr1⟩ := closeBrick_readings n b s
    obtain ⟨hk2, hr2⟩ := ih hl (closeBrick n b s)
    refine ⟨keepsRelays_trans hk1 hk2, fun j hj => (hr2 j (by rw [hk1.1]; exact hj)).trans ?_⟩
    rw [hr1 j hj]
    by_cases hbj : brickInst n b = j
    · have hnot : ¬∃ b' ∈ l, brickInst n b' = j := by
        rintro ⟨b', hb', hj'⟩
        have : b' = b := by unfold brickInst at hbj hj'; omega
        exact hb (this ▸ hb')
      rw [if_neg hnot, if_pos hbj, if_pos ⟨b, List.mem_cons_self, hbj⟩]
    · have hiff : (∃ b' ∈ b :: l, brickInst n b' = j) ↔ ∃ b' ∈ l, brickInst n b' = j := by simp [hbj]
      simp only [hiff, if_neg hbj]

theorem exists_brick_iff (n j : Nat) : (∃ b ∈ List.range 36, brickInst n b = j) ↔ j / 36 = n := by
  simp only [List.mem_range, brickInst]
  constructor
  · rintro ⟨b, hb, rfl⟩
    omega
  · rintro rfl
    exact ⟨j % 36, by omega, by omega⟩

theorem closeString_readings (n : Nat) (s : State) : keepsRelays s (closeString n s) ∧
    ∀ j, j < s.forgs.length → reading ((closeString n s).forg j) = if j / 36 = n then closedReading (reading (s.forg j)) else reading (s.forg j) := by
  unfold closeString
  extract_lets bricks s1 relays s2 own s3 s4 s5
  obtain ⟨hk1, hr1⟩ := closeBricks_readings n List.nodup_range s
  have h2 : keepsReadings s1 s2 := keepsReadings_forEach (fun p s => keepsReadings_judgeRelay n p s) _ s1
  have h3 : keepsReadings s2 s3 := keepsReadings_updLink n _ (by intro; exact ⟨rfl, rfl, rfl⟩) s2
  have h4 : keepsReadings s3 s4 := keepsReadings_stand _ _ _ s3
  have h45 : keepsReadings s4 s5 := keepsReadings_trans (keepsReadings_bulkMap n s4) (keepsReadings_giveUp n (bulkMap n s4))
  clear_value s5 s4 s3 s2
  have h5 : keepsReadings s1 s5 := keepsReadings_trans h2 (keepsReadings_trans h3 (keepsReadings_trans h4 h45))
  have hend : keepsReadings s1 (if (s.link n).beaconOk then s5.clear 0x200D n else s5) := by
    split
    · exact keepsReadings_trans h5 (keepsReadings_clear _ _ _)
    · exact h5
  refine ⟨keepsRelays_trans hk1 hend.1, fun j hj => (hend.2 j).trans ((hr1 j hj).trans ?_)⟩
  simp only [exists_brick_iff]

theorem closeStrings_readings {l : List Nat} (hl : l.Nodup) (s : State) : keepsRelays s (forEach l closeString s) ∧
    ∀ j, j < s.forgs.length → reading ((forEach l closeString s).forg j) = if j / 36 ∈ l then closedReading (reading (s.forg j)) else reading (s.forg j) := by
  induction l generalizing s with
  | nil => exact ⟨keepsRelays_refl s, fun _ _ => by simp [forEach]⟩
  | cons n l ih =>
    obtain ⟨hn, hl⟩ := List.nodup_cons.1 hl
    obtain ⟨hk1, hr1⟩ := closeString_readings n s
    obtain ⟨hk2, hr2⟩ := ih hl (closeString n s)
    refine ⟨keepsRelays_trans hk1 hk2, fun j hj => (hr2 j (by rw [hk1.1]; exact hj)).trans ?_⟩
    rw [hr1 j hj]
    by_cases hjn : j / 36 = n
    · rw [if_neg (by rw [hjn]; exact hn), if_pos hjn, if_pos (by rw [hjn]; exact List.mem_cons_self)]
    · have hiff : j / 36 ∈ n :: l ↔ j / 36 ∈ l := by simp [hjn]
      simp only [hiff, if_neg hjn]

/-! ### An object delivered -/

/-- What the delivery of an object of forager j does not touch: the other foragers, the fragments in hand, and the commands that wait. -/
def keepsTransfers (n j : Nat) (s t : State) : Prop :=
  (∀ k, k ≠ j → t.forg k = s.forg k) ∧ (t.forg j).ups = (s.forg j).ups ∧ ∀ c ∈ (s.link n).cmds, c ∈ (t.link n).cmds

theorem keepsTransfers_refl (n j : Nat) (s : State) : keepsTransfers n j s s := ⟨fun _ _ => rfl, rfl, fun _ h => h⟩

theorem keepsTransfers_trans {n j : Nat} {s t u : State} (h1 : keepsTransfers n j s t) (h2 : keepsTransfers n j t u) : keepsTransfers n j s u :=
  ⟨fun k hk => (h2.1 k hk).trans (h1.1 k hk), h2.2.1.trans h1.2.1, fun c hc => h2.2.2 c (h1.2.2 c hc)⟩

theorem keepsTransfers_of_keepsBut {ps : List Piece} {s t : State} (n j : Nat) (h : keepsBut ps s t) (hl : Piece.links ∉ ps) (hf : Piece.forgs ∉ ps) : keepsTransfers n j s t :=
  ⟨fun k _ => forg_of_keepsBut h hf k, by rw [forg_of_keepsBut h hf], fun c hc => by rw [link_of_keepsBut h hl]; exact hc⟩

theorem keepsTransfers_updForg (n j : Nat) {f : Forager → Forager} (hf : ∀ x, (f x).ups = x.ups) (s : State) : keepsTransfers n j s (s.updForg j f) := by
  refine ⟨fun k hk => by rw [State.forg_updForg, if_neg fun h => hk h.1.symm], ?_, fun _ h => h⟩
  rw [State.forg_updForg]
  split
  · exact hf _
  · rfl

theorem keepsTransfers_queueCmd (n j m id target : Nat) (ps : List Nat) (s : State) : keepsTransfers n j s (queueCmd m id target ps s) := by
  have hforg : ∀ k, (queueCmd m id target ps s).forg k = s.forg k :=
    forg_of_keepsBut (show keepsBut [.links, .tagCtr] s (queueCmd m id target ps s) by simp +decide) (by decide)
  refine ⟨fun k _ => hforg k, by rw [hforg], fun c hc => ?_⟩
  unfold queueCmd
  split
  · exact hc
  · rw [State.link_updLink]
    split
    · exact List.mem_append_left _ hc
    · exact hc

theorem keepsTransfers_owResult (n b : Nat) (bytes : List Byte) (s : State) : keepsTransfers n (brickInst n b) s (owResult n b bytes s) := by
  unfold owResult
  extract_lets j
  split
  · exact keepsTransfers_refl ..
  · extract_lets ok von old k s1
    have h1 : keepsTransfers n j s s1 := keepsTransfers_updForg n j (by intro; rfl) s
    split
    · exact keepsTransfers_trans h1 (keepsTransfers_of_keepsBut (ps := [.recorder]) n j (by simp +decide) (by decide) (by decide))
    · split
      · exact h1
      · exact keepsTransfers_trans h1 (keepsTransfers_of_keepsBut (ps := [.recorder]) n j (by simp +decide) (by decide) (by decide))

theorem keepsTransfers_sendRelaySet (n j m p : Nat) (s : State) : keepsTransfers n j s (sendRelaySet m p s) := by
  unfold sendRelaySet relaySet
  split
  · exact keepsTransfers_refl ..
  · dsimp only
    split
    · exact keepsTransfers_queueCmd ..
    · exact keepsTransfers_refl ..

theorem keepsTransfers_stagingRecord (n j : Nat) (d : Diag) (s : State) : keepsTransfers n j s (stagingRecord j d s) := by
  unfold stagingRecord
  split
  · exact keepsTransfers_refl ..
  · split
    · split
      · exact keepsTransfers_trans (keepsTransfers_updForg n j (f := fun f => { f with staging := 2 }) (by intro; rfl) s)
          (keepsTransfers_of_keepsBut (ps := [.recorder, .upd]) n j (by simp +decide) (by decide) (by decide))
      · split
        · exact keepsTransfers_updForg n j (by intro; rfl) s
        · exact keepsTransfers_refl ..
    · exact keepsTransfers_refl ..

theorem keepsTransfers_diagRecord (n b : Nat) (bytes : List Byte) (s : State) : keepsTransfers n (brickInst n b) s (diagRecord n b bytes s) := by
  unfold diagRecord
  extract_lets j d restarted s1 s2 s3
  have hstore : ∀ u, keepsTransfers n j u (storeRoster u) := fun u => keepsTransfers_of_keepsBut (ps := [.boot]) n j (by simp +decide) (by decide) (by decide)
  have h1 : keepsTransfers n j s s1 := keepsTransfers_trans (keepsTransfers_updForg n j (by intro; rfl) s) (hstore _)
  have h2 : keepsTransfers n j s1 s2 := keepsTransfers_of_keepsBut (ps := [.recorder]) n j (by simp +decide [s2]) (by decide) (by decide)
  have h3 : keepsTransfers n j s2 s3 := by
    unfold s3
    split
    · exact keepsTransfers_trans (keepsTransfers_of_keepsBut (ps := [.recorder]) n j (t := s2.raise 0x100D j) (by simp +decide) (by decide) (by decide)) (keepsTransfers_sendRelaySet ..)
    · exact keepsTransfers_refl ..
  clear_value s1 s2 s3
  exact keepsTransfers_trans h1 (keepsTransfers_trans h2 (keepsTransfers_trans h3 (keepsTransfers_stagingRecord n j d s3)))

theorem mem_queueCmd {n : Nat} (id target : Nat) (ps : List Nat) {s : State} (hn : n < s.links.length) :
    ∃ c ∈ ((queueCmd n id target ps s).link n).cmds, c.id = id ∧ c.target = target ∧ c.params = ps := by
  unfold queueCmd
  split
  next h =>
    obtain ⟨c, hc, hkind⟩ := List.any_eq_true.1 h
    simp only [Bool.and_eq_true, beq_iff_eq] at hkind
    exact ⟨c, hc, hkind.1.1.1, hkind.1.1.2, hkind.1.2⟩
  next =>
    dsimp only
    rw [State.link_updLink, if_pos ⟨rfl, hn⟩]
    exact ⟨_, List.mem_append_right _ (List.mem_singleton_self _), rfl, rfl, rfl⟩

theorem uplink_held : ∀ x d s, s.up = true → linkRuns s x.string = true → (s.link x.string).port = 0 → rxRead s 2 x = .ok d → x.string < 4 → rxSource x < 36 → s.forgs.length = 144 →
    x.ts ≤ s.frameStart + 8800000 → enrolled s x.string (rxSource x) = true →
    Completes (.uplink x.toRxMeta x.psdu) s fun t =>
      (t.forg (brickInst x.string (rxSource x))).up =
        (if (s.forg (brickInst x.string (rxSource x))).up.isSome then (s.forg (brickInst x.string (rxSource x))).up else some (uplinkOf d, x.slot)) ∧
      (∀ j, j ≠ brickInst x.string (rxSource x) → t.forg j = s.forg j) ∧ keepsBut [.time, .links, .forgs, .surv, .recorder] s t := by
  intro x d s hup hruns hport hread hx hb hlen hts henr
  have hj : brickInst x.string (rxSource x) < s.forgs.length := by rw [hlen]; exact brickInst_lt hx hb
  have hlate : ¬(s.at_ x.ts).frameStart + 8800000 < x.ts := not_lt.2 hts
  have henr' : enrolled (s.at_ x.ts) x.string (rxSource x) = true := henr
  obtain ⟨r, hr, hframe⟩ := exec_frame (.uplink x.toRxMeta x.psdu) s
  have hexec : exec (.uplink x.toRxMeta x.psdu) s = execUplink x.toRxMeta x.psdu s := rfl
  have hkeep := keepsBut_mono hframe (qs := [.time, .links, .forgs, .surv, .recorder]) (by simp +decide [mayChange])
  refine ⟨r, hr, ?_⟩
  rw [hexec, execUplink, if_neg (by rw [hears_guard ⟨hup, hruns, hport⟩]; decide), rxRead_at, hread] at hr
  dsimp only at hr
  rw [if_neg hlate, if_neg (by rw [henr']; decide)] at hr
  have hsrc : rxSource { toRxMeta := x.toRxMeta, psdu := x.psdu } = rxSource x := rfl
  rw [hsrc] at hr
  have hr' := (Host.Outcome.next.inj hr).symm
  refine ⟨?_, fun k hk => ?_, hkeep⟩
  · rw [hr']
    simp only [stand_forg]
    rw [ackDown_forg, (ackTag_forg _ _ _ _).1]
    split
    · rw [State.forg_updForg, if_pos ⟨rfl, hj⟩]
      rfl
    · show ((State.updForg _ _ _).forg _).up = _
      rw [State.forg_updForg, if_pos ⟨rfl, hj⟩]
      rfl
  · rw [hr']
    simp only [stand_forg]
    rw [ackDown_forg, (ackTag_forg _ _ _ _).2 k hk]
    split
    · rw [State.forg_updForg, if_neg fun h => hk h.1.symm]
      rfl
    · show (State.updForg _ _ _).forg _ = _
      rw [State.forg_updForg, if_neg fun h => hk h.1.symm]
      rfl

theorem uplink_discarded : ∀ x k s, s.up = true → linkRuns s x.string = true → (s.link x.string).port = 0 → rxRead s 2 x = .error k →
    Completes (.uplink x.toRxMeta x.psdu) s fun t => t.forgs = s.forgs ∧ t.links = (discardFrame x.string k (s.at_ x.ts)).links ∧ keepsBut [.time, .links, .recorder] s t := by
  intro x k s hup hruns hport hread
  obtain ⟨-, hkeep⟩ := discardFrame_facts x.string k (s.at_ x.ts)
  refine ⟨discardFrame x.string k (s.at_ x.ts), ?_, hkeep .forgs (by decide), rfl, by simp +decide⟩
  show execUplink x.toRxMeta x.psdu s = _
  rw [execUplink, if_neg (by rw [hears_guard ⟨hup, hruns, hport⟩]; decide), rxRead_at, hread]

theorem uplink_late : ∀ x d s, s.up = true → linkRuns s x.string = true → (s.link x.string).port = 0 → rxRead s 2 x = .ok d → s.links.length = 4 → x.string < 4 →
    s.frameStart + 8800000 < x.ts →
    Completes (.uplink x.toRxMeta x.psdu) s fun t => (t.link x.string).late = (s.link x.string).late + 1 ∧ keepsBut [.time, .links] s t := by
  intro x d s hup hruns hport hread hlen hx hlate
  refine ⟨(s.at_ x.ts).updLink x.string fun l => { l with late := l.late + 1 }, ?_, ?_, by simp +decide⟩
  · show execUplink x.toRxMeta x.psdu s = _
    rw [execUplink, if_neg (by rw [hears_guard ⟨hup, hruns, hport⟩]; decide), rxRead_at, hread]
    exact if_pos hlate
  · have hxl : x.string < s.links.length := by omega
    simp [hxl]

theorem uplinkDeadline_closes : ∀ t s, s.up = true → s.workDue 1 = true → t = s.frameStart + 8800000 → s.links.length = 4 → s.forgs.length = 144 →
    Completes (.uplinkDeadline t) s fun r =>
      (∀ n b, n < 4 → b < 36 → linkRuns s n = true → (s.forg (brickInst n b)).uid.isSome = true →
        ((∃ u k, (s.forg (brickInst n b)).up = some (u, k) ∧ upFlag u 0 = true ∧ (r.forg (brickInst n b)).closed = some u ∧ (r.forg (brickInst n b)).misses = 0) ∨
         ((∀ u k, (s.forg (brickInst n b)).up = some (u, k) → upFlag u 0 = false) ∧ (r.forg (brickInst n b)).closed = none ∧
           (r.forg (brickInst n b)).misses = (s.forg (brickInst n b)).misses + 1))) ∧
      (∀ n b, n < 4 → b < 36 → linkRuns s n = false →
        (r.forg (brickInst n b)).closed = (s.forg (brickInst n b)).closed ∧ (r.forg (brickInst n b)).misses = (s.forg (brickInst n b)).misses) ∧
      (∀ n, n < 4 → (r.link n).first = ((s.link n).first && !(s.link n).begun) ∧ (r.link n).relay = (s.link n).relay) ∧ r.workDue 1 = false ∧
      keepsBut [.time, .links, .forgs, .recorder] s r := by
  intro t s hup hdue ht hlinks hforgs
  have hfire : keepsBut [.time] s (fireUnit 15 (s.at_ t)) := by simp +decide
  obtain ⟨-, -, -, -, -, hstart⟩ := fireUnit_fields 15 (s.at_ t)
  have hup' : (fireUnit 15 (s.at_ t)).up = true := by rw [fireUnit_up, at_up, hup]
  have hdue' : (fireUnit 15 (s.at_ t)).workDue 1 = true := by
    obtain ⟨units, h⟩ := fireUnit_eq_modTime_compare 15 (s.at_ t)
    rw [h]
    exact hdue
  have hexec : exec (.uplinkDeadline t) s = execUplinkDeadline t s := rfl
  rw [Completes, hexec, execUplinkDeadline]
  generalize fireUnit 15 (s.at_ t) = u at *
  have hstart' : u.frameStart = s.frameStart := hstart
  rw [if_pos (by rw [hup', hdue', hstart', ht, beq_self_eq_true]; rfl)]
  have hkw : keepsBut [.time] s (u.workDone 1) := keepsBut_trans hfire (by simp +decide)
  have hclose : (closeLinks (u.workDone 1)).time = (u.workDone 1).time :=
    (show keepsBut [.links, .forgs, .recorder] (u.workDone 1) (closeLinks (u.workDone 1)) by simp +decide) .time (by decide)
  have hwork : (u.workDone 1).workDue 1 = false := by simp [State.workDone, State.workDue]
  generalize u.workDone 1 = w at *
  have hfw := forg_of_keepsBut hkw (by decide)
  have hlw := link_of_keepsBut hkw (by decide)
  have hruns : ∀ n, linkRuns w n = linkRuns s n := fun n => by
    simp only [linkRuns, linkOn, State.parBit, parN_of_keepsBut hkw (by decide), hlw]
  obtain ⟨hkr, hread⟩ := closeStrings_readings (l := (List.range 4).filter (linkRuns w)) (List.nodup_range.filter _) w
  have hflen : w.forgs.length = 144 := by rw [hkw .forgs (by decide), hforgs]
  have hreading : ∀ n b, n < 4 → b < 36 → reading ((closeLinks w).forg (brickInst n b)) =
      if linkRuns s n = true then closedReading (reading (s.forg (brickInst n b))) else reading (s.forg (brickInst n b)) := by
    intro n b hn hb
    have hdiv : brickInst n b / 36 = n := by unfold brickInst; omega
    have hmem : brickInst n b / 36 ∈ (List.range 4).filter (linkRuns w) ↔ linkRuns s n = true := by
      rw [hdiv, List.mem_filter, List.mem_range, hruns]
      exact and_iff_right hn
    rw [show closeLinks w = forEach ((List.range 4).filter (linkRuns w)) closeString w from rfl, hread _ (by rw [hflen]; exact brickInst_lt hn hb), hfw]
    simp only [hmem]
  refine ⟨_, rfl, fun n b hn hb hon henr => ?_, fun n b hn hb hoff => ?_, fun n hn => ?_, ?_, ?_⟩
  · have h := hreading n b hn hb
    rw [if_pos hon] at h
    have hclosed : ((closeLinks w).forg (brickInst n b)).closed = validUplink (s.forg (brickInst n b)).up := congrArg (·.2.2.1) h
    have hmisses : ((closeLinks w).forg (brickInst n b)).misses =
        if (s.forg (brickInst n b)).uid.isSome then (if (validUplink (s.forg (brickInst n b)).up).isSome then 0 else (s.forg (brickInst n b)).misses + 1) else 0 :=
      congrArg (·.2.2.2) h
    rw [if_pos henr] at hmisses
    show (∃ v k, _ ∧ _ ∧ ((closeLinks w).forg (brickInst n b)).closed = _ ∧ ((closeLinks w).forg (brickInst n b)).misses = _) ∨
      (_ ∧ ((closeLinks w).forg (brickInst n b)).closed = _ ∧ ((closeLinks w).forg (brickInst n b)).misses = _)
    rw [hclosed, hmisses]
    cases hu : (s.forg (brickInst n b)).up with
    | none => exact .inr ⟨fun _ _ h => (Option.some_ne_none _ h.symm).elim, rfl, rfl⟩
    | some p =>
      obtain ⟨v, k⟩ := p
      by_cases hv : upFlag v 0 = true
      · exact .inl ⟨v, k, rfl, hv, by simp [validUplink, hv], by simp [validUplink, hv]⟩
      · have hv' : upFlag v 0 = false := Bool.eq_false_iff.2 hv
        refine .inr ⟨fun v' k' h => ?_, by simp [validUplink, hv'], by simp [validUplink, hv']⟩
        cases h
        exact hv'
  · have h := hreading n b hn hb
    rw [if_neg (by rw [hoff]; decide)] at h
    exact ⟨congrArg (·.2.2.1) h, congrArg (·.2.2.2) h⟩
  · have hlen : n < (closeLinks w).links.length := by
      rw [show (closeLinks w).links.length = w.links.length from hkr.2.1, hkw .links (by decide)]
      omega
    obtain ⟨hfirst, hrelay, hbegun⟩ := hkr.2.2 n
    have hmap : ((closeLinks w).modLinks fun ls => ls.map fun l => { l with first := l.first && !l.begun }).link n =
        { (closeLinks w).link n with first := ((closeLinks w).link n).first && !((closeLinks w).link n).begun } := by
      simp only [State.link, State.modLinks_links, List.getD_eq_getElem?_getD, List.getElem?_map, List.getElem?_eq_getElem hlen]
      rfl
    rw [hmap]
    refine ⟨?_, ?_⟩
    · show (((closeLinks w).link n).first && !((closeLinks w).link n).begun) = _
      rw [show ((closeLinks w).link n).first = _ from hfirst, show ((closeLinks w).link n).begun = _ from hbegun, hlw]
    · exact (show ((closeLinks w).link n).relay = _ from hrelay).trans (by rw [hlw])
  · show (closeLinks w).workDue 1 = false
    rw [State.workDue, hclose]
    exact hwork
  · exact keepsBut_trans (keepsBut_mono hkw (by decide)) (by simp +decide)

theorem joinRequest_waits : ∀ x d s, s.up = true → linkRuns s x.string = true → (s.link x.string).port = 0 → s.links.length = 4 → x.string < 4 → rxRead s 3 x = .ok d →
    Completes (.joinRequest x.string x.slot x.ts x.level x.psdu) s fun t =>
      (t.link x.string).joins = (s.link x.string).joins ++ [joinOf (rxSource x) s.time.frame (joinsOpen s x.string) d] ∧
      (∀ j, j ≠ x.string → t.link j = s.link j) ∧ keepsBut [.time, .links] s t := by
  intro x d s hup hruns hport hlen hx hread
  refine ⟨(s.at_ x.ts).updLink x.string fun l => { l with joins := l.joins ++ [joinOf (rxSource x) s.time.frame (joinsOpen s x.string) d] }, ?_, ?_, fun j hj => ?_, by simp +decide⟩
  · show execJoinRequest x.string x.slot x.ts x.level x.psdu s = _
    rw [execJoinRequest, if_neg (by rw [hears_guard ⟨hup, hruns, hport⟩]; decide), rxRead_at, hread]
    rfl
  · have hxl : x.string < s.links.length := by omega
    simp [hxl]
  · simp [Ne.symm hj]

theorem joinRequest_mic : ∀ x s, s.up = true → linkRuns s x.string = true → (s.link x.string).port = 0 → rxRead s 3 x = .error 5 →
    Completes (.joinRequest x.string x.slot x.ts x.level x.psdu) s fun t =>
      (∀ j, (t.link j).joins = (s.link j).joins) ∧ t.links = (discardFrame x.string 5 (s.at_ x.ts)).links ∧
      t.recorder = (State.raise 0x200E x.string (discardFrame x.string 5 (s.at_ x.ts))).recorder ∧ keepsBut [.time, .links, .recorder] s t := by
  intro x s hup hruns hport hread
  obtain ⟨hjoins, hkeep⟩ := discardFrame_facts x.string 5 (s.at_ x.ts)
  refine ⟨(discardFrame x.string 5 (s.at_ x.ts)).raise 0x200E x.string, ?_, hjoins, rfl, rfl, by simp +decide⟩
  show execJoinRequest x.string x.slot x.ts x.level x.psdu s = _
  rw [execJoinRequest, if_neg (by rw [hears_guard ⟨hup, hruns, hport⟩]; decide), rxRead_at, hread]
  rfl

theorem joinRequest_discarded : ∀ x k s, s.up = true → linkRuns s x.string = true → (s.link x.string).port = 0 → rxRead s 3 x = .error k → k ≠ 5 →
    Completes (.joinRequest x.string x.slot x.ts x.level x.psdu) s fun t =>
      (∀ j, (t.link j).joins = (s.link j).joins) ∧ t.links = (discardFrame x.string k (s.at_ x.ts)).links ∧ keepsBut [.time, .links, .recorder] s t := by
  intro x k s hup hruns hport hread hk
  obtain ⟨hjoins, hkeep⟩ := discardFrame_facts x.string k (s.at_ x.ts)
  refine ⟨discardFrame x.string k (s.at_ x.ts), ?_, hjoins, rfl, by simp +decide⟩
  show execJoinRequest x.string x.slot x.ts x.level x.psdu s = _
  rw [execJoinRequest, if_neg (by rw [hears_guard ⟨hup, hruns, hport⟩]; decide), rxRead_at, hread]
  exact congrArg _ (if_neg (by simpa using hk))

theorem bulkUp_held : ∀ x d s, s.up = true → linkRuns s x.string = true → (s.link x.string).port = 0 → rxRead s 5 x = .ok d → x.string < 4 → rxSource x < 36 → s.forgs.length = 144 →
    enrolled s x.string (rxSource x) = true → fragBad (s.forg (brickInst x.string (rxSource x))) (fragmentOf d) = false →
    doneOut s x.string (rxSource x) (fragmentOf d).object = false →
    ((s.forg (brickInst x.string (rxSource x))).ups.find? fun u => u.object == (fragmentOf d).object) = none → 1 < fragments (fragmentOf d).total →
    Completes (.bulkUp x.toRxMeta x.psdu) s fun t =>
      (∃ u ∈ (t.forg (brickInst x.string (rxSource x))).ups, u.object = (fragmentOf d).object ∧ u.total = some (fragmentOf d).total ∧
        u.frags = [((fragmentOf d).index, (fragmentOf d).data.take (fragmentOf d).len)]) ∧
      (∀ j, j ≠ brickInst x.string (rxSource x) → t.forg j = s.forg j) ∧ keepsBut [.time, .forgs] s t := by
  intro x d s hup hruns hport hread hx hb hlen henr hok hdone hfind hmany
  have hj : brickInst x.string (rxSource x) < s.forgs.length := by rw [hlen]; exact brickInst_lt hx hb
  have henr' : enrolled (s.at_ x.ts) x.string (rxSource x) = true := henr
  have hok' : fragBad ((s.at_ x.ts).forg (brickInst x.string (rxSource x))) (fragmentOf d) = false := hok
  have hdone' : doneOut (s.at_ x.ts) x.string (rxSource x) (fragmentOf d).object = false := hdone
  have hfind' : (((s.at_ x.ts).forg (brickInst x.string (rxSource x))).ups.find? fun u => u.object == (fragmentOf d).object) = none := hfind
  have hexec : exec (.bulkUp x.toRxMeta x.psdu) s = execBulkUp x.toRxMeta x.psdu s := rfl
  rw [Completes, hexec, execBulkUp, if_neg (by rw [hears_guard ⟨hup, hruns, hport⟩]; decide), rxRead_at, hread]
  dsimp only
  rw [if_neg (by rw [henr']; decide), if_neg (by rw [hok']; decide), if_neg (by rw [hdone']; decide), hfind', if_pos (by simpa using hmany)]
  refine ⟨_, rfl, ?_, fun j hj' => ?_, by simp +decide⟩
  · rw [State.forg_updForg, if_pos ⟨rfl, hj⟩]
    exact ⟨_, List.mem_cons_self, rfl, rfl, rfl⟩
  · rw [State.forg_updForg, if_neg fun h => hj' h.1.symm]
    rfl

theorem bulkUp_rejected : ∀ x d s, s.up = true → linkRuns s x.string = true → (s.link x.string).port = 0 → rxRead s 5 x = .ok d →
    enrolled s x.string (rxSource x) = true → fragBad (s.forg (brickInst x.string (rxSource x))) (fragmentOf d) = true →
    Completes (.bulkUp x.toRxMeta x.psdu) s fun t =>
      t.links = (countDiscard x.string 0 s).links ∧ t.recorder = (State.raiseRound 0x2008 (brickInst x.string (rxSource x)) (s.at_ x.ts)).recorder ∧
      keepsBut [.time, .links, .recorder] s t := by
  intro x d s hup hruns hport hread henr hbad
  have henr' : enrolled (s.at_ x.ts) x.string (rxSource x) = true := henr
  have hbad' : fragBad ((s.at_ x.ts).forg (brickInst x.string (rxSource x))) (fragmentOf d) = true := hbad
  refine ⟨(countDiscard x.string 0 (s.at_ x.ts)).raiseRound 0x2008 (brickInst x.string (rxSource x)), ?_, rfl, rfl, by simp +decide⟩
  show execBulkUp x.toRxMeta x.psdu s = _
  rw [execBulkUp, if_neg (by rw [hears_guard ⟨hup, hruns, hport⟩]; decide), rxRead_at, hread]
  exact (if_neg (by rw [henr']; decide)).trans (if_pos hbad')

theorem bulkUp_whole : ∀ x d s, s.up = true → linkRuns s x.string = true → (s.link x.string).port = 0 → rxRead s 5 x = .ok d → x.string < 4 → rxSource x < 36 → s.forgs.length = 144 → s.links.length = 4 →
    enrolled s x.string (rxSource x) = true → fragBad (s.forg (brickInst x.string (rxSource x))) (fragmentOf d) = false →
    (doneOut s x.string (rxSource x) (fragmentOf d).object = true → exec (.bulkUp x.toRxMeta x.psdu) s = .next (s.at_ x.ts)) ∧
    (doneOut s x.string (rxSource x) (fragmentOf d).object = false → (∀ u ∈ (s.forg (brickInst x.string (rxSource x))).ups, u.object ≠ (fragmentOf d).object) → fragments (fragmentOf d).total = 1 →
      Completes (.bulkUp x.toRxMeta x.psdu) s fun t =>
        (∀ u ∈ (t.forg (brickInst x.string (rxSource x))).ups, u.object ≠ (fragmentOf d).object) ∧
        (∃ c ∈ (t.link x.string).cmds, c.id = 0x0C ∧ c.target = rxSource x ∧ c.params = [(fragmentOf d).object]) ∧
        (∀ j, j ≠ brickInst x.string (rxSource x) → t.forg j = s.forg j)) := by
  intro x d s hup hruns hport hread hx hb hlen hlinks henr hok
  have hj : brickInst x.string (rxSource x) < s.forgs.length := by rw [hlen]; exact brickInst_lt hx hb
  have henr' : enrolled (s.at_ x.ts) x.string (rxSource x) = true := henr
  have hok' : fragBad ((s.at_ x.ts).forg (brickInst x.string (rxSource x))) (fragmentOf d) = false := hok
  have hexec : exec (.bulkUp x.toRxMeta x.psdu) s = execBulkUp x.toRxMeta x.psdu s := rfl
  refine ⟨fun hdone => ?_, fun hdone hnone hone => ?_⟩
  · have hdone' : doneOut (s.at_ x.ts) x.string (rxSource x) (fragmentOf d).object = true := hdone
    rw [hexec, execBulkUp, if_neg (by rw [hears_guard ⟨hup, hruns, hport⟩]; decide), rxRead_at, hread]
    dsimp only
    rw [if_neg (by rw [henr']; decide), if_neg (by rw [hok']; decide), if_pos hdone']
  · have hdone' : doneOut (s.at_ x.ts) x.string (rxSource x) (fragmentOf d).object = false := hdone
    have hfind' : (((s.at_ x.ts).forg (brickInst x.string (rxSource x))).ups.find? fun u => u.object == (fragmentOf d).object) = none := by
      rw [List.find?_eq_none]
      intro u hu
      simpa using hnone u hu
    rw [Completes, hexec, execBulkUp, if_neg (by rw [hears_guard ⟨hup, hruns, hport⟩]; decide), rxRead_at, hread]
    dsimp only
    rw [if_neg (by rw [henr']; decide), if_neg (by rw [hok']; decide), if_neg (by rw [hdone']; decide), hfind', if_neg (by simp [hone])]
    refine ⟨_, rfl, ?_⟩
    have hxl : x.string < (State.updForg (brickInst x.string (rxSource x)) (fun f => { f with ups := f.ups.filter (·.object != (fragmentOf d).object) }) (s.at_ x.ts)).links.length := by
      show x.string < s.links.length
      omega
    have hforg := keepsTransfers_queueCmd x.string (brickInst x.string (rxSource x)) x.string 0x0C (rxSource x) [(fragmentOf d).object]
      (State.updForg (brickInst x.string (rxSource x)) (fun f => { f with ups := f.ups.filter (·.object != (fragmentOf d).object) }) (s.at_ x.ts))
    have hcmd := mem_queueCmd 0x0C (rxSource x) [(fragmentOf d).object] hxl
    obtain ⟨hother, hups, -⟩ := hforg
    have hdel : ∀ t, keepsTransfers x.string (brickInst x.string (rxSource x)) (queueCmd x.string 0x0C (rxSource x) [(fragmentOf d).object]
        (State.updForg (brickInst x.string (rxSource x)) (fun f => { f with ups := f.ups.filter (·.object != (fragmentOf d).object) }) (s.at_ x.ts))) t →
        (∀ u ∈ (t.forg (brickInst x.string (rxSource x))).ups, u.object ≠ (fragmentOf d).object) ∧
        (∃ c ∈ (t.link x.string).cmds, c.id = 0x0C ∧ c.target = rxSource x ∧ c.params = [(fragmentOf d).object]) ∧
        (∀ j, j ≠ brickInst x.string (rxSource x) → t.forg j = s.forg j) := by
      rintro t ⟨hother', hups', hcmds'⟩
      refine ⟨fun u hu => ?_, ?_, fun k hk => (hother' k hk).trans ((hother k hk).trans ?_)⟩
      · rw [hups', hups, State.forg_updForg, if_pos ⟨rfl, hj⟩] at hu
        simpa using (List.mem_filter.1 hu).2
      · obtain ⟨c, hc, hkind⟩ := hcmd
        exact ⟨c, hcmds' c hc, hkind⟩
      · rw [State.forg_updForg, if_neg fun h => hk h.1.symm]
        rfl
    split
    · exact hdel _ (keepsTransfers_updForg _ _ (by intro; rfl) _)
    · exact hdel _ (keepsTransfers_owResult ..)
    · exact hdel _ (keepsTransfers_diagRecord ..)

theorem bulkDownSlot_sends : ∀ t (n : Fin 4) (k : Fin 5) d s, s.up = true → (s.link n.val).port = 0 → ((s.link n.val).bulk.getD k.val {}).dir = 2 →
    s.frameStart + 9000000 + 200000 * k.val ≤ t → t < s.frameStart + 9000000 + 200000 * k.val + 200000 → cool s d.object = true →
    ((s.link n.val).down.find? fun d => d.id == ((s.link n.val).bulk.getD k.val {}).arg) = some d → lowestDown s n.val d < d.total →
    Completes (.bulkDownSlot t n k) s fun r =>
      r.out = Output.spami n.val (44 + k.val) (bulkPsdu s n.val (44 + k.val) d.id d.object (lowestDown s n.val d) d.bytes (imageFragment s.upd (lowestDown s n.val d))) :: s.out ∧
      keepsBut [.time, .out] s r := by
  intro t n k d s hup hport hdir hlo hhi hcool hfind hleft
  have hcool' : cool (s.at_ t) d.object = true := hcool
  have hslot : inSlot (9000000 + 200000 * k.val) t (s.at_ t) = true := by
    have hfs : (s.at_ t).frameStart = s.frameStart := rfl
    simp only [inSlot, hfs, Bool.and_eq_true, decide_eq_true_eq]
    omega
  refine ⟨(s.at_ t).send (.spami n.val (44 + k.val) (bulkPsdu (s.at_ t) n.val (44 + k.val) d.id d.object (lowestDown (s.at_ t) n.val d) d.bytes
    (imageFragment (s.at_ t).upd (lowestDown (s.at_ t) n.val d)))), ?_, rfl, by simp +decide⟩
  show execBulkDownSlot t n k s = _
  simp only [execBulkDownSlot, at_link, hfind, at_up, hup, hdir, hport, hcool', hslot, beq_self_eq_true, Bool.and_self, if_true]
  exact if_pos hleft

/-- Settles O8: by the rule of each frame, and the closing of each reading at the deadline. -/
theorem foragerUplinks : Obligations.ForagerUplinks :=
  ⟨uplink_held, uplink_discarded, uplink_late, uplinkDeadline_closes, joinRequest_waits, joinRequest_mic, joinRequest_discarded, bulkUp_held, bulkUp_rejected, bulkUp_whole, bulkDownSlot_sends⟩

end Sys2Proof.Machine
end

section
/-!
PROOF. ForagerDeadlines: the commands to one brick and the deadlines of its transfers, tests and bursts.
-/
namespace Sys2Proof.Machine

/-! ### Commands to one brick -/

/-- A step that touches one forager and one link only, and lets no command go that waits there. -/
def onBrick (n j : Nat) (s t : State) : Prop :=
  t.forgs.length = s.forgs.length ∧ t.links.length = s.links.length ∧ (∀ k, k ≠ j → t.forg k = s.forg k) ∧ (∀ m, m ≠ n → t.link m = s.link m) ∧
    ∀ c ∈ (s.link n).cmds, c ∈ (t.link n).cmds

/-- A command of a kind, target and parameters waits in the link of string n. -/
def waits (n id target : Nat) (ps : List Nat) (s : State) : Prop := ∃ c ∈ (s.link n).cmds, c.id = id ∧ c.target = target ∧ c.params = ps

theorem onBrick_refl (n j : Nat) (s : State) : onBrick n j s s := ⟨rfl, rfl, fun _ _ => rfl, fun _ _ => rfl, fun _ h => h⟩

theorem onBrick_trans {n j : Nat} {s t u : State} (h1 : onBrick n j s t) (h2 : onBrick n j t u) : onBrick n j s u := by
  obtain ⟨hf1, hl1, hforg1, hlink1, hc1⟩ := h1
  obtain ⟨hf2, hl2, hforg2, hlink2, hc2⟩ := h2
  exact ⟨hf2.trans hf1, hl2.trans hl1, fun k hk => (hforg2 k hk).trans (hforg1 k hk), fun m hm => (hlink2 m hm).trans (hlink1 m hm), fun c hc => hc2 c (hc1 c hc)⟩

theorem waits_of_onBrick {n j : Nat} {s t : State} (h : onBrick n j s t) {id target : Nat} {ps : List Nat} (hw : waits n id target ps s) : waits n id target ps t := by
  obtain ⟨-, -, -, -, hcmds⟩ := h
  obtain ⟨c, hc, hkind⟩ := hw
  exact ⟨c, hcmds c hc, hkind⟩

theorem onBrick_updForg (n j : Nat) (f : Forager → Forager) (s : State) : onBrick n j s (s.updForg j f) :=
  ⟨length_updAt _ _ _, rfl, fun k hk => by rw [State.forg_updForg, if_neg fun h => hk h.1.symm], fun _ _ => rfl, fun _ h => h⟩

theorem onBrick_queueCmd (n j id target : Nat) (ps : List Nat) (s : State) : onBrick n j s (queueCmd n id target ps s) := by
  have hkeep : keepsBut [.links, .tagCtr] s (queueCmd n id target ps s) := by simp +decide
  obtain ⟨-, -, hcmds⟩ := keepsTransfers_queueCmd n j n id target ps s
  refine ⟨by rw [hkeep .forgs (by decide)], ?_, fun k _ => forg_of_keepsBut hkeep (by decide) k, fun m hm => link_queueCmd_of_ne hm.symm .., hcmds⟩
  unfold queueCmd
  split
  · rfl
  · exact length_updAt _ _ _

theorem queueCmd_forg (n id target : Nat) (ps : List Nat) (s : State) (j : Nat) : (queueCmd n id target ps s).forg j = s.forg j :=
  forg_of_keepsBut (show keepsBut [.links, .tagCtr] s (queueCmd n id target ps s) by simp +decide) (by decide) j

theorem queueCmd_down (n id target : Nat) (ps : List Nat) (s : State) (m : Nat) : ((queueCmd n id target ps s).link m).down = (s.link m).down := by
  rw [link_queueCmd]

/-! ### Transfers abandoned -/

/-- An up transfer abandoned (R109). -/
def abandonUp (n b : Nat) (u : UpXfer) (s : State) : State :=
  (queueCmd n 0x0B b [u.object] (s.updForg (brickInst n b) fun f => { f with ups := f.ups.filter (·.object != u.object) })).raise 0x200C (brickInst n b)

theorem onBrick_abandonUp (n b : Nat) (u : UpXfer) (s : State) : onBrick n (brickInst n b) s (abandonUp n b u s) :=
  onBrick_trans (onBrick_updForg _ _ _ s) (onBrick_queueCmd n (brickInst n b) 0x0B b [u.object] _)

theorem abandonUps_facts (n b : Nat) (l : List UpXfer) (s : State) (hj : brickInst n b < s.forgs.length) (hn : n < s.links.length) :
    onBrick n (brickInst n b) s (forEach l (abandonUp n b) s) ∧ (∀ m, ((forEach l (abandonUp n b) s).link m).down = (s.link m).down) ∧
    (∀ v ∈ ((forEach l (abandonUp n b) s).forg (brickInst n b)).ups, v ∈ (s.forg (brickInst n b)).ups ∧ ∀ u ∈ l, v.object ≠ u.object) ∧
    ∀ u ∈ l, waits n 0x0B b [u.object] (forEach l (abandonUp n b) s) := by
  induction l generalizing s with
  | nil => exact ⟨onBrick_refl .., fun _ => rfl, fun v hv => ⟨hv, by simp⟩, by simp⟩
  | cons u l ih =>
    have h1 := onBrick_abandonUp n b u s
    obtain ⟨hf1, hl1, -⟩ := id h1
    obtain ⟨h2, hdown, hups, hwaits⟩ := ih (abandonUp n b u s) (by rw [hf1]; exact hj) (by rw [hl1]; exact hn)
    have hw1 : waits n 0x0B b [u.object] (abandonUp n b u s) := mem_queueCmd 0x0B b [u.object] (by exact hn)
    refine ⟨onBrick_trans h1 h2, fun m => (hdown m).trans (queueCmd_down ..), fun v hv => ?_, fun w hw => ?_⟩
    · obtain ⟨hv, hne⟩ := hups v hv
      have hups1 : ((abandonUp n b u s).forg (brickInst n b)).ups = (s.forg (brickInst n b)).ups.filter (·.object != u.object) := by
        show ((queueCmd n 0x0B b [u.object] _).forg _).ups = _
        rw [queueCmd_forg, State.forg_updForg, if_pos ⟨rfl, hj⟩]
      rw [hups1, List.mem_filter] at hv
      refine ⟨hv.1, fun w hw => ?_⟩
      rcases List.mem_cons.1 hw with rfl | hw
      · simpa using hv.2
      · exact hne w hw
    · rcases List.mem_cons.1 hw with rfl | hw
      · exact waits_of_onBrick h2 hw1
      · exact hwaits w hw

/-- A down transfer abandoned for one brick (R109). -/
def abandonDown (n b : Nat) (d : DownXfer) (s : State) : State :=
  ((queueCmd n 0x0B b [d.id] (dropDown n d.id b s)).updForg (brickInst n b) fun f => { f with stageTries := f.stageTries + 1, staging := 0 }).raise 0x200C (brickInst n b)

/-- No down transfer of an id goes to brick b. -/
def notDown (n b id : Nat) (s : State) : Prop := ∀ e ∈ (s.link n).down, e.id = id → e.target ≠ b ∧ e.progress.lookup b = none

theorem lookup_filter_ne {β : Type} (l : List (Nat × β)) (b : Nat) : (l.filter (·.1 != b)).lookup b = none := by
  rw [List.lookup_eq_none_iff]
  intro p hp
  have := (List.mem_filter.1 hp).2
  simp only [bne_iff_ne, ne_eq] at this
  simpa using fun h => this h.symm

theorem lookup_filter_none {β : Type} {l : List (Nat × β)} {b : Nat} (h : l.lookup b = none) (p : Nat × β → Bool) : (l.filter p).lookup b = none := by
  rw [List.lookup_eq_none_iff] at h ⊢
  exact fun q hq => h q (List.mem_filter.1 hq).1

theorem dropDown_down {n : Nat} (id b : Nat) {s : State} (hn : n < s.links.length) {e : DownXfer} (he : e ∈ ((dropDown n id b s).link n).down) :
    ∃ d ∈ (s.link n).down, e.id = d.id ∧ e.target = d.target ∧ (d.id ≠ id → e = d) ∧ (d.id = id → e.target ≠ b ∧ e.progress = d.progress.filter (·.1 != b)) := by
  rw [dropDown, State.link_updLink, if_pos ⟨rfl, hn⟩] at he
  obtain ⟨he, hstays⟩ := List.mem_filter.1 he
  obtain ⟨d, hd, rfl⟩ := List.mem_map.1 he
  refine ⟨d, hd, ?_⟩
  by_cases hid : d.id = id
  · have hid' : (d.id == id) = true := by simpa using hid
    simp only [hid', if_true] at hstays ⊢
    simp only [Bool.true_and, Bool.not_eq_true', Bool.or_eq_false_iff, beq_eq_false_iff_ne] at hstays
    exact ⟨trivial, trivial, fun h => absurd hid h, fun _ => ⟨hstays.1, trivial⟩⟩
  · have hid' : (d.id == id) = false := by simpa using hid
    simp only [hid', Bool.false_eq_true, if_false]
    exact ⟨trivial, trivial, fun _ => trivial, fun h => absurd h hid⟩

theorem abandonDown_down (n b : Nat) (d : DownXfer) (s : State) : ((abandonDown n b d s).link n).down = ((dropDown n d.id b s).link n).down := queueCmd_down ..

theorem notDown_abandonDown {n b : Nat} (d : DownXfer) {s : State} (hn : n < s.links.length) :
    notDown n b d.id (abandonDown n b d s) ∧ ∀ id, notDown n b id s → notDown n b id (abandonDown n b d s) := by
  refine ⟨fun e he hid => ?_, fun id h e he hid => ?_⟩
  · rw [abandonDown_down] at he
    obtain ⟨d', -, hid', -, -, hdrop⟩ := dropDown_down d.id b hn he
    obtain ⟨htarget, hprogress⟩ := hdrop (hid'.symm.trans hid)
    exact ⟨htarget, by rw [hprogress]; exact lookup_filter_ne _ _⟩
  · rw [abandonDown_down] at he
    obtain ⟨d', hd', hid', htarget, hsame, hdrop⟩ := dropDown_down d.id b hn he
    obtain ⟨ht, hp⟩ := h d' hd' (hid'.symm.trans hid)
    refine ⟨by rw [htarget]; exact ht, ?_⟩
    by_cases hdid : d'.id = d.id
    · rw [(hdrop hdid).2]
      exact lookup_filter_none hp _
    · rw [hsame hdid]
      exact hp

theorem onBrick_abandonDown (n b : Nat) (d : DownXfer) (s : State) : onBrick n (brickInst n b) s (abandonDown n b d s) := by
  have hdrop : onBrick n (brickInst n b) s (dropDown n d.id b s) := by
    refine ⟨rfl, length_updAt _ _ _, fun _ _ => rfl, fun m hm => ?_, fun c hc => ?_⟩
    · rw [dropDown, State.link_updLink, if_neg fun h => hm h.1.symm]
    · rw [dropDown, State.link_updLink]
      split
      · exact hc
      · exact hc
  exact onBrick_trans hdrop (onBrick_trans (onBrick_queueCmd n (brickInst n b) 0x0B b [d.id] _) (onBrick_updForg _ _ _ _))

theorem abandonDowns_facts (n b : Nat) (l : List DownXfer) (s : State) (hn : n < s.links.length) :
    onBrick n (brickInst n b) s (forEach l (abandonDown n b) s) ∧ (∀ j, ((forEach l (abandonDown n b) s).forg j).ups = (s.forg j).ups) ∧
    (∀ d ∈ l, waits n 0x0B b [d.id] (forEach l (abandonDown n b) s) ∧ notDown n b d.id (forEach l (abandonDown n b) s)) ∧
    ∀ id, notDown n b id s → notDown n b id (forEach l (abandonDown n b) s) := by
  induction l generalizing s with
  | nil => exact ⟨onBrick_refl .., fun _ => rfl, by simp, fun _ h => h⟩
  | cons d l ih =>
    have h1 := onBrick_abandonDown n b d s
    obtain ⟨-, hl1, -⟩ := id h1
    obtain ⟨h2, hups, hgone, hstays⟩ := ih (abandonDown n b d s) (by rw [hl1]; exact hn)
    obtain ⟨hdrop, hkept⟩ := notDown_abandonDown (b := b) d hn
    have hw1 : waits n 0x0B b [d.id] (abandonDown n b d s) := mem_queueCmd 0x0B b [d.id] (s := dropDown n d.id b s) (by
      show n < (updAt s.links n _).length
      rw [length_updAt]
      exact hn)
    refine ⟨onBrick_trans h1 h2, fun j => (hups j).trans ?_, fun e he => ?_, fun id h => hstays id (hkept id h)⟩
    · show (State.forg (State.updForg _ _ _) j).ups = _
      rw [State.forg_updForg, queueCmd_forg]
      split
      · rfl
      · rfl
    · rcases List.mem_cons.1 he with rfl | he
      · exact ⟨waits_of_onBrick h2 hw1, hstays _ hdrop⟩
      · exact hgone e he

/-- The up transfers of a brick whose time is over. -/
def lateUps (n b : Nat) (s : State) : List UpXfer := (s.forg (brickInst n b)).ups.filter fun u => decide (u.granted + s.parN .linkBulkTimeout ≤ s.time.frame)

/-- The down transfers to a brick that made no progress in time. -/
def stuckDowns (n b : Nat) (s : State) : List DownXfer := (s.link n).down.filter fun d =>
  match d.progress.lookup b with
  | some f => decide (f + s.parN .linkBulkTimeout ≤ s.time.frame) && decide ((d.acked.lookup b).getD 0 < d.total)
  | none => false

theorem execBulkTransferTimeout_eq (t : Nat) (n : Fin 4) (b : Fin 36) (s : State) (hup : s.up = true) : exec (.bulkTransferTimeout t n b) s =
    .next (forEach (stuckDowns n.val b.val s) (abandonDown n.val b.val)
      (forEach (lateUps n.val b.val s) (abandonUp n.val b.val) (s.at_ t))) := by
  have hexec : exec (.bulkTransferTimeout t n b) s = execBulkTransferTimeout t n b s := rfl
  rw [hexec, execBulkTransferTimeout, if_neg (by rw [at_up, hup]; decide)]
  rfl

/-! ### Open-wire tests -/

theorem tryTest_of_out {n b : Nat} (k : Nat) {s : State} {o : WireTest} (h : (s.forg (brickInst n b)).owTest = some o) : tryTest n b k s = s := by
  unfold tryTest
  dsimp only
  rw [h]

theorem forEach_tryTest_of_out {n b : Nat} (l : List Nat) {s : State} {o : WireTest} (h : (s.forg (brickInst n b)).owTest = some o) : forEach l (tryTest n b) s = s := by
  induction l with
  | nil => rfl
  | cons k l ih => exact (congrArg (forEach l (tryTest n b)) (tryTest_of_out k h)).trans ih

theorem wires_updWire (k i : Nat) (g : Wire → Wire) (f : Forager) : (updWire k g f).wires.getD i {} = if k = i ∧ i < f.wires.length then g (f.wires.getD i {}) else f.wires.getD i {} :=
  getD_updAt ..

/-- A test sent while none is out. -/
theorem tryTest_sends {n b k : Nat} {s : State} (hj : brickInst n b < s.forgs.length) (hn : n < s.links.length) (hnone : (s.forg (brickInst n b)).owTest = none) :
    onBrick n (brickInst n b) s (tryTest n b k s) ∧
    (tryTest n b k s).forg (brickInst n b) = { updWire k (fun w => { w with retryAt := none }) (s.forg (brickInst n b)) with owTest := some { wire := k, endFrame := none } } ∧
    waits n 4 b [2 ^ testCell k, s.parN .cellOwDuration] (tryTest n b k s) := by
  unfold tryTest
  extract_lets j
  rw [hnone]
  refine ⟨onBrick_trans (onBrick_updForg _ _ _ s) (onBrick_queueCmd ..), ?_, mem_queueCmd _ _ _ (by exact hn)⟩
  rw [queueCmd_forg, State.forg_updForg, if_pos ⟨rfl, hj⟩]

/-- What a test without a result leaves in its wire (R149). -/
def timedOutWire (s : State) (w : Wire) : Wire := { w with st := if w.st == 3 then 2 else w.st, retryAt := some (s.time.frame + 100 * s.parN .cellOwRetry) }

/-- Wire k is due for a repetition (R145, R148, R149). -/
def retryDue (n b : Nat) (s : State) (k : Nat) : Bool :=
  (match ((s.forg (brickInst n b)).wires.getD k {}).retryAt with | some f => decide (f ≤ s.time.frame) | none => false) &&
    (((s.forg (brickInst n b)).wires.getD k {}).ordered || (s.parB .cellOwAuto && (((s.forg (brickInst n b)).wires.getD k {}).st == 2 ||
      (((s.forg (brickInst n b)).wires.getD k {}).st == 5 && ((s.forg (brickInst n b)).wires.getD k {}).run != 0))))

theorem filter_range_head_le {m k : Nat} {p : Nat → Bool} (hk : k < m) (hp : p k = true) : ∃ w l, (List.range m).filter p = w :: l ∧ w ≤ k ∧ p w = true := by
  have hmem : k ∈ (List.range m).filter p := List.mem_filter.2 ⟨List.mem_range.2 hk, hp⟩
  have hsorted : ((List.range m).filter p).Pairwise (· < ·) := List.pairwise_lt_range.filter _
  cases hf : (List.range m).filter p with
  | nil => rw [hf] at hmem; exact absurd hmem List.not_mem_nil
  | cons w l =>
    refine ⟨w, l, rfl, ?_, ?_⟩
    · rw [hf] at hmem hsorted
      rcases List.mem_cons.1 hmem with rfl | hmem
      · exact Nat.le_refl _
      · exact Nat.le_of_lt ((List.pairwise_cons.1 hsorted).1 k hmem)
    · have : w ∈ (List.range m).filter p := by rw [hf]; exact List.mem_cons_self
      exact (List.mem_filter.1 this).2

theorem bulkTimeout_abandons : ∀ t (n : Fin 4) (b : Fin 36) s, s.up = true → s.forgs.length = 144 → s.links.length = 4 →
    Completes (.bulkTransferTimeout t n b) s fun r =>
      (∀ u ∈ (r.forg (brickInst n.val b.val)).ups, u ∈ (s.forg (brickInst n.val b.val)).ups ∧ s.time.frame < u.granted + s.parN .linkBulkTimeout) ∧
      (∀ u ∈ (s.forg (brickInst n.val b.val)).ups, u.granted + s.parN .linkBulkTimeout ≤ s.time.frame →
        ∃ c ∈ (r.link n.val).cmds, c.id = 0x0B ∧ c.target = b.val ∧ c.params = [u.object]) ∧
      (∀ d ∈ (s.link n.val).down, ∀ f, d.progress.lookup b.val = some f → f + s.parN .linkBulkTimeout ≤ s.time.frame → (d.acked.lookup b.val).getD 0 < d.total →
        (∃ c ∈ (r.link n.val).cmds, c.id = 0x0B ∧ c.target = b.val ∧ c.params = [d.id]) ∧ (∀ e ∈ (r.link n.val).down, e.id = d.id → e.target ≠ b.val ∧ e.progress.lookup b.val = none)) ∧
      (∀ j, j ≠ brickInst n.val b.val → r.forg j = s.forg j) ∧ (∀ j, j ≠ n.val → r.link j = s.link j) ∧ keepsBut [.time, .links, .forgs, .tagCtr, .recorder] s r := by
  intro t n b s hup hforgs hlinks
  have hj : brickInst n.val b.val < s.forgs.length := by rw [hforgs]; exact brickInst_lt n.isLt b.isLt
  have hn : n.val < s.links.length := by rw [hlinks]; exact n.isLt
  obtain ⟨r, hr, hframe⟩ := exec_frame (.bulkTransferTimeout t n b) s
  have hexec : exec (.bulkTransferTimeout t n b) s = execBulkTransferTimeout t n b s := rfl
  have hkeep := keepsBut_mono hframe (qs := [.time, .links, .forgs, .tagCtr, .recorder]) (by simp +decide [mayChange])
  refine ⟨r, hr, ?_⟩
  rw [execBulkTransferTimeout_eq t n b s hup] at hr
  obtain ⟨h1, hdown1, hups1, hwaits1⟩ := abandonUps_facts n.val b.val (lateUps n.val b.val s) (s.at_ t) hj hn
  obtain ⟨-, hl1, -⟩ := id h1
  generalize forEach (lateUps n.val b.val s) (abandonUp n.val b.val) (s.at_ t) = u at *
  obtain ⟨h2, hups2, hgone2, -⟩ := abandonDowns_facts n.val b.val (stuckDowns n.val b.val s) u (by rw [hl1]; exact hn)
  obtain ⟨-, -, hforg, hlink, -⟩ := onBrick_trans h1 h2
  cases hr
  refine ⟨fun v hv => ?_, fun v hv hlate => ?_, fun d hd f hf hlate hleft => ?_, hforg, hlink, hkeep⟩
  · rw [hups2] at hv
    obtain ⟨hv, hne⟩ := hups1 v hv
    refine ⟨hv, Nat.lt_of_not_le fun hlate => hne v ?_ rfl⟩
    exact List.mem_filter.2 ⟨hv, decide_eq_true hlate⟩
  · exact waits_of_onBrick h2 (hwaits1 v (List.mem_filter.2 ⟨hv, decide_eq_true hlate⟩))
  · have hmem : d ∈ stuckDowns n.val b.val s := by
      refine List.mem_filter.2 ⟨hd, ?_⟩
      rw [hf]
      simp [hlate, hleft]
    obtain ⟨hw, hnot⟩ := hgone2 d hmem
    exact ⟨hw, hnot⟩

theorem bulkTimeout_raises : ∀ t (n : Fin 4) (b : Fin 36) u s, s.up = true → (s.forg (brickInst n.val b.val)).ups = [u] → u.granted + s.parN .linkBulkTimeout ≤ s.time.frame → (s.link n.val).down = [] →
    Completes (.bulkTransferTimeout t n b) s fun r => r.recorder = (State.raise 0x200C (brickInst n.val b.val) (s.at_ t)).recorder := by
  intro t n b u s hup hups hlate hdown
  have hall : lateUps n.val b.val s = [u] := by
    rw [lateUps, hups]
    simp [hlate]
  have hstuck : stuckDowns n.val b.val s = [] := by
    rw [stuckDowns, hdown]
    rfl
  refine ⟨abandonUp n.val b.val u (s.at_ t), ?_, ?_⟩
  · rw [execBulkTransferTimeout_eq t n b s hup, hall]
    exact congrArg (fun l => Host.Outcome.next (forEach l (abandonDown n.val b.val) (abandonUp n.val b.val u (s.at_ t)))) hstuck
  · have hkeep : keepsBut [.links, .forgs, .tagCtr] (s.at_ t) (queueCmd n.val 0x0B b.val [u.object] ((s.at_ t).updForg (brickInst n.val b.val) fun f => { f with ups := f.ups.filter (·.object != u.object) })) := by
      simp +decide
    exact raise_recorder_congr (hkeep .recorder (by decide)) (by rw [hkeep .time (by decide)]) _ _

theorem bulkTimeout_waits : ∀ t (n : Fin 4) (b : Fin 36) s, (∀ u ∈ (s.forg (brickInst n.val b.val)).ups, s.time.frame < u.granted + s.parN .linkBulkTimeout) →
    (∀ d ∈ (s.link n.val).down, ∀ f, d.progress.lookup b.val = some f → s.time.frame < f + s.parN .linkBulkTimeout) →
    exec (.bulkTransferTimeout t n b) s = .next (s.at_ t) := by
  intro t n b s hups hdown
  by_cases hup : s.up = true
  · have hlate : lateUps n.val b.val s = [] := by
      rw [lateUps, List.filter_eq_nil_iff]
      intro u hu
      simpa using hups u hu
    have hstuck : stuckDowns n.val b.val s = [] := by
      rw [stuckDowns, List.filter_eq_nil_iff]
      intro d hd
      split
      next f hf =>
        have := hdown d hd f hf
        simp
        omega
      · simp
    rw [execBulkTransferTimeout_eq t n b s hup, hlate]
    exact congrArg (fun l => Host.Outcome.next (forEach l (abandonDown n.val b.val) (s.at_ t))) hstuck
  · exact if_pos (by rw [at_up, Bool.eq_false_iff.2 hup]; rfl)

theorem releaseEntry_leaves : ∀ t (n : Fin 4) (b : Fin 36) replaced u s, s.running = true → s.forgs.length = 144 → s.links.length = 4 → (s.forg (brickInst n.val b.val)).uid = some u →
    Completes (.releaseRosterEntry t n b replaced) s fun r =>
      r.forg (brickInst n.val b.val) = { s.forg (brickInst n.val b.val) with release := some replaced } ∧
      (∃ c ∈ (r.link n.val).cmds, c.id = 9 ∧ c.target = b.val ∧ c.params = [u]) ∧ (∀ j, j ≠ brickInst n.val b.val → r.forg j = s.forg j) ∧
      keepsBut [.time, .links, .forgs, .tagCtr] s r := by
  intro t n b replaced u s hrun hforgs hlinks huid
  have hj : brickInst n.val b.val < s.forgs.length := by rw [hforgs]; exact brickInst_lt n.isLt b.isLt
  have hn : n.val < s.links.length := by rw [hlinks]; exact n.isLt
  have huid' : ((s.at_ t).forg (brickInst n.val b.val)).uid = some u := huid
  refine ⟨queueCmd n.val 0x09 b.val [u] ((s.at_ t).updForg (brickInst n.val b.val) fun f => { f with release := some replaced }), ?_, ?_, mem_queueCmd _ _ _ (by exact hn), fun k hk => ?_, by simp +decide⟩
  · have hexec : exec (.releaseRosterEntry t n b replaced) s = execReleaseRosterEntry t n b replaced s := rfl
    rw [hexec, execReleaseRosterEntry, if_pos (by exact hrun)]
    simp only [cmdReleaseEntry, huid', n.isLt, b.isLt, decide_true, Bool.and_self, if_true]
    rfl
  · rw [queueCmd_forg, State.forg_updForg, if_pos ⟨rfl, hj⟩]
    rfl
  · rw [queueCmd_forg, State.forg_updForg, if_neg fun h => hk h.1.symm]
    rfl

theorem releaseEntry_free : ∀ t (n : Fin 4) (b : Fin 36) replaced s, (s.forg (brickInst n.val b.val)).uid = none → exec (.releaseRosterEntry t n b replaced) s = .next (s.at_ t) := by
  intro t n b replaced s huid
  have huid' : ((s.at_ t).forg (brickInst n.val b.val)).uid = none := huid
  have hexec : exec (.releaseRosterEntry t n b replaced) s = execReleaseRosterEntry t n b replaced s := rfl
  rw [hexec, execReleaseRosterEntry]
  split
  · simp only [cmdReleaseEntry, huid']
    rfl
  · rfl

theorem openWireTimeout_ends : ∀ t (n : Fin 4) (b : Fin 36) k e s, s.up = true → s.forgs.length = 144 → (s.forg (brickInst n.val b.val)).wires.length = 17 → k < 17 →
    (s.forg (brickInst n.val b.val)).owTest = some { wire := k, endFrame := some e } → e + 150 ≤ s.time.frame →
    Completes (.openWireResultTimeout t n b) s fun r =>
      (r.forg (brickInst n.val b.val)).owTest = none ∧ ((r.forg (brickInst n.val b.val)).wires.getD k {}).retryAt = some (s.time.frame + 100 * s.parN .cellOwRetry) ∧
      (((s.forg (brickInst n.val b.val)).wires.getD k {}).st = 3 → ((r.forg (brickInst n.val b.val)).wires.getD k {}).st = 2) ∧
      (∀ i, i ≠ k → (r.forg (brickInst n.val b.val)).wires.getD i {} = (s.forg (brickInst n.val b.val)).wires.getD i {}) ∧
      r.recorder = (State.raise 0x100E (wireArg n.val b.val k) (s.at_ t)).recorder ∧ (∀ j, j ≠ brickInst n.val b.val → r.forg j = s.forg j) ∧
      keepsBut [.time, .forgs, .recorder] s r := by
  intro t n b k e s hup hforgs hwires hk hout hlate
  have hj : brickInst n.val b.val < s.forgs.length := by rw [hforgs]; exact brickInst_lt n.isLt b.isLt
  have hout' : ((s.at_ t).forg (brickInst n.val b.val)).owTest = some { wire := k, endFrame := some e } := hout
  have hlate' : ((s.at_ t).up && decide (e + 150 ≤ (s.at_ t).time.frame)) = true := by
    rw [at_up, hup]
    exact decide_eq_true hlate
  have hexec : exec (.openWireResultTimeout t n b) s = execOpenWireResultTimeout t n b s := rfl
  have hforg : (testTimeout n.val b.val (s.at_ t)).forg (brickInst n.val b.val) = { updWire k (timedOutWire s) (s.forg (brickInst n.val b.val)) with owTest := none } := by
    simp only [testTimeout, hout']
    show (State.updForg _ _ _).forg _ = _
    rw [State.forg_updForg, if_pos ⟨rfl, hj⟩]
    rfl
  have hwire : ∀ i, ((testTimeout n.val b.val (s.at_ t)).forg (brickInst n.val b.val)).wires.getD i {} =
      if k = i ∧ i < 17 then timedOutWire s ((s.forg (brickInst n.val b.val)).wires.getD i {}) else (s.forg (brickInst n.val b.val)).wires.getD i {} := fun i => by
    rw [hforg, ← hwires]
    exact wires_updWire k i (timedOutWire s) (s.forg (brickInst n.val b.val))
  refine ⟨testTimeout n.val b.val (s.at_ t), ?_, by rw [hforg], ?_, fun hst => ?_, fun i hi => ?_, ?_, fun j hj' => ?_, by simp +decide⟩
  · rw [hexec, execOpenWireResultTimeout]
    simp only [hout']
    exact if_pos hlate'
  · rw [hwire, if_pos ⟨rfl, hk⟩]
    rfl
  · rw [hwire, if_pos ⟨rfl, hk⟩, timedOutWire, hst]
    rfl
  · rw [hwire, if_neg fun h => hi h.1.symm]
  · simp only [testTimeout, hout']
    exact raise_recorder_congr rfl rfl _ _
  · simp only [testTimeout, hout']
    show (State.updForg _ _ _).forg _ = _
    rw [State.forg_updForg, if_neg fun h => hj' h.1.symm]
    rfl

theorem openWireTimeout_waits : ∀ t (n : Fin 4) (b : Fin 36) k e s, (s.forg (brickInst n.val b.val)).owTest = some { wire := k, endFrame := some e } → s.time.frame < e + 150 →
    exec (.openWireResultTimeout t n b) s = .next (s.at_ t) := by
  intro t n b k e s hout hearly
  have hout' : ((s.at_ t).forg (brickInst n.val b.val)).owTest = some { wire := k, endFrame := some e } := hout
  have hexec : exec (.openWireResultTimeout t n b) s = execOpenWireResultTimeout t n b s := rfl
  have hearly' : decide (e + 150 ≤ (s.at_ t).time.frame) = false := decide_eq_false (Nat.not_le.2 hearly)
  rw [hexec, execOpenWireResultTimeout]
  simp only [hout']
  exact if_neg (by rw [hearly', Bool.and_false]; decide)

theorem openWireRetry_sends : ∀ t (n : Fin 4) (b : Fin 36) k f s, s.up = true → s.forgs.length = 144 → s.links.length = 4 → (s.forg (brickInst n.val b.val)).wires.length = 17 → k < 17 →
    (s.forg (brickInst n.val b.val)).owTest = none → ((s.forg (brickInst n.val b.val)).wires.getD k {}).retryAt = some f → f ≤ s.time.frame →
    (((s.forg (brickInst n.val b.val)).wires.getD k {}).st = 2 ∧ s.parB .cellOwAuto = true ∨ ((s.forg (brickInst n.val b.val)).wires.getD k {}).ordered = true) →
    Completes (.openWireRetry t n b) s fun r =>
      (∃ w, w ≤ k ∧ (r.forg (brickInst n.val b.val)).owTest = some { wire := w, endFrame := none } ∧ ((r.forg (brickInst n.val b.val)).wires.getD w {}).retryAt = none ∧
        ∃ c ∈ (r.link n.val).cmds, c.id = 4 ∧ c.target = b.val ∧ c.params = [2 ^ testCell w, s.parN .cellOwDuration]) ∧
      (∀ j, j ≠ brickInst n.val b.val → r.forg j = s.forg j) ∧ keepsBut [.time, .links, .forgs, .tagCtr] s r := by
  intro t n b k f s hup hforgs hlinks hwires hk hnone hat hdue hwhy
  have hj : brickInst n.val b.val < s.forgs.length := by rw [hforgs]; exact brickInst_lt n.isLt b.isLt
  have hn : n.val < s.links.length := by rw [hlinks]; exact n.isLt
  obtain ⟨w, l, hlist, hwk, -⟩ := filter_range_head_le (p := retryDue n.val b.val s) hk (by
    rw [retryDue, hat]
    rcases hwhy with ⟨hst, hauto⟩ | hord
    · rw [hst, hauto]
      simp [hdue]
    · rw [hord]
      simp [hdue])
  obtain ⟨hone, hforg, hsent⟩ := tryTest_sends (k := w) (s := s.at_ t) hj hn hnone
  obtain ⟨-, -, hother, -⟩ := hone
  have hexec : exec (.openWireRetry t n b) s = execOpenWireRetry t n b s := rfl
  refine ⟨tryTest n.val b.val w (s.at_ t), ?_, ⟨w, hwk, by rw [hforg], ?_, hsent⟩, hother, by simp +decide⟩
  · rw [hexec, execOpenWireRetry, if_pos (by rw [at_up, hup])]
    have houtput : forEach (w :: l) (tryTest n.val b.val) (s.at_ t) = tryTest n.val b.val w (s.at_ t) :=
      forEach_tryTest_of_out (o := { wire := w, endFrame := none }) l (by rw [hforg])
    exact congrArg Host.Outcome.next ((congrArg (fun l => forEach l (tryTest n.val b.val) (s.at_ t)) hlist).trans houtput)
  · have hwire := wires_updWire w w (fun w => { w with retryAt := none }) (s.forg (brickInst n.val b.val))
    rw [hforg]
    show ((updWire w (fun w => { w with retryAt := none }) (s.forg (brickInst n.val b.val))).wires.getD w {}).retryAt = none
    rw [hwire, if_pos ⟨rfl, by omega⟩]

theorem openWireRetry_waits : ∀ t (n : Fin 4) (b : Fin 36) s, (∀ w ∈ (s.forg (brickInst n.val b.val)).wires, ∀ f, w.retryAt = some f → s.time.frame < f) → exec (.openWireRetry t n b) s = .next (s.at_ t) := by
  intro t n b s hwait
  have hexec : exec (.openWireRetry t n b) s = execOpenWireRetry t n b s := rfl
  have hnone : (List.range 17).filter (retryDue n.val b.val s) = [] := by
    rw [List.filter_eq_nil_iff]
    intro k _
    have hk : ∀ f, ((s.forg (brickInst n.val b.val)).wires.getD k {}).retryAt = some f → s.time.frame < f := by
      intro f hf
      rw [List.getD_eq_getElem?_getD] at hf
      cases hw : (s.forg (brickInst n.val b.val)).wires[k]? with
      | none => rw [hw] at hf; cases hf
      | some w =>
        rw [hw] at hf
        exact hwait w (List.mem_of_getElem? hw) f hf
    rw [retryDue]
    split
    next f hf => simp [hk f hf]
    next => simp
  rw [hexec, execOpenWireRetry]
  split
  · exact congrArg (fun l => Host.Outcome.next (forEach l (tryTest n.val b.val) (s.at_ t))) hnone
  · rfl

theorem openWireTest_orders : ∀ t (n : Fin 4) (b : Fin 36) (k : Fin 17) s, s.running = true → s.forgs.length = 144 → s.links.length = 4 → enrolled s n.val b.val = true →
    (s.forg (brickInst n.val b.val)).wires.length = 17 →
    Completes (.openWireTest t n b k) s fun r =>
      ((r.forg (brickInst n.val b.val)).wires.getD k.val {}).ordered = true ∧
      ((s.forg (brickInst n.val b.val)).owTest = none → (r.forg (brickInst n.val b.val)).owTest = some { wire := k.val, endFrame := none } ∧
        ∃ c ∈ (r.link n.val).cmds, c.id = 4 ∧ c.target = b.val ∧ c.params = [2 ^ testCell k.val, s.parN .cellOwDuration]) ∧
      (∀ o, (s.forg (brickInst n.val b.val)).owTest = some o → (r.forg (brickInst n.val b.val)).owTest = some o ∧ r.links = s.links) ∧
      (∀ j, j ≠ brickInst n.val b.val → r.forg j = s.forg j) ∧ keepsBut [.time, .links, .forgs, .tagCtr] s r := by
  intro t n b k s hrun hforgs hlinks henr hwires
  have hj : brickInst n.val b.val < s.forgs.length := by rw [hforgs]; exact brickInst_lt n.isLt b.isLt
  have hn : n.val < s.links.length := by rw [hlinks]; exact n.isLt
  have hexec : exec (.openWireTest t n b k) s = execOpenWireTest t n b k s := rfl
  have henr' : enrolled (s.at_ t) n.val b.val = true := henr
  have hk : k.val ≤ 16 := by omega
  have hforg : ((s.at_ t).updForg (brickInst n.val b.val) (updWire k.val fun w => { w with ordered := true, retryAt := none })).forg (brickInst n.val b.val) =
      updWire k.val (fun w => { w with ordered := true, retryAt := none }) (s.forg (brickInst n.val b.val)) := by
    rw [State.forg_updForg, if_pos ⟨rfl, hj⟩]
    rfl
  have hwire := wires_updWire k.val k.val (fun w => { w with ordered := true, retryAt := none }) (s.forg (brickInst n.val b.val))
  rw [if_pos ⟨rfl, by omega⟩] at hwire
  have h1 : onBrick n.val (brickInst n.val b.val) s ((s.at_ t).updForg (brickInst n.val b.val) (updWire k.val fun w => { w with ordered := true, retryAt := none })) :=
    onBrick_updForg _ _ _ (s.at_ t)
  have hlen : brickInst n.val b.val < ((s.at_ t).updForg (brickInst n.val b.val) (updWire k.val fun w => { w with ordered := true, retryAt := none })).forgs.length := by
    obtain ⟨hf, -⟩ := id h1
    rw [hf]
    exact hj
  have hout : (updWire k.val (fun w => { w with ordered := true, retryAt := none }) (s.forg (brickInst n.val b.val))).owTest = (s.forg (brickInst n.val b.val)).owTest := rfl
  have hkeep : keepsBut [.time, .links, .forgs, .tagCtr] s (orderTest n.val b.val k.val (s.at_ t)) := by simp +decide
  have hanswer : exec (.openWireTest t n b k) s = .next (orderTest n.val b.val k.val (s.at_ t)) := by
    rw [hexec, execOpenWireTest, if_pos (by exact hrun)]
    simp only [cmdOpenWire, n.isLt, b.isLt, hk, henr', decide_true, Bool.and_self, if_true]
    rfl
  refine ⟨orderTest n.val b.val k.val (s.at_ t), hanswer, ?_⟩
  unfold orderTest at hkeep ⊢
  have hpar : State.parN ((s.at_ t).updForg (brickInst n.val b.val) (updWire k.val fun w => { w with ordered := true, retryAt := none })) .cellOwDuration = s.parN .cellOwDuration := rfl
  have hlinks : State.links ((s.at_ t).updForg (brickInst n.val b.val) (updWire k.val fun w => { w with ordered := true, retryAt := none })) = s.links := rfl
  generalize (s.at_ t).updForg (brickInst n.val b.val) (updWire k.val fun w => { w with ordered := true, retryAt := none }) = u at *
  rcases hnone : (s.forg (brickInst n.val b.val)).owTest with - | o
  case none =>
    obtain ⟨hone, hforg2, hsent⟩ := tryTest_sends (k := k.val) hlen (by rw [hlinks]; exact hn) (by rw [hforg, hout, hnone])
    obtain ⟨-, -, hother, -⟩ := onBrick_trans h1 hone
    rw [hpar] at hsent
    refine ⟨?_, fun _ => ⟨by rw [hforg2], hsent⟩, fun o ho => (Option.some_ne_none o ho.symm).elim, hother, hkeep⟩
    rw [hforg2, hforg]
    have hwire2 := wires_updWire k.val k.val (fun w => { w with retryAt := none }) (updWire k.val (fun w => { w with ordered := true, retryAt := none }) (s.forg (brickInst n.val b.val)))
    refine (congrArg Wire.ordered hwire2).trans ?_
    split
    · show ((updWire k.val _ _).wires.getD k.val {}).ordered = true
      rw [hwire]
    · rw [hwire]
  case some =>
    have hsame := tryTest_of_out k.val (s := u) (n := n.val) (b := b.val) (o := o) (by rw [hforg, hout, hnone])
    rw [hsame] at hkeep ⊢
    obtain ⟨-, -, hother, -⟩ := h1
    refine ⟨by rw [hforg, hwire], fun h => (Option.some_ne_none o h).elim, fun p hp => ⟨?_, hlinks⟩, hother, hkeep⟩
    rw [hforg, hout, hnone, ← hp]

theorem openWireTest_absent : ∀ t (n : Fin 4) (b : Fin 36) k s, enrolled s n.val b.val = false → exec (.openWireTest t n b k) s = .next (s.at_ t) := by
  intro t n b k s henr
  have henr' : enrolled (s.at_ t) n.val b.val = false := henr
  have hexec : exec (.openWireTest t n b k) s = execOpenWireTest t n b k s := rfl
  rw [hexec, execOpenWireTest]
  split
  · simp [cmdOpenWire, henr', answer]
  · rfl

theorem burstTimeout_ends : ∀ t (n : Fin 4) (b : Fin 36) e s, s.running = true → s.forgs.length = 144 → (s.forg (brickInst n.val b.val)).burstEnd = some e → e / 10000000 + s.parN .cellBurstTimeout < s.time.frame →
    Completes (.burstResultTimeout t n b) s fun r =>
      r.forg (brickInst n.val b.val) = { s.forg (brickInst n.val b.val) with burst := if (s.forg (brickInst n.val b.val)).burst = 3 then 3 else 0, burstEnd := none } ∧
      r.recorder = (State.raise 0x100B (brickInst n.val b.val) (s.at_ t)).recorder ∧ (∀ j, j ≠ brickInst n.val b.val → r.forg j = s.forg j) ∧
      keepsBut [.time, .forgs, .recorder] s r := by
  intro t n b e s hrun hforgs hend hlate
  have hj : brickInst n.val b.val < s.forgs.length := by rw [hforgs]; exact brickInst_lt n.isLt b.isLt
  have hend' : ((s.at_ t).forg (brickInst n.val b.val)).burstEnd = some e := hend
  have hexec : exec (.burstResultTimeout t n b) s = execBurstResultTimeout t n b s := rfl
  refine ⟨((s.at_ t).updForg (brickInst n.val b.val) fun f => { f with burst := if f.burst == 3 then 3 else 0, burstEnd := none }).raise 0x100B (brickInst n.val b.val), ?_, ?_, raise_recorder_congr rfl rfl _ _, fun j hj' => ?_, by simp +decide⟩
  · rw [hexec, execBurstResultTimeout]
    simp only [hend']
    exact if_pos (by rw [at_running, hrun]; exact decide_eq_true hlate)
  · show (State.updForg _ _ _).forg _ = _
    rw [State.forg_updForg, if_pos ⟨rfl, hj⟩]
    simp only [beq_iff_eq]
    rfl
  · show (State.updForg _ _ _).forg _ = _
    rw [State.forg_updForg, if_neg fun h => hj' h.1.symm]
    rfl

theorem burstTimeout_waits : ∀ t (n : Fin 4) (b : Fin 36) s, (∀ e, (s.forg (brickInst n.val b.val)).burstEnd = some e → s.time.frame ≤ e / 10000000 + s.parN .cellBurstTimeout) →
    exec (.burstResultTimeout t n b) s = .next (s.at_ t) := by
  intro t n b s hwait
  have hexec : exec (.burstResultTimeout t n b) s = execBurstResultTimeout t n b s := rfl
  rw [hexec, execBurstResultTimeout]
  split
  · rfl
  next e he =>
    have hearly : ¬e / frameNs + s.parN .cellBurstTimeout < s.time.frame := Nat.not_lt.2 (hwait e he)
    have hearly' : decide (e / frameNs + (s.at_ t).parN .cellBurstTimeout < (s.at_ t).time.frame) = false := decide_eq_false hearly
    exact if_neg (by rw [hearly', Bool.and_false]; decide)

/-- Settles O9: by what each abandoned transfer and each test sent changes, and induction on their lists. -/
theorem foragerDeadlines : Obligations.ForagerDeadlines :=
  ⟨bulkTimeout_abandons, bulkTimeout_raises, bulkTimeout_waits, releaseEntry_leaves, releaseEntry_free, openWireTimeout_ends, openWireTimeout_waits, openWireRetry_sends, openWireRetry_waits, openWireTest_orders, openWireTest_absent, burstTimeout_ends, burstTimeout_waits⟩

end Sys2Proof.Machine
end

section
/-!
PROOF. EstimatorUpdates: the work of the Estimator on one string and what it leaves alone.
-/
namespace Sys2Proof.Machine

/-! ### What the work on one string leaves alone -/

/-- The count of a string (R160). -/
def tally (e : EstStr) : Option (Int × Int × Nat) × Int × Int × Int × Int := (e.latch, e.qA, e.qB, e.qs, e.dq)

/-- The parts of the state that the work on a string may change. -/
def estPieces : List Piece := [.est, .cells, .forgs, .links, .tagCtr, .surv, .learned, .recorder]

/-- The events of a gap (R161) that stand go on for every string of a set. -/
def keepsGaps (p : Nat → Prop) (s t : State) : Prop :=
  ∀ k, p k → (s.isRaised 0x300D k = true → t.isRaised 0x300D k = true) ∧ (s.isRaised 0x300E k = true → t.isRaised 0x300E k = true)

/-- The work on string m: the estimator state, the cells and the gap events of the other strings stay. -/
structure within (m : Nat) (s t : State) : Prop where
  frame : keepsBut estPieces s t
  others : ∀ k, k ≠ m → t.estr k = s.estr k
  cellsOff : ∀ i, i / 576 ≠ m → t.cell i = s.cell i
  gaps : keepsGaps (· ≠ m) s t
  estLen : t.est.length = s.est.length
  cellLen : t.cells.length = s.cells.length

/-- Work on string m that also leaves its count, the missed updates of its cells and its gap events alone. -/
structure settled (m : Nat) (s t : State) : Prop extends within m s t where
  own : tally (t.estr m) = tally (s.estr m)
  missed : ∀ i, (t.cell i).missed = (s.cell i).missed
  allGaps : keepsGaps (fun _ => True) s t

theorem keepsGaps_refl (p : Nat → Prop) (s : State) : keepsGaps p s s := fun _ _ => ⟨id, id⟩

theorem keepsGaps_trans {p : Nat → Prop} {s t u : State} (h1 : keepsGaps p s t) (h2 : keepsGaps p t u) : keepsGaps p s u :=
  fun k hk => ⟨fun h => (h2 k hk).1 ((h1 k hk).1 h), fun h => (h2 k hk).2 ((h1 k hk).2 h)⟩

theorem keepsGaps_mono {p q : Nat → Prop} (hpq : ∀ k, p k → q k) {s t : State} (h : keepsGaps q s t) : keepsGaps p s t := fun k hk => h k (hpq k hk)

theorem keepsGaps_of_raised (p : Nat → Prop) {s t : State} (h : t.recorder.raised = s.recorder.raised) : keepsGaps p s t := by
  intro k _
  simp only [State.isRaised, h]
  exact ⟨id, id⟩

theorem within_refl (m : Nat) (s : State) : within m s s := ⟨keepsBut_refl _ _, fun _ _ => rfl, fun _ _ => rfl, keepsGaps_refl _ _, rfl, rfl⟩

theorem within_trans {m : Nat} {s t u : State} (h1 : within m s t) (h2 : within m t u) : within m s u :=
  ⟨keepsBut_trans h1.frame h2.frame, fun k hk => (h2.others k hk).trans (h1.others k hk), fun i hi => (h2.cellsOff i hi).trans (h1.cellsOff i hi),
    keepsGaps_trans h1.gaps h2.gaps, h2.estLen.trans h1.estLen, h2.cellLen.trans h1.cellLen⟩

theorem settled_refl (m : Nat) (s : State) : settled m s s := ⟨within_refl m s, rfl, fun _ => rfl, keepsGaps_refl _ _⟩

theorem settled_trans {m : Nat} {s t u : State} (h1 : settled m s t) (h2 : settled m t u) : settled m s u :=
  ⟨within_trans h1.towithin h2.towithin, h2.own.trans h1.own, fun i => (h2.missed i).trans (h1.missed i), keepsGaps_trans h1.allGaps h2.allGaps⟩

theorem settled_forEach {α : Type} {m : Nat} {f : α → State → State} (l : List α) (hf : ∀ a ∈ l, ∀ s, settled m s (f a s)) (s : State) : settled m s (forEach l f s) := by
  induction l generalizing s with
  | nil => exact settled_refl m s
  | cons a l ih => exact settled_trans (hf a List.mem_cons_self s) (ih (fun b hb => hf b (List.mem_cons_of_mem a hb)) (f a s))

theorem estr_of_keepsBut {ps : List Piece} {s t : State} (h : keepsBut ps s t) (he : Piece.est ∉ ps) (n : Nat) : t.estr n = s.estr n := by
  have hest : t.est = s.est := h .est he
  simp only [State.estr, hest]

theorem cell_of_keepsBut {ps : List Piece} {s t : State} (h : keepsBut ps s t) (hc : Piece.cells ∉ ps) (i : Nat) : t.cell i = s.cell i := by
  have hcells : t.cells = s.cells := h .cells hc
  simp only [State.cell, hcells]

theorem settled_of_gaps {ps : List Piece} (m : Nat) {s t : State} (h : keepsBut ps s t) (hps : ps ⊆ [.forgs, .links, .tagCtr, .surv, .learned, .recorder])
    (hgaps : keepsGaps (fun _ => True) s t) : settled m s t := by
  have h' : keepsBut [.forgs, .links, .tagCtr, .surv, .learned, .recorder] s t := keepsBut_mono h hps
  refine ⟨⟨keepsBut_mono h' (by decide), fun k _ => estr_of_keepsBut h' (by decide) k, fun i _ => cell_of_keepsBut h' (by decide) i, keepsGaps_mono (fun _ _ => trivial) hgaps,
    by rw [h' .est (by decide)], by rw [h' .cells (by decide)]⟩, by rw [estr_of_keepsBut h' (by decide)], fun i => by rw [cell_of_keepsBut h' (by decide)], hgaps⟩

theorem settled_of_keepsBut {ps : List Piece} (m : Nat) {s t : State} (h : keepsBut ps s t) (hps : ps ⊆ [.forgs, .links, .tagCtr, .surv, .learned]) : settled m s t := by
  have h' : keepsBut [.forgs, .links, .tagCtr, .surv, .learned] s t := keepsBut_mono h hps
  exact settled_of_gaps m h' (by decide) (keepsGaps_of_raised _ (by rw [h' .recorder (by decide)]))

theorem raiseRec_mem {x : Nat × Nat} {r : RecState} (only : Bool) (c a t : Nat) (h : x ∈ r.raised) : x ∈ (raiseRec only c a t r).raised := by
  have h1 : x ∈ (markRaised only c a (recordRaise only c a t r).1).raised := markRaised_mem _ _ _ (by rw [recordRaise_raised]; exact h)
  simp only [raiseRec]
  split
  · refine markRaised_mem _ _ _ ?_
    split
    · rw [recordRaise_raised, recordRaise_raised]
      exact h1
    · rw [recordRaise_raised]
      exact h1
  · exact h1

theorem settled_raise (m c a : Nat) (s : State) : settled m s (s.raise c a) :=
  settled_of_gaps m (ps := [.recorder]) (by simp +decide) (by decide) fun _ _ => ⟨fun h => isRaised_raise_of_isRaised h c a, fun h => isRaised_raise_of_isRaised h c a⟩

theorem settled_raiseOnly (m c a : Nat) (s : State) : settled m s (s.raiseOnly c a) :=
  settled_of_gaps m (ps := [.recorder]) (by simp +decide) (by decide) fun _ _ =>
    ⟨fun h => List.contains_iff_mem.2 (raiseRec_mem true c a _ (List.contains_iff_mem.1 h)), fun h => List.contains_iff_mem.2 (raiseRec_mem true c a _ (List.contains_iff_mem.1 h))⟩

theorem settled_clear {c : Nat} (h1 : c ≠ 0x300D) (h2 : c ≠ 0x300E) (m a : Nat) (s : State) : settled m s (s.clear c a) :=
  settled_of_gaps m (ps := [.recorder]) (by simp +decide) (by decide) fun k _ =>
    ⟨fun h => (isRaised_clear_of_ne (fun he => h1 (congrArg Prod.fst he).symm) s).trans h, fun h => (isRaised_clear_of_ne (fun he => h2 (congrArg Prod.fst he).symm) s).trans h⟩

theorem settled_stand {c : Nat} (h1 : c ≠ 0x300D) (h2 : c ≠ 0x300E) (m a : Nat) (on : Bool) (s : State) : settled m s (s.stand c a on) := by
  unfold State.stand
  split
  · split
    · exact settled_refl m s
    · exact settled_raise m c a s
  · exact settled_clear h1 h2 m a s

theorem settled_updForg (m j : Nat) (f : Forager → Forager) (s : State) : settled m s (s.updForg j f) := settled_of_keepsBut m (ps := [.forgs]) (by simp +decide) (by decide)

theorem within_updEst (m : Nat) (f : EstStr → EstStr) (s : State) : within m s (s.updEst m f) :=
  ⟨by simp +decide [estPieces], fun k hk => by rw [State.estr_updEst, if_neg fun h => hk h.1.symm], fun _ _ => rfl, keepsGaps_of_raised _ rfl, length_updAt _ _ _, rfl⟩

theorem settled_updEst {m : Nat} {f : EstStr → EstStr} {s : State} (hf : tally (f (s.estr m)) = tally (s.estr m)) : settled m s (s.updEst m f) := by
  refine ⟨within_updEst m f s, ?_, fun _ => rfl, keepsGaps_of_raised _ rfl⟩
  rw [State.estr_updEst]
  split
  · exact hf
  · rfl

theorem settled_updCell {m i : Nat} (hi : i / 576 = m) {f : Cell → Cell} (hf : ∀ c, (f c).missed = c.missed) (s : State) : settled m s (s.updCell i f) := by
  refine ⟨⟨by simp +decide [estPieces], fun _ _ => rfl, fun k hk => ?_, keepsGaps_of_raised _ rfl, rfl, length_updAt _ _ _⟩, rfl, fun k => ?_, keepsGaps_of_raised _ rfl⟩
  · rw [State.cell_updCell, if_neg fun h => hk (by rw [← h.1]; exact hi)]
  · rw [State.cell_updCell]
    split
    · exact hf _
    · rfl

theorem cellCount_le (s : State) (n : Nat) : cellCount s n ≤ 576 := by
  unfold cellCount
  split
  · have := Nat.min_le_left 36 (s.parN .linkBricks n)
    omega
  · exact Nat.zero_le _

/-- The cells of a string replaced by their images. -/
theorem cell_mapCells (n : Nat) (f : Nat → Cell → Cell) (s : State) (i : Nat) : (s.mapCells n f).cell i =
    if i < s.cells.length ∧ 576 * n ≤ i ∧ i < 576 * n + cellCount s n then f (i - 576 * n) (s.cell i) else s.cell i := by
  simp only [State.mapCells, State.cell, State.modCells_cells, List.getD_eq_getElem?_getD, List.getElem?_mapIdx]
  by_cases hi : i < s.cells.length
  · simp only [List.getElem?_eq_getElem hi, Option.map_some, Option.getD_some, hi, true_and, Bool.and_eq_true, decide_eq_true_eq]
  · simp [hi]

theorem within_mapCells (m : Nat) (f : Nat → Cell → Cell) (s : State) : within m s (s.mapCells m f) := by
  refine ⟨by simp +decide [estPieces], fun _ _ => rfl, fun i hi => ?_, keepsGaps_of_raised _ rfl, rfl, List.length_mapIdx⟩
  rw [cell_mapCells, if_neg]
  rintro ⟨-, hlo, hhi⟩
  have := cellCount_le s m
  omega

theorem settled_mapCells {m : Nat} {f : Nat → Cell → Cell} {s : State} (hf : ∀ p, p < cellCount s m → (f p (s.cell (576 * m + p))).missed = (s.cell (576 * m + p)).missed) :
    settled m s (s.mapCells m f) := by
  refine ⟨within_mapCells m f s, rfl, fun i => ?_, keepsGaps_of_raised _ rfl⟩
  rw [cell_mapCells]
  split
  next h =>
    have hp := hf (i - 576 * m) (by omega)
    rw [show 576 * m + (i - 576 * m) = i by omega] at hp
    exact hp
  next => rfl

/-! ### The work on one brick -/

theorem settled_bleedAccount (m n b g sNs : Nat) (s : State) : settled m s (bleedAccount n b g sNs s) := by
  unfold bleedAccount
  extract_lets j f acc later start mine held
  split
  · exact settled_updForg ..
  · split
    · exact settled_updForg ..
    · exact settled_trans (settled_updForg ..) (settled_raise ..)

theorem settled_testsDue (m n b : Nat) (s : State) : settled m s (testsDue n b s) := settled_of_keepsBut m (ps := [.links, .tagCtr, .forgs]) (by simp +decide) (by decide)

theorem settled_queueCmd (m n id target : Nat) (ps : List Nat) (s : State) : settled m s (queueCmd n id target ps s) :=
  settled_of_keepsBut m (ps := [.links, .tagCtr]) (by simp +decide) (by decide)

theorem settled_because (m : Nat) (p : Plant) (o : Owner) (s : State) : settled m s (s.because p o) :=
  settled_of_gaps m (ps := [.recorder]) (by simp +decide) (by decide) (keepsGaps_of_raised _ rfl)

theorem settled_dropExcluded (m n b : Nat) (s : State) : settled m s (dropExcluded n b s) := by
  unfold dropExcluded sendBleed
  dsimp only
  split
  · split
    · exact settled_trans (settled_because ..) (settled_queueCmd ..)
    · split
      · exact settled_trans (settled_because ..) (settled_queueCmd ..)
      · exact settled_refl m s
  · exact settled_refl m s

theorem settled_judgeTotal (m n b : Nat) (u : Uplink) (s : State) : settled m s (judgeTotal n b u s) := by
  unfold judgeTotal
  extract_lets j s1
  have h1 : settled m s s1 := settled_updForg ..
  split
  · exact settled_trans h1 (settled_updForg ..)
  · split
    · exact settled_trans h1 (settled_trans (settled_updForg ..) (settled_clear (by decide) (by decide) ..))
    · split
      · exact settled_trans h1 (settled_trans (settled_updForg ..) (settled_stand (c := 0x1002) (by decide) (by decide) ..))
      · exact settled_trans h1 (settled_updForg ..)

theorem settled_judgeWire (m n b g k : Nat) (u : Uplink) (s : State) : settled m s (judgeWire n b g k u s) := by
  unfold judgeWire
  extract_lets j old p new s1
  have h1 : settled m s s1 := settled_updForg ..
  split
  · exact settled_trans h1 (settled_stand (by decide) (by decide) ..)
  · split
    · exact settled_trans h1 (settled_trans (settled_clear (by decide) (by decide) ..) (settled_clear (by decide) (by decide) ..))
    · exact h1

theorem settled_judgeCoarse (m n b : Nat) (u : Uplink) (s : State) : settled m s (judgeCoarse n b u s) := by
  unfold judgeCoarse
  extract_lets j runs
  refine settled_trans (settled_updForg ..) (settled_forEach _ (fun c _ s => ?_) _)
  dsimp only
  split
  · exact settled_clear (by decide) (by decide) ..
  · split
    · exact settled_stand (by decide) (by decide) ..
    · exact settled_refl m s

theorem settled_brickUpdate {n b : Nat} (hb : b < 36) (g sNs : Nat) (s : State) : settled n s (brickUpdate n b g sNs s) := by
  have hcell : ∀ c ∈ List.range 16, (576 * n + 16 * b + c) / 576 = n := fun c hc => by
    have := List.mem_range.1 hc
    omega
  unfold brickUpdate
  extract_lets j base
  split
  next s1 f _ _ =>
    have h1 : settled n s s1 := settled_trans (settled_bleedAccount ..) (settled_trans (settled_updForg ..) (settled_trans (settled_dropExcluded ..) (settled_testsDue ..)))
    exact settled_trans h1 (settled_forEach _ (fun c hc s => settled_updCell (hcell c hc) (by intro; rfl) s) s1)
  next u _ =>
    extract_lets s1 s2 f
    have h1 : settled n s s1 := settled_trans (settled_judgeCoarse n n b u s)
      (settled_trans (settled_forEach _ (fun k _ s => settled_judgeWire n n b g k u s) _) (settled_judgeTotal n n b u _))
    have h2 : settled n s s2 := settled_trans h1 (settled_trans (settled_bleedAccount ..) (settled_trans (settled_dropExcluded ..) (settled_testsDue ..)))
    exact settled_trans h2 (settled_forEach _ (fun c hc s => settled_updCell (hcell c hc) (by intro; rfl) s) s2)

/-! ### The work on a string after its count -/

theorem settled_enterRegime (n : Nat) (r : Regime) (s : State) : settled n s (enterRegime n r s) :=
  settled_trans (settled_updEst (by rfl)) (settled_trans (settled_raise ..) (settled_stand (by decide) (by decide) ..))

theorem settled_setRegime (n : Nat) (r : Regime) (s : State) : settled n s (setRegime n r s) := by
  unfold setRegime
  split
  · exact settled_refl n s
  · exact settled_enterRegime ..

theorem settled_endSurveyRegime (n : Nat) (s : State) : settled n s (endSurveyRegime n s) := by
  unfold endSurveyRegime
  split
  · exact settled_setRegime ..
  · exact settled_refl n s

theorem settled_modSurv (n : Nat) (f : SurvState → SurvState) (s : State) : settled n s (s.modSurv f) := settled_of_keepsBut n (ps := [.surv]) (by simp +decide) (by decide)

theorem settled_stopCap {n : Nat} (cause : Nat) {v : CapSurvey} (hv : v.string = n) (s : State) : settled n s (stopCap cause v s) := by
  unfold stopCap
  rw [hv]
  exact settled_trans (settled_modSurv ..) (settled_trans (settled_endSurveyRegime ..) (settled_raise ..))

theorem capStep_missed (g : Nat) (m : Rat) (c : Cell) : (capStep g m c).missed = c.missed := rfl

theorem settled_capLearn (v : CapSurvey) (n k : Nat) (full : Option Nat) (before : List Cell) (s : State) : settled n s (capLearn v n k full before s) := by
  unfold capLearn
  extract_lets ms good bad count s1 s2 s3
  have h1 : settled n s s1 := settled_mapCells fun p _ => by split <;> rfl
  have h2 : settled n s1 s2 := settled_forEach _ (fun p _ s => settled_raise ..) s1
  have h3 : settled n s2 s3 := settled_modSurv ..
  clear_value s1 s2 s3
  exact settled_trans h1 (settled_trans h2 (settled_trans h3 (settled_raise ..)))

theorem settled_capPhase (n : Nat) (full empty : Option Nat) (before : List Cell) (s : State) : settled n s (capPhase n full empty before s) := by
  unfold capPhase
  split
  · exact settled_refl n s
  next v _ =>
    extract_lets e
    split
    · exact settled_refl n s
    next hmine =>
      have hv : v.string = n := by
        simp only [Bool.or_eq_true, bne_iff_ne, ne_eq, not_or, not_not] at hmine
        exact hmine.1
      have hto : ∀ w, settled n s (s.modSurv fun u => { u with cap := some w }) := fun w => settled_modSurv ..
      split
      · split
        · exact hto _
        · split
          · exact hto _
          · exact settled_refl n s
      · split
        · exact settled_stopCap 3 hv s
        · split
          · split
            · split
              · exact settled_stopCap 4 hv s
              · exact hto _
            · exact settled_refl n s
          · split
            · split
              · exact settled_stopCap 4 hv s
              · split
                · split
                  · exact settled_trans (settled_capLearn ..) (settled_endSurveyRegime ..)
                  · exact settled_refl n s
                · exact hto _
            · exact settled_refl n s

theorem combine_missed (g kind : Nat) (socO sigO : Rat) (c : Cell) : (combine g kind socO sigO c).missed = c.missed := rfl

theorem restAnchor_missed (s : State) (e : EstStr) (n p g kind : Nat) (a0 r : Rat) (ends : List Nat) (c : Cell) : (restAnchor s e n p g kind a0 r ends c).missed = c.missed := by
  unfold restAnchor
  split
  · rfl
  · dsimp only
    split
    · rfl
    · rfl

theorem clearRest_missed (e : EstStr) (c : Cell) : (clearRest e c).missed = c.missed := by
  unfold clearRest
  split <;> rfl

theorem restCell_missed (s : State) (e : EstStr) (n p g : Nat) (ends : List Nat) (c : Cell) : (restCell s e n p g ends c).1.missed = c.missed := by
  unfold restCell
  split
  · exact clearRest_missed e c
  · split
    · split
      · rfl
      · exact restAnchor_missed ..
    · split
      extract_lets c1 tries due c2 t solved last src a0
      have h1 : c1.missed = c.missed := by
        unfold c1
        split <;> rfl
      have hsolved : solved.1.missed = c.missed := by
        unfold solved
        split
        · exact h1
        · split
          · exact h1
          · extract_lets tau f r
            split
            · exact (restAnchor_missed ..).trans h1
            · exact h1
      split
      · split
        · exact hsolved
        · exact (restAnchor_missed ..).trans hsolved
      · exact hsolved

theorem clampOverrun_missed (full : Bool) (c : Cell) : (clampOverrun full c).missed = c.missed := by
  unfold clampOverrun
  extract_lets above
  split <;> rfl

theorem recoverCell_missed (s : State) (n p : Nat) (full : Bool) (c : Cell) : (recoverCell s n p full c).missed = c.missed := by
  unfold recoverCell
  split
  · split <;> rfl
  · rfl

theorem endCell_missed (s : State) (g : Nat) (full : Bool) (c : Cell) : (endCell s g full c).missed = c.missed := by
  unfold endCell
  dsimp only
  split <;> rfl

theorem otherCell_missed (s : State) (n p g : Nat) (full : Bool) (c : Cell) : (otherCell s n p g full c).missed = c.missed := by
  unfold otherCell
  extract_lets c1
  have h1 : c1.missed = c.missed := clampOverrun_missed full c
  split
  · rw [recoverCell_missed, h1]
  · split
    · split
      · rw [combine_missed, h1]
      · exact h1
    · exact h1

theorem freshCell_missed (s : State) (e : EstStr) (n p g : Nat) (c : Cell) : (freshCell s e n p g c).missed = c.missed := by
  unfold freshCell
  extract_lets since
  split
  · split <;> rfl
  · rfl

theorem settled_anchorString (n g : Nat) (full : Bool) (k : Nat) (other : Option Nat) (s : State) : settled n s (anchorString n g full k other s) := by
  unfold anchorString
  extract_lets old read span s1 s2 s3
  have h1 : settled n s s1 := settled_mapCells fun p _ => by
    generalize s.cell (576 * n + p) = c
    have hc : (if (p == k) = true then endCell s g full c else if (some p == other) = true then c else otherCell s n p g full c).missed = c.missed := by
      split
      · exact endCell_missed ..
      · split
        · rfl
        · exact otherCell_missed ..
    extract_lets c1
    split
    · exact hc
    · exact hc
  have h2 : settled n s1 s2 := settled_raise ..
  have h3 : settled n s2 s3 := settled_updEst (by rfl)
  clear_value s1 s2 s3
  refine settled_trans h1 (settled_trans h2 (settled_trans h3 ?_))
  split
  · split
    · exact settled_raiseOnly ..
    · exact settled_refl ..
  · split
    · exact settled_raise ..
    · exact settled_refl ..

theorem settled_regimeStep (n g : Nat) (s : State) : settled n s (regimeStep n g s) := by
  unfold regimeStep
  dsimp only
  split
  · split
    · exact settled_setRegime ..
    · exact settled_refl n s
  · split
    · exact settled_setRegime ..
    · exact settled_refl n s
  · exact settled_refl n s

theorem settled_judgeCount {n p : Nat} (hp : p < 576) (eod eoc : Bool) (s : State) : settled n s (judgeCount n p eod eoc s) := by
  unfold judgeCount
  extract_lets i c low high s1 s2
  have h1 : settled n s s1 := settled_updCell (by omega) (by intro; rfl) s
  have h2 : settled n s1 s2 := by
    unfold s2
    split
    · split
      · exact settled_refl n s1
      · exact settled_stand (by decide) (by decide) ..
    · exact settled_clear (by decide) (by decide) ..
  clear_value s1 s2
  refine settled_trans h1 (settled_trans h2 ?_)
  split
  · split
    · exact settled_refl n s2
    · exact settled_stand (by decide) (by decide) ..
  · exact settled_clear (by decide) (by decide) ..

theorem settled_reduceString (n g : Nat) (s : State) : settled n s (reduceString n g s) := by
  unfold reduceString
  extract_lets cells e sig unanch unanch2 req s1
  have h1 : settled n s s1 := settled_updEst (by rfl)
  exact settled_trans h1 (settled_trans (settled_stand (by decide) (by decide) ..) (settled_stand (by decide) (by decide) ..))

theorem settled_capRatioEvents (n : Nat) (s : State) : settled n s (capRatioEvents n s) := settled_forEach _ (fun _ _ _ => settled_stand (c := 0x302A) (by decide) (by decide) ..) s

theorem settled_writeAfter (n cause : Nat) (s : State) : settled n s (writeAfter n cause s) := settled_modSurv ..

theorem settled_writeLearned (n cause : Nat) (s : State) : settled n s (writeLearned n cause s) := by
  unfold writeLearned
  split
  · split
    · exact settled_stand (by decide) (by decide) ..
    · exact settled_trans (settled_modSurv ..) (settled_stand (by decide) (by decide) ..)
  · exact settled_trans (settled_of_keepsBut n (ps := [.learned, .surv]) (by simp +decide) (by decide)) (settled_clear (by decide) (by decide) ..)

theorem settled_writeDueNow (n : Nat) (s : State) : settled n s (writeDueNow n s) := by
  unfold writeDueNow
  split
  · exact settled_trans (settled_modSurv ..) (settled_writeLearned ..)
  · exact settled_refl n s

theorem settled_restString (n tp tn : Nat) (s : State) : settled n s (restString n tp tn s) := settled_updEst (by rfl)

theorem endpoints_tally (s : State) (e : EstStr) (cells : List Cell) : tally (endpoints s e cells).1 = tally e := rfl

/-! ### The count of a string (R159 to R161) -/

theorem within_countString (n : Nat) (qa qb : Int) (t : Nat) (s : State) : within n s (countString n qa qb t s).1 := by
  have hev : ∀ {u v : State}, keepsBut [.recorder] u v → (∀ k, k ≠ n → (∀ c, c = 0x300D ∨ c = 0x300E → u.isRaised c k = true → v.isRaised c k = true)) → within n u v := by
    intro u v h hg
    have h' := keepsBut_mono h (show [Piece.recorder] ⊆ [.forgs, .links, .tagCtr, .surv, .learned, .recorder] by decide)
    exact ⟨keepsBut_mono h' (by decide), fun k _ => estr_of_keepsBut h' (by decide) k, fun i _ => cell_of_keepsBut h' (by decide) i,
      fun k hk => ⟨hg k hk _ (.inl rfl), hg k hk _ (.inr rfl)⟩, by rw [h' .est (by decide)], by rw [h' .cells (by decide)]⟩
  have hclear : ∀ c u, within n u (State.clear c n u) := fun c u => hev (by simp +decide) fun k hk c' _ h =>
    (isRaised_clear_of_ne (fun he => hk (congrArg Prod.snd he)) u).trans h
  have hraise : ∀ c u, within n u (State.raise c n u) := fun c u => (settled_raise n c n u).towithin
  have hstand : ∀ c u, within n u (State.stand c n true u) := fun c u => by
    unfold State.stand
    rw [if_pos rfl]
    split
    · exact within_refl n u
    · exact hraise c u
  unfold countString
  extract_lets e okA okB da db differ run s1 q z u2 first dq g2 g3
  have h1 : within n s s1 := within_updEst ..
  generalize countChannel s okA okB = ch
  cases ch with
  | some c =>
    dsimp -zeta only
    extract_lets dqc i s2 s3 s4
    have h2 : within n s1 s2 := by
      unfold s2
      split
      · exact hraise ..
      · exact within_refl ..
    have h3 : within n s2 s3 := by
      unfold s3
      split
      · split
        · exact hstand ..
        · exact within_refl ..
      · split
        · exact hclear ..
        · exact within_refl ..
    have h4 : within n s3 s4 := within_updEst ..
    clear_value s2 s3 s4
    exact within_trans h1 (within_trans h2 (within_trans h3 (within_trans h4 (within_trans (hclear ..) (hclear ..)))))
  | none =>
    dsimp -zeta only
    by_cases hz : (e.flags.2.2.1 && e.flags.2.2.2) = true
    · rw [if_pos hz]
      have h2 : within n s1 u2 := within_updEst ..
      exact within_trans h1 (within_trans h2 (within_trans (hclear ..) (hclear ..)))
    · rw [if_neg hz]
      have h2 : within n s1 g2 := within_updEst ..
      have h3 : within n g2 g3 := hstand ..
      have h23 := within_trans h1 (within_trans h2 h3)
      clear_value g2 g3
      show within n s (if first = true then g3 else g3.stand 0x300E n true)
      split
      · exact h23
      · exact within_trans h23 (hstand ..)

theorem countChannel_A {s : State} (okB : Bool) (h : s.par .estISource = 0) : countChannel s true okB = some 0 := by simp [countChannel, h]

theorem countChannel_B (s : State) : countChannel s false true = some 1 := by simp [countChannel]

theorem countChannel_none (s : State) : countChannel s false false = none := by simp [countChannel]

/-- The count of a string with a channel in use. -/
theorem countString_channel {n : Nat} (qa qb : Int) (t : Nat) {s : State} (hn : n < s.est.length) {c : Nat} (hc : countChannel s (s.estr n).flags.1 (s.estr n).flags.2.1 = some c) :
    tally ((countString n qa qb t s).1.estr n) = (none, qa, qb, (s.estr n).qs + (if c == 1 then qb - (s.estr n).qB else qa - (s.estr n).qA), if c == 1 then qb - (s.estr n).qB else qa - (s.estr n).qA) := by
  unfold countString
  extract_lets e okA okB da db differ run s1 q z u2 first dq g2 g3
  rw [show countChannel s okA okB = some c from hc]
  dsimp -zeta only
  extract_lets dqc i s2 s3 s4
  have hkeep : keepsBut [.recorder] s1 s3 := by simp +decide [s3, s2]
  have h1 : s1.estr n = { e with qA := qa, qB := qb, tInt := t, disRun := run, latch := none } := by
    unfold s1
    rw [State.estr_updEst, if_pos ⟨rfl, hn⟩]
  have hlen : n < s3.est.length := by
    rw [hkeep .est (by decide)]
    show n < (updAt s.est n _).length
    rw [length_updAt]
    exact hn
  show tally (State.estr (State.clear _ _ (State.clear _ _ s4)) n) = _
  rw [clear_estr, clear_estr]
  unfold s4
  rw [State.estr_updEst, if_pos ⟨rfl, hlen⟩, estr_of_keepsBut hkeep (by decide), h1]
  rfl

/-- The count of an open string whose gates are off, with no channel valid. -/
theorem countString_open {n : Nat} (qa qb : Int) (t : Nat) {s : State} (hn : n < s.est.length)
    (hc : countChannel s (s.estr n).flags.1 (s.estr n).flags.2.1 = none) (hz : ((s.estr n).flags.2.2.1 && (s.estr n).flags.2.2.2) = true) :
    tally ((countString n qa qb t s).1.estr n) = (none, qa, qb, (s.estr n).qs, 0) := by
  unfold countString
  extract_lets e okA okB da db differ run s1 q z u2 first dq g2 g3
  rw [show countChannel s okA okB = none from hc]
  dsimp -zeta only
  rw [if_pos (show (e.flags.2.2.1 && e.flags.2.2.2) = true from hz)]
  show tally (State.estr (State.clear _ _ (State.clear _ _ u2)) n) = _
  rw [clear_estr, clear_estr]
  unfold u2 s1
  rw [State.estr_updEst, if_pos ⟨rfl, by show n < (updAt s.est n _).length; rw [length_updAt]; exact hn⟩, State.estr_updEst, if_pos ⟨rfl, hn⟩]
  rfl

/-- The count of a string in a gap (R161). -/
theorem countString_gap {n : Nat} (qa qb : Int) (t : Nat) {s : State} (hn : n < s.est.length)
    (hc : countChannel s (s.estr n).flags.1 (s.estr n).flags.2.1 = none) (hz : ((s.estr n).flags.2.2.1 && (s.estr n).flags.2.2.2) = false) :
    tally ((countString n qa qb t s).1.estr n) = (none, qa, qb, (s.estr n).qs + (if (s.estr n).gapRun == 0 then (s.estr n).dq else 0), if (s.estr n).gapRun == 0 then (s.estr n).dq else 0) ∧
    (countString n qa qb t s).1.isRaised 0x300D n = true ∧ ((s.estr n).gapRun ≠ 0 → (countString n qa qb t s).1.isRaised 0x300E n = true) := by
  unfold countString
  extract_lets e okA okB da db differ run s1 q z u2 first dq g2 g3
  rw [show countChannel s okA okB = none from hc]
  dsimp -zeta only
  rw [if_neg (show ¬(e.flags.2.2.1 && e.flags.2.2.2) = true from by rw [hz]; decide)]
  have h3 : g3.isRaised 0x300D n = true := isRaised_stand_true _ _ _ (by decide)
  have hest : tally (g3.estr n) = (none, qa, qb, e.qs + dq, dq) := by
    unfold g3
    rw [stand_estr]
    unfold g2 s1
    rw [State.estr_updEst, if_pos ⟨rfl, by show n < (updAt s.est n _).length; rw [length_updAt]; exact hn⟩, State.estr_updEst, if_pos ⟨rfl, hn⟩]
    rfl
  show tally (State.estr (if first = true then g3 else g3.stand 0x300E n true) n) = _ ∧ State.isRaised 0x300D n (if first = true then g3 else g3.stand 0x300E n true) = true ∧
    (_ → State.isRaised 0x300E n (if first = true then g3 else g3.stand 0x300E n true) = true)
  clear_value g3
  by_cases hfirst : first = true
  · simp only [if_pos hfirst]
    exact ⟨hest, h3, fun hne => absurd (by simpa [first] using hfirst) hne⟩
  · simp only [if_neg hfirst]
    exact ⟨by rw [stand_estr]; exact hest, isRaised_stand_of_isRaised h3 _ _, fun _ => isRaised_stand_true _ _ _ (by decide)⟩

/-- A count ends the latch, and the string charge grows by the charge of the interval. -/
theorem countString_tally {n : Nat} (qa qb : Int) (d : Nat) {s : State} (hn : n < s.est.length) :
    (tally ((countString n qa qb d s).1.estr n)).1 = none ∧
    (tally ((countString n qa qb d s).1.estr n)).2.2.2.1 = (s.estr n).qs + (tally ((countString n qa qb d s).1.estr n)).2.2.2.2 := by
  cases hc : countChannel s (s.estr n).flags.1 (s.estr n).flags.2.1 with
  | some c =>
    rw [countString_channel qa qb d hn hc]
    exact ⟨rfl, rfl⟩
  | none =>
    cases hz : ((s.estr n).flags.2.2.1 && (s.estr n).flags.2.2.2) with
    | true =>
      rw [countString_open qa qb d hn hc hz]
      exact ⟨rfl, (Int.add_zero _).symm⟩
    | false =>
      rw [(countString_gap qa qb d hn hc hz).1]
      exact ⟨rfl, rfl⟩

/-! ### The update of one string -/

theorem within_chargeString (n g tp tn : Nat) (late : List Nat) (x : StrIn) (old : List Forager) (was : List Cell) (s : State) :
    within n s (chargeString n g tp tn late x old was s) := by
  unfold chargeString
  exact within_mapCells ..

theorem chargeString_missed {n p : Nat} (g tp tn : Nat) (late : List Nat) (x : StrIn) (old : List Forager) (was : List Cell) {s : State} (hp : p < cellCount s n) (hlen : 576 * n + p < s.cells.length) :
    ((chargeString n g tp tn late x old was s).cell (576 * n + p)).missed = if late.contains (576 * n + p) then (s.cell (576 * n + p)).missed + 1 else 0 := by
  unfold chargeString
  dsimp only
  rw [cell_mapCells, if_pos ⟨hlen, by omega, by omega⟩, Nat.add_sub_cancel_left]
  show Cell.missed (if late.contains (576 * n + p) = true then _ else _) = _
  split
  · rfl
  · rfl

/-- The cells of a string after a function of their positions and themselves. -/
theorem restedCells_getD {s : State} {n p : Nat} (f : Nat → Cell → Cell × Bool) (hp : p < cellCount s n) :
    (((stringCells s n).mapIdx f).getD p (s.cell (576 * n + p), false)).1 = if 576 * n + p < s.cells.length then (f p (s.cell (576 * n + p))).1 else s.cell (576 * n + p) := by
  rw [List.getD_eq_getElem?_getD, List.getElem?_mapIdx, stringCells, List.getElem?_take, if_pos hp, List.getElem?_drop]
  by_cases hlen : 576 * n + p < s.cells.length
  · rw [if_pos hlen, List.getElem?_eq_getElem hlen]
    simp [State.cell, hlen]
  · rw [if_neg hlen, List.getElem?_eq_none (by omega)]
    rfl

theorem countSuspects_lt {s : State} {n p : Nat} (h : p ∈ countSuspects s n) : p < 576 := by
  have := List.mem_range.1 (List.mem_filter.1 h).1
  have := cellCount_le s n
  omega

/-- The work on a string with a latched interval: what comes ahead of the count, the count with the charge of the cells, and what comes after it. -/
theorem updateString_parts {n : Nat} (g : Nat) (late : List Nat) {s : State} {qa qb : Int} {d : Nat} (h : (s.estr n).latch = some (qa, qb, d)) :
    ∃ s0 x tp tn was, settled n s s0 ∧ s0.est = s.est ∧
      settled n (chargeString n g tp tn late x s.forgs was (countString n qa qb d s0).1) (updateString n g late s) := by
  unfold updateString
  rw [h]
  dsimp -zeta only
  extract_lets tn tp s0 r s1 i s2 s3 ends rested s4 s5 s6 before s7 s8 s9 s10 s11 s12 s13
  have h0 : settled n s s0 := settled_forEach _ (fun b hb s => by
    split
    · exact settled_brickUpdate (List.mem_range.1 hb) ..
    · exact settled_refl n s) s
  have hest : s0.est = s.est := by
    have hkeep : keepsBut [.links, .tagCtr, .forgs, .cells, .recorder] s s0 := by simp +decide [s0]
    exact hkeep .est (by decide)
  refine ⟨s0, r.2, tp, tn, stringCells s n, h0, hest, ?_⟩
  have h1 : settled n (chargeString n g tp tn late r.2 s.forgs (stringCells s n) r.1) s1 := settled_restString ..
  refine settled_trans h1 ?_
  have h2 : settled n s1 s2 := settled_mapCells fun p _ => by
    split
    · rfl
    · exact freshCell_missed ..
  refine settled_trans h2 ?_
  have h3 : settled n s2 s3 := settled_updEst (endpoints_tally s2 (s2.estr n) (stringCells s2 n))
  refine settled_trans h3 ?_
  have h4 : settled n s3 s4 := settled_mapCells fun p hp => by
    rw [restedCells_getD _ hp]
    split
    · split
      · exact clearRest_missed ..
      · exact restCell_missed ..
    · rfl
  refine settled_trans h4 ?_
  have h5 : settled n s4 s5 := by
    unfold s5
    split
    · exact settled_trans (settled_updEst (by rfl)) (settled_raise ..)
    · exact settled_refl ..
  refine settled_trans h5 ?_
  have h6 : settled n s5 s6 := by
    unfold s6
    split
    · exact settled_raise ..
    · exact settled_refl ..
  refine settled_trans h6 ?_
  have h7 : settled n s6 s7 := by
    unfold s7
    split
    · exact settled_anchorString ..
    · exact settled_refl ..
  refine settled_trans h7 ?_
  have h8 : settled n s7 s8 := by
    unfold s8
    split
    · exact settled_anchorString ..
    · exact settled_refl ..
  refine settled_trans h8 ?_
  have h9 : settled n s8 s9 := settled_capPhase ..
  refine settled_trans h9 ?_
  have h10 : settled n s9 s10 := settled_regimeStep ..
  refine settled_trans h10 ?_
  have h11 : settled n s10 s11 := settled_forEach _ (fun p hp s => settled_judgeCount (countSuspects_lt hp) ..) s10
  refine settled_trans h11 ?_
  have h12 : settled n s11 s12 := settled_trans (settled_reduceString ..) (settled_capRatioEvents ..)
  refine settled_trans h12 ?_
  have h13 : settled n s12 s13 := by
    unfold s13
    split
    · exact settled_writeAfter ..
    · exact settled_refl ..
  refine settled_trans h13 ?_
  split
  · exact settled_trans (settled_writeAfter ..) (settled_writeDueNow ..)
  · exact settled_writeDueNow ..

theorem within_updateString (n g : Nat) (late : List Nat) (s : State) : within n s (updateString n g late s) := by
  cases h : (s.estr n).latch with
  | none =>
    have hsame : updateString n g late s = s := by
      unfold updateString
      rw [h]
    rw [hsame]
    exact within_refl n s
  | some l =>
    obtain ⟨qa, qb, d⟩ := l
    obtain ⟨s0, x, tp, tn, was, h0, -, h2⟩ := updateString_parts g late h
    exact within_trans h0.towithin (within_trans (within_countString ..) (within_trans (within_chargeString ..) h2.towithin))

/-! ### All strings -/

/-- What the work on the other strings leaves of string n. -/
structure apart (n : Nat) (s t : State) : Prop where
  frame : keepsBut estPieces s t
  estr : t.estr n = s.estr n
  cells : ∀ i, i / 576 = n → t.cell i = s.cell i
  gaps : keepsGaps (· = n) s t
  estLen : t.est.length = s.est.length
  cellLen : t.cells.length = s.cells.length

theorem apart_of_within {m n : Nat} (hmn : m ≠ n) {s t : State} (h : within m s t) : apart n s t :=
  ⟨h.frame, h.others n hmn.symm, fun i hi => h.cellsOff i (by rw [hi]; exact hmn.symm), keepsGaps_mono (fun k hk => by rw [hk]; exact hmn.symm) h.gaps, h.estLen, h.cellLen⟩

theorem apart_refl (n : Nat) (s : State) : apart n s s := ⟨keepsBut_refl _ _, rfl, fun _ _ => rfl, keepsGaps_refl _ _, rfl, rfl⟩

theorem apart_trans {n : Nat} {s t u : State} (h1 : apart n s t) (h2 : apart n t u) : apart n s u :=
  ⟨keepsBut_trans h1.frame h2.frame, h2.estr.trans h1.estr, fun i hi => (h2.cells i hi).trans (h1.cells i hi), keepsGaps_trans h1.gaps h2.gaps, h2.estLen.trans h1.estLen, h2.cellLen.trans h1.cellLen⟩

theorem apart_forEach {n : Nat} {f : Nat → State → State} (hf : ∀ m s, within m s (f m s)) {l : List Nat} (hl : n ∉ l) (s : State) : apart n s (forEach l f s) := by
  induction l generalizing s with
  | nil => exact apart_refl n s
  | cons m l ih =>
    obtain ⟨hne, hl⟩ := List.ne_and_not_mem_of_not_mem_cons hl
    exact apart_trans (apart_of_within hne.symm (hf m s)) (ih hl (f m s))

/-- The work on the four strings, seen from one of them: the strings ahead, its own, and the strings after it. -/
theorem forEach_strings {n : Nat} (hn : n < 4) {f : Nat → State → State} (hf : ∀ m s, within m s (f m s)) (s : State) :
    ∃ u, apart n s u ∧ apart n (f n u) (forEach (List.range 4) f s) := by
  have hmem : n ∈ List.range 4 := List.mem_range.2 hn
  obtain ⟨l1, l2, hl⟩ := List.append_of_mem hmem
  have hnodup : (List.range 4).Nodup := List.nodup_range
  rw [hl] at hnodup ⊢
  have h1 : n ∉ l1 := fun h => (List.nodup_append.1 hnodup).2.2 n h n List.mem_cons_self rfl
  have h2 : n ∉ l2 := (List.nodup_cons.1 (List.nodup_append.1 hnodup).2.1).1
  refine ⟨forEach l1 f s, apart_forEach hf h1 s, ?_⟩
  have heq : forEach (l1 ++ n :: l2) f s = forEach l2 f (f n (forEach l1 f s)) := by simp [forEach]
  rw [heq]
  exact apart_forEach hf h2 _

theorem forEach_within {f : Nat → State → State} (hf : ∀ m s, within m s (f m s)) (l : List Nat) (s : State) : keepsBut estPieces s (forEach l f s) := by
  induction l generalizing s with
  | nil => exact keepsBut_refl _ _
  | cons m l ih => exact keepsBut_trans (hf m s).frame (ih (f m s))

theorem cellCount_of_keepsBut {ps : List Piece} {s t : State} (h : keepsBut ps s t) (hb : Piece.boot ∉ ps) (n : Nat) : cellCount t n = cellCount s n := by
  simp only [cellCount, linkOn, State.parBit, parN_of_keepsBut h hb]
  rfl

theorem updateString_idle {n : Nat} (g : Nat) (late : List Nat) {s : State} (h : (s.estr n).latch = none) : updateString n g late s = s := by
  unfold updateString
  rw [h]

/-- The work on a string with a latched interval: its count, its gap events and the missed updates of its cells. -/
theorem updateString_counts {n : Nat} (g : Nat) (late : List Nat) {u : State} {qa qb : Int} {d : Nat} (h : (u.estr n).latch = some (qa, qb, d)) :
    ∃ s0, s0.estr n = u.estr n ∧ s0.est.length = u.est.length ∧ keepsBut estPieces u s0 ∧
      tally ((updateString n g late u).estr n) = tally ((countString n qa qb d s0).1.estr n) ∧
      keepsGaps (fun _ => True) (countString n qa qb d s0).1 (updateString n g late u) ∧
      ∀ p, p < cellCount u n → 576 * n + p < u.cells.length →
        ((updateString n g late u).cell (576 * n + p)).missed = if late.contains (576 * n + p) then (u.cell (576 * n + p)).missed + 1 else 0 := by
  obtain ⟨s0, x, tp, tn, was, h0, hest, h2⟩ := updateString_parts g late h
  have hc := within_countString n qa qb d s0
  have hframe : keepsBut estPieces u (countString n qa qb d s0).1 := keepsBut_trans h0.frame hc.frame
  have hcell : ∀ i, (countString n qa qb d s0).1.cell i = s0.cell i := cell_of_keepsBut (show keepsBut [.est, .recorder] s0 (countString n qa qb d s0).1 by simp +decide) (by decide)
  refine ⟨s0, by simp only [State.estr, hest], by rw [hest], h0.frame, h2.own.trans ?_, keepsGaps_trans (keepsGaps_of_raised _ rfl) h2.allGaps, fun p hp hlen => ?_⟩
  · rfl
  · rw [h2.missed, chargeString_missed _ _ _ _ _ _ _ (by rw [cellCount_of_keepsBut hframe (by decide)]; exact hp) (by rw [hc.cellLen, h0.cellLen]; exact hlen), hcell, h0.missed]

/-- What a string shows after an update that counted it, by the channel in use (R160, R161). -/
theorem counts_of_tally {n : Nat} {qa qb : Int} {d : Nat} {s r : State} (hn : n < s.est.length) (htally : tally (r.estr n) = tally ((countString n qa qb d s).1.estr n))
    (hgap1 : (countString n qa qb d s).1.isRaised 0x300D n = true → r.isRaised 0x300D n = true)
    (hgap2 : (countString n qa qb d s).1.isRaised 0x300E n = true → r.isRaised 0x300E n = true) :
    (r.estr n).latch = none ∧ (r.estr n).qA = qa ∧ (r.estr n).qB = qb ∧ (r.estr n).qs = (s.estr n).qs + (r.estr n).dq ∧
    ((s.estr n).flags.1 = true → s.par .estISource = 0 → (r.estr n).dq = qa - (s.estr n).qA) ∧
    ((s.estr n).flags.1 = false → (s.estr n).flags.2.1 = true → (r.estr n).dq = qb - (s.estr n).qB) ∧
    ((s.estr n).flags = (false, false, true, true) → (r.estr n).dq = 0) ∧
    ((s.estr n).flags = (false, false, false, false) → (s.estr n).gapRun = 0 → (r.estr n).dq = (s.estr n).dq ∧ r.isRaised 0x300D n = true) ∧
    ((s.estr n).flags = (false, false, false, false) → (s.estr n).gapRun ≠ 0 → (r.estr n).dq = 0 ∧ r.isRaised 0x300E n = true) := by
  have hfields : ∀ {q dq : Int}, tally (r.estr n) = (none, qa, qb, q, dq) → (r.estr n).latch = none ∧ (r.estr n).qA = qa ∧ (r.estr n).qB = qb ∧ (r.estr n).qs = q ∧ (r.estr n).dq = dq := fun h => by
    simpa only [tally, Prod.mk.injEq] using h
  cases hc : countChannel s (s.estr n).flags.1 (s.estr n).flags.2.1 with
  | some c =>
    obtain ⟨hlatch, hqA, hqB, hqs, hdq⟩ := hfields (htally.trans (countString_channel qa qb d hn hc))
    refine ⟨hlatch, hqA, hqB, by rw [hqs, hdq], fun hA hsrc => ?_, fun hA hB => ?_, fun hfl => ?_, fun hfl => ?_, fun hfl => ?_⟩
    · rw [hA, countChannel_A _ hsrc, Option.some.injEq] at hc
      rw [hdq, ← hc]
      rfl
    · rw [hA, hB, countChannel_B, Option.some.injEq] at hc
      rw [hdq, ← hc]
      rfl
    all_goals
      rw [hfl, countChannel_none] at hc
      exact absurd hc (by simp)
  | none =>
    have hA : (s.estr n).flags.1 = true → s.par .estISource = 0 → False := fun hA hsrc => by
      rw [hA, countChannel_A _ hsrc] at hc
      exact absurd hc (by simp)
    have hB : (s.estr n).flags.1 = false → (s.estr n).flags.2.1 = true → False := fun hA hB => by
      rw [hA, hB, countChannel_B] at hc
      exact absurd hc (by simp)
    cases hz : ((s.estr n).flags.2.2.1 && (s.estr n).flags.2.2.2) with
    | true =>
      obtain ⟨hlatch, hqA, hqB, hqs, hdq⟩ := hfields (htally.trans (countString_open qa qb d hn hc hz))
      have hnot : (s.estr n).flags ≠ (false, false, false, false) := fun hfl => by
        rw [hfl] at hz
        exact absurd hz (by decide)
      exact ⟨hlatch, hqA, hqB, by rw [hqs, hdq, Int.add_zero], fun h1 h2 => (hA h1 h2).elim, fun h1 h2 => (hB h1 h2).elim, fun _ => hdq, fun h => absurd h hnot, fun h => absurd h hnot⟩
    | false =>
      obtain ⟨hcount, hfirst, hlater⟩ := countString_gap qa qb d hn hc hz
      obtain ⟨hlatch, hqA, hqB, hqs, hdq⟩ := hfields (htally.trans hcount)
      refine ⟨hlatch, hqA, hqB, by rw [hqs, hdq], fun h1 h2 => (hA h1 h2).elim, fun h1 h2 => (hB h1 h2).elim, fun hfl => ?_, fun _ hrun => ⟨?_, hgap1 hfirst⟩, fun _ hrun => ⟨?_, hgap2 (hlater hrun)⟩⟩
      · rw [hfl] at hz
        exact absurd hz (by decide)
      · rw [hdq, hrun]
        rfl
      · rw [hdq, if_neg (by simpa using hrun)]

/-! ### A missed update -/

theorem settled_brickMissed (m n b g sNs : Nat) (s : State) : settled m s (brickMissed n b g sNs s) := settled_trans (settled_bleedAccount ..) (settled_updForg ..)

theorem missEndpoints_tally (s : State) (e : EstStr) : tally (missEndpoints s e) = tally e := rfl

/-- What a cell keeps of its charge through a missed update (R157). -/
theorem missCell_keeps (s : State) (e : EstStr) (x : StrIn) (bleedNs : Nat) (was c : Cell) :
    (missCell s e x bleedNs was c).missed = c.missed + 1 ∧ (missCell s e x bleedNs was c).q = c.q ∧ (missCell s e x bleedNs was c).qLast = c.qLast := ⟨rfl, rfl, rfl⟩

theorem clearRest_keeps (e : EstStr) (c : Cell) : (clearRest e c).missed = c.missed ∧ (clearRest e c).q = c.q ∧ (clearRest e c).qLast = c.qLast := by
  unfold clearRest
  split
  · exact ⟨rfl, rfl, rfl⟩
  · exact ⟨rfl, rfl, rfl⟩

theorem mapCells_clearRest_keeps (n : Nat) (e : EstStr) (f : EstStr → EstStr) (s : State) (i : Nat) :
    (((s.mapCells n fun _ c => clearRest e c).updEst n f).cell i).missed = (s.cell i).missed ∧ (((s.mapCells n fun _ c => clearRest e c).updEst n f).cell i).q = (s.cell i).q ∧
    (((s.mapCells n fun _ c => clearRest e c).updEst n f).cell i).qLast = (s.cell i).qLast := by
  have h : ((s.mapCells n fun _ c => clearRest e c).updEst n f).cell i = (s.mapCells n fun _ c => clearRest e c).cell i := rfl
  rw [h, cell_mapCells]
  split
  · exact clearRest_keeps ..
  · exact ⟨rfl, rfl, rfl⟩

theorem mapCells_missCell_keeps {n p : Nat} (t : Nat → Item) (u : State) (e : EstStr) (x : StrIn) (b : Nat → Nat) {s : State} (hp : p < cellCount s n) (hlen : 576 * n + p < s.cells.length) :
    ((s.mapCells n fun p c => spanStep (t p) (missCell u e x (b p) c c)).cell (576 * n + p)).missed = (s.cell (576 * n + p)).missed + 1 ∧
    ((s.mapCells n fun p c => spanStep (t p) (missCell u e x (b p) c c)).cell (576 * n + p)).q = (s.cell (576 * n + p)).q ∧
    ((s.mapCells n fun p c => spanStep (t p) (missCell u e x (b p) c c)).cell (576 * n + p)).qLast = (s.cell (576 * n + p)).qLast := by
  rw [cell_mapCells, if_pos ⟨hlen, by omega, by omega⟩, Nat.add_sub_cancel_left]
  exact missCell_keeps u e x (b p) (s.cell (576 * n + p)) (s.cell (576 * n + p))

theorem missString_idle {n : Nat} (g : Nat) {s : State} (h : (s.estr n).latch = none) : missString n g s = s := by
  unfold missString
  rw [h]

/-- A missed update of a string: its count goes on, and every cell keeps its charge and misses the update. -/
theorem missString_counts {n : Nat} (g : Nat) {u : State} {qa qb : Int} {d : Nat} (h : (u.estr n).latch = some (qa, qb, d)) :
    within n u (missString n g u) ∧ ∃ s0, s0.estr n = u.estr n ∧ s0.est.length = u.est.length ∧ tally ((missString n g u).estr n) = tally ((countString n qa qb d s0).1.estr n) ∧
      ∀ p, p < cellCount u n → 576 * n + p < u.cells.length →
        ((missString n g u).cell (576 * n + p)).missed = (u.cell (576 * n + p)).missed + 1 ∧ ((missString n g u).cell (576 * n + p)).q = (u.cell (576 * n + p)).q ∧
        ((missString n g u).cell (576 * n + p)).qLast = (u.cell (576 * n + p)).qLast := by
  unfold missString
  rw [h]
  dsimp -zeta only
  extract_lets tn tp s0 r s1
  have h0 : settled n u s0 := settled_forEach _ (fun b hb s => by
    split
    · exact settled_brickMissed ..
    · exact settled_refl n s) u
  have hkeep0 : keepsBut [.forgs, .recorder] u s0 := by simp +decide [s0]
  have hr : within n s0 r.1 := within_countString ..
  have hkeepr : keepsBut [.est, .recorder] s0 r.1 := by simp +decide [r]
  have hcellr : ∀ i, r.1.cell i = u.cell i := fun i => (cell_of_keepsBut hkeepr (by decide) i).trans (cell_of_keepsBut hkeep0 (by decide) i)
  have hcountr : cellCount r.1 n = cellCount u n := (cellCount_of_keepsBut hkeepr (by decide) n).trans (cellCount_of_keepsBut hkeep0 (by decide) n)
  have hlenr : r.1.cells.length = u.cells.length := hr.cellLen.trans h0.cellLen
  have hest0 : s0.estr n = u.estr n := estr_of_keepsBut hkeep0 (by decide) n
  have hcells1 : ∀ p, p < cellCount u n → 576 * n + p < u.cells.length → (s1.cell (576 * n + p)).missed = (u.cell (576 * n + p)).missed + 1 ∧
      (s1.cell (576 * n + p)).q = (u.cell (576 * n + p)).q ∧ (s1.cell (576 * n + p)).qLast = (u.cell (576 * n + p)).qLast := fun p hp hlen => by
    rw [← hcellr]
    exact mapCells_missCell_keeps (groupItem u n) u (r.1.estr n) r.2 (fun p => bleedTime (u.forg (brickInst n (p / 16))) (p % 16) (g - 1) tp tn) (by rw [hcountr]; exact hp) (by rw [hlenr]; exact hlen)
  have hrest : settled n (r.1.mapCells n fun p c => spanStep (groupItem u n p) (missCell u (r.1.estr n) r.2 (bleedTime (u.forg (brickInst n (p / 16))) (p % 16) (g - 1) tp tn) c c)) s1 := settled_restString ..
  have htally1 : tally (s1.estr n) = tally (r.1.estr n) := hrest.own
  have h1 : within n r.1 s1 := within_trans (within_mapCells ..) hrest.towithin
  clear hrest
  clear_value s1
  refine ⟨within_trans h0.towithin (within_trans hr (within_trans h1 (within_trans (within_mapCells ..) (within_updEst ..)))), s0, hest0, by rw [hkeep0 .est (by decide)], ?_, fun p hp hlen => ?_⟩
  · refine Eq.trans ?_ htally1
    rw [State.estr_updEst]
    split
    · exact missEndpoints_tally u (s1.estr n)
    · rfl
  · obtain ⟨hm, hq, hl⟩ := mapCells_clearRest_keeps n (s1.estr n) (fun e => { missEndpoints u e with missed := true }) s1 (576 * n + p)
    obtain ⟨hm1, hq1, hl1⟩ := hcells1 p hp hlen
    exact ⟨hm.trans hm1, hq.trans hq1, hl.trans hl1⟩

theorem within_missString (n g : Nat) (s : State) : within n s (missString n g s) := by
  cases h : (s.estr n).latch with
  | none =>
    rw [missString_idle g h]
    exact within_refl n s
  | some l =>
    obtain ⟨qa, qb, d⟩ := l
    exact (missString_counts g h).1

/-- An update within its time, seen from each string. -/
theorem estimatorUpdate_strings {t : Nat} {late : List Nat} {s : State} (hup : s.up = true) (hframe : s.time.frame ≠ 0) (ht : t ≤ s.frameStart + 4000000) :
    ∃ r, exec (.estimatorUpdate t late false []) s = .next r ∧ keepsBut estPieces (s.at_ t) r ∧
      ∀ n, n < 4 → ∃ u, apart n (s.at_ t) u ∧ apart n (updateString n (s.time.frame - 1) late u) r := by
  have hexec : exec (.estimatorUpdate t late false []) s = execEstimatorUpdate t late false [] s := rfl
  have hgo : (!(s.at_ t).up || (s.at_ t).time.frame == 0 || decide ((s.at_ t).frameStart + 4000000 < t)) = false := by
    have h1 : (s.at_ t).time.frame ≠ 0 := hframe
    have h2 : ¬(s.at_ t).frameStart + 4000000 < t := Nat.not_lt.2 ht
    rw [at_up, hup]
    simp only [h2, decide_false, Bool.not_true, Bool.false_or, Bool.or_false, beq_eq_false_iff_ne]
    exact h1
  rw [hexec, execEstimatorUpdate, if_neg (by rw [hgo]; decide)]
  extract_lets g s1 s2 s3
  have hstand : ∀ n on, apart n s3 (s3.stand 0x300F 0 on) := fun n on => apart_of_within (Nat.succ_ne_self n) (settled_stand (by decide) (by decide) (n + 1) 0 on s3).towithin
  have hframe3 : keepsBut estPieces (s.at_ t) s3 := forEach_within (fun m u => within_updateString m g late u) _ _
  refine ⟨_, rfl, keepsBut_trans hframe3 (hstand 0 _).frame, fun n hn => ?_⟩
  obtain ⟨u, h1, h2⟩ := forEach_strings hn (fun m u => within_updateString m g late u) (s.at_ t)
  exact ⟨u, h1, apart_trans h2 (hstand n _)⟩

theorem estimatorUpdate_counts : ∀ t late s, s.up = true → s.time.frame ≠ 0 → t ≤ s.frameStart + 4000000 → s.est.length = 4 → s.cells.length = 2304 →
    Completes (.estimatorUpdate t late false []) s fun r =>
      (∀ n, n < 4 → (s.estr n).latch = none → r.estr n = s.estr n) ∧
      (∀ n qa qb d, n < 4 → (s.estr n).latch = some (qa, qb, d) →
        (r.estr n).latch = none ∧ (r.estr n).qA = qa ∧ (r.estr n).qB = qb ∧ (r.estr n).qs = (s.estr n).qs + (r.estr n).dq ∧
        ((s.estr n).flags.1 = true → s.par .estISource = 0 → (r.estr n).dq = qa - (s.estr n).qA) ∧
        ((s.estr n).flags.1 = false → (s.estr n).flags.2.1 = true → (r.estr n).dq = qb - (s.estr n).qB) ∧
        ((s.estr n).flags = (false, false, true, true) → (r.estr n).dq = 0) ∧
        ((s.estr n).flags = (false, false, false, false) → (s.estr n).gapRun = 0 → (r.estr n).dq = (s.estr n).dq ∧ r.isRaised 0x300D n = true) ∧
        ((s.estr n).flags = (false, false, false, false) → (s.estr n).gapRun ≠ 0 → (r.estr n).dq = 0 ∧ r.isRaised 0x300E n = true) ∧
        (∀ p, p < cellCount s n → (r.cell (576 * n + p)).missed = if late.contains (576 * n + p) then (s.cell (576 * n + p)).missed + 1 else 0)) ∧
      keepsBut [.time, .est, .cells, .forgs, .links, .tagCtr, .surv, .learned, .recorder] s r := by
  intro t late s hup hframe ht hest hcells
  obtain ⟨r, hr, hkeep, hstr⟩ := estimatorUpdate_strings (late := late) hup hframe ht
  have hat : keepsBut [.time] s (s.at_ t) := by simp +decide
  refine ⟨r, hr, fun n hn hnone => ?_, fun n qa qb d hn hlatch => ?_, keepsBut_trans (keepsBut_mono hat (by decide)) (keepsBut_mono hkeep (by decide))⟩
  · obtain ⟨u, h1, h2⟩ := hstr n hn
    rw [updateString_idle _ _ (by rw [h1.estr]; exact hnone)] at h2
    exact h2.estr.trans h1.estr
  · obtain ⟨u, h1, h2⟩ := hstr n hn
    have hu : u.estr n = s.estr n := h1.estr
    obtain ⟨s0, hs0, hlen0, hframe0, htally, hgaps, hmissed⟩ := updateString_counts (s.time.frame - 1) late (u := u) (by rw [hu]; exact hlatch)
    have hnlen : n < s0.est.length := by
      rw [hlen0, h1.estLen]
      show n < s.est.length
      omega
    have hpar : s0.par .estISource = s.par .estISource :=
      par_of_keepsBut (keepsBut_trans (keepsBut_trans (keepsBut_mono hat (qs := .time :: estPieces) (by decide)) (keepsBut_mono h1.frame (by decide))) (keepsBut_mono hframe0 (by decide))) (by decide) ..
    rw [hu] at hs0
    rw [← h2.estr] at htally
    have hgap1 : (countString n qa qb d s0).1.isRaised 0x300D n = true → r.isRaised 0x300D n = true := fun h => (h2.gaps n rfl).1 ((hgaps n trivial).1 h)
    have hgap2 : (countString n qa qb d s0).1.isRaised 0x300E n = true → r.isRaised 0x300E n = true := fun h => (h2.gaps n rfl).2 ((hgaps n trivial).2 h)
    have hmissed' : ∀ p, p < cellCount s n → (r.cell (576 * n + p)).missed = if late.contains (576 * n + p) then (s.cell (576 * n + p)).missed + 1 else 0 := fun p hp => by
      have hp576 := cellCount_le s n
      have hcount : cellCount u n = cellCount s n := (cellCount_of_keepsBut h1.frame (by decide) n).trans (cellCount_of_keepsBut hat (by decide) n)
      rw [h2.cells _ (by omega), hmissed p (by rw [hcount]; exact hp) (by rw [h1.cellLen]; show 576 * n + p < s.cells.length; omega), h1.cells _ (by omega)]
      rfl
    rw [← hs0, ← hpar]
    obtain ⟨hlatch', hqA, hqB, hqs, hA, hB, hopen, hgap, hlater⟩ := counts_of_tally hnlen htally hgap1 hgap2
    exact ⟨hlatch', hqA, hqB, hqs, hA, hB, hopen, hgap, hlater, hmissed'⟩

theorem apart_stand (n : Nat) (on : Bool) (v : State) : apart n v (State.stand 0x300F 0 on v) :=
  apart_of_within (Nat.succ_ne_self n) (settled_stand (by decide) (by decide) (n + 1) 0 on v).towithin

/-- An overrun, seen from each string. -/
theorem estimatorOverrun_strings {t : Nat} {s : State} (hup : s.up = true) (hframe : s.time.frame ≠ 0) (ht : s.frameStart + 4000000 ≤ t) (hdue : ∃ n, n < 4 ∧ (s.estr n).latch.isSome = true) :
    ∃ r, exec (.estimatorOverrun t) s = .next r ∧ r.isRaised 0x300F 0 = true ∧ keepsBut [.time, .est, .cells, .forgs, .recorder] s r ∧
      ∀ n, n < 4 → ∃ u, apart n (s.at_ t) u ∧ apart n (missString n (s.time.frame - 1) u) r := by
  obtain ⟨m, hm, hlatch⟩ := hdue
  have hexec : exec (.estimatorOverrun t) s = execEstimatorOverrun t s := rfl
  have hany : (List.range 4).any (updateDue (s.at_ t)) = true := List.any_eq_true.2 ⟨m, List.mem_range.2 hm, hlatch⟩
  have hgo : (!(s.at_ t).up || (s.at_ t).time.frame == 0 || decide (t < (s.at_ t).frameStart + 4000000) || !(List.range 4).any (updateDue (s.at_ t))) = false := by
    have h1 : (s.at_ t).time.frame ≠ 0 := hframe
    have h2 : ¬t < (s.at_ t).frameStart + 4000000 := Nat.not_lt.2 ht
    rw [at_up, hup, hany]
    simp only [h2, decide_false, Bool.not_true, Bool.false_or, Bool.or_false, beq_eq_false_iff_ne]
    exact h1
  rw [hexec, execEstimatorOverrun, if_neg (by rw [hgo]; decide)]
  refine ⟨_, rfl, isRaised_stand_true _ _ _ (by decide), by simp +decide, fun n hn => ?_⟩
  obtain ⟨u, h1, h2⟩ := forEach_strings hn (f := fun n s => missString n (s.time.frame - 1) s) (fun m u => within_missString m _ u) (s.at_ t)
  have htime : u.time = (s.at_ t).time := h1.frame .time (by decide)
  have hframe' : u.time.frame = s.time.frame := by rw [htime]; rfl
  have h2' := apart_trans h2 (apart_stand n true _)
  simp only [hframe'] at h2'
  exact ⟨u, h1, h2'⟩

theorem estimatorOverrun_misses : ∀ t s, s.up = true → s.time.frame ≠ 0 → s.frameStart + 4000000 ≤ t → (∃ n, n < 4 ∧ (s.estr n).latch.isSome = true) → s.est.length = 4 → s.cells.length = 2304 →
    Completes (.estimatorOverrun t) s fun r =>
      (∀ n p, n < 4 → p < cellCount s n → (s.estr n).latch.isSome = true →
        (r.cell (576 * n + p)).missed = (s.cell (576 * n + p)).missed + 1 ∧ (r.cell (576 * n + p)).q = (s.cell (576 * n + p)).q ∧
        (r.cell (576 * n + p)).qLast = (s.cell (576 * n + p)).qLast) ∧
      (∀ n, n < 4 → (s.estr n).latch.isSome = true → (r.estr n).latch = none ∧ (r.estr n).qs = (s.estr n).qs + (r.estr n).dq) ∧
      r.isRaised 0x300F 0 = true ∧ keepsBut [.time, .est, .cells, .forgs, .recorder] s r := by
  intro t s hup hframe ht hdue hest hcells
  obtain ⟨r, hr, hraised, hkeep, hstr⟩ := estimatorOverrun_strings hup hframe ht hdue
  refine ⟨r, hr, fun n p hn hp hlatch => ?_, fun n hn hlatch => ?_, hraised, hkeep⟩
  · obtain ⟨u, h1, h2⟩ := hstr n hn
    have hu : u.estr n = s.estr n := h1.estr
    obtain ⟨⟨qa, qb, d⟩, hl⟩ := Option.isSome_iff_exists.1 hlatch
    obtain ⟨-, s0, -, -, -, hcell⟩ := missString_counts (s.time.frame - 1) (u := u) (n := n) (by rw [hu]; exact hl)
    have hp576 := cellCount_le s n
    have hcount : cellCount u n = cellCount s n := cellCount_of_keepsBut h1.frame (by decide) n
    have hcu : u.cell (576 * n + p) = s.cell (576 * n + p) := h1.cells _ (by omega)
    have h := hcell p (by rw [hcount]; exact hp) (by rw [h1.cellLen]; show 576 * n + p < s.cells.length; omega)
    rw [hcu] at h
    rw [h2.cells _ (by omega)]
    exact h
  · obtain ⟨u, h1, h2⟩ := hstr n hn
    have hu : u.estr n = s.estr n := h1.estr
    obtain ⟨⟨qa, qb, d⟩, hl⟩ := Option.isSome_iff_exists.1 hlatch
    obtain ⟨-, s0, hs0, hlen0, htally, -⟩ := missString_counts (s.time.frame - 1) (u := u) (n := n) (by rw [hu]; exact hl)
    have hlen : n < s0.est.length := by
      rw [hlen0, h1.estLen]
      show n < s.est.length
      omega
    have hqs := countString_tally qa qb d hlen
    rw [← htally, ← h2.estr, hs0, hu] at hqs
    exact hqs

/-- Settles O10: by what the count of a string and the work after it change, string by string. -/
theorem estimatorUpdates : Obligations.EstimatorUpdates :=
  ⟨estimatorUpdate_counts, estimatorOverrun_misses⟩

end Sys2Proof.Machine
end

section
/-!
PROOF. SurveyStartEnd: how surveys start and end.
-/
namespace Sys2Proof.Machine

/-! ### The rest windows -/

theorem restAt_closeRest (n m : Nat) (s : State) : ((closeRest true n s).dstr m).restAt = if n = m then none else (s.dstr m).restAt := by
  have hdefault : ∀ m, ¬m < s.disp.strs.length → (s.dstr m).restAt = none := fun m hm => by
    simp only [State.dstr, List.getD_eq_getElem?_getD, List.getElem?_eq_none (Nat.le_of_not_lt hm)]
    rfl
  unfold closeRest
  split
  next h =>
    split
    next hnm =>
      rw [← hnm]
      exact Option.isNone_iff_eq_none.1 h
    next => rfl
  next h =>
    dsimp only
    rw [if_pos rfl, raise_dstr, State.dstr_updDisp]
    by_cases hnm : n = m
    · by_cases hm : m < s.disp.strs.length
      · rw [if_pos ⟨hnm, hm⟩, if_pos hnm]
      · rw [if_neg fun h => hm h.2, if_pos hnm]
        exact hdefault m hm
    · rw [if_neg fun h => hnm h.1, if_neg hnm]

theorem forEach_closeRest (l : List Nat) (m : Nat) (s : State) : ((forEach l (closeRest true) s).dstr m).restAt = if m ∈ l then none else (s.dstr m).restAt := by
  induction l generalizing s with
  | nil => rfl
  | cons n l ih =>
    refine (ih (closeRest true n s)).trans ?_
    rw [restAt_closeRest]
    by_cases hml : m ∈ l
    · rw [if_pos hml, if_pos (List.mem_cons_of_mem n hml)]
    · rw [if_neg hml]
      by_cases hnm : n = m
      · rw [if_pos hnm, if_pos (by rw [hnm]; exact List.mem_cons_self)]
      · rw [if_neg hnm, if_neg fun h => (List.mem_cons.1 h).elim (fun h => hnm h.symm) hml]

theorem closeRests_facts (s : State) : (∀ m, m < 4 → ((closeRests s).dstr m).restAt = none) ∧ keepsBut [.disp, .recorder] s (closeRests s) := by
  refine ⟨fun m hm => ?_, by simp +decide⟩
  rw [closeRests, forEach_closeRest, if_pos (List.mem_range.2 hm)]

/-! ### The foragers of an ended survey -/

/-- A list of steps that each change one forager by an idempotent function, among other parts of the state. -/
theorem forEach_forg {f : Nat → State → State} {g : Forager → Forager} (hg : ∀ x, g (g x) = g x)
    (hf : ∀ j s k, (f j s).forg k = if j = k ∧ k < s.forgs.length then g (s.forg k) else s.forg k) (hlen : ∀ j s, (f j s).forgs.length = s.forgs.length) (l : List Nat) (k : Nat) (s : State) :
    (forEach l f s).forg k = if k ∈ l ∧ k < s.forgs.length then g (s.forg k) else s.forg k := by
  induction l generalizing s with
  | nil => simp [forEach]
  | cons j l ih =>
    refine (ih (f j s)).trans ?_
    rw [hlen, hf]
    by_cases hk : k < s.forgs.length
    · by_cases hj : j = k
      · subst hj
        simp [hk, hg]
      · simp [hk, hj, Ne.symm hj]
    · simp [hk]

theorem brickInst_injective {n b c : Nat} (h : brickInst n b = brickInst n c) : b = c := by
  unfold brickInst at h
  omega

/-- A forager beyond the list is the one of the reset state, without results and transfers. -/
theorem forg_of_ge {s : State} {j : Nat} (h : s.forgs.length ≤ j) : s.forg j = {} := by
  simp only [State.forg, List.getD_eq_getElem?_getD, List.getElem?_eq_none h]
  rfl

/-- The foragers after the transfers of burst results are dropped. -/
def dropBurstUps (f : Forager) : Forager := { f with ups := f.ups.filter (·.object != 1) }

theorem dropBurstUps_idem (f : Forager) : dropBurstUps (dropBurstUps f) = dropBurstUps f := by simp [dropBurstUps]

theorem forEach_dropBurstUps (n : Nat) (l : List Nat) (k : Nat) (s : State) :
    (forEach l (fun j s => queueCmd n 0x0B (j % 36) [1] (s.updForg j fun f => { f with ups := f.ups.filter (·.object != 1) })) s).forg k =
      if k ∈ l ∧ k < s.forgs.length then dropBurstUps (s.forg k) else s.forg k :=
  forEach_forg dropBurstUps_idem (fun j s k => by rw [queueCmd_forg, State.forg_updForg]; rfl)
    (fun j s => by
      have h : (queueCmd n 0x0B (j % 36) [1] (s.updForg j fun f => { f with ups := f.ups.filter (·.object != 1) })).forgs = (s.updForg j fun f => { f with ups := f.ups.filter (·.object != 1) }).forgs :=
        (show keepsBut [.links, .tagCtr] _ _ by simp +decide : keepsBut [.links, .tagCtr] (s.updForg j fun f => { f with ups := f.ups.filter (·.object != 1) }) _) .forgs (by decide)
      rw [h]
      exact length_updAt _ _ _) l k s

theorem forEach_noResult (l : List Nat) (k : Nat) (s : State) :
    (forEach l (fun j s => s.updForg j fun f => { f with burstRes := none }) s).forg k = if k ∈ l ∧ k < s.forgs.length then { s.forg k with burstRes := none } else s.forg k :=
  forEach_forg (g := fun f => { f with burstRes := none }) (by intro; rfl) (fun j s k => State.forg_updForg ..) (fun j s => length_updAt _ _ _) l k s

/-- The transfers of burst results of the bricks of a string dropped. -/
def dropUps (n : Nat) (s : State) : State :=
  forEach (((List.range 36).map (brickInst n)).filter fun j => (s.forg j).ups.any (·.object == 1)) (fun j s =>
    queueCmd n 0x0B (j % 36) [1] (s.updForg j fun f => { f with ups := f.ups.filter (·.object != 1) })) s

/-- The burst results of the bricks of a string dropped. -/
def dropResults (n : Nat) (s : State) : State := forEach ((List.range 36).map (brickInst n)) (fun j s => s.updForg j fun f => { f with burstRes := none }) s

/-- The transfers and results of the bricks of a string dropped, with a BURST_ARM that no beacon has carried. -/
def dropBursts (n : Nat) (s : State) : State := (dropResults n (dropUps n s)).updLink n fun l => { l with cmds := l.cmds.filter fun c => !(c.id == 0x03 && c.tries == 0) }

/-- The survey ended in the record of the surveys, with its fade from an instant. -/
def endSurvey (v : ImpSurvey) (cause now : Nat) (s : State) : State :=
  writeLearned v.string 1 ((noteSurvey { v with why := if cause == 3 then .command else .reaction }
    (s.modSurv fun u => { u with imp := none, table := none, fade := if v.frameA.isSome then some (v, now, envelope v now) else u.fade })).raise 0x3022 (evArg cause v.string))

theorem abortImp_eq {s : State} {v : ImpSurvey} (hv : s.surv.imp = some v) (cause : Nat) : abortImp cause s = endSurvey v cause s.time.now (dropBursts v.string s) := by
  unfold abortImp
  rw [hv]
  rfl

theorem keepsBut_dropBursts (n : Nat) (s : State) : keepsBut [.links, .tagCtr, .forgs] s (dropBursts n s) := by simp +decide [dropBursts, dropResults, dropUps]

theorem keepsBut_endSurvey (v : ImpSurvey) (cause now : Nat) (s : State) : keepsBut [.surv, .learned, .recorder] s (endSurvey v cause now s) := by simp +decide [endSurvey]

theorem writeLearned_surv (n cause : Nat) (s : State) :
    (writeLearned n cause s).surv.imp = s.surv.imp ∧ (writeLearned n cause s).surv.table = s.surv.table ∧ (writeLearned n cause s).surv.fade = s.surv.fade ∧ (writeLearned n cause s).surv.cap = s.surv.cap := by
  unfold writeLearned
  split
  · split
    · rw [stand_surv]
      exact ⟨rfl, rfl, rfl, rfl⟩
    · rw [stand_surv]
      exact ⟨rfl, rfl, rfl, rfl⟩
  · rw [clear_surv]
    exact ⟨rfl, rfl, rfl, rfl⟩

theorem endSurvey_surv (v : ImpSurvey) (cause now : Nat) (s : State) : (endSurvey v cause now s).surv.imp = none ∧ (endSurvey v cause now s).surv.table = none ∧
    (v.frameA.isSome = true → (endSurvey v cause now s).surv.fade = some (v, now, envelope v now)) := by
  obtain ⟨himp, htable, hfade, -⟩ := writeLearned_surv v.string 1 ((noteSurvey { v with why := if cause == 3 then .command else .reaction }
    (s.modSurv fun u => { u with imp := none, table := none, fade := if v.frameA.isSome then some (v, now, envelope v now) else u.fade })).raise 0x3022 (evArg cause v.string))
  have hnote : ∀ (w : ImpSurvey) (u : State), (noteSurvey w u).surv = u.surv := fun w u => (show keepsBut [.recorder] u (noteSurvey w u) by simp +decide) .surv (by decide)
  unfold endSurvey
  rw [himp, htable, hfade, raise_surv, hnote]
  exact ⟨rfl, rfl, fun h => if_pos h⟩

theorem dropBursts_forg (n j : Nat) (s : State) : (dropBursts n s).forg j = (dropResults n (dropUps n s)).forg j := by
  unfold dropBursts
  generalize dropResults n (dropUps n s) = u
  rfl

theorem dropResults_forg (n j : Nat) (s : State) :
    (dropResults n s).forg j = if j ∈ (List.range 36).map (brickInst n) ∧ j < s.forgs.length then { s.forg j with burstRes := none } else s.forg j := forEach_noResult ..

theorem dropUps_forg (n j : Nat) (s : State) : (dropUps n s).forg j =
    if j ∈ ((List.range 36).map (brickInst n)).filter (fun j => (s.forg j).ups.any (·.object == 1)) ∧ j < s.forgs.length then dropBurstUps (s.forg j) else s.forg j :=
  forEach_dropBurstUps ..

theorem dropBursts_brick (n : Nat) {b : Nat} (hb : b < 36) (s : State) :
    ((dropBursts n s).forg (brickInst n b)).burst = (s.forg (brickInst n b)).burst ∧ ((dropBursts n s).forg (brickInst n b)).burstRes = none ∧
    ∀ u ∈ ((dropBursts n s).forg (brickInst n b)).ups, u.object ≠ 1 := by
  have hmem : brickInst n b ∈ (List.range 36).map (brickInst n) := List.mem_map.2 ⟨b, List.mem_range.2 hb, rfl⟩
  have hups : ((dropUps n s).forg (brickInst n b)).burst = (s.forg (brickInst n b)).burst ∧ ∀ u ∈ ((dropUps n s).forg (brickInst n b)).ups, u.object ≠ 1 := by
    rw [dropUps_forg]
    generalize (List.range 36).map (brickInst n) = l at hmem
    split
    · exact ⟨rfl, fun u hu => by simpa using (List.mem_filter.1 hu).2⟩
    next hnot =>
      refine ⟨rfl, fun u hu hobj => hnot ⟨List.mem_filter.2 ⟨hmem, List.any_eq_true.2 ⟨u, hu, by simpa using hobj⟩⟩, Nat.lt_of_not_le fun hge => ?_⟩⟩
      have hnil : (s.forg (brickInst n b)).ups = [] := by rw [forg_of_ge hge]
      rw [hnil] at hu
      exact List.not_mem_nil hu
  obtain ⟨hburst, hobj⟩ := hups
  rw [dropBursts_forg, dropResults_forg]
  split
  · exact ⟨hburst, rfl, hobj⟩
  next hnot =>
    refine ⟨hburst, ?_, hobj⟩
    rw [forg_of_ge (Nat.le_of_not_lt fun h => hnot ⟨hmem, h⟩)]

/-- What is left of an impedance survey that has ended (R206). -/
theorem abortImp_ends {s : State} {v : ImpSurvey} (hv : s.surv.imp = some v) (cause : Nat) :
    (abortImp cause s).surv.imp = none ∧ (abortImp cause s).surv.table = none ∧
    (∀ b, b < 36 → ((abortImp cause s).forg (brickInst v.string b)).burst = (s.forg (brickInst v.string b)).burst ∧ ((abortImp cause s).forg (brickInst v.string b)).burstRes = none ∧
      ∀ u ∈ ((abortImp cause s).forg (brickInst v.string b)).ups, u.object ≠ 1) ∧
    (v.frameA.isSome = true → ∃ x, (abortImp cause s).surv.fade = some (v, s.time.now, x)) ∧ keepsBut [.links, .tagCtr, .forgs, .surv, .learned, .recorder] s (abortImp cause s) := by
  rw [abortImp_eq hv]
  obtain ⟨himp, htable, hfade⟩ := endSurvey_surv v cause s.time.now (dropBursts v.string s)
  have hend := keepsBut_endSurvey v cause s.time.now (dropBursts v.string s)
  refine ⟨himp, htable, fun b hb => ?_, fun h => ⟨_, hfade h⟩, keepsBut_trans (keepsBut_mono (keepsBut_dropBursts v.string s) (by decide)) (keepsBut_mono hend (by decide))⟩
  rw [forg_of_keepsBut hend (by decide)]
  exact dropBursts_brick v.string hb s

/-! ### The regime of a string in a capacity survey -/

theorem enterRegime_regime {n : Nat} (r : Regime) {s : State} (hn : n < s.est.length) : ((enterRegime n r s).estr n).regime = r := by
  rw [enterRegime, stand_estr, raise_estr, State.estr_updEst, if_pos ⟨rfl, hn⟩]

theorem setRegime_regime {n : Nat} (r : Regime) {s : State} (hn : n < s.est.length) : ((setRegime n r s).estr n).regime = r := by
  unfold setRegime
  split
  next h => simpa using h
  next => exact enterRegime_regime r hn

theorem endSurveyRegime_regime (n : Nat) {s : State} (hn : n < s.est.length) :
    ((endSurveyRegime n s).estr n).regime = if (s.estr n).regime = .countSurvey then .tracking else (s.estr n).regime := by
  unfold endSurveyRegime
  by_cases h : (s.estr n).regime = .countSurvey
  · rw [if_pos (by rw [h]; rfl), if_pos h]
    exact setRegime_regime .tracking hn
  · rw [if_neg (by simpa using h), if_neg h]

theorem impedance_starts : ∀ t (n : Fin 4) s, s.running = true → impReason (s.at_ t) n.val = 0 →
    Completes (.startImpedanceSurvey t n) s fun r =>
      (∃ v, r.surv.imp = some v ∧ v.string = n.val ∧ v.frameA = none ∧ v.amp = s.parN .impAmp ∧ v.rate = s.parN .impRate ∧ v.count = s.parN .impCount ∧
        v.took = [] ∧ v.bins = none) ∧
      { r.surv with imp := s.surv.imp } = s.surv ∧ (∀ m, m < 4 → (r.dstr m).restAt = none) ∧ keepsBut [.time, .surv, .disp, .recorder] s r := by
  intro t n s hrun hreason
  have hexec : exec (.startImpedanceSurvey t n) s = execStartImpedanceSurvey t n s := rfl
  have hreason' : (impReason (s.at_ t) n.val != 0) = false := by rw [hreason]; rfl
  obtain ⟨hrest, hkeep⟩ := closeRests_facts (cmdStartImp .command n.val (s.at_ t)).1
  have hstart : cmdStartImp .command n.val (s.at_ t) = accept _ := if_neg (by rw [hreason']; decide)
  refine ⟨closeRests (cmdStartImp .command n.val (s.at_ t)).1, ?_, ?_⟩
  · rw [hexec, execStartImpedanceSurvey, if_pos (by exact hrun), cmdStartImpEng]
    exact congrArg Host.Outcome.next (congrArg Prod.fst (if_pos (by rw [hstart]; rfl)))
  · have hsurv : (closeRests (cmdStartImp .command n.val (s.at_ t)).1).surv = (cmdStartImp .command n.val (s.at_ t)).1.surv := hkeep .surv (by decide)
    dsimp only
    rw [hsurv]
    rw [hstart] at hrest hkeep ⊢
    refine ⟨⟨_, rfl, rfl, rfl, rfl, rfl, rfl, rfl, rfl⟩, rfl, hrest, ?_⟩
    have hsurv : keepsBut [.time, .surv] s (cmdStartImp .command n.val (s.at_ t)).1 := by
      rw [hstart]
      simp +decide
    rw [hstart] at hsurv
    exact keepsBut_trans (keepsBut_mono hsurv (by decide)) (keepsBut_mono hkeep (by decide))

theorem impedance_refused : ∀ t (n : Fin 4) s, s.running = true → impReason (s.at_ t) n.val ≠ 0 →
    exec (.startImpedanceSurvey t n) s = .next (State.raise 0x3020 (evArg (impReason (s.at_ t) n.val) n.val) (s.at_ t)) := by
  intro t n s hrun hreason
  have hexec : exec (.startImpedanceSurvey t n) s = execStartImpedanceSurvey t n s := rfl
  have hreason' : (impReason (s.at_ t) n.val != 0) = true := by simpa using hreason
  have hstart : cmdStartImp .command n.val (s.at_ t) = refuse 0x3020 (evArg (impReason (s.at_ t) n.val) n.val) (s.at_ t) := if_pos hreason'
  rw [hexec, execStartImpedanceSurvey, if_pos (by exact hrun), cmdStartImpEng, hstart]
  rfl

theorem impReason_eq_zero_iff : ∀ s n, impReason s n = 0 ↔
    s.surv.imp = none ∧ (∀ c, s.surv.cap = some c → c.string ≠ n) ∧ stringClosed s n = true ∧ s.modeIn .impModes = true ∧
    (compSet s n ≠ [] ∨ s.parB .impUncomp = true) ∧ ratAbs (s.reg.act.refs.getD n 0) + 3 * (s.parN .impAmp : Rat) / 100 ≤ limitAlong s n := by
  intro s n
  have hreason : ∀ (c : Prop) [Decidable c] (i x : Nat), i ≠ 0 → ((if c then i else x) = 0 ↔ ¬c ∧ x = 0) := by
    intro c _ i x hi
    by_cases h : c <;> simp [h, hi]
  have hcomp : ¬((compSet s n).isEmpty && !s.parB .impUncomp) = true ↔ compSet s n ≠ [] ∨ s.parB .impUncomp = true := by
    rw [Bool.and_eq_true, not_and_or, List.isEmpty_iff, Bool.not_eq_true', Bool.not_eq_false]
  have himp : ¬s.surv.imp.isSome = true ↔ s.surv.imp = none := by simp
  unfold impReason
  rw [hreason _ 1 _ (by decide), hreason _ 2 _ (by decide), hreason _ 3 _ (by decide), hreason _ 4 _ (by decide), hreason _ 5 _ (by decide), hreason _ 6 _ (by decide),
    himp, hcomp, Bool.not_eq_true', Bool.not_eq_false, Bool.not_eq_true', Bool.not_eq_false, not_lt, eq_self_iff_true, and_true]
  refine and_congr_right fun _ => and_congr_left' ?_
  cases s.surv.cap with
  | none => simp
  | some c => simp

/-- A capacity survey that starts: its first phase, its reference and the regime of its string (R214, R216). -/
theorem cmdStartCap_of_no_reason (o : Owner) {n : Nat} {s : State} (hn : n < s.est.length) (hreason : capReason s n = 0) :
    (cmdStartCap o n s).2.1 = 0 ∧ ∃ v, (cmdStartCap o n s).1.surv.cap = some v ∧ v.string = n ∧
      ((s.estr n).fullAt = none → v.phase = 1 ∧ v.ref = (s.parN .estCapChargeRate : Rat) / 1000 * oneC s) ∧
      (∀ f, (s.estr n).fullAt = some f → s.time.now ≤ f + 7200000000000 → v.phase = 2 ∧ v.ref = 0) ∧
      { (cmdStartCap o n s).1.surv with cap := s.surv.cap } = s.surv ∧
      ((cmdStartCap o n s).1.estr n).regime = (if (s.estr n).regime = .countRecovery then .countRecovery else .countSurvey) ∧
      (∀ m, m ≠ n → (cmdStartCap o n s).1.estr m = s.estr m) ∧ keepsBut [.surv, .est, .recorder] s (cmdStartCap o n s).1 := by
  unfold cmdStartCap
  extract_lets k full v s1 src
  unfold src
  rw [if_neg (by unfold k; rw [hreason]; decide)]
  refine ⟨rfl, v, ?_⟩
  have hphase : (s.estr n).fullAt = none → v.phase = 1 ∧ v.ref = (s.parN .estCapChargeRate : Rat) / 1000 * oneC s := fun h => by
    have hfull : full = none := by
      unfold full
      rw [h]
    have hsome : ¬full.isSome = true := by rw [hfull]; decide
    exact ⟨if_neg hsome, if_neg hsome⟩
  have hskip : ∀ f, (s.estr n).fullAt = some f → s.time.now ≤ f + 7200000000000 → v.phase = 2 ∧ v.ref = 0 := fun f h hle => by
    have hfull : full = some f := by
      unfold full
      rw [h]
      exact if_pos hle
    have hsome : full.isSome = true := by rw [hfull]; rfl
    exact ⟨if_pos hsome, if_pos hsome⟩
  have h1 : keepsBut [.surv] s s1 := by simp +decide [s1]
  have hn1 : n < s1.est.length := hn
  have hsurv1 : s1.surv.cap = some v ∧ { s1.surv with cap := s.surv.cap } = s.surv := ⟨rfl, rfl⟩
  have hest1 : ∀ m, s1.estr m = s.estr m := fun _ => rfl
  have hstring : v.string = n := rfl
  clear_value s1 v
  obtain ⟨hcap1, hother1⟩ := hsurv1
  have key : ∀ u, (s.estr n).regime = .countRecovery ∧ u = s1 ∨ (s.estr n).regime ≠ .countRecovery ∧ u = setRegime n .countSurvey s1 →
      u.surv.cap = some v ∧ v.string = n ∧ ((s.estr n).fullAt = none → v.phase = 1 ∧ v.ref = (s.parN .estCapChargeRate : Rat) / 1000 * oneC s) ∧
      (∀ f, (s.estr n).fullAt = some f → s.time.now ≤ f + 7200000000000 → v.phase = 2 ∧ v.ref = 0) ∧ { u.surv with cap := s.surv.cap } = s.surv ∧
      (u.estr n).regime = (if (s.estr n).regime = .countRecovery then .countRecovery else .countSurvey) ∧ (∀ m, m ≠ n → u.estr m = s.estr m) ∧ keepsBut [.surv, .est, .recorder] s u := by
    rintro u (⟨hr, rfl⟩ | ⟨hr, rfl⟩)
    · exact ⟨hcap1, hstring, hphase, hskip, hother1, by rw [hest1, if_pos hr, hr], fun m _ => hest1 m, keepsBut_mono h1 (by decide)⟩
    · have hset : keepsBut [.est, .recorder] s1 (setRegime n .countSurvey s1) := by simp +decide
      rw [hset .surv (by decide)]
      exact ⟨hcap1, hstring, hphase, hskip, hother1, by rw [setRegime_regime _ hn1, if_neg hr], fun m hm => ((settled_setRegime n .countSurvey s1).others m hm).trans (hest1 m),
        keepsBut_trans (keepsBut_mono h1 (by decide)) (keepsBut_mono hset (by decide))⟩
  refine key _ ?_
  unfold accept
  split
  next h => exact .inl ⟨h, rfl⟩
  next h => exact .inr ⟨h, rfl⟩

theorem capacity_starts : ∀ t (n : Fin 4) s, s.running = true → s.est.length = 4 → capReason (s.at_ t) n.val = 0 →
    Completes (.startCapacitySurvey t n) s fun r =>
      (∃ v, r.surv.cap = some v ∧ v.string = n.val ∧
        ((s.estr n.val).fullAt = none → v.phase = 1 ∧ v.ref = (s.parN .estCapChargeRate : Rat) / 1000 * oneC s) ∧
        (∀ f, (s.estr n.val).fullAt = some f → max s.time.now t ≤ f + 7200000000000 → v.phase = 2 ∧ v.ref = 0)) ∧
      { r.surv with cap := s.surv.cap } = s.surv ∧
      (r.estr n.val).regime = (if (s.estr n.val).regime = .countRecovery then .countRecovery else .countSurvey) ∧
      (∀ m, m ≠ n.val → r.estr m = s.estr m) ∧ (∀ m, m < 4 → (r.dstr m).restAt = none) ∧ keepsBut [.time, .surv, .est, .disp, .recorder] s r := by
  intro t n s hrun hest hreason
  have hexec : exec (.startCapacitySurvey t n) s = execStartCapacitySurvey t n s := rfl
  have hreason' : (capReason (s.at_ t) n.val != 0) = false := by rw [hreason]; rfl
  have hn : n.val < s.est.length := by omega
  obtain ⟨hok, v, hv, hstring, hphase, hskip, hcap, hregime, hother, hkeep1⟩ := cmdStartCap_of_no_reason .command (s := s.at_ t) hn hreason
  obtain ⟨hrest, hkeep⟩ := closeRests_facts (cmdStartCap .command n.val (s.at_ t)).1
  have hest' := estr_of_keepsBut hkeep (by decide)
  refine ⟨closeRests (cmdStartCap .command n.val (s.at_ t)).1, ?_, ⟨v, ?_, hstring, hphase, hskip⟩, ?_, by rw [hest', hregime]; rfl, fun m hm => (hest' m).trans (hother m hm), hrest, ?_⟩
  · rw [hexec, execStartCapacitySurvey, if_pos (by exact hrun), cmdStartCapEng]
    exact congrArg Host.Outcome.next (congrArg Prod.fst (if_pos (by rw [hok]; rfl)))
  · rw [hkeep .surv (by decide)]
    exact hv
  · rw [hkeep .surv (by decide)]
    exact hcap
  · exact keepsBut_trans (t := s.at_ t) (by simp +decide) (keepsBut_trans (keepsBut_mono hkeep1 (by decide)) (keepsBut_mono hkeep (by decide)))

theorem capacity_refused : ∀ t (n : Fin 4) s, s.running = true → capReason (s.at_ t) n.val ≠ 0 →
    exec (.startCapacitySurvey t n) s = .next (State.raise 0x3026 (evArg (capReason (s.at_ t) n.val) n.val) (s.at_ t)) := by
  intro t n s hrun hreason
  have hexec : exec (.startCapacitySurvey t n) s = execStartCapacitySurvey t n s := rfl
  have hreason' : (capReason (s.at_ t) n.val != 0) = true := by simpa using hreason
  have hstart : cmdStartCap .command n.val (s.at_ t) = refuse 0x3026 (evArg (capReason (s.at_ t) n.val) n.val) (s.at_ t) := if_pos hreason'
  rw [hexec, execStartCapacitySurvey, if_pos (by exact hrun), cmdStartCapEng, hstart]
  rfl

theorem impedance_ends : ∀ t v s, s.running = true → s.surv.imp = some v →
    let ended (r : State) : Prop := r.surv.imp = none ∧ r.surv.table = none ∧
      (∀ b, b < 36 → (r.forg (brickInst v.string b)).burst = (s.forg (brickInst v.string b)).burst ∧ (r.forg (brickInst v.string b)).burstRes = none ∧ ∀ u ∈ (r.forg (brickInst v.string b)).ups, u.object ≠ 1) ∧
      (v.frameA.isSome = true → ∃ x, r.surv.fade = some (v, max s.time.now t, x)) ∧
      keepsBut [.time, .links, .tagCtr, .forgs, .surv, .learned, .recorder] s r
    Completes (.abortImpedanceSurvey t) s ended ∧ (impAbortCause (s.at_ t) v ≠ 0 → Completes (.impedanceSurveyAbort t) s ended) := by
  intro t v s hrun hv
  have hends := fun cause => abortImp_ends (s := s.at_ t) (v := v) hv cause
  have hended : ∀ cause, (abortImp cause (s.at_ t)).surv.imp = none ∧ (abortImp cause (s.at_ t)).surv.table = none ∧
      (∀ b, b < 36 → ((abortImp cause (s.at_ t)).forg (brickInst v.string b)).burst = (s.forg (brickInst v.string b)).burst ∧ ((abortImp cause (s.at_ t)).forg (brickInst v.string b)).burstRes = none ∧
        ∀ u ∈ ((abortImp cause (s.at_ t)).forg (brickInst v.string b)).ups, u.object ≠ 1) ∧
      (v.frameA.isSome = true → ∃ x, (abortImp cause (s.at_ t)).surv.fade = some (v, max s.time.now t, x)) ∧
      keepsBut [.time, .links, .tagCtr, .forgs, .surv, .learned, .recorder] s (abortImp cause (s.at_ t)) := fun cause => by
    obtain ⟨himp, htable, hbricks, hfade, hkeep⟩ := hends cause
    exact ⟨himp, htable, hbricks, hfade, keepsBut_trans (t := s.at_ t) (by simp +decide) (keepsBut_mono hkeep (by decide))⟩
  refine ⟨⟨_, ?_, hended 3⟩, fun hcause => ⟨_, ?_, hended (impAbortCause (s.at_ t) v)⟩⟩
  · have hexec : exec (.abortImpedanceSurvey t) s = execAbortImpedanceSurvey t s := rfl
    rw [hexec, execAbortImpedanceSurvey, if_pos (by exact hrun)]
    rfl
  · have hexec : exec (.impedanceSurveyAbort t) s = execImpedanceSurveyAbort t s := rfl
    have hv' : (s.at_ t).surv.imp = some v := hv
    rw [hexec, execImpedanceSurveyAbort]
    simp only [hv']
    refine if_pos ?_
    rw [at_running, hrun]
    simpa using hcause

/-- What is left of a capacity survey that has ended (R215). -/
theorem abortCap_ends {s : State} {v : CapSurvey} (hv : s.surv.cap = some v) (hphase : v.phase ≠ 4) (hest : v.string < s.est.length) (cause : Nat) :
    (abortCap cause s).surv.cap = some { v with phase := 4 } ∧
    ((abortCap cause s).estr v.string).regime = (if (s.estr v.string).regime = .countSurvey then .tracking else (s.estr v.string).regime) ∧
    (∀ m, m ≠ v.string → (abortCap cause s).estr m = s.estr m) ∧ keepsBut [.est, .surv, .learned, .recorder] s (abortCap cause s) := by
  have habort : abortCap cause s = writeLearned v.string 1 (stopCap cause v s) := by
    unfold abortCap
    rw [hv]
    exact if_neg (by simpa using hphase)
  have hwrite : keepsBut [.surv, .learned, .recorder] (stopCap cause v s) (writeLearned v.string 1 (stopCap cause v s)) := by simp +decide
  obtain ⟨-, -, -, hcap⟩ := writeLearned_surv v.string 1 (stopCap cause v s)
  have hstop : keepsBut [.est, .surv, .recorder] s (stopCap cause v s) := by simp +decide
  have hother := (settled_stopCap (n := v.string) cause rfl s).others
  rw [habort]
  refine ⟨hcap.trans ?_, ?_, fun m hm => (estr_of_keepsBut hwrite (by decide) m).trans (hother m hm), keepsBut_trans (keepsBut_mono hstop (by decide)) (keepsBut_mono hwrite (by decide))⟩
  · unfold stopCap
    rw [raise_surv, (show keepsBut [.est, .recorder] _ _ by simp +decide :
      keepsBut [.est, .recorder] (s.modSurv fun u => { u with cap := some { v with phase := 4 } }) (endSurveyRegime v.string (s.modSurv fun u => { u with cap := some { v with phase := 4 } }))) .surv (by decide)]
    rfl
  · rw [estr_of_keepsBut hwrite (by decide), stopCap, raise_estr, endSurveyRegime_regime v.string (s := s.modSurv _) hest]
    rfl

theorem capacity_ends : ∀ t v s, s.running = true → s.surv.cap = some v → v.phase ≠ 4 → s.est.length = 4 → v.string < 4 →
    let ended (r : State) : Prop := r.surv.cap = some { v with phase := 4 } ∧
      (r.estr v.string).regime = (if (s.estr v.string).regime = .countSurvey then .tracking else (s.estr v.string).regime) ∧
      (∀ m, m ≠ v.string → r.estr m = s.estr m) ∧ keepsBut [.time, .est, .surv, .learned, .recorder] s r
    Completes (.abortCapacitySurvey t) s ended ∧ (capAbortCause (s.at_ t) v ≠ 0 → Completes (.capacitySurveyAbort t) s ended) := by
  intro t v s hrun hv hphase hest hstring
  have hended : ∀ cause, (abortCap cause (s.at_ t)).surv.cap = some { v with phase := 4 } ∧
      ((abortCap cause (s.at_ t)).estr v.string).regime = (if (s.estr v.string).regime = .countSurvey then .tracking else (s.estr v.string).regime) ∧
      (∀ m, m ≠ v.string → (abortCap cause (s.at_ t)).estr m = s.estr m) ∧ keepsBut [.time, .est, .surv, .learned, .recorder] s (abortCap cause (s.at_ t)) := fun cause => by
    obtain ⟨hcap, hregime, hother, hkeep⟩ := abortCap_ends (s := s.at_ t) hv hphase (by show v.string < s.est.length; omega) cause
    exact ⟨hcap, hregime, hother, keepsBut_trans (t := s.at_ t) (by simp +decide) (keepsBut_mono hkeep (by decide))⟩
  refine ⟨⟨_, ?_, hended 7⟩, fun hcause => ⟨_, ?_, hended (capAbortCause (s.at_ t) v)⟩⟩
  · have hexec : exec (.abortCapacitySurvey t) s = execAbortCapacitySurvey t s := rfl
    rw [hexec, execAbortCapacitySurvey, if_pos (by exact hrun)]
    rfl
  · have hexec : exec (.capacitySurveyAbort t) s = execCapacitySurveyAbort t s := rfl
    have hv' : (s.at_ t).surv.cap = some v := hv
    rw [hexec, execCapacitySurveyAbort]
    simp only [hv']
    refine if_pos ?_
    rw [at_running, hrun]
    simpa using hcause

/-- Settles O12: by the conditions of a start, and what an ended survey leaves of its bricks and its string. -/
theorem surveyStartEnd : Obligations.SurveyStartEnd :=
  ⟨impedance_starts, impedance_refused, impReason_eq_zero_iff, capacity_starts, capacity_refused, impedance_ends, capacity_ends⟩

end Sys2Proof.Machine
end

section
/-!
PROOF. SurveyMeasurement: the burst of an impedance survey and its result.
-/
namespace Sys2Proof.Machine

/-! ### The beacon that carries a BURST_ARM -/

/-- The BURST_ARM of a tag takes its parameters. -/
def armCmd (tag : Option Nat) (ps : List Nat) (c : LinkCmd) : LinkCmd := if c.id == 0x03 && some c.tag == tag then { c with params := ps } else c

/-- A change of commands that leaves all but their parameters. -/
def keepsPlace (g : LinkCmd → LinkCmd) : Prop := ∀ c, (g c).id = c.id ∧ (g c).tag = c.tag ∧ (g c).tries = c.tries ∧ (g c).waiting = c.waiting ∧ (g c).order = c.order

theorem keepsPlace_armCmd (tag : Option Nat) (ps : List Nat) : keepsPlace (armCmd tag ps) := fun c => by
  unfold armCmd
  split
  · exact ⟨rfl, rfl, rfl, rfl, rfl⟩
  · exact ⟨rfl, rfl, rfl, rfl, rfl⟩

theorem insertBy_map {α : Type} {le : α → α → Bool} {g : α → α} (h : ∀ a b, le (g a) (g b) = le a b) (a : α) (l : List α) : insertBy le (g a) (l.map g) = (insertBy le a l).map g := by
  induction l with
  | nil => rfl
  | cons b l ih =>
    simp only [List.map_cons, insertBy, h]
    split
    · rfl
    · rw [ih, List.map_cons]

theorem sortBy_map {α : Type} {le : α → α → Bool} {g : α → α} (h : ∀ a b, le (g a) (g b) = le a b) (l : List α) : sortBy le (l.map g) = (sortBy le l).map g := by
  induction l with
  | nil => rfl
  | cons a l ih => rw [List.map_cons, sortBy, sortBy, ih, insertBy_map h]

theorem placeCmds_map {g : LinkCmd → LinkCmd} (hg : keepsPlace g) (tries room : Nat) (busy : List Nat) (l : List LinkCmd) :
    placeCmds tries room busy (l.map g) = (placeCmds tries room busy l).map g := by
  induction l generalizing room busy with
  | nil => rfl
  | cons c l ih =>
    obtain ⟨hid, -, htries, hwait, -⟩ := hg c
    simp only [List.map_cons, placeCmds, hid, htries, hwait]
    split
    · rw [ih, List.map_cons]
    · exact ih ..

theorem placeCmds_subset (tries room : Nat) (busy : List Nat) (l : List LinkCmd) : placeCmds tries room busy l ⊆ l := by
  induction l generalizing room busy with
  | nil => exact List.Subset.refl _
  | cons c l ih =>
    unfold placeCmds
    dsimp only
    split
    · exact List.cons_subset_cons c (ih ..)
    · exact List.subset_cons_of_subset c (ih ..)

theorem busyBricks_map {g : LinkCmd → LinkCmd} (hg : keepsPlace g) (l : List LinkCmd) : busyBricks (l.map g) = busyBricks l := by
  induction l with
  | nil => rfl
  | cons c l ih =>
    obtain ⟨-, -, htries, hwait, -⟩ := hg c
    unfold busyBricks at ih ⊢
    rw [List.map_cons, List.filter_cons, List.filter_cons, htries]
    split
    · rw [List.flatMap_cons, List.flatMap_cons, hwait, ih]
    · exact ih

theorem beaconCmds_map {g : LinkCmd → LinkCmd} (hg : keepsPlace g) {n : Nat} {s t : State} (hlink : (t.link n).cmds = (s.link n).cmds.map g) (hboot : t.boot = s.boot) :
    beaconCmds t n = (beaconCmds s n).map g := by
  have hbefore : ∀ a b, cmdBefore (g a) (g b) = cmdBefore a b := fun a b => by
    obtain ⟨hida, -, -, -, hordera⟩ := hg a
    obtain ⟨hidb, -, -, -, horderb⟩ := hg b
    simp only [cmdBefore, hida, hidb, hordera, horderb]
  have hbleed : mayBleed t = mayBleed s := by simp only [mayBleed, State.parB, State.modeIn, State.parN, State.par, hboot]
  have hpar : t.parN .linkCmdTries = s.parN .linkCmdTries := by simp only [State.parN, State.par, hboot]
  unfold beaconCmds
  dsimp only
  rw [hlink, sortBy_map hbefore, busyBricks_map hg, List.filter_map, List.filter_map, placeCmds_map hg, hpar, hbleed]
  congr 3
  · funext c
    obtain ⟨-, -, htries, hwait, -⟩ := hg c
    simp only [Function.comp_apply, htries, hwait]
  · congr 1
    funext c
    obtain ⟨hid, -⟩ := hg c
    simp only [Function.comp_apply, hid]

theorem beaconCmds_subset (s : State) (n : Nat) : beaconCmds s n ⊆ (s.link n).cmds := by
  unfold beaconCmds
  refine List.Subset.trans (placeCmds_subset ..) fun c hc => ?_
  exact (mem_sortBy ..).1 (List.mem_filter.1 (List.mem_filter.1 hc).1).1

/-- The survey whose BURST_ARM the beacon of a frame carries takes its times from that frame (R196). -/
theorem armBurst_arms {n : Nat} {v : ImpSurvey} {s : State} (hv : s.surv.imp = some v) (hn : v.string = n) (hnone : v.frameA = none) (hlen : n < s.links.length)
    (hcmd : ∃ c ∈ beaconCmds s n, c.id = 3 ∧ v.tag = some c.tag) :
    (∃ w, (armBurst n s).surv.imp = some w ∧ w.frameA = some s.time.frame ∧
      w.t0 = (s.time.frame + s.parN .impArmLead) * 10000000 + 500000000 / v.rate ∧ w.tEnd = w.t0 + (v.count - 1) * (1000000000 / v.rate)) ∧
    ((armBurst n s).link n).cmds = (s.link n).cmds.map (armCmd v.tag ([(s.time.frame + s.parN .impArmLead) % 2 ^ 32, 50000000 / v.rate, v.rate, v.count] ++ v.tones)) := by
  obtain ⟨c, hc, hid, htag⟩ := hcmd
  have hgo : (v.string == n && v.frameA.isNone && (beaconCmds s n).any fun c => c.id == 0x03 && some c.tag == v.tag) = true := by
    rw [hn, hnone, beq_self_eq_true, List.any_eq_true.2 ⟨c, hc, by rw [hid, htag]; simp⟩]
    rfl
  unfold armBurst
  rw [hv]
  dsimp only
  rw [if_pos hgo]
  refine ⟨⟨_, rfl, rfl, rfl, rfl⟩, ?_⟩
  rw [State.link_updLink, if_pos ⟨rfl, hlen⟩]
  rfl

/-- A command queued that does not wait yet carries the newest tag. -/
theorem queueCmd_fresh {n id target : Nat} {ps : List Nat} {s : State} (hn : n < s.links.length)
    (hfree : (s.link n).cmds.any (fun c => c.id == id && c.target == target && c.params == ps && c.tries == 0) = false) :
    ∃ c ∈ ((queueCmd n id target ps s).link n).cmds, c.id = id ∧ c.target = target ∧ c.params = ps ∧ c.tag = (queueCmd n id target ps s).tagCtr := by
  unfold queueCmd
  rw [if_neg (by rw [hfree]; decide)]
  dsimp only
  rw [State.link_updLink, if_pos ⟨rfl, hn⟩]
  exact ⟨_, List.mem_append_right _ (List.mem_singleton_self _), rfl, rfl, rfl, rfl⟩

theorem burstArm_queues : ∀ t v s, s.running = true → p3Held s = false → s.surv.imp = some v → v.tag = none → v.string < s.links.length →
    (∀ c ∈ (s.link v.string).cmds, c.id = 3 → c.tries ≠ 0) →
    Completes (.burstArm t) s fun r =>
      (∃ w, r.surv.imp = some w ∧ w.frameA = v.frameA ∧
        (∃ c ∈ (r.link v.string).cmds, c.id = 3 ∧ c.target = 63 ∧ w.tag = some c.tag ∧ c.params = [0, 50000000 / v.rate, v.rate, v.count])) ∧
      (∀ m, m ≠ v.string → r.link m = s.link m) ∧ keepsBut [.time, .links, .tagCtr, .surv] s r := by
  intro t v s hrun hheld hv htag hlen hfresh
  have hexec : exec (.burstArm t) s = execBurstArm t s := rfl
  have hv' : (s.at_ t).surv.imp = some v := hv
  have hgo : (!(s.at_ t).running || p3Held (s.at_ t) || v.tag.isSome) = false := by
    have h : p3Held (s.at_ t) = false := hheld
    rw [at_running, hrun, h, htag]
    rfl
  have hfree : ((s.at_ t).link v.string).cmds.any (fun c => c.id == 0x03 && c.target == 63 && c.params == [0, 50000000 / v.rate, v.rate, v.count] && c.tries == 0) = false := by
    rw [Bool.eq_false_iff]
    intro h
    obtain ⟨c, hc, hkind⟩ := List.any_eq_true.1 h
    simp only [Bool.and_eq_true, beq_iff_eq] at hkind
    exact hfresh c hc hkind.1.1.1 hkind.2
  refine ⟨(queueCmd v.string 0x03 63 [0, 50000000 / v.rate, v.rate, v.count] (s.at_ t)).modSurv fun u =>
    { u with imp := some { v with tag := some (queueCmd v.string 0x03 63 [0, 50000000 / v.rate, v.rate, v.count] (s.at_ t)).tagCtr } }, ?_, ⟨_, rfl, rfl, ?_⟩, fun m hm => (link_queueCmd_of_ne hm.symm 0x03 63 _ (s.at_ t)), by simp +decide⟩
  · rw [hexec, execBurstArm]
    simp only [hv']
    exact if_neg (by rw [hgo]; decide)
  · obtain ⟨c, hc, hid, htarget, hparams, hctag⟩ := queueCmd_fresh (s := s.at_ t) hlen hfree
    exact ⟨c, hc, hid, htarget, by rw [hctag], hparams⟩

theorem uwbSync_arms : ∀ t (n : Fin 4) v s, s.up = true → linkRuns s n.val = true → s.links.length = 4 → (s.link n.val).port = 0 → t = syncAt s n.val →
    s.surv.imp = some v → v.string = n.val → v.frameA = none → (∃ c ∈ beaconCmds s n.val, c.id = 3 ∧ v.tag = some c.tag) →
    Completes (.uwbSync t n) s fun r =>
      (∃ w, r.surv.imp = some w ∧ w.frameA = some s.time.frame ∧
        w.t0 = (s.time.frame + s.parN .impArmLead) * 10000000 + 500000000 / v.rate ∧ w.tEnd = w.t0 + (v.count - 1) * (1000000000 / v.rate) ∧
        (∃ c ∈ (r.link n.val).cmds, c.id = 3 ∧ v.tag = some c.tag ∧ 0 < c.tries ∧
          c.params = [(s.time.frame + s.parN .impArmLead) % 2 ^ 32, 50000000 / v.rate, v.rate, v.count] ++ v.tones)) ∧
      keepsBut [.time, .links, .surv, .recorder, .out] s r := by
  intro t n v s hup hruns hlen hport ht hv hstring hnone hcmd
  have hfire : keepsBut [.time] s (fireUnit (3 + n.val) (s.at_ t)) := by simp +decide
  obtain ⟨hframe, -, -, -, -, hstart⟩ := fireUnit_fields (3 + n.val) (s.at_ t)
  have hup' : (fireUnit (3 + n.val) (s.at_ t)).up = true := by rw [fireUnit_up, at_up, hup]
  obtain ⟨r, hr, -, -, -, hkeep⟩ := uwbSync_beacon t n s hup hruns hlen hport ht
  refine ⟨r, hr, ?_, hkeep⟩
  have hexec : exec (.uwbSync t n) s = execUwbSync t n s := rfl
  rw [hexec, execUwbSync] at hr
  generalize fireUnit (3 + n.val) (s.at_ t) = u at *
  have hlink := link_of_keepsBut hfire (by decide)
  have hpar := parN_of_keepsBut hfire (by decide)
  have hon : linkRuns u n.val = true := by
    rw [linkRuns, hlink, show linkOn u n.val = linkOn s n.val by simp only [linkOn, State.parBit, hpar]]
    exact hruns
  have hsync : syncAt u n.val = syncAt s n.val := by simp only [syncAt, hpar, hstart]; rfl
  have hgo : (!u.up || !linkRuns u n.val || (u.link n.val).port != 0 || t != syncAt u n.val) = false := by
    rw [hup', hon, hlink, hport, hsync, ← ht, bne_self_eq_false, bne_self_eq_false]
    rfl
  rw [if_neg (by rw [hgo]; decide)] at hr
  have hframe' : u.time.frame = s.time.frame := hframe
  have hulen : n.val < u.links.length := by rw [hfire .links (by decide)]; omega
  have hcmds := beaconCmds_map (g := id) (fun _ => ⟨rfl, rfl, rfl, rfl, rfl⟩) (s := s) (t := u) (n := n.val) (by rw [hlink, List.map_id]) (hfire .boot (by decide))
  rw [List.map_id] at hcmds
  obtain ⟨⟨w, hw, hwA, hwt0, hwEnd⟩, harmed⟩ := armBurst_arms (s := u) (n := n.val) (v := v) (by rw [hfire .surv (by decide)]; exact hv) hstring hnone hulen (by rw [hcmds]; exact hcmd)
  have hplaced := beaconCmds_map (keepsPlace_armCmd _ _) harmed ((show keepsBut [.links, .surv] u (armBurst n.val u) by simp +decide) .boot (by decide))
  have hlength := (armBurst_link n.val n.val u).2.2
  rw [hframe', hpar] at hwt0 harmed hplaced
  rw [hframe'] at hwA
  generalize armBurst n.val u = x at *
  have hxlen : n.val < x.links.length := by rw [hlength]; exact hulen
  have hshape : r.surv = x.surv ∧ (r.link n.val).cmds =
      (x.link n.val).cmds.map fun c => if ((beaconCmds x n.val).map (·.tag)).contains c.tag then { c with tries := c.tries + 1, lastFrame := x.time.frame } else c := by
    rw [← Host.Outcome.next.inj hr, clear_surv, clear_link]
    cases (x.link n.val).answer with
    | none =>
      refine ⟨rfl, ?_⟩
      show (State.link (x.updLink n.val _) n.val).cmds = _
      rw [State.link_updLink, if_pos ⟨rfl, hxlen⟩]
    | some a =>
      refine ⟨rfl, ?_⟩
      show (State.link (x.updLink n.val _) n.val).cmds = _
      rw [State.link_updLink, if_pos ⟨rfl, hxlen⟩]
  obtain ⟨hsurv, hrcmds⟩ := hshape
  obtain ⟨c, hc, hid, htag⟩ := hcmd
  have hcarm : armCmd v.tag ([(s.time.frame + s.parN .impArmLead) % 2 ^ 32, 50000000 / v.rate, v.rate, v.count] ++ v.tones) c =
      { c with params := [(s.time.frame + s.parN .impArmLead) % 2 ^ 32, 50000000 / v.rate, v.rate, v.count] ++ v.tones } := if_pos (by rw [hid, htag]; simp)
  have hmem : armCmd v.tag ([(s.time.frame + s.parN .impArmLead) % 2 ^ 32, 50000000 / v.rate, v.rate, v.count] ++ v.tones) c ∈ beaconCmds x n.val := by
    rw [hplaced, hcmds]
    exact List.mem_map_of_mem hc
  rw [hcarm] at hmem
  have hsent := List.mem_map_of_mem (f := fun c => if ((beaconCmds x n.val).map (·.tag)).contains c.tag then { c with tries := c.tries + 1, lastFrame := x.time.frame } else c) (beaconCmds_subset x n.val hmem)
  rw [← hrcmds] at hsent
  dsimp only at hsent
  rw [if_pos (List.contains_iff_mem.2 (List.mem_map_of_mem hmem))] at hsent
  exact ⟨w, by rw [hsurv]; exact hw, hwA, hwt0, hwEnd, _, hsent, hid, htag, Nat.succ_pos c.tries, rfl⟩

theorem burstCurrentSample_keeps : ∀ t a b v s, s.running = true → s.surv.imp = some v → v.frameA.isSome = true → v.t0 ≤ t → t ≤ v.tEnd → v.samplesA.length < v.count →
    Completes (.burstCurrentSample t a b) s fun r =>
      (∃ w, r.surv.imp = some w ∧ w.samplesA.length = v.samplesA.length + 1 ∧ w.samplesB.length = v.samplesB.length + 1 ∧ w.st = 3 ∧
        (∀ x, channelVal s (4 * v.string) a = some x → w.samplesA = v.samplesA ++ [x]) ∧
        (∀ x, channelVal s (4 * v.string + 1) b = some x → w.samplesB = v.samplesB ++ [x])) ∧ keepsBut [.time, .surv] s r := by
  intro t a b v s hrun hv harmed hlo hhi hleft
  have hexec : exec (.burstCurrentSample t a b) s = execBurstCurrentSample t a b s := rfl
  have hv' : (s.at_ t).surv.imp = some v := hv
  have hgo : ((s.at_ t).running && v.frameA.isSome && decide (v.t0 ≤ t) && decide (t ≤ v.tEnd) && decide (v.samplesA.length < v.count)) = true := by
    rw [at_running, hrun, harmed, decide_eq_true hlo, decide_eq_true hhi, decide_eq_true hleft]
    rfl
  rw [Completes, hexec, execBurstCurrentSample]
  simp only [hv']
  rw [if_pos hgo]
  refine ⟨_, rfl, ⟨_, rfl, List.length_append, List.length_append, rfl, fun x hx => ?_, fun x hx => ?_⟩, by simp +decide⟩
  · have hx' : channelVal (s.at_ t) (4 * v.string) a = some x := hx
    simp only [hx']
    rfl
  · have hx' : channelVal (s.at_ t) (4 * v.string + 1) b = some x := hx
    simp only [hx']
    rfl

theorem surveyBins_keeps : ∀ t v useB s, s.running = true → p3Held s = false → s.surv.imp = some v → v.frameA.isSome = true → v.tEnd ≤ t → v.bins = none →
    v.useB.getD ((s.estr v.string).inUse == 1) = useB → v.curOk = true →
    (∀ k, k < 3 →
      let x := (v.tones.map (binOf v.samplesA v.rate)).getD k (0, 0)
      let y := (v.tones.map (binOf v.samplesB v.rate)).getD k (0, 0)
      absAbove (x.1 - y.1, x.2 - y.2) ((s.parN .impIAgree : Rat) / 1000) (if useB = true then y else x) = false) →
    ratAbs (sampleMean ((if useB = true then v.samplesB else v.samplesA).take (v.rate / 2)) -
      sampleMean ((if useB = true then v.samplesB else v.samplesA).drop ((if useB = true then v.samplesB else v.samplesA).length - v.rate / 2))) ≤ (s.parN .impIDrift : Rat) / 100 →
    Completes (.surveyBins t) s fun r =>
      r.surv.imp = some { v with bins := some (v.tones.map (binOf (if useB = true then v.samplesB else v.samplesA) v.rate)), st := 4 } ∧ keepsBut [.time, .surv] s r := by
  intro t v useB s hrun hheld hv harmed hend hbins huse hok hagree hdrift
  have hexec : exec (.surveyBins t) s = execSurveyBins t s := rfl
  have hv' : (s.at_ t).surv.imp = some v := hv
  have hgo : (!(s.at_ t).running || p3Held (s.at_ t) || v.frameA.isNone || decide ((s.at_ t).time.now < v.tEnd) || v.bins.isSome) = false := by
    have h : p3Held (s.at_ t) = false := hheld
    have hA : v.frameA.isNone = false := by simpa using harmed
    have hnow : ¬(s.at_ t).time.now < v.tEnd := by show ¬max s.time.now t < v.tEnd; omega
    rw [at_running, hrun, h, hA, hbins, decide_eq_false hnow]
    rfl
  rw [Completes, hexec, execSurveyBins]
  simp only [hv']
  rw [if_neg (by rw [hgo]; decide)]
  have hpar : ∀ p, (s.at_ t).parN p = s.parN p := fun _ => rfl
  have hin : v.useB.getD (((s.at_ t).estr v.string).inUse == 1) = useB := huse
  simp only [hpar, hin]
  rw [if_neg]
  · exact ⟨_, rfl, by cases useB <;> rfl, by simp +decide⟩
  · simp only [Bool.or_eq_true, Bool.not_eq_true', hok, decide_eq_true_eq, not_or, not_lt]
    refine ⟨⟨by decide, ?_⟩, hdrift⟩
    rw [Bool.not_eq_true, List.any_eq_false]
    intro k hk
    have h := hagree k (List.mem_range.1 hk)
    dsimp only at h
    rw [Bool.not_eq_true, ← h]
    cases useB <;> rfl

theorem surveyBins_aborts : ∀ t v s, s.running = true → p3Held s = false → s.surv.imp = some v → v.frameA.isSome = true → v.tEnd ≤ t → v.bins = none → v.curOk = false →
    exec (.surveyBins t) s = .next (abortImp 5 (s.at_ t)) := by
  intro t v s hrun hheld hv harmed hend hbins hok
  have hexec : exec (.surveyBins t) s = execSurveyBins t s := rfl
  have hv' : (s.at_ t).surv.imp = some v := hv
  have hgo : (!(s.at_ t).running || p3Held (s.at_ t) || v.frameA.isNone || decide ((s.at_ t).time.now < v.tEnd) || v.bins.isSome) = false := by
    have h : p3Held (s.at_ t) = false := hheld
    have hA : v.frameA.isNone = false := by simpa using harmed
    have hnow : ¬(s.at_ t).time.now < v.tEnd := by show ¬max s.time.now t < v.tEnd; omega
    rw [at_running, hrun, h, hA, hbins, decide_eq_false hnow]
    rfl
  rw [hexec, execSurveyBins]
  simp only [hv']
  rw [if_neg (by rw [hgo]; decide), if_pos (by rw [hok]; rfl)]

theorem impedanceResult_rows : ∀ t v xi s, s.running = true → p3Held s = false → s.surv.imp = some v → v.bins = some xi → s.surv.table = none → (∃ b, b < 36 ∧ (resultOf s v b).isSome = true) →
    (∀ b ∈ v.took, b < 36 ∧ (resultOf s v b).isSome = true) →
    Completes (.impedanceResult t) s fun r =>
      r.surv.imp = some { v with st := 5 } ∧
      (∃ tb, r.surv.table = some tb ∧ tb.string = v.string ∧ tb.frame = v.tEnd / 10000000 ∧
        (∀ row ∈ tb.rows, ∃ p bs, p < cellCount s v.string ∧ p ∉ v.badCells ∧ resultOf s v (p / 16) = some bs ∧ row = impRow s v xi bs p) ∧
        (∀ p bs, p < cellCount s v.string → p ∉ v.badCells → p < 576 → resultOf s v (p / 16) = some bs → impRow s v xi bs p ∈ tb.rows)) ∧
      keepsBut [.time, .surv] s r := by
  intro t v xi s hrun hheld hv hbins htable hgot hall
  have hexec : exec (.impedanceResult t) s = execImpedanceResult t s := rfl
  have hv' : (s.at_ t).surv.imp = some v := hv
  have hres : ∀ b, resultOf (s.at_ t) v b = resultOf s v b := fun _ => rfl
  have hcount : cellCount (s.at_ t) v.string = cellCount s v.string := rfl
  have hrow : impRow (s.at_ t) v xi = impRow s v xi := rfl
  have hgo : (!(s.at_ t).running || p3Held (s.at_ t) || ((List.range 36).filter fun b => (resultOf s v b).isSome).isEmpty ||
      !(v.took.all ((List.range 36).filter fun b => (resultOf s v b).isSome).contains || burstLate (s.at_ t) v) || (s.at_ t).surv.table.isSome) = false := by
    have h : p3Held (s.at_ t) = false := hheld
    have htab : (s.at_ t).surv.table = none := htable
    have hne : ((List.range 36).filter fun b => (resultOf s v b).isSome).isEmpty = false := by
      obtain ⟨b, hb, hres⟩ := hgot
      rw [Bool.eq_false_iff, ne_eq, List.isEmpty_iff]
      exact List.ne_nil_of_mem (List.mem_filter.2 ⟨List.mem_range.2 hb, hres⟩)
    have hevery : v.took.all ((List.range 36).filter fun b => (resultOf s v b).isSome).contains = true := by
      rw [List.all_eq_true]
      intro b hb
      obtain ⟨hlt, hres⟩ := hall b hb
      exact List.contains_iff_mem.2 (List.mem_filter.2 ⟨List.mem_range.2 hlt, hres⟩)
    rw [at_running, hrun, h, hne, hevery, htab]
    rfl
  rw [Completes, hexec, execImpedanceResult]
  simp only [hv', hbins, hres, hcount, hrow]
  rw [if_neg (by rw [hgo]; decide)]
  refine ⟨_, rfl, rfl, ⟨_, rfl, rfl, rfl, fun row hmem => ?_, fun p bs hp hbad hp576 hres => ?_⟩, by simp +decide⟩
  · obtain ⟨b, -, hb⟩ := List.mem_flatMap.1 hmem
    split at hb
    next bs hbs =>
      obtain ⟨p, hp, hrow⟩ := List.mem_filterMap.1 hb
      obtain ⟨c, hc, rfl⟩ := List.mem_map.1 hp
      have hc16 := List.mem_range.1 hc
      split at hrow
      · cases hrow
      next hgood =>
        simp only [Bool.or_eq_true, List.contains_iff_mem, decide_eq_true_eq, not_or, not_le] at hgood
        refine ⟨16 * b + c, bs, hgood.2, hgood.1, ?_, (Option.some.inj hrow).symm⟩
        rw [show (16 * b + c) / 16 = b by omega]
        exact hbs
    next => cases hb
  · refine List.mem_flatMap.2 ⟨p / 16, List.mem_filter.2 ⟨List.mem_range.2 (by omega), by rw [hres]; rfl⟩, ?_⟩
    rw [hres]
    refine List.mem_filterMap.2 ⟨p, List.mem_map.2 ⟨p % 16, List.mem_range.2 (Nat.mod_lt _ (by decide)), by omega⟩, ?_⟩
    exact if_neg (by simp [hbad, hp])

/-- Settles O13: by the beacon that carries BURST_ARM, the samples and bins of the burst, and the rows of its result. -/
theorem surveyMeasurement : Obligations.SurveyMeasurement :=
  ⟨burstArm_queues, uwbSync_arms, burstCurrentSample_keeps, surveyBins_keeps, surveyBins_aborts, impedanceResult_rows⟩

end Sys2Proof.Machine
end

section
/-!
PROOF. LoopCommands: turning points, tick boundaries, and the Engineer commands to a loop.
-/
namespace Sys2Proof.Machine

theorem running_of_keepsBut {ps : List Piece} {s t : State} (h : keepsBut ps s t) (hb : Piece.boot ∉ ps) : t.running = s.running := by
  have hboot : t.boot = s.boot := h .boot hb
  simp only [State.running, hboot]

theorem loop_of_keepsBut {ps : List Piece} {s t : State} (h : keepsBut ps s t) (hr : Piece.reg ∉ ps) (n : Nat) : t.loop n = s.loop n := by
  have hreg : t.reg = s.reg := h .reg hr
  simp only [State.loop, hreg]

/-- Work on the four strings, seen from one of them through a relation that the work on the others keeps. -/
theorem forEach_four {Q : State → State → Prop} (hrefl : ∀ s, Q s s) (htrans : ∀ s t u, Q s t → Q t u → Q s u) {n : Nat} (hn : n < 4) {f : Nat → State → State}
    (hf : ∀ m, m ≠ n → ∀ s, Q s (f m s)) (s : State) : ∃ u, Q s u ∧ Q (f n u) (forEach (List.range 4) f s) := by
  have hlist : ∀ (l : List Nat), n ∉ l → ∀ s, Q s (forEach l f s) := by
    intro l hl
    induction l with
    | nil => exact hrefl
    | cons m l ih =>
      obtain ⟨hne, hl⟩ := List.ne_and_not_mem_of_not_mem_cons hl
      exact fun s => htrans _ _ _ (hf m hne.symm s) (ih hl (f m s))
  obtain ⟨l1, l2, hl⟩ := List.append_of_mem (List.mem_range.2 hn)
  have hnodup : (List.range 4).Nodup := List.nodup_range
  rw [hl] at hnodup ⊢
  have h1 : n ∉ l1 := fun h => (List.nodup_append.1 hnodup).2.2 n h n List.mem_cons_self rfl
  have h2 : n ∉ l2 := (List.nodup_cons.1 (List.nodup_append.1 hnodup).2.1).1
  refine ⟨forEach l1 f s, hlist l1 h1 s, ?_⟩
  have heq : forEach (l1 ++ n :: l2) f s = forEach l2 f (f n (forEach l1 f s)) := by simp [forEach]
  rw [heq]
  exact hlist l2 h2 _

/-! ### The work of a tick on one loop -/

/-- Work on the loop of string m: the other loops and the tables in force stay. -/
structure loopWork (m : Nat) (s t : State) : Prop where
  frame : keepsBut [.reg, .est, .disp, .guard, .recorder] s t
  others : ∀ k, k ≠ m → t.loop k = s.loop k
  act : t.reg.act = s.reg.act
  shadow : t.reg.shadow = s.reg.shadow
  ana : t.reg.ana = s.reg.ana
  dispAct : t.disp.act = s.disp.act
  len : t.reg.loops.length = s.reg.loops.length

theorem loopWork_refl (m : Nat) (s : State) : loopWork m s s := ⟨keepsBut_refl _ _, fun _ _ => rfl, rfl, rfl, rfl, rfl, rfl⟩

theorem loopWork_trans {m : Nat} {s t u : State} (h1 : loopWork m s t) (h2 : loopWork m t u) : loopWork m s u :=
  ⟨keepsBut_trans h1.frame h2.frame, fun k hk => (h2.others k hk).trans (h1.others k hk), h2.act.trans h1.act, h2.shadow.trans h1.shadow, h2.ana.trans h1.ana,
    h2.dispAct.trans h1.dispAct, h2.len.trans h1.len⟩

theorem loopWork_of_keepsBut {ps : List Piece} (m : Nat) {s t : State} (h : keepsBut ps s t) (hps : ps ⊆ [.est, .guard, .recorder]) : loopWork m s t := by
  have h' := keepsBut_mono h hps
  have hreg : t.reg = s.reg := h' .reg (by decide)
  exact ⟨keepsBut_mono h' (by decide), fun k _ => loop_of_keepsBut h' (by decide) k, by rw [hreg], by rw [hreg], by rw [hreg], by rw [h' .disp (by decide)], by rw [hreg]⟩

theorem loopWork_updLoop (m : Nat) (f : Loop → Loop) (s : State) : loopWork m s (s.updLoop m f) :=
  ⟨by simp +decide, fun k hk => by rw [State.loop_updLoop, if_neg fun h => hk h.1.symm], rfl, rfl, rfl, rfl, length_updAt _ _ _⟩

theorem send_loop (o : Output) (n : Nat) (s : State) : (s.send o).loop n = s.loop n := rfl

theorem loopWork_latchLoop (m : Nat) (s : State) : loopWork m s (latchLoop m s) := loopWork_updLoop ..

theorem loopWork_stand (m c a : Nat) (on : Bool) (s : State) : loopWork m s (s.stand c a on) := loopWork_of_keepsBut m (ps := [.recorder]) (by simp +decide) (by decide)

theorem loopWork_clear (m c a : Nat) (s : State) : loopWork m s (s.clear c a) := loopWork_of_keepsBut m (ps := [.recorder]) (by simp +decide) (by decide)

theorem loopWork_because (m : Nat) (p : Plant) (o : Owner) (s : State) : loopWork m s (s.because p o) := loopWork_of_keepsBut m (ps := [.recorder]) (by simp +decide) (by decide)

theorem loopWork_stage (m n : Nat) (s : State) : loopWork m s (stage n s) := loopWork_of_keepsBut m (ps := [.est, .guard]) (by simp +decide) (by decide)

theorem loopWork_loopOff (m : Nat) (goal : LoopSt) (o : Owner) (s : State) : loopWork m s (loopOff m goal o s) := by
  unfold loopOff
  extract_lets was s1
  have h1 : loopWork m s s1 := loopWork_updLoop ..
  clear_value s1
  refine loopWork_trans h1 (loopWork_trans ?_ (loopWork_trans (loopWork_clear ..) (loopWork_trans (loopWork_because ..) (loopWork_stage ..))))
  split
  · exact loopWork_clear ..
  · exact loopWork_refl ..

theorem loopWork_failLane (m k : Nat) (s : State) : loopWork m s (failLane k s) := ⟨by simp +decide, fun _ _ => rfl, rfl, rfl, rfl, rfl, rfl⟩

theorem loopWork_stopDisconnects (m n : Nat) (s : State) : loopWork m s (stopDisconnects n s) := ⟨by simp +decide, fun _ _ => rfl, rfl, rfl, rfl, rfl, rfl⟩

theorem loopWork_stopByLane (m k : Nat) (s : State) : loopWork m s (stopByLane m k s) :=
  loopWork_trans (loopWork_failLane m k s) (loopWork_trans (loopWork_loopOff ..) (loopWork_trans (loopWork_updLoop m _ _)
    (loopWork_trans (loopWork_stand ..) (loopWork_stopDisconnects m m _))))

theorem loopWork_stopDue (k m : Nat) (s : State) : loopWork m s (stopDue k m s) := by
  unfold stopDue
  extract_lets l s1
  have h1 : loopWork m s s1 := by
    unfold s1
    split
    · exact loopWork_latchLoop ..
    · exact loopWork_refl ..
  clear_value s1
  split
  · split
    · exact loopWork_trans h1 (loopWork_stopByLane ..)
    · exact h1
  · exact h1

/-- A region decided for the loop of string n takes force at the tick boundary (R243). -/
def regionStep (n : Nat) (s : State) : State :=
  match (s.loop n).regionNext with
  | some k =>
    if (s.loop n).st == .auto || (s.loop n).st == .manual then
      (s.updLoop n fun l => { l with region := k, gset := (regionOf s n k).set, setChanged := l.setChanged || (regionOf s n k).set != l.gset, regionNext := none, dwell := 0, changes := l.changes + 1 }).because (.current n) .table
    else s.updLoop n fun l => { l with regionNext := none }
  | none => s

theorem loopWork_regionStep (m : Nat) (s : State) : loopWork m s (regionStep m s) := by
  unfold regionStep
  split
  · split
    · exact loopWork_trans (loopWork_updLoop m _ s) (loopWork_because ..)
    · exact loopWork_updLoop m _ s
  · exact loopWork_refl m s

theorem forEach_loopWork {f : Nat → State → State} (hf : ∀ m s, loopWork m s (f m s)) (l : List Nat) (s : State) :
    keepsBut [.reg, .est, .disp, .guard, .recorder] s (forEach l f s) ∧ (forEach l f s).reg.act = s.reg.act ∧ (forEach l f s).reg.shadow = s.reg.shadow ∧
    (forEach l f s).reg.ana = s.reg.ana ∧ (forEach l f s).disp.act = s.disp.act ∧ (forEach l f s).reg.loops.length = s.reg.loops.length := by
  induction l generalizing s with
  | nil => exact ⟨keepsBut_refl _ _, rfl, rfl, rfl, rfl, rfl⟩
  | cons m l ih =>
    obtain ⟨hk, hact, hshadow, hana, hdisp, hlen⟩ := ih (f m s)
    have h := hf m s
    exact ⟨keepsBut_trans h.frame hk, hact.trans h.act, hshadow.trans h.shadow, hana.trans h.ana, hdisp.trans h.dispAct, hlen.trans h.len⟩

/-- The loop of string n after work on the four loops, when the work reads no other loop. -/
theorem forEach_loopWork_loop {f : Nat → State → State} (hf : ∀ m s, loopWork m s (f m s)) {n : Nat} (hn : n < 4) (s : State) :
    ∃ u, u.loop n = s.loop n ∧ keepsBut [.reg, .est, .disp, .guard, .recorder] s u ∧ u.reg.loops.length = s.reg.loops.length ∧ (forEach (List.range 4) f s).loop n = (f n u).loop n := by
  obtain ⟨u, ⟨h1, hk, hl⟩, h2, -, -⟩ := forEach_four (Q := fun s t => t.loop n = s.loop n ∧ keepsBut [.reg, .est, .disp, .guard, .recorder] s t ∧ t.reg.loops.length = s.reg.loops.length)
    (fun s => ⟨rfl, keepsBut_refl _ _, rfl⟩) (fun s t u h1 h2 => ⟨h2.1.trans h1.1, keepsBut_trans h1.2.1 h2.2.1, h2.2.2.trans h1.2.2⟩) hn (f := f)
    (fun m hm s => ⟨(hf m s).others n hm.symm, (hf m s).frame, (hf m s).len⟩) s
  exact ⟨u, h1, hk, hl, h2⟩

/-- A string whose lane is sound keeps its lanes at a tick boundary; its loop is at most latched. -/
theorem stopDue_of_sound {k n : Nat} {s : State} (h : (s.loop n).laneStop = false) : stopDue k n s = s ∨ (s.loop n).latchDue = true ∧ stopDue k n s = latchLoop n s := by
  unfold stopDue
  extract_lets l s1
  have hl : l.laneStop = false := h
  have h1 : s1 = s ∨ (s.loop n).latchDue = true ∧ s1 = latchLoop n s := by
    unfold s1
    split
    next hdue =>
      rw [Bool.and_eq_true] at hdue
      exact .inr ⟨hdue.1, rfl⟩
    next => exact .inl rfl
  split
  · rw [hl]
    exact h1
  · exact h1

theorem latchLoop_loop {n : Nat} {s : State} (hn : n < s.reg.loops.length) : ∃ p, (latchLoop n s).loop n = { s.loop n with latchDue := false, resid := (0, 0), pubNext := p } := by
  unfold latchLoop
  rw [State.loop_updLoop, if_pos ⟨rfl, hn⟩]
  exact ⟨_, rfl⟩

theorem forEach_stopDue_lanes (k : Nat) (l : List Nat) (s : State) (h : ∀ n ∈ l, (s.loop n).laneStop = false) : (forEach l (stopDue k) s).reg.lanes = s.reg.lanes := by
  induction l generalizing s with
  | nil => rfl
  | cons m l ih =>
    have hm := h m List.mem_cons_self
    have hlatch : ∀ j, ((latchLoop m s).loop j).laneStop = (s.loop j).laneStop := fun j => by
      unfold latchLoop
      rw [State.loop_updLoop]
      split
      · rfl
      · rfl
    have hstep : (stopDue k m s).reg.lanes = s.reg.lanes ∧ ∀ j, ((stopDue k m s).loop j).laneStop = (s.loop j).laneStop := by
      rcases stopDue_of_sound (k := k) hm with he | ⟨-, he⟩
      · rw [he]
        exact ⟨rfl, fun _ => rfl⟩
      · rw [he]
        exact ⟨rfl, hlatch⟩
    exact (ih (stopDue k m s) fun n hn => (hstep.2 n).trans (h n (List.mem_cons_of_mem m hn))).trans hstep.1

theorem regionStep_lanes (n : Nat) (s : State) : (regionStep n s).reg.lanes = s.reg.lanes := by
  unfold regionStep
  split
  · split
    · rfl
    · rfl
  · rfl

theorem forEach_regionStep_lanes (l : List Nat) (s : State) : (forEach l regionStep s).reg.lanes = s.reg.lanes := by
  induction l generalizing s with
  | nil => rfl
  | cons m l ih => exact (ih (regionStep m s)).trans (regionStep_lanes m s)

/-- The tables of dispatch where they came late (R22, R243). -/
def lateTables (t : Nat) (s : State) : State := if s.reg.swapLate && t % frameNs != 0 then swapTables s else s

theorem lateTables_keeps (t : Nat) (s : State) : keepsBut [.reg, .disp, .recorder] s (lateTables t s) ∧ (∀ n, (lateTables t s).loop n = s.loop n) ∧
    (lateTables t s).reg.ana = s.reg.ana ∧ (lateTables t s).reg.lanes = s.reg.lanes ∧ (lateTables t s).reg.loops.length = s.reg.loops.length := by
  have hnote : ∀ x, keepsBut [.recorder] s (noteRefs x s) := fun x => by simp +decide
  refine ⟨by simp +decide [lateTables], ?_⟩
  unfold lateTables swapTables
  split
  · split
    next x _ =>
      have hreg : (noteRefs x s).reg = s.reg := hnote x .reg (by decide)
      show (∀ n, (noteRefs x s).loop n = s.loop n) ∧ (noteRefs x s).reg.ana = s.reg.ana ∧ (noteRefs x s).reg.lanes = s.reg.lanes ∧ (noteRefs x s).reg.loops.length = s.reg.loops.length
      rw [hreg]
      exact ⟨fun n => by simp only [State.loop, hreg], rfl, rfl, rfl⟩
    next => exact ⟨fun _ => rfl, rfl, rfl, rfl⟩
  · exact ⟨fun _ => rfl, rfl, rfl, rfl⟩

theorem lateTables_swaps {t : Nat} {s : State} {x : RegTables} (hx : s.reg.shadow = some x) (hlate : s.reg.swapLate = true) (ht : t % frameNs ≠ 0) :
    (lateTables t s).reg.act = x ∧ (lateTables t s).reg.shadow = s.reg.shadowAfter ∧ (lateTables t s).disp.act.strs = s.disp.strs := by
  have hnote : keepsBut [.recorder] s (noteRefs x s) := by simp +decide
  unfold lateTables swapTables
  rw [if_pos (by rw [hlate]; simpa using ht), hx]
  show x = x ∧ (noteRefs x s).reg.shadowAfter = _ ∧ (noteRefs x s).disp.strs = _
  rw [hnote .reg (by decide), hnote .disp (by decide)]
  exact ⟨rfl, rfl, rfl⟩

/-- A decided region takes force in a loop that runs (R243). -/
theorem regionStep_takes {n k : Nat} {s : State} (hnext : (s.loop n).regionNext = some k) (hst : ((s.loop n).st == .auto || (s.loop n).st == .manual) = true) (hn : n < s.reg.loops.length) :
    ((regionStep n s).loop n).region = k ∧ ((regionStep n s).loop n).gset = (regionOf s n k).set ∧ ((regionStep n s).loop n).regionNext = none ∧ ((regionStep n s).loop n).dwell = 0 ∧
    ((regionStep n s).loop n).changes = (s.loop n).changes + 1 := by
  unfold regionStep
  rw [hnext]
  dsimp only
  rw [if_pos hst]
  show (State.loop (s.updLoop n _) n).region = k ∧ (State.loop (s.updLoop n _) n).gset = _ ∧ (State.loop (s.updLoop n _) n).regionNext = none ∧ (State.loop (s.updLoop n _) n).dwell = 0 ∧
    (State.loop (s.updLoop n _) n).changes = _
  rw [State.loop_updLoop, if_pos ⟨rfl, hn⟩]
  exact ⟨rfl, rfl, rfl, rfl, rfl⟩

theorem anaTick_keeps (t : Nat) (d : Density) (s : State) : keepsBut [.reg] s (anaTick t d s) ∧ (∀ n, (anaTick t d s).loop n = s.loop n) ∧ (anaTick t d s).reg.act = s.reg.act ∧
    (anaTick t d s).reg.shadow = s.reg.shadow ∧ (anaTick t d s).reg.shadowAfter = s.reg.shadowAfter ∧ (anaTick t d s).reg.swapLate = s.reg.swapLate ∧
    (anaTick t d s).reg.lanes = s.reg.lanes ∧ (anaTick t d s).reg.loops.length = s.reg.loops.length := by
  refine ⟨by simp +decide, ?_⟩
  simp only [anaTick, State.loop, State.modReg_reg]
  split
  · exact ⟨fun _ => rfl, rfl, rfl, rfl, rfl, rfl, rfl⟩
  · exact ⟨fun _ => rfl, rfl, rfl, rfl, rfl, rfl, rfl⟩

/-- The tick boundary in its stages: the analogue mean, the late tables, the strings that stop or are latched, the decided regions. -/
theorem exec_tickBoundary {t : Nat} {d : Density} {s : State} (hrun : s.running = true) (ht : t % tickNs = 0) : ∃ u, keepsBut [.time] s u ∧
    exec (.tickBoundary t d) s = .next (forEach (List.range 4) regionStep (forEach (List.range 4) (stopDue (t / tickNs)) (lateTables t (anaTick t d u)))) := by
  have hkeep : keepsBut [.time] s (fireOutputs (fireUnit 0 (s.at_ t))) := by simp +decide
  have hexec : exec (.tickBoundary t d) s = execTickBoundary t d s := rfl
  have hrun' : (fireOutputs (fireUnit 0 (s.at_ t))).running = true := (running_of_keepsBut hkeep (by decide)).trans hrun
  refine ⟨_, hkeep, ?_⟩
  rw [hexec, execTickBoundary]
  generalize fireOutputs (fireUnit 0 (s.at_ t)) = u at *
  rw [if_neg (by rw [hrun', ht]; decide)]
  rfl

theorem turningPoint_loads : ∀ t (n : Fin 4) s, s.running = true → s.reg.loops.length = 4 → turningPoint s n.val t = true →
    let run := ((s.loop n.val).st = .auto ∨ (s.loop n.val).st = .manual) ∧ gateEn s n.val = true
    let leg (x : Nat) : List (Nat × Bool × Nat) := legEdges x (counterOf s n.val x t) ((s.loop n.val).ready.getD x 0) (s.parN .regPwmDead) t
    Completes (.pwmTurningPoint t n) s fun r =>
      (r.loop n.val).cmp = (s.loop n.val).ready ∧ ((r.loop n.val).pwmLow = false ↔ run) ∧
      (run → r.out = Output.pwm n.val (leg 0 ++ leg 1) :: s.out) ∧ (¬ run → r.out = s.out) ∧
      { r.loop n.val with cmp := (s.loop n.val).cmp, pwmLow := (s.loop n.val).pwmLow } = s.loop n.val ∧ (∀ m, m ≠ n.val → r.loop m = s.loop m) ∧
      keepsBut [.time, .reg, .out] s r := by
  intro t n s hrun hlen hturn run leg
  have hexec : exec (.pwmTurningPoint t n) s = execPwmTurningPoint t n s := rfl
  have hn : n.val < s.reg.loops.length := by omega
  have hgo : (!(s.at_ t).running || !turningPoint (s.at_ t) n.val t) = false := by
    have h : turningPoint (s.at_ t) n.val t = true := hturn
    rw [at_running, hrun, h]
    rfl
  have hrunb : (((s.loop n.val).st == .auto || (s.loop n.val).st == .manual) && gateEn s n.val) = true ↔ run := by
    simp only [Bool.and_eq_true, Bool.or_eq_true, beq_iff_eq, run]
  rw [Completes, hexec, execPwmTurningPoint, if_neg (by rw [hgo]; decide)]
  have hself : ∀ f : Loop → Loop, ((s.at_ t).updLoop n.val f).loop n.val = f (s.loop n.val) := fun f => by
    rw [State.loop_updLoop, if_pos ⟨rfl, hn⟩]
    rfl
  have hother : ∀ f : Loop → Loop, ∀ m, m ≠ n.val → ((s.at_ t).updLoop n.val f).loop m = s.loop m := fun f m hm => by
    rw [State.loop_updLoop, if_neg fun h => hm h.1.symm]
    rfl
  by_cases h : run
  · have hb := hrunb.2 h
    have hb' : ((((s.at_ t).loop n.val).st == .auto || ((s.at_ t).loop n.val).st == .manual) && gateEn (s.at_ t) n.val) = true := hb
    simp only [hb', if_true, Bool.not_true]
    refine ⟨_, rfl, ?_, ?_, fun _ => rfl, fun hno => absurd h hno, ?_, hother _, by simp +decide⟩
    · rw [send_loop, hself]
    · rw [send_loop, hself]
      exact ⟨fun _ => h, fun _ => rfl⟩
    · rw [send_loop, hself]
  · have hb : (((s.loop n.val).st == .auto || (s.loop n.val).st == .manual) && gateEn s n.val) = false := Bool.eq_false_iff.2 fun hb => h (hrunb.1 hb)
    have hb' : ((((s.at_ t).loop n.val).st == .auto || ((s.at_ t).loop n.val).st == .manual) && gateEn (s.at_ t) n.val) = false := hb
    simp only [hb', Bool.not_false, Bool.false_eq_true, if_false]
    refine ⟨_, rfl, ?_, ?_, fun hr => absurd hr h, fun _ => rfl, ?_, hother _, by simp +decide⟩
    · rw [hself]
    · rw [hself]
      exact ⟨fun hf : true = false => absurd hf (by decide), fun hr => absurd hr h⟩
    · rw [hself]

theorem outputSaturated_raises : ∀ t (n : Fin 4) s j, s.running = true → j ∈ (s.loop n.val).satRun → s.parN .regSatReport ≤ j →
    Completes (.outputSaturated t n) s fun r => r.isRaised 0x4008 n.val = true ∧ keepsBut [.time, .recorder] s r := by
  intro t n s j hrun hj hlong
  have hexec : exec (.outputSaturated t n) s = execOutputSaturated t n s := rfl
  refine ⟨(s.at_ t).stand 0x4008 n.val true, ?_, isRaised_stand_true _ _ _ (by decide), by simp +decide⟩
  rw [hexec, execOutputSaturated]
  refine if_pos ?_
  rw [at_running, hrun, Bool.true_and]
  exact List.any_eq_true.2 ⟨j, hj, decide_eq_true hlong⟩

theorem tickBoundary_loops : ∀ t d s, s.running = true → t % tickNs = 0 → s.reg.loops.length = 4 →
    Completes (.tickBoundary t d) s fun r =>
      (∀ n k, n < 4 → (s.loop n).regionNext = some k → ((s.loop n).st = .auto ∨ (s.loop n).st = .manual) → (s.loop n).laneStop = false →
        (r.loop n).region = k ∧ (r.loop n).gset = (regionOf s n k).set ∧ (r.loop n).regionNext = none ∧ (r.loop n).dwell = 0 ∧
        (r.loop n).changes = (s.loop n).changes + 1) ∧
      (∀ n, n < 4 → (s.loop n).regionNext = none → (s.loop n).laneStop = false → (s.loop n).latchDue = false → r.loop n = s.loop n) ∧
      (∀ x, s.reg.shadow = some x → s.reg.swapLate = true → t % frameNs ≠ 0 → r.reg.act = x ∧ r.reg.shadow = s.reg.shadowAfter ∧ r.disp.act.strs = s.disp.strs) ∧
      (s.reg.swapLate = false → r.reg.act = s.reg.act ∧ r.reg.shadow = s.reg.shadow ∧ r.disp.act = s.disp.act) ∧
      r.reg.ana = (if t % frameNs = 0 then (0, 0, true) else (s.reg.ana.1 + density 256 d.bits, s.reg.ana.2.1 + 1, s.reg.ana.2.2 && (channelVal s 18 d).isSome)) ∧
      ((∀ n, n < 4 → (s.loop n).laneStop = false) → r.reg.lanes = s.reg.lanes) ∧ keepsBut [.time, .reg, .est, .disp, .guard, .recorder] s r := by
  intro t d s hrun ht hlen
  obtain ⟨u, hu, hexec⟩ := exec_tickBoundary (d := d) hrun ht
  have hreg : u.reg = s.reg := hu .reg (by decide)
  have hdisp : u.disp = s.disp := hu .disp (by decide)
  have hana : (anaTick t d u).reg.ana = if t % frameNs = 0 then (0, 0, true) else (s.reg.ana.1 + density 256 d.bits, s.reg.ana.2.1 + 1, s.reg.ana.2.2 && (channelVal s 18 d).isSome) := by
    have hchan : channelVal u 18 d = channelVal s 18 d := by simp only [channelVal, parF, parN_of_keepsBut hu (by decide)]
    unfold anaTick
    rw [State.modReg_reg, hreg, hchan]
    by_cases h : t % frameNs = 0
    · rw [if_pos h, if_pos (by simpa using h)]
    · rw [if_neg h, if_neg (by simpa using h)]
  obtain ⟨hAkeep, hAloop, hAact, hAshadow, hAafter, hAlate, hAlanes, hAlen⟩ := anaTick_keeps t d u
  generalize anaTick t d u = A at *
  obtain ⟨hBkeep, hBloop, hBana, hBlanes, hBlen⟩ := lateTables_keeps t A
  have hBswap := fun x => lateTables_swaps (t := t) (s := A) (x := x)
  have hBsame : A.reg.swapLate = false → lateTables t A = A := fun h => if_neg (by rw [h, Bool.false_and]; decide)
  generalize lateTables t A = B at *
  have hAreg := fun n => (hAloop n).trans (by simp only [State.loop, hreg] : u.loop n = s.loop n)
  have hBreg : ∀ n, B.loop n = s.loop n := fun n => (hBloop n).trans (hAreg n)
  have hBlength : B.reg.loops.length = 4 := by rw [hBlen, hAlen, hreg]; exact hlen
  obtain ⟨hCkeep, hCact, hCshadow, hCana, hCdisp, hClen⟩ := forEach_loopWork (fun m s => loopWork_stopDue (t / tickNs) m s) (List.range 4) B
  have hCloop := fun n hn => forEach_loopWork_loop (fun m s => loopWork_stopDue (t / tickNs) m s) (n := n) hn B
  have hClanes := forEach_stopDue_lanes (t / tickNs) (List.range 4) B
  generalize forEach (List.range 4) (stopDue (t / tickNs)) B = C at *
  obtain ⟨hDkeep, hDact, hDshadow, hDana, hDdisp, hDlen⟩ := forEach_loopWork (fun m s => loopWork_regionStep m s) (List.range 4) C
  have hDloop := fun n hn => forEach_loopWork_loop (fun m s => loopWork_regionStep m s) (n := n) hn C
  have hDlanes := forEach_regionStep_lanes (List.range 4) C
  generalize forEach (List.range 4) regionStep C = r at *
  have hBboot : B.boot = s.boot := (hBkeep .boot (by decide)).trans ((hAkeep .boot (by decide)).trans (hu .boot (by decide)))
  have hsound : ∀ n, n < 4 → (s.loop n).laneStop = false → C.loop n = s.loop n ∨ (s.loop n).latchDue = true ∧ ∃ p, C.loop n = { s.loop n with latchDue := false, resid := (0, 0), pubNext := p } := by
    intro n hn hok
    obtain ⟨v, hv, -, hvlen, hC⟩ := hCloop n hn
    rw [hC]
    have hvs : v.loop n = s.loop n := hv.trans (hBreg n)
    rcases stopDue_of_sound (k := t / tickNs) (s := v) (n := n) (by rw [hvs]; exact hok) with he | ⟨hdue, he⟩
    · rw [he]
      exact .inl hvs
    · rw [he]
      obtain ⟨p, hp⟩ := latchLoop_loop (s := v) (n := n) (by rw [hvlen, hBlength]; exact hn)
      rw [hvs] at hp hdue
      exact .inr ⟨hdue, p, hp⟩
  refine ⟨r, hexec, fun n k hn hnext hst hok => ?_, fun n hn hnext hok hdue => ?_, fun x hx hlate hframe => ?_, fun hlate => ?_, ?_, fun hok => ?_, ?_⟩
  · obtain ⟨v, hv, hvkeep, hvlen, hD⟩ := hDloop n hn
    have hboot : v.boot = s.boot := (hvkeep .boot (by decide)).trans ((hCkeep .boot (by decide)).trans hBboot)
    have hfields : (v.loop n).regionNext = some k ∧ (v.loop n).st = (s.loop n).st ∧ (v.loop n).changes = (s.loop n).changes := by
      rw [hv]
      rcases hsound n hn hok with he | ⟨-, p, he⟩
      · rw [he]
        exact ⟨hnext, rfl, rfl⟩
      · rw [he]
        exact ⟨hnext, rfl, rfl⟩
    obtain ⟨hvnext, hvst, hvchanges⟩ := hfields
    have hregion : regionOf v n k = regionOf s n k := by simp only [regionOf, hboot]
    have hbusy : ((v.loop n).st == .auto || (v.loop n).st == .manual) = true := by
      rw [hvst]
      simpa using hst
    have hstep := regionStep_takes hvnext hbusy (by rw [hvlen, hClen, hBlength]; exact hn)
    rw [hregion, hvchanges, ← hD] at hstep
    exact hstep
  · obtain ⟨v, hv, -, -, hD⟩ := hDloop n hn
    have hC : C.loop n = s.loop n := (hsound n hn hok).elim id fun h => by rw [hdue] at h; exact absurd h.1 (by decide)
    have hidle : regionStep n v = v := by
      unfold regionStep
      rw [hv, hC, hnext]
    rw [hD, hidle, hv, hC]
  · obtain ⟨hact, hshadow, hstrs⟩ := hBswap x (by rw [hAshadow, hreg]; exact hx) (by rw [hAlate, hreg]; exact hlate) hframe
    refine ⟨hDact.trans (hCact.trans hact), hDshadow.trans (hCshadow.trans (hshadow.trans (by rw [hAafter, hreg]))), ?_⟩
    rw [hDdisp, hCdisp, hstrs, hAkeep .disp (by decide), hdisp]
  · have hB := hBsame (by rw [hAlate, hreg]; exact hlate)
    refine ⟨hDact.trans (hCact.trans ?_), hDshadow.trans (hCshadow.trans ?_), hDdisp.trans (hCdisp.trans ?_)⟩
    · rw [hB, hAact, hreg]
    · rw [hB, hAshadow, hreg]
    · rw [hB, hAkeep .disp (by decide), hdisp]
  · rw [hDana, hCana, hBana, hana]
  · refine hDlanes.trans ((hClanes fun n hn => ?_).trans (hBlanes.trans (hAlanes.trans (by rw [hreg]))))
    rw [hBreg]
    exact hok n (List.mem_range.1 hn)
  · exact keepsBut_trans (keepsBut_mono hu (by decide)) (keepsBut_trans (keepsBut_mono hAkeep (by decide)) (keepsBut_trans (keepsBut_mono hBkeep (by decide))
      (keepsBut_trans (keepsBut_mono hCkeep (by decide)) (keepsBut_mono hDkeep (by decide)))))

theorem manualDuty_set : ∀ t (n : Fin 4) (d : BitVec 16) s, s.running = true → s.reg.loops.length = 4 → (s.boot.mode = .commission ∨ s.boot.mode = .service) →
    ((s.loop n.val).st = .auto ∨ (s.loop n.val).st = .manual) →
    Completes (.manualDuty t n d) s fun r =>
      r.loop n.val = { s.loop n.val with toManual := some (toF32 ((d.toNat : Rat) / 10000)) } ∧ (∀ m, m ≠ n.val → r.loop m = s.loop m) ∧ keepsBut [.time, .reg] s r := by
  intro t n d s hrun hlen hmode hst
  have hexec : exec (.manualDuty t n d) s = execManualDuty t n d s := rfl
  have hn : n.val < s.reg.loops.length := by omega
  refine ⟨(s.at_ t).updLoop n.val fun l => { l with toManual := some (toF32 ((d.toNat : Rat) / 10000)) }, ?_, ?_, fun m hm => ?_, by simp +decide⟩
  · have hgo : (((s.at_ t).boot.mode == .commission || (s.at_ t).boot.mode == .service) && (((s.at_ t).loop n.val).st == .auto || ((s.at_ t).loop n.val).st == .manual)) = true := by
      simp only [Bool.and_eq_true, Bool.or_eq_true, beq_iff_eq]
      exact ⟨hmode, hst⟩
    rw [hexec, execManualDuty, if_pos (by exact hrun), cmdManualDuty]
    exact congrArg (fun r : CmdOut => Host.Outcome.next r.1) (if_pos hgo)
  · rw [State.loop_updLoop, if_pos ⟨rfl, hn⟩]
    rfl
  · rw [State.loop_updLoop, if_neg fun h => hm h.1.symm]
    rfl

theorem manualDuty_refused : ∀ t (n : Fin 4) (d : BitVec 16) s, s.running = true → ((s.boot.mode ≠ .commission ∧ s.boot.mode ≠ .service) ∨ (s.loop n.val).st = .off) →
    exec (.manualDuty t n d) s = .next (State.raise 0x400E n.val (s.at_ t)) := by
  intro t n d s hrun hno
  have hexec : exec (.manualDuty t n d) s = execManualDuty t n d s := rfl
  have hgo : ¬(((s.at_ t).boot.mode == .commission || (s.at_ t).boot.mode == .service) && (((s.at_ t).loop n.val).st == .auto || ((s.at_ t).loop n.val).st == .manual)) = true := by
    simp only [Bool.and_eq_true, Bool.or_eq_true, beq_iff_eq]
    rintro ⟨hmode, hst⟩
    rcases hno with ⟨hc, hs⟩ | hoff
    · exact hmode.elim hc hs
    · have hoff' : ((s.at_ t).loop n.val).st = .off := hoff
      rw [hoff'] at hst
      exact hst.elim (fun h => by cases h) (fun h => by cases h)
  rw [hexec, execManualDuty, if_pos (by exact hrun), cmdManualDuty]
  exact congrArg (fun r : CmdOut => Host.Outcome.next r.1) (if_neg hgo)

theorem automatic_asked : ∀ t (n : Fin 4) s, s.running = true → s.reg.loops.length = 4 → (s.loop n.val).st = .manual →
    Completes (.automatic t n) s fun r => r.loop n.val = { s.loop n.val with toAuto := true } ∧ (∀ m, m ≠ n.val → r.loop m = s.loop m) ∧ keepsBut [.time, .reg] s r := by
  intro t n s hrun hlen hst
  have hexec : exec (.automatic t n) s = execAutomatic t n s := rfl
  have hn : n.val < s.reg.loops.length := by omega
  have hst' : ((s.at_ t).loop n.val).st = .manual := hst
  refine ⟨(s.at_ t).updLoop n.val fun l => { l with toAuto := true }, ?_, ?_, fun m hm => ?_, by simp +decide⟩
  · rw [hexec, execAutomatic, if_pos (by exact hrun), cmdAutomatic, hst']
    rfl
  · rw [State.loop_updLoop, if_pos ⟨rfl, hn⟩]
    rfl
  · rw [State.loop_updLoop, if_neg fun h => hm h.1.symm]
    rfl

theorem automatic_already : ∀ t (n : Fin 4) s, s.running = true → (s.loop n.val).st = .auto → exec (.automatic t n) s = .next (s.at_ t) := by
  intro t n s hrun hst
  have hexec : exec (.automatic t n) s = execAutomatic t n s := rfl
  have hst' : ((s.at_ t).loop n.val).st = .auto := hst
  rw [hexec, execAutomatic, if_pos (by exact hrun), cmdAutomatic, hst']
  rfl

theorem automatic_refused : ∀ t (n : Fin 4) s, s.running = true → (s.loop n.val).st ≠ .manual → (s.loop n.val).st ≠ .auto → exec (.automatic t n) s = .next (State.raise 0x400F n.val (s.at_ t)) := by
  intro t n s hrun hmanual hauto
  have hexec : exec (.automatic t n) s = execAutomatic t n s := rfl
  have hcmd : cmdAutomatic n.val (s.at_ t) = refuse 0x400F n.val (s.at_ t) := by
    unfold cmdAutomatic
    split
    next h => exact absurd h hmanual
    next h => exact absurd h hauto
    next => rfl
  rw [hexec, execAutomatic, if_pos (by exact hrun), hcmd]
  rfl

/-- Settles O17: by what a turning point and a tick boundary change in each loop, and the cases of the two commands. -/
theorem loopCommands : Obligations.LoopCommands :=
  ⟨turningPoint_loads, outputSaturated_raises, tickBoundary_loops, manualDuty_set, manualDuty_refused, automatic_asked, automatic_already, automatic_refused⟩

end Sys2Proof.Machine
end

section
namespace Sys2Proof.Machine

/-! PROOF. O15 does not hold: while a takeover waits, the spare's own error (spareSelf) takes no lane out of service, since
    `spareLane` then names none, though lane 4 still shadows the string whose lane reports it. -/

/-- String 3 is served by lane 1 and shadowed by lane 4, while string 0 waits for the spare to take its lane over. -/
def shadowedWhileTakeoverWaits : State :=
  let s := Tests.setPar .regStrings 0 0 15 (Tests.setPar .regPwmPhase 3 0 0 (Tests.setPar .bootPosition 0 0 0 Tests.run0))
  { s with reg := { Tests.run0.reg with
      loops := [Tests.run0.loop 0, Tests.run0.loop 1, Tests.run0.loop 2, { Tests.run0.loop 3 with st := .stopLane, lane := some 1, workAt := none }]
      takeover := some 0
      lanes := [{}, { st := 0, string := some 3 }, {}, {}, { st := 1, string := some 3 }] } }

/-- The state meets the hypotheses of the clause on a failed check. -/
theorem shadowedWhileTakeoverWaits_meets :
    let s := shadowedWhileTakeoverWaits
    s.running = true ∧ (20000 * 9) % tickNs = carrierPhase s 3 ∧ (s.loop 3).workAt ≠ some (20000 * 9 / tickNs) ∧
      s.parBit .regStrings 3 = true ∧ s.reg.loops.length = 4 ∧ s.reg.lanes.length = 5 ∧ (s.loop 3).lane = some 1 ∧
      shadowLane s 3 = some 4 := by
  decide +kernel

/-- The sample finds no spare, and lane 4 goes on shadowing. -/
theorem laneSample_keeps_shadow_lane :
    (match exec (.laneSample (20000 * 9) 3 [] .spareSelf) shadowedWhileTakeoverWaits with
      | .next r => (r.reg.lanes.getD 4 {}).st
      | _ => 3) = 1 := by
  decide +kernel

/-- Refutes O15: the clause on failed checks says that the spare's own error takes the lane that shadows the string out of
    service; with a takeover waiting no lane is the spare, and the lane stays as it was. -/
theorem not_laneSamples : ¬ Obligations.LaneSamples := by
  rintro ⟨-, -, -, check, -⟩
  obtain ⟨hrun, hphase, hwork, hon, hloops, hlanes, hlane, hshadow⟩ := shadowedWhileTakeoverWaits_meets
  have h := check _ 3 [] .spareSelf 1 _ hrun hphase hwork hon hloops hlanes hlane (by decide)
  have hkeep := laneSample_keeps_shadow_lane
  obtain ⟨r, hr, -, -, -, hshadowed, -⟩ := h
  obtain ⟨-, -, hout, -⟩ := hshadowed 4 hshadow (by decide)
  obtain ⟨hst, -⟩ := hout (.inr (.inr (.inl rfl)))
  rw [hr] at hkeep
  exact absurd (hst.symm.trans hkeep) (by decide)

end Sys2Proof.Machine
end

section
/-!
PROOF. O19: set-points and allowances held for their latch, and the source in use.
-/
namespace Sys2Proof.Machine

theorem latest_none {l : Nat} {xs : List (Int × Nat)} (h : latest l xs = none) : ∀ x ∈ xs, l < x.2 := by
  induction xs with
  | nil => simp
  | cons x xs ih =>
    obtain ⟨w, t⟩ := x
    rw [latest] at h
    split at h
    · split at h
      · split at h <;> exact (Option.some_ne_none _ h).elim
      · exact (Option.some_ne_none _ h).elim
    next hgt => exact List.forall_mem_cons.2 ⟨not_le.1 hgt, ih h⟩

/-- `latest` answers a message held, at or before the instant, and none of those is later. -/
theorem latest_some {l v u} {xs : List (Int × Nat)} (h : latest l xs = some (v, u)) :
    (v, u) ∈ xs ∧ u ≤ l ∧ ∀ x ∈ xs, x.2 ≤ l → x.2 ≤ u := by
  induction xs generalizing v u with
  | nil => simp [latest] at h
  | cons x xs ih =>
    obtain ⟨w, t⟩ := x
    rw [List.forall_mem_cons, List.mem_cons]
    rw [latest] at h
    split at h
    next hle =>
      cases hrest : latest l xs with
      | none =>
        rw [hrest] at h
        obtain ⟨rfl, rfl⟩ := Prod.mk.inj (Option.some.inj h)
        refine ⟨.inl rfl, hle, fun _ => le_refl _, fun y hy hyl => absurd hyl ?_⟩
        exact not_le.2 (latest_none hrest y hy)
      | some b =>
        obtain ⟨bv, bu⟩ := b
        obtain ⟨hmem, hbu, hmax⟩ := ih hrest
        simp only [hrest] at h
        split at h
        next hlt =>
          obtain ⟨rfl, rfl⟩ := Prod.mk.inj (Option.some.inj h)
          exact ⟨.inr hmem, hbu, fun _ => hlt.le, hmax⟩
        next hge =>
          obtain ⟨rfl, rfl⟩ := Prod.mk.inj (Option.some.inj h)
          exact ⟨.inl rfl, hle, fun _ => le_refl _, fun y hy hyl => (hmax y hy hyl).trans (not_lt.1 hge)⟩
    next hgt =>
      obtain ⟨hmem, hu, hmax⟩ := ih h
      exact ⟨.inr hmem, hu, fun hle => absurd hle hgt, hmax⟩

theorem hostSetpoint_held : ∀ t (w : Int) s, s.running = true → ratAbs (w : Rat) ≤ pMax s →
    Completes (.hostSetpoint t w) s fun r =>
      r.disp.hostHeld = (w, t) :: s.disp.hostHeld ∧ { r.disp with hostHeld := s.disp.hostHeld } = s.disp ∧ keepsBut [.time, .disp] s r := by
  intro t w s hrun hw
  refine ⟨(s.at_ t).modDisp fun d => { d with hostHeld := (w, t) :: d.hostHeld }, ?_, rfl, rfl, by simp +decide⟩
  show execHostSetpoint t w s = _
  rw [execHostSetpoint, if_pos (by exact hrun), holdHost, if_neg (by exact not_lt.2 hw)]
  rfl

theorem hostSetpoint_refused : ∀ t (w : Int) s, s.running = true → pMax s < ratAbs (w : Rat) → exec (.hostSetpoint t w) s = .next (State.raise 0x4022 0 (s.at_ t)) := by
  intro t w s hrun hw
  show execHostSetpoint t w s = _
  rw [execHostSetpoint, if_pos (by exact hrun), holdHost, if_pos (by exact hw)]
  rfl

theorem hostAllowance_held : ∀ t (c d : BitVec 16) s, s.running = true →
    Completes (.hostAllowance t c d) s fun r =>
      r.disp.allowHost = ((c.toNat, d.toNat), t) :: s.disp.allowHost ∧ { r.disp with allowHost := s.disp.allowHost } = s.disp ∧ keepsBut [.time, .disp] s r := by
  intro t c d s hrun
  refine ⟨holdAllowHost c.toNat d.toNat t (s.at_ t), ?_, rfl, rfl, by simp +decide⟩
  show execHostAllowance t c d s = _
  rw [execHostAllowance, if_pos (by exact hrun)]

theorem latest_is_latest : ∀ (l : Nat) (xs : List (Int × Nat)),
    (∀ v u, latest l xs = some (v, u) → (v, u) ∈ xs ∧ u ≤ l ∧ ∀ x ∈ xs, x.2 ≤ l → x.2 ≤ u) ∧ (latest l xs = none → ∀ x ∈ xs, l < x.2) := by
  exact fun l xs => ⟨fun _ _ => latest_some, latest_none⟩

theorem applySelect_of_select {s : State} {b : Bool} (h : s.disp.select = some b) :
    (applySelect s).disp.onBackup = b ∧ (applySelect s).disp.select = none := by
  unfold applySelect
  rw [h]
  dsimp only
  split <;> exact ⟨rfl, rfl⟩

theorem selectSetpointSource_selects : ∀ t b s, s.running = true → (b = false ∨ s.parN .dispSrcBackup ≠ 255) →
    Completes (.selectSetpointSource t b) s fun r =>
      r.disp = { s.disp with select := some b } ∧ (applySelect r).disp.onBackup = b ∧ (applySelect r).disp.select = none ∧ keepsBut [.time, .disp] s r := by
  intro t b s hrun hback
  have hno : (b && (s.at_ t).parN .dispSrcBackup == 255) = false := by
    rcases hback with rfl | hne
    · rfl
    · exact Bool.and_eq_false_iff.2 (.inr (beq_eq_false_iff_ne.2 hne))
  obtain ⟨hon, hsel⟩ := applySelect_of_select (s := (s.at_ t).modDisp fun d => { d with select := some b }) rfl
  refine ⟨(s.at_ t).modDisp fun d => { d with select := some b }, ?_, rfl, hon, hsel, by simp +decide⟩
  show execSelectSetpointSource t b s = _
  rw [execSelectSetpointSource, if_pos (by exact hrun), cmdSelect, if_neg (by rw [hno]; decide)]
  rfl

theorem lossHoldExpiry_ends : ∀ t s, s.running = true → s.disp.loss = 1 → s.disp.lossAt + s.parN .dispLossHold * 1000000 ≤ t →
    Completes (.lossHoldExpiry t) s fun r => r.disp = { s.disp with loss := 2 } ∧ keepsBut [.time, .disp] s r := by
  intro t s hrun hloss hdue
  have hdue' : (s.at_ t).disp.lossAt + (s.at_ t).parN .dispLossHold * 1000000 ≤ (s.at_ t).time.now := hdue.trans (le_max_right _ _)
  refine ⟨(s.at_ t).modDisp fun d => { d with loss := 2 }, ?_, rfl, by simp +decide⟩
  show execLossHoldExpiry t s = _
  rw [execLossHoldExpiry, if_pos]
  rw [at_running, hrun, show (s.at_ t).disp.loss = 1 from hloss, decide_eq_true hdue']
  rfl

theorem sourceRevert_returns : ∀ t a s, s.running = true → s.disp.primOkAt = some a → s.parB .dispSrcRevert = true → s.disp.onBackup = true → a + s.parN .dispSrcRevertT * 1000000000 ≤ t →
    Completes (.sourceRevert t) s fun r => r.disp = { s.disp with onBackup := false, primOkAt := none } ∧ keepsBut [.time, .disp, .recorder] s r := by
  intro t a s hrun hok hrev hback hdue
  have hok' : (s.at_ t).disp.primOkAt = some a := hok
  have hdue' : a + (s.at_ t).parN .dispSrcRevertT * 1000000000 ≤ (s.at_ t).time.now := hdue.trans (le_max_right _ _)
  refine ⟨(((s.at_ t).modDisp fun d => { d with onBackup := false, primOkAt := none }).raise 0x4021 0).because .source .reaction, ?_, rfl, by simp +decide⟩
  show execSourceRevert t s = _
  simp only [execSourceRevert, hok']
  rw [if_pos]
  rw [at_running, hrun, at_parB, hrev, show (s.at_ t).disp.onBackup = true from hback, decide_eq_true hdue']
  rfl

theorem allowance_of_lost {s : State} {k : Nat} (hsrc : s.parN .dispAllowSource = k + 1) (hlost : s.disp.allowLost.getD k false = true) :
    allowance s = (s.parN .dispAllowChg, s.parN .dispAllowDis) := by
  have hnone : latchedAllow s = none := by
    rw [latchedAllow, hsrc, Nat.add_sub_cancel, if_pos (by rw [hlost, Bool.or_true])]
  rw [allowance, hnone]

theorem allowanceTimeout_lost : ∀ t k s, s.running = true → k < 2 → s.parN .dispAllowSource = k + 1 → s.disp.allowLost.length = 2 →
    (match s.disp.allow.getD k none with | some (_, u) => u | none => s.boot.endT) + s.parN .dispAllowTimeout * 1000000 ≤ max s.time.now t →
    Completes (.allowanceTimeout t) s fun r =>
      { r.disp with allowLost := s.disp.allowLost } = s.disp ∧ r.disp.allowLost.getD k false = true ∧ r.disp.allowLost.getD (1 - k) false = s.disp.allowLost.getD (1 - k) false ∧ r.isRaised 0x4024 0 = true ∧ allowance r = (s.parN .dispAllowChg, s.parN .dispAllowDis) ∧
      keepsBut [.time, .disp, .recorder] s r := by
  intro t k s hrun hk hsrc hlen hdue
  have hsrc' : (s.at_ t).parN .dispAllowSource = k + 1 := hsrc
  have hself : (updAt s.disp.allowLost k fun _ => true).getD k false = true := by rw [getD_updAt, if_pos ⟨rfl, by omega⟩]
  refine ⟨((s.at_ t).modDisp fun d => { d with allowLost := updAt d.allowLost k fun _ => true }).stand 0x4024 0 true, ?_, ?_, ?_, ?_, ?_, ?_, by simp +decide⟩
  · show execAllowanceTimeout t s = _
    simp only [execAllowanceTimeout, hsrc', Nat.add_sub_cancel]
    rw [if_pos]
    rw [at_running, hrun, Bool.true_and, show (k + 1 != 0) = true from rfl, Bool.true_and]
    exact decide_eq_true hdue
  · rw [stand_disp]
    rfl
  · rw [stand_disp]
    exact hself
  · rw [stand_disp]
    exact (getD_updAt _ _ _ _ _).trans (if_neg fun h => by omega)
  · exact isRaised_stand_true _ _ _ (by decide)
  · have hpar := fun p => parN_of_keepsBut (p := p) (i := 0) (j := 0) (s := s)
      (t := ((s.at_ t).modDisp fun d => { d with allowLost := updAt d.allowLost k fun _ => true }).stand 0x4024 0 true)
      (ps := [.time, .disp, .recorder]) (by simp +decide) (by decide)
    refine (allowance_of_lost (k := k) ((hpar _).trans hsrc) ?_).trans (Prod.ext (hpar _) (hpar _))
    rw [stand_disp]
    exact hself

/-- Settles O19, clause by clause. -/
theorem setPoints : Obligations.SetPoints :=
  ⟨hostSetpoint_held, hostSetpoint_refused, hostAllowance_held, latest_is_latest, selectSetpointSource_selects, lossHoldExpiry_ends, sourceRevert_returns, allowanceTimeout_lost⟩

end Sys2Proof.Machine
end

section
/-!
PROOF. Requests of a session: what an admitted request comes to once its opcode has been carried out (O39 to O41).
-/
namespace Sys2Proof.Machine

theorem sessionAt_updSlot_same {k : Nat} {x : Session} {s : State} (h : sessionAt s k = some x) (f : Session → Session) :
    sessionAt (updSlot k f s) k = some (f x) := by
  have hk : k < s.host.slots.length := by
    by_contra hge
    rw [sessionAt, List.getD_eq_default _ _ (not_lt.1 hge)] at h
    exact Option.some_ne_none _ h.symm
  simp only [sessionAt] at h
  simp only [sessionAt, updSlot, State.modHost_host, getD_updAt, h, hk, and_self, if_true, Option.map_some]

theorem sessionAt_updSlot_other {j k : Nat} (h : j ≠ k) (f : Session → Session) (s : State) : sessionAt (updSlot k f s) j = sessionAt s j := by
  simp only [sessionAt, updSlot, State.modHost_host, getD_updAt, h.symm, false_and, if_false]

theorem sessionAt_of_keepsBut {ps : List Piece} {s t : State} (h : keepsBut ps s t) (hp : Piece.host ∉ ps) (j : Nat) : sessionAt t j = sessionAt s j := by
  have hhost : t.host = s.host := h .host hp
  simp only [sessionAt, hhost]

theorem updSlot_frame (k : Nat) (f : Session → Session) (s : State) : keepsBut [.host] s (updSlot k f s) := by simp +decide

theorem bucket_of_keepsBut {ps : List Piece} {s t : State} (h : keepsBut ps s t) (hb : Piece.boot ∉ ps) (x : Session) (at' : Nat) : bucket t x at' = bucket s x at' := by
  simp only [bucket, parN_of_keepsBut h hb]

/-! ### The session as the request finds it -/

/-- The session with a request noted and its token spent (R397, R399, R413). -/
def noted (t seq : Nat) (x : Session) (s : State) : Session :=
  { x with sLast := seq, lastReq := t, confirmed := true, tokens := bucket s x t - 1, tokensAt := t }

/-- The state in which an admitted request is carried out. -/
def begun (t seq k : Nat) (x : Session) (s : State) : State := updSlot k (fun _ => noted t seq x s) (s.at_ t)

theorem begun_frame (t seq k : Nat) (x : Session) (s : State) : keepsBut [.time, .host] s (begun t seq k x s) :=
  keepsBut_trans (t := s.at_ t) (by simp +decide) (keepsBut_mono (updSlot_frame k _ (s.at_ t)) (by decide))

theorem begun_time (t seq k : Nat) (x : Session) (s : State) : (begun t seq k x s).time = { s.time with now := max s.time.now t } := rfl

theorem begun_host (t seq k : Nat) (x : Session) (s : State) : (begun t seq k x s).host = { s.host with slots := (begun t seq k x s).host.slots } := rfl

theorem sessionAt_begun {t seq k : Nat} {x : Session} {s : State} (h : sessionAt s k = some x) : sessionAt (begun t seq k x s) k = some (noted t seq x s) :=
  sessionAt_updSlot_same (s := s.at_ t) h _

theorem sessionAt_begun_other {t seq j k : Nat} (h : j ≠ k) (x : Session) (s : State) : sessionAt (begun t seq k x s) j = sessionAt s j :=
  sessionAt_updSlot_other h _ _

theorem request_admitted {t id seq opcode : Nat} {pay : List Byte} {k : Nat} {x : Session} {s : State} (h : admitted t id seq opcode pay k x s)
    (hop : opcode ≠ 0x0103) (env : FhpEnv) :
    request t id seq opcode pay env s = carryOut k (noted t seq x s) t seq opcode pay env (begun t seq k x s) := by
  obtain ⟨hup, hhalt, hslot, hx, hlo, hhi, htoken⟩ := h
  have hx' : sessionAt (s.at_ t) k = some x := hx
  have hslot' : slotOf (s.at_ t) id = some k := hslot
  have hnew : ((seq + 2 ^ 32 - x.sLast) % 2 ^ 32 == 0 || decide (1024 < (seq + 2 ^ 32 - x.sLast) % 2 ^ 32)) = false := by
    rw [Bool.or_eq_false_iff, beq_eq_false_iff_ne, decide_eq_false_iff_not]
    omega
  have hserved : ((s.at_ t).boot.phase == .halted && !haltedServes opcode pay) = false := by
    by_cases hp : s.boot.phase = .halted
    · rw [hhalt hp, Bool.not_true, Bool.and_false]
    · rw [show ((s.at_ t).boot.phase == Phase.halted) = false from beq_eq_false_iff_ne.2 hp, Bool.false_and]
  have hfree : (opcode == 0x0103) = false := beq_eq_false_iff_ne.2 hop
  have hroom : decide (bucket (s.at_ t) x t < 1) = false := decide_eq_false (not_lt.2 htoken)
  unfold request
  dsimp only
  rw [if_neg (by rw [show netUp (s.at_ t) = true from hup]; decide), hslot']
  dsimp only
  unfold handleRequest
  rw [hx']
  dsimp only
  rw [if_neg (by rw [hnew]; decide), if_neg (by rw [hserved]; decide), hfree, hroom]
  rfl

/-! ### The reply -/

theorem sendParts_out (x : Session) (opcode seq : Nat) (parts : List (List Byte)) (s : State) : replied x opcode seq parts s (sendParts x opcode seq parts s) := by
  unfold replied sendParts
  induction markMore parts generalizing s with
  | nil => rfl
  | cons p ps ih =>
    have hstep := ih (s.send (.fhp x.addr x.port (fhpMessage x.key (if p.2 then 5 else 1) x.id seq opcode p.1)))
    rw [List.map_cons, List.reverse_cons, List.append_assoc]
    exact hstep

theorem sendParts_frame (x : Session) (opcode seq : Nat) (parts : List (List Byte)) (s : State) : keepsBut [.out] s (sendParts x opcode seq parts s) := by
  simp +decide

/-- A session but for the replies that are kept for it. -/
def keptBut (x w : Session) : Prop := w = { x with replies := w.replies }

theorem keepReply_facts {k : Nat} {w : Session} {s : State} (r : FhpReply) (h : sessionAt s k = some w) :
    (∃ v, sessionAt (keepReply k r s) k = some v ∧ keptBut w v ∧ r ∈ v.replies) ∧ ∀ j, j ≠ k → sessionAt (keepReply k r s) j = sessionAt s j := by
  refine ⟨⟨_, sessionAt_updSlot_same h _, rfl, ?_⟩, fun j hj => sessionAt_updSlot_other hj _ _⟩
  dsimp only
  split
  next hany =>
    obtain ⟨o, ho, hseq⟩ := List.any_eq_true.1 hany
    exact List.mem_map.2 ⟨o, ho, if_pos hseq⟩
  next => exact List.mem_cons_self

theorem finishReply_eq {id k opcode seq : Nat} {parts : List (List Byte)} {w : Session} {s : State} (h : sessionAt s k = some w) (hid : w.id = id) :
    finishReply id k opcode seq parts s =
      sendParts w opcode seq parts (keepReply k { seq := seq, opcode := opcode, parts := parts, running := false } s) := by
  rw [finishReply, h]
  exact if_pos (beq_iff_eq.2 hid)

theorem finishReply_frame {id k opcode seq : Nat} {parts : List (List Byte)} (s : State) :
    keepsBut [.host, .out] s (finishReply id k opcode seq parts s) ∧
      (finishReply id k opcode seq parts s).host = { s.host with slots := (finishReply id k opcode seq parts s).host.slots } := by
  unfold finishReply
  split
  next x hx =>
    split
    next hid =>
      have hs := sendParts_frame x opcode seq parts (keepReply k { seq := seq, opcode := opcode, parts := parts, running := false } s)
      refine ⟨keepsBut_trans (keepsBut_mono (updSlot_frame k _ s) (by decide)) (keepsBut_mono hs (by decide)), ?_⟩
      rw [hs .host (by decide)]
      rfl
    next => exact ⟨keepsBut_refl _ _, rfl⟩
  next => exact ⟨keepsBut_refl _ _, rfl⟩

/-- An opcode carried out as u, with its reply, leaves its request noted and answered. -/
theorem request_noted {t id seq opcode : Nat} {pay : List Byte} {env : FhpEnv} {k : Nat} {x : Session} {subs : List Subscription} {parts : List (List Byte)} {s u : State}
    (h : admitted t id seq opcode pay k x s) (hop : opcode ≠ 0x0102) (hop' : opcode ≠ 0x0103)
    (hrun : runOp k (noted t seq x s) t seq opcode pay env (begun t seq k x s) = (u, parts, false, false))
    (hself : sessionAt u k = some { noted t seq x s with subs := subs }) (hother : ∀ j, j ≠ k → sessionAt u j = sessionAt s j) (hout : u.out = s.out) :
    notedIn k x t seq opcode parts subs s (request t id seq opcode pay env s) ∧ replied x opcode seq parts s (request t id seq opcode pay env s) ∧
      keepsBut [.host, .out] u (request t id seq opcode pay env s) ∧
      (request t id seq opcode pay env s).host = { u.host with slots := (request t id seq opcode pay env s).host.slots } := by
  have hreq : request t id seq opcode pay env s = finishReply x.id k opcode seq parts u := by
    rw [request_admitted h hop' env, carryOut, hrun]
    dsimp only
    rw [if_neg Bool.false_ne_true, if_neg (by rw [beq_eq_false_iff_ne.2 hop, Bool.false_and]; decide), if_neg Bool.false_ne_true]
    rfl
  obtain ⟨hframe, hhost⟩ := finishReply_frame (id := x.id) (k := k) (opcode := opcode) (seq := seq) (parts := parts) u
  rw [hreq]
  refine ⟨?_, ?_, hframe, hhost⟩
  all_goals rw [finishReply_eq (id := x.id) hself rfl]
  · obtain ⟨⟨v, hv, hkept, hmem⟩, hrest⟩ := keepReply_facts { seq := seq, opcode := opcode, parts := parts, running := false } hself
    have hs := sendParts_frame { noted t seq x s with subs := subs } opcode seq parts (keepReply k { seq := seq, opcode := opcode, parts := parts, running := false } u)
    have hat := sessionAt_of_keepsBut hs (by decide)
    refine ⟨⟨v, (hat k).trans hv, ?_⟩, fun j hj => (hat j).trans ((hrest j hj).trans (hother j hj))⟩
    unfold keptBut at hkept
    rw [hkept]
    exact ⟨rfl, rfl, rfl, rfl, rfl, rfl, rfl, rfl, rfl, rfl, hmem⟩
  · have hs := sendParts_out { noted t seq x s with subs := subs } opcode seq parts (keepReply k { seq := seq, opcode := opcode, parts := parts, running := false } u)
    unfold replied at hs ⊢
    rw [hs, show (keepReply k { seq := seq, opcode := opcode, parts := parts, running := false } u).out = u.out from rfl, hout]
    rfl

/-- The same for an opcode that leaves the slots of the sessions alone. -/
theorem request_carriedOut {t id seq opcode : Nat} {pay : List Byte} {env : FhpEnv} {k : Nat} {x : Session} {parts : List (List Byte)} {s u : State}
    (h : admitted t id seq opcode pay k x s) (hop : opcode ≠ 0x0102) (hop' : opcode ≠ 0x0103)
    (hrun : runOp k (noted t seq x s) t seq opcode pay env (begun t seq k x s) = (u, parts, false, false))
    (hslots : u.host.slots = (begun t seq k x s).host.slots) (hout : u.out = s.out) :
    carriedOut k x t seq opcode parts s (request t id seq opcode pay env s) ∧ keepsBut [.host, .out] u (request t id seq opcode pay env s) ∧
      (request t id seq opcode pay env s).host = { u.host with slots := (request t id seq opcode pay env s).host.slots } := by
  have hat : ∀ j, sessionAt u j = sessionAt (begun t seq k x s) j := fun j => by simp only [sessionAt, hslots]
  obtain ⟨hup, hhalt, hslot, hx, hrest⟩ := And.intro h.1 h.2
  obtain ⟨hnoted, hreplied, hframe, hhost⟩ := request_noted (subs := x.subs) h hop hop' hrun ((hat k).trans (sessionAt_begun hx))
    (fun j hj => (hat j).trans (sessionAt_begun_other hj x s)) hout
  exact ⟨⟨hnoted, hreplied⟩, hframe, hhost⟩

/-- A request whose rule answers `r` on the state begun: the reply carries its status, detail and bytes. -/
theorem request_onePart {t id seq opcode : Nat} {pay : List Byte} {env : FhpEnv} {k : Nat} {x : Session} {s : State} {r : OpOut}
    (h : admitted t id seq opcode pay k x s) (hop : opcode ≠ 0x0102) (hop' : opcode ≠ 0x0103)
    (hrun : runOp k (noted t seq x s) t seq opcode pay env (begun t seq k x s) = onePart r)
    (hslots : r.1.host.slots = (begun t seq k x s).host.slots) (hout : r.1.out = s.out) :
    carriedOut k x t seq opcode [stBytes r.2.1 r.2.2.1 ++ r.2.2.2] s (request t id seq opcode pay env s) ∧
      keepsBut [.host, .out] r.1 (request t id seq opcode pay env s) ∧
      (request t id seq opcode pay env s).host = { r.1.host with slots := (request t id seq opcode pay env s).host.slots } :=
  request_carriedOut h hop hop' hrun hslots hout

end Sys2Proof.Machine
end

section
/-!
PROOF. O40: the edit lock, PARAM_WRITE and DISCARD.
-/
namespace Sys2Proof.Machine

theorem lookup_filter_key {k : ParamKey} (l : List (ParamKey × Int)) : (l.filter fun e => e.1 != k).lookup k = none := by
  induction l with
  | nil => rfl
  | cons e l ih =>
    rw [List.filter_cons]
    split
    next hne =>
      rw [List.lookup_cons, beq_eq_false_iff_ne.2 (Ne.symm (bne_iff_ne.1 hne))]
      exact ih
    next => exact ih

theorem lookup_filter_other {j k : ParamKey} (h : j ≠ k) (l : List (ParamKey × Int)) : (l.filter fun e => e.1 != k).lookup j = l.lookup j := by
  induction l with
  | nil => rfl
  | cons e l ih =>
    rw [List.filter_cons, List.lookup_cons]
    split
    next hne =>
      rw [List.lookup_cons, ih]
    next heq =>
      have hek : e.1 = k := by simpa using heq
      rw [ih, hek, beq_eq_false_iff_ne.2 h]

theorem paramIn_setParam_same (ps : List (ParamKey × Int)) (k : ParamKey) (v : Int) : paramIn (setParam ps k v) k = v := by
  unfold paramIn setParam
  dsimp only
  split
  next hv =>
    rw [lookup_filter_key]
    exact (beq_iff_eq.1 hv).symm
  next => rw [List.lookup_cons, beq_self_eq_true]; rfl

/-! ### What reads only the configuration -/

theorem comValue_of_boot {s t : State} (h : t.boot = s.boot) (k : ParamKey) : comValue t k = comValue s k := by
  simp only [comValue, valueIn, h]

theorem mayWrite_of_boot {s t : State} (h : t.boot = s.boot) (r : Role) (k : ParamKey) : mayWrite t r k = mayWrite s r k := by
  simp only [mayWrite, comValue_of_boot h, h]

theorem readWrites_of_boot {s t : State} (h : t.boot = s.boot) (r : Role) (n : Nat) (ws : List (ParamKey × Int)) (i : Nat) (bs : List Byte) :
    readWrites t r ws n i bs = readWrites s r ws n i bs := by
  induction n generalizing ws i bs with
  | zero => rfl
  | succ n ih => simp only [readWrites, mayWrite_of_boot h, pieceFits, gatewayFits, comValue_of_boot h, h, ih]

theorem actAt_boot_congr {s t : State} (h : t.boot = s.boot) (k : ParamKey) (v : Int) : (actAt k v t).boot = (actAt k v s).boot := by
  unfold actAt
  split <;> simp only [State.modBoot_boot, h]

theorem writeParam_boot_congr {s t : State} (h : t.boot = s.boot) (k : ParamKey) (v : Int) : (writeParam k v t).boot = (writeParam k v s).boot := by
  unfold writeParam
  dsimp only
  exact actAt_boot_congr (by simp only [State.modBoot_boot, comValue_of_boot h, h]) k v

theorem forEach_writeParam_boot_congr (ws : List (ParamKey × Int)) {s t : State} (h : t.boot = s.boot) :
    (forEach ws (fun w s => writeParam w.1 w.2 s) t).boot = (forEach ws (fun w s => writeParam w.1 w.2 s) s).boot := by
  induction ws generalizing s t with
  | nil => exact h
  | cons w ws ih => exact ih (writeParam_boot_congr h w.1 w.2)

/-! ### What a write leaves -/

theorem actAt_frame (k : ParamKey) (v : Int) (s : State) : keepsBut [.boot] s (actAt k v s) := by
  unfold actAt
  split <;> simp +decide

theorem actAt_boot (k : ParamKey) (v : Int) (s : State) :
    (actAt k v s).boot.pend = s.boot.pend ∧ (actAt k v s).boot.com = s.boot.com ∧ (actAt k v s).boot.comGen = s.boot.comGen ∧
      (k.p.desc.effect = .now → paramIn (actAt k v s).boot.run.params k = v) := by
  unfold actAt
  split
  next heff => exact ⟨rfl, rfl, rfl, fun _ => paramIn_setParam_same _ _ _⟩
  next heff => exact ⟨rfl, rfl, rfl, fun h => by rw [heff] at h; cases h⟩
  next heff => exact ⟨rfl, rfl, rfl, fun h => by rw [heff] at h; cases h⟩
  next hnow _ _ => exact ⟨rfl, rfl, rfl, fun h => absurd h hnow⟩

theorem writeParam_frame (k : ParamKey) (v : Int) (s : State) : keepsBut [.boot] s (writeParam k v s) :=
  keepsBut_trans (t := s.modBoot fun b => { b with pend := if isSection k || v != comValue s k then (k, v) :: b.pend.filter (·.1 != k) else s.boot.pend.filter (·.1 != k) })
    (by simp +decide) (actAt_frame k v _)

theorem forEach_frame {α : Type} {ps : List Piece} {f : α → State → State} (hf : ∀ a s, keepsBut ps s (f a s)) (l : List α) (s : State) : keepsBut ps s (forEach l f s) := by
  induction l generalizing s with
  | nil => exact keepsBut_refl _ _
  | cons a l ih => exact keepsBut_trans (hf a s) (ih (f a s))

theorem discardWrites_facts (s : State) :
    (discardWrites s).boot.pend = [] ∧ (discardWrites s).boot.com = s.boot.com ∧ (discardWrites s).boot.comGen = s.boot.comGen ∧ keepsBut [.boot] s (discardWrites s) := by
  have hall : ∀ (l : List (ParamKey × Int)) (u : State), 
      let r := forEach l (fun e s => if isSection e.1 then s else actAt e.1 (comValue s e.1) s) u
      r.boot.com = u.boot.com ∧ r.boot.comGen = u.boot.comGen ∧ keepsBut [.boot] u r := by
    intro l
    induction l with
    | nil => exact fun u => ⟨rfl, rfl, keepsBut_refl _ _⟩
    | cons e l ih =>
      intro u
      obtain ⟨hcom, hgen, hkeep⟩ := ih (if isSection e.1 then u else actAt e.1 (comValue u e.1) u)
      have hstep : (if isSection e.1 then u else actAt e.1 (comValue u e.1) u).boot.com = u.boot.com ∧
          (if isSection e.1 then u else actAt e.1 (comValue u e.1) u).boot.comGen = u.boot.comGen ∧
          keepsBut [.boot] u (if isSection e.1 then u else actAt e.1 (comValue u e.1) u) := by
        split
        · exact ⟨rfl, rfl, keepsBut_refl _ _⟩
        · obtain ⟨-, hc, hg, -⟩ := actAt_boot e.1 (comValue u e.1) u
          exact ⟨hc, hg, actAt_frame _ _ _⟩
      obtain ⟨hc, hg, hk⟩ := hstep
      exact ⟨hcom.trans hc, hgen.trans hg, keepsBut_trans hk hkeep⟩
  obtain ⟨hcom, hgen, hkeep⟩ := hall s.boot.pend s
  exact ⟨rfl, hcom, hgen, (keepsBut_modBoot (by decide) s _ fun b => { b with pend := [] }).2 hkeep⟩

/-! ### The requests -/

theorem opRole_edit {r : Role} (h : engineer r = true ∨ r = .safety) {opcode : Nat} (hlo : 0x0302 ≤ opcode) (hhi : opcode ≤ 0x0305) : opRole r opcode = true := by
  rw [opRole, if_pos (by rw [decide_eq_true hlo, decide_eq_true hhi]; rfl)]
  rcases h with h | rfl
  · rw [h, Bool.true_or]
  · rfl

theorem holdsLock_begun {t seq k : Nat} {x : Session} {s : State} {id : Nat} (h : s.host.lock = some id) : holdsLock (begun t seq k x s) id = true := by
  rw [holdsLock, begun_host]
  exact beq_iff_eq.2 h

theorem begun_boot (t seq k : Nat) (x : Session) (s : State) : (begun t seq k x s).boot = s.boot := rfl

theorem runOp_editLock {k t seq : Nat} {x : Session} {pay : List Byte} (h : engineer x.role = true ∨ x.role = .safety) (env : FhpEnv) (s : State) :
    runOp k x t seq 0x0302 pay env s = onePart (opEditLock x pay s) := by
  rw [runOp, opRole_edit h (by decide) (by decide)]
  rfl

theorem editLock_taken : ∀ t id seq pay k x s, admitted t id seq 0x0302 pay k x s → (engineer x.role = true ∨ x.role = .safety) → pay.length = 1 → rd 1 0 pay ≤ 1 →
    (s.host.lock = none ∨ s.host.lock = some x.id) →
    Completes (.editLock t id seq pay) s fun r =>
      r.host.lock = (if rd 1 0 pay = 1 then none else some x.id) ∧ carriedOut k x t seq 0x0302 [stBytes 0 0] s r ∧ keepsBut [.time, .host, .out] s r := by
  intro t id seq pay k x s hadm hrole hlen hrel hlock
  have hrun := runOp_editLock (k := k) (t := t) (seq := seq) (x := noted t seq x s) (pay := pay) hrole {} (begun t seq k x s)
  have hfree : (match s.host.lock with | some h => h != x.id | none => false) = false := by
    rcases hlock with h | h <;> rw [h]
    exact bne_self_eq_false _
  have hop : opEditLock (noted t seq x s) pay (begun t seq k x s) =
      opOk ((begun t seq k x s).modHost fun h => { h with lock := if rd 1 0 pay == 1 then none else some x.id }) [] := by
    rw [opEditLock]
    rw [if_neg (by simp [hlen, hrel]), if_neg]
    · rfl
    · rw [begun_host]
      exact fun h => Bool.false_ne_true (hfree.symm.trans h)
  rw [hop] at hrun
  obtain ⟨hcarried, hkeep, hhost⟩ := request_onePart hadm (by decide) (by decide) hrun rfl rfl
  refine ⟨_, rfl, ?_, hcarried, ?_⟩
  · rw [hhost]
    exact if_congr beq_iff_eq rfl rfl
  · exact keepsBut_trans (keepsBut_mono (begun_frame t seq k x s) (by decide)) (keepsBut_trans (t := opEditLock (noted t seq x s) pay (begun t seq k x s) |>.1)
      (by rw [hop]; simp +decide) (by rw [hop]; exact keepsBut_mono hkeep (by decide)))

theorem editLock_refused : ∀ t id seq pay k x h s, admitted t id seq 0x0302 pay k x s → (engineer x.role = true ∨ x.role = .safety) → pay.length = 1 → rd 1 0 pay ≤ 1 →
    s.host.lock = some h → h ≠ x.id →
    Completes (.editLock t id seq pay) s fun r => r.host.lock = some h ∧ carriedOut k x t seq 0x0302 [stBytes 12 0] s r ∧ keepsBut [.time, .host, .out] s r := by
  intro t id seq pay k x h s hadm hrole hlen hrel hlock hne
  have hrun := runOp_editLock (k := k) (t := t) (seq := seq) (x := noted t seq x s) (pay := pay) hrole {} (begun t seq k x s)
  have hop : opEditLock (noted t seq x s) pay (begun t seq k x s) = opFail 12 0 (begun t seq k x s) := by
    rw [opEditLock]
    rw [if_neg (by simp [hlen, hrel]), begun_host, hlock]
    exact if_pos (bne_iff_ne.2 hne)
  rw [hop] at hrun
  obtain ⟨hcarried, hkeep, hhost⟩ := request_onePart hadm (by decide) (by decide) hrun rfl rfl
  refine ⟨_, rfl, ?_, hcarried, keepsBut_trans (keepsBut_mono (begun_frame t seq k x s) (by decide)) (keepsBut_mono hkeep (by decide))⟩
  rw [hhost]
  exact hlock

theorem runOp_paramWrite {k t seq : Nat} {x : Session} {pay : List Byte} (h : engineer x.role = true ∨ x.role = .safety) (env : FhpEnv) (s : State) :
    runOp k x t seq 0x0303 pay env s = onePart (opParamWrite x pay s) := by
  rw [runOp, opRole_edit h (by decide) (by decide)]
  rfl

/-- PARAM_WRITE with the lock and a count within its limits is what its writes read as. -/
theorem opParamWrite_read {t seq k : Nat} {x : Session} {pay : List Byte} {s : State} (hlock : s.host.lock = some x.id) (hlo : 1 ≤ rd 1 0 pay) (hhi : rd 1 0 pay ≤ 16) :
    opParamWrite (noted t seq x s) pay (begun t seq k x s) = (match readWrites s x.role [] (rd 1 0 pay) 0 (pay.drop 1) with
      | .inl ws => opOk (forEach ws (fun w s => writeParam w.1 w.2 s) (begun t seq k x s)) []
      | .inr (st, i) => opFail st i (begun t seq k x s)) := by
  rw [opParamWrite]
  rw [if_neg (by rw [holdsLock_begun (id := (noted t seq x s).id) hlock]; decide), if_neg (by simp; omega), readWrites_of_boot (begun_boot t seq k x s)]
  rfl

theorem paramWrite_applies : ∀ t id seq pay k x ws s, admitted t id seq 0x0303 pay k x s → (engineer x.role = true ∨ x.role = .safety) → s.host.lock = some x.id → 1 ≤ rd 1 0 pay → rd 1 0 pay ≤ 16 →
    readWrites s x.role [] (rd 1 0 pay) 0 (pay.drop 1) = .inl ws →
    Completes (.paramWrite t id seq pay) s fun r =>
      r.boot = (forEach ws (fun w s => writeParam w.1 w.2 s) s).boot ∧ carriedOut k x t seq 0x0303 [stBytes 0 0] s r ∧ keepsBut [.time, .host, .boot, .out] s r := by
  intro t id seq pay k x ws s hadm hrole hlock hlo hhi hread
  have hrun := runOp_paramWrite (k := k) (t := t) (seq := seq) (x := noted t seq x s) (pay := pay) hrole {} (begun t seq k x s)
  have hop := opParamWrite_read (t := t) (seq := seq) (k := k) hlock hlo hhi
  rw [hread] at hop
  dsimp only at hop
  rw [hop] at hrun
  have hw : keepsBut [.boot] (begun t seq k x s) (forEach ws (fun w s => writeParam w.1 w.2 s) (begun t seq k x s)) := forEach_frame (fun w s => writeParam_frame w.1 w.2 s) ws _
  obtain ⟨hcarried, hkeep, -⟩ := request_onePart hadm (by decide) (by decide) hrun
    (show (forEach ws (fun w s => writeParam w.1 w.2 s) (begun t seq k x s)).host.slots = _ from congrArg HostState.slots (hw .host (by decide))) (hw .out (by decide))
  refine ⟨_, rfl, ?_, hcarried, ?_⟩
  · exact (hkeep .boot (by decide)).trans (forEach_writeParam_boot_congr ws (begun_boot t seq k x s))
  · exact keepsBut_trans (keepsBut_mono (begun_frame t seq k x s) (by decide)) (keepsBut_trans (keepsBut_mono hw (by decide)) (keepsBut_mono hkeep (by decide)))

theorem paramWrite_refused : ∀ t id seq pay k x st i s, admitted t id seq 0x0303 pay k x s → (engineer x.role = true ∨ x.role = .safety) → s.host.lock = some x.id → 1 ≤ rd 1 0 pay → rd 1 0 pay ≤ 16 →
    readWrites s x.role [] (rd 1 0 pay) 0 (pay.drop 1) = .inr (st, i) →
    Completes (.paramWrite t id seq pay) s fun r => carriedOut k x t seq 0x0303 [stBytes st i] s r ∧ keepsBut [.time, .host, .out] s r := by
  intro t id seq pay k x st i s hadm hrole hlock hlo hhi hread
  have hrun := runOp_paramWrite (k := k) (t := t) (seq := seq) (x := noted t seq x s) (pay := pay) hrole {} (begun t seq k x s)
  have hop := opParamWrite_read (t := t) (seq := seq) (k := k) hlock hlo hhi
  rw [hread] at hop
  dsimp only at hop
  rw [hop] at hrun
  obtain ⟨hcarried, hkeep, -⟩ := request_onePart hadm (by decide) (by decide) hrun rfl rfl
  exact ⟨_, rfl, hcarried, keepsBut_trans (keepsBut_mono (begun_frame t seq k x s) (by decide)) (keepsBut_mono hkeep (by decide))⟩

theorem writeParam_pending : ∀ k v s,
    (isSection k = true ∨ v ≠ comValue s k → (writeParam k v s).boot.pend.lookup k = some v) ∧ (isSection k = false → v = comValue s k → (writeParam k v s).boot.pend.lookup k = none) ∧
    (∀ j, j ≠ k → (writeParam k v s).boot.pend.lookup j = s.boot.pend.lookup j) ∧ (writeParam k v s).boot.com = s.boot.com ∧
    (k.p.desc.effect = .now → paramIn (writeParam k v s).boot.run.params k = v) ∧ keepsBut [.boot] s (writeParam k v s) := by
  intro k v s
  have hpend : (writeParam k v s).boot.pend = if isSection k || v != comValue s k then (k, v) :: s.boot.pend.filter (·.1 != k) else s.boot.pend.filter (·.1 != k) := by
    rw [writeParam]
    exact (actAt_boot _ _ _).1
  obtain ⟨-, hcom, -, hnow⟩ := actAt_boot k v (s.modBoot fun b => { b with
    pend := if isSection k || v != comValue s k then (k, v) :: s.boot.pend.filter (·.1 != k) else s.boot.pend.filter (·.1 != k) })
  refine ⟨fun h => ?_, fun hsec hv => ?_, fun j hj => ?_, hcom, hnow, writeParam_frame k v s⟩
  · have hkeep : (isSection k || v != comValue s k) = true := Bool.or_eq_true_iff.2 (h.imp_right bne_iff_ne.2)
    rw [hpend, if_pos hkeep, List.lookup_cons, beq_self_eq_true]
  · rw [hpend, if_neg (by rw [hsec, hv, bne_self_eq_false]; decide), lookup_filter_key]
  · rw [hpend]
    split
    · rw [List.lookup_cons, beq_eq_false_iff_ne.2 hj]
      exact lookup_filter_other hj _
    · exact lookup_filter_other hj _

theorem discard_ends : ∀ t id seq k x s, admitted t id seq 0x0305 [] k x s → (engineer x.role = true ∨ x.role = .safety) → s.host.lock = some x.id →
    Completes (.discard t id seq) s fun r =>
      r.boot.pend = [] ∧ r.boot.com = s.boot.com ∧ r.boot.comGen = s.boot.comGen ∧ r.host.lock = none ∧ carriedOut k x t seq 0x0305 [stBytes 0 0] s r ∧
      keepsBut [.time, .host, .boot, .out] s r := by
  intro t id seq k x s hadm hrole hlock
  have hrun : runOp k (noted t seq x s) t seq 0x0305 [] {} (begun t seq k x s) = onePart (opDiscard (noted t seq x s) [] (begun t seq k x s)) := by
    rw [runOp, opRole_edit (r := (noted t seq x s).role) hrole (by decide) (by decide)]
    rfl
  have hop : opDiscard (noted t seq x s) [] (begun t seq k x s) = opOk ((discardWrites (begun t seq k x s)).modHost fun h => { h with lock := none }) [] := by
    rw [opDiscard, if_neg (by rw [holdsLock_begun (id := (noted t seq x s).id) hlock]; decide)]
    rfl
  rw [hop] at hrun
  obtain ⟨hpend, hcom, hgen, hd⟩ := discardWrites_facts (begun t seq k x s)
  generalize hu : discardWrites (begun t seq k x s) = u at *
  obtain ⟨hcarried, hkeep, hhost⟩ := request_onePart hadm (by decide) (by decide) hrun
    (show u.host.slots = _ from congrArg HostState.slots (hd .host (by decide))) (hd .out (by decide))
  have hboot := hkeep .boot (by decide)
  refine ⟨_, rfl, ?_, ?_, ?_, ?_, hcarried, ?_⟩
  · exact (congrArg BootState.pend hboot).trans hpend
  · exact (congrArg BootState.com hboot).trans hcom
  · exact (congrArg BootState.comGen hboot).trans hgen
  · rw [hhost]
    rfl
  · exact keepsBut_trans (keepsBut_mono (begun_frame t seq k x s) (by decide)) (keepsBut_trans (keepsBut_mono hd (by decide))
      (keepsBut_trans (t := u.modHost fun h => { h with lock := none }) (by simp +decide) (keepsBut_mono hkeep (by decide))))

/-- Settles O40, clause by clause. -/
theorem parameterWrites : Obligations.ParameterWrites :=
  ⟨editLock_taken, editLock_refused, paramWrite_applies, paramWrite_refused, writeParam_pending, discard_ends⟩

end Sys2Proof.Machine
end

section
namespace Sys2Proof.Machine

/-! PROOF. O41 does not hold: its first clause leaves out that an image of more than 1048576 bytes is refused (`imageTooLong`, R514 check 1). -/

theorem newContent_of_boot {s t : State} (h : t.boot = s.boot) : newContent t = newContent s := by
  simp only [newContent, writtenSections, pieceBytes, h]

/-- A data section that stays in the image counts with its length. -/
theorem length_le_imageLen {c : Cfg} {tag : Nat} {bs : List Byte} (h : (tag, bs) ∈ c.raw) (hbs : bs ≠ []) : bs.length + 140 ≤ imageLen c := by
  have hmem : (tag, bs) ∈ imageSections c :=
    List.mem_filter.2 ⟨List.mem_cons_of_mem _ (List.mem_cons_of_mem _ h), by cases bs <;> simp_all⟩
  have hle : 12 + bs.length ≤ ((imageSections c).map fun x => 12 + x.2.length).sum := List.le_sum_of_mem (List.mem_map.2 ⟨_, hmem, rfl⟩)
  rw [imageLen]
  omega

theorem beginCommit_of_tooLong {c : Cfg} {s : State} (hc : newContent s = some c) (hlong : imageTooLong c = true) (slot session seq expected : Nat) (r : Role) :
    (beginCommit slot session seq r expected s).2 = false ∧ (beginCommit slot session seq r expected s).1.1.boot = s.boot := by
  unfold beginCommit
  simp only [hc, hlong, if_true]
  repeat' split
  all_goals exact ⟨rfl, rfl⟩

/-- COMMIT of content whose image is too long is answered, and no commit begins. -/
theorem request_commit_of_tooLong {t id seq k : Nat} {pay : List Byte} {x : Session} {c : Cfg} {s : State} (h : admitted t id seq 0x0304 pay k x s)
    (hrole : engineer x.role = true ∨ x.role = .safety) (hlen : pay.length = 4) (hc : newContent s = some c) (hlong : imageTooLong c = true) :
    (request t id seq 0x0304 pay {} s).boot = s.boot := by
  obtain ⟨hno, hboot⟩ := beginCommit_of_tooLong (s := begun t seq k x s) ((newContent_of_boot (begun_boot t seq k x s)).trans hc) hlong k x.id seq (rd 4 0 pay) x.role
  have hrun : ∃ u parts, runOp k (noted t seq x s) t seq 0x0304 pay {} (begun t seq k x s) = (u, parts, false, false) ∧ u.boot = s.boot := by
    rw [runOp, opRole_edit (r := (noted t seq x s).role) hrole (by decide) (by decide)]
    dsimp only
    rw [if_neg (by decide), if_neg (by rw [hlen]; decide), show (noted t seq x s).id = x.id from rfl, show (noted t seq x s).role = x.role from rfl, hno]
    exact ⟨_, _, rfl, hboot⟩
  obtain ⟨u, parts, hrun, hu⟩ := hrun
  rw [request_admitted h (by decide), carryOut, hrun]
  exact ((finishReply_frame u).1 .boot (by decide)).trans hu

/-- The committed configuration holds an unknown section as long as an image may be (R514). -/
def longSection : State :=
  let s := Tests.editing Tests.sess Tests.run0
  { s with boot := { s.boot with com := { s.boot.com with raw := [(200, List.replicate 1048576 0)] } } }

/-- The content that a commit of this state would give. -/
def longContent : Cfg := { params := ({ p := .hostRateReq }, 60) :: Tests.quietPar, raw := [(200, List.replicate 1048576 0)] }

theorem newContent_longSection : newContent longSection = some longContent := rfl

theorem imageTooLong_longContent : imageTooLong longContent = true := by
  have hlen := length_le_imageLen (c := longContent) (tag := 200) (bs := List.replicate 1048576 0) List.mem_cons_self
    (List.ne_nil_of_length_pos (by rw [List.length_replicate]; decide))
  rw [List.length_replicate] at hlen
  exact decide_eq_true (by omega)

/-- The state meets every hypothesis of the clause. -/
theorem longSection_meets :
    admitted 9 77 42 0x0304 (toLE 4 5) 3 Tests.sess longSection ∧ longSection.boot.commit = none ∧ longSection.host.lock = some Tests.sess.id ∧
      rd 4 0 (toLE 4 5) = longSection.boot.comGen ∧ longSection.therm.flashInh = false ∧ (∀ e ∈ changed longSection, mayWrite longSection Tests.sess.role e.1 = true) ∧
      (changed longSection).all (fun e => !isSafetyName e.1.p) = true ∧ (∀ e ∈ changed longSection, e.1.p ≠ .bootLifecycle) ∧ nextGen longSection < 0xFFFFFFFF ∧
      contentFault longSection longContent = none := by
  unfold admitted
  decide +kernel

/-- Refutes O41: with the committed content at the length limit of an image, COMMIT is refused with 0x900E and no commit begins. -/
theorem not_commit : ¬ Obligations.Commit := by
  rintro ⟨begins, -⟩
  obtain ⟨hadm, hnone, hlock, hgen, hinh, hmay, hsafe, hlife, hnext, hfault⟩ := longSection_meets
  obtain ⟨r, hr, hcommit, -⟩ := begins 9 77 42 (toLE 4 5) 3 Tests.sess longContent longSection hadm (.inl rfl) rfl hnone (.inr hlock) hgen hinh hmay (.inl hsafe) hlife hnext
    newContent_longSection hfault
  have hreq : r = request 9 77 42 0x0304 (toLE 4 5) {} longSection := (Host.Outcome.next.inj hr).symm
  rw [hreq, request_commit_of_tooLong hadm (.inl rfl) rfl newContent_longSection imageTooLong_longContent, hnone] at hcommit
  exact Option.some_ne_none _ hcommit.symm

end Sys2Proof.Machine
end

section
/-!
PROOF. O39: reads and subscriptions.
-/
namespace Sys2Proof.Machine

/-! ### Fields of a payload -/

/-- A field reads back what was written (R5). -/
theorem rd_field {bs pre : List Byte} (post : List Byte) {n v o : Nat} (hbs : bs = pre ++ (toLE n v ++ post)) (ho : pre.length = o) (hv : v < 2 ^ (8 * n)) :
    rd n o bs = v := by
  subst hbs ho
  rw [rd, List.drop_left, List.take_left' (length_toLE n v), ofLE_toLE, Nat.mod_eq_of_lt hv]

theorem length_chunks (k n : Nat) (bs : List Byte) : (chunks k n bs).length = n := by
  induction n generalizing bs with
  | zero => rfl
  | succ n ih => simp [chunks, ih]

theorem cut_of_length_le {α : Type} {n m : Nat} {l : List α} (h : l ≠ []) (hn : l.length ≤ n) (hm : 0 < m) : cut n m l = [l] := by
  obtain ⟨m, rfl⟩ := Nat.exists_eq_succ_of_ne_zero hm.ne'
  rw [cut, if_neg (by simpa using h), List.take_of_length_le hn, List.drop_eq_nil_of_le hn]
  cases m <;> rfl

theorem keyEntries_ne_nil {all : List (Nat × Nat × Nat × Item)} {keys : List Nat} (h : keys ≠ []) : keyEntries all keys ≠ [] := by
  obtain ⟨k, ks, rfl⟩ := List.exists_cons_of_ne_nil h
  rw [keyEntries, List.flatMap_cons]
  refine List.append_ne_nil_of_left_ne_nil ?_ _
  split
  · unfold entryBytes valueWords
    split <;> simp
  · exact List.cons_ne_nil _ _

/-! ### Reading the Comb -/

section
variable {s u : State} (h : u.comb = s.comb)
include h

theorem buffer_of_comb (n : Nat) : buffer u n = buffer s n := by simp only [buffer, h]

theorem frameFor_of_comb (f : Nat) : frameFor u f = frameFor s f := by
  unfold frameFor
  rw [h]

theorem mapFor_of_comb (v : Nat) : mapFor u v = mapFor s v := by
  unfold mapFor
  rw [h]

theorem lineBad_of_comb (b slot n : Nat) : lineBad u b slot n = lineBad s b slot n := by simp only [lineBad, h]

theorem refreshOf_of_comb (key : Nat) : refreshOf u key = refreshOf s key := by
  unfold refreshOf
  rw [h]

theorem serveItem_of_comb (b : Nat) (img : Image) (e : Nat × Nat × Nat × Item) : serveItem u b img e = serveItem s b img e := by
  unfold serveItem
  simp only [lineBad_of_comb h, buffer_of_comb h, refreshOf_of_comb h]

theorem serveAll_of_comb (b : Nat) (img : Image) : serveAll u b img = serveAll s b img := by
  simp only [serveAll, serveItem_of_comb h]

theorem opReadItems_of_comb (t : Nat) (pay : List Byte) (ends : List Nat) : (opReadItems t pay ends u).2 = (opReadItems t pay ends s).2 := by
  unfold opReadItems
  simp only [frameFor_of_comb h, buffer_of_comb h, mapFor_of_comb h, serveAll_of_comb h]
  split
  · rfl
  · cases frameFor s (rd 8 0 pay) with
    | inr st => rfl
    | inl b =>
      cases hb : buffer s b with
      | none => simp only [hb]
      | some img =>
        simp only [hb]
        split <;> rfl

theorem opReadSlots_of_comb (t : Nat) (pay : List Byte) (ends : List Nat) : (opReadSlots t pay ends u).2 = (opReadSlots t pay ends s).2 := by
  unfold opReadSlots
  simp only [frameFor_of_comb h, buffer_of_comb h, serveAll_of_comb h]
  split
  · rfl
  · cases frameFor s (rd 8 0 pay) with
    | inr st => rfl
    | inl b =>
      cases hb : buffer s b with
      | none => simp only [hb]
      | some img =>
        simp only [hb]
        split
        · rfl
        · split <;> rfl

theorem opReadMap_of_comb (pay : List Byte) : (opReadMap pay u).2 = (opReadMap pay s).2 := by
  unfold opReadMap
  dsimp only
  rw [mapFor_of_comb h, h]
  split
  · rfl
  · cases mapFor s (rd 4 0 pay) with
    | none => rfl
    | some m =>
      dsimp only
      split <;> rfl

theorem subParts_of_comb (v : Subscription) : subParts u v = subParts s v := by
  unfold subParts
  rw [h]

theorem pushParts_of_comb (v : Subscription) (img : Image) : pushParts u v img = pushParts s v img := by
  unfold pushParts
  rw [serveAll_of_comb h]

end

theorem frameFor_newest {s : State} {img : Image} (h : s.comb.published = some img) : frameFor s 0xFFFFFFFFFFFFFFFF = .inl 0 := by
  rw [frameFor, h]
  rfl

theorem buffer_newest {s : State} {img : Image} (h : s.comb.published = some img) : buffer s 0 = some img := h

/-! ### The other reads -/

theorem runValue_of_boot {s u : State} (h : u.boot = s.boot) (k : ParamKey) : runValue u k = runValue s k := by
  unfold runValue valueIn
  rw [h]

theorem isPending_of_boot {s u : State} (h : u.boot = s.boot) (k : ParamKey) : isPending u k = isPending s k := by
  unfold isPending
  simp only [comValue_of_boot h, h]

theorem readNames_of_boot {s u : State} (h : u.boot = s.boot) (n i : Nat) (bs : List Byte) : readNames u n i bs = readNames s n i bs := by
  induction n generalizing i bs with
  | zero => rfl
  | succ n ih => simp only [readNames, runValue_of_boot h, isPending_of_boot h, comValue_of_boot h, ih]

theorem opParamRead_of_boot {s u : State} (h : u.boot = s.boot) (pay : List Byte) : (opParamRead pay u).2 = (opParamRead pay s).2 := by
  unfold opParamRead
  dsimp only
  rw [readNames_of_boot h]
  split
  · rfl
  · split <;> rfl

theorem opEventList_of_recorder {s u : State} (h : u.recorder = s.recorder) (pay : List Byte) : (opEventList pay u).2 = (opEventList pay s).2 := by
  unfold opEventList
  rw [h]
  dsimp only
  split <;> rfl

theorem opRecRead_of_recorder {s u : State} (h : u.recorder = s.recorder) (pay : List Byte) : (opRecRead pay u).2 = (opRecRead pay s).2 := by
  unfold opRecRead
  rw [h]
  dsimp only
  split
  · rfl
  · split <;> rfl

theorem opProgRead_of_prog {s u : State} (h : u.prog = s.prog) (pay : List Byte) : (opProgRead pay u).2 = (opProgRead pay s).2 := by
  unfold opProgRead
  rw [h]
  dsimp only
  split
  · split <;> rfl
  · rfl

theorem opJournalRead_of_boot {s u : State} (h : u.boot = s.boot) (pay : List Byte) : (opJournalRead pay u).2 = (opJournalRead pay s).2 := by
  unfold opJournalRead
  rw [h]
  dsimp only
  split <;> rfl

theorem opBistRead_of_bist {s u : State} (h : u.bist = s.bist) (pay : List Byte) : (opBistRead pay u).2 = (opBistRead pay s).2 := by
  unfold opBistRead
  rw [h]
  dsimp only
  split <;> rfl

theorem opUpdStatus_congr {s u : State} (h : keepsBut [.time, .host] s u) (pay : List Byte) : (opUpdStatus pay u).2 = (opUpdStatus pay s).2 := by
  have hupd : u.upd = s.upd := h .upd (by decide)
  have hboot : u.boot = s.boot := h .boot (by decide)
  have hforgs : u.forgs = s.forgs := h .forgs (by decide)
  have hlink : ∀ n, linkOn u n = linkOn s n := fun n => by simp only [linkOn, State.parBit, State.parN, State.par, hboot]
  have hneed : neededForagers u = neededForagers s := by simp only [neededForagers, State.forg, hlink, hforgs]
  have hsel : selected u = selected s := by simp only [selected, hupd]
  have htotal : totalOf u = totalOf s := by
    unfold totalOf
    rw [hupd]
  unfold opUpdStatus
  dsimp only
  rw [hneed, hsel, htotal, hupd]
  simp only [State.forg, hforgs]
  split <;> rfl

/-- A read whose rule says what it answers: it changes nothing but the session and its counters. -/
theorem request_read {t id seq opcode k : Nat} {pay : List Byte} {env : FhpEnv} {x : Session} {s : State} {op : State → OpOut}
    (h : admitted t id seq opcode pay k x s) (hop : opcode ≠ 0x0102) (hop' : opcode ≠ 0x0103)
    (hrun : runOp k (noted t seq x s) t seq opcode pay env (begun t seq k x s) = onePart (op (begun t seq k x s)))
    (hkeep : ∀ u, keepsBut [] u (op u).1) (hcongr : ∀ u, keepsBut [.time, .host] s u → (op u).2 = (op s).2) :
    carriedOut k x t seq opcode [stBytes (op s).2.1 (op s).2.2.1 ++ (op s).2.2.2] s (request t id seq opcode pay env s) ∧
      keepsBut [.time, .host, .out] s (request t id seq opcode pay env s) := by
  have hb := begun_frame t seq k x s
  have hk := hkeep (begun t seq k x s)
  obtain ⟨hcarried, hframe, -⟩ := request_onePart h hop hop' hrun (congrArg HostState.slots (hk .host (by decide))) (hk .out (by decide))
  rw [hcongr _ hb] at hcarried
  exact ⟨hcarried, keepsBut_trans (keepsBut_mono hb (by decide)) (keepsBut_trans (keepsBut_mono hk (by decide)) (keepsBut_mono hframe (by decide)))⟩

/-- A read of the Comb, which may take several parts and may count a read that came too late. -/
theorem request_readComb {t id seq opcode k : Nat} {pay : List Byte} {env : FhpEnv} {x : Session} {s : State} {ps : List Piece} {op : State → State × List (List Byte)}
    (h : admitted t id seq opcode pay k x s) (hop : opcode ≠ 0x0102) (hop' : opcode ≠ 0x0103)
    (hrun : runOp k (noted t seq x s) t seq opcode pay env (begun t seq k x s) = ((op (begun t seq k x s)).1, (op (begun t seq k x s)).2, false, false))
    (hkeep : keepsBut ps (begun t seq k x s) (op (begun t seq k x s)).1) (hhost : Piece.host ∉ ps) (hout : Piece.out ∉ ps)
    (hcongr : (op (begun t seq k x s)).2 = (op s).2) :
    carriedOut k x t seq opcode (op s).2 s (request t id seq opcode pay env s) ∧ keepsBut ([.time, .host, .out] ++ ps) s (request t id seq opcode pay env s) := by
  rw [hcongr] at hrun
  obtain ⟨hcarried, hframe, -⟩ := request_carriedOut h hop hop' hrun (congrArg HostState.slots (hkeep .host hhost)) (hkeep .out hout)
  refine ⟨hcarried, keepsBut_trans (keepsBut_mono (begun_frame t seq k x s) ?_) (keepsBut_trans (keepsBut_mono hkeep (List.subset_append_right _ _)) (keepsBut_mono hframe ?_))⟩
  · simp
  · simp

theorem readItems_carried : ∀ t id seq pay ends k x s, admitted t id seq 0x0201 pay k x s →
    Completes (.readItems t id seq pay ends) s fun r => carriedOut k x t seq 0x0201 (opReadItems t pay ends s).2 s r ∧ keepsBut [.time, .host, .comb, .recorder, .out] s r := by
  intro t id seq pay ends k x s hadm
  obtain ⟨hcarried, hkeep⟩ := request_readComb (op := opReadItems t pay ends) (ps := [.comb, .recorder]) (env := { ends := ends }) hadm (by decide) (by decide) rfl (by simp +decide) (by decide) (by decide)
    (opReadItems_of_comb (u := begun t seq k x s) (s := s) rfl _ _ _)
  exact ⟨_, rfl, hcarried, keepsBut_mono hkeep (by decide)⟩

theorem readSlots_carried : ∀ t id seq pay ends k x s, admitted t id seq 0x0202 pay k x s →
    Completes (.readSlots t id seq pay ends) s fun r => carriedOut k x t seq 0x0202 (opReadSlots t pay ends s).2 s r ∧ keepsBut [.time, .host, .comb, .recorder, .out] s r := by
  intro t id seq pay ends k x s hadm
  obtain ⟨hcarried, hkeep⟩ := request_readComb (op := opReadSlots t pay ends) (ps := [.comb, .recorder]) (env := { ends := ends }) hadm (by decide) (by decide) rfl (by simp +decide) (by decide) (by decide)
    (opReadSlots_of_comb (u := begun t seq k x s) (s := s) rfl _ _ _)
  exact ⟨_, rfl, hcarried, keepsBut_mono hkeep (by decide)⟩

theorem readMap_carried : ∀ t id seq pay k x s, admitted t id seq 0x0203 pay k x s →
    Completes (.readMap t id seq pay) s fun r => carriedOut k x t seq 0x0203 (opReadMap pay s).2 s r ∧ keepsBut [.time, .host, .comb, .out] s r := by
  intro t id seq pay k x s hadm
  obtain ⟨hcarried, hkeep⟩ := request_readComb (op := opReadMap pay) (ps := [.comb]) (env := {}) hadm (by decide) (by decide) rfl (by simp +decide) (by decide) (by decide)
    (opReadMap_of_comb (u := begun t seq k x s) (s := s) rfl _)
  exact ⟨_, rfl, hcarried, keepsBut_mono hkeep (by decide)⟩

theorem paramRead_carried : ∀ t id seq pay k x s, admitted t id seq 0x0301 pay k x s →
    Completes (.paramRead t id seq pay) s fun r =>
      carriedOut k x t seq 0x0301 [stBytes (opParamRead pay s).2.1 (opParamRead pay s).2.2.1 ++ (opParamRead pay s).2.2.2] s r ∧ keepsBut [.time, .host, .out] s r := by
  intro t id seq pay k x s hadm
  obtain ⟨hcarried, hkeep⟩ := request_read (op := opParamRead pay) (env := {}) hadm (by decide) (by decide) rfl (fun u => by simp +decide)
    fun u hu => opParamRead_of_boot (hu .boot (by decide)) pay
  exact ⟨_, rfl, hcarried, hkeep⟩

theorem eventList_carried : ∀ t id seq pay k x s, admitted t id seq 0x0501 pay k x s →
    Completes (.eventList t id seq pay) s fun r =>
      carriedOut k x t seq 0x0501 [stBytes (opEventList pay s).2.1 (opEventList pay s).2.2.1 ++ (opEventList pay s).2.2.2] s r ∧ keepsBut [.time, .host, .out] s r := by
  intro t id seq pay k x s hadm
  obtain ⟨hcarried, hkeep⟩ := request_read (op := opEventList pay) (env := {}) hadm (by decide) (by decide) rfl (fun u => by simp +decide)
    fun u hu => opEventList_of_recorder (hu .recorder (by decide)) pay
  exact ⟨_, rfl, hcarried, hkeep⟩

theorem readsHeld_begun (t seq k : Nat) (x : Session) (s : State) : readsHeld (begun t seq k x s) t = readsHeld s t := rfl

theorem recRead_held : ∀ t id seq pay k x s, admitted t id seq 0x0502 pay k x s → readsHeld s t = true → rd 1 0 pay < 3 →
    Completes (.recRead t id seq pay) s fun r =>
      r.host.heldReads = s.host.heldReads ++ [(x.id, k, seq, pay)] ∧ r.out = s.out ∧
      (∃ w, sessionAt r k = some w ∧ ({ seq := seq, opcode := 0x0502, parts := [], running := true } : FhpReply) ∈ w.replies) ∧ keepsBut [.time, .host] s r := by
  intro t id seq pay k x s hadm hheld hregion
  obtain ⟨-, -, -, hx, -⟩ := And.intro hadm.1 hadm.2
  have hcond : (readsHeld s t && decide (rd 1 0 pay < 3)) = true := by rw [hheld, decide_eq_true hregion]; rfl
  have hrun : runOp k (noted t seq x s) t seq 0x0502 pay {} (begun t seq k x s) =
      ((begun t seq k x s).modHost fun h => { h with heldReads := h.heldReads ++ [(x.id, k, seq, pay)] }, [], true, false) :=
    if_pos hcond
  refine ⟨_, rfl, ?_⟩
  rw [request_admitted hadm (by decide), carryOut, hrun]
  have hself : sessionAt ((begun t seq k x s).modHost fun h => { h with heldReads := h.heldReads ++ [(x.id, k, seq, pay)] }) k = some (noted t seq x s) := sessionAt_begun hx
  obtain ⟨⟨w, hw, -, hmem⟩, -⟩ := keepReply_facts { seq := seq, opcode := 0x0502, parts := [], running := true } hself
  exact ⟨rfl, rfl, ⟨w, hw, hmem⟩, keepsBut_trans (begun_frame t seq k x s) (keepsBut_mono (keepsBut_trans
    (t := (begun t seq k x s).modHost fun h => { h with heldReads := h.heldReads ++ [(x.id, k, seq, pay)] }) (by simp +decide) (updSlot_frame k _ _)) (by decide))⟩

theorem recRead_carried : ∀ t id seq pay k x s, admitted t id seq 0x0502 pay k x s → (readsHeld s t = false ∨ 3 ≤ rd 1 0 pay) →
    Completes (.recRead t id seq pay) s fun r =>
      carriedOut k x t seq 0x0502 [stBytes (opRecRead pay s).2.1 (opRecRead pay s).2.2.1 ++ (opRecRead pay s).2.2.2] s r ∧ keepsBut [.time, .host, .out] s r := by
  intro t id seq pay k x s hadm hopen
  have hcond : (readsHeld s t && decide (rd 1 0 pay < 3)) = false := by
    rcases hopen with h | h
    · rw [h, Bool.false_and]
    · rw [decide_eq_false (not_lt.2 h), Bool.and_false]
  obtain ⟨hcarried, hkeep⟩ := request_read (op := opRecRead pay) (env := {}) hadm (by decide) (by decide) (if_neg (by rw [readsHeld_begun, hcond]; decide)) (fun u => by simp +decide)
    fun u hu => opRecRead_of_recorder (hu .recorder (by decide)) pay
  exact ⟨_, rfl, hcarried, hkeep⟩

theorem progRead_carried : ∀ t id seq pay k x s, admitted t id seq 0x0602 pay k x s → engineer x.role = true →
    Completes (.progRead t id seq pay) s fun r =>
      carriedOut k x t seq 0x0602 [stBytes (opProgRead pay s).2.1 (opProgRead pay s).2.2.1 ++ (opProgRead pay s).2.2.2] s r ∧ keepsBut [.time, .host, .out] s r := by
  intro t id seq pay k x s hadm hrole
  obtain ⟨hcarried, hkeep⟩ := request_read (op := opProgRead pay) (env := {}) hadm (by decide) (by decide) rfl (fun u => by simp +decide)
    fun u hu => opProgRead_of_prog (hu .prog (by decide)) pay
  exact ⟨_, rfl, hcarried, hkeep⟩

theorem updStatus_carried : ∀ t id seq pay k x s, admitted t id seq 0x0703 pay k x s →
    Completes (.updStatus t id seq pay) s fun r =>
      carriedOut k x t seq 0x0703 [stBytes (opUpdStatus pay s).2.1 (opUpdStatus pay s).2.2.1 ++ (opUpdStatus pay s).2.2.2] s r ∧ keepsBut [.time, .host, .out] s r := by
  intro t id seq pay k x s hadm
  obtain ⟨hcarried, hkeep⟩ := request_read (op := opUpdStatus pay) (env := {}) hadm (by decide) (by decide) rfl (fun u => by simp +decide)
    fun u hu => opUpdStatus_congr hu pay
  exact ⟨_, rfl, hcarried, hkeep⟩

theorem journalRead_carried : ∀ t id seq pay k x s, admitted t id seq 0x0901 pay k x s →
    Completes (.journalRead t id seq pay) s fun r =>
      carriedOut k x t seq 0x0901 [stBytes (opJournalRead pay s).2.1 (opJournalRead pay s).2.2.1 ++ (opJournalRead pay s).2.2.2] s r ∧ keepsBut [.time, .host, .out] s r := by
  intro t id seq pay k x s hadm
  obtain ⟨hcarried, hkeep⟩ := request_read (op := opJournalRead pay) (env := {}) hadm (by decide) (by decide) rfl (fun u => by simp +decide)
    fun u hu => opJournalRead_of_boot (hu .boot (by decide)) pay
  exact ⟨_, rfl, hcarried, hkeep⟩

theorem bistRead_carried : ∀ t id seq pay k x s, admitted t id seq 0x0902 pay k x s →
    Completes (.bistRead t id seq pay) s fun r =>
      carriedOut k x t seq 0x0902 [stBytes (opBistRead pay s).2.1 (opBistRead pay s).2.2.1 ++ (opBistRead pay s).2.2.2] s r ∧ keepsBut [.time, .host, .out] s r := by
  intro t id seq pay k x s hadm
  obtain ⟨hcarried, hkeep⟩ := request_read (op := opBistRead pay) (env := {}) hadm (by decide) (by decide) rfl (fun u => by simp +decide)
    fun u hu => opBistRead_of_bist (hu .bist (by decide)) pay
  exact ⟨_, rfl, hcarried, hkeep⟩

/-- The bytes of an entry of a capture queue (R377). -/
def capBytes (c : CapEntry) : List Byte := toLE 8 c.time ++ toLE 1 ((if c.falling then 1 else 0) + (if c.lost then 2 else 0)) ++ toLE 1 c.input ++ toLE 6 0

theorem capRead_empties : ∀ t id seq pay k x s, admitted t id seq 0x0801 pay k x s → pay.length = 1 → rd 1 0 pay < 8 → s.parN .timeCapReader (rd 1 0 pay) = 0 →
    Completes (.capRead t id seq pay) s fun r =>
      (∃ es, carriedOut k x t seq 0x0801 [stBytes 0 0 ++ toLE 1 (s.time.capture.getD (rd 1 0 pay) []).length ++ toLE 3 0 ++ es] s r ∧ es.length = 16 * (s.time.capture.getD (rd 1 0 pay) []).length) ∧
      r.time.capture.getD (rd 1 0 pay) [] = [] ∧ (∀ j, j ≠ rd 1 0 pay → r.time.capture.getD j [] = s.time.capture.getD j []) ∧ keepsBut [.time, .host, .out] s r := by
  intro t id seq pay k x s hadm hlen hk hreader
  have hop : ∀ u : State, u.parN .timeCapReader (rd 1 0 pay) = 0 → ∃ es : List Byte, es.length = 16 * (u.time.capture.getD (rd 1 0 pay) []).length ∧
      opCapRead pay u = opOk (u.modTime fun x => { x with capture := updAt x.capture (rd 1 0 pay) fun _ => [] })
        (toLE 1 (u.time.capture.getD (rd 1 0 pay) []).length ++ toLE 3 0 ++ es) := by
    intro u hu
    refine ⟨(u.time.capture.getD (rd 1 0 pay) []).flatMap capBytes, ?_, ?_⟩
    · simp only [List.length_flatMap, capBytes, List.length_append, length_toLE, List.map_const', List.sum_replicate, smul_eq_mul]
      omega
    · rw [opCapRead, if_neg (by simp [hlen, hk]), if_neg (by simp [hu])]
      rfl
  obtain ⟨es, hes, hop⟩ := hop (begun t seq k x s) hreader
  have hrun : runOp k (noted t seq x s) t seq 0x0801 pay {} (begun t seq k x s) = onePart (opCapRead pay (begun t seq k x s)) := rfl
  rw [hop] at hrun
  obtain ⟨hcarried, hkeep, -⟩ := request_onePart hadm (by decide) (by decide) hrun rfl rfl
  have htime := hkeep .time (by decide)
  refine ⟨_, rfl, ⟨es, ?_, hes⟩, ?_, fun j hj => ?_, keepsBut_trans (keepsBut_mono (begun_frame t seq k x s) (by decide))
    (keepsBut_trans (t := (begun t seq k x s).modTime fun x => { x with capture := updAt x.capture (rd 1 0 pay) fun _ => [] }) (by simp +decide) (keepsBut_mono hkeep (by decide)))⟩
  · rw [List.append_assoc, List.append_assoc, ← List.append_assoc (toLE 1 _)]
    exact hcarried
  · rw [htime]
    show (updAt s.time.capture (rd 1 0 pay) fun _ => []).getD (rd 1 0 pay) [] = []
    rw [getD_updAt]
    split
    · rfl
    next hno => exact List.getD_eq_default _ _ (by simpa using hno)
  · rw [htime]
    exact (getD_updAt _ _ _ _ _).trans (if_neg fun h => hj h.1.symm)

theorem opReadItems_expired : ∀ t pay ends n s, rd 2 12 pay = n → 1 ≤ n → n ≤ 340 → pay.length = 16 + 4 * n → frameFor s (rd 8 0 pay) = .inr 2 →
    (opReadItems t pay ends s).2 = [stBytes 2 0] ∧ (opReadItems t pay ends s).1.comb.expired = s.comb.expired + 1 := by
  intro t pay ends n s hn hlo hhi hlen hframe
  have hok : (pay.length < 16 || rd 2 12 pay == 0 || 340 < rd 2 12 pay || pay.length != 16 + 4 * rd 2 12 pay) = false := by
    simp only [Bool.or_eq_false_iff, decide_eq_false_iff_not, beq_eq_false_iff_ne, bne_eq_false_iff_eq]
    omega
  rw [opReadItems, hframe]
  dsimp only
  rw [if_neg (by simpa using hok)]
  exact ⟨rfl, rfl⟩

theorem opReadItems_newest : ∀ t pay ends img s, pay.length = 16 + 4 * rd 2 12 pay → 1 ≤ rd 2 12 pay → rd 2 12 pay ≤ 340 → rd 8 0 pay = 0xFFFFFFFFFFFFFFFF → s.comb.published = some img → rd 4 8 pay = img.mapVersion →
    let es := keyEntries (serveAll s 0 img) (keyList (rd 2 12 pay) (pay.drop 16))
    es.length ≤ 114 → doneAt t ends 0 ≤ (img.frame + 3) * frameNs + 5000000 →
    (opReadItems t pay ends s).2 = [stBytes 0 0 ++ toLE 1 0 ++ toLE 1 1 ++ toLE 1 0 ++ toLE 1 0 ++ toLE 8 img.frame ++ toLE 1 img.flags.toNat ++ toLE 7 0 ++ es.flatten] := by
  intro t pay ends img s hlen hlo hhi hframe himg hver es hes hdone
  have hok : (pay.length < 16 || rd 2 12 pay == 0 || 340 < rd 2 12 pay || pay.length != 16 + 4 * rd 2 12 pay) = false := by
    simp only [Bool.or_eq_false_iff, decide_eq_false_iff_not, beq_eq_false_iff_ne, bne_eq_false_iff_eq]
    omega
  have hkeys : keyList (rd 2 12 pay) (pay.drop 16) ≠ [] := by
    refine List.ne_nil_of_length_pos ?_
    rw [keyList, List.length_map, length_chunks]
    exact hlo
  have hne : es ≠ [] := keyEntries_ne_nil hkeys
  have hparts : cut 114 es.length es = [es] := cut_of_length_le hne hes (List.length_pos_of_ne_nil hne)
  rw [opReadItems, hframe, frameFor_newest himg]
  dsimp only
  rw [buffer_newest himg]
  dsimp only
  rw [if_neg (by simpa using hok), if_neg (by rw [hver, bne_self_eq_false, Bool.false_and]; decide)]
  show (cut 114 es.length es).mapIdx _ = _
  rw [hparts]
  show [if doneAt t ends 0 ≤ leaseEnd img.frame then itemPart 0 0 1 0 img es else itemPart 2 0 1 0 img []] = _
  rw [if_pos (by exact hdone)]
  rfl

theorem keyEntries_unknown : ∀ all key, (∀ e ∈ all, e.1 ≠ key) → keyEntries all [key] = [toLE 4 key ++ toLE 4 0 ++ toLE 4 8] := by
  intro all key hno
  have hfind : all.find? (·.1 == key) = none := List.find?_eq_none.2 fun e he => by simpa using hno e he
  rw [keyEntries, List.flatMap_cons, hfind]
  rfl

theorem opReadSlots_newest : ∀ t pay ends img s, pay.length = 16 → 1 ≤ rd 2 12 pay → rd 2 12 pay ≤ 172 → rd 8 0 pay = 0xFFFFFFFFFFFFFFFF → s.comb.published = some img → rd 4 8 pay + rd 2 12 pay ≤ slotCount img →
    doneAt t ends 0 ≤ (img.frame + 3) * frameNs + 5000000 →
    let ss := (((serveAll s 0 img).flatMap slotBytes).drop (rd 4 8 pay)).take (rd 2 12 pay)
    (opReadSlots t pay ends s).2 = [stBytes 0 0 ++ toLE 1 0 ++ toLE 3 0 ++ toLE 8 img.frame ++ toLE 4 (rd 4 8 pay) ++ toLE 2 ss.length ++ toLE 2 0 ++ ss.flatten] := by
  intro t pay ends img s hlen hlo hhi hframe himg hroom hdone
  have hok : (pay.length != 16 || rd 2 12 pay == 0 || 172 < rd 2 12 pay) = false := by
    simp only [Bool.or_eq_false_iff, decide_eq_false_iff_not, beq_eq_false_iff_ne, bne_eq_false_iff_eq]
    omega
  dsimp only
  rw [opReadSlots, hframe, frameFor_newest himg]
  dsimp only
  rw [buffer_newest himg]
  dsimp only
  rw [if_neg (by simpa using hok), if_neg (not_lt.2 hroom), if_neg (by exact not_lt.2 hdone)]
  rfl

/-- Entry i of runs of the same length. -/
theorem take_drop_flatten {α : Type} {m : Nat} (l : List (List α)) (h : ∀ x ∈ l, x.length = m) (i : Nat) : (l.flatten.drop (m * i)).take m = l.getD i [] := by
  induction l generalizing i with
  | nil => simp
  | cons x l ih =>
    obtain ⟨hx, hl⟩ := List.forall_mem_cons.1 h
    cases i with
    | zero => rw [List.flatten_cons, mul_zero, List.drop_zero, List.take_left' hx]; rfl
    | succ i => rw [List.flatten_cons, mul_add_one, add_comm, drop_add_append _ hx, ih hl]; rfl

/-- The bytes of an entry of the item map (R53). -/
def mapEntryBytes (x : Nat × Nat × Nat) : List Byte := toLE 4 x.1 ++ toLE 1 x.2.1 ++ toLE 1 x.2.2 ++ toLE 2 0

theorem length_mapEntryBytes (x : Nat × Nat × Nat) : (mapEntryBytes x).length = 8 := by simp [mapEntryBytes]

theorem opReadMap_entries : ∀ pay s, pay.length = 12 → 1 ≤ rd 2 8 pay → rd 2 8 pay ≤ 172 → rd 4 0 pay = s.comb.mapVersion → rd 4 4 pay + rd 2 8 pay ≤ s.comb.map.length →
    ∃ es, (opReadMap pay s).2 = [stBytes 0 0 ++ toLE 4 s.comb.mapVersion ++ toLE 4 (rd 4 4 pay) ++ toLE 2 (rd 2 8 pay) ++ toLE 2 0 ++ es] ∧ es.length = 8 * rd 2 8 pay ∧
      ∀ i, i < rd 2 8 pay → (es.drop (8 * i)).take 4 = toLE 4 (s.comb.map.getD (rd 4 4 pay + i) (0, 0, 0)).1 := by
  intro pay s hlen hlo hhi hver hroom
  have hok : (pay.length != 12 || rd 2 8 pay == 0 || 172 < rd 2 8 pay) = false := by
    simp only [Bool.or_eq_false_iff, decide_eq_false_iff_not, beq_eq_false_iff_ne, bne_eq_false_iff_eq]
    omega
  have hmap : mapFor s (rd 4 0 pay) = some s.comb.map := by rw [mapFor, hver, beq_self_eq_true, Bool.or_true]; rfl
  have hentries : ∀ y ∈ ((s.comb.map.drop (rd 4 4 pay)).take (rd 2 8 pay)).map mapEntryBytes, y.length = 8 := by
    intro y hy
    obtain ⟨x, -, rfl⟩ := List.mem_map.1 hy
    exact length_mapEntryBytes x
  have hcount : ((s.comb.map.drop (rd 4 4 pay)).take (rd 2 8 pay)).length = rd 2 8 pay := by
    rw [List.length_take, List.length_drop]
    omega
  refine ⟨(((s.comb.map.drop (rd 4 4 pay)).take (rd 2 8 pay)).map mapEntryBytes).flatten, ?_, ?_, fun i hi => ?_⟩
  · rw [opReadMap, hmap]
    dsimp only
    rw [if_neg (by simpa using hok), if_neg (not_lt.2 hroom), hver, ite_self]
    rfl
  · rw [List.length_flatten, List.map_congr_left hentries, List.map_const', List.sum_replicate, List.length_map, hcount, smul_eq_mul, mul_comm]
  · have hi' : i < ((s.comb.map.drop (rd 4 4 pay)).take (rd 2 8 pay)).length := by rwa [hcount]
    have htake := take_drop_flatten _ hentries i
    calc _ = (((((s.comb.map.drop (rd 4 4 pay)).take (rd 2 8 pay)).map mapEntryBytes).flatten.drop (8 * i)).take 8).take 4 := by rw [List.take_take]; rfl
      _ = (mapEntryBytes (s.comb.map.getD (rd 4 4 pay + i) (0, 0, 0))).take 4 := by
        rw [htake, List.getD_eq_getElem _ _ (by rwa [List.length_map]), List.getElem_map, List.getElem_take, List.getElem_drop,
          List.getD_eq_getElem _ _ (by omega)]
      _ = _ := by rw [mapEntryBytes, List.append_assoc, List.append_assoc, List.take_left' (length_toLE _ _)]

theorem opParamRead_shows : ∀ nm k s, 1 ≤ nm.length → nm.length ≤ 63 → paramOfName nm = some k → k.p ≠ .hostKey →
    (opParamRead (toLE 1 1 ++ toLE 1 nm.length ++ nm) s).2.2.2 =
      toLE 1 k.p.desc.typ ++ valueBytes k.p.desc.typ (runValue s k) ++ toLE 1 k.p.desc.typ ++ valueBytes k.p.desc.typ (comValue s k) ++ toLE 1 (if isPending s k then 1 else 0) := by
  intro nm k s hlo hhi hname hkey
  have hcount : rd 1 0 (toLE 1 1 ++ toLE 1 nm.length ++ nm) = 1 := rfl
  have htail : (toLE 1 1 ++ toLE 1 nm.length ++ nm).drop 1 = toLE 1 nm.length ++ nm := rfl
  have hlen : rd 1 0 (toLE 1 nm.length ++ nm) = nm.length := rd_field (pre := []) nm rfl rfl (by omega)
  have htake : takeName (toLE 1 nm.length ++ nm) = some (nm, []) := by
    rw [takeName, hlen]
    rw [if_pos (by simp [hlo, hhi])]
    refine congrArg some (Prod.ext ?_ ?_)
    · show (nm.take nm.length) = nm
      exact List.take_length
    · show ((toLE 1 nm.length ++ nm).drop (1 + nm.length)) = []
      exact List.drop_eq_nil_of_le (by simp)
  have hshown : ∀ v, shownValue k v = v := fun v => if_neg (by rw [beq_eq_false_iff_ne.2 hkey]; decide)
  rw [opParamRead, hcount, htail, readNames, htake]
  dsimp only
  rw [hname]
  simp only [hshown]
  exact List.append_nil _

theorem opEventList_records : ∀ c first count newer old s, 1 ≤ c → c ≤ 10 → 1 ≤ count → count ≤ 28 → first < 2 ^ 32 → s.recorder.rings.getD (c - 1) [] = newer ++ [old] →
    let recs := ((old :: newer.reverse).filter fun e => decide (first ≤ e.seq)).take count
    opEventList (toLE 1 c ++ toLE 3 0 ++ toLE 4 first ++ toLE 1 count) s =
      (s, 0, min (old.seq - first) 65535,
        toLE 1 c ++ toLE 3 0 ++ toLE 4 old.seq ++ toLE 4 (s.recorder.seq.getD (c - 1) 0) ++ toLE 1 recs.length ++ toLE 3 0 ++ recs.flatMap eventBytes) := by
  intro c first count newer old s hc hc' hn hn' hfirst hring recs
  have h1 : rd 1 0 (toLE 1 c ++ toLE 3 0 ++ toLE 4 first ++ toLE 1 count) = c :=
    rd_field (pre := []) (toLE 3 0 ++ (toLE 4 first ++ toLE 1 count)) (by simp) rfl (by omega)
  have h2 : rd 4 4 (toLE 1 c ++ toLE 3 0 ++ toLE 4 first ++ toLE 1 count) = first :=
    rd_field (pre := toLE 1 c ++ toLE 3 0) (toLE 1 count) (by simp) rfl (by omega)
  have h3 : rd 1 8 (toLE 1 c ++ toLE 3 0 ++ toLE 4 first ++ toLE 1 count) = count :=
    rd_field (pre := toLE 1 c ++ toLE 3 0 ++ toLE 4 first) [] (by simp) rfl (by omega)
  have hrev : (s.recorder.rings.getD (c - 1) []).reverse = old :: newer.reverse := by rw [hring, List.reverse_concat]
  rw [opEventList, h1, h2, h3, hrev]
  rw [if_neg (by simp; omega)]

theorem opRecRead_bytes : ∀ g off count n s, regionSize g = some n → 1 ≤ count → count ≤ 1376 → off + count ≤ n →
    ∃ bs, opRecRead (toLE 1 g ++ toLE 3 0 ++ toLE 4 off ++ toLE 2 count) s = (s, 0, 0, toLE 1 g ++ toLE 3 0 ++ toLE 4 off ++ toLE 2 count ++ toLE 4 s.recorder.commits ++ toLE 2 0 ++ bs) ∧
      bs.length = count ∧ ∀ i, i < count → bs.getD i 0 = regionByte s.recorder g (off + i) := by
  intro g off count n s hsize hlo hhi hroom
  have hg : g < 256 ∧ n ≤ 1843200 := by
    unfold regionSize at hsize
    split at hsize
    case h_7 => cases hsize
    all_goals
      obtain rfl := Option.some.inj hsize
      omega
  have h1 : rd 1 0 (toLE 1 g ++ toLE 3 0 ++ toLE 4 off ++ toLE 2 count) = g :=
    rd_field (pre := []) (toLE 3 0 ++ (toLE 4 off ++ toLE 2 count)) (by simp) rfl (by omega)
  have h2 : rd 4 4 (toLE 1 g ++ toLE 3 0 ++ toLE 4 off ++ toLE 2 count) = off :=
    rd_field (pre := toLE 1 g ++ toLE 3 0) (toLE 2 count) (by simp) rfl (by omega)
  have h3 : rd 2 8 (toLE 1 g ++ toLE 3 0 ++ toLE 4 off ++ toLE 2 count) = count :=
    rd_field (pre := toLE 1 g ++ toLE 3 0 ++ toLE 4 off) [] (by simp) rfl (by omega)
  refine ⟨(List.range count).map fun k => regionByte s.recorder g (off + k), ?_, by simp, fun i hi => ?_⟩
  · rw [opRecRead, h1, h2, h3, hsize]
    dsimp only
    rw [if_neg (by simp; omega)]
    rfl
  · rw [List.getD_eq_getElem _ _ (by simpa using hi), List.getElem_map, List.getElem_range]

theorem opProgRead_bytes : ∀ off count p s, s.prog.active = some p → 1 ≤ count → count ≤ 1384 → off + count ≤ p.raw.length → p.raw.length ≤ 262176 →
    opProgRead (toLE 4 0 ++ toLE 4 off ++ toLE 2 count) s = (s, 0, 0, (p.raw.drop off).take count) := by
  intro off count p s hp hlo hhi hroom hraw
  have h1 : rd 4 0 (toLE 4 0 ++ toLE 4 off ++ toLE 2 count) = 0 := rd_field (pre := []) (toLE 4 off ++ toLE 2 count) (by simp) rfl (by omega)
  have h2 : rd 4 4 (toLE 4 0 ++ toLE 4 off ++ toLE 2 count) = off := rd_field (pre := toLE 4 0) (toLE 2 count) (by simp) rfl (by omega)
  have h3 : rd 2 8 (toLE 4 0 ++ toLE 4 off ++ toLE 2 count) = count := rd_field (pre := toLE 4 0 ++ toLE 4 off) [] (by simp) rfl (by omega)
  rw [opProgRead, h1, h2, h3]
  rw [if_pos (by decide), hp]
  dsimp only
  rw [if_neg (by simp; omega)]
  rfl

theorem drop_getD {α : Type} {a b : List α} {n : Nat} (h : a.length = n) (k : Nat) (d : α) : (a ++ b).getD (n + k) d = b.getD k d := by
  subst h
  rw [List.getD_append_right _ _ _ _ (Nat.le_add_right _ _), Nat.add_sub_cancel_left]

theorem bit_eq_testBit (v k : Nat) : bit v k = v.testBit k := by
  rw [bit, Nat.testBit_eq_decide_div_mod_eq]
  rfl

/-- A number put together from the bits that a predicate names. -/
theorem sum_bits (p : Nat → Bool) (n : Nat) :
    (((List.range n).filter p).map (2 ^ ·)).sum < 2 ^ n ∧ ∀ m, m < n → ((((List.range n).filter p).map (2 ^ ·)).sum).testBit m = p m := by
  induction n with
  | zero => exact ⟨Nat.one_pos, fun m hm => absurd hm (Nat.not_lt_zero m)⟩
  | succ n ih =>
    obtain ⟨hlt, hbit⟩ := ih
    rw [List.range_succ, List.filter_append, List.map_append, List.sum_append]
    cases hp : p n with
    | false =>
      rw [List.filter_cons_of_neg (by rw [hp]; decide)]
      refine ⟨by simp only [List.filter_nil, List.map_nil, List.sum_nil, Nat.add_zero, pow_succ]; omega, fun m hm => ?_⟩
      rcases Nat.lt_succ_iff_lt_or_eq.1 hm with hm | rfl
      · exact hbit m hm
      · rw [hp]
        exact Nat.testBit_lt_two_pow hlt
    | true =>
      rw [List.filter_cons_of_pos hp]
      refine ⟨by simp only [List.filter_nil, List.map_cons, List.map_nil, List.sum_cons, List.sum_nil, Nat.add_zero, pow_succ]; omega, fun m hm => ?_⟩
      simp only [List.filter_nil, List.map_cons, List.map_nil, List.sum_cons, List.sum_nil, Nat.add_zero]
      rw [add_comm]
      rcases Nat.lt_succ_iff_lt_or_eq.1 hm with hm | rfl
      · rw [Nat.testBit_two_pow_add_gt hm]
        exact hbit m hm
      · rw [Nat.testBit_two_pow_add_eq, Nat.testBit_lt_two_pow hlt, hp]
        rfl

theorem opUpdStatus_bit : ∀ first c s, first % 8 = 0 → first ≤ c → c < first + 8192 → c < totalOf s → totalOf s < 2 ^ 32 →
    bit ((opUpdStatus (toLE 4 first) s).2.2.2.getD (28 + (c - first) / 8) 0).toNat ((c - first) % 8) = s.upd.got.contains c := by
  intro first c s h8 hlo hhi htotal htop
  have hfirst : rd 4 0 (toLE 4 first) = first := rd_field (pre := []) [] (by simp) rfl (by omega)
  have hcell : (c - first) / 8 < min 1024 ((totalOf s - first + 7) / 8) := by omega
  obtain ⟨hsum, hbits⟩ := sum_bits (fun j => s.upd.got.contains (first + 8 * ((c - first) / 8) + j)) 8
  rw [opUpdStatus, hfirst]
  dsimp only
  rw [if_neg (by simp [h8]), opOk, drop_getD (by simp), List.getD_eq_getElem _ _ (by simpa using hcell), List.getElem_map, List.getElem_range, BitVec.toNat_ofNat,
    Nat.mod_eq_of_lt hsum, bit_eq_testBit, hbits _ (Nat.mod_lt _ (by decide))]
  exact congrArg _ (by omega)

theorem opJournalRead_entries : ∀ first n s, first < 16 → 1 ≤ n → n ≤ 5 →
    opJournalRead (toLE 1 first ++ toLE 1 n) s =
      (s, 0, 0, toLE 1 s.boot.newest ++ toLE 1 n ++ toLE 2 0 ++ (List.range n).flatMap fun k => journalBytes (s.boot.journal.getD ((first + k) % 16) {})) := by
  intro first n s hfirst hlo hhi
  have h1 : rd 1 0 (toLE 1 first ++ toLE 1 n) = first := rd_field (pre := []) (toLE 1 n) (by simp) rfl (by omega)
  have h2 : rd 1 1 (toLE 1 first ++ toLE 1 n) = n := rd_field (pre := toLE 1 first) [] (by simp) rfl (by omega)
  rw [opJournalRead, h1, h2]
  rw [if_neg (by simp; omega)]
  rfl

theorem opBistRead_records : ∀ first count newer old s, 1 ≤ count → count ≤ 40 → first < 2 ^ 32 → s.bist.ring = newer ++ [old] →
    let recs := ((old :: newer.reverse).filter fun e => decide (first ≤ e.seq)).take count
    opBistRead (toLE 4 first ++ toLE 1 count) s =
      (s, 0, min (old.seq - first) 65535, toLE 4 old.seq ++ toLE 4 s.bist.seq ++ toLE 1 recs.length ++ toLE 3 0 ++ recs.flatMap bistBytes) := by
  intro first count newer old s hlo hhi hfirst hring recs
  have h1 : rd 4 0 (toLE 4 first ++ toLE 1 count) = first := rd_field (pre := []) (toLE 1 count) (by simp) rfl (by omega)
  have h2 : rd 1 4 (toLE 4 first ++ toLE 1 count) = count := rd_field (pre := toLE 4 first) [] (by simp) rfl (by omega)
  have hrev : s.bist.ring.reverse = old :: newer.reverse := by rw [hring, List.reverse_concat]
  rw [opBistRead, h1, h2, hrev]
  rw [if_neg (by simp; omega)]

theorem frameFor_notYet : ∀ s p f, s.comb.published = some p → p.frame < f → f ≠ 0xFFFFFFFFFFFFFFFF → frameFor s f = .inr 3 := by
  intro s p f hp hlt hne
  rw [frameFor, hp]
  dsimp only
  rw [if_neg (by simp; omega), if_pos hlt]

theorem frameFor_expired : ∀ s p q f, s.comb.published = some p → s.comb.previous = some q → f < p.frame → f ≠ q.frame → p.frame < 0xFFFFFFFFFFFFFFFF → frameFor s f = .inr 2 := by
  intro s p q f hp hq hlt hne hlast
  rw [frameFor, hp]
  dsimp only
  rw [if_neg (by simp; omega), if_neg (by omega), hq]
  dsimp only
  rw [if_neg (by simpa using hne)]

theorem openSubs_begun {t seq k : Nat} {x : Session} {s : State} (h : sessionAt s k = some x) : openSubs (begun t seq k x s) = openSubs s := by
  have hsubs : ∀ (l : List (Option Session)) (k : Nat), l.getD k none = some x →
      (l.modify k (·.map fun _ => noted t seq x s)).flatMap (fun o => match o with | some x => x.subs | none => []) =
        l.flatMap (fun o => match o with | some x => x.subs | none => []) := by
    intro l
    induction l with
    | nil => exact fun k h => (Option.some_ne_none _ h.symm).elim
    | cons o l ih =>
      intro k h
      cases k with
      | zero =>
        have ho : o = some x := h
        subst ho
        rfl
      | succ k => rw [List.modify_succ_cons, List.flatMap_cons, List.flatMap_cons, ih k h]
  exact hsubs s.host.slots k h

/-- Of four IDs one is free while fewer than four are taken. -/
theorem freeId {subs : List Subscription} (h : subs.length < 4) :
    let i := ([1, 2, 3, 4].find? fun i => !subs.any (·.id == i)).getD 1
    1 ≤ i ∧ i ≤ 4 ∧ ∀ v ∈ subs, v.id ≠ i := by
  cases hfind : [1, 2, 3, 4].find? fun i => !subs.any (·.id == i) with
  | none =>
    have hall : ∀ i ∈ [1, 2, 3, 4], i ∈ subs.map (·.id) := by
      intro i hi
      have htaken := List.find?_eq_none.1 hfind i hi
      simp only [Bool.not_eq_true', Bool.not_eq_false, List.any_eq_true, beq_iff_eq] at htaken
      exact List.mem_map.2 htaken
    have hle := (List.Nodup.subperm (l₁ := [1, 2, 3, 4]) (by decide) hall).length_le
    rw [List.length_map] at hle
    exact absurd hle (by simpa using h)
  | some i =>
    have hi := List.mem_of_find?_eq_some hfind
    have hfree := List.find?_some hfind
    simp only [Bool.not_eq_true', List.any_eq_false, beq_iff_eq] at hfree
    simp only [Option.getD_some]
    refine ⟨?_, ?_, hfree⟩
    all_goals
      simp only [List.mem_cons, List.not_mem_nil, or_false] at hi
      omega

theorem subscribe_adds : ∀ t id seq pay k x n s, admitted t id seq 0x0204 pay k x s → rd 1 0 pay = 0 → rd 2 4 pay = n → 1 ≤ n → n ≤ 340 → pay.length = 8 + 4 * n → 1 ≤ rd 1 1 pay → rd 1 1 pay ≤ 100 →
    x.subs.length < 4 → (openSubs s).length < 16 →
    let u : Subscription := { id := 0, kind := 0, period := rd 1 1 pay, keys := keyList n (pay.drop 8), first := 0, count := 0, parts := 0 }
    ((openSubs s).map (·.parts)).sum + subParts s u ≤ s.parN .hostPushMax →
    Completes (.subscribe t id seq pay) s fun r =>
      ∃ i, 1 ≤ i ∧ i ≤ 4 ∧ (∀ v ∈ x.subs, v.id ≠ i) ∧ notedIn k x t seq 0x0204 [stBytes 0 0 ++ toLE 1 i] (x.subs ++ [{ u with id := i, parts := subParts s u }]) s r ∧
        replied x 0x0204 seq [stBytes 0 0 ++ toLE 1 i] s r ∧ keepsBut [.time, .host, .out] s r := by
  intro t id seq pay k x n s hadm hkind hn hlo hhi hlen hper hper' hroom hopen u hmax
  obtain ⟨-, -, -, hx, -⟩ := And.intro hadm.1 hadm.2
  obtain ⟨hi, hi', hfree⟩ := freeId hroom
  refine ⟨_, rfl, ([1, 2, 3, 4].find? fun i => !x.subs.any (·.id == i)).getD 1, hi, hi', hfree, ?_⟩
  generalize hid : ([1, 2, 3, 4].find? fun i => !x.subs.any (·.id == i)).getD 1 = i at hi hi' hfree
  have hparts : subParts (begun t seq k x s) { id := i, kind := 0, period := rd 1 1 pay, keys := keyList n (pay.drop 8), first := 0, count := 0, parts := 0 } =
      subParts s u := (subParts_of_comb (u := begun t seq k x s) (s := s) rfl _).trans rfl
  have hop : opSubscribe k (noted t seq x s) pay (begun t seq k x s) =
      (updSlot k (fun y => { y with subs := y.subs ++ [{ u with id := i, parts := subParts s u }] }) (begun t seq k x s), [stBytes 0 0 ++ toLE 1 i]) := by
    rw [opSubscribe, openSubs_begun hx, hkind, hn, show (noted t seq x s).subs = x.subs from rfl, hid]
    dsimp only
    rw [if_neg (by simp [hlo, hhi, hlen]; omega), if_neg (by simp; omega)]
    simp only [beq_self_eq_true, if_true]
    rw [hparts, if_neg (by exact not_lt.2 hmax)]
  have hrun : runOp k (noted t seq x s) t seq 0x0204 pay {} (begun t seq k x s) =
      ((opSubscribe k (noted t seq x s) pay (begun t seq k x s)).1, (opSubscribe k (noted t seq x s) pay (begun t seq k x s)).2, false, false) := rfl
  rw [hop] at hrun
  obtain ⟨hnoted, hreplied, hkeep, -⟩ := request_noted (subs := x.subs ++ [{ u with id := i, parts := subParts s u }]) hadm (by decide) (by decide) hrun
    (sessionAt_updSlot_same (sessionAt_begun hx) _) (fun j hj => (sessionAt_updSlot_other hj _ _).trans (sessionAt_begun_other hj x s)) rfl
  exact ⟨hnoted, hreplied, keepsBut_trans (keepsBut_mono (begun_frame t seq k x s) (by decide)) (keepsBut_trans (keepsBut_mono (updSlot_frame k _ _) (by decide)) (keepsBut_mono hkeep (by decide)))⟩

theorem unsubscribe_ends : ∀ t id seq pay k x s, admitted t id seq 0x0205 pay k x s → pay.length = 1 → (∃ u ∈ x.subs, u.id = rd 1 0 pay) →
    Completes (.unsubscribe t id seq pay) s fun r =>
      notedIn k x t seq 0x0205 [stBytes 0 0] (x.subs.filter fun u => u.id != rd 1 0 pay) s r ∧ replied x 0x0205 seq [stBytes 0 0] s r ∧ keepsBut [.time, .host, .out] s r := by
  intro t id seq pay k x s hadm hlen hmem
  obtain ⟨-, -, -, hx, -⟩ := And.intro hadm.1 hadm.2
  have hany : x.subs.any (·.id == rd 1 0 pay) = true := by simpa using hmem
  have hop : opUnsubscribe k (noted t seq x s) pay (begun t seq k x s) =
      (updSlot k (fun y => { y with subs := y.subs.filter (·.id != rd 1 0 pay) }) (begun t seq k x s), [stBytes 0 0]) := by
    rw [opUnsubscribe, show (noted t seq x s).subs = x.subs from rfl]
    rw [if_neg (by rw [hany, hlen]; decide)]
  have hrun : runOp k (noted t seq x s) t seq 0x0205 pay {} (begun t seq k x s) =
      ((opUnsubscribe k (noted t seq x s) pay (begun t seq k x s)).1, (opUnsubscribe k (noted t seq x s) pay (begun t seq k x s)).2, false, false) := rfl
  rw [hop] at hrun
  obtain ⟨hnoted, hreplied, hkeep, -⟩ := request_noted (subs := x.subs.filter (·.id != rd 1 0 pay)) hadm (by decide) (by decide) hrun
    (sessionAt_updSlot_same (sessionAt_begun hx) _) (fun j hj => (sessionAt_updSlot_other hj _ _).trans (sessionAt_begun_other hj x s)) rfl
  exact ⟨_, rfl, hnoted, hreplied, keepsBut_trans (keepsBut_mono (begun_frame t seq k x s) (by decide))
    (keepsBut_trans (keepsBut_mono (updSlot_frame k _ _) (by decide)) (keepsBut_mono hkeep (by decide)))⟩

theorem mem_forEach_send {α : Type} (o : α → Output) {a : α} {l : List α} (h : a ∈ l) (s : State) : o a ∈ (forEach l (fun a s => s.send (o a)) s).out := by
  have hkeep : ∀ (l : List α) (s : State) (p : Output), p ∈ s.out → p ∈ (forEach l (fun a s => s.send (o a)) s).out := by
    intro l
    induction l with
    | nil => exact fun _ _ hp => hp
    | cons b l ih => exact fun s p hp => ih (s.send (o b)) p (List.mem_cons_of_mem _ hp)
  induction l generalizing s with
  | nil => exact absurd h List.not_mem_nil
  | cons b l ih =>
    rcases List.mem_cons.1 h with rfl | h
    · exact hkeep l (s.send (o a)) _ List.mem_cons_self
    · exact ih h (s.send (o b))

theorem isRaised_raiseRound (c a : Nat) (s : State) (h : recordedOnly.contains c = false) : (State.raiseRound c a s).isRaised c a = true := by
  have hr := isRaised_raise c a s h
  unfold State.raiseRound State.isRaised
  rw [State.modRecorder_recorder]
  split <;> exact hr

theorem noteRepair_frame (s : State) (bad : Bool) : keepsBut [.recorder] s (noteRepair s bad) := by simp +decide

theorem push_sends : ∀ t (k : Fin 8) id ends x img u s, netUp s = true → sessionAt s k.val = some x → s.comb.published = some img → (x.subs.find? fun v => v.id == id) = some u →
    img.frame % u.period = 0 → u.lastFrame ≠ some img.frame →
    let parts := pushParts s u img
    let late := fun j => (img.frame + 1) * frameNs + 15000000 < doneAt t ends j
    Completes (.push t k id ends) s fun r =>
      (∀ j, j < parts.length → ¬late j → Output.fhp x.addr x.port (fhpMessage x.key 3 x.id (x.pushSeq + 1 + j) 0x0206 (parts.getD j [])) ∈ r.out) ∧
      (∃ w, sessionAt r k.val = some w ∧ w.pushSeq = x.pushSeq + parts.length ∧ (∀ v ∈ w.subs, v.id = id → v.lastFrame = some img.frame)) ∧
      (∀ j, j ≠ k.val → sessionAt r j = sessionAt s j) ∧ ((∀ j, j < parts.length → ¬late j) → r.host.pushDrop = s.host.pushDrop) ∧
      ((∃ j, j < parts.length ∧ late j) → s.host.pushDrop < r.host.pushDrop ∧ r.isRaised 0x6027 k.val = true) ∧ keepsBut [.time, .host, .recorder, .out] s r := by
  intro t k id ends x img u s hup hx himg hfind hdue hnew parts late
  have hx' : sessionAt (s.at_ t) k.val = some x := hx
  have himg' : (s.at_ t).comb.published = some img := himg
  have hparts : pushParts (s.at_ t) u img = parts := pushParts_of_comb rfl u img
  have hgo : (!netUp (s.at_ t) || img.frame % u.period != 0 || u.lastFrame == some img.frame) = false := by
    rw [show netUp (s.at_ t) = true from hup, hdue, beq_eq_false_iff_ne.2 hnew]
    rfl
  have hexec : exec (.push t k id ends) s = execPush t k id ends s := rfl
  rw [Completes, hexec]
  unfold execPush
  dsimp only
  rw [hx', himg']
  dsimp only
  rw [hfind]
  dsimp only
  rw [if_neg (by rw [hgo]; decide), hparts]
  generalize hs1 : forEach ((List.range parts.length).filter fun j => decide (doneAt t ends j ≤ (img.frame + 1) * frameNs + 15000000))
    (fun j s => s.send (.fhp x.addr x.port (fhpMessage x.key 3 x.id (x.pushSeq + 1 + j) 0x0206 (parts.getD j [])))) (s.at_ t) = s1
  have hsent : ∀ j, j < parts.length → ¬late j → Output.fhp x.addr x.port (fhpMessage x.key 3 x.id (x.pushSeq + 1 + j) 0x0206 (parts.getD j [])) ∈ s1.out := by
    intro j hj hlate
    subst hs1
    exact mem_forEach_send (fun j => Output.fhp x.addr x.port (fhpMessage x.key 3 x.id (x.pushSeq + 1 + j) 0x0206 (parts.getD j [])))
      (List.mem_filter.2 ⟨List.mem_range.2 hj, decide_eq_true (not_lt.1 hlate)⟩) _
  have h1 : keepsBut [.out] (s.at_ t) s1 := by
    subst hs1
    exact forEach_frame (fun j s => by simp +decide) _ _
  have hx1 : sessionAt s1 k.val = some x := (sessionAt_of_keepsBut h1 (by decide) _).trans hx
  generalize hs2 : updSlot k.val (fun y => { y with pushSeq := y.pushSeq + parts.length, subs := y.subs.map fun v => if v.id == id then { v with lastFrame := some img.frame } else v }) s1 = s2
  have hself : sessionAt s2 k.val = some { x with pushSeq := x.pushSeq + parts.length, subs := x.subs.map fun v => if v.id == id then { v with lastFrame := some img.frame } else v } := by
    subst hs2
    exact sessionAt_updSlot_same hx1 _
  have hother : ∀ j, j ≠ k.val → sessionAt s2 j = sessionAt s j := by
    intro j hj
    subst hs2
    exact (sessionAt_updSlot_other hj _ _).trans (sessionAt_of_keepsBut h1 (by decide) j)
  have hdrop : s2.host.pushDrop = s.host.pushDrop := by
    have hhost : s1.host = s.host := h1 .host (by decide)
    subst hs2
    show s1.host.pushDrop = _
    rw [hhost]
  have h2 : keepsBut [.host, .out] (s.at_ t) s2 := by
    subst hs2
    exact keepsBut_trans (keepsBut_mono h1 (by decide)) (keepsBut_mono (updSlot_frame k.val _ s1) (by decide))
  have hout2 : s2.out = s1.out := by subst hs2; rfl
  generalize hs3 : noteRepair s2 (servesBad (s.at_ t) 0 ((imageItems img).filter fun e => u.kind == 1 || u.keys.contains e.1)) = s3
  have h3 : keepsBut [.recorder] s2 s3 := by
    subst hs3
    exact noteRepair_frame s2 _
  have hframe : keepsBut [.time, .host, .recorder, .out] s s3 := keepsBut_trans (t := s.at_ t) (by simp +decide) (keepsBut_trans (keepsBut_mono h2 (by decide)) (keepsBut_mono h3 (by decide)))
  have hat3 := sessionAt_of_keepsBut h3 (by decide)
  have hsubs : ∀ v ∈ x.subs.map fun v => if v.id == id then { v with lastFrame := some img.frame } else v, v.id = id → v.lastFrame = some img.frame := by
    intro v hv hid
    obtain ⟨w, -, rfl⟩ := List.mem_map.1 hv
    by_cases hw : (w.id == id) = true
    · rw [if_pos hw]
    · rw [if_neg hw] at hid
      exact absurd (beq_iff_eq.2 hid) hw
  generalize hlost : ((List.range parts.length).filter fun j => decide ((img.frame + 1) * frameNs + 15000000 < doneAt t ends j)).length = lost
  have hlost0 : lost = 0 ↔ ∀ j, j < parts.length → ¬late j := by
    subst hlost
    rw [List.length_eq_zero_iff, List.filter_eq_nil_iff]
    simp only [List.mem_range, decide_eq_true_eq]
    exact Iff.rfl
  have hsent3 : ∀ j, j < parts.length → ¬late j → Output.fhp x.addr x.port (fhpMessage x.key 3 x.id (x.pushSeq + 1 + j) 0x0206 (parts.getD j [])) ∈ s3.out := by
    intro j hj hlate
    rw [h3 .out (by decide), hout2]
    exact hsent j hj hlate
  have hhost3 : s3.host = s2.host := h3 .host (by decide)
  by_cases hzero : (lost == 0) = true
  · have hnone := hlost0.1 (beq_iff_eq.1 hzero)
    rw [if_pos hzero]
    refine ⟨_, rfl, hsent3, ⟨_, (hat3 _).trans hself, rfl, hsubs⟩, fun j hj => (hat3 j).trans (hother j hj), fun _ => by rw [hhost3, hdrop], fun hsome => ?_, hframe⟩
    obtain ⟨j, hj, hlate⟩ := hsome
    exact absurd hlate (hnone j hj)
  · have hpos : 0 < lost := Nat.pos_of_ne_zero fun h => hzero (beq_iff_eq.2 h)
    rw [if_neg hzero]
    refine ⟨_, rfl, hsent3, ⟨_, (hat3 _).trans hself, rfl, hsubs⟩, fun j hj => (hat3 j).trans (hother j hj), fun hnone => ?_, fun _ => ⟨?_, isRaised_raiseRound _ _ _ (by decide)⟩, ?_⟩
    · exact absurd (hlost0.2 hnone) hpos.ne'
    · show s.host.pushDrop < s3.host.pushDrop + lost
      rw [hhost3, hdrop]
      omega
    · exact keepsBut_trans hframe (by simp +decide)

/-- Settles O39, clause by clause. -/
theorem hostReads : Obligations.HostReads :=
  ⟨readItems_carried, readSlots_carried, readMap_carried, paramRead_carried, eventList_carried, recRead_held, recRead_carried, progRead_carried, updStatus_carried, journalRead_carried, bistRead_carried, capRead_empties, opReadItems_expired, opReadItems_newest, keyEntries_unknown, opReadSlots_newest, opReadMap_entries, opParamRead_shows, opEventList_records, opRecRead_bytes, opProgRead_bytes, opUpdStatus_bit, opJournalRead_entries, opBistRead_records, frameFor_notYet, frameFor_expired, subscribe_adds, unsubscribe_ends, push_sends⟩

end Sys2Proof.Machine
end

section
/-!
PROOF. O22: a connection that takes too long fails, and contactors close in their order.
-/
namespace Sys2Proof.Machine

theorem failConnection_facts (code : Nat) {n : Nat} {s : State} (hn : n < s.disp.strs.length) :
    (failConnection code n s).dstr n = { s.dstr n with conn := 7, opening := 1, failing := true, seenAt := none, why := .reaction } ∧
      (failConnection code n s).recorder = (s.raise code n).recorder ∧ (∀ m, m ≠ n → (failConnection code n s).dstr m = s.dstr m) ∧
      keepsBut [.disp, .recorder] s (failConnection code n s) := by
  refine ⟨?_, rfl, fun m hm => ?_, by simp +decide⟩
  · rw [failConnection, State.dstr_updDisp, if_pos ⟨rfl, hn⟩]
    rfl
  · rw [failConnection, State.dstr_updDisp, if_neg fun h => hm h.1.symm]
    rfl

/-! ### A frame boundary asks for a contactor only in its step of Table 9-5 -/

/-- The dispatch of a string without a request added: the connection is as it was, or has failed or is opening. -/
structure fewerRequests (d e : DispStr) : Prop where
  neg : e.reqNeg = true → d.reqNeg = true
  pre : e.reqPre = true → d.reqPre = true
  pos : e.reqPos = true → d.reqPos = true
  conn : e.seq = d.seq ∧ e.conn = d.conn ∧ (e.wantConn = true → d.wantConn = true) ∨ 6 ≤ e.conn

theorem fewerRequests_refl (d : DispStr) : fewerRequests d d := ⟨id, id, id, .inl ⟨rfl, rfl, id⟩⟩

theorem fewerRequests_trans {d e g : DispStr} (h : fewerRequests d e) (h' : fewerRequests e g) : fewerRequests d g := by
  refine ⟨h.neg ∘ h'.neg, h.pre ∘ h'.pre, h.pos ∘ h'.pos, ?_⟩
  rcases h'.conn with ⟨hseq', hconn', hwant'⟩ | hopening
  · rcases h.conn with ⟨hseq, hconn, hwant⟩ | hopening
    · exact .inl ⟨hseq'.trans hseq, hconn'.trans hconn, hwant ∘ hwant'⟩
    · exact .inr (hconn' ▸ hopening)
  · exact .inr hopening

/-- Work on string n before its step at a frame boundary. -/
structure noRequestAdded (n : Nat) (s t : State) : Prop where
  strs : fewerRequests (s.dstr n) (t.dstr n)
  cfb : t.guard.cfb = s.guard.cfb
  volts : (t.loop n).vs = (s.loop n).vs ∧ (t.loop n).vc = (s.loop n).vc
  len : t.disp.strs.length = s.disp.strs.length

theorem noRequestAdded_refl (n : Nat) (s : State) : noRequestAdded n s s := ⟨fewerRequests_refl _, rfl, ⟨rfl, rfl⟩, rfl⟩

theorem noRequestAdded_trans {n : Nat} {s t u : State} (h : noRequestAdded n s t) (h' : noRequestAdded n t u) : noRequestAdded n s u :=
  ⟨fewerRequests_trans h.strs h'.strs, h'.cfb.trans h.cfb, ⟨h'.volts.1.trans h.volts.1, h'.volts.2.trans h.volts.2⟩, h'.len.trans h.len⟩

theorem noRequestAdded_updDisp {n : Nat} {f : DispStr → DispStr} {s : State} (hf : fewerRequests (s.dstr n) (f (s.dstr n))) : noRequestAdded n s (s.updDisp n f) := by
  refine ⟨?_, rfl, ⟨rfl, rfl⟩, length_updAt ..⟩
  rw [State.dstr_updDisp]
  split
  · exact hf
  · exact fewerRequests_refl _

theorem noRequestAdded_reqCtr {n : Nat} {f : DispStr → DispStr} {s : State} (hf : fewerRequests (s.dstr n) (f (s.dstr n))) : noRequestAdded n s (reqCtr n f s) := by
  obtain ⟨hstrs, -, -, hlen⟩ := noRequestAdded_updDisp hf
  exact ⟨hstrs, rfl, ⟨rfl, rfl⟩, hlen⟩

theorem noRequestAdded_noteFeedback (n : Nat) (s : State) : noRequestAdded n s (noteFeedback n s) := by
  refine noRequestAdded_updDisp ?_
  split
  · exact ⟨id, id, id, .inl ⟨rfl, rfl, id⟩⟩
  · exact fewerRequests_refl _

theorem noRequestAdded_permitLoss (n : Nat) (s : State) : noRequestAdded n s (permitLoss n s) := by
  unfold permitLoss
  split
  · exact noRequestAdded_refl n s
  · extract_lets s0 d s1 off held low p
    have h0 : noRequestAdded n s s0 := noRequestAdded_updDisp ⟨id, id, id, .inl ⟨rfl, rfl, id⟩⟩
    have h1 : noRequestAdded n s0 s1 := by
      simp only [s1]
      split
      · exact noRequestAdded_updDisp ⟨id, id, id, .inr (show 6 ≤ 7 by decide)⟩
      · exact noRequestAdded_refl n s0
    refine noRequestAdded_trans h0 (noRequestAdded_trans h1 ?_)
    split
    · refine noRequestAdded_reqCtr ?_
      dsimp only
      split
      · exact ⟨fun h => absurd h Bool.false_ne_true, fun h => absurd h Bool.false_ne_true, fun h => absurd h Bool.false_ne_true, .inr (le_refl 6)⟩
      · exact ⟨fun h => absurd h Bool.false_ne_true, fun h => absurd h Bool.false_ne_true, fun h => absurd h Bool.false_ne_true, .inl ⟨rfl, rfl, id⟩⟩
    · exact noRequestAdded_refl n s1

/-- A string whose connection fails, on the clock of the command. -/
theorem failConnection_at (t code : Nat) {n : Nat} {s : State} (hn : n < s.disp.strs.length) :
    (failConnection code n (s.at_ t)).dstr n = { s.dstr n with conn := 7, opening := 1, failing := true, seenAt := none, why := .reaction } ∧
      (failConnection code n (s.at_ t)).recorder = (State.raise code n (s.at_ t)).recorder ∧ (∀ m, m ≠ n → (failConnection code n (s.at_ t)).dstr m = s.dstr m) ∧
      keepsBut [.time, .disp, .recorder] s (failConnection code n (s.at_ t)) := by
  obtain ⟨hself, hrec, hother, hkeep⟩ := failConnection_facts code (s := s.at_ t) hn
  exact ⟨hself, hrec, hother, keepsBut_trans (t := s.at_ t) (by simp +decide) (keepsBut_mono hkeep (by decide))⟩

theorem exec_connectionTimeout {t : Nat} {n : Fin 4} {s u : State} (hrun : s.running = true)
    (h : (if (s.dstr n.val).conn == 1 then Host.Outcome.next (if !cfbClosed (s.at_ t) n.val 1 && fbOver (s.at_ t) n.val then failConnection 0x4029 n.val (s.at_ t) else s.at_ t)
      else if (s.dstr n.val).conn == 2 then
        match (s.dstr n.val).seenAt with
        | none => .next (if fbOver (s.at_ t) n.val then failConnection 0x4029 n.val (s.at_ t) else s.at_ t)
        | some a => .next (if a + (s.dstr n.val).seq.preTmax * 1000000 ≤ (s.at_ t).time.now && !prechargeOk (s.at_ t) n.val then failConnection 0x4028 n.val (s.at_ t) else s.at_ t)
      else if (s.dstr n.val).conn == 3 then .next (if (s.dstr n.val).seenAt.isNone && fbOver (s.at_ t) n.val then failConnection 0x4029 n.val (s.at_ t) else s.at_ t)
      else if (s.dstr n.val).conn == 4 then .next (if cfbClosed (s.at_ t) n.val 2 && fbOver (s.at_ t) n.val then failConnection 0x4029 n.val (s.at_ t) else s.at_ t)
      else if (s.dstr n.val).conn == 6 && openPending (s.at_ t) n.val && fbOver (s.at_ t) n.val then
        if (s.dstr n.val).opening == 2 || (s.dstr n.val).opening == 3 || (s.dstr n.val).opening == 9
        then .next (fbFail n.val ((s.at_ t).updDisp n.val fun d => { d with conn := 7, failing := true }))
        else .next (fbFail n.val ((s.at_ t).updDisp n.val fun d => { d with conn := 7, opening := 0, failing := true }))
      else .next (s.at_ t)) = (.next u : Host.Outcome State Fault Refusal)) : exec (.connectionTimeout t n) s = .next u := by
  show execConnectionTimeout t n s = _
  unfold execConnectionTimeout
  dsimp only
  rw [if_neg (by rw [at_running, hrun]; decide)]
  exact h

theorem connectionTimeout_fails : ∀ t (n : Fin 4) s, s.running = true → s.disp.strs.length = 4 →
    let d := s.dstr n.val
    let above := d.reqAt + d.seq.tFb * 1000000 ≤ t
    let failed (code : Nat) : Prop := Completes (.connectionTimeout t n) s fun r =>
      r.dstr n.val = { d with conn := 7, opening := 1, failing := true, seenAt := none, why := .reaction } ∧ r.recorder = (State.raise code n.val (s.at_ t)).recorder ∧
      (∀ m, m ≠ n.val → r.dstr m = s.dstr m) ∧ keepsBut [.time, .disp, .recorder] s r
    (above → d.conn = 1 → cfbClosed s n.val 1 = false → failed 0x4029) ∧
    (above → d.conn = 2 → d.seenAt = none → failed 0x4029) ∧
    (∀ a, d.conn = 2 → d.seenAt = some a → a + d.seq.preTmax * 1000000 ≤ t → prechargeOk s n.val = false → failed 0x4028) ∧
    (above → d.conn = 3 → d.seenAt = none → failed 0x4029) ∧
    (above → d.conn = 4 → cfbClosed s n.val 2 = true → failed 0x4029) ∧
    (above → d.conn = 6 → openPending s n.val = true → Completes (.connectionTimeout t n) s fun r =>
      r.dstr n.val = { d with conn := 7, failing := true, opening := if d.opening = 2 ∨ d.opening = 3 ∨ d.opening = 9 then d.opening else 0 } ∧
      r.recorder = (State.raise 0x4029 n.val (s.at_ t)).recorder ∧ (∀ m, m ≠ n.val → r.dstr m = s.dstr m) ∧ keepsBut [.time, .disp, .recorder] s r) := by
  intro t n s hrun hlen d above failed
  have hn : n.val < s.disp.strs.length := by omega
  have hover : above → fbOver (s.at_ t) n.val = true := fun h => decide_eq_true (h.trans (le_max_right _ _))
  have hfails : ∀ code, exec (.connectionTimeout t n) s = .next (failConnection code n.val (s.at_ t)) → failed code := fun code h => ⟨_, h, failConnection_at t code hn⟩
  refine ⟨fun habove hconn hopen => ?_, fun habove hconn hseen => ?_, fun a hconn hseen hdue hshort => ?_, fun habove hconn hseen => ?_, fun habove hconn hclosed => ?_, fun habove hconn hpend => ?_⟩
  · refine hfails _ (exec_connectionTimeout hrun ?_)
    rw [if_pos (by rw [hconn]; decide), if_pos (by rw [hover habove, show cfbClosed (s.at_ t) n.val 1 = false from hopen]; decide)]
  · refine hfails _ (exec_connectionTimeout hrun ?_)
    rw [if_neg (by rw [hconn]; decide), if_pos (by rw [hconn]; decide), hseen]
    dsimp only
    rw [if_pos (hover habove)]
  · refine hfails _ (exec_connectionTimeout hrun ?_)
    rw [if_neg (by rw [hconn]; decide), if_pos (by rw [hconn]; decide), hseen]
    dsimp only
    rw [if_pos]
    rw [show prechargeOk (s.at_ t) n.val = false from hshort, Bool.not_false, Bool.and_true]
    exact decide_eq_true (hdue.trans (le_max_right _ _))
  · refine hfails _ (exec_connectionTimeout hrun ?_)
    rw [if_neg (by rw [hconn]; decide), if_neg (by rw [hconn]; decide), if_pos (by rw [hconn]; decide), if_pos (by rw [hover habove, hseen]; decide)]
  · refine hfails _ (exec_connectionTimeout hrun ?_)
    rw [if_neg (by rw [hconn]; decide), if_neg (by rw [hconn]; decide), if_neg (by rw [hconn]; decide), if_pos (by rw [hconn]; decide),
      if_pos (by rw [hover habove, show cfbClosed (s.at_ t) n.val 2 = true from hclosed]; decide)]
  · have hgo : ((s.dstr n.val).conn == 6 && openPending (s.at_ t) n.val && fbOver (s.at_ t) n.val) = true := by
      rw [hconn, hover habove, show openPending (s.at_ t) n.val = true from hpend]
      rfl
    have hstr : ∀ (f : DispStr → DispStr), (fbFail n.val ((s.at_ t).updDisp n.val f)).dstr n.val = f (s.dstr n.val) ∧ (∀ m, m ≠ n.val → (fbFail n.val ((s.at_ t).updDisp n.val f)).dstr m = s.dstr m) ∧
        keepsBut [.time, .disp, .recorder] s (fbFail n.val ((s.at_ t).updDisp n.val f)) := by
      intro f
      refine ⟨?_, fun m hm => ?_, by simp +decide⟩
      · exact (State.dstr_updDisp n.val n.val f (s.at_ t)).trans (if_pos ⟨rfl, hn⟩)
      · exact (State.dstr_updDisp n.val m f (s.at_ t)).trans (if_neg fun h => hm h.1.symm)
    by_cases hgoes : d.opening = 2 ∨ d.opening = 3 ∨ d.opening = 9
    · obtain ⟨hself, hother, hkeep⟩ := hstr fun d => { d with conn := 7, failing := true }
      refine ⟨fbFail n.val ((s.at_ t).updDisp n.val fun d => { d with conn := 7, failing := true }), exec_connectionTimeout hrun ?_, ?_, rfl, hother, hkeep⟩
      · rw [if_neg (by rw [hconn]; decide), if_neg (by rw [hconn]; decide), if_neg (by rw [hconn]; decide), if_neg (by rw [hconn]; decide), if_pos hgo, if_pos (by simpa [or_assoc] using hgoes)]
      · rw [hself, if_pos hgoes]
    · obtain ⟨hself, hother, hkeep⟩ := hstr fun d => { d with conn := 7, opening := 0, failing := true }
      refine ⟨fbFail n.val ((s.at_ t).updDisp n.val fun d => { d with conn := 7, opening := 0, failing := true }), exec_connectionTimeout hrun ?_, ?_, rfl, hother, hkeep⟩
      · rw [if_neg (by rw [hconn]; decide), if_neg (by rw [hconn]; decide), if_neg (by rw [hconn]; decide), if_neg (by rw [hconn]; decide), if_pos hgo, if_neg (by simpa [or_assoc] using hgoes)]
      · rw [hself, if_neg hgoes]

/-- What a step at a frame boundary may newly request closed, seen from the state as the step finds it. -/
structure requestsInOrder (n : Nat) (s : State) (d : DispStr) : Prop where
  neg : (s.dstr n).reqNeg = false → d.reqNeg = true → (s.dstr n).conn = 0 ∧ (s.dstr n).wantConn = true ∧ d.conn = 1
  pre : (s.dstr n).reqPre = false → d.reqPre = true → (s.dstr n).conn = 1 ∧ cfbClosed s n 1 = true ∧ d.conn = 2
  pos : (s.dstr n).reqPos = false → d.reqPos = true → (s.dstr n).conn = 2 ∧ prechargeOk s n = true ∧ d.conn = 3

/-- No request is added. -/
structure requestsFall (d e : DispStr) : Prop where
  neg : e.reqNeg = true → d.reqNeg = true
  pre : e.reqPre = true → d.reqPre = true
  pos : e.reqPos = true → d.reqPos = true

theorem requestsFall_refl (d : DispStr) : requestsFall d d := ⟨id, id, id⟩

theorem requestsFall_trans {d e g : DispStr} (h : requestsFall d e) (h' : requestsFall e g) : requestsFall d g := ⟨h.neg ∘ h'.neg, h.pre ∘ h'.pre, h.pos ∘ h'.pos⟩

theorem requestsFall_updDisp {n : Nat} {f : DispStr → DispStr} {s : State} (hf : ∀ d, requestsFall d (f d)) : requestsFall (s.dstr n) ((s.updDisp n f).dstr n) := by
  rw [State.dstr_updDisp]
  split
  · exact hf _
  · exact requestsFall_refl _

theorem requestsFall_setOpen (n : Nat) (s : State) : requestsFall (s.dstr n) ((setOpen n s).dstr n) := by
  rw [dstr_setOpen]
  exact requestsFall_updDisp fun d => ⟨id, id, id⟩

theorem requestsInOrder_of_fall {n : Nat} {s : State} {d : DispStr} (h : requestsFall (s.dstr n) d) : requestsInOrder n s d :=
  ⟨fun h0 h1 => absurd (h.neg h1) (by rw [h0]; decide), fun h0 h1 => absurd (h.pre h1) (by rw [h0]; decide), fun h0 h1 => absurd (h.pos h1) (by rw [h0]; decide)⟩

theorem no_request {b : Bool} : (false = true) → b = true := fun h => absurd h Bool.false_ne_true

/-- The opening of a sequence at a frame boundary (R284, R287, R612). -/
def openingStep (n now : Nat) (s : State) : State :=
  match (s.dstr n).opening with
  | 1 => reqCtr n (fun d => { d with opening := 2, reqPre := false, reqAt := now, seenAt := none }) s
  | 2 => if openOrOver s n 2 then reqCtr n (fun d => { d with opening := 3, reqPos := false, reqAt := now, seenAt := none }) s else s
  | 3 => if openOrOver s n 0 then reqCtr n (fun d => { d with opening := 9, reqNeg := false, reqAt := now, seenAt := none }) s else s
  | 9 => if allOpen s n && !(s.dstr n).failing then setOpen n s else if openOrOver s n 1 && (s.dstr n).failing then s.updDisp n fun d => { d with opening := 0 } else s
  | 4 => if (s.loop n).lowAll && (s.dstr n).discAt + frameNs ≤ now then s.updDisp n fun d => { d with opening := 5 } else s
  | 5 => if !gateEn s n then reqCtr n (fun d => { d with opening := 6, reqPos := false, reqAt := now, seenAt := none }) s else s
  | 6 => if !cfbClosed s n 0 then reqCtr n (fun d => { d with opening := 7, reqNeg := false, reqAt := now, seenAt := none }) s else s
  | 7 => if !cfbClosed s n 0 && !cfbClosed s n 1 then (setOpen n s).raise 0x402A n else s
  | 8 => if allOpen s n then (setOpen n s).raise 0x402A n else s
  | _ => s

/-- The step of Table 9-5, on a string whose feedback has been noted. -/
def closingStep (n now : Nat) (s : State) : State :=
  let d := s.dstr n
  let ask (f : DispStr → DispStr) : State := reqCtr n (fun d => { f d with reqAt := now, seenAt := none }) s
  if d.conn == 0 then if d.wantConn then ask (fun d => { d with conn := 1, wantConn := false, reqNeg := true, seq := seqNow s }) else s
  else if d.conn == 1 then if cfbClosed s n 1 then ask (fun d => { d with conn := 2, reqPre := true }) else s
  else if d.conn == 2 then if d.seenAt.isSome && prechargeOk s n then ask (fun d => { d with conn := 3, reqPos := true }) else s
  else if d.conn == 3 then
    match d.seenAt with
    | some a => if a + d.seq.preOverlap * 1000000 ≤ now then ask (fun d => { d with conn := 4, reqPre := false }) else s
    | none => s
  else if d.conn == 4 then if !cfbClosed s n 2 then s.updDisp n fun d => { d with conn := 5, seenAt := some now } else s
  else if d.conn == 5 then
    if d.seenAt.isSome && s.reg.act.enabled.getD n false then (s.updDisp n fun d => { d with seenAt := none }).raise 0x4027 n else s
  else openingStep n now (if d.conn == 6 && (d.opening == 2 || d.opening == 3 || d.opening == 9) && openPending s n && fbOver s n
    then fbFail n (s.updDisp n fun d => { d with conn := 7, failing := true }) else s)

theorem connectStep_eq (n : Nat) (s : State) : connectStep n s =
    (let u := noteFeedback n (permitLoss n s)
     if (u.dstr n).wantDisc && 1 ≤ (u.dstr n).conn && (u.dstr n).conn ≤ 4 then
       reqCtr n (fun d => { d with conn := 6, opening := 2, failing := false, wantDisc := false, reqPre := false, reqAt := s.frameStart, seenAt := none }) u
     else if (u.dstr n).wantDisc then beginDisconnect n u else closingStep n s.frameStart u) := rfl

theorem requestsFall_opening (n now : Nat) (s : State) : requestsFall (s.dstr n) ((openingStep n now s).dstr n) := by
  unfold openingStep
  split
  · exact requestsFall_updDisp fun d => ⟨id, no_request, id⟩
  · split
    · exact requestsFall_updDisp fun d => ⟨id, id, no_request⟩
    · exact requestsFall_refl _
  · split
    · exact requestsFall_updDisp fun d => ⟨no_request, id, id⟩
    · exact requestsFall_refl _
  · split
    · exact requestsFall_setOpen n s
    · split
      · exact requestsFall_updDisp fun d => ⟨id, id, id⟩
      · exact requestsFall_refl _
  · split
    · exact requestsFall_updDisp fun d => ⟨id, id, id⟩
    · exact requestsFall_refl _
  · split
    · exact requestsFall_updDisp fun d => ⟨id, id, no_request⟩
    · exact requestsFall_refl _
  · split
    · exact requestsFall_updDisp fun d => ⟨no_request, id, id⟩
    · exact requestsFall_refl _
  · split
    · exact requestsFall_setOpen n s
    · exact requestsFall_refl _
  · split
    · exact requestsFall_setOpen n s
    · exact requestsFall_refl _
  · exact requestsFall_refl _

/-- A step that asks for a contactor, as the step finds the string. -/
theorem requestsInOrder_ask {n : Nat} {f : DispStr → DispStr} {s : State} (hn : n < s.disp.strs.length) (h : requestsInOrder n s (f (s.dstr n))) :
    requestsInOrder n s ((reqCtr n f s).dstr n) := by
  rw [dstr_reqCtr, State.dstr_updDisp, if_pos ⟨rfl, hn⟩]
  exact h

theorem closingStep_inOrder {n : Nat} (now : Nat) {u : State} (hu : n < u.disp.strs.length) : requestsInOrder n u ((closingStep n now u).dstr n) := by
  unfold closingStep
  dsimp only
  split
  next hconn =>
    split
    next hwant => exact requestsInOrder_ask hu ⟨fun _ _ => ⟨beq_iff_eq.1 hconn, hwant, rfl⟩, fun h0 h1 => absurd h1 (by rw [h0]; decide), fun h0 h1 => absurd h1 (by rw [h0]; decide)⟩
    next => exact requestsInOrder_of_fall (requestsFall_refl _)
  split
  next hconn =>
    split
    next hclosed => exact requestsInOrder_ask hu ⟨fun h0 h1 => absurd h1 (by rw [h0]; decide), fun _ _ => ⟨beq_iff_eq.1 hconn, hclosed, rfl⟩, fun h0 h1 => absurd h1 (by rw [h0]; decide)⟩
    next => exact requestsInOrder_of_fall (requestsFall_refl _)
  split
  next hconn =>
    split
    next hpre =>
      obtain ⟨-, hok⟩ := Bool.and_eq_true_iff.1 hpre
      exact requestsInOrder_ask hu ⟨fun h0 h1 => absurd h1 (by rw [h0]; decide), fun h0 h1 => absurd h1 (by rw [h0]; decide), fun _ _ => ⟨beq_iff_eq.1 hconn, hok, rfl⟩⟩
    next => exact requestsInOrder_of_fall (requestsFall_refl _)
  split
  · split
    · split
      · exact requestsInOrder_ask hu (requestsInOrder_of_fall ⟨id, no_request, id⟩)
      · exact requestsInOrder_of_fall (requestsFall_refl _)
    · exact requestsInOrder_of_fall (requestsFall_refl _)
  split
  · split
    · exact requestsInOrder_of_fall (requestsFall_updDisp fun d => ⟨id, id, id⟩)
    · exact requestsInOrder_of_fall (requestsFall_refl _)
  split
  · split
    · exact requestsInOrder_of_fall (requestsFall_updDisp fun d => ⟨id, id, id⟩)
    · exact requestsInOrder_of_fall (requestsFall_refl _)
  · refine requestsInOrder_of_fall (requestsFall_trans ?_ (requestsFall_opening n _ _))
    split
    · exact requestsFall_updDisp fun d => ⟨id, id, id⟩
    · exact requestsFall_refl _

theorem connectStep_inOrder {n : Nat} {s : State} (hn : n < s.disp.strs.length) :
    requestsInOrder n (noteFeedback n (permitLoss n s)) ((connectStep n s).dstr n) := by
  have hlen := (noRequestAdded_trans (noRequestAdded_permitLoss n s) (noRequestAdded_noteFeedback n _)).len
  rw [connectStep_eq]
  dsimp only
  generalize noteFeedback n (permitLoss n s) = u at *
  have hu : n < u.disp.strs.length := by omega
  split
  · exact requestsInOrder_ask hu (requestsInOrder_of_fall ⟨id, no_request, id⟩)
  split
  · refine requestsInOrder_of_fall (requestsFall_updDisp fun d => ?_)
    split <;> exact ⟨id, id, id⟩
  · exact closingStep_inOrder _ hu

theorem connectStep_requests : ∀ s n, n < 4 → s.disp.strs.length = 4 →
    ((s.dstr n).reqNeg = false → ((connectStep n s).dstr n).reqNeg = true → (s.dstr n).conn = 0 ∧ (s.dstr n).wantConn = true ∧ ((connectStep n s).dstr n).conn = 1) ∧
    ((s.dstr n).reqPre = false → ((connectStep n s).dstr n).reqPre = true → (s.dstr n).conn = 1 ∧ cfbClosed s n 1 = true ∧ ((connectStep n s).dstr n).conn = 2) ∧
    ((s.dstr n).reqPos = false → ((connectStep n s).dstr n).reqPos = true → (s.dstr n).conn = 2 ∧ prechargeOk s n = true ∧ ((connectStep n s).dstr n).conn = 3) := by
  intro s n hn hlen
  have hadded := noRequestAdded_trans (noRequestAdded_permitLoss n s) (noRequestAdded_noteFeedback n (permitLoss n s))
  have hstep := connectStep_inOrder (n := n) (s := s) (by omega)
  generalize noteFeedback n (permitLoss n s) = u at *
  obtain ⟨⟨hneg, hpre, hpos, hconn⟩, hcfb, ⟨hvs, hvc⟩, -⟩ := hadded
  have hlow : ∀ {b c : Bool}, (c = true → b = true) → b = false → c = false := by
    intro b c h hb
    cases c with
    | false => rfl
    | true => exact absurd (h rfl) (by rw [hb]; decide)
  have hsame : (u.dstr n).conn < 6 → (u.dstr n).seq = (s.dstr n).seq ∧ (u.dstr n).conn = (s.dstr n).conn ∧ ((u.dstr n).wantConn = true → (s.dstr n).wantConn = true) :=
    fun hlt => hconn.resolve_right (not_le.2 hlt)
  refine ⟨fun h0 h1 => ?_, fun h0 h1 => ?_, fun h0 h1 => ?_⟩
  · obtain ⟨hc, hw, hto⟩ := hstep.neg (hlow hneg h0) h1
    obtain ⟨-, heq, hwant⟩ := hsame (by omega)
    exact ⟨heq.symm.trans hc, hwant hw, hto⟩
  · obtain ⟨hc, hclosed, hto⟩ := hstep.pre (hlow hpre h0) h1
    obtain ⟨-, heq, -⟩ := hsame (by omega)
    exact ⟨heq.symm.trans hc, by rwa [cfbClosed, hcfb] at hclosed, hto⟩
  · obtain ⟨hc, hok, hto⟩ := hstep.pos (hlow hpos h0) h1
    obtain ⟨hseq, heq, -⟩ := hsame (by omega)
    refine ⟨heq.symm.trans hc, ?_, hto⟩
    unfold prechargeOk at hok
    rwa [hvs, hvc, hseq] at hok

/-- Settles O22, clause by clause. -/
theorem connectionOrder : Obligations.ConnectionOrder :=
  ⟨connectionTimeout_fails, connectStep_requests⟩

end Sys2Proof.Machine
end

section
/-!
PROOF. O26: the output permit stage, contactor release, VGUARD, and the permit and alive lines; first the rules of the stage and of the judgement of the Guard.
-/
namespace Sys2Proof.Machine

/-! ### The stage, output by output -/

@[simp] theorem permits_stage (m n : Nat) (s : State) : permits (stage m s) n = permits s n := rfl

theorem stage_frame (m : Nat) (s : State) : keepsBut [.est, .guard] s (stage m s) := by simp +decide

theorem gateEn_stage_same {n : Nat} {s : State} (h : gateEn (stage n s) n = true) : permits s n = true := by
  simp only [gateEn, stage, noteOutputs_guard, State.modGuard_guard, noteCtr, getD_updAt] at h
  by_cases hn : n < s.guard.gate.length
  · rw [if_pos ⟨trivial, hn⟩] at h
    exact (Bool.and_eq_true_iff.1 h).1
  · rw [if_neg fun h => hn h.2, List.getD_eq_default _ _ (not_lt.1 hn)] at h
    exact absurd h Bool.false_ne_true

theorem gateEn_stage_other {m n : Nat} (h : m ≠ n) (s : State) : gateEn (stage m s) n = gateEn s n := by
  simp only [gateEn, stage, noteOutputs_guard, State.modGuard_guard, noteCtr, getD_updAt, h, false_and, if_false]

theorem gateEn_stage_eq {n : Nat} {s : State} (hv : s.pwr.vmain = true) (hn : n < s.guard.gate.length) : gateEn (stage n s) n = (permits s n && (s.loop n).gateReq) := by
  simp only [gateEn, stage, noteOutputs_guard, State.modGuard_guard, noteCtr, getD_updAt, hn, hv, and_self, if_true, Bool.not_true, Bool.false_eq_true, if_false]

/-- Output k of string n after the stage of string m, where the list holds it. -/
theorem ctrOut_stage {m n k : Nat} {s : State} (hk : k < 3) :
    ctrOut (stage m s) n k = if n = m ∧ s.pwr.vmain = true ∧ 3 * n + k < s.guard.ctr.length then (if permits s m then ctrReq s m k else ctrOut s n k && ctrReq s m k) else ctrOut s n k := by
  have hdiv : (3 * n + k) / 3 = n := by omega
  have hmod : (3 * n + k) % 3 = k := by omega
  simp only [ctrOut, stage, noteOutputs_guard, State.modGuard_guard, noteCtr, List.getD_eq_getElem?_getD, List.getElem?_mapIdx]
  cases hc : s.guard.ctr[3 * n + k]? with
  | none =>
    rw [if_neg fun h => by rw [List.getElem?_eq_none_iff] at hc; omega]
    rfl
  | some b =>
    have hlen : 3 * n + k < s.guard.ctr.length := (List.getElem?_eq_some_iff.1 hc).1
    simp only [Option.map_some, Option.getD_some, hdiv, hmod, hlen, and_true]
    cases s.pwr.vmain <;> by_cases hnm : n = m <;> simp [hnm]

theorem ctrOut_stage_other {m n k : Nat} (h : n ≠ m) (hk : k < 3) (s : State) : ctrOut (stage m s) n k = ctrOut s n k := by
  rw [ctrOut_stage hk, if_neg fun h' => h h'.1]

/-- No output turns on while a permit is withdrawn (R326). -/
theorem ctrOut_stage_on {m n k : Nat} {s : State} (hk : k < 3) (h : ctrOut (stage m s) n k = true) : ctrOut s n k = true ∨ permits s n = true := by
  rw [ctrOut_stage hk] at h
  split at h
  next hc =>
    obtain ⟨rfl, -, -⟩ := hc
    cases hp : permits s n with
    | true => exact .inr rfl
    | false =>
      rw [hp, if_neg Bool.false_ne_true] at h
      exact .inl (Bool.and_eq_true_iff.1 h).1
  next => exact .inl h

theorem permits_forEach_stage (l : List Nat) (n : Nat) (s : State) : permits (forEach l stage s) n = permits s n := by
  induction l generalizing s with
  | nil => rfl
  | cons m l ih => exact ih (stage m s)

@[simp] theorem permits_stageAll (n : Nat) (s : State) : permits (stageAll s) n = permits s n := permits_forEach_stage _ n s

/-- After the stage of all strings GATE_EN is high only under both permits (R17). -/
theorem gateEn_stageAll {n : Nat} {s : State} (hn : n < 4) (h : gateEn (stageAll s) n = true) : permits s n = true := by
  obtain ⟨u, hu, hrest⟩ := forEach_four (Q := fun s t => (gateEn t n = gateEn s n ∧ permits t n = permits s n)) (fun _ => ⟨rfl, rfl⟩)
    (fun s t u h1 h2 => ⟨h2.1.trans h1.1, h2.2.trans h1.2⟩) hn (f := stage) (fun m hm s => ⟨gateEn_stage_other hm s, rfl⟩) s
  have hgate : gateEn (stage n u) n = true := hrest.1.symm.trans h
  exact hu.2.symm.trans (gateEn_stage_same hgate)

theorem ctrOut_stageAll {n k : Nat} {s : State} (hk : k < 3) (h : ctrOut (stageAll s) n k = true) : ctrOut s n k = true ∨ permits s n = true := by
  have hlist : ∀ (l : List Nat) (s : State), ctrOut (forEach l stage s) n k = true → ctrOut s n k = true ∨ permits s n = true := by
    intro l
    induction l with
    | nil => exact fun s h => .inl h
    | cons m l ih =>
      intro s h
      rcases ih (stage m s) h with h | h
      · exact ctrOut_stage_on hk h
      · exact .inr h
  exact hlist _ s h

/-! ### The Guard's judgement -/

theorem guardEval_frame (s : State) : keepsBut [.est, .guard] s (guardEval s) := by simp +decide

/-- What the Guard judges before its stage: latches, hazards and grants. -/
theorem guardEval_eq_stageAll {s : State} (hup : guardUp s = true) : ∃ u, guardEval s = stageAll u ∧ u.guard.ctr = s.guard.ctr ∧ u.guard.gate = s.guard.gate ∧ u.guard.line = s.guard.line := by
  unfold guardEval
  rw [if_neg (by rw [hup]; decide)]
  refine ⟨_, rfl, ?_, ?_, ?_⟩
  all_goals
    rw [State.modGuard_guard]
  · exact forEach_guard_eq Guard.ctr (fun k s => by split <;> rfl) _ s
  · exact forEach_guard_eq Guard.gate (fun k s => by split <;> rfl) _ s
  · exact forEach_guard_eq Guard.line (fun k s => by split <;> rfl) _ s

/-- After the Guard's judgement GATE_EN is high only under both permits. -/
theorem gateEn_guardEval {n : Nat} {s : State} (hup : guardUp s = true) (hn : n < 4) (h : gateEn (guardEval s) n = true) : permits (guardEval s) n = true := by
  obtain ⟨u, hu, -⟩ := guardEval_eq_stageAll hup
  rw [hu] at h ⊢
  rw [permits_stageAll]
  exact gateEn_stageAll hn h

theorem gateEn_guardEval_off {n : Nat} {s : State} (hup : guardUp s = true) (hn : n < 4) (h : permits (guardEval s) n = false) : gateEn (guardEval s) n = false := by
  cases hg : gateEn (guardEval s) n with
  | false => rfl
  | true => exact absurd (gateEn_guardEval hup hn hg) (by rw [h]; decide)

theorem ctrOut_guardEval {n k : Nat} {s : State} (hk : k < 3) (h : ctrOut (guardEval s) n k = true) : ctrOut s n k = true ∨ permits (guardEval s) n = true := by
  by_cases hup : guardUp s = true
  · obtain ⟨u, hu, hctr, -, -⟩ := guardEval_eq_stageAll hup
    rw [hu] at h ⊢
    rw [permits_stageAll]
    refine (ctrOut_stageAll hk h).imp_left fun hc => ?_
    rwa [ctrOut, hctr] at hc
  · rw [guardEval, if_pos (by simpa using hup)] at h
    exact .inl h

@[simp] theorem guardEval_line (s : State) : (guardEval s).guard.line = s.guard.line :=
  guardEval_guard_eq Guard.line (fun _ _ _ => rfl) (fun _ _ _ => rfl) (fun _ _ _ _ _ => rfl) s
@[simp] theorem guardEval_toggled (s : State) : (guardEval s).guard.toggled = s.guard.toggled :=
  guardEval_guard_eq Guard.toggled (fun _ _ _ => rfl) (fun _ _ _ => rfl) (fun _ _ _ _ _ => rfl) s
@[simp] theorem guardEval_alive (s : State) : (guardEval s).guard.alive = s.guard.alive :=
  guardEval_guard_eq Guard.alive (fun _ _ _ => rfl) (fun _ _ _ => rfl) (fun _ _ _ _ _ => rfl) s
@[simp] theorem guardEval_aliveAt (s : State) : (guardEval s).guard.aliveAt = s.guard.aliveAt :=
  guardEval_guard_eq Guard.aliveAt (fun _ _ _ => rfl) (fun _ _ _ => rfl) (fun _ _ _ _ _ => rfl) s
@[simp] theorem guardEval_scvBad (s : State) : (guardEval s).guard.scvBad = s.guard.scvBad :=
  guardEval_guard_eq Guard.scvBad (fun _ _ _ => rfl) (fun _ _ _ => rfl) (fun _ _ _ _ _ => rfl) s
@[simp] theorem guardEval_chans (s : State) : (guardEval s).guard.chans = s.guard.chans :=
  guardEval_guard_eq Guard.chans (fun _ _ _ => rfl) (fun _ _ _ => rfl) (fun _ _ _ _ _ => rfl) s
@[simp] theorem guardEval_heartbeat (s : State) : (guardEval s).guard.heartbeat = s.guard.heartbeat :=
  guardEval_guard_eq Guard.heartbeat (fun _ _ _ => rfl) (fun _ _ _ => rfl) (fun _ _ _ _ _ => rfl) s
@[simp] theorem guardEval_hbAt (s : State) : (guardEval s).guard.hbAt = s.guard.hbAt :=
  guardEval_guard_eq Guard.hbAt (fun _ _ _ => rfl) (fun _ _ _ => rfl) (fun _ _ _ _ _ => rfl) s
@[simp] theorem guardEval_tripA (s : State) : (guardEval s).guard.tripA = s.guard.tripA :=
  guardEval_guard_eq Guard.tripA (fun _ _ _ => rfl) (fun _ _ _ => rfl) (fun _ _ _ _ _ => rfl) s
@[simp] theorem guardEval_tripB (s : State) : (guardEval s).guard.tripB = s.guard.tripB :=
  guardEval_guard_eq Guard.tripB (fun _ _ _ => rfl) (fun _ _ _ => rfl) (fun _ _ _ _ _ => rfl) s
@[simp] theorem guardEval_tripDisc (s : State) : (guardEval s).guard.tripDisc = s.guard.tripDisc :=
  guardEval_guard_eq Guard.tripDisc (fun _ _ _ => rfl) (fun _ _ _ => rfl) (fun _ _ _ _ _ => rfl) s
@[simp] theorem guardEval_floops (s : State) : (guardEval s).guard.floops = s.guard.floops :=
  guardEval_guard_eq Guard.floops (fun _ _ _ => rfl) (fun _ _ _ => rfl) (fun _ _ _ _ _ => rfl) s
@[simp] theorem guardEval_cfb (s : State) : (guardEval s).guard.cfb = s.guard.cfb :=
  guardEval_guard_eq Guard.cfb (fun _ _ _ => rfl) (fun _ _ _ => rfl) (fun _ _ _ _ _ => rfl) s
@[simp] theorem guardEval_weld (s : State) : (guardEval s).guard.weld = s.guard.weld :=
  guardEval_guard_eq Guard.weld (fun _ _ _ => rfl) (fun _ _ _ => rfl) (fun _ _ _ _ _ => rfl) s

/-- A Guard command of a Guard that runs, judged afterwards. -/
theorem guardDo_eq {t : Nat} {s : State} (hup : guardUp s = true) (f : State → State) : guardDo t f s = guardEval (f (s.at_ t)) := if_pos hup

/-- The frame of a Guard command of a Guard that runs. -/
theorem guardEval_at_frame {ps : List Piece} {t : Nat} {s u : State} (hu : keepsBut ps (s.at_ t) u) : keepsBut ([.time, .est, .guard] ++ ps) s (guardEval u) :=
  keepsBut_trans (t := s.at_ t) (keepsBut_mono (ps := [.time]) (by simp +decide) (by simp))
    (keepsBut_trans (keepsBut_mono hu (List.subset_append_right _ _)) (keepsBut_mono (guardEval_frame u) (by simp)))

theorem guardUp_of_keepsBut {ps : List Piece} {s t : State} (h : keepsBut ps s t) (hb : Piece.boot ∉ ps) (hp : Piece.pwr ∉ ps) : guardUp t = guardUp s := by
  have hboot : t.boot = s.boot := h .boot hb
  have hpwr : t.pwr = s.pwr := h .pwr hp
  simp only [guardUp, hboot, hpwr]

theorem getD_mapIdx {α β : Type} (f : Nat → α → β) {l : List α} {i : Nat} (d : α) (d' : β) (h : i < l.length) : (l.mapIdx f).getD i d' = f i (l.getD i d) := by
  rw [List.getD_eq_getElem _ _ (by simpa using h), List.getElem_mapIdx, List.getD_eq_getElem _ _ h]

theorem permitWithdrawn_follows : ∀ t (n : Fin 4) s, s.pwr.vmain = true → s.guard.gate.length = 4 → s.guard.ctr.length = 12 →
    Completes (.permitWithdrawn t n) s fun r =>
      gateEn r n.val = (permits s n.val && (s.loop n.val).gateReq) ∧
      (∀ k, k < 3 → ctrOut r n.val k = (if permits s n.val then ctrReq s n.val k else ctrOut s n.val k && ctrReq s n.val k)) ∧
      (∀ m k, m ≠ n.val → k < 3 → gateEn r m = gateEn s m ∧ ctrOut r m k = ctrOut s m k) ∧ keepsBut [.time, .est, .guard] s r := by
  intro t n s hv hg hc
  refine ⟨stage n.val (s.at_ t), rfl, gateEn_stage_eq (s := s.at_ t) hv (show n.val < s.guard.gate.length by omega), fun k hk => ?_, fun m k hm hk => ⟨?_, ?_⟩, by simp +decide⟩
  · rw [ctrOut_stage hk, if_pos ⟨rfl, hv, show 3 * n.val + k < s.guard.ctr.length by omega⟩]
    rfl
  · exact gateEn_stage_other (Ne.symm hm) _
  · exact ctrOut_stage_other hm hk _

theorem contactorRelease_releases : ∀ t (n : Fin 4) g s, s.guard.gateLowAt.getD n.val none = some g → guardUp s = true →
    (g + 20000000 ≤ t ∨ ∃ a, s.guard.lowSince.getD n.val none = some a ∧ max a g + 200000 ≤ t) →
    Completes (.contactorRelease t n) s fun r => (permits r n.val = false → ∀ k, k < 3 → ctrOut r n.val k = false) ∧ keepsBut [.time, .est, .guard, .recorder] s r := by
  intro t n g s hg hup hdue
  have hg' : (s.at_ t).guard.gateLowAt.getD n.val none = some g := hg
  have hexec : exec (.contactorRelease t n) s = execContactorRelease t n s := rfl
  rw [Completes, hexec]
  unfold execContactorRelease
  dsimp only
  rw [hg']
  dsimp only
  have hgo : (!(match (s.at_ t).guard.lowSince.getD n.val none with | some a => decide (max a g + 200000 ≤ (s.at_ t).time.now) | none => false) &&
      !decide (g + 20000000 ≤ (s.at_ t).time.now)) = false := by
    rcases hdue with hlate | ⟨a, ha, hlow⟩
    · rw [decide_eq_true (show g + 20000000 ≤ (s.at_ t).time.now from hlate.trans (le_max_right _ _)), Bool.not_true, Bool.and_false]
    · rw [show (s.at_ t).guard.lowSince.getD n.val none = some a from ha]
      dsimp only
      rw [decide_eq_true (show max a g + 200000 ≤ (s.at_ t).time.now from hlow.trans (le_max_right _ _))]
      rfl
  rw [if_neg (by exact fun h => absurd (hgo.symm.trans h) Bool.false_ne_true)]
  refine ⟨_, rfl, ?_⟩
  generalize hs1 : ((s.at_ t).modGuard fun x => noteCtr (s.at_ t).time.now { x with
    ctr := x.ctr.mapIdx fun i b => if i / 3 == n.val then false else b, gateLowAt := updAt x.gateLowAt n.val fun _ => none }) = s1
  have hframe1 : keepsBut [.guard] (s.at_ t) s1 := by
    subst hs1
    simp +decide
  have hoff : ∀ k, k < 3 → ctrOut s1 n.val k = false := by
    intro k hk
    subst hs1
    show (s.guard.ctr.mapIdx _).getD (3 * n.val + k) false = false
    have hdiv : (3 * n.val + k) / 3 = n.val := by omega
    rw [List.getD_eq_getElem?_getD, List.getElem?_mapIdx]
    cases s.guard.ctr[3 * n.val + k]? with
    | none => rfl
    | some b => exact if_pos (beq_iff_eq.2 hdiv)
  have hraise : ∀ c : Bool, keepsBut [.est, .guard, .recorder] (s.at_ t) (if c then gRaise 0x5011 n.val (noteOutputs n.val s1) else noteOutputs n.val s1) ∧
      (if c then gRaise 0x5011 n.val (noteOutputs n.val s1) else noteOutputs n.val s1).guard = s1.guard := by
    intro c
    have hnote : keepsBut [.est] s1 (noteOutputs n.val s1) := by simp +decide
    have hto : keepsBut [.est, .guard, .recorder] (s.at_ t) (noteOutputs n.val s1) := keepsBut_trans (keepsBut_mono hframe1 (by decide)) (keepsBut_mono hnote (by decide))
    cases c with
    | false => exact ⟨hto, rfl⟩
    | true =>
      have hg' : keepsBut [.recorder] (noteOutputs n.val s1) (gRaise 0x5011 n.val (noteOutputs n.val s1)) := by simp +decide
      exact ⟨keepsBut_trans hto (keepsBut_mono hg' (by decide)), hg' .guard (by decide)⟩
  refine ⟨fun hp k hk => ?_, ?_⟩
  · cases hon : ctrOut (guardEval _) n.val k with
    | false => rfl
    | true =>
      rcases ctrOut_guardEval hk hon with h | h
      · rw [ctrOut, (hraise _).2] at h
        exact absurd ((hoff k hk).symm.trans h) Bool.false_ne_true
      · exact absurd (hp.symm.trans h) Bool.false_ne_true
  · exact keepsBut_mono (guardEval_at_frame (hraise _).1) (by decide)

theorem vguardLoss_off : ∀ t s, Completes (.vguardLoss t) s fun r =>
    (∀ n k, gateEn r n = false ∧ ctrOut r n k = false) ∧ (∀ k, (r.guard.latch.getD k {}).on = false) ∧ r.guard.cfb = s.guard.cfb ∧ r.pwr.vguard = false ∧
    { r.pwr with vguard := s.pwr.vguard } = s.pwr ∧ keepsBut [.time, .guard, .pwr] s r := by
  intro t s
  have hoff : ∀ (l : List Bool) (i : Nat), (∀ b ∈ l, b = false) → l.getD i false = false := by
    intro l i hl
    by_cases hi : i < l.length
    · rw [List.getD_eq_getElem _ _ hi]
      exact hl _ (List.getElem_mem hi)
    · exact List.getD_eq_default _ _ (not_lt.1 hi)
  refine ⟨outputsOff (((s.at_ t).modPwr fun p => { p with vguard := false }).modGuard fun _ => { ({} : Guard) with cfb := s.guard.cfb }), rfl, fun n k => ⟨?_, ?_⟩, fun k => ?_, rfl, rfl, rfl, by simp +decide⟩
  · exact hoff [false, false, false, false] n (by decide)
  · exact hoff (List.replicate 12 false) _ (by decide)
  · show ((List.replicate 5 ({} : GLatch)).getD k {}).on = false
    by_cases hk : k < 5
    · rw [List.getD_eq_getElem _ _ (by simpa using hk), List.getElem_replicate]
    · rw [List.getD_eq_default _ _ (by simpa using hk)]

theorem aliveToggle_renews : ∀ t s, s.up = true → s.core.aliveOn = true → guardUp s = true → s.guard.line.length = 4 → s.guard.toggled.length = 4 →
    Completes (.aliveToggle t) s fun r =>
      r.guard.alive = true ∧ r.guard.aliveAt = max s.time.now t ∧
      (∀ n, n < 4 → s.core.permit.getD n false = true → r.guard.line.getD n false = true ∧ r.guard.toggled.getD n 0 = max s.time.now t) ∧
      (∀ n, n < 4 → s.core.permit.getD n false = false → r.guard.line.getD n false = s.guard.line.getD n false ∧ r.guard.toggled.getD n 0 = s.guard.toggled.getD n 0) ∧
      keepsBut [.time, .est, .guard] s r := by
  intro t s hup hon hg hl ht
  have hexec : exec (.aliveToggle t) s = .next (guardDo t (fun s => s.modGuard fun g => { g with
      alive := true, aliveAt := s.time.now
      line := g.line.mapIdx fun n b => b || s.core.permit.getD n false
      toggled := g.toggled.mapIdx fun n u => if s.core.permit.getD n false then s.time.now else u }) (s.at_ t)) := by
    show execAliveToggle t s = _
    rw [execAliveToggle, if_neg (by rw [at_up, hup, show (s.at_ t).core.aliveOn = true from hon]; decide)]
  rw [guardDo_eq (s := s.at_ t) hg] at hexec
  have hnow : ((s.at_ t).at_ t).time.now = max s.time.now t := by simp
  refine ⟨_, hexec, ?_, ?_, fun n hn hp => ⟨?_, ?_⟩, fun n hn hp => ⟨?_, ?_⟩, ?_⟩
  · rw [guardEval_alive]
    rfl
  · rw [guardEval_aliveAt]
    exact hnow
  · rw [guardEval_line]
    refine (getD_mapIdx _ false false (show n < s.guard.line.length by omega)).trans ?_
    rw [show ((s.at_ t).at_ t).core.permit.getD n false = true from hp, Bool.or_true]
  · rw [guardEval_toggled]
    refine (getD_mapIdx _ 0 0 (show n < s.guard.toggled.length by omega)).trans ?_
    rw [show ((s.at_ t).at_ t).core.permit.getD n false = true from hp, if_pos rfl, hnow]
  · rw [guardEval_line]
    refine (getD_mapIdx _ false false (show n < s.guard.line.length by omega)).trans ?_
    rw [show ((s.at_ t).at_ t).core.permit.getD n false = false from hp, Bool.or_false]
  · rw [guardEval_toggled]
    refine (getD_mapIdx _ 0 0 (show n < s.guard.toggled.length by omega)).trans ?_
    rw [show ((s.at_ t).at_ t).core.permit.getD n false = false from hp, if_neg Bool.false_ne_true]
  · simp +decide

theorem getD_mapIdx_of_default {α : Type} (f : Nat → α → α) (l : List α) {i : Nat} {d : α} (h : f i d = d) : (l.mapIdx f).getD i d = f i (l.getD i d) := by
  by_cases hi : i < l.length
  · exact getD_mapIdx f d d hi
  · rw [List.getD_eq_default _ _ (by simpa using hi), List.getD_eq_default _ _ (not_lt.1 hi), h]

/-- The lines after their last toggle has passed. -/
def lapsed (s : State) : State := s.modGuard fun g => { g with
  line := g.line.mapIdx fun n b => b && decide (s.time.now < g.toggled.getD n 0 + 60000), alive := g.alive && !(s.guard.alive && decide (s.guard.aliveAt + 100000 ≤ s.time.now)) }

theorem permitLapse_lapses : ∀ t s, guardUp s = true →
    Completes (.permitLapse t) s fun r =>
      (∀ n, n < 4 → s.guard.toggled.getD n 0 + 60000 ≤ t → r.guard.line.getD n false = false ∧ gateEn r n = false) ∧
      (∀ n, max s.time.now t < s.guard.toggled.getD n 0 + 60000 → r.guard.line.getD n false = s.guard.line.getD n false) ∧
      (s.guard.aliveAt + 100000 ≤ t → r.guard.alive = false) ∧ keepsBut [.time, .est, .guard, .core, .recorder] s r := by
  intro t s hup
  let v := s.at_ t
  let w := if s.guard.alive && decide (s.guard.aliveAt + 100000 ≤ v.time.now) && (lapsed v).guard.started && (lapsed v).up then partFault 0 (lapsed v) else lapsed v
  have hexec : exec (.permitLapse t) s = .next (guardEval w) := congrArg Host.Outcome.next (guardDo_eq hup _)
  have hw : keepsBut [.core, .recorder] (lapsed v) w := by
    simp only [w]
    split
    · simp +decide
    · exact keepsBut_refl _ _
  have hguard : w.guard = (lapsed v).guard := hw .guard (by decide)
  have hlap : keepsBut [.guard] v (lapsed v) := by simp +decide [lapsed]
  have hupw : guardUp w = true := ((guardUp_of_keepsBut hw (by decide) (by decide)).trans (guardUp_of_keepsBut hlap (by decide) (by decide))).trans hup
  have hline : ∀ n, (guardEval w).guard.line.getD n false = (s.guard.line.getD n false && decide (max s.time.now t < s.guard.toggled.getD n 0 + 60000)) := by
    intro n
    rw [guardEval_line, hguard]
    exact getD_mapIdx_of_default _ _ (Bool.false_and _)
  clear_value w
  refine ⟨_, hexec, fun n hn hlate => ?_, fun n hsoon => ?_, fun hlate => ?_, ?_⟩
  · have hoff : (guardEval w).guard.line.getD n false = false := by
      rw [hline, decide_eq_false (by omega), Bool.and_false]
    exact ⟨hoff, gateEn_guardEval_off hupw hn (by rw [permits, hoff, Bool.and_false])⟩
  · rw [hline, decide_eq_true hsoon, Bool.and_true]
  · rw [guardEval_alive, hguard]
    show (s.guard.alive && !(s.guard.alive && decide (s.guard.aliveAt + 100000 ≤ max s.time.now t))) = false
    rw [decide_eq_true (hlate.trans (le_max_right _ _)), Bool.and_true, Bool.and_not_self]
  · exact keepsBut_mono (guardEval_at_frame (keepsBut_trans (keepsBut_mono (qs := [.guard, .core, .recorder]) hlap (by decide)) (keepsBut_mono hw (by decide)))) (by decide)

/-- The Guard's SCV compared again (R316). -/
def scvCompared (intact : Bool) (s : State) : State := s.modGuard fun g => { g with scvBad := g.params.isSome && !intact }

theorem guardScvRecompute_faults : ∀ t s, guardUp s = true → s.guard.params.isSome = true →
    (Completes (.guardScvRecompute t false) s fun r =>
      r.guard.scvBad = true ∧ r.core.faults.getLsbD 1 = true ∧ r.isRaised 0x500D 0 = true ∧ keepsBut [.time, .est, .guard, .core, .recorder] s r) ∧
    Completes (.guardScvRecompute t true) s fun r => r.guard.scvBad = false ∧ keepsBut [.time, .est, .guard] s r := by
  intro t s hup hset
  have hexec : ∀ intact, exec (.guardScvRecompute t intact) s =
      .next (guardEval (if (scvCompared intact (s.at_ t)).guard.scvBad then partFault 1 (scvCompared intact (s.at_ t)) else scvCompared intact (s.at_ t))) :=
    fun intact => congrArg Host.Outcome.next (guardDo_eq hup _)
  have hkeep : ∀ intact, keepsBut [.guard] (s.at_ t) (scvCompared intact (s.at_ t)) := fun intact => by simp +decide [scvCompared]
  refine ⟨⟨_, hexec false, ?_⟩, ⟨_, hexec true, ?_⟩⟩
  · have hbad : (scvCompared false (s.at_ t)).guard.scvBad = true := by
      show (s.guard.params.isSome && !false) = true
      rw [hset]
      rfl
    rw [if_pos hbad]
    have hk := hkeep false
    generalize scvCompared false (s.at_ t) = u at *
    have hp : keepsBut [.core, .recorder] u (partFault 1 u) := by simp +decide
    have hg : (partFault 1 u).guard = u.guard := hp .guard (by decide)
    have he := guardEval_frame (partFault 1 u)
    refine ⟨by rw [guardEval_scvBad, hg, hbad], ?_, ?_, ?_⟩
    · have hcore : (guardEval (partFault 1 u)).core = (partFault 1 u).core := he .core (by decide)
      rw [hcore, partFault, stand_core]
      show (u.core.faults ||| BitVec.ofNat 4 (2 ^ 1)).getLsbD 1 = true
      rw [BitVec.getLsbD_or]
      exact Bool.or_true _
    · have hrec : (guardEval (partFault 1 u)).recorder = (partFault 1 u).recorder := he .recorder (by decide)
      rw [State.isRaised, hrec]
      exact isRaised_stand_true _ _ _ (by decide)
    · exact keepsBut_mono (guardEval_at_frame (keepsBut_trans (keepsBut_mono (qs := [.guard, .core, .recorder]) hk (by decide)) (keepsBut_mono hp (by decide)))) (by decide)
  · have hok : (scvCompared true (s.at_ t)).guard.scvBad = false := by
      show (s.guard.params.isSome && !true) = false
      exact Bool.and_false _
    rw [if_neg (by rw [hok]; decide)]
    exact ⟨by rw [guardEval_scvBad, hok], keepsBut_mono (guardEval_at_frame (hkeep true)) (by decide)⟩

/-- Settles O26, clause by clause. -/
theorem permitStage : Obligations.PermitStage :=
  ⟨permitWithdrawn_follows, contactorRelease_releases, vguardLoss_off, aliveToggle_renews, permitLapse_lapses, guardScvRecompute_faults⟩

end Sys2Proof.Machine
end

section
/-!
PROOF. O27: values and means of the Guard, and the trips of overcurrent and of the trip inputs.
-/
namespace Sys2Proof.Machine

/-! ### Bits of a cause bitmap -/

theorem sf_eq_twoPow (k : Nat) : sf k = BitVec.twoPow 32 (k - 1) := by
  exact BitVec.eq_of_toNat_eq (by rw [sf, BitVec.toNat_ofNat, BitVec.toNat_twoPow])

theorem and_sf_iff {k : Nat} (hk : k - 1 < 32) (x : BitVec 32) : x &&& sf k = sf k ↔ x.getLsbD (k - 1) = true := by
  rw [sf_eq_twoPow, BitVec.and_twoPow]
  split
  next h => exact iff_of_true rfl h
  next h =>
    refine iff_of_false (fun h0 => ?_) h
    have hbit := congrArg (fun y => BitVec.getLsbD y (k - 1)) h0
    simp [hk] at hbit

theorem getLsbD_of_and_sf {k : Nat} (hk : k - 1 < 32) {x : BitVec 32} (h : x &&& sf k = 0) : x.getLsbD (k - 1) = false := by
  cases hb : x.getLsbD (k - 1) with
  | false => rfl
  | true =>
    have hsf := (and_sf_iff hk x).2 hb
    rw [h] at hsf
    have hbit := congrArg (fun y => BitVec.getLsbD y (k - 1)) hsf
    simp [sf_eq_twoPow, hk] at hbit

theorem getLsbD_sfIf (k i : Nat) (b : Bool) : (sfIf k b).getLsbD i = (b && (sf k).getLsbD i) := by
  cases b
  · exact BitVec.getLsbD_zero
  · rfl

/-! ### A hazard that begins -/

theorem setGLatch_on {k : Nat} (c : BitVec 32) {s : State} (hk : k < s.guard.latch.length) : ((setGLatch k c s).guard.latch.getD k {}).on = true := by
  rw [setGLatch_latch, getD_updAt, if_pos ⟨rfl, hk⟩]
  split
  · assumption
  · rfl

theorem setGLatch_sticky {k m : Nat} (c : BitVec 32) {s : State} (hm : m < s.guard.sticky.length) :
    (setGLatch k c s).guard.sticky.getD m 0 = if k = m then s.guard.sticky.getD m 0 ||| c else s.guard.sticky.getD m 0 := by
  have h := getD_updAt s.guard.sticky k m (fun x => x ||| c) 0
  refine h.trans ?_
  by_cases hkm : k = m
  · rw [if_pos ⟨hkm, hm⟩, if_pos hkm]
  · rw [if_neg fun h => hkm h.1, if_neg hkm]

/-- Scope k as latched with the function whose bit is i. -/
structure latched (k i : Nat) (s : State) : Prop where
  on : (s.guard.latch.getD k {}).on = true
  cause : (s.guard.sticky.getD k 0).getLsbD i = true

theorem latched_setGLatch {k i m : Nat} (c : BitVec 32) {s : State} (hs : k < s.guard.sticky.length) (h : latched k i s) : latched k i (setGLatch m c s) := by
  refine ⟨?_, ?_⟩
  · rw [setGLatch_keeps_latch c s (.inr h.on)]
    exact h.on
  · rw [setGLatch_sticky c hs]
    split
    · rw [BitVec.getLsbD_or, h.cause, Bool.true_or]
    · exact h.cause

theorem latched_of_setGLatch {k i : Nat} {c : BitVec 32} {s : State} (hl : k < s.guard.latch.length) (hs : k < s.guard.sticky.length) (hc : c.getLsbD i = true) :
    latched k i (setGLatch k c s) := by
  refine ⟨setGLatch_on c hl, ?_⟩
  rw [setGLatch_sticky c hs, if_pos rfl, BitVec.getLsbD_or, hc, Bool.or_true]

theorem length_setGLatch (k : Nat) (c : BitVec 32) (s : State) :
    (setGLatch k c s).guard.latch.length = s.guard.latch.length ∧ (setGLatch k c s).guard.sticky.length = s.guard.sticky.length :=
  ⟨length_updAt .., length_updAt ..⟩

theorem forEach_setGLatch_latches {due : Nat → Bool} {causes : Nat → BitVec 32} {k i : Nat} {l : List Nat} (hk : k ∈ l) (hdue : due k = true) (hc : (causes k).getLsbD i = true) {s : State}
    (hl : k < s.guard.latch.length) (hs : k < s.guard.sticky.length) : latched k i (forEach l (fun m s => if due m then setGLatch m (causes m) s else s) s) := by
  have hkeep : ∀ (l : List Nat) (s : State), k < s.guard.sticky.length → latched k i s → latched k i (forEach l (fun m s => if due m then setGLatch m (causes m) s else s) s) := by
    intro l
    induction l with
    | nil => exact fun s _ h => h
    | cons m l ih =>
      intro s hs h
      refine ih (if due m then setGLatch m (causes m) s else s) ?_ ?_
      · split
        · exact (length_setGLatch m (causes m) s).2.symm ▸ hs
        · exact hs
      · split
        · exact latched_setGLatch _ hs h
        · exact h
  induction l generalizing s with
  | nil => exact absurd hk List.not_mem_nil
  | cons m l ih =>
    rcases List.mem_cons.1 hk with rfl | hk
    · refine hkeep l (if due k then setGLatch k (causes k) s else s) ?_ ?_
      · rw [if_pos hdue]
        exact (length_setGLatch k (causes k) s).2.symm ▸ hs
      · rw [if_pos hdue]
        exact latched_of_setGLatch hl hs hc
    · refine ih hk (s := if due m then setGLatch m (causes m) s else s) ?_ ?_
      · split
        · exact (length_setGLatch m (causes m) s).1.symm ▸ hl
        · exact hl
      · split
        · exact (length_setGLatch m (causes m) s).2.symm ▸ hs
        · exact hs

@[simp] theorem stageAll_sticky (s : State) : (stageAll s).guard.sticky = s.guard.sticky := stageAll_guard_eq Guard.sticky (fun _ _ _ _ _ => rfl) s

/-- A hazard that begins in a scope once granted latches it with its cause (R317, R321). -/
theorem guardEval_latches {k i : Nat} {s : State} (hup : guardUp s = true) (hk : k < 5) (hgr : s.guard.granted.getD k false = true) (hl : s.guard.latch.length = 5)
    (hs : s.guard.sticky.length = 5) (hnow : ((guardHazards s).getD k 0).getLsbD i = true) (hnew : (s.guard.hazards.getD k 0).getLsbD i = false) (htimed : timedSf.getLsbD i = false) :
    latched k i (guardEval s) := by
  have hi : i < 32 := BitVec.lt_of_getLsbD hnow
  have hrise : ((guardHazards s).getD k 0 &&& ~~~(s.guard.hazards.getD k 0) &&& ~~~timedSf).getLsbD i = true := by
    rw [BitVec.getLsbD_and, BitVec.getLsbD_and, BitVec.getLsbD_not, BitVec.getLsbD_not, hnow, hnew, htimed]
    simpa using hi
  have hdue : (s.guard.granted.getD k false && (guardHazards s).getD k 0 &&& ~~~(s.guard.hazards.getD k 0) &&& ~~~timedSf != 0) = true := by
    rw [hgr, Bool.true_and, bne_iff_ne]
    intro h0
    rw [h0] at hrise
    exact absurd (BitVec.getLsbD_zero.symm.trans hrise) Bool.false_ne_true
  have hset := forEach_setGLatch_latches (l := List.range 5) (due := fun k => s.guard.granted.getD k false && (guardHazards s).getD k 0 &&& ~~~(s.guard.hazards.getD k 0) &&& ~~~timedSf != 0)
    (causes := fun k => (guardHazards s).getD k 0 &&& ~~~(s.guard.hazards.getD k 0) &&& ~~~timedSf) (List.mem_range.2 hk) hdue hrise (s := s) (by omega) (by omega)
  unfold guardEval
  rw [if_neg (by rw [hup]; decide)]
  exact ⟨by rw [stageAll_latch]; exact hset.on, by rw [stageAll_sticky]; exact hset.cause⟩

/-- A latch of the string or of the group withholds the permit of the Guard (R320). -/
theorem permits_of_latch {s : State} {n m : Nat} (hm : m = n ∨ m = 4) (h : (s.guard.latch.getD m {}).on = true) : permits s n = false := by
  have hg : guardPermit s n = false := by
    simp only [guardPermit]
    rcases hm with rfl | rfl
    · rw [h, Bool.not_true, Bool.and_false, Bool.false_and]
    · rw [h, Bool.not_true, Bool.and_false]
  rw [permits, hg, Bool.false_and]

theorem formValues_chan {ch : List GuardDens} {s : State} (i : Nat) :
    (ch[i]? = none → gchan (formValues ch s) i = gchan s i) ∧ ∀ v, i < s.guard.chans.length → ch[i]? = some v → gchan (formValues ch s) i = chanStep s i v (gchan s i) := by
  have hc : gchan (formValues ch s) i = (s.guard.chans.mapIdx fun i c => match ch[i]? with | some v => chanStep s i v c | none => c).getD i {} := rfl
  rw [hc]
  refine ⟨fun hnone => ?_, fun v hi hv => ?_⟩
  · by_cases hi : i < s.guard.chans.length
    · refine (getD_mapIdx _ ({} : GChan) _ hi).trans ?_
      rw [hnone]
      rfl
    · rw [List.getD_eq_default _ _ (by simpa using hi)]
      exact (List.getD_eq_default _ _ (not_lt.1 hi)).symm
  · refine (getD_mapIdx _ ({} : GChan) _ hi).trans ?_
    rw [hv]
    rfl

theorem formValues_frame (ch : List GuardDens) (s : State) : keepsBut [.guard] s (formValues ch s) := by simp +decide [formValues]

theorem exec_guardValue {t : Nat} {ch : List GuardDens} {s : State} (hup : guardUp s = true) : exec (.guardValue t ch) s = .next (guardEval (formValues ch (s.at_ t))) :=
  congrArg Host.Outcome.next (guardDo_eq hup _)

theorem gchan_guardEval (s : State) (i : Nat) : gchan (guardEval s) i = gchan s i := by rw [gchan, guardEval_chans, gchan]

theorem guardValue_kept : ∀ t ch s, guardUp s = true → s.guard.chans.length = 10 →
    Completes (.guardValue t ch) s fun r =>
      (∀ i v, i < 10 → ch[i]? = some v →
        let x := density 64 v.d.bits
        let y := guardCal s i x
        let bad := clkBad (s.at_ t) v (gchan s i) || decide (128 ≤ quietClocks v.d.bits)
        let full := decide ((95 : Rat) / 100 < ratAbs x)
        let above := if i < 8 then full || decide ((gpar s .safeOcI : Rat) / 10 < ratAbs y) else (full && decide (0 ≤ x)) || decide ((gpar s .safeVbusMax : Rat) < y)
        (gchan r i).invalid = bad ∧ (gchan r i).clkOut = clkOutside (s.at_ t) v (gchan s i) ∧ (gchan r i).val = (if bad then none else some y) ∧ (gchan r i).run = (if !bad && above then min 255 ((gchan s i).run + 1) else 0) ∧
        (gchan r i).sum = (if bad then (gchan s i).sum else ((gchan s i).sum.1 + y, (gchan s i).sum.2 + 1))) ∧
      (∀ i, ch[i]? = none → gchan r i = gchan s i) ∧ r.guard.heartbeat = s.guard.heartbeat ∧ keepsBut [.time, .est, .guard] s r := by
  intro t ch s hup hlen
  refine ⟨_, exec_guardValue hup, fun i v hi hv => ?_, fun i hnone => ?_, ?_, keepsBut_mono (guardEval_at_frame (formValues_frame ch (s.at_ t))) (by decide)⟩
  · have hchan := (formValues_chan (ch := ch) (s := s.at_ t) i).2 v (show i < s.guard.chans.length by omega) hv
    intro x y bad full above
    rw [gchan_guardEval, hchan]
    refine ⟨rfl, rfl, rfl, ?_, rfl⟩
    have habove : above = (if i < 8 then full || decide ((gpar s .safeOcI : Rat) / 10 < ratAbs y) else (full && !decide (x < 0)) || decide ((gpar s .safeVbusMax : Rat) < y)) := by
      simp only [above, ← not_lt, decide_not]
    rw [habove]
    rfl
  · rw [gchan_guardEval]
    exact (formValues_chan (s := s.at_ t) i).1 hnone
  · rw [guardEval_heartbeat]
    rfl

theorem guardMean_eq (s : State) (i : Nat) :
    Sys2Proof.Machine.guardMean s i = if (gchan s i).invalid = true ∨ (gchan s i).sum.2 = 0 then none else some ((gchan s i).sum.1 / ((gchan s i).sum.2 : Rat)) := by
  unfold Sys2Proof.Machine.guardMean
  exact if_congr (by rw [Bool.or_eq_true, beq_iff_eq]) rfl rfl

/-- A Guard after the end of its millisecond: the means of the channels under the heartbeat, and the runs judged on them. -/
def hasMeans (t : Nat) (s u : State) : Prop :=
  u.guard.heartbeat = (s.guard.heartbeat + 1) % 2 ^ 32 ∧ u.guard.hbAt = t ∧
    u.guard.chans = s.guard.chans.mapIdx (fun i c => { c with means := (((s.guard.heartbeat + 1) % 2 ^ 32, Sys2Proof.Machine.guardMean s i) :: c.means).take 32, sum := (0, 0) }) ∧
    keepsBut [.guard] s u

theorem exec_guardMean {t : Nat} {ch : List GuardDens} {s : State} (hup : guardUp s = true) :
    ∃ u, exec (.guardMean t ch) s = .next (guardEval u) ∧ hasMeans t (if ch.isEmpty then s.at_ t else formValues ch (s.at_ t)) u :=
  ⟨_, congrArg Host.Outcome.next (guardDo_eq hup _), rfl, rfl, rfl, by simp +decide⟩

theorem guardMean_kept : ∀ t ch s, guardUp s = true → s.guard.chans.length = 10 →
    Completes (.guardMean t ch) s fun r =>
      let u := if ch = [] then s else formValues ch (s.at_ t)
      r.guard.heartbeat = (s.guard.heartbeat + 1) % 2 ^ 32 ∧ r.guard.hbAt = t ∧
      (∀ i, i < 10 → (gchan r i).sum = (0, 0) ∧ (gchan r i).means.head? = some (r.guard.heartbeat,
        if (gchan u i).invalid = true ∨ (gchan u i).sum.2 = 0 then none else some ((gchan u i).sum.1 / ((gchan u i).sum.2 : Rat)))) ∧
      keepsBut [.time, .est, .guard] s r := by
  intro t ch s hup hlen
  obtain ⟨r, hexec, hbeat, hat, hchans, hkeep⟩ := exec_guardMean (t := t) (ch := ch) hup
  have hv : (if ch.isEmpty then s.at_ t else formValues ch (s.at_ t)).guard.heartbeat = s.guard.heartbeat ∧
      (if ch.isEmpty then s.at_ t else formValues ch (s.at_ t)).guard.chans.length = 10 ∧ keepsBut [.guard] (s.at_ t) (if ch.isEmpty then s.at_ t else formValues ch (s.at_ t)) ∧
      ∀ i, gchan (if ch.isEmpty then s.at_ t else formValues ch (s.at_ t)) i = gchan (if ch = [] then s else formValues ch (s.at_ t)) i := by
    cases ch with
    | nil => exact ⟨rfl, hlen, keepsBut_refl _ _, fun _ => rfl⟩
    | cons v ch => exact ⟨rfl, (List.length_mapIdx ..).trans hlen, formValues_frame _ _, fun _ => rfl⟩
  generalize (if ch.isEmpty then s.at_ t else formValues ch (s.at_ t)) = v at *
  obtain ⟨hhb, hlen', hframe, hsame⟩ := hv
  have hheart : (guardEval r).guard.heartbeat = (s.guard.heartbeat + 1) % 2 ^ 32 := by rw [guardEval_heartbeat, hbeat, hhb]
  refine ⟨_, hexec, hheart, by rw [guardEval_hbAt, hat], fun i hi => ?_, keepsBut_mono (guardEval_at_frame (keepsBut_trans hframe hkeep)) (by decide)⟩
  have hchan : gchan (guardEval r) i = { gchan v i with
      means := (((v.guard.heartbeat + 1) % 2 ^ 32, Sys2Proof.Machine.guardMean v i) :: (gchan v i).means).take 32, sum := (0, 0) } := by
    rw [gchan_guardEval, gchan, hchans]
    exact getD_mapIdx _ _ _ (by omega)
  rw [hchan]
  refine ⟨rfl, ?_⟩
  rw [hheart, ← hsame i, ← guardMean_eq, hhb]
  rfl

theorem guardValue_overcurrent : ∀ t ch (n : Fin 4) (v : GuardDens) s, guardUp s = true → guarded s n.val = true → s.guard.granted.getD n.val false = true → s.guard.chans.length = 10 →
    s.guard.latch.length = 5 → s.guard.sticky.length = 5 → s.guard.hazards.getD n.val 0 &&& sf 1 = 0 → 1 ≤ (gchan s (2 * n.val)).run → ch[2 * n.val]? = some v →
    clkBad (s.at_ t) v (gchan s (2 * n.val)) = false → quietClocks v.d.bits < 128 → (gpar s .safeOcI : Rat) / 10 < ratAbs (guardCal s (2 * n.val) (density 64 v.d.bits)) →
    Completes (.guardValue t ch) s fun r =>
      (r.guard.latch.getD n.val {}).on = true ∧ r.guard.sticky.getD n.val 0 &&& sf 1 = sf 1 ∧ permits r n.val = false ∧ gateEn r n.val = false := by
  intro t ch n v s hup hguarded hgr hch hl hs hhaz hrun hv hclk hquiet hover
  have hchan := (formValues_chan (ch := ch) (s := s.at_ t) (2 * n.val)).2 v (show 2 * n.val < s.guard.chans.length by omega) hv
  have hbad : (clkBad (s.at_ t) v (gchan (s.at_ t) (2 * n.val)) || decide (128 ≤ quietClocks v.d.bits)) = false := by
    rw [show clkBad (s.at_ t) v (gchan (s.at_ t) (2 * n.val)) = false from hclk, decide_eq_false (not_le.2 hquiet)]
    rfl
  have hrun2 : (gchan (formValues ch (s.at_ t)) (2 * n.val)).run = min 255 ((gchan s (2 * n.val)).run + 1) := by
    rw [hchan]
    unfold chanStep
    dsimp only
    rw [hbad, if_pos (show 2 * n.val < 8 by omega)]
    refine if_pos ?_
    rw [show decide ((gpar (s.at_ t) .safeOcI : Rat) / 10 < ratAbs (guardCal (s.at_ t) (2 * n.val) (density 64 v.d.bits))) = true from decide_eq_true hover, Bool.or_true]
    rfl
  have hbit : ((guardHazards (formValues ch (s.at_ t))).getD n.val 0).getLsbD 0 = true := by
    have hget : (guardHazards (formValues ch (s.at_ t))).getD n.val 0 = stringHazards (formValues ch (s.at_ t)) n.val := by
      have hn := n.isLt
      rw [guardHazards, List.getD_append _ _ _ _ (by simp), List.getD_eq_getElem _ _ (by simp), List.getElem_map, List.getElem_range]
    have hg : guarded (formValues ch (s.at_ t)) n.val = true := hguarded
    rw [hget, stringHazards, if_neg (by rw [hg]; decide)]
    simp only [BitVec.getLsbD_or, getLsbD_sfIf, hrun2]
    rw [decide_eq_true (show 2 ≤ min 255 ((gchan s (2 * n.val)).run + 1) by omega)]
    rfl
  obtain ⟨hon, hcause⟩ := guardEval_latches (s := formValues ch (s.at_ t)) (i := 0) hup (show n.val < 5 by omega) hgr hl hs hbit
    (getLsbD_of_and_sf (k := 1) (by decide) hhaz) (by decide)
  have hp := permits_of_latch (n := n.val) (.inl rfl) hon
  exact ⟨_, exec_guardValue hup, hon, (and_sf_iff (by decide) _).2 hcause, hp, gateEn_guardEval_off (show guardUp (formValues ch (s.at_ t)) = true from hup) n.isLt hp⟩

/-- The filtered levels of the trip inputs are kept. -/
def tripsAt (a b : Bool) (s u : State) : Prop :=
  u.guard.tripA = a ∧ u.guard.tripB = b ∧ u.guard.hazards = s.guard.hazards ∧ u.guard.granted = s.guard.granted ∧ u.guard.latch = s.guard.latch ∧
    u.guard.sticky = s.guard.sticky ∧ keepsBut [.guard] s u

theorem exec_tripInputChange {t : Nat} {a b : Bool} {s : State} (hup : guardUp s = true) :
    ∃ u, exec (.tripInputChange t a b) s = .next (guardEval u) ∧ tripsAt a b (s.at_ t) u :=
  ⟨_, congrArg Host.Outcome.next (guardDo_eq hup _), rfl, rfl, rfl, rfl, rfl, rfl, by simp +decide⟩

theorem tripInputChange_trips : ∀ t a b s, guardUp s = true → s.guard.granted.getD 4 false = true → s.guard.latch.length = 5 → s.guard.sticky.length = 5 →
    s.guard.hazards.getD 4 0 &&& sf 8 = 0 → (a && b) = false →
    Completes (.tripInputChange t a b) s fun r =>
      r.guard.tripA = a ∧ r.guard.tripB = b ∧ (r.guard.latch.getD 4 {}).on = true ∧ r.guard.sticky.getD 4 0 &&& sf 8 = sf 8 ∧ (∀ n, n < 4 → gateEn r n = false) ∧
      keepsBut [.time, .est, .guard] s r := by
  intro t a b s hup hgr hl hs hhaz hlow
  obtain ⟨u, hexec, ha, hb, hh, hg, hlatch, hsticky, hkeep⟩ := exec_tripInputChange (t := t) (a := a) (b := b) hup
  have hupu : guardUp u = true := (guardUp_of_keepsBut hkeep (by decide) (by decide)).trans hup
  have hbit : ((guardHazards u).getD 4 0).getLsbD 7 = true := by
    show (groupHazards u).getLsbD 7 = true
    unfold groupHazards
    simp only [BitVec.getLsbD_or, getLsbD_sfIf, ha, hb, hlow]
    rw [show (!false && (sf 8).getLsbD 7) = true by decide]
    simp only [Bool.or_true, Bool.true_or]
  obtain ⟨hon, hcause⟩ := guardEval_latches (s := u) (k := 4) (i := 7) hupu (by decide) (hg.symm ▸ hgr) (hlatch.symm ▸ hl) (hsticky.symm ▸ hs) hbit
    (getLsbD_of_and_sf (k := 8) (by decide) (hh.symm ▸ hhaz)) (by decide)
  exact ⟨_, hexec, by rw [guardEval_tripA, ha], by rw [guardEval_tripB, hb], hon, (and_sf_iff (by decide) _).2 hcause,
    fun n hn => gateEn_guardEval_off hupu hn (permits_of_latch (.inr rfl) hon), keepsBut_mono (guardEval_at_frame hkeep) (by decide)⟩

/-- Settles O27, clause by clause. -/
theorem guardValues : Obligations.GuardValues :=
  ⟨guardValue_kept, guardMean_kept, guardValue_overcurrent, tripInputChange_trips⟩

end Sys2Proof.Machine
end

section
/-!
PROOF. O28: fault loops, trip discrepancy, contactor feedback and weld.
-/
namespace Sys2Proof.Machine

/-- A Guard command that changes the Guard alone. -/
theorem guardEval_modGuard_frame (t : Nat) (f : Guard → Guard) (s : State) : keepsBut [.time, .est, .guard] s (guardEval ((s.at_ t).modGuard f)) :=
  keepsBut_mono (guardEval_at_frame (t := t) (ps := [.guard]) (by simp +decide)) (by decide)

theorem floop_guardEval (s : State) (n : Nat) : floop (guardEval s) n = floop s n := by rw [floop, guardEval_floops, floop]

theorem cfbClosed_guardEval (s : State) (n k : Nat) : cfbClosed (guardEval s) n k = cfbClosed s n k := by rw [cfbClosed, guardEval_cfb, cfbClosed]

/-- A change of the fault loop of one string. -/
def loopChange (n : Nat) (f : FLoop → FLoop) (s : State) : State := s.modGuard fun g => { g with floops := updAt g.floops n f }

theorem floop_loopChange_same {n : Nat} (f : FLoop → FLoop) {s : State} (hn : n < s.guard.floops.length) : floop (loopChange n f s) n = f (floop s n) :=
  (getD_updAt s.guard.floops n n f {}).trans (if_pos ⟨rfl, hn⟩)

theorem floop_loopChange_other {m n : Nat} (f : FLoop → FLoop) (s : State) (h : m ≠ n) : floop (loopChange n f s) m = floop s m :=
  (getD_updAt s.guard.floops n m f {}).trans (if_neg fun h' => h h'.1.symm)

/-- A latch once set, with its cause, stands after the judgement of the Guard that follows. -/
theorem latched_guardEval {k i : Nat} {s : State} (hk : k < s.guard.sticky.length) (h : latched k i s) : latched k i (guardEval s) := by
  by_cases hup : guardUp s = true
  · unfold guardEval
    rw [if_neg (by rw [hup]; decide)]
    have hset : ∀ (l : List Nat) (due : Nat → Bool) (causes : Nat → BitVec 32) (s : State), k < s.guard.sticky.length → latched k i s →
        latched k i (forEach l (fun m s => if due m then setGLatch m (causes m) s else s) s) := by
      intro l due causes
      induction l with
      | nil => exact fun s _ h => h
      | cons m l ih =>
        intro s hs h
        refine ih (if due m then setGLatch m (causes m) s else s) ?_ ?_
        · split
          · exact (length_setGLatch m (causes m) s).2.symm ▸ hs
          · exact hs
        · split
          · exact latched_setGLatch _ hs h
          · exact h
    have hl := hset (List.range 5) (fun k => s.guard.granted.getD k false && (guardHazards s).getD k 0 &&& ~~~(s.guard.hazards.getD k 0) &&& ~~~timedSf != 0)
      (fun k => (guardHazards s).getD k 0 &&& ~~~(s.guard.hazards.getD k 0) &&& ~~~timedSf) s hk h
    exact ⟨by rw [stageAll_latch]; exact hl.on, by rw [stageAll_sticky]; exact hl.cause⟩
  · rw [guardEval, if_pos (by simpa using hup)]
    exact h

theorem gRaise_frame (c a : Nat) (s : State) : keepsBut [.recorder] s (gRaise c a s) := by simp +decide

theorem isRaised_gRaise {c : Nat} (a : Nat) {s : State} (hup : s.up = true) (hc : recordedOnly.contains c = false) : (gRaise c a s).isRaised c a = true := by
  rw [gRaise, if_pos hup]
  exact isRaised_raise c a s hc

theorem isRaised_of_keepsBut {ps : List Piece} {s t : State} (h : keepsBut ps s t) (hp : Piece.recorder ∉ ps) (c a : Nat) : t.isRaised c a = s.isRaised c a := by
  have hrec : t.recorder = s.recorder := h .recorder hp
  simp only [State.isRaised, hrec]

theorem floopEdgeDrive_toggles : ∀ t s, guardUp s = true → s.guard.floops.length = 4 →
    Completes (.floopEdgeDrive t) s fun r =>
      (∀ n, n < 4 → guarded s n = true → floop r n = { floop s n with out := !(floop s n).out, edge := some (max s.time.now t) }) ∧
      (∀ n, guarded s n = false → floop r n = floop s n) ∧ keepsBut [.time, .est, .guard] s r := by
  intro t s hup hlen
  refine ⟨_, congrArg Host.Outcome.next (guardDo_eq hup _), fun n hn hg => ?_, fun n hg => ?_, ?_⟩
  · rw [floop_guardEval]
    refine (getD_mapIdx _ ({} : FLoop) _ (show n < s.guard.floops.length by omega)).trans ?_
    exact if_pos hg
  · rw [floop_guardEval]
    refine (getD_mapIdx_of_default _ s.guard.floops (d := ({} : FLoop)) ?_).trans ?_
    · exact if_neg fun h => absurd (hg.symm.trans h) Bool.false_ne_true
    · exact if_neg fun h => absurd (hg.symm.trans h) Bool.false_ne_true
  · exact guardEval_modGuard_frame t _ s

theorem floopInEdge_short : ∀ t held (n : Fin 4) high s, held < 2000 → guardUp s = true → Completes (.floopInEdge { at_ := t, held := held } n high) s fun r => r.guard.floops = s.guard.floops := by
  intro t held n high s hheld hup
  refine ⟨guardEval (s.at_ t), congrArg Host.Outcome.next ((guardDo_eq hup _).trans (congrArg guardEval (if_pos hheld))), ?_⟩
  exact congrArg id (guardEval_floops (s.at_ t))

/-- An edge at FLOOP_IN, as the fault loop takes it (R313). -/
def edgeTaken (t : Nat) (high : Bool) (l : FLoop) : FLoop :=
  match l.edge with
  | some e =>
    if high == l.out && decide (t ≤ e + 200000) then { l with inn := high, edge := none, missed := 0, back := min 255 (l.back + 1), stop := l.stop && decide (l.back + 1 < 16) }
    else { l with inn := high }
  | none => { l with inn := high }

theorem exec_floopInEdge {t held : Nat} {n : Fin 4} {high : Bool} {s : State} (hup : guardUp s = true) (hheld : 2000 ≤ held) :
    exec (.floopInEdge { at_ := t, held := held } n high) s = .next (guardEval (loopChange n.val (edgeTaken t high) (s.at_ t))) := by
  refine congrArg Host.Outcome.next ((guardDo_eq hup _).trans (congrArg guardEval ?_))
  exact if_neg (not_lt.2 hheld)

theorem floopInEdge_returns : ∀ t held (n : Fin 4) e s, guardUp s = true → 2000 ≤ held → s.guard.floops.length = 4 → (floop s n.val).edge = some e →
    Completes (.floopInEdge { at_ := t, held := held } n (floop s n.val).out) s fun r =>
      (floop r n.val).inn = (floop s n.val).out ∧
      (t ≤ e + 200000 → (floop r n.val).edge = none ∧ (floop r n.val).missed = 0 ∧ (floop r n.val).back = min 255 ((floop s n.val).back + 1)) ∧
      (e + 200000 < t → (floop r n.val).edge = some e ∧ (floop r n.val).back = (floop s n.val).back) ∧
      (∀ m, m ≠ n.val → floop r m = floop s m) ∧ keepsBut [.time, .est, .guard] s r := by
  intro t held n e s hup hheld hlen hedge
  have hn : n.val < (s.at_ t).guard.floops.length := show n.val < s.guard.floops.length by omega
  have hself : floop (guardEval (loopChange n.val (edgeTaken t (floop s n.val).out) (s.at_ t))) n.val = edgeTaken t (floop s n.val).out (floop s n.val) := by
    rw [floop_guardEval]
    exact floop_loopChange_same _ hn
  refine ⟨_, exec_floopInEdge hup hheld, ?_, fun hsoon => ?_, fun hlate => ?_, fun m hm => ?_, guardEval_modGuard_frame t _ s⟩
  · rw [hself, edgeTaken, hedge]
    dsimp only
    split <;> rfl
  · rw [hself, edgeTaken, hedge]
    dsimp only
    rw [beq_self_eq_true, decide_eq_true hsoon, if_pos (by decide)]
    exact ⟨rfl, rfl, rfl⟩
  · rw [hself, edgeTaken, hedge]
    dsimp only
    rw [decide_eq_false (not_le.2 hlate), Bool.and_false, if_neg Bool.false_ne_true]
    exact ⟨rfl, rfl⟩
  · rw [floop_guardEval]
    exact floop_loopChange_other _ _ hm

/-- A driven edge that has not returned by an instant (R313). -/
def edgeMissed (now : Nat) (l : FLoop) : FLoop :=
  match l.edge with
  | some e => if e + 200000 ≤ now then { l with edge := none, missed := min 255 (l.missed + 1), back := 0, stop := l.stop || decide (8 ≤ l.missed + 1) } else l
  | none => l

theorem floopEdgeNotReturned_counts : ∀ t (n : Fin 4) e s, guardUp s = true → s.guard.floops.length = 4 → (floop s n.val).edge = some e → e + 200000 ≤ t →
    Completes (.floopEdgeNotReturned t n) s fun r =>
      (floop r n.val).edge = none ∧ (floop r n.val).back = 0 ∧ (floop r n.val).missed = min 255 ((floop s n.val).missed + 1) ∧
      ((floop r n.val).stop = true ↔ (floop s n.val).stop = true ∨ 8 ≤ (floop s n.val).missed + 1) ∧
      (∀ m, m ≠ n.val → floop r m = floop s m) ∧ keepsBut [.time, .est, .guard] s r := by
  intro t n e s hup hlen hedge hdue
  have hexec : exec (.floopEdgeNotReturned t n) s = .next (guardEval (loopChange n.val (edgeMissed (s.at_ t).time.now) (s.at_ t))) := congrArg Host.Outcome.next (guardDo_eq hup _)
  have hn : n.val < (s.at_ t).guard.floops.length := show n.val < s.guard.floops.length by omega
  have hself : floop (guardEval (loopChange n.val (edgeMissed (s.at_ t).time.now) (s.at_ t))) n.val =
      { floop s n.val with edge := none, missed := min 255 ((floop s n.val).missed + 1), back := 0, stop := (floop s n.val).stop || decide (8 ≤ (floop s n.val).missed + 1) } := by
    rw [floop_guardEval]
    refine (floop_loopChange_same _ hn).trans ?_
    show edgeMissed (s.at_ t).time.now (floop s n.val) = _
    rw [edgeMissed, hedge]
    exact if_pos (hdue.trans (le_max_right _ _))
  refine ⟨_, hexec, ?_, ?_, ?_, ?_, fun m hm => ?_, guardEval_modGuard_frame t _ s⟩
  · rw [hself]
  · rw [hself]
  · rw [hself]
  · rw [hself]
    simp only [Bool.or_eq_true, decide_eq_true_eq]
  · rw [floop_guardEval]
    exact floop_loopChange_other _ _ hm

theorem tripDiscrepancy_notes : ∀ t d s, guardUp s = true → s.guard.tripDiff = some d → d + (gpar s .safeTripDisc).toNat * 1000000 ≤ t →
    Completes (.tripDiscrepancy t) s fun r => r.guard.tripDisc = true ∧ keepsBut [.time, .est, .guard] s r := by
  intro t d s hup hdiff hdue
  refine ⟨_, congrArg Host.Outcome.next (guardDo_eq hup _), ?_, ?_⟩
  · rw [guardEval_tripDisc, State.modGuard_guard, show (s.at_ t).guard.tripDiff = some d from hdiff]
    dsimp only
    rw [if_pos (show d + (gpar (s.at_ t) .safeTripDisc).toNat * 1000000 ≤ (s.at_ t).time.now from hdue.trans (le_max_right _ _))]
  · exact guardEval_modGuard_frame t _ s

/-- The level of a feedback input is kept, with the rest as it may be. -/
theorem exec_cfbChange {t : Nat} {n : Fin 4} {k : Fin 3} {closed : Bool} {s : State} (hup : guardUp s = true) :
    ∃ u, exec (.cfbChange t n k closed) s = .next (guardEval u) ∧ u.guard.cfb = updAt s.guard.cfb (3 * n.val + k.val) (fun _ => closed) ∧
      keepsBut [.guard, .est, .disp, .recorder] (s.at_ t) u := by
  refine ⟨_, congrArg Host.Outcome.next (guardDo_eq hup _), ?_, ?_⟩
  · dsimp only
    split
    · rfl
    · show (State.clear _ _ _).guard.cfb = _
      rw [clear_guard]
      rfl
  · simp +decide

theorem cfbChange_kept : ∀ t (n : Fin 4) (k : Fin 3) closed s, guardUp s = true → s.guard.cfb.length = 12 →
    Completes (.cfbChange t n k closed) s fun r =>
      cfbClosed r n.val k.val = closed ∧ (∀ m j, (m ≠ n.val ∨ j ≠ k.val) → m < 4 → j < 3 → cfbClosed r m j = cfbClosed s m j) ∧
      keepsBut [.time, .est, .guard, .disp, .recorder] s r := by
  intro t n k closed s hup hlen
  obtain ⟨u, hexec, hcfb, hkeep⟩ := exec_cfbChange (t := t) (n := n) (k := k) (closed := closed) hup
  refine ⟨_, hexec, ?_, fun m j hmj hm hj => ?_, keepsBut_mono (guardEval_at_frame hkeep) (by decide)⟩
  · rw [cfbClosed_guardEval, cfbClosed, hcfb]
    exact (getD_updAt _ _ _ _ _).trans (if_pos ⟨rfl, by omega⟩)
  · rw [cfbClosed_guardEval, cfbClosed, hcfb]
    exact (getD_updAt _ _ _ _ _).trans (if_neg fun h => by omega)

theorem contactorFeedbackFault_latches : ∀ t (n : Fin 4) (k : Fin 3) s, guardUp s = true → s.guard.latch.length = 5 → s.guard.sticky.length = 5 → fbFault (s.at_ t) (3 * n.val + k.val) = true →
    guarded s n.val = true → s.guard.granted.getD n.val false = true →
    Completes (.contactorFeedbackFault t n k) s fun r =>
      (r.guard.latch.getD n.val {}).on = true ∧ r.guard.sticky.getD n.val 0 &&& sf 15 = sf 15 ∧ gateEn r n.val = false ∧ (s.up = true → r.isRaised 0x500C n.val = true) ∧
      keepsBut [.time, .est, .guard, .recorder] s r := by
  intro t n k s hup hl hs hfault hguarded hgr
  let v := gRaise 0x500C n.val (s.at_ t)
  have hexec : exec (.contactorFeedbackFault t n k) s = .next (guardEval (setGLatch n.val (sf 15) v)) := by
    refine congrArg Host.Outcome.next ((guardDo_eq hup _).trans (congrArg guardEval ?_))
    dsimp only
    rw [if_pos (by rw [hfault, show guarded (s.at_ t) n.val = true from hguarded]; rfl), if_pos]
    exact (congrArg (fun g => g.granted.getD n.val false) (gRaise_frame 0x500C n.val (s.at_ t) .guard (by decide))).trans hgr
  have hv : keepsBut [.recorder] (s.at_ t) v := gRaise_frame 0x500C n.val (s.at_ t)
  have hguard : v.guard = s.guard := hv .guard (by decide)
  have hraised : s.up = true → v.isRaised 0x500C n.val = true := fun h => isRaised_gRaise (s := s.at_ t) n.val h (by decide)
  clear_value v
  have hn := n.isLt
  have hlatch : latched n.val 14 (setGLatch n.val (sf 15) v) := latched_of_setGLatch (by rw [hguard]; omega) (by rw [hguard]; omega) (by decide)
  have hjudged := latched_guardEval (by rw [(length_setGLatch ..).2, hguard]; omega) hlatch
  have hset : keepsBut [.guard] v (setGLatch n.val (sf 15) v) := by simp +decide
  have hupv : guardUp (setGLatch n.val (sf 15) v) = true :=
    ((guardUp_of_keepsBut hset (by decide) (by decide)).trans (guardUp_of_keepsBut hv (by decide) (by decide))).trans hup
  refine ⟨_, hexec, hjudged.on, (and_sf_iff (by decide) _).2 hjudged.cause, gateEn_guardEval_off hupv n.isLt (permits_of_latch (.inl rfl) hjudged.on), fun h => ?_, ?_⟩
  · rw [isRaised_of_keepsBut (guardEval_frame _) (by decide)]
    exact hraised h
  · exact keepsBut_mono (guardEval_at_frame (keepsBut_trans (keepsBut_mono (qs := [.guard, .recorder]) hv (by decide)) (keepsBut_mono hset (by decide)))) (by decide)

/-- A contactor noted as welded, with the event of its string (R317). -/
def weldNoted (n i : Nat) (s : State) : State := gRaise 0x500B n (s.modGuard fun g => { g with weld := updAt g.weld i fun _ => true })

theorem weldNoted_facts (n i : Nat) (s : State) : (weldNoted n i s).guard = { s.guard with weld := updAt s.guard.weld i fun _ => true } ∧
    (s.up = true → (weldNoted n i s).isRaised 0x500B n = true) ∧ keepsBut [.guard, .recorder] s (weldNoted n i s) := by
  have hr := gRaise_frame 0x500B n (s.modGuard fun g => { g with weld := updAt g.weld i fun _ => true })
  refine ⟨hr .guard (by decide), fun hup => isRaised_gRaise (s := s.modGuard fun g => { g with weld := updAt g.weld i fun _ => true }) n hup (by decide), ?_⟩
  exact keepsBut_trans (t := s.modGuard fun g => { g with weld := updAt g.weld i fun _ => true }) (by simp +decide) (keepsBut_mono hr (by decide))

theorem contactorWeld_latches : ∀ t (n : Fin 4) (k : Fin 3) s, guardUp s = true → s.guard.latch.length = 5 → s.guard.sticky.length = 5 → s.guard.weld.length = 12 →
    weldFault (s.at_ t) (3 * n.val + k.val) = true → guarded s n.val = true → s.guard.granted.getD n.val false = true →
    Completes (.contactorWeld t n k) s fun r =>
      r.guard.weld.getD (3 * n.val + k.val) false = true ∧ (r.guard.latch.getD n.val {}).on = true ∧ r.guard.sticky.getD n.val 0 &&& sf 16 = sf 16 ∧
      gateEn r n.val = false ∧ (s.up = true → r.isRaised 0x500B n.val = true) ∧ keepsBut [.time, .est, .guard, .recorder] s r := by
  intro t n k s hup hl hs hw hfault hguarded hgr
  have hn := n.isLt
  have hk := k.isLt
  let v := weldNoted n.val (3 * n.val + k.val) (s.at_ t)
  let w := setGLatch n.val (sf 16) v
  let u := if w.guard.weld.getD (3 * n.val) false && w.guard.weld.getD (3 * n.val + 1) false && w.guard.granted.getD 4 false then setGLatch 4 (sf 16) w else w
  obtain ⟨hguard, hraised, hv⟩ := weldNoted_facts n.val (3 * n.val + k.val) (s.at_ t)
  have hexec : exec (.contactorWeld t n k) s = .next (guardEval u) := by
    refine congrArg Host.Outcome.next ((guardDo_eq hup _).trans (congrArg guardEval ?_))
    dsimp only
    rw [if_pos (by rw [hfault, show guarded (s.at_ t) n.val = true from hguarded]; rfl)]
    have hgr' : v.guard.granted.getD n.val false = true := by
      rw [show v.guard = _ from hguard]
      exact hgr
    show (if (if v.guard.granted.getD n.val false then w else v).guard.weld.getD (3 * n.val) false && (if v.guard.granted.getD n.val false then w else v).guard.weld.getD (3 * n.val + 1) false &&
      (if v.guard.granted.getD n.val false then w else v).guard.granted.getD 4 false then setGLatch 4 (sf 16) (if v.guard.granted.getD n.val false then w else v)
      else (if v.guard.granted.getD n.val false then w else v)) = u
    rw [if_pos hgr']
  have hlatch : latched n.val 15 w := latched_of_setGLatch (by rw [show v.guard = _ from hguard]; show n.val < s.guard.latch.length; omega)
    (by rw [show v.guard = _ from hguard]; show n.val < s.guard.sticky.length; omega) (by decide)
  have hlenw : w.guard.sticky.length = 5 := by
    rw [(length_setGLatch ..).2, show v.guard = _ from hguard]
    exact hs
  have hu : latched n.val 15 u ∧ u.guard.sticky.length = 5 ∧ u.guard.weld = v.guard.weld ∧ keepsBut [.guard] v u := by
    have hsetw : keepsBut [.guard] v w := by simp +decide [w]
    simp only [u]
    split
    · exact ⟨latched_setGLatch _ (by omega) hlatch, (length_setGLatch ..).2.trans hlenw, rfl, keepsBut_trans hsetw (by simp +decide)⟩
    · exact ⟨hlatch, hlenw, rfl, hsetw⟩
  have hvraise : s.up = true → v.isRaised 0x500B n.val = true := hraised
  have hweld : v.guard.weld = updAt s.guard.weld (3 * n.val + k.val) fun _ => true := by rw [show v.guard = _ from hguard]; rfl
  have hkv : keepsBut [.guard, .recorder] (s.at_ t) v := hv
  clear_value u w v
  obtain ⟨hlu, hlenu, hweldu, hku⟩ := hu
  have hjudged := latched_guardEval (by omega) hlu
  have hupu : guardUp u = true := ((guardUp_of_keepsBut hku (by decide) (by decide)).trans (guardUp_of_keepsBut hkv (by decide) (by decide))).trans hup
  refine ⟨_, hexec, ?_, hjudged.on, (and_sf_iff (by decide) _).2 hjudged.cause, gateEn_guardEval_off hupu n.isLt (permits_of_latch (.inl rfl) hjudged.on), fun h => ?_, ?_⟩
  · rw [guardEval_weld, hweldu, hweld]
    exact (getD_updAt _ _ _ _ _).trans (if_pos ⟨rfl, by omega⟩)
  · rw [isRaised_of_keepsBut (guardEval_frame _) (by decide), isRaised_of_keepsBut hku (by decide)]
    exact hvraise h
  · exact keepsBut_mono (guardEval_at_frame (keepsBut_trans hkv (keepsBut_mono hku (by decide)))) (by decide)

/-- Settles O28, clause by clause. -/
theorem guardInputs : Obligations.GuardInputs :=
  ⟨floopEdgeDrive_toggles, floopInEdge_short, floopInEdge_returns, floopEdgeNotReturned_counts, tripDiscrepancy_notes, cfbChange_kept, contactorFeedbackFault_latches, contactorWeld_latches⟩

end Sys2Proof.Machine
end

section
/-!
PROOF. O30: the reset input, its window, and reset requests.
-/
namespace Sys2Proof.Machine

theorem scopeSt_guardEval (s : State) (k : Nat) : scopeSt (guardEval s) k = scopeSt s k := by
  have hcore : (guardEval s).core = s.core := guardEval_frame s .core (by decide)
  rw [scopeSt, hcore, scopeSt]

@[simp] theorem guardEval_stuck (s : State) : (guardEval s).guard.stuck = s.guard.stuck :=
  guardEval_guard_eq Guard.stuck (fun _ _ _ => rfl) (fun _ _ _ => rfl) (fun _ _ _ _ _ => rfl) s
@[simp] theorem guardEval_inFault (s : State) : (guardEval s).guard.inFault = s.guard.inFault :=
  guardEval_guard_eq Guard.inFault (fun _ _ _ => rfl) (fun _ _ _ => rfl) (fun _ _ _ _ _ => rfl) s
@[simp] theorem guardEval_resetAt (s : State) : (guardEval s).guard.resetAt = s.guard.resetAt :=
  guardEval_guard_eq Guard.resetAt (fun _ _ _ => rfl) (fun _ _ _ => rfl) (fun _ _ _ _ _ => rfl) s

/-- The window of a request closes: the scopes it armed are Locked again, and no other scope changes (R333). -/
theorem closeWindow_facts (s : State) : (closeWindow s).core.tAcc = none ∧ (∀ k, scopeSt (closeWindow s) k = if scopeSt s k = .resetArmed then .locked else scopeSt s k) ∧
    (closeWindow s).guard = s.guard ∧ keepsBut [.core, .recorder] s (closeWindow s) := by
  have hraise : ∀ (l : List Nat) (u : State), (forEach l (fun k s => s.raise 0x5008 (scopeArg k)) u).core = u.core ∧ keepsBut [.recorder] u (forEach l (fun k s => s.raise 0x5008 (scopeArg k)) u) := by
    intro l
    induction l with
    | nil => exact fun u => ⟨rfl, keepsBut_refl _ _⟩
    | cons k l ih =>
      intro u
      obtain ⟨hcore, hkeep⟩ := ih (u.raise 0x5008 (scopeArg k))
      exact ⟨hcore, keepsBut_trans (t := u.raise 0x5008 (scopeArg k)) (by simp +decide) hkeep⟩
  unfold closeWindow
  dsimp only
  generalize (List.range 5).filter (fun k => s.core.scope.getD k .start == .resetArmed) = l
  generalize hu : (s.modCore fun c => { c with tAcc := none, scope := c.scope.map fun x => if x == .resetArmed then .locked else x }) = u
  obtain ⟨hcore, hkeep⟩ := hraise l u
  have hsu : keepsBut [.core] s u := by
    subst hu
    simp +decide
  refine ⟨by rw [hcore, ← hu]; rfl, fun k => ?_, (hkeep .guard (by decide)).trans (hsu .guard (by decide)), keepsBut_trans (keepsBut_mono hsu (by decide)) (keepsBut_mono hkeep (by decide))⟩
  rw [scopeSt, hcore, ← hu, State.modCore_core]
  dsimp only
  rw [scopeSt]
  by_cases hk : k < s.core.scope.length
  · rw [List.getD_eq_getElem _ _ (by simpa using hk), List.getElem_map, List.getD_eq_getElem _ _ hk]
    exact if_congr beq_iff_eq rfl rfl
  · rw [List.getD_eq_default _ _ (by simpa using hk), List.getD_eq_default _ _ (not_lt.1 hk), if_neg (by decide)]

theorem isRaised_closeWindow {c a : Nat} {s : State} (h : s.isRaised c a = true) : (closeWindow s).isRaised c a = true := by
  have hraise : ∀ (l : List Nat) (u : State), u.isRaised c a = true → (forEach l (fun k s => s.raise 0x5008 (scopeArg k)) u).isRaised c a = true := by
    intro l
    induction l with
    | nil => exact fun _ h => h
    | cons k l ih => exact fun u h => ih _ (isRaised_raise_of_isRaised h _ _)
  exact hraise _ _ h

theorem resetN_unheld : ∀ t tf tr s, guardUp s = true → (t < tf + 20000000 → Completes (.resetNFall t tf) s fun r => r.guard.tF = s.guard.tF ∧ r.guard.resetHigh = s.guard.resetHigh) ∧
    (t < tr + 20000000 → Completes (.resetNRise t tr) s fun r => r.guard.tF = s.guard.tF ∧ r.guard.press = s.guard.press ∧ r.guard.resetHigh = s.guard.resetHigh) := by
  intro t tf tr s hup
  refine ⟨fun hheld => ⟨guardEval (s.at_ t), congrArg Host.Outcome.next ((guardDo_eq hup _).trans (congrArg guardEval (if_pos hheld))), ?_, ?_⟩,
    fun hheld => ⟨guardEval (s.at_ t), congrArg Host.Outcome.next ((guardDo_eq hup _).trans (congrArg guardEval ?_)), ?_, ?_, ?_⟩⟩
  · exact guardEval_tF (s.at_ t)
  · exact guardEval_resetHigh (s.at_ t)
  · dsimp only
    split
    · exact if_pos hheld
    · exact if_pos hheld
  · exact guardEval_tF (s.at_ t)
  · exact guardEval_press (s.at_ t)
  · exact guardEval_resetHigh (s.at_ t)

theorem resetNFall_noted : ∀ t tf s, guardUp s = true → tf + 20000000 ≤ t →
    Completes (.resetNFall t tf) s fun r => r.guard.tF = (if s.guard.stuck then none else some tf) ∧ r.guard.resetHigh = false ∧ r.guard.resetAt = tf ∧ keepsBut [.time, .est, .guard] s r := by
  intro t tf s hup hheld
  refine ⟨guardEval ((s.at_ t).modGuard fun g => { g with resetHigh := false, resetAt := tf, tF := if g.stuck then none else some tf }),
    congrArg Host.Outcome.next ((guardDo_eq hup _).trans (congrArg guardEval (if_neg (not_lt.2 hheld)))), ?_, ?_, ?_, guardEval_modGuard_frame t _ s⟩
  · rw [guardEval_tF]
    rfl
  · rw [guardEval_resetHigh]
    rfl
  · rw [guardEval_resetAt]
    rfl

theorem resetNRise_short : ∀ t tr f s, s.up = true → guardUp s = true → s.guard.stuck = false → s.guard.tF = some f → tr < f + 200000000 → tr + 20000000 ≤ t →
    Completes (.resetNRise t tr) s fun r =>
      r.guard.press = s.guard.press ∧ r.guard.tF = none ∧ r.recorder = (State.raise 0x5005 0 (s.at_ t)).recorder ∧ keepsBut [.time, .est, .guard, .recorder] s r := by
  intro t tr f s hup hgup hstuck hf hshort hheld
  let u := (s.at_ t).modGuard fun g => { g with resetHigh := true, resetAt := tr, tF := none }
  have hexec : exec (.resetNRise t tr) s = .next (guardEval (gRaise 0x5005 0 u)) := by
    refine congrArg Host.Outcome.next ((guardDo_eq hgup _).trans (congrArg guardEval ?_))
    dsimp only
    rw [show (s.at_ t).guard.tF = some f from hf]
    dsimp only
    rw [if_neg (not_lt.2 hheld), if_neg (by rw [show (s.at_ t).guard.stuck = false from hstuck]; decide), if_pos hshort]
  have hr := gRaise_frame 0x5005 0 u
  have hguard : (gRaise 0x5005 0 u).guard = u.guard := hr .guard (by decide)
  have hrec : (guardEval (gRaise 0x5005 0 u)).recorder = (gRaise 0x5005 0 u).recorder := guardEval_frame _ .recorder (by decide)
  refine ⟨_, hexec, ?_, ?_, ?_, ?_⟩
  · rw [guardEval_press, hguard]
    rfl
  · rw [guardEval_tF, hguard]
    rfl
  · rw [hrec, gRaise, if_pos (show u.up = true from hup)]
    rfl
  · exact keepsBut_mono (guardEval_at_frame (keepsBut_trans (s := s.at_ t) (t := u) (ps := [.guard, .recorder]) (by simp +decide [u]) (keepsBut_mono hr (by decide)))) (by decide)

theorem stuckReset_stuck : ∀ t f s, s.up = true → guardUp s = true → s.guard.resetHigh = false → s.guard.tF = some f → f + 5000000000 ≤ t →
    Completes (.stuckReset t) s fun r =>
      r.guard.stuck = true ∧ r.guard.press = none ∧ r.guard.tF = none ∧ r.core.tAcc = none ∧ r.isRaised 0x5009 0 = true ∧ (∀ k, scopeSt r k ≠ .resetArmed) ∧
      (∀ k, scopeSt s k ≠ .resetArmed → scopeSt r k = scopeSt s k) ∧ keepsBut [.time, .est, .guard, .core, .recorder] s r := by
  intro t f s hup hgup hlow hf hdue
  let u := (s.at_ t).modGuard fun g => { g with stuck := true, tF := none, press := none }
  have hexec : exec (.stuckReset t) s = .next (guardEval (closeWindow (gRaise 0x5009 0 u))) := by
    refine congrArg Host.Outcome.next ((guardDo_eq hgup _).trans (congrArg guardEval ?_))
    rw [show (s.at_ t).guard.tF = some f from hf]
    dsimp only
    rw [if_pos]
    rw [show (s.at_ t).guard.resetHigh = false from hlow, Bool.not_false, Bool.true_and]
    exact decide_eq_true (hdue.trans (le_max_right _ _))
  have hr := gRaise_frame 0x5009 0 u
  have hraised := isRaised_gRaise (c := 0x5009) 0 (show u.up = true from hup) (by decide)
  have hu : keepsBut [.guard] (s.at_ t) u := by simp +decide [u]
  have hug : u.guard.stuck = true ∧ u.guard.press = none ∧ u.guard.tF = none := ⟨rfl, rfl, rfl⟩
  have hcore : (gRaise 0x5009 0 u).core = s.core := (hr .core (by decide)).trans (hu .core (by decide))
  have hguard : (gRaise 0x5009 0 u).guard = u.guard := hr .guard (by decide)
  clear_value u
  generalize gRaise 0x5009 0 u = v at *
  obtain ⟨hacc, hscope, hcg, hck⟩ := closeWindow_facts v
  have hsame : ∀ k, scopeSt v k = scopeSt s k := fun k => by rw [scopeSt, hcore, scopeSt]
  obtain ⟨hstuck, hpress, htF⟩ := hug
  refine ⟨_, hexec, ?_, ?_, ?_, ?_, ?_, fun k => ?_, fun k hk => ?_, ?_⟩
  · rw [guardEval_stuck, hcg, hguard, hstuck]
  · rw [guardEval_press, hcg, hguard, hpress]
  · rw [guardEval_tF, hcg, hguard, htF]
  · have hc : (guardEval (closeWindow v)).core = (closeWindow v).core := guardEval_frame _ .core (by decide)
    rw [hc, hacc]
  · rw [isRaised_of_keepsBut (guardEval_frame _) (by decide)]
    exact isRaised_closeWindow hraised
  · rw [scopeSt_guardEval, hscope]
    split
    · decide
    · assumption
  · rw [scopeSt_guardEval, hscope, hsame, if_neg hk]
  · exact keepsBut_mono (guardEval_at_frame (keepsBut_trans (keepsBut_mono (qs := [.guard, .core, .recorder]) hu (by decide))
      (keepsBut_trans (keepsBut_mono hr (by decide)) (keepsBut_mono hck (by decide))))) (by decide)

theorem stuckResetClear_clears : ∀ t s, guardUp s = true → s.guard.resetHigh = true → s.guard.resetAt + 1000000000 ≤ t →
    Completes (.stuckResetClear t) s fun r => r.guard.stuck = false ∧ r.guard.inFault = false ∧ r.isRaised 0x5009 0 = false ∧ keepsBut [.time, .est, .guard, .recorder] s r := by
  intro t s hup hhigh hdue
  let u := (s.at_ t).modGuard fun g => { g with stuck := false, inFault := false }
  have hexec : exec (.stuckResetClear t) s = .next (guardEval (u.clear 0x5009 0)) := by
    refine congrArg Host.Outcome.next ((guardDo_eq hup _).trans (congrArg guardEval (if_pos ?_)))
    rw [show (s.at_ t).guard.resetHigh = true from hhigh, Bool.true_and]
    exact decide_eq_true (hdue.trans (le_max_right _ _))
  refine ⟨_, hexec, ?_, ?_, ?_, keepsBut_mono (guardEval_at_frame (t := t) (ps := [.guard, .recorder]) (by simp +decide [u])) (by decide)⟩
  · rw [guardEval_stuck, clear_guard]
    rfl
  · rw [guardEval_inFault, clear_guard]
    rfl
  · rw [isRaised_of_keepsBut (guardEval_frame _) (by decide), isRaised_clear]

theorem resetWindowClose_closes : ∀ t a s, s.running = true → s.core.tAcc = some a → a + 10020000000 < t → (∀ f p, s.guard.press = some (f, p) → a + 10000000000 < pressEnd s p) →
    Completes (.resetWindowClose t) s fun r =>
      r.core.tAcc = none ∧ (∀ k, scopeSt r k = if scopeSt s k = .resetArmed then .locked else scopeSt s k) ∧ keepsBut [.time, .core, .recorder] s r := by
  intro t a s hrun hacc hdue hpress
  have hnow : t ≤ (s.at_ t).time.now := le_max_right _ _
  have hrun' : (s.at_ t).running = true := hrun
  have hacc' : (s.at_ t).core.tAcc = some a := hacc
  have hpress' : ∀ f p, (s.at_ t).guard.press = some (f, p) → a + 10000000000 < pressEnd (s.at_ t) p := by
    intro f p hp
    rw [show pressEnd (s.at_ t) p = pressEnd s p from rfl]
    exact hpress f p hp
  obtain ⟨hnone, hscope, -, hkeep⟩ := closeWindow_facts (s.at_ t)
  have hframe : keepsBut [.time, .core, .recorder] s (closeWindow (s.at_ t)) := keepsBut_trans (t := s.at_ t) (by simp +decide) (keepsBut_mono hkeep (by decide))
  refine ⟨closeWindow (s.at_ t), ?_, hnone, hscope, hframe⟩
  show execResetWindowClose t s = _
  unfold execResetWindowClose
  dsimp only
  generalize s.at_ t = u at *
  have hlate : decide (u.time.now ≤ a + 10020000000) = false := decide_eq_false (by omega)
  have hdue' : decide (a + 10000000000 ≤ u.time.now) = true := decide_eq_true (by omega)
  rw [hacc']
  dsimp only
  refine if_pos ?_
  rw [hlate, hdue', hrun', Bool.and_false, Bool.false_or, Bool.and_true, Bool.true_and, Bool.not_eq_true']
  cases hp : u.guard.press with
  | none => rfl
  | some p => exact decide_eq_false (not_le.2 (hpress' p.1 p.2 hp))

/-- The conditions of a reset request (R330). -/
theorem resetReason_eq_zero_iff (s : State) (named : List Nat) : resetReason s named = 0 ↔
    (∀ k ∈ named, scopeSt s k = .locked ∧ scopeHazards s k = 0) ∧ s.guard.resetHigh = true ∧ s.guard.stuck = false ∧ s.guard.inFault = false ∧ s.core.scvOk = true := by
  have hlocked : (named.all fun k => scopeSt s k == .locked) = true ↔ ∀ k ∈ named, scopeSt s k = .locked := by simp
  have hhaz : (named.any fun k => scopeHazards s k != 0) = false ↔ ∀ k ∈ named, scopeHazards s k = 0 := by simp
  have hpin : resetPinOk s = true ↔ s.guard.resetHigh = true ∧ s.guard.stuck = false ∧ s.guard.inFault = false := by simp [resetPinOk, and_assoc]
  have hstep : ∀ (c : Bool) (i x : Nat), i ≠ 0 → ((if c then i else x) = 0 ↔ c = false ∧ x = 0) := by
    rintro (_ | _) i x hi <;> simp [hi]
  rw [resetReason, hstep _ _ _ (by decide), hstep _ _ _ (by decide), hstep _ _ _ (by decide), hstep _ _ _ (by decide), Bool.not_eq_false', Bool.not_eq_false', Bool.not_eq_false',
    hlocked, hhaz, hpin]
  constructor
  · rintro ⟨hl, ⟨h1, h2, h3⟩, hscv, hz, -⟩
    exact ⟨fun k hk => ⟨hl k hk, hz k hk⟩, h1, h2, h3, hscv⟩
  · rintro ⟨hall, h1, h2, h3, hscv⟩
    exact ⟨fun k hk => (hall k hk).1, ⟨h1, h2, h3⟩, hscv, fun k hk => (hall k hk).2, rfl⟩

theorem mem_named (mask k : Nat) : ((List.range 5).filter fun k => bit mask k).contains k = (decide (k < 5) && bit mask k) := by
  rw [Bool.eq_iff_iff, List.contains_iff_mem, List.mem_filter, List.mem_range, Bool.and_eq_true, decide_eq_true_eq]

theorem resetRequest_arms : ∀ mask request ts s,
    let named := (List.range 5).filter fun k => bit mask k
    (resetReason s named = 0 ↔
      (∀ k ∈ named, scopeSt s k = .locked ∧ scopeHazards s k = 0) ∧ s.guard.resetHigh = true ∧ s.guard.stuck = false ∧ s.guard.inFault = false ∧ s.core.scvOk = true) ∧
    (resetReason s named = 0 → s.core.scope.length = 5 →
      let r := resetRequest mask request ts s
      r.core.tAcc = some ts ∧ r.core.lastReq = request ∧ (∀ k, k < 5 → scopeSt r k = if bit mask k then .resetArmed else scopeSt s k) ∧ keepsBut [.core, .recorder] s r) ∧
    (resetReason s named ≠ 0 → resetRequest mask request ts s = State.raise 0x5004 (evArg (resetReason s named) 0) s) := by
  intro mask request ts s named
  refine ⟨resetReason_eq_zero_iff s named, fun hok hlen => ?_, fun hno => ?_⟩
  · have hreq : resetRequest mask request ts s = (s.modCore fun c => { c with tAcc := some ts, lastReq := request, scope := c.scope.mapIdx fun k st => if named.contains k then .resetArmed else st }).raise 0x5003 0 :=
      if_neg (by rw [hok]; decide)
    dsimp only
    rw [hreq]
    refine ⟨rfl, rfl, fun k hk => ?_, by simp +decide⟩
    refine (getD_mapIdx _ Scope.start _ (show k < s.core.scope.length by omega)).trans ?_
    rw [mem_named, decide_eq_true hk, Bool.true_and]
    rfl
  · exact if_pos (bne_iff_ne.2 hno)

/-- Settles O30, clause by clause. -/
theorem resetInput : Obligations.ResetInput :=
  ⟨resetN_unheld, resetNFall_noted, resetNRise_short, stuckReset_stuck, stuckResetClear_clears, resetWindowClose_closes, resetRequest_arms⟩

end Sys2Proof.Machine
end

section
/-!
PROOF. SafetyEvaluation: in the frames of Start an evaluation decides no reset (R323), so a press that the Guard holds stays with it.
-/
namespace Sys2Proof.Machine

/-- The stages that read the Guard's status port take its sticky bits and leave a press where it is. -/
theorem readSticky_press (s : State) : (readSticky s).guard.press = s.guard.press := by
  have hk : keepsBut [.core, .recorder] (s.modGuard fun g => { g with sticky := List.replicate 5 0 }) (readSticky s) := by
    unfold readSticky
    exact (keepsBut_forEach_iff (fun _ _ => by simp +decide) _ _ _).2 (keepsBut_refl _ _)
  have hguard : (readSticky s).guard = _ := hk .guard (by decide)
  rw [hguard]
  rfl

/-- Before Start has ended an evaluation reads no press (R323, R333). -/
theorem safetyEvaluation_press_of_not_running {s : State} (hrun : s.running = false) (ok : Bool) : (safetyEvaluation ok s).guard.press = s.guard.press := by
  unfold safetyEvaluation
  extract_lets g upTo s1 s2 s3 s5 s6
  have h3 : keepsBut [.core, .recorder] (readSticky s) s3 := by simp +decide [s1, s2, s3]
  have h5 : s5 = s3 := if_neg (by rw [hrun]; decide)
  have h6 : keepsBut [.time, .core, .recorder, .boot, .can, .out] s3 (fslStatus g (s6.modCore fun c => { c with evalDone := true })) := by
    simp +decide [s6, h5]
  rw [h6 .guard (by decide), h3 .guard (by decide), readSticky_press]

theorem execSafetyEvaluation_of_evaluating {t : Nat} {ok : Bool} {s : State} (hev : evaluating s = true) (hfrom : s.frameStart + 5000000 ≤ t)
    (hto : t ≤ s.frameStart + 6000000) : execSafetyEvaluation t ok s = .next (safetyEvaluation ok (s.at_ t)) := by
  have hev' : evaluating (s.at_ t) = true := hev
  have hfs : (s.at_ t).frameStart = s.frameStart := rfl
  simp [execSafetyEvaluation, hev', hfs, hfrom, hto]

/-- A frame of Start with the safety core configured, while the Guard holds a press. -/
def pressInStart : State :=
  let s := Tests.run0
  { s with boot := { s.boot with phase := .start }, time := { s.time with framesOn := true }
           core := { s.core with evalDone := false, params := some [] }, guard := { s.guard with press := some (0, 1) } }

/-- Refutes O31: in the frames of Start the evaluation of the safety core leaves the press that the Guard holds. -/
theorem not_safetyEvaluation : ¬ Obligations.SafetyEvaluation := by
  rintro ⟨evaluates, -⟩
  have hgo : evaluating pressInStart = true ∧ pressInStart.frameStart + 5000000 ≤ pressInStart.frameStart + 5000000 ∧
      pressInStart.frameStart + 5000000 ≤ pressInStart.frameStart + 6000000 := by decide +kernel
  obtain ⟨hev, hfrom, hto⟩ := hgo
  obtain ⟨r, hr, -, -, -, -, -, hpress, -⟩ := evaluates _ true pressInStart hev hfrom hto
  have hexec := execSafetyEvaluation_of_evaluating (ok := true) hev hfrom hto
  obtain rfl := Host.Outcome.next.inj (hexec.symm.trans hr)
  rw [safetyEvaluation_press_of_not_running rfl] at hpress
  exact absurd hpress (by decide)

end Sys2Proof.Machine
end

section
/-!
PROOF. SafetyLayerUnits: a connection in Start is left there by a unit that passes every check (Table 12-6).
-/
namespace Sys2Proof.Machine

theorem acceptUnit_of_start {k : Nat} {s : State} (h : (fslConn s k).st = .start) (u : FslUnit) : acceptUnit k u s = s := by simp [acceptUnit, h]

/-- A unit of a check that is no trip, on a connection in Start, changes nothing. -/
theorem checkUnit_of_start {k : Nat} {u : FslUnit} {s : State} (hcrc : fslCrcOk (connId s k) u.bytes = true) (htype : typeOk k u.bytes = true)
    (htrip : pduType u.bytes ≠ 2) (hwd : wdOk s u.bytes = true) (hstart : (fslConn s k).st = .start) : checkUnit k u s = s := by
  have hdist : seqDist (fslConn s k) u.bytes = none := by simp [seqDist, hstart]
  simp [checkUnit, hcrc, htype, htrip, hwd, hdist, acceptUnit_of_start hstart]

/-- The module configures the ID 0x99 for connection 5, which stands in Start. -/
def connInStart : State :=
  let s := Tests.run0
  { s with core := { s.core with params := some [({ p := .safeFslTrip, i := 1 }, 0x99)], conns := List.replicate 8 { st := .start } } }

/-- A unit of type 1 for that connection. -/
def unitInStart : FslUnit := { bytes := fslPdu 0x99 44 500 1 [], can := false, ts := 5 }

/-- The state and the unit meet every hypothesis of the clause on a unit that passes every check. -/
theorem connInStart_meets :
    connInStart.core.conns.length = 8 ∧ fslCrcOk (connId connInStart 5) unitInStart.bytes = true ∧ typeOk 5 unitInStart.bytes = true ∧ wdOk connInStart unitInStart.bytes = true ∧
      seqDist (fslConn connInStart 5) unitInStart.bytes = none ∧ pduType unitInStart.bytes ≠ 2 := by
  decide +kernel

/-- Refutes O33: a unit that passes every check does not set a connection in Start running. -/
theorem not_safetyLayerUnits : ¬ Obligations.SafetyLayerUnits := by
  rintro ⟨-, -, -, -, -, -, -, accepts⟩
  obtain ⟨hlen, hcrc, htype, hwd, hdist, htrip⟩ := connInStart_meets
  obtain ⟨hst, -⟩ := accepts 5 unitInStart connInStart (by decide) hlen hcrc htype hwd hdist
  rw [checkUnit_of_start hcrc htype htrip hwd rfl] at hst
  exact absurd hst (by decide)

end Sys2Proof.Machine
end

section
/-!
PROOF. CanPorts: the ports of the CAN bus by the rule of one port, and SETPOINT by what its flags mark valid.
-/
namespace Sys2Proof.Machine

theorem canPort_updPort_same {p : Nat} {s : State} (hp : p < s.can.ports.length) (f : CanPort → CanPort) : canPort (updPort p f s) p = f (canPort s p) :=
  (canPort_updPort ..).trans (if_pos ⟨rfl, hp⟩)

theorem canPort_updPort_other {p q : Nat} (h : q ≠ p) (f : CanPort → CanPort) (s : State) : canPort (updPort p f s) q = canPort s q :=
  (canPort_updPort ..).trans (if_neg fun hc => h hc.1.symm)

theorem canPort_of_can {s t : State} (h : t.can = s.can) (p : Nat) : canPort t p = canPort s p := by rw [canPort, h, canPort]

/-- Only port p changes, as f says, and no other part of the CAN state. -/
def portDone (p : Nat) (f : CanPort → CanPort) (s t : State) : Prop :=
  canPort t p = f (canPort s p) ∧ (∀ j, j ≠ p → canPort t j = canPort s j) ∧ { t.can with ports := s.can.ports } = s.can

theorem portDone_updPort {p : Nat} {s : State} (hp : p < s.can.ports.length) (f : CanPort → CanPort) : portDone p f s (updPort p f s) :=
  ⟨canPort_updPort_same hp f, fun _ hj => canPort_updPort_other hj f s, rfl⟩

theorem portDone_of_can {p : Nat} {f : CanPort → CanPort} {s t u : State} (h : portDone p f s t) (hu : u.can = t.can) : portDone p f s u := by
  obtain ⟨hp, ho, hc⟩ := h
  exact ⟨(canPort_of_can hu p).trans hp, fun j hj => (canPort_of_can hu j).trans (ho j hj), by rw [hu, hc]⟩

/-- What a received frame does, by the FIFO of its identifier (R422). -/
theorem storeFrame_fifo0 {p : Nat} {f : CanFrame} {s : State} (hc : idClass s f.ext f.id = 1 ∨ idClass s f.ext f.id = 2 ∨ idClass s f.ext f.id = 3)
    (hroom : (canPort s p).fifo0.length < 64) : storeFrame p f s = updPort p (fun x => { x with fifo0 := x.fifo0 ++ [f] }) s := by
  rcases hc with hc | hc | hc <;> simp [storeFrame, hc, not_le.2 hroom]

theorem storeFrame_full {p : Nat} {f : CanFrame} {s : State} (hc : idClass s f.ext f.id = 1 ∨ idClass s f.ext f.id = 2 ∨ idClass s f.ext f.id = 3)
    (hfull : 64 ≤ (canPort s p).fifo0.length) : storeFrame p f s = (updPort p (fun x => { x with overflow := x.overflow + 1 }) s).raiseRound 0x6033 p := by
  rcases hc with hc | hc | hc <;> simp [storeFrame, hc, hfull]

theorem storeFrame_fifo1 {p : Nat} {f : CanFrame} {s : State} (hc : idClass s f.ext f.id = 4) (hp : s.parN .canCoPort = p) (hroom : (canPort s p).fifo1.length < 64) :
    storeFrame p f s = updPort p (fun x => { x with fifo1 := x.fifo1 ++ [f] }) s := by
  simp [storeFrame, hc, hp, not_le.2 hroom]

theorem execCanFrameReceived_eq {sof ts : Nat} {p : Fin 2} {id : Nat} {ext : Bool} {data : List (BitVec 8)} {s : State} (hup : s.up = true) (hears : portHears s p.val = true) :
    exec (.canFrameReceived sof ts p id ext false data) s = .next (storeFrame p.val { id := id, ext := ext, data := data, sof := sof, ts := ts } (s.at_ ts)) :=
  if_pos (by
    have hup' : (s.at_ ts).up = true := hup
    have hears' : portHears (s.at_ ts) p.val = true := hears
    rw [hup', hears']
    rfl)

/-- Entries that leave a transmit queue are reported, and the CAN state stays (R421). -/
theorem forEach_raise_can {α : Type} (l : List α) (c a : Nat) (s : State) : (forEach l (fun _ s => State.raise c a s) s).can = s.can ∧
    keepsBut [.recorder] s (forEach l (fun _ s => State.raise c a s) s) := by
  induction l generalizing s with
  | nil => exact ⟨rfl, keepsBut_refl _ _⟩
  | cons x l ih =>
    obtain ⟨hcan, hkeep⟩ := ih (s.raise c a)
    exact ⟨hcan, keepsBut_trans (t := s.raise c a) (by simp +decide) hkeep⟩

/-- Port p without the entries that are past their time. -/
def purgePort (t p : Nat) (s : State) : State :=
  forEach ((canPort s p).tx.filter (txExpired t)) (fun _ s => s.raise 0x603E p) (updPort p (fun x => { x with tx := x.tx.filter fun e => !txExpired t e }) s)

theorem purgePort_facts {t p : Nat} {s : State} (hp : p < s.can.ports.length) :
    portDone p (fun x => { x with tx := x.tx.filter fun e => !txExpired t e }) s (purgePort t p s) ∧ (purgePort t p s).can.ports.length = s.can.ports.length ∧
      keepsBut [.can, .recorder] s (purgePort t p s) := by
  obtain ⟨hcan, hkeep⟩ := forEach_raise_can ((canPort s p).tx.filter (txExpired t)) 0x603E p (updPort p (fun x => { x with tx := x.tx.filter fun e => !txExpired t e }) s)
  refine ⟨portDone_of_can (portDone_updPort hp _) hcan, ?_, keepsBut_trans (t := updPort p (fun x => { x with tx := x.tx.filter fun e => !txExpired t e }) s) (by simp +decide) (keepsBut_mono hkeep (by decide))⟩
  exact (congrArg (fun c : CanState => c.ports.length) hcan).trans (length_updAt ..)

/-- The port's controller enters a state: the port follows it (R423). -/
theorem errorState_port {t : Nat} {p : Fin 2} {s : State} (hlen : s.can.ports.length = 2) (f : CanPort → CanPort) (u : State) (hu : u.can = (updPort p.val f (s.at_ t)).can) :
    canPort u p.val = f (canPort s p.val) ∧ ∀ j, j ≠ p.val → canPort u j = canPort s j := by
  have hdone : portDone p.val f (s.at_ t) u := portDone_of_can (portDone_updPort (by rw [at_can, hlen]; exact p.isLt) f) hu
  obtain ⟨hsame, hother, -⟩ := hdone
  exact ⟨hsame, hother⟩

/-- A frame can be taken only from a port that there is. -/
theorem lt_of_takeFrame {p : Nat} {ok : CanFrame → Bool} {s : State} {x : CanFrame × List CanFrame} (h : takeFrame ok (canPort s p).fifo0 = some x) : p < s.can.ports.length := by
  by_contra hge
  have hnone : (canPort s p).fifo0 = [] := by rw [canPort, List.getD_eq_default _ _ (not_lt.1 hge)]
  rw [hnone] at h
  exact absurd h (by simp [takeFrame])

/-- SETPOINT without its oldest frame in FIFO 0 (R424). -/
def tookFrame (t p : Nat) (rest : List CanFrame) (s : State) : State := updPort p (fun x => { x with fifo0 := rest }) (s.at_ t)

theorem tookFrame_frame (t p : Nat) (rest : List CanFrame) (s : State) : keepsBut [.time, .can] s (tookFrame t p rest s) := by simp +decide [tookFrame]

theorem execSetpoint_eq {t : Nat} {p : Fin 2} {f : CanFrame} {rest : List CanFrame} {s : State} (hup : s.up = true)
    (h : takeFrame (fun f => idClass s f.ext f.id == 1) (canPort s p.val).fifo0 = some (f, rest)) :
    exec (.setpoint t p) s =
      if f.data.length != 12 then .next (rejectLength p.val (tookFrame t p.val rest s))
      else if isCopy s f.id (ofLE ((f.data.drop 8).take 1)) f.ts then .next (tookFrame t p.val rest s)
      else .next (useSetpoint f.data f.ts (noteCopy f.id (ofLE ((f.data.drop 8).take 1)) f.ts (tookFrame t p.val rest s))) := by
  show execSetpoint t p s = _
  have h' : takeFrame (fun f => idClass (s.at_ t) f.ext f.id == 1) (canPort (s.at_ t) p.val).fifo0 = some (f, rest) := h
  have hup' : (s.at_ t).up = true := hup
  unfold execSetpoint
  simp only [h', hup', Bool.not_true, Bool.false_eq_true, if_false]
  rfl

theorem isCopy_noteCopy (id cnt ts : Nat) (s : State) : isCopy (noteCopy id cnt ts s) id cnt ts = true := by
  simp [isCopy, noteCopy]

theorem holdBus_frame (w : Int) (t : Nat) (s : State) : keepsBut [.disp, .recorder] s (holdBus w t s) := by simp +decide

/-- A set-point within the limit is held; one beyond it is only reported (R268). -/
theorem holdBus_within {w : Int} {t : Nat} {s : State} (h : ¬pMax s < ratAbs (w : Rat)) : holdBus w t s = s.modDisp fun d => { d with busHeld := (w, t) :: d.busHeld } := if_neg h
theorem holdBus_beyond {w : Int} {t : Nat} {s : State} (h : pMax s < ratAbs (w : Rat)) : holdBus w t s = s.raise 0x4022 0 := if_pos h

/-- A set-point is taken where its flag is set and it lies within the limit (Table 15-5). -/
def takenSetpoint (d : List Byte) (ts : Nat) (s : State) : State :=
  if bit (ofLE ((d.drop 9).take 1)) 0 then holdBus (signed 32 (ofLE (d.take 4))) ts s else s

theorem takenSetpoint_frame (d : List Byte) (ts : Nat) (s : State) : keepsBut [.disp, .recorder] s (takenSetpoint d ts s) := by
  unfold takenSetpoint
  split
  · exact holdBus_frame _ _ _
  · exact keepsBut_refl _ _

theorem takenSetpoint_allowBus (d : List Byte) (ts : Nat) (s : State) : (takenSetpoint d ts s).disp = { s.disp with busHeld := (takenSetpoint d ts s).disp.busHeld } := by
  unfold takenSetpoint holdBus
  split
  · split <;> rfl
  · rfl

/-- The set-point is held where its flag is set and it lies within the limit, and reported where it lies beyond (R268). -/
theorem takenSetpoint_facts (d : List Byte) (ts : Nat) (s : State) :
    (bit (ofLE ((d.drop 9).take 1)) 0 = true → ¬pMax s < ratAbs ((signed 32 (ofLE (d.take 4)) : Int) : Rat) →
      (takenSetpoint d ts s).disp.busHeld = (signed 32 (ofLE (d.take 4)), ts) :: s.disp.busHeld) ∧
    (bit (ofLE ((d.drop 9).take 1)) 0 = false ∨ pMax s < ratAbs ((signed 32 (ofLE (d.take 4)) : Int) : Rat) → (takenSetpoint d ts s).disp.busHeld = s.disp.busHeld) ∧
    (bit (ofLE ((d.drop 9).take 1)) 0 = true → pMax s < ratAbs ((signed 32 (ofLE (d.take 4)) : Int) : Rat) →
      (takenSetpoint d ts s).recorder = (State.raise 0x4022 0 s).recorder) ∧
    (bit (ofLE ((d.drop 9).take 1)) 0 = false ∨ ¬pMax s < ratAbs ((signed 32 (ofLE (d.take 4)) : Int) : Rat) → (takenSetpoint d ts s).recorder = s.recorder) := by
  unfold takenSetpoint
  cases bit (ofLE ((d.drop 9).take 1)) 0
  · exact ⟨fun h => absurd h (by decide), fun _ => rfl, fun h => absurd h (by decide), fun _ => rfl⟩
  by_cases hb : pMax s < ratAbs ((signed 32 (ofLE (d.take 4)) : Int) : Rat)
  · rw [if_pos rfl, holdBus_beyond hb]
    exact ⟨fun _ h => absurd hb h, fun _ => rfl, fun _ _ => rfl, fun h => absurd hb (h.resolve_left (by decide))⟩
  · rw [if_pos rfl, holdBus_within hb]
    exact ⟨fun _ _ => rfl, fun h => absurd (h.resolve_left (by decide)) hb, fun _ h => absurd h hb, fun _ => rfl⟩

/-- What a SETPOINT changes: the set-point held and the allowances held (Table 15-5). -/
theorem useSetpoint_disp (d : List Byte) (ts : Nat) (s : State) :
    (useSetpoint d ts s).disp = { (takenSetpoint d ts s).disp with
      allowBus := (if bit (ofLE ((d.drop 9).take 1)) 1 then [((ofLE ((d.drop 4).take 2), ofLE ((d.drop 6).take 2)), ts)] else []) ++ s.disp.allowBus } := by
  have hallow : (takenSetpoint d ts s).disp.allowBus = s.disp.allowBus := by rw [takenSetpoint_allowBus]
  show (if bit (ofLE ((d.drop 9).take 1)) 1 then _ else takenSetpoint d ts s).disp = _
  rw [← hallow]
  split <;> rfl

theorem useSetpoint_keep (d : List Byte) (ts : Nat) (s : State) : keepsBut [.disp] (takenSetpoint d ts s) (useSetpoint d ts s) := by
  show keepsBut _ _ (if bit (ofLE ((d.drop 9).take 1)) 1 then holdAllowBus _ _ ts (takenSetpoint d ts s) else takenSetpoint d ts s)
  split
  · simp +decide
  · exact keepsBut_refl _ _

theorem canFrame_fifo0 : ∀ sof ts (p : Fin 2) id ext data s, s.up = true → portHears s p.val = true → s.can.ports.length = 2 →
    (idClass s ext id = 1 ∨ idClass s ext id = 2 ∨ idClass s ext id = 3) → (canPort s p.val).fifo0.length < 64 →
    Completes (.canFrameReceived sof ts p id ext false data) s fun r =>
      canPort r p.val = { canPort s p.val with fifo0 := (canPort s p.val).fifo0 ++ [{ id := id, ext := ext, data := data, sof := sof, ts := ts }] } ∧
      (∀ j, j ≠ p.val → canPort r j = canPort s j) ∧ { r.can with ports := s.can.ports } = s.can ∧ keepsBut [.time, .can] s r := by
  intro sof ts p id ext data s hup hears hlen hclass hroom
  have hdone := portDone_updPort (p := p.val) (s := s.at_ ts) (by rw [at_can, hlen]; exact p.isLt) fun x => { x with fifo0 := x.fifo0 ++ [{ id := id, ext := ext, data := data, sof := sof, ts := ts }] }
  obtain ⟨hsame, hother, hcan⟩ := hdone
  exact ⟨_, (execCanFrameReceived_eq hup hears).trans (congrArg Host.Outcome.next (storeFrame_fifo0 (s := s.at_ ts) hclass hroom)), hsame, hother, hcan, by simp +decide⟩

theorem canFrame_fifo1 : ∀ sof ts (p : Fin 2) id ext data s, s.up = true → portHears s p.val = true → s.can.ports.length = 2 →
    idClass s ext id = 4 → s.parN .canCoPort = p.val → (canPort s p.val).fifo1.length < 64 →
    Completes (.canFrameReceived sof ts p id ext false data) s fun r =>
      canPort r p.val = { canPort s p.val with fifo1 := (canPort s p.val).fifo1 ++ [{ id := id, ext := ext, data := data, sof := sof, ts := ts }] } ∧
      (∀ j, j ≠ p.val → canPort r j = canPort s j) ∧ { r.can with ports := s.can.ports } = s.can ∧ keepsBut [.time, .can] s r := by
  intro sof ts p id ext data s hup hears hlen hclass hport hroom
  have hdone := portDone_updPort (p := p.val) (s := s.at_ ts) (by rw [at_can, hlen]; exact p.isLt) fun x => { x with fifo1 := x.fifo1 ++ [{ id := id, ext := ext, data := data, sof := sof, ts := ts }] }
  obtain ⟨hsame, hother, hcan⟩ := hdone
  exact ⟨_, (execCanFrameReceived_eq hup hears).trans (congrArg Host.Outcome.next (storeFrame_fifo1 (s := s.at_ ts) hclass hport hroom)), hsame, hother, hcan, by simp +decide⟩

theorem canFrame_full : ∀ sof ts (p : Fin 2) id ext data s, s.up = true → portHears s p.val = true → s.can.ports.length = 2 →
    (idClass s ext id = 1 ∨ idClass s ext id = 2 ∨ idClass s ext id = 3) → 64 ≤ (canPort s p.val).fifo0.length →
    Completes (.canFrameReceived sof ts p id ext false data) s fun r =>
      canPort r p.val = { canPort s p.val with overflow := (canPort s p.val).overflow + 1 } ∧ r.recorder = (State.raiseRound 0x6033 p.val (s.at_ ts)).recorder ∧
      (∀ j, j ≠ p.val → canPort r j = canPort s j) ∧ keepsBut [.time, .can, .recorder] s r := by
  intro sof ts p id ext data s hup hears hlen hclass hfull
  have hdone := portDone_updPort (p := p.val) (s := s.at_ ts) (by rw [at_can, hlen]; exact p.isLt) fun x => { x with overflow := x.overflow + 1 }
  obtain ⟨hsame, hother, -⟩ := hdone
  exact ⟨_, (execCanFrameReceived_eq hup hears).trans (congrArg Host.Outcome.next (storeFrame_full (s := s.at_ ts) hclass hfull)), hsame, rfl, hother, by simp +decide⟩

theorem canFrame_remote : ∀ sof ts (p : Fin 2) id ext data s, exec (.canFrameReceived sof ts p id ext true data) s = .next (s.at_ ts) := by
  intro sof ts p id ext data s
  exact if_neg (by rw [Bool.not_true, Bool.and_false]; decide)

theorem canTxRemoval_removes : ∀ t s, s.up = true → s.can.ports.length = 2 →
    Completes (.canTxRemoval t) s fun r =>
      (∀ p, p < 2 → canPort r p = { canPort s p with tx := (canPort s p).tx.filter fun e => !txExpired t e }) ∧ { r.can with ports := s.can.ports } = s.can ∧
      keepsBut [.time, .can, .recorder] s r := by
  intro t s hup hlen
  have hexec : exec (.canTxRemoval t) s = .next (purgePort t 1 (purgePort t 0 (s.at_ t))) := if_pos hup
  obtain ⟨⟨hs0, ho0, hc0⟩, hl0, hk0⟩ := purgePort_facts (t := t) (p := 0) (s := s.at_ t) (by rw [at_can, hlen]; decide)
  obtain ⟨⟨hs1, ho1, hc1⟩, -, hk1⟩ := purgePort_facts (t := t) (p := 1) (s := purgePort t 0 (s.at_ t)) (by rw [hl0, at_can, hlen]; decide)
  refine ⟨_, hexec, fun p hp => ?_, ?_, ?_⟩
  · obtain rfl | rfl : p = 0 ∨ p = 1 := by omega
    · exact (ho1 0 (by decide)).trans hs0
    · rw [hs1, ho0 1 (by decide)]
      rfl
  · rw [at_can] at hc0
    rw [← hc0, ← hc1]
  · exact keepsBut_trans (t := s.at_ t) (by simp +decide) (keepsBut_mono (keepsBut_trans hk0 hk1) (by decide))

theorem canErrorState_busoff : ∀ t (p : Fin 2) s, s.up = true → s.can.ports.length = 2 → ((canPort s p.val).st = 1 ∨ (canPort s p.val).st = 2) →
    Completes (.canErrorState t p 2) s fun r =>
      (canPort r p.val) = { canPort s p.val with st := 3, recovering := false, offAt := some t, busoff := (canPort s p.val).busoff + 1 } ∧
      (∀ j, j ≠ p.val → canPort r j = canPort s j) ∧ r.isRaised 0x6031 p.val = true ∧ keepsBut [.time, .can, .recorder] s r := by
  intro t p s hup hlen hst
  have hexec : exec (.canErrorState t p 2) s = .next ((updPort p.val (fun x => { x with st := 3, recovering := false, offAt := some t, busoff := x.busoff + 1 }) (s.at_ t)).stand 0x6031 p.val true) := by
    refine if_neg ?_
    have hup' : (s.at_ t).up = true := hup
    have hport : canPort (s.at_ t) p.val = canPort s p.val := rfl
    rcases hst with hst | hst <;> rw [hup', hport, hst] <;> simp
  obtain ⟨hsame, hother⟩ := errorState_port (t := t) (p := p) hlen (fun x => { x with st := 3, recovering := false, offAt := some t, busoff := x.busoff + 1 }) _ (stand_can 0x6031 p.val true _)
  exact ⟨_, hexec, hsame, hother, isRaised_stand_true _ _ _ (by decide), by simp +decide⟩

theorem canErrorState_passive : ∀ t (p : Fin 2) s, s.up = true → s.can.ports.length = 2 → (canPort s p.val).st = 1 →
    Completes (.canErrorState t p 1) s fun r =>
      (canPort r p.val).st = 2 ∧ (∀ j, j ≠ p.val → canPort r j = canPort s j) ∧ r.isRaised 0x6030 p.val = true ∧ keepsBut [.time, .can, .recorder] s r := by
  intro t p s hup hlen hst
  have hexec : exec (.canErrorState t p 1) s = .next ((updPort p.val (fun x => { x with st := 2, recovering := false, offAt := none }) (s.at_ t)).stand 0x6030 p.val true) := by
    refine if_neg ?_
    have hup' : (s.at_ t).up = true := hup
    have hport : canPort (s.at_ t) p.val = canPort s p.val := rfl
    rw [hup', hport, hst]
    simp
  obtain ⟨hsame, hother⟩ := errorState_port (t := t) (p := p) hlen (fun x => { x with st := 2, recovering := false, offAt := none }) _ (stand_can 0x6030 p.val true _)
  exact ⟨_, hexec, congrArg CanPort.st hsame, hother, isRaised_stand_true _ _ _ (by decide), by simp +decide⟩

theorem canErrorState_active : ∀ t (p : Fin 2) s, s.up = true → s.can.ports.length = 2 → ((canPort s p.val).st = 2 ∨ (canPort s p.val).st = 3 ∧ (canPort s p.val).recovering = true) →
    Completes (.canErrorState t p 0) s fun r =>
      (canPort r p.val).st = 1 ∧ (∀ j, j ≠ p.val → canPort r j = canPort s j) ∧ r.isRaised 0x6030 p.val = false ∧ r.isRaised 0x6031 p.val = false ∧
      keepsBut [.time, .can, .recorder] s r := by
  intro t p s hup hlen hst
  have hexec : exec (.canErrorState t p 0) s =
      .next (((updPort p.val (fun x => { x with st := 1, recovering := false, offAt := none }) (s.at_ t)).clear 0x6030 p.val).clear 0x6031 p.val) := by
    refine if_neg ?_
    have hup' : (s.at_ t).up = true := hup
    have hport : canPort (s.at_ t) p.val = canPort s p.val := rfl
    rcases hst with hst | ⟨hst, hrec⟩
    · rw [hup', hport, hst]
      simp
    · rw [hup', hport, hst, hrec]
      simp
  obtain ⟨hsame, hother⟩ := errorState_port (t := t) (p := p) hlen (fun x => { x with st := 1, recovering := false, offAt := none }) _
    ((clear_can 0x6031 p.val _).trans (clear_can 0x6030 p.val _))
  refine ⟨_, hexec, congrArg CanPort.st hsame, hother, ?_, isRaised_clear _ _ _, by simp +decide⟩
  rw [isRaised_clear_of_ne (by simp), isRaised_clear]

theorem canBusoffRecovery_begins : ∀ t (p : Fin 2) a s, s.up = true → s.can.ports.length = 2 → (canPort s p.val).st = 3 → (canPort s p.val).offAt = some a → a + s.parN .canBusoffWait * 1000000 ≤ t →
    Completes (.canBusoffRecovery t p) s fun r =>
      (canPort r p.val) = { canPort s p.val with recovering := true } ∧ (∀ j, j ≠ p.val → canPort r j = canPort s j) ∧ keepsBut [.time, .can] s r := by
  intro t p a s hup hlen hst hoff hwait
  have hexec : exec (.canBusoffRecovery t p) s = .next (updPort p.val (fun x => { x with recovering := true }) (s.at_ t)) := by
    show execCanBusoffRecovery t p s = _
    unfold execCanBusoffRecovery
    have hup' : (s.at_ t).up = true := hup
    have hport : canPort (s.at_ t) p.val = canPort s p.val := rfl
    have hpar : (s.at_ t).parN .canBusoffWait = s.parN .canBusoffWait := rfl
    simp [hup', hport, hst, hoff, hpar, hwait]
  obtain ⟨hsame, hother⟩ := errorState_port (t := t) (p := p) hlen (fun x => { x with recovering := true }) _ rfl
  exact ⟨_, hexec, hsame, hother, by simp +decide⟩

theorem canAutobaud_found : ∀ t (p : Fin 2) s, s.up = true → s.can.ports.length = 2 → (canPort s p.val).st = 5 →
    Completes (.canAutobaud t p true) s fun r =>
      (canPort r p.val) = { canPort s p.val with st := 4, toNormal := s.parN .canPortMode p.val == 3 } ∧ (∀ j, j ≠ p.val → canPort r j = canPort s j) ∧
      r.recorder = (State.raise 0x6032 p.val (s.at_ t)).recorder ∧ keepsBut [.time, .can, .recorder] s r := by
  intro t p s hup hlen hst
  have hexec : exec (.canAutobaud t p true) s = .next ((updPort p.val (fun x => { x with st := 4, toNormal := s.parN .canPortMode p.val == 3 }) (s.at_ t)).raise 0x6032 p.val) := by
    have hup' : (s.at_ t).up = true := hup
    have hport : canPort (s.at_ t) p.val = canPort s p.val := rfl
    exact (if_neg (by rw [hup', hport, hst]; decide)).trans (if_pos rfl)
  obtain ⟨hsame, hother⟩ := errorState_port (t := t) (p := p) hlen (fun x => { x with st := 4, toNormal := s.parN .canPortMode p.val == 3 }) _ (raise_can 0x6032 p.val _)
  exact ⟨_, hexec, hsame, hother, rfl, by simp +decide⟩

theorem canAutobaud_next : ∀ t (p : Fin 2) s, s.up = true → s.can.ports.length = 2 → (canPort s p.val).st = 5 → (canPort s p.val).dwellAt + s.parN .canAutobaudDwell * 1000000 ≤ t →
    Completes (.canAutobaud t p false) s fun r =>
      (canPort r p.val) = { canPort s p.val with rate := nextBusRate (canPort s p.val).rate, dwellAt := t } ∧ (∀ j, j ≠ p.val → canPort r j = canPort s j) ∧
      keepsBut [.time, .can] s r := by
  intro t p s hup hlen hst hdwell
  have hexec : exec (.canAutobaud t p false) s = .next (updPort p.val (fun x => { x with rate := nextBusRate x.rate, dwellAt := t }) (s.at_ t)) := by
    have hup' : (s.at_ t).up = true := hup
    have hport : canPort (s.at_ t) p.val = canPort s p.val := rfl
    exact (if_neg (by rw [hup', hport, hst]; decide)).trans ((if_neg (by decide)).trans (if_pos hdwell))
  obtain ⟨hsame, hother⟩ := errorState_port (t := t) (p := p) hlen (fun x => { x with rate := nextBusRate x.rate, dwellAt := t }) _ rfl
  exact ⟨_, hexec, hsame, hother, by simp +decide⟩

theorem setpoint_used : ∀ t (p : Fin 2) f rest s, s.up = true → takeFrame (fun f => idClass s f.ext f.id == 1) (canPort s p.val).fifo0 = some (f, rest) → f.data.length = 12 →
    isCopy s f.id (ofLE ((f.data.drop 8).take 1)) f.ts = false →
    let flags := ofLE ((f.data.drop 9).take 1)
    let beyond := pMax s < ratAbs ((signed 32 (ofLE (f.data.take 4)) : Int) : Rat)
    Completes (.setpoint t p) s fun r =>
      (canPort r p.val).fifo0 = rest ∧ isCopy r f.id (ofLE ((f.data.drop 8).take 1)) f.ts = true ∧
      (bit flags 0 = true → ¬beyond → r.disp.busHeld = (signed 32 (ofLE (f.data.take 4)), f.ts) :: s.disp.busHeld) ∧
      (bit flags 0 = false ∨ beyond → r.disp.busHeld = s.disp.busHeld) ∧
      (bit flags 0 = true → beyond → r.recorder = (State.raise 0x4022 0 (s.at_ t)).recorder) ∧ (bit flags 0 = false ∨ ¬beyond → r.recorder = s.recorder) ∧
      r.disp.allowBus = (if bit flags 1 then [((ofLE ((f.data.drop 4).take 2), ofLE ((f.data.drop 6).take 2)), f.ts)] else []) ++ s.disp.allowBus ∧
      { r.disp with busHeld := s.disp.busHeld, allowBus := s.disp.allowBus } = s.disp ∧ keepsBut [.time, .can, .disp, .recorder] s r := by
  intro t p f rest s hup htake hlen hcopy flags beyond
  have hp := lt_of_takeFrame htake
  have hexec := (execSetpoint_eq (t := t) hup htake).trans ((if_neg (by rw [hlen]; decide)).trans (if_neg (by rw [hcopy]; decide)))
  generalize hu : noteCopy f.id (ofLE ((f.data.drop 8).take 1)) f.ts (tookFrame t p.val rest s) = u at hexec
  have hukeep : keepsBut [.time, .can] s u := by
    rw [← hu]
    simp +decide [tookFrame]
  have hport : (canPort u p.val).fifo0 = rest := by
    rw [← hu]
    exact congrArg CanPort.fifo0 (canPort_updPort_same (s := s.at_ t) hp fun x => { x with fifo0 := rest })
  have hnoted : isCopy u f.id (ofLE ((f.data.drop 8).take 1)) f.ts = true := by
    rw [← hu]
    exact isCopy_noteCopy ..
  have hrec : ∀ c a, (State.raise c a u).recorder = (State.raise c a (s.at_ t)).recorder := by
    subst hu
    exact fun _ _ => rfl
  have hpmax : pMax u = pMax s := by
    subst hu
    rfl
  clear hu
  have hdisp : u.disp = s.disp := hukeep .disp (by decide)
  have hrecorder : u.recorder = s.recorder := hukeep .recorder (by decide)
  have htaken := takenSetpoint_frame f.data f.ts u
  have hused := useSetpoint_keep f.data f.ts u
  have hcan : (useSetpoint f.data f.ts u).can = u.can := (hused .can (by decide)).trans (htaken .can (by decide))
  have hboth : (useSetpoint f.data f.ts u).recorder = (takenSetpoint f.data f.ts u).recorder := hused .recorder (by decide)
  obtain ⟨hheld, hkept, hbeyond, hquiet⟩ := takenSetpoint_facts f.data f.ts u
  rw [hpmax, hdisp] at hheld hkept
  rw [hpmax, hrec] at hbeyond
  rw [hpmax, hrecorder] at hquiet
  refine ⟨_, hexec, ?_, ?_, fun h1 h2 => ?_, fun h => ?_, fun h1 h2 => hboth.trans (hbeyond h1 h2), fun h => hboth.trans (hquiet h), ?_, ?_,
    keepsBut_trans (keepsBut_mono hukeep (by decide)) (keepsBut_mono (keepsBut_trans htaken (keepsBut_mono hused (by decide))) (by decide))⟩
  · rw [canPort_of_can hcan, hport]
  · exact (congrArg (fun c : CanState => c.recent.any _) hcan).trans hnoted
  · rw [useSetpoint_disp]
    exact hheld h1 h2
  · rw [useSetpoint_disp]
    exact hkept h
  · rw [useSetpoint_disp, hdisp]
  · rw [useSetpoint_disp, takenSetpoint_allowBus, hdisp]

theorem setpoint_copy : ∀ t (p : Fin 2) f rest s, s.up = true → takeFrame (fun f => idClass s f.ext f.id == 1) (canPort s p.val).fifo0 = some (f, rest) → f.data.length = 12 →
    isCopy s f.id (ofLE ((f.data.drop 8).take 1)) f.ts = true →
    Completes (.setpoint t p) s fun r => (canPort r p.val).fifo0 = rest ∧ keepsBut [.time, .can] s r := by
  intro t p f rest s hup htake hlen hcopy
  have hexec := (execSetpoint_eq (t := t) hup htake).trans ((if_neg (by rw [hlen]; decide)).trans (if_pos hcopy))
  exact ⟨_, hexec, congrArg CanPort.fifo0 (canPort_updPort_same (s := s.at_ t) (lt_of_takeFrame htake) fun x => { x with fifo0 := rest }), tookFrame_frame t p.val rest s⟩

theorem setpoint_length : ∀ t (p : Fin 2) f rest s, s.up = true → takeFrame (fun f => idClass s f.ext f.id == 1) (canPort s p.val).fifo0 = some (f, rest) → f.data.length ≠ 12 →
    Completes (.setpoint t p) s fun r =>
      canPort r p.val = { canPort s p.val with fifo0 := rest, lenRej := (canPort s p.val).lenRej + 1 } ∧ r.recorder = (State.raiseRound 0x6035 p.val (s.at_ t)).recorder ∧
      keepsBut [.time, .can, .recorder] s r := by
  intro t p f rest s hup htake hlen
  have hp := lt_of_takeFrame htake
  have hexec := (execSetpoint_eq (t := t) hup htake).trans (if_pos (bne_iff_ne.2 hlen))
  refine ⟨_, hexec, ?_, rfl, by simp +decide [tookFrame]⟩
  have hrej : canPort (rejectLength p.val (tookFrame t p.val rest s)) p.val = canPort (updPort p.val (fun x => { x with lenRej := x.lenRej + 1 }) (tookFrame t p.val rest s)) p.val := rfl
  rw [hrej, canPort_updPort_same (by simpa [tookFrame, updPort] using hp), tookFrame, canPort_updPort_same (s := s.at_ t) hp]
  rfl

/-- Settles O35: each command changes the port that it names, and a SETPOINT what it holds. -/
theorem canPorts : Obligations.CanPorts :=
  ⟨canFrame_fifo0, canFrame_fifo1, canFrame_full, canFrame_remote, canTxRemoval_removes, canErrorState_busoff, canErrorState_passive, canErrorState_active, canBusoffRecovery_begins, canAutobaud_found, canAutobaud_next, setpoint_used, setpoint_copy, setpoint_length⟩

end Sys2Proof.Machine
end

section
/-!
PROOF. BusTime: an acting backup master compares identifiers without their Reserved bits (R6, R431).
-/
namespace Sys2Proof.Machine

/-- An acting backup master yields to a lower identifier, whose Reserved bits do not count. -/
theorem hearMaster_role_of_lower {f : CanFrame} {s : State} (hacting : s.can.role = 2) (hbackup : s.parN .canTimeRole = 3)
    (hlower : plainId f.id < busId s (0x20 + prio s) (ownPos s)) : (hearMaster f s).can.role = 3 := by
  unfold hearMaster
  extract_lets s1
  have hcond : (s1.can.role == 2 && s1.parN .canTimeRole == 3 && decide (plainId f.id < busId s1 (0x20 + prio s1) (ownPos s1))) = true := by
    rw [show s1.can.role = 2 from hacting, show s1.parN .canTimeRole = 3 from hbackup, decide_eq_true (show plainId f.id < busId s1 (0x20 + prio s1) (ownPos s1) from hlower)]
    rfl
  rw [if_pos hcond]
  rfl

theorem pairTime_role_of_ref {p : Nat} {f : CanFrame} {s : State} (h : isTimeRef (f.id / 256 % 256) = true) : (pairTime p f s).can.role = (hearMaster f s).can.role := by
  unfold pairTime
  rw [if_pos h]
  rfl

/-- TIME_REF of a module that takes part in the time reference is paired. -/
theorem execTimeRefReceived_ref {t : Nat} {p : Fin 2} {f : CanFrame} {rest : List CanFrame} {s : State} (hup : s.up = true) (hrole : s.can.role ≠ 0)
    (htake : takeFrame (fun f => idClass s f.ext f.id == 2) (canPort s p.val).fifo0 = some (f, rest)) (href : isTimeRef (f.id / 256 % 256) = true) (hlen : f.data.length = 8) :
    exec (.timeRefReceived t p) s = .next (pairTime p.val f (tookFrame t p.val rest s)) := by
  show execTimeRefReceived t p s = _
  have htake' : takeFrame (fun f => idClass (s.at_ t) f.ext f.id == 2) (canPort (s.at_ t) p.val).fifo0 = some (f, rest) := htake
  have hup' : (s.at_ t).up = true := hup
  have hrole' : (updPort p.val (fun x => { x with fifo0 := rest }) (s.at_ t)).can.role ≠ 0 := hrole
  unfold execTimeRefReceived
  simp only [htake', hup', href, hlen]
  exact (if_neg (by decide)).trans ((if_neg (by decide)).trans (if_neg (by simpa using hrole')))

/-- A reference of the master at position 2, with its Reserved bits set. -/
def reservedRef : CanFrame := { id := 0x123F2, ext := true, data := [1, 0, 1, 0, 5, 0, 0, 0], sof := 4, ts := 8 }

/-- The acting backup master at position 3, with that reference in FIFO 0 of CANB. -/
def actingBackup : State :=
  Tests.setPar .canTimeRole 0 0 3 (Tests.setPar .canTimePriority 0 0 3 (Tests.setPar .canBbBase 0 0 0x10000 (Tests.setPar .bootPosition 0 0 3
    (Tests.portIs 1 { canPort Tests.run0 1 with fifo0 := [reservedRef] } { Tests.run0 with can := { Tests.run0.can with role := 2 } }))))

theorem actingBackup_meets :
    actingBackup.up = true ∧ actingBackup.can.role = 2 ∧ actingBackup.parN .canTimeRole = 3 ∧
      takeFrame (fun f => idClass actingBackup f.ext f.id == 2) (canPort actingBackup 1).fifo0 = some (reservedRef, []) ∧ isTimeRef (reservedRef.id / 256 % 256) = true ∧
      reservedRef.data.length = 8 ∧ plainId reservedRef.id < busId actingBackup (0x20 + prio actingBackup) (ownPos actingBackup) ∧
      ¬reservedRef.id < busId actingBackup (0x20 + prio actingBackup) (ownPos actingBackup) := by
  decide +kernel

/-- Refutes O36: the identifier 0x123F2 is not below 0x12303, but without its Reserved bits it is, and the acting backup master yields to it. -/
theorem not_busTime : ¬ Obligations.BusTime := by
  rintro ⟨-, -, hears, -⟩
  obtain ⟨hup, hrole, hbackup, htake, href, hlen, hplain, hid⟩ := actingBackup_meets
  obtain ⟨r, hr, -, -, -, -, hkept, -⟩ := hears 9 1 reservedRef [] actingBackup hup (by rw [hrole]; decide) htake href hlen
  obtain rfl := Host.Outcome.next.inj ((execTimeRefReceived_ref (t := 9) (p := 1) hup (by rw [hrole]; decide) htake href hlen).symm.trans hr)
  rw [pairTime_role_of_ref href, hearMaster_role_of_lower (s := tookFrame 9 (1 : Fin 2).val [] actingBackup) hrole hbackup hplain, if_neg (fun h => hid h.2.2), hrole] at hkept
  exact absurd hkept (by decide)

end Sys2Proof.Machine
end

section
/-!
PROOF. CanopenStations: what a frame of each kind does to the station that sent it, and what queueing leaves as it was.
-/
namespace Sys2Proof.Machine

theorem markRaised_mem_iff {x : Nat × Nat} {r : RecState} (only : Bool) {c a : Nat} (h : x ≠ (c, a)) : x ∈ (markRaised only c a r).raised ↔ x ∈ r.raised := by
  unfold markRaised
  split
  · exact Iff.rfl
  · exact List.mem_cons.trans (or_iff_right h)

/-- A raise makes no other event stand, but for the one of an overwritten record (R479). -/
theorem isRaised_raise_of_ne {c a c' a' : Nat} (h : (c, a) ≠ (c', a')) (hover : (c, a) ≠ (0x8043, 0)) (s : State) : (State.raise c' a' s).isRaised c a = s.isRaised c a := by
  have hone : (c, a) ∈ (markRaised (recordedOnly.contains c') c' a' (recordRaise (recordedOnly.contains c') c' a' s.time.now s.recorder).1).raised ↔ (c, a) ∈ s.recorder.raised := by
    rw [markRaised_mem_iff _ h, recordRaise_raised]
  refine Bool.eq_iff_iff.2 ?_
  simp only [State.isRaised, State.raise, State.modRecorder_recorder, raiseRec, List.contains_iff_mem]
  split
  · rw [markRaised_mem_iff _ hover]
    split
    · rw [recordRaise_raised, recordRaise_raised]
      exact hone
    · rw [recordRaise_raised]
      exact hone
  · exact hone

theorem isRaised_raiseRound_of_ne {c a c' a' : Nat} (h : (c, a) ≠ (c', a')) (hover : (c, a) ≠ (0x8043, 0)) (s : State) : (State.raiseRound c' a' s).isRaised c a = s.isRaised c a := by
  refine Eq.trans ?_ (isRaised_raise_of_ne h hover s)
  unfold State.raiseRound State.isRaised
  rw [State.modRecorder_recorder]
  split <;> rfl

/-! ### Stations and the port of the manager -/

theorem station_updStation (k j : Nat) (f : Station → Station) (s : State) : station (updStation k f s) j = if k = j ∧ j < s.can.stations.length then f (station s j) else station s j :=
  getD_updAt ..

theorem station_updStation_same {k : Nat} {s : State} (hk : k < s.can.stations.length) (f : Station → Station) : station (updStation k f s) k = f (station s k) :=
  (station_updStation ..).trans (if_pos ⟨rfl, hk⟩)

theorem station_updStation_other {k j : Nat} (h : j ≠ k) (f : Station → Station) (s : State) : station (updStation k f s) j = station s j :=
  (station_updStation ..).trans (if_neg fun hc => h hc.1.symm)

theorem station_of_can {s t : State} (h : t.can.stations = s.can.stations) (k : Nat) : station t k = station s k := by rw [station, h, station]

/-- A station that is found has an entry of the section (R433). -/
theorem lt_of_stationOf {s : State} {node k : Nat} (h : stationOf s node = some k) : k < 16 := by
  have hmem := List.mem_of_find?_eq_some h
  unfold usedStations at hmem
  exact List.mem_range.1 (List.mem_filter.1 hmem).1

/-- Queueing a frame changes the transmit queue and the counters of its port only (R421). -/
structure queued (s t : State) : Prop where
  stations : t.can.stations = s.can.stations
  fifo1 : ∀ p, (canPort t p).fifo1 = (canPort s p).fifo1
  others : { t.can with ports := s.can.ports } = s.can
  standing : ∀ {c a : Nat}, c ≠ 0x603E → c ≠ 0x6034 → c ≠ 0x8043 → t.isRaised c a = s.isRaised c a
  keep : keepsBut [.can, .recorder] s t

theorem queued_refl (s : State) : queued s s := ⟨rfl, fun _ => rfl, rfl, fun _ _ _ => rfl, keepsBut_refl _ _⟩

theorem canPort_fifo1_updPort (f : CanPort → CanPort) (h : ∀ x, (f x).fifo1 = x.fifo1) (p q : Nat) (s : State) : (canPort (updPort p f s) q).fifo1 = (canPort s q).fifo1 := by
  rw [canPort_updPort]
  split
  · exact h _
  · rfl

theorem queued_queueCan (e : CanTx) (p : Nat) (s : State) : queued s (queueCan e p s) := by
  unfold queueCan
  dsimp only
  split
  · exact ⟨rfl, fun q => canPort_fifo1_updPort (fun x => { x with tx := x.tx.map fun o => if o.kind == e.kind then e else o }) (fun _ => rfl) p q s, rfl,
      fun h1 _ h3 => isRaised_raise_of_ne (fun he => h1 (congrArg Prod.fst he)) (fun he => h3 (congrArg Prod.fst he)) _, by simp +decide⟩
  · split
    · exact ⟨rfl, fun q => canPort_fifo1_updPort (fun x => { x with txFull := x.txFull + 1 }) (fun _ => rfl) p q s, rfl,
        fun _ h2 h3 => isRaised_raiseRound_of_ne (fun he => h2 (congrArg Prod.fst he)) (fun he => h3 (congrArg Prod.fst he)) _, by simp +decide⟩
    · exact ⟨rfl, fun q => canPort_fifo1_updPort (fun x => { x with tx := x.tx ++ [e] }) (fun _ => rfl) p q s, rfl, fun _ _ _ => rfl, by simp +decide⟩

theorem queued_coSend (kind id : Nat) (d : List Byte) (s : State) : queued s (coSend kind id d s) := by
  unfold coSend
  split
  · exact queued_queueCan _ _ _
  · exact queued_refl s

/-- The oldest CANopen frame of some function codes leaves FIFO 1 of the manager's port (R422). -/
def tookCo (t : Nat) (rest : List CanFrame) (s : State) : State := updPort (s.parN .canCoPort) (fun x => { x with fifo1 := rest }) (s.at_ t)

theorem tookCo_frame (t : Nat) (rest : List CanFrame) (s : State) : keepsBut [.time, .can] s (tookCo t rest s) := by simp +decide [tookCo]

theorem takeCo_eq {codes : List Nat} {f : CanFrame} {rest : List CanFrame} {s : State}
    (h : takeFrame (fun f => codes.contains (f.id / 0x80)) (canPort s (s.parN .canCoPort)).fifo1 = some (f, rest)) (t : Nat) :
    takeCo codes (s.at_ t) = some (f, tookCo t rest s) := by
  have h' : takeFrame (fun f => codes.contains (f.id / 0x80)) (canPort (s.at_ t) ((s.at_ t).parN .canCoPort)).fifo1 = some (f, rest) := h
  unfold takeCo
  dsimp only
  rw [h']
  rfl

theorem tookCo_fifo1 {t : Nat} {rest : List CanFrame} {s : State} (hport : s.parN .canCoPort < 2) (hlen : s.can.ports.length = 2) :
    (canPort (tookCo t rest s) (s.parN .canCoPort)).fifo1 = rest :=
  congrArg CanPort.fifo1 (canPort_updPort_same (s := s.at_ t) (by rw [at_can, hlen]; exact hport) fun x => { x with fifo1 := rest })

/-- A heartbeat of station k on the frame that brought it (R436). -/
theorem heartbeatOf_facts {k ts : Nat} {s : State} (hk : k < s.can.stations.length) :
    (station (heartbeatOf k ts s) k).hbAt = ts ∧ ((station s k).st = 1 → (station (heartbeatOf k ts s) k).st = 2) ∧
      ((station s k).st = 4 → (station (heartbeatOf k ts s) k).st = 1) ∧ (∀ j, j ≠ k → station (heartbeatOf k ts s) j = station s j) ∧
      (∀ p, (canPort (heartbeatOf k ts s) p).fifo1 = (canPort s p).fifo1) ∧ keepsBut [.can, .recorder] s (heartbeatOf k ts s) := by
  have hnoted := station_updStation_same hk fun x => { x with hbAt := ts }
  have hk' : k < (updStation k (fun x => { x with hbAt := ts }) s).can.stations.length := by simpa [updStation] using hk
  have hother : ∀ j, j ≠ k → station (updStation k (fun x => { x with hbAt := ts }) s) j = station s j := fun _ hj => station_updStation_other hj _ s
  unfold heartbeatOf
  dsimp only
  split
  next hst =>
    have hq := queued_coSend 7 (0x600 + (stationCfg s k).node) [0x40, 0x00, 0x10, 0x00, 0, 0, 0, 0] (updStation k (fun x => { x with st := 2 }) (updStation k (fun x => { x with hbAt := ts }) s))
    have hsame := (station_of_can hq.stations k).trans (station_updStation_same hk' fun x => { x with st := 2 })
    rw [hnoted] at hsame
    exact ⟨congrArg Station.hbAt hsame, fun _ => congrArg Station.st hsame, fun h4 => absurd (hst.symm.trans h4) (by decide),
      fun j hj => (station_of_can hq.stations j).trans ((station_updStation_other hj _ _).trans (hother j hj)), fun p => hq.fifo1 p,
      keepsBut_trans (t := updStation k (fun x => { x with st := 2 }) (updStation k (fun x => { x with hbAt := ts }) s)) (by simp +decide) hq.keep⟩
  next hst =>
    have hsame := station_updStation_same hk' fun x => { x with st := 1, missed := 0 }
    rw [hnoted] at hsame
    exact ⟨congrArg Station.hbAt hsame, fun h1 => absurd (hst.symm.trans h1) (by decide), fun _ => congrArg Station.st hsame,
      fun j hj => (station_updStation_other hj _ _).trans (hother j hj), fun _ => rfl, by simp +decide⟩
  next h1 h4 => exact ⟨congrArg Station.hbAt hnoted, fun h => absurd h h1, fun h => absurd h h4, hother, fun _ => rfl, by simp +decide⟩

theorem closeStation_can {s t : State} (hc : t.can = s.can) (hb : t.boot = s.boot) (g k : Nat) : (closeStation g k t).can = (closeStation g k s).can := by
  have hcfg : stationCfg t k = stationCfg s k := by rw [stationCfg, hb, stationCfg]
  rw [closeStation, closeStation, hcfg, updStation, updStation, State.modCan_can, State.modCan_can, hc]

/-- How the images close depends on the stations and their configuration alone. -/
theorem closeStations_can {s t : State} (hc : t.can = s.can) (hb : t.boot = s.boot) (upTo : Nat) : (closeStations upTo t).can = (closeStations upTo s).can := by
  have hloop : ∀ (g : Nat) (l : List Nat) (u v : State), v.can = u.can → v.boot = u.boot → (forEach l (closeStation g) v).can = (forEach l (closeStation g) u).can := by
    intro g l
    induction l with
    | nil => exact fun _ _ hc _ => hc
    | cons k l ih => exact fun u v hc hb => ih _ _ (closeStation_can hc hb g k) hb
  have hused : usedStations t = usedStations s := by simp only [usedStations, stationCfg, hb]
  unfold closeStations
  rw [hc, hused]
  split
  next g _ =>
    split
    · rw [State.modCan_can, State.modCan_can, hloop g _ _ _ hc hb]
    · exact hc
  · exact hc

/-- The images of the SYNC before close by their stations alone, and no frame is queued (R438). -/
theorem closeStations_facts (upTo : Nat) (s : State) : (closeStations upTo s).can.ports = s.can.ports ∧ keepsBut [.can] s (closeStations upTo s) := by
  have hloop : ∀ (g : Nat) (l : List Nat) (u : State), (forEach l (closeStation g) u).can.ports = u.can.ports ∧ keepsBut [.can] u (forEach l (closeStation g) u) := by
    intro g l
    induction l with
    | nil => exact fun u => ⟨rfl, keepsBut_refl _ _⟩
    | cons k l ih =>
      intro u
      obtain ⟨hports, hkeep⟩ := ih (closeStation g k u)
      exact ⟨hports, keepsBut_trans (t := closeStation g k u) (by simp +decide) hkeep⟩
  unfold closeStations
  split
  next g _ =>
    split
    · obtain ⟨hports, hkeep⟩ := hloop g (usedStations s) s
      exact ⟨hports, keepsBut_trans hkeep (by simp +decide)⟩
    · exact ⟨rfl, keepsBut_refl _ _⟩
  · exact ⟨rfl, keepsBut_refl _ _⟩

theorem canopenSync_sends : ∀ t s, s.up = true → s.time.framesOn = true → s.parN .canCoPort < 2 → s.time.frame % s.parN .canCoPeriod = 0 → t = s.time.frame * frameNs + s.parN .canCoSyncOffset * 1000 →
    s.can.syncFrame ≠ some s.time.frame → s.can.ports.length = 2 → (canPort s (s.parN .canCoPort)).tx.length < 32 →
    Completes (.canopenSync t) s fun r =>
      r.can.syncFrame = some s.time.frame ∧ r.can.stations = (closeStations s.time.frame s).can.stations ∧
      (canPort r (s.parN .canCoPort)).tx = (canPort s (s.parN .canCoPort)).tx ++ [{ id := 0x80, kind := 4, data := [], at_ := max s.time.now t, tag := 0 }] ∧
      keepsBut [.time, .can] s r := by
  intro t s hup hon hport hcycle ht hsync hlen hroom
  have hexec : exec (.canopenSync t) s = .next (coSend 4 0x80 [] ((closeStations s.time.frame (s.at_ t)).modCan fun c => { c with syncFrame := some s.time.frame })) := by
    refine if_pos ?_
    have hup' : (s.at_ t).up = true := hup
    have hon' : (s.at_ t).time.framesOn = true := hon
    have hport' : decide ((s.at_ t).parN .canCoPort < 2) = true := decide_eq_true hport
    have hcycle' : ((s.at_ t).time.frame % (s.at_ t).parN .canCoPeriod == 0) = true := beq_iff_eq.2 hcycle
    have ht' : (t == coSyncAt (s.at_ t) (s.at_ t).time.frame) = true := beq_iff_eq.2 ht
    have hsync' : ((s.at_ t).can.syncFrame != some (s.at_ t).time.frame) = true := bne_iff_ne.2 hsync
    rw [hup', hon', hport', hcycle', ht', hsync']
    rfl
  obtain ⟨hports, hkeep⟩ := closeStations_facts s.time.frame (s.at_ t)
  have hstations := congrArg CanState.stations (closeStations_can (s := s) (t := s.at_ t) rfl rfl s.time.frame)
  generalize hu : ((closeStations s.time.frame (s.at_ t)).modCan fun c => { c with syncFrame := some s.time.frame }) = u at hexec
  have hkept : keepsBut [.time, .can] s u := by
    rw [← hu]
    exact keepsBut_trans (t := s.at_ t) (by simp +decide) (keepsBut_trans (t := closeStations s.time.frame (s.at_ t)) (keepsBut_mono hkeep (by decide)) (by simp +decide))
  have hpar : u.parN .canCoPort = s.parN .canCoPort := by
    have hb : u.boot = s.boot := hkept .boot (by decide)
    rw [State.parN, State.par, hb]
    rfl
  have hnow : u.time.now = max s.time.now t := by
    have htime : (closeStations s.time.frame (s.at_ t)).time = (s.at_ t).time := hkeep .time (by decide)
    rw [← hu, State.modCan_time, htime]
    rfl
  have huports : u.can.ports = s.can.ports := by
    rw [← hu]
    exact hports
  have htx : canPort u (s.parN .canCoPort) = canPort s (s.parN .canCoPort) := by rw [canPort, huports, canPort]
  have hsend : coSend 4 0x80 [] u = updPort (s.parN .canCoPort) (fun x => { x with tx := x.tx ++ [{ id := 0x80, kind := 4, data := [], at_ := max s.time.now t, tag := 0 }] }) u := by
    unfold coSend queueCan
    rw [hpar, if_pos hport, htx, hnow]
    exact (if_neg (by simp)).trans (if_neg (not_le.2 hroom))
  rw [hsend] at hexec
  refine ⟨_, hexec, ?_, ?_, ?_, keepsBut_trans hkept (by simp +decide)⟩
  · rw [updPort, State.modCan_can, ← hu]
    rfl
  · rw [updPort, State.modCan_can, ← hu]
    exact hstations
  · rw [canPort_updPort_same (by rw [huports, hlen]; exact hport), htx]

theorem closeStation_closes : ∀ s g k, k < s.can.stations.length →
    let x := station s k
    let y := station (closeStation g k s) k
    ((∀ j, j < (stationCfg s k).tpdo → (x.got.lookup j).isSome = true) → y.missed = 0 ∧ (∃ ws, y.image = some (ws, g))) ∧
    ((∃ j, j < (stationCfg s k).tpdo ∧ x.got.lookup j = none) → y.missed = x.missed + 1 ∧ y.image = x.image) ∧ y.got = [] ∧
    (∀ j, j ≠ k → station (closeStation g k s) j = station s j) ∧ keepsBut [.can] s (closeStation g k s) := by
  intro s g k hk x y
  have hy : y = _ := station_updStation_same hk _
  refine ⟨fun hall => ?_, fun hmiss => ?_, ?_, fun j hj => station_updStation_other hj _ s, by simp +decide⟩
  · have hcond : ((List.range (stationCfg s k).tpdo).all fun j => ((station s k).got.lookup j).isSome) = true := List.all_eq_true.2 fun j hj => hall j (List.mem_range.1 hj)
    rw [hy, if_pos hcond]
    exact ⟨rfl, _, rfl⟩
  · obtain ⟨j, hj, hnone⟩ := hmiss
    have hcond : ¬((List.range (stationCfg s k).tpdo).all fun j => ((station s k).got.lookup j).isSome) = true := fun h => by
      have hsome := List.all_eq_true.1 h j (List.mem_range.2 hj)
      rw [show (station s k).got.lookup j = none from hnone] at hsome
      exact absurd hsome (by decide)
    rw [hy, if_neg hcond]
    exact ⟨rfl, rfl⟩
  · rw [hy]
    split <;> rfl

theorem canopenHeartbeat_known : ∀ t f rest k s, s.up = true → s.parN .canCoPort < 2 → s.can.ports.length = 2 → s.can.stations.length = 16 →
    takeFrame (fun f => [14].contains (f.id / 0x80)) (canPort s (s.parN .canCoPort)).fifo1 = some (f, rest) → stationOf s (f.id % 0x80) = some k →
    Completes (.canopenHeartbeat t) s fun r =>
      (canPort r (s.parN .canCoPort)).fifo1 = rest ∧ (station r k).hbAt = f.ts ∧
      ((station s k).st = 1 → (station r k).st = 2) ∧ ((station s k).st = 4 → (station r k).st = 1) ∧
      (∀ j, j ≠ k → station r j = station s j) ∧ keepsBut [.time, .can, .recorder] s r := by
  intro t f rest k s hup hport hlen hst htake hknown
  have hk := lt_of_stationOf hknown
  have hexec : exec (.canopenHeartbeat t) s = .next (heartbeatOf k f.ts (tookCo t rest s)) := by
    show execCanopenHeartbeat t s = _
    have hup' : (s.at_ t).up = true := hup
    have hknown' : stationOf (s.at_ t) (f.id % 0x80) = some k := hknown
    unfold execCanopenHeartbeat
    simp [takeCo_eq htake, hup', hknown']
  obtain ⟨hhb, h1, h4, hother, hfifo, hkeep⟩ := heartbeatOf_facts (k := k) (ts := f.ts) (s := tookCo t rest s) (by rw [show (tookCo t rest s).can.stations = s.can.stations from rfl, hst]; exact hk)
  exact ⟨_, hexec, (hfifo _).trans (tookCo_fifo1 hport hlen), hhb, h1, h4, hother, keepsBut_trans (keepsBut_mono (tookCo_frame t rest s) (by decide)) (keepsBut_mono hkeep (by decide))⟩

theorem canopenHeartbeat_unknown : ∀ t f rest s, s.up = true → takeFrame (fun f => [14].contains (f.id / 0x80)) (canPort s (s.parN .canCoPort)).fifo1 = some (f, rest) →
    stationOf s (f.id % 0x80) = none → f.id % 0x80 ∉ s.can.unknown →
    Completes (.canopenHeartbeat t) s fun r =>
      r.can.unknown = f.id % 0x80 :: s.can.unknown ∧ r.can.stations = s.can.stations ∧ r.recorder = (State.raise 0x603B (f.id % 0x80) (s.at_ t)).recorder ∧
      keepsBut [.time, .can, .recorder] s r := by
  intro t f rest s hup htake hnone hnew
  have hexec : exec (.canopenHeartbeat t) s = .next (((tookCo t rest s).modCan fun c => { c with unknown := f.id % 0x80 :: c.unknown }).raise 0x603B (f.id % 0x80)) := by
    show execCanopenHeartbeat t s = _
    have hup' : (s.at_ t).up = true := hup
    have hnone' : stationOf (s.at_ t) (f.id % 0x80) = none := hnone
    have hnew' : ¬(s.at_ t).can.unknown.contains (f.id % 0x80) = true := fun h => hnew (List.contains_iff_mem.1 h)
    unfold execCanopenHeartbeat
    simp only [takeCo_eq htake, hup', hnone']
    exact (if_neg (by decide)).trans (if_neg hnew')
  exact ⟨_, hexec, rfl, rfl, rfl, by simp +decide [tookCo]⟩

theorem canopenSdoResponse_answers : ∀ t f rest k v s, s.up = true → s.parN .canCoPort < 2 → s.can.ports.length = 2 → s.can.stations.length = 16 →
    takeFrame (fun f => [11].contains (f.id / 0x80)) (canPort s (s.parN .canCoPort)).fifo1 = some (f, rest) → stationOf s (f.id % 0x80) = some k →
    sdoAnswer f.data = some v → (station s k).st = 2 →
    Completes (.canopenSdoResponse t) s fun r =>
      ((stationCfg s k).devType = 0 ∨ v = some (stationCfg s k).devType → (station r k).st = 3 ∧ (station r k).missed = 0 ∧ r.isRaised 0x6039 k = false ∧ r.isRaised 0x603A k = false) ∧
      ((stationCfg s k).devType ≠ 0 → v ≠ some (stationCfg s k).devType → (station r k).st = 5 ∧ r.isRaised 0x603A k = true) ∧
      (∀ j, j ≠ k → station r j = station s j) ∧ keepsBut [.time, .can, .recorder] s r := by
  intro t f rest k v s hup hport hlen hst htake hknown hanswer hasked
  have hk : k < (tookCo t rest s).can.stations.length := by
    rw [show (tookCo t rest s).can.stations = s.can.stations from rfl, hst]
    exact lt_of_stationOf hknown
  have hup' : (s.at_ t).up = true := hup
  have hknown' : stationOf (s.at_ t) (f.id % 0x80) = some k := hknown
  have hasked' : (station (s.at_ t) k).st = 2 := hasked
  have hwant : (stationCfg (s.at_ t) k).devType = (stationCfg s k).devType := rfl
  by_cases hagrees : (stationCfg s k).devType = 0 ∨ v = some (stationCfg s k).devType
  · have hexec : exec (.canopenSdoResponse t) s = .next (coSend 6 0 [1, BitVec.ofNat 8 (stationCfg s k).node]
        (((updStation k (fun x => { x with st := 3, missed := 0 }) (tookCo t rest s)).clear 0x6039 k).clear 0x603A k)) := by
      show execCanopenSdoResponse t s = _
      unfold execCanopenSdoResponse
      simp only [takeCo_eq htake, hup', hknown', hanswer, hwant]
      exact (if_neg (by rw [hasked']; decide)).trans (if_pos (by simpa using hagrees))
    have hq := queued_coSend 6 0 [1, BitVec.ofNat 8 (stationCfg s k).node] (((updStation k (fun x => { x with st := 3, missed := 0 }) (tookCo t rest s)).clear 0x6039 k).clear 0x603A k)
    generalize hu : ((updStation k (fun x => { x with st := 3, missed := 0 }) (tookCo t rest s)).clear 0x6039 k).clear 0x603A k = u at hexec hq
    have hcan : u.can = (updStation k (fun x => { x with st := 3, missed := 0 }) (tookCo t rest s)).can := by rw [← hu, clear_can, clear_can]
    have hsame := (station_of_can (hq.stations.trans (congrArg CanState.stations hcan)) k).trans (station_updStation_same hk fun x => { x with st := 3, missed := 0 })
    have hkeep : keepsBut [.time, .can, .recorder] s u := by
      rw [← hu]
      simp +decide [tookCo]
    refine ⟨_, hexec, fun _ => ⟨congrArg Station.st hsame, congrArg Station.missed hsame, ?_, ?_⟩, fun h0 h1 => absurd hagrees (not_or.2 ⟨h0, h1⟩),
      fun j hj => (station_of_can (hq.stations.trans (congrArg CanState.stations hcan)) j).trans (station_updStation_other hj _ _), keepsBut_trans hkeep (keepsBut_mono hq.keep (by decide))⟩
    · rw [hq.standing (by decide) (by decide) (by decide), ← hu, isRaised_clear_of_ne (by simp), isRaised_clear]
    · rw [hq.standing (by decide) (by decide) (by decide), ← hu, isRaised_clear]
  · have hexec : exec (.canopenSdoResponse t) s = .next ((updStation k (fun x => { x with st := 5 }) (tookCo t rest s)).stand 0x603A k true) := by
      show execCanopenSdoResponse t s = _
      unfold execCanopenSdoResponse
      simp only [takeCo_eq htake, hup', hknown', hanswer, hwant]
      exact (if_neg (by rw [hasked']; decide)).trans (if_neg (by simpa using hagrees))
    have hcan : ((updStation k (fun x => { x with st := 5 }) (tookCo t rest s)).stand 0x603A k true).can.stations = (updStation k (fun x => { x with st := 5 }) (tookCo t rest s)).can.stations :=
      congrArg CanState.stations (stand_can _ _ _ _)
    have hsame := (station_of_can hcan k).trans (station_updStation_same hk fun x => { x with st := 5 })
    exact ⟨_, hexec, fun h => absurd h hagrees, fun _ _ => ⟨congrArg Station.st hsame, isRaised_stand_true _ _ _ (by decide)⟩,
      fun j hj => (station_of_can hcan j).trans (station_updStation_other hj _ _), by simp +decide [tookCo]⟩

theorem canopenTpdo_enters : ∀ t f rest k g s, s.up = true → s.parN .canCoPort < 2 → s.can.ports.length = 2 → s.can.stations.length = 16 →
    takeFrame (fun f => [3, 5, 7, 9].contains (f.id / 0x80)) (canPort s (s.parN .canCoPort)).fifo1 = some (f, rest) → stationOf s (f.id % 0x80) = some k →
    f.data.length = 8 → s.can.syncFrame = some g →
    Completes (.canopenTpdo t) s fun r =>
      (station r k).got = (if g * frameNs + s.parN .canCoSyncOffset * 1000 < f.ts ∧ f.ts ≤ (g + 1) * frameNs + 4000000 then [((f.id / 0x80 - 3) / 2, (List.range 4).map fun i => ofLE ((f.data.drop (2 * i)).take 2))] else []) ++ (station s k).got ∧
      { station r k with got := (station s k).got } = station s k ∧ (∀ j, j ≠ k → station r j = station s j) ∧ keepsBut [.time, .can] s r := by
  intro t f rest k g s hup hport hlen hst htake hknown hdata hsync
  have hk : k < (tookCo t rest s).can.stations.length := by
    rw [show (tookCo t rest s).can.stations = s.can.stations from rfl, hst]
    exact lt_of_stationOf hknown
  have hup' : (s.at_ t).up = true := hup
  have hknown' : stationOf (s.at_ t) (f.id % 0x80) = some k := hknown
  have hsync' : (s.at_ t).can.syncFrame = some g := hsync
  by_cases htime : g * frameNs + s.parN .canCoSyncOffset * 1000 < f.ts ∧ f.ts ≤ (g + 1) * frameNs + 4000000
  · have hexec : exec (.canopenTpdo t) s =
        .next (updStation k (fun x => { x with got := ((f.id / 0x80 - 3) / 2, (List.range 4).map fun i => ofLE ((f.data.drop (2 * i)).take 2)) :: x.got }) (tookCo t rest s)) := by
      show execCanopenTpdo t s = _
      unfold execCanopenTpdo
      simp only [takeCo_eq htake, hup', hknown', hsync', hdata]
      exact (if_neg (by decide)).trans (if_pos (by
        rw [coSyncAt, show (s.at_ t).parN .canCoSyncOffset = s.parN .canCoSyncOffset from rfl, decide_eq_true htime.1, decide_eq_true htime.2]
        rfl))
    have hsame := station_updStation_same hk fun x => { x with got := ((f.id / 0x80 - 3) / 2, (List.range 4).map fun i => ofLE ((f.data.drop (2 * i)).take 2)) :: x.got }
    exact ⟨_, hexec, by rw [hsame, if_pos htime]; rfl, by rw [hsame]; rfl, fun j hj => station_updStation_other hj _ _, by simp +decide [tookCo]⟩
  · have hexec : exec (.canopenTpdo t) s = .next (tookCo t rest s) := by
      show execCanopenTpdo t s = _
      unfold execCanopenTpdo
      simp only [takeCo_eq htake, hup', hknown', hsync', hdata]
      exact (if_neg (by decide)).trans (if_neg fun h => htime ((Bool.and_eq_true_iff.1 h).imp of_decide_eq_true of_decide_eq_true))
    exact ⟨_, hexec, by rw [if_neg htime]; rfl, rfl, fun _ _ => rfl, tookCo_frame t rest s⟩

theorem canopenEmcy_reported : ∀ t f rest k s, s.up = true → takeFrame (fun f => [1].contains (f.id / 0x80)) (canPort s (s.parN .canCoPort)).fifo1 = some (f, rest) → stationOf s (f.id % 0x80) = some k →
    Completes (.canopenEmcy t) s fun r => r.recorder = (State.raise 0x603C k (s.at_ t)).recorder ∧ r.can.stations = s.can.stations ∧ keepsBut [.time, .can, .recorder] s r := by
  intro t f rest k s hup htake hknown
  have hexec : exec (.canopenEmcy t) s = .next ((tookCo t rest s).raise 0x603C k) := by
    show execCanopenEmcy t s = _
    have hup' : (s.at_ t).up = true := hup
    have hknown' : stationOf (s.at_ t) (f.id % 0x80) = some k := hknown
    unfold execCanopenEmcy
    simp only [takeCo_eq htake, hup', hknown']
  exact ⟨_, hexec, rfl, rfl, by simp +decide [tookCo]⟩

theorem canopenStationAbsent_absent : ∀ t (k : Fin 16) s, s.up = true → s.can.stations.length = 16 → (station s k.val).st = 3 →
    ((station s k.val).hbAt + (stationCfg s k.val).hbMs * 1000000 < t ∨ s.parN .canCoMiss ≤ (station s k.val).missed) →
    Completes (.canopenStationAbsent t k) s fun r =>
      (station r k.val).st = 4 ∧
      (let waits : Bool := match s.prog.latched with
         | some g => decide (s.time.frame / s.parN .canCoPeriod * s.parN .canCoPeriod < g + 2)
         | none => false
       (station r k.val).dropped = waits ∧ (waits = true → (station r k.val).present = false ∧ (station r k.val).safeOut = true) ∧
         (waits = false → (station r k.val).present = (station s k.val).present ∧ (station r k.val).safeOut = (station s k.val).safeOut)) ∧ (∀ j, j ≠ k.val → station r j = station s j) ∧
      r.isRaised 0x6039 k.val = true ∧ keepsBut [.time, .can, .recorder] s r := by
  intro t k s hup hlen hst hlate
  have hk : k.val < (s.at_ t).can.stations.length := by
    rw [at_can, hlen]
    exact k.isLt
  have hexec : exec (.canopenStationAbsent t k) s = .next ((updStation k.val (leaveOperational (s.at_ t)) (s.at_ t)).stand 0x6039 k.val true) := by
    refine if_pos ?_
    have hup' : (s.at_ t).up = true := hup
    have hst' : (station (s.at_ t) k.val).st = 3 := hst
    have hlate' : (decide ((station (s.at_ t) k.val).hbAt + (stationCfg (s.at_ t) k.val).hbMs * 1000000 < t) || decide ((s.at_ t).parN .canCoMiss ≤ (station (s.at_ t) k.val).missed)) = true :=
      Bool.or_eq_true_iff.2 (hlate.imp (fun h => decide_eq_true h) fun h => decide_eq_true h)
    rw [hup', hst', hlate']
    rfl
  have hcan : ((updStation k.val (leaveOperational (s.at_ t)) (s.at_ t)).stand 0x6039 k.val true).can.stations = (updStation k.val (leaveOperational (s.at_ t)) (s.at_ t)).can.stations :=
    congrArg CanState.stations (stand_can _ _ _ _)
  have hsame := (station_of_can hcan k.val).trans (station_updStation_same hk (leaveOperational (s.at_ t)))
  refine ⟨_, hexec, congrArg Station.st hsame, ?_, fun j hj => (station_of_can hcan j).trans (station_updStation_other hj _ _), isRaised_stand_true _ _ _ (by decide), by simp +decide⟩
  intro waits
  have hdropped : leaveOperational (s.at_ t) (station s k.val) =
      { station s k.val with st := 4, present := (station s k.val).present && !waits, opSince := false, dropped := waits, safeOut := (station s k.val).safeOut || waits } := rfl
  rw [hsame, show station (s.at_ t) k.val = station s k.val from rfl, hdropped]
  refine ⟨rfl, fun hw => ?_, fun hw => ?_⟩
  · rw [hw]
    exact ⟨Bool.and_false _, Bool.or_true _⟩
  · rw [hw]
    exact ⟨Bool.and_true _, Bool.or_false _⟩

/-- Settles O37: SYNC, heartbeat, SDO answer, TPDO and EMCY by the station they name. -/
theorem canopenStations : Obligations.CanopenStations :=
  ⟨canopenSync_sends, closeStation_closes, canopenHeartbeat_known, canopenHeartbeat_unknown, canopenSdoResponse_answers, canopenTpdo_enters, canopenEmcy_reported, canopenStationAbsent_absent⟩

end Sys2Proof.Machine
end

section
/-!
PROOF. RecorderCommits: a raise leaves what the recorder has counted, and the commit and the clears act on the region they name.
-/
namespace Sys2Proof.Machine

/-! ### What a raise and a clear leave of the recorder -/

/-- The recorder without the events that it holds. -/
def counted (r : RecState) : RecState := { r with rings := [], seq := [], head := [], overwritten := 0, overRound := false, raised := [] }

theorem counted_recordRaise (only : Bool) (c a t : Nat) (r : RecState) : counted (recordRaise only c a t r).1 = counted r := by
  unfold recordRaise
  dsimp only
  split
  · split <;> rfl
  · rfl

theorem counted_markRaised (only : Bool) (c a : Nat) (r : RecState) : counted (markRaised only c a r) = counted r := by
  unfold markRaised
  split <;> rfl

theorem counted_raise (c a : Nat) (s : State) : counted (State.raise c a s).recorder = counted s.recorder := by
  have hone := (counted_markRaised (recordedOnly.contains c) c a _).trans (counted_recordRaise (recordedOnly.contains c) c a s.time.now s.recorder)
  simp only [State.raise, State.modRecorder_recorder, raiseRec]
  split
  · rw [counted_markRaised]
    split
    · rw [counted_recordRaise, counted_recordRaise]
      exact hone
    · rw [counted_recordRaise]
      exact hone
  · exact hone

theorem counted_stand (c a : Nat) (s : State) : counted (State.stand c a true s).recorder = counted s.recorder := by
  unfold State.stand
  rw [if_pos rfl]
  split
  · rfl
  · exact counted_raise c a s

theorem counted_clear (c a : Nat) (s : State) : counted (State.clear c a s).recorder = counted s.recorder := by
  unfold State.clear
  split <;> rfl

/-- A raise enters the ring of its class; a record overwritten by it enters the ring of class 8 (R479). -/
theorem raise_other_ring {code j : Nat} (hj : evClass code - 1 ≠ j) (h8 : j ≠ 7) (arg : Nat) (s : State) :
    (State.raise code arg s).recorder.rings.getD j [] = s.recorder.rings.getD j [] := by
  have h8' : evClass 0x8043 - 1 ≠ j := fun h => h8 h.symm
  have hone : (markRaised (recordedOnly.contains code) code arg (recordRaise (recordedOnly.contains code) code arg s.time.now s.recorder).1).rings.getD j [] = s.recorder.rings.getD j [] := by
    rw [markRaised_rings, recordRaise_other_ring hj]
  simp only [State.raise, State.modRecorder_recorder, raiseRec]
  split
  · rw [markRaised_rings]
    split
    · rw [recordRaise_other_ring h8', recordRaise_other_ring h8']
      exact hone
    · rw [recordRaise_other_ring h8']
      exact hone
  · exact hone

/-! ### Tokens -/

theorem drawToken_recorder (g : Nat) (s : State) : (drawToken g s).recorder =
    { s.recorder with tokens := updAt s.recorder.tokens g fun t => (s.draw.1 % 0xFFFFFFFF + 1, t.1) } := rfl

/-- A region draws a new token, and the one before it is the one replaced (R485). -/
theorem drawToken_token {g : Nat} {s : State} (hg : g < s.recorder.tokens.length) :
    ((drawToken g s).recorder.tokens.getD g (0, 0)).2 = (s.recorder.tokens.getD g (0, 0)).1 ∧ ((drawToken g s).recorder.tokens.getD g (0, 0)).1 ≠ 0 := by
  have htoken : (drawToken g s).recorder.tokens.getD g (0, 0) = (s.draw.1 % 0xFFFFFFFF + 1, (s.recorder.tokens.getD g (0, 0)).1) :=
    (getD_updAt ..).trans (if_pos ⟨rfl, hg⟩)
  rw [htoken]
  exact ⟨rfl, Nat.succ_ne_zero _⟩

theorem drawToken_other {g j : Nat} (h : g ≠ j) (s : State) : (drawToken g s).recorder.tokens.getD j (0, 0) = s.recorder.tokens.getD j (0, 0) :=
  (getD_updAt ..).trans (if_neg fun hc => h hc.1)

theorem drawToken_length (g : Nat) (s : State) : (drawToken g s).recorder.tokens.length = s.recorder.tokens.length := length_updAt ..

theorem drawTokens_eq (s : State) : forEach (List.range 4) drawToken s = drawToken 3 (drawToken 2 (drawToken 1 (drawToken 0 s))) := rfl

/-- The tokens of the four regions after the commit. -/
theorem drawTokens_tokens {s : State} (hlen : s.recorder.tokens.length = 4) {g : Nat} (hg : g < 4) :
    ((forEach (List.range 4) drawToken s).recorder.tokens.getD g (0, 0)).2 = (s.recorder.tokens.getD g (0, 0)).1 ∧
      ((forEach (List.range 4) drawToken s).recorder.tokens.getD g (0, 0)).1 ≠ 0 := by
  rw [drawTokens_eq]
  obtain rfl | rfl | rfl | rfl : g = 0 ∨ g = 1 ∨ g = 2 ∨ g = 3 := by omega
  · rw [drawToken_other (by decide), drawToken_other (by decide), drawToken_other (by decide)]
    exact drawToken_token (by omega)
  · rw [drawToken_other (by decide), drawToken_other (by decide), ← drawToken_other (j := 1) (g := 0) (by decide) s]
    exact drawToken_token (by rw [drawToken_length]; omega)
  · rw [drawToken_other (by decide), ← drawToken_other (j := 2) (g := 0) (by decide) s, ← drawToken_other (j := 2) (g := 1) (by decide) (drawToken 0 s)]
    exact drawToken_token (by rw [drawToken_length, drawToken_length]; omega)
  · rw [← drawToken_other (j := 3) (g := 0) (by decide) s, ← drawToken_other (j := 3) (g := 1) (by decide) (drawToken 0 s),
      ← drawToken_other (j := 3) (g := 2) (by decide) (drawToken 1 (drawToken 0 s))]
    exact drawToken_token (by rw [drawToken_length, drawToken_length, drawToken_length]; omega)

/-! ### The content that a commit writes -/

/-- A cell changed in the round reads back as changed, another one as it was (R477). -/
theorem lookup_committed {β : Type} (new old : List (Nat × β)) (c : Nat) :
    (new ++ old.filter fun e => (new.lookup e.1).isNone).lookup c = (new.lookup c).or (old.lookup c) := by
  rw [List.lookup_append]
  cases hc : new.lookup c with
  | some x => rfl
  | none =>
    refine congrArg (Option.or none) ?_
    induction old with
    | nil => rfl
    | cons e es ih =>
      obtain ⟨d, y⟩ := e
      by_cases hd : c = d
      · subst hd
        rw [List.filter_cons_of_pos (by simp [hc]), List.lookup_cons_self, List.lookup_cons_self]
      · have hne : (c == d) = false := beq_eq_false_iff_ne.2 hd
        rw [List.lookup_cons, hne]
        rw [List.filter_cons]
        split
        · rw [List.lookup_cons, hne]
          exact ih
        · exact ih

/-- What the commit of a round gives before its tokens are drawn, where no clear waits. -/
def committedRound (r : RecState) : RecState :=
  { r with
    clearReq := [], cellClear := []
    strs := List.zipWith (addBlock r.ops r.pc) r.strs r.acc, acc := [{}, {}, {}, {}]
    cells := r.cellAcc ++ r.cells.filter fun c => (r.cellAcc.lookup c.1).isNone, cellAcc := []
    die := List.zipWith (· + ·) r.die r.dieAcc, dieAcc := List.replicate 41 0, dieStamp := (r.ops, r.pc)
    commits := (r.commits + 1) % 2 ^ 32 }

theorem commitRound_eq {s : State} (hreq : s.recorder.clearReq = []) (hcell : s.recorder.cellClear = []) :
    commitRound s = (forEach (List.range 4) drawToken (s.modRecorder committedRound)).clear 0x8040 0 := by
  unfold commitRound
  rw [hreq, hcell]
  rfl

theorem recorderCommit_commits : ∀ t s, s.running = true → s.roundPos = 99 → s.recorder.on = true → s.workDue 2 = true → s.frameStart + 5000000 ≤ t → t ≤ s.frameStart + 9500000 → s.recorder.clearReq = [] → s.recorder.cellClear = [] →
    Completes (.recorderCommit t) s fun r =>
      r.recorder.strs = List.zipWith (addBlock s.recorder.ops s.recorder.pc) s.recorder.strs s.recorder.acc ∧
      r.recorder.die = List.zipWith (· + ·) s.recorder.die s.recorder.dieAcc ∧
      (∀ c x, s.recorder.cellAcc.lookup c = some x → r.recorder.cells.lookup c = some x) ∧ (∀ c, s.recorder.cellAcc.lookup c = none → r.recorder.cells.lookup c = s.recorder.cells.lookup c) ∧
      r.recorder.acc = [{}, {}, {}, {}] ∧ r.recorder.cellAcc = [] ∧ r.recorder.dieAcc = List.replicate 41 0 ∧ r.recorder.commits = (s.recorder.commits + 1) % 2 ^ 32 ∧
      (∀ g, g < 4 → s.recorder.tokens.length = 4 → (r.recorder.tokens.getD g (0, 0)).2 = (s.recorder.tokens.getD g (0, 0)).1 ∧ (r.recorder.tokens.getD g (0, 0)).1 ≠ 0) ∧
      r.freeCtr = s.freeCtr + 4 ∧ r.isRaised 0x8040 0 = false ∧ keepsBut [.time, .recorder, .freeCtr] s r := by
  intro t s hrun hround hon hdue hfrom hto hnoreq hnocell
  have hexec : exec (.recorderCommit t) s = .next (commitRound ((s.at_ t).workDone 2)) := by
    refine if_pos ?_
    have hrun' : (s.at_ t).running = true := hrun
    have hround' : (s.at_ t).roundPos = 99 := hround
    have hon' : (s.at_ t).recorder.on = true := hon
    have hdue' : (s.at_ t).workDue 2 = true := hdue
    have htime : decide ((s.at_ t).frameStart + 5000000 ≤ t ∧ t ≤ (s.at_ t).frameStart + 9500000) = true := decide_eq_true ⟨hfrom, hto⟩
    rw [hrun', hround', hon', hdue', htime]
    rfl
  rw [commitRound_eq (s := (s.at_ t).workDone 2) hnoreq hnocell] at hexec
  generalize hu : (State.modRecorder committedRound ((s.at_ t).workDone 2)) = u at hexec
  have hur : u.recorder = committedRound s.recorder := by
    rw [← hu]
    rfl
  have hfree : u.freeCtr = s.freeCtr := by
    rw [← hu]
    rfl
  have hkeep : keepsBut [.time, .recorder, .freeCtr] s u := by
    rw [← hu]
    simp +decide
  clear hu
  have hr : ∀ {β : Type} (p : RecState → β), (∀ x, p (counted x) = p x) → (∀ (x : RecState) tokens, p { x with tokens := tokens } = p x) →
      p ((forEach (List.range 4) drawToken u).clear 0x8040 0).recorder = p (committedRound s.recorder) := fun p hp htok =>
    (hp _).symm.trans ((congrArg p (counted_clear 0x8040 0 _)).trans ((hp _).trans ((htok _ _).trans ((htok _ _).trans ((htok _ _).trans ((htok _ _).trans (congrArg p hur)))))))
  have hcells := hr RecState.cells (fun _ => rfl) fun _ _ => rfl
  have hlookup : ∀ c, ((forEach (List.range 4) drawToken u).clear 0x8040 0).recorder.cells.lookup c = (s.recorder.cellAcc.lookup c).or (s.recorder.cells.lookup c) := fun c => by
    rw [hcells]
    exact lookup_committed s.recorder.cellAcc s.recorder.cells c
  refine ⟨_, hexec, hr RecState.strs (fun _ => rfl) fun _ _ => rfl, hr RecState.die (fun _ => rfl) fun _ _ => rfl, fun c x hc => ?_, fun c hc => ?_,
    hr RecState.acc (fun _ => rfl) fun _ _ => rfl, hr RecState.cellAcc (fun _ => rfl) fun _ _ => rfl, hr RecState.dieAcc (fun _ => rfl) fun _ _ => rfl,
    hr RecState.commits (fun _ => rfl) fun _ _ => rfl, fun g hg hlen => ?_, ?_, isRaised_clear _ _ _, ?_⟩
  · rw [hlookup, hc]
    rfl
  · rw [hlookup, hc]
    rfl
  · have hclear := congrArg RecState.tokens (counted_clear 0x8040 0 (forEach (List.range 4) drawToken u))
    have hclear : ((forEach (List.range 4) drawToken u).clear 0x8040 0).recorder.tokens = (forEach (List.range 4) drawToken u).recorder.tokens := hclear
    have htokens : u.recorder.tokens = s.recorder.tokens := (congrArg RecState.tokens hur).trans rfl
    have hdrawn := drawTokens_tokens (s := u) (by rw [htokens]; exact hlen) hg
    rw [htokens] at hdrawn
    rw [hclear]
    exact hdrawn
  · rw [clear_freeCtr, drawTokens_eq, ← hfree]
    rfl
  · exact keepsBut_trans hkeep (by simp +decide)

theorem recorderCommitMissed_keeps : ∀ t s, s.running = true → s.roundPos = 99 → s.workDue 2 = true → s.frameStart + 9500000 ≤ t →
    Completes (.recorderCommitMissed t) s fun r =>
      r.isRaised 0x8040 0 = true ∧ r.recorder.acc = s.recorder.acc ∧ r.recorder.strs = s.recorder.strs ∧ r.recorder.cellAcc = s.recorder.cellAcc ∧ r.recorder.dieAcc = s.recorder.dieAcc ∧
      r.recorder.commits = s.recorder.commits ∧ keepsBut [.time, .recorder] s r := by
  intro t s hrun hround hdue hlate
  have hexec : exec (.recorderCommitMissed t) s = .next ((s.at_ t).stand 0x8040 0 true) := by
    refine if_pos ?_
    have hrun' : (s.at_ t).running = true := hrun
    have hround' : (s.at_ t).roundPos = 99 := hround
    have hdue' : (s.at_ t).workDue 2 = true := hdue
    have hlate' : decide ((s.at_ t).frameStart + 9500000 ≤ t) = true := decide_eq_true hlate
    rw [hrun', hround', hdue', hlate']
    rfl
  have hkept : ∀ {β : Type} (p : RecState → β), (∀ x, p (counted x) = p x) → p ((s.at_ t).stand 0x8040 0 true).recorder = p s.recorder := fun p hp =>
    (hp _).symm.trans ((congrArg p (counted_stand 0x8040 0 (s.at_ t))).trans (hp _))
  exact ⟨_, hexec, isRaised_stand_true _ _ _ (by decide), hkept RecState.acc (fun _ => rfl),
    hkept RecState.strs (fun _ => rfl), hkept RecState.cellAcc (fun _ => rfl),
    hkept RecState.dieAcc (fun _ => rfl), hkept RecState.commits (fun _ => rfl), by simp +decide⟩

theorem clearRecorderRegion_waits : ∀ t session (region : BitVec 8) (token : BitVec 32) s, s.running = true → region.toNat < 4 →
    (token.toNat = (s.recorder.tokens.getD region.toNat (0, 0)).1 ∨ token.toNat = (s.recorder.tokens.getD region.toNat (0, 0)).2) → s.modeIn .recClearModes = true →
    s.recorder.clears.length < 256 → (∀ q ∈ s.recorder.clearReq, q.1 ≠ region.toNat) →
    Completes (.clearRecorderRegion t session region token) s fun r =>
      r.recorder = { s.recorder with clearReq := s.recorder.clearReq ++ [(region.toNat, token.toNat, session)] } ∧ keepsBut [.time, .recorder] s r := by
  intro t session region token s hrun hregion htoken hmode hroom hnew
  have hexec : exec (.clearRecorderRegion t session region token) s = .next (cmdClearRegion session region.toNat token.toNat (s.at_ t)).1 := if_pos hrun
  have hmode' : (s.at_ t).modeIn .recClearModes = true := hmode
  have hnew' : ¬(s.at_ t).recorder.clearReq.any (fun q => q.1 == region.toNat) = true := by
    rw [List.any_eq_true]
    rintro ⟨q, hq, he⟩
    exact hnew q hq (beq_iff_eq.1 he)
  have hcmd : cmdClearRegion session region.toNat token.toNat (s.at_ t) =
      accept ((s.at_ t).modRecorder fun r => { r with clearReq := r.clearReq ++ [(region.toNat, token.toNat, session)] }) := by
    unfold cmdClearRegion
    refine (if_neg ?_).trans (if_neg hnew')
    have htoken' : (token.toNat != ((s.at_ t).recorder.tokens.getD region.toNat (0, 0)).1 && token.toNat != ((s.at_ t).recorder.tokens.getD region.toNat (0, 0)).2) = false := by
      rcases htoken with h | h
      · exact Bool.and_eq_false_iff.2 (.inl (bne_eq_false_iff_eq.2 h))
      · exact Bool.and_eq_false_iff.2 (.inr (bne_eq_false_iff_eq.2 h))
    rw [decide_eq_false (not_le.2 hregion), htoken', hmode', decide_eq_false (show ¬256 ≤ (s.at_ t).recorder.clears.length from not_le.2 hroom)]
    decide
  rw [hcmd] at hexec
  exact ⟨_, hexec, rfl, by simp +decide⟩

theorem clearRecorderRegion_refused : ∀ t session (region : BitVec 8) (token : BitVec 32) s, s.running = true →
    (4 ≤ region.toNat ∨ token.toNat ≠ (s.recorder.tokens.getD region.toNat (0, 0)).1 ∧ token.toNat ≠ (s.recorder.tokens.getD region.toNat (0, 0)).2 ∨ s.modeIn .recClearModes = false ∨
      256 ≤ s.recorder.clears.length) →
    exec (.clearRecorderRegion t session region token) s = .next (State.raise 0x8042 0 (s.at_ t)) := by
  intro t session region token s hrun hreason
  have hexec : exec (.clearRecorderRegion t session region token) s = .next (cmdClearRegion session region.toNat token.toNat (s.at_ t)).1 := if_pos hrun
  have hcmd : cmdClearRegion session region.toNat token.toNat (s.at_ t) = refuse 0x8042 0 (s.at_ t) := by
    refine if_pos ?_
    rcases hreason with h | ⟨h1, h2⟩ | h | h
    · simp [h]
    · have htoken : (token.toNat != ((s.at_ t).recorder.tokens.getD region.toNat (0, 0)).1 && token.toNat != ((s.at_ t).recorder.tokens.getD region.toNat (0, 0)).2) = true :=
        Bool.and_eq_true_iff.2 ⟨bne_iff_ne.2 h1, bne_iff_ne.2 h2⟩
      rw [htoken, Bool.or_true, Bool.true_or, Bool.true_or]
    · have hmode' : (s.at_ t).modeIn .recClearModes = false := h
      simp [hmode']
    · simp [h]
  rw [hexec, hcmd]
  rfl

/-- The recorder when one region has been wiped and the clear noted, before its event and its new token. -/
def clearedRegion (q : Nat × Nat × Nat) (s : State) : RecState :=
  { wipeRegion s.frameStart q.1 s.recorder with
    clears := if s.recorder.clears.length < 256 then s.recorder.clears ++ [clearRecOf s q.1 q.2.2 q.2.1
      (if q.1 == 3 then (s.recorder.rings.map fun l => (l.filter fun e => decide (e.firstT < s.frameStart)).length).foldl (· + ·) 0 else 0) true] else s.recorder.clears }

theorem clearRegion_clears : ∀ g token session s,
    let r := clearRegion (g, token, session) s
    (g = 0 → r.recorder.strs = [{}, {}, {}, {}] ∧ r.recorder.acc = [{}, {}, {}, {}] ∧ r.recorder.cells = s.recorder.cells ∧ r.recorder.die = s.recorder.die) ∧
    (g = 1 → r.recorder.cells = [] ∧ r.recorder.cellAcc = [] ∧ r.recorder.strs = s.recorder.strs ∧ r.recorder.die = s.recorder.die) ∧
    (g = 2 → r.recorder.die = List.replicate 41 0 ∧ r.recorder.dieAcc = List.replicate 41 0 ∧ r.recorder.strs = s.recorder.strs ∧ r.recorder.cells = s.recorder.cells) ∧
    (g = 3 → (∀ k, k ≠ 7 → r.recorder.rings.getD k [] = survivors s.frameStart (s.recorder.rings.getD k [])) ∧ r.recorder.strs = s.recorder.strs ∧ r.recorder.cells = s.recorder.cells ∧ r.recorder.die = s.recorder.die) ∧
    (s.recorder.clears.length < 256 → ∃ c, r.recorder.clears = s.recorder.clears ++ [c] ∧ c.kind = g ∧ c.done = true ∧ c.session = session ∧ c.arg = token) ∧ keepsBut [.recorder, .freeCtr] s r := by
  intro g token session s r
  have hr : ∀ {β : Type} (p : RecState → β), (∀ x, p (counted x) = p x) → (∀ (x : RecState) tokens, p { x with tokens := tokens } = p x) →
      p r.recorder = p (clearedRegion (g, token, session) s) := fun p hp htok =>
    (htok _ _).trans ((hp _).symm.trans ((congrArg p (counted_raise 0x8041 g _)).trans (hp _)))
  have hring : ∀ k, k ≠ 7 → r.recorder.rings.getD k [] = (clearedRegion (g, token, session) s).rings.getD k [] := fun k hk =>
    raise_other_ring (code := 0x8041) (fun h => hk h.symm) hk g (s.modRecorder fun _ => clearedRegion (g, token, session) s)
  have hstrs := hr RecState.strs (fun _ => rfl) fun _ _ => rfl
  have hacc := hr RecState.acc (fun _ => rfl) fun _ _ => rfl
  have hcells := hr RecState.cells (fun _ => rfl) fun _ _ => rfl
  have hcellAcc := hr RecState.cellAcc (fun _ => rfl) fun _ _ => rfl
  have hdie := hr RecState.die (fun _ => rfl) fun _ _ => rfl
  have hdieAcc := hr RecState.dieAcc (fun _ => rfl) fun _ _ => rfl
  have hclears := hr RecState.clears (fun _ => rfl) fun _ _ => rfl
  refine ⟨fun h => ?_, fun h => ?_, fun h => ?_, fun h => ?_, fun hroom => ?_, ?_⟩
  · subst h
    exact ⟨hstrs, hacc, hcells, hdie⟩
  · subst h
    exact ⟨hcells, hcellAcc, hstrs, hdie⟩
  · subst h
    exact ⟨hdie, hdieAcc, hstrs, hcells⟩
  · subst h
    refine ⟨fun k hk => (hring k hk).trans ?_, hstrs, hcells, hdie⟩
    show (s.recorder.rings.map (survivors s.frameStart)).getD k [] = _
    rw [List.getD_eq_getElem?_getD, List.getElem?_map, List.getD_eq_getElem?_getD]
    cases s.recorder.rings[k]? <;> rfl
  · exact ⟨_, hclears.trans (if_pos hroom), rfl, rfl, rfl, rfl⟩
  · simp +decide [r]

theorem survivors_of_frame : ∀ (l : List EvRec) t0, ((∀ e ∈ l, e.lastT < t0) → survivors t0 l = []) ∧ ((∀ e ∈ l, t0 ≤ e.firstT ∧ e.firstT ≤ e.lastT) → survivors t0 l = l) := by
  intro l t0
  refine ⟨fun hold => ?_, fun hnew => ?_⟩
  · have hnone : (l.filter fun e => decide (t0 ≤ e.lastT)) = [] := List.filter_eq_nil_iff.2 fun e he => by simpa using hold e he
    simp [survivors, hnone]
  · have hall : (l.filter fun e => decide (t0 ≤ e.lastT)) = l := List.filter_eq_self.2 fun e he => by simpa using (hnew e he).1.trans (hnew e he).2
    have hany : ¬(l.any fun e => decide (e.firstT < t0)) = true := by
      rw [List.any_eq_true]
      rintro ⟨e, he, h⟩
      exact absurd (hnew e he).1 (not_le.2 (of_decide_eq_true h))
    unfold survivors
    rw [hall]
    exact if_neg hany

/-- Settles O46: the round commit, a missed one, and the clearing of each region. -/
theorem recorderCommits : Obligations.RecorderCommits :=
  ⟨recorderCommit_commits, recorderCommitMissed_keeps, clearRecorderRegion_waits, clearRecorderRegion_refused, clearRegion_clears, survivors_of_frame⟩

end Sys2Proof.Machine
end

section
/-!
PROOF. CyclicProgram: commands that wait, the deadline of a cycle, and the first piece of a program image.
-/
namespace Sys2Proof.Machine

/-! ### Commands that wait for the cycle boundary -/

theorem exec_programMode {t : Nat} {code : Fin 3} {s : State} (h : s.running = true) : exec (.programMode t code) s = .next (cmdProgMode code.val t (s.at_ t)).1 := if_pos h
theorem exec_forceVariable {t : Nat} {i : BitVec 16} {v : BitVec 64} {s : State} (h : s.running = true) :
    exec (.forceVariable t i v) s = .next (cmdForce i.toNat v.toNat t (s.at_ t)).1 := if_pos h
theorem exec_releaseForce {t : Nat} {i : BitVec 16} {s : State} (h : s.running = true) : exec (.releaseForce t i) s = .next (cmdRelease i.toNat t (s.at_ t)).1 := if_pos h
theorem exec_activateOnlineChange {t : Nat} {version : BitVec 32} {s : State} (h : s.running = true) :
    exec (.activateOnlineChange t version) s = .next (cmdActivateProg version.toNat t (s.at_ t)).1 := if_pos h

/-- A command that is accepted waits with its timestamp, and nothing else changes. -/
theorem completes_queued {c : Instr} {t : Nat} {q : ProgCmd} {s : State} (h : exec c s = .next (queueProg q t (s.at_ t))) :
    Completes c s fun r => r.prog = { s.prog with cmds := s.prog.cmds ++ [(q, t)] } ∧ keepsBut [.time, .prog] s r :=
  ⟨_, h, rfl, by simp +decide⟩

/-! ### The deadline of a cycle -/

/-- At its deadline unit 14 fires, which moves nothing of the program or the frame. -/
theorem exec_programDeadline {t us : Nat} {done : Bool} {s : State} (hrun : s.running = true) (hbegan : s.prog.began = true) :
    ∃ u, u.prog = s.prog ∧ u.frameStart = s.frameStart ∧ keepsBut [.time] s u ∧ exec (.programDeadline t us done) s =
      if done then .next (u.modProg fun p => { p with began := false, lastT := min 65535 us, maxT := max p.maxT (min 65535 us) })
      else if t < u.frameStart + 8000000 then .next u
      else .next (overrunProg (u.modProg fun p => { p with overruns := p.overruns + 1 })) := by
  have hkeep : keepsBut [.time] s (fireUnit 14 (s.at_ t)) := by simp +decide
  obtain ⟨-, -, -, -, hfrun, hstart⟩ := fireUnit_fields 14 (s.at_ t)
  have hprog : (fireUnit 14 (s.at_ t)).prog = s.prog := hkeep .prog (by decide)
  refine ⟨_, hprog, hstart, hkeep, if_neg ?_⟩
  rw [hfrun, hprog, hbegan, show (s.at_ t).running = true from hrun]
  decide

/-- An overrun stops the program, whose variables of the cycle and whose outputs are discarded (R462). -/
theorem overrunProg_facts {s : State} (hbegan : s.prog.began = true) :
    (overrunProg s).prog = { s.prog with vars := s.prog.before, st := .overrun, safeNext := true, outNext := none, began := false } ∧
      (overrunProg s).isRaised 0x7002 0 = true ∧ keepsBut [.prog, .recorder] s (overrunProg s) := by
  refine ⟨?_, isRaised_stand_true _ _ _ (by decide), by unfold overrunProg; simp +decide⟩
  have hdiscard : (s.modProg fun p => { p with vars := if p.began then p.before else p.vars }).prog = { s.prog with vars := s.prog.before } := by
    rw [State.modProg_prog]
    dsimp only
    rw [if_pos hbegan]
  unfold overrunProg
  rw [stand_prog]
  generalize (s.modProg fun p => { p with vars := if p.began then p.before else p.vars }) = u at *
  have hstop : (toProg .overrun u).prog = { u.prog with st := .overrun } := by
    unfold toProg
    split
    next hst =>
      have hst : u.prog.st = .overrun := beq_iff_eq.1 hst
      rw [← hst]
    · rfl
  rw [stopProg, State.modProg_prog, hstop, hdiscard]

/-- A part that comes out as it was is kept. -/
theorem keepsBut_of_same {p : Piece} {ps : List Piece} {s t : State} (h : keepsBut (p :: ps) s t) (hp : p.same s t) : keepsBut ps s t := by
  intro q hq
  by_cases hqp : q = p
  · exact hqp ▸ hp
  · exact h q fun hmem => (List.mem_cons.1 hmem).elim hqp hq

/-! ### Loading -/

/-- What the checks of an image read: the configuration in force and the Comb's map. -/
theorem progFault_of {s t : State} (hb : t.boot = s.boot) (hc : t.comb = s.comb) (bs : List Byte) : progFault t bs = progFault s bs := by
  have hcfg : stationCfg t = stationCfg s := by
    funext k
    rw [stationCfg, hb, stationCfg]
  have hused : usedStations t = usedStations s := by rw [usedStations, hcfg, usedStations]
  have hvar : varBad t = varBad s := by
    funext i v
    have hstation : stationVar t v.kind i = stationVar s v.kind i := by rw [stationVar, hused, hcfg, stationVar]
    rw [varBad, hstation, hb, varBad]
  have hinst : instBad t = instBad s := by
    funext vars d
    have hreader : t.parN .timeCapReader d.param = s.parN .timeCapReader d.param := by rw [State.parN, State.par, hb, State.parN, State.par]
    unfold instBad
    rw [hused, hc, hreader]
  rw [progFault, hvar, hinst, progFault]

theorem runOp_progLoad {k t seq : Nat} {x : Session} {pay : List Byte} (h : engineer x.role = true) (env : FhpEnv) (s : State) :
    runOp k x t seq 0x0601 pay env s = onePart (opProgLoad t pay s) := by
  have hrole : opRole x.role 0x0601 = true := by
    rw [opRole, if_neg (by decide), if_pos (by decide), h]
  rw [runOp, hrole]
  rfl

/-- The staging that a first piece begins (R466). -/
def firstPiece (t : Nat) (pay : List Byte) (s : State) : ProgStaging :=
  { version := rd 4 0 pay, total := rd 4 8 pay, pieces := [(rd 4 4 pay, pay.drop 16)], last := t, timeout := s.parN .progStageTimeout }

/-- A first piece whose lengths are in order is judged by the bytes that it makes present. -/
theorem opProgLoad_first {t : Nat} {pay : List Byte} {s : State} (hnone : s.prog.staging = none) (hlo : 17 ≤ pay.length) (hhi : pay.length ≤ 1400)
    (htotal : rd 4 8 pay ≤ 262176) (hfits : rd 4 4 pay + (pay.length - 16) ≤ rd 4 8 pay) :
    opProgLoad t pay s = match stagingBytes (firstPiece t pay s) with
      | none => opOk (s.modProg fun p => { p with staging := some (firstPiece t pay s) }) []
      | some bs => match progFault s bs with
        | some k => opFail 8 0x7003 ((s.modProg fun p => { p with staging := none }).raise 0x7003 k)
        | none => opOk (((s.modProg fun p => { p with staging := none }).modProg fun p => { p with staged := some (imageOf bs) }).raise 0x7001 0) [] := by
  have hgood : (decide (pay.length < 17) || decide (1384 < (pay.drop 16).length) || rd 4 8 pay == 0 || decide (262176 < rd 4 8 pay) ||
      decide (rd 4 8 pay < rd 4 4 pay + (pay.drop 16).length) || false) = false := by
    rw [List.length_drop, decide_eq_false (show ¬pay.length < 17 by omega), decide_eq_false (show ¬1384 < pay.length - 16 by omega), beq_eq_false_iff_ne.2 (show rd 4 8 pay ≠ 0 by omega),
      decide_eq_false (show ¬262176 < rd 4 8 pay by omega), decide_eq_false (show ¬rd 4 8 pay < rd 4 4 pay + (pay.length - 16) by omega)]
    rfl
  unfold opProgLoad
  rw [hnone]
  dsimp only
  rw [hgood]
  rfl

/-- One piece that is shorter than its image leaves bytes missing. -/
theorem stagingBytes_short {g : ProgStaging} {off : Nat} {d : List Byte} (hp : g.pieces = [(off, d)]) (h : d.length < g.total) : stagingBytes g = none := by
  unfold stagingBytes
  rw [hp]
  refine if_neg ?_
  show ¬((if off ≤ 0 then [] ++ d.drop (0 - off) else []).length == g.total) = true
  rw [beq_iff_eq]
  split
  · rw [List.nil_append, List.length_drop]
    omega
  · rw [List.length_nil]
    omega

theorem stagingBytes_whole {g : ProgStaging} {d : List Byte} (hp : g.pieces = [(0, d)]) (h : g.total = d.length) : stagingBytes g = some d := by
  unfold stagingBytes
  rw [hp]
  refine if_pos ?_
  exact beq_iff_eq.2 h.symm

/-- The piece of a whole image on the state in which its request has begun. -/
theorem opProgLoad_whole {t seq k : Nat} {x : Session} {pay : List Byte} {s : State} (hnone : s.prog.staging = none) (hlo : 17 ≤ pay.length) (hhi : pay.length ≤ 1400)
    (hoff : rd 4 4 pay = 0) (htotal : rd 4 8 pay = pay.length - 16) :
    opProgLoad t pay (begun t seq k x s) = match progFault s (pay.drop 16) with
      | some i => opFail 8 0x7003 (((begun t seq k x s).modProg fun p => { p with staging := none }).raise 0x7003 i)
      | none => opOk ((((begun t seq k x s).modProg fun p => { p with staging := none }).modProg fun p => { p with staged := some (imageOf (pay.drop 16)) }).raise 0x7001 0) [] := by
  rw [opProgLoad_first (s := begun t seq k x s) hnone hlo hhi (by omega) (by omega),
    stagingBytes_whole (d := pay.drop 16) (by rw [firstPiece, hoff]) (by rw [List.length_drop]; exact htotal)]
  dsimp only
  rw [progFault_of (s := s) (t := begun t seq k x s) rfl rfl]

theorem programMode_queued : ∀ t (code : Fin 3) s, s.running = true → (code ≠ 2 ∨ s.boot.mode ≠ .operate) →
    Completes (.programMode t code) s fun r => r.prog = { s.prog with cmds := s.prog.cmds ++ [(.mode code.val, t)] } ∧ keepsBut [.time, .prog] s r := by
  intro t code s hrun hmode
  refine completes_queued ((exec_programMode hrun).trans ?_)
  have hcode : ¬2 < code.val := by omega
  have hmode' : ¬(code.val == 2 && (s.at_ t).boot.mode == .operate) = true := by
    rw [Bool.and_eq_true, beq_iff_eq, beq_iff_eq]
    rintro ⟨h2, hop⟩
    rcases hmode with h | h
    · exact h (Fin.ext h2)
    · exact h hop
  rw [cmdProgMode, if_neg hcode, if_neg hmode']
  rfl

theorem programMode_hold : ∀ t s, s.running = true → s.boot.mode = .operate → exec (.programMode t 2) s = .next (State.raise 0x700A 0 (s.at_ t)) := by
  intro t s hrun hop
  have hmode : (s.at_ t).boot.mode = .operate := hop
  rw [exec_programMode hrun, cmdProgMode, if_neg (by decide), if_pos (by rw [hmode]; decide)]

theorem forceVariable_queued : ∀ t (i : BitVec 16) (v : BitVec 64) b s, s.running = true → ((soonProg s).vars.getD i.toNat {}).typ ≠ 0 → ((soonProg s).vars.getD i.toNat {}).kind ≠ 1 →
    forceBits ((soonProg s).vars.getD i.toNat {}).typ v.toNat = some b → (s.boot.mode = .operate → s.parB .progForceOperate = true) →
    ((forcedSoon s).length < 64 ∨ i.toNat ∈ forcedSoon s) →
    Completes (.forceVariable t i v) s fun r => r.prog = { s.prog with cmds := s.prog.cmds ++ [(.force i.toNat b, t)] } ∧ keepsBut [.time, .prog] s r := by
  intro t i v b s hrun htyp hkind hbits hmode hroom
  refine completes_queued ((exec_forceVariable hrun).trans ?_)
  have hvar : ¬(((soonProg s).vars.getD i.toNat {}).typ == 0 || ((soonProg s).vars.getD i.toNat {}).kind == 1) = true := by
    rw [beq_eq_false_iff_ne.2 htyp, beq_eq_false_iff_ne.2 hkind]
    decide
  have hadmits : ¬((s.at_ t).boot.mode == .operate && !(s.at_ t).parB .progForceOperate) = true := by
    rw [Bool.and_eq_true, beq_iff_eq, Bool.not_eq_true']
    rintro ⟨hop, hno⟩
    exact absurd ((hmode hop).symm.trans hno) (by decide)
  have hplace : ¬(!(forcedSoon (s.at_ t)).contains i.toNat && decide (64 ≤ (forcedSoon (s.at_ t)).length)) = true := by
    rw [Bool.and_eq_true, Bool.not_eq_true', decide_eq_true_eq]
    rintro ⟨hout, hfull⟩
    rcases hroom with h | h
    · exact absurd hfull (not_le.2 h)
    · exact absurd ((List.contains_iff_mem.2 h).symm.trans hout) (by decide)
  have hcmd : cmdForce i.toNat v.toNat t (s.at_ t) = accept (queueProg (.force i.toNat b) t (s.at_ t)) := by
    refine (if_neg hvar).trans ?_
    rw [show forceBits ((soonProg (s.at_ t)).vars.getD i.toNat {}).typ v.toNat = some b from hbits]
    exact (if_neg hadmits).trans (if_neg hplace)
  rw [hcmd]
  rfl

theorem forceVariable_untyped : ∀ t (i : BitVec 16) (v : BitVec 64) s, s.running = true → forceBits ((soonProg s).vars.getD i.toNat {}).typ v.toNat = none →
    exec (.forceVariable t i v) s = .next (s.at_ t) := by
  intro t i v s hrun hbits
  rw [exec_forceVariable hrun]
  have hcmd : cmdForce i.toNat v.toNat t (s.at_ t) = answer 9 0 (s.at_ t) := by
    unfold cmdForce
    dsimp only
    split
    · rfl
    · rw [show forceBits ((soonProg (s.at_ t)).vars.getD i.toNat {}).typ v.toNat = none from hbits]
  rw [hcmd]
  rfl

theorem releaseForce_queued : ∀ t (i : BitVec 16) s, s.running = true → (varDef s i.toNat).typ ≠ 0 →
    Completes (.releaseForce t i) s fun r => r.prog = { s.prog with cmds := s.prog.cmds ++ [(.release i.toNat, t)] } ∧ keepsBut [.time, .prog] s r := by
  intro t i s hrun htyp
  have hcmd : cmdRelease i.toNat t (s.at_ t) = accept (queueProg (.release i.toNat) t (s.at_ t)) :=
    if_neg (fun h => htyp (beq_iff_eq.1 h))
  exact completes_queued ((exec_releaseForce hrun).trans (by rw [hcmd]; rfl))

theorem activateOnlineChange_queued : ∀ t (version : BitVec 32) p s, s.running = true → s.prog.staged = some p → p.version = version.toNat →
    Completes (.activateOnlineChange t version) s fun r => r.prog = { s.prog with cmds := s.prog.cmds ++ [(.activate version.toNat, t)] } ∧ keepsBut [.time, .prog] s r := by
  intro t version p s hrun hstaged hversion
  have hcmd : cmdActivateProg version.toNat t (s.at_ t) = accept (queueProg (.activate version.toNat) t (s.at_ t)) := by
    have hstaged' : (s.at_ t).prog.staged = some p := hstaged
    rw [cmdActivateProg, hstaged']
    exact if_pos (beq_iff_eq.2 hversion)
  exact completes_queued ((exec_activateOnlineChange hrun).trans (by rw [hcmd]; rfl))

theorem activateOnlineChange_refused : ∀ t (version : BitVec 32) s, s.running = true → (∀ p, s.prog.staged = some p → p.version ≠ version.toNat) →
    exec (.activateOnlineChange t version) s = .next (State.raise 0x7003 0 (s.at_ t)) := by
  intro t version s hrun hother
  have hcmd : cmdActivateProg version.toNat t (s.at_ t) = refuse 0x7003 0 (s.at_ t) := by
    unfold cmdActivateProg
    split
    next p hp => exact if_neg fun h => hother p hp (beq_iff_eq.1 h)
    next => rfl
  rw [exec_activateOnlineChange hrun, hcmd]
  rfl

theorem programDeadline_done : ∀ t us s, s.running = true → s.prog.began = true →
    Completes (.programDeadline t us true) s fun r =>
      r.prog = { s.prog with began := false, lastT := min 65535 us, maxT := max s.prog.maxT (min 65535 us) } ∧ keepsBut [.time, .prog] s r := by
  intro t us s hrun hbegan
  obtain ⟨u, hprog, -, hkeep, hexec⟩ := exec_programDeadline (t := t) (us := us) (done := true) hrun hbegan
  exact ⟨_, hexec.trans (if_pos rfl), by rw [State.modProg_prog, hprog], keepsBut_trans (keepsBut_mono hkeep (by decide)) (by simp +decide)⟩

theorem programDeadline_overrun : ∀ t us s, s.running = true → s.prog.began = true → s.frameStart + 8000000 ≤ t →
    Completes (.programDeadline t us false) s fun r =>
      r.prog.st = .overrun ∧ r.prog.overruns = s.prog.overruns + 1 ∧ r.prog.vars = s.prog.before ∧ r.prog.outNext = none ∧ r.prog.safeNext = true ∧ r.prog.began = false ∧
      r.prog.outNow = s.prog.outNow ∧ r.isRaised 0x7002 0 = true ∧ keepsBut [.time, .prog, .recorder] s r := by
  intro t us s hrun hbegan hlate
  obtain ⟨u, hprog, hstart, hkeep, hexec⟩ := exec_programDeadline (t := t) (us := us) (done := false) hrun hbegan
  rw [if_neg (by decide), hstart, if_neg (not_lt.2 hlate)] at hexec
  obtain ⟨hstop, hraised, hover⟩ := overrunProg_facts (s := u.modProg fun p => { p with overruns := p.overruns + 1 }) (by rw [State.modProg_prog, hprog]; exact hbegan)
  rw [State.modProg_prog, hprog] at hstop
  refine ⟨_, hexec, ?_, ?_, ?_, ?_, ?_, ?_, ?_, hraised,
    keepsBut_trans (keepsBut_mono hkeep (by decide)) (keepsBut_trans (t := u.modProg fun p => { p with overruns := p.overruns + 1 }) (by simp +decide) (keepsBut_mono hover (by decide)))⟩
  all_goals rw [hstop]

theorem programStagingTimeout_ends : ∀ t g s, s.up = true → s.prog.staging = some g → g.last + g.timeout * 1000000000 ≤ t →
    Completes (.programStagingTimeout t) s fun r => r.prog = { s.prog with staging := none } ∧ keepsBut [.time, .prog] s r := by
  intro t g s hup hstaging hlate
  have hexec : exec (.programStagingTimeout t) s = .next ((s.at_ t).modProg fun p => { p with staging := none }) := by
    show execProgramStagingTimeout t s = _
    have hstaging' : (s.at_ t).prog.staging = some g := hstaging
    have hup' : (s.at_ t).up = true := hup
    unfold execProgramStagingTimeout
    dsimp only
    rw [hstaging']
    exact if_pos (Bool.and_eq_true_iff.2 ⟨hup', decide_eq_true hlate⟩)
  exact ⟨_, hexec, rfl, by simp +decide⟩

theorem progLoad_first : ∀ t id seq pay k x s, admitted t id seq 0x0601 pay k x s → engineer x.role = true → s.prog.staging = none → 17 ≤ pay.length → pay.length ≤ 1400 →
    rd 4 8 pay ≤ 262176 → rd 4 4 pay + (pay.length - 16) ≤ rd 4 8 pay → pay.length - 16 < rd 4 8 pay →
    Completes (.progLoad t id seq pay) s fun r =>
      r.prog = { s.prog with staging := some { version := rd 4 0 pay, total := rd 4 8 pay, pieces := [(rd 4 4 pay, pay.drop 16)], last := t, timeout := s.parN .progStageTimeout } } ∧
      carriedOut k x t seq 0x0601 [stBytes 0 0] s r ∧ keepsBut [.time, .host, .prog, .out] s r := by
  intro t id seq pay k x s hadm hrole hnone hlo hhi htotal hfits hshort
  have hrun := runOp_progLoad (k := k) (t := t) (seq := seq) (x := noted t seq x s) (pay := pay) hrole {} (begun t seq k x s)
  rw [opProgLoad_first (s := begun t seq k x s) hnone hlo hhi htotal hfits, stagingBytes_short (g := firstPiece t pay (begun t seq k x s)) rfl (by rw [List.length_drop]; exact hshort)] at hrun
  obtain ⟨hcarried, hkeep, -⟩ := request_onePart hadm (by decide) (by decide) hrun rfl rfl
  refine ⟨_, rfl, hkeep .prog (by decide), hcarried, ?_⟩
  exact keepsBut_trans (keepsBut_mono (begun_frame t seq k x s) (by decide))
    (keepsBut_trans (t := (begun t seq k x s).modProg fun p => { p with staging := some (firstPiece t pay (begun t seq k x s)) }) (by simp +decide) (keepsBut_mono hkeep (by decide)))

theorem progLoad_staged : ∀ t id seq pay k x s, admitted t id seq 0x0601 pay k x s → engineer x.role = true → s.prog.staging = none → 17 ≤ pay.length → pay.length ≤ 1400 →
    rd 4 4 pay = 0 → rd 4 8 pay = pay.length - 16 → progFault s (pay.drop 16) = none →
    Completes (.progLoad t id seq pay) s fun r =>
      r.prog = { s.prog with staged := some (imageOf (pay.drop 16)) } ∧ r.recorder = (State.raise 0x7001 0 (s.at_ t)).recorder ∧
      carriedOut k x t seq 0x0601 [stBytes 0 0] s r ∧ keepsBut [.time, .host, .prog, .recorder, .out] s r := by
  intro t id seq pay k x s hadm hrole hnone hlo hhi hoff htotal hfault
  have hrun := runOp_progLoad (k := k) (t := t) (seq := seq) (x := noted t seq x s) (pay := pay) hrole {} (begun t seq k x s)
  rw [opProgLoad_whole hnone hlo hhi hoff htotal, hfault] at hrun
  obtain ⟨hcarried, hkeep, -⟩ := request_onePart hadm (by decide) (by decide) hrun rfl rfl
  refine ⟨_, rfl, (hkeep .prog (by decide)).trans ?_, hkeep .recorder (by decide), hcarried, ?_⟩
  · show { s.prog with staging := none, staged := some (imageOf (pay.drop 16)) } = { s.prog with staged := some (imageOf (pay.drop 16)) }
    rw [← hnone]
  · exact keepsBut_trans (keepsBut_mono (begun_frame t seq k x s) (by decide)) (keepsBut_trans
      (t := (((begun t seq k x s).modProg fun p => { p with staging := none }).modProg fun p => { p with staged := some (imageOf (pay.drop 16)) }).raise 0x7001 0)
      (by simp +decide) (keepsBut_mono hkeep (by decide)))

theorem progLoad_refused : ∀ t id seq pay k x i s, admitted t id seq 0x0601 pay k x s → engineer x.role = true → s.prog.staging = none → 17 ≤ pay.length → pay.length ≤ 1400 →
    rd 4 4 pay = 0 → rd 4 8 pay = pay.length - 16 → progFault s (pay.drop 16) = some i →
    Completes (.progLoad t id seq pay) s fun r =>
      r.prog = s.prog ∧ r.recorder = (State.raise 0x7003 i (s.at_ t)).recorder ∧ carriedOut k x t seq 0x0601 [stBytes 8 0x7003] s r ∧
      keepsBut [.time, .host, .recorder, .out] s r := by
  intro t id seq pay k x i s hadm hrole hnone hlo hhi hoff htotal hfault
  have hrun := runOp_progLoad (k := k) (t := t) (seq := seq) (x := noted t seq x s) (pay := pay) hrole {} (begun t seq k x s)
  rw [opProgLoad_whole hnone hlo hhi hoff htotal, hfault] at hrun
  obtain ⟨hcarried, hkeep, -⟩ := request_onePart hadm (by decide) (by decide) hrun rfl rfl
  have hprog : (request t id seq 0x0601 pay {} s).prog = s.prog := by
    refine (hkeep .prog (by decide)).trans ?_
    show { s.prog with staging := none } = s.prog
    rw [← hnone]
  refine ⟨_, rfl, hprog, hkeep .recorder (by decide), hcarried, ?_⟩
  have hkept : keepsBut [.time, .host, .prog, .recorder, .out] s (request t id seq 0x0601 pay {} s) :=
    keepsBut_trans (keepsBut_mono (begun_frame t seq k x s) (by decide)) (keepsBut_trans
      (t := ((begun t seq k x s).modProg fun p => { p with staging := none }).raise 0x7003 i) (by simp +decide) (keepsBut_mono hkeep (by decide)))
  exact keepsBut_of_same (p := .prog) (keepsBut_mono hkept (by decide)) hprog

/-- Settles O42: each command waits or is turned away, an overrun discards the cycle, and an image is staged or refused. -/
theorem cyclicProgram : Obligations.CyclicProgram :=
  ⟨programMode_queued, programMode_hold, forceVariable_queued, forceVariable_untyped, releaseForce_queued, activateOnlineChange_queued, activateOnlineChange_refused, programDeadline_done, programDeadline_overrun, programStagingTimeout_ends, progLoad_first, progLoad_staged, progLoad_refused⟩

end Sys2Proof.Machine
end

section
/-!
PROOF. MemoryFaults: with no program in force there is none to stop when both copies of its line fail (Table 18-3).
-/
namespace Sys2Proof.Machine

theorem mirrorLost_program_of_none {s : State} (h : s.prog.st = .none) : mirrorLost .program s = s := by
  unfold mirrorLost
  exact if_pos (beq_iff_eq.2 h)

/-- A lost line of the program, where there is no program, leaves the program's part as it was. -/
theorem repairLine_prog_of_none {f : LineFault} {s : State} (hholds : f.holds = .mirrored .program true) (hfails : lineFails f = true) (hnone : s.prog.st = .none) :
    (repairLine f s).prog = s.prog := by
  have hcount : keepsBut [.mem, .bist, .recorder] s ((countLine f.addr s).raise 0x800B f.addr) := by simp +decide
  have hprog : ((countLine f.addr s).raise 0x800B f.addr).prog = s.prog := hcount .prog (by decide)
  have hcontent : repairContent f s = (countLine f.addr s).raise 0x800B f.addr := by
    unfold repairContent
    rw [hholds]
    exact (if_pos rfl).trans (mirrorLost_program_of_none (by rw [hprog]; exact hnone))
  have hrepair : repairLine f s = writeBack f (repairContent f s) := by
    unfold repairLine
    rw [if_pos hfails, hholds]
  have hwrite : keepsBut [.mem] ((countLine f.addr s).raise 0x800B f.addr) (writeBack f ((countLine f.addr s).raise 0x800B f.addr)) := by simp +decide
  have hkept : (writeBack f ((countLine f.addr s).raise 0x800B f.addr)).prog = _ := hwrite .prog (by decide)
  rw [hrepair, hcontent, hkept, hprog]

/-- A line of the mirrored program whose check does not belong to its content. -/
def lostProgramLine : LineFault := { addr := 0, data := [], check := 0, source := [], part := none, holds := .mirrored .program true }

/-- Refutes O47: with no program in force, a line of the program whose two copies fail leaves it without one. -/
theorem not_memoryFaults : ¬ Obligations.MemoryFaults := by
  rintro ⟨-, -, -, -, -, -, -, -, -, -, stops, -⟩
  have hfails : lineFails lostProgramLine = true := by decide +kernel
  obtain ⟨hst, -⟩ := stops lostProgramLine Tests.run0 rfl hfails
  rw [repairLine_prog_of_none rfl hfails rfl] at hst
  exact absurd hst (by decide)

end Sys2Proof.Machine
end

section
/-!
PROOF. SelfTests: the clause on a lone core pair bounds neither the pairs that stand in the state nor the position of the cycle, and a bank slice with no bank to test is
skipped all the same.
-/
namespace Sys2Proof.Machine

/-- Outcome of the newest self-test record in the state that a command leaves. -/
def newestOutcome : Host.Outcome State Fault Refusal → Option Nat
  | .next s => s.bist.ring.head?.map (·.outcome)
  | _ => none

theorem newestOutcome_of_ring {r : State} {e : BistRec} {l : List BistRec} (h : r.bist.ring = e :: l) : newestOutcome (.next r) = some e.outcome := by
  simp only [newestOutcome, h, List.head?_cons, Option.map_some]

/-- Pairs A and B serve and a third entry does not; the cycle stands at a bank slice, and no bank is spare or retired. -/
def noBankToTest : State :=
  let s := Tests.run0
  { s with
    time := { s.time with frame := 150 }, therm := { s.therm with throttle := false }
    pwr := { s.pwr with seqAt := none, grant := [1, 1, 1, 1], mv := [12000, 3300, 3300, 1800, 800] }
    mem := { s.mem with pairOk := [true, true, false], banks := List.replicate 9 { st := 0, logical := some 1 } }
    bist := { s.bist with running := none, lastFrame := some 149, ptr := 3 } }

theorem noBankToTest_meets :
    noBankToTest.running = true ∧ noBankToTest.roundPos = 50 ∧ noBankToTest.frameStart + 5000000 ≤ 1505000009 ∧ 1505000009 ≤ noBankToTest.frameStart + 9000000 ∧
      noBankToTest.bist.running = none ∧ noBankToTest.bist.lastFrame ≠ some noBankToTest.time.frame ∧ onePair noBankToTest = true ∧ noBankToTest.therm.throttle = false ∧
      noBankToTest.pwr.seqAt = none ∧ unmet noBankToTest (slicePos noBankToTest) (800 : BitVec 16).toNat true = 0 := by
  decide +kernel

/-- The slice due is skipped, for there is no bank that it could test. -/
theorem noBankToTest_skips : newestOutcome (execBistSlice 1505000009 800 true (some (true, 77)) noBankToTest) = some 2 := by decide +kernel

/-- Refutes O48: with one pair out of service the slice due may be a bank slice, and with no bank to test it is skipped, not passed. -/
theorem not_selfTests : ¬ Obligations.SelfTests := by
  rintro ⟨-, alone, -⟩
  obtain ⟨hrun, hround, hfrom, hto, hidle, hnew, hpair, hcool, hpower, hmet⟩ := noBankToTest_meets
  obtain ⟨r, hr, ⟨e, hring, -, hpass, -⟩, -⟩ := alone 1505000009 800 true true 77 noBankToTest hrun hround hfrom hto hidle hnew hpair hcool hpower hmet
  have hout := noBankToTest_skips
  rw [show execBistSlice 1505000009 800 true (some (true, 77)) noBankToTest = .next r from hr, newestOutcome_of_ring hring, hpass] at hout
  exact absurd (Option.some.inj hout) (by decide)

end Sys2Proof.Machine
end

section
/-!
PROOF. Modes: a change that waits or is refused, the boundary at which it acts, a restart, and the confirmation of an SCV.
-/
namespace Sys2Proof.Machine

/-! ### A restart of the module -/

/-- Right after a restart the Guard has not started anew, and grants nothing (R321). -/
theorem permits_mainReset {p : Phase} (hp : p ≠ .mainReset) (cause n : Nat) (s : State) : permits (mainReset p cause s) n = false := by
  have hguard : (mainReset p cause s).guard = guardRestart s.guard := if_neg (fun h => hp (beq_iff_eq.1 h))
  have hstarted : (mainReset p cause s).guard.started = false := by rw [hguard]; rfl
  unfold permits guardPermit
  extract_lets g
  rw [show g.started = false from hstarted]
  rfl

theorem closeSessions_frame (s : State) : keepsBut [.host, .recorder] s (forEach (List.range 8) closeSession s) :=
  (keepsBut_forEach_iff (fun k s => by simp +decide) _ _ _).2 (keepsBut_refl _ _)

/-- What a restart leaves: Start begins at step 1 with every gate off and no session; MRAM, the queue and what has left stay (R515, R516). -/
structure restarted (cause : Nat) (s t : State) : Prop where
  boot : t.boot = keepBoot .start cause s.time.now s.boot
  time : t.time = keepTime s.time
  gates : ∀ n, n < 4 → gateEn t n = false
  out : t.out = Output.restart cause :: s.out
  learned : t.learned = s.learned
  pending : t.pending = s.pending
  sessions : ∀ k, sessionAt t k = none
  bist : t.bist = {}

theorem restartModule_restarted (cause : Nat) (s : State) : restarted cause s (restartModule cause s) := by
  have hclosed := closeSessions_frame s
  unfold restartModule
  generalize forEach (List.range 8) closeSession s = v at hclosed
  have hstage : keepsBut [.est, .guard] ((mainReset .start cause v).send (.restart cause)) (stageAll ((mainReset .start cause v).send (.restart cause))) := by simp +decide
  have hboot : v.boot = s.boot := hclosed .boot (by decide)
  have htime : v.time = s.time := hclosed .time (by decide)
  have hout : v.out = s.out := hclosed .out (by decide)
  have hlearned : v.learned = s.learned := hclosed .learned (by decide)
  have hpending : v.pending = s.pending := hclosed .pending (by decide)
  have hhost : (stageAll ((mainReset .start cause v).send (.restart cause))).host = {} := hstage .host (by decide)
  refine ⟨(hstage .boot (by decide)).trans ?_, (hstage .time (by decide)).trans ?_, fun n hn => ?_, (hstage .out (by decide)).trans ?_, (hstage .learned (by decide)).trans hlearned,
    (hstage .pending (by decide)).trans hpending, fun k => ?_, hstage .bist (by decide)⟩
  · rw [← hboot, ← htime]
    rfl
  · rw [← htime]
    rfl
  · refine Bool.eq_false_iff.2 fun h => ?_
    have hpermits : permits (mainReset .start cause v) n = true := gateEn_stageAll hn h
    rw [permits_mainReset (by decide)] at hpermits
    exact absurd hpermits (by decide)
  · rw [← hout]
    rfl
  · rw [sessionAt, hhost, List.getD_eq_getElem?_getD]
    show ((List.replicate 8 none)[k]?).getD none = none
    rw [List.getElem?_replicate]
    split <;> rfl

/-! ### Modes -/

/-- Entering a mode changes the mode of the boot state and nothing else of it (R526). -/
theorem enterMode_boot (m : Mode) (o : Owner) (s : State) : (enterMode m o s).boot = { s.boot with mode := m } := by
  unfold enterMode
  extract_lets old s0 s1 s2 s3
  split
  next h =>
    have hm : s.boot.mode = m := beq_iff_eq.1 h
    rw [← hm]
  next =>
    have hnoted : keepsBut [.recorder, .disp, .reg] s0 s3 := by
      have h1 : keepsBut [.recorder, .disp, .reg] s0 s1 := keepsBut_ite_of (keepsBut_refl _ _) (by simp +decide)
      have h2 : keepsBut [.recorder, .disp, .reg] s1 s2 := keepsBut_ite_of (by simp +decide) (keepsBut_refl _ _)
      exact keepsBut_trans h1 (keepsBut_trans h2 (keepsBut_ite_of (keepsBut_refl _ _) (by simp +decide)))
    have hboot : s3.boot = { s.boot with mode := m } := hnoted .boot (by decide)
    have hlast : keepsBut [.surv, .learned, .recorder, .disp, .prog] s3 (match m with | .standby => writeAll 2 (disconnectAll s3) | .operate => autoConnect (progOperate s3) | _ => s3) := by
      split <;> simp +decide
    exact (hlast .boot (by decide)).trans hboot

theorem forEach_raise_frame {α : Type} (l : List α) (c a : Nat) (s : State) : keepsBut [.recorder] s (forEach l (fun _ s => State.raise c a s) s) :=
  (forEach_raise_can l c a s).2

/-- A confirmation stores the generation and its SCV in both copies (R338). -/
theorem confirmed_writePair {s : State} {x : Nat × Nat} {p : Pair (Nat × Nat)} (h : s.boot.confirm = writePair p x) : confirmed s = some x := by
  rw [confirmed, h]
  exact if_pos (beq_iff_eq.2 rfl)

theorem changeMode_waits : ∀ t ro (code : BitVec 8) m s, s.running = true → 1 ≤ code.toNat → code.toNat ≤ 4 → modeOfCode code.toNat = some m →
    (engineer ro = true ∨ operator ro = true ∧ (code.toNat = 2 ∨ code.toNat = 3)) → changeAdmitted s m = true →
    Completes (.changeMode t ro code) s fun r =>
      r.boot = { s.boot with modeNext := s.boot.modeNext ++ [(m, s.time.frame + (if t ≤ s.frameStart + 9000000 then 1 else 2))] } ∧ keepsBut [.time, .boot] s r := by
  intro t ro code m s hrun hlo hhi hm hrole hadmit
  have hexec : exec (.changeMode t ro code) s = .next (cmdChangeMode code.toNat ro t (s.at_ t)).1 := if_pos hrun
  have hrights : (if code.toNat == 2 || code.toNat == 3 then operator ro else engineer ro) = true := by
    rcases hrole with h | ⟨h, h23⟩
    · split
      · rw [operator, h, Bool.or_true]
      · exact h
    · rw [if_pos (by simpa using h23)]
      exact h
  have hadmit' : changeAdmitted (s.at_ t) m = true := hadmit
  have hcmd : cmdChangeMode code.toNat ro t (s.at_ t) = accept ((s.at_ t).modBoot fun b => { b with
      modeNext := b.modeNext ++ [(m, (s.at_ t).time.frame + (if t ≤ (s.at_ t).frameStart + 9000000 then 1 else 2))] }) := by
    unfold cmdChangeMode
    rw [if_pos (by rw [decide_eq_true hlo, decide_eq_true hhi]; rfl), hm]
    exact (if_neg (by rw [hrights]; decide)).trans (if_neg (by rw [hadmit']; decide))
  rw [hcmd] at hexec
  exact ⟨_, hexec, rfl, by simp +decide⟩

theorem changeMode_refused : ∀ t ro (code : BitVec 8) m s, s.running = true → 1 ≤ code.toNat → code.toNat ≤ 4 → modeOfCode code.toNat = some m → engineer ro = true → changeAdmitted s m = false →
    exec (.changeMode t ro code) s = .next (State.raise 0x9009 0 (s.at_ t)) := by
  intro t ro code m s hrun hlo hhi hm hrole hadmit
  have hexec : exec (.changeMode t ro code) s = .next (cmdChangeMode code.toNat ro t (s.at_ t)).1 := if_pos hrun
  have hrights : (if code.toNat == 2 || code.toNat == 3 then operator ro else engineer ro) = true := by
    split
    · rw [operator, hrole, Bool.or_true]
    · exact hrole
  have hadmit' : changeAdmitted (s.at_ t) m = false := hadmit
  have hcmd : cmdChangeMode code.toNat ro t (s.at_ t) = answer 7 0x9009 ((s.at_ t).raise 0x9009 0) := by
    unfold cmdChangeMode
    rw [if_pos (by rw [decide_eq_true hlo, decide_eq_true hhi]; rfl), hm]
    exact (if_neg (by rw [hrights]; decide)).trans (if_pos (by rw [hadmit']; rfl))
  rw [hexec, hcmd]
  rfl

theorem modeFrame_latched : ∀ s, groupLatched s = true → s.boot.mode ≠ .start → s.boot.mode ≠ .lockout → (modeFrame s).boot.mode = .lockout ∧ (modeFrame s).boot.modeNext = [] := by
  intro s hlatch hstart hlockout
  have hdrop : keepsBut [.recorder] (s.modBoot fun b => { b with modeNext := [] }) (forEach s.boot.modeNext (fun _ s => s.raise 0x9009 0) (s.modBoot fun b => { b with modeNext := [] })) :=
    forEach_raise_frame _ _ _ _
  have hboot : (forEach s.boot.modeNext (fun _ s => State.raise 0x9009 0 s) (s.modBoot fun b => { b with modeNext := [] })).boot = { s.boot with modeNext := [] } := hdrop .boot (by decide)
  have hframe : modeFrame s = enterMode .lockout .safety (forEach s.boot.modeNext (fun _ s => s.raise 0x9009 0) (s.modBoot fun b => { b with modeNext := [] })) := by
    unfold modeFrame
    dsimp only
    split
    next h => exact absurd h hstart
    next h => exact absurd h hlockout
    next => exact if_pos hlatch
  rw [hframe, enterMode_boot, hboot]
  exact ⟨rfl, rfl⟩

theorem modeFrame_due : ∀ m f s, groupLatched s = false → s.boot.mode ≠ .start → s.boot.mode ≠ .lockout →
    (s.boot.modeNext.filter fun p => decide (p.2 ≤ s.time.frame)).getLast? = some (m, f) →
    (m = s.boot.mode ∨ changeAdmitted s m = true → (modeFrame s).boot.mode = m) ∧ (m ≠ s.boot.mode → changeAdmitted s m = false → (modeFrame s).boot.mode = s.boot.mode) := by
  intro m f s hlatch hstart hlockout hdue
  have hframe : modeFrame s = if m == s.boot.mode || changeAdmitted s m then
      enterMode m .command (s.modBoot fun b => { b with modeNext := s.boot.modeNext.filter fun p => !decide (p.2 ≤ s.time.frame) })
      else (s.modBoot fun b => { b with modeNext := s.boot.modeNext.filter fun p => !decide (p.2 ≤ s.time.frame) }).raise 0x9009 0 := by
    unfold modeFrame
    dsimp only
    split
    next h => exact absurd h hstart
    next h => exact absurd h hlockout
    next =>
      rw [if_neg (by rw [hlatch]; decide), hdue]
      rfl
  refine ⟨fun h => ?_, fun hm hno => ?_⟩
  · have hcond : (m == s.boot.mode || changeAdmitted s m) = true := Bool.or_eq_true_iff.2 (h.imp beq_iff_eq.2 id)
    rw [hframe, if_pos hcond, enterMode_boot]
  · have hcond : ¬(m == s.boot.mode || changeAdmitted s m) = true := by
      rw [hno, Bool.or_false, beq_iff_eq]
      exact hm
    rw [hframe, if_neg hcond]
    rfl

theorem restartModule_restarts : ∀ t s, (s.up = true ∨ s.boot.phase = .halted) →
    Completes (.restartModule t) s fun r =>
      r.boot.phase = .start ∧ r.boot.step = 1 ∧ r.boot.cause = 1 ∧ r.boot.mode = .start ∧ (∀ n, n < 4 → gateEn r n = false) ∧ r.out = Output.restart 1 :: s.out ∧
      r.learned = s.learned ∧ r.pending = s.pending ∧ r.boot.journal = s.boot.journal ∧ r.boot.copyA = s.boot.copyA ∧ r.boot.copyB = s.boot.copyB ∧ r.boot.shadow = s.boot.shadow ∧
      r.boot.commit = s.boot.commit ∧ (∀ k, k < 8 → sessionAt r k = none) ∧ r.time.now = max s.time.now t := by
  intro t s hup
  have hexec : exec (.restartModule t) s = .next (restartModule 1 (s.at_ t)) := if_pos (Bool.or_eq_true_iff.2 (hup.imp id beq_iff_eq.2))
  obtain ⟨hboot, htime, hgates, hout, hlearned, hpending, hsessions, -⟩ := restartModule_restarted 1 (s.at_ t)
  refine ⟨_, hexec, ?_, ?_, ?_, ?_, hgates, hout, hlearned, hpending, ?_, ?_, ?_, ?_, ?_, fun k _ => hsessions k, ?_⟩
  case refine_10 =>
    rw [htime]
    rfl
  all_goals
    rw [hboot]
    rfl

theorem confirmScv_stores : ∀ t (gen scv : BitVec 32) c s, s.running = true → s.boot.mode = .commission → confirmable s gen.toNat = some c → scv.toNat = scvOf c.params →
    Completes (.confirmScv t gen scv) s fun r =>
      confirmed r = some (gen.toNat, scv.toNat) ∧ r.recorder = (State.raise 0x500F 0 (s.at_ t)).recorder ∧ keepsBut [.time, .boot, .recorder] s r := by
  intro t gen scv c s hrun hmode hconf hscv
  have hexec : exec (.confirmScv t gen scv) s = .next (cmdConfirm gen.toNat scv.toNat (s.at_ t)).1 := if_pos hrun
  have hconf' : confirmable (s.at_ t) gen.toNat = some c := hconf
  have hcond : ((s.at_ t).boot.mode == .commission && scv.toNat == scvOf c.params) = true := Bool.and_eq_true_iff.2 ⟨beq_iff_eq.2 hmode, beq_iff_eq.2 hscv⟩
  have hcmd : ∃ u, cmdConfirm gen.toNat scv.toNat (s.at_ t) = accept (u.raise 0x500F 0) ∧ u.boot.confirm = writePair s.boot.confirm (gen.toNat, scv.toNat) ∧
      keepsBut [.boot] (s.at_ t) u := by
    unfold cmdConfirm
    rw [hconf']
    dsimp only
    rw [if_pos hcond]
    refine ⟨_, rfl, ?_, ?_⟩
    · split <;> rfl
    · split
      · simp +decide
      · simp +decide
  obtain ⟨u, hu, hconfirm, hkeep⟩ := hcmd
  rw [hu] at hexec
  have hsame : ∀ c a, (State.raise c a u).recorder = (State.raise c a (s.at_ t)).recorder := fun c a => by
    have hrec : u.recorder = (s.at_ t).recorder := hkeep .recorder (by decide)
    have htime : u.time = (s.at_ t).time := hkeep .time (by decide)
    rw [State.raise, State.modRecorder_recorder, hrec, htime, State.raise, State.modRecorder_recorder]
  exact ⟨_, hexec, confirmed_writePair (s := u.raise 0x500F 0) hconfirm, hsame _ _,
    keepsBut_trans (t := s.at_ t) (by simp +decide) (keepsBut_trans (keepsBut_mono hkeep (by decide)) (by simp +decide))⟩

theorem confirmScv_refused : ∀ t (gen scv : BitVec 32) s, s.running = true → (s.boot.mode ≠ .commission ∨ ∀ c, confirmable s gen.toNat = some c → scv.toNat ≠ scvOf c.params) →
    exec (.confirmScv t gen scv) s = .next (State.raise 0x5010 0 (s.at_ t)) := by
  intro t gen scv s hrun hreason
  have hexec : exec (.confirmScv t gen scv) s = .next (cmdConfirm gen.toNat scv.toNat (s.at_ t)).1 := if_pos hrun
  have hcmd : cmdConfirm gen.toNat scv.toNat (s.at_ t) = refuse 0x5010 0 (s.at_ t) := by
    unfold cmdConfirm
    split
    next c hc =>
      refine if_neg ?_
      rw [Bool.and_eq_true, beq_iff_eq, beq_iff_eq]
      rintro ⟨hmode, hscv⟩
      rcases hreason with h | h
      · exact h hmode
      · exact h c hc hscv
    next => rfl
  rw [hexec, hcmd]
  rfl

/-- Settles O49: modes change by Table 19-11 at their boundaries, a restart begins Start anew, and an SCV is confirmed or refused. -/
theorem modes : Obligations.Modes :=
  ⟨changeMode_waits, changeMode_refused, modeFrame_latched, modeFrame_due, restartModule_restarts, confirmScv_stores, confirmScv_refused⟩

end Sys2Proof.Machine
end

section
/-!
PROOF. StartSteps: POR_N, how a step of Start ends, and how module time is first set.
-/
namespace Sys2Proof.Machine

/-! ### Steps of Start -/

/-- A step that is late or does not succeed, other than those with work of their own, fails with 0x9001. -/
theorem doStep_failed {k : Nat} {env : StartEnv} {s : State} (h1 : k ≠ 1) (h2 : k ≠ 2) (h4 : k ≠ 4) (h8 : k ≠ 8) (hok : env.ok = false) : doStep k env s = (s, .failed 0x9001) := by
  simp [doStep, h1, h2, h4, h8, hok]

/-- The running step k ends: what it did, and then the next step, a failure of Start, or its end (R516). -/
def stepEnds (k : Nat) (r : State × StepEnd) : State :=
  match r.2 with
  | .failed d => if essential k then failStart k d (endStep k r.2 r.1) else beginStep (k + 1) (endStep k r.2 r.1)
  | _ => if k == 12 then endStep k r.2 r.1 else if (endStep k r.2 r.1).boot.haltStep == some k then haltStart k (markStep k 5 0x9001 (endStep k r.2 r.1)) else beginStep (k + 1) (endStep k r.2 r.1)

theorem exec_startStep {t : Nat} {pfw : Bool} {env : StartEnv} {k : Nat} {s : State} (hphase : s.boot.phase = .start) (hstep : s.boot.step = k) (h0 : k ≠ 0) (h1 : k ≠ 1) :
    exec (.startStep t pfw env) s =
      .next (stepEnds k (doStep k { env with ok := env.ok && !decide (s.boot.stepAt + stepLimit s k * 1000000 < max s.time.now t) } (s.at_ t))) := by
  have hk1 : (k == 1) = false := beq_eq_false_iff_ne.2 h1
  have hk1' : (k != 1) = true := bne_iff_ne.2 h1
  have hgo : ¬(((s.at_ t).boot.phase != .start || (s.at_ t).boot.step == 0) = true) := by
    rw [show (s.at_ t).boot.phase = .start from hphase, show (s.at_ t).boot.step = k from hstep, beq_eq_false_iff_ne.2 h0]
    decide
  show execStartStep t pfw env s = _
  unfold execStartStep
  dsimp only
  rw [if_neg hgo, show (s.at_ t).boot.step = k from hstep, hk1, hk1', Bool.false_and, if_neg (by decide), if_neg (by decide), Bool.true_and]
  rw [show (s.at_ t).time.now = max s.time.now t from rfl, show (s.at_ t).boot.stepAt = s.boot.stepAt from rfl, show stepLimit (s.at_ t) k = stepLimit s k from rfl]
  generalize doStep k _ (s.at_ t) = r
  obtain ⟨u, e⟩ := r
  cases e with
  | failed d => exact (apply_ite Host.Outcome.next _ _ _).symm
  | done => exact (congrArg (ite _ _) (apply_ite Host.Outcome.next _ _ _).symm).trans (apply_ite Host.Outcome.next _ _ _).symm
  | differently => exact (congrArg (ite _ _) (apply_ite Host.Outcome.next _ _ _).symm).trans (apply_ite Host.Outcome.next _ _ _).symm
  | skipped => exact (congrArg (ite _ _) (apply_ite Host.Outcome.next _ _ _).symm).trans (apply_ite Host.Outcome.next _ _ _).symm

/-- A step that ends in time is carried out as its outcome says. -/
theorem exec_startStep_inTime {t : Nat} {pfw : Bool} {env : StartEnv} {k : Nat} {s : State} (hphase : s.boot.phase = .start) (hstep : s.boot.step = k) (h0 : k ≠ 0) (h1 : k ≠ 1)
    (htime : max s.time.now t ≤ s.boot.stepAt + stepLimit s k * 1000000) :
    exec (.startStep t pfw env) s = .next (stepEnds k (doStep k env (s.at_ t))) := by
  rw [exec_startStep hphase hstep h0 h1, decide_eq_false (not_lt.2 htime), Bool.not_false, Bool.and_true]

theorem exec_startStep_failed {t : Nat} {pfw : Bool} {env : StartEnv} {k : Nat} {s : State} (hphase : s.boot.phase = .start) (hstep : s.boot.step = k) (h0 : k ≠ 0) (h1 : k ≠ 1)
    (h2 : k ≠ 2) (h4 : k ≠ 4) (h8 : k ≠ 8) (hok : env.ok = false) :
    exec (.startStep t pfw env) s = .next (if essential k then failStart k 0x9001 (endStep k (.failed 0x9001) (s.at_ t)) else beginStep (k + 1) (endStep k (.failed 0x9001) (s.at_ t))) := by
  rw [exec_startStep hphase hstep h0 h1, doStep_failed h1 h2 h4 h8 (by rw [hok, Bool.false_and])]
  rfl

/-- Marking a step enters its outcome in the entry of this Start, and leaves the other steps' entries. -/
theorem markStep_steps {k o d : Nat} {s : State} (hn : s.boot.newest < s.boot.journal.length) (hk : k - 1 < (s.boot.journal.getD s.boot.newest {}).steps.length) :
    (((markStep k o d s).boot.journal.getD s.boot.newest {}).steps.getD (k - 1) {}).outcome = o ∧
      (∀ j, j ≠ k - 1 → ((markStep k o d s).boot.journal.getD s.boot.newest {}).steps.getD j {} = (s.boot.journal.getD s.boot.newest {}).steps.getD j {}) ∧
      ((markStep k o d s).boot.journal.getD s.boot.newest {}).steps.length = (s.boot.journal.getD s.boot.newest {}).steps.length := by
  have hentry : (markStep k o d s).boot.journal.getD s.boot.newest {} = { s.boot.journal.getD s.boot.newest {} with
      steps := updAt (s.boot.journal.getD s.boot.newest {}).steps (k - 1) fun _ => { outcome := o, detail := d, t := startMs s } } :=
    (getD_updAt ..).trans (if_pos ⟨rfl, hn⟩)
  rw [hentry]
  refine ⟨?_, fun j hj => ?_, length_updAt ..⟩
  · rw [getD_updAt, if_pos ⟨rfl, hk⟩]
  · rw [getD_updAt, if_neg fun h => hj h.1.symm]

theorem markStep_boot (k o d : Nat) (s : State) : (markStep k o d s).boot = { s.boot with journal := (markStep k o d s).boot.journal } := rfl

/-- Step k has ended with one outcome and the next one has begun: the entry of this Start says so. -/
theorem markSteps_two {k o d : Nat} {s u : State} (hj : s.boot.journal.length = 16) (hn : s.boot.newest < 16) (hs : (s.boot.journal.getD s.boot.newest {}).steps.length = 12)
    (h1 : 1 ≤ k) (h12 : k < 12) (hb : u.boot.journal = (markStep k o d s).boot.journal) (hnew : u.boot.newest = s.boot.newest) :
    (((markStep (k + 1) 1 0 u).boot.journal.getD u.boot.newest {}).steps.getD (k - 1) {}).outcome = o ∧
      (((markStep (k + 1) 1 0 u).boot.journal.getD u.boot.newest {}).steps.getD k {}).outcome = 1 := by
  obtain ⟨hfirst, -, hlen⟩ := markStep_steps (k := k) (o := o) (d := d) (s := s) (by omega) (by omega)
  have hul : u.boot.journal.length = 16 := by
    rw [hb]
    exact (length_updAt ..).trans hj
  obtain ⟨hsecond, hother, -⟩ := markStep_steps (k := k + 1) (o := 1) (d := 0) (s := u) (by omega) (by rw [hnew, hb, hlen]; omega)
  refine ⟨?_, hsecond⟩
  rw [hother (k - 1) (by omega), hb, hnew]
  exact hfirst

/-- The next step begins where Start does not halt at it. -/
theorem beginStep_eq {k : Nat} {s : State} (h : s.boot.haltStep ≠ some k) (h9 : k ≠ 9) :
    beginStep k s = (markStep k 1 0 s).modBoot fun b => { b with step := k, stepAt := s.time.now } := by
  unfold beginStep
  rw [if_neg (fun hc => h (beq_iff_eq.1 hc))]
  dsimp only
  rw [if_neg (fun hc => h9 (beq_iff_eq.1 hc))]

/-! ### Frames start to run -/

theorem armUnit_frame (u : Nat) (s : State) : (armUnit u s).time = { s.time with compare := (armUnit u s).time.compare } := by
  unfold armUnit
  split
  · split <;> rfl
  · split <;> rfl

theorem armUnits_frame (l : List Nat) (s : State) : (forEach l armUnit s).time = { s.time with compare := (forEach l armUnit s).time.compare } := by
  induction l generalizing s with
  | nil => rfl
  | cons u l ih =>
    have h := ih (armUnit u s)
    rw [armUnit_frame u s] at h
    exact h

/-! ### An essential step fails -/

theorem trialFailed_facts (s : State) : (trialFailed s).boot = s.boot ∧ (trialFailed s).out = s.out ∧ (trialFailed s).pending = s.pending ∧ keepsBut [.recorder, .upd] s (trialFailed s) := by
  have h : keepsBut [.recorder, .upd] s (trialFailed s) := by simp +decide
  exact ⟨h .boot (by decide), h .out (by decide), h .pending (by decide), h⟩

theorem haltTries_of {s t : State} (h1 : t.boot.runGen = s.boot.runGen) (h2 : t.boot.run = s.boot.run) (h3 : t.boot.shadow = s.boot.shadow) : haltTries t = haltTries s := by
  unfold haltTries earlyPar State.parN State.par
  rw [h1, h2, h3]

/-- The state in which an essential step has failed once more. -/
def failedOnce (k : Nat) (s : State) : State := trialFailed ((endStep k (.failed 0x9001) s).modBoot fun b => { b with tries := updAt b.tries (k - 1) (· + 1) })

theorem failedOnce_facts {k : Nat} {s : State} (hlen : k - 1 < s.boot.tries.length) :
    (failedOnce k s).boot.tries.getD (k - 1) 0 = s.boot.tries.getD (k - 1) 0 + 1 ∧ haltTries (failedOnce k s) = haltTries s ∧ (failedOnce k s).out = s.out ∧
      keepsBut [.boot, .recorder, .upd] s (failedOnce k s) := by
  have hend : keepsBut [.boot, .recorder] s (endStep k (.failed 0x9001) s) := by simp +decide
  obtain ⟨hboot, hout, -, hkeep⟩ := trialFailed_facts ((endStep k (.failed 0x9001) s).modBoot fun b => { b with tries := updAt b.tries (k - 1) (· + 1) })
  refine ⟨?_, ?_, hout.trans (hend .out (by decide)), ?_⟩
  · unfold failedOnce
    rw [hboot]
    exact (getD_updAt ..).trans (if_pos ⟨rfl, hlen⟩)
  · have hgen := congrArg BootState.runGen hboot
    have hrun := congrArg BootState.run hboot
    have hshadow := congrArg BootState.shadow hboot
    exact haltTries_of hgen hrun hshadow
  · exact keepsBut_trans (keepsBut_mono hend (by decide))
      (keepsBut_trans (t := (endStep k (.failed 0x9001) s).modBoot fun b => { b with tries := updAt b.tries (k - 1) (· + 1) }) (by simp +decide) (keepsBut_mono hkeep (by decide)))

theorem failStart_eq (k : Nat) (s : State) : failStart k 0x9001 (endStep k (.failed 0x9001) s) =
    if haltTries (failedOnce k s) ≤ (failedOnce k s).boot.tries.getD (k - 1) 0 then haltStart k (failedOnce k s) else restartModule 2 (noteRestart k 0x9001 (failedOnce k s)) := rfl

theorem haltStart_facts (k : Nat) (s : State) : (haltStart k s).boot.phase = .halted ∧ (haltStart k s).boot.haltStep = some k ∧ (haltStart k s).out = s.out ∧
    keepsBut [.boot, .recorder, .pwr] s (haltStart k s) := by
  have hkeep : keepsBut [.boot, .recorder, .pwr] s (haltStart k s) := by simp +decide
  refine ⟨?_, ?_, hkeep .out (by decide), hkeep⟩
  · simp only [haltStart, raise_boot, setDomain, State.modPwr_boot]
    rfl
  · simp only [haltStart, raise_boot, setDomain, State.modPwr_boot]
    rfl

/-! ### Module time is set -/

/-- The wait of step 5 runs. -/
theorem awaitsTime_of {s : State} (hphase : s.boot.phase = .start) (hstep : s.boot.step = 5) (hcause : s.boot.cause ≠ 4) (hprev : s.boot.prevFailed.getD 4 false = false)
    (hsrc : s.time.src = none) (hnow : s.time.now < s.boot.stepAt + s.parN .timeStartWait * 1000000000) : awaitsTime s = true := by
  unfold awaitsTime timeWaitEnd
  rw [hphase, hstep, bne_iff_ne.2 hcause, hprev, hsrc, decide_eq_true hnow]
  rfl

theorem not_awaitsTime_of {s : State} (h : s.boot.phase ≠ .start ∨ s.boot.step ≠ 5 ∨ s.boot.cause = 4 ∨ s.boot.prevFailed.getD 4 false = true ∨ s.time.src.isSome = true ∨
    s.boot.stepAt + s.parN .timeStartWait * 1000000000 ≤ s.time.now) : awaitsTime s = false := by
  refine Bool.eq_false_iff.2 fun hw => ?_
  simp only [awaitsTime, timeWaitEnd, Bool.and_eq_true, beq_iff_eq, bne_iff_ne, Bool.not_eq_true', Option.isNone_iff_eq_none] at hw
  obtain ⟨⟨⟨⟨⟨hphase, hstep⟩, hcause⟩, hprev⟩, hsrc⟩, hnow⟩ := hw
  rcases h with h | h | h | h | h | h
  · exact h hphase
  · exact h hstep
  · exact hcause h
  · exact absurd (h.symm.trans hprev) (by decide)
  · rw [hsrc] at h
    exact absurd h (by decide)
  · exact absurd (of_decide_eq_true hnow) (not_lt.2 h)

/-- The newest record of a ring is of a code. -/
def newestIs (code : Nat) (ring : List EvRec) : Prop := ring.head?.map (·.code) = some code

theorem recordRaise_newestIs {only : Bool} {code arg t : Nat} {r : RecState} (h : evClass code - 1 < r.rings.length) :
    newestIs code ((recordRaise only code arg t r).1.rings.getD (evClass code - 1) []) := by
  unfold recordRaise newestIs
  dsimp only
  split
  next e es hring =>
    split
    next heq =>
      simp only [Bool.and_eq_true, beq_iff_eq] at heq
      simp only [getD_updAt, h, and_self, if_true]
      exact congrArg some heq.1
    next => simp only [getD_updAt, h, and_self, if_true, List.take_succ_cons, List.head?_cons, Option.map_some]
  next => simp only [getD_updAt, h, and_self, if_true, List.head?_cons, Option.map_some]

/-- Another raise in the ring leaves the newest record in it, as the newest or the one before. -/
theorem mem_recordRaise_of_newestIs {only : Bool} {code c arg t : Nat} {r : RecState} (h : newestIs code (r.rings.getD (evClass c - 1) [])) (hlen : evClass c - 1 < r.rings.length) :
    ∃ e ∈ (recordRaise only c arg t r).1.rings.getD (evClass c - 1) [], e.code = code := by
  unfold newestIs at h
  unfold recordRaise
  dsimp only
  split
  next e es hring =>
    rw [hring] at h
    have he : e.code = code := Option.some.inj h
    split
    next =>
      simp only [getD_updAt, hlen, and_self, if_true]
      exact ⟨_, List.mem_cons_self, he⟩
    next =>
      simp only [getD_updAt, hlen, and_self, if_true, hring, List.take_succ_cons]
      exact ⟨e, List.mem_cons_of_mem _ List.mem_cons_self, he⟩
  next hring =>
    rw [hring] at h
    cases h

/-- The ring of a class other than 8 after a raise: the event of an overwrite does not enter it. -/
theorem raise_ring {code arg : Nat} {s : State} (h8 : evClass code - 1 ≠ 7) : (State.raise code arg s).recorder.rings.getD (evClass code - 1) [] =
    (recordRaise (recordedOnly.contains code) code arg s.time.now s.recorder).1.rings.getD (evClass code - 1) [] := by
  have hover : ∀ r, (recordRaise false 0x8043 0 s.time.now r).1.rings.getD (evClass code - 1) [] = r.rings.getD (evClass code - 1) [] :=
    fun r => recordRaise_other_ring fun hj => h8 (hj.symm.trans (by decide))
  simp only [State.raise, State.modRecorder_recorder, raiseRec]
  split
  · rw [markRaised_rings]
    split
    · rw [hover, hover, markRaised_rings]
    · rw [hover, markRaised_rings]
  · rw [markRaised_rings]

/-- A clear changes no code of a record. -/
theorem clear_newestIs {code c a k : Nat} {s : State} (h : newestIs code (s.recorder.rings.getD k [])) : newestIs code ((State.clear c a s).recorder.rings.getD k []) := by
  have hgo : ∀ ring, newestIs code ring → newestIs code (clearRec.go c a ring) := by
    intro ring hring
    cases ring with
    | nil => exact hring
    | cons e es =>
      unfold clearRec.go
      split
      · exact hring
      · exact hring
  unfold State.clear
  split
  · show newestIs code ((updAt s.recorder.rings (evClass c - 1) (clearRec.go c a)).getD k [])
    rw [getD_updAt]
    split
    next hk => exact hgo _ h
    next => exact h
  · exact h

theorem mem_of_newestIs {code : Nat} {ring : List EvRec} (h : newestIs code ring) : ∃ e ∈ ring, e.code = code := by
  unfold newestIs at h
  cases ring with
  | nil => cases h
  | cons e es => exact ⟨e, List.mem_cons_self, Option.some.inj h⟩

theorem porNAssert_resets : ∀ t s,
    Completes (.porNAssert t) s fun r =>
      r.boot.phase = .por ∧ r.boot.porN = false ∧ (∀ k, (r.guard.latch.getD k {}).on = false) ∧ r.guard.portOpen = true ∧ (∀ n, gateEn r n = false ∧ ∀ k, ctrOut r n k = false) ∧
      r.learned = s.learned ∧ r.boot.journal = s.boot.journal ∧ r.boot.copyA = s.boot.copyA ∧ r.boot.copyB = s.boot.copyB ∧ r.boot.shadow = s.boot.shadow ∧ r.boot.keys = s.boot.keys ∧
      r.upd.floor = s.upd.floor ∧ r.pending = s.pending ∧ r.out = s.out := by
  intro t s
  refine ⟨_, rfl, rfl, rfl, fun k => ?_, rfl, fun n => ⟨?_, fun k => ?_⟩, rfl, rfl, rfl, rfl, rfl, rfl, rfl, rfl, rfl⟩
  · show ((List.replicate 5 ({} : GLatch)).getD k {}).on = false
    rw [List.getD_eq_getElem?_getD, List.getElem?_replicate]
    split <;> rfl
  · show ([false, false, false, false] : List Bool).getD n false = false
    rw [show ([false, false, false, false] : List Bool) = List.replicate 4 false from rfl, List.getD_eq_getElem?_getD, List.getElem?_replicate]
    split <;> rfl
  · show (List.replicate 12 false).getD (3 * n + k) false = false
    rw [List.getD_eq_getElem?_getD, List.getElem?_replicate]
    split <;> rfl

/-- The module as POR_N is released with VMAIN present: Start begins with the levels of RESET_N and PFW_N at that moment (R335, R573). -/
def releasedAt (t : Nat) (resetHigh pfwHigh : Bool) (s : State) : State :=
  (mainReset .start 0 (((s.at_ t).modBoot fun b => { b with porN := true, pfwN := pfwHigh }).modPwr fun p => { p with vguard := true })).modGuard fun g =>
    { g with resetHigh := resetHigh, resetAt := max s.time.now t, inFault := !resetHigh }

theorem porNRelease_starts : ∀ t resetHigh pfwHigh s, s.boot.porN = false → s.pwr.vmain = true → s.guard.latch.length = 5 →
    Completes (.porNRelease t resetHigh pfwHigh) s fun r =>
      r.boot.phase = .start ∧ r.boot.step = 1 ∧ r.boot.porN = true ∧ r.boot.pfwN = pfwHigh ∧ r.guard.resetHigh = resetHigh ∧ r.guard.inFault = !resetHigh ∧
      (resetHigh = false → (r.guard.latch.getD 4 {}).on = true) ∧ r.learned = s.learned ∧ r.boot.journal = s.boot.journal ∧ r.pending = s.pending := by
  intro t resetHigh pfwHigh s hpor hvmain hlen
  have hexec : exec (.porNRelease t resetHigh pfwHigh) s = .next (if resetHigh then releasedAt t resetHigh pfwHigh s else gRaise 0x500A 0 (setGLatch 4 (sf 22) (releasedAt t resetHigh pfwHigh s))) := by
    refine (if_neg (by rw [show (s.at_ t).boot.porN = false from hpor]; decide)).trans ?_
    rw [show (s.at_ t).pwr.vmain = true from hvmain]
    rfl
  cases resetHigh with
  | true => exact ⟨_, hexec.trans (congrArg Host.Outcome.next (if_pos rfl)), rfl, rfl, rfl, rfl, rfl, rfl, fun h => absurd h (by decide), rfl, rfl, rfl⟩
  | false =>
    have hraise := gRaise_frame 0x500A 0 (setGLatch 4 (sf 22) (releasedAt t false pfwHigh s))
    have hboot : (gRaise 0x500A 0 (setGLatch 4 (sf 22) (releasedAt t false pfwHigh s))).boot = (releasedAt t false pfwHigh s).boot := hraise .boot (by decide)
    have hguard : (gRaise 0x500A 0 (setGLatch 4 (sf 22) (releasedAt t false pfwHigh s))).guard = (setGLatch 4 (sf 22) (releasedAt t false pfwHigh s)).guard := hraise .guard (by decide)
    have hkept : keepsBut [.guard] (releasedAt t false pfwHigh s) (setGLatch 4 (sf 22) (releasedAt t false pfwHigh s)) := by simp +decide
    refine ⟨_, hexec.trans (congrArg Host.Outcome.next (if_neg (by decide))), ?_⟩
    dsimp only
    rw [hboot, hguard]
    refine ⟨rfl, rfl, rfl, rfl, rfl, rfl, fun _ => ?_, (hraise .learned (by decide)).trans (hkept .learned (by decide)), rfl, (hraise .pending (by decide)).trans (hkept .pending (by decide))⟩
    show ((updAt s.guard.latch 4 _).getD 4 {}).on = true
    rw [getD_updAt, if_pos ⟨rfl, by rw [hlen]; decide⟩]
    split
    next hon => exact hon
    next => rfl

theorem startStep_waits : ∀ t env s, s.boot.phase = .start → s.boot.step = 1 → Completes (.startStep t false env) s fun r => r.boot = { s.boot with pfwN := false } ∧ keepsBut [.time, .boot] s r := by
  intro t env s hphase hstep
  have hexec : exec (.startStep t false env) s = .next ((s.at_ t).modBoot fun b => { b with pfwN := false }) := by
    show execStartStep t false env s = _
    unfold execStartStep
    dsimp only
    rw [show (s.at_ t).boot.phase = .start from hphase, show (s.at_ t).boot.step = 1 from hstep]
    rfl
  exact ⟨_, hexec, rfl, by simp +decide⟩

/-- Frames run from step 6 on, with the frame of the moment, and the compare units of the configuration are armed. -/
def framesRun (s : State) : State :=
  forEach (List.range 24) armUnit (s.modTime fun x => { x with framesOn := true, frame := x.now / frameNs, firstFrame := x.now / frameNs })

theorem framesRun_facts (s : State) : (framesRun s).time = { s.time with framesOn := true, frame := s.time.now / frameNs, firstFrame := s.time.now / frameNs, compare := (framesRun s).time.compare } ∧
    keepsBut [.time] s (framesRun s) := by
  unfold framesRun
  generalize List.range 24 = l
  exact ⟨armUnits_frame l _, keepsBut_trans (t := s.modTime _) (by simp +decide) ((keepsBut_forEach_iff (fun u s => by simp +decide) _ _ _).2 (keepsBut_refl _ _))⟩

theorem startStep_frames : ∀ t pfw env s, s.boot.phase = .start → s.boot.step = 6 → s.boot.haltStep = none → env.ok = true → max s.time.now t ≤ s.boot.stepAt + 20000000 →
    Completes (.startStep t pfw env) s fun r =>
      r.time.framesOn = true ∧ r.time.frame = max s.time.now t / 10000000 ∧ r.boot.step = 7 ∧ r.boot.stepAt = max s.time.now t ∧
      (s.boot.journal.length = 16 → s.boot.newest < 16 → (s.boot.journal.getD s.boot.newest {}).steps.length = 12 →
        ((r.boot.journal.getD r.boot.newest {}).steps.getD 5 {}).outcome = 2 ∧ ((r.boot.journal.getD r.boot.newest {}).steps.getD 6 {}).outcome = 1) ∧
      keepsBut [.time, .boot] s r := by
  intro t pfw env s hphase hstep hhalt hok htime
  have hexec := exec_startStep_inTime (t := t) (pfw := pfw) (env := env) (k := 6) hphase hstep (by decide) (by decide) (by rw [show stepLimit s 6 = 20 from rfl]; exact htime)
  have hdo : doStep 6 env (s.at_ t) = (framesRun (s.at_ t), .done) := by
    simp [doStep, hok, framesRun]
  rw [hdo] at hexec
  obtain ⟨htimes, hkeep⟩ := framesRun_facts (s.at_ t)
  have hboot : (framesRun (s.at_ t)).boot = s.boot := hkeep .boot (by decide)
  generalize framesRun (s.at_ t) = u at *
  have hends : stepEnds 6 (u, .done) = (markStep 7 1 0 (endStep 6 .done u)).modBoot fun b => { b with step := 7, stepAt := u.time.now } := by
    have hb : (endStep 6 .done u).boot.haltStep = none := (congrArg BootState.haltStep hboot).trans hhalt
    refine (if_neg (by rw [hb]; decide)).trans (beginStep_eq (by rw [hb]; decide) (by decide))
  rw [hends] at hexec
  have hend : keepsBut [.time, .boot] u (endStep 6 .done u) := by
    have hrec : keepsBut [.recorder, .time, .boot] u (endStep 6 .done u) := by simp +decide
    exact keepsBut_of_same hrec rfl
  have hnow : u.time.now = max s.time.now t := congrArg TimeState.now htimes
  refine ⟨_, hexec, ?_, ?_, rfl, hnow, fun hj hn hs => ?_, keepsBut_trans (t := s.at_ t) (by simp +decide) (keepsBut_trans (keepsBut_mono hkeep (by decide)) (keepsBut_trans (t := endStep 6 .done u) hend (by simp +decide)))⟩
  · show u.time.framesOn = true
    rw [htimes]
  · show u.time.frame = _
    have hframe := congrArg TimeState.frame htimes
    exact hframe
  · rw [← hboot] at hj hn hs
    exact markSteps_two (k := 6) (o := 2) (d := 0) (s := u) (u := endStep 6 .done u) hj hn hs (by decide) (by decide) rfl rfl

theorem startStep_program : ∀ t pfw env s, s.boot.phase = .start → s.boot.step = 10 → s.boot.haltStep = none → env.ok = false →
    Completes (.startStep t pfw env) s fun r =>
      r.boot.step = 11 ∧ r.recorder = (State.raise 0x9001 10 (s.at_ t)).recorder ∧
      (s.boot.journal.length = 16 → s.boot.newest < 16 → (s.boot.journal.getD s.boot.newest {}).steps.length = 12 → ((r.boot.journal.getD r.boot.newest {}).steps.getD 9 {}).outcome = 5) ∧
      keepsBut [.time, .boot, .recorder] s r := by
  intro t pfw env s hphase hstep hhalt hok
  have hexec := exec_startStep_failed (t := t) (pfw := pfw) (env := env) (k := 10) hphase hstep (by decide) (by decide) (by decide) (by decide) (by decide) hok
  have hnext := beginStep_eq (k := 11) (s := endStep 10 (.failed 0x9001) (s.at_ t)) (by rw [show (endStep 10 (.failed 0x9001) (s.at_ t)).boot.haltStep = s.boot.haltStep from rfl, hhalt]; decide) (by decide)
  rw [if_neg (by decide), hnext] at hexec
  refine ⟨_, hexec, rfl, rfl, fun hj hn hs => ?_, by simp +decide⟩
  exact (markSteps_two (k := 10) (o := 5) (d := 0x9001) (s := s.at_ t) (u := endStep 10 (.failed 0x9001) (s.at_ t)) hj hn hs (by decide) (by decide) rfl rfl).1

theorem startStep_config_again : ∀ t pfw env s, s.boot.phase = .start → s.boot.step = 3 → env.ok = false → s.boot.tries.length = 12 → s.boot.tries.getD 2 0 + 1 < haltTries s →
    Completes (.startStep t pfw env) s fun r =>
      r.boot.phase = .start ∧ r.boot.step = 1 ∧ r.boot.cause = 2 ∧ r.boot.tries.getD 2 0 = s.boot.tries.getD 2 0 + 1 ∧ r.out = Output.restart 2 :: s.out ∧ r.pending = s.pending := by
  intro t pfw env s hphase hstep hok hlen htries
  have hexec := exec_startStep_failed (t := t) (pfw := pfw) (env := env) (k := 3) hphase hstep (by decide) (by decide) (by decide) (by decide) (by decide) hok
  obtain ⟨htry, hhalt, hout, hkeep⟩ := failedOnce_facts (k := 3) (s := s.at_ t) (by rw [at_boot, hlen]; decide)
  rw [if_pos (by decide), failStart_eq, if_neg (by rw [htry, hhalt]; exact not_le.2 htries)] at hexec
  obtain ⟨hboot, -, -, hsent, -, hpending, -, -⟩ := restartModule_restarted 2 (noteRestart 3 0x9001 (failedOnce 3 (s.at_ t)))
  refine ⟨_, hexec, ?_, ?_, ?_, ?_, hsent.trans (congrArg _ hout), hpending.trans (hkeep .pending (by decide))⟩
  · rw [hboot]
    rfl
  · rw [hboot]
    rfl
  · rw [hboot]
    rfl
  · rw [hboot]
    exact htry

theorem startStep_config_halts : ∀ t pfw env s, s.boot.phase = .start → s.boot.step = 3 → env.ok = false → s.boot.tries.length = 12 → haltTries s ≤ s.boot.tries.getD 2 0 + 1 →
    Completes (.startStep t pfw env) s fun r => r.boot.phase = .halted ∧ r.boot.haltStep = some 3 ∧ r.out = s.out ∧ keepsBut [.time, .boot, .recorder, .pwr, .upd] s r := by
  intro t pfw env s hphase hstep hok hlen htries
  have hexec := exec_startStep_failed (t := t) (pfw := pfw) (env := env) (k := 3) hphase hstep (by decide) (by decide) (by decide) (by decide) (by decide) hok
  obtain ⟨htry, hhalt, hout, hkeep⟩ := failedOnce_facts (k := 3) (s := s.at_ t) (by rw [at_boot, hlen]; decide)
  rw [if_pos (by decide), failStart_eq, if_pos (by rw [htry, hhalt]; exact htries)] at hexec
  obtain ⟨hphase', hstep', hsent, hkeep'⟩ := haltStart_facts 3 (failedOnce 3 (s.at_ t))
  exact ⟨_, hexec, hphase', hstep', hsent.trans hout,
    keepsBut_trans (t := s.at_ t) (by simp +decide) (keepsBut_trans (keepsBut_mono hkeep (by decide)) (keepsBut_mono hkeep' (by decide)))⟩

theorem startLanes_forgs (s : State) : (startLanes s).forgs = s.forgs :=
  have hkeep : keepsBut [.recorder] s (startLanes s) := by simp +decide
  hkeep .forgs (by decide)

/-- Step 12 ends Start: what it leaves in force (R518). -/
theorem stepMode_facts (s : State) : (stepMode s).2 = .done ∧ (stepMode s).1.boot.phase = .run ∧ (stepMode s).1.boot.modeNext = [(startMode s, s.time.frame + 1)] ∧
    (stepMode s).1.boot.endT = s.time.now ∧ (stepMode s).1.guard.started = !s.guard.scvFail ∧ (stepMode s).1.core.counting = true ∧
    (stepMode s).1.forgs = s.forgs.map (fun f => { f with cmpFrom := s.time.now }) ∧
    keepsBut [.boot, .est, .forgs, .guard, .core, .upd, .disp, .links, .tagCtr, .recorder] s (stepMode s).1 := by
  unfold stepMode
  extract_lets m bits s1 lanes s2 s3 s4 s5
  have hs1 : keepsBut [.boot] s s1 := by simp +decide [s1]
  have hphase : s1.boot.phase = .run := rfl
  have hmode : s1.boot.modeNext = [(m, s.time.frame + 1)] := rfl
  have hend : s1.boot.endT = s.time.now := rfl
  clear_value s1
  have hlanes : keepsBut [.forgs, .recorder] s1 lanes := by simp +decide [lanes]
  have hforgs : lanes.forgs = s1.forgs.map (fun f => { f with cmpFrom := s.time.now }) := by simp [lanes, startLanes_forgs]
  clear_value lanes
  have hstage : keepsBut [.est, .guard, .core] lanes s2 := by simp +decide [s2]
  have hstarted : s2.guard.started = !lanes.guard.scvFail := stageAll_guard_eq Guard.started (fun _ _ _ _ _ => rfl) (lanes.modGuard fun g => { g with started := !g.scvFail })
  have hcounting : s2.core.counting = true := rfl
  clear_value s2
  have hlast : keepsBut [.upd, .disp, .links, .tagCtr, .recorder] s2 (State.raise 0x9005 (startMs s) s5) := by simp +decide [s3, s4, s5]
  generalize State.raise 0x9005 (startMs s) s5 = r at *
  have hall : keepsBut [.forgs, .est, .guard, .core, .upd, .disp, .links, .tagCtr, .recorder] s1 r :=
    keepsBut_trans (keepsBut_mono hlanes (by decide)) (keepsBut_trans (keepsBut_mono hstage (by decide)) (keepsBut_mono hlast (by decide)))
  have hboot : r.boot = s1.boot := hall .boot (by decide)
  have hguard : r.guard = s2.guard := hlast .guard (by decide)
  have hcore : r.core = s2.core := hlast .core (by decide)
  have hlguard : lanes.guard = s.guard := (hlanes .guard (by decide)).trans (hs1 .guard (by decide))
  have hfs : r.forgs = lanes.forgs := (hlast .forgs (by decide)).trans (hstage .forgs (by decide))
  have hfs1 : s1.forgs = s.forgs := hs1 .forgs (by decide)
  dsimp only
  rw [hboot, hguard, hcore, hstarted, hlguard, hfs, hforgs, hfs1]
  exact ⟨rfl, hphase, hmode, hend, rfl, hcounting, rfl, keepsBut_trans (keepsBut_mono hs1 (by decide)) (keepsBut_mono hall (by decide))⟩

theorem startStep_ends : ∀ t pfw env s, s.boot.phase = .start → s.boot.step = 12 → env.ok = true → max s.time.now t ≤ s.boot.stepAt + 10000000 →
    Completes (.startStep t pfw env) s fun r =>
      r.boot.phase = .run ∧ r.boot.modeNext = [(startMode s, s.time.frame + 1)] ∧ r.boot.endT = max s.time.now t ∧ r.guard.started = !s.guard.scvFail ∧ r.core.counting = true ∧
      (∀ j, j < s.forgs.length → r.forg j = { s.forg j with cmpFrom := max s.time.now t }) ∧
      keepsBut [.time, .boot, .est, .forgs, .guard, .core, .upd, .disp, .links, .tagCtr, .recorder] s r := by
  intro t pfw env s hphase hstep hok htime
  have hexec := exec_startStep_inTime (t := t) (pfw := pfw) (env := env) (k := 12) hphase hstep (by decide) (by decide) (by rw [show stepLimit s 12 = 10 from rfl]; exact htime)
  have hdo : doStep 12 env (s.at_ t) = stepMode (s.at_ t) := by
    simp [doStep, hok]
  rw [hdo] at hexec
  obtain ⟨hdone, hrun, hmode, hend, hstarted, hcounting, hforgs, hkeep⟩ := stepMode_facts (s.at_ t)
  generalize stepMode (s.at_ t) = r at *
  obtain ⟨u, e⟩ := r
  obtain rfl : e = .done := hdone
  have hkept : keepsBut [.boot, .recorder] u (endStep 12 .done u) := by simp +decide
  refine ⟨_, hexec, hrun, hmode, hend, hstarted, hcounting, fun j hj => ?_, keepsBut_trans (t := s.at_ t) (by simp +decide) (keepsBut_trans (keepsBut_mono hkeep (by decide)) (keepsBut_mono hkept (by decide)))⟩
  show u.forgs.getD j {} = { s.forgs.getD j {} with cmpFrom := max s.time.now t }
  rw [hforgs, show (s.at_ t).forgs = s.forgs from rfl, List.getD_eq_getElem?_getD, List.getD_eq_getElem?_getD, List.getElem?_map, List.getElem?_eq_getElem hj]
  rfl

theorem recordRaise_rings_length (only : Bool) (code arg t : Nat) (r : RecState) : (recordRaise only code arg t r).1.rings.length = r.rings.length := by
  unfold recordRaise
  dsimp only
  split
  · split <;> exact length_updAt ..
  · exact length_updAt ..

theorem raise_rings_length (code arg : Nat) (s : State) : (State.raise code arg s).recorder.rings.length = s.recorder.rings.length := by
  simp only [State.raise, State.modRecorder_recorder, raiseRec]
  split
  · rw [markRaised_rings]
    split <;> simp only [recordRaise_rings_length, markRaised_rings]
  · rw [markRaised_rings, recordRaise_rings_length]

theorem isRaised_stand_of_ne {c a c' a' : Nat} (h : (c, a) ≠ (c', a')) (hover : (c, a) ≠ (0x8043, 0)) (on : Bool) (s : State) : (State.stand c' a' on s).isRaised c a = s.isRaised c a := by
  cases on with
  | false => exact isRaised_clear_of_ne h s
  | true =>
    unfold State.stand
    rw [if_pos rfl]
    split
    · rfl
    · exact isRaised_raise_of_ne h hover s

/-- The newest record of a ring stays in it while another event of its class begins or ceases to stand. -/
theorem mem_stand_of_newestIs {code c a : Nat} {on : Bool} {s : State} (h8 : evClass c - 1 ≠ 7) (h : newestIs code (s.recorder.rings.getD (evClass c - 1) []))
    (hlen : evClass c - 1 < s.recorder.rings.length) : ∃ e ∈ (State.stand c a on s).recorder.rings.getD (evClass c - 1) [], e.code = code := by
  cases on with
  | false => exact mem_of_newestIs (clear_newestIs h)
  | true =>
    unfold State.stand
    rw [if_pos rfl]
    split
    · exact mem_of_newestIs h
    · rw [raise_ring h8]
      exact mem_recordRaise_of_newestIs h hlen

/-- Module time as the first offset sample sets it, from source k at t (R366). -/
def timeTaken (k t : Nat) (s : State) : State :=
  (stepTime t s).modTime fun x => { x with
    src := some k, holdover := false, setByEpoch := true, lastO := some 0
    lastSync := if k == 0 then some t else x.lastSync, lastPair := if k == 2 then some t else x.lastPair
    prevSample := updAt x.prevSample k fun _ => some t
    bound := some ((s.parN .timeErrAsym : Rat), t) }

/-- The events of a first time: the step, the source, and the end of no source. -/
def toldOfTime (size : Int) (s : State) : State := ((s.raise 0x6004 (field 32 size)).raise 0x6002 0).clear 0x6001 0

theorem setTime_eq (k t : Nat) (size : Int) (s : State) : setTime k t size s = judgeSync t (toldOfTime size (timeTaken k t s)) := rfl

theorem timeTaken_facts (k t : Nat) (s : State) (hk : k < s.time.prevSample.length) :
    (timeTaken k t s).time.now = t ∧ (timeTaken k t s).time.src = some k ∧ (timeTaken k t s).time.holdover = false ∧ (timeTaken k t s).time.setByEpoch = true ∧
      (timeTaken k t s).time.bound = some ((s.parN .timeErrAsym : Rat), t) ∧ (timeTaken k t s).time.prevSample.getD k none = some t := by
  refine ⟨rfl, rfl, rfl, rfl, rfl, ?_⟩
  show (updAt (stepTime t s).time.prevSample k _).getD k none = _
  rw [getD_updAt, if_pos ⟨rfl, (List.length_map _).symm ▸ hk⟩]

theorem toldOfTime_facts (size : Int) (s : State) : (toldOfTime size s).time = s.time ∧ (toldOfTime size s).isRaised 0x6001 0 = false ∧
    (5 < s.recorder.rings.length → newestIs 0x6002 ((toldOfTime size s).recorder.rings.getD 5 [])) ∧ keepsBut [.recorder] s (toldOfTime size s) := by
  have hkeep : keepsBut [.recorder] s (toldOfTime size s) := by simp +decide [toldOfTime]
  refine ⟨hkeep .time (by decide), isRaised_clear .., fun h => ?_, hkeep⟩
  refine clear_newestIs ?_
  show newestIs 0x6002 ((State.raise 0x6002 0 (State.raise 0x6004 (field 32 size) s)).recorder.rings.getD (evClass 0x6002 - 1) [])
  rw [raise_ring (by decide)]
  refine recordRaise_newestIs ?_
  rw [raise_rings_length]
  exact h

theorem clear_rings_length (code arg : Nat) (s : State) : (State.clear code arg s).recorder.rings.length = s.recorder.rings.length := by
  unfold State.clear
  split
  · exact length_updAt ..
  · rfl

theorem toldOfTime_rings_length (size : Int) (s : State) : (toldOfTime size s).recorder.rings.length = s.recorder.rings.length :=
  (clear_rings_length ..).trans ((raise_rings_length ..).trans (raise_rings_length ..))

/-- The judgement of synchronisation after a first time tells of nothing but itself. -/
theorem judgeSync_after {t : Nat} {s : State} (hcleared : s.isRaised 0x6001 0 = false) :
    (judgeSync t s).time = { s.time with synced := (judgeSync t s).time.synced, ppsOut := (judgeSync t s).time.ppsOut } ∧ (judgeSync t s).isRaised 0x6001 0 = false ∧
      (5 < s.recorder.rings.length → newestIs 0x6002 (s.recorder.rings.getD 5 []) → ∃ e ∈ (judgeSync t s).recorder.rings.getD 5 [], e.code = 0x6002) ∧
      keepsBut [.time, .recorder] s (judgeSync t s) := by
  exact ⟨judgeSync_time t s, (isRaised_stand_of_ne (by decide) (by decide) _ _).trans hcleared, fun hlen hnew => mem_stand_of_newestIs (c := 0x6003) (by decide) hnew hlen, by simp +decide⟩

theorem startTimeAcquisition_sets : ∀ k (o : Int) ts s, s.boot.phase = .start → s.boot.step = 5 → s.boot.cause ≠ 4 → s.boot.prevFailed.getD 4 false = false → s.time.src = none →
    s.time.now < s.boot.stepAt + s.parN .timeStartWait * 1000000000 → ts ≤ s.boot.stepAt + s.parN .timeStartWait * 1000000000 → (k = 0 ∨ k = 2) →
    (s.parN .timeSource 0 = k ∨ s.parN .timeSource 1 = k ∨ s.parN .timeSource 2 = k) → s.time.prevSample.length = 3 →
    Completes (.startTimeAcquisition (some (k, o, ts))) s fun r =>
      r.time.now = ((ts : Int) - o).toNat ∧ r.time.src = some k ∧ r.time.holdover = false ∧ r.time.setByEpoch = true ∧
      r.time.bound = some ((s.parN .timeErrAsym : Rat), ((ts : Int) - o).toNat) ∧ r.time.prevSample.getD k none = some ((ts : Int) - o).toNat ∧ r.isRaised 0x6001 0 = false ∧
      (5 < s.recorder.rings.length → ∃ e ∈ r.recorder.rings.getD 5 [], e.code = 0x6002) ∧ keepsBut [.time, .guard, .boot, .can, .host, .recorder] s r := by
  intro k o ts s hphase hstep hcause hprev hsrc hnow hts hk hsources hlen
  have hexec : exec (.startTimeAcquisition (some (k, o, ts))) s = .next (setTime k ((ts : Int) - o).toNat (-o) s) := by
    have hsource : [s.parN .timeSource 0, s.parN .timeSource 1, s.parN .timeSource 2].contains k = true := by
      rw [List.contains_iff_mem]
      rcases hsources with h | h | h <;> simp [h]
    refine (if_neg (by rw [awaitsTime_of hphase hstep hcause hprev hsrc hnow]; decide)).trans (if_neg ?_)
    rw [hsource, show decide (timeWaitEnd s < ts) = false from decide_eq_false (not_lt.2 hts)]
    rcases hk with rfl | rfl <;> decide
  generalize ((ts : Int) - o).toNat = t at *
  rw [setTime_eq] at hexec
  obtain ⟨hnow', hsrc', hhold, hepoch, hbound, hprev'⟩ := timeTaken_facts k t s (by rcases hk with rfl | rfl <;> omega)
  have hkeep : keepsBut [.time, .guard, .boot, .can, .host] s (timeTaken k t s) := by simp +decide [timeTaken]
  have hrec : (timeTaken k t s).recorder = s.recorder := hkeep .recorder (by decide)
  obtain ⟨htold, hcleared, hnewest, htoldKeep⟩ := toldOfTime_facts (-o) (timeTaken k t s)
  generalize timeTaken k t s = u at *
  have hlength : (toldOfTime (-o) u).recorder.rings.length = s.recorder.rings.length := by
    rw [toldOfTime_rings_length, hrec]
  rw [hrec] at hnewest
  generalize toldOfTime (-o) u = v at *
  obtain ⟨hjudged, hstands, hmem, hlast⟩ := judgeSync_after (t := t) (s := v) hcleared
  generalize judgeSync t v = r at *
  have htime : r.time = { u.time with synced := r.time.synced, ppsOut := r.time.ppsOut } := by
    rw [← htold]
    exact hjudged
  have h1 := congrArg TimeState.now htime
  have h2 := congrArg TimeState.src htime
  have h3 := congrArg TimeState.holdover htime
  have h4 := congrArg TimeState.setByEpoch htime
  have h5 := congrArg TimeState.bound htime
  have h6 := congrArg TimeState.prevSample htime
  exact ⟨_, hexec, h1.trans hnow', h2.trans hsrc', h3.trans hhold, h4.trans hepoch, h5.trans hbound, (congrArg (List.getD · k none) h6).trans hprev', hstands,
    fun h => hmem (hlength.symm ▸ h) (hnewest h),
    keepsBut_trans (keepsBut_mono hkeep (by decide)) (keepsBut_trans (keepsBut_mono htoldKeep (by decide)) (keepsBut_mono hlast (by decide)))⟩

theorem startTimeAcquisition_without : ∀ s, s.boot.phase = .start → s.boot.step = 5 → s.boot.cause ≠ 4 → s.boot.prevFailed.getD 4 false = false → s.time.src = none →
    s.time.now < s.boot.stepAt + s.parN .timeStartWait * 1000000000 →
    Completes (.startTimeAcquisition none) s fun r =>
      r.time.now = s.boot.stepAt + s.parN .timeStartWait * 1000000000 ∧ r.time.src = none ∧ r.time.holdover = true ∧ r.time.bound = none ∧ r.time.synced = false ∧ r.isRaised 0x6001 0 = true ∧
      keepsBut [.time, .recorder] s r := by
  intro s hphase hstep hcause hprev hsrc hnow
  have hexec : exec (.startTimeAcquisition none) s = .next (judgeSync (s.at_ (timeWaitEnd s)).time.now
      (((s.at_ (timeWaitEnd s)).modTime fun x => { x with holdover := true, bound := none, src := none }).stand 0x6001 0 true)) :=
    if_neg (by rw [awaitsTime_of hphase hstep hcause hprev hsrc hnow]; decide)
  rw [show (s.at_ (timeWaitEnd s)).time.now = timeWaitEnd s from max_eq_right hnow.le] at hexec
  have hnow' : (s.at_ (timeWaitEnd s)).time.now = timeWaitEnd s := max_eq_right (le_of_lt hnow)
  have hkeep : keepsBut [.time, .recorder] s (((s.at_ (timeWaitEnd s)).modTime fun x => { x with holdover := true, bound := none, src := none }).stand 0x6001 0 true) := by simp +decide
  have hraised := isRaised_stand_true 0x6001 0 ((s.at_ (timeWaitEnd s)).modTime fun x => { x with holdover := true, bound := none, src := none }) (by decide)
  have htime := stand_time 0x6001 0 true ((s.at_ (timeWaitEnd s)).modTime fun x => { x with holdover := true, bound := none, src := none })
  have h1 := congrArg TimeState.now htime
  have h2 := congrArg TimeState.src htime
  have h3 := congrArg TimeState.holdover htime
  have h4 := congrArg TimeState.bound htime
  have h1' := h1.trans hnow'
  generalize State.stand 0x6001 0 true _ = u at *
  have hbound : boundHolds u (timeWaitEnd s) = false := by
    unfold boundHolds boundAt
    rw [show u.time.bound = none from h4]
    rfl
  rw [judgeSync_eq, hbound] at hexec
  have htime' := stand_time 0x6003 0 true (u.modTime fun x => { x with synced := false, ppsOut := none })
  have g1 := congrArg TimeState.now htime'
  have g2 := congrArg TimeState.src htime'
  have g3 := congrArg TimeState.holdover htime'
  have g4 := congrArg TimeState.bound htime'
  have g5 := congrArg TimeState.synced htime'
  refine ⟨_, hexec, g1.trans h1', g2.trans h2, g3.trans h3, g4.trans h4, g5, isRaised_stand_of_isRaised (s := u.modTime _) hraised _ _, keepsBut_trans hkeep (by simp +decide)⟩

theorem startTimeAcquisition_over : ∀ sample s, (s.boot.phase ≠ .start ∨ s.boot.step ≠ 5 ∨ s.boot.cause = 4 ∨ s.boot.prevFailed.getD 4 false = true ∨ s.time.src.isSome = true ∨
      s.boot.stepAt + s.parN .timeStartWait * 1000000000 ≤ s.time.now) → exec (.startTimeAcquisition sample) s = .next s := by
  intro sample s h
  exact if_pos (by rw [not_awaitsTime_of h]; rfl)

theorem forEach_stand_isRaised {c : Nat} (hc : recordedOnly.contains c = false) (l : List Nat) (s : State) :
    (∀ a c', s.isRaised c' a = true → (forEach l (fun j s => s.stand c j true) s).isRaised c' a = true) ∧ ∀ j ∈ l, (forEach l (fun j s => s.stand c j true) s).isRaised c j = true := by
  induction l generalizing s with
  | nil => exact ⟨fun _ _ h => h, fun _ h => absurd h List.not_mem_nil⟩
  | cons i l ih =>
    obtain ⟨hkept, hmem⟩ := ih (s.stand c i true)
    refine ⟨fun a c' h => hkept a c' (isRaised_stand_of_isRaised h c i), fun j hj => ?_⟩
    rcases List.mem_cons.1 hj with rfl | hj
    · exact hkept _ _ (isRaised_stand_true c _ s hc)
    · exact hmem j hj

theorem startDiscoveryEnd_reports : ∀ t f s, s.up = true → s.boot.discover = some f → f ≤ s.time.frame →
    Completes (.startDiscoveryEnd t) s fun r =>
      r.boot = { s.boot with discover := none } ∧ (∀ j, j < 144 → (s.forg j).uid.isSome = true → (s.forg j).provisional = true → r.isRaised 0x2001 j = true) ∧
      keepsBut [.time, .boot, .recorder] s r := by
  intro t f s hup hfind hframe
  have hexec : exec (.startDiscoveryEnd t) s = .next (endDiscovery (s.at_ t)) := by
    show execStartDiscoveryEnd t s = _
    unfold execStartDiscoveryEnd
    dsimp only
    rw [show (s.at_ t).boot.discover = some f from hfind]
    dsimp only
    rw [show (s.at_ t).up = true from hup, show (s.at_ t).time.frame = s.time.frame from rfl, decide_eq_true hframe]
    rfl
  have hend : endDiscovery (s.at_ t) = forEach ((List.range 144).filter fun j => (s.forg j).uid.isSome && (s.forg j).provisional) (fun j s => s.stand 0x2001 j true)
      ((s.at_ t).modBoot fun b => { b with discover := none }) := by
    unfold endDiscovery
    rw [show (s.at_ t).boot.discover = some f from hfind]
    rfl
  rw [hend] at hexec
  have hraised := (forEach_stand_isRaised (c := 0x2001) (by decide) ((List.range 144).filter fun j => (s.forg j).uid.isSome && (s.forg j).provisional) ((s.at_ t).modBoot fun b => { b with discover := none })).2
  have hkeep : keepsBut [.recorder] ((s.at_ t).modBoot fun b => { b with discover := none })
      (forEach ((List.range 144).filter fun j => (s.forg j).uid.isSome && (s.forg j).provisional) (fun j s => s.stand 0x2001 j true) ((s.at_ t).modBoot fun b => { b with discover := none })) :=
    (keepsBut_forEach_iff (fun u s => by simp +decide) _ _ _).2 (keepsBut_refl _ _)
  refine ⟨_, hexec, hkeep .boot (by decide), fun j hj huid hprov => hraised j (List.mem_filter.2 ⟨List.mem_range.2 hj, ?_⟩), keepsBut_trans (t := s.at_ t) (by simp +decide)
    (keepsBut_trans (t := (s.at_ t).modBoot fun b => { b with discover := none }) (by simp +decide) (keepsBut_mono hkeep (by decide)))⟩
  rw [huid, hprov]
  rfl

/-- Settles O50: POR_N resets the module, each step is noted as it ends, and step 5 sets module time or ends without. -/
theorem startSteps : Obligations.StartSteps :=
  ⟨porNAssert_resets, porNRelease_starts, startStep_waits, startStep_frames, startStep_program, startStep_config_again, startStep_config_halts, startStep_ends, startTimeAcquisition_sets, startTimeAcquisition_without, startTimeAcquisition_over, startDiscoveryEnd_reports⟩

end Sys2Proof.Machine
end

section
/-!
PROOF. PowerSupplies: supply samples, the shares of the arbiter, the power-fail warning and its end, and VMAIN.
-/
namespace Sys2Proof.Machine

/-! ### Shares of the arbiter -/

theorem grantFrom_classes (s : State) (req : List Nat) (avail : Int) : grantFrom s req [0, 1, 2, 3] avail =
    [allowed s req 0, min (allowed s req 1) (max (avail - (allowed s req 0 : Nat)) 0).toNat,
      min (allowed s req 2) (max (avail - (allowed s req 0 : Nat) - (min (allowed s req 1) (max (avail - (allowed s req 0 : Nat)) 0).toNat : Nat)) 0).toNat,
      min (allowed s req 3) (max (avail - (allowed s req 0 : Nat) - (min (allowed s req 1) (max (avail - (allowed s req 0 : Nat)) 0).toNat : Nat) -
        (min (allowed s req 2) (max (avail - (allowed s req 0 : Nat) - (min (allowed s req 1) (max (avail - (allowed s req 0 : Nat)) 0).toNat : Nat)) 0).toNat : Nat)) 0).toNat] := rfl

/-- Outside the classes 2 and 3 a request is allowed as it stands, and class 3 has no more than it asks for. -/
theorem allowed_whole (s : State) (req : List Nat) {c : Nat} (h2 : c ≠ 2) (h3 : c ≠ 3) : allowed s req c = req.getD c 0 := by
  simp [allowed, h2, h3]

theorem allowed_three_le (s : State) (req : List Nat) : allowed s req 3 ≤ req.getD 3 0 := by
  unfold allowed
  simp only [Nat.reduceBEq, Bool.false_and, Bool.false_eq_true, if_false, if_true]
  split
  · exact Nat.zero_le _
  · exact Nat.min_le_left ..

/-! ### The power-fail warning -/

/-- The module as the counted edge leaves it before anything is written: the sequence runs, P3 has no grant (R580). -/
def pfwNoted (t : Nat) (s : State) : State :=
  ((((s.at_ t).modBoot fun b => { b with pfwN := false }).modPwr fun p => { p with seqAt := some (s.at_ t).time.now, pfw := p.pfw + 1, grant := updAt p.grant 3 fun _ => 0 }).raise 0xA041 0)

/-- The instant of the warning in the journal, and the learned values (R580). -/
def pfwStored (s : State) : State := writeAll 3 (updJournal (fun j => { j with pfwT := s.time.now - 10000 }) s)

theorem pfwNoted_kept (t : Nat) (s : State) : keepsBut [.time, .pwr, .boot, .recorder] s (pfwNoted t s) := by simp +decide [pfwNoted]

theorem pfwNoted_boot (t : Nat) (s : State) : (pfwNoted t s).boot = { s.boot with pfwN := false } := by simp [pfwNoted]

theorem exec_pfwNFall {t : Nat} {step6 : Bool} {s : State} (hrun : s.running = true) (hseq : s.pwr.seqAt = none)
    (hphase : (abandonFlash step6 (pfwNoted t s)).boot.phase = .run) :
    exec (.pfwNFall t step6) s = .next (pfwStored (abandonFlash step6 (pfwNoted t s))) := by
  have hup : (!((s.at_ t).up || (s.at_ t).boot.phase == .halted)) = false := by
    rw [State.up, show (s.at_ t).boot.phase = .run from beq_iff_eq.1 hrun]
    rfl
  have hopen : journalOpen (abandonFlash step6 (pfwNoted t s)) = true := by
    rw [journalOpen, hphase]
    rfl
  have hloaded : learnedLoaded (updJournal (fun j => { j with pfwT := (abandonFlash step6 (pfwNoted t s)).time.now - 10000 }) (abandonFlash step6 (pfwNoted t s))) = true := by
    rw [learnedLoaded, State.running, show (updJournal _ (abandonFlash step6 (pfwNoted t s))).boot.phase = _ from hphase]
    rfl
  show execPfwNFall t step6 s = _
  unfold execPfwNFall
  dsimp only
  rw [hup, if_neg Bool.false_ne_true, show (s.at_ t).pwr.seqAt = none from hseq, if_neg (by decide)]
  have hnoted : State.raise 0xA041 0 (((s.at_ t).modBoot fun b => { b with pfwN := false }).modPwr fun p => { p with seqAt := some (s.at_ t).time.now, pfw := p.pfw + 1, grant := updAt p.grant 3 fun _ => 0 }) =
    pfwNoted t s := rfl
  rw [hnoted, if_pos hopen, if_pos hloaded]
  rfl

theorem pfwStored_kept (s : State) : keepsBut [.boot, .learned, .surv, .recorder] s (pfwStored s) :=
  keepsBut_trans (t := updJournal (fun j => { j with pfwT := s.time.now - 10000 }) s) (by simp +decide) (keepsBut_mono (forEach_writeLearned_frame _ 3 _) (by decide))

theorem pfwStored_boot (s : State) : (pfwStored s).boot = (updJournal (fun j => { j with pfwT := s.time.now - 10000 }) s).boot :=
  forEach_writeLearned_frame _ 3 _ .boot (by decide)

/-- What a write leaves of the events that stand is only its own. -/
theorem isRaised_writeLearned {n cause c a : Nat} (hc : c ≠ 0x302B) (h8 : (c, a) ≠ (0x8043, 0)) (s : State) : (writeLearned n cause s).isRaised c a = s.isRaised c a := by
  have hne : (c, a) ≠ (0x302B, n) := fun h => hc (Prod.mk.inj h).1
  unfold writeLearned
  split
  · rw [isRaised_stand_of_ne hne h8]
    split <;> rfl
  · rw [isRaised_clear_of_ne hne]
    rfl

theorem isRaised_forEach_writeLearned {cause c a : Nat} (hc : c ≠ 0x302B) (h8 : (c, a) ≠ (0x8043, 0)) (l : List Nat) (s : State) :
    (forEach l (fun n s => writeLearned n cause s) s).isRaised c a = s.isRaised c a := by
  induction l generalizing s with
  | nil => rfl
  | cons n l ih => exact (ih _).trans (isRaised_writeLearned hc h8 s)

/-- A copy of the two of a string holds its record as a power-fail warning at t leaves it. -/
def warned (t n : Nat) (p : Pair LearnedRec) : Prop := ∃ q x, (p.a = some (q, x) ∨ p.b = some (q, x)) ∧ x.string = n ∧ x.cause = 3 ∧ x.pfw = true ∧ x.time = t

theorem warned_writeCopy (s : State) (n : Nat) (p : Pair LearnedRec) : warned s.time.now n (writeCopy s n 3 p) := by
  have hrec : ∀ q, (recordOf s n q 3).string = n ∧ (recordOf s n q 3).cause = 3 ∧ (recordOf s n q 3).pfw = true ∧ (recordOf s n q 3).time = s.time.now := fun _ => ⟨rfl, rfl, rfl, rfl⟩
  rw [writeCopy_eq]
  split
  · exact ⟨_, _, .inl rfl, hrec _⟩
  · exact ⟨_, _, .inr rfl, hrec _⟩
  · exact ⟨_, _, .inl rfl, hrec _⟩
  · split
    · exact ⟨_, _, .inr rfl, hrec _⟩
    · exact ⟨_, _, .inl rfl, hrec _⟩

/-- Every string of the list is written, outside the write inhibit. -/
theorem warned_forEach {n : Nat} (hn : n < 4) {l : List Nat} (hmem : n ∈ l) {s : State} (hinh : s.therm.mramInh = false) (hl : s.learned.length = 4) :
    warned s.time.now n ((forEach l (fun n s => writeLearned n 3 s) s).learned.getD n {}) := by
  induction l generalizing s with
  | nil => exact absurd hmem List.not_mem_nil
  | cons a l ih =>
    have hk := writeLearned_frame a 3 s
    have hinh' : (writeLearned a 3 s).therm.mramInh = false := by rw [hk .therm (by decide), hinh]
    have htime : (writeLearned a 3 s).time = s.time := hk .time (by decide)
    by_cases hml : n ∈ l
    · have h := ih hml hinh' (by rw [writeLearned_learned hinh, length_updAt, hl])
      rw [htime] at h
      exact h
    · obtain rfl : n = a := (List.mem_cons.1 hmem).resolve_right hml
      show warned s.time.now n ((forEach l (fun n s => writeLearned n 3 s) (writeLearned n 3 s)).learned.getD n {})
      rw [forEach_writeLearned_notMem hml 3 hinh', writeLearned_learned hinh, getD_updAt, if_pos ⟨rfl, by omega⟩]
      exact warned_writeCopy s n _

/-! ### A commit ends with the warning -/

theorem setCopy_commit (b : Bool) (i : CfgImage) (s : State) : (setCopy b i s).boot.phase = s.boot.phase ∧ (setCopy b i s).boot.commit = s.boot.commit ∧ (setCopy b i s).boot.comGen = s.boot.comGen ∧
    (setCopy b i s).boot.com = s.boot.com := by
  cases b <;> exact ⟨rfl, rfl, rfl, rfl⟩

/-- A commit whose step 4 failed is over, and the committed generation is as it was (R531). -/
theorem finishCommit_failed (ok6 : Bool) (c : CommitRun) (s : State) : (finishCommit false ok6 c s).1.boot.phase = s.boot.phase ∧ (finishCommit false ok6 c s).1.boot.commit = none ∧
    (finishCommit false ok6 c s).1.boot.comGen = s.boot.comGen ∧ (finishCommit false ok6 c s).1.boot.com = s.boot.com := by
  have h := setCopy_commit (firstIsB s) { c.img with bad := 1 } (s.modBoot fun b => { b with commit := none })
  have hfin : (finishCommit false ok6 c s).1.boot = (setCopy (firstIsB s) { c.img with bad := 1 } (s.modBoot fun b => { b with commit := none })).boot := raise_boot ..
  rw [hfin]
  exact h

/-- A commit that stands is over, and its generation is the committed one. -/
theorem finishCommit_stands (ok6 : Bool) (c : CommitRun) (s : State) : (finishCommit true ok6 c s).1.boot.phase = s.boot.phase ∧ (finishCommit true ok6 c s).1.boot.commit = none ∧
    (finishCommit true ok6 c s).1.boot.comGen = c.img.gen ∧ (finishCommit true ok6 c s).1.boot.com = c.img.cfg := by
  unfold finishCommit
  extract_lets fb s0 failedImg failed s1 s2 s3
  rw [if_neg (by decide)]
  obtain ⟨hphase1, hcommit1, -, -⟩ := setCopy_commit fb c.img s0
  have hphase : s1.boot.phase = s.boot.phase := (setCopy_commit ..).1.trans hphase1
  have hcommit : s1.boot.commit = none := (setCopy_commit ..).2.1.trans hcommit1
  clear_value s1
  have h2 : s3.boot.phase = s1.boot.phase ∧ s3.boot.commit = s1.boot.commit ∧ s3.boot.comGen = c.img.gen ∧ s3.boot.com = c.img.cfg := ⟨rfl, rfl, rfl, rfl⟩
  clear_value s3
  have hboot : (State.raise 0x900A 0 (if ok6 then s3 else s3.raise 0x900B 0)).boot = s3.boot := by
    rw [raise_boot]
    split
    · rfl
    · exact raise_boot ..
  obtain ⟨hp, hc, hg, hcom⟩ := h2
  show (State.raise 0x900A 0 (if ok6 then s3 else s3.raise 0x900B 0)).boot.phase = _ ∧ (State.raise 0x900A 0 (if ok6 then s3 else s3.raise 0x900B 0)).boot.commit = _ ∧
    (State.raise 0x900A 0 (if ok6 then s3 else s3.raise 0x900B 0)).boot.comGen = _ ∧ (State.raise 0x900A 0 (if ok6 then s3 else s3.raise 0x900B 0)).boot.com = _
  rw [hboot]
  exact ⟨hp.trans hphase, hc.trans hcommit, hg, hcom⟩

theorem endCommit_boot {ok4 ok6 : Bool} {c : CommitRun} {s : State} (h : s.boot.commit = some c) : (endCommit ok4 ok6 s).boot = (finishCommit ok4 ok6 c s).1.boot := by
  unfold endCommit
  rw [h]
  dsimp only
  have hk : keepsBut [.host, .out] (finishCommit ok4 ok6 c s).1 (finishReply c.session c.slot 0x0304 c.seq
      [stBytes (finishCommit ok4 ok6 c s).2.1 (finishCommit ok4 ok6 c s).2.2 ++ if (finishCommit ok4 ok6 c s).2.1 == 0 then toLE 4 c.img.gen ++ toLE 4 c.img.scv else []] (finishCommit ok4 ok6 c s).1) := by
    simp +decide
  exact hk .boot (by decide)

/-- A warning while a commit is in progress: it ends as step 6 stands, and the rest of the sequence leaves its outcome (R581). -/
theorem pfwNFall_endsCommit {t : Nat} {step6 : Bool} {c : CommitRun} {s : State} (hrun : s.running = true) (hseq : s.pwr.seqAt = none) (hcommit : s.boot.commit = some c) :
    ∃ u, u.boot.comGen = s.boot.comGen ∧ u.boot.com = s.boot.com ∧ Completes (.pfwNFall t step6) s fun r =>
      r.boot.commit = (finishCommit step6 false c u).1.boot.commit ∧ r.boot.comGen = (finishCommit step6 false c u).1.boot.comGen ∧ r.boot.com = (finishCommit step6 false c u).1.boot.com := by
  have hrunning : s.boot.phase = .run := beq_iff_eq.1 hrun
  have hboot := pfwNoted_boot t s
  have hflash : abandonFlash step6 (pfwNoted t s) = endCommit step6 false ((pfwNoted t s).raise 0xA044 0) := by
    unfold abandonFlash
    rw [hboot, hcommit]
  have hends : (abandonFlash step6 (pfwNoted t s)).boot = (finishCommit step6 false c ((pfwNoted t s).raise 0xA044 0)).1.boot := by
    rw [hflash]
    exact endCommit_boot (by rw [raise_boot, hboot, hcommit])
  have hraised : ((pfwNoted t s).raise 0xA044 0).boot = { s.boot with pfwN := false } := (raise_boot ..).trans hboot
  generalize (pfwNoted t s).raise 0xA044 0 = u at *
  have hphase : (abandonFlash step6 (pfwNoted t s)).boot.phase = .run := by
    have hu := congrArg BootState.phase hraised
    rw [hends, ← hrunning, ← show u.boot.phase = s.boot.phase from hu]
    cases step6
    · exact (finishCommit_failed ..).1
    · exact (finishCommit_stands ..).1
  have hexec := exec_pfwNFall (t := t) hrun hseq hphase
  generalize abandonFlash step6 (pfwNoted t s) = v at *
  have hstored := pfwStored_boot v
  have hgen := congrArg BootState.comGen hraised
  have hcom := congrArg BootState.com hraised
  refine ⟨u, hgen, hcom, _, hexec, ?_⟩
  dsimp only
  rw [hstored, ← hends]
  exact ⟨rfl, rfl, rfl⟩

theorem roundSupplySample_sets : ∀ t mv input dom s, s.up = true → s.roundPos = 0 → s.frameStart + 7000000 ≤ t → t ≤ s.frameStart + 7500000 →
    Completes (.roundSupplySample t mv input dom) s fun r =>
      r.pwr = { s.pwr with mv := mv, out := suppliesOut mv, sampledAt := some s.time.frame, input := input, pIdleNew := (input : Int) - (s.pwr.grant.sum : Nat), domPower := dom } ∧
      (r.isRaised 0xA040 0 = true ↔ suppliesOut mv ≠ 0) ∧ keepsBut [.time, .pwr, .recorder] s r := by
  intro t mv input dom s hup hround hfrom hto
  have hexec : exec (.roundSupplySample t mv input dom) s = .next (((s.at_ t).modPwr fun p => { p with
      mv := mv, out := suppliesOut mv, sampledAt := some s.time.frame, input := input, pIdleNew := (input : Int) - (p.grant.sum : Nat), domPower := dom }).stand 0xA040 0 (suppliesOut mv != 0)) := by
    show execRoundSupplySample t mv input dom s = _
    unfold execRoundSupplySample
    dsimp only
    rw [show (s.at_ t).up = true from hup, show (s.at_ t).roundPos = 0 from hround, if_neg]
    · rfl
    · simp only [Bool.not_true, bne_self_eq_false, Bool.false_or, Bool.or_eq_true, decide_eq_true_eq, not_or, not_lt]
      exact ⟨hfrom, hto⟩
  refine ⟨_, hexec, stand_pwr .., ?_, by simp +decide⟩
  by_cases h : suppliesOut mv = 0
  · rw [bne_eq_false_iff_eq.2 h, isRaised_stand_false]
    exact ⟨fun hf => absurd hf (by decide), fun hf => absurd h hf⟩
  · rw [bne_iff_ne.2 h, isRaised_stand_true _ _ _ (by decide)]
    exact ⟨fun _ => h, fun _ => rfl⟩

theorem grantFrom_shares : ∀ s req (avail : Int),
    let g := grantFrom s req [0, 1, 2, 3] avail
    g.getD 0 0 = req.getD 0 0 ∧ ((g.getD 1 0 + g.getD 2 0 + g.getD 3 0 : Nat) : Int) ≤ max 0 (avail - (req.getD 0 0 : Nat)) ∧ g.getD 1 0 ≤ req.getD 1 0 ∧ g.getD 3 0 ≤ req.getD 3 0 := by
  intro s req avail g
  have hg : g = _ := grantFrom_classes s req avail
  have h0 := allowed_whole s req (c := 0) (by decide) (by decide)
  have h1 := allowed_whole s req (c := 1) (by decide) (by decide)
  have h3 := allowed_three_le s req
  rw [hg]
  simp only [List.getD_cons_zero, List.getD_cons_succ]
  omega

theorem pfwNFall_warns : ∀ t step6 s, s.running = true → s.pwr.seqAt = none → s.boot.commit = none →
    Completes (.pfwNFall t step6) s fun r =>
      r.pwr.seqAt = some (max s.time.now t) ∧ r.pwr.pfw = s.pwr.pfw + 1 ∧ r.pwr.grant.getD 3 0 = 0 ∧ p3Off r = true ∧ r.boot.pfwN = false ∧ r.isRaised 0xA041 0 = true ∧
      (s.boot.journal.length = 16 → s.boot.newest < 16 → (r.boot.journal.getD r.boot.newest {}).pfwT = max s.time.now t - 10000) ∧
      (s.therm.mramInh = false → s.learned.length = 4 → ∀ n, n < 4 → linkOn s n = true → ∃ q x,
        ((r.learned.getD n {}).a = some (q, x) ∨ (r.learned.getD n {}).b = some (q, x)) ∧ x.string = n ∧ x.cause = 3 ∧ x.pfw = true ∧ x.time = max s.time.now t) ∧
      keepsBut [.time, .pwr, .boot, .learned, .surv, .recorder] s r := by
  intro t step6 s hrun hseq hcommit
  have hrunning : s.boot.phase = .run := beq_iff_eq.1 hrun
  have hboot := pfwNoted_boot t s
  have hflash : abandonFlash step6 (pfwNoted t s) = pfwNoted t s := by
    unfold abandonFlash
    rw [hboot, hcommit]
  have hexec := exec_pfwNFall (t := t) (step6 := step6) hrun hseq (by rw [hflash, hboot]; exact hrunning)
  rw [hflash] at hexec
  have hkept := pfwNoted_kept t s
  have hpwr : (pfwNoted t s).pwr = { s.pwr with seqAt := some (max s.time.now t), pfw := s.pwr.pfw + 1, grant := updAt s.pwr.grant 3 fun _ => 0 } := by simp [pfwNoted]
  have hnow : (pfwNoted t s).time.now = max s.time.now t := by simp [pfwNoted]
  have hraised : (pfwNoted t s).isRaised 0xA041 0 = true := isRaised_raise _ _ _ (by decide)
  have htherm : (pfwNoted t s).therm = s.therm := hkept .therm (by decide)
  have hlearned : (pfwNoted t s).learned = s.learned := hkept .learned (by decide)
  have hlink : ∀ n, linkOn (pfwNoted t s) n = linkOn s n := fun n => by simp only [linkOn, State.parBit, State.parN, State.par, hboot]
  generalize pfwNoted t s = u at *
  have hstored := pfwStored_kept u
  have hboot' := pfwStored_boot u
  have hpwr' : (pfwStored u).pwr = u.pwr := hstored .pwr (by decide)
  have hwritten : (pfwStored u).isRaised 0xA041 0 = true :=
    (isRaised_forEach_writeLearned (by decide) (by decide) _ _).trans hraised
  refine ⟨_, hexec, ?_, ?_, ?_, ?_, ?_, hwritten, fun hj hn => ?_, fun hinh hl n hn hon => ?_, keepsBut_trans (keepsBut_mono hkept (by decide)) (keepsBut_mono hstored (by decide))⟩
  · rw [hpwr', hpwr]
  · rw [hpwr', hpwr]
  · rw [hpwr', hpwr]
    show (updAt s.pwr.grant 3 _).getD 3 0 = 0
    rw [getD_updAt]
    split
    · rfl
    next h => exact List.getD_eq_default _ _ (not_lt.1 fun hc => h ⟨rfl, hc⟩)
  · rw [p3Off, hpwr', hpwr, Option.isSome_some, Bool.or_true, Bool.true_or]
  · rw [hboot']
    show u.boot.pfwN = false
    rw [hboot]
  · rw [hboot']
    show ((updAt u.boot.journal u.boot.newest _).getD u.boot.newest {}).pfwT = _
    rw [getD_updAt, if_pos ⟨rfl, by rw [hboot]; exact hj ▸ hn⟩, hnow]
  · have h := warned_forEach (s := updJournal (fun j => { j with pfwT := u.time.now - 10000 }) u) hn (l := (List.range 4).filter (linkOn (updJournal (fun j => { j with pfwT := u.time.now - 10000 }) u)))
      (List.mem_filter.2 ⟨List.mem_range.2 hn, (hlink n).trans hon⟩) (by rw [← htherm] at hinh; exact hinh) (by rw [← hlearned] at hl; exact hl)
    rw [← hnow]
    exact h

theorem pfwNFall_fails : ∀ t c s, s.running = true → s.pwr.seqAt = none → s.boot.commit = some c →
    Completes (.pfwNFall t false) s fun r => r.boot.commit = none ∧ r.boot.comGen = s.boot.comGen ∧ r.boot.com = s.boot.com := by
  intro t c s hrun hseq hcommit
  obtain ⟨u, hgen, hcom, r, hexec, h1, h2, h3⟩ := pfwNFall_endsCommit (t := t) (step6 := false) hrun hseq hcommit
  obtain ⟨-, hnone, hgen', hcom'⟩ := finishCommit_failed false c u
  exact ⟨r, hexec, h1.trans hnone, h2.trans (hgen'.trans hgen), h3.trans (hcom'.trans hcom)⟩

theorem pfwNFall_stands : ∀ t c s, s.running = true → s.pwr.seqAt = none → s.boot.commit = some c →
    Completes (.pfwNFall t true) s fun r => r.boot.commit = none ∧ r.boot.comGen = c.img.gen ∧ r.boot.com = c.img.cfg := by
  intro t c s hrun hseq hcommit
  obtain ⟨u, -, -, r, hexec, h1, h2, h3⟩ := pfwNFall_endsCommit (t := t) (step6 := true) hrun hseq hcommit
  obtain ⟨-, hnone, hgen, hcom⟩ := finishCommit_stands false c u
  exact ⟨r, hexec, h1.trans hnone, h2.trans hgen, h3.trans hcom⟩

/-- The module at the end of a power-fail sequence, before the arbiter has its word: the level of PFW_N, and the event that ends with it. -/
def pfwLevel (t : Nat) (high : Bool) (s : State) : State :=
  if high then ((s.at_ t).modBoot fun b => { b with pfwN := high }).clear 0xA041 0 else (s.at_ t).modBoot fun b => { b with pfwN := high }

theorem pfwLevel_facts (t : Nat) (high : Bool) (s : State) : (pfwLevel t high s).boot.pfwN = high ∧ (high = true → (pfwLevel t high s).isRaised 0xA041 0 = false) ∧
    (high = false → (pfwLevel t high s).recorder = s.recorder) ∧ (pfwLevel t high s).pwr = s.pwr ∧ keepsBut [.time, .boot, .recorder] s (pfwLevel t high s) := by
  have hkeep : keepsBut [.time, .boot, .recorder] s (pfwLevel t high s) := by simp +decide [pfwLevel]
  refine ⟨?_, ?_, ?_, hkeep .pwr (by decide), hkeep⟩
  · cases high
    · rfl
    · exact congrArg BootState.pfwN (clear_boot ..)
  · rintro rfl
    exact isRaised_clear ..
  · rintro rfl
    rfl

theorem powerFailSequenceEnd_ends : ∀ t high (vmain : BitVec 16) a s, s.pwr.seqAt = some a → a + 13990000 ≤ max s.time.now t →
    Completes (.powerFailSequenceEnd t high vmain) s fun r =>
      r.boot.pfwN = high ∧
      (high = true → r.isRaised 0xA041 0 = false) ∧ (high = false → r.recorder = s.recorder) ∧
      (high = true ∧ 9000 ≤ vmain.toNat ∧ vmain.toNat ≤ 16000 → r.pwr = { s.pwr with seqAt := none }) ∧
      (high = false ∨ vmain.toNat < 9000 ∨ 16000 < vmain.toNat → r.pwr = s.pwr) ∧ keepsBut [.time, .pwr, .boot, .recorder] s r := by
  intro t high vmain a s hseq hend
  have hexec : exec (.powerFailSequenceEnd t high vmain) s =
      .next (if high && decide (9000 ≤ vmain.toNat) && decide (vmain.toNat ≤ 16000) then (pfwLevel t high s).modPwr fun p => { p with seqAt := none } else pfwLevel t high s) := by
    have hdue : ¬(s.at_ t).time.now < a + 13990000 := not_lt.2 hend
    show execPowerFailSequenceEnd t high vmain s = _
    unfold execPowerFailSequenceEnd
    dsimp only
    rw [show (s.at_ t).pwr.seqAt = some a from hseq]
    exact if_neg hdue
  obtain ⟨hlevel, hcleared, hrec, hpwr, hkeep⟩ := pfwLevel_facts t high s
  generalize pfwLevel t high s = u at *
  by_cases hok : high = true ∧ 9000 ≤ vmain.toNat ∧ vmain.toNat ≤ 16000
  · obtain ⟨hh, hlo, hhi⟩ := hok
    rw [if_pos (by rw [hh, decide_eq_true hlo, decide_eq_true hhi]; rfl)] at hexec
    refine ⟨_, hexec, hlevel, hcleared, hrec, fun _ => ?_, fun hbad => ?_, keepsBut_trans (keepsBut_mono hkeep (by decide)) (by simp +decide)⟩
    · rw [← hpwr]
      rfl
    · rcases hbad with hbad | hbad | hbad
      · exact absurd (hbad.symm.trans hh) (by decide)
      · omega
      · omega
  · rw [if_neg fun hc => hok (by simpa [and_assoc] using hc)] at hexec
    exact ⟨_, hexec, hlevel, hcleared, hrec, fun h => absurd h hok, fun _ => hpwr, keepsBut_mono hkeep (by decide)⟩

theorem vmainLoss_holds : ∀ t s, s.pwr.vmain = true → s.boot.porN = true →
    Completes (.vmainLoss t) s fun r =>
      r.pwr.vmain = false ∧ r.boot.phase = .mainReset ∧ r.guard = { s.guard with lowSince := s.guard.lowSince.map fun _ => none } ∧ r.learned = s.learned ∧ r.boot.journal = s.boot.journal ∧ r.time = { now := max s.time.now t } ∧ r.pending = s.pending := by
  intro t s hvmain hpor
  have hexec : exec (.vmainLoss t) s = .next ((((mainReset .mainReset 0 (s.at_ t)).modPwr fun p => { p with vmain := false, domains := p.domains &&& 2 }).modTime fun _ => { now := (s.at_ t).time.now }).modGuard
      fun g => { g with lowSince := g.lowSince.map fun _ => none }) := by
    show execVmainLoss t s = _
    unfold execVmainLoss
    dsimp only
    rw [show (s.at_ t).pwr.vmain = true from hvmain, show (s.at_ t).boot.porN = true from hpor]
    rfl
  exact ⟨_, hexec, rfl, rfl, rfl, rfl, rfl, rfl, rfl⟩

/-- What a reset of the main die to Start keeps, and where it begins. -/
theorem mainReset_returned (s : State) : (mainReset .start 0 s).pwr.vmain = s.pwr.vmain ∧ (mainReset .start 0 s).boot.phase = .start ∧ (mainReset .start 0 s).boot.step = 1 ∧
    (mainReset .start 0 s).time.now = s.time.now ∧ (mainReset .start 0 s).learned = s.learned ∧ (mainReset .start 0 s).boot.journal = s.boot.journal ∧ (mainReset .start 0 s).pending = s.pending :=
  ⟨rfl, rfl, rfl, rfl, rfl, rfl, rfl⟩

theorem stepTime_returned (t : Nat) (s : State) : (stepTime t s).time.now = t ∧ (stepTime t s).boot.journal = s.boot.journal ∧ (stepTime t s).pwr = s.pwr ∧ (stepTime t s).learned = s.learned ∧
    (stepTime t s).pending = s.pending := ⟨rfl, rfl, rfl, rfl, rfl⟩

theorem vmainReturn_starts : ∀ s, s.pwr.vmain = false → s.boot.porN = true →
    Completes (.vmainReturn) s fun r =>
      r.pwr.vmain = true ∧ r.boot.phase = .start ∧ r.boot.step = 1 ∧ r.time.now = lastPfw s ∧ r.learned = s.learned ∧ r.boot.journal = s.boot.journal ∧ r.pending = s.pending := by
  intro s hvmain hpor
  have hexec : exec .vmainReturn s = .next (stageAll (mainReset .start 0 (stepTime (lastPfw s) (s.modPwr fun p => { p with vmain := true })))) := by
    show execVmainReturn s = _
    unfold execVmainReturn
    dsimp only
    rw [hvmain, hpor]
    rfl
  have hkeep : keepsBut [.est, .guard] (mainReset .start 0 (stepTime (lastPfw s) (s.modPwr fun p => { p with vmain := true })))
      (stageAll (mainReset .start 0 (stepTime (lastPfw s) (s.modPwr fun p => { p with vmain := true })))) := by simp +decide
  obtain ⟨hnow', hjournal', hvm', hlearned', hpending'⟩ := stepTime_returned (lastPfw s) (s.modPwr fun p => { p with vmain := true })
  generalize stepTime (lastPfw s) (s.modPwr fun p => { p with vmain := true }) = u at *
  obtain ⟨hvm, hphase, hstep, hnow, hlearned, hjournal, hpending⟩ := mainReset_returned u
  generalize mainReset .start 0 u = v at *
  have hboot := hkeep .boot (by decide)
  have hpwr := hkeep .pwr (by decide)
  have htime := hkeep .time (by decide)
  have h1 := congrArg PwrState.vmain hpwr
  have h2 := congrArg BootState.phase hboot
  have h3 := congrArg BootState.step hboot
  have h4 := congrArg TimeState.now htime
  have h5 := congrArg BootState.journal hboot
  exact ⟨_, hexec, h1.trans (hvm.trans (congrArg PwrState.vmain hvm')), h2.trans hphase, h3.trans hstep, h4.trans (hnow.trans hnow'), (hkeep .learned (by decide)).trans (hlearned.trans hlearned'),
    h5.trans (hjournal.trans hjournal'), (hkeep .pending (by decide)).trans (hpending.trans hpending')⟩

/-- Settles O54: the arbiter shares what class 0 leaves, and a power-fail warning is noted, stored, and ended as R580 says. -/
theorem powerSupplies : Obligations.PowerSupplies :=
  ⟨roundSupplySample_sets, grantFrom_shares, pfwNFall_warns, pfwNFall_fails, pfwNFall_stands, powerFailSequenceEnd_ends, vmainLoss_holds, vmainReturn_starts⟩

end Sys2Proof.Machine
end

section
namespace Sys2Proof.Machine

/-! PROOF. O52 does not hold: its clause on a cancelled activation (R549, step 3) leaves out that nothing has been saved for the restart yet; from then on the sequence is not cancelled any more. -/

/-- Once all has been saved for the restart, the sequence waits for its frame without another check (R549). -/
theorem activationFrame_saved {fa : Nat} {s : State} (hst : s.upd.st = 5) (hbegin : s.upd.beginFrame = none) (hact : s.upd.actFrame = some fa) (hsaved : s.upd.saved = true)
    (hnear : fa ≤ s.time.frame + 2) (hahead : s.time.frame < fa) : activationFrame s = s.modUpd fun u => { u with passed := true } := by
  simp [activationFrame, hbegin, hact, hst, hsaved, hnear, hahead]

theorem exec_activationSequence (t : Nat) {s : State} (hrun : s.running = true) : exec (.activationSequence t) s = .next (activationFrame (s.at_ t)) := by
  show execActivationSequence t s = _
  exact if_pos hrun

/-- Two frames before its frame an activation has been saved although the check of step 3 has not passed, and the flash inhibit stands. -/
def savedEarly : State :=
  { Tests.run0 with
    time := { Tests.run0.time with frame := 498 }, therm := { Tests.run0.therm with flashInh := true }
    upd := { Tests.run0.upd with st := 5, beginFrame := none, actFrame := some 500, passed := false, saved := true } }

theorem savedEarly_meets : savedEarly.running = true ∧ savedEarly.upd.st = 5 ∧ savedEarly.upd.beginFrame = none ∧ savedEarly.upd.actFrame = some 500 ∧ savedEarly.upd.passed = false ∧
    savedEarly.upd.saved = true ∧ 500 ≤ savedEarly.time.frame + 2 ∧ savedEarly.time.frame < 500 ∧ activationReady savedEarly = false := by
  decide +kernel

/-- Refutes O52: with all saved for the restart the sequence goes on, and the update stays in state 5. -/
theorem not_updateActivation : ¬ Obligations.UpdateActivation := by
  rintro ⟨-, -, -, hcancel, -⟩
  obtain ⟨hrun, hst, hbegin, hact, hpassed, hsaved, hnear, hahead, hready⟩ := savedEarly_meets
  obtain ⟨r, hexec, hst', -⟩ := hcancel 0 500 savedEarly hrun hst hbegin hact hpassed hnear hready
  have hframe : exec (.activationSequence 0) savedEarly = .next (activationFrame (savedEarly.at_ 0)) := exec_activationSequence 0 hrun
  obtain rfl := Host.Outcome.next.inj (hframe.symm.trans hexec)
  rw [activationFrame_saved (s := savedEarly.at_ 0) hst hbegin hact hsaved hnear hahead] at hst'
  exact absurd (hst.symm.trans hst') (by decide)

end Sys2Proof.Machine
end

section
/-!
PROOF. FrameWork: the frame boundary, part by part, and the sample instant.
-/
namespace Sys2Proof.Machine

/-! ### What a list of steps keeps -/

theorem forEach_keeps {α β : Type} {read : State → β} {f : α → State → State} (hf : ∀ a s, read (f a s) = read s) (l : List α) (s : State) : read (forEach l f s) = read s := by
  induction l generalizing s with
  | nil => rfl
  | cons a l ih => exact (ih _).trans (hf a s)

/-! ### The time of a frame -/

/-- What the time unit holds of the running frame: the clock, its number, its offsets, and the edges of SYNC_IN and PULSE_IN in it. -/
def beat (s : State) : Nat × Nat × Nat × Nat × Nat × Nat × PulseFrame :=
  (s.time.now, s.time.frame, s.time.sCur, s.time.sNext, s.time.sShadow, s.time.syncAge, s.time.pulse)

theorem beat_of_keepsBut {ps : List Piece} {s t : State} (h : keepsBut ps s t) (hp : Piece.time ∉ ps) : beat t = beat s := by
  have htime : t.time = s.time := h .time hp
  unfold beat
  rw [htime]

theorem beat_judgeHoldover (t : Nat) (s : State) : beat (judgeHoldover t s) = beat s := by
  unfold judgeHoldover
  split
  · rfl
  · simp [beat]

theorem beat_judgeSync (t : Nat) (s : State) : beat (judgeSync t s) = beat s := by
  unfold beat
  rw [judgeSync_time]

theorem beat_fireUnit (u : Nat) (s : State) : beat (fireUnit u s) = beat s := by
  unfold fireUnit
  split <;> rfl

theorem beat_driveUnit (u t : Nat) (s : State) : beat (driveUnit u t s) = beat s := by
  unfold driveUnit
  split
  · rfl
  · split <;> rfl

theorem beat_fireOutputs (s : State) : beat (fireOutputs s) = beat s := by
  unfold fireOutputs
  split
  · exact forEach_keeps (fun u s => (beat_fireUnit ..).trans (beat_driveUnit ..)) _ s
  · rfl

theorem beat_armUnit (u : Nat) (s : State) : beat (armUnit u s) = beat s := by
  unfold beat
  rw [armUnit_frame]

theorem beat_canFrame (s : State) : beat (canFrame s) = beat s := by
  have harm : ∀ s, beat (armReference s) = beat s := by
    intro s
    unfold armReference
    split <;> rfl
  have hport : ∀ p f s, beat (updPort p f s) = beat s := fun _ _ _ => rfl
  exact (harm _).trans (forEach_keeps (fun p s => hport p _ s) _ s)

/-- The frame that opens: its number, its offset, the one announced after it, and the edges of the inputs anew (R31, R36, R45, R378). -/
theorem beat_openFrame (late : Bool) (s : State) : beat (openFrame late s) =
    (s.time.now, s.time.frame + 1, s.time.sNext, (if late then s.time.sNext else s.time.sShadow), s.time.sShadow, s.time.syncAge + 1, {}) := by
  have hfire : beat (fireOutputs (fireUnit 1 s)) = beat s := (beat_fireOutputs _).trans (beat_fireUnit ..)
  unfold openFrame
  generalize fireOutputs (fireUnit 1 s) = u at *
  simp only [beat, Prod.mk.injEq] at hfire
  obtain ⟨hnow, hframe, -, hnext, hshadow, hage, -⟩ := hfire
  show (u.time.now, u.time.frame + 1, u.time.sNext, (if late then u.time.sNext else u.time.sShadow), u.time.sShadow, u.time.syncAge + 1, ({} : PulseFrame)) = _
  rw [hnow, hframe, hnext, hshadow, hage]

/-- What the frame's outputs send on the bus is no work of the time unit. -/
theorem rpdoFrame_kept (s : State) : keepsBut [.can, .recorder] s (rpdoFrame s) := by
  have hsend : ∀ kind id d s, keepsBut [.can, .recorder] s (coSend kind id d s) := by
    intro kind id d s
    unfold coSend
    split
    · simp +decide
    · exact keepsBut_refl _ _
  have hstation : ∀ k s, keepsBut [.can, .recorder] s (rpdoStation k s) := by
    intro k s
    unfold rpdoStation
    extract_lets x c
    split
    · simp +decide
    · split
      · exact (keepsBut_forEach_iff (fun j s => hsend _ _ _ s) _ _ _).2 (keepsBut_refl _ _)
      · exact keepsBut_refl _ _
  unfold rpdoFrame
  split
  · exact (keepsBut_forEach_iff hstation _ _ _).2 (keepsBut_refl _ _)
  · exact keepsBut_refl _ _

/-! ### Uplinks of the frame -/

/-- No forager has an uplink of the frame. -/
def unheard (s : State) : Prop := ∀ f ∈ s.forgs, f.up = none ∧ f.own = false

theorem unheard_forg {s : State} (h : unheard s) (j : Nat) : (s.forg j).up = none ∧ (s.forg j).own = false := by
  unfold State.forg
  rw [List.getD_eq_getElem?_getD]
  cases hj : s.forgs[j]? with
  | none => exact ⟨rfl, rfl⟩
  | some f => exact h f (List.mem_of_getElem? hj)

theorem unheard_of_keepsBut {ps : List Piece} {s t : State} (h : unheard s) (hk : keepsBut ps s t) (hp : Piece.forgs ∉ ps) : unheard t := by
  have hforgs : t.forgs = s.forgs := hk .forgs hp
  unfold unheard
  rw [hforgs]
  exact h

theorem unheard_map {f : Forager → Forager} (hf : ∀ x, (f x).up = x.up ∧ (f x).own = x.own) {s : State} (h : unheard s) : unheard (s.modForgs fun fs => fs.map f) := by
  intro y hy
  obtain ⟨x, hx, rfl⟩ := List.mem_map.1 hy
  rw [(hf x).1, (hf x).2]
  exact h x hx

theorem mem_updAt {α : Type} {l : List α} {n : Nat} {f : α → α} {y : α} (h : y ∈ updAt l n f) : y ∈ l ∨ ∃ x ∈ l, y = f x := by
  obtain ⟨i, hi⟩ := List.getElem?_of_mem h
  rw [updAt, List.getElem?_modify] at hi
  obtain ⟨x, hx, hxy⟩ := Option.map_eq_some_iff.1 hi
  split at hxy
  · exact .inr ⟨x, List.mem_of_getElem? hx, hxy.symm⟩
  · exact .inl (hxy ▸ List.mem_of_getElem? hx)

theorem unheard_updForg {f : Forager → Forager} (hf : ∀ x, (f x).up = x.up ∧ (f x).own = x.own) (j : Nat) {s : State} (h : unheard s) : unheard (s.updForg j f) := by
  intro y hy
  rcases mem_updAt hy with hy | ⟨x, hx, rfl⟩
  · exact h y hy
  · rw [(hf x).1, (hf x).2]
    exact h x hx

theorem unheard_forEach {α : Type} {f : α → State → State} (hf : ∀ a s, unheard s → unheard (f a s)) (l : List α) {s : State} (h : unheard s) : unheard (forEach l f s) := by
  induction l generalizing s with
  | nil => exact h
  | cons a l ih => exact ih (hf a s h)

theorem unheard_linkFrame (s : State) : unheard (linkFrame s) := by
  unfold linkFrame
  extract_lets u
  have hnew : unheard (newLinkFrame u) := by
    intro y hy
    obtain ⟨x, -, rfl⟩ := List.mem_map.1 hy
    exact ⟨rfl, rfl⟩
  exact unheard_of_keepsBut hnew ((keepsBut_forEach_iff (ps := [.links, .tagCtr, .recorder]) (fun n s => by simp +decide) _ _ _).2 (keepsBut_refl _ _)) (by decide)

theorem unheard_bulkFrame {s : State} (h : unheard s) : unheard (bulkFrame s) := by
  have hcool : unheard (coolMaps s) := unheard_of_keepsBut (ps := [.links]) h (by simp +decide) (by decide)
  unfold bulkFrame
  generalize coolMaps s = u at *
  unfold holdBulk
  split
  · exact unheard_of_keepsBut (ps := [.links])
      (unheard_map (f := fun f => { f with ups := f.ups.map fun x => if cool u x.object then x else { x with granted := x.granted + 1 } }) (fun _ => ⟨rfl, rfl⟩) hcool) (by simp +decide) (by decide)
  · exact hcool

theorem unheard_abortImp {cause : Nat} {s : State} (h : unheard s) : unheard (abortImp cause s) := by
  unfold abortImp
  split
  · exact h
  next v _ =>
    extract_lets n js s1 s2 s3 s4
    clear_value js
    have h1 : unheard s1 := unheard_forEach (fun j s hs =>
      unheard_of_keepsBut (ps := [.links, .tagCtr]) (unheard_updForg (f := fun f => { f with ups := f.ups.filter (·.object != 1) }) (fun _ => ⟨rfl, rfl⟩) j hs) (by simp +decide) (by decide)) _ h
    have h2 : unheard (forEach js (fun j s => s.updForg j fun f => { f with burstRes := none }) s1) := unheard_forEach (fun j s hs =>
      unheard_updForg (f := fun f => { f with burstRes := none }) (fun _ => ⟨rfl, rfl⟩) j hs) _ h1
    exact unheard_of_keepsBut (ps := [.links, .surv, .learned, .recorder]) h2 (by simp +decide [s2, s3, s4]) (by decide)

theorem unheard_surveyFrame {s : State} (h : unheard s) : unheard (surveyFrame s) := by
  have hbegun : ∀ x, (burstBegun s.frameStart x).up = x.up ∧ (burstBegun s.frameStart x).own = x.own := by
    intro x
    exact ⟨(apply_ite Forager.up ..).trans (ite_self _), (apply_ite Forager.own ..).trans (ite_self _)⟩
  have hswap : unheard (impTableSwap s) := unheard_of_keepsBut (ps := [.cells, .surv, .learned, .recorder]) h (by simp +decide) (by decide)
  unfold surveyFrame
  extract_lets s0 s1 above s2
  have h0 : unheard s0 := unheard_map hbegun hswap
  have h2 : unheard s2 := unheard_of_keepsBut (ps := [.surv]) h0 (by simp +decide [s1, s2]) (by decide)
  clear_value s2
  split
  · exact h2
  · extract_lets comp st s3
    split
    · exact unheard_abortImp h2
    · exact unheard_of_keepsBut (ps := [.surv, .recorder]) h2 (by simp +decide [s3]) (by decide)

/-! ### Staging in the foragers -/

theorem judgeStaged_frames (s : State) : (judgeStaged s).upd.actFrame = s.upd.actFrame ∧ (judgeStaged s).upd.beginFrame = s.upd.beginFrame := by
  unfold judgeStaged
  split <;> exact ⟨rfl, rfl⟩

/-- Staging goes on beside the frame: no uplink comes of it, and no activation begins. -/
theorem stagingFrame_keeps (s : State) : (unheard s → unheard (stagingFrame s)) ∧ (stagingFrame s).upd.actFrame = s.upd.actFrame ∧ (stagingFrame s).upd.beginFrame = s.upd.beginFrame := by
  unfold stagingFrame
  extract_lets s1
  have h1 : unheard s → unheard s1 := id
  have hact : s1.upd.actFrame = s.upd.actFrame := rfl
  have hbegin : s1.upd.beginFrame = s.upd.beginFrame := rfl
  clear_value s1
  split
  · exact ⟨h1, hact, hbegin⟩
  · have hstep : ∀ (j : Nat) (s : State), (unheard s → unheard (if ((s.forg j).staging != 0 || decide (s.parN .updForagerTries ≤ (s.forg j).stageTries)) = true then s
        else if holdsImage s (forgPart s).1 j then judgeStaged (s.updForg j fun f => { f with staging := 2 })
        else openDown (j / 36) (j % 36) (imageBytesLen s) (s.updForg j fun f => { f with staging := 1 }))) := by
      intro j s hs
      split
      · exact hs
      · split
        · exact unheard_of_keepsBut (ps := [.recorder, .upd]) (unheard_updForg (f := fun f => { f with staging := 2 }) (fun _ => ⟨rfl, rfl⟩) j hs) (by simp +decide) (by decide)
        · exact unheard_of_keepsBut (ps := [.links]) (unheard_updForg (f := fun f => { f with staging := 1 }) (fun _ => ⟨rfl, rfl⟩) j hs) (by simp +decide) (by decide)
    refine ⟨fun h => unheard_forEach hstep _ (h1 h), ?_, ?_⟩
    · refine (forEach_keeps (read := fun s => s.upd.actFrame) (fun j s => ?_) _ s1).trans hact
      split
      · rfl
      · split
        · exact (judgeStaged_frames _).1
        · rfl
    · refine (forEach_keeps (read := fun s => s.upd.beginFrame) (fun j s => ?_) _ s1).trans hbegin
      split
      · rfl
      · split
        · exact (judgeStaged_frames _).2
        · rfl

/-- With no activation under way its sequence does nothing at the boundary. -/
theorem activationFrame_idle {s : State} (hact : s.upd.actFrame = none) (hbegin : s.upd.beginFrame = none) : activationFrame s = s := by
  simp [activationFrame, hact, hbegin]

/-! ### The latched intervals -/

/-- The interval latched for the running frame and for the next, of every string. -/
def latches (s : State) : List (Option (Int × Int × Nat) × Option (Int × Int × Nat)) := s.est.map fun e => (e.latch, e.latchNext)

theorem latches_of_keepsBut {ps : List Piece} {s t : State} (h : keepsBut ps s t) (hp : Piece.est ∉ ps) : latches t = latches s := by
  have hest : t.est = s.est := h .est hp
  unfold latches
  rw [hest]

theorem map_updAt_of_same {α β : Type} {g : α → β} {f : α → α} (hf : ∀ x, g (f x) = g x) (l : List α) (n : Nat) : (updAt l n f).map g = l.map g := by
  refine List.ext_getElem? fun i => ?_
  rw [List.getElem?_map, List.getElem?_map, updAt, List.getElem?_modify]
  cases l[i]? with
  | none => rfl
  | some x =>
    show some (g (if n = i then f x else x)) = some (g x)
    split
    · exact congrArg some (hf x)
    · rfl

theorem latches_updEst {f : EstStr → EstStr} (hf : ∀ e, (f e).latch = e.latch ∧ (f e).latchNext = e.latchNext) (n : Nat) (s : State) : latches (s.updEst n f) = latches s :=
  map_updAt_of_same (g := fun e : EstStr => (e.latch, e.latchNext)) (fun e => Prod.ext (hf e).1 (hf e).2) s.est n

theorem latches_stage (n : Nat) (s : State) : latches (stage n s) = latches s := by
  unfold stage
  extract_lets p old dead wasOn g
  unfold noteOutputs
  refine (latches_updEst ?_ _ _).trans rfl
  exact fun _ => ⟨rfl, rfl⟩

theorem latches_reqCtr (n : Nat) (f : DispStr → DispStr) (s : State) : latches (reqCtr n f s) = latches s := by
  unfold reqCtr
  rw [latches_of_keepsBut (ps := [.recorder]) (s := stage n (s.updDisp n f)) (by simp +decide) (by decide), latches_stage]
  rfl

theorem latches_permitLoss (n : Nat) (s : State) : latches (permitLoss n s) = latches s := by
  unfold permitLoss
  split
  · rfl
  · extract_lets s0 d s1 off held low p
    have h1 : latches s1 = latches s := latches_of_keepsBut (ps := [.disp]) (by simp +decide [s0, s1]) (by decide)
    clear_value s1
    split
    · exact (latches_reqCtr ..).trans h1
    · exact h1

theorem latches_ask (n : Nat) (f : DispStr → DispStr) {s u : State} (h : latches u = latches s) : latches (reqCtr n f u) = latches s := (latches_reqCtr ..).trans h

/-- What asks for no contactor touches no latched interval. -/
theorem latches_beside {ps : List Piece} {s u v : State} (h : latches u = latches s) (hk : keepsBut ps u v) (hp : Piece.est ∉ ps) : latches v = latches s := (latches_of_keepsBut hk hp).trans h

theorem latches_ite {c : Prop} [Decidable c] {a b s : State} (ha : latches a = latches s) (hb : latches b = latches s) : latches (if c then a else b) = latches s := by
  split
  · exact ha
  · exact hb

theorem latches_connectStep (n : Nat) (s : State) : latches (connectStep n s) = latches s := by
  unfold connectStep
  extract_lets now u d ask p slow v d'
  have hu : latches u = latches s := latches_beside (ps := [.disp]) (latches_permitLoss n s) (by simp +decide [u]) (by decide)
  have hask : ∀ f v, latches v = latches s → latches (ask f v) = latches s := fun f v hv => latches_ask n _ hv
  clear_value ask u
  have hkeep : ∀ c : Bool, ∀ f, latches (if c then ask f u else u) = latches s := fun c f => latches_ite (hask f u hu) hu
  refine latches_ite (hask _ _ hu) (latches_ite (latches_beside (ps := [.disp]) hu (by simp +decide) (by decide)) (latches_ite (hkeep ..) (latches_ite (hkeep ..)
    (latches_ite (hkeep ..) (latches_ite ?_ (latches_ite ?_ (latches_ite ?_ ?_)))))))
  · split
    · exact latches_ite (hask _ _ hu) hu
    · exact hu
  · exact latches_ite (latches_beside (ps := [.disp]) hu (by simp +decide) (by decide)) hu
  · exact latches_ite (latches_beside (ps := [.disp, .recorder]) hu (by simp +decide) (by decide)) hu
  have hv : latches v = latches s := latches_beside (ps := [.disp, .recorder]) hu (by simp +decide [v]) (by decide)
  clear_value v
  have hopen : latches (setOpen n v) = latches s := latches_beside (ps := [.disp, .recorder]) hv (by simp +decide) (by decide)
  split
  · exact hask _ _ hv
  · exact latches_ite (hask _ _ hv) hv
  · exact latches_ite (hask _ _ hv) hv
  · exact latches_ite hopen (latches_ite (latches_beside (ps := [.disp]) hv (by simp +decide) (by decide)) hv)
  · exact latches_ite (latches_beside (ps := [.disp]) hv (by simp +decide) (by decide)) hv
  · exact latches_ite (hask _ _ hv) hv
  · exact latches_ite (hask _ _ hv) hv
  · exact latches_ite (latches_beside (ps := [.recorder]) hopen (by simp +decide) (by decide)) hv
  · exact latches_ite (latches_beside (ps := [.recorder]) hopen (by simp +decide) (by decide)) hv
  · exact hv

theorem connectFrame_latches (s : State) : latches (connectFrame s) = latches s := by
  unfold connectFrame
  exact latches_beside (ps := [.reg]) (forEach_keeps (read := latches) latches_connectStep (List.range 4) s) (by simp +decide) (by decide)

/-! ### The tables of dispatch -/

/-- The tables in force and those in the shadow. -/
def tables (s : State) : RegTables × Option RegTables := (s.reg.act, s.reg.shadow)

theorem tables_of_keepsBut {ps : List Piece} {s t : State} (h : keepsBut ps s t) (hp : Piece.reg ∉ ps) : tables t = tables s := by
  have hreg : t.reg = s.reg := h .reg hp
  unfold tables
  rw [hreg]

theorem tables_beside {ps : List Piece} {s u v : State} (h : tables u = tables s) (hk : keepsBut ps u v) (hp : Piece.reg ∉ ps) : tables v = tables s := (tables_of_keepsBut hk hp).trans h

theorem tables_updLane (k : Nat) (f : Lane → Lane) (s : State) : tables (s.updLane k f) = tables s := rfl

theorem tables_updLoop (n : Nat) (f : Loop → Loop) (s : State) : tables (s.updLoop n f) = tables s := rfl

theorem tables_newSets (old c : Cfg) (n : Nat) (s : State) : tables (applyCommit.newSets old c n s) = tables s := by
  unfold applyCommit.newSets
  extract_lets
  split
  · rfl
  · rfl

theorem applyCommit_keeps (s : State) : tables (applyCommit s) = tables s ∧ (applyCommit s).boot.phase = s.boot.phase := by
  unfold applyCommit
  split
  · exact ⟨rfl, rfl⟩
  next c _ =>
    extract_lets old keys ps run s1 s2 s3
    have hphase : s1.boot.phase = s.boot.phase := rfl
    have h1 : tables s1 = tables s := rfl
    clear_value s1
    have h2 : keepsBut [.comb] s1 s2 := by simp +decide [s2]
    have h3 : tables s3 = tables s2 := forEach_keeps (read := tables) (fun n s => tables_newSets old c n s) (List.range 4) s2
    have hb3 : keepsBut [.reg] s2 s3 := (keepsBut_forEach_iff (fun n s => by simp +decide) _ _ _).2 (keepsBut_refl _ _)
    clear_value s3
    have h4 : keepsBut [.links, .tagCtr, .forgs, .therm, .recorder] s3 (forEach (List.range 144) judgeThr (applyCommit.loadRoutes true (sensorCommit old.params s3))) := by simp +decide
    have hboot : (forEach (List.range 144) judgeThr (applyCommit.loadRoutes true (sensorCommit old.params s3))).boot = s1.boot :=
      (h4 .boot (by decide)).trans ((hb3 .boot (by decide)).trans (h2 .boot (by decide)))
    refine ⟨(tables_of_keepsBut h4 (by decide)).trans (h3.trans ((tables_of_keepsBut h2 (by decide)).trans h1)), ?_⟩
    rw [hboot, hphase]

theorem tables_requalify (k : Nat) (s : State) : tables (requalify k s) = tables s := by
  unfold requalify
  split
  next n _ =>
    extract_lets s1
    exact tables_beside (ps := [.recorder]) (u := s1.updLoop n fun l => { l with st := .off, lane := some k, waitConn := true }) rfl (by simp +decide) (by decide)
  · exact tables_beside (ps := [.recorder]) (u := s.updLane k fun l => { l with st := 2, string := none, passes := 0 }) rfl (by simp +decide) (by decide)

theorem tables_laneSlices (fails : List (Nat × Nat)) (s : State) : tables (laneSlices fails s) = tables s := by
  have hslice : ∀ a b c d s, tables (sliceOutcome a b c d s) = tables s := fun a b c d s => tables_of_keepsBut (ps := [.recorder, .bist]) (by simp +decide) (by decide)
  unfold laneSlices
  refine forEach_keeps (read := tables) (fun k s => ?_) (List.range 5) s
  dsimp only
  split
  · rfl
  · split
    · exact hslice ..
    · split
      next d _ =>
        split
        · exact tables_beside (ps := [.recorder]) (u := failLane k (sliceOutcome (0x40 + k) k 1 d s)) (hslice (0x40 + k) k 1 d s) (by simp +decide) (by decide)
        · exact hslice (0x40 + k) k 1 d s
      · split
        · exact hslice ..
        · split
          · exact (tables_requalify ..).trans (hslice (64 + k) k 0 0 s)
          · exact hslice ..

theorem tables_spareFrame (r : Nat) (s : State) : tables (spareFrame r s) = tables s := by
  have hend : tables (if r % 20 == 0 then s.modReg fun x => { x with windowEnded := false } else s) = tables s := by split <;> rfl
  unfold spareFrame
  extract_lets u n runs
  have hu : tables u = tables s := hend
  clear_value u
  split
  · exact hu
  · split
    · exact hu
    · exact hu

theorem tables_regulatorFrame (late : Bool) (s : State) : tables (regulatorFrame late s) = tables s := by
  unfold regulatorFrame
  extract_lets on s0 s1
  have h0 : tables s0 = tables s := tables_of_keepsBut (ps := [.recorder]) (by simp +decide [s0]) (by decide)
  have h1 : tables s1 = tables s0 := by
    refine forEach_keeps (read := tables) (fun n s => ?_) (List.range 4) s0
    dsimp only
    exact tables_of_keepsBut (ps := [.recorder]) (s := s) (t := if 500 ≤ (s.loop n).validRun then s.clear 0x4009 n else s) (by simp +decide) (by decide)
  exact (tables_spareFrame ..).trans (h1.trans h0)

theorem tables_connectFrame (s : State) : tables (connectFrame s) = tables s := by
  have hsteps := tables_of_keepsBut (ps := [.est, .disp, .guard, .recorder]) (s := s) (t := forEach (List.range 4) connectStep s) (by simp +decide) (by decide)
  unfold connectFrame
  generalize forEach (List.range 4) connectStep s = u at *
  exact hsteps

theorem tables_enterMode (m : Mode) (o : Owner) (s : State) : tables (enterMode m o s) = tables s := by
  unfold enterMode
  extract_lets old s0 s1 s2 s3
  split
  · rfl
  · have h2 : tables s2 = tables s := tables_of_keepsBut (ps := [.boot, .disp, .recorder]) (by simp +decide [s0, s1, s2]) (by decide)
    have h3 : tables s3 = tables s := by
      unfold s3
      split
      · exact h2
      · exact h2
    clear_value s3
    split
    · exact tables_beside (ps := [.disp, .surv, .learned, .recorder]) h3 (by simp +decide) (by decide)
    · exact tables_beside (ps := [.disp, .prog, .recorder]) h3 (by simp +decide) (by decide)
    · exact h3

theorem tables_modeFrame (s : State) : tables (modeFrame s) = tables s := by
  unfold modeFrame
  extract_lets pend drop due s1
  have hdrop : tables (drop s) = tables s := tables_of_keepsBut (ps := [.boot, .recorder]) (by simp +decide [drop]) (by decide)
  clear_value drop
  split
  · split
    · split
      · exact tables_enterMode ..
      · rfl
    · rfl
  · split
    · exact (tables_enterMode ..).trans hdrop
    · exact hdrop
  · split
    · exact (tables_enterMode ..).trans hdrop
    · split
      · split
        · exact (tables_enterMode ..).trans rfl
        · rfl
      · rfl

theorem noteRefs_kept (x : RegTables) (s : State) : keepsBut [.recorder] s (noteRefs x s) := by simp +decide

theorem phase_of_keepsBut {ps : List Piece} {s t : State} (h : keepsBut ps s t) (hp : Piece.boot ∉ ps) : t.boot.phase = s.boot.phase := congrArg BootState.phase (h .boot hp)

theorem freeEntries_phase (s : State) : (freeEntries s).boot.phase = s.boot.phase := by
  have hfree : keepsBut [.forgs, .cells, .surv, .learned, .recorder] s (forEach ((List.range 144).filter fun j => (s.forg j).release.isSome) (fun j s =>
      let cells := (s.forg j).release == some true
      let s1 := s.updForg j fun f => { f with uid := none, diag := none, diagAt := none, fw := none, diagDue := false, release := none, provisional := false, broken := List.replicate 5 false, staging := 0, stageTries := 0 }
      if cells then (resetCells j s1).modRecorder fun r => { r with cellClear := j :: r.cellClear } else s1) s) :=
    (keepsBut_forEach_iff (fun j s => by simp +decide) _ _ _).2 (keepsBut_refl _ _)
  have hphase := phase_of_keepsBut hfree (by decide)
  unfold freeEntries
  extract_lets js u
  split
  · exact hphase
  · exact hphase

theorem newNetKey_phase (n : Nat) (s : State) : (newNetKey n s).2.boot.phase = s.boot.phase := by
  unfold newNetKey
  extract_lets r k
  have hdraw : keepsBut [.freeCtr] s r.2 := by simp +decide [r]
  have hphase := phase_of_keepsBut hdraw (by decide)
  exact hphase

theorem acceptJoin_phase (n : Nat) (q : JoinReq) (s : State) : (acceptJoin n q s).boot.phase = s.boot.phase := by
  unfold acceptJoin
  extract_lets j r s1 keep s2
  show s1.boot.phase = _
  unfold s1
  split
  · rfl
  · exact newNetKey_phase n s

theorem joinDecision_phase (n : Nat) (s : State) : (joinDecision n s).boot.phase = s.boot.phase := by
  unfold joinDecision
  extract_lets u
  have hu : u.boot.phase = s.boot.phase := rfl
  clear_value u
  split
  · exact hu
  next q rest _ =>
    split
    · extract_lets r u1 obj u2
      split
      · exact (phase_of_keepsBut (ps := [.links, .tagCtr]) (by simp +decide) (by decide)).trans ((acceptJoin_phase n q u1).trans hu)
      · have h2 : u2.boot.phase = s.boot.phase := hu
        split
        · exact h2
        · exact h2
    · exact hu

/-- The tables that dispatch handed over take force, or stay in the shadow when the control path came late (R22, R45). -/
theorem swapFrame_act (late : Bool) (s : State) : (late = true → (swapFrame late s).reg.act = s.reg.act) ∧
    (late = false → s.running = true → ∀ x, s.reg.shadow = some x → (swapFrame late s).reg.act = x) := by
  refine ⟨?_, ?_⟩
  · rintro rfl
    have hlate : tables (swapFrame true s) = tables s :=
      tables_beside (ps := [.boot, .recorder, .pwr, .links]) (u := s.modReg fun r => { r with swapLate := r.shadow.isSome }) rfl (by simp +decide [swapFrame]) (by decide)
    exact congrArg Prod.fst hlate
  · rintro rfl hrun x hx
    unfold swapFrame
    rw [if_neg (by decide)]
    extract_lets s1
    have hwrites : keepsBut [.recorder, .boot] s (frameWrites s) := by simp +decide
    have hphase1 : (frameWrites s).boot.phase = s.boot.phase := by
      unfold frameWrites
      extract_lets r due u
      split
      · rfl
      · rfl
    obtain ⟨htab, hphase⟩ := applyCommit_keeps (frameWrites s)
    have hrest : keepsBut [.forgs, .cells, .surv, .learned, .recorder, .boot, .links, .tagCtr, .freeCtr] (applyCommit (frameWrites s)) s1 := by simp +decide [s1]
    have htabs : tables s1 = tables s := (tables_of_keepsBut hrest (by decide)).trans (htab.trans (tables_of_keepsBut hwrites (by decide)))
    have hphase2 : s1.boot.phase = s.boot.phase := (forEach_keeps (read := fun s => s.boot.phase) joinDecision_phase _ _).trans ((freeEntries_phase _).trans (hphase.trans hphase1))
    have hrun1 : s1.running = true := by
      unfold State.running at hrun ⊢
      rw [hphase2]
      exact hrun
    have hshadow : s1.reg.shadow = some x := (congrArg Prod.snd htabs).trans hx
    rw [if_pos hrun1]
    unfold swapTables
    rw [hshadow]
    rfl

/-! ### What holds on through the work of a frame -/

/-- The work of a frame that leaves its time, its latched intervals, the tables in force, the silence of its uplinks and an idle activation as they are. -/
structure holdsOn (s t : State) : Prop where
  time : beat t = beat s
  latched : latches t = latches s
  act : t.reg.act = s.reg.act
  eval : t.core.evalDone = s.core.evalDone
  silent : unheard s → unheard t
  update : t.upd.actFrame = s.upd.actFrame ∧ t.upd.beginFrame = s.upd.beginFrame

theorem holdsOn.trans {s t u : State} (h : holdsOn s t) (h' : holdsOn t u) : holdsOn s u :=
  ⟨h'.time.trans h.time, h'.latched.trans h.latched, h'.act.trans h.act, h'.eval.trans h.eval, fun hs => h'.silent (h.silent hs),
    h'.update.1.trans h.update.1, h'.update.2.trans h.update.2⟩

/-- Of the parts that count, the work keeps each or what counts of it. -/
theorem holdsOn_of_keepsBut {ps : List Piece} {s t : State} (hk : keepsBut ps s t) (htime : Piece.time ∉ ps ∨ beat t = beat s) (hest : Piece.est ∉ ps ∨ latches t = latches s)
    (hreg : Piece.reg ∉ ps ∨ tables t = tables s) (hcore : Piece.core ∉ ps ∨ t.core.evalDone = s.core.evalDone) (hforgs : Piece.forgs ∉ ps ∨ (unheard s → unheard t))
    (hupd : Piece.upd ∉ ps ∨ t.upd.actFrame = s.upd.actFrame ∧ t.upd.beginFrame = s.upd.beginFrame) : holdsOn s t where
  time := htime.elim (beat_of_keepsBut hk) id
  latched := hest.elim (latches_of_keepsBut hk) id
  act := congrArg Prod.fst (hreg.elim (tables_of_keepsBut hk) id)
  eval := hcore.elim (fun h => by have hc : t.core = s.core := hk .core h; rw [hc]) id
  silent := hforgs.elim (fun h hs => unheard_of_keepsBut hs hk h) id
  update := hupd.elim (fun h => by have hu : t.upd = s.upd := hk .upd h; rw [hu]; exact ⟨rfl, rfl⟩) id

/-- Work on other parts only. -/
theorem holdsOn_beside {ps : List Piece} {s t : State} (hk : keepsBut ps s t) (h : ∀ p ∈ [Piece.time, .est, .reg, .core, .forgs, .upd], p ∉ ps) : holdsOn s t :=
  holdsOn_of_keepsBut hk (.inl (h _ (by decide))) (.inl (h _ (by decide))) (.inl (h _ (by decide))) (.inl (h _ (by decide))) (.inl (h _ (by decide))) (.inl (h _ (by decide)))

theorem holdsOn_regulatorFrame (late : Bool) (s : State) : holdsOn s (regulatorFrame late s) :=
  holdsOn_of_keepsBut (ps := [.reg, .recorder]) (by simp +decide) (.inl (by decide)) (.inl (by decide)) (.inr (tables_regulatorFrame late s)) (.inl (by decide)) (.inl (by decide)) (.inl (by decide))

theorem holdsOn_connectFrame (s : State) : holdsOn s (connectFrame s) :=
  holdsOn_of_keepsBut (ps := [.est, .reg, .disp, .guard, .recorder]) (by simp +decide) (.inl (by decide)) (.inr (connectFrame_latches s)) (.inr (tables_connectFrame s)) (.inl (by decide))
    (.inl (by decide)) (.inl (by decide))

theorem holdsOn_surveyFrame (s : State) : holdsOn s (surveyFrame s) :=
  holdsOn_of_keepsBut (ps := [.links, .tagCtr, .forgs, .cells, .surv, .learned, .recorder]) (by simp +decide) (.inl (by decide)) (.inl (by decide)) (.inl (by decide)) (.inl (by decide))
    (.inr unheard_surveyFrame) (.inl (by decide))

theorem holdsOn_stagingFrame (s : State) : holdsOn s (stagingFrame s) :=
  holdsOn_of_keepsBut (ps := [.links, .forgs, .recorder, .upd]) (by simp +decide) (.inl (by decide)) (.inl (by decide)) (.inl (by decide)) (.inl (by decide))
    (.inr (stagingFrame_keeps s).1) (.inr (stagingFrame_keeps s).2)

theorem holdsOn_modeFrame (s : State) : holdsOn s (modeFrame s) :=
  holdsOn_of_keepsBut (ps := [.surv, .learned, .reg, .disp, .prog, .recorder, .boot]) (by simp +decide) (.inl (by decide)) (.inl (by decide)) (.inr (tables_modeFrame s)) (.inl (by decide))
    (.inl (by decide)) (.inl (by decide))

theorem holdsOn_rpdoFrame (s : State) : holdsOn s (rpdoFrame s) := holdsOn_beside (rpdoFrame_kept s) (by decide)

/-- The frame work of a module that runs, with no activation under way. -/
theorem holdsOn_runFrame {late : Bool} {s : State} (hact : s.upd.actFrame = none) (hbegin : s.upd.beginFrame = none) : holdsOn s (runFrame late s) ∧ (runFrame late s).pwr = s.pwr := by
  unfold runFrame
  extract_lets s1 s2
  have h1 : holdsOn s s1 := (holdsOn_beside (ps := [.disp, .recorder]) (t := applySelect s) (by simp +decide) (by decide)).trans ((holdsOn_surveyFrame _).trans (holdsOn_regulatorFrame ..))
  have hk1 : keepsBut [.disp, .links, .tagCtr, .forgs, .cells, .surv, .learned, .reg, .recorder] s s1 := by simp +decide [s1]
  clear_value s1
  have h2 : holdsOn s1 s2 := (holdsOn_beside (ps := [.disp]) (t := reconnectFrame s1) (by simp +decide) (by decide)).trans ((holdsOn_connectFrame _).trans
    ((holdsOn_beside (ps := [.can, .prog]) (t := progFrame (connectFrame (reconnectFrame s1))) (by simp +decide) (by decide)).trans (holdsOn_rpdoFrame _)))
  have hk2 : keepsBut [.disp, .est, .reg, .guard, .recorder, .can, .prog, .time] s1 s2 := by simp +decide [s2]
  clear_value s2
  have h3 : holdsOn s2 (modeFrame (stagingFrame (learnedFrame s2))) := (holdsOn_beside (ps := [.surv, .learned, .recorder]) (t := learnedFrame s2) (by simp +decide) (by decide)).trans
    ((holdsOn_stagingFrame _).trans (holdsOn_modeFrame _))
  have hk3 : keepsBut [.surv, .learned, .recorder, .links, .forgs, .upd, .reg, .disp, .prog, .boot] s2 (modeFrame (stagingFrame (learnedFrame s2))) := by simp +decide
  generalize modeFrame (stagingFrame (learnedFrame s2)) = u at *
  have hall : holdsOn s u := h1.trans (h2.trans h3)
  rw [activationFrame_idle (hall.update.1.trans hact) (hall.update.2.trans hbegin)]
  exact ⟨hall, (hk3 .pwr (by decide)).trans ((hk2 .pwr (by decide)).trans (hk1 .pwr (by decide)))⟩

/-! ### The stages of the boundary -/

/-- The frame as it opens at t (R31). -/
def frameOpened (t : Nat) (late : Bool) (s : State) : State := judgeSync t (openFrame late (judgeHoldover t ((serveHeld s).at_ t)))

theorem frameOpened_facts (t : Nat) (late : Bool) (s : State) : beat (frameOpened t late s) =
    (max s.time.now t, s.time.frame + 1, s.time.sNext, (if late then s.time.sNext else s.time.sShadow), s.time.sShadow, s.time.syncAge + 1, {}) ∧
    keepsBut [.time, .host, .out, .recorder] s (frameOpened t late s) := by
  have hserved : keepsBut [.host, .out] s (serveHeld s) := by simp +decide
  have htime : (serveHeld s).time = s.time := hserved .time (by decide)
  have hbeat : beat (judgeHoldover t ((serveHeld s).at_ t)) = (max s.time.now t, s.time.frame, s.time.sCur, s.time.sNext, s.time.sShadow, s.time.syncAge, s.time.pulse) := by
    rw [beat_judgeHoldover, ← htime]
    rfl
  refine ⟨?_, by simp +decide [frameOpened]⟩
  unfold frameOpened
  rw [beat_judgeSync, beat_openFrame]
  generalize judgeHoldover t ((serveHeld s).at_ t) = u at *
  simp only [beat, Prod.mk.injEq] at hbeat
  obtain ⟨hnow, hframe, -, hnext, hshadow, hage, -⟩ := hbeat
  rw [hnow, hframe, hnext, hshadow, hage]

/-- The tables have swapped and the links have their new frame (R22, R102). -/
def frameLinked (late : Bool) (s : State) : State := linkFrame (forEach movedUnits armUnit (swapFrame late s))

theorem frameLinked_facts (late : Bool) (s : State) : beat (frameLinked late s) = beat s ∧ latches (frameLinked late s) = latches s ∧ (frameLinked late s).reg.act = (swapFrame late s).reg.act ∧
    unheard (frameLinked late s) ∧ (frameLinked late s).upd = s.upd := by
  have hswap : keepsBut [.comb, .links, .tagCtr, .forgs, .cells, .surv, .learned, .reg, .disp, .therm, .recorder, .boot, .pwr, .freeCtr] s (swapFrame late s) := by simp +decide
  have harm : beat (forEach movedUnits armUnit (swapFrame late s)) = beat (swapFrame late s) := forEach_keeps (read := beat) beat_armUnit movedUnits _
  have harmed : keepsBut [.time] (swapFrame late s) (forEach movedUnits armUnit (swapFrame late s)) :=
    (keepsBut_forEach_iff (fun u s => by simp +decide) _ _ _).2 (keepsBut_refl _ _)
  unfold frameLinked
  generalize forEach movedUnits armUnit (swapFrame late s) = u at *
  have hlink : keepsBut [.links, .tagCtr, .forgs, .recorder] u (linkFrame u) := by simp +decide
  have hreg : (linkFrame u).reg = (swapFrame late s).reg := (hlink .reg (by decide)).trans (harmed .reg (by decide))
  refine ⟨(beat_of_keepsBut hlink (by decide)).trans (harm.trans (beat_of_keepsBut hswap (by decide))),
    (latches_of_keepsBut hlink (by decide)).trans ((latches_of_keepsBut harmed (by decide)).trans (latches_of_keepsBut hswap (by decide))), by rw [hreg], unheard_linkFrame u,
    (hlink .upd (by decide)).trans ((harmed .upd (by decide)).trans (hswap .upd (by decide)))⟩

theorem holdsOn_roundFrame (fails : List (Nat × Nat)) (s : State) : holdsOn s (roundFrame fails s) := by
  unfold roundFrame
  extract_lets s1 s2 s3
  split
  · have h3 : holdsOn s s3 := holdsOn_of_keepsBut (ps := [.recorder, .mem, .core, .host, .links]) (by simp +decide [s1, s2, s3]) (.inl (by decide)) (.inl (by decide)) (.inl (by decide))
      (.inr (by
        have h1 : keepsBut [.recorder, .mem] s s1 := by simp +decide [s1]
        have hc : s1.core = s.core := h1 .core (by decide)
        show s1.core.evalDone = _
        rw [hc])) (.inl (by decide)) (.inl (by decide))
    clear_value s3
    split
    · exact h3.trans (holdsOn_of_keepsBut (ps := [.reg, .recorder, .bist]) (by simp +decide) (.inl (by decide)) (.inl (by decide)) (.inr (tables_laneSlices fails s3)) (.inl (by decide))
        (.inl (by decide)) (.inl (by decide)))
    · exact h3
  · exact holdsOn_beside (keepsBut_refl [] s) (by decide)

/-- The latches of the last sample instant are those of the frame to be updated (R158), and the safety core has an evaluation to do (R315). -/
def frameShifted (s : State) : State := shiftLatches (s.modCore fun c => { c with evalDone := false })

theorem frameShifted_facts (s : State) : beat (frameShifted s) = beat s ∧ latches (frameShifted s) = (latches s).map (fun x => (x.2, none)) ∧ (frameShifted s).reg = s.reg ∧
    (frameShifted s).core.evalDone = false ∧ (unheard s → unheard (frameShifted s)) ∧ (frameShifted s).upd = s.upd := by
  refine ⟨rfl, ?_, rfl, rfl, id, rfl⟩
  show (s.est.map _).map _ = (s.est.map _).map _
  rw [List.map_map, List.map_map]
  rfl

/-- The memories, the round work and the arbiter (R40, R493, R500, R576). -/
def frameGranted (req : List Nat) (lines : List LineFault) (s : State) : State :=
  let s3 := pairFrame (bankFrame (scrubFrame lines s))
  arbiterFrame req (if s3.roundPos == 1 then thermalRound (missedRound s3) else s3)

theorem arbiterFrame_req (req : List Nat) (s : State) : (arbiterFrame req s).pwr.req = req := by
  unfold arbiterFrame
  extract_lets s1 g short s2 s3
  have h3 : s3.pwr = s2.pwr := stand_pwr ..
  split
  · have hraise : (State.raiseRound 0xA043 0 s3).pwr = s3.pwr := by
      have hk : keepsBut [.recorder] s3 (State.raiseRound 0xA043 0 s3) := by simp +decide
      exact hk .pwr (by decide)
    rw [hraise, h3]
    rfl
  · rw [h3]
    rfl

theorem holdsOn_frameGranted (req : List Nat) (lines : List LineFault) (s : State) : holdsOn s (frameGranted req lines s) := by
  unfold frameGranted
  extract_lets s3
  exact holdsOn_beside (ps := [.comb, .links, .learned, .host, .prog, .recorder, .mem, .boot, .bist, .pwr, .freeCtr, .surv, .therm]) (by simp +decide [s3]) (by decide)

/-- The bulk slots, the report of redundancy and the CAN ports. -/
def frameCarried (s : State) : State := canFrame (redundancyFrame (bulkFrame s))

theorem frameCarried_facts (s : State) : holdsOn s (frameCarried s) ∧ (frameCarried s).pwr.req = s.pwr.req := by
  have hbulk : holdsOn s (bulkFrame s) :=
    holdsOn_of_keepsBut (ps := [.links, .forgs]) (by simp +decide) (.inl (by decide)) (.inl (by decide)) (.inl (by decide)) (.inl (by decide)) (.inr unheard_bulkFrame) (.inl (by decide))
  have hred : holdsOn (bulkFrame s) (redundancyFrame (bulkFrame s)) := holdsOn_beside (ps := [.pwr]) (by simp +decide) (by decide)
  have hkept : keepsBut [.links, .forgs] s (bulkFrame s) := by simp +decide
  have hpwr : (bulkFrame s).pwr = s.pwr := hkept .pwr (by decide)
  have hreq : (redundancyFrame (bulkFrame s)).pwr.req = s.pwr.req := by
    rw [← hpwr]
    rfl
  unfold frameCarried
  generalize redundancyFrame (bulkFrame s) = u at *
  have hcan : keepsBut [.time, .can] u (canFrame u) := by simp +decide
  have hpwr' : (canFrame u).pwr = u.pwr := hcan .pwr (by decide)
  refine ⟨hbulk.trans (hred.trans (holdsOn_of_keepsBut hcan (.inr (beat_canFrame u)) (.inl (by decide)) (.inl (by decide)) (.inl (by decide)) (.inl (by decide)) (.inl (by decide)))), ?_⟩
  rw [hpwr', hreq]

/-- The rest of the boundary, in a module that runs and in one still in Start. -/
def frameEnded (late : Bool) (s : State) : State := if s.running then runFrame late s else modeFrame (rpdoFrame s)

theorem frameEnded_facts {late : Bool} {s : State} (hact : s.upd.actFrame = none) (hbegin : s.upd.beginFrame = none) : holdsOn s (frameEnded late s) ∧ (frameEnded late s).pwr = s.pwr := by
  unfold frameEnded
  split
  · exact holdsOn_runFrame hact hbegin
  · have hkept : keepsBut [.surv, .learned, .reg, .disp, .prog, .recorder, .boot] (rpdoFrame s) (modeFrame (rpdoFrame s)) := by simp +decide
    exact ⟨(holdsOn_rpdoFrame s).trans (holdsOn_modeFrame _), (hkept .pwr (by decide)).trans (rpdoFrame_kept s .pwr (by decide))⟩

theorem exec_frameBoundary {t : Nat} {req : List Nat} {lines : List LineFault} {fails : List (Nat × Nat)} {late : Bool} {s : State} (hup : s.up = true) (hon : s.time.framesOn = true)
    (ht : t / 10000000 = s.time.frame + 1) : exec (.frameBoundary t req lines fails late) s =
      .next (frameEnded late (frameCarried (frameGranted req lines (frameShifted (roundFrame fails (frameLinked late (frameOpened t late s))))))) := by
  have hgo : ¬(!s.up || !s.time.framesOn || t / frameNs != s.time.frame + 1) = true := by
    rw [hup, hon, show frameNs = 10000000 from rfl, ht, bne_self_eq_false]
    decide
  show execFrameBoundary t req lines fails late s = _
  unfold execFrameBoundary
  rw [if_neg hgo]
  rfl

theorem latch_of_latches {s r : State} (h : latches r = (latches s).map fun x => (x.2, none)) {n : Nat} (hn : n < s.est.length) :
    (r.estr n).latch = (s.estr n).latchNext ∧ (r.estr n).latchNext = none := by
  have hget := congrArg (·[n]?) h
  simp only [latches, List.getElem?_map, List.getElem?_eq_getElem hn, Option.map_some] at hget
  obtain ⟨e, he, heq⟩ := Option.map_eq_some_iff.1 hget
  simp only [State.estr, List.getD_eq_getElem?_getD, he, List.getElem?_eq_getElem hn, Option.getD_some]
  exact ⟨congrArg Prod.fst heq, congrArg Prod.snd heq⟩

theorem frameBoundary_opens : ∀ t req lines fails late s, s.up = true → s.time.framesOn = true → t / 10000000 = s.time.frame + 1 → s.upd.actFrame = none → s.upd.beginFrame = none →
    Completes (.frameBoundary t req lines fails late) s fun r =>
      r.time.frame = s.time.frame + 1 ∧ r.time.sCur = s.time.sNext ∧ r.time.sNext = (if late then s.time.sNext else s.time.sShadow) ∧
      r.time.syncAge = s.time.syncAge + 1 ∧ r.time.pulse = {} ∧ r.time.now = max s.time.now t ∧ r.core.evalDone = false ∧
      (∀ j, (r.forg j).up = none ∧ (r.forg j).own = false) ∧ (∀ n, n < 4 → s.est.length = 4 → (r.estr n).latch = (s.estr n).latchNext ∧ (r.estr n).latchNext = none) ∧ r.pwr.req = req ∧
      (late = true → r.reg.act = s.reg.act) ∧ (late = false → s.running = true → ∀ x, s.reg.shadow = some x → r.reg.act = x) := by
  intro t req lines fails late s hup hon ht hact hbegin
  have hexec := exec_frameBoundary (req := req) (lines := lines) (fails := fails) (late := late) hup hon ht
  obtain ⟨hbeat, hopened⟩ := frameOpened_facts t late s
  obtain ⟨hact1, hact2⟩ := swapFrame_act late (frameOpened t late s)
  generalize frameOpened t late s = o at *
  have hreg : o.reg = s.reg := hopened .reg (by decide)
  have hest : latches o = latches s := latches_of_keepsBut hopened (by decide)
  have hupd : o.upd = s.upd := hopened .upd (by decide)
  have hrun : o.running = s.running := by
    have hboot : o.boot = s.boot := hopened .boot (by decide)
    unfold State.running
    rw [hboot]
  obtain ⟨hbeat1, hest1, hact3, hsilent, hupd1⟩ := frameLinked_facts late o
  generalize frameLinked late o = l at *
  have hround := holdsOn_roundFrame fails l
  generalize roundFrame fails l = p at *
  obtain ⟨hbeat2, hest2, hreg2, heval, hsilent2, hupd2⟩ := frameShifted_facts p
  generalize frameShifted p = q at *
  have hgranted := holdsOn_frameGranted req lines q
  have hreq : (frameGranted req lines q).pwr.req = req := arbiterFrame_req ..
  generalize frameGranted req lines q = g at *
  obtain ⟨hcarried, hreq1⟩ := frameCarried_facts g
  generalize frameCarried g = c at *
  have hrest := hgranted.trans hcarried
  have hactc : c.upd.actFrame = none := by rw [hrest.update.1, hupd2, hround.update.1, hupd1, hupd, hact]
  have hbeginc : c.upd.beginFrame = none := by rw [hrest.update.2, hupd2, hround.update.2, hupd1, hupd, hbegin]
  obtain ⟨hended, hpwr⟩ := frameEnded_facts (late := late) hactc hbeginc
  generalize frameEnded late c = r at *
  have hend := hrest.trans hended
  have htime : beat r = _ := hend.time.trans (hbeat2.trans (hround.time.trans (hbeat1.trans hbeat)))
  have hlatch : latches r = (latches s).map fun x => (x.2, none) := by rw [hend.latched, hest2, hround.latched, hest1, hest]
  have hactr : r.reg.act = (swapFrame late o).reg.act := by rw [hend.act, hreg2, hround.act, hact3]
  simp only [beat, Prod.mk.injEq] at htime
  obtain ⟨hnow, hframe, hcur, hnext, -, hage, hpulse⟩ := htime
  refine ⟨r, hexec, hframe, hcur, hnext, hage, hpulse, hnow, hend.eval.trans heval, fun j => unheard_forg (hend.silent (hsilent2 (hround.silent hsilent))) j, fun n hn hlen => ?_,
    (congrArg PwrState.req hpwr).trans (hreq1.trans hreq), fun hl => ?_, fun hl hr x hx => ?_⟩
  · exact latch_of_latches hlatch (hlen ▸ hn)
  · rw [hactr, hact1 hl, hreg]
  · rw [hactr]
    exact hact2 hl (hrun.trans hr) x (by rw [hreg]; exact hx)

theorem frameBoundary_elsewhere : ∀ t req lines fails late s, t / 10000000 ≠ s.time.frame + 1 → exec (.frameBoundary t req lines fails late) s = .next s := by
  intro t req lines fails late s ht
  refine if_pos ?_
  rw [show frameNs = 10000000 from rfl, bne_iff_ne.2 ht, Bool.or_true]

/-! ### The sample instant -/

/-- What the sample instant makes of string n: its counts grow by those of the interval, and the interval is latched with the validity of its ticks (R158). -/
structure sampled (s : State) (n : Nat) (net : List Int) (k interval : Nat) (e : EstStr) : Prop where
  countA : e.nA = (s.estr n).nA + net.getD (2 * n) 0
  countB : e.nB = (s.estr n).nB + net.getD (2 * n + 1) 0
  clocks : e.k = (s.estr n).k + k
  latch : e.latchNext = some (chargeCount s (4 * n) e.nA e.k, chargeCount s (4 * n + 1) e.nB e.k, interval)
  flags : e.flagsNext = ((s.estr n).okA, (s.estr n).okB, (s.estr n).gateLow, (s.estr n).ctrOpen)
  fresh : e.okA = true ∧ e.okB = true
  charge : e.qs = (s.estr n).qs

theorem chargeCount_of_boot {s u : State} (h : u.boot = s.boot) (c : Nat) (n : Int) (k : Nat) : chargeCount u c n k = chargeCount s c n k := by
  simp only [chargeCount, parF, State.parN, State.par, h]

theorem sampled_of_boot {s u : State} {n : Nat} {net : List Int} {k interval : Nat} {e : EstStr} (h : sampled u n net k interval e) (hboot : u.boot = s.boot) (hestr : u.estr n = s.estr n) :
    sampled s n net k interval e := by
  obtain ⟨hA, hB, hk, hlatch, hflags, hfresh, hq⟩ := h
  rw [hestr] at hA hB hk hflags hq
  rw [chargeCount_of_boot hboot, chargeCount_of_boot hboot] at hlatch
  exact ⟨hA, hB, hk, hlatch, hflags, hfresh, hq⟩

theorem sampleString_estr {n : Nat} {net : List Int} {k interval : Nat} {ch : List Density} {s : State} (hn : n < s.est.length) :
    sampled s n net k interval ((sampleString n net k ch interval s).estr n) := by
  unfold sampleString
  extract_lets e nA nB kk val s1
  have h1 : sampled s n net k interval (s1.estr n) := by
    unfold s1
    rw [State.estr_updEst, if_pos ⟨rfl, hn⟩]
    exact ⟨rfl, rfl, rfl, rfl, rfl, ⟨rfl, rfl⟩, rfl⟩
  clear_value s1
  split
  · exact h1
  · exact h1

theorem sampleString_others {n m : Nat} (hm : m ≠ n) (net : List Int) (k interval : Nat) (ch : List Density) (s : State) :
    (sampleString m net k ch interval s).estr n = s.estr n ∧ keepsBut [.est, .reg] s (sampleString m net k ch interval s) ∧ (sampleString m net k ch interval s).est.length = s.est.length := by
  refine ⟨?_, by simp +decide, ?_⟩
  all_goals
    unfold sampleString
    extract_lets e nA nB kk val s1
  · have h1 : s1.estr n = s.estr n := by
      unfold s1
      rw [State.estr_updEst, if_neg fun h => hm h.1]
    clear_value s1
    split
    · exact h1
    · exact h1
  · have h1 : s1.est.length = s.est.length := length_updAt ..
    clear_value s1
    split
    · exact h1
    · exact h1

/-- Every string is sampled once. -/
theorem forEach_sampleString {n : Nat} (hn : n < 4) (net : List Int) (k interval : Nat) (ch : List Density) {s : State} (hlen : s.est.length = 4) :
    sampled s n net k interval ((forEach (List.range 4) (fun n s => sampleString n net k ch interval s) s).estr n) := by
  obtain ⟨u, ⟨hestr, hkept, hl⟩, hlast, -, -⟩ := forEach_four (Q := fun s t => t.estr n = s.estr n ∧ keepsBut [.est, .reg] s t ∧ t.est.length = s.est.length)
    (fun s => ⟨rfl, keepsBut_refl _ _, rfl⟩) (fun s t u h1 h2 => ⟨h2.1.trans h1.1, keepsBut_trans h1.2.1 h2.2.1, h2.2.2.trans h1.2.2⟩) hn (f := fun n s => sampleString n net k ch interval s)
    (fun m hm s => sampleString_others hm net k interval ch s) s
  rw [hlast]
  exact sampled_of_boot (sampleString_estr (by omega)) (hkept .boot (by decide)) hestr

/-- The instant has come: compare unit 2 fires, and the frame has had its sample. -/
def instantTaken (t : Nat) (ch : List Density) (s : State) : State := extraValues ch ((fireUnit 2 (s.at_ t)).workDone 0)

theorem instantTaken_facts (t : Nat) (ch : List Density) (s : State) : (instantTaken t ch s).time.frame = s.time.frame ∧ (instantTaken t ch s).time.now = max s.time.now t ∧
    (instantTaken t ch s).workDue 0 = false ∧ keepsBut [.time, .reg] s (instantTaken t ch s) := by
  have hbeat : beat (fireUnit 2 (s.at_ t)) = beat (s.at_ t) := beat_fireUnit ..
  refine ⟨congrArg (fun x => x.2.1) hbeat, congrArg (fun x => x.1) hbeat, ?_, by simp +decide [instantTaken]⟩
  show (!(0 :: (fireUnit 2 (s.at_ t)).time.hadWork).contains 0) = false
  simp

theorem exec_sampleInstant {t : Nat} {net : List Int} {k : Nat} {ch : List Density} {gpio : BitVec 16} {s : State} (hup : s.up = true) (hon : s.time.framesOn = true)
    (hdue : s.workDue 0 = true) (ht : t = s.frameStart + s.time.sCur) : ∃ i, exec (.sampleInstant t net k ch gpio) s =
      .next (holdInstant gpio (forEach (List.range 4) (fun n s => sampleString n net k ch i s) (instantTaken t ch s))) := by
  refine ⟨sampleInterval ((fireUnit 2 (s.at_ t)).workDone 0), if_pos ?_⟩
  rw [hup, hon, hdue, beq_iff_eq.2 ht]
  rfl

theorem sampleInstant_latches : ∀ t net k ch gpio s, s.up = true → s.time.framesOn = true → s.workDue 0 = true → t = s.frameStart + s.time.sCur → s.est.length = 4 →
    Completes (.sampleInstant t net k ch gpio) s fun r =>
      (∀ n, n < 4 →
        (r.estr n).nA = (s.estr n).nA + net.getD (2 * n) 0 ∧ (r.estr n).nB = (s.estr n).nB + net.getD (2 * n + 1) 0 ∧ (r.estr n).k = (s.estr n).k + k ∧
        (∃ i, (r.estr n).latchNext = some (chargeCount s (4 * n) (r.estr n).nA (r.estr n).k, chargeCount s (4 * n + 1) (r.estr n).nB (r.estr n).k, i)) ∧
        (r.estr n).flagsNext = ((s.estr n).okA, (s.estr n).okB, (s.estr n).gateLow, (s.estr n).ctrOpen) ∧ (r.estr n).okA = true ∧ (r.estr n).okB = true ∧
        (r.estr n).qs = (s.estr n).qs) ∧
      r.comb.snapPrev = s.comb.snap ∧ r.comb.published = s.comb.published ∧ r.comb.sampleTimes.head? = some (s.time.frame, max s.time.now t) ∧ r.prog.gpioIn = gpio ∧
      r.workDue 0 = false ∧ r.time.frame = s.time.frame ∧ keepsBut [.time, .est, .reg, .comb, .prog] s r := by
  intro t net k ch gpio s hup hon hdue ht hlen
  obtain ⟨i, hexec⟩ := exec_sampleInstant (net := net) (k := k) (ch := ch) (gpio := gpio) hup hon hdue ht
  obtain ⟨hframe, hnow, hdone, hkept⟩ := instantTaken_facts t ch s
  generalize instantTaken t ch s = u at *
  have hest : u.est = s.est := hkept .est (by decide)
  have hsampled := fun (n : Nat) (hn : n < 4) => forEach_sampleString hn net k i ch (s := u) (by rw [hest, hlen])
  have hrest : keepsBut [.est, .reg] u (forEach (List.range 4) (fun n s => sampleString n net k ch i s) u) :=
    (keepsBut_forEach_iff (fun n s => by simp +decide) _ _ _).2 (keepsBut_refl _ _)
  generalize forEach (List.range 4) (fun n s => sampleString n net k ch i s) u = v at *
  have htime : v.time = u.time := hrest .time (by decide)
  have hcomb : v.comb = s.comb := (hrest .comb (by decide)).trans (hkept .comb (by decide))
  have hheld : keepsBut [.prog, .comb] v (holdInstant gpio v) := by simp +decide
  refine ⟨_, hexec, fun n hn => ?_, ?_, ?_, ?_, rfl, ?_, ?_, keepsBut_trans (keepsBut_mono hkept (by decide)) (keepsBut_trans (keepsBut_mono hrest (by decide)) (keepsBut_mono hheld (by decide)))⟩
  · have hestr : u.estr n = s.estr n := by simp only [State.estr, hest]
    obtain ⟨hA, hB, hk, hlatch, hflags, ⟨hokA, hokB⟩, hq⟩ := sampled_of_boot (hsampled n hn) (hkept .boot (by decide)) hestr
    exact ⟨hA, hB, hk, ⟨i, hlatch⟩, hflags, hokA, hokB, hq⟩
  · show v.comb.snap = _
    rw [hcomb]
  · show v.comb.published = _
    rw [hcomb]
  · show some (v.time.frame, v.time.now) = _
    rw [htime, hframe, hnow]
  · show (!v.time.hadWork.contains 0) = false
    rw [htime]
    exact hdone
  · show v.time.frame = _
    rw [htime, hframe]

/-- Settles O23: what opens, swaps and begins anew at a frame boundary, and what the sample instant latches. -/
theorem frameWork : Obligations.FrameWork :=
  ⟨frameBoundary_opens, frameBoundary_elsewhere, sampleInstant_latches⟩

end Sys2Proof.Machine
end

section
/-!
PROOF. ParameterNames: the dotted name of a key is split into its words again, its indices are read from their digits, and no other parameter's name matches those words.
-/
namespace Sys2Proof.Machine

/-! ### Digits -/

/-- One digit of an index (R408). -/
def readDigit (a : Option Nat) (c : Char) : Option Nat :=
  match a with
  | some n => if decide (48 ≤ c.toNat) && decide (c.toNat ≤ 57) then some (n * 10 + (c.toNat - 48)) else none
  | none => none

theorem readIndex_eq (cs : List Char) : readIndex cs = if cs.isEmpty || (decide (1 < cs.length) && cs.headD '0' == '0') then none else cs.foldl readDigit (some 0) := rfl

theorem toNat_digit {d : Nat} (h : d < 10) : (Char.ofNat (48 + d)).toNat = 48 + d := by
  interval_cases d <;> rfl

theorem readDigit_digit {d : Nat} (h : d < 10) (n : Nat) : readDigit (some n) (Char.ofNat (48 + d)) = some (n * 10 + d) := by
  simp only [readDigit, toNat_digit h]
  rw [if_pos (by simp; omega), Nat.add_sub_cancel_left]

theorem decimalFuel_small (f : Nat) {n : Nat} (h : n < 10) : decimalFuel (f + 1) n = [Char.ofNat (48 + n)] := if_pos h

theorem decimalFuel_large (f : Nat) {n : Nat} (h : ¬n < 10) : decimalFuel (f + 1) n = decimalFuel f (n / 10) ++ [Char.ofNat (48 + n % 10)] := if_neg h

theorem foldl_decimalFuel {f n : Nat} (h : n < 10 ^ (f + 1)) : (decimalFuel (f + 1) n).foldl readDigit (some 0) = some n := by
  induction f generalizing n with
  | zero =>
    rw [decimalFuel_small 0 (by omega), List.foldl_cons, readDigit_digit (by omega)]
    simp
  | succ f ih =>
    by_cases hn : n < 10
    · rw [decimalFuel_small _ hn, List.foldl_cons, readDigit_digit hn]
      simp
    · have hdiv : n / 10 < 10 ^ (f + 1) := Nat.div_lt_of_lt_mul (by rw [← Nat.pow_succ']; exact h)
      rw [decimalFuel_large _ hn, List.foldl_append, ih hdiv, List.foldl_cons, readDigit_digit (by omega)]
      exact congrArg some (by omega)

/-- A number other than 0 has no leading zero. -/
theorem head_decimalFuel {f n : Nat} (h : n < 10 ^ (f + 1)) (hn : n ≠ 0) : (decimalFuel (f + 1) n).head? ≠ some '0' ∧ decimalFuel (f + 1) n ≠ [] := by
  induction f generalizing n with
  | zero =>
    rw [decimalFuel_small 0 (by omega)]
    refine ⟨fun hc => ?_, List.cons_ne_nil _ _⟩
    have hchar := congrArg Char.toNat (Option.some.inj hc)
    rw [toNat_digit (by omega)] at hchar
    have h0 : ('0' : Char).toNat = 48 := rfl
    omega
  | succ f ih =>
    by_cases h10 : n < 10
    · rw [decimalFuel_small _ h10]
      refine ⟨fun hc => ?_, List.cons_ne_nil _ _⟩
      have hchar := congrArg Char.toNat (Option.some.inj hc)
      rw [toNat_digit h10] at hchar
      have h0 : ('0' : Char).toNat = 48 := rfl
      omega
    · have hdiv : n / 10 < 10 ^ (f + 1) := Nat.div_lt_of_lt_mul (by rw [← Nat.pow_succ']; exact h)
      obtain ⟨hhead, hne⟩ := ih hdiv (by omega)
      rw [decimalFuel_large _ h10, List.head?_append_of_ne_nil _ hne]
      exact ⟨hhead, List.append_ne_nil_of_left_ne_nil hne _⟩

theorem mem_decimalFuel {f n : Nat} {c : Char} (h : c ∈ decimalFuel f n) : ∃ d, d < 10 ∧ c = Char.ofNat (48 + d) := by
  induction f generalizing n with
  | zero => exact absurd h List.not_mem_nil
  | succ f ih =>
    by_cases hn : n < 10
    · rw [decimalFuel_small _ hn] at h
      exact ⟨n, hn, List.mem_singleton.1 h⟩
    · rw [decimalFuel_large _ hn] at h
      rcases List.mem_append.1 h with h | h
      · exact ih h
      · exact ⟨n % 10, Nat.mod_lt _ (by decide), List.mem_singleton.1 h⟩

/-- An index is read back from its digits. -/
theorem readIndex_decimal {n : Nat} (h : n < 10 ^ 20) : readIndex (decimal n) = some n := by
  have hfold : (decimal n).foldl readDigit (some 0) = some n := foldl_decimalFuel h
  rw [readIndex_eq, if_neg, hfold]
  by_cases hn : n < 10
  · rw [show decimal n = [Char.ofNat (48 + n)] from decimalFuel_small 19 hn]
    simp
  · obtain ⟨hhead, hne⟩ := head_decimalFuel (f := 19) h (by omega)
    have hhead' : (decimal n).head? ≠ some '0' := hhead
    have hne' : decimal n ≠ [] := hne
    cases hd : decimal n with
    | nil => exact absurd hd hne'
    | cons c cs =>
      rw [hd] at hhead'
      have hc : c ≠ '0' := fun hc => hhead' (congrArg some hc)
      simp [hc]

/-! ### The words of a name -/

/-- What stands for an index in a segment. -/
def indexWord : PSeg → Nat → List Char
  | .lit w, _ => w.toList
  | .idx _, n => decimal n
  | .role, n => roleWord n
  | .port up, n => portWord up n

/-- The bound of the index of a segment. -/
def boundOf : PSeg → Option Nat
  | .lit _ => none
  | .idx b => some b
  | .role => some 4
  | .port _ => some 2

/-- The words of a name, with the indices it takes in order. -/
def wordsOf : List PSeg → List Nat → List (List Char)
  | [], _ => []
  | .lit w :: ss, is => w.toList :: wordsOf ss is
  | s :: ss, is => indexWord s (is.headD 0) :: wordsOf ss (is.drop 1)

/-- One segment of a name written out, as `nameChars` takes them in turn. -/
def writeSeg (acc : List (List Char) × List Nat) (s : PSeg) : List (List Char) × List Nat :=
  match s with
  | .lit w => (acc.1 ++ [w.toList], acc.2)
  | .idx _ => (acc.1 ++ [decimal (acc.2.headD 0)], acc.2.drop 1)
  | .role => (acc.1 ++ [roleWord (acc.2.headD 0)], acc.2.drop 1)
  | .port up => (acc.1 ++ [portWord up (acc.2.headD 0)], acc.2.drop 1)

theorem foldl_writeSeg (segs : List PSeg) (ws : List (List Char)) (is : List Nat) : (segs.foldl writeSeg (ws, is)).1 = ws ++ wordsOf segs is := by
  induction segs generalizing ws is with
  | nil => exact (List.append_nil ws).symm
  | cons s ss ih =>
    rw [List.foldl_cons]
    cases s <;> exact (ih _ _).trans (List.append_assoc ..)

theorem nameChars_eq (k : ParamKey) : nameChars k = List.intercalate ['.'] (wordsOf k.p.desc.segs [k.i, k.j]) :=
  congrArg (List.intercalate ['.']) (foldl_writeSeg k.p.desc.segs [] [k.i, k.j])

/-- A segment as the tables have them: its word is in ASCII without a dot, and no index, role or port reads like it; its bound has at most 20 digits. -/
def plainSeg : PSeg → Bool
  | .lit w => readIndex w.toList == none && !((List.range 4).any fun n => roleWord n == w.toList) && !((List.range 2).any fun n => portWord true n == w.toList || portWord false n == w.toList) &&
    w.toList.all fun c => c != '.' && decide (c.toNat < 256)
  | .idx b => decide (b ≤ 10 ^ 20)
  | _ => true

theorem mem_allPNames (p : PName) : p ∈ allPNames := by
  have hnames : allPNames.map PName.ctorIdx = List.range 308 := by decide +kernel
  have hlt : p.ctorIdx < 308 := by cases p <;> decide
  obtain ⟨q, hq, hidx⟩ := List.mem_map.1 (hnames ▸ List.mem_range.2 hlt)
  have hqp : q = p := by rw [← PName.ofNat_ctorIdx q, ← PName.ofNat_ctorIdx p, hidx]
  exact hqp ▸ hq

theorem desc_plain (p : PName) : ∀ s ∈ p.desc.segs, plainSeg s = true := by
  have hall : (allPNames.all fun p => p.desc.segs.all plainSeg) = true := by decide +kernel
  exact List.all_eq_true.1 (List.all_eq_true.1 hall p (mem_allPNames p))

/-- A name takes at most two indices, and has a word. -/
theorem desc_indices (p : PName) : (p.desc.segs.filterMap boundOf).length ≤ 2 ∧ p.desc.segs ≠ [] := by
  have hall : (allPNames.all fun p => decide ((p.desc.segs.filterMap boundOf).length ≤ 2) && !p.desc.segs.isEmpty) = true := by decide +kernel
  have h := List.all_eq_true.1 hall p (mem_allPNames p)
  simpa using h

/-- A character that the bytes of a name hold, and that does not part its words. -/
def clean (w : List Char) : Prop := ∀ c ∈ w, c ≠ '.' ∧ c.toNat < 256

theorem clean_decimal (n : Nat) : clean (decimal n) := by
  intro c hc
  obtain ⟨d, hd, rfl⟩ := mem_decimalFuel hc
  refine ⟨fun h => ?_, by rw [toNat_digit hd]; omega⟩
  have hchar := congrArg Char.toNat h
  rw [toNat_digit hd] at hchar
  have hdot : ('.' : Char).toNat = 46 := rfl
  omega

theorem clean_of_all {w : List Char} (h : (w.all fun c => c != '.' && decide (c.toNat < 256)) = true) : clean w := by
  intro c hc
  have := List.all_eq_true.1 h c hc
  simpa using this

theorem clean_roleWord {n : Nat} (h : n < 4) : clean (roleWord n) := by
  interval_cases n <;> exact clean_of_all (by decide +kernel)

theorem clean_portWord (up : Bool) {n : Nat} (h : n < 2) : clean (portWord up n) := by
  interval_cases n <;> cases up <;> exact clean_of_all (by decide +kernel)

/-! ### Words and dots -/

theorem splitDots_clean {w : List Char} (h : clean w) : splitDots w = [w] := by
  induction w with
  | nil => rfl
  | cons c cs ih =>
    have hc : (c == '.') = false := beq_eq_false_iff_ne.2 (h c List.mem_cons_self).1
    simp [splitDots, ih fun x hx => h x (List.mem_cons_of_mem _ hx), hc]

theorem splitDots_ne_nil (cs : List Char) : splitDots cs ≠ [] := by
  cases cs with
  | nil => exact List.cons_ne_nil _ _
  | cons c cs =>
    unfold splitDots
    split
    · exact List.cons_ne_nil _ _
    · split <;> exact List.cons_ne_nil _ _

theorem splitDots_dot (cs : List Char) : splitDots ('.' :: cs) = [] :: splitDots cs := by
  rw [splitDots]
  cases h : splitDots cs with
  | nil => exact absurd h (splitDots_ne_nil cs)
  | cons w ws => rfl

theorem splitDots_append {w : List Char} (h : clean w) (cs : List Char) : splitDots (w ++ '.' :: cs) = w :: splitDots cs := by
  induction w with
  | nil => exact splitDots_dot cs
  | cons c w ih =>
    have hc : (c == '.') = false := beq_eq_false_iff_ne.2 (h c List.mem_cons_self).1
    have hw := ih fun x hx => h x (List.mem_cons_of_mem _ hx)
    rw [List.cons_append, splitDots, hw]
    simp [hc]

theorem intercalate_dot (w v : List Char) (vs : List (List Char)) : List.intercalate ['.'] (w :: v :: vs) = w ++ '.' :: List.intercalate ['.'] (v :: vs) := by
  simp [List.intercalate, List.intersperse]

/-- Words joined by dots are split again, and stay in bytes. -/
theorem splitDots_intercalate {ws : List (List Char)} (hne : ws ≠ []) (h : ∀ w ∈ ws, clean w) :
    splitDots (List.intercalate ['.'] ws) = ws ∧ ∀ c ∈ List.intercalate ['.'] ws, c.toNat < 256 := by
  induction ws with
  | nil => exact absurd rfl hne
  | cons w ws ih =>
    have hw := h w List.mem_cons_self
    cases ws with
    | nil =>
      rw [show List.intercalate ['.'] [w] = w by simp [List.intercalate]]
      exact ⟨splitDots_clean hw, fun c hc => (hw c hc).2⟩
    | cons v vs =>
      obtain ⟨hsplit, hbytes⟩ := ih (List.cons_ne_nil _ _) fun x hx => h x (List.mem_cons_of_mem _ hx)
      rw [intercalate_dot]
      refine ⟨by rw [splitDots_append hw, hsplit], fun c hc => ?_⟩
      rcases List.mem_append.1 hc with hc | hc
      · exact (hw c hc).2
      · rcases List.mem_cons.1 hc with rfl | hc
        · decide
        · exact hbytes c hc

/-- The bytes of a name hold its characters. -/
theorem chars_of_bytes {cs : List Char} (h : ∀ c ∈ cs, c.toNat < 256) : (cs.map fun c => BitVec.ofNat 8 c.toNat).map (fun b : Byte => Char.ofNat b.toNat) = cs := by
  rw [List.map_map]
  refine (List.map_congr_left fun c hc => ?_).trans (List.map_id cs)
  show Char.ofNat (BitVec.ofNat 8 c.toNat).toNat = c
  rw [BitVec.toNat_ofNat, Nat.mod_eq_of_lt (h c hc), Char.ofNat_toNat]

/-! ### Words against segments -/

theorem find_roleWord {n : Nat} (h : n < 4) : (List.range 4).find? (fun m => roleWord m == roleWord n) = some n := by
  interval_cases n <;> decide +kernel

theorem find_portWord (up : Bool) {n : Nat} (h : n < 2) : (List.range 2).find? (fun m => portWord up m == portWord up n) = some n := by
  interval_cases n <;> cases up <;> decide +kernel

/-- The words of a name are matched by its segments, with the indices that it took. -/
theorem matchSegs_wordsOf {segs : List PSeg} {is : List Nat} (h : List.Forall₂ (· < ·) is (segs.filterMap boundOf)) (hplain : ∀ s ∈ segs, plainSeg s = true) (rest : List Nat) :
    matchSegs segs (wordsOf segs (is ++ rest)) = some is := by
  induction segs generalizing is with
  | nil =>
    obtain rfl := List.forall₂_nil_right_iff.1 h
    rfl
  | cons s ss ih =>
    have hss : ∀ s ∈ ss, plainSeg s = true := fun x hx => hplain x (List.mem_cons_of_mem _ hx)
    have hs := hplain s List.mem_cons_self
    cases s with
    | lit w =>
      rw [wordsOf, matchSegs, if_pos (beq_self_eq_true _)]
      exact ih h hss
    | idx b =>
      obtain ⟨n, js, hn, hjs, rfl⟩ := List.forall₂_cons_right_iff.1 h
      have hb : b ≤ 10 ^ 20 := of_decide_eq_true hs
      show matchSegs (.idx b :: ss) (decimal n :: wordsOf ss (js ++ rest)) = _
      rw [matchSegs, readIndex_decimal (lt_of_lt_of_le hn hb)]
      dsimp only
      rw [if_pos hn, ih hjs hss]
      rfl
    | role =>
      obtain ⟨n, js, hn, hjs, rfl⟩ := List.forall₂_cons_right_iff.1 h
      show matchSegs (.role :: ss) (roleWord n :: wordsOf ss (js ++ rest)) = _
      rw [matchSegs, find_roleWord hn]
      dsimp only
      rw [ih hjs hss]
      rfl
    | port up =>
      obtain ⟨n, js, hn, hjs, rfl⟩ := List.forall₂_cons_right_iff.1 h
      show matchSegs (.port up :: ss) (portWord up n :: wordsOf ss (js ++ rest)) = _
      rw [matchSegs, find_portWord up hn]
      dsimp only
      rw [ih hjs hss]
      rfl

theorem wordsOf_clean {segs : List PSeg} {is : List Nat} (h : List.Forall₂ (· < ·) is (segs.filterMap boundOf)) (hplain : ∀ s ∈ segs, plainSeg s = true) (rest : List Nat) :
    ∀ w ∈ wordsOf segs (is ++ rest), clean w := by
  induction segs generalizing is with
  | nil => exact fun w hw => absurd hw List.not_mem_nil
  | cons s ss ih =>
    have hss : ∀ s ∈ ss, plainSeg s = true := fun x hx => hplain x (List.mem_cons_of_mem _ hx)
    have hs := hplain s List.mem_cons_self
    intro w hw
    cases s with
    | lit v =>
      rcases List.mem_cons.1 hw with rfl | hw
      · simp only [plainSeg, Bool.and_eq_true] at hs
        exact clean_of_all hs.2
      · exact ih h hss w hw
    | idx b =>
      obtain ⟨n, js, -, hjs, rfl⟩ := List.forall₂_cons_right_iff.1 h
      rcases List.mem_cons.1 hw with rfl | hw
      · exact clean_decimal n
      · exact ih hjs hss w hw
    | role =>
      obtain ⟨n, js, hn, hjs, rfl⟩ := List.forall₂_cons_right_iff.1 h
      rcases List.mem_cons.1 hw with rfl | hw
      · exact clean_roleWord hn
      · exact ih hjs hss w hw
    | port up =>
      obtain ⟨n, js, hn, hjs, rfl⟩ := List.forall₂_cons_right_iff.1 h
      rcases List.mem_cons.1 hw with rfl | hw
      · exact clean_portWord up hn
      · exact ih hjs hss w hw

/-! ### No other name matches -/

/-- The kind of a segment: its word, or that it takes an index, a role or a port. -/
def kindOf : PSeg → PSeg
  | .idx _ => .idx 0
  | s => s

/-- A word that a segment reads. -/
def fits (c : List Char) : PSeg → Prop
  | .lit w => w.toList = c
  | .idx _ => ∃ n, readIndex c = some n
  | .role => ∃ n, n < 4 ∧ roleWord n = c
  | .port up => ∃ n, n < 2 ∧ portWord up n = c

theorem find_some {n m : Nat} {f : Nat → List Char} {c : List Char} (h : (List.range m).find? (fun n => f n == c) = some n) : n < m ∧ f n = c :=
  ⟨List.mem_range.1 (List.mem_of_find?_eq_some h), by simpa using List.find?_some h⟩

/-- Every word that is matched fits its segment, and there is one word to a segment. -/
theorem fits_of_matchSegs {segs : List PSeg} {ws : List (List Char)} {is : List Nat} (h : matchSegs segs ws = some is) : List.Forall₂ fits ws segs := by
  induction segs generalizing ws is with
  | nil =>
    cases ws with
    | nil => exact .nil
    | cons w ws => cases h
  | cons s ss ih =>
    cases ws with
    | nil => cases s <;> cases h
    | cons c cs =>
      cases s with
      | lit w =>
        rw [matchSegs] at h
        split at h
        next hw => exact .cons (beq_iff_eq.1 hw) (ih h)
        next => cases h
      | idx b =>
        rw [matchSegs] at h
        split at h
        next n hn =>
          split at h
          · obtain ⟨js, hjs, -⟩ := Option.map_eq_some_iff.1 h
            exact .cons ⟨n, hn⟩ (ih hjs)
          · cases h
        next => cases h
      | role =>
        rw [matchSegs] at h
        split at h
        next n hn =>
          obtain ⟨js, hjs, -⟩ := Option.map_eq_some_iff.1 h
          exact .cons ⟨n, find_some hn⟩ (ih hjs)
        next => cases h
      | port up =>
        rw [matchSegs] at h
        split at h
        next n hn =>
          obtain ⟨js, hjs, -⟩ := Option.map_eq_some_iff.1 h
          exact .cons ⟨n, find_some hn⟩ (ih hjs)
        next => cases h

theorem readIndex_roleWord {n : Nat} (h : n < 4) : readIndex (roleWord n) = none := by
  interval_cases n <;> decide +kernel

theorem readIndex_portWord (up : Bool) {n : Nat} (h : n < 2) : readIndex (portWord up n) = none := by
  interval_cases n <;> cases up <;> decide +kernel

theorem roleWord_ne_portWord (up : Bool) {n m : Nat} (h : n < 4) (h' : m < 2) : roleWord n ≠ portWord up m := by
  interval_cases n <;> interval_cases m <;> cases up <;> decide +kernel

theorem portWord_ne {n m : Nat} (h : n < 2) (h' : m < 2) : portWord true n ≠ portWord false m := by
  interval_cases n <;> interval_cases m <;> decide +kernel

/-- The word of a segment of the tables fits no index, role or port. -/
theorem kindOf_of_lit {w : String} {s : PSeg} (hw : plainSeg (.lit w) = true) (h : fits w.toList s) : s = .lit w := by
  simp only [plainSeg, Bool.and_eq_true, beq_iff_eq, Bool.not_eq_true', List.any_eq_false, List.mem_range, Bool.or_eq_true, not_or] at hw
  obtain ⟨⟨⟨hidx, hrole⟩, hport⟩, -⟩ := hw
  cases s with
  | lit v => exact congrArg PSeg.lit (String.toList_injective h)
  | idx b =>
    obtain ⟨n, hn⟩ := h
    exact absurd (hidx.symm.trans hn) (by simp)
  | role =>
    obtain ⟨n, hn, he⟩ := h
    exact absurd he (hrole n hn)
  | port up =>
    obtain ⟨n, hn, he⟩ := h
    cases up with
    | true => exact absurd he (hport n hn).1
    | false => exact absurd he (hport n hn).2

/-- Segments of the tables that read one word are of one kind. -/
theorem kindOf_of_fits {c : List Char} {s s' : PSeg} (hs : plainSeg s = true) (hs' : plainSeg s' = true) (h : fits c s) (h' : fits c s') : kindOf s = kindOf s' := by
  cases s with
  | lit w =>
    obtain rfl : w.toList = c := h
    rw [kindOf_of_lit hs h']
  | idx b =>
    obtain ⟨n, hn⟩ := h
    cases s' with
    | lit w =>
      obtain rfl : w.toList = c := h'
      exact absurd (kindOf_of_lit (s := .idx b) hs' ⟨n, hn⟩) (by simp)
    | idx b' => rfl
    | role =>
      obtain ⟨m, hm, rfl⟩ := h'
      exact absurd (hn.symm.trans (readIndex_roleWord hm)) (by simp)
    | port up =>
      obtain ⟨m, hm, rfl⟩ := h'
      exact absurd (hn.symm.trans (readIndex_portWord up hm)) (by simp)
  | role =>
    obtain ⟨n, hn, rfl⟩ := h
    cases s' with
    | lit w => exact absurd (kindOf_of_lit (s := .role) hs' ⟨n, hn, h'.symm⟩) (by simp)
    | idx b =>
      obtain ⟨m, hm⟩ := h'
      exact absurd (hm.symm.trans (readIndex_roleWord hn)) (by simp)
    | role => rfl
    | port up =>
      obtain ⟨m, hm, he⟩ := h'
      exact absurd he.symm (roleWord_ne_portWord up hn hm)
  | port up =>
    obtain ⟨n, hn, rfl⟩ := h
    cases s' with
    | lit w => exact absurd (kindOf_of_lit (s := .port up) hs' ⟨n, hn, h'.symm⟩) (by simp)
    | idx b =>
      obtain ⟨m, hm⟩ := h'
      exact absurd (hm.symm.trans (readIndex_portWord up hn)) (by simp)
    | role =>
      obtain ⟨m, hm, he⟩ := h'
      exact absurd he (roleWord_ne_portWord up hm hn)
    | port up' =>
      obtain ⟨m, hm, he⟩ := h'
      cases up with
      | true =>
        cases up' with
        | true => rfl
        | false => exact absurd he.symm (portWord_ne hn hm)
      | false =>
        cases up' with
        | true => exact absurd he (portWord_ne hm hn)
        | false => rfl

theorem kinds_of_fits {ws : List (List Char)} {ss ss' : List PSeg} (hs : ∀ s ∈ ss, plainSeg s = true) (hs' : ∀ s ∈ ss', plainSeg s = true) (h : List.Forall₂ fits ws ss)
    (h' : List.Forall₂ fits ws ss') : ss.map kindOf = ss'.map kindOf := by
  induction h generalizing ss' with
  | nil =>
    obtain rfl := List.forall₂_nil_left_iff.1 h'
    rfl
  | cons hfit _ ih =>
    obtain ⟨s', ts', hfit', hrest', rfl⟩ := List.forall₂_cons_left_iff.1 h'
    rw [List.map_cons, List.map_cons, kindOf_of_fits (hs _ List.mem_cons_self) (hs' _ List.mem_cons_self) hfit hfit',
      ih (fun s hm => hs s (List.mem_cons_of_mem _ hm)) (fun s hm => hs' s (List.mem_cons_of_mem _ hm)) hrest']

/-- A segment in a code of the names. -/
def segCode (a : Nat) : PSeg → Nat
  | .lit w => w.toList.foldl (fun a c => a * 256 + c.toNat) (a * 256 + 1)
  | .idx _ => a * 256 + 2
  | .role => a * 256 + 3
  | .port up => a * 256 + (if up then 4 else 5)

theorem segCode_kindOf (a : Nat) (s : PSeg) : segCode a (kindOf s) = segCode a s := by
  cases s <;> rfl

/-- Names of the tables with segments of the same kinds are one name. -/
theorem eq_of_kinds {p q : PName} (h : p.desc.segs.map kindOf = q.desc.segs.map kindOf) : p = q := by
  have hcodes : (allPNames.map fun p => p.desc.segs.foldl segCode 0).Nodup := by decide +kernel
  have hkinds : ∀ segs : List PSeg, (segs.map kindOf).foldl segCode 0 = segs.foldl segCode 0 := fun segs => by
    rw [List.foldl_map]
    exact congrArg (fun f => segs.foldl f 0) (funext₂ segCode_kindOf)
  exact List.inj_on_of_nodup_map hcodes (mem_allPNames p) (mem_allPNames q) ((hkinds _).symm.trans ((congrArg (List.foldl segCode 0) h).trans (hkinds _)))

/-! ### A key read back -/

theorem findSome_of_only {α β : Type} {f : α → Option β} {l : List α} {a : α} {b : β} (ha : a ∈ l) (hb : f a = some b) (honly : ∀ x ∈ l, f x = none ∨ x = a) : l.findSome? f = some b := by
  induction l with
  | nil => exact absurd ha List.not_mem_nil
  | cons x l ih =>
    rcases honly x List.mem_cons_self with hx | rfl
    · have hal : a ∈ l := (List.mem_cons.1 ha).resolve_left fun h => by
        rw [h, hx] at hb
        cases hb
      rw [List.findSome?_cons, hx]
      exact ih hal fun y hy => honly y (List.mem_cons_of_mem _ hy)
    · rw [List.findSome?_cons, hb]

/-- The indices that a name takes of a key in range are those of the key. -/
theorem ok_indices {k : ParamKey} (hk : k.ok = true) : ∃ is rest, [k.i, k.j] = is ++ rest ∧ List.Forall₂ (· < ·) is (k.p.desc.segs.filterMap boundOf) ∧ is.getD 0 0 = k.i ∧ is.getD 1 0 = k.j := by
  have hok : (match k.p.desc.segs.filterMap boundOf with
      | [] => k.i == 0 && k.j == 0
      | [a] => decide (k.i < a) && k.j == 0
      | a :: b :: _ => decide (k.i < a) && decide (k.j < b)) = true := (Bool.and_eq_true_iff.1 hk).1
  have hlen := (desc_indices k.p).1
  generalize k.p.desc.segs.filterMap boundOf = bs at *
  match bs with
  | [] =>
    obtain ⟨hi, hj⟩ := Bool.and_eq_true_iff.1 hok
    exact ⟨[], [k.i, k.j], rfl, .nil, (beq_iff_eq.1 hi).symm, (beq_iff_eq.1 hj).symm⟩
  | [a] =>
    obtain ⟨hi, hj⟩ := Bool.and_eq_true_iff.1 hok
    exact ⟨[k.i], [k.j], rfl, .cons (of_decide_eq_true hi) .nil, rfl, (beq_iff_eq.1 hj).symm⟩
  | [a, b] =>
    obtain ⟨hi, hj⟩ := Bool.and_eq_true_iff.1 hok
    exact ⟨[k.i, k.j], [], rfl, .cons (of_decide_eq_true hi) (.cons (of_decide_eq_true hj) .nil), rfl, rfl⟩
  | a :: b :: c :: cs => exact absurd hlen (by simp)

theorem wordsOf_ne_nil {segs : List PSeg} (h : segs ≠ []) (is : List Nat) : wordsOf segs is ≠ [] := by
  cases segs with
  | nil => exact absurd rfl h
  | cons s ss => cases s <;> exact List.cons_ne_nil _ _

/-- Settles O60: the words of a name are matched by its own parameter and by no other. -/
theorem parameterNames : Obligations.ParameterNames := by
  intro k hk
  obtain ⟨is, rest, hlist, hbound, hi, hj⟩ := ok_indices hk
  have hplain := desc_plain k.p
  obtain ⟨hsplit, hbytes⟩ := splitDots_intercalate (wordsOf_ne_nil (desc_indices k.p).2 (is ++ rest)) (wordsOf_clean hbound hplain rest)
  have hmatch := matchSegs_wordsOf hbound hplain rest
  have hwords : splitDots ((nameBytes k).map fun b => Char.ofNat b.toNat) = wordsOf k.p.desc.segs (is ++ rest) := by
    rw [nameBytes, nameChars_eq, hlist, chars_of_bytes hbytes, hsplit]
  have hhit : allPNames.findSome? (fun p => (matchSegs p.desc.segs (wordsOf k.p.desc.segs (is ++ rest))).map fun is => ({ p := p, i := is.getD 0 0, j := is.getD 1 0 } : ParamKey)) = some k := by
    refine findSome_of_only (mem_allPNames k.p) ?_ fun q _ => ?_
    · rw [hmatch, Option.map_some, hi, hj]
    · cases hq : matchSegs q.desc.segs (wordsOf k.p.desc.segs (is ++ rest)) with
      | none => exact .inl rfl
      | some js => exact .inr (eq_of_kinds (kinds_of_fits (desc_plain q) hplain (fits_of_matchSegs hq) (fits_of_matchSegs hmatch)))
  unfold paramOfName
  dsimp only
  rw [hwords, hhit]
  exact if_pos hk

end Sys2Proof.Machine
end

section
/-!
PROOF. What no command undoes: the unique ID of the module, and a GATE_EN that is high only under both permits. Both are followed through the
operations that change boot, pwr, bist or guard. Nearly all of them rewrite other fields; the stage sets GATE_EN under the permits, and a deep
test or a reset, which withdraw permits, end in the stage.
-/
set_option linter.unusedSimpArgs false

namespace Sys2Proof.Machine

/-- Every part of the state but those that the permits and GATE_EN are read from. -/
def notGates : List Piece := .pending :: allBut [.boot, .pwr, .bist, .guard]

/-- t is a later state of the module in s: it has the same unique ID, and a GATE_EN that is high in t has both permits, or was high before and has
them if it had them before. -/
structure gatesFrom (s t : State) : Prop where
  uid : t.boot.uid = s.boot.uid
  gate : ∀ n < 4, gateEn t n = true → permits t n = true ∨ gateEn s n = true ∧ (permits s n = true → permits t n = true)

/-- The unique ID, the permits and GATE_EN are the same in both. -/
structure sameGates (s t : State) : Prop where
  uid : t.boot.uid = s.boot.uid
  gate : ∀ n, gateEn t n = gateEn s n
  permits : ∀ n, permits t n = permits s n

theorem gatesFrom_refl (s : State) : gatesFrom s s := ⟨rfl, fun _ _ h => .inr ⟨h, id⟩⟩

theorem gatesFrom.trans {s t u : State} (h : gatesFrom s t) (h' : gatesFrom t u) : gatesFrom s u where
  uid := h'.uid.trans h.uid
  gate n hn hu := by
    obtain hp | ⟨ht, hkeep⟩ := h'.gate n hn hu
    · exact .inl hp
    obtain hp | ⟨hs, hkeep'⟩ := h.gate n hn ht
    · exact .inl (hkeep hp)
    · exact .inr ⟨hs, hkeep ∘ hkeep'⟩

theorem sameGates.symm {s t : State} (h : sameGates s t) : sameGates t s := ⟨h.uid.symm, fun n => (h.gate n).symm, fun n => (h.permits n).symm⟩

theorem gatesFrom_of_sameGates {s t : State} (h : sameGates s t) : gatesFrom s t := ⟨h.uid, fun n _ ht => .inr ⟨(h.gate n).symm.trans ht, (h.permits n).trans⟩⟩

theorem gatesFrom_iff_of_sameGates {s t : State} (h : sameGates s t) (s₀ : State) : gatesFrom s₀ t ↔ gatesFrom s₀ s :=
  ⟨fun ht => ht.trans (gatesFrom_of_sameGates h.symm), fun hs => hs.trans (gatesFrom_of_sameGates h)⟩

theorem sameGates_of_keepsBut {ps : List Piece} {s t : State} (h : keepsBut ps s t) (hps : ∀ p ∈ [Piece.boot, .pwr, .bist, .guard], p ∉ ps) : sameGates s t := by
  have hboot : t.boot = s.boot := h .boot (hps _ (by decide))
  have hpwr : t.pwr = s.pwr := h .pwr (hps _ (by decide))
  have hbist : t.bist = s.bist := h .bist (hps _ (by decide))
  have hguard : t.guard = s.guard := h .guard (hps _ (by decide))
  exact ⟨congrArg _ hboot, fun n => by simp only [gateEn, hguard], fun n => by simp only [permits, guardPermit, deepGates, hboot, hpwr, hbist, hguard]⟩

@[simp] theorem gatesFrom_follow (s₀ t : State) : (∃ u, gatesFrom s₀ u ∧ keepsBut notGates u t) ↔ gatesFrom s₀ t :=
  ⟨fun ⟨_, hu, hk⟩ => (gatesFrom_iff_of_sameGates (sameGates_of_keepsBut hk (by decide)) s₀).2 hu, fun h => ⟨t, h, keepsBut_refl _ _⟩⟩

theorem gatesFrom_iff_of_follow {s t s₀ : State} (h : (∃ u, gatesFrom s₀ u ∧ keepsBut notGates u t) ↔ gatesFrom s₀ s) : gatesFrom s₀ t ↔ gatesFrom s₀ s :=
  (gatesFrom_follow s₀ t).symm.trans h

@[simp] theorem gatesFrom_modBoot (s₀ : State) (f : BootState → BootState) (s : State) (huid : ∀ b, (f b).uid = b.uid) (hpor : ∀ b, (f b).porN = b.porN) :
    gatesFrom s₀ (s.modBoot f) ↔ ∃ u, gatesFrom s₀ u ∧ keepsBut notGates u s := by
  rw [gatesFrom_follow]
  refine gatesFrom_iff_of_sameGates (s := s) (t := s.modBoot f) ⟨huid _, fun _ => rfl, fun n => ?_⟩ s₀
  simp [permits, guardPermit, deepGates, hpor]

@[simp] theorem gatesFrom_modPwr (s₀ : State) (f : PwrState → PwrState) (s : State) (hvg : ∀ p, (f p).vguard = p.vguard) :
    gatesFrom s₀ (s.modPwr f) ↔ ∃ u, gatesFrom s₀ u ∧ keepsBut notGates u s := by
  rw [gatesFrom_follow]
  refine gatesFrom_iff_of_sameGates (s := s) (t := s.modPwr f) ⟨rfl, fun _ => rfl, fun n => ?_⟩ s₀
  simp [permits, guardPermit, deepGates, hvg]

@[simp] theorem gatesFrom_modBist (s₀ : State) (f : BistState → BistState) (s : State) (hdeep : ∀ b, (f b).deep = b.deep) :
    gatesFrom s₀ (s.modBist f) ↔ ∃ u, gatesFrom s₀ u ∧ keepsBut notGates u s := by
  rw [gatesFrom_follow]
  refine gatesFrom_iff_of_sameGates (s := s) (t := s.modBist f) ⟨rfl, fun _ => rfl, fun n => ?_⟩ s₀
  simp [permits, guardPermit, deepGates, hdeep]

/-- What of the Guard the permits and GATE_EN are read from. -/
def gatesOf (g : Guard) : List Bool × List Bool × List Bool × Bool × List Bool := (g.gate, g.line, g.granted, g.started, g.latch.map GLatch.on)

@[simp] theorem gatesOf_inj {g g' : Guard} : gatesOf g = gatesOf g' ↔
    g.gate = g'.gate ∧ g.line = g'.line ∧ g.granted = g'.granted ∧ g.started = g'.started ∧ g.latch.map GLatch.on = g'.latch.map GLatch.on := by
  simp only [gatesOf, Prod.mk.injEq]

theorem sameGates_of_guard {s t : State} (h : keepsBut [.guard] s t) (hg : gatesOf t.guard = gatesOf s.guard) : sameGates s t := by
  have hboot : t.boot = s.boot := h .boot (by decide)
  have hpwr : t.pwr = s.pwr := h .pwr (by decide)
  have hbist : t.bist = s.bist := h .bist (by decide)
  obtain ⟨hgate, hline, hgranted, hstarted, hlatch⟩ := gatesOf_inj.1 hg
  have hon (n : Nat) : (t.guard.latch.getD n {}).on = (s.guard.latch.getD n {}).on := by
    have hget (l : List GLatch) : (l.map GLatch.on).getD n false = (l.getD n {}).on := List.getD_map l {} GLatch.on
    rw [← hget, ← hget, hlatch]
  exact ⟨congrArg _ hboot, fun n => by simp only [gateEn, hgate],
    fun n => by simp only [permits, guardPermit, deepGates, hboot, hpwr, hbist, hline, hgranted, hstarted, hon]⟩

@[simp] theorem gatesFrom_modGuard (s₀ : State) (f : Guard → Guard) (s : State) (hf : ∀ g, gatesOf (f g) = gatesOf g) :
    gatesFrom s₀ (s.modGuard f) ↔ ∃ u, gatesFrom s₀ u ∧ keepsBut notGates u s := by
  rw [gatesFrom_follow]
  exact gatesFrom_iff_of_sameGates (sameGates_of_guard (by simp +decide) (hf _)) s₀

theorem gatesOf_shiftGuard (t t' : Nat) (g : Guard) : gatesOf (shiftGuard t t' g) = gatesOf g := by
  simp [shiftGuard, Function.comp_def]

@[simp] theorem gatesFrom_forEach {α : Type} (s₀ : State) (l : List α) (f : α → State → State) (s : State)
    (hf : ∀ s₀ a s, (∃ u, gatesFrom s₀ u ∧ keepsBut notGates u (f a s)) ↔ gatesFrom s₀ s) :
    gatesFrom s₀ (forEach l f s) ↔ ∃ u, gatesFrom s₀ u ∧ keepsBut notGates u s := by
  rw [gatesFrom_follow]
  induction l generalizing s with
  | nil => rfl
  | cons a l ih => exact (ih (f a s)).trans ((gatesFrom_follow s₀ _).symm.trans (hf s₀ a s))

@[simp] theorem gatesFrom_tapLoad (s₀ : State) (i : TapInstr) (s : State) : gatesFrom s₀ (tapLoad i s) ↔ ∃ u, gatesFrom s₀ u ∧ keepsBut notGates u s := by
  rw [← gatesFrom_follow, tapLoad]
  simp +decide [-keepsBut_ite, keepsBut_ite_iff, exists_and_ite]

@[simp] theorem gatesFrom_tapUpdate (s₀ : State) (reg : List Bool) (s : State) : gatesFrom s₀ (tapUpdate reg s) ↔ ∃ u, gatesFrom s₀ u ∧ keepsBut notGates u s := by
  rw [← gatesFrom_follow, tapUpdate]
  repeat' split
  all_goals simp +decide [-keepsBut_ite, keepsBut_ite_iff, exists_and_ite]

@[simp] theorem gatesFrom_updJournal (s₀ : State) (f : Journal → Journal) (s : State) : gatesFrom s₀ (updJournal f s) ↔ ∃ u, gatesFrom s₀ u ∧ keepsBut notGates u s := by
  rw [← gatesFrom_follow, updJournal]
  simp +decide [-keepsBut_ite, keepsBut_ite_iff, exists_and_ite]

@[simp] theorem gatesFrom_noteRestart (s₀ : State) (step code : Nat) (s : State) : gatesFrom s₀ (noteRestart step code s) ↔ ∃ u, gatesFrom s₀ u ∧ keepsBut notGates u s := by
  rw [← gatesFrom_follow, noteRestart]
  simp +decide [-keepsBut_ite, keepsBut_ite_iff, exists_and_ite]

@[simp] theorem gatesFrom_stepTime (s₀ : State) (new : Nat) (s : State) : gatesFrom s₀ (stepTime new s) ↔ ∃ u, gatesFrom s₀ u ∧ keepsBut notGates u s := by
  rw [← gatesFrom_follow, stepTime]
  simp +decide [-gatesOf_inj, gatesOf_shiftGuard]

@[simp] theorem gatesFrom_bistRecord (s₀ : State) (slice target outcome detail : Nat) (s : State) : gatesFrom s₀ (bistRecord slice target outcome detail s) ↔ ∃ u, gatesFrom s₀ u ∧ keepsBut notGates u s := by
  rw [← gatesFrom_follow, bistRecord]
  repeat' split
  all_goals simp +decide [-keepsBut_ite, keepsBut_ite_iff, exists_and_ite]

@[simp] theorem gatesFrom_sliceOutcome (s₀ : State) (slice target outcome detail : Nat) (s : State) : gatesFrom s₀ (sliceOutcome slice target outcome detail s) ↔ ∃ u, gatesFrom s₀ u ∧ keepsBut notGates u s := by
  rw [← gatesFrom_follow]
  unfold sliceOutcome
  repeat' split
  all_goals simp +decide [-keepsBut_ite, keepsBut_ite_iff, exists_and_ite]

@[simp] theorem gatesFrom_newNetKey (s₀ : State) (n : Nat) (s : State) : gatesFrom s₀ (newNetKey n s).2 ↔ ∃ u, gatesFrom s₀ u ∧ keepsBut notGates u s := by
  rw [← gatesFrom_follow, newNetKey]
  simp +decide [-keepsBut_ite, keepsBut_ite_iff, exists_and_ite]

@[simp] theorem gatesFrom_renewKey (s₀ : State) (n : Nat) (s : State) : gatesFrom s₀ (renewKey n s) ↔ ∃ u, gatesFrom s₀ u ∧ keepsBut notGates u s := by
  rw [← gatesFrom_follow, renewKey]
  simp +decide [-keepsBut_ite, keepsBut_ite_iff, exists_and_ite]

@[simp] theorem gatesFrom_storeRoster (s₀ : State) (s : State) : gatesFrom s₀ (storeRoster s) ↔ ∃ u, gatesFrom s₀ u ∧ keepsBut notGates u s := by
  rw [← gatesFrom_follow, storeRoster]
  simp +decide [-keepsBut_ite, keepsBut_ite_iff, exists_and_ite]

@[simp] theorem gatesFrom_acceptJoin (s₀ : State) (n : Nat) (q : JoinReq) (s : State) : gatesFrom s₀ (acceptJoin n q s) ↔ ∃ u, gatesFrom s₀ u ∧ keepsBut notGates u s := by
  rw [← gatesFrom_follow, acceptJoin]
  repeat' split
  all_goals simp +decide [-keepsBut_ite, keepsBut_ite_iff, exists_and_ite]

@[simp] theorem gatesFrom_joinDecision (s₀ : State) (n : Nat) (s : State) : gatesFrom s₀ (joinDecision n s) ↔ ∃ u, gatesFrom s₀ u ∧ keepsBut notGates u s := by
  rw [← gatesFrom_follow, joinDecision]
  repeat' split
  all_goals simp +decide [-keepsBut_ite, keepsBut_ite_iff, exists_and_ite]

@[simp] theorem gatesFrom_diagRecord (s₀ : State) (n b : Nat) (bytes : List Byte) (s : State) : gatesFrom s₀ (diagRecord n b bytes s) ↔ ∃ u, gatesFrom s₀ u ∧ keepsBut notGates u s := by
  rw [← gatesFrom_follow, diagRecord]
  repeat' split
  all_goals simp +decide [-keepsBut_ite, keepsBut_ite_iff, exists_and_ite]

@[simp] theorem gatesFrom_overrun (s₀ : State) (cls arg : Nat) (s : State) : gatesFrom s₀ (State.overrun cls arg s) ↔ ∃ u, gatesFrom s₀ u ∧ keepsBut notGates u s := by
  rw [← gatesFrom_follow, State.overrun]
  simp +decide [-keepsBut_ite, keepsBut_ite_iff, exists_and_ite]

@[simp] theorem gatesFrom_judgeCount (s₀ : State) (n p : Nat) (eod eoc : Bool) (s : State) : gatesFrom s₀ (judgeCount n p eod eoc s) ↔ ∃ u, gatesFrom s₀ u ∧ keepsBut notGates u s := by
  rw [← gatesFrom_follow, judgeCount]
  repeat' split
  all_goals simp +decide [-keepsBut_ite, keepsBut_ite_iff, exists_and_ite]

@[simp] theorem gatesFrom_updateString (s₀ : State) (n g : Nat) (late : List Nat) (s : State) : gatesFrom s₀ (updateString n g late s) ↔ ∃ u, gatesFrom s₀ u ∧ keepsBut notGates u s := by
  rw [gatesFrom_follow]
  unfold updateString
  split
  · rfl
  · extract_lets tn tp s1 r s2 i s3
    split
    extract_lets s4 ends rested s5 s6 s7 before s8 s9 s10 s11 s12 s13 s14
    have h3 : gatesFrom s₀ s3 ↔ gatesFrom s₀ s := gatesFrom_iff_of_follow (by simp +decide +zetaDelta)
    clear_value s3
    have h5 : gatesFrom s₀ s5 ↔ gatesFrom s₀ s := gatesFrom_iff_of_follow (by simp +decide [s5, s4, h3])
    clear_value s5 ends
    have h7 : gatesFrom s₀ s7 ↔ gatesFrom s₀ s := gatesFrom_iff_of_follow (by simp +decide [s7, s6, -keepsBut_ite, keepsBut_ite_iff, exists_and_ite, h5])
    clear_value s7
    have h8 : gatesFrom s₀ s8 ↔ gatesFrom s₀ s := by
      simp only [s8]
      split
      · exact gatesFrom_iff_of_follow (by simp +decide [h7])
      · exact h7
    clear_value s8
    have h9 : gatesFrom s₀ s9 ↔ gatesFrom s₀ s := by
      simp only [s9]
      split
      · exact gatesFrom_iff_of_follow (by simp +decide [h8])
      · exact h8
    clear_value s9
    have h12 : gatesFrom s₀ s12 ↔ gatesFrom s₀ s := gatesFrom_iff_of_follow (by simp +decide [s12, s11, s10, h9])
    clear_value s12
    have h13 : gatesFrom s₀ s13 ↔ gatesFrom s₀ s := gatesFrom_iff_of_follow (by simp +decide [s13, h12])
    clear_value s13
    exact gatesFrom_iff_of_follow (by simp +decide [s14, -keepsBut_ite, keepsBut_ite_iff, exists_and_ite, h13])

@[simp] theorem gatesFrom_laneFault (s₀ : State) (n : Nat) (chk : LaneCheck) (s : State) : gatesFrom s₀ (laneFault n chk s) ↔ ∃ u, gatesFrom s₀ u ∧ keepsBut notGates u s := by
  rw [← gatesFrom_follow, laneFault]
  repeat' split
  all_goals simp +decide [-keepsBut_ite, keepsBut_ite_iff, exists_and_ite]

@[simp] theorem gatesFrom_asDue (s₀ : State) (s : State) : gatesFrom s₀ (asDue s) ↔ ∃ u, gatesFrom s₀ u ∧ keepsBut notGates u s := by
  rw [← gatesFrom_follow, asDue]
  simp +decide [-keepsBut_ite, keepsBut_ite_iff, exists_and_ite]

@[simp] theorem gatesFrom_placeSample (s₀ : State) (s : State) : gatesFrom s₀ (placeSample s) ↔ ∃ u, gatesFrom s₀ u ∧ keepsBut notGates u s := by
  rw [← gatesFrom_follow, placeSample]
  repeat' split
  all_goals simp +decide [-keepsBut_ite, keepsBut_ite_iff, exists_and_ite]

@[simp] theorem gatesFrom_readSticky (s₀ : State) (s : State) : gatesFrom s₀ (readSticky s) ↔ ∃ u, gatesFrom s₀ u ∧ keepsBut notGates u s := by
  rw [← gatesFrom_follow, readSticky]
  simp +decide [-keepsBut_ite, keepsBut_ite_iff, exists_and_ite]

@[simp] theorem gatesFrom_storeLatches (s₀ : State) (s : State) : gatesFrom s₀ (storeLatches s) ↔ ∃ u, gatesFrom s₀ u ∧ keepsBut notGates u s := by
  rw [← gatesFrom_follow, storeLatches]
  repeat' split
  all_goals simp +decide [-keepsBut_ite, keepsBut_ite_iff, exists_and_ite]

@[simp] theorem gatesFrom_decideReset (s₀ : State) (s : State) : gatesFrom s₀ (decideReset s) ↔ ∃ u, gatesFrom s₀ u ∧ keepsBut notGates u s := by
  rw [← gatesFrom_follow, decideReset]
  repeat' split
  all_goals simp +decide [-keepsBut_ite, keepsBut_ite_iff, exists_and_ite]

@[simp] theorem gatesFrom_safetyEvaluation (s₀ : State) (selfOk : Bool) (s : State) : gatesFrom s₀ (safetyEvaluation selfOk s) ↔ ∃ u, gatesFrom s₀ u ∧ keepsBut notGates u s := by
  rw [← gatesFrom_follow, safetyEvaluation]
  repeat' split
  all_goals simp +decide [-keepsBut_ite, keepsBut_ite_iff, exists_and_ite]

@[simp] theorem gatesFrom_overrunProg (s₀ : State) (s : State) : gatesFrom s₀ (overrunProg s) ↔ ∃ u, gatesFrom s₀ u ∧ keepsBut notGates u s := by
  rw [← gatesFrom_follow, overrunProg]
  simp +decide [-keepsBut_ite, keepsBut_ite_iff, exists_and_ite]

@[simp] theorem gatesFrom_activateProg (s₀ : State) (version : Nat) (s : State) : gatesFrom s₀ (activateProg version s) ↔ ∃ u, gatesFrom s₀ u ∧ keepsBut notGates u s := by
  rw [← gatesFrom_follow, activateProg]
  repeat' split
  all_goals simp +decide [-keepsBut_ite, keepsBut_ite_iff, exists_and_ite]

@[simp] theorem gatesFrom_modeCmd (s₀ : State) (code : Nat) (s : State) : gatesFrom s₀ (modeCmd code s) ↔ ∃ u, gatesFrom s₀ u ∧ keepsBut notGates u s := by
  rw [← gatesFrom_follow]
  unfold modeCmd
  repeat' split
  all_goals simp +decide [-keepsBut_ite, keepsBut_ite_iff, exists_and_ite]

@[simp] theorem gatesFrom_applyCmd (s₀ : State) (c : ProgCmd) (s : State) : gatesFrom s₀ (applyCmd c s) ↔ ∃ u, gatesFrom s₀ u ∧ keepsBut notGates u s := by
  rw [← gatesFrom_follow]
  unfold applyCmd
  repeat' split
  all_goals simp +decide [-keepsBut_ite, keepsBut_ite_iff, exists_and_ite]

@[simp] theorem gatesFrom_applyCmds (s₀ : State) (s : State) : gatesFrom s₀ (applyCmds s) ↔ ∃ u, gatesFrom s₀ u ∧ keepsBut notGates u s := by
  rw [← gatesFrom_follow, applyCmds]
  simp +decide [-keepsBut_ite, keepsBut_ite_iff, exists_and_ite]

@[simp] theorem gatesFrom_progPublication (s₀ : State) (s : State) : gatesFrom s₀ (progPublication s) ↔ ∃ u, gatesFrom s₀ u ∧ keepsBut notGates u s := by
  rw [← gatesFrom_follow, progPublication]
  repeat' split
  all_goals simp +decide [-keepsBut_ite, keepsBut_ite_iff, exists_and_ite]

@[simp] theorem gatesFrom_abortSlice (s₀ : State) (s : State) : gatesFrom s₀ (abortSlice s) ↔ ∃ u, gatesFrom s₀ u ∧ keepsBut notGates u s := by
  rw [← gatesFrom_follow, abortSlice]
  repeat' split
  all_goals simp +decide [-keepsBut_ite, keepsBut_ite_iff, exists_and_ite]

@[simp] theorem gatesFrom_retireBank (s₀ : State) (b : Nat) (s : State) : gatesFrom s₀ (retireBank b s) ↔ ∃ u, gatesFrom s₀ u ∧ keepsBut notGates u s := by
  rw [← gatesFrom_follow, retireBank]
  repeat' split
  all_goals simp +decide [-keepsBut_ite, keepsBut_ite_iff, exists_and_ite]

@[simp] theorem gatesFrom_countLine (s₀ : State) (addr : Nat) (s : State) : gatesFrom s₀ (countLine addr s) ↔ ∃ u, gatesFrom s₀ u ∧ keepsBut notGates u s := by
  rw [← gatesFrom_follow, countLine]
  repeat' split
  all_goals simp +decide [-keepsBut_ite, keepsBut_ite_iff, exists_and_ite]

@[simp] theorem gatesFrom_mirrorLost (s₀ : State) (m : Mirrored) (s : State) : gatesFrom s₀ (mirrorLost m s) ↔ ∃ u, gatesFrom s₀ u ∧ keepsBut notGates u s := by
  rw [← gatesFrom_follow]
  unfold mirrorLost
  repeat' split
  all_goals simp +decide [-keepsBut_ite, keepsBut_ite_iff, exists_and_ite]

@[simp] theorem gatesFrom_repairMram (s₀ : State) (p : MramPart) (s : State) : gatesFrom s₀ (repairMram p s) ↔ ∃ u, gatesFrom s₀ u ∧ keepsBut notGates u s := by
  rw [← gatesFrom_follow]
  unfold repairMram
  repeat' split
  all_goals simp +decide [-keepsBut_ite, keepsBut_ite_iff, exists_and_ite]

@[simp] theorem gatesFrom_repairContent (s₀ : State) (f : LineFault) (s : State) : gatesFrom s₀ (repairContent f s) ↔ ∃ u, gatesFrom s₀ u ∧ keepsBut notGates u s := by
  rw [← gatesFrom_follow, repairContent]
  repeat' split
  all_goals simp +decide [-keepsBut_ite, keepsBut_ite_iff, exists_and_ite]

@[simp] theorem gatesFrom_repairLine (s₀ : State) (f : LineFault) (s : State) : gatesFrom s₀ (repairLine f s) ↔ ∃ u, gatesFrom s₀ u ∧ keepsBut notGates u s := by
  rw [← gatesFrom_follow, repairLine]
  repeat' split
  all_goals simp +decide [-keepsBut_ite, keepsBut_ite_iff, exists_and_ite]

@[simp] theorem gatesFrom_scrubFrame (s₀ : State) (found : List LineFault) (s : State) : gatesFrom s₀ (scrubFrame found s) ↔ ∃ u, gatesFrom s₀ u ∧ keepsBut notGates u s := by
  rw [← gatesFrom_follow, scrubFrame]
  simp +decide [-keepsBut_ite, keepsBut_ite_iff, exists_and_ite]

@[simp] theorem gatesFrom_advance (s₀ : State) (pos : Nat) (s : State) : gatesFrom s₀ (advance pos s) ↔ ∃ u, gatesFrom s₀ u ∧ keepsBut notGates u s := by
  rw [← gatesFrom_follow, advance]
  repeat' split
  all_goals simp +decide [-keepsBut_ite, keepsBut_ite_iff, exists_and_ite]

@[simp] theorem gatesFrom_endSlice (s₀ : State) (pos : Nat) (pass : Bool) (detail : Nat) (s : State) : gatesFrom s₀ (endSlice pos pass detail s) ↔ ∃ u, gatesFrom s₀ u ∧ keepsBut notGates u s := by
  rw [← gatesFrom_follow, endSlice]
  repeat' split
  all_goals simp +decide [-keepsBut_ite, keepsBut_ite_iff, exists_and_ite]

@[simp] theorem gatesFrom_laneSlices (s₀ : State) (fails : List (Nat × Nat)) (s : State) : gatesFrom s₀ (laneSlices fails s) ↔ ∃ u, gatesFrom s₀ u ∧ keepsBut notGates u s := by
  unfold laneSlices
  refine gatesFrom_forEach s₀ _ _ s fun s₀ k s => ?_
  extract_lets l
  repeat' split
  all_goals simp +decide +zetaDelta [-keepsBut_ite, keepsBut_ite_iff, exists_and_ite]

@[simp] theorem gatesFrom_mramTested (s₀ : State) (s : State) : gatesFrom s₀ (mramTested s) ↔ ∃ u, gatesFrom s₀ u ∧ keepsBut notGates u s := by
  rw [← gatesFrom_follow, mramTested]
  simp +decide [-keepsBut_ite, keepsBut_ite_iff, exists_and_ite]

@[simp] theorem gatesFrom_deepRecord (s₀ : State) (block : Nat) (fails : BitVec 7) (detail : Nat) (s : State) : gatesFrom s₀ (deepRecord block fails detail s) ↔ ∃ u, gatesFrom s₀ u ∧ keepsBut notGates u s := by
  rw [← gatesFrom_follow, deepRecord]
  repeat' split
  all_goals simp +decide [-keepsBut_ite, keepsBut_ite_iff, exists_and_ite]

@[simp] theorem gatesFrom_actAt (s₀ : State) (k : ParamKey) (v : Int) (s : State) : gatesFrom s₀ (actAt k v s) ↔ ∃ u, gatesFrom s₀ u ∧ keepsBut notGates u s := by
  rw [← gatesFrom_follow, actAt]
  repeat' split
  all_goals simp +decide [-keepsBut_ite, keepsBut_ite_iff, exists_and_ite]

@[simp] theorem gatesFrom_writeParam (s₀ : State) (k : ParamKey) (v : Int) (s : State) : gatesFrom s₀ (writeParam k v s) ↔ ∃ u, gatesFrom s₀ u ∧ keepsBut notGates u s := by
  rw [← gatesFrom_follow, writeParam]
  repeat' split
  all_goals simp +decide [-keepsBut_ite, keepsBut_ite_iff, exists_and_ite]

@[simp] theorem gatesFrom_frameWrites (s₀ : State) (s : State) : gatesFrom s₀ (frameWrites s) ↔ ∃ u, gatesFrom s₀ u ∧ keepsBut notGates u s := by
  rw [← gatesFrom_follow, frameWrites]
  repeat' split
  all_goals simp +decide [-keepsBut_ite, keepsBut_ite_iff, exists_and_ite]

@[simp] theorem gatesFrom_discardWrites (s₀ : State) (s : State) : gatesFrom s₀ (discardWrites s) ↔ ∃ u, gatesFrom s₀ u ∧ keepsBut notGates u s := by
  rw [← gatesFrom_follow, discardWrites]
  simp +decide [-keepsBut_ite, keepsBut_ite_iff, exists_and_ite]

@[simp] theorem gatesFrom_markCopy (s₀ : State) (k : Nat) (ok : Bool) (s : State) : gatesFrom s₀ (markCopy k ok s) ↔ ∃ u, gatesFrom s₀ u ∧ keepsBut notGates u s := by
  rw [← gatesFrom_follow, markCopy]
  repeat' split
  all_goals simp +decide [-keepsBut_ite, keepsBut_ite_iff, exists_and_ite]

@[simp] theorem gatesFrom_setCopy (s₀ : State) (b : Bool) (i : CfgImage) (s : State) : gatesFrom s₀ (setCopy b i s) ↔ ∃ u, gatesFrom s₀ u ∧ keepsBut notGates u s := by
  rw [← gatesFrom_follow, setCopy]
  repeat' split
  all_goals simp +decide [-keepsBut_ite, keepsBut_ite_iff, exists_and_ite]

@[simp] theorem gatesFrom_finishCommit (s₀ : State) (ok4 ok6 : Bool) (c : CommitRun) (s : State) : gatesFrom s₀ (finishCommit ok4 ok6 c s).1 ↔ ∃ u, gatesFrom s₀ u ∧ keepsBut notGates u s := by
  rw [← gatesFrom_follow, finishCommit]
  repeat' split
  all_goals simp +decide [-keepsBut_ite, keepsBut_ite_iff, exists_and_ite]

@[simp] theorem gatesFrom_applyCommit (s₀ : State) (s : State) : gatesFrom s₀ (applyCommit s) ↔ ∃ u, gatesFrom s₀ u ∧ keepsBut notGates u s := by
  rw [← gatesFrom_follow, applyCommit]
  repeat' split
  all_goals simp +decide [-keepsBut_ite, keepsBut_ite_iff, exists_and_ite]

@[simp] theorem gatesFrom_arbiterFrame (s₀ : State) (req : List Nat) (s : State) : gatesFrom s₀ (arbiterFrame req s) ↔ ∃ u, gatesFrom s₀ u ∧ keepsBut notGates u s := by
  rw [← gatesFrom_follow, arbiterFrame]
  repeat' split
  all_goals simp +decide [-keepsBut_ite, keepsBut_ite_iff, exists_and_ite]

@[simp] theorem gatesFrom_redundancyFrame (s₀ : State) (s : State) : gatesFrom s₀ (redundancyFrame s) ↔ ∃ u, gatesFrom s₀ u ∧ keepsBut notGates u s := by
  rw [← gatesFrom_follow, redundancyFrame]
  simp +decide [-keepsBut_ite, keepsBut_ite_iff, exists_and_ite]

@[simp] theorem gatesFrom_endCommit (s₀ : State) (ok4 ok6 : Bool) (s : State) : gatesFrom s₀ (endCommit ok4 ok6 s) ↔ ∃ u, gatesFrom s₀ u ∧ keepsBut notGates u s := by
  rw [← gatesFrom_follow, endCommit]
  repeat' split
  all_goals simp +decide [-keepsBut_ite, keepsBut_ite_iff, exists_and_ite]

@[simp] theorem gatesFrom_abandonFlash (s₀ : State) (step6 : Bool) (s : State) : gatesFrom s₀ (abandonFlash step6 s) ↔ ∃ u, gatesFrom s₀ u ∧ keepsBut notGates u s := by
  rw [← gatesFrom_follow, abandonFlash]
  repeat' split
  all_goals simp +decide [-keepsBut_ite, keepsBut_ite_iff, exists_and_ite]

@[simp] theorem gatesFrom_enterMode (s₀ : State) (m : Mode) (o : Owner) (s : State) : gatesFrom s₀ (enterMode m o s) ↔ ∃ u, gatesFrom s₀ u ∧ keepsBut notGates u s := by
  rw [← gatesFrom_follow, enterMode]
  repeat' split
  all_goals simp +decide [-keepsBut_ite, keepsBut_ite_iff, exists_and_ite]

@[simp] theorem gatesFrom_cmdRenewKey (s₀ : State) (strings : Nat) (s : State) : gatesFrom s₀ (cmdRenewKey strings s).1 ↔ ∃ u, gatesFrom s₀ u ∧ keepsBut notGates u s := by
  rw [← gatesFrom_follow, cmdRenewKey]
  repeat' split
  all_goals simp +decide [-keepsBut_ite, keepsBut_ite_iff, exists_and_ite]

@[simp] theorem gatesFrom_freeEntries (s₀ : State) (s : State) : gatesFrom s₀ (freeEntries s) ↔ ∃ u, gatesFrom s₀ u ∧ keepsBut notGates u s := by
  rw [← gatesFrom_follow, freeEntries]
  repeat' split
  all_goals simp +decide [-keepsBut_ite, keepsBut_ite_iff, exists_and_ite]

@[simp] theorem gatesFrom_cmdConfirm (s₀ : State) (gen scv : Nat) (s : State) : gatesFrom s₀ (cmdConfirm gen scv s).1 ↔ ∃ u, gatesFrom s₀ u ∧ keepsBut notGates u s := by
  rw [← gatesFrom_follow, cmdConfirm]
  repeat' split
  all_goals simp +decide [-keepsBut_ite, keepsBut_ite_iff, exists_and_ite]

@[simp] theorem gatesFrom_saveForRestart (s₀ : State) (s : State) : gatesFrom s₀ (saveForRestart s) ↔ ∃ u, gatesFrom s₀ u ∧ keepsBut notGates u s := by
  rw [← gatesFrom_follow, saveForRestart]
  simp +decide [-keepsBut_ite, keepsBut_ite_iff, exists_and_ite]

@[simp] theorem gatesFrom_opParamWrite (s₀ : State) (x : Session) (pay : List Byte) (s : State) : gatesFrom s₀ (opParamWrite x pay s).1 ↔ ∃ u, gatesFrom s₀ u ∧ keepsBut notGates u s := by
  rw [← gatesFrom_follow, opParamWrite]
  repeat' split
  all_goals simp +decide [-keepsBut_ite, keepsBut_ite_iff, exists_and_ite]

@[simp] theorem gatesFrom_opDiscard (s₀ : State) (x : Session) (pay : List Byte) (s : State) : gatesFrom s₀ (opDiscard x pay s).1 ↔ ∃ u, gatesFrom s₀ u ∧ keepsBut notGates u s := by
  rw [← gatesFrom_follow, opDiscard]
  repeat' split
  all_goals simp +decide [-keepsBut_ite, keepsBut_ite_iff, exists_and_ite]

@[simp] theorem gatesFrom_cmdChangeMode (s₀ : State) (code : Nat) (r : Role) (t : Nat) (s : State) :
    gatesFrom s₀ (cmdChangeMode code r t s).1 ↔ ∃ u, gatesFrom s₀ u ∧ keepsBut notGates u s := by
  rw [← gatesFrom_follow, cmdChangeMode]
  repeat' split
  all_goals simp +decide [-keepsBut_ite, keepsBut_ite_iff, exists_and_ite]

@[simp] theorem gatesFrom_beginCommit (s₀ : State) (slot session seq : Nat) (r : Role) (expected : Nat) (s : State) :
    gatesFrom s₀ (beginCommit slot session seq r expected s).1.1 ↔ ∃ u, gatesFrom s₀ u ∧ keepsBut notGates u s := by
  rw [gatesFrom_follow]
  unfold beginCommit
  extract_lets refuseC ch safetyCh
  let P (r : State) : Prop := gatesFrom s₀ r ↔ gatesFrom s₀ s
  have hraise (c a : Nat) : P (s.raise c a) := gatesFrom_iff_of_follow (by simp +decide)
  change P _
  refine ite_fst_fst_of Iff.rfl (ite_fst_fst_of Iff.rfl (ite_fst_fst_of (hraise ..) (ite_fst_fst_of (hraise ..) (ite_fst_fst_of Iff.rfl
    (ite_fst_fst_of (hraise ..) (ite_fst_fst_of (hraise ..) (ite_fst_fst_of (hraise ..) ?_)))))))
  split
  · exact hraise ..
  · split
    · exact hraise ..
    · exact gatesFrom_iff_of_follow (by simp +decide +zetaDelta)

@[simp] theorem gatesFrom_markStep (s₀ : State) (k outcome detail : Nat) (s : State) : gatesFrom s₀ (markStep k outcome detail s) ↔ ∃ u, gatesFrom s₀ u ∧ keepsBut notGates u s := by
  rw [← gatesFrom_follow, markStep]
  simp +decide [-keepsBut_ite, keepsBut_ite_iff, exists_and_ite]

@[simp] theorem gatesFrom_openJournal (s₀ : State) (s : State) : gatesFrom s₀ (openJournal s) ↔ ∃ u, gatesFrom s₀ u ∧ keepsBut notGates u s := by
  rw [← gatesFrom_follow, openJournal]
  repeat' split
  all_goals simp +decide [-keepsBut_ite, keepsBut_ite_iff, exists_and_ite]

@[simp] theorem gatesFrom_setDomain (s₀ : State) (k : Nat) (on : Bool) (s : State) : gatesFrom s₀ (setDomain k on s) ↔ ∃ u, gatesFrom s₀ u ∧ keepsBut notGates u s := by
  rw [← gatesFrom_follow, setDomain]
  repeat' split
  all_goals simp +decide [-keepsBut_ite, keepsBut_ite_iff, exists_and_ite]

@[simp] theorem gatesFrom_stepFirmware (s₀ : State) (slotOk : Bool) (s : State) : gatesFrom s₀ (stepFirmware slotOk s).1 ↔ ∃ u, gatesFrom s₀ u ∧ keepsBut notGates u s := by
  rw [← gatesFrom_follow, stepFirmware]
  repeat' split
  all_goals simp +decide [-keepsBut_ite, keepsBut_ite_iff, exists_and_ite]

@[simp] theorem gatesFrom_lifeErase (s₀ : State) (old new : LifeCycle) (s : State) : gatesFrom s₀ (lifeErase old new s) ↔ ∃ u, gatesFrom s₀ u ∧ keepsBut notGates u s := by
  rw [← gatesFrom_follow]
  unfold lifeErase
  split
  all_goals simp +decide [-keepsBut_ite, keepsBut_ite_iff, exists_and_ite]

@[simp] theorem gatesFrom_lifeStep (s₀ : State) (s : State) : gatesFrom s₀ (lifeStep s) ↔ ∃ u, gatesFrom s₀ u ∧ keepsBut notGates u s := by
  rw [gatesFrom_follow]
  unfold lifeStep
  extract_lets clash old s1
  have h1 : gatesFrom s₀ s1 ↔ gatesFrom s₀ s := by
    refine gatesFrom_iff_of_follow ?_
    simp +decide [s1]
  split
  · exact h1
  · extract_lets new
    split
    · refine gatesFrom_iff_of_follow ?_
      simp +decide [h1]
    · exact h1

@[simp] theorem gatesFrom_rewriteCopies (s₀ : State) (i : CfgImage) (s : State) : gatesFrom s₀ (rewriteCopies i s) ↔ ∃ u, gatesFrom s₀ u ∧ keepsBut notGates u s := by
  rw [← gatesFrom_follow]
  have hcopy (k : Nat) (b : BootState) : (if k == 0 then { b with copyA := some i } else if k == 1 then { b with copyB := some i } else { b with shadow := some i }).uid = b.uid := by
    split
    · rfl
    · split <;> rfl
  have hpor (k : Nat) (b : BootState) : (if k == 0 then { b with copyA := some i } else if k == 1 then { b with copyB := some i } else { b with shadow := some i }).porN = b.porN := by
    split
    · rfl
    · split <;> rfl
  simp +decide [-beq_iff_eq, rewriteCopies, hcopy, hpor]

@[simp] theorem gatesFrom_loadConfig (s₀ : State) (i : CfgImage) (s : State) : gatesFrom s₀ (loadConfig i s) ↔ ∃ u, gatesFrom s₀ u ∧ keepsBut notGates u s := by
  rw [← gatesFrom_follow, loadConfig]
  simp +decide [-keepsBut_ite, keepsBut_ite_iff, exists_and_ite]

@[simp] theorem gatesFrom_stepConfig (s₀ : State) (s : State) : gatesFrom s₀ (stepConfig s).1 ↔ ∃ u, gatesFrom s₀ u ∧ keepsBut notGates u s := by
  rw [gatesFrom_follow]
  unfold stepConfig
  extract_lets s0 valid s1
  have h1 : gatesFrom s₀ s1 ↔ gatesFrom s₀ s := by
    refine gatesFrom_iff_of_follow ?_
    simp +decide [s1, s0]
  split
  · split
    · exact h1
    · refine gatesFrom_iff_of_follow ?_
      simp +decide [h1]
  · extract_lets s2 s3
    refine gatesFrom_iff_of_follow ?_
    have h3 : gatesFrom s₀ s3 ↔ gatesFrom s₀ s := by
      refine gatesFrom_iff_of_follow ?_
      simp +decide [s3, s2, h1]
    split
    all_goals simp +decide [h3]

@[simp] theorem gatesFrom_stepNetwork (s₀ : State) (ok : Bool) (place : Nat) (s : State) : gatesFrom s₀ (stepNetwork ok place s).1 ↔ ∃ u, gatesFrom s₀ u ∧ keepsBut notGates u s := by
  rw [← gatesFrom_follow, stepNetwork]
  repeat' split
  all_goals simp +decide [-keepsBut_ite, keepsBut_ite_iff, exists_and_ite]

@[simp] theorem gatesFrom_loadGuard (s₀ : State) (scv : Nat) (conf : Option Nat) (s : State) : gatesFrom s₀ (loadGuard scv conf s) ↔ ∃ u, gatesFrom s₀ u ∧ keepsBut notGates u s := by
  rw [← gatesFrom_follow, loadGuard]
  have hload (g : Guard) : gatesOf (if g.portOpen then { g with portOpen := false, params := some s.boot.run.params, scv := scv, scvFail := conf != some scv } else g) = gatesOf g := by
    split <;> rfl
  simp +decide [-gatesOf_inj, hload]

@[simp] theorem gatesFrom_loadKey (s₀ : State) (entries : List (Nat × Nat × Option Diag)) (n : Nat) (s : State) : gatesFrom s₀ (loadKey entries n s) ↔ ∃ u, gatesFrom s₀ u ∧ keepsBut notGates u s := by
  rw [← gatesFrom_follow, loadKey]
  repeat' split
  all_goals simp +decide [-keepsBut_ite, keepsBut_ite_iff, exists_and_ite]

@[simp] theorem gatesFrom_beginRadio (s₀ : State) (s : State) : gatesFrom s₀ (beginRadio s) ↔ ∃ u, gatesFrom s₀ u ∧ keepsBut notGates u s := by
  rw [← gatesFrom_follow, beginRadio]
  repeat' split
  all_goals simp +decide [-keepsBut_ite, keepsBut_ite_iff, exists_and_ite]

@[simp] theorem gatesFrom_endDiscovery (s₀ : State) (s : State) : gatesFrom s₀ (endDiscovery s) ↔ ∃ u, gatesFrom s₀ u ∧ keepsBut notGates u s := by
  rw [← gatesFrom_follow, endDiscovery]
  repeat' split
  all_goals simp +decide [-keepsBut_ite, keepsBut_ite_iff, exists_and_ite]

@[simp] theorem gatesFrom_haltStart (s₀ : State) (k : Nat) (s : State) : gatesFrom s₀ (haltStart k s) ↔ ∃ u, gatesFrom s₀ u ∧ keepsBut notGates u s := by
  rw [← gatesFrom_follow, haltStart]
  repeat' split
  all_goals simp +decide [-keepsBut_ite, keepsBut_ite_iff, exists_and_ite]

@[simp] theorem gatesFrom_beginStep (s₀ : State) (k : Nat) (s : State) : gatesFrom s₀ (beginStep k s) ↔ ∃ u, gatesFrom s₀ u ∧ keepsBut notGates u s := by
  rw [← gatesFrom_follow, beginStep]
  repeat' split
  all_goals simp +decide [-keepsBut_ite, keepsBut_ite_iff, exists_and_ite]

@[simp] theorem gatesFrom_endStep (s₀ : State) (k : Nat) (e : StepEnd) (s : State) : gatesFrom s₀ (endStep k e s) ↔ ∃ u, gatesFrom s₀ u ∧ keepsBut notGates u s := by
  rw [← gatesFrom_follow]
  unfold endStep
  repeat' split
  all_goals simp +decide [-keepsBut_ite, keepsBut_ite_iff, exists_and_ite]

@[simp] theorem gatesFrom_swapFrame (s₀ : State) (late : Bool) (s : State) : gatesFrom s₀ (swapFrame late s) ↔ ∃ u, gatesFrom s₀ u ∧ keepsBut notGates u s := by
  rw [← gatesFrom_follow]
  have hhold (b : BootState) : (holdChanges b).uid = b.uid := rfl
  have hpor (b : BootState) : (holdChanges b).porN = b.porN := rfl
  unfold swapFrame
  repeat' split
  all_goals simp +decide [-keepsBut_ite, keepsBut_ite_iff, exists_and_ite, hhold, hpor]

@[simp] theorem gatesFrom_modeFrame (s₀ : State) (s : State) : gatesFrom s₀ (modeFrame s) ↔ ∃ u, gatesFrom s₀ u ∧ keepsBut notGates u s := by
  rw [gatesFrom_follow]
  unfold modeFrame
  extract_lets pend drop
  have hdrop (s : State) : gatesFrom s₀ (drop s) ↔ ∃ u, gatesFrom s₀ u ∧ keepsBut notGates u s := by
    rw [gatesFrom_follow]
    refine gatesFrom_iff_of_follow ?_
    simp +decide [drop]
  clear_value drop
  repeat' split
  all_goals
    refine gatesFrom_iff_of_follow ?_
    simp +decide +zetaDelta [hdrop]

@[simp] theorem gatesFrom_roundFrame (s₀ : State) (laneFails : List (Nat × Nat)) (s : State) : gatesFrom s₀ (roundFrame laneFails s) ↔ ∃ u, gatesFrom s₀ u ∧ keepsBut notGates u s := by
  rw [← gatesFrom_follow, roundFrame]
  repeat' split
  all_goals simp +decide [-keepsBut_ite, keepsBut_ite_iff, exists_and_ite]

@[simp] theorem gatesFrom_setTime (s₀ : State) (k t : Nat) (size : Int) (s : State) : gatesFrom s₀ (setTime k t size s) ↔ ∃ u, gatesFrom s₀ u ∧ keepsBut notGates u s := by
  rw [← gatesFrom_follow, setTime]
  repeat' split
  all_goals simp +decide [-keepsBut_ite, keepsBut_ite_iff, exists_and_ite]

@[simp] theorem gatesFrom_formValues (s₀ : State) (ch : List GuardDens) (s : State) : gatesFrom s₀ (formValues ch s) ↔ ∃ u, gatesFrom s₀ u ∧ keepsBut notGates u s := by
  rw [← gatesFrom_follow, formValues]
  simp +decide [-keepsBut_ite, keepsBut_ite_iff, exists_and_ite]

@[simp] theorem gatesFrom_missedRound (s₀ : State) (s : State) : gatesFrom s₀ (missedRound s) ↔ ∃ u, gatesFrom s₀ u ∧ keepsBut notGates u s := by
  rw [← gatesFrom_follow, missedRound]
  repeat' split
  all_goals simp +decide [-keepsBut_ite, keepsBut_ite_iff, exists_and_ite]

end Sys2Proof.Machine
end

section
/-!
PROOF. The gates where they are formed: the stage and the operations that end in it, of the loops, the contactors, Start, the frame and a host's requests.
-/
set_option linter.unusedSimpArgs false

namespace Sys2Proof.Machine

theorem gatesFrom_forEach_of {α : Type} {s₀ : State} {f : α → State → State} (hf : ∀ a s, gatesFrom s₀ s → gatesFrom s₀ (f a s)) (l : List α) {s : State}
    (h : gatesFrom s₀ s) : gatesFrom s₀ (forEach l f s) := by
  induction l generalizing s with
  | nil => exact h
  | cons a l ih => exact ih (hf a s h)

theorem gatesFrom_ite {c : Prop} [Decidable c] {s₀ s t : State} (hs : gatesFrom s₀ s) (ht : gatesFrom s₀ t) : gatesFrom s₀ (if c then s else t) := by
  split <;> assumption

@[simp] theorem gatesFrom_stage {s₀ s : State} (h : ∃ u, gatesFrom s₀ u ∧ keepsBut notGates u s) (n : Nat) : gatesFrom s₀ (stage n s) := by
  rw [gatesFrom_follow] at h
  refine ⟨(congrArg BootState.uid (stage_frame n s .boot (by decide))).trans h.uid, fun m hm hon => ?_⟩
  rw [permits_stage]
  by_cases hmn : n = m
  · subst hmn
    exact .inl (gateEn_stage_same hon)
  · rw [gateEn_stage_other hmn] at hon
    exact h.gate m hm hon

/-- After the stage has formed every output only the unique ID is left to show. -/
theorem gatesFrom_stageAll {s₀ s : State} (huid : s.boot.uid = s₀.boot.uid) : gatesFrom s₀ (stageAll s) where
  uid := by
    have hboot : (stageAll s).boot = s.boot := (by simp +decide : keepsBut [.est, .guard] s (stageAll s)) .boot (by decide)
    rw [hboot, huid]
  gate n hn hon := .inl ((permits_stageAll n s).trans (gateEn_stageAll hn hon))

theorem gatesFrom_outputsOff {s₀ s : State} (huid : s.boot.uid = s₀.boot.uid) : gatesFrom s₀ (outputsOff s) where
  uid := huid
  gate n hn hon := by
    have hlow : gateEn (outputsOff s) n = false := by
      match n, hn with
      | 0, _ | 1, _ | 2, _ | 3, _ => rfl
    rw [hlow] at hon
    cases hon

@[simp] theorem gatesFrom_restartModule {s₀ s : State} (h : ∃ u, gatesFrom s₀ u ∧ keepsBut notGates u s) (cause : Nat) : gatesFrom s₀ (restartModule cause s) := by
  have hclose : gatesFrom s₀ (forEach (List.range 8) closeSession s) := (gatesFrom_follow ..).1 (by simpa +decide using h)
  unfold restartModule
  generalize forEach (List.range 8) closeSession s = u at hclose
  have huid : ((mainReset .start cause u).send (.restart cause)).boot.uid = u.boot.uid := rfl
  exact gatesFrom_stageAll (huid.trans hclose.uid)

theorem gatesFrom_guardEval_of_up {s₀ s : State} (hup : guardUp s = true) (huid : s.boot.uid = s₀.boot.uid) : gatesFrom s₀ (guardEval s) where
  uid := (congrArg BootState.uid (guardEval_frame s .boot (by decide))).trans huid
  gate _ hn hon := .inl (gateEn_guardEval hup hn hon)

theorem gatesFrom_guardEval {s₀ s : State} (h : gatesFrom s₀ s) : gatesFrom s₀ (guardEval s) := by
  by_cases hup : guardUp s = true
  · exact gatesFrom_guardEval_of_up hup h.uid
  · have hsame : guardEval s = s := by rw [guardEval, if_pos (by simpa using hup)]
    rwa [hsame]

/-- A command of the Guard that leaves POR_N and VGUARD as they are: its outputs are formed under them at its end. -/
theorem gatesFrom_guardDo {ps : List Piece} {t : Nat} {f : State → State} {s : State} (hkeep : keepsBut ps s (guardDo t f s)) (hb : Piece.boot ∉ ps)
    (hp : Piece.pwr ∉ ps) : gatesFrom s (guardDo t f s) := by
  have hdo : guardDo t f s = if guardUp (s.at_ t) = true then guardEval (f (s.at_ t)) else s.at_ t := rfl
  rw [hdo] at hkeep ⊢
  split
  case isTrue hup =>
    rw [if_pos hup] at hkeep
    have hboot : (f (s.at_ t)).boot = s.boot := (guardEval_frame _ .boot (by decide)).symm.trans (hkeep .boot hb)
    have hpwr : (f (s.at_ t)).pwr = s.pwr := (guardEval_frame _ .pwr (by decide)).symm.trans (hkeep .pwr hp)
    refine gatesFrom_guardEval_of_up ?_ (congrArg BootState.uid hboot)
    unfold guardUp
    rwa [hboot, hpwr]
  case isFalse => exact (gatesFrom_follow ..).1 (by simp +decide [gatesFrom_refl])

/-! ### The loops, the contactors and the tests -/

@[simp] theorem gatesFrom_loopOff {s₀ s : State} (h : ∃ u, gatesFrom s₀ u ∧ keepsBut notGates u s) (n : Nat) (goal : LoopSt) (o : Owner) : gatesFrom s₀ (loopOff n goal o s) := by
  rw [gatesFrom_follow] at h
  refine gatesFrom_stage ?_ n
  simp +decide [-keepsBut_ite, keepsBut_ite_iff, exists_and_ite, h]

@[simp] theorem gatesFrom_loopStart {s₀ s : State} (h : ∃ u, gatesFrom s₀ u ∧ keepsBut notGates u s) (n : Nat) (i v : Option Rat) : gatesFrom s₀ (loopStart n i v s) := by
  rw [gatesFrom_follow] at h
  refine gatesFrom_stage ?_ n
  simp +decide [h]

@[simp] theorem gatesFrom_loopTick {s₀ s : State} (h : ∃ u, gatesFrom s₀ u ∧ keepsBut notGates u s) (n t : Nat) (q : List (Option Nat)) (hold : Bool) :
    gatesFrom s₀ (loopTick n t q hold s) := by
  rw [gatesFrom_follow] at h
  unfold loopTick
  extract_lets l rat enabled g0 countValid
  have hcount : gatesFrom s₀ (countValid s) := (gatesFrom_follow ..).1 (by simp +decide [countValid, h])
  clear_value countValid
  split
  all_goals
    rw [← gatesFrom_follow]
    repeat' split
  all_goals simp +decide +zetaDelta [-keepsBut_ite, keepsBut_ite_iff, exists_and_ite, h, hcount]

@[simp] theorem gatesFrom_stopByLane {s₀ s : State} (h : ∃ u, gatesFrom s₀ u ∧ keepsBut notGates u s) (n k : Nat) : gatesFrom s₀ (stopByLane n k s) := by
  rw [gatesFrom_follow] at h
  rw [← gatesFrom_follow, stopByLane]
  simp +decide [h]

@[simp] theorem gatesFrom_stopDue {s₀ s : State} (h : ∃ u, gatesFrom s₀ u ∧ keepsBut notGates u s) (k n : Nat) : gatesFrom s₀ (stopDue k n s) := by
  rw [gatesFrom_follow] at h
  rw [← gatesFrom_follow, stopDue]
  repeat' split
  all_goals simp +decide [-keepsBut_ite, keepsBut_ite_iff, exists_and_ite, h]

@[simp] theorem gatesFrom_reqCtr {s₀ s : State} (h : ∃ u, gatesFrom s₀ u ∧ keepsBut notGates u s) (n : Nat) (f : DispStr → DispStr) : gatesFrom s₀ (reqCtr n f s) := by
  rw [gatesFrom_follow] at h
  rw [← gatesFrom_follow, reqCtr]
  simp +decide [h]

@[simp] theorem gatesFrom_cmdClearFailed {s₀ s : State} (h : ∃ u, gatesFrom s₀ u ∧ keepsBut notGates u s) (n : Nat) : gatesFrom s₀ (cmdClearFailed n s).1 := by
  rw [gatesFrom_follow] at h
  rw [← gatesFrom_follow, cmdClearFailed]
  repeat' split
  all_goals simp +decide [h]

@[simp] theorem gatesFrom_permitLoss {s₀ s : State} (h : ∃ u, gatesFrom s₀ u ∧ keepsBut notGates u s) (n : Nat) : gatesFrom s₀ (permitLoss n s) := by
  rw [gatesFrom_follow] at h
  rw [← gatesFrom_follow, permitLoss]
  repeat' split
  all_goals simp +decide [-keepsBut_ite, keepsBut_ite_iff, exists_and_ite, h]

@[simp] theorem gatesFrom_connectStep {s₀ s : State} (h : ∃ u, gatesFrom s₀ u ∧ keepsBut notGates u s) (n : Nat) : gatesFrom s₀ (connectStep n s) := by
  rw [gatesFrom_follow] at h
  unfold connectStep
  extract_lets now s1 d ask p slow s2 d2
  have h1 : gatesFrom s₀ s1 := (gatesFrom_follow ..).1 (by simp +decide [s1, h])
  have hask (f : DispStr → DispStr) {s : State} (hs : gatesFrom s₀ s) : gatesFrom s₀ (ask f s) := gatesFrom_reqCtr ((gatesFrom_follow ..).2 hs) n _
  have h2 : gatesFrom s₀ s2 := (gatesFrom_follow ..).1 (by simp +decide [s2, -keepsBut_ite, keepsBut_ite_iff, exists_and_ite, h1])
  clear_value s1 s2 ask d d2
  refine gatesFrom_ite (hask _ h1) (gatesFrom_ite ?_ (gatesFrom_ite ?_ (gatesFrom_ite ?_ (gatesFrom_ite ?_ (gatesFrom_ite ?_ (gatesFrom_ite ?_ (gatesFrom_ite ?_ ?_)))))))
  all_goals repeat' split
  all_goals
    rw [← gatesFrom_follow]
    simp +decide [-keepsBut_ite, keepsBut_ite_iff, exists_and_ite, h1, h2, hask]

@[simp] theorem gatesFrom_connectFrame {s₀ s : State} (h : ∃ u, gatesFrom s₀ u ∧ keepsBut notGates u s) : gatesFrom s₀ (connectFrame s) := by
  rw [gatesFrom_follow] at h
  have hstep := gatesFrom_forEach_of (f := connectStep) (fun n s h => gatesFrom_connectStep ((gatesFrom_follow ..).2 h) n) (List.range 4) h
  rw [← gatesFrom_follow, connectFrame]
  simp +decide [hstep]

@[simp] theorem gatesFrom_dispatchBuild {s₀ s : State} (h : ∃ u, gatesFrom s₀ u ∧ keepsBut notGates u s) : gatesFrom s₀ (dispatchBuild s) := by
  rw [gatesFrom_follow] at h
  unfold dispatchBuild
  extract_lets s1 s2 shares p
  have h1 : gatesFrom s₀ s1 := (gatesFrom_follow ..).1 (by simp +decide [s1, h])
  have h2 : gatesFrom s₀ s2 := gatesFrom_forEach_of (fun n s hs => gatesFrom_permitLoss (by simp +decide [-keepsBut_ite, keepsBut_ite_iff, exists_and_ite, hs]) n) _ h1
  clear_value s2
  have hcap {s u : State} {x : List (Nat × Rat × Rat)} (hs : gatesFrom s₀ s) (hu : capShare p s = (u, x)) : gatesFrom s₀ u := by
    have := (gatesFrom_follow s₀ (capShare p s).1).1 (by simp +decide [hs])
    rwa [hu] at this
  split
  next s3 surv0 h3 =>
  replace h3 := hcap h2 h3
  extract_lets sv s4
  have h4 : gatesFrom s₀ s4 := (gatesFrom_follow ..).1 (by simp +decide [s4, h3])
  split
  next s5 surv h5 =>
  replace h5 := hcap h4 h5
  rw [← gatesFrom_follow]
  simp +decide +zetaDelta [-keepsBut_ite, keepsBut_ite_iff, exists_and_ite, h5]

@[simp] theorem gatesFrom_cmdDeepTest {s₀ s : State} (h : ∃ u, gatesFrom s₀ u ∧ keepsBut notGates u s) (block : Nat) : gatesFrom s₀ (cmdDeepTest block s).1 := by
  rw [gatesFrom_follow] at h
  unfold cmdDeepTest
  split
  · exact h
  · split
    · exact (gatesFrom_follow ..).1 (by simp +decide [h])
    · extract_lets s1 s2
      have hs2 : keepsBut [.bist, .est, .reg, .guard, .recorder] s s2 := by simp +decide [s2, s1]
      exact gatesFrom_stageAll ((congrArg BootState.uid (hs2 .boot (by decide))).trans h.uid)

/-! ### Start -/

@[simp] theorem gatesFrom_stepSafety {s₀ s : State} (h : ∃ u, gatesFrom s₀ u ∧ keepsBut notGates u s) : gatesFrom s₀ (stepSafety s).1 := by
  rw [gatesFrom_follow] at h
  unfold stepSafety
  extract_lets ps scv conf clash s1 ok s2 s2' s3 s4
  have h2 : gatesFrom s₀ s2' := (gatesFrom_follow ..).1 (by simp +decide +zetaDelta [h])
  clear_value s2'
  have h3 : gatesFrom s₀ s3 := by
    have hlatch : (setGLatch 4 (sf 21) s2').boot.uid = s₀.boot.uid := h2.uid
    rw [← gatesFrom_follow]
    simp +decide [s3, -keepsBut_ite, keepsBut_ite_iff, exists_and_ite, h2, gatesFrom_stageAll hlatch]
  clear_value s3
  rw [← gatesFrom_follow]
  repeat' split
  all_goals simp +decide +zetaDelta [h2, h3]

@[simp] theorem gatesFrom_stepMode {s₀ s : State} (h : ∃ u, gatesFrom s₀ u ∧ keepsBut notGates u s) : gatesFrom s₀ (stepMode s).1 := by
  rw [gatesFrom_follow] at h
  unfold stepMode
  extract_lets m bits s1 s1' s2 s3 s4 s5
  have h1 : gatesFrom s₀ s1' := (gatesFrom_follow ..).1 (by simp +decide +zetaDelta [h])
  clear_value s1'
  have h2 : gatesFrom s₀ s2 := by
    rw [← gatesFrom_follow]
    simp +decide [s2, gatesFrom_stageAll (s := s1'.modGuard fun g => { g with started := !g.scvFail }) h1.uid]
  clear_value s2
  rw [← gatesFrom_follow]
  simp +decide +zetaDelta [-keepsBut_ite, keepsBut_ite_iff, exists_and_ite, h2]

@[simp] theorem gatesFrom_doStep {s₀ s : State} (h : ∃ u, gatesFrom s₀ u ∧ keepsBut notGates u s) (k : Nat) (env : StartEnv) : gatesFrom s₀ (doStep k env s).1 := by
  rw [gatesFrom_follow] at h
  rw [← gatesFrom_follow]
  unfold doStep
  simp only [apply_ite Prod.fst]
  simp +decide [-keepsBut_ite, keepsBut_ite_iff, exists_and_ite, h]

@[simp] theorem gatesFrom_failStart {s₀ s : State} (h : ∃ u, gatesFrom s₀ u ∧ keepsBut notGates u s) (k detail : Nat) : gatesFrom s₀ (failStart k detail s) := by
  rw [gatesFrom_follow] at h
  rw [← gatesFrom_follow, failStart]
  simp +decide [-keepsBut_ite, keepsBut_ite_iff, exists_and_ite, h]

/-! ### The frame's work -/

@[simp] theorem gatesFrom_activationFrame {s₀ s : State} (h : ∃ u, gatesFrom s₀ u ∧ keepsBut notGates u s) : gatesFrom s₀ (activationFrame s) := by
  rw [gatesFrom_follow] at h
  rw [← gatesFrom_follow, activationFrame]
  repeat' split
  all_goals simp +decide [-keepsBut_ite, keepsBut_ite_iff, exists_and_ite, h]

@[simp] theorem gatesFrom_runFrame {s₀ s : State} (h : ∃ u, gatesFrom s₀ u ∧ keepsBut notGates u s) (late : Bool) : gatesFrom s₀ (runFrame late s) := by
  rw [gatesFrom_follow] at h
  unfold runFrame
  extract_lets s1 s2
  have h2 : gatesFrom s₀ s2 := (gatesFrom_follow ..).1 (by simp +decide [s2, s1, h])
  exact gatesFrom_activationFrame (by simp +decide [h2])

/-! ### The requests of a host -/

@[simp] theorem gatesFrom_runCommand {s₀ s : State} (h : ∃ u, gatesFrom s₀ u ∧ keepsBut notGates u s) (x : Session) (t code target : Nat) (a : List Byte) :
    gatesFrom s₀ (runCommand x t code target a s).1 := by
  refine runCommand_induct x t code target a (fun f hf s hs => ?_) ((gatesFrom_follow s₀ s).1 h)
  rw [← gatesFrom_follow]
  cases hf <;> simp +decide [hs]

@[simp] theorem gatesFrom_runOp {s₀ s : State} (h : ∃ u, gatesFrom s₀ u ∧ keepsBut notGates u s) (k : Nat) (x : Session) (t seq opcode : Nat) (pay : List Byte) (env : FhpEnv) :
    gatesFrom s₀ (runOp k x t seq opcode pay env s).1 := by
  rw [gatesFrom_follow] at h
  unfold runOp
  extract_lets st parts
  rw [← gatesFrom_follow]
  split
  · simp +decide [st, h]
  · split
    all_goals simp +decide +zetaDelta [-keepsBut_ite, keepsBut_ite_iff, exists_and_ite, onePart, apply_ite Prod.fst, apply_ite Prod.snd, h]

@[simp] theorem gatesFrom_carryOut {s₀ s : State} (h : ∃ u, gatesFrom s₀ u ∧ keepsBut notGates u s) (k : Nat) (x : Session) (t seq opcode : Nat) (pay : List Byte) (env : FhpEnv) :
    gatesFrom s₀ (carryOut k x t seq opcode pay env s) := by
  rw [gatesFrom_follow] at h
  have hop : gatesFrom s₀ (runOp k x t seq opcode pay env s).1 := gatesFrom_runOp ((gatesFrom_follow ..).2 h) ..
  rw [← gatesFrom_follow, carryOut]
  simp +decide [-keepsBut_ite, keepsBut_ite_iff, exists_and_ite, hop]

@[simp] theorem gatesFrom_handleRequest {s₀ s : State} (h : ∃ u, gatesFrom s₀ u ∧ keepsBut notGates u s) (k t seq opcode : Nat) (pay : List Byte) (env : FhpEnv) :
    gatesFrom s₀ (handleRequest k t seq opcode pay env s) := by
  rw [gatesFrom_follow] at h
  rw [← gatesFrom_follow, handleRequest]
  repeat' split
  all_goals simp +decide [-keepsBut_ite, keepsBut_ite_iff, exists_and_ite, h]

@[simp] theorem gatesFrom_receive {s₀ s : State} (h : ∃ u, gatesFrom s₀ u ∧ keepsBut notGates u s) (t addr port : Nat) (bytes : List Byte) (env : FhpEnv) :
    gatesFrom s₀ (receive t addr port bytes env s) := by
  rw [gatesFrom_follow] at h
  rw [← gatesFrom_follow, receive]
  repeat' split
  all_goals simp +decide [-keepsBut_ite, keepsBut_ite_iff, exists_and_ite, h]

@[simp] theorem gatesFrom_request {s₀ s : State} (h : ∃ u, gatesFrom s₀ u ∧ keepsBut notGates u s) (t id seq opcode : Nat) (pay : List Byte) (env : FhpEnv) :
    gatesFrom s₀ (request t id seq opcode pay env s) := by
  rw [gatesFrom_follow] at h
  rw [← gatesFrom_follow, request]
  repeat' split
  all_goals simp +decide [-keepsBut_ite, keepsBut_ite_iff, exists_and_ite, h]

end Sys2Proof.Machine
end

section
/-!
PROOF. EveryCommandCompletes and GuardOutputsSafe: what every command leaves of the unique ID, the permits and GATE_EN.
-/
set_option linter.unusedSimpArgs false

namespace Sys2Proof.Machine

/-- No command may change the queue. -/
theorem pending_notMem_mayChange (c : Instr) : Piece.pending ∉ mayChange c := by
  cases c <;> simp +decide [mayChange]

/-- Nothing that a command which touches neither boot, pwr, bist nor guard does is seen at the gates. -/
theorem exec_gatesFrom_of_frame {c : Instr} (hc : ∀ p ∈ [Piece.boot, .pwr, .bist, .guard], p ∉ mayChange c) (s : State) : answers (exec c s) (gatesFrom s) :=
  answers_mono (exec_frame c s) fun _ ht => gatesFrom_of_sameGates (sameGates_of_keepsBut ht hc)

theorem gRaise_guard (c a : Nat) (s : State) : (gRaise c a s).guard = s.guard := by
  unfold gRaise
  split <;> rfl

theorem partFault_guard (b : Nat) (s : State) : (partFault b s).guard = s.guard := (by simp +decide [partFault] : keepsBut [.core, .recorder] s (partFault b s)) .guard (by decide)

theorem closeWindow_guard (s : State) : (closeWindow s).guard = s.guard := (by simp +decide : keepsBut [.core, .recorder] s (closeWindow s)) .guard (by decide)

/-- What a step reads or does in one branch or the other leaves the contactor outputs. -/
theorem ctr_ite {c : Prop} [Decidable c] {s t : State} {l : List Bool} (hs : s.guard.ctr = l) (ht : t.guard.ctr = l) : (if c then s else t).guard.ctr = l := by
  split <;> assumption

/-- A command of the Guard: its change of the state, after which the Guard judges its hazards and the stage forms its outputs. -/
theorem exec_guardCommand {c : Instr} (hc : guardCommand c = true) (s : State) :
    ∃ t f, exec c s = .next (guardDo t f s) ∧ ∀ u, (f u).guard.ctr = u.guard.ctr := by
  cases c with
  | guardValue t ch => exact ⟨t, _, rfl, fun _ => rfl⟩
  | guardMean t ch =>
    refine ⟨t, _, rfl, fun u => ?_⟩
    extract_lets v
    exact ctr_ite (l := u.guard.ctr) rfl rfl
  | floopEdgeDrive t => exact ⟨t, _, rfl, fun _ => rfl⟩
  | floopInEdge e n high => exact ⟨e.at_, _, rfl, fun _ => ctr_ite rfl rfl⟩
  | floopEdgeNotReturned t n => exact ⟨t, _, rfl, fun _ => rfl⟩
  | tripInputChange t a b => exact ⟨t, _, rfl, fun _ => rfl⟩
  | tripDiscrepancy t =>
    refine ⟨t, _, rfl, fun u => ?_⟩
    simp only [State.modGuard_guard]
    split
    · split <;> rfl
    · rfl
  | cfbChange t n k closed =>
    refine ⟨t, _, rfl, fun u => ?_⟩
    extract_lets i s1 s2
    exact ctr_ite (s := s1) (t := s1.clear 0x500B n.val) rfl (by rw [clear_guard]; rfl)
  | contactorFeedbackFault t n k =>
    refine ⟨t, _, rfl, fun u => ctr_ite ?_ rfl⟩
    extract_lets s1
    have h1 : s1.guard.ctr = u.guard.ctr := by rw [gRaise_guard]
    exact ctr_ite h1 h1
  | contactorWeld t n k =>
    refine ⟨t, _, rfl, fun u => ?_⟩
    extract_lets i s1 s2 both
    have h1 : s1.guard.ctr = u.guard.ctr := by rw [gRaise_guard]; rfl
    have h2 : s2.guard.ctr = u.guard.ctr := ctr_ite h1 h1
    exact ctr_ite (ctr_ite h2 h2) rfl
  | guardScvRecompute t intact =>
    refine ⟨t, _, rfl, fun u => ctr_ite ?_ rfl⟩
    rw [partFault_guard]; rfl
  | permitLapse t =>
    refine ⟨t, _, rfl, fun u => ctr_ite ?_ rfl⟩
    rw [partFault_guard]; rfl
  | resetNFall t tf =>
    refine ⟨t, fun s => if t < tf + 20000000 then s else s.modGuard fun g => { g with resetHigh := false, resetAt := tf, tF := if g.stuck then none else some tf }, rfl, fun u => ?_⟩
    split <;> rfl
  | resetNRise t tr =>
    refine ⟨t, _, rfl, fun u => ?_⟩
    extract_lets s1
    split
    · exact ctr_ite rfl rfl
    · exact ctr_ite rfl (ctr_ite rfl (ctr_ite (by rw [gRaise_guard]; rfl) (ctr_ite rfl rfl)))
  | stuckReset t =>
    refine ⟨t, _, rfl, fun u => ?_⟩
    split
    · refine ctr_ite ?_ rfl
      rw [closeWindow_guard, gRaise_guard]; rfl
    · rfl
  | stuckResetClear t =>
    refine ⟨t, _, rfl, fun u => ctr_ite ?_ rfl⟩
    rw [clear_guard]; rfl
  | _ => cases hc

theorem exec_gatesFrom_porNRelease (t : Nat) (resetHigh pfwHigh : Bool) (s : State) : answers (exec (.porNRelease t resetHigh pfwHigh) s) (gatesFrom s) := by
  simp -zeta only [exec, execPorNRelease]
  extract_lets u s1 s2 s3
  have hu : gatesFrom s u := (gatesFrom_follow ..).1 (by simp +decide [u, gatesFrom_refl])
  split
  case isTrue => exact answers_next hu
  case isFalse hpor =>
    have hno (n : Nat) : permits s n = false := by
      have : s.boot.porN = false := by simpa [u] using hpor
      simp [permits, guardPermit, this]
    have h2 : s2.guard.gate = s.guard.gate := by
      simp only [s2, s1, mainReset]
      split <;> rfl
    have hlatched : (setGLatch 4 (sf 22) s3).guard.gate = s.guard.gate := h2
    have hend {r : State} (huid : r.boot.uid = s.boot.uid) (hgate : r.guard.gate = s.guard.gate) : gatesFrom s r :=
      ⟨huid, fun n _ hon => .inr ⟨by rwa [gateEn, hgate] at hon, fun hp => absurd hp (by simp [hno])⟩⟩
    refine answers_next (gatesFrom_ite (hend rfl h2) (hend ?_ ((congrArg Guard.gate (gRaise_guard ..)).trans hlatched)))
    have hraise : keepsBut [.recorder] (setGLatch 4 (sf 22) s3) (gRaise 0x500A 0 (setGLatch 4 (sf 22) s3)) := gRaise_frame _ _ _
    exact (congrArg BootState.uid (hraise .boot (by decide))).trans rfl

theorem exec_gatesFrom_porNAssert (t : Nat) (s : State) : answers (exec (.porNAssert t) s) (gatesFrom s) := by
  refine answers_next (gatesFrom_outputsOff ?_)
  rfl

theorem exec_gatesFrom_vguardLoss (t : Nat) (s : State) : answers (exec (.vguardLoss t) s) (gatesFrom s) := by
  refine answers_next (gatesFrom_outputsOff ?_)
  rfl

/-- The reset of the main die, as VMAIN goes: the Guard stays as it is while POR_N is high, and grants nothing while it is low. -/
theorem gatesFrom_mainReset (s : State) : gatesFrom s (mainReset (if s.boot.porN then .mainReset else .por) 0 s) := by
  cases hpor : s.boot.porN with
  | true =>
    refine ⟨rfl, fun n _ hon => .inr ⟨hon, fun hp => ?_⟩⟩
    simp only [permits, guardPermit, Bool.and_eq_true] at hp ⊢
    obtain ⟨⟨⟨⟨⟨⟨⟨⟨hst, -⟩, hv⟩, hpor⟩, hg⟩, hg4⟩, hl⟩, hl4⟩, hline⟩ := hp
    exact ⟨⟨⟨⟨⟨⟨⟨⟨hst, rfl⟩, hv⟩, hpor⟩, hg⟩, hg4⟩, hl⟩, hl4⟩, hline⟩
  | false => exact ⟨rfl, fun n _ hon => .inr ⟨hon, fun hp => by simp [permits, guardPermit, hpor] at hp⟩⟩

theorem exec_gatesFrom_vmainLoss (t : Nat) (s : State) : answers (exec (.vmainLoss t) s) (gatesFrom s) := by
  simp -zeta only [exec, execVmainLoss]
  extract_lets u s1
  have hu : gatesFrom s u := (gatesFrom_follow ..).1 (by simp +decide [u, gatesFrom_refl])
  refine answers_ite (answers_next hu) (answers_next (hu.trans (?_ : gatesFrom u _)))
  have h1 : gatesFrom u s1 := gatesFrom_mainReset u
  clear_value s1
  have h2 := (gatesFrom_follow u _).1 (by simp +decide [h1] : ∃ v, gatesFrom u v ∧ keepsBut notGates v ((s1.modPwr fun p => { p with vmain := false, domains := p.domains &&& 2 }).modTime fun _ => { now := u.time.now }))
  exact h2.trans (gatesFrom_of_sameGates (sameGates_of_guard (by simp +decide) rfl))

theorem exec_gatesFrom_vmainReturn (s : State) : answers (exec .vmainReturn s) (gatesFrom s) := by
  simp -zeta only [exec, execVmainReturn]
  extract_lets s1
  have h1 : gatesFrom s s1 := (gatesFrom_follow ..).1 (by simp +decide [s1, gatesFrom_refl])
  clear_value s1
  have hreset : (mainReset .start 0 s1).boot.uid = s1.boot.uid := rfl
  exact answers_ite (answers_next (gatesFrom_refl s)) (answers_ite (answers_next (gatesFrom_stageAll (hreset.trans h1.uid))) (answers_next ((gatesFrom_follow ..).1 (by simp +decide [h1]))))

/-- A deep test that ends withdraws no permit any longer. -/
theorem gatesFrom_endDeep (s : State) : gatesFrom s (s.modBist fun b => { b with deep := none }) := by
  refine ⟨rfl, fun n _ hon => .inr ⟨hon, fun hp => ?_⟩⟩
  simp only [permits, guardPermit, Bool.and_eq_true] at hp ⊢
  obtain ⟨⟨⟨⟨⟨⟨⟨⟨hst, -⟩, hv⟩, hpor⟩, hg⟩, hg4⟩, hl⟩, hl4⟩, hline⟩ := hp
  exact ⟨⟨⟨⟨⟨⟨⟨⟨hst, rfl⟩, hv⟩, hpor⟩, hg⟩, hg4⟩, hl⟩, hl4⟩, hline⟩

theorem exec_gatesFrom_deepTestEnd (t : Nat) (fails : BitVec 7) (d : BitVec 32) (s : State) : answers (exec (.deepTestEnd t fails d) s) (gatesFrom s) := by
  simp -zeta only [exec, execDeepTestEnd]
  extract_lets u s1
  have hu : gatesFrom s u := (gatesFrom_follow ..).1 (by simp +decide [u, gatesFrom_refl])
  split
  · exact answers_next hu
  next block e _ =>
  refine answers_ite (answers_next hu) ?_
  extract_lets s2 s3 s4
  have h1 : gatesFrom s s1 := hu.trans (gatesFrom_endDeep u)
  have h3 : gatesFrom s s3 := (gatesFrom_follow ..).1 (by simp +decide [s3, s2, -keepsBut_ite, keepsBut_ite_iff, exists_and_ite, h1])
  clear_value s3
  have hnext {t : State} (ht : ∃ u, gatesFrom s u ∧ keepsBut notGates u t) : answers (.next t) (gatesFrom s) := answers_next ((gatesFrom_follow s t).1 ht)
  split
  · exact hnext (by simp +decide [h3])
  · exact hnext (by simp +decide [h3])
  · exact answers_next (gatesFrom_stageAll h3.uid)
  · have h4 : gatesFrom s s4 := (gatesFrom_follow ..).1 (by simp +decide [s4, -keepsBut_ite, keepsBut_ite_iff, exists_and_ite, h3])
    exact hnext (by simp +decide [h4])

theorem exec_gatesFrom_contactorRelease (t : Nat) (n : Fin 4) (s : State) : answers (exec (.contactorRelease t n) s) (gatesFrom s) := by
  simp -zeta only [exec, execContactorRelease]
  extract_lets u k any s1 s2
  have hu : gatesFrom s u := (gatesFrom_follow ..).1 (by simp +decide [u, gatesFrom_refl])
  split
  · exact answers_next hu
  · extract_lets low late
    refine answers_ite (answers_next hu) ?_
    have h1 : gatesFrom s s1 := hu.trans (gatesFrom_of_sameGates (sameGates_of_guard (by simp +decide [s1]) rfl))
    refine answers_next (gatesFrom_guardEval ((gatesFrom_follow ..).1 ?_))
    simp +decide [s2, -keepsBut_ite, keepsBut_ite_iff, exists_and_ite, h1]

theorem exec_gatesFrom_aliveToggle (t : Nat) (s : State) : answers (exec (.aliveToggle t) s) (gatesFrom s) := by
  simp -zeta only [exec, execAliveToggle]
  extract_lets u
  have hu : gatesFrom s u := (gatesFrom_follow ..).1 (by simp +decide [u, gatesFrom_refl])
  exact answers_ite (answers_next hu) (answers_next (hu.trans (gatesFrom_guardDo (ps := [.time, .est, .guard]) (by simp +decide [guardDo]) (by decide) (by decide))))

theorem exec_gatesFrom_startStep (t : Nat) (b : Bool) (env : StartEnv) (s : State) : answers (exec (.startStep t b env) s) (gatesFrom s) := by
  simp -zeta only [exec, execStartStep]
  extract_lets u k late s0 r s1
  have hu : gatesFrom s u := (gatesFrom_follow ..).1 (by simp +decide [u, gatesFrom_refl])
  have h0 : gatesFrom s s0 := (gatesFrom_follow ..).1 (by simp +decide [s0, -keepsBut_ite, keepsBut_ite_iff, exists_and_ite, hu])
  have h1 : gatesFrom s s1 := (gatesFrom_follow ..).1 (by simp +decide [s1, r, h0])
  clear_value s1 r u
  have hnext {t : State} (ht : ∃ u, gatesFrom s u ∧ keepsBut notGates u t) : answers (.next t) (gatesFrom s) := answers_next ((gatesFrom_follow s t).1 ht)
  refine answers_ite (answers_next hu) (answers_ite (hnext (by simp +decide [hu])) ?_)
  split
  · exact answers_ite (hnext (by simp +decide [h1])) (hnext (by simp +decide [h1]))
  · exact answers_ite (answers_next h1) (answers_ite (hnext (by simp +decide [h1])) (hnext (by simp +decide [h1])))

theorem exec_gatesFrom_frameBoundary (t : Nat) (req : List Nat) (lines : List LineFault) (lanes : List (Nat × Nat)) (late : Bool) (s : State) :
    answers (exec (.frameBoundary t req lines lanes late) s) (gatesFrom s) := by
  simp -zeta only [exec, execFrameBoundary]
  extract_lets s0 s1 s2 s3 s4
  have h0 : gatesFrom s s0 := (gatesFrom_follow ..).1 (by simp +decide [s0, gatesFrom_refl])
  have h3 : gatesFrom s s3 := (gatesFrom_follow ..).1 (by simp +decide [s3, s2, s1, h0])
  clear_value s3
  have h4 : gatesFrom s s4 := (gatesFrom_follow ..).1 (by simp +decide [s4, -keepsBut_ite, keepsBut_ite_iff, exists_and_ite, h3])
  clear_value s4
  refine answers_ite (answers_next (gatesFrom_refl s)) (answers_next (gatesFrom_ite ?_ ?_))
  · exact gatesFrom_runFrame (by simp +decide [h4]) late
  · exact (gatesFrom_follow ..).1 (by simp +decide [h4])

theorem exec_gatesFrom_tickBoundary (t : Nat) (ana : Density) (s : State) : answers (exec (.tickBoundary t ana) s) (gatesFrom s) := by
  simp -zeta only [exec, execTickBoundary]
  extract_lets u v s1
  have hu : gatesFrom s u := (gatesFrom_follow ..).1 (by simp +decide [u, gatesFrom_refl])
  have h1 : gatesFrom s s1 := gatesFrom_forEach_of (fun n s hs => gatesFrom_stopDue (by simp +decide [hs]) _ n) _
    ((gatesFrom_follow ..).1 (by simp +decide [v, -keepsBut_ite, keepsBut_ite_iff, exists_and_ite, hu]))
  clear_value s1
  refine answers_ite (answers_next hu) (answers_next (gatesFrom_forEach_of (fun n s hs => ?_) _ h1))
  extract_lets l
  split
  · exact gatesFrom_ite ((gatesFrom_follow ..).1 (by simp +decide [hs])) ((gatesFrom_follow ..).1 (by simp +decide [hs]))
  · exact hs

/-- A command of the Guard touches neither POR_N nor the supplies. -/
theorem notMem_mayChange_of_guardCommand {c : Instr} (hc : guardCommand c = true) : Piece.boot ∉ mayChange c ∧ Piece.pwr ∉ mayChange c := by
  cases c with
  | guardValue | guardMean | floopEdgeDrive | floopInEdge | floopEdgeNotReturned | tripInputChange | tripDiscrepancy | cfbChange | contactorFeedbackFault | contactorWeld
  | guardScvRecompute | permitLapse | resetNFall | resetNRise | stuckReset | stuckResetClear => simp +decide [mayChange]
  | _ => cases hc

theorem exec_gatesFrom_guardCommand {c : Instr} (hc : guardCommand c = true) (s : State) : answers (exec c s) (gatesFrom s) := by
  obtain ⟨t, f, hexec, -⟩ := exec_guardCommand hc s
  obtain ⟨r, hr, hkeep⟩ := exec_frame c s
  obtain rfl : guardDo t f s = r := by simpa [hexec] using hr
  obtain ⟨hb, hp⟩ := notMem_mayChange_of_guardCommand hc
  exact ⟨_, hr, gatesFrom_guardDo hkeep hb hp⟩

/-- Every command answers a later state of the module. -/
theorem exec_gatesFrom (c : Instr) (s : State) : answers (exec c s) (gatesFrom s) := by
  have hnext (t : State) (ht : ∃ u, gatesFrom s u ∧ keepsBut notGates u t) : answers (.next t) (gatesFrom s) := answers_next ((gatesFrom_follow s t).1 ht)
  have h : gatesFrom s s := gatesFrom_refl s
  cases c with
  | guardValue | guardMean | floopEdgeDrive | floopInEdge | floopEdgeNotReturned | tripInputChange | tripDiscrepancy | cfbChange | contactorFeedbackFault | contactorWeld
  | guardScvRecompute | permitLapse | resetNFall | resetNRise | stuckReset | stuckResetClear => exact exec_gatesFrom_guardCommand rfl s
  | porNRelease => exact exec_gatesFrom_porNRelease ..
  | porNAssert => exact exec_gatesFrom_porNAssert ..
  | vmainLoss => exact exec_gatesFrom_vmainLoss ..
  | vmainReturn => exact exec_gatesFrom_vmainReturn ..
  | vguardLoss => exact exec_gatesFrom_vguardLoss ..
  | deepTestEnd => exact exec_gatesFrom_deepTestEnd ..
  | contactorRelease => exact exec_gatesFrom_contactorRelease ..
  | aliveToggle => exact exec_gatesFrom_aliveToggle ..
  | startStep => exact exec_gatesFrom_startStep ..
  | frameBoundary => exact exec_gatesFrom_frameBoundary ..
  | tickBoundary => exact exec_gatesFrom_tickBoundary ..
  | close | keepalive | readItems | readSlots | readMap | subscribe | unsubscribe | paramRead | editLock | paramWrite | commit
  | discard | eventList | recRead | progLoad | progRead | updBegin | updChunk | updStatus | capRead | journalRead | bistRead =>
    exact hnext _ (by simp +decide [h])
  | fhpDatagram | startTimeAcquisition | startDiscoveryEnd | changeMode | confirmScv | measurementLostStop | laneSample | laneTakeover
  | bulkUp | estimatorUpdate | combPublication | programDeadline | safetyEvaluation | safetyEvaluationMissed | fslWatchdogExpiry | permitWithdrawn | clearFailedConnection
  | roundSupplySample | bistSlice | bistSliceAbort | fetchTrap | restartModule | dmaHalt | pfwNFall | powerFailSequenceEnd | commitComplete | renewNetworkKey
  | runDeepSelfTest | activationSequence =>
    simp -zeta only [exec, execFhpDatagram, execStartTimeAcquisition, execStartDiscoveryEnd, execChangeMode, execConfirmScv, execMeasurementLostStop, execLaneSample, execLaneTakeover,
      execBulkUp, execEstimatorUpdate, execCombPublication, execProgramDeadline, execSafetyEvaluation, execSafetyEvaluationMissed, execFslWatchdogExpiry, execPermitWithdrawn, execClearFailedConnection,
      execRoundSupplySample, execBistSlice, execBistSliceAbort, execFetchTrap, execRestartModule, execDmaHalt, execPfwNFall, execPowerFailSequenceEnd, execCommitComplete, execRenewNetworkKey, execRunDeepSelfTest, execActivationSequence]
    repeat' first
      | refine answers_ite ?_ ?_
      | refine hnext _ ?_
      | extract_lets
      | split
    all_goals simp +decide +zetaDelta [-keepsBut_ite, keepsBut_ite_iff, exists_and_ite, h]
  | _ => exact exec_gatesFrom_of_frame (by simp +decide [mayChange]) s

/-- Settles O58: the frame of the command, in which the queue never stands, and the unique ID followed through it. -/
theorem everyCommandCompletes : Obligations.EveryCommandCompletes := by
  intro c s
  obtain ⟨t, ht, hkeep⟩ := exec_frame c s
  obtain ⟨r, hr, hgates⟩ := exec_gatesFrom c s
  obtain rfl : r = t := by simpa [hr] using ht
  exact ⟨r, ht, hkeep, hkeep .pending (pending_notMem_mayChange c), hgates.uid⟩

/-- A step with no command waiting leaves the gates and what they are read from; one with a command waiting is that command. -/
theorem step_gatesFrom {s r : State} (h : step s = .next r) : gatesFrom s r := by
  unfold step at h
  split at h
  · obtain rfl : canIdle s = r := by simpa using h
    exact (gatesFrom_follow ..).1 (by simp +decide [gatesFrom_refl])
  · next c rest _ =>
    obtain ⟨t, ht, hgates⟩ := exec_gatesFrom c { s with pending := rest }
    obtain rfl : r = t := by simpa [ht] using h.symm
    have hqueue : sameGates s { s with pending := rest } := ⟨rfl, fun _ => rfl, fun _ => rfl⟩
    exact (gatesFrom_of_sameGates hqueue).trans hgates

/-- Settles O25: no step leaves a GATE_EN high without both permits, and a command of the Guard ends in the stage, which turns a contactor output on under both permits only. -/
theorem guardOutputsSafe : Obligations.GuardOutputsSafe := by
  constructor
  · intro s r hsafe hstep n hn hon
    obtain hp | ⟨hs, hkeep⟩ := (step_gatesFrom hstep).gate n hn hon
    · exact hp
    · exact hkeep (hsafe n hn hs)
  · intro c s hc hup
    obtain ⟨t, f, hexec, hctr⟩ := exec_guardCommand hc s
    refine ⟨_, hexec, fun n k _ hk hon => ?_⟩
    have hon' : ctrOut (guardEval (f (s.at_ t))) n k = true := by rwa [guardDo_eq hup] at hon
    rw [guardDo_eq hup]
    refine (ctrOut_guardEval hk hon').imp_left fun h => ?_
    rwa [ctrOut, hctr] at h

end Sys2Proof.Machine
end
